-- ==== Sys2Proof/Word.lean ====
section
/-! DEFINITION. The word types of the KH-3240 model and their plainest arithmetic. -/

namespace Sys2Proof

/-- A 32-bit register word (R7). -/
abbrev Word := BitVec 32

/-- One byte of a frame or of an entry. -/
abbrev Byte := BitVec 8

/-- A frame, an entry or a block of a memory, byte 0 first. -/
abbrev Bytes := List Byte

/-- The word that holds the low 32 bits of a number. -/
def Word.ofNat (n : Nat) : Word := BitVec.ofNat 32 n

end Sys2Proof
end

