-- ==== Sys2Proof/Syntax.lean ====
section
/-! DEFINITION. The commands of the KH-3240: one constructor per row of the table of operations and events, and the data they carry. -/

namespace Sys2Proof

/-- A host command as its ring entries give it (R489): issuing function and ring, and the fields of Table 18-4. -/
structure HostCmd where
  fn : Nat
  ring : Nat
  opcode : Nat
  tag : Nat
  table : Nat
  sub : Nat
  opnd : Bytes
  deriving DecidableEq, Repr

/-- An item of the CMD stream (R342): a table command with its completion status, or a register write. -/
inductive CmdItem where
  | table (c : HostCmd) (status : Nat)
  | reg (fn addr data : Nat)
  deriving DecidableEq, Repr

/-- What RESET_EXIT samples: VBAT in millivolts (R436), and the measurement of the five RCAL references (R474). -/
structure StartSense where
  vbatMv : Nat
  rcal : List Nat
  deriving DecidableEq, Repr

/-- The FEC codewords of a received frame: corrected ones and uncorrectable ones (R64). -/
structure FecWords where
  corr : Nat
  unc : Nat
  deriving DecidableEq, Repr

/-- A port, and as a mask which of its lanes have lost lock (R62). -/
structure PortLanes where
  port : Fin 160
  lanes : Fin 256
  deriving DecidableEq, Repr

/-- How a lookup pass ends: whether its fragment entry is damaged, and whether the frames stay before the action stage (R88). -/
structure PassEnd where
  fragBad : Bool
  hold : Bool
  deriving DecidableEq, Repr

/-- What reading a working copy found: the words now uncorrectable, and how many errors were corrected (R115). -/
structure PatternRead where
  bad : List Nat
  corr : Nat
  deriving DecidableEq, Repr

/-- The write of a changed tag line to the DRAM: the interface, its retries, and whether it ended well (R315, R317). -/
structure TagWrite where
  di : Fin 24
  retries : Nat
  ok : Bool
  deriving DecidableEq, Repr

/-- A lane of a group, and whether its slip buffer holds a frame in part (R278). -/
structure SlipAt where
  lane : Fin 28
  part : Bool
  deriving DecidableEq, Repr

/-- A bank of a DRAM interface (R308). -/
structure DiBank where
  di : Fin 24
  bank : Fin 64
  deriving DecidableEq, Repr

/-- An arbiter message as received, its sync word and its 48-bit body (R329, R330). -/
structure LandingBits where
  sync : Fin 65536
  body : Nat
  deriving DecidableEq, Repr

/-- A NACK of the standby: the SEQ it asks for, and whether it names the REPLAY stream (R342, R351). -/
structure NackAsk where
  seq : Nat
  replay : Bool
  deriving DecidableEq, Repr

/-- A part of a REPLAY region: its place in the stream and its items (R340, R351). -/
structure ReplayPart where
  seq : Nat
  items : List CmdItem
  deriving DecidableEq, Repr

/-- The 64 KiB blocks of slow page programs, and those erased once more (R405, R406). -/
structure NvmPages where
  slow : List Nat
  again : List Nat
  deriving DecidableEq, Repr

/-- An address in a BAR and the width of the access in bytes (R7). -/
structure BusAt where
  addr : Nat
  width : Nat
  deriving DecidableEq, Repr

/-- A command of the block: an operation of the host, of the board or of the partner card, or an event that the device's
own engines, clocks and analogue parts bring about. Operands carry what comes from outside the state. -/
inductive Instr where
  /-- VIN_GOOD (R435): VIN has stayed above V_GOOD for 1 ms, so the device enters RESET and the regulators ramp. -/
  | vinGood (lost : List Nat)
  /-- VIN_FAIL (R438): VIN stays below V_FAIL for 1 us or falls below V_POR, so the device runs the shutdown of R439 into OFF. -/
  | vinFail
  /-- VIN_DIP (R438): A dip below V_FAIL shorter than 1 us that stays above V_POR is ridden through and counted. -/
  | vinDip
  /-- VIN_WARN (R437): VIN stays below V_WARN for 2 us, so the device reports PWR_VIN_WARN and blocks NVM and OTP programming. -/
  | vinWarn
  /-- VIN_WARN_CLEAR (R437): VIN stays above V_WARN + 50 mV for 100 us, so the warning clears and NVM and OTP work resumes. -/
  | vinWarnClear
  /-- RESET_L_LOW (R32): RESET_L is recognised low, so the device enters RESET from any state other than OFF. -/
  | resetLLow
  /-- RESET_EXIT (R32): RESET_L is high, the regulators are in range and the AON clock runs, so the device enters LOAD. -/
  | resetExit (testmode : Bool) (sense : StartSense)
  /-- NVM_ID_ATTEMPT (R360): The loader reads the JEDEC ID, retrying up to 3 times 1 ms apart; with no valid ID the device enters HOLD with NVM_NO_ANSWER. -/
  | nvmIdAttempt (valid octal : Bool)
  /-- IMAGE_BLOCK_READ (R370): An image block, header or directory read completes and is checked, re-read, or failed with BLOCK_CRC. -/
  | imageBlockRead (data : Bytes)
  /-- LOAD_COMPLETE (R32): The directory and both images have been read, so the device enters VERIFY. -/
  | loadComplete
  /-- VERIFY_COMPLETE (R371): The checks of Table 13-7 finish, so the device enters APPLY or HOLD. -/
  | verifyComplete
  /-- CONFIG_RECORD (R367): APPLY applies one configuration record, or enters HOLD on a missing or unsealable record. -/
  | configRecord
  /-- APPLY_COMPLETE (R367): After the END record the APPLY checks pass, the seal is set, and the device enters BRINGUP. -/
  | applyComplete (counted : Nat)
  /-- BRINGUP_COMPLETE (R32): The firmware reports bring-up complete, so the device enters RUN. -/
  | bringupComplete
  /-- ROOT_PLL_LOCK_TIMEOUT (R416): A root PLL has not locked 1 ms after start, so the device enters HOLD with PLL_LOCK. -/
  | rootPllLockTimeout
  /-- PLL_LOCKED (R418): A PLL achieves lock within its lock time. -/
  | pllLocked (p : Fin 25)
  /-- RAMP_STEP (R413): At a 16 us ramp tick, a domain or branch moves to its next divider step. -/
  | rampStep
  /-- STAIR_TRANSFER (R14): A transfer crosses the Stair under CRC, is retried, or is abandoned with its frame dropped. -/
  | stairTransfer (up : Bool) (lane : Fin 52) (retries : Fin 5) (ok : Bool)
  /-- LINE_LANE_CALIBRATION (R41): Calibration of a line lane on internal loopback completes, or fails and marks the lane out of service. -/
  | lineLaneCalibration (g : Fin 20) (l : Fin 8) (ok : Bool)
  /-- LINK_TRAINING_DONE (R42): IEEE 802.3 link training of a port completes or fails. -/
  | linkTrainingDone (p : Fin 160) (ok : Bool)
  /-- LINK_TRAINING_RETRY (R42): A failed training is retried after 1 s while the transmitter is not DISABLED. -/
  | linkTrainingRetry (p : Fin 160)
  /-- RETRAIN (R42): A write of LIN_PORT_CTL.RETRAIN starts a new training at once, or a receiver relock. -/
  | retrain (p : Fin 160)
  /-- ADMIN (R46): A write of LIN_PORT_CTL.ADMIN sets the port's administrative state, or is refused for value 3. -/
  | admin (p : Fin 160) (v : Nat)
  /-- LINE_FRAME_RECEIVE (R43): The receive MAC takes a whole frame, checks length and FCS, timestamps it and hands it on or discards it. -/
  | lineFrameReceive (p : Fin 160) (b : Bytes) (preambleOk pcsErr fecErr : Bool) (fec : FecWords)
  /-- MAC_CONTROL_FRAME (R51): A received MAC control frame updates pause timers or is discarded as MACCTL_BAD. -/
  | macControlFrame (p : Fin 160) (b : Bytes)
  /-- PAUSE_TIMER_EXPIRE (R52): A class's pause timer runs out and the class may send again. -/
  | pauseTimerExpire (p : Fin 160) (k : Fin 8)
  /-- PFC_REFRESH (R54): Every REFRESH quanta while a class stays in XOFF, the port repeats its XOFF frame. -/
  | pfcRefresh (p : Fin 160)
  /-- PFC_STORM_DETECT (R56): A class that has stayed paused with waiting frames for DETECT_MS enters suspension. -/
  | pfcStormDetect (p : Fin 160) (k : Fin 8)
  /-- PFC_STORM_RESTORE (R56): A suspended class that has received no non-zero quanta for RESTORE_MS leaves suspension. -/
  | pfcStormRestore (p : Fin 160) (k : Fin 8)
  /-- LINK_FAULT_DETECT (R49): A loss of alignment, block lock or high BER takes the receive link down and makes the port send remote fault. -/
  | linkFaultDetect (w : PortLanes)
  /-- REMOTE_FAULT_RECEIVED (R49): Received remote-fault ordered sets make the port send idle blocks. -/
  | remoteFaultReceived (p : Fin 160)
  /-- SYNCE_RESUME (R62): After the lane has held lock for 10 ms, the SyncE output resumes. -/
  | synceResume (k : Fin 2)
  /-- INGRESS_PASS (R66): An ingress pipeline parses a frame, looks it up, classifies it and applies its action entry for one pass. -/
  | ingressPass (n : Fin 20) (bad : List Nat) (trie : Option Nat) (how : PassEnd)
  /-- FRAG_ENTRY_AGE (R92): A fragment table entry is removed AGE_MS after its last restart. -/
  | fragEntryAge (n : Fin 20) (set : Fin 1024) (i : Fin 4)
  /-- FRAG_FLUSH (R93): A write of PRS_FRAG_CTL.FLUSH empties a pipeline's fragment table. -/
  | fragFlush (n : Fin 20)
  /-- SCAN_WINDOW (R103): A signature engine scans one frame's window from its scan queue and builds the result record. -/
  | scanWindow (n : Fin 20) (patterns : PatternRead)
  /-- SIG_WRITE (R110): The command writes and validates a pattern entry of the shadow bank. -/
  | sigWrite (c : HostCmd)
  /-- SIG_INVALIDATE (R110): The command clears VALID of a shadow entry. -/
  | sigInvalidate (c : HostCmd)
  /-- SIG_PROFILE (R110): The command writes a scan profile of the shadow bank. -/
  | sigProfile (c : HostCmd)
  /-- SIG_CLEAR (R110): The command invalidates every shadow entry and resets its profiles. -/
  | sigClear (c : HostCmd)
  /-- SIG_COPY (R110): The command starts copying the active bank into the shadow. -/
  | sigCopy (c : HostCmd)
  /-- SIG_COPY_DONE (R110): The copy completes and COPY_BUSY clears. -/
  | sigCopyDone
  /-- SIG_SWAP (R112): The command swaps the banks at once, or schedules the swap and sets SWAP_PEND. -/
  | sigSwap (c : HostCmd)
  /-- SIG_SWAP_INSTANT (R111): A scheduled swap reaches its PTP time and all engines change bank in one cycle. -/
  | sigSwapInstant
  /-- SIG_READ (R110): The command returns an entry or profile from the master copy. -/
  | sigRead (c : HostCmd) (masterBad : Bool)
  /-- SIG_CANCEL (R112): A write of SIG_STORE_CTL.CANCEL withdraws a pending swap. -/
  | sigCancel
  /-- OLD_BANK_DRAINED (R113): The last window on the old bank completes and OLD_BUSY clears. -/
  | oldBankDrained
  /-- SIG_ENTRY_REPAIR (R115): An entry of an engine's working copy found uncorrectable is rewritten from the master. -/
  | sigEntryRepair (n : Fin 20) (key : Nat) (masterBad : Bool)
  /-- INSERT (R144): The table command adds an entry, or returns EXISTS, FULL, REHASH or a refusal status. -/
  | insert (c : HostCmd)
  /-- DELETE (R144): The table command removes an entry, or returns NOT_FOUND or IN_USE. -/
  | delete (c : HostCmd)
  /-- MODIFY (R144): The table command replaces the result of a present entry at one cycle. -/
  | modify (c : HostCmd)
  /-- SEARCH (R144): The table command returns what a frame with the given key would hit. -/
  | search (c : HostCmd)
  /-- NEXT (R147): The table command returns the next entry in scope in table order. -/
  | next (c : HostCmd)
  /-- READ_ENTRY (R144): The table command returns the stored entry and its location. -/
  | readEntry (c : HostCmd)
  /-- MOVE (R132): The table command moves a hashed entry to its other candidate bucket. -/
  | move (c : HostCmd)
  /-- FLUSH_BY_PORT (R148): The table command queues a flush of MAC entries of a system port, or is refused BUSY. -/
  | flushByPort (c : HostCmd)
  /-- FLUSH_BY_PORT_DONE (R148): The flush sweep ends and its completion gives the number of entries removed. -/
  | flushByPortDone
  /-- NOP (R489): The command completes OK and marks a point in the ring. -/
  | nop (c : HostCmd)
  /-- LEARN_BUS_MSG (R136): A shared learn or move from the learn bus is applied to a receiving MAC copy. -/
  | learnBusMsg
  /-- LEARN_REFRESH_MSG (R139): A refresh from the learn bus sets AGE to 0 in each copy that holds the entry. -/
  | learnRefreshMsg
  /-- AGE_SWEEP (R138): Every AGE_S / 4 seconds, a sweep increments AGE and removes entries that reach 5. -/
  | ageSweep (n : Fin 20) (t : Fin 256)
  /-- TRIE_NODE_REBUILD (R118): A trie node with an uncorrectable word is rebuilt from the stored routes. -/
  | trieNodeRebuild
  /-- POLICER_SWEEP (R157): The background sweep brings every policer up to date at least once every 10 s. -/
  | policerSweep
  /-- RECIRC_SLOT (R162): A pipeline slot takes the head of the recirculation queue for another pass. -/
  | recircSlot (n : Fin 20)
  /-- HALL_RELEASE (R165): The Hall releases a frame toward the Stair once no earlier frame of its pair is outstanding. -/
  | hallRelease (n : Fin 20)
  /-- EGRESS_PASS (R176): EPn applies the recorded edits, egress policy, the MTU check, PTP handling and the FCS. -/
  | egressPass (n : Fin 20)
  /-- BUFFER_ARRIVAL (R191): The buffer manager decides, places, charges and enqueues an arriving frame or copy, or drops it. -/
  | bufferArrival (lane : Fin 52)
  /-- DRAM_READ_COMPLETE (R194): A frame's DRAM read completes and its lines are verified before delivery in queue order. -/
  | dramReadComplete (q : Fin 1048576) (k retries : Nat) (failed : List Nat) (flips : List (Nat × Nat))
  /-- DRAM_WRITE_COMPLETE (R315): A DRAM line write completes, or is retried, or is marked failed. -/
  | dramWriteComplete (i : Fin 24) (retries : Nat) (ok : Bool) (flip : Nat)
  /-- MERGE_TIMEOUT (R306): An open line held for MERGE_NS is written with 0x00 in place of its missing bytes. -/
  | mergeTimeout (i : Fin 24)
  /-- TAG_WRITEBACK (R317): A changed tag line is written back within 10 us of its last change. -/
  | tagWriteback (w : TagWrite)
  /-- WM_CROSSED_CLEAR (R223): A write of 1 to CROSSED clears CROSSED, COUNT and TIME. -/
  | wmCrossedClear (monitorNotPool : Bool) (i : Nat)
  /-- QWM_CONFIG (R223): A write to CGM_QWM_CFG resets every item of the queue monitor. -/
  | qwmConfig (m : Fin 4096) (v : Nat)
  /-- REQUEST_RETRY (R231): OUT stays above 0 for REQ_RETRY_US without a credit, so it is reset to 0 and the VOQ requests afresh. -/
  | requestRetry (q : Fin 1048576)
  /-- CREDIT_GRANT (R232): The credit generator of a system port grants one credit, paced by its shaper profile. -/
  | creditGrant (port : Fin 65536)
  /-- VOQ_TIMEOUT (R235): A VOQ with frames that has had no credit for TIMEOUT_MS drops every frame it holds. -/
  | voqTimeout (q : Fin 1048576)
  /-- VOQ_DEQUEUE (R236): The toward-fabric scheduler sends a frame from a ready VOQ with a positive balance. -/
  | voqDequeue (bad : Bool)
  /-- EGRESS_SELECT (R240): The egress scheduler picks a path from an L4 node to a queue and dequeues its head frame. -/
  | egressSelect (n : Fin 161) (bad : Bool)
  /-- CALENDAR_SLOT (R245): At a ring-0 slot boundary, nodes whose TE has passed become eligible and entries move between rings. -/
  | calendarSlot
  /-- FENCE_LIFT (R257): The old queue empties and the fenced queue becomes ready. -/
  | fenceLift (i : Nat)
  /-- FENCE_TIMEOUT (R257): After FENCE_US the frames left in the old queue are dropped and the fence lifts. -/
  | fenceTimeout (i : Nat)
  /-- GATE_ENTRY_CHANGE (R251): A gate-control list entry takes effect at its scheduled PTP time. -/
  | gateEntryChange (p : Fin 160)
  /-- GATE_ENABLE (R251): A write of SCH_GATE_CTL.EN applies or stops applying the gate list. -/
  | gateEnable (p : Fin 160) (en : Bool)
  /-- GATE_CHANGE (R252): A write of CHANGE schedules the other bank at the change time, or sets CFG_ERR. -/
  | gateChange (p : Fin 160)
  /-- GATE_CANCEL (R252): A write of CANCEL withdraws a pending gate list change. -/
  | gateCancel (p : Fin 160)
  /-- GATE_ACTIVATE (R252): At the change time the running cycle is cut and the new bank starts at entry 0. -/
  | gateActivate (p : Fin 160)
  /-- STAGED_FRAME_START (R254): A staged frame starts at the line MAC once its gate, pause state and fit allow it. -/
  | stagedFrameStart (p : Fin 160) (k : Fin 8)
  /-- GATE_NOFIT (R254): A staged frame that has waited a full cycle time without starting is dropped. -/
  | gateNofit (p : Fin 160) (k : Fin 8)
  /-- EPOCH_WINDOW (R425): At the end of each 1 ms window, the epoch correction is set for the next window. -/
  | epochWindow
  /-- FABRIC_LANE_CALIBRATION (R261): Calibration of a fabric lane completes, or fails and marks the lane out of service. -/
  | fabricLaneCalibration (g : Fin 8) (l : Fin 28) (ok : Bool)
  /-- FABRIC_TRAINING_RETRY (R261): A failed fabric lane training is retried after 1 s while the group is not DISABLED. -/
  | fabricTrainingRetry (g : Fin 8) (l : Fin 28)
  /-- CARAVAN_FRAME_SEND (R272): Each lane sends one Caravan frame with its overhead and cells or an inserted idle frame. -/
  | caravanFrameSend (gal : Bool)
  /-- CARAVAN_FRAME_RECEIVE (R276): A received frame is aligned and its FAS, MFAS, TRAIL, STAT, BIP-16, SRQ and BKP are processed. -/
  | caravanFrameReceive (g : Fin 9) (l : Fin 28) (frame : Bytes) (fecCorr : Nat) (fecLost : Bool)
  /-- SLIP_READ (R278): At each read boundary the slip buffer reads, drops or repeats a frame. -/
  | slipRead (g : Fin 9) (w : SlipAt)
  /-- CELL_RECEIVE (R280): A received cell is checked and delivered, held, discarded or acted on by its type. -/
  | cellReceive (g : Fin 8) (l : Fin 28)
  /-- HOLE_TIMEOUT (R281): A hole waits TIMEOUT_US, so the missing cells are declared lost or the context enters RESYNC. -/
  | holeTimeout (src dst : Fin 65536) (cls : Fin 8)
  /-- CONTEXT_FREE (R280): A context that has held and received nothing for 1 s is freed. -/
  | contextFree (src dst : Fin 65536) (cls : Fin 8)
  /-- DEFECT_DECLARE (R283): A defect condition has held for SET, so the defect is declared. -/
  | defectDeclare (g : Fin 9) (l : Fin 28) (d : Fin 7)
  /-- DEFECT_CLEAR (R283): A defect has been absent for CLEAR, so it is cleared. -/
  | defectClear (g : Fin 9) (l : Fin 28) (d : Fin 7)
  /-- DEG_INTERVAL (R283): At the end of each DEG_INT_US interval, BIP-errored frames are compared with DEG_TH. -/
  | degInterval (g : Fin 8) (l : Fin 28)
  /-- BKP_WATCHDOG (R275): A received REQ bit held for WD_MS is ignored, and BKP_STUCK counts. -/
  | bkpWatchdog (g k : Fin 8)
  /-- PROT_CLEAR (R286): FAB_PROT_CTL CLEAR removes the host switching request. -/
  | protClear
  /-- PROT_MANUAL_SWITCH (R286): FAB_PROT_CTL MS sets a manual switch request on a plane. -/
  | protManualSwitch (plane : Fin 16)
  /-- PROT_FORCED_SWITCH (R286): FAB_PROT_CTL FS sets a forced switch request on a plane. -/
  | protForcedSwitch (plane : Fin 16)
  /-- PROT_LOCKOUT (R286): FAB_PROT_CTL LO sets lockout of protection. -/
  | protLockout
  /-- PROT_TEST (R286): FAB_PROT_CTL test sends the test request with no effect on the spray set. -/
  | protTest
  /-- WTR_EXPIRE (R287): Wait to restore runs out and becomes no request. -/
  | wtrExpire
  /-- SRQ_INC_DECLARE (R290): No SRQ value is accepted within 12 frames of a departure, so SRQ-INC is declared. -/
  | srqIncDeclare
  /-- PM_SECOND (R293): At each whole PTP second, lane and group seconds are classified and UAS is adjusted. -/
  | pmSecond
  /-- DRAM_TRAINING (R310): Full training of an interface completes, or fails and leaves the interface OUT_OF_SERVICE. -/
  | dramTraining (i : Fin 24) (ok : Bool)
  /-- DRAM_REFRESH (R307): A per-bank refresh command is issued to a device bank. -/
  | dramRefresh (w : DiBank)
  /-- DRAM_TEMP_READOUT (R307): Every 1 ms, the device temperature is read and the refresh multiplier is set. -/
  | dramTempReadout (i : Fin 24) (t : Option (Fin 256))
  /-- RETRAIN_DUE (R311): A periodic or temperature-driven retraining pause falls due for an interface. -/
  | retrainDue (i : Fin 24)
  /-- DRC_RETRAIN (R311): A write of DRC_DI_CTL.RETRAIN makes a pause due. -/
  | drcRetrain (i : Fin 24)
  /-- PAUSE_BEGIN (R313): Exactly 300 ns after the announcement, the pause begins. -/
  | pauseBegin (i : Fin 24)
  /-- PAUSE_END (R314): The retraining ends, or fails and owes a new pause, or fails the interface. -/
  | pauseEnd (i : Fin 24) (ok : Bool)
  /-- DRAM_TEST_STEP (R321): A background step tests one free buffer with March C- and may retire it. -/
  | dramTestStep (i : Fin 24) (k : Fin 8) (ok : Bool)
  /-- LEASE (R335): An accepted LEASE makes a withdrawn card ACTIVE or renews the lease. -/
  | lease (typ : Fin 256) (msg : LandingBits) (crc : Fin 256) (framed : Bool)
  /-- STANDBY (R335): An accepted STANDBY message makes the card STANDBY, subject to the digest. -/
  | standby (msg : LandingBits) (crc : Fin 256) (framed : Bool)
  /-- SWITCH (R353): An accepted SWITCH makes a standby card ACTIVE within the switch-over gap. -/
  | switch (msg : LandingBits) (crc : Fin 256) (framed : Bool)
  /-- WITHDRAW (R353): An accepted WITHDRAW makes the card WITHDRAWN and stops its transmission. -/
  | withdraw (msg : LandingBits) (crc : Fin 256) (framed : Bool)
  /-- ARB_LOSS (R332): No valid arbiter message for ARB_LOSS_US, so ARB_OK falls to 0. -/
  | arbLoss
  /-- LEASE_EXPIRE (R334): The lease runs out and the active card clears LEASE_VALID. -/
  | leaseExpire
  /-- HEALTH_SEND (R331): Every 1 ms in pair mode, the card sends HEALTH to the arbiter. -/
  | healthSend
  /-- HELLO_SEND (R331): In each 10 us interval with nothing else due, the card sends HELLO. -/
  | helloSend
  /-- FAULT_MSG_SEND (R531): A waiting FAULT message is sent on the Landing interface. -/
  | faultMsgSend
  /-- GALLERY_HELLO_SEND (R341): Every 10 us, a CONTROL HELLO is sent on the Gallery link. -/
  | galleryHelloSend
  /-- GALLERY_HELLO_RECEIVE (R349): A partner HELLO is taken and the digests are compared. -/
  | galleryHelloReceive (partner : Fin 4) (digest : Bytes) (alt : Option Bytes) (resync : Bool)
  /-- GALLERY_LOSS (R340): No partner HELLO within GAL_LOSS_US, so GALLERY_UP falls to 0. -/
  | galleryLoss
  /-- CMD_ITEM_APPLY (R345): The standby applies one CMD item in SEQ order. -/
  | cmdItemApply (rx : Option (Nat × CmdItem))
  /-- NACK_RECEIVE (R342): A NACK makes the active card resend from the named SEQ, or unsynchronises the standby. -/
  | nackReceive (ask : NackAsk)
  /-- ACK_STALL (R342): ACK_SEQ has not advanced for 100 us, so items are resent from the oldest unacknowledged. -/
  | ackStall
  /-- STATE_SNAPSHOT (R347): At each multiple of STATE_US, the active card takes and sends a snapshot. -/
  | stateSnapshot
  /-- STATE_RECORD_APPLY (R347): The standby writes a received snapshot record. -/
  | stateRecordApply (rec : Option (Nat × Nat × Int × Int))
  /-- BASELINE_LATCH (R348): At each multiple of BASE_S, both cards latch every statistics pair. -/
  | baselineLatch
  /-- BASELINE_APPLY (R348): The standby stores the offset for each pair of a received BASELINE. -/
  | baselineApply (i frames bytes : Nat)
  /-- RESYNC (R350): A write of PAIR_CTL.RESYNC starts a resynchronisation. -/
  | resync (v : Nat)
  /-- REPLAY_REGION (R351): A REPLAY region is received and applied by the standby. -/
  | replayRegion (part : ReplayPart)
  /-- RESYNC_COMPLETE (R351): Every region has been replayed, so SYNC becomes 1. -/
  | resyncComplete (seq : Nat)
  /-- STANDBY_PROBE (R356): Every PROBE_US on a standby card, one probe frame per pipeline is injected. -/
  | standbyProbe
  /-- MARGIN_MEASURE (R356): Every MARGIN_MS, receiver margin is measured on every lane in service. -/
  | marginMeasure (margins : List Nat)
  /-- PARTNER_FAULT_RECORD (R538): A partner record from the Gallery FAULT stream is written into the record ring. -/
  | partnerFaultRecord (rcd : List Word)
  /-- REREAD (R375): A write of BOOT_HOLD_CTL.REREAD in HOLD resets sealed state and re-enters LOAD. -/
  | reread (v : Nat)
  /-- PUSH_START (R376): A write of BOOT_PUSH_CTL.START begins a DMA image push, or sets REFUSED. -/
  | pushStart (v : Nat)
  /-- PUSH_COMPLETE (R376): The pushed image is read and checked, and the device enters VERIFY or acts on a token or enrolment. -/
  | pushComplete (dmaOk : Bool) (data : Bytes)
  /-- PUSH_SLOT_PROGRAM (R377): A verified push with PROGRAM = 1 is written to its slot and the directory is rewritten, or PROG_FAIL is set. -/
  | pushSlotProgram (nvmOk : Bool)
  /-- COMMIT_FW (R372): A write of COMMIT_FW programs the firmware anti-rollback floor, or is refused. -/
  | commitFw
  /-- COMMIT_CFG (R372): A write of COMMIT_CFG programs the configuration anti-rollback floor, or is refused. -/
  | commitCfg
  /-- KEY_REVOKE (R373): A write of BOOT_KEY_CTL with REVOKE and CONFIRM revokes a key slot, or is refused. -/
  | keyRevoke (v : Nat)
  /-- TO_FIELD (R380): A write of BOOT_LC_CTL.TO_FIELD commits FACTORY to FIELD, or is refused. -/
  | toField (v : Nat)
  /-- STAGE_START (R390): A write of UPD_STAGE_CTL.START begins staging an image into the inactive slot. -/
  | stageStart (v : Nat)
  /-- STAGING_DONE (R390): Staging ends with the image checked and programmed, or with a failure status. -/
  | stagingDone (dmaOk nvmOk : Bool) (data : Bytes) (pages : NvmPages)
  /-- PREPARE_DONE (R393): The shadow state is built and checked, and REQ_CLASS and the new digest are set. -/
  | prepareDone
  /-- ARM (R394): The update command arms the activation, or is refused with CLASS or TIME. -/
  | arm (v : Nat)
  /-- DISARM (R394): The update command withdraws the arming. -/
  | disarm (v : Nat)
  /-- ACTIVATION (R395): At UPD_ACT_TIME every block switches to its shadow bank and the firmware swap starts. -/
  | activation
  /-- FIRMWARE_SWAP_DONE (R397): All control cores run the new firmware and the agent enters TRIAL. -/
  | firmwareSwapDone
  /-- CONFIRM (R399): The update command confirms the trial and the directory names the new slots. -/
  | confirm (v : Nat)
  /-- ABANDON (R400): The update command makes a fallback due. -/
  | abandon (v : Nat)
  /-- RESTART_ACT (R402): The update command rewrites the directory and restarts into the new images, or is refused on an ACTIVE card. -/
  | restartAct (v : Nat)
  /-- DISCARD (R389): The update command drops the staged and prepared state in PREPARED. -/
  | discard (v : Nat)
  /-- TRIAL_EXPIRE (R400): The trial window runs out without CONFIRM, so a fallback is due. -/
  | trialExpire
  /-- FALLBACK_START (R400): At the next safe point, a due fallback begins. -/
  | fallbackStart
  /-- FALLBACK_DONE (R401): The old state is restored, or the device restarts into the old slots. -/
  | fallbackDone
  /-- REF_CLOCK_LOSS (R420): A reference clock monitor declares a loss and the PLLs it feeds enter holdover. -/
  | refClockLoss (r : Fin 4)
  /-- REF_CLOCK_RETURN (R419): A reference present for 1 ms without a break returns, and the PLLs re-acquire. -/
  | refClockReturn (r : Fin 4)
  /-- PLL_LOSS (R420): A PLL's lock detector reports a loss with the reference present. -/
  | pllLoss (p : Fin 25)
  /-- CLK_FREQ_ALARM (R420): A frequency offset beyond FREQ_TOL for 3 windows of 10 ms declares CLK_FREQ. -/
  | clkFreqAlarm (r : Fin 3) (offset : Nat)
  /-- PPS_IN_LOSS (R420): No PPS_IN edge for 1.5 s, so the PPS monitor declares a loss. -/
  | ppsInLoss
  /-- CD38_LOSS (R420): The AON clock shows no edge for 2 us and FAULT_L is driven low directly. -/
  | cd38Loss
  /-- RELOCK_FD (R421): A write of CLK_CTL.RELOCK_FD starts a relock of FD_ROOT. -/
  | relockFd
  /-- RELOCK_QD (R421): A write of CLK_CTL.RELOCK_QD starts a relock of QD_ROOT. -/
  | relockQd
  /-- ROOT_RELOCK_DONE (R421): The root relocks and its family ramps back up, or the relock is retried after 100 ms. -/
  | rootRelockDone (r : Fin 2) (ok : Bool)
  /-- TIM_SET (R424): A write of TIM_CTL.SET steps the PTP clock to the set time at the next tick. -/
  | timSet (v : Nat)
  /-- TIM_ADD (R424): A write of TIM_CTL.ADD adds TIM_OFFSET to the PTP clock at the next tick. -/
  | timAdd (v : Nat)
  /-- TIM_INCR_COMMIT (R422): A write of TIM_INCR_HI commits a new increment from the next tick. -/
  | timIncrCommit (v : Nat)
  /-- PPS_OUT_EDGE (R427): PPS_OUT rises at each whole second counted and falls after WIDTH_US. -/
  | ppsOutEdge (rise : Bool)
  /-- PPS_IN_EDGE (R427): A PPS_IN edge captures the PTP time. -/
  | ppsInEdge (falling : Bool)
  /-- CLKOUT_CONFIG (R428): A write of CLK_OUT_CFG takes effect at the next rising edge of CLKOUT. -/
  | clkoutConfig (v : Nat)
  /-- RAIL_OUT (R441): A rail group out of its window for 2 us reports PWR_RAIL and drives PWRGOOD low. -/
  | railOut (k : Fin 7) (die : Fin 2) (slice : Fin 64)
  /-- RAIL_RECOVER (R441): Every rail group has been in range for 100 us, so PWRGOOD is released. -/
  | railRecover
  /-- TEMP_SENSOR_READ (R448): Every 50 us, the monitor reads all 72 sensors and evaluates warning and high thresholds. -/
  | tempSensorRead (temps : List Nat)
  /-- TRIP_RECOVER (R450): Every sensor reads below 140 C and RESET_L is high, so the regulators restart. -/
  | tripRecover
  /-- VBAT_COLLAPSE (R446): The domain supply falls below V_COLL and both markers are invalidated. -/
  | vbatCollapse
  /-- HOLDOVER_WRITE (R445): At each whole second with a known time, the holdover counter is written. -/
  | holdoverWrite
  /-- CLR_REC (R446): A write of PWR_BAT_CTL.CLR_REC invalidates the record marker. -/
  | clrRec
  /-- VIO18_OVERLOAD (R447): VIO18_OUT current beyond the limit folds the output back and reports PWR_VIO18. -/
  | vio18Overload
  /-- TELEMETRY_UPDATE (R461): Every 1 ms, voltage, current and power telemetry is updated. -/
  | telemetryUpdate (vin iin pin vbat vio : Nat) (grp die : List Nat)
  /-- SLICE_ADD (R560): The slice command ADD wakes each masked slice in SLEEP. -/
  | sliceAdd
  /-- SLICE_REMOVE (R560): The slice command REMOVE starts a drain of each masked slice. -/
  | sliceRemove
  /-- SLICE_SLEEP (R560): The slice command SLEEP moves each masked slice to ENTERING without a drain. -/
  | sliceSleep
  /-- DRAIN_END (R562): A draining slice holds no work, or reaches its drain limit, and enters ENTERING. -/
  | drainEnd (n : Fin 40) (limit : Bool)
  /-- ENTERING_DONE (R563): The ENTERING steps complete and the slice is in SLEEP. -/
  | enteringDone (n : Fin 40)
  /-- WAKE_DONE (R564): 180 us after ADD the wake ends and the slice enters JOINING. -/
  | wakeDone (n : Fin 40)
  /-- JOIN (R565): At the end of JOINING the slice rejoins in one step with its maps switched. -/
  | join (n : Fin 40)
  /-- MAINT_GRANT (R567): An arbitration point grants a due maintenance activity a step on its resource. -/
  | maintGrant (a : Fin 6) (res : Nat)
  /-- MAINT_DEADLINE (R568): A due activity passes its deadline and reports PWR_MAINT_LATE. -/
  | maintDeadline (a : Fin 6) (res : Nat)
  /-- PROD_DOORBELL (R486): A PROD write on a host-to-device ring hands entries to the device, or stops the ring. -/
  | prodDoorbell (f : Fin 256) (r : Fin 44) (v : Nat)
  /-- CONS_DOORBELL (R486): A CONS write on a device-to-host ring releases entries, or stops the ring. -/
  | consDoorbell (f : Fin 256) (r : Fin 44) (v : Nat)
  /-- RING_ENABLE (R486): A write of EN = 1 sets PROD and CONS to 0 and clears STOPPED. -/
  | ringEnable (f : Fin 256) (r : Fin 44) (v : Nat)
  /-- RING_DISABLE (R491): A write of EN = 0 flushes and stops the ring. -/
  | ringDisable (f : Fin 256) (r : Fin 44) (v cmds : Nat)
  /-- FLUSH (R491): A write of HIF_RING_CFG.FLUSH discards untaken entries of a command or TX ring. -/
  | flush (f : Fin 256) (r : Fin 44) (v cmds : Nat)
  /-- COMMAND_FETCH (R488): The device fetches a command from a ring in round robin, within the in-flight limits. -/
  | commandFetch (f : Fin 256) (r : Fin 17) (entry : Option Bytes)
  /-- MSIX_HOLDOFF_END (R483): MOD_US ends and entries made visible meanwhile are signalled. -/
  | msixHoldoffEnd (f : Fin 256) (r : Fin 44)
  /-- FLR (R484): A Function Level Reset stops a function's rings and resets its ring page and MSI-X state. -/
  | flr (f : Fin 256)
  /-- PCIE_PERST (R468): PCIE_PERST_L low holds the PCIe controller and every function's PCIe state in reset. -/
  | pciePerst
  /-- TX_DESCRIPTOR (R498): A TX descriptor is read and its frame injected, or it is refused with TX_ERROR. -/
  | txDescriptor (f : Fin 256) (k : Fin 8) (entry data : Option Bytes)
  /-- HOST_FRAME_DELIVER (R497): A host frame reaches PCIe and is written to an RX ring and data area, or dropped. -/
  | hostFrameDeliver
  /-- BAR2_WRITE (R482): A write completing a BAR2 slot acts as a MODIFY or INSERT from PF0. -/
  | bar2Write (off v : Nat)
  /-- PWF_CLEAR (R503): A write of HIF_PWF_CTL.CLEAR empties the posted-write failure log. -/
  | pwfClear
  /-- GRANT (R501): A write of HIF_GRANT grants or revokes performance groups to a VF. -/
  | grant (f : Fin 256) (w : Fin 8) (v : Nat)
  /-- MSIX_SIZE_WRITE (R483): A write of HIF_FN_CFG.MSIX_CNT sets a function's MSI-X size, or is refused. -/
  | msixSizeWrite (f : Fin 256) (v : Nat)
  /-- SHARED_SCRATCH_OP (R511): A queued SET or CLEAR operation takes effect at its shared scratch bank. -/
  | sharedScratchOp (bank : Fin 32)
  /-- SCR_WINDOW_WRITE (R513): A window write holds a low half, commits a full word, or makes a partial write. -/
  | scrWindowWrite (addr v : Nat)
  /-- SCR_ALIAS_SET (R514): A write to the set alias sets bits of a shared scratch half atomically. -/
  | scrAliasSet (addr v : Nat)
  /-- SCR_ALIAS_CLEAR (R514): A write to the clear alias clears bits of a shared scratch half atomically. -/
  | scrAliasClear (addr v : Nat)
  /-- SCR_ATOMIC_ADD (R515): GO with OP ADD adds the operand to a PS word and returns the old value. -/
  | scrAtomicAdd
  /-- SCR_ATOMIC_SWAP (R515): GO with OP SWAP writes the operand to a PS word and returns the old value. -/
  | scrAtomicSwap
  /-- SCR_TEST_STEP (R519): A scratch memory tests its next region through the shadow and repairs failing words. -/
  | scrTestStep (m : Fin 21) (fails : List Nat)
  /-- FAULT_COLLECT (R534): A die collector takes a latched fault report, makes its record and takes its reactions, or merges it. -/
  | faultCollect
  /-- FLT_STATUS_CLEAR (R537): A write of 1 to a source's STATUS clears it once its cause is gone, releasing its reactions. -/
  | fltStatusClear (src : Nat)
  /-- FIRST_FAULT_CLEAR (R533): A write of FLT_FIRST_CTL.CLEAR empties the first-fault register. -/
  | firstFaultClear
  /-- RING_RD_WRITE (R535): A write of FLT_RING_RD releases records of the fault record ring. -/
  | ringRdWrite (v : Nat)
  /-- NVLOG_APPEND (R539): The firmware appends a waiting record to the NVM fault log. -/
  | nvlogAppend
  /-- NVLOG_READ (R540): A write of FLT_NVLOG_IDX reads a log record into FLT_NVLOG_DATA. -/
  | nvlogRead (v : Nat)
  /-- PAIR_READ (R546): GO to CNT_RD_CTL latches a statistics pair, and clears it when CLEAR is 1. -/
  | pairRead (v : Nat)
  /-- DUMP_EPOCH (R551): At each whole PERIOD_MS, a dump group latches every counter, or skips the epoch. -/
  | dumpEpoch (d : Fin 64)
  /-- DUMP_WRITE (R554): A held snapshot is written to its dump ring as header, data and trailer, or is abandoned. -/
  | dumpWrite (d : Fin 64)
  /-- PERF_TENANT_WRITE (R548): A write to CNT_PERF_TEN revokes grants and zeroes the group before applying the new setting. -/
  | perfTenantWrite (j : Fin 128) (v : Nat)
  /-- TAP_RESET (R572): Power-up, TRST_L low or 5 TCK cycles with TMS high reset the TAP to IDCODE. -/
  | tapReset
  /-- EXTEST (R575): The TAP instruction drives balls from the boundary-scan register when the device is not in RUN. -/
  | extest
  /-- IDCODE (R573): The TAP instruction selects the 32-bit IDCODE register. -/
  | idcode
  /-- SAMPLE_PRELOAD (R574): The TAP instruction samples and preloads the boundary-scan register. -/
  | samplePreload
  /-- EXTEST_PULSE (R576): The TAP instruction drives the AC lanes as IEEE 1149.6 defines. -/
  | extestPulse
  /-- EXTEST_TRAIN (R576): The TAP instruction drives the AC lanes with a pulse train. -/
  | extestTrain
  /-- CLAMP (R574): The TAP instruction holds the balls from the boundary-scan register with bypass selected. -/
  | clamp
  /-- HIGHZ (R574): The TAP instruction places the outputs in high impedance with bypass selected. -/
  | highz
  /-- SERIAL (R574): The TAP instruction selects the 64-bit serial number register. -/
  | serial
  /-- MBIST (R574): The diagnostic TAP instruction runs memory self-test in FACTORY or RETURNED. -/
  | mbist
  /-- OTP_READ (R574): The diagnostic TAP instruction reads OTP in FACTORY or RETURNED. -/
  | otpRead
  /-- SCAN (R575): The TAP instruction selects internal scan chains in FACTORY with TESTMODE, and leaving it resets the device. -/
  | scan
  /-- BYPASS (R574): The TAP instruction selects the 1-bit bypass register; refused instructions act as it. -/
  | bypass
  /-- LANE_TEST_CONFIG (R581): A write of TST_LANE_CFG sets a lane's generator, checker and loopback at the next boundary. -/
  | laneTestConfig (x : Fin 388) (v : Nat)
  /-- CHECKER_LOCK_CHANGE (R579): A lane checker gains or loses lock on its pattern. -/
  | checkerLockChange (x : Fin 388) (locked : Bool)
  /-- PROBE_GO (R583): A write of TST_PROBE_CTL.GO injects one probe frame into a pipeline. -/
  | probeGo (v : Nat)
  /-- PROBE_CAPTURE (R583): A probe is captured at the line MAC and checked for intact return. -/
  | probeCapture (n : Fin 20) (frame : Bytes)
  /-- PROBE_TIMEOUT (R583): A probe not returned intact within 100 us counts PROBE_FAIL. -/
  | probeTimeout (n : Fin 20)
  /-- FAULT_INJECT (R586): A write of TST_INJ_CTL in FACTORY starts or ends the injection of a fault report. -/
  | faultInject (v : Nat)
  /-- MEMORY_INJECT_ARM (R587): A write of TST_MEMINJ_CTL.ARM marks a word whose next full write stores corrupted check bits. -/
  | memoryInjectArm (v : Nat)
  /-- DEV_RESET (R596): A write of DEV_CTL.RESET with CODE resets the device, unless the card is ACTIVE. -/
  | devReset (v : Nat)
  /-- REGISTER_WRITE (R10): A host write to a register with no row of its own applies its RW fields and W1C clears, or fails under R502. -/
  | registerWrite (f : Fin 256) (addr width v : Nat)
  /-- READ_CLEAR (R10): A read of an RC field returns the value and clears it. -/
  | readClear (f : Fin 256) (bar2 : Bool) (w : BusAt)
  /-- LO_READ_LATCH (R8): A read of a _LO register latches its _HI half for the next read. -/
  | loReadLatch (f : Fin 256) (addr : Nat)
  /-- HI_WRITE_COMMIT (R8): A write of a _HI register commits both halves held since the _LO write. -/
  | hiWriteCommit (f : Fin 256) (addr v : Nat)
  /-- FABRIC_LINK_TRAINING_DONE (R261): IEEE 802.3 link training of a fabric lane with its partner completes or fails. -/
  | fabricLinkTrainingDone (g : Fin 8) (l : Fin 28) (ok : Bool)
  /-- GALLERY_LANE_CALIBRATION (R338): Calibration and link training of a Gallery lane in BRINGUP completes, or fails and marks the lane out of service. -/
  | galleryLaneCalibration (l : Fin 4) (ok : Bool)
  /-- LINK_FAULT_CLEAR (R49): The receiver regains alignment and block lock, so the receive link comes up and the port stops sending remote fault. -/
  | linkFaultClear (p : Fin 160)
  /-- REMOTE_FAULT_CLEAR (R49): Remote-fault ordered sets stop arriving, so the port resumes sending frames. -/
  | remoteFaultClear (p : Fin 160)
  /-- VBAT_LOW (R446): VBAT crosses V_BLOW, which sets or clears VBAT_LOW and reports PWR_VBAT_LOW. -/
  | vbatLow (low : Bool)
  /-- VIO18_RECOVER (R447): The VIO18_OUT overload ends and the output recovers by itself. -/
  | vio18Recover
  /-- PCIE_LINK_CHANGE (R479): The PCIe link completes training into L0, or goes down, and this changes HIF_LINK_STAT.UP. -/
  | pcieLinkChange (up : Bool) (gen width : Nat) (flit : Bool) (vfs : Nat) (msix : List Nat)
  /-- PCIE_PERST_RELEASE (R468): PCIE_PERST_L rises, which releases the PCIe controller and makes the device reachable again. -/
  | pciePerstRelease
  /-- PLL_LOCK_FAIL (R418): A PLL other than a root fails to lock within its lock time, so its lanes or interfaces go out of service, or it runs free, or the PCIe PLL retries every 10 ms. -/
  | pllLockFail (p : Fin 25)
  /-- ACCESS_EXPIRED (R591): A BAR0 access that has waited 1 ms on a stopped or relocking family is abandoned and counted in RD_EXPIRED. -/
  | accessExpired (f : Fin 256) (write : Bool) (addr v : Nat)
  /-- CHECKER_BIT_ERROR (R579): A locked lane checker finds received pattern bits in error and counts them in TST_LANE_ERR. -/
  | checkerBitError (x : Fin 388) (n : Nat)
  deriving DecidableEq, Repr

end Sys2Proof
end

