-- ==== Sys2Proof/Config.lean ====
section
/-! DEFINITION. What the spec leaves to each part or leaves open: constants with no body, so that no proof can rest on a value of one. -/

namespace Sys2Proof.Config

/-- The time one byte of credit takes, in units of 2^-32 epoch ticks, for a system port without CR_PROF whose class-0 egress queue stands below no line port (R232). -/
opaque creditInc : Nat

/-- A value that the spec leaves open, by the number of free values used before it. -/
opaque freeNat : Nat → Nat

/-- What an NVM word of the fault log that nothing has written reads as (R540 gives no contents). -/
opaque nvmErased : Nat → Word

/-- Which of the places of Table 1-5 an injected report of a source names (R541 and R586 name none). -/
opaque injectLoc : Nat → Nat

/-- What a SECDED word reads as whose check bits are wrong in three or more places, by the mask of the wrong bits: below 72, as a word
with a single-bit error in that column; else as an uncorrectable one (R587 states one and two wrong bits). -/
opaque manyBits : Nat → Nat

/-- Where on FD a word of a table, of action memory or of the pattern store lies, SLICE to ROW as one number (R118, R151): the spec gives each word a
place and no rule for it. Entry i of table t has number t × 2^24 + i; HOST slots follow table 4, MAC slots table 9, the pattern store is table 30. -/
opaque tableLoc : Nat → Nat

/-- The bytes in which the ECMP hash takes the fields that a frame selects, by the number that holds the fields (R126 gives them no order and no widths). -/
opaque ecmpInput : Nat → Bytes

/-- The PORT of a frame's ECMP hash at its egress pipeline, by source system port, where no port of this card has that number (R126, R175: the frame header
carries no input port). -/
opaque ecmpPort : Nat → Nat

/-- The length of a switch-over gap in CD38 ticks, taken as 512 when longer (R353 gives 2.56 µs as its upper bound and no length). -/
opaque switchGap : Nat

/-- The draw of the random generator of a pipeline, by pipeline and how many draws came before (R173 gives no algorithm). -/
opaque draw : Nat → Nat → Nat

/-- The value that the WRED generator draws in a state, and the state after it (R210 gives no algorithm). -/
opaque wredDraw : Nat → Nat
opaque wredNext : Nat → Nat

/-- The time one byte takes, in units of 2^-32 epoch ticks, at the RATE 0 that a SHAPER entry holds before it is written (R243 divides by RATE). -/
opaque incZero : Nat

/-- How many messages the learn bus holds (R136 gives its rate and no depth). -/
opaque learnBusDepth : Nat

/-- Where on QD a buffer of packet SRAM lies, SLICE to ROW as one number, by its handle (R204 names the place of the word and gives no layout). -/
opaque sramLoc : Nat → Nat

/-- The line number at which a DRAM buffer begins, by its handle (R302 lays buffers on lines and gives no rule for which). -/
opaque dramLine : Nat → Nat

/-- The word address that a report's DETAIL holds for a memory whose addresses the spec does not give, by its source and the place within the memory (R535). -/
opaque memWord : Nat → Nat → Nat

/-- The line at which the free buffer begins that a test step takes, by interface × 8 + class and tick (R321 names no rule for which). -/
opaque dramTestLine : Nat → Nat → Nat

/-- How long a per-bank refresh blocks its bank, in ticks; the bank that is due, by interface and tick; and the banks whose refresh would fall due during a pause, by interface and tick
(R307, R308: JESD239, whose values the spec does not restate). -/
opaque refreshTicks : Nat
opaque bankDue : Nat → Nat → Nat
opaque pauseBanks : Nat → Nat → List Nat

/-- The row of a DRAM device in which a line stands, by DENSITY and line number (R303 names the row and gives no column width). -/
opaque dramRow : Nat → Nat → Nat

/-- The format number that a firmware image gives to the records of the persistent area, by its header (R404 gives no place of it). -/
opaque persistFormat : Bytes → Nat

/-- Which 64 KiB block of the persistent area an item stands in: 0 and 1 the copies of the wear table, 2 to 5 the sectors of the fault log; 8 more in the second area (R361, R404 place none). -/
opaque persistPlace : Nat → Nat

/-- The payload of the k-th Gallery cell of an item, by stream and the numbers that it carries (Table 12-7 says what the streams carry, and lays no payload out). -/
opaque galPayload : Nat → List Nat → Nat → Bytes

/-- The lengths of the boundary-scan register and of the internal scan chains (R572 leaves the one to the BSDL file; Table 23-2 names the other). -/
opaque bscanLen : Nat
opaque scanLen : Nat

/-- Bytes 28 to 119 of a probe frame, by PROBE_SEQ (R582 names a PRBS13 sequence and gives neither its polynomial's bit order nor how a seed is taken). -/
opaque probeFill : Nat → Bytes

/-- Does a location code name a word of table SRAM, action memory, the pattern store or packet SRAM (R587)? The spec gives these words codes and no rule for them. -/
opaque memNamed : Nat → Bool

end Sys2Proof.Config
end

