-- ==== Sys2Proof/Machine/Map.lean ====
section
/-! DEFINITION. Sparse maps keyed by numbers, in one canonical form: keys strictly rising, and no entry equal to what an unlisted key reads as. Registers, table entries, scratch words and counters are all held this way, and a wider key is a mixed-radix number. -/

namespace Sys2Proof.Machine

/-- A sparse map from numbers: a list of (key, value) pairs. -/
abbrev NMap (α : Type) := List (Nat × α)

/-- The listed value of a key, if any. -/
def mfind {α : Type} (m : NMap α) (k : Nat) : Option α :=
  match m with
  | [] => none
  | (j, v) :: r => if j = k then some v else mfind r k

/-- The value of a key: the listed one, or the value `d` of an unlisted key. -/
def mget {α : Type} (d : α) (m : NMap α) (k : Nat) : α :=
  match mfind m k with
  | some v => v
  | none => d

/-- Every entry but those of a key. -/
def merase {α : Type} (m : NMap α) (k : Nat) : NMap α :=
  match m with
  | [] => []
  | (j, v) :: r => if j = k then merase r k else (j, v) :: merase r k

/-- A new entry put before the first greater key. -/
def minsert {α : Type} (m : NMap α) (k : Nat) (v : α) : NMap α :=
  match m with
  | [] => [(k, v)]
  | (j, w) :: r => if k < j then (k, v) :: (j, w) :: r else (j, w) :: minsert r k v

/-- Writes a key. Writing the value an unlisted key reads as removes the entry. -/
def mput {α : Type} [DecidableEq α] (d : α) (m : NMap α) (k : Nat) (v : α) : NMap α :=
  if v = d then merase m k else minsert (merase m k) k v

/-- Writes or removes an optional entry. -/
def mset {α : Type} (m : NMap α) (k : Nat) (v : Option α) : NMap α :=
  match v with
  | none => merase m k
  | some x => minsert (merase m k) k x

/-- The keys strictly rise. -/
def mrising {α : Type} : NMap α → Bool
  | [] => true
  | [_] => true
  | (j, _) :: (k, v) :: r => decide (j < k) && mrising ((k, v) :: r)

/-- The canonical form of a map whose unlisted keys read as `d k`. -/
def mwf {α : Type} [DecidableEq α] (d : Nat → α) (m : NMap α) : Bool :=
  mrising m && m.all (fun e => decide (e.2 ≠ d e.1))

end Sys2Proof.Machine
end

