-- ==== Sys2Proof/Machine/RegNames.lean ====
section
/-! DEFINITION. The byte offset in PF0 BAR0 of every register of the spec (R589, R599), and the place of every field in it. The registers of a VF page stand at the offset of PF0's view of the page (R505); HIF_VF_ID and HIF_VF_PWF, which only the VF's own BAR0 shows, stand above the 64 MiB of BAR0. -/

namespace Sys2Proof.Machine

/-- A field of a register: the register's offset, the lowest bit, the number of bits. -/
structure Fld where
  reg : Nat
  lo : Nat
  len : Nat
  deriving DecidableEq, Repr

namespace Reg

/-- R505: PF0's ring page, and PF0's view of the page of VF f. -/
def pageBase (f : Nat) : Nat := if f = 0 then 0x0680000 else 0x0700000 + 0x1000 * f

/-- LIN_GRP_CFG: R65, seal class SEALED. -/
def LIN_GRP_CFG (g : Nat) : Nat := 0x0800000 + 0x10000 * g
def LIN_GRP_CFG_MODE (g : Nat) : Fld := ⟨LIN_GRP_CFG g, 0, 3⟩
def LIN_GRP_CFG_RX_INV (g : Nat) : Fld := ⟨LIN_GRP_CFG g, 8, 8⟩
def LIN_GRP_CFG_TX_INV (g : Nat) : Fld := ⟨LIN_GRP_CFG g, 16, 8⟩

/-- LIN_GRP_STAT: R65, seal class STATUS. -/
def LIN_GRP_STAT (g : Nat) : Nat := 0x0800004 + 0x10000 * g
def LIN_GRP_STAT_LANE_OOS (g : Nat) : Fld := ⟨LIN_GRP_STAT g, 0, 8⟩
def LIN_GRP_STAT_SLEEP (g : Nat) : Fld := ⟨LIN_GRP_STAT g, 8, 1⟩

/-- LIN_GRP_ABSENT_CNT: R65, seal class STATUS. -/
def LIN_GRP_ABSENT_CNT (g : Nat) : Nat := 0x0800008 + 0x10000 * g
def LIN_GRP_ABSENT_CNT_COUNT (g : Nat) : Fld := ⟨LIN_GRP_ABSENT_CNT g, 0, 31⟩
def LIN_GRP_ABSENT_CNT_OVF (g : Nat) : Fld := ⟨LIN_GRP_ABSENT_CNT g, 31, 1⟩

/-- LIN_PORT_CFG: R65, seal class SEALED. -/
def LIN_PORT_CFG (p : Nat) : Nat := 0x0801000 + 0x10000 * (p / 8) + 0x400 * (p % 8)
def LIN_PORT_CFG_MAX_LEN (p : Nat) : Fld := ⟨LIN_PORT_CFG p, 0, 14⟩
def LIN_PORT_CFG_FC_MODE (p : Nat) : Fld := ⟨LIN_PORT_CFG p, 14, 2⟩
def LIN_PORT_CFG_LT_EN (p : Nat) : Fld := ⟨LIN_PORT_CFG p, 16, 1⟩

/-- LIN_FC_CFG: R65, seal class SEALED. -/
def LIN_FC_CFG (p : Nat) : Nat := 0x0801004 + 0x10000 * (p / 8) + 0x400 * (p % 8)
def LIN_FC_CFG_TX_QUANTA (p : Nat) : Fld := ⟨LIN_FC_CFG p, 0, 16⟩
def LIN_FC_CFG_REFRESH (p : Nat) : Fld := ⟨LIN_FC_CFG p, 16, 16⟩

/-- LIN_PFC_WD_CFG: R65, seal class SEALED. -/
def LIN_PFC_WD_CFG (p : Nat) : Nat := 0x0801008 + 0x10000 * (p / 8) + 0x400 * (p % 8)
def LIN_PFC_WD_CFG_DETECT_MS (p : Nat) : Fld := ⟨LIN_PFC_WD_CFG p, 0, 14⟩
def LIN_PFC_WD_CFG_RESTORE_MS (p : Nat) : Fld := ⟨LIN_PFC_WD_CFG p, 16, 14⟩

/-- LIN_PAUSE_QMAX: R65, seal class SEALED. -/
def LIN_PAUSE_QMAX (p : Nat) : Nat := 0x080100C + 0x10000 * (p / 8) + 0x400 * (p % 8)
def LIN_PAUSE_QMAX_QMAX (p : Nat) : Fld := ⟨LIN_PAUSE_QMAX p, 0, 16⟩

/-- LIN_PORT_CTL: R65, seal class OPER. -/
def LIN_PORT_CTL (p : Nat) : Nat := 0x0801010 + 0x10000 * (p / 8) + 0x400 * (p % 8)
def LIN_PORT_CTL_ADMIN (p : Nat) : Fld := ⟨LIN_PORT_CTL p, 0, 2⟩
def LIN_PORT_CTL_RETRAIN (p : Nat) : Fld := ⟨LIN_PORT_CTL p, 4, 1⟩

/-- LIN_PORT_MAC_LO: R65, seal class OPER. -/
def LIN_PORT_MAC_LO (p : Nat) : Nat := 0x0801014 + 0x10000 * (p / 8) + 0x400 * (p % 8)
def LIN_PORT_MAC_LO_MAC_LO (p : Nat) : Fld := ⟨LIN_PORT_MAC_LO p, 0, 32⟩

/-- LIN_PORT_MAC_HI: R65, seal class OPER. -/
def LIN_PORT_MAC_HI (p : Nat) : Nat := 0x0801018 + 0x10000 * (p / 8) + 0x400 * (p % 8)
def LIN_PORT_MAC_HI_MAC_HI (p : Nat) : Fld := ⟨LIN_PORT_MAC_HI p, 0, 16⟩

/-- LIN_PTP_ADJ: R65, seal class OPER. -/
def LIN_PTP_ADJ (p : Nat) : Nat := 0x080101C + 0x10000 * (p / 8) + 0x400 * (p % 8)
def LIN_PTP_ADJ_RX_ADJ (p : Nat) : Fld := ⟨LIN_PTP_ADJ p, 0, 16⟩
def LIN_PTP_ADJ_TX_ADJ (p : Nat) : Fld := ⟨LIN_PTP_ADJ p, 16, 16⟩

/-- LIN_PORT_STAT: R65, seal class STATUS. -/
def LIN_PORT_STAT (p : Nat) : Nat := 0x0801020 + 0x10000 * (p / 8) + 0x400 * (p % 8)
def LIN_PORT_STAT_TX_STATE (p : Nat) : Fld := ⟨LIN_PORT_STAT p, 0, 2⟩
def LIN_PORT_STAT_LINK_UP (p : Nat) : Fld := ⟨LIN_PORT_STAT p, 2, 1⟩
def LIN_PORT_STAT_LOCAL_FAULT (p : Nat) : Fld := ⟨LIN_PORT_STAT p, 3, 1⟩
def LIN_PORT_STAT_REMOTE_FAULT (p : Nat) : Fld := ⟨LIN_PORT_STAT p, 4, 1⟩
def LIN_PORT_STAT_LT_DONE (p : Nat) : Fld := ⟨LIN_PORT_STAT p, 5, 1⟩
def LIN_PORT_STAT_LT_FAIL (p : Nat) : Fld := ⟨LIN_PORT_STAT p, 6, 1⟩
def LIN_PORT_STAT_PAUSED (p : Nat) : Fld := ⟨LIN_PORT_STAT p, 8, 8⟩
def LIN_PORT_STAT_XOFF (p : Nat) : Fld := ⟨LIN_PORT_STAT p, 16, 8⟩
def LIN_PORT_STAT_LINK_CHANGE (p : Nat) : Fld := ⟨LIN_PORT_STAT p, 24, 1⟩

/-- LIN_PFC_WD_STAT: R65, seal class STATUS. -/
def LIN_PFC_WD_STAT (p : Nat) : Nat := 0x0801024 + 0x10000 * (p / 8) + 0x400 * (p % 8)
def LIN_PFC_WD_STAT_SUSPENDED (p : Nat) : Fld := ⟨LIN_PFC_WD_STAT p, 0, 8⟩
def LIN_PFC_WD_STAT_STORM_SEEN (p : Nat) : Fld := ⟨LIN_PFC_WD_STAT p, 8, 8⟩

/-- LIN_EVT_CNT: R65, seal class STATUS. -/
def LIN_EVT_CNT (p k : Nat) : Nat := 0x0801040 + 0x10000 * (p / 8) + 0x400 * (p % 8) + 0x4 * k
def LIN_EVT_CNT_COUNT (p k : Nat) : Fld := ⟨LIN_EVT_CNT p k, 0, 31⟩
def LIN_EVT_CNT_OVF (p k : Nat) : Fld := ⟨LIN_EVT_CNT p k, 31, 1⟩

/-- LIN_SYNCE_CFG: R65, seal class OPER. -/
def LIN_SYNCE_CFG (s : Nat) : Nat := 0x0940000 + 0x4 * s
def LIN_SYNCE_CFG_LANE (s : Nat) : Fld := ⟨LIN_SYNCE_CFG s, 0, 8⟩
def LIN_SYNCE_CFG_DIV (s : Nat) : Fld := ⟨LIN_SYNCE_CFG s, 8, 16⟩
def LIN_SYNCE_CFG_EN (s : Nat) : Fld := ⟨LIN_SYNCE_CFG s, 24, 1⟩

/-- LIN_SYNCE_STAT: R65, seal class STATUS. -/
def LIN_SYNCE_STAT : Nat := 0x0940008
def LIN_SYNCE_STAT_SQUELCH : Fld := ⟨LIN_SYNCE_STAT, 0, 2⟩

/-- PRS_PROF_HDR: R96, seal class SEALED. -/
def PRS_PROF_HDR (n : Nat) : Nat := 0x0A00000 + 0x10 * n
def PRS_PROF_HDR_VLAN_EN (n : Nat) : Fld := ⟨PRS_PROF_HDR n, 0, 1⟩
def PRS_PROF_HDR_SVLAN_EN (n : Nat) : Fld := ⟨PRS_PROF_HDR n, 1, 1⟩
def PRS_PROF_HDR_PPPOE_EN (n : Nat) : Fld := ⟨PRS_PROF_HDR n, 2, 1⟩
def PRS_PROF_HDR_MPLS_EN (n : Nat) : Fld := ⟨PRS_PROF_HDR n, 3, 1⟩
def PRS_PROF_HDR_IPV4_EN (n : Nat) : Fld := ⟨PRS_PROF_HDR n, 4, 1⟩
def PRS_PROF_HDR_IPV6_EN (n : Nat) : Fld := ⟨PRS_PROF_HDR n, 5, 1⟩
def PRS_PROF_HDR_EXT_EN (n : Nat) : Fld := ⟨PRS_PROF_HDR n, 6, 1⟩
def PRS_PROF_HDR_SRH_EN (n : Nat) : Fld := ⟨PRS_PROF_HDR n, 7, 1⟩
def PRS_PROF_HDR_L4_EN (n : Nat) : Fld := ⟨PRS_PROF_HDR n, 8, 1⟩
def PRS_PROF_HDR_GRE_EN (n : Nat) : Fld := ⟨PRS_PROF_HDR n, 9, 1⟩
def PRS_PROF_HDR_VXLAN_EN (n : Nat) : Fld := ⟨PRS_PROF_HDR n, 10, 1⟩
def PRS_PROF_HDR_GENEVE_EN (n : Nat) : Fld := ⟨PRS_PROF_HDR n, 11, 1⟩
def PRS_PROF_HDR_IPIP_EN (n : Nat) : Fld := ⟨PRS_PROF_HDR n, 12, 1⟩
def PRS_PROF_HDR_INNER_EN (n : Nat) : Fld := ⟨PRS_PROF_HDR n, 13, 1⟩
def PRS_PROF_HDR_V4CK_EN (n : Nat) : Fld := ⟨PRS_PROF_HDR n, 14, 1⟩
def PRS_PROF_HDR_FRAG_EN (n : Nat) : Fld := ⟨PRS_PROF_HDR n, 15, 1⟩

/-- PRS_PROF_UDP: R96, seal class SEALED. -/
def PRS_PROF_UDP (n : Nat) : Nat := 0x0A00004 + 0x10 * n
def PRS_PROF_UDP_VXLAN_PORT (n : Nat) : Fld := ⟨PRS_PROF_UDP n, 0, 16⟩
def PRS_PROF_UDP_GENEVE_PORT (n : Nat) : Fld := ⟨PRS_PROF_UDP n, 16, 16⟩

/-- PRS_PROF_OPT: R96, seal class SEALED. -/
def PRS_PROF_OPT (n : Nat) : Nat := 0x0A00008 + 0x10 * n
def PRS_PROF_OPT_MPLS_PAY (n : Nat) : Fld := ⟨PRS_PROF_OPT n, 0, 2⟩
def PRS_PROF_OPT_INNER_FAIL (n : Nat) : Fld := ⟨PRS_PROF_OPT n, 2, 1⟩

/-- PRS_FRAG_CFG: R96, seal class SEALED. -/
def PRS_FRAG_CFG : Nat := 0x0A00100
def PRS_FRAG_CFG_AGE_MS : Fld := ⟨PRS_FRAG_CFG, 0, 8⟩

/-- PRS_PORT_CFG: R96, seal class SEALED. -/
def PRS_PORT_CFG (p : Nat) : Nat := 0x0A01000 + 0x4 * p
def PRS_PORT_CFG_PROFILE (p : Nat) : Fld := ⟨PRS_PORT_CFG p, 0, 4⟩
def PRS_PORT_CFG_FAIL_ACT (p : Nat) : Fld := ⟨PRS_PORT_CFG p, 4, 2⟩
def PRS_PORT_CFG_MISS_ACT (p : Nat) : Fld := ⟨PRS_PORT_CFG p, 6, 2⟩

/-- PRS_TRAP_LIM: R96, seal class SEALED. -/
def PRS_TRAP_LIM (p : Nat) : Nat := 0x0A01400 + 0x4 * p
def PRS_TRAP_LIM_TRAP_PPS (p : Nat) : Fld := ⟨PRS_TRAP_LIM p, 0, 16⟩

/-- PRS_PORT_CNT: R96, seal class STATUS. -/
def PRS_PORT_CNT (p k : Nat) : Nat := 0x0A02000 + 0x10 * p + 0x4 * k
def PRS_PORT_CNT_COUNT (p k : Nat) : Fld := ⟨PRS_PORT_CNT p k, 0, 31⟩
def PRS_PORT_CNT_OVF (p k : Nat) : Fld := ⟨PRS_PORT_CNT p k, 31, 1⟩

/-- PRS_FRAG_CTL: R96, seal class OPER. -/
def PRS_FRAG_CTL (n : Nat) : Nat := 0x0A10000 + 0x1000 * n
def PRS_FRAG_CTL_FLUSH (n : Nat) : Fld := ⟨PRS_FRAG_CTL n, 0, 1⟩

/-- PRS_FRAG_STAT: R96, seal class STATUS. -/
def PRS_FRAG_STAT (n : Nat) : Nat := 0x0A10004 + 0x1000 * n
def PRS_FRAG_STAT_OCCUPANCY (n : Nat) : Fld := ⟨PRS_FRAG_STAT n, 0, 13⟩
def PRS_FRAG_STAT_PEAK (n : Nat) : Fld := ⟨PRS_FRAG_STAT n, 16, 13⟩

/-- PRS_LAST_FAIL: R96, seal class STATUS. -/
def PRS_LAST_FAIL (n : Nat) : Nat := 0x0A10008 + 0x1000 * n
def PRS_LAST_FAIL_PORT (n : Nat) : Fld := ⟨PRS_LAST_FAIL n, 0, 8⟩
def PRS_LAST_FAIL_CODE (n : Nat) : Fld := ⟨PRS_LAST_FAIL n, 8, 6⟩
def PRS_LAST_FAIL_OFFSET (n : Nat) : Fld := ⟨PRS_LAST_FAIL n, 16, 9⟩
def PRS_LAST_FAIL_VALID (n : Nat) : Fld := ⟨PRS_LAST_FAIL n, 31, 1⟩

/-- PRS_FRAG_CNT: R96, seal class STATUS. -/
def PRS_FRAG_CNT (n k : Nat) : Nat := 0x0A10040 + 0x1000 * n + 0x4 * k
def PRS_FRAG_CNT_COUNT (n k : Nat) : Fld := ⟨PRS_FRAG_CNT n k, 0, 31⟩
def PRS_FRAG_CNT_OVF (n k : Nat) : Fld := ⟨PRS_FRAG_CNT n k, 31, 1⟩

/-- PRS_CODE_CNT: R96, seal class STATUS. -/
def PRS_CODE_CNT (n c : Nat) : Nat := 0x0A10100 + 0x1000 * n + 0x4 * c
def PRS_CODE_CNT_COUNT (n c : Nat) : Fld := ⟨PRS_CODE_CNT n c, 0, 31⟩
def PRS_CODE_CNT_OVF (n c : Nat) : Fld := ⟨PRS_CODE_CNT n c, 31, 1⟩

/-- SIG_PORT_CFG: R116, seal class SEALED. -/
def SIG_PORT_CFG (p : Nat) : Nat := 0x0B00000 + 0x4 * p
def SIG_PORT_CFG_SPROF (p : Nat) : Fld := ⟨SIG_PORT_CFG p, 0, 3⟩

/-- SIG_STORE_CTL: R116, seal class OPER. -/
def SIG_STORE_CTL : Nat := 0x0B00400
def SIG_STORE_CTL_CANCEL : Fld := ⟨SIG_STORE_CTL, 0, 1⟩

/-- SIG_STORE_STAT: R116, seal class STATUS. -/
def SIG_STORE_STAT : Nat := 0x0B00404
def SIG_STORE_STAT_ACTIVE : Fld := ⟨SIG_STORE_STAT, 0, 1⟩
def SIG_STORE_STAT_SWAP_PEND : Fld := ⟨SIG_STORE_STAT, 1, 1⟩
def SIG_STORE_STAT_OLD_BUSY : Fld := ⟨SIG_STORE_STAT, 2, 1⟩
def SIG_STORE_STAT_COPY_BUSY : Fld := ⟨SIG_STORE_STAT, 3, 1⟩
def SIG_STORE_STAT_LOST : Fld := ⟨SIG_STORE_STAT, 4, 1⟩
def SIG_STORE_STAT_SWAP_CNT : Fld := ⟨SIG_STORE_STAT, 16, 16⟩

/-- SIG_STORE_CNT: R116, seal class STATUS. -/
def SIG_STORE_CNT : Nat := 0x0B00408
def SIG_STORE_CNT_ACTIVE_CNT : Fld := ⟨SIG_STORE_CNT, 0, 15⟩
def SIG_STORE_CNT_SHADOW_CNT : Fld := ⟨SIG_STORE_CNT, 16, 15⟩

/-- SIG_LOST_ID: R116, seal class STATUS. -/
def SIG_LOST_ID : Nat := 0x0B0040C
def SIG_LOST_ID_ID : Fld := ⟨SIG_LOST_ID, 0, 14⟩
def SIG_LOST_ID_BANK : Fld := ⟨SIG_LOST_ID, 14, 1⟩
def SIG_LOST_ID_VALID : Fld := ⟨SIG_LOST_ID, 31, 1⟩

/-- SIG_CLASS_CNT: R116, seal class STATUS. -/
def SIG_CLASS_CNT (c : Nat) : Nat := 0x0B00500 + 0x4 * c
def SIG_CLASS_CNT_COUNT (c : Nat) : Fld := ⟨SIG_CLASS_CNT c, 0, 31⟩
def SIG_CLASS_CNT_OVF (c : Nat) : Fld := ⟨SIG_CLASS_CNT c, 31, 1⟩

/-- SIG_ENG_STAT: R116, seal class STATUS. -/
def SIG_ENG_STAT (n : Nat) : Nat := 0x0B10000 + 0x100 * n
def SIG_ENG_STAT_QUEUE_PEAK (n : Nat) : Fld := ⟨SIG_ENG_STAT n, 0, 15⟩
def SIG_ENG_STAT_QUEUE_NOW (n : Nat) : Fld := ⟨SIG_ENG_STAT n, 16, 15⟩

/-- SIG_ENG_CNT: R116, seal class STATUS. -/
def SIG_ENG_CNT (n k : Nat) : Nat := 0x0B10040 + 0x100 * n + 0x4 * k
def SIG_ENG_CNT_COUNT (n k : Nat) : Fld := ⟨SIG_ENG_CNT n k, 0, 31⟩
def SIG_ENG_CNT_OVF (n k : Nat) : Fld := ⟨SIG_ENG_CNT n k, 31, 1⟩

/-- FTB_HASH_SEED0: R149, seal class SEALED. -/
def FTB_HASH_SEED0 : Nat := 0x0C00000
def FTB_HASH_SEED0_SEED : Fld := ⟨FTB_HASH_SEED0, 0, 32⟩

/-- FTB_HASH_SEED1: R149, seal class SEALED. -/
def FTB_HASH_SEED1 : Nat := 0x0C00004
def FTB_HASH_SEED1_SEED : Fld := ⟨FTB_HASH_SEED1, 0, 32⟩

/-- FTB_ECMP_SEED: R149, seal class SEALED. -/
def FTB_ECMP_SEED : Nat := 0x0C00008
def FTB_ECMP_SEED_SEED : Fld := ⟨FTB_ECMP_SEED, 0, 32⟩

/-- FTB_ECMP_FIELDS: R149, seal class SEALED. -/
def FTB_ECMP_FIELDS : Nat := 0x0C0000C
def FTB_ECMP_FIELDS_SIP : Fld := ⟨FTB_ECMP_FIELDS, 0, 1⟩
def FTB_ECMP_FIELDS_DIP : Fld := ⟨FTB_ECMP_FIELDS, 1, 1⟩
def FTB_ECMP_FIELDS_PROTO : Fld := ⟨FTB_ECMP_FIELDS, 2, 1⟩
def FTB_ECMP_FIELDS_PORTS : Fld := ⟨FTB_ECMP_FIELDS, 3, 1⟩
def FTB_ECMP_FIELDS_FLOW : Fld := ⟨FTB_ECMP_FIELDS, 4, 1⟩
def FTB_ECMP_FIELDS_INNER : Fld := ⟨FTB_ECMP_FIELDS, 5, 1⟩
def FTB_ECMP_FIELDS_LABELS : Fld := ⟨FTB_ECMP_FIELDS, 6, 1⟩
def FTB_ECMP_FIELDS_EL : Fld := ⟨FTB_ECMP_FIELDS, 7, 1⟩
def FTB_ECMP_FIELDS_PORT : Fld := ⟨FTB_ECMP_FIELDS, 8, 1⟩

/-- FTB_LPM_STAT: R149, seal class STATUS. -/
def FTB_LPM_STAT : Nat := 0x0C00010
def FTB_LPM_STAT_UNITS_USED : Fld := ⟨FTB_LPM_STAT, 0, 24⟩

/-- FTB_HOST_STAT: R149, seal class STATUS. -/
def FTB_HOST_STAT : Nat := 0x0C00014
def FTB_HOST_STAT_SLOTS_USED : Fld := ⟨FTB_HOST_STAT, 0, 23⟩

/-- FTB_FLUSH_STAT: R149, seal class STATUS. -/
def FTB_FLUSH_STAT : Nat := 0x0C00018
def FTB_FLUSH_STAT_QUEUED : Fld := ⟨FTB_FLUSH_STAT, 0, 4⟩
def FTB_FLUSH_STAT_RUNNING : Fld := ⟨FTB_FLUSH_STAT, 4, 1⟩
def FTB_FLUSH_STAT_LAST_REMOVED : Fld := ⟨FTB_FLUSH_STAT, 8, 23⟩

/-- FTB_ECC_STAT: R149, seal class STATUS. -/
def FTB_ECC_STAT : Nat := 0x0C0001C
def FTB_ECC_STAT_TABLE : Fld := ⟨FTB_ECC_STAT, 0, 4⟩
def FTB_ECC_STAT_REBUILD : Fld := ⟨FTB_ECC_STAT, 4, 1⟩
def FTB_ECC_STAT_VALID : Fld := ⟨FTB_ECC_STAT, 31, 1⟩

/-- FTB_ECC_LOC_LO: R149, seal class STATUS. -/
def FTB_ECC_LOC_LO : Nat := 0x0C00020
def FTB_ECC_LOC_LO_LOC_LO : Fld := ⟨FTB_ECC_LOC_LO, 0, 32⟩

/-- FTB_ECC_LOC_HI: R149, seal class STATUS. -/
def FTB_ECC_LOC_HI : Nat := 0x0C00024
def FTB_ECC_LOC_HI_LOC_HI : Fld := ⟨FTB_ECC_LOC_HI, 0, 16⟩

/-- FTB_MISS_CNT: R149, seal class STATUS. -/
def FTB_MISS_CNT (k : Nat) : Nat := 0x0C00040 + 0x4 * k
def FTB_MISS_CNT_COUNT (k : Nat) : Fld := ⟨FTB_MISS_CNT k, 0, 31⟩
def FTB_MISS_CNT_OVF (k : Nat) : Fld := ⟨FTB_MISS_CNT k, 31, 1⟩

/-- FTB_TENANT_AGE: R149, seal class OPER. -/
def FTB_TENANT_AGE (t : Nat) : Nat := 0x0C01000 + 0x8 * t
def FTB_TENANT_AGE_AGE_S (t : Nat) : Fld := ⟨FTB_TENANT_AGE t, 0, 16⟩

/-- FTB_TENANT_LIMIT: R149, seal class OPER. -/
def FTB_TENANT_LIMIT (t : Nat) : Nat := 0x0C01004 + 0x8 * t
def FTB_TENANT_LIMIT_LIMIT (t : Nat) : Fld := ⟨FTB_TENANT_LIMIT t, 0, 19⟩

/-- FTB_LEARN_STAT: R149, seal class STATUS. -/
def FTB_LEARN_STAT (n : Nat) : Nat := 0x0C10000 + 0x100 * n
def FTB_LEARN_STAT_USED (n : Nat) : Fld := ⟨FTB_LEARN_STAT n, 0, 19⟩

/-- FTB_LEARN_CNT: R149, seal class STATUS. -/
def FTB_LEARN_CNT (n k : Nat) : Nat := 0x0C10040 + 0x100 * n + 0x4 * k
def FTB_LEARN_CNT_COUNT (n k : Nat) : Fld := ⟨FTB_LEARN_CNT n k, 0, 31⟩
def FTB_LEARN_CNT_OVF (n k : Nat) : Fld := ⟨FTB_LEARN_CNT n k, 31, 1⟩

/-- ACT_PORT_DEF: R179, seal class SEALED. -/
def ACT_PORT_DEF (p : Nat) : Nat := 0x0D00000 + 0x4 * p
def ACT_PORT_DEF_DEF_ENTRY (p : Nat) : Fld := ⟨ACT_PORT_DEF p, 0, 18⟩
def ACT_PORT_DEF_TRUST (p : Nat) : Fld := ⟨ACT_PORT_DEF p, 18, 2⟩
def ACT_PORT_DEF_PORT_CLASS (p : Nat) : Fld := ⟨ACT_PORT_DEF p, 20, 3⟩
def ACT_PORT_DEF_EGR_ENTRY (p : Nat) : Fld := ⟨ACT_PORT_DEF p, 24, 8⟩

/-- ACT_PORT_MIR: R179, seal class OPER. -/
def ACT_PORT_MIR (p : Nat) : Nat := 0x0D00400 + 0x4 * p
def ACT_PORT_MIR_IN_SESS (p : Nat) : Fld := ⟨ACT_PORT_MIR p, 0, 4⟩
def ACT_PORT_MIR_IN_EN (p : Nat) : Fld := ⟨ACT_PORT_MIR p, 4, 1⟩
def ACT_PORT_MIR_EG_SESS (p : Nat) : Fld := ⟨ACT_PORT_MIR p, 5, 4⟩
def ACT_PORT_MIR_EG_EN (p : Nat) : Fld := ⟨ACT_PORT_MIR p, 9, 1⟩

/-- ACT_MTU: R179, seal class SEALED. -/
def ACT_MTU (k : Nat) : Nat := 0x0D00800 + 0x4 * k
def ACT_MTU_MTU_LEN (k : Nat) : Fld := ⟨ACT_MTU k, 0, 14⟩
def ACT_MTU_MTU_ACT (k : Nat) : Fld := ⟨ACT_MTU k, 14, 2⟩

/-- ACT_TTL_CFG: R179, seal class SEALED. -/
def ACT_TTL_CFG : Nat := 0x0D00840
def ACT_TTL_CFG_EXPIRE_ACT : Fld := ⟨ACT_TTL_CFG, 0, 1⟩
def ACT_TTL_CFG_MPLS_MODE : Fld := ⟨ACT_TTL_CFG, 1, 1⟩
def ACT_TTL_CFG_PUSH_TTL : Fld := ⟨ACT_TTL_CFG, 2, 8⟩

/-- ACT_SAMPLE_LIM: R179, seal class SEALED. -/
def ACT_SAMPLE_LIM : Nat := 0x0D00844
def ACT_SAMPLE_LIM_RATE : Fld := ⟨ACT_SAMPLE_LIM, 0, 24⟩

/-- ACT_TOHOST_LIM: R179, seal class SEALED. -/
def ACT_TOHOST_LIM : Nat := 0x0D00848
def ACT_TOHOST_LIM_RATE : Fld := ⟨ACT_TOHOST_LIM, 0, 24⟩

/-- ACT_MIR_CFG: R179, seal class OPER. -/
def ACT_MIR_CFG (s : Nat) : Nat := 0x0D00900 + 0x10 * s
def ACT_MIR_CFG_EN (s : Nat) : Fld := ⟨ACT_MIR_CFG s, 0, 1⟩
def ACT_MIR_CFG_INCL_DROP (s : Nat) : Fld := ⟨ACT_MIR_CFG s, 1, 1⟩
def ACT_MIR_CFG_REMOTE (s : Nat) : Fld := ⟨ACT_MIR_CFG s, 2, 1⟩
def ACT_MIR_CFG_TRUNC_LEN (s : Nat) : Fld := ⟨ACT_MIR_CFG s, 3, 14⟩
def ACT_MIR_CFG_CLASS (s : Nat) : Fld := ⟨ACT_MIR_CFG s, 17, 3⟩

/-- ACT_MIR_DEST: R179, seal class OPER. -/
def ACT_MIR_DEST (s : Nat) : Nat := 0x0D00904 + 0x10 * s
def ACT_MIR_DEST_DEST (s : Nat) : Fld := ⟨ACT_MIR_DEST s, 0, 16⟩

/-- ACT_MIR_EDIT: R179, seal class OPER. -/
def ACT_MIR_EDIT (s : Nat) : Nat := 0x0D00908 + 0x10 * s
def ACT_MIR_EDIT_EDIT_IDX (s : Nat) : Fld := ⟨ACT_MIR_EDIT s, 0, 20⟩
def ACT_MIR_EDIT_EDIT_EN (s : Nat) : Fld := ⟨ACT_MIR_EDIT s, 20, 1⟩

/-- ACT_SMAC_LO: R179, seal class OPER. -/
def ACT_SMAC_LO (i : Nat) : Nat := 0x0D01000 + 0x8 * i
def ACT_SMAC_LO_SMAC_LO (i : Nat) : Fld := ⟨ACT_SMAC_LO i, 0, 32⟩

/-- ACT_SMAC_HI: R179, seal class OPER. -/
def ACT_SMAC_HI (i : Nat) : Nat := 0x0D01004 + 0x8 * i
def ACT_SMAC_HI_SMAC_HI (i : Nat) : Fld := ⟨ACT_SMAC_HI i, 0, 16⟩

/-- ACT_RECIRC_CFG: R179, seal class SEALED. -/
def ACT_RECIRC_CFG (n : Nat) : Nat := 0x0D10000 + 0x100 * n
def ACT_RECIRC_CFG_RES_SLOTS (n : Nat) : Fld := ⟨ACT_RECIRC_CFG n, 0, 5⟩

/-- ACT_HALL_STAT: R179, seal class STATUS. -/
def ACT_HALL_STAT (n : Nat) : Nat := 0x0D10004 + 0x100 * n
def ACT_HALL_STAT_OCC (n : Nat) : Fld := ⟨ACT_HALL_STAT n, 0, 12⟩
def ACT_HALL_STAT_PEAK (n : Nat) : Fld := ⟨ACT_HALL_STAT n, 16, 12⟩

/-- ACT_RECIRC_STAT: R179, seal class STATUS. -/
def ACT_RECIRC_STAT (n : Nat) : Nat := 0x0D10008 + 0x100 * n
def ACT_RECIRC_STAT_QUEUE_NOW (n : Nat) : Fld := ⟨ACT_RECIRC_STAT n, 0, 10⟩
def ACT_RECIRC_STAT_QUEUE_PEAK (n : Nat) : Fld := ⟨ACT_RECIRC_STAT n, 16, 10⟩

/-- ACT_CNT: R179, seal class STATUS. -/
def ACT_CNT (n k : Nat) : Nat := 0x0D10040 + 0x100 * n + 0x4 * k
def ACT_CNT_COUNT (n k : Nat) : Fld := ⟨ACT_CNT n k, 0, 31⟩
def ACT_CNT_OVF (n k : Nat) : Fld := ⟨ACT_CNT n k, 31, 1⟩

/-- BUF_SPOOL_CFG: R205, seal class SEALED. -/
def BUF_SPOOL_CFG (k : Nat) : Nat := 0x1000000 + 0x4 * k
def BUF_SPOOL_CFG_COUNT (k : Nat) : Fld := ⟨BUF_SPOOL_CFG k, 0, 28⟩

/-- BUF_DPOOL_CFG: R205, seal class SEALED. -/
def BUF_DPOOL_CFG (k : Nat) : Nat := 0x1000020 + 0x4 * k
def BUF_DPOOL_CFG_PER_DI (k : Nat) : Fld := ⟨BUF_DPOOL_CFG k, 0, 23⟩

/-- BUF_OASIS_SRAM: R205, seal class SEALED. -/
def BUF_OASIS_SRAM : Nat := 0x1000040
def BUF_OASIS_SRAM_SIZE : Fld := ⟨BUF_OASIS_SRAM, 0, 18⟩

/-- BUF_OASIS_DRAM: R205, seal class SEALED. -/
def BUF_OASIS_DRAM : Nat := 0x1000044
def BUF_OASIS_DRAM_SIZE : Fld := ⟨BUF_OASIS_DRAM, 0, 25⟩

/-- BUF_OASIS_SUSED: R205, seal class STATUS. -/
def BUF_OASIS_SUSED : Nat := 0x1000048
def BUF_OASIS_SUSED_USED : Fld := ⟨BUF_OASIS_SUSED, 0, 18⟩

/-- BUF_OASIS_DUSED: R205, seal class STATUS. -/
def BUF_OASIS_DUSED : Nat := 0x100004C
def BUF_OASIS_DUSED_USED : Fld := ⟨BUF_OASIS_DUSED, 0, 25⟩

/-- BUF_MC_STAT: R205, seal class STATUS. -/
def BUF_MC_STAT : Nat := 0x1000050
def BUF_MC_STAT_DESC_USED : Fld := ⟨BUF_MC_STAT, 0, 24⟩

/-- BUF_POOL_TH: R205, seal class SEALED. -/
def BUF_POOL_TH (r k w : Nat) : Nat := 0x1000100 + 0x80 * r + 0x10 * k + 0x4 * w
def BUF_POOL_TH_SET (r k w : Nat) : Fld := ⟨BUF_POOL_TH r k w, 0, 11⟩
def BUF_POOL_TH_CLEAR (r k w : Nat) : Fld := ⟨BUF_POOL_TH r k w, 16, 11⟩

/-- BUF_POOL_STAT: R205, seal class STATUS. -/
def BUF_POOL_STAT (r k : Nat) : Nat := 0x1000200 + 0x20 * r + 0x4 * k
def BUF_POOL_STAT_USED (r k : Nat) : Fld := ⟨BUF_POOL_STAT r k, 0, 28⟩
def BUF_POOL_STAT_LEVEL (r k : Nat) : Fld := ⟨BUF_POOL_STAT r k, 28, 2⟩

/-- BUF_REQ_SRAM: R205, seal class SEALED. -/
def BUF_REQ_SRAM (q : Nat) : Nat := 0x1000300 + 0x8 * q
def BUF_REQ_SRAM_QUOTA (q : Nat) : Fld := ⟨BUF_REQ_SRAM q, 0, 18⟩

/-- BUF_REQ_DRAM: R205, seal class SEALED. -/
def BUF_REQ_DRAM (q : Nat) : Nat := 0x1000304 + 0x8 * q
def BUF_REQ_DRAM_QUOTA (q : Nat) : Fld := ⟨BUF_REQ_DRAM q, 0, 25⟩

/-- BUF_REQ_SUSED: R205, seal class STATUS. -/
def BUF_REQ_SUSED (q : Nat) : Nat := 0x1000400 + 0x8 * q
def BUF_REQ_SUSED_USED (q : Nat) : Fld := ⟨BUF_REQ_SUSED q, 0, 18⟩

/-- BUF_REQ_DUSED: R205, seal class STATUS. -/
def BUF_REQ_DUSED (q : Nat) : Nat := 0x1000404 + 0x8 * q
def BUF_REQ_DUSED_USED (q : Nat) : Fld := ⟨BUF_REQ_DUSED q, 0, 25⟩

/-- BUF_CNT: R205, seal class STATUS. -/
def BUF_CNT (k : Nat) : Nat := 0x1000800 + 0x4 * k
def BUF_CNT_COUNT (k : Nat) : Fld := ⟨BUF_CNT k, 0, 31⟩
def BUF_CNT_OVF (k : Nat) : Fld := ⟨BUF_CNT k, 31, 1⟩

/-- BUF_QPROF_MIN: R205, seal class SEALED. -/
def BUF_QPROF_MIN (n : Nat) : Nat := 0x1001000 + 0x10 * n
def BUF_QPROF_MIN_MIN (n : Nat) : Fld := ⟨BUF_QPROF_MIN n, 0, 20⟩

/-- BUF_QPROF_SPILL: R205, seal class SEALED. -/
def BUF_QPROF_SPILL (n : Nat) : Nat := 0x1001004 + 0x10 * n
def BUF_QPROF_SPILL_SPILL_TH (n : Nat) : Fld := ⟨BUF_QPROF_SPILL n, 0, 20⟩
def BUF_QPROF_SPILL_SPILL_EN (n : Nat) : Fld := ⟨BUF_QPROF_SPILL n, 31, 1⟩

/-- BUF_QPROF_OASIS: R205, seal class SEALED. -/
def BUF_QPROF_OASIS (n : Nat) : Nat := 0x1001008 + 0x10 * n
def BUF_QPROF_OASIS_OASIS_MAX (n : Nat) : Fld := ⟨BUF_QPROF_OASIS n, 0, 18⟩

/-- BUF_QPROF_DRAM: R205, seal class SEALED. -/
def BUF_QPROF_DRAM (n : Nat) : Nat := 0x100100C + 0x10 * n
def BUF_QPROF_DRAM_DRAM_MAX (n : Nat) : Fld := ⟨BUF_QPROF_DRAM n, 0, 25⟩

/-- BUF_TENANT_MIN: R205, seal class SEALED. -/
def BUF_TENANT_MIN (t : Nat) : Nat := 0x1002000 + 0x4 * t
def BUF_TENANT_MIN_MIN (t : Nat) : Fld := ⟨BUF_TENANT_MIN t, 0, 18⟩

/-- BUF_TENANT_STAT: R205, seal class STATUS. -/
def BUF_TENANT_STAT (t : Nat) : Nat := 0x1002400 + 0x4 * t
def BUF_TENANT_STAT_G_USED (t : Nat) : Fld := ⟨BUF_TENANT_STAT t, 0, 18⟩

/-- CGM_WRED_CFG: R226, seal class SEALED. -/
def CGM_WRED_CFG : Nat := 0x1100000
def CGM_WRED_CFG_IDLE_US : Fld := ⟨CGM_WRED_CFG, 0, 16⟩
def CGM_WRED_CFG_NECT_ACT : Fld := ⟨CGM_WRED_CFG, 16, 1⟩

/-- CGM_WRED_SEED: R226, seal class SEALED. -/
def CGM_WRED_SEED : Nat := 0x1100004
def CGM_WRED_SEED_SEED : Fld := ⟨CGM_WRED_SEED, 0, 32⟩

/-- CGM_BKP_POOL: R226, seal class SEALED. -/
def CGM_BKP_POOL : Nat := 0x1100008
def CGM_BKP_POOL_CLASS_MASK : Fld := ⟨CGM_BKP_POOL, 0, 8⟩

/-- CGM_BKP_STAT: R226, seal class STATUS. -/
def CGM_BKP_STAT : Nat := 0x110000C
def CGM_BKP_STAT_REQ : Fld := ⟨CGM_BKP_STAT, 0, 8⟩

/-- CGM_NOTICE_LOST: R226, seal class STATUS. -/
def CGM_NOTICE_LOST : Nat := 0x1100010
def CGM_NOTICE_LOST_COUNT : Fld := ⟨CGM_NOTICE_LOST, 0, 31⟩
def CGM_NOTICE_LOST_OVF : Fld := ⟨CGM_NOTICE_LOST, 31, 1⟩

/-- CGM_BKP_TH: R226, seal class SEALED. -/
def CGM_BKP_TH (k : Nat) : Nat := 0x1100020 + 0x4 * k
def CGM_BKP_TH_SET (k : Nat) : Fld := ⟨CGM_BKP_TH k, 0, 16⟩
def CGM_BKP_TH_CLEAR (k : Nat) : Fld := ⟨CGM_BKP_TH k, 16, 16⟩

/-- CGM_NECT_CNT: R226, seal class STATUS. -/
def CGM_NECT_CNT (n : Nat) : Nat := 0x1100040 + 0x4 * n
def CGM_NECT_CNT_COUNT (n : Nat) : Fld := ⟨CGM_NECT_CNT n, 0, 31⟩
def CGM_NECT_CNT_OVF (n : Nat) : Fld := ⟨CGM_NECT_CNT n, 31, 1⟩

/-- CGM_PWM_STAT: R226, seal class STATUS. -/
def CGM_PWM_STAT (r k : Nat) : Nat := 0x1100100 + 0x80 * r + 0x10 * k
def CGM_PWM_STAT_LEVEL_NOW (r k : Nat) : Fld := ⟨CGM_PWM_STAT r k, 0, 1⟩
def CGM_PWM_STAT_CROSSED (r k : Nat) : Fld := ⟨CGM_PWM_STAT r k, 1, 1⟩
def CGM_PWM_STAT_COUNT (r k : Nat) : Fld := ⟨CGM_PWM_STAT r k, 16, 16⟩

/-- CGM_PWM_PEAK: R226, seal class STATUS. -/
def CGM_PWM_PEAK (r k : Nat) : Nat := 0x1100104 + 0x80 * r + 0x10 * k
def CGM_PWM_PEAK_PEAK (r k : Nat) : Fld := ⟨CGM_PWM_PEAK r k, 0, 28⟩

/-- CGM_PWM_TIME_LO: R226, seal class STATUS. -/
def CGM_PWM_TIME_LO (r k : Nat) : Nat := 0x1100108 + 0x80 * r + 0x10 * k
def CGM_PWM_TIME_LO_NS (r k : Nat) : Fld := ⟨CGM_PWM_TIME_LO r k, 0, 30⟩

/-- CGM_PWM_TIME_HI: R226, seal class STATUS. -/
def CGM_PWM_TIME_HI (r k : Nat) : Nat := 0x110010C + 0x80 * r + 0x10 * k
def CGM_PWM_TIME_HI_SEC (r k : Nat) : Fld := ⟨CGM_PWM_TIME_HI r k, 0, 32⟩

/-- CGM_QPROF: R226, seal class SEALED. -/
def CGM_QPROF (n : Nat) : Nat := 0x1101000 + 0x4 * n
def CGM_QPROF_WRED (n : Nat) : Fld := ⟨CGM_QPROF n, 0, 8⟩
def CGM_QPROF_WRED_EN (n : Nat) : Fld := ⟨CGM_QPROF n, 8, 1⟩

/-- CGM_QLIMIT: R226, seal class SEALED. -/
def CGM_QLIMIT (n : Nat) : Nat := 0x1101400 + 0x4 * n
def CGM_QLIMIT_LIMIT (n : Nat) : Fld := ⟨CGM_QLIMIT n, 0, 25⟩

/-- CGM_WRED_MIN: R226, seal class SEALED. -/
def CGM_WRED_MIN (w c : Nat) : Nat := 0x1102000 + 0x40 * w + 0x10 * c
def CGM_WRED_MIN_MIN_TH (w c : Nat) : Fld := ⟨CGM_WRED_MIN w c, 0, 27⟩

/-- CGM_WRED_MAX: R226, seal class SEALED. -/
def CGM_WRED_MAX (w c : Nat) : Nat := 0x1102004 + 0x40 * w + 0x10 * c
def CGM_WRED_MAX_MAX_TH (w c : Nat) : Fld := ⟨CGM_WRED_MAX w c, 0, 27⟩

/-- CGM_WRED_PRM: R226, seal class SEALED. -/
def CGM_WRED_PRM (w c : Nat) : Nat := 0x1102008 + 0x40 * w + 0x10 * c
def CGM_WRED_PRM_MAX_P (w c : Nat) : Fld := ⟨CGM_WRED_PRM w c, 0, 9⟩
def CGM_WRED_PRM_W (w c : Nat) : Fld := ⟨CGM_WRED_PRM w c, 9, 4⟩
def CGM_WRED_PRM_ECN_EN (w c : Nat) : Fld := ⟨CGM_WRED_PRM w c, 13, 1⟩

/-- CGM_PFC_TH: R226, seal class SEALED. -/
def CGM_PFC_TH (p k : Nat) : Nat := 0x1108000 + 0x20 * p + 0x4 * k
def CGM_PFC_TH_XOFF (p k : Nat) : Fld := ⟨CGM_PFC_TH p k, 0, 16⟩
def CGM_PFC_TH_XON (p k : Nat) : Fld := ⟨CGM_PFC_TH p k, 16, 16⟩

/-- CGM_PFC_POOL: R226, seal class SEALED. -/
def CGM_PFC_POOL (p : Nat) : Nat := 0x110A000 + 0x4 * p
def CGM_PFC_POOL_CLASS_MASK (p : Nat) : Fld := ⟨CGM_PFC_POOL p, 0, 8⟩

/-- CGM_PG_STAT: R226, seal class STATUS. -/
def CGM_PG_STAT (p k : Nat) : Nat := 0x110C000 + 0x20 * p + 0x4 * k
def CGM_PG_STAT_USED (p k : Nat) : Fld := ⟨CGM_PG_STAT p k, 0, 24⟩
def CGM_PG_STAT_XOFF (p k : Nat) : Fld := ⟨CGM_PG_STAT p k, 31, 1⟩

/-- CGM_QWM_CFG: R226, seal class OPER. -/
def CGM_QWM_CFG (m : Nat) : Nat := 0x1140000 + 0x20 * m
def CGM_QWM_CFG_QUEUE (m : Nat) : Fld := ⟨CGM_QWM_CFG m, 0, 20⟩
def CGM_QWM_CFG_EN (m : Nat) : Fld := ⟨CGM_QWM_CFG m, 31, 1⟩

/-- CGM_QWM_TH: R226, seal class OPER. -/
def CGM_QWM_TH (m : Nat) : Nat := 0x1140004 + 0x20 * m
def CGM_QWM_TH_SET (m : Nat) : Fld := ⟨CGM_QWM_TH m, 0, 16⟩
def CGM_QWM_TH_CLEAR (m : Nat) : Fld := ⟨CGM_QWM_TH m, 16, 16⟩

/-- CGM_QWM_STAT: R226, seal class STATUS. -/
def CGM_QWM_STAT (m : Nat) : Nat := 0x1140008 + 0x20 * m
def CGM_QWM_STAT_LEVEL_NOW (m : Nat) : Fld := ⟨CGM_QWM_STAT m, 0, 1⟩
def CGM_QWM_STAT_CROSSED (m : Nat) : Fld := ⟨CGM_QWM_STAT m, 1, 1⟩
def CGM_QWM_STAT_COUNT (m : Nat) : Fld := ⟨CGM_QWM_STAT m, 16, 16⟩

/-- CGM_QWM_PEAK: R226, seal class STATUS. -/
def CGM_QWM_PEAK (m : Nat) : Nat := 0x114000C + 0x20 * m
def CGM_QWM_PEAK_PEAK (m : Nat) : Fld := ⟨CGM_QWM_PEAK m, 0, 25⟩

/-- CGM_QWM_TIME_LO: R226, seal class STATUS. -/
def CGM_QWM_TIME_LO (m : Nat) : Nat := 0x1140010 + 0x20 * m
def CGM_QWM_TIME_LO_NS (m : Nat) : Fld := ⟨CGM_QWM_TIME_LO m, 0, 30⟩

/-- CGM_QWM_TIME_HI: R226, seal class STATUS. -/
def CGM_QWM_TIME_HI (m : Nat) : Nat := 0x1140014 + 0x20 * m
def CGM_QWM_TIME_HI_SEC (m : Nat) : Fld := ⟨CGM_QWM_TIME_HI m, 0, 32⟩

/-- CGM_DROP_CNT: R226, seal class STATUS. -/
def CGM_DROP_CNT (g k : Nat) : Nat := 0x1180000 + 0x40 * g + 0x4 * k
def CGM_DROP_CNT_COUNT (g k : Nat) : Fld := ⟨CGM_DROP_CNT g k, 0, 31⟩
def CGM_DROP_CNT_OVF (g k : Nat) : Fld := ⟨CGM_DROP_CNT g k, 31, 1⟩

/-- SCH_QSPLIT: R259, seal class SEALED. -/
def SCH_QSPLIT : Nat := 0x1200000
def SCH_QSPLIT_VOQ_PORTS : Fld := ⟨SCH_QSPLIT, 0, 17⟩

/-- SCH_CREDIT_CFG: R259, seal class SEALED. -/
def SCH_CREDIT_CFG : Nat := 0x1200004
def SCH_CREDIT_CFG_SIZE : Fld := ⟨SCH_CREDIT_CFG, 0, 5⟩
def SCH_CREDIT_CFG_REQ_MAX : Fld := ⟨SCH_CREDIT_CFG, 8, 5⟩

/-- SCH_VOQ_CFG: R259, seal class SEALED. -/
def SCH_VOQ_CFG : Nat := 0x1200008
def SCH_VOQ_CFG_TIMEOUT_MS : Fld := ⟨SCH_VOQ_CFG, 0, 16⟩
def SCH_VOQ_CFG_REQ_RETRY_US : Fld := ⟨SCH_VOQ_CFG, 16, 16⟩

/-- SCH_FENCE_CFG: R259, seal class SEALED. -/
def SCH_FENCE_CFG : Nat := 0x120000C
def SCH_FENCE_CFG_FENCE_US : Fld := ⟨SCH_FENCE_CFG, 0, 16⟩

/-- SCH_FENCE_STAT: R259, seal class STATUS. -/
def SCH_FENCE_STAT : Nat := 0x1200010
def SCH_FENCE_STAT_ACTIVE : Fld := ⟨SCH_FENCE_STAT, 0, 17⟩

/-- SCH_EPOCH_LO: R259, seal class STATUS. -/
def SCH_EPOCH_LO : Nat := 0x1200014
def SCH_EPOCH_LO_EPOCH_LO : Fld := ⟨SCH_EPOCH_LO, 0, 32⟩

/-- SCH_EPOCH_HI: R259, seal class STATUS. -/
def SCH_EPOCH_HI : Nat := 0x1200018
def SCH_EPOCH_HI_EPOCH_HI : Fld := ⟨SCH_EPOCH_HI, 0, 32⟩

/-- SCH_CNT: R259, seal class STATUS. -/
def SCH_CNT (k : Nat) : Nat := 0x1200040 + 0x4 * k
def SCH_CNT_COUNT (k : Nat) : Fld := ⟨SCH_CNT k, 0, 31⟩
def SCH_CNT_OVF (k : Nat) : Fld := ⟨SCH_CNT k, 31, 1⟩

/-- SCH_GATE_CTL: R259, seal class OPER. -/
def SCH_GATE_CTL (p : Nat) : Nat := 0x1210000 + 0x40 * p
def SCH_GATE_CTL_EN (p : Nat) : Fld := ⟨SCH_GATE_CTL p, 0, 1⟩
def SCH_GATE_CTL_CHANGE (p : Nat) : Fld := ⟨SCH_GATE_CTL p, 1, 1⟩
def SCH_GATE_CTL_CANCEL (p : Nat) : Fld := ⟨SCH_GATE_CTL p, 2, 1⟩

/-- SCH_GATE_CFG: R259, seal class OPER. -/
def SCH_GATE_CFG (p : Nat) : Nat := 0x1210004 + 0x40 * p
def SCH_GATE_CFG_LEN (p : Nat) : Fld := ⟨SCH_GATE_CFG p, 0, 11⟩

/-- SCH_GATE_CYCLE_LO: R259, seal class OPER. -/
def SCH_GATE_CYCLE_LO (p : Nat) : Nat := 0x1210008 + 0x40 * p
def SCH_GATE_CYCLE_LO_CYCLE_LO (p : Nat) : Fld := ⟨SCH_GATE_CYCLE_LO p, 0, 32⟩

/-- SCH_GATE_CYCLE_HI: R259, seal class OPER. -/
def SCH_GATE_CYCLE_HI (p : Nat) : Nat := 0x121000C + 0x40 * p
def SCH_GATE_CYCLE_HI_CYCLE_HI (p : Nat) : Fld := ⟨SCH_GATE_CYCLE_HI p, 0, 2⟩

/-- SCH_GATE_BASE_LO: R259, seal class OPER. -/
def SCH_GATE_BASE_LO (p : Nat) : Nat := 0x1210010 + 0x40 * p
def SCH_GATE_BASE_LO_NS (p : Nat) : Fld := ⟨SCH_GATE_BASE_LO p, 0, 30⟩

/-- SCH_GATE_BASE_HI: R259, seal class OPER. -/
def SCH_GATE_BASE_HI (p : Nat) : Nat := 0x1210014 + 0x40 * p
def SCH_GATE_BASE_HI_SEC (p : Nat) : Fld := ⟨SCH_GATE_BASE_HI p, 0, 32⟩

/-- SCH_GATE_STAT: R259, seal class STATUS. -/
def SCH_GATE_STAT (p : Nat) : Nat := 0x1210018 + 0x40 * p
def SCH_GATE_STAT_OPER_BANK (p : Nat) : Fld := ⟨SCH_GATE_STAT p, 0, 1⟩
def SCH_GATE_STAT_PENDING (p : Nat) : Fld := ⟨SCH_GATE_STAT p, 1, 1⟩
def SCH_GATE_STAT_CFG_ERR (p : Nat) : Fld := ⟨SCH_GATE_STAT p, 2, 1⟩
def SCH_GATE_STAT_LIST_RUN (p : Nat) : Fld := ⟨SCH_GATE_STAT p, 3, 1⟩
def SCH_GATE_STAT_OPEN (p : Nat) : Fld := ⟨SCH_GATE_STAT p, 8, 8⟩
def SCH_GATE_STAT_ENTRY (p : Nat) : Fld := ⟨SCH_GATE_STAT p, 16, 10⟩

/-- SCH_GATE_CHG_LO: R259, seal class STATUS. -/
def SCH_GATE_CHG_LO (p : Nat) : Nat := 0x121001C + 0x40 * p
def SCH_GATE_CHG_LO_NS (p : Nat) : Fld := ⟨SCH_GATE_CHG_LO p, 0, 30⟩

/-- SCH_GATE_CHG_HI: R259, seal class STATUS. -/
def SCH_GATE_CHG_HI (p : Nat) : Nat := 0x1210020 + 0x40 * p
def SCH_GATE_CHG_HI_SEC (p : Nat) : Fld := ⟨SCH_GATE_CHG_HI p, 0, 32⟩

/-- FAB_NODE: R297, seal class SEALED. -/
def FAB_NODE : Nat := 0x1500000
def FAB_NODE_ID : Fld := ⟨FAB_NODE, 0, 16⟩
def FAB_NODE_PORT_SHIFT : Fld := ⟨FAB_NODE, 16, 4⟩

/-- FAB_PROT_CFG: R297, seal class SEALED. -/
def FAB_PROT_CFG : Nat := 0x1500004
def FAB_PROT_CFG_ARCH : Fld := ⟨FAB_PROT_CFG, 0, 1⟩
def FAB_PROT_CFG_SPARE : Fld := ⟨FAB_PROT_CFG, 1, 3⟩
def FAB_PROT_CFG_SRQ_N : Fld := ⟨FAB_PROT_CFG, 4, 4⟩
def FAB_PROT_CFG_WTR_S : Fld := ⟨FAB_PROT_CFG, 8, 16⟩

/-- FAB_TX_CFG: R297, seal class SEALED. -/
def FAB_TX_CFG : Nat := 0x1500008
def FAB_TX_CFG_IDLE_PERIOD : Fld := ⟨FAB_TX_CFG, 0, 14⟩

/-- FAB_REORD_CFG: R297, seal class SEALED. -/
def FAB_REORD_CFG : Nat := 0x150000C
def FAB_REORD_CFG_WINDOW : Fld := ⟨FAB_REORD_CFG, 0, 17⟩
def FAB_REORD_CFG_TIMEOUT_US : Fld := ⟨FAB_REORD_CFG, 17, 10⟩

/-- FAB_PM_CFG: R297, seal class SEALED. -/
def FAB_PM_CFG : Nat := 0x1500010
def FAB_PM_CFG_SES_TH : Fld := ⟨FAB_PM_CFG, 0, 10⟩

/-- FAB_BKP_CFG: R297, seal class SEALED. -/
def FAB_BKP_CFG : Nat := 0x1500014
def FAB_BKP_CFG_WD_MS : Fld := ⟨FAB_BKP_CFG, 0, 14⟩

/-- FAB_DEG_CFG: R297, seal class SEALED. -/
def FAB_DEG_CFG : Nat := 0x1500018
def FAB_DEG_CFG_DEG_INT_US : Fld := ⟨FAB_DEG_CFG, 0, 16⟩
def FAB_DEG_CFG_DEG_TH : Fld := ⟨FAB_DEG_CFG, 16, 16⟩

/-- FAB_DEF_TIME: R297, seal class SEALED. -/
def FAB_DEF_TIME (d : Nat) : Nat := 0x1500020 + 0x4 * d
def FAB_DEF_TIME_SET (d : Nat) : Fld := ⟨FAB_DEF_TIME d, 0, 16⟩
def FAB_DEF_TIME_CLEAR (d : Nat) : Fld := ⟨FAB_DEF_TIME d, 16, 16⟩

/-- FAB_PROT_CTL: R297, seal class OPER. -/
def FAB_PROT_CTL : Nat := 0x1500040
def FAB_PROT_CTL_CMD : Fld := ⟨FAB_PROT_CTL, 0, 4⟩
def FAB_PROT_CTL_PLANE : Fld := ⟨FAB_PROT_CTL, 4, 4⟩

/-- FAB_PROT_STAT: R297, seal class STATUS. -/
def FAB_PROT_STAT : Nat := 0x1500044
def FAB_PROT_STAT_SPRAY : Fld := ⟨FAB_PROT_STAT, 24, 8⟩

/-- FAB_PROT_FLAGS: R297, seal class STATUS. -/
def FAB_PROT_FLAGS : Nat := 0x1500048
def FAB_PROT_FLAGS_WTR_RUN : Fld := ⟨FAB_PROT_FLAGS, 0, 1⟩
def FAB_PROT_FLAGS_SRQ_INC : Fld := ⟨FAB_PROT_FLAGS, 1, 1⟩
def FAB_PROT_FLAGS_ARCH_MM : Fld := ⟨FAB_PROT_FLAGS, 2, 1⟩
def FAB_PROT_FLAGS_WTR_LEFT : Fld := ⟨FAB_PROT_FLAGS, 16, 16⟩

/-- FAB_REORD_STAT: R297, seal class STATUS. -/
def FAB_REORD_STAT : Nat := 0x150004C
def FAB_REORD_STAT_IN_USE : Fld := ⟨FAB_REORD_STAT, 0, 18⟩

/-- FAB_CNT: R297, seal class STATUS. -/
def FAB_CNT (k : Nat) : Nat := 0x1500080 + 0x4 * k
def FAB_CNT_COUNT (k : Nat) : Fld := ⟨FAB_CNT k, 0, 31⟩
def FAB_CNT_OVF (k : Nat) : Fld := ⟨FAB_CNT k, 31, 1⟩

/-- FAB_GRP_CFG: R297, seal class SEALED. -/
def FAB_GRP_CFG (g : Nat) : Nat := 0x1400000 + 0x20000 * g
def FAB_GRP_CFG_LANE_EN (g : Nat) : Fld := ⟨FAB_GRP_CFG g, 0, 28⟩
def FAB_GRP_CFG_LT_EN (g : Nat) : Fld := ⟨FAB_GRP_CFG g, 28, 1⟩

/-- FAB_GRP_THR: R297, seal class SEALED. -/
def FAB_GRP_THR (g : Nat) : Nat := 0x1400004 + 0x20000 * g
def FAB_GRP_THR_SF_LANES (g : Nat) : Fld := ⟨FAB_GRP_THR g, 0, 5⟩
def FAB_GRP_THR_SD_LANES (g : Nat) : Fld := ⟨FAB_GRP_THR g, 8, 5⟩

/-- FAB_TRAIL_EXP: R297, seal class OPER. -/
def FAB_TRAIL_EXP (g : Nat) : Nat := 0x1400008 + 0x20000 * g
def FAB_TRAIL_EXP_NODE (g : Nat) : Fld := ⟨FAB_TRAIL_EXP g, 0, 16⟩
def FAB_TRAIL_EXP_PLANE (g : Nat) : Fld := ⟨FAB_TRAIL_EXP g, 16, 4⟩
def FAB_TRAIL_EXP_CHECK_EN (g : Nat) : Fld := ⟨FAB_TRAIL_EXP g, 31, 1⟩

/-- FAB_GRP_STAT: R297, seal class STATUS. -/
def FAB_GRP_STAT (g : Nat) : Nat := 0x140000C + 0x20000 * g
def FAB_GRP_STAT_SF (g : Nat) : Fld := ⟨FAB_GRP_STAT g, 0, 1⟩
def FAB_GRP_STAT_SD (g : Nat) : Fld := ⟨FAB_GRP_STAT g, 1, 1⟩
def FAB_GRP_STAT_IN_SPRAY (g : Nat) : Fld := ⟨FAB_GRP_STAT g, 2, 1⟩
def FAB_GRP_STAT_TX_STATE (g : Nat) : Fld := ⟨FAB_GRP_STAT g, 3, 2⟩
def FAB_GRP_STAT_RX_OK_CNT (g : Nat) : Fld := ⟨FAB_GRP_STAT g, 8, 5⟩
def FAB_GRP_STAT_TX_OK_CNT (g : Nat) : Fld := ⟨FAB_GRP_STAT g, 16, 5⟩

/-- FAB_GRP_BKP: R297, seal class STATUS. -/
def FAB_GRP_BKP (g : Nat) : Nat := 0x1400010 + 0x20000 * g
def FAB_GRP_BKP_RX_REQ (g : Nat) : Fld := ⟨FAB_GRP_BKP g, 0, 8⟩
def FAB_GRP_BKP_BKP_IGN (g : Nat) : Fld := ⟨FAB_GRP_BKP g, 8, 8⟩

/-- FAB_GRP_SRQ: R297, seal class STATUS. -/
def FAB_GRP_SRQ (g : Nat) : Nat := 0x1400014 + 0x20000 * g
def FAB_GRP_SRQ_BRIDGED (g : Nat) : Fld := ⟨FAB_GRP_SRQ g, 8, 4⟩
def FAB_GRP_SRQ_ARCH (g : Nat) : Fld := ⟨FAB_GRP_SRQ g, 12, 1⟩
def FAB_GRP_SRQ_VALID (g : Nat) : Fld := ⟨FAB_GRP_SRQ g, 13, 1⟩

/-- FAB_PM_GRP: R297, seal class STATUS. -/
def FAB_PM_GRP (g b m : Nat) : Nat := 0x1400080 + 0x20000 * g + 0x10 * b + 0x4 * m
def FAB_PM_GRP_SECONDS (g b m : Nat) : Fld := ⟨FAB_PM_GRP g b m, 0, 17⟩

/-- FAB_LANE_STAT: R297, seal class STATUS. -/
def FAB_LANE_STAT (g l : Nat) : Nat := 0x1401000 + 0x20000 * g + 0x100 * l
def FAB_LANE_STAT_DEFECT (g l : Nat) : Fld := ⟨FAB_LANE_STAT g l, 0, 7⟩
def FAB_LANE_STAT_RX_EXCL (g l : Nat) : Fld := ⟨FAB_LANE_STAT g l, 8, 1⟩
def FAB_LANE_STAT_TX_EXCL (g l : Nat) : Fld := ⟨FAB_LANE_STAT g l, 9, 1⟩
def FAB_LANE_STAT_OOS (g l : Nat) : Fld := ⟨FAB_LANE_STAT g l, 10, 1⟩
def FAB_LANE_STAT_FILL (g l : Nat) : Fld := ⟨FAB_LANE_STAT g l, 12, 3⟩
def FAB_LANE_STAT_SEEN (g l : Nat) : Fld := ⟨FAB_LANE_STAT g l, 16, 7⟩

/-- FAB_LANE_TRAIL: R297, seal class STATUS. -/
def FAB_LANE_TRAIL (g l : Nat) : Nat := 0x1401004 + 0x20000 * g + 0x100 * l
def FAB_LANE_TRAIL_NODE (g l : Nat) : Fld := ⟨FAB_LANE_TRAIL g l, 0, 16⟩
def FAB_LANE_TRAIL_PLANE (g l : Nat) : Fld := ⟨FAB_LANE_TRAIL g l, 16, 4⟩
def FAB_LANE_TRAIL_LANE (g l : Nat) : Fld := ⟨FAB_LANE_TRAIL g l, 20, 5⟩
def FAB_LANE_TRAIL_VALID (g l : Nat) : Fld := ⟨FAB_LANE_TRAIL g l, 31, 1⟩

/-- FAB_LANE_SERIAL_LO: R297, seal class STATUS. -/
def FAB_LANE_SERIAL_LO (g l : Nat) : Nat := 0x1401008 + 0x20000 * g + 0x100 * l
def FAB_LANE_SERIAL_LO_SERIAL_LO (g l : Nat) : Fld := ⟨FAB_LANE_SERIAL_LO g l, 0, 32⟩

/-- FAB_LANE_SERIAL_HI: R297, seal class STATUS. -/
def FAB_LANE_SERIAL_HI (g l : Nat) : Nat := 0x140100C + 0x20000 * g + 0x100 * l
def FAB_LANE_SERIAL_HI_SERIAL_HI (g l : Nat) : Fld := ⟨FAB_LANE_SERIAL_HI g l, 0, 32⟩

/-- FAB_LANE_CNT: R297, seal class STATUS. -/
def FAB_LANE_CNT (g l k : Nat) : Nat := 0x1401040 + 0x20000 * g + 0x100 * l + 0x4 * k
def FAB_LANE_CNT_COUNT (g l k : Nat) : Fld := ⟨FAB_LANE_CNT g l k, 0, 31⟩
def FAB_LANE_CNT_OVF (g l k : Nat) : Fld := ⟨FAB_LANE_CNT g l k, 31, 1⟩

/-- FAB_PM_LANE: R297, seal class STATUS. -/
def FAB_PM_LANE (g l b m : Nat) : Nat := 0x1401080 + 0x20000 * g + 0x100 * l + 0x10 * b + 0x4 * m
def FAB_PM_LANE_SECONDS (g l b m : Nat) : Fld := ⟨FAB_PM_LANE g l b m, 0, 17⟩

/-- DRC_POP: R325, seal class SEALED. -/
def DRC_POP : Nat := 0x1780000
def DRC_POP_POP : Fld := ⟨DRC_POP, 0, 24⟩

/-- DRC_GLB_CFG: R325, seal class SEALED. -/
def DRC_GLB_CFG : Nat := 0x1780004
def DRC_GLB_CFG_DENSITY : Fld := ⟨DRC_GLB_CFG, 0, 2⟩
def DRC_GLB_CFG_RATE_M : Fld := ⟨DRC_GLB_CFG, 2, 2⟩
def DRC_GLB_CFG_MAP : Fld := ⟨DRC_GLB_CFG, 4, 2⟩

/-- DRC_MAINT_CFG: R325, seal class SEALED. -/
def DRC_MAINT_CFG : Nat := 0x1780008
def DRC_MAINT_CFG_RETRAIN_MS : Fld := ⟨DRC_MAINT_CFG, 0, 10⟩
def DRC_MAINT_CFG_TEMP_STEP : Fld := ⟨DRC_MAINT_CFG, 16, 8⟩

/-- DRC_WQ_CFG: R325, seal class SEALED. -/
def DRC_WQ_CFG : Nat := 0x178000C
def DRC_WQ_CFG_MERGE_NS : Fld := ⟨DRC_WQ_CFG, 0, 10⟩

/-- DRC_RETRY_CFG: R325, seal class SEALED. -/
def DRC_RETRY_CFG : Nat := 0x1780010
def DRC_RETRY_CFG_RD_RETRY : Fld := ⟨DRC_RETRY_CFG, 0, 2⟩
def DRC_RETRY_CFG_WR_RETRY : Fld := ⟨DRC_RETRY_CFG, 2, 3⟩
def DRC_RETRY_CFG_FAIL_TH : Fld := ⟨DRC_RETRY_CFG, 16, 16⟩

/-- DRC_TEMP_CFG: R325, seal class SEALED. -/
def DRC_TEMP_CFG : Nat := 0x1780014
def DRC_TEMP_CFG_T2X : Fld := ⟨DRC_TEMP_CFG, 0, 8⟩
def DRC_TEMP_CFG_T4X : Fld := ⟨DRC_TEMP_CFG, 8, 8⟩
def DRC_TEMP_CFG_THOT : Fld := ⟨DRC_TEMP_CFG, 16, 8⟩

/-- DRC_BGT_CFG: R325, seal class SEALED. -/
def DRC_BGT_CFG : Nat := 0x1780018
def DRC_BGT_CFG_RUN_US : Fld := ⟨DRC_BGT_CFG, 0, 16⟩
def DRC_BGT_CFG_STBY_US : Fld := ⟨DRC_BGT_CFG, 16, 16⟩

/-- DRC_GLB_STAT: R325, seal class STATUS. -/
def DRC_GLB_STAT : Nat := 0x178001C
def DRC_GLB_STAT_IN_SERVICE : Fld := ⟨DRC_GLB_STAT, 0, 24⟩
def DRC_GLB_STAT_PAUSING : Fld := ⟨DRC_GLB_STAT, 24, 2⟩

/-- DRC_DI_CTL: R325, seal class OPER. -/
def DRC_DI_CTL (i : Nat) : Nat := 0x1600000 + 0x10000 * i
def DRC_DI_CTL_RETRAIN (i : Nat) : Fld := ⟨DRC_DI_CTL i, 0, 1⟩

/-- DRC_DI_STAT: R325, seal class STATUS. -/
def DRC_DI_STAT (i : Nat) : Nat := 0x1600004 + 0x10000 * i
def DRC_DI_STAT_STATE (i : Nat) : Fld := ⟨DRC_DI_STAT i, 0, 3⟩
def DRC_DI_STAT_REF_MULT (i : Nat) : Fld := ⟨DRC_DI_STAT i, 4, 2⟩
def DRC_DI_STAT_HOT (i : Nat) : Fld := ⟨DRC_DI_STAT i, 6, 1⟩
def DRC_DI_STAT_TEMP (i : Nat) : Fld := ⟨DRC_DI_STAT i, 8, 8⟩
def DRC_DI_STAT_WQ_LINES (i : Nat) : Fld := ⟨DRC_DI_STAT i, 16, 12⟩

/-- DRC_DI_RET: R325, seal class STATUS. -/
def DRC_DI_RET (i : Nat) : Nat := 0x1600008 + 0x10000 * i
def DRC_DI_RET_RETIRED (i : Nat) : Fld := ⟨DRC_DI_RET i, 0, 16⟩

/-- DRC_DI_CNT: R325, seal class STATUS. -/
def DRC_DI_CNT (i k : Nat) : Nat := 0x1600040 + 0x10000 * i + 0x4 * k
def DRC_DI_CNT_COUNT (i k : Nat) : Fld := ⟨DRC_DI_CNT i k, 0, 31⟩
def DRC_DI_CNT_OVF (i k : Nat) : Fld := ⟨DRC_DI_CNT i k, 31, 1⟩

/-- PAIR_CFG: R358, seal class SEALED. -/
def PAIR_CFG : Nat := 0x1900000
def PAIR_CFG_MODE : Fld := ⟨PAIR_CFG, 0, 1⟩
def PAIR_CFG_GAL_LANE_EN : Fld := ⟨PAIR_CFG, 1, 4⟩
def PAIR_CFG_CARD_ID : Fld := ⟨PAIR_CFG, 8, 8⟩
def PAIR_CFG_LEASE_MS : Fld := ⟨PAIR_CFG, 16, 10⟩

/-- PAIR_LINK_CFG: R358, seal class SEALED. -/
def PAIR_LINK_CFG : Nat := 0x1900004
def PAIR_LINK_CFG_ARB_LOSS_US : Fld := ⟨PAIR_LINK_CFG, 0, 10⟩
def PAIR_LINK_CFG_GAL_LOSS_US : Fld := ⟨PAIR_LINK_CFG, 16, 10⟩
def PAIR_LINK_CFG_ARB_RX_INV : Fld := ⟨PAIR_LINK_CFG, 28, 1⟩
def PAIR_LINK_CFG_ARB_TX_INV : Fld := ⟨PAIR_LINK_CFG, 29, 1⟩

/-- PAIR_MIRROR_CFG: R358, seal class SEALED. -/
def PAIR_MIRROR_CFG : Nat := 0x1900008
def PAIR_MIRROR_CFG_STATE_US : Fld := ⟨PAIR_MIRROR_CFG, 0, 10⟩
def PAIR_MIRROR_CFG_BASE_S : Fld := ⟨PAIR_MIRROR_CFG, 16, 8⟩

/-- PAIR_STBY_CFG: R358, seal class SEALED. -/
def PAIR_STBY_CFG : Nat := 0x190000C
def PAIR_STBY_CFG_PROBE_US : Fld := ⟨PAIR_STBY_CFG, 0, 16⟩
def PAIR_STBY_CFG_MARGIN_MS : Fld := ⟨PAIR_STBY_CFG, 16, 16⟩

/-- PAIR_CTL: R358, seal class OPER. -/
def PAIR_CTL : Nat := 0x1900010
def PAIR_CTL_RESYNC : Fld := ⟨PAIR_CTL, 0, 1⟩
def PAIR_CTL_ALT_VALID : Fld := ⟨PAIR_CTL, 1, 1⟩

/-- PAIR_STAT: R358, seal class STATUS. -/
def PAIR_STAT : Nat := 0x1900014
def PAIR_STAT_ROLE : Fld := ⟨PAIR_STAT, 0, 2⟩
def PAIR_STAT_SYNC : Fld := ⟨PAIR_STAT, 2, 1⟩
def PAIR_STAT_GALLERY_UP : Fld := ⟨PAIR_STAT, 3, 1⟩
def PAIR_STAT_ARB_OK : Fld := ⟨PAIR_STAT, 4, 1⟩
def PAIR_STAT_LEASE_VALID : Fld := ⟨PAIR_STAT, 5, 1⟩
def PAIR_STAT_STALE : Fld := ⟨PAIR_STAT, 6, 1⟩
def PAIR_STAT_RESYNC_RUN : Fld := ⟨PAIR_STAT, 7, 1⟩
def PAIR_STAT_DIGEST_MM : Fld := ⟨PAIR_STAT, 8, 1⟩
def PAIR_STAT_DUAL_ACTIVE : Fld := ⟨PAIR_STAT, 9, 1⟩
def PAIR_STAT_PARTNER_ROLE : Fld := ⟨PAIR_STAT, 10, 2⟩
def PAIR_STAT_GAL_LANES : Fld := ⟨PAIR_STAT, 12, 3⟩
def PAIR_STAT_WD_REASON : Fld := ⟨PAIR_STAT, 16, 2⟩

/-- PAIR_EPOCH: R358, seal class STATUS. -/
def PAIR_EPOCH : Nat := 0x1900018
def PAIR_EPOCH_EPOCH : Fld := ⟨PAIR_EPOCH, 0, 16⟩
def PAIR_EPOCH_REASON : Fld := ⟨PAIR_EPOCH, 16, 8⟩

/-- PAIR_SEQ_TX: R358, seal class STATUS. -/
def PAIR_SEQ_TX : Nat := 0x190001C
def PAIR_SEQ_TX_SEQ : Fld := ⟨PAIR_SEQ_TX, 0, 32⟩

/-- PAIR_SEQ_APPLIED: R358, seal class STATUS. -/
def PAIR_SEQ_APPLIED : Nat := 0x1900020
def PAIR_SEQ_APPLIED_SEQ : Fld := ⟨PAIR_SEQ_APPLIED, 0, 32⟩

/-- PAIR_LAG: R358, seal class STATUS. -/
def PAIR_LAG : Nat := 0x1900024
def PAIR_LAG_LAG : Fld := ⟨PAIR_LAG, 0, 16⟩
def PAIR_LAG_PEAK : Fld := ⟨PAIR_LAG, 16, 16⟩

/-- PAIR_PSERIAL_LO: R358, seal class STATUS. -/
def PAIR_PSERIAL_LO : Nat := 0x1900028
def PAIR_PSERIAL_LO_SERIAL_LO : Fld := ⟨PAIR_PSERIAL_LO, 0, 32⟩

/-- PAIR_PSERIAL_HI: R358, seal class STATUS. -/
def PAIR_PSERIAL_HI : Nat := 0x190002C
def PAIR_PSERIAL_HI_SERIAL_HI : Fld := ⟨PAIR_PSERIAL_HI, 0, 32⟩

/-- PAIR_DIGEST: R358, seal class STATUS. -/
def PAIR_DIGEST (k : Nat) : Nat := 0x1900040 + 0x4 * k
def PAIR_DIGEST_DIGEST (k : Nat) : Fld := ⟨PAIR_DIGEST k, 0, 32⟩

/-- PAIR_ALT_DIGEST: R358, seal class OPER. -/
def PAIR_ALT_DIGEST (k : Nat) : Nat := 0x1900080 + 0x4 * k
def PAIR_ALT_DIGEST_DIGEST (k : Nat) : Fld := ⟨PAIR_ALT_DIGEST k, 0, 32⟩

/-- PAIR_CNT: R358, seal class STATUS. -/
def PAIR_CNT (k : Nat) : Nat := 0x1900100 + 0x4 * k
def PAIR_CNT_COUNT (k : Nat) : Fld := ⟨PAIR_CNT k, 0, 31⟩
def PAIR_CNT_OVF (k : Nat) : Fld := ⟨PAIR_CNT k, 31, 1⟩

/-- BOOT_STAT: R386, seal class STATUS. -/
def BOOT_STAT : Nat := 0x0100000
def BOOT_STAT_LC_STATE : Fld := ⟨BOOT_STAT, 0, 2⟩
def BOOT_STAT_LC_COMPLETED : Fld := ⟨BOOT_STAT, 2, 1⟩
def BOOT_STAT_LC_ABANDONED : Fld := ⟨BOOT_STAT, 3, 1⟩
def BOOT_STAT_FW_SLOT : Fld := ⟨BOOT_STAT, 4, 1⟩
def BOOT_STAT_CFG_SLOT : Fld := ⟨BOOT_STAT, 5, 1⟩
def BOOT_STAT_OVR_USED : Fld := ⟨BOOT_STAT, 6, 1⟩
def BOOT_STAT_FW_PUSHED : Fld := ⟨BOOT_STAT, 7, 1⟩
def BOOT_STAT_CFG_PUSHED : Fld := ⟨BOOT_STAT, 8, 1⟩
def BOOT_STAT_RET_LEFT : Fld := ⟨BOOT_STAT, 9, 3⟩

/-- BOOT_HOLD_STAT: R386, seal class STATUS. -/
def BOOT_HOLD_STAT : Nat := 0x0100004
def BOOT_HOLD_STAT_REASON : Fld := ⟨BOOT_HOLD_STAT, 0, 8⟩
def BOOT_HOLD_STAT_IMAGE : Fld := ⟨BOOT_HOLD_STAT, 8, 2⟩
def BOOT_HOLD_STAT_SLOT : Fld := ⟨BOOT_HOLD_STAT, 10, 1⟩
def BOOT_HOLD_STAT_STATUS : Fld := ⟨BOOT_HOLD_STAT, 16, 8⟩

/-- BOOT_HOLD_DETAIL: R386, seal class STATUS. -/
def BOOT_HOLD_DETAIL : Nat := 0x0100008
def BOOT_HOLD_DETAIL_DETAIL : Fld := ⟨BOOT_HOLD_DETAIL, 0, 32⟩

/-- BOOT_HOLD_CTL: R386, seal class OPER. -/
def BOOT_HOLD_CTL : Nat := 0x010000C
def BOOT_HOLD_CTL_REREAD : Fld := ⟨BOOT_HOLD_CTL, 0, 1⟩
def BOOT_HOLD_CTL_OVR_EN : Fld := ⟨BOOT_HOLD_CTL, 1, 1⟩
def BOOT_HOLD_CTL_FW_SLOT : Fld := ⟨BOOT_HOLD_CTL, 2, 1⟩
def BOOT_HOLD_CTL_CFG_SLOT : Fld := ⟨BOOT_HOLD_CTL, 3, 1⟩

/-- BOOT_PUSH_ADDR_LO: R386, seal class OPER. -/
def BOOT_PUSH_ADDR_LO : Nat := 0x0100010
def BOOT_PUSH_ADDR_LO_ADDR_LO : Fld := ⟨BOOT_PUSH_ADDR_LO, 12, 20⟩

/-- BOOT_PUSH_ADDR_HI: R386, seal class OPER. -/
def BOOT_PUSH_ADDR_HI : Nat := 0x0100014
def BOOT_PUSH_ADDR_HI_ADDR_HI : Fld := ⟨BOOT_PUSH_ADDR_HI, 0, 32⟩

/-- BOOT_PUSH_LEN: R386, seal class OPER. -/
def BOOT_PUSH_LEN : Nat := 0x0100018
def BOOT_PUSH_LEN_LEN : Fld := ⟨BOOT_PUSH_LEN, 0, 27⟩

/-- BOOT_PUSH_CTL: R386, seal class OPER. -/
def BOOT_PUSH_CTL : Nat := 0x010001C
def BOOT_PUSH_CTL_START : Fld := ⟨BOOT_PUSH_CTL, 0, 1⟩
def BOOT_PUSH_CTL_TYPE : Fld := ⟨BOOT_PUSH_CTL, 1, 3⟩
def BOOT_PUSH_CTL_PROGRAM : Fld := ⟨BOOT_PUSH_CTL, 4, 1⟩
def BOOT_PUSH_CTL_SLOT : Fld := ⟨BOOT_PUSH_CTL, 5, 1⟩

/-- BOOT_PUSH_STAT: R386, seal class STATUS. -/
def BOOT_PUSH_STAT : Nat := 0x0100020
def BOOT_PUSH_STAT_BUSY : Fld := ⟨BOOT_PUSH_STAT, 0, 1⟩
def BOOT_PUSH_STAT_DONE : Fld := ⟨BOOT_PUSH_STAT, 1, 1⟩
def BOOT_PUSH_STAT_PROG_FAIL : Fld := ⟨BOOT_PUSH_STAT, 2, 1⟩
def BOOT_PUSH_STAT_REFUSED : Fld := ⟨BOOT_PUSH_STAT, 3, 1⟩

/-- BOOT_ARB_RUN: R386, seal class STATUS. -/
def BOOT_ARB_RUN (t : Nat) : Nat := 0x0100024 + 0x4 * t
def BOOT_ARB_RUN_SEQ (t : Nat) : Fld := ⟨BOOT_ARB_RUN t, 0, 32⟩

/-- BOOT_FLOOR: R386, seal class STATUS. -/
def BOOT_FLOOR (t : Nat) : Nat := 0x010002C + 0x4 * t
def BOOT_FLOOR_FLOOR (t : Nat) : Fld := ⟨BOOT_FLOOR t, 0, 32⟩

/-- BOOT_ARB_CTL: R386, seal class OPER. -/
def BOOT_ARB_CTL : Nat := 0x0100034
def BOOT_ARB_CTL_COMMIT_FW : Fld := ⟨BOOT_ARB_CTL, 0, 1⟩
def BOOT_ARB_CTL_COMMIT_CFG : Fld := ⟨BOOT_ARB_CTL, 1, 1⟩

/-- BOOT_FLOOR_LEFT: R386, seal class STATUS. -/
def BOOT_FLOOR_LEFT : Nat := 0x0100038
def BOOT_FLOOR_LEFT_FW_LEFT : Fld := ⟨BOOT_FLOOR_LEFT, 0, 7⟩
def BOOT_FLOOR_LEFT_CFG_LEFT : Fld := ⟨BOOT_FLOOR_LEFT, 8, 7⟩

/-- BOOT_KEY_STAT: R386, seal class STATUS. -/
def BOOT_KEY_STAT (k : Nat) : Nat := 0x0100040 + 0x4 * k
def BOOT_KEY_STAT_PRESENT (k : Nat) : Fld := ⟨BOOT_KEY_STAT k, 0, 1⟩
def BOOT_KEY_STAT_USAGE (k : Nat) : Fld := ⟨BOOT_KEY_STAT k, 1, 3⟩
def BOOT_KEY_STAT_REVOKED (k : Nat) : Fld := ⟨BOOT_KEY_STAT k, 4, 1⟩

/-- BOOT_KEY_CTL: R386, seal class OPER. -/
def BOOT_KEY_CTL : Nat := 0x0100050
def BOOT_KEY_CTL_KEY : Fld := ⟨BOOT_KEY_CTL, 0, 2⟩
def BOOT_KEY_CTL_REVOKE : Fld := ⟨BOOT_KEY_CTL, 2, 1⟩
def BOOT_KEY_CTL_CONFIRM : Fld := ⟨BOOT_KEY_CTL, 16, 16⟩

/-- BOOT_LC_CTL: R386, seal class OPER. -/
def BOOT_LC_CTL : Nat := 0x0100054
def BOOT_LC_CTL_TO_FIELD : Fld := ⟨BOOT_LC_CTL, 0, 1⟩
def BOOT_LC_CTL_CONFIRM : Fld := ⟨BOOT_LC_CTL, 16, 16⟩

/-- BOOT_NVM_STAT: R386, seal class STATUS. -/
def BOOT_NVM_STAT : Nat := 0x0100058
def BOOT_NVM_STAT_OCTAL : Fld := ⟨BOOT_NVM_STAT, 0, 1⟩
def BOOT_NVM_STAT_REREADS : Fld := ⟨BOOT_NVM_STAT, 16, 16⟩

/-- BOOT_DIE_ID_LO: R386, seal class STATUS. -/
def BOOT_DIE_ID_LO (d : Nat) : Nat := 0x0100060 + 0x8 * d
def BOOT_DIE_ID_LO_LOT (d : Nat) : Fld := ⟨BOOT_DIE_ID_LO d, 0, 32⟩

/-- BOOT_DIE_ID_HI: R386, seal class STATUS. -/
def BOOT_DIE_ID_HI (d : Nat) : Nat := 0x0100064 + 0x8 * d
def BOOT_DIE_ID_HI_X (d : Nat) : Fld := ⟨BOOT_DIE_ID_HI d, 0, 8⟩
def BOOT_DIE_ID_HI_Y (d : Nat) : Fld := ⟨BOOT_DIE_ID_HI d, 8, 8⟩
def BOOT_DIE_ID_HI_WAFER (d : Nat) : Fld := ⟨BOOT_DIE_ID_HI d, 16, 5⟩

/-- UPD_CFG: R408, seal class SEALED. -/
def UPD_CFG : Nat := 0x1A00000
def UPD_CFG_CONFIRM_S : Fld := ⟨UPD_CFG, 0, 12⟩

/-- UPD_WEAR_CFG: R408, seal class SEALED. -/
def UPD_WEAR_CFG : Nat := 0x1A00004
def UPD_WEAR_CFG_RATING : Fld := ⟨UPD_WEAR_CFG, 0, 16⟩
def UPD_WEAR_CFG_T_TYP_US : Fld := ⟨UPD_WEAR_CFG, 16, 16⟩

/-- UPD_CTL: R408, seal class OPER. -/
def UPD_CTL : Nat := 0x1A00008
def UPD_CTL_ARM : Fld := ⟨UPD_CTL, 0, 1⟩
def UPD_CTL_DISARM : Fld := ⟨UPD_CTL, 1, 1⟩
def UPD_CTL_CONFIRM : Fld := ⟨UPD_CTL, 2, 1⟩
def UPD_CTL_ABANDON : Fld := ⟨UPD_CTL, 3, 1⟩
def UPD_CTL_RESTART_ACT : Fld := ⟨UPD_CTL, 4, 1⟩
def UPD_CTL_DISCARD : Fld := ⟨UPD_CTL, 5, 1⟩
def UPD_CTL_CODE : Fld := ⟨UPD_CTL, 16, 16⟩

/-- UPD_STAT: R408, seal class STATUS. -/
def UPD_STAT : Nat := 0x1A0000C
def UPD_STAT_STATE : Fld := ⟨UPD_STAT, 0, 4⟩
def UPD_STAT_REQ_CLASS : Fld := ⟨UPD_STAT, 4, 2⟩
def UPD_STAT_FW_STAGED : Fld := ⟨UPD_STAT, 6, 1⟩
def UPD_STAT_CFG_STAGED : Fld := ⟨UPD_STAT, 7, 1⟩
def UPD_STAT_FALLBACK_DUE : Fld := ⟨UPD_STAT, 8, 1⟩
def UPD_STAT_FELL_BACK : Fld := ⟨UPD_STAT, 9, 1⟩
def UPD_STAT_TRIAL_LOST : Fld := ⟨UPD_STAT, 10, 1⟩
def UPD_STAT_RESTART_TRIAL : Fld := ⟨UPD_STAT, 11, 1⟩
def UPD_STAT_LAST_STATUS : Fld := ⟨UPD_STAT, 16, 8⟩

/-- UPD_STAGE_ADDR_LO: R408, seal class OPER. -/
def UPD_STAGE_ADDR_LO : Nat := 0x1A00010
def UPD_STAGE_ADDR_LO_ADDR_LO : Fld := ⟨UPD_STAGE_ADDR_LO, 12, 20⟩

/-- UPD_STAGE_ADDR_HI: R408, seal class OPER. -/
def UPD_STAGE_ADDR_HI : Nat := 0x1A00014
def UPD_STAGE_ADDR_HI_ADDR_HI : Fld := ⟨UPD_STAGE_ADDR_HI, 0, 32⟩

/-- UPD_STAGE_LEN: R408, seal class OPER. -/
def UPD_STAGE_LEN : Nat := 0x1A00018
def UPD_STAGE_LEN_LEN : Fld := ⟨UPD_STAGE_LEN, 0, 27⟩

/-- UPD_STAGE_CTL: R408, seal class OPER. -/
def UPD_STAGE_CTL : Nat := 0x1A0001C
def UPD_STAGE_CTL_START : Fld := ⟨UPD_STAGE_CTL, 0, 1⟩
def UPD_STAGE_CTL_TYPE : Fld := ⟨UPD_STAGE_CTL, 1, 2⟩

/-- UPD_STAGE_STAT: R408, seal class STATUS. -/
def UPD_STAGE_STAT : Nat := 0x1A00020
def UPD_STAGE_STAT_BUSY : Fld := ⟨UPD_STAGE_STAT, 0, 1⟩
def UPD_STAGE_STAT_DONE : Fld := ⟨UPD_STAGE_STAT, 1, 1⟩
def UPD_STAGE_STAT_BLOCKS_DONE : Fld := ⟨UPD_STAGE_STAT, 16, 15⟩

/-- UPD_ACT_TIME_LO: R408, seal class OPER. -/
def UPD_ACT_TIME_LO : Nat := 0x1A00024
def UPD_ACT_TIME_LO_NS : Fld := ⟨UPD_ACT_TIME_LO, 0, 30⟩

/-- UPD_ACT_TIME_HI: R408, seal class OPER. -/
def UPD_ACT_TIME_HI : Nat := 0x1A00028
def UPD_ACT_TIME_HI_SEC : Fld := ⟨UPD_ACT_TIME_HI, 0, 32⟩

/-- UPD_WINDOW: R408, seal class STATUS. -/
def UPD_WINDOW : Nat := 0x1A0002C
def UPD_WINDOW_LEFT : Fld := ⟨UPD_WINDOW, 0, 12⟩

/-- UPD_WEAR_STAT: R408, seal class STATUS. -/
def UPD_WEAR_STAT : Nat := 0x1A00030
def UPD_WEAR_STAT_MAX_KCYCLES : Fld := ⟨UPD_WEAR_STAT, 0, 16⟩
def UPD_WEAR_STAT_AT_LIMIT : Fld := ⟨UPD_WEAR_STAT, 16, 1⟩

/-- UPD_NEW_DIGEST: R408, seal class STATUS. -/
def UPD_NEW_DIGEST (k : Nat) : Nat := 0x1A00040 + 0x4 * k
def UPD_NEW_DIGEST_DIGEST (k : Nat) : Fld := ⟨UPD_NEW_DIGEST k, 0, 32⟩

/-- UPD_CNT: R408, seal class STATUS. -/
def UPD_CNT (k : Nat) : Nat := 0x1A00080 + 0x4 * k
def UPD_CNT_COUNT (k : Nat) : Fld := ⟨UPD_CNT k, 0, 31⟩
def UPD_CNT_OVF (k : Nat) : Fld := ⟨UPD_CNT k, 31, 1⟩

/-- CLK_PLAN: R430, seal class SEALED. -/
def CLK_PLAN : Nat := 0x0200000
def CLK_PLAN_LINE_REF_SEL : Fld := ⟨CLK_PLAN, 0, 1⟩
def CLK_PLAN_FAB_REF_SEL : Fld := ⟨CLK_PLAN, 1, 1⟩
def CLK_PLAN_ROOT_BW : Fld := ⟨CLK_PLAN, 2, 2⟩
def CLK_PLAN_AUTO_RELOCK : Fld := ⟨CLK_PLAN, 4, 1⟩
def CLK_PLAN_TIME_FALLBACK : Fld := ⟨CLK_PLAN, 5, 1⟩

/-- CLK_MON_CFG: R430, seal class SEALED. -/
def CLK_MON_CFG : Nat := 0x0200004
def CLK_MON_CFG_FREQ_TOL : Fld := ⟨CLK_MON_CFG, 0, 10⟩

/-- CLK_CTL: R430, seal class OPER. -/
def CLK_CTL : Nat := 0x0200008
def CLK_CTL_RELOCK_FD : Fld := ⟨CLK_CTL, 0, 1⟩
def CLK_CTL_RELOCK_QD : Fld := ⟨CLK_CTL, 1, 1⟩

/-- CLK_OUT_CFG: R430, seal class OPER. -/
def CLK_OUT_CFG : Nat := 0x020000C
def CLK_OUT_CFG_SEL : Fld := ⟨CLK_OUT_CFG, 0, 6⟩
def CLK_OUT_CFG_DIV : Fld := ⟨CLK_OUT_CFG, 6, 16⟩
def CLK_OUT_CFG_EN : Fld := ⟨CLK_OUT_CFG, 22, 1⟩

/-- CLK_GATE_DIS_LO: R430, seal class OPER. -/
def CLK_GATE_DIS_LO : Nat := 0x0200010
def CLK_GATE_DIS_LO_DIS_LO : Fld := ⟨CLK_GATE_DIS_LO, 0, 32⟩

/-- CLK_GATE_DIS_HI: R430, seal class OPER. -/
def CLK_GATE_DIS_HI : Nat := 0x0200014
def CLK_GATE_DIS_HI_DIS_HI : Fld := ⟨CLK_GATE_DIS_HI, 0, 8⟩

/-- CLK_STAT: R430, seal class STATUS. -/
def CLK_STAT : Nat := 0x0200018
def CLK_STAT_BYPASS : Fld := ⟨CLK_STAT, 0, 1⟩
def CLK_STAT_FD_LOCK : Fld := ⟨CLK_STAT, 1, 1⟩
def CLK_STAT_QD_LOCK : Fld := ⟨CLK_STAT, 2, 1⟩
def CLK_STAT_DRAMA_LOCK : Fld := ⟨CLK_STAT, 3, 1⟩
def CLK_STAT_DRAMB_LOCK : Fld := ⟨CLK_STAT, 4, 1⟩
def CLK_STAT_PCIE_LOCK : Fld := ⟨CLK_STAT, 5, 1⟩
def CLK_STAT_TIME_LOCK : Fld := ⟨CLK_STAT, 6, 1⟩
def CLK_STAT_GAL_LOCK : Fld := ⟨CLK_STAT, 7, 1⟩
def CLK_STAT_FD_RELOCK : Fld := ⟨CLK_STAT, 8, 1⟩
def CLK_STAT_QD_RELOCK : Fld := ⟨CLK_STAT, 9, 1⟩
def CLK_STAT_RELOCK_WAIT : Fld := ⟨CLK_STAT, 10, 1⟩
def CLK_STAT_OUT_ERR : Fld := ⟨CLK_STAT, 11, 1⟩

/-- CLK_PLL_STAT: R430, seal class STATUS. -/
def CLK_PLL_STAT : Nat := 0x020001C
def CLK_PLL_STAT_LINE_LOCK : Fld := ⟨CLK_PLL_STAT, 0, 10⟩
def CLK_PLL_STAT_FAB_LOCK : Fld := ⟨CLK_PLL_STAT, 16, 8⟩

/-- CLK_REF_STAT: R430, seal class STATUS. -/
def CLK_REF_STAT : Nat := 0x0200020
def CLK_REF_STAT_PRESENT : Fld := ⟨CLK_REF_STAT, 0, 5⟩
def CLK_REF_STAT_LOSS : Fld := ⟨CLK_REF_STAT, 8, 5⟩

/-- CLK_MEAS: R430, seal class STATUS. -/
def CLK_MEAS (k : Nat) : Nat := 0x0200030 + 0x4 * k
def CLK_MEAS_OFFSET (k : Nat) : Fld := ⟨CLK_MEAS k, 0, 16⟩
def CLK_MEAS_VALID (k : Nat) : Fld := ⟨CLK_MEAS k, 31, 1⟩

/-- CLK_CNT: R430, seal class STATUS. -/
def CLK_CNT (k : Nat) : Nat := 0x0200040 + 0x4 * k
def CLK_CNT_COUNT (k : Nat) : Fld := ⟨CLK_CNT k, 0, 31⟩
def CLK_CNT_OVF (k : Nat) : Fld := ⟨CLK_CNT k, 31, 1⟩

/-- TIM_CTL: R430, seal class OPER. -/
def TIM_CTL : Nat := 0x1C00000
def TIM_CTL_SET : Fld := ⟨TIM_CTL, 0, 1⟩
def TIM_CTL_ADD : Fld := ⟨TIM_CTL, 1, 1⟩

/-- TIM_STAT: R430, seal class STATUS. -/
def TIM_STAT : Nat := 0x1C00004
def TIM_STAT_TIME_STATE : Fld := ⟨TIM_STAT, 0, 2⟩
def TIM_STAT_TIME_SRC : Fld := ⟨TIM_STAT, 2, 1⟩
def TIM_STAT_STEPPED : Fld := ⟨TIM_STAT, 3, 1⟩
def TIM_STAT_PPS_CAPTURED : Fld := ⟨TIM_STAT, 4, 1⟩
def TIM_STAT_PPS_PRESENT : Fld := ⟨TIM_STAT, 5, 1⟩

/-- TIM_NOW_LO: R430, seal class STATUS. -/
def TIM_NOW_LO : Nat := 0x1C00008
def TIM_NOW_LO_NS : Fld := ⟨TIM_NOW_LO, 0, 30⟩

/-- TIM_NOW_HI: R430, seal class STATUS. -/
def TIM_NOW_HI : Nat := 0x1C0000C
def TIM_NOW_HI_SEC_LO : Fld := ⟨TIM_NOW_HI, 0, 32⟩

/-- TIM_NOW_EXT: R430, seal class STATUS. -/
def TIM_NOW_EXT : Nat := 0x1C00010
def TIM_NOW_EXT_SEC_HI : Fld := ⟨TIM_NOW_EXT, 0, 16⟩
def TIM_NOW_EXT_FRAC : Fld := ⟨TIM_NOW_EXT, 16, 8⟩

/-- TIM_SET_LO: R430, seal class OPER. -/
def TIM_SET_LO : Nat := 0x1C00014
def TIM_SET_LO_NS : Fld := ⟨TIM_SET_LO, 0, 30⟩

/-- TIM_SET_HI: R430, seal class OPER. -/
def TIM_SET_HI : Nat := 0x1C00018
def TIM_SET_HI_SEC_LO : Fld := ⟨TIM_SET_HI, 0, 32⟩

/-- TIM_SET_EXT: R430, seal class OPER. -/
def TIM_SET_EXT : Nat := 0x1C0001C
def TIM_SET_EXT_SEC_HI : Fld := ⟨TIM_SET_EXT, 0, 16⟩

/-- TIM_OFFSET: R430, seal class OPER. -/
def TIM_OFFSET : Nat := 0x1C00020
def TIM_OFFSET_OFFSET : Fld := ⟨TIM_OFFSET, 0, 32⟩

/-- TIM_INCR_LO: R430, seal class OPER. -/
def TIM_INCR_LO : Nat := 0x1C00024
def TIM_INCR_LO_FRAC : Fld := ⟨TIM_INCR_LO, 0, 32⟩

/-- TIM_INCR_HI: R430, seal class OPER. -/
def TIM_INCR_HI : Nat := 0x1C00028
def TIM_INCR_HI_WHOLE : Fld := ⟨TIM_INCR_HI, 0, 8⟩

/-- TIM_PPS_CFG: R430, seal class OPER. -/
def TIM_PPS_CFG : Nat := 0x1C0002C
def TIM_PPS_CFG_OUT_EN : Fld := ⟨TIM_PPS_CFG, 0, 1⟩
def TIM_PPS_CFG_IN_EN : Fld := ⟨TIM_PPS_CFG, 1, 1⟩
def TIM_PPS_CFG_IN_POL : Fld := ⟨TIM_PPS_CFG, 2, 1⟩
def TIM_PPS_CFG_WIDTH_US : Fld := ⟨TIM_PPS_CFG, 12, 20⟩

/-- TIM_PPS_CAP_LO: R430, seal class STATUS. -/
def TIM_PPS_CAP_LO : Nat := 0x1C00030
def TIM_PPS_CAP_LO_NS : Fld := ⟨TIM_PPS_CAP_LO, 0, 30⟩

/-- TIM_PPS_CAP_HI: R430, seal class STATUS. -/
def TIM_PPS_CAP_HI : Nat := 0x1C00034
def TIM_PPS_CAP_HI_SEC_LO : Fld := ⟨TIM_PPS_CAP_HI, 0, 32⟩

/-- TIM_CNT: R430, seal class STATUS. -/
def TIM_CNT (k : Nat) : Nat := 0x1C00040 + 0x4 * k
def TIM_CNT_COUNT (k : Nat) : Fld := ⟨TIM_CNT k, 0, 31⟩
def TIM_CNT_OVF (k : Nat) : Fld := ⟨TIM_CNT k, 31, 1⟩

/-- PWR_VIN_CFG: R461, seal class SEALED. -/
def PWR_VIN_CFG : Nat := 0x0300000
def PWR_VIN_CFG_WARN_MV : Fld := ⟨PWR_VIN_CFG, 0, 13⟩

/-- PWR_TEMP_CFG: R461, seal class SEALED. -/
def PWR_TEMP_CFG : Nat := 0x0300004
def PWR_TEMP_CFG_WARN_C : Fld := ⟨PWR_TEMP_CFG, 0, 8⟩
def PWR_TEMP_CFG_HIGH_C : Fld := ⟨PWR_TEMP_CFG, 8, 8⟩
def PWR_TEMP_CFG_HYST : Fld := ⟨PWR_TEMP_CFG, 16, 4⟩

/-- PWR_VIN_STAT: R461, seal class STATUS. -/
def PWR_VIN_STAT : Nat := 0x0300008
def PWR_VIN_STAT_VIN_MV : Fld := ⟨PWR_VIN_STAT, 0, 13⟩
def PWR_VIN_STAT_WARN : Fld := ⟨PWR_VIN_STAT, 16, 1⟩

/-- PWR_VIN_MIN: R461, seal class STATUS. -/
def PWR_VIN_MIN : Nat := 0x030000C
def PWR_VIN_MIN_MIN_MV : Fld := ⟨PWR_VIN_MIN, 0, 13⟩

/-- PWR_IIN_STAT: R461, seal class STATUS. -/
def PWR_IIN_STAT : Nat := 0x0300010
def PWR_IIN_STAT_IIN : Fld := ⟨PWR_IIN_STAT, 0, 12⟩
def PWR_IIN_STAT_PIN : Fld := ⟨PWR_IIN_STAT, 16, 12⟩

/-- PWR_RAIL_STAT: R461, seal class STATUS. -/
def PWR_RAIL_STAT : Nat := 0x0300014
def PWR_RAIL_STAT_IN_RANGE : Fld := ⟨PWR_RAIL_STAT, 0, 7⟩
def PWR_RAIL_STAT_VIO18_OK : Fld := ⟨PWR_RAIL_STAT, 8, 1⟩
def PWR_RAIL_STAT_VIO18_OC : Fld := ⟨PWR_RAIL_STAT, 9, 1⟩
def PWR_RAIL_STAT_OUT_SEEN : Fld := ⟨PWR_RAIL_STAT, 16, 7⟩

/-- PWR_GRP_PWR: R461, seal class STATUS. -/
def PWR_GRP_PWR (k : Nat) : Nat := 0x0300020 + 0x4 * k
def PWR_GRP_PWR_POWER (k : Nat) : Fld := ⟨PWR_GRP_PWR k, 0, 16⟩

/-- PWR_DIE_PWR: R461, seal class STATUS. -/
def PWR_DIE_PWR (d : Nat) : Nat := 0x0300040 + 0x4 * d
def PWR_DIE_PWR_POWER (d : Nat) : Fld := ⟨PWR_DIE_PWR d, 0, 16⟩

/-- PWR_TEMP: R461, seal class STATUS. -/
def PWR_TEMP (s : Nat) : Nat := 0x0300100 + 0x4 * s
def PWR_TEMP_TEMP (s : Nat) : Fld := ⟨PWR_TEMP s, 0, 12⟩
def PWR_TEMP_VALID (s : Nat) : Fld := ⟨PWR_TEMP s, 15, 1⟩

/-- PWR_TEMP_MAX: R461, seal class STATUS. -/
def PWR_TEMP_MAX : Nat := 0x0300240
def PWR_TEMP_MAX_TEMP : Fld := ⟨PWR_TEMP_MAX, 0, 12⟩
def PWR_TEMP_MAX_SENSOR : Fld := ⟨PWR_TEMP_MAX, 16, 7⟩

/-- PWR_TEMP_PEAK: R461, seal class STATUS. -/
def PWR_TEMP_PEAK : Nat := 0x0300244
def PWR_TEMP_PEAK_TEMP : Fld := ⟨PWR_TEMP_PEAK, 0, 12⟩
def PWR_TEMP_PEAK_SENSOR : Fld := ⟨PWR_TEMP_PEAK, 16, 7⟩

/-- PWR_TEMP_STAT: R461, seal class STATUS. -/
def PWR_TEMP_STAT : Nat := 0x0300248
def PWR_TEMP_STAT_WARN : Fld := ⟨PWR_TEMP_STAT, 0, 1⟩
def PWR_TEMP_STAT_HIGH : Fld := ⟨PWR_TEMP_STAT, 1, 1⟩
def PWR_TEMP_STAT_WARN_SEEN : Fld := ⟨PWR_TEMP_STAT, 8, 1⟩
def PWR_TEMP_STAT_HIGH_SEEN : Fld := ⟨PWR_TEMP_STAT, 9, 1⟩

/-- PWR_TRIP: R461, seal class STATUS. -/
def PWR_TRIP : Nat := 0x030024C
def PWR_TRIP_TRIPS : Fld := ⟨PWR_TRIP, 0, 8⟩
def PWR_TRIP_LAST_SENSOR : Fld := ⟨PWR_TRIP, 8, 7⟩

/-- PWR_BAT_STAT: R461, seal class STATUS. -/
def PWR_BAT_STAT : Nat := 0x0300300
def PWR_BAT_STAT_VBAT_MV : Fld := ⟨PWR_BAT_STAT, 0, 12⟩
def PWR_BAT_STAT_VBAT_LOW : Fld := ⟨PWR_BAT_STAT, 12, 1⟩
def PWR_BAT_STAT_ABSENT : Fld := ⟨PWR_BAT_STAT, 13, 1⟩
def PWR_BAT_STAT_TIME_VALID : Fld := ⟨PWR_BAT_STAT, 14, 1⟩
def PWR_BAT_STAT_REC_VALID : Fld := ⟨PWR_BAT_STAT, 15, 1⟩
def PWR_BAT_STAT_REC_LOST : Fld := ⟨PWR_BAT_STAT, 16, 1⟩
def PWR_BAT_STAT_COLLAPSED : Fld := ⟨PWR_BAT_STAT, 17, 1⟩

/-- PWR_BAT_CTL: R461, seal class OPER. -/
def PWR_BAT_CTL : Nat := 0x0300304
def PWR_BAT_CTL_CLR_REC : Fld := ⟨PWR_BAT_CTL, 0, 1⟩

/-- PWR_HOLD_NS: R461, seal class STATUS. -/
def PWR_HOLD_NS : Nat := 0x0300308
def PWR_HOLD_NS_NS : Fld := ⟨PWR_HOLD_NS, 0, 30⟩

/-- PWR_HOLD_SEC_LO: R461, seal class STATUS. -/
def PWR_HOLD_SEC_LO : Nat := 0x030030C
def PWR_HOLD_SEC_LO_SEC_LO : Fld := ⟨PWR_HOLD_SEC_LO, 0, 32⟩

/-- PWR_HOLD_SEC_HI: R461, seal class STATUS. -/
def PWR_HOLD_SEC_HI : Nat := 0x0300310
def PWR_HOLD_SEC_HI_SEC_HI : Fld := ⟨PWR_HOLD_SEC_HI, 0, 16⟩

/-- PWR_LASTREC: R461, seal class STATUS. -/
def PWR_LASTREC (k : Nat) : Nat := 0x0300320 + 0x4 * k
def PWR_LASTREC_WORD (k : Nat) : Fld := ⟨PWR_LASTREC k, 0, 32⟩

/-- PWR_VIO_STAT: R461, seal class STATUS. -/
def PWR_VIO_STAT : Nat := 0x0300340
def PWR_VIO_STAT_IOUT_MA : Fld := ⟨PWR_VIO_STAT, 0, 10⟩

/-- PWR_CNT: R461, seal class STATUS. -/
def PWR_CNT (k : Nat) : Nat := 0x0300380 + 0x4 * k
def PWR_CNT_COUNT (k : Nat) : Fld := ⟨PWR_CNT k, 0, 31⟩
def PWR_CNT_OVF (k : Nat) : Fld := ⟨PWR_CNT k, 31, 1⟩

/-- HIF_CFG: R505, seal class SEALED. -/
def HIF_CFG : Nat := 0x0600000
def HIF_CFG_MAX_GEN : Fld := ⟨HIF_CFG, 0, 3⟩
def HIF_CFG_MAX_WIDTH : Fld := ⟨HIF_CFG, 3, 5⟩
def HIF_CFG_TOTAL_VFS : Fld := ⟨HIF_CFG, 8, 8⟩

/-- HIF_SUBSYS: R505, seal class SEALED. -/
def HIF_SUBSYS : Nat := 0x0600004
def HIF_SUBSYS_SUB_VENDOR : Fld := ⟨HIF_SUBSYS, 0, 16⟩
def HIF_SUBSYS_SUB_ID : Fld := ⟨HIF_SUBSYS, 16, 16⟩

/-- HIF_LINK_STAT: R505, seal class STATUS. -/
def HIF_LINK_STAT : Nat := 0x0600008
def HIF_LINK_STAT_GEN : Fld := ⟨HIF_LINK_STAT, 0, 3⟩
def HIF_LINK_STAT_WIDTH : Fld := ⟨HIF_LINK_STAT, 3, 5⟩
def HIF_LINK_STAT_FLIT : Fld := ⟨HIF_LINK_STAT, 8, 1⟩
def HIF_LINK_STAT_UP : Fld := ⟨HIF_LINK_STAT, 9, 1⟩

/-- HIF_INFLIGHT: R505, seal class STATUS. -/
def HIF_INFLIGHT : Nat := 0x060000C
def HIF_INFLIGHT_NOW : Fld := ⟨HIF_INFLIGHT, 0, 15⟩
def HIF_INFLIGHT_PEAK : Fld := ⟨HIF_INFLIGHT, 16, 15⟩

/-- HIF_PWF_STAT: R505, seal class STATUS. -/
def HIF_PWF_STAT : Nat := 0x0600010
def HIF_PWF_STAT_KEPT : Fld := ⟨HIF_PWF_STAT, 0, 7⟩
def HIF_PWF_STAT_OVER : Fld := ⟨HIF_PWF_STAT, 8, 24⟩

/-- HIF_PWF_CTL: R505, seal class OPER. -/
def HIF_PWF_CTL : Nat := 0x0600014
def HIF_PWF_CTL_CLEAR : Fld := ⟨HIF_PWF_CTL, 0, 1⟩

/-- HIF_CNT: R505, seal class STATUS. -/
def HIF_CNT (k : Nat) : Nat := 0x0600040 + 0x4 * k
def HIF_CNT_COUNT (k : Nat) : Fld := ⟨HIF_CNT k, 0, 31⟩
def HIF_CNT_OVF (k : Nat) : Fld := ⟨HIF_CNT k, 31, 1⟩

/-- HIF_TWIN: R505, seal class OPER. -/
def HIF_TWIN (w : Nat) : Nat := 0x0600100 + 0x4 * w
def HIF_TWIN_TABLE (w : Nat) : Fld := ⟨HIF_TWIN w, 0, 5⟩
def HIF_TWIN_FIRST (w : Nat) : Fld := ⟨HIF_TWIN w, 8, 21⟩

/-- HIF_RXSEL: R505, seal class OPER. -/
def HIF_RXSEL (r : Nat) : Nat := 0x0600400 + 0x4 * r
def HIF_RXSEL_RING (r : Nat) : Fld := ⟨HIF_RXSEL r, 0, 3⟩

/-- HIF_PWF_LOG: R505, seal class STATUS. -/
def HIF_PWF_LOG (i k : Nat) : Nat := 0x0601000 + 0x20 * i + 0x4 * k

/-- HIF_FN_CFG: R505, seal class OPER. -/
def HIF_FN_CFG (f : Nat) : Nat := 0x0604000 + 0x10 * f
def HIF_FN_CFG_MSIX_CNT (f : Nat) : Fld := ⟨HIF_FN_CFG f, 0, 12⟩
def HIF_FN_CFG_RINGS_EN (f : Nat) : Fld := ⟨HIF_FN_CFG f, 12, 1⟩
def HIF_FN_CFG_INFLIGHT (f : Nat) : Fld := ⟨HIF_FN_CFG f, 16, 15⟩

/-- HIF_FN_STAT: R505, seal class STATUS. -/
def HIF_FN_STAT (f : Nat) : Nat := 0x0604004 + 0x10 * f
def HIF_FN_STAT_NOW (f : Nat) : Fld := ⟨HIF_FN_STAT f, 0, 15⟩
def HIF_FN_STAT_ENABLED (f : Nat) : Fld := ⟨HIF_FN_STAT f, 15, 1⟩

/-- HIF_GRANT: R505, seal class OPER. -/
def HIF_GRANT (f w : Nat) : Nat := 0x0606000 + 0x20 * f + 0x4 * w
def HIF_GRANT_GROUPS (f w : Nat) : Fld := ⟨HIF_GRANT f w, 0, 32⟩

/-- HIF_RING_BASE_LO: R505, seal class OPER. -/
def HIF_RING_BASE_LO (f r : Nat) : Nat := pageBase f + 0x0 + 0x20 * r
def HIF_RING_BASE_LO_BASE_LO (f r : Nat) : Fld := ⟨HIF_RING_BASE_LO f r, 12, 20⟩

/-- HIF_RING_BASE_HI: R505, seal class OPER. -/
def HIF_RING_BASE_HI (f r : Nat) : Nat := pageBase f + 0x4 + 0x20 * r
def HIF_RING_BASE_HI_BASE_HI (f r : Nat) : Fld := ⟨HIF_RING_BASE_HI f r, 0, 32⟩

/-- HIF_RING_CFG: R505, seal class OPER. -/
def HIF_RING_CFG (f r : Nat) : Nat := pageBase f + 0x8 + 0x20 * r
def HIF_RING_CFG_EN (f r : Nat) : Fld := ⟨HIF_RING_CFG f r, 0, 1⟩
def HIF_RING_CFG_FLUSH (f r : Nat) : Fld := ⟨HIF_RING_CFG f r, 1, 1⟩
def HIF_RING_CFG_SIZE_LOG2 (f r : Nat) : Fld := ⟨HIF_RING_CFG f r, 2, 5⟩
def HIF_RING_CFG_VECTOR (f r : Nat) : Fld := ⟨HIF_RING_CFG f r, 8, 11⟩
def HIF_RING_CFG_MOD_US (f r : Nat) : Fld := ⟨HIF_RING_CFG f r, 20, 12⟩

/-- HIF_RING_PROD: R505, seal class OPER. -/
def HIF_RING_PROD (f r : Nat) : Nat := pageBase f + 0xC + 0x20 * r
def HIF_RING_PROD_INDEX (f r : Nat) : Fld := ⟨HIF_RING_PROD f r, 0, 16⟩

/-- HIF_RING_CONS: R505, seal class OPER. -/
def HIF_RING_CONS (f r : Nat) : Nat := pageBase f + 0x10 + 0x20 * r
def HIF_RING_CONS_INDEX (f r : Nat) : Fld := ⟨HIF_RING_CONS f r, 0, 16⟩

/-- HIF_RING_WB_LO: R505, seal class OPER. -/
def HIF_RING_WB_LO (f r : Nat) : Nat := pageBase f + 0x14 + 0x20 * r
def HIF_RING_WB_LO_WB_LO (f r : Nat) : Fld := ⟨HIF_RING_WB_LO f r, 2, 30⟩

/-- HIF_RING_WB_HI: R505, seal class OPER. -/
def HIF_RING_WB_HI (f r : Nat) : Nat := pageBase f + 0x18 + 0x20 * r
def HIF_RING_WB_HI_WB_HI (f r : Nat) : Fld := ⟨HIF_RING_WB_HI f r, 0, 32⟩

/-- HIF_RING_STAT: R505, seal class STATUS. -/
def HIF_RING_STAT (f r : Nat) : Nat := pageBase f + 0x1C + 0x20 * r
def HIF_RING_STAT_FLUSH_POINT (f r : Nat) : Fld := ⟨HIF_RING_STAT f r, 0, 16⟩
def HIF_RING_STAT_BUSY (f r : Nat) : Fld := ⟨HIF_RING_STAT f r, 16, 1⟩
def HIF_RING_STAT_STOPPED (f r : Nat) : Fld := ⟨HIF_RING_STAT f r, 17, 1⟩
def HIF_RING_STAT_ERR_CAUSE (f r : Nat) : Fld := ⟨HIF_RING_STAT f r, 18, 3⟩

/-- SCR_PIPE_CFG: R524, seal class SEALED. -/
def SCR_PIPE_CFG : Nat := 0x1800000
def SCR_PIPE_CFG_ACT_BASE : Fld := ⟨SCR_PIPE_CFG, 0, 18⟩
def SCR_PIPE_CFG_EN : Fld := ⟨SCR_PIPE_CFG, 18, 1⟩

/-- SCR_BGT_CFG: R524, seal class SEALED. -/
def SCR_BGT_CFG : Nat := 0x1800004
def SCR_BGT_CFG_RUN_US : Fld := ⟨SCR_BGT_CFG, 0, 16⟩
def SCR_BGT_CFG_STBY_US : Fld := ⟨SCR_BGT_CFG, 16, 16⟩

/-- SCR_WIN: R524, seal class OPER. -/
def SCR_WIN : Nat := 0x1800008
def SCR_WIN_SWIN : Fld := ⟨SCR_WIN, 0, 8⟩
def SCR_WIN_PWIN_PS : Fld := ⟨SCR_WIN, 8, 5⟩
def SCR_WIN_PWIN_OFF : Fld := ⟨SCR_WIN, 13, 2⟩

/-- SCR_ATOM_ADDR: R524, seal class OPER. -/
def SCR_ATOM_ADDR : Nat := 0x180000C
def SCR_ATOM_ADDR_WORD : Fld := ⟨SCR_ATOM_ADDR, 0, 16⟩
def SCR_ATOM_ADDR_PS : Fld := ⟨SCR_ATOM_ADDR, 16, 5⟩

/-- SCR_ATOM_OPND_LO: R524, seal class OPER. -/
def SCR_ATOM_OPND_LO : Nat := 0x1800010
def SCR_ATOM_OPND_LO_OPND : Fld := ⟨SCR_ATOM_OPND_LO, 0, 32⟩

/-- SCR_ATOM_OPND_HI: R524, seal class OPER. -/
def SCR_ATOM_OPND_HI : Nat := 0x1800014
def SCR_ATOM_OPND_HI_OPND : Fld := ⟨SCR_ATOM_OPND_HI, 0, 32⟩

/-- SCR_ATOM_CTL: R524, seal class OPER. -/
def SCR_ATOM_CTL : Nat := 0x1800018
def SCR_ATOM_CTL_GO : Fld := ⟨SCR_ATOM_CTL, 0, 1⟩
def SCR_ATOM_CTL_OP : Fld := ⟨SCR_ATOM_CTL, 1, 1⟩

/-- SCR_ATOM_RES_LO: R524, seal class STATUS. -/
def SCR_ATOM_RES_LO : Nat := 0x180001C
def SCR_ATOM_RES_LO_RES : Fld := ⟨SCR_ATOM_RES_LO, 0, 32⟩

/-- SCR_ATOM_RES_HI: R524, seal class STATUS. -/
def SCR_ATOM_RES_HI : Nat := 0x1800020
def SCR_ATOM_RES_HI_RES : Fld := ⟨SCR_ATOM_RES_HI, 0, 32⟩

/-- SCR_ATOM_STAT: R524, seal class STATUS. -/
def SCR_ATOM_STAT : Nat := 0x1800024
def SCR_ATOM_STAT_BUSY : Fld := ⟨SCR_ATOM_STAT, 0, 1⟩
def SCR_ATOM_STAT_STATUS : Fld := ⟨SCR_ATOM_STAT, 1, 2⟩

/-- SCR_ERR_STAT: R524, seal class STATUS. -/
def SCR_ERR_STAT : Nat := 0x1800028
def SCR_ERR_STAT_VALID : Fld := ⟨SCR_ERR_STAT, 0, 1⟩
def SCR_ERR_STAT_UNCORR : Fld := ⟨SCR_ERR_STAT, 1, 1⟩
def SCR_ERR_STAT_RMW : Fld := ⟨SCR_ERR_STAT, 2, 1⟩

/-- SCR_ERR_LOC_LO: R524, seal class STATUS. -/
def SCR_ERR_LOC_LO : Nat := 0x180002C

/-- SCR_ERR_LOC_HI: R524, seal class STATUS. -/
def SCR_ERR_LOC_HI : Nat := 0x1800030

/-- SCR_REPAIR_STAT: R524, seal class STATUS. -/
def SCR_REPAIR_STAT : Nat := 0x1800034
def SCR_REPAIR_STAT_USED : Fld := ⟨SCR_REPAIR_STAT, 0, 18⟩
def SCR_REPAIR_STAT_FULL : Fld := ⟨SCR_REPAIR_STAT, 18, 1⟩

/-- SCR_TEST_STAT: R524, seal class STATUS. -/
def SCR_TEST_STAT : Nat := 0x1800038
def SCR_TEST_STAT_MEM : Fld := ⟨SCR_TEST_STAT, 0, 5⟩
def SCR_TEST_STAT_RUN : Fld := ⟨SCR_TEST_STAT, 5, 1⟩
def SCR_TEST_STAT_REGION : Fld := ⟨SCR_TEST_STAT, 16, 14⟩

/-- SCR_CNT: R524, seal class STATUS. -/
def SCR_CNT (k : Nat) : Nat := 0x1800040 + 0x4 * k
def SCR_CNT_COUNT (k : Nat) : Fld := ⟨SCR_CNT k, 0, 31⟩
def SCR_CNT_OVF (k : Nat) : Fld := ⟨SCR_CNT k, 31, 1⟩

/-- SCR_OP_CFG: R524, seal class SEALED. -/
def SCR_OP_CFG (k : Nat) : Nat := 0x1801000 + 0x10 * k
def SCR_OP_CFG_VALID (k : Nat) : Fld := ⟨SCR_OP_CFG k, 0, 1⟩
def SCR_OP_CFG_OP (k : Nat) : Fld := ⟨SCR_OP_CFG k, 1, 2⟩
def SCR_OP_CFG_TARGET (k : Nat) : Fld := ⟨SCR_OP_CFG k, 3, 1⟩
def SCR_OP_CFG_INDEX_SEL (k : Nat) : Fld := ⟨SCR_OP_CFG k, 4, 2⟩
def SCR_OP_CFG_SPAN_LOG2 (k : Nat) : Fld := ⟨SCR_OP_CFG k, 6, 5⟩
def SCR_OP_CFG_OPERAND (k : Nat) : Fld := ⟨SCR_OP_CFG k, 11, 2⟩

/-- SCR_OP_BASE: R524, seal class SEALED. -/
def SCR_OP_BASE (k : Nat) : Nat := 0x1801004 + 0x10 * k
def SCR_OP_BASE_BASE (k : Nat) : Fld := ⟨SCR_OP_BASE k, 0, 23⟩

/-- SCR_OP_CONST: R524, seal class SEALED. -/
def SCR_OP_CONST (k : Nat) : Nat := 0x1801008 + 0x10 * k
def SCR_OP_CONST_CONST (k : Nat) : Fld := ⟨SCR_OP_CONST k, 0, 32⟩

/-- FLT_CFG: R542, seal class SEALED. -/
def FLT_CFG : Nat := 0x0400000
def FLT_CFG_FIRST_MIN_SEV : Fld := ⟨FLT_CFG, 0, 3⟩
def FLT_CFG_NVM_MIN_SEV : Fld := ⟨FLT_CFG, 4, 3⟩
def FLT_CFG_GAL_EN : Fld := ⟨FLT_CFG, 7, 1⟩
def FLT_CFG_REC_HOLD_US : Fld := ⟨FLT_CFG, 16, 16⟩

/-- FLT_STAT: R542, seal class STATUS. -/
def FLT_STAT : Nat := 0x0400004
def FLT_STAT_MAX_SEV : Fld := ⟨FLT_STAT, 0, 3⟩
def FLT_STAT_FAULT_LOW : Fld := ⟨FLT_STAT, 3, 1⟩
def FLT_STAT_HOLD_OUT : Fld := ⟨FLT_STAT, 4, 1⟩

/-- FLT_ISO_LO: R542, seal class STATUS. -/
def FLT_ISO_LO : Nat := 0x0400008
def FLT_ISO_LO_SLICES_LO : Fld := ⟨FLT_ISO_LO, 0, 32⟩

/-- FLT_ISO_HI: R542, seal class STATUS. -/
def FLT_ISO_HI : Nat := 0x040000C
def FLT_ISO_HI_SLICES_HI : Fld := ⟨FLT_ISO_HI, 0, 8⟩

/-- FLT_RING_STAT: R542, seal class STATUS. -/
def FLT_RING_STAT : Nat := 0x0400010
def FLT_RING_STAT_WR_IDX : Fld := ⟨FLT_RING_STAT, 0, 10⟩
def FLT_RING_STAT_FILL : Fld := ⟨FLT_RING_STAT, 16, 10⟩

/-- FLT_RING_RD: R542, seal class OPER. -/
def FLT_RING_RD : Nat := 0x0400014
def FLT_RING_RD_RD_IDX : Fld := ⟨FLT_RING_RD, 0, 10⟩

/-- FLT_FIRST_CTL: R542, seal class OPER. -/
def FLT_FIRST_CTL : Nat := 0x0400018
def FLT_FIRST_CTL_CLEAR : Fld := ⟨FLT_FIRST_CTL, 0, 1⟩

/-- FLT_FIRST_STAT: R542, seal class STATUS. -/
def FLT_FIRST_STAT : Nat := 0x040001C
def FLT_FIRST_STAT_VALID : Fld := ⟨FLT_FIRST_STAT, 0, 1⟩

/-- FLT_FIRST: R542, seal class STATUS. -/
def FLT_FIRST (k : Nat) : Nat := 0x0400020 + 0x4 * k

/-- FLT_NVLOG_IDX: R542, seal class OPER. -/
def FLT_NVLOG_IDX : Nat := 0x0400040
def FLT_NVLOG_IDX_INDEX : Fld := ⟨FLT_NVLOG_IDX, 0, 13⟩

/-- FLT_NVLOG_STAT: R542, seal class STATUS. -/
def FLT_NVLOG_STAT : Nat := 0x0400044
def FLT_NVLOG_STAT_HEAD : Fld := ⟨FLT_NVLOG_STAT, 0, 13⟩
def FLT_NVLOG_STAT_WRAPPED : Fld := ⟨FLT_NVLOG_STAT, 13, 1⟩
def FLT_NVLOG_STAT_VALID : Fld := ⟨FLT_NVLOG_STAT, 14, 1⟩

/-- FLT_NVLOG_DATA: R542, seal class STATUS. -/
def FLT_NVLOG_DATA (k : Nat) : Nat := 0x0400060 + 0x4 * k

/-- FLT_CNT: R542, seal class STATUS. -/
def FLT_CNT (k : Nat) : Nat := 0x0400080 + 0x4 * k
def FLT_CNT_COUNT (k : Nat) : Fld := ⟨FLT_CNT k, 0, 31⟩
def FLT_CNT_OVF (k : Nat) : Fld := ⟨FLT_CNT k, 31, 1⟩

/-- FLT_SUM: R542, seal class STATUS. -/
def FLT_SUM (w : Nat) : Nat := 0x0400100 + 0x4 * w

/-- FLT_SEV: R542, seal class SEALED. -/
def FLT_SEV (k : Nat) : Nat := 0x0401000 + 0x4 * k

/-- FLT_SRC_STAT: R542, seal class STATUS. -/
def FLT_SRC_STAT (s : Nat) : Nat := 0x0402000 + 0x4 * s
def FLT_SRC_STAT_CAUSE (s : Nat) : Fld := ⟨FLT_SRC_STAT s, 0, 1⟩
def FLT_SRC_STAT_STATUS (s : Nat) : Fld := ⟨FLT_SRC_STAT s, 1, 1⟩
def FLT_SRC_STAT_ISOLATING (s : Nat) : Fld := ⟨FLT_SRC_STAT s, 2, 1⟩
def FLT_SRC_STAT_INJECTED (s : Nat) : Fld := ⟨FLT_SRC_STAT s, 3, 1⟩

/-- FLT_SRC_CNT: R542, seal class STATUS. -/
def FLT_SRC_CNT (s : Nat) : Nat := 0x0404000 + 0x4 * s
def FLT_SRC_CNT_COUNT (s : Nat) : Fld := ⟨FLT_SRC_CNT s, 0, 16⟩
def FLT_SRC_CNT_SAT (s : Nat) : Fld := ⟨FLT_SRC_CNT s, 16, 1⟩

/-- FLT_REC: R542, seal class STATUS. -/
def FLT_REC (i k : Nat) : Nat := 0x0408000 + 0x20 * i + 0x4 * k

/-- CNT_STAT: R558, seal class STATUS. -/
def CNT_STAT : Nat := 0x0500000
def CNT_STAT_RD_BUSY : Fld := ⟨CNT_STAT, 0, 1⟩
def CNT_STAT_DUMP_RUN : Fld := ⟨CNT_STAT, 1, 1⟩
def CNT_STAT_HELD : Fld := ⟨CNT_STAT, 8, 6⟩

/-- CNT_RD_CTL: R558, seal class OPER. -/
def CNT_RD_CTL : Nat := 0x0500004
def CNT_RD_CTL_IDX : Fld := ⟨CNT_RD_CTL, 0, 21⟩
def CNT_RD_CTL_CLEAR : Fld := ⟨CNT_RD_CTL, 21, 1⟩
def CNT_RD_CTL_GO : Fld := ⟨CNT_RD_CTL, 22, 1⟩

/-- CNT_RD_DATA: R558, seal class STATUS. -/
def CNT_RD_DATA (k : Nat) : Nat := 0x0500008 + 0x4 * k

/-- CNT_CNT: R558, seal class STATUS. -/
def CNT_CNT (k : Nat) : Nat := 0x0500020 + 0x4 * k
def CNT_CNT_COUNT (k : Nat) : Fld := ⟨CNT_CNT k, 0, 31⟩
def CNT_CNT_OVF (k : Nat) : Fld := ⟨CNT_CNT k, 31, 1⟩

/-- CNT_DGRP_CFG: R558, seal class OPER. -/
def CNT_DGRP_CFG (d : Nat) : Nat := 0x0500100 + 0x10 * d
def CNT_DGRP_CFG_EN (d : Nat) : Fld := ⟨CNT_DGRP_CFG d, 0, 1⟩
def CNT_DGRP_CFG_KIND (d : Nat) : Fld := ⟨CNT_DGRP_CFG d, 1, 1⟩
def CNT_DGRP_CFG_RING (d : Nat) : Fld := ⟨CNT_DGRP_CFG d, 2, 3⟩
def CNT_DGRP_CFG_PERIOD_MS (d : Nat) : Fld := ⟨CNT_DGRP_CFG d, 8, 14⟩

/-- CNT_DGRP_FIRST: R558, seal class OPER. -/
def CNT_DGRP_FIRST (d : Nat) : Nat := 0x0500104 + 0x10 * d
def CNT_DGRP_FIRST_FIRST (d : Nat) : Fld := ⟨CNT_DGRP_FIRST d, 0, 21⟩

/-- CNT_DGRP_COUNT: R558, seal class OPER. -/
def CNT_DGRP_COUNT (d : Nat) : Nat := 0x0500108 + 0x10 * d
def CNT_DGRP_COUNT_COUNT (d : Nat) : Fld := ⟨CNT_DGRP_COUNT d, 0, 22⟩

/-- CNT_DGRP_STAT: R558, seal class STATUS. -/
def CNT_DGRP_STAT (d : Nat) : Nat := 0x050010C + 0x10 * d
def CNT_DGRP_STAT_DUMP_SEQ (d : Nat) : Fld := ⟨CNT_DGRP_STAT d, 0, 32⟩

/-- CNT_TEN_BASE: R558, seal class OPER. -/
def CNT_TEN_BASE (t : Nat) : Nat := 0x0501000 + 0x8 * t
def CNT_TEN_BASE_BASE (t : Nat) : Fld := ⟨CNT_TEN_BASE t, 0, 21⟩

/-- CNT_TEN_COUNT: R558, seal class OPER. -/
def CNT_TEN_COUNT (t : Nat) : Nat := 0x0501004 + 0x8 * t
def CNT_TEN_COUNT_COUNT (t : Nat) : Fld := ⟨CNT_TEN_COUNT t, 0, 22⟩

/-- CNT_PERF_TEN: R558, seal class OPER. -/
def CNT_PERF_TEN (j : Nat) : Nat := 0x0502000 + 0x4 * j
def CNT_PERF_TEN_TENANT (j : Nat) : Fld := ⟨CNT_PERF_TEN j, 0, 8⟩
def CNT_PERF_TEN_EN (j : Nat) : Fld := ⟨CNT_PERF_TEN j, 8, 1⟩

/-- CNT_PERF_LO: R558, seal class STATUS. -/
def CNT_PERF_LO (c : Nat) : Nat := 0x0510000 + 0x8 * c
def CNT_PERF_LO_VALUE_LO (c : Nat) : Fld := ⟨CNT_PERF_LO c, 0, 32⟩

/-- CNT_PERF_HI: R558, seal class STATUS. -/
def CNT_PERF_HI (c : Nat) : Nat := 0x0510004 + 0x8 * c
def CNT_PERF_HI_VALUE_HI (c : Nat) : Fld := ⟨CNT_PERF_HI c, 0, 16⟩
def CNT_PERF_HI_OVF (c : Nat) : Fld := ⟨CNT_PERF_HI c, 16, 1⟩

/-- PWR_SLICE_BOOT_LO: R571, seal class SEALED. -/
def PWR_SLICE_BOOT_LO : Nat := 0x0301000
def PWR_SLICE_BOOT_LO_BOOT_LO : Fld := ⟨PWR_SLICE_BOOT_LO, 0, 32⟩

/-- PWR_SLICE_BOOT_HI: R571, seal class SEALED. -/
def PWR_SLICE_BOOT_HI : Nat := 0x0301004
def PWR_SLICE_BOOT_HI_BOOT_HI : Fld := ⟨PWR_SLICE_BOOT_HI, 0, 8⟩

/-- PWR_DRAIN_CFG: R571, seal class OPER. -/
def PWR_DRAIN_CFG : Nat := 0x0301008
def PWR_DRAIN_CFG_LINE_FAB_US : Fld := ⟨PWR_DRAIN_CFG, 0, 16⟩
def PWR_DRAIN_CFG_DRAM_MS : Fld := ⟨PWR_DRAIN_CFG, 16, 16⟩

/-- PWR_SLICE_MASK_LO: R571, seal class OPER. -/
def PWR_SLICE_MASK_LO : Nat := 0x030100C
def PWR_SLICE_MASK_LO_MASK_LO : Fld := ⟨PWR_SLICE_MASK_LO, 0, 32⟩

/-- PWR_SLICE_MASK_HI: R571, seal class OPER. -/
def PWR_SLICE_MASK_HI : Nat := 0x0301010
def PWR_SLICE_MASK_HI_MASK_HI : Fld := ⟨PWR_SLICE_MASK_HI, 0, 8⟩

/-- PWR_SLICE_CMD: R571, seal class OPER. -/
def PWR_SLICE_CMD : Nat := 0x0301014
def PWR_SLICE_CMD_CMD : Fld := ⟨PWR_SLICE_CMD, 0, 2⟩

/-- PWR_SLICE_SUM_LO: R571, seal class STATUS. -/
def PWR_SLICE_SUM_LO : Nat := 0x0301018
def PWR_SLICE_SUM_LO_SUM_LO : Fld := ⟨PWR_SLICE_SUM_LO, 0, 32⟩

/-- PWR_SLICE_SUM_HI: R571, seal class STATUS. -/
def PWR_SLICE_SUM_HI : Nat := 0x030101C
def PWR_SLICE_SUM_HI_SUM_HI : Fld := ⟨PWR_SLICE_SUM_HI, 0, 8⟩

/-- PWR_MAINT_STAT: R571, seal class STATUS. -/
def PWR_MAINT_STAT : Nat := 0x0301020
def PWR_MAINT_STAT_RUN : Fld := ⟨PWR_MAINT_STAT, 0, 6⟩
def PWR_MAINT_STAT_WAIT : Fld := ⟨PWR_MAINT_STAT, 8, 6⟩
def PWR_MAINT_STAT_LATE_NOW : Fld := ⟨PWR_MAINT_STAT, 16, 6⟩
def PWR_MAINT_STAT_HELD : Fld := ⟨PWR_MAINT_STAT, 22, 1⟩

/-- PWR_SLICE_STAT: R571, seal class STATUS. -/
def PWR_SLICE_STAT (s : Nat) : Nat := 0x0301100 + 0x4 * s
def PWR_SLICE_STAT_STATE (s : Nat) : Fld := ⟨PWR_SLICE_STAT s, 0, 3⟩
def PWR_SLICE_STAT_RESULT (s : Nat) : Fld := ⟨PWR_SLICE_STAT s, 4, 4⟩
def PWR_SLICE_STAT_DRAIN_US (s : Nat) : Fld := ⟨PWR_SLICE_STAT s, 16, 16⟩

/-- PWR_SLICE_DROP: R571, seal class STATUS. -/
def PWR_SLICE_DROP (s : Nat) : Nat := 0x0301200 + 0x4 * s
def PWR_SLICE_DROP_COUNT (s : Nat) : Fld := ⟨PWR_SLICE_DROP s, 0, 31⟩
def PWR_SLICE_DROP_OVF (s : Nat) : Fld := ⟨PWR_SLICE_DROP s, 31, 1⟩

/-- PWR_MAINT_CNT: R571, seal class STATUS. -/
def PWR_MAINT_CNT (k : Nat) : Nat := 0x0301300 + 0x4 * k
def PWR_MAINT_CNT_COUNT (k : Nat) : Fld := ⟨PWR_MAINT_CNT k, 0, 31⟩
def PWR_MAINT_CNT_OVF (k : Nat) : Fld := ⟨PWR_MAINT_CNT k, 31, 1⟩

/-- TST_STAT: R588, seal class STATUS. -/
def TST_STAT : Nat := 0x1B00000
def TST_STAT_INSTR : Fld := ⟨TST_STAT, 0, 8⟩
def TST_STAT_PIN_DRIVE : Fld := ⟨TST_STAT, 8, 1⟩
def TST_STAT_FTEST_EN : Fld := ⟨TST_STAT, 9, 1⟩
def TST_STAT_INJ_ON : Fld := ⟨TST_STAT, 10, 1⟩

/-- TST_PROBE_CTL: R588, seal class OPER. -/
def TST_PROBE_CTL : Nat := 0x1B00004
def TST_PROBE_CTL_GO : Fld := ⟨TST_PROBE_CTL, 0, 1⟩
def TST_PROBE_CTL_PIPE : Fld := ⟨TST_PROBE_CTL, 1, 5⟩

/-- TST_INJ_CTL: R588, seal class OPER. -/
def TST_INJ_CTL : Nat := 0x1B00008
def TST_INJ_CTL_SOURCE : Fld := ⟨TST_INJ_CTL, 0, 11⟩
def TST_INJ_CTL_EN : Fld := ⟨TST_INJ_CTL, 16, 1⟩

/-- TST_MEMINJ_CTL: R588, seal class OPER. -/
def TST_MEMINJ_CTL : Nat := 0x1B0000C
def TST_MEMINJ_CTL_MASK : Fld := ⟨TST_MEMINJ_CTL, 0, 8⟩
def TST_MEMINJ_CTL_ARM : Fld := ⟨TST_MEMINJ_CTL, 8, 1⟩

/-- TST_MEMINJ_LOC_LO: R588, seal class OPER. -/
def TST_MEMINJ_LOC_LO : Nat := 0x1B00010
def TST_MEMINJ_LOC_LO_LOC_LO : Fld := ⟨TST_MEMINJ_LOC_LO, 0, 32⟩

/-- TST_MEMINJ_LOC_HI: R588, seal class OPER. -/
def TST_MEMINJ_LOC_HI : Nat := 0x1B00014
def TST_MEMINJ_LOC_HI_LOC_HI : Fld := ⟨TST_MEMINJ_LOC_HI, 0, 16⟩

/-- TST_CNT: R588, seal class STATUS. -/
def TST_CNT (k : Nat) : Nat := 0x1B00040 + 0x4 * k
def TST_CNT_COUNT (k : Nat) : Fld := ⟨TST_CNT k, 0, 31⟩
def TST_CNT_OVF (k : Nat) : Fld := ⟨TST_CNT k, 31, 1⟩

/-- TST_LANE_CFG: R588, seal class OPER. -/
def TST_LANE_CFG (x : Nat) : Nat := 0x1B01000 + 0x8 * x
def TST_LANE_CFG_GEN_EN (x : Nat) : Fld := ⟨TST_LANE_CFG x, 0, 1⟩
def TST_LANE_CFG_GEN_PAT (x : Nat) : Fld := ⟨TST_LANE_CFG x, 1, 2⟩
def TST_LANE_CFG_CHK_EN (x : Nat) : Fld := ⟨TST_LANE_CFG x, 3, 1⟩
def TST_LANE_CFG_CHK_PAT (x : Nat) : Fld := ⟨TST_LANE_CFG x, 4, 2⟩
def TST_LANE_CFG_LOOP (x : Nat) : Fld := ⟨TST_LANE_CFG x, 6, 2⟩

/-- TST_LANE_STAT: R588, seal class STATUS. -/
def TST_LANE_STAT (x : Nat) : Nat := 0x1B01004 + 0x8 * x
def TST_LANE_STAT_LOCK (x : Nat) : Fld := ⟨TST_LANE_STAT x, 0, 1⟩
def TST_LANE_STAT_LOCK_LOST (x : Nat) : Fld := ⟨TST_LANE_STAT x, 1, 1⟩
def TST_LANE_STAT_ACTING (x : Nat) : Fld := ⟨TST_LANE_STAT x, 2, 1⟩

/-- TST_LANE_ERR: R588, seal class STATUS. -/
def TST_LANE_ERR (x : Nat) : Nat := 0x1B03000 + 0x4 * x
def TST_LANE_ERR_COUNT (x : Nat) : Fld := ⟨TST_LANE_ERR x, 0, 31⟩
def TST_LANE_ERR_OVF (x : Nat) : Fld := ⟨TST_LANE_ERR x, 31, 1⟩

/-- DEV_ID: R594, seal class STATUS. -/
def DEV_ID : Nat := 0x0000000
def DEV_ID_PART : Fld := ⟨DEV_ID, 0, 16⟩
def DEV_ID_REV : Fld := ⟨DEV_ID, 16, 4⟩
def DEV_ID_STEP : Fld := ⟨DEV_ID, 20, 4⟩

/-- DEV_SERIAL_LO: R594, seal class STATUS. -/
def DEV_SERIAL_LO : Nat := 0x0000004
def DEV_SERIAL_LO_SERIAL_LO : Fld := ⟨DEV_SERIAL_LO, 0, 32⟩

/-- DEV_SERIAL_HI: R594, seal class STATUS. -/
def DEV_SERIAL_HI : Nat := 0x0000008
def DEV_SERIAL_HI_SERIAL_HI : Fld := ⟨DEV_SERIAL_HI, 0, 32⟩

/-- DEV_STATE: R594, seal class STATUS. -/
def DEV_STATE : Nat := 0x000000C
def DEV_STATE_STATE : Fld := ⟨DEV_STATE, 0, 4⟩
def DEV_STATE_HOLD_REASON : Fld := ⟨DEV_STATE, 4, 8⟩
def DEV_STATE_RESET_CAUSE : Fld := ⟨DEV_STATE, 12, 3⟩
def DEV_STATE_SEALED : Fld := ⟨DEV_STATE, 15, 1⟩
def DEV_STATE_TM_SAMPLE : Fld := ⟨DEV_STATE, 16, 1⟩
def DEV_STATE_TM_EFFECT : Fld := ⟨DEV_STATE, 17, 1⟩

/-- DEV_STATE_TIME: R594, seal class STATUS. -/
def DEV_STATE_TIME : Nat := 0x0000010
def DEV_STATE_TIME_MS : Fld := ⟨DEV_STATE_TIME, 0, 32⟩

/-- DEV_CTL: R594, seal class OPER. -/
def DEV_CTL : Nat := 0x0000014
def DEV_CTL_RESET : Fld := ⟨DEV_CTL, 0, 1⟩
def DEV_CTL_CODE : Fld := ⟨DEV_CTL, 16, 16⟩

/-- DEV_TICK_LO: R594, seal class STATUS. -/
def DEV_TICK_LO : Nat := 0x0000018
def DEV_TICK_LO_TICK_LO : Fld := ⟨DEV_TICK_LO, 0, 32⟩

/-- DEV_TICK_HI: R594, seal class STATUS. -/
def DEV_TICK_HI : Nat := 0x000001C
def DEV_TICK_HI_TICK_HI : Fld := ⟨DEV_TICK_HI, 0, 32⟩

/-- DEV_HOST_SCRATCH: R594, seal class OPER. -/
def DEV_HOST_SCRATCH (k : Nat) : Nat := 0x0000040 + 0x4 * k
def DEV_HOST_SCRATCH_DATA (k : Nat) : Fld := ⟨DEV_HOST_SCRATCH k, 0, 32⟩

/-- DEV_FW_VER: R594, seal class STATUS. -/
def DEV_FW_VER (k : Nat) : Nat := 0x0000060 + 0x4 * k
def DEV_FW_VER_BYTES (k : Nat) : Fld := ⟨DEV_FW_VER k, 0, 32⟩

/-- DEV_CFG_VER: R594, seal class STATUS. -/
def DEV_CFG_VER (k : Nat) : Nat := 0x0000070 + 0x4 * k
def DEV_CFG_VER_BYTES (k : Nat) : Fld := ⟨DEV_CFG_VER k, 0, 32⟩

/-- DEV_CFG_LABEL: R594, seal class STATUS. -/
def DEV_CFG_LABEL (k : Nat) : Nat := 0x0000080 + 0x4 * k
def DEV_CFG_LABEL_BYTES (k : Nat) : Fld := ⟨DEV_CFG_LABEL k, 0, 32⟩

/-- DEV_CNT: R594, seal class STATUS. -/
def DEV_CNT (k : Nat) : Nat := 0x00000C0 + 0x4 * k
def DEV_CNT_COUNT (k : Nat) : Fld := ⟨DEV_CNT k, 0, 31⟩
def DEV_CNT_OVF (k : Nat) : Fld := ⟨DEV_CNT k, 31, 1⟩

/-- HIF_DATA_LO: R505, seal class OPER. -/
def HIF_DATA_LO (f k : Nat) : Nat := pageBase f + 0x600 + 0x10 * k
def HIF_DATA_LO_BASE_LO (f k : Nat) : Fld := ⟨HIF_DATA_LO f k, 12, 20⟩

/-- HIF_DATA_HI: R505, seal class OPER. -/
def HIF_DATA_HI (f k : Nat) : Nat := pageBase f + 0x604 + 0x10 * k
def HIF_DATA_HI_BASE_HI (f k : Nat) : Fld := ⟨HIF_DATA_HI f k, 0, 32⟩

/-- HIF_DATA_SIZE: R505, seal class OPER. -/
def HIF_DATA_SIZE (f k : Nat) : Nat := pageBase f + 0x608 + 0x10 * k
def HIF_DATA_SIZE_SIZE (f k : Nat) : Fld := ⟨HIF_DATA_SIZE f k, 12, 19⟩

/-- HIF_VF_ID: R505, seal class STATUS. -/
def HIF_VF_ID (f : Nat) : Nat := 0x1000F000 + 0x10000 * f
def HIF_VF_ID_FUNC (f : Nat) : Fld := ⟨HIF_VF_ID f, 0, 8⟩
def HIF_VF_ID_RINGS_EN (f : Nat) : Fld := ⟨HIF_VF_ID f, 8, 1⟩

/-- HIF_VF_PWF: R505, seal class STATUS. -/
def HIF_VF_PWF (f : Nat) : Nat := 0x1000F004 + 0x10000 * f
def HIF_VF_PWF_COUNT (f : Nat) : Fld := ⟨HIF_VF_PWF f, 0, 16⟩
def HIF_VF_PWF_LAST_CAUSE (f : Nat) : Fld := ⟨HIF_VF_PWF f, 16, 4⟩
def HIF_VF_PWF_LAST_ADDR (f : Nat) : Fld := ⟨HIF_VF_PWF f, 20, 12⟩

end Reg

end Sys2Proof.Machine
end

