-- ==== Sys2Proof/Machine/RegTable.lean ====
section
/-! DEFINITION. The register map as the spec's register summaries and field tables give it (R10, R11, R589, R599): one row per register, with its seal class, its reset value and the access of its bits. -/

namespace Sys2Proof.Machine

/-- The seal classes of R11 that a register has. -/
inductive SealClass where
  | sealed | oper | status
  deriving DecidableEq, Repr

/-- One row of the register map: the offset of the first register, the (stride, count) of each index from the widest
stride down, the seal class, the reset value, the bits of each access of R10 (RW, W1C, RC, WO, RWS), and whether a
write of its RW bits is a command of its own in the table of operations. -/
structure RegRow where
  base : Nat
  dims : List (Nat × Nat)
  cls : SealClass
  reset : Nat
  rw : Nat
  w1c : Nat
  rc : Nat
  wo : Nat
  rws : Nat
  own : Bool
  deriving DecidableEq, Repr

/-- Registers of block LIN. -/
def regRowsLIN : List RegRow := [
  ⟨0x0800000, [(0x10000, 20)], .sealed, 0x00000004, 0x00FFFF07, 0x00000000, 0x00000000, 0x00000000, 0x00000000, false⟩,  -- LIN_GRP_CFG
  ⟨0x0800004, [(0x10000, 20)], .status, 0x00000000, 0x00000000, 0x00000000, 0x00000000, 0x00000000, 0x00000000, false⟩,  -- LIN_GRP_STAT
  ⟨0x0800008, [(0x10000, 20)], .status, 0x00000000, 0x00000000, 0x00000000, 0xFFFFFFFF, 0x00000000, 0x00000000, false⟩,  -- LIN_GRP_ABSENT_CNT
  ⟨0x0801000, [(0x10000, 20), (0x400, 8)], .sealed, 0x000105EE, 0x0001FFFF, 0x00000000, 0x00000000, 0x00000000, 0x00000000, false⟩,  -- LIN_PORT_CFG
  ⟨0x0801004, [(0x10000, 20), (0x400, 8)], .sealed, 0x7FFFFFFF, 0xFFFFFFFF, 0x00000000, 0x00000000, 0x00000000, 0x00000000, false⟩,  -- LIN_FC_CFG
  ⟨0x0801008, [(0x10000, 20), (0x400, 8)], .sealed, 0x00640064, 0x3FFF3FFF, 0x00000000, 0x00000000, 0x00000000, 0x00000000, false⟩,  -- LIN_PFC_WD_CFG
  ⟨0x080100C, [(0x10000, 20), (0x400, 8)], .sealed, 0x0000FFFF, 0x0000FFFF, 0x00000000, 0x00000000, 0x00000000, 0x00000000, false⟩,  -- LIN_PAUSE_QMAX
  ⟨0x0801010, [(0x10000, 20), (0x400, 8)], .oper, 0x00000000, 0x00000003, 0x00000000, 0x00000000, 0x00000010, 0x00000000, true⟩,  -- LIN_PORT_CTL
  ⟨0x0801014, [(0x10000, 20), (0x400, 8)], .oper, 0x00000000, 0xFFFFFFFF, 0x00000000, 0x00000000, 0x00000000, 0x00000000, false⟩,  -- LIN_PORT_MAC_LO
  ⟨0x0801018, [(0x10000, 20), (0x400, 8)], .oper, 0x00000000, 0x0000FFFF, 0x00000000, 0x00000000, 0x00000000, 0x00000000, false⟩,  -- LIN_PORT_MAC_HI
  ⟨0x080101C, [(0x10000, 20), (0x400, 8)], .oper, 0x00000000, 0xFFFFFFFF, 0x00000000, 0x00000000, 0x00000000, 0x00000000, false⟩,  -- LIN_PTP_ADJ
  ⟨0x0801020, [(0x10000, 20), (0x400, 8)], .status, 0x00000000, 0x00000000, 0x01000000, 0x00000000, 0x00000000, 0x00000000, false⟩,  -- LIN_PORT_STAT
  ⟨0x0801024, [(0x10000, 20), (0x400, 8)], .status, 0x00000000, 0x00000000, 0x0000FF00, 0x00000000, 0x00000000, 0x00000000, false⟩,  -- LIN_PFC_WD_STAT
  ⟨0x0801040, [(0x10000, 20), (0x400, 8), (0x4, 16)], .status, 0x00000000, 0x00000000, 0x00000000, 0xFFFFFFFF, 0x00000000, 0x00000000, false⟩,  -- LIN_EVT_CNT
  ⟨0x0940000, [(0x4, 2)], .oper, 0x0002A800, 0x01FFFFFF, 0x00000000, 0x00000000, 0x00000000, 0x00000000, false⟩,  -- LIN_SYNCE_CFG
  ⟨0x0940008, [], .status, 0x00000003, 0x00000000, 0x00000000, 0x00000000, 0x00000000, 0x00000000, false⟩  -- LIN_SYNCE_STAT
]

/-- Registers of block PRS. -/
def regRowsPRS : List RegRow := [
  ⟨0x0A00000, [(0x10, 16)], .sealed, 0x0000EFFF, 0x0000FFFF, 0x00000000, 0x00000000, 0x00000000, 0x00000000, false⟩,  -- PRS_PROF_HDR
  ⟨0x0A00004, [(0x10, 16)], .sealed, 0x17C112B5, 0xFFFFFFFF, 0x00000000, 0x00000000, 0x00000000, 0x00000000, false⟩,  -- PRS_PROF_UDP
  ⟨0x0A00008, [(0x10, 16)], .sealed, 0x00000005, 0x00000007, 0x00000000, 0x00000000, 0x00000000, 0x00000000, false⟩,  -- PRS_PROF_OPT
  ⟨0x0A00100, [], .sealed, 0x0000001E, 0x000000FF, 0x00000000, 0x00000000, 0x00000000, 0x00000000, false⟩,  -- PRS_FRAG_CFG
  ⟨0x0A01000, [(0x4, 162)], .sealed, 0x00000050, 0x000000FF, 0x00000000, 0x00000000, 0x00000000, 0x00000000, false⟩,  -- PRS_PORT_CFG
  ⟨0x0A01400, [(0x4, 162)], .sealed, 0x00000400, 0x0000FFFF, 0x00000000, 0x00000000, 0x00000000, 0x00000000, false⟩,  -- PRS_TRAP_LIM
  ⟨0x0A02000, [(0x10, 162), (0x4, 3)], .status, 0x00000000, 0x00000000, 0x00000000, 0xFFFFFFFF, 0x00000000, 0x00000000, false⟩,  -- PRS_PORT_CNT
  ⟨0x0A10000, [(0x1000, 20)], .oper, 0x00000000, 0x00000000, 0x00000000, 0x00000000, 0x00000001, 0x00000000, false⟩,  -- PRS_FRAG_CTL
  ⟨0x0A10004, [(0x1000, 20)], .status, 0x00000000, 0x00000000, 0x00000000, 0x1FFF0000, 0x00000000, 0x00000000, false⟩,  -- PRS_FRAG_STAT
  ⟨0x0A10008, [(0x1000, 20)], .status, 0x00000000, 0x00000000, 0x00000000, 0x00000000, 0x00000000, 0x00000000, false⟩,  -- PRS_LAST_FAIL
  ⟨0x0A10040, [(0x1000, 20), (0x4, 8)], .status, 0x00000000, 0x00000000, 0x00000000, 0xFFFFFFFF, 0x00000000, 0x00000000, false⟩,  -- PRS_FRAG_CNT
  ⟨0x0A10100, [(0x1000, 20), (0x4, 64)], .status, 0x00000000, 0x00000000, 0x00000000, 0xFFFFFFFF, 0x00000000, 0x00000000, false⟩  -- PRS_CODE_CNT
]

/-- Registers of block SIG. -/
def regRowsSIG : List RegRow := [
  ⟨0x0B00000, [(0x4, 161)], .sealed, 0x00000000, 0x00000007, 0x00000000, 0x00000000, 0x00000000, 0x00000000, false⟩,  -- SIG_PORT_CFG
  ⟨0x0B00400, [], .oper, 0x00000000, 0x00000000, 0x00000000, 0x00000000, 0x00000001, 0x00000000, false⟩,  -- SIG_STORE_CTL
  ⟨0x0B00404, [], .status, 0x00000000, 0x00000000, 0x00000010, 0x00000000, 0x00000000, 0x00000000, false⟩,  -- SIG_STORE_STAT
  ⟨0x0B00408, [], .status, 0x00000000, 0x00000000, 0x00000000, 0x00000000, 0x00000000, 0x00000000, false⟩,  -- SIG_STORE_CNT
  ⟨0x0B0040C, [], .status, 0x00000000, 0x00000000, 0x00000000, 0x00000000, 0x00000000, 0x00000000, false⟩,  -- SIG_LOST_ID
  ⟨0x0B00500, [(0x4, 64)], .status, 0x00000000, 0x00000000, 0x00000000, 0xFFFFFFFF, 0x00000000, 0x00000000, false⟩,  -- SIG_CLASS_CNT
  ⟨0x0B10000, [(0x100, 20)], .status, 0x00000000, 0x00000000, 0x00000000, 0x00007FFF, 0x00000000, 0x00000000, false⟩,  -- SIG_ENG_STAT
  ⟨0x0B10040, [(0x100, 20), (0x4, 6)], .status, 0x00000000, 0x00000000, 0x00000000, 0xFFFFFFFF, 0x00000000, 0x00000000, false⟩  -- SIG_ENG_CNT
]

/-- Registers of block FTB. -/
def regRowsFTB : List RegRow := [
  ⟨0x0C00000, [], .sealed, 0x6B2E1D07, 0xFFFFFFFF, 0x00000000, 0x00000000, 0x00000000, 0x00000000, false⟩,  -- FTB_HASH_SEED0
  ⟨0x0C00004, [], .sealed, 0x31F4A9C5, 0xFFFFFFFF, 0x00000000, 0x00000000, 0x00000000, 0x00000000, false⟩,  -- FTB_HASH_SEED1
  ⟨0x0C00008, [], .sealed, 0x00000000, 0xFFFFFFFF, 0x00000000, 0x00000000, 0x00000000, 0x00000000, false⟩,  -- FTB_ECMP_SEED
  ⟨0x0C0000C, [], .sealed, 0x000000DF, 0x000001FF, 0x00000000, 0x00000000, 0x00000000, 0x00000000, false⟩,  -- FTB_ECMP_FIELDS
  ⟨0x0C00010, [], .status, 0x00000000, 0x00000000, 0x00000000, 0x00000000, 0x00000000, 0x00000000, false⟩,  -- FTB_LPM_STAT
  ⟨0x0C00014, [], .status, 0x00000000, 0x00000000, 0x00000000, 0x00000000, 0x00000000, 0x00000000, false⟩,  -- FTB_HOST_STAT
  ⟨0x0C00018, [], .status, 0x00000000, 0x00000000, 0x00000000, 0x00000000, 0x00000000, 0x00000000, false⟩,  -- FTB_FLUSH_STAT
  ⟨0x0C0001C, [], .status, 0x00000000, 0x00000000, 0x00000000, 0x00000000, 0x00000000, 0x00000000, false⟩,  -- FTB_ECC_STAT
  ⟨0x0C00020, [], .status, 0x00000000, 0x00000000, 0x00000000, 0x00000000, 0x00000000, 0x00000000, false⟩,  -- FTB_ECC_LOC_LO
  ⟨0x0C00024, [], .status, 0x00000000, 0x00000000, 0x00000000, 0x00000000, 0x00000000, 0x00000000, false⟩,  -- FTB_ECC_LOC_HI
  ⟨0x0C00040, [(0x4, 9)], .status, 0x00000000, 0x00000000, 0x00000000, 0xFFFFFFFF, 0x00000000, 0x00000000, false⟩,  -- FTB_MISS_CNT
  ⟨0x0C01000, [(0x8, 256)], .oper, 0x0000012C, 0x0000FFFF, 0x00000000, 0x00000000, 0x00000000, 0x00000000, false⟩,  -- FTB_TENANT_AGE
  ⟨0x0C01004, [(0x8, 256)], .oper, 0x00040000, 0x0007FFFF, 0x00000000, 0x00000000, 0x00000000, 0x00000000, false⟩,  -- FTB_TENANT_LIMIT
  ⟨0x0C10000, [(0x100, 20)], .status, 0x00000000, 0x00000000, 0x00000000, 0x00000000, 0x00000000, 0x00000000, false⟩,  -- FTB_LEARN_STAT
  ⟨0x0C10040, [(0x100, 20), (0x4, 8)], .status, 0x00000000, 0x00000000, 0x00000000, 0xFFFFFFFF, 0x00000000, 0x00000000, false⟩  -- FTB_LEARN_CNT
]

/-- Registers of block ACT. -/
def regRowsACT : List RegRow := [
  ⟨0x0D00000, [(0x4, 162)], .sealed, 0x00000000, 0xFF7FFFFF, 0x00000000, 0x00000000, 0x00000000, 0x00000000, false⟩,  -- ACT_PORT_DEF
  ⟨0x0D00400, [(0x4, 162)], .oper, 0x00000000, 0x000003FF, 0x00000000, 0x00000000, 0x00000000, 0x00000000, false⟩,  -- ACT_PORT_MIR
  ⟨0x0D00800, [(0x4, 16)], .sealed, 0x000005EE, 0x0000FFFF, 0x00000000, 0x00000000, 0x00000000, 0x00000000, false⟩,  -- ACT_MTU
  ⟨0x0D00840, [], .sealed, 0x000003FD, 0x000003FF, 0x00000000, 0x00000000, 0x00000000, 0x00000000, false⟩,  -- ACT_TTL_CFG
  ⟨0x0D00844, [], .sealed, 0x000186A0, 0x00FFFFFF, 0x00000000, 0x00000000, 0x00000000, 0x00000000, false⟩,  -- ACT_SAMPLE_LIM
  ⟨0x0D00848, [], .sealed, 0x000F4240, 0x00FFFFFF, 0x00000000, 0x00000000, 0x00000000, 0x00000000, false⟩,  -- ACT_TOHOST_LIM
  ⟨0x0D00900, [(0x10, 16)], .oper, 0x00000000, 0x000FFFFF, 0x00000000, 0x00000000, 0x00000000, 0x00000000, false⟩,  -- ACT_MIR_CFG
  ⟨0x0D00904, [(0x10, 16)], .oper, 0x00000000, 0x0000FFFF, 0x00000000, 0x00000000, 0x00000000, 0x00000000, false⟩,  -- ACT_MIR_DEST
  ⟨0x0D00908, [(0x10, 16)], .oper, 0x00000000, 0x001FFFFF, 0x00000000, 0x00000000, 0x00000000, 0x00000000, false⟩,  -- ACT_MIR_EDIT
  ⟨0x0D01000, [(0x8, 256)], .oper, 0x00000000, 0xFFFFFFFF, 0x00000000, 0x00000000, 0x00000000, 0x00000000, false⟩,  -- ACT_SMAC_LO
  ⟨0x0D01004, [(0x8, 256)], .oper, 0x00000000, 0x0000FFFF, 0x00000000, 0x00000000, 0x00000000, 0x00000000, false⟩,  -- ACT_SMAC_HI
  ⟨0x0D10000, [(0x100, 20)], .sealed, 0x00000008, 0x0000001F, 0x00000000, 0x00000000, 0x00000000, 0x00000000, false⟩,  -- ACT_RECIRC_CFG
  ⟨0x0D10004, [(0x100, 20)], .status, 0x00000000, 0x00000000, 0x00000000, 0x0FFF0000, 0x00000000, 0x00000000, false⟩,  -- ACT_HALL_STAT
  ⟨0x0D10008, [(0x100, 20)], .status, 0x00000000, 0x00000000, 0x00000000, 0x03FF0000, 0x00000000, 0x00000000, false⟩,  -- ACT_RECIRC_STAT
  ⟨0x0D10040, [(0x100, 20), (0x4, 13)], .status, 0x00000000, 0x00000000, 0x00000000, 0xFFFFFFFF, 0x00000000, 0x00000000, false⟩  -- ACT_CNT
]

/-- Registers of block BUF. -/
def regRowsBUF : List RegRow := [
  ⟨0x1000000, [], .sealed, 0x00040000, 0x0FFFFFFF, 0x00000000, 0x00000000, 0x00000000, 0x00000000, false⟩,  -- BUF_SPOOL_CFG
  ⟨0x1000004, [], .sealed, 0x00020000, 0x0FFFFFFF, 0x00000000, 0x00000000, 0x00000000, 0x00000000, false⟩,  -- BUF_SPOOL_CFG
  ⟨0x1000008, [], .sealed, 0x00020000, 0x0FFFFFFF, 0x00000000, 0x00000000, 0x00000000, 0x00000000, false⟩,  -- BUF_SPOOL_CFG
  ⟨0x100000C, [], .sealed, 0x00010000, 0x0FFFFFFF, 0x00000000, 0x00000000, 0x00000000, 0x00000000, false⟩,  -- BUF_SPOOL_CFG
  ⟨0x1000010, [], .sealed, 0x0000C000, 0x0FFFFFFF, 0x00000000, 0x00000000, 0x00000000, 0x00000000, false⟩,  -- BUF_SPOOL_CFG
  ⟨0x1000014, [], .sealed, 0x00004000, 0x0FFFFFFF, 0x00000000, 0x00000000, 0x00000000, 0x00000000, false⟩,  -- BUF_SPOOL_CFG
  ⟨0x1000018, [], .sealed, 0x00002800, 0x0FFFFFFF, 0x00000000, 0x00000000, 0x00000000, 0x00000000, false⟩,  -- BUF_SPOOL_CFG
  ⟨0x100001C, [], .sealed, 0x00001000, 0x0FFFFFFF, 0x00000000, 0x00000000, 0x00000000, 0x00000000, false⟩,  -- BUF_SPOOL_CFG
  ⟨0x1000020, [(0x4, 8)], .sealed, 0x00000000, 0x007FFFFF, 0x00000000, 0x00000000, 0x00000000, 0x00000000, false⟩,  -- BUF_DPOOL_CFG
  ⟨0x1000040, [], .sealed, 0x00020000, 0x0003FFFF, 0x00000000, 0x00000000, 0x00000000, 0x00000000, false⟩,  -- BUF_OASIS_SRAM
  ⟨0x1000044, [], .sealed, 0x01FFFFFF, 0x01FFFFFF, 0x00000000, 0x00000000, 0x00000000, 0x00000000, false⟩,  -- BUF_OASIS_DRAM
  ⟨0x1000048, [], .status, 0x00000000, 0x00000000, 0x00000000, 0x00000000, 0x00000000, 0x00000000, false⟩,  -- BUF_OASIS_SUSED
  ⟨0x100004C, [], .status, 0x00000000, 0x00000000, 0x00000000, 0x00000000, 0x00000000, 0x00000000, false⟩,  -- BUF_OASIS_DUSED
  ⟨0x1000050, [], .status, 0x00000000, 0x00000000, 0x00000000, 0x00000000, 0x00000000, 0x00000000, false⟩,  -- BUF_MC_STAT
  ⟨0x1000100, [(0x80, 2), (0x10, 8)], .sealed, 0x02CD0300, 0x07FF07FF, 0x00000000, 0x00000000, 0x00000000, 0x00000000, false⟩,  -- BUF_POOL_TH
  ⟨0x1000104, [(0x80, 2), (0x10, 8)], .sealed, 0x03330366, 0x07FF07FF, 0x00000000, 0x00000000, 0x00000000, 0x00000000, false⟩,  -- BUF_POOL_TH
  ⟨0x1000108, [(0x80, 2), (0x10, 8)], .sealed, 0x039A03CD, 0x07FF07FF, 0x00000000, 0x00000000, 0x00000000, 0x00000000, false⟩,  -- BUF_POOL_TH
  ⟨0x1000200, [(0x20, 2), (0x4, 8)], .status, 0x00000000, 0x00000000, 0x00000000, 0x00000000, 0x00000000, 0x00000000, false⟩,  -- BUF_POOL_STAT
  ⟨0x1000300, [(0x8, 32)], .sealed, 0x00020000, 0x0003FFFF, 0x00000000, 0x00000000, 0x00000000, 0x00000000, false⟩,  -- BUF_REQ_SRAM
  ⟨0x1000304, [(0x8, 32)], .sealed, 0x01FFFFFF, 0x01FFFFFF, 0x00000000, 0x00000000, 0x00000000, 0x00000000, false⟩,  -- BUF_REQ_DRAM
  ⟨0x1000400, [(0x8, 32)], .status, 0x00000000, 0x00000000, 0x00000000, 0x00000000, 0x00000000, 0x00000000, false⟩,  -- BUF_REQ_SUSED
  ⟨0x1000404, [(0x8, 32)], .status, 0x00000000, 0x00000000, 0x00000000, 0x00000000, 0x00000000, 0x00000000, false⟩,  -- BUF_REQ_DUSED
  ⟨0x1000800, [(0x4, 16)], .status, 0x00000000, 0x00000000, 0x00000000, 0xFFFFFFFF, 0x00000000, 0x00000000, false⟩,  -- BUF_CNT
  ⟨0x1001000, [(0x10, 256)], .sealed, 0x00000000, 0x000FFFFF, 0x00000000, 0x00000000, 0x00000000, 0x00000000, false⟩,  -- BUF_QPROF_MIN
  ⟨0x1001004, [(0x10, 256)], .sealed, 0x00000100, 0x800FFFFF, 0x00000000, 0x00000000, 0x00000000, 0x00000000, false⟩,  -- BUF_QPROF_SPILL
  ⟨0x1001008, [(0x10, 256)], .sealed, 0x00020000, 0x0003FFFF, 0x00000000, 0x00000000, 0x00000000, 0x00000000, false⟩,  -- BUF_QPROF_OASIS
  ⟨0x100100C, [(0x10, 256)], .sealed, 0x01FFFFFF, 0x01FFFFFF, 0x00000000, 0x00000000, 0x00000000, 0x00000000, false⟩,  -- BUF_QPROF_DRAM
  ⟨0x1002000, [(0x4, 256)], .sealed, 0x00000000, 0x0003FFFF, 0x00000000, 0x00000000, 0x00000000, 0x00000000, false⟩,  -- BUF_TENANT_MIN
  ⟨0x1002400, [(0x4, 256)], .status, 0x00000000, 0x00000000, 0x00000000, 0x00000000, 0x00000000, 0x00000000, false⟩  -- BUF_TENANT_STAT
]

/-- Registers of block CGM. -/
def regRowsCGM : List RegRow := [
  ⟨0x1100000, [], .sealed, 0x00000064, 0x0001FFFF, 0x00000000, 0x00000000, 0x00000000, 0x00000000, false⟩,  -- CGM_WRED_CFG
  ⟨0x1100004, [], .sealed, 0x5A3C96E1, 0xFFFFFFFF, 0x00000000, 0x00000000, 0x00000000, 0x00000000, false⟩,  -- CGM_WRED_SEED
  ⟨0x1100008, [], .sealed, 0x000000FF, 0x000000FF, 0x00000000, 0x00000000, 0x00000000, 0x00000000, false⟩,  -- CGM_BKP_POOL
  ⟨0x110000C, [], .status, 0x00000000, 0x00000000, 0x00000000, 0x00000000, 0x00000000, 0x00000000, false⟩,  -- CGM_BKP_STAT
  ⟨0x1100010, [], .status, 0x00000000, 0x00000000, 0x00000000, 0xFFFFFFFF, 0x00000000, 0x00000000, false⟩,  -- CGM_NOTICE_LOST
  ⟨0x1100020, [(0x4, 8)], .sealed, 0x00000000, 0xFFFFFFFF, 0x00000000, 0x00000000, 0x00000000, 0x00000000, false⟩,  -- CGM_BKP_TH
  ⟨0x1100040, [(0x4, 20)], .status, 0x00000000, 0x00000000, 0x00000000, 0xFFFFFFFF, 0x00000000, 0x00000000, false⟩,  -- CGM_NECT_CNT
  ⟨0x1100100, [(0x80, 2), (0x10, 8)], .status, 0x00000000, 0x00000000, 0x00000002, 0x00000000, 0x00000000, 0x00000000, false⟩,  -- CGM_PWM_STAT
  ⟨0x1100104, [(0x80, 2), (0x10, 8)], .status, 0x00000000, 0x00000000, 0x00000000, 0x0FFFFFFF, 0x00000000, 0x00000000, false⟩,  -- CGM_PWM_PEAK
  ⟨0x1100108, [(0x80, 2), (0x10, 8)], .status, 0x00000000, 0x00000000, 0x00000000, 0x00000000, 0x00000000, 0x00000000, false⟩,  -- CGM_PWM_TIME_LO
  ⟨0x110010C, [(0x80, 2), (0x10, 8)], .status, 0x00000000, 0x00000000, 0x00000000, 0x00000000, 0x00000000, 0x00000000, false⟩,  -- CGM_PWM_TIME_HI
  ⟨0x1101000, [(0x4, 256)], .sealed, 0x00000000, 0x000001FF, 0x00000000, 0x00000000, 0x00000000, 0x00000000, false⟩,  -- CGM_QPROF
  ⟨0x1101400, [(0x4, 256)], .sealed, 0x01FFFFFF, 0x01FFFFFF, 0x00000000, 0x00000000, 0x00000000, 0x00000000, false⟩,  -- CGM_QLIMIT
  ⟨0x1102000, [(0x40, 256), (0x10, 3)], .sealed, 0x00000400, 0x07FFFFFF, 0x00000000, 0x00000000, 0x00000000, 0x00000000, false⟩,  -- CGM_WRED_MIN
  ⟨0x1102004, [(0x40, 256), (0x10, 3)], .sealed, 0x00001000, 0x07FFFFFF, 0x00000000, 0x00000000, 0x00000000, 0x00000000, false⟩,  -- CGM_WRED_MAX
  ⟨0x1102008, [(0x40, 256), (0x10, 3)], .sealed, 0x0000121A, 0x00003FFF, 0x00000000, 0x00000000, 0x00000000, 0x00000000, false⟩,  -- CGM_WRED_PRM
  ⟨0x1108000, [(0x20, 160), (0x4, 8)], .sealed, 0x00000000, 0xFFFFFFFF, 0x00000000, 0x00000000, 0x00000000, 0x00000000, false⟩,  -- CGM_PFC_TH
  ⟨0x110A000, [(0x4, 160)], .sealed, 0x000000FF, 0x000000FF, 0x00000000, 0x00000000, 0x00000000, 0x00000000, false⟩,  -- CGM_PFC_POOL
  ⟨0x110C000, [(0x20, 160), (0x4, 8)], .status, 0x00000000, 0x00000000, 0x00000000, 0x00000000, 0x00000000, 0x00000000, false⟩,  -- CGM_PG_STAT
  ⟨0x1140000, [(0x20, 4096)], .oper, 0x00000000, 0x800FFFFF, 0x00000000, 0x00000000, 0x00000000, 0x00000000, true⟩,  -- CGM_QWM_CFG
  ⟨0x1140004, [(0x20, 4096)], .oper, 0x00000000, 0xFFFFFFFF, 0x00000000, 0x00000000, 0x00000000, 0x00000000, false⟩,  -- CGM_QWM_TH
  ⟨0x1140008, [(0x20, 4096)], .status, 0x00000000, 0x00000000, 0x00000002, 0x00000000, 0x00000000, 0x00000000, false⟩,  -- CGM_QWM_STAT
  ⟨0x114000C, [(0x20, 4096)], .status, 0x00000000, 0x00000000, 0x00000000, 0x01FFFFFF, 0x00000000, 0x00000000, false⟩,  -- CGM_QWM_PEAK
  ⟨0x1140010, [(0x20, 4096)], .status, 0x00000000, 0x00000000, 0x00000000, 0x00000000, 0x00000000, 0x00000000, false⟩,  -- CGM_QWM_TIME_LO
  ⟨0x1140014, [(0x20, 4096)], .status, 0x00000000, 0x00000000, 0x00000000, 0x00000000, 0x00000000, 0x00000000, false⟩,  -- CGM_QWM_TIME_HI
  ⟨0x1180000, [(0x40, 4096), (0x4, 16)], .status, 0x00000000, 0x00000000, 0x00000000, 0xFFFFFFFF, 0x00000000, 0x00000000, false⟩  -- CGM_DROP_CNT
]

/-- Registers of block SCH. -/
def regRowsSCH : List RegRow := [
  ⟨0x1200000, [], .sealed, 0x00008000, 0x0001FFFF, 0x00000000, 0x00000000, 0x00000000, 0x00000000, false⟩,  -- SCH_QSPLIT
  ⟨0x1200004, [], .sealed, 0x00000804, 0x00001F1F, 0x00000000, 0x00000000, 0x00000000, 0x00000000, false⟩,  -- SCH_CREDIT_CFG
  ⟨0x1200008, [], .sealed, 0x006401F4, 0xFFFFFFFF, 0x00000000, 0x00000000, 0x00000000, 0x00000000, false⟩,  -- SCH_VOQ_CFG
  ⟨0x120000C, [], .sealed, 0x000003E8, 0x0000FFFF, 0x00000000, 0x00000000, 0x00000000, 0x00000000, false⟩,  -- SCH_FENCE_CFG
  ⟨0x1200010, [], .status, 0x00000000, 0x00000000, 0x00000000, 0x00000000, 0x00000000, 0x00000000, false⟩,  -- SCH_FENCE_STAT
  ⟨0x1200014, [], .status, 0x00000000, 0x00000000, 0x00000000, 0x00000000, 0x00000000, 0x00000000, false⟩,  -- SCH_EPOCH_LO
  ⟨0x1200018, [], .status, 0x00000000, 0x00000000, 0x00000000, 0x00000000, 0x00000000, 0x00000000, false⟩,  -- SCH_EPOCH_HI
  ⟨0x1200040, [(0x4, 10)], .status, 0x00000000, 0x00000000, 0x00000000, 0xFFFFFFFF, 0x00000000, 0x00000000, false⟩,  -- SCH_CNT
  ⟨0x1210000, [(0x40, 160)], .oper, 0x00000000, 0x00000001, 0x00000000, 0x00000000, 0x00000006, 0x00000000, false⟩,  -- SCH_GATE_CTL
  ⟨0x1210004, [(0x40, 160)], .oper, 0x00000001, 0x000007FF, 0x00000000, 0x00000000, 0x00000000, 0x00000000, false⟩,  -- SCH_GATE_CFG
  ⟨0x1210008, [(0x40, 160)], .oper, 0x000F4240, 0xFFFFFFFF, 0x00000000, 0x00000000, 0x00000000, 0x00000000, false⟩,  -- SCH_GATE_CYCLE_LO
  ⟨0x121000C, [(0x40, 160)], .oper, 0x00000000, 0x00000003, 0x00000000, 0x00000000, 0x00000000, 0x00000000, false⟩,  -- SCH_GATE_CYCLE_HI
  ⟨0x1210010, [(0x40, 160)], .oper, 0x00000000, 0x3FFFFFFF, 0x00000000, 0x00000000, 0x00000000, 0x00000000, false⟩,  -- SCH_GATE_BASE_LO
  ⟨0x1210014, [(0x40, 160)], .oper, 0x00000000, 0xFFFFFFFF, 0x00000000, 0x00000000, 0x00000000, 0x00000000, false⟩,  -- SCH_GATE_BASE_HI
  ⟨0x1210018, [(0x40, 160)], .status, 0x0000FF00, 0x00000000, 0x00000004, 0x00000000, 0x00000000, 0x00000000, false⟩,  -- SCH_GATE_STAT
  ⟨0x121001C, [(0x40, 160)], .status, 0x00000000, 0x00000000, 0x00000000, 0x00000000, 0x00000000, 0x00000000, false⟩,  -- SCH_GATE_CHG_LO
  ⟨0x1210020, [(0x40, 160)], .status, 0x00000000, 0x00000000, 0x00000000, 0x00000000, 0x00000000, 0x00000000, false⟩  -- SCH_GATE_CHG_HI
]

/-- Registers of block FAB. -/
def regRowsFAB : List RegRow := [
  ⟨0x1500000, [], .sealed, 0x00050000, 0x000FFFFF, 0x00000000, 0x00000000, 0x00000000, 0x00000000, false⟩,  -- FAB_NODE
  ⟨0x1500004, [], .sealed, 0x00003C3E, 0x00FFFFFF, 0x00000000, 0x00000000, 0x00000000, 0x00000000, false⟩,  -- FAB_PROT_CFG
  ⟨0x1500008, [], .sealed, 0x00000400, 0x00003FFF, 0x00000000, 0x00000000, 0x00000000, 0x00000000, false⟩,  -- FAB_TX_CFG
  ⟨0x150000C, [], .sealed, 0x00141000, 0x07FFFFFF, 0x00000000, 0x00000000, 0x00000000, 0x00000000, false⟩,  -- FAB_REORD_CFG
  ⟨0x1500010, [], .sealed, 0x00000096, 0x000003FF, 0x00000000, 0x00000000, 0x00000000, 0x00000000, false⟩,  -- FAB_PM_CFG
  ⟨0x1500014, [], .sealed, 0x00000064, 0x00003FFF, 0x00000000, 0x00000000, 0x00000000, 0x00000000, false⟩,  -- FAB_BKP_CFG
  ⟨0x1500018, [], .sealed, 0x003D03E8, 0xFFFFFFFF, 0x00000000, 0x00000000, 0x00000000, 0x00000000, false⟩,  -- FAB_DEG_CFG
  ⟨0x1500020, [], .sealed, 0x0064000A, 0xFFFFFFFF, 0x00000000, 0x00000000, 0x00000000, 0x00000000, false⟩,  -- FAB_DEF_TIME
  ⟨0x1500024, [], .sealed, 0x01F40032, 0xFFFFFFFF, 0x00000000, 0x00000000, 0x00000000, 0x00000000, false⟩,  -- FAB_DEF_TIME
  ⟨0x1500028, [], .sealed, 0x01F40064, 0xFFFFFFFF, 0x00000000, 0x00000000, 0x00000000, 0x00000000, false⟩,  -- FAB_DEF_TIME
  ⟨0x150002C, [], .sealed, 0x00030003, 0xFFFFFFFF, 0x00000000, 0x00000000, 0x00000000, 0x00000000, false⟩,  -- FAB_DEF_TIME
  ⟨0x1500030, [], .sealed, 0x000A000A, 0xFFFFFFFF, 0x00000000, 0x00000000, 0x00000000, 0x00000000, false⟩,  -- FAB_DEF_TIME
  ⟨0x1500034, [], .sealed, 0x000A000A, 0xFFFFFFFF, 0x00000000, 0x00000000, 0x00000000, 0x00000000, false⟩,  -- FAB_DEF_TIME
  ⟨0x1500038, [], .sealed, 0x000A000A, 0xFFFFFFFF, 0x00000000, 0x00000000, 0x00000000, 0x00000000, false⟩,  -- FAB_DEF_TIME
  ⟨0x1500040, [], .oper, 0x00000000, 0x00000000, 0x00000000, 0x00000000, 0x000000FF, 0x00000000, false⟩,  -- FAB_PROT_CTL
  ⟨0x1500044, [], .status, 0x00000000, 0x00000000, 0x00000000, 0x00000000, 0x00000000, 0x00000000, false⟩,  -- FAB_PROT_STAT
  ⟨0x1500048, [], .status, 0x00000000, 0x00000000, 0x00000000, 0x00000000, 0x00000000, 0x00000000, false⟩,  -- FAB_PROT_FLAGS
  ⟨0x150004C, [], .status, 0x00000000, 0x00000000, 0x00000000, 0x00000000, 0x00000000, 0x00000000, false⟩,  -- FAB_REORD_STAT
  ⟨0x1500080, [(0x4, 16)], .status, 0x00000000, 0x00000000, 0x00000000, 0xFFFFFFFF, 0x00000000, 0x00000000, false⟩,  -- FAB_CNT
  ⟨0x1400000, [(0x20000, 8)], .sealed, 0x1FFFFFFF, 0x1FFFFFFF, 0x00000000, 0x00000000, 0x00000000, 0x00000000, false⟩,  -- FAB_GRP_CFG
  ⟨0x1400004, [(0x20000, 8)], .sealed, 0x00001C18, 0x00001F1F, 0x00000000, 0x00000000, 0x00000000, 0x00000000, false⟩,  -- FAB_GRP_THR
  ⟨0x1400008, [(0x20000, 8)], .oper, 0x00000000, 0x800FFFFF, 0x00000000, 0x00000000, 0x00000000, 0x00000000, false⟩,  -- FAB_TRAIL_EXP
  ⟨0x140000C, [(0x20000, 8)], .status, 0x00000000, 0x00000000, 0x00000000, 0x00000000, 0x00000000, 0x00000000, false⟩,  -- FAB_GRP_STAT
  ⟨0x1400010, [(0x20000, 8)], .status, 0x00000000, 0x00000000, 0x00000000, 0x00000000, 0x00000000, 0x00000000, false⟩,  -- FAB_GRP_BKP
  ⟨0x1400014, [(0x20000, 8)], .status, 0x00000000, 0x00000000, 0x00000000, 0x00000000, 0x00000000, 0x00000000, false⟩,  -- FAB_GRP_SRQ
  ⟨0x1400080, [(0x20000, 8), (0x10, 4), (0x4, 4)], .status, 0x00000000, 0x00000000, 0x00000000, 0x00000000, 0x00000000, 0x00000000, false⟩,  -- FAB_PM_GRP
  ⟨0x1401000, [(0x20000, 8), (0x100, 28)], .status, 0x00000000, 0x00000000, 0x007F0000, 0x00000000, 0x00000000, 0x00000000, false⟩,  -- FAB_LANE_STAT
  ⟨0x1401004, [(0x20000, 8), (0x100, 28)], .status, 0x00000000, 0x00000000, 0x00000000, 0x00000000, 0x00000000, 0x00000000, false⟩,  -- FAB_LANE_TRAIL
  ⟨0x1401008, [(0x20000, 8), (0x100, 28)], .status, 0x00000000, 0x00000000, 0x00000000, 0x00000000, 0x00000000, 0x00000000, false⟩,  -- FAB_LANE_SERIAL_LO
  ⟨0x140100C, [(0x20000, 8), (0x100, 28)], .status, 0x00000000, 0x00000000, 0x00000000, 0x00000000, 0x00000000, 0x00000000, false⟩,  -- FAB_LANE_SERIAL_HI
  ⟨0x1401040, [(0x20000, 8), (0x100, 28), (0x4, 9)], .status, 0x00000000, 0x00000000, 0x00000000, 0xFFFFFFFF, 0x00000000, 0x00000000, false⟩,  -- FAB_LANE_CNT
  ⟨0x1401080, [(0x20000, 8), (0x100, 28), (0x10, 4), (0x4, 4)], .status, 0x00000000, 0x00000000, 0x00000000, 0x00000000, 0x00000000, 0x00000000, false⟩  -- FAB_PM_LANE
]

/-- Registers of block DRC. -/
def regRowsDRC : List RegRow := [
  ⟨0x1780000, [], .sealed, 0x00FFFFFF, 0x00FFFFFF, 0x00000000, 0x00000000, 0x00000000, 0x00000000, false⟩,  -- DRC_POP
  ⟨0x1780004, [], .sealed, 0x00000002, 0x0000003F, 0x00000000, 0x00000000, 0x00000000, 0x00000000, false⟩,  -- DRC_GLB_CFG
  ⟨0x1780008, [], .sealed, 0x000A0008, 0x00FF03FF, 0x00000000, 0x00000000, 0x00000000, 0x00000000, false⟩,  -- DRC_MAINT_CFG
  ⟨0x178000C, [], .sealed, 0x000001F4, 0x000003FF, 0x00000000, 0x00000000, 0x00000000, 0x00000000, false⟩,  -- DRC_WQ_CFG
  ⟨0x1780010, [], .sealed, 0x00400012, 0xFFFF001F, 0x00000000, 0x00000000, 0x00000000, 0x00000000, false⟩,  -- DRC_RETRY_CFG
  ⟨0x1780014, [], .sealed, 0x00695F55, 0x00FFFFFF, 0x00000000, 0x00000000, 0x00000000, 0x00000000, false⟩,  -- DRC_TEMP_CFG
  ⟨0x1780018, [], .sealed, 0x004003E8, 0xFFFFFFFF, 0x00000000, 0x00000000, 0x00000000, 0x00000000, false⟩,  -- DRC_BGT_CFG
  ⟨0x178001C, [], .status, 0x00000000, 0x00000000, 0x00000000, 0x00000000, 0x00000000, 0x00000000, false⟩,  -- DRC_GLB_STAT
  ⟨0x1600000, [(0x10000, 24)], .oper, 0x00000000, 0x00000000, 0x00000000, 0x00000000, 0x00000001, 0x00000000, false⟩,  -- DRC_DI_CTL
  ⟨0x1600004, [(0x10000, 24)], .status, 0x00000000, 0x00000000, 0x00000000, 0x00000000, 0x00000000, 0x00000000, false⟩,  -- DRC_DI_STAT
  ⟨0x1600008, [(0x10000, 24)], .status, 0x00000000, 0x00000000, 0x00000000, 0x00000000, 0x00000000, 0x00000000, false⟩,  -- DRC_DI_RET
  ⟨0x1600040, [(0x10000, 24), (0x4, 15)], .status, 0x00000000, 0x00000000, 0x00000000, 0xFFFFFFFF, 0x00000000, 0x00000000, false⟩  -- DRC_DI_CNT
]

/-- Registers of block PAIR. -/
def regRowsPAIR : List RegRow := [
  ⟨0x1900000, [], .sealed, 0x0032001E, 0x03FFFF1F, 0x00000000, 0x00000000, 0x00000000, 0x00000000, false⟩,  -- PAIR_CFG
  ⟨0x1900004, [], .sealed, 0x00640032, 0x33FFFFFF, 0x00000000, 0x00000000, 0x00000000, 0x00000000, false⟩,  -- PAIR_LINK_CFG
  ⟨0x1900008, [], .sealed, 0x00010064, 0x00FF03FF, 0x00000000, 0x00000000, 0x00000000, 0x00000000, false⟩,  -- PAIR_MIRROR_CFG
  ⟨0x190000C, [], .sealed, 0x000A0064, 0xFFFFFFFF, 0x00000000, 0x00000000, 0x00000000, 0x00000000, false⟩,  -- PAIR_STBY_CFG
  ⟨0x1900010, [], .oper, 0x00000000, 0x00000002, 0x00000000, 0x00000000, 0x00000001, 0x00000000, false⟩,  -- PAIR_CTL
  ⟨0x1900014, [], .status, 0x00000000, 0x00000000, 0x00000040, 0x00000000, 0x00000000, 0x00000000, false⟩,  -- PAIR_STAT
  ⟨0x1900018, [], .status, 0x00000000, 0x00000000, 0x00000000, 0x00000000, 0x00000000, 0x00000000, false⟩,  -- PAIR_EPOCH
  ⟨0x190001C, [], .status, 0x00000000, 0x00000000, 0x00000000, 0x00000000, 0x00000000, 0x00000000, false⟩,  -- PAIR_SEQ_TX
  ⟨0x1900020, [], .status, 0x00000000, 0x00000000, 0x00000000, 0x00000000, 0x00000000, 0x00000000, false⟩,  -- PAIR_SEQ_APPLIED
  ⟨0x1900024, [], .status, 0x00000000, 0x00000000, 0x00000000, 0xFFFF0000, 0x00000000, 0x00000000, false⟩,  -- PAIR_LAG
  ⟨0x1900028, [], .status, 0x00000000, 0x00000000, 0x00000000, 0x00000000, 0x00000000, 0x00000000, false⟩,  -- PAIR_PSERIAL_LO
  ⟨0x190002C, [], .status, 0x00000000, 0x00000000, 0x00000000, 0x00000000, 0x00000000, 0x00000000, false⟩,  -- PAIR_PSERIAL_HI
  ⟨0x1900040, [(0x4, 12)], .status, 0x00000000, 0x00000000, 0x00000000, 0x00000000, 0x00000000, 0x00000000, false⟩,  -- PAIR_DIGEST
  ⟨0x1900080, [(0x4, 12)], .oper, 0x00000000, 0xFFFFFFFF, 0x00000000, 0x00000000, 0x00000000, 0x00000000, false⟩,  -- PAIR_ALT_DIGEST
  ⟨0x1900100, [(0x4, 18)], .status, 0x00000000, 0x00000000, 0x00000000, 0xFFFFFFFF, 0x00000000, 0x00000000, false⟩  -- PAIR_CNT
]

/-- Registers of block BOOT. -/
def regRowsBOOT : List RegRow := [
  ⟨0x0100000, [], .status, 0x00000000, 0x00000000, 0x00000000, 0x00000000, 0x00000000, 0x00000000, false⟩,  -- BOOT_STAT
  ⟨0x0100004, [], .status, 0x00000000, 0x00000000, 0x00000000, 0x00000000, 0x00000000, 0x00000000, false⟩,  -- BOOT_HOLD_STAT
  ⟨0x0100008, [], .status, 0x00000000, 0x00000000, 0x00000000, 0x00000000, 0x00000000, 0x00000000, false⟩,  -- BOOT_HOLD_DETAIL
  ⟨0x010000C, [], .oper, 0x00000000, 0x0000000E, 0x00000000, 0x00000000, 0x00000001, 0x00000000, false⟩,  -- BOOT_HOLD_CTL
  ⟨0x0100010, [], .oper, 0x00000000, 0xFFFFF000, 0x00000000, 0x00000000, 0x00000000, 0x00000000, false⟩,  -- BOOT_PUSH_ADDR_LO
  ⟨0x0100014, [], .oper, 0x00000000, 0xFFFFFFFF, 0x00000000, 0x00000000, 0x00000000, 0x00000000, false⟩,  -- BOOT_PUSH_ADDR_HI
  ⟨0x0100018, [], .oper, 0x00000000, 0x07FFFFFF, 0x00000000, 0x00000000, 0x00000000, 0x00000000, false⟩,  -- BOOT_PUSH_LEN
  ⟨0x010001C, [], .oper, 0x00000000, 0x0000003E, 0x00000000, 0x00000000, 0x00000001, 0x00000000, false⟩,  -- BOOT_PUSH_CTL
  ⟨0x0100020, [], .status, 0x00000000, 0x00000000, 0x00000000, 0x00000000, 0x00000000, 0x00000000, false⟩,  -- BOOT_PUSH_STAT
  ⟨0x0100024, [(0x4, 2)], .status, 0x00000000, 0x00000000, 0x00000000, 0x00000000, 0x00000000, 0x00000000, false⟩,  -- BOOT_ARB_RUN
  ⟨0x010002C, [(0x4, 2)], .status, 0x00000000, 0x00000000, 0x00000000, 0x00000000, 0x00000000, 0x00000000, false⟩,  -- BOOT_FLOOR
  ⟨0x0100034, [], .oper, 0x00000000, 0x00000000, 0x00000000, 0x00000000, 0x00000003, 0x00000000, false⟩,  -- BOOT_ARB_CTL
  ⟨0x0100038, [], .status, 0x00004040, 0x00000000, 0x00000000, 0x00000000, 0x00000000, 0x00000000, false⟩,  -- BOOT_FLOOR_LEFT
  ⟨0x0100040, [(0x4, 4)], .status, 0x00000000, 0x00000000, 0x00000000, 0x00000000, 0x00000000, 0x00000000, false⟩,  -- BOOT_KEY_STAT
  ⟨0x0100050, [], .oper, 0x00000000, 0x00000003, 0x00000000, 0x00000000, 0xFFFF0004, 0x00000000, false⟩,  -- BOOT_KEY_CTL
  ⟨0x0100054, [], .oper, 0x00000000, 0x00000000, 0x00000000, 0x00000000, 0xFFFF0001, 0x00000000, false⟩,  -- BOOT_LC_CTL
  ⟨0x0100058, [], .status, 0x00000000, 0x00000000, 0x00000000, 0x00000000, 0x00000000, 0x00000000, false⟩,  -- BOOT_NVM_STAT
  ⟨0x0100060, [(0x8, 2)], .status, 0x00000000, 0x00000000, 0x00000000, 0x00000000, 0x00000000, 0x00000000, false⟩,  -- BOOT_DIE_ID_LO
  ⟨0x0100064, [(0x8, 2)], .status, 0x00000000, 0x00000000, 0x00000000, 0x00000000, 0x00000000, 0x00000000, false⟩  -- BOOT_DIE_ID_HI
]

/-- Registers of block UPD. -/
def regRowsUPD : List RegRow := [
  ⟨0x1A00000, [], .sealed, 0x00000258, 0x00000FFF, 0x00000000, 0x00000000, 0x00000000, 0x00000000, false⟩,  -- UPD_CFG
  ⟨0x1A00004, [], .sealed, 0x00C80064, 0xFFFFFFFF, 0x00000000, 0x00000000, 0x00000000, 0x00000000, false⟩,  -- UPD_WEAR_CFG
  ⟨0x1A00008, [], .oper, 0x00000000, 0x00000000, 0x00000000, 0x00000000, 0xFFFF003F, 0x00000000, false⟩,  -- UPD_CTL
  ⟨0x1A0000C, [], .status, 0x00000000, 0x00000000, 0x00000600, 0x00000000, 0x00000000, 0x00000000, false⟩,  -- UPD_STAT
  ⟨0x1A00010, [], .oper, 0x00000000, 0xFFFFF000, 0x00000000, 0x00000000, 0x00000000, 0x00000000, false⟩,  -- UPD_STAGE_ADDR_LO
  ⟨0x1A00014, [], .oper, 0x00000000, 0xFFFFFFFF, 0x00000000, 0x00000000, 0x00000000, 0x00000000, false⟩,  -- UPD_STAGE_ADDR_HI
  ⟨0x1A00018, [], .oper, 0x00000000, 0x07FFFFFF, 0x00000000, 0x00000000, 0x00000000, 0x00000000, false⟩,  -- UPD_STAGE_LEN
  ⟨0x1A0001C, [], .oper, 0x00000000, 0x00000006, 0x00000000, 0x00000000, 0x00000001, 0x00000000, false⟩,  -- UPD_STAGE_CTL
  ⟨0x1A00020, [], .status, 0x00000000, 0x00000000, 0x00000000, 0x00000000, 0x00000000, 0x00000000, false⟩,  -- UPD_STAGE_STAT
  ⟨0x1A00024, [], .oper, 0x00000000, 0x3FFFFFFF, 0x00000000, 0x00000000, 0x00000000, 0x00000000, false⟩,  -- UPD_ACT_TIME_LO
  ⟨0x1A00028, [], .oper, 0x00000000, 0xFFFFFFFF, 0x00000000, 0x00000000, 0x00000000, 0x00000000, false⟩,  -- UPD_ACT_TIME_HI
  ⟨0x1A0002C, [], .status, 0x00000000, 0x00000000, 0x00000000, 0x00000000, 0x00000000, 0x00000000, false⟩,  -- UPD_WINDOW
  ⟨0x1A00030, [], .status, 0x00000000, 0x00000000, 0x00000000, 0x00000000, 0x00000000, 0x00000000, false⟩,  -- UPD_WEAR_STAT
  ⟨0x1A00040, [(0x4, 12)], .status, 0x00000000, 0x00000000, 0x00000000, 0x00000000, 0x00000000, 0x00000000, false⟩,  -- UPD_NEW_DIGEST
  ⟨0x1A00080, [(0x4, 6)], .status, 0x00000000, 0x00000000, 0x00000000, 0xFFFFFFFF, 0x00000000, 0x00000000, false⟩  -- UPD_CNT
]

/-- Registers of block CLK. -/
def regRowsCLK : List RegRow := [
  ⟨0x0200000, [], .sealed, 0x00000034, 0x0000003F, 0x00000000, 0x00000000, 0x00000000, 0x00000000, false⟩,  -- CLK_PLAN
  ⟨0x0200004, [], .sealed, 0x000000C8, 0x000003FF, 0x00000000, 0x00000000, 0x00000000, 0x00000000, false⟩,  -- CLK_MON_CFG
  ⟨0x0200008, [], .oper, 0x00000000, 0x00000000, 0x00000000, 0x00000000, 0x00000003, 0x00000000, false⟩,  -- CLK_CTL
  ⟨0x020000C, [], .oper, 0x00000026, 0x007FFFFF, 0x00000000, 0x00000000, 0x00000000, 0x00000000, true⟩,  -- CLK_OUT_CFG
  ⟨0x0200010, [], .oper, 0x00000000, 0xFFFFFFFF, 0x00000000, 0x00000000, 0x00000000, 0x00000000, false⟩,  -- CLK_GATE_DIS_LO
  ⟨0x0200014, [], .oper, 0x00000000, 0x000000FF, 0x00000000, 0x00000000, 0x00000000, 0x00000000, false⟩,  -- CLK_GATE_DIS_HI
  ⟨0x0200018, [], .status, 0x00000001, 0x00000000, 0x00000000, 0x00000000, 0x00000000, 0x00000000, false⟩,  -- CLK_STAT
  ⟨0x020001C, [], .status, 0x00000000, 0x00000000, 0x00000000, 0x00000000, 0x00000000, 0x00000000, false⟩,  -- CLK_PLL_STAT
  ⟨0x0200020, [], .status, 0x00000000, 0x00000000, 0x00001F00, 0x00000000, 0x00000000, 0x00000000, false⟩,  -- CLK_REF_STAT
  ⟨0x0200030, [(0x4, 3)], .status, 0x00000000, 0x00000000, 0x00000000, 0x00000000, 0x00000000, 0x00000000, false⟩,  -- CLK_MEAS
  ⟨0x0200040, [(0x4, 5)], .status, 0x00000000, 0x00000000, 0x00000000, 0xFFFFFFFF, 0x00000000, 0x00000000, false⟩  -- CLK_CNT
]

/-- Registers of block TIM. -/
def regRowsTIM : List RegRow := [
  ⟨0x1C00000, [], .oper, 0x00000000, 0x00000000, 0x00000000, 0x00000000, 0x00000003, 0x00000000, false⟩,  -- TIM_CTL
  ⟨0x1C00004, [], .status, 0x00000000, 0x00000000, 0x00000018, 0x00000000, 0x00000000, 0x00000000, false⟩,  -- TIM_STAT
  ⟨0x1C00008, [], .status, 0x00000000, 0x00000000, 0x00000000, 0x00000000, 0x00000000, 0x00000000, false⟩,  -- TIM_NOW_LO
  ⟨0x1C0000C, [], .status, 0x00000000, 0x00000000, 0x00000000, 0x00000000, 0x00000000, 0x00000000, false⟩,  -- TIM_NOW_HI
  ⟨0x1C00010, [], .status, 0x00000000, 0x00000000, 0x00000000, 0x00000000, 0x00000000, 0x00000000, false⟩,  -- TIM_NOW_EXT
  ⟨0x1C00014, [], .oper, 0x00000000, 0x3FFFFFFF, 0x00000000, 0x00000000, 0x00000000, 0x00000000, false⟩,  -- TIM_SET_LO
  ⟨0x1C00018, [], .oper, 0x00000000, 0xFFFFFFFF, 0x00000000, 0x00000000, 0x00000000, 0x00000000, false⟩,  -- TIM_SET_HI
  ⟨0x1C0001C, [], .oper, 0x00000000, 0x0000FFFF, 0x00000000, 0x00000000, 0x00000000, 0x00000000, false⟩,  -- TIM_SET_EXT
  ⟨0x1C00020, [], .oper, 0x00000000, 0xFFFFFFFF, 0x00000000, 0x00000000, 0x00000000, 0x00000000, false⟩,  -- TIM_OFFSET
  ⟨0x1C00024, [], .oper, 0x47AE147B, 0xFFFFFFFF, 0x00000000, 0x00000000, 0x00000000, 0x00000000, false⟩,  -- TIM_INCR_LO
  ⟨0x1C00028, [], .oper, 0x00000001, 0x000000FF, 0x00000000, 0x00000000, 0x00000000, 0x00000000, true⟩,  -- TIM_INCR_HI
  ⟨0x1C0002C, [], .oper, 0x186A0000, 0xFFFFF007, 0x00000000, 0x00000000, 0x00000000, 0x00000000, false⟩,  -- TIM_PPS_CFG
  ⟨0x1C00030, [], .status, 0x00000000, 0x00000000, 0x00000000, 0x00000000, 0x00000000, 0x00000000, false⟩,  -- TIM_PPS_CAP_LO
  ⟨0x1C00034, [], .status, 0x00000000, 0x00000000, 0x00000000, 0x00000000, 0x00000000, 0x00000000, false⟩,  -- TIM_PPS_CAP_HI
  ⟨0x1C00040, [(0x4, 3)], .status, 0x00000000, 0x00000000, 0x00000000, 0xFFFFFFFF, 0x00000000, 0x00000000, false⟩  -- TIM_CNT
]

/-- Registers of block PWR. -/
def regRowsPWR : List RegRow := [
  ⟨0x0300000, [], .sealed, 0x00000A14, 0x00001FFF, 0x00000000, 0x00000000, 0x00000000, 0x00000000, false⟩,  -- PWR_VIN_CFG
  ⟨0x0300004, [], .sealed, 0x0005968C, 0x000FFFFF, 0x00000000, 0x00000000, 0x00000000, 0x00000000, false⟩,  -- PWR_TEMP_CFG
  ⟨0x0300008, [], .status, 0x00000000, 0x00000000, 0x00000000, 0x00000000, 0x00000000, 0x00000000, false⟩,  -- PWR_VIN_STAT
  ⟨0x030000C, [], .status, 0x00001FFF, 0x00000000, 0x00000000, 0x00001FFF, 0x00000000, 0x00000000, false⟩,  -- PWR_VIN_MIN
  ⟨0x0300010, [], .status, 0x00000000, 0x00000000, 0x00000000, 0x00000000, 0x00000000, 0x00000000, false⟩,  -- PWR_IIN_STAT
  ⟨0x0300014, [], .status, 0x00000000, 0x00000000, 0x007F0000, 0x00000000, 0x00000000, 0x00000000, false⟩,  -- PWR_RAIL_STAT
  ⟨0x0300020, [(0x4, 8)], .status, 0x00000000, 0x00000000, 0x00000000, 0x00000000, 0x00000000, 0x00000000, false⟩,  -- PWR_GRP_PWR
  ⟨0x0300040, [(0x4, 3)], .status, 0x00000000, 0x00000000, 0x00000000, 0x00000000, 0x00000000, 0x00000000, false⟩,  -- PWR_DIE_PWR
  ⟨0x0300100, [(0x4, 72)], .status, 0x00000000, 0x00000000, 0x00000000, 0x00000000, 0x00000000, 0x00000000, false⟩,  -- PWR_TEMP
  ⟨0x0300240, [], .status, 0x00000000, 0x00000000, 0x00000000, 0x00000000, 0x00000000, 0x00000000, false⟩,  -- PWR_TEMP_MAX
  ⟨0x0300244, [], .status, 0x00000000, 0x00000000, 0x00000000, 0x007F0FFF, 0x00000000, 0x00000000, false⟩,  -- PWR_TEMP_PEAK
  ⟨0x0300248, [], .status, 0x00000000, 0x00000000, 0x00000300, 0x00000000, 0x00000000, 0x00000000, false⟩,  -- PWR_TEMP_STAT
  ⟨0x030024C, [], .status, 0x00000000, 0x00000000, 0x00000000, 0x00000000, 0x00000000, 0x00000000, false⟩,  -- PWR_TRIP
  ⟨0x0300300, [], .status, 0x00000000, 0x00000000, 0x00000000, 0x00000000, 0x00000000, 0x00000000, false⟩,  -- PWR_BAT_STAT
  ⟨0x0300304, [], .oper, 0x00000000, 0x00000000, 0x00000000, 0x00000000, 0x00000001, 0x00000000, false⟩,  -- PWR_BAT_CTL
  ⟨0x0300308, [], .status, 0x00000000, 0x00000000, 0x00000000, 0x00000000, 0x00000000, 0x00000000, false⟩,  -- PWR_HOLD_NS
  ⟨0x030030C, [], .status, 0x00000000, 0x00000000, 0x00000000, 0x00000000, 0x00000000, 0x00000000, false⟩,  -- PWR_HOLD_SEC_LO
  ⟨0x0300310, [], .status, 0x00000000, 0x00000000, 0x00000000, 0x00000000, 0x00000000, 0x00000000, false⟩,  -- PWR_HOLD_SEC_HI
  ⟨0x0300320, [(0x4, 8)], .status, 0x00000000, 0x00000000, 0x00000000, 0x00000000, 0x00000000, 0x00000000, false⟩,  -- PWR_LASTREC
  ⟨0x0300340, [], .status, 0x00000000, 0x00000000, 0x00000000, 0x00000000, 0x00000000, 0x00000000, false⟩,  -- PWR_VIO_STAT
  ⟨0x0300380, [(0x4, 6)], .status, 0x00000000, 0x00000000, 0x00000000, 0xFFFFFFFF, 0x00000000, 0x00000000, false⟩,  -- PWR_CNT
  ⟨0x0301000, [], .sealed, 0x00000000, 0xFFFFFFFF, 0x00000000, 0x00000000, 0x00000000, 0x00000000, false⟩,  -- PWR_SLICE_BOOT_LO
  ⟨0x0301004, [], .sealed, 0x00000000, 0x000000FF, 0x00000000, 0x00000000, 0x00000000, 0x00000000, false⟩,  -- PWR_SLICE_BOOT_HI
  ⟨0x0301008, [], .oper, 0x006403E8, 0xFFFFFFFF, 0x00000000, 0x00000000, 0x00000000, 0x00000000, false⟩,  -- PWR_DRAIN_CFG
  ⟨0x030100C, [], .oper, 0x00000000, 0xFFFFFFFF, 0x00000000, 0x00000000, 0x00000000, 0x00000000, false⟩,  -- PWR_SLICE_MASK_LO
  ⟨0x0301010, [], .oper, 0x00000000, 0x000000FF, 0x00000000, 0x00000000, 0x00000000, 0x00000000, false⟩,  -- PWR_SLICE_MASK_HI
  ⟨0x0301014, [], .oper, 0x00000000, 0x00000000, 0x00000000, 0x00000000, 0x00000003, 0x00000000, false⟩,  -- PWR_SLICE_CMD
  ⟨0x0301018, [], .status, 0x00000000, 0x00000000, 0x00000000, 0x00000000, 0x00000000, 0x00000000, false⟩,  -- PWR_SLICE_SUM_LO
  ⟨0x030101C, [], .status, 0x00000000, 0x00000000, 0x00000000, 0x00000000, 0x00000000, 0x00000000, false⟩,  -- PWR_SLICE_SUM_HI
  ⟨0x0301020, [], .status, 0x00000000, 0x00000000, 0x00000000, 0x00000000, 0x00000000, 0x00000000, false⟩,  -- PWR_MAINT_STAT
  ⟨0x0301100, [(0x4, 40)], .status, 0x00000000, 0x00000000, 0x00000000, 0x00000000, 0x00000000, 0x00000000, false⟩,  -- PWR_SLICE_STAT
  ⟨0x0301200, [(0x4, 40)], .status, 0x00000000, 0x00000000, 0x00000000, 0xFFFFFFFF, 0x00000000, 0x00000000, false⟩,  -- PWR_SLICE_DROP
  ⟨0x0301300, [(0x4, 12)], .status, 0x00000000, 0x00000000, 0x00000000, 0xFFFFFFFF, 0x00000000, 0x00000000, false⟩  -- PWR_MAINT_CNT
]

/-- Registers of block HIF. -/
def regRowsHIF : List RegRow := [
  ⟨0x0600000, [], .sealed, 0x0000FF86, 0x0000FFFF, 0x00000000, 0x00000000, 0x00000000, 0x00000000, false⟩,  -- HIF_CFG
  ⟨0x0600004, [], .sealed, 0x00001F3C, 0xFFFFFFFF, 0x00000000, 0x00000000, 0x00000000, 0x00000000, false⟩,  -- HIF_SUBSYS
  ⟨0x0600008, [], .status, 0x00000000, 0x00000000, 0x00000000, 0x00000000, 0x00000000, 0x00000000, false⟩,  -- HIF_LINK_STAT
  ⟨0x060000C, [], .status, 0x00000000, 0x00000000, 0x00000000, 0x7FFF0000, 0x00000000, 0x00000000, false⟩,  -- HIF_INFLIGHT
  ⟨0x0600010, [], .status, 0x00000000, 0x00000000, 0x00000000, 0x00000000, 0x00000000, 0x00000000, false⟩,  -- HIF_PWF_STAT
  ⟨0x0600014, [], .oper, 0x00000000, 0x00000000, 0x00000000, 0x00000000, 0x00000001, 0x00000000, false⟩,  -- HIF_PWF_CTL
  ⟨0x0600040, [(0x4, 8)], .status, 0x00000000, 0x00000000, 0x00000000, 0xFFFFFFFF, 0x00000000, 0x00000000, false⟩,  -- HIF_CNT
  ⟨0x0600100, [(0x4, 16)], .oper, 0x00000000, 0x1FFFFF1F, 0x00000000, 0x00000000, 0x00000000, 0x00000000, false⟩,  -- HIF_TWIN
  ⟨0x0600400, [(0x4, 256)], .oper, 0x00000000, 0x00000007, 0x00000000, 0x00000000, 0x00000000, 0x00000000, false⟩,  -- HIF_RXSEL
  ⟨0x0601000, [(0x20, 64), (0x4, 8)], .status, 0x00000000, 0x00000000, 0x00000000, 0x00000000, 0x00000000, 0x00000000, false⟩,  -- HIF_PWF_LOG
  ⟨0x0604000, [], .oper, 0x04000080, 0x7FFF1FFF, 0x00000000, 0x00000000, 0x00000000, 0x00000000, false⟩,  -- HIF_FN_CFG
  ⟨0x0604010, [(0x10, 255)], .oper, 0x00401007, 0x7FFF1FFF, 0x00000000, 0x00000000, 0x00000000, 0x00000000, false⟩,  -- HIF_FN_CFG
  ⟨0x0604004, [], .status, 0x00008000, 0x00000000, 0x00000000, 0x00000000, 0x00000000, 0x00000000, false⟩,  -- HIF_FN_STAT
  ⟨0x0604014, [(0x10, 255)], .status, 0x00000000, 0x00000000, 0x00000000, 0x00000000, 0x00000000, 0x00000000, false⟩,  -- HIF_FN_STAT
  ⟨0x0606000, [(0x20, 256), (0x4, 8)], .oper, 0x00000000, 0xFFFFFFFF, 0x00000000, 0x00000000, 0x00000000, 0x00000000, true⟩,  -- HIF_GRANT
  ⟨0x0680000, [(0x20, 44)], .oper, 0x00000000, 0xFFFFF000, 0x00000000, 0x00000000, 0x00000000, 0x00000000, false⟩,  -- HIF_RING_BASE_LO
  ⟨0x0701000, [(0x1000, 255), (0x20, 44)], .oper, 0x00000000, 0xFFFFF000, 0x00000000, 0x00000000, 0x00000000, 0x00000000, false⟩,  -- HIF_RING_BASE_LO
  ⟨0x0680004, [(0x20, 44)], .oper, 0x00000000, 0xFFFFFFFF, 0x00000000, 0x00000000, 0x00000000, 0x00000000, false⟩,  -- HIF_RING_BASE_HI
  ⟨0x0701004, [(0x1000, 255), (0x20, 44)], .oper, 0x00000000, 0xFFFFFFFF, 0x00000000, 0x00000000, 0x00000000, 0x00000000, false⟩,  -- HIF_RING_BASE_HI
  ⟨0x0680008, [(0x20, 44)], .oper, 0x00000018, 0xFFF7FF7D, 0x00000000, 0x00000000, 0x00000002, 0x00000000, true⟩,  -- HIF_RING_CFG
  ⟨0x0701008, [(0x1000, 255), (0x20, 44)], .oper, 0x00000018, 0xFFF7FF7D, 0x00000000, 0x00000000, 0x00000002, 0x00000000, true⟩,  -- HIF_RING_CFG
  ⟨0x068000C, [(0x20, 44)], .oper, 0x00000000, 0x0000FFFF, 0x00000000, 0x00000000, 0x00000000, 0x00000000, true⟩,  -- HIF_RING_PROD
  ⟨0x070100C, [(0x1000, 255), (0x20, 44)], .oper, 0x00000000, 0x0000FFFF, 0x00000000, 0x00000000, 0x00000000, 0x00000000, true⟩,  -- HIF_RING_PROD
  ⟨0x0680010, [(0x20, 44)], .oper, 0x00000000, 0x0000FFFF, 0x00000000, 0x00000000, 0x00000000, 0x00000000, true⟩,  -- HIF_RING_CONS
  ⟨0x0701010, [(0x1000, 255), (0x20, 44)], .oper, 0x00000000, 0x0000FFFF, 0x00000000, 0x00000000, 0x00000000, 0x00000000, true⟩,  -- HIF_RING_CONS
  ⟨0x0680014, [(0x20, 44)], .oper, 0x00000000, 0xFFFFFFFC, 0x00000000, 0x00000000, 0x00000000, 0x00000000, false⟩,  -- HIF_RING_WB_LO
  ⟨0x0701014, [(0x1000, 255), (0x20, 44)], .oper, 0x00000000, 0xFFFFFFFC, 0x00000000, 0x00000000, 0x00000000, 0x00000000, false⟩,  -- HIF_RING_WB_LO
  ⟨0x0680018, [(0x20, 44)], .oper, 0x00000000, 0xFFFFFFFF, 0x00000000, 0x00000000, 0x00000000, 0x00000000, false⟩,  -- HIF_RING_WB_HI
  ⟨0x0701018, [(0x1000, 255), (0x20, 44)], .oper, 0x00000000, 0xFFFFFFFF, 0x00000000, 0x00000000, 0x00000000, 0x00000000, false⟩,  -- HIF_RING_WB_HI
  ⟨0x068001C, [(0x20, 44)], .status, 0x00000000, 0x00000000, 0x00000000, 0x00000000, 0x00000000, 0x00000000, false⟩,  -- HIF_RING_STAT
  ⟨0x070101C, [(0x1000, 255), (0x20, 44)], .status, 0x00000000, 0x00000000, 0x00000000, 0x00000000, 0x00000000, 0x00000000, false⟩,  -- HIF_RING_STAT
  ⟨0x0680600, [(0x10, 9)], .oper, 0x00000000, 0xFFFFF000, 0x00000000, 0x00000000, 0x00000000, 0x00000000, false⟩,  -- HIF_DATA_LO
  ⟨0x0701600, [(0x1000, 255), (0x10, 9)], .oper, 0x00000000, 0xFFFFF000, 0x00000000, 0x00000000, 0x00000000, 0x00000000, false⟩,  -- HIF_DATA_LO
  ⟨0x0680604, [(0x10, 9)], .oper, 0x00000000, 0xFFFFFFFF, 0x00000000, 0x00000000, 0x00000000, 0x00000000, false⟩,  -- HIF_DATA_HI
  ⟨0x0701604, [(0x1000, 255), (0x10, 9)], .oper, 0x00000000, 0xFFFFFFFF, 0x00000000, 0x00000000, 0x00000000, 0x00000000, false⟩,  -- HIF_DATA_HI
  ⟨0x0680608, [(0x10, 9)], .oper, 0x00000000, 0x7FFFF000, 0x00000000, 0x00000000, 0x00000000, 0x00000000, false⟩,  -- HIF_DATA_SIZE
  ⟨0x0701608, [(0x1000, 255), (0x10, 9)], .oper, 0x00000000, 0x7FFFF000, 0x00000000, 0x00000000, 0x00000000, 0x00000000, false⟩,  -- HIF_DATA_SIZE
  ⟨0x1000F000, [(0x10000, 256)], .status, 0x00000100, 0x00000000, 0x00000000, 0x00000000, 0x00000000, 0x00000000, false⟩,  -- HIF_VF_ID
  ⟨0x1000F004, [(0x10000, 256)], .status, 0x00000000, 0x00000000, 0x00000000, 0x0000FFFF, 0x00000000, 0x00000000, false⟩  -- HIF_VF_PWF
]

/-- Registers of block SCR. -/
def regRowsSCR : List RegRow := [
  ⟨0x1800000, [], .sealed, 0x00000000, 0x0007FFFF, 0x00000000, 0x00000000, 0x00000000, 0x00000000, false⟩,  -- SCR_PIPE_CFG
  ⟨0x1800004, [], .sealed, 0x000A0064, 0xFFFFFFFF, 0x00000000, 0x00000000, 0x00000000, 0x00000000, false⟩,  -- SCR_BGT_CFG
  ⟨0x1800008, [], .oper, 0x00000000, 0x00007FFF, 0x00000000, 0x00000000, 0x00000000, 0x00000000, false⟩,  -- SCR_WIN
  ⟨0x180000C, [], .oper, 0x00000000, 0x001FFFFF, 0x00000000, 0x00000000, 0x00000000, 0x00000000, false⟩,  -- SCR_ATOM_ADDR
  ⟨0x1800010, [], .oper, 0x00000000, 0xFFFFFFFF, 0x00000000, 0x00000000, 0x00000000, 0x00000000, false⟩,  -- SCR_ATOM_OPND_LO
  ⟨0x1800014, [], .oper, 0x00000000, 0xFFFFFFFF, 0x00000000, 0x00000000, 0x00000000, 0x00000000, false⟩,  -- SCR_ATOM_OPND_HI
  ⟨0x1800018, [], .oper, 0x00000000, 0x00000002, 0x00000000, 0x00000000, 0x00000001, 0x00000000, false⟩,  -- SCR_ATOM_CTL
  ⟨0x180001C, [], .status, 0x00000000, 0x00000000, 0x00000000, 0x00000000, 0x00000000, 0x00000000, false⟩,  -- SCR_ATOM_RES_LO
  ⟨0x1800020, [], .status, 0x00000000, 0x00000000, 0x00000000, 0x00000000, 0x00000000, 0x00000000, false⟩,  -- SCR_ATOM_RES_HI
  ⟨0x1800024, [], .status, 0x00000000, 0x00000000, 0x00000000, 0x00000000, 0x00000000, 0x00000000, false⟩,  -- SCR_ATOM_STAT
  ⟨0x1800028, [], .status, 0x00000000, 0x00000000, 0x00000000, 0x00000000, 0x00000000, 0x00000000, false⟩,  -- SCR_ERR_STAT
  ⟨0x180002C, [], .status, 0x00000000, 0x00000000, 0x00000000, 0x00000000, 0x00000000, 0x00000000, false⟩,  -- SCR_ERR_LOC_LO
  ⟨0x1800030, [], .status, 0x00000000, 0x00000000, 0x00000000, 0x00000000, 0x00000000, 0x00000000, false⟩,  -- SCR_ERR_LOC_HI
  ⟨0x1800034, [], .status, 0x00000000, 0x00000000, 0x00000000, 0x00000000, 0x00000000, 0x00000000, false⟩,  -- SCR_REPAIR_STAT
  ⟨0x1800038, [], .status, 0x00000000, 0x00000000, 0x00000000, 0x00000000, 0x00000000, 0x00000000, false⟩,  -- SCR_TEST_STAT
  ⟨0x1800040, [(0x4, 10)], .status, 0x00000000, 0x00000000, 0x00000000, 0xFFFFFFFF, 0x00000000, 0x00000000, false⟩,  -- SCR_CNT
  ⟨0x1801000, [(0x10, 256)], .sealed, 0x00000000, 0x00001FFF, 0x00000000, 0x00000000, 0x00000000, 0x00000000, false⟩,  -- SCR_OP_CFG
  ⟨0x1801004, [(0x10, 256)], .sealed, 0x00000000, 0x007FFFFF, 0x00000000, 0x00000000, 0x00000000, 0x00000000, false⟩,  -- SCR_OP_BASE
  ⟨0x1801008, [(0x10, 256)], .sealed, 0x00000000, 0xFFFFFFFF, 0x00000000, 0x00000000, 0x00000000, 0x00000000, false⟩  -- SCR_OP_CONST
]

/-- Registers of block FLT. -/
def regRowsFLT : List RegRow := [
  ⟨0x0400000, [], .sealed, 0x03E800A1, 0xFFFF00F7, 0x00000000, 0x00000000, 0x00000000, 0x00000000, false⟩,  -- FLT_CFG
  ⟨0x0400004, [], .status, 0x00000007, 0x00000000, 0x00000000, 0x00000000, 0x00000000, 0x00000000, false⟩,  -- FLT_STAT
  ⟨0x0400008, [], .status, 0x00000000, 0x00000000, 0x00000000, 0x00000000, 0x00000000, 0x00000000, false⟩,  -- FLT_ISO_LO
  ⟨0x040000C, [], .status, 0x00000000, 0x00000000, 0x00000000, 0x00000000, 0x00000000, 0x00000000, false⟩,  -- FLT_ISO_HI
  ⟨0x0400010, [], .status, 0x00000000, 0x00000000, 0x00000000, 0x00000000, 0x00000000, 0x00000000, false⟩,  -- FLT_RING_STAT
  ⟨0x0400014, [], .oper, 0x00000000, 0x000003FF, 0x00000000, 0x00000000, 0x00000000, 0x00000000, true⟩,  -- FLT_RING_RD
  ⟨0x0400018, [], .oper, 0x00000000, 0x00000000, 0x00000000, 0x00000000, 0x00000001, 0x00000000, false⟩,  -- FLT_FIRST_CTL
  ⟨0x040001C, [], .status, 0x00000000, 0x00000000, 0x00000000, 0x00000000, 0x00000000, 0x00000000, false⟩,  -- FLT_FIRST_STAT
  ⟨0x0400020, [(0x4, 8)], .status, 0x00000000, 0x00000000, 0x00000000, 0x00000000, 0x00000000, 0x00000000, false⟩,  -- FLT_FIRST
  ⟨0x0400040, [], .oper, 0x00000000, 0x00001FFF, 0x00000000, 0x00000000, 0x00000000, 0x00000000, true⟩,  -- FLT_NVLOG_IDX
  ⟨0x0400044, [], .status, 0x00000000, 0x00000000, 0x00000000, 0x00000000, 0x00000000, 0x00000000, false⟩,  -- FLT_NVLOG_STAT
  ⟨0x0400060, [(0x4, 8)], .status, 0x00000000, 0x00000000, 0x00000000, 0x00000000, 0x00000000, 0x00000000, false⟩,  -- FLT_NVLOG_DATA
  ⟨0x0400080, [(0x4, 10)], .status, 0x00000000, 0x00000000, 0x00000000, 0xFFFFFFFF, 0x00000000, 0x00000000, false⟩,  -- FLT_CNT
  ⟨0x0400100, [(0x4, 64)], .status, 0x00000000, 0x00000000, 0x00000000, 0x00000000, 0x00000000, 0x00000000, false⟩,  -- FLT_SUM
  ⟨0x0401000, [(0x4, 256)], .sealed, 0x00000000, 0x77777777, 0x00000000, 0x00000000, 0x00000000, 0x00000000, false⟩,  -- FLT_SEV
  ⟨0x0402000, [(0x4, 2048)], .status, 0x00000000, 0x00000000, 0x00000002, 0x00000000, 0x00000000, 0x00000000, false⟩,  -- FLT_SRC_STAT
  ⟨0x0404000, [(0x4, 2048)], .status, 0x00000000, 0x00000000, 0x00000000, 0x0001FFFF, 0x00000000, 0x00000000, false⟩,  -- FLT_SRC_CNT
  ⟨0x0408000, [(0x20, 1024), (0x4, 8)], .status, 0x00000000, 0x00000000, 0x00000000, 0x00000000, 0x00000000, 0x00000000, false⟩  -- FLT_REC
]

/-- Registers of block CNT. -/
def regRowsCNT : List RegRow := [
  ⟨0x0500000, [], .status, 0x00000000, 0x00000000, 0x00000000, 0x00000000, 0x00000000, 0x00000000, false⟩,  -- CNT_STAT
  ⟨0x0500004, [], .oper, 0x00000000, 0x003FFFFF, 0x00000000, 0x00000000, 0x00400000, 0x00000000, false⟩,  -- CNT_RD_CTL
  ⟨0x0500008, [(0x4, 4)], .status, 0x00000000, 0x00000000, 0x00000000, 0x00000000, 0x00000000, 0x00000000, false⟩,  -- CNT_RD_DATA
  ⟨0x0500020, [(0x4, 6)], .status, 0x00000000, 0x00000000, 0x00000000, 0xFFFFFFFF, 0x00000000, 0x00000000, false⟩,  -- CNT_CNT
  ⟨0x0500100, [(0x10, 64)], .oper, 0x0003E800, 0x003FFF1F, 0x00000000, 0x00000000, 0x00000000, 0x00000000, false⟩,  -- CNT_DGRP_CFG
  ⟨0x0500104, [(0x10, 64)], .oper, 0x00000000, 0x001FFFFF, 0x00000000, 0x00000000, 0x00000000, 0x00000000, false⟩,  -- CNT_DGRP_FIRST
  ⟨0x0500108, [(0x10, 64)], .oper, 0x00000001, 0x003FFFFF, 0x00000000, 0x00000000, 0x00000000, 0x00000000, false⟩,  -- CNT_DGRP_COUNT
  ⟨0x050010C, [(0x10, 64)], .status, 0x00000000, 0x00000000, 0x00000000, 0x00000000, 0x00000000, 0x00000000, false⟩,  -- CNT_DGRP_STAT
  ⟨0x0501000, [(0x8, 256)], .oper, 0x00000000, 0x001FFFFF, 0x00000000, 0x00000000, 0x00000000, 0x00000000, false⟩,  -- CNT_TEN_BASE
  ⟨0x0501004, [(0x8, 256)], .oper, 0x00000000, 0x003FFFFF, 0x00000000, 0x00000000, 0x00000000, 0x00000000, false⟩,  -- CNT_TEN_COUNT
  ⟨0x0502000, [(0x4, 128)], .oper, 0x00000000, 0x000001FF, 0x00000000, 0x00000000, 0x00000000, 0x00000000, true⟩,  -- CNT_PERF_TEN
  ⟨0x0510000, [(0x8, 2048)], .status, 0x00000000, 0x00000000, 0x00000000, 0x00000000, 0x00000000, 0x00000000, false⟩,  -- CNT_PERF_LO
  ⟨0x0510004, [(0x8, 2048)], .status, 0x00000000, 0x00000000, 0x00010000, 0x00000000, 0x00000000, 0x00000000, false⟩  -- CNT_PERF_HI
]

/-- Registers of block TST. -/
def regRowsTST : List RegRow := [
  ⟨0x1B00000, [], .status, 0x00000000, 0x00000000, 0x00000000, 0x00000000, 0x00000000, 0x00000000, false⟩,  -- TST_STAT
  ⟨0x1B00004, [], .oper, 0x00000000, 0x0000003E, 0x00000000, 0x00000000, 0x00000001, 0x00000000, false⟩,  -- TST_PROBE_CTL
  ⟨0x1B00008, [], .oper, 0x00000000, 0x000107FF, 0x00000000, 0x00000000, 0x00000000, 0x00000000, true⟩,  -- TST_INJ_CTL
  ⟨0x1B0000C, [], .oper, 0x00000000, 0x000001FF, 0x00000000, 0x00000000, 0x00000000, 0x00000000, false⟩,  -- TST_MEMINJ_CTL
  ⟨0x1B00010, [], .oper, 0x00000000, 0xFFFFFFFF, 0x00000000, 0x00000000, 0x00000000, 0x00000000, false⟩,  -- TST_MEMINJ_LOC_LO
  ⟨0x1B00014, [], .oper, 0x00000000, 0x0000FFFF, 0x00000000, 0x00000000, 0x00000000, 0x00000000, false⟩,  -- TST_MEMINJ_LOC_HI
  ⟨0x1B00040, [(0x4, 5)], .status, 0x00000000, 0x00000000, 0x00000000, 0xFFFFFFFF, 0x00000000, 0x00000000, false⟩,  -- TST_CNT
  ⟨0x1B01000, [(0x8, 388)], .oper, 0x00000000, 0x000000FF, 0x00000000, 0x00000000, 0x00000000, 0x00000000, true⟩,  -- TST_LANE_CFG
  ⟨0x1B01004, [(0x8, 388)], .status, 0x00000000, 0x00000000, 0x00000002, 0x00000000, 0x00000000, 0x00000000, false⟩,  -- TST_LANE_STAT
  ⟨0x1B03000, [(0x4, 388)], .status, 0x00000000, 0x00000000, 0x00000000, 0xFFFFFFFF, 0x00000000, 0x00000000, false⟩  -- TST_LANE_ERR
]

/-- Registers of block DEV. -/
def regRowsDEV : List RegRow := [
  ⟨0x0000000, [], .status, 0x00003240, 0x00000000, 0x00000000, 0x00000000, 0x00000000, 0x00000000, false⟩,  -- DEV_ID
  ⟨0x0000004, [], .status, 0x00000000, 0x00000000, 0x00000000, 0x00000000, 0x00000000, 0x00000000, false⟩,  -- DEV_SERIAL_LO
  ⟨0x0000008, [], .status, 0x00000000, 0x00000000, 0x00000000, 0x00000000, 0x00000000, 0x00000000, false⟩,  -- DEV_SERIAL_HI
  ⟨0x000000C, [], .status, 0x00000002, 0x00000000, 0x00000000, 0x00000000, 0x00000000, 0x00000000, false⟩,  -- DEV_STATE
  ⟨0x0000010, [], .status, 0x00000000, 0x00000000, 0x00000000, 0x00000000, 0x00000000, 0x00000000, false⟩,  -- DEV_STATE_TIME
  ⟨0x0000014, [], .oper, 0x00000000, 0x00000000, 0x00000000, 0x00000000, 0xFFFF0001, 0x00000000, false⟩,  -- DEV_CTL
  ⟨0x0000018, [], .status, 0x00000000, 0x00000000, 0x00000000, 0x00000000, 0x00000000, 0x00000000, false⟩,  -- DEV_TICK_LO
  ⟨0x000001C, [], .status, 0x00000000, 0x00000000, 0x00000000, 0x00000000, 0x00000000, 0x00000000, false⟩,  -- DEV_TICK_HI
  ⟨0x0000040, [(0x4, 8)], .oper, 0x00000000, 0x00000000, 0x00000000, 0x00000000, 0x00000000, 0xFFFFFFFF, false⟩,  -- DEV_HOST_SCRATCH
  ⟨0x0000060, [(0x4, 4)], .status, 0x00000000, 0x00000000, 0x00000000, 0x00000000, 0x00000000, 0x00000000, false⟩,  -- DEV_FW_VER
  ⟨0x0000070, [(0x4, 4)], .status, 0x00000000, 0x00000000, 0x00000000, 0x00000000, 0x00000000, 0x00000000, false⟩,  -- DEV_CFG_VER
  ⟨0x0000080, [(0x4, 8)], .status, 0x00000000, 0x00000000, 0x00000000, 0x00000000, 0x00000000, 0x00000000, false⟩,  -- DEV_CFG_LABEL
  ⟨0x00000C0, [(0x4, 5)], .status, 0x00000000, 0x00000000, 0x00000000, 0xFFFFFFFF, 0x00000000, 0x00000000, false⟩  -- DEV_CNT
]

/-- The rows of the block that an offset lies in (Table 24-1). -/
def regRowsAt (a : Nat) : List RegRow :=
  match a / 0x100000 with
  | 0 => regRowsDEV
  | 1 => regRowsBOOT
  | 2 => regRowsCLK
  | 3 => regRowsPWR
  | 4 => regRowsFLT
  | 5 => regRowsCNT
  | 6 => regRowsHIF
  | 7 => regRowsHIF
  | 8 => regRowsLIN
  | 9 => regRowsLIN
  | 10 => regRowsPRS
  | 11 => regRowsSIG
  | 12 => regRowsFTB
  | 13 => regRowsACT
  | 16 => regRowsBUF
  | 17 => regRowsCGM
  | 18 => regRowsSCH
  | 20 => regRowsFAB
  | 21 => regRowsFAB
  | 22 => regRowsDRC
  | 23 => regRowsDRC
  | 24 => regRowsSCR
  | 25 => regRowsPAIR
  | 26 => regRowsUPD
  | 27 => regRowsTST
  | 28 => regRowsTIM
  | _ => if 0x10000000 ≤ a then regRowsHIF else []

end Sys2Proof.Machine
end

