-- ==== Sys2Proof/Machine/Operands.lean ====
section
/-! DEFINITION. Bit fields, byte orders and the shapes in which the spec's operands come: fields of a register word (R10), little-endian values of ring entries and tables (R489), network-order values of frames (R79), signed fields. -/

namespace Sys2Proof.Machine

/-- Bits [lo + len − 1 : lo] of a number. -/
def bits (n lo len : Nat) : Nat := n / 2 ^ lo % 2 ^ len

/-- One bit of a number. -/
def bit (n i : Nat) : Bool := n / 2 ^ i % 2 == 1

/-- A number with bits [lo + len − 1 : lo] replaced by `v`. -/
def withBits (n lo len v : Nat) : Nat := n - bits n lo len * 2 ^ lo + v % 2 ^ len * 2 ^ lo

/-- A field of a register word. -/
def fget (w : Word) (lo len : Nat) : Nat := bits w.toNat lo len

/-- A register word with one field replaced. -/
def fset (w : Word) (lo len v : Nat) : Word := Word.ofNat (withBits w.toNat lo len v)

/-- 0 or 1. -/
def b2n (b : Bool) : Nat := if b then 1 else 0

/-- A two's complement field of `len` bits as an integer. -/
def signed (len n : Nat) : Int := if n % 2 ^ len < 2 ^ (len - 1) then (n % 2 ^ len : Nat) else (n % 2 ^ len : Nat) - (2 ^ len : Nat)

/-- An integer as a two's complement field of `len` bits. -/
def ofSigned (len : Nat) (i : Int) : Nat := (i % (2 ^ len : Nat)).toNat

/-- The byte that holds the low 8 bits of a number. -/
def byteOf (n : Nat) : Byte := BitVec.ofNat 8 n

/-- `k` bytes of a number, least significant byte first (R489). -/
def leBytes : Nat → Nat → Bytes
  | 0, _ => []
  | k + 1, n => byteOf n :: leBytes k (n / 256)

/-- The number that bytes spell, least significant byte first. -/
def ofLe : Bytes → Nat
  | [] => 0
  | b :: r => b.toNat + 256 * ofLe r

/-- `k` bytes of a number, most significant byte first: wire order (Table 0-3). -/
def beBytes (k n : Nat) : Bytes := (leBytes k n).reverse

/-- The number that bytes spell, most significant byte first. -/
def ofBe (b : Bytes) : Nat := b.foldl (fun a x => 256 * a + x.toNat) 0

/-- `n` bytes from offset `o`; bytes past the end read 0. -/
def slice (b : Bytes) (o n : Nat) : Bytes :=
  let c := (b.drop o).take n
  c ++ List.replicate (n - c.length) 0

/-- The big-endian number of `n` bytes at offset `o`. -/
def beAt (b : Bytes) (o n : Nat) : Nat := ofBe (slice b o n)

/-- The little-endian number of `n` bytes at offset `o`. -/
def leAt (b : Bytes) (o n : Nat) : Nat := ofLe (slice b o n)

/-- The byte at an offset, 0 past the end. -/
def byteAt (b : Bytes) (o : Nat) : Nat := (b.getD o 0).toNat

/-- Bytes with those at offset `o` replaced by `v`, within the length. -/
def patch (b : Bytes) (o : Nat) (v : Bytes) : Bytes :=
  b.take o ++ v.take (b.length - o) ++ b.drop (o + v.length)

/-- Bytes cut or filled with 0 to `n`. -/
def fit (n : Nat) (b : Bytes) : Bytes := slice b 0 n

/-- A division that rounds up. -/
def ceilDiv (a b : Nat) : Nat := (a + b - 1) / b

/-- The base-2 logarithm rounded down; 0 for 0. -/
def log2 (n : Nat) : Nat := Nat.log2 n

/-- The lowest `n` numbers from `a`. -/
def upFrom (a n : Nat) : List Nat := (List.range n).map (a + ·)

/-- The positions of the 1 bits among the lowest `n` bits, in ascending order. -/
def onesOf (n w : Nat) : List Nat := (List.range n).filter (fun i => bit w i)

/-- The number whose 1 bits are at the given positions. -/
def ofOnes (l : List Nat) : Nat := l.dedup.foldl (fun a i => a + 2 ^ i) 0

/-- How many bits are 1 among the lowest `n`. -/
def popCount (n w : Nat) : Nat := (onesOf n w).length

/-- Adds 1 without passing a limit. -/
def satSucc (lim n : Nat) : Nat := if n < lim then n + 1 else lim

/-- A value held between two bounds. -/
def clamp (lo hi n : Nat) : Nat := if n < lo then lo else if hi < n then hi else n

/-- Does an offset fall on a register of the row? -/
def dimsHit : List (Nat × Nat) → Nat → Bool
  | [], o => o == 0
  | (st, ct) :: r, o => decide (o / st < ct) && dimsHit r (o % st)

/-- Does the row cover the offset? -/
def RegRow.hit (r : RegRow) (a : Nat) : Bool := decide (r.base ≤ a) && dimsHit r.dims (a - r.base)

/-- The row of the register map at an offset, none at an unassigned address (R9, R589). -/
def regRow (a : Nat) : Option RegRow := (regRowsAt a).find? (fun r => r.hit a)

/-- How many elements satisfy a test. -/
def countIf {α : Type} (f : α → Bool) (l : List α) : Nat := (l.filter f).length

end Sys2Proof.Machine
end

