-- ==== Sys2Proof/Machine/Check.lean ====
section
/-! DEFINITION. The check codes of the spec (R600, R601, Table 0-9), and the hash of its digests (R349, R371). -/

namespace Sys2Proof.Machine

/-- One bit of a reflected CRC register. -/
def crcBitR (poly r : Nat) : Nat := if r % 2 = 1 then Nat.xor (r / 2) poly else r / 2

/-- One byte of a reflected CRC register. -/
def crcByteR (poly r : Nat) (b : Byte) : Nat := Nat.repeat (crcBitR poly) 8 (Nat.xor r b.toNat)

/-- CRC-32C in its common form (R600). -/
def crc32c (b : Bytes) : Nat := Nat.xor (b.foldl (crcByteR 0x82F63B78) 0xFFFFFFFF) 0xFFFFFFFF

/-- One bit of a CRC register of `w` bits, most significant bit first. -/
def crcBitM (w poly r : Nat) : Nat :=
  if r / 2 ^ (w - 1) % 2 = 1 then Nat.xor (r * 2 % 2 ^ w) poly else r * 2 % 2 ^ w

/-- One byte of a CRC register of `w` bits, most significant bit first. -/
def crcByteM (w poly r : Nat) (b : Byte) : Nat := Nat.repeat (crcBitM w poly) 8 (Nat.xor r (b.toNat * 2 ^ (w - 8)))

/-- CRC-8 of trail and Landing messages (R601). -/
def crc8 (b : Bytes) : Nat := b.foldl (crcByteM 8 0x07) 0

/-- CRC-16 of cells (R601). -/
def crc16 (b : Bytes) : Nat := b.foldl (crcByteM 16 0x1021) 0xFFFF

/-- CRC-16 of the line integrity tag (R601, R317). -/
def crc16tag (b : Bytes) : Nat := b.foldl (crcByteM 16 0x8BB7) 0xFFFF

/-- The Ethernet FCS of a frame's bytes: CRC-32 of IEEE 802.3, in wire order.
PRESUMED: the spec names IEEE 802.3 and does not restate the polynomial. -/
def fcs (b : Bytes) : Bytes := leBytes 4 (Nat.xor (b.foldl (crcByteR 0xEDB88320) 0xFFFFFFFF) 0xFFFFFFFF)

/-- The one's complement sum of 16-bit words, folded (an IPv4 or UDP checksum before its complement). -/
def onesSum : Bytes → Nat
  | a :: b :: r => let t := a.toNat * 256 + b.toNat + onesSum r; t % 65536 + t / 65536
  | [a] => a.toNat * 256
  | [] => 0

/-- Rotation of a 64-bit word to the right. -/
def rotr64 (n k : Nat) : Nat := Nat.lor (n / 2 ^ k) (n * 2 ^ (64 - k) % 2 ^ 64)

def shaBig0 (x : Nat) : Nat := Nat.xor (Nat.xor (rotr64 x 28) (rotr64 x 34)) (rotr64 x 39)
def shaBig1 (x : Nat) : Nat := Nat.xor (Nat.xor (rotr64 x 14) (rotr64 x 18)) (rotr64 x 41)
def shaSml0 (x : Nat) : Nat := Nat.xor (Nat.xor (rotr64 x 1) (rotr64 x 8)) (x / 2 ^ 7)
def shaSml1 (x : Nat) : Nat := Nat.xor (Nat.xor (rotr64 x 19) (rotr64 x 61)) (x / 2 ^ 6)

/-- The primes below 410: the first eighty. -/
def shaPrimes : List Nat := (List.range 410).filter (fun p => decide (2 ≤ p) && (List.range 21).all (fun d => d < 2 || d == p || p % d != 0))

/-- The largest root below `r + 2 ^ k` whose power `e` is at most `n`, bit by bit from the top. -/
def rootBits (e n : Nat) : Nat → Nat → Nat
  | 0, r => r
  | k + 1, r => rootBits e n k (if (r + 2 ^ k) ^ e ≤ n then r + 2 ^ k else r)

/-- The first 64 bits of the fractional part of the root of order `e` of a prime (FIPS 180-4, which R371 names). -/
def shaFraction (e p : Nat) : Nat := rootBits e (p * 2 ^ (64 * e)) 69 0 % 2 ^ 64

/-- The round constants of SHA-384: cube roots of the first eighty primes. -/
def shaK : List Nat := shaPrimes.map (shaFraction 3)

/-- The initial chaining value of SHA-384: square roots of the ninth to the sixteenth prime. -/
def shaInit : List Nat := ((shaPrimes.drop 8).take 8).map (shaFraction 2)

/-- The message schedule of one block, newest word first. -/
def shaSched : Nat → List Nat → List Nat
  | 0, w => w
  | k + 1, w => shaSched k ((shaSml1 (w.getD 1 0) + w.getD 6 0 + shaSml0 (w.getD 14 0) + w.getD 15 0) % 2 ^ 64 :: w)

/-- One round on the eight working words. -/
def shaRound (h : List Nat) (kw : Nat) : List Nat :=
  match h with
  | [a, b, c, d, e, f, g, i] =>
    let t1 := i + shaBig1 e + Nat.xor (Nat.land e f) (Nat.land (2 ^ 64 - 1 - e) g) + kw
    let t2 := shaBig0 a + Nat.xor (Nat.xor (Nat.land a b) (Nat.land a c)) (Nat.land b c)
    [(t1 + t2) % 2 ^ 64, a, b, c, (d + t1) % 2 ^ 64, e, f, g]
  | _ => h

/-- One block of 16 words. -/
def shaBlock (h : List Nat) (w : List Nat) : List Nat :=
  let sched := (shaSched 64 w.reverse).reverse
  let out := (List.zipWith (· + ·) shaK sched).foldl shaRound h
  List.zipWith (fun x y => (x + y) % 2 ^ 64) h out

/-- Words of 8 bytes, most significant byte first. -/
def beWords : Nat → Bytes → List Nat
  | 0, _ => []
  | k + 1, b => ofBe (b.take 8) :: beWords k (b.drop 8)

/-- The blocks of a padded message. -/
def shaBlocks : Nat → Bytes → List Nat → List Nat
  | 0, _, h => h
  | k + 1, b, h => shaBlocks k (b.drop 128) (shaBlock h (beWords 16 (b.take 128)))

/-- SHA-384 of FIPS 180-4, 48 bytes. PRESUMED: the spec names the hash and does not restate it. -/
def sha384 (b : Bytes) : Bytes :=
  let pad := (128 - (b.length + 17) % 128) % 128
  let m := b ++ [0x80] ++ List.replicate pad 0 ++ beBytes 16 (8 * b.length)
  ((shaBlocks (m.length / 128) m shaInit).take 6).flatMap (beBytes 8)

end Sys2Proof.Machine
end

