-- ==== Sys2Proof/Machine/Sources.lean ====
section
/-! DEFINITION. The fault sources of Table 20-2 (R525, R526): number, default severity, kind. -/

namespace Sys2Proof.Machine

/-- A run of assigned fault sources: first number, how many, default severity, and whether they are levels (R526). -/
structure SrcRow where
  first : Nat
  count : Nat
  sev : Nat
  level : Bool
  deriving DecidableEq, Repr

/-- Table 20-2, the sources of the AON blocks and of FD. -/
def srcRowsFd : List SrcRow := [
  ⟨0, 2, 2, false⟩,      -- DEV_STAIR_FD, DEV_STAIR_QD
  ⟨16, 1, 4, true⟩,      -- BOOT_HOLD
  ⟨17, 2, 1, false⟩,     -- BOOT_NVM_REREAD, BOOT_LC
  ⟨32, 4, 2, true⟩,      -- CLK_SYSREF_LOSS, CLK_LINEREF_LOSS, CLK_FABREF_LOSS, CLK_PCIEREF_LOSS
  ⟨36, 1, 1, true⟩,      -- CLK_PPS_LOSS
  ⟨37, 2, 4, true⟩,      -- CLK_ROOT_LOSS
  ⟨39, 2, 1, true⟩,      -- CLK_FREQ
  ⟨48, 23, 2, true⟩,     -- CLK_PLL_LOSS
  ⟨96, 1, 4, true⟩,      -- PWR_VIN_WARN
  ⟨97, 1, 1, false⟩,     -- PWR_REC_LOST
  ⟨98, 1, 1, true⟩,      -- PWR_VBAT_LOW
  ⟨99, 2, 2, true⟩,      -- PWR_VIO18, PWR_TEMP_WARN
  ⟨101, 1, 4, true⟩,     -- PWR_TEMP_HIGH
  ⟨102, 1, 4, false⟩,    -- PWR_TRIP
  ⟨104, 7, 4, true⟩,     -- PWR_RAIL
  ⟨112, 6, 1, false⟩,    -- PWR_MAINT_LATE
  ⟨176, 1, 1, false⟩,    -- CNT_DUMP_LOST
  ⟨192, 1, 1, false⟩,    -- HIF_RING_STOP
  ⟨193, 1, 2, true⟩,     -- HIF_LINK_DOWN
  ⟨256, 20, 2, true⟩,    -- LIN_LANE_OOS
  ⟨288, 20, 1, true⟩,    -- LIN_LINK_FAULT
  ⟨320, 20, 1, true⟩,    -- LIN_REMOTE_FAULT
  ⟨352, 20, 2, true⟩,    -- LIN_PFC_STORM
  ⟨384, 20, 1, false⟩,   -- PRS_FRAG_ECC
  ⟨416, 20, 1, false⟩,   -- SIG_STORE_ECC
  ⟨440, 1, 2, true⟩,     -- SIG_STORE_LOST
  ⟨448, 1, 2, false⟩,    -- FTB_TABLE_ECC
  ⟨464, 1, 2, false⟩,    -- ACT_MEM_ECC
  ⟨480, 1, 0, false⟩,    -- SCR_ECC_CORR
  ⟨481, 1, 2, false⟩,    -- SCR_ECC_UNCORR
  ⟨482, 1, 1, false⟩,    -- SCR_TEST_FAIL
  ⟨483, 1, 2, false⟩]    -- SCR_REPAIR_FULL

/-- Table 20-2, the sources of QD, the pair and the update agent. -/
def srcRowsQd : List SrcRow := [
  ⟨512, 16, 1, true⟩,    -- BUF_POOL_CRIT
  ⟨528, 1, 2, false⟩,    -- BUF_SRAM_ECC
  ⟨640, 8, 2, true⟩,     -- FAB_LANE_OOS
  ⟨648, 8, 1, true⟩,     -- FAB_LANE_DEF
  ⟨656, 8, 2, true⟩,     -- FAB_GRP_SF
  ⟨664, 8, 1, true⟩,     -- FAB_GRP_SD
  ⟨672, 8, 2, true⟩,     -- FAB_BKP_STUCK
  ⟨680, 8, 1, false⟩,    -- FAB_FORCED_SLIP
  ⟨688, 2, 2, true⟩,     -- FAB_SRQ_INC, FAB_ARCH
  ⟨690, 1, 0, false⟩,    -- FAB_PARTNER
  ⟨896, 24, 2, true⟩,    -- DRC_TRAIN_FAIL
  ⟨920, 24, 2, true⟩,    -- DRC_DI_HOT
  ⟨944, 24, 1, false⟩,   -- DRC_RETRAIN_LATE
  ⟨968, 24, 1, false⟩,   -- DRC_LINK_CRC
  ⟨992, 24, 1, false⟩,   -- DRC_TAG_FAIL
  ⟨1016, 24, 1, false⟩,  -- DRC_BUF_RETIRED
  ⟨1040, 24, 2, true⟩,   -- DRC_DI_FAIL
  ⟨1152, 2, 2, true⟩,    -- PAIR_ARB_LOST, PAIR_LEASE_EXP
  ⟨1154, 1, 0, false⟩,   -- PAIR_LANDING
  ⟨1155, 1, 2, true⟩,    -- PAIR_GALLERY_LOST
  ⟨1156, 1, 0, false⟩,   -- PAIR_GALLERY
  ⟨1157, 1, 1, false⟩,   -- PAIR_DIVERGE
  ⟨1158, 3, 2, true⟩,    -- PAIR_DIGEST_MM, PAIR_UNSYNC, PAIR_STALE
  ⟨1161, 1, 4, true⟩,    -- PAIR_DUAL_ACTIVE
  ⟨1162, 1, 1, false⟩,   -- PAIR_PROBE
  ⟨1163, 1, 2, true⟩,    -- PAIR_GAL_LANE_OOS
  ⟨1164, 1, 1, true⟩,    -- PAIR_GAL_LANE_DEF
  ⟨1216, 1, 1, false⟩,   -- UPD_STAGE_FAIL
  ⟨1217, 1, 2, true⟩,    -- UPD_FALLBACK
  ⟨1218, 2, 1, false⟩,   -- UPD_TRIAL_LOST, UPD_WEAR_SLOW
  ⟨1220, 1, 2, true⟩]    -- UPD_WEAR_LIMIT

/-- Table 20-2. -/
def srcRows : List SrcRow := srcRowsFd ++ srcRowsQd

/-- The row of a source; none for a reserved number (R525). -/
def srcRow (n : Nat) : Option SrcRow := srcRows.find? (fun r => decide (r.first ≤ n) && decide (n < r.first + r.count))

/-- Is the source assigned (R525)? -/
def srcAssigned (n : Nat) : Bool := (srcRow n).isSome

/-- Is the source a level (R526)? -/
def srcLevel (n : Nat) : Bool := match srcRow n with | some r => r.level | none => false

/-- The default severity of a source (R527); a reserved source reads INFO. -/
def srcDefault (n : Nat) : Nat := match srcRow n with | some r => r.sev | none => 0

namespace Src
def stairFd : Nat := 0
def stairQd : Nat := 1
def bootHold : Nat := 16
def nvmReread : Nat := 17
def bootLc : Nat := 18
def sysRef : Nat := 32
def ppsLoss : Nat := 36
def rootLoss (d : Nat) : Nat := 37 + d
def clkFreq (r : Nat) : Nat := 39 + r
def pllLoss (p : Nat) : Nat := 48 + p
def vinWarn : Nat := 96
def recLost : Nat := 97
def vbatLow : Nat := 98
def vio18 : Nat := 99
def tempWarn : Nat := 100
def tempHigh : Nat := 101
def trip : Nat := 102
def rail (k : Nat) : Nat := 104 + k
def maintLate (a : Nat) : Nat := 112 + a
def dumpLost : Nat := 176
def ringStop : Nat := 192
def linkDown : Nat := 193
def linLaneOos (g : Nat) : Nat := 256 + g
def linLinkFault (g : Nat) : Nat := 288 + g
def linRemoteFault (g : Nat) : Nat := 320 + g
def linPfcStorm (g : Nat) : Nat := 352 + g
def fragEcc (n : Nat) : Nat := 384 + n
def sigStoreEcc (n : Nat) : Nat := 416 + n
def sigStoreLost : Nat := 440
def tableEcc : Nat := 448
def actEcc : Nat := 464
def scrCorr : Nat := 480
def scrUncorr : Nat := 481
def scrTestFail : Nat := 482
def scrRepairFull : Nat := 483
def poolCrit (r k : Nat) : Nat := 512 + 8 * r + k
def sramEcc : Nat := 528
def fabLaneOos (k : Nat) : Nat := 640 + k
def fabLaneDef (k : Nat) : Nat := 648 + k
def fabGrpSf (k : Nat) : Nat := 656 + k
def fabGrpSd (k : Nat) : Nat := 664 + k
def fabBkpStuck (k : Nat) : Nat := 672 + k
def fabForcedSlip (k : Nat) : Nat := 680 + k
def fabSrqInc : Nat := 688
def fabArch : Nat := 689
def fabPartner : Nat := 690
def drcTrainFail (i : Nat) : Nat := 896 + i
def drcHot (i : Nat) : Nat := 920 + i
def drcRetrainLate (i : Nat) : Nat := 944 + i
def drcLinkCrc (i : Nat) : Nat := 968 + i
def drcTagFail (i : Nat) : Nat := 992 + i
def drcBufRetired (i : Nat) : Nat := 1016 + i
def drcFail (i : Nat) : Nat := 1040 + i
def arbLost : Nat := 1152
def leaseExp : Nat := 1153
def landing : Nat := 1154
def galleryLost : Nat := 1155
def gallery : Nat := 1156
def diverge : Nat := 1157
def digestMm : Nat := 1158
def unsync : Nat := 1159
def stale : Nat := 1160
def dualActive : Nat := 1161
def probe : Nat := 1162
def galLaneOos : Nat := 1163
def galLaneDef : Nat := 1164
def stageFail : Nat := 1216
def fallback : Nat := 1217
def trialLost : Nat := 1218
def wearSlow : Nat := 1219
def wearLimit : Nat := 1220
end Src

/-- A location code of Table 1-6 (R23). -/
def locCode (die slc tile bank macr row col : Nat) : Nat :=
  die % 4 * 2 ^ 42 + slc % 64 * 2 ^ 36 + tile % 32 * 2 ^ 31 + bank % 32 * 2 ^ 26 + macr % 64 * 2 ^ 20 + row % 4096 * 2 ^ 8 + col % 256

/-- The location code of a whole slice or die part: every field below SLICE holds all ones (R24). -/
def locSlice (die slc : Nat) : Nat := locCode die slc 31 31 63 4095 255

/-- The location code of the package-level parts: DIE = 2, every lower field all ones (R24, R527). -/
def locPackage : Nat := locSlice 2 63

/-- The location code of DRAM interface i as a whole (R320): its slice and its half, every field below TILE all ones. -/
def locDi (i : Nat) : Nat := locCode 1 (28 + i / 2) (i % 2) 31 63 4095 255

/-- The SLICE field of a location code (Table 1-6). -/
def locSliceOf (loc : Nat) : Nat := bits loc 36 6

/-- The DIE field of a location code (Table 1-6). -/
def locDieOf (loc : Nat) : Nat := bits loc 42 2

end Sys2Proof.Machine
end

