-- ==== Sys2Proof/Machine/State.lean ====
section
/-! DEFINITION. The state of the KH-3240: every register, memory, queue, counter, mode and pin that the spec gives it, as plain data, and the queue of commands that wait. -/

namespace Sys2Proof.Machine

/-- The top-level states of Table 1-8 (R32). -/
inductive TopState where
  | off | reset | load | verify | apply | bringup | run | hold
  deriving DecidableEq, Repr

/-- The PTP hardware clock of R58 and R423: seconds (48 bits), nanoseconds, and a fraction in units of 2^-32 ns. -/
structure Ptp where
  sec : Nat := 0
  ns : Nat := 0
  frac : Nat := 0
  deriving DecidableEq, Repr

/-- A fault report as its latch holds it (R533): place, detail, the CD38 tick and PTP time of the latch. -/
structure Report where
  loc : Nat
  detail : Nat
  tick : Nat
  time : Ptp
  /-- The severity in force at the report (R532). -/
  sev : Nat
  /-- TIME_STATE at the latch (Table 20-6). -/
  timeState : Nat
  injected : Bool
  deriving DecidableEq, Repr

/-- The fault collector (chapter 20). -/
structure FltSt where
  /-- One latch per source (R534), by source number. -/
  latch : NMap Report := []
  /-- Sources whose cause is present, with the place and detail of the cause (R526). -/
  cause : NMap (Nat × Nat) := []
  /-- Sources whose STATUS is 1 (R528). -/
  status : List Nat := []
  /-- Sources that hold a SERVICE reaction, each with the slice of the reaction; 63 is the whole device (R529). -/
  hold : List (Nat × Nat) := []
  /-- Sources whose last report was injected (R541). -/
  injected : List Nat := []
  /-- The last SEQ given to an own record (R535). -/
  seq : Nat := 0
  /-- The tick of the last record of a source (R534). -/
  lastRec : NMap Nat := []
  /-- The tick and the source of the report in the first-fault register (R533). -/
  firstAt : Option (Nat × Nat) := none
  /-- The latest tick with a report that qualifies for first-fault capture: the first such report of it, and its words (R533). -/
  firstOf : Option (Nat × Nat × List Word) := none
  /-- The tick of the last clear of the first-fault register (R533). -/
  firstFrom : Nat := 0
  /-- FAULT messages waiting for the Landing interface: (SOURCE, SLICE, DIE) (R531). -/
  msgs : List (Nat × Nat × Nat) := []
  /-- Own records waiting for the Gallery FAULT stream, 8 words each, with the tick of the record (R538). -/
  gallery : List (Nat × List Word) := []
  /-- Records waiting for the NVM fault log (R539). -/
  nvWait : List (List Word) := []
  /-- Ticks at which the last 100 records were taken for the NVM log (R539). -/
  nvTimes : List Nat := []
  /-- A report that was merged in its latch began a SERVICE reaction that transmitters and pools have not followed yet (R529, R534). -/
  follow : Bool := false
  deriving DecidableEq, Repr

/-- What the SECDED code of a stored word says (R516 to R518): good, one wrong bit, uncorrectable, or poisoned. -/
inductive EccErr where
  | good | single (col : Nat) | uncorr | poison
  deriving DecidableEq, Repr

/-- One shared-scratch operation of a pipeline's queue (R511): SET or CLEAR of a mask in a word. -/
structure ShOp where
  set : Bool
  word : Nat
  mask : Nat
  deriving DecidableEq, Repr

/-- The low half held for a full-word write through a window (R513): its BAR0 offset, memory, word and value. -/
structure ScrHeld where
  addr : Nat
  mem : Nat
  word : Nat
  low : Nat
  deriving DecidableEq, Repr

/-- Scratch memory (chapter 19). Word w of memory m has key m × 2^23 + w; memories 0 to 19 are the pipeline
scratchpads and memory 20 is the shared scratch. -/
structure ScrSt where
  words : NMap Nat := []
  err : NMap EccErr := []
  /-- Each pipeline's queue of shared-scratch operations, oldest first (R511). -/
  queue : NMap (List ShOp) := []
  /-- The pipeline at which the round robin of each shared bank goes on (R511). -/
  bankAt : NMap Nat := []
  held : Option ScrHeld := none
  /-- The high half that a window read of a low half latched: memory, word, value (R513). -/
  latch : Option (Nat × Nat × Nat) := none
  /-- The next region each memory tests (R519). -/
  region : NMap Nat := []
  /-- Spare words used by each macro, by its location code (R521). -/
  spares : NMap Nat := []
  /-- A macro has run out of spares since VIN became good (Table 19-8). -/
  full : Bool := false
  /-- The tick of the last correctable error of a word (R516). -/
  lastCorr : NMap Nat := []
  /-- Regions whose test step is due at once (R516), key memory × 2^14 + region. -/
  dueNow : List Nat := []
  deriving DecidableEq, Repr

/-- A statistics counter pair (R543). -/
structure Pair where
  frames : Nat := 0
  bytes : Nat := 0
  ovfF : Bool := false
  ovfB : Bool := false
  deriving DecidableEq, Repr

/-- A held snapshot of a dump group (R551, R552), and how much of its dump is written. -/
structure Snapshot where
  seq : Nat
  epoch : Ptp
  timeState : Nat
  perfKind : Bool
  ring : Nat
  first : Nat
  count : Nat
  skippedBefore : Bool
  tick : Nat
  pairs : NMap Pair
  perf : NMap Nat
  perfOvf : List Nat
  /-- Entries written: 0 none, n + 1 the header and n data entries. -/
  written : Nat := 0
  late : Bool := false
  deriving DecidableEq, Repr

/-- Counters and dumps (chapter 21). -/
structure CntSt where
  pairs : NMap Pair := []
  /-- The baseline offset of a pair, frames and bytes (R348, R546). -/
  offset : NMap (Nat × Nat) := []
  /-- Performance event counters (R547) and those whose OVF is set. -/
  perf : NMap Nat := []
  perfOvf : List Nat := []
  /-- The snapshot each dump group holds (R552). -/
  snaps : NMap Snapshot := []
  /-- The DUMP_SEQ of the last epoch taken or skipped by each group (Table 21-2). -/
  seq : NMap Nat := []
  /-- Groups with an epoch skipped since their last dump (Table 21-2, FLAGS). -/
  skipped : List Nat := []
  deriving DecidableEq, Repr

/-- An activity of the maintenance arbiter that is due, or whose step runs, on a resource (R566, R567). -/
structure Maint where
  act : Nat
  res : Nat
  /-- The tick at which it fell due. -/
  due : Nat
  late : Bool := false
  deriving DecidableEq, Repr

/-- Slices and maintenance (chapter 22). The state of slice s is `PWR_SLICE_STAT[s].STATE`. -/
structure SlcSt where
  /-- The tick of the REMOVE of a draining slice, and its limit in ticks (R562). -/
  drain : NMap (Nat × Nat) := []
  due : List Maint := []
  running : List Maint := []
  /-- Entries (copy, bd, mac) that flushes recorded for copies of sleeping slices would have removed (R570). -/
  flushes : List (Nat × Nat × Nat) := []
  /-- Slices that went from JOINING to ENTERING without having joined: their logic stays as it was in JOINING (R47, R563). -/
  unjoined : List Nat := []
  deriving DecidableEq, Repr

/-- A probe frame under way (R583): its pipeline, whether it is a standby's own (R356), its bytes (R582). -/
structure Probe where
  pipe : Nat
  standby : Bool
  bytes : Bytes
  /-- Its buffer, once it is admitted (R583). -/
  buf : Option Nat := none
  deriving DecidableEq, Repr

/-- What the balls with boundary-scan cells carry (R574 to R576): the device's own signals, the boundary-scan register, a pulse or a train on the AC lanes
besides it, high impedance, or the scan chains. -/
inductive TapPins where
  | device | bscan (w : Nat) | pulse (w : Nat) | train (w : Nat) | highz | chains
  deriving DecidableEq, Repr

/-- Test access (chapter 23). The instruction in force is `TST_STAT.INSTR`. -/
structure TstSt where
  /-- The word of the boundary-scan register that SAMPLE/PRELOAD leaves for the driving instructions (R574). -/
  bscan : Nat := 0
  /-- What the balls carry. -/
  pins : TapPins := .device
  /-- The data register between TDI and TDO: its length in bits and the value it captures (R574, Table 23-2). -/
  dr : Nat × Nat := (32, 0)
  /-- Probe frames under way, by PROBE_SEQ (R583). -/
  probes : NMap Probe := []
  /-- Frames that a near loopback returns to its own receiver, oldest first, by test entry; for a line port the entry of its first lane (R580). -/
  loop : NMap (List Bytes) := []
  probeSeq : Nat := 0
  deriving DecidableEq, Repr
/-- A frame on its way from node 160 to host memory, or a sample record: its host block and its stored bytes (R494, R497, R499). -/
structure HostFrame where
  sample : Bool := false
  dropped : Bool := false
  trunc : Bool := false
  noMeta : Bool := false
  reason : Nat := 0
  tenant : Nat := 0
  frameLen : Nat := 0
  /-- The ingress pipeline, for SAMPLE_DROP, and the pool buffer that a sample record holds (R189). -/
  pipe : Nat := 0
  buf : Nat := 0
  block : Bytes := []
  bytes : Bytes := []
  deriving DecidableEq, Repr

/-- The host interface (chapter 18). Ring r of function f has key f × 64 + r; its indices and state are its registers. -/
structure HifSt where
  /-- Entries of a device-to-host ring that the host has not released, oldest first (R486, R487). -/
  out : NMap (List Bytes) := []
  /-- The last SEQ written on a device-to-host ring (R487). -/
  seq : NMap Nat := []
  /-- The entries of the open command of a command ring (R489, R490). -/
  opened : NMap (List Bytes) := []
  /-- Command rings that skip entries up to the next START, with the first discarded index, entries and commands (R490). -/
  skip : NMap (Nat × Nat × Nat) := []
  /-- Commands fetched that have not ended, oldest first (R488); one whose completion a reset of its function has discarded carries 64 more in `ring` (R484). -/
  inFlight : List HostCmd := []
  /-- Completions that wait for room in a function's completion ring, oldest first: command, status, result (R487, R488). -/
  owed : NMap (List (HostCmd × Nat × Bytes)) := []
  /-- The ring after which the round robin of R488 goes on. -/
  fetchAt : Nat := 0
  /-- The next offset in the data area of an RX or sample ring (R497). -/
  dataAt : NMap Nat := []
  /-- The data-area extents that the host has not released, oldest first (R497). -/
  extents : NMap (List (Nat × Nat)) := []
  /-- Functions whose MSI-X is enabled (R483). -/
  msixOn : List Nat := []
  /-- MSI-X messages sent on a vector of a function, key f × 2048 + vector (R483). -/
  msix : NMap Nat := []
  /-- Rings whose MOD_US holdoff runs; true when entries became visible meanwhile (R483). -/
  holdoff : NMap Bool := []
  /-- The words of a BAR2 slot held until its last word (R482), by byte offset in BAR2. -/
  bar2 : NMap Word := []
  /-- The level of PCIE_PERST_L (R468). -/
  perstL : Bool := true
  /-- Frames between the scheduler and host memory, oldest first (R495). -/
  queue : List HostFrame := []
  /-- The index that the device last wrote to a ring's writeback address, by ring key: CONS of a ring that it reads, PROD of a ring that it writes (R486, R487). -/
  wb : NMap Nat := []
  deriving DecidableEq, Repr
/-- The life-cycle states of Table 13-9. -/
inductive LifeCycle where
  | blank | factory | field | returned
  deriving DecidableEq, Repr

/-- One OTP key slot (R373): the SHA-384 key hash, the usage mask (FW, CFG, TOKEN), the revocation bit. -/
structure OtpKey where
  usage : Nat
  hash : Bytes
  revoked : Bool
  deriving DecidableEq, Repr

/-- The OTP (R372, R373, R379, R382): words keep what was programmed, across every reset and loss of power. -/
structure Otp where
  serial : Nat
  rev : Nat
  step : Nat
  /-- Lot, wafer, X and Y of FD and QD (R379). -/
  die0 : Nat × Nat × Nat × Nat
  die1 : Nat × Nat × Nat × Nat
  /-- Intent and state words of FACTORY, FIELD and the four RETURNED attempts (R382). -/
  factory : Nat × Nat
  field : Nat × Nat
  returned : List (Nat × Nat)
  keys : NMap OtpKey
  /-- The floor entries used, value word and complement word (R372). -/
  floorFw : List (Nat × Nat)
  floorCfg : List (Nat × Nat)
  deriving DecidableEq, Repr

/-- An image as the loader stages it (R364, R365): header, blocks and signature as stored, and where it came from. -/
structure Image where
  header : Bytes := []
  blocks : List Bytes := []
  sig : Bytes := []
  slot : Nat := 0
  pushed : Bool := false
  deriving DecidableEq, Repr

/-- The directory of Table 13-3 as the loader takes it: GENERATION, NVM_MIB, SLOT_OFF and SLOT_SIZE by slot, the persistent area, the active
slots, and TRIAL (Table 14-4). -/
structure Directory where
  gen : Nat
  nvmMib : Nat
  slots : List (Nat × Nat)
  persist : Nat × Nat
  fwActive : Nat
  cfgActive : Nat
  trial : Bytes
  deriving DecidableEq, Repr

/-- A copy of the wear table in the persistent area (R404, R405): its format number and GENERATION, the erase counts of so many 64 KiB blocks, and its CRC-32C. -/
structure WearCopy where
  format : Nat
  gen : Nat
  blocks : Nat
  counts : NMap Nat
  crc : Nat
  deriving DecidableEq, Repr

/-- The persistent area, or the second area of the same size (R361, R404): the two copies of the wear table, and the fault log, each record of 8 words with its format number (R539). -/
structure Persist where
  wear : NMap WearCopy := []
  log : NMap (Nat × List Word) := []
  deriving DecidableEq, Repr

/-- The NVM that the board attaches (R360, R361), as far as the device programs it on its own. -/
structure NvmSt where
  /-- The directory copies that the device wrote last, by copy (R362). -/
  dirs : NMap Bytes := []
  /-- Images that the device programmed in slots FW_A, FW_B, CFG_A, CFG_B (R377, R390). -/
  slots : NMap Image := []
  /-- The persistent area, and the second area that a trial writes in a new format (R404). -/
  area : Persist := {}
  second : Persist := {}
  /-- The next index of the fault log, and whether it has wrapped (R539). -/
  logHead : Nat := 0
  logWrapped : Bool := false
  /-- The wear table: erase count of each 64 KiB block (R405). -/
  wear : NMap Nat := []
  /-- The format of the records of the firmware that a restart activation left (R404). -/
  oldFormat : Nat := 0
  /-- The digest of the state that a restart activation left, which HELLO carries as alternate during the trial (R398). -/
  oldDigest : Bytes := []
  deriving DecidableEq, Repr

/-- The VBAT domain (R444 to R446). -/
structure VbatSt where
  sec : Nat := 0
  /-- 1/32,768 s. -/
  sub : Nat := 0
  timeMark : Nat := 0
  record : List Word := []
  recMark : Nat := 0
  collapsed : Bool := false
  deriving DecidableEq, Repr

/-- What the loader reads next (R360 to R370): 0 and 1 the directory copies, 2 the firmware image, 3 the configuration image; in an image 0 the header,
i + 1 block i, and the signature after the last block; and the failed reads in a row. -/
structure Reading where
  what : Nat
  item : Nat := 0
  fails : Nat := 0
  deriving DecidableEq, Repr

/-- Start-up and the configuration image (chapter 13). -/
structure BootSt where
  lc : LifeCycle := .factory
  /-- Attempts at the JEDEC ID, and whether one succeeded since the loader began to read (R360). -/
  idTries : Nat := 0
  nvmUp : Bool := false
  /-- The loader is reading the NVM, in LOAD or after a push (R376). -/
  loading : Bool := true
  read : Option Reading := none
  /-- What the directory copies gave: the first failed condition, 0 for none, and the directory (R362). -/
  dirRes : List (Nat × Option Directory) := []
  dir : Option Directory := none
  /-- The copy that is in use. -/
  dirCopy : Nat := 0
  /-- A directory that waits to be written while a VIN warning blocks NVM programming (R437). -/
  dirOwed : Option Directory := none
  part : Image := {}
  fw : Option Image := none
  cfg : Option Image := none
  /-- VERIFY has passed, and a pushed image is to be programmed before APPLY (R377). -/
  verified : Bool := false
  /-- APPLY (R367): the next byte of the payload, the next NUMBER, the COUNT of the MANIFEST, CLK_PLAN written, END applied. -/
  recAt : Nat := 0
  recNum : Nat := 0
  manifest : Nat := 0
  planSeen : Bool := false
  endSeen : Bool := false
  /-- The seal of R378 is in force. -/
  sealed : Bool := false
  /-- BRINGUP has been entered since the image began to be applied, so that the blocks outside the AON island have started (R426, R592). -/
  up : Bool := false
  /-- The push under way: type, PROGRAM, SLOT (R376). -/
  push : Option (Nat × Bool × Nat) := none
  /-- A pushed image that is to be programmed once verified: type and slot (R377). -/
  toProgram : Option (Nat × Nat) := none
  deriving DecidableEq, Repr

/-- A bank of the sealed state (R393, R395): every SEALED register, table 20, and what identifies the images (DEV_FW_VER, DEV_CFG_VER,
DEV_CFG_LABEL, BOOT_ARB_RUN). -/
structure Bank where
  regs : NMap Word := []
  tree : NMap Nat := []
  ids : List Word := []
  deriving DecidableEq, Repr

/-- The update agent (chapter 14). Its state is `UPD_STAT.STATE`. -/
structure UpdSt where
  /-- The staging under way: type and slot (R390). -/
  staging : Option (Nat × Nat) := none
  fw : Option Image := none
  cfg : Option Image := none
  /-- The prepared state before an activation, the previous state after it (R393, R395). -/
  shadow : Option Bank := none
  /-- The digest that HELLO carries as alternate while ARMED or in TRIAL (R398). -/
  otherDigest : Bytes := []
  /-- The tick at which the trial window began, and its length in seconds (R399). -/
  window : Nat × Nat := (0, 0)
  /-- The restart trial found in APPLY runs its window from RUN (R402). -/
  restartTrial : Bool := false
  /-- Blocks with a slow program reported since the last start (R406). -/
  slow : List Nat := []
  deriving DecidableEq, Repr

/-- Clocks (chapter 15). Locks, losses and relocks are CLK_STAT, CLK_PLL_STAT and CLK_REF_STAT. PLL 0 is FD_ROOT, 1 is QD_ROOT, 2 + p is PLL p of
CLK_PLL_LOSS (Table 20-2). -/
structure ClkSt where
  /-- PLLs that are started and have not locked (R418). -/
  starting : List Nat := []
  /-- The divisor of each root-family domain d, key d, and of a slice's branch of it, key 16 × (slice + 1) + d; one not listed is stopped or on the
  boot bypass (R413, R416). -/
  div : NMap Nat := []
  /-- Ramps under way, by the same key: true upwards (R413). -/
  ramp : NMap Bool := []
  /-- Roots whose automatic relock waits for the role (R421). -/
  waiting : List Nat := []
  /-- The level of PPS_OUT while enabled (R427). -/
  ppsOut : Bool := false
  deriving DecidableEq, Repr

/-- Supply, rails and thermal (chapter 16). Warnings in force are causes of their sources (R526). -/
structure PwrSt where
  resetL : Bool := true
  /-- TESTMODE as sampled at the last entry into LOAD (R473). -/
  tmSample : Bool := false
  /-- A trip holds the device in RESET (R450). -/
  tripHold : Bool := false
  /-- Sensors at or above 160 °C at the last reading, and whether every sensor read below 140 °C (R450). -/
  hot : List Nat := []
  cool : Bool := true
  /-- PWR_TEMP_PEAK has been read, or no reading taken, since (Table 16-21). -/
  peakFresh : Bool := true
  pwrgood : Bool := true
  /-- Rail groups out of their window (R441). -/
  railOut : List Nat := []
  /-- CD38 is lost, which drives FAULT_L low directly (Table 15-6, R530). -/
  cd38Lost : Bool := false
  /-- RESET_CAUSE (R595). -/
  cause : Nat := 0
  /-- The impedance references as the last RESET measured them, in ohms (R474): RCAL_LINE, RCAL_FAB, RCAL_DRAM_A, RCAL_DRAM_B, PCIE_RCAL. -/
  rcal : List Nat := []
  deriving DecidableEq, Repr



/-! ## Frames -/

/-- The frame header of Table 7-2; its LEN is the number of stored bytes. -/
structure Hdr where
  cls : Nat := 0
  colour : Nat := 0
  ce : Bool := false
  editV : Bool := false
  editIdx : Nat := 0
  decap : Nat := 0
  ttlOp : Nat := 0
  ptpMode : Nat := 0
  ptpTag : Nat := 0
  mtuProf : Nat := 0
  group : Nat := 0xFFFF
  srcSys : Nat := 0xFFFF
  rxNs : Nat := 0
  deriving DecidableEq, Repr

/-- A window in a scan queue (R105, R106, R111): its bytes, its scan profile, TRUNC, and the bank by whose profile it was placed. -/
structure Win where
  bytes : Bytes
  prof : Nat
  trunc : Bool
  bank : Nat
  deriving DecidableEq, Repr

/-- A frame bound for one pass of an ingress pipeline: the port of the pass, the first-pass input port, the bytes of the pass and those
received (without FCS), and what travels with the frame (R101, R163). -/
structure InFrame where
  port : Nat
  orig : Nat
  bytes : Bytes
  first : Bytes
  rx : Ptp
  pass : Nat := 0
  /-- The 64 bits of Table 6-6. -/
  carried : Nat := 0
  /-- The signature result, five words (Table 4-2). -/
  sig : Nat := 0
  /-- A window in the scan queue that is not scanned yet. -/
  win : Option Win := none
  /-- The VRF that a TX descriptor fixes (R163, R498). -/
  fixVrf : Option Nat := none
  /-- The PTP tag of a two-step request of a TX descriptor (R498). -/
  txTag : Option Nat := none
  /-- A flow mirror session requested by a pass (R171). -/
  mir : Option Nat := none
  /-- A sample record requested by a pass (R173). -/
  smp : Option HostFrame := none
  /-- The place in the Hall, 0 for none (R166). -/
  place : Nat := 0
  /-- PROBE_SEQ of a probe frame (R583). -/
  probe : Option Nat := none
  deriving DecidableEq, Repr

/-- Where a frame goes (R124, R153): discarded, one system port, or a multicast group; or the fixed path of the probe with a PROBE_SEQ (R583). -/
inductive Dest where
  | drop
  | sys (s : Nat)
  | group (g : Nat)
  | probe (q : Nat)
  deriving DecidableEq, Repr

/-- A frame in the Hall (R165). -/
structure HallFrame where
  bytes : Bytes
  first : Bytes
  hdr : Hdr
  dest : Dest
  recirculated : Bool
  mir : Option Nat
  smp : Option HostFrame
  /-- The signature result that its copies carry (R101). -/
  sig : Nat := 0
  deriving DecidableEq, Repr

/-- An outstanding frame of the Hall, oldest first (R165, R166): first-pass port and class, whether it takes one of the
2,048 entries, and the frame once its last pass is over. -/
structure HallEnt where
  id : Nat
  port : Nat
  cls : Nat
  holds : Bool
  frame : Option HallFrame
  deriving DecidableEq, Repr

/-! ## Forwarding -/

/-- The outcome of the lookups (R120, R124). -/
inductive Fwd where
  | miss (k : Nat)
  | drop
  | host (reason : Nat)
  | sys (port : Nat)
  | nh (i : Nat)
  | group (g : Nat)
  | flood (g : Nat)
  | recirc (arg : Nat)
  deriving DecidableEq, Repr

/-- What a label entry does to the label stack (R125). -/
inductive LabelOp where
  | none
  | swap (label : Nat)
  | popFwd
  | popIp
  | popRecirc
  deriving DecidableEq, Repr

/-- A resolved forwarding result: the outcome, whether the frame is routed (R160), the label operation, the ECMP hash. -/
structure FwdRes where
  fwd : Fwd
  routed : Bool := false
  label : LabelOp := .none
  hash : Nat := 0
  deriving DecidableEq, Repr

/-- A fragment table entry (R87, R88, R92): its key, the stored decision (the forwarding result and the action entry index, none while the entry is only
reserved), and the tick of the last restart of its age. -/
structure FragEnt where
  key : Nat
  dec : Option (FwdRes × Nat)
  at_ : Nat
  deriving DecidableEq, Repr

/-- What a frame between its lookup and its action stage owes the fragment table (R88 to R91): nothing; it reserved the entry of a set and key; it hit that
entry while it was only reserved and waits for the decision; it hit that entry and has the decision. -/
inductive FragRole where
  | none
  | reserves (set key : Nat)
  | waits (set key : Nat)
  | hits (set key : Nat)
  deriving DecidableEq, Repr

/-- A pass that left the lookup (R120, R155): pipeline, frame, parse record, bridge domain, selected VRF, tenant, forwarding result, action entry index,
whether R137 drops the frame, and its part in the fragment table. -/
structure PassCtx where
  n : Nat
  f : InFrame
  r : Nat
  bd : Nat
  vrf : Nat
  tenant : Nat
  res : FwdRes
  act : Nat
  sec : Bool := false
  frag : FragRole := .none
  deriving DecidableEq, Repr

/-- A slot group of HOST (R130): key type, VRF, source, destination, result. -/
structure HostEnt where
  typ : Nat
  vrf : Nat
  src : Nat
  dst : Nat
  result : Nat
  deriving DecidableEq, Repr

/-- A MAC entry (Table 5-8). -/
structure MacEnt where
  bd : Nat
  mac : Nat
  result : Nat
  isStatic : Bool
  age : Nat
  sharedIn : Bool
  deriving DecidableEq, Repr

/-- A message of the learn bus (R136, R139) for one receiving copy. -/
structure BusMsg where
  src : Nat
  dst : Nat
  refresh : Bool
  bd : Nat
  mac : Nat
  result : Nat
  deriving DecidableEq, Repr

/-- A queued FLUSH_BY_PORT (R148): the command, and per copy the keys (bd, mac) present when it was taken. -/
structure Flush where
  cmd : HostCmd
  keys : List (Nat × Nat × Nat)
  deriving DecidableEq, Repr

/-- The tables (chapters 5, 6, 7 and 9). Entry i of direct table t has key t × 2^24 + i. -/
structure TabSt where
  /-- Entries that differ from their start values (R605), as the numbers of R606. -/
  direct : NMap Nat := []
  /-- Routes of LPM4 and LPM6 (R128), key (VRF × 2^128 + address) × 256 + prefix length. -/
  lpm4 : NMap Nat := []
  lpm6 : NMap Nat := []
  /-- HOST entries by bucket × 4 + first slot. -/
  host : NMap HostEnt := []
  /-- MAC entries by (pipeline × 65536 + bucket) × 4 + slot. -/
  mac : NMap MacEnt := []
  /-- Entries with an uncorrectable word (R118, R151), by key of `direct`; HOST and MAC slots by table identifier × 2^24 + slot number. -/
  bad : List Nat := []
  /-- Trie nodes with an uncorrectable word (R118): the table (2 or 3), how many bits of VRF and address lie above the node, and their value. -/
  trieBad : List (Nat × Nat × Nat) := []
  /-- The tenant that inserted an ECMP member (R145); a member not listed is tenant 0's. -/
  mbrOwner : NMap Nat := []
  /-- The remainders below 1/64 byte of a policer's two buckets, in 1/125,000 of that unit (R157). -/
  polRem : NMap (Nat × Nat) := []
  bus : List BusMsg := []
  flushes : List Flush := []
  deriving DecidableEq, Repr

/-! ## Payload signatures -/

/-- A pattern entry that was written once (Table 4-3). An invalid one keeps its fields and never matches. -/
structure Pattern where
  valid : Bool := true
  len : Nat
  cls : Nat
  nocase : Bool
  bytes : Bytes
  deriving DecidableEq, Repr

/-- The pattern store (chapter 4). Entry i of bank b has key b × 16384 + i; profile p of bank b has key b × 8 + p. -/
structure SigSt where
  pats : NMap Pattern := []
  /-- Profiles that differ from their reset values, as ANCHOR + OFFSET × 2^3 + LEN × 2^11 + CLASS_MASK × 2^21. -/
  profs : NMap Nat := []
  /-- Master entries that were lost and are not written again (R115). -/
  lost : List Nat := []
  /-- Master entries whose word is uncorrectable and not read yet (R115, R587). -/
  masterBad : List Nat := []
  /-- Entries and profiles of an engine's working copy under repair (R115), engine × 65536 + key; the key of profile p of bank b is 32768 + b × 8 + p here, in
  `lost` and in `masterBad`. -/
  repair : List Nat := []
  /-- Correctable errors corrected on a read (R115). -/
  corr : Nat := 0
  /-- The PTP time in ns of a pending swap (R112). -/
  swapAt : Option Nat := none
  deriving DecidableEq, Repr

/-! ## Line ports -/

/-- Line ports (chapter 2). -/
structure LinSt where
  /-- The last quanta loaded into the pause timer of a class, key port × 8 + class (R52). -/
  pauseQ : NMap Nat := []
  /-- The tick at which the last second of slow-protocol frames began on a port, and the frames sent in it (R63). -/
  slow : NMap (Nat × Nat) := []
  /-- The last frame sent on a port's transmitter, FCS included. -/
  sent : NMap Bytes := []
  /-- Ports whose link training runs (R42). -/
  training : List Nat := []
  /-- Lanes that have lost signal or receive lock, 8g + l (R62). -/
  noLock : List Nat := []
  /-- Lanes that have lock again and have not yet held it for 10 ms, with the tick of the lock (R62). -/
  lockAt : NMap Nat := []
  /-- Ports that entered RUNNING and owe the frame for the classes in XOFF (R55). -/
  xoffOwed : List Nat := []
  deriving DecidableEq, Repr

/-! ## Ingress pipelines -/

/-- Ingress pipelines (chapters 3 and 6), by pipeline. -/
structure IngSt where
  /-- Line and host frames that wait for a slot, oldest first. -/
  inq : NMap (List InFrame) := []
  /-- Recirculated frames that have a slot and wait for their pass (R162). -/
  slotted : NMap (List InFrame) := []
  /-- Passes between the lookup and the action stage, oldest first (R88, R91). -/
  looked : NMap (List PassCtx) := []
  /-- The recirculation queue of 512 frames (R162). -/
  recirc : NMap (List InFrame) := []
  /-- The slot of the window of 64 (R162). -/
  slot : NMap Nat := []
  /-- The Hall (R165). -/
  hall : NMap (List HallEnt) := []
  /-- The next Hall place. -/
  place : Nat := 1
  /-- Fragment table sets, key pipeline × 1024 + set (R87), four ways at most. -/
  frag : NMap (List FragEnt) := []
  /-- Token buckets: (level in 5 ns parts of a frame per second, tick of the last update); a bucket not listed is full.
  Key p is the trap bucket of port p (R85), 256 + n the to-host bucket of pipeline n (R174). Key 512 + n counts the samples of pipeline n in the
  second that began at the tick (R173). -/
  bucket : NMap (Nat × Nat) := []
  /-- Draws made by a pipeline's random generator since the start (R173). -/
  draws : NMap Nat := []
  deriving DecidableEq, Repr

/-! ## Buffers and queues -/

/-- A frame or copy on its way to the buffer manager (R185): requester, first-pass input port (255 for none), header, stored bytes,
its target, and the sample record that it is, if it is one. -/
structure Arrival where
  req : Nat
  inPort : Nat
  hdr : Hdr
  data : Bytes
  dest : Dest
  smp : Option HostFrame := none
  /-- The signature result that an ingress mirror copy carries (R101). -/
  sig : Nat := 0
  deriving DecidableEq, Repr

/-- A pool buffer in use (R180): what it holds and what it is charged to (R188 to R191). Charge 0 is QMIN, 1 TMIN, 2 OASIS, 3 DOASIS,
4 a sample record. -/
structure Buf where
  hdr : Hdr
  data : Bytes
  req : Nat
  inPort : Nat
  dram : Bool
  k : Nat
  charge : Nat
  q : Nat
  /-- The tenant whose minimum a charge 1 uses. -/
  tenant : Nat := 0
  /-- The DRAM interface that holds it. -/
  di : Nat := 0
  refs : Nat := 1
  shared : Bool := false
  /-- The local system port of a from-fabric frame, for CR_HOLD of R232. -/
  sysPort : Nat := 0
  /-- The stored length S of the whole frame; `data` is shorter while it is being written (R282). -/
  size : Nat := 0
  /-- An uncorrectable word, or a failed line (R204, R317). -/
  bad : Bool := false
  /-- The DRAM interface has failed or left service since, so that its contents are lost (R196, R323, R324). -/
  lost : Bool := false
  deriving DecidableEq, Repr

/-- A descriptor (R191, R200): the buffer, and the next hop of a shared local copy. -/
structure Desc where
  buf : Nat
  nh : Option Nat := none
  deriving DecidableEq, Repr

/-- A queue (R190, R208, R231): its descriptors, averages with 16 fractional bits, the tick since which it is empty, SPILLED,
and the credit state of a VOQ. -/
structure Queue where
  descs : List Desc := []
  avg : List Nat := [0, 0, 0]
  emptySince : Nat := 0
  spilled : Bool := false
  bal : Int := 0
  outCr : Nat := 0
  /-- Frames dequeued whose turn to leave has not come, oldest first, and whether each is readable (R194). -/
  leaving : List (Desc × Bool) := []
  deriving DecidableEq, Repr

/-- A queue that accepts a shared copy (R200): queue, next hop, ECN mark, and the reason why it could not take the charge. -/
structure Waiting where
  q : Nat
  nh : Option Nat
  mark : Bool
  reason : Nat
  deriving DecidableEq, Repr

/-- A frame on the egress side of FD (R176, R254): output port and class, header, stored bytes or edited bytes. -/
structure EgFrame where
  port : Nat
  cls : Nat
  hdr : Hdr
  data : Bytes
  deriving DecidableEq, Repr

/-- A scheduler node's state (R239): TE_MIN and TE_MAX in epoch ticks with 32 fractional bits, and the deficit at its parent. -/
structure NodeSt where
  teMin : Nat := 0
  teMax : Nat := 0
  deficit : Int := 0
  deriving DecidableEq, Repr

/-- A fence (R257): the fenced queue, the queue it waits on, and the system port of the MODIFY. -/
structure Fence where
  newQ : Nat
  oldQ : Nat
  sysPort : Nat
  deriving DecidableEq, Repr

/-- The time gates of a port (R251, R252): LEN, CYCLE and BASE of the running list, none before a list has become operational, and those of a pending change
with its change time. -/
structure GateSt where
  oper : Option (Nat × Nat × Nat) := none
  pend : Option (Nat × Nat × Nat × Nat) := none
  deriving DecidableEq, Repr

/-- Buffers, queues and schedulers (chapters 7 to 9). -/
structure QdSt where
  bufs : NMap Buf := []
  nextBuf : Nat := 1
  queues : NMap Queue := []
  /-- Frames that cross the Stair from FD, key pipeline for the Hall's queue and 32 + n for egress mirror copies of EPn (R198). -/
  stairUp : NMap (List Arrival) := []
  /-- Frames at the buffer manager: by Stair key, and 64 + k for fabric group k. -/
  arrivals : NMap (List Arrival) := []
  /-- Frames that cross the Stair from QD, and frames that wait for EPn, by pipeline; key 20 is node 160. -/
  stairDown : NMap (List EgFrame) := []
  egress : NMap (List EgFrame) := []
  /-- Frames in staging, key port × 8 + class (R254). -/
  stage : NMap (List EgFrame) := []
  /-- Early-warning thresholds that are set, (8r + k) × 4 + w (R186). -/
  thSet : List Nat := []
  /-- Port classes whose PG_USED condition holds, p × 8 + k (R216), and fabric classes (R219). -/
  pfcHigh : List Nat := []
  bkpHigh : List Nat := []
  /-- The rotation among DRAM interfaces (R193). -/
  diNext : Nat := 0
  nodes : NMap NodeSt := []
  /-- The calendar wheel (R245): the ring of each entry, key 2 × node for TE_MIN and 2 × node + 1 for TE_MAX. -/
  wheel : NMap Nat := []
  /-- Round-robin places: node × 8 + priority in the tree, 2^42 more for the excess pass; 2^40 + system port × 8 + class for source nodes; 2^41 + k for VOQs of class k. -/
  rr : NMap Nat := []
  fences : List Fence := []
  /-- The time in units of 2^-32 epoch ticks from which a system port's credit generator may grant again (R232). -/
  crTe : NMap Nat := []
  /-- Credits requested and not granted, key (system port × 8 + class) × 65536 + source node (R232). -/
  creq : NMap Nat := []
  gates : NMap GateSt := []
  /-- The state of the WRED generator, 32 bits (R210). -/
  wredGen : Nat := 1
  /-- The epoch (R246, R425): its value in units of 2^-32 ticks at tick `epochTick`, the correction c of the running window in units of 2^-32, and
  the value that the windows since the start aim at. -/
  epochBase : Nat := 0
  epochTick : Nat := 0
  epochCorr : Int := 0
  epochGoal : Nat := 0
  deriving DecidableEq, Repr

/-! ## The redundant pair -/

/-- What a CONTROL HELLO says (Table 12-7). -/
structure GalHello where
  serial : Nat
  role : Nat
  cardId : Nat
  digest : Bytes
  alt : Option Bytes
  applied : Nat
  epoch : Nat
  deriving DecidableEq, Repr

/-- A cell that waits for the Gallery link (R341): its stream, SEQ, FUNC and STATUS, and the numbers that it carries, whose layout in the payload no rule gives. -/
structure GalCell where
  stream : Nat
  seq : Nat
  func : Nat := 0
  status : Nat := 0
  body : List Nat := []
  first : Bool := true
  last : Bool := true
  deriving DecidableEq, Repr

/-- The redundant pair (chapter 12). The last SEQ given is `PAIR_SEQ_TX`, the last applied `PAIR_SEQ_APPLIED`. -/
structure PairSt where
  /-- The last 65,536 CMD items, by SEQ (R342). -/
  replay : NMap CmdItem := []
  /-- The next SEQ to send in CMD, the highest acknowledged, and the highest sent so far. -/
  nextSend : Nat := 1
  acked : Nat := 0
  sentTop : Nat := 0
  /-- Mirrored commands that answered REHASH on this standby and wait for a MOVE (R346). -/
  retry : List HostCmd := []
  /-- A message has been accepted since the start (R333). -/
  epochSeen : Bool := false
  /-- The EPOCH of the last SWITCH that the card acknowledged (R335). -/
  swAck : Option Nat := none
  /-- The tick at which the switch-over gap ends, while it runs (R47, R353). -/
  gap : Option Nat := none
  /-- The PART of the next HELLO, and FAULT_SEQ (Table 12-2). -/
  helloPart : Nat := 0
  faultSeq : Nat := 0
  /-- What HEALTH counts since the last one (R330). -/
  probeFail : Nat := 0
  memFail : Nat := 0
  lagPeak : Nat := 0
  margin : Nat := 255
  /-- The last message sent on ARB_TX (R330), and the 96 bits in which the pair of balls carries it (R329). -/
  arbTx : Nat := 0
  arbWire : Nat := 0
  /-- CMD items received and not applied, by SEQ, and the highest SEQ up to which every item has been received (R342). -/
  wait : NMap CmdItem := []
  rxSeq : Nat := 0
  /-- The partner's digest and its valid alternate digest, from its last HELLO (R349); whether HELLOs arrive (R340). -/
  pDigest : Option Bytes := none
  pAlt : Option Bytes := none
  helloFresh : Bool := false
  /-- Gallery lanes that have been calibrated and trained since the start, and those out of service (R338); and per lane the defects declared, bit d for defect d of Table 10-8 (R339). -/
  galUp : List Nat := []
  galOos : List Nat := []
  galStat : NMap Nat := []
  /-- The lane at which the spray over the Gallery lanes goes on, the SEQ of the next cell of a stream, and the number of the next snapshot (R340, R341). -/
  galAt : Nat := 0
  galSeq : NMap Nat := []
  snap : Nat := 0
  /-- The last HELLO handed to the Gallery link (R341). -/
  helloTx : Option GalHello := none
  /-- Cells that wait for the Gallery link, by stream, oldest first (R341). -/
  galTx : NMap (List GalCell) := []
  /-- The next SEQ of REPLAY to be applied, and the cells' items that have come before their turn (R340, R351). -/
  replayAt : Nat := 0
  /-- On the active card, the region to be replayed next, and the SEQ of the first REPLAY cell of each region begun (R351). -/
  replayReg : Nat := 0
  replayFrom : NMap Nat := []
  replayHeld : NMap (List CmdItem) := []
  /-- The values of the statistics pairs at the last baseline instant (R348). -/
  latched : NMap (Nat × Nat) := []
  /-- Policers and nodes touched since the last snapshot, longest ago first (R347): key 2i for policer i, 2i + 1 for node i. -/
  due : List Nat := []
  deriving DecidableEq, Repr
/-! ## The fabric -/

/-- A cell (R269): its header fields and the bytes used of its payload. -/
structure Cell where
  typ : Nat := 0
  src : Nat := 0
  dst : Nat := 0
  cls : Nat := 0
  seq : Nat := 0
  first : Bool := true
  last : Bool := true
  data : Bytes := []
  deriving DecidableEq, Repr

/-- An entry of a REQUEST or CREDIT cell that waits (Table 10-6), and the node it goes to. -/
structure CrEnt where
  node : Nat
  port : Nat
  cls : Nat
  count : Nat
  deriving DecidableEq, Repr

/-- A frame under reassembly (R282): its header and stored length S, the bytes so far, the cells taken, whether its cells contradict its header, the
group of its first cell, and where it is admitted: buffer, queue, and whether the congestion check marked it. A shared copy (R200) has one buffer there, and in `shared` the
queues that accepted it at its first cell. -/
structure Reas where
  hdr : Hdr
  size : Nat
  got : Bytes
  cells : Nat
  bad : Bool
  grp : Nat
  targets : List (Nat × Nat × Bool)
  shared : Option (List Waiting) := none
  deriving DecidableEq, Repr

/-- A reorder context (R280): the expected number E, none before a FIRST cell and in RESYNC; held cells by SEQ, each with its group; the open frame; the tick of its last cell. -/
structure Ctx where
  exp : Option Nat := none
  held : NMap (Cell × Nat) := []
  opened : Option Reas := none
  last : Nat := 0
  deriving DecidableEq, Repr

/-- A transmit lane: the BIP-16 of the last frame sent and the frames since the last inserted idle frame (R267, R274). -/
structure TxLane where
  bip : Nat := 0
  since : Nat := 0
  deriving DecidableEq, Repr

/-- A receive lane (R265 to R268, R276, R278, R283). -/
structure RxLane where
  /-- In frame, and consecutive frames whose FAS was found while out of frame, or differed while in frame. -/
  inFrame : Bool := false
  fasRun : Nat := 0
  /-- In multiframe, consecutive frames that went on as expected while out of it, or not while in it, and the last MFAS. -/
  inMf : Bool := false
  mfRun : Nat := 0
  mfas : Nat := 0
  /-- The BIP-16 computed over the previous frame as received, and the BEI to send back. -/
  bip : Option Nat := none
  bei : Nat := 0
  /-- The TRAIL bytes of the running multiframe; none when it is broken. -/
  trail : Option Bytes := none
  /-- Did the last accepted trail mismatch, and how many in a row did the same? -/
  timBad : Bool := false
  timRun : Nat := 0
  rdi : Bool := false
  ais : Bool := false
  /-- BIP-errored frames in the running DEG interval, whether the last interval reached DEG_TH, and how many in a row did the same. -/
  degNow : Nat := 0
  degBad : Bool := false
  degRun : Nat := 0
  /-- The slip buffer, oldest first: the 16 cells of each frame; and the frame last read. -/
  slip : List (List Bytes) := []
  lastRead : List Bytes := []
  /-- The frame being read is still being written (R278). -/
  cut : Bool := false
  deriving DecidableEq, Repr

/-- Performance monitoring of a lane or group (R293 to R295): BIP-errored frames and frames received in the running second, whether a defect was declared in it, the last
seconds as (class 0 good, 1 ES, 2 SES; the PTP second), newest first, and whether time is unavailable. -/
structure PmSt where
  bip : Nat := 0
  frames : Nat := 0
  defect : Bool := false
  hist : List (Nat × Nat) := []
  unavail : Bool := false
  deriving DecidableEq, Repr

/-- The fabric interface (chapter 10). Lane l of group g has key 28g + l; in `pm`, group g has key 224 + g. -/
structure FabSt where
  tx : NMap TxLane := []
  rx : NMap RxLane := []
  /-- The MFAS that each group sends next. -/
  mfas : NMap Nat := []
  /-- The last frame sent on a lane. -/
  sent : NMap Bytes := []
  /-- Cells that a lane's slip buffer gave and the cell engine has not taken, oldest first. -/
  cells : NMap (List Bytes) := []
  /-- Cells to send: CONTROL, entries of CREDIT and of REQUEST cells, DATA, each oldest first; the lane at which the spray goes on. -/
  ctl : List Cell := []
  credit : List CrEnt := []
  request : List CrEnt := []
  data : List Cell := []
  sprayAt : Nat := 0
  /-- Sequence counters by system port × 8 + class (R271). -/
  seq : NMap Nat := []
  /-- Reorder contexts by (source node × 65536 + system port) × 8 + class. -/
  ctx : NMap Ctx := []
  /-- The SRQ value that a group receives, bytes 5 and 6, and in how many frames in a row; frames since the received value departed from the accepted one. -/
  srqCand : NMap (Nat × Nat) := []
  srqAway : Nat := 0
  /-- Frames in a row in which another group's accepted SRQ differed from the one in use, by group; values in a row with another ARCH. -/
  srqDiff : NMap Nat := []
  archDiff : Nat := 0
  /-- The standing host request: code and plane; the plane that waits to restore, and the tick since which it does. -/
  hostReq : Option (Nat × Nat) := none
  wtr : Option (Nat × Nat) := none
  /-- Lanes whose link training runs, and lanes whose training failed (R261). -/
  training : List Nat := []
  trainFail : List Nat := []
  /-- CONTROL cells taken for the host in the second that began at the tick (Table 10-10). -/
  ctrlSec : Nat × Nat := (0, 0)
  pm : NMap PmSt := []
  /-- The PTP second up to which performance is evaluated (R293). -/
  pmSec : Nat := 0
  /-- Seconds evaluated in the running 15-minute and 24-hour bins. -/
  pmLen : Nat × Nat := (0, 0)
  deriving DecidableEq, Repr

/-! ## Packet DRAM -/

/-- A line in a write queue (R305, R306): its buffer and number in it, whether it is still held for bytes to come, whether it completes a line written before, and how many of its bytes
there are to write. -/
structure WLine where
  buf : Nat
  line : Nat
  opened : Bool
  rmw : Bool
  have_ : Nat := 64
  deriving DecidableEq, Repr

/-- A line as a DRAM device holds it (R302, R306, R317): its 64 bytes, its tag, and how many of the bytes belong to what has been written of the frame. -/
structure DLine where
  bytes : Bytes := []
  tag : Nat := 0xFFFF
  got : Nat := 0
  deriving DecidableEq, Repr

/-- Packet DRAM (chapter 11), by interface. Its state is `DRC_DI_STAT[i].STATE`. -/
structure DrmSt where
  wq : NMap (List WLine) := []
  /-- The lines written, by buffer × 512 + line, with their tags (R317). -/
  store : NMap DLine := []
  /-- The tag lines in the cache of an interface, used longest ago first, and those among them that are changed, oldest change first (R317). -/
  cache : NMap (List Nat) := []
  dirty : NMap (List Nat) := []
  /-- Buffers of frames dequeued whose lines are still to be read, in the order of their dequeue (R304). -/
  reads : List Nat := []
  /-- The tick of the last refresh of a bank, by interface × 64 + bank (R308). -/
  refreshed : NMap Nat := []
  /-- Retired buffers by interface × 8 + class (R321). -/
  retired : NMap Nat := []
  /-- Ticks of the failed transactions of the last millisecond (R323). -/
  fails : NMap (List Nat) := []
  /-- The first temperature readout since the last training began, in °C as 8 bits, none before it; and failed readouts in a row. -/
  tempAt : NMap Nat := []
  tempFail : NMap Nat := []
  /-- Interfaces whose last retraining failed (R314), those a SLEEP command waits for (R324). -/
  retryFail : List Nat := []
  sleepAfter : List Nat := []
  deriving DecidableEq, Repr

/-- The whole machine. -/
structure State where
  /-- Every register of BAR0 (R589) that does not hold its reset value, by byte offset; a register is stored here unless its bits are a view of other state. -/
  regs : NMap Word := []
  /-- The latched _HI half of each function's last _LO read, key function × 2^32 + offset of _HI (R8). -/
  hiLatch : NMap Word := []
  /-- The _LO value each function holds until its _HI write, key function × 2^32 + offset of _LO (R8). -/
  loHeld : NMap Word := []
  top : TopState := .load
  /-- CD38 ticks of 5 ns since the end of RESET (R533, DEV_TICK). -/
  tick : Nat := 0
  /-- The tick at the entry into the current top-level state (DEV_STATE_TIME). -/
  stateTick : Nat := 0
  ptp : Ptp := {}
  otp : Otp
  nvm : NvmSt := {}
  vbat : VbatSt := {}
  boot : BootSt := {}
  pwr : PwrSt := {}
  flt : FltSt := {}
  hif : HifSt := {}
  scr : ScrSt := {}
  cnt : CntSt := {}
  slc : SlcSt := {}
  tst : TstSt := {}
  /-- The data that the last register or window read of the host returned. -/
  rdData : Nat := 0
  clk : ClkSt := {}
  upd : UpdSt := {}
  lin : LinSt := {}
  ing : IngSt := {}
  tab : TabSt := {}
  sig : SigSt := {}
  qd : QdSt := {}
  pair : PairSt := {}
  fab : FabSt := {}
  drm : DrmSt := {}
  /-- The model's own counter: how many free values the steps have used. -/
  free : Nat := 0
  /-- Commands that wait, first in, first out. -/
  pending : List Instr := []
  deriving DecidableEq, Repr

/-- No behaviour of this part ends in a fault: what the spec calls a fault is a report (R528), which is state. -/
inductive Fault where
  /-- Kept for the interface; no meaning raises it. Safe. -/
  | none
  deriving DecidableEq, Repr

/-- Why a command is refused by the model. -/
inductive Refusal where
  /-- Raised by an arm of exec whose meaning is not written. Safe. -/
  | notModelled (mnemonic : String)
  deriving DecidableEq, Repr

/-- The OTP of a part as it leaves Siltalyen: life-cycle state FACTORY, key slot 0 programmed with FW and TOKEN usage (R373, R380).
DESIGN CHOICE: the serial number, die identities and key hash are particular to each part. -/
def Otp.shipped : Otp :=
  { serial := 1, rev := 0, step := 0, die0 := (0, 1, 0, 0), die1 := (0, 1, 0, 0),
    factory := (0xC3A55A3C, 0xC3A55A3C), field := (0, 0), returned := [(0, 0), (0, 0), (0, 0), (0, 0)],
    keys := [(0, { usage := 5, hash := List.replicate 48 0, revoked := false })], floorFw := [], floorCfg := [] }

/-- The machine right after reset: RESET has ended and LOAD is entered with tick 0 (R32, R533), every register at its
reset value, every queue and table empty, and nothing pending. IDCODE is in force in the TAP (R572, R573), so TST_STAT.INSTR reads 1. -/
def State.reset : State := { otp := Otp.shipped, clk := { starting := [4] }, regs := [(0x1B00000, 1)], tst := { dr := (32, 0x0324094B) } }

/-- What every meaning answers. -/
abbrev Out := Host.Outcome State Fault Refusal

end Sys2Proof.Machine
end

