-- ==== Sys2Proof/Machine/Flags.lean ====
section
/-! DEFINITION. Register access by field, sticky bits and counters: the reset value of a register, reads and writes of a register and of a field, counters of 31 bits with a sticky OVF (Tables 2-19, 19-9, 20-13 and their like), saturating fields. -/

namespace Sys2Proof.Machine

/-- The reset word of FLT_SEV[k]: the default severities of sources 8k to 8k + 7 (Table 20-7). -/
def fltSevReset (k : Nat) : Nat :=
  (List.range 8).foldl (fun a j => a + srcDefault (8 * k + j) * 16 ^ j) 0

/-- The reset value of the register at an offset (R589): its row's, or the one its row's table names for each index. -/
def regReset (a : Nat) : Word :=
  if 0x0401000 ≤ a ∧ a < 0x0401400 then Word.ofNat (fltSevReset ((a - 0x0401000) / 4))
  else match regRow a with
    | some r => Word.ofNat r.reset
    | none => 0

/-- The stored word of the register at an offset. -/
def rd (s : State) (a : Nat) : Word := mget (regReset a) s.regs a

/-- Stores a register word. -/
def wr (s : State) (a : Nat) (v : Word) : State := { s with regs := mput (regReset a) s.regs a v }

/-- A field of a stored register. -/
def getF (s : State) (f : Fld) : Nat := fget (rd s f.reg) f.lo f.len

/-- Stores a field and leaves the register's other bits. -/
def setF (s : State) (f : Fld) (n : Nat) : State := wr s f.reg (fset (rd s f.reg) f.lo f.len n)

/-- Is a one-bit field 1? -/
def flag (s : State) (f : Fld) : Bool := getF s f == 1

/-- Stores a one-bit field. -/
def setB (s : State) (f : Fld) (b : Bool) : State := setF s f (b2n b)

/-- A counter word after `n` more counts: COUNT in [30:0] wraps and sets OVF in [31] (Table 20-13 and its like). -/
def countWord (w : Word) (n : Nat) : Word :=
  let c := w.toNat % 2 ^ 31 + n
  Word.ofNat (c % 2 ^ 31 + (if 2 ^ 31 ≤ c ∨ 2 ^ 31 ≤ w.toNat then 2 ^ 31 else 0))

/-- Counts `n` in the counter register at an offset. -/
def bumpN (s : State) (a n : Nat) : State := if n = 0 then s else wr s a (countWord (rd s a) n)

/-- Counts 1 in the counter register at an offset. -/
def bump (s : State) (a : Nat) : State := bumpN s a 1

/-- Counts 1 when a condition holds. -/
def bumpIf (c : Bool) (s : State) (a : Nat) : State := if c then bump s a else s

/-- Adds 1 to a field that saturates at its width. -/
def satBump (s : State) (f : Fld) : State := setF s f (satSucc (2 ^ f.len - 1) (getF s f))

/-- Sets a field and, where the value is higher, its PEAK field (the fill registers of chapters 3, 6 and 12). -/
def setPeak (s : State) (f pk : Fld) (n : Nat) : State :=
  let s1 := setF s f n
  if getF s1 pk < n then setF s1 pk n else s1

/-- Writes a pair of registers that hold one 64-bit value. -/
def wrPair (s : State) (lo hi v : Nat) : State := wr (wr s lo (Word.ofNat v)) hi (Word.ofNat (v / 2 ^ 32))

/-- The 64-bit value of a pair of registers. -/
def rdPair (s : State) (lo hi : Nat) : Nat := (rd s lo).toNat + 2 ^ 32 * (rd s hi).toNat

/-- Returns the registers of an offset range that no condition spares to their reset values. -/
def resetRegs (s : State) (keep : Nat → Bool) : State := { s with regs := s.regs.filter (fun e => keep e.1) }

end Sys2Proof.Machine
end

