-- ==== Sys2Proof/Machine/Ops.lean ====
section
/-! DEFINITION. The operations that every chapter shares: time, device-to-host entries and events (R487, R493), posted-write failures (R502, R503), fault reports and their reactions (R526 to R539), and entry into a top-level state (R32). -/

namespace Sys2Proof.Machine

/-! ## Time -/

/-- CD38 ticks in a microsecond (5 ns each, R533). -/
def ticksPerUs : Nat := 200

/-- Has more than `n` microseconds not yet passed since a tick? -/
def withinUs (s : State) (from_ us : Nat) : Bool := decide (s.tick < from_ + us * ticksPerUs)

/-- A count of what has come in the running second, with the tick at which that second began: it starts anew when a second has passed (R63, R173, R499). -/
def thisSecond (s : State) (x : Nat × Nat) : Nat × Nat := if withinUs s x.1 1000000 then x else (s.tick, 0)

/-- Is impedance reference k within ±1 % of 2.00 kΩ, as RESET measured it (R474)? -/
def rcalOk (s : State) (k : Nat) : Bool := decide (1980 ≤ s.pwr.rcal.getD k 0) && decide (s.pwr.rcal.getD k 0 ≤ 2020)

/-- PTP time in nanoseconds since the epoch. -/
def Ptp.total (p : Ptp) : Nat := p.sec * 1000000000 + p.ns

/-- The PTP time of a number of nanoseconds. -/
def Ptp.ofNs (n : Nat) : Ptp := { sec := n / 1000000000 % 2 ^ 48, ns := n % 1000000000, frac := 0 }

/-- TIM_STAT.TIME_STATE: 0 UNKNOWN, 1 HOLDOVER, 2 SET as Table 15-15 codes it. -/
def timeState (s : State) : Nat := getF s Reg.TIM_STAT_TIME_STATE

/-- The increment of the PTP clock in ns x 2^32: TIM_INCR held to the limits of R422. -/
def timIncr (s : State) : Nat := clamp 0x1475A31A5 0x14801F751 (rdPair s Reg.TIM_INCR_LO Reg.TIM_INCR_HI)

/-- PTP time in units of 2^-32 ns. -/
def Ptp.fine (p : Ptp) : Nat := p.total * 2 ^ 32 + p.frac

/-- The PTP time of a number of units of 2^-32 ns. -/
def Ptp.ofFine (n : Nat) : Ptp := { Ptp.ofNs (n / 2 ^ 32) with frac := n % 2 ^ 32 }

/-- `n` CD38 ticks pass: the tick counter of R533 goes on, and the PTP clock adds its increment at each CD37 tick, of which
125 fall in 32 CD38 ticks (R422). The PTP clock begins to count in BRINGUP (R426). Nothing runs in OFF and RESET. -/
def advance (s : State) (n : Nat) : State :=
  if s.top = .off ∨ s.top = .reset then s
  else if !s.boot.up then { s with tick := s.tick + n }
  else
    let k := (s.tick + n) * 125 / 32 - s.tick * 125 / 32
    { s with tick := s.tick + n, ptp := Ptp.ofFine (s.ptp.fine + k * timIncr s) }

/-- The epoch in units of 2^-32 of its 0.625 ns ticks: 8 cycles of CD08 to a CD38 tick, each of 1 + c (R246, R425). -/
def epochFine (s : State) : Nat :=
  if !s.boot.up then s.qd.epochBase
  else ((s.qd.epochBase : Int) + (s.tick - s.qd.epochTick : Nat) * 8 * ((2 : Int) ^ 32 + s.qd.epochCorr)).toNat

/-! ## Top-level state and role -/

/-- BRINGUP, RUN and HOLD accept OPER writes and host commands (R11, Table 24-2). -/
def operOpen (s : State) : Bool := s.top == .bringup || s.top == .run || s.top == .hold

/-- STATUS reports and W1C clears act from LOAD onwards (R592). -/
def powered (s : State) : Bool := s.top != .off && s.top != .reset

/-- Is slice n without its logic: in SLEEP, or not back in service since (Table 22-1, R565)? -/
def sliceSleeps (s : State) (n : Nat) : Bool :=
  let x := getF s (Reg.PWR_SLICE_STAT_STATE n)
  x == 4 || x == 5 || x == 6 || (x == 3 && s.slc.unjoined.contains n)

/-- PAIR_CFG.MODE = 1: pair mode. -/
def pairMode (s : State) : Bool := getF s Reg.PAIR_CFG_MODE == 1

/-- PAIR_STAT.ROLE: 0 SOLO, 1 ACTIVE, 2 STANDBY, 3 WITHDRAWN. -/
def role (s : State) : Nat := getF s Reg.PAIR_STAT_ROLE

/-- Is the card STANDBY or WITHDRAWN, whose requests and credits are never sent (R352)? -/
def offLine (s : State) : Bool := pairMode s && (role s == 2 || role s == 3)

/-- Does the switch-over gap run (R47, R353)? -/
def gapRuns (s : State) : Bool := s.pair.gap.any (fun t => decide (s.tick < t))

/-! ## Performance counters -/

/-- Does a performance group count: its slice is not in SLEEP, and a tenant group is enabled (R547, R548)? -/
def perfCounts (s : State) (g : Nat) : Bool :=
  if g < 85 then
    let sl := if g < 20 then g else if g < 40 then g - 20 else if g < 60 then g - 40 else if g < 68 then g - 40
      else if g < 80 then g - 40 else 63
    sl == 63 || getF s (Reg.PWR_SLICE_STAT_STATE sl) != 4
  else decide (128 ≤ g) && flag s (Reg.CNT_PERF_TEN_EN (g - 128))

/-- Adds `n` to event `e` of performance group `g`; the counter wraps at 2^48 and sets its OVF (R547). -/
def perfAdd (s : State) (g e n : Nat) : State :=
  if n = 0 || !perfCounts s g then s
  else
    let c := 8 * g + e
    let v := mget 0 s.cnt.perf c + n
    let o := if 2 ^ 48 ≤ v ∧ c ∉ s.cnt.perfOvf then c :: s.cnt.perfOvf else s.cnt.perfOvf
    { s with cnt := { s.cnt with perf := mput 0 s.cnt.perf c (v % 2 ^ 48), perfOvf := o } }

/-- Counts event `e` of performance group `g` once. -/
def perf (s : State) (g e : Nat) : State := perfAdd s g e 1

/-- Counts event `e` by `n` in every group that counts a tenant (Table 21-1). -/
def perfTenant (s : State) (t e n : Nat) : State :=
  (List.range 128).foldl (fun a j => if getF s (Reg.CNT_PERF_TEN_TENANT j) = t then perfAdd a (128 + j) e n else a) s

/-! ## Device-to-host entries -/

/-- The key of ring r of function f. -/
def ringKey (f r : Nat) : Nat := f * 64 + r

/-- The number of entries of a ring (R486, Table 18-18). -/
def ringSize (s : State) (f r : Nat) : Nat := 2 ^ clamp 6 16 (getF s (Reg.HIF_RING_CFG_SIZE_LOG2 f r))

/-- The rings that a function owns (Table 18-3). -/
def ringExists (f r : Nat) : Bool :=
  if f = 0 then decide (r ≤ 43) else r == 0 || r == 17 || r == 18 || r == 19 || r == 27 || r == 35 || r == 36

/-- Does a ring run: the function is enabled, its rings are enabled, the ring is enabled and not stopped (R486, R488, Table 18-17)? -/
def ringRuns (s : State) (f r : Nat) : Bool :=
  flag s (Reg.HIF_FN_STAT_ENABLED f) && flag s (Reg.HIF_FN_CFG_RINGS_EN f) && flag s (Reg.HIF_RING_CFG_EN f r)
    && !flag s (Reg.HIF_RING_STAT_STOPPED f r)

/-- Free entries of a device-to-host ring: full when PROD + 1 = CONS modulo the size (R486). -/
def ringRoom (s : State) (f r : Nat) : Nat :=
  let n := ringSize s f r
  let used := (getF s (Reg.HIF_RING_PROD_INDEX f r) + n - getF s (Reg.HIF_RING_CONS_INDEX f r)) % n
  n - 1 - used

/-- The next SEQ of a ring: 1 after the ring is enabled, and from 0xFFFF_FFFF back to 1 (R487). -/
def nextSeq (n : Nat) : Nat := if n + 1 < 2 ^ 32 then n + 1 else 1

/-- A 64-byte entry: SEQ, 56 bytes of content, the trailer ~SEQ (R487). -/
def mkEntry (seq : Nat) (content : Bytes) : Bytes := leBytes 4 seq ++ fit 56 content ++ leBytes 4 (2 ^ 32 - 1 - seq)

/-- Sends a ring's MSI-X vector, unless its holdoff runs and the signal is not one that ignores it (R483). -/
def signal (s : State) (f r : Nat) (force : Bool) : State :=
  let k := ringKey f r
  if force || (mfind s.hif.holdoff k).isNone then
    let v := getF s (Reg.HIF_RING_CFG_VECTOR f r)
    let h := if v < getF s (Reg.HIF_FN_CFG_MSIX_CNT f) ∧ f ∈ s.hif.msixOn then
        { s.hif with msix := mput 0 s.hif.msix (f * 2048 + v) (mget 0 s.hif.msix (f * 2048 + v) + 1) }
      else s.hif
    { s with hif := if getF s (Reg.HIF_RING_CFG_MOD_US f r) = 0 then h
        else { h with holdoff := mset h.holdoff k (some false) } }
  else { s with hif := { s.hif with holdoff := mset s.hif.holdoff k (some true) } }

/-- Writes an index to the writeback address of ring r (R486, R487). -/
def ringWb (s : State) (f r i : Nat) : State := { s with hif := { s.hif with wb := mset s.hif.wb (ringKey f r) (some i) } }

/-- Writes one entry to a device-to-host ring that has room: SEQ, PROD, its writeback after the entry, and the signal after PROD (R483, R486, R487). -/
def pushEntry (s : State) (f r : Nat) (content : Bytes) (force : Bool) : State :=
  let k := ringKey f r
  let q := nextSeq (mget 0 s.hif.seq k)
  let o := mput [] s.hif.out k (mget [] s.hif.out k ++ [mkEntry q content])
  let s1 := { s with hif := { s.hif with seq := mput 0 s.hif.seq k q, out := o } }
  let p := (getF s1 (Reg.HIF_RING_PROD_INDEX f r) + 1) % ringSize s1 f r
  signal (ringWb (setF s1 (Reg.HIF_RING_PROD_INDEX f r) p) f r p) f r force

/-- Writes an event to a function's event ring, or counts EVT_LOST when the ring is full or disabled (R493). -/
def hostEvent (s : State) (f typ : Nat) (body : Bytes) (force : Bool := false) : State :=
  if ringRuns s f 18 && decide (0 < ringRoom s f 18) then
    perf (pushEntry s f 18 ([byteOf typ, 0, 0, 0] ++ fit 52 body) force) 82 2
  else bump s (Reg.HIF_CNT 7)

/-- Splits a completion's result over 1 to 4 entries of 48 bytes (R492). -/
def complChunks : Nat → Bytes → List Bytes
  | 0, _ => []
  | k + 1, b => if b.length ≤ 48 then [b] else b.take 48 :: complChunks k (b.drop 48)

/-- Writes the entries of a completion, START on the first and END on the last (Table 18-6). -/
def pushCompl (s : State) (f op tag status ring : Nat) : Bool → List Bytes → State
  | _, [] => s
  | first, c :: r =>
    pushCompl (perf (pushEntry s f 17 ([byteOf (b2n first + 2 * b2n r.isEmpty), byteOf op] ++ leBytes 2 tag
      ++ [byteOf status, byteOf ring, 0, 0] ++ fit 48 c) false) 82 1) f op tag status ring false r

/-- A command of function f is no longer in flight (R488, Table 18-15). -/
def landed (s : State) (f : Nat) : State :=
  setF (setF s Reg.HIF_INFLIGHT_NOW (getF s Reg.HIF_INFLIGHT_NOW - 1)) (Reg.HIF_FN_STAT_NOW f) (getF s (Reg.HIF_FN_STAT_NOW f) - 1)

/-- Completions of function f are written, in order, while its ring has room for them (R487, R488). -/
def drainOwed (f : Nat) : Nat → State → State
  | 0, s => s
  | n + 1, s =>
    match mget [] s.hif.owed f with
    | [] => s
    | (c, status, result) :: r =>
      let chunks := complChunks 4 result
      if ringRoom s f 17 < chunks.length then s
      else
        let s1 := landed { s with hif := { s.hif with owed := mput [] s.hif.owed f r } } f
        drainOwed f n (pushCompl s1 c.fn c.opcode c.tag status (c.ring % 64) true chunks)

/-- Ends a command (R488, R492): its completion is written to the function's completion ring, or waits for room there. One whose function has been reset is discarded
(R484), as is one whose ring does not run. -/
def complete (s : State) (c : HostCmd) (status : Nat) (result : Bytes) : State :=
  if c ∉ s.hif.inFlight then s
  else
    let s1 := perfTenant (perf s 82 0) c.fn 7 1
    let s2 := { s1 with hif := { s1.hif with inFlight := s1.hif.inFlight.erase c } }
    if c.ring < 64 ∧ ringRuns s2 c.fn 17 then
      let l := mget [] s2.hif.owed c.fn ++ [(c, status, result)]
      drainOwed c.fn l.length { s2 with hif := { s2.hif with owed := mput [] s2.hif.owed c.fn l } }
    else landed s2 c.fn

/-! ## Posted writes that fail -/

/-- The causes of Table 18-12. -/
inductive PwfCause where
  | isSealed | unassigned | width | target | table
  deriving DecidableEq, Repr

def PwfCause.code : PwfCause → Nat
  | .isSealed => 1 | .unassigned => 2 | .width => 3 | .target => 4 | .table => 5

/-- Writes words to consecutive registers from an offset. -/
def wrWords (s : State) (a : Nat) : List Word → State
  | [] => s
  | w :: r => wrWords (wr s a w) (a + 4) r

/-- The PWF log (R503): an entry while fewer than 64 are kept, else OVER. -/
def pwfLog (s : State) (w0 addr data : Nat) : State :=
  let k := getF s Reg.HIF_PWF_STAT_KEPT
  if k < 64 then
    setF (wrWords s (Reg.HIF_PWF_LOG k 0) [Word.ofNat w0, Word.ofNat addr, Word.ofNat data, Word.ofNat s.ptp.ns, Word.ofNat s.ptp.sec])
      Reg.HIF_PWF_STAT_KEPT (k + 1)
  else satBump s Reg.HIF_PWF_STAT_OVER

/-- Word 0 of an entry of the PWF log (Table 18-13): FUNCTION, BAR, CAUSE, DETAIL. -/
def pwfHead (f bar cause detail : Nat) : Nat := f + 256 * bar + 4096 * cause + 65536 * detail

/-- Logs a failed write (R503): an entry in the log; a PWF event to the function, signalled despite MOD_US; and the function's HIF_VF_PWF. -/
def pwfD (s : State) (f bar addr data : Nat) (c : PwfCause) (detail : Nat) : State :=
  let s1 := pwfLog s (pwfHead f bar c.code detail) addr data
  let s2 := hostEvent (perf s1 82 7) f 7 ([byteOf c.code, byteOf detail, byteOf bar, 0] ++ leBytes 4 addr ++ leBytes 4 data) true
  if f = 0 then s2
  else setF (setF (satBump s2 (Reg.HIF_VF_PWF_COUNT f)) (Reg.HIF_VF_PWF_LAST_CAUSE f) c.code)
    (Reg.HIF_VF_PWF_LAST_ADDR f) (addr / 16)

/-- A failed BAR0 write of PF0 with cause TARGET (R502). -/
def pwfTarget (s : State) (addr data : Nat) : State := pwfD s 0 0 addr data .target 0

/-- A free value: the next value that the spec leaves open. -/
def freshNat (s : State) : Nat × State := (Config.freeNat s.free, { s with free := s.free + 1 })

/-- A write of an OPER register acts in BRINGUP, RUN and HOLD; from LOAD to APPLY it is dropped and logged with cause
TARGET; BAR0 is unreachable in OFF and RESET (R11, R592). -/
def operWrite (s : State) (addr data : Nat) (act : State → State) : State :=
  if operOpen s then act s else if powered s then pwfTarget s addr data else s

/-! ## Fault reports -/

/-- The severity of a source: fixed for PWR_TRIP, the default until APPLY completes, FLT_SEV after it (R527). -/
def severity (s : State) (src : Nat) : Nat :=
  if src = Src.trip then 4
  else if s.boot.up then fget (rd s (Reg.FLT_SEV (src / 8))) (4 * (src % 8)) 3
  else srcDefault src

/-- Is STATUS of a source 1? -/
def srcStatus (s : State) (src : Nat) : Bool := s.flt.status.contains src

/-- Is FAULT_L driven low (R530)? -/
def faultLow (s : State) : Bool :=
  match s.top with
  | .off => false
  | .reset => s.pwr.tripHold
  | _ => s.pwr.cd38Lost || s.pwr.tripHold || s.flt.status.any (fun x => severity s x == 4)

/-- The highest severity of any STATUS bit set; 7 for none (FLT_STAT.MAX_SEV). -/
def maxSev (s : State) : Nat :=
  if s.flt.status.isEmpty then 7 else s.flt.status.foldl (fun a x => max a (severity s x)) 0

/-- Is slice n, or the whole device, under a SERVICE reaction (R529)? -/
def isolated (s : State) (n : Nat) : Bool := s.flt.hold.any (fun e => e.2 == n || e.2 == 63)

/-- COUNT of a source saturates at 65,535 and sets SAT (Table 20-12). -/
def srcCount (s : State) (src : Nat) : State :=
  if getF s (Reg.FLT_SRC_CNT_COUNT src) = 65535 then setB s (Reg.FLT_SRC_CNT_SAT src) true
  else satBump s (Reg.FLT_SRC_CNT_COUNT src)

/-- The words of a fault record (Table 20-6). -/
def mkRecord (s : State) (seq src : Nat) (r : Report) : List Word :=
  let w1 := src + r.sev * 2 ^ 11 + b2n r.injected * 2 ^ 15 + getF s (Reg.FLT_SRC_CNT_COUNT src) * 2 ^ 16
  [Word.ofNat seq, Word.ofNat w1, Word.ofNat (r.time.ns + r.timeState * 2 ^ 30), Word.ofNat r.time.sec,
   Word.ofNat r.loc, Word.ofNat (r.loc / 2 ^ 32 % 65536 + r.time.sec / 2 ^ 32 % 65536 * 65536), Word.ofNat r.detail,
   Word.ofNat (2 ^ 32 - 1 - seq)]

/-- The bytes of register words, each least significant byte first. -/
def wordBytes (l : List Word) : Bytes := l.flatMap (fun w => leBytes 4 w.toNat)

/-- Does a report come before another in the device's order, by tick and then by source (R533)? -/
def before (t x t' x' : Nat) : Bool := decide (t < t') || (t == t' && decide (x < x'))

/-- A record enters the first-fault register. -/
def firstPut (s : State) (t src : Nat) (rcd : List Word) : State :=
  setB (wrWords { s with flt := { s.flt with firstAt := some (t, src) } } (Reg.FLT_FIRST 0) rcd) Reg.FLT_FIRST_STAT_VALID true

/-- The first qualifying report of the latest tick that has one. -/
def firstNote (s : State) (t src : Nat) (rcd : List Word) : State :=
  match s.flt.firstOf with
  | some (u, y, _) => if decide (u < t) || before t src u y then { s with flt := { s.flt with firstOf := some (t, src, rcd) } } else s
  | none => { s with flt := { s.flt with firstOf := some (t, src, rcd) } }

/-- First-fault capture: the first report, in the device's order, at or above FIRST_MIN_SEV since the last clear (R533). -/
def captureFirst (s0 : State) (src : Nat) (r : Report) (rcd : List Word) : State :=
  if r.sev < min 4 (getF s0 Reg.FLT_CFG_FIRST_MIN_SEV) then s0
  else
    let s := firstNote s0 r.tick src rcd
    let first := match s.flt.firstAt with
      | some (t, x) => before r.tick src t x
      | none => true
    if first && decide (s.flt.firstFrom ≤ r.tick) then firstPut s r.tick src rcd else s

/-- A report stamped now (R533). -/
def stamp (s : State) (inj : Bool) (src loc detail : Nat) : Report :=
  { loc := loc, detail := detail, tick := s.tick, time := s.ptp, sev := severity s src, timeState := timeState s, injected := inj }

/-- The local reaction of a SERVICE report, by the slice of its place (Table 20-5). `dramFail` is what the report does to the
interfaces of a DRAM slice (R323). -/
def serviceReaction (dramFail : State → Nat → State) (s : State) (src : Nat) (loc : Nat) : State :=
  let sl := if locDieOf loc = 2 then 63 else locSliceOf loc
  let s1 := if (src, sl) ∈ s.flt.hold then s else { s with flt := { s.flt with hold := (src, sl) :: s.flt.hold } }
  if 28 ≤ sl ∧ sl ≤ 39 then dramFail (dramFail s1 (2 * (sl - 28))) (2 * (sl - 28) + 1) else s1

/-- STATUS of a source becomes 1 (R528). -/
def setStatus (s : State) (src : Nat) : State :=
  if src ∈ s.flt.status then s else { s with flt := { s.flt with status := src :: s.flt.status } }

/-- A report of a source whose latch is occupied is merged into it: it raises COUNT and STATUS at once, counts MERGED, and qualifies for first-fault capture (R533, R534). -/
def mergeLatched (s : State) (src : Nat) (r : Report) : State :=
  let s1 := setStatus (srcCount (bump (bump s (Reg.FLT_CNT 0)) (Reg.FLT_CNT 2)) src) src
  captureFirst s1 src r (mkRecord s1 0 src r)

/-- Latches a report in its die collector, stamped with the tick and the PTP time (R533). A report of a source whose latch
is occupied is merged into it: it raises COUNT and STATUS at once and counts MERGED, and it takes the reactions that a
merged report takes (R534). Reports raised before LOAD are not collected (R528). -/
def reportWith (dramFail : State → Nat → State) (inj : Bool) (s : State) (src loc detail : Nat) : State :=
  if !powered s || !srcAssigned src then s
  else
    let r := stamp s inj src loc detail
    if (mfind s.flt.latch src).isSome then
      let s1 := mergeLatched s src r
      if 3 ≤ r.sev then serviceReaction dramFail { s1 with flt := { s1.flt with follow := true } } src loc else s1
    else { s with flt := { s.flt with latch := mset s.flt.latch src (some r) } }

/-- What DRAM interface i holds is lost, and its write queue is discarded (R323, R324). -/
def dramLost (s : State) (i : Nat) : State :=
  let d := { s.drm with wq := merase s.drm.wq i, cache := merase s.drm.cache i, dirty := merase s.drm.dirty i }
  let s1 := setF { s with drm := d } (Reg.DRC_DI_STAT_WQ_LINES i) 0
  { s1 with qd := { s1.qd with bufs := s1.qd.bufs.map (fun e => if e.2.dram && e.2.di == i then (e.1, { e.2 with lost := true }) else e) } }

/-- The pauses due and announced of interface i are withdrawn, and no SLEEP waits for one any more (R324). -/
def pauseWithdraw (s : State) (i : Nat) : State :=
  let other (m : Maint) : Bool := !(m.act == 1 && m.res == i)
  let x := { s.slc with due := s.slc.due.filter other, running := s.slc.running.filter other }
  { s with slc := x, drm := { s.drm with sleepAfter := s.drm.sleepAfter.filter (· != i) } }

/-- DRAM interface i enters FAILED (R323, R324): its state, its pauses withdrawn, and the report of DRC_DI_FAIL as a level, with `more` for what a merged one does at
SERVICE. -/
def dramFailedWith (more : State → Nat → State) (s : State) (i : Nat) : State :=
  if getF s (Reg.DRC_DI_STAT_STATE i) = 6 ∨ getF s (Reg.DRC_DI_STAT_STATE i) = 0 then s
  else
    let s1 := pauseWithdraw (dramLost (setF s (Reg.DRC_DI_STAT_STATE i) 6) i) i
    reportWith more false { s1 with flt := { s1.flt with cause := mset s1.flt.cause (Src.drcFail i) (some (locDi i, 0)) } } (Src.drcFail i) (locDi i) 0

/-- DRAM interface i enters FAILED; a merged report of it at SERVICE fails the other interface of its slice. -/
def dramFailed (s : State) (i : Nat) : State := dramFailedWith (dramFailedWith (fun t _ => t)) s i

/-- A report of an event source, or one more report of a level. -/
def report (s : State) (src loc detail : Nat) : State := reportWith dramFailed false s src loc detail

/-- The condition of a level source begins: its cause is present, and it is reported (R526). -/
def levelOn (s : State) (src loc detail : Nat) : State :=
  if (mfind s.flt.cause src).isSome then s
  else report { s with flt := { s.flt with cause := mset s.flt.cause src (some (loc, detail)) } } src loc detail

/-- The condition of a level source begins, or begins once more beside one that stands, which is reported as well. -/
def levelMore (s : State) (src loc detail : Nat) : State :=
  if (mfind s.flt.cause src).isSome then report s src loc detail else levelOn s src loc detail

/-- The condition of a level source ends. -/
def levelOff (s : State) (src : Nat) : State := { s with flt := { s.flt with cause := merase s.flt.cause src } }

/-- The condition of a level source is `b` now. -/
def levelIs (b : Bool) (s : State) (src loc detail : Nat) : State := if b then levelOn s src loc detail else levelOff s src

/-! ## Places of words -/

/-- The location code of a memory word on a die (R22 to R25): this device's own package, one of the first `n` slices or the logic that belongs to none, and
the levels down to the row; a whole word has no column. -/
def placed (die n x : Nat) : Nat :=
  let sl := x / 2 ^ 28 % (n + 1)
  locCode die (if sl = n then 63 else sl) (x / 2 ^ 23) (x / 2 ^ 18) (x / 2 ^ 12) x 255

/-- The location code of a word of table SRAM, action memory or the pattern store, all on FD, by its number in `Config.tableLoc`. -/
def fdWord (key : Nat) : Nat := placed 0 20 (Config.tableLoc key)

/-- The location code of a buffer of packet SRAM, on QD, by its handle. -/
def qdWord (h : Nat) : Nat := placed 1 40 (Config.sramLoc h)

/-- The place that an injected report names: a slice of Table 1-5 on a die that holds it, the common logic of a die, or the package. -/
def injectPlace (src : Nat) : Nat :=
  let x := Config.injectLoc src % 63
  if x < 20 then locSlice 0 x else if x < 60 then locSlice 1 (x - 20) else if x = 62 then locPackage else locSlice (x - 60) 63

/-- Can a location code of this device's own collectors name a memory word (R22 to R25)? -/
def wordCode (loc : Nat) : Bool :=
  let sl := locSliceOf loc
  bits loc 44 4 == 0 && (sl == 63 || decide (sl < 20 * (locDieOf loc + 1))) && decide (locDieOf loc < 2)

/-! ## Memory injection -/

/-- The mask of an armed memory injection of a word, and the state with ARM back at 0 (R587); 0 when none is armed for it.
`gran` is the bit of the location code from which the word is told from its neighbours. -/
def injTake (s : State) (loc gran : Nat) : Nat × State :=
  let armed := rdPair s Reg.TST_MEMINJ_LOC_LO Reg.TST_MEMINJ_LOC_HI % 2 ^ 48
  if flag s Reg.TST_MEMINJ_CTL_ARM && armed / 2 ^ gran == loc / 2 ^ gran then
    (getF s Reg.TST_MEMINJ_CTL_MASK, setB s Reg.TST_MEMINJ_CTL_ARM false)
  else (0, s)

/-- What a fully written word holds after its check bits were XORed with a mask: its data bits and its SECDED outcome (R587).
The poison pattern is check bits 64 and 71. -/
def injOutcome (mask v : Nat) : Nat × EccErr :=
  match onesOf 8 mask with
  | [] => (v, .good)
  | [i] => (v, .single (64 + i))
  | [i, j] => (v, if i = 0 ∧ j = 7 then .poison else .uncorr)
  | _ =>
    let c := Config.manyBits mask
    if c < 72 then (if c < 64 then Nat.xor v (2 ^ c) else v, .single c) else (v, .uncorr)

/-- Does a full write of the word at a location that the spec does not place leave it uncorrectable, by an armed injection (R587)? -/
def injUncorr (s : State) (loc gran : Nat) : Bool × State :=
  if !flag s Reg.TST_MEMINJ_CTL_ARM then (false, s)
  else
    let (mask, s1) := injTake s loc gran
    match (injOutcome mask 0).2 with
    | .uncorr => (true, s1)
    | .poison => (true, s1)
    | _ => (false, s1)

/-! ## Entry into a top-level state -/

/-- Enters a top-level state (R32): the time in the state restarts (DEV_STATE_TIME). -/
def enterTop (s : State) (t : TopState) : State := { s with top := t, stateTick := s.tick }

/-- Enters HOLD (R374): the reason, the image, the slot, the detail and the status; BOOT_HOLD is a level while in HOLD. One entered in APPLY leaves it sealed
(R29, R378). -/
def enterHold (s : State) (reason image slot detail status : Nat) : State :=
  let s1 := setF (setF (setF (setF s Reg.BOOT_HOLD_STAT_REASON reason) Reg.BOOT_HOLD_STAT_IMAGE image)
    Reg.BOOT_HOLD_STAT_SLOT slot) Reg.BOOT_HOLD_STAT_STATUS status
  let s2 := wr s1 Reg.BOOT_HOLD_DETAIL (Word.ofNat detail)
  let s3 := if s.top = .apply then { s2 with boot := { s2.boot with sealed := true } } else s2
  levelOn (if s.top = .hold then s3 else enterTop s3 .hold) Src.bootHold (locSlice 0 63) 0

/-- Leaves HOLD: the level of BOOT_HOLD ends (Table 20-2). -/
def leaveHold (s : State) (t : TopState) : State := enterTop (levelOff s Src.bootHold) t

end Sys2Proof.Machine
end

