-- ==== Sys2Proof/Machine/Faults.lean ====
section
/-! DEFINITION. Fault collection and reaction (chapter 20): collecting a latched report, clearing STATUS, the record ring, the first-fault register, the NVM fault log, the partner's records, and injection (R586). -/

namespace Sys2Proof.Machine

/-- The source that an injection holds, if any (R586). -/
def injected (s : State) : Option Nat :=
  if flag s Reg.TST_INJ_CTL_EN then some (getF s Reg.TST_INJ_CTL_SOURCE) else none

/-- CAUSE of a source: its condition holds, or an injection of it does (R526, R541). -/
def srcCause (s : State) (src : Nat) : Bool := (mfind s.flt.cause src).isSome || injected s == some src

/-- The latched report that comes first, by tick and then by source number, of those stamped before tick `now`: the reports of a tick are in order once it is over (R533). -/
def nextLatched (now : Nat) : NMap Report → Option (Nat × Report)
  | [] => none
  | (k, r) :: t =>
    match nextLatched now t with
    | none => if r.tick < now then some (k, r) else none
    | some (j, q) => if q.tick < r.tick ∨ now ≤ r.tick then some (j, q) else some (k, r)

/-- Is the record ring full (R535)? -/
def recRingFull (s : State) : Bool :=
  (getF s Reg.FLT_RING_STAT_WR_IDX + 1) % 1024 == getF s Reg.FLT_RING_RD_RD_IDX

/-- FILL follows WR_IDX and RD_IDX (Table 20-10). -/
def recRingFill (s : State) : State :=
  setF s Reg.FLT_RING_STAT_FILL ((getF s Reg.FLT_RING_STAT_WR_IDX + 1024 - getF s Reg.FLT_RING_RD_RD_IDX) % 1024)

/-- Writes a record at WR_IDX of a ring that is not full. -/
def recRingPut (s : State) (rcd : List Word) : State :=
  let i := getF s Reg.FLT_RING_STAT_WR_IDX
  recRingFill (setF (wrWords s (Reg.FLT_REC i 0) rcd) Reg.FLT_RING_STAT_WR_IDX ((i + 1) % 1024))

/-- Copies a record to the VBAT domain (R444, R445, R539). -/
def vbatCopy (s : State) (rcd : List Word) : State :=
  { s with vbat := { s.vbat with record := rcd, recMark := 0xA55A } }

/-- Offers an own record to the NVM fault log: at most 100 a second, at most 64 waiting (R539). -/
def nvlogOffer (s : State) (rcd : List Word) : State :=
  let recent := s.flt.nvTimes.filter (fun t => decide (s.tick < t + 1000000 * ticksPerUs))
  if decide (100 ≤ recent.length) || decide (64 ≤ s.flt.nvWait.length) then bump s (Reg.FLT_CNT 8)
  else { s with flt := { s.flt with nvWait := s.flt.nvWait ++ [rcd], nvTimes := s.tick :: recent } }

/-- Queues a FAULT message: at most 32 wait (R531). -/
def faultMsg (s : State) (src loc : Nat) : State :=
  if 32 ≤ s.flt.msgs.length then bump s (Reg.FLT_CNT 7)
  else { s with flt := { s.flt with msgs := s.flt.msgs ++ [(src, locSliceOf loc, locDieOf loc)] } }

/-- The FAULT event of an own record at DEGRADE or higher, signalled at once (R536). -/
def faultEvent (s : State) (rcd : List Word) (idx : Nat) : State :=
  hostEvent s 0 8 (wordBytes rcd ++ leBytes 2 idx) true

/-- What a report does whether or not it is merged: REPORTS, COUNT, STATUS and INJECTED (R528, R534, Table 20-12). -/
def takeReport (s : State) (src : Nat) (r : Report) : State :=
  let s1 := setStatus (srcCount (bump s (Reg.FLT_CNT 0)) src) src
  let l := s1.flt.injected.filter (· != src)
  { s1 with flt := { s1.flt with injected := if r.injected then src :: l else l } }

/-- The record of a report at NOTE or higher, and every reaction that hangs on a record (R528 to R539). -/
def makeRecord (s : State) (src : Nat) (r : Report) : State :=
  let sev := r.sev
  let q := nextSeq s.flt.seq
  let rcd := mkRecord s q src r
  let full := recRingFull s
  let idx := if full then 0xFFFF else getF s Reg.FLT_RING_STAT_WR_IDX
  let s := { s with flt := { s.flt with seq := q, lastRec := mset s.flt.lastRec src (some r.tick) } }
  let s := captureFirst s src r rcd
  let s := if full then bump s (Reg.FLT_CNT 3) else recRingPut s rcd
  let s := if 2 ≤ sev then faultEvent s rcd idx else s
  let s := if 3 ≤ sev then serviceReaction dramFailed s src r.loc else s
  let s := if 4 ≤ sev ∧ pairMode s then faultMsg s src r.loc else s
  let s := if 3 ≤ sev ∨ src = Src.vinWarn then vbatCopy s rcd else s
  let s := if getF s Reg.FLT_CFG_NVM_MIN_SEV ≤ min 4 sev then nvlogOffer s rcd else s
  if pairMode s && flag s Reg.FLT_CFG_GAL_EN && flag s Reg.PAIR_STAT_GALLERY_UP && role s != 3 then
    { s with flt := { s.flt with gallery := s.flt.gallery ++ [(s.tick, rcd)] } }
  else s

/-- Is a report merged because it falls within REC_HOLD_US of the last record of its source (R534)? -/
def mergedByHold (s : State) (src : Nat) (r : Report) : Bool :=
  match mfind s.flt.lastRec src with
  | some t => decide (r.tick < t + getF s Reg.FLT_CFG_REC_HOLD_US * ticksPerUs)
  | none => false

/-- A report that is merged: COUNT and STATUS, MERGED, a SERVICE reaction, first-fault capture with SEQ 0 (R533, R534). -/
def mergeReport (s : State) (src : Nat) (r : Report) : State :=
  let s := bump s (Reg.FLT_CNT 2)
  let s := if 3 ≤ r.sev then serviceReaction dramFailed s src r.loc else s
  captureFirst s src r (mkRecord s 0 src r)

/-- What collecting the report of a source does (R528, R534). -/
def collectReport (s : State) (src : Nat) (r : Report) : State :=
  let s := takeReport { s with flt := { s.flt with latch := merase s.flt.latch src } } src r
  if mergedByHold s src r then mergeReport s src r
  else if r.sev = 0 then captureFirst s src r (mkRecord s 0 src r)
  else makeRecord s src r

/-- FAULT_COLLECT (R534): the latched report that comes first is taken. -/
def faultCollect (s : State) : State :=
  match nextLatched s.tick s.flt.latch with
  | none => s
  | some (src, r) => collectReport s src r

/-- FLT_STATUS_CLEAR (R537): a write of 1 to STATUS of a source. It clears once the cause is gone and no report of the
source is latched or stamped in this tick, and it releases the reactions that the source alone held; a DRAM slice's lasts until the slice is removed and added
(Table 20-5). -/
def fltStatusClear (src : Nat) (s : State) : State :=
  if !powered s || !srcStatus s src then s
  else if srcCause s src || (mfind s.flt.latch src).isSome then
    bump s (Reg.FLT_CNT 1)
  else
    let st := s.flt.status.filter (· != src)
    { s with flt := { s.flt with status := st, hold := s.flt.hold.filter (fun e => e.1 != src || (decide (28 ≤ e.2) && decide (e.2 ≤ 39))) } }

/-- The first-fault register is empty. -/
def firstEmpty (s : State) : State :=
  setB (wrWords { s with flt := { s.flt with firstAt := none, firstFrom := s.tick } } (Reg.FLT_FIRST 0) (List.replicate 8 0)) Reg.FLT_FIRST_STAT_VALID false

/-- FIRST_FAULT_CLEAR (R533): a write of FLT_FIRST_CTL.CLEAR empties the first-fault register; a qualifying report of the same tick is then captured. -/
def firstFaultClear (s : State) : State :=
  operWrite s Reg.FLT_FIRST_CTL 1 (fun s =>
    match s.flt.firstOf with
    | some (t, x, rcd) => if t = s.tick then firstPut (firstEmpty s) t x rcd else firstEmpty s
    | none => firstEmpty s)

def execFirstFaultClear (s : State) : Out := .next (firstFaultClear s)

/-- RING_RD_WRITE (R535, Table 20-10): a write of FLT_RING_RD releases records; a value that passes WR_IDX is dropped and
logged with cause TARGET. -/
def ringRdWrite (v : Nat) (s : State) : State :=
  operWrite s Reg.FLT_RING_RD v (fun s =>
    let r := getF s Reg.FLT_RING_RD_RD_IDX
    let w := getF s Reg.FLT_RING_STAT_WR_IDX
    if (v % 1024 + 1024 - r) % 1024 ≤ (w + 1024 - r) % 1024 then recRingFill (setF s Reg.FLT_RING_RD_RD_IDX v)
    else pwfTarget s Reg.FLT_RING_RD v)

def execRingRdWrite (v : Nat) (s : State) : Out := .next (ringRdWrite v s)

/-- A record whose CHECK is ~SEQ is complete (Table 20-6). -/
def recordWhole (rcd : List Word) : Bool := (rcd.getD 7 0).toNat == 2 ^ 32 - 1 - (rcd.getD 0 0).toNat

/-- NVLOG_READ (R540): a write of INDEX brings the log record into FLT_NVLOG_DATA; VALID says that it passed its CHECK. -/
def nvlogRead (v : Nat) (s : State) : State :=
  operWrite s Reg.FLT_NVLOG_IDX v (fun s =>
    let i := v % 8192
    let rcd := match mfind s.nvm.area.log i with
      | some r => r.2
      | none => (List.range 8).map (fun k => Config.nvmErased (8 * i + k))
    setB (wrWords (setF s Reg.FLT_NVLOG_IDX_INDEX i) (Reg.FLT_NVLOG_DATA 0) rcd) Reg.FLT_NVLOG_STAT_VALID (recordWhole rcd))

def execNvlogRead (v : Nat) (s : State) : Out := .next (nvlogRead v s)

/-- A record as the ring holds it when it comes from the partner: PARTNER = 1 and PACKAGE = 1 (R25, R538). -/
def partnerRecord (rcd : List Word) : List Word :=
  match rcd with
  | [a, b, c, d, e, f, g, h] => [a, fset b 14 1 1, c, d, e, fset f 12 4 1, g, h]
  | _ => rcd

/-- PARTNER_FAULT_RECORD (R538): a record of the Gallery FAULT stream is written into the ring, and it takes no other reaction. -/
def partnerFaultRecord (rcd : List Word) (s : State) : State :=
  if !powered s || !pairMode s || rcd.length ≠ 8 then s
  else if recRingFull s then bump s (Reg.FLT_CNT 5)
  else bump (recRingPut s (partnerRecord rcd)) (Reg.FLT_CNT 4)

def execPartnerFaultRecord (rcd : List Word) (s : State) : Out := .next (partnerFaultRecord rcd s)

/-- FAULT_INJECT (R541, R584, R586): a write of TST_INJ_CTL. It acts in FACTORY only. A write of EN = 1 injects a report of
SOURCE and holds its cause; a new SOURCE, or EN = 0, ends the injection before. -/
def faultInject (v : Nat) (s : State) : State :=
  operWrite s Reg.TST_INJ_CTL v (fun s =>
    let src := bits v 0 11
    if s.boot.lc != .factory || !srcAssigned src then pwfTarget s Reg.TST_INJ_CTL v
    else
      let s := setB (setF s Reg.TST_INJ_CTL_SOURCE src) Reg.TST_INJ_CTL_EN (bit v 16)
      let s := setB s Reg.TST_STAT_INJ_ON (bit v 16)
      if bit v 16 then
        reportWith dramFailed true (bump s (Reg.TST_CNT 4)) src (injectPlace src) 0
      else s)

def execFaultInject (v : Nat) (s : State) : Out := .next (faultInject v s)

end Sys2Proof.Machine
end

