-- ==== Sys2Proof/Machine/Counters.lean ====
section
/-! DEFINITION. Statistics counter pairs, performance event counters, snapshots and hardware dumps (chapter 21). -/

namespace Sys2Proof.Machine

/-! ## Counting -/

/-- A pair after one count of `len` bytes; FRAMES wraps at 2^40 and BYTES at 2^56, each with its overflow bit (R543). -/
def Pair.count (p : Pair) (len : Nat) : Pair :=
  { frames := (p.frames + 1) % 2 ^ 40, bytes := (p.bytes + len) % 2 ^ 56,
    ovfF := p.ovfF || decide (2 ^ 40 ≤ p.frames + 1), ovfB := p.ovfB || decide (2 ^ 56 ≤ p.bytes + len) }

/-- Counts a frame of `len` bytes in statistics pair `i` (R543, R544). -/
def countPair (s : State) (i len : Nat) : State :=
  if 2097152 ≤ i then s
  else { s with cnt := { s.cnt with pairs := mput {} s.cnt.pairs i ((mget {} s.cnt.pairs i).count len) } }

/-! ## Reading a pair -/

/-- The counts of a pair with its baseline offset, modulo each width; the overflow bits are those of the stored counts (R546). -/
def pairValue (s : State) (i : Nat) : Pair :=
  let p := mget {} s.cnt.pairs i
  let (f, b) := mget (0, 0) s.cnt.offset i
  { p with frames := (p.frames + f) % 2 ^ 40, bytes := (p.bytes + b) % 2 ^ 56 }

/-- PAIR_READ (R546, Table 21-4): a write of CNT_RD_CTL. GO latches the pair into CNT_RD_DATA, and CLEAR sets its counts,
overflow bits and offset to 0. -/
def pairRead (v : Nat) (s : State) : State :=
  operWrite s Reg.CNT_RD_CTL v (fun s =>
    let s := setB (setF s Reg.CNT_RD_CTL_IDX v) Reg.CNT_RD_CTL_CLEAR (bit v 21)
    let i := bits v 0 21
    if !bit v 22 then s
    else if flag s Reg.CNT_STAT_RD_BUSY then pwfTarget s Reg.CNT_RD_CTL v
    else
      let p := pairValue s i
      let hi := p.frames / 2 ^ 32 + 2 ^ 8 * b2n p.ovfF + 2 ^ 9 * b2n p.ovfB
      let s1 := wrWords s (Reg.CNT_RD_DATA 0)
        [Word.ofNat p.frames, Word.ofNat hi, Word.ofNat p.bytes, Word.ofNat (p.bytes / 2 ^ 32)]
      if bit v 21 then
        { s1 with cnt := { s1.cnt with pairs := merase s1.cnt.pairs i, offset := merase s1.cnt.offset i } }
      else s1)

/-- The command whose effect is `pairRead`. -/
def execPairRead (v : Nat) (s : State) : Out := .next (pairRead v s)

/-! ## Tenant groups -/

/-- Revokes group `g` from every function (R548). -/
def revokeGroup (s : State) (g : Nat) : State :=
  (List.range 256).foldl (fun a f =>
    let fl : Fld := ⟨Reg.HIF_GRANT f (g / 32), g % 32, 1⟩
    if flag a fl then setB a fl false else a) s

/-- Sets the counters of a performance group and their OVF bits to 0. -/
def zeroGroup (s : State) (g : Nat) : State :=
  { s with cnt := { s.cnt with perf := s.cnt.perf.filter (fun e => e.1 / 8 != g), perfOvf := s.cnt.perfOvf.filter (fun c => c / 8 != g) } }

/-- PERF_TENANT_WRITE (R548): a write of CNT_PERF_TEN[j]. A change of TENANT or a clear of EN first revokes every grant of the group and zeroes it. -/
def perfTenantWrite (j : Fin 128) (v : Nat) (s : State) : State :=
  operWrite s (Reg.CNT_PERF_TEN j) v (fun s =>
    let change := getF s (Reg.CNT_PERF_TEN_TENANT j) != v % 256 || (flag s (Reg.CNT_PERF_TEN_EN j) && !bit v 8)
    let s1 := if change then zeroGroup (revokeGroup s (128 + j)) (128 + j) else s
    setB (setF s1 (Reg.CNT_PERF_TEN_TENANT j) v) (Reg.CNT_PERF_TEN_EN j) (bit v 8))

/-- The command whose effect is `perfTenantWrite`. -/
def execPerfTenantWrite (j : Fin 128) (v : Nat) (s : State) : Out := .next (perfTenantWrite j v s)

/-! ## Snapshots -/

/-- Every pair that reads other than 0, offsets added (R546). -/
def pairValues (s : State) : NMap Pair :=
  s.cnt.offset.foldl (fun m e => mput {} m e.1 (pairValue s e.1)) s.cnt.pairs

/-- HELD follows the snapshots (Table 21-4). -/
def heldCount (s : State) : State := setF s Reg.CNT_STAT_HELD s.cnt.snaps.length

/-- Is a number in the range of `n` from `a`? -/
def inRange (a n x : Nat) : Bool := decide (a ≤ x) && decide (x < a + n)

/-- The snapshot of an enabled dump group at this tick (R551). -/
def takeSnapshot (s : State) (d seq : Nat) : Snapshot :=
  let k := flag s (Reg.CNT_DGRP_CFG_KIND d)
  let a := getF s (Reg.CNT_DGRP_FIRST_FIRST d)
  let n := getF s (Reg.CNT_DGRP_COUNT_COUNT d)
  { seq := seq, epoch := s.ptp, timeState := timeState s, perfKind := k, ring := getF s (Reg.CNT_DGRP_CFG_RING d),
    first := a, count := n, skippedBefore := s.cnt.skipped.contains d, tick := s.tick,
    pairs := if k then [] else (pairValues s).filter (fun e => inRange a n e.1),
    perf := if k then s.cnt.perf.filter (fun e => inRange a n (e.1 / 8)) else [],
    perfOvf := if k then s.cnt.perfOvf.filter (fun c => inRange a n (c / 8)) else [] }

/-- DUMP_EPOCH (R551, R552): at each whole PERIOD_MS an enabled group latches every counter of its range, or skips the epoch while
its previous snapshot is held. DUMP_SEQ rises by 1 either way. -/
def dumpEpoch (d : Fin 64) (s : State) : State :=
  if !operOpen s || !flag s (Reg.CNT_DGRP_CFG_EN d) then s
  else
    let q := nextSeq (mget 0 s.cnt.seq d)
    let c := { s.cnt with seq := mput 0 s.cnt.seq d q }
    match mfind s.cnt.snaps d with
    | some _ =>
      let c := { c with skipped := if s.cnt.skipped.contains d.val then s.cnt.skipped else d.val :: s.cnt.skipped }
      report (bump { s with cnt := c } (Reg.CNT_CNT 2)) Src.dumpLost (locSlice 0 63) 0
    | none =>
      heldCount { s with cnt := { c with snaps := mset s.cnt.snaps d (some (takeSnapshot s d q)),
                                         skipped := s.cnt.skipped.filter (· != d.val) } }

/-- The command whose effect is `dumpEpoch`. -/
def execDumpEpoch (d : Fin 64) (s : State) : Out := .next (dumpEpoch d s)

/-! ## Dumps -/

/-- The 16 bytes of a pair in a data entry (Table 21-2). -/
def pairBytes (p : Pair) : Bytes :=
  leBytes 5 p.frames ++ [byteOf (b2n p.ovfF + 2 * b2n p.ovfB), 0, 0] ++ leBytes 7 p.bytes ++ [0]

/-- The data entries of a snapshot: how many (R554). -/
def Snapshot.entries (x : Snapshot) : Nat := if x.perfKind then x.count else ceilDiv x.count 3

/-- The first bytes of every dump entry: KIND and GROUP (Table 21-2). -/
def dumpHead (kind d : Nat) : Bytes := [byteOf kind, byteOf d, 0, 0]

/-- The content of data entry `i` of a dump (Table 21-2). -/
def dumpData (x : Snapshot) (d i : Nat) : Bytes :=
  if x.perfKind then
    let g := x.first + i
    let ovf := ofOnes ((List.range 8).filter (fun e => x.perfOvf.contains (8 * g + e)))
    fit 56 (dumpHead 2 d ++ leBytes 2 g ++ [byteOf ovf, 0] ++ (List.range 8).flatMap (fun e => leBytes 6 (mget 0 x.perf (8 * g + e))))
  else
    let p (k : Nat) : Bytes := if 3 * i + k < x.count then pairBytes (mget {} x.pairs (x.first + 3 * i + k)) else List.replicate 16 0
    fit 56 (dumpHead 1 d ++ leBytes 4 (x.first + 3 * i) ++ p 0 ++ p 1 ++ p 2)

/-- The content of the header entry (Table 21-2). -/
def dumpHeader (x : Snapshot) (d n : Nat) : Bytes :=
  fit 56 (dumpHead 0 d ++ leBytes 4 x.seq ++ leBytes 6 x.epoch.sec ++ leBytes 4 x.epoch.ns ++ [byteOf x.timeState, 0]
    ++ leBytes 4 n ++ leBytes 4 x.first ++ leBytes 4 x.count)

/-- The content of the trailer entry after the given data entries (Table 21-2). -/
def dumpTrailer (x : Snapshot) (d : Nat) (data : List Bytes) : Bytes :=
  fit 56 (dumpHead 3 d ++ leBytes 4 x.seq ++ leBytes 4 data.length ++ leBytes 4 (crc32c data.flatten)
    ++ [byteOf (b2n x.late + 2 * b2n x.skippedBefore)])

/-- Writes entries to a dump ring, counting ENTRIES (R557). -/
def pushDump (s : State) (f r : Nat) (l : List Bytes) : State :=
  l.foldl (fun a c => bump (perf (pushEntry a f r c false) 82 5) (Reg.CNT_CNT 1)) s

/-- Is group `g` granted to VF `f` (R501)? -/
def granted (s : State) (f g : Nat) : Bool := decide (1 ≤ f) && bit (rd s (Reg.HIF_GRANT f (g / 32))).toNat (g % 32)

/-- The dump of a performance group for VF `f`: only the entries of its granted groups, written whole or not at all (R556). -/
def dumpVf (x : Snapshot) (d : Nat) (s : State) (f : Nat) : State :=
  let gs := (List.range x.count).filter (fun i => granted s f (x.first + i))
  if gs.isEmpty then s
  else if ringRuns s f 36 && decide (gs.length + 2 ≤ ringRoom s f 36) then
    let data := gs.map (dumpData x d)
    pushDump s f 36 (dumpHeader x d data.length :: data ++ [dumpTrailer x d data])
  else bump s (Reg.CNT_CNT 5)

/-- The snapshot of a group is released; DUMP_SEQ of the group's last dump is recorded (Table 21-6). -/
def releaseSnap (s : State) (d : Nat) (x : Snapshot) : State :=
  let s1 := wr { s with cnt := { s.cnt with snaps := merase s.cnt.snaps d } } (Reg.CNT_DGRP_STAT d) (Word.ofNat x.seq)
  heldCount (setB s1 Reg.CNT_STAT_DUMP_RUN (s1.cnt.snaps.any (fun e => decide (0 < e.2.written))))

/-- A dump whose ring is disabled, flushed by FLR or stopped is abandoned (R555). -/
def abandonDump (s : State) (d : Nat) (x : Snapshot) : State :=
  report (bump (releaseSnap s d x) (Reg.CNT_CNT 4)) Src.dumpLost (locSlice 0 63) 0

/-- A PF0 dump ring is disabled, flushed by FLR or stopped: each dump that waits for it or is under way there is abandoned (R555). -/
def abandonRing (s : State) (f r : Nat) : State :=
  if f = 0 ∧ 36 ≤ r then (s.cnt.snaps.filter (fun e => 36 + e.2.ring == r)).foldl (fun a e => abandonDump a e.1 e.2) s else s

/-- DUMP_WRITE (R553 to R557): the held snapshot of a group goes on to its ring as far as the ring has room, header, data and trailer.
A dump of another group under way on the ring, or one of a lower number that waits, goes first. -/
def dumpWrite (d : Fin 64) (s : State) : State :=
  match mfind s.cnt.snaps d with
  | none => s
  | some x =>
    let r := 36 + x.ring
    let first := s.cnt.snaps.any (fun e => e.1 != d.val && e.2.ring == x.ring
      && (decide (0 < e.2.written) || (x.written == 0 && decide (e.1 < d.val) && e.2.tick == x.tick)))
    if first then s
    else if !ringRuns s 0 r then abandonDump s d x
    else
      let n := x.entries
      let s := { s with slc := { s.slc with due := s.slc.due.filter (fun m => !(m.act == 4 && m.res == d.val)) } }
      let late := x.late || (x.written == 0 && decide (x.tick + 1000 * ticksPerUs < s.tick))
      let s := bumpIf (late && !x.late) s (Reg.CNT_CNT 3)
      let x := { x with late := late }
      let data := (List.range n).map (dumpData x d)
      let all := dumpHeader x d n :: data ++ [dumpTrailer x d data]
      let take := min (ringRoom s 0 r) (n + 2 - x.written)
      let s := pushDump s 0 r ((all.drop x.written).take take)
      if x.written + take < n + 2 then
        let y := { x with written := x.written + take }
        setB { s with cnt := { s.cnt with snaps := mset s.cnt.snaps d (some y) } } Reg.CNT_STAT_DUMP_RUN
          (decide (0 < y.written) || flag s Reg.CNT_STAT_DUMP_RUN)
      else
        let s := bump s (Reg.CNT_CNT 0)
        let s := if x.perfKind then (upFrom 1 255).foldl (dumpVf x d) s else s
        releaseSnap s d x

/-- The command whose effect is `dumpWrite`. -/
def execDumpWrite (d : Fin 64) (s : State) : Out := .next (dumpWrite d s)

/-- EN of a dump group was set: DUMP_SEQ starts again at 1 (Table 21-6). -/
def dumpGroupEnabled (s : State) (d : Nat) : State := { s with cnt := { s.cnt with seq := merase s.cnt.seq d } }

/-- May a dump group's registers hold these values (R550)? -/
def dumpRangeOk (cfg first count : Nat) : Bool :=
  let lim := if bit cfg 1 then 256 else 2097152
  decide (first % 2 ^ 21 + count % 2 ^ 22 ≤ lim) && !(bit cfg 0 && count % 2 ^ 22 == 0)

/-- The pair range of tenant `t` holds pair `i` (R545). -/
def tenantPair (s : State) (t i : Nat) : Bool := inRange (getF s (Reg.CNT_TEN_BASE_BASE t)) (getF s (Reg.CNT_TEN_COUNT_COUNT t)) i

end Sys2Proof.Machine
end

