-- ==== Sys2Proof/Machine/Mirror.lean ====
section
/-! DEFINITION. The CMD stream that the active card of a pair sends (R342, R343), and what a standby refuses (R344). -/

namespace Sys2Proof.Machine

/-- The registers whose OPER writes Table 12-8 mirrors: LIN_PORT_CTL, LIN_PORT_MAC, ACT_PORT_MIR, ACT_MIR_CFG, ACT_MIR_DEST, ACT_MIR_EDIT,
ACT_SMAC, FTB_TENANT_AGE and FTB_TENANT_LIMIT, every SCH_GATE register, FAB_PROT_CTL and FAB_TRAIL_EXP. -/
def mirroredReg (a : Nat) : Bool :=
  let b := a / 0x100000
  let lin := (b == 8 || b == 9) && decide (a < 0x0940000) && decide (0x1000 ≤ a % 0x10000)
    && (a % 0x400 == 0x10 || a % 0x400 == 0x14 || a % 0x400 == 0x18)
  let act := b == 13 && ((decide (0x0D00400 ≤ a) && decide (a < 0x0D00688))
    || (decide (0x0D00900 ≤ a) && decide (a < 0x0D00A00)) || (decide (0x0D01000 ≤ a) && decide (a < 0x0D01800)))
  let ftb := decide (0x0C01000 ≤ a) && decide (a < 0x0C01800)
  let gate := decide (Reg.SCH_GATE_CTL 0 ≤ a) && decide (a < Reg.SCH_GATE_CTL 160)
  let fab := a == Reg.FAB_PROT_CTL || (b == 20 && (List.range 8).any (fun g => a == Reg.FAB_TRAIL_EXP g))
  lin || act || ftb || gate || fab

/-- The SEQ after q in the CMD stream (R342). -/
def cmdAfter (q : Nat) : Nat := (q + 1) % 2 ^ 32

/-- The region of REPLAY that a CMD item changes (R351), in ascending order: tables 0 to 23, 24 for the pattern store, 25 for the mirrored registers. DESIGN CHOICE: a region is a whole table. -/
def itemRegion (x : CmdItem) : Nat :=
  match x with
  | .reg _ _ _ => 25
  | .table c _ => if 0x10 ≤ c.opcode then 24 else c.table

/-- Does the replay that runs still carry what an item changes, so that CMD does not (R351)? -/
def replayCarries (s : State) (x : CmdItem) : Bool := flag s Reg.PAIR_STAT_RESYNC_RUN && decide (s.pair.replayReg ≤ itemRegion x)

/-- The active card gives an item the next SEQ and keeps it in the replay buffer of 65,536 (R342). -/
def mirrorItem (s : State) (x : CmdItem) : State :=
  if pairMode s && role s == 1 && !replayCarries s x then
    let q := cmdAfter (getF s Reg.PAIR_SEQ_TX_SEQ)
    let kept := merase s.pair.replay ((q + 2 ^ 32 - 65536) % 2 ^ 32)
    setF { s with pair := { s.pair with replay := mset kept q (some x) } } Reg.PAIR_SEQ_TX_SEQ q
  else s

/-- An entry whose state a snapshot carries has been touched by the active card (R347): key 2i for policer i, 2i + 1 for node i. It joins the end of the list. -/
def stateDue (s : State) (key : Nat) : State :=
  if pairMode s && role s == 1 then { s with pair := { s.pair with due := s.pair.due.erase key ++ [key] } } else s

/-- A memory test of a standby has failed (R330, R356). -/
def memTestFailed (s : State) : State := if pairMode s && role s == 2 then { s with pair := { s.pair with memFail := min 255 (s.pair.memFail + 1) } } else s

/-- Is the card a standby, whose host changes no mirrored item (R344)? -/
def standby (s : State) : Bool := pairMode s && role s == 2

/-- A host write of a mirrored OPER register: refused with cause TARGET on a standby, and sent in CMD by the active card once it has taken
effect. `ok` says that the target takes the value. -/
def operMirrored (s : State) (addr data : Nat) (ok : Bool) (act : State → State) : State :=
  operWrite s addr data (fun s =>
    if standby s || !ok then pwfTarget s addr data
    else mirrorItem (act s) (.reg 0 addr data))

/-! ## Probe frames -/

/-- A probe is over. -/
def probeGone (s : State) (q : Nat) : State := { s with tst := { s.tst with probes := merase s.tst.probes q } }

/-- A probe has failed (R583); one of a standby's own counts and is reported for the pair (R356). -/
def probeFail (s : State) (x : Probe) : State :=
  let s1 := bump s (Reg.TST_CNT 2)
  if x.standby then
    report (bump { s1 with pair := { s1.pair with probeFail := min 255 (s1.pair.probeFail + 1) } } (Reg.PAIR_CNT 14)) Src.probe (locSlice 0 x.pipe) x.pipe
  else s1

/-- The probe of a PROBE_SEQ is refused on its way (R583). -/
def probeRefused (s : State) (q : Nat) : State :=
  match mfind s.tst.probes q with
  | some x => probeFail (probeGone s q) x
  | none => s

end Sys2Proof.Machine
end

