-- ==== Sys2Proof/Machine/Parse.lean ====
section
/-! DEFINITION. The header parser as a function of a frame and a profile (R66 to R82, R602, R603): the parse record of Tables 3-4 to 3-6, its end code and its failure. -/

namespace Sys2Proof.Machine

/-! ## The parse record -/

/-- A parse record: 48 words of 32 bits as one number, word 0 lowest (R79). -/
abbrev PRec := Nat

/-- The fields of Tables 3-4 to 3-6: word, lowest bit, bits. A field wider than 32 bits runs into the words above. -/
def PF.lse (i : Nat) : Fld := ⟨13 + i, 0, 32⟩

namespace PF
def port : Fld := ⟨0, 0, 8⟩
def profile : Fld := ⟨0, 8, 4⟩
def fail : Fld := ⟨0, 12, 1⟩
def fragNofirst : Fld := ⟨0, 13, 1⟩
def nested : Fld := ⟨0, 14, 1⟩
def innerFrag : Fld := ⟨0, 15, 1⟩
def failCode : Fld := ⟨0, 16, 6⟩
def endCode : Fld := ⟨0, 22, 4⟩
def frag : Fld := ⟨0, 26, 2⟩
def elPresent : Fld := ⟨0, 28, 1⟩
def l2Type : Fld := ⟨1, 0, 2⟩
def vlanCnt : Fld := ⟨1, 2, 2⟩
def tag0S : Fld := ⟨1, 4, 1⟩
def mplsCnt : Fld := ⟨1, 5, 4⟩
def elIdx : Fld := ⟨1, 9, 3⟩
def l3Type : Fld := ⟨1, 12, 2⟩
def extCnt : Fld := ⟨1, 14, 3⟩
def extMask : Fld := ⟨1, 17, 4⟩
def l4Type : Fld := ⟨1, 21, 3⟩
def tunType : Fld := ⟨1, 24, 3⟩
def iVlanCnt : Fld := ⟨1, 27, 2⟩
def iL3Type : Fld := ⟨1, 29, 2⟩
def iL4Type : Fld := ⟨2, 0, 3⟩
def iExtCnt : Fld := ⟨2, 3, 3⟩
def ipProto : Fld := ⟨2, 8, 8⟩
def iIpProto : Fld := ⟨2, 16, 8⟩
def srhSl : Fld := ⟨2, 24, 8⟩
def etype : Fld := ⟨3, 0, 16⟩
def iEtype : Fld := ⟨3, 16, 16⟩
def offMpls : Fld := ⟨4, 0, 9⟩
def offL3 : Fld := ⟨4, 9, 9⟩
def offFragh : Fld := ⟨4, 18, 9⟩
def offL4 : Fld := ⟨5, 0, 9⟩
def offSrh : Fld := ⟨5, 9, 9⟩
def offTun : Fld := ⟨5, 18, 9⟩
def offL2i : Fld := ⟨6, 0, 9⟩
def offL3i : Fld := ⟨6, 9, 9⟩
def offL4i : Fld := ⟨6, 18, 9⟩
def offPay : Fld := ⟨7, 0, 9⟩
def offEnd : Fld := ⟨7, 9, 9⟩
def dmac : Fld := ⟨8, 0, 48⟩
def smac : Fld := ⟨9, 16, 48⟩
def tci0 : Fld := ⟨11, 0, 16⟩
def tci1 : Fld := ⟨11, 16, 16⟩
def pppoeSid : Fld := ⟨12, 0, 16⟩
def pppProto : Fld := ⟨12, 16, 16⟩
def sip : Fld := ⟨21, 0, 128⟩
def dip : Fld := ⟨25, 0, 128⟩
def dscp : Fld := ⟨29, 0, 6⟩
def ecn : Fld := ⟨29, 6, 2⟩
def ttl : Fld := ⟨29, 8, 8⟩
def tcpFlags : Fld := ⟨29, 16, 8⟩
def srhLe : Fld := ⟨29, 24, 8⟩
def flow : Fld := ⟨30, 0, 20⟩
def fragId : Fld := ⟨31, 0, 32⟩
def l4Sport : Fld := ⟨32, 0, 16⟩
def l4Dport : Fld := ⟨32, 16, 16⟩
def tunId : Fld := ⟨33, 0, 32⟩
def iSip : Fld := ⟨34, 0, 128⟩
def iDip : Fld := ⟨38, 0, 128⟩
def iL4Sport : Fld := ⟨42, 0, 16⟩
def iL4Dport : Fld := ⟨42, 16, 16⟩
def iDscp : Fld := ⟨43, 0, 6⟩
def iEcn : Fld := ⟨43, 6, 2⟩
def iTtl : Fld := ⟨43, 8, 8⟩
def iTcpFlags : Fld := ⟨43, 16, 8⟩
def iDmac : Fld := ⟨44, 0, 48⟩
def iSmac : Fld := ⟨45, 16, 48⟩
def iTci0 : Fld := ⟨47, 0, 16⟩
def iTci1 : Fld := ⟨47, 16, 16⟩
end PF

/-- A field of a parse record. -/
def pget (r : PRec) (f : Fld) : Nat := bits r (32 * f.reg + f.lo) f.len

/-- A parse record with one field set. -/
def pset (r : PRec) (f : Fld) (v : Nat) : PRec := withBits r (32 * f.reg + f.lo) f.len v

/-- A parse record with several fields set. -/
def psets (r : PRec) (l : List (Fld × Nat)) : PRec := l.foldl (fun a e => pset a e.1 e.2) r

/-- The 192 bytes of a parse record, each word least significant byte first. -/
def precBytes (r : PRec) : Bytes := leBytes 192 r

/-- The offset of an absent header (R79). -/
def noOff : Nat := 0x1FF

/-- The record before any header is read: every offset absent. -/
def precEmpty : PRec :=
  psets 0 ([PF.offMpls, PF.offL3, PF.offFragh, PF.offL4, PF.offSrh, PF.offTun, PF.offL2i, PF.offL3i, PF.offL4i, PF.offPay, PF.offEnd].map (·, noOff))

/-! ## Profiles and checks -/

/-- A parser profile (Tables 3-10 to 3-12). -/
structure Prof where
  num : Nat
  hdr : Nat
  vxlan : Nat
  geneve : Nat
  mplsPay : Nat
  innerFail : Bool
  deriving DecidableEq, Repr

/-- The enables of Table 3-10 by bit. -/
inductive HdrBit where
  | vlan | svlan | pppoe | mpls | ipv4 | ipv6 | ext | srh | l4 | gre | vxlan | geneve | ipip | inner | v4ck | frag
  deriving DecidableEq, Repr

def HdrBit.pos : HdrBit → Nat
  | .vlan => 0 | .svlan => 1 | .pppoe => 2 | .mpls => 3 | .ipv4 => 4 | .ipv6 => 5 | .ext => 6 | .srh => 7
  | .l4 => 8 | .gre => 9 | .vxlan => 10 | .geneve => 11 | .ipip => 12 | .inner => 13 | .v4ck => 14 | .frag => 15

/-- A frame under parse: its bytes without the FCS, and the profile. -/
structure PIn where
  data : Bytes
  prof : Prof
  deriving DecidableEq, Repr

def PIn.en (c : PIn) (b : HdrBit) : Bool := bit c.prof.hdr b.pos

/-- Where a parse ends: the record, and the offset of the failing header (PRS_LAST_FAIL). -/
structure PDone where
  record : PRec
  failOff : Nat
  deriving DecidableEq, Repr

/-- A parse that ends with an end code of Table 3-3. -/
def pstop (r : PRec) (e : Nat) : PDone := { record := pset r PF.endCode e, failOff := 0 }

/-- A header that fails (R80 to R82): an inner failure adds 32 to the code, and with INNER_FAIL = 1 it only ends the parse. -/
def pfail (c : PIn) (inner : Bool) (r : PRec) (code off : Nat) : PDone :=
  let r1 := pset r PF.failCode (code + (if inner then 32 else 0))
  if inner && c.prof.innerFail then { record := pset r1 PF.endCode 9, failOff := off }
  else { record := psets r1 [(PF.endCode, 10), (PF.fail, 1), (PF.offPay, noOff)], failOff := off }

/-- The first condition that holds names the failure code; 0 when none does. -/
def firstCode (l : List (Bool × Nat)) : Nat :=
  match l.find? (fun e => e.1) with
  | some e => e.2
  | none => 0

/-- Bytes that the parser can read: before the FCS and within bytes 0 to 255 (R67, R74). -/
def PIn.sees (c : PIn) (pos len : Nat) : Bool := decide (pos + len ≤ c.data.length) && decide (pos + len ≤ 256)

/-- The extent checks of a header (R74): beyond the frame, or beyond byte 255, by the boundary that comes first. -/
def PIn.extent (c : PIn) (pos len : Nat) : List (Bool × Nat) :=
  let d := c.data.length
  [(decide (d < pos + len) && decide (d ≤ 256), 1), (decide (256 < pos + len), 22), (decide (d < pos + len), 1)]

/-- A check on bytes of a header, made only when they can be read (R602 steps 1 and 2). -/
def PIn.seen (c : PIn) (pos len : Nat) (bad : Bool) (code : Nat) : Bool × Nat := (c.sees pos len && bad, code)

/-- The bytes from a header's first byte to the last before the FCS (R68). -/
def PIn.remaining (c : PIn) (pos : Nat) : Nat := c.data.length - pos

/-- A type/length value that Table 3-1 forbids. -/
def etypeReserved (t : Nat) : Bool := decide (0x05DD ≤ t) && decide (t ≤ 0x05FF)

/-- Goes on with a header, or fails it: `fs` are the offset fields of the failing header (R80). -/
def pcheck (c : PIn) (inner : Bool) (r : PRec) (pos : Nat) (fs : List Fld) (checks : List (Bool × Nat)) (go : PDone) : PDone :=
  match firstCode checks with
  | 0 => go
  | code => pfail c inner (psets r (fs.map (·, pos))) code pos

/-- The field of the outer or of the inner headers. -/
def io (inner : Bool) (outer innerF : Fld) : Fld := if inner then innerF else outer

/-- What follows a tunnel header. -/
inductive PNext where
  | eth | ip4 | ip6 | unknown
  deriving DecidableEq, Repr

/-- The inner header that a GRE or GENEVE protocol selects (Table 3-1); a disabled one is an unknown value (R72). -/
def protoNext (c : PIn) (p : Nat) : PNext :=
  if p = 0x6558 then .eth
  else if p = 0x0800 ∧ c.en .ipv4 then .ip4
  else if p = 0x86DD ∧ c.en .ipv6 then .ip6
  else .unknown

/-- What a parse does after the outer tunnel header. -/
abbrev PCont := PNext → PRec → Nat → PDone

/-! ## L4 headers and tunnels -/

/-- The L4 headers that a protocol value selects and the profile enables (R72, R77). -/
inductive L4Kind where
  | udp | tcp | icmp | icmp6 | gre | ipip | other
  deriving DecidableEq, Repr

def l4Kind (c : PIn) (v6 : Bool) (p : Nat) : L4Kind :=
  if p = 17 ∧ c.en .l4 then .udp
  else if p = 6 ∧ c.en .l4 then .tcp
  else if p = 1 ∧ !v6 ∧ c.en .l4 then .icmp
  else if p = 58 ∧ v6 ∧ c.en .l4 then .icmp6
  else if p = 47 ∧ c.en .gre then .gre
  else if (p = 4 ∨ p = 41) ∧ c.en .ipip then .ipip
  else .other

/-- The bytes that FRAG_TINY asks of a first fragment (Table 3-7). -/
def L4Kind.least : L4Kind → Nat
  | .tcp => 20 | .udp => 8 | .icmp => 8 | .icmp6 => 8 | .gre => 4 | _ => 0

/-- The record of an L4 header of `len` bytes. -/
def l4Fields (inner : Bool) (r : PRec) (pos typ sport dport len : Nat) : PRec :=
  psets r [(io inner PF.offL4 PF.offL4i, pos), (io inner PF.l4Type PF.iL4Type, typ),
    (io inner PF.l4Sport PF.iL4Sport, sport), (io inner PF.l4Dport PF.iL4Dport, dport),
    (PF.offPay, pos + len), (PF.offEnd, pos + len)]

/-- VXLAN (Table 3-1). -/
def pVxlan (c : PIn) (k : PCont) (r : PRec) (pos : Nat) : PDone :=
  pcheck c false r pos [PF.offTun]
    (c.seen pos 1 (!bit (byteAt c.data pos) 3) 20 :: c.extent pos 8)
    (k .eth (psets r [(PF.tunType, 1), (PF.offTun, pos), (PF.tunId, beAt c.data (pos + 4) 3), (PF.offEnd, pos + 8)]) (pos + 8))

/-- GENEVE (Table 3-1); its options are skipped. -/
def pGeneve (c : PIn) (k : PCont) (r : PRec) (pos : Nat) : PDone :=
  let b := byteAt c.data pos
  let len := 8 + (if c.sees pos 1 then b % 64 * 4 else 0)
  pcheck c false r pos [PF.offTun]
    (c.seen pos 1 (b / 64 != 0) 21 :: c.extent pos len)
    (k (protoNext c (beAt c.data (pos + 2) 2))
      (psets r [(PF.tunType, 2), (PF.offTun, pos), (PF.tunId, beAt c.data (pos + 4) 3), (PF.offEnd, pos + len)]) (pos + len))

/-- UDP, and the tunnel that its destination port selects (R69); an inner one ends the parse (R77). `tiny` is the FRAG_TINY check of its IPv6 layer, step 5 of
R602. DEDUCED: the length check of Table 3-1 stands without exception, so it applies to the UDP header of a first fragment too. -/
def pUdp (c : PIn) (inner tiny : Bool) (k : PCont) (r : PRec) (pos : Nat) : PDone :=
  let len := beAt c.data (pos + 4) 2
  let dp := beAt c.data (pos + 2) 2
  let r1 := l4Fields inner r pos 1 (beAt c.data pos 2) dp 8
  let vx := dp != 0 && dp == c.prof.vxlan
  let gn := dp != 0 && dp == c.prof.geneve && !vx
  let tun := (vx && c.en .vxlan) || (gn && c.en .geneve)
  pcheck c inner r pos [io inner PF.offL4 PF.offL4i]
    (c.seen (pos + 4) 2 (decide (len < 8)) 18 :: c.extent pos 8 ++ [(decide (c.remaining pos < len), 18), (tiny, 16)])
    (if tun then if inner then pstop (pset r1 PF.nested 1) 8 else if vx then pVxlan c k r1 (pos + 8) else pGeneve c k r1 (pos + 8)
     else pstop r1 0)

/-- TCP (Table 3-1). -/
def pTcp (c : PIn) (inner tiny : Bool) (r : PRec) (pos : Nat) : PDone :=
  let off := byteAt c.data (pos + 12) / 16
  let len := if c.sees (pos + 12) 1 then off * 4 else 20
  pcheck c inner r pos [io inner PF.offL4 PF.offL4i]
    (c.seen (pos + 12) 1 (decide (off < 5)) 18 :: c.extent pos len ++ [(tiny, 16)])
    (pstop (pset (l4Fields inner r pos 2 (beAt c.data pos 2) (beAt c.data (pos + 2) 2) len)
      (io inner PF.tcpFlags PF.iTcpFlags) (byteAt c.data (pos + 13))) 0)

/-- ICMP after IPv4 and ICMPv6 after IPv6 (Table 3-1): type and code as the source port, the identifier of an echo as the destination port. -/
def pIcmp (c : PIn) (inner tiny v6 : Bool) (r : PRec) (pos : Nat) : PDone :=
  let t := byteAt c.data pos
  let echo := if v6 then t = 128 ∨ t = 129 else t = 0 ∨ t = 8
  pcheck c inner r pos [io inner PF.offL4 PF.offL4i] (c.extent pos 8 ++ [(tiny, 16)])
    (pstop (l4Fields inner r pos (if v6 then 4 else 3) (beAt c.data pos 2) (if echo then beAt c.data (pos + 4) 2 else 0) 8) 0)

/-- GRE (Table 3-1); an inner one is read and ends the parse (R77). An outer one that fails sets OFF_TUN too, which Table 3-5 makes equal to OFF_L4. -/
def pGre (c : PIn) (inner tiny : Bool) (k : PCont) (r : PRec) (pos : Nat) : PDone :=
  let f := if c.sees pos 1 then byteAt c.data pos else 0
  let cf := b2n (bit f 7)
  let kf := b2n (bit f 5)
  let len := 4 + 4 * (cf + kf + b2n (bit f 4))
  let r1 := l4Fields inner r pos 5 0 0 len
  pcheck c inner r pos (if inner then [PF.offL4i] else [PF.offL4, PF.offTun])
    (c.seen (pos + 1) 1 (byteAt c.data (pos + 1) % 8 != 0) 19 :: c.extent pos len ++ [(tiny, 16)])
    (if inner then pstop (pset r1 PF.nested 1) 8
     else k (protoNext c (beAt c.data (pos + 2) 2))
       (psets r1 [(PF.tunType, 3), (PF.offTun, pos), (PF.tunId, if kf = 1 then beAt c.data (pos + 4 + 4 * cf) 4 else 0)]) (pos + len))

/-- The L4 header after an IP layer, or the end of the parse (R77, R603, Table 3-3). `left` is the declared payload of a first fragment of IPv6, none of any
other packet: FRAG_TINY stands after the header's own checks (R602). -/
def pL4 (c : PIn) (inner v6 : Bool) (left : Option Int) (k : PCont) (r : PRec) (pos proto : Nat) : PDone :=
  let other := pset r (io inner PF.l4Type PF.iL4Type) 6
  let kind := l4Kind c v6 proto
  let tiny := match left with | some x => decide (x < (kind.least : Int)) | none => false
  match kind with
  | .udp => pUdp c inner tiny k r pos
  | .tcp => pTcp c inner tiny r pos
  | .icmp => pIcmp c inner tiny false r pos
  | .icmp6 => pIcmp c inner tiny true r pos
  | .gre => pGre c inner tiny k r pos
  | .ipip =>
    if inner then pstop (pset other PF.nested 1) 8
    else
      let next : PNext := if proto = 4 then if c.en .ipv4 then .ip4 else .unknown else if c.en .ipv6 then .ip6 else .unknown
      k next (psets other [(PF.tunType, 4), (PF.offTun, pos)]) pos
  | .other => pstop other 5

/-! ## IP headers -/

/-- The kind of a fragment (R86): 0 none, 1 first, 2 later, 3 atomic. -/
def fragKind (off : Nat) (more v6 : Bool) : Nat := if off ≠ 0 then 2 else if more then 1 else if v6 then 3 else 0

/-- The record of a fragment: FRAG and OFF_FRAGH of the outer header, INNER_FRAG of the inner one (R78). -/
def fragFields (inner : Bool) (r : PRec) (kind pos : Nat) : PRec :=
  if inner then if kind = 1 ∨ kind = 2 then pset r PF.innerFrag 1 else r
  else if kind = 0 then r else psets r [(PF.frag, kind), (PF.offFragh, pos)]

/-- The IPv4 header (Table 3-1). FRAG_TINY and FRAG_OVERLAP are checks of this header, before its checksum (R602). -/
def pIpv4 (c : PIn) (inner : Bool) (k : PCont) (r : PRec) (pos : Nat) : PDone :=
  let b := byteAt c.data pos
  let ihl := if c.sees pos 1 then b % 16 * 4 else 20
  let total := beAt c.data (pos + 2) 2
  let ff := beAt c.data (pos + 6) 2
  let kind := fragKind (ff % 8192) (bit ff 13) false
  let proto := byteAt c.data (pos + 9)
  let l4 := l4Kind c false proto
  let tos := byteAt c.data (pos + 1)
  let r1 := psets r [(io inner PF.offL3 PF.offL3i, pos), (io inner PF.l3Type PF.iL3Type, 1),
    (io inner PF.sip PF.iSip, beAt c.data (pos + 12) 4), (io inner PF.dip PF.iDip, beAt c.data (pos + 16) 4),
    (io inner PF.dscp PF.iDscp, tos / 4), (io inner PF.ecn PF.iEcn, tos % 4), (io inner PF.ttl PF.iTtl, byteAt c.data (pos + 8)),
    (io inner PF.ipProto PF.iIpProto, proto), (PF.offEnd, pos + ihl)]
  let r2 := fragFields inner (if inner then r1 else pset r1 PF.fragId (beAt c.data (pos + 4) 2)) kind pos
  pcheck c inner r pos [io inner PF.offL3 PF.offL3i]
    ([c.seen pos 1 (b / 16 != 4) 7, c.seen pos 1 (decide (b % 16 < 5)) 8] ++ c.extent pos ihl
      ++ [(decide (total < ihl) || decide (c.remaining pos < total), 9),
          (kind == 1 && decide (total - ihl < l4.least), 16),
          (kind == 2 && ff % 8192 == 1 && l4 == .tcp, 17),
          (c.en .v4ck && onesSum (slice c.data pos ihl) != 0xFFFF, 10)])
    (if kind = 2 then pstop r2 6 else pL4 c inner false none k r2 (pos + ihl) proto)

/-- The extension header types that are recognised (Table 3-1). -/
def extBit (nh : Nat) : Option Nat :=
  match nh with | 0 => some 0 | 43 => some 1 | 44 => some 2 | 60 => some 3 | _ => none

/-- What the chain of extension headers has brought so far: how many, which, the fragment's kind, the declared payload left. -/
structure PExt where
  count : Nat
  mask : Nat
  kind : Nat
  left : Int
  deriving DecidableEq, Repr

/-- The extension headers of an IPv6 header, and what follows them (R73, R80, R87). DESIGN CHOICE: of two Fragment headers the last sets FRAG, OFF_FRAGH and
FRAG_ID, and OFF_SRH, SRH_SL, SRH_LE, EXT_MASK and FLOW are the outer header's alone. -/
def pExt (c : PIn) (inner : Bool) (k : PCont) : Nat → PRec → Nat → Nat → PExt → PDone
  | 0, r, _, _, _ => pstop r 5
  | fuel + 1, r, pos, nh, x =>
    let r := pset r (io inner PF.ipProto PF.iIpProto) nh
    match (if c.en .ext then extBit nh else none) with
    | none =>
      pL4 c inner true (if x.kind = 1 then some x.left else none) k r pos nh
    | some e =>
      let srh := nh == 43 && c.sees (pos + 2) 1 && byteAt c.data (pos + 2) == 4 && c.en .srh
      let hel := byteAt c.data (pos + 1)
      let len := if nh = 44 ∨ !c.sees (pos + 1) 1 then 8 else (hel + 1) * 8
      let le := byteAt c.data (pos + 4)
      let fo := beAt c.data (pos + 2) 2
      let kind := if nh = 44 then fragKind (fo / 8) (bit fo 0) true else x.kind
      let nx := byteAt c.data pos
      let r1 := psets r ([(io inner PF.extCnt PF.iExtCnt, x.count + 1), (PF.offEnd, pos + len)]
        ++ (if inner then [] else [(PF.extMask, Nat.lor x.mask (2 ^ e))])
        ++ (if srh && !inner then [(PF.offSrh, pos), (PF.srhSl, byteAt c.data (pos + 3)), (PF.srhLe, le)] else [])
        ++ (if nh = 44 ∧ !inner then [(PF.fragId, beAt c.data (pos + 4) 4)] else []))
      let r2 := if nh = 44 then fragFields inner r1 kind pos else r1
      let field := if inner then [] else if nh = 44 then [PF.offFragh] else if srh then [PF.offSrh] else []
      let later := nh == 44 && kind == 2
      pcheck c inner r pos field
        ([(nh == 0 && x.count != 0, 14), (x.count == 4, 13)] ++ c.extent pos len
          ++ [(srh && (decide (le < byteAt c.data (pos + 3)) || decide (hel < 2 * (le + 1))), 15),
              (later && fo / 8 == 1 && l4Kind c true nx == .tcp, 17)])
        (if later then pstop (pset r2 (io inner PF.ipProto PF.iIpProto) nx) 6
         else pExt c inner k fuel r2 (pos + len) nx
           { count := x.count + 1, mask := Nat.lor x.mask (2 ^ e), kind := kind, left := x.left - len })

/-- The IPv6 header (Table 3-1). -/
def pIpv6 (c : PIn) (inner : Bool) (k : PCont) (r : PRec) (pos : Nat) : PDone :=
  let w := beAt c.data pos 4
  let plen := beAt c.data (pos + 4) 2
  let tc := w / 2 ^ 20 % 256
  let r1 := psets r ([(io inner PF.offL3 PF.offL3i, pos), (io inner PF.l3Type PF.iL3Type, 2),
    (io inner PF.sip PF.iSip, beAt c.data (pos + 8) 16), (io inner PF.dip PF.iDip, beAt c.data (pos + 24) 16),
    (io inner PF.dscp PF.iDscp, tc / 4), (io inner PF.ecn PF.iEcn, tc % 4), (io inner PF.ttl PF.iTtl, byteAt c.data (pos + 7)),
    (PF.offEnd, pos + 40)] ++ (if inner then [] else [(PF.flow, w % 2 ^ 20)]))
  pcheck c inner r pos [io inner PF.offL3 PF.offL3i]
    (c.seen pos 1 (byteAt c.data pos / 16 != 6) 11 :: c.extent pos 40 ++ [(decide (c.remaining pos < 40 + plen), 12)])
    (pExt c inner k 6 r1 (pos + 40) (byteAt c.data (pos + 6)) { count := 0, mask := 0, kind := 0, left := plen })

/-! ## L2 headers -/

/-- PPPoE session and discovery (Table 3-1). -/
def pPppoe (c : PIn) (k : PCont) (r : PRec) (pos : Nat) (session : Bool) : PDone :=
  let sid := beAt c.data (pos + 2) 2
  let ver := c.seen pos 1 (byteAt c.data pos != 0x11) 5
  if session then
    let proto := beAt c.data (pos + 6) 2
    let r1 := psets r [(PF.l2Type, 2), (PF.pppoeSid, sid), (PF.pppProto, proto), (PF.offEnd, pos + 8)]
    pcheck c false r pos []
      ([ver, c.seen (pos + 1) 1 (byteAt c.data (pos + 1) != 0) 5] ++ c.extent pos 8
        ++ [(decide (c.remaining pos < beAt c.data (pos + 4) 2 + 6), 5)])
      (if proto = 0x0021 ∧ c.en .ipv4 then pIpv4 c false k r1 (pos + 8)
       else if proto = 0x0057 ∧ c.en .ipv6 then pIpv6 c false k r1 (pos + 8)
       else pstop r1 3)
  else
    pcheck c false r pos [] (ver :: c.extent pos 6)
      (pstop (psets r [(PF.l2Type, 3), (PF.pppoeSid, sid), (PF.offEnd, pos + 6)]) 3)

/-- The label stack from an offset: its entries, or the failure code (R71, R73, R80). -/
def labelStack (c : PIn) : Nat → Nat → List Nat → Except Nat (List Nat)
  | 0, _, _ => .error 6
  | fuel + 1, pos, acc =>
    match firstCode (c.extent pos 4) with
    | 0 =>
      let e := beAt c.data pos 4
      if bit e 8 then .ok (acc ++ [e]) else labelStack c fuel (pos + 4) (acc ++ [e])
    | code => .error code

/-- The index of the entropy label: the entry after the first indicator that is not the bottom of stack (R71). -/
def entropyIdx (l : List Nat) : Option Nat :=
  (l.findIdx? (fun e => e / 4096 == 7 && !bit e 8)).map (· + 1)

/-- MPLS and its payload (R70, R71). -/
def pMpls (c : PIn) (k : PCont) (r : PRec) (pos : Nat) : PDone :=
  match labelStack c 8 pos [] with
  | .error code => pfail c false (pset r PF.offMpls pos) code pos
  | .ok l =>
    let at_ := pos + 4 * l.length
    let r1 := psets r ([(PF.offMpls, pos), (PF.mplsCnt, l.length), (PF.offEnd, at_)] ++ l.zipIdx.map (fun e => (PF.lse e.2, e.1))
      ++ (match entropyIdx l with | some i => [(PF.elPresent, 1), (PF.elIdx, i)] | none => []))
    let nib := byteAt c.data at_ / 16
    if c.prof.mplsPay = 0 ∨ !c.sees at_ 1 then pstop r1 4
    else if nib = 4 ∧ c.en .ipv4 then pIpv4 c false k r1 at_
    else if nib = 6 ∧ c.en .ipv6 then pIpv6 c false k r1 at_
    else if nib = 0 ∧ c.prof.mplsPay = 2 then
      pcheck c false r1 at_ [PF.offTun] (c.extent at_ 4)
        (k .eth (psets r1 [(PF.tunType, 5), (PF.offTun, at_), (PF.offEnd, at_ + 4)]) (at_ + 4))
    else pstop r1 4

/-- The end of an L2 chain: the type selects the next header (R72, R76, Table 3-3). -/
def pL2End (c : PIn) (inner : Bool) (k : PCont) (r : PRec) (pos t : Nat) : PDone :=
  let r := pset r (io inner PF.etype PF.iEtype) t
  if t ≤ 0x05DC then pstop (if inner then r else pset r PF.l2Type 1) 1
  else if t = 0x0800 ∧ c.en .ipv4 then pIpv4 c inner k r pos
  else if t = 0x86DD ∧ c.en .ipv6 then pIpv6 c inner k r pos
  else if inner then pstop r 2
  else if (t = 0x8864 ∨ t = 0x8863) ∧ c.en .pppoe then pPppoe c k r pos (t == 0x8864)
  else if (t = 0x8847 ∨ t = 0x8848) ∧ c.en .mpls then pMpls c k r pos
  else pstop r 2

/-- The tags of an Ethernet header, at most 2 (Tables 3-1 and 3-2). -/
def pTags (c : PIn) (inner : Bool) (k : PCont) : Nat → PRec → Nat → Nat → Nat → PDone
  | 0, r, _, _, _ => pstop r 2
  | fuel + 1, r, pos, t, n =>
    let s := t == 0x88A8 && c.en .svlan
    if (t == 0x8100 && c.en .vlan) || s then
      let nt := beAt c.data (pos + 2) 2
      let tci := if n = 0 then io inner PF.tci0 PF.iTci0 else io inner PF.tci1 PF.iTci1
      let r1 := psets r ([(tci, beAt c.data pos 2), (io inner PF.vlanCnt PF.iVlanCnt, n + 1), (PF.offEnd, pos + 4)]
        ++ (if s && !inner then [(PF.tag0S, 1)] else []))
      pcheck c inner r pos []
        ([c.seen (pos + 2) 2 (etypeReserved nt) 2, (s && n != 0, 4), (n == 2, 3)] ++ c.extent pos 4)
        (pTags c inner k fuel r1 (pos + 4) nt (n + 1))
    else pL2End c inner k r pos t

/-- An Ethernet header and what follows it. -/
def pEth (c : PIn) (inner : Bool) (k : PCont) (r : PRec) (pos : Nat) : PDone :=
  let t := beAt c.data (pos + 12) 2
  let r1 := psets r ([(io inner PF.dmac PF.iDmac, beAt c.data pos 6), (io inner PF.smac PF.iSmac, beAt c.data (pos + 6) 6),
    (PF.offEnd, pos + 14)] ++ (if inner then [(PF.offL2i, pos)] else []))
  pcheck c inner r pos (if inner then [PF.offL2i] else [])
    (c.seen (pos + 12) 2 (etypeReserved t) 2 :: c.extent pos 14)
    (pTags c inner k 4 r1 (pos + 14) t 0)

/-! ## The whole parse -/

/-- The inner headers; they hold no tunnel (R77). -/
def pInner (c : PIn) : PCont
  | .eth, r, pos => pEth c true (fun _ r _ => pstop r 8) r pos
  | .ip4, r, pos => pIpv4 c true (fun _ r _ => pstop r 8) r pos
  | .ip6, r, pos => pIpv6 c true (fun _ r _ => pstop r 8) r pos
  | .unknown, r, _ => pstop r 7

/-- After the tunnel header: the inner headers when INNER_EN is 1 (R76). -/
def pTunnel (c : PIn) : PCont := fun n r pos => if c.en .inner then pInner c n r pos else pstop r 7

/-- The parse of a frame of an input port (R75, R79). -/
def parse (data : Bytes) (prof : Prof) (port : Nat) : PDone :=
  let c : PIn := { data := data, prof := prof }
  pEth c false (pTunnel c) (psets precEmpty [(PF.port, port), (PF.profile, prof.num)]) 0

end Sys2Proof.Machine
end

