-- ==== Sys2Proof/Machine/Store.lean ====
section
/-! DEFINITION. What the commands of the host rings share (R144 to R146, R492), and the pattern store: banks, profiles, swaps and the store commands
of Table 4-5 (R108 to R115). -/

namespace Sys2Proof.Machine

/-! ## Commands in flight -/

/-- The status codes of Table 5-11 and R492. -/
inductive Status where
  | ok | exist | notFound | full | rehash | noRoom | inUse | notPermitted | badTable | badKey | badResult | vrfNotEmpty | busy | lost | atEnd
  | badLen | badClass | badProfile | badId | badOpcode
  deriving DecidableEq, Repr

/-- The number of a status. -/
def Status.code : Status → Nat
  | .ok => 0 | .exist => 1 | .notFound => 2 | .full => 3 | .rehash => 4 | .noRoom => 5 | .inUse => 6 | .notPermitted => 7
  | .badTable => 8 | .badKey => 9 | .badResult => 10 | .vrfNotEmpty => 11 | .busy => 12 | .lost => 13 | .atEnd => 14
  | .badLen => 16 | .badClass => 17 | .badProfile => 18 | .badId => 19 | .badOpcode => 20

/-- The first status whose condition holds, OK for none (R604: the conditions stand in its order). -/
def firstStatus : List (Bool × Status) → Status
  | [] => .ok
  | (c, x) :: r => if c then x else firstStatus r

/-- Has the command opcode `op`, and is it the oldest of its ring that is fetched and not taken (R146)? A queued flush has been taken (R148). -/
def cmdReady (s : State) (c : HostCmd) (op : Nat) : Bool :=
  c.opcode == op && operOpen s && s.hif.inFlight.find? (fun d => d.fn == c.fn && d.ring == c.ring && !s.tab.flushes.any (fun f => f.cmd == d)) == some c

/-- Is an opcode listed in Table 18-5? -/
def opcodeListed (n : Nat) : Bool := (decide (1 ≤ n) && decide (n ≤ 8)) || (decide (0x10 ≤ n) && decide (n ≤ 0x16)) || n == 0x20

/-- The oldest commands of a ring, while their opcode is unlisted, complete with BAD_OPCODE (R489). -/
def refuseOpcodes (s : State) (fn ring : Nat) : Nat → State
  | 0 => s
  | n + 1 =>
    match s.hif.inFlight.find? (fun d => d.fn == fn && d.ring == ring && !s.tab.flushes.any (fun f => f.cmd == d)) with
    | some d => if opcodeListed d.opcode then s else refuseOpcodes (complete s d Status.badOpcode.code []) fn ring n
    | none => s

/-- A command completes, and one that took effect and is mirrored takes its place in CMD with its status (R342, R343). -/
def finish (s : State) (c : HostCmd) (mirrored : Bool) (st : Status) (res : Bytes) : State :=
  let s1 := if mirrored then mirrorItem s (.table c st.code) else s
  refuseOpcodes (complete s1 c st.code res) c.fn c.ring s1.hif.inFlight.length

/-- What the table engine or the store answers to a command: status, result bytes, whether contents changed, and the state. -/
structure Eng where
  st : Status
  res : Bytes := []
  changed : Bool := false
  s : State

/-- A command of a host ring acts when it is the oldest of its ring; one that may change contents is refused on a standby (R344). -/
def hostCmd (s : State) (c : HostCmd) (op : Nat) (changes : Bool) (eng : State → Eng) : State :=
  if !cmdReady s c op then s
  else if changes && standby s then finish s c false .notPermitted []
  else
    let e := eng s
    finish e.s c e.changed e.st e.res

/-! ## The pattern store -/

/-- The active bank. -/
def sigActive (s : State) : Nat := getF s Reg.SIG_STORE_STAT_ACTIVE

/-- The shadow bank. -/
def sigShadow (s : State) : Nat := 1 - sigActive s

/-- A profile at its reset values (Table 4-4): LEN 512 and CLASS_MASK all ones. -/
def sprofReset : Nat := 512 * 2 ^ 11 + (2 ^ 64 - 1) * 2 ^ 21

/-- Scan profile p of bank b. -/
def sigProf (s : State) (b p : Nat) : Nat := mget sprofReset s.sig.profs (b * 8 + p)

/-- How many entries of a bank are valid. -/
def sigCount (s : State) (b : Nat) : Nat := countIf (fun e => e.1 / 16384 == b && e.2.valid) s.sig.pats

/-- Valid entries per bank follow the store (Table 4-10). -/
def sigCounts (s : State) : State :=
  setF (setF s Reg.SIG_STORE_CNT_ACTIVE_CNT (sigCount s (sigActive s))) Reg.SIG_STORE_CNT_SHADOW_CNT (sigCount s (sigShadow s))

/-- Is a change to the shadow refused with BUSY (R110)? -/
def shadowBusy (s : State) : Bool :=
  flag s Reg.SIG_STORE_STAT_SWAP_PEND || flag s Reg.SIG_STORE_STAT_OLD_BUSY || flag s Reg.SIG_STORE_STAT_COPY_BUSY

/-- The key of a profile among the lost and the damaged words. -/
def sigProfKey (b p : Nat) : Nat := 32768 + b * 8 + p

/-- The bank of such a key. -/
def sigKeyBank (k : Nat) : Nat := if k < 32768 then k / 16384 else (k - 32768) / 8

/-- The cause of SIG_STORE_LOST ends once SIG_STORE_STAT.LOST can be cleared (Table 20-2). -/
def lostFollow (s : State) : State := if s.sig.lost.isEmpty then levelOff s Src.sigStoreLost else s

/-- An entry is written or invalidated: it is no longer lost, nor under repair (R115). -/
def sigClearBad (s : State) (key : Nat) : State :=
  let x := s.sig
  let r := x.repair.filter (fun k => k % 65536 != key)
  { s with sig := { x with lost := x.lost.filter (· != key), masterBad := x.masterBad.filter (· != key), repair := r } }

/-- A store command that changes the shadow: its statuses in the order of R604, PF0 alone (R110), and its effect. -/
def shadowAct (s : State) (c : HostCmd) (bad : List (Bool × Status)) (act : State → State) : Eng :=
  let st := firstStatus ((c.fn != 0, Status.notPermitted) :: bad ++ [(shadowBusy s, .busy)])
  if st = .ok then { st := st, changed := true, s := sigCounts (lostFollow (act s)) } else { st := st, s := s }

/-- SIG_WRITE (Table 4-5): writes and validates entry ID of the shadow. -/
def sigWriteEng (c : HostCmd) (s : State) : Eng :=
  let id := leAt c.opnd 0 4
  let len := byteAt c.opnd 4
  let cls := byteAt c.opnd 5
  shadowAct s c [(decide (len < 4) || decide (32 < len), .badLen), (decide (63 < cls), .badClass), (decide (16383 < id), .badId)] (fun s =>
    let key := sigShadow s * 16384 + id
    let p : Pattern := { len := len, cls := cls, nocase := bit (byteAt c.opnd 6) 0, bytes := slice c.opnd 7 32 }
    let s1 := sigClearBad s key
    let (bad, s2) := injUncorr { s1 with sig := { s1.sig with pats := mset s1.sig.pats key (some p) } } (fdWord (30 * 2 ^ 24 + key)) 8
    if bad then { s2 with sig := { s2.sig with masterBad := key :: s2.sig.masterBad } } else s2)

/-- SIG_WRITE as a host command. -/
def sigWrite (c : HostCmd) (s : State) : State := hostCmd s c 0x10 true (sigWriteEng c)

/-- The command whose effect is `sigWrite`. -/
def execSigWrite (c : HostCmd) (s : State) : Out := .next (sigWrite c s)

/-- Entries of the chosen keys with VALID cleared; their other fields stay (Table 4-5). -/
def patsOff (m : NMap Pattern) (p : Nat → Bool) : NMap Pattern := m.map (fun e => if p e.1 then (e.1, { e.2 with valid := false }) else e)

/-- SIG_INVALIDATE (Table 4-5): clears VALID of entry ID of the shadow. -/
def sigInvalidateEng (c : HostCmd) (s : State) : Eng :=
  let id := leAt c.opnd 0 4
  shadowAct s c [(decide (16383 < id), .badId)] (fun s =>
    let key := sigShadow s * 16384 + id
    let s1 := sigClearBad s key
    { s1 with sig := { s1.sig with pats := patsOff s1.sig.pats (· == key) } })

/-- SIG_INVALIDATE as a host command. -/
def sigInvalidate (c : HostCmd) (s : State) : State := hostCmd s c 0x11 true (sigInvalidateEng c)

/-- The command whose effect is `sigInvalidate`. -/
def execSigInvalidate (c : HostCmd) (s : State) : Out := .next (sigInvalidate c s)

/-- SIG_PROFILE (Table 4-5): writes a profile of the shadow. The operands are PROFILE, ANCHOR, OFFSET and LEN of 4 bytes each, and CLASS_MASK.
DESIGN CHOICE: Table 18-5 gives no widths, so those of the image's record 0x08 are taken; a LEN above 1,023, which acts as 512 like every LEN above 512, is stored
as 1,023, and an ANCHOR above 7, which the field cannot hold, is refused with BAD_PROFILE. -/
def sigProfileEng (c : HostCmd) (s : State) : Eng :=
  let p := leAt c.opnd 0 4
  let anchor := leAt c.opnd 4 4
  let off := leAt c.opnd 8 4
  let len := leAt c.opnd 12 4
  let bad := decide (7 < p) || decide (7 < anchor) || (anchor == 7 && len != 0) || decide (255 < off)
  shadowAct s c [(bad, .badProfile)] (fun s =>
    let v := anchor + off * 2 ^ 3 + min len 1023 * 2 ^ 11 + leAt c.opnd 16 8 * 2 ^ 21
    let s1 := sigClearBad s (sigProfKey (sigShadow s) p)
    { s1 with sig := { s1.sig with profs := mput sprofReset s1.sig.profs (sigShadow s * 8 + p) v } })

/-- SIG_PROFILE as a host command. -/
def sigProfile (c : HostCmd) (s : State) : State := hostCmd s c 0x12 true (sigProfileEng c)

/-- The command whose effect is `sigProfile`. -/
def execSigProfile (c : HostCmd) (s : State) : Out := .next (sigProfile c s)

/-- The store with a bank's entries replaced and its profiles at their reset values. -/
def SigSt.clearBank (x : SigSt) (b : Nat) (p : NMap Pattern) : SigSt :=
  let other (k : Nat) : Bool := sigKeyBank k != b
  let r := x.repair.filter (fun k => other (k % 65536))
  let f := x.profs.filter (fun e => e.1 / 8 != b)
  { x with pats := p, profs := f, lost := x.lost.filter other, masterBad := x.masterBad.filter other, repair := r }

/-- SIG_CLEAR (Table 4-5): invalidates every entry of the shadow and resets its profiles. -/
def sigClearEng (c : HostCmd) (s : State) : Eng :=
  shadowAct s c [] (fun s => { s with sig := s.sig.clearBank (sigShadow s) (patsOff s.sig.pats (fun k => k / 16384 == sigShadow s)) })

/-- SIG_CLEAR as a host command. -/
def sigClear (c : HostCmd) (s : State) : State := hostCmd s c 0x13 true (sigClearEng c)

/-- The command whose effect is `sigClear`. -/
def execSigClear (c : HostCmd) (s : State) : Out := .next (sigClear c s)

/-- SIG_COPY (Table 4-5): starts copying the active bank into the shadow. -/
def sigCopyEng (c : HostCmd) (s : State) : Eng :=
  shadowAct s c [] (fun s => setB s Reg.SIG_STORE_STAT_COPY_BUSY true)

/-- SIG_COPY as a host command. -/
def sigCopy (c : HostCmd) (s : State) : State := hostCmd s c 0x14 true (sigCopyEng c)

/-- The command whose effect is `sigCopy`. -/
def execSigCopy (c : HostCmd) (s : State) : Out := .next (sigCopy c s)

/-- SIG_COPY_DONE (R110): the copy ends; the shadow equals the active bank. -/
def sigCopyDone (s : State) : State :=
  if !flag s Reg.SIG_STORE_STAT_COPY_BUSY then s
  else
    let a := sigActive s
    let b := sigShadow s
    let x := s.sig.clearBank b (s.sig.pats.filter (fun e => e.1 / 16384 != b))
    let p := (x.pats.filter (fun e => e.1 / 16384 == a)).foldl (fun m e => mset m (b * 16384 + e.1 % 16384) (some e.2)) x.pats
    let f := (List.range 8).foldl (fun m i => mput sprofReset m (b * 8 + i) (sigProf s a i)) x.profs
    sigCounts (lostFollow (setB { s with sig := { x with pats := p, profs := f } } Reg.SIG_STORE_STAT_COPY_BUSY false))

/-- The command whose effect is `sigCopyDone`. -/
def execSigCopyDone (s : State) : Out := .next (sigCopyDone s)

/-- The swap instant (R111, R113): the shadow becomes active, and the old bank is busy until its windows are done. -/
def sigSwapNow (s : State) : State :=
  let s1 := setF s Reg.SIG_STORE_STAT_ACTIVE (sigShadow s)
  let s2 := setB (setB s1 Reg.SIG_STORE_STAT_SWAP_PEND false) Reg.SIG_STORE_STAT_OLD_BUSY true
  let s3 := setF s2 Reg.SIG_STORE_STAT_SWAP_CNT (getF s2 Reg.SIG_STORE_STAT_SWAP_CNT + 1)
  sigCounts { s3 with sig := { s3.sig with swapAt := none } }

/-- SIG_SWAP (R112): swaps at once, or at a future PTP time, given as seconds (6 bytes) and nanoseconds (4). -/
def sigSwapEng (c : HostCmd) (s : State) : Eng :=
  let t := leAt c.opnd 0 6 * 1000000000 + leAt c.opnd 6 4
  let busy := flag s Reg.SIG_STORE_STAT_SWAP_PEND || flag s Reg.SIG_STORE_STAT_COPY_BUSY
  let st := firstStatus [(c.fn != 0, .notPermitted), (busy, .busy)]
  if st ≠ .ok then { st := st, s := s }
  else if t ≤ s.ptp.total then { st := st, changed := true, s := sigSwapNow s }
  else { st := st, changed := true, s := setB { s with sig := { s.sig with swapAt := some t } } Reg.SIG_STORE_STAT_SWAP_PEND true }

/-- SIG_SWAP as a host command. -/
def sigSwap (c : HostCmd) (s : State) : State := hostCmd s c 0x15 true (sigSwapEng c)

/-- The mirrored store commands by opcode (Table 12-8). -/
def storeEng (c : HostCmd) (s : State) : Eng :=
  match c.opcode with
  | 0x10 => sigWriteEng c s
  | 0x11 => sigInvalidateEng c s
  | 0x12 => sigProfileEng c s
  | 0x13 => sigClearEng c s
  | 0x14 => sigCopyEng c s
  | 0x15 => sigSwapEng c s
  | _ => { st := .badOpcode, s := s }

/-- The command whose effect is `sigSwap`. -/
def execSigSwap (c : HostCmd) (s : State) : Out := .next (sigSwap c s)

/-- SIG_SWAP_INSTANT (R112): a pending swap reaches its PTP time. -/
def sigSwapInstant (s : State) : State :=
  match s.sig.swapAt with
  | some t => if t ≤ s.ptp.total then sigSwapNow s else s
  | none => s

/-- The command whose effect is `sigSwapInstant`. -/
def execSigSwapInstant (s : State) : Out := .next (sigSwapInstant s)

/-- SIG_CANCEL (R112): a write of SIG_STORE_CTL.CANCEL withdraws a pending swap, unless its time has come: then the cancel loses. -/
def sigCancel (s : State) : State :=
  operWrite s Reg.SIG_STORE_CTL 1 (fun s =>
    if s.sig.swapAt.any (· ≤ s.ptp.total) then sigSwapInstant s
    else setB { s with sig := { s.sig with swapAt := none } } Reg.SIG_STORE_STAT_SWAP_PEND false)

/-- The command whose effect is `sigCancel`. -/
def execSigCancel (s : State) : Out := .next (sigCancel s)

/-- OLD_BANK_DRAINED (R113): the last window begun on the old bank has completed. -/
def oldBankDrained (s : State) : State := setB s Reg.SIG_STORE_STAT_OLD_BUSY false

/-- The command whose effect is `oldBankDrained`. -/
def execOldBankDrained (s : State) : Out := .next (oldBankDrained s)

/-- SIG_MASTER_LOST (R115): an uncorrectable master entry is invalidated everywhere, recorded and reported, each loss anew.
DESIGN CHOICE: a lost profile is recorded with its number as the ID. -/
def sigMasterLost (s : State) (key : Nat) : State :=
  let s1 := { sigClearBad s key with sig := { (sigClearBad s key).sig with
    pats := patsOff s.sig.pats (· == key), lost := key :: s.sig.lost.filter (· != key) } }
  let s2 := setB s1 Reg.SIG_STORE_STAT_LOST true
  let id := if key < 32768 then key % 16384 else key % 8
  let s3 := setB (setF (setF s2 Reg.SIG_LOST_ID_ID id) Reg.SIG_LOST_ID_BANK (sigKeyBank key)) Reg.SIG_LOST_ID_VALID true
  sigCounts (levelMore s3 Src.sigStoreLost (locSlice 0 63) (Config.memWord Src.sigStoreLost key % 2 ^ 31))

/-- The 36 bytes of a pattern entry: LEN, CLASS, NOCASE, VALID (1 each) and BYTES (32).
DESIGN CHOICE: Table 18-5 gives SIG_READ no result layout. -/
def patBytes : Option Pattern → Bytes
  | some p => [byteOf p.len, byteOf p.cls, byteOf (b2n p.nocase), byteOf (b2n p.valid)] ++ fit 32 p.bytes
  | none => List.replicate 36 0

/-- SIG_READ (Table 4-5): the entry or profile from the master copy. The operands are ID (4), BANK (1) and 1 for a profile (1); `masterBad` says that
the master word read is uncorrectable (R115). DESIGN CHOICE: the operand layout, and BAD_ID for a profile number above 7: Table 4-5 lists only BAD_ID and LOST for
SIG_READ. -/
def sigRead (c : HostCmd) (masterBad : Bool) (s : State) : State :=
  if !cmdReady s c 0x16 then s
  else
    let id := leAt c.opnd 0 4
    let b := byteAt c.opnd 4 % 2
    let prof := byteAt c.opnd 5 != 0
    let key := if prof then sigProfKey b id else b * 16384 + id
    let bad := if prof then decide (7 < id) else decide (16383 < id)
    let st0 := firstStatus [(c.fn != 0, .notPermitted), (bad, .badId)]
    let s1 := if st0 = .ok && !s.sig.lost.contains key && (masterBad || s.sig.masterBad.contains key) then sigMasterLost s key else s
    let st := if st0 = .ok && s1.sig.lost.contains key then .lost else st0
    if st ≠ .ok then finish s1 c false st []
    else if prof then
      let v := sigProf s1 b id
      finish s1 c false st (leBytes 4 (bits v 0 3) ++ leBytes 4 (bits v 3 8) ++ leBytes 4 (bits v 11 10) ++ leBytes 8 (bits v 21 64))
    else finish s1 c false st (patBytes (mfind s1.sig.pats key))

/-- The command whose effect is `sigRead`. -/
def execSigRead (c : HostCmd) (masterBad : Bool) (s : State) : Out := .next (sigRead c masterBad s)

/-- SIG_ENTRY_REPAIR (R115): an entry of engine n's working copy is rewritten from the master, unless the master's word is uncorrectable too. The copy of a
slice in SLEEP is not written (R114). -/
def sigEntryRepair (n : Fin 20) (key : Nat) (masterBad : Bool) (s : State) : State :=
  let x := n.val * 65536 + key
  if !s.sig.repair.contains x || sliceSleeps s n then s
  else if masterBad || s.sig.masterBad.contains key then sigMasterLost s key
  else
    let s1 := { s with sig := { s.sig with repair := s.sig.repair.filter (· != x) } }
    report (bump s1 (Reg.SIG_ENG_CNT n 5)) (Src.sigStoreEcc n) (locSlice 0 n) (Config.memWord (Src.sigStoreEcc n) key % 2 ^ 31)

/-- The command whose effect is `sigEntryRepair`. -/
def execSigEntryRepair (n : Fin 20) (key : Nat) (masterBad : Bool) (s : State) : Out := .next (sigEntryRepair n key masterBad s)

/-- The clear of SIG_STORE_STAT.LOST: it takes once every lost entry has been written or invalidated (Table 4-9). -/
def sigLostClear (s : State) : State := if s.sig.lost.isEmpty then setB s Reg.SIG_STORE_STAT_LOST false else s

/-! ## Windows -/

/-- Parser profile n (Tables 3-10 to 3-12). -/
def profNum (s : State) (n : Nat) : Prof :=
  { num := n, hdr := (rd s (Reg.PRS_PROF_HDR n)).toNat % 65536, vxlan := getF s (Reg.PRS_PROF_UDP_VXLAN_PORT n),
    geneve := getF s (Reg.PRS_PROF_UDP_GENEVE_PORT n), mplsPay := getF s (Reg.PRS_PROF_OPT_MPLS_PAY n),
    innerFail := flag s (Reg.PRS_PROF_OPT_INNER_FAIL n) }

/-- The parser profile of a port (R72). -/
def profOf (s : State) (p : Nat) : Prof := profNum s (getF s (Reg.PRS_PORT_CFG_PROFILE p))

/-- The start of a window before OFFSET (Table 4-1), none for a frame that is not scanned (R99). -/
def anchorAt (r : PRec) (anchor : Nat) : Option Nat :=
  let off (f : Fld) : Option Nat := if pget r f = noOff then none else some (pget r f)
  match anchor with
  | 0 => off (if pget r PF.frag = 2 then PF.offEnd else PF.offPay)
  | 1 => some 0
  | 2 => off PF.offL3
  | 3 => off PF.offL4
  | 4 => off PF.offL3i
  | 5 => off PF.offL4i
  | 6 => off PF.offEnd
  | _ => none

/-- The input queue of pipeline n. -/
def inq (s : State) (n : Nat) : List InFrame := mget [] s.ing.inq n

/-- The fill of engine n's scan queue in bytes (R105). -/
def scanFill (l : List InFrame) : Nat := (l.map (fun f => match f.win with | some w => w.bytes.length | none => 0)).sum

/-- QUEUE_NOW and QUEUE_PEAK follow the queue (Table 4-12). -/
def scanStat (s : State) (n : Nat) : State :=
  setPeak s (Reg.SIG_ENG_STAT_QUEUE_NOW n) (Reg.SIG_ENG_STAT_QUEUE_PEAK n) (scanFill (inq s n))

/-- Word 4 of a result record (Table 4-2). -/
def sigWord4 (winLen cnt : Nat) (scanned noAnchor trunc : Bool) (bank sprof : Nat) (degr : Bool) : Nat :=
  winLen + cnt * 2 ^ 10 + b2n scanned * 2 ^ 13 + b2n noAnchor * 2 ^ 14 + b2n trunc * 2 ^ 15 + bank * 2 ^ 17 + sprof * 2 ^ 18 + b2n degr * 2 ^ 21

/-- Has engine n an entry under repair (R115)? -/
def engDegr (s : State) (n : Nat) : Bool := s.sig.repair.any (fun x => x / 65536 == n)

/-- Is profile p of bank b unreadable to engine n: lost, or under repair in its copy (R115)? -/
def sprofBad (s : State) (n b p : Nat) : Bool := s.sig.lost.contains (sigProfKey b p) || s.sig.repair.contains (n * 65536 + sigProfKey b p)

/-- The window of a frame by a profile of a bank (R98 to R100), none for a frame that is not scanned. DESIGN CHOICE: a frame whose profile is unreadable is not
scanned. -/
def windowOf (s : State) (n b sp : Nat) (f : InFrame) : Option Bytes :=
  let v := sigProf s b sp
  let len := min 512 (bits v 11 10)
  if len = 0 || sprofBad s n b sp then none
  else (anchorAt (parse f.bytes (profOf s f.port) f.port).record (bits v 0 3)).map (fun a => (f.bytes.drop (a + bits v 3 8)).take len)

/-- Word 4 of a frame that is not scanned. DESIGN CHOICE: BANK is 0, since no bank scanned it. -/
def sigUnscanned (s : State) (n sp : Nat) : Nat := sigWord4 0 0 false true false 0 sp (engDegr s n) * 2 ^ 128

/-- A frame of a line port or of the host port enters pipeline n: its window is placed in the scan queue of engine n (R98 to R100, R105, R106), and it
waits for its pass. -/
def enterPipe (s : State) (n : Nat) (f : InFrame) : State :=
  let sp := getF s (Reg.SIG_PORT_CFG_SPROF f.port)
  let b := sigActive s
  let push (s : State) (f : InFrame) : State := scanStat { s with ing := { s.ing with inq := mput [] s.ing.inq n (inq s n ++ [f]) } } n
  match windowOf s n b sp f with
  | none => push (bump s (Reg.SIG_ENG_CNT n 1)) { f with sig := sigUnscanned s n sp }
  | some w =>
    let room := 16384 - scanFill (inq s n)
    if w = [] then
      push (bump s (Reg.SIG_ENG_CNT n 0)) { f with sig := sigWord4 0 0 true false false b sp (engDegr s n) * 2 ^ 128 }
    else if room = 0 then
      push (bump (bump s (Reg.SIG_ENG_CNT n 0)) (Reg.SIG_ENG_CNT n 3))
        { f with sig := sigWord4 0 0 true false true b sp (engDegr s n) * 2 ^ 128 }
    else push (bumpIf (room < w.length) s (Reg.SIG_ENG_CNT n 3)) { f with win := some { bytes := w.take room, prof := sp, trunc := decide (room < w.length), bank := b } }

/-- A letter in lower case, every other byte as it is (R102). -/
def foldCase (b : Byte) : Byte := if 0x41 ≤ b.toNat ∧ b.toNat ≤ 0x5A then b + 0x20 else b

/-- Does a window begin with the bytes of a pattern? -/
def patHere (nocase : Bool) : Bytes → Bytes → Bool
  | [], _ => true
  | _ :: _, [] => false
  | a :: p, b :: w => (a == b || (nocase && foldCase a == foldCase b)) && patHere nocase p w

/-- The end position of the first occurrence of a pattern in a window, counted from `i` (R102, R103). -/
def firstEnd (p : Pattern) : Bytes → Nat → Option Nat
  | [], _ => none
  | b :: w, i => if patHere p.nocase (p.bytes.take p.len) (b :: w) then some (i + p.len - 1) else firstEnd p w (i + 1)

/-- A match put in the order of R103: by end position, then by identifier. -/
def insertMatch (x : Nat × Nat) : List (Nat × Nat) → List (Nat × Nat)
  | [] => [x]
  | y :: r => if x.1 < y.1 ∨ (x.1 = y.1 ∧ x.2 < y.2) then x :: y :: r else y :: insertMatch x r

/-- The matches of a window on a bank: (end, identifier) in order, and the class vector (R102, R103). -/
def scanMatches (s : State) (n b mask : Nat) (w : Bytes) : List (Nat × Nat) × Nat :=
  s.sig.pats.foldl (fun acc e =>
    if e.2.valid && e.1 / 16384 == b && bit mask e.2.cls && !s.sig.repair.contains (n * 65536 + e.1) then
      match firstEnd e.2 w 0 with
      | some i => (insertMatch (i, e.1 % 16384) acc.1, Nat.lor acc.2 (2 ^ e.2.cls))
      | none => acc
    else acc) ([], 0)

/-- The result of one window (Table 4-2). -/
def scanResult (s : State) (n : Nat) (w : Bytes) (sp : Nat) (trunc : Bool) : Nat :=
  let b := sigActive s
  let (m, vec) := scanMatches s n b (if sprofBad s n b sp then 0 else bits (sigProf s b sp) 21 64) w
  let id (k : Nat) : Nat := match m[k]? with | some (_, i) => i + 2 ^ 14 | none => 0
  vec + (id 0 + id 1 * 2 ^ 16) * 2 ^ 64 + (id 2 + id 3 * 2 ^ 16) * 2 ^ 96
    + sigWord4 w.length (min 7 m.length) true false trunc b sp (engDegr s n) * 2 ^ 128

/-- The result of a window at its scan (R111): one that was placed by the other bank before a swap is placed anew by the active bank, within the bytes that the
queue held of it where it was cut. -/
def windowResult (s : State) (n : Nat) (f : InFrame) (w : Win) : Nat :=
  if w.bank = sigActive s then scanResult s n w.bytes w.prof w.trunc
  else match windowOf s n (sigActive s) w.prof f with
    | none => sigUnscanned s n w.prof
    | some x =>
      let cut := w.trunc && decide (w.bytes.length < x.length)
      scanResult s n (if cut then x.take w.bytes.length else x) w.prof cut

/-- The first frame whose window waits gets its result. -/
def scanFirst (res : InFrame → Win → Nat) : List InFrame → List InFrame × Nat
  | [] => ([], 0)
  | f :: r =>
    match f.win with
    | some w => ({ f with win := none, sig := res f w } :: r, res f w)
    | none => let (l, v) := scanFirst res r; (f :: l, v)

/-- SCAN_WINDOW (R98 to R106, R115): engine n scans the window at the head of its queue with the active bank. `bad` names the entries and profiles of its working
copy that are now found uncorrectable, and `corr` counts the errors corrected in the words read. -/
def scanWindow (n : Fin 20) (bad : List Nat) (corr : Nat) (s : State) : State :=
  if sliceSleeps s n || !(inq s n).any (fun f => f.win.isSome) then s
  else
    let new := (bad.filter (fun k => decide (k < sigProfKey 2 0))).map (n.val * 65536 + ·)
    let s := { s with sig := { s.sig with repair := new ++ s.sig.repair.filter (fun x => !new.contains x), corr := s.sig.corr + corr } }
    let (l, v) := scanFirst (windowResult s n) (inq s n)
    let s1 := scanStat { s with ing := { s.ing with inq := mput [] s.ing.inq n l } } n
    let s2 := if bit v 142 then bump s1 (Reg.SIG_ENG_CNT n 1)
      else bumpIf (bits v 138 3 != 0) (bump s1 (Reg.SIG_ENG_CNT n 0)) (Reg.SIG_ENG_CNT n 4)
    (onesOf 64 v).foldl (fun a c => bump a (Reg.SIG_CLASS_CNT c)) s2

/-- The command whose effect is `scanWindow`. -/
def execScanWindow (n : Fin 20) (patterns : PatternRead) (s : State) : Out :=
  match patterns with
  | ⟨bad, corr⟩ => .next (scanWindow n bad corr s)

end Sys2Proof.Machine
end

