-- ==== Sys2Proof/Machine/Tables.lean ====
section
/-! DEFINITION. The tables (chapters 5, 6, 7 and 9): identifiers, capacities, layouts and start values of the direct tables (R117, R605, R606), reference
counts (R607), the LPM, HOST and MAC tables (R128 to R130), and what makes a word of them unreadable (R118, R151). -/

namespace Sys2Proof.Machine

/-! ## Direct tables -/

/-! Table identifiers (Tables 5-1 and 6-1, R190, R197, R229, R237, R239, R251). -/

namespace Tab
def port : Nat := 0
def vrf : Nat := 1
def lpm4 : Nat := 2
def lpm6 : Nat := 3
def host : Nat := 4
def label : Nat := 5
def nh : Nat := 6
def ecmpGrp : Nat := 7
def ecmpMbr : Nat := 8
def mac : Nat := 9
def cls : Nat := 10
def mcGrp : Nat := 11
def action : Nat := 12
def edit : Nat := 13
def template : Nat := 14
def policer : Nat := 15
def polProf : Nat := 16
def mcList : Nat := 17
def qacct : Nat := 18
def eqmap : Nat := 19
def schTree : Nat := 20
def schNode : Nat := 21
def shaper : Nat := 22
def gateList : Nat := 23
end Tab

/-- What the spec says of a direct table's entries: how many, how many bytes an entry is carried in, its VALID bit if it has one, and the
bits that the table names. -/
structure TabInfo where
  count : Nat
  bytes : Nat
  valid : Option Nat
  named : Nat
  deriving DecidableEq, Repr

/-- The bits [hi : lo] as a mask. -/
def maskOf (lo hi : Nat) : Nat := 2 ^ (hi + 1) - 2 ^ lo

/-- The direct tables and CLS. -/
def tabInfo (t : Nat) : Option TabInfo :=
  match t with
  | 0 => some ⟨162, 64, none, maskOf 0 34⟩
  | 1 => some ⟨65536, 16, none, maskOf 0 78⟩
  | 5 => some ⟨1048576, 8, some 0, maskOf 0 46⟩
  | 6 => some ⟨1048576, 16, some 0, maskOf 0 49⟩
  | 7 => some ⟨65536, 8, some 0, maskOf 0 40⟩
  | 8 => some ⟨2097152, 4, some 20, maskOf 0 20⟩
  | 10 => some ⟨131072, 176, some 1298, maskOf 0 1298⟩
  | 11 => some ⟨65536, 16, some 0, maskOf 0 71⟩
  | 12 => some ⟨262144, 32, some 0, maskOf 0 255⟩
  | 13 => some ⟨1048576, 32, some 0, maskOf 0 236⟩
  | 14 => some ⟨65536, 128, some 0, 1 + maskOf 8 15 + maskOf 64 1023⟩
  | 15 => some ⟨524288, 16, some 0, maskOf 0 20⟩
  | 16 => some ⟨4096, 16, some 0, maskOf 0 112⟩
  | 17 => some ⟨1048576, 4, some 20, maskOf 0 20⟩
  | 18 => some ⟨1048576, 2, none, maskOf 0 15⟩
  | 19 => some ⟨65536, 16, some 0, maskOf 0 112⟩
  | 20 => some ⟨1347776, 8, some 0, maskOf 0 21⟩
  | 21 => some ⟨1347776, 8, none, maskOf 0 57⟩
  | 22 => some ⟨65536, 8, none, maskOf 0 54⟩
  | 23 => some ⟨327680, 8, none, maskOf 0 41⟩
  | _ => none

/-- The start value of an entry (R605): FLOOD_GRP 0xFFFF in VRF, WEIGHT 1 in SCH_NODE, else 0. -/
def tabStart (t : Nat) : Nat := if t = 1 then 0xFFFF * 2 ^ 63 else if t = 21 then 8 else 0

/-- The key of entry i of direct table t. -/
def tabKey (t i : Nat) : Nat := t * 2 ^ 24 + i

/-- The start value of the entry that a key names. -/
def keyStart (k : Nat) : Nat := tabStart (k / 2 ^ 24)

/-- The stored entry. -/
def tabGet (s : State) (t i : Nat) : Nat := mget (keyStart (tabKey t i)) s.tab.direct (tabKey t i)

/-- Is an entry unreadable (R118, R151)? -/
def tabBad (s : State) (t i : Nat) : Bool := s.tab.bad.contains (tabKey t i)

/-- Is an entry valid as lookups find it: its VALID bit, where the table has one, and no uncorrectable word? -/
def tabValid (s : State) (t i : Nat) : Bool :=
  match tabInfo t with
  | some x =>
    decide (i < x.count) && !tabBad s t i && (match x.valid with | some b => bit (tabGet s t i) b | none => true)
  | none => false

/-- An entry as the action side reads it: an invalid entry acts as if every field were 0 (R150). -/
def tabRead (s : State) (t i : Nat) : Nat := if tabValid s t i then tabGet s t i else 0

/-- A field of an entry. -/
def tabF (s : State) (t i lo len : Nat) : Nat := bits (tabGet s t i) lo len

/-- Stores an entry: a full write, which makes it readable again unless an armed injection spoils it (R118, R587). -/
def tabPut (s : State) (t i v : Nat) : State :=
  let k := tabKey t i
  let (bad, s1) := injUncorr s (fdWord k) 8
  let b := s1.tab.bad.filter (· != k)
  { s1 with tab := { s1.tab with direct := mput (keyStart k) s1.tab.direct k v, bad := if bad then k :: b else b } }

/-- The indices of a direct table that hold other than the start value. -/
def tabListed (s : State) (t : Nat) : List (Nat × Nat) :=
  (s.tab.direct.filter (fun e => e.1 / 2 ^ 24 == t)).map (fun e => (e.1 % 2 ^ 24, e.2))

/-- The valid entries of a direct table whose entries have a VALID bit. -/
def tabAll (s : State) (t : Nat) : List (Nat × Nat) := (tabListed s t).filter (fun e => tabValid s t e.1)

/-! ## Errors of table words -/

/-- An uncorrectable word of table SRAM is reported and captured (R118, Tables 5-19 and 5-20). -/
def tableEcc (s : State) (t key : Nat) : State :=
  let loc := fdWord key
  let s1 := wrPair s Reg.FTB_ECC_LOC_LO Reg.FTB_ECC_LOC_HI loc
  let s2 := setB (setF s1 Reg.FTB_ECC_STAT_TABLE t) Reg.FTB_ECC_STAT_VALID true
  report s2 Src.tableEcc loc (Config.memWord Src.tableEcc key % 2 ^ 31)

/-- An uncorrectable word of action memory is reported (R151). -/
def actionWord (s : State) (key : Nat) : State := report s Src.actEcc (fdWord key) (Config.memWord Src.actEcc key % 2 ^ 31)

/-- An uncorrectable word of action memory is reported and its frame counted (R151). -/
def actionEcc (s : State) (n key : Nat) : State := actionWord (bump s (Reg.ACT_CNT n 11)) key

/-- Is a table held in action memory (Table 6-1)? Policers are held in table SRAM. -/
def inActionMem (t : Nat) : Bool := t == 12 || t == 13 || t == 14 || t == 16

/-- An uncorrectable word of either memory is reported by its own source (R118, R151). -/
def wordEcc (s : State) (t i : Nat) : State := if inActionMem t then actionWord s (tabKey t i) else tableEcc s t (tabKey t i)

/-! ## Results and references -/

/-- TYPE and INDEX of a forwarding result (Table 5-6). -/
def resType (r : Nat) : Nat := bits r 21 3
def resIdx (r : Nat) : Nat := bits r 0 21

/-- The forwarding results of routes, HOST entries, label entries and MAC entries (R124); a label's only with SWAP or POP_FWD (R607). -/
def allResults (s : State) : List Nat :=
  s.tab.lpm4.map (·.2) ++ s.tab.lpm6.map (·.2) ++ s.tab.host.map (·.2.result) ++ s.tab.mac.map (·.2.result)
    ++ ((tabAll s Tab.label).filter (fun e => decide (bits e.2 1 2 ≤ 1))).map (fun e => bits e.2 23 24)

/-- The exact reference count of an entry (R607, Table 5-24). -/
def refCount (s : State) (t i : Nat) : Nat :=
  let act (f : Nat → Bool) : Nat := countIf (fun e => f e.2) (tabAll s Tab.action)
  match t with
  | 6 => countIf (fun r => resType r == 1 && bits r 0 20 == i) (allResults s)
      + countIf (fun e => bits e.2 0 20 == i) (tabAll s Tab.ecmpMbr)
      + act (fun v => bits v 9 3 == 5 && bits v 32 20 == i)
  | 7 => countIf (fun r => resType r == 2 && bits r 0 16 == i) (allResults s) + act (fun v => bits v 9 3 == 6 && bits v 32 16 == i)
  | 13 => countIf (fun e => bits e.2 26 20 == i) (tabAll s Tab.nh) + act (fun v => bit v 180 && bits v 160 20 == i)
  | 14 => countIf (fun e => bits e.2 175 3 != 0 && bits e.2 178 16 == i) (tabAll s Tab.edit)
  | 15 => act (fun v => bit v 83 && bits v 64 19 == i)
  | 16 => countIf (fun e => bits e.2 9 12 == i) (tabAll s Tab.policer)
  | _ => 0

/-- The owner of an entry for the scope of R145: OWNER of NH, ECMP_GRP, ACTION, EDIT, POLICER, MCAST_GRP and VRF, and the tenant that
inserted an ECMP member. DESIGN CHOICE for the member: its layout has no OWNER. -/
def ownerOf (s : State) (t i : Nat) : Nat :=
  match t with
  | 1 => tabF s 1 i 0 8
  | 6 => tabF s 6 i 1 8
  | 7 => tabF s 7 i 32 8
  | 8 => mget 0 s.tab.mbrOwner i
  | 11 => tabF s 11 i 1 8
  | 12 => tabF s 12 i 1 8
  | 13 => tabF s 13 i 1 8
  | 15 => tabF s 15 i 1 8
  | _ => 0

/-- May tenant `fn` (0 for PF0) reference an NH or ECMP_GRP entry: its own, or a shared one of tenant 0 (R145)? -/
def mayRef (s : State) (fn t i : Nat) : Bool :=
  fn == 0 || ownerOf s t i == fn || (ownerOf s t i == 0 && bit (tabGet s t i) (if t = 6 then 9 else 40))

/-- Is a multicast group within the scope of function `fn`: PF0's every one, a tenant's its own (R145, R607)? -/
def groupScope (s : State) (fn i : Nat) : Bool := fn == 0 || ownerOf s Tab.mcGrp i == fn

/-- Does a forwarding result stand the check of R124 and R607 when function `fn` writes it? -/
def resultOk (s : State) (fn r : Nat) : Bool :=
  match resType r with
  | 1 => tabValid s Tab.nh (bits r 0 20) && mayRef s fn Tab.nh (bits r 0 20)
  | 2 => tabValid s Tab.ecmpGrp (bits r 0 16) && mayRef s fn Tab.ecmpGrp (bits r 0 16)
  | 3 => tabValid s Tab.mcGrp (bits r 0 16) && groupScope s fn (bits r 0 16)
  | 7 => false
  | _ => true

/-! ## The stair trie -/

/-- Units of the LPM region in use (R128). -/
def lpmUnits (s : State) : Nat := s.tab.lpm4.length + 2 * s.tab.lpm6.length

/-- The address width of a family: table 2 is LPM4 and table 3 is LPM6. -/
def lpmWidth (t : Nat) : Nat := if t = 2 then 32 else 128

/-- An address with the bits beyond a prefix length 0 (R128). -/
def prefixAddr (w len addr : Nat) : Nat := addr / 2 ^ (w - len) * 2 ^ (w - len)

/-- The key of a route; its order is the table order of R147. -/
def lpmKey (t vrf addr len : Nat) : Nat := (vrf * 2 ^ 128 + prefixAddr (lpmWidth t) len (addr % 2 ^ lpmWidth t)) * 256 + len

/-- The routes of a family. -/
def lpmTab (s : State) (t : Nat) : NMap Nat := if t = 2 then s.tab.lpm4 else s.tab.lpm6

/-- Replaces the routes of a family; FTB_LPM_STAT follows (Table 5-16). -/
def setLpm (s : State) (t : Nat) (m : NMap Nat) : State :=
  let s1 := if t = 2 then { s with tab := { s.tab with lpm4 := m } } else { s with tab := { s.tab with lpm6 := m } }
  setF s1 Reg.FTB_LPM_STAT_UNITS_USED (lpmUnits s1)

/-- The longest prefix of a family that holds an address, from length `n` down (R120). -/
def lpmMatch (s : State) (t vrf addr : Nat) : Nat → Option (Nat × Nat)
  | 0 => (mfind (lpmTab s t) (lpmKey t vrf addr 0)).map (fun r => (0, r))
  | n + 1 => match mfind (lpmTab s t) (lpmKey t vrf addr (n + 1)) with
    | some r => some (n + 1, r)
    | none => lpmMatch s t vrf addr n

/-- The bits of VRF and address that a lookup has used at a depth of its trie. -/
def trieBits (t vrf addr depth : Nat) : Nat := (vrf * 2 ^ lpmWidth t + addr) / 2 ^ (16 + lpmWidth t - depth)

/-- Does a lookup pass through a trie node that holds an uncorrectable word (R118)? -/
def lpmBad (s : State) (t vrf addr : Nat) : Bool := s.tab.trieBad.any (fun e => e.1 == t && trieBits t vrf addr e.2.1 == e.2.2)

/-! ## Hashed tables -/

/-- The slots of a HOST key type; types 5 to 7 do not exist (Table 5-4). -/
def hostSlots (typ : Nat) : Nat := match typ with | 0 => 1 | 1 => 2 | 2 => 1 | 3 => 2 | _ => 4

/-- SOURCE of a key: 0 for types 0, 1 and 3 (R130). -/
def hostSrc (typ src : Nat) : Nat := if typ = 2 ∨ typ = 4 then src else 0

/-- The two candidate buckets of HOST (R130). -/
def hostBuckets (s : State) (typ vrf src dst : Nat) : Nat × Nat :=
  let k := byteOf typ :: (leBytes 2 vrf ++ [0, 0] ++ leBytes 16 (hostSrc typ src) ++ leBytes 16 dst)
  (crc32c (leBytes 4 (getF s Reg.FTB_HASH_SEED0_SEED) ++ k) % 0x80000,
   0x80000 + crc32c (leBytes 4 (getF s Reg.FTB_HASH_SEED1_SEED) ++ k) % 0x80000)

/-- The two candidate buckets of a MAC copy (R130). -/
def macBuckets (s : State) (bd mac : Nat) : Nat × Nat :=
  let k := leBytes 2 bd ++ leBytes 6 mac
  (crc32c (leBytes 4 (getF s Reg.FTB_HASH_SEED0_SEED) ++ k) % 0x8000,
   0x8000 + crc32c (leBytes 4 (getF s Reg.FTB_HASH_SEED1_SEED) ++ k) % 0x8000)

/-- The key of slot x of bucket b of HOST, and of a MAC copy. -/
def hostKey (b x : Nat) : Nat := b * 4 + x
def macKey (n b x : Nat) : Nat := (n * 65536 + b) * 4 + x

/-- Is a HOST or MAC entry unreadable? -/
def hostBad (s : State) (k : Nat) : Bool := s.tab.bad.contains (tabKey 4 k)
def macBad (s : State) (k : Nat) : Bool := s.tab.bad.contains (tabKey 9 k)

/-- The readable HOST entries of a bucket, by first slot. -/
def hostIn (s : State) (b : Nat) : List (Nat × HostEnt) :=
  (List.range 4).filterMap (fun x => if hostBad s (hostKey b x) then none else (mfind s.tab.host (hostKey b x)).map (fun e => (x, e)))

/-- Is slot x of a bucket of HOST free? -/
def hostSlotFree (s : State) (b x : Nat) : Bool := (hostIn s b).all (fun e => decide (x < e.1) || decide (e.1 + hostSlots e.2.typ ≤ x))

/-- The first place for an entry of `n` slots in a bucket: slot 0 or 2 for two slots, slot 0 for four (R130). -/
def hostPlace (s : State) (b n : Nat) : Option Nat :=
  ((if n = 1 then [0, 1, 2, 3] else if n = 2 then [0, 2] else [0]).filter (fun x => (upFrom x n).all (hostSlotFree s b))).head?

/-- The location of a HOST entry: bucket, slot, entry. -/
def hostFind (s : State) (typ vrf src dst : Nat) : Option (Nat × Nat × HostEnt) :=
  let (b0, b1) := hostBuckets s typ vrf src dst
  let is (e : HostEnt) : Bool := e.typ == typ && e.vrf == vrf && e.src == hostSrc typ src && e.dst == dst
  match (hostIn s b0).find? (fun e => is e.2) with
  | some e => some (b0, e.1, e.2)
  | none => ((hostIn s b1).find? (fun e => is e.2)).map (fun e => (b1, e.1, e.2))

/-- HOST slots in use. -/
def hostUsed (s : State) : Nat := (s.tab.host.map (fun e => hostSlots e.2.typ)).sum

/-- Writes or removes the HOST entry at a slot; FTB_HOST_STAT follows (Table 5-17). -/
def hostSet (s : State) (b x : Nat) (e : Option HostEnt) : State :=
  let k := hostKey b x
  let n := match e with | some v => hostSlots v.typ | none => 1
  let (bad, s1) := if e.isSome then injUncorr s (fdWord (tabKey 4 k)) 8 else (false, s)
  let within := (upFrom k n).map (tabKey 4)
  let stale := s1.tab.host.filter (fun h => !(decide (k < h.1) && decide (h.1 < k + n)))
  let l := s1.tab.bad.filter (fun z => !within.contains z)
  let s2 := { s1 with tab := { s1.tab with host := mset stale k e, bad := if bad then tabKey 4 k :: l else l } }
  setF s2 Reg.FTB_HOST_STAT_SLOTS_USED (hostUsed s2)

/-- The readable MAC entries of a bucket of copy n. -/
def macIn (s : State) (n b : Nat) : List (Nat × MacEnt) :=
  (List.range 4).filterMap (fun x => if macBad s (macKey n b x) then none else (mfind s.tab.mac (macKey n b x)).map (fun e => (x, e)))

/-- A free slot of a bucket of copy n. -/
def macPlace (s : State) (n b : Nat) : Option Nat := ((List.range 4).filter (fun x => (macIn s n b).all (fun e => e.1 != x))).head?

/-- The location of a MAC entry in copy n. -/
def macFind (s : State) (n bd mac : Nat) : Option (Nat × Nat × MacEnt) :=
  let (b0, b1) := macBuckets s bd mac
  match (macIn s n b0).find? (fun e => e.2.bd == bd && e.2.mac == mac) with
  | some e => some (b0, e.1, e.2)
  | none => ((macIn s n b1).find? (fun e => e.2.bd == bd && e.2.mac == mac)).map (fun e => (b1, e.1, e.2))

/-- The entries of copy n. -/
def macCopy (s : State) (n : Nat) : List (Nat × MacEnt) := s.tab.mac.filter (fun e => e.1 / 262144 == n)

/-- An entry written after a flush was taken is never removed by it (R148). -/
def flushForget (l : List Flush) (n bd mac : Nat) : List Flush := l.map (fun f => { f with keys := f.keys.filter (· != (n, bd, mac)) })

/-- Writes or removes the MAC entry at a slot of copy n; USED follows (Table 5-22). An entry whose age or SHARED_IN alone changes is not written in
the sense of R148. -/
def macSet (s : State) (n b x : Nat) (e : Option MacEnt) : State :=
  let k := macKey n b x
  let old := mfind s.tab.mac k
  let same := match old, e with
    | some a, some c => a.bd == c.bd && a.mac == c.mac && a.result == c.result && a.isStatic == c.isStatic
    | _, _ => false
  let gone (fl : List Flush) : List Flush := match old with | some a => if same then fl else flushForget fl n a.bd a.mac | none => fl
  let come (fl : List Flush) : List Flush := match e with | some a => if same then fl else flushForget fl n a.bd a.mac | none => fl
  let (bad, s1) := if e.isSome then injUncorr s (fdWord (tabKey 9 k)) 8 else (false, s)
  let l := s1.tab.bad.filter (· != tabKey 9 k)
  let fl := come (gone s1.tab.flushes)
  let names (a : Option MacEnt) : List (Nat × Nat × Nat) := if same then [] else (a.map (fun c => (n, c.bd, c.mac))).toList
  let rec_ := s1.slc.flushes.filter (fun k => !(names old ++ names e).contains k)
  let s2 := { s1 with tab := { s1.tab with mac := mset s1.tab.mac k e, bad := if bad then tabKey 9 k :: l else l, flushes := fl }, slc := { s1.slc with flushes := rec_ } }
  setF s2 (Reg.FTB_LEARN_STAT_USED n) (macCopy s2 n).length

/-- Moves a MAC entry to another slot of its copy: no write in the sense of R148. -/
def macMove (s : State) (n b x b' x' : Nat) (e : MacEnt) : State :=
  let s1 := macSet (macSet s n b x none) n b' x' (some e)
  { s1 with tab := { s1.tab with flushes := s.tab.flushes }, slc := { s1.slc with flushes := s.slc.flushes } }

/-! ## Owners -/

/-- Does the number of a VRF appear in a route, a HOST entry, a MAC entry, or a rule that compares VRF (R119)? -/
def vrfUsed (s : State) (v : Nat) : Bool :=
  let inLpm (m : NMap Nat) : Bool := m.any (fun e => e.1 / 256 / 2 ^ 128 == v)
  inLpm s.tab.lpm4 || inLpm s.tab.lpm6 || s.tab.host.any (fun e => e.2.vrf == v) || s.tab.mac.any (fun e => e.2.bd == v)
    || (tabAll s Tab.cls).any (fun e => bits e.2 (640 + 448) 16 != 0
          && Nat.land (bits e.2 448 16) (bits e.2 (640 + 448) 16) == Nat.land v (bits e.2 (640 + 448) 16))

/-- The tenant that owns a VRF or bridge domain. -/
def vrfOwner (s : State) (v : Nat) : Nat := ownerOf s 1 v

/-! ## Queue numbers -/

/-- Queues below this number are VOQs (R227). -/
def voqSplit (s : State) : Nat := getF s Reg.SCH_QSPLIT_VOQ_PORTS * 8

/-- The queue to which an EQMAP entry sends a class with an edit index (R229). -/
def eqmapQueue (m cls : Nat) (edit : Option Nat) : Nat :=
  let n := 2 ^ bits m 79 2
  let q := bits m 2 20 + cls
  match edit with
  | some e =>
    let base := bits m 42 20
    if bit m 1 && decide (base ≤ e) && decide (e - base < bits m 62 17) then bits m 22 20 + (e - base) * n + cls * n / 8 else q
  | none => q

/-- The buffer size of a class (Table 7-1). -/
def bufSize (k : Nat) : Nat := if k < 6 then 128 * 2 ^ k else if k = 6 then 9728 else 16384

/-- The class of a frame of S stored bytes, none above the largest (R180, R181). -/
def bufClass (stored : Nat) : Option Nat := (List.range 8).find? (fun k => decide (stored + 16 ≤ bufSize k))

/-- Does a queue hold a frame? -/
def queueBusy (s : State) (q : Nat) : Bool := match mfind s.qd.queues q with | some x => !x.descs.isEmpty | none => false

end Sys2Proof.Machine
end

