-- ==== Sys2Proof/Machine/TabCmd.lean ====
section
/-! DEFINITION. The table commands (R144 to R148, R604 to R607): checks in the order of R604, scope (R145, R152), effects, answers; and the flush of MAC
entries by port (R148, R570). -/

namespace Sys2Proof.Machine

/-! ## Values of entries -/

/-- The increment of a SHAPER entry in units of 2^-32 epoch ticks a byte (R243); the RATE 0 of an unwritten entry has none in the spec. -/
def shaperInc (v : Nat) : Nat := if bits v 0 31 = 0 then Config.incZero else ceilDiv (12800000 * 2 ^ 32) (bits v 0 31)

/-- A time TE in the future is rescaled to a new increment (R256). -/
def rescale (now te old new : Nat) : Nat := if now < te ∧ 0 < old then now + (te - now) * new / old else te

/-- The state of a scheduler node. -/
def nodeSt (s : State) (c : Nat) : NodeSt := mget {} s.qd.nodes c

/-- Stores the state of a scheduler node. -/
def putNode (s : State) (c : Nat) (x : NodeSt) : State := { s with qd := { s.qd with nodes := mput {} s.qd.nodes c x } }

/-- The ring that Table 9-6 gives an entry of a TE that lies `d` units of 2^-32 ticks ahead. -/
def ringOf (d : Nat) : Nat := if d < 16384 * 2 ^ 32 then 0 else if d < 67108864 * 2 ^ 32 then 1 else 2

/-- The entry of the wheel for a TE (R245): the wheel holds every TE that lies in the future. -/
def wheelPlace (s : State) (key te : Nat) : State :=
  let now := epochFine s
  { s with qd := { s.qd with wheel := mset s.qd.wheel key (if now < te then some (ringOf (te - now)) else none) } }

/-- Stores the state of a node, and places its TEs on the wheel. -/
def putTe (s : State) (c : Nat) (x : NodeSt) : State := wheelPlace (wheelPlace (putNode s c x) (2 * c) x.teMin) (2 * c + 1) x.teMax

/-- Node c goes from increments (a, b) of its minimum and maximum shapers to (a', b'). -/
def rescaleNode (s : State) (c a b a' b' : Nat) : State :=
  let x := nodeSt s c
  let now := epochFine s
  putTe s c { x with teMin := rescale now x.teMin a a', teMax := rescale now x.teMax b b' }

/-- A shaper profile as a node uses it: profile 0 is none. -/
def profInc (s : State) (p : Nat) : Nat := if p = 0 then 0 else shaperInc (tabGet s Tab.shaper p)

/-- The nodes that hold a profile. -/
def nodesOf (s : State) (p : Nat) : List (Nat × Nat) := (tabListed s Tab.schNode).filter (fun e => bits e.2 19 16 == p || bits e.2 35 16 == p)

/-- The policer entry as its write leaves it: both buckets at the burst sizes of its profile, LAST_NS at the PTP time (R606). -/
def freshPolicer (s : State) (v : Nat) : Nat :=
  let p := tabRead s Tab.polProf (bits v 9 12)
  withBits (withBits (withBits v 21 30 (bits p 65 24 * 64)) 51 30 (bits p 89 24 * 64)) 81 47 (s.ptp.total % 2 ^ 47)

/-! ## References and checks -/

/-- Is a written NH or ECMP_GRP reference allowed (R607)? -/
def refOk (s : State) (fn t i : Nat) : Bool := tabValid s t i && mayRef s fn t i

/-- Does a value break a rule that answers BAD_KEY: reserved bits of an action entry (R153), reserved mask bits of a rule (R142), SHAPER entry 0 (R239)? -/
def badKeyValue (t i v : Nat) : Bool :=
  match t with
  | 10 => bits v (640 + 630) 10 != 0
  | 12 => bit v 15 || bits v 61 3 != 0 || bit v 95 || bits v 118 10 != 0 || bits v 153 7 != 0 || bits v 183 9 != 0 || bits v 224 32 != 0
  | 22 => i == 0
  | _ => false

/-- Does a value break a rule that answers BAD_RESULT (R124, R153, R197, R230, R239, R251, R606, R607, Tables 5-7 and 6-7)? -/
def badValue (s : State) (fn t v : Nat) : Bool :=
  match t with
  | 5 => decide (bits v 1 2 ≤ 1) && !resultOk s fn (bits v 23 24)
  | 7 => decide (512 < bits v 22 10) || decide (2097152 < bits v 1 21 + bits v 22 10)
  | 8 => bit v 20 && !refOk s fn Tab.nh (bits v 0 20)
  | 11 =>
    let fb := bits v 10 20
    let fc := bits v 30 11
    let lb := bits v 41 20
    let lc := bits v 61 11
    decide (1024 < fc) || decide (1024 < lc) || decide (1048576 < fb + fc) || decide (1048576 < lb + lc)
      || (decide (0 < fc) && decide (0 < lc) && decide (fb < lb + lc) && decide (lb < fb + fc))
  | 12 =>
    bits v 9 3 == 7 || decide (2 ≤ bits v 84 2) || bits v 13 2 == 3 || bits v 181 2 == 3
      || (bits v 9 3 == 5 && !refOk s fn Tab.nh (bits v 32 20)) || (bits v 9 3 == 6 && !refOk s fn Tab.ecmpGrp (bits v 32 16))
  | 13 => decide (4 < bits v 92 3) || decide (4 < bits v 175 3)
  | 14 => decide (120 < bits v 8 8)
  | 16 =>
    let ok (r : Nat) : Bool := decide (8 ≤ r) && decide (r ≤ 1600000000)
    !ok (bits v 3 31) || !ok (bits v 34 31)
  | 19 => decide (1048575 < bits v 2 20 + 7) || decide (1048576 < bits v 22 20 + bits v 62 17 * 2 ^ bits v 79 2)
  | 22 => decide (bits v 0 31 < 8) || decide (1600000000 < bits v 0 31)
  | 23 => bits v 8 34 == 0 || decide (10000000000 < bits v 8 34)
  | _ => false

/-- Is a rule a tenant's own: its VRF compared in full, and owned by the tenant (R142)? -/
def ruleOwn (s : State) (fn v : Nat) : Bool := bits v (640 + 448) 16 == 0xFFFF && vrfOwner s (bits v 448 16) == fn

/-- May function `fn` write value `v` at entry i of table t (R119, R142, R145, R152, R237, R545)? PF0 may write every table but SCH_TREE. -/
def mayWrite (s : State) (fn t i v : Nat) : Bool :=
  let old := tabGet s t i
  let live := tabValid s t i
  if t = 20 then false
  else if fn = 0 then true
  else match t with
    | 1 => ownerOf s 1 i == fn && bits v 0 8 == fn
    | 6 => (!live || ownerOf s t i == fn) && bits v 1 8 == fn && !bit v 9
    | 7 => (!live || ownerOf s t i == fn) && bits v 32 8 == fn && !bit v 40
    | 8 => !live || ownerOf s t i == fn
    | 10 => (!live || ruleOwn s fn old) && ruleOwn s fn v && ownerOf s Tab.action (bits v 1280 18) == fn
    | 12 =>
      let fwd := bits v 9 3
      let pol := !bit v 83 || ownerOf s Tab.policer (bits v 64 19) == fn
      let edit := !bit v 180 || ownerOf s Tab.edit (bits v 160 20) == fn
      let nh := fwd != 5 || mayRef s fn Tab.nh (bits v 32 20)
      let grp := fwd != 6 || mayRef s fn Tab.ecmpGrp (bits v 32 16)
      let vrf := fwd != 4 || !bit v 48 || vrfOwner s (bits v 32 16) == fn
      let base := getF s (Reg.CNT_TEN_BASE_BASE fn)
      let pair := !bit v 117 || (decide (base ≤ bits v 96 21) && decide (bits v 96 21 < base + getF s (Reg.CNT_TEN_COUNT_COUNT fn)))
      (!live || ownerOf s t i == fn) && bits v 1 8 == fn && fwd != 2 && !bit v 90 && pol && edit && nh && grp && vrf && pair
    | 13 => (!live || ownerOf s t i == fn) && bits v 1 8 == fn
    | 15 => (!live || ownerOf s t i == fn) && bits v 1 8 == fn
    | _ => false

/-- May function `fn` read entry i of table t (R145)? -/
def mayRead (s : State) (fn t i : Nat) : Bool :=
  fn == 0 || (match t with
    | 1 | 6 | 7 | 8 | 12 | 13 | 15 => ownerOf s t i == fn
    | 10 => tabValid s t i && ruleOwn s fn (tabGet s t i)
    | _ => false)

/-- May function `fn` delete entry i of table t? -/
def mayDelete (s : State) (fn t i : Nat) : Bool :=
  t != 20 && (fn == 0 || (match t with
    | 6 | 7 | 8 | 12 | 13 | 15 => !tabValid s t i || ownerOf s t i == fn
    | 10 => !tabValid s t i || ruleOwn s fn (tabGet s t i)
    | _ => false))

/-- Is an entry of GATE_LIST closed to writes: of the operational bank, or of a port with a change pending (R251)? -/
def gateClosed (s : State) (i : Nat) : Bool :=
  let p := i / 2048
  flag s (Reg.SCH_GATE_STAT_PENDING p) || getF s (Reg.SCH_GATE_STAT_OPER_BANK p) == i % 2048 / 1024

/-! ## Fences of EQMAP -/

/-- The (new, old) queue pairs of the classes and subscribers that a change of an EQMAP entry moves (R257). -/
def movedQueues (old new : Nat) : List (Nat × Nat) :=
  let subs (m : Nat) : List (Option Nat) := if bit m 1 then (upFrom (bits m 42 20) (bits m 62 17)).map some else []
  let keys := none :: (subs old ++ subs new)
  if !bit old 0 || !bit new 0 then []
  else (keys.flatMap (fun e => (List.range 8).filterMap (fun k =>
    let a := eqmapQueue new k e
    let b := eqmapQueue old k e
    if a = b then none else some (a, b)))).dedup

/-- Would the move make a fence wait on its own successor (R258)? -/
def fenceLoop (s : State) (l : List (Nat × Nat)) : Bool := l.any (fun e => s.qd.fences.any (fun f => f.newQ == e.1 || f.oldQ == e.1))

/-- The fences in force are counted in SCH_FENCE_STAT (R259). -/
def fenceCount (s : State) : State := setF s Reg.SCH_FENCE_STAT_ACTIVE s.qd.fences.length

/-- The fences that a move needs: the old queue still holds a frame. -/
def newFences (s : State) (port : Nat) (l : List (Nat × Nat)) : List Fence :=
  (l.filter (fun e => queueBusy s e.2)).map (fun e => { newQ := e.1, oldQ := e.2, sysPort := port })

/-! ## Writes of direct entries -/

/-- What follows from a change of an entry: TE of the nodes concerned (R256), the fences of EQMAP (R257), the owner of a member (R145).
DESIGN CHOICE: every write of a member, a MODIFY too, makes its writer the owner. -/
def afterWrite (s0 : State) (fn t i old : Nat) (s : State) : State :=
  match t with
  | 8 => { s with tab := { s.tab with mbrOwner := mput 0 s.tab.mbrOwner i fn } }
  | 15 => { s with tab := { s.tab with polRem := merase s.tab.polRem i } }
  | 19 =>
    let f := newFences s0 i (movedQueues old (tabGet s 19 i))
    fenceCount { s with qd := { s.qd with fences := s.qd.fences ++ f } }
  | 21 =>
    let v := tabGet s 21 i
    rescaleNode s i (profInc s (bits old 19 16)) (profInc s (bits old 35 16)) (profInc s (bits v 19 16)) (profInc s (bits v 35 16))
  | 22 =>
    let inc (k p : Nat) : Nat := if p = i then k else profInc s p
    let a := shaperInc old
    let b := shaperInc (tabGet s 22 i)
    (nodesOf s i).foldl (fun x e =>
      let m := bits e.2 19 16
      let n := bits e.2 35 16
      rescaleNode x e.1 (inc a m) (inc a n) (inc b m) (inc b n)) s
  | _ => s

/-- What a write of table t stores for value v: unnamed bits 0, maintained fields kept (R606). -/
def storedValue (s : State) (t v : Nat) : Nat :=
  match tabInfo t with
  | some x => let w := Nat.land v x.named; if t = 15 then freshPolicer s w else w
  | none => 0

/-- A write (INSERT when `ins`, else MODIFY) of a direct entry or a rule by function `fn`: its status by R604, and its effect. The tables with no VALID
bit take an INSERT as a MODIFY (R605). -/
def directWrite (s : State) (fn : Nat) (ins : Bool) (t i v : Nat) : Eng :=
  match tabInfo t with
  | none => { st := if fn = 0 then .badTable else .notPermitted, s := s }
  | some x =>
    let old := tabGet s t i
    let live := tabValid s t i
    let keyed := x.valid.isSome
    let clears := match x.valid with | some b => !bit v b | none => false
    let moved := if t = 19 && !ins then movedQueues old (Nat.land v x.named) else []
    let owner := t == 1 && bits v 0 8 != bits old 0 8 && vrfUsed s i
    let st := firstStatus [
      (!mayWrite s fn t i v, .notPermitted),
      (t == 18 && ins, .badTable),
      (decide (x.count ≤ i) || badKeyValue t i v, .badKey),
      (badValue s fn t v, .badResult),
      (keyed && ins && live, .exist),
      (keyed && !ins && !live, .notFound),
      (!ins && clears && decide (0 < refCount s t i), .inUse),
      (t == 18 && queueBusy s i, .inUse),
      (t == 23 && gateClosed s i, .inUse),
      (t == 19 && fenceLoop s moved, .inUse),
      (owner, .vrfNotEmpty),
      (t == 19 && decide (65536 < s.qd.fences.length + (newFences s i moved).length), .busy)]
    if st = .ok then
      let s1 := afterWrite s fn t i old (tabPut s t i (storedValue s t v))
      { st := st, changed := true, s := s1 }
    else { st := st, s := s }

/-- A DELETE of a direct entry or a rule: it returns to its start value (R605). -/
def directDelete (s : State) (fn t i : Nat) : Eng :=
  match tabInfo t with
  | none => { st := if fn = 0 then .badTable else .notPermitted, s := s }
  | some x =>
    let live := tabValid s t i
    let st := firstStatus [
      (!mayDelete s fn t i, .notPermitted),
      (t == 18, .badTable),
      (decide (x.count ≤ i) || (t == 22 && i == 0), .badKey),
      (x.valid.isSome && !live, .notFound),
      (decide (0 < refCount s t i), .inUse),
      (t == 23 && gateClosed s i, .inUse),
      (t == 1 && ownerOf s 1 i != 0 && vrfUsed s i, .vrfNotEmpty)]
    if st = .ok then
      let s1 := afterWrite s 0 t i (tabGet s t i) (tabPut s t i (tabStart t))
      { st := st, changed := true, s := s1 }
    else { st := st, s := s }

/-! ## Answers of direct entries -/

/-- Bytes charged to a queue, by a test of the charge and of the memory (Table 7-5). -/
def qacctBytes (s : State) (q : Nat) (f : Buf → Bool) : Nat :=
  ((s.qd.bufs.filter (fun e => e.2.q == q && f e.2)).map (fun e => bufSize e.2.k)).sum

/-- An entry as READ_ENTRY gives it: REFS of NH and ECMP_GRP (R606), the device's fields of QACCT (Table 7-5). -/
def entryView (s : State) (t i : Nat) : Nat :=
  let v := tabGet s t i
  match t with
  | 6 => withBits v 50 24 (min (2 ^ 24 - 1) (refCount s t i))
  | 7 => withBits v 41 23 (min (2 ^ 23 - 1) (refCount s t i))
  | 18 =>
    let spilled := match mfind s.qd.queues i with | some q => q.spilled | none => false
    v + b2n spilled * 2 ^ 16 + qacctBytes s i (fun b => b.charge == 0) * 2 ^ 17 + qacctBytes s i (fun b => b.charge == 2) * 2 ^ 46
      + qacctBytes s i (fun b => !b.dram) * 2 ^ 75 + qacctBytes s i (fun b => b.dram) * 2 ^ 104
  | _ => v

/-- INDEX and the entry, with what READ_ENTRY alone adds: the reference count of R606, the node state of R239 (TE_MIN and TE_MAX of 12 bytes with 32 fractional
bits, and the deficit of 8). -/
def entryBytes (s : State) (read : Bool) (t i : Nat) : Bytes :=
  let n := match tabInfo t with | some x => if t = 18 then 18 else x.bytes | none => 0
  let x := nodeSt s i
  let more := if !read then []
    else if t = 13 ∨ t = 14 ∨ t = 15 ∨ t = 16 then leBytes 4 (refCount s t i)
    else if t = 21 then leBytes 12 x.teMin ++ leBytes 12 x.teMax ++ leBytes 8 (ofSigned 64 x.deficit)
    else []
  leBytes 4 i ++ leBytes n (entryView s t i) ++ more

/-- READ_ENTRY of a direct entry or a rule. -/
def directRead (s : State) (fn t i : Nat) : Eng :=
  match tabInfo t with
  | none => { st := if fn = 0 then .badTable else .notPermitted, s := s }
  | some x =>
    let st := firstStatus [(!mayRead s fn t i, .notPermitted), (decide (x.count ≤ i), .badKey), (tabBad s t i, .lost)]
    { st := st, res := if st = .ok then entryBytes s true t i else [], s := s }

/-- The rule of a key (R141): the lowest valid one equal to the key under its mask, readable or not. -/
def ruleOf (s : State) (key : Nat) : Option (Nat × Nat) :=
  (tabListed s Tab.cls).find? (fun e => bit e.2 1298 && decide (e.1 < 131072) && Nat.land (Nat.xor key (bits e.2 0 640)) (bits e.2 640 640) == 0)

/-- The rule that a lookup of a key reads and finds uncorrectable (R118), by its index. -/
def ruleBad (s : State) (key : Nat) : Option Nat := (ruleOf s key).bind (fun e => if tabBad s Tab.cls e.1 then some e.1 else none)

/-- The rule a key hits (R141): its action entry and its index. A lookup that reads an uncorrectable rule misses (R118). -/
def classify (s : State) (key : Nat) : Option (Nat × Nat) :=
  (ruleOf s key).bind (fun e => if tabBad s Tab.cls e.1 then none else some (bits e.2 1280 18, e.1))

/-- What a frame with a key gets: the rule's action entry, or the port's default entry and rule 0xFFFF_FFFF. -/
def classAction (s : State) (key : Nat) : Nat × Nat :=
  match classify s key with
  | some r => r
  | none => (getF s (Reg.ACT_PORT_DEF_DEF_ENTRY (bits key 464 8)), 0xFFFFFFFF)

/-- SEARCH of a direct table or of the rules. A key with reserved bits, or a port above 161, is BAD_KEY. A tenant searches its own rules with keys of its own
VRFs: one that hits another's rule is outside its scope (R145). -/
def directSearch (s : State) (fn t : Nat) (b : Bytes) : Eng :=
  match tabInfo t with
  | none => { st := if fn = 0 then .badTable else .notPermitted, s := s }
  | some x =>
    if t = 10 then
      let key := leAt b 0 80
      let own := fn == 0 || vrfOwner s (bits key 448 16) == fn
      let other := match ruleOf s key with | some e => !mayRead s fn 10 e.1 | none => false
      let st := firstStatus [(!own || other, .notPermitted), (decide (161 < bits key 464 8) || bits key 630 10 != 0, .badKey)]
      let r := classAction s key
      { st := st, res := if st = .ok then leBytes 4 r.1 ++ leBytes 4 r.2 else [], s := s }
    else
      let i := leAt b 0 4
      let st := firstStatus [(!mayRead s fn t i, .notPermitted), (t == 18, .badTable), (decide (x.count ≤ i), .badKey), (!tabValid s t i, .notFound)]
      { st := st, res := if st = .ok then entryBytes s false t i else [], s := s }

/-- The least key above another, or the least of all. -/
def leastAfter {α : Type} (l : List (Nat × α)) (after : Option Nat) : Option (Nat × α) :=
  l.foldl (fun a e =>
    let past := match after with | some k => decide (k < e.1) | none => true
    match a with
    | some x => if past && decide (e.1 < x.1) then some e else a
    | none => if past then some e else a) none

/-- NEXT of a direct table or of the rules (R147, R605). -/
def directNext (s : State) (fn t : Nat) (after : Option Nat) : Eng :=
  match tabInfo t with
  | none => { st := if fn = 0 then .badTable else .notPermitted, s := s }
  | some x =>
    let some_in_scope := fn == 0 || t == 1 || t == 6 || t == 7 || t == 8 || t == 10 || t == 12 || t == 13 || t == 15
    let i := match after with | some k => k + 1 | none => 0
    let r : Option Nat :=
      if x.valid.isNone && fn == 0 then (if i < x.count then some i else none)
      else (leastAfter ((if x.valid.isSome then tabAll s t else tabListed s t).filter (fun e => mayRead s fn t e.1)) after).map (·.1)
    if !some_in_scope then { st := .notPermitted, s := s }
    else match r with
      | some j => { st := if tabBad s t j then .lost else .ok, res := if tabBad s t j then leBytes 4 j else entryBytes s false t j, s := s }
      | none => { st := .atEnd, s := s }

/-! ## Routes -/

/-- VRF, LENGTH, ADDRESS and RESULT of a route command (Table 18-5). -/
structure LpmOp where
  vrf : Nat
  len : Nat
  addr : Nat
  res : Nat

/-- The operands of a route command. -/
def lpmOp (t : Nat) (b : Bytes) : LpmOp :=
  { vrf := leAt b 0 2, len := byteAt b 2, addr := leAt b 4 (if t = 2 then 4 else 16), res := leAt b 20 4 % 2 ^ 24 }

/-- A route as commands answer it, in the layout of Table 18-5. -/
def lpmBytes (_t key res : Nat) : Bytes :=
  leBytes 2 (key / 256 / 2 ^ 128) ++ [byteOf (key % 256), 0] ++ leBytes 16 (key / 256 % 2 ^ 128) ++ leBytes 4 res

/-- INSERT, DELETE and MODIFY of a route (R128). `op` is the opcode. -/
def lpmWrite (s : State) (fn op t : Nat) (b : Bytes) : Eng :=
  let o := lpmOp t b
  let key := lpmKey t o.vrf o.addr o.len
  let present := (mfind (lpmTab s t) key).isSome
  let cost := if t = 2 then 1 else 2
  let st := firstStatus [
    (fn != 0 && vrfOwner s o.vrf != fn, .notPermitted),
    (decide (lpmWidth t < o.len), .badKey),
    (op != 2 && !resultOk s fn o.res, .badResult),
    (op == 1 && present, .exist),
    (op != 1 && !present, .notFound),
    (op == 1 && decide (8388608 < lpmUnits s + cost), .full)]
  if st = .ok then { st := st, changed := true, s := setLpm s t (mset (lpmTab s t) key (if op = 2 then none else some o.res)) }
  else { st := st, s := s }

/-- SEARCH (the longest match of an address), READ_ENTRY and NEXT of a route. -/
def lpmRead (s : State) (fn op t : Nat) (sub : Nat) (b : Bytes) : Eng :=
  let o := lpmOp t b
  let key := lpmKey t o.vrf o.addr o.len
  let own (v : Nat) : Bool := fn == 0 || vrfOwner s v == fn
  let early := firstStatus [(op != 5 && !own o.vrf, .notPermitted), (decide (lpmWidth t < o.len), .badKey)]
  if early ≠ .ok then { st := early, s := s }
  else
    let r : Option (Nat × Nat) :=
      if op = 4 then (lpmMatch s t o.vrf o.addr (lpmWidth t)).map (fun m => (lpmKey t o.vrf o.addr m.1, m.2))
      else if op = 6 then (mfind (lpmTab s t) key).map (fun r => (key, r))
      else leastAfter ((lpmTab s t).filter (fun e => own (e.1 / 256 / 2 ^ 128))) (if bit sub 0 then none else some key)
    match r with
    | some (k, v) => { st := .ok, res := lpmBytes t k v, s := s }
    | none => { st := if op = 5 then .atEnd else .notFound, s := s }

/-! ## HOST -/

/-- The operands of a HOST command: VRF, SOURCE, DESTINATION, RESULT; IPv4 addresses are the first 4 bytes of their 16. -/
structure HostOp where
  typ : Nat
  vrf : Nat
  src : Nat
  dst : Nat
  res : Nat

/-- The operands of a HOST command with its key type. -/
def hostOp (typ : Nat) (b : Bytes) : HostOp :=
  let n := if typ = 0 ∨ typ = 2 then 4 else 16
  { typ := typ, vrf := leAt b 0 2, src := leAt b 4 n, dst := leAt b 20 n, res := leAt b 36 4 % 2 ^ 24 }

/-- The 36 bytes of a HOST key as the INSERT key has them. -/
def hostKeyBytes (vrf src dst : Nat) : Bytes := leBytes 2 vrf ++ [0, 0] ++ leBytes 16 src ++ leBytes 16 dst

/-- A HOST entry and its location: the INSERT operands, BUCKET (4), SLOT (1), the key type (1), 0 (2), and both candidate buckets (R132). -/
def hostBytes (s : State) (b x : Nat) (e : HostEnt) : Bytes :=
  let c := hostBuckets s e.typ e.vrf e.src e.dst
  hostKeyBytes e.vrf e.src e.dst ++ leBytes 4 e.result ++ leBytes 4 b ++ [byteOf x, byteOf e.typ, 0, 0] ++ leBytes 4 c.1 ++ leBytes 4 c.2

/-- The event REHASH_REQUEST (R131, Table 18-7) to function `ev`. -/
def rehashEvent (s : State) (ev : Nat) (c : HostCmd) (pipe typ b0 b1 : Nat) (key : Bytes) : State :=
  hostEvent (perf s 83 4) ev 1 ([byteOf c.table, byteOf pipe, byteOf c.ring, byteOf typ] ++ leBytes 2 c.tag ++ [0, 0] ++ leBytes 4 b0 ++ leBytes 4 b1 ++ fit 36 key)

/-- INSERT, DELETE and MODIFY of a HOST entry (R130, R131). -/
def hostWrite (s : State) (ev op : Nat) (c : HostCmd) : Eng :=
  let o := hostOp (c.sub % 8) c.opnd
  let found := hostFind s o.typ o.vrf o.src o.dst
  let n := hostSlots o.typ
  let (b0, b1) := hostBuckets s o.typ o.vrf o.src o.dst
  let place : Option (Nat × Nat) := match hostPlace s b0 n with
    | some x => some (b0, x)
    | none => (hostPlace s b1 n).map (fun x => (b1, x))
  let st := firstStatus [
    (c.fn != 0 && vrfOwner s o.vrf != c.fn, .notPermitted),
    (decide (4 < o.typ), .badKey),
    (op != 2 && !resultOk s c.fn o.res, .badResult),
    (op == 1 && found.isSome, .exist),
    (op != 1 && found.isNone, .notFound),
    (op == 1 && decide (4194304 < hostUsed s + n), .full),
    (op == 1 && place.isNone, .rehash)]
  let new : HostEnt := { typ := o.typ, vrf := o.vrf, src := hostSrc o.typ o.src, dst := o.dst, result := o.res }
  if st = .rehash then { st := st, s := rehashEvent s ev c 0 o.typ b0 b1 (hostKeyBytes o.vrf (hostSrc o.typ o.src) o.dst) }
  else if st ≠ .ok then { st := st, s := s }
  else match op, found, place with
    | 1, _, some (b, x) => { st := st, changed := true, s := hostSet s b x (some new) }
    | 2, some (b, x, _), _ => { st := st, changed := true, s := hostSet s b x none }
    | _, some (b, x, e), _ => { st := st, changed := true, s := hostSet s b x (some { e with result := o.res }) }
    | _, _, _ => { st := st, s := s }

/-- MOVE of a HOST entry to its other candidate bucket (R132). -/
def hostMove (s : State) (c : HostCmd) : Eng :=
  let o := hostOp (c.sub % 8) c.opnd
  let found := hostFind s o.typ o.vrf o.src o.dst
  let (b0, b1) := hostBuckets s o.typ o.vrf o.src o.dst
  let early := firstStatus [(c.fn != 0 && vrfOwner s o.vrf != c.fn, .notPermitted), (decide (4 < o.typ), .badKey), (found.isNone, .notFound)]
  match found with
  | some (b, x, e) =>
    let other := if b = b0 then b1 else b0
    match hostPlace s other (hostSlots e.typ) with
    | some x' => if early = .ok then { st := .ok, changed := true, s := hostSet (hostSet s b x none) other x' (some e) } else { st := early, s := s }
    | none => { st := if early = .ok then .noRoom else early, s := s }
  | none => { st := early, s := s }

/-- The order of HOST for NEXT: key type, then key. -/
def hostOrder (typ vrf src dst : Nat) : Nat := ((typ * 2 ^ 16 + vrf) * 2 ^ 128 + src) * 2 ^ 128 + dst

/-- SEARCH, NEXT and READ_ENTRY of HOST. -/
def hostRead (s : State) (op : Nat) (c : HostCmd) : Eng :=
  let own (v : Nat) : Bool := c.fn == 0 || vrfOwner s v == c.fn
  let typ := if op = 5 then c.sub / 2 % 8 else c.sub % 8
  let o := hostOp typ c.opnd
  if op = 6 then
    let b := leAt c.opnd 0 4
    let x := byteAt c.opnd 4
    let cover := (List.range 4).filter (fun y => decide (y ≤ x) && (match mfind s.tab.host (hostKey b y) with
      | some e => decide (x < y + hostSlots e.typ) | none => false))
    if 1048576 ≤ b ∨ 4 ≤ x then { st := .badKey, s := s }
    else match cover.head? with
      | some y => match mfind s.tab.host (hostKey b y) with
        | some e =>
          let st := firstStatus [(!own e.vrf, .notPermitted), (hostBad s (hostKey b y), .lost)]
          { st := st, res := if st = .ok then hostBytes s b y e else [], s := s }
        | none => { st := .notFound, s := s }
      | none => { st := .notFound, s := s }
  else if op = 4 then
    let early := firstStatus [(!own o.vrf, .notPermitted), (decide (4 < typ), .badKey)]
    match hostFind s typ o.vrf o.src o.dst with
    | some (b, x, e) => { st := early, res := if early = .ok then hostBytes s b x e else [], s := s }
    | none => { st := if early = .ok then .notFound else early, s := s }
  else if decide (4 < typ) && !bit c.sub 0 then { st := .badKey, s := s }
  else
    let live := s.tab.host.filter (fun e => own e.2.vrf && !hostBad s e.1)
    let keyed := live.map (fun e => (hostOrder e.2.typ e.2.vrf e.2.src e.2.dst, e))
    match leastAfter keyed (if bit c.sub 0 then none else some (hostOrder typ o.vrf (hostSrc typ o.src) o.dst)) with
    | some (_, k, e) => { st := .ok, res := hostBytes s (k / 4) (k % 4) e, s := s }
    | none => { st := .atEnd, s := s }

/-! ## MAC -/

/-- The operands of a MAC command: BD, MAC, PIPE_MASK, RESULT. -/
structure MacOp where
  bd : Nat
  mac : Nat
  mask : Nat
  res : Nat

/-- The operands of a MAC command. -/
def macOp (b : Bytes) : MacOp := { bd := leAt b 0 2, mac := leAt b 2 6, mask := leAt b 8 4, res := leAt b 12 4 % 2 ^ 24 }

/-- The 96 bits of a MAC slot (Table 5-23), all 0 for one that is not occupied. -/
def macWord (e : Option MacEnt) : Nat :=
  match e with
  | some e => e.bd + e.mac * 2 ^ 16 + e.result % 2 ^ 24 * 2 ^ 64 + b2n e.isStatic * 2 ^ 88 + e.age % 8 * 2 ^ 89 + b2n e.sharedIn * 2 ^ 92 + 2 ^ 93
  | none => 0

/-- A MAC slot as completions give it: its entry (R606), its place as BUCKET (4), SLOT (1), PIPELINE (1) and 0 (2), and both candidate buckets of the entry. -/
def macBytes (s : State) (n b x : Nat) (e : Option MacEnt) : Bytes :=
  let c := match e with | some v => macBuckets s v.bd v.mac | none => (0, 0)
  leBytes 12 (macWord e) ++ leBytes 4 b ++ [byteOf x, byteOf n, 0, 0] ++ leBytes 4 c.1 ++ leBytes 4 c.2

/-- The status bytes of a MAC command whose selected copies all have one status (R135). -/
def macStatuses (mask : Nat) (st : Status) : Bytes := (List.range 20).map (fun n => if bit mask n then byteOf st.code else 0xFF)

/-- INSERT, DELETE or MODIFY of a MAC entry in one copy (R135): its status there, and its effect. -/
def macWriteOne (s : State) (ev op : Nat) (c : HostCmd) (n : Nat) : Status × State :=
  let o := macOp c.opnd
  let found := macFind s n o.bd o.mac
  let (b0, b1) := macBuckets s o.bd o.mac
  let place : Option (Nat × Nat) := match macPlace s n b0 with
    | some x => some (b0, x)
    | none => (macPlace s n b1).map (fun x => (b1, x))
  let st := firstStatus [
    (op != 2 && !resultOk s c.fn o.res, .badResult),
    (op == 1 && found.isSome, .exist),
    (op != 1 && found.isNone, .notFound),
    (op == 1 && decide (262144 < (macCopy s n).length + 1), .full),
    (op == 1 && place.isNone, .rehash)]
  let new : MacEnt := { bd := o.bd, mac := o.mac, result := o.res, isStatic := bit c.sub 0, age := 0, sharedIn := false }
  if st = .rehash then (st, rehashEvent s ev c n 0 b0 b1 (leBytes 2 o.bd ++ leBytes 6 o.mac ++ leBytes 4 o.mask))
  else if st ≠ .ok then (st, s)
  else match op, found, place with
    | 1, _, some (b, x) => (st, macSet s n b x (some new))
    | 2, some (b, x, _), _ => (st, macSet s n b x none)
    | _, some (b, x, e), _ => (st, macSet s n b x (some { e with result := o.res }))
    | _, _, _ => (st, s)

/-- INSERT, DELETE and MODIFY of a MAC entry in the copies of its mask: RESULT holds a status byte per copy, 0xFF for one not selected, and STATUS is the
first other than OK (R135). -/
def macWrite (s : State) (ev op : Nat) (c : HostCmd) : Eng :=
  let o := macOp c.opnd
  if c.fn != 0 && vrfOwner s o.bd != c.fn then { st := .notPermitted, res := macStatuses o.mask .notPermitted, s := s }
  else
    let (l, s1) := (List.range 20).foldl (fun (acc : List (Option Status) × State) n =>
      if bit o.mask n then
        let r := macWriteOne acc.2 ev op c n
        (acc.1 ++ [some r.1], r.2)
      else (acc.1 ++ [none], acc.2)) ([], s)
    let done := l.filterMap id
    { st := (done.find? (fun x => x != .ok)).getD .ok,
      res := l.map (fun x => match x with | some v => byteOf v.code | none => 0xFF),
      changed := done.any (fun x => x == .ok), s := s1 }

/-- MOVE of a MAC entry of one copy (R132). -/
def macMoveCmd (s : State) (c : HostCmd) : Eng :=
  let o := macOp c.opnd
  let n := byteAt c.opnd 12
  let found := macFind s n o.bd o.mac
  let (b0, b1) := macBuckets s o.bd o.mac
  let early := firstStatus [(c.fn != 0 && vrfOwner s o.bd != c.fn, .notPermitted), (decide (19 < n), .badKey), (found.isNone, .notFound)]
  match found with
  | some (b, x, e) =>
    let other := if b = b0 then b1 else b0
    match macPlace s n other with
    | some x' => if early = .ok then { st := .ok, changed := true, s := macMove s n b x other x' e } else { st := early, s := s }
    | none => { st := if early = .ok then .noRoom else early, s := s }
  | none => { st := early, s := s }

/-- SEARCH, NEXT and READ_ENTRY of MAC; a slot that is not occupied reads with VALID 0 (R605). SEARCH and NEXT act on the lowest pipeline of the mask. DESIGN CHOICE: Table 18-5 gives a search no single pipeline. -/
def macRead (s : State) (op : Nat) (c : HostCmd) : Eng :=
  let own (v : Nat) : Bool := c.fn == 0 || vrfOwner s v == c.fn
  let o := macOp c.opnd
  let pipe := (onesOf 20 o.mask).head?
  if op = 6 then
    let b := leAt c.opnd 0 4
    let x := byteAt c.opnd 4
    let n := byteAt c.opnd 5
    if 65536 ≤ b ∨ 4 ≤ x ∨ 20 ≤ n then { st := .badKey, s := s }
    else match mfind s.tab.mac (macKey n b x) with
      | e =>
        let st := firstStatus [(e.any (fun v => !own v.bd), .notPermitted), (macBad s (macKey n b x), .lost)]
        { st := st, res := if st = .ok then macBytes s n b x e else [], s := s }
  else if op = 4 && !own o.bd then { st := .notPermitted, s := s }
  else match pipe with
    | none => { st := if op = 4 then .notFound else .atEnd, s := s }
    | some n =>
      if op = 4 then match macFind s n o.bd o.mac with
        | some (b, x, e) => { st := .ok, res := macBytes s n b x (some e), s := s }
        | none => { st := .notFound, s := s }
      else
        let keyed := ((macCopy s n).filter (fun e => own e.2.bd && !macBad s e.1)).map (fun e => (e.2.bd * 2 ^ 48 + e.2.mac, e))
        match leastAfter keyed (if bit c.sub 0 then none else some (o.bd * 2 ^ 48 + o.mac)) with
        | some (_, k, e) => { st := .ok, res := macBytes s n (k / 4 % 65536) (k % 4) (some e), s := s }
        | none => { st := .atEnd, s := s }

/-! ## Flushes -/

/-- The keys that a FLUSH_BY_PORT names in copy n (R148). -/
def flushKeys (s : State) (c : HostCmd) (n : Nat) : List (Nat × Nat × Nat) :=
  let port := leAt c.opnd 0 2
  let bd := leAt c.opnd 2 2
  let sel := bits c.sub 1 2
  let inScope (e : MacEnt) : Bool :=
    if bit c.sub 0 then vrfOwner s e.bd == c.fn else e.bd == bd && (c.fn == 0 || vrfOwner s bd == c.fn)
  ((macCopy s n).filter (fun e => !macBad s e.1 && inScope e.2 && resType e.2.result == 6 && bits e.2.result 0 16 == port
    && (if e.2.isStatic then bit sel 1 else bit sel 0))).map (fun e => (n, e.2.bd, e.2.mac))

/-- FTB_FLUSH_STAT.QUEUED follows the queue (Table 5-18). -/
def flushStat (s : State) : State := setF s Reg.FTB_FLUSH_STAT_QUEUED s.tab.flushes.length

/-- The tables of which a VF may act on some entries (R145, R152). -/
def vfTable (t : Nat) : Bool := [1, 2, 3, 4, 6, 7, 8, 9, 10, 12, 13, 15].contains t

/-- The refusals of a FLUSH_BY_PORT, in the order of R604: a VF's own bridge domain on a table that the command does not take is BAD_TABLE. -/
def flushStatus (s : State) (c : HostCmd) : Status :=
  firstStatus [
    (c.fn != 0 && (!vfTable c.table || (!bit c.sub 0 && vrfOwner s (leAt c.opnd 2 2) != c.fn)), .notPermitted),
    (c.table != 9, .badTable), (decide (8 ≤ s.tab.flushes.length), .busy)]

/-- A flush with the entries that it removes. -/
def flushOf (s : State) (c : HostCmd) : Flush :=
  let copies := onesOf 20 (leAt c.opnd 4 4)
  { cmd := c, keys := copies.flatMap (flushKeys s c) }

/-- Takes a flush into the queue. -/
def flushTake (s : State) (f : Flush) : State := flushStat { s with tab := { s.tab with flushes := s.tab.flushes ++ [f] } }

/-- Removes an entry by its key from a copy. -/
def flushDrop (s : State) (e : Nat × Nat × Nat) : State :=
  match macFind s e.1 e.2.1 e.2.2 with
  | some (b, x, _) => macSet s e.1 b x none
  | none => s

/-- The sweep of the first flush ends: its entries are gone, and LAST_REMOVED counts them. Those of a copy whose slice sleeps are recorded (R570). -/
def flushSweep (s : State) (f : Flush) (rest : List Flush) : State × Nat :=
  let later := f.keys.filter (fun e => sliceSleeps s e.1)
  let here := f.keys.filter (fun e => !sliceSleeps s e.1 && (macFind s e.1 e.2.1 e.2.2).isSome)
  let s1 := here.foldl flushDrop { s with tab := { s.tab with flushes := rest }, slc := { s.slc with flushes := s.slc.flushes ++ later } }
  let s2 := setB (setF s1 Reg.FTB_FLUSH_STAT_LAST_REMOVED here.length) Reg.FTB_FLUSH_STAT_RUNNING false
  (flushStat s2, here.length)

/-! ## Commands -/

/-- INSERT, DELETE and MODIFY of any table by opcode, with the events of a REHASH going to function `ev`. -/
def writeEng (ev op : Nat) (c : HostCmd) (s : State) : Eng :=
  match c.table with
  | 2 => lpmWrite s c.fn op 2 c.opnd
  | 3 => lpmWrite s c.fn op 3 c.opnd
  | 4 => hostWrite s ev op c
  | 9 => macWrite s ev op c
  | t =>
    let i := leAt c.opnd 0 4
    let n := match tabInfo t with | some x => x.bytes | none => 0
    if op = 2 then directDelete s c.fn t i else directWrite s c.fn (op == 1) t i (leAt c.opnd 4 n)

/-- SEARCH, NEXT and READ_ENTRY of any table by opcode. -/
def readEng (op : Nat) (c : HostCmd) (s : State) : Eng :=
  match c.table with
  | 2 => lpmRead s c.fn op 2 c.sub c.opnd
  | 3 => lpmRead s c.fn op 3 c.sub c.opnd
  | 4 => hostRead s op c
  | 9 => macRead s op c
  | t =>
    let i := leAt c.opnd 0 4
    if op = 4 then directSearch s c.fn t c.opnd
    else if op = 5 then directNext s c.fn t (if bit c.sub 0 then none else some i)
    else directRead s c.fn t i

/-- MOVE of any table (R132); only HOST and MAC take it. -/
def moveEng (c : HostCmd) (s : State) : Eng :=
  match c.table with
  | 4 => hostMove s c
  | 9 => macMoveCmd s c
  | 2 | 3 => { st := if c.fn = 0 ∨ vrfOwner s (leAt c.opnd 0 2) = c.fn then .badTable else .notPermitted, s := s }
  | t => { st := if mayRead s c.fn t (leAt c.opnd 0 4) then .badTable else .notPermitted, s := s }

/-- A mirrored table or store command as the standby's own engine runs it, all of its events going to PF0 (R345, R346). -/
def mirrorEng (c : HostCmd) (s : State) : Eng :=
  if c.opcode = 1 ∨ c.opcode = 2 ∨ c.opcode = 3 then writeEng 0 c.opcode c s
  else if c.opcode = 7 then moveEng c s
  else storeEng c s

/-- INSERT (Table 5-10). -/
def insertEntry (c : HostCmd) (s : State) : State := hostCmd s c 1 true (fun s => writeEng c.fn 1 c (perf s 83 0))

/-- The command whose effect is `insertEntry`. -/
def execInsert (c : HostCmd) (s : State) : Out := .next (insertEntry c s)

/-- DELETE (Table 5-10). -/
def deleteEntry (c : HostCmd) (s : State) : State := hostCmd s c 2 true (fun s => writeEng c.fn 2 c (perf s 83 1))

/-- The command whose effect is `deleteEntry`. -/
def execDelete (c : HostCmd) (s : State) : Out := .next (deleteEntry c s)

/-- MODIFY (Table 5-10). -/
def modify (c : HostCmd) (s : State) : State := hostCmd s c 3 true (fun s => writeEng c.fn 3 c (perf s 83 2))

/-- The command whose effect is `modify`. -/
def execModify (c : HostCmd) (s : State) : Out := .next (modify c s)

/-- SEARCH (Table 5-10). -/
def search (c : HostCmd) (s : State) : State := hostCmd s c 4 false (fun s => readEng 4 c (perf s 83 3))

/-- The command whose effect is `search`. -/
def execSearch (c : HostCmd) (s : State) : Out := .next (search c s)

/-- NEXT (R147). -/
def nextEntry (c : HostCmd) (s : State) : State := hostCmd s c 5 false (fun s => readEng 5 c (perf s 83 3))

/-- The command whose effect is `nextEntry`. -/
def execNext (c : HostCmd) (s : State) : Out := .next (nextEntry c s)

/-- READ_ENTRY (Table 5-10). -/
def readEntry (c : HostCmd) (s : State) : State := hostCmd s c 6 false (readEng 6 c)

/-- The command whose effect is `readEntry`. -/
def execReadEntry (c : HostCmd) (s : State) : Out := .next (readEntry c s)

/-- A mirrored command that waits for room on a standby is tried again after a MOVE on its table copy (R346). -/
def retryAfterMove (s : State) (c : HostCmd) : State :=
  let due := s.pair.retry.filter (fun x => x.table == c.table)
  due.foldl (fun a x =>
    let e := mirrorEng x a
    if e.st = .ok then { e.s with pair := { e.s.pair with retry := e.s.pair.retry.erase x } } else { e.s with hif := a.hif }) s

/-- MOVE (R132). It reorders without changing contents, so a standby's host may issue it (R344). -/
def move (c : HostCmd) (s : State) : State :=
  let s1 := hostCmd s c 7 false (fun s => moveEng c (perf s 83 7))
  if cmdReady s c 7 then retryAfterMove s1 c else s1

/-- The command whose effect is `move`. -/
def execMove (c : HostCmd) (s : State) : Out := .next (move c s)

/-- NOP (R489): completes OK and marks a point in the ring. -/
def nop (c : HostCmd) (s : State) : State := hostCmd s c 0x20 false (fun s => { st := .ok, s := s })

/-- The command whose effect is `nop`. -/
def execNop (c : HostCmd) (s : State) : Out := .next (nop c s)

/-- FLUSH_BY_PORT (R148): the flush is taken into the queue of 8, or refused. -/
def flushByPort (c : HostCmd) (s : State) : State :=
  if !cmdReady s c 8 then s
  else
    let st := if standby s then .notPermitted else flushStatus s c
    if st ≠ .ok then finish s c false st []
    else
      let s1 := mirrorItem (flushTake s (flushOf s c)) (.table c 0)
      refuseOpcodes s1 c.fn c.ring s1.hif.inFlight.length

/-- The command whose effect is `flushByPort`. -/
def execFlushByPort (c : HostCmd) (s : State) : Out := .next (flushByPort c s)

/-- FLUSH_BY_PORT_DONE (R148, R570): the sweep of the oldest flush ends, and its completion gives the number of entries removed (4 bytes). -/
def flushByPortDone (s : State) : State :=
  if !flag s Reg.FTB_FLUSH_STAT_RUNNING then s
  else match s.tab.flushes with
    | [] => s
    | f :: rest =>
      let (s1, n) := flushSweep s f rest
      finish s1 f.cmd false .ok (leBytes 4 n)

/-- The command whose effect is `flushByPortDone`. -/
def execFlushByPortDone (s : State) : Out := .next (flushByPortDone s)

end Sys2Proof.Machine
end

