-- ==== Sys2Proof/Machine/Lookup.lean ====
section
/-! DEFINITION. The lookups of a pass (R120 to R126), learning (R134 to R140), and the fragment table (R86 to R95). -/

namespace Sys2Proof.Machine

/-! ## Learning -/

/-- Does slice n's MAC copy hold an unreadable slot among the two candidate buckets of a key? The first such slot. -/
def macBadNear (s : State) (n bd mac : Nat) : Option Nat :=
  let (b0, b1) := macBuckets s bd mac
  ((List.range 4).flatMap (fun x => [macKey n b0 x, macKey n b1 x])).find? (macBad s)

/-- Learned entries of tenant t in copy n (Table 5-21). -/
def learnedCount (s : State) (n t : Nat) : Nat := countIf (fun e => !e.2.isStatic && vrfOwner s e.2.bd == t) (macCopy s n)

/-- Puts a message on the learn bus for copy m, or drops it: the bus is full, or the slice of m sleeps (R136, R140). -/
def busPut (s : State) (x : BusMsg) : State :=
  if Config.learnBusDepth ≤ s.tab.bus.length || sliceSleeps s x.dst then bump s (Reg.FTB_LEARN_CNT x.src 5)
  else { s with tab := { s.tab with bus := s.tab.bus ++ [x] } }

/-- Sends a learn, a move or a refresh to the other 19 copies (R136, R139). -/
def busSend (s : State) (n : Nat) (refresh : Bool) (bd mac res : Nat) : State :=
  ((List.range 20).filter (· != n)).foldl (fun a m =>
    busPut a { src := n, dst := m, refresh := refresh, bd := bd, mac := mac, result := res }) s

/-- A new learned entry goes into the first candidate bucket with room (R131, R133, R134); the answer says whether it was stored. -/
def learnNew (s : State) (n bd mac res : Nat) (shared : Bool) : Bool × State :=
  let t := vrfOwner s bd
  let (b0, b1) := macBuckets s bd mac
  let place : Option (Nat × Nat) := match macPlace s n b0 with
    | some x => some (b0, x)
    | none => (macPlace s n b1).map (fun x => (b1, x))
  if min 262144 (getF s (Reg.FTB_TENANT_LIMIT_LIMIT t)) ≤ learnedCount s n t then (false, bump s (Reg.FTB_LEARN_CNT n 3))
  else match place with
    | none => (false, bump s (Reg.FTB_LEARN_CNT n 4))
    | some (b, x) =>
      let e : MacEnt := { bd := bd, mac := mac, result := res, isStatic := false, age := 0, sharedIn := shared }
      (true, perfTenant (perf (bump (macSet s n b x (some e)) (Reg.FTB_LEARN_CNT n 0)) 83 5) t 6 1)

/-- A message of the learn bus acts on its copy under R134, with its own room and limit. -/
def learnShared (s : State) (x : BusMsg) : State :=
  let s := bump s (Reg.FTB_LEARN_CNT x.dst 7)
  match macFind s x.dst x.bd x.mac with
  | none => (learnNew s x.dst x.bd x.mac x.result true).2
  | some (b, k, e) =>
    if e.isStatic then s
    else if e.result != x.result then bump (macSet s x.dst b k (some { e with result := x.result, age := 0, sharedIn := true })) (Reg.FTB_LEARN_CNT x.dst 1)
    else macSet s x.dst b k (some { e with age := 0 })

/-- The learn of a frame's source address in its own pipeline (R134, R136 to R139); the answer says whether a static entry conflicts (R137). A learn that
finds no room or no budget stores nothing and sends nothing. -/
def learnOwn (s : State) (n bd mac res : Nat) : Bool × State :=
  let share := bit (tabGet s Tab.vrf bd) 61
  match macFind s n bd mac with
  | none =>
    let (ok, s1) := learnNew s n bd mac res false
    (false, if ok && share then busSend s1 n false bd mac res else s1)
  | some (b, x, e) =>
    if e.isStatic then if e.result != res then (true, bump s (Reg.FTB_LEARN_CNT n 6)) else (false, s)
    else if e.result != res then
      let s1 := bump (macSet s n b x (some { e with result := res, age := 0, sharedIn := false })) (Reg.FTB_LEARN_CNT n 1)
      (false, if share then busSend s1 n false bd mac res else s1)
    else
      let s1 := macSet s n b x (some { e with age := 0 })
      (false, if share && decide (2 ≤ e.age) then busSend s1 n true bd mac res else s1)

/-- LEARN_BUS_MSG (R136, R140): the oldest message of the bus, a learn or a move, is applied to its copy; a copy that sleeps takes none. -/
def learnBusMsg (s : State) : State :=
  match s.tab.bus with
  | [] => s
  | x :: r =>
    if x.refresh then s
    else
      let s1 := { s with tab := { s.tab with bus := r } }
      if sliceSleeps s x.dst then bump s1 (Reg.FTB_LEARN_CNT x.src 5) else learnShared s1 x

/-- The command whose effect is `learnBusMsg`. -/
def execLearnBusMsg (s : State) : Out := .next (learnBusMsg s)

/-- LEARN_REFRESH_MSG (R139): the oldest message of the bus, a refresh, sets AGE to 0 in a copy that holds the entry. -/
def learnRefreshMsg (s : State) : State :=
  match s.tab.bus with
  | [] => s
  | x :: r =>
    if !x.refresh then s
    else
      let s1 := { s with tab := { s.tab with bus := r } }
      if sliceSleeps s x.dst then bump s1 (Reg.FTB_LEARN_CNT x.src 5)
      else match macFind s1 x.dst x.bd x.mac with
        | some (b, k, e) => if e.isStatic then s1 else macSet s1 x.dst b k (some { e with age := 0 })
        | none => s1

/-- The command whose effect is `learnRefreshMsg`. -/
def execLearnRefreshMsg (s : State) : Out := .next (learnRefreshMsg s)

/-- One entry ages by a sweep (R138): the sweep that brings it to 5 removes it. -/
def ageEntry (s : State) (n : Nat) (k : Nat) (e : MacEnt) : State :=
  let b := k / 4 % 65536
  let x := k % 4
  if 4 ≤ e.age then perf (bump (macSet s n b x none) (Reg.FTB_LEARN_CNT n 2)) 83 6
  else macSet s n b x (some { e with age := e.age + 1 })

/-- AGE_SWEEP (R138, R140): a sweep of copy n over the learned entries of tenant t. An unreadable entry has no age to read (R118). -/
def ageSweep (n : Fin 20) (t : Fin 256) (s : State) : State :=
  if getF s (Reg.FTB_TENANT_AGE_AGE_S t) = 0 || sliceSleeps s n then s
  else ((macCopy s n).filter (fun e => !macBad s e.1 && !e.2.isStatic && vrfOwner s e.2.bd == t.val)).foldl (fun a e => ageEntry a n e.1 e.2) s

/-- The command whose effect is `ageSweep`. -/
def execAgeSweep (n : Fin 20) (t : Fin 256) (s : State) : Out := .next (ageSweep n t s)

/-- TRIE_NODE_REBUILD (R118): the oldest damaged trie node is rebuilt; FTB_ECC_STAT.REBUILD shows whether another waits. -/
def trieNodeRebuild (s : State) : State :=
  let l := s.tab.trieBad.drop 1
  setB { s with tab := { s.tab with trieBad := l } } Reg.FTB_ECC_STAT_REBUILD (!l.isEmpty)

/-- The command whose effect is `trieNodeRebuild`. -/
def execTrieNodeRebuild (s : State) : Out := .next (trieNodeRebuild s)

/-! ## Single lookups -/

/-- What one table lookup gives: a forwarding result, a flood group, a miss reason of Table 5-5, or an unreadable entry of a table. -/
inductive Hit where
  | res (r : Nat)
  | flood (g : Nat)
  | miss (k : Nat)
  | ecc (t key : Nat)
  deriving DecidableEq, Repr

/-- `l2_lookup` (R120). An unreadable slot is absent (R118); a lookup that finds nothing beside one misses with reason ECC. -/
def l2Lookup (s : State) (n bd dmac : Nat) : Hit :=
  match macFind s n bd dmac with
  | some (_, _, e) => .res e.result
  | none => match macBadNear s n bd dmac with
    | some k => .ecc 9 (tabKey 9 k)
    | none => let g := tabF s Tab.vrf bd 63 16; if g = 0xFFFF then .miss 1 else .flood g

/-- A HOST lookup: the result, nothing, or an unreadable slot among the candidates. -/
def hostLookup (s : State) (typ vrf src dst : Nat) : Option Hit :=
  match hostFind s typ vrf src dst with
  | some (_, _, e) => some (.res e.result)
  | none =>
    let (b0, b1) := hostBuckets s typ vrf src dst
    (((List.range 4).flatMap (fun x => [hostKey b0 x, hostKey b1 x])).find? (hostBad s)).map (fun k => .ecc 4 (tabKey 4 k))

/-- `ip_lookup` (R120): HOST, then the LPM table of the family for a unicast destination; (S,G), then (*,G) for a group. -/
def ipLookup (s : State) (v6 : Bool) (vrf dip sip : Nat) : Hit :=
  let group := if v6 then dip / 2 ^ 120 == 0xFF else dip / 2 ^ 28 == 0xE
  let t := if v6 then 3 else 2
  if group then
    match hostLookup s (if v6 then 4 else 2) vrf sip dip with
    | some h => h
    | none => (hostLookup s (if v6 then 3 else 2) vrf 0 dip).getD (.miss 5)
  else match hostLookup s (if v6 then 1 else 0) vrf 0 dip with
    | some h => h
    | none =>
      if lpmBad s t vrf dip then .ecc t (tabKey t (vrf % 2 ^ 16))
      else match lpmMatch s t vrf dip (lpmWidth t) with
        | some (_, r) => .res r
        | none => .miss 2

/-- The IP lookup of the outer IP header in a VRF. -/
def ipHit (s : State) (vrf : Nat) (r : PRec) : Hit := ipLookup s (pget r PF.l3Type == 2) vrf (pget r PF.dip) (pget r PF.sip)

/-! ## Resolution -/

/-- The 32-bit ECMP hash of a frame (R126, R600): the CRC-32C of the seed followed by the selected fields, of the seed alone when none is selected. -/
def frameHash (s : State) (r : PRec) : Nat :=
  let w := getF s Reg.FTB_ECMP_SEED_SEED
  let f := (rd s Reg.FTB_ECMP_FIELDS).toNat % 512
  let inner := bit f 5 && pget r PF.iL3Type != 0
  let pick (a b : Fld) : Nat := if inner then pget r b else pget r a
  let mpls := pget r PF.mplsCnt
  let lbl (i : Nat) : Nat := pget r (PF.lse i) / 4096
  let el := bit f 7 && pget r PF.elPresent == 1
  let labels := if mpls = 0 then 0
    else if el then 1 + 4 * lbl (pget r PF.elIdx)
    else if bit f 6 then 2 + 4 * (((List.range (min 3 mpls)).map (fun i => (lbl i + 1) * 2 ^ (21 * i))).sum)
    else 0
  let parts : List (Nat × Nat) := [
    (128, if bit f 0 then pick PF.sip PF.iSip else 0),
    (128, if bit f 1 then pick PF.dip PF.iDip else 0),
    (8, if bit f 2 then pick PF.ipProto PF.iIpProto else 0),
    (32, if bit f 3 then pick PF.l4Sport PF.iL4Sport * 65536 + pick PF.l4Dport PF.iL4Dport else 0),
    (20, if bit f 4 then pget r PF.flow else 0),
    (66, labels),
    (8, if bit f 8 then pget r PF.port else 0),
    (9, f)]
  crc32c (leBytes 4 w ++ (if f = 0 then [] else Config.ecmpInput (parts.foldl (fun a e => a * 2 ^ e.1 + e.2) 0)))

/-- The next hop i as an outcome: unreadable, invalid or found. DEDUCED: an unreadable NH, ECMP or multicast word that a lookup reads misses with reason ECC by R118,
though R124 names it among the ways in which a result comes to name an invalid entry. -/
def nhFwd (s : State) (i : Nat) : Except (Nat × Nat) Fwd :=
  if tabBad s Tab.nh i then .error (Tab.nh, tabKey Tab.nh i) else .ok (if tabValid s Tab.nh i then .nh i else .miss 6)

/-- A multicast group as an outcome. -/
def groupFwd (s : State) (flood : Bool) (g : Nat) : Except (Nat × Nat) Fwd :=
  if tabBad s Tab.mcGrp g then .error (Tab.mcGrp, tabKey Tab.mcGrp g)
  else .ok (if tabValid s Tab.mcGrp g then (if flood then .flood g else .group g) else .miss 6)

/-- The member that ECMP group i selects for hash H (R126). -/
def ecmpFwd (s : State) (i h : Nat) : Except (Nat × Nat) Fwd :=
  if tabBad s Tab.ecmpGrp i then .error (Tab.ecmpGrp, tabKey Tab.ecmpGrp i)
  else if !tabValid s Tab.ecmpGrp i || tabF s Tab.ecmpGrp i 22 10 == 0 then .ok (.miss 6)
  else
    let m := tabF s Tab.ecmpGrp i 1 21 + h / 65536 * tabF s Tab.ecmpGrp i 22 10 / 65536
    if tabBad s Tab.ecmpMbr m then .error (Tab.ecmpMbr, tabKey Tab.ecmpMbr m)
    else if tabValid s Tab.ecmpMbr m then nhFwd s (tabF s Tab.ecmpMbr m 0 20)
    else .ok (.miss 6)

/-- A forwarding result as an outcome (R124, Table 5-6). TYPE 0, which the table calls invalid, resolves as an invalid next hop. -/
def resolve (s : State) (r h : Nat) : Except (Nat × Nat) Fwd :=
  match resType r with
  | 1 => nhFwd s (bits r 0 20)
  | 2 => ecmpFwd s (bits r 0 16) h
  | 3 => groupFwd s false (bits r 0 16)
  | 4 => .ok .drop
  | 5 => .ok (.host (bits r 0 8))
  | 6 => .ok (.sys (bits r 0 16))
  | _ => .ok (.miss 6)

/-- A lookup's outcome, resolved: an unreadable word misses with reason ECC and is reported (R118). -/
def hitFwd (s : State) (x : Hit) (h : Nat) : Fwd × State :=
  let done (o : Except (Nat × Nat) Fwd) : Fwd × State := match o with
    | .ok f => (f, s)
    | .error e => (.miss 7, tableEcc s e.1 e.2)
  match x with
  | .res r => done (resolve s r h)
  | .flood g => done (groupFwd s true g)
  | .miss k => (.miss k, s)
  | .ecc t k => (.miss 7, tableEcc s t k)

/-! ## The lookups of a pass -/

/-- Is the PORT entry of a frame, or the VRF entry of its bridge domain, unreadable (R118)? -/
def bdBad (s : State) (f : InFrame) (bd : Nat) : Bool := tabBad s Tab.port f.port || tabBad s Tab.vrf bd

/-- The bridge domain and VRF of a frame (R120, R121): fixed by the metadata, or from the PORT entry. -/
def frameBd (s : State) (f : InFrame) (r : PRec) : Nat :=
  match f.fixVrf with
  | some v => v
  | none =>
    let e := if tabBad s Tab.port f.port then 0 else tabGet s Tab.port f.port
    if bit e 16 && decide (0 < pget r PF.vlanCnt) then (bits e 0 16 + pget r PF.tci0 % 4096) % 65536 else bits e 0 16

/-- The label lookup of LSE0 (R125): the hit, and what it does to the stack. -/
def labelLookup (s : State) (r : PRec) : Hit × LabelOp :=
  let lse := pget r (PF.lse 0)
  let i := lse / 4096
  let e := tabGet s Tab.label i
  let res := bits e 23 24
  if tabBad s Tab.label i then (.ecc Tab.label (tabKey Tab.label i), .none)
  else if !tabValid s Tab.label i then (.miss 4, .none)
  else match bits e 1 2 with
    | 0 => (.res res, .swap (bits e 3 20))
    | 1 => (.res res, .popFwd)
    | 2 => if bit lse 8 && pget r PF.l3Type != 0 then (ipHit s (bits res 0 16) r, .popIp) else (.miss 8, .none)
    | _ => (.res res, .popRecirc)

/-- The forwarding lookups of a frame (R120): router MAC test, then label, IP or L2 lookup, and the result resolved. -/
def forwardLookup (s : State) (n : Nat) (f : InFrame) (r : PRec) (bd h : Nat) : FwdRes × State :=
  let v := tabGet s Tab.vrf bd
  let mine := f.fixVrf.isSome || (bit v 56 && pget r PF.dmac == bits v 8 48)
  let l3 := pget r PF.l3Type
  let ip (x : Hit) : FwdRes × State :=
    let (w, s1) := hitFwd s x h
    ({ fwd := w, routed := true, hash := h }, s1)
  if tabBad s Tab.port f.port then ({ fwd := .miss 7, hash := h }, tableEcc s Tab.port (tabKey Tab.port f.port))
  else if tabBad s Tab.vrf bd then ({ fwd := .miss 7, hash := h }, tableEcc s Tab.vrf (tabKey Tab.vrf bd))
  else if mine then
    if pget r PF.mplsCnt ≠ 0 ∧ bit v 59 then
      let (x, op) := labelLookup s r
      match x, op with
      | .res res, .popRecirc => ({ fwd := .recirc (bits res 0 17), label := .popRecirc, hash := h }, s)
      | _, _ =>
        let (w, s1) := hitFwd s x h
        ({ fwd := w, routed := true, label := op, hash := h }, s1)
    else if l3 = 1 ∧ bit v 57 then ip (ipHit s bd r)
    else if l3 = 2 ∧ bit v 58 then ip (ipHit s bd r)
    else ({ fwd := .miss 3, hash := h }, s)
  else
    let (w, s1) := hitFwd s (l2Lookup s n bd (pget r PF.dmac)) h
    ({ fwd := w, hash := h }, s1)

/-- The lookup that the default action FWD_L2 takes (R123): a second miss drops the frame and counts in FTB_MISS_CNT. -/
def fwdL2 (s : State) (n bd : Nat) (r : PRec) (h : Nat) : Fwd × State :=
  match hitFwd s (l2Lookup s n bd (pget r PF.dmac)) h with
  | (.miss k, s1) => (.drop, bump s1 (Reg.FTB_MISS_CNT k))
  | x => x

/-- Is a forwarding outcome a miss: its reason, else 0? -/
def Fwd.missReason : Fwd → Nat
  | .miss k => k
  | _ => 0

/-- FWD_STATUS of the classifier key (Table 5-9) for a frame that was looked up. -/
def Fwd.status : Fwd → Nat
  | .miss _ => 1
  | .flood _ => 2
  | _ => 0

/-! ## The classifier key -/

/-- The 640-bit key of Table 5-9. -/
def classKey (s : State) (f : InFrame) (r : PRec) (bd status : Nat) : Nat :=
  let inner := bit (tabGet s Tab.port f.port) 33 && pget r PF.iL3Type != 0
  let io (a b : Fld) : Nat := pget r (if inner then b else a)
  let w4 := f.sig / 2 ^ 128
  let ids := f.sig / 2 ^ 64 % 2 ^ 64
  let id (k : Nat) : Nat := bits ids (16 * k) 14
  let v (k : Nat) : Nat := bits ids (16 * k + 14) 1
  let tci := pget r PF.tci0
  let fields : List (Nat × Nat × Nat) := [
    (0, 64, f.sig % 2 ^ 64), (64, 14, id 0), (78, 14, id 1), (92, 14, id 2), (106, 14, id 3),
    (120, 4, v 0 + 2 * v 1 + 4 * v 2 + 8 * v 3), (124, 3, bits w4 10 3), (127, 1, bits w4 15 1),
    (128, 128, io PF.sip PF.iSip), (256, 128, io PF.dip PF.iDip), (384, 16, io PF.l4Sport PF.iL4Sport),
    (400, 16, io PF.l4Dport PF.iL4Dport), (416, 8, io PF.ipProto PF.iIpProto), (424, 6, io PF.dscp PF.iDscp),
    (430, 2, io PF.ecn PF.iEcn), (432, 8, io PF.ttl PF.iTtl), (440, 8, io PF.tcpFlags PF.iTcpFlags), (448, 16, bd),
    (464, 8, f.port), (472, 2, io PF.l3Type PF.iL3Type), (474, 3, io PF.l4Type PF.iL4Type), (477, 2, pget r PF.frag),
    (479, 1, pget r PF.fragNofirst), (480, 1, pget r PF.fail), (481, 6, pget r PF.failCode), (487, 4, pget r PF.endCode),
    (491, 3, pget r PF.tunType), (494, 24, pget r PF.tunId % 2 ^ 24), (518, 12, tci % 4096), (530, 3, tci / 8192),
    (533, 16, pget r PF.etype), (549, 16, pget r PF.pppoeSid), (565, 20, pget r (PF.lse 0) / 4096), (585, 3, status),
    (588, 8, vrfOwner s bd), (596, 32, f.carried % 2 ^ 32), (628, 1, b2n inner), (629, 1, bits w4 21 1)]
  fields.foldl (fun a e => a + e.2.2 % 2 ^ e.2.1 * 2 ^ e.1) 0

/-! ## The fragment table -/

/-- The protocol of the fragment key (R87): the IPv4 protocol field, or the next-header field of the IPv6 Fragment header. -/
def fragProto (b : Bytes) (r : PRec) : Nat :=
  if pget r PF.l3Type = 1 then byteAt b (pget r PF.offL3 + 9) else byteAt b (pget r PF.offFragh)

/-- The 40 bytes of the fragment key (R87), as a number; the set is their CRC-32C modulo 1,024. -/
def fragKey (vrf : Nat) (b : Bytes) (r : PRec) : Bytes :=
  [if pget r PF.l3Type = 1 then 4 else 6] ++ leBytes 2 vrf ++ leBytes 1 (fragProto b r) ++ leBytes 4 (pget r PF.fragId)
    ++ leBytes 16 (pget r PF.sip) ++ leBytes 16 (pget r PF.dip)

/-- The set of a key in pipeline n. -/
def fragSet (n : Nat) (k : Bytes) : Nat := n * 1024 + crc32c k % 1024

/-- PRS_FRAG_STAT follows the table (Table 3-17). -/
def fragStat (s : State) (n : Nat) : State :=
  let used := ((s.ing.frag.filter (fun e => e.1 / 1024 == n)).map (fun e => e.2.length)).sum
  setPeak s (Reg.PRS_FRAG_STAT_OCCUPANCY n) (Reg.PRS_FRAG_STAT_PEAK n) used

/-- Replaces the entries of a set. -/
def fragPut (s : State) (n set : Nat) (l : List FragEnt) : State :=
  fragStat { s with ing := { s.ing with frag := mput [] s.ing.frag set l } } n

/-- The entries of a set but those of a key. -/
def fragOthers (s : State) (set : Nat) (k : Nat) : List FragEnt := (mget [] s.ing.frag set).filter (fun e => e.key != k)

/-- The entry of a key. -/
def fragFind (s : State) (set : Nat) (k : Nat) : Option FragEnt := (mget [] s.ing.frag set).find? (fun e => e.key == k)

/-- CD38 ticks of a millisecond. -/
def msTicks : Nat := 200000

/-- The age at which an entry is removed, in ticks (R92, Table 3-13). -/
def fragAge (s : State) : Nat := max 1 (getF s Reg.PRS_FRAG_CFG_AGE_MS) * msTicks

/-- Is a fragment that hit the entry of a set and key between the lookup and its action stage (R92)? -/
def fragInUse (s : State) (n set key : Nat) : Bool :=
  (mget [] s.ing.looked n).any (fun c => c.frag == .waits set key || c.frag == .hits set key)

/-- FRAG_ENTRY_AGE (R92): the i-th entry of set `set` of pipeline n is removed once its age is reached and no fragment that hit it waits for its action stage. -/
def fragEntryAge (n : Fin 20) (set : Fin 1024) (i : Fin 4) (s : State) : State :=
  let k := n.val * 1024 + set.val
  let l := mget [] s.ing.frag k
  match l[i.val]? with
  | some e =>
    if s.tick < e.at_ + fragAge s || fragInUse s n k e.key then s
    else bump (fragPut s n k (l.eraseIdx i)) (Reg.PRS_FRAG_CNT n 5)
  | none => s

/-- The command whose effect is `fragEntryAge`. -/
def execFragEntryAge (n : Fin 20) (set : Fin 1024) (i : Fin 4) (s : State) : Out := .next (fragEntryAge n set i s)

/-- Empties the fragment table of pipeline n, with nothing counted as aged (R93). -/
def fragEmpty (s : State) (n : Nat) : State := fragStat { s with ing := { s.ing with frag := s.ing.frag.filter (fun e => e.1 / 1024 != n) } } n

/-- FRAG_FLUSH (R93): a write of PRS_FRAG_CTL.FLUSH. -/
def fragFlush (n : Fin 20) (s : State) : State := operWrite s (Reg.PRS_FRAG_CTL n) 1 (fun s => fragEmpty s n)

/-- The command whose effect is `fragFlush`. -/
def execFragFlush (n : Fin 20) (s : State) : Out := .next (fragFlush n s)

end Sys2Proof.Machine
end

