-- ==== Sys2Proof/Machine/Edits.lean ====
section
/-! DEFINITION. Changes of a frame's bytes: TTL and ECN with the IPv4 checksum (Tables 6-5 and 6-8), label operations (R125), decapsulation, and the edits
of an edit entry and its template (R175, R176). -/

namespace Sys2Proof.Machine

/-! ## Where the headers are -/

/-- The profile with which an egress pipeline finds the outer headers of a frame: every header kind, the reset UDP ports, no checksum check.
DESIGN CHOICE: the frame header of Table 7-2 carries no offsets. -/
def anyProf : Prof := { num := 0, hdr := 0xBFFF, vxlan := 4789, geneve := 6081, mplsPay := 1, innerFail := true }

/-- The parse record by which edits find headers. -/
def headers (b : Bytes) : PRec := (parse b anyProf 0).record

/-- The local port whose PORT entry names a system port, none where no port of this card does. -/
def portOfSys (s : State) (sys : Nat) : Option Nat := (List.range 160).find? (fun p => tabF s Tab.port p 17 16 == sys)

/-- The profiles by which an egress pipeline may read a frame of a source system port: its port's where it is local, then every profile.
DESIGN CHOICE: Table 7-2 carries no profile. -/
def egressProfs (s : State) (srcSys : Nat) : List Prof :=
  (match portOfSys s srcSys with | some p => [profOf s p] | none => []) ++ (List.range 16).map (profNum s)

/-- The parse record by which an egress pipeline decapsulates and hashes a frame: that of the first profile by which it finds what DECAP removes, a tunnel (1) or
a control word (2), else that of the first profile. -/
def egressRecord (s : State) (srcSys decap : Nat) (b : Bytes) : PRec :=
  let port := (portOfSys s srcSys).getD (Config.ecmpPort srcSys % 256)
  let l := (egressProfs s srcSys).map (fun x => (parse b x port).record)
  let finds (r : PRec) : Bool := if decap = 2 then pget r PF.tunType == 5 else pget r PF.tunType != 0
  (l.find? (fun r => decap != 0 && finds r)).getD (l.headD 0)

/-- Replaces the `n` bytes at offset `o` by others of any length. -/
def splice (b : Bytes) (o n : Nat) (v : Bytes) : Bytes := b.take o ++ v ++ b.drop (o + n)

/-! ## IP header fields -/

/-- A 16-bit one's complement sum of two values. -/
def onesAdd (a b : Nat) : Nat := let t := a + b; if 65535 < t then t - 65535 else t

/-- The IPv4 header at offset `o` with the 16-bit word at `o + k` replaced, its checksum updated incrementally. -/
def ipWord (b : Bytes) (o k v : Nat) : Bytes :=
  let old := beAt b (o + k) 2
  let hc := beAt b (o + 10) 2
  let sum := onesAdd (onesAdd (65535 - hc) (65535 - old)) v
  patch (patch b (o + k) (beBytes 2 v)) (o + 10) (beBytes 2 (65535 - sum))

/-- The TTL or hop limit of the IP header at `o`. -/
def ipTtl (b : Bytes) (o : Nat) (v6 : Bool) : Nat := byteAt b (o + (if v6 then 7 else 8))

/-- The IP header at `o` with another TTL or hop limit. -/
def setIpTtl (b : Bytes) (o : Nat) (v6 : Bool) (ttl : Nat) : Bytes :=
  if v6 then patch b (o + 7) [byteOf ttl] else ipWord b o 8 (ttl % 256 * 256 + byteAt b (o + 9))

/-- The outermost IP header with its TTL or hop limit one lower (Table 6-5). -/
def decIpTtl (b : Bytes) (r : PRec) : Bytes :=
  let o := pget r PF.offL3
  let v6 := pget r PF.l3Type == 2
  if pget r PF.l3Type = 0 then b else setIpTtl b o v6 (ipTtl b o v6 + 255)

/-- The outermost IP header with its ECN field 11. -/
def setCe (b : Bytes) (r : PRec) : Bytes :=
  let o := pget r PF.offL3
  if pget r PF.l3Type = 0 then b
  else if pget r PF.l3Type = 2 then patch b (o + 1) [byteOf (Nat.lor (byteAt b (o + 1)) 0x30)]
  else ipWord b o 0 (Nat.lor (beAt b o 2) 3)

/-! ## Label stack -/

/-- The offset of the IP header that the pop of LSE0 exposes, if any, and whether it is IPv6. -/
def popExposesIp (r : PRec) : Option (Nat × Bool) :=
  if bit (pget r (PF.lse 0)) 8 && pget r PF.l3Type != 0 then some (pget r PF.offL3, pget r PF.l3Type == 2) else none

/-- The TTL that the pop of LSE0 exposes: of the next label, or of the IP header. -/
def popTtl (b : Bytes) (r : PRec) : Option Nat :=
  if !bit (pget r (PF.lse 0)) 8 then some (byteAt b (pget r PF.offMpls + 7))
  else (popExposesIp r).map (fun x => ipTtl b x.1 x.2)

/-- The frame without LSE0: the EtherType before the stack becomes that of an exposed IP header. -/
def popLabel (b : Bytes) (r : PRec) : Bytes :=
  let o := pget r PF.offMpls
  let b1 := match popExposesIp r with
    | some (_, v6) => patch b (o - 2) (beBytes 2 (if v6 then 0x86DD else 0x0800))
    | none => b
  splice b1 o 4 []

/-- The frame without LSE0, the exposed TTL as Table 6-5 gives it: the popped TTL less 1 when uniform, else its own less 1. -/
def popForward (b : Bytes) (r : PRec) (keep pipe : Bool) : Bytes :=
  let popped := pget r (PF.lse 0) % 256
  let new (own : Nat) : Nat := if pipe then own + 255 else popped + 255
  let b1 := if keep then b
    else if !bit (pget r (PF.lse 0)) 8 then
      let o := pget r PF.offMpls + 7
      patch b o [byteOf (new (byteAt b o))]
    else match popExposesIp r with
      | some (o, v6) => setIpTtl b o v6 (new (ipTtl b o v6))
      | none => b
  popLabel b1 r

/-- The frame with LSE0 replaced (R125): the new label, TC and S kept, TTL one lower unless kept. -/
def swapLabel (b : Bytes) (r : PRec) (label : Nat) (keep : Bool) : Bytes :=
  let lse := pget r (PF.lse 0)
  let ttl := if keep then lse % 256 else (lse + 255) % 256
  patch b (pget r PF.offMpls) (beBytes 4 (label % 2 ^ 20 * 4096 + lse / 256 % 16 * 256 + ttl))

/-! ## Decapsulation -/

/-- An Ethernet header of the frame's own addresses before other bytes. -/
def underEth (b : Bytes) (etype : Nat) (rest : Bytes) : Bytes := slice b 0 12 ++ beBytes 2 etype ++ rest

/-- Bytes that begin with an IP header, below the frame's own Ethernet addresses. -/
def underIp (b rest : Bytes) : Bytes := underEth b (if byteAt rest 0 / 16 = 6 then 0x86DD else 0x0800) rest

/-- Decapsulation (Table 6-2, DECAP): 1 removes the outer headers through the tunnel header, 2 through the label stack and control word. An inner packet with
no Ethernet header keeps the frame's outer addresses. DESIGN CHOICE: the spec names no header for such a packet. -/
def decapsulate (b : Bytes) (r : PRec) (k : Nat) : Bytes :=
  let l2i := pget r PF.offL2i
  let l3i := pget r PF.offL3i
  let fin := pget r PF.offEnd
  let tun := pget r PF.tunType
  let o := pget r PF.offTun
  if k = 1 then
    if tun = 0 then b
    else if tun = 5 then b.drop (o + 4)
    else if l2i ≠ noOff then b.drop l2i
    else if l3i ≠ noOff then underIp b (b.drop l3i)
    else if tun = 4 then underIp b (b.drop o)
    else if tun = 1 ∨ beAt b (o + 2) 2 = 0x6558 then b.drop fin
    else underEth b (beAt b (o + 2) 2) (b.drop fin)
  else if k = 2 then
    if pget r PF.mplsCnt = 0 then b
    else if tun = 5 then b.drop (o + 4)
    else underIp b (b.drop (pget r PF.offMpls + 4 * pget r PF.mplsCnt))
  else b

/-! ## Edit entries -/

/-- VLAN_OP (Table 6-8 step 4): 0 keeps the tags, 1 removes them, 2 and 3 write one or two; PCP from the class, DEI 0. -/
def editTags (b : Bytes) (r : PRec) (e cls : Nat) : Bytes :=
  let tag (s : Bool) (vid : Nat) : Bytes := beBytes 2 (if s then 0x88A8 else 0x8100) ++ beBytes 2 (cls * 8192 + vid)
  let t0 := tag (bit e 67) (bits e 68 12)
  let t1 := tag false (bits e 80 12)
  let n := 4 * pget r PF.vlanCnt
  match bits e 65 2 with
  | 0 => b
  | 1 => splice b 12 n []
  | 2 => splice b 12 n t0
  | _ => splice b 12 n (t0 ++ t1)

/-- The TTL of pushed labels (Table 6-5): PUSH_TTL in pipe mode, else the TTL of what they cover. -/
def pushTtl (s : State) (b : Bytes) (r : PRec) : Nat :=
  if flag s Reg.ACT_TTL_CFG_MPLS_MODE then getF s Reg.ACT_TTL_CFG_PUSH_TTL
  else if pget r PF.mplsCnt ≠ 0 then byteAt b (pget r PF.offMpls + 3)
  else if pget r PF.l3Type ≠ 0 then ipTtl b (pget r PF.offL3) (pget r PF.l3Type == 2)
  else getF s Reg.ACT_TTL_CFG_PUSH_TTL

/-- Pushes PUSH_CNT labels (Table 6-8 step 5): LABEL0 on top, TC from the class, S on the last one above no other label. -/
def editLabels (s : State) (b : Bytes) (e cls : Nat) : Bytes :=
  let n := bits e 92 3
  if n = 0 then b
  else
    let r := headers b
    let had := pget r PF.mplsCnt != 0
    let o := 12 + 4 * pget r PF.vlanCnt
    let ttl := pushTtl s b r
    let lse (i : Nat) : Bytes := beBytes 4 (bits e (95 + 20 * i) 20 * 4096 + cls * 512 + b2n (!had && i + 1 == n) * 256 + ttl)
    splice b o 2 (beBytes 2 0x8847 ++ (List.range n).flatMap lse)

/-- The one's complement checksum over bytes padded to an even length. -/
def inetSum (b : Bytes) : Nat := onesSum b

/-- The UDP checksum over IPv6 (RFC 8200): pseudo header, UDP header and payload; 0 is sent as 0xFFFF. -/
def udp6Sum (ip udp : Bytes) : Nat :=
  let c := 65535 - inetSum (slice ip 8 32 ++ beBytes 4 udp.length ++ [0, 0, 0, 17] ++ udp)
  if c = 0 then 65535 else c

/-- A template's header bytes filled in around a payload (R175): VNI or GRE key, total or payload length, IPv4 checksum, UDP length and source port. -/
def fillTemplate (t : Bytes) (encap vni sport : Nat) (payload : Bytes) : Bytes :=
  let v6 := byteAt t 0 / 16 == 6
  let hl := if v6 then 40 else byteAt t 0 % 16 * 4
  let udp := encap == 1 || encap == 2
  let total := t.length + payload.length
  let t1 := if udp then patch t (hl + 12) (beBytes 3 vni)
    else if encap = 3 ∧ bit (byteAt t hl) 5 then patch t (hl + 4 + (if bit (byteAt t hl) 7 then 4 else 0)) (beBytes 4 vni)
    else t
  let t2 := if udp then patch (patch t1 hl (beBytes 2 sport)) (hl + 4) (beBytes 2 (total - hl) ++ [0, 0]) else t1
  let t3 := if v6 then patch t2 4 (beBytes 2 (total - 40))
    else
      let a := patch (patch t2 2 (beBytes 2 total)) 10 [0, 0]
      patch a 10 (beBytes 2 (65535 - inetSum (slice a 0 hl)))
  if udp && v6 then
    let c := udp6Sum (slice t3 0 40) ((t3 ++ payload).drop 40)
    patch t3 46 (beBytes 2 c) ++ payload
  else t3 ++ payload

/-- The ECN field of a frame's outermost IP header, none without one. -/
def ecnOf (b : Bytes) (r : PRec) : Option Nat :=
  match pget r PF.l3Type with
  | 0 => none
  | 2 => some (byteAt b (pget r PF.offL3 + 1) / 16 % 4)
  | _ => some (byteAt b (pget r PF.offL3 + 1) % 4)

/-- A template's IP header with another ECN field. -/
def templateEcn (t : Bytes) (e : Nat) : Bytes :=
  if byteAt t 0 / 16 = 6 then patch t 1 [byteOf (withBits (byteAt t 1) 4 2 e)] else patch t 1 [byteOf (withBits (byteAt t 1) 0 2 e)]

/-- Encapsulation from the template (Table 6-8 step 6): VXLAN and GENEVE carry the whole frame, GRE what its protocol type says, SRv6 the IP packet. The
outer header takes the ECN field of the inner one (R213), and the UDP source port is bits [15:0] of the frame's ECMP hash (R175). -/
def editEncap (s : State) (b : Bytes) (e hash : Nat) : Bytes :=
  let k := bits e 175 3
  if k = 0 then b
  else
    let r := headers b
    let v := tabRead s Tab.template (bits e 178 16)
    let t0 := leBytes (bits v 8 8) (bits v 64 960)
    let t := match ecnOf b r with | some x => templateEcn t0 x | none => t0
    let v6 := byteAt t 0 / 16 == 6
    let hl := if v6 then 40 else byteAt t 0 % 16 * 4
    let whole := k == 1 || k == 2 || (k == 3 && beAt t (hl + 2) 2 == 0x6558)
    let l2 := 14 + 4 * pget r PF.vlanCnt
    let payload := if whole then b else b.drop l2
    underEth b (if v6 then 0x86DD else 0x0800) (fillTemplate t k (bits e 194 24) (hash % 65536) payload)

/-- The outermost Ethernet addresses (Table 6-8 step 7). -/
def editL2 (s : State) (b : Bytes) (e : Nat) : Bytes :=
  let i := bits e 57 8
  let smac := (rd s (Reg.ACT_SMAC_LO i)).toNat + 2 ^ 32 * getF s (Reg.ACT_SMAC_HI_SMAC_HI i)
  patch b 0 (beBytes 6 (bits e 9 48) ++ beBytes 6 smac)

/-- Steps 4 to 7 of Table 6-8 for an edit entry. -/
def applyEdit (s : State) (b : Bytes) (e cls hash : Nat) : Bytes :=
  editL2 s (editEncap s (editLabels s (editTags b (headers b) e cls) e cls) e hash) e

end Sys2Proof.Machine
end

