-- ==== Sys2Proof/Machine/Scratch.lean ====
section
/-! DEFINITION. Scratch memory (chapter 19): SECDED outcomes, pipeline operations, windows and aliases, the atomic registers, background test and repair. -/

namespace Sys2Proof.Machine

/-! ## Words and their SECDED outcomes -/

/-- The key of word w of memory m. -/
def scrKey (m w : Nat) : Nat := m * 2 ^ 23 + w

/-- The stored data bits of a scratch word. -/
def scrData (s : State) (m w : Nat) : Nat := mget 0 s.scr.words (scrKey m w)

/-- What the SECDED code of a scratch word says. -/
def scrErr (s : State) (m w : Nat) : EccErr := mget .good s.scr.err (scrKey m w)

/-- Stores data bits and the state of their check bits. -/
def scrPut (s : State) (m w v : Nat) (e : EccErr) : State :=
  { s with scr := { s.scr with words := mput 0 s.scr.words (scrKey m w) (v % 2 ^ 64), err := mput .good s.scr.err (scrKey m w) e } }

/-- The location code of a bit of a scratch word (Table 19-1); column 255 is the unknown bit, reported on the even row. -/
def scrLoc (m w col : Nat) : Nat :=
  let odd := b2n (decide (36 ≤ col) && decide (col < 72))
  if m < 20 then
    let i := w / 8
    locCode 0 m 3 (w % 8) (i / 512) (2 * (i % 512) + odd) col
  else
    let i := w / 32
    locCode 0 63 (i / 32768) (w % 32) (i / 512 % 64) (2 * (i % 512) + odd) col

/-- The words of a memory (R506). -/
def scrWords (m : Nat) : Nat := if m < 20 then 65536 else 8388608

/-- A full-word write: fresh check bits, or those of an armed injection (R517, R587). -/
def scrWrite (s : State) (m w v : Nat) : State :=
  let (mask, s1) := injTake s (scrLoc m w 0) 9
  let (d, e) := injOutcome mask (v % 2 ^ 64)
  scrPut s1 m w d e

/-- The last error is captured (Table 19-8). -/
def scrCapture (s : State) (uncorr rmw : Bool) (loc : Nat) : State :=
  let a := setB (setB (setB s Reg.SCR_ERR_STAT_VALID true) Reg.SCR_ERR_STAT_UNCORR uncorr) Reg.SCR_ERR_STAT_RMW rmw
  wrPair a Reg.SCR_ERR_LOC_LO Reg.SCR_ERR_LOC_HI loc

/-- A correctable error: the corrected word is written back, CORR counts and INFO is reported; the second one in a word within
1 s makes its region's test step due at once (R516). -/
def scrCorrect (s : State) (m w col : Nat) (rmw : Bool) : State :=
  let loc := scrLoc m w col
  let s := scrPut s m w (scrData s m w) .good
  let s := report (scrCapture (bump s (Reg.SCR_CNT 0)) false rmw loc) Src.scrCorr loc (b2n rmw * 2 ^ 31 + w)
  let k := scrKey m w
  let again := match mfind s.scr.lastCorr k with
    | some t => decide (s.tick < t + 1000000 * ticksPerUs)
    | none => false
  let due := m * 2 ^ 14 + w / 512
  { s with scr := { s.scr with
      lastCorr := mset s.scr.lastCorr k (some s.tick),
      dueNow := if again && !s.scr.dueNow.contains due then s.scr.dueNow ++ [due] else s.scr.dueNow } }

/-- An uncorrectable word met by a read: UNCORR counts and DEGRADE is reported with COLUMN all ones; a poisoned one counts
POISON_READ alone (R517, R518). -/
def scrBadRead (s : State) (m w : Nat) (e : EccErr) : State :=
  if e = .poison then bump s (Reg.SCR_CNT 3)
  else report (scrCapture (bump s (Reg.SCR_CNT 1)) true false (scrLoc m w 255)) Src.scrUncorr (scrLoc m w 255) w

/-- A read of a scratch word: the data bits, whether the word is uncorrectable, and what the read does (R516, R517). -/
def scrRead (s : State) (m w : Nat) : Nat × Bool × State :=
  let v := scrData s m w
  match scrErr s m w with
  | .good => (v, false, s)
  | .single c => (v, false, scrCorrect s m w c false)
  | e => (v, true, scrBadRead s m w e)

/-- An atomic read-modify-write: the old data bits, whether the word was uncorrectable, and the state after it. A bad word
is written with poison (R517, R518). -/
def scrRmw (s : State) (m w : Nat) (f : Nat → Nat) : Nat × Bool × State :=
  let v := scrData s m w
  match scrErr s m w with
  | .good => (v, false, scrPut s m w (f v) .good)
  | .single c => (v, false, scrPut (scrCorrect s m w c true) m w (f v) .good)
  | .poison => (v, true, scrPut s m w (f v) .poison)
  | .uncorr =>
    let s1 := scrCapture (bump (scrPut s m w (f v) .poison) (Reg.SCR_CNT 2)) true true (scrLoc m w 255)
    (v, true, report s1 Src.scrUncorr (scrLoc m w 255) (2 ^ 31 + w))

/-- The state after a read-modify-write whose old value nobody takes. -/
def scrModify (s : State) (m w : Nat) (f : Nat → Nat) : State := (scrRmw s m w f).2.2

/-! ## Pipeline operations -/

/-- What the pass of a frame offers to a scratch operation (R508). -/
structure ScrIn where
  hash : Nat
  port : Nat
  vrf : Nat
  len : Nat
  rxSec : Nat
  rxNs : Nat
  deriving DecidableEq, Repr

/-- Bits set, or bits cleared, in a word. -/
def maskWord (set : Bool) (mask v : Nat) : Nat := if set then Nat.lor v mask else v - Nat.land v mask

/-- The scratch operation of a pass with action entry `a` in pipeline `n` (R508, R511): ADD and SWAP act on PSn, SET and
CLEAR join the pipeline's queue of 256. -/
def scrPipeOp (s : State) (n a : Nat) (x : ScrIn) : State :=
  let base := getF s Reg.SCR_PIPE_CFG_ACT_BASE
  let k := a - base
  if !flag s Reg.SCR_PIPE_CFG_EN || decide (a < base) || decide (255 < k) || !flag s (Reg.SCR_OP_CFG_VALID k) then s
  else
    let sel := getF s (Reg.SCR_OP_CFG_INDEX_SEL k)
    let idx := match sel with | 0 => 0 | 1 => x.hash | 2 => x.port | _ => x.vrf
    let i := idx % 2 ^ getF s (Reg.SCR_OP_CFG_SPAN_LOG2 k)
    let b := getF s (Reg.SCR_OP_BASE_BASE k)
    let c := getF s (Reg.SCR_OP_CONST_CONST k)
    let op := getF s (Reg.SCR_OP_CFG_OP k)
    if op < 2 then
      let v := match getF s (Reg.SCR_OP_CFG_OPERAND k) with
        | 0 => ofSigned 64 (signed 32 c)
        | 1 => x.len
        | _ => x.rxSec % 2 ^ 32 * 2 ^ 32 + x.rxNs
      let s1 := bump s (Reg.SCR_CNT 9)
      if op = 0 then scrModify s1 n (b + i) (fun o => (o + v) % 2 ^ 64) else scrWrite s1 n (b + i) v
    else
      let q := mget [] s.scr.queue n
      if 256 ≤ q.length then bump s (Reg.SCR_CNT 7)
      else
        let mask := if sel = 0 then c else 2 ^ (i % 64)
        let o : ShOp := { set := op == 2, word := b + i / 64, mask := mask }
        bump { s with scr := { s.scr with queue := mput [] s.scr.queue n (q ++ [o]) } } (Reg.SCR_CNT 9)

/-- The first pipeline, from `at_` in ascending order around the 20, whose queue's head names a bank (R511). -/
def shrPick (s : State) (bank at_ : Nat) : Nat → Option (Nat × ShOp)
  | 0 => none
  | k + 1 =>
    let n := (at_ + 19 - k) % 20
    match mget [] s.scr.queue n with
    | o :: _ => if o.word % 32 = bank then some (n, o) else shrPick s bank at_ k
    | [] => shrPick s bank at_ k

/-- SHARED_SCRATCH_OP (R511): a bank of the shared scratch serves the next head that names it. -/
def sharedScratchOp (bank : Fin 32) (s : State) : State :=
  match shrPick s bank (mget 0 s.scr.bankAt bank) 20 with
  | none => s
  | some (n, o) =>
    let c := { s.scr with queue := mput [] s.scr.queue n (mget [] s.scr.queue n).tail,
                          bankAt := mput 0 s.scr.bankAt bank ((n + 1) % 20) }
    scrModify { s with scr := c } 20 o.word (maskWord o.set o.mask)

/-- The command whose effect is `sharedScratchOp`. -/
def execSharedScratchOp (bank : Fin 32) (s : State) : Out := .next (sharedScratchOp bank s)

/-! ## Windows and aliases -/

/-- The memory and word that a window or alias offset names (Table 19-3); none where PWIN_PS names no scratchpad. -/
def scrTarget (s : State) (addr : Nat) : Option (Nat × Nat) :=
  if addr < 0x1840000 then
    let p := getF s Reg.SCR_WIN_PWIN_PS
    if p < 20 then some (p, (getF s Reg.SCR_WIN_PWIN_OFF * 131072 + (addr - 0x1820000)) / 8) else none
  else some (20, (getF s Reg.SCR_WIN_SWIN * 262144 + addr % 262144) / 8)

/-- Does the offset name the high half of its word? -/
def highHalf (addr : Nat) : Bool := addr / 4 % 2 == 1

/-- A word with one half replaced. -/
def withHalf (hi : Bool) (v old : Nat) : Nat := if hi then old % 2 ^ 32 + v * 2 ^ 32 else old / 2 ^ 32 * 2 ^ 32 + v

/-- Is scratchpad m held at VRET (R523)? The shared scratch belongs to no slice. -/
def scrAsleep (s : State) (m : Nat) : Bool := decide (m < 20) && (getF s (Reg.PWR_SLICE_STAT_STATE m) == 4 || getF s (Reg.PWR_SLICE_STAT_STATE m) == 5)

/-- A partial write: an atomic read-modify-write that counts HALF_WRITE; dropped and logged while the pad sleeps (R513, R523). -/
def scrHalfWrite (s : State) (addr m w : Nat) (hi : Bool) (v : Nat) : State :=
  if scrAsleep s m then pwfTarget s addr v
  else bump (scrModify s m w (withHalf hi (v % 2 ^ 32))) (Reg.SCR_CNT 8)

/-- A low half still held is written as a partial write before any other access (R513). -/
def scrFlushHeld (s : State) : State :=
  match s.scr.held with
  | none => s
  | some h => scrHalfWrite { s with scr := { s.scr with held := none } } h.addr h.mem h.word false h.low

/-- SCR_WINDOW_WRITE (R513): a write through a normal window. -/
def scrWindowWrite (addr v : Nat) (s : State) : State :=
  operWrite s addr v (fun s =>
    match scrTarget s addr with
    | none => pwfD (scrFlushHeld s) 0 0 addr v .unassigned 0
    | some (m, w) =>
      let own := match s.scr.held with
        | some h => if highHalf addr && h.mem == m && h.word == w then some h.low else none
        | none => none
      match own with
      | some low =>
        let s1 := { s with scr := { s.scr with held := none } }
        if scrAsleep s m then pwfTarget s1 addr v else scrWrite s1 m w (low + v % 2 ^ 32 * 2 ^ 32)
      | none =>
        let s1 := scrFlushHeld s
        if scrAsleep s1 m then pwfTarget s1 addr v
        else if highHalf addr then scrHalfWrite s1 addr m w true v
        else { s1 with scr := { s1.scr with held := some { addr := addr, mem := m, word := w, low := v % 2 ^ 32 } } })

/-- The command whose effect is `scrWindowWrite`. -/
def execScrWindowWrite (addr v : Nat) (s : State) : Out := .next (scrWindowWrite addr v s)

/-- A window read (R513, R523): a low half latches the high half, and the next read of the high half returns the latched value. -/
def scrWindowRead (s : State) (addr : Nat) : Nat × State :=
  match scrTarget s addr with
  | none => (0, s)
  | some (m, w) =>
    let s := scrFlushHeld s
    if scrAsleep s m then (0, s)
    else
      let latched := match s.scr.latch with
        | some (j, x, v) => if highHalf addr && j == m && x == w then some v else none
        | none => none
      match latched with
      | some v => (v, { s with scr := { s.scr with latch := none } })
      | none =>
        let (v, _, s1) := scrRead s m w
        if highHalf addr then (v / 2 ^ 32, s1)
        else (v % 2 ^ 32, { s1 with scr := { s1.scr with latch := some (m, w, v / 2 ^ 32) } })

/-- What a read through an alias returns: what the normal window would return there, without side effects (R514). -/
def scrAliasRead (s : State) (addr : Nat) : Nat := (scrWindowRead s addr).1

/-- A write of SCR_WIN: a change of it first writes a held low half (Table 19-6). -/
def scrWinWrite (s : State) (v : Nat) : State :=
  wr (if v % 2 ^ 15 = (rd s Reg.SCR_WIN).toNat then s else scrFlushHeld s) Reg.SCR_WIN (Word.ofNat (v % 2 ^ 15))

/-- A write through the set or the clear alias: an atomic read-modify-write of the addressed half (R514). -/
def scrAlias (set : Bool) (addr v : Nat) (s : State) : State :=
  operWrite s addr v (fun s =>
    match scrTarget s addr with
    | none => s
    | some (m, w) =>
      scrModify (scrFlushHeld s) m w (maskWord set (v % 2 ^ 32 * (if highHalf addr then 2 ^ 32 else 1))))

/-- SCR_ALIAS_SET (R514). -/
def scrAliasSet (addr v : Nat) (s : State) : State := scrAlias true addr v s

/-- The command whose effect is `scrAliasSet`. -/
def execScrAliasSet (addr v : Nat) (s : State) : Out := .next (scrAliasSet addr v s)

/-- SCR_ALIAS_CLEAR (R514). -/
def scrAliasClear (addr v : Nat) (s : State) : State := scrAlias false addr v s

/-- The command whose effect is `scrAliasClear`. -/
def execScrAliasClear (addr v : Nat) (s : State) : Out := .next (scrAliasClear addr v s)

/-! ## The atomic registers -/

/-- GO with OP (R515, R523) in the word v: the operation on the word that SCR_ATOM_ADDR names, with the old value and the STATUS it leaves. -/
def scrAtomic (v : Nat) (act : State → Nat → Nat → Nat → Nat × Bool × State) (s : State) : State :=
  operWrite s Reg.SCR_ATOM_CTL v (fun s =>
    if flag s Reg.SCR_ATOM_STAT_BUSY then pwfTarget s Reg.SCR_ATOM_CTL v
    else
      let s := setF (scrFlushHeld s) Reg.SCR_ATOM_CTL_OP (bits v 1 1)
      let m := getF s Reg.SCR_ATOM_ADDR_PS
      if 20 ≤ m then setF s Reg.SCR_ATOM_STAT_STATUS 3
      else if scrAsleep s m then setF (pwfTarget s Reg.SCR_ATOM_CTL v) Reg.SCR_ATOM_STAT_STATUS 2
      else
        let (old, bad, s1) := act s m (getF s Reg.SCR_ATOM_ADDR_WORD) (rdPair s Reg.SCR_ATOM_OPND_LO Reg.SCR_ATOM_OPND_HI)
        setF (wrPair s1 Reg.SCR_ATOM_RES_LO Reg.SCR_ATOM_RES_HI old) Reg.SCR_ATOM_STAT_STATUS (b2n bad))

/-- What ADD does at the memory (R515). -/
def atomAdd (s : State) (m w o : Nat) : Nat × Bool × State := scrRmw s m w (fun v => (v + o) % 2 ^ 64)

/-- What SWAP does at the memory (R515, R517): the old word is read, and the operand is written as a full word. -/
def atomSwap (s : State) (m w o : Nat) : Nat × Bool × State :=
  let (v, bad, s1) := scrRead s m w
  (v, bad, scrWrite s1 m w o)

/-- A write of SCR_ATOM_CTL with GO = 1. -/
def scrAtomGo (v : Nat) (s : State) : State := scrAtomic v (if bit v 1 then atomSwap else atomAdd) s

/-- SCR_ATOMIC_ADD (R515). -/
def execScrAtomicAdd (s : State) : Out := .next (scrAtomGo 1 s)

/-- SCR_ATOMIC_SWAP (R515). -/
def execScrAtomicSwap (s : State) : Out := .next (scrAtomGo 3 s)

/-! ## Background test and repair -/

/-- A failing word is repaired from the spares of its macro, or stays in use when none is left (R521). -/
def scrRepair (s0 : State) (m w : Nat) : State :=
  let s := memTestFailed s0
  let loc := scrLoc m w 255
  let mac := loc / 2 ^ 20
  let used := mget 0 s.scr.spares mac
  if used < 8 then
    report (bump { s with scr := { s.scr with spares := mput 0 s.scr.spares mac (used + 1) } } (Reg.SCR_CNT 5)) Src.scrTestFail loc w
  else report (bump { s with scr := { s.scr with full := true } } (Reg.SCR_CNT 6)) Src.scrRepairFull loc w

/-- One word of a test step: its error is handled as it is copied, and it is repaired when it fails March C- or holds an
uncorrectable error outside poison (R520, R521). -/
def scrTestWord (m : Nat) (fails : List Nat) (s : State) (w : Nat) : State :=
  let e := scrErr s m w
  let s1 := match e with
    | .good => s
    | .single c => scrCorrect s m w c false
    | _ => scrBadRead s m w e
  if e = .uncorr ∨ w ∈ fails then scrRepair s1 m w else s1

/-- The words of a region that the step acts on: those listed with an error and those that fail. -/
def scrTestWords (s : State) (m r : Nat) (fails : List Nat) : List Nat :=
  (List.range 512).filterMap (fun i =>
    let w := r * 512 + i
    if scrErr s m w = .good ∧ w ∉ fails then none else some w)

/-- The test interval of the card's role; 0 stops testing (R519). -/
def scrInterval (s : State) : Nat :=
  if role s < 2 then getF s Reg.SCR_BGT_CFG_RUN_US else getF s Reg.SCR_BGT_CFG_STBY_US

/-- SCR_TEST_STEP (R519 to R521): memory m tests its next region, or one made due at once; `fails` are the words of the memory that
fail March C-. -/
def scrTestStep (m : Fin 21) (fails : List Nat) (s : State) : State :=
  if s.top != .run || scrInterval s == 0 || (decide (m.val < 20) && !(getF s (Reg.PWR_SLICE_STAT_STATE m) == 1 || getF s (Reg.PWR_SLICE_STAT_STATE m) == 2 || getF s (Reg.PWR_SLICE_STAT_STATE m) == 6)) then s
  else
    let due := s.scr.dueNow.find? (fun k => k / 2 ^ 14 == m.val)
    let r := match due with | some k => k % 2 ^ 14 | none => mget 0 s.scr.region m
    let c := match due with
      | some k => { s.scr with dueNow := s.scr.dueNow.erase k }
      | none => { s.scr with region := mput 0 s.scr.region m ((r + 1) % (scrWords m / 512)) }
    let s1 := (scrTestWords s m r fails).foldl (scrTestWord m fails) { s with scr := c }
    let s2 := setF (setF s1 Reg.SCR_TEST_STAT_MEM m) Reg.SCR_TEST_STAT_REGION r
    bump s2 (Reg.SCR_CNT 4)

/-- The command whose effect is `scrTestStep`. -/
def execScrTestStep (m : Fin 21) (fails : List Nat) (s : State) : Out := .next (scrTestStep m fails s)

/-- At every start the firmware writes 0 with valid check bits to every word (R522); repairs stay (R521). -/
def scrInit (s : State) : State := { s with scr := { s.scr with words := [], err := [], held := none, latch := none } }

end Sys2Proof.Machine
end

