-- ==== Sys2Proof/Machine/Action.lean ====
section
/-! DEFINITION. The action stage and a whole pass of an ingress pipeline (R82 to R91, R120, R141, R154 to R168, R173), policers (R157 to R159), the
recirculation slot (R162), and the host block (R494). -/

namespace Sys2Proof.Machine

/-! ## The host block -/

/-- What the host block of a frame tells (Table 18-8). -/
structure Block where
  parsed : PRec := 0
  sig : Nat := 0
  meta_ : Nat := 0
  rx : Ptp := {}
  reason : Nat := 0
  tenant : Nat := 0
  vrf : Nat := 0
  action : Nat := 0
  sample : Bool := false
  dropped : Bool := false
  trunc : Bool := false
  noMeta : Bool := false
  pipe : Nat := 0
  len : Nat := 0
  miss : Nat := 0
  node : Nat := 0
  deriving DecidableEq, Repr

/-- The 256 bytes of a host block. -/
def Block.bytes (b : Block) : Bytes :=
  leBytes 192 b.parsed ++ leBytes 20 b.sig ++ leBytes 8 b.meta_ ++ leBytes 4 b.rx.ns ++ leBytes 4 b.rx.sec
    ++ leBytes 4 (b.rx.sec / 2 ^ 32 % 65536 + b.rx.frac / 2 ^ 24 % 256 * 65536)
    ++ leBytes 4 (b.reason % 256 + b.tenant % 256 * 256 + b.vrf % 65536 * 65536)
    ++ leBytes 4 (b.action % 2 ^ 18 + b2n b.sample * 2 ^ 18 + b2n b.dropped * 2 ^ 19 + b2n b.trunc * 2 ^ 20 + b2n b.noMeta * 2 ^ 21 + b.pipe % 32 * 2 ^ 22)
    ++ leBytes 4 (b.len % 2 ^ 14 + b.miss % 16 * 65536) ++ leBytes 4 (b.node % 65536) ++ List.replicate 8 0

/-- The stored bytes of a frame sent to the host: its block, then the frame cut at 16,112 bytes (R495). -/
def hostStored (b : Block) (frame : Bytes) : Bytes :=
  { b with trunc := decide (16112 < frame.length) }.bytes ++ frame.take 16112

/-- The header of a frame sent to the host (R495). -/
def hostHdr (cls colour src : Nat) (rx : Ptp) : Hdr := { cls := cls, colour := colour, decap := 3, srcSys := src, rxNs := rx.ns % 2 ^ 29 }

/-- The system port of node 160 of the own card. -/
def hostSys (s : State) : Nat := tabF s Tab.port 160 17 16

/-- SRC_SYS_PORT of the frames of a first-pass port (Table 7-2). -/
def srcSysOf (s : State) (p : Nat) : Nat := if p < 160 then tabF s Tab.port p 17 16 else 0xFFFF

/-! ## Token buckets -/

/-- One frame of a bucket, in parts that one frame per second earns in a CD38 tick. -/
def frameUnits : Nat := 200000000

/-- Takes a frame from a token bucket (R85, R174): it fills at `rate` frames per second, holds the larger of `least` and rate / 100 frames, and is full at
every start. A rate of 0 sends none. -/
def bucketTake (s : State) (key rate least : Nat) : Bool × State :=
  let cap := max (least * frameUnits) (rate * (frameUnits / 100))
  let (lvl, at_) := mget (cap, s.tick) s.ing.bucket key
  let l := min cap (lvl + (s.tick - at_) * rate)
  let ok := decide (0 < rate) && decide (frameUnits ≤ l)
  (ok, { s with ing := { s.ing with bucket := mset s.ing.bucket key (some (if ok then l - frameUnits else l, s.tick)) } })

/-- A frame to the host by FWD_OP = 3, EXPIRE_ACT or MTU_ACT takes from the bucket of pipeline n, or counts TOHOST_EXCESS (R174). -/
def toHostTake (s : State) (n : Nat) : Bool × State :=
  let (ok, s1) := bucketTake s (256 + n) (getF s Reg.ACT_TOHOST_LIM_RATE) 64
  (ok, bumpIf (!ok) s1 (Reg.ACT_CNT n 10))

/-! ## Policers -/

/-- Adds the tokens of the time since the last update (R157): srTCM fills the excess bucket from what the committed one cannot hold, trTCM at PIR. -/
def polFill (s : State) (i : Nat) : State :=
  let v := tabGet s Tab.policer i
  let p := tabRead s Tab.polProf (bits v 9 12)
  let now := s.ptp.total % 2 ^ 47
  let d := (now + 2 ^ 47 - bits v 81 47) % 2 ^ 47
  let dt := if 2 ^ 46 ≤ d then 0 else d
  let (r0, r1) := mget (0, 0) s.tab.polRem i
  let cbs := bits p 65 24 * 64
  let ebs := bits p 89 24 * 64
  let a := r0 + bits p 3 31 * dt
  let c := bits v 21 30 + a / 125000
  let trtcm := bit p 1
  let b := if trtcm then r1 + bits p 34 31 * dt else 0
  let e := bits v 51 30 + (if trtcm then b / 125000 else c - cbs)
  let full := decide (cbs ≤ c) && (trtcm || decide (ebs ≤ e))
  let rem : Nat × Nat := (if full then 0 else a % 125000, if ebs ≤ e then 0 else b % 125000)
  let w := withBits (withBits (withBits v 21 30 (min c cbs)) 51 30 (min e ebs)) 81 47 now
  let s1 := tabPut s Tab.policer i w
  { s1 with tab := { s1.tab with polRem := mput (0, 0) s1.tab.polRem i rem } }

/-- What a policer makes of a frame of `b` 1/64 bytes, from the two bucket levels: the colour and the levels left (RFC 2697, RFC 2698). -/
def polColour (trtcm yellow : Bool) (b c e : Nat) : Nat × Nat × Nat :=
  if trtcm then
    if e < b then (2, c, e)
    else if yellow || decide (c < b) then (1, c, e - b)
    else (0, c - b, e - b)
  else if !yellow && decide (b ≤ c) then (0, c - b, e)
  else if b ≤ e then (1, c, e - b)
  else (2, c, e)

/-- Is the profile of policer i unreadable? It then acts as if every field were 0, and is reported (R150, R151). -/
def polEcc (s : State) (i : Nat) : State :=
  let p := tabF s Tab.policer i 9 12
  if tabBad s Tab.polProf p then actionWord s (tabKey Tab.polProf p) else s

/-- Meters a frame of `len` bytes (R157, R159): 0 green, 1 yellow, 2 red. An invalid policer does not meter. -/
def meter (s : State) (i len : Nat) (dei : Bool) : Nat × State :=
  if tabBad s Tab.policer i then (0, tableEcc s Tab.policer (tabKey Tab.policer i))
  else if !tabValid s Tab.policer i then (0, s)
  else
    let s1 := stateDue (polFill (polEcc s i) i) (2 * i)
    let v := tabGet s1 Tab.policer i
    let p := tabRead s1 Tab.polProf (bits v 9 12)
    let (col, c, e) := polColour (bit p 1) (bit p 2 && dei) (len * 64) (bits v 21 30) (bits v 51 30)
    (col, tabPut s1 Tab.policer i (withBits (withBits v 21 30 c) 51 30 e))

/-- POLICER_SWEEP (R157): every policer is brought up to date. -/
def policerSweep (s : State) : State := (tabAll s Tab.policer).foldl (fun a e => polFill a e.1) s

/-- The command whose effect is `policerSweep`. -/
def execPolicerSweep (s : State) : Out := .next (policerSweep s)

/-! ## Step 1: forwarding -/

/-- What the action stage makes of a frame (Table 6-4 step 1). -/
inductive Way where
  | drop
  | host (reason : Nat)
  | out (w : Fwd) (routed : Bool) (label : LabelOp)
  | recirc (arg : Nat) (label : LabelOp)
  deriving DecidableEq, Repr

/-- Did the frame fail in the parser (R82)? -/
def PassCtx.failed (c : PassCtx) : Bool := pget c.r PF.fail == 1

/-- The length of R6 as the frame entered the pass, FCS included. -/
def PassCtx.len (c : PassCtx) : Nat := c.f.bytes.length + 4

/-- A port's default action (Table 3-8): FWD_L2, drop, or the host under the trap limit of R85. -/
def defaultAct (s : State) (c : PassCtx) (act reason : Nat) : Way × State :=
  match act with
  | 0 => match fwdL2 s c.n (frameBd s c.f c.r) c.r c.res.hash with
    | (.drop, s1) => (.drop, s1)
    | (.host r, s1) => (.host r, s1)
    | (w, s1) => (.out w false .none, s1)
  | 2 =>
    let (ok, s1) := bucketTake s c.f.port (getF s (Reg.PRS_TRAP_LIM_TRAP_PPS c.f.port)) 16
    if ok then (.host reason, s1) else (.drop, bump s1 (Reg.PRS_PORT_CNT c.f.port 2))
  | _ => (.drop, s)

/-- The forwarding of a frame whose action entry keeps the lookups' result (R82, R83, R154). -/
def keepWay (s : State) (c : PassCtx) : Way × State :=
  if c.failed then defaultAct s c (getF s (Reg.PRS_PORT_CFG_FAIL_ACT c.f.port)) 0xF0
  else match c.res.fwd with
    | .miss _ => defaultAct s c (getF s (Reg.PRS_PORT_CFG_MISS_ACT c.f.port)) 0xF1
    | .drop => (.drop, s)
    | .host r => (.host r, s)
    | .recirc a => (.recirc a c.res.label, s)
    | w => (.out w c.res.routed c.res.label, s)

/-- The operation FWD_OP of entry `v` (Table 6-3). An NH or ECMP operand that resolves to nothing drops the frame.
DESIGN CHOICE: the spec names no miss for an operand of FWD_OP. A frame that R137 drops is dropped whatever FWD_OP says. -/
def fwdWay (s : State) (c : PassCtx) (v : Nat) : Way × State :=
  let arg := bits v 32 21
  let target (o : Except (Nat × Nat) Fwd) : Way × State := match o with
    | .ok (.nh i) => (.out (.nh i) true .none, s)
    | .ok _ => (.drop, s)
    | .error e => (.drop, tableEcc s e.1 e.2)
  if c.sec && bits v 9 3 != 1 then (.drop, s)
  else match bits v 9 3 with
  | 1 => (.drop, perfTenant s c.tenant 3 1)
  | 2 => (.out (.sys (arg % 65536)) false .none, s)
  | 3 =>
    let (ok, s1) := toHostTake s c.n
    (if ok then .host (bits v 53 8) else .drop, s1)
  | 4 => (.recirc arg .none, s)
  | 5 => target (nhFwd s (arg % 2 ^ 20))
  | 6 => target (ecmpFwd s (arg % 65536) c.res.hash)
  | _ => keepWay s c

/-- The pass limit: a third extra pass drops the frame (R161). -/
def limitWay (s : State) (c : PassCtx) (w : Way) : Way × State :=
  match w with
  | .recirc _ _ => if 2 ≤ c.f.pass then (.drop, bump s (Reg.ACT_CNT c.n 2)) else (w, s)
  | _ => (w, s)

/-! ## Step 2: TTL -/

/-- The headers of a frame that its TTL rules meet: those that DECAP of its entry exposes, since EPn decapsulates before it changes a TTL (Table 6-8). -/
def exposed (s : State) (c : PassCtx) (v : Nat) : PRec :=
  let b := decapsulate c.f.bytes c.r (bits v 181 2)
  if b = c.f.bytes then c.r else (parse b (profOf s c.f.port) c.f.port).record

/-- The TTL that Table 6-5 checks for a routed frame, none where the frame has no such field. -/
def ttlChecked (s : State) (c : PassCtx) (v : Nat) (label : LabelOp) : Option Nat :=
  let lse := pget c.r (PF.lse 0) % 256
  let pop : Option Nat := if flag s Reg.ACT_TTL_CFG_MPLS_MODE then popTtl c.f.bytes c.r else some lse
  match label with
  | .none => let r := exposed s c v; if pget r PF.l3Type = 0 then none else some (pget r PF.ttl)
  | .swap _ => some lse
  | .popFwd => pop
  | .popIp => pop
  | .popRecirc => none

/-- The TTL check (R160). -/
def ttlWay (s : State) (c : PassCtx) (v : Nat) (w : Way) : Way × State :=
  let chk (routed : Bool) (label : LabelOp) : Way × State :=
    match (if routed && !bit v 12 then ttlChecked s c v label else none) with
    | some t =>
      if t ≤ 1 then
        let s1 := bump s (Reg.ACT_CNT c.n 5)
        if flag s Reg.ACT_TTL_CFG_EXPIRE_ACT then
          let (ok, s2) := toHostTake s1 c.n
          (if ok then .host 0xF2 else .drop, s2)
        else (.drop, s1)
      else (w, s)
    | none => (w, s)
  match w with
  | .out _ routed label => chk routed label
  | .host _ => if bits v 9 3 = 0 ∧ c.res.fwd.missReason = 0 ∧ !c.failed then chk c.res.routed c.res.label else (w, s)
  | _ => (w, s)

/-! ## Steps 3 and 4: class and colour -/

/-- The class of a frame (R156). -/
def passClass (s : State) (c : PassCtx) (v : Nat) : Nat :=
  let p := c.f.port
  let dflt := getF s (Reg.ACT_PORT_DEF_PORT_CLASS p)
  let r := c.r
  if bit v 86 then bits v 87 3
  else if c.f.pass ≠ 0 then bits c.f.carried 42 3
  else match getF s (Reg.ACT_PORT_DEF_TRUST p) with
    | 1 => if pget r PF.vlanCnt = 0 then dflt else pget r PF.tci0 / 8192
    | 2 => if pget r PF.l3Type = 0 then dflt else pget r PF.dscp / 8
    | 3 => if pget r PF.mplsCnt = 0 then dflt else pget r (PF.lse 0) / 512 % 8
    | _ => dflt

/-- Policing (R157 to R159): the colour, and whether the frame goes on. -/
def policeWay (s : State) (c : PassCtx) (v : Nat) (w : Way) : Nat × Way × State :=
  let own := if c.f.pass = 0 then 0 else bits c.f.carried 45 2
  match w with
  | .drop => (own, w, s)
  | _ =>
    if !bit v 83 then (own, w, s)
    else
      let dei := pget c.r PF.vlanCnt != 0 && bit (pget c.r PF.tci0) 12
      let (col, s1) := meter s (bits v 64 19) c.len dei
      if col = 2 ∧ bits v 84 2 = 0 then (col, .drop, perfTenant (bump s1 (Reg.ACT_CNT c.n 4)) c.tenant 4 1)
      else (col, w, s1)

/-! ## Step 5: counting -/

/-- Counting (Table 6-4 step 5) and the scratch operation of the pass (R508). -/
def countStep (s : State) (c : PassCtx) (v : Nat) : State :=
  let s1 := if bit v 117 then countPair s (bits v 96 21) c.len else s
  scrPipeOp s1 c.n c.act { hash := c.res.hash, port := c.f.port, vrf := c.vrf, len := c.len, rxSec := c.f.rx.sec, rxNs := c.f.rx.ns }

/-! ## Step 8: requests of copies -/

/-- The block of a frame's pass. -/
def passBlock (c : PassCtx) : Block :=
  { parsed := c.r, sig := c.f.sig, meta_ := c.f.carried, rx := c.f.rx, tenant := c.tenant, vrf := c.vrf, action := c.act, pipe := c.n,
    len := c.f.first.length + 4, miss := if c.failed then 0 else c.res.fwd.missReason }

/-- The sample request of a pass (R173): one draw, and the record when it selects the frame. -/
def sampleStep (s : State) (c : PassCtx) (v : Nat) (dropped : Bool) : Option HostFrame × State :=
  if !bit v 152 then (c.f.smp, s)
  else
    let k := mget 0 s.ing.draws c.n
    let s1 := { s with ing := { s.ing with draws := mput 0 s.ing.draws c.n (k + 1) } }
    if Config.draw c.n k % (bits v 128 24 + 1) = 0 then
      let b := { passBlock c with sample := true, dropped := dropped }
      (some { sample := true, dropped := dropped, tenant := bits v 1 8, frameLen := b.len, pipe := c.n, block := b.bytes, bytes := c.f.first.take 256 }, s1)
    else (c.f.smp, s1)

/-! ## The Hall -/

/-- The Hall of pipeline n. -/
def hall (s : State) (n : Nat) : List HallEnt := mget [] s.ing.hall n

/-- The Hall's entries in use (R166). -/
def hallOcc (l : List HallEnt) : Nat := countIf (·.holds) l

/-- Stores the Hall of pipeline n; OCC and PEAK follow (Table 6-19). -/
def hallPut (s : State) (n : Nat) (l : List HallEnt) : State :=
  setPeak { s with ing := { s.ing with hall := mput [] s.ing.hall n l } } (Reg.ACT_HALL_STAT_OCC n) (Reg.ACT_HALL_STAT_PEAK n) (hallOcc l)

/-- Is an earlier frame of the pair outstanding (R165)? -/
def pairOut (l : List HallEnt) (port cls : Nat) : Bool := l.any (fun e => e.port == port && e.cls == cls)

/-- The session of the port mirror of frames that enter a port (Table 6-11). -/
def portSession (s : State) (port : Nat) : List Nat :=
  if flag s (Reg.ACT_PORT_MIR_IN_EN port) then [getF s (Reg.ACT_PORT_MIR_IN_SESS port)] else []

/-- The sessions that copy a frame (R171): that of its flow mirror and those of the port mirrors of its input port and, once it was recirculated, of port 161,
each once. -/
def inSessions (s : State) (port : Nat) (h : HallFrame) : List Nat :=
  ((match h.mir with | some m => [m] | none => []) ++ portSession s port ++ (if h.recirculated then portSession s 161 else [])).dedup.filter
    (fun m => flag s (Reg.ACT_MIR_CFG_EN m))

/-- Does a dropped frame owe a copy (R171, R173)? -/
def copyDue (s : State) (port : Nat) (h : HallFrame) : Bool :=
  h.smp.isSome || (inSessions s port h).any (fun m => flag s (Reg.ACT_MIR_CFG_INCL_DROP m))

/-- A frame's last pass is over (R165 to R168): it takes its place in the Hall, or is gone. -/
def hallArrive (s : State) (n : Nat) (f : InFrame) (cls : Nat) (h : HallFrame) : State :=
  let l := hall s n
  let gone := h.dest == .drop && !copyDue s f.orig h
  if f.place ≠ 0 then
    hallPut s n (if gone then l.filter (fun e => e.id != f.place) else l.map (fun e => if e.id = f.place then { e with frame := some h } else e))
  else if gone then s
  else
    let held := pairOut l f.orig cls
    if held && decide (2048 ≤ hallOcc l) then bump s (Reg.ACT_CNT n 0)
    else
      let s1 := { s with ing := { s.ing with place := s.ing.place + 1 } }
      let e : HallEnt := { id := s.ing.place, port := f.orig, cls := cls, holds := held, frame := some h }
      hallPut (if held then perf s1 n 6 else s1) n (l ++ [e])

/-! ## Step 6: recirculation -/

/-- RECIRC_STAT follows the recirculation queue (Table 6-19). -/
def recircPut (s : State) (n : Nat) (l : List InFrame) : State :=
  setPeak { s with ing := { s.ing with recirc := mput [] s.ing.recirc n l } } (Reg.ACT_RECIRC_STAT_QUEUE_NOW n) (Reg.ACT_RECIRC_STAT_QUEUE_PEAK n) l.length

/-- The bytes of the next pass: DECAP and a POP_RECIRC pop applied (R161). -/
def recircBytes (c : PassCtx) (v : Nat) (label : LabelOp) : Bytes :=
  let b := decapsulate c.f.bytes c.r (bits v 181 2)
  if label = .popRecirc ∧ b = c.f.bytes then popLabel b c.r else b

/-- The metadata of the next pass (Table 6-6). -/
def carriedNext (c : PassCtx) (v cls colour arg : Nat) : Nat :=
  bits v 192 32 + c.f.orig * 2 ^ 32 + (c.f.pass + 1) * 2 ^ 40 + cls * 2 ^ 42 + colour * 2 ^ 45 + arg % 65536 * 2 ^ 47 + bits arg 16 1 * 2 ^ 63

/-- Why step 6 drops a frame (R162, R167): the recirculation queue is full (3), or no placeholder is left in the Hall (1). -/
def recircFull (s : State) (c : PassCtx) : Option Nat :=
  if 512 ≤ (mget [] s.ing.recirc c.n).length then some 3
  else if c.f.place = 0 ∧ 2048 ≤ hallOcc (hall s c.n) then some 1
  else none

/-- Step 6 of Table 6-4: the frame joins the recirculation queue and, on its first pass, takes a placeholder in the Hall. -/
def recircStep (s : State) (c : PassCtx) (v cls colour arg : Nat) (label : LabelOp) (mir : Option Nat) (smp : Option HostFrame) : State :=
  let n := c.n
  let plc := if c.f.place = 0 then s.ing.place else c.f.place
  let e : HallEnt := { id := plc, port := c.f.orig, cls := cls, holds := true, frame := none }
  let s0 := { s with ing := { s.ing with place := s.ing.place + 1 } }
  let s1 := if c.f.place = 0 then hallPut s0 n (hall s n ++ [e]) else s
  let fix := if bit arg 16 then some (arg % 65536) else none
  let f := { c.f with port := 161, bytes := recircBytes c v label, pass := c.f.pass + 1, carried := carriedNext c v cls colour arg }
  let f2 := { f with sig := withBits c.f.sig 144 1 1, fixVrf := fix, mir := mir, smp := smp, place := plc }
  recircPut (perf s1 n 5) n (mget [] s.ing.recirc n ++ [f2])

/-! ## Step 7: the recorded edits -/

/-- The bytes that leave the action stage: label operations are applied here. DESIGN CHOICE: Table 7-2 has no field that records one. -/
def labelBytes (s : State) (c : PassCtx) (label : LabelOp) (keep : Bool) : Bytes :=
  match label with
  | .swap x => swapLabel c.f.bytes c.r x keep
  | .popFwd => popForward c.f.bytes c.r keep (flag s Reg.ACT_TTL_CFG_MPLS_MODE)
  | .popIp => popForward c.f.bytes c.r keep (flag s Reg.ACT_TTL_CFG_MPLS_MODE)
  | _ => c.f.bytes

/-- The frame of a forwarding outcome: destination, header and bytes (R160, R175, Table 7-2). -/
def forwardFrame (s : State) (c : PassCtx) (v cls colour : Nat) (w : Fwd) (routed : Bool) (label : LabelOp) : Dest × Hdr × Bytes :=
  let nh := match w with | .nh i => some (tabGet s Tab.nh i) | _ => none
  let dest : Dest := match w with
    | .sys p => .sys p
    | .nh _ => .sys (match nh with | some e => bits e 10 16 | none => 0)
    | .group g => .group g
    | .flood g => .group g
    | _ => .drop
  let edit : Option Nat := if bit v 180 then some (bits v 160 20) else nh.map (fun e => bits e 26 20)
  let keep := bit v 12
  let ttl := if routed && !keep && label == .none && pget (exposed s c v) PF.l3Type != 0 then 1 else 0
  let mode := if c.f.txTag.isSome then 2 else bits v 13 2
  let prof := match nh with | some e => bits e 46 4 | none => 0
  let grp := match dest with | .group g => g | _ => 0xFFFF
  let h0 : Hdr := { cls := cls, colour := colour, editV := edit.isSome, editIdx := edit.getD 0, decap := bits v 181 2, ttlOp := ttl }
  let h := { h0 with ptpMode := mode, ptpTag := c.f.txTag.getD (bits v 16 16), mtuProf := prof, group := grp, srcSys := srcSysOf s c.f.orig, rxNs := c.f.rx.ns % 2 ^ 29 }
  (dest, h, labelBytes s c label keep)

/-- The frame of an outcome at the Hall. -/
def wayFrame (s : State) (c : PassCtx) (v cls colour : Nat) (w : Way) : Dest × Hdr × Bytes :=
  match w with
  | .host reason =>
    (.sys (hostSys s), hostHdr cls colour (srcSysOf s c.f.orig) c.f.rx, hostStored { passBlock c with reason := reason } c.f.bytes)
  | .out x routed label => forwardFrame s c v cls colour x routed label
  | _ => (.drop, { rxNs := c.f.rx.ns % 2 ^ 29 }, c.f.bytes)

/-! ## The action stage -/

/-- The action stage drops a pass whose entry does not act; the copies that earlier passes requested remain (R171, R173). -/
def actionLost (s : State) (c : PassCtx) : State :=
  hallArrive (perf s c.n 7) c.n c.f (passClass s c 0)
    { bytes := c.f.bytes, first := c.f.first, hdr := { rxNs := c.f.rx.ns % 2 ^ 29 }, dest := .drop, recirculated := c.f.pass != 0, mir := c.f.mir, smp := c.f.smp, sig := c.f.sig }

/-- The action stage of a pass (Table 6-4). An unreadable action entry drops the frame whatever it requested (R151). -/
def actionStage (s : State) (c : PassCtx) : State :=
  if tabBad s Tab.action c.act then actionLost (actionEcc s c.n (tabKey Tab.action c.act)) c
  else
    let v := tabRead s Tab.action c.act
    let (w1, s1) := fwdWay s c v
    let (w2, s2) := limitWay s1 c w1
    let (w3, s3) := ttlWay s2 c v w2
    let cls := passClass s3 c v
    let (colour, w4, s4) := policeWay s3 c v w3
    let s5 := countStep s4 c v
    let mir : Option Nat := if bit v 90 then some (bits v 91 4) else c.f.mir
    let full : Option Nat := match w4 with | .recirc _ _ => recircFull s5 c | _ => none
    let w : Way := if full.isSome then .drop else w4
    let s6 := match full with | some k => bump s5 (Reg.ACT_CNT c.n k) | none => s5
    let (smp, s7) := sampleStep s6 c v (w == .drop)
    match w with
    | .recirc a l => recircStep s7 c v cls colour a l mir smp
    | _ =>
      let (dest, h, b) := wayFrame s7 c v cls colour w
      let s8 := if w = .drop then perf s7 c.n 7 else s7
      hallArrive s8 c.n c.f cls { bytes := b, first := c.f.first, hdr := h, dest := dest, recirculated := c.f.pass != 0, mir := mir, smp := smp, sig := c.f.sig }

/-! ## The fragment table in a pass -/

/-- What the fragment table does with a frame (R86 to R91): nothing, a reserved entry, the entry that it hits, or FRAG_NOFIRST. -/
inductive FragUse where
  | unused
  | store (set key : Nat)
  | hit (set : Nat) (e : FragEnt)
  | noFirst
  deriving DecidableEq, Repr

/-- The fragment lookup of a frame with VRF `bd` (R87 to R90, R95). `bad` says that the entry read is uncorrectable. -/
def fragLookup (s : State) (n bd : Nat) (b : Bytes) (r : PRec) (bad : Bool) : FragUse × State :=
  let k := fragKey bd b r
  let key := ofLe k
  let set := fragSet n k
  let s := if bad && (fragFind s set key).isSome then
      report (bump (fragPut s n set (fragOthers s set key)) (Reg.PRS_FRAG_CNT n 6)) (Src.fragEcc n) (locSlice 0 n) (Config.memWord (Src.fragEcc n) set % 2 ^ 31)
    else s
  let put (d : Option (FwdRes × Nat)) : State := fragPut s n set (fragOthers s set key ++ [{ key := key, dec := d, at_ := s.tick }])
  match pget r PF.frag, fragFind s set key with
  | 1, some _ => (.store set key, bump (put none) (Reg.PRS_FRAG_CNT n 4))
  | 1, none => if 4 ≤ (mget [] s.ing.frag set).length then (.unused, bump s (Reg.PRS_FRAG_CNT n 3)) else (.store set key, put none)
  | 2, some e => (.hit set e, bump (put e.dec) (Reg.PRS_FRAG_CNT n 1))
  | 2, none => (.noFirst, bump s (Reg.PRS_FRAG_CNT n 2))
  | _, _ => (.unused, s)

/-- The passes behind a first fragment: those that wait for its decision take it, up to the next first fragment of the key (R88, R91). -/
def fragGive (set key : Nat) (d : FwdRes × Nat) : List PassCtx → List PassCtx
  | [] => []
  | c :: r =>
    if c.frag = .reserves set key then c :: r
    else (if c.frag = .waits set key then { c with res := d.1, act := d.2, frag := .hits set key } else c) :: fragGive set key d r

/-- A first fragment at its action stage (R88): its decision is written to the entry that it reserved and reaches the fragments that wait for it; an unreadable
action entry removes the entry instead. DESIGN CHOICE: where a flush removed the entry, those fragments alone take the decision. -/
def fragStore (s : State) (c : PassCtx) (set key : Nat) : State :=
  let l := mget [] s.ing.frag set
  if tabBad s Tab.action c.act then fragPut s c.n set (fragOthers s set key)
  else
    let d := (c.res, c.act)
    let s1 := { s with ing := { s.ing with looked := mput [] s.ing.looked c.n (fragGive set key d (mget [] s.ing.looked c.n)) } }
    if (fragFind s set key).isNone then s1
    else bump (fragPut s1 c.n set (l.map (fun e => if e.key = key then { e with dec := some d } else e))) (Reg.PRS_FRAG_CNT c.n 0)

/-! ## The pass -/

/-- The frame whose turn it is: a recirculated one that has a slot, else the first line or host frame whose window is scanned. -/
def passHead (s : State) (n : Nat) : Option (InFrame × State) :=
  match mget [] s.ing.slotted n with
  | f :: r => some (f, { s with ing := { s.ing with slotted := mput [] s.ing.slotted n r } })
  | [] => match inq s n with
    | f :: r => if f.win.isSome then none else some (f, { s with ing := { s.ing with inq := mput [] s.ing.inq n r } })
    | [] => none

/-- The parser's counts of a pass (R84, Table 21-1); a probe counts in no port counter (R583). -/
def parseCounts (s : State) (n p : Nat) (d : PDone) (first probe : Bool) : State :=
  let code := pget d.record PF.failCode
  let fail := pget d.record PF.fail == 1
  let s1 := bump (perf (if first then perf s n 0 else s) n 1) (Reg.PRS_CODE_CNT n 0)
  let s2 := if code = 0 then s1
    else setF (bump s1 (Reg.PRS_CODE_CNT n code)) (⟨Reg.PRS_LAST_FAIL n, 0, 32⟩) (p + code * 2 ^ 8 + d.failOff % 512 * 2 ^ 16 + 2 ^ 31)
  if fail then bumpIf (!probe) (perf s2 n 2) (Reg.PRS_PORT_CNT p 0) else s2

/-- The words of tables that a pass finds uncorrectable (R118, R151), by key, and a damaged trie node on the path of its address at a depth in bits. -/
def findBad (s : State) (bad : List Nat) (trie : Option Nat) (r : PRec) (bd : Nat) : State :=
  let l := bad ++ s.tab.bad.filter (fun k => !bad.contains k)
  let s1 := { s with tab := { s.tab with bad := l } }
  let l3 := pget r PF.l3Type
  match trie with
  | some d =>
    if l3 = 0 then s1
    else
      let t := if l3 = 2 then 3 else 2
      let dep := min d (16 + lpmWidth t)
      let e := (t, dep, trieBits t bd (pget r PF.dip) dep)
      setB { s1 with tab := { s1.tab with trieBad := s1.tab.trieBad.filter (· != e) ++ [e] } } Reg.FTB_ECC_STAT_REBUILD true
  | none => s1

/-- Learning in a pass (R120, R137): whether a static entry's conflict drops the frame. With an unreadable PORT or VRF entry nothing is learned (R118). -/
def passLearn (s : State) (n p bd : Nat) (r : PRec) : Bool × State :=
  let v := tabGet s Tab.vrf bd
  if !tabBad s Tab.port p ∧ !tabBad s Tab.vrf bd ∧ p < 160 ∧ bit (tabGet s Tab.port p) 34 ∧ bit v 60 then
    let (conflict, s1) := learnOwn s n bd (pget r PF.smac) (6 * 2 ^ 21 + tabF s Tab.port p 17 16)
    (conflict && bit v 62, s1)
  else (false, s)

/-- The counts of a frame that was looked up (R84, R122, Tables 21-1 and 5-5); a probe counts in no port counter (R583). -/
def lookupCounts (s : State) (n p t k len : Nat) (probe : Bool) : State :=
  let s1 := perfTenant (perfTenant (bump s (Reg.FTB_MISS_CNT 0)) t 0 1) t 1 len
  if k = 0 then s1 else bumpIf (!probe) (perfTenant (perf (bump s1 (Reg.FTB_MISS_CNT k)) n 3) t 2 1) (Reg.PRS_PORT_CNT p 1)

/-- The classifier's choice (R141), counted when a rule matches. A lookup that reads an uncorrectable rule takes the miss path, the port's default entry, with
reason ECC, and reports it (R118). -/
def passClassify (s : State) (n key : Nat) : Nat × State :=
  match classify s key with
  | some x => (x.1, perf s n 4)
  | none => ((classAction s key).1, match ruleBad s key with
    | some i => tableEcc (bump s (Reg.FTB_MISS_CNT 7)) Tab.cls (tabKey Tab.cls i)
    | none => s)

/-- A pass leaves the lookup: it joins those that wait for the action stage (R91). -/
def lookedPut (s : State) (c : PassCtx) : State :=
  { s with ing := { s.ing with looked := mput [] s.ing.looked c.n (mget [] s.ing.looked c.n ++ [c]) } }

/-- A failed frame goes on to the classifier with no VRF selected (R82). -/
def passFailed (s : State) (n : Nat) (f : InFrame) (r : PRec) : State :=
  let (act, s1) := passClassify s n (withBits (classKey s f r 0 3) 588 8 0)
  lookedPut s1 { n := n, f := f, r := r, bd := 0, vrf := 0, tenant := 0, res := { fwd := .drop, hash := frameHash s r }, act := act }

/-- A frame's lookups and classifier, from its bridge domain on (R87 to R90, R120, R141). A fragment that hits an entry takes its decision, or waits for it. -/
def passLookup (s : State) (n : Nat) (f : InFrame) (r : PRec) (prof : Prof) (fragBad : Bool) : State :=
  let bd := frameBd s f r
  let h := frameHash s r
  let t := vrfOwner s bd
  let (secDrop, s1) := passLearn s n f.port bd r
  let frag := !bdBad s1 f bd && bit prof.hdr 15 && (pget r PF.frag == 1 || pget r PF.frag == 2)
  let (use_, s2) := if frag then fragLookup s1 n bd f.bytes r fragBad else (.unused, s1)
  match use_ with
  | .hit set e =>
    let c : PassCtx := { n := n, f := f, r := r, bd := bd, vrf := bd, tenant := t, res := { fwd := .drop, hash := h }, act := 0, sec := secDrop }
    lookedPut s2 (match e.dec with
      | some d => { c with res := d.1, act := d.2, frag := .hits set e.key }
      | none => { c with frag := .waits set e.key })
  | _ =>
    let r1 := if use_ = .noFirst then pset r PF.fragNofirst 1 else r
    let (res0, s3) := if secDrop then ({ fwd := .drop, hash := h }, s2) else forwardLookup s2 n f r1 bd h
    let s4 := lookupCounts s3 n f.port t res0.fwd.missReason (f.bytes.length + 4) f.probe.isSome
    let (act, s5) := passClassify s4 n (classKey s4 f r1 bd res0.fwd.status)
    let role : FragRole := match use_ with | .store set key => .reserves set key | _ => .none
    lookedPut s5 { n := n, f := f, r := r1, bd := bd, vrf := bd, tenant := t, res := res0, act := act, sec := secDrop, frag := role }

/-- A probe skips its action entry and takes the Hall place of port 160 and class 7 on its fixed path (R583). -/
def probeStep (s : State) (c : PassCtx) (q : Nat) : State :=
  hallArrive s c.n c.f 7 { bytes := c.f.bytes, first := c.f.first, hdr := { cls := 7 }, dest := .probe q, recirculated := false, mir := none, smp := none }

/-- A pass at its action stage (R84, R88, R89): a first fragment writes its decision first; a fragment with the stored decision counts its miss; one that finds
none is dropped and counts NO_DECISION. -/
def passAct (s : State) (c : PassCtx) : State :=
  match c.f.probe, c.frag with
  | some q, _ => probeStep s c q
  | none, .none => actionStage s c
  | none, .reserves set key => actionStage (fragStore s c set key) c
  | none, .hits _ _ => actionStage (bumpIf (c.res.fwd.missReason != 0) s (Reg.PRS_PORT_CNT c.f.port 1)) c
  | none, .waits _ _ => actionLost (bump s (Reg.PRS_FRAG_CNT c.n 7)) c

/-- The passes of pipeline n that wait for the action stage take it in the order in which they left the lookup (R91). -/
def passDrain (n : Nat) : Nat → State → State
  | 0, s => s
  | k + 1, s =>
    match mget [] s.ing.looked n with
    | [] => s
    | c :: r => passDrain n k (passAct { s with ing := { s.ing with looked := mput [] s.ing.looked n r } } c)

/-- Pipeline n takes its next frame, parses it, looks it up and classifies it (R66, R120); a later pass carries the first pass's result (R101, Table 4-6). -/
def passFront (n : Nat) (bad : List Nat) (trie : Option Nat) (fragBad : Bool) (s : State) : State :=
  match passHead s n with
  | none => s
  | some (f, s1) =>
    let prof := profOf s f.port
    let d := parse f.bytes prof f.port
    let s2 := parseCounts (bumpIf (f.pass != 0) (findBad s1 bad trie d.record (frameBd s1 f d.record)) (Reg.SIG_ENG_CNT n 2)) n f.port d (f.pass == 0) f.probe.isSome
    if pget d.record PF.fail = 1 then passFailed s2 n f d.record else passLookup s2 n f d.record prof fragBad

/-- INGRESS_PASS (R66, R120, R155): pipeline n parses the next frame, looks it up and classifies it, and the frames that left the lookup have their action
entries applied, unless `hold` leaves them before the action stage. `bad` names the words of tables and of action memory that this pass finds uncorrectable,
`trie` the depth of a damaged trie node on its path, `fragBad` a damaged fragment entry. -/
def ingressPass (n : Fin 20) (bad : List Nat) (trie : Option Nat) (fragBad hold : Bool) (s : State) : State :=
  if sliceSleeps s n then s
  else
    let s1 := passFront n bad trie fragBad s
    if hold then s1 else passDrain n (mget [] s1.ing.looked n).length s1

/-- The command whose effect is `ingressPass`. -/
def execIngressPass (n : Fin 20) (bad : List Nat) (trie : Option Nat) (how : PassEnd) (s : State) : Out :=
  match how with
  | ⟨fragBad, hold⟩ => .next (ingressPass n bad trie fragBad hold s)

/-- RECIRC_SLOT (R162): one slot of the window of 64. A reserved slot takes the head of the recirculation queue, and an unreserved one takes it when no line
or host frame waits. DESIGN CHOICE: the reserved slots are the first of the 64. -/
def recircSlot (n : Fin 20) (s : State) : State :=
  if sliceSleeps s n then s
  else
    let k := mget 0 s.ing.slot n
    let s1 := { s with ing := { s.ing with slot := mput 0 s.ing.slot n.val ((k + 1) % 64) } }
    let res := min 16 (getF s (Reg.ACT_RECIRC_CFG_RES_SLOTS n))
    match mget [] s.ing.recirc n.val with
    | f :: q =>
      if k < res ∨ inq s n = [] then
        let s2 := { s1 with ing := { s1.ing with slotted := mput [] s1.ing.slotted n.val (mget [] s1.ing.slotted n.val ++ [f]) } }
        recircPut s2 n q
      else s1
    | [] => s1

/-- The command whose effect is `recircSlot`. -/
def execRecircSlot (n : Fin 20) (s : State) : Out := .next (recircSlot n s)

end Sys2Proof.Machine
end

