-- ==== Sys2Proof/Machine/Ramp.lean ====
section
/-! DEFINITION. The dividers of the root families and their ramps (R413, R414, R416, R421), and the lane tests that act on a lane (R577 to R579). -/

namespace Sys2Proof.Machine

/-! ## Dividers -/

/-- The divisor at which root-family domain d runs (Table 15-1). -/
def targetDiv (d : Nat) : Nat := [4, 4, 4, 2, 2, 3, 6, 4, 4, 4, 2, 4, 3, 4, 8].getD d 4

/-- The root of domain d: 0 FD_ROOT for CD00 to CD06, 1 QD_ROOT for CD07 to CD14 (R410). -/
def rootOfDomain (d : Nat) : Nat := if d < 7 then 0 else 1

/-- The domain that a key of `clk.div` stands for. -/
def divDomain (k : Nat) : Nat := k % 16

/-- The domains of a root. -/
def rootDomains (r : Nat) : List Nat := (List.range 15).filter (fun d => rootOfDomain d == r)

/-- The branches that slice n has of its own, by the column Serves of Table 15-1: pipelines, tables and scan of a line slice, the cell engine of a
fabric slice, the controllers of a DRAM slice. -/
def sliceBranches (n : Nat) : List Nat :=
  (if n < 20 then [0, 1, 2, 3] else if n < 28 then [11] else [13]).map (fun d => 16 * (n + 1) + d)

/-- The divisors that a ramp to `target` passes, from ÷64 down (R413). -/
def rampDivs (target : Nat) : List Nat := ([64, 32, 16, 8, 6, 5].filter (fun x => decide (target < x))) ++ [target]

/-- The divisor after one step: the next lower one upwards, the next higher one downwards; 0 is stopped or on the bypass. -/
def rampNext (target cur : Nat) (up : Bool) : Nat :=
  let l := rampDivs target
  if up then (if cur = 0 then 64 else (l.find? (fun x => decide (x < cur))).getD target)
  else (l.reverse.find? (fun x => decide (cur < x))).getD 0

/-- Starts ramps, all upwards or all downwards (R414: any number at once). -/
def rampStart (s : State) (ks : List Nat) (up : Bool) : State :=
  { s with clk := { s.clk with ramp := ks.foldl (fun m k => mset m k (some up)) s.clk.ramp } }

/-- One step of the ramp of key k. -/
def rampOne (s : State) (k : Nat) (up : Bool) : State :=
  let t := targetDiv (divDomain k)
  let v := rampNext t (mget 0 s.clk.div k) up
  let over_ := if up then v == t else v == 0
  { s with clk := { s.clk with div := mput 0 s.clk.div k v, ramp := if over_ then merase s.clk.ramp k else s.clk.ramp } }

/-- A slice's branches start with its wake and stop before its sleep (R414, R415, Table 15-4). -/
def branchRamp (s : State) (n st : Nat) : State :=
  if st = 5 then rampStart s (sliceBranches n) true
  else if st = 3 then rampStart s (sliceBranches n) false
  else if st = 4 then
    { s with clk := { s.clk with div := (sliceBranches n).foldl merase s.clk.div, ramp := (sliceBranches n).foldl merase s.clk.ramp } }
  else if st = 6 ∨ st = 1 then
    { s with clk := { s.clk with div := (sliceBranches n).foldl (fun m k => mput 0 m k (targetDiv (divDomain k))) s.clk.div,
                                 ramp := (sliceBranches n).foldl merase s.clk.ramp } }
  else s

/-- The RELOCK bit of a root. -/
def relockFld (r : Nat) : Fld := if r = 0 then Reg.CLK_STAT_FD_RELOCK else Reg.CLK_STAT_QD_RELOCK

/-- Does a relocking family leave a frame or cell at its crossing untaken (R421)? The spec gives no rule for which, so a free value decides; one that is
discarded counts RELOCK_DISCARD. -/
def relockDiscards (s : State) (r : Nat) : Bool × State :=
  if flag s (relockFld r) then
    let (v, s1) := freshNat s
    if v % 2 = 1 then (true, bump s1 (Reg.CLK_CNT 4)) else (false, s1)
  else (false, s)

/-! ## Lane tests -/

/-- Do the state of the device and of slice n let a lane test act (R577)? -/
def testReady (s : State) (n : Nat) : Bool :=
  s.top == .run && (getF s (Reg.PWR_SLICE_STAT_STATE n) == 1 || getF s (Reg.PWR_SLICE_STAT_STATE n) == 6)

/-- Is the generator of test entry x set; is its checker set, with a pattern that can be checked (R578, R579)? -/
def genSet (s : State) (x : Nat) : Bool := flag s (Reg.TST_LANE_CFG_GEN_EN x)
def chkSet (s : State) (x : Nat) : Bool := flag s (Reg.TST_LANE_CFG_CHK_EN x) && getF s (Reg.TST_LANE_CFG_CHK_PAT x) != 3

/-- The loopback that test entry x selects (R580): 0 none, 1 SERIAL_NEAR, 2 PCS_NEAR, 3 SERIAL_FAR. -/
def loopSet (s : State) (x : Nat) : Nat := getF s (Reg.TST_LANE_CFG_LOOP x)

/-- A frame goes back to the receiver of entry x. -/
def loopPut (s : State) (x : Nat) (b : Bytes) : State := { s with tst := { s.tst with loop := mput [] s.tst.loop x (mget [] s.tst.loop x ++ [b]) } }

/-- Nothing is under way in the loopback of entry x any more. -/
def loopDrop (s : State) (x : Nat) : State := { s with tst := { s.tst with loop := merase s.tst.loop x } }

/-- The receiver of entry x takes a frame from a near loopback: it is the oldest that went back, and the partner's are not received. -/
def loopTake (s : State) (x : Nat) (b : Bytes) : Option State :=
  match mget [] s.tst.loop x with
  | [] => none
  | c :: r => if c = b then some { s with tst := { s.tst with loop := mput [] s.tst.loop x r } } else none

end Sys2Proof.Machine
end

