-- ==== Sys2Proof/Machine/Line.lean ====
section
/-! DEFINITION. Line ports (chapter 2): modes and lanes, transmitter states, training, faults of the link partner, MAC control frames, pause and
the frames that XOFF generates, the storm watchdog, and SyncE squelch. -/

namespace Sys2Proof.Machine

/-! ## Modes, lanes and states -/

/-- Lanes per port of a group's mode (Table 2-1). -/
def lanesPerPort (mode : Nat) : Nat := match mode with | 0 => 8 | 1 => 4 | 2 => 2 | _ => 1

/-- The mode of port p's group. -/
def portMode (s : State) (p : Nat) : Nat := getF s (Reg.LIN_GRP_CFG_MODE (p / 8))

/-- Does Table 2-1 list the port for its group's mode (R38)? -/
def portPresent (s : State) (p : Nat) : Bool := p % 8 % lanesPerPort (portMode s p) == 0

/-- The lanes of a port within its group (R38). -/
def portLanes (s : State) (p : Nat) : List Nat := upFrom (p % 8) (lanesPerPort (portMode s p))

/-- The MAC rate of a port in Gb/s (Table 2-1). -/
def portGbps (s : State) (p : Nat) : Nat := if portMode s p = 4 then 100 else 200 * lanesPerPort (portMode s p)

/-- Has lane l of group g failed its calibration (R41)? -/
def laneOos (s : State) (g l : Nat) : Bool := bit (getF s (Reg.LIN_GRP_STAT_LANE_OOS g)) l

/-- The largest frame of a port (R43). -/
def maxLen (s : State) (p : Nat) : Nat := max 128 (getF s (Reg.LIN_PORT_CFG_MAX_LEN p))

/-- The administrative state of a port (Table 2-3). -/
def portAdmin (s : State) (p : Nat) : Nat := getF s (Reg.LIN_PORT_CTL_ADMIN p)

/-- The transmitter state by the conditions of Table 2-4 and R529: 0 DISABLED, 1 HELD, 2 RUNNING. -/
def txNow (s : State) (p : Nat) : Nat :=
  if s.top != .run || sliceSleeps s (p / 8) || (portLanes s p).any (laneOos s (p / 8)) || portAdmin s p == 0 || !portPresent s p then 0
  else if portAdmin s p == 1 || offLine s || gapRuns s || isolated s (p / 8) then 1
  else 2

/-- Do the lane tests of a port's lanes act (R577): in RUN and in service, with a transmitter that is not DISABLED? -/
def lineTest (s : State) (p : Nat) (set_ : State → Nat → Bool) : Bool :=
  testReady s (p / 8) && txNow s p != 0 && (portLanes s p).any (fun l => !laneOos s (p / 8) l && set_ s (p / 8 * 8 + l))

/-- What the MAC of a port sends toward its lanes (R42, R47, R49, R578). -/
inductive MacOut where
  | none | pattern | training | idle | remoteFault | frames
  deriving DecidableEq, Repr

/-- What the transmit balls of a port carry (R47, R580): electrical idle, the symbols just received, or what the MAC sends. -/
inductive LineOut where
  | electricalIdle | echo | mac (m : MacOut)
  deriving DecidableEq, Repr

/-- The loopback that acts on a port's lanes (R577, R580). DEDUCED: when its lanes do not all have the same one, no frame gets through, which 4 says. -/
def lineLoop (s : State) (p : Nat) : Nat :=
  if !testReady s (p / 8) || txNow s p == 0 then 0
  else if (portLanes s p).all (fun l => loopSet s (p / 8 * 8 + l) == loopSet s p) then loopSet s p
  else 4

/-- Is the link trained as far as R42 requires: link training is off, or it is neither under way nor failed? -/
def ltReady (s : State) (p : Nat) : Bool :=
  !flag s (Reg.LIN_PORT_CFG_LT_EN p) || (!s.lin.training.contains p && !flag s (Reg.LIN_PORT_STAT_LT_FAIL p))

/-- What the MAC of a port sends: nothing in DISABLED, a pattern while a generator acts on its lanes, training first, idle blocks in HELD, and in RUNNING what the link
faults leave (R42, R47, R49, R578). -/
def macOut (s : State) (p : Nat) : MacOut :=
  if txNow s p == 0 then .none
  else if lineTest s p genSet then .pattern
  else if !ltReady s p then .training
  else if txNow s p == 1 then .idle
  else if flag s (Reg.LIN_PORT_STAT_LOCAL_FAULT p) then .remoteFault
  else if flag s (Reg.LIN_PORT_STAT_REMOTE_FAULT p) then .idle
  else .frames

/-- What the balls of a port carry. -/
def lineOut (s : State) (p : Nat) : LineOut :=
  if txNow s p == 0 || lineLoop s p == 1 then .electricalIdle
  else if lineLoop s p == 3 then .echo
  else .mac (macOut s p)

/-- Does a port send frames? -/
def txSends (s : State) (p : Nat) : Bool := macOut s p == .frames

/-- Do frames that come to the MAC of a port wait there: the port is RUNNING and its link training is not over (R42, R47)? -/
def txWaits (s : State) (p : Nat) : Bool := txNow s p == 2 && macOut s p == .training

/-- Is the receive side of a port active: device in RUN, slice awake, lanes in service, and no checker on them (R579)? -/
def rxActive (s : State) (p : Nat) : Bool :=
  s.top == .run && !sliceSleeps s (p / 8) && portPresent s p && !(portLanes s p).any (laneOos s (p / 8)) && !lineTest s p chkSet

/-! ## Generated MAC control frames -/

/-- A frame is the last one on a port's transmit balls. -/
def ballsCarry (s : State) (p : Nat) (b : Bytes) : State := { s with lin := { s.lin with sent := mset s.lin.sent p (some b) } }

/-- A frame with its FCS leaves the MAC: to the balls, to the port's own receiver, to both, or nowhere, as the loopback has it (R580). -/
def lineTx (s : State) (p : Nat) (b : Bytes) : State :=
  match lineLoop s p with
  | 0 => ballsCarry s p b
  | 1 => loopPut s p b
  | 2 => loopPut (ballsCarry s p b) p b
  | _ => s

/-- A frame with its FCS comes to the receiver of a port, none when a loopback keeps the partner's from it; SERIAL_FAR sends it back (R580). -/
def lineRx (s : State) (p : Nat) (b : Bytes) : Option State :=
  match lineLoop s p with
  | 0 => some s
  | 3 => some (ballsCarry s p b)
  | 4 => none
  | _ => loopTake s p b

/-- Sends a frame, given without FCS, on a port's transmitter. -/
def sendLine (s : State) (p : Nat) (b : Bytes) : State :=
  perfAdd (perf (lineTx s p (b ++ fcs b)) (40 + p / 8) 2) (40 + p / 8) 3 (b.length + 4)

/-- TX_QUANTA; values below 2 act as 2 (Table 2-11). -/
def txQuanta (s : State) (p : Nat) : Nat := max 2 (getF s (Reg.LIN_FC_CFG_TX_QUANTA p))

/-- The source address of generated frames (R54). -/
def portMac (s : State) (p : Nat) : Nat := (rd s (Reg.LIN_PORT_MAC_LO p)).toNat + 2 ^ 32 * getF s (Reg.LIN_PORT_MAC_HI_MAC_HI p)

/-- A MAC control frame of 60 bytes with the given opcode and parameters (R51, R54).
PRESUMED: IEEE 802.3 Annex 31B and IEEE 802.1Qbb, which R50 names, give the layout. -/
def macCtlBytes (s : State) (p op : Nat) (params : Bytes) : Bytes :=
  fit 60 ([0x01, 0x80, 0xC2, 0x00, 0x00, 0x01] ++ beBytes 6 (portMac s p) ++ beBytes 2 0x8808 ++ beBytes 2 op ++ params)

/-- Sends one frame that says XOFF or XON for the classes of a mask, as the port's flow control mode has it (R54, R217). DESIGN CHOICE: a refresh, and the frame that an entry
into RUNNING sends (R55), each name every class in XOFF. -/
def sendXoff (s : State) (p mask : Nat) : State :=
  let x := getF s (Reg.LIN_PORT_STAT_XOFF p)
  let q (k : Nat) := if bit x k then txQuanta s p else 0
  let mode := getF s (Reg.LIN_PORT_CFG_FC_MODE p)
  if mask % 256 = 0 || !txSends s p then s
  else if mode = 2 then
    perf (sendLine s p (macCtlBytes s p 0x0101 (beBytes 2 (mask % 256) ++
      (List.range 8).flatMap (fun k => beBytes 2 (if bit mask k then q k else 0))))) (40 + p / 8) 6
  else if mode = 1 then
    perf (sendLine s p (macCtlBytes s p 0x0001 (beBytes 2 (if x = 0 then 0 else txQuanta s p)))) (40 + p / 8) 6
  else s

/-- The XOFF state of a port's classes changes to a mask (R54, R216, R217): the register, and the frame that tells the partner. In PAUSE
mode only a change between no class and some class sends. -/
def xoffChange (s : State) (p new : Nat) : State :=
  let old := getF s (Reg.LIN_PORT_STAT_XOFF p)
  if old = new then s
  else
    let s1 := setF s (Reg.LIN_PORT_STAT_XOFF p) new
    if getF s (Reg.LIN_PORT_CFG_FC_MODE p) = 1 && (old == 0) == (new == 0) then s1
    else sendXoff s1 p (Nat.xor old new)

/-! ## Transmitter changes -/

/-- The frames staged at the MAC of a port are discarded and counted in TX_DISCARD (Table 2-4). -/
def discardStaged (s : State) (p : Nat) : State :=
  let keep := s.qd.stage.filter (fun e => e.1 / 8 != p)
  let n := ((s.qd.stage.filter (fun e => e.1 / 8 == p)).map (fun e => e.2.length)).sum
  bumpN { s with qd := { s.qd with stage := keep } } (Reg.LIN_EVT_CNT p 14) n

/-- LINK_UP: the receive link is up with no fault; every change sets LINK_CHANGE (Table 2-17). -/
def faultShow (s : State) (p : Nat) : State :=
  let up := txNow s p != 0 && ltReady s p && !flag s (Reg.LIN_PORT_STAT_LOCAL_FAULT p)
    && !flag s (Reg.LIN_PORT_STAT_REMOTE_FAULT p) && !lineTest s p genSet && !lineTest s p chkSet
  if flag s (Reg.LIN_PORT_STAT_LINK_UP p) == up then s
  else setB (setB s (Reg.LIN_PORT_STAT_LINK_UP p) up) (Reg.LIN_PORT_STAT_LINK_CHANGE p) true

/-- A port that entered RUNNING sends its frame for the classes in XOFF as soon as it sends frames at all (R55). -/
def xoffPay (s : State) (p : Nat) : State :=
  if s.lin.xoffOwed.contains p && txSends s p then
    sendXoff { s with lin := { s.lin with xoffOwed := s.lin.xoffOwed.erase p } } p (getF s (Reg.LIN_PORT_STAT_XOFF p))
  else s

/-- The link of a port follows its faults, its training and its lane tests. -/
def linkUpdate (s : State) (p : Nat) : State := xoffPay (faultShow s p) p

/-- Link training runs on a port from now on (R42). -/
def trainStart (s : State) (p : Nat) : State :=
  { setB s (Reg.LIN_PORT_STAT_LT_DONE p) false with lin := { s.lin with training := p :: s.lin.training.erase p } }

/-- No link training runs on a port. -/
def trainStop (s : State) (p : Nat) : State := { s with lin := { s.lin with training := s.lin.training.erase p } }

/-- A port's transmitter enters a state (R47): outside RUNNING its frames are discarded, in DISABLED nothing is under way on its lanes, link training runs on leaving DISABLED
(R42), and an entry into RUNNING owes the frame of R55. -/
def txEnter (s : State) (p old new : Nat) : State :=
  let a := setF s (Reg.LIN_PORT_STAT_TX_STATE p) new
  let b := if new = 2 then { a with lin := { a.lin with xoffOwed := p :: a.lin.xoffOwed.erase p } }
    else discardStaged { a with lin := { a.lin with xoffOwed := a.lin.xoffOwed.erase p } } p
  if new = 0 then loopDrop (trainStop b p) p else if old = 0 && flag s (Reg.LIN_PORT_CFG_LT_EN p) then trainStart b p else b

/-- A port's transmitter moves to the state that its conditions give (R47); training that is switched off stops. -/
def txUpdate (s : State) (p : Nat) : State :=
  let old := getF s (Reg.LIN_PORT_STAT_TX_STATE p)
  let new := txNow s p
  let s0 := if flag s (Reg.LIN_PORT_CFG_LT_EN p) then s else trainStop s p
  linkUpdate (if old = new then s0 else txEnter s0 p old new) p

/-- Every port's transmitter follows its conditions (R47). -/
def txSettle (s : State) : State := (List.range 160).foldl txUpdate s

/-- The ports of group g follow their conditions. -/
def txSettleGroup (s : State) (g : Nat) : State := (upFrom (8 * g) 8).foldl txUpdate s

/-! ## SyncE -/

/-- The symbol rate of a lane of group g in kBd (R61, Table 2-1): 106.25 GBd, or 53.125 GBd in mode 4. -/
def laneKbd (s : State) (g : Nat) : Nat := if getF s (Reg.LIN_GRP_CFG_MODE g) = 4 then 53125000 else 106250000

/-- Do the settings, the lane's service state and its lock let SyncE output k run (R62)? -/
def synceAllowed (s : State) (k : Nat) : Bool :=
  let lane := getF s (Reg.LIN_SYNCE_CFG_LANE k)
  let g := lane / 8
  let div := max 1 (getF s (Reg.LIN_SYNCE_CFG_DIV k))
  flag s (Reg.LIN_SYNCE_CFG_EN k) && decide (lane ≤ 159) && decide (laneKbd s g ≤ 200000 * div)
    && !laneOos s g (lane % 8) && !sliceSleeps s g && !s.lin.noLock.contains lane && (mfind s.lin.lockAt lane).isNone

/-- Squelches the SyncE outputs that may not run (R62). A squelched output resumes only with SYNCE_RESUME. -/
def synceSquelch (s : State) : State :=
  (List.range 2).foldl (fun a k =>
    if synceAllowed a k then a else setF a Reg.LIN_SYNCE_STAT_SQUELCH (Nat.lor (getF a Reg.LIN_SYNCE_STAT_SQUELCH) (2 ^ k))) s

/-- Lanes lose receive lock, and the outputs that carry them are squelched (R62). -/
def lockLost (s : State) (l : List Nat) : State :=
  synceSquelch { s with lin := { s.lin with noLock := l ++ s.lin.noLock.filter (fun x => !l.contains x), lockAt := s.lin.lockAt.filter (fun e => !l.contains e.1) } }

/-- Lanes begin to hold receive lock (R62). -/
def lockHeld (s : State) (l : List Nat) : State :=
  synceSquelch { s with lin := { s.lin with noLock := s.lin.noLock.filter (fun x => !l.contains x), lockAt := l.foldl (fun m x => mset m x (some s.tick)) s.lin.lockAt } }

/-- The lanes of a port, 8g + l. -/
def portLaneNos (s : State) (p : Nat) : List Nat := (portLanes s p).map (fun l => p / 8 * 8 + l)

/-- SYNCE_RESUME (R62): the selected lane has held lock for 10 ms without a break, and the output resumes. -/
def synceResume (k : Fin 2) (s : State) : State :=
  let lane := getF s (Reg.LIN_SYNCE_CFG_LANE k)
  if (match mfind s.lin.lockAt lane with | some t => withinUs s t 10000 | none => false) then s
  else
    let s1 := { s with lin := { s.lin with lockAt := merase s.lin.lockAt lane } }
    if synceAllowed s1 k then
      let m := getF s1 Reg.LIN_SYNCE_STAT_SQUELCH
      setF s1 Reg.LIN_SYNCE_STAT_SQUELCH (m - Nat.land m (2 ^ k.val))
    else s1

/-- The command whose effect is `synceResume`. -/
def execSynceResume (k : Fin 2) (s : State) : Out := .next (synceResume k s)

/-! ## Calibration and training -/

/-- LINE_LANE_CALIBRATION (R35, R41): a lane's calibration on internal loopback passes, or fails, is reported and leaves the lane out of service until the next
start. It runs in BRINGUP, and in JOINING of the slice (R564), and fails for want of RCAL_LINE (R474). Each lane that fails is reported, whatever stands of its group. -/
def lineLaneCalibration (g : Fin 20) (l : Fin 8) (ok : Bool) (s : State) : State :=
  if s.top != .bringup && getF s (Reg.PWR_SLICE_STAT_STATE g) != 6 then s
  else if (ok && rcalOk s 0) || laneOos s g l then s
  else
    let m := Nat.lor (getF s (Reg.LIN_GRP_STAT_LANE_OOS g)) (2 ^ l.val)
    let s1 := levelMore (setF s (Reg.LIN_GRP_STAT_LANE_OOS g) m) (Src.linLaneOos g) (locSlice 0 g) l
    synceSquelch (txSettleGroup s1 g)

/-- The command whose effect is `lineLaneCalibration`. -/
def execLineLaneCalibration (g : Fin 20) (l : Fin 8) (ok : Bool) (s : State) : Out := .next (lineLaneCalibration g l ok s)

/-- LINK_TRAINING_DONE (R42): the training that runs on a port completes or fails. -/
def linkTrainingDone (p : Fin 160) (ok : Bool) (s : State) : State :=
  if !s.lin.training.contains p.val then s
  else linkUpdate (setB (setB (trainStop s p) (Reg.LIN_PORT_STAT_LT_DONE p) ok) (Reg.LIN_PORT_STAT_LT_FAIL p) (!ok)) p

/-- The command whose effect is `linkTrainingDone`. -/
def execLinkTrainingDone (p : Fin 160) (ok : Bool) (s : State) : Out := .next (linkTrainingDone p ok s)

/-- LINK_TRAINING_RETRY (R42): a failed training is retried while the transmitter is not DISABLED and training is enabled. -/
def linkTrainingRetry (p : Fin 160) (s : State) : State :=
  if flag s (Reg.LIN_PORT_STAT_LT_FAIL p) && flag s (Reg.LIN_PORT_CFG_LT_EN p) && txNow s p != 0 && !s.lin.training.contains p.val then
    { s with lin := { s.lin with training := p.val :: s.lin.training } }
  else s

/-- The command whose effect is `linkTrainingRetry`. -/
def execLinkTrainingRetry (p : Fin 160) (s : State) : Out := .next (linkTrainingRetry p s)

/-- A new training, or a receiver relock when LT_EN is 0, starts at once (R42). DEDUCED: a relock breaks the lock that the port's lanes held. -/
def retrainStart (s : State) (p : Nat) : State :=
  if txNow s p == 0 then s
  else if flag s (Reg.LIN_PORT_CFG_LT_EN p) then linkUpdate (trainStart s p) p
  else lockHeld s ((portLaneNos s p).filter (fun x => !s.lin.noLock.contains x))

/-- The cause of a failed write of a register of an absent port: its address is as an unassigned one (R9, R38). -/
def pwfAbsent (s : State) (addr data : Nat) : State := pwfD s 0 0 addr data .unassigned 0

/-- RETRAIN (R42): a write of LIN_PORT_CTL with RETRAIN = 1 and ADMIN as it stands. -/
def retrain (p : Fin 160) (s : State) : State :=
  let a := Reg.LIN_PORT_CTL p
  operWrite s a 16 (fun s => if portPresent s p then retrainStart s p else pwfAbsent s a 16)

/-- The command whose effect is `retrain`. -/
def execRetrain (p : Fin 160) (s : State) : Out := .next (retrain p s)

/-- The effect of a value of LIN_PORT_CTL that is taken. -/
def adminSet (s : State) (p v : Nat) : State :=
  let s1 := txUpdate (setF s (Reg.LIN_PORT_CTL_ADMIN p) v) p
  if bit v 4 then retrainStart s1 p else s1

/-- ADMIN (R46, Table 2-3): a write of LIN_PORT_CTL. The value 3 leaves the register unchanged and is logged; the write is mirrored (R343). -/
def admin (p : Fin 160) (v : Nat) (s : State) : State :=
  let a := Reg.LIN_PORT_CTL p
  if operOpen s && !portPresent s p then pwfAbsent s a v
  else operMirrored s a v (v % 4 != 3) (fun s => adminSet s p v)

/-- The command whose effect is `admin`. -/
def execAdmin (p : Fin 160) (v : Nat) (s : State) : Out := .next (admin p v s)

/-! ## Link faults -/

/-- Has any port of group g the fault bit? -/
def groupFault (s : State) (f : Nat → Fld) (g : Nat) : Bool := (upFrom (8 * g) 8).any (fun p => flag s (f p))

/-- A fault bit of a port changes. A violation that begins counts and reports; the level of the group's source lasts while any port of the
group has the fault (R64). -/
def linkFault (s : State) (p k : Nat) (f : Nat → Fld) (src : Nat) (on : Bool) : State :=
  let g := p / 8
  let s1 := setB s (f p) on
  let s2 := if on then levelMore s1 src (locSlice 0 g) p
    else if groupFault s1 f g then s1 else levelOff s1 src
  linkUpdate (bumpIf on s2 (Reg.LIN_EVT_CNT p k)) p

/-- LINK_FAULT_DETECT (R49, Table 2-5): the receive link of a port goes down, and the lanes of its group that a mask names have lost signal or lock (R62). -/
def linkFaultDetect (p : Fin 160) (lanes : Fin 256) (s : State) : State :=
  if !rxActive s p || flag s (Reg.LIN_PORT_STAT_LOCAL_FAULT p) then s
  else
    let s1 := lockLost s ((portLaneNos s p).filter (fun x => bit lanes (x % 8)))
    discardStaged (linkFault s1 p 6 Reg.LIN_PORT_STAT_LOCAL_FAULT (Src.linLinkFault (p.val / 8)) true) p

/-- The command whose effect is `linkFaultDetect`. -/
def execLinkFaultDetect (w : PortLanes) (s : State) : Out :=
  match w with
  | ⟨p, lanes⟩ => .next (linkFaultDetect p lanes s)

/-- LINK_FAULT_CLEAR (R49): the receive link of a port is up again, and its lanes that had lost lock hold it from now on (R62). -/
def linkFaultClear (p : Fin 160) (s : State) : State :=
  if !flag s (Reg.LIN_PORT_STAT_LOCAL_FAULT p) then s
  else linkFault (lockHeld s ((portLaneNos s p).filter (fun x => s.lin.noLock.contains x))) p 6 Reg.LIN_PORT_STAT_LOCAL_FAULT (Src.linLinkFault (p.val / 8)) false

/-- The command whose effect is `linkFaultClear`. -/
def execLinkFaultClear (p : Fin 160) (s : State) : Out := .next (linkFaultClear p s)

/-- REMOTE_FAULT_RECEIVED (R49, Table 2-5): remote fault ordered sets arrive. -/
def remoteFaultReceived (p : Fin 160) (s : State) : State :=
  if !rxActive s p || flag s (Reg.LIN_PORT_STAT_REMOTE_FAULT p) then s
  else discardStaged (linkFault s p 7 Reg.LIN_PORT_STAT_REMOTE_FAULT (Src.linRemoteFault (p.val / 8)) true) p

/-- The command whose effect is `remoteFaultReceived`. -/
def execRemoteFaultReceived (p : Fin 160) (s : State) : Out := .next (remoteFaultReceived p s)

/-- REMOTE_FAULT_CLEAR (R49): no remote fault is received any more. -/
def remoteFaultClear (p : Fin 160) (s : State) : State :=
  if !flag s (Reg.LIN_PORT_STAT_REMOTE_FAULT p) then s
  else linkFault s p 7 Reg.LIN_PORT_STAT_REMOTE_FAULT (Src.linRemoteFault (p.val / 8)) false

/-- The command whose effect is `remoteFaultClear`. -/
def execRemoteFaultClear (p : Fin 160) (s : State) : Out := .next (remoteFaultClear p s)

/-! ## Pause -/

/-- The key of a port's class. -/
def pck (p k : Nat) : Nat := 8 * p + k

/-- Loads, or with 0 ends, the pause timers of the classes of a mask (R52). -/
def pauseSet (s : State) (p mask q : Nat) : State :=
  let old := getF s (Reg.LIN_PORT_STAT_PAUSED p)
  let new := if q = 0 then old - Nat.land old mask else Nat.lor old mask
  let m := (onesOf 8 mask).foldl (fun m k => mput 0 m (pck p k) q) s.lin.pauseQ
  setF { s with lin := { s.lin with pauseQ := m } } (Reg.LIN_PORT_STAT_PAUSED p) new

/-- Violation k of Table 2-5 that a received frame shows counts, but for a port that is DOWN (Table 2-3). -/
def violation (s : State) (p k : Nat) : State := bumpIf (portAdmin s p != 0) s (Reg.LIN_EVT_CNT p k)

/-- One quanta value for the classes of a mask that share it (R51, R56): above QMAX it is ignored and counted, for a suspended class a non-zero value
is ignored and counted, and else it acts. DESIGN CHOICE: a value above QMAX for a suspended class counts as PAUSE_QMAX alone. -/
def quanta (p mask q : Nat) (s : State) : State :=
  if q ≠ 0 ∧ getF s (Reg.LIN_PAUSE_QMAX_QMAX p) < q then violation s p 9
  else if q ≠ 0 ∧ Nat.land (getF s (Reg.LIN_PFC_WD_STAT_SUSPENDED p)) mask ≠ 0 then violation s p 11
  else pauseSet s p mask q

/-- A received MAC control frame (R51): the conditions on destination and opcode, then the quanta of each enabled class. -/
def macControl (s : State) (p : Nat) (b : Bytes) : State :=
  let mode := getF s (Reg.LIN_PORT_CFG_FC_MODE p)
  let op := beAt b 14 2
  if beAt b 0 6 ≠ 0x0180C2000001 || !((mode == 1 && op == 0x0001) || (mode == 2 && op == 0x0101)) then violation s p 8
  else
    let s := perf s (40 + p / 8) 5
    if mode = 1 then quanta p 255 (beAt b 16 2) s
    else (onesOf 8 (byteAt b 17)).foldl (fun a k => quanta p (2 ^ k) (beAt b (18 + 2 * k) 2) a) s

/-- MAC_CONTROL_FRAME (R46, R51): a MAC control frame received on a port, its bytes without FCS. -/
def macControlFrame (p : Fin 160) (b : Bytes) (s : State) : State :=
  if !rxActive s p then s
  else match lineRx s p (b ++ fcs b) with
    | some t => macControl t p b
    | none => s

/-- The command whose effect is `macControlFrame`. -/
def execMacControlFrame (p : Fin 160) (b : Bytes) (s : State) : Out := .next (macControlFrame p b s)

/-- PAUSE_TIMER_EXPIRE (R52): the pause timer of a class runs out, and the class may send again. -/
def pauseTimerExpire (p : Fin 160) (k : Fin 8) (s : State) : State :=
  if bit (getF s (Reg.LIN_PORT_STAT_PAUSED p)) k then pauseSet s p (2 ^ k.val) 0 else s

/-- The command whose effect is `pauseTimerExpire`. -/
def execPauseTimerExpire (p : Fin 160) (k : Fin 8) (s : State) : Out := .next (pauseTimerExpire p k s)

/-- PFC_REFRESH (R54): the port repeats its XOFF frame for the classes that stay in XOFF. -/
def pfcRefresh (p : Fin 160) (s : State) : State := sendXoff s p (getF s (Reg.LIN_PORT_STAT_XOFF p))

/-- The command whose effect is `pfcRefresh`. -/
def execPfcRefresh (p : Fin 160) (s : State) : Out := .next (pfcRefresh p s)

/-- The classes that the watchdog treats as one with class k: all 8 in PAUSE mode (R56). -/
def stormMask (s : State) (p k : Nat) : Nat := if getF s (Reg.LIN_PORT_CFG_FC_MODE p) = 1 then 255 else 2 ^ k

/-- Entry into suspension (R56, R57): the class sends again, its bits and counter are set, and the storm is reported. -/
def stormBegin (s : State) (p k : Nat) : State :=
  let m := stormMask s p k
  let g := p / 8
  let s1 := pauseSet s p m 0
  let s2 := setF s1 (Reg.LIN_PFC_WD_STAT_SUSPENDED p) (Nat.lor (getF s1 (Reg.LIN_PFC_WD_STAT_SUSPENDED p)) m)
  let s3 := setF s2 (Reg.LIN_PFC_WD_STAT_STORM_SEEN p) (Nat.lor (getF s2 (Reg.LIN_PFC_WD_STAT_STORM_SEEN p)) m)
  bump (levelMore s3 (Src.linPfcStorm g) (locSlice 0 g) p) (Reg.LIN_EVT_CNT p 10)

/-- PFC_STORM_RESTORE (R56): a suspended class has received no non-zero quanta for RESTORE_MS and leaves suspension. -/
def pfcStormRestore (p : Fin 160) (k : Fin 8) (s : State) : State :=
  let x := getF s (Reg.LIN_PFC_WD_STAT_SUSPENDED p)
  if !bit x k then s
  else
    let s1 := setF s (Reg.LIN_PFC_WD_STAT_SUSPENDED p) (x - Nat.land x (stormMask s p k))
    let g := p.val / 8
    if (upFrom (8 * g) 8).any (fun q => getF s1 (Reg.LIN_PFC_WD_STAT_SUSPENDED q) != 0) then s1 else levelOff s1 (Src.linPfcStorm g)

/-- The command whose effect is `pfcStormRestore`. -/
def execPfcStormRestore (p : Fin 160) (k : Fin 8) (s : State) : Out := .next (pfcStormRestore p k s)

end Sys2Proof.Machine
end

