-- ==== Sys2Proof/Machine/Tree.lean ====
section
/-! DEFINITION. The egress tree (R237): nodes, parents and the path from a queue to its L4 node. -/

namespace Sys2Proof.Machine

/-- The first index of a level in SCH_TREE and SCH_NODE (Table 9-2). -/
def levelBase (l : Nat) : Nat := match l with | 0 => 0 | 1 => 0x100000 | 2 => 0x140000 | 3 => 0x148000 | _ => 0x149000

/-- The level of a node index. -/
def levelOf (i : Nat) : Nat := if i < 0x100000 then 0 else if i < 0x140000 then 1 else if i < 0x148000 then 2 else if i < 0x149000 then 3 else 4

/-- The node above a node, none at L4 and for an invalid node. -/
def treeParent (s : State) (i : Nat) : Option Nat :=
  if levelOf i = 4 || !tabValid s Tab.schTree i then none
  else some (levelBase (levelOf i + 1) + tabF s Tab.schTree i 1 18)

/-- The path of nodes from a node up to its L4 node, the node itself first; none where it breaks. -/
def pathUp (s : State) : Nat → Nat → Option (List Nat)
  | 0, i => if levelOf i = 4 ∧ tabValid s Tab.schTree i then some [i] else none
  | k + 1, i =>
    if levelOf i = 4 then (if tabValid s Tab.schTree i then some [i] else none)
    else match treeParent s i with
      | some j => (pathUp s k j).map (i :: ·)
      | none => none

/-- The nodes of an egress queue's path, L0 to L4. -/
def queuePath (s : State) (q : Nat) : Option (List Nat) := pathUp s 4 q

/-- The L4 node below which an egress queue hangs, by its number: a line port, or 160 for the host port. -/
def rootOf (s : State) (q : Nat) : Option Nat := (queuePath s q).bind (fun l => l.getLast?.map (· - 0x149000))

/-- The class of the port under which an egress queue is paused and gated. -/
def pclass (s : State) (q : Nat) : Nat := tabF s Tab.schTree q 19 3

end Sys2Proof.Machine
end

