-- ==== Sys2Proof/Machine/LineRx.lean ====
section
/-! DEFINITION. Frames at the receive MAC of a line port (R43 to R46, R58, R63, R64), and the storm watchdog's detection (R56). -/

namespace Sys2Proof.Machine

/-- The receive timestamp of a port: the PTP time plus RX_ADJ in units of 0.0625 ns (R58, R60, Table 2-16). -/
def rxTime (s : State) (p : Nat) : Ptp :=
  Ptp.ofFine ((s.ptp.fine : Int) + signed 16 (getF s (Reg.LIN_PTP_ADJ_RX_ADJ p)) * 2 ^ 28).toNat

/-- The violation of Table 2-5 that a received frame, FCS included, shows. DESIGN CHOICE: one violation a frame, in the order the receiver meets them. -/
def rxViolation (s : State) (p : Nat) (b : Bytes) (preambleOk pcsErr : Bool) : Option Nat :=
  if !preambleOk then some 3
  else if pcsErr then some 4
  else if maxLen s p < b.length then some 1
  else if b.length < 64 then some 0
  else if fcs (b.take (b.length - 4)) != b.drop (b.length - 4) then some 2
  else none

/-- Puts frames or copies at the end of a pipeline's Stair queue (R198). -/
def stairPut (s : State) (n : Nat) (l : List Arrival) : State :=
  { s with qd := { s.qd with stairUp := mput [] s.qd.stairUp n (mget [] s.qd.stairUp n ++ l) } }

/-- Copies on pipeline n's Stair queue. -/
def stairLen (s : State) (n : Nat) : Nat := (mget [] s.qd.stairUp n).length

/-- A slow-protocol frame goes to the host with its receive timestamp, at most 64 in a second (R63, R495). DESIGN CHOICE: the class is the port's own, and the
requester that of its line group. -/
def slowFrame (s : State) (p : Nat) (b : Bytes) : State :=
  let x := thisSecond s (mget (s.tick, 0) s.lin.slow p)
  if 64 ≤ x.2 then bump s (Reg.LIN_EVT_CNT p 12)
  else
    let s1 := { s with lin := { s.lin with slow := mset s.lin.slow p (some (x.1, x.2 + 1)) } }
    let blk : Block := { rx := rxTime s p, reason := 0xF4, noMeta := true, pipe := p / 8, len := b.length + 4 }
    let cls := getF s (Reg.ACT_PORT_DEF_PORT_CLASS p)
    let a : Arrival := { req := p / 8, inPort := p, hdr := hostHdr cls 0 (srcSysOf s p) (rxTime s p), data := hostStored blk b, dest := .sys (hostSys s) }
    if 1024 ≤ stairLen s (p / 8) then bump s1 (Reg.BUF_CNT 9) else stairPut s1 (p / 8) [a]

/-- A good frame by its type and the port's ADMIN (Table 2-3): MAC control acts, slow-protocol frames go to the host, the rest to the pipeline, over the crossing of R421. -/
def rxGood (s : State) (p : Nat) (b : Bytes) : State :=
  let t := beAt b 12 2
  if t = 0x8808 then macControl s p b
  else if portAdmin s p = 0 then s
  else if t = 0x8809 then slowFrame s p b
  else if portAdmin s p = 1 then s
  else
    let s1 := perfAdd (perf s (40 + p / 8) 0) (40 + p / 8) 1 (b.length + 4)
    let (drop, s2) := relockDiscards s1 0
    if drop then s2 else enterPipe s2 (p / 8) { port := p, orig := p, bytes := b, first := b, rx := rxTime s p }

/-- What the receive MAC does with a frame that its lanes bring, FCS included; one that an uncorrectable codeword touches is discarded (R43 to R46, R64, R529, R562). -/
def rxFrame (s : State) (p : Nat) (b : Bytes) (preambleOk pcsErr fecErr : Bool) : State :=
  if flag s (Reg.LIN_PORT_STAT_LOCAL_FAULT p) then s
  else if isolated s (p / 8) then bump s (Reg.FLT_CNT 9)
  else if getF s (Reg.PWR_SLICE_STAT_STATE (p / 8)) == 2 then bump s (Reg.PWR_SLICE_DROP (p / 8))
  else if fecErr then (if portAdmin s p = 0 then s else perf s (40 + p / 8) 4)
  else match rxViolation s p b preambleOk pcsErr with
    | some k => if portAdmin s p = 0 then s else violation (perf s (40 + p / 8) 4) p k
    | none => rxGood s p (b.take (b.length - 4))

/-- LINE_FRAME_RECEIVE (R43 to R46, R58, R63, R64): the receive MAC of port p has taken a frame, its bytes with the FCS, or none when `b` is empty. Since the last such command
`fecCorr` FEC codewords were corrected (Table 21-1) and `fecUnc` were uncorrectable; `fecErr` says that the frame overlaps one of these or of those before. -/
def lineFrameReceive (p : Fin 160) (b : Bytes) (preambleOk pcsErr fecErr : Bool) (fecCorr fecUnc : Nat) (s : State) : State :=
  if !rxActive s p then s
  else
    let s1 := perfAdd s (40 + p.val / 8) 7 fecCorr
    let s2 := if portAdmin s p = 0 then s1 else bumpN s1 (Reg.LIN_EVT_CNT p 5) fecUnc
    if b = [] then s2
    else match lineRx s2 p b with
      | some t => rxFrame t p b preambleOk pcsErr fecErr
      | none => s2

/-- The command whose effect is `lineFrameReceive`. -/
def execLineFrameReceive (p : Fin 160) (b : Bytes) (preambleOk pcsErr fecErr : Bool) (fec : FecWords) (s : State) : Out :=
  match fec with
  | ⟨fecCorr, fecUnc⟩ => .next (lineFrameReceive p b preambleOk pcsErr fecErr fecCorr fecUnc s)

/-- Does a frame of the classes of a mask wait at port p: in staging, on its way there, or in an egress queue (R56)? -/
def waitsAt (s : State) (p mask : Nat) : Bool :=
  let eg (m : NMap (List EgFrame)) : Bool := m.any (fun e => e.2.any (fun f => f.port == p && bit mask f.cls))
  eg s.qd.stage || eg s.qd.stairDown || eg s.qd.egress
    || s.qd.queues.any (fun e => voqSplit s ≤ e.1 && !e.2.descs.isEmpty && bit mask (pclass s e.1) && rootOf s e.1 == some p)

/-- PFC_STORM_DETECT (R56, R57): a class of port p has stayed paused with waiting frames for DETECT_MS. -/
def pfcStormDetect (p : Fin 160) (k : Fin 8) (s : State) : State :=
  let m := stormMask s p k
  let paused := Nat.land (getF s (Reg.LIN_PORT_STAT_PAUSED p)) m != 0
  if getF s (Reg.LIN_PFC_WD_CFG_DETECT_MS p) = 0 || !paused || !rxActive s p || getF s (Reg.LIN_PORT_CFG_FC_MODE p) = 0 then s
  else if waitsAt s p m then stormBegin s p k else s

/-- The command whose effect is `pfcStormDetect`. -/
def execPfcStormDetect (p : Fin 160) (k : Fin 8) (s : State) : Out := .next (pfcStormDetect p k s)

end Sys2Proof.Machine
end

