-- ==== Sys2Proof/Machine/Hall.lean ====
section
/-! DEFINITION. The release of frames from the Hall (R165 to R168), ingress mirror copies (R170, R171), sample records (R173) and replication on FD (R198, R200). -/

namespace Sys2Proof.Machine

/-- A frame cut to a session's TRUNC_LEN, which counts the FCS; 1 to 63 act as 64 (R170, Table 6-15). -/
def truncCopy (s : State) (m : Nat) (b : Bytes) : Bytes :=
  let t := getF s (Reg.ACT_MIR_CFG_TRUNC_LEN m)
  if t = 0 then b else b.take (max 64 t - 4)

/-- The system port to which a session sends its copies, none where the line port does not exist (R170, Table 6-16). -/
def mirDest (s : State) (m : Nat) : Option Nat :=
  let d := getF s (Reg.ACT_MIR_DEST_DEST m)
  if flag s (Reg.ACT_MIR_CFG_REMOTE m) then some d
  else if d < 160 ∧ portPresent s d then some (srcSysOf s d) else none

/-- A mirror copy of session m of a frame: its bytes, the header fields that travel with it (R170), and the signature result of the frame (R101). -/
def mirCopy (s : State) (m sysPort src : Nat) (rxNs sig : Nat) (b : Bytes) : Arrival :=
  let ed := flag s (Reg.ACT_MIR_CFG_REMOTE m) && flag s (Reg.ACT_MIR_EDIT_EDIT_EN m)
  let h : Hdr := { cls := getF s (Reg.ACT_MIR_CFG_CLASS m), editV := ed, editIdx := if ed then getF s (Reg.ACT_MIR_EDIT_EDIT_IDX m) else 0, srcSys := src, rxNs := rxNs }
  { req := 30, inPort := 255, hdr := h, data := truncCopy s m b, dest := .sys sysPort, sig := sig }

/-- Puts a mirror copy on Stair queue `key`, or counts MIRROR_DROP. -/
def mirSend (s : State) (n key m src rxNs sig : Nat) (b : Bytes) : State :=
  match mirDest s m with
  | some d => if 1024 ≤ stairLen s key then bump s (Reg.ACT_CNT n 8) else stairPut s key [mirCopy s m d src rxNs sig b]
  | none => bump s (Reg.ACT_CNT n 8)

/-- The ingress copies of a frame that leaves the Hall (R171); a probe has none (R583). -/
def hallMirrors (s : State) (n port : Nat) (h : HallFrame) : State :=
  let dropped := h.dest == .drop
  (match h.dest with | .probe _ => [] | _ => (inSessions s port h).filter (fun m => !dropped || flag s (Reg.ACT_MIR_CFG_INCL_DROP m))).foldl
    (fun a m => mirSend a n n m (srcSysOf s port) h.hdr.rxNs h.sig h.first) s

/-- The sample record of a frame that leaves the Hall, within ACT_SAMPLE_LIM.RATE in each second (R173). -/
def hallSample (s : State) (n : Nat) (x : HostFrame) : State :=
  let w := mget (0, s.tick) s.ing.bucket (512 + n)
  let y := thisSecond s (w.2, w.1)
  if getF s Reg.ACT_SAMPLE_LIM_RATE ≤ y.2 ∨ 1024 ≤ stairLen s n then bump s (Reg.ACT_CNT n 9)
  else
    let s1 := { s with ing := { s.ing with bucket := mset s.ing.bucket (512 + n) (some (y.2 + 1, y.1)) } }
    stairPut s1 n [{ req := 31, inPort := 255, hdr := {}, data := x.block ++ x.bytes, dest := .drop, smp := some x }]

/-- The requester of a frame that the Hall releases (Table 7-4). -/
def hallReq (n port : Nat) (h : HallFrame) : Nat := if h.recirculated then 29 else if port = 160 then 28 else n

/-- The valid entries of a group's list (R197). -/
def groupList (s : State) (base cnt : Nat) : List Nat :=
  ((upFrom base cnt).filter (tabValid s Tab.mcList)).map (fun i => tabF s Tab.mcList i 0 20)

/-- The system ports of a group's fabric list. -/
def fabList (s : State) (g : Nat) : List Nat :=
  let v := tabRead s Tab.mcGrp g
  (groupList s (bits v 10 20) (bits v 30 11)).map (· % 65536)

/-- A group's mode: shared copy (R200), else native (R198). -/
def groupShared (s : State) (g : Nat) : Bool := bit (tabRead s Tab.mcGrp g) 9

/-- The frame itself goes to the Stair: alone, as one shared copy, or as one native copy for each fabric list entry; it is dropped whole when the Stair queue has
no room (R198, R200). -/
def hallForward (s : State) (n port : Nat) (h : HallFrame) : State :=
  let a : Arrival := { req := hallReq n port h, inPort := port, hdr := h.hdr, data := h.bytes, dest := h.dest }
  let room := 1024 - stairLen s n
  match h.dest with
  | .drop => s
  | .sys _ => if room = 0 then bump s (Reg.BUF_CNT 9) else stairPut s n [a]
  | .probe q => if room = 0 then probeRefused s q else stairPut s n [a]
  | .group g =>
    if groupShared s g then if room = 0 then bump s (Reg.BUF_CNT 9) else stairPut s n [a]
    else if room < bits (tabRead s Tab.mcGrp g) 30 11 then bump s (Reg.BUF_CNT 9)
    else
      let l := fabList s g
      stairPut (perfAdd (bumpN s (Reg.BUF_CNT 14) l.length) 80 5 l.length) n (l.map (fun p => { a with dest := .sys p }))

/-- The first frame that the Hall may release: no earlier frame of its pair is out (R165). -/
def hallPick : List HallEnt → List HallEnt → Option (HallEnt × HallFrame)
  | _, [] => none
  | before, e :: r =>
    match e.frame with
    | some f => if pairOut before e.port e.cls then hallPick (before ++ [e]) r else some (e, f)
    | none => hallPick (before ++ [e]) r

/-- HALL_RELEASE (R165 to R173, R198): the Hall of pipeline n releases one frame toward the Stair, with its copies. -/
def hallRelease (n : Fin 20) (s : State) : State :=
  match hallPick [] (hall s n) with
  | none => s
  | some (e, h) =>
    let s1 := hallPut s n ((hall s n).filter (fun x => x.id != e.id))
    let s2 := hallMirrors (hallForward s1 n e.port h) n e.port h
    match h.smp with
    | some x => hallSample s2 n (if h.dest = .drop then { x with dropped := true, block := patch x.block 238 [byteOf (Nat.lor (byteAt x.block 238) 8)] } else x)
    | none => s2

/-- The command whose effect is `hallRelease`. -/
def execHallRelease (n : Fin 20) (s : State) : Out := .next (hallRelease n s)

end Sys2Proof.Machine
end

