-- ==== Sys2Proof/Machine/Buffers.lean ====
section
/-! DEFINITION. The buffer manager and the congestion manager (chapters 7 and 8): pools and their levels, quotas, charges and placement (R180 to R193), release (R192), the
congestion check (R206 to R214), XOFF and back-pressure (R215 to R219), watermarks (R220 to R224), drop counts (R225), and arrivals (R185, R200, R228). -/

namespace Sys2Proof.Machine

/-! ## Buffers, queues and their sums -/

/-- A queue. -/
def queueOf (s : State) (q : Nat) : Queue := mget {} s.qd.queues q

/-- Stores a queue. -/
def putQueue (s : State) (q : Nat) (x : Queue) : State := { s with qd := { s.qd with queues := mput {} s.qd.queues q x } }

/-- The size of the buffer of a descriptor. -/
def descSize (s : State) (d : Desc) : Nat := match mfind s.qd.bufs d.buf with | some b => bufSize b.k | none => 0

/-- QLEN: the sum of the buffer sizes of the frames queued (R207). -/
def qlen (s : State) (q : Nat) : Nat := ((queueOf s q).descs.map (descSize s)).sum

/-- The bytes of the buffers that satisfy a test. -/
def bufBytes (s : State) (f : Buf → Bool) : Nat := ((s.qd.bufs.filter (fun e => f e.2)).map (fun e => bufSize e.2.k)).sum

/-- SRAM and DRAM bytes charged to a queue, bytes of its own minimum, and of the SRAM Oasis (Table 7-5). A sample record is charged to no queue. -/
def sramBytes (s : State) (q : Nat) : Nat := bufBytes s (fun b => b.q == q && !b.dram && b.charge != 4)
def dramBytes (s : State) (q : Nat) : Nat := bufBytes s (fun b => b.q == q && b.dram)
def gUsed (s : State) (q : Nat) : Nat := bufBytes s (fun b => b.q == q && b.charge == 0)
def oUsed (s : State) (q : Nat) : Nat := bufBytes s (fun b => b.q == q && b.charge == 2)

/-- The bytes of a tenant's minimum in use, of an Oasis, and of a requester in a region. -/
def tenantUsed (s : State) (t : Nat) : Nat := bufBytes s (fun b => b.charge == 1 && b.tenant == t)
def oasisUsed (s : State) (dram : Bool) : Nat := bufBytes s (fun b => b.charge == (if dram then 3 else 2))
def reqUsed (s : State) (r : Nat) (dram : Bool) : Nat := bufBytes s (fun b => b.req == r && b.dram == dram)

/-- Bytes that port p has on this card in class k (R215). -/
def pgUsed (s : State) (p k : Nat) : Nat := bufBytes s (fun b => b.inPort == p && b.hdr.cls == k && (decide (b.req < 20) || b.req == 29))

/-- From-fabric usage of class k (R219). -/
def fabUsed (s : State) (k : Nat) : Nat := bufBytes s (fun b => decide (20 ≤ b.req) && decide (b.req ≤ 27) && b.hdr.cls == k)

/-- Is a DRAM interface in service (Table 11-9)? -/
def diServes (s : State) (i : Nat) : Bool := let x := getF s (Reg.DRC_DI_STAT_STATE i); x == 2 || x == 3 || x == 4

/-- Buffers of class k in use on DRAM interface i, and the buffers it has. -/
def diUsed (s : State) (i k : Nat) : Nat := countIf (fun e => e.2.dram && e.2.di == i && e.2.k == k && !e.2.lost) s.qd.bufs
def diSize (s : State) (i k : Nat) : Nat := getF s (Reg.BUF_DPOOL_CFG_PER_DI k) - mget 0 s.drm.retired (8 * i + k)

/-- The buffers of a pool, and those in use (R183, R184); region 0 is SRAM. -/
def poolSize (s : State) (r k : Nat) : Nat :=
  if r = 0 then getF s (Reg.BUF_SPOOL_CFG_COUNT k) else (((List.range 24).filter (diServes s)).map (fun i => diSize s i k)).sum
def poolUsed (s : State) (r k : Nat) : Nat :=
  countIf (fun e => e.2.k == k && (if r = 0 then !e.2.dram else e.2.dram && !e.2.lost && diServes s e.2.di)) s.qd.bufs

/-- The key of threshold w of a pool. -/
def thKey (r k w : Nat) : Nat := (8 * r + k) * 4 + w

/-- LEVEL of a pool: the highest threshold that is set (R186). -/
def poolLevel (s : State) (r k : Nat) : Nat :=
  if thKey r k 2 ∈ s.qd.thSet then 3 else if thKey r k 1 ∈ s.qd.thSet then 2 else if thKey r k 0 ∈ s.qd.thSet then 1 else 0

/-- Is some SRAM pool at BACKPRESSURE or CRITICAL? -/
def sramPressed (s : State) : Bool := (List.range 8).any (fun k => decide (2 ≤ poolLevel s 0 k))

/-! ## Watermarks -/

/-- The items of a watermark (Table 8-1): its STAT, PEAK and TIME registers. -/
structure Mark where
  stat : Nat
  peak : Nat
  timeLo : Nat
  timeHi : Nat
  kind : Nat
  idx : Nat
  deriving DecidableEq, Repr

/-- The watermark of a pool, and queue monitor m. -/
def poolMark (r k : Nat) : Mark :=
  { stat := Reg.CGM_PWM_STAT r k, peak := Reg.CGM_PWM_PEAK r k, timeLo := Reg.CGM_PWM_TIME_LO r k, timeHi := Reg.CGM_PWM_TIME_HI r k, kind := 0, idx := 8 * r + k }
def queueMark (m : Nat) : Mark :=
  { stat := Reg.CGM_QWM_STAT m, peak := Reg.CGM_QWM_PEAK m, timeLo := Reg.CGM_QWM_TIME_LO m, timeHi := Reg.CGM_QWM_TIME_HI m, kind := 1, idx := m }

/-- LEVEL_NOW, CROSSED and COUNT of a watermark. -/
def Mark.level (m : Mark) : Fld := ⟨m.stat, 0, 1⟩
def Mark.crossed (m : Mark) : Fld := ⟨m.stat, 1, 1⟩
def Mark.count (m : Mark) : Fld := ⟨m.stat, 16, 16⟩

/-- An upward crossing (R221, R222): CROSSED, COUNT and TIME, and the notice of the first one. -/
def markCross (s : State) (m : Mark) : State :=
  let s1 := satBump s m.count
  if flag s m.crossed then s1
  else
    let s2 := wr (wr (setB s1 m.crossed true) m.timeLo (Word.ofNat s.ptp.ns)) m.timeHi (Word.ofNat s.ptp.sec)
    let body := [byteOf m.kind, 0] ++ leBytes 2 m.idx ++ leBytes 4 s.ptp.ns ++ leBytes 6 s.ptp.sec
    if ringRuns s2 0 18 && decide (0 < ringRoom s2 0 18) then hostEvent s2 0 3 body else bump s2 Reg.CGM_NOTICE_LOST

/-- A watermark's level and its peak follow the value watched (R220, R224). -/
def markFollow (s : State) (m : Mark) (lvl : Bool) (val : Nat) : State :=
  let was := flag s m.level
  let s1 := setB s m.level lvl
  let s2 := if (rd s1 m.peak).toNat < val then wr s1 m.peak (Word.ofNat val) else s1
  if lvl && !was then markCross s2 m else s2

/-- The level that a set and clear pair gives (R219, R220): set at or above `hi`, clear below `lo`, else as before; a `hi` of 0 never sets. -/
def hyst (was : Bool) (hi lo val : Nat) : Bool :=
  if hi = 0 then false else if hi ≤ val then true else if val < min lo hi then false else was

/-- The enabled monitors of queue q. -/
def monitorsOf (s : State) (q : Nat) : List Nat :=
  let l := s.regs.filter (fun e => decide (0x1140000 ≤ e.1) && decide (e.1 < 0x1160000) && e.1 % 0x20 == 0)
  (l.map (fun e => (e.1 - 0x1140000) / 0x20)).filter (fun m => flag s (Reg.CGM_QWM_CFG_EN m) && getF s (Reg.CGM_QWM_CFG_QUEUE m) == q)

/-- Queue monitor m evaluates its queue (R220). -/
def monitor (s : State) (m : Nat) : State :=
  let n := qlen s (getF s (Reg.CGM_QWM_CFG_QUEUE m))
  let mk := queueMark m
  let lvl := hyst (flag s mk.level) (getF s (Reg.CGM_QWM_TH_SET m) * 4096) (getF s (Reg.CGM_QWM_TH_CLEAR m) * 4096) n
  markFollow s mk lvl (ceilDiv n 4096)

/-- The monitors of a queue follow its length. -/
def queueMarks (s : State) (q : Nat) : State := (monitorsOf s q).foldl monitor s

/-! ## Pool levels, XOFF and back-pressure -/

/-- One threshold of a pool by its use (R186). -/
def threshold (s : State) (r k w : Nat) : Bool :=
  let u := poolUsed s r k * 1024
  let z := poolSize s r k
  let hi := min 1024 (getF s (Reg.BUF_POOL_TH_SET r k w))
  let lo := min hi (getF s (Reg.BUF_POOL_TH_CLEAR r k w))
  let was := s.qd.thSet.contains (thKey r k w)
  if hi = 0 ∨ z = 0 then false else if hi * z ≤ u then true else if u < lo * z then false else was

/-- Stores one threshold's state. -/
def setThreshold (s : State) (r k w : Nat) : State :=
  let key := thKey r k w
  let l := s.qd.thSet.filter (· != key)
  { s with qd := { s.qd with thSet := if threshold s r k w then key :: l else l } }

/-- A pool's thresholds, watermark and BUF_POOL_CRIT follow its use (R186, R187, R220). -/
def poolFollow (s : State) (r k : Nat) : State :=
  let s1 := setThreshold (setThreshold (setThreshold s r k 0) r k 1) r k 2
  let s2 := markFollow s1 (poolMark r k) (s1.qd.thSet.contains (thKey r k 0)) (poolUsed s1 r k)
  levelIs (poolLevel s2 r k == 3) s2 (Src.poolCrit r k) (locSlice 1 63) 0

/-- Class k of port p by its usage (R216). -/
def pfcFollow (s : State) (p k : Nat) : State :=
  let key := 8 * p + k
  let was := s.qd.pfcHigh.contains key
  let now := hyst was (getF s (Reg.CGM_PFC_TH_XOFF p k) * 1024) (getF s (Reg.CGM_PFC_TH_XON p k) * 1024) (pgUsed s p k)
  let l := s.qd.pfcHigh.filter (· != key)
  { s with qd := { s.qd with pfcHigh := if now then key :: l else l } }

/-- The XOFF state of port p (R216, R217), and the frames that a change sends. -/
def xoffFollow (s : State) (p : Nat) : State :=
  let own := ofOnes ((List.range 8).filter (fun k => s.qd.pfcHigh.contains (8 * p + k)))
  let pool := if sramPressed s then getF s (Reg.CGM_PFC_POOL_CLASS_MASK p) else 0
  xoffChange s p (Nat.lor own pool)

/-- The back-pressure requests (R219). -/
def bkpFollow (s : State) : State :=
  let hi (k : Nat) : Bool := hyst (s.qd.bkpHigh.contains k) (getF s (Reg.CGM_BKP_TH_SET k) * 65536) (getF s (Reg.CGM_BKP_TH_CLEAR k) * 65536) (fabUsed s k)
  let l := (List.range 8).filter hi
  let pool := if sramPressed s then getF s Reg.CGM_BKP_POOL_CLASS_MASK else 0
  setF { s with qd := { s.qd with bkpHigh := l } } Reg.CGM_BKP_STAT_REQ (Nat.lor (ofOnes l) pool)

/-- What follows when buffers of region r and class k, of port p and frame class c, were taken or released. -/
def bufFollow (s : State) (r k p c : Nat) : State :=
  let was := sramPressed s
  let s1 := poolFollow s r k
  let s2 := if p < 160 then pfcFollow s1 p c else s1
  let s3 := if sramPressed s2 != was then (List.range 160).foldl xoffFollow s2 else if p < 160 then xoffFollow s2 p else s2
  bkpFollow s3

/-! ## Drop counts -/

/-- The BUF_CNT counter of a drop reason of Table 8-2, if it has one. -/
def bufCntOf (k : Nat) : Option Nat :=
  match k with | 4 => some 0 | 5 => some 1 | 6 => some 2 | 7 => some 3 | 8 => some 4 | 9 => some 5 | 10 => some 6 | 11 => some 7 | 12 => some 8 | 14 => some 11 | _ => none

/-- A frame or copy of queue q is dropped for reason k of Table 8-2 (R225). -/
def dropCount (s : State) (q k : Nat) : State :=
  let s1 := bump s (Reg.CGM_DROP_CNT (q / 256) k)
  perf (match bufCntOf k with | some j => bump s1 (Reg.BUF_CNT j) | none => s1) 80 2

/-! ## The congestion check -/

/-- The buffer profile and the tenant of a queue (Table 7-5). -/
def qProfile (s : State) (q : Nat) : Nat := tabF s Tab.qacct q 0 8
def qTenant (s : State) (q : Nat) : Nat := tabF s Tab.qacct q 8 8

/-- One average of R208, in 1/65,536 byte. -/
def avgStep (len w avg : Nat) : Nat := ((avg : Int) + ((len * 65536 : Int) - avg) / 2 ^ w).toNat

/-- The averages of a queue at an arrival (R208). -/
def avgUpdate (s : State) (q w : Nat) : State :=
  let x := queueOf s q
  let idle := max 1 (getF s Reg.CGM_WRED_CFG_IDLE_US)
  let a0 := if x.descs = [] ∧ !withinUs s x.emptySince idle then [0, 0, 0] else x.avg
  let n := qlen s q
  putQueue s q { x with avg := (List.range 3).map (fun c => avgStep n (getF s (Reg.CGM_WRED_PRM_W w c)) (a0.getD c 0)) }

/-- The WRED test of R209 to R211: a drop reason, or admission with or without a mark. -/
def wredTest (s : State) (q w c : Nat) : Except Nat Bool × State :=
  let a := (queueOf s q).avg.getD c 0
  let lo := getF s (Reg.CGM_WRED_MIN_MIN_TH w c) * 1024
  let hi := getF s (Reg.CGM_WRED_MAX_MAX_TH w c) * 1024
  if a < lo * 65536 then (.ok false, s)
  else if hi * 65536 ≤ a ∨ hi ≤ lo then (.error 2, s)
  else
    let p := min 256 (getF s (Reg.CGM_WRED_PRM_MAX_P w c)) * 256 * (a - lo * 65536) / ((hi - lo) * 65536)
    let r := Config.wredDraw s.qd.wredGen % 65536
    let s1 := { s with qd := { s.qd with wredGen := Config.wredNext s.qd.wredGen % 2 ^ 32 } }
    if r < p then (if flag s (Reg.CGM_WRED_PRM_ECN_EN w c) then .ok true else .error 1, s1) else (.ok false, s1)

/-- The congestion check of a frame of a colour that takes a buffer of `b` bytes (R206): averages, tail drop, WRED, ECN. -/
def congestion (s : State) (q colour b : Nat) : Except Nat Bool × State :=
  let n := qProfile s q
  let w := getF s (Reg.CGM_QPROF_WRED n)
  let s1 := avgUpdate s q w
  if getF s (Reg.CGM_QLIMIT_LIMIT n) * 4096 < qlen s q + b then (.error 0, s1)
  else if !flag s (Reg.CGM_QPROF_WRED_EN n) then (.ok false, s1)
  else wredTest s1 q w (min 2 colour)

/-! ## Placement -/

/-- Where a buffer goes and what it is charged to (R191). -/
structure Place where
  dram : Bool
  di : Nat
  charge : Nat
  deriving DecidableEq, Repr

/-- The lines of a stored frame with its header (R302). -/
def lineCount (stored : Nat) : Nat := ceilDiv (stored + 16) 64

/-- Places of the write queue of interface i that lines still to come of frames under reassembly will take (R193, R305). -/
def linesOwed (s : State) (i : Nat) : Nat :=
  ((s.qd.bufs.filter (fun e => e.2.dram && e.2.di == i && decide (e.2.data.length < e.2.size))).map (fun e =>
    let done := if e.2.data = [] then 0 else (e.2.data.length + 16) / 64
    lineCount e.2.size - done - countIf (fun x => x.buf == e.1 && x.opened) (mget [] s.drm.wq i))).sum

/-- The next DRAM interface of R193 that can take a frame of `lines` lines and class k. -/
def dramPick (s : State) (k lines : Nat) : Option Nat :=
  ((List.range 24).map (fun j => (s.qd.diNext + j) % 24)).find? (fun i =>
    getF s (Reg.DRC_DI_STAT_STATE i) == 2 && decide (diUsed s i k < diSize s i k)
      && decide ((mget [] s.drm.wq i).length + linesOwed s i + lines ≤ 2048))

/-- The charge of an SRAM buffer of class k for queue q, or the reason of a drop. -/
def chargeSram (s : State) (q k : Nat) : Except Nat Nat :=
  let b := bufSize k
  let n := qProfile s q
  let t := qTenant s q
  if gUsed s q + b ≤ getF s (Reg.BUF_QPROF_MIN_MIN n) * 256 then .ok 0
  else if tenantUsed s t + b ≤ getF s (Reg.BUF_TENANT_MIN_MIN t) * 4096 then .ok 1
  else if poolLevel s 0 k = 3 then .error 8
  else if oUsed s q + b ≤ getF s (Reg.BUF_QPROF_OASIS_OASIS_MAX n) * 4096
      ∧ oasisUsed s false + b ≤ min 131072 (getF s Reg.BUF_OASIS_SRAM_SIZE) * 4096 then .ok 2
  else .error 7

/-- The charge of a DRAM buffer. -/
def chargeDram (s : State) (q k : Nat) : Except Nat Nat :=
  let b := bufSize k
  if poolLevel s 1 k = 3 then .error 8
  else if dramBytes s q + b ≤ getF s (Reg.BUF_QPROF_DRAM_DRAM_MAX (qProfile s q)) * 4096
      ∧ oasisUsed s true + b ≤ getF s Reg.BUF_OASIS_DRAM_SIZE * 4096 then .ok 3
  else .error 7

/-- The quota of a requester in a region, in bytes (R189, Table 7-16). -/
def quotaOf (s : State) (r : Nat) (dram : Bool) : Nat :=
  (if dram then getF s (Reg.BUF_REQ_DRAM_QUOTA r) else min 131072 (getF s (Reg.BUF_REQ_SRAM_QUOTA r))) * 4096

/-- The region of a frame of queue q (R191): the DRAM interface, none for SRAM, or DRAM_BUSY. -/
def region (s : State) (q k lines : Nat) (sramOnly : Bool) : Except Nat (Option Nat) :=
  let n := qProfile s q
  let spilled := (queueOf s q).spilled
  let wants := spilled || (flag s (Reg.BUF_QPROF_SPILL_SPILL_EN n)
    && (decide (getF s (Reg.BUF_QPROF_SPILL_SPILL_TH n) * 4096 < sramBytes s q + bufSize k) || decide (2 ≤ poolLevel s 0 k)))
  if sramOnly || !wants then .ok none
  else match dramPick s k lines with
    | some i => .ok (some i)
    | none => if spilled then .error 9 else .ok none

/-- Quota, charge and pool of a buffer in a chosen region (R191). -/
def placeIn (s : State) (q r k : Nat) (di : Option Nat) : Except Nat Place :=
  let dram := di.isSome
  if quotaOf s r dram < reqUsed s r dram + bufSize k then .error 6
  else match (if dram then chargeDram s q k else chargeSram s q k) with
    | .error e => .error e
    | .ok c =>
      if !dram && decide (poolSize s 0 k ≤ poolUsed s 0 k) then .error 5 else .ok { dram := dram, di := di.getD 0, charge := c }

/-- Placement of a frame of class k and `lines` lines for queue q from requester r (R191, after the congestion check). -/
def placeFor (s : State) (q r k lines : Nat) (sramOnly : Bool) : Except Nat Place :=
  match region s q k lines sramOnly with
  | .error e => .error e
  | .ok di => placeIn s q r k di

/-- The number of write-queue lines of interface i is shown (Table 11-11). -/
def wqPut (s : State) (i : Nat) (l : List WLine) : State :=
  setF { s with drm := { s.drm with wq := mput [] s.drm.wq i l } } (Reg.DRC_DI_STAT_WQ_LINES i) l.length

/-- A buffer is allocated and charged (R191): the handle, and the state with its pool, spill state and counts. `lines` are put in the interface's write queue. -/
def allocate (s : State) (q : Nat) (x : Buf) (lines : List Nat) : Nat × State :=
  let h := s.qd.nextBuf
  let di := if x.dram then (x.di + 1) % 24 else s.qd.diNext
  let (bad, s0) := if x.dram then (false, s) else injUncorr s (qdWord h) 8
  let s1 := { s0 with qd := { s0.qd with bufs := mset s0.qd.bufs h (some { x with bad := bad }), nextBuf := h + 1, diNext := di } }
  let s2 := if !x.dram then perf s1 80 0
    else
      let y := queueOf s1 q
      let a := perf (bump s1 (Reg.BUF_CNT 13)) 80 1
      let b := if y.spilled then a else perf (bump (putQueue a q { y with spilled := true }) (Reg.BUF_CNT 12)) 80 3
      wqPut b x.di (mget [] b.drm.wq x.di ++ lines.map (fun i => { buf := h, line := i, opened := false, rmw := false }))
  (h, bufFollow s2 (b2n x.dram) x.k x.inPort x.hdr.cls)

/-- A descriptor is appended to queue q (R191, R207, R225). -/
def enqueue (s : State) (q : Nat) (d : Desc) (marked : Bool) : State :=
  let x := queueOf s q
  let s1 := bump (putQueue s q { x with descs := x.descs ++ [d] }) (Reg.CGM_DROP_CNT (q / 256) 15)
  queueMarks (bumpIf marked s1 (Reg.CGM_DROP_CNT (q / 256) 3)) q

/-! ## Release -/

/-- A DRAM interface that drains and holds no frames any more is OUT_OF_SERVICE (R322). -/
def diDrained (s : State) (i : Nat) : State :=
  if getF s (Reg.DRC_DI_STAT_STATE i) = 5 ∧ s.qd.bufs.all (fun e => !(e.2.dram && e.2.di == i)) then setF s (Reg.DRC_DI_STAT_STATE i) 7 else s

/-- A reference to a buffer ends; the last one returns its charges, and a queue without DRAM bytes is no longer spilled (R192, R200). -/
def releaseBuf (s : State) (h : Nat) : State :=
  match mfind s.qd.bufs h with
  | none => s
  | some b =>
    if 1 < b.refs then { s with qd := { s.qd with bufs := mset s.qd.bufs h (some { b with refs := b.refs - 1 }) } }
    else
      let s1 := { s with qd := { s.qd with bufs := merase s.qd.bufs h } }
      let x := queueOf s1 b.q
      let s2 := if b.dram && x.spilled && dramBytes s1 b.q == 0 then putQueue s1 b.q { x with spilled := false } else s1
      let s3 := if b.dram then
          let w := wqPut s2 b.di ((mget [] s2.drm.wq b.di).filter (fun l => l.buf != h))
          diDrained { w with drm := { w.drm with store := w.drm.store.filter (fun z => z.1 / 512 != h), reads := w.drm.reads.filter (· != h) } } b.di
        else s2
      bufFollow s3 (b2n b.dram) b.k b.inPort b.hdr.cls

/-- The head of queue q is taken off; an emptied queue remembers since when (R208). -/
def popHead (s : State) (q : Nat) : Option Desc × State :=
  let x := queueOf s q
  match x.descs with
  | [] => (none, s)
  | d :: r => (some d, queueMarks (putQueue s q { x with descs := r, emptySince := if r = [] then s.tick else x.emptySince }) q)

/-- Every frame of queue q is dropped, each counted by `count` (R203, R235, R257). -/
def drainQueue (count : State → State) : Nat → State → Nat → State
  | 0, s, _ => s
  | n + 1, s, q =>
    match popHead s q with
    | (some d, s1) => drainQueue count n (releaseBuf (count s1) d.buf) q
    | (none, _) => s

/-- Drops every frame of a queue. -/
def flushQueue (s : State) (q : Nat) (count : State → State) : State := drainQueue count (queueOf s q).descs.length s q

/-! ## Requests of a VOQ -/

/-- The credit size in bytes (R234). -/
def creditSize (s : State) : Nat := getF s Reg.SCH_CREDIT_CFG_SIZE * 1024

/-- The node that owns a system port (R270). -/
def nodeOf (s : State) (port : Nat) : Nat := port / 2 ^ getF s Reg.FAB_NODE_PORT_SHIFT

/-- A request of `n` credits joins the pending entries of its node (R231, R272), unless the card sends none (R352). -/
def sendRequest (s : State) (port cls n : Nat) : State :=
  if offLine s then s
  else perf { s with fab := { s.fab with request := s.fab.request ++ [{ node := nodeOf s port, port := port, cls := cls, count := n }] } } 81 3

/-- A VOQ that holds frames requests credits while it is short of them and OUT is below REQ_MAX, 1 to 15 at a time (R231). -/
def voqRequest : Nat → State → Nat → State
  | 0, s, _ => s
  | k + 1, s, q =>
    let x := queueOf s q
    let c := creditSize s
    let short : Int := (qlen s q : Int) - x.bal - x.outCr * c
    let lim := max 1 (getF s Reg.SCH_CREDIT_CFG_REQ_MAX)
    if x.descs = [] ∨ c = 0 ∨ short ≤ 0 ∨ lim ≤ x.outCr then s
    else
      let n := min 15 (min (lim - x.outCr) (ceilDiv short.toNat c))
      voqRequest k (sendRequest (putQueue s q { x with outCr := x.outCr + n }) (q / 8) (q % 8) n) q

/-- A VOQ asks for what it needs; an egress queue asks for nothing. -/
def voqAsk (s : State) (q : Nat) : State := if q < voqSplit s then voqRequest 32 s q else s

/-! ## Arrivals -/

/-- The queue of a frame that goes to the VOQ of a system port (R228), none where it has none. -/
def voqOf (s : State) (port cls : Nat) : Option Nat := if port < getF s Reg.SCH_QSPLIT_VOQ_PORTS then some (port * 8 + cls) else none

/-- The egress queue of a frame bound for a local system port (R229, R495), none for EQ_INVALID. -/
def egressQueue (s : State) (port : Nat) (h : Hdr) (edit : Option Nat) : Option Nat :=
  let m := tabGet s Tab.eqmap port
  if !tabValid s Tab.eqmap port then none
  else
    let q := eqmapQueue m h.cls edit
    if q < voqSplit s || !tabValid s Tab.schTree q then none
    else if h.decap = 3 ∧ rootOf s q ≠ some 160 then none
    else some q

/-- A refused copy of a mirror counts MIRROR_DROP (R170), a sample SAMPLE_DROP (R173), by pipeline n. -/
def refusedCopy (s : State) (n req : Nat) : State := if req = 30 then bump s (Reg.ACT_CNT n 8) else if req = 31 then bump s (Reg.ACT_CNT n 9) else s

/-- The line slice below which egress queue q stands, when it takes no arrivals (R562, R565). -/
def shutSlice (s : State) (q : Nat) : Option Nat :=
  match if q < voqSplit s then none else rootOf s q with
  | some p => if p < 160 && (getF s (Reg.PWR_SLICE_STAT_STATE (p / 8)) == 2 || getF s (Reg.PWR_SLICE_STAT_STATE (p / 8)) == 3 || sliceSleeps s (p / 8)) then some (p / 8) else none
  | none => none

/-- An arrival to the egress queue of such a slice is refused as FLUSH, and counts against the slice (R562). -/
def flushArrival (s : State) (q n : Nat) : State := bump (dropCount s q 11) (Reg.PWR_SLICE_DROP n)

/-- One frame or copy for queue q (R191): checked, placed, charged and, unless it is still being reassembled, enqueued. The answer is its buffer. -/
def takeIn (s : State) (q : Nat) (x : Buf) (stored : Nat) (sramOnly : Bool) (lines : List Nat) : Option (Nat × Bool) × State :=
  match shutSlice s q, bufClass stored with
  | some n, _ => (none, flushArrival s q n)
  | none, none => (none, dropCount s q 4)
  | none, some k =>
    match congestion s q x.hdr.colour (bufSize k) with
    | (.error e, s1) => (none, dropCount s1 q e)
    | (.ok mark, s1) =>
      match placeFor s1 q x.req k (lineCount stored) sramOnly with
      | .error e => (none, dropCount s1 q e)
      | .ok p =>
        let y := { x with k := k, dram := p.dram, di := p.di, charge := p.charge, q := q, tenant := qTenant s1 q, hdr := { x.hdr with ce := x.hdr.ce || mark } }
        let (h, s2) := allocate s1 q y (if p.dram then lines else [])
        (some (h, mark), s2)

/-- A buffer record of an arrival before it is placed. -/
def arrivalBuf (a : Arrival) (sysPort : Nat) : Buf :=
  { hdr := a.hdr, data := a.data, req := a.req, inPort := a.inPort, dram := false, k := 0, charge := 0, q := 0, sysPort := sysPort, size := a.data.length }

/-- An arrival for one queue. The answer says whether it was taken. -/
def arriveOne (s : State) (a : Arrival) (q sysPort : Nat) : Bool × State :=
  let n := a.data.length
  match takeIn s q (arrivalBuf a sysPort) n false (List.range (lineCount n)) with
  | (none, s1) => (false, s1)
  | (some (h, mark), s1) => (true, voqAsk (enqueue s1 q { buf := h } mark) q)

/-- The further descriptors of shared buffers in use, beyond the one that every buffer has, and how many there are (R201). -/
def sharedDescs (s : State) : Nat := (s.qd.bufs.map (fun e => if e.2.shared then e.2.refs - 1 else 0)).sum
def descLimit : Nat := 2 ^ 23

/-- A queue takes its descriptor on buffer `h` of a shared copy: the buffer's own, or a further one where one is free (R200, R201). -/
def sharedAttach (s : State) (q : Nat) (nh : Option Nat) (mark : Bool) (h : Nat) : State :=
  let first := match mfind s.qd.bufs h with | some b => b.refs == 0 | none => true
  if !first && decide (descLimit ≤ sharedDescs s) then dropCount s q 14
  else
    let up (b : Buf) : Buf := { b with refs := b.refs + 1, hdr := { b.hdr with ce := b.hdr.ce || mark } }
    let s1 := { s with qd := { s.qd with bufs := match mfind s.qd.bufs h with | some b => mset s.qd.bufs h (some (up b)) | none => s.qd.bufs } }
    voqAsk (perf (bump (enqueue s1 q { buf := h, nh := nh } mark) (Reg.BUF_CNT 15)) 80 4) q

/-- One target of a shared copy of class k (R200): its congestion check, which decides whether the queue accepts, and the charge, which the first accepting queue for
which it succeeds takes. -/
def sharedTarget (x : Buf) (k stored : Nat) (st : State × Option Nat × List Waiting) (t : Nat × Option Nat) : State × Option Nat × List Waiting :=
  let (s, have_, wait) := st
  let (q, nh) := t
  match shutSlice s q with
  | some n => (flushArrival s q n, have_, wait)
  | none =>
    match congestion s q x.hdr.colour (bufSize k) with
    | (.error e, s1) => (dropCount s1 q e, have_, wait)
    | (.ok mark, s1) =>
      match have_ with
      | some h => (s1, some h, wait ++ [{ q := q, nh := nh, mark := mark, reason := 0 }])
      | none =>
        match placeFor s1 q x.req k (lineCount stored) true with
        | .error e => (s1, none, wait ++ [{ q := q, nh := nh, mark := mark, reason := e }])
        | .ok p =>
          let (h, s2) := allocate s1 q { x with k := k, charge := p.charge, q := q, tenant := qTenant s1 q, shared := true, refs := 0 } []
          (s2, some h, wait ++ [{ q := q, nh := nh, mark := mark, reason := 0 }])

/-- The congestion checks and the charge of a shared copy of `stored` bytes for its targets in list order (R200): the buffer, and the accepting queues. A frame that no
buffer holds is dropped for every target. -/
def sharedAdmit (s : State) (x : Buf) (stored : Nat) (targets : List (Nat × Option Nat)) : Option Nat × List Waiting × State :=
  match bufClass stored with
  | none => (none, [], targets.foldl (fun a t => match shutSlice a t.1 with | some n => flushArrival a t.1 n | none => dropCount a t.1 4) s)
  | some k =>
    let (s1, h, l) := targets.foldl (sharedTarget x k stored) (s, none, [])
    (h, l, if h.isSome then s1 else l.foldl (fun a w => dropCount a w.q w.reason) s1)

/-- Every accepting queue takes its descriptor on the buffer, in list order (R200, R201). -/
def sharedPlace (s : State) (h : Nat) (l : List Waiting) : State := l.foldl (fun a w => sharedAttach a w.q w.nh w.mark h) s

/-- The frame of a buffer is complete and stands at the end of a queue that accepted it, or is dropped there as FLUSH when the queue's slice has shut since (R203). -/
def enqueueWhole (s : State) (q : Nat) (d : Desc) (mark : Bool) : State :=
  match shutSlice s q with
  | some n => releaseBuf (flushArrival s q n) d.buf
  | none => enqueue s q d mark

/-- The same for a shared copy that began to arrive earlier: the queues of a slice that has shut since drop it, and a buffer left without a reader is released. -/
def sharedWhole (s : State) (h : Nat) (l : List Waiting) : State :=
  let s1 := l.foldl (fun a w => match shutSlice a w.q with | some n => flushArrival a w.q n | none => sharedAttach a w.q w.nh w.mark h) s
  match mfind s1.qd.bufs h with
  | some b => if b.refs = 0 then releaseBuf s1 h else s1
  | none => s1

/-- A shared-copy frame for its target queues in list order (R200, R201). -/
def arriveShared (s : State) (a : Arrival) (targets : List (Nat × Option Nat)) : State :=
  match sharedAdmit s (arrivalBuf a 65536) a.data.length targets with
  | (some h, l, s1) => sharedPlace s1 h l
  | (none, _, s1) => s1

/-- Why a frame of requester r that stands in no queue and takes an SRAM buffer of class k is refused (R187, R189, R191), as a reason of Table 8-2. -/
def bareRefused (s : State) (r k : Nat) : Option Nat :=
  if quotaOf s r false < reqUsed s r false + bufSize k then some 6
  else if poolLevel s 0 k = 3 then some 8
  else if poolSize s 0 k ≤ poolUsed s 0 k then some 5
  else none

/-- A sample record takes one SRAM buffer of the smallest class that holds it (R189); a refused one counts its reason in BUF_CNT and SAMPLE_DROP. It stands in no
queue, so no queue group counts it. -/
def arriveSample (s : State) (n : Nat) (a : Arrival) (rcd : HostFrame) : State :=
  match bufClass (a.data.length - 16) with
  | none => refusedCopy (bump s (Reg.BUF_CNT 0)) n 31
  | some k =>
    match bareRefused s 31 k with
    | some e => refusedCopy (match bufCntOf e with | some j => bump s (Reg.BUF_CNT j) | none => s) n 31
    | none =>
      let x := { arrivalBuf a 0 with k := k, charge := 4, q := 2 ^ 20 }
      let h := s.qd.nextBuf
      let s1 := { s with qd := { s.qd with bufs := mset s.qd.bufs h (some x), nextBuf := h + 1 } }
      bufFollow { s1 with hif := { s1.hif with queue := s1.hif.queue ++ [{ rcd with buf := h, pipe := n }] } } 0 k 255 0

/-- A probe is admitted to SRAM for requester 28, or refused, counting its reason in BUF_CNT (R583). DESIGN CHOICE: the probe queues are none of the queues that
QACCT names, so its buffer is charged to its requester and pool alone; one whose time has passed takes no buffer. -/
def arriveProbe (s : State) (a : Arrival) (q : Nat) : State :=
  match mfind s.tst.probes q, bufClass a.data.length with
  | some x, some k =>
    match bareRefused s 28 k with
    | some e => probeRefused (match bufCntOf e with | some j => bump s (Reg.BUF_CNT j) | none => s) q
    | none =>
      let h := s.qd.nextBuf
      let b := { arrivalBuf a 0 with k := k, charge := 4, q := 2 ^ 20 }
      let s1 := { s with qd := { s.qd with bufs := mset s.qd.bufs h (some b), nextBuf := h + 1 }, tst := { s.tst with probes := mset s.tst.probes q (some { x with buf := some h }) } }
      bufFollow (perf s1 80 0) 0 k a.inPort 7
  | some _, none => probeRefused (bump s (Reg.BUF_CNT 0)) q
  | none, _ => s

/-- A probe is over, and its buffer is released. -/
def probeEnd (s : State) (q : Nat) (x : Probe) : State :=
  match x.buf with
  | some h => releaseBuf (probeGone s q) h
  | none => probeGone s q

/-- The frame or copy at the head of a lane: the VOQ of its destination, or a shared copy's VOQs (R198, R200, R228). -/
def arrive (s : State) (n : Nat) (a : Arrival) : State :=
  match a.smp with
  | some x => arriveSample s n a x
  | none =>
    match a.dest with
    | .sys p =>
      match voqOf s p a.hdr.cls with
      | none => refusedCopy (bump s (Reg.SCH_CNT 0)) n a.req
      | some q =>
        let (ok, s1) := arriveOne s a q p
        if ok then s1 else refusedCopy s1 n a.req
    | .group g =>
      let ports := fabList s g
      let lost := countIf (fun p => (voqOf s p a.hdr.cls).isNone) ports
      arriveShared (bumpN s (Reg.SCH_CNT 0) lost) a (ports.filterMap (fun p => (voqOf s p a.hdr.cls).map (fun q => (q, none))))
    | .probe q => arriveProbe s a q
    | .drop => s

/-- BUFFER_ARRIVAL (R185, R191, R200, R206, R228): the buffer manager takes the frame or copy at the head of a Stair lane; 0 to 19 are the Hall's queues of the ingress
pipelines, 32 + n the egress mirror copies of EPn. -/
def bufferArrival (lane : Fin 52) (s : State) : State :=
  match mget [] s.qd.arrivals lane.val with
  | [] => s
  | a :: r => arrive { s with qd := { s.qd with arrivals := mput [] s.qd.arrivals lane.val r } } (lane.val % 32) a

/-- The command whose effect is `bufferArrival`. -/
def execBufferArrival (lane : Fin 52) (s : State) : Out := .next (bufferArrival lane s)

/-! ## Watermark commands -/

/-- WM_CROSSED_CLEAR (R223): a write of 1 to CROSSED of pool watermark or queue monitor i. -/
def wmCrossedClear (monitorNotPool : Bool) (i : Nat) (s : State) : State :=
  let m := if monitorNotPool then queueMark (i % 4096) else poolMark (i / 8 % 2) (i % 8)
  if !powered s then s else wr (wr (setF (setB s m.crossed false) m.count 0) m.timeLo 0) m.timeHi 0

/-- The command whose effect is `wmCrossedClear`. -/
def execWmCrossedClear (monitorNotPool : Bool) (i : Nat) (s : State) : Out := .next (wmCrossedClear monitorNotPool i s)

/-- QWM_CONFIG (R223): a write of CGM_QWM_CFG[m] resets every item of the monitor, which then evaluates its queue. -/
def qwmConfig (m : Fin 4096) (v : Nat) (s : State) : State :=
  operWrite s (Reg.CGM_QWM_CFG m) v (fun s =>
    let k := queueMark m
    let s1 := wr (wr (wr (wr s k.stat 0) k.peak 0) k.timeLo 0) k.timeHi 0
    let s2 := wr s1 (Reg.CGM_QWM_CFG m) (Word.ofNat (v % 2 ^ 20 + bits v 31 1 * 2 ^ 31))
    if flag s2 (Reg.CGM_QWM_CFG_EN m) then monitor s2 m else s2)

/-- The command whose effect is `qwmConfig`. -/
def execQwmConfig (m : Fin 4096) (v : Nat) (s : State) : Out := .next (qwmConfig m v s)

end Sys2Proof.Machine
end

