-- ==== Sys2Proof/Machine/Fab.lean ====
section
/-! DEFINITION. Conditions of the fabric interface (chapter 10): lanes, groups and their transmitter states (R260 to R262), RX_OK (R277), signal fail and degrade (R284),
switching requests and the spray set (R285 to R291), and what follows when any of these changes. -/

namespace Sys2Proof.Machine

/-- The key of lane l of group g. -/
def flk (g l : Nat) : Nat := 28 * g + l

/-- A receive lane and a transmit lane. -/
def rxLane (s : State) (g l : Nat) : RxLane := mget {} s.fab.rx (flk g l)
def txLane (s : State) (g l : Nat) : TxLane := mget {} s.fab.tx (flk g l)

/-- Stores a receive lane; FILL shows the frames of its slip buffer (Table 10-19). -/
def putRx (s : State) (g l : Nat) (x : RxLane) : State :=
  setF { s with fab := { s.fab with rx := mput {} s.fab.rx (flk g l) x } } (Reg.FAB_LANE_STAT_FILL g l) x.slip.length

/-- Stores a transmit lane. -/
def putTx (s : State) (g l : Nat) (x : TxLane) : State := { s with fab := { s.fab with tx := mput {} s.fab.tx (flk g l) x } }

/-- Is a lane enabled and in service (R261)? -/
def laneUsable (s : State) (g l : Nat) : Bool := bit (getF s (Reg.FAB_GRP_CFG_LANE_EN g)) l && !flag s (Reg.FAB_LANE_STAT_OOS g l)

/-- Is defect d of Table 10-8 declared on a lane? -/
def defect (s : State) (g l d : Nat) : Bool := bit (getF s (Reg.FAB_LANE_STAT_DEFECT g l)) d

/-- The transmitter state of group g by the conditions of Table 10-1 and R529: 0 DISABLED, 1 IDLE, 2 RUNNING. -/
def fabTxNow (s : State) (g : Nat) : Nat :=
  if s.top != .run || sliceSleeps s (20 + g) then 0 else if offLine s || gapRuns s || isolated s (20 + g) then 1 else 2

/-- Does a receive lane work: it is enabled, and its slice has its logic (R261, R276)? It searches, aligns and takes defects whether its transmitters are DISABLED or not. -/
def laneHears (s : State) (g l : Nat) : Bool := bit (getF s (Reg.FAB_GRP_CFG_LANE_EN g)) l && s.boot.up && !sliceSleeps s (20 + g)

/-- Does link training hold a lane back: it runs or has failed, and LT_EN is 1 (R261)? -/
def laneTrains (s : State) (g l : Nat) : Bool :=
  flag s (Reg.FAB_GRP_CFG_LT_EN g) && (s.fab.training.contains (flk g l) || s.fab.trainFail.contains (flk g l))

/-- Does a lane test of a lane act (R577)? -/
def fabTest (s : State) (g l : Nat) (set_ : State → Nat → Bool) : Bool :=
  testReady s (20 + g) && laneUsable s g l && fabTxNow s g != 0 && set_ s (160 + flk g l)

/-- The loopback that acts on lane l of group g (R577, R580). -/
def fabLoop (s : State) (g l : Nat) : Nat := if fabTest s g l (fun _ _ => true) then loopSet s (160 + flk g l) else 0

/-- A Caravan frame is the last one on the transmit balls of the lane of key k: a fabric lane, or a Gallery lane in group 8. -/
def carvCarry (s : State) (k : Nat) (b : Bytes) : State := { s with fab := { s.fab with sent := mset s.fab.sent k (some b) } }

/-- A Caravan frame leaves the transmitter of the lane of key k: to the balls, to the lane's own receiver, to both, or nowhere, as the loopback has it (R580). -/
def carvTx (s : State) (k loop_ : Nat) (b : Bytes) : State :=
  match loop_ with
  | 0 => carvCarry s k b
  | 1 => loopPut s (160 + k) b
  | 2 => loopPut (carvCarry s k b) (160 + k) b
  | _ => s

/-- A Caravan frame comes to the receiver of the lane of key k, none when a loopback keeps the partner's from it; SERIAL_FAR sends it back (R580). -/
def carvRx (s : State) (k loop_ : Nat) (b : Bytes) : Option State :=
  match loop_ with
  | 0 => some s
  | 3 => some (carvCarry s k b)
  | _ => loopTake s (160 + k) b

/-- What the transmit balls of a fabric or Gallery lane carry (R261, R578, R580). -/
inductive LaneOut where
  | electricalIdle | echo | pattern | training | caravan
  deriving DecidableEq, Repr

/-- RX_OK of a lane (R277); one whose checker acts is not (R579). -/
def rxOk (s : State) (g l : Nat) : Bool :=
  laneUsable s g l && fabTxNow s g != 0 && !fabTest s g l chkSet && !defect s g l 0 && !defect s g l 1 && !defect s g l 2 && !defect s g l 3 && !defect s g l 5

/-- The RX_OK lanes of a group, and its reference lane. -/
def rxOkLanes (s : State) (g : Nat) : List Nat := (List.range 28).filter (rxOk s g)
def refLane (s : State) (g : Nat) : Option Nat := (rxOkLanes s g).head?

/-- The spray set in force, as bits (R289). -/
def spray (s : State) : Nat := getF s Reg.FAB_PROT_STAT_SPRAY

/-- Does a transmit lane take cells (R261, R273, R578)? -/
def laneTakes (s : State) (g l : Nat) : Bool :=
  fabTxNow s g == 2 && bit (spray s) g && laneUsable s g l && !defect s g l 4 && !laneTrains s g l && !fabTest s g l genSet

/-- Is bit k of the vector received on group g in force (R275)? -/
def bkpInForce (s : State) (g k : Nat) : Bool := bit (getF s (Reg.FAB_GRP_BKP_RX_REQ g)) k && !bit (getF s (Reg.FAB_GRP_BKP_BKP_IGN g)) k

/-- Signal fail of a group (R284, Table 20-5), from the end of APPLY. -/
def groupSf (s : State) (g : Nat) : Bool :=
  s.boot.up && (decide ((rxOkLanes s g).length < clamp 1 28 (getF s (Reg.FAB_GRP_THR_SF_LANES g))) || sliceSleeps s (20 + g) || s.flt.hold.any (fun e => e.2 == 20 + g))

/-- Signal degrade of a group (R284). -/
def groupSd (s : State) (g : Nat) : Bool :=
  s.boot.up && !groupSf s g
    && (decide ((rxOkLanes s g).length < max (clamp 1 28 (getF s (Reg.FAB_GRP_THR_SF_LANES g))) (getF s (Reg.FAB_GRP_THR_SD_LANES g)))
      || (rxOkLanes s g).any (fun l => defect s g l 6))

/-! ## Switching requests -/

/-- A switching request: code and plane. -/
abbrev SwReq := Nat × Nat

/-- The spare group, 8 in 8-way load sharing. -/
def spareOf (s : State) : Nat := if flag s Reg.FAB_PROT_CFG_ARCH then 8 else getF s Reg.FAB_PROT_CFG_SPARE

/-- The priority of a request (Table 10-9). -/
def swPrio (s : State) (r : SwReq) : Nat :=
  match r.1 with
  | 12 => 1
  | 10 => 3
  | 8 => if r.2 = spareOf s ∧ r.2 < 8 then 2 else 4
  | 6 => 5
  | 4 => 6
  | 2 => 7
  | 15 => 8
  | _ => 9

/-- The higher of two requests; ties go to the lower plane (R286, R288). -/
def swHigher (s : State) (a b : SwReq) : SwReq :=
  if swPrio s a < swPrio s b then a else if swPrio s b < swPrio s a then b else if a.2 ≤ b.2 then a else b

/-- The requests of the groups' own conditions. -/
def sfSdReqs (s : State) : List SwReq :=
  (List.range 8).flatMap (fun g => if groupSf s g then [(8, g)] else if groupSd s g then [(6, g)] else [])

/-- The local request (R286). -/
def locReq (s : State) : SwReq :=
  let l := (match s.fab.hostReq with | some r => [r] | none => []) ++ sfSdReqs s ++ (match s.fab.wtr with | some w => [(2, w.1)] | none => [])
  l.foldl (swHigher s) (0, 15)

/-- The accepted remote request, NR while ARCH_MM is set (R291); a code that Table 10-9 does not list is NR. -/
def remReq (s : State) : SwReq :=
  let c := getF s ⟨Reg.FAB_PROT_STAT, 8, 4⟩
  if flag s Reg.FAB_PROT_FLAGS_ARCH_MM || swPrio s (c, 16) == 9 then (0, 15)
  else if c = 12 ∨ c = 15 then (c, 15) else (c, getF s ⟨Reg.FAB_PROT_STAT, 12, 4⟩)

/-- The selected request (R288). -/
def selReq (s : State) : SwReq := swHigher s (locReq s) (remReq s)

/-- The spray set that a request selects (R289). -/
def sprayOf (s : State) (r : SwReq) : Nat :=
  let hit := r.1 == 8 || r.1 == 6 || r.1 == 10 || r.1 == 4 || r.1 == 2
  let sp := spareOf s
  ofOnes ((List.range 8).filter (fun g => if g = sp then hit && r.2 != sp && decide (r.2 < 8) else !(hit && r.2 == g)))

/-- BRIDGED of byte 6 (Table 10-2): the working plane whose place the spare takes, or the plane removed; 15 for none. -/
def bridged (s : State) : Nat :=
  let sp := spareOf s
  if sp < 8 && !bit (spray s) sp then 15 else ((List.range 8).find? (fun g => g != sp && !bit (spray s) g)).getD 15

/-- Does a request of higher priority than WTR stand? -/
def wtrEnds (s : State) : Bool :=
  decide (swPrio s (remReq s) < 7) || !(sfSdReqs s).isEmpty || (match s.fab.hostReq with | some r => decide (swPrio s r < 7) | none => false)

/-- The plane on which WTR starts as the state `t` follows `s` (R287): SF or SD of that plane was selected, and nothing stands any more. -/
def wtrStarts (s t : State) : Option Nat :=
  let r := selReq s
  if (r.1 = 8 ∨ r.1 = 6) ∧ (sfSdReqs s).contains r ∧ !wtrEnds t ∧ t.fab.hostReq.isNone ∧ (remReq t).1 = 0 then some r.2 else none

/-- WTR runs or not. -/
def setWtr (s : State) (w : Option (Nat × Nat)) : State := setB { s with fab := { s.fab with wtr := w } } Reg.FAB_PROT_FLAGS_WTR_RUN w.isSome

/-- WTR follows the requests. -/
def wtrFollow (s t : State) : State :=
  match t.fab.wtr with
  | some _ => if wtrEnds t then setWtr t none else t
  | none => match wtrStarts s t with | some p => setWtr t (some (p, t.tick)) | none => t

/-! ## What follows a change of conditions -/

/-- Is a frame of 16 cells idle: every cell of TYPE 0 (R274)? -/
def idleCells (l : List Bytes) : Bool := l.all (fun c => byteAt c 0 / 32 == 0)

/-- The data cells among cells. -/
def dataCells (l : List Bytes) : Nat := countIf (fun c => byteAt c 0 / 32 == 1) l

/-- The key of a group's performance monitoring. -/
def pmGrp (g : Nat) : Nat := 224 + g

/-- A defect or SF falls in the running second of a key (R293). -/
def pmDefect (s : State) (k : Nat) : State :=
  { s with fab := { s.fab with pm := mput {} s.fab.pm k { mget {} s.fab.pm k with defect := true } } }

/-- The slip buffer and the waiting cells of a lane that is not RX_OK are emptied (R277); those of a DISABLED group count as lost (Table 10-1). -/
def laneEmpty (s : State) (g l : Nat) : State :=
  let x := rxLane s g l
  if rxOk s g l then s
  else
    let n := if fabTxNow s g = 0 then (x.slip.map dataCells).sum else 0
    let s1 := if x.slip = [] ∧ x.lastRead = [] ∧ !x.cut then s else putRx (bumpN s (Reg.FAB_LANE_CNT g l 7) n) g l { x with slip := [], lastRead := [], cut := false }
    { s1 with fab := { s1.fab with cells := merase s1.fab.cells (flk g l) } }

/-- Without LT_EN no lane of a group trains (R261). -/
def fabTrainStop (s : State) (g : Nat) : State :=
  let other (k : Nat) : Bool := k / 28 != g
  if flag s (Reg.FAB_GRP_CFG_LT_EN g) then s
  else { s with fab := { s.fab with training := s.fab.training.filter other, trainFail := s.fab.trainFail.filter other } }

/-- A group's transmitters move to the state that its conditions give (R262); link training starts on leaving DISABLED (R261). -/
def fabTxUpdate (s : State) (g : Nat) : State :=
  let old := getF s (Reg.FAB_GRP_STAT_TX_STATE g)
  let new := fabTxNow s g
  if old = new then s
  else
    let s1 := setF s (Reg.FAB_GRP_STAT_TX_STATE g) new
    let mine (k : Nat) : Bool := k / 28 == g
    let f := s1.fab
    if new = 0 then { s1 with fab := { f with training := f.training.filter (fun k => !mine k) },
                              tst := { s1.tst with loop := s1.tst.loop.filter (fun e => !(decide (160 ≤ e.1) && mine (e.1 - 160))) } }
    else if old = 0 && flag s1 (Reg.FAB_GRP_CFG_LT_EN g) then
      let l := ((List.range 28).filter (laneUsable s1 g)).map (flk g)
      { s1 with fab := { f with training := l ++ f.training.filter (fun k => !mine k), trainFail := f.trainFail.filter (fun k => !mine k) } }
    else s1

/-- SF and SD of a group are levels (R284); a second with SF in it is severely errored (R293). -/
def groupLevels (s : State) (g : Nat) : State :=
  let loc := locSlice 1 (20 + g)
  let sf := groupSf s g
  let sd := groupSd s g
  let s0 := if sf && !(mget {} s.fab.pm (pmGrp g)).defect then pmDefect s (pmGrp g) else s
  let s1 := setB (setB s0 (Reg.FAB_GRP_STAT_SF g) sf) (Reg.FAB_GRP_STAT_SD g) sd
  levelIs sd (levelIs sf s1 (Src.fabGrpSf g) loc 0) (Src.fabGrpSd g) loc 0

/-- One group follows its conditions; a group without an RX_OK lane has accepted no SRQ since (Table 10-18). -/
def groupFollow (s : State) (g : Nat) : State :=
  let s1 := groupLevels ((List.range 28).foldl (fun a l => laneEmpty a g l) (fabTxUpdate (fabTrainStop s g) g)) g
  if (refLane s1 g).isNone then setB s1 (Reg.FAB_GRP_SRQ_VALID g) false else s1

/-- What follows on the fabric when the state `t` came after `s`: transmitters, slip buffers, SF and SD of every group, and WTR. -/
def fabFollow (s t : State) : State := wtrFollow s ((List.range 8).foldl groupFollow t)

/-- What follows when only conditions of group g changed. -/
def fabFollowGroup (s t : State) (g : Nat) : State := wtrFollow s (groupFollow t g)

/-- Every transmitter, line and fabric, follows its conditions (R47, R262). -/
def settle (s t : State) : State := fabFollow s (txSettle t)

end Sys2Proof.Machine
end

