-- ==== Sys2Proof/Machine/FabAlign.lean ====
section
/-! DEFINITION. What fabric and Gallery lanes share (R339): alignment (R276), the collection of a trail message (R265), BIP-16 (R267), the cells of a frame and the removal of
idle frames (R278), the period of idle frames (R274). -/

namespace Sys2Proof.Machine

/-! ## Alignment -/

/-- Frame alignment of a lane after a frame whose FAS was found or not (R276): in frame after two in a row, out of it after four misses or a loss of FEC alignment. -/
def alignFas (x : RxLane) (fas lost : Bool) : RxLane :=
  if lost then { x with inFrame := false, fasRun := 0, inMf := false, mfRun := 0, trail := none }
  else if x.inFrame then
    if fas then { x with fasRun := 0 }
    else if 3 ≤ x.fasRun then { x with inFrame := false, fasRun := 0, inMf := false, mfRun := 0, trail := none }
    else { x with fasRun := x.fasRun + 1 }
  else if !fas then { x with fasRun := 0 }
  else if 1 ≤ x.fasRun then { x with inFrame := true, fasRun := 0 }
  else { x with fasRun := 1 }

/-- Multiframe alignment after a frame with MFAS `m` (R276): in after two that go on, out after five that do not. -/
def alignMf (x : RxLane) (m : Nat) : RxLane :=
  let goesOn := m == (x.mfas + 1) % 256
  let y := { x with mfas := m }
  if !y.inFrame then { y with inMf := false, mfRun := 0 }
  else if y.inMf then
    if goesOn then { y with mfRun := 0 } else if 4 ≤ y.mfRun then { y with inMf := false, mfRun := 0 } else { y with mfRun := y.mfRun + 1 }
  else if !goesOn then { y with mfRun := 0 }
  else if 1 ≤ y.mfRun then { y with inMf := true, mfRun := 0 }
  else { y with mfRun := 1 }

/-- The TRAIL byte joins the message of its multiframe; a break leaves none until the next one begins (R265). -/
def trailTake (x : RxLane) (m : Nat) (b : Byte) (unbroken : Bool) : RxLane :=
  if m = 0 then { x with trail := some [b] }
  else match x.trail with
    | some t => { x with trail := if unbroken ∧ t.length = m then some (t ++ [b]) else none }
    | none => x

/-- BIP-16 of a frame (R267). -/
def bip16 : Bytes → Nat
  | a :: b :: r => Nat.xor (a.toNat * 256 + b.toNat) (bip16 r)
  | [a] => a.toNat * 256
  | [] => 0

/-- The 16 cells of a frame. -/
def frameCells (b : Bytes) : List Bytes := (List.range 16).map (fun c => slice b (16 + 256 * c) 256)

/-- Removes the oldest idle frame. -/
def dropIdle : List (List Bytes) → List (List Bytes)
  | [] => []
  | f :: r => if idleCells f then r else f :: dropIdle r

/-- IDLE_PERIOD within its limits (R274). -/
def idlePeriod (s : State) : Nat := clamp 256 8192 (getF s Reg.FAB_TX_CFG_IDLE_PERIOD)

end Sys2Proof.Machine
end

