-- ==== Sys2Proof/Machine/GalLane.lean ====
section
/-! DEFINITION. The Gallery lanes (R338 to R341): when they run and are RX_OK, the frames that they send and take, the cells on them, and what the pair's levels and GALLERY_UP
follow (R340, R350, R355). -/

namespace Sys2Proof.Machine

/-! ## Conditions of a lane -/

/-- The places of reports of the Landing interface, in the always-on island, and of the Gallery link, in QD (Table 24-1). -/
def landingLoc : Nat := locSlice 0 63
def galLoc : Nat := locSlice 1 63

/-- Does the Gallery link run (R327, R338): in pair mode, from BRINGUP onwards? -/
def galRuns (s : State) : Bool := pairMode s && operOpen s && s.boot.up

/-- Does Gallery lane l run: it is enabled, has been calibrated and trained, and is in service (R327, R338)? -/
def galUsable (s : State) (l : Nat) : Bool :=
  galRuns s && bit (getF s Reg.PAIR_CFG_GAL_LANE_EN) l && s.pair.galUp.contains l && !s.pair.galOos.contains l

/-- Does a lane test of Gallery lane l act (R577)? -/
def galTest (s : State) (l : Nat) (set_ : State → Nat → Bool) : Bool := s.top == .run && galUsable s l && set_ s (384 + l)

/-- The loopback that acts on Gallery lane l (R577, R580). -/
def galLoop (s : State) (l : Nat) : Nat := if galTest s l (fun _ _ => true) then loopSet s (384 + l) else 0

/-- What the transmit balls of Gallery lane l carry (R338, R578, R580). -/
def galOut (s : State) (l : Nat) : LaneOut :=
  if !galUsable s l || galLoop s l == 1 then .electricalIdle
  else if galLoop s l == 3 then .echo
  else if galTest s l genSet then .pattern
  else .caravan

/-- Is defect d, 0 LOS, 1 LOF, 2 LOM, 3 TIM, declared on Gallery lane l (R339)? -/
def galDefect (s : State) (l d : Nat) : Bool := bit (mget 0 s.pair.galStat l) d

/-- RX_OK of a Gallery lane (R277, R339, R579). -/
def galRxOk (s : State) (l : Nat) : Bool := galUsable s l && !galTest s l chkSet && mget 0 s.pair.galStat l == 0

/-- The Gallery lanes that are RX_OK (PAIR_STAT.GAL_LANES). -/
def galLanes (s : State) : List Nat := (List.range 4).filter (galRxOk s)

/-- The receive state of Gallery lane l is kept beside that of the fabric lanes. -/
def galRx (s : State) (l : Nat) : RxLane := rxLane s 8 l
def galPut (s : State) (l : Nat) (x : RxLane) : State := { s with fab := { s.fab with rx := mput {} s.fab.rx (flk 8 l) x } }

/-- Does a Gallery lane take cells (R340, R578)? -/
def galTakes (s : State) (l : Nat) : Bool := galRxOk s l && !(galRx s l).rdi && !galTest s l genSet

/-! ## Levels of the pair -/

/-- The level sources that follow role, lease, SYNC, STALE, DIGEST_MM and DUAL_ACTIVE (Table 20-2). -/
def pairShow (s : State) : State :=
  let dual := role s == 1 && getF s Reg.PAIR_STAT_PARTNER_ROLE == 1
  let s1 := levelIs (role s == 1 && !flag s Reg.PAIR_STAT_LEASE_VALID) s Src.leaseExp landingLoc 0
  let s2 := levelIs (role s == 2 && !flag s Reg.PAIR_STAT_SYNC) s1 Src.unsync galLoc 0
  let s3 := levelIs (flag s Reg.PAIR_STAT_STALE) s2 Src.stale galLoc 0
  let s4 := levelIs (flag s Reg.PAIR_STAT_DIGEST_MM) s3 Src.digestMm galLoc 0
  levelIs dual (setB s4 Reg.PAIR_STAT_DUAL_ACTIVE dual) Src.dualActive galLoc 0

/-- Is the partner, by its last HELLO, in role r while GALLERY_UP is 1? -/
def partnerIs (s : State) (r : Nat) : Bool := flag s Reg.PAIR_STAT_GALLERY_UP && getF s Reg.PAIR_STAT_PARTNER_ROLE == r

/-- The SEQ of the next cell of a stream is used (Table 12-6). -/
def galSeqNext (s : State) (k : Nat) : State := { s with pair := { s.pair with galSeq := mput 0 s.pair.galSeq k ((mget 0 s.pair.galSeq k + 1) % 2 ^ 32) } }

/-- A CONTROL cell waits for the link: 1 and the fields of a HELLO, 2 with the stream and the SEQ that a NACK names, 3 for a RESYNC request (Table 12-7). -/
def galControl (s : State) (body : List Nat) : State :=
  let c : GalCell := { stream := 1, seq := mget 0 s.pair.galSeq 1, body := body }
  galSeqNext { s with pair := { s.pair with galTx := mput [] s.pair.galTx 1 (mget [] s.pair.galTx 1 ++ [c]) } } 1

/-- The active card begins to send REPLAY (R351): the delta stream goes on from the next SEQ afterwards. -/
def replayStart (s : State) : State :=
  let q := getF s Reg.PAIR_SEQ_TX_SEQ
  setB { s with pair := { s.pair with acked := q, sentTop := q, nextSend := cmdAfter q, galTx := (mput [] (mput [] (mput [] s.pair.galTx 3 []) 4 []) 5 []), galSeq := mput 0 s.pair.galSeq 4 0, replayReg := 0, replayFrom := [] } } Reg.PAIR_STAT_RESYNC_RUN true

/-- A standby card whose link is up and whose partner is ACTIVE resynchronises (R350): it asks for it in CONTROL. -/
def resyncAsk (s : State) : State :=
  if role s == 2 && partnerIs s 1 && !flag s Reg.PAIR_STAT_SYNC && !flag s Reg.PAIR_STAT_RESYNC_RUN then galControl { setB s Reg.PAIR_STAT_RESYNC_RUN true with pair := { s.pair with replayAt := 0, replayHeld := [] } } [3] else s

/-- SYNC falls to 0 on a standby (R350). -/
def syncLost (s : State) : State := if role s == 2 then resyncAsk (pairShow (setB (setB s Reg.PAIR_STAT_SYNC false) Reg.PAIR_STAT_RESYNC_RUN false)) else s

/-- GALLERY_UP rises (R340, Table 12-10). -/
def galRise (s : State) : State :=
  let s1 := levelOff (setB s Reg.PAIR_STAT_GALLERY_UP true) Src.galleryLost
  resyncAsk (if role s == 1 && partnerIs s1 2 then replayStart s1 else s1)

/-- GALLERY_UP falls (R340, R350, Table 12-10): the mirror stream stops. -/
def galFall (s : State) : State :=
  let s1 := levelOn (setB (setB s Reg.PAIR_STAT_GALLERY_UP false) Reg.PAIR_STAT_RESYNC_RUN false) Src.galleryLost galLoc 0
  syncLost { s1 with pair := { s1.pair with galTx := [] } }

/-- The slip buffer of a Gallery lane that is not RX_OK is emptied (R277). -/
def galEmpty (s : State) (l : Nat) : State := if galRxOk s l then s else galPut s l { galRx s l with slip := [], lastRead := [], cut := false }

/-- What follows when conditions of the Gallery link have changed: slip buffers and GALLERY_UP (R340). -/
def galFollow (s : State) : State :=
  let s1 := (List.range 4).foldl galEmpty s
  let up := !(galLanes s).isEmpty && s.pair.helloFresh
  if up == flag s Reg.PAIR_STAT_GALLERY_UP then s1 else if up then galRise s1 else galFall s1

/-! ## Cells -/

/-- The 256 bytes of a Gallery cell (Table 12-6), the `k`-th of its item. -/
def galCellBytes (c : GalCell) (k : Nat) : Bytes :=
  let p := (if c.stream = 0 then [] else Config.galPayload c.stream c.body k).take 240
  let h := beBytes 14 (c.stream % 16 * 2 ^ 108 + b2n c.first * 2 ^ 107 + b2n c.last * 2 ^ 106 + c.seq % 2 ^ 32 * 2 ^ 72 + p.length * 2 ^ 64 + c.func % 256 * 2 ^ 56 + c.status % 256 * 2 ^ 48)
  let b := fit 240 p
  h ++ beBytes 2 (crc16 (h ++ b)) ++ b

/-- The numbers of a CMD item (R342): opcode, table, sub-selector and operands of a table command; offset and data of a register write. -/
def itemBody (x : CmdItem) : List Nat :=
  match x with
  | .reg _ a v => [0, a, v]
  | .table c _ => [1, c.opcode, c.table, c.sub] ++ c.opnd.map (·.toNat)

/-- The cells of CMD item q (R342): one, or two for a command of four ring entries. -/
def cmdCells (q : Nat) (x : CmdItem) : List GalCell :=
  match x with
  | .reg f _ _ => [{ stream := 2, seq := q, func := f, body := itemBody x }]
  | .table c st =>
    let one : GalCell := { stream := 2, seq := q, func := c.fn, status := st, body := itemBody x }
    if 168 < c.opnd.length then [{ one with last := false }, { one with first := false }] else [one]

/-- What a card may send next in a Gallery slot, and the state with it taken (Table 12-7): CONTROL, CMD, STATE within its share, REPLAY, BASELINE, FAULT. -/
structure GalPick where
  cell : GalCell := { stream := 0, seq := 0, first := false, last := false }
  s : State

/-- The first waiting cell of a stream. -/
def galTake (s : State) (k : Nat) : Option GalPick :=
  match mget [] s.pair.galTx k with
  | c :: r => some { cell := c, s := { s with pair := { s.pair with galTx := mput [] s.pair.galTx k r } } }
  | [] => none

/-- Is a CMD item outstanding that is to be sent (R342)? -/
def cmdWaits (s : State) : Bool := role s == 1 && partnerIs s 2 && s.pair.nextSend != cmdAfter (getF s Reg.PAIR_SEQ_TX_SEQ)

/-- `n` cells of item q are sent: the SEQ after which no item has been sent yet moves up, or each cell sent again counts GAL_RETX (Table 12-11). -/
def cmdSent (s : State) (q n : Nat) : State :=
  let ahead := (q + 2 ^ 32 - s.pair.sentTop) % 2 ^ 32
  if ahead = 0 ∨ 2 ^ 31 ≤ ahead then report (bumpN s (Reg.PAIR_CNT 9) n) Src.gallery galLoc 0 else { s with pair := { s.pair with sentTop := q } }

/-- The next CMD cell: the second cell of an item waits in the stream; else the first cell of the next item that the replay buffer holds. -/
def cmdNext (s : State) : Option GalPick :=
  let q := s.pair.nextSend
  let item : Option GalPick :=
    match (mfind s.pair.replay q).map (cmdCells q) with
    | some (c :: rest) =>
      some { cell := c, s := cmdSent { s with pair := { s.pair with nextSend := cmdAfter q, galTx := mput [] s.pair.galTx 2 rest } } q (rest.length + 1) }
    | _ => none
  (galTake s 2).orElse (fun _ => if cmdWaits s then item else none)

/-- What REPLAY sends of region r (R351): the entries of a table that CMD mirrors, policers with their state, LPM as routes, static MAC entries alone, both banks of the pattern store with their profiles, or
the mirrored registers; each item as the numbers that say what it is. -/
def regionItems (s : State) (r : Nat) : List (List Nat) :=
  if r = 24 then s.sig.pats.map (fun e => [0, e.1, b2n e.2.valid, e.2.len, e.2.cls, b2n e.2.nocase] ++ e.2.bytes.map (·.toNat)) ++ s.sig.profs.map (fun e => [1, e.1, e.2])
  else if r = 25 then (s.regs.filter (fun e => mirroredReg e.1)).map (fun e => [e.1, e.2.toNat])
  else if r = Tab.lpm4 then s.tab.lpm4.map (fun e => [e.1, e.2])
  else if r = Tab.lpm6 then s.tab.lpm6.map (fun e => [e.1, e.2])
  else if r = Tab.host then s.tab.host.map (fun e => [e.1, e.2.typ, e.2.vrf, e.2.src, e.2.dst, e.2.result])
  else if r = Tab.mac then (s.tab.mac.filter (fun e => e.2.isStatic)).map (fun e => [e.1, e.2.bd, e.2.mac, e.2.result])
  else if r = Tab.schTree then []
  else (s.tab.direct.filter (fun e => e.1 / 2 ^ 24 == r)).map (fun e => [0, e.1, e.2]) ++ (if r = Tab.policer then s.tab.polRem.map (fun e => [1, e.1, e.2.1, e.2.2]) else [])

/-- The cells of region r, formed at one instant (R351). -/
def regionCells (s : State) (r : Nat) : List GalCell := (regionItems s r).zipIdx.map (fun e => { stream := 4, seq := (mget 0 s.pair.galSeq 4 + e.2) % 2 ^ 32, body := e.1 })

/-- REPLAY turns to the next region that holds anything. -/
def regionBegin (s : State) : State :=
  match (upFrom s.pair.replayReg (26 - s.pair.replayReg)).find? (fun r => regionItems s r != []) with
  | none => s
  | some r =>
    let l := regionCells s r
    let q := mget 0 s.pair.galSeq 4
    { s with pair := { s.pair with galTx := mput [] s.pair.galTx 4 l, galSeq := mput 0 s.pair.galSeq 4 ((q + l.length) % 2 ^ 32), replayReg := r + 1, replayFrom := mset s.pair.replayFrom r (some q) } }

/-- REPLAY fills slots while a resynchronisation runs on the active card (R351). -/
def replayNext (s : State) : Option GalPick :=
  if role s == 1 && flag s Reg.PAIR_STAT_RESYNC_RUN then (galTake s 4).orElse (fun _ => galTake (regionBegin s) 4) else none

/-- Up to 7 fault records go in a FAULT cell; those that waited more than 1 ms are lost (R538). -/
def faultNext (s : State) : Option GalPick :=
  let late := s.flt.gallery.filter (fun e => decide (e.1 + 1000 * ticksPerUs < s.tick))
  let rest := s.flt.gallery.filter (fun e => !decide (e.1 + 1000 * ticksPerUs < s.tick))
  let s1 := bumpN { s with flt := { s.flt with gallery := rest.drop 7 } } (Reg.FLT_CNT 6) late.length
  if rest.isEmpty then (if late.isEmpty then none else some { s := s1 }) else some { cell := { stream := 6, seq := mget 0 s.pair.galSeq 6, body := (rest.take 7).flatMap (fun e => e.2.map (·.toNat)) }, s := galSeqNext s1 6 }

/-- The next cell for a slot of a card that is WITHDRAWN: it runs its CONTROL stream only (Table 12-1). -/
def controlNext (s : State) : GalPick := (galTake s 1).getD { s := s }

/-- The next cell for a slot; `st` STATE cells are in the frame period so far, of `half` slots. -/
def galNext (s : State) (st half : Nat) : GalPick :=
  let cmdOrReplay := cmdWaits s || (role s == 1 && flag s Reg.PAIR_STAT_RESYNC_RUN)
  let first := galTake s 1
  let state := if cmdOrReplay && decide (half ≤ st) then none else galTake s 3
  (first.orElse (fun _ => (cmdNext s).orElse (fun _ => state.orElse (fun _ => (replayNext s).orElse (fun _ => (galTake s 5).orElse (fun _ => faultNext s)))))).getD { s := s }

/-! ## Sending -/

/-- What has been placed in a frame period: cells by lane, and STATE cells so far. -/
structure GalFill where
  s : State
  cells : NMap (List Bytes) := []
  state : Nat := 0

/-- One slot of lane l. -/
def galSlot (half : Nat) (x : GalFill) (l : Nat) : GalFill :=
  let p := if role x.s == 3 then controlNext x.s else galNext x.s x.state half
  let c := p.cell
  { s := if c.stream = 0 then p.s else perf { p.s with pair := { p.s.pair with galAt := (l + 1) % 4 } } 84 4
    cells := mset x.cells l (some (mget [] x.cells l ++ [galCellBytes c (b2n (!c.first))]))
    state := x.state + b2n (c.stream == 3) }

/-- Byte m of the trail message of Gallery lane l (Table 12-5). -/
def galTrail (s : State) (l m : Nat) : Byte :=
  let b := fit 255 ([0x02] ++ beBytes 8 s.otp.serial ++ beBytes 2 (getF s Reg.FAB_NODE_ID) ++ [byteOf (role s), byteOf l, byteOf (getF s Reg.PAIR_CFG_CARD_ID)])
  (b ++ [byteOf (crc8 b)]).getD m 0

/-- The 16 overhead bytes of a Gallery frame (R339): SRQ bytes 0, ACK_SEQ in bytes 10 to 13. -/
def galOverhead (s : State) (l : Nat) : Bytes :=
  let m := mget 0 s.fab.mfas 8
  let rdi := mget 0 s.pair.galStat l != 0
  [0xA7, 0x5C, 0x3E, byteOf m, galTrail s l m, 0, 0, byteOf (b2n rdi * 128 + min 15 (galRx s l).bei)] ++ beBytes 2 (txLane s 8 l).bip ++ beBytes 4 s.pair.rxSeq ++ [0, 0]

/-- A Gallery lane sends a frame of the given cells. -/
def galLaneFrame (s : State) (cells : NMap (List Bytes)) (l : Nat) : State :=
  if !galUsable s l || galTest s l genSet then s
  else
    let idle := galCellBytes { stream := 0, seq := 0, first := false, last := false } 0
    let b := galOverhead s l ++ ((mget [] cells l ++ List.replicate 16 idle).take 16).flatten
    let t := txLane s 8 l
    let s1 := putTx s 8 l { bip := bip16 b, since := if idlePeriod s ≤ t.since then 0 else t.since + 1 }
    carvTx s1 (flk 8 l) (galLoop s l) b

/-- One frame period of the Gallery link (R338, R340, R341): every lane in service begins a frame, and the cells that wait are sprayed over the lanes that take them. -/
def galFrameSend (s : State) : State :=
  if !galRuns s then s
  else
    let lanes := (List.range 4).filter (fun l => galTakes s l && decide ((txLane s 8 l).since < idlePeriod s))
    let order := lanes.filter (fun l => decide (s.pair.galAt ≤ l)) ++ lanes.filter (fun l => decide (l < s.pair.galAt))
    let x := (List.range 16).foldl (fun y _ => order.foldl (galSlot (8 * order.length)) y) { s := s }
    let s1 := (List.range 4).foldl (fun a l => galLaneFrame a x.cells l) x.s
    { s1 with fab := { s1.fab with mfas := mput 0 s1.fab.mfas 8 ((mget 0 s1.fab.mfas 8 + 1) % 256) } }

/-! ## Receiving -/

/-- A trail message of Gallery lane l is complete (R339): the partner's serial, and whether node or lane mismatch. -/
def galTrailDone (s : State) (l : Nat) (x : RxLane) (t : Bytes) : State × RxLane :=
  if crc8 (t.take 255) ≠ byteAt t 255 then (s, x)
  else
    let bad := beAt t 9 2 != getF s Reg.FAB_NODE_ID || byteAt t 12 % 4 != l
    (wrPair s Reg.PAIR_PSERIAL_LO Reg.PAIR_PSERIAL_HI (beAt t 1 8), { x with timBad := bad, timRun := if bad = x.timBad then x.timRun + 1 else 1 })

/-- ACK_SEQ arrives at the active card (R342): it moves up to a SEQ that has been given. -/
def ackTake (s : State) (q : Nat) : State :=
  let gone := (q + 2 ^ 32 - s.pair.acked) % 2 ^ 32
  if role s == 1 && decide (gone ≤ (getF s Reg.PAIR_SEQ_TX_SEQ + 2 ^ 32 - s.pair.acked) % 2 ^ 32) then { s with pair := { s.pair with acked := q } } else s

/-- The overhead of a frame received in frame on a Gallery lane. `was` says that the lane was in frame before it. -/
def galOverheadReceive (s : State) (l : Nat) (x : RxLane) (b : Bytes) (was goesOn : Bool) : State :=
  let wrong := match x.bip with | some p => if was then popCount 16 (Nat.xor p (beAt b 8 2)) else 0 | none => 0
  let y := trailTake { x with bei := min 15 wrong, rdi := bit (byteAt b 7) 7 } (byteAt b 3) (b.getD 4 0) goesOn
  let (s1, z) := match y.trail with
    | some t => if t.length = 256 then galTrailDone s l { y with trail := none } t else (s, y)
    | none => (s, y)
  let s2 := galPut s1 l { z with bip := some (bip16 b) }
  if galRxOk s2 l then ackTake s2 (beAt b 10 4) else s2

/-- A received Gallery cell is checked (R341, Table 12-11): its CRC-16, its stream, and whether this card may receive the stream. What it carries is a command of its own. -/
def galCellTake (s : State) (b : Bytes) : State :=
  let k := byteAt b 0 / 16
  if crc16 (b.take 14 ++ b.drop 16) ≠ beAt b 14 2 then report (bump s (Reg.PAIR_CNT 6)) Src.gallery galLoc 0
  else if k = 0 then s
  else
    let s1 := perf s 84 5
    if 7 ≤ k ∨ (2 ≤ k ∧ k ≤ 5 ∧ role s ≠ 2) then report (bump s1 (Reg.PAIR_CNT 7)) Src.gallery galLoc 0 else s1

/-- Is a frame of cells idle? -/
def galIdle (l : List Bytes) : Bool := l.all (fun c => byteAt c 0 / 16 == 0)

/-- A frame is read from a Gallery lane's slip buffer. -/
def galGive (s : State) (l : Nat) (x : RxLane) (f : List Bytes) : State := f.foldl galCellTake (galPut s l { x with lastRead := f })

/-- A frame enters the slip buffer of a Gallery lane that is RX_OK, or goes on at once where it has been read while it was written (R278, R339). -/
def galWrite (s : State) (l : Nat) (f : List Bytes) : State :=
  let x := galRx s l
  if !galRxOk s l then s
  else if x.cut then galGive s l { x with cut := false } f
  else if 4 ≤ x.slip.length then s
  else galPut s l { x with slip := x.slip ++ [f] }

/-- A frame comes to the decoder of Gallery lane l (R276, R339). -/
def galFrameTake (l : Nat) (frame : Bytes) (fecLost : Bool) (s : State) : State :=
  let x := galRx s l
  let m := byteAt frame 3
  let goesOn := m == (x.mfas + 1) % 256
  let y := alignMf (alignFas x (beAt frame 0 3 == 0xA75C3E) fecLost) m
  if !y.inFrame then galPut s l { y with bip := some (bip16 frame) }
  else
    let s1 := galOverheadReceive (galPut s l y) l y frame x.inFrame (goesOn && x.inFrame)
    galWrite s1 l (frameCells frame)

/-- A Gallery lane takes a frame of 4,112 bytes (R339). -/
def galFrameReceive (l : Nat) (frame : Bytes) (fecLost : Bool) (s : State) : State :=
  if !galUsable s l || frame.length ≠ 4112 then s
  else match carvRx s (flk 8 l) (galLoop s l) frame with
    | none => s
    | some t => galFrameTake l frame fecLost t

/-- The oldest frame is read, if there is one. -/
def galOldest (s : State) (l : Nat) (x : RxLane) : State :=
  match x.slip with
  | f :: r => galGive s l { x with slip := r } f
  | [] => galPut s l { x with cut := true }

/-- A read boundary of a Gallery lane's slip buffer (R278, R339), by the rules of Table 10-7 in their order. -/
def galSlipRead (l : Nat) (part : Bool) (s : State) : State :=
  let x := galRx s l
  let idle := x.slip.any galIdle
  if !galRxOk s l then s
  else if 4 ≤ x.slip.length ∧ !idle then galOldest s l { x with slip := x.slip.drop 1 }
  else if 3 ≤ x.slip.length ∧ idle then galOldest s l { x with slip := x.slip.eraseP galIdle }
  else if x.slip.length + b2n part ≤ 1 ∧ (x.lastRead ≠ [] ∧ (galIdle x.lastRead ∨ (x.slip = [] ∧ !part))) then galGive s l x x.lastRead
  else if x.slip = [] ∧ !part then s
  else galOldest s l x

/-! ## Defects -/

/-- Is a defect's state held for now (R283, R339, R579)? -/
def galHeld (s : State) (l d : Nat) : Bool :=
  galTest s l chkSet || (galDefect s l 0 && (d == 1 || d == 2 || d == 3)) || (galDefect s l 1 && (d == 2 || d == 3))

/-- Does the condition of defect d hold on a Gallery lane, as far as the lane shows it? -/
def galCond (s : State) (l d : Nat) : Bool :=
  let x := galRx s l
  match d with
  | 0 => true
  | 1 => !x.inFrame
  | 2 => !x.inMf
  | _ => x.timBad && decide (max 1 (getF s (Reg.FAB_DEF_TIME_SET d)) ≤ x.timRun)

/-- Is it absent? -/
def galGone (s : State) (l d : Nat) : Bool :=
  let x := galRx s l
  match d with
  | 0 => true
  | 3 => !x.timBad && decide (max 1 (getF s (Reg.FAB_DEF_TIME_CLEAR d)) ≤ x.timRun)
  | _ => !galCond s l d

/-- Stores the defects of a Gallery lane; PAIR_GAL_LANE_DEF is present while any is declared (Table 20-2). -/
def galDefects (s : State) (l m : Nat) : State :=
  let s1 := { s with pair := { s.pair with galStat := mput 0 s.pair.galStat l m } }
  galFollow (levelIs (!s1.pair.galStat.isEmpty) s1 Src.galLaneDef galLoc l)

/-- The condition of defect d of a Gallery lane has held for SET without a break (R283, R339). -/
def galDeclare (l d : Nat) (s : State) : State :=
  if 4 ≤ d || !galUsable s l || galDefect s l d || galHeld s l d || !galCond s l d then s else galDefects s l (mget 0 s.pair.galStat l + 2 ^ d)

/-- The condition of defect d has been absent for CLEAR without a break. -/
def galClear (l d : Nat) (s : State) : State :=
  if 4 ≤ d || !galDefect s l d || galHeld s l d || !galGone s l d then s else galDefects s l (mget 0 s.pair.galStat l - 2 ^ d)

end Sys2Proof.Machine
end

