-- ==== Sys2Proof/Machine/Gates.lean ====
section
/-! DEFINITION. The time gates of the line ports (R251 to R254): gate-control lists, their state at a PTP time, and the writes of SCH_GATE_CTL. -/

namespace Sys2Proof.Machine

/-- The time gates of port p. -/
def gateOf (s : State) (p : Nat) : GateSt := mget {} s.qd.gates p

/-- Stores the time gates of port p. -/
def putGate (s : State) (p : Nat) (g : GateSt) : State := { s with qd := { s.qd with gates := mput {} s.qd.gates p g } }

/-- A gate-control list as it runs: its bank, LEN, CYCLE and the PTP time, in ns, at which a cycle starts. -/
structure GList where
  bank : Nat
  len : Nat
  cycle : Nat
  base : Nat
  deriving DecidableEq, Repr

/-- The entries of a list: interval and gates. -/
def gateEntries (s : State) (p : Nat) (l : GList) : List (Nat × Nat) :=
  (List.range l.len).map (fun i => let v := tabRead s Tab.gateList (p * 2048 + l.bank * 1024 + i); (bits v 8 34, bits v 0 8))

/-- The intervals of one cycle as (start, gates): cut at the cycle's end (R251). -/
def gateSegs (cycle : Nat) : List (Nat × Nat) → Nat → List (Nat × Nat)
  | [], _ => []
  | (iv, g) :: r, at_ => if cycle ≤ at_ then [] else (at_, g) :: gateSegs cycle r (at_ + iv)

/-- The operational bank's list, none before any list is operational. -/
def gateRunning (s : State) (p : Nat) : Option GList :=
  (gateOf s p).oper.map (fun x => { bank := getF s (Reg.SCH_GATE_STAT_OPER_BANK p), len := x.1, cycle := x.2.1, base := x.2.2 })

/-- The list of a pending change, and its change time. -/
def gatePending (s : State) (p : Nat) : Option (GList × Nat) :=
  (gateOf s p).pend.map (fun x => ({ bank := 1 - getF s (Reg.SCH_GATE_STAT_OPER_BANK p), len := x.1, cycle := x.2.1, base := x.2.2.1 }, x.2.2.2))

/-- The list in force at a PTP time in ns (R251, R252). -/
def gateListAt (s : State) (p t : Nat) : Option GList :=
  match gatePending s p with
  | some (l, at_) => if at_ ≤ t then some l else gateRunning s p
  | none => gateRunning s p

/-- The place of a time within a list's cycle. -/
def gatePhase (l : GList) (t : Nat) : Nat := (((t : Int) - l.base) % (l.cycle : Int)).toNat

/-- The entry and the gates that a list has in force at a phase. -/
def gateIn (segs : List (Nat × Nat)) (phase : Nat) : Nat × Nat :=
  let past := segs.filter (fun e => decide (e.1 ≤ phase))
  (past.length - 1, (past.getLast?.map (·.2)).getD 255)

/-- The entry and the gates of port p at a PTP time in ns: every gate is open while EN is 0 and before any list is operational. -/
def gateAt (s : State) (p t : Nat) : Nat × Nat :=
  match gateListAt s p t with
  | none => (0, 255)
  | some l =>
    let (i, g) := gateIn (gateSegs l.cycle (gateEntries s p l) 0) (gatePhase l t)
    (i, if flag s (Reg.SCH_GATE_CTL_EN p) then g else 255)

/-- How long after a phase the gate of class c next closes in a list, counted over this cycle and the next. -/
def nextClose (segs : List (Nat × Nat)) (cycle phase c : Nat) : Option Nat :=
  let shut := segs.filter (fun e => !bit e.2 c)
  match shut.find? (fun e => decide (phase < e.1)) with
  | some e => some (e.1 - phase)
  | none => shut.head?.map (fun e => cycle - phase + e.1)

/-- The PTP time in ns of the next closing of gate c of port p after t, one made by a pending change included (R253). -/
def gateClosing (s : State) (p c t : Nat) : Option Nat :=
  if !flag s (Reg.SCH_GATE_CTL_EN p) then none
  else
    let own (l : GList) (t : Nat) : Option Nat := (nextClose (gateSegs l.cycle (gateEntries s p l) 0) l.cycle (gatePhase l t) c).map (t + ·)
    let now := (gateListAt s p t).bind (fun l => own l t)
    match gatePending s p with
    | some (l, at_) =>
      if at_ ≤ t then now
      else
        let later := if bit (gateAt s p at_).2 c then own l at_ else some at_
        match now with
        | some x => if x < at_ then some x else later
        | none => later
    | none => now

/-- Is gate c of port p open at a time in units of 2^-32 ns, and does a transmission of `len` bytes from then end by the next closing (R253, R254)? -/
def gateFits (s : State) (p c fine len : Nat) : Bool :=
  let t := fine / 2 ^ 32
  bit (gateAt s p t).2 c && (match gateClosing s p c t with
    | none => true
    | some x => decide (len * 8 * 2 ^ 32 ≤ (x * 2 ^ 32 - fine) * portGbps s p))

/-- Is class c of port p gated for the scheduler: 64 ns ahead, with the guard band of MAX_LEN + 20 bytes (R253)? -/
def gateBlocks (s : State) (p c : Nat) : Bool := !gateFits s p c (s.ptp.fine + 64 * 2 ^ 32) (maxLen s p + 20)

/-- OPEN and ENTRY of SCH_GATE_STAT follow the gates at the present PTP time (Table 9-13). -/
def gateShow (s : State) (p : Nat) : State :=
  let (i, g) := gateAt s p s.ptp.total
  setF (setF s (Reg.SCH_GATE_STAT_OPEN p) g) (Reg.SCH_GATE_STAT_ENTRY p) i

/-- GATE_ENTRY_CHANGE (R251): an entry of the running list takes effect. -/
def gateEntryChange (p : Fin 160) (s : State) : State := gateShow s p

/-- The command whose effect is `gateEntryChange`. -/
def execGateEntryChange (p : Fin 160) (s : State) : Out := .next (gateEntryChange p s)

/-- GATE_ACTIVATE: the pending list takes the place of the old one at its change time (R252). -/
def gateActivate (p : Fin 160) (s : State) : State :=
  let g := gateOf s p
  match g.pend with
  | some (len, cycle, base, at_) =>
    if s.ptp.total < at_ then s
    else
      let s1 := putGate s p { oper := some (len, cycle, base), pend := none }
      let s2 := setF s1 (Reg.SCH_GATE_STAT_OPER_BANK p) (1 - getF s (Reg.SCH_GATE_STAT_OPER_BANK p))
      gateShow (setB (setB s2 (Reg.SCH_GATE_STAT_PENDING p) false) (Reg.SCH_GATE_STAT_LIST_RUN p) true) p
  | none => s

/-- The command whose effect is `gateActivate`. -/
def execGateActivate (p : Fin 160) (s : State) : Out := .next (gateActivate p s)

/-- BASE of port p in ns (Table 9-13): NS above 999,999,999 acts as that, and the seconds above bit 31 are those of the PTP time. -/
def gateBase (s : State) (p : Nat) : Nat :=
  (s.ptp.sec / 2 ^ 32 * 2 ^ 32 + getF s (Reg.SCH_GATE_BASE_HI_SEC p)) * 1000000000 + min 999999999 (getF s (Reg.SCH_GATE_BASE_LO_NS p))

/-- CYCLE of port p in ns. -/
def gateCycle (s : State) (p : Nat) : Nat := getF s (Reg.SCH_GATE_CYCLE_LO_CYCLE_LO p) + 2 ^ 32 * getF s (Reg.SCH_GATE_CYCLE_HI_CYCLE_HI p)

/-- The effect of CHANGE (R252): the other bank is scheduled, or CFG_ERR is set. -/
def gateChange_ (s : State) (p : Nat) : State :=
  let len := getF s (Reg.SCH_GATE_CFG_LEN p)
  let cycle := gateCycle s p
  let base := gateBase s p
  let l : GList := { bank := 1 - getF s (Reg.SCH_GATE_STAT_OPER_BANK p), len := len, cycle := cycle, base := base }
  if len = 0 ∨ 1024 < len ∨ cycle < 1000 ∨ 10000000000 < cycle ∨ (gateEntries s p l).any (fun e => e.1 == 0) then setB s (Reg.SCH_GATE_STAT_CFG_ERR p) true
  else
    let now := s.ptp.total
    let at_ := if now < base then base else base + ((now - base) / cycle + 1) * cycle
    let s1 := putGate s p { gateOf s p with pend := some (len, cycle, base, at_) }
    let s2 := setF (setF s1 (Reg.SCH_GATE_CHG_LO_NS p) (at_ % 1000000000)) (Reg.SCH_GATE_CHG_HI_SEC p) (at_ / 1000000000)
    setB s2 (Reg.SCH_GATE_STAT_PENDING p) true

/-- The effect of CANCEL (R252): the pending change is withdrawn, unless its time has come. -/
def gateCancel_ (s : State) (p : Nat) : State :=
  match (gateOf s p).pend with
  | some (_, _, _, at_) =>
    if at_ ≤ s.ptp.total then s
    else setB (putGate s p { gateOf s p with pend := none }) (Reg.SCH_GATE_STAT_PENDING p) false
  | none => s

/-- A write of SCH_GATE_CTL[p] (Table 9-12): EN is stored, and CHANGE and CANCEL act. -/
def gateCtl (s : State) (p v : Nat) : State :=
  let s1 := setB s (Reg.SCH_GATE_CTL_EN p) (bit v 0)
  let s2 := if bit v 1 then gateChange_ s1 p else s1
  gateShow (if bit v 2 then gateCancel_ s2 p else s2) p

/-- The word that a write of SCH_GATE_CTL[p] carries when EN stays as it is. -/
def gateWord (s : State) (p v : Nat) : Nat := getF s (Reg.SCH_GATE_CTL_EN p) + v

/-- GATE_ENABLE (R251): a write of SCH_GATE_CTL[p].EN. -/
def gateEnable (p : Fin 160) (en : Bool) (s : State) : State :=
  operMirrored s (Reg.SCH_GATE_CTL p) (b2n en) true (fun s => gateCtl s p (b2n en))

/-- The command whose effect is `gateEnable`. -/
def execGateEnable (p : Fin 160) (en : Bool) (s : State) : Out := .next (gateEnable p en s)

/-- GATE_CHANGE (R252): a write of 1 to SCH_GATE_CTL[p].CHANGE. -/
def gateChange (p : Fin 160) (s : State) : State :=
  operMirrored s (Reg.SCH_GATE_CTL p) (gateWord s p 2) true (fun s => gateCtl s p (gateWord s p 2))

/-- The command whose effect is `gateChange`. -/
def execGateChange (p : Fin 160) (s : State) : Out := .next (gateChange p s)

/-- GATE_CANCEL (R252): a write of 1 to SCH_GATE_CTL[p].CANCEL. -/
def gateCancel (p : Fin 160) (s : State) : State :=
  operMirrored s (Reg.SCH_GATE_CTL p) (gateWord s p 4) true (fun s => gateCtl s p (gateWord s p 4))

/-- The command whose effect is `gateCancel`. -/
def execGateCancel (p : Fin 160) (s : State) : Out := .next (gateCancel p s)

end Sys2Proof.Machine
end

