-- ==== Sys2Proof/Machine/Egress.lean ====
section
/-! DEFINITION. The egress side of FD: transfers across the Stair (R14), the egress pipelines (R172, R176 to R178, R212), staging at the time gates (R254), the transmit MAC
(R38, R44, R47, R48) and transmit timestamps (R59). -/

namespace Sys2Proof.Machine

/-! ## The Stair -/

/-- The block of a frame that reaches node 160, or the host, without one (R495). -/
def bareFrame (reason : Nat) (b : Bytes) : HostFrame :=
  let blk : Block := { reason := reason, noMeta := true, len := b.length + 4, trunc := decide (16112 < b.length) }
  { trunc := blk.trunc, noMeta := true, reason := reason, frameLen := b.length + 4, block := blk.bytes, bytes := b.take 16112 }

/-- A frame that crossed the Stair below node 160 (R495): one of DECAP = 3 brings its block as its first 256 bytes. -/
def hostArrival (f : EgFrame) : HostFrame :=
  if f.hdr.decap = 3 then
    let b := f.data.take 256
    let fl := leAt b 236 4
    { trunc := bit fl 20, noMeta := bit fl 21, reason := byteAt b 232, tenant := byteAt b 233, frameLen := leAt b 240 2 % 2 ^ 14, block := fit 256 b, bytes := f.data.drop 256 }
  else bareFrame 0xFE f.data

/-- Hands a frame to the PCIe engine. -/
def hostQueue (s : State) (x : HostFrame) : State := { s with hif := { s.hif with queue := s.hif.queue ++ [x] } }

/-- A transfer from FD to QD: the head of a Stair queue reaches the buffer manager, or is lost (R14, R198). -/
def stairUpMove (s : State) (lane : Nat) (a : Arrival) (rest : List Arrival) (ok : Bool) : State :=
  let s1 := { s with qd := { s.qd with stairUp := mput [] s.qd.stairUp lane rest } }
  if ok then { s1 with qd := { s1.qd with arrivals := mput [] s1.qd.arrivals lane (mget [] s1.qd.arrivals lane ++ [a]) } }
  else report (bump s1 (Reg.DEV_CNT 2)) Src.stairQd (locSlice 1 63) 0

/-- A transfer from QD to FD: the head of a lane reaches its egress pipeline, or the PCIe engine, or is lost. -/
def stairDownMove (s : State) (lane : Nat) (f : EgFrame) (rest : List EgFrame) (ok : Bool) : State :=
  let s1 := { s with qd := { s.qd with stairDown := mput [] s.qd.stairDown lane rest } }
  if !ok then report (bump s1 (Reg.DEV_CNT 3)) Src.stairFd (locSlice 0 63) 0
  else if lane = 20 then hostQueue s1 (hostArrival f)
  else { s1 with qd := { s1.qd with egress := mput [] s1.qd.egress lane (mget [] s1.qd.egress lane ++ [f]) } }

/-- STAIR_TRANSFER (R14, R598): the head of a Stair lane crosses after some retries, or is abandoned after 4. Up, lanes 0 to 19 are the Hall's queues and 32 + n the egress mirror
copies of EPn; down, lanes 0 to 19 lead to the egress pipelines and 20 to the PCIe engine. -/
def stairTransfer (up : Bool) (lane : Fin 52) (retries : Fin 5) (ok : Bool) (s : State) : State :=
  let n := if ok then retries.val else 4
  let cnt (s : State) : State := perfAdd (perfAdd (bumpN s (Reg.DEV_CNT (if up then 0 else 1)) n) 84 2 n) 84 3 (b2n (!ok))
  if up then match mget [] s.qd.stairUp lane.val with
    | [] => s
    | a :: r => stairUpMove (perf (cnt s) 84 0) lane a r ok
  else match mget [] s.qd.stairDown lane.val with
    | [] => s
    | f :: r => stairDownMove (perf (cnt s) 84 1) lane f r ok

/-- The command whose effect is `stairTransfer`. -/
def execStairTransfer (up : Bool) (lane : Fin 52) (retries : Fin 5) (ok : Bool) (s : State) : Out := .next (stairTransfer up lane retries ok s)

/-! ## The egress pipeline -/

/-- Step 3 of Table 6-8 (R212): CE is written, or the frame is not ECN-capable and is dropped or sent unchanged. -/
def ecnStep (s : State) (n : Nat) (b : Bytes) (ce : Bool) : Option Bytes × State :=
  if !ce then (some b, s)
  else
    let r := headers b
    match ecnOf b r with
    | some 3 => (some b, s)
    | some (k + 1) => (some (if k < 2 then setCe b r else b), s)
    | _ => (if flag s Reg.CGM_WRED_CFG_NECT_ACT then some b else none, bump s (Reg.CGM_NECT_CNT n))

/-- The edit entry of a frame, none without one (R175); an unreadable one drops the frame (R151). -/
def egressEdit (s : State) (h : Hdr) : Option (Option Nat) :=
  if !h.editV then some none
  else if tabBad s Tab.edit h.editIdx then none
  else some (some (tabRead s Tab.edit h.editIdx))

/-- The egress action entry: EGR_ACT when EGR_ACT_EN = 1, else EGR_ENTRY of the output port (R177). -/
def egressEntry (s : State) (p : Nat) (e : Option Nat) : Nat :=
  match e with
  | some v => if bit v 236 then bits v 218 18 else getF s (Reg.ACT_PORT_DEF_EGR_ENTRY p)
  | none => getF s (Reg.ACT_PORT_DEF_EGR_ENTRY p)

/-- Egress policy (R177): whether the frame goes on, and the state with its metering and counting. -/
def egressPolicy (s : State) (v : Nat) (b : Bytes) : Bool × State :=
  let len := b.length + 4
  let refuse := bits v 9 3 == 1
  let r := headers b
  let dei := pget r PF.vlanCnt != 0 && bit (pget r PF.tci0) 12
  let (col, s1) := if !refuse && bit v 83 then meter s (bits v 64 19) len dei else (0, s)
  let s2 := if bit v 117 then countPair s1 (bits v 96 21) len else s1
  (!refuse && !(col == 2 && bits v 84 2 == 0), s2)

/-- A frame above its MTU (R178). -/
def mtuExceeded (s : State) (n : Nat) (f : EgFrame) : State :=
  let s1 := perf (bump s (Reg.ACT_CNT n 6)) (20 + n) 5
  if getF s (Reg.ACT_MTU_MTU_ACT f.hdr.mtuProf) = 1 then
    let (ok, s2) := toHostTake s1 n
    if ok then hostQueue s2 (bareFrame 0xF3 f.data) else s2
  else s1

/-- A frame that comes to the MAC of port p outside RUNNING, or under a link fault, is discarded (R47 to R49); one for an absent port is counted for its group (R38).
While link training runs in RUNNING it waits (R42). -/
def macRefuses (s : State) (p : Nat) : Option State :=
  if !portPresent s p then some (bump s (Reg.LIN_GRP_ABSENT_CNT (p / 8)))
  else if !txSends s p && !txWaits s p then some (bump s (Reg.LIN_EVT_CNT p 14))
  else none

/-- The egress copy of a port mirror (R172). A frame on the egress side has no signature result: Table 7-2 carries none. -/
def egressMirror (s : State) (n p : Nat) (h : Hdr) (b : Bytes) : State :=
  let m := getF s (Reg.ACT_PORT_MIR_EG_SESS p)
  if flag s (Reg.ACT_PORT_MIR_EG_EN p) && flag s (Reg.ACT_MIR_CFG_EN m) then mirSend s n (32 + n) m h.srcSys h.rxNs 0 b else s

/-- An edited frame goes to the staging place of its port and class (R254). -/
def stageFrame (s : State) (n : Nat) (f : EgFrame) : State :=
  match macRefuses s f.port with
  | some t => t
  | none =>
    let k := f.port * 8 + f.cls
    let s1 := if bit (gateAt s f.port s.ptp.total).2 f.cls then s else perf s (20 + n) 6
    { s1 with qd := { s1.qd with stage := mput [] s1.qd.stage k (mget [] s1.qd.stage k ++ [f]) } }

/-- Steps 8 to 10 of Table 6-8 for the edited bytes of a frame with its edit entry. -/
def egressFinish (s : State) (n : Nat) (f : EgFrame) (e : Option Nat) (b : Bytes) : State :=
  let i := egressEntry s f.port e
  if tabBad s Tab.action i then actionEcc s n (tabKey Tab.action i)
  else
    let v := tabRead s Tab.action i
    let (ok, s1) := egressPolicy s v b
    if !ok then perf (bump s1 (Reg.ACT_CNT n 12)) (20 + n) 4
    else if max 64 (getF s (Reg.ACT_MTU_MTU_LEN f.hdr.mtuProf)) < b.length + 4 then mtuExceeded s1 n f
    else
      let h := if bits v 13 2 = 0 then f.hdr else { f.hdr with ptpMode := bits v 13 2, ptpTag := bits v 16 16 }
      stageFrame (egressMirror s1 n f.port f.hdr b) n { f with hdr := h, data := b }

/-- One frame in EPn, in the order of Table 6-8. -/
def egressFrame (s : State) (n : Nat) (f : EgFrame) : State :=
  let s0 := perfAdd (perf s (20 + n) 0) (20 + n) 1 (f.data.length + 4)
  let r := egressRecord s f.hdr.srcSys f.hdr.decap f.data
  let b1 := decapsulate f.data r f.hdr.decap
  let b2 := if f.hdr.ttlOp = 1 then decIpTtl b1 (headers b1) else b1
  match ecnStep s0 n b2 f.hdr.ce with
  | (none, s1) => s1
  | (some b3, s1) =>
    match egressEdit s1 f.hdr with
    | none => actionEcc s1 n (tabKey Tab.edit f.hdr.editIdx)
    | some none => egressFinish s1 n f none b3
    | some (some e) =>
      if bits e 175 3 != 0 && tabBad s1 Tab.template (bits e 178 16) then actionEcc s1 n (tabKey Tab.template (bits e 178 16))
      else
        let b4 := applyEdit s1 b3 e f.hdr.cls (frameHash s1 r)
        let s2 := perf s1 (20 + n) 2
        let s3 := if bits e 175 3 = 0 then s2 else perf s2 (20 + n) 3
        if 16383 < b4.length + 4 then bump s3 (Reg.ACT_CNT n 7) else egressFinish s3 n f (some e) b4

/-- EGRESS_PASS (R176): EPn takes its next frame. -/
def egressPass (n : Fin 20) (s : State) : State :=
  match mget [] s.qd.egress n.val with
  | [] => s
  | f :: r => egressFrame { s with qd := { s.qd with egress := mput [] s.qd.egress n.val r } } n f

/-- The command whose effect is `egressPass`. -/
def execEgressPass (n : Fin 20) (s : State) : Out := .next (egressPass n s)

/-! ## Transmit timestamps -/

/-- The transmit timestamp of a port: the PTP time plus TX_ADJ in units of 0.0625 ns (R58, R60). -/
def txTime (s : State) (p : Nat) : Ptp :=
  Ptp.ofFine ((s.ptp.fine : Int) + signed 16 (getF s (Reg.LIN_PTP_ADJ_TX_ADJ p)) * 2 ^ 28).toNat

/-- The offset of the PTP header of an event message, and that of its UDP header if it has one (R59).
PRESUMED: IEEE 1588-2019, which R59 names, gives EtherType 0x88F7, UDP port 319 and the message types 0 to 3 of event messages. -/
def ptpHeader (b : Bytes) : Option (Nat × Option Nat) :=
  let r := headers b
  let o := 14 + 4 * pget r PF.vlanCnt
  let at_ : Option (Nat × Option Nat) :=
    if beAt b (o - 2) 2 = 0x88F7 then some (o, none)
    else if pget r PF.l3Type ≠ 0 ∧ pget r PF.l4Type = 1 ∧ pget r PF.l4Dport = 319 then some (pget r PF.offL4 + 8, some (pget r PF.offL4))
    else none
  match at_ with
  | some x => if byteAt b x.1 % 16 ≤ 3 ∧ x.1 + 34 ≤ b.length then some x else none
  | none => none

/-- The one's complement sum of a run of 16-bit words, added to a start value. -/
def wordsSum (b : Bytes) (acc : Nat) : Nat := onesAdd acc (onesSum b)

/-- Bytes written at an offset, with the UDP checksum updated incrementally; a checksum of 0, which stands for none, stays (R59). -/
def udpPatch (b : Bytes) (udp : Option Nat) (o : Nat) (v : Bytes) : Bytes :=
  let b1 := patch b o v
  match udp with
  | none => b1
  | some u =>
    let c := beAt b (u + 6) 2
    if c = 0 then b1
    else
      let old := slice b o v.length
      let neg := old.map (fun x => BitVec.xor x 0xFF)
      let n := 65535 - wordsSum v (wordsSum neg (65535 - c))
      patch b1 (u + 6) (beBytes 2 (if n = 0 then 65535 else n))

/-- One-step handling (R59): originTimestamp of a frame that the host injected, else the residence time added to correctionField.
DESIGN CHOICE: the spec does not say how the MAC tells transparent-clock use. -/
def ptpOneStep (b : Bytes) (h : Hdr) (tx : Ptp) : Bytes :=
  match ptpHeader b with
  | none => b
  | some (o, udp) =>
    if h.srcSys = 0xFFFF then udpPatch b udp (o + 34) (beBytes 6 tx.sec ++ beBytes 4 tx.ns)
    else
      let stay := (tx.total + 2 ^ 29 - h.rxNs % 2 ^ 29) % 2 ^ 29
      udpPatch b udp (o + 8) (beBytes 8 ((beAt b (o + 8) 8 + stay * 65536) % 2 ^ 64))

/-- The TX_TIMESTAMP event of two-step handling (R59, R498), lost and counted when its ring has no room. -/
def ptpTwoStep (s : State) (p : Nat) (h : Hdr) (tx : Ptp) : State :=
  let f := if h.srcSys = 0xFFFF then h.ptpTag / 256 else 0
  if ringRuns s f 18 && decide (0 < ringRoom s f 18) then
    hostEvent s f 2 ([byteOf p, 0] ++ leBytes 2 h.ptpTag ++ leBytes 4 tx.ns ++ leBytes 6 tx.sec ++ [byteOf (tx.frac / 2 ^ 24)])
  else bump s (Reg.LIN_EVT_CNT p 15)

/-! ## The transmit MAC -/

/-- The MAC sends a frame (R44, R59): padded to 60 bytes, discarded above MAX_LEN, timestamped as requested. -/
def macSend (s : State) (p : Nat) (f : EgFrame) : State :=
  let b := if f.data.length < 60 then fit 60 f.data else f.data
  if maxLen s p < b.length + 4 then bump s (Reg.LIN_EVT_CNT p 13)
  else
    let tx := txTime s p
    match f.hdr.ptpMode with
    | 1 => sendLine (perf s (20 + p / 8) 7) p (ptpOneStep b f.hdr tx)
    | 2 => sendLine (ptpTwoStep (perf s (20 + p / 8) 7) p f.hdr tx) p b
    | _ => sendLine s p b

/-- The frames staged for a class of a port. -/
def staged (s : State) (p k : Nat) : List EgFrame := mget [] s.qd.stage (8 * p + k)

/-- The staging place of a class is left with the rest of its frames. -/
def stageRest (s : State) (p k : Nat) (r : List EgFrame) : State := { s with qd := { s.qd with stage := mput [] s.qd.stage (8 * p + k) r } }

/-- May a staged frame start now (R42, R53, R254): the port sends frames, its gate is open, its class is not paused, and it ends by the next closing? -/
def mayStart (s : State) (p k : Nat) (f : EgFrame) : Bool :=
  txSends s p && !bit (getF s (Reg.LIN_PORT_STAT_PAUSED p)) k && gateFits s p k s.ptp.fine (max 64 (f.data.length + 4) + 20)

/-- STAGED_FRAME_START (R53, R254): the staged frame of class k of port p starts at the MAC, once it may. -/
def stagedFrameStart (p : Fin 160) (k : Fin 8) (s : State) : State :=
  match staged s p k with
  | [] => s
  | f :: r =>
    match macRefuses s p with
    | some t => stageRest t p k r
    | none => if mayStart s p k f then macSend (stageRest s p k r) p f else s

/-- The command whose effect is `stagedFrameStart`. -/
def execStagedFrameStart (p : Fin 160) (k : Fin 8) (s : State) : Out := .next (stagedFrameStart p k s)

/-- GATE_NOFIT (R254): a staged frame has waited a full cycle time without being able to start, and is dropped. -/
def gateNofit (p : Fin 160) (k : Fin 8) (s : State) : State :=
  match staged s p k with
  | [] => s
  | f :: r =>
    if flag s (Reg.SCH_GATE_CTL_EN p) && (gateListAt s p s.ptp.total).isSome && !mayStart s p k f then bump (stageRest s p k r) (Reg.SCH_CNT 8) else s

/-- The command whose effect is `gateNofit`. -/
def execGateNofit (p : Fin 160) (k : Fin 8) (s : State) : Out := .next (gateNofit p k s)

end Sys2Proof.Machine
end

