-- ==== Sys2Proof/Machine/Sched.lean ====
section
/-! DEFINITION. Queues and schedulers (chapter 9): requests and credits of the VOQs (R231 to R236), segmentation into cells (R269 to R271), what becomes of a frame at its
dequeue (R192 to R196, R204), the egress tree (R238 to R245, R248 to R250), fences (R257) and the epoch (R425). -/

namespace Sys2Proof.Machine

/-- The number after `last` in a round over rising numbers, starting again at the lowest. -/
def nextRound (l : List Nat) (last : Option Nat) : Option Nat :=
  match last with
  | none => l.head?
  | some x => match l.find? (fun c => decide (x < c)) with | some c => some c | none => l.head?

/-- The place of a round. -/
def rrGet (s : State) (k : Nat) : Option Nat := mfind s.qd.rr k
def rrPut (s : State) (k c : Nat) : State := { s with qd := { s.qd with rr := mset s.qd.rr k (some c) } }

/-! ## Requests and credits -/

/-- REQUEST_RETRY (R231): no credit has come for REQ_RETRY_US, so OUT is 0 again and the VOQ requests afresh. -/
def requestRetry (q : Fin 1048576) (s : State) : State :=
  let x := queueOf s q
  if voqSplit s ≤ q.val ∨ x.outCr = 0 then s else voqAsk (bump (putQueue s q { x with outCr := 0 }) (Reg.SCH_CNT 3)) q

/-- The command whose effect is `requestRetry`. -/
def execRequestRetry (q : Fin 1048576) (s : State) : Out := .next (requestRetry q s)

/-- VOQ_TIMEOUT (R235): a VOQ with frames has had no credit for TIMEOUT_MS, and drops every frame it holds; a balance left when it is empty is
discarded (R233). -/
def voqTimeout (q : Fin 1048576) (s : State) : State :=
  if voqSplit s ≤ q.val ∨ getF s Reg.SCH_VOQ_CFG_TIMEOUT_MS = 0 ∨ (queueOf s q).descs = [] then s
  else
    let s1 := flushQueue s q (fun a => bump a (Reg.SCH_CNT 2))
    putQueue (bumpIf (0 < (queueOf s q).bal) s1 (Reg.SCH_CNT 6)) q { queueOf s1 q with bal := 0, outCr := 0 }

/-- The command whose effect is `voqTimeout`. -/
def execVoqTimeout (q : Fin 1048576) (s : State) : Out := .next (voqTimeout q s)

/-- A violation k of Table 10-10 by the partner of group g (R296). -/
def partnerBad (s : State) (g k : Nat) : State := report (bump s (Reg.FAB_CNT k)) Src.fabPartner (locSlice 1 (20 + g)) 0

/-- One credit arrives on group g for the VOQ of a system port and class (R233, R352, Table 10-10). -/
def creditArrive (g port cls : Nat) (s : State) : State :=
  match voqOf s port cls with
  | none => partnerBad s g 9
  | some q =>
    let x := queueOf s q
    if x.outCr = 0 ∧ x.descs = [] then (if offLine s then bump s (Reg.PAIR_CNT 17) else partnerBad s g 8)
    else voqAsk (perf (bump (putQueue s q { x with bal := x.bal + creditSize s, outCr := x.outCr - 1 }) (Reg.SCH_CNT 4)) 81 2) q

/-- The key of the credits that a node has requested of a port and class. -/
def creqKey (port cls node : Nat) : Nat := (port * 8 + cls) * 65536 + node

/-- The system port of a next hop. -/
def nhPort (s : State) (i : Nat) : Nat := bits (tabGet s Tab.nh i) 10 16

/-- Is the shared copy in buffer `h` held for a system port: by a descriptor of a queue, or by a queue that waits for its last cell (R200)? -/
def sharedFor (s : State) (h port : Nat) : Bool :=
  let for_ (nh : Option Nat) : Bool := nh.any (fun i => nhPort s i == port)
  s.qd.queues.any (fun e => (e.2.descs ++ e.2.leaving.map (·.1)).any (fun d => d.buf == h && for_ d.nh))
    || s.fab.ctx.any (fun e => e.2.opened.any (fun r => r.targets.any (fun t => t.1 == h) && (r.shared.getD []).any (fun w => for_ w.nh)))

/-- Bytes of from-fabric frames for a system port and class held on this card (R232), FCS included (R6). -/
def heldFor (s : State) (port cls : Nat) : Nat :=
  ((s.qd.bufs.filter (fun e => decide (20 ≤ e.2.req) && decide (e.2.req ≤ 27) && e.2.hdr.cls == cls
    && (if e.2.shared then sharedFor s e.1 port else e.2.sysPort == port))).map (fun e => e.2.data.length + 4)).sum

/-- The time one byte of credit takes at a system port, in units of 2^-32 ticks, and its burst allowance (R232, R243, R244): by CR_PROF, else at the rate of the port of its class-0
egress queue plus 5 %. DESIGN CHOICE: a profile paces credits as R244 has a shaper pace frames, each credit counting as its size; the default pace has no burst. -/
def creditPace (s : State) (port : Nat) : Nat × Nat :=
  let e := tabGet s Tab.eqmap port
  let prof := bits e 81 16
  if prof ≠ 0 then
    let inc := profInc s prof
    (inc, max (bits (tabGet s Tab.shaper prof) 31 24 * inc) (16 * 2 ^ 32))
  else
    let inc := match rootOf s (bits e 2 20) with
      | some p => if p < 160 then ceilDiv (12800000 * 2 ^ 32) (portGbps s p * 1050000) else Config.creditInc
      | none => Config.creditInc
    (inc, 16 * 2 ^ 32)

/-- Has the pace of a system port's credits come to the next grant (R232)? -/
def creditDue (s : State) (port : Nat) : Bool := decide (mget 0 s.qd.crTe port ≤ epochFine s)

/-- A grant puts the next one off (R232, R244). -/
def creditPaced (s : State) (port : Nat) : State :=
  let (inc, b) := creditPace s port
  let te := max (mget 0 s.qd.crTe port) (epochFine s - b) + creditSize s * inc
  { s with qd := { s.qd with crTe := mput 0 s.qd.crTe port te } }

/-- May class k of a system port receive grants: CR_HOLD is 0 or not reached (R232)? -/
def grantOpen (s : State) (port k : Nat) : Bool :=
  let hold := bits (tabGet s Tab.eqmap port) 97 16
  hold == 0 || decide (heldFor s port k < hold * 4096)

/-- The nodes that request credits of a port and class, in rising order. -/
def askers (s : State) (port k : Nat) : List Nat :=
  (s.qd.creq.filter (fun e => e.1 / 65536 == port * 8 + k)).map (fun e => e.1 % 65536)

/-- A credit entry joins those that wait; credits for one VOQ in a row share an entry of up to 15 (R232, Table 10-6). -/
def creditPut (l : List CrEnt) (e : CrEnt) : List CrEnt :=
  match l.getLast? with
  | some x => if x.node = e.node ∧ x.port = e.port ∧ x.cls = e.cls ∧ x.count + e.count ≤ 15 then l.dropLast ++ [{ x with count := x.count + e.count }] else l ++ [e]
  | none => [e]

/-- CREDIT_GRANT (R232): the credit generator of a system port, when its pace has come to it, grants one credit: the highest requesting class that is not held, round robin
among source nodes. -/
def creditGrant (port : Fin 65536) (s : State) : State :=
  if !creditDue s port then s else
  match [7, 6, 5, 4, 3, 2, 1, 0].find? (fun k => !(askers s port k).isEmpty && grantOpen s port k) with
  | none => s
  | some k =>
    let rk := 2 ^ 40 + port.val * 8 + k
    match nextRound (askers s port k) (rrGet s rk) with
    | none => s
    | some n =>
      let key := creqKey port k n
      let s1 := rrPut (creditPaced { s with qd := { s.qd with creq := mput 0 s.qd.creq key (mget 0 s.qd.creq key - 1) } } port) rk n
      let s2 := perf (bump s1 (Reg.SCH_CNT 5)) 81 1
      if offLine s then s2
      else { s2 with fab := { s2.fab with credit := creditPut s2.fab.credit { node := n, port := port, cls := k, count := 1 } } }

/-- The command whose effect is `creditGrant`. -/
def execCreditGrant (port : Fin 65536) (s : State) : Out := .next (creditGrant port s)

/-! ## Cells -/

/-- The 16 bytes of a frame header (Table 7-2), bit 127 first. -/
def hdrBytes (h : Hdr) (stored : Nat) : Bytes :=
  beBytes 16 (stored % 2 ^ 14 + h.cls % 8 * 2 ^ 14 + h.colour % 4 * 2 ^ 17 + b2n h.ce * 2 ^ 19 + b2n h.editV * 2 ^ 20 + h.editIdx % 2 ^ 20 * 2 ^ 21
    + h.decap % 4 * 2 ^ 41 + h.ttlOp % 4 * 2 ^ 43 + h.ptpMode % 4 * 2 ^ 45 + h.ptpTag % 65536 * 2 ^ 47 + h.mtuProf % 16 * 2 ^ 63 + h.group % 65536 * 2 ^ 67
    + h.srcSys % 65536 * 2 ^ 83 + h.rxNs % 2 ^ 29 * 2 ^ 99)

/-- A frame header from its 16 bytes, and its LEN. -/
def hdrOf (b : Bytes) : Hdr × Nat :=
  let v := beAt b 0 16
  let h0 : Hdr := { cls := bits v 14 3, colour := bits v 17 2, ce := bit v 19, editV := bit v 20, editIdx := bits v 21 20, decap := bits v 41 2, ttlOp := bits v 43 2 }
  ({ h0 with ptpMode := bits v 45 2, ptpTag := bits v 47 16, mtuProf := bits v 63 4, group := bits v 67 16, srcSys := bits v 83 16, rxNs := bits v 99 29 }, bits v 0 14)

/-- The cells of a frame's bytes, header included, from a sequence number (R271). -/
def cutCells (node dst cls n : Nat) : Nat → Nat → Bytes → List Cell
  | 0, _, _ => []
  | k + 1, seq, b =>
    { typ := 1, src := node, dst := dst, cls := cls, seq := seq % 2 ^ 20, first := k + 1 == n, last := k == 0, data := b.take 240 }
      :: cutCells node dst cls n k (seq + 1) (b.drop 240)

/-- A frame goes to the cell engine for a system port and class, or is discarded as STBY_CELLS (R271, R352). -/
def sendCells (s : State) (dst cls : Nat) (h : Hdr) (data : Bytes) : State :=
  let n := ceilDiv (data.length + 16) 240
  let k := dst * 8 + cls
  let q := mget 0 s.fab.seq k
  let s1 := { s with fab := { s.fab with seq := mput 0 s.fab.seq k ((q + n) % 2 ^ 20) } }
  if offLine s then bumpN s1 (Reg.PAIR_CNT 16) n
  else { s1 with fab := { s1.fab with data := s1.fab.data ++ cutCells (getF s Reg.FAB_NODE_ID) dst cls n n q (hdrBytes h data.length ++ data) } }

/-! ## A frame at its dequeue -/

/-- The header with which a local copy leaves: the edit and MTU profile of its next hop (R199, R200). -/
def copyHdr (s : State) (h : Hdr) (nh : Option Nat) : Hdr :=
  match nh with
  | none => h
  | some i => let e := tabGet s Tab.nh i; { h with editV := true, editIdx := bits e 26 20, mtuProf := bits e 46 4 }

/-- A readable frame leaves its queue: toward fabric in cells, or across the Stair toward its port or node 160 (R194, R238, R495). -/
def deliver (s : State) (q : Nat) (d : Desc) : State :=
  match mfind s.qd.bufs d.buf with
  | none => s
  | some b =>
    let h := copyHdr s b.hdr d.nh
    let s1 := if q < voqSplit s then sendCells (perf s 81 4) (q / 8) (q % 8) h b.data
      else
        let p := (rootOf s q).getD 160
        let lane := if p < 160 then p / 8 else 20
        let f : EgFrame := { port := p, cls := pclass s q, hdr := h, data := b.data }
        let a := perf s 81 5
        { a with qd := { a.qd with stairDown := mput [] a.qd.stairDown lane (mget [] a.qd.stairDown lane ++ [f]) } }
    releaseBuf s1 d.buf

/-- Frames whose turn has come leave, up to the first that is not readable (R194). -/
def leaveReady : Nat → State → Nat → State
  | 0, s, _ => s
  | k + 1, s, q =>
    let x := queueOf s q
    match x.leaving with
    | (d, true) :: r => leaveReady k (deliver (putQueue s q { x with leaving := r }) q d) q
    | _ => s

/-- A dequeued frame takes its place in the order of its queue; those at the front that are readable leave. -/
def leave (s : State) (q : Nat) (d : Desc) (readable : Bool) : State :=
  let x := queueOf s q
  leaveReady (x.leaving.length + 1) (putQueue s q { x with leaving := x.leaving ++ [(d, readable)] }) q

/-- Is a DRAM interface without access to what it holds: failed, out of service or absent (R196)? -/
def diDead (s : State) (i : Nat) : Bool := !diServes s i && getF s (Reg.DRC_DI_STAT_STATE i) != 5

/-- What becomes of the frame of a descriptor just taken off queue q: dropped for reason k of Table 8-2, read from SRAM, or being read from DRAM. `bad` says that a stored word of it
is uncorrectable. -/
def dropWhy (s : State) (b : Buf) (bad : Bool) : Option Nat :=
  if b.dram then (if b.lost || diDead s b.di then some 10 else if b.bad then some 13 else none)
  else if b.bad || bad then some 12 else none

/-- The frame of a descriptor just taken off queue q goes its way (R196, R204, R316, R562). -/
def takeOff (s : State) (q : Nat) (d : Desc) (b : Buf) (bad : Bool) : State :=
  match dropWhy s b bad with
  | some k =>
    let s1 := dropCount s q k
    let s2 := if k = 10 ∧ getF s (Reg.DRC_DI_STAT_STATE b.di) ≠ 6 then bump s1 (Reg.PWR_SLICE_DROP (28 + b.di / 2)) else s1
    releaseBuf (if k = 12 then report s2 Src.sramEcc (qdWord d.buf) (Config.memWord Src.sramEcc d.buf % 2 ^ 31) else s2) d.buf
  | none =>
    let s1 := perf s 80 (if b.dram then 7 else 6)
    leave (if b.dram then { s1 with drm := { s1.drm with reads := s1.drm.reads ++ [d.buf] } } else s1) q d (!b.dram)

/-- Does the head frame of a queue wait on a retraining pause (R195, R249)? -/
def headHeld (s : State) (q : Nat) : Bool :=
  match (queueOf s q).descs with
  | [] => false
  | d :: _ => match mfind s.qd.bufs d.buf with
    | some b => b.dram && (getF s (Reg.DRC_DI_STAT_STATE b.di) == 3 || getF s (Reg.DRC_DI_STAT_STATE b.di) == 4)
    | none => false

/-- Selections that pass over held queues are counted (R249). -/
def skipped (s : State) (n : Nat) : State := perfAdd (bumpN s (Reg.SCH_CNT 9) n) 81 6 n

/-! ## Toward the fabric -/

/-- Is back-pressure asked for class k on every group able to carry it (R236)? -/
def classBlocked (s : State) (k : Nat) : Bool :=
  let able := (List.range 8).filter (fun g => (List.range 28).any (laneTakes s g))
  !able.isEmpty && able.all (fun g => bkpInForce s g k)

/-- The VOQs of class k that hold frames and a positive balance, by system port. -/
def voqsOf (s : State) (k : Nat) : List Nat :=
  (s.qd.queues.filter (fun e => decide (e.1 < voqSplit s) && e.1 % 8 == k && !e.2.descs.isEmpty && decide (0 < e.2.bal))).map (fun e => e.1 / 8)

/-- The frame at the head of a VOQ begins: LEN + 16 bytes of balance are spent, and an empty VOQ keeps no positive balance (R233). -/
def voqSpend (s : State) (q : Nat) (b : Buf) : State :=
  let x := queueOf s q
  let bal : Int := x.bal - (b.data.length + 16 : Nat)
  if x.descs = [] ∧ 0 < bal then bump (putQueue s q { x with bal := 0 }) (Reg.SCH_CNT 6) else putQueue s q { x with bal := bal }

/-- The head frame of VOQ q is dequeued. A frame dropped at dequeue does not begin, but leaves the VOQ empty all the same. -/
def voqTake (s : State) (q : Nat) (bad : Bool) : State :=
  match popHead s q with
  | (none, _) => s
  | (some d, s1) => match mfind s1.qd.bufs d.buf with
    | none => s1
    | some b =>
      let x := queueOf s1 q
      let s2 := if (dropWhy s1 b bad).isNone then voqSpend s1 q b
        else if x.descs = [] ∧ 0 < x.bal then bump (putQueue s1 q { x with bal := 0 }) (Reg.SCH_CNT 6) else s1
      voqAsk (takeOff s2 q d b bad) q

/-- VOQ_DEQUEUE (R236): the toward-fabric scheduler takes the next frame: the highest class first, round robin among system ports within a class. -/
def voqDequeue (bad : Bool) (s : State) : State :=
  let ready (k : Nat) : List Nat := (voqsOf s k).filter (fun p => !headHeld s (p * 8 + k))
  match [7, 6, 5, 4, 3, 2, 1, 0].find? (fun k => !classBlocked s k && !(ready k).isEmpty) with
  | none => s
  | some k =>
    match nextRound (ready k) (rrGet s (2 ^ 41 + k)) with
    | none => s
    | some p =>
      let held := ((upFrom k (8 - k)).map (fun j => countIf (fun x => headHeld s (x * 8 + j)) (voqsOf s j))).sum
      voqTake (skipped (perf (rrPut s (2 ^ 41 + k) p) 81 0) held) (p * 8 + k) bad

/-- The command whose effect is `voqDequeue`. -/
def execVoqDequeue (bad : Bool) (s : State) : Out := .next (voqDequeue bad s)

/-! ## The egress tree -/

/-- Bytes that FD holds for L4 node n (R238, R495), each frame with its FCS (R6). -/
def inFlight (s : State) (n : Nat) : Nat :=
  let of (m : NMap (List EgFrame)) : Nat := (m.map (fun e => ((e.2.filter (fun f => f.port == n)).map (fun f => f.data.length + 4)).sum)).sum
  of s.qd.stairDown + of s.qd.egress + of s.qd.stage
    + (if n = 160 then ((s.hif.queue.filter (fun f => !f.sample)).map (fun f => f.block.length + f.bytes.length + 4)).sum else 0)

/-- Is L4 node n served: less than 8 KiB per lane plus one frame of MAX_LEN lies on FD for its port; 256 KiB for node 160 (R238, R495)? -/
def nodeServed (s : State) (n : Nat) : Bool :=
  if n = 160 then decide (inFlight s n < 262144)
  else decide (inFlight s n < 8192 * lanesPerPort (portMode s n) + maxLen s n)

/-- The egress queues below L4 node n that hold frames. -/
def queuesBelow (s : State) (n : Nat) : List Nat :=
  (s.qd.queues.filter (fun e => decide (voqSplit s ≤ e.1) && !e.2.descs.isEmpty && rootOf s e.1 == some n)).map (·.1)

/-- Is a queue fenced (R257)? -/
def fenced (s : State) (q : Nat) : Bool := s.qd.fences.any (fun f => f.newQ == q)

/-- Is a queue of port n paused, or its staging place taken (R250, R254)? -/
def queuePaused (s : State) (n q : Nat) : Bool :=
  decide (n < 160) && (bit (getF s (Reg.LIN_PORT_STAT_PAUSED n)) (pclass s q) || !(staged s n (pclass s q)).isEmpty)

/-- Is a queue of port n gated (R253)? -/
def queueGated (s : State) (n q : Nat) : Bool := decide (n < 160) && gateBlocks s n (pclass s q)

/-- May a node send by its maximum shaper, and is it due by its minimum (R240, R245)? A TE on the wheel lies in the future. -/
def maxOk (s : State) (c : Nat) : Bool := bits (tabRead s Tab.schNode c) 35 16 == 0 || (mfind s.qd.wheel (2 * c + 1)).isNone
def minDue (s : State) (c : Nat) : Bool := bits (tabRead s Tab.schNode c) 19 16 != 0 && (mfind s.qd.wheel (2 * c)).isNone

/-- Is a queue below node n ready by itself (R240)? -/
def queueReady (s : State) (n q : Nat) : Bool := !headHeld s q && !fenced s q && !queuePaused s n q && !queueGated s n q

/-- The ready paths below node n, from L4 down to L0. -/
def readyPaths (s : State) (n : Nat) : List (List Nat) :=
  (((queuesBelow s n).filter (queueReady s n)).filterMap (queuePath s)).filterMap (fun l => if l.all (maxOk s) then some l.reverse else none)

/-- DWRR WEIGHT of a child in bytes. -/
def quantum (s : State) (c : Nat) : Nat := max 1 (bits (tabRead s Tab.schNode c) 3 16) * 64

/-- Deficits rise until one of the children has a positive one (R241). -/
def dwrrFill (s : State) (l : List Nat) : State :=
  if l.any (fun c => decide (0 < (nodeSt s c).deficit)) then s
  else
    let rounds := (l.map (fun c => ((-(nodeSt s c).deficit) / (quantum s c : Int) + 1).toNat)).foldl min (2 ^ 64)
    l.foldl (fun a c => putNode a c { nodeSt a c with deficit := (nodeSt a c).deficit + (rounds * quantum s c : Nat) }) s

/-- The child that `pick` takes at node n among its ready children, and whether in the excess pass (R240, R241). -/
def pickChild (s : State) (n : Nat) (kids : List Nat) : Option (Nat × Bool × State) :=
  let at_ (excess : Bool) (pr : Nat) : List Nat := kids.filter (fun c => bits (tabRead s Tab.schNode c) 0 3 == pr && (excess || minDue s c))
  let tries := (List.range 8).map (fun p => (false, p)) ++ (List.range 8).map (fun p => (true, p))
  match tries.find? (fun t => !(at_ t.1 t.2).isEmpty) with
  | none => none
  | some (excess, pr) =>
    let l := at_ excess pr
    let rk := n * 8 + pr + (if excess then 2 ^ 42 else 0)
    let s1 := if excess then dwrrFill s l else s
    let cand := if excess then l.filter (fun c => decide (0 < (nodeSt s1 c).deficit)) else l
    (nextRound cand (rrGet s1 rk)).map (fun c => (c, excess, rrPut s1 rk c))

/-- The path from node n through ready children down to a queue, over what is left of the ready paths below it. -/
def pickPath : Nat → State → Nat → List (List Nat) → List (Nat × Bool) × State
  | 0, s, _, _ => ([], s)
  | k + 1, s, n, l =>
    match pickChild s n ((l.filterMap List.head?).dedup.mergeSort (fun a b => decide (a ≤ b))) with
    | none => ([], s)
    | some (c, x, s1) =>
      let (r, s2) := pickPath k s1 c ((l.filter (fun p => p.head? == some c)).map (fun p => p.drop 1))
      ((c, x) :: r, s2)

/-- The counted length of a frame of LEN bytes at a node (R248). -/
def countedLen (s : State) (c len : Nat) : Nat :=
  (max 1 ((len : Int) + 4 + signed 7 (bits (tabRead s Tab.schNode c) 51 7))).toNat

/-- One shaper's TE after a frame of counted length `len` at `now` (R244). -/
def teNext (s : State) (prof te now len : Nat) : Nat :=
  if prof = 0 then te
  else
    let inc := profInc s prof
    let b := max (bits (tabGet s Tab.shaper prof) 31 24 * inc) (16 * 2 ^ 32)
    max te (now - b) + len * inc

/-- A node on the path of a dequeued frame advances both its shapers, and pays its deficit when it was chosen in the excess pass (R241, R242). -/
def nodePay (s : State) (c len : Nat) (excess : Bool) : State :=
  let v := tabRead s Tab.schNode c
  let x := nodeSt s c
  let n := countedLen s c len
  let now := epochFine s
  let d := if excess then x.deficit - (n : Nat) else x.deficit
  stateDue (putTe s c { teMin := teNext s (bits v 19 16) x.teMin now n, teMax := teNext s (bits v 35 16) x.teMax now n, deficit := d }) (2 * c + 1)

/-- Does a frame wait below a node? -/
def nodeBusy (s : State) (c : Nat) : Bool :=
  s.qd.queues.any (fun e => decide (voqSplit s ≤ e.1) && !e.2.descs.isEmpty && (match queuePath s e.1 with | some l => l.contains c | none => false))

/-- Nodes above queue q whose subtree is empty have a deficit of 0 (R241). -/
def emptied (s : State) (q : Nat) : State :=
  match queuePath s q with
  | none => s
  | some l => l.foldl (fun a c => if nodeBusy a c then a else putNode a c { nodeSt a c with deficit := 0 }) s

/-- EGRESS_SELECT (R238, R240 to R242, R249): the egress scheduler serves L4 node n: it picks a path to a queue and dequeues its head frame. `bad` says that a stored word of the frame
is uncorrectable. -/
def egressSelect (n : Fin 161) (bad : Bool) (s : State) : State :=
  if !nodeServed s n then s
  else
    let below := queuesBelow s n
    let s0 := if below.any (queueGated s n) then perf s 81 7 else s
    match pickPath 4 s0 (0x149000 + n.val) ((readyPaths s n).map (fun l => l.drop 1)) with
    | ([a, b, c, (q, x)], s1) =>
      match popHead s1 q with
      | (none, _) => s
      | (some d, s2) => match mfind s2.qd.bufs d.buf with
        | none => s2
        | some buf =>
          let s3 := skipped (perf s2 81 0) (countIf (headHeld s) below)
          let s4 := [(0x149000 + n.val, false), a, b, c, (q, x)].foldl (fun t e => nodePay t e.1 buf.data.length e.2) s3
          emptied (takeOff s4 q d buf bad) q
    | _ => s0

/-- The command whose effect is `egressSelect`. -/
def execEgressSelect (n : Fin 161) (bad : Bool) (s : State) : Out := .next (egressSelect n bad s)

/-! ## The calendar wheel -/

/-- The widths of the slots of rings 1 and 2 in units of 2^-32 ticks (Table 9-6). -/
def slot1 : Nat := 16384 * 2 ^ 32
def slot2 : Nat := 67108864 * 2 ^ 32

/-- The TE of a wheel entry. -/
def wheelTe (s : State) (k : Nat) : Nat := if k % 2 = 0 then (nodeSt s (k / 2)).teMin else (nodeSt s (k / 2)).teMax

/-- The ring in which an entry of TE `te` stands at `now`, after ring r: entries move inward at the start of their slot. -/
def ringMove (now te r : Nat) : Nat :=
  let r1 := if r = 2 ∧ te / slot2 ≤ now / slot2 then 1 else r
  if r1 = 1 ∧ te / slot1 ≤ now / slot1 then 0 else r1

/-- CALENDAR_SLOT (R245): at a ring-0 slot boundary of 4 ticks, nodes whose TE has passed become eligible, and entries move between rings. -/
def calendarSlot (s : State) : State :=
  let now := epochFine s
  let edge := now / (4 * 2 ^ 32) * (4 * 2 ^ 32)
  let m := (s.qd.wheel.filter (fun e => decide (edge < wheelTe s e.1))).map (fun e => (e.1, ringMove now (wheelTe s e.1) e.2))
  { s with qd := { s.qd with wheel := m } }

/-- The command whose effect is `calendarSlot`. -/
def execCalendarSlot (s : State) : Out := .next (calendarSlot s)

/-! ## Fences -/

/-- A fence ends. -/
def fenceEnd (s : State) (f : Fence) : State := fenceCount { s with qd := { s.qd with fences := s.qd.fences.erase f } }

/-- FENCE_LIFT (R257): the old queue of fence i is empty, and the fenced queue becomes ready. -/
def fenceLift (i : Nat) (s : State) : State :=
  match s.qd.fences[i]? with
  | some f => if queueBusy s f.oldQ then s else fenceEnd s f
  | none => s

/-- The command whose effect is `fenceLift`. -/
def execFenceLift (i : Nat) (s : State) : Out := .next (fenceLift i s)

/-- FENCE_TIMEOUT (R257): FENCE_US have passed; every frame left in the old queue is dropped, and the fence lifts. -/
def fenceTimeout (i : Nat) (s : State) : State :=
  match s.qd.fences[i]? with
  | some f => fenceEnd (emptied (flushQueue s f.oldQ (fun a => bump a (Reg.SCH_CNT 7))) f.oldQ) f
  | none => s

/-- The command whose effect is `fenceTimeout`. -/
def execFenceTimeout (i : Nat) (s : State) : Out := .next (fenceTimeout i s)

/-! ## The epoch -/

/-- EPOCH_WINDOW (R425): a window of 1 ms of the PTP clock ends; the correction c of the next one makes the epoch advance 1,600,000 ticks more than the windows
before fell short, within ±1,000 ppm. -/
def epochWindow (s : State) : State :=
  let cycles : Int := ((s.tick - s.qd.epochTick) * 8 : Nat)
  if !s.boot.up || cycles == 0 then s
  else
    let base := epochFine s
    let goal : Nat := s.qd.epochGoal + 1600000 * 2 ^ 32
    let want : Int := 1600000 * (2 : Int) ^ 32 + ((goal : Int) - base)
    let lim : Int := (2 : Int) ^ 32 / 1000
    let c := max (-lim) (min lim (want / cycles - (2 : Int) ^ 32))
    { s with qd := { s.qd with epochBase := base, epochTick := s.tick, epochCorr := c, epochGoal := goal } }

/-- The command whose effect is `epochWindow`. -/
def execEpochWindow (s : State) : Out := .next (epochWindow s)

end Sys2Proof.Machine
end

