-- ==== Sys2Proof/Machine/FabTx.lean ====
section
/-! DEFINITION. The transmit side of the fabric interface: link training (R261), cells (R269 to R273), the Caravan frame (R263 to R268, R274) and the sending of one frame
period on every lane. -/

namespace Sys2Proof.Machine

/-! ## Calibration and training -/

/-- FABRIC_LANE_CALIBRATION (R261): a lane's calibration passes, or fails and leaves the lane out of service until the next start. It runs in BRINGUP, and in JOINING of
the slice (R564), and fails for want of RCAL_FAB (R474). Each lane that fails is reported, whatever stands of its group. -/
def fabricLaneCalibration (g : Fin 8) (l : Fin 28) (ok : Bool) (s : State) : State :=
  if s.top != .bringup && getF s (Reg.PWR_SLICE_STAT_STATE (20 + g)) != 6 then s
  else if (ok && rcalOk s 1) || flag s (Reg.FAB_LANE_STAT_OOS g l) then s
  else fabFollowGroup s (levelMore (setB s (Reg.FAB_LANE_STAT_OOS g l) true) (Src.fabLaneOos g) (locSlice 1 (20 + g)) l) g

/-- The command whose effect is `fabricLaneCalibration`. -/
def execFabricLaneCalibration (g : Fin 8) (l : Fin 28) (ok : Bool) (s : State) : Out := .next (fabricLaneCalibration g l ok s)

/-- FABRIC_LINK_TRAINING_DONE (R261): the training that runs on a lane completes or fails. -/
def fabricLinkTrainingDone (g : Fin 8) (l : Fin 28) (ok : Bool) (s : State) : State :=
  let k := flk g l
  if !s.fab.training.contains k then s
  else { s with fab := { s.fab with training := s.fab.training.erase k, trainFail := if ok then s.fab.trainFail else k :: s.fab.trainFail.erase k } }

/-- The command whose effect is `fabricLinkTrainingDone`. -/
def execFabricLinkTrainingDone (g : Fin 8) (l : Fin 28) (ok : Bool) (s : State) : Out := .next (fabricLinkTrainingDone g l ok s)

/-- FABRIC_TRAINING_RETRY (R261): a failed training is retried while the group is not DISABLED. -/
def fabricTrainingRetry (g : Fin 8) (l : Fin 28) (s : State) : State :=
  let k := flk g l
  if flag s (Reg.FAB_GRP_CFG_LT_EN g) && s.fab.trainFail.contains k && fabTxNow s g != 0 then
    { s with fab := { s.fab with training := k :: s.fab.training.erase k, trainFail := s.fab.trainFail.erase k } }
  else s

/-- The command whose effect is `fabricTrainingRetry`. -/
def execFabricTrainingRetry (g : Fin 8) (l : Fin 28) (s : State) : Out := .next (fabricTrainingRetry g l s)

/-! ## Cells on the wire -/

/-- Bytes 0 to 13 of a cell header (Table 10-4). -/
def cellHead (c : Cell) : Bytes :=
  beBytes 14 ((c.typ % 8 * 2 ^ 125 + c.src % 65536 * 2 ^ 108 + c.dst % 65536 * 2 ^ 92 + c.cls % 8 * 2 ^ 89 + c.seq % 2 ^ 20 * 2 ^ 69 + b2n c.first * 2 ^ 68
    + b2n c.last * 2 ^ 67 + c.data.length % 256 * 2 ^ 59) / 65536)

/-- The 256 bytes of a cell (R269). -/
def cellBytes (c : Cell) : Bytes :=
  let h := cellHead c
  let p := fit 240 c.data
  h ++ beBytes 2 (crc16 (h ++ p)) ++ p

/-- An entry of a REQUEST or CREDIT cell (Table 10-6). -/
def crEntBytes (e : CrEnt) : Bytes := beBytes 8 (e.port % 65536 * 2 ^ 48 + e.cls % 8 * 2 ^ 45 + e.count % 16 * 2 ^ 41 + 2 ^ 40)

/-- The cell that carries the pending entries of the first one's node, up to 30, and what is left of them (R272). -/
def entryCell (s : State) (typ : Nat) (l : List CrEnt) : Option (Cell × List CrEnt) :=
  match l with
  | [] => none
  | e :: _ =>
    let mine := (l.filter (fun x => x.node == e.node)).take 30
    let rest := l.filter (fun x => x.node != e.node) ++ (l.filter (fun x => x.node == e.node)).drop 30
    some ({ typ := typ, src := getF s Reg.FAB_NODE_ID, dst := e.node * 2 ^ getF s Reg.FAB_NODE_PORT_SHIFT % 65536, data := mine.flatMap crEntBytes }, rest)

/-- The next cell that is not DATA: CONTROL, CREDIT, REQUEST (R272). -/
def nextOther (s : State) : Option (Cell × State) :=
  match s.fab.ctl with
  | c :: r => some (c, { s with fab := { s.fab with ctl := r } })
  | [] => match entryCell s 3 s.fab.credit with
    | some (c, r) => some (c, { s with fab := { s.fab with credit := r } })
    | none => match entryCell s 2 s.fab.request with
      | some (c, r) => some (c, { s with fab := { s.fab with request := r } })
      | none => none

/-- The first DATA cell that group g may carry (R273). -/
def nextData (s : State) (g : Nat) : Option (Cell × State) :=
  match s.fab.data.find? (fun c => !bkpInForce s g c.cls) with
  | some c => some (c, { s with fab := { s.fab with data := s.fab.data.erase c } })
  | none => none

/-- The cell for the next slot of a lane of group g whose frame holds `nd` other cells so far: at most 4 of them while DATA waits (R272). -/
def nextCell (s : State) (g nd : Nat) : Option (Cell × State) :=
  if s.fab.data = [] ∨ nd < 4 then
    match nextOther s with
    | some x => some x
    | none => nextData s g
  else nextData s g

/-- The cells placed in one frame period: per lane, its cells so far. -/
abbrev Placed := NMap (List Cell)

/-- One slot of every lane that takes cells, in the rotation's order; each lane gets a cell or none. -/
def fillSlot (lanes : List (Nat × Nat)) (x : State × Placed) : State × Placed :=
  lanes.foldl (fun x gl =>
    let k := flk gl.1 gl.2
    let mine := mget [] x.2 k
    let nd := countIf (fun c => c.typ != 1 && c.typ != 0) mine
    match nextCell x.1 gl.1 nd with
    | some (c, s1) =>
      let s2 := perf (if c.typ = 1 then perf s1 (60 + gl.1) 1 else s1) (60 + gl.1) 0
      ({ s2 with fab := { s2.fab with sprayAt := (gl.2 * 8 + gl.1 + 1) % 224 } }, mset x.2 k (some (mine ++ [c])))
    | none => (x.1, mset x.2 k (some (mine ++ [{}])))) x

/-- All 16 slots. -/
def fillSlots (lanes : List (Nat × Nat)) : Nat → State × Placed → State × Placed
  | 0, x => x
  | k + 1, x => fillSlots lanes k (fillSlot lanes x)

/-! ## The frame -/

/-- Byte m of the trail message of lane l of group g (Table 10-3). -/
def trailMsg (s : State) (g l : Nat) : Bytes :=
  let b := fit 255 ([0x01] ++ beBytes 8 s.otp.serial ++ beBytes 2 (getF s Reg.FAB_NODE_ID) ++ [byteOf (g % 16), byteOf (l % 32)])
  b ++ [byteOf (crc8 b)]

/-- Does the receive lane make the transmit lane send RDI (R266)? -/
def sendsRdi (s : State) (g l : Nat) : Bool := [0, 1, 2, 3, 5].any (defect s g l)

/-- The 16 overhead bytes of a frame (Table 10-2). -/
def overhead (s : State) (g l m : Nat) : Bytes :=
  let idleGrp := fabTxNow s g != 2
  let r := locReq s
  let plane := if r.1 = 0 ∨ r.1 = 12 ∨ r.1 = 15 then 15 else r.2
  let b5 := if idleGrp then 0x0F else r.1 * 16 + plane
  let b6 := b2n (flag s Reg.FAB_PROT_CFG_ARCH) * 16 + bridged s
  let q := if idleGrp then 0 else getF s Reg.CGM_BKP_STAT_REQ
  [0xA7, 0x5C, 0x3E, byteOf m, (trailMsg s g l).getD m 0, byteOf b5, byteOf b6, byteOf (b2n (sendsRdi s g l) * 128 + min 15 (rxLane s g l).bei)]
    ++ beBytes 2 (txLane s g l).bip ++ [byteOf q, byteOf (255 - q), byteOf q, byteOf (255 - q), 0, 0]

/-- Is the next frame of a lane the inserted idle one? -/
def idleDue (s : State) (g l : Nat) : Bool := decide (idlePeriod s ≤ (txLane s g l).since)

/-- Does a lane send Caravan frames: its group is not DISABLED, it is enabled and in service, its training is over (R261), and no generator acts on it (R578)? -/
def laneSends (s : State) (g l : Nat) : Bool :=
  fabTxNow s g != 0 && laneUsable s g l && !laneTrains s g l && !fabTest s g l genSet

/-- What the transmit balls of lane l of group g carry. -/
def fabOut (s : State) (g l : Nat) : LaneOut :=
  if fabTxNow s g == 0 || !laneUsable s g l || fabLoop s g l == 1 then .electricalIdle
  else if fabLoop s g l == 3 then .echo
  else if fabTest s g l genSet then .pattern
  else if laneTrains s g l then .training
  else .caravan

/-- A lane sends a frame of the given cells, past its loopback (R580). -/
def laneFrame (s : State) (g l : Nat) (cells : List Cell) : State :=
  let none_ : Cell := { typ := 0 }
  let all := (cells ++ List.replicate 16 none_).take 16
  let b := overhead s g l (mget 0 s.fab.mfas g) ++ all.flatMap cellBytes
  let due := idleDue s g l
  let s1 := putTx s g l { bip := bip16 b, since := if due then 0 else (txLane s g l).since + 1 }
  let s2 := carvTx s1 (flk g l) (fabLoop s g l) b
  if due then perf s2 (60 + g) 4 else s2

/-- Lanes in the order of the spray: over groups, then over lanes, from the place where the last frame period ended (R272). -/
def sprayLanes (s : State) : List (Nat × Nat) :=
  let all := (List.range 28).flatMap (fun l => (List.range 8).map (fun g => (g, l)))
  let l := all.filter (fun x => laneTakes s x.1 x.2 && !idleDue s x.1 x.2)
  let at_ (x : Nat × Nat) : Bool := decide (s.fab.sprayAt ≤ x.2 * 8 + x.1)
  l.filter at_ ++ l.filter (fun x => !at_ x)

/-- Every lane sends its frame, with the cells placed. -/
def sendAll (s : State) (p : Placed) : State :=
  ((List.range 8).flatMap (fun g => (List.range 28).map (fun l => (g, l)))).foldl
    (fun a x => if laneSends a x.1 x.2 then laneFrame a x.1 x.2 (mget [] p (flk x.1 x.2)) else a) s

/-- The multiframe numbers go on in every group that is not DISABLED (R263). -/
def nextMfas (s : State) : State :=
  { s with fab := { s.fab with mfas := (List.range 8).foldl (fun m g => if fabTxNow s g = 0 then m else mput 0 m g ((mget 0 m g + 1) % 256)) s.fab.mfas } }

/-- The spray set follows the selected request at a frame boundary (R289). -/
def sprayChange (s : State) : State :=
  let x := sprayOf s (selReq s)
  (List.range 8).foldl (fun a g => setB a (Reg.FAB_GRP_STAT_IN_SPRAY g) (bit x g)) (setF s Reg.FAB_PROT_STAT_SPRAY x)

/-- CARAVAN_FRAME_SEND (R263, R272, R338): one frame period of the fabric lanes, or of the Gallery lanes: every lane that sends begins a frame, with the cells that wait. -/
def caravanFrameSend (gal : Bool) (s : State) : State :=
  if gal then galFrameSend s
  else if (List.range 8).all (fun g => fabTxNow s g == 0) then s
  else
    let s1 := sprayChange s
    let (s2, p) := fillSlots (sprayLanes s1) 16 (s1, [])
    nextMfas (sendAll s2 p)

/-- The command whose effect is `caravanFrameSend`. -/
def execCaravanFrameSend (gal : Bool) (s : State) : Out := .next (caravanFrameSend gal s)

end Sys2Proof.Machine
end

