-- ==== Sys2Proof/Machine/Dram.lean ====
section
/-! DEFINITION. Packet DRAM (chapter 11): interface states (R322 to R324), the write path and its lines (R302 to R306, R315 to R320), reads at dequeue (R194, R316, R318), refresh and
temperature (R307, R308), training (R310), retraining pauses (R311 to R314) and tests of free buffers (R321); and what the maintenance arbiter knows of them (R566, R567). -/

namespace Sys2Proof.Machine

/-! ## Interfaces -/

/-- The state of interface i (Table 11-3): 0 ABSENT, 1 TRAINING, 2 IN_SERVICE, 3 ANNOUNCED, 4 PAUSED, 5 DRAINING, 6 FAILED, 7 OUT_OF_SERVICE. -/
def diState (s : State) (i : Nat) : Nat := getF s (Reg.DRC_DI_STAT_STATE i)

/-- Interface i enters a state. -/
def diEnter (s : State) (i st : Nat) : State := setF s (Reg.DRC_DI_STAT_STATE i) st

/-- Interface i enters TRAINING (R310); what its temperature moves from is not read yet (R311). -/
def diTrain (s : State) (i : Nat) : State := diEnter { s with drm := { s.drm with tempAt := merase s.drm.tempAt i } } i 1

/-- Does interface i carry a device (R299)? -/
def diPop (s : State) (i : Nat) : Bool := bit (getF s Reg.DRC_POP_POP) i

/-- The DRAM pools follow the interfaces in service (R184). -/
def dramPools (s : State) : State := (List.range 8).foldl (fun a k => poolFollow a 1 k) s

/-- The slice of interface i. -/
def diSlice (i : Nat) : Nat := 28 + i / 2

/-- Event e of interface i in its performance group (Table 21-1): 0 lines read, 2 lines written, 4 pauses, 6 refresh commands. -/
def diPerf (s : State) (i e n : Nat) : State := perfAdd s (68 + i / 2) (e + i % 2) n

/-- An interface fails (R323, R324), and its buffers leave the pools. -/
def diFail (s : State) (i : Nat) : State := dramPools (dramFailed s i)

/-- A transaction of interface i has failed after its last retry (R316): the report, and the failure of the interface when more than FAIL_TH fell within 1 ms (R323). -/
def diLinkFail (s : State) (i loc detail : Nat) : State :=
  let l := s.tick :: (mget [] s.drm.fails i).filter (fun t => withinUs s t 1000)
  let s1 := report { s with drm := { s.drm with fails := mput [] s.drm.fails i l } } (Src.drcLinkCrc i) loc detail
  if max 1 (getF s Reg.DRC_RETRY_CFG_FAIL_TH) < l.length then diFail s1 i else s1

/-- Row, channel, bank group and bank of a line of an interface (R303). -/
def dramMap (s : State) (line : Nat) : Nat × Nat × Nat × Nat :=
  let row := Config.dramRow (getF s Reg.DRC_GLB_CFG_DENSITY) line % 4096
  match getF s Reg.DRC_GLB_CFG_MAP with
  | 0 => (row, bits line 0 2, bits line 2 2, bits line 4 2)
  | 1 => (row, bits line 0 2, bits line 4 2, bits line 2 2)
  | 2 => (row, bits line 0 2, Nat.xor (bits line 2 2) (bits row 0 2), Nat.xor (bits line 4 2) (bits row 2 2))
  | _ => (row, bits line 4 2, bits line 0 2, bits line 2 2)

/-- The location code of a line of interface i (R303, R320). -/
def dramLoc (s : State) (i line : Nat) : Nat :=
  let (row, ch, bg, bk) := dramMap s line
  locCode 1 (diSlice i) (i % 2) (bg * 4 + bk) ch row 255

/-- The bank in which a line stands, its channel counted in (R303). -/
def dramBank (s : State) (line : Nat) : Nat :=
  let (_, ch, bg, bk) := dramMap s line
  ch * 16 + bg * 4 + bk

/-- The line number of line j of a buffer (R302). -/
def lineNo (h j : Nat) : Nat := Config.dramLine h + j

/-- The DETAIL of a report about a line: L, and whether a read-modify-write met it (R319, R320, Table 20-6). -/
def lineDetail (rmw : Bool) (h j : Nat) : Nat := lineNo h j % 2 ^ 31 + b2n rmw * 2 ^ 31

/-! ## Line integrity tags -/

/-- The tag of line L with 64 bytes (R317). -/
def lineTag (line : Nat) (b : Bytes) : Nat :=
  let c := crc16tag (beBytes 4 line ++ b)
  if c = 0xFFFF then 0xFFFE else c

/-- A line read back: its bytes and its tag, each with the bits of `flip` changed on the way, and whether it verifies. -/
structure LRead where
  bytes : Bytes
  tag : Nat
  ok : Bool

/-- What a read of line j of a buffer gives (R317). Bits 511 to 0 of `flip` are those of the 64 bytes, the first byte highest, in which what is read differs from what was written; bits 527
to 512 are those of the tag. -/
def lineRead (s : State) (h j flip : Nat) : LRead :=
  let x := mget {} s.drm.store (h * 512 + j)
  let b := beBytes 64 (Nat.xor (beAt x.bytes 0 64) (flip % 2 ^ 512))
  let t := Nat.xor x.tag (flip / 2 ^ 512 % 65536)
  { bytes := b, tag := t, ok := t == lineTag (lineNo h j) b }

/-- Is the tag of a line the poison value (R317, R319)? -/
def isPoison (s : State) (h j : Nat) : Bool := (mget {} s.drm.store (h * 512 + j)).tag == 0xFFFF

/-- The tag line of a line, and whether the cache of interface i holds it (R317). -/
def tagOf (h j : Nat) : Nat := lineNo h j / 32
def tagCached (s : State) (i h j : Nat) : Bool := (mget [] s.drm.cache i).contains (tagOf h j)

/-- The tag line of a line is used: it is filled into the cache of 4,096 tag lines, whose longest unused one makes room and is written back if it is changed (R317). -/
def tagUse (s : State) (i h j : Nat) : State :=
  let l := (mget [] s.drm.cache i).filter (· != tagOf h j) ++ [tagOf h j]
  let keep := l.drop (l.length - 4096)
  { s with drm := { s.drm with cache := mput [] s.drm.cache i keep, dirty := mput [] s.drm.dirty i ((mget [] s.drm.dirty i).filter (fun t => keep.contains t)) } }

/-- The tag line of a written line is changed (R317). -/
def tagChange (s : State) (i h j : Nat) : State :=
  let s1 := tagUse s i h j
  { s1 with drm := { s1.drm with dirty := mput [] s1.drm.dirty i ((mget [] s1.drm.dirty i).filter (· != tagOf h j) ++ [tagOf h j]) } }

/-- Does the controller write to interface i now (R313)? From an announcement until the pause ends, writes wait. -/
def diWrites (s : State) (i : Nat) : Bool := diState s i == 2 || diState s i == 5

/-- Link retries of a write: `retries` up to WR_RETRY, which a write that fails has used up (R315). -/
def writeRetries (s : State) (retries : Nat) (ok : Bool) : Nat :=
  let lim := getF s Reg.DRC_RETRY_CFG_WR_RETRY
  if ok then min retries lim else lim

/-- The number of a line of the tag region, which follows the usable lines (R301, R317). -/
def tagLineNo (s : State) (t : Nat) : Nat := (2 + getF s Reg.DRC_GLB_CFG_DENSITY) * 2 ^ 24 / 32 * 31 + t

/-- TAG_WRITEBACK (R315, R317): the tag line of interface i whose last change is oldest is written back, after some retries. DESIGN CHOICE: one that cannot be written stays changed in the
cache. -/
def tagWriteback (i : Fin 24) (retries : Nat) (ok : Bool) (s : State) : State :=
  match mget [] s.drm.dirty i with
  | [] => s
  | t :: r =>
    if !diWrites s i then s
    else
      let s1 := bumpN { s with drm := { s.drm with dirty := mput [] s.drm.dirty i (if ok then r else r ++ [t]) } } (Reg.DRC_DI_CNT i 4) (writeRetries s retries ok)
      if ok then s1 else diLinkFail (bump s1 (Reg.DRC_DI_CNT i 6)) i (dramLoc s i (tagLineNo s t)) (tagLineNo s t % 2 ^ 31)

/-- The command whose effect is `tagWriteback`. -/
def execTagWriteback (w : TagWrite) (s : State) : Out :=
  match w with
  | ⟨i, retries, ok⟩ => .next (tagWriteback i retries ok s)

/-! ## Writes -/

/-- The bytes of a frame in DRAM (R182, R302): its header and what is stored of it. -/
def frameBytes (b : Buf) : Bytes := hdrBytes b.hdr b.size ++ b.data

/-- The first `n` bytes of line j of a buffer, completed with 0x00 (R302, R306). -/
def lineBytes (b : Buf) (j n : Nat) : Bytes := fit 64 (((frameBytes b).drop (64 * j)).take n)

/-- A line of interface i is written with its tag, or with the poison value. -/
def lineWritten (s : State) (i : Nat) (x : WLine) (b : Bytes) (poisoned : Bool) : State :=
  let t := if poisoned then 0xFFFF else lineTag (lineNo x.buf x.line) b
  let s1 := diPerf (bump s (Reg.DRC_DI_CNT i 1)) i 2 1
  tagChange { s1 with drm := { s1.drm with store := mset s1.drm.store (x.buf * 512 + x.line) (some { bytes := b, tag := t, got := x.have_ }) } } i x.buf x.line

/-- The reading half of a read-modify-write (R315, R319): the line read back, with `flip` as in `lineRead`; one that fails its tag is counted and reported with RMW. The answer is the merged
line and whether it is to be poisoned. -/
def lineMerge (s : State) (i : Nat) (x : WLine) (new : Bytes) (flip : Nat) : Bytes × Bool × State :=
  let r := lineRead s x.buf x.line flip
  let got := (mget {} s.drm.store (x.buf * 512 + x.line)).got
  let s1 := tagUse (diPerf (bump (bump s (Reg.DRC_DI_CNT i 2)) (Reg.DRC_DI_CNT i 0)) i 0 1) i x.buf x.line
  let s2 := if r.ok then s1 else report (bump s1 (Reg.DRC_DI_CNT i 7)) (Src.drcTagFail i) (dramLoc s i (lineNo x.buf x.line)) (lineDetail true x.buf x.line)
  (r.bytes.take got ++ new.drop got, !r.ok, s2)

/-- A buffer is marked failed (R316). -/
def bufFail (s : State) (h : Nat) : State :=
  { s with qd := { s.qd with bufs := match mfind s.qd.bufs h with | some b => mset s.qd.bufs h (some { b with bad := true }) | none => s.qd.bufs } }

/-- Does a refresh block a bank of interface i (R308)? -/
def bankHeld (s : State) (i bank : Nat) : Bool :=
  match mfind s.drm.refreshed (64 * i + bank) with
  | some t => decide (s.tick < t + Config.refreshTicks)
  | none => false

/-- The write of line `x`, taken off the queue of interface i (R315, R316, R319). -/
def writeLine (s : State) (i : Nat) (x : WLine) (b : Buf) (ok : Bool) (flip : Nat) : State :=
  let new := lineBytes b x.line x.have_
  let (l, bad, s1) := if x.rmw then lineMerge s i x new flip else (new, false, s)
  if ok then lineWritten s1 i x l bad
  else diLinkFail (bufFail (bump s1 (Reg.DRC_DI_CNT i 6)) x.buf) i (dramLoc s i (lineNo x.buf x.line)) (lineDetail false x.buf x.line)

/-- DRAM_WRITE_COMPLETE (R305, R308, R315, R316, R319): the write of the oldest line in the write queue of interface i that is not held open ends after some retries. `ok` says that it was
written; `flip` is what was wrong with the line read back for a read-modify-write, as in `lineRead`. -/
def dramWriteComplete (i : Fin 24) (retries : Nat) (ok : Bool) (flip : Nat) (s : State) : State :=
  let q := mget [] s.drm.wq i
  match q.find? (fun x => !x.opened) with
  | none => s
  | some x =>
    match mfind s.qd.bufs x.buf with
    | none => wqPut s i (q.erase x)
    | some b =>
      if !diWrites s i || bankHeld s i (dramBank s (lineNo x.buf x.line)) then s
      else writeLine (bumpN (wqPut s i (q.erase x)) (Reg.DRC_DI_CNT i 4) (writeRetries s retries ok)) i x b ok flip

/-- The command whose effect is `dramWriteComplete`. -/
def execDramWriteComplete (i : Fin 24) (retries : Nat) (ok : Bool) (flip : Nat) (s : State) : Out := .next (dramWriteComplete i retries ok flip s)

/-- MERGE_TIMEOUT (R306): the oldest open line of interface i has been held for MERGE_NS, and is to be written as it is, with 0x00 in place of what is missing; the write itself goes through the
queue like every other. -/
def mergeTimeout (i : Fin 24) (s : State) : State :=
  let q := mget [] s.drm.wq i
  match q.find? (fun x => x.opened) with
  | none => s
  | some x => bump (wqPut s i (q.map (fun y => if y = x then { y with opened := false } else y))) (Reg.DRC_DI_CNT i 14)

/-- The command whose effect is `mergeTimeout`. -/
def execMergeTimeout (i : Fin 24) (s : State) : Out := .next (mergeTimeout i s)

/-! ## Reads -/

/-- The frame at place k among the frames leaving queue q becomes readable, or is taken away; its read is over. -/
def leavingSet (s : State) (q k : Nat) (keep : Bool) : State :=
  let x := queueOf s q
  let h := (x.leaving[k]?.map (fun e => e.1.buf)).getD 0
  let l := if keep then x.leaving.mapIdx (fun j e => if j = k then (e.1, true) else e) else x.leaving.eraseIdx k
  putQueue { s with drm := { s.drm with reads := s.drm.reads.filter (· != h) } } q { x with leaving := l }

/-- The lines of a buffer that a read takes from DRAM: a line still in the write queue is served from it (R305). -/
def linesToRead (s : State) (h : Nat) (b : Buf) : List Nat :=
  let queued := ((mget [] s.drm.wq b.di).filter (fun x => x.buf == h)).map (·.line)
  (List.range (lineCount b.size)).filter (fun j => !queued.contains j)

/-- The banks of those lines. -/
def readBanks (s : State) (h : Nat) (b : Buf) : List Nat := (linesToRead s h b).map (fun j => dramBank s (lineNo h j))

/-- The reads issued among buffers in the order of their dequeue (R304): one frame's lines are issued while at most 2,048 line transactions of its interface and 32,768 in all are in flight. -/
def readsIssued (s : State) : List Nat → Nat → NMap Nat → List Nat
  | [], _, _ => []
  | h :: r, all, per =>
    match mfind s.qd.bufs h with
    | none => readsIssued s r all per
    | some b =>
      let n := (linesToRead s h b).length
      let m := mget 0 per b.di + n
      if all + n ≤ 32768 ∧ m ≤ 2048 then h :: readsIssued s r (all + n) (mput 0 per b.di m) else readsIssued s r all per

/-- May the read of a buffer be complete (R304, R308): it is issued, no refresh blocks a bank of it, and no read of the same interface issued before it has all its lines in banks that are served
to it first? -/
def readMay (s : State) (h : Nat) (b : Buf) : Bool :=
  let issued := readsIssued s s.drm.reads 0 []
  let mine := readBanks s h b
  let before (e : Nat) : Bool := match mfind s.qd.bufs e with | some x => x.di == b.di && (readBanks s e x).all (fun k => mine.contains k) | none => false
  (issued.contains h || !s.drm.reads.contains h) && !mine.any (bankHeld s b.di) && !(issued.takeWhile (· != h)).any before

/-- One line of a frame whose tag does not verify (R318): a tag that reads as poison is counted alone. -/
def lineFails (i h : Nat) (s : State) (e : Nat × LRead) : State :=
  if e.2.tag = 0xFFFF then bump s (Reg.DRC_DI_CNT i 8)
  else report (bump s (Reg.DRC_DI_CNT i 7)) (Src.drcTagFail i) (dramLoc s i (lineNo h e.1)) (lineDetail false h e.1)

/-- One line whose read failed after its last retry (R316). -/
def lineLost (i h : Nat) (s : State) (j : Nat) : State :=
  diLinkFail (bump s (Reg.DRC_DI_CNT i 5)) i (dramLoc s i (lineNo h j)) (lineDetail false h j)

/-- A frame dropped at its read, for reason r of Table 8-2. -/
def readDrop (s : State) (q k r h : Nat) : State :=
  let s1 := releaseBuf (dropCount (leavingSet s q k false) q r) h
  leaveReady ((queueOf s1 q).leaving.length + 1) s1 q

/-- Retries of the reads of a frame (R313, R315): every failed line has used up RD_RETRY, unless a pause that has begun cut it off; a tag line that is not cached is read too. -/
def readRetries (s : State) (i retries lines failed : Nat) : Nat :=
  let lim := min 2 (getF s Reg.DRC_RETRY_CFG_RD_RETRY)
  max (if diState s i = 4 then 0 else lim * failed) (min retries (lim * lines))

/-- A frame whose lines all verify takes what was read, where that differs from what was written and yet verifies. -/
def readTaken (s : State) (h : Nat) (b : Buf) (l : List (Nat × LRead)) : State :=
  let line (j : Nat) : Bytes := match l.find? (fun e => e.1 == j) with | some e => e.2.bytes | none => lineBytes b j 64
  let all := (List.range (lineCount b.size)).flatMap line
  { s with qd := { s.qd with bufs := mset s.qd.bufs h (some { b with hdr := (hdrOf all).1, data := (all.drop 16).take b.size }) } }

/-- The read of a frame's lines from interface i ends (R315 to R318): some retries, the lines in `failed` not read after the last one, and `flips` as in `lineRead` for the others, each of which is
verified. -/
def readFrame (s : State) (q k : Nat) (d : Desc) (b : Buf) (retries : Nat) (failed : List Nat) (flips : NMap Nat) : State :=
  let i := b.di
  let lines := linesToRead s d.buf b
  let lost := lines.filter failed.contains
  let read := (lines.filter (fun j => !failed.contains j)).map (fun j => (j, lineRead s d.buf j (mget 0 flips j)))
  let fills := countIf (fun j => !tagCached s i d.buf j) lines
  let s1 := bumpN s (Reg.DRC_DI_CNT i 3) (readRetries s i retries (lines.length + fills) lost.length)
  let s2 := lines.foldl (fun a j => tagUse a i d.buf j) (diPerf (bumpN s1 (Reg.DRC_DI_CNT i 0) read.length) i 0 read.length)
  let bad := read.filter (fun e => !e.2.ok)
  if lost = [] ∧ bad = [] then
    let s3 := leavingSet (if flips = [] then s2 else readTaken s2 d.buf b read) q k true
    leaveReady ((queueOf s3 q).leaving.length + 1) s3 q
  else readDrop (bad.foldl (lineFails i d.buf) (lost.foldl (lineLost i d.buf) s2)) q k 13 d.buf

/-- DRAM_READ_COMPLETE (R194, R196, R304, R316, R318): the read of the frame at place k among those leaving queue q completes. -/
def dramReadComplete (q : Fin 1048576) (k retries : Nat) (failed : List Nat) (flips : NMap Nat) (s : State) : State :=
  match (queueOf s q).leaving[k]? with
  | some (d, false) =>
    match mfind s.qd.bufs d.buf with
    | none => s
    | some b =>
      if b.lost || diDead s b.di then readDrop s q k 10 d.buf
      else if b.bad then readDrop s q k 13 d.buf
      else if !readMay s d.buf b then s
      else readFrame s q k d b retries failed flips
  | _ => s

/-- The command whose effect is `dramReadComplete`. -/
def execDramReadComplete (q : Fin 1048576) (k retries : Nat) (failed : List Nat) (flips : NMap Nat) (s : State) : Out := .next (dramReadComplete q k retries failed flips s)

/-! ## Maintenance that is due -/

/-- Is an activity due, or does its step run, on a resource? -/
def isDue (s : State) (a res : Nat) : Bool := s.slc.due.any (fun m => m.act == a && m.res == res)
def isRunning (s : State) (a res : Nat) : Bool := s.slc.running.any (fun m => m.act == a && m.res == res)

/-- An activity falls due on a resource; one that waits already stays as it is (R311, R566). -/
def fallDue (s : State) (a res : Nat) : State :=
  if isDue s a res then s else { s with slc := { s.slc with due := s.slc.due ++ [{ act := a, res := res, due := s.tick }] } }

/-- The step of an activity on a resource ends. -/
def stepEnds (s : State) (a res : Nat) : State :=
  { s with slc := { s.slc with running := s.slc.running.filter (fun m => !(m.act == a && m.res == res)) } }

/-! ## Training -/

/-- DRAM_TRAINING (R310): full training of interface i succeeds, or fails, which is reported each time. It fails for want of RCAL_DRAM_A or RCAL_DRAM_B (R474). -/
def dramTraining (i : Fin 24) (ok : Bool) (s : State) : State :=
  if diState s i ≠ 1 then s
  else
    let s1 := { s with drm := { s.drm with retryFail := s.drm.retryFail.filter (· != i.val) } }
    if ok && rcalOk s (2 + i / 12) then dramPools (levelOff (diEnter s1 i 2) (Src.drcTrainFail i))
    else levelMore (diEnter s1 i 7) (Src.drcTrainFail i) (locDi i) 0

/-- The command whose effect is `dramTraining`. -/
def execDramTraining (i : Fin 24) (ok : Bool) (s : State) : Out := .next (dramTraining i ok s)

/-! ## Refresh and temperature -/

/-- Has interface i a device that is refreshed (Table 11-3)? One that trains, is paused, or has no access is not. -/
def diRefreshes (s : State) (i : Nat) : Bool := diState s i == 2 || diState s i == 3 || diState s i == 5

/-- A refresh command goes to a bank of interface i, and blocks it (R308). -/
def refreshBank (s : State) (i bank : Nat) : State :=
  diPerf { s with drm := { s.drm with refreshed := mset s.drm.refreshed (64 * i + bank % 64) (some s.tick) } } i 6 1

/-- DRAM_REFRESH (R307, R308): a per-bank refresh command goes to a bank of interface i, where it is refreshed. -/
def dramRefresh (i : Fin 24) (bank : Fin 64) (s : State) : State := if diRefreshes s i then refreshBank s i bank else s

/-- The command whose effect is `dramRefresh`. -/
def execDramRefresh (w : DiBank) (s : State) : Out :=
  match w with
  | ⟨i, bank⟩ => .next (dramRefresh i bank s)

/-- The distance between two temperatures in °C held as 8 bits. -/
def tempDist (a b : Nat) : Nat := (signed 8 a - signed 8 b).natAbs

/-- A readout of `t` °C (Table 11-2, R311): the multiplier, HOT with its level, and a pause when it has moved by TEMP_STEP since the
last training. DEDUCED: that is since the first readout that follows the training's beginning. -/
def readout (s : State) (i t : Nat) : State :=
  let v := signed 8 t
  let x2 : Nat := getF s Reg.DRC_TEMP_CFG_T2X
  let x4 := max x2 (getF s Reg.DRC_TEMP_CFG_T4X)
  let xh := max x4 (getF s Reg.DRC_TEMP_CFG_THOT)
  let m := if v < x2 then 0 else if v < x4 then 1 else 2
  let hot := decide ((xh : Int) ≤ v)
  let s1 := setB (setF (setF s (Reg.DRC_DI_STAT_TEMP i) (ofSigned 8 v)) (Reg.DRC_DI_STAT_REF_MULT i) m) (Reg.DRC_DI_STAT_HOT i) hot
  let s2 := levelIs hot { s1 with drm := { s1.drm with tempFail := merase s1.drm.tempFail i } } (Src.drcHot i) (locDi i) 0
  let step := getF s Reg.DRC_MAINT_CFG_TEMP_STEP
  match mfind s.drm.tempAt i with
  | none => { s2 with drm := { s2.drm with tempAt := mset s2.drm.tempAt i (some t) } }
  | some a => if step ≠ 0 ∧ diServes s i ∧ step ≤ tempDist t a then fallDue s2 1 i else s2

/-- A readout that fails; the third in a row fails the interface (R307, R323). -/
def readoutFails (s : State) (i : Nat) : State :=
  let n := mget 0 s.drm.tempFail i + 1
  let s1 := { s with drm := { s.drm with tempFail := mput 0 s.drm.tempFail i n } }
  if n < 3 then s1 else diFail (setF s1 (Reg.DRC_DI_STAT_REF_MULT i) 2) i

/-- DRAM_TEMP_READOUT (R307, R311, R323): the temperature readout of interface i, none when it failed. -/
def dramTempReadout (i : Fin 24) (t : Option (Fin 256)) (s : State) : State :=
  if !diServes s i && diState s i != 5 && diState s i != 1 then s
  else match t with
    | some v => readout s i v
    | none => readoutFails s i

/-- The command whose effect is `dramTempReadout`. -/
def execDramTempReadout (i : Fin 24) (t : Option (Fin 256)) (s : State) : Out := .next (dramTempReadout i t s)

/-! ## Pauses -/

/-- RETRAIN_DUE (R311): a periodic pause of interface i falls due. -/
def retrainDue (i : Fin 24) (s : State) : State := if diServes s i then fallDue s 1 i else s

/-- The command whose effect is `retrainDue`. -/
def execRetrainDue (i : Fin 24) (s : State) : Out := .next (retrainDue i s)

/-- What a write of DRC_DI_CTL does (R311, Table 11-10). -/
def diCtl (i v : Nat) (s : State) : State := if bit v 0 && diServes s i then fallDue s 1 i else s

/-- DRC_RETRAIN (R311): the host writes 1 to RETRAIN of interface i. -/
def drcRetrain (i : Fin 24) (s : State) : State := operWrite s (Reg.DRC_DI_CTL i) 1 (diCtl i 1)

/-- The command whose effect is `drcRetrain`. -/
def execDrcRetrain (i : Fin 24) (s : State) : Out := .next (drcRetrain i s)

/-- PAUSE_BEGIN (R308, R313): 300 ns after the announcement the pause of interface i begins; every refresh that would fall due during it has been issued. -/
def pauseBegin (i : Fin 24) (s : State) : State :=
  if diState s i = 3 then diPerf (diEnter ((Config.pauseBanks i s.tick).foldl (fun a b => refreshBank a i b) s) i 4) i 4 1 else s

/-- The command whose effect is `pauseBegin`. -/
def execPauseBegin (i : Fin 24) (s : State) : Out := .next (pauseBegin i s)

/-- What is lost when interface i leaves service without a drain (R324). -/
def diOut (s : State) (i : Nat) : State := dramPools (dramLost (diEnter s i 7) i)

/-- PAUSE_END (R314, R323, R324): the retraining of interface i ends, or fails and owes a new pause, or fails the second time in a row. -/
def pauseEnd (i : Fin 24) (ok : Bool) (s : State) : State :=
  if diState s i ≠ 4 then s
  else
    let s1 := stepEnds (bump s (Reg.DRC_DI_CNT i 9)) 1 i
    let s2 := if ok then s1 else bump s1 (Reg.DRC_DI_CNT i 11)
    let again := s2.drm.retryFail.contains i.val
    let l := s2.drm.retryFail.filter (· != i.val)
    let at_ := if ok && (mfind s2.drm.tempAt i).isSome then mset s2.drm.tempAt i (some (getF s (Reg.DRC_DI_STAT_TEMP i))) else s2.drm.tempAt
    let s3 := { s2 with drm := { s2.drm with retryFail := if ok then l else i.val :: l, tempAt := at_ } }
    if !ok && again then diFail s3 i
    else if s3.drm.sleepAfter.contains i.val then
      diOut { s3 with drm := { s3.drm with sleepAfter := s3.drm.sleepAfter.filter (· != i.val) } } i
    else
      let s4 := if getF s3 (Reg.PWR_SLICE_STAT_STATE (diSlice i)) = 2 then dramPools (diDrained (diEnter s3 i 5) i) else diEnter s3 i 2
      if ok ∨ diState s4 i ≠ 2 then s4 else fallDue s4 1 i

/-- The command whose effect is `pauseEnd`. -/
def execPauseEnd (i : Fin 24) (ok : Bool) (s : State) : Out := .next (pauseEnd i ok s)

/-! ## Tests of free buffers -/

/-- The test interval in µs: that of a SOLO or ACTIVE card, or that of a STANDBY or WITHDRAWN one (R321). -/
def dramTestUs (s : State) : Nat := if offLine s then getF s Reg.DRC_BGT_CFG_STBY_US else getF s Reg.DRC_BGT_CFG_RUN_US

/-- DRAM_TEST_STEP (R321): a background step tests one free buffer of class k of interface i; one that fails is retired. -/
def dramTestStep (i : Fin 24) (k : Fin 8) (ok : Bool) (s : State) : State :=
  if dramTestUs s = 0 ∨ diState s i ≠ 2 ∨ diSize s i k ≤ diUsed s i k then s
  else
    let s1 := bump (stepEnds s 3 i) (Reg.DRC_DI_CNT i 12)
    if ok then s1
    else
      let key := 8 * i.val + k.val
      let s2 := satBump { memTestFailed s1 with drm := { s1.drm with retired := mput 0 s1.drm.retired key (mget 0 s1.drm.retired key + 1) } } (Reg.DRC_DI_RET_RETIRED i)
      let line := Config.dramTestLine key s.tick
      poolFollow (report (bump s2 (Reg.DRC_DI_CNT i 13)) (Src.drcBufRetired i) (dramLoc s i line) (line % 2 ^ 31)) 1 k

/-- The command whose effect is `dramTestStep`. -/
def execDramTestStep (i : Fin 24) (k : Fin 8) (ok : Bool) (s : State) : Out := .next (dramTestStep i k ok s)

end Sys2Proof.Machine
end

