-- ==== Sys2Proof/Machine/React.lean ====
section
/-! DEFINITION. Collecting a report and clearing a status bit, with what follows on transmitters and DRAM interfaces when a SERVICE reaction begins or ends (R529, R534, R537). -/

namespace Sys2Proof.Machine

/-- What follows when the reactions held have changed from `s` to `t` (Table 20-5). -/
def reacted (s t : State) : State := if t.flt.hold = s.flt.hold then t else settle s (dramPools t)

/-- What a report that was merged in its latch began is followed (R529, R534). -/
def reactFollow (s : State) : State := if s.flt.follow then settle s (dramPools { s with flt := { s.flt with follow := false } }) else s

/-- The command FAULT_COLLECT, whose effect is `faultCollect` and the reactions that follow. -/
def execFaultCollect (s : State) : Out := .next (reacted s (faultCollect s))

/-- The command FLT_STATUS_CLEAR, whose effect is `fltStatusClear` and the end of the reactions that it releases. -/
def execFltStatusClear (src : Nat) (s : State) : Out := .next (reacted s (fltStatusClear src s))

end Sys2Proof.Machine
end

