-- ==== Sys2Proof/Machine/Maint.lean ====
section
/-! DEFINITION. The maintenance arbiter (R566 to R570): grants of due activities, and deadlines. Resources are numbered by activity: the interface for refresh, retraining and DRAM tests,
32 + m for a test of scratch memory m, 64 + lane for a lane (lines 0 to 159, fabric lanes from 160, Gallery lanes from 384), the dump group, and 0 for the flush sweeper. -/

namespace Sys2Proof.Machine

/-- The slice of a resource (R570), 63 for none. -/
def resSlice (a res : Nat) : Nat :=
  if a ≤ 1 then diSlice res
  else if 4 ≤ a then 63
  else if a = 3 ∧ res < 24 then diSlice res
  else if res < 52 then res - 32
  else if res < 64 then 63
  else if res < 224 then (res - 64) / 8
  else if res < 448 then 20 + (res - 224) / 28
  else 63

/-- Is there such a resource (Table 22-5)? -/
def resExists (a res : Nat) : Bool :=
  if a ≤ 1 then decide (res < 24)
  else if a = 2 then decide (64 ≤ res) && decide (res < 452)
  else if a = 3 then decide (res < 24) || (decide (32 ≤ res) && decide (res < 53)) || (decide (64 ≤ res) && decide (res < 452))
  else if a = 4 then decide (res < 64)
  else res == 0

/-- Does a resource owe activities: its slice is in SERVICE, DRAINING or JOINING (R570)? -/
def resOwes (s : State) (a res : Nat) : Bool :=
  let n := resSlice a res
  let st := getF s (Reg.PWR_SLICE_STAT_STATE n)
  resExists a res && (40 ≤ n || st == 1 || st == 2 || st == 6)

/-- The clock family of a resource's block (R570): 0 FD, 1 QD. -/
def resFamily (a res : Nat) : Nat :=
  let n := resSlice a res
  if (20 ≤ n ∧ n < 40) ∨ (448 ≤ res ∧ a < 4) then 1 else 0

/-- Does a root relock hold the activities of a resource's family (R570)? -/
def maintHeld (s : State) (a res : Nat) : Bool := flag s (relockFld (resFamily a res))

/-- Interfaces announced or paused (R312). -/
def pausing (s : State) : Nat := countIf (fun i => diState s i == 3 || diState s i == 4) (List.range 24)

/-- May a pause of interface i be granted now (R312, R569)? -/
def pauseOk (s : State) (i : Nat) : Bool :=
  diState s i == 2 && decide (pausing s < 2) && !isRunning s 3 i && !s.slc.due.any (fun m => m.act == 0 && m.res == i && m.late)

/-- May activity a be granted on a resource now, as far as that resource alone decides (R567, R569)? -/
def grantOk (s : State) (a res : Nat) : Bool :=
  resOwes s a res && !maintHeld s a res && !isRunning s a res && !(a == 2 && isRunning s 3 res)
    && (if a = 5 then !s.tab.flushes.isEmpty && !flag s Reg.FTB_FLUSH_STAT_RUNNING
      else if a = 1 then pauseOk s res else if a = 3 ∧ res < 24 then diState s res == 2 && !isDue s 1 res else if a = 0 then decide (res < 24) && diRefreshes s res else true)

/-- Does a due activity that may be granted come before activity m (R567): one of a higher precedence on m's lane, or of the same where one limit holds for all (pauses, the dump engine, the flush
sweeper), due earlier, or at the same tick on a lower resource (R312)? -/
def comesBefore (s : State) (m : Maint) : Bool :=
  s.slc.due.any (fun x => grantOk s x.act x.res
    && ((x.act == m.act && (m.act == 1 || decide (4 ≤ m.act)) && (decide (x.due < m.due) || (x.due == m.due && decide (x.res < m.res))))
      || (x.act == 2 && m.act == 3 && x.res == m.res)))

/-- The grant itself: WAITED, and what the step begins. A pause is announced (R313); a DRAM or scratch test runs until its command; a flush sweeps until FLUSH_BY_PORT_DONE (Table 5-18); the other steps are over with the grant. -/
def granted_ (s : State) (m : Maint) : State :=
  let l := s.slc.due.filter (fun x => !(x.act == m.act && x.res == m.res))
  let run := if m.act = 1 ∨ m.act = 3 then s.slc.running ++ [m] else s.slc.running
  let s1 := bumpIf (decide (m.due < s.tick)) { s with slc := { s.slc with due := l, running := run } } (Reg.PWR_MAINT_CNT (6 + m.act))
  if m.act = 1 then diEnter s1 m.res 3
  else if m.act = 0 ∧ m.res < 24 then refreshBank s1 m.res (Config.bankDue m.res s.tick)
  else if m.act = 5 then setB s1 Reg.FTB_FLUSH_STAT_RUNNING true
  else s1

/-- MAINT_GRANT (R567): the arbitration point of a resource grants activity a a step. A pause must be due; of the other activities, which fall due by time, the grant itself says that they are. -/
def maintGrant (a : Fin 6) (res : Nat) (s : State) : State :=
  let m := (s.slc.due.find? (fun x => x.act == a.val && x.res == res)).getD { act := a, res := res, due := s.tick }
  if (a = 1 ∧ !isDue s 1 res) ∨ !grantOk s a res ∨ comesBefore s m then s else granted_ s m

/-- The command whose effect is `maintGrant`. -/
def execMaintGrant (a : Fin 6) (res : Nat) (s : State) : Out := .next (maintGrant a res s)

/-- A dump that has not begun 1 ms after its epoch is late: LATE in its trailer and in CNT_CNT (R553). -/
def dumpLate (s : State) (d : Nat) : State :=
  match mfind s.cnt.snaps d with
  | some x => if x.late || decide (0 < x.written) then s else bump { s with cnt := { s.cnt with snaps := mset s.cnt.snaps d (some { x with late := true }) } } (Reg.CNT_CNT 3)
  | none => s

/-- What Table 22-5 names besides the report of a late activity. -/
def lateExtra (s : State) (a res : Nat) : State :=
  if a = 1 ∧ res < 24 then report (bump s (Reg.DRC_DI_CNT res 10)) (Src.drcRetrainLate res) (locDi res) 0
  else if a = 4 then dumpLate s res
  else s

/-- Is activity a owed on a resource: a pause or one noted before is due, a dump is a snapshot held, a flush is queued, and of the others the deadline says that they are (R568)? -/
def owed (s : State) (a res : Nat) : Bool :=
  isDue s a res || (a == 4 && s.cnt.snaps.any (fun e => e.1 == res && e.2.written == 0)) || (a == 5 && !s.tab.flushes.isEmpty) || a == 0 || a == 2 || a == 3

/-- MAINT_DEADLINE (R568): activity a passes its deadline on a resource without having started. It stays due. -/
def maintDeadline (a : Fin 6) (res : Nat) (s : State) : State :=
  if !owed s a res || !resOwes s a res || isRunning s a res || s.slc.due.any (fun m => m.act == a.val && m.res == res && m.late) then s
  else
    let s1 := fallDue s a res
    let s2 := { s1 with slc := { s1.slc with due := s1.slc.due.map (fun m => if m.act = a.val ∧ m.res = res then { m with late := true } else m) } }
    lateExtra (report (bump s2 (Reg.PWR_MAINT_CNT a)) (Src.maintLate a) (locSlice (resFamily a res) (resSlice a res)) 0) a res

/-- The command whose effect is `maintDeadline`. -/
def execMaintDeadline (a : Fin 6) (res : Nat) (s : State) : Out := .next (maintDeadline a res s)

end Sys2Proof.Machine
end

