-- ==== Sys2Proof/Machine/Slices.lean ====
section
/-! DEFINITION. Slices (chapter 22): the slice commands (R559, R560), draining (R562), ENTERING (R563), waking (R564) and the join (R565). -/

namespace Sys2Proof.Machine

/-- The state of slice n (Table 22-1): 0 ABSENT, 1 SERVICE, 2 DRAINING, 3 ENTERING, 4 SLEEP, 5 WAKING, 6 JOINING. -/
def sliceState (s : State) (n : Nat) : Nat := getF s (Reg.PWR_SLICE_STAT_STATE n)

/-- A slice enters a state. One that goes from JOINING to ENTERING has not joined. -/
def sliceEnter (s : State) (n st : Nat) : State :=
  let l := s.slc.unjoined.filter (· != n)
  let l1 := if st = 3 ∧ sliceState s n = 6 then n :: l else l
  branchRamp (setF { s with slc := { s.slc with unjoined := l1 } } (Reg.PWR_SLICE_STAT_STATE n) st) n st

/-- The outcome of a command for slice n (Table 22-10): 0 OK, 1 STATE, 2 ABSENT, 3 DRAINED, 4 LIMIT. -/
def sliceResult (s : State) (n r : Nat) : State := setF s (Reg.PWR_SLICE_STAT_RESULT n) r

/-- The slices that the mask registers name. -/
def sliceMask (s : State) : List Nat := onesOf 40 ((rd s Reg.PWR_SLICE_MASK_LO).toNat + 2 ^ 32 * getF s Reg.PWR_SLICE_MASK_HI_MASK_HI)

/-- The DRAM interfaces of slice n. -/
def sliceDis (n : Nat) : List Nat := if 28 ≤ n ∧ n < 40 then [2 * (n - 28), 2 * (n - 28) + 1] else []

/-- The egress queues below the ports of line slice n that hold frames. -/
def sliceQueues (s : State) (n : Nat) : List Nat := if n < 20 then (upFrom (8 * n) 8).flatMap (queuesBelow s) else []

/-! ## Leaving service -/

/-- Frames left in the egress queues of a line slice are dropped as FLUSH, each counted against the slice (R203, R562). -/
def flushSlice (s : State) (n : Nat) : State :=
  (sliceQueues s n).foldl (fun a q => emptied (flushQueue a q (fun t => flushArrival t q n)) q) s

/-- What a DRAM interface of a slice does as ENTERING begins (R324). -/
def diSleep (s : State) (i : Nat) : State :=
  let st := diState s i
  if st = 4 then { s with drm := { s.drm with sleepAfter := i :: s.drm.sleepAfter.erase i } }
  else if st = 1 ∨ st = 2 ∨ st = 3 ∨ st = 5 then
    diOut (pauseWithdraw s i) i
  else s

/-- A drain that runs is over: DRAIN_US holds its length (Table 22-10). -/
def drainOver (s : State) (n : Nat) : State :=
  match mfind s.slc.drain n with
  | some d => setF { s with slc := { s.slc with drain := merase s.slc.drain n } } (Reg.PWR_SLICE_STAT_DRAIN_US n) (min 65535 ((s.tick - d.1) / ticksPerUs))
  | none => s

/-- ENTERING begins (R563, R324): what the slice still holds is dropped. -/
def enterBegin (s : State) (n : Nat) : State := (sliceDis n).foldl diSleep (flushSlice (sliceEnter (drainOver s n) n 3) n)

/-- The limit of a drain in ticks (R562). -/
def drainLimit (s : State) (n : Nat) : Nat :=
  if 28 ≤ n then getF s Reg.PWR_DRAIN_CFG_DRAM_MS * 1000 * ticksPerUs else getF s Reg.PWR_DRAIN_CFG_LINE_FAB_US * ticksPerUs

/-- A REMOVE in SERVICE begins a drain: a DRAM interface in service takes no allocation any more (Table 22-4, R196). -/
def drainBegin (s : State) (n : Nat) : State :=
  let s1 := sliceEnter { s with slc := { s.slc with drain := mset s.slc.drain n (some (s.tick, drainLimit s n)) } } n 2
  let s2 := (sliceDis n).foldl (fun a i => if diState a i = 2 then diDrained (diEnter a i 5) i else a) s1
  if 28 ≤ n then dramPools s2 else s2

/-- ADD for one slice (Table 22-2). -/
def addOne (s : State) (n : Nat) : State :=
  match sliceState s n with
  | 0 => sliceResult s n 2
  | 4 => sliceResult (sliceEnter s n 5) n 0
  | 2 => sliceResult s n 1
  | 3 => sliceResult s n 1
  | _ => sliceResult s n 0

/-- REMOVE for one slice. -/
def removeOne (s : State) (n : Nat) : State :=
  match sliceState s n with
  | 0 => sliceResult s n 2
  | 1 => sliceResult (drainBegin s n) n 0
  | 5 => sliceResult s n 1
  | 6 => sliceResult (enterBegin s n) n 0
  | _ => sliceResult s n 0

/-- SLEEP for one slice. -/
def sleepOne (s : State) (n : Nat) : State :=
  match sliceState s n with
  | 0 => sliceResult s n 2
  | 1 => sliceResult (enterBegin s n) n 0
  | 2 => sliceResult (enterBegin s n) n 0
  | 6 => sliceResult (enterBegin s n) n 0
  | 5 => sliceResult s n 1
  | _ => sliceResult s n 0

/-- What a write of PWR_SLICE_CMD does (R559, R560): outside RUN it fails at its target. -/
def sliceCmd (v : Nat) (s : State) : State :=
  if s.top != .run then (if powered s then pwfTarget s Reg.PWR_SLICE_CMD v else s)
  else match v % 4 with
    | 1 => (sliceMask s).foldl addOne s
    | 2 => (sliceMask s).foldl removeOne s
    | 3 => (sliceMask s).foldl sleepOne s
    | _ => s

/-- SLICE_ADD (R560). -/
def sliceAdd (s : State) : State := sliceCmd 1 s

/-- The command whose effect is `sliceAdd`. -/
def execSliceAdd (s : State) : Out := .next (sliceAdd s)

/-- SLICE_REMOVE (R560, R562). -/
def sliceRemove (s : State) : State := sliceCmd 2 s

/-- The command whose effect is `sliceRemove`. -/
def execSliceRemove (s : State) : Out := .next (sliceRemove s)

/-- SLICE_SLEEP (R560, R563, R324). -/
def sliceSleep (s : State) : State := sliceCmd 3 s

/-- The command whose effect is `sliceSleep`. -/
def execSliceSleep (s : State) : Out := .next (sliceSleep s)

/-- Does a slice hold no work (R562, Table 22-4)? -/
def sliceIdle (s : State) (n : Nat) : Bool :=
  if n < 20 then
    (mget [] s.ing.inq n).isEmpty && (mget [] s.ing.slotted n).isEmpty && (mget [] s.ing.looked n).isEmpty && (mget [] s.ing.recirc n).isEmpty && (mget [] s.ing.hall n).isEmpty && (sliceQueues s n).isEmpty
  else if n < 28 then !bit (spray s) (n - 20) && s.fab.data.isEmpty
  else s.qd.bufs.all (fun e => !(e.2.dram && !e.2.lost && (sliceDis n).contains e.2.di))

/-- DRAIN_END (R562): a draining slice holds no work, or has reached its drain limit. -/
def drainEnd (n : Fin 40) (limit : Bool) (s : State) : State :=
  let idle := sliceIdle s n
  if sliceState s n ≠ 2 ∨ (!limit ∧ !idle) then s
  else enterBegin (sliceResult s n (if idle then 3 else 4)) n

/-- The command whose effect is `drainEnd`. -/
def execDrainEnd (n : Fin 40) (limit : Bool) (s : State) : Out := .next (drainEnd n limit s)

/-- Maintenance due on a slice's resources is withdrawn, and its steps are over (R563). -/
def maintWithdraw (s : State) (n : Nat) : State :=
  let keep (m : Maint) : Bool := resSlice m.act m.res != n
  { s with slc := { s.slc with due := s.slc.due.filter keep, running := s.slc.running.filter keep } }

/-- What a line slice loses with its logic (Table 22-3): frames in its pipelines, each counted, its fragment table, and the pause, storm and link state of its ports. -/
def lineLose (s : State) (n : Nat) : State :=
  let mine (e : Nat × List EgFrame) : Bool := e.1 / 64 == n
  let gone := (mget [] s.ing.inq n).length + (mget [] s.ing.slotted n).length + (mget [] s.ing.looked n).length + (mget [] s.ing.recirc n).length
    + countIf (fun e => e.frame.isSome) (mget [] s.ing.hall n) + (mget [] s.qd.egress n).length + ((s.qd.stage.filter mine).map (fun e => e.2.length)).sum
  let i := s.ing
  let s0 := { s with ing := { i with inq := merase i.inq n, slotted := merase i.slotted n, looked := merase i.looked n, slot := merase i.slot n } }
  let s1 := scanStat (recircPut (hallPut s0 n []) n []) n
  let s2 := { s1 with qd := { s1.qd with egress := merase s1.qd.egress n, stage := s1.qd.stage.filter (fun e => !mine e) } }
  let s3 := fragEmpty (bumpN s2 (Reg.PWR_SLICE_DROP n) gone) n
  let s4 := (upFrom (8 * n) 8).foldl (fun a p =>
    let b := setF (setF (setF (setB a (Reg.LIN_PORT_STAT_LT_DONE p) false) (Reg.LIN_PORT_STAT_PAUSED p) 0) (Reg.LIN_PFC_WD_STAT_SUSPENDED p) 0) (Reg.LIN_PORT_STAT_LOCAL_FAULT p) 0
    setF b (Reg.LIN_PORT_STAT_REMOTE_FAULT p) 0) (levelOff s3 (Src.linPfcStorm n))
  { s4 with lin := { s4.lin with pauseQ := s4.lin.pauseQ.filter (fun e => e.1 / 64 != n) } }

/-- ENTERING_DONE (R62, R563, R324): the steps of ENTERING are complete, and the slice is in SLEEP, its SyncE lanes squelched. A DRAM slice waits until neither interface has access. -/
def enteringDone (n : Fin 40) (s : State) : State :=
  if sliceState s n ≠ 3 ∨ (sliceDis n).any (fun i => diState s i != 0 && diState s i != 6 && diState s i != 7) then s
  else
    let s1 := maintWithdraw s n
    settle s (synceSquelch (sliceEnter (if n.val < 20 then lineLose s1 n else s1) n 4))

/-- The command whose effect is `enteringDone`. -/
def execEnteringDone (n : Fin 40) (s : State) : Out := .next (enteringDone n s)

/-! ## Coming back -/

/-- WAKE_DONE (R564, R114, Table 11-3): 180 µs after ADD the slice enters JOINING. A line slice's engine has been refreshed from the master; a DRAM slice's populated interfaces train. -/
def wakeDone (n : Fin 40) (s : State) : State :=
  if sliceState s n ≠ 5 then s
  else
    let s1 := { s with sig := { s.sig with repair := s.sig.repair.filter (fun k => k / 65536 != n.val) },
                       flt := if 28 ≤ n.val then { s.flt with hold := s.flt.hold.filter (fun e => e.2 != n.val) } else s.flt }
    let s2 := (sliceDis n).foldl (fun a i => if diPop a i then diTrain (levelOff a (Src.drcFail i)) i else diEnter a i 0) s1
    sliceEnter s2 n 6

/-- The command whose effect is `wakeDone`. -/
def execWakeDone (n : Fin 40) (s : State) : Out := .next (wakeDone n s)

/-- The flushes recorded for a sleeping slice's MAC copy are swept before it learns again (R570). -/
def sweepRecorded (s : State) (n : Nat) : State :=
  let l := s.slc.flushes.filter (fun e => e.1 == n)
  l.foldl flushDrop { s with slc := { s.slc with flushes := s.slc.flushes.filter (fun e => e.1 != n) } }

/-- JOIN (R565): the slice takes up its work in one step. A DRAM slice waits until its interfaces have trained or failed. -/
def join (n : Fin 40) (s : State) : State :=
  if sliceState s n ≠ 6 ∨ (sliceDis n).any (fun i => diState s i == 1) then s
  else
    let s1 := sliceEnter (sweepRecorded s n) n 1
    settle s (if 28 ≤ n.val then dramPools s1 else s1)

/-- The command whose effect is `join`. -/
def execJoin (n : Fin 40) (s : State) : Out := .next (join n s)

end Sys2Proof.Machine
end

