-- ==== Sys2Proof/Machine/Clocks.lean ====
section
/-! DEFINITION. Clock domains (chapter 15): PLLs and their locks (R418, R419), ramps (R413), monitors (R420), root relocks (R421), the increment of the PTP clock (R422), PPS (R427) and CLKOUT (R428). -/

namespace Sys2Proof.Machine

/-! ## Register pairs -/

/-- The key of a function's held _LO value (R8). -/
def loKey (f addr : Nat) : Nat := f * 2 ^ 32 + addr

/-- A write of a _LO register is held for the function that makes it (R8). -/
def holdLo (s : State) (f addr v : Nat) : State := { s with loHeld := mset s.loHeld (loKey f addr) (some (Word.ofNat v)) }

/-- The _LO half that a _HI write of function f commits: the held one, or the register's own where none is held (R8). -/
def heldLo (s : State) (f lo : Nat) : Word := (mfind s.loHeld (loKey f lo)).getD (rd s lo)

/-- The held half is taken. -/
def dropLo (s : State) (f lo : Nat) : State := { s with loHeld := merase s.loHeld (loKey f lo) }

/-- The bits `m` of a word, taken from a written value; the others as they stand (R9, R10). -/
def mergeBits (old : Word) (v m : Nat) : Word := Word.ofNat (Nat.lor (Nat.land old.toNat (2 ^ 32 - 1 - m)) (Nat.land v m))

/-- A write of the RW bits `m` of a register. -/
def writeRw (s : State) (a v m : Nat) : State := wr s a (mergeBits (rd s a) v m)

/-- A write of _HI by function f commits both halves (R8), with the writable bits of each. -/
def commitHi (s : State) (f lo mlo hi mhi v : Nat) : State :=
  dropLo (writeRw (writeRw s lo (heldLo s f lo).toNat mlo) hi v mhi) f lo

/-! ## PLLs -/

/-- The lock bit of a PLL: 0 FD_ROOT, 1 QD_ROOT, 2 + p for PLL p of CLK_PLL_LOSS (Tables 15-11 and 20-2). -/
def lockFld (p : Nat) : Fld := if p ≤ 6 then ⟨Reg.CLK_STAT, p + 1, 1⟩ else if p ≤ 16 then ⟨Reg.CLK_PLL_STAT, p - 7, 1⟩ else ⟨Reg.CLK_PLL_STAT, p - 1, 1⟩

/-- The die that a PLL stands on (Table 15-1). -/
def pllDie (p : Nat) : Nat := if p = 1 ∨ p = 2 ∨ p = 3 ∨ p = 6 ∨ 17 ≤ p then 1 else 0

/-- PLLs are started. -/
def pllStart (s : State) (ps : List Nat) : State :=
  { s with clk := { s.clk with starting := ps ++ s.clk.starting.filter (fun p => !ps.contains p) } }

/-- A PLL is no longer waited for. -/
def pllSettled (s : State) (p : Nat) : State := { s with clk := { s.clk with starting := s.clk.starting.filter (· != p) } }

/-- Does the family of root r run on the boot bypass (R416, R421)? -/
def onBypass (s : State) (r : Nat) : Bool := (rootDomains r).all (fun d => mget 0 s.clk.div d == 0)

/-- The slices that a domain outside the root families serves; none for a domain that serves more than slices (Table 15-1). -/
def servedSlices (d : Nat) : List Nat :=
  if d < 15 then [] else if d < 25 then upFrom (2 * (d - 15)) 2 else if d < 33 then [d - 5] else if d = 33 then upFrom 28 6 else if d = 34 then upFrom 34 6 else []

/-- Is a domain outside the root families stopped: every slice that it serves is in SLEEP, or no Gallery lane is in frame (Table 15-1)? -/
def domainStopped (s : State) (d : Nat) : Bool :=
  (!(servedSlices d).isEmpty && (servedSlices d).all (fun n => sliceState s n == 4)) || (d == 36 && (List.range 4).all (fun l => !(galRx s l).inFrame))

/-- The kHz of a domain, as numerator and divisor, 0 while it is stopped (Table 15-1). -/
def domainKhz (s : State) (d : Nat) : Nat × Nat :=
  if d < 15 then
    let v := mget 0 s.clk.div d
    if v ≠ 0 then (6400000, v) else if onBypass s (rootOfDomain d) then (200000, 1) else (0, 1)
  else if domainStopped s d || (!s.boot.up && d != 35 && d != 38 && d != 39) then (0, 1)
  else if d < 33 then (1562500, 1)
  else ([1125000, 1125000, 1000000, 830079, 781250, 200000, 50000].getD (d - 33) 0, 1)

/-- OUT_ERR: the result of CLKOUT's setting would exceed 200 MHz (R428). -/
def clkoutErr (s : State) : Bool :=
  let sel := getF s Reg.CLK_OUT_CFG_SEL
  let (khz, v) := domainKhz s sel
  flag s Reg.CLK_OUT_CFG_EN && decide (sel ≤ 39) && decide (200000 * (getF s Reg.CLK_OUT_CFG_DIV + 1) * v < khz)

/-- What CLKOUT carries: a domain and a divisor, or none while it is held low (R428). -/
def clkout (s : State) : Option (Nat × Nat) :=
  let sel := getF s Reg.CLK_OUT_CFG_SEL
  if !flag s Reg.CLK_OUT_CFG_EN || decide (39 < sel) || (domainKhz s sel).1 == 0 || clkoutErr s then none else some (sel, getF s Reg.CLK_OUT_CFG_DIV + 1)

/-- The keys of `clk.div` that follow a root: its domains, and the branches of slices with their logic. -/
def rootKeys (s : State) (r : Nat) : List Nat :=
  let live (n : Nat) : Bool := getF s (Reg.PWR_SLICE_STAT_STATE n) == 1 || getF s (Reg.PWR_SLICE_STAT_STATE n) == 2
  rootDomains r ++ (((List.range 40).filter live).flatMap sliceBranches).filter (fun k => rootOfDomain (divDomain k) == r)

/-- PLL_LOCKED (R416, R418): a PLL that was started locks. Once both roots have locked in BRINGUP, every domain and branch ramps to its target. -/
def pllLocked (p : Fin 25) (s : State) : State :=
  if !s.clk.starting.contains p.val then s
  else
    let s1 := setB (pllSettled s p) (lockFld p) true
    if 2 ≤ p.val then levelOff s1 (Src.pllLoss (p - 2))
    else if s.top == .bringup && flag s1 Reg.CLK_STAT_FD_LOCK && flag s1 Reg.CLK_STAT_QD_LOCK then rampStart s1 (rootKeys s1 0 ++ rootKeys s1 1) true
    else s1

/-- The command whose effect is `pllLocked`. -/
def execPllLocked (p : Fin 25) (s : State) : Out := .next (pllLocked p s)

/-- ROOT_PLL_LOCK_TIMEOUT (R416, Table 13-8): a root PLL has not locked 1 ms after it was started; the families stay on the bypass. -/
def rootPllLockTimeout (s : State) : State :=
  if s.top == .bringup && (s.clk.starting.contains 0 || s.clk.starting.contains 1) then settle s (enterHold s 14 0 0 0 0) else s

/-- The command whose effect is `rootPllLockTimeout`. -/
def execRootPllLockTimeout (s : State) : Out := .next (rootPllLockTimeout s)

/-- A Gallery lane is out of service until the next start (R338). -/
def galLaneOut (s : State) (l : Nat) : State :=
  if s.pair.galOos.contains l then s else levelMore { s with pair := { s.pair with galOos := l :: s.pair.galOos } } Src.galLaneOos (locSlice 1 63) l

/-- A line lane, a fabric lane and a DRAM interface are out of service for want of their PLL (R35, Table 15-5). -/
def lineLaneOut (s : State) (g l : Nat) : State :=
  if bit (getF s (Reg.LIN_GRP_STAT_LANE_OOS g)) l then s
  else levelMore (setF s (Reg.LIN_GRP_STAT_LANE_OOS g) (Nat.lor (getF s (Reg.LIN_GRP_STAT_LANE_OOS g)) (2 ^ l))) (Src.linLaneOos g) (locSlice 0 g) l
def fabLaneOut (s : State) (g l : Nat) : State := if flag s (Reg.FAB_LANE_STAT_OOS g l) then s else levelMore (setB s (Reg.FAB_LANE_STAT_OOS g l) true) (Src.fabLaneOos g) (locSlice 1 (20 + g)) l
def diTrainOut (s : State) (i : Nat) : State :=
  if diState s i = 1 then levelMore (diEnter s i 7) (Src.drcTrainFail i) (locDi i) 0 else s

/-- PLL_LOCK_FAIL (R418, Table 15-5): a PLL other than a root fails to lock within its lock time. The PCIe PLL is retried, the TIME PLL runs free, and the lanes
or interfaces of the others are out of service. -/
def pllLockFail (p : Fin 25) (s : State) : State :=
  if p.val < 2 ∨ !s.clk.starting.contains p.val then s
  else if p = 4 ∨ p = 5 then levelOn s (Src.pllLoss (p - 2)) (locSlice (pllDie p) 63) 0
  else
    let s1 := pllSettled s p
    if p.val < 4 then settle s (dramPools ((upFrom (12 * (p - 2)) 12).foldl diTrainOut s1))
    else if p.val = 6 then galFollow ((List.range 4).foldl galLaneOut s1)
    else if p.val < 17 then
      settle s ([2 * (p.val - 7), 2 * (p.val - 7) + 1].foldl (fun a g => synceSquelch ((List.range 8).foldl (fun b l => lineLaneOut b g l) a)) s1)
    else settle s ((List.range 28).foldl (fun a l => fabLaneOut a (p - 17) l) s1)

/-- The command whose effect is `pllLockFail`. -/
def execPllLockFail (p : Fin 25) (s : State) : Out := .next (pllLockFail p s)

/-! ## Ramps and relocks -/

/-- RELOCK of a root ends once its family has ramped up again. -/
def relockOver (s : State) (r : Nat) : State :=
  if flag s (relockFld r) && flag s (lockFld r) && !onBypass s r && s.clk.ramp.all (fun e => rootOfDomain (divDomain e.1) != r) then setB s (relockFld r) false else s

/-- RAMP_STEP (R413, R414): at a tick of 16 µs every ramp under way takes its next step. -/
def rampStep (s : State) : State :=
  relockOver (relockOver (s.clk.ramp.foldl (fun a e => rampOne a e.1 e.2) s) 0) 1

/-- The command whose effect is `rampStep`. -/
def execRampStep (s : State) : Out := .next (rampStep s)

/-- A relock of a root begins (R421): its family ramps down to the boot bypass. -/
def relockBegin (s : State) (r : Nat) : State :=
  let s1 := bump (setB s (relockFld r) true) (Reg.CLK_CNT 2)
  let w := s1.clk.waiting.filter (· != r)
  let s2 := setB { s1 with clk := { s1.clk with waiting := w } } Reg.CLK_STAT_RELOCK_WAIT (!w.isEmpty)
  rampStart s2 (rootKeys s2 r) false

/-- Automatic relocks that waited begin once the role is no longer ACTIVE (R421). -/
def relockRelease (s : State) : State := if pairMode s && role s == 1 then s else s.clk.waiting.foldl relockBegin s

/-- A write of CLK_CTL (Table 15-9): the host's RELOCK of one root or both. It is refused whole outside RUN and while the relock of a root that it names runs. -/
def clkCtl (v : Nat) (s : State) : State :=
  operWrite s Reg.CLK_CTL v (fun s =>
    let l := onesOf 2 v
    if l ≠ [] ∧ (s.top ≠ .run ∨ l.any (fun r => flag s (relockFld r))) then pwfTarget s Reg.CLK_CTL v else l.foldl relockBegin s)

/-- The command whose effect is a host relock of FD_ROOT. -/
def execRelockFd (s : State) : Out := .next (clkCtl 1 s)

/-- The command whose effect is a host relock of QD_ROOT. -/
def execRelockQd (s : State) : Out := .next (clkCtl 2 s)

/-- ROOT_RELOCK_DONE (R421): the root relocks, and its family switches back at ÷64 and ramps up; or it fails, and the relock is tried again. -/
def rootRelockDone (r : Fin 2) (ok : Bool) (s : State) : State :=
  if !flag s (relockFld r) then s
  else if !ok then bump s (Reg.CLK_CNT 2)
  else
    let ks := rootKeys s r
    let s1 := levelOff (setB s (lockFld r) true) (Src.rootLoss r)
    let s2 := { s1 with clk := { s1.clk with div := ks.foldl (fun m k => mput 0 m k 64) s1.clk.div } }
    rampStart s2 ks true

/-- The command whose effect is `rootRelockDone`. -/
def execRootRelockDone (r : Fin 2) (ok : Bool) (s : State) : Out := .next (rootRelockDone r ok s)

/-! ## Monitors -/

/-- The PRESENT and LOSS bits of reference r. -/
def refPresent (r : Nat) : Fld := ⟨Reg.CLK_REF_STAT, r, 1⟩
def refLoss (r : Nat) : Fld := ⟨Reg.CLK_REF_STAT, 8 + r, 1⟩

/-- The die whose domains a reference feeds: FAB_REFCLK feeds QD, the others FD. -/
def refDie (r : Nat) : Nat := if r = 2 then 1 else 0

/-- What the declared loss of reference r does, PPS_IN being 4 (R420): PRESENT, LOSS, REF_LOSS and the report. -/
def refLost (s : State) (r : Nat) : State :=
  let s1 := if powered s then bump (setB (setB s (refPresent r) false) (refLoss r) true) (Reg.CLK_CNT 0) else s
  levelOn s1 (Src.sysRef + r) (locSlice (refDie r) 63) 0

/-- REF_CLOCK_LOSS (R419, R420, R422): a reference is lost. What it feeds enters holdover, and the TIME PLL may move to SYS_REFCLK. -/
def refClockLoss (r : Fin 4) (s : State) : State :=
  if (mfind s.flt.cause (Src.sysRef + r)).isSome then s
  else
    let s1 := refLost s r
    if r = 1 ∧ powered s ∧ flag s Reg.CLK_PLAN_TIME_FALLBACK then setB s1 Reg.TIM_STAT_TIME_SRC true else s1

/-- The command whose effect is `refClockLoss`. -/
def execRefClockLoss (r : Fin 4) (s : State) : Out := .next (refClockLoss r s)

/-- REF_CLOCK_RETURN (R419, R422): a reference has been present for 1 ms. -/
def refClockReturn (r : Fin 4) (s : State) : State :=
  let s1 := levelOff s (Src.sysRef + r)
  if !powered s then s1
  else
    let s2 := setB s1 (refPresent r) true
    if r = 1 then setB s2 Reg.TIM_STAT_TIME_SRC false else s2

/-- The command whose effect is `refClockReturn`. -/
def execRefClockReturn (r : Fin 4) (s : State) : Out := .next (refClockReturn r s)

/-- The reference of a PLL (Tables 15-1 and 15-5, R422). -/
def pllRef (s : State) (p : Nat) : Nat :=
  if p < 4 then 0 else if p = 4 then 3 else if p = 5 then (if flag s Reg.TIM_STAT_TIME_SRC then 0 else 1) else if p = 6 ∨ 17 ≤ p then 2 else 1

/-- PLL_LOSS (R420, R421): a locked PLL loses its lock with its reference present; in holdover its lock is not judged (R419). A root relocks by itself when AUTO_RELOCK is 1, on an ACTIVE card once its
role has changed; any other PLL relocks at once. -/
def pllLoss (p : Fin 25) (s : State) : State :=
  if !flag s (lockFld p) || (mfind s.flt.cause (Src.sysRef + pllRef s p)).isSome then s
  else
    let s1 := bump (setB s (lockFld p) false) (Reg.CLK_CNT 1)
    if 2 ≤ p.val then levelOn (pllStart s1 [p]) (Src.pllLoss (p - 2)) (locSlice (pllDie p) 63) 0
    else
      let s2 := levelOn s1 (Src.rootLoss p) (locSlice (pllDie p) 63) 0
      if !flag s Reg.CLK_PLAN_AUTO_RELOCK || flag s (relockFld p) then s2
      else relockRelease { s2 with clk := { s2.clk with waiting := p.val :: s2.clk.waiting.filter (· != p.val) } }

/-- RELOCK_WAIT shows a relock that waits. -/
def waitShow (s : State) : State := setB s Reg.CLK_STAT_RELOCK_WAIT (!s.clk.waiting.isEmpty)

/-- The command whose effect is `pllLoss`. -/
def execPllLoss (p : Fin 25) (s : State) : Out := .next (reacted s (waitShow (pllLoss p s)))

/-- CLK_FREQ_ALARM (R420, Tables 15-8 and 15-12): a window of 10 ms measures the offset of LINE_REFCLK or FAB_REFCLK, in 0.1 ppm as 16 bits. Beyond FREQ_TOL for the third
window in a row it declares CLK_FREQ; within it, the alarm ends. PCIE_REFCLK, 2, is measured and never alarmed. -/
def clkFreqAlarm (r : Fin 3) (offset : Nat) (s : State) : State :=
  let ok := flag s (refPresent 0) && flag s (refPresent (r + 1))
  let s1 := setB (setF s (Reg.CLK_MEAS_OFFSET r) offset) (Reg.CLK_MEAS_VALID r) ok
  if r = 2 then s1
  else if clamp 1 1000 (getF s Reg.CLK_MON_CFG_FREQ_TOL) * 10 < (signed 16 (offset % 65536)).natAbs then
    let s2 := bumpIf (mfind s.flt.cause (Src.clkFreq r)).isNone s1 (Reg.CLK_CNT 3)
    levelOn s2 (Src.clkFreq r) (locSlice (refDie (r + 1)) 63) 0
  else levelOff s1 (Src.clkFreq r)

/-- The command whose effect is `clkFreqAlarm`. -/
def execClkFreqAlarm (r : Fin 3) (offset : Nat) (s : State) : Out := .next (if powered s then clkFreqAlarm r offset s else s)

/-- PPS_IN_LOSS (R420): no edge of the selected polarity for 1.5 s while IN_EN is 1. -/
def ppsInLoss (s : State) : State :=
  if !flag s Reg.TIM_PPS_CFG_IN_EN || (mfind s.flt.cause Src.ppsLoss).isSome then s
  else setB (refLost s 4) Reg.TIM_STAT_PPS_PRESENT false

/-- The command whose effect is `ppsInLoss`. -/
def execPpsInLoss (s : State) : Out := .next (ppsInLoss s)

/-- CD38_LOSS (Table 15-6): FAULT_L is driven low directly, and the Landing interface falls silent. -/
def cd38Loss (s : State) : State := { s with pwr := { s.pwr with cd38Lost := powered s || s.pwr.cd38Lost } }

/-- The command whose effect is `cd38Loss`. -/
def execCd38Loss (s : State) : Out := .next (cd38Loss s)

/-! ## The PTP clock and PPS -/

/-- TIM_INCR_COMMIT (R8, R422): a write of TIM_INCR_HI commits a new increment, which acts from the next tick. -/
def timIncrCommit (v : Nat) (s : State) : State :=
  operWrite s Reg.TIM_INCR_HI v (fun s => commitHi s 0 Reg.TIM_INCR_LO 0xFFFFFFFF Reg.TIM_INCR_HI 0xFF v)

/-- The command whose effect is `timIncrCommit`. -/
def execTimIncrCommit (v : Nat) (s : State) : Out := .next (timIncrCommit v s)

/-- PPS_OUT_EDGE (R427): PPS_OUT rises as a whole second is reached by counting, and falls after WIDTH_US; it is low while OUT_EN is 0. -/
def ppsOutEdge (rise : Bool) (s : State) : State :=
  { s with clk := { s.clk with ppsOut := rise && s.boot.up && flag s Reg.TIM_PPS_CFG_OUT_EN } }

/-- The command whose effect is `ppsOutEdge`. -/
def execPpsOutEdge (rise : Bool) (s : State) : Out := .next (ppsOutEdge rise s)

/-- PPS_IN_EDGE (R427): an edge of the selected polarity captures the PTP time; one that comes before the last capture was cleared also counts PPS_MISSED. -/
def ppsInEdge (falling : Bool) (s : State) : State :=
  if !s.boot.up || !flag s Reg.TIM_PPS_CFG_IN_EN || flag s Reg.TIM_PPS_CFG_IN_POL != falling then s
  else
    let s1 := bumpIf (flag s Reg.TIM_STAT_PPS_CAPTURED) (bump s (Reg.TIM_CNT 1)) (Reg.TIM_CNT 2)
    let s2 := setF (setF s1 Reg.TIM_PPS_CAP_LO_NS s.ptp.ns) Reg.TIM_PPS_CAP_HI_SEC_LO s.ptp.sec
    let s3 := setB (setB s2 Reg.TIM_STAT_PPS_CAPTURED true) Reg.TIM_STAT_PPS_PRESENT true
    levelOff (setB s3 (refPresent 4) true) Src.ppsLoss

/-- The command whose effect is `ppsInEdge`. -/
def execPpsInEdge (falling : Bool) (s : State) : Out := .next (ppsInEdge falling s)

/-- CLKOUT_CONFIG (R428): a write of CLK_OUT_CFG, which takes effect at the next rising edge of the output. -/
def clkoutConfig (v : Nat) (s : State) : State :=
  operWrite s Reg.CLK_OUT_CFG v (fun s => writeRw s Reg.CLK_OUT_CFG v 0x7FFFFF)

/-- The command whose effect is `clkoutConfig`. -/
def execClkoutConfig (v : Nat) (s : State) : Out := .next (clkoutConfig v s)

end Sys2Proof.Machine
end

