-- ==== Sys2Proof/Machine/Curve.lean ====
section
/-! DEFINITION. ECDSA over the curve P-384 (R365, R371), in the arithmetic of whole numbers. PRESUMED: the spec names FIPS 186-5 and does not restate the
curve; its constants and the verification procedure are those of that standard. -/

namespace Sys2Proof.Machine

/-- The prime of the field of P-384. -/
def curveP : Nat := 2 ^ 384 - 2 ^ 128 - 2 ^ 96 + 2 ^ 32 - 1

/-- The order of the base point. -/
def curveN : Nat := 0xffffffffffffffffffffffffffffffffffffffffffffffffc7634d81f4372ddf581a0db248b0a77aecec196accc52973

/-- The coefficient b of the curve y^2 = x^3 - 3 x + b. -/
def curveB : Nat := 0xb3312fa7e23ee7e4988e056be3f82d19181d9c6efe8141120314088f5013875ac656398d8a2ed19d2a85c8edd3ec2aef

/-- The base point. -/
def curveG : Nat × Nat :=
  (0xaa87ca22be8b05378eb1c71ef320ad746e1d3b628ba79b9859f741e082542a385502f25dbf55296c3a545e3872760ab7,
   0x3617de4a96262c6f5d9e98bf9292dc29f8f41dbd289a147ce9da3113b5f0b8c00a60b1ce1d7e819d7a431d7c90ea0e5f)

/-- A power modulo m, by the lowest `k` bits of the exponent. -/
def powMod (m : Nat) : Nat → Nat → Nat → Nat → Nat
  | 0, _, _, acc => acc
  | k + 1, a, e, acc => powMod m k (a * a % m) (e / 2) (if e % 2 = 1 then acc * a % m else acc)

/-- The inverse modulo a prime of 384 bits. -/
def invMod (m a : Nat) : Nat := powMod m 384 (a % m) (m - 2) (1 % m)

/-- A point of the curve; none is the point at infinity. -/
abbrev CurvePt := Option (Nat × Nat)

/-- The third point of a line of slope l through (x, y) and a point with first coordinate u, mirrored. -/
def curveThird (l x y u : Nat) : Nat × Nat :=
  let w := (l * l + (curveP - x) + (curveP - u)) % curveP
  (w, (l * (x + (curveP - w)) + (curveP - y)) % curveP)

/-- The sum of two points. -/
def curveAdd (a b : CurvePt) : CurvePt :=
  match a, b with
  | none, q => q
  | p, none => p
  | some (x, y), some (u, v) =>
    if x = u then
      if (y + v) % curveP = 0 then none
      else some (curveThird ((3 * x * x + (curveP - 3)) * invMod curveP (2 * y) % curveP) x y u)
    else some (curveThird ((v + (curveP - y)) * invMod curveP (u + (curveP - x)) % curveP) x y u)

/-- A multiple of a point, by the lowest `k` bits of the factor. -/
def curveMul : Nat → CurvePt → Nat → CurvePt → CurvePt
  | 0, _, _, acc => acc
  | k + 1, p, e, acc => curveMul k (curveAdd p p) (e / 2) (if e % 2 = 1 then curveAdd acc p else acc)

/-- Is (x, y) a point of the curve? -/
def onCurve (x y : Nat) : Bool :=
  decide (x < curveP) && decide (y < curveP) && (y * y + 3 * x) % curveP == (x * x * x + curveB) % curveP

/-- Does the signature (r, s) of a 48-byte hash verify with the public key (x, y)? -/
def ecdsaOk (x y r s : Nat) (hash : Bytes) : Bool :=
  if !onCurve x y || r = 0 || s = 0 || decide (curveN ≤ r) || decide (curveN ≤ s) then false
  else
    let w := invMod curveN s
    let u := curveMul 384 (some curveG) (ofBe hash * w % curveN) none
    match curveAdd u (curveMul 384 (some (x, y)) (r * w % curveN) none) with
    | some (c, _) => c % curveN == r
    | none => false

end Sys2Proof.Machine
end

