-- ==== Sys2Proof/Machine/Image.lean ====
section
/-! DEFINITION. What the NVM holds (R361 to R366): the directory, images and their checks (R370, R371), and the configuration records with what APPLY does with
each (R366 to R369). The update agent prepares with the same operations (R393). -/

namespace Sys2Proof.Machine

/-! ## The directory -/

/-- MAGIC of the directory and of an image header. -/
def dirMagic : Nat := 0x4B4F4C44
def hdrMagic : Nat := 0x4B4F4C48

/-- A directory copy as bytes (Table 13-3). -/
def encodeDir (d : Directory) : Bytes :=
  let slots := d.slots.flatMap (fun x => leBytes 4 x.1 ++ leBytes 4 x.2)
  let body := leBytes 4 dirMagic ++ [1, 0, 0, 0] ++ leBytes 4 d.gen ++ leBytes 2 d.nvmMib ++ [0, 0] ++ slots
    ++ leBytes 4 d.persist.1 ++ leBytes 4 d.persist.2 ++ [byteOf d.fwActive, byteOf d.cfgActive] ++ fit 6 d.trial
  let b := fit 0xFFC body
  b ++ leBytes 4 (crc32c b)

/-- The fields of a directory copy. -/
def decodeDir (b : Bytes) : Directory :=
  { gen := leAt b 8 4, nvmMib := leAt b 0xC 2, slots := (List.range 4).map (fun k => (leAt b (0x10 + 8 * k) 4, leAt b (0x14 + 8 * k) 4)),
    persist := (leAt b 0x30 4, leAt b 0x34 4), fwActive := byteAt b 0x38, cfgActive := byteAt b 0x39, trial := slice b 0x3A 6 }

/-- Does the CRC of a directory copy pass (R362)? -/
def dirCrcOk (b : Bytes) : Bool := b.length == 4096 && crc32c (b.take 0xFFC) == leAt b 0xFFC 4

/-- Do two regions share a byte? -/
def overlaps (a b : Nat × Nat) : Bool := decide (a.1 < b.1 + b.2) && decide (b.1 < a.1 + a.2)

/-- Do any two regions of a list overlap? -/
def anyOverlap : List (Nat × Nat) → Bool
  | [] => false
  | a :: r => r.any (overlaps a) || anyOverlap r

/-- The regions of a directory in the order FW_A, FW_B, CFG_A, CFG_B, persistent area. -/
def dirRegions (d : Directory) : List (Nat × Nat) := d.slots ++ [d.persist]

/-- Does a region break the third condition of R362? -/
def regionBad (mib k : Nat) (g : Nat × Nat) : Bool :=
  let big := if k < 2 then decide (16 * 2 ^ 20 < g.2) else if k < 4 then decide (64 * 2 ^ 20 < g.2) else decide (g.2 < 2 ^ 20)
  big || g.1 % 65536 != 0 || decide (mib * 2 ^ 20 < g.1 + g.2) || overlaps g (0, 4096) || overlaps g (0x10000, 4096)

/-- The first condition of R362 that a copy whose CRC passes fails, from 2 on; 0 for a valid copy. -/
def dirFault (b : Bytes) : Nat :=
  let d := decodeDir b
  if leAt b 0 4 ≠ dirMagic ∨ leAt b 4 2 ≠ 1 then 2
  else if (dirRegions d).zipIdx.any (fun e => regionBad d.nvmMib e.2 e.1) then 3
  else if anyOverlap (dirRegions d) then 4
  else if 1 < d.fwActive ∨ 1 < d.cfgActive then 5
  else 0

/-- The copy that is taken of two results (R362): the newer of two valid ones, else the valid one. -/
def chooseDir (a b : Nat × Option Directory) : Option (Nat × Directory) :=
  match a.2, b.2 with
  | some x, some y => let k := (y.gen + 2 ^ 32 - x.gen) % 2 ^ 32; if 1 ≤ k ∧ k ≤ 2 ^ 31 - 1 then some (1, y) else some (0, x)
  | some x, none => some (0, x)
  | none, some y => some (1, y)
  | none, none => none

/-! ## Images -/

/-- Fields of an image's header (Table 13-4). -/
def Image.blockCount (x : Image) : Nat := leAt x.header 0xC 4
def Image.payLen (x : Image) : Nat := leAt x.header 0x10 4
def Image.arbSeq (x : Image) : Nat := leAt x.header 0x14 4
def Image.keyIdx (x : Image) : Nat := byteAt x.header 0x18
def Image.actClass (x : Image) : Nat := byteAt x.header 7
def Image.length (x : Image) : Nat := leAt x.header 8 4
def Image.serialLock (x : Image) : Bool := bit (byteAt x.header 0x19) 0
def Image.version (x : Image) : Bytes := slice x.header 0x30 16
def Image.pubkey (x : Image) : Bytes := slice x.header 0x80 97

/-- The payload: the blocks' payload fields, cut to PAYLOAD_LEN (R365). -/
def Image.payload (x : Image) : Bytes := (x.blocks.flatMap (fun b => b.take 4088)).take x.payLen

/-- Does a header's HDR_CRC pass? -/
def hdrCrcOk (h : Bytes) : Bool := h.length == 256 && crc32c (h.take 0xFC) == leAt h 0xFC 4

/-- Does block i pass (R365)? -/
def blockOk (i : Nat) (b : Bytes) : Bool := b.length == 4096 && leAt b 4088 4 == i && crc32c (b.take 4092) == leAt b 4092 4

/-- The most blocks an image of a type has. -/
def maxBlocks (typ : Nat) : Nat := match typ with | 1 => 4095 | 2 => 16383 | _ => 1

/-- The largest slot of a type (Table 13-2). -/
def maxSlot (typ : Nat) : Nat := if typ = 1 then 16 * 2 ^ 20 else 64 * 2 ^ 20

/-- The format check of a header, order 1 of Table 13-7, for a type and a slot size. -/
def formatOk (x : Image) (typ size : Nat) : Bool :=
  let n := x.blockCount
  leAt x.header 0 4 == hdrMagic && byteAt x.header 5 == 1 && byteAt x.header 6 == typ && decide (x.actClass ≤ 2)
    && decide (1 ≤ n) && decide (n ≤ maxBlocks typ) && x.length == 256 + 4096 * n + 96 && decide (4088 * (n - 1) < x.payLen)
    && decide (x.payLen ≤ 4088 * n) && decide (x.length ≤ size) && decide (byteAt x.header 0x19 ≤ 1)
    && (slice x.header 0x40 64).all (· == 0) && (slice x.header 0xE1 27).all (· == 0)

/-- The hash of the header and all blocks as stored (R365). -/
def Image.hash (x : Image) : Bytes := sha384 (x.header ++ x.blocks.flatten)

/-- Does an image's signature verify with its own public key (R365)? -/
def Image.sigOk (x : Image) : Bool :=
  byteAt x.pubkey 0 == 4 && ecdsaOk (beAt x.pubkey 1 48) (beAt x.pubkey 49 48) (beAt x.sig 0 48) (beAt x.sig 48 48) x.hash

/-- The usage bit that an image type needs (R373). -/
def usageBit (typ : Nat) : Nat := typ - 1

/-- The highest counted entry of an anti-rollback floor (R372). -/
def floorOf (l : List (Nat × Nat)) : Nat := ((l.filter (fun e => e.1 + e.2 == 2 ^ 32 - 1)).map (·.1)).foldl max 0

/-- The floor of an image type; tokens and enrolments have none. -/
def floorFor (o : Otp) (typ : Nat) : Nat := match typ with | 1 => floorOf o.floorFw | 2 => floorOf o.floorCfg | _ => 0

/-- The first check of orders 2, 3, 6 and 7 and, for all but enrolments, 4 and 5, that an image fails (Table 13-7), as a reason of Table 13-8; 0 for none. -/
def imageFault (o : Otp) (x : Image) (typ : Nat) : Nat :=
  let key := mfind o.keys x.keyIdx
  let absent : Bool := match key with
    | some k => !bit k.usage (usageBit typ) || k.hash != sha384 x.pubkey
    | none => true
  let revoked : Bool := match key with | some k => k.revoked | none => false
  if leAt x.header 0x1C 4 ≠ 0x3240 ∨ o.rev < leAt x.header 0x1A 2 then 6
  else if x.serialLock ∧ leAt x.header 0x20 8 ≠ o.serial then 7
  else if typ ≠ 4 ∧ absent then 8
  else if revoked then 9
  else if x.arbSeq < floorFor o typ then 10
  else if !x.sigOk then 11
  else 0

/-- An image as a host's memory or a slot holds it, cut into header, blocks and signature. -/
def parseImage (b : Bytes) (slot : Nat) (pushed : Bool) : Image :=
  let h := slice b 0 256
  let n := min (leAt h 0xC 4) 16383
  { header := h, blocks := (List.range n).map (fun i => slice b (256 + 4096 * i) 4096), sig := slice b (256 + 4096 * n) 96, slot := slot, pushed := pushed }

/-- The first block that fails, if any. -/
def badBlock (x : Image) : Option Nat := (x.blocks.zipIdx.find? (fun e => !blockOk e.2 e.1)).map (·.2)

/-! ## Configuration records -/

/-- Words of 4 bytes, least significant byte first. -/
def leWords (n : Nat) (b : Bytes) : List Word := (List.range n).map (fun k => Word.ofNat (leAt b (4 * k) 4))

/-- The outcome of a record: the reason of Table 13-8 and the status of a failed preload, none for a record applied; and the state it leaves. -/
structure RecOut where
  fail : Option (Nat × Nat) := none
  s : State

/-- A record outside the sealable set. -/
def unsealable (s : State) (status : Nat := 0) : RecOut := { fail := some (13, status), s := s }

/-- Is the register at an offset SEALED, and which of its bits exist? -/
def sealedBits (a : Nat) : Option Nat :=
  match regRow a with
  | some r => if r.cls = .sealed then some (Nat.lor r.rw r.rws) else none
  | none => none

/-- Does a register hold a value that the manual treats as a record outside the sealable set (R369)? -/
def badSealed (a : Nat) (w : Word) : Bool :=
  let f (lo len : Nat) : Nat := fget w lo len
  let lin := decide (0x0800000 ≤ a) && decide (a < 0x0940000)
  (lin && a % 0x10000 == 0 && decide (5 ≤ f 0 3))
    || (lin && decide (0x1000 ≤ a % 0x10000) && a % 0x400 == 0 && f 14 2 == 3)
    || ((List.range 16).any (fun n => a == Reg.PRS_PROF_OPT n) && f 0 2 == 3)
    || (decide (Reg.PRS_PORT_CFG 0 ≤ a) && decide (a ≤ Reg.PRS_PORT_CFG 161) && (f 4 2 == 3 || f 6 2 == 3))
    || ((List.range 16).any (fun k => a == Reg.ACT_MTU k) && decide (2 ≤ f 14 2))
    || (a == Reg.SCH_QSPLIT && (decide (65536 < f 0 17) || f 0 17 % 32 != 0))
    || (a == Reg.SCH_CREDIT_CFG && (f 0 5 == 0 || decide (16 < f 0 5)))
    || (a == Reg.FAB_NODE && decide (8 < f 16 4))
    || (a == Reg.DRC_GLB_CFG && (f 0 2 == 3 || f 2 2 == 3))
    || (a == Reg.CLK_PLAN && f 2 2 == 3)
    || (a == Reg.HIF_CFG && (decide (f 0 3 < 4) || f 0 3 == 7 || !([1, 2, 4, 8, 16].contains (f 3 5))))
    || (decide (Reg.FLT_SEV 0 ≤ a) && decide (a ≤ Reg.FLT_SEV 255)
      && (List.range 8).any (fun j => srcAssigned (8 * ((a - Reg.FLT_SEV 0) / 4) + j) && decide (5 ≤ f (4 * j) 3)))

/-- One register write of a record: `mask` selects bits; a 1 over a reserved bit fails (R369). -/
def recWrite (s : State) (a mask v : Nat) : RecOut :=
  match sealedBits a with
  | none => unsealable s
  | some m =>
    let w := Word.ofNat (Nat.lor (Nat.land (rd s a).toNat (2 ^ 32 - 1 - mask)) (Nat.land v mask))
    if Nat.land mask m ≠ mask ∨ badSealed a w then unsealable s
    else
      let s1 := wr s a w
      { s := if a = Reg.CLK_PLAN then { s1 with boot := { s1.boot with planSeen := true } } else s1 }

/-- A register that a record writes whole, every bit. -/
def recWhole (s : State) (a v : Nat) : RecOut :=
  match sealedBits a with
  | none => unsealable s
  | some m => if Nat.land v m = v then recWrite s a m v else unsealable s

/-- Applies pieces of a record in order, up to the first that fails. -/
def recAll (f : State → Nat → RecOut) : State → List Nat → RecOut
  | s, [] => { s := s }
  | s, k :: r =>
    let o := f s k
    match o.fail with
    | some _ => o
    | none => recAll f o.s r

/-- What the table engine answers to a preload, as the outcome of its record. -/
def preloaded (e : Eng) : RecOut := if e.st = .ok then { s := e.s } else unsealable e.s e.st.code

/-- Writes entry i of a direct table, CLS or table 20 (Table 13-6). A valid entry is replaced. -/
def recEntry (s : State) (t i v : Nat) : RecOut :=
  if t = Tab.schTree then
    match tabInfo t with
    | some x => if i < x.count then { s := tabPut s t i (Nat.land v x.named) } else unsealable s Status.badKey.code
    | none => unsealable s
  else preloaded (directWrite s 0 (t != Tab.qacct && !tabValid s t i) t i v)

/-- The bytes of one operand of a keyed table. -/
def keyedBytes (t : Nat) : Nat := match t with | 2 | 3 => 24 | 4 => 40 | 9 => 16 | _ => 0

/-- A keyed insert in PF0's scope (R367). DESIGN CHOICE: SUB, the key type of HOST and STATIC of MAC, is the byte after TABLE, for which the spec names no other place. -/
def recKeyed (s : State) (t sub : Nat) (opnd : Bytes) : RecOut :=
  preloaded (writeEng 0 1 { fn := 0, ring := 0, opcode := 1, tag := 0, table := t, sub := sub, opnd := opnd } s)

/-- A store command applied to a bank; the records go to bank 0 while the device is in APPLY (R109). -/
def recStore (s : State) (eng : HostCmd → State → Eng) (opcode : Nat) (opnd : Bytes) : RecOut :=
  let act := sigActive s
  let o := preloaded (eng { fn := 0, ring := 0, opcode := opcode, tag := 0, table := 0, sub := 0, opnd := opnd } (if s.boot.sealed then s else setF s Reg.SIG_STORE_STAT_ACTIVE 1))
  if s.boot.sealed then o else { o with s := sigCounts (setF o.s Reg.SIG_STORE_STAT_ACTIVE act) }

/-- One pattern entry of record 0x07 (Table 13-6). -/
def recPattern (s : State) (id : Nat) (e : Bytes) : RecOut :=
  let w := leAt e 0 4
  if bit w 13 then
    recStore s sigWriteEng 0x10 (leBytes 4 id ++ [byteOf (bits w 0 6), byteOf (bits w 6 6), byteOf (bits w 12 1)] ++ slice e 4 32)
  else recStore s sigInvalidateEng 0x11 (leBytes 4 id)

/-- Is a table written by TABLE_INDEXED, and by TABLE_KEYED? -/
def indexedTable (t : Nat) : Bool := (tabInfo t).isSome
def keyedTable (t : Nat) : Bool := t == 2 || t == 3 || t == 4 || t == 9

/-- A length rounded up to a whole word. -/
def wordLen (n : Nat) : Nat := (n + 3) / 4 * 4

/-- The preload records, 0x04, 0x05, 0x07 and 0x08, by their bodies; none where the LENGTH does not match or the table is not one they write. -/
def recPreload (s : State) (typ : Nat) (b : Bytes) : RecOut :=
  let w (i : Nat) : Nat := leAt b (4 * i) 4
  match typ with
  | 4 =>
    let t := byteAt b 0
    let n := leAt b 2 2
    let ok := match tabInfo t with | some x => n == x.bytes && b.length == wordLen (12 + w 2 * n) | none => false
    if ok then recAll (fun a j => recEntry a t (w 1 + j) (leAt b (12 + j * n) n)) s (List.range (w 2)) else unsealable s
  | 5 =>
    let t := byteAt b 0
    let n := keyedBytes t
    if keyedTable t && b.length == 8 + w 1 * n then recAll (fun a j => recKeyed a t (byteAt b 1) (slice b (8 + j * n) n)) s (List.range (w 1)) else unsealable s
  | 7 =>
    if b.length = 8 + w 1 * 36 then recAll (fun a j => recPattern a (w 0 + j) (slice b (8 + j * 36) 36)) s (List.range (w 1)) else unsealable s
  | _ => if b.length = 24 then recStore s sigProfileEng 0x12 b else unsealable s

/-- The register records, 0x02, 0x03 and 0x06. -/
def recRegs (s : State) (typ : Nat) (b : Bytes) : RecOut :=
  let w (i : Nat) : Nat := leAt b (4 * i) 4
  match typ with
  | 2 => if b.length % 12 = 0 then recAll (fun a j => recWrite a (w (3 * j)) (w (3 * j + 1)) (w (3 * j + 2))) s (List.range (b.length / 12)) else unsealable s
  | 3 => if b.length = 8 + 4 * w 1 then recAll (fun a j => recWhole a (w 0 + 4 * j) (w (2 + j))) s (List.range (w 1)) else unsealable s
  | _ =>
    let p := w 0
    if b.length ≠ 16 ∨ 16 ≤ p then unsealable s
    else recAll (fun a j => recWhole a (Reg.PRS_PROF_HDR p + 4 * j) (w (1 + j))) s (List.range 3)

/-- END (R368, R369): the counts agree, CLK_PLAN has been written, and only 0x00 follows. -/
def recEnd (s : State) (b rest : Bytes) : RecOut :=
  let n := s.boot.recNum + 1
  if b.length ≠ 4 then unsealable s
  else if leAt b 0 4 ≠ n ∨ s.boot.manifest ≠ n ∨ !s.boot.planSeen then { fail := some (12, 0), s := s }
  else if rest.any (· != 0) then unsealable s
  else { s := { s with boot := { s.boot with endSeen := true } } }

/-- The effect of one record by its type. -/
def recBody (s : State) (typ : Nat) (b rest : Bytes) : RecOut :=
  match typ with
  | 1 => if b.length = 40 then { s := { s with boot := { s.boot with manifest := leAt b 0 4 } } } else unsealable s
  | 2 | 3 | 6 => recRegs s typ b
  | 4 | 5 | 7 | 8 => recPreload s typ b
  | 0x7F => recEnd s b rest
  | _ => unsealable s

/-- The next record of a payload is applied (R366 to R369). -/
def recStep (p : Bytes) (s : State) : RecOut :=
  let o := s.boot.recAt
  let n := s.boot.recNum
  let typ := byteAt p o
  let len := leAt p (o + 4) 4
  if p.length < o + 12 ∨ leAt p (o + 8) 4 ≠ n ∨ (n = 0 ∧ typ ≠ 1) then { fail := some (12, 0), s := s }
  else if len % 4 ≠ 0 ∨ len < 12 then unsealable s
  else if p.length < o + len then { fail := some (12, 0), s := s }
  else
    let r := recBody s typ (slice p (o + 12) (len - 12)) (p.drop (o + len))
    match r.fail with
    | some _ => r
    | none => { s := { r.s with boot := { r.s.boot with recAt := o + len, recNum := n + 1 } } }

/-- Applies records up to END or to the first that fails, at most `k`. -/
def recRun (p : Bytes) : Nat → State → RecOut
  | 0, s => { fail := some (12, 0), s := s }
  | k + 1, s =>
    let r := recStep p s
    match r.fail with
    | some _ => r
    | none => if r.s.boot.endSeen then r else recRun p k r.s

/-! ## The checks of APPLY -/

/-- The SRAM pools fit 512 MiB (R183). -/
def sramFits (s : State) : Bool := decide (((List.range 8).map (fun k => getF s (Reg.BUF_SPOOL_CFG_COUNT k) * bufSize k)).sum ≤ 2 ^ 29)

/-- The DRAM pools fit an interface's usable capacity U (R184, R301). -/
def dramFits (s : State) : Bool :=
  let u := [2 ^ 31, 3 * 2 ^ 30, 2 ^ 32].getD (getF s Reg.DRC_GLB_CFG_DENSITY) 0 / 32 * 31
  decide (((List.range 8).map (fun k => getF s (Reg.BUF_DPOOL_CFG_PER_DI k) * bufSize k)).sum ≤ u)

/-- The egress tree stands (R237). -/
def treeStands (s : State) : Bool :=
  (tabAll s Tab.schTree).all (fun e =>
    if levelOf e.1 = 4 then decide (e.1 - levelBase 4 ≤ 160)
    else (match treeParent s e.1 with | some j => tabValid s Tab.schTree j && levelOf j == levelOf e.1 + 1 | none => false) && !(levelOf e.1 == 0 && decide (e.1 < voqSplit s)))

/-- The scratch operations stand (R509). -/
def scrOpsStand (s : State) : Bool :=
  (List.range 256).all (fun k =>
    let op := getF s (Reg.SCR_OP_CFG_OP k)
    let span := 2 ^ getF s (Reg.SCR_OP_CFG_SPAN_LOG2 k)
    let base := getF s (Reg.SCR_OP_BASE_BASE k)
    let ps := op == 0 || op == 1
    let fits := if ps then decide (base + span ≤ 65536) else decide (base + ceilDiv span 64 ≤ 8388608)
    !flag s (Reg.SCR_OP_CFG_VALID k)
      || (decide (getF s Reg.SCR_PIPE_CFG_ACT_BASE ≤ 261888) && (getF s (Reg.SCR_OP_CFG_TARGET k) == if ps then 0 else 1) && fits && getF s (Reg.SCR_OP_CFG_OPERAND k) != 3))

/-- Does a configuration pass every check that the manual assigns to APPLY (R367)? -/
def applyStands (s : State) : Bool := sramFits s && dramFits s && treeStands s && scrOpsStand s

end Sys2Proof.Machine
end

