-- ==== Sys2Proof/Machine/Power.lean ====
section
/-! DEFINITION. Supply, rails, VBAT domain and temperature (chapter 16), the entries into OFF, RESET and LOAD (R32, R33), and the life cycle as RESET resolves it (R382, R383). -/

namespace Sys2Proof.Machine

/-! ## Landing messages -/

/-- A Landing message (R330): TYPE, BODY of 48 bits and the CRC-8 over both. -/
def landingWord (typ body : Nat) : Nat := (typ * 2 ^ 48 + body) * 2 ^ 8 + crc8 (beBytes 7 (typ * 2 ^ 48 + body))

/-- A message as a transmitter sends it, most significant bit first: the sync word, its 64 bits, and 16 bits of the idle pattern (R329). -/
def arbFrame (w : Nat) : Nat := 0xF0C5 * 2 ^ 80 + w % 2 ^ 64 * 2 ^ 16 + 0xAAAA

/-- n bits in the polarity that ARB_TX_INV or ARB_RX_INV gives a pair of balls (R329). -/
def arbPolar (s : State) (inv : Fld) (n v : Nat) : Nat := if flag s inv then 2 ^ n - 1 - v % 2 ^ n else v % 2 ^ n

/-- The card sends a Landing message; it reaches ARB_TX. -/
def landingSend (s : State) (typ body : Nat) : State :=
  { s with pair := { s.pair with arbTx := landingWord typ body, arbWire := arbPolar s Reg.PAIR_LINK_CFG_ARB_TX_INV 96 (arbFrame (landingWord typ body)) } }

/-- FAULT (Table 12-2): SOURCE, SEVERITY 4, SLICE, DIE and the next FAULT_SEQ. -/
def landingFault (s : State) (src slice die : Nat) : State :=
  let q := (s.pair.faultSeq + 1) % 65536
  landingSend { s with pair := { s.pair with faultSeq := q } } 7 (src * 2 ^ 37 + 4 * 2 ^ 34 + slice * 2 ^ 28 + die * 2 ^ 26 + q)

/-! ## The life cycle -/

/-- A complete OTP word (R382). -/
def otpWhole : Nat := 0xC3A55A3C
/-- A void OTP word (R382). -/
def otpVoid : Nat := 0xFFFFFFFF

/-- One RETURNED pair as the procedure of R383 meets it: the pair afterwards, whether the state becomes RETURNED, whether an attempt is abandoned. -/
def returnedPair (p : Nat × Nat) : (Nat × Nat) × Bool × Bool :=
  if p.2 = otpWhole then (p, true, false)
  else if p.1 = otpVoid ∧ p.2 = otpVoid then (p, false, false)
  else if p.1 ≠ 0 ∨ p.2 ≠ 0 then ((otpVoid, otpVoid), false, true)
  else (p, false, false)

/-- The RETURNED pairs in order, up to the first complete one. -/
def returnedPairs : List (Nat × Nat) → List (Nat × Nat) × Bool × Bool
  | [] => ([], false, false)
  | p :: t =>
    let (q, got, ab) := returnedPair p
    if got then (q :: t, true, ab)
    else
      let (u, g, a) := returnedPairs t
      (q :: u, g, ab || a)

/-- One change toward a more restrictive state (R383): the pair afterwards, whether the state is reached, whether it was completed now. -/
def forwardPair (p : Nat × Nat) : (Nat × Nat) × Bool × Bool :=
  if p.2 = otpWhole then (p, true, false)
  else if p.1 = 0 ∧ p.2 = 0 then (p, false, false)
  else ((otpWhole, otpWhole), true, true)

/-- The life-cycle state as RESET resolves it (R383, Table 13-10): the state, the OTP afterwards, LC_COMPLETED and LC_ABANDONED. -/
def resolveLc (o : Otp) : LifeCycle × Otp × Bool × Bool :=
  let (fa, inFa, c1) := forwardPair o.factory
  if !inFa then (.blank, o, false, false)
  else
    let (fi, inFi, c2) := forwardPair o.field
    let o1 := { o with factory := fa, field := if inFi then fi else o.field }
    if !inFi then (.factory, o1, c1, false)
    else
      let (rs, got, ab) := returnedPairs o.returned
      (if got then .returned else .field, { o1 with returned := rs }, c1 || c2, ab)

/-! ## Entering OFF, RESET and LOAD -/

/-- Level sources whose condition lies outside what a reset returns: VIN, VIO18_OUT, VBAT, the rails, the temperature and the reference clocks. -/
def physicalSrc (src : Nat) : Bool :=
  src == Src.vinWarn || src == Src.vio18 || src == Src.vbatLow || src == Src.tempWarn || src == Src.tempHigh
    || (decide (Src.rail 0 ≤ src) && decide (src ≤ Src.rail 6)) || (decide (Src.sysRef ≤ src) && decide (src < Src.sysRef + 4))

/-- Registers of type RWS (R10): DEV_HOST_SCRATCH and PWR_TRIP. -/
def stickyReg (a : Nat) : Bool := (decide (Reg.DEV_HOST_SCRATCH 0 ≤ a) && decide (a < Reg.DEV_HOST_SCRATCH 8)) || a == Reg.PWR_TRIP

/-- What a loss of VIN leaves: OTP, the NVM, the VBAT domain, the level of PCIE_PERST_L and what waits outside. -/
def unpowered (s : State) (t : TopState) : State :=
  let b : State := { otp := s.otp, top := t }
  { b with nvm := s.nvm, vbat := s.vbat, hif := { b.hif with perstL := s.hif.perstL }, pwr := { b.pwr with pwrgood := false, resetL := s.pwr.resetL }, rdData := s.rdData, free := s.free, pending := s.pending }

/-- The life cycle is resolved in RESET (R383); BOOT_STAT says what was done. -/
def resolveInReset (s : State) : State :=
  let (lc, o, done, gone) := resolveLc s.otp
  setB (setB { s with otp := o, boot := { s.boot with lc := lc } } Reg.BOOT_STAT_LC_COMPLETED done) Reg.BOOT_STAT_LC_ABANDONED gone

/-- Entry into RESET other than at VIN good (R32, R575, R595): everything returns to its reset value but RWS fields, OTP, the NVM, the VBAT domain, repairs of memories,
the TAP, and what lies outside the device. -/
def resetEnter (cause : Nat) (s : State) : State :=
  let b := unpowered s .reset
  let p := { s.pwr with cause := cause, tmSample := false, cd38Lost := false }
  let f := { b.flt with cause := s.flt.cause.filter (fun e => physicalSrc e.1) }
  let k := { b.scr with spares := s.scr.spares, full := s.scr.full }
  let t := { b.tst with bscan := s.tst.bscan, dr := s.tst.dr }
  let regs := s.regs.filter (fun e => stickyReg e.1)
  let s1 := { b with regs := regs, pwr := p, flt := f, scr := k, tst := t }
  resolveInReset (setB (setF s1 Reg.TST_STAT_INSTR (getF s Reg.TST_STAT_INSTR)) Reg.TST_STAT_PIN_DRIVE (flag s Reg.TST_STAT_PIN_DRIVE))

/-- The IDCODE of Table 23-1. -/
def idcodeOf (o : Otp) : Nat := o.rev % 16 * 2 ^ 28 + 0x0324094B

/-- The bytes that the CRC-32C of a copy of the wear table covers (R405): its format number, GENERATION, and a count for each 64 KiB block. DESIGN CHOICE: their order. -/
def wearBytes (c : WearCopy) : Bytes := leBytes 4 c.format ++ leBytes 4 c.gen ++ (List.range c.blocks).flatMap (fun b => leBytes 4 (mget 0 c.counts b))

/-- A copy of the wear table whose CRC passes. -/
def wearCopyAt (s : State) (k : Nat) : Option WearCopy := (mfind s.nvm.area.wear k).filter (fun c => c.crc == crc32c (wearBytes c))

/-- The place of the newer valid copy of the wear table, as R362 chooses a directory copy; none where neither is valid (R405). -/
def wearNewer (s : State) : Option (Nat × WearCopy) :=
  match wearCopyAt s 0, wearCopyAt s 1 with
  | some a, some b => let k := (b.gen + 2 ^ 32 - a.gen) % 2 ^ 32; if 1 ≤ k ∧ k ≤ 2 ^ 31 - 1 then some (1, b) else some (0, a)
  | some a, none => some (0, a)
  | none, some b => some (1, b)
  | none, none => none

/-- VIN_GOOD (R435, R32): from OFF the device enters RESET. The newer valid copy of the wear table is read; a block without a count in both copies takes the highest count (R405). -/
def vinGood (lost : List Nat) (s : State) : State :=
  if s.top != .off then s
  else
    let counts := match wearNewer s with | some (_, c) => c.counts | none => []
    let top := (counts.map (·.2)).foldl max 0
    let w := lost.foldl (fun m b => mput 0 m b top) counts
    let s1 : State := { (unpowered s .reset) with nvm := { s.nvm with wear := w }, tst := { dr := (32, idcodeOf s.otp) } }
    resolveInReset (setF s1 Reg.TST_STAT_INSTR 1)

/-- The command whose effect is `vinGood`. -/
def execVinGood (lost : List Nat) (s : State) : Out := .next (vinGood lost s)

/-- VIN_FAIL (R438, R439): the shutdown runs to OFF. -/
def vinFail (s : State) : State := unpowered s .off

/-- The command whose effect is `vinFail`. -/
def execVinFail (s : State) : Out := .next (vinFail s)

/-- Is VIN good (R435)? -/
def vinIsGood (s : State) : Bool := s.top != .off

/-- VIN_DIP (R438): a dip that is ridden through counts. -/
def vinDip (s : State) : State := bumpIf (vinIsGood s) s (Reg.PWR_CNT 1)

/-- The command whose effect is `vinDip`. -/
def execVinDip (s : State) : Out := .next (vinDip s)

/-- VIN_WARN (R437): the warning is in force. -/
def vinWarn (s : State) : State :=
  if !vinIsGood s || (mfind s.flt.cause Src.vinWarn).isSome then s
  else levelOn (bump (setB s Reg.PWR_VIN_STAT_WARN true) (Reg.PWR_CNT 0)) Src.vinWarn locPackage 0

/-- The command whose effect is `vinWarn`. -/
def execVinWarn (s : State) : Out := .next (vinWarn s)

/-- RESET_L_LOW (R32): RESET from any state but OFF. In RESET the cause stays as the entry wrote it (R595). -/
def resetLLow (s : State) : State :=
  let s1 := { s with pwr := { s.pwr with resetL := false } }
  if s.top = .off ∨ s.top = .reset then s1 else resetEnter 2 s1

/-- The command whose effect is `resetLLow`. -/
def execResetLLow (s : State) : Out := .next (resetLLow s)

/-- The status bits of level sources that are in force as LOAD is entered. -/
def levelBits (s : State) : State :=
  let on (src : Nat) : Bool := (mfind s.flt.cause src).isSome
  let s1 := setB (setB s Reg.PWR_VIN_STAT_WARN (on Src.vinWarn)) Reg.PWR_RAIL_STAT_VIO18_OC (on Src.vio18)
  let s2 := setB (setB s1 Reg.PWR_TEMP_STAT_WARN (on Src.tempWarn)) Reg.PWR_TEMP_STAT_HIGH (on Src.tempHigh)
  let s3 := setB s2 Reg.PWR_BAT_STAT_VBAT_LOW (on Src.vbatLow)
  (List.range 4).foldl (fun a r => setB a ⟨Reg.CLK_REF_STAT, 8 + r, 1⟩ (on (Src.sysRef + r))) s3

/-- What the markers of the VBAT domain say at this start (R446): no cell behaves as a collapse. -/
def vbatAtStart (mv : Nat) (s : State) : State :=
  let absent := decide (mv < 1000)
  let v := if absent then { s.vbat with timeMark := 0, recMark := 0, collapsed := true } else s.vbat
  let time := v.timeMark == 0xA55A
  let good := v.recMark == 0xA55A
  let s1 := setB (setB (setF s Reg.PWR_BAT_STAT_VBAT_MV mv) Reg.PWR_BAT_STAT_ABSENT absent) Reg.PWR_BAT_STAT_TIME_VALID time
  let s2 := setB (setB (setB s1 Reg.PWR_BAT_STAT_REC_VALID good) Reg.PWR_BAT_STAT_REC_LOST (!good)) Reg.PWR_BAT_STAT_COLLAPSED v.collapsed
  let s3 := if good then wrWords s2 (Reg.PWR_LASTREC 0) (v.record.take 8) else s2
  { s3 with vbat := { v with collapsed := false } }

/-- Do the PCIe lanes use a fixed internal trim for want of their impedance reference (R474)? -/
def pcieFixedTrim (s : State) : Bool := !rcalOk s 4

/-- RESET_EXIT (R32, R33, R436): RESET_L is high and the regulators are in range, so LOAD begins at tick 0. TESTMODE is sampled (R473, R585), the VBAT markers are read
(R446), the impedance references have been measured, in ohms (R474), the PCIe PLL starts, and every level in force is reported (R528). A BLANK part goes to HOLD (Table 13-9). -/
def resetExit (testmode : Bool) (vbatMv : Nat) (rcal : List Nat) (s : State) : State :=
  if s.top != .reset || s.pwr.tripHold || !s.pwr.railOut.isEmpty then s
  else
    let p := { s.pwr with resetL := true, pwrgood := true, tmSample := testmode, rcal := rcal.take 5 }
    let s0 : State := { s with pwr := p, tick := 0, ptp := {}, clk := { s.clk with starting := [4] } }
    let s1 := setB (levelBits (vbatAtStart vbatMv (enterTop s0 .load))) Reg.TST_STAT_FTEST_EN (testmode && s.boot.lc == .factory)
    let s2 := s1.flt.cause.foldl (fun a e => report a e.1 e.2.1 e.2.2) s1
    let s3 := if flag s2 Reg.BOOT_STAT_LC_COMPLETED || flag s2 Reg.BOOT_STAT_LC_ABANDONED then report s2 Src.bootLc (locSlice 0 63) 0 else s2
    let s4 := if flag s3 Reg.PWR_BAT_STAT_REC_LOST then report s3 Src.recLost locPackage 0 else s3
    if s.boot.lc = .blank then enterHold { s4 with boot := { s4.boot with loading := false } } 5 0 0 0 0 else s4

/-- The command whose effect is `resetExit`. -/
def execResetExit (testmode : Bool) (sense : StartSense) (s : State) : Out :=
  match sense with
  | ⟨vbatMv, rcal⟩ => .next (resetExit testmode vbatMv rcal s)

/-! ## Rails and VIO18_OUT -/

/-- RAIL_OUT (R441): rail group k has left its window; the location is that of the rail's die and slice. -/
def railOut (k : Fin 7) (die : Fin 2) (slice : Fin 64) (s : State) : State :=
  if !vinIsGood s || s.pwr.railOut.contains k then s
  else
    let s1 := { s with pwr := { s.pwr with railOut := k.val :: s.pwr.railOut, pwrgood := false } }
    let s2 := setF s1 Reg.PWR_RAIL_STAT_OUT_SEEN (Nat.lor (getF s1 Reg.PWR_RAIL_STAT_OUT_SEEN) (2 ^ k.val))
    levelOn (bump s2 (Reg.PWR_CNT 2)) (Src.rail k) (locSlice die slice) 0

/-- The command whose effect is `railOut`. -/
def execRailOut (k : Fin 7) (die : Fin 2) (slice : Fin 64) (s : State) : Out := .next (railOut k die slice s)

/-- RAIL_RECOVER (R441): every group has been in range for 100 µs. -/
def railRecover (s : State) : State :=
  if s.pwr.railOut.isEmpty then s
  else s.pwr.railOut.foldl (fun a k => levelOff a (Src.rail k)) { s with pwr := { s.pwr with railOut := [], pwrgood := !s.pwr.tripHold } }

/-- The command whose effect is `railRecover`. -/
def execRailRecover (s : State) : Out := .next (railRecover s)

/-- VIO18_OVERLOAD (R447): the output folds back. -/
def vio18Overload (s : State) : State :=
  if !vinIsGood s || (mfind s.flt.cause Src.vio18).isSome then s
  else levelOn (bump (setB s Reg.PWR_RAIL_STAT_VIO18_OC true) (Reg.PWR_CNT 5)) Src.vio18 locPackage 0

/-- The command whose effect is `vio18Overload`. -/
def execVio18Overload (s : State) : Out := .next (vio18Overload s)

/-- VIO18_RECOVER (R447): the overload ends and the output recovers by itself. -/
def vio18Recover (s : State) : State := levelOff (setB s Reg.PWR_RAIL_STAT_VIO18_OC false) Src.vio18

/-- The command whose effect is `vio18Recover`. -/
def execVio18Recover (s : State) : Out := .next (vio18Recover s)

/-! ## VBAT -/

/-- VBAT_LOW (Table 16-9): VBAT crosses V_BLOW. -/
def vbatLow (low : Bool) (s : State) : State :=
  if !vinIsGood s then s else levelIs low (setB s Reg.PWR_BAT_STAT_VBAT_LOW low) Src.vbatLow locPackage 0

/-- The command whose effect is `vbatLow`. -/
def execVbatLow (low : Bool) (s : State) : Out := .next (vbatLow low s)

/-- VBAT_COLLAPSE (R446): the detector sets both markers to 0. -/
def vbatCollapse (s : State) : State := { s with vbat := { s.vbat with timeMark := 0, recMark := 0, collapsed := true } }

/-- The command whose effect is `vbatCollapse`. -/
def execVbatCollapse (s : State) : Out := .next (vbatCollapse s)

/-- HOLDOVER_WRITE (R444, R445): the counter takes PTP time while VIN is good and the time is SET or HOLDOVER. -/
def holdoverWrite (s : State) : State :=
  if !vinIsGood s || timeState s == 0 then s
  else { s with vbat := { s.vbat with sec := s.ptp.sec, sub := s.ptp.ns * 32768 / 1000000000, timeMark := 0xA55A } }

/-- The command whose effect is `holdoverWrite`. -/
def execHoldoverWrite (s : State) : Out := .next (holdoverWrite s)

/-- CLR_REC (R446): a write of 1 invalidates the record marker. -/
def clrRec (s : State) : State := operWrite s Reg.PWR_BAT_CTL 1 (fun s => { s with vbat := { s.vbat with recMark := 0 } })

/-- The command whose effect is `clrRec`. -/
def execClrRec (s : State) : Out := .next (clrRec s)

/-! ## Temperature and telemetry -/

/-- The place of sensor n (R448). -/
def sensorLoc (n : Nat) : Nat :=
  if n < 20 then locSlice 0 n else if n < 32 then locSlice 0 63 else if n < 40 then locSlice 1 (n - 12)
  else if n < 52 then locSlice 1 (n - 12) else if n < 64 then locSlice 1 63 else locPackage

/-- The hottest of readings, the lowest-numbered sensor among equals: its value in 0.125 °C and its number. -/
def hottest : List (Nat × Int) → Option (Int × Nat)
  | [] => none
  | (n, t) :: r =>
    match hottest r with
    | none => some (t, n)
    | some (u, m) => if t < u then some (u, m) else some (t, n)

/-- Does a threshold of `c` °C with its hysteresis hold, given whether it held before and the hottest reading (R449)? -/
def tempOver (held : Bool) (c hyst : Nat) (t : Int) : Bool := if held then decide (((c : Int) - hyst) * 8 < t) else decide ((c : Int) * 8 ≤ t)

/-- Follows one threshold (R449): its bits, its counter and its level. -/
def tempFollow (s : State) (src k c hyst : Nat) (now seen : Fld) (t : Int) (n : Nat) : State :=
  let held := (mfind s.flt.cause src).isSome
  let over_ := tempOver held c hyst t
  let s1 := if over_ && !held then bump (setB s seen true) (Reg.PWR_CNT k) else s
  levelIs over_ (setB s1 now over_) src (sensorLoc n) 0

/-- WARN_C, HIGH_C and HYST as they act (Table 16-19). -/
def warnC (s : State) : Nat := clamp 100 155 (getF s Reg.PWR_TEMP_CFG_WARN_C)
def highC (s : State) : Nat := max (warnC s) (clamp 100 155 (getF s Reg.PWR_TEMP_CFG_HIGH_C))
def tempHyst (s : State) : Nat := max 1 (getF s Reg.PWR_TEMP_CFG_HYST)

/-- A thermal trip (R450): the record goes to the VBAT domain, FAULT_L goes low, FAULT is sent in pair mode, and the device enters RESET with its rails off. -/
def thermalTrip (s : State) (n : Nat) : State :=
  let r := stamp s false Src.trip (sensorLoc n) 0
  let s1 := vbatCopy s (mkRecord (srcCount s Src.trip) (nextSeq s.flt.seq) Src.trip r)
  let s2 := if pairMode s then landingFault s1 Src.trip (locSliceOf (sensorLoc n)) (locDieOf (sensorLoc n)) else s1
  let s3 := setF (satBump s2 Reg.PWR_TRIP_TRIPS) Reg.PWR_TRIP_LAST_SENSOR n
  let s4 := if s.top = .reset then s3 else resetEnter 1 s3
  { s4 with pwr := { s4.pwr with tripHold := true, pwrgood := false, railOut := [] }, pair := { s4.pair with arbTx := s3.pair.arbTx, arbWire := s3.pair.arbWire } }

/-- TEMP_SENSOR_READ (R448 to R450): the 72 readings, as signed 12-bit numbers of 0.125 °C; thresholds, peak, and the trip at the second reading of 160 °C in a row. -/
def tempSensorRead (temps : List Nat) (s : State) : State :=
  let l := (temps.take 72).zipIdx.map (fun e => (e.2, signed 12 e.1))
  match hottest l with
  | none => s
  | some (t, n) =>
    if !vinIsGood s || temps.length < 72 then s
    else
      let s1 := l.foldl (fun a e => setB (setF a (Reg.PWR_TEMP_TEMP e.1) (ofSigned 12 e.2)) (Reg.PWR_TEMP_VALID e.1) true) s
      let s2 := setF (setF s1 Reg.PWR_TEMP_MAX_TEMP (ofSigned 12 t)) Reg.PWR_TEMP_MAX_SENSOR n
      let up := s.pwr.peakFresh || decide (signed 12 (getF s Reg.PWR_TEMP_PEAK_TEMP) < t)
      let s3 := if up then setF (setF s2 Reg.PWR_TEMP_PEAK_TEMP (ofSigned 12 t)) Reg.PWR_TEMP_PEAK_SENSOR n else s2
      let s4 := tempFollow s3 Src.tempWarn 3 (warnC s) (tempHyst s) Reg.PWR_TEMP_STAT_WARN Reg.PWR_TEMP_STAT_WARN_SEEN t n
      let s5 := tempFollow s4 Src.tempHigh 4 (highC s) (tempHyst s) Reg.PWR_TEMP_STAT_HIGH Reg.PWR_TEMP_STAT_HIGH_SEEN t n
      let hot := (l.filter (fun e => decide (1280 ≤ e.2))).map (·.1)
      let s6 : State := { s5 with pwr := { s5.pwr with hot := hot, cool := decide (t < 1120), peakFresh := false } }
      match hot.find? s.pwr.hot.contains with
      | some k => if s.pwr.tripHold then s6 else thermalTrip s6 k
      | none => s6

/-- The command whose effect is `tempSensorRead`. -/
def execTempSensorRead (temps : List Nat) (s : State) : Out := .next (tempSensorRead temps s)

/-- TRIP_RECOVER (R450): every sensor reads below 140 °C and RESET_L is high, so the regulators start again and FAULT_L is released. -/
def tripRecover (s : State) : State :=
  if s.pwr.tripHold && s.pwr.cool then { s with pwr := { s.pwr with tripHold := false, resetL := true } } else s

/-- The command whose effect is `tripRecover`. -/
def execTripRecover (s : State) : Out := .next (tripRecover s)

/-- TELEMETRY_UPDATE (R461, Tables 16-20 and 16-22): voltages, currents and powers as measured. -/
def telemetryUpdate (vin iin pin vbat vio : Nat) (grp die : List Nat) (s : State) : State :=
  if !powered s then s
  else
    let s1 := setF s Reg.PWR_VIN_STAT_VIN_MV vin
    let s2 := setF s1 Reg.PWR_VIN_MIN_MIN_MV (min (getF s1 Reg.PWR_VIN_MIN_MIN_MV) (vin % 8192))
    let s3 := setF (setF s2 Reg.PWR_IIN_STAT_IIN iin) Reg.PWR_IIN_STAT_PIN pin
    let s4 := setF (setF s3 Reg.PWR_BAT_STAT_VBAT_MV vbat) ⟨Reg.PWR_VIO_STAT, 0, 10⟩ vio
    let s5 := (List.range 8).foldl (fun a k => setF a (Reg.PWR_GRP_PWR_POWER k) (grp.getD k 0)) s4
    (List.range 3).foldl (fun a d => setF a (Reg.PWR_DIE_PWR_POWER d) (die.getD d 0)) s5

/-- The command whose effect is `telemetryUpdate`. -/
def execTelemetryUpdate (vin iin pin vbat vio : Nat) (grp die : List Nat) (s : State) : Out :=
  .next (telemetryUpdate vin iin pin vbat vio grp die s)

end Sys2Proof.Machine
end

