-- ==== Sys2Proof/Machine/Boot.lean ====
section
/-! DEFINITION. Start-up and recovery (chapter 13): the loader (R359 to R363, R370), VERIFY (R371), APPLY and the seal (R366 to R369, R378), HOLD, re-reads and
pushes (R374 to R377), anti-rollback floors, keys and the life cycle (R372, R373, R380 to R385); and the NVM as the device writes it (R362, R405, R407). -/

namespace Sys2Proof.Machine

/-- The place that the loader's and the agent's reports name. -/
def aonLoc : Nat := locSlice 0 63

/-! ## Writing the NVM -/

/-- The 64 KiB blocks that `len` bytes from an offset touch. -/
def blocksOf (off len : Nat) : List Nat := upFrom (off / 65536) (ceilDiv (off % 65536 + len) 65536)

/-- The erase count at which a block has reached its rating (R407). -/
def wearLimit (s : State) : Nat := max 1 (getF s Reg.UPD_WEAR_CFG_RATING) * 1000

/-- Has any of some blocks reached the rating? -/
def wornOut (s : State) (l : List Nat) : Bool := l.any (fun b => decide (wearLimit s ≤ mget 0 s.nvm.wear b))

/-- AT_LIMIT (R407): a block of either slot pair has reached the rating. -/
def atLimit (s : State) : Bool :=
  match s.boot.dir with
  | some d => d.slots.any (fun g => wornOut s (blocksOf g.1 g.2))
  | none => false

/-- UPD_WEAR_LIMIT is present while AT_LIMIT is 1 (Table 20-2). -/
def wearShow (s : State) : State := levelIs (atLimit s) s Src.wearLimit aonLoc 0

/-- The format of the records of a firmware image (R404). -/
def formatOf (o : Option Image) : Nat := match o with | some x => Config.persistFormat x.header | none => 0

/-- Does a trial run, from its activation or its restart to CONFIRM or the end of the fallback (R404)? -/
def inTrial (s : State) : Bool := getF s Reg.UPD_STAT_STATE == 6 || getF s Reg.UPD_STAT_STATE == 7 || s.upd.restartTrial

/-- The format of the records in their usual place, and that of the second area, which a trial with another format writes too (R404). -/
def persistFormats (s : State) : Nat × Option Nat :=
  let run := formatOf s.boot.fw
  let new_ := if s.upd.restartTrial then run else formatOf (s.upd.fw.orElse (fun _ => s.boot.fw))
  let old := if s.upd.restartTrial then s.nvm.oldFormat else run
  if inTrial s && old != new_ then (old, some new_) else (run, none)

/-- The 64 KiB blocks that item k of the persistent area stands in, in the usual place and, where that is written too, in the second area. -/
def persistBlocks (s : State) (k : Nat) : List Nat :=
  match s.boot.dir with
  | none => []
  | some d =>
    let at_ (i : Nat) : Nat := d.persist.1 / 65536 + Config.persistPlace i % max 1 (d.persist.2 / 65536)
    at_ k :: (match (persistFormats s).2 with | some _ => [at_ (8 + k)] | none => [])

/-- A persistent record is written once, or twice in a trial of another format (R404). -/
def persistWrite (s : State) (f : Persist → Nat → Persist) : State :=
  let x := persistFormats s
  let n := { s.nvm with area := f s.nvm.area x.1 }
  { s with nvm := match x.2 with | some k => { n with second := f n.second k } | none => n }

/-- The second area is discarded unread (R404). -/
def secondDrop (s : State) : State := { s with nvm := { s.nvm with second := {} } }

/-- The number of 64 KiB blocks of the NVM. -/
def nvmBlocks (s : State) : Nat := match s.boot.dir with | some d => d.nvmMib * 16 | none => 0

/-- A copy of the wear table with its CRC-32C (R405). -/
def wearCopy (s : State) (format gen : Nat) (counts : NMap Nat) : WearCopy :=
  let c : WearCopy := { format := format, gen := gen % 2 ^ 32, blocks := nvmBlocks s, counts := counts, crc := 0 }
  { c with crc := crc32c (wearBytes c) }

/-- The wear table is written into the copy whose turn it is, with GENERATION raised by 1 (R405). -/
def wearWrite (s : State) (k : Nat) (counts : NMap Nat) : State :=
  let gen := match wearNewer s with | some (_, c) => c.gen + 1 | none => 1
  persistWrite { s with nvm := { s.nvm with wear := counts } } (fun a f => { a with wear := mset a.wear k (some (wearCopy s f gen counts)) })

/-- An erase of some 64 KiB blocks counts, and so does that of the block of the wear table that records it; the copies are written alternately (R405). -/
def wearBlocks (s : State) (l : List Nat) : State :=
  let k := match wearNewer s with | some (0, _) => 1 | _ => 0
  wearShow (wearWrite s k ((l ++ persistBlocks s k).foldl (fun m b => mput 0 m b (mget 0 m b + 1)) s.nvm.wear))

/-- Does a VIN warning block NVM and OTP programming (R437)? -/
def programsBlocked (s : State) : Bool := flag s Reg.PWR_VIN_STAT_WARN

/-- The directory copy not in use is rewritten with GENERATION raised by 1, and is in use from then on (R362). -/
def dirCommit (s : State) (d : Directory) : State :=
  let k := 1 - s.boot.dirCopy
  let d1 : Directory := { d with gen := (d.gen + 1) % 2 ^ 32 }
  let s1 := { s with nvm := { s.nvm with dirs := mset s.nvm.dirs k (some (encodeDir d1)) } }
  wearBlocks { s1 with boot := { s1.boot with dir := some d1, dirCopy := k, dirOwed := none } } [k]

/-- A rewrite of the directory, which a VIN warning holds back until it clears (R437). -/
def dirWrite (s : State) (d : Directory) : State :=
  if programsBlocked s then { s with boot := { s.boot with dir := some d, dirOwed := some d } } else dirCommit s d

/-- A change of the directory in use, where there is one. -/
def dirChange (s : State) (f : Directory → Directory) : State := match s.boot.dir with | some d => dirWrite s (f d) | none => s

/-- VIN_WARN_CLEAR (R437): NVM and OTP work resumes. -/
def vinWarnClear (s : State) : State :=
  let s1 := levelOff (setB s Reg.PWR_VIN_STAT_WARN false) Src.vinWarn
  match s1.boot.dirOwed with
  | some d => let s2 := dirCommit s1 d; if getF s2 Reg.UPD_STAT_STATE = 8 then resetEnter 4 s2 else s2
  | none => s1

/-- The command whose effect is `vinWarnClear`. -/
def execVinWarnClear (s : State) : Out := .next (vinWarnClear s)

/-- The head enters a sector of 2,048 records, and the sector is erased (R539). -/
def nvlogErase (m : NMap (Nat × List Word)) (head : Nat) : NMap (Nat × List Word) :=
  if head % 2048 = 0 then m.filter (fun e => decide (e.1 / 2048 ≠ head / 2048)) else m

/-- NVLOG_APPEND (R404, R405, R539): the firmware appends the oldest waiting record, unless a VIN warning blocks programming (R437). An erase of a sector counts. -/
def nvlogAppend (s : State) : State :=
  match s.flt.nvWait with
  | [] => s
  | rcd :: rest =>
    if !powered s || programsBlocked s then s
    else
      let h := s.nvm.logHead
      let s1 := persistWrite s (fun a f => { a with log := mset (nvlogErase a.log h) h (some (f, rcd)) })
      let n := { s1.nvm with logHead := (h + 1) % 8192, logWrapped := s.nvm.logWrapped || h + 1 == 8192 }
      let s2 := { s1 with nvm := n, flt := { s.flt with nvWait := rest } }
      if h % 2048 = 0 then wearBlocks s2 (persistBlocks s2 (2 + h / 2048)) else s2

/-- The command whose effect is `nvlogAppend`. -/
def execNvlogAppend (s : State) : Out := .next (nvlogAppend s)

/-! ## The TRIAL bytes (Table 14-4) -/

/-- STATE; 4 to 255 count as 0. -/
def trialState (d : Directory) : Nat := if 3 < byteAt d.trial 0 then 0 else byteAt d.trial 0

/-- TRIAL with another STATE, SLOTS and WINDOW_S, and its TRIAL_ID kept. -/
def withTrial (d : Directory) (st slots window : Nat) : Directory :=
  { d with trial := [byteOf st, byteOf slots] ++ slice d.trial 2 2 ++ leBytes 2 window }

/-- A trial that a start has ended (R401, R402): TRIAL_LOST, its report, and TRIAL cleared with the old slots named. -/
def trialLost (s : State) (d : Directory) : State :=
  let slots := byteAt d.trial 1
  let old : Directory := if trialState d = 2 then { d with fwActive := bits slots 0 1, cfgActive := bits slots 1 1 } else d
  dirWrite (report (setB (secondDrop s) Reg.UPD_STAT_TRIAL_LOST true) Src.trialLost aonLoc 0) (withTrial old 0 0 0)

/-- What the firmware finds in TRIAL as APPLY begins (R401, R402): a restart trial of the running slots goes on, and the directory names the old slots again;
any other recorded trial is lost. -/
def trialAtStart (s : State) (fw cfg : Image) : State :=
  match s.boot.dir with
  | none => s
  | some d =>
    let slots := byteAt d.trial 1
    let new_ := !fw.pushed && !cfg.pushed && fw.slot == bits slots 2 1 && cfg.slot == bits slots 3 1
    if trialState d = 0 then s
    else if trialState d = 2 ∧ new_ then
      let old : Directory := { d with fwActive := bits slots 0 1, cfgActive := bits slots 1 1 }
      let s1 := dirWrite s (withTrial old 3 slots (leAt d.trial 4 2))
      { s1 with upd := { s1.upd with restartTrial := true } }
    else trialLost s d

/-! ## The loader -/

/-- The loader begins to read: in LOAD, or in HOLD for an image that a push did not bring. -/
def loadBegin (s : State) : State := { s with boot := { s.boot with loading := true, read := none, idTries := 0, nvmUp := false } }

/-- The loader stops with a reason of Table 13-8. -/
def loadHold (s : State) (reason image slot detail : Nat) : State :=
  settle s (enterHold { s with boot := { s.boot with loading := false, read := none } } reason image slot detail 0)

/-- The slot of a type: the override's while OVR_EN is 1, else the directory's (R363, R375). -/
def slotOf (s : State) (typ : Nat) : Nat :=
  if flag s Reg.BOOT_HOLD_CTL_OVR_EN then getF s (if typ = 1 then Reg.BOOT_HOLD_CTL_FW_SLOT else Reg.BOOT_HOLD_CTL_CFG_SLOT)
  else match s.boot.dir with
    | some d => if typ = 1 then d.fwActive else d.cfgActive
    | none => 0

/-- Offset and size of a slot. -/
def slotPlace (s : State) (typ slot : Nat) : Nat × Nat :=
  match s.boot.dir with
  | some d => d.slots.getD (2 * (typ - 1) + slot) (0, 0)
  | none => (0, 0)

/-- The reading of an image of a type begins with its header; BOOT_STAT names the slot. -/
def imageBegin (s : State) (typ : Nat) : State :=
  let k := slotOf s typ
  let s1 := setF s (if typ = 1 then Reg.BOOT_STAT_FW_SLOT else Reg.BOOT_STAT_CFG_SLOT) k
  let s2 := setB s1 Reg.BOOT_STAT_OVR_USED (flag s Reg.BOOT_HOLD_CTL_OVR_EN)
  { s2 with boot := { s2.boot with read := some { what := typ + 1 }, part := { slot := k } } }

/-- The loader goes on to the next image that is not staged, or is done. -/
def loadNext (s : State) : State :=
  if s.boot.fw.isNone then imageBegin s 1
  else if s.boot.cfg.isNone then imageBegin s 2
  else { s with boot := { s.boot with read := some { what := 4 } } }

/-- NVM_ID_ATTEMPT (R360): the JEDEC ID is valid, and the reading begins; or the third attempt fails. -/
def nvmIdAttempt (valid octal : Bool) (s : State) : State :=
  if !s.boot.loading || s.boot.nvmUp || (s.top != .load && s.top != .hold) then s
  else if valid then
    let s1 := setB { s with boot := { s.boot with nvmUp := true } } Reg.BOOT_NVM_STAT_OCTAL octal
    if s1.boot.dir.isSome then loadNext s1 else { s1 with boot := { s1.boot with read := some { what := 0 }, dirRes := [] } }
  else if 2 ≤ s.boot.idTries then loadHold s 1 0 0 0
  else { s with boot := { s.boot with idTries := s.boot.idTries + 1 } }

/-- The command whose effect is `nvmIdAttempt`. -/
def execNvmIdAttempt (valid octal : Bool) (s : State) : Out := .next (nvmIdAttempt valid octal s)

/-- An item that passes on its second or third read is accepted, counted and reported (R370). -/
def readAccepted (s : State) (fails : Nat) : State :=
  if fails = 0 then s else report (satBump s Reg.BOOT_NVM_STAT_REREADS) Src.nvmReread aonLoc 0

/-- A failed read is repeated; `ended` is what three in a row lead to. -/
def readFailed (s : State) (r : Reading) (ended : State → State) : State :=
  if 2 ≤ r.fails then ended s else { s with boot := { s.boot with read := some { r with fails := r.fails + 1 } } }

/-- What one directory copy gave; after the second, a copy is chosen, or DIR_BAD ends the loading (R362). -/
def dirGave (s : State) (k fault : Nat) (d : Option Directory) : State :=
  let l := s.boot.dirRes ++ [(fault, d)]
  if k = 0 then { s with boot := { s.boot with dirRes := l, read := some { what := 1 } } }
  else
    match chooseDir (l.getD 0 (1, none)) (fault, d) with
    | some (c, x) => loadNext (wearShow { s with boot := { s.boot with dirRes := l, dir := some x, dirCopy := c } })
    | none => loadHold s 2 0 0 ((l.getD 0 (1, none)).1 + 256 * fault)

/-- The read of a directory copy. -/
def dirRead (s : State) (r : Reading) (b : Bytes) : State :=
  if !dirCrcOk b then readFailed s r (fun s => dirGave s r.what 1 none)
  else
    let f := dirFault b
    dirGave (readAccepted s r.fails) r.what f (if f = 0 then some (decodeDir b) else none)

/-- The read of an item of an image: its header, a block, or the signature (R364, R365, R370, R371). -/
def imageRead (s : State) (r : Reading) (b : Bytes) : State :=
  let typ := r.what - 1
  let p := s.boot.part
  let next (x : Image) (s : State) : State := { s with boot := { s.boot with part := x, read := some { what := r.what, item := r.item + 1 } } }
  if r.item = 0 then
    if !hdrCrcOk b then readFailed s r (fun s => loadHold s 3 typ p.slot 0xFFFFFFFF)
    else
      let x : Image := { p with header := b }
      let s1 := readAccepted s r.fails
      if formatOk x typ (slotPlace s typ p.slot).2 then next x s1 else loadHold s1 4 typ p.slot 0
  else if r.item ≤ p.blockCount then
    if !blockOk (r.item - 1) b then readFailed s r (fun s => loadHold s 3 typ p.slot (r.item - 1))
    else next { p with blocks := p.blocks ++ [b] } (readAccepted s r.fails)
  else
    let x : Image := { p with sig := fit 96 b }
    loadNext { s with boot := if typ = 1 then { s.boot with fw := some x, part := {} } else { s.boot with cfg := some x, part := {} } }

/-- IMAGE_BLOCK_READ (R361 to R365, R370, R371): the loader's next read returns these bytes. -/
def imageBlockRead (data : Bytes) (s : State) : State :=
  if !s.boot.loading || (s.top != .load && s.top != .hold) then s
  else match s.boot.read with
    | none => s
    | some r => if r.what ≤ 1 then dirRead s r data else if r.what ≤ 3 then imageRead s r data else s

/-- The command whose effect is `imageBlockRead`. -/
def execImageBlockRead (data : Bytes) (s : State) : Out := .next (imageBlockRead data s)

/-- VERIFY is entered, from LOAD or from HOLD. -/
def enterVerify (s : State) : State :=
  let b := { s.boot with loading := false, read := none, verified := false }
  let s1 := { s with boot := b }
  if s.top = .hold then leaveHold s1 .verify else enterTop s1 .verify

/-- LOAD_COMPLETE (R32, R376): everything has been read. -/
def loadComplete (s : State) : State :=
  if s.boot.loading && s.boot.read == some { what := 4 } && (s.top == .load || s.top == .hold) then enterVerify s else s

/-- The command whose effect is `loadComplete`. -/
def execLoadComplete (s : State) : Out := .next (loadComplete s)

/-! ## VERIFY -/

/-- IMAGE of BOOT_HOLD_STAT for a staged image: 3 for a pushed one. -/
def holdImage (x : Image) (typ : Nat) : Nat := if x.pushed then 3 else typ

/-- SLOT of BOOT_HOLD_STAT: the slot of the image, or BOOT_PUSH_CTL.SLOT as it stood at START. -/
def holdSlot (x : Image) : Nat := x.slot

/-- The registers that name the running images (R597), when the images have passed VERIFY. -/
def showVersions (s : State) (fw cfg : Image) : State :=
  let p := cfg.payload
  let label := if byteAt p 0 = 1 then slice p 20 32 else List.replicate 32 0
  let s1 := wrWords (wrWords s (Reg.DEV_FW_VER 0) (leWords 4 fw.version)) (Reg.DEV_CFG_VER 0) (leWords 4 cfg.version)
  let s2 := wrWords s1 (Reg.DEV_CFG_LABEL 0) (leWords 8 label)
  setB (setB s2 Reg.BOOT_STAT_FW_PUSHED fw.pushed) Reg.BOOT_STAT_CFG_PUSHED cfg.pushed

/-- APPLY begins (R32, R402). -/
def enterApply (s : State) (fw cfg : Image) : State :=
  let b := { s.boot with verified := false, toProgram := none, recAt := 0, recNum := 0, manifest := 0, planSeen := false, endSeen := false }
  trialAtStart (enterTop { s with boot := b } .apply) fw cfg

/-- VERIFY_COMPLETE (R371, R377): both images pass, the firmware image checked first, or the first failure leads to HOLD. A pushed image that is to be programmed is
programmed before APPLY. -/
def verifyComplete (s : State) : State :=
  if s.top != .verify || s.boot.verified then s
  else match s.boot.fw, s.boot.cfg with
    | some fw, some cfg =>
      let a := imageFault s.otp fw 1
      let b := imageFault s.otp cfg 2
      if a ≠ 0 then settle s (enterHold s a (holdImage fw 1) (holdSlot fw) 0 0)
      else if b ≠ 0 then settle s (enterHold s b (holdImage cfg 2) (holdSlot cfg) 0 0)
      else
        let s1 := showVersions s fw cfg
        if s1.boot.toProgram.isSome then { s1 with boot := { s1.boot with verified := true } } else enterApply s1 fw cfg
    | _, _ => s

/-- The command whose effect is `verifyComplete`. -/
def execVerifyComplete (s : State) : Out := .next (verifyComplete s)

/-- A type's slot is named by the directory. -/
def nameSlot (d : Directory) (typ slot : Nat) : Directory := if typ = 1 then { d with fwActive := slot } else { d with cfgActive := slot }

/-- An image is programmed into a slot (R377, R390): its blocks are erased, and the slot holds it. -/
def slotProgram (s : State) (typ slot : Nat) (x : Image) : State :=
  let k := 2 * (typ - 1) + slot
  let s1 := wearBlocks s (blocksOf (slotPlace s typ slot).1 x.length)
  { s1 with nvm := { s1.nvm with slots := mset s1.nvm.slots k (some { x with slot := slot, pushed := false }) } }

/-- PUSH_SLOT_PROGRAM (R377, R407): the pushed image is written into its slot and the directory names it; the wear limit or the NVM may refuse. -/
def pushSlotProgram (nvmOk : Bool) (s : State) : State :=
  if s.top != .verify || !s.boot.verified || programsBlocked s then s
  else match s.boot.toProgram, s.boot.fw, s.boot.cfg with
    | some (typ, slot), some fw, some cfg =>
      let x := if typ = 1 then fw else cfg
      let place := slotPlace s typ slot
      let l := blocksOf place.1 x.length
      let s1 :=
        if s.boot.dir.isNone || decide (place.2 < x.length) then setB s Reg.BOOT_PUSH_STAT_PROG_FAIL true
        else if wornOut s l then report (setB s Reg.BOOT_PUSH_STAT_PROG_FAIL true) Src.wearLimit aonLoc 0
        else if !nvmOk then setB (wearBlocks s l) Reg.BOOT_PUSH_STAT_PROG_FAIL true
        else
          let a := dirChange (slotProgram s typ slot x) (fun d => nameSlot d typ slot)
          setF a (if typ = 1 then Reg.BOOT_STAT_FW_SLOT else Reg.BOOT_STAT_CFG_SLOT) slot
      enterApply s1 fw cfg
    | _, _, _ => s

/-- The command whose effect is `pushSlotProgram`. -/
def execPushSlotProgram (nvmOk : Bool) (s : State) : Out := .next (pushSlotProgram nvmOk s)

/-! ## APPLY -/

/-- CONFIG_RECORD (R366 to R369): the next record is applied, or ends APPLY in HOLD. -/
def configRecord (s : State) : State :=
  match s.boot.cfg with
  | none => s
  | some x =>
    if s.top != .apply || s.boot.endSeen then s
    else
      let p := x.payload
      let r := recStep p s
      match r.fail with
      | none => r.s
      | some (reason, status) =>
        let n := if s.boot.recAt + 12 ≤ p.length then leAt p (s.boot.recAt + 8) 4 else s.boot.recNum
        settle s (enterHold r.s reason (holdImage x 2) (holdSlot x) n status)

/-- The command whose effect is `configRecord`. -/
def execConfigRecord (s : State) : Out := .next (configRecord s)

/-- Slices and DRAM interfaces at the end of APPLY (R299, R310, R559): ABSENT, SLEEP by their boot bit, or SERVICE with their populated interfaces in training. -/
def slicesStart (s : State) : State :=
  let boot := (rd s Reg.PWR_SLICE_BOOT_LO).toNat + 2 ^ 32 * getF s Reg.PWR_SLICE_BOOT_HI_BOOT_HI
  (List.range 40).foldl (fun a n =>
    let dis := sliceDis n
    let st := if 28 ≤ n ∧ dis.all (fun i => !diPop a i) then 0 else if bit boot n then 4 else 1
    dis.foldl (fun b i => if !diPop b i then diEnter b i 0 else if st = 1 then diTrain b i else diEnter b i 7) (setF a (Reg.PWR_SLICE_STAT_STATE n) st)) s

/-- The PTP clock at the start of BRINGUP (R426, R446): from the holdover counter, which has advanced by `counted` of 1/32,768 s since it was last written, or from 0. -/
def ptpStart (s : State) (counted : Nat) : State :=
  if flag s Reg.PWR_BAT_STAT_TIME_VALID then
    let sub := s.vbat.sub + counted
    let p : Ptp := { sec := (s.vbat.sec + sub / 32768) % 2 ^ 48, ns := sub % 32768 * 1000000000 / 32768, frac := 0 }
    let s1 := setF (setF s Reg.PWR_HOLD_NS_NS p.ns) Reg.PWR_HOLD_SEC_LO_SEC_LO p.sec
    setF (setF { s1 with ptp := p } Reg.PWR_HOLD_SEC_HI_SEC_HI (p.sec / 2 ^ 32)) Reg.TIM_STAT_TIME_STATE 1
  else setF { s with ptp := {} } Reg.TIM_STAT_TIME_STATE 0

/-- The seal is set and BRINGUP is entered (R32, R378): the role (R327), bank 0 of the pattern store (R109), the clocks of BRINGUP (R416, R418, R425, R426), slices
and DRAM interfaces. -/
def sealUp (s : State) (fw cfg : Image) (counted : Nat) : State :=
  let s1 := setF (setF s (Reg.BOOT_ARB_RUN_SEQ 0) fw.arbSeq) (Reg.BOOT_ARB_RUN_SEQ 1) cfg.arbSeq
  let s2 := sigCounts (setF s1 Reg.SIG_STORE_STAT_ACTIVE 0)
  let s3 := setF (setF s2 Reg.PAIR_STAT_ROLE (if pairMode s then 3 else 0)) Reg.PAIR_STAT_WD_REASON 0
  let s4 := ptpStart (slicesStart s3) counted
  let q := { s4.qd with epochBase := 0, epochTick := s.tick, epochCorr := 0, epochGoal := 0, wredGen := max 1 (getF s Reg.CGM_WRED_SEED_SEED) }
  let s5 := { s4 with boot := { s4.boot with sealed := true, up := true }, qd := q }
  let s6 := setB s5 Reg.TIM_STAT_TIME_SRC ((mfind s5.flt.cause (Src.sysRef + 1)).isSome && flag s5 Reg.CLK_PLAN_TIME_FALLBACK)
  settle s (dramPools (wearShow (enterTop (pllStart s6 ((List.range 25).filter (· != 4))) .bringup)))

/-- APPLY_COMPLETE (R367, R369, R378): after END the checks of APPLY are made; they pass and the seal is set, or the device enters HOLD with the number of END. -/
def applyComplete (counted : Nat) (s : State) : State :=
  match s.boot.fw, s.boot.cfg with
  | some fw, some cfg =>
    if s.top != .apply || !s.boot.endSeen then s
    else if applyStands s then sealUp s fw cfg counted
    else settle s (enterHold s 13 (holdImage cfg 2) (holdSlot cfg) (s.boot.recNum - 1) 0)
  | _, _ => s

/-- The command whose effect is `applyComplete`. -/
def execApplyComplete (counted : Nat) (s : State) : Out := .next (applyComplete counted s)

/-- Does an instruction of the test access port that drives balls hold (R574, Table 23-2)? -/
def tapDrives (s : State) : Bool := [0x00, 0x03, 0x04, 0x05, 0x06, 0x82].contains (getF s Reg.TST_STAT_INSTR) && flag s Reg.TST_STAT_PIN_DRIVE

/-- BRINGUP_COMPLETE (R32, R389, R399, R575): RUN is entered. A restart trial runs its window from here. The host link is down while UP is 0. -/
def bringupComplete (s : State) : State :=
  if s.top != .bringup || tapDrives s || s.clk.starting.contains 0 || s.clk.starting.contains 1 then s
  else
    let s1 := enterTop s .run
    let s2 :=
      if s1.upd.restartTrial then
        let u := { s1.upd with window := (s.tick, clamp 10 3600 (getF s Reg.UPD_CFG_CONFIRM_S)), otherDigest := s.nvm.oldDigest }
        setB (setF { s1 with upd := u } Reg.UPD_STAT_STATE 6) Reg.UPD_STAT_RESTART_TRIAL true
      else setF s1 Reg.UPD_STAT_STATE 0
    settle s (levelIs (!flag s Reg.HIF_LINK_STAT_UP) s2 Src.linkDown aonLoc 0)

/-- The command whose effect is `bringupComplete`. -/
def execBringupComplete (s : State) : Out := .next (bringupComplete s)

/-! ## Recovery in HOLD -/

/-- Registers that are 0 again when the images in force are given up (R597): DEV_FW_VER, DEV_CFG_VER, DEV_CFG_LABEL and BOOT_ARB_RUN, and the status of the pattern store. -/
def imageReg (a : Nat) : Bool :=
  (decide (Reg.DEV_FW_VER 0 ≤ a) && decide (a < Reg.DEV_CFG_LABEL 8)) || a == Reg.BOOT_ARB_RUN 0 || a == Reg.BOOT_ARB_RUN 1 || a == Reg.SIG_STORE_STAT || a == Reg.SIG_STORE_CNT

/-- SEALED registers, table 20 and the pattern store return to their reset values, and the seal is off (R375, R376). -/
def unsealAll (s : State) : State :=
  let regs := s.regs.filter (fun e => (sealedBits e.1).isNone && !imageReg e.1)
  let tree (k : Nat) : Bool := k / 2 ^ 24 == Tab.schTree
  let t := { s.tab with direct := s.tab.direct.filter (fun e => !tree e.1), bad := s.tab.bad.filter (fun k => !tree k) }
  wearShow { s with regs := regs, tab := t, sig := {}, boot := { s.boot with sealed := false, up := false } }

/-- REREAD (R375): in HOLD the device starts over at LOAD, with the slots that the write's override names; elsewhere the write fails at its target. -/
def reread (v : Nat) (s : State) : State :=
  if s.top != .hold then (if powered s then pwfTarget s Reg.BOOT_HOLD_CTL v else s)
  else
    let s1 := unsealAll (writeRw s Reg.BOOT_HOLD_CTL v 0xE)
    let b := { s1.boot with fw := none, cfg := none, dir := none, push := none, toProgram := none, part := {} }
    let s2 := setB { s1 with boot := b } Reg.BOOT_PUSH_STAT_BUSY false
    settle s (loadBegin (leaveHold (wearShow s2) .load))

/-- The command whose effect is `reread`. -/
def execReread (v : Nat) (s : State) : Out := .next (reread v s)

/-- A push, or an OTP request, is refused: REFUSED of BOOT_PUSH_STAT. -/
def pushRefused (s : State) : State := setB s Reg.BOOT_PUSH_STAT_REFUSED true

/-- PUSH_START (R376): a push begins in HOLD, and one of type 3 or 4 also in RUN; any other START is refused. -/
def pushStart (v : Nat) (s : State) : State :=
  operWrite s Reg.BOOT_PUSH_CTL v (fun s =>
    let typ := bits v 1 3
    let s1 := setB (setB (writeRw s Reg.BOOT_PUSH_CTL v 0x3E) Reg.BOOT_PUSH_STAT_DONE false) Reg.BOOT_PUSH_STAT_REFUSED false
    let ok := (s.top == .hold && decide (1 ≤ typ) && decide (typ ≤ 4)) || (s.top == .run && (typ == 3 || typ == 4))
    if !ok || s.boot.push.isSome || (s.top == .hold && s.boot.loading) then pushRefused s1
    else
      let s2 := setB (setB s1 Reg.BOOT_PUSH_STAT_BUSY true) Reg.BOOT_PUSH_STAT_PROG_FAIL false
      { s2 with boot := { s2.boot with push := some (typ, bit v 4, bits v 5 1) } })

/-- The command whose effect is `pushStart`. -/
def execPushStart (v : Nat) (s : State) : Out := .next (pushStart v s)

/-- A life-cycle token is accepted (R384): the next unused RETURNED pair is programmed, or none is left. -/
def tokenAct (s : State) (x : Image) : State :=
  let p := x.payload
  let ok := s.boot.lc == .field && x.serialLock && leAt p 0 4 == 3 && leAt p 4 8 == s.otp.serial && imageFault s.otp x 3 == 0 && !programsBlocked s
  match ok, s.otp.returned.findIdx? (fun e => e == (0, 0)) with
  | true, some k => setB { s with otp := { s.otp with returned := s.otp.returned.set k (otpWhole, otpWhole) } } Reg.BOOT_PUSH_STAT_DONE true
  | _, _ => pushRefused s

/-- A key enrolment (R385): slot, usage and hash of its payload are programmed. -/
def enrolAct (s : State) (x : Image) : State :=
  let p := x.payload
  let k := byteAt p 0
  let use := byteAt p 1 % 8
  let hash := slice p 4 48
  let free := match mfind s.otp.keys k with | some e => e.usage == 0 | none => true
  let revoked := match mfind s.otp.keys k with | some e => e.revoked | none => false
  let ok := s.boot.lc == .factory && decide (1 ≤ k) && decide (k ≤ 3) && free && use != 0 && !bit use 0 && sha384 x.pubkey == hash
    && imageFault s.otp x 4 == 0 && !programsBlocked s
  if ok then
    let e : OtpKey := { usage := use, hash := hash, revoked := revoked }
    setB { s with otp := { s.otp with keys := mset s.otp.keys k (some e) } } Reg.BOOT_PUSH_STAT_DONE true
  else pushRefused s

/-- A pushed image of type 1 or 2 passes its checks (R376): it replaces the staged one, and VERIFY follows, or the other type is read first. -/
def pushAccept (s : State) (typ slot : Nat) (program : Bool) (x : Image) : State :=
  let s1 := unsealAll (setB s Reg.BOOT_PUSH_STAT_DONE true)
  let b := if typ = 1 then { s1.boot with fw := some x } else { s1.boot with cfg := some x }
  let s2 := { s1 with boot := { b with toProgram := if program then some (typ, slot) else none } }
  settle s (if s2.boot.fw.isSome && s2.boot.cfg.isSome then enterVerify s2 else loadBegin s2)

/-- PUSH_COMPLETE (R376, R384, R385): the DMA of a push ends, with an error or with these bytes. -/
def pushComplete (dmaOk : Bool) (data : Bytes) (s : State) : State :=
  match s.boot.push with
  | none => s
  | some (typ, program, slot) =>
    let s1 := setB { s with boot := { s.boot with push := none } } Reg.BOOT_PUSH_STAT_BUSY false
    let hold (reason detail : Nat) : State := if 3 ≤ typ then pushRefused s1 else enterHold s1 reason 3 slot detail 0
    let len := getF s Reg.BOOT_PUSH_LEN_LEN
    let x := parseImage data slot true
    if !dmaOk || data.length != len then hold 15 0
    else if !hdrCrcOk x.header then hold 3 0xFFFFFFFF
    else if !formatOk x typ (maxSlot typ) || x.length != len then hold 4 0
    else match badBlock x with
      | some k => hold 3 k
      | none => if typ = 3 then tokenAct s1 x else if typ = 4 then enrolAct s1 x else pushAccept s1 typ slot program x

/-- The command whose effect is `pushComplete`. -/
def execPushComplete (dmaOk : Bool) (data : Bytes) (s : State) : Out := .next (pushComplete dmaOk data s)

/-! ## Floors, keys and the life cycle -/

/-- Are the running images confirmed (R372, R399): no activation, trial or fallback is under way? -/
def confirmed (s : State) : Bool :=
  let u := getF s Reg.UPD_STAT_STATE
  !s.upd.restartTrial && u != 5 && u != 6 && u != 7

/-- May the floor be raised to the running image's ARB_SEQ (R372, R437)? -/
def mayCommit (s : State) (t : Nat) (l : List (Nat × Nat)) : Bool :=
  confirmed s && decide (floorOf l < getF s (Reg.BOOT_ARB_RUN_SEQ t)) && decide (l.length < 64) && !programsBlocked s

/-- The next unused entry of a floor is programmed, value and complement. -/
def floorAdd (l : List (Nat × Nat)) (v : Nat) : List (Nat × Nat) := l ++ [(v, 2 ^ 32 - 1 - v)]

/-- The floor of the firmware rises to the ARB_SEQ of the running image. -/
def floorFwUp (s : State) : State := { s with otp := { s.otp with floorFw := floorAdd s.otp.floorFw (getF s (Reg.BOOT_ARB_RUN_SEQ 0)) } }

/-- The floor of the configuration rises to the ARB_SEQ of the running image. -/
def floorCfgUp (s : State) : State := { s with otp := { s.otp with floorCfg := floorAdd s.otp.floorCfg (getF s (Reg.BOOT_ARB_RUN_SEQ 1)) } }

/-- A write of BOOT_ARB_CTL (R372): it raises the floors that it names, or fails whole. -/
def arbCtl (v : Nat) (s : State) : State :=
  operWrite s Reg.BOOT_ARB_CTL v (fun s =>
    if (bit v 0 ∧ !mayCommit s 0 s.otp.floorFw) ∨ (bit v 1 ∧ !mayCommit s 1 s.otp.floorCfg) then pwfTarget s Reg.BOOT_ARB_CTL v
    else
      let s1 := if bit v 0 then floorFwUp s else s
      if bit v 1 then floorCfgUp s1 else s1)

/-- COMMIT_FW (R372). -/
def execCommitFw (s : State) : Out := .next (arbCtl 1 s)

/-- COMMIT_CFG (R372). -/
def execCommitCfg (s : State) : Out := .next (arbCtl 2 s)

/-- Would an unrevoked slot remain for each usage of slot k (R373)? -/
def usagesRemain (o : Otp) (k : Nat) : Bool :=
  let use := match mfind o.keys k with | some e => e.usage | none => 0
  (List.range 3).all (fun u => !bit use u || o.keys.any (fun e => e.1 != k && !e.2.revoked && bit e.2.usage u))

/-- KEY_REVOKE (R373, R437): a write with REVOKE = 1 revokes slot KEY in RUN or HOLD, or is refused. -/
def keyRevoke (v : Nat) (s : State) : State :=
  operWrite s Reg.BOOT_KEY_CTL v (fun s =>
    let k := bits v 0 2
    if (s.top = .run ∨ s.top = .hold) ∧ bits v 16 16 = 0x5EA1 ∧ usagesRemain s.otp k ∧ !programsBlocked s then
      let e : OtpKey := (mfind s.otp.keys k).getD { usage := 0, hash := List.replicate 48 0, revoked := false }
      writeRw { s with otp := { s.otp with keys := mset s.otp.keys k (some { e with revoked := true }) } } Reg.BOOT_KEY_CTL v 3
    else pwfTarget s Reg.BOOT_KEY_CTL v)

/-- The command whose effect is `keyRevoke`. -/
def execKeyRevoke (v : Nat) (s : State) : Out := .next (keyRevoke v s)

/-- TO_FIELD (Table 13-9, R382, R437): FACTORY commits to FIELD, which takes effect at the next start (R585); or the write is refused. -/
def toField (v : Nat) (s : State) : State :=
  operWrite s Reg.BOOT_LC_CTL v (fun s =>
    if s.boot.lc = .factory ∧ bits v 16 16 = 0x5EA1 ∧ s.otp.keys.any (fun e => bit e.2.usage 1) ∧ !programsBlocked s then
      { s with otp := { s.otp with field := (otpWhole, otpWhole) } }
    else pwfTarget s Reg.BOOT_LC_CTL v)

/-- The command whose effect is `toField`. -/
def execToField (v : Nat) (s : State) : Out := .next (toField v s)

end Sys2Proof.Machine
end

