-- ==== Sys2Proof/Machine/FabRx.lean ====
section
/-! DEFINITION. The receive side of a fabric lane: overhead (R265 to R268, R275), switching requests received (R290, R291, R296), slips (R278), defects (R283)
and the host's protection commands (R286, R287). -/

namespace Sys2Proof.Machine

/-! ## The trail -/

/-- Does an accepted trail message mismatch what is expected (R265)? -/
def trailBad (s : State) (g l : Nat) (t : Bytes) : Bool :=
  flag s (Reg.FAB_TRAIL_EXP_CHECK_EN g)
    && (beAt t 9 2 != getF s (Reg.FAB_TRAIL_EXP_NODE g) || byteAt t 11 % 16 != getF s (Reg.FAB_TRAIL_EXP_PLANE g) || byteAt t 12 % 32 != l)

/-- A trail message is complete (R265): accepted and shown, or its CRC-8 fails. -/
def trailDone (s : State) (g l : Nat) (x : RxLane) (t : Bytes) : State × RxLane :=
  if crc8 (t.take 255) ≠ byteAt t 255 then (bump s (Reg.FAB_LANE_CNT g l 8), x)
  else
    let w := beAt t 9 2 + byteAt t 11 % 16 * 2 ^ 16 + byteAt t 12 % 32 * 2 ^ 20 + 2 ^ 31
    let s1 := wrPair (wr s (Reg.FAB_LANE_TRAIL g l) (Word.ofNat w)) (Reg.FAB_LANE_SERIAL_LO g l) (Reg.FAB_LANE_SERIAL_HI g l) (beAt t 1 8)
    let bad := trailBad s g l t
    (s1, { x with timBad := bad, timRun := if bad = x.timBad then x.timRun + 1 else 1 })

/-! ## Performance counts -/

/-- A frame received in frame joins the running second of a key (R293). -/
def pmFrame (s : State) (k : Nat) (errored : Bool) : State :=
  let x := mget {} s.fab.pm k
  { s with fab := { s.fab with pm := mput {} s.fab.pm k { x with frames := x.frames + 1, bip := x.bip + b2n errored } } }

/-! ## Back-pressure received -/

/-- The vector of BKP bytes, none when they are inconsistent (R268). -/
def bkpVector (a b c d : Nat) : Option Nat :=
  let p := b == 255 - a
  let q := d == 255 - c
  if p && q then (if a = c then some a else none) else if p then some a else if q then some c else none

/-- FAB_BKP_STUCK of a group is a level while a bit is ignored (R275). -/
def bkpLevel (s : State) (g : Nat) : State := levelIs (getF s (Reg.FAB_GRP_BKP_BKP_IGN g) != 0) s (Src.fabBkpStuck g) (locSlice 1 (20 + g)) 0

/-- The BKP bytes of the reference lane (R268, R275). -/
def bkpReceive (s : State) (g : Nat) (b : Bytes) : State :=
  match bkpVector (byteAt b 10) (byteAt b 11) (byteAt b 12) (byteAt b 13) with
  | none => partnerBad s g 12
  | some v =>
    let s1 := setF s (Reg.FAB_GRP_BKP_RX_REQ g) v
    bkpLevel (setF s1 (Reg.FAB_GRP_BKP_BKP_IGN g) (Nat.land (getF s (Reg.FAB_GRP_BKP_BKP_IGN g)) v)) g

/-- BKP_WATCHDOG (R275): a received bit has stayed set for WD_MS, and is ignored until it is received as 0. -/
def bkpWatchdog (g k : Fin 8) (s : State) : State :=
  if getF s Reg.FAB_BKP_CFG_WD_MS = 0 ∨ !bkpInForce s g k then s
  else bkpLevel (partnerBad (setF s (Reg.FAB_GRP_BKP_BKP_IGN g) (getF s (Reg.FAB_GRP_BKP_BKP_IGN g) + 2 ^ k.val)) g 13) g

/-- The command whose effect is `bkpWatchdog`. -/
def execBkpWatchdog (g k : Fin 8) (s : State) : Out := .next (bkpWatchdog g k s)

/-! ## Switching requests received -/

/-- SRQ_N within its limits. -/
def srqN (s : State) : Nat := max 2 (getF s Reg.FAB_PROT_CFG_SRQ_N)

/-- The group whose SRQ is in use: the lowest not in SF (R290). -/
def srqGroup (s : State) : Option Nat := (List.range 8).find? (fun g => !groupSf s g)

/-- The accepted SRQ of a group as bytes 5 and 6, without the reserved bits. -/
def srqAccepted (s : State) (g : Nat) : Nat :=
  let a := Reg.FAB_GRP_SRQ g
  getF s ⟨a, 0, 4⟩ * 4096 + getF s ⟨a, 4, 4⟩ * 256 + getF s (Reg.FAB_GRP_SRQ_ARCH g) * 16 + getF s (Reg.FAB_GRP_SRQ_BRIDGED g)

/-- A group accepts a value (R290, Table 10-18). -/
def srqStore (s : State) (g v : Nat) : State :=
  wr s (Reg.FAB_GRP_SRQ g) (Word.ofNat (v / 4096 % 16 + v / 256 % 16 * 16 + v % 16 * 256 + v / 16 % 2 * 4096 + 8192))

/-- The SRQ in use accepts a value (R290, R291): the remote request, SRQ-INC, and the comparison of ARCH. -/
def srqUse (s : State) (v : Nat) : State :=
  let f := s.fab
  let differs := bit v 4 != flag s Reg.FAB_PROT_CFG_ARCH
  let n := if differs then f.archDiff + 1 else 0
  let s1 := { s with fab := { f with archDiff := n, srqAway := 0 } }
  let s2 := setF (setF s1 ⟨Reg.FAB_PROT_STAT, 8, 4⟩ (v / 4096)) ⟨Reg.FAB_PROT_STAT, 12, 4⟩ (v / 256)
  let s3 := levelOff (setB s2 Reg.FAB_PROT_FLAGS_SRQ_INC false) Src.fabSrqInc
  let mm := decide (12 ≤ n) || (differs && flag s3 Reg.FAB_PROT_FLAGS_ARCH_MM)
  levelIs mm (setB s3 Reg.FAB_PROT_FLAGS_ARCH_MM mm) Src.fabArch (locSlice 1 63) 0

/-- Another group's accepted SRQ is compared with the one in use (Table 10-10, row 14). -/
def srqCompare (s : State) (g used : Nat) : State :=
  let n := if srqAccepted s g = srqAccepted s used then 0 else mget 0 s.fab.srqDiff g + 1
  let s1 := { s with fab := { s.fab with srqDiff := mput 0 s.fab.srqDiff g n } }
  if n = 13 then partnerBad s1 g 14 else s1

/-- Bytes 5 and 6 of the reference lane of a group (R290). -/
def srqReceive (s : State) (g : Nat) (b : Bytes) : State :=
  let v := byteAt b 5 * 256 + byteAt b 6 % 32
  let (c, n) := mget (0, 0) s.fab.srqCand g
  let run := if n ≠ 0 ∧ c = v then n + 1 else 1
  let s1 := { s with fab := { s.fab with srqCand := mset s.fab.srqCand g (some (v, run)) } }
  let ok := decide (srqN s ≤ run)
  let s2 := if ok then srqStore s1 g v else s1
  match srqGroup s with
  | none => s2
  | some u =>
    if u = g then
      if ok then srqUse s2 v
      else if flag s (Reg.FAB_GRP_SRQ_VALID g) && (srqAccepted s g != v || s.fab.srqAway != 0) then { s2 with fab := { s2.fab with srqAway := s2.fab.srqAway + 1 } } else s2
    else if flag s2 (Reg.FAB_GRP_SRQ_VALID g) && flag s2 (Reg.FAB_GRP_SRQ_VALID u) then srqCompare s2 g u
    else s2

/-- SRQ_INC_DECLARE (R290): the received value has departed from the accepted one, and none was accepted within 12 frames. -/
def srqIncDeclare (s : State) : State :=
  if s.fab.srqAway < 12 then s else levelOn (setB s Reg.FAB_PROT_FLAGS_SRQ_INC true) Src.fabSrqInc (locSlice 1 63) 0

/-- The command whose effect is `srqIncDeclare`. -/
def execSrqIncDeclare (s : State) : Out := .next (srqIncDeclare s)

/-! ## A received frame -/

/-- The overhead of a frame received in frame: BIP-16, TRAIL, STAT (R265 to R267), and on the reference lane BKP and SRQ. `was` says that the lane was in frame before it. -/
def overheadReceive (s : State) (g l : Nat) (x : RxLane) (b : Bytes) (was goesOn : Bool) : State :=
  let s1 := perfAdd (bump s (Reg.FAB_LANE_CNT g l 0)) (60 + g) 6 0
  let wrong := match x.bip with | some p => if was then popCount 16 (Nat.xor p (beAt b 8 2)) else 0 | none => 0
  let err := decide (0 < wrong)
  let s2 := if err then perf (bump s1 (Reg.FAB_LANE_CNT g l 1)) (60 + g) 5 else s1
  let s3 := pmFrame s2 (flk g l) err
  let s4 := if rxOk s g l then pmFrame s3 (pmGrp g) err else s3
  let st := byteAt b 7
  let s5 := bumpN s4 (Reg.FAB_LANE_CNT g l 2) (st % 16)
  let y := trailTake { x with bei := min 15 wrong, rdi := bit st 7, ais := bit st 6, degNow := x.degNow + b2n err } (byteAt b 3) (b.getD 4 0) goesOn
  let (s6, z) := match y.trail with
    | some t => if t.length = 256 then trailDone s5 g l { y with trail := none } t else (s5, y)
    | none => (s5, y)
  let s7 := putRx s6 g l { z with bip := some (bip16 b) }
  if refLane s g = some l then srqReceive (bkpReceive s7 g b) g b else s7

/-- A frame is read: its cells go to the cell engine. -/
def slipGive (s : State) (g l : Nat) (x : RxLane) (f : List Bytes) : State :=
  let s1 := putRx s g l { x with lastRead := f }
  let k := flk g l
  { s1 with fab := { s1.fab with cells := mput [] s1.fab.cells k (mget [] s1.fab.cells k ++ f) } }

/-- The cells of a frame enter the slip buffer of an RX_OK lane (R277, R278), or go on at once where the frame has been read while it was written. DESIGN CHOICE: a frame that finds
the four places taken, its read boundary overdue, is lost. -/
def slipWrite (s : State) (g l : Nat) (b : Bytes) : State :=
  let x := rxLane s g l
  let f := frameCells b
  if !rxOk s g l then s
  else if x.cut then slipGive s g l { x with cut := false } f
  else if 4 ≤ x.slip.length then bumpN s (Reg.FAB_LANE_CNT g l 7) (dataCells f)
  else putRx s g l { x with slip := x.slip ++ [f] }

/-- A frame comes to the decoder of a lane (R265 to R268, R276). -/
def frameTake (g : Nat) (l : Fin 28) (frame : Bytes) (fecCorr : Nat) (fecLost : Bool) (s : State) : State :=
  let s0 := perfAdd s (60 + g) 6 fecCorr
  let x := rxLane s0 g l
  let m := byteAt frame 3
  let goesOn := m == (x.mfas + 1) % 256
  let y := alignMf (alignFas x (beAt frame 0 3 == 0xA75C3E) fecLost) m
  if y.inFrame then fabFollow s (slipWrite (overheadReceive (putRx s0 g l y) g l y frame x.inFrame (goesOn && x.inFrame)) g l frame)
  else putRx s0 g l { y with bip := some (bip16 frame) }

/-- CARAVAN_FRAME_RECEIVE (R265 to R268, R276, R580): a receive lane takes a frame of 4,112 bytes. `fecCorr` FEC codewords were corrected, `fecLost` says that codeword alignment was lost. -/
def caravanFrameReceive (g : Nat) (l : Fin 28) (frame : Bytes) (fecCorr : Nat) (fecLost : Bool) (s : State) : State :=
  if !laneHears s g l || frame.length ≠ 4112 then s
  else match carvRx s (flk g l) (fabLoop s g l) frame with
    | none => s
    | some t => frameTake g l frame fecCorr fecLost t

/-- The command whose effect is `caravanFrameReceive`; group 8 stands for the Gallery lanes (R339). -/
def execCaravanFrameReceive (g : Fin 9) (l : Fin 28) (frame : Bytes) (fecCorr : Nat) (fecLost : Bool) (s : State) : Out :=
  .next (if g = 8 then galFrameReceive l frame fecLost s else caravanFrameReceive g l frame fecCorr fecLost s)

/-! ## Slips -/

/-- The oldest frame is read; it is the one that is being written where none is whole. -/
def slipOldest (s : State) (g l : Nat) (x : RxLane) : State :=
  match x.slip with
  | f :: r => slipGive s g l { x with slip := r } f
  | [] => putRx s g l { x with cut := true }

/-- SLIP_READ (R278): a read boundary of a lane's slip buffer, by the rules of Table 10-7 in their order; `part` says that a frame is partly written, which counts in the fill.
A frame removed comes besides the frame read. -/
def slipRead (g : Nat) (l : Fin 28) (part : Bool) (s : State) : State :=
  let x := rxLane s g l
  let idle := x.slip.any idleCells
  if !rxOk s g l then s
  else if 4 ≤ x.slip.length ∧ !idle then
    let s1 := bumpN (bump s (Reg.FAB_LANE_CNT g l 5)) (Reg.FAB_LANE_CNT g l 7) (dataCells (x.slip.headD []))
    slipOldest (report s1 (Src.fabForcedSlip g) (locSlice 1 (20 + g)) l) g l { x with slip := x.slip.drop 1 }
  else if 3 ≤ x.slip.length ∧ idle then slipOldest (bump s (Reg.FAB_LANE_CNT g l 3)) g l { x with slip := dropIdle x.slip }
  else if x.slip.length + b2n part ≤ 1 ∧ x.lastRead ≠ [] ∧ idleCells x.lastRead then slipGive (bump s (Reg.FAB_LANE_CNT g l 4)) g l x x.lastRead
  else if x.slip = [] ∧ !part then (if x.lastRead = [] then s else slipGive (bump s (Reg.FAB_LANE_CNT g l 6)) g l x x.lastRead)
  else slipOldest s g l x

/-- The command whose effect is `slipRead`; group 8 stands for the Gallery lanes (R339). -/
def execSlipRead (g : Fin 9) (w : SlipAt) (s : State) : Out :=
  match w with
  | ⟨l, part⟩ => .next (if g = 8 then galSlipRead l part s else slipRead g l part s)

/-! ## Defects -/

/-- Is a defect's state held for now (R283): LOF, LOM, TIM and AIS under LOS, LOM and TIM under LOF, and all while the lane's checker acts (R579)? -/
def defectHeld (s : State) (g l d : Nat) : Bool :=
  fabTest s g l chkSet || (defect s g l 0 && (d == 1 || d == 2 || d == 3 || d == 5)) || (defect s g l 1 && (d == 2 || d == 3))

/-- Does the condition of defect d hold on a lane, as far as the lane shows it (Table 10-8)? LOS is a condition of the wire. -/
def defectCond (s : State) (g l d : Nat) : Bool :=
  let x := rxLane s g l
  let n := max 1 (getF s (Reg.FAB_DEF_TIME_SET d))
  match d with
  | 0 => true
  | 1 => !x.inFrame
  | 2 => !x.inMf
  | 3 => x.timBad && decide (n ≤ x.timRun)
  | 4 => x.rdi
  | 5 => x.ais
  | _ => x.degBad && decide (n ≤ x.degRun)

/-- Is the condition of defect d absent, long enough for those that the model counts? -/
def defectGone (s : State) (g l d : Nat) : Bool :=
  let x := rxLane s g l
  let n := max 1 (getF s (Reg.FAB_DEF_TIME_CLEAR d))
  match d with
  | 0 => true
  | 3 => !x.timBad && decide (n ≤ x.timRun)
  | 6 => !x.degBad && decide (n ≤ x.degRun)
  | _ => !defectCond s g l d

/-- Has any lane of group g a SEEN bit (R283)? -/
def groupSeen (s : State) (g : Nat) : Bool := (List.range 28).any (fun l => getF s (Reg.FAB_LANE_STAT_SEEN g l) != 0)

/-- Is any defect declared in group g? -/
def groupDefect (s : State) (g : Nat) : Bool := (List.range 28).any (fun l => getF s (Reg.FAB_LANE_STAT_DEFECT g l) != 0)

/-- A defect was declared on lane l of group g: the cause of FAB_LANE_DEF is present (Table 20-2), and it is reported when the group's SEEN bits were all clear (R283). -/
def laneDef (s : State) (g l : Nat) (first : Bool) : State :=
  let src := Src.fabLaneDef g
  let loc := locSlice 1 (20 + g)
  let s1 := { s with flt := { s.flt with cause := mset s.flt.cause src (some (loc, l)) } }
  if first then report s1 src loc l else s1

/-- DEFECT_DECLARE (R283): the condition of defect d has held for SET without a break. -/
def defectDeclare (g : Nat) (l : Fin 28) (d : Fin 7) (s : State) : State :=
  if !laneHears s g l || defect s g l d || defectHeld s g l d || !defectCond s g l d then s
  else
    let s1 := setF s (Reg.FAB_LANE_STAT_DEFECT g l) (getF s (Reg.FAB_LANE_STAT_DEFECT g l) + 2 ^ d.val)
    let s2 := setF s1 (Reg.FAB_LANE_STAT_SEEN g l) (Nat.lor (getF s1 (Reg.FAB_LANE_STAT_SEEN g l)) (2 ^ d.val))
    let s3 := if d = 4 ∨ d = 6 then s2 else pmDefect s2 (flk g l)
    fabFollowGroup s (laneDef s3 g l (!groupSeen s g)) g

/-- The command whose effect is `defectDeclare`; group 8 stands for the Gallery lanes (R339). -/
def execDefectDeclare (g : Fin 9) (l : Fin 28) (d : Fin 7) (s : State) : Out := .next (if g = 8 then galDeclare l d s else defectDeclare g l d s)

/-- DEFECT_CLEAR (R283): the condition of defect d has been absent for CLEAR without a break. -/
def defectClear (g : Nat) (l : Fin 28) (d : Fin 7) (s : State) : State :=
  if !laneHears s g l || !defect s g l d || defectHeld s g l d || !defectGone s g l d then s
  else
    let s1 := setF s (Reg.FAB_LANE_STAT_DEFECT g l) (getF s (Reg.FAB_LANE_STAT_DEFECT g l) - 2 ^ d.val)
    fabFollowGroup s (if groupDefect s1 g then s1 else levelOff s1 (Src.fabLaneDef g)) g

/-- The command whose effect is `defectClear`; group 8 stands for the Gallery lanes (R339). -/
def execDefectClear (g : Fin 9) (l : Fin 28) (d : Fin 7) (s : State) : Out := .next (if g = 8 then galClear l d s else defectClear g l d s)

/-- DEG_INTERVAL (R283): an interval of DEG_INT_US ends on a lane, and its BIP-errored frames are held against DEG_TH. -/
def degInterval (g : Fin 8) (l : Fin 28) (s : State) : State :=
  let x := rxLane s g l
  let bad := decide (max 1 (getF s Reg.FAB_DEG_CFG_DEG_TH) ≤ x.degNow)
  putRx s g l { x with degNow := 0, degBad := bad, degRun := if bad = x.degBad then x.degRun + 1 else 1 }

/-- The command whose effect is `degInterval`. -/
def execDegInterval (g : Fin 8) (l : Fin 28) (s : State) : Out := .next (degInterval g l s)

/-! ## Protection commands -/

/-- The word of a host command and its plane (Table 10-15). -/
def protWord (cmd plane : Nat) : Nat := cmd + 16 * plane

/-- Does a write of FAB_PROT_CTL name a command and a plane that it may (R286, Table 10-15)? -/
def protOk (s : State) (v : Nat) : Bool :=
  let c := v % 16
  let p := v / 16 % 16
  c == 1 || c == 12 || c == 15 || ((c == 4 || c == 10) && decide (p < 8) && p != spareOf s)

/-- A host command replaces the standing host request; CLEAR ends it (R286). -/
def protCtl (v : Nat) (s : State) : State :=
  let c := v % 16
  let r : Option SwReq := if c = 1 then none else if c = 12 ∨ c = 15 then some (c, 15) else some (c, v / 16 % 16)
  wtrFollow s { s with fab := { s.fab with hostReq := r } }

/-- A write of FAB_PROT_CTL, which the pair mirrors. -/
def protWrite (v : Nat) (s : State) : State := operMirrored s Reg.FAB_PROT_CTL v (protOk s v) (protCtl v)

/-- PROT_CLEAR (R286): the CLEAR command ends the standing host request. -/
def protClear (s : State) : State := protWrite (protWord 1 0) s

/-- The command whose effect is `protClear`. -/
def execProtClear (s : State) : Out := .next (protClear s)

/-- PROT_MANUAL_SWITCH (R286): manual switch of a plane. -/
def protManualSwitch (plane : Fin 16) (s : State) : State := protWrite (protWord 4 plane) s

/-- The command whose effect is `protManualSwitch`. -/
def execProtManualSwitch (plane : Fin 16) (s : State) : Out := .next (protManualSwitch plane s)

/-- PROT_FORCED_SWITCH (R286): forced switch of a plane. -/
def protForcedSwitch (plane : Fin 16) (s : State) : State := protWrite (protWord 10 plane) s

/-- The command whose effect is `protForcedSwitch`. -/
def execProtForcedSwitch (plane : Fin 16) (s : State) : Out := .next (protForcedSwitch plane s)

/-- PROT_LOCKOUT (R286): lockout of protection. -/
def protLockout (s : State) : State := protWrite (protWord 12 0) s

/-- The command whose effect is `protLockout`. -/
def execProtLockout (s : State) : Out := .next (protLockout s)

/-- PROT_TEST (R286): the test request, without effect on the spray set. -/
def protTest (s : State) : State := protWrite (protWord 15 0) s

/-- The command whose effect is `protTest`. -/
def execProtTest (s : State) : Out := .next (protTest s)

/-- WTR_EXPIRE (R287): the wait-to-restore time ends. -/
def wtrExpire (s : State) : State := setWtr s none

/-- The command whose effect is `wtrExpire`. -/
def execWtrExpire (s : State) : Out := .next (wtrExpire s)

end Sys2Proof.Machine
end

