-- ==== Sys2Proof/Machine/FabCell.lean ====
section
/-! DEFINITION. Received cells (chapter 10): their checks (R269, R270, R296), request and credit entries (R232, R233), CONTROL cells (R499), reordering (R280, R281), and
reassembly into buffers with local replication (R199, R200, R229, R282). -/

namespace Sys2Proof.Machine

/-- The header and payload of a received cell (Table 10-4), and its LEN. -/
def cellOf (b : Bytes) : Cell × Nat :=
  let v := beAt b 0 16
  let n := bits v 59 8
  ({ typ := bits v 125 3, src := bits v 108 16, dst := bits v 92 16, cls := bits v 89 3, seq := bits v 69 20, first := bit v 68, last := bit v 67, data := slice b 16 (min 240 n) }, n)

/-- The first check of Table 10-10 that a cell fails, if it fails one: CRC_BAD, TYPE_BAD, UNKNOWN_DST or LEN_BAD. -/
def cellBad (s : State) (b : Bytes) : Option Nat :=
  let (c, n) := cellOf b
  if crc16 (b.take 14 ++ b.drop 16) ≠ beAt b 14 2 then some 0
  else if 5 ≤ c.typ ∨ (c.typ ≠ 1 ∧ (c.cls ≠ 0 ∨ !c.first ∨ !c.last)) then some 1
  else if c.typ ≠ 0 ∧ nodeOf s c.dst ≠ getF s Reg.FAB_NODE_ID then some 2
  else if 240 < n ∨ (c.typ = 1 ∧ n = 0) ∨ ((c.typ = 2 ∨ c.typ = 3) ∧ n % 8 ≠ 0) then some 3
  else none

/-- A cell is discarded for violation k. -/
def discard (s : State) (g k : Nat) : State := perf (partnerBad s g k) (60 + g) 7

/-! ## Entries and CONTROL cells -/

/-- The entries of a REQUEST or CREDIT cell with VALID = 1 (Table 10-6). -/
def cellEntries (b : Bytes) : List CrEnt :=
  ((List.range (b.length / 8)).map (fun i => beAt b (8 * i) 8)).filterMap (fun v =>
    if bit v 40 then some { node := 0, port := bits v 48 16, cls := bits v 45 3, count := bits v 41 4 } else none)

/-- A request entry of node `src` (R232): it adds to the credits requested, or is a violation REQ_BAD. -/
def requestEntry (g src : Nat) (s : State) (e : CrEnt) : State :=
  if nodeOf s e.port ≠ getF s Reg.FAB_NODE_ID ∨ !tabValid s Tab.eqmap e.port ∨ e.count = 0 then partnerBad s g 10
  else
    let k := creqKey e.port e.cls src
    { s with qd := { s.qd with creq := mput 0 s.qd.creq k (mget 0 s.qd.creq k + e.count) } }

/-- A credit entry: its credits arrive one by one (R233). DEDUCED: its PORT is the granting system port (Table 10-6), which belongs to the sender's node, so that R270's check against
the node in DST is made of REQUEST entries alone. -/
def creditEntry (g : Nat) (s : State) (e : CrEnt) : State := (List.range e.count).foldl (fun a _ => creditArrive g e.port e.cls a) s

/-- A CONTROL cell goes to PF0 (R499), up to 1,000 in a second (Table 10-10). -/
def controlCell (s : State) (g : Nat) (c : Cell) (payload : Bytes) : State :=
  let y := thisSecond s s.fab.ctrlSec
  if 1000 ≤ y.2 then partnerBad s g 15
  else
    let blk : Block := { reason := 0xF5, noMeta := true, node := c.src }
    let x : HostFrame := { noMeta := true, reason := 0xF5, block := blk.bytes, bytes := fit 240 payload }
    { s with fab := { s.fab with ctrlSec := (y.1, y.2 + 1) }, hif := { s.hif with queue := s.hif.queue ++ [x] } }

/-! ## Local replication -/

/-- Did the action that named a group make its frame a flood (R199)? DEDUCED: a frame is one when a VRF entry names its group as FLOOD_GRP, since the frame header has no field for it. -/
def isFlood (s : State) (g : Nat) : Bool := (tabListed s Tab.vrf).any (fun e => bits e.2 63 16 == g)

/-- The next hops of the local list that give a copy of a frame from fabric, in list order (R199). -/
def localCopies (s : State) (h : Hdr) : List Nat × State :=
  let v := tabRead s Tab.mcGrp h.group
  let l := groupList s (bits v 41 20) (bits v 61 11)
  let flood := isFlood s h.group
  let skip (i : Nat) : Bool := flood && bits (tabGet s Tab.nh i) 10 16 == h.srcSys
  (l.filter (fun i => tabValid s Tab.nh i && !skip i), bumpN s (Reg.BUF_CNT 10) (countIf (fun i => !tabValid s Tab.nh i) l))

/-- The edit entry by which EQMAP may select a subscriber queue (R229). -/
def hdrEdit (h : Hdr) : Option Nat := if h.editV then some h.editIdx else none

/-- A frame or native copy from fabric for a local system port is admitted: its buffer, its queue and its mark (R191, R229, R282). -/
def admitFab (s : State) (g port : Nat) (h : Hdr) (size : Nat) : Option (Nat × Nat × Bool) × State :=
  match egressQueue s port h (hdrEdit h) with
  | none => (none, bump s (Reg.SCH_CNT 1))
  | some q =>
    let x : Buf := { hdr := h, data := [], req := 20 + g, inPort := 255, dram := false, k := 0, charge := 0, q := 0, sysPort := port, size := size }
    let (r, s1) := takeIn s q x size false []
    (r.map (fun e => (e.1, q, e.2)), s1)

/-- The native copies of a frame from fabric (R199). -/
def admitCopies (g : Nat) (h : Hdr) (size : Nat) : List Nat → State → List (Nat × Nat × Bool) × State
  | [], s => ([], s)
  | i :: r, s =>
    let (t, s1) := admitFab (perf (bump s (Reg.BUF_CNT 14)) 80 5) g (nhPort s i) (copyHdr s h (some i)) size
    let (l, s2) := admitCopies g h size r s1
    ((match t with | some x => [x] | none => []) ++ l, s2)

/-- The targets of a shared copy from fabric (R200). -/
def sharedTargets (h : Hdr) : List Nat → State → List (Nat × Option Nat) × State
  | [], s => ([], s)
  | i :: r, s =>
    match egressQueue s (nhPort s i) h (hdrEdit (copyHdr s h (some i))) with
    | none => sharedTargets h r (bump s (Reg.SCH_CNT 1))
    | some q => let (l, s1) := sharedTargets h r s; ((q, some i) :: l, s1)

/-! ## Reassembly -/

/-- The key of a line of a buffer. -/
def lineKey (h i : Nat) : Nat := h * 512 + i

/-- Bytes reach line i of a buffer in DRAM (R306): the line opens, grows, or, when it is written before it was complete, comes back for a read-modify-write. With MERGE_NS = 0 no line is
held open (Table 11-7). -/
def lineGrow (di h i : Nat) (complete : Bool) (have_ : Nat) (s : State) : State :=
  let l := mget [] s.drm.wq di
  let hold := !complete && getF s Reg.DRC_WQ_CFG_MERGE_NS != 0
  let mine (x : WLine) : Bool := x.buf == h && x.line == i
  let s1 := bumpIf (!complete && !hold) s (Reg.DRC_DI_CNT di 14)
  if l.any (fun x => mine x && x.opened) then
    wqPut s1 di (l.map (fun x => if mine x && x.opened then { x with opened := hold, have_ := have_ } else x))
  else wqPut s1 di (l ++ [{ buf := h, line := i, opened := hold, rmw := l.any mine || (mfind s.drm.store (lineKey h i)).isSome, have_ := have_ }])

/-- Bytes `a` to `b` of `total`, header included, are written into a buffer. -/
def bufGrow (data : Bytes) (a b total : Nat) (s : State) (h : Nat) : State :=
  match mfind s.qd.bufs h with
  | none => s
  | some x =>
    let s1 := { s with qd := { s.qd with bufs := mset s.qd.bufs h (some { x with data := data }) } }
    if x.dram && (diServes s x.di || getF s (Reg.DRC_DI_STAT_STATE x.di) == 5) then
      (upFrom (a / 64) (ceilDiv b 64 - a / 64)).foldl (fun t i => lineGrow x.di h i (decide (64 * (i + 1) ≤ b) || b == total) (min 64 (b - 64 * i)) t) s1
    else s1

/-- The open frame of a context is dropped, and its buffers are released. -/
def dropOpen (s : State) (o : Option Reas) : State :=
  match o with
  | some r => r.targets.foldl (fun a t => releaseBuf a t.1) s
  | none => s

/-- Is the frame of a header stored once for all its targets (R200)? -/
def hdrShared (s : State) (h : Hdr) : Bool := h.group != 0xFFFF && groupShared s h.group

/-- A FIRST cell opens a shared-copy frame: its congestion checks and its charge, by the group's entry as it is now (R197, R200, R282). -/
def openShared (s : State) (g : Nat) (h : Hdr) (size : Nat) : Option Reas × State :=
  let (l, s1) := localCopies s h
  let (ts, s2) := sharedTargets h l s1
  let x : Buf := { hdr := h, data := [], req := 20 + g, inPort := 255, dram := false, k := 0, charge := 0, q := 0, size := size }
  match sharedAdmit s2 x size ts with
  | (some b, w, s3) => (some { hdr := h, size := size, got := [], cells := 0, bad := false, grp := g, targets := [(b, 0, false)], shared := some w }, s3)
  | (none, _, s3) => (none, s3)

/-- A FIRST cell opens a frame: its header, and what is admitted (R199, R282). -/
def openFrame (s : State) (g : Nat) (c : Cell) : Option Reas × State :=
  let (h, size) := hdrOf c.data
  if hdrShared s h then openShared s g h size else
  let (ts, s1) : List (Nat × Nat × Bool) × State :=
    if h.group = 0xFFFF then (let (t, a) := admitFab s g c.dst h size; (t.toList, a))
    else (let (l, a) := localCopies s h; admitCopies g h size l a)
  if ts = [] then (none, s1)
  else (some { hdr := h, size := size, got := [], cells := 0, bad := false, grp := g, targets := ts }, s1)

/-- A whole frame is enqueued (R282), for a shared copy on every queue that accepted it at its first cell (R200). -/
def closeFrame (s : State) (r : Reas) : State :=
  match r.shared with
  | some w => r.targets.foldl (fun a t => sharedWhole a t.1 w) s
  | none => r.targets.foldl (fun a t => enqueueWhole a t.2.1 { buf := t.1 } t.2.2) s

/-- A cell of an open frame (R282): the frame grows, is complete, or contradicts its header. -/
def growFrame (s : State) (g : Nat) (r : Reas) (c : Cell) : Option Reas × State :=
  let got := r.got ++ c.data
  let total := r.size + 16
  let y := { r with got := got, cells := r.cells + 1, bad := r.bad || (!c.last && c.data.length != 240) }
  let n := ceilDiv total 240
  if c.last then
    if !y.bad && y.cells == n && got.length == total then
      (none, closeFrame (r.targets.foldl (fun a t => bufGrow (got.drop 16) r.got.length got.length total a t.1) s) y)
    else (none, partnerBad (dropOpen s (some y)) g 4)
  else if n ≤ y.cells ∨ y.bad then (none, partnerBad (dropOpen s (some y)) g 4)
  else (some y, r.targets.foldl (fun a t => bufGrow (got.drop 16) r.got.length got.length total a t.1) s)

/-- Reassembly takes the next cell of a context in order (R282). Cells of a frame that was refused or dropped are discarded. -/
def reassemble (s : State) (o : Option Reas) (c : Cell) (g : Nat) : Option Reas × State :=
  if c.first then
    let s1 := if o.isSome then partnerBad (dropOpen s o) g 4 else s
    match openFrame s1 g c with
    | (some r, s2) => growFrame s2 g r c
    | (none, s2) => (none, s2)
  else match o with
    | some r => growFrame s g r c
    | none => (none, s)

/-! ## Reordering -/

/-- The key of a context (R280). -/
def ctxKey (src dst cls : Nat) : Nat := (src * 65536 + dst) * 8 + cls

/-- Stores or frees a context; IN_USE follows. -/
def ctxPut (s : State) (k : Nat) (x : Option Ctx) : State :=
  let m := mset s.fab.ctx k x
  setF { s with fab := { s.fab with ctx := m } } Reg.FAB_REORD_STAT_IN_USE m.length

/-- The cell with the expected number and every consecutive held cell are delivered (R280). -/
def deliverRun : Nat → State → Ctx → Nat → Cell → Nat → Ctx × State
  | 0, s, x, _, _, _ => (x, s)
  | n + 1, s, x, e, c, g =>
    let (o, s1) := reassemble s x.opened c g
    let e1 := (e + 1) % 2 ^ 20
    let y := { x with opened := o, exp := some e1 }
    match mfind y.held e1 with
    | some (c2, g2) => deliverRun n s1 { y with held := merase y.held e1 } e1 c2 g2
    | none => (y, s1)

/-- A DATA cell in a context that expects `e` (R280). -/
def ctxCell (s : State) (k : Nat) (x : Ctx) (e g : Nat) (c : Cell) : State :=
  let d := (c.seq + 2 ^ 20 - e) % 2 ^ 20
  if d = 0 then
    let (y, s1) := deliverRun (x.held.length + 1) s x e c g
    ctxPut s1 k (some y)
  else if d < clamp 256 65536 (getF s Reg.FAB_REORD_CFG_WINDOW) then
    ctxPut s k (some { x with held := mset x.held c.seq (some (c, g)) })
  else if d < 2 ^ 19 then discard (ctxPut s k (some x)) g 5
  else discard (ctxPut s k (some x)) g 6

/-- A DATA cell (R280): its context is found or created. -/
def dataCell (s : State) (g : Nat) (c : Cell) : State :=
  let k := ctxKey c.src c.dst c.cls
  let old := mfind s.fab.ctx k
  if old.isNone && decide (131072 ≤ s.fab.ctx.length) then discard s g 11
  else
    let x := { old.getD {} with last := s.tick }
    match x.exp with
    | some e => ctxCell s k x e g c
    | none => if c.first then ctxCell s k x c.seq g c else discard (ctxPut s k (some x)) g 7

/-- CELL_RECEIVE (R269, R270, R280, R296): the cell engine takes the oldest cell that a lane's slip buffer gave. -/
def cellReceive (g : Fin 8) (l : Fin 28) (s : State) : State :=
  let k := flk g l
  match mget [] s.fab.cells k with
  | [] => s
  | b :: r =>
    let s1 := perf { s with fab := { s.fab with cells := mput [] s.fab.cells k r } } (60 + g.val) 2
    let (drop, s1) := relockDiscards s1 1
    if drop then s1 else
    match cellBad s1 b with
    | some j => discard s1 g j
    | none =>
      let c := (cellOf b).1
      match c.typ with
      | 1 => dataCell (perf s1 (60 + g.val) 3) g c
      | 2 => (cellEntries c.data).foldl (requestEntry g c.src) s1
      | 3 => (cellEntries c.data).foldl (creditEntry g) s1
      | 4 => controlCell s1 g c (b.drop 16)
      | _ => s1

/-- The command whose effect is `cellReceive`. -/
def execCellReceive (g : Fin 8) (l : Fin 28) (s : State) : Out := .next (cellReceive g l s)

/-- The held cell that follows the expected number most closely. -/
def oldestHeld (x : Ctx) (e : Nat) : Option (Nat × Cell × Nat) :=
  x.held.foldl (fun o h => match o with
    | some b => if (h.1 + 2 ^ 20 - e) % 2 ^ 20 < (b.1 + 2 ^ 20 - e) % 2 ^ 20 then some h else o
    | none => some h) none

/-- HOLE_TIMEOUT (R281): a context has waited TIMEOUT_US for its expected cell. Cells missing before the oldest held one are lost, and the open frame is dropped; with nothing held the
context enters RESYNC. -/
def holeTimeout (src dst : Fin 65536) (cls : Fin 8) (s : State) : State :=
  let k := ctxKey src dst cls
  match mfind s.fab.ctx k with
  | none => s
  | some x =>
    match x.exp with
    | none => s
    | some e =>
      let s1 := dropOpen s x.opened
      let y := { x with opened := none }
      match oldestHeld y e with
      | none => ctxPut s1 k (some { y with exp := none })
      | some (n, c, g) =>
        let s2 := (List.range ((n + 2 ^ 20 - e) % 2 ^ 20)).foldl (fun a _ => partnerBad a g 7) s1
        let (z, s3) := deliverRun y.held.length s2 { y with held := merase y.held n } n c g
        ctxPut s3 k (some z)

/-- The command whose effect is `holeTimeout`. -/
def execHoleTimeout (src dst : Fin 65536) (cls : Fin 8) (s : State) : Out := .next (holeTimeout src dst cls s)

/-- CONTEXT_FREE (R280): a context that has held and received nothing for 1 s is freed, and with it the buffer of a frame that it had begun. -/
def contextFree (src dst : Fin 65536) (cls : Fin 8) (s : State) : State :=
  let k := ctxKey src dst cls
  match mfind s.fab.ctx k with
  | none => s
  | some x => if x.held = [] ∧ !withinUs s x.last 1000000 then ctxPut (dropOpen s x.opened) k none else s

/-- The command whose effect is `contextFree`. -/
def execContextFree (src dst : Fin 65536) (cls : Fin 8) (s : State) : Out := .next (contextFree src dst cls s)

end Sys2Proof.Machine
end

