-- ==== Sys2Proof/Machine/FabPm.lean ====
section
/-! DEFINITION. Performance monitoring of the fabric (R293 to R295): errored, severely errored and unavailable seconds of every lane and group, in bins of 15 minutes
and 24 hours. -/

namespace Sys2Proof.Machine

/-- The PM register of item m in bin b of an entity: lane l of group g has key 28g + l, group g key 224 + g. -/
def pmReg (k b m : Nat) : Nat := if k < 224 then Reg.FAB_PM_LANE (k / 28) (k % 28) b m else Reg.FAB_PM_GRP (k - 224) b m

/-- The seconds of item m in bin b of an entity, and its flags (Table 10-20). -/
def pmSecs (k b m : Nat) : Fld := ⟨pmReg k b m, 0, 17⟩
def pmSuspect (k b : Nat) : Fld := ⟨pmReg k b 3, 0, 1⟩
def pmAdj (k b : Nat) : Fld := ⟨pmReg k b 3, 1, 1⟩
def pmUnavail (k b : Nat) : Fld := ⟨pmReg k b 3, 2, 1⟩

/-- The lengths of the bins: 15 minutes in bins 0 and 1, 24 hours in 2 and 3. -/
def binLens : List (Nat × Nat) := [(900, 0), (86400, 2)]

/-- One second more or less of item m, in the bins in which PTP second `sec` fell, as PTP second `now` is the last one evaluated (R294, R295). A change of the previous bin sets ADJ. -/
def pmCount (k now sec m : Nat) (up : Bool) (s : State) : State :=
  let chg (b : Nat) (t : State) : State := setF t (pmSecs k b m) (if up then getF t (pmSecs k b m) + 1 else getF t (pmSecs k b m) - 1)
  binLens.foldl (fun t x =>
    if sec / x.1 = now / x.1 then chg x.2 t
    else if sec / x.1 + 1 = now / x.1 then setB (chg (x.2 + 1) t) (pmAdj k (x.2 + 1)) true
    else t) s

/-- Removes or adds the ES and SES of some seconds. -/
def pmClasses (k now : Nat) (up : Bool) (l : List (Nat × Nat)) (s : State) : State :=
  l.foldl (fun t x => if x.1 = 0 then t else pmCount k now x.2 (x.1 - 1) up t) s

/-- Adds seconds to UAS, or removes them. -/
def pmUas (k now : Nat) (up : Bool) (l : List (Nat × Nat)) (s : State) : State := l.foldl (fun t x => pmCount k now x.2 2 up t) s

/-- Shows whether an entity is unavailable. -/
def pmShow (k : Nat) (u : Bool) (s : State) : State := setB (setB s (pmUnavail k 0) u) (pmUnavail k 2) u

/-- PTP second `now` of an entity has class `c`: 0 good, 1 ES, 2 SES (R294). -/
def pmTake (k now c : Nat) (s : State) : State :=
  let x := mget {} s.fab.pm k
  let h := (c, now) :: x.hist.take 9
  let full := h.length == 10
  let begins := !x.unavail && full && h.all (fun e => e.1 == 2)
  let ends := x.unavail && full && h.all (fun e => e.1 != 2)
  let u := begins || (x.unavail && !ends)
  let s1 := { s with fab := { s.fab with pm := mput {} s.fab.pm k { x with bip := 0, frames := 0, hist := h, unavail := u } } }
  if begins then pmShow k true (pmUas k now true h (pmClasses k now false (h.drop 1) s1))
  else if ends then pmShow k false (pmClasses k now true h (pmUas k now false (h.drop 1) s1))
  else if x.unavail then pmUas k now true [(c, now)] s1
  else pmClasses k now true [(c, now)] s1

/-- Are the BIP-errored frames at least SES_TH per mille of the frames (R293)? DEDUCED: a second without one is not severely errored. -/
def pmSevere (s : State) (x : PmSt) : Bool :=
  x.defect || (decide (0 < x.bip) && decide (clamp 1 1000 (getF s Reg.FAB_PM_CFG_SES_TH) * x.frames ≤ x.bip * 1000))

/-- The class of the running second of a lane; none while its checker acts (R579). -/
def laneClass (s : State) (k : Nat) : Nat :=
  let x := mget {} s.fab.pm k
  if fabTest s (k / 28) (k % 28) chkSet then 0 else if pmSevere s x then 2 else b2n (decide (0 < x.bip))

/-- The class of the running second of a group: ES when any of its RX_OK lanes had an ES or SES. -/
def grpClass (s : State) (g : Nat) : Nat :=
  if pmSevere s (mget {} s.fab.pm (224 + g)) then 2 else b2n ((rxOkLanes s g).any (fun l => laneClass s (flk g l) != 0))

/-- The defect of a running second begins as what is declared now. -/
def pmRestart (s : State) : State :=
  let lane (k : Nat) : Bool := [0, 1, 2, 3, 5].any (defect s (k / 28) (k % 28))
  let set_ (k : Nat) (d : Bool) (m : NMap PmSt) : NMap PmSt := mput {} m k { mget {} m k with defect := d }
  let m1 := (List.range 224).foldl (fun m k => set_ k (lane k) m) s.fab.pm
  let m2 := (List.range 8).foldl (fun m g => set_ (224 + g) (groupSf s g) m) m1
  { s with fab := { s.fab with pm := m2 } }

/-- The current bin of a length becomes the previous one (R295); it is suspect when it held a second more or less than one short of or over its length. -/
def pmRoll (len b n : Nat) (s : State) : State :=
  let odd := decide (n + 1 < len) || decide (len + 1 < n)
  (List.range 232).foldl (fun t k =>
    let u := flag t (pmUnavail k b)
    let t1 := [0, 1, 2, 3].foldl (fun a m => wr (wr a (pmReg k (b + 1) m) (rd a (pmReg k b m))) (pmReg k b m) 0) t
    let t2 := setB (setB t1 (pmUnavail k (b + 1)) false) (pmUnavail k b) u
    if odd then setB t2 (pmSuspect k (b + 1)) true else t2) s

/-- Bins that end between PTP seconds `a` and `b` roll. -/
def pmRolls (a b : Nat) (s : State) : State :=
  let (m, d) := s.fab.pmLen
  let s1 := if a / 900 = b / 900 then s else (let t := pmRoll 900 0 m s; { t with fab := { t.fab with pmLen := (0, d) } })
  if a / 86400 = b / 86400 then s1 else (let t := pmRoll 86400 2 d s1; { t with fab := { t.fab with pmLen := (t.fab.pmLen.1, 0) } })

/-- The running bins of every entity are suspect (R295). -/
def pmSuspectAll (s : State) : State :=
  (List.range 232).foldl (fun t k => setB (setB t (pmSuspect k 0) true) (pmSuspect k 2) true) s

/-- The PTP clock was stepped: both the bins left and those entered are suspect, and the running second begins afresh (R295). -/
def pmStepped (s : State) : State :=
  let s1 := pmSuspectAll (pmRolls s.fab.pmSec s.ptp.sec (pmSuspectAll s))
  let m := s1.fab.pm.map (fun e => (e.1, { e.2 with bip := 0, frames := 0 }))
  { s1 with fab := { s1.fab with pmSec := s.ptp.sec, pm := m.filter (fun e => e.2 != {}) } }

/-- PM_SECOND (R293 to R295): the PTP second before the present one is evaluated, and bins end at their boundaries. -/
def pmSecond (s : State) : State :=
  let now := s.ptp.sec
  if now ≤ s.fab.pmSec then s
  else
    let s := pmRolls s.fab.pmSec (now - 1) s
    let gs := (List.range 8).map (fun g => (224 + g, grpClass s g))
    let ls := (List.range 224).map (fun k => (k, laneClass s k))
    let s1 := (ls ++ gs).foldl (fun t e => pmTake e.1 (now - 1) e.2 t) s
    let s2 := { s1 with fab := { s1.fab with pmSec := now, pmLen := (s1.fab.pmLen.1 + 1, s1.fab.pmLen.2 + 1) } }
    pmRestart (pmRolls (now - 1) now s2)

/-- The command whose effect is `pmSecond`. -/
def execPmSecond (s : State) : Out := .next (pmSecond s)

end Sys2Proof.Machine
end

