-- ==== Sys2Proof/Machine/Host.lean ====
section
/-! DEFINITION. The host interface (chapter 18): doorbells and rings (R486 to R491), command fetch (R488 to R490), MSI-X (R483), resets of functions (R484, R468), frames to
and from the host (R495 to R499), the table window (R482), the posted-write failure log (R503), grants (R501) and the PCIe link (R479). -/

namespace Sys2Proof.Machine

/-! ## Rings -/

/-- Is r a ring on which the host produces (Table 18-3)? -/
def hostToDev (r : Nat) : Bool := decide (r ≤ 16) || (decide (27 ≤ r) && decide (r ≤ 34))

/-- Offset `o` of a function's ring page in the function's own BAR0 (R481, R505). -/
def pageOff (f o : Nat) : Nat := if f = 0 then 0x0680000 + o else o

/-- The offset of ring r's register at `o` in the function's own BAR0. -/
def ringOff (f r o : Nat) : Nat := pageOff f (0x20 * r + o)

/-- A write by function f at offset `addr` of its BAR0 that fails with a cause of Table 18-12; BAR0 answers from LOAD onwards. -/
def hostFail (s : State) (f addr v : Nat) (c : PwfCause) : State := if powered s then pwfD s f 0 addr v c 0 else s

/-- A write of a register of ring r by function f: nothing of a disabled function arrives, and a ring that the function lacks has no address (R485). -/
def ringWrite (s : State) (f r o v : Nat) (act : State → State) : State :=
  if !flag s (Reg.HIF_FN_STAT_ENABLED f) then s
  else if !ringExists f r then hostFail s f (ringOff f r o) v .unassigned
  else if operOpen s then act s
  else hostFail s f (ringOff f r o) v .target

/-- A ring stops on a bad doorbell or a failed read (R486): STOPPED, ERR_CAUSE, RING_ERROR and the report. -/
def ringStop (s : State) (f r cause index : Nat) : State :=
  let s1 := abandonRing (setF (setB s (Reg.HIF_RING_STAT_STOPPED f r) true) (Reg.HIF_RING_STAT_ERR_CAUSE f r) cause) f r
  report (hostEvent s1 f 5 ([byteOf r, byteOf cause, 0, 0] ++ leBytes 4 index)) Src.ringStop (locSlice 0 63) 0

/-- PROD and CONS of a ring. -/
def ringProd (s : State) (f r : Nat) : Nat := getF s (Reg.HIF_RING_PROD_INDEX f r)
def ringCons (s : State) (f r : Nat) : Nat := getF s (Reg.HIF_RING_CONS_INDEX f r)

/-- The device has read the entry at CONS: CONS goes on and is written back (R486). -/
def entryRead (s : State) (f r : Nat) : State :=
  let i := (ringCons s f r + 1) % ringSize s f r
  setF (ringWb s f r i) (Reg.HIF_RING_CONS_INDEX f r) i

/-- Is ring r of function f enabled and not stopped, with its function's rings on? Doorbells of any other ring are without effect. -/
def doorOpen (s : State) (f r : Nat) (host : Bool) : Bool := hostToDev r == host && ringRuns s f r

/-- PROD_DOORBELL (R486): the host hands over the entries up to a new PROD. -/
def prodDoorbell (f r v : Nat) (s : State) : State :=
  ringWrite s f r 0xC v (fun s =>
    let x := v % 65536
    let n := ringSize s f r
    if !doorOpen s f r true then s
    else if n ≤ x then ringStop s f r 1 x
    else if ringRoom s f r < (x + n - ringProd s f r) % n then ringStop s f r 2 x
    else setF s (Reg.HIF_RING_PROD_INDEX f r) x)

/-- The command whose effect is `prodDoorbell`. -/
def execProdDoorbell (f : Fin 256) (r : Fin 44) (v : Nat) (s : State) : Out := .next (prodDoorbell f r v s)

/-- The host releases `k` entries of a device-to-host ring, and with them their records in a data area (R486, R497); completions that waited for room follow. -/
def ringRelease (s : State) (f r k : Nat) : State :=
  let key := ringKey f r
  let h := s.hif
  let s1 := { s with hif := { h with out := mput [] h.out key ((mget [] h.out key).drop k), extents := mput [] h.extents key ((mget [] h.extents key).drop k) } }
  if r = 17 then drainOwed f (mget [] s1.hif.owed f).length s1 else s1

/-- CONS_DOORBELL (R486): the host releases entries up to a new CONS. -/
def consDoorbell (f r v : Nat) (s : State) : State :=
  ringWrite s f r 0x10 v (fun s =>
    let x := v % 65536
    let n := ringSize s f r
    let step := (x + n - ringCons s f r) % n
    if !doorOpen s f r false then s
    else if n ≤ x then ringStop s f r 1 x
    else if (ringProd s f r + n - ringCons s f r) % n < step then ringStop s f r 2 x
    else ringRelease (setF s (Reg.HIF_RING_CONS_INDEX f r) x) f r step)

/-- The command whose effect is `consDoorbell`. -/
def execConsDoorbell (f : Fin 256) (r : Fin 44) (v : Nat) (s : State) : Out := .next (consDoorbell f r v s)

/-- Everything that the device keeps of a ring beside its registers is given up. -/
def ringForget (s : State) (k : Nat) : State :=
  let h := s.hif
  let h1 := { h with out := merase h.out k, seq := merase h.seq k, opened := merase h.opened k, skip := merase h.skip k }
  { s with hif := { h1 with dataAt := merase h.dataAt k, extents := merase h.extents k, holdoff := merase h.holdoff k } }

/-- RING_FLUSHED (Table 18-7), and FLUSH_POINT. -/
def ringFlushed (s : State) (f r cause point ents cmds : Nat) : State :=
  hostEvent (setF s (Reg.HIF_RING_STAT_FLUSH_POINT f r) point) f 4 ([byteOf r, byteOf cause, 0, 0] ++ leBytes 4 point ++ leBytes 4 ents ++ leBytes 4 cmds)

/-- A command or TX ring is flushed up to its PROD (R491): the entries of an open command and those not taken are discarded. `cmds` is how many commands begin in the entries
that were not taken. -/
def ringFlush (s : State) (f r cause cmds : Nat) : State :=
  let k := ringKey f r
  let n := ringSize s f r
  let opened := mget [] s.hif.opened k
  let wait := (ringProd s f r + n - ringCons s f r) % n
  let (p, e, c) := (mfind s.hif.skip k).getD ((ringCons s f r + n - opened.length) % n, 0, 0)
  let s1 := if opened.isEmpty then s else landed s f
  let s2 := { s1 with hif := { s1.hif with opened := merase s1.hif.opened k, skip := merase s1.hif.skip k } }
  let s3 := setB (setF s2 (Reg.HIF_RING_CONS_INDEX f r) (ringProd s f r)) (Reg.HIF_RING_STAT_BUSY f r) false
  ringFlushed s3 f r cause p (opened.length + wait + e) (b2n (!opened.isEmpty) + min cmds wait + c)

/-- A ring is disabled (R491): a command or TX ring is flushed, and a device-to-host ring's unwritten entries are discarded and its dumps abandoned (R555). -/
def ringDown (s : State) (f r cause cmds : Nat) : State :=
  if !flag s (Reg.HIF_RING_CFG_EN f r) then s
  else if hostToDev r then setB (ringFlush s f r cause cmds) (Reg.HIF_RING_CFG_EN f r) false
  else
    let owed := if r = 17 then (mget [] s.hif.owed f).length else 0
    let s1 := (List.range owed).foldl (fun a _ => landed a f) s
    let s2 := if r = 17 then { s1 with hif := { s1.hif with owed := merase s1.hif.owed f } } else s1
    abandonRing (setB { s2 with hif := { s2.hif with holdoff := merase s2.hif.holdoff (ringKey f r) } } (Reg.HIF_RING_CFG_EN f r) false) f r

/-- A ring is enabled (R486, R487): its indices are 0, its next SEQ is 1, and it is not stopped. -/
def ringOn (s : State) (f r : Nat) : State :=
  let s1 := ringForget s (ringKey f r)
  let s2 := setF (setF s1 (Reg.HIF_RING_PROD_INDEX f r) 0) (Reg.HIF_RING_CONS_INDEX f r) 0
  setF (setB (setB s2 (Reg.HIF_RING_STAT_STOPPED f r) false) (Reg.HIF_RING_STAT_BUSY f r) false) (Reg.HIF_RING_STAT_ERR_CAUSE f r) 0

/-- The RW bits of HIF_RING_CFG. -/
def ringCfgRw : Nat := 0xFFF7FF7D

/-- A write of HIF_RING_CFG (R486, R491): SIZE_LOG2 is fixed while EN is 1; EN enables or disables the ring; FLUSH flushes a command or TX ring. -/
def ringCfg (f r w cmds : Nat) (s : State) : State :=
  ringWrite s f r 8 w (fun s =>
    let a := Reg.HIF_RING_CFG f r
    let was := flag s (Reg.HIF_RING_CFG_EN f r)
    if was && bits w 2 5 != getF s (Reg.HIF_RING_CFG_SIZE_LOG2 f r) then pwfD s f 0 (ringOff f r 8) w .target 0
    else if was && !bit w 0 then writeRw (ringDown s f r 1 cmds) a w ringCfgRw
    else
      let s1 := writeRw s a w ringCfgRw
      if !was && bit w 0 then ringOn s1 f r
      else if was && bit w 1 && hostToDev r then ringFlush s1 f r 0 cmds
      else s1)

/-- RING_ENABLE (R486): a write with EN = 1. -/
def ringEnable (f r v : Nat) (s : State) : State := ringCfg f r (Nat.lor v 1) 0 s

/-- The command whose effect is `ringEnable`. -/
def execRingEnable (f : Fin 256) (r : Fin 44) (v : Nat) (s : State) : Out := .next (ringEnable f r v s)

/-- RING_DISABLE (R491): a write with EN = 0. -/
def ringDisable (f r v cmds : Nat) (s : State) : State := ringCfg f r (Nat.land v 0xFFFFFFFE) cmds s

/-- The command whose effect is `ringDisable`. -/
def execRingDisable (f : Fin 256) (r : Fin 44) (v cmds : Nat) (s : State) : Out := .next (ringDisable f r v cmds s)

/-- FLUSH (R491): a write with FLUSH = 1. -/
def ringFlushCmd (f r v cmds : Nat) (s : State) : State := ringCfg f r (Nat.lor v 2) cmds s

/-- The command whose effect is `ringFlushCmd`. -/
def execFlush (f : Fin 256) (r : Fin 44) (v cmds : Nat) (s : State) : Out := .next (ringFlushCmd f r v cmds s)

/-! ## Commands -/

/-- INFLIGHT of a function as it acts (Table 18-17). -/
def inflightLimit (s : State) (f : Nat) : Nat := clamp 1 16384 (getF s (Reg.HIF_FN_CFG_INFLIGHT f))

/-- May a command of function f be fetched (R488)? -/
def mayFetch (s : State) (f : Nat) : Bool :=
  decide (getF s (Reg.HIF_FN_STAT_NOW f) < inflightLimit s f) && decide (getF s Reg.HIF_INFLIGHT_NOW < 16384)
    && ringRuns s f 17 && (mget [] s.hif.owed f).isEmpty && decide (4 ≤ ringRoom s f 17)

/-- Does ring r of function f have an entry to fetch, and is it not passed over? -/
def fetchable (s : State) (f r : Nat) : Bool :=
  ringRuns s f r && ringProd s f r != ringCons s f r && (!(mget [] s.hif.opened (ringKey f r)).isEmpty || mayFetch s f)

/-- The command rings that may be fetched from, by ascending key. -/
def fetchKeys (s : State) : List Nat :=
  (List.range 256).flatMap (fun f =>
    if !flag s (Reg.HIF_FN_STAT_ENABLED f) then []
    else ((List.range 17).filter (fun r => ringExists f r && fetchable s f r)).map (ringKey f))

/-- The ring whose turn it is: that of the command being fetched, else the next in the round robin of R488. -/
def fetchTurn (s : State) : Option Nat :=
  let l := fetchKeys s
  let k := s.hif.fetchAt
  if l.contains k && !(mget [] s.hif.opened k).isEmpty then some k
  else match l.find? (fun x => decide (k < x)) with
    | some x => some x
    | none => l.head?

/-- The command of its entries (Table 18-4). -/
def cmdOf (f r : Nat) (l : List Bytes) : HostCmd :=
  let b := l.headD []
  { fn := f, ring := r, opcode := byteAt b 1, tag := leAt b 2 2, table := byteAt b 4, sub := byteAt b 5, opnd := l.flatMap (fun e => slice e 8 56) }

/-- A command comes into flight (R488): NOW and PEAK (Table 18-15). -/
def launched (s : State) (f : Nat) : State :=
  let s1 := setPeak s Reg.HIF_INFLIGHT_NOW Reg.HIF_INFLIGHT_PEAK (getF s Reg.HIF_INFLIGHT_NOW + 1)
  setF s1 (Reg.HIF_FN_STAT_NOW f) (getF s1 (Reg.HIF_FN_STAT_NOW f) + 1)

/-- What the device keeps of the command that a ring has open. -/
def openPut (s : State) (f r : Nat) (l : List Bytes) : State :=
  setB { s with hif := { s.hif with opened := mput [] s.hif.opened (ringKey f r) l } } (Reg.HIF_RING_STAT_BUSY f r) (!l.isEmpty)

/-- An entry that goes on or begins a command joins it; END ends its fetch. -/
def entryJoin (s : State) (f r : Nat) (e : Bytes) : State :=
  let l := mget [] s.hif.opened (ringKey f r)
  let s1 := if l.isEmpty then launched { s with hif := { s.hif with fetchAt := ringKey f r } } f else s
  if bit (byteAt e 0) 1 then
    let s2 := openPut s1 f r []
    let s3 := { s2 with hif := { s2.hif with inFlight := s2.hif.inFlight ++ [cmdOf f r (l ++ [e])] } }
    refuseOpcodes s3 f r s3.hif.inFlight.length
  else openPut s1 f r (l ++ [e])

/-- An entry that continues no command is skipped (R490). -/
def entryOrphan (s : State) (k : Nat) (x : Nat × Nat × Nat) : State :=
  bump { s with hif := { s.hif with skip := mset s.hif.skip k (some (x.1, x.2.1 + 1, x.2.2)) } } (Reg.HIF_CNT 5)

/-- An open command is discarded whole (R490). -/
def openDrop (s : State) (f r : Nat) : State :=
  landed (openPut (bumpN s (Reg.HIF_CNT 6) (mget [] s.hif.opened (ringKey f r)).length) f r []) f

/-- An entry is taken at index `i` of a command ring (R489, R490). -/
def entryTake (s : State) (f r i : Nat) (e : Bytes) : State :=
  let k := ringKey f r
  let start := bit (byteAt e 0) 0
  let l := mget [] s.hif.opened k
  let first := (i + ringSize s f r - l.length) % ringSize s f r
  match mfind s.hif.skip k with
  | some x =>
    if start then entryJoin (ringFlushed { s with hif := { s.hif with skip := merase s.hif.skip k } } f r 2 x.1 x.2.1 x.2.2) f r e
    else entryOrphan s k x
  | none =>
    if l.isEmpty then (if start then entryJoin s f r e else entryOrphan s k (i, 0, 0))
    else if start then entryJoin (ringFlushed (openDrop s f r) f r 2 first l.length 1) f r e
    else if 4 ≤ l.length then entryOrphan (openDrop s f r) k (first, l.length, 1)
    else entryJoin s f r e

/-- COMMAND_FETCH (R488 to R490): the device reads the next entry of the ring whose turn it is; none is a DMA read that completed with an error. -/
def commandFetch (f r : Nat) (entry : Option Bytes) (s : State) : State :=
  if !operOpen s || fetchTurn s != some (ringKey f r) then s
  else
    let i := ringCons s f r
    match entry with
    | none => ringStop s f r 3 i
    | some e => entryTake (entryRead s f r) f r i (fit 64 e)

/-- The command whose effect is `commandFetch`. -/
def execCommandFetch (f : Fin 256) (r : Fin 17) (entry : Option Bytes) (s : State) : Out := .next (commandFetch f r entry s)

/-- MSIX_HOLDOFF_END (R483): MOD_US ends, and what became visible meanwhile is signalled. -/
def msixHoldoffEnd (f r : Nat) (s : State) : State :=
  let k := ringKey f r
  match mfind s.hif.holdoff k with
  | none => s
  | some more =>
    let s1 := { s with hif := { s.hif with holdoff := merase s.hif.holdoff k } }
    if more then signal s1 f r false else s1

/-- The command whose effect is `msixHoldoffEnd`. -/
def execMsixHoldoffEnd (f : Fin 256) (r : Fin 44) (s : State) : Out := .next (msixHoldoffEnd f r s)

/-! ## Resets of functions -/

/-- The rings of a function in the order of their slots. -/
def ringsOf (f : Nat) : List Nat := (List.range 44).filter (ringExists f)

/-- A function is reset (R484): its rings stop as if disabled, the completions of its commands are discarded, and its ring page and MSI-X state return to reset. -/
def fnReset (s : State) (f : Nat) : State :=
  let s1 := (ringsOf f).foldl (fun a r => ringDown a f r 3 0) s
  let s2 := (ringsOf f).foldl (fun a r => ringForget a (ringKey f r)) s1
  let page := Reg.pageBase f
  let regs := s2.regs.filter (fun e => decide (e.1 < page) || decide (page + 0x1000 ≤ e.1))
  let cmds := s2.hif.inFlight.map (fun c => if c.fn = f ∧ c.ring < 64 then { c with ring := c.ring + 64 } else c)
  let flushes := s2.tab.flushes.map (fun x => if x.cmd.fn = f ∧ x.cmd.ring < 64 then { x with cmd := { x.cmd with ring := x.cmd.ring + 64 } } else x)
  { s2 with regs := regs, tab := { s2.tab with flushes := flushes }, hif := { s2.hif with inFlight := cmds, msixOn := s2.hif.msixOn.filter (· != f) } }

/-- Every function is reset, and VF Enable is cleared (R484). -/
def fnResetAll (s : State) : State :=
  (List.range 256).foldl (fun a f => if f = 0 then fnReset a 0 else if flag a (Reg.HIF_FN_STAT_ENABLED f) then setB (fnReset a f) (Reg.HIF_FN_STAT_ENABLED f) false else a) s

/-- FLR (R484): of a VF, that function alone; of PF0, every function. -/
def flr (f : Nat) (s : State) : State :=
  if !powered s || !flag s (Reg.HIF_FN_STAT_ENABLED f) then s else if f = 0 then fnResetAll s else fnReset s f

/-- The command whose effect is `flr`. -/
def execFlr (f : Fin 256) (s : State) : Out := .next (flr f s)

/-- HIF_LINK_DOWN is present while UP is 0 in RUN (Table 20-2). -/
def linkShow (s : State) : State := levelIs (s.top == .run && !flag s Reg.HIF_LINK_STAT_UP) s Src.linkDown (locSlice 0 63) 0

/-- The link is down. -/
def linkOff (s : State) : State := linkShow (wr s Reg.HIF_LINK_STAT 0)

/-- PCIE_PERST (R468, R484): PCIE_PERST_L is low. -/
def pciePerst (s : State) : State :=
  let s1 := { s with hif := { s.hif with perstL := false } }
  if powered s then linkOff (fnResetAll s1) else s1

/-- The command whose effect is `pciePerst`. -/
def execPciePerst (s : State) : Out := .next (pciePerst s)

/-- PCIE_PERST_RELEASE (R468): PCIE_PERST_L rises. -/
def pciePerstRelease (s : State) : State := { s with hif := { s.hif with perstL := true } }

/-- The command whose effect is `pciePerstRelease`. -/
def execPciePerstRelease (s : State) : Out := .next (pciePerstRelease s)

/-- The identifiers that function f carries in configuration space (R480, Table 18-1): vendor, device, revision, class code, subsystem; of PF0 also TotalVFs, InitialVFs, First VF Offset
and VF Stride. DEDUCED: the Revision ID is DEV_ID[23:16] with the fields as Table 24-4 places them, though chapter 24 also calls it REV × 16 + STEP. -/
def pciIds (s : State) (f : Nat) : List Nat :=
  [0x1F3C, if f = 0 then 0x3240 else 0x3241, s.otp.rev % 16 + s.otp.step % 16 * 16, 0x028000, (rd s Reg.HIF_SUBSYS).toNat]
    ++ (if f = 0 then [getF s Reg.HIF_CFG_TOTAL_VFS, getF s Reg.HIF_CFG_TOTAL_VFS, 1, 1] else [])

/-- The VFs that the host has enabled, and the functions whose MSI-X it has enabled (R483, R484, Table 18-17). A VF whose VF Enable is cleared is reset. -/
def fnEnable (s : State) (vfs : Nat) (msix : List Nat) : State :=
  let n := min vfs (getF s Reg.HIF_CFG_TOTAL_VFS)
  let s1 := (upFrom 1 255).foldl (fun a f =>
    if f ≤ n then setB a (Reg.HIF_FN_STAT_ENABLED f) true
    else if flag a (Reg.HIF_FN_STAT_ENABLED f) then setB (fnReset a f) (Reg.HIF_FN_STAT_ENABLED f) false else a) s
  { s1 with hif := { s1.hif with msixOn := (List.range 256).filter (fun f => msix.contains f && decide (f ≤ n)) } }

/-- PCIE_LINK_CHANGE (R479): the link is up at a rate and a width, with what the host has enabled in configuration space, or it is down. -/
def pcieLinkChange (up : Bool) (gen width : Nat) (flit : Bool) (vfs : Nat) (msix : List Nat) (s : State) : State :=
  if !powered s || (up && !s.hif.perstL) then s
  else if !up then linkOff s
  else
    let s1 := setF (setF s Reg.HIF_LINK_STAT_GEN (min gen (getF s Reg.HIF_CFG_MAX_GEN))) Reg.HIF_LINK_STAT_WIDTH (min width (getF s Reg.HIF_CFG_MAX_WIDTH))
    linkShow (fnEnable (setB (setB s1 Reg.HIF_LINK_STAT_FLIT flit) Reg.HIF_LINK_STAT_UP true) vfs msix)

/-- The command whose effect is `pcieLinkChange`. -/
def execPcieLinkChange (up : Bool) (gen width : Nat) (flit : Bool) (vfs : Nat) (msix : List Nat) (s : State) : Out :=
  .next (pcieLinkChange up gen width flit vfs msix s)

/-! ## Frames from the host -/

/-- The fields of a TX descriptor (Table 18-10). -/
structure TxDesc where
  mode : Nat
  ts : Bool
  fix : Bool
  cls : Nat
  tag : Nat
  pipe : Nat
  len : Nat
  vrf : Nat
  port : Nat
  edit : Nat
  editEn : Bool
  deriving DecidableEq, Repr

/-- The fields of a descriptor's 64 bytes. -/
def txDescOf (b : Bytes) : TxDesc :=
  let w := leAt b 24 4
  { mode := byteAt b 0 % 4, ts := bit (byteAt b 0) 2, fix := bit (byteAt b 0) 3, cls := byteAt b 1 % 8, tag := leAt b 2 2, pipe := byteAt b 4 % 32,
    len := leAt b 16 2, vrf := leAt b 18 2, port := leAt b 20 2, edit := bits w 0 20, editEn := bit w 20 }

/-- The cause for which a descriptor of function f is refused (R498, Table 18-7), 0 for none. -/
def txRefusal (s : State) (f : Nat) (d : TxDesc) (data : Option Bytes) : Nat :=
  if d.mode = 3 ∨ (f ≠ 0 ∧ d.mode ≠ 0) ∨ (d.mode ≠ 2 ∧ (20 ≤ d.pipe ∨ sliceState s d.pipe ≠ 1)) then 1
  else if (if d.mode = 2 then d.len ≠ 240 else d.len < 60 ∨ 16368 < d.len) then 2
  else if f ≠ 0 ∧ (!d.fix ∨ vrfOwner s d.vrf ≠ f) then 3
  else if data.isNone then 4
  else 0

/-- A descriptor refused because its line slice is being removed counts against the slice (R562). -/
def txShut (s : State) (f : Nat) (d : TxDesc) : State :=
  if d.mode < 2 ∧ (f = 0 ∨ d.mode = 0) ∧ d.pipe < 20 ∧ sliceState s d.pipe ≠ 1 then bump s (Reg.PWR_SLICE_DROP d.pipe) else s

/-- A frame of a TX ring enters the device (R498): LOOKUP at the parser of IPn, DIRECT at its Hall, CONTROL as a cell. -/
def txInject (s : State) (f : Nat) (d : TxDesc) (b : Bytes) : State :=
  let tag := f * 256 + d.tag % 256
  match d.mode with
  | 0 => enterPipe s d.pipe { port := 160, orig := 160, bytes := b, first := b, rx := {}, fixVrf := if d.fix then some d.vrf else none, txTag := if d.ts then some tag else none }
  | 1 =>
    let h : Hdr := { cls := d.cls, editV := d.editEn, editIdx := if d.editEn then d.edit else 0, ptpMode := if d.ts then 2 else 0, ptpTag := if d.ts then tag else 0, srcSys := 0xFFFF }
    hallArrive s d.pipe { port := 160, orig := 160, bytes := b, first := b, rx := {} } d.cls
      { bytes := b, first := b, hdr := h, dest := .sys d.port, recirculated := false, mir := none, smp := none }
  | _ =>
    let c : Cell := { typ := 4, src := getF s Reg.FAB_NODE_ID, dst := d.port * 2 ^ getF s Reg.FAB_NODE_PORT_SHIFT % 65536, data := fit 240 b }
    { s with fab := { s.fab with ctl := s.fab.ctl ++ [c] } }

/-- TX_DESCRIPTOR (R498): the next descriptor of a TX ring and its frame, none for a read that completed with an error. -/
def txDescriptor (f k : Nat) (entry data : Option Bytes) (s : State) : State :=
  let r := 27 + k
  if s.top != .run || !ringExists f r || !ringRuns s f r || ringProd s f r == ringCons s f r then s
  else
    let i := ringCons s f r
    match entry with
    | none => ringStop s f r 3 i
    | some e =>
      let d := txDescOf (fit 64 e)
      let s1 := entryRead s f r
      let why := txRefusal s f d data
      if why ≠ 0 then hostEvent (bump (txShut s1 f d) (Reg.HIF_CNT 4)) f 6 ([byteOf r, byteOf why] ++ leBytes 2 d.tag ++ leBytes 4 i)
      else txInject (perf (bump s1 (Reg.HIF_CNT 3)) 82 4) f d (fit d.len (data.getD []))

/-- The command whose effect is `txDescriptor`. -/
def execTxDescriptor (f : Fin 256) (k : Fin 8) (entry data : Option Bytes) (s : State) : Out := .next (txDescriptor f k entry data s)

/-! ## Frames to the host -/

/-- The ring that takes a host frame or sample record (R497, R499). -/
def rxRing (s : State) (x : HostFrame) : Nat := if x.sample then 35 else if x.tenant = 0 then 19 + getF s (Reg.HIF_RXSEL_RING x.reason) else 19

/-- Where a record of `len` bytes goes in the data area of a ring (R497): at the next 64-byte boundary, or at 0 where it would pass the end; none while the area has no room. -/
def dataPlace (s : State) (f r len : Nat) : Option Nat :=
  let units := getF s (Reg.HIF_DATA_SIZE_SIZE f (if r = 35 then 8 else r - 19))
  let size := min units 262144 * 4096
  let at_ := ceilDiv (mget 0 s.hif.dataAt (ringKey f r)) 64 * 64
  let at1 := if size < at_ + len then 0 else at_
  let free := (mget [] s.hif.extents (ringKey f r)).all (fun e => decide (e.1 + e.2 ≤ at1) || decide (at1 + len ≤ e.1))
  if units < 16 ∨ size < len ∨ !free then none else some at1

/-- A record is written to its data area and announced by a descriptor (Table 18-9). -/
def rxWrite (s : State) (f r at_ : Nat) (x : HostFrame) : State :=
  let k := ringKey f r
  let b := x.block ++ x.bytes
  let h := s.hif
  let s1 := { s with hif := { h with dataAt := mput 0 h.dataAt k (at_ + b.length), extents := mput [] h.extents k (mget [] h.extents k ++ [(at_, b.length)]) } }
  let flags := b2n x.sample + 2 * b2n x.trunc + 4 * b2n x.noMeta
  let d := [byteOf flags, byteOf x.reason] ++ leBytes 2 x.frameLen ++ leBytes 4 at_ ++ leBytes 4 b.length ++ leBytes 4 (crc32c b)
  let s2 := perf (bumpIf x.trunc (pushEntry s1 f r d false) (Reg.HIF_CNT 2)) 82 (if x.sample then 6 else 3)
  if x.sample then s2 else perfTenant s2 x.tenant 5 1

/-- HOST_FRAME_DELIVER (R497, R499): the oldest frame on its way to the host reaches PCIe. -/
def hostFrameDeliver (s : State) : State :=
  match s.hif.queue with
  | [] => s
  | x :: rest =>
    let s0 := { s with hif := { s.hif with queue := rest } }
    let s1 := if x.sample ∧ x.buf ≠ 0 then releaseBuf s0 x.buf else s0
    let r := rxRing s1 x
    if !ringRuns s1 x.tenant r then bump s1 (Reg.HIF_CNT 0)
    else match dataPlace s1 x.tenant r (x.block.length + x.bytes.length) with
      | some at_ => if ringRoom s1 x.tenant r = 0 then bump s1 (if x.sample then Reg.ACT_CNT x.pipe 9 else Reg.HIF_CNT 1) else rxWrite s1 x.tenant r at_ x
      | none => bump s1 (if x.sample then Reg.ACT_CNT x.pipe 9 else Reg.HIF_CNT 1)

/-- The command whose effect is `hostFrameDeliver`. -/
def execHostFrameDeliver (s : State) : Out := .next (hostFrameDeliver s)

/-! ## The table window -/

/-- The slot of a table's entry in BAR2 (R482): its cost of Tables 5-1, 6-1 and 9-15 rounded up; none for a table outside the list. -/
def slotBytes (t : Nat) : Option Nat :=
  match t with
  | 0 => some 64 | 1 => some 16 | 5 => some 8 | 6 => some 16 | 7 => some 8 | 8 => some 8 | 10 => some 256 | 11 => some 16 | 12 => some 32 | 13 => some 32
  | 14 => some 128 | 15 => some 16 | 16 => some 16 | 17 => some 8 | 18 => some 32 | 19 => some 16 | 20 => some 8 | 21 => some 8 | 22 => some 8 | 23 => some 8
  | _ => none

/-- The table, the entry and the byte in its slot of a BAR2 offset; none for an unassigned address. -/
def twinPlace (s : State) (off : Nat) : Option (Nat × Nat × Nat × Nat) :=
  let w := off / 0x400000
  let t := getF s (Reg.HIF_TWIN_TABLE w)
  match slotBytes t, tabInfo t with
  | some n, some x =>
    let i := getF s (Reg.HIF_TWIN_FIRST w) + off % 0x400000 / n
    if w < 16 ∧ i < x.count then some (t, i, off % 0x400000 % n, n) else none
  | _, _ => none

/-- A whole slot has been written (R482): it acts as a MODIFY from PF0, or an INSERT where the entry is invalid. DESIGN CHOICE: a word of the slot that was not written keeps the
entry's own bytes. -/
def twinAct (s : State) (off v t i base n : Nat) : State :=
  let len := match tabInfo t with | some x => x.bytes | none => 0
  let now := leBytes n (tabGet s t i)
  let bytes := (List.range (n / 4)).flatMap (fun j => match mfind s.hif.bar2 (base + 4 * j) with | some w => leBytes 4 w.toNat | none => slice now (4 * j) 4)
  let s1 := { s with hif := { s.hif with bar2 := s.hif.bar2.filter (fun e => decide (e.1 < base) || decide (base + n ≤ e.1)) } }
  let ins := t != Tab.qacct && !tabValid s t i
  let c : HostCmd := { fn := 0, ring := 0, opcode := if ins then 1 else 3, tag := 0, table := t, sub := 0, opnd := leBytes 4 i ++ fit len bytes }
  if standby s then pwfD s1 0 1 off v .table Status.notPermitted.code
  else
    let e := directWrite s1 0 ins t i (leAt bytes 0 len)
    if e.st = .ok then (if e.changed then mirrorItem e.s (.table c 0) else e.s) else pwfD e.s 0 1 off v .table e.st.code

/-- BAR2_WRITE (R482, R503): a 32-bit write of PF0's table window; the last word of a slot makes it act. -/
def bar2Write (off v : Nat) (s : State) : State :=
  if !powered s then s
  else if off % 4 ≠ 0 then pwfD s 0 1 off v .width 0
  else match twinPlace s off with
    | none => pwfD s 0 1 off v .unassigned 0
    | some (t, i, o, n) =>
      if t = Tab.schTree then pwfD s 0 1 off v .unassigned 0
      else if !operOpen s then pwfD s 0 1 off v .target 0
      else
        let s1 := { s with hif := { s.hif with bar2 := mset s.hif.bar2 off (some (Word.ofNat v)) } }
        if o + 4 = n then twinAct s1 off v t i (off - o) n else s1

/-- The command whose effect is `bar2Write`. -/
def execBar2Write (off v : Nat) (s : State) : Out := .next (bar2Write off v s)

/-! ## Log, grants and function resources -/

/-- PWF_CLEAR (R503): a write of HIF_PWF_CTL.CLEAR empties the log. -/
def pwfClear (s : State) : State :=
  operWrite s Reg.HIF_PWF_CTL 1 (fun s =>
    let regs := s.regs.filter (fun e => decide (e.1 < Reg.HIF_PWF_LOG 0 0) || decide (Reg.HIF_PWF_LOG 64 0 ≤ e.1))
    wr { s with regs := regs } Reg.HIF_PWF_STAT 0)

/-- The command whose effect is `pwfClear`. -/
def execPwfClear (s : State) : Out := .next (pwfClear s)

/-- Is performance group g grantable to VF f (R501, R548)? -/
def grantable (s : State) (f g : Nat) : Bool :=
  decide (128 ≤ g) && flag s (Reg.CNT_PERF_TEN_EN (g - 128)) && getF s (Reg.CNT_PERF_TEN_TENANT (g - 128)) == f

/-- GRANT (R501): a write of HIF_GRANT[f][w]; one that grants a group that is not grantable fails at its target, and PF0's are ignored. -/
def grant (f w v : Nat) (s : State) : State :=
  operWrite s (Reg.HIF_GRANT f w) v (fun s =>
    if f = 0 then s
    else if (onesOf 32 v).all (fun j => grantable s f (32 * w + j)) then setF s (Reg.HIF_GRANT_GROUPS f w) v
    else pwfTarget s (Reg.HIF_GRANT f w) v)

/-- The command whose effect is `grant`. -/
def execGrant (f : Fin 256) (w : Fin 8) (v : Nat) (s : State) : Out := .next (grant f w v s)

/-- The MSI-X vectors of every function but f. -/
def vectorsOfOthers (s : State) (f : Nat) : Nat := (((List.range 256).filter (· != f)).map (fun g => getF s (Reg.HIF_FN_CFG_MSIX_CNT g))).sum

/-- A write of HIF_FN_CFG[f] (R483, Table 18-17): a size that passes 2,048 in all, or that changes while the function's MSI-X is enabled, fails at its target. RINGS_EN = 0
disables every ring. -/
def fnCfgWrite (f v : Nat) (s : State) : State :=
  operWrite s (Reg.HIF_FN_CFG f) v (fun s =>
    let n := bits v 0 12
    if 2048 < vectorsOfOthers s f + n ∨ (s.hif.msixOn.contains f ∧ n ≠ getF s (Reg.HIF_FN_CFG_MSIX_CNT f)) then pwfTarget s (Reg.HIF_FN_CFG f) v
    else
      let off := flag s (Reg.HIF_FN_CFG_RINGS_EN f) && !bit v 12
      writeRw (if off then (ringsOf f).foldl (fun a r => ringDown a f r 1 0) s else s) (Reg.HIF_FN_CFG f) v 0x7FFF1FFF)

/-- MSIX_SIZE_WRITE (R483). -/
def msixSizeWrite (f v : Nat) (s : State) : State := fnCfgWrite f v s

/-- The command whose effect is `msixSizeWrite`. -/
def execMsixSizeWrite (f : Fin 256) (v : Nat) (s : State) : Out := .next (msixSizeWrite f v s)

end Sys2Proof.Machine
end

