-- ==== Sys2Proof/Machine/Update.lean ====
section
/-! DEFINITION. The in-service update (chapter 14): staging (R390 to R392), preparation (R387, R393), arming and activation (R394 to R398), trial, confirmation and
fallback (R399 to R401), and the restart activation (R402). The configuration digest of R349 is here too. -/

namespace Sys2Proof.Machine

/-! ## The sealed state -/

/-- The offsets of a register row, one per index. -/
def rowAddrs (dims : List (Nat × Nat)) (base : Nat) : List Nat :=
  match dims with
  | [] => [base]
  | (stride, n) :: r => (List.range n).flatMap (fun k => rowAddrs r (base + stride * k))

/-- Every SEALED register that the digest covers, in ascending order: all but those of the PAIR block (R349). -/
def digestAddrs : List Nat :=
  let rows := ((List.range 29).filter (fun b => b != 7 && b != 9 && b != 21 && b != 23 && b != 25)).flatMap (fun b => regRowsAt (b * 0x100000))
  ((rows.filter (fun r => r.cls == .sealed)).flatMap (fun r => rowAddrs r.dims r.base)).mergeSort (fun a b => decide (a ≤ b))

/-- A register as a bank holds it. -/
def bankWord (b : Bank) (a : Nat) : Word := mget (regReset a) b.regs a

/-- The digest of a sealed state (R349): its registers, table 20, and the firmware's anti-rollback sequence number. -/
def digestOf (b : Bank) : Bytes :=
  let regs := digestAddrs.flatMap (fun a => leBytes 4 (bankWord b a).toNat)
  let tree := (List.range 1347776).flatMap (fun i => leBytes 8 (mget 0 b.tree (tabKey Tab.schTree i)))
  sha384 (regs ++ tree ++ leBytes 4 (b.ids.getD 16 0).toNat)

/-- Is a key of the direct tables one of table 20? -/
def treeKey (k : Nat) : Bool := k / 2 ^ 24 == Tab.schTree

/-- The registers that identify the images (R597, R372): DEV_FW_VER, DEV_CFG_VER, DEV_CFG_LABEL and BOOT_ARB_RUN. -/
def idAddrs : List Nat := (upFrom 0 16).map (fun k => Reg.DEV_FW_VER 0 + 4 * k) ++ [Reg.BOOT_ARB_RUN 0, Reg.BOOT_ARB_RUN 1]

/-- The sealed state in force. -/
def bankOf (s : State) : Bank :=
  { regs := s.regs.filter (fun e => (sealedBits e.1).isSome), tree := s.tab.direct.filter (fun e => treeKey e.1), ids := idAddrs.map (rd s) }

/-- The card's own digest (R349). -/
def ownDigest (s : State) : Bytes := digestOf (bankOf s)

/-- The bits of a SEALED register that are of class 2 (Table 14-1). -/
def class2Bits (a : Nat) : Nat :=
  if (List.range 20).any (fun g => a == Reg.LIN_GRP_CFG g) then 7
  else if (List.range 8).any (fun k => a == Reg.BUF_SPOOL_CFG k || a == Reg.BUF_DPOOL_CFG k) then 2 ^ 28 - 1
  else if a = Reg.DRC_POP ∨ a = Reg.DRC_GLB_CFG ∨ a = Reg.SCH_QSPLIT ∨ a = Reg.CLK_PLAN then 2 ^ 32 - 1
  else if a = Reg.FAB_NODE then 0xFFFFF
  else if a = Reg.PAIR_CFG then 1
  else 0

/-- The class that the differences of two sealed states require (R387). -/
def diffClass (old new : Bank) : Nat :=
  let keys := ((old.regs ++ new.regs).map (·.1)).filter (fun a => bankWord old a != bankWord new a)
  if keys.any (fun a => Nat.land (bankWord old a).toNat (class2Bits a) != Nat.land (bankWord new a).toNat (class2Bits a)) then 2
  else if !keys.isEmpty || old.tree != new.tree then 1
  else 0

/-! ## Commands of the agent -/

/-- CODE of UPD_CTL. -/
def updCode (v : Nat) : Bool := bits v 16 16 == 0x5EA1

/-- LAST_STATUS (Table 14-7). -/
def updStatus (s : State) (n : Nat) : State := setF s Reg.UPD_STAT_LAST_STATUS n

/-- The agent enters a state of Table 14-3. -/
def updEnter (s : State) (n : Nat) : State := setF s Reg.UPD_STAT_STATE n

/-- The agent's state. -/
def updState (s : State) : Nat := getF s Reg.UPD_STAT_STATE

/-- A write of UPD_CTL with action bit `k` (R389): outside RUN, or with another action bit, it is refused with BAD_STATE. `act` answers the status. -/
def updCtl (k v : Nat) (s : State) (act : State → Nat × State) : State :=
  let w := Nat.lor v (2 ^ k)
  operWrite s Reg.UPD_CTL w (fun s =>
    if s.top != .run || bits w 0 6 != 2 ^ k then updStatus s 2
    else
      let r := act s
      updStatus r.2 r.1)

/-- FW_STAGED and CFG_STAGED follow the staged images. -/
def stagedShow (s : State) : State := setB (setB s Reg.UPD_STAT_FW_STAGED s.upd.fw.isSome) Reg.UPD_STAT_CFG_STAGED s.upd.cfg.isSome

/-! ## Staging -/

/-- The slot that a staging of a type writes: the other from that named in BOOT_STAT (R390). -/
def stageSlot (s : State) (typ : Nat) : Nat := 1 - getF s (if typ = 1 then Reg.BOOT_STAT_FW_SLOT else Reg.BOOT_STAT_CFG_SLOT)

/-- What a START answers before staging begins (R389, R390, R392). -/
def stageRefusal (s : State) (typ : Nat) : Nat :=
  let u := updState s
  if s.top != .run then 2
  else if u = 1 ∨ u = 2 then 1
  else if u ≠ 0 ∧ u ≠ 3 then 2
  else if typ ≠ 1 ∧ typ ≠ 2 then 23
  else if wornOut s (blocksOf (slotPlace s typ (stageSlot s typ)).1 (getF s Reg.UPD_STAGE_LEN_LEN)) then 18
  else 0

/-- STAGE_START (R390): staging begins, or is refused. -/
def stageStart (v : Nat) (s : State) : State :=
  operWrite s Reg.UPD_STAGE_CTL (Nat.lor v 1) (fun s =>
    let typ := bits v 1 2
    let s1 := writeRw s Reg.UPD_STAGE_CTL v 6
    let r := stageRefusal s typ
    if r = 18 then report (updStatus s1 18) Src.wearLimit aonLoc 0
    else if r ≠ 0 then updStatus s1 r
    else
      let s2 := wr (updEnter s1 1) Reg.UPD_STAGE_STAT 1
      { s2 with upd := { s2.upd with staging := some (typ, stageSlot s typ) } })

/-- The command whose effect is `stageStart`. -/
def execStageStart (v : Nat) (s : State) : Out := .next (stageStart v s)

/-- The slot of a staging holds no valid header any more, and no image of that type is staged from it. -/
def slotErased (s : State) (typ slot len : Nat) : State :=
  let s1 := wearBlocks s (blocksOf (slotPlace s typ slot).1 (min len (slotPlace s typ slot).2))
  let u := if typ = 1 then { s1.upd with fw := none } else { s1.upd with cfg := none }
  let lost : Bool := if typ = 1 then s.upd.fw.isSome else s.upd.cfg.isSome
  stagedShow { s1 with nvm := { s1.nvm with slots := mset s1.nvm.slots (2 * (typ - 1) + slot) none }, upd := { u with shadow := if lost then none else u.shadow } }

/-- A staging fails (R391): it is counted and reported, and the agent returns to PREPARED where the earlier preparation stands, else to IDLE. -/
def stageFailed (s : State) (status blocks : Nat) : State :=
  let s1 := setF (setB s Reg.UPD_STAGE_STAT_BUSY false) Reg.UPD_STAGE_STAT_BLOCKS_DONE blocks
  let s2 := { s1 with upd := { s1.upd with staging := none } }
  report (bump (updStatus (updEnter s2 (if s2.upd.shadow.isSome then 3 else 0)) status) (Reg.UPD_CNT 3)) Src.stageFail aonLoc 0

/-- A slow page program in a 64 KiB block (R406). -/
def slowProgram (s : State) (b : Nat) : State :=
  let s1 := bump s (Reg.UPD_CNT 4)
  if s1.upd.slow.contains b then s1
  else report { s1 with upd := { s1.upd with slow := b :: s1.upd.slow } } Src.wearSlow aonLoc b

/-- The image is programmed and checked, and preparation begins (R390, R393). -/
def stageDone (s : State) (typ slot : Nat) (x : Image) : State :=
  let y : Image := { x with slot := slot, pushed := false }
  let s1 := slotProgram s typ slot y
  let s2 := { s1 with upd := if typ = 1 then { s1.upd with staging := none, fw := some y } else { s1.upd with staging := none, cfg := some y } }
  let s3 := setF (setB s2 Reg.UPD_STAGE_STAT_DONE true) Reg.UPD_STAGE_STAT_BLOCKS_DONE x.blockCount
  stagedShow (updStatus (updEnter s3 2) 0)

/-- STAGING_DONE (R390, R391, R405, R406): the bytes read from host memory are checked, programmed and read back; or the first failure ends the staging. `slow` names the 64 KiB blocks of slow page programs,
`again` those erased once more, one entry an erase, for a block that failed its read-back. -/
def stagingDone (dmaOk nvmOk : Bool) (data : Bytes) (slow again : List Nat) (s : State) : State :=
  if programsBlocked s || updState s != 1 then s
  else match s.upd.staging with
    | none => s
    | some (typ, slot) =>
      let x := parseImage data slot false
      let size := (slotPlace s typ slot).2
      let got := (data.length - 256) / 4096
      if data.length < 256 ∧ !dmaOk then stageFailed s 16 0
      else if !hdrCrcOk x.header then stageFailed s 3 0
      else if !formatOk x typ size || x.length != getF s Reg.UPD_STAGE_LEN_LEN then stageFailed s 4 0
      else
        let b := slow.foldl slowProgram s
        let a := if again.isEmpty then b else wearBlocks b again
        let gone := slotErased a typ slot x.length
        match badBlock x with
        | some k => if !dmaOk ∧ got ≤ k then stageFailed gone 16 got else stageFailed gone 3 k
        | none =>
          if !dmaOk then stageFailed gone 16 (min got x.blockCount)
          else if !nvmOk then
            let (n, g) := freshNat gone
            stageFailed g 17 (n % x.blockCount)
          else
            let f := imageFault s.otp x typ
            if f ≠ 0 then stageFailed gone f x.blockCount else stageDone a typ slot x

/-- The command whose effect is `stagingDone`. -/
def execStagingDone (dmaOk nvmOk : Bool) (data : Bytes) (pages : NvmPages) (s : State) : Out :=
  match pages with
  | ⟨slow, again⟩ => .next (stagingDone dmaOk nvmOk data slow again s)

/-! ## Preparation -/

/-- The identity words of the prepared state: those of the staged images, and the running ones for the rest. -/
def preparedIds (s : State) : List Word :=
  let now := idAddrs.map (rd s)
  let fwv := match s.upd.fw with | some x => leWords 4 x.version | none => now.take 4
  let cfv := match s.upd.cfg with | some x => leWords 4 x.version | none => (now.drop 4).take 4
  let lab := match s.upd.cfg with | some x => leWords 8 (if byteAt x.payload 0 = 1 then slice x.payload 20 32 else List.replicate 32 0) | none => (now.drop 8).take 8
  let fa := match s.upd.fw with | some x => [Word.ofNat x.arbSeq] | none => [now.getD 16 0]
  let ca := match s.upd.cfg with | some x => [Word.ofNat x.arbSeq] | none => [now.getD 17 0]
  fwv ++ cfv ++ lab ++ fa ++ ca

/-- The shadow that the agent builds (R393): the staged configuration's records applied to reset values, with every check of APPLY; or the running sealed state. On failure, the
status. -/
def buildShadow (s : State) : Except Nat Bank :=
  match s.upd.cfg with
  | none => .ok { bankOf s with ids := preparedIds s }
  | some x =>
    let r := recRun x.payload (x.payLen / 12 + 1) { otp := s.otp }
    match r.fail with
    | some (reason, _) => .error reason
    | none => if applyStands r.s then .ok { bankOf r.s with ids := preparedIds s } else .error 13

/-- REQ_CLASS (R387). -/
def requiredClass (s : State) (b : Bank) : Nat :=
  let cls (o : Option Image) : Nat := match o with | some x => x.actClass | none => 0
  max (max (cls s.upd.fw) (cls s.upd.cfg)) (diffClass (bankOf s) b)

/-- PREPARE_DONE (R393): the shadow stands with REQ_CLASS and UPD_NEW_DIGEST, or the preparation ends and the staged images stay. -/
def prepareDone (s : State) : State :=
  if updState s ≠ 2 then s
  else
    let s1 := setB s Reg.UPD_STAGE_STAT_BUSY false
    match buildShadow s with
    | .error e => updStatus (updEnter { s1 with upd := { s1.upd with shadow := none } } 0) e
    | .ok b =>
      let s2 := { s1 with upd := { s1.upd with shadow := some b } }
      let s3 := wrWords (setF s2 Reg.UPD_STAT_REQ_CLASS (requiredClass s b)) (Reg.UPD_NEW_DIGEST 0) (leWords 12 (digestOf b))
      updStatus (updEnter s3 3) 0

/-- The command whose effect is `prepareDone`. -/
def execPrepareDone (s : State) : Out := .next (prepareDone s)

/-! ## Activation -/

/-- UPD_ACT_TIME in ns; the seconds above bit 31 are those of the present PTP time. -/
def actTime (s : State) : Nat :=
  (s.ptp.sec / 2 ^ 32 * 2 ^ 32 + getF s Reg.UPD_ACT_TIME_HI_SEC) * 1000000000 + min 999999999 (getF s Reg.UPD_ACT_TIME_LO_NS)

/-- ARM (R394): accepted in PREPARED for class 0 or 1 and an activation time at least 100 ms ahead. -/
def arm (v : Nat) (s : State) : State :=
  updCtl 0 v s (fun s =>
    if updState s ≠ 3 then (2, s)
    else if getF s Reg.UPD_STAT_REQ_CLASS = 2 then (19, s)
    else if actTime s < s.ptp.total + 100000000 then (20, s)
    else
      let d := (List.range 12).flatMap (fun k => leBytes 4 (rd s (Reg.UPD_NEW_DIGEST k)).toNat)
      (0, updEnter { s with upd := { s.upd with otherDigest := d } } 4))

/-- The command whose effect is `arm`. -/
def execArm (v : Nat) (s : State) : Out := .next (arm v s)

/-- Is an entry of table 20 valid, and its PARENT (Table 9-4)? -/
def treeLive (b : Bank) (i : Nat) : Bool := bit (mget 0 b.tree (tabKey Tab.schTree i)) 0
def treePar (b : Bank) (i : Nat) : Nat := bits (mget 0 b.tree (tabKey Tab.schTree i)) 1 18

/-- The nodes of table 20 that an exchange of `old` for `new` makes invalid, and those that it gives another parent. -/
def nodesGone (old new : Bank) : List Nat := (old.tree.map (fun e => e.1 % 2 ^ 24)).filter (fun i => treeLive old i && !treeLive new i)
def nodesMoved (old new : Bank) : List Nat := (old.tree.map (fun e => e.1 % 2 ^ 24)).filter (fun i => treeLive old i && treeLive new i && treePar old i != treePar new i)

/-- The queues with frames below a node that becomes invalid. -/
def queuesCut (s : State) (gone : List Nat) : List Nat :=
  (s.qd.queues.filter (fun e => decide (voqSplit s ≤ e.1) && !e.2.descs.isEmpty && (match queuePath s e.1 with | some l => l.any gone.contains | none => false))).map (·.1)

/-- A bank takes the place of the sealed state in force. -/
def installBank (s : State) (b : Bank) : State :=
  let keep := s.regs.filter (fun e => (sealedBits e.1).isNone)
  let regs := b.regs.foldl (fun m e => mput (regReset e.1) m e.1 e.2) keep
  let rest := s.tab.direct.filter (fun e => !treeKey e.1)
  let t := { s.tab with direct := b.tree.foldl (fun m e => mput (keyStart e.1) m e.1 e.2) rest, bad := s.tab.bad.filter (fun k => !treeKey k) }
  (idAddrs.zip b.ids).foldl (fun a e => wr a e.1 e.2) { s with regs := regs, tab := t }

/-- What the device holds is judged against the values now in force (R396): pools, monitors, classes and transmitters. -/
def judge (s : State) : State :=
  let s1 := (List.range 8).foldl (fun a k => poolFollow (poolFollow a 0 k) 1 k) s
  let s2 := ((List.range 4096).filter (fun m => flag s1 (Reg.CGM_QWM_CFG_EN m))).foldl monitor s1
  let s3 := (List.range 160).foldl (fun a p => xoffFollow ((List.range 8).foldl (fun b k => pfcFollow b p k) a) p) s2
  wearShow (bkpFollow s3)

/-- The shadow and the sealed state in force change places (R395), with the rules of R396 for table 20. -/
def switchBanks (s : State) (new : Bank) : State :=
  let old := bankOf s
  let s1 := (queuesCut s (nodesGone old new)).foldl (fun a q => emptied (flushQueue a q (fun t => bump t (Reg.UPD_CNT 5))) q) s
  let s2 := installBank { s1 with upd := { s1.upd with shadow := some old, otherDigest := digestOf old } } new
  let s3 := (nodesMoved old new).foldl (fun a i => putNode a i { nodeSt a i with deficit := 0 }) s2
  galFollow (settle s (judge s3))

/-- The records of a payload: type and body. -/
def recordsOf (p : Bytes) : Nat → Nat → List (Nat × Bytes)
  | 0, _ => []
  | k + 1, o =>
    let len := leAt p (o + 4) 4
    if p.length < o + 12 ∨ len < 12 then [] else (byteAt p o, slice p (o + 12) (len - 12)) :: recordsOf p k (o + len)

/-- How many host commands a preload record makes. -/
def preloadCount (typ : Nat) (b : Bytes) : Nat :=
  match typ with
  | 4 => if byteAt b 0 = Tab.schTree then 0 else leAt b 8 4
  | 5 => leAt b 4 4
  | 7 => leAt b 4 4
  | 8 => 1
  | _ => 0

/-- Command j of a preload record, as PF0 would send it (R395, Table 18-5); a valid entry is modified. -/
def preloadCmd (s : State) (typ : Nat) (b : Bytes) (j : Nat) : HostCmd :=
  let mk (op t sub : Nat) (opnd : Bytes) : HostCmd := { fn := 0, ring := 0, opcode := op, tag := 0, table := t, sub := sub, opnd := opnd }
  match typ with
  | 4 =>
    let t := byteAt b 0
    let n := leAt b 2 2
    let i := leAt b 4 4 + j
    mk (if t != Tab.qacct && !tabValid s t i then 1 else 3) t 0 (leBytes 4 i ++ slice b (12 + j * n) n)
  | 5 => let n := keyedBytes (byteAt b 0); mk 1 (byteAt b 0) (byteAt b 1) (slice b (8 + j * n) n)
  | 7 =>
    let e := slice b (8 + j * 36) 36
    let w := leAt e 0 4
    let id := leBytes 4 (leAt b 0 4 + j)
    if bit w 13 then mk 0x10 0 0 (id ++ [byteOf (bits w 0 6), byteOf (bits w 6 6), byteOf (bits w 12 1)] ++ slice e 4 32) else mk 0x11 0 0 id
  | _ => mk 0x12 0 0 b

/-- A preload as a host command of PF0 at an activation: refused on a standby (R344), mirrored by the active card. -/
def preloadRun (s : State) (c : HostCmd) : State :=
  if standby s then s
  else
    let e := mirrorEng c s
    if e.changed then mirrorItem e.s (.table c e.st.code) else e.s

/-- The preloads of a configuration, in order (R395). -/
def preloads (s : State) (x : Image) : State :=
  (recordsOf x.payload (x.payLen / 12 + 1) 0).foldl (fun a r => (List.range (preloadCount r.1 r.2)).foldl (fun t j => preloadRun t (preloadCmd t r.1 r.2 j)) a) s

/-- The SLOTS byte of TRIAL for the staged images (Table 14-4). -/
def trialSlots (s : State) (d : Directory) : Nat :=
  let nf := match s.upd.fw with | some x => x.slot | none => d.fwActive
  let nc := match s.upd.cfg with | some x => x.slot | none => d.cfgActive
  d.fwActive + 2 * d.cfgActive + 4 * nf + 8 * nc + 16 * b2n s.upd.fw.isSome + 32 * b2n s.upd.cfg.isSome

/-- TRIAL of a new trial: TRIAL_ID raised by 1. -/
def newTrial (s : State) (d : Directory) (st window : Nat) : Directory :=
  let t := withTrial d st (trialSlots s d) window
  { t with trial := t.trial.take 2 ++ leBytes 2 (leAt d.trial 2 2 + 1) ++ t.trial.drop 4 }

/-- CONFIRM_S as it acts (Table 14-8). -/
def confirmS (s : State) : Nat := clamp 10 3600 (getF s Reg.UPD_CFG_CONFIRM_S)

/-- TRIAL is entered from SWITCHING (R399): the window begins and the directory records the trial. -/
def enterTrial (s : State) : State :=
  let s1 := { s with upd := { s.upd with window := (s.tick, confirmS s) } }
  dirChange (updEnter s1 6) (fun d => newTrial s1 d 1 (confirmS s1))

/-- ACTIVATION (R395 to R397): at or after UPD_ACT_TIME the prepared state takes the place of the running one. -/
def activation (s : State) : State :=
  match s.upd.shadow with
  | none => s
  | some b =>
    if updState s ≠ 4 ∨ s.ptp.total < actTime s then s
    else
      let s1 := switchBanks (updEnter s 5) b
      let s2 := bump (match s.upd.cfg with | some x => preloads s1 x | none => s1) (Reg.UPD_CNT 0)
      if s.upd.fw.isNone then enterTrial s2 else s2

/-- The command whose effect is `activation`. -/
def execActivation (s : State) : Out := .next (activation s)

/-- DISARM (R394): the arming is withdrawn, unless the activation time has come. -/
def disarm (v : Nat) (s : State) : State :=
  updCtl 1 v s (fun s =>
    let t := activation s
    if updState t = 4 then (0, updEnter t 3) else (2, t))

/-- The command whose effect is `disarm`. -/
def execDisarm (v : Nat) (s : State) : Out := .next (disarm v s)

/-- FIRMWARE_SWAP_DONE (R397, R399): every core runs the new firmware. -/
def firmwareSwapDone (s : State) : State := if updState s = 5 then enterTrial s else s

/-- The command whose effect is `firmwareSwapDone`. -/
def execFirmwareSwapDone (s : State) : Out := .next (firmwareSwapDone s)

/-! ## Trial, confirmation and fallback -/

/-- The directory names the slots of the images on trial, and TRIAL is cleared. -/
def confirmDir (d : Directory) : Directory :=
  let slots := byteAt d.trial 1
  withTrial { d with fwActive := bits slots 2 1, cfgActive := bits slots 3 1 } 0 0 0

/-- The images on trial are those that run from now on: BOOT_STAT names their slots. -/
def confirmImages (s : State) : State :=
  let one (a : State) (o : Option Image) (slot pushed : Fld) : State := match o with | some x => setB (setF a slot x.slot) pushed false | none => a
  let s1 := one (one s s.upd.fw Reg.BOOT_STAT_FW_SLOT Reg.BOOT_STAT_FW_PUSHED) s.upd.cfg Reg.BOOT_STAT_CFG_SLOT Reg.BOOT_STAT_CFG_PUSHED
  { s1 with boot := { s1.boot with fw := s.upd.fw.orElse (fun _ => s.boot.fw), cfg := s.upd.cfg.orElse (fun _ => s.boot.cfg) } }

/-- FALLBACK_DUE and its level (R400). -/
def fallbackDue (s : State) (b : Bool) : State := levelIs b (setB s Reg.UPD_STAT_FALLBACK_DUE b) Src.fallback aonLoc 0

/-- The trial is over: no image is staged, no shadow is kept. -/
def trialOver (s : State) : State :=
  let u := { s.upd with shadow := none, restartTrial := false, window := (0, 0), otherDigest := [] }
  fallbackDue (setB (updEnter { s with upd := u } 0) Reg.UPD_STAT_RESTART_TRIAL false) false

/-- CONFIRM (R399): taken in TRIAL while the window has not expired. -/
def confirmTrial (v : Nat) (s : State) : State :=
  updCtl 2 v s (fun s =>
    if (updState s = 6 ∨ updState s = 7) ∧ s.upd.window.2 = 0 then (21, s)
    else if updState s ≠ 6 then (2, s)
    else if !updCode v then (22, s)
    else
      let s1 := dirChange (confirmImages s) confirmDir
      let s2 := { s1 with upd := { s1.upd with fw := none, cfg := none } }
      (0, bump (stagedShow (trialOver s2)) (Reg.UPD_CNT 1)))

/-- The command whose effect is `confirmTrial`. -/
def execConfirm (v : Nat) (s : State) : Out := .next (confirmTrial v s)

/-- ABANDON (R400): the fallback is due. -/
def abandon (v : Nat) (s : State) : State :=
  updCtl 3 v s (fun s => if updState s ≠ 6 then (2, s) else if !updCode v then (22, s) else (0, fallbackDue s true))

/-- The command whose effect is `abandon`. -/
def execAbandon (v : Nat) (s : State) : Out := .next (abandon v s)

/-- TRIAL_EXPIRE (R400): the window has run out without a CONFIRM. -/
def trialExpire (s : State) : State :=
  if updState s ≠ 6 then s else fallbackDue { s with upd := { s.upd with window := (s.upd.window.1, 0) } } true

/-- The command whose effect is `trialExpire`. -/
def execTrialExpire (s : State) : Out := .next (trialExpire s)

/-- Is this instant a safe point (R400)? -/
def safePoint (s : State) : Bool :=
  !programsBlocked s && s.boot.dirOwed.isNone && !flag s Reg.PAIR_STAT_RESYNC_RUN && !(s.upd.restartTrial && pairMode s && role s == 1)

/-- FALLBACK_START (R400, R401): at a safe point a due fallback begins; that of a scheduled activation switches back. -/
def fallbackStart (s : State) : State :=
  if updState s ≠ 6 ∨ !flag s Reg.UPD_STAT_FALLBACK_DUE ∨ !safePoint s then s
  else
    let s1 := updEnter s 7
    match s.upd.restartTrial, s.upd.shadow with
    | false, some b => switchBanks s1 b
    | _, _ => s1

/-- The command whose effect is `fallbackStart`. -/
def execFallbackStart (s : State) : Out := .next (fallbackStart s)

/-- FALLBACK_DONE (R401): the old state is back and the directory records no trial; a restart trial enters RESET. -/
def fallbackDone (s : State) : State :=
  if updState s ≠ 7 ∨ (s.upd.restartTrial ∧ programsBlocked s) then s
  else
    let s1 := dirChange (bump (setB s Reg.UPD_STAT_FELL_BACK true) (Reg.UPD_CNT 2)) (fun d => withTrial d 0 0 0)
    if s.upd.restartTrial then resetEnter 4 (secondDrop s1) else trialOver (secondDrop s1)

/-- The command whose effect is `fallbackDone`. -/
def execFallbackDone (s : State) : Out := .next (fallbackDone s)

/-! ## Restart activation -/

/-- The directory of a restart activation names the new slots, with TRIAL state 2 (R402). -/
def restartDir (s : State) (window : Nat) (d : Directory) : Directory :=
  let t := newTrial s d 2 window
  let slots := byteAt t.trial 1
  { t with fwActive := bits slots 2 1, cfgActive := bits slots 3 1 }

/-- RESTART_ACT (R402): the directory is rewritten and the device enters RESET; an ACTIVE card refuses. A VIN warning holds the rewrite back (R437). -/
def restartAct (v : Nat) (s : State) : State :=
  updCtl 4 v s (fun s =>
    if updState s ≠ 3 ∨ (pairMode s ∧ role s = 1) then (2, s)
    else if !updCode v then (22, s)
    else
      let w := match s.upd.shadow with | some b => clamp 10 3600 ((bankWord b Reg.UPD_CFG).toNat % 4096) | none => confirmS s
      let s1 := { s with nvm := { s.nvm with oldDigest := ownDigest s, oldFormat := formatOf s.boot.fw } }
      let s2 := dirChange (updEnter s1 8) (restartDir s1 w)
      (0, if s2.boot.dirOwed.isSome then s2 else resetEnter 4 s2))

/-- The command whose effect is `restartAct`. -/
def execRestartAct (v : Nat) (s : State) : Out := .next (restartAct v s)

/-- DISCARD (Table 14-9): in PREPARED, the staged and prepared state is dropped; the slots keep their contents. -/
def updDiscard (v : Nat) (s : State) : State :=
  updCtl 5 v s (fun s =>
    if updState s ≠ 3 then (2, s)
    else (0, stagedShow (updEnter { s with upd := { s.upd with fw := none, cfg := none, shadow := none } } 0)))

/-- The command whose effect is `updDiscard`. -/
def execDiscard (v : Nat) (s : State) : Out := .next (updDiscard v s)

/-! ## Steps of the PTP clock -/

/-- Dump group d takes its epoch at a step that passes over one (R424, R551). -/
def epochPassed (old new d : Nat) (s : State) : State :=
  let p := clamp 1 10000 (getF s (Reg.CNT_DGRP_CFG_PERIOD_MS d)) * 1000000
  if h : d < 64 then (if old / p < new / p then dumpEpoch ⟨d, h⟩ s else s) else s

/-- What a step of the PTP clock from `old` brings with it (R424): an action scheduled for a time that was passed over takes place. -/
def stepped (old : Ptp) (s : State) : State :=
  let s1 := sigSwapInstant (bump (setB (setF s Reg.TIM_STAT_TIME_STATE 2) Reg.TIM_STAT_STEPPED true) (Reg.TIM_CNT 0))
  let s2 := (List.range 160).foldl (fun a p => gateShow (if h : p < 160 then gateActivate ⟨p, h⟩ a else a) p) s1
  let s3 := (List.range 64).foldl (fun a d => epochPassed old.total s.ptp.total d a) s2
  activation (pmStepped s3)

/-- A write of TIM_CTL: one with both SET and ADD fails at its target (R424). -/
def timStep (k v : Nat) (s : State) (time : State → Ptp) : State :=
  let w := Nat.lor v (2 ^ k)
  operWrite s Reg.TIM_CTL w (fun s => if bits w 0 2 = 3 then pwfTarget s Reg.TIM_CTL w else stepped s.ptp { s with ptp := time s })

/-- TIM_SET (R424, R430): the clock takes TIM_SET_EXT, TIM_SET_HI and TIM_SET_LO, with a fraction of 0. -/
def timSet (v : Nat) (s : State) : State :=
  timStep 0 v s (fun s =>
    { sec := getF s Reg.TIM_SET_EXT_SEC_HI * 2 ^ 32 + getF s Reg.TIM_SET_HI_SEC_LO, ns := min 999999999 (getF s Reg.TIM_SET_LO_NS), frac := 0 })

/-- The command whose effect is `timSet`. -/
def execTimSet (v : Nat) (s : State) : Out := .next (timSet v s)

/-- TIM_ADD (R424): the clock adds the signed TIM_OFFSET in ns; a negative time becomes 0. -/
def timAdd (v : Nat) (s : State) : State :=
  timStep 1 v s (fun s => Ptp.ofFine ((s.ptp.fine : Int) + signed 32 (getF s Reg.TIM_OFFSET_OFFSET) * (2 : Int) ^ 32).toNat)

/-- The command whose effect is `timAdd`. -/
def execTimAdd (v : Nat) (s : State) : Out := .next (timAdd v s)

end Sys2Proof.Machine
end

