-- ==== Sys2Proof/Machine/Pair.lean ====
section
/-! DEFINITION. The redundant pair (chapter 12): the Landing interface (R329 to R337), roles (R327, R328, R335, R353, R354), the Gallery streams (R341 to R351), and what a standby
measures (R356). -/

namespace Sys2Proof.Machine

/-! ## Roles -/

/-- What follows a change of role: transmitters, relocks that waited, levels, and a resynchronisation (R47, R262, R350, R421). -/
def roleFollow (s t : State) : State :=
  let s1 := pairShow (settle s (waitShow (relockRelease t)))
  if role s1 == 1 && partnerIs s1 2 && !flag s1 Reg.PAIR_STAT_RESYNC_RUN then replayStart s1 else resyncAsk s1

/-- The switch-over gap ends with its last tick: the transmitters leave HELD and IDLE (R353). -/
def gapOver (s : State) : State :=
  if s.pair.gap.any (· ≤ s.tick) then settle s { s with pair := { s.pair with gap := none } } else s

/-- The card takes a role (Table 12-1), with a lease or without. It starts a role unsynchronised (R350); a card that becomes ACTIVE keeps no older items for replay, and a standby's waiting items go with its role. -/
def roleEnter (s : State) (r : Nat) (lease : Bool) : State :=
  let q := getF s Reg.PAIR_SEQ_TX_SEQ
  let s1 := setB (setB (setB (setF s Reg.PAIR_STAT_ROLE r) Reg.PAIR_STAT_SYNC false) Reg.PAIR_STAT_RESYNC_RUN false) Reg.PAIR_STAT_LEASE_VALID lease
  let p := { s1.pair with wait := [], retry := if r = 2 then [] else s1.pair.retry, replay := [], acked := q, sentTop := q, nextSend := cmdAfter q, due := [], galTx := mput [] s1.pair.galTx 2 [] }
  roleFollow s (setF { s1 with pair := p } Reg.PAIR_LAG_LAG 0)

/-- The card becomes WITHDRAWN; the reason is 1 WITHDRAW or 2 a digest mismatch (Table 12-15). -/
def withdrawNow (s : State) (why : Nat) : State := roleEnter (setF s Reg.PAIR_STAT_WD_REASON why) 3 false

/-- Does the partner's digest, or its valid alternate digest, match the card's own (R349)? -/
def digestMatches (s : State) (d : Bytes) : Bool :=
  let own := ownDigest s
  own == d || s.pair.pAlt == some own

/-- The digest is compared (R349): a standby whose ACTIVE partner's does not match goes to WITHDRAWN; DIGEST_MM clears when one matches. -/
def digestCheck (s : State) : State :=
  match s.pair.pDigest with
  | none => s
  | some d =>
    if role s == 2 && getF s Reg.PAIR_STAT_PARTNER_ROLE == 1 && !digestMatches s d then withdrawNow (setB s Reg.PAIR_STAT_DIGEST_MM true) 2
    else if flag s Reg.PAIR_STAT_DIGEST_MM && digestMatches s d then pairShow (setB s Reg.PAIR_STAT_DIGEST_MM false)
    else s

/-! ## Messages of the arbiter -/

/-- A Landing violation of Table 12-4 counts and is reported (R337). -/
def landingBad (s : State) (k : Nat) : State := report (bump s (Reg.PAIR_CNT k)) Src.landing landingLoc k

/-- ACK (Table 12-2): the TYPE, the EPOCH received and the STATUS. -/
def landingAck (s : State) (typ epoch status : Nat) : State := landingSend s 8 (typ * 2 ^ 40 + epoch * 2 ^ 24 + status * 2 ^ 16)

/-- A message is refused in the card's role (Table 12-3). -/
def landingRefused (s : State) (typ epoch : Nat) : State := landingAck (landingBad s 5) typ epoch 1

/-- A role message acts, in pair mode (Tables 12-1 and 12-3, R334, R335, R353, R354). -/
def roleMessage (s : State) (typ epoch reason : Nat) : State :=
  let done (t : State) : State := landingAck t typ epoch 0
  match typ, role s with
  | 2, 1 => pairShow (setB s Reg.PAIR_STAT_LEASE_VALID true)
  | 2, 3 => done (roleEnter s 1 true)
  | 3, 1 => digestCheck (done (roleEnter s 2 false))
  | 3, 2 => s
  | 3, 3 => if flag s Reg.PAIR_STAT_DIGEST_MM then landingRefused s typ epoch else digestCheck (done (roleEnter s 2 false))
  | 4, 1 => if s.pair.swAck = some epoch then s else done { s with pair := { s.pair with swAck := some epoch } }
  | 4, 2 =>
    let s1 := if flag s Reg.PAIR_STAT_SYNC then s else setB s Reg.PAIR_STAT_STALE true
    let s2 := setF s1 Reg.PAIR_SEQ_TX_SEQ (getF s1 Reg.PAIR_SEQ_APPLIED_SEQ)
    done (roleEnter { s2 with pair := { s2.pair with swAck := some epoch, gap := some (s.tick + min 512 Config.switchGap) } } 1 false)
  | 5, 3 => setF s Reg.PAIR_EPOCH_REASON reason
  | 5, _ => done (withdrawNow (setF s Reg.PAIR_EPOCH_REASON reason) 1)
  | _, _ => landingRefused s typ epoch

/-- Is a role message accepted in the card's role, not refused (Table 12-3)? -/
def roleAccepts (s : State) (typ : Nat) : Bool :=
  match typ with
  | 2 => role s != 2
  | 3 => !(role s == 3 && flag s Reg.PAIR_STAT_DIGEST_MM)
  | 4 => role s != 3
  | _ => true

/-- A message with the card's TAG (R332, R333): one whose EPOCH is current, and the first one accepted after a start whatever its EPOCH, is a heartbeat and acts. -/
def landingCurrent (s : State) (typ body : Nat) : State :=
  let e := bits body 8 16
  let ok := roleAccepts s typ
  if (s.pair.epochSeen || !ok) && decide (32767 < (e + 65536 - getF s Reg.PAIR_EPOCH_EPOCH) % 65536) then landingAck (landingBad s 3) typ e 2
  else
    let s1 := setF { s with pair := { s.pair with epochSeen := s.pair.epochSeen || ok } } Reg.PAIR_EPOCH_EPOCH e
    let s2 := levelOff (setB s1 Reg.PAIR_STAT_ARB_OK true) Src.arbLost
    let s3 := if typ ≠ 5 ∧ bits body 0 8 ≠ 0 then landingBad s2 4 else s2
    roleMessage s3 typ e (bits body 0 8)

/-- A message of TYPE `typ` arrives on ARB_RX (R329, R330, R337): the 16 bits before it, its BODY and its CRC as the pair of balls carries them, which ARB_RX_INV inverts. Without the sync word no
message begins. `framed` says that the 64 bits came without idle among them. A SOLO card ignores ARB_RX (Table 12-1). -/
def landing (sync typ body crc : Nat) (framed : Bool) (s : State) : State :=
  let rx (n v : Nat) : Nat := arbPolar s Reg.PAIR_LINK_CFG_ARB_RX_INV n v
  let body := rx 48 body
  let crc := rx 8 crc
  let w := typ * 2 ^ 48 + body
  if !powered s || role s == 0 || rx 16 sync != 0xF0C5 then s
  else if !framed || crc8 (beBytes 7 w) != crc then landingBad s 0
  else if typ < 2 ∨ 5 < typ then landingBad s 1
  else if bits body 24 24 ≠ s.otp.serial % 2 ^ 24 then landingBad s 2
  else landingCurrent s typ body

/-- LEASE (R334, R335), and any other TYPE that arrives (Table 12-4). -/
def execLease (typ : Fin 256) (msg : LandingBits) (crc : Fin 256) (framed : Bool) (s : State) : Out :=
  match msg with
  | ⟨sync, body⟩ => .next (landing sync typ body crc framed s)

/-- STANDBY (R335, R349). -/
def execStandby (msg : LandingBits) (crc : Fin 256) (framed : Bool) (s : State) : Out :=
  match msg with
  | ⟨sync, body⟩ => .next (landing sync 3 body crc framed s)

/-- SWITCH (R353, R354). -/
def execSwitch (msg : LandingBits) (crc : Fin 256) (framed : Bool) (s : State) : Out :=
  match msg with
  | ⟨sync, body⟩ => .next (landing sync 4 body crc framed s)

/-- WITHDRAW (R353). -/
def execWithdraw (msg : LandingBits) (crc : Fin 256) (framed : Bool) (s : State) : Out :=
  match msg with
  | ⟨sync, body⟩ => .next (landing sync 5 body crc framed s)

/-- ARB_LOSS (R332): ARB_LOSS_US have passed without a heartbeat. -/
def arbLoss (s : State) : State :=
  if role s == 0 || !flag s Reg.PAIR_STAT_ARB_OK then s else levelOn (setB s Reg.PAIR_STAT_ARB_OK false) Src.arbLost landingLoc 0

/-- The command whose effect is `arbLoss`. -/
def execArbLoss (s : State) : Out := .next (arbLoss s)

/-- LEASE_EXPIRE (R334): the lease ends without another LEASE; the role stays. -/
def leaseExpire (s : State) : State :=
  if role s == 1 && flag s Reg.PAIR_STAT_LEASE_VALID then pairShow (setB s Reg.PAIR_STAT_LEASE_VALID false) else s

/-- The command whose effect is `leaseExpire`. -/
def execLeaseExpire (s : State) : Out := .next (leaseExpire s)

/-! ## Messages to the arbiter -/

/-- HEALTH (R331, Table 12-2): status bits, the highest severity, and the counts since the last HEALTH. -/
def healthSend (s : State) : State :=
  if role s == 0 then s
  else
    let b (x : Bool) (k : Nat) : Nat := b2n x * 2 ^ k
    let st := b (flag s Reg.PAIR_STAT_SYNC) 47 + b (!flag s Reg.PAIR_STAT_DIGEST_MM) 46 + b (flag s Reg.PAIR_STAT_GALLERY_UP) 45 + b (flag s Reg.PAIR_STAT_ARB_OK) 44
    let body := st + maxSev s * 2 ^ 41 + s.pair.probeFail * 2 ^ 32 + s.pair.memFail * 2 ^ 24 + s.pair.margin * 2 ^ 16 + s.pair.lagPeak
    landingSend { s with pair := { s.pair with probeFail := 0, memFail := 0, lagPeak := getF s Reg.PAIR_LAG_LAG } } 6 body

/-- The command whose effect is `healthSend`. -/
def execHealthSend (s : State) : Out := .next (healthSend s)

/-- HELLO (R331, Table 12-2): PART cycles through 0, 1, 2. -/
def helloSend (s : State) : State :=
  if role s == 0 then s
  else
    let k := s.pair.helloPart
    let data := if k = 0 then s.otp.serial / 2 ^ 32 % 2 ^ 32 else if k = 1 then s.otp.serial % 2 ^ 32 else getF s Reg.FAB_NODE_ID + getF s Reg.PAIR_CFG_CARD_ID * 2 ^ 16
    landingSend { s with pair := { s.pair with helloPart := (k + 1) % 3 } } 1 (k * 2 ^ 46 + role s * 2 ^ 44 + b2n (flag s Reg.PAIR_STAT_SYNC) * 2 ^ 43 + data)

/-- The command whose effect is `helloSend`. -/
def execHelloSend (s : State) : Out := .next (helloSend s)

/-- FAULT_MSG_SEND (R531): the oldest waiting FAULT message is sent. -/
def faultMsgSend (s : State) : State :=
  match s.flt.msgs with
  | [] => s
  | (src, slice, die) :: r => landingFault { s with flt := { s.flt with msgs := r } } src slice die

/-- The command whose effect is `faultMsgSend`. -/
def execFaultMsgSend (s : State) : Out := .next (faultMsgSend s)

/-! ## HELLO on the Gallery link -/

/-- The digest that the host has put into PAIR_ALT_DIGEST. -/
def altDigest (s : State) : Bytes := (List.range 12).flatMap (fun k => leBytes 4 (rd s (Reg.PAIR_ALT_DIGEST k)).toNat)

/-- The alternate digest of a HELLO (R349, R398): the other digest while ARMED or in TRIAL, else the host's while ALT_VALID is 1. -/
def helloAlt (s : State) : Option Bytes :=
  if updState s = 4 ∨ updState s = 6 then some s.upd.otherDigest else if flag s Reg.PAIR_CTL_ALT_VALID then some (altDigest s) else none

/-- The numbers of a HELLO (Table 12-7): serial, role, CARD_ID, own digest, ALT_VALID and the alternate digest, SEQ_APPLIED, EPOCH. -/
def helloBody (h : GalHello) : List Nat :=
  [1, h.serial, h.role, h.cardId, beAt h.digest 0 48, b2n h.alt.isSome, beAt (h.alt.getD []) 0 48, h.applied, h.epoch]

/-- GALLERY_HELLO_SEND (R341, Table 12-7). -/
def galleryHelloSend (s : State) : State :=
  if !galRuns s || role s == 0 then s
  else
    let h : GalHello :=
      { serial := s.otp.serial, role := role s, cardId := getF s Reg.PAIR_CFG_CARD_ID, digest := ownDigest s, alt := helloAlt s, applied := getF s Reg.PAIR_SEQ_APPLIED_SEQ, epoch := getF s Reg.PAIR_EPOCH_EPOCH }
    galControl { s with pair := { s.pair with helloTx := some h } } (helloBody h)

/-- The command whose effect is `galleryHelloSend`. -/
def execGalleryHelloSend (s : State) : Out := .next (galleryHelloSend s)

/-- GALLERY_HELLO_RECEIVE (R340, R349, R350, R355): the partner's role and digests are taken. An active card whose partner has become STANDBY, or asks for it, sends REPLAY. -/
def galleryHelloReceive (partner : Nat) (digest : Bytes) (alt : Option Bytes) (resync : Bool) (s : State) : State :=
  if !galRuns s || role s == 0 || (galLanes s).isEmpty then s
  else
    let was := getF s Reg.PAIR_STAT_PARTNER_ROLE
    let s1 := setF { s with pair := { s.pair with pDigest := some digest, pAlt := alt, helloFresh := true } } Reg.PAIR_STAT_PARTNER_ROLE partner
    let s2 := pairShow (digestCheck (galFollow s1))
    let s3 := if role s2 == 1 && partnerIs s2 2 && (resync || was != 2) then replayStart s2 else s2
    resyncAsk s3

/-- The command whose effect is `galleryHelloReceive`. -/
def execGalleryHelloReceive (partner : Fin 4) (digest : Bytes) (alt : Option Bytes) (resync : Bool) (s : State) : Out :=
  .next (galleryHelloReceive partner digest alt resync s)

/-- GALLERY_LOSS (R340): GAL_LOSS_US have passed without a HELLO. -/
def galleryLoss (s : State) : State := galFollow { s with pair := { s.pair with helloFresh := false } }

/-- The command whose effect is `galleryLoss`. -/
def execGalleryLoss (s : State) : Out := .next (galleryLoss s)

/-! ## The CMD stream -/

/-- A record that cannot be applied (Table 12-11, row 10). -/
def recordBad (s : State) : State := report (bump s (Reg.PAIR_CNT 10)) Src.diverge galLoc 10

/-- The effect of a mirrored register write (Table 12-8) on this card's own register. -/
def mirroredAct (s : State) (a v : Nat) : State :=
  match (List.range 160).find? (fun p => a == Reg.LIN_PORT_CTL p), (List.range 160).find? (fun p => a == Reg.SCH_GATE_CTL p) with
  | some p, _ => adminSet s p (v % 4)
  | none, some p => gateCtl s p v
  | none, none =>
    if a = Reg.FAB_PROT_CTL then protCtl v s
    else match regRow a with
      | some r => writeRw s a v r.rw
      | none => s

/-- Do two commands name the same key of HOST or MAC? -/
def sameKey (c d : HostCmd) : Bool :=
  c.table == d.table && (if c.table = 4 then c.sub == d.sub && c.opnd.take 36 == d.opnd.take 36 else c.opnd.take 8 == d.opnd.take 8)

/-- The opcodes that the CMD stream carries (Table 12-8). -/
def cmdCarries (op : Nat) : Bool := op == 1 || op == 2 || op == 3 || op == 7 || op == 8 || (decide (0x10 ≤ op) && decide (op ≤ 0x15))

/-- A mirrored flush is taken into the standby's own queue; it has no completion of its own. -/
def mirrorFlush (c : HostCmd) (s : State) : Eng :=
  let st := flushStatus s c
  { st := st, s := if st = .ok then flushTake s (flushOf s { c with ring := 255 }) else s }

/-- An item takes effect on the standby (R345, R346). A status other than the one that it carries is a divergence; REHASH waits for a MOVE. -/
def itemApply (s : State) (x : CmdItem) : State :=
  match x with
  | .reg _ a v => if mirroredReg a then mirroredAct s a v else recordBad s
  | .table c st =>
    if !cmdCarries c.opcode then recordBad s
    else
      let s0 := { s with pair := { s.pair with retry := s.pair.retry.filter (fun d => !sameKey c d) } }
      let e := if c.opcode = 8 then mirrorFlush c s0 else mirrorEng c s0
      let s1 := if e.st.code = st then e.s else report (bump e.s (Reg.PAIR_CNT 11)) Src.diverge galLoc 11
      let s2 := if e.st = .rehash then { s1 with pair := { s1.pair with retry := s1.pair.retry ++ [c] } } else s1
      if c.opcode = 7 then retryAfterMove s2 c else s2

/-- PAIR_LAG: items received and not applied (Table 12-16), and its highest value since the last HEALTH. -/
def lagShow (s : State) : State :=
  let n := min 65535 s.pair.wait.length
  setPeak { s with pair := { s.pair with lagPeak := max s.pair.lagPeak n } } Reg.PAIR_LAG_LAG Reg.PAIR_LAG_PEAK n

/-- Items that follow the highest SEQ received in order join it. -/
def rxAdvance (s : State) : Nat → State
  | 0 => s
  | n + 1 =>
    let q := cmdAfter s.pair.rxSeq
    if (mfind s.pair.wait q).isSome then rxAdvance { s with pair := { s.pair with rxSeq := q } } n else s

/-- Item q arrives (R342): the next one in order is taken, one beyond it is held and answered with NACK, an older one is ignored. -/
def itemReceive (s : State) (q : Nat) (x : CmdItem) : State :=
  let ahead := (q + 2 ^ 32 - s.pair.rxSeq) % 2 ^ 32
  if ahead = 0 ∨ 2 ^ 31 ≤ ahead ∨ (mfind s.pair.wait q).isSome then s
  else
    let s1 := { s with pair := { s.pair with wait := mset s.pair.wait q (some x) } }
    let s2 := if q = cmdAfter s.pair.rxSeq then rxAdvance s1 s1.pair.wait.length else galControl (report (bump s1 (Reg.PAIR_CNT 8)) Src.gallery galLoc 0) [2, 2, cmdAfter s.pair.rxSeq]
    lagShow s2

/-- The next item in SEQ order takes effect, if it has been received (R345). -/
def itemNext (s : State) : State :=
  let q := cmdAfter (getF s Reg.PAIR_SEQ_APPLIED_SEQ)
  match mfind s.pair.wait q with
  | none => s
  | some x =>
    let s1 := setF { s with pair := { s.pair with wait := merase s.pair.wait q } } Reg.PAIR_SEQ_APPLIED_SEQ q
    perf (lagShow (itemApply s1 x)) 84 6

/-- CMD_ITEM_APPLY (R342, R345, R346): an item arrives, if one does, and the next one in order is applied. During a resynchronisation a command changes a region that has been
replayed, and is applied as it comes (R351). -/
def cmdItemApply (rx : Option (Nat × CmdItem)) (s : State) : State :=
  if role s != 2 then s
  else if flag s Reg.PAIR_STAT_RESYNC_RUN then
    match rx with
    | none => s
    | some (q, x) =>
      let s1 := setF { s with pair := { s.pair with rxSeq := q } } Reg.PAIR_SEQ_APPLIED_SEQ q
      perf (itemApply s1 x) 84 6
  else
    match rx with
    | none => itemNext s
    | some (q, x) => itemNext (itemReceive s q x)

/-- The command whose effect is `cmdItemApply`. -/
def execCmdItemApply (rx : Option (Nat × CmdItem)) (s : State) : Out := .next (cmdItemApply rx s)

/-- A NACK names a SEQ of REPLAY: the region of the lost cell is sent again, and those after it (R351, Table 12-7). -/
def replayAgain (s : State) (q : Nat) : State :=
  match (s.pair.replayFrom.filter (fun e => decide (e.2 ≤ q))).getLast? with
  | some (r, q0) =>
    if flag s Reg.PAIR_STAT_RESYNC_RUN then
      { s with pair := { s.pair with galTx := mput [] s.pair.galTx 4 [], galSeq := mput 0 s.pair.galSeq 4 q0, replayReg := r, replayFrom := s.pair.replayFrom.filter (fun e => decide (e.2 < q0)) } }
    else s
  | none => s

/-- NACK_RECEIVE (R342, R350, R351): the active card sends again from the SEQ named, or resynchronises the standby when its replay buffer no longer holds it. `replay` says that the SEQ is one of REPLAY. -/
def nackReceive (q : Nat) (replay : Bool) (s : State) : State :=
  if role s != 1 || !partnerIs s 2 then s
  else if replay then replayAgain s q
  else if (mfind s.pair.replay q).isSome then { s with pair := { s.pair with nextSend := q } }
  else replayStart s

/-- The command whose effect is `nackReceive`. -/
def execNackReceive (ask : NackAsk) (s : State) : Out :=
  match ask with
  | ⟨q, replay⟩ => .next (nackReceive q replay s)

/-- ACK_STALL (R342): items are outstanding and ACK_SEQ has not advanced, so they are sent again from the oldest. -/
def ackStall (s : State) : State :=
  if role s == 1 && partnerIs s 2 && s.pair.acked != getF s Reg.PAIR_SEQ_TX_SEQ then { s with pair := { s.pair with nextSend := cmdAfter s.pair.acked } } else s

/-- The command whose effect is `ackStall`. -/
def execAckStall (s : State) : Out := .next (ackStall s)

/-! ## Snapshots and baselines -/

/-- Does the active card send STATE and BASELINE: to a standby, and not during a resynchronisation (R347, R351)? -/
def deltaRuns (s : State) : Bool := role s == 1 && partnerIs s 2 && !flag s Reg.PAIR_STAT_RESYNC_RUN

/-- Cells of a stream that carry `n` records, 15 to a cell, record k as the numbers that `f` gives (R347). -/
def recordCells (stream seq n : Nat) (f : Nat → List Nat) : List GalCell :=
  (List.range (ceilDiv n 15)).map (fun c => { stream := stream, seq := seq, body := (upFrom (15 * c) (min 15 (n - 15 * c))).flatMap f })

/-- A TE as a snapshot gives it (R347): the offset from the instant in epoch ticks with 8 fractional bits, as 64 bits. -/
def teOffset (s : State) (te : Nat) : Nat := ofSigned 64 (((te : Int) - epochFine s) / 2 ^ 24)

/-- A record of a snapshot (R347): 1, a policer and its two levels; 2, a node with its TE_MIN and TE_MAX. -/
def touchRecord (s : State) (k : Nat) : List Nat :=
  if k % 2 = 0 then (let v := tabGet s Tab.policer (k / 2); [1, k / 2, bits v 21 30, bits v 51 30])
  else [2, k / 2, teOffset s (nodeSt s (k / 2)).teMin, teOffset s (nodeSt s (k / 2)).teMax]

/-- Queues cells for the Gallery link. -/
def galQueue (s : State) (k : Nat) (l : List GalCell) : State := { s with pair := { s.pair with galTx := mput [] s.pair.galTx k (mget [] s.pair.galTx k ++ l) } }

/-- STATE_SNAPSHOT (R347): the WRED generator, and up to 131,071 policers and nodes touched, those touched longest ago first; the others count STATE_LATE and wait. Policers are
brought to the instant. -/
def stateSnapshot (s : State) : State :=
  if !deltaRuns s then s
  else
    let now := s.pair.due.take 131071
    let later := s.pair.due.drop 131071
    let s1 := now.foldl (fun a k => if k % 2 = 0 ∧ tabValid a Tab.policer (k / 2) then polFill a (k / 2) else a) s
    let s2 := bumpN { s1 with pair := { s1.pair with due := later, snap := (s1.pair.snap + 1) % 2 ^ 32 } } (Reg.PAIR_CNT 12) later.length
    galQueue s2 3 (recordCells 3 s.pair.snap (now.length + 1) (fun k => if k = 0 then [0, s.qd.wredGen] else touchRecord s1 (now.getD (k - 1) 0)))

/-- The command whose effect is `stateSnapshot`. -/
def execStateSnapshot (s : State) : Out := .next (stateSnapshot s)

/-- The entries of a direct table. -/
def tabCount (t : Nat) : Nat := match tabInfo t with | some x => x.count | none => 0

/-- The instant of the last snapshot in PTP time, in ns: a multiple of STATE_US (R347). -/
def snapInstant (s : State) : Nat := s.ptp.total - s.ptp.total % (max 10 (getF s Reg.PAIR_MIRROR_CFG_STATE_US) * 1000)

/-- A policer takes the levels of the snapshot, with the snapshot instant as its last update (R347). -/
def polRestore (s : State) (i c e : Nat) : State :=
  let v := withBits (withBits (withBits (tabGet s Tab.policer i) 21 30 c) 51 30 e) 81 47 (snapInstant s % 2 ^ 47)
  let s1 := tabPut s Tab.policer i v
  { s1 with tab := { s1.tab with polRem := merase s1.tab.polRem i } }

/-- A node takes TE := now + offset, in epoch ticks with 8 fractional bits, on its own epoch (R347). -/
def nodeRestore (s : State) (i : Nat) (a b : Int) : State :=
  let te (x : Int) : Nat := ((epochFine s : Int) + x * 2 ^ 24).toNat
  putTe s i { nodeSt s i with teMin := te a, teMax := te b }

/-- STATE_RECORD_APPLY (R347, Table 12-11): kind 0 is the WRED generator, 1 a policer, 2 a node; none is a STATE cell that was lost. -/
def stateRecordApply (r : Option (Nat × Nat × Int × Int)) (s : State) : State :=
  if role s != 2 then s
  else match r with
    | none => bump s (Reg.PAIR_CNT 13)
    | some (k, i, a, b) =>
      let s1 := perf s 84 7
      if k = 0 then { s1 with qd := { s1.qd with wredGen := a.toNat % 2 ^ 32 } }
      else if k = 1 ∧ i < tabCount Tab.policer then polRestore s1 i a.toNat b.toNat
      else if k = 2 ∧ i < tabCount Tab.schTree then nodeRestore s1 i a b
      else recordBad s

/-- The command whose effect is `stateRecordApply`. -/
def execStateRecordApply (r : Option (Nat × Nat × Int × Int)) (s : State) : Out := .next (stateRecordApply r s)

/-- BASELINE_LATCH (R348): both cards latch every pair; the active card sends its values. -/
def baselineLatch (s : State) : State :=
  if role s == 0 then s
  else
    let s1 := { s with pair := { s.pair with latched := s.cnt.pairs.map (fun e => (e.1, (e.2.frames, e.2.bytes))) } }
    if deltaRuns s then galQueue s1 5 (recordCells 5 s.pair.snap 2097152 (fun k => let x := mget {} s.cnt.pairs k; [k, x.frames, x.bytes])) else s1

/-- The command whose effect is `baselineLatch`. -/
def execBaselineLatch (s : State) : Out := .next (baselineLatch s)

/-- BASELINE_APPLY (R348): the offset of a pair becomes the active card's value less this card's own, modulo the counter widths. -/
def baselineApply (i frames bytes : Nat) (s : State) : State :=
  if role s != 2 then s
  else if 2097152 ≤ i then recordBad s
  else
    let (f, b) := mget (0, 0) s.pair.latched i
    let o := ((frames + 2 ^ 40 - f) % 2 ^ 40, (bytes + 2 ^ 56 - b) % 2 ^ 56)
    { s with cnt := { s.cnt with offset := mput (0, 0) s.cnt.offset i o } }

/-- The command whose effect is `baselineApply`. -/
def execBaselineApply (i frames bytes : Nat) (s : State) : Out := .next (baselineApply i frames bytes s)

/-! ## Resynchronisation -/

/-- The effect of a write of PAIR_CTL (R350, Table 12-14): ALT_VALID is stored, and RESYNC starts a resynchronisation when the partner is in the other role. -/
def pairCtl (s : State) (v : Nat) : State :=
  let s1 := setB s Reg.PAIR_CTL_ALT_VALID (bit v 1)
  if !bit v 0 then s1
  else if role s1 == 1 && getF s1 Reg.PAIR_STAT_PARTNER_ROLE == 2 then (if partnerIs s1 2 then replayStart s1 else s1)
  else if role s1 == 2 && getF s1 Reg.PAIR_STAT_PARTNER_ROLE == 1 then syncLost s1
  else s1

/-- RESYNC: a write of PAIR_CTL with RESYNC = 1. -/
def resync (v : Nat) (s : State) : State := operWrite s Reg.PAIR_CTL (Nat.lor v 1) (fun s => pairCtl s (Nat.lor v 1))

/-- The command whose effect is `resync`. -/
def execResync (v : Nat) (s : State) : Out := .next (resync v s)

/-- Regions whose turn has come are applied, in the order of their SEQ (R340). -/
def replayRun : Nat → State → State
  | 0, s => s
  | n + 1, s =>
    let q := s.pair.replayAt
    match mfind s.pair.replayHeld q with
    | none => s
    | some l => replayRun n (l.foldl itemApply { s with pair := { s.pair with replayAt := (q + 1) % 2 ^ 32, replayHeld := merase s.pair.replayHeld q } })

/-- A resynchronisation begins on the standby: one that runs goes on, and a REPLAY that arrives while none runs tells that the partner has begun one (R351). -/
def replayOpen (s : State) : State :=
  if flag s Reg.PAIR_STAT_RESYNC_RUN then s
  else pairShow { setB (setB s Reg.PAIR_STAT_SYNC false) Reg.PAIR_STAT_RESYNC_RUN true with pair := { s.pair with replayAt := 0, replayHeld := [] } }

/-- REPLAY_REGION (R340, R351, Table 12-11): the region of REPLAY with SEQ q arrives at the standby: it is applied in its turn; one beyond the next expected is held and answered with NACK, and an older
one is ignored. -/
def replayRegion (q : Nat) (items : List CmdItem) (s : State) : State :=
  if role s != 2 || !flag s Reg.PAIR_STAT_GALLERY_UP then s
  else
    let s0 := replayOpen s
    let ahead := (q + 2 ^ 32 - s0.pair.replayAt) % 2 ^ 32
    if 2 ^ 31 ≤ ahead then s0
    else
      let s1 := { s0 with pair := { s0.pair with replayHeld := mset s0.pair.replayHeld (q % 2 ^ 32) (some items) } }
      if ahead = 0 then replayRun (s1.pair.replayHeld.length) s1
      else galControl (report (bump s1 (Reg.PAIR_CNT 8)) Src.gallery galLoc 0) [2, 4, s0.pair.replayAt]

/-- The command whose effect is `replayRegion`. -/
def execReplayRegion (part : ReplayPart) (s : State) : Out :=
  match part with
  | ⟨q, items⟩ => .next (replayRegion q items s)

/-- RESYNC_COMPLETE (R350, R351): every region has been replayed, and the delta stream goes on after SEQ `q`. -/
def resyncComplete (q : Nat) (s : State) : State :=
  if !flag s Reg.PAIR_STAT_RESYNC_RUN then s
  else
    let s1 := setB s Reg.PAIR_STAT_RESYNC_RUN false
    if role s == 2 then
      let s2 := setF { s1 with pair := { s1.pair with rxSeq := q % 2 ^ 32, wait := [] } } Reg.PAIR_SEQ_APPLIED_SEQ q
      pairShow (bump (setB (setF s2 Reg.PAIR_LAG_LAG 0) Reg.PAIR_STAT_SYNC true) (Reg.PAIR_CNT 15))
    else s1

/-- The command whose effect is `resyncComplete`. -/
def execResyncComplete (q : Nat) (s : State) : Out := .next (resyncComplete q s)

/-! ## Standby self-test -/

/-- MARGIN_MEASURE (R356): receiver margins in percent, of the lanes in service. -/
def marginMeasure (margins : List Nat) (s : State) : State :=
  if role s != 2 || getF s Reg.PAIR_STBY_CFG_MARGIN_MS == 0 then s
  else { s with pair := { s.pair with margin := (margins.map (min 255)).foldl min 255 } }

/-- The command whose effect is `marginMeasure`. -/
def execMarginMeasure (margins : List Nat) (s : State) : Out := .next (marginMeasure margins s)

/-- GALLERY_LANE_CALIBRATION (R338): calibration and link training of a Gallery lane in BRINGUP, in pair mode, are complete and the lane runs, or they fail, for want of RCAL_FAB among other causes (R474). -/
def galleryLaneCalibration (l : Fin 4) (ok : Bool) (s : State) : State :=
  if s.top != .bringup || !galRuns s || !bit (getF s Reg.PAIR_CFG_GAL_LANE_EN) l then s
  else if ok && rcalOk s 1 then galFollow { s with pair := { s.pair with galUp := l :: s.pair.galUp.erase l } }
  else galFollow (galLaneOut s l)

/-- The command whose effect is `galleryLaneCalibration`. -/
def execGalleryLaneCalibration (l : Fin 4) (ok : Bool) (s : State) : Out := .next (galleryLaneCalibration l ok s)

end Sys2Proof.Machine
end

