-- ==== Sys2Proof/Machine/Test.lean ====
section
/-! DEFINITION. Test access (chapter 23): the test access port (R572 to R576), lane generators, checkers and loopbacks (R577 to R581), probe frames (R582, R583, R356), and the arming
of memory injection (R587). -/

namespace Sys2Proof.Machine

/-! ## The test access port -/

/-- The opcodes of Table 23-2 that drive balls. -/
def tapDriving (op : Nat) : Bool := op == 0x00 || op == 0x03 || op == 0x04 || op == 0x05 || op == 0x06 || op == 0x82

/-- Does the life cycle let an instruction be loaded (Table 23-2)? -/
def tapOpen (s : State) (op : Nat) : Bool :=
  if op = 0x80 ∨ op = 0x81 then s.boot.lc == .factory || s.boot.lc == .returned
  else if op = 0x82 then s.boot.lc == .factory && flag s Reg.TST_STAT_FTEST_EN
  else true

/-- What the balls with boundary-scan cells carry under an instruction in force (R574 to R576). -/
def tapPins (s : State) (op : Nat) : TapPins :=
  match op with
  | 0x00 => .bscan s.tst.bscan
  | 0x03 => .pulse s.tst.bscan
  | 0x04 => .train s.tst.bscan
  | 0x05 => .bscan s.tst.bscan
  | 0x06 => .highz
  | 0x82 => .chains
  | _ => .device

/-- The data register that an instruction selects and the value that it captures (Table 23-2); what the spec does not give is free. -/
def tapData (s : State) (op : Nat) : (Nat × Nat) × State :=
  let open_ (len : Nat) : (Nat × Nat) × State := let (v, s1) := freshNat s; ((len, v), s1)
  match op with
  | 0x01 => ((32, idcodeOf s.otp), s)
  | 0x07 => ((64, s.otp.serial), s)
  | 0x00 => open_ Config.bscanLen
  | 0x02 => open_ Config.bscanLen
  | 0x03 => open_ Config.bscanLen
  | 0x04 => open_ Config.bscanLen
  | 0x80 => open_ 32
  | 0x81 => open_ 64
  | 0x82 => open_ Config.scanLen
  | _ => ((1, 0), s)

/-- An instruction is in force. -/
def tapForce (s : State) (op : Nat) : State :=
  let (d, s1) := tapData s op
  let s2 := setB (setF { s1 with tst := { s1.tst with dr := d, pins := tapPins s op } } Reg.TST_STAT_INSTR op) Reg.TST_STAT_PIN_DRIVE (tapDriving op)
  if op = 0x02 then let (v, s3) := freshNat s2; { s3 with tst := { s3.tst with bscan := v } } else s2

/-- SCAN is left, by another instruction or a TAP reset: the device enters RESET as if RESET_L had gone low (R575). -/
def scanLeft (s t : State) : State := if getF s Reg.TST_STAT_INSTR = 0x82 ∧ getF t Reg.TST_STAT_INSTR ≠ 0x82 ∧ s.top ≠ .reset then resetEnter 2 t else t

/-- An instruction is loaded (R574, R575): one that is not open, or that drives balls in RUN, acts as BYPASS and counts JTAG_REFUSED. The TAP works from RESET until OFF (R572). -/
def tapLoad (op : Nat) (s : State) : State :=
  if s.top == .off then s
  else if tapOpen s op && !(tapDriving op && s.top == .run) then scanLeft s (tapForce s op)
  else scanLeft s (bump (tapForce s 0xFF) (Reg.TST_CNT 3))

/-- TAP_RESET (R572, R573): IDCODE is in force. -/
def tapReset (s : State) : State := if s.top == .off then s else scanLeft s (tapForce s 0x01)

/-- The command whose effect is `tapReset`. -/
def execTapReset (s : State) : Out := .next (tapReset s)

/-- EXTEST (R575): the balls carry the boundary-scan register. -/
def execExtest (s : State) : Out := .next (tapLoad 0x00 s)

/-- IDCODE (R573). -/
def execIdcode (s : State) : Out := .next (tapLoad 0x01 s)

/-- SAMPLE/PRELOAD (R574): the boundary-scan register takes a word for the instructions that drive. -/
def execSamplePreload (s : State) : Out := .next (tapLoad 0x02 s)

/-- EXTEST_PULSE (R576). -/
def execExtestPulse (s : State) : Out := .next (tapLoad 0x03 s)

/-- EXTEST_TRAIN (R576). -/
def execExtestTrain (s : State) : Out := .next (tapLoad 0x04 s)

/-- CLAMP (R574). -/
def execClamp (s : State) : Out := .next (tapLoad 0x05 s)

/-- HIGHZ (R574). -/
def execHighz (s : State) : Out := .next (tapLoad 0x06 s)

/-- SERIAL (R574): the serial number of R379. -/
def execSerial (s : State) : Out := .next (tapLoad 0x07 s)

/-- MBIST (R574). -/
def execMbist (s : State) : Out := .next (tapLoad 0x80 s)

/-- OTP_READ (R574). -/
def execOtpRead (s : State) : Out := .next (tapLoad 0x81 s)

/-- SCAN (R574, R575). -/
def execScan (s : State) : Out := .next (tapLoad 0x82 s)

/-- BYPASS (R574). -/
def execBypass (s : State) : Out := .next (tapLoad 0xFF s)

/-! ## Lane tests -/

/-- Do the conditions of R577 hold for test entry x (TST_LANE_STAT.ACTING)? -/
def laneActs (s : State) (x : Nat) : Bool :=
  if x < 160 then testReady s (x / 8) && !laneOos s (x / 8) (x % 8) && (upFrom (x / 8 * 8) 8).any (fun p => txNow s p != 0 && (portLanes s p).contains (x % 8))
  else if x < 384 then testReady s (20 + (x - 160) / 28) && laneUsable s ((x - 160) / 28) ((x - 160) % 28) && fabTxNow s ((x - 160) / 28) != 0
  else s.top == .run && galUsable s (x - 384)

/-- Does a word of TST_LANE_CFG leave its lane in normal operation? -/
def laneNormal (v : Nat) : Bool := !bit v 0 && !bit v 3 && bits v 6 2 == 0

/-- A lane returns to normal operation (R581): the ports of a line lane relock, a fabric or Gallery lane realigns. -/
def laneRestore (s : State) (x : Nat) : State :=
  if x < 160 then ((upFrom (x / 8 * 8) 8).filter (fun p => portPresent s p && (portLanes s p).contains (x % 8))).foldl retrainStart s
  else
    let l := x - 160
    let y := mget {} s.fab.rx l
    { s with fab := { s.fab with rx := mput {} s.fab.rx l { y with inFrame := false, fasRun := 0, inMf := false, mfRun := 0, trail := none, bip := none } } }

/-- What is under way in the loopbacks of a lane's ports, or of the lane, is lost. -/
def laneLoopDrop (s : State) (x : Nat) : State :=
  if x < 160 then ((upFrom (x / 8 * 8) 8).filter (fun p => (portLanes s p).contains (x % 8))).foldl loopDrop s else loopDrop s x

/-- LANE_TEST_CONFIG (R577 to R581): a write of TST_LANE_CFG[x]. GEN_EN with SERIAL_FAR and CHK_EN with PCS_NEAR are refused. A checker that stops or changes pattern is no longer
locked. -/
def laneTestConfig (x v : Nat) (s : State) : State :=
  let a := Reg.TST_LANE_CFG x
  operWrite s a v (fun s =>
    if (bit v 0 && bits v 6 2 == 3) || (bit v 3 && bits v 6 2 == 2) then pwfTarget s a v
    else
      let old := (rd s a).toNat
      let s1 := wr s a (Word.ofNat (v % 256))
      let s2 := if bits v 3 3 = bits old 3 3 then s1 else setB s1 (Reg.TST_LANE_STAT_LOCK x) false
      let s3 := if bits v 6 2 = bits old 6 2 then s2 else laneLoopDrop s2 x
      let s4 := if laneNormal v && !laneNormal old && laneActs s x then laneRestore s3 x else s3
      galFollow (settle s s4))

/-- The command whose effect is `laneTestConfig`. -/
def execLaneTestConfig (x : Fin 388) (v : Nat) (s : State) : Out := .next (laneTestConfig x v s)

/-- Does the checker of entry x act? -/
def checkerActs (s : State) (x : Nat) : Bool := laneActs s x && chkSet s x

/-- CHECKER_LOCK_CHANGE (R579): a checker that acts gains or loses LOCK. -/
def checkerLockChange (x : Nat) (locked : Bool) (s : State) : State :=
  if !checkerActs s x then s
  else if locked then setB s (Reg.TST_LANE_STAT_LOCK x) true
  else if flag s (Reg.TST_LANE_STAT_LOCK x) then setB (setB s (Reg.TST_LANE_STAT_LOCK x) false) (Reg.TST_LANE_STAT_LOCK_LOST x) true
  else s

/-- The command whose effect is `checkerLockChange`. -/
def execCheckerLockChange (x : Fin 388) (locked : Bool) (s : State) : Out := .next (checkerLockChange x locked s)

/-- CHECKER_BIT_ERROR (R579): `n` bit errors count while LOCK is 1. -/
def checkerBitError (x n : Nat) (s : State) : State := if checkerActs s x && flag s (Reg.TST_LANE_STAT_LOCK x) then bumpN s (Reg.TST_LANE_ERR x) n else s

/-- The command whose effect is `checkerBitError`. -/
def execCheckerBitError (x : Fin 388) (n : Nat) (s : State) : Out := .next (checkerBitError x n s)

/-! ## Probe frames -/

/-- The lowest present port of line group n. -/
def firstPort (s : State) (n : Nat) : Option Nat := (upFrom (8 * n) 8).find? (portPresent s)

/-- The probe frame of pipeline n (Table 23-4). -/
def probeFrame (s : State) (n p : Nat) : Bytes :=
  let q := s.tst.probeSeq
  let b := fit 120 (List.replicate 6 0 ++ beBytes 6 (portMac s p) ++ beBytes 2 0x88B5 ++ [byteOf n, 0] ++ beBytes 4 q ++ beBytes 4 s.ptp.sec ++ beBytes 4 s.ptp.ns ++ Config.probeFill q)
  let c := b ++ beBytes 4 (crc32c b)
  c ++ fcs c

/-- A probe is sent into pipeline n as a host frame of port 160 (R583): never for a slice that is not in SERVICE, or a group with no present port. -/
def probeSend (standby : Bool) (s : State) (n : Nat) : State :=
  match firstPort s n with
  | none => s
  | some p =>
    if sliceState s n ≠ 1 then s
    else
      let q := s.tst.probeSeq
      let x : Probe := { pipe := n, standby := standby, bytes := probeFrame s n p }
      let s1 := bump { s with tst := { s.tst with probes := mset s.tst.probes q (some x), probeSeq := (q + 1) % 2 ^ 32 } } (Reg.TST_CNT 0)
      let b := x.bytes.take (x.bytes.length - 4)
      enterPipe s1 n { port := 160, orig := 160, bytes := b, first := b, rx := {}, probe := some q }

/-- PROBE_GO (R583, Table 23-7): a write of TST_PROBE_CTL with GO = 1. -/
def probeGo (v : Nat) (s : State) : State :=
  let w := Nat.lor v 1
  operWrite s Reg.TST_PROBE_CTL w (fun s =>
    let s1 := setF s Reg.TST_PROBE_CTL_PIPE (bits w 1 5)
    if s.top != .run then s1 else if 20 ≤ bits w 1 5 then bump s1 (Reg.TST_CNT 2) else probeSend false s1 (bits w 1 5))

/-- The command whose effect is `probeGo`. -/
def execProbeGo (v : Nat) (s : State) : Out := .next (probeGo v s)

/-- STANDBY_PROBE (R356): one probe per pipeline of a standby, every PROBE_US. -/
def standbyProbe (s : State) : State :=
  if s.top != .run || role s != 2 || getF s Reg.PAIR_STBY_CFG_PROBE_US == 0 then s else (List.range 20).foldl (probeSend true) s

/-- The command whose effect is `standbyProbe`. -/
def execStandbyProbe (s : State) : Out := .next (standbyProbe s)

/-- The oldest probe of pipeline n that is under way. -/
def probeOf (s : State) (n : Nat) : Option (Nat × Probe) := s.tst.probes.find? (fun e => e.2.pipe == n)

/-- PROBE_CAPTURE (R583): the frame of the oldest admitted probe of a pipeline is captured at the line MAC, intact or not. -/
def probeCapture (n : Nat) (frame : Bytes) (s : State) : State :=
  match s.tst.probes.find? (fun e => e.2.pipe == n && e.2.buf.isSome) with
  | none => s
  | some (q, x) => if frame = x.bytes then bump (probeEnd s q x) (Reg.TST_CNT 1) else probeFail (probeEnd s q x) x

/-- The command whose effect is `probeCapture`. -/
def execProbeCapture (n : Fin 20) (frame : Bytes) (s : State) : Out := .next (probeCapture n frame s)

/-- PROBE_TIMEOUT (R583): a probe has not returned intact within 100 µs. -/
def probeTimeout (n : Nat) (s : State) : State :=
  match probeOf s n with
  | none => s
  | some (q, x) => probeFail (probeEnd s q x) x

/-- The command whose effect is `probeTimeout`. -/
def execProbeTimeout (n : Fin 20) (s : State) : Out := .next (probeTimeout n s)

/-! ## Memory injection -/

/-- Does a location code name a word of scratch memory (Table 19-1)? -/
def scrNamed (loc : Nat) : Bool :=
  let low := decide (bits loc 8 12 < 1024)
  bits loc 42 6 == 0 && low &&
    ((decide (locSliceOf loc < 20) && bits loc 31 5 == 3 && decide (bits loc 26 5 < 8) && decide (bits loc 20 6 < 16))
      || (locSliceOf loc == 63 && decide (bits loc 31 5 < 8)))

/-- A write of TST_MEMINJ_CTL (R584, R587): it acts in FACTORY, and arms only a word that the location code names. -/
def meminjCtl (s : State) (v : Nat) : State :=
  let loc := rdPair s Reg.TST_MEMINJ_LOC_LO Reg.TST_MEMINJ_LOC_HI % 2 ^ 48
  if s.boot.lc != .factory || (bit v 8 && !scrNamed loc && !(wordCode loc && Config.memNamed loc)) then pwfTarget s Reg.TST_MEMINJ_CTL v
  else setB (setF s Reg.TST_MEMINJ_CTL_MASK v) Reg.TST_MEMINJ_CTL_ARM (bit v 8)

/-- MEMORY_INJECT_ARM: a write of TST_MEMINJ_CTL with ARM = 1. -/
def memoryInjectArm (v : Nat) (s : State) : State :=
  let w := Nat.lor v (2 ^ 8)
  operWrite s Reg.TST_MEMINJ_CTL w (fun s => meminjCtl s w)

/-- The command whose effect is `memoryInjectArm`. -/
def execMemoryInjectArm (v : Nat) (s : State) : Out := .next (memoryInjectArm v s)

end Sys2Proof.Machine
end

