-- ==== Sys2Proof/Machine/Views.lean ====
section
/-! DEFINITION. What a register shows to a read (R10, R589 to R593): the stored word, and the fields that are a view of other state. -/

namespace Sys2Proof.Machine

/-- The index of an offset among `n` registers `stride` apart from `base`. -/
def nth (base stride n a : Nat) : Option Nat :=
  if base ≤ a ∧ (a - base) % stride = 0 ∧ (a - base) / stride < n then some ((a - base) / stride) else none

/-- The two indices of an offset among registers at two strides. -/
def nth2 (base stride n stride2 m a : Nat) : Option (Nat × Nat) :=
  if base ≤ a ∧ (a - base) / stride < n then (nth 0 stride2 m ((a - base) % stride)).map (fun k => ((a - base) / stride, k)) else none

/-- A stored word with fields of other state laid over it. -/
def shown (w : Word) (l : List (Fld × Nat)) : Nat := (l.foldl (fun x e => fset x e.1.lo e.1.len e.2) w).toNat

/-- The number whose bit i says whether `p i`, for i below n. -/
def maskBy (n : Nat) (p : Nat → Bool) : Nat := ofOnes ((List.range n).filter p)

/-- Units of `u` bytes, rounded up. -/
def inUnits (u n : Nat) : Nat := ceilDiv n u

/-- The code of a top-level state (Table 24-5). -/
def topCode : TopState → Nat
  | .off => 0 | .reset => 1 | .load => 2 | .verify => 3 | .apply => 4 | .bringup => 5 | .run => 6 | .hold => 7

/-- DEV_STATE (Table 24-5, R473, R595). -/
def devState (s : State) : Nat :=
  let reason := if s.top = .hold then getF s Reg.BOOT_HOLD_STAT_REASON else 0
  topCode s.top + reason * 2 ^ 4 + s.pwr.cause * 2 ^ 12 + b2n s.boot.sealed * 2 ^ 15 + b2n s.pwr.tmSample * 2 ^ 16
    + b2n (s.pwr.tmSample && s.boot.lc == .factory) * 2 ^ 17

/-- DEV (R594 to R597). -/
def viewDev (s : State) (a : Nat) : Option Nat :=
  if a = Reg.DEV_ID then some (0x3240 + s.otp.rev % 16 * 2 ^ 16 + s.otp.step % 16 * 2 ^ 20)
  else if a = Reg.DEV_SERIAL_LO then some s.otp.serial
  else if a = Reg.DEV_SERIAL_HI then some (s.otp.serial / 2 ^ 32)
  else if a = Reg.DEV_STATE then some (devState s)
  else if a = Reg.DEV_STATE_TIME then some (min (2 ^ 32 - 1) ((s.tick - s.stateTick) / (1000 * ticksPerUs)))
  else if a = Reg.DEV_TICK_LO then some s.tick
  else if a = Reg.DEV_TICK_HI then some (s.tick / 2 ^ 32)
  else none

/-- The code of a life-cycle state (Table 13-9). -/
def lcCode : LifeCycle → Nat
  | .blank => 0 | .factory => 1 | .field => 2 | .returned => 3

/-- A key slot as BOOT_KEY_STAT shows it. -/
def keyStat (s : State) (k : Nat) : Nat :=
  match mfind s.otp.keys k with
  | some e => b2n (e.usage != 0) + e.usage % 8 * 2 + b2n e.revoked * 16
  | none => 0

/-- The identity of a die: lot, wafer, column, row (R379). -/
def dieId (s : State) (d : Nat) : Nat × Nat × Nat × Nat := if d = 0 then s.otp.die0 else s.otp.die1

/-- BOOT (R371 to R385). -/
def viewBoot (s : State) (a : Nat) : Option Nat :=
  if a = Reg.BOOT_STAT then some (shown (rd s a) [(Reg.BOOT_STAT_LC_STATE, lcCode s.boot.lc), (Reg.BOOT_STAT_RET_LEFT, countIf (fun e => e == (0, 0)) s.otp.returned)])
  else if a = Reg.BOOT_FLOOR 0 then some (floorOf s.otp.floorFw)
  else if a = Reg.BOOT_FLOOR 1 then some (floorOf s.otp.floorCfg)
  else if a = Reg.BOOT_FLOOR_LEFT then some (64 - s.otp.floorFw.length + (64 - s.otp.floorCfg.length) * 2 ^ 8)
  else match nth (Reg.BOOT_KEY_STAT 0) 4 4 a, nth (Reg.BOOT_DIE_ID_LO 0) 8 2 a, nth (Reg.BOOT_DIE_ID_HI 0) 8 2 a with
    | some k, _, _ => some (keyStat s k)
    | _, some d, _ => some (dieId s d).1
    | _, _, some d => let (_, wafer, x, y) := dieId s d; some (x % 256 + y % 256 * 2 ^ 8 + wafer % 32 * 2 ^ 16)
    | _, _, _ => none

/-- CLK_STAT.BYPASS and OUT_ERR (R416, R421, R428). -/
def viewClk (s : State) (a : Nat) : Option Nat :=
  if a = Reg.CLK_STAT then some (shown (rd s a) [(Reg.CLK_STAT_BYPASS, b2n (onBypass s 0 || onBypass s 1)), (Reg.CLK_STAT_OUT_ERR, b2n (clkoutErr s))]) else none

/-- Bit a: is an activity of the list one of kind a? -/
def actMask (l : List Maint) : Nat := maskBy 6 (fun k => l.any (fun m => m.act == k))

/-- PWR (R440 to R461, R559, R566 to R570). -/
def viewPwr (s : State) (a : Nat) : Option Nat :=
  if a = Reg.PWR_RAIL_STAT then
    some (shown (rd s a) [(Reg.PWR_RAIL_STAT_IN_RANGE, maskBy 7 (fun k => !s.pwr.railOut.contains k)), (Reg.PWR_RAIL_STAT_VIO18_OK, b2n (!flag s Reg.PWR_RAIL_STAT_VIO18_OC))])
  else if a = Reg.PWR_SLICE_SUM_LO then some (maskBy 40 (fun n => sliceState s n == 1))
  else if a = Reg.PWR_SLICE_SUM_HI then some (maskBy 40 (fun n => sliceState s n == 1) / 2 ^ 32)
  else if a = Reg.PWR_MAINT_STAT then
    some (Nat.lor (actMask s.slc.running) (b2n (flag s Reg.CNT_STAT_DUMP_RUN) * 2 ^ 4 + b2n (flag s Reg.FTB_FLUSH_STAT_RUNNING) * 2 ^ 5)
      + Nat.lor (actMask s.slc.due) (b2n (s.cnt.snaps.any (fun e => e.2.written == 0)) * 2 ^ 4 + b2n (!s.tab.flushes.isEmpty && !flag s Reg.FTB_FLUSH_STAT_RUNNING) * 2 ^ 5) * 2 ^ 8 + actMask (s.slc.due.filter (·.late)) * 2 ^ 16 + b2n (flag s (relockFld 0) || flag s (relockFld 1)) * 2 ^ 22)
  else none

/-- The slices under a SERVICE reaction (R529). -/
def isoMask (s : State) : Nat := maskBy 40 (fun n => s.flt.hold.any (fun e => e.2 == n))

/-- FLT_SRC_STAT of a source (Table 20-12). -/
def srcStat (s : State) (x : Nat) : Nat :=
  b2n (srcCause s x) + b2n (srcStatus s x) * 2 + b2n (s.flt.hold.any (fun e => e.1 == x)) * 4 + b2n (s.flt.injected.contains x) * 8

/-- FLT (R526 to R541). -/
def viewFlt (s : State) (a : Nat) : Option Nat :=
  if a = Reg.FLT_STAT then some (maxSev s + b2n (faultLow s) * 2 ^ 3 + b2n (s.flt.hold.any (fun e => e.2 == 63)) * 2 ^ 4)
  else if a = Reg.FLT_ISO_LO then some (isoMask s)
  else if a = Reg.FLT_ISO_HI then some (isoMask s / 2 ^ 32)
  else if a = Reg.FLT_NVLOG_STAT then some (shown (rd s a) [(Reg.FLT_NVLOG_STAT_HEAD, s.nvm.logHead), (Reg.FLT_NVLOG_STAT_WRAPPED, b2n s.nvm.logWrapped)])
  else match nth (Reg.FLT_SUM 0) 4 64 a, nth (Reg.FLT_SRC_STAT 0) 4 2048 a with
    | some w, _ => some (maskBy 32 (fun j => srcStatus s (32 * w + j)))
    | _, some x => some (srcStat s x)
    | _, _ => none

/-- A performance counter as its _LO and _HI show it (R547, R549). -/
def perfLo (s : State) (c : Nat) : Nat := mget 0 s.cnt.perf c
def perfHi (s : State) (c : Nat) : Nat := mget 0 s.cnt.perf c / 2 ^ 32 % 2 ^ 16 + b2n (s.cnt.perfOvf.contains c) * 2 ^ 16

/-- CNT. -/
def viewCnt (s : State) (a : Nat) : Option Nat :=
  match nth (Reg.CNT_PERF_LO 0) 8 2048 a, nth (Reg.CNT_PERF_HI 0) 8 2048 a with
  | some c, _ => some (perfLo s c)
  | _, some c => some (perfHi s c)
  | _, _ => none

/-- HIF_VF_ID (Table 18-19). -/
def viewHif (s : State) (a : Nat) : Option Nat :=
  (nth (Reg.HIF_VF_ID 0) 0x10000 256 a).map (fun f => f + b2n (flag s (Reg.HIF_FN_CFG_RINGS_EN f)) * 2 ^ 8)

/-- The port whose LIN registers an offset lies among (R38, R65). -/
def linPort (a : Nat) : Option Nat :=
  if 0x0800000 ≤ a ∧ a < 0x0940000 ∧ 0x1000 ≤ a % 0x10000 ∧ a % 0x10000 < 0x3000 then some ((a - 0x0800000) / 0x10000 * 8 + (a % 0x10000 - 0x1000) / 0x400) else none

/-- LIN: the registers of an absent port read 0 (R38), and LIN_GRP_STAT.SLEEP (Table 2-12). -/
def viewLin (s : State) (a : Nat) : Option Nat :=
  match linPort a with
  | some p => if portPresent s p then none else some 0
  | none => (nth (Reg.LIN_GRP_STAT 0) 0x10000 20 a).map (fun g => shown (rd s a) [(Reg.LIN_GRP_STAT_SLEEP g, b2n (sliceState s g == 4))])

/-- BUF (R180 to R204). -/
def viewBuf (s : State) (a : Nat) : Option Nat :=
  if a = Reg.BUF_OASIS_SUSED then some (inUnits 4096 (oasisUsed s false))
  else if a = Reg.BUF_OASIS_DUSED then some (inUnits 4096 (oasisUsed s true))
  else if a = Reg.BUF_MC_STAT then some (sharedDescs s)
  else match nth2 (Reg.BUF_POOL_STAT 0 0) 32 2 4 8 a, nth (Reg.BUF_REQ_SUSED 0) 8 32 a, nth (Reg.BUF_REQ_DUSED 0) 8 32 a, nth (Reg.BUF_TENANT_STAT 0) 4 256 a with
    | some (r, k), _, _, _ => some (poolUsed s r k % 2 ^ 28 + poolLevel s r k * 2 ^ 28)
    | _, some q, _, _ => some (inUnits 4096 (reqUsed s q false))
    | _, _, some q, _ => some (inUnits 4096 (reqUsed s q true))
    | _, _, _, some t => some (inUnits 4096 (tenantUsed s t))
    | _, _, _, _ => none

/-- CGM_PG_STAT (R215 to R217). -/
def viewCgm (s : State) (a : Nat) : Option Nat :=
  (nth2 (Reg.CGM_PG_STAT 0 0) 32 160 4 8 a).map (fun e =>
    min 16777215 (inUnits 1024 (pgUsed s e.1 e.2)) + b2n (bit (getF s (Reg.LIN_PORT_STAT_XOFF e.1)) e.2) * 2 ^ 31)

/-- SCH_EPOCH (R246). -/
def viewSch (s : State) (a : Nat) : Option Nat :=
  if a = Reg.SCH_EPOCH_LO then some (epochFine s / 2 ^ 32)
  else if a = Reg.SCH_EPOCH_HI then some (epochFine s / 2 ^ 64)
  else none

/-- Seconds of WTR left (R287, Table 10-17). -/
def wtrLeft (s : State) : Nat :=
  match s.fab.wtr with
  | some (_, t) => clamp 1 3600 (getF s Reg.FAB_PROT_CFG_WTR_S) - (s.tick - t) / (1000000 * ticksPerUs)
  | none => 0

/-- FAB (R261 to R291). -/
def viewFab (s : State) (a : Nat) : Option Nat :=
  if a = Reg.FAB_PROT_STAT then
    let l := locReq s
    let x := selReq s
    some (shown (rd s a) [(⟨a, 0, 4⟩, l.1), (⟨a, 4, 4⟩, l.2), (⟨a, 16, 4⟩, x.1), (⟨a, 20, 4⟩, x.2)])
  else if a = Reg.FAB_PROT_FLAGS then some (shown (rd s a) [(Reg.FAB_PROT_FLAGS_WTR_LEFT, wtrLeft s)])
  else match nth (Reg.FAB_GRP_STAT 0) 0x20000 8 a, nth2 (Reg.FAB_LANE_STAT 0 0) 0x20000 8 0x100 28 a with
    | some g, _ => some (shown (rd s a) [(Reg.FAB_GRP_STAT_RX_OK_CNT g, (rxOkLanes s g).length), (Reg.FAB_GRP_STAT_TX_OK_CNT g, countIf (laneTakes s g) (List.range 28))])
    | _, some (g, l) => some (shown (rd s a) [(Reg.FAB_LANE_STAT_RX_EXCL g l, b2n (!rxOk s g l)), (Reg.FAB_LANE_STAT_TX_EXCL g l, b2n (!laneTakes s g l))])
    | _, _ => none

/-- DRC_GLB_STAT (R312, Table 11-3). -/
def viewDrc (s : State) (a : Nat) : Option Nat :=
  if a = Reg.DRC_GLB_STAT then some (maskBy 24 (diServes s) + min 2 (pausing s) * 2 ^ 24) else none

/-- SCR_REPAIR_STAT and SCR_TEST_STAT (R519, R521); a step is over within its command. -/
def viewScr (s : State) (a : Nat) : Option Nat :=
  if a = Reg.SCR_REPAIR_STAT then some ((s.scr.spares.map (·.2)).sum + b2n s.scr.full * 2 ^ 18) else none

/-- PAIR_STAT.GAL_LANES and PAIR_DIGEST (R340, R349). -/
def viewPair (s : State) (a : Nat) : Option Nat :=
  if a = Reg.PAIR_STAT then some (shown (rd s a) [(Reg.PAIR_STAT_GAL_LANES, (galLanes s).length)])
  else (nth (Reg.PAIR_DIGEST 0) 4 12 a).map (fun k => leAt (ownDigest s) (4 * k) 4)

/-- Seconds of the trial window left (R399). -/
def windowLeft (s : State) : Nat := if updState s = 6 then s.upd.window.2 - (s.tick - s.upd.window.1) / (1000000 * ticksPerUs) else 0

/-- The highest erase count of any block (R405). -/
def topWear (s : State) : Nat := (s.nvm.wear.map (·.2)).foldl max 0

/-- UPD_WINDOW and UPD_WEAR_STAT (R399, R405, R407). -/
def viewUpd (s : State) (a : Nat) : Option Nat :=
  if a = Reg.UPD_WINDOW then some (windowLeft s)
  else if a = Reg.UPD_WEAR_STAT then some (min 65535 (topWear s / 1000) + b2n (atLimit s) * 2 ^ 16)
  else none

/-- TIM_NOW (R430). -/
def viewTim (s : State) (a : Nat) : Option Nat :=
  if a = Reg.TIM_NOW_LO then some s.ptp.ns
  else if a = Reg.TIM_NOW_HI then some s.ptp.sec
  else if a = Reg.TIM_NOW_EXT then some (s.ptp.sec / 2 ^ 32 % 2 ^ 16 + s.ptp.frac / 2 ^ 24 % 256 * 2 ^ 16)
  else none

/-- TST_LANE_STAT (R577, R579): LOCK is shown while the checker acts. -/
def viewTst (s : State) (a : Nat) : Option Nat :=
  (nth (Reg.TST_LANE_STAT 0) 8 388 a).map (fun x =>
    shown (rd s a) [(Reg.TST_LANE_STAT_LOCK x, b2n (flag s (Reg.TST_LANE_STAT_LOCK x) && checkerActs s x)), (Reg.TST_LANE_STAT_ACTING x, b2n (laneActs s x))])

/-- The view of an offset's block, none where the stored word is what the register shows. -/
def view (s : State) (a : Nat) : Option Nat :=
  match a / 0x100000 with
  | 0 => viewDev s a
  | 1 => viewBoot s a
  | 2 => viewClk s a
  | 3 => viewPwr s a
  | 4 => viewFlt s a
  | 5 => viewCnt s a
  | 8 => viewLin s a
  | 9 => viewLin s a
  | 16 => viewBuf s a
  | 17 => viewCgm s a
  | 18 => viewSch s a
  | 20 => viewFab s a
  | 21 => viewFab s a
  | 23 => viewDrc s a
  | 24 => viewScr s a
  | 25 => viewPair s a
  | 26 => viewUpd s a
  | 27 => viewTst s a
  | 28 => viewTim s a
  | _ => if 0x10000000 ≤ a then viewHif s a else none

/-- The blocks whose STATUS registers report from LOAD onwards (R592): DEV, BOOT, CLK, PWR, FLT and HIF. -/
def earlyBlock (a : Nat) : Bool := decide (a / 0x100000 ≤ 4) || a / 0x100000 == 6 || a / 0x100000 == 7 || decide (0x10000000 ≤ a)

/-- What a register shows (R9, R10, R592): an unassigned address reads 0, and a STATUS register of a block that has not started in BRINGUP its reset value. -/
def regShown (s : State) (a : Nat) : Nat :=
  match regRow a with
  | none => 0
  | some r =>
    if r.cls = .status ∧ !earlyBlock a ∧ !s.boot.up then (regReset a).toNat
    else (view s a).getD (rd s a).toNat % 2 ^ 32

end Sys2Proof.Machine
end

