-- ==== Sys2Proof/Machine/Regs.lean ====
section
/-! DEFINITION. Host accesses of BAR0 (R7 to R11, R500 to R505, R589 to R593): reads with their latches and clears, writes by seal class, the register pairs, and the writes that act (each as the row of the table that bears its rule). -/

namespace Sys2Proof.Machine

/-! ## Where a register stands -/

/-- The _LO register of every pair of R8, by first offset and strides; _HI is the next register. -/
def loRows : List (Nat × List (Nat × Nat)) := [
  (Reg.LIN_PORT_MAC_LO 0, [(0x10000, 20), (0x400, 8)]), (Reg.FTB_ECC_LOC_LO, []), (Reg.ACT_SMAC_LO 0, [(8, 256)]), (Reg.CGM_PWM_TIME_LO 0 0, [(0x80, 2), (0x10, 8)]),
  (Reg.CGM_QWM_TIME_LO 0, [(0x20, 4096)]), (Reg.SCH_EPOCH_LO, []), (Reg.SCH_GATE_CYCLE_LO 0, [(0x40, 160)]), (Reg.SCH_GATE_BASE_LO 0, [(0x40, 160)]),
  (Reg.SCH_GATE_CHG_LO 0, [(0x40, 160)]), (Reg.FAB_LANE_SERIAL_LO 0 0, [(0x20000, 8), (0x100, 28)]), (Reg.PAIR_PSERIAL_LO, []), (Reg.BOOT_PUSH_ADDR_LO, []),
  (Reg.BOOT_DIE_ID_LO 0, [(8, 2)]), (Reg.UPD_STAGE_ADDR_LO, []), (Reg.UPD_ACT_TIME_LO, []), (Reg.CLK_GATE_DIS_LO, []),
  (Reg.TIM_NOW_LO, []), (Reg.TIM_SET_LO, []), (Reg.TIM_INCR_LO, []), (Reg.TIM_PPS_CAP_LO, []),
  (Reg.PWR_HOLD_SEC_LO, []), (Reg.HIF_RING_BASE_LO 0 0, [(0x20, 44)]), (Reg.HIF_RING_BASE_LO 1 0, [(0x1000, 255), (0x20, 44)]),
  (Reg.HIF_RING_WB_LO 0 0, [(0x20, 44)]), (Reg.HIF_RING_WB_LO 1 0, [(0x1000, 255), (0x20, 44)]), (Reg.HIF_DATA_LO 0 0, [(0x10, 9)]),
  (Reg.HIF_DATA_LO 1 0, [(0x1000, 255), (0x10, 9)]), (Reg.SCR_ATOM_OPND_LO, []), (Reg.SCR_ATOM_RES_LO, []), (Reg.SCR_ERR_LOC_LO, []),
  (Reg.FLT_ISO_LO, []), (Reg.CNT_PERF_LO 0, [(8, 2048)]), (Reg.PWR_SLICE_BOOT_LO, []), (Reg.PWR_SLICE_MASK_LO, []),
  (Reg.PWR_SLICE_SUM_LO, []), (Reg.TST_MEMINJ_LOC_LO, []), (Reg.DEV_SERIAL_LO, []), (Reg.DEV_TICK_LO, [])]

/-- Is the register the _LO, or the _HI, of a pair? -/
def isLo (a : Nat) : Bool := loRows.any (fun e => decide (e.1 ≤ a) && dimsHit e.2 (a - e.1))
def isHi (a : Nat) : Bool := decide (4 ≤ a) && isLo (a - 4)

/-- The ring that an offset of a ring page belongs to, none where the page has no register (Table 18-13). -/
def pageRing (off : Nat) : Option Nat :=
  if off < 0x580 then some (off / 0x20)
  else if 0x600 ≤ off ∧ off < 0x690 ∧ off % 0x10 < 0xC then some (if (off - 0x600) / 0x10 = 8 then 35 else 19 + (off - 0x600) / 0x10)
  else none

/-- Has function f a register at this offset of its ring page? -/
def pageHas (f off : Nat) : Bool := match pageRing off with | some r => ringExists f r | none => false

/-- Does an offset of PF0's BAR0 lie in the ring page of a function, and at which offset of it (R505)? -/
def pageAt (a : Nat) : Option (Nat × Nat) :=
  if 0x0680000 ≤ a ∧ a < 0x0681000 then some (0, a - 0x0680000)
  else if 0x0701000 ≤ a ∧ a < 0x0800000 then some ((a - 0x0700000) / 0x1000, a % 0x1000)
  else none

/-- The scratch windows and aliases (Table 19-3). -/
def isWindow (a : Nat) : Bool := decide (0x1820000 ≤ a) && decide (a < 0x1900000)

/-- The home of the register at an offset of a function's BAR0 (R481, R501, R505), none at an unassigned offset. -/
def homeOf (s : State) (f addr : Nat) : Option Nat :=
  if f = 0 then
    if 0x4000000 ≤ addr then none
    else match pageAt addr with
      | some (g, off) => if pageHas g off then some addr else none
      | none => some addr
  else if addr < 0x1000 then (if pageHas f addr then some (Reg.pageBase f + addr) else none)
  else if 0x8000 ≤ addr ∧ addr < 0xC000 then
    (if granted s f ((addr - 0x8000) / 0x40) then some (Reg.CNT_PERF_LO 0 + (addr - 0x8000)) else none)
  else if addr = 0xF000 then some (Reg.HIF_VF_ID f)
  else if addr = 0xF004 then some (Reg.HIF_VF_PWF f)
  else none

/-! ## Reads -/

/-- The PEAK field of a register and what it is the peak of, as a number (R224 and the tables that give a PEAK). -/
def peakOf (s : State) (a : Nat) : Option (Fld × Nat) :=
  if a = Reg.HIF_INFLIGHT then some (Reg.HIF_INFLIGHT_PEAK, getF s Reg.HIF_INFLIGHT_NOW)
  else if a = Reg.PAIR_LAG then some (Reg.PAIR_LAG_PEAK, getF s Reg.PAIR_LAG_LAG)
  else if a = Reg.PWR_VIN_MIN then some (Reg.PWR_VIN_MIN_MIN_MV, getF s Reg.PWR_VIN_STAT_VIN_MV)
  else match nth (Reg.PRS_FRAG_STAT 0) 0x1000 20 a, nth (Reg.SIG_ENG_STAT 0) 0x100 20 a, nth (Reg.ACT_HALL_STAT 0) 0x100 20 a, nth (Reg.ACT_RECIRC_STAT 0) 0x100 20 a,
      nth2 (Reg.CGM_PWM_PEAK 0 0) 0x80 2 0x10 8 a, nth (Reg.CGM_QWM_PEAK 0) 0x20 4096 a with
    | some n, _, _, _, _, _ => some (Reg.PRS_FRAG_STAT_PEAK n, getF s (Reg.PRS_FRAG_STAT_OCCUPANCY n))
    | _, some n, _, _, _, _ => some (Reg.SIG_ENG_STAT_QUEUE_PEAK n, getF s (Reg.SIG_ENG_STAT_QUEUE_NOW n))
    | _, _, some n, _, _, _ => some (Reg.ACT_HALL_STAT_PEAK n, getF s (Reg.ACT_HALL_STAT_OCC n))
    | _, _, _, some n, _, _ => some (Reg.ACT_RECIRC_STAT_QUEUE_PEAK n, getF s (Reg.ACT_RECIRC_STAT_QUEUE_NOW n))
    | _, _, _, _, some (r, k), _ => some (Reg.CGM_PWM_PEAK_PEAK r k, poolUsed s r k)
    | _, _, _, _, _, some m => some (Reg.CGM_QWM_PEAK_PEAK m, if flag s (Reg.CGM_QWM_CFG_EN m) then inUnits 4096 (qlen s (getF s (Reg.CGM_QWM_CFG_QUEUE m))) else 0)
    | _, _, _, _, _, _ => none

/-- The read of a register clears its RC fields (R10); a highest or lowest value since the last read restarts from the value now. -/
def rcClear (s : State) (a : Nat) : State :=
  match regRow a with
  | none => s
  | some r =>
    if r.rc = 0 ∨ (!earlyBlock a ∧ !s.boot.up) then s
    else
      let s1 := wr s a (mergeBits (rd s a) 0 r.rc)
      let s2 := match peakOf s1 a with | some (f, n) => setF s1 f n | none => s1
      if a = Reg.PWR_TEMP_PEAK then { s2 with pwr := { s2.pwr with peakFresh := true } } else s2

/-- A latched half of function f, given back. -/
def latchDrop (s : State) (f a : Nat) : State := { s with hiLatch := merase s.hiLatch (loKey f a) }

/-- A half is latched for function f. -/
def latchPut (s : State) (f a : Nat) : State := { s with hiLatch := mset s.hiLatch (loKey f a) (some (Word.ofNat (regShown s a))) }

/-- The read of a _LO register latches its _HI (R8), and that of TIM_NOW_LO also TIM_NOW_EXT (R430). -/
def loLatch (s : State) (f a : Nat) : State :=
  if !isLo a then s
  else
    let s1 := latchPut s f (a + 4)
    if a = Reg.TIM_NOW_LO then latchPut s1 f Reg.TIM_NOW_EXT else s1

/-- What function f reads from a register, and the state after it. -/
def regRead (s : State) (f a : Nat) : Nat × State :=
  match mfind s.hiLatch (loKey f a) with
  | some w => (w.toNat, latchDrop s f a)
  | none => (regShown s a, rcClear (loLatch s f a) a)

/-- What a read of a scratch window or alias returns, and the state after it (R513, R514). -/
def windowRead (s : State) (a : Nat) : Nat × State := if a < 0x1880000 then scrWindowRead s a else (scrAliasRead s a, s)

/-- What function f reads at an offset of its BAR0, and the state after it (R7, R9). -/
def bar0Read (s : State) (f addr : Nat) : Nat × State :=
  if addr % 4 ≠ 0 then (0, s)
  else if f = 0 ∧ isWindow addr then windowRead s addr
  else match homeOf s f addr with
    | some a => regRead s f a
    | none => (0, s)

/-- What PF0 reads from its table window (R482): a word of the entry, least significant byte first. A word of an entry that is uncorrectable is open. -/
def bar2Read (s : State) (off : Nat) : Nat × State :=
  match (if off % 4 = 0 then twinPlace s off else none) with
  | none => (0, s)
  | some (t, i, o, n) =>
    if tabBad s t i then
      let (v, s1) := freshNat s
      (v % 2 ^ 32, wordEcc s1 t i)
    else (leAt (leBytes n (tabGet s t i)) o 4, s)

/-- Does an access of function f reach the device: BAR0 answers from LOAD onwards (R592), and only an enabled function has one (R484)? -/
def reaches (s : State) (f : Nat) : Bool := powered s && flag s (Reg.HIF_FN_STAT_ENABLED f)

/-- The data of a read goes back to the host. -/
def readBack (x : Nat × State) : State := { x.2 with rdData := x.1 }

/-- A host read: one of BAR0 of another width or alignment is dropped and returns 0 (R7). -/
def busRead (f : Nat) (bar2 : Bool) (addr width : Nat) (s : State) : State :=
  if !reaches s f then s
  else if bar2 then (if f = 0 then readBack (bar2Read s addr) else s)
  else if width ≠ 4 then { s with rdData := 0 }
  else readBack (bar0Read s f addr)

/-- READ_CLEAR (R10): a host read; the RC fields of the register are cleared. -/
def execReadClear (f : Fin 256) (bar2 : Bool) (w : BusAt) (s : State) : Out :=
  match w with
  | ⟨addr, width⟩ => .next (busRead f bar2 addr width s)

/-- LO_READ_LATCH (R8): a host read of a _LO register latches its _HI half for the next read. -/
def execLoReadLatch (f : Fin 256) (addr : Nat) (s : State) : Out := .next (busRead f false addr 4 s)

/-! ## Writes of STATUS registers -/

/-- A W1C clear of the bits `m`. -/
def w1c (s : State) (a v m : Nat) : State := wr s a (mergeBits (rd s a) 0 (Nat.land v m))

/-- The W1C clears whose register has a rule of its own, none for the others. -/
def statusOwn (s : State) (a v : Nat) : Option State :=
  if a = Reg.SIG_STORE_STAT then some (if bit v 4 then sigLostClear s else s)
  else if a = Reg.PAIR_STAT then some (pairShow (w1c s a v 0x40))
  else if a = Reg.CLK_REF_STAT then some (w1c s a v (getF s Reg.CLK_REF_STAT_PRESENT * 2 ^ 8))
  else if a = Reg.PWR_RAIL_STAT then some (w1c s a v (maskBy 7 (fun k => !s.pwr.railOut.contains k) * 2 ^ 16))
  else if a = Reg.PWR_TEMP_STAT then some (w1c s a v ((b2n (!flag s Reg.PWR_TEMP_STAT_WARN) + 2 * b2n (!flag s Reg.PWR_TEMP_STAT_HIGH)) * 2 ^ 8))
  else none

/-- The same for registers that stand in numbers. -/
def statusOwnN (s : State) (a v : Nat) : Option State :=
  match nth2 (Reg.CGM_PWM_STAT 0 0) 0x80 2 0x10 8 a, nth (Reg.CGM_QWM_STAT 0) 0x20 4096 a, nth2 (Reg.FAB_LANE_STAT 0 0) 0x20000 8 0x100 28 a, nth (Reg.FLT_SRC_STAT 0) 4 2048 a,
      nth (Reg.CNT_PERF_HI 0) 8 2048 a, nth (Reg.TST_LANE_STAT 0) 8 388 a with
  | some (r, k), _, _, _, _, _ => some (if bit v 1 then wmCrossedClear false (8 * r + k) s else s)
  | _, some m, _, _, _, _ => some (if bit v 1 then wmCrossedClear true m s else s)
  | _, _, some (g, l), _, _, _ => some (w1c s a v ((127 - getF s (Reg.FAB_LANE_STAT_DEFECT g l)) * 2 ^ 16))
  | _, _, _, some x, _, _ => some (if bit v 1 then fltStatusClear x s else s)
  | _, _, _, _, some c, _ => some (if bit v 16 then { s with cnt := { s.cnt with perfOvf := s.cnt.perfOvf.filter (· != c) } } else s)
  | _, _, _, _, _, some x => some (if bit v 1 && flag s (Reg.TST_LANE_STAT_LOCK x) && checkerActs s x then setB s (Reg.TST_LANE_STAT_LOCK_LOST x) false else s)
  | _, _, _, _, _, _ => none

/-- A write of a STATUS register (R10, R592): W1C fields clear; RO and RC fields ignore it. STORM_SEEN clears only while the class is not suspended. -/
def statusWrite (s : State) (a v : Nat) (r : RegRow) : State :=
  if !earlyBlock a && !s.boot.up then s
  else match statusOwn s a v, statusOwnN s a v with
    | some t, _ => t
    | none, some t => t
    | none, none =>
      match linPort a with
      | some p => w1c s a v (if a = Reg.LIN_PFC_WD_STAT p then (255 - getF s (Reg.LIN_PFC_WD_STAT_SUSPENDED p)) * 2 ^ 8 else r.w1c)
      | none => w1c s a v r.w1c

/-! ## Writes of OPER registers -/

/-- A DEV_CTL write with RESET = 1 (R596): the device enters RESET, unless CODE differs or the card is ACTIVE. -/
def devReset (v : Nat) (s : State) : State :=
  operWrite s Reg.DEV_CTL v (fun s =>
    if bits v 16 16 ≠ 0x5EA1 ∨ role s = 1 then pwfTarget s Reg.DEV_CTL v else resetEnter 3 s)

/-- DEV_RESET (R596). -/
def execDevReset (v : Nat) (s : State) : Out := .next (devReset (Nat.lor v 1) s)

/-- A write of LIN_SYNCE_CFG (R62): an output whose new selection may not run is squelched, and a squelched one resumes with SYNCE_RESUME alone. -/
def synceWrite (s : State) (k v : Nat) : State := synceSquelch (writeRw s (Reg.LIN_SYNCE_CFG k) v 0x1FFFFFF)

/-- A write of TIM_PPS_CFG (R420, R427): PPS_OUT is low while OUT_EN is 0, and nothing is awaited at PPS_IN while IN_EN is 0. -/
def ppsWrite (s : State) (v : Nat) : State :=
  let s1 := writeRw s Reg.TIM_PPS_CFG v 0xFFFFF007
  let s2 := if bit v 0 then s1 else { s1 with clk := { s1.clk with ppsOut := false } }
  if bit v 1 then s2 else levelOff s2 Src.ppsLoss

/-- A write of one of the CNT_DGRP registers of group d (R550): a range past the end, or an enabled empty one, fails at its target. Setting EN restarts DUMP_SEQ. -/
def dgrpWrite (s : State) (a d v : Nat) : State :=
  let g (r : Nat) : Nat := if a = r then v else (rd s r).toNat
  let cfg := g (Reg.CNT_DGRP_CFG d)
  if !dumpRangeOk cfg (g (Reg.CNT_DGRP_FIRST d)) (g (Reg.CNT_DGRP_COUNT d)) then pwfTarget s a v
  else
    let s1 := writeRw s a v (if a = Reg.CNT_DGRP_CFG d then 0x3FFF1F else if a = Reg.CNT_DGRP_FIRST d then 0x1FFFFF else 0x3FFFFF)
    if bit cfg 0 && !flag s (Reg.CNT_DGRP_CFG_EN d) then dumpGroupEnabled s1 d else s1

/-- A write of LIN_PORT_CTL: RETRAIN with ADMIN as it stands is local to the card; any other value is the mirrored write of ADMIN (Table 12-8). -/
def portCtlWrite (s : State) (p v : Nat) : State :=
  if bit v 4 && v % 4 == portAdmin s p then retrainStart s p
  else if h : p < 160 then admin ⟨p, h⟩ v s else s

/-- A write of UPD_CTL: the first action bit set names the command (R389). -/
def updCtlWrite (s : State) (v : Nat) : State :=
  match (onesOf 6 v).head? with
  | some 0 => arm v s | some 1 => disarm v s | some 2 => confirmTrial v s | some 3 => abandon v s | some 4 => restartAct v s | some 5 => updDiscard v s
  | _ => s

/-- A write of a register whose action bit is 0 stores its RW bits. -/
def actOr (act : Bool) (t : State) (s : State) (a v m : Nat) : State := if act then t else writeRw s a v m

/-- The OPER registers of DEV, BOOT, CLK, PWR, FLT and the host interface whose write acts. -/
def operOwnA (s : State) (a v : Nat) : Option State :=
  if a = Reg.DEV_CTL then some (if bit v 0 then devReset v s else s)
  else if a = Reg.BOOT_HOLD_CTL then some (actOr (bit v 0) (reread v s) s a v 0xE)
  else if a = Reg.BOOT_PUSH_CTL then some (actOr (bit v 0) (pushStart v s) s a v 0x3E)
  else if a = Reg.BOOT_ARB_CTL then some (arbCtl v s)
  else if a = Reg.BOOT_KEY_CTL then some (actOr (bit v 2) (keyRevoke v s) s a v 3)
  else if a = Reg.BOOT_LC_CTL then some (if bit v 0 then toField v s else s)
  else if a = Reg.CLK_CTL then some (clkCtl v s)
  else if a = Reg.CLK_OUT_CFG then some (clkoutConfig v s)
  else if a = Reg.PWR_BAT_CTL then some (if bit v 0 then clrRec s else s)
  else if a = Reg.PWR_SLICE_CMD then some (if v % 4 = 0 then s else sliceCmd v s)
  else if a = Reg.FLT_RING_RD then some (ringRdWrite v s)
  else if a = Reg.FLT_FIRST_CTL then some (if bit v 0 then firstFaultClear s else s)
  else if a = Reg.FLT_NVLOG_IDX then some (nvlogRead v s)
  else if a = Reg.CNT_RD_CTL then some (pairRead v s)
  else if a = Reg.HIF_PWF_CTL then some (if bit v 0 then pwfClear s else s)
  else none

/-- The OPER registers of the other blocks that stand alone and whose write acts. -/
def operOwnB (s : State) (a v : Nat) : Option State :=
  if a = Reg.SIG_STORE_CTL then some (if bit v 0 then sigCancel s else s)
  else if a = Reg.FAB_PROT_CTL then some (protWrite v s)
  else if a = Reg.SCR_WIN then some (scrWinWrite s v)
  else if a = Reg.SCR_ATOM_CTL then some (actOr (bit v 0) (scrAtomGo v s) s a v 2)
  else if a = Reg.PAIR_CTL then some (pairCtl s v)
  else if a = Reg.UPD_CTL then some (updCtlWrite s v)
  else if a = Reg.UPD_STAGE_CTL then some (actOr (bit v 0) (stageStart v s) s a v 6)
  else if (a = Reg.UPD_ACT_TIME_LO ∨ a = Reg.UPD_ACT_TIME_HI) ∧ updState s = 4 then some (pwfTarget s a v)
  else if a = Reg.TST_PROBE_CTL then some (if bit v 0 then probeGo v s else setF s Reg.TST_PROBE_CTL_PIPE (bits v 1 5))
  else if a = Reg.TST_INJ_CTL then some (faultInject v s)
  else if a = Reg.TST_MEMINJ_CTL then some (meminjCtl s v)
  else if (a = Reg.TST_MEMINJ_LOC_LO ∨ a = Reg.TST_MEMINJ_LOC_HI) ∧ s.boot.lc ≠ .factory then some (pwfTarget s a v)
  else if a = Reg.TIM_CTL then some (if bit v 0 then timSet v s else if bit v 1 then timAdd v s else s)
  else if a = Reg.TIM_INCR_HI then some (timIncrCommit v s)
  else if a = Reg.TIM_PPS_CFG then some (ppsWrite s v)
  else none

/-- A number below n as an index. -/
def finAct (n : Nat) (i : Nat) (act : Fin n → State) (s : State) : State := if h : i < n then act ⟨i, h⟩ else s

/-- The OPER registers that stand in numbers and whose write acts, of LIN, PRS, CGM, SCH and DRC. -/
def operOwnC (s : State) (a v : Nat) : Option State :=
  match (List.range 160).find? (fun p => a == Reg.LIN_PORT_CTL p), nth (Reg.LIN_SYNCE_CFG 0) 4 2 a, nth (Reg.PRS_FRAG_CTL 0) 0x1000 20 a, nth (Reg.CGM_QWM_CFG 0) 0x20 4096 a,
      nth (Reg.CGM_QWM_TH 0) 0x20 4096 a, nth (Reg.SCH_GATE_CTL 0) 0x40 160 a, nth (Reg.DRC_DI_CTL 0) 0x10000 24 a with
  | some p, _, _, _, _, _, _ => some (portCtlWrite s p v)
  | _, some k, _, _, _, _, _ => some (synceWrite s k v)
  | _, _, some n, _, _, _, _ => some (if bit v 0 then fragEmpty s n else s)
  | _, _, _, some m, _, _, _ => some (finAct 4096 m (fun m => qwmConfig m v s) s)
  | _, _, _, _, some m, _, _ =>
    let s1 := writeRw s a v 0xFFFFFFFF
    some (if flag s1 (Reg.CGM_QWM_CFG_EN m) then monitor s1 m else s1)
  | _, _, _, _, _, some p, _ => some (operMirrored s a v true (fun s => gateCtl s p v))
  | _, _, _, _, _, _, some i => some (diCtl i v s)
  | _, _, _, _, _, _, _ => none

/-- The same of HIF, CNT and TST. -/
def operOwnD (s : State) (a v : Nat) : Option State :=
  match nth (Reg.HIF_FN_CFG 0) 0x10 256 a, nth2 (Reg.HIF_GRANT 0 0) 0x20 256 4 8 a, nth2 (Reg.CNT_DGRP_CFG 0) 0x10 64 4 3 a, nth (Reg.CNT_PERF_TEN 0) 4 128 a, nth (Reg.TST_LANE_CFG 0) 8 388 a with
  | some f, _, _, _, _ => some (fnCfgWrite f v s)
  | _, some (f, w), _, _, _ => some (grant f w v s)
  | _, _, some (d, _), _, _ => some (dgrpWrite s a d v)
  | _, _, _, some j, _ => some (finAct 128 j (fun j => perfTenantWrite j v s) s)
  | _, _, _, _, some x => some (laneTestConfig x v s)
  | _, _, _, _, _ => none

/-- A pair's _LO is held for the function, and its _HI commits both halves (R8); a register outside a pair takes its RW and RWS bits at once. -/
def pairWrite (s : State) (f a v : Nat) : State :=
  let m (x : Nat) : Nat := match regRow x with | some r => Nat.lor r.rw r.rws | none => 0
  if isLo a then holdLo s f a v
  else if isHi a then commitHi s f (a - 4) (m (a - 4)) a (m a) v
  else writeRw s a v (m a)

/-- A write of an OPER register that only stores. A standby refuses a mirrored one (R344), and the active card sends it in CMD (R343): the committed _LO half before the _HI. -/
def operStore (s : State) (a v : Nat) : State :=
  if !mirroredReg a then pairWrite s 0 a v
  else if standby s then pwfTarget s a v
  else
    let s1 := pairWrite s 0 a v
    if isLo a then s1
    else if isHi a then mirrorItem (mirrorItem s1 (.reg 0 (a - 4) (heldLo s 0 (a - 4)).toNat)) (.reg 0 a v)
    else mirrorItem s1 (.reg 0 a v)

/-- A host write of an OPER register outside the ring pages, in a state that takes it. -/
def operTake (s : State) (a v : Nat) : State :=
  match operOwnA s a v, operOwnB s a v, operOwnC s a v, operOwnD s a v with
  | some t, _, _, _ => t
  | none, some t, _, _ => t
  | none, none, some t, _ => t
  | none, none, none, some t => t
  | none, none, none, none => operStore s a v

/-! ## Writes -/

/-- A write of a ring page by its function (R486, R505). BASE, WB and the data area are fixed while the ring is enabled. How many commands begin in the entries that a disable or a flush
discards is not in the device's sight: it is open. -/
def pageWrite (s : State) (f off v : Nat) : State :=
  match pageRing off with
  | none => hostFail s f (pageOff f off) v .unassigned
  | some r =>
    if 0x600 ≤ off ∨ off % 0x20 < 8 ∨ off % 0x20 = 0x14 ∨ off % 0x20 = 0x18 then
      if !ringExists f r then hostFail s f (pageOff f off) v .unassigned
      else if !operOpen s || flag s (Reg.HIF_RING_CFG_EN f r) then hostFail s f (pageOff f off) v .target
      else pairWrite s f (Reg.pageBase f + off) v
    else if off % 0x20 = 8 then
      let (n, s1) := freshNat s
      ringCfg f r v n s1
    else if off % 0x20 = 0xC then prodDoorbell f r v s
    else if off % 0x20 = 0x10 then consDoorbell f r v s
    else if ringExists f r then s else hostFail s f (pageOff f off) v .unassigned

/-- A write of a scratch window or alias (R513, R514). -/
def windowWrite (s : State) (a v : Nat) : State :=
  if a < 0x1880000 then scrWindowWrite a v s else if a < 0x18C0000 then scrAliasSet a v s else scrAliasClear a v s

/-- A write by PF0 (R502, R505, R592). -/
def pfWrite (s : State) (a v : Nat) : State :=
  if isWindow a then windowWrite s a v
  else match (if a < 0x4000000 then pageAt a else none), (if a < 0x4000000 then regRow a else none) with
    | some (0, off), _ => pageWrite s 0 off v
    | some _, _ => pwfTarget s a v
    | none, none => pwfD s 0 0 a v .unassigned 0
    | none, some r =>
      if (match linPort a with | some p => !portPresent s p | none => false) then pwfAbsent s a v
      else match r.cls with
        | .sealed => pwfD s 0 0 a v .isSealed 0
        | .status => statusWrite s a v r
        | .oper => operWrite s a v (fun s => operTake s a v)

/-- A write by VF f in its own BAR0 (Table 18-2): its granted groups, HIF_VF_ID and HIF_VF_PWF are read-only. -/
def vfWrite (s : State) (f a v : Nat) : State :=
  if a < 0x1000 then pageWrite s f a v
  else if (0x8000 ≤ a ∧ a < 0xC000) ∨ a = 0xF000 ∨ a = 0xF004 then s
  else hostFail s f a v .unassigned

/-- A host write (R7): one of another width or alignment is dropped and logged. -/
def busWrite (f addr width v : Nat) (s : State) : State :=
  if !reaches s f then s
  else if width ≠ 4 ∨ addr % 4 ≠ 0 then hostFail s f addr v .width
  else if f = 0 then pfWrite s addr (v % 2 ^ 32)
  else vfWrite s f addr (v % 2 ^ 32)

/-- REGISTER_WRITE (R10). -/
def execRegisterWrite (f : Fin 256) (addr width v : Nat) (s : State) : Out := .next (busWrite f addr width v s)

/-- HI_WRITE_COMMIT (R8): a 32-bit write of a _HI register commits both halves. -/
def execHiWriteCommit (f : Fin 256) (addr v : Nat) (s : State) : Out := .next (busWrite f addr 4 v s)

/-! ## Accesses that expire -/

/-- The roots that clock the block at an offset (Table 24-1). -/
def rootsOf (a : Nat) : List Nat :=
  let b := a / 0x100000
  if 16 ≤ b ∧ b ≤ 23 ∧ a < 0x1780020 ∧ !(0x1210000 ≤ a ∧ a < 0x1220000) then [1]
  else if b = 25 then [1]
  else if b ≤ 4 ∨ b = 26 ∨ b = 27 ∨ (0x0510000 ≤ a ∧ a < 0x0520000) then [0, 1]
  else [0]

/-- Is a root's family stopped, its root being lost, or relocking (R421)? -/
def familyHalted (s : State) (r : Nat) : Bool := flag s (relockFld r) || (mfind s.flt.cause (Src.rootLoss r)).isSome

/-- ACCESS_EXPIRED (R591): an access that has waited 1 ms for the clock family of its target is abandoned. A read returns 0; a write is logged with cause TARGET. -/
def accessExpired (f : Nat) (write : Bool) (addr v : Nat) (s : State) : State :=
  match homeOf s f addr with
  | none => s
  | some a =>
    if !reaches s f || !(rootsOf a).any (familyHalted s) then s
    else
      let s1 := bump s (Reg.DEV_CNT 4)
      if write then pwfD s1 f 0 addr v .target 0 else { s1 with rdData := 0 }

/-- The command whose effect is `accessExpired`. -/
def execAccessExpired (f : Fin 256) (write : Bool) (addr v : Nat) (s : State) : Out := .next (accessExpired f write addr v s)

end Sys2Proof.Machine
end

