-- ==== Sys2Proof/Machine/Dispatch.lean ====
section
/-! DEFINITION. The effect of every command: one arm per constructor, one direct call of a meaning. -/

namespace Sys2Proof.Machine

def exec (i : Instr) (s : State) : Host.Outcome State Fault Refusal :=
  match i with
  | .vinGood lost => Sys2Proof.Machine.execVinGood lost s
  | .vinFail => Sys2Proof.Machine.execVinFail s
  | .vinDip => Sys2Proof.Machine.execVinDip s
  | .vinWarn => Sys2Proof.Machine.execVinWarn s
  | .vinWarnClear => Sys2Proof.Machine.execVinWarnClear s
  | .resetLLow => Sys2Proof.Machine.execResetLLow s
  | .resetExit testmode sense => Sys2Proof.Machine.execResetExit testmode sense s
  | .nvmIdAttempt valid octal => Sys2Proof.Machine.execNvmIdAttempt valid octal s
  | .imageBlockRead data => Sys2Proof.Machine.execImageBlockRead data s
  | .loadComplete => Sys2Proof.Machine.execLoadComplete s
  | .verifyComplete => Sys2Proof.Machine.execVerifyComplete s
  | .configRecord => Sys2Proof.Machine.execConfigRecord s
  | .applyComplete counted => Sys2Proof.Machine.execApplyComplete counted s
  | .bringupComplete => Sys2Proof.Machine.execBringupComplete s
  | .rootPllLockTimeout => Sys2Proof.Machine.execRootPllLockTimeout s
  | .pllLocked p => Sys2Proof.Machine.execPllLocked p s
  | .rampStep => Sys2Proof.Machine.execRampStep s
  | .stairTransfer up lane retries ok => Sys2Proof.Machine.execStairTransfer up lane retries ok s
  | .lineLaneCalibration g l ok => Sys2Proof.Machine.execLineLaneCalibration g l ok s
  | .linkTrainingDone p ok => Sys2Proof.Machine.execLinkTrainingDone p ok s
  | .linkTrainingRetry p => Sys2Proof.Machine.execLinkTrainingRetry p s
  | .retrain p => Sys2Proof.Machine.execRetrain p s
  | .admin p v => Sys2Proof.Machine.execAdmin p v s
  | .lineFrameReceive p b preambleOk pcsErr fecErr fec => Sys2Proof.Machine.execLineFrameReceive p b preambleOk pcsErr fecErr fec s
  | .macControlFrame p b => Sys2Proof.Machine.execMacControlFrame p b s
  | .pauseTimerExpire p k => Sys2Proof.Machine.execPauseTimerExpire p k s
  | .pfcRefresh p => Sys2Proof.Machine.execPfcRefresh p s
  | .pfcStormDetect p k => Sys2Proof.Machine.execPfcStormDetect p k s
  | .pfcStormRestore p k => Sys2Proof.Machine.execPfcStormRestore p k s
  | .linkFaultDetect w => Sys2Proof.Machine.execLinkFaultDetect w s
  | .remoteFaultReceived p => Sys2Proof.Machine.execRemoteFaultReceived p s
  | .synceResume k => Sys2Proof.Machine.execSynceResume k s
  | .ingressPass n bad trie how => Sys2Proof.Machine.execIngressPass n bad trie how s
  | .fragEntryAge n set idx => Sys2Proof.Machine.execFragEntryAge n set idx s
  | .fragFlush n => Sys2Proof.Machine.execFragFlush n s
  | .scanWindow n patterns => Sys2Proof.Machine.execScanWindow n patterns s
  | .sigWrite c => Sys2Proof.Machine.execSigWrite c s
  | .sigInvalidate c => Sys2Proof.Machine.execSigInvalidate c s
  | .sigProfile c => Sys2Proof.Machine.execSigProfile c s
  | .sigClear c => Sys2Proof.Machine.execSigClear c s
  | .sigCopy c => Sys2Proof.Machine.execSigCopy c s
  | .sigCopyDone => Sys2Proof.Machine.execSigCopyDone s
  | .sigSwap c => Sys2Proof.Machine.execSigSwap c s
  | .sigSwapInstant => Sys2Proof.Machine.execSigSwapInstant s
  | .sigRead c masterBad => Sys2Proof.Machine.execSigRead c masterBad s
  | .sigCancel => Sys2Proof.Machine.execSigCancel s
  | .oldBankDrained => Sys2Proof.Machine.execOldBankDrained s
  | .sigEntryRepair n key masterBad => Sys2Proof.Machine.execSigEntryRepair n key masterBad s
  | .insert c => Sys2Proof.Machine.execInsert c s
  | .delete c => Sys2Proof.Machine.execDelete c s
  | .modify c => Sys2Proof.Machine.execModify c s
  | .search c => Sys2Proof.Machine.execSearch c s
  | .next c => Sys2Proof.Machine.execNext c s
  | .readEntry c => Sys2Proof.Machine.execReadEntry c s
  | .move c => Sys2Proof.Machine.execMove c s
  | .flushByPort c => Sys2Proof.Machine.execFlushByPort c s
  | .flushByPortDone => Sys2Proof.Machine.execFlushByPortDone s
  | .nop c => Sys2Proof.Machine.execNop c s
  | .learnBusMsg => Sys2Proof.Machine.execLearnBusMsg s
  | .learnRefreshMsg => Sys2Proof.Machine.execLearnRefreshMsg s
  | .ageSweep n t => Sys2Proof.Machine.execAgeSweep n t s
  | .trieNodeRebuild => Sys2Proof.Machine.execTrieNodeRebuild s
  | .policerSweep => Sys2Proof.Machine.execPolicerSweep s
  | .recircSlot n => Sys2Proof.Machine.execRecircSlot n s
  | .hallRelease n => Sys2Proof.Machine.execHallRelease n s
  | .egressPass n => Sys2Proof.Machine.execEgressPass n s
  | .bufferArrival lane => Sys2Proof.Machine.execBufferArrival lane s
  | .dramReadComplete q k retries failed flips => Sys2Proof.Machine.execDramReadComplete q k retries failed flips s
  | .dramWriteComplete idx retries ok flip => Sys2Proof.Machine.execDramWriteComplete idx retries ok flip s
  | .mergeTimeout idx => Sys2Proof.Machine.execMergeTimeout idx s
  | .tagWriteback w => Sys2Proof.Machine.execTagWriteback w s
  | .wmCrossedClear monitorNotPool idx => Sys2Proof.Machine.execWmCrossedClear monitorNotPool idx s
  | .qwmConfig m v => Sys2Proof.Machine.execQwmConfig m v s
  | .requestRetry q => Sys2Proof.Machine.execRequestRetry q s
  | .creditGrant port => Sys2Proof.Machine.execCreditGrant port s
  | .voqTimeout q => Sys2Proof.Machine.execVoqTimeout q s
  | .voqDequeue bad => Sys2Proof.Machine.execVoqDequeue bad s
  | .egressSelect n bad => Sys2Proof.Machine.execEgressSelect n bad s
  | .calendarSlot => Sys2Proof.Machine.execCalendarSlot s
  | .fenceLift idx => Sys2Proof.Machine.execFenceLift idx s
  | .fenceTimeout idx => Sys2Proof.Machine.execFenceTimeout idx s
  | .gateEntryChange p => Sys2Proof.Machine.execGateEntryChange p s
  | .gateEnable p en => Sys2Proof.Machine.execGateEnable p en s
  | .gateChange p => Sys2Proof.Machine.execGateChange p s
  | .gateCancel p => Sys2Proof.Machine.execGateCancel p s
  | .gateActivate p => Sys2Proof.Machine.execGateActivate p s
  | .stagedFrameStart p k => Sys2Proof.Machine.execStagedFrameStart p k s
  | .gateNofit p k => Sys2Proof.Machine.execGateNofit p k s
  | .epochWindow => Sys2Proof.Machine.execEpochWindow s
  | .fabricLaneCalibration g l ok => Sys2Proof.Machine.execFabricLaneCalibration g l ok s
  | .fabricTrainingRetry g l => Sys2Proof.Machine.execFabricTrainingRetry g l s
  | .caravanFrameSend gal => Sys2Proof.Machine.execCaravanFrameSend gal s
  | .caravanFrameReceive g l frame fecCorr fecLost => Sys2Proof.Machine.execCaravanFrameReceive g l frame fecCorr fecLost s
  | .slipRead g w => Sys2Proof.Machine.execSlipRead g w s
  | .cellReceive g l => Sys2Proof.Machine.execCellReceive g l s
  | .holeTimeout src dst cls => Sys2Proof.Machine.execHoleTimeout src dst cls s
  | .contextFree src dst cls => Sys2Proof.Machine.execContextFree src dst cls s
  | .defectDeclare g l d => Sys2Proof.Machine.execDefectDeclare g l d s
  | .defectClear g l d => Sys2Proof.Machine.execDefectClear g l d s
  | .degInterval g l => Sys2Proof.Machine.execDegInterval g l s
  | .bkpWatchdog g k => Sys2Proof.Machine.execBkpWatchdog g k s
  | .protClear => Sys2Proof.Machine.execProtClear s
  | .protManualSwitch plane => Sys2Proof.Machine.execProtManualSwitch plane s
  | .protForcedSwitch plane => Sys2Proof.Machine.execProtForcedSwitch plane s
  | .protLockout => Sys2Proof.Machine.execProtLockout s
  | .protTest => Sys2Proof.Machine.execProtTest s
  | .wtrExpire => Sys2Proof.Machine.execWtrExpire s
  | .srqIncDeclare => Sys2Proof.Machine.execSrqIncDeclare s
  | .pmSecond => Sys2Proof.Machine.execPmSecond s
  | .dramTraining idx ok => Sys2Proof.Machine.execDramTraining idx ok s
  | .dramRefresh w => Sys2Proof.Machine.execDramRefresh w s
  | .dramTempReadout idx t => Sys2Proof.Machine.execDramTempReadout idx t s
  | .retrainDue idx => Sys2Proof.Machine.execRetrainDue idx s
  | .drcRetrain idx => Sys2Proof.Machine.execDrcRetrain idx s
  | .pauseBegin idx => Sys2Proof.Machine.execPauseBegin idx s
  | .pauseEnd idx ok => Sys2Proof.Machine.execPauseEnd idx ok s
  | .dramTestStep idx k ok => Sys2Proof.Machine.execDramTestStep idx k ok s
  | .lease typ msg crc framed => Sys2Proof.Machine.execLease typ msg crc framed s
  | .standby msg crc framed => Sys2Proof.Machine.execStandby msg crc framed s
  | .switch msg crc framed => Sys2Proof.Machine.execSwitch msg crc framed s
  | .withdraw msg crc framed => Sys2Proof.Machine.execWithdraw msg crc framed s
  | .arbLoss => Sys2Proof.Machine.execArbLoss s
  | .leaseExpire => Sys2Proof.Machine.execLeaseExpire s
  | .healthSend => Sys2Proof.Machine.execHealthSend s
  | .helloSend => Sys2Proof.Machine.execHelloSend s
  | .faultMsgSend => Sys2Proof.Machine.execFaultMsgSend s
  | .galleryHelloSend => Sys2Proof.Machine.execGalleryHelloSend s
  | .galleryHelloReceive partner digest alt resync => Sys2Proof.Machine.execGalleryHelloReceive partner digest alt resync s
  | .galleryLoss => Sys2Proof.Machine.execGalleryLoss s
  | .cmdItemApply rx => Sys2Proof.Machine.execCmdItemApply rx s
  | .nackReceive ask => Sys2Proof.Machine.execNackReceive ask s
  | .ackStall => Sys2Proof.Machine.execAckStall s
  | .stateSnapshot => Sys2Proof.Machine.execStateSnapshot s
  | .stateRecordApply rec => Sys2Proof.Machine.execStateRecordApply rec s
  | .baselineLatch => Sys2Proof.Machine.execBaselineLatch s
  | .baselineApply idx frames bytes => Sys2Proof.Machine.execBaselineApply idx frames bytes s
  | .resync v => Sys2Proof.Machine.execResync v s
  | .replayRegion part => Sys2Proof.Machine.execReplayRegion part s
  | .resyncComplete seq => Sys2Proof.Machine.execResyncComplete seq s
  | .standbyProbe => Sys2Proof.Machine.execStandbyProbe s
  | .marginMeasure margins => Sys2Proof.Machine.execMarginMeasure margins s
  | .partnerFaultRecord rcd => Sys2Proof.Machine.execPartnerFaultRecord rcd s
  | .reread v => Sys2Proof.Machine.execReread v s
  | .pushStart v => Sys2Proof.Machine.execPushStart v s
  | .pushComplete dmaOk data => Sys2Proof.Machine.execPushComplete dmaOk data s
  | .pushSlotProgram nvmOk => Sys2Proof.Machine.execPushSlotProgram nvmOk s
  | .commitFw => Sys2Proof.Machine.execCommitFw s
  | .commitCfg => Sys2Proof.Machine.execCommitCfg s
  | .keyRevoke v => Sys2Proof.Machine.execKeyRevoke v s
  | .toField v => Sys2Proof.Machine.execToField v s
  | .stageStart v => Sys2Proof.Machine.execStageStart v s
  | .stagingDone dmaOk nvmOk data pages => Sys2Proof.Machine.execStagingDone dmaOk nvmOk data pages s
  | .prepareDone => Sys2Proof.Machine.execPrepareDone s
  | .arm v => Sys2Proof.Machine.execArm v s
  | .disarm v => Sys2Proof.Machine.execDisarm v s
  | .activation => Sys2Proof.Machine.execActivation s
  | .firmwareSwapDone => Sys2Proof.Machine.execFirmwareSwapDone s
  | .confirm v => Sys2Proof.Machine.execConfirm v s
  | .abandon v => Sys2Proof.Machine.execAbandon v s
  | .restartAct v => Sys2Proof.Machine.execRestartAct v s
  | .discard v => Sys2Proof.Machine.execDiscard v s
  | .trialExpire => Sys2Proof.Machine.execTrialExpire s
  | .fallbackStart => Sys2Proof.Machine.execFallbackStart s
  | .fallbackDone => Sys2Proof.Machine.execFallbackDone s
  | .refClockLoss r => Sys2Proof.Machine.execRefClockLoss r s
  | .refClockReturn r => Sys2Proof.Machine.execRefClockReturn r s
  | .pllLoss p => Sys2Proof.Machine.execPllLoss p s
  | .clkFreqAlarm r offset => Sys2Proof.Machine.execClkFreqAlarm r offset s
  | .ppsInLoss => Sys2Proof.Machine.execPpsInLoss s
  | .cd38Loss => Sys2Proof.Machine.execCd38Loss s
  | .relockFd => Sys2Proof.Machine.execRelockFd s
  | .relockQd => Sys2Proof.Machine.execRelockQd s
  | .rootRelockDone r ok => Sys2Proof.Machine.execRootRelockDone r ok s
  | .timSet v => Sys2Proof.Machine.execTimSet v s
  | .timAdd v => Sys2Proof.Machine.execTimAdd v s
  | .timIncrCommit v => Sys2Proof.Machine.execTimIncrCommit v s
  | .ppsOutEdge rise => Sys2Proof.Machine.execPpsOutEdge rise s
  | .ppsInEdge falling => Sys2Proof.Machine.execPpsInEdge falling s
  | .clkoutConfig v => Sys2Proof.Machine.execClkoutConfig v s
  | .railOut k die slice => Sys2Proof.Machine.execRailOut k die slice s
  | .railRecover => Sys2Proof.Machine.execRailRecover s
  | .tempSensorRead temps => Sys2Proof.Machine.execTempSensorRead temps s
  | .tripRecover => Sys2Proof.Machine.execTripRecover s
  | .vbatCollapse => Sys2Proof.Machine.execVbatCollapse s
  | .holdoverWrite => Sys2Proof.Machine.execHoldoverWrite s
  | .clrRec => Sys2Proof.Machine.execClrRec s
  | .vio18Overload => Sys2Proof.Machine.execVio18Overload s
  | .telemetryUpdate vin iin pin vbat vio grp die => Sys2Proof.Machine.execTelemetryUpdate vin iin pin vbat vio grp die s
  | .sliceAdd => Sys2Proof.Machine.execSliceAdd s
  | .sliceRemove => Sys2Proof.Machine.execSliceRemove s
  | .sliceSleep => Sys2Proof.Machine.execSliceSleep s
  | .drainEnd n limit => Sys2Proof.Machine.execDrainEnd n limit s
  | .enteringDone n => Sys2Proof.Machine.execEnteringDone n s
  | .wakeDone n => Sys2Proof.Machine.execWakeDone n s
  | .join n => Sys2Proof.Machine.execJoin n s
  | .maintGrant a res => Sys2Proof.Machine.execMaintGrant a res s
  | .maintDeadline a res => Sys2Proof.Machine.execMaintDeadline a res s
  | .prodDoorbell f r v => Sys2Proof.Machine.execProdDoorbell f r v s
  | .consDoorbell f r v => Sys2Proof.Machine.execConsDoorbell f r v s
  | .ringEnable f r v => Sys2Proof.Machine.execRingEnable f r v s
  | .ringDisable f r v cmds => Sys2Proof.Machine.execRingDisable f r v cmds s
  | .flush f r v cmds => Sys2Proof.Machine.execFlush f r v cmds s
  | .commandFetch f r entry => Sys2Proof.Machine.execCommandFetch f r entry s
  | .msixHoldoffEnd f r => Sys2Proof.Machine.execMsixHoldoffEnd f r s
  | .flr f => Sys2Proof.Machine.execFlr f s
  | .pciePerst => Sys2Proof.Machine.execPciePerst s
  | .txDescriptor f k entry data => Sys2Proof.Machine.execTxDescriptor f k entry data s
  | .hostFrameDeliver => Sys2Proof.Machine.execHostFrameDeliver s
  | .bar2Write off v => Sys2Proof.Machine.execBar2Write off v s
  | .pwfClear => Sys2Proof.Machine.execPwfClear s
  | .grant f w v => Sys2Proof.Machine.execGrant f w v s
  | .msixSizeWrite f v => Sys2Proof.Machine.execMsixSizeWrite f v s
  | .sharedScratchOp bank => Sys2Proof.Machine.execSharedScratchOp bank s
  | .scrWindowWrite addr v => Sys2Proof.Machine.execScrWindowWrite addr v s
  | .scrAliasSet addr v => Sys2Proof.Machine.execScrAliasSet addr v s
  | .scrAliasClear addr v => Sys2Proof.Machine.execScrAliasClear addr v s
  | .scrAtomicAdd => Sys2Proof.Machine.execScrAtomicAdd s
  | .scrAtomicSwap => Sys2Proof.Machine.execScrAtomicSwap s
  | .scrTestStep m fails => Sys2Proof.Machine.execScrTestStep m fails s
  | .faultCollect => Sys2Proof.Machine.execFaultCollect s
  | .fltStatusClear src => Sys2Proof.Machine.execFltStatusClear src s
  | .firstFaultClear => Sys2Proof.Machine.execFirstFaultClear s
  | .ringRdWrite v => Sys2Proof.Machine.execRingRdWrite v s
  | .nvlogAppend => Sys2Proof.Machine.execNvlogAppend s
  | .nvlogRead v => Sys2Proof.Machine.execNvlogRead v s
  | .pairRead v => Sys2Proof.Machine.execPairRead v s
  | .dumpEpoch d => Sys2Proof.Machine.execDumpEpoch d s
  | .dumpWrite d => Sys2Proof.Machine.execDumpWrite d s
  | .perfTenantWrite j v => Sys2Proof.Machine.execPerfTenantWrite j v s
  | .tapReset => Sys2Proof.Machine.execTapReset s
  | .extest => Sys2Proof.Machine.execExtest s
  | .idcode => Sys2Proof.Machine.execIdcode s
  | .samplePreload => Sys2Proof.Machine.execSamplePreload s
  | .extestPulse => Sys2Proof.Machine.execExtestPulse s
  | .extestTrain => Sys2Proof.Machine.execExtestTrain s
  | .clamp => Sys2Proof.Machine.execClamp s
  | .highz => Sys2Proof.Machine.execHighz s
  | .serial => Sys2Proof.Machine.execSerial s
  | .mbist => Sys2Proof.Machine.execMbist s
  | .otpRead => Sys2Proof.Machine.execOtpRead s
  | .scan => Sys2Proof.Machine.execScan s
  | .bypass => Sys2Proof.Machine.execBypass s
  | .laneTestConfig x v => Sys2Proof.Machine.execLaneTestConfig x v s
  | .checkerLockChange x locked => Sys2Proof.Machine.execCheckerLockChange x locked s
  | .probeGo v => Sys2Proof.Machine.execProbeGo v s
  | .probeCapture n frame => Sys2Proof.Machine.execProbeCapture n frame s
  | .probeTimeout n => Sys2Proof.Machine.execProbeTimeout n s
  | .faultInject v => Sys2Proof.Machine.execFaultInject v s
  | .memoryInjectArm v => Sys2Proof.Machine.execMemoryInjectArm v s
  | .devReset v => Sys2Proof.Machine.execDevReset v s
  | .registerWrite f addr width v => Sys2Proof.Machine.execRegisterWrite f addr width v s
  | .readClear f bar2 w => Sys2Proof.Machine.execReadClear f bar2 w s
  | .loReadLatch f addr => Sys2Proof.Machine.execLoReadLatch f addr s
  | .hiWriteCommit f addr v => Sys2Proof.Machine.execHiWriteCommit f addr v s
  | .fabricLinkTrainingDone g l ok => Sys2Proof.Machine.execFabricLinkTrainingDone g l ok s
  | .galleryLaneCalibration l ok => Sys2Proof.Machine.execGalleryLaneCalibration l ok s
  | .linkFaultClear p => Sys2Proof.Machine.execLinkFaultClear p s
  | .remoteFaultClear p => Sys2Proof.Machine.execRemoteFaultClear p s
  | .vbatLow low => Sys2Proof.Machine.execVbatLow low s
  | .vio18Recover => Sys2Proof.Machine.execVio18Recover s
  | .pcieLinkChange up gen width flit vfs msix => Sys2Proof.Machine.execPcieLinkChange up gen width flit vfs msix s
  | .pciePerstRelease => Sys2Proof.Machine.execPciePerstRelease s
  | .pllLockFail p => Sys2Proof.Machine.execPllLockFail p s
  | .accessExpired f write addr v => Sys2Proof.Machine.execAccessExpired f write addr v s
  | .checkerBitError x n => Sys2Proof.Machine.execCheckerBitError x n s

end Sys2Proof.Machine
end

