-- ==== Sys2Proof/Machine/Step.lean ====
section
/-! DEFINITION. One step of the block: the command at the front of the queue is taken and has its effect. -/

namespace Sys2Proof.Machine

/-- A CD38 tick of 5 ns with no command waiting: the tick counter and the PTP clock go on (R422, R533), a switch-over gap may end (R353), and
the reactions of merged reports are followed (R529). -/
def idle (s : State) : State := reactFollow (gapOver (advance s 1))

/-- The command at the front of the queue runs on the state with the queue's rest; on an empty queue a tick passes. -/
def step (s : State) : Host.Outcome State Fault Refusal :=
  match s.pending with
  | [] => .next (idle s)
  | c :: rest => exec c { s with pending := rest }

/-- The state with the command that a word spells at the front of its queue; unchanged where it spells none. -/
def State.withFetchWord (s : State) (nbits w : Nat) : State :=
  match Sys2Proof.decodeTableWord nbits w with
  | none => s
  | some c => { s with pending := c :: s.pending }

end Sys2Proof.Machine
end

