-- ==== Sys2Proof/WellFormed.lean ====
section
/-! DEFINITION. What an operand may hold: the bounds that the spec sets on what a command carries. A meaning answers on every operand; a command outside these bounds stands for nothing that can be sent. -/

namespace Sys2Proof

/-- Does a number fit a 32-bit register (R7)? -/
def isWord (v : Nat) : Bool := decide (v < 2 ^ 32)

/-- Does an offset lie in the 64 MiB of BAR0 (R589), or of BAR2 (R481)? -/
def isBar0 (a : Nat) : Bool := decide (a < 2 ^ 26)

/-- The fields of Table 18-4 hold what their widths hold, and the operands are at most the 224 bytes of four entries (R489). -/
def HostCmd.wf (c : HostCmd) : Bool :=
  decide (c.fn < 256) && decide (c.ring < 17) && decide (c.opcode < 256) && decide (c.tag < 65536) && decide (c.table < 256)
    && decide (c.sub < 256) && decide (c.opnd.length ≤ 224)

/-- An item of the CMD stream (R342) holds a well-formed command or a register write of 32 bits. -/
def CmdItem.wf : CmdItem → Bool
  | .table c status => c.wf && decide (status < 256)
  | .reg fn addr data => decide (fn < 256) && isBar0 addr && isWord data

/-- Is a command one that can be sent? A host command also carries the opcode of its row (Table 18-5). -/
def Instr.wf : Instr → Bool
  | .vinGood lost => decide (lost.length ≤ 4096)
  | .vinFail => true
  | .vinDip => true
  | .vinWarn => true
  | .vinWarnClear => true
  | .resetLLow => true
  | .resetExit _ ⟨vbatMv, rcal⟩ => decide (vbatMv < 65536) && rcal.length == 5
  | .nvmIdAttempt _ _ => true
  | .imageBlockRead data => decide (data.length ≤ 65536)
  | .loadComplete => true
  | .verifyComplete => true
  | .configRecord => true
  | .applyComplete _ => true
  | .bringupComplete => true
  | .rootPllLockTimeout => true
  | .pllLocked _ => true
  | .rampStep => true
  | .stairTransfer _ _ _ _ => true
  | .lineLaneCalibration _ _ _ => true
  | .linkTrainingDone _ _ => true
  | .linkTrainingRetry _ => true
  | .retrain _ => true
  | .admin _ v => decide (v < 4)
  | .lineFrameReceive _ b _ _ _ _ => decide (b.length ≤ 16384)
  | .macControlFrame _ b => decide (b.length ≤ 16384)
  | .pauseTimerExpire _ _ => true
  | .pfcRefresh _ => true
  | .pfcStormDetect _ _ => true
  | .pfcStormRestore _ _ => true
  | .linkFaultDetect _ => true
  | .remoteFaultReceived _ => true
  | .synceResume _ => true
  | .ingressPass _ _ _ _ => true
  | .fragEntryAge _ _ _ => true
  | .fragFlush _ => true
  | .scanWindow _ _ => true
  | .sigWrite c => c.wf && c.opcode == 0x10
  | .sigInvalidate c => c.wf && c.opcode == 0x11
  | .sigProfile c => c.wf && c.opcode == 0x12
  | .sigClear c => c.wf && c.opcode == 0x13
  | .sigCopy c => c.wf && c.opcode == 0x14
  | .sigCopyDone => true
  | .sigSwap c => c.wf && c.opcode == 0x15
  | .sigSwapInstant => true
  | .sigRead c _ => c.wf && c.opcode == 0x16
  | .sigCancel => true
  | .oldBankDrained => true
  | .sigEntryRepair _ key _ => decide (key < 32768)
  | .insert c => c.wf && c.opcode == 0x1
  | .delete c => c.wf && c.opcode == 0x2
  | .modify c => c.wf && c.opcode == 0x3
  | .search c => c.wf && c.opcode == 0x4
  | .next c => c.wf && c.opcode == 0x5
  | .readEntry c => c.wf && c.opcode == 0x6
  | .move c => c.wf && c.opcode == 0x7
  | .flushByPort c => c.wf && c.opcode == 0x8
  | .flushByPortDone => true
  | .nop c => c.wf && c.opcode == 0x20
  | .learnBusMsg => true
  | .learnRefreshMsg => true
  | .ageSweep _ _ => true
  | .trieNodeRebuild => true
  | .policerSweep => true
  | .recircSlot _ => true
  | .hallRelease _ => true
  | .egressPass _ => true
  | .bufferArrival _ => true
  | .dramReadComplete _ _ _ _ _ => true
  | .dramWriteComplete _ retries _ _ => decide (retries ≤ 7)
  | .mergeTimeout _ => true
  | .tagWriteback ⟨_, retries, _⟩ => decide (retries ≤ 7)
  | .wmCrossedClear monitorNotPool i => decide (i < if monitorNotPool then 4096 else 16)
  | .qwmConfig _ v => isWord v
  | .requestRetry _ => true
  | .creditGrant _ => true
  | .voqTimeout _ => true
  | .voqDequeue _ => true
  | .egressSelect _ _ => true
  | .calendarSlot => true
  | .fenceLift i => decide (i < 65536)
  | .fenceTimeout i => decide (i < 65536)
  | .gateEntryChange _ => true
  | .gateEnable _ _ => true
  | .gateChange _ => true
  | .gateCancel _ => true
  | .gateActivate _ => true
  | .stagedFrameStart _ _ => true
  | .gateNofit _ _ => true
  | .epochWindow => true
  | .fabricLaneCalibration _ _ _ => true
  | .fabricTrainingRetry _ _ => true
  | .caravanFrameSend _ => true
  | .caravanFrameReceive _ _ frame _ _ => frame.length == 4112
  | .slipRead _ _ => true
  | .cellReceive _ _ => true
  | .holeTimeout _ _ _ => true
  | .contextFree _ _ _ => true
  | .defectDeclare _ _ _ => true
  | .defectClear _ _ _ => true
  | .degInterval _ _ => true
  | .bkpWatchdog _ _ => true
  | .protClear => true
  | .protManualSwitch _ => true
  | .protForcedSwitch _ => true
  | .protLockout => true
  | .protTest => true
  | .wtrExpire => true
  | .srqIncDeclare => true
  | .pmSecond => true
  | .dramTraining _ _ => true
  | .dramRefresh _ => true
  | .dramTempReadout _ _ => true
  | .retrainDue _ => true
  | .drcRetrain _ => true
  | .pauseBegin _ => true
  | .pauseEnd _ _ => true
  | .dramTestStep _ _ _ => true
  | .lease _ ⟨_, body⟩ _ _ => decide (body < 2 ^ 48)
  | .standby ⟨_, body⟩ _ _ => decide (body < 2 ^ 48)
  | .switch ⟨_, body⟩ _ _ => decide (body < 2 ^ 48)
  | .withdraw ⟨_, body⟩ _ _ => decide (body < 2 ^ 48)
  | .arbLoss => true
  | .leaseExpire => true
  | .healthSend => true
  | .helloSend => true
  | .faultMsgSend => true
  | .galleryHelloSend => true
  | .galleryHelloReceive _ digest alt _ => digest.length == 48 && alt.all (fun d => d.length == 48)
  | .galleryLoss => true
  | .cmdItemApply rx => rx.all (fun x => isWord x.1 && x.2.wf)
  | .nackReceive ⟨q, _⟩ => isWord q
  | .ackStall => true
  | .stateSnapshot => true
  | .stateRecordApply _ => true
  | .baselineLatch => true
  | .baselineApply _ _ _ => true
  | .resync v => isWord v
  | .replayRegion ⟨_, items⟩ => items.all CmdItem.wf
  | .resyncComplete seq => isWord seq
  | .standbyProbe => true
  | .marginMeasure margins => margins.all (fun m => decide (m < 256))
  | .partnerFaultRecord rcd => rcd.length == 8
  | .reread v => isWord v
  | .pushStart v => isWord v
  | .pushComplete _ _ => true
  | .pushSlotProgram _ => true
  | .commitFw => true
  | .commitCfg => true
  | .keyRevoke v => isWord v
  | .toField v => isWord v
  | .stageStart v => isWord v
  | .stagingDone _ _ _ _ => true
  | .prepareDone => true
  | .arm v => isWord v
  | .disarm v => isWord v
  | .activation => true
  | .firmwareSwapDone => true
  | .confirm v => isWord v
  | .abandon v => isWord v
  | .restartAct v => isWord v
  | .discard v => isWord v
  | .trialExpire => true
  | .fallbackStart => true
  | .fallbackDone => true
  | .refClockLoss _ => true
  | .refClockReturn _ => true
  | .pllLoss _ => true
  | .clkFreqAlarm _ offset => isWord offset
  | .ppsInLoss => true
  | .cd38Loss => true
  | .relockFd => true
  | .relockQd => true
  | .rootRelockDone _ _ => true
  | .timSet v => isWord v
  | .timAdd v => isWord v
  | .timIncrCommit v => isWord v
  | .ppsOutEdge _ => true
  | .ppsInEdge _ => true
  | .clkoutConfig v => isWord v
  | .railOut _ _ _ => true
  | .railRecover => true
  | .tempSensorRead temps => temps.length == 72 && temps.all (fun x => decide (x < 65536))
  | .tripRecover => true
  | .vbatCollapse => true
  | .holdoverWrite => true
  | .clrRec => true
  | .vio18Overload => true
  | .telemetryUpdate _ _ _ _ _ grp die => grp.length == 8 && die.length == 3
  | .sliceAdd => true
  | .sliceRemove => true
  | .sliceSleep => true
  | .drainEnd _ _ => true
  | .enteringDone _ => true
  | .wakeDone _ => true
  | .join _ => true
  | .maintGrant _ _ => true
  | .maintDeadline _ _ => true
  | .prodDoorbell _ _ v => isWord v
  | .consDoorbell _ _ v => isWord v
  | .ringEnable _ _ v => isWord v
  | .ringDisable _ _ v _ => isWord v
  | .flush _ _ v _ => isWord v
  | .commandFetch _ _ entry => entry.all (fun e => e.length == 64)
  | .msixHoldoffEnd _ _ => true
  | .flr _ => true
  | .pciePerst => true
  | .txDescriptor _ _ entry data => entry.all (fun e => e.length == 64) && data.all (fun d => decide (d.length ≤ 16384))
  | .hostFrameDeliver => true
  | .bar2Write off v => decide (off < 2 ^ 26) && isWord v
  | .pwfClear => true
  | .grant _ _ v => isWord v
  | .msixSizeWrite _ v => isWord v
  | .sharedScratchOp _ => true
  | .scrWindowWrite addr v => isBar0 addr && isWord v
  | .scrAliasSet addr v => isBar0 addr && isWord v
  | .scrAliasClear addr v => isBar0 addr && isWord v
  | .scrAtomicAdd => true
  | .scrAtomicSwap => true
  | .scrTestStep _ fails => fails.all (fun x => decide (x < 2 ^ 23))
  | .faultCollect => true
  | .fltStatusClear src => decide (src < 2048)
  | .firstFaultClear => true
  | .ringRdWrite v => isWord v
  | .nvlogAppend => true
  | .nvlogRead v => isWord v
  | .pairRead v => isWord v
  | .dumpEpoch _ => true
  | .dumpWrite _ => true
  | .perfTenantWrite _ v => isWord v
  | .tapReset => true
  | .extest => true
  | .idcode => true
  | .samplePreload => true
  | .extestPulse => true
  | .extestTrain => true
  | .clamp => true
  | .highz => true
  | .serial => true
  | .mbist => true
  | .otpRead => true
  | .scan => true
  | .bypass => true
  | .laneTestConfig _ v => isWord v
  | .checkerLockChange _ _ => true
  | .probeGo v => isWord v
  | .probeCapture _ _ => true
  | .probeTimeout _ => true
  | .faultInject v => isWord v
  | .memoryInjectArm v => isWord v
  | .devReset v => isWord v
  | .registerWrite _ addr width v => isBar0 addr && (width == 1 || width == 2 || width == 4 || width == 8) && decide (v < 2 ^ 64)
  | .readClear _ bar2 ⟨addr, width⟩ => isBar0 addr && (width == 4 || (!bar2 && (width == 1 || width == 2 || width == 8)))
  | .loReadLatch _ addr => isBar0 addr
  | .hiWriteCommit _ addr v => isBar0 addr && isWord v
  | .fabricLinkTrainingDone _ _ _ => true
  | .galleryLaneCalibration _ _ => true
  | .linkFaultClear _ => true
  | .remoteFaultClear _ => true
  | .vbatLow _ => true
  | .vio18Recover => true
  | .pcieLinkChange _ gen width _ vfs msix => decide (gen ≤ 6) && decide (width ≤ 16) && decide (vfs ≤ 255) && msix.all (fun f => decide (f < 256))
  | .pciePerstRelease => true
  | .pllLockFail _ => true
  | .accessExpired _ _ addr v => isBar0 addr && isWord v
  | .checkerBitError _ _ => true

end Sys2Proof
end

