-- ==== Sys2Proof/Safety.lean ====
section
/-! DEFINITION. What counts as a sound state and a safe run of the block, in the terms of the claims: the canonical form of its memories, the rules that every state of a run keeps, and a step that answers. -/

namespace Sys2Proof.Machine

/-- The canonical form of the register store of BAR0: offsets strictly rise, and no register is listed at its reset value. -/
def RegsCanon (m : NMap Word) : Prop := mwf regReset m = true

/-- The canonical form of scratch memory: word numbers strictly rise, and no word is listed as 0, which it reads as unlisted (R522). -/
def ScratchCanon (m : NMap Nat) : Prop := mwf (fun _ => 0) m = true

/-- The canonical form of the direct tables: keys strictly rise, and no entry is listed at its start value (R605). -/
def TablesCanon (m : NMap Nat) : Prop := mwf keyStart m = true

/-- The canonical form of the three addressed stores of the block. -/
def State.Canon (s : State) : Prop := RegsCanon s.regs ∧ ScratchCanon s.scr.words ∧ TablesCanon s.tab.direct

/-- OTP is programmed once (R372, R373, R379): the serial number, the revision, the stepping and the identities of the dies stay, the entries of
both floors stay and only get successors, and a revoked key slot stays revoked. -/
structure Otp.Grows (o p : Otp) : Prop where
  serial : p.serial = o.serial
  rev : p.rev = o.rev
  step : p.step = o.step
  die0 : p.die0 = o.die0
  die1 : p.die1 = o.die1
  floorFw : o.floorFw <+: p.floorFw
  floorCfg : o.floorCfg <+: p.floorCfg
  revoked : ∀ k e, mfind o.keys k = some e → e.revoked = true → ∃ f, mfind p.keys k = some f ∧ f.revoked = true

/-- What no command may touch: the commands that wait behind it, and what OTP holds. -/
def State.Fixed (s t : State) : Prop := t.pending = s.pending ∧ s.otp.Grows t.otp

/-- The relation of every state to the states that follow it: what is fixed stays, and canonical forms are kept. -/
def State.Keeps (s t : State) : Prop := State.Fixed s t ∧ (s.Canon → t.Canon)

/-- Every command that waits is one that can be sent. -/
def State.QueueWf (s : State) : Prop := s.pending.all Instr.wf = true

/-- A step answers a next state: the machine neither stops nor refuses. -/
def State.Goes (s : State) : Prop := ∃ t, step s = .next t

/-- A command completes: it answers a next state, and that state has a property. -/
def Completes (c : Instr) (s : State) (p : State → Prop) : Prop := ∃ t, exec c s = .next t ∧ p t

/-- No register of BAR0 differs, but for those at some offsets. -/
def RegsBut (l : List Nat) (s t : State) : Prop := ∀ a, a ∉ l → rd t a = rd s a

/-- The condition of a level source holds (R526). -/
def State.causeOn (s : State) (src : Nat) : Bool := (mfind s.flt.cause src).isSome

/-! ## Terms of the statements -/

/-- PF0 writes an assigned register of BAR0 that is no scratch window, no ring page and not a register of an absent port. -/
structure PfHits (s : State) (a : Nat) (r : RegRow) : Prop where
  reach : reaches s 0 = true
  aligned : a % 4 = 0
  window : isWindow a = false
  inside : a < 0x4000000
  page : pageAt a = none
  row : regRow a = some r
  port : linPort a = none
/-- No rule gives the write of an OPER register an effect beyond storing it, and it is not mirrored. -/
structure PlainOper (s : State) (a v : Nat) (r : RegRow) : Prop where
  cls : r.cls = .oper
  opens : operOpen s = true
  ownA : operOwnA s a v = none
  ownB : operOwnB s a v = none
  ownC : operOwnC s a v = none
  ownD : operOwnD s a v = none
  unmirrored : mirroredReg a = false

/-- A register that no fault report touches. -/
def OffReport (a : Nat) : Prop := a < 0x0400000 ∨ (0x0410000 ≤ a ∧ a < 0x1600000) ∨ 0x1800000 ≤ a

/-- The registers outside the line ports, the fabric, the collector and the DRAM interfaces. -/
def OffSettle (a : Nat) : Prop := a < 0x0400000 ∨ (0x0410000 ≤ a ∧ a < 0x0800000) ∨ (0x0940000 ≤ a ∧ a < 0x1400000) ∨ 0x1800000 ≤ a

/-- The BODY of a message, from the bits that ARB_RX carries (R329). -/
def landingBody (s : State) (body : Nat) : Nat := arbPolar s Reg.PAIR_LINK_CFG_ARB_RX_INV 48 body

/-- A message that the Landing interface takes: the bits before it are the sync word, its CRC-8 is right, it names the card's TAG, and its EPOCH is current (R329, R330, R332, R333, R337). -/
def LandingTakes (s : State) (sync typ body crc : Nat) : Prop :=
  powered s = true ∧ role s ≠ 0 ∧ arbPolar s Reg.PAIR_LINK_CFG_ARB_RX_INV 16 sync = 0xF0C5 ∧
  crc8 (beBytes 7 (typ * 2 ^ 48 + landingBody s body)) = arbPolar s Reg.PAIR_LINK_CFG_ARB_RX_INV 8 crc ∧
  bits (landingBody s body) 24 24 = s.otp.serial % 2 ^ 24 ∧
  (s.pair.epochSeen = true → (bits (landingBody s body) 8 16 + 65536 - getF s Reg.PAIR_EPOCH_EPOCH) % 65536 ≤ 32767)

/-! ## Which commands may change what -/

/-- Commands that can move the top-level state (Table 1-8): power, resets, loading, the test access port, and writes of the registers whose actions reset. -/
def movesTop : Instr → Bool
  | .vinGood _ | .vinFail | .vinWarnClear | .resetLLow | .resetExit _ _ | .nvmIdAttempt _ _ | .imageBlockRead _ | .loadComplete | .verifyComplete
  | .configRecord | .applyComplete _ | .bringupComplete | .rootPllLockTimeout | .reread _ | .pushComplete _ _ | .pushSlotProgram _ | .restartAct _
  | .fallbackDone | .tempSensorRead _ | .tapReset | .extest | .idcode | .samplePreload | .extestPulse | .extestTrain | .clamp | .highz | .serial
  | .mbist | .otpRead | .scan | .bypass | .devReset _ | .registerWrite _ _ _ _ | .hiWriteCommit _ _ _ => true
  | _ => false

/-- Commands that can change scratch memory: its own (R507), an ingress pass, reads that find an error, and every way into RESET or OFF (R522). -/
def writesScratch : Instr → Bool
  | .vinGood _ | .vinFail | .vinWarnClear | .resetLLow | .ingressPass _ _ _ _ | .restartAct _ | .fallbackDone | .tempSensorRead _
  | .sharedScratchOp _ | .scrWindowWrite _ _ | .scrAliasSet _ _ | .scrAliasClear _ _ | .scrAtomicAdd | .scrAtomicSwap | .scrTestStep _ _ | .tapReset
  | .extest | .idcode | .samplePreload | .extestPulse | .extestTrain | .clamp | .highz | .serial | .mbist | .otpRead | .scan | .bypass | .devReset _
  | .registerWrite _ _ _ _ | .readClear _ _ _ | .loReadLatch _ _ | .hiWriteCommit _ _ _ => true
  | _ => false

/-- Commands that can change the tables: table commands, learning and ageing, sweeps, the standby's items, images, and every way into RESET or OFF. -/
def writesTables : Instr → Bool
  | .vinGood _ | .vinFail | .vinWarnClear | .resetLLow | .configRecord | .ingressPass _ _ _ _ | .insert _ | .delete _ | .modify _ | .move _
  | .flushByPort _ | .flushByPortDone | .learnBusMsg | .learnRefreshMsg | .ageSweep _ _ | .trieNodeRebuild | .policerSweep | .egressPass _
  | .cmdItemApply _ | .stateSnapshot | .stateRecordApply _ | .replayRegion _ | .reread _ | .pushComplete _ _ | .prepareDone | .disarm _ | .activation
  | .restartAct _ | .fallbackStart | .fallbackDone | .timSet _ | .timAdd _ | .tempSensorRead _ | .join _ | .flr _ | .pciePerst | .bar2Write _ _
  | .tapReset | .extest | .idcode | .samplePreload | .extestPulse | .extestTrain | .clamp | .highz | .serial | .mbist | .otpRead | .scan | .bypass
  | .devReset _ | .registerWrite _ _ _ _ | .hiWriteCommit _ _ _ | .pcieLinkChange _ _ _ _ _ _ => true
  | _ => false

end Sys2Proof.Machine
end

