-- ==== Sys2Proof/Certificates/Slice0/Obligations.lean ====
section
/-! DEFINITION. The statements for the provers: what the rules of the spec say each command does, and what holds of every step. -/

open Sys2Proof Sys2Proof.Machine

/-- A step runs the command at the front of the queue. Rests on R13. Log entries: 2, 9. -/
def Obligations.StepRunsTheFrontCommand : Prop :=
  (∀ s c, step { s with pending := c :: s.pending } = exec c s) ∧ (∀ s c rest, s.pending = c :: rest → step s = exec c { s with pending := rest })

/-- With no command waiting a step is one tick (the model's choice, log entry 1). Rests on R533, R422. Log entries: 1. -/
def Obligations.EmptyQueueStepIsOneTick : Prop :=
  (∀ s, s.pending = [] → ∃ t, step s = .next t ∧ t.tab = s.tab ∧ t.scr = s.scr ∧ t.otp = s.otp ∧ t.top = s.top ∧ t.pending = [] ∧ (s.top ≠ .off → s.top ≠ .reset → t.tick = s.tick + 1)) ∧
  (∀ s, s.pending = [] → s.flt.follow = false → s.pair.gap = none → ∃ t, step s = .next t ∧ t = advance s 1 ∧ t.regs = s.regs)

/-- Every step of every state answers a next state. Rests on R502, R528. Log entries: 4. -/
def Obligations.EveryStepAnswersNext : Prop :=
  ∀ s : State, s.Goes

/-- A step takes the front command and no other. Rests on R13. Log entries: 2. -/
def Obligations.StepTakesOnlyTheFrontCommand : Prop :=
  ∀ s t : State, step s = .next t → t.pending = s.pending.tail

/-- A queue of well-formed commands stays one. Rests on R13. Log entries: 2. -/
def Obligations.WellFormedQueueStays : Prop :=
  ∀ s t : State, s.QueueWf → step s = .next t → t.QueueWf

/-- Every step keeps the canonical form of the register, scratch and table stores. Rests on R29, R522, R605. Log entries: 12. -/
def Obligations.StepKeepsCanonicalStores : Prop :=
  ∀ s t : State, s.Canon → step s = .next t → t.Canon

/-- No step undoes what OTP holds. Rests on R372, R373, R379. -/
def Obligations.StepOnlyGrowsOtp : Prop :=
  ∀ s t : State, step s = .next t → s.otp.Grows t.otp

/-- The state after reset is canonical and nothing waits. Rests on R29, R522, R605. Log entries: 6. -/
def Obligations.ResetIsCanonicalAndIdle : Prop :=
  State.reset.Canon ∧ State.reset.pending = [] ∧ State.reset.QueueWf

/-- What reset leaves. Rests on R29, R32, R522, R573, R605. Log entries: 6, 7, 10. -/
def Obligations.ResetHoldsTheSpecValues : Prop :=
  State.reset.top = .load ∧ State.reset.tick = 0 ∧ State.reset.boot.sealed = false ∧ role State.reset = 0 ∧ (∀ a, a ≠ Reg.TST_STAT → rd State.reset a = regReset a) ∧
  getF State.reset Reg.TST_STAT_INSTR = 1 ∧ (∀ m w, scrData State.reset m w = 0) ∧ (∀ t i, tabGet State.reset t i = keyStart (tabKey t i)) ∧ State.reset.tab.mac = [] ∧ State.reset.qd.bufs = [] ∧
  State.reset.hif.inFlight = [] ∧ State.reset.flt.latch = [] ∧ State.reset.fab.cells = []

/-- Only the listed commands move the top-level state. Rests on R32, R33. -/
def Obligations.TopStateMovesOnlyByItsCommands : Prop :=
  ∀ (c : Instr) (s t : State), movesTop c = false → exec c s = .next t → t.top = s.top

/-- Only the listed commands write scratch memory. Rests on R507, R522. Log entries: 12. -/
def Obligations.ScratchStoreFrame : Prop :=
  ∀ (c : Instr) (s t : State), writesScratch c = false → exec c s = .next t → t.scr.words = s.scr.words

/-- Only the listed commands write the tables. Rests on R117, R144, R150. Log entries: 12. -/
def Obligations.TableStoreFrame : Prop :=
  ∀ (c : Instr) (s t : State), writesTables c = false → exec c s = .next t → t.tab = s.tab

/-- A standby card becomes ACTIVE only on a SWITCH message. Rests on R328, R335. -/
def Obligations.StandbyIsPromotedOnlyBySwitch : Prop :=
  ∀ (c : Instr) (s t : State), role s = 2 → exec c s = .next t → role t = 1 → ∃ sync body crc, c = .switch ⟨sync, body⟩ crc true ∨ c = .lease 4 ⟨sync, body⟩ crc true

/-- After a TAP reset IDCODE is in force and reads as Table 23-1. Formalises R573. -/
def Obligations.TapResetSelectsIdcode : Prop :=
  ∀ s, s.top ≠ .off → getF s Reg.TST_STAT_INSTR ≠ 0x82 → Completes .tapReset s fun t => getF t Reg.TST_STAT_INSTR = 0x01 ∧ t.tst.dr = (32, s.otp.rev % 16 * 2 ^ 28 + 0x3240 * 2 ^ 12 + 0x4A5 * 2 + 1)

/-- A shaper's increment is the least that is never faster than its RATE. Formalises R243. -/
def Obligations.ShaperIncrementIsTheCeiling : Prop :=
  ∀ v, bits v 0 31 ≠ 0 → 12800000 * 2 ^ 32 ≤ shaperInc v * bits v 0 31 ∧ (shaperInc v - 1) * bits v 0 31 < 12800000 * 2 ^ 32

/-- A read of the NVM fault log returns the record and says whether its CHECK holds. Rests on R540. Log entries: 3. -/
def Obligations.NvLogReadReturnsTheRecord : Prop :=
  ∀ s v fmt r, operOpen s = true → mfind s.nvm.area.log (v % 8192) = some (fmt, r) → r.length = 8 → Completes (.nvlogRead v) s fun t =>
    (∀ k, k < 8 → rd t (Reg.FLT_NVLOG_DATA k) = r.getD k 0) ∧ flag t Reg.FLT_NVLOG_STAT_VALID = recordWhole r ∧ t.nvm = s.nvm

/-- VIN, RESET_L, leaving RESET and trip recovery. Rests on R32, R33, R435, R436, R437, R438, R439, R446, R450, R595. Log entries: 2, 91, 88. -/
def Obligations.SupplyInputsAndReset : Prop :=
  (∀ s l, s.top = .off → Completes (.vinGood l) s fun t => t.top = .reset ∧ t.boot.lc = (resolveLc s.otp).1 ∧ t.otp = (resolveLc s.otp).2.1 ∧
    t.vbat = s.vbat) ∧
  (∀ s, Completes .vinFail s fun t => t.top = .off ∧ t.otp = s.otp ∧ t.nvm = s.nvm ∧ t.vbat = s.vbat ∧ t.qd = {} ∧ t.tab = {} ∧ ∀ a, rd t a = regReset a) ∧
  (∀ s, s.top ≠ .off → Completes .vinDip s fun t => rd t (Reg.PWR_CNT 1) = countWord (rd s (Reg.PWR_CNT 1)) 1 ∧ RegsBut [Reg.PWR_CNT 1] s t ∧
    t = { s with regs := t.regs }) ∧
  (∀ s, s.top ≠ .off → s.causeOn Src.vinWarn = false → Completes .vinWarn s fun t => flag t Reg.PWR_VIN_STAT_WARN = true ∧
    rd t (Reg.PWR_CNT 0) = countWord (rd s (Reg.PWR_CNT 0)) 1 ∧ t.causeOn Src.vinWarn = true ∧ t.top = s.top) ∧
  (∀ s, s.boot.dirOwed = none → Completes .vinWarnClear s fun t => flag t Reg.PWR_VIN_STAT_WARN = false ∧ t.causeOn Src.vinWarn = false ∧ RegsBut [Reg.PWR_VIN_STAT] s t) ∧
  (∀ s, s.top ≠ .off → s.top ≠ .reset → Completes .resetLLow s fun t => t.top = .reset ∧ t.pwr.cause = 2 ∧ t.pwr.resetL = false ∧
    ∀ a, stickyReg a = false → a ≠ Reg.BOOT_STAT → a ≠ Reg.TST_STAT → rd t a = regReset a) ∧
  (∀ s, s.top = .reset → s.pwr.tripHold = false → s.pwr.railOut = [] → s.boot.lc ≠ .blank → ∀ tm mv rcal, Completes (.resetExit tm ⟨mv, rcal⟩) s fun t =>
    t.top = .load ∧ t.tick = 0 ∧ t.pwr.resetL = true ∧ t.pwr.pwrgood = true ∧ t.pwr.tmSample = tm ∧ t.pwr.rcal = rcal.take 5) ∧
  (∀ s, s.pwr.tripHold = true → s.pwr.cool = true → Completes .tripRecover s fun t => t = { s with pwr := { s.pwr with tripHold := false, resetL := true } }) ∧
  (∀ s, ∃ t u, exec .vinFail s = .next t ∧ exec .resetLLow t = .next u ∧ u.top = .off ∧ ∃ v w, exec .resetLLow s = .next v ∧ exec .vinFail v = .next w ∧ w.top = .off) ∧
  (∀ s n, s.top = .off ∨ s.top = .reset ∨ s.top = .hold → Completes .verifyComplete s (fun t => t = s) ∧ Completes .configRecord s (fun t => t = s) ∧
    Completes (.applyComplete n) s (fun t => t = s) ∧ Completes .bringupComplete s (fun t => t = s) ∧ Completes .rootPllLockTimeout s (fun t => t = s))

/-- Rails, VIO18, the VBAT domain and the holdover record. Rests on R441, R444, R445, R446, R447. Log entries: 90, 3. -/
def Obligations.RailsBatteryAndHoldover : Prop :=
  (∀ s (k : Fin 7) d sl, s.top ≠ .off → k.val ∉ s.pwr.railOut → Completes (.railOut k d sl) s fun t => t.pwr.railOut = k.val :: s.pwr.railOut ∧ t.pwr.pwrgood = false ∧
    rd t (Reg.PWR_CNT 2) = countWord (rd s (Reg.PWR_CNT 2)) 1 ∧ t.causeOn (Src.rail k) = true) ∧
  (∀ s, s.pwr.railOut ≠ [] → Completes .railRecover s fun t => t.pwr.railOut = [] ∧ t.pwr.pwrgood = !s.pwr.tripHold ∧ ∀ k ∈ s.pwr.railOut, t.causeOn (Src.rail k) = false) ∧
  (∀ s, s.top ≠ .off → s.causeOn Src.vio18 = false → Completes .vio18Overload s fun t => flag t Reg.PWR_RAIL_STAT_VIO18_OC = true ∧ t.causeOn Src.vio18 = true ∧
     rd t (Reg.PWR_CNT 5) = countWord (rd s (Reg.PWR_CNT 5)) 1) ∧
  (∀ s, Completes .vio18Recover s fun t => flag t Reg.PWR_RAIL_STAT_VIO18_OC = false ∧ t.causeOn Src.vio18 = false) ∧
  (∀ s low, s.top ≠ .off → Completes (.vbatLow low) s fun t => flag t Reg.PWR_BAT_STAT_VBAT_LOW = low ∧ t.causeOn Src.vbatLow = low) ∧
  (∀ s, Completes .vbatCollapse s fun t => t = { s with vbat := { s.vbat with timeMark := 0, recMark := 0, collapsed := true } }) ∧
  (∀ s, s.top ≠ .off → timeState s ≠ 0 → Completes .holdoverWrite s fun t => t.vbat.sec = s.ptp.sec ∧ t.vbat.sub = s.ptp.ns * 32768 / 1000000000 ∧ t.vbat.timeMark = 0xA55A ∧
    t = { s with vbat := t.vbat }) ∧
  (∀ s, operOpen s = true → Completes .clrRec s fun t => t = { s with vbat := { s.vbat with recMark := 0 } })

/-- Temperature and power readings. Rests on R448, R450, R461. Log entries: 92. -/
def Obligations.SensorsAndTelemetry : Prop :=
  (∀ s temps, s.top ≠ .off → temps.length = 72 → (∀ x ∈ temps, signed 12 x < 1280) → Completes (.tempSensorRead temps) s fun t =>
    (∀ n, n < 72 → getF t (Reg.PWR_TEMP_TEMP n) = temps.getD n 0 % 4096 ∧ flag t (Reg.PWR_TEMP_VALID n) = true) ∧ t.pwr.hot = []) ∧
  (∀ s vin iin pin vbat vio grp die, powered s = true → Completes (.telemetryUpdate vin iin pin vbat vio grp die) s fun t =>
    getF t Reg.PWR_VIN_STAT_VIN_MV = vin % 8192 ∧ getF t Reg.PWR_VIN_MIN_MIN_MV = min (getF s Reg.PWR_VIN_MIN_MIN_MV) (vin % 8192) ∧
    getF t Reg.PWR_IIN_STAT_PIN = pin % 2 ^ Reg.PWR_IIN_STAT_PIN.len ∧ ∀ k, k < 8 → getF t (Reg.PWR_GRP_PWR_POWER k) = grp.getD k 0 % 2 ^ (Reg.PWR_GRP_PWR_POWER k).len)

/-- PLL lock, lock timeouts, divider ramps and root relocks. Rests on R413, R414, R416, R418, R420, R421. Log entries: 93, 94. -/
def Obligations.PllStartRampAndRelock : Prop :=
  (∀ s (p : Fin 25), p.val ∈ s.clk.starting → Completes (.pllLocked p) s fun t => flag t (lockFld p) = true ∧ p.val ∉ t.clk.starting ∧ (2 ≤ p.val → t.causeOn (Src.pllLoss (p - 2)) = false)) ∧
  (∀ s, s.top = .bringup → 0 ∈ s.clk.starting → Completes .rootPllLockTimeout s fun t => t = settle s (enterHold s 14 0 0 0 0)) ∧
  (∀ s, 5 ∈ s.clk.starting → Completes (.pllLockFail 5) s fun t => t.causeOn (Src.pllLoss 3) = true ∧ 5 ∈ t.clk.starting) ∧
  (∀ s, flag s Reg.CLK_STAT_FD_RELOCK = false → flag s Reg.CLK_STAT_QD_RELOCK = false → ∀ k, s.clk.ramp = [(k, true)] → Completes .rampStep s fun t =>
    mget 0 t.clk.div k = rampNext (targetDiv (k % 16)) (mget 0 s.clk.div k) true ∧ t.regs = s.regs) ∧
  (∀ s, s.top = .run → flag s Reg.CLK_STAT_FD_RELOCK = false → Completes .relockFd s fun t => flag t Reg.CLK_STAT_FD_RELOCK = true ∧ rd t (Reg.CLK_CNT 2) = countWord (rd s (Reg.CLK_CNT 2)) 1) ∧
  (∀ s, s.top = .run → flag s Reg.CLK_STAT_QD_RELOCK = false → Completes .relockQd s fun t => flag t Reg.CLK_STAT_QD_RELOCK = true ∧ rd t (Reg.CLK_CNT 2) = countWord (rd s (Reg.CLK_CNT 2)) 1) ∧
  (∀ s (r : Fin 2), flag s (relockFld r) = true → Completes (.rootRelockDone r true) s fun t => flag t (lockFld r) = true ∧ t.causeOn (Src.rootLoss r) = false)

/-- Losses and returns of reference clocks, PLLs and PPS_IN. Rests on R419, R420, R422, R427, R530. Log entries: 94, 96, 130. -/
def Obligations.ClockLossesAndReturns : Prop :=
  (∀ s (r : Fin 4), powered s = true → s.causeOn (Src.sysRef + r) = false → Completes (.refClockLoss r) s fun t =>
    t = (let x := levelOn (bump (setB (setB s (refPresent r) false) (refLoss r) true) (Reg.CLK_CNT 0)) (Src.sysRef + r) (locSlice (refDie r) 63) 0
      if r = 1 ∧ flag s Reg.CLK_PLAN_TIME_FALLBACK then setB x Reg.TIM_STAT_TIME_SRC true else x)) ∧
  (∀ s (r : Fin 4), powered s = true → Completes (.refClockReturn r) s fun t =>
    t = (let x := setB (levelOff s (Src.sysRef + r)) (refPresent r) true; if r = 1 then setB x Reg.TIM_STAT_TIME_SRC false else x)) ∧
  (∀ s (p : Fin 25), 2 ≤ p.val → flag s (lockFld p) = true → s.causeOn (Src.sysRef + pllRef s p) = false → mfind s.flt.latch (Src.pllLoss (p - 2)) = none → Completes (.pllLoss p) s fun t =>
    t = waitShow (levelOn (pllStart (bump (setB s (lockFld p) false) (Reg.CLK_CNT 1)) [p.val]) (Src.pllLoss (p - 2)) (locSlice (pllDie p) 63) 0)) ∧
  (∀ s (r : Fin 3) n, r ≠ 2 → powered s = true → s.causeOn (Src.clkFreq r) = false → clamp 1 1000 (getF s Reg.CLK_MON_CFG_FREQ_TOL) * 10 < (signed 16 (n % 65536)).natAbs →
    Completes (.clkFreqAlarm r n) s fun t => rd t (Reg.CLK_CNT 3) = countWord (rd s (Reg.CLK_CNT 3)) 1 ∧ t.causeOn (Src.clkFreq r) = true ∧ getF t (Reg.CLK_MEAS_OFFSET r) = n % 65536) ∧
  (∀ s n, powered s = true → Completes (.clkFreqAlarm 2 n) s fun t => getF t (Reg.CLK_MEAS_OFFSET 2) = n % 65536 ∧ RegsBut [Reg.CLK_MEAS 2] s t ∧ t = { s with regs := t.regs }) ∧
  (∀ s, powered s = true → flag s Reg.TIM_PPS_CFG_IN_EN = true → s.causeOn Src.ppsLoss = false → Completes .ppsInLoss s fun t => flag t Reg.TIM_STAT_PPS_PRESENT = false ∧
     rd t (Reg.CLK_CNT 0) = countWord (rd s (Reg.CLK_CNT 0)) 1 ∧ t.causeOn Src.ppsLoss = true) ∧
  (∀ s, powered s = true → Completes .cd38Loss s fun t => faultLow t = true ∧ t = { s with pwr := { s.pwr with cd38Lost := true } })

/-- Setting the PTP clock, PPS and CLKOUT. Rests on R8, R424, R427, R428, R430. Log entries: 96, 129. -/
def Obligations.PtpClockAndPps : Prop :=
  (∀ s v, operOpen s = true → v % 4 = 1 → Completes (.timSet v) s fun t => t = stepped s.ptp { s with ptp := { sec := getF s Reg.TIM_SET_EXT_SEC_HI * 2 ^ 32 + getF s Reg.TIM_SET_HI_SEC_LO, ns := min 999999999 (getF s Reg.TIM_SET_LO_NS), frac := 0 } }) ∧
  (∀ s v, operOpen s = true → v % 4 = 2 → Completes (.timAdd v) s fun t => t = stepped s.ptp { s with ptp := Ptp.ofFine ((s.ptp.fine : Int) + signed 32 (getF s Reg.TIM_OFFSET_OFFSET) * (2 : Int) ^ 32).toNat }) ∧
  (∀ s v lo, operOpen s = true → mfind s.loHeld Reg.TIM_INCR_LO = some lo → Completes (.timIncrCommit v) s fun t =>
    rd t Reg.TIM_INCR_LO = lo ∧ getF t Reg.TIM_INCR_HI_WHOLE = v % 256 ∧ mfind t.loHeld Reg.TIM_INCR_LO = none ∧ RegsBut [Reg.TIM_INCR_LO, Reg.TIM_INCR_HI] s t) ∧
  (∀ s rise, s.boot.up = true → flag s Reg.TIM_PPS_CFG_OUT_EN = true → Completes (.ppsOutEdge rise) s fun t => t = { s with clk := { s.clk with ppsOut := rise } }) ∧
  (∀ s falling, s.boot.up = true → flag s Reg.TIM_PPS_CFG_IN_EN = true → flag s Reg.TIM_PPS_CFG_IN_POL = falling → Completes (.ppsInEdge falling) s fun t =>
    rd t (Reg.TIM_CNT 1) = countWord (rd s (Reg.TIM_CNT 1)) 1 ∧ getF t Reg.TIM_PPS_CAP_LO_NS = s.ptp.ns % 2 ^ 30 ∧ getF t Reg.TIM_PPS_CAP_HI_SEC_LO = s.ptp.sec % 2 ^ 32 ∧
    flag t Reg.TIM_STAT_PPS_CAPTURED = true ∧ flag t Reg.TIM_STAT_PPS_PRESENT = true ∧
    (flag s Reg.TIM_STAT_PPS_CAPTURED = true → rd t (Reg.TIM_CNT 2) = countWord (rd s (Reg.TIM_CNT 2)) 1)) ∧
  (∀ s v, operOpen s = true → Completes (.clkoutConfig v) s fun t => getF t Reg.CLK_OUT_CFG_SEL = v % 64 ∧ getF t Reg.CLK_OUT_CFG_DIV = v / 64 % 65536 ∧ flag t Reg.CLK_OUT_CFG_EN = bit v 22 ∧
    RegsBut [Reg.CLK_OUT_CFG] s t)

/-- Adding, removing, draining, sleeping, waking and joining a slice. Rests on R114, R324, R560, R562, R563, R564, R565. Log entries: 112, 162. -/
def Obligations.SliceAddRemoveSleepWake : Prop :=
  (∀ s (n : Nat), n < 40 → s.top = .run → sliceMask s = [n] → sliceState s n = 4 → Completes .sliceAdd s fun t => sliceState t n = 5 ∧ getF t (Reg.PWR_SLICE_STAT_RESULT n) = 0 ∧ RegsBut [Reg.PWR_SLICE_STAT n] s t) ∧
  (∀ s (n : Nat), n < 28 → s.top = .run → sliceMask s = [n] → sliceState s n = 1 → Completes .sliceRemove s fun t => sliceState t n = 2 ∧ getF t (Reg.PWR_SLICE_STAT_RESULT n) = 0 ∧
    mfind t.slc.drain n = some (s.tick, getF s Reg.PWR_DRAIN_CFG_LINE_FAB_US * ticksPerUs) ∧ t.qd = s.qd) ∧
  (∀ s (n : Nat), 20 ≤ n → n < 28 → s.top = .run → sliceMask s = [n] → sliceState s n = 1 → Completes .sliceSleep s fun t => sliceState t n = 3 ∧ getF t (Reg.PWR_SLICE_STAT_RESULT n) = 0) ∧
  (∀ s (n : Fin 40) d, 20 ≤ n.val → n.val < 28 → sliceState s n = 2 → mfind s.slc.drain n = some d → Completes (.drainEnd n true) s fun t => sliceState t n = 3 ∧
    getF t (Reg.PWR_SLICE_STAT_RESULT n) = (if sliceIdle s n then 3 else 4) ∧ getF t (Reg.PWR_SLICE_STAT_DRAIN_US n) = min 65535 ((s.tick - d.1) / ticksPerUs) ∧ mfind t.slc.drain n = none) ∧
  (∀ s (n : Nat), n < 40 → s.top = .run → sliceMask s = [n] → sliceState s n = 1 → Completes .sliceRemove s fun t => t = sliceResult (drainBegin s n) n 0) ∧
  (∀ s (n : Nat), n < 40 → s.top = .run → sliceMask s = [n] → (sliceState s n = 1 ∨ sliceState s n = 2 ∨ sliceState s n = 6) → Completes .sliceSleep s fun t => t = sliceResult (enterBegin s n) n 0) ∧
  (∀ s (n : Fin 40) limit, sliceState s n = 2 → (limit = true ∨ sliceIdle s n = true) → Completes (.drainEnd n limit) s fun t => t = enterBegin (sliceResult s n (if sliceIdle s n then 3 else 4)) n) ∧
  (∀ s (n : Fin 40), sliceState s n = 3 → (∀ i ∈ sliceDis n, diState s i = 0 ∨ diState s i = 6 ∨ diState s i = 7) → Completes (.enteringDone n) s fun t =>
    t = settle s (synceSquelch (sliceEnter (if n.val < 20 then lineLose (maintWithdraw s n) n else maintWithdraw s n) n 4))) ∧
  (∀ s (n : Fin 40), sliceState s n = 5 → Completes (.wakeDone n) s fun t => sliceState t n = 6 ∧ (∀ k ∈ t.sig.repair, k / 65536 ≠ n.val)) ∧
  (∀ s (n : Fin 40), sliceState s n = 6 → (∀ i ∈ sliceDis n, diState s i ≠ 1) → Completes (.join n) s fun t =>
    t = settle s (if 28 ≤ n.val then dramPools (sliceEnter (sweepRecorded s n) n 1) else sliceEnter (sweepRecorded s n) n 1))

/-- Grants and deadlines of maintenance activities. Rests on R566, R567, R568. Log entries: 113. -/
def Obligations.MaintenanceGrantAndDeadline : Prop :=
  (∀ s (i : Nat) m, i < 24 → s.slc.due.find? (fun x => x.act == 1 && x.res == i) = some m → isDue s 1 i = true → grantOk s 1 i = true → comesBefore s m = false →
    Completes (.maintGrant 1 i) s fun t => t = granted_ s m) ∧
  (∀ s (g : Nat), resOwes s 2 g = true → maintHeld s 2 g = false → isRunning s 2 g = false → isRunning s 3 g = false → s.slc.due.find? (fun x => x.act == 2 && x.res == g) = none → Completes (.maintGrant 2 g) s fun t =>
    t.regs = s.regs ∧ t.slc.running = s.slc.running) ∧
  (∀ s (a : Fin 6) (r : Nat), owed s a r = true → resOwes s a r = true → isRunning s a r = false → s.slc.due.any (fun m => m.act == a.val && m.res == r && m.late) = false →
    Completes (.maintDeadline a r) s fun t => rd t (Reg.PWR_MAINT_CNT a) = countWord (rd s (Reg.PWR_MAINT_CNT a)) 1) ∧
  (∀ s (a : Fin 6) (r : Nat), a ≠ 1 → a ≠ 4 → owed s a r = true → resOwes s a r = true → isRunning s a r = false → s.slc.due.any (fun m => m.act == a.val && m.res == r && m.late) = false →
    mfind s.flt.latch (Src.maintLate a) = none →
    Completes (.maintDeadline a r) s fun t => t.slc.running = s.slc.running ∧ t.slc.due = (fallDue s a r).slc.due.map (fun m => if m.act = a.val ∧ m.res = r then { m with late := true } else m))

/-- Collecting a latched report, clearing status, the first fault and the ring pointer. Rests on R526, R528, R533, R534, R535, R537. Log entries: 3, 87. -/
def Obligations.FaultCollectAndClear : Prop :=
  (∀ s src r, nextLatched s.tick s.flt.latch = some (src, r) → r.sev = 0 → mfind s.flt.lastRec src = none → Completes .faultCollect s fun t =>
    srcStatus t src = true ∧ mfind t.flt.latch src = none ∧ t.flt.seq = s.flt.seq ∧ t.flt.hold = s.flt.hold) ∧
  (∀ s, nextLatched s.tick s.flt.latch = none → Completes .faultCollect s fun t => t = s) ∧
  (∀ s src, powered s = true → srcStatus s src = true → srcCause s src = false → mfind s.flt.latch src = none → (∀ e ∈ s.flt.hold, e.1 ≠ src) →
    Completes (.fltStatusClear src) s fun t => srcStatus t src = false ∧ (∀ k, k ≠ src → srcStatus t k = srcStatus s k) ∧ t.regs = s.regs) ∧
  (∀ s src, powered s = true → srcStatus s src = true → srcCause s src = true → Completes (.fltStatusClear src) s fun t =>
    srcStatus t src = true ∧ rd t (Reg.FLT_CNT 1) = countWord (rd s (Reg.FLT_CNT 1)) 1) ∧
  (∀ s, operOpen s = true → (∀ t x l, s.flt.firstOf = some (t, x, l) → t ≠ s.tick) → Completes .firstFaultClear s fun t => flag t Reg.FLT_FIRST_STAT_VALID = false ∧ (∀ k, k < 8 → rd t (Reg.FLT_FIRST k) = 0)) ∧
  (∀ s x l, operOpen s = true → s.flt.firstOf = some (s.tick, x, l) → l.length = 8 → Completes .firstFaultClear s fun t => flag t Reg.FLT_FIRST_STAT_VALID = true ∧
    (∀ k, k < 8 → rd t (Reg.FLT_FIRST k) = l.getD k 0)) ∧
  (∀ s v, operOpen s = true → (v % 1024 + 1024 - getF s Reg.FLT_RING_RD_RD_IDX) % 1024 ≤ (getF s Reg.FLT_RING_STAT_WR_IDX + 1024 - getF s Reg.FLT_RING_RD_RD_IDX) % 1024 →
    Completes (.ringRdWrite v) s fun t => getF t Reg.FLT_RING_RD_RD_IDX = v % 1024 ∧ getF t Reg.FLT_RING_STAT_WR_IDX = getF s Reg.FLT_RING_STAT_WR_IDX) ∧
  (∀ s v, operOpen s = true → (getF s Reg.FLT_RING_STAT_WR_IDX + 1024 - getF s Reg.FLT_RING_RD_RD_IDX) % 1024 < (v % 1024 + 1024 - getF s Reg.FLT_RING_RD_RD_IDX) % 1024 →
    Completes (.ringRdWrite v) s fun t => t = pwfTarget s Reg.FLT_RING_RD v) ∧
  (∀ s src r, nextLatched s.tick s.flt.latch = some (src, r) → r.sev = 1 → src ≠ Src.vinWarn → mfind s.flt.lastRec src = none → recRingFull s = false → Completes .faultCollect s fun t =>
    srcStatus t src = true ∧ mfind t.flt.latch src = none ∧ t.flt.seq = nextSeq s.flt.seq ∧ t.flt.hold = s.flt.hold ∧ getF t Reg.FLT_RING_STAT_WR_IDX = (getF s Reg.FLT_RING_STAT_WR_IDX + 1) % 1024)

/-- The NVM fault log, partner records and injected reports. Rests on R538, R539, R540, R541, R584, R586. Log entries: 12, 100, 101, 122, 172. -/
def Obligations.FaultLogsAndInjection : Prop :=
  (∀ s rcd rest, s.flt.nvWait = rcd :: rest → powered s = true → flag s Reg.PWR_VIN_STAT_WARN = false → s.nvm.logHead % 2048 ≠ 0 → Completes .nvlogAppend s fun t =>
    t.flt.nvWait = rest ∧ mfind t.nvm.area.log s.nvm.logHead = some ((persistFormats s).1, rcd) ∧ t.nvm.logHead = (s.nvm.logHead + 1) % 8192 ∧ t.regs = s.regs) ∧
  (∀ s rcd rest, s.flt.nvWait = rcd :: rest → powered s = true → flag s Reg.PWR_VIN_STAT_WARN = false → s.nvm.logHead % 2048 = 0 → Completes .nvlogAppend s fun t =>
    mfind t.nvm.area.log s.nvm.logHead = some ((persistFormats s).1, rcd) ∧ t.nvm.logHead = (s.nvm.logHead + 1) % 8192 ∧
    (∀ k, k / 2048 = s.nvm.logHead / 2048 → k ≠ s.nvm.logHead → mfind t.nvm.area.log k = none)) ∧
  (∀ s v fmt a b c d e f g h, operOpen s = true → mfind s.nvm.area.log (v % 8192) = some (fmt, [a, b, c, d, e, f, g, h]) → Completes (.nvlogRead v) s fun t =>
    getF t Reg.FLT_NVLOG_IDX_INDEX = v % 8192 ∧ rd t (Reg.FLT_NVLOG_DATA 0) = a ∧ rd t (Reg.FLT_NVLOG_DATA 1) = b ∧ rd t (Reg.FLT_NVLOG_DATA 6) = g ∧ rd t (Reg.FLT_NVLOG_DATA 7) = h ∧
    flag t Reg.FLT_NVLOG_STAT_VALID = recordWhole [a, b, c, d, e, f, g, h]) ∧
  (∀ s v, operOpen s = true → mfind s.nvm.area.log (v % 8192) = none → Completes (.nvlogRead v) s fun t => ∀ k, k < 8 → rd t (Reg.FLT_NVLOG_DATA k) = Config.nvmErased (8 * (v % 8192) + k)) ∧
  (∀ s rcd, powered s = true → pairMode s = true → rcd.length = 8 → recRingFull s = false → Completes (.partnerFaultRecord rcd) s fun t =>
    rd t (Reg.FLT_CNT 4) = countWord (rd s (Reg.FLT_CNT 4)) 1 ∧ getF t Reg.FLT_RING_STAT_WR_IDX = (getF s Reg.FLT_RING_STAT_WR_IDX + 1) % 1024 ∧ t.flt = s.flt) ∧
  (∀ s rcd, powered s = true → pairMode s = true → rcd.length = 8 → recRingFull s = true → Completes (.partnerFaultRecord rcd) s fun t =>
    rd t (Reg.FLT_CNT 5) = countWord (rd s (Reg.FLT_CNT 5)) 1 ∧ RegsBut [Reg.FLT_CNT 5] s t ∧ t.flt = s.flt) ∧
  (∀ s v, operOpen s = true → s.boot.lc = .factory → srcAssigned (bits v 0 11) = true → bit v 16 = true → mfind s.flt.latch (bits v 0 11) = none → Completes (.faultInject v) s fun t =>
    flag t Reg.TST_STAT_INJ_ON = true ∧ injected t = some (bits v 0 11) ∧ rd t (Reg.TST_CNT 4) = countWord (rd s (Reg.TST_CNT 4)) 1 ∧
    (mfind t.flt.latch (bits v 0 11)).map (·.injected) = some true) ∧
  (∀ s v, operOpen s = true → s.boot.lc ≠ .factory → Completes (.faultInject v) s fun t => t = pwfTarget s Reg.TST_INJ_CTL v)

/-- Shared-scratch operations, window writes and aliases. Rests on R511, R513, R514. Log entries: 85. -/
def Obligations.ScratchWritesAndAliases : Prop :=
  (∀ s (bank : Fin 32) n o, shrPick s bank (mget 0 s.scr.bankAt bank) 20 = some (n, o) → scrErr s 20 o.word = .good → Completes (.sharedScratchOp bank) s fun t =>
    scrData t 20 o.word = maskWord o.set o.mask (scrData s 20 o.word) % 2 ^ 64 ∧ mget [] t.scr.queue n = (mget [] s.scr.queue n).tail ∧ t.regs = s.regs ∧
    (∀ w, w ≠ o.word → scrData t 20 w = scrData s 20 w)) ∧
  (∀ s a v m w h, operOpen s = true → scrTarget s a = some (m, w) → highHalf a = true → scrAsleep s m = false → s.scr.held = some h → h.mem = m → h.word = w → flag s Reg.TST_MEMINJ_CTL_ARM = false →
    Completes (.scrWindowWrite a v) s fun t => scrData t m w = (h.low + v % 2 ^ 32 * 2 ^ 32) % 2 ^ 64 ∧ scrErr t m w = .good ∧ t.scr.held = none ∧ t.regs = s.regs) ∧
  (∀ s a v m w, operOpen s = true → scrTarget s a = some (m, w) → highHalf a = false → scrAsleep s m = false → s.scr.held = none → Completes (.scrWindowWrite a v) s fun t =>
    t = { s with scr := { s.scr with held := some { addr := a, mem := m, word := w, low := v % 2 ^ 32 } } }) ∧
  (∀ s a v m w, operOpen s = true → scrTarget s a = some (m, w) → highHalf a = true → scrAsleep s m = false → s.scr.held = none → scrErr s m w = .good → Completes (.scrWindowWrite a v) s fun t =>
    scrData t m w = withHalf true (v % 2 ^ 32) (scrData s m w) % 2 ^ 64 ∧ rd t (Reg.SCR_CNT 8) = countWord (rd s (Reg.SCR_CNT 8)) 1 ∧ RegsBut [Reg.SCR_CNT 8] s t) ∧
  (∀ s a v m w, operOpen s = true → scrTarget s a = some (m, w) → s.scr.held = none → scrErr s m w = .good → Completes (.scrAliasSet a v) s fun t =>
    scrData t m w = Nat.lor (scrData s m w) (v % 2 ^ 32 * (if highHalf a then 2 ^ 32 else 1)) % 2 ^ 64 ∧ t.regs = s.regs ∧ (∀ j x, scrKey j x ≠ scrKey m w → scrData t j x = scrData s j x)) ∧
  (∀ s a v m w, operOpen s = true → scrTarget s a = some (m, w) → s.scr.held = none → scrErr s m w = .good → Completes (.scrAliasClear a v) s fun t =>
    scrData t m w = (scrData s m w - Nat.land (scrData s m w) (v % 2 ^ 32 * (if highHalf a then 2 ^ 32 else 1))) % 2 ^ 64 ∧ t.regs = s.regs ∧
    (∀ j x, scrKey j x ≠ scrKey m w → scrData t j x = scrData s j x))

/-- Atomic operations of PF0 and the background test of scratch memory. Rests on R515, R517, R519, R521. Log entries: 81, 86. -/
def Obligations.ScratchAtomicsAndTest : Prop :=
  (∀ s, operOpen s = true → flag s Reg.SCR_ATOM_STAT_BUSY = false → s.scr.held = none → getF s Reg.SCR_ATOM_ADDR_PS < 20 → scrAsleep s (getF s Reg.SCR_ATOM_ADDR_PS) = false →
    scrErr s (getF s Reg.SCR_ATOM_ADDR_PS) (getF s Reg.SCR_ATOM_ADDR_WORD) = .good → Completes .scrAtomicAdd s fun t =>
    scrData t (getF s Reg.SCR_ATOM_ADDR_PS) (getF s Reg.SCR_ATOM_ADDR_WORD) =
      (scrData s (getF s Reg.SCR_ATOM_ADDR_PS) (getF s Reg.SCR_ATOM_ADDR_WORD) + rdPair s Reg.SCR_ATOM_OPND_LO Reg.SCR_ATOM_OPND_HI) % 2 ^ 64 ∧
    rd t Reg.SCR_ATOM_RES_LO = Word.ofNat (scrData s (getF s Reg.SCR_ATOM_ADDR_PS) (getF s Reg.SCR_ATOM_ADDR_WORD)) ∧
    rd t Reg.SCR_ATOM_RES_HI = Word.ofNat (scrData s (getF s Reg.SCR_ATOM_ADDR_PS) (getF s Reg.SCR_ATOM_ADDR_WORD) / 2 ^ 32) ∧ getF t Reg.SCR_ATOM_STAT_STATUS = 0) ∧
  (∀ s, operOpen s = true → flag s Reg.SCR_ATOM_STAT_BUSY = false → s.scr.held = none → getF s Reg.SCR_ATOM_ADDR_PS < 20 → scrAsleep s (getF s Reg.SCR_ATOM_ADDR_PS) = false →
    scrErr s (getF s Reg.SCR_ATOM_ADDR_PS) (getF s Reg.SCR_ATOM_ADDR_WORD) = .poison → Completes .scrAtomicAdd s fun t =>
    scrErr t (getF s Reg.SCR_ATOM_ADDR_PS) (getF s Reg.SCR_ATOM_ADDR_WORD) = .poison ∧ getF t Reg.SCR_ATOM_STAT_STATUS = 1 ∧ rd t (Reg.SCR_CNT 2) = rd s (Reg.SCR_CNT 2)) ∧
  (∀ s, operOpen s = true → flag s Reg.SCR_ATOM_STAT_BUSY = false → s.scr.held = none → getF s Reg.SCR_ATOM_ADDR_PS < 20 → scrAsleep s (getF s Reg.SCR_ATOM_ADDR_PS) = false →
    scrErr s (getF s Reg.SCR_ATOM_ADDR_PS) (getF s Reg.SCR_ATOM_ADDR_WORD) = .poison → flag s Reg.TST_MEMINJ_CTL_ARM = false → Completes .scrAtomicSwap s fun t =>
    scrErr t (getF s Reg.SCR_ATOM_ADDR_PS) (getF s Reg.SCR_ATOM_ADDR_WORD) = .good ∧ getF t Reg.SCR_ATOM_STAT_STATUS = 1 ∧
    scrData t (getF s Reg.SCR_ATOM_ADDR_PS) (getF s Reg.SCR_ATOM_ADDR_WORD) = rdPair s Reg.SCR_ATOM_OPND_LO Reg.SCR_ATOM_OPND_HI % 2 ^ 64 ∧
    rd t (Reg.SCR_CNT 3) = countWord (rd s (Reg.SCR_CNT 3)) 1) ∧
  (∀ s, operOpen s = true → flag s Reg.SCR_ATOM_STAT_BUSY = true → Completes .scrAtomicSwap s fun t => t = pwfTarget s Reg.SCR_ATOM_CTL 3) ∧
  (∀ s (m : Fin 21), s.top = .run → scrInterval s ≠ 0 → (m.val < 20 → getF s (Reg.PWR_SLICE_STAT_STATE m) = 1) → s.scr.dueNow = [] → (∀ w, scrErr s m w = .good) → Completes (.scrTestStep m []) s fun t =>
    mget 0 t.scr.region m = (mget 0 s.scr.region m + 1) % (scrWords m / 512) ∧ rd t (Reg.SCR_CNT 4) = countWord (rd s (Reg.SCR_CNT 4)) 1 ∧ getF t Reg.SCR_TEST_STAT_MEM = m.val ∧ t.scr.words = s.scr.words)

/-- Pair reads, performance groups of tenants, snapshots and dumps. Rests on R546, R548, R551, R552, R553, R557. Log entries: 81, 89. -/
def Obligations.CounterReadsAndDumps : Prop :=
  (∀ s v, operOpen s = true → bit v 22 = true → bit v 21 = false → flag s Reg.CNT_STAT_RD_BUSY = false → Completes (.pairRead v) s fun t =>
    rd t (Reg.CNT_RD_DATA 0) = Word.ofNat (pairValue s (bits v 0 21)).frames ∧ rd t (Reg.CNT_RD_DATA 2) = Word.ofNat (pairValue s (bits v 0 21)).bytes ∧ t.cnt = s.cnt) ∧
  (∀ s v, operOpen s = true → bit v 22 = true → bit v 21 = true → flag s Reg.CNT_STAT_RD_BUSY = false → Completes (.pairRead v) s fun t =>
    rd t (Reg.CNT_RD_DATA 0) = Word.ofNat (pairValue s (bits v 0 21)).frames ∧ pairValue t (bits v 0 21) = {} ∧ (∀ i, i ≠ bits v 0 21 → pairValue t i = pairValue s i)) ∧
  (∀ s (j : Fin 128) v, operOpen s = true → getF s (Reg.CNT_PERF_TEN_TENANT j) ≠ v % 256 → Completes (.perfTenantWrite j v) s fun t =>
    getF t (Reg.CNT_PERF_TEN_TENANT j) = v % 256 ∧ flag t (Reg.CNT_PERF_TEN_EN j) = bit v 8 ∧ (∀ e, e < 8 → mget 0 t.cnt.perf (8 * (128 + j) + e) = 0)) ∧
  (∀ s (j : Fin 128) v, operOpen s = true → getF s (Reg.CNT_PERF_TEN_TENANT j) = v % 256 → bit v 8 = true → Completes (.perfTenantWrite j v) s fun t =>
    flag t (Reg.CNT_PERF_TEN_EN j) = true ∧ t.cnt = s.cnt ∧ RegsBut [Reg.CNT_PERF_TEN j] s t) ∧
  (∀ s (d : Fin 64), operOpen s = true → flag s (Reg.CNT_DGRP_CFG_EN d) = true → mfind s.cnt.snaps d = none → Completes (.dumpEpoch d) s fun t =>
    mfind t.cnt.snaps d = some (takeSnapshot s d (nextSeq (mget 0 s.cnt.seq d))) ∧ mget 0 t.cnt.seq d = nextSeq (mget 0 s.cnt.seq d) ∧ t.cnt.perf = s.cnt.perf ∧ t.cnt.pairs = s.cnt.pairs) ∧
  (∀ s (d : Fin 64) x, operOpen s = true → flag s (Reg.CNT_DGRP_CFG_EN d) = true → mfind s.cnt.snaps d = some x → Completes (.dumpEpoch d) s fun t =>
    rd t (Reg.CNT_CNT 2) = countWord (rd s (Reg.CNT_CNT 2)) 1 ∧ mfind t.cnt.snaps d = some x ∧ mget 0 t.cnt.seq d = nextSeq (mget 0 s.cnt.seq d)) ∧
  (∀ s (d : Fin 64) x, s.cnt.snaps = [(d.val, x)] → ringRuns s 0 (36 + x.ring) = false → Completes (.dumpWrite d) s fun t =>
    rd t (Reg.CNT_CNT 4) = countWord (rd s (Reg.CNT_CNT 4)) 1 ∧ t.cnt.snaps = [] ∧ getF t Reg.CNT_STAT_HELD = 0 ∧ rd t (Reg.CNT_DGRP_STAT d) = Word.ofNat x.seq) ∧
  (∀ s (d : Fin 64) x, s.cnt.snaps = [(d.val, x)] → x.ring < 8 → ringRuns s 0 (36 + x.ring) = true → x.perfKind = false → x.written = 0 → x.entries + 2 ≤ ringRoom s 0 (36 + x.ring) → Completes (.dumpWrite d) s fun t =>
    rd t (Reg.CNT_CNT 0) = countWord (rd s (Reg.CNT_CNT 0)) 1 ∧ t.cnt.snaps = [] ∧ rd t (Reg.CNT_DGRP_STAT d) = Word.ofNat x.seq ∧ t.cnt.pairs = s.cnt.pairs)

/-- Instructions of the test access port. Rests on R379, R573, R574, R575, R576. Log entries: 109, 132. -/
def Obligations.TapInstructions : Prop :=
  (∀ s, s.top ≠ .off → s.top ≠ .run → getF s Reg.TST_STAT_INSTR ≠ 0x82 → ∀ p ∈ [(Instr.extest, 0x00), (.extestPulse, 0x03), (.extestTrain, 0x04), (.clamp, 0x05), (.highz, 0x06)],
    Completes p.1 s fun t => getF t Reg.TST_STAT_INSTR = p.2 ∧ flag t Reg.TST_STAT_PIN_DRIVE = true ∧ t.tst.pins = tapPins s p.2 ∧ RegsBut [Reg.TST_STAT] s t ∧ t.top = s.top) ∧
  (∀ s, s.top = .run → getF s Reg.TST_STAT_INSTR ≠ 0x82 → ∀ p ∈ [(Instr.extest, 0x00), (.extestPulse, 0x03), (.extestTrain, 0x04), (.clamp, 0x05), (.highz, 0x06), (.scan, 0x82)],
    Completes p.1 s fun t => getF t Reg.TST_STAT_INSTR = 0xFF ∧ flag t Reg.TST_STAT_PIN_DRIVE = false ∧ t.tst.pins = .device ∧ rd t (Reg.TST_CNT 3) = countWord (rd s (Reg.TST_CNT 3)) 1) ∧
  (∀ s, s.top ≠ .off → getF s Reg.TST_STAT_INSTR ≠ 0x82 → ∀ p ∈ [(Instr.tapReset, 0x01, 32, idcodeOf s.otp), (.idcode, 0x01, 32, idcodeOf s.otp), (.serial, 0x07, 64, s.otp.serial), (.bypass, 0xFF, 1, 0)],
    Completes p.1 s fun t => getF t Reg.TST_STAT_INSTR = p.2.1 ∧ flag t Reg.TST_STAT_PIN_DRIVE = false ∧ t.tst.pins = .device ∧ t.tst.dr = p.2.2 ∧ RegsBut [Reg.TST_STAT] s t) ∧
  (∀ s, s.top ≠ .off → getF s Reg.TST_STAT_INSTR ≠ 0x82 → Completes .samplePreload s fun t => getF t Reg.TST_STAT_INSTR = 0x02 ∧ flag t Reg.TST_STAT_PIN_DRIVE = false ∧ t.tst.pins = .device ∧ t.tst.dr.1 = Config.bscanLen) ∧
  (∀ s, s.top ≠ .off → getF s Reg.TST_STAT_INSTR ≠ 0x82 → s.boot.lc = .returned → ∀ p ∈ [(Instr.mbist, 0x80, 32), (.otpRead, 0x81, 64)],
    Completes p.1 s fun t => getF t Reg.TST_STAT_INSTR = p.2.1 ∧ t.tst.dr.1 = p.2.2 ∧ RegsBut [Reg.TST_STAT] s t) ∧
  (∀ s, s.top ≠ .off → getF s Reg.TST_STAT_INSTR ≠ 0x82 → s.boot.lc = .field → ∀ p ∈ [(Instr.mbist, 0x80, 32), (.otpRead, 0x81, 64)],
    Completes p.1 s fun t => getF t Reg.TST_STAT_INSTR = 0xFF ∧ rd t (Reg.TST_CNT 3) = countWord (rd s (Reg.TST_CNT 3)) 1) ∧
  (∀ s, s.top = .bringup → getF s Reg.TST_STAT_INSTR ≠ 0x82 → s.boot.lc = .factory → flag s Reg.TST_STAT_FTEST_EN = true → Completes .scan s fun t =>
    getF t Reg.TST_STAT_INSTR = 0x82 ∧ flag t Reg.TST_STAT_PIN_DRIVE = true ∧ t.tst.pins = .chains ∧ t.tst.dr.1 = Config.scanLen) ∧
  (∀ s, s.top = .bringup → getF s Reg.TST_STAT_INSTR = 0x82 → Completes .bypass s fun t => t = resetEnter 2 (tapForce s 0xFF))

/-- Lane tests, probe frames and memory error injection. Rests on R356, R577, R579, R581, R582, R583, R587. Log entries: 110, 111, 137, 173. -/
def Obligations.LaneTestsAndProbes : Prop :=
  (∀ s (x : Fin 388) v, operOpen s = true → (bit v 0 = false ∨ bits v 6 2 ≠ 3) → (bit v 3 = false ∨ bits v 6 2 ≠ 2) → laneNormal v = false → Completes (.laneTestConfig x v) s fun t =>
    ∃ u w, u = (if bits v 3 3 = bits (rd s (Reg.TST_LANE_CFG x)).toNat 3 3 then wr s (Reg.TST_LANE_CFG x) (Word.ofNat (v % 256)) else setB (wr s (Reg.TST_LANE_CFG x) (Word.ofNat (v % 256))) (Reg.TST_LANE_STAT_LOCK x) false) ∧
    w = (if bits v 6 2 = bits (rd s (Reg.TST_LANE_CFG x)).toNat 6 2 then u else laneLoopDrop u x) ∧ t = galFollow (settle s w)) ∧
  (∀ s (x : Fin 388) v, operOpen s = true → bit v 0 = true → bits v 6 2 = 3 → Completes (.laneTestConfig x v) s fun t => t = pwfTarget s (Reg.TST_LANE_CFG x) v) ∧
  (∀ s (x : Fin 388), checkerActs s x = true → Completes (.checkerLockChange x true) s fun t => flag t (Reg.TST_LANE_STAT_LOCK x) = true ∧ RegsBut [Reg.TST_LANE_STAT x] s t) ∧
  (∀ s (x : Fin 388), checkerActs s x = true → flag s (Reg.TST_LANE_STAT_LOCK x) = true → Completes (.checkerLockChange x false) s fun t =>
    flag t (Reg.TST_LANE_STAT_LOCK x) = false ∧ flag t (Reg.TST_LANE_STAT_LOCK_LOST x) = true ∧ RegsBut [Reg.TST_LANE_STAT x] s t) ∧
  (∀ s (x : Fin 388) n, checkerActs s x = true → flag s (Reg.TST_LANE_STAT_LOCK x) = true → 0 < n → Completes (.checkerBitError x n) s fun t =>
    rd t (Reg.TST_LANE_ERR x) = countWord (rd s (Reg.TST_LANE_ERR x)) n ∧ RegsBut [Reg.TST_LANE_ERR x] s t) ∧
  (∀ s (x : Fin 388) n, flag s (Reg.TST_LANE_STAT_LOCK x) = false → Completes (.checkerBitError x n) s fun t => t = s) ∧
  (∀ s v, s.top = .run → 20 ≤ bits (Nat.lor v 1) 1 5 → Completes (.probeGo v) s fun t => getF t Reg.TST_PROBE_CTL_PIPE = bits (Nat.lor v 1) 1 5 ∧ rd t (Reg.TST_CNT 2) = countWord (rd s (Reg.TST_CNT 2)) 1 ∧ t.tst = s.tst) ∧
  (∀ s v, s.top = .run → bits (Nat.lor v 1) 1 5 < 20 → Completes (.probeGo v) s fun t => t = probeSend false (setF s Reg.TST_PROBE_CTL_PIPE (bits (Nat.lor v 1) 1 5)) (bits (Nat.lor v 1) 1 5)) ∧
  (∀ s, s.top = .run → role s = 2 → getF s Reg.PAIR_STBY_CFG_PROBE_US ≠ 0 → Completes .standbyProbe s fun t => t = (List.range 20).foldl (probeSend true) s) ∧
  (∀ s (n : Fin 20) q x, s.tst.probes.find? (fun e => e.2.pipe == n.val && e.2.buf.isSome) = some (q, x) → Completes (.probeCapture n x.bytes) s fun t =>
    t = bump (probeEnd s q x) (Reg.TST_CNT 1)) ∧
  (∀ s (n : Fin 20) q x f, s.tst.probes.find? (fun e => e.2.pipe == n.val && e.2.buf.isSome) = some (q, x) → f ≠ x.bytes → Completes (.probeCapture n f) s fun t =>
    t = probeFail (probeEnd s q x) x ∧ rd t (Reg.TST_CNT 2) = countWord (rd (probeEnd s q x) (Reg.TST_CNT 2)) 1 ∧
    (x.standby = true → rd t (Reg.PAIR_CNT 14) = countWord (rd (probeEnd s q x) (Reg.PAIR_CNT 14)) 1)) ∧
  (∀ s (n : Fin 20) f, s.tst.probes.find? (fun e => e.2.pipe == n.val && e.2.buf.isSome) = none → Completes (.probeCapture n f) s fun t => t = s) ∧
  (∀ s (n : Fin 20) q x, probeOf s n = some (q, x) → x.standby = false → x.buf = none → Completes (.probeTimeout n) s fun t =>
    rd t (Reg.TST_CNT 2) = countWord (rd s (Reg.TST_CNT 2)) 1 ∧ mfind t.tst.probes q = none ∧ RegsBut [Reg.TST_CNT 2] s t) ∧
  (∀ s (n : Fin 20) q x, probeOf s n = some (q, x) → Completes (.probeTimeout n) s fun t =>
    t = probeFail (probeEnd s q x) x ∧ rd t (Reg.TST_CNT 2) = countWord (rd (probeEnd s q x) (Reg.TST_CNT 2)) 1) ∧
  (∀ s v, operOpen s = true → s.boot.lc = .factory → scrNamed (rdPair s Reg.TST_MEMINJ_LOC_LO Reg.TST_MEMINJ_LOC_HI % 2 ^ 48) = true → Completes (.memoryInjectArm v) s fun t =>
    flag t Reg.TST_MEMINJ_CTL_ARM = bit (Nat.lor v (2 ^ 8)) 8 ∧ getF t Reg.TST_MEMINJ_CTL_MASK = Nat.lor v (2 ^ 8) % 256 ∧ RegsBut [Reg.TST_MEMINJ_CTL] s t) ∧
  (∀ s v, operOpen s = true → s.boot.lc = .field → Completes (.memoryInjectArm v) s fun t => t = pwfTarget s Reg.TST_MEMINJ_CTL (Nat.lor v (2 ^ 8)))

/-- Finding the NVM, loading and verifying images. Rests on R32, R360, R361, R365, R370, R371, R374, R376, R377. Log entries: 3, 97. -/
def Obligations.LoadAndVerify : Prop :=
  (∀ s o, s.boot.loading = true → s.boot.nvmUp = false → s.top = .load → s.boot.dir = none → Completes (.nvmIdAttempt true o) s fun t =>
    flag t Reg.BOOT_NVM_STAT_OCTAL = o ∧ t.boot = { s.boot with nvmUp := true, read := some { what := 0 }, dirRes := [] } ∧ t.top = .load) ∧
  (∀ s o, s.boot.loading = true → s.boot.nvmUp = false → s.top = .load → s.boot.idTries = 2 → Completes (.nvmIdAttempt false o) s fun t =>
    t.top = .hold ∧ getF t Reg.BOOT_HOLD_STAT_REASON = 1 ∧ t.boot.loading = false) ∧
  (∀ s r b, s.boot.loading = true → s.top = .load → s.boot.read = some r → r.what ≤ 1 → dirCrcOk b = false → r.fails < 2 → Completes (.imageBlockRead b) s fun t =>
    t = { s with boot := { s.boot with read := some { r with fails := r.fails + 1 } } }) ∧
  (∀ s r b, s.boot.loading = true → s.top = .load → s.boot.read = some r → (r.what = 2 ∨ r.what = 3) → 0 < r.item → r.item ≤ s.boot.part.blockCount → blockOk (r.item - 1) b = false → r.fails = 2 →
    Completes (.imageBlockRead b) s fun t => t.top = .hold ∧ getF t Reg.BOOT_HOLD_STAT_REASON = 3 ∧ getF t Reg.BOOT_HOLD_STAT_IMAGE = r.what - 1 ∧ rd t Reg.BOOT_HOLD_DETAIL = Word.ofNat (r.item - 1)) ∧
  (∀ s r b, s.boot.loading = true → s.top = .load → s.boot.read = some r → (r.what = 2 ∨ r.what = 3) → 0 < r.item → r.item ≤ s.boot.part.blockCount → blockOk (r.item - 1) b = true → r.fails = 0 →
    Completes (.imageBlockRead b) s fun t => t.boot.part.blocks = s.boot.part.blocks ++ [b] ∧ t.boot.read = some { what := r.what, item := r.item + 1 } ∧ t.regs = s.regs) ∧
  (∀ s, s.boot.loading = true → s.boot.read = some { what := 4 } → s.top = .load → Completes .loadComplete s fun t => t.top = .verify ∧ t.regs = s.regs ∧ t.boot.fw = s.boot.fw ∧ t.boot.cfg = s.boot.cfg) ∧
  (∀ s, s.boot.loading = true → s.boot.read = some { what := 4 } → s.top = .hold → Completes .loadComplete s fun t => t.top = .verify ∧ t.causeOn Src.bootHold = false) ∧
  (∀ s fw cfg, s.top = .verify → s.boot.verified = false → s.boot.fw = some fw → s.boot.cfg = some cfg → imageFault s.otp fw 1 ≠ 0 → imageFault s.otp fw 1 < 256 → Completes .verifyComplete s fun t =>
    t.top = .hold ∧ getF t Reg.BOOT_HOLD_STAT_REASON = imageFault s.otp fw 1 ∧ getF t Reg.BOOT_HOLD_STAT_IMAGE = holdImage fw 1 ∧ t.boot = s.boot) ∧
  (∀ s fw cfg, s.top = .verify → s.boot.verified = false → s.boot.fw = some fw → s.boot.cfg = some cfg → imageFault s.otp fw 1 = 0 → imageFault s.otp cfg 2 = 0 → s.boot.toProgram = none →
    Completes .verifyComplete s fun t => t = enterApply (showVersions s fw cfg) fw cfg) ∧
  (∀ s fw cfg typ slot, s.top = .verify → s.boot.verified = true → programsBlocked s = false → s.boot.fw = some fw → s.boot.cfg = some cfg → s.boot.toProgram = some (typ, slot) → s.boot.dir = none →
    Completes (.pushSlotProgram true) s fun t => t = enterApply (setB s Reg.BOOT_PUSH_STAT_PROG_FAIL true) fw cfg)

/-- Applying records, sealing, leaving BRINGUP, and REREAD. Rests on R29, R32, R366, R367, R369, R375, R378, R399, R575. Log entries: 97, 98. -/
def Obligations.ApplyBringupAndReread : Prop :=
  (∀ s cfg, s.top = .apply → s.boot.endSeen = false → s.boot.cfg = some cfg → (recStep cfg.payload s).fail = none → Completes .configRecord s fun t => t = (recStep cfg.payload s).s) ∧
  (∀ s cfg reason st, s.top = .apply → s.boot.endSeen = false → s.boot.cfg = some cfg → (recStep cfg.payload s).fail = some (reason, st) → Completes .configRecord s fun t =>
    t = settle s (enterHold (recStep cfg.payload s).s reason (holdImage cfg 2) (holdSlot cfg)
      (if s.boot.recAt + 12 ≤ cfg.payload.length then leAt cfg.payload (s.boot.recAt + 8) 4 else s.boot.recNum) st)) ∧
  (∀ s fw cfg n, s.top = .apply → s.boot.endSeen = true → s.boot.fw = some fw → s.boot.cfg = some cfg → applyStands s = true → Completes (.applyComplete n) s fun t =>
    t.top = .bringup ∧ t.boot.sealed = true) ∧
  (∀ s fw cfg n, s.top = .apply → s.boot.endSeen = true → s.boot.fw = some fw → s.boot.cfg = some cfg → applyStands s = false → Completes (.applyComplete n) s fun t =>
    t.top = .hold ∧ getF t Reg.BOOT_HOLD_STAT_REASON = 13 ∧ rd t Reg.BOOT_HOLD_DETAIL = Word.ofNat (s.boot.recNum - 1) ∧ t.boot = { s.boot with sealed := true }) ∧
  (∀ s, s.top = .bringup → tapDrives s = false → s.clk.starting = [] → s.upd.restartTrial = false → Completes .bringupComplete s fun t => t.top = .run ∧ getF t Reg.UPD_STAT_STATE = 0 ∧ t.stateTick = s.tick) ∧
  (∀ s, s.top = .bringup → tapDrives s = true → Completes .bringupComplete s fun t => t = s) ∧
  (∀ s v, s.top = .hold → Completes (.reread v) s fun t => t.top = .load ∧ t.boot.sealed = false ∧ t.boot.fw = none ∧ t.boot.cfg = none ∧ t.boot.loading = true ∧
    (∀ a, OffSettle a → (sealedBits a).isSome = true → rd t a = regReset a)) ∧
  (∀ s v, s.top = .run → Completes (.reread v) s fun t => t = pwfTarget s Reg.BOOT_HOLD_CTL v)

/-- Pushes, arbitration floors, key slots and the life cycle. Rests on R362, R372, R373, R376, R377, R382, R383, R384, R385. Log entries: 79, 80, 98, 99. -/
def Obligations.PushCommitKeysLifeCycle : Prop :=
  (∀ s v, s.top = .hold → s.boot.loading = false → s.boot.push = none → 1 ≤ bits v 1 3 → bits v 1 3 ≤ 4 → Completes (.pushStart v) s fun t =>
    flag t Reg.BOOT_PUSH_STAT_BUSY = true ∧ t.boot.push = some (bits v 1 3, bit v 4, bits v 5 1) ∧ flag t Reg.BOOT_PUSH_STAT_REFUSED = false) ∧
  (∀ s v, s.top = .run → (bits v 1 3 = 1 ∨ bits v 1 3 = 2) → Completes (.pushStart v) s fun t => flag t Reg.BOOT_PUSH_STAT_REFUSED = true ∧ t.boot = s.boot) ∧
  (∀ s typ p k d, s.top = .hold → s.boot.push = some (typ, p, k) → typ < 3 → Completes (.pushComplete false d) s fun t =>
    t.top = .hold ∧ getF t Reg.BOOT_HOLD_STAT_REASON = 15 ∧ getF t Reg.BOOT_HOLD_STAT_IMAGE = 3 ∧ t.boot.push = none ∧ flag t Reg.BOOT_PUSH_STAT_BUSY = false) ∧
  (∀ s typ p k d, s.boot.push = some (typ, p, k) → 3 ≤ typ → Completes (.pushComplete false d) s fun t =>
    flag t Reg.BOOT_PUSH_STAT_REFUSED = true ∧ flag t Reg.BOOT_PUSH_STAT_BUSY = false ∧ t.otp = s.otp ∧ t.top = s.top) ∧
  (∀ s, operOpen s = true → mayCommit s 0 s.otp.floorFw = true → Completes .commitFw s fun t => t.otp.floorFw = floorAdd s.otp.floorFw (getF s (Reg.BOOT_ARB_RUN_SEQ 0)) ∧ t.otp.floorCfg = s.otp.floorCfg ∧ t.regs = s.regs) ∧
  (∀ s, operOpen s = true → mayCommit s 0 s.otp.floorFw = false → Completes .commitFw s fun t => t = pwfTarget s Reg.BOOT_ARB_CTL 1) ∧
  (∀ s, operOpen s = true → mayCommit s 1 s.otp.floorCfg = true → Completes .commitCfg s fun t => t.otp.floorCfg = floorAdd s.otp.floorCfg (getF s (Reg.BOOT_ARB_RUN_SEQ 1)) ∧ t.otp.floorFw = s.otp.floorFw ∧ t.regs = s.regs) ∧
  (∀ s v, (s.top = .run ∨ s.top = .hold) → bits v 16 16 = 0x5EA1 → usagesRemain s.otp (bits v 0 2) = true → programsBlocked s = false → Completes (.keyRevoke v) s fun t =>
    (mfind t.otp.keys (bits v 0 2)).map (·.revoked) = some true ∧ (∀ k, k ≠ bits v 0 2 → mfind t.otp.keys k = mfind s.otp.keys k)) ∧
  (∀ s v, s.top = .run → bits v 16 16 ≠ 0x5EA1 → Completes (.keyRevoke v) s fun t => t = pwfTarget s Reg.BOOT_KEY_CTL v) ∧
  (∀ s v, operOpen s = true → s.boot.lc = .factory → bits v 16 16 = 0x5EA1 → s.otp.keys.any (fun e => bit e.2.usage 1) = true → programsBlocked s = false → Completes (.toField v) s fun t =>
    t = { s with otp := { s.otp with field := (otpWhole, otpWhole) } }) ∧
  (∀ s v, operOpen s = true → s.boot.lc = .field → Completes (.toField v) s fun t => t = pwfTarget s Reg.BOOT_LC_CTL v) ∧
  (∀ s typ p k d, s.boot.push = some (typ, p, k) → 1 ≤ typ → typ < 3 → d.length = getF s Reg.BOOT_PUSH_LEN_LEN → hdrCrcOk (parseImage d k true).header = true → formatOk (parseImage d k true) typ (maxSlot typ) = true →
    (parseImage d k true).length = d.length → badBlock (parseImage d k true) = none → Completes (.pushComplete true d) s fun t =>
    t = pushAccept (setB { s with boot := { s.boot with push := none } } Reg.BOOT_PUSH_STAT_BUSY false) typ k p (parseImage d k true)) ∧
  (∀ s fw cfg typ slot, s.top = .verify → s.boot.verified = true → programsBlocked s = false → s.boot.fw = some fw → s.boot.cfg = some cfg → s.boot.toProgram = some (typ, slot) → s.boot.dir.isSome = true →
    (if typ = 1 then fw else cfg).length ≤ (slotPlace s typ slot).2 → wornOut s (blocksOf (slotPlace s typ slot).1 (if typ = 1 then fw else cfg).length) = false → Completes (.pushSlotProgram true) s fun t =>
    t = enterApply (setF (dirChange (slotProgram s typ slot (if typ = 1 then fw else cfg)) (fun d => nameSlot d typ slot)) (if typ = 1 then Reg.BOOT_STAT_FW_SLOT else Reg.BOOT_STAT_CFG_SLOT) slot) fw cfg) ∧
  (∀ s p k d, s.boot.push = some (4, p, k) → d.length = getF s Reg.BOOT_PUSH_LEN_LEN → hdrCrcOk (parseImage d k true).header = true → formatOk (parseImage d k true) 4 (maxSlot 4) = true →
    (parseImage d k true).length = d.length → badBlock (parseImage d k true) = none → s.boot.lc ≠ .factory → Completes (.pushComplete true d) s fun t =>
    flag t Reg.BOOT_PUSH_STAT_REFUSED = true ∧ t.otp = s.otp ∧ t.boot.push = none)

/-- In-service update: staging, preparing, arming, activating. Rests on R389, R390, R391, R393, R394, R395, R396, R397. Log entries: 61, 102, 103, 175. -/
def Obligations.UpdateStageToActivation : Prop :=
  (∀ s v, s.top = .run → stageRefusal s (bits v 1 2) = 0 → Completes (.stageStart v) s fun t =>
    updState t = 1 ∧ rd t Reg.UPD_STAGE_STAT = 1 ∧ t.upd.staging = some (bits v 1 2, stageSlot s (bits v 1 2)) ∧ t.nvm = s.nvm) ∧
  (∀ s v, s.top = .run → (updState s = 1 ∨ updState s = 2) → Completes (.stageStart v) s fun t => getF t Reg.UPD_STAT_LAST_STATUS = 1 ∧ updState t = updState s ∧ t.upd = s.upd) ∧
  (∀ s a b, programsBlocked s = false → updState s = 1 → s.upd.staging = some (a, b) → Completes (.stagingDone false true [] ⟨[], []⟩) s fun t => t = stageFailed s 16 0) ∧
  (∀ s typ slot d, programsBlocked s = false → updState s = 1 → s.upd.staging = some (typ, slot) → hdrCrcOk (parseImage d slot false).header = true → formatOk (parseImage d slot false) typ (slotPlace s typ slot).2 = true →
    (parseImage d slot false).length = getF s Reg.UPD_STAGE_LEN_LEN → badBlock (parseImage d slot false) = none → imageFault s.otp (parseImage d slot false) typ = 0 → 256 ≤ d.length →
    Completes (.stagingDone true true d ⟨[], []⟩) s fun t => t = stageDone s typ slot (parseImage d slot false)) ∧
  (∀ s e, updState s = 2 → buildShadow s = .error e → Completes .prepareDone s fun t => updState t = 0 ∧ getF t Reg.UPD_STAT_LAST_STATUS = e % 256 ∧ t.upd = { s.upd with shadow := none }) ∧
  (∀ s b, updState s = 2 → buildShadow s = .ok b → Completes .prepareDone s fun t => updState t = 3 ∧ getF t Reg.UPD_STAT_LAST_STATUS = 0 ∧ getF t Reg.UPD_STAT_REQ_CLASS = requiredClass s b % 4 ∧ t.upd = { s.upd with shadow := some b }) ∧
  (∀ s v, s.top = .run → bits (Nat.lor v 1) 0 6 = 1 → updState s = 3 → getF s Reg.UPD_STAT_REQ_CLASS ≠ 2 → s.ptp.total + 100000000 ≤ actTime s → Completes (.arm v) s fun t =>
    updState t = 4 ∧ getF t Reg.UPD_STAT_LAST_STATUS = 0 ∧ t.upd.shadow = s.upd.shadow) ∧
  (∀ s v, s.top = .run → bits (Nat.lor v 1) 0 6 = 1 → updState s = 3 → getF s Reg.UPD_STAT_REQ_CLASS = 2 → Completes (.arm v) s fun t => updState t = 3 ∧ getF t Reg.UPD_STAT_LAST_STATUS = 19 ∧ t.upd = s.upd) ∧
  (∀ s v, s.top = .run → bits (Nat.lor v 2) 0 6 = 2 → updState s = 4 → s.ptp.total < actTime s → s.upd.shadow.isSome = true → Completes (.disarm v) s fun t => updState t = 3 ∧ getF t Reg.UPD_STAT_LAST_STATUS = 0 ∧ t.upd = s.upd) ∧
  (∀ s b, updState s = 4 → s.upd.shadow = some b → actTime s ≤ s.ptp.total → s.upd.fw = none → s.upd.cfg = none → Completes .activation s fun t => t = enterTrial (bump (switchBanks (updEnter s 5) b) (Reg.UPD_CNT 0))) ∧
  (∀ s, updState s = 4 → s.ptp.total < actTime s → Completes .activation s fun t => t = s)

/-- In-service update: trial, confirm, abandon, fallback, restart and discard. Rests on R389, R397, R399, R400, R401, R402. Log entries: 101, 102, 168. -/
def Obligations.UpdateTrialToEnd : Prop :=
  (∀ s, updState s = 5 → Completes .firmwareSwapDone s fun t => updState t = 6 ∧ t.upd.window = (s.tick, confirmS s)) ∧
  (∀ s v, s.top = .run → bits (Nat.lor v 4) 0 6 = 4 → updState s = 6 → s.upd.window.2 ≠ 0 → updCode v = true → Completes (.confirm v) s fun t =>
    updState t = 0 ∧ getF t Reg.UPD_STAT_LAST_STATUS = 0 ∧ rd t (Reg.UPD_CNT 1) = countWord (rd s (Reg.UPD_CNT 1)) 1 ∧ t.upd.shadow = none ∧ t.upd.fw = none ∧ t.upd.cfg = none) ∧
  (∀ s v, s.top = .run → bits (Nat.lor v 4) 0 6 = 4 → updState s = 6 → s.upd.window.2 = 0 → Completes (.confirm v) s fun t => updState t = 6 ∧ getF t Reg.UPD_STAT_LAST_STATUS = 21 ∧ t.upd = s.upd) ∧
  (∀ s v, s.top = .run → bits (Nat.lor v 8) 0 6 = 8 → updState s = 6 → updCode v = true → Completes (.abandon v) s fun t =>
    flag t Reg.UPD_STAT_FALLBACK_DUE = true ∧ updState t = 6 ∧ getF t Reg.UPD_STAT_LAST_STATUS = 0 ∧ t.causeOn Src.fallback = true) ∧
  (∀ s v, s.top = .run → bits (Nat.lor v 8) 0 6 = 8 → updState s = 6 → updCode v = false → Completes (.abandon v) s fun t => getF t Reg.UPD_STAT_LAST_STATUS = 22 ∧ RegsBut [Reg.UPD_STAT] s t ∧ t.upd = s.upd) ∧
  (∀ s, updState s = 6 → Completes .trialExpire s fun t => flag t Reg.UPD_STAT_FALLBACK_DUE = true ∧ t.upd.window.2 = 0 ∧ t.causeOn Src.fallback = true ∧ updState t = 6) ∧
  (∀ s b, updState s = 6 → flag s Reg.UPD_STAT_FALLBACK_DUE = true → safePoint s = true → s.upd.restartTrial = false → s.upd.shadow = some b → Completes .fallbackStart s fun t => t = switchBanks (updEnter s 7) b) ∧
  (∀ s, updState s = 6 → safePoint s = false → Completes .fallbackStart s fun t => t = s) ∧
  (∀ s, updState s = 7 → s.upd.restartTrial = false → Completes .fallbackDone s fun t =>
    updState t = 0 ∧ flag t Reg.UPD_STAT_FELL_BACK = true ∧ rd t (Reg.UPD_CNT 2) = countWord (rd s (Reg.UPD_CNT 2)) 1 ∧ t.upd.shadow = none ∧ t.upd.fw = s.upd.fw ∧ t.upd.cfg = s.upd.cfg ∧ t.causeOn Src.fallback = false) ∧
  (∀ s v, s.top = .run → bits (Nat.lor v 16) 0 6 = 16 → updState s = 3 → pairMode s = true → role s = 1 → Completes (.restartAct v) s fun t => getF t Reg.UPD_STAT_LAST_STATUS = 2 ∧ updState t = 3 ∧ t.top = .run) ∧
  (∀ s v, s.top = .run → bits (Nat.lor v 16) 0 6 = 16 → updState s = 3 → ¬(pairMode s = true ∧ role s = 1) → updCode v = true → programsBlocked s = false → s.boot.dirOwed = none → Completes (.restartAct v) s fun t =>
    t.top = .reset ∧ t.pwr.cause = 4 ∧ getF t Reg.UPD_STAT_LAST_STATUS = 0) ∧
  (∀ s v, s.top = .run → bits (Nat.lor v 32) 0 6 = 32 → updState s = 3 → Completes (.discard v) s fun t =>
    updState t = 0 ∧ getF t Reg.UPD_STAT_LAST_STATUS = 0 ∧ flag t Reg.UPD_STAT_FW_STAGED = false ∧ flag t Reg.UPD_STAT_CFG_STAGED = false ∧ t.upd.shadow = none ∧ t.nvm = s.nvm)

/-- Doorbells, enabling, disabling and flushing rings. Rests on R486, R491, R503. Log entries: 71, 72, 89. -/
def Obligations.RingRegisterWrites : Prop :=
  (∀ s (f : Fin 256) (r : Fin 44) v, flag s (Reg.HIF_FN_STAT_ENABLED f) = true → ringExists f r = true → operOpen s = true → hostToDev r = true → ringRuns s f r = true → v % 65536 < ringSize s f r →
    (v % 65536 + ringSize s f r - ringProd s f r) % ringSize s f r ≤ ringRoom s f r → Completes (.prodDoorbell f r v) s fun t => t = setF s (Reg.HIF_RING_PROD_INDEX f r) (v % 65536)) ∧
  (∀ s (f : Fin 256) (r : Fin 44) v, flag s (Reg.HIF_FN_STAT_ENABLED f) = true → ringExists f r = true → operOpen s = true → hostToDev r = true → ringRuns s f r = true → ringSize s f r ≤ v % 65536 →
    Completes (.prodDoorbell f r v) s fun t => rd t (Reg.HIF_RING_PROD f r) = rd s (Reg.HIF_RING_PROD f r) ∧ flag t (Reg.HIF_RING_STAT_STOPPED f r) = true ∧ getF t (Reg.HIF_RING_STAT_ERR_CAUSE f r) = 1) ∧
  (∀ s (f : Fin 256) (r : Fin 44) v, flag s (Reg.HIF_FN_STAT_ENABLED f) = true → ringExists f r = false → powered s = true → Completes (.prodDoorbell f r v) s fun t => t = pwfD s f 0 (ringOff f r 0xC) v .unassigned 0) ∧
  (∀ s (f : Fin 256) (r : Fin 44) v, flag s (Reg.HIF_FN_STAT_ENABLED f) = true → ringExists f r = true → operOpen s = true → hostToDev r = false → r.val ≠ 17 → ringRuns s f r = true → v % 65536 < ringSize s f r →
    (v % 65536 + ringSize s f r - ringCons s f r) % ringSize s f r ≤ (ringProd s f r + ringSize s f r - ringCons s f r) % ringSize s f r → Completes (.consDoorbell f r v) s fun t =>
    getF t (Reg.HIF_RING_CONS_INDEX f r) = v % 65536 ∧ RegsBut [Reg.HIF_RING_CONS f r] s t ∧
    mget [] t.hif.out (ringKey f r) = (mget [] s.hif.out (ringKey f r)).drop ((v % 65536 + ringSize s f r - ringCons s f r) % ringSize s f r)) ∧
  (∀ s (f : Fin 256) (r : Fin 44) v, flag s (Reg.HIF_FN_STAT_ENABLED f) = true → ringExists f r = true → operOpen s = true → flag s (Reg.HIF_RING_CFG_EN f r) = false → Completes (.ringEnable f r v) s fun t =>
    flag t (Reg.HIF_RING_CFG_EN f r) = true ∧ getF t (Reg.HIF_RING_PROD_INDEX f r) = 0 ∧ getF t (Reg.HIF_RING_CONS_INDEX f r) = 0 ∧ flag t (Reg.HIF_RING_STAT_STOPPED f r) = false ∧
    getF t (Reg.HIF_RING_CFG_SIZE_LOG2 f r) = bits v 2 5 ∧ mget 0 t.hif.seq (ringKey f r) = 0 ∧ mget [] t.hif.out (ringKey f r) = []) ∧
  (∀ s (f : Fin 256) (r : Fin 44) v n, flag s (Reg.HIF_FN_STAT_ENABLED f) = true → ringExists f r = true → operOpen s = true → flag s (Reg.HIF_RING_CFG_EN f r) = true → hostToDev r = false → r.val ≠ 17 →
    bits v 2 5 = getF s (Reg.HIF_RING_CFG_SIZE_LOG2 f r) → (f.val = 0 → ∀ e ∈ s.cnt.snaps, 36 + e.2.ring ≠ r.val) → Completes (.ringDisable f r v n) s fun t =>
    flag t (Reg.HIF_RING_CFG_EN f r) = false ∧ RegsBut [Reg.HIF_RING_CFG f r] s t ∧ t.hif = { s.hif with holdoff := merase s.hif.holdoff (ringKey f r) }) ∧
  (∀ s (f : Fin 256) (r : Fin 44) v n, flag s (Reg.HIF_FN_STAT_ENABLED f) = true → ringExists f r = true → operOpen s = true → flag s (Reg.HIF_RING_CFG_EN f r) = true →
    bits v 2 5 ≠ getF s (Reg.HIF_RING_CFG_SIZE_LOG2 f r) → Completes (.ringDisable f r v n) s fun t => t = pwfD s f 0 (ringOff f r 8) (Nat.land v 0xFFFFFFFE) .target 0) ∧
  (∀ s (f : Fin 256) (r : Fin 44) v n, flag s (Reg.HIF_FN_STAT_ENABLED f) = true → ringExists f r = true → operOpen s = true → flag s (Reg.HIF_RING_CFG_EN f r) = true → hostToDev r = true →
    bits v 2 5 = getF s (Reg.HIF_RING_CFG_SIZE_LOG2 f r) → bit v 0 = true → mget [] s.hif.opened (ringKey f r) = [] → mfind s.hif.skip (ringKey f r) = none →
    Completes (.flush f r v n) s fun t =>
    getF t (Reg.HIF_RING_CONS_INDEX f r) = getF s (Reg.HIF_RING_PROD_INDEX f r) ∧ flag t (Reg.HIF_RING_STAT_BUSY f r) = false ∧ getF t (Reg.HIF_RING_STAT_FLUSH_POINT f r) = (getF s (Reg.HIF_RING_CONS_INDEX f r) + ringSize s f r) % ringSize s f r % 2 ^ 16) ∧
  (∀ s (r : Fin 44) v n, flag s (Reg.HIF_FN_STAT_ENABLED 0) = true → operOpen s = true → flag s (Reg.HIF_RING_CFG_EN 0 r) = true → 36 ≤ r.val →
    bits v 2 5 = getF s (Reg.HIF_RING_CFG_SIZE_LOG2 0 r) → Completes (.ringDisable 0 r v n) s fun t =>
    flag t (Reg.HIF_RING_CFG_EN 0 r) = false ∧ ∀ e, e ∈ t.cnt.snaps ↔ e ∈ s.cnt.snaps ∧ ∀ x ∈ s.cnt.snaps, 36 + x.2.ring = r.val → x.1 ≠ e.1)

/-- Fetching commands, MSI-X holdoff, function resets, the PCIe link and TX descriptors. Rests on R468, R479, R483, R484, R486, R488, R498. Log entries: 70, 73, 75, 77, 176. -/
def Obligations.CommandFetchFunctionsAndTx : Prop :=
  (∀ s (f : Fin 256) (r : Fin 17) e, operOpen s = true → fetchTurn s = some (ringKey f r) → mget [] s.hif.opened (ringKey f r) = [] → mfind s.hif.skip (ringKey f r) = none →
    s.hif.inFlight = [] → bit (byteAt (fit 64 e) 0) 0 = true → bit (byteAt (fit 64 e) 0) 1 = true → opcodeListed (byteAt (fit 64 e) 1) = true → Completes (.commandFetch f r (some e)) s fun t =>
    t.hif.inFlight = [cmdOf f r [fit 64 e]] ∧ getF t (Reg.HIF_RING_CONS_INDEX f r) = (ringCons s f r + 1) % ringSize s f r % 2 ^ 16 ∧
    mfind t.hif.wb (ringKey f r) = some ((ringCons s f r + 1) % ringSize s f r) ∧ getF t (Reg.HIF_FN_STAT_NOW f) = (getF s (Reg.HIF_FN_STAT_NOW f) + 1) % 2 ^ 15 ∧ flag t (Reg.HIF_RING_STAT_BUSY f r) = false) ∧
  (∀ s (f : Fin 256) (r : Fin 17), operOpen s = true → fetchTurn s = some (ringKey f r) → Completes (.commandFetch f r none) s fun t => t = ringStop s f r 3 (ringCons s f r)) ∧
  (∀ s (f : Fin 256) (r : Fin 44), mfind s.hif.holdoff (ringKey f r) = some false → Completes (.msixHoldoffEnd f r) s fun t => t = { s with hif := { s.hif with holdoff := merase s.hif.holdoff (ringKey f r) } }) ∧
  (∀ s (f : Fin 256) (r : Fin 44), mfind s.hif.holdoff (ringKey f r) = some true → getF s (Reg.HIF_RING_CFG_VECTOR f r) < getF s (Reg.HIF_FN_CFG_MSIX_CNT f) → f.val ∈ s.hif.msixOn → getF s (Reg.HIF_RING_CFG_MOD_US f r) ≠ 0 →
    Completes (.msixHoldoffEnd f r) s fun t =>
    mget 0 t.hif.msix (f * 2048 + getF s (Reg.HIF_RING_CFG_VECTOR f r)) = mget 0 s.hif.msix (f * 2048 + getF s (Reg.HIF_RING_CFG_VECTOR f r)) + 1 ∧ mfind t.hif.holdoff (ringKey f r) = some false ∧ t.regs = s.regs) ∧
  (∀ s (f : Fin 256), f.val ≠ 0 → powered s = true → flag s (Reg.HIF_FN_STAT_ENABLED f) = true → Completes (.flr f) s fun t =>
    (∀ a, Reg.pageBase f ≤ a → a < Reg.pageBase f + 0x1000 → rd t a = regReset a) ∧ (∀ c ∈ t.hif.inFlight, c.fn = f.val → 64 ≤ c.ring) ∧ f.val ∉ t.hif.msixOn) ∧
  (∀ s, powered s = true → Completes .pciePerst s fun t => t.hif.perstL = false ∧ rd t Reg.HIF_LINK_STAT = 0) ∧
  (∀ s, powered s = false → Completes .pciePerst s fun t => t = { s with hif := { s.hif with perstL := false } }) ∧
  (∀ s, Completes .pciePerstRelease s fun t => t = { s with hif := { s.hif with perstL := true } }) ∧
  (∀ s gen width flit vfs msix, powered s = true → Completes (.pcieLinkChange false gen width flit vfs msix) s fun t => rd t Reg.HIF_LINK_STAT = 0 ∧ t.causeOn Src.linkDown = (s.top == .run) ∧ t.hif = s.hif) ∧
  (∀ s gen width flit msix, powered s = true → s.hif.perstL = true → (∀ f, 1 ≤ f → f < 256 → flag s (Reg.HIF_FN_STAT_ENABLED f) = false) → Completes (.pcieLinkChange true gen width flit 0 msix) s fun t =>
    flag t Reg.HIF_LINK_STAT_UP = true ∧ flag t Reg.HIF_LINK_STAT_FLIT = flit ∧ getF t Reg.HIF_LINK_STAT_GEN = min gen (getF s Reg.HIF_CFG_MAX_GEN) % 8 ∧ getF t Reg.HIF_LINK_STAT_WIDTH = min width (getF s Reg.HIF_CFG_MAX_WIDTH) % 32 ∧
    t.causeOn Src.linkDown = false ∧ (∀ f, 0 < f → f ∉ t.hif.msixOn)) ∧
  (∀ s (f : Fin 256) (k : Fin 8) e data, s.top = .run → ringExists f (27 + k) = true → ringRuns s f (27 + k) = true → ringProd s f (27 + k) ≠ ringCons s f (27 + k) → txRefusal s f (txDescOf (fit 64 e)) data ≠ 0 →
    Completes (.txDescriptor f k (some e) data) s fun t =>
    getF t (Reg.HIF_RING_CONS_INDEX f (27 + k)) = (ringCons s f (27 + k) + 1) % ringSize s f (27 + k) % 2 ^ 16 ∧ rd t (Reg.HIF_CNT 4) = countWord (rd s (Reg.HIF_CNT 4)) 1 ∧
    rd t (Reg.HIF_CNT 3) = rd s (Reg.HIF_CNT 3) ∧ t.fab = s.fab ∧ t.qd = s.qd ∧ t.ing = s.ing) ∧
  (∀ s (f : Fin 256) (k : Fin 8) e b, s.top = .run → ringExists f (27 + k) = true → ringRuns s f (27 + k) = true → ringProd s f (27 + k) ≠ ringCons s f (27 + k) → txRefusal s f (txDescOf (fit 64 e)) (some b) = 0 →
    (txDescOf (fit 64 e)).mode = 2 → Completes (.txDescriptor f k (some e) (some b)) s fun t =>
    rd t (Reg.HIF_CNT 3) = countWord (rd s (Reg.HIF_CNT 3)) 1 ∧ rd t (Reg.HIF_CNT 4) = rd s (Reg.HIF_CNT 4) ∧
    t.fab.ctl = s.fab.ctl ++ [{ typ := 4, src := getF s Reg.FAB_NODE_ID, dst := (txDescOf (fit 64 e)).port * 2 ^ getF s Reg.FAB_NODE_PORT_SHIFT % 65536, data := fit 240 (fit (txDescOf (fit 64 e)).len b) }])

/-- Delivery of host frames, BAR2, the posted-write failure log, grants and function settings. Rests on R482, R483, R496, R497, R499, R501, R503. Log entries: 74, 77, 131. -/
def Obligations.HostDeliveryAndTableWindow : Prop :=
  (∀ s x rest, s.hif.queue = x :: rest → x.sample = false → ringRuns s x.tenant (rxRing s x) = false → Completes .hostFrameDeliver s fun t => t = bump { s with hif := { s.hif with queue := rest } } (Reg.HIF_CNT 0)) ∧
  (∀ s x rest k, s.hif.queue = x :: rest → x.sample = false → x.tenant < 256 → ringRuns s x.tenant (rxRing s x) = true → dataPlace { s with hif := { s.hif with queue := rest } } x.tenant (rxRing s x) (x.block.length + x.bytes.length) = some k →
    ringRoom s x.tenant (rxRing s x) ≠ 0 → Completes .hostFrameDeliver s fun t =>
    mget [] t.hif.out (ringKey x.tenant (rxRing s x)) = mget [] s.hif.out (ringKey x.tenant (rxRing s x)) ++ [mkEntry (nextSeq (mget 0 s.hif.seq (ringKey x.tenant (rxRing s x))))
      ([byteOf (2 * b2n x.trunc + 4 * b2n x.noMeta), byteOf x.reason] ++ leBytes 2 x.frameLen ++ leBytes 4 k ++ leBytes 4 (x.block ++ x.bytes).length ++ leBytes 4 (crc32c (x.block ++ x.bytes)))] ∧ t.hif.queue = rest) ∧
  (∀ s off v t i o n, powered s = true → off % 4 = 0 → twinPlace s off = some (t, i, o, n) → t ≠ Tab.schTree → operOpen s = true → o + 4 ≠ n → Completes (.bar2Write off v) s fun t =>
    t = { s with hif := { s.hif with bar2 := mset s.hif.bar2 off (some (Word.ofNat v)) } }) ∧
  (∀ s off v t i o n, powered s = true → off % 4 = 0 → twinPlace s off = some (t, i, o, n) → t ≠ Tab.schTree → operOpen s = true → o + 4 = n → Completes (.bar2Write off v) s fun u =>
    u = twinAct { s with hif := { s.hif with bar2 := mset s.hif.bar2 off (some (Word.ofNat v)) } } off v t i (off - o) n) ∧
  (∀ s off v, powered s = true → off % 4 ≠ 0 → Completes (.bar2Write off v) s fun t => t = pwfD s 0 1 off v .width 0) ∧
  (∀ s, operOpen s = true → Completes .pwfClear s fun t => getF t Reg.HIF_PWF_STAT_KEPT = 0 ∧ getF t Reg.HIF_PWF_STAT_OVER = 0 ∧ (∀ i k, i < 64 → k < 8 → rd t (Reg.HIF_PWF_LOG i k) = regReset (Reg.HIF_PWF_LOG i k))) ∧
  (∀ s (f : Fin 256) (w : Fin 8) v, operOpen s = true → f.val ≠ 0 → (∀ j ∈ onesOf 32 v, grantable s f (32 * w + j) = true) → Completes (.grant f w v) s fun t => t = setF s (Reg.HIF_GRANT_GROUPS f w) v) ∧
  (∀ s (f : Fin 256) (w : Fin 8) v j, operOpen s = true → f.val ≠ 0 → j ∈ onesOf 32 v → grantable s f (32 * w + j) = false → Completes (.grant f w v) s fun t => t = pwfTarget s (Reg.HIF_GRANT f w) v) ∧
  (∀ s (f : Fin 256) v, operOpen s = true → vectorsOfOthers s f + bits v 0 12 ≤ 2048 → s.hif.msixOn.contains f.val = false → flag s (Reg.HIF_FN_CFG_RINGS_EN f) = false → Completes (.msixSizeWrite f v) s fun t =>
    getF t (Reg.HIF_FN_CFG_MSIX_CNT f) = bits v 0 12 ∧ flag t (Reg.HIF_FN_CFG_RINGS_EN f) = bit v 12 ∧ getF t (Reg.HIF_FN_CFG_INFLIGHT f) = bits v 16 15 ∧ RegsBut [Reg.HIF_FN_CFG f] s t) ∧
  (∀ s (f : Fin 256) v, operOpen s = true → 2048 < vectorsOfOthers s f + bits v 0 12 → Completes (.msixSizeWrite f v) s fun t => t = pwfTarget s (Reg.HIF_FN_CFG f) v)

/-- LEASE, STANDBY, SWITCH and WITHDRAW by role. Rests on R328, R329, R330, R333, R334, R335, R337, R353, R354. Log entries: 104, 105, 152, 165. -/
def Obligations.ArbiterMessages : Prop :=
  (∀ s (sync : Fin 65536) body (crc : Fin 256), LandingTakes s sync 2 body crc → bits (landingBody s body) 0 8 = 0 → role s = 1 → Completes (.lease 2 ⟨sync, body⟩ crc true) s fun t =>
    flag t Reg.PAIR_STAT_LEASE_VALID = true ∧ flag t Reg.PAIR_STAT_ARB_OK = true ∧ getF t Reg.PAIR_EPOCH_EPOCH = bits (landingBody s body) 8 16 ∧ role t = 1) ∧
  (∀ s (sync : Fin 65536) (typ : Fin 256) body (crc : Fin 256), powered s = true → role s ≠ 0 → arbPolar s Reg.PAIR_LINK_CFG_ARB_RX_INV 16 sync = 0xF0C5 → crc8 (beBytes 7 (typ.val * 2 ^ 48 + landingBody s body)) ≠ arbPolar s Reg.PAIR_LINK_CFG_ARB_RX_INV 8 crc → Completes (.lease typ ⟨sync, body⟩ crc true) s fun t =>
    rd t (Reg.PAIR_CNT 0) = countWord (rd s (Reg.PAIR_CNT 0)) 1 ∧ rd t Reg.PAIR_STAT = rd s Reg.PAIR_STAT ∧ rd t Reg.PAIR_EPOCH = rd s Reg.PAIR_EPOCH ∧ t.pair = s.pair) ∧
  (∀ s (sync : Fin 65536) body (crc : Fin 256), LandingTakes s sync 2 body crc → bits (landingBody s body) 0 8 = 0 → role s = 3 → s.clk.waiting = [] → Completes (.lease 2 ⟨sync, body⟩ crc true) s fun t =>
    role t = 1 ∧ flag t Reg.PAIR_STAT_LEASE_VALID = true ∧ t.pair.arbTx = landingWord 8 (2 * 2 ^ 40 + bits (landingBody s body) 8 16 * 2 ^ 24 + 0 * 2 ^ 16)) ∧
  (∀ s (sync : Fin 65536) body (crc : Fin 256), LandingTakes s sync 3 body crc → bits (landingBody s body) 0 8 = 0 → role s = 3 → flag s Reg.PAIR_STAT_DIGEST_MM = false → s.pair.pDigest = none → s.clk.waiting = [] → Completes (.standby ⟨sync, body⟩ crc true) s fun t =>
    role t = 2 ∧ flag t Reg.PAIR_STAT_SYNC = false ∧ flag t Reg.PAIR_STAT_ARB_OK = true ∧ getF t Reg.PAIR_EPOCH_EPOCH = bits (landingBody s body) 8 16) ∧
  (∀ s (sync : Fin 65536) body (crc : Fin 256), LandingTakes s sync 4 body crc → bits (landingBody s body) 0 8 = 0 → role s = 2 → s.clk.waiting = [] → Completes (.switch ⟨sync, body⟩ crc true) s fun t =>
    role t = 1 ∧ flag t Reg.PAIR_STAT_ARB_OK = true ∧ getF t Reg.PAIR_SEQ_TX_SEQ = getF s Reg.PAIR_SEQ_APPLIED_SEQ ∧ (flag s Reg.PAIR_STAT_SYNC = false → flag t Reg.PAIR_STAT_STALE = true)) ∧
  (∀ s (sync : Fin 65536) body (crc : Fin 256), LandingTakes s sync 5 body crc → role s = 1 ∨ role s = 2 → s.clk.waiting = [] → Completes (.withdraw ⟨sync, body⟩ crc true) s fun t =>
    role t = 3 ∧ getF t Reg.PAIR_STAT_WD_REASON = 1 ∧ getF t Reg.PAIR_EPOCH_REASON = bits (landingBody s body) 0 8 ∧ getF t Reg.PAIR_EPOCH_EPOCH = bits (landingBody s body) 8 16)

/-- Messages a card of a pair sends, losses of the arbiter and of the Gallery link, margins. Rests on R331, R332, R334, R338, R340, R341, R349, R356, R531. Log entries: 107, 121, 163, 166. -/
def Obligations.PairMessagesSentAndLost : Prop :=
  (∀ s, role s ≠ 0 → flag s Reg.PAIR_STAT_ARB_OK = true → Completes .arbLoss s fun t => flag t Reg.PAIR_STAT_ARB_OK = false ∧ t.causeOn Src.arbLost = true ∧ role t = role s ∧ flag t Reg.PAIR_STAT_LEASE_VALID = flag s Reg.PAIR_STAT_LEASE_VALID) ∧
  (∀ s, role s = 1 → flag s Reg.PAIR_STAT_LEASE_VALID = true → Completes .leaseExpire s fun t => flag t Reg.PAIR_STAT_LEASE_VALID = false ∧ role t = 1 ∧ flag t Reg.PAIR_STAT_ARB_OK = flag s Reg.PAIR_STAT_ARB_OK) ∧
  (∀ s, role s ≠ 0 → Completes .healthSend s fun t => ∃ body, t = landingSend { s with pair := { s.pair with probeFail := 0, memFail := 0, lagPeak := getF s Reg.PAIR_LAG_LAG } } 6 body ∧
    body = b2n (flag s Reg.PAIR_STAT_SYNC) * 2 ^ 47 + b2n (!flag s Reg.PAIR_STAT_DIGEST_MM) * 2 ^ 46 + b2n (flag s Reg.PAIR_STAT_GALLERY_UP) * 2 ^ 45 + b2n (flag s Reg.PAIR_STAT_ARB_OK) * 2 ^ 44 +
      maxSev s * 2 ^ 41 + s.pair.probeFail * 2 ^ 32 + s.pair.memFail * 2 ^ 24 + s.pair.margin * 2 ^ 16 + s.pair.lagPeak) ∧
  (∀ s, role s ≠ 0 → s.pair.helloPart = 1 → Completes .helloSend s fun t => ∃ body, t = landingSend { s with pair := { s.pair with helloPart := 2 } } 1 body ∧
    body = 1 * 2 ^ 46 + role s * 2 ^ 44 + b2n (flag s Reg.PAIR_STAT_SYNC) * 2 ^ 43 + s.otp.serial % 2 ^ 32) ∧
  (∀ s src slice die rest, s.flt.msgs = (src, slice, die) :: rest → Completes .faultMsgSend s fun t => t = landingFault { s with flt := { s.flt with msgs := rest } } src slice die) ∧
  (∀ s, galRuns s = true → role s ≠ 0 → Completes .galleryHelloSend s fun t => t.regs = s.regs ∧ t.pair.helloTx =
    some { serial := s.otp.serial, role := role s, cardId := getF s Reg.PAIR_CFG_CARD_ID, digest := ownDigest s, alt := helloAlt s, applied := getF s Reg.PAIR_SEQ_APPLIED_SEQ, epoch := getF s Reg.PAIR_EPOCH_EPOCH }) ∧
  (∀ s (p : Fin 4) d alt re, galRuns s = true → role s ≠ 0 → (galLanes s).isEmpty = false → s.clk.waiting = [] → Completes (.galleryHelloReceive p d alt re) s fun t => getF t Reg.PAIR_STAT_PARTNER_ROLE = p.val) ∧
  (∀ s, Completes .galleryLoss s fun t => flag t Reg.PAIR_STAT_GALLERY_UP = false) ∧
  (∀ s l, role s = 2 → getF s Reg.PAIR_STBY_CFG_MARGIN_MS ≠ 0 → Completes (.marginMeasure l) s fun t => t = { s with pair := { s.pair with margin := (l.map (min 255)).foldl min 255 } }) ∧
  (∀ s (l : Fin 4), s.top = .bringup → galRuns s = true → bit (getF s Reg.PAIR_CFG_GAL_LANE_EN) l = true → Completes (.galleryLaneCalibration l false) s fun t => t = galFollow (galLaneOut s l)) ∧
  (∀ s (l : Fin 4), s.top = .bringup → galRuns s = true → bit (getF s Reg.PAIR_CFG_GAL_LANE_EN) l = true → rcalOk s 1 = true → Completes (.galleryLaneCalibration l true) s fun t => t = galFollow { s with pair := { s.pair with galUp := l.val :: s.pair.galUp.erase l.val } })

/-- Mirrored commands, state records, baselines and resynchronisation. Rests on R342, R343, R345, R346, R347, R348, R350, R351. Log entries: 38, 106, 108, 153, 164. -/
def Obligations.PairMirrorStateAndResync : Prop :=
  (∀ s f a v r, role s = 2 → flag s Reg.PAIR_STAT_RESYNC_RUN = true → mirroredReg a = true → 0x0C01000 ≤ a → a < 0x0C01800 → regRow a = some r → ∀ q, Completes (.cmdItemApply (some (q, .reg f a v))) s fun t =>
    rd t a = mergeBits (rd s a) v r.rw ∧ getF t Reg.PAIR_SEQ_APPLIED_SEQ = q % 2 ^ 32 ∧ RegsBut [a, Reg.PAIR_SEQ_APPLIED] s t) ∧
  (∀ s q, role s = 1 → partnerIs s 2 = true → (mfind s.pair.replay q).isSome = true → Completes (.nackReceive ⟨q, false⟩) s fun t => t = { s with pair := { s.pair with nextSend := q } }) ∧
  (∀ s q, role s = 1 → partnerIs s 2 = true → (mfind s.pair.replay q).isSome = false → Completes (.nackReceive ⟨q, false⟩) s fun t => t = replayStart s) ∧
  (∀ s, role s = 1 → partnerIs s 2 = true → s.pair.acked ≠ getF s Reg.PAIR_SEQ_TX_SEQ → Completes .ackStall s fun t => t = { s with pair := { s.pair with nextSend := cmdAfter s.pair.acked } }) ∧
  (∀ s, deltaRuns s = true → s.pair.due = [] → Completes .stateSnapshot s fun t => t.regs = s.regs ∧ t.pair.snap = (s.pair.snap + 1) % 2 ^ 32 ∧
    mget [] t.pair.galTx 3 = mget [] s.pair.galTx 3 ++ [{ stream := 3, seq := s.pair.snap, body := [0, s.qd.wredGen] }]) ∧
  (∀ s, role s = 2 → Completes (.stateRecordApply none) s fun t => t = bump s (Reg.PAIR_CNT 13)) ∧
  (∀ s i a b, role s = 2 → Completes (.stateRecordApply (some (0, i, a, b))) s fun t => t.qd = { s.qd with wredGen := a.toNat % 2 ^ 32 } ∧ t.regs = s.regs) ∧
  (∀ s, role s ≠ 0 → deltaRuns s = false → Completes .baselineLatch s fun t => t = { s with pair := { s.pair with latched := s.cnt.pairs.map (fun e => (e.1, (e.2.frames, e.2.bytes))) } }) ∧
  (∀ s i frames bytes, role s = 2 → i < 2097152 → Completes (.baselineApply i frames bytes) s fun t =>
    mget (0, 0) t.cnt.offset i = ((frames + 2 ^ 40 - (mget (0, 0) s.pair.latched i).1) % 2 ^ 40, (bytes + 2 ^ 56 - (mget (0, 0) s.pair.latched i).2) % 2 ^ 56) ∧ t.cnt.pairs = s.cnt.pairs ∧ t.regs = s.regs) ∧
  (∀ s v, operOpen s = true → role s = 2 → getF s Reg.PAIR_STAT_PARTNER_ROLE = 1 → Completes (.resync v) s fun t => flag t Reg.PAIR_STAT_SYNC = false ∧ role t = 2) ∧
  (∀ s q items, role s = 2 → flag s Reg.PAIR_STAT_GALLERY_UP = true → q = (replayOpen s).pair.replayAt → q < 2 ^ 32 → (replayOpen s).pair.replayHeld = [] → Completes (.replayRegion ⟨q, items⟩) s fun t =>
    t = items.foldl itemApply { replayOpen s with pair := { (replayOpen s).pair with replayAt := (q + 1) % 2 ^ 32, replayHeld := [] } }) ∧
  (∀ s q, role s = 2 → flag s Reg.PAIR_STAT_RESYNC_RUN = true → Completes (.resyncComplete q) s fun t => flag t Reg.PAIR_STAT_SYNC = true ∧ flag t Reg.PAIR_STAT_RESYNC_RUN = false ∧
    getF t Reg.PAIR_SEQ_APPLIED_SEQ = q % 2 ^ 32 ∧ getF t Reg.PAIR_LAG_LAG = 0 ∧ rd t (Reg.PAIR_CNT 15) = countWord (rd s (Reg.PAIR_CNT 15)) 1) ∧
  (∀ s q, role s = 1 → partnerIs s 2 = true → Completes (.nackReceive ⟨q, true⟩) s fun t => t = replayAgain s q) ∧
  (∀ s q items, role s = 2 → flag s Reg.PAIR_STAT_GALLERY_UP = true → flag s Reg.PAIR_STAT_RESYNC_RUN = true → 0 < (q + 2 ^ 32 - s.pair.replayAt) % 2 ^ 32 → (q + 2 ^ 32 - s.pair.replayAt) % 2 ^ 32 < 2 ^ 31 →
    Completes (.replayRegion ⟨q, items⟩) s fun t => mfind t.pair.replayHeld (q % 2 ^ 32) = some items ∧ t.pair.replayAt = s.pair.replayAt ∧ rd t (Reg.PAIR_CNT 8) = countWord (rd s (Reg.PAIR_CNT 8)) 1)

/-- Register reads and writes of BAR0 and the reset by DEV_CTL. Rests on R7, R8, R9, R10, R11, R502, R591, R596. Log entries: 11, 76, 78, 79, 83. -/
def Obligations.RegisterAccesses : Prop :=
  (∀ s v, operOpen s = true → bits (Nat.lor v 1) 16 16 = 0x5EA1 → role s ≠ 1 → Completes (.devReset v) s fun t => t = resetEnter 3 s ∧ t.top = .reset) ∧
  (∀ s v, operOpen s = true → bits (Nat.lor v 1) 16 16 ≠ 0x5EA1 ∨ role s = 1 → Completes (.devReset v) s fun t => t = pwfTarget s Reg.DEV_CTL (Nat.lor v 1)) ∧
  (∀ s a v r, PfHits s a r → PlainOper s a (v % 2 ^ 32) r → isLo a = false → isHi a = false → Completes (.registerWrite 0 a 4 v) s fun t =>
    rd t a = mergeBits (rd s a) (v % 2 ^ 32) (Nat.lor r.rw r.rws) ∧ RegsBut [a] s t) ∧
  (∀ s a v r, PfHits s a r → r.cls = .sealed → Completes (.registerWrite 0 a 4 v) s fun t => t = pwfD s 0 0 a (v % 2 ^ 32) .isSealed 0) ∧
  (∀ s a v r, PfHits s a r → r.cls = .status → s.boot.up = true → statusOwn s a (v % 2 ^ 32) = none → statusOwnN s a (v % 2 ^ 32) = none → Completes (.registerWrite 0 a 4 v) s fun t =>
    rd t a = mergeBits (rd s a) 0 (Nat.land (v % 2 ^ 32) r.w1c) ∧ RegsBut [a] s t) ∧
  (∀ s (f : Fin 256) a w v, reaches s f = true → w ≠ 4 ∨ a % 4 ≠ 0 → Completes (.registerWrite f a w v) s fun t => t = pwfD s f 0 a v .width 0) ∧
  (∀ s (f : Fin 256) a w v, reaches s f = false → Completes (.registerWrite f a w v) s fun t => t = s) ∧
  (∀ s a v r q x, PfHits s a r → PlainOper s a (v % 2 ^ 32) r → isHi a = true → isLo a = false → 4 ≤ a → regRow (a - 4) = some q → mfind s.loHeld (loKey 0 (a - 4)) = some x → Completes (.hiWriteCommit 0 a v) s fun t =>
    rd t (a - 4) = mergeBits (rd s (a - 4)) x.toNat (Nat.lor q.rw q.rws) ∧ rd t a = mergeBits (rd s a) (v % 2 ^ 32) (Nat.lor r.rw r.rws) ∧ mfind t.loHeld (loKey 0 (a - 4)) = none ∧ RegsBut [a - 4, a] s t) ∧
  (∀ s (f : Fin 256) a h r, reaches s f = true → a % 4 = 0 → (f.val = 0 → isWindow a = false) → homeOf s f a = some h → mfind s.hiLatch (loKey f h) = none → regRow h = some r → r.rc ≠ 0 → s.boot.up = true → isLo h = false →
    (∀ u, peakOf u h = none) → Completes (.readClear f false ⟨a, 4⟩) s fun t => t.rdData = regShown s h ∧ rd t h = mergeBits (rd s h) 0 r.rc ∧ RegsBut [h] s t) ∧
  (∀ s (f : Fin 256) a w, reaches s f = true → w ≠ 4 → Completes (.readClear f false ⟨a, w⟩) s fun t => t = { s with rdData := 0 }) ∧
  (∀ s (f : Fin 256) a h r, reaches s f = true → a % 4 = 0 → (f.val = 0 → isWindow a = false) → homeOf s f a = some h → mfind s.hiLatch (loKey f h) = none → regRow h = some r → r.rc = 0 → isLo h = true → h ≠ Reg.TIM_NOW_LO →
    Completes (.loReadLatch f a) s fun t => t.rdData = regShown s h ∧ mfind t.hiLatch (loKey f (h + 4)) = some (Word.ofNat (regShown s (h + 4))) ∧ t.regs = s.regs) ∧
  (∀ s (f : Fin 256) a h w, reaches s f = true → a % 4 = 0 → (f.val = 0 → isWindow a = false) → homeOf s f a = some h → mfind s.hiLatch (loKey f h) = some w → Completes (.loReadLatch f a) s fun t =>
    t = { latchDrop s f h with rdData := w.toNat }) ∧
  (∀ s (f : Fin 256) a h r v, reaches s f = true → homeOf s f a = some h → r ∈ rootsOf h → familyHalted s r = true → Completes (.accessExpired f false a v) s fun t => t = { bump s (Reg.DEV_CNT 4) with rdData := 0 }) ∧
  (∀ s (f : Fin 256) a h r v, reaches s f = true → homeOf s f a = some h → r ∈ rootsOf h → familyHalted s r = true → Completes (.accessExpired f true a v) s fun t => t = pwfD (bump s (Reg.DEV_CNT 4)) f 0 a v .target 0)

/-- Line lanes, link training, ADMIN, faults and SyncE. Rests on R35, R38, R41, R42, R46, R49, R62, R343. Log entries: 24, 25, 26, 120, 133, 135, 169. -/
def Obligations.LinePortsAndLinks : Prop :=
  (∀ s (g : Fin 20) (l : Fin 8), s.top = .bringup → laneOos s g l = false → Completes (.lineLaneCalibration g l false) s fun t =>
    t = synceSquelch (txSettleGroup (levelMore (setF s (Reg.LIN_GRP_STAT_LANE_OOS g) (Nat.lor (getF s (Reg.LIN_GRP_STAT_LANE_OOS g)) (2 ^ l.val))) (Src.linLaneOos g) (locSlice 0 g) l) g)) ∧
  (∀ s (g : Fin 20) (l : Fin 8), rcalOk s 0 = true → Completes (.lineLaneCalibration g l true) s fun t => t = s) ∧
  (∀ s (g : Fin 20) (l : Fin 8), s.top = .bringup → rcalOk s 0 = false → laneOos s g l = false → Completes (.lineLaneCalibration g l true) s fun t =>
    t = synceSquelch (txSettleGroup (levelMore (setF s (Reg.LIN_GRP_STAT_LANE_OOS g) (Nat.lor (getF s (Reg.LIN_GRP_STAT_LANE_OOS g)) (2 ^ l.val))) (Src.linLaneOos g) (locSlice 0 g) l) g)) ∧
  (∀ s (p : Fin 160) ok, s.lin.training.contains p.val = true → Completes (.linkTrainingDone p ok) s fun t => flag t (Reg.LIN_PORT_STAT_LT_DONE p) = ok ∧ flag t (Reg.LIN_PORT_STAT_LT_FAIL p) = !ok ∧ t.lin.training = s.lin.training.erase p.val ∧ RegsBut [Reg.LIN_PORT_STAT p] s t) ∧
  (∀ s (p : Fin 160), flag s (Reg.LIN_PORT_STAT_LT_FAIL p) = true → flag s (Reg.LIN_PORT_CFG_LT_EN p) = true → txNow s p ≠ 0 → s.lin.training.contains p.val = false → Completes (.linkTrainingRetry p) s fun t => t = { s with lin := { s.lin with training := p.val :: s.lin.training } }) ∧
  (∀ s (p : Fin 160), operOpen s = true → portPresent s p = true → txNow s p ≠ 0 → flag s (Reg.LIN_PORT_CFG_LT_EN p) = true → Completes (.retrain p) s fun t => flag t (Reg.LIN_PORT_STAT_LT_DONE p) = false ∧ t.lin.training = p.val :: s.lin.training.erase p.val) ∧
  (∀ s (p : Fin 160), operOpen s = true → portPresent s p = false → Completes (.retrain p) s fun t => t = pwfD s 0 0 (Reg.LIN_PORT_CTL p) 16 .unassigned 0) ∧
  (∀ s (p : Fin 160) v, operOpen s = true → portPresent s p = true → standby s = false → v % 4 ≠ 3 → bit v 4 = false → Completes (.admin p v) s fun t => t = mirrorItem (txUpdate (setF s (Reg.LIN_PORT_CTL_ADMIN p) v) p) (.reg 0 (Reg.LIN_PORT_CTL p) v)) ∧
  (∀ s (p : Fin 160) v, operOpen s = true → portPresent s p = true → standby s = true ∨ v % 4 = 3 → Completes (.admin p v) s fun t => t = pwfTarget s (Reg.LIN_PORT_CTL p) v) ∧
  (∀ s (p : Fin 160) lanes, rxActive s p = true → flag s (Reg.LIN_PORT_STAT_LOCAL_FAULT p) = false → Completes (.linkFaultDetect ⟨p, lanes⟩) s fun t =>
    flag t (Reg.LIN_PORT_STAT_LOCAL_FAULT p) = true ∧ rd t (Reg.LIN_EVT_CNT p 6) = countWord (rd s (Reg.LIN_EVT_CNT p 6)) 1 ∧ (∀ a, OffReport a → a ≠ Reg.LIN_PORT_STAT p → a ≠ Reg.LIN_EVT_CNT p 6 → a ≠ Reg.LIN_EVT_CNT p 14 → a ≠ Reg.LIN_SYNCE_STAT → rd t a = rd s a)) ∧
  (∀ s (p : Fin 160), flag s (Reg.LIN_PORT_STAT_LOCAL_FAULT p) = true → Completes (.linkFaultClear p) s fun t =>
    flag t (Reg.LIN_PORT_STAT_LOCAL_FAULT p) = false ∧ (∀ a, OffReport a → a ≠ Reg.LIN_PORT_STAT p → a ≠ Reg.LIN_EVT_CNT p 6 → a ≠ Reg.LIN_SYNCE_STAT → rd t a = rd s a)) ∧
  (∀ s (p : Fin 160), rxActive s p = true → flag s (Reg.LIN_PORT_STAT_REMOTE_FAULT p) = false → Completes (.remoteFaultReceived p) s fun t =>
    flag t (Reg.LIN_PORT_STAT_REMOTE_FAULT p) = true ∧ rd t (Reg.LIN_EVT_CNT p 7) = countWord (rd s (Reg.LIN_EVT_CNT p 7)) 1 ∧ (∀ a, OffReport a → a ≠ Reg.LIN_PORT_STAT p → a ≠ Reg.LIN_EVT_CNT p 7 → a ≠ Reg.LIN_EVT_CNT p 14 → rd t a = rd s a)) ∧
  (∀ s (p : Fin 160), flag s (Reg.LIN_PORT_STAT_REMOTE_FAULT p) = true → Completes (.remoteFaultClear p) s fun t => flag t (Reg.LIN_PORT_STAT_REMOTE_FAULT p) = false) ∧
  (∀ s (k : Fin 2), (∀ tm, mfind s.lin.lockAt (getF s (Reg.LIN_SYNCE_CFG_LANE k)) = some tm → withinUs s tm 10000 = false) → synceAllowed { s with lin := { s.lin with lockAt := merase s.lin.lockAt (getF s (Reg.LIN_SYNCE_CFG_LANE k)) } } k = true → Completes (.synceResume k) s fun t =>
    getF t Reg.LIN_SYNCE_STAT_SQUELCH = (getF s Reg.LIN_SYNCE_STAT_SQUELCH - Nat.land (getF s Reg.LIN_SYNCE_STAT_SQUELCH) (2 ^ k.val)) % 4 ∧ RegsBut [Reg.LIN_SYNCE_STAT] s t) ∧
  (∀ s (k : Fin 2) tm, mfind s.lin.lockAt (getF s (Reg.LIN_SYNCE_CFG_LANE k)) = some tm → withinUs s tm 10000 = true → Completes (.synceResume k) s fun t => t = s) ∧
  (∀ s (p : Fin 160), operOpen s = true → portPresent s p = true → txNow s p ≠ 0 → flag s (Reg.LIN_PORT_CFG_LT_EN p) = false → Completes (.retrain p) s fun t => t = lockHeld s ((portLaneNos s p).filter (fun x => !s.lin.noLock.contains x)))

/-- Received frames and their violations, PAUSE, PFC and the storm watchdog. Rests on R43, R46, R50, R51, R52, R54, R56, R57, R58, R64. Log entries: 15, 21, 23, 53, 134, 136. -/
def Obligations.LineFramesAndFlowControl : Prop :=
  (∀ s (p : Fin 160) b, rxActive s p = true → lineLoop s p = 0 → beAt b 0 6 ≠ 0x0180C2000001 → Completes (.macControlFrame p b) s fun t => t = (if portAdmin s p = 0 then s else bump s (Reg.LIN_EVT_CNT p 8))) ∧
  (∀ s (p : Fin 160) b, rxActive s p = true → lineLoop s p = 0 → beAt b 0 6 = 0x0180C2000001 → beAt b 14 2 = 1 → getF s (Reg.LIN_PORT_CFG_FC_MODE p) = 1 → beAt b 16 2 ≤ getF s (Reg.LIN_PAUSE_QMAX_QMAX p) →
    getF s (Reg.LIN_PFC_WD_STAT_SUSPENDED p) = 0 → Completes (.macControlFrame p b) s fun t => getF t (Reg.LIN_PORT_STAT_PAUSED p) = (if beAt b 16 2 = 0 then 0 else 255) ∧ RegsBut [Reg.LIN_PORT_STAT p] s t) ∧
  (∀ s (p : Fin 160) (k : Fin 8), bit (getF s (Reg.LIN_PORT_STAT_PAUSED p)) k = true → Completes (.pauseTimerExpire p k) s fun t =>
    getF t (Reg.LIN_PORT_STAT_PAUSED p) = (getF s (Reg.LIN_PORT_STAT_PAUSED p) - Nat.land (getF s (Reg.LIN_PORT_STAT_PAUSED p)) (2 ^ k.val)) % 256 ∧ RegsBut [Reg.LIN_PORT_STAT p] s t) ∧
  (∀ s (p : Fin 160), lineLoop s p = 0 → getF s (Reg.LIN_PORT_STAT_XOFF p) ≠ 0 → txSends s p = true → getF s (Reg.LIN_PORT_CFG_FC_MODE p) = 1 → Completes (.pfcRefresh p) s fun t =>
    mfind t.lin.sent p = some (macCtlBytes s p 1 (beBytes 2 (txQuanta s p)) ++ fcs (macCtlBytes s p 1 (beBytes 2 (txQuanta s p)))) ∧ t.regs = s.regs) ∧
  (∀ s (p : Fin 160) (k : Fin 8), getF s (Reg.LIN_PFC_WD_CFG_DETECT_MS p) ≠ 0 → rxActive s p = true → getF s (Reg.LIN_PORT_CFG_FC_MODE p) = 2 → Nat.land (getF s (Reg.LIN_PORT_STAT_PAUSED p)) (2 ^ k.val) ≠ 0 → waitsAt s p (2 ^ k.val) = true →
    Completes (.pfcStormDetect p k) s fun t =>
    getF t (Reg.LIN_PFC_WD_STAT_SUSPENDED p) = Nat.lor (getF s (Reg.LIN_PFC_WD_STAT_SUSPENDED p)) (2 ^ k.val) % 256 ∧ getF t (Reg.LIN_PFC_WD_STAT_STORM_SEEN p) = Nat.lor (getF s (Reg.LIN_PFC_WD_STAT_STORM_SEEN p)) (2 ^ k.val) % 256 ∧
    getF t (Reg.LIN_PORT_STAT_PAUSED p) = (getF s (Reg.LIN_PORT_STAT_PAUSED p) - Nat.land (getF s (Reg.LIN_PORT_STAT_PAUSED p)) (2 ^ k.val)) % 256 ∧ rd t (Reg.LIN_EVT_CNT p 10) = countWord (rd s (Reg.LIN_EVT_CNT p 10)) 1) ∧
  (∀ s (p : Fin 160) (k : Fin 8), bit (getF s (Reg.LIN_PFC_WD_STAT_SUSPENDED p)) k = true → getF s (Reg.LIN_PORT_CFG_FC_MODE p) = 2 → Completes (.pfcStormRestore p k) s fun t =>
    getF t (Reg.LIN_PFC_WD_STAT_SUSPENDED p) = (getF s (Reg.LIN_PFC_WD_STAT_SUSPENDED p) - Nat.land (getF s (Reg.LIN_PFC_WD_STAT_SUSPENDED p)) (2 ^ k.val)) % 256 ∧
    getF t (Reg.LIN_PFC_WD_STAT_STORM_SEEN p) = getF s (Reg.LIN_PFC_WD_STAT_STORM_SEEN p) ∧ RegsBut [Reg.LIN_PFC_WD_STAT p] s t) ∧
  (∀ s (p : Fin 160) b pre pcs k, b ≠ [] → rxActive s p = true → lineLoop s p = 0 → flag s (Reg.LIN_PORT_STAT_LOCAL_FAULT p) = false → isolated s (p.val / 8) = false → getF s (Reg.PWR_SLICE_STAT_STATE (p.val / 8)) = 1 → portAdmin s p ≠ 0 →
    rxViolation s p b pre pcs = some k → Completes (.lineFrameReceive p b pre pcs false ⟨0, 0⟩) s fun t => rd t (Reg.LIN_EVT_CNT p k) = countWord (rd s (Reg.LIN_EVT_CNT p k)) 1 ∧ RegsBut [Reg.LIN_EVT_CNT p k] s t ∧ t.ing = s.ing ∧ t.qd = s.qd) ∧
  (∀ s (p : Fin 160) pre pcs fec fc fu, rxActive s p = true → Completes (.lineFrameReceive p [] pre pcs fec ⟨fc, fu⟩) s fun t =>
    rd t (Reg.LIN_EVT_CNT p 5) = countWord (rd s (Reg.LIN_EVT_CNT p 5)) (if portAdmin s p = 0 then 0 else fu) ∧ RegsBut [Reg.LIN_EVT_CNT p 5] s t ∧ t.ing = s.ing ∧ t.qd = s.qd) ∧
  (∀ s (p : Fin 160) b pre pcs, b ≠ [] → rxActive s p = true → lineLoop s p = 0 → flag s (Reg.LIN_PORT_STAT_LOCAL_FAULT p) = false → isolated s (p.val / 8) = false → getF s (Reg.PWR_SLICE_STAT_STATE (p.val / 8)) = 1 → portAdmin s p ≠ 0 → Completes (.lineFrameReceive p b pre pcs true ⟨0, 1⟩) s fun t =>
    rd t (Reg.LIN_EVT_CNT p 5) = countWord (rd s (Reg.LIN_EVT_CNT p 5)) 1 ∧ RegsBut [Reg.LIN_EVT_CNT p 5] s t ∧ t.ing = s.ing ∧ t.qd = s.qd) ∧
  (∀ s (p : Fin 160) b, b ≠ [] → rxActive s p = true → lineLoop s p = 0 → flag s (Reg.LIN_PORT_STAT_LOCAL_FAULT p) = false → isolated s (p.val / 8) = false → getF s (Reg.PWR_SLICE_STAT_STATE (p.val / 8)) = 1 → portAdmin s p = 2 → flag s (relockFld 0) = false →
    rxViolation s p b true false = none → beAt (b.take (b.length - 4)) 12 2 ≠ 0x8808 → beAt (b.take (b.length - 4)) 12 2 ≠ 0x8809 → Completes (.lineFrameReceive p b true false false ⟨0, 0⟩) s fun t =>
    t = enterPipe (perfAdd (perf s (40 + p.val / 8) 0) (40 + p.val / 8) 1 ((b.take (b.length - 4)).length + 4)) (p.val / 8) { port := p, orig := p, bytes := b.take (b.length - 4), first := b.take (b.length - 4), rx := rxTime s p }) ∧
  (∀ s (p : Fin 160) b, b ≠ [] → rxActive s p = true → lineLoop s p = 0 → flag s (Reg.LIN_PORT_STAT_LOCAL_FAULT p) = false → isolated s (p.val / 8) = false → getF s (Reg.PWR_SLICE_STAT_STATE (p.val / 8)) = 1 →
    rxViolation s p b true false = none → beAt (b.take (b.length - 4)) 12 2 = 0x8808 → Completes (.lineFrameReceive p b true false false ⟨0, 0⟩) s fun t => t = macControl s p (b.take (b.length - 4))) ∧
  (∀ s (p : Fin 160) b, rxActive s p = false ∨ lineLoop s p = 4 → Completes (.macControlFrame p b) s fun t => t = s)

/-- Gate lists: the entry in force, activation, enable, change and cancel. Rests on R251, R252, R253. Log entries: 52, 61. -/
def Obligations.TimeGates : Prop :=
  (∀ s (p : Fin 160), Completes (.gateEntryChange p) s fun t => getF t (Reg.SCH_GATE_STAT_OPEN p) = (gateAt s p s.ptp.total).2 % 256 ∧
    getF t (Reg.SCH_GATE_STAT_ENTRY p) = (gateAt s p s.ptp.total).1 % 1024 ∧ RegsBut [Reg.SCH_GATE_STAT p] s t) ∧
  (∀ s (p : Fin 160) len cycle base at_, (gateOf s p).pend = some (len, cycle, base, at_) → at_ ≤ s.ptp.total → Completes (.gateActivate p) s fun t =>
    gateOf t p = { oper := some (len, cycle, base), pend := none } ∧ getF t (Reg.SCH_GATE_STAT_OPER_BANK p) = (1 - getF s (Reg.SCH_GATE_STAT_OPER_BANK p)) % 2 ∧
    getF t (Reg.SCH_GATE_STAT_PENDING p) = 0 ∧ getF t (Reg.SCH_GATE_STAT_LIST_RUN p) = 1 ∧ RegsBut [Reg.SCH_GATE_STAT p] s t) ∧
  (∀ s (p : Fin 160) en, operOpen s = true → standby s = false → Completes (.gateEnable p en) s fun t =>
    t = mirrorItem (gateShow (setB s (Reg.SCH_GATE_CTL_EN p) en) p) (.reg 0 (Reg.SCH_GATE_CTL p) (b2n en))) ∧
  (∀ s (p : Fin 160), operOpen s = true → standby s = false → 1 ≤ getF s (Reg.SCH_GATE_CFG_LEN p) → getF s (Reg.SCH_GATE_CFG_LEN p) ≤ 1024 → 1000 ≤ gateCycle s p → gateCycle s p ≤ 10000000000 →
    (∀ e ∈ gateEntries s p { bank := 1 - getF s (Reg.SCH_GATE_STAT_OPER_BANK p), len := getF s (Reg.SCH_GATE_CFG_LEN p), cycle := gateCycle s p, base := gateBase s p }, e.1 ≠ 0) →
    Completes (.gateChange p) s fun t => ∃ at_, (gateOf t p).pend = some (getF s (Reg.SCH_GATE_CFG_LEN p), gateCycle s p, gateBase s p, at_) ∧ (gateOf t p).oper = (gateOf s p).oper ∧
      s.ptp.total < at_ ∧ gateBase s p ≤ at_ ∧ (at_ - gateBase s p) % gateCycle s p = 0 ∧ (at_ = gateBase s p ∨ at_ ≤ s.ptp.total + gateCycle s p) ∧
      getF t (Reg.SCH_GATE_STAT_PENDING p) = 1 ∧ getF t (Reg.SCH_GATE_CHG_LO_NS p) = at_ % 1000000000 ∧ getF t (Reg.SCH_GATE_CHG_HI_SEC p) = at_ / 1000000000 % 2 ^ 32) ∧
  (∀ s (p : Fin 160) len cycle base at_, operOpen s = true → standby s = false → (gateOf s p).pend = some (len, cycle, base, at_) → s.ptp.total < at_ → Completes (.gateCancel p) s fun t =>
    gateOf t p = { gateOf s p with pend := none } ∧ getF t (Reg.SCH_GATE_STAT_PENDING p) = 0) ∧
  (∀ s (p : Fin 160), operOpen s = true → standby s = true → Completes (.gateChange p) s fun t => t = pwfTarget s (Reg.SCH_GATE_CTL p) (gateWord s p 2))

/-- Credits, VOQs, the egress tree, the wheel, fences and the epoch. Rests on R231, R232, R233, R235, R236, R238, R240, R242, R245, R249, R257, R425. Log entries: 19, 20, 55, 56, 57, 59, 60, 154. -/
def Obligations.CreditsAndScheduling : Prop :=
  (∀ s (q : Fin 1048576), q.val < voqSplit s → (queueOf s q).outCr ≠ 0 → Completes (.requestRetry q) s fun t =>
    t = voqAsk (bump (putQueue s q { queueOf s q with outCr := 0 }) (Reg.SCH_CNT 3)) q) ∧
  (∀ s (g : Fin 8) port cls q, offLine s = false → voqOf s port cls = some q → (queueOf s q).outCr ≠ 0 ∨ (queueOf s q).descs ≠ [] →
    creditArrive g port cls s = voqAsk (perf (bump (putQueue s q { queueOf s q with bal := (queueOf s q).bal + creditSize s, outCr := (queueOf s q).outCr - 1 }) (Reg.SCH_CNT 4)) 81 2) q) ∧
  (∀ s (q : Fin 1048576), q.val < voqSplit s → getF s Reg.SCH_VOQ_CFG_TIMEOUT_MS ≠ 0 → (queueOf s q).descs ≠ [] → Completes (.voqTimeout q) s fun t =>
    (queueOf t q).bal = 0 ∧ (queueOf t q).outCr = 0 ∧ t.qd.bufs = (flushQueue s q (fun a => bump a (Reg.SCH_CNT 2))).qd.bufs ∧
    rd t (Reg.SCH_CNT 6) = countWord (rd (flushQueue s q (fun a => bump a (Reg.SCH_CNT 2))) (Reg.SCH_CNT 6)) (if 0 < (queueOf s q).bal then 1 else 0) ∧ RegsBut [Reg.SCH_CNT 6] (flushQueue s q (fun a => bump a (Reg.SCH_CNT 2))) t) ∧
  (∀ s (port : Fin 65536) k n, creditDue s port = true → [7, 6, 5, 4, 3, 2, 1, 0].find? (fun k => !(askers s port k).isEmpty && grantOpen s port k) = some k → nextRound (askers s port k) (rrGet s (2 ^ 40 + port.val * 8 + k)) = some n →
    Completes (.creditGrant port) s fun t => mget 0 t.qd.creq (creqKey port k n) = mget 0 s.qd.creq (creqKey port k n) - 1 ∧ rd t (Reg.SCH_CNT 5) = countWord (rd s (Reg.SCH_CNT 5)) 1 ∧
      rrGet t (2 ^ 40 + port.val * 8 + k) = some n ∧ mget 0 t.qd.crTe port.val = max (mget 0 s.qd.crTe port.val) (epochFine s - (creditPace s port).2) + creditSize s * (creditPace s port).1 ∧ t.fab.credit = (if offLine s then s.fab.credit else creditPut s.fab.credit { node := n, port := port, cls := k, count := 1 }) ∧ RegsBut [Reg.SCH_CNT 5] s t) ∧
  (∀ s (port : Fin 65536), creditDue s port = false → Completes (.creditGrant port) s fun t => t = s) ∧
  (∀ s (p : Nat) k bad, [7, 6, 5, 4, 3, 2, 1, 0].find? (fun k => !classBlocked s k && !((voqsOf s k).filter (fun p => !headHeld s (p * 8 + k))).isEmpty) = some k →
    nextRound ((voqsOf s k).filter (fun p => !headHeld s (p * 8 + k))) (rrGet s (2 ^ 41 + k)) = some p → (∀ j, k ≤ j → ∀ x ∈ voqsOf s j, headHeld s (x * 8 + j) = false) → Completes (.voqDequeue bad) s fun t =>
    t = voqTake (skipped (perf (rrPut s (2 ^ 41 + k) p) 81 0) 0) (p * 8 + k) bad) ∧
  (∀ s (n : Fin 161) bad, nodeServed s n = false → Completes (.egressSelect n bad) s fun t => t = s) ∧
  (∀ s (n : Fin 161) bad a b c q x s1 d s2 buf, nodeServed s n = true → (queuesBelow s n).any (queueGated s n) = false → pickPath 4 s (0x149000 + n.val) ((readyPaths s n).map (fun l => l.drop 1)) = ([a, b, c, (q, x)], s1) →
    popHead s1 q = (some d, s2) → mfind s2.qd.bufs d.buf = some buf → Completes (.egressSelect n bad) s fun t =>
    t = emptied (takeOff ([(0x149000 + n.val, false), a, b, c, (q, x)].foldl (fun u e => nodePay u e.1 buf.data.length e.2) (skipped (perf s2 81 0) (countIf (headHeld s) (queuesBelow s n)))) q d buf bad) q) ∧
  (∀ s k r, mfind s.qd.wheel k = some r → (∀ e ∈ s.qd.wheel, e.1 = k → e = (k, r)) → Completes .calendarSlot s fun t => t.regs = s.regs ∧ t.qd.nodes = s.qd.nodes ∧
    mfind t.qd.wheel k = (if epochFine s / (4 * 2 ^ 32) * (4 * 2 ^ 32) < wheelTe s k then some (ringMove (epochFine s) (wheelTe s k) r) else none)) ∧
  (∀ s i f, s.qd.fences[i]? = some f → queueBusy s f.oldQ = false → Completes (.fenceLift i) s fun t => t = fenceCount { s with qd := { s.qd with fences := s.qd.fences.erase f } }) ∧
  (∀ s i f, s.qd.fences[i]? = some f → Completes (.fenceTimeout i) s fun t => t = fenceEnd (emptied (flushQueue s f.oldQ (fun a => bump a (Reg.SCH_CNT 7))) f.oldQ) f) ∧
  (∀ s, s.boot.up = true → s.qd.epochTick < s.tick → Completes .epochWindow s fun t => t.qd.epochBase = epochFine s ∧ t.qd.epochTick = s.tick ∧ t.qd.epochGoal = s.qd.epochGoal + 1600000 * 2 ^ 32 ∧
    -((2 : Int) ^ 32 / 1000) ≤ t.qd.epochCorr ∧ t.qd.epochCorr ≤ (2 : Int) ^ 32 / 1000 ∧ t.regs = s.regs)

/-- DRAM lines: reads, writes, retries, merges and tags. Rests on R194, R196, R305, R306, R315, R316, R317, R318, R319. Log entries: 67, 68, 69, 158, 159. -/
def Obligations.DramLinesRetriesAndTags : Prop :=
  (∀ s (q : Fin 1048576) k retries l fl d b, (queueOf s q).leaving[k]? = some (d, false) → mfind s.qd.bufs d.buf = some b → b.lost = true ∨ diDead s b.di = true → Completes (.dramReadComplete q k retries l fl) s fun t => t = readDrop s q k 10 d.buf) ∧
  (∀ s (q : Fin 1048576) k retries l fl d b, (queueOf s q).leaving[k]? = some (d, false) → mfind s.qd.bufs d.buf = some b → b.lost = false → diDead s b.di = false → b.bad = true → Completes (.dramReadComplete q k retries l fl) s fun t => t = readDrop s q k 13 d.buf) ∧
  (∀ s (q : Fin 1048576) k retries d b, (queueOf s q).leaving[k]? = some (d, false) → mfind s.qd.bufs d.buf = some b → b.lost = false → diDead s b.di = false → b.bad = false → readMay s d.buf b = true → (∀ j ∈ linesToRead s d.buf b, (lineRead s d.buf j 0).ok = true) → Completes (.dramReadComplete q k retries [] []) s fun t =>
    ∃ n u, n = (linesToRead s d.buf b).length ∧ u = leavingSet ((linesToRead s d.buf b).foldl (fun a j => tagUse a b.di d.buf j)
      (diPerf (bumpN (bumpN s (Reg.DRC_DI_CNT b.di 3) (readRetries s b.di retries (n + countIf (fun j => !tagCached s b.di d.buf j) (linesToRead s d.buf b)) 0)) (Reg.DRC_DI_CNT b.di 0) n) b.di 0 n)) q k true ∧
      t = leaveReady ((queueOf u q).leaving.length + 1) u q) ∧
  (∀ s (q : Fin 1048576) k retries l fl d b, (queueOf s q).leaving[k]? = some (d, false) → mfind s.qd.bufs d.buf = some b → b.lost = false → diDead s b.di = false → b.bad = false → readMay s d.buf b = true → linesToRead s d.buf b ≠ [] → (∀ j ∈ linesToRead s d.buf b, j ∈ l) → Completes (.dramReadComplete q k retries l fl) s fun t =>
    ∃ n u, n = (linesToRead s d.buf b).length ∧ u = (linesToRead s d.buf b).foldl (fun a j => tagUse a b.di d.buf j)
      (diPerf (bumpN s (Reg.DRC_DI_CNT b.di 3) (readRetries s b.di retries (n + countIf (fun j => !tagCached s b.di d.buf j) (linesToRead s d.buf b)) n)) b.di 0 0) ∧
      t = readDrop ((linesToRead s d.buf b).foldl (lineLost b.di d.buf) u) q k 13 d.buf) ∧
  (∀ s (i : Fin 24) retries fl x b, (mget [] s.drm.wq i).find? (fun x => !x.opened) = some x → mfind s.qd.bufs x.buf = some b → diWrites s i = true → bankHeld s i (dramBank s (lineNo x.buf x.line)) = false → x.rmw = false → retries ≤ getF s Reg.DRC_RETRY_CFG_WR_RETRY → Completes (.dramWriteComplete i retries true fl) s fun t =>
    t = lineWritten (bumpN (wqPut s i ((mget [] s.drm.wq i).erase x)) (Reg.DRC_DI_CNT i 4) retries) i x (lineBytes b x.line x.have_) false) ∧
  (∀ s (i : Fin 24) retries fl x b, (mget [] s.drm.wq i).find? (fun x => !x.opened) = some x → mfind s.qd.bufs x.buf = some b → diWrites s i = true → bankHeld s i (dramBank s (lineNo x.buf x.line)) = false → x.rmw = true → retries ≤ getF s Reg.DRC_RETRY_CFG_WR_RETRY → Completes (.dramWriteComplete i retries true fl) s fun t =>
    ∃ l u, lineMerge (bumpN (wqPut s i ((mget [] s.drm.wq i).erase x)) (Reg.DRC_DI_CNT i 4) retries) i x (lineBytes b x.line x.have_) fl = (l, !(lineRead s x.buf x.line fl).ok, u) ∧ t = lineWritten u i x l (!(lineRead s x.buf x.line fl).ok)) ∧
  (∀ s (i : Fin 24) retries fl x b, (mget [] s.drm.wq i).find? (fun x => !x.opened) = some x → mfind s.qd.bufs x.buf = some b → diWrites s i = true → bankHeld s i (dramBank s (lineNo x.buf x.line)) = false → x.rmw = false → Completes (.dramWriteComplete i retries false fl) s fun t =>
    t = diLinkFail (bufFail (bump (bumpN (wqPut s i ((mget [] s.drm.wq i).erase x)) (Reg.DRC_DI_CNT i 4) (getF s Reg.DRC_RETRY_CFG_WR_RETRY)) (Reg.DRC_DI_CNT i 6)) x.buf) i
      (dramLoc (bumpN (wqPut s i ((mget [] s.drm.wq i).erase x)) (Reg.DRC_DI_CNT i 4) (getF s Reg.DRC_RETRY_CFG_WR_RETRY)) i (lineNo x.buf x.line)) (lineDetail false x.buf x.line)) ∧
  (∀ s (i : Fin 24) retries ok fl, diWrites s i = false → (∀ x ∈ mget [] s.drm.wq i, (mfind s.qd.bufs x.buf).isSome = true) → Completes (.dramWriteComplete i retries ok fl) s fun t => t = s) ∧
  (∀ s (i : Fin 24) x, (mget [] s.drm.wq i).find? (fun x => x.opened) = some x → Completes (.mergeTimeout i) s fun t =>
    mget [] t.drm.wq i = (mget [] s.drm.wq i).map (fun y => if y = x then { y with opened := false } else y) ∧ rd t (Reg.DRC_DI_CNT i 14) = countWord (rd s (Reg.DRC_DI_CNT i 14)) 1 ∧ RegsBut [Reg.DRC_DI_CNT i 14, Reg.DRC_DI_STAT i] s t) ∧
  (∀ s (i : Fin 24) n tl r, mget [] s.drm.dirty i = tl :: r → diWrites s i = true → n ≤ getF s Reg.DRC_RETRY_CFG_WR_RETRY → Completes (.tagWriteback ⟨i, n, true⟩) s fun t =>
    mget [] t.drm.dirty i = r ∧ (∀ j, j ≠ i.val → mget [] t.drm.dirty j = mget [] s.drm.dirty j) ∧ rd t (Reg.DRC_DI_CNT i 4) = countWord (rd s (Reg.DRC_DI_CNT i 4)) n ∧ RegsBut [Reg.DRC_DI_CNT i 4] s t) ∧
  (∀ s (i : Fin 24) n ok, mget [] s.drm.dirty i = [] ∨ diWrites s i = false → Completes (.tagWriteback ⟨i, n, ok⟩) s fun t => t = s)

/-- DRAM interfaces: training, refresh, temperature, retraining pauses and tests. Rests on R307, R308, R310, R311, R313, R314, R321, R322, R323. Log entries: 113, 160, 161, 169. -/
def Obligations.DramInterfaces : Prop :=
  (∀ s (i : Fin 24) ok, diState s i = 1 → Completes (.dramTraining i ok) s fun t => t = (if ok = true ∧ rcalOk s (2 + i / 12) = true
    then dramPools (levelOff (diEnter { s with drm := { s.drm with retryFail := s.drm.retryFail.filter (· != i.val) } } i 2) (Src.drcTrainFail i))
    else levelMore (diEnter { s with drm := { s.drm with retryFail := s.drm.retryFail.filter (· != i.val) } } i 7) (Src.drcTrainFail i) (locDi i) 0)) ∧
  (∀ s (i : Fin 24) (bank : Fin 64), diState s i = 2 ∨ diState s i = 3 ∨ diState s i = 5 → Completes (.dramRefresh ⟨i, bank⟩) s fun t =>
    mfind t.drm.refreshed (64 * i.val + bank.val) = some s.tick ∧ (∀ j, j ≠ 64 * i.val + bank.val → mfind t.drm.refreshed j = mfind s.drm.refreshed j) ∧ (∀ a, rd t a = rd s a)) ∧
  (∀ s (i : Fin 24) (bank : Fin 64), diState s i ≠ 2 → diState s i ≠ 3 → diState s i ≠ 5 → Completes (.dramRefresh ⟨i, bank⟩) s fun t => t = s) ∧
  (∀ s (i : Fin 24) (v : Fin 256) m hot a, diServes s i = true → getF s Reg.DRC_MAINT_CFG_TEMP_STEP = 0 → mfind s.drm.tempAt i = some a →
    m = (if signed 8 v < getF s Reg.DRC_TEMP_CFG_T2X then 0 else if signed 8 v < max (getF s Reg.DRC_TEMP_CFG_T2X) (getF s Reg.DRC_TEMP_CFG_T4X) then 1 else 2) →
    hot = decide (((max (max (getF s Reg.DRC_TEMP_CFG_T2X) (getF s Reg.DRC_TEMP_CFG_T4X)) (getF s Reg.DRC_TEMP_CFG_THOT) : Nat) : Int) ≤ signed 8 v) → Completes (.dramTempReadout i (some v)) s fun t =>
    t = levelIs hot { setB (setF (setF s (Reg.DRC_DI_STAT_TEMP i) (ofSigned 8 (signed 8 v))) (Reg.DRC_DI_STAT_REF_MULT i) m) (Reg.DRC_DI_STAT_HOT i) hot with drm := { s.drm with tempFail := merase s.drm.tempFail i } } (Src.drcHot i) (locDi i) 0) ∧
  (∀ s (i : Fin 24) (v : Fin 256) m hot u, diServes s i = true → mfind s.drm.tempAt i = none →
    m = (if signed 8 v < getF s Reg.DRC_TEMP_CFG_T2X then 0 else if signed 8 v < max (getF s Reg.DRC_TEMP_CFG_T2X) (getF s Reg.DRC_TEMP_CFG_T4X) then 1 else 2) →
    hot = decide (((max (max (getF s Reg.DRC_TEMP_CFG_T2X) (getF s Reg.DRC_TEMP_CFG_T4X)) (getF s Reg.DRC_TEMP_CFG_THOT) : Nat) : Int) ≤ signed 8 v) → u = levelIs hot { setB (setF (setF s (Reg.DRC_DI_STAT_TEMP i) (ofSigned 8 (signed 8 v))) (Reg.DRC_DI_STAT_REF_MULT i) m) (Reg.DRC_DI_STAT_HOT i) hot with drm := { s.drm with tempFail := merase s.drm.tempFail i } } (Src.drcHot i) (locDi i) 0 → Completes (.dramTempReadout i (some v)) s fun t =>
    t = { u with drm := { u.drm with tempAt := mset u.drm.tempAt i (some v.val) } }) ∧
  (∀ s (i : Fin 24), diServes s i = true → mget 0 s.drm.tempFail i + 1 < 3 → Completes (.dramTempReadout i none) s fun t => mget 0 t.drm.tempFail i = mget 0 s.drm.tempFail i + 1 ∧ t.regs = s.regs) ∧
  (∀ s (i : Fin 24), diServes s i = true → isDue s 1 i = false → Completes (.retrainDue i) s fun t => t.slc.due = s.slc.due ++ [{ act := 1, res := i, due := s.tick }] ∧ t.regs = s.regs) ∧
  (∀ s (i : Fin 24), operOpen s = true → diServes s i = true → isDue s 1 i = false → Completes (.drcRetrain i) s fun t => t.slc.due = s.slc.due ++ [{ act := 1, res := i, due := s.tick }] ∧ t.regs = s.regs) ∧
  (∀ s (i : Fin 24), diState s i = 3 → Completes (.pauseBegin i) s fun t => diState t i = 4 ∧ (∀ b ∈ Config.pauseBanks i s.tick, mfind t.drm.refreshed (64 * i.val + b % 64) = some s.tick) ∧ RegsBut [Reg.DRC_DI_STAT i] s t) ∧
  (∀ s (i : Fin 24), diState s i = 4 → i.val ∉ s.drm.sleepAfter → (mfind s.drm.tempAt i).isSome = true → getF s (Reg.PWR_SLICE_STAT_STATE (diSlice i)) ≠ 2 → Completes (.pauseEnd i true) s fun t => diState t i = 2 ∧ isRunning t 1 i = false ∧
    rd t (Reg.DRC_DI_CNT i 9) = countWord (rd s (Reg.DRC_DI_CNT i 9)) 1 ∧ i.val ∉ t.drm.retryFail ∧ mget 0 t.drm.tempAt i = getF s (Reg.DRC_DI_STAT_TEMP i) ∧ RegsBut [Reg.DRC_DI_STAT i, Reg.DRC_DI_CNT i 9] s t) ∧
  (∀ s (i : Fin 24), diState s i = 4 → i.val ∉ s.drm.retryFail → i.val ∉ s.drm.sleepAfter → getF s (Reg.PWR_SLICE_STAT_STATE (diSlice i)) ≠ 2 → Completes (.pauseEnd i false) s fun t => diState t i = 2 ∧ isDue t 1 i = true ∧
    rd t (Reg.DRC_DI_CNT i 11) = countWord (rd s (Reg.DRC_DI_CNT i 11)) 1 ∧ i.val ∈ t.drm.retryFail) ∧
  (∀ s (i : Fin 24) (k : Fin 8), dramTestUs s ≠ 0 → diState s i = 2 → diUsed s i k < diSize s i k → Completes (.dramTestStep i k true) s fun t => isRunning t 3 i = false ∧ rd t (Reg.DRC_DI_CNT i 12) = countWord (rd s (Reg.DRC_DI_CNT i 12)) 1 ∧ RegsBut [Reg.DRC_DI_CNT i 12] s t)

/-- Fabric lanes: calibration, training, frames sent and received, slips. Rests on R35, R261, R263, R265, R268, R272, R276, R278. Log entries: 62, 63, 128, 133, 137, 156. -/
def Obligations.FabricTrainingFramesAndSlips : Prop :=
  (∀ s (g : Fin 8) (l : Fin 28) ok, s.top ≠ .bringup → getF s (Reg.PWR_SLICE_STAT_STATE (20 + g)) ≠ 6 → Completes (.fabricLaneCalibration g l ok) s fun t => t = s) ∧
  (∀ s (g : Fin 8) (l : Fin 28) ok, s.top = .bringup → ok = false ∨ rcalOk s 1 = false → flag s (Reg.FAB_LANE_STAT_OOS g l) = false → Completes (.fabricLaneCalibration g l ok) s fun t =>
    t = fabFollowGroup s (levelMore (setB s (Reg.FAB_LANE_STAT_OOS g l) true) (Src.fabLaneOos g) (locSlice 1 (20 + g)) l) g) ∧
  (∀ s (g : Fin 8) (l : Fin 28), rcalOk s 1 = true → Completes (.fabricLaneCalibration g l true) s fun t => t = s) ∧
  (∀ s (g : Fin 8) (l : Fin 28) ok, flk g l ∈ s.fab.training → Completes (.fabricLinkTrainingDone g l ok) s fun t => t.fab.training = s.fab.training.erase (flk g l) ∧ (ok = false → flk g l ∈ t.fab.trainFail) ∧
    (ok = true → t.fab.trainFail = s.fab.trainFail) ∧ t.regs = s.regs) ∧
  (∀ s (g : Fin 8) (l : Fin 28), flk g l ∈ s.fab.trainFail → getF s (Reg.FAB_GRP_CFG_LT_EN g) = 1 → fabTxNow s g ≠ 0 → Completes (.fabricTrainingRetry g l) s fun t => flk g l ∈ t.fab.training ∧ t.fab.trainFail = s.fab.trainFail.erase (flk g l) ∧ t.regs = s.regs) ∧
  (∀ s, (∃ g : Fin 8, fabTxNow s g ≠ 0) → Completes (.caravanFrameSend false) s fun t => t = nextMfas (sendAll (fillSlots (sprayLanes (sprayChange s)) 16 (sprayChange s, [])).1 (fillSlots (sprayLanes (sprayChange s)) 16 (sprayChange s, [])).2)) ∧
  (∀ s (g : Fin 9) (l : Fin 28) b n x, g.val < 8 → laneHears s g l = false ∨ b.length ≠ 4112 → Completes (.caravanFrameReceive g l b n x) s fun t => t = s) ∧
  (∀ s (g : Fin 9) (l : Fin 28) b y, g.val < 8 → laneHears s g l = true → fabLoop s g l = 0 → b.length = 4112 →
    alignMf (alignFas (rxLane (perfAdd s (60 + g) 6 0) g l) (beAt b 0 3 == 0xA75C3E) false) (byteAt b 3) = y → y.inFrame = true → Completes (.caravanFrameReceive g l b 0 false) s fun t =>
    t = fabFollow s (slipWrite (overheadReceive (putRx (perfAdd s (60 + g) 6 0) g l y) g l y b (rxLane (perfAdd s (60 + g) 6 0) g l).inFrame
      ((byteAt b 3 == ((rxLane (perfAdd s (60 + g) 6 0) g l).mfas + 1) % 256) && (rxLane (perfAdd s (60 + g) 6 0) g l).inFrame)) g l b)) ∧
  (∀ s (g : Fin 9) (l : Fin 28) part, g.val < 8 → rxOk s g l = true → 4 ≤ (rxLane s g l).slip.length → (rxLane s g l).slip.any idleCells = false → Completes (.slipRead g ⟨l, part⟩) s fun t =>
    t = slipOldest (report (bumpN (bump s (Reg.FAB_LANE_CNT g l 5)) (Reg.FAB_LANE_CNT g l 7) (dataCells ((rxLane s g l).slip.headD []))) (Src.fabForcedSlip g) (locSlice 1 (20 + g)) l) g l { rxLane s g l with slip := (rxLane s g l).slip.drop 1 }) ∧
  (∀ s (g : Fin 9) (l : Fin 28) f r, g.val < 8 → rxOk s g l = true → (rxLane s g l).slip = f :: r → r.length ≤ 1 → (r = [] → idleCells (rxLane s g l).lastRead = false) → Completes (.slipRead g ⟨l, false⟩) s fun t =>
    rxLane t g l = { rxLane s g l with slip := r, lastRead := f } ∧ mget [] t.fab.cells (flk g l) = mget [] s.fab.cells (flk g l) ++ f ∧ RegsBut [Reg.FAB_LANE_STAT g l] s t)

/-- Fabric defects, degradation, the BKP watchdog and performance monitoring. Rests on R275, R283, R284, R293, R294, R295. Log entries: 65, 66. -/
def Obligations.FabricDefectsAndPerformance : Prop :=
  (∀ s (g : Fin 9) (l : Fin 28) d, g.val < 8 → (laneHears s g l = false ∨ defect s g l d.val = true ∨ defectHeld s g l d.val = true ∨ defectCond s g l d.val = false) → Completes (.defectDeclare g l d) s fun t => t = s) ∧
  (∀ s (g : Fin 9) (l : Fin 28) d, g.val < 8 → laneHears s g l = true → defect s g l d.val = false → defectHeld s g l d.val = false → defectCond s g l d.val = true →
    Completes (.defectDeclare g l d) s fun t => ∃ u v, u = setF s (Reg.FAB_LANE_STAT_DEFECT g l) (getF s (Reg.FAB_LANE_STAT_DEFECT g l) + 2 ^ d.val) ∧ v = setF u (Reg.FAB_LANE_STAT_SEEN g l) (Nat.lor (getF u (Reg.FAB_LANE_STAT_SEEN g l)) (2 ^ d.val)) ∧
      t = fabFollowGroup s (laneDef (if d = 4 ∨ d = 6 then v else pmDefect v (flk g l)) g l (!groupSeen s g)) g) ∧
  (∀ s (g : Fin 9) (l : Fin 28) d, g.val < 8 → laneHears s g l = true → defect s g l d.val = true → defectHeld s g l d.val = false → defectGone s g l d.val = true → Completes (.defectClear g l d) s fun t => ∃ u, u = setF s (Reg.FAB_LANE_STAT_DEFECT g l) (getF s (Reg.FAB_LANE_STAT_DEFECT g l) - 2 ^ d.val) ∧
    t = fabFollowGroup s (if groupDefect u g then u else levelOff u (Src.fabLaneDef g)) g) ∧
  (∀ s (g : Fin 8) (l : Fin 28), Completes (.degInterval g l) s fun t => (rxLane t g l).degNow = 0 ∧ (rxLane t g l).degBad = decide (max 1 (getF s Reg.FAB_DEG_CFG_DEG_TH) ≤ (rxLane s g l).degNow) ∧
    (rxLane t g l).degRun = (if decide (max 1 (getF s Reg.FAB_DEG_CFG_DEG_TH) ≤ (rxLane s g l).degNow) = (rxLane s g l).degBad then (rxLane s g l).degRun + 1 else 1) ∧ RegsBut [Reg.FAB_LANE_STAT g l] s t) ∧
  (∀ s (g k : Fin 8), getF s Reg.FAB_BKP_CFG_WD_MS ≠ 0 → bkpInForce s g k = true → Completes (.bkpWatchdog g k) s fun t =>
    t = bkpLevel (partnerBad (setF s (Reg.FAB_GRP_BKP_BKP_IGN g) (getF s (Reg.FAB_GRP_BKP_BKP_IGN g) + 2 ^ k.val)) g 13) g) ∧
  (∀ s, s.ptp.sec ≤ s.fab.pmSec → Completes .pmSecond s fun t => t = s) ∧
  (∀ s, s.fab.pmSec < s.ptp.sec → Completes .pmSecond s fun t => ∃ u v, u = pmRolls s.fab.pmSec (s.ptp.sec - 1) s ∧
    v = ((List.range 224).map (fun k => (k, laneClass u k)) ++ (List.range 8).map (fun g => (224 + g, grpClass u g))).foldl (fun t (e : Nat × Nat) => pmTake e.1 (s.ptp.sec - 1) e.2 t) u ∧
    t = pmRestart (pmRolls (s.ptp.sec - 1) s.ptp.sec { v with fab := { v.fab with pmSec := s.ptp.sec, pmLen := (v.fab.pmLen.1 + 1, v.fab.pmLen.2 + 1) } }))

/-- Plane protection: host requests, WTR and SRQ mismatch. Rests on R286, R287, R289, R290. Log entries: 66. -/
def Obligations.FabricProtectionRequests : Prop :=
  (∀ s, operOpen s = true → standby s = false → Completes .protClear s fun t => t = mirrorItem (wtrFollow s { s with fab := { s.fab with hostReq := none } }) (.reg 0 Reg.FAB_PROT_CTL 1)) ∧
  (∀ s (p : Fin 16), operOpen s = true → standby s = false → p.val < 8 → p.val ≠ spareOf s → Completes (.protManualSwitch p) s fun t =>
    t = mirrorItem (wtrFollow s { s with fab := { s.fab with hostReq := some (4, p.val) } }) (.reg 0 Reg.FAB_PROT_CTL (protWord 4 p))) ∧
  (∀ s (p : Fin 16), operOpen s = true → standby s = false → p.val < 8 → p.val ≠ spareOf s → Completes (.protForcedSwitch p) s fun t =>
    t = mirrorItem (wtrFollow s { s with fab := { s.fab with hostReq := some (10, p.val) } }) (.reg 0 Reg.FAB_PROT_CTL (protWord 10 p))) ∧
  (∀ s (p : Fin 16), operOpen s = true → 8 ≤ p.val ∨ p.val = spareOf s → Completes (.protForcedSwitch p) s fun t => t = pwfTarget s Reg.FAB_PROT_CTL (protWord 10 p)) ∧
  (∀ s, operOpen s = true → standby s = false → Completes .protLockout s fun t => t = mirrorItem (wtrFollow s { s with fab := { s.fab with hostReq := some (12, 15) } }) (.reg 0 Reg.FAB_PROT_CTL 12)) ∧
  (∀ s, operOpen s = true → standby s = false → Completes .protTest s fun t => t = mirrorItem (wtrFollow s { s with fab := { s.fab with hostReq := some (15, 15) } }) (.reg 0 Reg.FAB_PROT_CTL 15)) ∧
  (∀ s, Completes .wtrExpire s fun t => t = setWtr s none) ∧
  (∀ s, 12 ≤ s.fab.srqAway → Completes .srqIncDeclare s fun t => t = levelOn (setB s Reg.FAB_PROT_FLAGS_SRQ_INC true) Src.fabSrqInc (locSlice 1 63) 0 ∧ t.causeOn Src.fabSrqInc = true)

/-- Received cells, reordering and reassembly. Rests on R269, R280, R281, R282, R296. Log entries: 51, 64, 125, 155, 157. -/
def Obligations.FabricCellsAndReassembly : Prop :=
  (∀ s (g : Fin 8) (l : Fin 28) b r j, mget [] s.fab.cells (flk g l) = b :: r → relockDiscards (perf { s with fab := { s.fab with cells := mput [] s.fab.cells (flk g l) r } } (60 + g.val) 2) 1 = (false, perf { s with fab := { s.fab with cells := mput [] s.fab.cells (flk g l) r } } (60 + g.val) 2) →
    cellBad (perf { s with fab := { s.fab with cells := mput [] s.fab.cells (flk g l) r } } (60 + g.val) 2) b = some j → Completes (.cellReceive g l) s fun t => t = discard (perf { s with fab := { s.fab with cells := mput [] s.fab.cells (flk g l) r } } (60 + g.val) 2) g j) ∧
  (∀ s (g : Fin 8) (l : Fin 28) b r u, mget [] s.fab.cells (flk g l) = b :: r → perf { s with fab := { s.fab with cells := mput [] s.fab.cells (flk g l) r } } (60 + g.val) 2 = u → relockDiscards u 1 = (false, u) →
    cellBad u b = none → Completes (.cellReceive g l) s fun t => ((cellOf b).1.typ = 1 → t = dataCell (perf u (60 + g.val) 3) g (cellOf b).1) ∧ ((cellOf b).1.typ = 2 → t = (cellEntries (cellOf b).1.data).foldl (requestEntry g (cellOf b).1.src) u) ∧
      ((cellOf b).1.typ = 3 → t = (cellEntries (cellOf b).1.data).foldl (creditEntry g) u) ∧ ((cellOf b).1.typ = 4 → t = controlCell u g (cellOf b).1 (b.drop 16)) ∧ ((cellOf b).1.typ = 0 → t = u)) ∧
  (∀ s (src dst : Fin 65536) (cls : Fin 8) x e, mfind s.fab.ctx (ctxKey src dst cls) = some x → x.exp = some e → x.held = [] → Completes (.holeTimeout src dst cls) s fun t =>
    t = ctxPut (dropOpen s x.opened) (ctxKey src dst cls) (some { x with opened := none, exp := none })) ∧
  (∀ s (src dst : Fin 65536) (cls : Fin 8) x e n c g, mfind s.fab.ctx (ctxKey src dst cls) = some x → x.exp = some e → oldestHeld { x with opened := none, exp := some e } e = some (n, c, g) → Completes (.holeTimeout src dst cls) s fun t =>
    ∃ u z v, u = (List.range ((n + 2 ^ 20 - e) % 2 ^ 20)).foldl (fun a _ => partnerBad a g 7) (dropOpen s x.opened) ∧ deliverRun x.held.length u { x with opened := none, exp := some e, held := merase x.held n } n c g = (z, v) ∧ t = ctxPut v (ctxKey src dst cls) (some z)) ∧
  (∀ s (src dst : Fin 65536) (cls : Fin 8) x, mfind s.fab.ctx (ctxKey src dst cls) = some x → x.held = [] → withinUs s x.last 1000000 = false → Completes (.contextFree src dst cls) s fun t =>
    t = ctxPut (dropOpen s x.opened) (ctxKey src dst cls) none ∧ mfind t.fab.ctx (ctxKey src dst cls) = none ∧ getF t Reg.FAB_REORD_STAT_IN_USE = t.fab.ctx.length % 2 ^ Reg.FAB_REORD_STAT_IN_USE.len ∧ (x.opened = none → RegsBut [Reg.FAB_REORD_STAT] s t)) ∧
  (∀ s (src dst : Fin 65536) (cls : Fin 8) x, mfind s.fab.ctx (ctxKey src dst cls) = some x → x.held ≠ [] ∨ withinUs s x.last 1000000 = true → Completes (.contextFree src dst cls) s fun t => t = s)

/-- Commands of the pattern store. Rests on R110, R111, R112, R113, R115. Log entries: 33, 143. -/
def Obligations.PatternStoreCommands : Prop :=
  (∀ s c, cmdReady s c 0x10 = true → standby s = false → c.fn = 0 → 4 ≤ byteAt c.opnd 4 → byteAt c.opnd 4 ≤ 32 → byteAt c.opnd 5 ≤ 63 → leAt c.opnd 0 4 ≤ 16383 → shadowBusy s = false → flag s Reg.TST_MEMINJ_CTL_ARM = false →
    Completes (.sigWrite c) s fun t => mfind t.sig.pats (sigShadow s * 16384 + leAt c.opnd 0 4) = some { len := byteAt c.opnd 4, cls := byteAt c.opnd 5, nocase := bit (byteAt c.opnd 6) 0, bytes := slice c.opnd 7 32 } ∧
      (∀ k, k ≠ sigShadow s * 16384 + leAt c.opnd 0 4 → mfind t.sig.pats k = mfind s.sig.pats k) ∧ t.sig.profs = s.sig.profs ∧ t.tab = s.tab) ∧
  (∀ s c, cmdReady s c 0x11 = true → standby s = false → c.fn = 0 → leAt c.opnd 0 4 ≤ 16383 → shadowBusy s = false →
    Completes (.sigInvalidate c) s fun t => mfind t.sig.pats (sigShadow s * 16384 + leAt c.opnd 0 4) = (mfind s.sig.pats (sigShadow s * 16384 + leAt c.opnd 0 4)).map (fun x => { x with valid := false }) ∧
      (∀ k, k ≠ sigShadow s * 16384 + leAt c.opnd 0 4 → mfind t.sig.pats k = mfind s.sig.pats k) ∧ sigShadow s * 16384 + leAt c.opnd 0 4 ∉ t.sig.lost ∧ t.tab = s.tab) ∧
  (∀ s c, cmdReady s c 0x12 = true → standby s = false → c.fn = 0 → leAt c.opnd 0 4 ≤ 7 → leAt c.opnd 4 4 ≤ 7 → (leAt c.opnd 4 4 = 7 → leAt c.opnd 12 4 = 0) → leAt c.opnd 8 4 ≤ 255 → shadowBusy s = false →
    Completes (.sigProfile c) s fun t => sigProf t (sigShadow s) (leAt c.opnd 0 4) = leAt c.opnd 4 4 + leAt c.opnd 8 4 * 2 ^ 3 + min (leAt c.opnd 12 4) 1023 * 2 ^ 11 + leAt c.opnd 16 8 * 2 ^ 21 ∧ t.sig.pats = s.sig.pats ∧ t.tab = s.tab) ∧
  (∀ s c, cmdReady s c 0x13 = true → standby s = false → c.fn = 0 → shadowBusy s = false →
    Completes (.sigClear c) s fun t => (∀ k, k / 16384 = sigShadow s → mfind t.sig.pats k = (mfind s.sig.pats k).map (fun x => { x with valid := false })) ∧ (∀ k, k / 16384 ≠ sigShadow s → mfind t.sig.pats k = mfind s.sig.pats k) ∧ (∀ p, p < 8 → sigProf t (sigShadow s) p = sprofReset) ∧ t.tab = s.tab) ∧
  (∀ s c, cmdReady s c 0x14 = true → standby s = false → c.fn = 0 → shadowBusy s = false →
    Completes (.sigCopy c) s fun t => t = finish (sigCounts (lostFollow (setB s Reg.SIG_STORE_STAT_COPY_BUSY true))) c true .ok []) ∧
  (∀ s c, cmdReady s c 0x14 = true → standby s = false → c.fn = 0 → shadowBusy s = true →
    Completes (.sigCopy c) s fun t => t = finish s c false .busy []) ∧
  (∀ s c, cmdReady s c 0x14 = true → standby s = true → Completes (.sigCopy c) s fun t => t = finish s c false .notPermitted []) ∧
  (∀ s, getF s Reg.SIG_STORE_STAT_COPY_BUSY = 1 → Completes .sigCopyDone s fun t => getF t Reg.SIG_STORE_STAT_COPY_BUSY = 0 ∧ sigActive t = sigActive s ∧ (∀ p, p < 8 → sigProf t (sigShadow s) p = sigProf s (sigActive s) p) ∧
    RegsBut [Reg.SIG_STORE_STAT, Reg.SIG_STORE_CNT] s t) ∧
  (∀ s c, cmdReady s c 0x15 = true → standby s = false → c.fn = 0 → getF s Reg.SIG_STORE_STAT_SWAP_PEND = 0 → getF s Reg.SIG_STORE_STAT_COPY_BUSY = 0 → leAt c.opnd 0 6 * 1000000000 + leAt c.opnd 6 4 ≤ s.ptp.total →
    Completes (.sigSwap c) s fun t => t = finish (sigSwapNow s) c true .ok []) ∧
  (∀ s c, cmdReady s c 0x15 = true → standby s = false → c.fn = 0 → getF s Reg.SIG_STORE_STAT_SWAP_PEND = 0 → getF s Reg.SIG_STORE_STAT_COPY_BUSY = 0 → s.ptp.total < leAt c.opnd 0 6 * 1000000000 + leAt c.opnd 6 4 →
    Completes (.sigSwap c) s fun t => t = finish (setB { s with sig := { s.sig with swapAt := some (leAt c.opnd 0 6 * 1000000000 + leAt c.opnd 6 4) } } Reg.SIG_STORE_STAT_SWAP_PEND true) c true .ok []) ∧
  (∀ s x, s.sig.swapAt = some x → x ≤ s.ptp.total → Completes .sigSwapInstant s fun t => sigActive t = sigShadow s % 2 ∧ getF t Reg.SIG_STORE_STAT_SWAP_PEND = 0 ∧ getF t Reg.SIG_STORE_STAT_OLD_BUSY = 1 ∧
    getF t Reg.SIG_STORE_STAT_SWAP_CNT = (getF s Reg.SIG_STORE_STAT_SWAP_CNT + 1) % 65536 ∧ t.sig.pats = s.sig.pats ∧ t.sig.swapAt = none ∧ RegsBut [Reg.SIG_STORE_STAT, Reg.SIG_STORE_CNT] s t) ∧
  (∀ s, operOpen s = true → s.sig.swapAt.any (· ≤ s.ptp.total) = false → Completes .sigCancel s fun t => getF t Reg.SIG_STORE_STAT_SWAP_PEND = 0 ∧ t.sig = { s.sig with swapAt := none } ∧ RegsBut [Reg.SIG_STORE_STAT] s t) ∧
  (∀ s, Completes .oldBankDrained s fun t => getF t Reg.SIG_STORE_STAT_OLD_BUSY = 0 ∧ RegsBut [Reg.SIG_STORE_STAT] s t) ∧
  (∀ s c, cmdReady s c 0x16 = true → c.fn = 0 → byteAt c.opnd 5 = 0 → leAt c.opnd 0 4 ≤ 16383 → byteAt c.opnd 4 % 2 * 16384 + leAt c.opnd 0 4 ∉ s.sig.masterBad → byteAt c.opnd 4 % 2 * 16384 + leAt c.opnd 0 4 ∉ s.sig.lost →
    Completes (.sigRead c false) s fun t => t = finish s c false .ok (patBytes (mfind s.sig.pats (byteAt c.opnd 4 % 2 * 16384 + leAt c.opnd 0 4))))

/-- Repair of working copies and the scan of a window. Rests on R103, R106, R114, R115. Log entries: 17, 142, 144. -/
def Obligations.PatternRepairAndScan : Prop :=
  (∀ s (n : Fin 20) k, n.val * 65536 + k ∉ s.sig.repair ∨ sliceSleeps s n = true → ∀ b, Completes (.sigEntryRepair n k b) s fun t => t = s) ∧
  (∀ s (n : Fin 20) k, n.val * 65536 + k ∈ s.sig.repair → sliceSleeps s n = false → k ∉ s.sig.masterBad → Completes (.sigEntryRepair n k false) s fun t =>
    t = report (bump { s with sig := { s.sig with repair := s.sig.repair.filter (· != n.val * 65536 + k) } } (Reg.SIG_ENG_CNT n 5)) (Src.sigStoreEcc n) (locSlice 0 n) (Config.memWord (Src.sigStoreEcc n) k % 2 ^ 31)) ∧
  (∀ s (n : Fin 20) bad corr, sliceSleeps s n = true ∨ (∀ f ∈ inq s n, f.win = none) → Completes (.scanWindow n ⟨bad, corr⟩) s fun t => t = s) ∧
  (∀ s (n : Fin 20), sliceSleeps s n = false → (∃ f ∈ inq s n, f.win.isSome = true) → Completes (.scanWindow n ⟨[], 0⟩) s fun t =>
    inq t n = (scanFirst (windowResult s n) (inq s n)).1 ∧ (bit (scanFirst (windowResult s n) (inq s n)).2 142 = false → rd t (Reg.SIG_ENG_CNT n 0) = countWord (rd s (Reg.SIG_ENG_CNT n 0)) 1) ∧
    (bit (scanFirst (windowResult s n) (inq s n)).2 142 = true → rd t (Reg.SIG_ENG_CNT n 1) = countWord (rd s (Reg.SIG_ENG_CNT n 1)) 1) ∧ t.tab = s.tab)

/-- Table commands by opcode, their completion, standby and readiness. Rests on R132, R144, R146, R148, R344, R489, R570, R604. Log entries: 34, 38, 39, 147, 148. -/
def Obligations.TableCommands : Prop :=
  (∀ s c, cmdReady s c 1 = true → standby s = false → Completes (.insert c) s fun t => ∃ e, e = writeEng c.fn 1 c (perf s 83 0) ∧ t = finish e.s c e.changed e.st e.res ∧ t.tab = e.s.tab) ∧
  (∀ s c, cmdReady s c 2 = true → standby s = false → Completes (.delete c) s fun t => ∃ e, e = writeEng c.fn 2 c (perf s 83 1) ∧ t = finish e.s c e.changed e.st e.res ∧ t.tab = e.s.tab) ∧
  (∀ s c, cmdReady s c 3 = true → standby s = false → Completes (.modify c) s fun t => ∃ e, e = writeEng c.fn 3 c (perf s 83 2) ∧ t = finish e.s c e.changed e.st e.res ∧ t.tab = e.s.tab) ∧
  (∀ s c, cmdReady s c 1 = true → standby s = true → Completes (.insert c) s fun t => t = finish s c false .notPermitted [] ∧ t.tab = s.tab) ∧
  (∀ s c, cmdReady s c 4 = true → Completes (.search c) s fun t => ∃ e, e = readEng 4 c (perf s 83 3) ∧ t = finish e.s c e.changed e.st e.res) ∧
  (∀ s c, cmdReady s c 5 = true → Completes (.next c) s fun t => ∃ e, e = readEng 5 c (perf s 83 3) ∧ t = finish e.s c e.changed e.st e.res) ∧
  (∀ s c, cmdReady s c 6 = true → Completes (.readEntry c) s fun t => ∃ e, e = readEng 6 c s ∧ t = finish e.s c e.changed e.st e.res) ∧
  (∀ s c, cmdReady s c 7 = true → (∀ x ∈ (finish (moveEng c (perf s 83 7)).s c (moveEng c (perf s 83 7)).changed (moveEng c (perf s 83 7)).st (moveEng c (perf s 83 7)).res).pair.retry, x.table ≠ c.table) →
    Completes (.move c) s fun t => ∃ e, e = moveEng c (perf s 83 7) ∧ t = finish e.s c e.changed e.st e.res ∧ t.tab = e.s.tab) ∧
  (∀ s c, cmdReady s c 0x20 = true → Completes (.nop c) s fun t => t = finish s c false .ok [] ∧ t.tab = s.tab) ∧
  (∀ s c op, cmdReady s c op = false → (op = 1 → Completes (.insert c) s fun t => t = s) ∧ (op = 2 → Completes (.delete c) s fun t => t = s) ∧ (op = 3 → Completes (.modify c) s fun t => t = s) ∧
    (op = 4 → Completes (.search c) s fun t => t = s) ∧ (op = 5 → Completes (.next c) s fun t => t = s) ∧ (op = 6 → Completes (.readEntry c) s fun t => t = s) ∧ (op = 7 → Completes (.move c) s fun t => t = s) ∧ (op = 0x20 → Completes (.nop c) s fun t => t = s)) ∧
  (∀ s c, cmdReady s c 8 = true → standby s = false → flushStatus s c = .ok → Completes (.flushByPort c) s fun t => t.tab.flushes = s.tab.flushes ++ [flushOf s c] ∧ t.tab.mac = s.tab.mac) ∧
  (∀ s c, cmdReady s c 8 = true → standby s = false → flushStatus s c ≠ .ok → Completes (.flushByPort c) s fun t => t = finish s c false (flushStatus s c) [] ∧ t.tab = s.tab) ∧
  (∀ s f r, getF s Reg.FTB_FLUSH_STAT_RUNNING = 1 → s.tab.flushes = f :: r → Completes .flushByPortDone s fun t => t = finish (flushSweep s f r).1 f.cmd false .ok (leBytes 4 (flushSweep s f r).2)) ∧
  (∀ s fn ins t i v, (directWrite s fn ins t i v).st = .ok → t ≠ 8 → t ≠ 15 → t ≠ 19 → t ≠ 21 → t ≠ 22 → (directWrite s fn ins t i v).changed = true ∧ (directWrite s fn ins t i v).s = tabPut s t i (storedValue s t v))

/-- The fragment table, learning, refreshing, ageing and the trie. Rests on R92, R93, R118, R136, R138, R139, R140. Log entries: 35, 37, 141. -/
def Obligations.FragmentAndLearnTables : Prop :=
  (∀ s (n : Fin 20) (set : Fin 1024) (i : Fin 4) e, (mget [] s.ing.frag (n.val * 1024 + set.val))[i.val]? = some e → e.at_ + fragAge s ≤ s.tick → fragInUse s n (n.val * 1024 + set.val) e.key = false → Completes (.fragEntryAge n set i) s fun t =>
    mget [] t.ing.frag (n.val * 1024 + set.val) = (mget [] s.ing.frag (n.val * 1024 + set.val)).eraseIdx i ∧ (∀ k, k ≠ n.val * 1024 + set.val → mget [] t.ing.frag k = mget [] s.ing.frag k) ∧
    rd t (Reg.PRS_FRAG_CNT n 5) = countWord (rd s (Reg.PRS_FRAG_CNT n 5)) 1 ∧ RegsBut [Reg.PRS_FRAG_CNT n 5, Reg.PRS_FRAG_STAT n] s t) ∧
  (∀ s (n : Fin 20) (set : Fin 1024) (i : Fin 4) e, (mget [] s.ing.frag (n.val * 1024 + set.val))[i.val]? = some e → s.tick < e.at_ + fragAge s → Completes (.fragEntryAge n set i) s fun t => t = s) ∧
  (∀ s (n : Fin 20), operOpen s = true → Completes (.fragFlush n) s fun t => (∀ k, k / 1024 = n.val → mget [] t.ing.frag k = []) ∧ RegsBut [Reg.PRS_FRAG_STAT n] s t) ∧
  (∀ s x r, s.tab.bus = x :: r → x.refresh = false → sliceSleeps s x.dst = false → Completes .learnBusMsg s fun t => t = learnShared { s with tab := { s.tab with bus := r } } x) ∧
  (∀ s x r, s.tab.bus = x :: r → sliceSleeps s x.dst = true → x.refresh = false → Completes .learnBusMsg s fun t => t.tab = { s.tab with bus := r } ∧ rd t (Reg.FTB_LEARN_CNT x.src 5) = countWord (rd s (Reg.FTB_LEARN_CNT x.src 5)) 1 ∧ RegsBut [Reg.FTB_LEARN_CNT x.src 5] s t) ∧
  (∀ s x r b k e, s.tab.bus = x :: r → x.refresh = true → sliceSleeps s x.dst = false → macFind { s with tab := { s.tab with bus := r } } x.dst x.bd x.mac = some (b, k, e) → e.isStatic = false → Completes .learnRefreshMsg s fun t =>
    t = macSet { s with tab := { s.tab with bus := r } } x.dst b k (some { e with age := 0 })) ∧
  (∀ s (n : Fin 20) (q : Fin 256), getF s (Reg.FTB_TENANT_AGE_AGE_S q) = 0 ∨ sliceSleeps s n = true → Completes (.ageSweep n q) s fun t => t = s) ∧
  (∀ s (n : Fin 20) (q : Fin 256) k e, getF s (Reg.FTB_TENANT_AGE_AGE_S q) ≠ 0 → sliceSleeps s n = false → (macCopy s n).filter (fun e => !macBad s e.1 && !e.2.isStatic && vrfOwner s e.2.bd == q.val) = [(k, e)] → e.age < 4 → Completes (.ageSweep n q) s fun t =>
    t = macSet s n (k / 4 % 65536) (k % 4) (some { e with age := e.age + 1 })) ∧
  (∀ s (n : Fin 20) (q : Fin 256) k e, getF s (Reg.FTB_TENANT_AGE_AGE_S q) ≠ 0 → sliceSleeps s n = false → (macCopy s n).filter (fun e => !macBad s e.1 && !e.2.isStatic && vrfOwner s e.2.bd == q.val) = [(k, e)] → 4 ≤ e.age → Completes (.ageSweep n q) s fun t =>
    t = perf (bump (macSet s n (k / 4 % 65536) (k % 4) none) (Reg.FTB_LEARN_CNT n 2)) 83 6) ∧
  (∀ s, Completes .trieNodeRebuild s fun t => t.tab.trieBad = s.tab.trieBad.drop 1 ∧ getF t Reg.FTB_ECC_STAT_REBUILD = b2n (!(s.tab.trieBad.drop 1).isEmpty) ∧ RegsBut [Reg.FTB_ECC_STAT] s t)

/-- Ingress passes, policer sweeps, recirculation and the Hall. Rests on R66, R81, R155, R157, R162, R164, R165, R173, R198. Log entries: 31, 46, 47, 48, 49. -/
def Obligations.IngressPassesPolicersHall : Prop :=
  (∀ s (n : Fin 20) bad q fb hold, sliceSleeps s n = true ∨ (passHead s n = none ∧ (hold = true ∨ mget [] s.ing.looked n.val = [])) → Completes (.ingressPass n bad q ⟨fb, hold⟩) s fun t => t = s) ∧
  (∀ s (n : Fin 20) bad q fb f u, sliceSleeps s n = false → passHead s n = some (f, u) → Completes (.ingressPass n bad q ⟨fb, true⟩) s fun t => ∃ d v, d = parse f.bytes (profOf s f.port) f.port ∧
    v = parseCounts (bumpIf (f.pass != 0) (findBad u bad q d.record (frameBd u f d.record)) (Reg.SIG_ENG_CNT n 2)) n f.port d (f.pass == 0) f.probe.isSome ∧
    (pget d.record PF.fail = 1 → t = passFailed v n f d.record) ∧ (pget d.record PF.fail ≠ 1 → t = passLookup v n f d.record (profOf s f.port) fb)) ∧
  (∀ s (n : Fin 20) bad q fb, sliceSleeps s n = false → ∃ u, exec (.ingressPass n bad q ⟨fb, true⟩) s = .next u ∧ Completes (.ingressPass n bad q ⟨fb, false⟩) s fun t => t = passDrain n (mget [] u.ing.looked n.val).length u) ∧
  (∀ s (n : Fin 20) bad q fb c, sliceSleeps s n = false → passHead s n = none → mget [] s.ing.looked n.val = [c] → Completes (.ingressPass n bad q ⟨fb, false⟩) s fun t => t = passAct { s with ing := { s.ing with looked := mput [] s.ing.looked n.val [] } } c) ∧
  (∀ s, Completes .policerSweep s fun t => t = (tabAll s Tab.policer).foldl (fun a e => polFill a e.1) s ∧ (tabAll s Tab.policer = [] → t = s) ∧ (∀ i v, tabAll s Tab.policer = [(i, v)] → t = polFill s i)) ∧
  (∀ s (n : Fin 20), sliceSleeps s n = false → mget [] s.ing.recirc n.val = [] → Completes (.recircSlot n) s fun t => mget 0 t.ing.slot n.val = (mget 0 s.ing.slot n + 1) % 64 ∧ t.regs = s.regs) ∧
  (∀ s (n : Fin 20) f q, sliceSleeps s n = false → mget [] s.ing.recirc n.val = f :: q → mget 0 s.ing.slot n < min 16 (getF s (Reg.ACT_RECIRC_CFG_RES_SLOTS n)) ∨ inq s n = [] → Completes (.recircSlot n) s fun t =>
    mget [] t.ing.slotted n.val = mget [] s.ing.slotted n.val ++ [f] ∧ mget [] t.ing.recirc n.val = q ∧ RegsBut [Reg.ACT_RECIRC_STAT n] s t) ∧
  (∀ s (n : Fin 20), hallPick [] (hall s n) = none → Completes (.hallRelease n) s fun t => t = s) ∧
  (∀ s (n : Fin 20) e h, hallPick [] (hall s n) = some (e, h) → h.smp = none → Completes (.hallRelease n) s fun t =>
    t = hallMirrors (hallForward (hallPut s n ((hall s n).filter (fun x => x.id != e.id))) n e.port h) n e.port h)

/-- Stair transfers, egress passes, staging and watermarks. Rests on R14, R176, R191, R200, R223, R253, R254, R598. Log entries: 50, 52, 53, 114. -/
def Obligations.StairEgressStagingMarks : Prop :=
  (∀ s (lane : Fin 52) (k : Fin 5) a r, mget [] s.qd.stairUp lane.val = a :: r → Completes (.stairTransfer true lane k true) s fun t => mget [] t.qd.stairUp lane.val = r ∧ mget [] t.qd.arrivals lane.val = mget [] s.qd.arrivals lane.val ++ [a] ∧
    (k.val ≠ 0 → rd t (Reg.DEV_CNT 0) = countWord (rd s (Reg.DEV_CNT 0)) k) ∧ RegsBut [Reg.DEV_CNT 0] s t) ∧
  (∀ s (lane : Fin 52) (k : Fin 5) f r, lane.val < 20 → mget [] s.qd.stairDown lane.val = f :: r → Completes (.stairTransfer false lane k true) s fun t => mget [] t.qd.stairDown lane.val = r ∧ mget [] t.qd.egress lane.val = mget [] s.qd.egress lane.val ++ [f] ∧
    (k.val ≠ 0 → rd t (Reg.DEV_CNT 1) = countWord (rd s (Reg.DEV_CNT 1)) k) ∧ RegsBut [Reg.DEV_CNT 1] s t) ∧
  (∀ s (n : Fin 20) f r, mget [] s.qd.egress n.val = f :: r → Completes (.egressPass n) s fun t => t = egressFrame { s with qd := { s.qd with egress := mput [] s.qd.egress n.val r } } n f) ∧
  (∀ s (p : Fin 160) (k : Fin 8) f r, staged s p k = f :: r → macRefuses s p = none → mayStart s p k f = false → Completes (.stagedFrameStart p k) s fun t => t = s) ∧
  (∀ s (p : Fin 160) (k : Fin 8) f r, staged s p k = f :: r → macRefuses s p = none → mayStart s p k f = true → Completes (.stagedFrameStart p k) s fun t => t = macSend (stageRest s p k r) p f) ∧
  (∀ s (p : Fin 160) (k : Fin 8) f r l, staged s p k = f :: r → getF s (Reg.SCH_GATE_CTL_EN p) = 1 → gateListAt s p s.ptp.total = some l → mayStart s p k f = false → Completes (.gateNofit p k) s fun t =>
    staged t p k = r ∧ rd t (Reg.SCH_CNT 8) = countWord (rd s (Reg.SCH_CNT 8)) 1 ∧ RegsBut [Reg.SCH_CNT 8] s t) ∧
  (∀ s (lane : Fin 52) a r, mget [] s.qd.arrivals lane.val = a :: r → Completes (.bufferArrival lane) s fun t => t = arrive { s with qd := { s.qd with arrivals := mput [] s.qd.arrivals lane.val r } } (lane.val % 32) a) ∧
  (∀ s (r k : Nat), r < 2 → k < 8 → powered s = true → Completes (.wmCrossedClear false (8 * r + k)) s fun t => getF t (Reg.CGM_PWM_STAT_CROSSED r k) = 0 ∧ getF t (Reg.CGM_PWM_STAT_COUNT r k) = 0 ∧
    getF t (Reg.CGM_PWM_STAT_LEVEL_NOW r k) = getF s (Reg.CGM_PWM_STAT_LEVEL_NOW r k) ∧ RegsBut [Reg.CGM_PWM_STAT r k, Reg.CGM_PWM_TIME_LO r k, Reg.CGM_PWM_TIME_HI r k] s t) ∧
  (∀ s (m : Fin 4096) v, operOpen s = true → bit v 31 = false → Completes (.qwmConfig m v) s fun t => getF t (Reg.CGM_QWM_CFG_EN m) = 0 ∧ getF t (Reg.CGM_QWM_CFG_QUEUE m) = v % 2 ^ 20 ∧ rd t (Reg.CGM_QWM_STAT m) = 0 ∧ rd t (Reg.CGM_QWM_PEAK m) = 0 ∧
    RegsBut [Reg.CGM_QWM_CFG m, Reg.CGM_QWM_STAT m, Reg.CGM_QWM_PEAK m, Reg.CGM_QWM_TIME_LO m, Reg.CGM_QWM_TIME_HI m] s t)

/-- When the commands of the update agent, the fault log, scratch windows and counters complete. Rests on R389, R390, R393, R394, R395, R399, R400, R401, R514, R533, R546, R551. Log entries: 61, 81, 87, 89, 102, 103. -/
def Obligations.UpdateFaultScratchCounterCommandsComplete : Prop :=
  (∀ s v, s.top = .run → updState s = 0 → (bits v 1 2 = 1 ∨ bits v 1 2 = 2) → wornOut s (blocksOf (slotPlace s (bits v 1 2) (stageSlot s (bits v 1 2))).1 (getF s Reg.UPD_STAGE_LEN_LEN)) = false →
    ∃ t, exec (.stageStart v) s = .next t ∧ updState t = 1 ∧ flag t Reg.UPD_STAGE_STAT_BUSY = true) ∧
  (∀ s typ slot d, programsBlocked s = false → updState s = 1 → s.upd.staging = some (typ, slot) → hdrCrcOk (parseImage d slot false).header = true → formatOk (parseImage d slot false) typ (slotPlace s typ slot).2 = true →
    (parseImage d slot false).length = getF s Reg.UPD_STAGE_LEN_LEN → badBlock (parseImage d slot false) = none → imageFault s.otp (parseImage d slot false) typ = 0 → 256 ≤ d.length →
    ∃ t, exec (.stagingDone true true d ⟨[], []⟩) s = .next t ∧ updState t = 2 ∧ getF t Reg.UPD_STAT_LAST_STATUS = 0) ∧
  (∀ s b, updState s = 2 → buildShadow s = .ok b → ∃ t, exec .prepareDone s = .next t ∧ updState t = 3 ∧ t.upd.shadow = some b) ∧
  (∀ s v, s.top = .run → bits (Nat.lor v 1) 0 6 = 1 → updState s = 3 → getF s Reg.UPD_STAT_REQ_CLASS ≠ 2 → s.ptp.total + 100000000 ≤ actTime s → ∃ t, exec (.arm v) s = .next t ∧ updState t = 4) ∧
  (∀ s v, s.top = .run → bits (Nat.lor v 2) 0 6 = 2 → updState s = 4 → s.ptp.total < actTime s → ∃ t, exec (.disarm v) s = .next t ∧ updState t = 3) ∧
  (∀ s b, updState s = 4 → s.upd.shadow = some b → actTime s ≤ s.ptp.total → s.upd.fw = none → s.upd.cfg = none → ∃ t, exec .activation s = .next t ∧ updState t = 6) ∧
  (∀ s, updState s = 5 → ∃ t, exec .firmwareSwapDone s = .next t ∧ updState t = 6 ∧ t.upd.window.1 = s.tick) ∧
  (∀ s v, s.top = .run → bits (Nat.lor v 4) 0 6 = 4 → updState s = 6 → s.upd.window.2 ≠ 0 → updCode v = true → ∃ t, exec (.confirm v) s = .next t ∧ updState t = 0 ∧ rd t (Reg.UPD_CNT 1) = countWord (rd s (Reg.UPD_CNT 1)) 1) ∧
  (∀ s v, s.top = .run → bits (Nat.lor v 8) 0 6 = 8 → updState s = 6 → updCode v = true → ∃ t, exec (.abandon v) s = .next t ∧ updState t = 6 ∧ flag t Reg.UPD_STAT_FALLBACK_DUE = true) ∧
  (∀ s v, s.top = .run → bits (Nat.lor v 16) 0 6 = 16 → updState s = 3 → ¬(pairMode s = true ∧ role s = 1) → updCode v = true → programsBlocked s = false → s.boot.dirOwed = none → ∃ t, exec (.restartAct v) s = .next t ∧ t.top = .reset ∧ t.pwr.cause = 4) ∧
  (∀ s v, s.top = .run → bits (Nat.lor v 32) 0 6 = 32 → updState s = 3 → ∃ t, exec (.discard v) s = .next t ∧ updState t = 0 ∧ t.upd.shadow = none) ∧
  (∀ s, updState s = 6 → ∃ t, exec .trialExpire s = .next t ∧ updState t = 6 ∧ flag t Reg.UPD_STAT_FALLBACK_DUE = true) ∧
  (∀ s, updState s = 6 → flag s Reg.UPD_STAT_FALLBACK_DUE = true → safePoint s = true → s.upd.restartTrial = true → ∃ t, exec .fallbackStart s = .next t ∧ updState t = 7) ∧
  (∀ s b, updState s = 6 → flag s Reg.UPD_STAT_FALLBACK_DUE = true → safePoint s = true → s.upd.restartTrial = false → s.upd.shadow = some b → ∃ t, exec .fallbackStart s = .next t ∧ t = switchBanks (updEnter s 7) b) ∧
  (∀ s, updState s = 7 → s.upd.restartTrial = false → ∃ t, exec .fallbackDone s = .next t ∧ updState t = 0 ∧ flag t Reg.UPD_STAT_FELL_BACK = true) ∧
  (∀ s, updState s = 7 → s.upd.restartTrial = true → programsBlocked s = false → ∃ t, exec .fallbackDone s = .next t ∧ t.top = .reset ∧ t.pwr.cause = 4) ∧
  (∀ s src r, nextLatched s.tick s.flt.latch = some (src, r) → r.sev = 1 → src ≠ Src.vinWarn → mfind s.flt.lastRec src = none → recRingFull s = false →
    ∃ t, exec .faultCollect s = .next t ∧ srcStatus t src = true ∧ t.flt.seq = nextSeq s.flt.seq) ∧
  (∀ s src, powered s = true → srcStatus s src = true → srcCause s src = false → mfind s.flt.latch src = none → (∀ e ∈ s.flt.hold, e.1 ≠ src) →
    ∃ t, exec (.fltStatusClear src) s = .next t ∧ srcStatus t src = false) ∧
  (∀ s, operOpen s = true → (∀ t x l, s.flt.firstOf = some (t, x, l) → t ≠ s.tick) → ∃ t, exec .firstFaultClear s = .next t ∧ flag t Reg.FLT_FIRST_STAT_VALID = false) ∧
  (∀ s v, operOpen s = true → (v % 1024 + 1024 - getF s Reg.FLT_RING_RD_RD_IDX) % 1024 ≤ (getF s Reg.FLT_RING_STAT_WR_IDX + 1024 - getF s Reg.FLT_RING_RD_RD_IDX) % 1024 →
    ∃ t, exec (.ringRdWrite v) s = .next t ∧ getF t Reg.FLT_RING_RD_RD_IDX = v % 1024) ∧
  (∀ s (bank : Fin 32) n o, shrPick s bank (mget 0 s.scr.bankAt bank) 20 = some (n, o) → scrErr s 20 o.word = .good →
    ∃ t, exec (.sharedScratchOp bank) s = .next t ∧ scrData t 20 o.word = maskWord o.set o.mask (scrData s 20 o.word) % 2 ^ 64) ∧
  (∀ s a v m w, operOpen s = true → scrTarget s a = some (m, w) → highHalf a = false → scrAsleep s m = false → s.scr.held = none →
    ∃ t, exec (.scrWindowWrite a v) s = .next t ∧ t.scr.held = some { addr := a, mem := m, word := w, low := v % 2 ^ 32 }) ∧
  (∀ s a v m w h, operOpen s = true → scrTarget s a = some (m, w) → highHalf a = true → scrAsleep s m = false → s.scr.held = some h → h.mem = m → h.word = w → flag s Reg.TST_MEMINJ_CTL_ARM = false →
    ∃ t, exec (.scrWindowWrite a v) s = .next t ∧ scrData t m w = (h.low + v % 2 ^ 32 * 2 ^ 32) % 2 ^ 64) ∧
  (∀ s a v m w, operOpen s = true → scrTarget s a = some (m, w) → s.scr.held = none → scrErr s m w = .good →
    ∃ t, exec (.scrAliasSet a v) s = .next t ∧ scrData t m w = Nat.lor (scrData s m w) (v % 2 ^ 32 * (if highHalf a then 2 ^ 32 else 1)) % 2 ^ 64) ∧
  (∀ s a v m w, operOpen s = true → scrTarget s a = some (m, w) → s.scr.held = none → scrErr s m w = .good →
    ∃ t, exec (.scrAliasClear a v) s = .next t ∧ scrData t m w = (scrData s m w - Nat.land (scrData s m w) (v % 2 ^ 32 * (if highHalf a then 2 ^ 32 else 1))) % 2 ^ 64) ∧
  (∀ s v, operOpen s = true → bit v 22 = true → bit v 21 = false → flag s Reg.CNT_STAT_RD_BUSY = false →
    ∃ t, exec (.pairRead v) s = .next t ∧ rd t (Reg.CNT_RD_DATA 0) = Word.ofNat (pairValue s (bits v 0 21)).frames ∧ rd t (Reg.CNT_RD_DATA 2) = Word.ofNat (pairValue s (bits v 0 21)).bytes) ∧
  (∀ s (d : Fin 64), operOpen s = true → flag s (Reg.CNT_DGRP_CFG_EN d) = true → mfind s.cnt.snaps d = none →
    ∃ t, exec (.dumpEpoch d) s = .next t ∧ mfind t.cnt.snaps d = some (takeSnapshot s d (nextSeq (mget 0 s.cnt.seq d)))) ∧
  (∀ s (d : Fin 64) x, s.cnt.snaps = [(d.val, x)] → x.ring < 8 → ringRuns s 0 (36 + x.ring) = true → x.perfKind = false → x.written = 0 → x.entries + 2 ≤ ringRoom s 0 (36 + x.ring) →
    ∃ t, exec (.dumpWrite d) s = .next t ∧ rd t (Reg.CNT_CNT 0) = countWord (rd s (Reg.CNT_CNT 0)) 1 ∧ t.cnt.snaps = []) ∧
  (∀ s (j : Fin 128) v, operOpen s = true → getF s (Reg.CNT_PERF_TEN_TENANT j) ≠ v % 256 → ∃ t, exec (.perfTenantWrite j v) s = .next t ∧
    getF t (Reg.CNT_PERF_TEN_TENANT j) = v % 256 ∧ flag t (Reg.CNT_PERF_TEN_EN j) = bit v 8)
end

