-- ==== Sys2Proof/Laws/Map.lean ====
section
/-! SUPPORT. The laws of the sparse maps: a read after a write gives the value written, a write leaves every other key alone, and every write keeps the canonical form. -/

namespace Sys2Proof.Machine

variable {α : Type}

@[simp] theorem mfind_merase_self (m : NMap α) (k : Nat) : mfind (merase m k) k = none := by
  induction m with
  | nil => rfl
  | cons e r ih =>
    obtain ⟨j, v⟩ := e
    by_cases h : j = k <;> simp [merase, mfind, h, ih]

theorem mfind_merase_ne (m : NMap α) {k j : Nat} (h : j ≠ k) : mfind (merase m k) j = mfind m j := by
  induction m with
  | nil => rfl
  | cons e r ih =>
    obtain ⟨i, v⟩ := e
    by_cases h1 : i = k
    · subst h1
      simp [merase, mfind, Ne.symm h, ih]
    · simp only [merase, h1, if_false, mfind, ih]

theorem mfind_minsert_self (m : NMap α) (k : Nat) (v : α) (h : mfind m k = none) : mfind (minsert m k v) k = some v := by
  induction m with
  | nil => simp [minsert, mfind]
  | cons e r ih =>
    obtain ⟨j, w⟩ := e
    by_cases h1 : j = k
    · simp [mfind, h1] at h
    · simp only [mfind, h1, if_false] at h
      by_cases h2 : k < j <;> simp [minsert, mfind, h1, h2, ih h]

theorem mfind_minsert_ne (m : NMap α) {k j : Nat} (v : α) (h : j ≠ k) : mfind (minsert m k v) j = mfind m j := by
  induction m with
  | nil => simp [minsert, mfind, Ne.symm h]
  | cons e r ih =>
    obtain ⟨i, w⟩ := e
    by_cases h2 : k < i
    · simp [minsert, mfind, h2, Ne.symm h]
    · simp only [minsert, h2, if_false, mfind, ih]

/-- The same law for a map whose entries are written or removed as options. -/
theorem mfind_mset_self (m : NMap α) (k : Nat) (v : Option α) : mfind (mset m k v) k = v := by
  cases v <;> simp [mset, mfind_minsert_self _ _ _ (mfind_merase_self m k)]

theorem mfind_mset_ne (m : NMap α) {k j : Nat} (v : Option α) (h : j ≠ k) : mfind (mset m k v) j = mfind m j := by
  cases v <;> simp [mset, mfind_merase_ne m h, mfind_minsert_ne _ _ h]

variable [DecidableEq α]

/-- A read of the key just written gives the value written. -/
@[simp] theorem mget_mput_self (d : α) (m : NMap α) (k : Nat) (v : α) : mget d (mput d m k v) k = v := by
  unfold mget mput
  by_cases h : v = d
  · simp [h]
  · simp [h, mfind_minsert_self _ _ _ (mfind_merase_self m k)]

/-- A write leaves every other key alone, whatever an unlisted key reads as. -/
theorem mget_mput_ne (d e : α) (m : NMap α) {k j : Nat} (v : α) (h : j ≠ k) : mget d (mput e m k v) j = mget d m j := by
  have hf : mfind (mput e m k v) j = mfind m j := by
    unfold mput
    split
    · rw [mfind_merase_ne m h]
    · rw [mfind_minsert_ne _ v h, mfind_merase_ne m h]
  simp only [mget, hf]

/-! ## Canonical forms -/

omit [DecidableEq α] in
theorem mrising_iff (m : NMap α) : mrising m = true ↔ m.Pairwise (fun a b => a.1 < b.1) := by
  induction m with
  | nil => simp [mrising]
  | cons e r ih =>
    obtain ⟨j, v⟩ := e
    cases r with
    | nil => simp [mrising]
    | cons f q =>
      obtain ⟨k, w⟩ := f
      simp only [mrising, Bool.and_eq_true, decide_eq_true_eq, ih, List.pairwise_cons]
      constructor
      · rintro ⟨h, h1, h2⟩
        refine ⟨?_, h1, h2⟩
        intro a ha
        rcases List.mem_cons.1 ha with rfl | ha
        · exact h
        · exact Nat.lt_trans h (h1 a ha)
      · rintro ⟨h, h1, h2⟩
        exact ⟨h _ (List.mem_cons_self ..), h1, h2⟩

omit [DecidableEq α] in
theorem merase_eq_filter (m : NMap α) (k : Nat) : merase m k = m.filter (fun e => decide (e.1 ≠ k)) := by
  induction m with
  | nil => rfl
  | cons e r ih =>
    obtain ⟨j, v⟩ := e
    by_cases h : j = k <;> simp [merase, h, ih]

omit [DecidableEq α] in
theorem mem_minsert (m : NMap α) (k : Nat) (v : α) (e : Nat × α) (h : e ∈ minsert m k v) : e = (k, v) ∨ e ∈ m := by
  induction m with
  | nil => simpa [minsert] using h
  | cons f r ih =>
    obtain ⟨j, w⟩ := f
    by_cases h1 : k < j
    · simpa [minsert, h1] using h
    · simp only [minsert, h1, if_false, List.mem_cons] at h ⊢
      rcases h with h | h
      · exact .inr (.inl h)
      · exact (ih h).imp_right .inr

omit [DecidableEq α] in
theorem minsert_rising (m : NMap α) (k : Nat) (v : α) (h : m.Pairwise (fun a b => a.1 < b.1)) (hk : ∀ e ∈ m, e.1 ≠ k) :
    (minsert m k v).Pairwise (fun a b => a.1 < b.1) := by
  induction m with
  | nil => simp [minsert]
  | cons f r ih =>
    obtain ⟨j, w⟩ := f
    rw [List.pairwise_cons] at h
    by_cases h1 : k < j
    · simp only [minsert, h1, if_true, List.pairwise_cons]
      refine ⟨?_, h⟩
      intro a ha
      rcases List.mem_cons.1 ha with rfl | ha
      · exact h1
      · exact Nat.lt_trans h1 (h.1 a ha)
    · simp only [minsert, h1, if_false, List.pairwise_cons]
      refine ⟨?_, ih h.2 (fun e he => hk e (List.mem_cons_of_mem _ he))⟩
      intro a ha
      rcases mem_minsert r k v a ha with rfl | ha
      · have := hk (j, w) (List.mem_cons_self ..)
        simp only at this ⊢
        omega
      · exact h.1 a ha

theorem mwf_iff (d : Nat → α) (m : NMap α) : mwf d m = true ↔ m.Pairwise (fun a b => a.1 < b.1) ∧ ∀ e ∈ m, e.2 ≠ d e.1 := by
  simp [mwf, mrising_iff]

/-- Dropping entries keeps the canonical form. -/
theorem mwf_filter (d : Nat → α) (m : NMap α) (p : Nat × α → Bool) (h : mwf d m = true) : mwf d (m.filter p) = true := by
  rw [mwf_iff] at h ⊢
  exact ⟨h.1.filter _, fun e he => h.2 e (List.mem_filter.1 he).1⟩

theorem mwf_merase (d : Nat → α) (m : NMap α) (k : Nat) (h : mwf d m = true) : mwf d (merase m k) = true := by
  rw [merase_eq_filter]
  exact mwf_filter d m _ h

/-- A write keeps the canonical form. -/
theorem mwf_mput (d : Nat → α) (m : NMap α) (k : Nat) (v : α) (h : mwf d m = true) : mwf d (mput (d k) m k v) = true := by
  unfold mput
  split
  · exact mwf_merase d m k h
  · rename_i hv
    have h0 := mwf_merase d m k h
    rw [mwf_iff] at h0 ⊢
    refine ⟨minsert_rising _ k v h0.1 ?_, ?_⟩
    · intro e he
      rw [merase_eq_filter, List.mem_filter] at he
      simpa using he.2
    · intro e he
      rcases mem_minsert _ k v e he with rfl | he
      · exact hv
      · exact h0.2 e he

theorem mwf_nil (d : Nat → α) : mwf d ([] : NMap α) = true := rfl

/-- A map rebuilt entry by entry through writes keeps the canonical form. -/
theorem mwf_foldl_mput (d : Nat → α) (l : List (Nat × α)) (m : NMap α) (h : mwf d m = true) :
    mwf d (l.foldl (fun a e => mput (d e.1) a e.1 e.2) m) = true := by
  induction l generalizing m with
  | nil => exact h
  | cons e r ih => exact ih _ (mwf_mput d m e.1 e.2 h)

/-- In canonical form a map is its reads: two canonical maps that read alike are equal. -/
theorem mwf_ext_nil (d : Nat → α) (m : NMap α) (h : mwf d m = true) (he : ∀ k, mget (d k) m k = d k) : m = [] := by
  cases m with
  | nil => rfl
  | cons e r =>
    obtain ⟨j, v⟩ := e
    rw [mwf_iff] at h
    have h1 := h.2 (j, v) (List.mem_cons_self ..)
    have h2 := he j
    simp [mget, mfind] at h2
    exact absurd h2 h1

end Sys2Proof.Machine
end

