-- ==== Sys2Proof/Laws/State.lean ====
section
/-! SUPPORT. The laws of the register store: what each named register update leaves alone, field by field of State, and what a read gives after a write. -/

namespace Sys2Proof.Machine

/-! ## What a register update leaves alone -/

section
variable (s : State) (a lo hi v n : Nat) (w : Word) (f g : Fld) (b : Bool)

@[simp] theorem wr_hiLatch : (wr s a w).hiLatch = s.hiLatch := (rfl)
@[simp] theorem wr_loHeld : (wr s a w).loHeld = s.loHeld := (rfl)
@[simp] theorem wr_top : (wr s a w).top = s.top := (rfl)
@[simp] theorem wr_tick : (wr s a w).tick = s.tick := (rfl)
@[simp] theorem wr_stateTick : (wr s a w).stateTick = s.stateTick := (rfl)
@[simp] theorem wr_ptp : (wr s a w).ptp = s.ptp := (rfl)
@[simp] theorem wr_otp : (wr s a w).otp = s.otp := (rfl)
@[simp] theorem wr_nvm : (wr s a w).nvm = s.nvm := (rfl)
@[simp] theorem wr_vbat : (wr s a w).vbat = s.vbat := (rfl)
@[simp] theorem wr_boot : (wr s a w).boot = s.boot := (rfl)
@[simp] theorem wr_pwr : (wr s a w).pwr = s.pwr := (rfl)
@[simp] theorem wr_flt : (wr s a w).flt = s.flt := (rfl)
@[simp] theorem wr_hif : (wr s a w).hif = s.hif := (rfl)
@[simp] theorem wr_scr : (wr s a w).scr = s.scr := (rfl)
@[simp] theorem wr_cnt : (wr s a w).cnt = s.cnt := (rfl)
@[simp] theorem wr_slc : (wr s a w).slc = s.slc := (rfl)
@[simp] theorem wr_tst : (wr s a w).tst = s.tst := (rfl)
@[simp] theorem wr_rdData : (wr s a w).rdData = s.rdData := (rfl)
@[simp] theorem wr_clk : (wr s a w).clk = s.clk := (rfl)
@[simp] theorem wr_upd : (wr s a w).upd = s.upd := (rfl)
@[simp] theorem wr_lin : (wr s a w).lin = s.lin := (rfl)
@[simp] theorem wr_ing : (wr s a w).ing = s.ing := (rfl)
@[simp] theorem wr_tab : (wr s a w).tab = s.tab := (rfl)
@[simp] theorem wr_sig : (wr s a w).sig = s.sig := (rfl)
@[simp] theorem wr_qd : (wr s a w).qd = s.qd := (rfl)
@[simp] theorem wr_pair : (wr s a w).pair = s.pair := (rfl)
@[simp] theorem wr_fab : (wr s a w).fab = s.fab := (rfl)
@[simp] theorem wr_drm : (wr s a w).drm = s.drm := (rfl)
@[simp] theorem wr_free : (wr s a w).free = s.free := (rfl)
@[simp] theorem wr_pending : (wr s a w).pending = s.pending := (rfl)

@[simp] theorem setF_hiLatch : (setF s f n).hiLatch = s.hiLatch := (rfl)
@[simp] theorem setF_loHeld : (setF s f n).loHeld = s.loHeld := (rfl)
@[simp] theorem setF_top : (setF s f n).top = s.top := (rfl)
@[simp] theorem setF_tick : (setF s f n).tick = s.tick := (rfl)
@[simp] theorem setF_stateTick : (setF s f n).stateTick = s.stateTick := (rfl)
@[simp] theorem setF_ptp : (setF s f n).ptp = s.ptp := (rfl)
@[simp] theorem setF_otp : (setF s f n).otp = s.otp := (rfl)
@[simp] theorem setF_nvm : (setF s f n).nvm = s.nvm := (rfl)
@[simp] theorem setF_vbat : (setF s f n).vbat = s.vbat := (rfl)
@[simp] theorem setF_boot : (setF s f n).boot = s.boot := (rfl)
@[simp] theorem setF_pwr : (setF s f n).pwr = s.pwr := (rfl)
@[simp] theorem setF_flt : (setF s f n).flt = s.flt := (rfl)
@[simp] theorem setF_hif : (setF s f n).hif = s.hif := (rfl)
@[simp] theorem setF_scr : (setF s f n).scr = s.scr := (rfl)
@[simp] theorem setF_cnt : (setF s f n).cnt = s.cnt := (rfl)
@[simp] theorem setF_slc : (setF s f n).slc = s.slc := (rfl)
@[simp] theorem setF_tst : (setF s f n).tst = s.tst := (rfl)
@[simp] theorem setF_rdData : (setF s f n).rdData = s.rdData := (rfl)
@[simp] theorem setF_clk : (setF s f n).clk = s.clk := (rfl)
@[simp] theorem setF_upd : (setF s f n).upd = s.upd := (rfl)
@[simp] theorem setF_lin : (setF s f n).lin = s.lin := (rfl)
@[simp] theorem setF_ing : (setF s f n).ing = s.ing := (rfl)
@[simp] theorem setF_tab : (setF s f n).tab = s.tab := (rfl)
@[simp] theorem setF_sig : (setF s f n).sig = s.sig := (rfl)
@[simp] theorem setF_qd : (setF s f n).qd = s.qd := (rfl)
@[simp] theorem setF_pair : (setF s f n).pair = s.pair := (rfl)
@[simp] theorem setF_fab : (setF s f n).fab = s.fab := (rfl)
@[simp] theorem setF_drm : (setF s f n).drm = s.drm := (rfl)
@[simp] theorem setF_free : (setF s f n).free = s.free := (rfl)
@[simp] theorem setF_pending : (setF s f n).pending = s.pending := (rfl)

@[simp] theorem setB_hiLatch : (setB s f b).hiLatch = s.hiLatch := (rfl)
@[simp] theorem setB_loHeld : (setB s f b).loHeld = s.loHeld := (rfl)
@[simp] theorem setB_top : (setB s f b).top = s.top := (rfl)
@[simp] theorem setB_tick : (setB s f b).tick = s.tick := (rfl)
@[simp] theorem setB_stateTick : (setB s f b).stateTick = s.stateTick := (rfl)
@[simp] theorem setB_ptp : (setB s f b).ptp = s.ptp := (rfl)
@[simp] theorem setB_otp : (setB s f b).otp = s.otp := (rfl)
@[simp] theorem setB_nvm : (setB s f b).nvm = s.nvm := (rfl)
@[simp] theorem setB_vbat : (setB s f b).vbat = s.vbat := (rfl)
@[simp] theorem setB_boot : (setB s f b).boot = s.boot := (rfl)
@[simp] theorem setB_pwr : (setB s f b).pwr = s.pwr := (rfl)
@[simp] theorem setB_flt : (setB s f b).flt = s.flt := (rfl)
@[simp] theorem setB_hif : (setB s f b).hif = s.hif := (rfl)
@[simp] theorem setB_scr : (setB s f b).scr = s.scr := (rfl)
@[simp] theorem setB_cnt : (setB s f b).cnt = s.cnt := (rfl)
@[simp] theorem setB_slc : (setB s f b).slc = s.slc := (rfl)
@[simp] theorem setB_tst : (setB s f b).tst = s.tst := (rfl)
@[simp] theorem setB_rdData : (setB s f b).rdData = s.rdData := (rfl)
@[simp] theorem setB_clk : (setB s f b).clk = s.clk := (rfl)
@[simp] theorem setB_upd : (setB s f b).upd = s.upd := (rfl)
@[simp] theorem setB_lin : (setB s f b).lin = s.lin := (rfl)
@[simp] theorem setB_ing : (setB s f b).ing = s.ing := (rfl)
@[simp] theorem setB_tab : (setB s f b).tab = s.tab := (rfl)
@[simp] theorem setB_sig : (setB s f b).sig = s.sig := (rfl)
@[simp] theorem setB_qd : (setB s f b).qd = s.qd := (rfl)
@[simp] theorem setB_pair : (setB s f b).pair = s.pair := (rfl)
@[simp] theorem setB_fab : (setB s f b).fab = s.fab := (rfl)
@[simp] theorem setB_drm : (setB s f b).drm = s.drm := (rfl)
@[simp] theorem setB_free : (setB s f b).free = s.free := (rfl)
@[simp] theorem setB_pending : (setB s f b).pending = s.pending := (rfl)

@[simp] theorem wrPair_hiLatch : (wrPair s lo hi v).hiLatch = s.hiLatch := (rfl)
@[simp] theorem wrPair_loHeld : (wrPair s lo hi v).loHeld = s.loHeld := (rfl)
@[simp] theorem wrPair_top : (wrPair s lo hi v).top = s.top := (rfl)
@[simp] theorem wrPair_tick : (wrPair s lo hi v).tick = s.tick := (rfl)
@[simp] theorem wrPair_stateTick : (wrPair s lo hi v).stateTick = s.stateTick := (rfl)
@[simp] theorem wrPair_ptp : (wrPair s lo hi v).ptp = s.ptp := (rfl)
@[simp] theorem wrPair_otp : (wrPair s lo hi v).otp = s.otp := (rfl)
@[simp] theorem wrPair_nvm : (wrPair s lo hi v).nvm = s.nvm := (rfl)
@[simp] theorem wrPair_vbat : (wrPair s lo hi v).vbat = s.vbat := (rfl)
@[simp] theorem wrPair_boot : (wrPair s lo hi v).boot = s.boot := (rfl)
@[simp] theorem wrPair_pwr : (wrPair s lo hi v).pwr = s.pwr := (rfl)
@[simp] theorem wrPair_flt : (wrPair s lo hi v).flt = s.flt := (rfl)
@[simp] theorem wrPair_hif : (wrPair s lo hi v).hif = s.hif := (rfl)
@[simp] theorem wrPair_scr : (wrPair s lo hi v).scr = s.scr := (rfl)
@[simp] theorem wrPair_cnt : (wrPair s lo hi v).cnt = s.cnt := (rfl)
@[simp] theorem wrPair_slc : (wrPair s lo hi v).slc = s.slc := (rfl)
@[simp] theorem wrPair_tst : (wrPair s lo hi v).tst = s.tst := (rfl)
@[simp] theorem wrPair_rdData : (wrPair s lo hi v).rdData = s.rdData := (rfl)
@[simp] theorem wrPair_clk : (wrPair s lo hi v).clk = s.clk := (rfl)
@[simp] theorem wrPair_upd : (wrPair s lo hi v).upd = s.upd := (rfl)
@[simp] theorem wrPair_lin : (wrPair s lo hi v).lin = s.lin := (rfl)
@[simp] theorem wrPair_ing : (wrPair s lo hi v).ing = s.ing := (rfl)
@[simp] theorem wrPair_tab : (wrPair s lo hi v).tab = s.tab := (rfl)
@[simp] theorem wrPair_sig : (wrPair s lo hi v).sig = s.sig := (rfl)
@[simp] theorem wrPair_qd : (wrPair s lo hi v).qd = s.qd := (rfl)
@[simp] theorem wrPair_pair : (wrPair s lo hi v).pair = s.pair := (rfl)
@[simp] theorem wrPair_fab : (wrPair s lo hi v).fab = s.fab := (rfl)
@[simp] theorem wrPair_drm : (wrPair s lo hi v).drm = s.drm := (rfl)
@[simp] theorem wrPair_free : (wrPair s lo hi v).free = s.free := (rfl)
@[simp] theorem wrPair_pending : (wrPair s lo hi v).pending = s.pending := (rfl)

@[simp] theorem satBump_hiLatch : (satBump s f).hiLatch = s.hiLatch := (rfl)
@[simp] theorem satBump_loHeld : (satBump s f).loHeld = s.loHeld := (rfl)
@[simp] theorem satBump_top : (satBump s f).top = s.top := (rfl)
@[simp] theorem satBump_tick : (satBump s f).tick = s.tick := (rfl)
@[simp] theorem satBump_stateTick : (satBump s f).stateTick = s.stateTick := (rfl)
@[simp] theorem satBump_ptp : (satBump s f).ptp = s.ptp := (rfl)
@[simp] theorem satBump_otp : (satBump s f).otp = s.otp := (rfl)
@[simp] theorem satBump_nvm : (satBump s f).nvm = s.nvm := (rfl)
@[simp] theorem satBump_vbat : (satBump s f).vbat = s.vbat := (rfl)
@[simp] theorem satBump_boot : (satBump s f).boot = s.boot := (rfl)
@[simp] theorem satBump_pwr : (satBump s f).pwr = s.pwr := (rfl)
@[simp] theorem satBump_flt : (satBump s f).flt = s.flt := (rfl)
@[simp] theorem satBump_hif : (satBump s f).hif = s.hif := (rfl)
@[simp] theorem satBump_scr : (satBump s f).scr = s.scr := (rfl)
@[simp] theorem satBump_cnt : (satBump s f).cnt = s.cnt := (rfl)
@[simp] theorem satBump_slc : (satBump s f).slc = s.slc := (rfl)
@[simp] theorem satBump_tst : (satBump s f).tst = s.tst := (rfl)
@[simp] theorem satBump_rdData : (satBump s f).rdData = s.rdData := (rfl)
@[simp] theorem satBump_clk : (satBump s f).clk = s.clk := (rfl)
@[simp] theorem satBump_upd : (satBump s f).upd = s.upd := (rfl)
@[simp] theorem satBump_lin : (satBump s f).lin = s.lin := (rfl)
@[simp] theorem satBump_ing : (satBump s f).ing = s.ing := (rfl)
@[simp] theorem satBump_tab : (satBump s f).tab = s.tab := (rfl)
@[simp] theorem satBump_sig : (satBump s f).sig = s.sig := (rfl)
@[simp] theorem satBump_qd : (satBump s f).qd = s.qd := (rfl)
@[simp] theorem satBump_pair : (satBump s f).pair = s.pair := (rfl)
@[simp] theorem satBump_fab : (satBump s f).fab = s.fab := (rfl)
@[simp] theorem satBump_drm : (satBump s f).drm = s.drm := (rfl)
@[simp] theorem satBump_free : (satBump s f).free = s.free := (rfl)
@[simp] theorem satBump_pending : (satBump s f).pending = s.pending := (rfl)

@[simp] theorem bumpN_hiLatch : (bumpN s a n).hiLatch = s.hiLatch := by unfold bumpN; split <;> rfl
@[simp] theorem bumpN_loHeld : (bumpN s a n).loHeld = s.loHeld := by unfold bumpN; split <;> rfl
@[simp] theorem bumpN_top : (bumpN s a n).top = s.top := by unfold bumpN; split <;> rfl
@[simp] theorem bumpN_tick : (bumpN s a n).tick = s.tick := by unfold bumpN; split <;> rfl
@[simp] theorem bumpN_stateTick : (bumpN s a n).stateTick = s.stateTick := by unfold bumpN; split <;> rfl
@[simp] theorem bumpN_ptp : (bumpN s a n).ptp = s.ptp := by unfold bumpN; split <;> rfl
@[simp] theorem bumpN_otp : (bumpN s a n).otp = s.otp := by unfold bumpN; split <;> rfl
@[simp] theorem bumpN_nvm : (bumpN s a n).nvm = s.nvm := by unfold bumpN; split <;> rfl
@[simp] theorem bumpN_vbat : (bumpN s a n).vbat = s.vbat := by unfold bumpN; split <;> rfl
@[simp] theorem bumpN_boot : (bumpN s a n).boot = s.boot := by unfold bumpN; split <;> rfl
@[simp] theorem bumpN_pwr : (bumpN s a n).pwr = s.pwr := by unfold bumpN; split <;> rfl
@[simp] theorem bumpN_flt : (bumpN s a n).flt = s.flt := by unfold bumpN; split <;> rfl
@[simp] theorem bumpN_hif : (bumpN s a n).hif = s.hif := by unfold bumpN; split <;> rfl
@[simp] theorem bumpN_scr : (bumpN s a n).scr = s.scr := by unfold bumpN; split <;> rfl
@[simp] theorem bumpN_cnt : (bumpN s a n).cnt = s.cnt := by unfold bumpN; split <;> rfl
@[simp] theorem bumpN_slc : (bumpN s a n).slc = s.slc := by unfold bumpN; split <;> rfl
@[simp] theorem bumpN_tst : (bumpN s a n).tst = s.tst := by unfold bumpN; split <;> rfl
@[simp] theorem bumpN_rdData : (bumpN s a n).rdData = s.rdData := by unfold bumpN; split <;> rfl
@[simp] theorem bumpN_clk : (bumpN s a n).clk = s.clk := by unfold bumpN; split <;> rfl
@[simp] theorem bumpN_upd : (bumpN s a n).upd = s.upd := by unfold bumpN; split <;> rfl
@[simp] theorem bumpN_lin : (bumpN s a n).lin = s.lin := by unfold bumpN; split <;> rfl
@[simp] theorem bumpN_ing : (bumpN s a n).ing = s.ing := by unfold bumpN; split <;> rfl
@[simp] theorem bumpN_tab : (bumpN s a n).tab = s.tab := by unfold bumpN; split <;> rfl
@[simp] theorem bumpN_sig : (bumpN s a n).sig = s.sig := by unfold bumpN; split <;> rfl
@[simp] theorem bumpN_qd : (bumpN s a n).qd = s.qd := by unfold bumpN; split <;> rfl
@[simp] theorem bumpN_pair : (bumpN s a n).pair = s.pair := by unfold bumpN; split <;> rfl
@[simp] theorem bumpN_fab : (bumpN s a n).fab = s.fab := by unfold bumpN; split <;> rfl
@[simp] theorem bumpN_drm : (bumpN s a n).drm = s.drm := by unfold bumpN; split <;> rfl
@[simp] theorem bumpN_free : (bumpN s a n).free = s.free := by unfold bumpN; split <;> rfl
@[simp] theorem bumpN_pending : (bumpN s a n).pending = s.pending := by unfold bumpN; split <;> rfl

@[simp] theorem bump_hiLatch : (bump s a).hiLatch = s.hiLatch := bumpN_hiLatch s a 1
@[simp] theorem bump_loHeld : (bump s a).loHeld = s.loHeld := bumpN_loHeld s a 1
@[simp] theorem bump_top : (bump s a).top = s.top := bumpN_top s a 1
@[simp] theorem bump_tick : (bump s a).tick = s.tick := bumpN_tick s a 1
@[simp] theorem bump_stateTick : (bump s a).stateTick = s.stateTick := bumpN_stateTick s a 1
@[simp] theorem bump_ptp : (bump s a).ptp = s.ptp := bumpN_ptp s a 1
@[simp] theorem bump_otp : (bump s a).otp = s.otp := bumpN_otp s a 1
@[simp] theorem bump_nvm : (bump s a).nvm = s.nvm := bumpN_nvm s a 1
@[simp] theorem bump_vbat : (bump s a).vbat = s.vbat := bumpN_vbat s a 1
@[simp] theorem bump_boot : (bump s a).boot = s.boot := bumpN_boot s a 1
@[simp] theorem bump_pwr : (bump s a).pwr = s.pwr := bumpN_pwr s a 1
@[simp] theorem bump_flt : (bump s a).flt = s.flt := bumpN_flt s a 1
@[simp] theorem bump_hif : (bump s a).hif = s.hif := bumpN_hif s a 1
@[simp] theorem bump_scr : (bump s a).scr = s.scr := bumpN_scr s a 1
@[simp] theorem bump_cnt : (bump s a).cnt = s.cnt := bumpN_cnt s a 1
@[simp] theorem bump_slc : (bump s a).slc = s.slc := bumpN_slc s a 1
@[simp] theorem bump_tst : (bump s a).tst = s.tst := bumpN_tst s a 1
@[simp] theorem bump_rdData : (bump s a).rdData = s.rdData := bumpN_rdData s a 1
@[simp] theorem bump_clk : (bump s a).clk = s.clk := bumpN_clk s a 1
@[simp] theorem bump_upd : (bump s a).upd = s.upd := bumpN_upd s a 1
@[simp] theorem bump_lin : (bump s a).lin = s.lin := bumpN_lin s a 1
@[simp] theorem bump_ing : (bump s a).ing = s.ing := bumpN_ing s a 1
@[simp] theorem bump_tab : (bump s a).tab = s.tab := bumpN_tab s a 1
@[simp] theorem bump_sig : (bump s a).sig = s.sig := bumpN_sig s a 1
@[simp] theorem bump_qd : (bump s a).qd = s.qd := bumpN_qd s a 1
@[simp] theorem bump_pair : (bump s a).pair = s.pair := bumpN_pair s a 1
@[simp] theorem bump_fab : (bump s a).fab = s.fab := bumpN_fab s a 1
@[simp] theorem bump_drm : (bump s a).drm = s.drm := bumpN_drm s a 1
@[simp] theorem bump_free : (bump s a).free = s.free := bumpN_free s a 1
@[simp] theorem bump_pending : (bump s a).pending = s.pending := bumpN_pending s a 1

@[simp] theorem bumpIf_hiLatch : (bumpIf b s a).hiLatch = s.hiLatch := by unfold bumpIf; split <;> simp
@[simp] theorem bumpIf_loHeld : (bumpIf b s a).loHeld = s.loHeld := by unfold bumpIf; split <;> simp
@[simp] theorem bumpIf_top : (bumpIf b s a).top = s.top := by unfold bumpIf; split <;> simp
@[simp] theorem bumpIf_tick : (bumpIf b s a).tick = s.tick := by unfold bumpIf; split <;> simp
@[simp] theorem bumpIf_stateTick : (bumpIf b s a).stateTick = s.stateTick := by unfold bumpIf; split <;> simp
@[simp] theorem bumpIf_ptp : (bumpIf b s a).ptp = s.ptp := by unfold bumpIf; split <;> simp
@[simp] theorem bumpIf_otp : (bumpIf b s a).otp = s.otp := by unfold bumpIf; split <;> simp
@[simp] theorem bumpIf_nvm : (bumpIf b s a).nvm = s.nvm := by unfold bumpIf; split <;> simp
@[simp] theorem bumpIf_vbat : (bumpIf b s a).vbat = s.vbat := by unfold bumpIf; split <;> simp
@[simp] theorem bumpIf_boot : (bumpIf b s a).boot = s.boot := by unfold bumpIf; split <;> simp
@[simp] theorem bumpIf_pwr : (bumpIf b s a).pwr = s.pwr := by unfold bumpIf; split <;> simp
@[simp] theorem bumpIf_flt : (bumpIf b s a).flt = s.flt := by unfold bumpIf; split <;> simp
@[simp] theorem bumpIf_hif : (bumpIf b s a).hif = s.hif := by unfold bumpIf; split <;> simp
@[simp] theorem bumpIf_scr : (bumpIf b s a).scr = s.scr := by unfold bumpIf; split <;> simp
@[simp] theorem bumpIf_cnt : (bumpIf b s a).cnt = s.cnt := by unfold bumpIf; split <;> simp
@[simp] theorem bumpIf_slc : (bumpIf b s a).slc = s.slc := by unfold bumpIf; split <;> simp
@[simp] theorem bumpIf_tst : (bumpIf b s a).tst = s.tst := by unfold bumpIf; split <;> simp
@[simp] theorem bumpIf_rdData : (bumpIf b s a).rdData = s.rdData := by unfold bumpIf; split <;> simp
@[simp] theorem bumpIf_clk : (bumpIf b s a).clk = s.clk := by unfold bumpIf; split <;> simp
@[simp] theorem bumpIf_upd : (bumpIf b s a).upd = s.upd := by unfold bumpIf; split <;> simp
@[simp] theorem bumpIf_lin : (bumpIf b s a).lin = s.lin := by unfold bumpIf; split <;> simp
@[simp] theorem bumpIf_ing : (bumpIf b s a).ing = s.ing := by unfold bumpIf; split <;> simp
@[simp] theorem bumpIf_tab : (bumpIf b s a).tab = s.tab := by unfold bumpIf; split <;> simp
@[simp] theorem bumpIf_sig : (bumpIf b s a).sig = s.sig := by unfold bumpIf; split <;> simp
@[simp] theorem bumpIf_qd : (bumpIf b s a).qd = s.qd := by unfold bumpIf; split <;> simp
@[simp] theorem bumpIf_pair : (bumpIf b s a).pair = s.pair := by unfold bumpIf; split <;> simp
@[simp] theorem bumpIf_fab : (bumpIf b s a).fab = s.fab := by unfold bumpIf; split <;> simp
@[simp] theorem bumpIf_drm : (bumpIf b s a).drm = s.drm := by unfold bumpIf; split <;> simp
@[simp] theorem bumpIf_free : (bumpIf b s a).free = s.free := by unfold bumpIf; split <;> simp
@[simp] theorem bumpIf_pending : (bumpIf b s a).pending = s.pending := by unfold bumpIf; split <;> simp

@[simp] theorem setPeak_hiLatch : (setPeak s f g n).hiLatch = s.hiLatch := by unfold setPeak; dsimp only; split <;> rfl
@[simp] theorem setPeak_loHeld : (setPeak s f g n).loHeld = s.loHeld := by unfold setPeak; dsimp only; split <;> rfl
@[simp] theorem setPeak_top : (setPeak s f g n).top = s.top := by unfold setPeak; dsimp only; split <;> rfl
@[simp] theorem setPeak_tick : (setPeak s f g n).tick = s.tick := by unfold setPeak; dsimp only; split <;> rfl
@[simp] theorem setPeak_stateTick : (setPeak s f g n).stateTick = s.stateTick := by unfold setPeak; dsimp only; split <;> rfl
@[simp] theorem setPeak_ptp : (setPeak s f g n).ptp = s.ptp := by unfold setPeak; dsimp only; split <;> rfl
@[simp] theorem setPeak_otp : (setPeak s f g n).otp = s.otp := by unfold setPeak; dsimp only; split <;> rfl
@[simp] theorem setPeak_nvm : (setPeak s f g n).nvm = s.nvm := by unfold setPeak; dsimp only; split <;> rfl
@[simp] theorem setPeak_vbat : (setPeak s f g n).vbat = s.vbat := by unfold setPeak; dsimp only; split <;> rfl
@[simp] theorem setPeak_boot : (setPeak s f g n).boot = s.boot := by unfold setPeak; dsimp only; split <;> rfl
@[simp] theorem setPeak_pwr : (setPeak s f g n).pwr = s.pwr := by unfold setPeak; dsimp only; split <;> rfl
@[simp] theorem setPeak_flt : (setPeak s f g n).flt = s.flt := by unfold setPeak; dsimp only; split <;> rfl
@[simp] theorem setPeak_hif : (setPeak s f g n).hif = s.hif := by unfold setPeak; dsimp only; split <;> rfl
@[simp] theorem setPeak_scr : (setPeak s f g n).scr = s.scr := by unfold setPeak; dsimp only; split <;> rfl
@[simp] theorem setPeak_cnt : (setPeak s f g n).cnt = s.cnt := by unfold setPeak; dsimp only; split <;> rfl
@[simp] theorem setPeak_slc : (setPeak s f g n).slc = s.slc := by unfold setPeak; dsimp only; split <;> rfl
@[simp] theorem setPeak_tst : (setPeak s f g n).tst = s.tst := by unfold setPeak; dsimp only; split <;> rfl
@[simp] theorem setPeak_rdData : (setPeak s f g n).rdData = s.rdData := by unfold setPeak; dsimp only; split <;> rfl
@[simp] theorem setPeak_clk : (setPeak s f g n).clk = s.clk := by unfold setPeak; dsimp only; split <;> rfl
@[simp] theorem setPeak_upd : (setPeak s f g n).upd = s.upd := by unfold setPeak; dsimp only; split <;> rfl
@[simp] theorem setPeak_lin : (setPeak s f g n).lin = s.lin := by unfold setPeak; dsimp only; split <;> rfl
@[simp] theorem setPeak_ing : (setPeak s f g n).ing = s.ing := by unfold setPeak; dsimp only; split <;> rfl
@[simp] theorem setPeak_tab : (setPeak s f g n).tab = s.tab := by unfold setPeak; dsimp only; split <;> rfl
@[simp] theorem setPeak_sig : (setPeak s f g n).sig = s.sig := by unfold setPeak; dsimp only; split <;> rfl
@[simp] theorem setPeak_qd : (setPeak s f g n).qd = s.qd := by unfold setPeak; dsimp only; split <;> rfl
@[simp] theorem setPeak_pair : (setPeak s f g n).pair = s.pair := by unfold setPeak; dsimp only; split <;> rfl
@[simp] theorem setPeak_fab : (setPeak s f g n).fab = s.fab := by unfold setPeak; dsimp only; split <;> rfl
@[simp] theorem setPeak_drm : (setPeak s f g n).drm = s.drm := by unfold setPeak; dsimp only; split <;> rfl
@[simp] theorem setPeak_free : (setPeak s f g n).free = s.free := by unfold setPeak; dsimp only; split <;> rfl
@[simp] theorem setPeak_pending : (setPeak s f g n).pending = s.pending := by unfold setPeak; dsimp only; split <;> rfl

end

/-! ## What a read gives -/

/-- The word just written is read back. -/
@[simp] theorem rd_wr_self (s : State) (a : Nat) (v : Word) : rd (wr s a v) a = v := by simp [rd, wr]

/-- A write leaves every other register as it was. -/
theorem rd_wr_ne (s : State) {a b : Nat} (v : Word) (h : b ≠ a) : rd (wr s a v) b = rd s b := mget_mput_ne _ _ _ v h

/-- A register reads alike in two states with one register store. -/
theorem rd_congr {s t : State} (h : t.regs = s.regs) (a : Nat) : rd t a = rd s a := by simp [rd, h]

theorem getF_congr {s t : State} (h : t.regs = s.regs) (f : Fld) : getF t f = getF s f := by simp [getF, rd_congr h]

theorem flag_congr {s t : State} (h : t.regs = s.regs) (f : Fld) : flag t f = flag s f := by simp [flag, getF_congr h]

end Sys2Proof.Machine
end

