-- ==== Sys2Proof/Laws/Fields.lean ====
section
/-! SUPPORT. The laws of bit fields: a field just written reads as the value cut to its width, and a field beside it reads as before. -/

namespace Sys2Proof.Machine

/-- A number as its part above a field, the field, and its part below. -/
theorem withBits_eq (n lo len v : Nat) : withBits n lo len v = 2 ^ lo * (2 ^ len * (n / 2 ^ lo / 2 ^ len) + v % 2 ^ len) + n % 2 ^ lo := by
  have h1 := Nat.div_add_mod n (2 ^ lo)
  have h2 := Nat.div_add_mod (n / 2 ^ lo) (2 ^ len)
  unfold withBits bits
  generalize hq : n / 2 ^ lo = q at *
  generalize hm : q % 2 ^ len = m at *
  generalize hh : q / 2 ^ len = h at *
  have h3 : n = 2 ^ lo * (2 ^ len * h) + m * 2 ^ lo + n % 2 ^ lo := by
    calc n = 2 ^ lo * q + n % 2 ^ lo := h1.symm
      _ = 2 ^ lo * (2 ^ len * h + m) + n % 2 ^ lo := by rw [h2]
      _ = _ := by ring
  have h4 : n - m * 2 ^ lo = 2 ^ lo * (2 ^ len * h) + n % 2 ^ lo := by omega
  rw [h4]
  ring

theorem bits_withBits_self (n lo len v : Nat) : bits (withBits n lo len v) lo len = v % 2 ^ len := by
  have hp : 0 < 2 ^ lo := Nat.two_pow_pos lo
  rw [withBits_eq, bits, Nat.mul_add_div hp, Nat.div_eq_of_lt (Nat.mod_lt _ hp), Nat.add_zero, Nat.mul_add_mod, Nat.mod_mod]

theorem bits_eq_testBit (n lo len i : Nat) : (bits n lo len).testBit i = (decide (i < len) && n.testBit (lo + i)) := by
  rw [bits, Nat.testBit_mod_two_pow, Nat.testBit_div_two_pow, Nat.add_comm]

theorem bits_withBits_below (n lo len v o l : Nat) (h : o + l ≤ lo) : bits (withBits n lo len v) o l = bits n o l := by
  apply Nat.eq_of_testBit_eq
  intro i
  simp only [bits_eq_testBit]
  by_cases hi : i < l
  · have hw : (withBits n lo len v) % 2 ^ lo = n % 2 ^ lo := by rw [withBits_eq, Nat.mul_add_mod, Nat.mod_mod]
    have e1 := Nat.testBit_mod_two_pow (withBits n lo len v) lo (o + i)
    have e2 := Nat.testBit_mod_two_pow n lo (o + i)
    have hlt : o + i < lo := by omega
    simp only [hlt, decide_true, Bool.true_and] at e1 e2
    rw [← e1, ← e2, hw]
  · simp [hi]

theorem bits_withBits_above (n lo len v o l : Nat) (h : lo + len ≤ o) : bits (withBits n lo len v) o l = bits n o l := by
  have hp : 0 < 2 ^ lo := Nat.two_pow_pos lo
  have hl : 0 < 2 ^ len := Nat.two_pow_pos len
  have hw : withBits n lo len v / 2 ^ (lo + len) = n / 2 ^ (lo + len) := by
    rw [Nat.pow_add, ← Nat.div_div_eq_div_mul, ← Nat.div_div_eq_div_mul, withBits_eq, Nat.mul_add_div hp,
      Nat.div_eq_of_lt (Nat.mod_lt _ hp), Nat.add_zero, Nat.mul_add_div hl, Nat.div_eq_of_lt (Nat.mod_lt _ hl), Nat.add_zero]
  obtain ⟨k, rfl⟩ := Nat.exists_eq_add_of_le h
  simp only [bits]
  rw [Nat.pow_add 2 (lo + len) k, ← Nat.div_div_eq_div_mul, ← Nat.div_div_eq_div_mul, hw]

theorem bits_word (n lo len : Nat) (h : lo + len ≤ 32) : bits (Word.ofNat n).toNat lo len = bits n lo len := by
  apply Nat.eq_of_testBit_eq
  intro i
  simp only [bits_eq_testBit, Word.ofNat, BitVec.toNat_ofNat, Nat.testBit_mod_two_pow]
  by_cases hi : i < len
  · have : lo + i < 32 := by omega
    simp [hi, this]
  · simp [hi]

/-- A field just written reads as the value cut to its width. -/
theorem getF_setF_self (s : State) (f : Fld) (n : Nat) (h : f.lo + f.len ≤ 32) : getF (setF s f n) f = n % 2 ^ f.len := by
  simp [getF, setF, fget, fset, bits_word _ _ _ h, bits_withBits_self]

/-- A write of a field leaves every other register's fields as they were. -/
theorem getF_setF_reg (s : State) (f g : Fld) (n : Nat) (h : g.reg ≠ f.reg) : getF (setF s f n) g = getF s g := by
  simp [getF, setF, rd_wr_ne s _ h]

/-- A write of a field leaves the fields below and above it as they were. -/
theorem getF_setF_beside (s : State) (f g : Fld) (n : Nat) (hg : g.lo + g.len ≤ 32) (h : g.lo + g.len ≤ f.lo ∨ f.lo + f.len ≤ g.lo) :
    getF (setF s f n) g = getF s g := by
  by_cases hr : g.reg = f.reg
  · simp only [getF, setF, fget, fset, hr, rd_wr_self, bits_word _ _ _ hg]
    rcases h with h | h
    · exact bits_withBits_below _ _ _ _ _ _ h
    · exact bits_withBits_above _ _ _ _ _ _ h
  · exact getF_setF_reg s f g n hr

theorem getF_wr_self (s : State) (f : Fld) (w : Word) : getF (wr s f.reg w) f = fget w f.lo f.len := by simp [getF]

theorem getF_wr_ne (s : State) (f : Fld) (a : Nat) (w : Word) (h : f.reg ≠ a) : getF (wr s a w) f = getF s f := by simp [getF, rd_wr_ne s w h]

/-- A one-bit field just written reads as the bit. -/
theorem flag_setB_self (s : State) (f : Fld) (b : Bool) (h : f.lo + 1 ≤ 32) (hl : f.len = 1) : flag (setB s f b) f = b := by
  rw [flag, setB, getF_setF_self s f _ (by omega), hl]
  cases b <;> rfl

theorem flag_setB_beside (s : State) (f g : Fld) (b : Bool) (hg : g.lo + g.len ≤ 32) (h : g.reg ≠ f.reg ∨ g.lo + g.len ≤ f.lo ∨ f.lo + f.len ≤ g.lo) :
    flag (setB s f b) g = flag s g := by
  unfold flag setB
  rcases h with h | h
  · rw [getF_setF_reg s f g _ h]
  · rw [getF_setF_beside s f g _ hg h]

/-- The counter just counted: COUNT goes on modulo 2^31. -/
theorem rd_bumpN_self (s : State) (a n : Nat) (h : n ≠ 0) : rd (bumpN s a n) a = countWord (rd s a) n := by simp [bumpN, h]

theorem rd_bumpN_ne (s : State) (a b n : Nat) (h : b ≠ a) : rd (bumpN s a n) b = rd s b := by
  unfold bumpN
  split
  · rfl
  · exact rd_wr_ne s _ h

theorem rd_bump_self (s : State) (a : Nat) : rd (bump s a) a = countWord (rd s a) 1 := rd_bumpN_self s a 1 (by decide)

theorem rd_bump_ne (s : State) (a b : Nat) (h : b ≠ a) : rd (bump s a) b = rd s b := rd_bumpN_ne s a b 1 h

theorem getF_bump_ne (s : State) (a : Nat) (f : Fld) (h : f.reg ≠ a) : getF (bump s a) f = getF s f := by simp [getF, rd_bump_ne s a _ h]

end Sys2Proof.Machine
end

