-- ==== Sys2Proof/Laws/Frames.lean ====
section
/-! SUPPORT. The frames of the shared operations of Ops: what each of them leaves alone, field by field of State. -/

namespace Sys2Proof.Machine

/-- The state but for what a fault report and its reaction touch: of the slices, the maintenance pauses that wait or run. -/
def State.offReport (s : State) : State := { s with regs := [], flt := {}, drm := {}, qd := {}, slc := { s.slc with due := [], running := [] } }

/-- The state but for what an event to the host touches. -/
def State.offHost (s : State) : State := { s with regs := [], hif := {}, cnt := {} }

theorem hiLatch_of_offReport {s t : State} (h : t.offReport = s.offReport) : t.hiLatch = s.hiLatch := by have e := congrArg State.hiLatch h; exact e
theorem loHeld_of_offReport {s t : State} (h : t.offReport = s.offReport) : t.loHeld = s.loHeld := by have e := congrArg State.loHeld h; exact e
theorem top_of_offReport {s t : State} (h : t.offReport = s.offReport) : t.top = s.top := by have e := congrArg State.top h; exact e
theorem tick_of_offReport {s t : State} (h : t.offReport = s.offReport) : t.tick = s.tick := by have e := congrArg State.tick h; exact e
theorem stateTick_of_offReport {s t : State} (h : t.offReport = s.offReport) : t.stateTick = s.stateTick := by have e := congrArg State.stateTick h; exact e
theorem ptp_of_offReport {s t : State} (h : t.offReport = s.offReport) : t.ptp = s.ptp := by have e := congrArg State.ptp h; exact e
theorem otp_of_offReport {s t : State} (h : t.offReport = s.offReport) : t.otp = s.otp := by have e := congrArg State.otp h; exact e
theorem nvm_of_offReport {s t : State} (h : t.offReport = s.offReport) : t.nvm = s.nvm := by have e := congrArg State.nvm h; exact e
theorem vbat_of_offReport {s t : State} (h : t.offReport = s.offReport) : t.vbat = s.vbat := by have e := congrArg State.vbat h; exact e
theorem boot_of_offReport {s t : State} (h : t.offReport = s.offReport) : t.boot = s.boot := by have e := congrArg State.boot h; exact e
theorem pwr_of_offReport {s t : State} (h : t.offReport = s.offReport) : t.pwr = s.pwr := by have e := congrArg State.pwr h; exact e
theorem hif_of_offReport {s t : State} (h : t.offReport = s.offReport) : t.hif = s.hif := by have e := congrArg State.hif h; exact e
theorem scr_of_offReport {s t : State} (h : t.offReport = s.offReport) : t.scr = s.scr := by have e := congrArg State.scr h; exact e
theorem cnt_of_offReport {s t : State} (h : t.offReport = s.offReport) : t.cnt = s.cnt := by have e := congrArg State.cnt h; exact e
theorem slc_drain_of_offReport {s t : State} (h : t.offReport = s.offReport) : t.slc.drain = s.slc.drain := by have e := congrArg (fun x => x.slc.drain) h; exact e
theorem slc_flushes_of_offReport {s t : State} (h : t.offReport = s.offReport) : t.slc.flushes = s.slc.flushes := by have e := congrArg (fun x => x.slc.flushes) h; exact e
theorem slc_unjoined_of_offReport {s t : State} (h : t.offReport = s.offReport) : t.slc.unjoined = s.slc.unjoined := by have e := congrArg (fun x => x.slc.unjoined) h; exact e
theorem tst_of_offReport {s t : State} (h : t.offReport = s.offReport) : t.tst = s.tst := by have e := congrArg State.tst h; exact e
theorem rdData_of_offReport {s t : State} (h : t.offReport = s.offReport) : t.rdData = s.rdData := by have e := congrArg State.rdData h; exact e
theorem clk_of_offReport {s t : State} (h : t.offReport = s.offReport) : t.clk = s.clk := by have e := congrArg State.clk h; exact e
theorem upd_of_offReport {s t : State} (h : t.offReport = s.offReport) : t.upd = s.upd := by have e := congrArg State.upd h; exact e
theorem lin_of_offReport {s t : State} (h : t.offReport = s.offReport) : t.lin = s.lin := by have e := congrArg State.lin h; exact e
theorem ing_of_offReport {s t : State} (h : t.offReport = s.offReport) : t.ing = s.ing := by have e := congrArg State.ing h; exact e
theorem tab_of_offReport {s t : State} (h : t.offReport = s.offReport) : t.tab = s.tab := by have e := congrArg State.tab h; exact e
theorem sig_of_offReport {s t : State} (h : t.offReport = s.offReport) : t.sig = s.sig := by have e := congrArg State.sig h; exact e
theorem pair_of_offReport {s t : State} (h : t.offReport = s.offReport) : t.pair = s.pair := by have e := congrArg State.pair h; exact e
theorem fab_of_offReport {s t : State} (h : t.offReport = s.offReport) : t.fab = s.fab := by have e := congrArg State.fab h; exact e
theorem free_of_offReport {s t : State} (h : t.offReport = s.offReport) : t.free = s.free := by have e := congrArg State.free h; exact e
theorem pending_of_offReport {s t : State} (h : t.offReport = s.offReport) : t.pending = s.pending := by have e := congrArg State.pending h; exact e
theorem hiLatch_of_offHost {s t : State} (h : t.offHost = s.offHost) : t.hiLatch = s.hiLatch := by have e := congrArg State.hiLatch h; exact e
theorem loHeld_of_offHost {s t : State} (h : t.offHost = s.offHost) : t.loHeld = s.loHeld := by have e := congrArg State.loHeld h; exact e
theorem top_of_offHost {s t : State} (h : t.offHost = s.offHost) : t.top = s.top := by have e := congrArg State.top h; exact e
theorem tick_of_offHost {s t : State} (h : t.offHost = s.offHost) : t.tick = s.tick := by have e := congrArg State.tick h; exact e
theorem stateTick_of_offHost {s t : State} (h : t.offHost = s.offHost) : t.stateTick = s.stateTick := by have e := congrArg State.stateTick h; exact e
theorem ptp_of_offHost {s t : State} (h : t.offHost = s.offHost) : t.ptp = s.ptp := by have e := congrArg State.ptp h; exact e
theorem otp_of_offHost {s t : State} (h : t.offHost = s.offHost) : t.otp = s.otp := by have e := congrArg State.otp h; exact e
theorem nvm_of_offHost {s t : State} (h : t.offHost = s.offHost) : t.nvm = s.nvm := by have e := congrArg State.nvm h; exact e
theorem vbat_of_offHost {s t : State} (h : t.offHost = s.offHost) : t.vbat = s.vbat := by have e := congrArg State.vbat h; exact e
theorem boot_of_offHost {s t : State} (h : t.offHost = s.offHost) : t.boot = s.boot := by have e := congrArg State.boot h; exact e
theorem pwr_of_offHost {s t : State} (h : t.offHost = s.offHost) : t.pwr = s.pwr := by have e := congrArg State.pwr h; exact e
theorem flt_of_offHost {s t : State} (h : t.offHost = s.offHost) : t.flt = s.flt := by have e := congrArg State.flt h; exact e
theorem scr_of_offHost {s t : State} (h : t.offHost = s.offHost) : t.scr = s.scr := by have e := congrArg State.scr h; exact e
theorem slc_of_offHost {s t : State} (h : t.offHost = s.offHost) : t.slc = s.slc := by have e := congrArg State.slc h; exact e
theorem tst_of_offHost {s t : State} (h : t.offHost = s.offHost) : t.tst = s.tst := by have e := congrArg State.tst h; exact e
theorem rdData_of_offHost {s t : State} (h : t.offHost = s.offHost) : t.rdData = s.rdData := by have e := congrArg State.rdData h; exact e
theorem clk_of_offHost {s t : State} (h : t.offHost = s.offHost) : t.clk = s.clk := by have e := congrArg State.clk h; exact e
theorem upd_of_offHost {s t : State} (h : t.offHost = s.offHost) : t.upd = s.upd := by have e := congrArg State.upd h; exact e
theorem lin_of_offHost {s t : State} (h : t.offHost = s.offHost) : t.lin = s.lin := by have e := congrArg State.lin h; exact e
theorem ing_of_offHost {s t : State} (h : t.offHost = s.offHost) : t.ing = s.ing := by have e := congrArg State.ing h; exact e
theorem tab_of_offHost {s t : State} (h : t.offHost = s.offHost) : t.tab = s.tab := by have e := congrArg State.tab h; exact e
theorem sig_of_offHost {s t : State} (h : t.offHost = s.offHost) : t.sig = s.sig := by have e := congrArg State.sig h; exact e
theorem qd_of_offHost {s t : State} (h : t.offHost = s.offHost) : t.qd = s.qd := by have e := congrArg State.qd h; exact e
theorem pair_of_offHost {s t : State} (h : t.offHost = s.offHost) : t.pair = s.pair := by have e := congrArg State.pair h; exact e
theorem fab_of_offHost {s t : State} (h : t.offHost = s.offHost) : t.fab = s.fab := by have e := congrArg State.fab h; exact e
theorem drm_of_offHost {s t : State} (h : t.offHost = s.offHost) : t.drm = s.drm := by have e := congrArg State.drm h; exact e
theorem free_of_offHost {s t : State} (h : t.offHost = s.offHost) : t.free = s.free := by have e := congrArg State.free h; exact e
theorem pending_of_offHost {s t : State} (h : t.offHost = s.offHost) : t.pending = s.pending := by have e := congrArg State.pending h; exact e

section
variable (s : State) (f g r e n src loc d k : Nat) (v : Word) (p q : Fld) (b c : Bool) (l : List Word) (x : Bytes) (t : TopState) (w : PwfCause)

theorem wr_offReport : (wr s k v).offReport = s.offReport := (rfl)
theorem setF_offReport : (setF s p n).offReport = s.offReport := (rfl)
theorem setB_offReport : (setB s p b).offReport = s.offReport := (rfl)
theorem satBump_offReport : (satBump s p).offReport = s.offReport := (rfl)
theorem bump_offReport : (bump s k).offReport = s.offReport := (rfl)
theorem wrWords_offReport : (wrWords s k l).offReport = s.offReport := by
  induction l generalizing s k with
  | nil => rfl
  | cons v l ih => rw [wrWords, ih, wr_offReport]
theorem wr_offHost : (wr s k v).offHost = s.offHost := (rfl)
theorem setF_offHost : (setF s p n).offHost = s.offHost := (rfl)
theorem setB_offHost : (setB s p b).offHost = s.offHost := (rfl)
theorem satBump_offHost : (satBump s p).offHost = s.offHost := (rfl)
theorem bump_offHost : (bump s k).offHost = s.offHost := (rfl)

theorem perfAdd_offHost : (perfAdd s g e n).offHost = s.offHost := by unfold perfAdd; split <;> rfl
theorem foldl_same {β γ : Type} (p : State → γ) (h : State → β → State) (hp : ∀ a y, p (h a y) = p a) (m : List β) : ∀ a, p (m.foldl h a) = p a := by
  induction m with
  | nil => intro a; rfl
  | cons y m ih => intro a; rw [List.foldl_cons, ih, hp]
theorem perf_offHost : (perf s g e).offHost = s.offHost := perfAdd_offHost (n := 1) ..
theorem perfTenant_offHost : (perfTenant s k e n).offHost = s.offHost := foldl_same State.offHost _ (fun a j => by split <;> simp [perfAdd_offHost]) _ s
theorem signal_offHost : (signal s f r b).offHost = s.offHost := by unfold signal; dsimp only; split <;> rfl
theorem pushEntry_offHost : (pushEntry s f r x b).offHost = s.offHost := by simp only [pushEntry, signal_offHost, setF_offHost]; rfl
theorem hostEvent_offHost : (hostEvent s f k x b).offHost = s.offHost := by
  unfold hostEvent; split
  · rw [perf_offHost, pushEntry_offHost]
  · exact bump_offHost ..
theorem wrWords_offHost : (wrWords s k l).offHost = s.offHost := by
  induction l generalizing s k with
  | nil => rfl
  | cons v l ih => rw [wrWords, ih, wr_offHost]
theorem pwfLog_offHost : (pwfLog s k e n).offHost = s.offHost := by
  unfold pwfLog
  dsimp only
  split
  · rw [setF_offHost, wrWords_offHost]
  · exact satBump_offHost ..
theorem pwfD_offHost : (pwfD s f g e n w d).offHost = s.offHost := by
  unfold pwfD
  simp only [apply_ite State.offHost, setF_offHost, satBump_offHost, hostEvent_offHost, perf_offHost, pwfLog_offHost, ite_self]
theorem pwfTarget_offHost : (pwfTarget s e n).offHost = s.offHost := pwfD_offHost (w := .target) ..

theorem srcCount_offReport : (srcCount s src).offReport = s.offReport := by
  unfold srcCount; split
  · exact setB_offReport ..
  · exact satBump_offReport ..
theorem firstPut_offReport : (firstPut s k src l).offReport = s.offReport := by
  unfold firstPut
  rw [setB_offReport, wrWords_offReport]
  rfl
theorem firstNote_offReport : (firstNote s k src l).offReport = s.offReport := by
  unfold firstNote
  split
  · split <;> rfl
  · rfl
theorem captureFirst_offReport (y : Report) : (captureFirst s src y l).offReport = s.offReport := by
  unfold captureFirst
  split
  · rfl
  · extract_lets u v
    have hu : u.offReport = s.offReport := firstNote_offReport ..
    split
    · rw [firstPut_offReport, hu]
    · exact hu
theorem setStatus_offReport : (setStatus s src).offReport = s.offReport := by unfold setStatus; split <;> rfl
theorem mergeLatched_offReport (y : Report) : (mergeLatched s src y).offReport = s.offReport := by
  unfold mergeLatched
  extract_lets u
  have hu : u.offReport = s.offReport := by simp only [u, setStatus_offReport, srcCount_offReport, bump_offReport]
  rw [captureFirst_offReport, hu]
theorem dramLost_offReport : (dramLost s k).offReport = s.offReport := by
  unfold dramLost
  extract_lets _ _ u
  have hu : u.offReport = s.offReport := setF_offReport ..
  clear_value u
  exact hu
theorem pauseWithdraw_offReport : (pauseWithdraw s k).offReport = s.offReport := (rfl)

section
variable {more : State → Nat → State} (hm : ∀ s k, (more s k).offReport = s.offReport)
include hm

theorem serviceReaction_offReport : (serviceReaction more s src loc).offReport = s.offReport := by
  unfold serviceReaction
  extract_lets sl x u
  have hu : u.offReport = s.offReport := by
    simp only [u]
    split <;> rfl
  split
  · rw [hm, hm, hu]
  · exact hu
theorem reportWith_offReport : (reportWith more b s src loc d).offReport = s.offReport := by
  unfold reportWith
  split
  · rfl
  extract_lets r u
  have hu : u.offReport = s.offReport := mergeLatched_offReport ..
  split
  · split
    · rw [serviceReaction_offReport _ _ _ hm]
      exact hu
    · exact hu
  · rfl
theorem dramFailedWith_offReport : (dramFailedWith more s k).offReport = s.offReport := by
  unfold dramFailedWith
  split
  · rfl
  · extract_lets u f
    have hu : u.offReport = s.offReport := by simp only [u, pauseWithdraw_offReport, dramLost_offReport, setF_offReport]
    clear_value u
    rw [reportWith_offReport _ _ _ _ _ hm]
    exact hu
end

theorem dramFailed_offReport : (dramFailed s k).offReport = s.offReport := dramFailedWith_offReport _ _ (fun _ _ => dramFailedWith_offReport _ _ (fun _ _ => rfl))
theorem report_offReport : (report s src loc d).offReport = s.offReport := reportWith_offReport s src loc d false (fun a i => dramFailed_offReport a i)
theorem levelOn_offReport : (levelOn s src loc d).offReport = s.offReport := by
  unfold levelOn; split
  · rfl
  · rw [report_offReport]; rfl
theorem levelMore_offReport : (levelMore s src loc d).offReport = s.offReport := by
  unfold levelMore; split
  · exact report_offReport ..
  · exact levelOn_offReport ..
theorem levelIs_offReport : (levelIs b s src loc d).offReport = s.offReport := by
  unfold levelIs; split
  · exact levelOn_offReport ..
  · rfl

@[simp] theorem perfAdd_hiLatch : (perfAdd s g e n).hiLatch = s.hiLatch := hiLatch_of_offHost (perfAdd_offHost ..)
@[simp] theorem perfAdd_loHeld : (perfAdd s g e n).loHeld = s.loHeld := loHeld_of_offHost (perfAdd_offHost ..)
@[simp] theorem perfAdd_top : (perfAdd s g e n).top = s.top := top_of_offHost (perfAdd_offHost ..)
@[simp] theorem perfAdd_tick : (perfAdd s g e n).tick = s.tick := tick_of_offHost (perfAdd_offHost ..)
@[simp] theorem perfAdd_stateTick : (perfAdd s g e n).stateTick = s.stateTick := stateTick_of_offHost (perfAdd_offHost ..)
@[simp] theorem perfAdd_ptp : (perfAdd s g e n).ptp = s.ptp := ptp_of_offHost (perfAdd_offHost ..)
@[simp] theorem perfAdd_otp : (perfAdd s g e n).otp = s.otp := otp_of_offHost (perfAdd_offHost ..)
@[simp] theorem perfAdd_nvm : (perfAdd s g e n).nvm = s.nvm := nvm_of_offHost (perfAdd_offHost ..)
@[simp] theorem perfAdd_vbat : (perfAdd s g e n).vbat = s.vbat := vbat_of_offHost (perfAdd_offHost ..)
@[simp] theorem perfAdd_boot : (perfAdd s g e n).boot = s.boot := boot_of_offHost (perfAdd_offHost ..)
@[simp] theorem perfAdd_pwr : (perfAdd s g e n).pwr = s.pwr := pwr_of_offHost (perfAdd_offHost ..)
@[simp] theorem perfAdd_flt : (perfAdd s g e n).flt = s.flt := flt_of_offHost (perfAdd_offHost ..)
@[simp] theorem perfAdd_scr : (perfAdd s g e n).scr = s.scr := scr_of_offHost (perfAdd_offHost ..)
@[simp] theorem perfAdd_slc : (perfAdd s g e n).slc = s.slc := slc_of_offHost (perfAdd_offHost ..)
@[simp] theorem perfAdd_tst : (perfAdd s g e n).tst = s.tst := tst_of_offHost (perfAdd_offHost ..)
@[simp] theorem perfAdd_rdData : (perfAdd s g e n).rdData = s.rdData := rdData_of_offHost (perfAdd_offHost ..)
@[simp] theorem perfAdd_clk : (perfAdd s g e n).clk = s.clk := clk_of_offHost (perfAdd_offHost ..)
@[simp] theorem perfAdd_upd : (perfAdd s g e n).upd = s.upd := upd_of_offHost (perfAdd_offHost ..)
@[simp] theorem perfAdd_lin : (perfAdd s g e n).lin = s.lin := lin_of_offHost (perfAdd_offHost ..)
@[simp] theorem perfAdd_ing : (perfAdd s g e n).ing = s.ing := ing_of_offHost (perfAdd_offHost ..)
@[simp] theorem perfAdd_tab : (perfAdd s g e n).tab = s.tab := tab_of_offHost (perfAdd_offHost ..)
@[simp] theorem perfAdd_sig : (perfAdd s g e n).sig = s.sig := sig_of_offHost (perfAdd_offHost ..)
@[simp] theorem perfAdd_qd : (perfAdd s g e n).qd = s.qd := qd_of_offHost (perfAdd_offHost ..)
@[simp] theorem perfAdd_pair : (perfAdd s g e n).pair = s.pair := pair_of_offHost (perfAdd_offHost ..)
@[simp] theorem perfAdd_fab : (perfAdd s g e n).fab = s.fab := fab_of_offHost (perfAdd_offHost ..)
@[simp] theorem perfAdd_drm : (perfAdd s g e n).drm = s.drm := drm_of_offHost (perfAdd_offHost ..)
@[simp] theorem perfAdd_free : (perfAdd s g e n).free = s.free := free_of_offHost (perfAdd_offHost ..)
@[simp] theorem perfAdd_pending : (perfAdd s g e n).pending = s.pending := pending_of_offHost (perfAdd_offHost ..)

@[simp] theorem perfAdd_regs : (perfAdd s g e n).regs = s.regs := by unfold perfAdd; split <;> rfl
@[simp] theorem perfAdd_hif : (perfAdd s g e n).hif = s.hif := by unfold perfAdd; split <;> rfl
@[simp] theorem perf_hiLatch : (perf s g e).hiLatch = s.hiLatch := hiLatch_of_offHost (perf_offHost ..)
@[simp] theorem perf_loHeld : (perf s g e).loHeld = s.loHeld := loHeld_of_offHost (perf_offHost ..)
@[simp] theorem perf_top : (perf s g e).top = s.top := top_of_offHost (perf_offHost ..)
@[simp] theorem perf_tick : (perf s g e).tick = s.tick := tick_of_offHost (perf_offHost ..)
@[simp] theorem perf_stateTick : (perf s g e).stateTick = s.stateTick := stateTick_of_offHost (perf_offHost ..)
@[simp] theorem perf_ptp : (perf s g e).ptp = s.ptp := ptp_of_offHost (perf_offHost ..)
@[simp] theorem perf_otp : (perf s g e).otp = s.otp := otp_of_offHost (perf_offHost ..)
@[simp] theorem perf_nvm : (perf s g e).nvm = s.nvm := nvm_of_offHost (perf_offHost ..)
@[simp] theorem perf_vbat : (perf s g e).vbat = s.vbat := vbat_of_offHost (perf_offHost ..)
@[simp] theorem perf_boot : (perf s g e).boot = s.boot := boot_of_offHost (perf_offHost ..)
@[simp] theorem perf_pwr : (perf s g e).pwr = s.pwr := pwr_of_offHost (perf_offHost ..)
@[simp] theorem perf_flt : (perf s g e).flt = s.flt := flt_of_offHost (perf_offHost ..)
@[simp] theorem perf_scr : (perf s g e).scr = s.scr := scr_of_offHost (perf_offHost ..)
@[simp] theorem perf_slc : (perf s g e).slc = s.slc := slc_of_offHost (perf_offHost ..)
@[simp] theorem perf_tst : (perf s g e).tst = s.tst := tst_of_offHost (perf_offHost ..)
@[simp] theorem perf_rdData : (perf s g e).rdData = s.rdData := rdData_of_offHost (perf_offHost ..)
@[simp] theorem perf_clk : (perf s g e).clk = s.clk := clk_of_offHost (perf_offHost ..)
@[simp] theorem perf_upd : (perf s g e).upd = s.upd := upd_of_offHost (perf_offHost ..)
@[simp] theorem perf_lin : (perf s g e).lin = s.lin := lin_of_offHost (perf_offHost ..)
@[simp] theorem perf_ing : (perf s g e).ing = s.ing := ing_of_offHost (perf_offHost ..)
@[simp] theorem perf_tab : (perf s g e).tab = s.tab := tab_of_offHost (perf_offHost ..)
@[simp] theorem perf_sig : (perf s g e).sig = s.sig := sig_of_offHost (perf_offHost ..)
@[simp] theorem perf_qd : (perf s g e).qd = s.qd := qd_of_offHost (perf_offHost ..)
@[simp] theorem perf_pair : (perf s g e).pair = s.pair := pair_of_offHost (perf_offHost ..)
@[simp] theorem perf_fab : (perf s g e).fab = s.fab := fab_of_offHost (perf_offHost ..)
@[simp] theorem perf_drm : (perf s g e).drm = s.drm := drm_of_offHost (perf_offHost ..)
@[simp] theorem perf_free : (perf s g e).free = s.free := free_of_offHost (perf_offHost ..)
@[simp] theorem perf_pending : (perf s g e).pending = s.pending := pending_of_offHost (perf_offHost ..)

@[simp] theorem perf_regs : (perf s g e).regs = s.regs := perfAdd_regs (n := 1) ..
@[simp] theorem perf_hif : (perf s g e).hif = s.hif := perfAdd_hif (n := 1) ..
@[simp] theorem perfTenant_hiLatch : (perfTenant s k e n).hiLatch = s.hiLatch := hiLatch_of_offHost (perfTenant_offHost ..)
@[simp] theorem perfTenant_loHeld : (perfTenant s k e n).loHeld = s.loHeld := loHeld_of_offHost (perfTenant_offHost ..)
@[simp] theorem perfTenant_top : (perfTenant s k e n).top = s.top := top_of_offHost (perfTenant_offHost ..)
@[simp] theorem perfTenant_tick : (perfTenant s k e n).tick = s.tick := tick_of_offHost (perfTenant_offHost ..)
@[simp] theorem perfTenant_stateTick : (perfTenant s k e n).stateTick = s.stateTick := stateTick_of_offHost (perfTenant_offHost ..)
@[simp] theorem perfTenant_ptp : (perfTenant s k e n).ptp = s.ptp := ptp_of_offHost (perfTenant_offHost ..)
@[simp] theorem perfTenant_otp : (perfTenant s k e n).otp = s.otp := otp_of_offHost (perfTenant_offHost ..)
@[simp] theorem perfTenant_nvm : (perfTenant s k e n).nvm = s.nvm := nvm_of_offHost (perfTenant_offHost ..)
@[simp] theorem perfTenant_vbat : (perfTenant s k e n).vbat = s.vbat := vbat_of_offHost (perfTenant_offHost ..)
@[simp] theorem perfTenant_boot : (perfTenant s k e n).boot = s.boot := boot_of_offHost (perfTenant_offHost ..)
@[simp] theorem perfTenant_pwr : (perfTenant s k e n).pwr = s.pwr := pwr_of_offHost (perfTenant_offHost ..)
@[simp] theorem perfTenant_flt : (perfTenant s k e n).flt = s.flt := flt_of_offHost (perfTenant_offHost ..)
@[simp] theorem perfTenant_scr : (perfTenant s k e n).scr = s.scr := scr_of_offHost (perfTenant_offHost ..)
@[simp] theorem perfTenant_slc : (perfTenant s k e n).slc = s.slc := slc_of_offHost (perfTenant_offHost ..)
@[simp] theorem perfTenant_tst : (perfTenant s k e n).tst = s.tst := tst_of_offHost (perfTenant_offHost ..)
@[simp] theorem perfTenant_rdData : (perfTenant s k e n).rdData = s.rdData := rdData_of_offHost (perfTenant_offHost ..)
@[simp] theorem perfTenant_clk : (perfTenant s k e n).clk = s.clk := clk_of_offHost (perfTenant_offHost ..)
@[simp] theorem perfTenant_upd : (perfTenant s k e n).upd = s.upd := upd_of_offHost (perfTenant_offHost ..)
@[simp] theorem perfTenant_lin : (perfTenant s k e n).lin = s.lin := lin_of_offHost (perfTenant_offHost ..)
@[simp] theorem perfTenant_ing : (perfTenant s k e n).ing = s.ing := ing_of_offHost (perfTenant_offHost ..)
@[simp] theorem perfTenant_tab : (perfTenant s k e n).tab = s.tab := tab_of_offHost (perfTenant_offHost ..)
@[simp] theorem perfTenant_sig : (perfTenant s k e n).sig = s.sig := sig_of_offHost (perfTenant_offHost ..)
@[simp] theorem perfTenant_qd : (perfTenant s k e n).qd = s.qd := qd_of_offHost (perfTenant_offHost ..)
@[simp] theorem perfTenant_pair : (perfTenant s k e n).pair = s.pair := pair_of_offHost (perfTenant_offHost ..)
@[simp] theorem perfTenant_fab : (perfTenant s k e n).fab = s.fab := fab_of_offHost (perfTenant_offHost ..)
@[simp] theorem perfTenant_drm : (perfTenant s k e n).drm = s.drm := drm_of_offHost (perfTenant_offHost ..)
@[simp] theorem perfTenant_free : (perfTenant s k e n).free = s.free := free_of_offHost (perfTenant_offHost ..)
@[simp] theorem perfTenant_pending : (perfTenant s k e n).pending = s.pending := pending_of_offHost (perfTenant_offHost ..)

@[simp] theorem perfTenant_regs : (perfTenant s k e n).regs = s.regs := foldl_same State.regs _ (fun a j => by split <;> simp) _ s
@[simp] theorem perfTenant_hif : (perfTenant s k e n).hif = s.hif := foldl_same State.hif _ (fun a j => by split <;> simp) _ s
@[simp] theorem hostEvent_hiLatch : (hostEvent s f k x b).hiLatch = s.hiLatch := hiLatch_of_offHost (hostEvent_offHost ..)
@[simp] theorem hostEvent_loHeld : (hostEvent s f k x b).loHeld = s.loHeld := loHeld_of_offHost (hostEvent_offHost ..)
@[simp] theorem hostEvent_top : (hostEvent s f k x b).top = s.top := top_of_offHost (hostEvent_offHost ..)
@[simp] theorem hostEvent_tick : (hostEvent s f k x b).tick = s.tick := tick_of_offHost (hostEvent_offHost ..)
@[simp] theorem hostEvent_stateTick : (hostEvent s f k x b).stateTick = s.stateTick := stateTick_of_offHost (hostEvent_offHost ..)
@[simp] theorem hostEvent_ptp : (hostEvent s f k x b).ptp = s.ptp := ptp_of_offHost (hostEvent_offHost ..)
@[simp] theorem hostEvent_otp : (hostEvent s f k x b).otp = s.otp := otp_of_offHost (hostEvent_offHost ..)
@[simp] theorem hostEvent_nvm : (hostEvent s f k x b).nvm = s.nvm := nvm_of_offHost (hostEvent_offHost ..)
@[simp] theorem hostEvent_vbat : (hostEvent s f k x b).vbat = s.vbat := vbat_of_offHost (hostEvent_offHost ..)
@[simp] theorem hostEvent_boot : (hostEvent s f k x b).boot = s.boot := boot_of_offHost (hostEvent_offHost ..)
@[simp] theorem hostEvent_pwr : (hostEvent s f k x b).pwr = s.pwr := pwr_of_offHost (hostEvent_offHost ..)
@[simp] theorem hostEvent_flt : (hostEvent s f k x b).flt = s.flt := flt_of_offHost (hostEvent_offHost ..)
@[simp] theorem hostEvent_scr : (hostEvent s f k x b).scr = s.scr := scr_of_offHost (hostEvent_offHost ..)
@[simp] theorem hostEvent_slc : (hostEvent s f k x b).slc = s.slc := slc_of_offHost (hostEvent_offHost ..)
@[simp] theorem hostEvent_tst : (hostEvent s f k x b).tst = s.tst := tst_of_offHost (hostEvent_offHost ..)
@[simp] theorem hostEvent_rdData : (hostEvent s f k x b).rdData = s.rdData := rdData_of_offHost (hostEvent_offHost ..)
@[simp] theorem hostEvent_clk : (hostEvent s f k x b).clk = s.clk := clk_of_offHost (hostEvent_offHost ..)
@[simp] theorem hostEvent_upd : (hostEvent s f k x b).upd = s.upd := upd_of_offHost (hostEvent_offHost ..)
@[simp] theorem hostEvent_lin : (hostEvent s f k x b).lin = s.lin := lin_of_offHost (hostEvent_offHost ..)
@[simp] theorem hostEvent_ing : (hostEvent s f k x b).ing = s.ing := ing_of_offHost (hostEvent_offHost ..)
@[simp] theorem hostEvent_tab : (hostEvent s f k x b).tab = s.tab := tab_of_offHost (hostEvent_offHost ..)
@[simp] theorem hostEvent_sig : (hostEvent s f k x b).sig = s.sig := sig_of_offHost (hostEvent_offHost ..)
@[simp] theorem hostEvent_qd : (hostEvent s f k x b).qd = s.qd := qd_of_offHost (hostEvent_offHost ..)
@[simp] theorem hostEvent_pair : (hostEvent s f k x b).pair = s.pair := pair_of_offHost (hostEvent_offHost ..)
@[simp] theorem hostEvent_fab : (hostEvent s f k x b).fab = s.fab := fab_of_offHost (hostEvent_offHost ..)
@[simp] theorem hostEvent_drm : (hostEvent s f k x b).drm = s.drm := drm_of_offHost (hostEvent_offHost ..)
@[simp] theorem hostEvent_free : (hostEvent s f k x b).free = s.free := free_of_offHost (hostEvent_offHost ..)
@[simp] theorem hostEvent_pending : (hostEvent s f k x b).pending = s.pending := pending_of_offHost (hostEvent_offHost ..)

@[simp] theorem pwfTarget_hiLatch : (pwfTarget s e n).hiLatch = s.hiLatch := hiLatch_of_offHost (pwfTarget_offHost ..)
@[simp] theorem pwfTarget_loHeld : (pwfTarget s e n).loHeld = s.loHeld := loHeld_of_offHost (pwfTarget_offHost ..)
@[simp] theorem pwfTarget_top : (pwfTarget s e n).top = s.top := top_of_offHost (pwfTarget_offHost ..)
@[simp] theorem pwfTarget_tick : (pwfTarget s e n).tick = s.tick := tick_of_offHost (pwfTarget_offHost ..)
@[simp] theorem pwfTarget_stateTick : (pwfTarget s e n).stateTick = s.stateTick := stateTick_of_offHost (pwfTarget_offHost ..)
@[simp] theorem pwfTarget_ptp : (pwfTarget s e n).ptp = s.ptp := ptp_of_offHost (pwfTarget_offHost ..)
@[simp] theorem pwfTarget_otp : (pwfTarget s e n).otp = s.otp := otp_of_offHost (pwfTarget_offHost ..)
@[simp] theorem pwfTarget_nvm : (pwfTarget s e n).nvm = s.nvm := nvm_of_offHost (pwfTarget_offHost ..)
@[simp] theorem pwfTarget_vbat : (pwfTarget s e n).vbat = s.vbat := vbat_of_offHost (pwfTarget_offHost ..)
@[simp] theorem pwfTarget_boot : (pwfTarget s e n).boot = s.boot := boot_of_offHost (pwfTarget_offHost ..)
@[simp] theorem pwfTarget_pwr : (pwfTarget s e n).pwr = s.pwr := pwr_of_offHost (pwfTarget_offHost ..)
@[simp] theorem pwfTarget_flt : (pwfTarget s e n).flt = s.flt := flt_of_offHost (pwfTarget_offHost ..)
@[simp] theorem pwfTarget_scr : (pwfTarget s e n).scr = s.scr := scr_of_offHost (pwfTarget_offHost ..)
@[simp] theorem pwfTarget_slc : (pwfTarget s e n).slc = s.slc := slc_of_offHost (pwfTarget_offHost ..)
@[simp] theorem pwfTarget_tst : (pwfTarget s e n).tst = s.tst := tst_of_offHost (pwfTarget_offHost ..)
@[simp] theorem pwfTarget_rdData : (pwfTarget s e n).rdData = s.rdData := rdData_of_offHost (pwfTarget_offHost ..)
@[simp] theorem pwfTarget_clk : (pwfTarget s e n).clk = s.clk := clk_of_offHost (pwfTarget_offHost ..)
@[simp] theorem pwfTarget_upd : (pwfTarget s e n).upd = s.upd := upd_of_offHost (pwfTarget_offHost ..)
@[simp] theorem pwfTarget_lin : (pwfTarget s e n).lin = s.lin := lin_of_offHost (pwfTarget_offHost ..)
@[simp] theorem pwfTarget_ing : (pwfTarget s e n).ing = s.ing := ing_of_offHost (pwfTarget_offHost ..)
@[simp] theorem pwfTarget_tab : (pwfTarget s e n).tab = s.tab := tab_of_offHost (pwfTarget_offHost ..)
@[simp] theorem pwfTarget_sig : (pwfTarget s e n).sig = s.sig := sig_of_offHost (pwfTarget_offHost ..)
@[simp] theorem pwfTarget_qd : (pwfTarget s e n).qd = s.qd := qd_of_offHost (pwfTarget_offHost ..)
@[simp] theorem pwfTarget_pair : (pwfTarget s e n).pair = s.pair := pair_of_offHost (pwfTarget_offHost ..)
@[simp] theorem pwfTarget_fab : (pwfTarget s e n).fab = s.fab := fab_of_offHost (pwfTarget_offHost ..)
@[simp] theorem pwfTarget_drm : (pwfTarget s e n).drm = s.drm := drm_of_offHost (pwfTarget_offHost ..)
@[simp] theorem pwfTarget_free : (pwfTarget s e n).free = s.free := free_of_offHost (pwfTarget_offHost ..)
@[simp] theorem pwfTarget_pending : (pwfTarget s e n).pending = s.pending := pending_of_offHost (pwfTarget_offHost ..)

@[simp] theorem report_slc_drain : (report s src loc d).slc.drain = s.slc.drain := slc_drain_of_offReport (report_offReport ..)
@[simp] theorem report_slc_flushes : (report s src loc d).slc.flushes = s.slc.flushes := slc_flushes_of_offReport (report_offReport ..)
@[simp] theorem report_slc_unjoined : (report s src loc d).slc.unjoined = s.slc.unjoined := slc_unjoined_of_offReport (report_offReport ..)
@[simp] theorem report_hiLatch : (report s src loc d).hiLatch = s.hiLatch := hiLatch_of_offReport (report_offReport ..)
@[simp] theorem report_loHeld : (report s src loc d).loHeld = s.loHeld := loHeld_of_offReport (report_offReport ..)
@[simp] theorem report_top : (report s src loc d).top = s.top := top_of_offReport (report_offReport ..)
@[simp] theorem report_tick : (report s src loc d).tick = s.tick := tick_of_offReport (report_offReport ..)
@[simp] theorem report_stateTick : (report s src loc d).stateTick = s.stateTick := stateTick_of_offReport (report_offReport ..)
@[simp] theorem report_ptp : (report s src loc d).ptp = s.ptp := ptp_of_offReport (report_offReport ..)
@[simp] theorem report_otp : (report s src loc d).otp = s.otp := otp_of_offReport (report_offReport ..)
@[simp] theorem report_nvm : (report s src loc d).nvm = s.nvm := nvm_of_offReport (report_offReport ..)
@[simp] theorem report_vbat : (report s src loc d).vbat = s.vbat := vbat_of_offReport (report_offReport ..)
@[simp] theorem report_boot : (report s src loc d).boot = s.boot := boot_of_offReport (report_offReport ..)
@[simp] theorem report_pwr : (report s src loc d).pwr = s.pwr := pwr_of_offReport (report_offReport ..)
@[simp] theorem report_hif : (report s src loc d).hif = s.hif := hif_of_offReport (report_offReport ..)
@[simp] theorem report_scr : (report s src loc d).scr = s.scr := scr_of_offReport (report_offReport ..)
@[simp] theorem report_cnt : (report s src loc d).cnt = s.cnt := cnt_of_offReport (report_offReport ..)
@[simp] theorem report_tst : (report s src loc d).tst = s.tst := tst_of_offReport (report_offReport ..)
@[simp] theorem report_rdData : (report s src loc d).rdData = s.rdData := rdData_of_offReport (report_offReport ..)
@[simp] theorem report_clk : (report s src loc d).clk = s.clk := clk_of_offReport (report_offReport ..)
@[simp] theorem report_upd : (report s src loc d).upd = s.upd := upd_of_offReport (report_offReport ..)
@[simp] theorem report_lin : (report s src loc d).lin = s.lin := lin_of_offReport (report_offReport ..)
@[simp] theorem report_ing : (report s src loc d).ing = s.ing := ing_of_offReport (report_offReport ..)
@[simp] theorem report_tab : (report s src loc d).tab = s.tab := tab_of_offReport (report_offReport ..)
@[simp] theorem report_sig : (report s src loc d).sig = s.sig := sig_of_offReport (report_offReport ..)
@[simp] theorem report_pair : (report s src loc d).pair = s.pair := pair_of_offReport (report_offReport ..)
@[simp] theorem report_fab : (report s src loc d).fab = s.fab := fab_of_offReport (report_offReport ..)
@[simp] theorem report_free : (report s src loc d).free = s.free := free_of_offReport (report_offReport ..)
@[simp] theorem report_pending : (report s src loc d).pending = s.pending := pending_of_offReport (report_offReport ..)

@[simp] theorem levelOn_slc_drain : (levelOn s src loc d).slc.drain = s.slc.drain := slc_drain_of_offReport (levelOn_offReport ..)
@[simp] theorem levelOn_slc_flushes : (levelOn s src loc d).slc.flushes = s.slc.flushes := slc_flushes_of_offReport (levelOn_offReport ..)
@[simp] theorem levelOn_slc_unjoined : (levelOn s src loc d).slc.unjoined = s.slc.unjoined := slc_unjoined_of_offReport (levelOn_offReport ..)
@[simp] theorem levelOn_hiLatch : (levelOn s src loc d).hiLatch = s.hiLatch := hiLatch_of_offReport (levelOn_offReport ..)
@[simp] theorem levelOn_loHeld : (levelOn s src loc d).loHeld = s.loHeld := loHeld_of_offReport (levelOn_offReport ..)
@[simp] theorem levelOn_top : (levelOn s src loc d).top = s.top := top_of_offReport (levelOn_offReport ..)
@[simp] theorem levelOn_tick : (levelOn s src loc d).tick = s.tick := tick_of_offReport (levelOn_offReport ..)
@[simp] theorem levelOn_stateTick : (levelOn s src loc d).stateTick = s.stateTick := stateTick_of_offReport (levelOn_offReport ..)
@[simp] theorem levelOn_ptp : (levelOn s src loc d).ptp = s.ptp := ptp_of_offReport (levelOn_offReport ..)
@[simp] theorem levelOn_otp : (levelOn s src loc d).otp = s.otp := otp_of_offReport (levelOn_offReport ..)
@[simp] theorem levelOn_nvm : (levelOn s src loc d).nvm = s.nvm := nvm_of_offReport (levelOn_offReport ..)
@[simp] theorem levelOn_vbat : (levelOn s src loc d).vbat = s.vbat := vbat_of_offReport (levelOn_offReport ..)
@[simp] theorem levelOn_boot : (levelOn s src loc d).boot = s.boot := boot_of_offReport (levelOn_offReport ..)
@[simp] theorem levelOn_pwr : (levelOn s src loc d).pwr = s.pwr := pwr_of_offReport (levelOn_offReport ..)
@[simp] theorem levelOn_hif : (levelOn s src loc d).hif = s.hif := hif_of_offReport (levelOn_offReport ..)
@[simp] theorem levelOn_scr : (levelOn s src loc d).scr = s.scr := scr_of_offReport (levelOn_offReport ..)
@[simp] theorem levelOn_cnt : (levelOn s src loc d).cnt = s.cnt := cnt_of_offReport (levelOn_offReport ..)
@[simp] theorem levelOn_tst : (levelOn s src loc d).tst = s.tst := tst_of_offReport (levelOn_offReport ..)
@[simp] theorem levelOn_rdData : (levelOn s src loc d).rdData = s.rdData := rdData_of_offReport (levelOn_offReport ..)
@[simp] theorem levelOn_clk : (levelOn s src loc d).clk = s.clk := clk_of_offReport (levelOn_offReport ..)
@[simp] theorem levelOn_upd : (levelOn s src loc d).upd = s.upd := upd_of_offReport (levelOn_offReport ..)
@[simp] theorem levelOn_lin : (levelOn s src loc d).lin = s.lin := lin_of_offReport (levelOn_offReport ..)
@[simp] theorem levelOn_ing : (levelOn s src loc d).ing = s.ing := ing_of_offReport (levelOn_offReport ..)
@[simp] theorem levelOn_tab : (levelOn s src loc d).tab = s.tab := tab_of_offReport (levelOn_offReport ..)
@[simp] theorem levelOn_sig : (levelOn s src loc d).sig = s.sig := sig_of_offReport (levelOn_offReport ..)
@[simp] theorem levelOn_pair : (levelOn s src loc d).pair = s.pair := pair_of_offReport (levelOn_offReport ..)
@[simp] theorem levelOn_fab : (levelOn s src loc d).fab = s.fab := fab_of_offReport (levelOn_offReport ..)
@[simp] theorem levelOn_free : (levelOn s src loc d).free = s.free := free_of_offReport (levelOn_offReport ..)
@[simp] theorem levelOn_pending : (levelOn s src loc d).pending = s.pending := pending_of_offReport (levelOn_offReport ..)

@[simp] theorem levelMore_slc_drain : (levelMore s src loc d).slc.drain = s.slc.drain := slc_drain_of_offReport (levelMore_offReport ..)
@[simp] theorem levelMore_slc_flushes : (levelMore s src loc d).slc.flushes = s.slc.flushes := slc_flushes_of_offReport (levelMore_offReport ..)
@[simp] theorem levelMore_slc_unjoined : (levelMore s src loc d).slc.unjoined = s.slc.unjoined := slc_unjoined_of_offReport (levelMore_offReport ..)
@[simp] theorem levelMore_hiLatch : (levelMore s src loc d).hiLatch = s.hiLatch := hiLatch_of_offReport (levelMore_offReport ..)
@[simp] theorem levelMore_loHeld : (levelMore s src loc d).loHeld = s.loHeld := loHeld_of_offReport (levelMore_offReport ..)
@[simp] theorem levelMore_top : (levelMore s src loc d).top = s.top := top_of_offReport (levelMore_offReport ..)
@[simp] theorem levelMore_tick : (levelMore s src loc d).tick = s.tick := tick_of_offReport (levelMore_offReport ..)
@[simp] theorem levelMore_stateTick : (levelMore s src loc d).stateTick = s.stateTick := stateTick_of_offReport (levelMore_offReport ..)
@[simp] theorem levelMore_ptp : (levelMore s src loc d).ptp = s.ptp := ptp_of_offReport (levelMore_offReport ..)
@[simp] theorem levelMore_otp : (levelMore s src loc d).otp = s.otp := otp_of_offReport (levelMore_offReport ..)
@[simp] theorem levelMore_nvm : (levelMore s src loc d).nvm = s.nvm := nvm_of_offReport (levelMore_offReport ..)
@[simp] theorem levelMore_vbat : (levelMore s src loc d).vbat = s.vbat := vbat_of_offReport (levelMore_offReport ..)
@[simp] theorem levelMore_boot : (levelMore s src loc d).boot = s.boot := boot_of_offReport (levelMore_offReport ..)
@[simp] theorem levelMore_pwr : (levelMore s src loc d).pwr = s.pwr := pwr_of_offReport (levelMore_offReport ..)
@[simp] theorem levelMore_hif : (levelMore s src loc d).hif = s.hif := hif_of_offReport (levelMore_offReport ..)
@[simp] theorem levelMore_scr : (levelMore s src loc d).scr = s.scr := scr_of_offReport (levelMore_offReport ..)
@[simp] theorem levelMore_cnt : (levelMore s src loc d).cnt = s.cnt := cnt_of_offReport (levelMore_offReport ..)
@[simp] theorem levelMore_tst : (levelMore s src loc d).tst = s.tst := tst_of_offReport (levelMore_offReport ..)
@[simp] theorem levelMore_rdData : (levelMore s src loc d).rdData = s.rdData := rdData_of_offReport (levelMore_offReport ..)
@[simp] theorem levelMore_clk : (levelMore s src loc d).clk = s.clk := clk_of_offReport (levelMore_offReport ..)
@[simp] theorem levelMore_upd : (levelMore s src loc d).upd = s.upd := upd_of_offReport (levelMore_offReport ..)
@[simp] theorem levelMore_lin : (levelMore s src loc d).lin = s.lin := lin_of_offReport (levelMore_offReport ..)
@[simp] theorem levelMore_ing : (levelMore s src loc d).ing = s.ing := ing_of_offReport (levelMore_offReport ..)
@[simp] theorem levelMore_tab : (levelMore s src loc d).tab = s.tab := tab_of_offReport (levelMore_offReport ..)
@[simp] theorem levelMore_sig : (levelMore s src loc d).sig = s.sig := sig_of_offReport (levelMore_offReport ..)
@[simp] theorem levelMore_pair : (levelMore s src loc d).pair = s.pair := pair_of_offReport (levelMore_offReport ..)
@[simp] theorem levelMore_fab : (levelMore s src loc d).fab = s.fab := fab_of_offReport (levelMore_offReport ..)
@[simp] theorem levelMore_free : (levelMore s src loc d).free = s.free := free_of_offReport (levelMore_offReport ..)
@[simp] theorem levelMore_pending : (levelMore s src loc d).pending = s.pending := pending_of_offReport (levelMore_offReport ..)

@[simp] theorem levelIs_slc_drain : (levelIs b s src loc d).slc.drain = s.slc.drain := slc_drain_of_offReport (levelIs_offReport ..)
@[simp] theorem levelIs_slc_flushes : (levelIs b s src loc d).slc.flushes = s.slc.flushes := slc_flushes_of_offReport (levelIs_offReport ..)
@[simp] theorem levelIs_slc_unjoined : (levelIs b s src loc d).slc.unjoined = s.slc.unjoined := slc_unjoined_of_offReport (levelIs_offReport ..)
@[simp] theorem levelIs_hiLatch : (levelIs b s src loc d).hiLatch = s.hiLatch := hiLatch_of_offReport (levelIs_offReport ..)
@[simp] theorem levelIs_loHeld : (levelIs b s src loc d).loHeld = s.loHeld := loHeld_of_offReport (levelIs_offReport ..)
@[simp] theorem levelIs_top : (levelIs b s src loc d).top = s.top := top_of_offReport (levelIs_offReport ..)
@[simp] theorem levelIs_tick : (levelIs b s src loc d).tick = s.tick := tick_of_offReport (levelIs_offReport ..)
@[simp] theorem levelIs_stateTick : (levelIs b s src loc d).stateTick = s.stateTick := stateTick_of_offReport (levelIs_offReport ..)
@[simp] theorem levelIs_ptp : (levelIs b s src loc d).ptp = s.ptp := ptp_of_offReport (levelIs_offReport ..)
@[simp] theorem levelIs_otp : (levelIs b s src loc d).otp = s.otp := otp_of_offReport (levelIs_offReport ..)
@[simp] theorem levelIs_nvm : (levelIs b s src loc d).nvm = s.nvm := nvm_of_offReport (levelIs_offReport ..)
@[simp] theorem levelIs_vbat : (levelIs b s src loc d).vbat = s.vbat := vbat_of_offReport (levelIs_offReport ..)
@[simp] theorem levelIs_boot : (levelIs b s src loc d).boot = s.boot := boot_of_offReport (levelIs_offReport ..)
@[simp] theorem levelIs_pwr : (levelIs b s src loc d).pwr = s.pwr := pwr_of_offReport (levelIs_offReport ..)
@[simp] theorem levelIs_hif : (levelIs b s src loc d).hif = s.hif := hif_of_offReport (levelIs_offReport ..)
@[simp] theorem levelIs_scr : (levelIs b s src loc d).scr = s.scr := scr_of_offReport (levelIs_offReport ..)
@[simp] theorem levelIs_cnt : (levelIs b s src loc d).cnt = s.cnt := cnt_of_offReport (levelIs_offReport ..)
@[simp] theorem levelIs_tst : (levelIs b s src loc d).tst = s.tst := tst_of_offReport (levelIs_offReport ..)
@[simp] theorem levelIs_rdData : (levelIs b s src loc d).rdData = s.rdData := rdData_of_offReport (levelIs_offReport ..)
@[simp] theorem levelIs_clk : (levelIs b s src loc d).clk = s.clk := clk_of_offReport (levelIs_offReport ..)
@[simp] theorem levelIs_upd : (levelIs b s src loc d).upd = s.upd := upd_of_offReport (levelIs_offReport ..)
@[simp] theorem levelIs_lin : (levelIs b s src loc d).lin = s.lin := lin_of_offReport (levelIs_offReport ..)
@[simp] theorem levelIs_ing : (levelIs b s src loc d).ing = s.ing := ing_of_offReport (levelIs_offReport ..)
@[simp] theorem levelIs_tab : (levelIs b s src loc d).tab = s.tab := tab_of_offReport (levelIs_offReport ..)
@[simp] theorem levelIs_sig : (levelIs b s src loc d).sig = s.sig := sig_of_offReport (levelIs_offReport ..)
@[simp] theorem levelIs_pair : (levelIs b s src loc d).pair = s.pair := pair_of_offReport (levelIs_offReport ..)
@[simp] theorem levelIs_fab : (levelIs b s src loc d).fab = s.fab := fab_of_offReport (levelIs_offReport ..)
@[simp] theorem levelIs_free : (levelIs b s src loc d).free = s.free := free_of_offReport (levelIs_offReport ..)
@[simp] theorem levelIs_pending : (levelIs b s src loc d).pending = s.pending := pending_of_offReport (levelIs_offReport ..)

@[simp] theorem levelOff_hiLatch : (levelOff s src).hiLatch = s.hiLatch := (rfl)
@[simp] theorem levelOff_loHeld : (levelOff s src).loHeld = s.loHeld := (rfl)
@[simp] theorem levelOff_top : (levelOff s src).top = s.top := (rfl)
@[simp] theorem levelOff_tick : (levelOff s src).tick = s.tick := (rfl)
@[simp] theorem levelOff_stateTick : (levelOff s src).stateTick = s.stateTick := (rfl)
@[simp] theorem levelOff_ptp : (levelOff s src).ptp = s.ptp := (rfl)
@[simp] theorem levelOff_otp : (levelOff s src).otp = s.otp := (rfl)
@[simp] theorem levelOff_nvm : (levelOff s src).nvm = s.nvm := (rfl)
@[simp] theorem levelOff_vbat : (levelOff s src).vbat = s.vbat := (rfl)
@[simp] theorem levelOff_boot : (levelOff s src).boot = s.boot := (rfl)
@[simp] theorem levelOff_pwr : (levelOff s src).pwr = s.pwr := (rfl)
@[simp] theorem levelOff_hif : (levelOff s src).hif = s.hif := (rfl)
@[simp] theorem levelOff_scr : (levelOff s src).scr = s.scr := (rfl)
@[simp] theorem levelOff_cnt : (levelOff s src).cnt = s.cnt := (rfl)
@[simp] theorem levelOff_slc : (levelOff s src).slc = s.slc := (rfl)
@[simp] theorem levelOff_tst : (levelOff s src).tst = s.tst := (rfl)
@[simp] theorem levelOff_rdData : (levelOff s src).rdData = s.rdData := (rfl)
@[simp] theorem levelOff_clk : (levelOff s src).clk = s.clk := (rfl)
@[simp] theorem levelOff_upd : (levelOff s src).upd = s.upd := (rfl)
@[simp] theorem levelOff_lin : (levelOff s src).lin = s.lin := (rfl)
@[simp] theorem levelOff_ing : (levelOff s src).ing = s.ing := (rfl)
@[simp] theorem levelOff_tab : (levelOff s src).tab = s.tab := (rfl)
@[simp] theorem levelOff_sig : (levelOff s src).sig = s.sig := (rfl)
@[simp] theorem levelOff_qd : (levelOff s src).qd = s.qd := (rfl)
@[simp] theorem levelOff_pair : (levelOff s src).pair = s.pair := (rfl)
@[simp] theorem levelOff_fab : (levelOff s src).fab = s.fab := (rfl)
@[simp] theorem levelOff_drm : (levelOff s src).drm = s.drm := (rfl)
@[simp] theorem levelOff_free : (levelOff s src).free = s.free := (rfl)
@[simp] theorem levelOff_pending : (levelOff s src).pending = s.pending := (rfl)
@[simp] theorem levelOff_regs : (levelOff s src).regs = s.regs := (rfl)
@[simp] theorem enterTop_hiLatch : (enterTop s t).hiLatch = s.hiLatch := (rfl)
@[simp] theorem enterTop_loHeld : (enterTop s t).loHeld = s.loHeld := (rfl)
@[simp] theorem enterTop_tick : (enterTop s t).tick = s.tick := (rfl)
@[simp] theorem enterTop_ptp : (enterTop s t).ptp = s.ptp := (rfl)
@[simp] theorem enterTop_otp : (enterTop s t).otp = s.otp := (rfl)
@[simp] theorem enterTop_nvm : (enterTop s t).nvm = s.nvm := (rfl)
@[simp] theorem enterTop_vbat : (enterTop s t).vbat = s.vbat := (rfl)
@[simp] theorem enterTop_boot : (enterTop s t).boot = s.boot := (rfl)
@[simp] theorem enterTop_pwr : (enterTop s t).pwr = s.pwr := (rfl)
@[simp] theorem enterTop_flt : (enterTop s t).flt = s.flt := (rfl)
@[simp] theorem enterTop_hif : (enterTop s t).hif = s.hif := (rfl)
@[simp] theorem enterTop_scr : (enterTop s t).scr = s.scr := (rfl)
@[simp] theorem enterTop_cnt : (enterTop s t).cnt = s.cnt := (rfl)
@[simp] theorem enterTop_slc : (enterTop s t).slc = s.slc := (rfl)
@[simp] theorem enterTop_tst : (enterTop s t).tst = s.tst := (rfl)
@[simp] theorem enterTop_rdData : (enterTop s t).rdData = s.rdData := (rfl)
@[simp] theorem enterTop_clk : (enterTop s t).clk = s.clk := (rfl)
@[simp] theorem enterTop_upd : (enterTop s t).upd = s.upd := (rfl)
@[simp] theorem enterTop_lin : (enterTop s t).lin = s.lin := (rfl)
@[simp] theorem enterTop_ing : (enterTop s t).ing = s.ing := (rfl)
@[simp] theorem enterTop_tab : (enterTop s t).tab = s.tab := (rfl)
@[simp] theorem enterTop_sig : (enterTop s t).sig = s.sig := (rfl)
@[simp] theorem enterTop_qd : (enterTop s t).qd = s.qd := (rfl)
@[simp] theorem enterTop_pair : (enterTop s t).pair = s.pair := (rfl)
@[simp] theorem enterTop_fab : (enterTop s t).fab = s.fab := (rfl)
@[simp] theorem enterTop_drm : (enterTop s t).drm = s.drm := (rfl)
@[simp] theorem enterTop_free : (enterTop s t).free = s.free := (rfl)
@[simp] theorem enterTop_pending : (enterTop s t).pending = s.pending := (rfl)
@[simp] theorem enterTop_regs : (enterTop s t).regs = s.regs := (rfl)
end

end Sys2Proof.Machine
end

