-- ==== Sys2Proof/Laws/Writeback.lean ====
section
/-! SUPPORT. The laws of a ring's writeback (R486): it is part of the host interface alone, and the index written is the one kept. -/

namespace Sys2Proof.Machine

section
variable (s : State) (f r i : Nat)

@[simp] theorem ringWb_regs : (ringWb s f r i).regs = s.regs := rfl
@[simp] theorem ringWb_hiLatch : (ringWb s f r i).hiLatch = s.hiLatch := rfl
@[simp] theorem ringWb_loHeld : (ringWb s f r i).loHeld = s.loHeld := rfl
@[simp] theorem ringWb_top : (ringWb s f r i).top = s.top := rfl
@[simp] theorem ringWb_tick : (ringWb s f r i).tick = s.tick := rfl
@[simp] theorem ringWb_stateTick : (ringWb s f r i).stateTick = s.stateTick := rfl
@[simp] theorem ringWb_ptp : (ringWb s f r i).ptp = s.ptp := rfl
@[simp] theorem ringWb_otp : (ringWb s f r i).otp = s.otp := rfl
@[simp] theorem ringWb_nvm : (ringWb s f r i).nvm = s.nvm := rfl
@[simp] theorem ringWb_vbat : (ringWb s f r i).vbat = s.vbat := rfl
@[simp] theorem ringWb_boot : (ringWb s f r i).boot = s.boot := rfl
@[simp] theorem ringWb_pwr : (ringWb s f r i).pwr = s.pwr := rfl
@[simp] theorem ringWb_flt : (ringWb s f r i).flt = s.flt := rfl
@[simp] theorem ringWb_scr : (ringWb s f r i).scr = s.scr := rfl
@[simp] theorem ringWb_cnt : (ringWb s f r i).cnt = s.cnt := rfl
@[simp] theorem ringWb_slc : (ringWb s f r i).slc = s.slc := rfl
@[simp] theorem ringWb_tst : (ringWb s f r i).tst = s.tst := rfl
@[simp] theorem ringWb_rdData : (ringWb s f r i).rdData = s.rdData := rfl
@[simp] theorem ringWb_clk : (ringWb s f r i).clk = s.clk := rfl
@[simp] theorem ringWb_upd : (ringWb s f r i).upd = s.upd := rfl
@[simp] theorem ringWb_lin : (ringWb s f r i).lin = s.lin := rfl
@[simp] theorem ringWb_ing : (ringWb s f r i).ing = s.ing := rfl
@[simp] theorem ringWb_tab : (ringWb s f r i).tab = s.tab := rfl
@[simp] theorem ringWb_sig : (ringWb s f r i).sig = s.sig := rfl
@[simp] theorem ringWb_qd : (ringWb s f r i).qd = s.qd := rfl
@[simp] theorem ringWb_pair : (ringWb s f r i).pair = s.pair := rfl
@[simp] theorem ringWb_fab : (ringWb s f r i).fab = s.fab := rfl
@[simp] theorem ringWb_drm : (ringWb s f r i).drm = s.drm := rfl
@[simp] theorem ringWb_free : (ringWb s f r i).free = s.free := rfl
@[simp] theorem ringWb_pending : (ringWb s f r i).pending = s.pending := rfl

@[simp] theorem ringWb_wb : (ringWb s f r i).hif.wb = mset s.hif.wb (ringKey f r) (some i) := rfl

theorem ringWb_kept : mfind (ringWb s f r i).hif.wb (ringKey f r) = some i := by
  rw [ringWb_wb]
  exact mfind_mset_self _ _ (some i)

theorem rd_ringWb (a : Nat) : rd (ringWb s f r i) a = rd s a := rfl

theorem getF_ringWb (x : Fld) : getF (ringWb s f r i) x = getF s x := rfl

end

end Sys2Proof.Machine
end

