-- ==== Sys2Proof/Laws/FrameRegs.lean ====
section
/-! SUPPORT. Which registers the shared operations of Ops may change: a fault report those of the collector and of the DRAM interfaces, an event to the host those of the host interface. -/

namespace Sys2Proof.Machine

/-- A register that no event to the host touches. -/
def OffHost (a : Nat) : Prop := a < 0x0600000 ∨ (0x0800000 ≤ a ∧ a < 0x10000000)

theorem rd_satBump_ne (s : State) (f : Fld) (a : Nat) (h : a ≠ f.reg) : rd (satBump s f) a = rd s a := by rw [satBump, setF, rd_wr_ne s _ h]

theorem rd_setF_ne (s : State) (f : Fld) (n a : Nat) (h : a ≠ f.reg) : rd (setF s f n) a = rd s a := by rw [setF, rd_wr_ne s _ h]

theorem rd_setB_ne (s : State) (f : Fld) (b : Bool) (a : Nat) (h : a ≠ f.reg) : rd (setB s f b) a = rd s a := by rw [setB, rd_setF_ne s f _ a h]

theorem rd_wrWords_ne (s : State) (n a : Nat) (l : List Word) (h : a < n ∨ n + 4 * l.length ≤ a) : rd (wrWords s n l) a = rd s a := by
  induction l generalizing s n with
  | nil => rfl
  | cons w l ih =>
    rw [List.length_cons] at h
    rw [wrWords, ih _ _ (by omega), rd_wr_ne s w (by omega)]

theorem src_lt {src : Nat} (h : srcAssigned src = true) : src < 2048 := by
  obtain ⟨r, hr⟩ := Option.isSome_iff_exists.mp h
  have hm := List.mem_of_find?_eq_some hr
  have hp := List.find?_some hr
  have hb : ∀ r ∈ srcRows, r.first + r.count ≤ 2048 := by decide
  have := hb r hm
  simp only [Bool.and_eq_true, decide_eq_true_eq] at hp
  omega

section
variable {s : State} {a src loc d : Nat} {b : Bool}

theorem rd_srcCount (h : OffReport a) (hs : srcAssigned src = true) : rd (srcCount s src) a = rd s a := by
  have hb := src_lt hs
  have h1 : a ≠ Reg.FLT_SRC_CNT src := by
    unfold OffReport at h; unfold Reg.FLT_SRC_CNT; omega
  unfold srcCount
  split
  · exact rd_setB_ne _ _ _ _ h1
  · exact rd_satBump_ne _ _ _ h1

theorem rd_firstPut (h : OffReport a) (k : Nat) (l : List Word) (hl : l.length = 8) : rd (firstPut s k src l) a = rd s a := by
  unfold OffReport at h
  unfold firstPut
  rw [rd_setB_ne, rd_wrWords_ne]
  · rfl
  · simp only [Reg.FLT_FIRST]; omega
  · show a ≠ 0x040001C
    omega

theorem rd_firstNote (k : Nat) (l : List Word) : rd (firstNote s k src l) a = rd s a := by
  unfold firstNote
  split
  · split <;> rfl
  · rfl

theorem rd_captureFirst (h : OffReport a) (y : Report) (l : List Word) (hl : l.length = 8) : rd (captureFirst s src y l) a = rd s a := by
  unfold captureFirst
  split
  · rfl
  · extract_lets u v
    have hu : rd u a = rd s a := rd_firstNote ..
    split
    · rw [rd_firstPut h _ _ hl, hu]
    · exact hu

theorem rd_setStatus : rd (setStatus s src) a = rd s a := by unfold setStatus; split <;> rfl

theorem rd_mergeLatched (h : OffReport a) (hs : srcAssigned src = true) (y : Report) : rd (mergeLatched s src y) a = rd s a := by
  unfold mergeLatched
  extract_lets u
  have hu : rd u a = rd s a := by
    have h' := h
    unfold OffReport at h'
    simp only [u]
    rw [rd_setStatus, rd_srcCount h hs, rd_bump_ne, rd_bump_ne]
    · show a ≠ 0x0400080 + 0x4 * 0; omega
    · show a ≠ 0x0400080 + 0x4 * 2; omega
  rw [rd_captureFirst h _ _ rfl, hu]

theorem rd_dramLost (h : OffReport a) {i : Nat} (hi : i < 24) : rd (dramLost s i) a = rd s a := by
  unfold OffReport at h
  unfold dramLost
  extract_lets _ _ u
  have hu : rd u a = rd s a := rd_setF_ne _ _ _ _ (by show a ≠ 0x1600004 + 0x10000 * i; omega)
  clear_value u
  exact hu

theorem rd_pauseWithdraw (i : Nat) : rd (pauseWithdraw s i) a = rd s a := rfl

section
variable {more : State → Nat → State} (hm : ∀ s i, i < 24 → rd (more s i) a = rd s a) (h : OffReport a)
include hm

theorem rd_serviceReaction : rd (serviceReaction more s src loc) a = rd s a := by
  unfold serviceReaction
  extract_lets sl _ u
  have hu : rd u a = rd s a := by
    simp only [u]
    split <;> rfl
  split
  · rw [hm _ _ (by omega), hm _ _ (by omega), hu]
  · exact hu

include h

theorem rd_reportWith : rd (reportWith more b s src loc d) a = rd s a := by
  unfold reportWith
  split
  · rfl
  rename_i hs
  have hs : srcAssigned src = true := by
    simp only [Bool.or_eq_true, Bool.not_eq_true', not_or, Bool.not_eq_false] at hs
    exact hs.2
  extract_lets r u
  have hu : rd u a = rd s a := rd_mergeLatched h hs _
  split
  · split
    · rw [rd_serviceReaction hm]
      exact hu
    · exact hu
  · rfl

theorem rd_dramFailedWith {i : Nat} (hi : i < 24) : rd (dramFailedWith more s i) a = rd s a := by
  unfold dramFailedWith
  split
  · rfl
  · extract_lets u f
    have hu : rd u a = rd s a := by
      simp only [u]
      rw [rd_pauseWithdraw, rd_dramLost h hi, rd_setF_ne]
      unfold OffReport at h
      show a ≠ 0x1600004 + 0x10000 * i
      omega
    clear_value u
    rw [rd_reportWith hm h]
    exact hu
end

theorem rd_dramFailed (h : OffReport a) {i : Nat} (hi : i < 24) : rd (dramFailed s i) a = rd s a :=
  rd_dramFailedWith (fun _ _ hj => rd_dramFailedWith (fun _ _ _ => rfl) h hj) h hi

/-- A report leaves every register outside the collector and the DRAM interfaces as it was. -/
theorem rd_report (h : OffReport a) : rd (report s src loc d) a = rd s a := rd_reportWith (fun _ _ hi => rd_dramFailed h hi) h

theorem rd_levelOn (h : OffReport a) : rd (levelOn s src loc d) a = rd s a := by
  unfold levelOn
  split
  · rfl
  · exact rd_report h

theorem rd_levelOff : rd (levelOff s src) a = rd s a := rfl

theorem rd_levelMore (h : OffReport a) : rd (levelMore s src loc d) a = rd s a := by
  unfold levelMore
  split
  · exact rd_report h
  · exact rd_levelOn h

theorem rd_levelIs (h : OffReport a) : rd (levelIs b s src loc d) a = rd s a := by
  unfold levelIs
  split
  · exact rd_levelOn h
  · rfl

theorem rd_enterTop (t : TopState) : rd (enterTop s t) a = rd s a := rfl

theorem rd_perfAdd (g e n : Nat) : rd (perfAdd s g e n) a = rd s a := rd_congr (perfAdd_regs ..) a

theorem rd_perf (g e : Nat) : rd (perf s g e) a = rd s a := rd_congr (perf_regs ..) a

theorem rd_perfTenant (t e n : Nat) : rd (perfTenant s t e n) a = rd s a := rd_congr (perfTenant_regs ..) a

theorem rd_signal (f r : Nat) (c : Bool) : rd (signal s f r c) a = rd s a := by
  unfold signal
  dsimp only
  split <;> rfl

theorem rd_pushEntry (h : OffHost a) {f r : Nat} (hf : f < 256) (hr : r < 64) (x : Bytes) (c : Bool) : rd (pushEntry s f r x c) a = rd s a := by
  unfold pushEntry
  extract_lets k q o _ u p
  rw [rd_signal, rd_ringWb, rd_setF_ne]
  · rfl
  · unfold OffHost at h
    show a ≠ Reg.pageBase f + 0xC + 0x20 * r
    unfold Reg.pageBase
    split <;> omega

theorem rd_hostEvent (h : OffHost a) {f : Nat} (hf : f < 256) (k : Nat) (x : Bytes) (c : Bool) : rd (hostEvent s f k x c) a = rd s a := by
  unfold hostEvent
  split
  · rw [rd_perf, rd_pushEntry h hf (by omega)]
  · refine rd_bump_ne _ _ _ ?_
    unfold OffHost at h
    show a ≠ 0x0600040 + 0x4 * 7
    omega

theorem rd_pwfTarget (h : OffHost a) (x y : Nat) : rd (pwfTarget s x y) a = rd s a := by
  have h' := h
  unfold OffHost at h'
  unfold pwfTarget pwfD
  simp only [if_pos]
  rw [rd_hostEvent h (by omega), rd_perf]
  unfold pwfLog
  dsimp only
  split
  · rw [rd_setF_ne, rd_wrWords_ne]
    · simp only [Reg.HIF_PWF_LOG, List.length_cons, List.length_nil]; omega
    · show a ≠ 0x0600010; omega
  · rw [rd_satBump_ne]
    show a ≠ 0x0600010
    omega

end
end Sys2Proof.Machine
end

