-- ==== Sys2Proof/Laws/Causes.lean ====
section
/-! SUPPORT. The causes of level sources and the latches of reports: what raising and ending a level leaves in the collector. -/

namespace Sys2Proof.Machine

section
variable {s : State} {src loc d k : Nat} {b : Bool}

theorem dramLost_flt (i : Nat) : (dramLost s i).flt = s.flt := by
  unfold dramLost
  extract_lets _ _ u
  have hu : u.flt = s.flt := setF_flt ..
  clear_value u
  exact hu

theorem wr_flt_all (n : Nat) (l : List Word) : (wrWords s n l).flt = s.flt := by
  induction l generalizing s n with
  | nil => rfl
  | cons w l ih => rw [wrWords, ih, wr_flt]

theorem firstPut_cause (n : Nat) (l : List Word) : (firstPut s n src l).flt.cause = s.flt.cause := by
  unfold firstPut
  rw [setB_flt, wr_flt_all]

theorem firstNote_cause (n : Nat) (l : List Word) : (firstNote s n src l).flt.cause = s.flt.cause := by
  unfold firstNote
  split
  · split <;> rfl
  · rfl

theorem captureFirst_cause (y : Report) (l : List Word) : (captureFirst s src y l).flt.cause = s.flt.cause := by
  unfold captureFirst
  split
  · rfl
  · extract_lets u v
    have hu : u.flt.cause = s.flt.cause := firstNote_cause ..
    split
    · rw [firstPut_cause, hu]
    · exact hu

theorem srcCount_flt : (srcCount s src).flt = s.flt := by
  unfold srcCount
  split
  · exact setB_flt ..
  · exact satBump_flt ..

theorem mergeLatched_cause (y : Report) : (mergeLatched s src y).flt.cause = s.flt.cause := by
  unfold mergeLatched
  extract_lets u
  have hu : u.flt.cause = s.flt.cause := by
    simp only [u]
    unfold setStatus
    split <;> simp [srcCount_flt]
  rw [captureFirst_cause, hu]

section
variable {more : State → Nat → State} (hm : ∀ s i, s.causeOn k = true → (more s i).causeOn k = true) (h : s.causeOn k = true)
include hm h

/-- A report keeps every cause. -/
theorem cause_reportWith : (reportWith more b s src loc d).causeOn k = true := by
  unfold reportWith
  split
  · exact h
  extract_lets r u
  have hu : u.causeOn k = true := by
    unfold State.causeOn
    rw [mergeLatched_cause]
    exact h
  split
  · split
    · unfold serviceReaction
      extract_lets sl _ v
      have hv : v.causeOn k = true := by
        simp only [v]
        split <;> exact hu
      split
      · exact hm _ _ (hm _ _ hv)
      · exact hv
    · exact hu
  · exact h

theorem cause_dramFailedWith (i : Nat) : (dramFailedWith more s i).causeOn k = true := by
  unfold dramFailedWith
  split
  · exact h
  · have hp : ∀ t : State, (pauseWithdraw t i).flt = t.flt := fun _ => rfl
    extract_lets u
    have hu : u.causeOn k = true := by
      unfold State.causeOn
      simp only [u]
      rw [hp, dramLost_flt, setF_flt]
      exact h
    clear_value u
    refine cause_reportWith hm ?_
    by_cases hk : k = Src.drcFail i
    · simp [State.causeOn, hk, mfind_mset_self]
    · simp only [State.causeOn, mfind_mset_ne _ _ hk]
      exact hu
end

theorem cause_dramFailed (i : Nat) (h : s.causeOn k = true) : (dramFailed s i).causeOn k = true :=
  cause_dramFailedWith (fun _ j hj => cause_dramFailedWith (fun _ _ hi => hi) hj j) h i

theorem cause_report (h : s.causeOn k = true) : (report s src loc d).causeOn k = true := cause_reportWith (fun _ i hi => cause_dramFailed i hi) h

/-- A level that begins is in force. -/
theorem cause_levelOn : (levelOn s src loc d).causeOn src = true := by
  unfold levelOn
  split
  · assumption
  · refine cause_report ?_
    simp [State.causeOn, mfind_mset_self]

/-- A level that ends is not. -/
theorem cause_levelOff : (levelOff s src).causeOn src = false := by simp [State.causeOn, levelOff]

theorem cause_levelOff_ne (h : k ≠ src) : (levelOff s src).causeOn k = s.causeOn k := by simp [State.causeOn, levelOff, mfind_merase_ne _ h]

theorem cause_levelIs : (levelIs b s src loc d).causeOn src = b := by
  unfold levelIs
  cases b
  · exact cause_levelOff
  · exact cause_levelOn

end
end Sys2Proof.Machine
end

