-- ==== Sys2Proof/Laws/FrameSettle.lean ====
section
/-! SUPPORT. The frame of settle: what follows a change of conditions on the ports and the fabric groups leaves alone. -/

namespace Sys2Proof.Machine

/-- The state but for what settle touches. -/
def State.offSettle (s : State) : State :=
  { s with regs := [], flt := {}, drm := {}, qd := {}, lin := {}, fab := {}, cnt := {}, slc := { s.slc with due := [], running := [] }, tst := { s.tst with loop := [] } }

theorem OffSettle.offReport {a : Nat} (h : OffSettle a) : OffReport a := by unfold OffSettle at h; unfold OffReport; omega

theorem foldl_same_mem {β γ : Type} (p : State → γ) (h : State → β → State) (m : List β) (hp : ∀ a, ∀ y ∈ m, p (h a y) = p a) : ∀ a, p (m.foldl h a) = p a := by
  induction m with
  | nil => intro a; rfl
  | cons y m ih =>
    intro a
    rw [List.foldl_cons, ih (fun a z hz => hp a z (List.mem_cons_of_mem _ hz)), hp a y List.mem_cons_self]

section
variable (s t : State) (p g l n k x : Nat) (b : Bool) (f : Fld) (w : Word)

theorem offSettle_of_offReport {s t : State} (h : t.offReport = s.offReport) : t.offSettle = s.offSettle := by
  have e := congrArg State.offSettle h
  exact e
theorem wr_offSettle : (wr s k w).offSettle = s.offSettle := (rfl)
theorem setF_offSettle : (setF s f n).offSettle = s.offSettle := (rfl)
theorem setB_offSettle : (setB s f b).offSettle = s.offSettle := (rfl)
theorem bumpN_offSettle : (bumpN s k n).offSettle = s.offSettle := by unfold bumpN; split <;> rfl
theorem perfAdd_offSettle (e : Nat) : (perfAdd s g e n).offSettle = s.offSettle := by unfold perfAdd; split <;> rfl
theorem perf_offSettle : (perf s g n).offSettle = s.offSettle := perfAdd_offSettle ..
theorem levelIs_offSettle (d : Nat) : (levelIs b s k n d).offSettle = s.offSettle := offSettle_of_offReport (levelIs_offReport ..)
theorem qdPut_offSettle (y : QdSt) : ({ s with qd := y } : State).offSettle = s.offSettle := (rfl)
theorem fabPut_offSettle (y : FabSt) : ({ s with fab := y } : State).offSettle = s.offSettle := (rfl)
theorem linPut_offSettle (y : LinSt) : ({ s with lin := y } : State).offSettle = s.offSettle := (rfl)
theorem loopPut_offSettle (y : Bytes) : (loopPut s k y).offSettle = s.offSettle := (rfl)
theorem loopDrop_offSettle : (loopDrop s k).offSettle = s.offSettle := (rfl)
theorem ballsCarry_offSettle (y : Bytes) : (ballsCarry s p y).offSettle = s.offSettle := (rfl)
theorem lineTx_offSettle (y : Bytes) : (lineTx s p y).offSettle = s.offSettle := by
  unfold lineTx
  split <;> simp only [loopPut_offSettle, ballsCarry_offSettle]
theorem sendLine_offSettle (y : Bytes) : (sendLine s p y).offSettle = s.offSettle := by unfold sendLine; rw [perfAdd_offSettle, perf_offSettle, lineTx_offSettle]
theorem sendXoff_offSettle : (sendXoff s p n).offSettle = s.offSettle := by
  unfold sendXoff; dsimp only; repeat' split
  all_goals first | rfl | rw [perf_offSettle, sendLine_offSettle]
theorem faultShow_offSettle : (faultShow s p).offSettle = s.offSettle := by
  unfold faultShow; dsimp only; split
  · rfl
  · rw [setB_offSettle, setB_offSettle]
theorem xoffPay_offSettle : (xoffPay s p).offSettle = s.offSettle := by
  unfold xoffPay; split
  · rw [sendXoff_offSettle, linPut_offSettle]
  · rfl
theorem linkUpdate_offSettle : (linkUpdate s p).offSettle = s.offSettle := by unfold linkUpdate; rw [xoffPay_offSettle, faultShow_offSettle]
theorem discardStaged_offSettle : (discardStaged s p).offSettle = s.offSettle := by unfold discardStaged; dsimp only; rw [bumpN_offSettle]; exact qdPut_offSettle ..
theorem trainStop_offSettle : (trainStop s p).offSettle = s.offSettle := (rfl)
theorem trainStart_offSettle : (trainStart s p).offSettle = s.offSettle := by unfold trainStart; dsimp only; rw [linPut_offSettle, setB_offSettle]
theorem txEnter_offSettle : (txEnter s p n k).offSettle = s.offSettle := by
  unfold txEnter
  extract_lets a _ b
  have hb : b.offSettle = s.offSettle := by
    simp only [b, a]
    split
    · rw [linPut_offSettle, setF_offSettle]
    · rw [discardStaged_offSettle, linPut_offSettle, setF_offSettle]
  clear_value b
  repeat' split
  all_goals simp only [loopDrop_offSettle, trainStop_offSettle, trainStart_offSettle, hb]
theorem txUpdate_offSettle : (txUpdate s p).offSettle = s.offSettle := by
  unfold txUpdate
  dsimp only
  rw [linkUpdate_offSettle]
  repeat' split
  all_goals simp only [txEnter_offSettle, trainStop_offSettle]
theorem txSettle_offSettle : (txSettle s).offSettle = s.offSettle := foldl_same State.offSettle _ txUpdate_offSettle _ s
theorem putRx_offSettle (y : RxLane) : (putRx s g l y).offSettle = s.offSettle := (rfl)
theorem laneEmpty_offSettle : (laneEmpty s g l).offSettle = s.offSettle := by
  unfold laneEmpty
  dsimp only
  split
  · rfl
  · rw [fabPut_offSettle]
    split
    · rfl
    · rw [putRx_offSettle, bumpN_offSettle]
theorem tstLoop_offSettle (y : FabSt) (z : NMap (List Bytes)) : ({ s with fab := y, tst := { s.tst with loop := z } } : State).offSettle = s.offSettle := (rfl)
theorem fabTxUpdate_offSettle : (fabTxUpdate s g).offSettle = s.offSettle := by
  unfold fabTxUpdate; dsimp only; repeat' split
  all_goals simp only [tstLoop_offSettle, fabPut_offSettle, setF_offSettle]
theorem fabTrainStop_offSettle : (fabTrainStop s g).offSettle = s.offSettle := by unfold fabTrainStop; dsimp only; split <;> rfl
theorem pmDefect_offSettle : (pmDefect s k).offSettle = s.offSettle := (rfl)
theorem groupLevels_offSettle : (groupLevels s g).offSettle = s.offSettle := by
  unfold groupLevels; dsimp only; simp only [levelIs_offSettle, setB_offSettle]
  split
  · exact pmDefect_offSettle ..
  · rfl
theorem groupFollow_offSettle : (groupFollow s g).offSettle = s.offSettle := by
  unfold groupFollow
  dsimp only
  have h : ((List.range 28).foldl (fun a l => laneEmpty a g l) (fabTxUpdate (fabTrainStop s g) g)).offSettle = s.offSettle := by
    rw [foldl_same State.offSettle _ (fun a y => laneEmpty_offSettle a g y), fabTxUpdate_offSettle, fabTrainStop_offSettle]
  split
  · rw [setB_offSettle, groupLevels_offSettle, h]
  · rw [groupLevels_offSettle, h]
theorem setWtr_offSettle (y : Option (Nat × Nat)) : (setWtr s y).offSettle = s.offSettle := (rfl)
theorem wtrFollow_offSettle : (wtrFollow s t).offSettle = t.offSettle := by
  unfold wtrFollow; repeat' split
  all_goals simp only [setWtr_offSettle]
theorem settle_offSettle : (settle s t).offSettle = t.offSettle := by
  unfold settle fabFollow
  rw [wtrFollow_offSettle, foldl_same State.offSettle _ groupFollow_offSettle, txSettle_offSettle]
end

theorem hiLatch_of_offSettle {s t : State} (h : t.offSettle = s.offSettle) : t.hiLatch = s.hiLatch := by have e := congrArg State.hiLatch h; exact e
theorem loHeld_of_offSettle {s t : State} (h : t.offSettle = s.offSettle) : t.loHeld = s.loHeld := by have e := congrArg State.loHeld h; exact e
theorem top_of_offSettle {s t : State} (h : t.offSettle = s.offSettle) : t.top = s.top := by have e := congrArg State.top h; exact e
theorem tick_of_offSettle {s t : State} (h : t.offSettle = s.offSettle) : t.tick = s.tick := by have e := congrArg State.tick h; exact e
theorem stateTick_of_offSettle {s t : State} (h : t.offSettle = s.offSettle) : t.stateTick = s.stateTick := by have e := congrArg State.stateTick h; exact e
theorem ptp_of_offSettle {s t : State} (h : t.offSettle = s.offSettle) : t.ptp = s.ptp := by have e := congrArg State.ptp h; exact e
theorem otp_of_offSettle {s t : State} (h : t.offSettle = s.offSettle) : t.otp = s.otp := by have e := congrArg State.otp h; exact e
theorem nvm_of_offSettle {s t : State} (h : t.offSettle = s.offSettle) : t.nvm = s.nvm := by have e := congrArg State.nvm h; exact e
theorem vbat_of_offSettle {s t : State} (h : t.offSettle = s.offSettle) : t.vbat = s.vbat := by have e := congrArg State.vbat h; exact e
theorem boot_of_offSettle {s t : State} (h : t.offSettle = s.offSettle) : t.boot = s.boot := by have e := congrArg State.boot h; exact e
theorem pwr_of_offSettle {s t : State} (h : t.offSettle = s.offSettle) : t.pwr = s.pwr := by have e := congrArg State.pwr h; exact e
theorem hif_of_offSettle {s t : State} (h : t.offSettle = s.offSettle) : t.hif = s.hif := by have e := congrArg State.hif h; exact e
theorem scr_of_offSettle {s t : State} (h : t.offSettle = s.offSettle) : t.scr = s.scr := by have e := congrArg State.scr h; exact e
theorem slc_drain_of_offSettle {s t : State} (h : t.offSettle = s.offSettle) : t.slc.drain = s.slc.drain := by have e := congrArg (fun u => u.slc.drain) h; exact e
theorem slc_flushes_of_offSettle {s t : State} (h : t.offSettle = s.offSettle) : t.slc.flushes = s.slc.flushes := by have e := congrArg (fun u => u.slc.flushes) h; exact e
theorem slc_unjoined_of_offSettle {s t : State} (h : t.offSettle = s.offSettle) : t.slc.unjoined = s.slc.unjoined := by have e := congrArg (fun u => u.slc.unjoined) h; exact e
theorem tst_bscan_of_offSettle {s t : State} (h : t.offSettle = s.offSettle) : t.tst.bscan = s.tst.bscan := by have e := congrArg (fun u => u.tst.bscan) h; exact e
theorem tst_pins_of_offSettle {s t : State} (h : t.offSettle = s.offSettle) : t.tst.pins = s.tst.pins := by have e := congrArg (fun u => u.tst.pins) h; exact e
theorem tst_dr_of_offSettle {s t : State} (h : t.offSettle = s.offSettle) : t.tst.dr = s.tst.dr := by have e := congrArg (fun u => u.tst.dr) h; exact e
theorem tst_probes_of_offSettle {s t : State} (h : t.offSettle = s.offSettle) : t.tst.probes = s.tst.probes := by have e := congrArg (fun u => u.tst.probes) h; exact e
theorem tst_probeSeq_of_offSettle {s t : State} (h : t.offSettle = s.offSettle) : t.tst.probeSeq = s.tst.probeSeq := by have e := congrArg (fun u => u.tst.probeSeq) h; exact e
theorem rdData_of_offSettle {s t : State} (h : t.offSettle = s.offSettle) : t.rdData = s.rdData := by have e := congrArg State.rdData h; exact e
theorem clk_of_offSettle {s t : State} (h : t.offSettle = s.offSettle) : t.clk = s.clk := by have e := congrArg State.clk h; exact e
theorem upd_of_offSettle {s t : State} (h : t.offSettle = s.offSettle) : t.upd = s.upd := by have e := congrArg State.upd h; exact e
theorem ing_of_offSettle {s t : State} (h : t.offSettle = s.offSettle) : t.ing = s.ing := by have e := congrArg State.ing h; exact e
theorem tab_of_offSettle {s t : State} (h : t.offSettle = s.offSettle) : t.tab = s.tab := by have e := congrArg State.tab h; exact e
theorem sig_of_offSettle {s t : State} (h : t.offSettle = s.offSettle) : t.sig = s.sig := by have e := congrArg State.sig h; exact e
theorem pair_of_offSettle {s t : State} (h : t.offSettle = s.offSettle) : t.pair = s.pair := by have e := congrArg State.pair h; exact e
theorem free_of_offSettle {s t : State} (h : t.offSettle = s.offSettle) : t.free = s.free := by have e := congrArg State.free h; exact e
theorem pending_of_offSettle {s t : State} (h : t.offSettle = s.offSettle) : t.pending = s.pending := by have e := congrArg State.pending h; exact e
section
variable (s t : State)
@[simp] theorem settle_hiLatch : (settle s t).hiLatch = t.hiLatch := hiLatch_of_offSettle (settle_offSettle s t)
@[simp] theorem settle_loHeld : (settle s t).loHeld = t.loHeld := loHeld_of_offSettle (settle_offSettle s t)
@[simp] theorem settle_top : (settle s t).top = t.top := top_of_offSettle (settle_offSettle s t)
@[simp] theorem settle_tick : (settle s t).tick = t.tick := tick_of_offSettle (settle_offSettle s t)
@[simp] theorem settle_stateTick : (settle s t).stateTick = t.stateTick := stateTick_of_offSettle (settle_offSettle s t)
@[simp] theorem settle_ptp : (settle s t).ptp = t.ptp := ptp_of_offSettle (settle_offSettle s t)
@[simp] theorem settle_otp : (settle s t).otp = t.otp := otp_of_offSettle (settle_offSettle s t)
@[simp] theorem settle_nvm : (settle s t).nvm = t.nvm := nvm_of_offSettle (settle_offSettle s t)
@[simp] theorem settle_vbat : (settle s t).vbat = t.vbat := vbat_of_offSettle (settle_offSettle s t)
@[simp] theorem settle_boot : (settle s t).boot = t.boot := boot_of_offSettle (settle_offSettle s t)
@[simp] theorem settle_pwr : (settle s t).pwr = t.pwr := pwr_of_offSettle (settle_offSettle s t)
@[simp] theorem settle_hif : (settle s t).hif = t.hif := hif_of_offSettle (settle_offSettle s t)
@[simp] theorem settle_scr : (settle s t).scr = t.scr := scr_of_offSettle (settle_offSettle s t)
@[simp] theorem settle_slc_drain : (settle s t).slc.drain = t.slc.drain := slc_drain_of_offSettle (settle_offSettle s t)
@[simp] theorem settle_slc_flushes : (settle s t).slc.flushes = t.slc.flushes := slc_flushes_of_offSettle (settle_offSettle s t)
@[simp] theorem settle_slc_unjoined : (settle s t).slc.unjoined = t.slc.unjoined := slc_unjoined_of_offSettle (settle_offSettle s t)
@[simp] theorem settle_tst_bscan : (settle s t).tst.bscan = t.tst.bscan := tst_bscan_of_offSettle (settle_offSettle s t)
@[simp] theorem settle_tst_pins : (settle s t).tst.pins = t.tst.pins := tst_pins_of_offSettle (settle_offSettle s t)
@[simp] theorem settle_tst_dr : (settle s t).tst.dr = t.tst.dr := tst_dr_of_offSettle (settle_offSettle s t)
@[simp] theorem settle_tst_probes : (settle s t).tst.probes = t.tst.probes := tst_probes_of_offSettle (settle_offSettle s t)
@[simp] theorem settle_tst_probeSeq : (settle s t).tst.probeSeq = t.tst.probeSeq := tst_probeSeq_of_offSettle (settle_offSettle s t)
@[simp] theorem settle_rdData : (settle s t).rdData = t.rdData := rdData_of_offSettle (settle_offSettle s t)
@[simp] theorem settle_clk : (settle s t).clk = t.clk := clk_of_offSettle (settle_offSettle s t)
@[simp] theorem settle_upd : (settle s t).upd = t.upd := upd_of_offSettle (settle_offSettle s t)
@[simp] theorem settle_ing : (settle s t).ing = t.ing := ing_of_offSettle (settle_offSettle s t)
@[simp] theorem settle_tab : (settle s t).tab = t.tab := tab_of_offSettle (settle_offSettle s t)
@[simp] theorem settle_sig : (settle s t).sig = t.sig := sig_of_offSettle (settle_offSettle s t)
@[simp] theorem settle_pair : (settle s t).pair = t.pair := pair_of_offSettle (settle_offSettle s t)
@[simp] theorem settle_free : (settle s t).free = t.free := free_of_offSettle (settle_offSettle s t)
@[simp] theorem settle_pending : (settle s t).pending = t.pending := pending_of_offSettle (settle_offSettle s t)
end

section
variable {s t : State} {a p g l n k x : Nat}

theorem rd_lineTx (y : Bytes) : rd (lineTx s p y) a = rd s a := by unfold lineTx; split <;> rfl
theorem rd_sendLine (y : Bytes) : rd (sendLine s p y) a = rd s a := by unfold sendLine; rw [rd_perfAdd, rd_perf, rd_lineTx]
theorem rd_sendXoff : rd (sendXoff s p n) a = rd s a := by
  unfold sendXoff; dsimp only; repeat' split
  all_goals first | rfl | rw [rd_perf, rd_sendLine]
theorem rd_linkUpdate (h : OffSettle a) (hp : p < 160) : rd (linkUpdate s p) a = rd s a := by
  unfold OffSettle at h
  have k : a ≠ Reg.LIN_PORT_STAT p := by unfold Reg.LIN_PORT_STAT; omega
  have f : rd (faultShow s p) a = rd s a := by
    unfold faultShow; dsimp only; split
    · rfl
    · rw [rd_setB_ne _ _ _ _ k, rd_setB_ne _ _ _ _ k]
  unfold linkUpdate xoffPay
  split
  · rw [rd_sendXoff]; exact f
  · exact f
theorem rd_discardStaged (h : OffSettle a) (hp : p < 160) : rd (discardStaged s p) a = rd s a := by
  unfold OffSettle at h
  unfold discardStaged; dsimp only
  rw [rd_bumpN_ne _ _ _ _ (by unfold Reg.LIN_EVT_CNT; omega)]; rfl
theorem rd_txEnter (h : OffSettle a) (hp : p < 160) : rd (txEnter s p n k) a = rd s a := by
  have kp : a ≠ Reg.LIN_PORT_STAT p := by unfold OffSettle at h; unfold Reg.LIN_PORT_STAT; omega
  unfold txEnter
  extract_lets u _ v
  have hu : rd u a = rd s a := rd_setF_ne _ (Reg.LIN_PORT_STAT_TX_STATE p) _ _ kp
  have hv : rd v a = rd s a := by
    simp only [v]
    split
    · exact hu
    · rw [rd_discardStaged h hp]; exact hu
  clear_value v
  have kl : ∀ (w : State) (y : LinSt), rd { w with lin := y } a = rd w a := fun _ _ => rfl
  repeat' split
  · exact hv
  · unfold trainStart
    rw [kl, rd_setB_ne _ (Reg.LIN_PORT_STAT_LT_DONE p) _ _ kp, hv]
  · exact hv
theorem rd_txUpdate (h : OffSettle a) (hp : p < 160) : rd (txUpdate s p) a = rd s a := by
  unfold txUpdate
  dsimp only
  rw [rd_linkUpdate h hp]
  repeat' split
  all_goals first | rfl | (rw [rd_txEnter h hp]; rfl) | exact rd_txEnter h hp
theorem rd_txSettle (h : OffSettle a) : rd (txSettle s) a = rd s a :=
  foldl_same_mem (fun u => rd u a) _ _ (fun _ _ hy => rd_txUpdate h (List.mem_range.1 hy)) s
theorem rd_laneEmpty (h : OffSettle a) (hg : g < 8) (hl : l < 28) : rd (laneEmpty s g l) a = rd s a := by
  unfold OffSettle at h
  unfold laneEmpty
  dsimp only
  split
  · rfl
  · show rd (if _ then _ else _) a = _
    split
    · rfl
    · unfold putRx
      rw [rd_setF_ne _ _ _ _ (by show a ≠ 0x1401000 + 0x20000 * g + 0x100 * l; omega)]
      show rd (bumpN _ _ _) a = _
      rw [rd_bumpN_ne _ _ _ _ (by unfold Reg.FAB_LANE_CNT; omega)]
theorem rd_fabTxUpdate (h : OffSettle a) (hg : g < 8) : rd (fabTxUpdate s g) a = rd s a := by
  have k : a ≠ (Reg.FAB_GRP_STAT_TX_STATE g).reg := by unfold OffSettle at h; show a ≠ 0x140000C + 0x20000 * g; omega
  unfold fabTxUpdate; dsimp only; repeat' split
  · rfl
  all_goals exact rd_setF_ne _ _ _ _ k
theorem rd_groupLevels (h : OffSettle a) (hg : g < 8) : rd (groupLevels s g) a = rd s a := by
  have k : a ≠ Reg.FAB_GRP_STAT g := by unfold OffSettle at h; unfold Reg.FAB_GRP_STAT; omega
  unfold groupLevels; dsimp only
  rw [rd_levelIs h.offReport, rd_levelIs h.offReport, rd_setB_ne _ _ _ _ k, rd_setB_ne _ _ _ _ k]
  split <;> rfl
theorem rd_groupFollow (h : OffSettle a) (hg : g < 8) : rd (groupFollow s g) a = rd s a := by
  have e : rd ((List.range 28).foldl (fun u l => laneEmpty u g l) (fabTxUpdate (fabTrainStop s g) g)) a = rd s a := by
    rw [foldl_same_mem (fun u => rd u a) (fun u l => laneEmpty u g l) _ (fun _ _ hy => rd_laneEmpty h hg (List.mem_range.1 hy)), rd_fabTxUpdate h hg]
    unfold fabTrainStop; dsimp only; split <;> rfl
  unfold groupFollow
  dsimp only
  split
  · rw [rd_setB_ne _ _ _ _ (by unfold OffSettle at h; show a ≠ 0x1400014 + 0x20000 * g; omega), rd_groupLevels h hg, e]
  · rw [rd_groupLevels h hg, e]
theorem rd_wtrFollow (h : OffSettle a) : rd (wtrFollow s t) a = rd t a := by
  have k : a ≠ Reg.FAB_PROT_FLAGS := by unfold OffSettle at h; unfold Reg.FAB_PROT_FLAGS; omega
  unfold wtrFollow; repeat' split
  all_goals first | rfl | exact rd_setB_ne _ Reg.FAB_PROT_FLAGS_WTR_RUN _ _ k

/-- Settle leaves every register outside the line ports, the fabric, the collector and the DRAM interfaces as it was. -/
theorem rd_settle (h : OffSettle a) : rd (settle s t) a = rd t a := by
  unfold settle fabFollow
  rw [rd_wtrFollow h, foldl_same_mem (fun u => rd u a) groupFollow _ (fun _ _ hy => rd_groupFollow h (List.mem_range.1 hy)), rd_txSettle h]
end

end Sys2Proof.Machine
end

