-- ==== Sys2Proof/Laws/FramePair.lean ====
section
/-! SUPPORT. What follows a change of role leaves the role alone. -/

namespace Sys2Proof.Machine

theorem role_of_rd {s t : State} (h : rd t Reg.PAIR_STAT = rd s Reg.PAIR_STAT) : role t = role s := by
  show fget (rd t Reg.PAIR_STAT) Reg.PAIR_STAT_ROLE.lo Reg.PAIR_STAT_ROLE.len = fget (rd s Reg.PAIR_STAT) Reg.PAIR_STAT_ROLE.lo Reg.PAIR_STAT_ROLE.len
  rw [h]

theorem role_setB_beside (s : State) (f : Fld) (b : Bool) (h : f.reg ≠ Reg.PAIR_STAT ∨ 2 ≤ f.lo) : role (setB s f b) = role s := by
  unfold role setB
  by_cases e : Reg.PAIR_STAT_ROLE.reg = f.reg
  · refine getF_setF_beside _ _ _ _ (by decide) (Or.inl ?_)
    rcases h with h | h
    · exact absurd e.symm h
    · exact h
  · exact getF_setF_reg _ _ _ _ e

theorem role_levelIs (s : State) (b : Bool) (x loc d : Nat) : role (levelIs b s x loc d) = role s :=
  role_of_rd (rd_levelIs (by unfold OffReport; decide))

theorem role_pairShow (s : State) : role (pairShow s) = role s := by
  unfold pairShow
  dsimp only
  rw [role_levelIs, role_setB_beside _ _ _ (Or.inr (by decide)), role_levelIs, role_levelIs, role_levelIs, role_levelIs]

theorem role_waitShow (s : State) : role (waitShow s) = role s := role_setB_beside _ _ _ (Or.inl (by decide))

theorem role_replayStart (s : State) : role (replayStart s) = role s := by
  have h := role_setB_beside s Reg.PAIR_STAT_RESYNC_RUN true (Or.inr (by decide))
  exact h

theorem role_resyncAsk (s : State) : role (resyncAsk s) = role s := by
  unfold resyncAsk
  split
  · have h := role_setB_beside s Reg.PAIR_STAT_RESYNC_RUN true (Or.inr (by decide))
    exact h
  · rfl

theorem role_settle (s t : State) : role (settle s t) = role t :=
  role_of_rd (rd_settle (by unfold OffSettle; decide))

/-- The role that a role change enters is the role after it, when nothing waits for a relock. -/
theorem role_roleFollow (s t : State) (h : t.clk.waiting = []) : role (roleFollow s t) = role t := by
  have e : relockRelease t = t := by unfold relockRelease; rw [h]; simp
  unfold roleFollow
  dsimp only
  rw [e]
  split
  · rw [role_replayStart, role_pairShow, role_settle, role_waitShow]
  · rw [role_resyncAsk, role_pairShow, role_settle, role_waitShow]

theorem role_roleEnter (s : State) (r : Nat) (b : Bool) (hr : r < 4) (h : s.clk.waiting = []) : role (roleEnter s r b) = r := by
  unfold roleEnter
  dsimp only
  rw [role_roleFollow _ _ (by exact h)]
  unfold role
  rw [getF_setF_reg _ _ _ _ (by decide)]
  have e : ∀ u : State, getF { u with pair := s.pair } Reg.PAIR_STAT_ROLE = getF u Reg.PAIR_STAT_ROLE := fun _ => rfl
  refine Eq.trans (b := role (setB (setB (setB (setF s Reg.PAIR_STAT_ROLE r) Reg.PAIR_STAT_SYNC false) Reg.PAIR_STAT_RESYNC_RUN false) Reg.PAIR_STAT_LEASE_VALID b)) rfl ?_
  rw [role_setB_beside _ _ _ (Or.inr (by decide)), role_setB_beside _ _ _ (Or.inr (by decide)), role_setB_beside _ _ _ (Or.inr (by decide))]
  unfold role
  rw [getF_setF_self _ _ _ (by decide)]
  exact Nat.mod_eq_of_lt hr

theorem role_landingAck (s : State) (a b c : Nat) : role (landingAck s a b c) = role s := by
  have h : (landingAck s a b c).regs = s.regs := by rw [landingAck, landingSend]
  exact role_of_rd (rd_congr h _)

/-- A SWITCH makes a standby card active. -/
theorem role_roleMessage_switch (s : State) (e r : Nat) (h : role s = 2) (hw : s.clk.waiting = []) : role (roleMessage s 4 e r) = 1 := by
  simp only [roleMessage, h]
  rw [role_landingAck]
  refine role_roleEnter _ _ _ (by decide) ?_
  split <;> exact hw

end Sys2Proof.Machine
end

