-- ==== Sys2Proof/Laws/Keeps.lean ====
section
/-! SUPPORT. What every meaning keeps (`State.Keeps`), for record updates and control structure: an update that leaves the queue, the identity of the part and the addressed stores alone keeps them. -/

namespace Sys2Proof.Machine

theorem grows_refl (o : Otp) : o.Grows o := ⟨rfl, rfl, rfl, rfl, rfl, List.prefix_rfl, List.prefix_rfl, fun _ e h r => ⟨e, h, r⟩⟩

theorem grows_trans {o p q : Otp} (h : o.Grows p) (g : p.Grows q) : o.Grows q := by
  refine ⟨g.serial.trans h.serial, g.rev.trans h.rev, g.step.trans h.step, g.die0.trans h.die0, g.die1.trans h.die1, h.floorFw.trans g.floorFw, h.floorCfg.trans g.floorCfg, ?_⟩
  intro k e he hr
  obtain ⟨f, hf, hfr⟩ := h.revoked k e he hr
  exact g.revoked k f hf hfr

theorem keeps_refl (s : State) : s.Keeps s := ⟨⟨rfl, grows_refl _⟩, id⟩

theorem keeps_trans {s t u : State} (h : s.Keeps t) (g : t.Keeps u) : s.Keeps u :=
  ⟨⟨g.1.1.trans h.1.1, grows_trans h.1.2 g.1.2⟩, g.2 ∘ h.2⟩

/-- A state with the same queue, an OTP that only grew, and canonical stores where the old ones are canonical. -/
theorem keeps_of {s0 s t : State} (h : s0.Keeps s) (hp : t.pending = s.pending) (ho : s.otp.Grows t.otp) (hc : s.Canon → t.Canon) : s0.Keeps t :=
  keeps_trans h ⟨⟨hp, ho⟩, hc⟩

/-- A state with the same queue, OTP and stores. -/
theorem keeps_same {s0 s t : State} (h : s0.Keeps s) (hp : t.pending = s.pending) (ho : t.otp = s.otp) (hr : t.regs = s.regs)
    (hw : t.scr.words = s.scr.words) (hd : t.tab.direct = s.tab.direct) : s0.Keeps t := by
  refine keeps_of h hp ?_ ?_
  · rw [ho]
    exact grows_refl _
  · unfold State.Canon
    rw [hr, hw, hd]
    exact id

/-! ## Record updates -/

theorem keeps_mk {s0 s : State} {hiLatch : NMap Word} {loHeld : NMap Word} {top : TopState} {tick : Nat} {stateTick : Nat} {ptp : Ptp} {nvm : NvmSt} {vbat : VbatSt} {boot : BootSt} {pwr : PwrSt} {flt : FltSt} {hif : HifSt} {cnt : CntSt} {slc : SlcSt} {tst : TstSt} {rdData : Nat} {clk : ClkSt} {upd : UpdSt} {lin : LinSt} {ing : IngSt} {sig : SigSt} {qd : QdSt} {pair : PairSt} {fab : FabSt} {drm : DrmSt} {free : Nat}
    : s0.Keeps (State.mk s.regs hiLatch loHeld top tick stateTick ptp s.otp nvm vbat boot pwr flt hif s.scr cnt slc tst rdData clk upd lin ing s.tab sig qd pair fab drm free s.pending) ↔ s0.Keeps s := ⟨fun h => keeps_same h rfl rfl rfl rfl rfl, fun h => keeps_same h rfl rfl rfl rfl rfl⟩

theorem keeps_mk_scr {s0 s : State} {hiLatch : NMap Word} {loHeld : NMap Word} {top : TopState} {tick : Nat} {stateTick : Nat} {ptp : Ptp} {nvm : NvmSt} {vbat : VbatSt} {boot : BootSt} {pwr : PwrSt} {flt : FltSt} {hif : HifSt} {cnt : CntSt} {slc : SlcSt} {tst : TstSt} {rdData : Nat} {clk : ClkSt} {upd : UpdSt} {lin : LinSt} {ing : IngSt} {sig : SigSt} {qd : QdSt} {pair : PairSt} {fab : FabSt} {drm : DrmSt} {free : Nat} {s_err : NMap EccErr} {s_queue : NMap (List ShOp)} {s_bankAt : NMap Nat} {s_held : Option ScrHeld} {s_latch : Option (Nat × Nat × Nat)} {s_region : NMap Nat} {s_spares : NMap Nat} {s_full : Bool} {s_lastCorr : NMap Nat} {s_dueNow : List Nat}
    : s0.Keeps (State.mk s.regs hiLatch loHeld top tick stateTick ptp s.otp nvm vbat boot pwr flt hif (ScrSt.mk s.scr.words s_err s_queue s_bankAt s_held s_latch s_region s_spares s_full s_lastCorr s_dueNow) cnt slc tst rdData clk upd lin ing s.tab sig qd pair fab drm free s.pending) ↔ s0.Keeps s := ⟨fun h => keeps_same h rfl rfl rfl rfl rfl, fun h => keeps_same h rfl rfl rfl rfl rfl⟩

theorem keeps_mk_tab {s0 s : State} {hiLatch : NMap Word} {loHeld : NMap Word} {top : TopState} {tick : Nat} {stateTick : Nat} {ptp : Ptp} {nvm : NvmSt} {vbat : VbatSt} {boot : BootSt} {pwr : PwrSt} {flt : FltSt} {hif : HifSt} {cnt : CntSt} {slc : SlcSt} {tst : TstSt} {rdData : Nat} {clk : ClkSt} {upd : UpdSt} {lin : LinSt} {ing : IngSt} {sig : SigSt} {qd : QdSt} {pair : PairSt} {fab : FabSt} {drm : DrmSt} {free : Nat} {t_lpm4 : NMap Nat} {t_lpm6 : NMap Nat} {t_host : NMap HostEnt} {t_mac : NMap MacEnt} {t_bad : List Nat} {t_trieBad : List (Nat × Nat × Nat)} {t_mbrOwner : NMap Nat} {t_polRem : NMap (Nat × Nat)} {t_bus : List BusMsg} {t_flushes : List Flush}
    : s0.Keeps (State.mk s.regs hiLatch loHeld top tick stateTick ptp s.otp nvm vbat boot pwr flt hif s.scr cnt slc tst rdData clk upd lin ing (TabSt.mk s.tab.direct t_lpm4 t_lpm6 t_host t_mac t_bad t_trieBad t_mbrOwner t_polRem t_bus t_flushes) sig qd pair fab drm free s.pending) ↔ s0.Keeps s := ⟨fun h => keeps_same h rfl rfl rfl rfl rfl, fun h => keeps_same h rfl rfl rfl rfl rfl⟩

theorem keeps_mk_scr_tab {s0 s : State} {hiLatch : NMap Word} {loHeld : NMap Word} {top : TopState} {tick : Nat} {stateTick : Nat} {ptp : Ptp} {nvm : NvmSt} {vbat : VbatSt} {boot : BootSt} {pwr : PwrSt} {flt : FltSt} {hif : HifSt} {cnt : CntSt} {slc : SlcSt} {tst : TstSt} {rdData : Nat} {clk : ClkSt} {upd : UpdSt} {lin : LinSt} {ing : IngSt} {sig : SigSt} {qd : QdSt} {pair : PairSt} {fab : FabSt} {drm : DrmSt} {free : Nat} {s_err : NMap EccErr} {s_queue : NMap (List ShOp)} {s_bankAt : NMap Nat} {s_held : Option ScrHeld} {s_latch : Option (Nat × Nat × Nat)} {s_region : NMap Nat} {s_spares : NMap Nat} {s_full : Bool} {s_lastCorr : NMap Nat} {s_dueNow : List Nat} {t_lpm4 : NMap Nat} {t_lpm6 : NMap Nat} {t_host : NMap HostEnt} {t_mac : NMap MacEnt} {t_bad : List Nat} {t_trieBad : List (Nat × Nat × Nat)} {t_mbrOwner : NMap Nat} {t_polRem : NMap (Nat × Nat)} {t_bus : List BusMsg} {t_flushes : List Flush}
    : s0.Keeps (State.mk s.regs hiLatch loHeld top tick stateTick ptp s.otp nvm vbat boot pwr flt hif (ScrSt.mk s.scr.words s_err s_queue s_bankAt s_held s_latch s_region s_spares s_full s_lastCorr s_dueNow) cnt slc tst rdData clk upd lin ing (TabSt.mk s.tab.direct t_lpm4 t_lpm6 t_host t_mac t_bad t_trieBad t_mbrOwner t_polRem t_bus t_flushes) sig qd pair fab drm free s.pending) ↔ s0.Keeps s := ⟨fun h => keeps_same h rfl rfl rfl rfl rfl, fun h => keeps_same h rfl rfl rfl rfl rfl⟩

theorem keeps_mk_otp {s0 s : State} {hiLatch : NMap Word} {loHeld : NMap Word} {top : TopState} {tick : Nat} {stateTick : Nat} {ptp : Ptp} {nvm : NvmSt} {vbat : VbatSt} {boot : BootSt} {pwr : PwrSt} {flt : FltSt} {hif : HifSt} {cnt : CntSt} {slc : SlcSt} {tst : TstSt} {rdData : Nat} {clk : ClkSt} {upd : UpdSt} {lin : LinSt} {ing : IngSt} {sig : SigSt} {qd : QdSt} {pair : PairSt} {fab : FabSt} {drm : DrmSt} {free : Nat} {o_factory : Nat × Nat} {o_field : Nat × Nat} {o_returned : List (Nat × Nat)}
    : s0.Keeps (State.mk s.regs hiLatch loHeld top tick stateTick ptp (Otp.mk s.otp.serial s.otp.rev s.otp.step s.otp.die0 s.otp.die1 o_factory o_field o_returned s.otp.keys s.otp.floorFw s.otp.floorCfg) nvm vbat boot pwr flt hif s.scr cnt slc tst rdData clk upd lin ing s.tab sig qd pair fab drm free s.pending) ↔ s0.Keeps s := ⟨fun h => keeps_of h rfl ⟨rfl, rfl, rfl, rfl, rfl, List.prefix_rfl, List.prefix_rfl, fun _ e h r => ⟨e, h, r⟩⟩ id, fun h => keeps_of h rfl ⟨rfl, rfl, rfl, rfl, rfl, List.prefix_rfl, List.prefix_rfl, fun _ e h r => ⟨e, h, r⟩⟩ id⟩

/-- The register store may be given up entry by entry. -/
theorem keeps_regs_filter {s0 s t : State} (p : Nat × Word → Bool) (h : s0.Keeps s) (hp : t.pending = s.pending) (ho : t.otp = s.otp) (hr : t.regs = s.regs.filter p)
    (hw : t.scr.words = s.scr.words) (hd : t.tab.direct = s.tab.direct) : s0.Keeps t := by
  refine keeps_of h hp ?_ ?_
  · rw [ho]
    exact grows_refl _
  · unfold State.Canon
    rw [hr, hw, hd]
    exact fun c => ⟨mwf_filter _ _ _ c.1, c.2⟩

/-! ## Control structure -/

theorem keeps_ite {s0 a b : State} {c : Prop} {d : Decidable c} (ha : s0.Keeps a) (hb : s0.Keeps b) : s0.Keeps (@ite _ c d a b) := by split <;> assumption

theorem keeps_dite {s0 : State} {c : Prop} {d : Decidable c} {a : c → State} {b : ¬c → State} (ha : ∀ h, s0.Keeps (a h)) (hb : ∀ h, s0.Keeps (b h)) :
    s0.Keeps (@dite _ c d a b) := by
  split
  · exact ha _
  · exact hb _

theorem keeps_foldl {s0 a : State} {β : Type} {f : State → β → State} {l : List β} (ha : s0.Keeps a) (hf : ∀ b x, s0.Keeps b → s0.Keeps (f b x)) : s0.Keeps (l.foldl f a) := by
  induction l generalizing a with
  | nil => exact ha
  | cons x r ih => exact ih (hf a x ha)

/-- A fold that carries more than the state. -/
theorem keeps_foldl_by {s0 : State} {β γ : Type} {g : γ → State} {f : γ → β → γ} {l : List β} {a : γ} (ha : s0.Keeps (g a)) (hf : ∀ b x, s0.Keeps (g b) → s0.Keeps (g (f b x))) :
    s0.Keeps (g (l.foldl f a)) := by
  induction l generalizing a with
  | nil => exact ha
  | cons x r ih => exact ih (hf a x ha)

theorem keeps_foldl_snd {s0 : State} {β γ : Type} {f : γ × State → β → γ × State} {l : List β} {a : γ × State} (ha : s0.Keeps a.2)
    (hf : ∀ b x, s0.Keeps b.2 → s0.Keeps (f b x).2) : s0.Keeps (l.foldl f a).2 := keeps_foldl_by (g := Prod.snd) ha hf

theorem keeps_foldl_fst {s0 : State} {β γ : Type} {f : State × γ → β → State × γ} {l : List β} {a : State × γ} (ha : s0.Keeps a.1)
    (hf : ∀ b x, s0.Keeps b.1 → s0.Keeps (f b x).1) : s0.Keeps (l.foldl f a).1 := keeps_foldl_by (g := Prod.fst) ha hf

/-! ## Answers that may be absent -/

/-- The state that an answer carries, if there is one, is kept. -/
structure State.KeepsO (s : State) (o : Option State) : Prop where
  of : ∀ t, o = some t → s.Keeps t

structure State.KeepsP {α : Type} (s : State) (o : Option (α × State)) : Prop where
  of : ∀ x, o = some x → s.Keeps x.2

structure State.KeepsT {α β : Type} (s : State) (o : Option (α × β × State)) : Prop where
  of : ∀ x, o = some x → s.Keeps x.2.2


theorem keepsO_none {s : State} : s.KeepsO none := ⟨fun _ h => nomatch h⟩
theorem keepsO_some {s t : State} (h : s.Keeps t) : s.KeepsO (some t) := ⟨fun _ e => by cases e; exact h⟩
theorem keepsP_none {s : State} {α : Type} : s.KeepsP (none : Option (α × State)) := ⟨fun _ h => nomatch h⟩
theorem keepsP_some {s : State} {α : Type} {x : α × State} (h : s.Keeps x.2) : s.KeepsP (some x) := ⟨fun _ e => by cases e; exact h⟩
theorem keepsO_ite {s : State} {a b : Option State} {c : Prop} {d : Decidable c} (ha : s.KeepsO a) (hb : s.KeepsO b) : s.KeepsO (@ite _ c d a b) := by split <;> assumption
theorem keepsO_map {s : State} {β : Type} {o : Option β} {f : β → State} (h : ∀ b, s.Keeps (f b)) : s.KeepsO (o.map f) :=
  ⟨fun _ e => by obtain ⟨b, _, rfl⟩ := Option.map_eq_some_iff.1 e; exact h b⟩
theorem keepsP_map {s : State} {α β : Type} {o : Option β} {f : β → α × State} (h : ∀ b, s.Keeps (f b).2) : s.KeepsP (o.map f) :=
  ⟨fun _ e => by obtain ⟨b, _, rfl⟩ := Option.map_eq_some_iff.1 e; exact h b⟩
theorem keepsT_map {s : State} {α β γ : Type} {o : Option γ} {f : γ → α × β × State} (h : ∀ b, s.Keeps (f b).2.2) : s.KeepsT (o.map f) :=
  ⟨fun _ e => by obtain ⟨b, _, rfl⟩ := Option.map_eq_some_iff.1 e; exact h b⟩
theorem keepsT_none {s : State} {α β : Type} : s.KeepsT (none : Option (α × β × State)) := ⟨fun _ h => nomatch h⟩
theorem keepsT_some {s : State} {α β : Type} {x : α × β × State} (h : s.Keeps x.2.2) : s.KeepsT (some x) := ⟨fun _ e => by cases e; exact h⟩

end Sys2Proof.Machine
end

