-- ==== Sys2Proof/Laws/KeepsFlags.lean ====
section
/-! SUPPORT. What the operations of Machine/Flags.lean keep: the queue of commands, the identity of the part, canonical stores. -/

namespace Sys2Proof.Machine

theorem wr_keeps {u0 : State} {s : State} {a : Nat} {v : Word} (h1 : u0.Keeps s) : u0.Keeps (wr s a v) := by
  unfold wr
  exact keeps_of h1 rfl (grows_refl _) (fun c => ⟨mwf_mput regReset _ _ _ c.1, c.2⟩)

theorem setF_keeps {u0 : State} {s : State} {f : Fld} {n : Nat} (h1 : u0.Keeps s) : u0.Keeps (setF s f n) := by
  unfold setF
  repeat' (first | (with_reducible first | assumption | apply wr_keeps) | (intro _; intros; try dsimp only) | simp only [keeps_mk, keeps_mk_scr, keeps_mk_tab, keeps_mk_scr_tab, keeps_mk_otp] | split | (split <;> try dsimp only))

theorem setB_keeps {u0 : State} {s : State} {f : Fld} {b : Bool} (h1 : u0.Keeps s) : u0.Keeps (setB s f b) := by
  unfold setB
  repeat' (first | (with_reducible first | assumption | apply setF_keeps) | (intro _; intros; try dsimp only) | simp only [keeps_mk, keeps_mk_scr, keeps_mk_tab, keeps_mk_scr_tab, keeps_mk_otp] | split | (split <;> try dsimp only))

theorem bumpN_keeps {u0 : State} {s : State} {a n : Nat} (h1 : u0.Keeps s) : u0.Keeps (bumpN s a n) := by
  unfold bumpN
  repeat' (first | (with_reducible first | assumption | apply keeps_ite | apply wr_keeps) | (intro _; intros; try dsimp only) | simp only [keeps_mk, keeps_mk_scr, keeps_mk_tab, keeps_mk_scr_tab, keeps_mk_otp] | split | (split <;> try dsimp only))

theorem bump_keeps {u0 : State} {s : State} {a : Nat} (h1 : u0.Keeps s) : u0.Keeps (bump s a) := by
  unfold bump
  repeat' (first | (with_reducible first | assumption | apply bumpN_keeps) | (intro _; intros; try dsimp only) | simp only [keeps_mk, keeps_mk_scr, keeps_mk_tab, keeps_mk_scr_tab, keeps_mk_otp] | split | (split <;> try dsimp only))

theorem bumpIf_keeps {u0 : State} {c : Bool} {s : State} {a : Nat} (h1 : u0.Keeps s) : u0.Keeps (bumpIf c s a) := by
  unfold bumpIf
  repeat' (first | (with_reducible first | assumption | apply keeps_ite | apply bump_keeps) | (intro _; intros; try dsimp only) | simp only [keeps_mk, keeps_mk_scr, keeps_mk_tab, keeps_mk_scr_tab, keeps_mk_otp] | split | (split <;> try dsimp only))

theorem satBump_keeps {u0 : State} {s : State} {f : Fld} (h1 : u0.Keeps s) : u0.Keeps (satBump s f) := by
  unfold satBump
  repeat' (first | (with_reducible first | assumption | apply setF_keeps) | (intro _; intros; try dsimp only) | simp only [keeps_mk, keeps_mk_scr, keeps_mk_tab, keeps_mk_scr_tab, keeps_mk_otp] | split | (split <;> try dsimp only))

theorem setPeak_keeps {u0 : State} {s : State} {f pk : Fld} {n : Nat} (h1 : u0.Keeps s) : u0.Keeps (setPeak s f pk n) := by
  unfold setPeak
  dsimp only
  repeat' (first | (with_reducible first | assumption | apply keeps_ite | apply setF_keeps) | (intro _; intros; try dsimp only) | simp only [keeps_mk, keeps_mk_scr, keeps_mk_tab, keeps_mk_scr_tab, keeps_mk_otp] | split | (split <;> try dsimp only))

theorem wrPair_keeps {u0 : State} {s : State} {lo hi v : Nat} (h1 : u0.Keeps s) : u0.Keeps (wrPair s lo hi v) := by
  unfold wrPair
  repeat' (first | (with_reducible first | assumption | apply wr_keeps) | (intro _; intros; try dsimp only) | simp only [keeps_mk, keeps_mk_scr, keeps_mk_tab, keeps_mk_scr_tab, keeps_mk_otp] | split | (split <;> try dsimp only))

theorem resetRegs_keeps {u0 : State} {s : State} {keep : Nat → Bool} (h1 : u0.Keeps s) : u0.Keeps (resetRegs s keep) := by
  unfold resetRegs
  exact keeps_regs_filter _ h1 rfl rfl rfl rfl rfl

end Sys2Proof.Machine
end

