-- ==== Sys2Proof/Laws/KeepsOps.lean ====
section
/-! SUPPORT. What the operations of Machine/Ops.lean keep: the queue of commands, the identity of the part, canonical stores. -/

namespace Sys2Proof.Machine

theorem advance_keeps {u0 : State} {s : State} {n : Nat} (h1 : u0.Keeps s) : u0.Keeps (advance s n) := by
  unfold advance
  dsimp only
  repeat' (first | (with_reducible first | assumption | apply keeps_ite) | simp only [keeps_mk] | split | (split <;> try dsimp only))

theorem perfAdd_keeps {u0 : State} {s : State} {g e n : Nat} (h1 : u0.Keeps s) : u0.Keeps (perfAdd s g e n) := by
  unfold perfAdd
  dsimp only
  repeat' (first | (with_reducible first | assumption | apply keeps_ite) | simp only [keeps_mk] | split | (split <;> try dsimp only))

theorem perf_keeps {u0 : State} {s : State} {g e : Nat} (h1 : u0.Keeps s) : u0.Keeps (perf s g e) := by
  unfold perf
  repeat' (first | (with_reducible first | assumption | apply perfAdd_keeps) | (intro _; intros; try dsimp only) | simp only [keeps_mk, keeps_mk_scr, keeps_mk_tab, keeps_mk_scr_tab, keeps_mk_otp] | split | (split <;> try dsimp only))

theorem perfTenant_keeps {u0 : State} {s : State} {t e n : Nat} (h1 : u0.Keeps s) : u0.Keeps (perfTenant s t e n) := by
  unfold perfTenant
  repeat' (first | (with_reducible first | assumption | apply keeps_ite | apply keeps_foldl | apply perfAdd_keeps) | (intro _; intros; try dsimp only) | simp only [keeps_mk, keeps_mk_scr, keeps_mk_tab, keeps_mk_scr_tab, keeps_mk_otp] | split | (split <;> try dsimp only))

theorem signal_keeps {u0 : State} {s : State} {f r : Nat} {force : Bool} (h1 : u0.Keeps s) : u0.Keeps (signal s f r force) := by
  unfold signal
  dsimp only
  repeat' (first | (with_reducible first | assumption | apply keeps_ite) | simp only [keeps_mk] | split | (split <;> try dsimp only))

theorem ringWb_keeps {u0 : State} {s : State} {f r i : Nat} (h1 : u0.Keeps s) : u0.Keeps (ringWb s f r i) := by
  unfold ringWb
  simpa only [keeps_mk] using h1

theorem pushEntry_keeps {u0 : State} {s : State} {f r : Nat} {content : Bytes} {force : Bool} (h1 : u0.Keeps s) : u0.Keeps (pushEntry s f r content force) := by
  unfold pushEntry
  dsimp only
  repeat' (first | (with_reducible first | assumption | apply setF_keeps | apply ringWb_keeps | apply signal_keeps) | simp only [keeps_mk] | split | (split <;> try dsimp only))

theorem hostEvent_keeps {u0 : State} {s : State} {f typ : Nat} {body : Bytes} {force : Bool} (h1 : u0.Keeps s) : u0.Keeps (hostEvent s f typ body force) := by
  unfold hostEvent
  repeat' (first | (with_reducible first | assumption | apply keeps_ite | apply pushEntry_keeps | apply bump_keeps | apply perf_keeps) | (intro _; intros; try dsimp only) | simp only [keeps_mk, keeps_mk_scr, keeps_mk_tab, keeps_mk_scr_tab, keeps_mk_otp] | split | (split <;> try dsimp only))

theorem pushCompl_keeps {u0 : State} {s : State} {f op tag status ring : Nat} {y1 : Bool} {y2 : List Bytes} (h1 : u0.Keeps s) : u0.Keeps (pushCompl s f op tag status ring y1 y2) := by
  induction y2 generalizing s y1 with
  | nil =>
    unfold pushCompl
    repeat' (first | (with_reducible first | assumption | apply ih | apply keeps_ite | apply keeps_foldl | apply keeps_foldl_snd | apply keeps_foldl_fst | apply perf_keeps | apply pushEntry_keeps) | (intro _; intros; try dsimp only) | simp only [keeps_mk, keeps_mk_scr, keeps_mk_tab, keeps_mk_scr_tab, keeps_mk_otp] | split | (split <;> try dsimp only))
  | cons _ _ ih =>
    unfold pushCompl
    repeat' (first | (with_reducible first | assumption | apply ih | apply perf_keeps | apply pushEntry_keeps) | (intro _; intros; try dsimp only) | simp only [keeps_mk, keeps_mk_scr, keeps_mk_tab, keeps_mk_scr_tab, keeps_mk_otp] | split | (split <;> try dsimp only))

theorem landed_keeps {u0 : State} {s : State} {f : Nat} (h1 : u0.Keeps s) : u0.Keeps (landed s f) := by
  unfold landed
  repeat' (first | (with_reducible first | assumption | apply setF_keeps) | (intro _; intros; try dsimp only) | simp only [keeps_mk, keeps_mk_scr, keeps_mk_tab, keeps_mk_scr_tab, keeps_mk_otp] | split | (split <;> try dsimp only))

theorem drainOwed_keeps {u0 : State} {f : Nat} {y1 : Nat} {y2 : State} (h1 : u0.Keeps y2) : u0.Keeps (drainOwed f y1 y2) := by
  induction y1 generalizing y2 with
  | zero =>
    unfold drainOwed
    repeat' (first | (with_reducible first | assumption | apply ih | apply keeps_ite | apply keeps_foldl | apply keeps_foldl_snd | apply keeps_foldl_fst | apply pushCompl_keeps | apply landed_keeps) | (intro _; intros; try dsimp only) | simp only [keeps_mk, keeps_mk_scr, keeps_mk_tab, keeps_mk_scr_tab, keeps_mk_otp] | split | (split <;> try dsimp only))
  | succ _ ih =>
    unfold drainOwed
    dsimp only
    repeat' (first | (with_reducible first | assumption | apply ih | apply keeps_ite | apply pushCompl_keeps | apply landed_keeps) | simp only [keeps_mk] | split | (split <;> try dsimp only))

theorem complete_keeps {u0 : State} {s : State} {c : HostCmd} {status : Nat} {result : Bytes} (h1 : u0.Keeps s) : u0.Keeps (complete s c status result) := by
  unfold complete
  dsimp only
  repeat' (first | (with_reducible first | assumption | apply keeps_ite | apply perfTenant_keeps | apply perf_keeps | apply drainOwed_keeps | apply landed_keeps) | simp only [keeps_mk] | split | (split <;> try dsimp only))

theorem wrWords_keeps {u0 : State} {s : State} {a : Nat} {y1 : List Word} (h1 : u0.Keeps s) : u0.Keeps (wrWords s a y1) := by
  induction y1 generalizing s a with
  | nil =>
    unfold wrWords
    repeat' (first | (with_reducible first | assumption | apply ih | apply keeps_ite | apply keeps_foldl | apply keeps_foldl_snd | apply keeps_foldl_fst | apply wr_keeps) | (intro _; intros; try dsimp only) | simp only [keeps_mk, keeps_mk_scr, keeps_mk_tab, keeps_mk_scr_tab, keeps_mk_otp] | split | (split <;> try dsimp only))
  | cons _ _ ih =>
    unfold wrWords
    repeat' (first | (with_reducible first | assumption | apply ih | apply wr_keeps) | (intro _; intros; try dsimp only) | simp only [keeps_mk, keeps_mk_scr, keeps_mk_tab, keeps_mk_scr_tab, keeps_mk_otp] | split | (split <;> try dsimp only))

theorem pwfLog_keeps {u0 : State} {s : State} {w0 addr data : Nat} (h1 : u0.Keeps s) : u0.Keeps (pwfLog s w0 addr data) := by
  unfold pwfLog
  dsimp only
  repeat' (first | (with_reducible first | assumption | apply keeps_ite | apply setF_keeps | apply satBump_keeps | apply wrWords_keeps) | (intro _; intros; try dsimp only) | simp only [keeps_mk, keeps_mk_scr, keeps_mk_tab, keeps_mk_scr_tab, keeps_mk_otp] | split | (split <;> try dsimp only))

theorem pwfD_keeps {u0 : State} {s : State} {f bar addr data : Nat} {c : PwfCause} {detail : Nat} (h1 : u0.Keeps s) : u0.Keeps (pwfD s f bar addr data c detail) := by
  unfold pwfD
  dsimp only
  repeat' (first | (with_reducible first | assumption | apply keeps_ite | apply setF_keeps | apply pwfLog_keeps | apply satBump_keeps | apply perf_keeps | apply hostEvent_keeps) | (intro _; intros; try dsimp only) | simp only [keeps_mk, keeps_mk_scr, keeps_mk_tab, keeps_mk_scr_tab, keeps_mk_otp] | split | (split <;> try dsimp only))

theorem pwfTarget_keeps {u0 : State} {s : State} {addr data : Nat} (h1 : u0.Keeps s) : u0.Keeps (pwfTarget s addr data) := by
  unfold pwfTarget
  repeat' (first | (with_reducible first | assumption | apply pwfD_keeps) | (intro _; intros; try dsimp only) | simp only [keeps_mk, keeps_mk_scr, keeps_mk_tab, keeps_mk_scr_tab, keeps_mk_otp] | split | (split <;> try dsimp only))

theorem freshNat_keeps {u0 : State} {s : State} (h1 : u0.Keeps s) : u0.Keeps (freshNat s).2 := by
  unfold freshNat
  dsimp only
  repeat' (first | with_reducible assumption | simp only [keeps_mk] | split | (split <;> try dsimp only))
theorem freshNat_keeps_of {u0 : State} {s : State} {v0 : Nat} {v1 : State} (e : freshNat s = (v0, v1)) (h1 : u0.Keeps s) : u0.Keeps v1 := by
  have h : u0.Keeps (freshNat s).2 := freshNat_keeps h1 
  rw [e] at h
  exact h

theorem operWrite_keeps {u0 : State} {s : State} {addr data : Nat} {act : State → State} (h1 : u0.Keeps s) (c_act : ∀ z0, u0.Keeps z0 → u0.Keeps (act z0)) : u0.Keeps (operWrite s addr data act) := by
  unfold operWrite
  repeat' (first | (with_reducible first | assumption | apply keeps_ite | apply pwfTarget_keeps | apply c_act) | (intro _; intros; try dsimp only) | simp only [keeps_mk, keeps_mk_scr, keeps_mk_tab, keeps_mk_scr_tab, keeps_mk_otp] | split | (split <;> try dsimp only))

theorem srcCount_keeps {u0 : State} {s : State} {src : Nat} (h1 : u0.Keeps s) : u0.Keeps (srcCount s src) := by
  unfold srcCount
  repeat' (first | (with_reducible first | assumption | apply keeps_ite | apply satBump_keeps | apply setB_keeps) | (intro _; intros; try dsimp only) | simp only [keeps_mk, keeps_mk_scr, keeps_mk_tab, keeps_mk_scr_tab, keeps_mk_otp] | split | (split <;> try dsimp only))

theorem firstPut_keeps {u0 : State} {s : State} {t src : Nat} {rcd : List Word} (h1 : u0.Keeps s) : u0.Keeps (firstPut s t src rcd) := by
  unfold firstPut
  dsimp only
  repeat' (first | (with_reducible first | assumption | apply wrWords_keeps | apply setB_keeps) | simp only [keeps_mk] | split | (split <;> try dsimp only))

theorem firstNote_keeps {u0 : State} {s : State} {t src : Nat} {rcd : List Word} (h1 : u0.Keeps s) : u0.Keeps (firstNote s t src rcd) := by
  unfold firstNote
  dsimp only
  repeat' (first | (with_reducible first | assumption | apply keeps_ite) | simp only [keeps_mk] | split | (split <;> try dsimp only))

theorem captureFirst_keeps {u0 : State} {s0 : State} {src : Nat} {r : Report} {rcd : List Word} (h1 : u0.Keeps s0) : u0.Keeps (captureFirst s0 src r rcd) := by
  unfold captureFirst
  dsimp only
  repeat' (first | (with_reducible first | assumption | apply keeps_ite | apply firstNote_keeps | apply firstPut_keeps) | (intro _; intros; try dsimp only) | simp only [keeps_mk, keeps_mk_scr, keeps_mk_tab, keeps_mk_scr_tab, keeps_mk_otp] | split | (split <;> try dsimp only))

theorem serviceReaction_keeps {u0 : State} {dramFail : State → Nat → State} {s : State} {src : Nat} {loc : Nat} (h1 : u0.Keeps s) (c_dramFail : ∀ z0 z1, u0.Keeps z0 → u0.Keeps (dramFail z0 z1)) : u0.Keeps (serviceReaction dramFail s src loc) := by
  unfold serviceReaction
  dsimp only
  repeat' (first | (with_reducible first | assumption | apply keeps_ite | apply c_dramFail) | simp only [keeps_mk] | split | (split <;> try dsimp only))

theorem setStatus_keeps {u0 : State} {s : State} {src : Nat} (h1 : u0.Keeps s) : u0.Keeps (setStatus s src) := by
  unfold setStatus
  dsimp only
  repeat' (first | (with_reducible first | assumption | apply keeps_ite) | simp only [keeps_mk] | split | (split <;> try dsimp only))

theorem mergeLatched_keeps {u0 : State} {s : State} {src : Nat} {r : Report} (h1 : u0.Keeps s) : u0.Keeps (mergeLatched s src r) := by
  unfold mergeLatched
  dsimp only
  repeat' (first | (with_reducible first | assumption | apply srcCount_keeps | apply setStatus_keeps | apply bump_keeps | apply captureFirst_keeps) | (intro _; intros; try dsimp only) | simp only [keeps_mk, keeps_mk_scr, keeps_mk_tab, keeps_mk_scr_tab, keeps_mk_otp] | split | (split <;> try dsimp only))

theorem reportWith_keeps {u0 : State} {dramFail : State → Nat → State} {inj : Bool} {s : State} {src loc detail : Nat} (h1 : u0.Keeps s) (c_dramFail : ∀ z0 z1, u0.Keeps z0 → u0.Keeps (dramFail z0 z1)) : u0.Keeps (reportWith dramFail inj s src loc detail) := by
  unfold reportWith
  dsimp only
  repeat' (first | (with_reducible first | assumption | apply keeps_ite | apply serviceReaction_keeps | apply mergeLatched_keeps) | simp only [keeps_mk] | split | (split <;> try dsimp only))

theorem dramLost_keeps {u0 : State} {s : State} {i : Nat} (h1 : u0.Keeps s) : u0.Keeps (dramLost s i) := by
  unfold dramLost
  dsimp only
  repeat' (first | (with_reducible first | assumption | apply setF_keeps) | simp only [keeps_mk] | split | (split <;> try dsimp only))

theorem pauseWithdraw_keeps {u0 : State} {s : State} {i : Nat} (h1 : u0.Keeps s) : u0.Keeps (pauseWithdraw s i) := by
  unfold pauseWithdraw
  dsimp only
  repeat' (first | with_reducible assumption | simp only [keeps_mk] | split | (split <;> try dsimp only))

theorem dramFailedWith_keeps {u0 : State} {more : State → Nat → State} {s : State} {i : Nat} (h1 : u0.Keeps s) (c_more : ∀ z0 z1, u0.Keeps z0 → u0.Keeps (more z0 z1)) : u0.Keeps (dramFailedWith more s i) := by
  unfold dramFailedWith
  dsimp only
  repeat' (first | (with_reducible first | assumption | apply keeps_ite | apply setF_keeps | apply dramLost_keeps | apply pauseWithdraw_keeps | apply reportWith_keeps) | simp only [keeps_mk] | split | (split <;> try dsimp only))

theorem dramFailed_keeps {u0 : State} {s : State} {i : Nat} (h1 : u0.Keeps s) : u0.Keeps (dramFailed s i) := by
  unfold dramFailed
  repeat' (first | (with_reducible first | assumption | apply dramFailedWith_keeps) | (intro _; intros; try dsimp only) | simp only [keeps_mk, keeps_mk_scr, keeps_mk_tab, keeps_mk_scr_tab, keeps_mk_otp] | split | (split <;> try dsimp only))

theorem report_keeps {u0 : State} {s : State} {src loc detail : Nat} (h1 : u0.Keeps s) : u0.Keeps (report s src loc detail) := by
  unfold report
  repeat' (first | (with_reducible first | assumption | apply dramFailed_keeps | apply reportWith_keeps) | (intro _; intros; try dsimp only) | simp only [keeps_mk, keeps_mk_scr, keeps_mk_tab, keeps_mk_scr_tab, keeps_mk_otp] | split | (split <;> try dsimp only))

theorem levelOn_keeps {u0 : State} {s : State} {src loc detail : Nat} (h1 : u0.Keeps s) : u0.Keeps (levelOn s src loc detail) := by
  unfold levelOn
  dsimp only
  repeat' (first | (with_reducible first | assumption | apply keeps_ite | apply report_keeps) | simp only [keeps_mk] | split | (split <;> try dsimp only))

theorem levelMore_keeps {u0 : State} {s : State} {src loc detail : Nat} (h1 : u0.Keeps s) : u0.Keeps (levelMore s src loc detail) := by
  unfold levelMore
  repeat' (first | (with_reducible first | assumption | apply keeps_ite | apply report_keeps | apply levelOn_keeps) | (intro _; intros; try dsimp only) | simp only [keeps_mk, keeps_mk_scr, keeps_mk_tab, keeps_mk_scr_tab, keeps_mk_otp] | split | (split <;> try dsimp only))

theorem levelOff_keeps {u0 : State} {s : State} {src : Nat} (h1 : u0.Keeps s) : u0.Keeps (levelOff s src) := by
  unfold levelOff
  dsimp only
  repeat' (first | with_reducible assumption | simp only [keeps_mk] | split | (split <;> try dsimp only))

theorem levelIs_keeps {u0 : State} {b : Bool} {s : State} {src loc detail : Nat} (h1 : u0.Keeps s) : u0.Keeps (levelIs b s src loc detail) := by
  unfold levelIs
  repeat' (first | (with_reducible first | assumption | apply keeps_ite | apply levelOn_keeps | apply levelOff_keeps) | (intro _; intros; try dsimp only) | simp only [keeps_mk, keeps_mk_scr, keeps_mk_tab, keeps_mk_scr_tab, keeps_mk_otp] | split | (split <;> try dsimp only))

theorem injTake_keeps {u0 : State} {s : State} {loc gran : Nat} (h1 : u0.Keeps s) : u0.Keeps (injTake s loc gran).2 := by
  unfold injTake
  dsimp only
  repeat' (first | (with_reducible first | assumption | apply setB_keeps) | split | (split <;> try dsimp only))
theorem injTake_keeps_of {u0 : State} {s : State} {loc gran : Nat} {v0 : Nat} {v1 : State} (e : injTake s loc gran = (v0, v1)) (h1 : u0.Keeps s) : u0.Keeps v1 := by
  have h : u0.Keeps (injTake s loc gran).2 := injTake_keeps h1 
  rw [e] at h
  exact h

theorem injUncorr_keeps {u0 : State} {s : State} {loc gran : Nat} (h1 : u0.Keeps s) : u0.Keeps (injUncorr s loc gran).2 := by
  unfold injUncorr
  dsimp only
  repeat' (first | (with_reducible first | assumption | apply injTake_keeps) | split | (split <;> try dsimp only))
theorem injUncorr_keeps_of {u0 : State} {s : State} {loc gran : Nat} {v0 : Bool} {v1 : State} (e : injUncorr s loc gran = (v0, v1)) (h1 : u0.Keeps s) : u0.Keeps v1 := by
  have h : u0.Keeps (injUncorr s loc gran).2 := injUncorr_keeps h1 
  rw [e] at h
  exact h

theorem enterTop_keeps {u0 : State} {s : State} {t : TopState} (h1 : u0.Keeps s) : u0.Keeps (enterTop s t) := by
  unfold enterTop
  repeat' (first | with_reducible assumption | simp only [keeps_mk] | split | (split <;> try dsimp only))

theorem enterHold_keeps {u0 : State} {s : State} {reason image slot detail status : Nat} (h1 : u0.Keeps s) : u0.Keeps (enterHold s reason image slot detail status) := by
  unfold enterHold
  dsimp only
  repeat' (first | (with_reducible first | assumption | apply keeps_ite | apply setF_keeps | apply levelOn_keeps | apply enterTop_keeps | apply wr_keeps) | simp only [keeps_mk] | split | (split <;> try dsimp only))

theorem leaveHold_keeps {u0 : State} {s : State} {t : TopState} (h1 : u0.Keeps s) : u0.Keeps (leaveHold s t) := by
  unfold leaveHold
  repeat' (first | (with_reducible first | assumption | apply enterTop_keeps | apply levelOff_keeps) | (intro _; intros; try dsimp only) | simp only [keeps_mk, keeps_mk_scr, keeps_mk_tab, keeps_mk_scr_tab, keeps_mk_otp] | split | (split <;> try dsimp only))

end Sys2Proof.Machine
end

