-- ==== Sys2Proof/Laws/KeepsFaults.lean ====
section
/-! SUPPORT. What the operations of Machine/Faults.lean keep: the queue of commands, the identity of the part, canonical stores. -/

namespace Sys2Proof.Machine

theorem recRingFill_keeps {u0 : State} {s : State} (h1 : u0.Keeps s) : u0.Keeps (recRingFill s) := by
  unfold recRingFill
  repeat' (first | (with_reducible first | assumption | apply setF_keeps) | (intro _; intros; try dsimp only) | simp only [keeps_mk, keeps_mk_scr, keeps_mk_tab, keeps_mk_scr_tab, keeps_mk_otp] | split | (split <;> try dsimp only))

theorem recRingPut_keeps {u0 : State} {s : State} {rcd : List Word} (h1 : u0.Keeps s) : u0.Keeps (recRingPut s rcd) := by
  unfold recRingPut
  dsimp only
  repeat' (first | (with_reducible first | assumption | apply setF_keeps | apply wrWords_keeps | apply recRingFill_keeps) | (intro _; intros; try dsimp only) | simp only [keeps_mk, keeps_mk_scr, keeps_mk_tab, keeps_mk_scr_tab, keeps_mk_otp] | split | (split <;> try dsimp only))

theorem vbatCopy_keeps {u0 : State} {s : State} {rcd : List Word} (h1 : u0.Keeps s) : u0.Keeps (vbatCopy s rcd) := by
  unfold vbatCopy
  dsimp only
  repeat' (first | with_reducible assumption | simp only [keeps_mk] | split | (split <;> try dsimp only))

theorem nvlogOffer_keeps {u0 : State} {s : State} {rcd : List Word} (h1 : u0.Keeps s) : u0.Keeps (nvlogOffer s rcd) := by
  unfold nvlogOffer
  dsimp only
  repeat' (first | (with_reducible first | assumption | apply keeps_ite | apply bump_keeps) | simp only [keeps_mk] | split | (split <;> try dsimp only))

theorem faultMsg_keeps {u0 : State} {s : State} {src loc : Nat} (h1 : u0.Keeps s) : u0.Keeps (faultMsg s src loc) := by
  unfold faultMsg
  dsimp only
  repeat' (first | (with_reducible first | assumption | apply keeps_ite | apply bump_keeps) | simp only [keeps_mk] | split | (split <;> try dsimp only))

theorem faultEvent_keeps {u0 : State} {s : State} {rcd : List Word} {idx : Nat} (h1 : u0.Keeps s) : u0.Keeps (faultEvent s rcd idx) := by
  unfold faultEvent
  repeat' (first | (with_reducible first | assumption | apply hostEvent_keeps) | (intro _; intros; try dsimp only) | simp only [keeps_mk, keeps_mk_scr, keeps_mk_tab, keeps_mk_scr_tab, keeps_mk_otp] | split | (split <;> try dsimp only))

theorem takeReport_keeps {u0 : State} {s : State} {src : Nat} {r : Report} (h1 : u0.Keeps s) : u0.Keeps (takeReport s src r) := by
  unfold takeReport
  dsimp only
  repeat' (first | (with_reducible first | assumption | apply srcCount_keeps | apply setStatus_keeps | apply bump_keeps) | simp only [keeps_mk] | split | (split <;> try dsimp only))

theorem makeRecord_keeps {u0 : State} {s : State} {src : Nat} {r : Report} (h1 : u0.Keeps s) : u0.Keeps (makeRecord s src r) := by
  unfold makeRecord
  dsimp only
  repeat' (first | (with_reducible first | assumption | apply keeps_ite | apply bump_keeps | apply captureFirst_keeps | apply serviceReaction_keeps | apply vbatCopy_keeps | apply nvlogOffer_keeps | apply recRingPut_keeps | apply faultEvent_keeps | apply faultMsg_keeps | apply dramFailed_keeps) | simp only [keeps_mk] | split | (split <;> try dsimp only))

theorem mergeReport_keeps {u0 : State} {s : State} {src : Nat} {r : Report} (h1 : u0.Keeps s) : u0.Keeps (mergeReport s src r) := by
  unfold mergeReport
  dsimp only
  repeat' (first | (with_reducible first | assumption | apply keeps_ite | apply bump_keeps | apply dramFailed_keeps | apply serviceReaction_keeps | apply captureFirst_keeps) | (intro _; intros; try dsimp only) | simp only [keeps_mk, keeps_mk_scr, keeps_mk_tab, keeps_mk_scr_tab, keeps_mk_otp] | split | (split <;> try dsimp only))

theorem collectReport_keeps {u0 : State} {s : State} {src : Nat} {r : Report} (h1 : u0.Keeps s) : u0.Keeps (collectReport s src r) := by
  unfold collectReport
  dsimp only
  repeat' (first | (with_reducible first | assumption | apply keeps_ite | apply mergeReport_keeps | apply makeRecord_keeps | apply takeReport_keeps | apply captureFirst_keeps) | simp only [keeps_mk] | split | (split <;> try dsimp only))

theorem faultCollect_keeps {u0 : State} {s : State} (h1 : u0.Keeps s) : u0.Keeps (faultCollect s) := by
  unfold faultCollect
  repeat' (first | (with_reducible first | assumption | apply collectReport_keeps) | split | (split <;> try dsimp only))

theorem fltStatusClear_keeps {u0 : State} {src : Nat} {s : State} (h1 : u0.Keeps s) : u0.Keeps (fltStatusClear src s) := by
  unfold fltStatusClear
  dsimp only
  repeat' (first | (with_reducible first | assumption | apply keeps_ite | apply bump_keeps) | simp only [keeps_mk] | split | (split <;> try dsimp only))

theorem firstEmpty_keeps {u0 : State} {s : State} (h1 : u0.Keeps s) : u0.Keeps (firstEmpty s) := by
  unfold firstEmpty
  dsimp only
  repeat' (first | (with_reducible first | assumption | apply wrWords_keeps | apply setB_keeps) | simp only [keeps_mk] | split | (split <;> try dsimp only))

theorem firstFaultClear_keeps {u0 : State} {s : State} (h1 : u0.Keeps s) : u0.Keeps (firstFaultClear s) := by
  unfold firstFaultClear
  repeat' (first | (with_reducible first | assumption | apply keeps_ite | apply firstEmpty_keeps | apply operWrite_keeps | apply firstPut_keeps) | (intro _; intros; try dsimp only) | split | (split <;> try dsimp only))

theorem ringRdWrite_keeps {u0 : State} {v : Nat} {s : State} (h1 : u0.Keeps s) : u0.Keeps (ringRdWrite v s) := by
  unfold ringRdWrite
  dsimp only
  repeat' (first | (with_reducible first | assumption | apply keeps_ite | apply setF_keeps | apply operWrite_keeps | apply pwfTarget_keeps | apply recRingFill_keeps) | (intro _; intros; try dsimp only) | simp only [keeps_mk, keeps_mk_scr, keeps_mk_tab, keeps_mk_scr_tab, keeps_mk_otp] | split | (split <;> try dsimp only))

theorem nvlogRead_keeps {u0 : State} {v : Nat} {s : State} (h1 : u0.Keeps s) : u0.Keeps (nvlogRead v s) := by
  unfold nvlogRead
  dsimp only
  repeat' (first | (with_reducible first | assumption | apply setF_keeps | apply setB_keeps | apply operWrite_keeps | apply wrWords_keeps) | (intro _; intros; try dsimp only) | simp only [keeps_mk, keeps_mk_scr, keeps_mk_tab, keeps_mk_scr_tab, keeps_mk_otp] | split | (split <;> try dsimp only))

theorem partnerFaultRecord_keeps {u0 : State} {rcd : List Word} {s : State} (h1 : u0.Keeps s) : u0.Keeps (partnerFaultRecord rcd s) := by
  unfold partnerFaultRecord
  repeat' (first | (with_reducible first | assumption | apply keeps_ite | apply recRingPut_keeps | apply bump_keeps) | (intro _; intros; try dsimp only) | simp only [keeps_mk, keeps_mk_scr, keeps_mk_tab, keeps_mk_scr_tab, keeps_mk_otp] | split | (split <;> try dsimp only))

theorem faultInject_keeps {u0 : State} {v : Nat} {s : State} (h1 : u0.Keeps s) : u0.Keeps (faultInject v s) := by
  unfold faultInject
  dsimp only
  repeat' (first | (with_reducible first | assumption | apply keeps_ite | apply setF_keeps | apply bump_keeps | apply setB_keeps | apply operWrite_keeps | apply pwfTarget_keeps | apply dramFailed_keeps | apply reportWith_keeps) | (intro _; intros; try dsimp only) | simp only [keeps_mk, keeps_mk_scr, keeps_mk_tab, keeps_mk_scr_tab, keeps_mk_otp] | split | (split <;> try dsimp only))

end Sys2Proof.Machine
end

