-- ==== Sys2Proof/Laws/KeepsCounters.lean ====
section
/-! SUPPORT. What the operations of Machine/Counters.lean keep: the queue of commands, the identity of the part, canonical stores. -/

namespace Sys2Proof.Machine

theorem countPair_keeps {u0 : State} {s : State} {i len : Nat} (h1 : u0.Keeps s) : u0.Keeps (countPair s i len) := by
  unfold countPair
  dsimp only
  repeat' (first | (with_reducible first | assumption | apply keeps_ite) | simp only [keeps_mk] | split | (split <;> try dsimp only))

theorem pairRead_keeps {u0 : State} {v : Nat} {s : State} (h1 : u0.Keeps s) : u0.Keeps (pairRead v s) := by
  unfold pairRead
  dsimp only
  repeat' (first | (with_reducible first | assumption | apply keeps_ite | apply setF_keeps | apply setB_keeps | apply operWrite_keeps | apply pwfTarget_keeps | apply wrWords_keeps) | (intro _; intros; try dsimp only) | simp only [keeps_mk] | split | (split <;> try dsimp only))

theorem revokeGroup_keeps {u0 : State} {s : State} {g : Nat} (h1 : u0.Keeps s) : u0.Keeps (revokeGroup s g) := by
  unfold revokeGroup
  dsimp only
  repeat' (first | (with_reducible first | assumption | apply keeps_ite | apply keeps_foldl | apply setB_keeps) | (intro _; intros; try dsimp only) | simp only [keeps_mk, keeps_mk_scr, keeps_mk_tab, keeps_mk_scr_tab, keeps_mk_otp] | split | (split <;> try dsimp only))

theorem zeroGroup_keeps {u0 : State} {s : State} {g : Nat} (h1 : u0.Keeps s) : u0.Keeps (zeroGroup s g) := by
  unfold zeroGroup
  dsimp only
  repeat' (first | with_reducible assumption | simp only [keeps_mk] | split | (split <;> try dsimp only))

theorem perfTenantWrite_keeps {u0 : State} {j : Fin 128} {v : Nat} {s : State} (h1 : u0.Keeps s) : u0.Keeps (perfTenantWrite j v s) := by
  unfold perfTenantWrite
  dsimp only
  repeat' (first | (with_reducible first | assumption | apply keeps_ite | apply setF_keeps | apply zeroGroup_keeps | apply revokeGroup_keeps | apply setB_keeps | apply operWrite_keeps) | (intro _; intros; try dsimp only) | simp only [keeps_mk, keeps_mk_scr, keeps_mk_tab, keeps_mk_scr_tab, keeps_mk_otp] | split | (split <;> try dsimp only))

theorem heldCount_keeps {u0 : State} {s : State} (h1 : u0.Keeps s) : u0.Keeps (heldCount s) := by
  unfold heldCount
  repeat' (first | (with_reducible first | assumption | apply setF_keeps) | (intro _; intros; try dsimp only) | simp only [keeps_mk, keeps_mk_scr, keeps_mk_tab, keeps_mk_scr_tab, keeps_mk_otp] | split | (split <;> try dsimp only))

theorem dumpEpoch_keeps {u0 : State} {d : Fin 64} {s : State} (h1 : u0.Keeps s) : u0.Keeps (dumpEpoch d s) := by
  unfold dumpEpoch
  dsimp only
  repeat' (first | (with_reducible first | assumption | apply keeps_ite | apply bump_keeps | apply report_keeps | apply heldCount_keeps) | simp only [keeps_mk] | split | (split <;> try dsimp only))

theorem pushDump_keeps {u0 : State} {s : State} {f r : Nat} {l : List Bytes} (h1 : u0.Keeps s) : u0.Keeps (pushDump s f r l) := by
  unfold pushDump
  repeat' (first | (with_reducible first | assumption | apply keeps_foldl | apply pushEntry_keeps | apply bump_keeps | apply perf_keeps) | (intro _; intros; try dsimp only) | simp only [keeps_mk, keeps_mk_scr, keeps_mk_tab, keeps_mk_scr_tab, keeps_mk_otp] | split | (split <;> try dsimp only))

theorem dumpVf_keeps {u0 : State} {x : Snapshot} {d : Nat} {s : State} {f : Nat} (h1 : u0.Keeps s) : u0.Keeps (dumpVf x d s f) := by
  unfold dumpVf
  dsimp only
  repeat' (first | (with_reducible first | assumption | apply keeps_ite | apply bump_keeps | apply pushDump_keeps) | (intro _; intros; try dsimp only) | simp only [keeps_mk, keeps_mk_scr, keeps_mk_tab, keeps_mk_scr_tab, keeps_mk_otp] | split | (split <;> try dsimp only))

theorem releaseSnap_keeps {u0 : State} {s : State} {d : Nat} {x : Snapshot} (h1 : u0.Keeps s) : u0.Keeps (releaseSnap s d x) := by
  unfold releaseSnap
  dsimp only
  repeat' (first | (with_reducible first | assumption | apply setB_keeps | apply wr_keeps | apply heldCount_keeps) | simp only [keeps_mk] | split | (split <;> try dsimp only))

theorem abandonDump_keeps {u0 : State} {s : State} {d : Nat} {x : Snapshot} (h1 : u0.Keeps s) : u0.Keeps (abandonDump s d x) := by
  unfold abandonDump
  repeat' (first | (with_reducible first | assumption | apply report_keeps | apply bump_keeps | apply releaseSnap_keeps) | (intro _; intros; try dsimp only) | simp only [keeps_mk, keeps_mk_scr, keeps_mk_tab, keeps_mk_scr_tab, keeps_mk_otp] | split | (split <;> try dsimp only))

theorem abandonRing_keeps {u0 : State} {s : State} {f r : Nat} (h1 : u0.Keeps s) : u0.Keeps (abandonRing s f r) := by
  unfold abandonRing
  repeat' (first | (with_reducible first | assumption | apply keeps_ite | apply keeps_foldl | apply abandonDump_keeps) | (intro _; intros; try dsimp only) | simp only [keeps_mk, keeps_mk_scr, keeps_mk_tab, keeps_mk_scr_tab, keeps_mk_otp] | split | (split <;> try dsimp only))

theorem dumpWrite_keeps {u0 : State} {d : Fin 64} {s : State} (h1 : u0.Keeps s) : u0.Keeps (dumpWrite d s) := by
  unfold dumpWrite
  dsimp only
  repeat' (first | (with_reducible first | assumption | apply keeps_ite | apply keeps_foldl | apply bump_keeps | apply dumpVf_keeps | apply setB_keeps | apply bumpIf_keeps | apply abandonDump_keeps | apply releaseSnap_keeps | apply pushDump_keeps) | simp only [keeps_mk] | split | (split <;> try dsimp only))

theorem dumpGroupEnabled_keeps {u0 : State} {s : State} {d : Nat} (h1 : u0.Keeps s) : u0.Keeps (dumpGroupEnabled s d) := by
  unfold dumpGroupEnabled
  dsimp only
  repeat' (first | with_reducible assumption | simp only [keeps_mk] | split | (split <;> try dsimp only))

end Sys2Proof.Machine
end

