-- ==== Sys2Proof/Laws/KeepsMirror.lean ====
section
/-! SUPPORT. What the operations of Machine/Mirror.lean keep: the queue of commands, the identity of the part, canonical stores. -/

namespace Sys2Proof.Machine

theorem mirrorItem_keeps {u0 : State} {s : State} {x : CmdItem} (h1 : u0.Keeps s) : u0.Keeps (mirrorItem s x) := by
  unfold mirrorItem
  dsimp only
  repeat' (first | (with_reducible first | assumption | apply keeps_ite | apply setF_keeps) | simp only [keeps_mk] | split | (split <;> try dsimp only))

theorem stateDue_keeps {u0 : State} {s : State} {key : Nat} (h1 : u0.Keeps s) : u0.Keeps (stateDue s key) := by
  unfold stateDue
  dsimp only
  repeat' (first | (with_reducible first | assumption | apply keeps_ite) | simp only [keeps_mk] | split | (split <;> try dsimp only))

theorem memTestFailed_keeps {u0 : State} {s : State} (h1 : u0.Keeps s) : u0.Keeps (memTestFailed s) := by
  unfold memTestFailed
  dsimp only
  repeat' (first | (with_reducible first | assumption | apply keeps_ite) | simp only [keeps_mk] | split | (split <;> try dsimp only))

theorem operMirrored_keeps {u0 : State} {s : State} {addr data : Nat} {ok : Bool} {act : State → State} (h1 : u0.Keeps s) (c_act : ∀ z0, u0.Keeps z0 → u0.Keeps (act z0)) : u0.Keeps (operMirrored s addr data ok act) := by
  unfold operMirrored
  repeat' (first | (with_reducible first | assumption | apply keeps_ite | apply pwfTarget_keeps | apply operWrite_keeps | apply mirrorItem_keeps | apply c_act) | (intro _; intros; try dsimp only) | simp only [keeps_mk, keeps_mk_scr, keeps_mk_tab, keeps_mk_scr_tab, keeps_mk_otp] | split | (split <;> try dsimp only))

theorem probeGone_keeps {u0 : State} {s : State} {q : Nat} (h1 : u0.Keeps s) : u0.Keeps (probeGone s q) := by
  unfold probeGone
  dsimp only
  repeat' (first | with_reducible assumption | simp only [keeps_mk] | split | (split <;> try dsimp only))

theorem probeFail_keeps {u0 : State} {s : State} {x : Probe} (h1 : u0.Keeps s) : u0.Keeps (probeFail s x) := by
  unfold probeFail
  dsimp only
  repeat' (first | (with_reducible first | assumption | apply keeps_ite | apply bump_keeps | apply report_keeps) | simp only [keeps_mk] | split | (split <;> try dsimp only))

theorem probeRefused_keeps {u0 : State} {s : State} {q : Nat} (h1 : u0.Keeps s) : u0.Keeps (probeRefused s q) := by
  unfold probeRefused
  repeat' (first | (with_reducible first | assumption | apply probeGone_keeps | apply probeFail_keeps) | split | (split <;> try dsimp only))

end Sys2Proof.Machine
end

