-- ==== Sys2Proof/Laws/KeepsStore.lean ====
section
/-! SUPPORT. What the operations of Machine/Store.lean keep: the queue of commands, the identity of the part, canonical stores. -/

namespace Sys2Proof.Machine

theorem refuseOpcodes_keeps {u0 : State} {s : State} {fn ring : Nat} {y1 : Nat} (h1 : u0.Keeps s) : u0.Keeps (refuseOpcodes s fn ring y1) := by
  induction y1 generalizing s with
  | zero =>
    unfold refuseOpcodes
    repeat' (first | (with_reducible first | assumption | apply ih | apply keeps_ite | apply keeps_foldl | apply keeps_foldl_snd | apply keeps_foldl_fst | apply complete_keeps) | (intro _; intros; try dsimp only) | simp only [keeps_mk, keeps_mk_scr, keeps_mk_tab, keeps_mk_scr_tab, keeps_mk_otp] | split | (split <;> try dsimp only))
  | succ _ ih =>
    unfold refuseOpcodes
    repeat' (first | (with_reducible first | assumption | apply ih | apply keeps_ite | apply complete_keeps) | split | (split <;> try dsimp only))

theorem finish_keeps {u0 : State} {s : State} {c : HostCmd} {mirrored : Bool} {st : Status} {res : Bytes} (h1 : u0.Keeps s) : u0.Keeps (finish s c mirrored st res) := by
  unfold finish
  dsimp only
  repeat' (first | (with_reducible first | assumption | apply keeps_ite | apply complete_keeps | apply refuseOpcodes_keeps | apply mirrorItem_keeps) | (intro _; intros; try dsimp only) | simp only [keeps_mk, keeps_mk_scr, keeps_mk_tab, keeps_mk_scr_tab, keeps_mk_otp] | split | (split <;> try dsimp only))

theorem hostCmd_keeps {u0 : State} {s : State} {c : HostCmd} {op : Nat} {changes : Bool} {eng : State → Eng} (h1 : u0.Keeps s) (c_eng : ∀ z0, u0.Keeps z0 → u0.Keeps (eng z0).s) : u0.Keeps (hostCmd s c op changes eng) := by
  unfold hostCmd
  dsimp only
  repeat' (first | (with_reducible first | assumption | apply keeps_ite | apply finish_keeps | apply c_eng) | (intro _; intros; try dsimp only) | simp only [keeps_mk, keeps_mk_scr, keeps_mk_tab, keeps_mk_scr_tab, keeps_mk_otp] | split | (split <;> try dsimp only))

theorem sigCounts_keeps {u0 : State} {s : State} (h1 : u0.Keeps s) : u0.Keeps (sigCounts s) := by
  unfold sigCounts
  repeat' (first | (with_reducible first | assumption | apply setF_keeps) | (intro _; intros; try dsimp only) | simp only [keeps_mk, keeps_mk_scr, keeps_mk_tab, keeps_mk_scr_tab, keeps_mk_otp] | split | (split <;> try dsimp only))

theorem lostFollow_keeps {u0 : State} {s : State} (h1 : u0.Keeps s) : u0.Keeps (lostFollow s) := by
  unfold lostFollow
  repeat' (first | (with_reducible first | assumption | apply keeps_ite | apply levelOff_keeps) | (intro _; intros; try dsimp only) | simp only [keeps_mk, keeps_mk_scr, keeps_mk_tab, keeps_mk_scr_tab, keeps_mk_otp] | split | (split <;> try dsimp only))

theorem sigClearBad_keeps {u0 : State} {s : State} {key : Nat} (h1 : u0.Keeps s) : u0.Keeps (sigClearBad s key) := by
  unfold sigClearBad
  dsimp only
  repeat' (first | with_reducible assumption | simp only [keeps_mk] | split | (split <;> try dsimp only))

theorem shadowAct_keeps {u0 : State} {s : State} {c : HostCmd} {bad : List (Bool × Status)} {act : State → State} (h1 : u0.Keeps s) (c_act : ∀ z0, u0.Keeps z0 → u0.Keeps (act z0)) : u0.Keeps (shadowAct s c bad act).s := by
  unfold shadowAct
  dsimp only
  repeat' (first | (with_reducible first | assumption | apply lostFollow_keeps | apply sigCounts_keeps | apply c_act) | split | (split <;> try dsimp only))

theorem sigWriteEng_keeps {u0 : State} {c : HostCmd} {s : State} (h1 : u0.Keeps s) : u0.Keeps (sigWriteEng c s).s := by
  unfold sigWriteEng
  dsimp only
  repeat' (first | (with_reducible first | assumption | apply keeps_ite | apply sigClearBad_keeps | apply injUncorr_keeps | apply shadowAct_keeps) | (intro _; intros; try dsimp only) | simp only [keeps_mk] | split | (split <;> try dsimp only))

theorem sigWrite_keeps {u0 : State} {c : HostCmd} {s : State} (h1 : u0.Keeps s) : u0.Keeps (sigWrite c s) := by
  unfold sigWrite
  repeat' (first | (with_reducible first | assumption | apply sigWriteEng_keeps | apply hostCmd_keeps) | (intro _; intros; try dsimp only) | simp only [keeps_mk, keeps_mk_scr, keeps_mk_tab, keeps_mk_scr_tab, keeps_mk_otp] | split | (split <;> try dsimp only))

theorem sigInvalidateEng_keeps {u0 : State} {c : HostCmd} {s : State} (h1 : u0.Keeps s) : u0.Keeps (sigInvalidateEng c s).s := by
  unfold sigInvalidateEng
  dsimp only
  repeat' (first | (with_reducible first | assumption | apply sigClearBad_keeps | apply shadowAct_keeps) | (intro _; intros; try dsimp only) | simp only [keeps_mk] | split | (split <;> try dsimp only))

theorem sigInvalidate_keeps {u0 : State} {c : HostCmd} {s : State} (h1 : u0.Keeps s) : u0.Keeps (sigInvalidate c s) := by
  unfold sigInvalidate
  repeat' (first | (with_reducible first | assumption | apply sigInvalidateEng_keeps | apply hostCmd_keeps) | (intro _; intros; try dsimp only) | simp only [keeps_mk, keeps_mk_scr, keeps_mk_tab, keeps_mk_scr_tab, keeps_mk_otp] | split | (split <;> try dsimp only))

theorem sigProfileEng_keeps {u0 : State} {c : HostCmd} {s : State} (h1 : u0.Keeps s) : u0.Keeps (sigProfileEng c s).s := by
  unfold sigProfileEng
  dsimp only
  repeat' (first | (with_reducible first | assumption | apply sigClearBad_keeps | apply shadowAct_keeps) | (intro _; intros; try dsimp only) | simp only [keeps_mk] | split | (split <;> try dsimp only))

theorem sigProfile_keeps {u0 : State} {c : HostCmd} {s : State} (h1 : u0.Keeps s) : u0.Keeps (sigProfile c s) := by
  unfold sigProfile
  repeat' (first | (with_reducible first | assumption | apply sigProfileEng_keeps | apply hostCmd_keeps) | (intro _; intros; try dsimp only) | simp only [keeps_mk, keeps_mk_scr, keeps_mk_tab, keeps_mk_scr_tab, keeps_mk_otp] | split | (split <;> try dsimp only))

theorem sigClearEng_keeps {u0 : State} {c : HostCmd} {s : State} (h1 : u0.Keeps s) : u0.Keeps (sigClearEng c s).s := by
  unfold sigClearEng
  repeat' (first | (with_reducible first | assumption | apply shadowAct_keeps) | (intro _; intros; try dsimp only) | simp only [keeps_mk] | split | (split <;> try dsimp only))

theorem sigClear_keeps {u0 : State} {c : HostCmd} {s : State} (h1 : u0.Keeps s) : u0.Keeps (sigClear c s) := by
  unfold sigClear
  repeat' (first | (with_reducible first | assumption | apply sigClearEng_keeps | apply hostCmd_keeps) | (intro _; intros; try dsimp only) | simp only [keeps_mk, keeps_mk_scr, keeps_mk_tab, keeps_mk_scr_tab, keeps_mk_otp] | split | (split <;> try dsimp only))

theorem sigCopyEng_keeps {u0 : State} {c : HostCmd} {s : State} (h1 : u0.Keeps s) : u0.Keeps (sigCopyEng c s).s := by
  unfold sigCopyEng
  repeat' (first | (with_reducible first | assumption | apply shadowAct_keeps | apply setB_keeps) | (intro _; intros; try dsimp only) | simp only [keeps_mk, keeps_mk_scr, keeps_mk_tab, keeps_mk_scr_tab, keeps_mk_otp] | split | (split <;> try dsimp only))

theorem sigCopy_keeps {u0 : State} {c : HostCmd} {s : State} (h1 : u0.Keeps s) : u0.Keeps (sigCopy c s) := by
  unfold sigCopy
  repeat' (first | (with_reducible first | assumption | apply sigCopyEng_keeps | apply hostCmd_keeps) | (intro _; intros; try dsimp only) | simp only [keeps_mk, keeps_mk_scr, keeps_mk_tab, keeps_mk_scr_tab, keeps_mk_otp] | split | (split <;> try dsimp only))

theorem sigCopyDone_keeps {u0 : State} {s : State} (h1 : u0.Keeps s) : u0.Keeps (sigCopyDone s) := by
  unfold sigCopyDone
  dsimp only
  repeat' (first | (with_reducible first | assumption | apply keeps_ite | apply sigCounts_keeps | apply lostFollow_keeps | apply setB_keeps) | simp only [keeps_mk] | split | (split <;> try dsimp only))

theorem sigSwapNow_keeps {u0 : State} {s : State} (h1 : u0.Keeps s) : u0.Keeps (sigSwapNow s) := by
  unfold sigSwapNow
  dsimp only
  repeat' (first | (with_reducible first | assumption | apply setF_keeps | apply sigCounts_keeps | apply setB_keeps) | simp only [keeps_mk] | split | (split <;> try dsimp only))

theorem sigSwapEng_keeps {u0 : State} {c : HostCmd} {s : State} (h1 : u0.Keeps s) : u0.Keeps (sigSwapEng c s).s := by
  unfold sigSwapEng
  dsimp only
  repeat' (first | (with_reducible first | assumption | apply setB_keeps | apply sigSwapNow_keeps) | simp only [keeps_mk] | split | (split <;> try dsimp only))

theorem sigSwap_keeps {u0 : State} {c : HostCmd} {s : State} (h1 : u0.Keeps s) : u0.Keeps (sigSwap c s) := by
  unfold sigSwap
  repeat' (first | (with_reducible first | assumption | apply hostCmd_keeps | apply sigSwapEng_keeps) | (intro _; intros; try dsimp only) | simp only [keeps_mk, keeps_mk_scr, keeps_mk_tab, keeps_mk_scr_tab, keeps_mk_otp] | split | (split <;> try dsimp only))

theorem storeEng_keeps {u0 : State} {c : HostCmd} {s : State} (h1 : u0.Keeps s) : u0.Keeps (storeEng c s).s := by
  unfold storeEng
  repeat' (first | (with_reducible first | assumption | apply sigWriteEng_keeps | apply sigClearEng_keeps | apply sigProfileEng_keeps | apply sigInvalidateEng_keeps | apply sigSwapEng_keeps | apply sigCopyEng_keeps) | split | (split <;> try dsimp only))

theorem sigSwapInstant_keeps {u0 : State} {s : State} (h1 : u0.Keeps s) : u0.Keeps (sigSwapInstant s) := by
  unfold sigSwapInstant
  repeat' (first | (with_reducible first | assumption | apply keeps_ite | apply sigSwapNow_keeps) | split | (split <;> try dsimp only))

theorem sigCancel_keeps {u0 : State} {s : State} (h1 : u0.Keeps s) : u0.Keeps (sigCancel s) := by
  unfold sigCancel
  dsimp only
  repeat' (first | (with_reducible first | assumption | apply keeps_ite | apply setB_keeps | apply operWrite_keeps | apply sigSwapInstant_keeps) | (intro _; intros; try dsimp only) | simp only [keeps_mk] | split | (split <;> try dsimp only))

theorem oldBankDrained_keeps {u0 : State} {s : State} (h1 : u0.Keeps s) : u0.Keeps (oldBankDrained s) := by
  unfold oldBankDrained
  repeat' (first | (with_reducible first | assumption | apply setB_keeps) | (intro _; intros; try dsimp only) | simp only [keeps_mk, keeps_mk_scr, keeps_mk_tab, keeps_mk_scr_tab, keeps_mk_otp] | split | (split <;> try dsimp only))

theorem sigMasterLost_keeps {u0 : State} {s : State} {key : Nat} (h1 : u0.Keeps s) : u0.Keeps (sigMasterLost s key) := by
  unfold sigMasterLost
  dsimp only
  repeat' (first | (with_reducible first | assumption | apply sigClearBad_keeps | apply setF_keeps | apply sigCounts_keeps | apply setB_keeps | apply levelMore_keeps) | simp only [keeps_mk] | split | (split <;> try dsimp only))

theorem sigRead_keeps {u0 : State} {c : HostCmd} {masterBad : Bool} {s : State} (h1 : u0.Keeps s) : u0.Keeps (sigRead c masterBad s) := by
  unfold sigRead
  dsimp only
  repeat' (first | (with_reducible first | assumption | apply keeps_ite | apply sigMasterLost_keeps | apply finish_keeps) | (intro _; intros; try dsimp only) | simp only [keeps_mk, keeps_mk_scr, keeps_mk_tab, keeps_mk_scr_tab, keeps_mk_otp] | split | (split <;> try dsimp only))

theorem sigEntryRepair_keeps {u0 : State} {n : Fin 20} {key : Nat} {masterBad : Bool} {s : State} (h1 : u0.Keeps s) : u0.Keeps (sigEntryRepair n key masterBad s) := by
  unfold sigEntryRepair
  dsimp only
  repeat' (first | (with_reducible first | assumption | apply keeps_ite | apply bump_keeps | apply report_keeps | apply sigMasterLost_keeps) | simp only [keeps_mk] | split | (split <;> try dsimp only))

theorem sigLostClear_keeps {u0 : State} {s : State} (h1 : u0.Keeps s) : u0.Keeps (sigLostClear s) := by
  unfold sigLostClear
  repeat' (first | (with_reducible first | assumption | apply keeps_ite | apply setB_keeps) | (intro _; intros; try dsimp only) | simp only [keeps_mk, keeps_mk_scr, keeps_mk_tab, keeps_mk_scr_tab, keeps_mk_otp] | split | (split <;> try dsimp only))

theorem scanStat_keeps {u0 : State} {s : State} {n : Nat} (h1 : u0.Keeps s) : u0.Keeps (scanStat s n) := by
  unfold scanStat
  repeat' (first | (with_reducible first | assumption | apply setPeak_keeps) | (intro _; intros; try dsimp only) | simp only [keeps_mk, keeps_mk_scr, keeps_mk_tab, keeps_mk_scr_tab, keeps_mk_otp] | split | (split <;> try dsimp only))

theorem enterPipe_keeps {u0 : State} {s : State} {n : Nat} {f : InFrame} (h1 : u0.Keeps s) : u0.Keeps (enterPipe s n f) := by
  unfold enterPipe
  dsimp only
  repeat' (first | (with_reducible first | assumption | apply keeps_ite | apply scanStat_keeps | apply bump_keeps | apply bumpIf_keeps) | simp only [keeps_mk] | split | (split <;> try dsimp only))

theorem scanWindow_keeps {u0 : State} {n : Fin 20} {bad : List Nat} {corr : Nat} {s : State} (h1 : u0.Keeps s) : u0.Keeps (scanWindow n bad corr s) := by
  unfold scanWindow
  dsimp only
  repeat' (first | (with_reducible first | assumption | apply keeps_ite | apply keeps_foldl | apply scanStat_keeps | apply bump_keeps | apply bumpIf_keeps) | (intro _; intros; try dsimp only) | simp only [keeps_mk] | split | (split <;> try dsimp only))

end Sys2Proof.Machine
end

