-- ==== Sys2Proof/Laws/KeepsTables.lean ====
section
/-! SUPPORT. What the operations of Machine/Tables.lean keep: the queue of commands, the identity of the part, canonical stores. -/

namespace Sys2Proof.Machine

theorem tabPut_keeps {u0 : State} {s : State} {t i v : Nat} (h1 : u0.Keeps s) : u0.Keeps (tabPut s t i v) := by
  unfold tabPut
  dsimp only
  exact keeps_of (injUncorr_keeps h1) rfl (grows_refl _) (fun c => ⟨c.1, c.2.1, mwf_mput keyStart _ _ _ c.2.2⟩)

theorem tableEcc_keeps {u0 : State} {s : State} {t key : Nat} (h1 : u0.Keeps s) : u0.Keeps (tableEcc s t key) := by
  unfold tableEcc
  dsimp only
  repeat' (first | (with_reducible first | assumption | apply setF_keeps | apply wrPair_keeps | apply report_keeps | apply setB_keeps) | (intro _; intros; try dsimp only) | simp only [keeps_mk, keeps_mk_scr, keeps_mk_tab, keeps_mk_scr_tab, keeps_mk_otp] | split | (split <;> try dsimp only))

theorem actionWord_keeps {u0 : State} {s : State} {key : Nat} (h1 : u0.Keeps s) : u0.Keeps (actionWord s key) := by
  unfold actionWord
  repeat' (first | (with_reducible first | assumption | apply report_keeps) | (intro _; intros; try dsimp only) | simp only [keeps_mk, keeps_mk_scr, keeps_mk_tab, keeps_mk_scr_tab, keeps_mk_otp] | split | (split <;> try dsimp only))

theorem actionEcc_keeps {u0 : State} {s : State} {n key : Nat} (h1 : u0.Keeps s) : u0.Keeps (actionEcc s n key) := by
  unfold actionEcc
  repeat' (first | (with_reducible first | assumption | apply actionWord_keeps | apply bump_keeps) | (intro _; intros; try dsimp only) | simp only [keeps_mk, keeps_mk_scr, keeps_mk_tab, keeps_mk_scr_tab, keeps_mk_otp] | split | (split <;> try dsimp only))

theorem wordEcc_keeps {u0 : State} {s : State} {t i : Nat} (h1 : u0.Keeps s) : u0.Keeps (wordEcc s t i) := by
  unfold wordEcc
  repeat' (first | (with_reducible first | assumption | apply keeps_ite | apply actionWord_keeps | apply tableEcc_keeps) | (intro _; intros; try dsimp only) | simp only [keeps_mk, keeps_mk_scr, keeps_mk_tab, keeps_mk_scr_tab, keeps_mk_otp] | split | (split <;> try dsimp only))

theorem setLpm_keeps {u0 : State} {s : State} {t : Nat} {m : NMap Nat} (h1 : u0.Keeps s) : u0.Keeps (setLpm s t m) := by
  unfold setLpm
  dsimp only
  repeat' (first | (with_reducible first | assumption | apply keeps_ite | apply setF_keeps) | simp only [keeps_mk_tab] | split | (split <;> try dsimp only))

theorem hostSet_keeps {u0 : State} {s : State} {b x : Nat} {e : Option HostEnt} (h1 : u0.Keeps s) : u0.Keeps (hostSet s b x e) := by
  unfold hostSet
  dsimp only
  repeat' (first | (with_reducible first | assumption | apply setF_keeps | apply injUncorr_keeps) | simp only [keeps_mk_tab] | split | (split <;> try dsimp only))

theorem macSet_keeps {u0 : State} {s : State} {n b x : Nat} {e : Option MacEnt} (h1 : u0.Keeps s) : u0.Keeps (macSet s n b x e) := by
  unfold macSet
  dsimp only
  repeat' (first | (with_reducible first | assumption | apply setF_keeps | apply injUncorr_keeps) | simp only [keeps_mk_tab] | split | (split <;> try dsimp only))

theorem macMove_keeps {u0 : State} {s : State} {n b x b' x' : Nat} {e : MacEnt} (h1 : u0.Keeps s) : u0.Keeps (macMove s n b x b' x' e) := by
  unfold macMove
  dsimp only
  repeat' (first | (with_reducible first | assumption | apply macSet_keeps) | simp only [keeps_mk_tab] | split | (split <;> try dsimp only))

end Sys2Proof.Machine
end

