-- ==== Sys2Proof/Laws/KeepsTabCmd.lean ====
section
/-! SUPPORT. What the operations of Machine/TabCmd.lean keep: the queue of commands, the identity of the part, canonical stores. -/

namespace Sys2Proof.Machine

theorem putNode_keeps {u0 : State} {s : State} {c : Nat} {x : NodeSt} (h1 : u0.Keeps s) : u0.Keeps (putNode s c x) := by
  unfold putNode
  dsimp only
  repeat' (first | with_reducible assumption | simp only [keeps_mk] | split | (split <;> try dsimp only))

theorem wheelPlace_keeps {u0 : State} {s : State} {key te : Nat} (h1 : u0.Keeps s) : u0.Keeps (wheelPlace s key te) := by
  unfold wheelPlace
  dsimp only
  repeat' (first | with_reducible assumption | simp only [keeps_mk] | split | (split <;> try dsimp only))

theorem putTe_keeps {u0 : State} {s : State} {c : Nat} {x : NodeSt} (h1 : u0.Keeps s) : u0.Keeps (putTe s c x) := by
  unfold putTe
  repeat' (first | (with_reducible first | assumption | apply wheelPlace_keeps | apply putNode_keeps) | (intro _; intros; try dsimp only) | simp only [keeps_mk, keeps_mk_scr, keeps_mk_tab, keeps_mk_scr_tab, keeps_mk_otp] | split | (split <;> try dsimp only))

theorem rescaleNode_keeps {u0 : State} {s : State} {c a b a' b' : Nat} (h1 : u0.Keeps s) : u0.Keeps (rescaleNode s c a b a' b') := by
  unfold rescaleNode
  dsimp only
  repeat' (first | (with_reducible first | assumption | apply putTe_keeps) | (intro _; intros; try dsimp only) | simp only [keeps_mk, keeps_mk_scr, keeps_mk_tab, keeps_mk_scr_tab, keeps_mk_otp] | split | (split <;> try dsimp only))

theorem fenceCount_keeps {u0 : State} {s : State} (h1 : u0.Keeps s) : u0.Keeps (fenceCount s) := by
  unfold fenceCount
  repeat' (first | (with_reducible first | assumption | apply setF_keeps) | (intro _; intros; try dsimp only) | simp only [keeps_mk, keeps_mk_scr, keeps_mk_tab, keeps_mk_scr_tab, keeps_mk_otp] | split | (split <;> try dsimp only))

theorem afterWrite_keeps {u0 : State} {s0 : State} {fn t i old : Nat} {s : State} (h1 : u0.Keeps s0) (h2 : u0.Keeps s) : u0.Keeps (afterWrite s0 fn t i old s) := by
  unfold afterWrite
  dsimp only
  repeat' (first | (with_reducible first | assumption | apply keeps_foldl | apply fenceCount_keeps | apply rescaleNode_keeps) | (intro _; intros; try dsimp only) | simp only [keeps_mk, keeps_mk_tab] | split | (split <;> try dsimp only))

theorem directWrite_keeps {u0 : State} {s : State} {fn : Nat} {ins : Bool} {t i v : Nat} (h1 : u0.Keeps s) : u0.Keeps (directWrite s fn ins t i v).s := by
  unfold directWrite
  dsimp only
  repeat' (first | (with_reducible first | assumption | apply tabPut_keeps | apply afterWrite_keeps) | split | (split <;> try dsimp only))

theorem directDelete_keeps {u0 : State} {s : State} {fn t i : Nat} (h1 : u0.Keeps s) : u0.Keeps (directDelete s fn t i).s := by
  unfold directDelete
  dsimp only
  repeat' (first | (with_reducible first | assumption | apply tabPut_keeps | apply afterWrite_keeps) | split | (split <;> try dsimp only))

theorem directRead_keeps {u0 : State} {s : State} {fn t i : Nat} (h1 : u0.Keeps s) : u0.Keeps (directRead s fn t i).s := by
  unfold directRead
  dsimp only
  repeat' (first | with_reducible assumption | split | (split <;> try dsimp only))

theorem directSearch_keeps {u0 : State} {s : State} {fn t : Nat} {b : Bytes} (h1 : u0.Keeps s) : u0.Keeps (directSearch s fn t b).s := by
  unfold directSearch
  dsimp only
  repeat' (first | with_reducible assumption | split | (split <;> try dsimp only))

theorem directNext_keeps {u0 : State} {s : State} {fn t : Nat} {after : Option Nat} (h1 : u0.Keeps s) : u0.Keeps (directNext s fn t after).s := by
  unfold directNext
  dsimp only
  repeat' (first | with_reducible assumption | split | (split <;> try dsimp only))

theorem lpmWrite_keeps {u0 : State} {s : State} {fn op t : Nat} {b : Bytes} (h1 : u0.Keeps s) : u0.Keeps (lpmWrite s fn op t b).s := by
  unfold lpmWrite
  dsimp only
  repeat' (first | (with_reducible first | assumption | apply setLpm_keeps) | split | (split <;> try dsimp only))

theorem lpmRead_keeps {u0 : State} {s : State} {fn op t : Nat} {sub : Nat} {b : Bytes} (h1 : u0.Keeps s) : u0.Keeps (lpmRead s fn op t sub b).s := by
  unfold lpmRead
  dsimp only
  repeat' (first | with_reducible assumption | split | (split <;> try dsimp only))

theorem rehashEvent_keeps {u0 : State} {s : State} {ev : Nat} {c : HostCmd} {pipe typ b0 b1 : Nat} {key : Bytes} (h1 : u0.Keeps s) : u0.Keeps (rehashEvent s ev c pipe typ b0 b1 key) := by
  unfold rehashEvent
  repeat' (first | (with_reducible first | assumption | apply perf_keeps | apply hostEvent_keeps) | (intro _; intros; try dsimp only) | simp only [keeps_mk, keeps_mk_scr, keeps_mk_tab, keeps_mk_scr_tab, keeps_mk_otp] | split | (split <;> try dsimp only))

theorem hostWrite_keeps {u0 : State} {s : State} {ev op : Nat} {c : HostCmd} (h1 : u0.Keeps s) : u0.Keeps (hostWrite s ev op c).s := by
  unfold hostWrite
  dsimp only
  repeat' (first | (with_reducible first | assumption | apply hostSet_keeps | apply rehashEvent_keeps) | split | (split <;> try dsimp only))

theorem hostMove_keeps {u0 : State} {s : State} {c : HostCmd} (h1 : u0.Keeps s) : u0.Keeps (hostMove s c).s := by
  unfold hostMove
  dsimp only
  repeat' (first | (with_reducible first | assumption | apply hostSet_keeps) | split | (split <;> try dsimp only))

theorem hostRead_keeps {u0 : State} {s : State} {op : Nat} {c : HostCmd} (h1 : u0.Keeps s) : u0.Keeps (hostRead s op c).s := by
  unfold hostRead
  dsimp only
  repeat' (first | with_reducible assumption | split | (split <;> try dsimp only))

theorem macWriteOne_keeps {u0 : State} {s : State} {ev op : Nat} {c : HostCmd} {n : Nat} (h1 : u0.Keeps s) : u0.Keeps (macWriteOne s ev op c n).2 := by
  unfold macWriteOne
  dsimp only
  repeat' (first | (with_reducible first | assumption | apply macSet_keeps | apply rehashEvent_keeps) | split | (split <;> try dsimp only))
theorem macWriteOne_keeps_of {u0 : State} {s : State} {ev op : Nat} {c : HostCmd} {n : Nat} {v0 : Status} {v1 : State} (e : macWriteOne s ev op c n = (v0, v1)) (h1 : u0.Keeps s) : u0.Keeps v1 := by
  have h : u0.Keeps (macWriteOne s ev op c n).2 := macWriteOne_keeps h1 
  rw [e] at h
  exact h

theorem macWrite_keeps {u0 : State} {s : State} {ev op : Nat} {c : HostCmd} (h1 : u0.Keeps s) : u0.Keeps (macWrite s ev op c).s := by
  unfold macWrite
  dsimp only
  repeat' (first | (with_reducible first | assumption | apply keeps_foldl_snd | apply macWriteOne_keeps) | (intro _; intros; try dsimp only) | split | (split <;> try dsimp only))

theorem macMoveCmd_keeps {u0 : State} {s : State} {c : HostCmd} (h1 : u0.Keeps s) : u0.Keeps (macMoveCmd s c).s := by
  unfold macMoveCmd
  dsimp only
  repeat' (first | (with_reducible first | assumption | apply macMove_keeps) | split | (split <;> try dsimp only))

theorem macRead_keeps {u0 : State} {s : State} {op : Nat} {c : HostCmd} (h1 : u0.Keeps s) : u0.Keeps (macRead s op c).s := by
  unfold macRead
  dsimp only
  repeat' (first | with_reducible assumption | split | (split <;> try dsimp only))

theorem flushStat_keeps {u0 : State} {s : State} (h1 : u0.Keeps s) : u0.Keeps (flushStat s) := by
  unfold flushStat
  repeat' (first | (with_reducible first | assumption | apply setF_keeps) | (intro _; intros; try dsimp only) | simp only [keeps_mk, keeps_mk_scr, keeps_mk_tab, keeps_mk_scr_tab, keeps_mk_otp] | split | (split <;> try dsimp only))

theorem flushTake_keeps {u0 : State} {s : State} {f : Flush} (h1 : u0.Keeps s) : u0.Keeps (flushTake s f) := by
  unfold flushTake
  dsimp only
  repeat' (first | (with_reducible first | assumption | apply flushStat_keeps) | simp only [keeps_mk_tab] | split | (split <;> try dsimp only))

theorem flushDrop_keeps {u0 : State} {s : State} {e : Nat × Nat × Nat} (h1 : u0.Keeps s) : u0.Keeps (flushDrop s e) := by
  unfold flushDrop
  repeat' (first | (with_reducible first | assumption | apply macSet_keeps) | split | (split <;> try dsimp only))

theorem flushSweep_keeps {u0 : State} {s : State} {f : Flush} {rest : List Flush} (h1 : u0.Keeps s) : u0.Keeps (flushSweep s f rest).1 := by
  unfold flushSweep
  dsimp only
  repeat' (first | (with_reducible first | assumption | apply keeps_foldl | apply setF_keeps | apply setB_keeps | apply flushStat_keeps | apply flushDrop_keeps) | simp only [keeps_mk_tab] | split | (split <;> try dsimp only))
theorem flushSweep_keeps_of {u0 : State} {s : State} {f : Flush} {rest : List Flush} {v0 : State} {v1 : Nat} (e : flushSweep s f rest = (v0, v1)) (h1 : u0.Keeps s) : u0.Keeps v0 := by
  have h : u0.Keeps (flushSweep s f rest).1 := flushSweep_keeps h1 
  rw [e] at h
  exact h

theorem writeEng_keeps {u0 : State} {ev op : Nat} {c : HostCmd} {s : State} (h1 : u0.Keeps s) : u0.Keeps (writeEng ev op c s).s := by
  unfold writeEng
  dsimp only
  repeat' (first | (with_reducible first | assumption | apply macWrite_keeps | apply directDelete_keeps | apply lpmWrite_keeps | apply directWrite_keeps | apply hostWrite_keeps) | split | (split <;> try dsimp only))

theorem readEng_keeps {u0 : State} {op : Nat} {c : HostCmd} {s : State} (h1 : u0.Keeps s) : u0.Keeps (readEng op c s).s := by
  unfold readEng
  dsimp only
  repeat' (first | (with_reducible first | assumption | apply hostRead_keeps | apply macRead_keeps | apply directRead_keeps | apply directSearch_keeps | apply directNext_keeps | apply lpmRead_keeps) | split | (split <;> try dsimp only))

theorem moveEng_keeps {u0 : State} {c : HostCmd} {s : State} (h1 : u0.Keeps s) : u0.Keeps (moveEng c s).s := by
  unfold moveEng
  repeat' (first | (with_reducible first | assumption | apply hostMove_keeps | apply macMoveCmd_keeps) | split | (split <;> try dsimp only))

theorem mirrorEng_keeps {u0 : State} {c : HostCmd} {s : State} (h1 : u0.Keeps s) : u0.Keeps (mirrorEng c s).s := by
  unfold mirrorEng
  repeat' (first | (with_reducible first | assumption | apply storeEng_keeps | apply moveEng_keeps | apply writeEng_keeps) | split | (split <;> try dsimp only))

theorem insertEntry_keeps {u0 : State} {c : HostCmd} {s : State} (h1 : u0.Keeps s) : u0.Keeps (insertEntry c s) := by
  unfold insertEntry
  repeat' (first | (with_reducible first | assumption | apply perf_keeps | apply hostCmd_keeps | apply writeEng_keeps) | (intro _; intros; try dsimp only) | simp only [keeps_mk, keeps_mk_scr, keeps_mk_tab, keeps_mk_scr_tab, keeps_mk_otp] | split | (split <;> try dsimp only))

theorem deleteEntry_keeps {u0 : State} {c : HostCmd} {s : State} (h1 : u0.Keeps s) : u0.Keeps (deleteEntry c s) := by
  unfold deleteEntry
  repeat' (first | (with_reducible first | assumption | apply perf_keeps | apply hostCmd_keeps | apply writeEng_keeps) | (intro _; intros; try dsimp only) | simp only [keeps_mk, keeps_mk_scr, keeps_mk_tab, keeps_mk_scr_tab, keeps_mk_otp] | split | (split <;> try dsimp only))

theorem modify_keeps {u0 : State} {c : HostCmd} {s : State} (h1 : u0.Keeps s) : u0.Keeps (modify c s) := by
  unfold modify
  repeat' (first | (with_reducible first | assumption | apply perf_keeps | apply hostCmd_keeps | apply writeEng_keeps) | (intro _; intros; try dsimp only) | simp only [keeps_mk, keeps_mk_scr, keeps_mk_tab, keeps_mk_scr_tab, keeps_mk_otp] | split | (split <;> try dsimp only))

theorem search_keeps {u0 : State} {c : HostCmd} {s : State} (h1 : u0.Keeps s) : u0.Keeps (search c s) := by
  unfold search
  repeat' (first | (with_reducible first | assumption | apply readEng_keeps | apply perf_keeps | apply hostCmd_keeps) | (intro _; intros; try dsimp only) | simp only [keeps_mk, keeps_mk_scr, keeps_mk_tab, keeps_mk_scr_tab, keeps_mk_otp] | split | (split <;> try dsimp only))

theorem nextEntry_keeps {u0 : State} {c : HostCmd} {s : State} (h1 : u0.Keeps s) : u0.Keeps (nextEntry c s) := by
  unfold nextEntry
  repeat' (first | (with_reducible first | assumption | apply readEng_keeps | apply perf_keeps | apply hostCmd_keeps) | (intro _; intros; try dsimp only) | simp only [keeps_mk, keeps_mk_scr, keeps_mk_tab, keeps_mk_scr_tab, keeps_mk_otp] | split | (split <;> try dsimp only))

theorem readEntry_keeps {u0 : State} {c : HostCmd} {s : State} (h1 : u0.Keeps s) : u0.Keeps (readEntry c s) := by
  unfold readEntry
  repeat' (first | (with_reducible first | assumption | apply readEng_keeps | apply hostCmd_keeps) | (intro _; intros; try dsimp only) | simp only [keeps_mk, keeps_mk_scr, keeps_mk_tab, keeps_mk_scr_tab, keeps_mk_otp] | split | (split <;> try dsimp only))

theorem retryAfterMove_keeps {u0 : State} {s : State} {c : HostCmd} (h1 : u0.Keeps s) : u0.Keeps (retryAfterMove s c) := by
  unfold retryAfterMove
  dsimp only
  repeat' (first | (with_reducible first | assumption | apply keeps_ite | apply keeps_foldl | apply mirrorEng_keeps) | (intro _; intros; try dsimp only) | simp only [keeps_mk] | split | (split <;> try dsimp only))

theorem move_keeps {u0 : State} {c : HostCmd} {s : State} (h1 : u0.Keeps s) : u0.Keeps (move c s) := by
  unfold move
  dsimp only
  repeat' (first | (with_reducible first | assumption | apply keeps_ite | apply retryAfterMove_keeps | apply moveEng_keeps | apply perf_keeps | apply hostCmd_keeps) | (intro _; intros; try dsimp only) | simp only [keeps_mk, keeps_mk_scr, keeps_mk_tab, keeps_mk_scr_tab, keeps_mk_otp] | split | (split <;> try dsimp only))

theorem nop_keeps {u0 : State} {c : HostCmd} {s : State} (h1 : u0.Keeps s) : u0.Keeps (nop c s) := by
  unfold nop
  repeat' (first | (with_reducible first | assumption | apply hostCmd_keeps) | (intro _; intros; try dsimp only) | simp only [keeps_mk, keeps_mk_scr, keeps_mk_tab, keeps_mk_scr_tab, keeps_mk_otp] | split | (split <;> try dsimp only))

theorem flushByPort_keeps {u0 : State} {c : HostCmd} {s : State} (h1 : u0.Keeps s) : u0.Keeps (flushByPort c s) := by
  unfold flushByPort
  dsimp only
  repeat' (first | (with_reducible first | assumption | apply keeps_ite | apply flushTake_keeps | apply refuseOpcodes_keeps | apply finish_keeps | apply mirrorItem_keeps) | (intro _; intros; try dsimp only) | simp only [keeps_mk, keeps_mk_scr, keeps_mk_tab, keeps_mk_scr_tab, keeps_mk_otp] | split | (split <;> try dsimp only))

theorem flushByPortDone_keeps {u0 : State} {s : State} (h1 : u0.Keeps s) : u0.Keeps (flushByPortDone s) := by
  unfold flushByPortDone
  dsimp only
  repeat' (first | (with_reducible first | assumption | apply keeps_ite | apply finish_keeps | apply flushSweep_keeps) | split | (split <;> try dsimp only))

end Sys2Proof.Machine
end

