-- ==== Sys2Proof/Laws/KeepsLookup.lean ====
section
/-! SUPPORT. What the operations of Machine/Lookup.lean keep: the queue of commands, the identity of the part, canonical stores. -/

namespace Sys2Proof.Machine

theorem busPut_keeps {u0 : State} {s : State} {x : BusMsg} (h1 : u0.Keeps s) : u0.Keeps (busPut s x) := by
  unfold busPut
  dsimp only
  repeat' (first | (with_reducible first | assumption | apply keeps_ite | apply bump_keeps) | simp only [keeps_mk_tab] | split | (split <;> try dsimp only))

theorem busSend_keeps {u0 : State} {s : State} {n : Nat} {refresh : Bool} {bd mac res : Nat} (h1 : u0.Keeps s) : u0.Keeps (busSend s n refresh bd mac res) := by
  unfold busSend
  repeat' (first | (with_reducible first | assumption | apply keeps_foldl | apply busPut_keeps) | (intro _; intros; try dsimp only) | simp only [keeps_mk, keeps_mk_scr, keeps_mk_tab, keeps_mk_scr_tab, keeps_mk_otp] | split | (split <;> try dsimp only))

theorem learnNew_keeps {u0 : State} {s : State} {n bd mac res : Nat} {shared : Bool} (h1 : u0.Keeps s) : u0.Keeps (learnNew s n bd mac res shared).2 := by
  unfold learnNew
  dsimp only
  repeat' (first | (with_reducible first | assumption | apply bump_keeps | apply perfTenant_keeps | apply perf_keeps | apply macSet_keeps) | split | (split <;> try dsimp only))
theorem learnNew_keeps_of {u0 : State} {s : State} {n bd mac res : Nat} {shared : Bool} {v0 : Bool} {v1 : State} (e : learnNew s n bd mac res shared = (v0, v1)) (h1 : u0.Keeps s) : u0.Keeps v1 := by
  have h : u0.Keeps (learnNew s n bd mac res shared).2 := learnNew_keeps h1 
  rw [e] at h
  exact h

theorem learnShared_keeps {u0 : State} {s : State} {x : BusMsg} (h1 : u0.Keeps s) : u0.Keeps (learnShared s x) := by
  unfold learnShared
  dsimp only
  repeat' (first | (with_reducible first | assumption | apply keeps_ite | apply bump_keeps | apply learnNew_keeps | apply macSet_keeps) | split | (split <;> try dsimp only))

theorem learnOwn_keeps {u0 : State} {s : State} {n bd mac res : Nat} (h1 : u0.Keeps s) : u0.Keeps (learnOwn s n bd mac res).2 := by
  unfold learnOwn
  dsimp only
  repeat' (first | (with_reducible first | assumption | apply keeps_ite | apply bump_keeps | apply learnNew_keeps | apply busSend_keeps | apply macSet_keeps) | split | (split <;> try dsimp only))
theorem learnOwn_keeps_of {u0 : State} {s : State} {n bd mac res : Nat} {v0 : Bool} {v1 : State} (e : learnOwn s n bd mac res = (v0, v1)) (h1 : u0.Keeps s) : u0.Keeps v1 := by
  have h : u0.Keeps (learnOwn s n bd mac res).2 := learnOwn_keeps h1 
  rw [e] at h
  exact h

theorem learnBusMsg_keeps {u0 : State} {s : State} (h1 : u0.Keeps s) : u0.Keeps (learnBusMsg s) := by
  unfold learnBusMsg
  dsimp only
  repeat' (first | (with_reducible first | assumption | apply keeps_ite | apply bump_keeps | apply learnShared_keeps) | simp only [keeps_mk_tab] | split | (split <;> try dsimp only))

theorem learnRefreshMsg_keeps {u0 : State} {s : State} (h1 : u0.Keeps s) : u0.Keeps (learnRefreshMsg s) := by
  unfold learnRefreshMsg
  dsimp only
  repeat' (first | (with_reducible first | assumption | apply keeps_ite | apply bump_keeps | apply macSet_keeps) | simp only [keeps_mk_tab] | split | (split <;> try dsimp only))

theorem ageEntry_keeps {u0 : State} {s : State} {n : Nat} {k : Nat} {e : MacEnt} (h1 : u0.Keeps s) : u0.Keeps (ageEntry s n k e) := by
  unfold ageEntry
  dsimp only
  repeat' (first | (with_reducible first | assumption | apply keeps_ite | apply bump_keeps | apply perf_keeps | apply macSet_keeps) | (intro _; intros; try dsimp only) | simp only [keeps_mk, keeps_mk_scr, keeps_mk_tab, keeps_mk_scr_tab, keeps_mk_otp] | split | (split <;> try dsimp only))

theorem ageSweep_keeps {u0 : State} {n : Fin 20} {t : Fin 256} {s : State} (h1 : u0.Keeps s) : u0.Keeps (ageSweep n t s) := by
  unfold ageSweep
  repeat' (first | (with_reducible first | assumption | apply keeps_ite | apply keeps_foldl | apply ageEntry_keeps) | (intro _; intros; try dsimp only) | simp only [keeps_mk, keeps_mk_scr, keeps_mk_tab, keeps_mk_scr_tab, keeps_mk_otp] | split | (split <;> try dsimp only))

theorem trieNodeRebuild_keeps {u0 : State} {s : State} (h1 : u0.Keeps s) : u0.Keeps (trieNodeRebuild s) := by
  unfold trieNodeRebuild
  dsimp only
  repeat' (first | (with_reducible first | assumption | apply setB_keeps) | simp only [keeps_mk_tab] | split | (split <;> try dsimp only))

theorem hitFwd_keeps {u0 : State} {s : State} {x : Hit} {h : Nat} (h1 : u0.Keeps s) : u0.Keeps (hitFwd s x h).2 := by
  unfold hitFwd
  dsimp only
  repeat' (first | (with_reducible first | assumption | apply tableEcc_keeps) | split | (split <;> try dsimp only))
theorem hitFwd_keeps_of {u0 : State} {s : State} {x : Hit} {h : Nat} {v0 : Fwd} {v1 : State} (e : hitFwd s x h = (v0, v1)) (h1 : u0.Keeps s) : u0.Keeps v1 := by
  have h : u0.Keeps (hitFwd s x h).2 := hitFwd_keeps h1 
  rw [e] at h
  exact h

theorem forwardLookup_keeps {u0 : State} {s : State} {n : Nat} {f : InFrame} {r : PRec} {bd h : Nat} (h1 : u0.Keeps s) : u0.Keeps (forwardLookup s n f r bd h).2 := by
  unfold forwardLookup
  dsimp only
  repeat' (first | (with_reducible first | assumption | apply hitFwd_keeps | apply tableEcc_keeps) | split | (split <;> try dsimp only))
theorem forwardLookup_keeps_of {u0 : State} {s : State} {n : Nat} {f : InFrame} {r : PRec} {bd h : Nat} {v0 : FwdRes} {v1 : State} (e : forwardLookup s n f r bd h = (v0, v1)) (h1 : u0.Keeps s) : u0.Keeps v1 := by
  have h : u0.Keeps (forwardLookup s n f r bd h).2 := forwardLookup_keeps h1 
  rw [e] at h
  exact h

theorem fwdL2_keeps {u0 : State} {s : State} {n bd : Nat} {r : PRec} {h : Nat} (h1 : u0.Keeps s) : u0.Keeps (fwdL2 s n bd r h).2 := by
  unfold fwdL2
  repeat' (first | (with_reducible first | assumption | apply bump_keeps | apply hitFwd_keeps) | refine hitFwd_keeps_of (by with_reducible assumption) ?_ | split | (split <;> try dsimp only))
theorem fwdL2_keeps_of {u0 : State} {s : State} {n bd : Nat} {r : PRec} {h : Nat} {v0 : Fwd} {v1 : State} (e : fwdL2 s n bd r h = (v0, v1)) (h1 : u0.Keeps s) : u0.Keeps v1 := by
  have h : u0.Keeps (fwdL2 s n bd r h).2 := fwdL2_keeps h1 
  rw [e] at h
  exact h

theorem fragStat_keeps {u0 : State} {s : State} {n : Nat} (h1 : u0.Keeps s) : u0.Keeps (fragStat s n) := by
  unfold fragStat
  dsimp only
  repeat' (first | (with_reducible first | assumption | apply setPeak_keeps) | (intro _; intros; try dsimp only) | simp only [keeps_mk, keeps_mk_scr, keeps_mk_tab, keeps_mk_scr_tab, keeps_mk_otp] | split | (split <;> try dsimp only))

theorem fragPut_keeps {u0 : State} {s : State} {n set : Nat} {l : List FragEnt} (h1 : u0.Keeps s) : u0.Keeps (fragPut s n set l) := by
  unfold fragPut
  dsimp only
  repeat' (first | (with_reducible first | assumption | apply fragStat_keeps) | simp only [keeps_mk] | split | (split <;> try dsimp only))

theorem fragEntryAge_keeps {u0 : State} {n : Fin 20} {set : Fin 1024} {i : Fin 4} {s : State} (h1 : u0.Keeps s) : u0.Keeps (fragEntryAge n set i s) := by
  unfold fragEntryAge
  dsimp only
  repeat' (first | (with_reducible first | assumption | apply keeps_ite | apply fragPut_keeps | apply bump_keeps) | split | (split <;> try dsimp only))

theorem fragEmpty_keeps {u0 : State} {s : State} {n : Nat} (h1 : u0.Keeps s) : u0.Keeps (fragEmpty s n) := by
  unfold fragEmpty
  dsimp only
  repeat' (first | (with_reducible first | assumption | apply fragStat_keeps) | simp only [keeps_mk] | split | (split <;> try dsimp only))

theorem fragFlush_keeps {u0 : State} {n : Fin 20} {s : State} (h1 : u0.Keeps s) : u0.Keeps (fragFlush n s) := by
  unfold fragFlush
  repeat' (first | (with_reducible first | assumption | apply operWrite_keeps | apply fragEmpty_keeps) | (intro _; intros; try dsimp only) | simp only [keeps_mk, keeps_mk_scr, keeps_mk_tab, keeps_mk_scr_tab, keeps_mk_otp] | split | (split <;> try dsimp only))

end Sys2Proof.Machine
end

