-- ==== Sys2Proof/Laws/KeepsScratch.lean ====
section
/-! SUPPORT. What the operations of Machine/Scratch.lean keep: the queue of commands, the identity of the part, canonical stores. -/

namespace Sys2Proof.Machine

theorem scrPut_keeps {u0 : State} {s : State} {m w v : Nat} {e : EccErr} (h1 : u0.Keeps s) : u0.Keeps (scrPut s m w v e) := by
  unfold scrPut
  dsimp only
  exact keeps_of h1 rfl (grows_refl _) (fun c => ⟨c.1, mwf_mput (fun _ => 0) _ _ _ c.2.1, c.2.2⟩)

theorem scrWrite_keeps {u0 : State} {s : State} {m w v : Nat} (h1 : u0.Keeps s) : u0.Keeps (scrWrite s m w v) := by
  unfold scrWrite
  dsimp only
  repeat' (first | (with_reducible first | assumption | apply scrPut_keeps | apply injTake_keeps) | (intro _; intros; try dsimp only) | refine injTake_keeps_of (by with_reducible assumption) ?_ | simp only [keeps_mk, keeps_mk_scr, keeps_mk_tab, keeps_mk_scr_tab, keeps_mk_otp] | split | (split <;> try dsimp only))

theorem scrCapture_keeps {u0 : State} {s : State} {uncorr rmw : Bool} {loc : Nat} (h1 : u0.Keeps s) : u0.Keeps (scrCapture s uncorr rmw loc) := by
  unfold scrCapture
  dsimp only
  repeat' (first | (with_reducible first | assumption | apply wrPair_keeps | apply setB_keeps) | (intro _; intros; try dsimp only) | simp only [keeps_mk, keeps_mk_scr, keeps_mk_tab, keeps_mk_scr_tab, keeps_mk_otp] | split | (split <;> try dsimp only))

theorem scrCorrect_keeps {u0 : State} {s : State} {m w col : Nat} {rmw : Bool} (h1 : u0.Keeps s) : u0.Keeps (scrCorrect s m w col rmw) := by
  unfold scrCorrect
  dsimp only
  repeat' (first | (with_reducible first | assumption | apply bump_keeps | apply report_keeps | apply scrCapture_keeps | apply scrPut_keeps) | simp only [keeps_mk_scr] | split | (split <;> try dsimp only))

theorem scrBadRead_keeps {u0 : State} {s : State} {m w : Nat} {e : EccErr} (h1 : u0.Keeps s) : u0.Keeps (scrBadRead s m w e) := by
  unfold scrBadRead
  repeat' (first | (with_reducible first | assumption | apply keeps_ite | apply report_keeps | apply bump_keeps | apply scrCapture_keeps) | (intro _; intros; try dsimp only) | simp only [keeps_mk, keeps_mk_scr, keeps_mk_tab, keeps_mk_scr_tab, keeps_mk_otp] | split | (split <;> try dsimp only))

theorem scrRead_keeps {u0 : State} {s : State} {m w : Nat} (h1 : u0.Keeps s) : u0.Keeps (scrRead s m w).2.2 := by
  unfold scrRead
  dsimp only
  repeat' (first | (with_reducible first | assumption | apply scrCorrect_keeps | apply scrBadRead_keeps) | split | (split <;> try dsimp only))
theorem scrRead_keeps_of {u0 : State} {s : State} {m w : Nat} {v0 : Nat} {v1 : Bool} {v2 : State} (e : scrRead s m w = (v0, v1, v2)) (h1 : u0.Keeps s) : u0.Keeps v2 := by
  have h : u0.Keeps (scrRead s m w).2.2 := scrRead_keeps h1 
  rw [e] at h
  exact h

theorem scrRmw_keeps {u0 : State} {s : State} {m w : Nat} {f : Nat → Nat} (h1 : u0.Keeps s) : u0.Keeps (scrRmw s m w f).2.2 := by
  unfold scrRmw
  dsimp only
  repeat' (first | (with_reducible first | assumption | apply bump_keeps | apply report_keeps | apply scrCapture_keeps | apply scrPut_keeps | apply scrCorrect_keeps) | split | (split <;> try dsimp only))
theorem scrRmw_keeps_of {u0 : State} {s : State} {m w : Nat} {f : Nat → Nat} {v0 : Nat} {v1 : Bool} {v2 : State} (e : scrRmw s m w f = (v0, v1, v2)) (h1 : u0.Keeps s) : u0.Keeps v2 := by
  have h : u0.Keeps (scrRmw s m w f).2.2 := scrRmw_keeps h1 
  rw [e] at h
  exact h

theorem scrModify_keeps {u0 : State} {s : State} {m w : Nat} {f : Nat → Nat} (h1 : u0.Keeps s) : u0.Keeps (scrModify s m w f) := by
  unfold scrModify
  repeat' (first | (with_reducible first | assumption | apply scrRmw_keeps) | (intro _; intros; try dsimp only) | refine scrRmw_keeps_of (by with_reducible assumption) ?_ | simp only [keeps_mk, keeps_mk_scr, keeps_mk_tab, keeps_mk_scr_tab, keeps_mk_otp] | split | (split <;> try dsimp only))

theorem scrPipeOp_keeps {u0 : State} {s : State} {n a : Nat} {x : ScrIn} (h1 : u0.Keeps s) : u0.Keeps (scrPipeOp s n a x) := by
  unfold scrPipeOp
  dsimp only
  repeat' (first | (with_reducible first | assumption | apply keeps_ite | apply bump_keeps | apply scrWrite_keeps | apply scrModify_keeps) | simp only [keeps_mk_scr] | split | (split <;> try dsimp only))

theorem sharedScratchOp_keeps {u0 : State} {bank : Fin 32} {s : State} (h1 : u0.Keeps s) : u0.Keeps (sharedScratchOp bank s) := by
  unfold sharedScratchOp
  dsimp only
  repeat' (first | (with_reducible first | assumption | apply scrModify_keeps) | simp only [keeps_mk_scr] | split | (split <;> try dsimp only))

theorem scrHalfWrite_keeps {u0 : State} {s : State} {addr m w : Nat} {hi : Bool} {v : Nat} (h1 : u0.Keeps s) : u0.Keeps (scrHalfWrite s addr m w hi v) := by
  unfold scrHalfWrite
  repeat' (first | (with_reducible first | assumption | apply keeps_ite | apply pwfTarget_keeps | apply bump_keeps | apply scrModify_keeps) | (intro _; intros; try dsimp only) | simp only [keeps_mk, keeps_mk_scr, keeps_mk_tab, keeps_mk_scr_tab, keeps_mk_otp] | split | (split <;> try dsimp only))

theorem scrFlushHeld_keeps {u0 : State} {s : State} (h1 : u0.Keeps s) : u0.Keeps (scrFlushHeld s) := by
  unfold scrFlushHeld
  dsimp only
  repeat' (first | (with_reducible first | assumption | apply scrHalfWrite_keeps) | simp only [keeps_mk_scr] | split | (split <;> try dsimp only))

theorem scrWindowWrite_keeps {u0 : State} {addr v : Nat} {s : State} (h1 : u0.Keeps s) : u0.Keeps (scrWindowWrite addr v s) := by
  unfold scrWindowWrite
  dsimp only
  repeat' (first | (with_reducible first | assumption | apply keeps_ite | apply scrWrite_keeps | apply operWrite_keeps | apply pwfTarget_keeps | apply scrFlushHeld_keeps | apply scrHalfWrite_keeps | apply pwfD_keeps) | (intro _; intros; try dsimp only) | simp only [keeps_mk_scr] | split | (split <;> try dsimp only))

theorem scrWindowRead_keeps {u0 : State} {s : State} {addr : Nat} (h1 : u0.Keeps s) : u0.Keeps (scrWindowRead s addr).2 := by
  unfold scrWindowRead
  dsimp only
  repeat' (first | (with_reducible first | assumption | apply scrRead_keeps | apply scrFlushHeld_keeps) | simp only [keeps_mk_scr] | split | (split <;> try dsimp only))
theorem scrWindowRead_keeps_of {u0 : State} {s : State} {addr : Nat} {v0 : Nat} {v1 : State} (e : scrWindowRead s addr = (v0, v1)) (h1 : u0.Keeps s) : u0.Keeps v1 := by
  have h : u0.Keeps (scrWindowRead s addr).2 := scrWindowRead_keeps h1 
  rw [e] at h
  exact h

theorem scrWinWrite_keeps {u0 : State} {s : State} {v : Nat} (h1 : u0.Keeps s) : u0.Keeps (scrWinWrite s v) := by
  unfold scrWinWrite
  repeat' (first | (with_reducible first | assumption | apply keeps_ite | apply wr_keeps | apply scrFlushHeld_keeps) | (intro _; intros; try dsimp only) | simp only [keeps_mk, keeps_mk_scr, keeps_mk_tab, keeps_mk_scr_tab, keeps_mk_otp] | split | (split <;> try dsimp only))

theorem scrAlias_keeps {u0 : State} {set : Bool} {addr v : Nat} {s : State} (h1 : u0.Keeps s) : u0.Keeps (scrAlias set addr v s) := by
  unfold scrAlias
  repeat' (first | (with_reducible first | assumption | apply scrModify_keeps | apply operWrite_keeps | apply scrFlushHeld_keeps) | (intro _; intros; try dsimp only) | split | (split <;> try dsimp only))

theorem scrAliasSet_keeps {u0 : State} {addr v : Nat} {s : State} (h1 : u0.Keeps s) : u0.Keeps (scrAliasSet addr v s) := by
  unfold scrAliasSet
  repeat' (first | (with_reducible first | assumption | apply scrAlias_keeps) | (intro _; intros; try dsimp only) | simp only [keeps_mk, keeps_mk_scr, keeps_mk_tab, keeps_mk_scr_tab, keeps_mk_otp] | split | (split <;> try dsimp only))

theorem scrAliasClear_keeps {u0 : State} {addr v : Nat} {s : State} (h1 : u0.Keeps s) : u0.Keeps (scrAliasClear addr v s) := by
  unfold scrAliasClear
  repeat' (first | (with_reducible first | assumption | apply scrAlias_keeps) | (intro _; intros; try dsimp only) | simp only [keeps_mk, keeps_mk_scr, keeps_mk_tab, keeps_mk_scr_tab, keeps_mk_otp] | split | (split <;> try dsimp only))

theorem scrAtomic_keeps {u0 : State} {v : Nat} {act : State → Nat → Nat → Nat → Nat × Bool × State} {s : State} (h1 : u0.Keeps s) (c_act : ∀ z0 z1 z2 z3, u0.Keeps z0 → u0.Keeps (act z0 z1 z2 z3).2.2) : u0.Keeps (scrAtomic v act s) := by
  unfold scrAtomic
  dsimp only
  repeat' (first | (with_reducible first | assumption | apply keeps_ite | apply setF_keeps | apply wrPair_keeps | apply operWrite_keeps | apply pwfTarget_keeps | apply scrFlushHeld_keeps | apply c_act) | (intro _; intros; try dsimp only) | simp only [keeps_mk, keeps_mk_scr, keeps_mk_tab, keeps_mk_scr_tab, keeps_mk_otp] | split | (split <;> try dsimp only))

theorem atomAdd_keeps {u0 : State} {s : State} {m w o : Nat} (h1 : u0.Keeps s) : u0.Keeps (atomAdd s m w o).2.2 := by
  unfold atomAdd
  repeat' (first | (with_reducible first | assumption | apply scrRmw_keeps) | (intro _; intros; try dsimp only) | refine scrRmw_keeps_of (by with_reducible assumption) ?_ | simp only [keeps_mk, keeps_mk_scr, keeps_mk_tab, keeps_mk_scr_tab, keeps_mk_otp] | split | (split <;> try dsimp only))
theorem atomAdd_keeps_of {u0 : State} {s : State} {m w o : Nat} {v0 : Nat} {v1 : Bool} {v2 : State} (e : atomAdd s m w o = (v0, v1, v2)) (h1 : u0.Keeps s) : u0.Keeps v2 := by
  have h : u0.Keeps (atomAdd s m w o).2.2 := atomAdd_keeps h1 
  rw [e] at h
  exact h

theorem atomSwap_keeps {u0 : State} {s : State} {m w o : Nat} (h1 : u0.Keeps s) : u0.Keeps (atomSwap s m w o).2.2 := by
  unfold atomSwap
  dsimp only
  repeat' (first | (with_reducible first | assumption | apply scrRead_keeps | apply scrWrite_keeps) | (intro _; intros; try dsimp only) | refine scrRead_keeps_of (by with_reducible assumption) ?_ | simp only [keeps_mk, keeps_mk_scr, keeps_mk_tab, keeps_mk_scr_tab, keeps_mk_otp] | split | (split <;> try dsimp only))
theorem atomSwap_keeps_of {u0 : State} {s : State} {m w o : Nat} {v0 : Nat} {v1 : Bool} {v2 : State} (e : atomSwap s m w o = (v0, v1, v2)) (h1 : u0.Keeps s) : u0.Keeps v2 := by
  have h : u0.Keeps (atomSwap s m w o).2.2 := atomSwap_keeps h1 
  rw [e] at h
  exact h

theorem scrAtomGo_keeps {u0 : State} {v : Nat} {s : State} (h1 : u0.Keeps s) : u0.Keeps (scrAtomGo v s) := by
  unfold scrAtomGo
  repeat' (first | (with_reducible first | assumption | apply scrAtomic_keeps | apply atomSwap_keeps | apply atomAdd_keeps) | (intro _; intros; try dsimp only) | split | (split <;> try dsimp only))

theorem scrRepair_keeps {u0 : State} {s0 : State} {m w : Nat} (h1 : u0.Keeps s0) : u0.Keeps (scrRepair s0 m w) := by
  unfold scrRepair
  dsimp only
  repeat' (first | (with_reducible first | assumption | apply keeps_ite | apply memTestFailed_keeps | apply bump_keeps | apply report_keeps) | simp only [keeps_mk_scr] | split | (split <;> try dsimp only))

theorem scrTestWord_keeps {u0 : State} {m : Nat} {fails : List Nat} {s : State} {w : Nat} (h1 : u0.Keeps s) : u0.Keeps (scrTestWord m fails s w) := by
  unfold scrTestWord
  dsimp only
  repeat' (first | (with_reducible first | assumption | apply keeps_ite | apply scrBadRead_keeps | apply scrCorrect_keeps | apply scrRepair_keeps) | split | (split <;> try dsimp only))

theorem scrTestStep_keeps {u0 : State} {m : Fin 21} {fails : List Nat} {s : State} (h1 : u0.Keeps s) : u0.Keeps (scrTestStep m fails s) := by
  unfold scrTestStep
  dsimp only
  repeat' (first | (with_reducible first | assumption | apply keeps_ite | apply keeps_foldl | apply setF_keeps | apply bump_keeps | apply scrTestWord_keeps) | simp only [keeps_mk_scr] | split | (split <;> try dsimp only))

theorem scrInit_keeps {u0 : State} {s : State} (h1 : u0.Keeps s) : u0.Keeps (scrInit s) := by
  unfold scrInit
  dsimp only
  exact keeps_of h1 rfl (grows_refl _) (fun c => ⟨c.1, rfl, c.2.2⟩)

end Sys2Proof.Machine
end

