-- ==== Sys2Proof/Laws/KeepsAction.lean ====
section
/-! SUPPORT. What the operations of Machine/Action.lean keep: the queue of commands, the identity of the part, canonical stores. -/

namespace Sys2Proof.Machine

theorem bucketTake_keeps {u0 : State} {s : State} {key rate least : Nat} (h1 : u0.Keeps s) : u0.Keeps (bucketTake s key rate least).2 := by
  unfold bucketTake
  dsimp only
  repeat' (first | with_reducible assumption | simp only [keeps_mk] | split | (split <;> try dsimp only))
theorem bucketTake_keeps_of {u0 : State} {s : State} {key rate least : Nat} {v0 : Bool} {v1 : State} (e : bucketTake s key rate least = (v0, v1)) (h1 : u0.Keeps s) : u0.Keeps v1 := by
  have h : u0.Keeps (bucketTake s key rate least).2 := bucketTake_keeps h1 
  rw [e] at h
  exact h

theorem toHostTake_keeps {u0 : State} {s : State} {n : Nat} (h1 : u0.Keeps s) : u0.Keeps (toHostTake s n).2 := by
  unfold toHostTake
  dsimp only
  repeat' (first | (with_reducible first | assumption | apply bucketTake_keeps | apply bumpIf_keeps) | (intro _; intros; try dsimp only) | refine bucketTake_keeps_of (by with_reducible assumption) ?_ | simp only [keeps_mk, keeps_mk_scr, keeps_mk_tab, keeps_mk_scr_tab, keeps_mk_otp] | split | (split <;> try dsimp only))
theorem toHostTake_keeps_of {u0 : State} {s : State} {n : Nat} {v0 : Bool} {v1 : State} (e : toHostTake s n = (v0, v1)) (h1 : u0.Keeps s) : u0.Keeps v1 := by
  have h : u0.Keeps (toHostTake s n).2 := toHostTake_keeps h1 
  rw [e] at h
  exact h

theorem polFill_keeps {u0 : State} {s : State} {i : Nat} (h1 : u0.Keeps s) : u0.Keeps (polFill s i) := by
  unfold polFill
  dsimp only
  repeat' (first | (with_reducible first | assumption | apply tabPut_keeps) | simp only [keeps_mk_tab] | split | (split <;> try dsimp only))

theorem polEcc_keeps {u0 : State} {s : State} {i : Nat} (h1 : u0.Keeps s) : u0.Keeps (polEcc s i) := by
  unfold polEcc
  dsimp only
  repeat' (first | (with_reducible first | assumption | apply keeps_ite | apply actionWord_keeps) | (intro _; intros; try dsimp only) | simp only [keeps_mk, keeps_mk_scr, keeps_mk_tab, keeps_mk_scr_tab, keeps_mk_otp] | split | (split <;> try dsimp only))

theorem meter_keeps {u0 : State} {s : State} {i len : Nat} {dei : Bool} (h1 : u0.Keeps s) : u0.Keeps (meter s i len dei).2 := by
  unfold meter
  dsimp only
  repeat' (first | (with_reducible first | assumption | apply tabPut_keeps | apply polEcc_keeps | apply polFill_keeps | apply tableEcc_keeps | apply stateDue_keeps) | split | (split <;> try dsimp only))
theorem meter_keeps_of {u0 : State} {s : State} {i len : Nat} {dei : Bool} {v0 : Nat} {v1 : State} (e : meter s i len dei = (v0, v1)) (h1 : u0.Keeps s) : u0.Keeps v1 := by
  have h : u0.Keeps (meter s i len dei).2 := meter_keeps h1 
  rw [e] at h
  exact h

theorem policerSweep_keeps {u0 : State} {s : State} (h1 : u0.Keeps s) : u0.Keeps (policerSweep s) := by
  unfold policerSweep
  repeat' (first | (with_reducible first | assumption | apply keeps_foldl | apply polFill_keeps) | (intro _; intros; try dsimp only) | simp only [keeps_mk, keeps_mk_scr, keeps_mk_tab, keeps_mk_scr_tab, keeps_mk_otp] | split | (split <;> try dsimp only))

theorem defaultAct_keeps {u0 : State} {s : State} {c : PassCtx} {act reason : Nat} (h1 : u0.Keeps s) : u0.Keeps (defaultAct s c act reason).2 := by
  unfold defaultAct
  dsimp only
  repeat' (first | (with_reducible first | assumption | apply bucketTake_keeps | apply bump_keeps) | refine fwdL2_keeps_of (by with_reducible assumption) ?_ | split | (split <;> try dsimp only))
theorem defaultAct_keeps_of {u0 : State} {s : State} {c : PassCtx} {act reason : Nat} {v0 : Way} {v1 : State} (e : defaultAct s c act reason = (v0, v1)) (h1 : u0.Keeps s) : u0.Keeps v1 := by
  have h : u0.Keeps (defaultAct s c act reason).2 := defaultAct_keeps h1 
  rw [e] at h
  exact h

theorem keepWay_keeps {u0 : State} {s : State} {c : PassCtx} (h1 : u0.Keeps s) : u0.Keeps (keepWay s c).2 := by
  unfold keepWay
  repeat' (first | (with_reducible first | assumption | apply defaultAct_keeps) | split | (split <;> try dsimp only))
theorem keepWay_keeps_of {u0 : State} {s : State} {c : PassCtx} {v0 : Way} {v1 : State} (e : keepWay s c = (v0, v1)) (h1 : u0.Keeps s) : u0.Keeps v1 := by
  have h : u0.Keeps (keepWay s c).2 := keepWay_keeps h1 
  rw [e] at h
  exact h

theorem fwdWay_keeps {u0 : State} {s : State} {c : PassCtx} {v : Nat} (h1 : u0.Keeps s) : u0.Keeps (fwdWay s c v).2 := by
  unfold fwdWay
  dsimp only
  repeat' (first | (with_reducible first | assumption | apply perfTenant_keeps | apply tableEcc_keeps | apply toHostTake_keeps | apply keepWay_keeps) | split | (split <;> try dsimp only))
theorem fwdWay_keeps_of {u0 : State} {s : State} {c : PassCtx} {v : Nat} {v0 : Way} {v1 : State} (e : fwdWay s c v = (v0, v1)) (h1 : u0.Keeps s) : u0.Keeps v1 := by
  have h : u0.Keeps (fwdWay s c v).2 := fwdWay_keeps h1 
  rw [e] at h
  exact h

theorem limitWay_keeps {u0 : State} {s : State} {c : PassCtx} {w : Way} (h1 : u0.Keeps s) : u0.Keeps (limitWay s c w).2 := by
  unfold limitWay
  repeat' (first | (with_reducible first | assumption | apply bump_keeps) | split | (split <;> try dsimp only))
theorem limitWay_keeps_of {u0 : State} {s : State} {c : PassCtx} {w : Way} {v0 : Way} {v1 : State} (e : limitWay s c w = (v0, v1)) (h1 : u0.Keeps s) : u0.Keeps v1 := by
  have h : u0.Keeps (limitWay s c w).2 := limitWay_keeps h1 
  rw [e] at h
  exact h

theorem ttlWay_keeps {u0 : State} {s : State} {c : PassCtx} {v : Nat} {w : Way} (h1 : u0.Keeps s) : u0.Keeps (ttlWay s c v w).2 := by
  unfold ttlWay
  dsimp only
  repeat' (first | (with_reducible first | assumption | apply bump_keeps | apply toHostTake_keeps) | split | (split <;> try dsimp only))
theorem ttlWay_keeps_of {u0 : State} {s : State} {c : PassCtx} {v : Nat} {w : Way} {v0 : Way} {v1 : State} (e : ttlWay s c v w = (v0, v1)) (h1 : u0.Keeps s) : u0.Keeps v1 := by
  have h : u0.Keeps (ttlWay s c v w).2 := ttlWay_keeps h1 
  rw [e] at h
  exact h

theorem policeWay_keeps {u0 : State} {s : State} {c : PassCtx} {v : Nat} {w : Way} (h1 : u0.Keeps s) : u0.Keeps (policeWay s c v w).2.2 := by
  unfold policeWay
  dsimp only
  repeat' (first | (with_reducible first | assumption | apply bump_keeps | apply perfTenant_keeps | apply meter_keeps) | split | (split <;> try dsimp only))
theorem policeWay_keeps_of {u0 : State} {s : State} {c : PassCtx} {v : Nat} {w : Way} {v0 : Nat} {v1 : Way} {v2 : State} (e : policeWay s c v w = (v0, v1, v2)) (h1 : u0.Keeps s) : u0.Keeps v2 := by
  have h : u0.Keeps (policeWay s c v w).2.2 := policeWay_keeps h1 
  rw [e] at h
  exact h

theorem countStep_keeps {u0 : State} {s : State} {c : PassCtx} {v : Nat} (h1 : u0.Keeps s) : u0.Keeps (countStep s c v) := by
  unfold countStep
  dsimp only
  repeat' (first | (with_reducible first | assumption | apply keeps_ite | apply countPair_keeps | apply scrPipeOp_keeps) | (intro _; intros; try dsimp only) | simp only [keeps_mk, keeps_mk_scr, keeps_mk_tab, keeps_mk_scr_tab, keeps_mk_otp] | split | (split <;> try dsimp only))

theorem sampleStep_keeps {u0 : State} {s : State} {c : PassCtx} {v : Nat} {dropped : Bool} (h1 : u0.Keeps s) : u0.Keeps (sampleStep s c v dropped).2 := by
  unfold sampleStep
  dsimp only
  repeat' (first | with_reducible assumption | simp only [keeps_mk] | split | (split <;> try dsimp only))
theorem sampleStep_keeps_of {u0 : State} {s : State} {c : PassCtx} {v : Nat} {dropped : Bool} {v0 : Option HostFrame} {v1 : State} (e : sampleStep s c v dropped = (v0, v1)) (h1 : u0.Keeps s) : u0.Keeps v1 := by
  have h : u0.Keeps (sampleStep s c v dropped).2 := sampleStep_keeps h1 
  rw [e] at h
  exact h

theorem hallPut_keeps {u0 : State} {s : State} {n : Nat} {l : List HallEnt} (h1 : u0.Keeps s) : u0.Keeps (hallPut s n l) := by
  unfold hallPut
  dsimp only
  repeat' (first | (with_reducible first | assumption | apply setPeak_keeps) | simp only [keeps_mk] | split | (split <;> try dsimp only))

theorem hallArrive_keeps {u0 : State} {s : State} {n : Nat} {f : InFrame} {cls : Nat} {h : HallFrame} (h1 : u0.Keeps s) : u0.Keeps (hallArrive s n f cls h) := by
  unfold hallArrive
  dsimp only
  repeat' (first | (with_reducible first | assumption | apply keeps_ite | apply bump_keeps | apply perf_keeps | apply hallPut_keeps) | simp only [keeps_mk] | split | (split <;> try dsimp only))

theorem recircPut_keeps {u0 : State} {s : State} {n : Nat} {l : List InFrame} (h1 : u0.Keeps s) : u0.Keeps (recircPut s n l) := by
  unfold recircPut
  dsimp only
  repeat' (first | (with_reducible first | assumption | apply setPeak_keeps) | simp only [keeps_mk] | split | (split <;> try dsimp only))

theorem recircStep_keeps {u0 : State} {s : State} {c : PassCtx} {v cls colour arg : Nat} {label : LabelOp} {mir : Option Nat} {smp : Option HostFrame} (h1 : u0.Keeps s) : u0.Keeps (recircStep s c v cls colour arg label mir smp) := by
  unfold recircStep
  dsimp only
  repeat' (first | (with_reducible first | assumption | apply keeps_ite | apply perf_keeps | apply recircPut_keeps | apply hallPut_keeps) | simp only [keeps_mk] | split | (split <;> try dsimp only))

theorem actionLost_keeps {u0 : State} {s : State} {c : PassCtx} (h1 : u0.Keeps s) : u0.Keeps (actionLost s c) := by
  unfold actionLost
  repeat' (first | (with_reducible first | assumption | apply hallArrive_keeps | apply perf_keeps) | (intro _; intros; try dsimp only) | simp only [keeps_mk, keeps_mk_scr, keeps_mk_tab, keeps_mk_scr_tab, keeps_mk_otp] | split | (split <;> try dsimp only))

theorem actionStage_keeps {u0 : State} {s : State} {c : PassCtx} (h1 : u0.Keeps s) : u0.Keeps (actionStage s c) := by
  unfold actionStage
  dsimp only
  repeat' (first | (with_reducible first | assumption | apply keeps_ite | apply actionLost_keeps | apply bump_keeps | apply hallArrive_keeps | apply perf_keeps | apply policeWay_keeps | apply countStep_keeps | apply limitWay_keeps | apply fwdWay_keeps | apply sampleStep_keeps | apply recircStep_keeps | apply ttlWay_keeps | apply actionEcc_keeps) | split | (split <;> try dsimp only))

theorem fragLookup_keeps {u0 : State} {s : State} {n bd : Nat} {b : Bytes} {r : PRec} {bad : Bool} (h1 : u0.Keeps s) : u0.Keeps (fragLookup s n bd b r bad).2 := by
  unfold fragLookup
  dsimp only
  repeat' (first | (with_reducible first | assumption | apply keeps_ite | apply fragPut_keeps | apply bump_keeps | apply report_keeps) | split | (split <;> try dsimp only))
theorem fragLookup_keeps_of {u0 : State} {s : State} {n bd : Nat} {b : Bytes} {r : PRec} {bad : Bool} {v0 : FragUse} {v1 : State} (e : fragLookup s n bd b r bad = (v0, v1)) (h1 : u0.Keeps s) : u0.Keeps v1 := by
  have h : u0.Keeps (fragLookup s n bd b r bad).2 := fragLookup_keeps h1 
  rw [e] at h
  exact h

theorem fragStore_keeps {u0 : State} {s : State} {c : PassCtx} {set key : Nat} (h1 : u0.Keeps s) : u0.Keeps (fragStore s c set key) := by
  unfold fragStore
  dsimp only
  repeat' (first | (with_reducible first | assumption | apply keeps_ite | apply fragPut_keeps | apply bump_keeps) | simp only [keeps_mk] | split | (split <;> try dsimp only))

theorem passHead_keepsO {u0 : State} {s : State} {n : Nat} (h1 : u0.Keeps s) : u0.KeepsP (passHead s n) := by
  unfold passHead
  dsimp only
  repeat' (first | (with_reducible first | assumption | exact keepsP_none | apply keepsP_some) | simp only [keeps_mk] | split | (split <;> try dsimp only))
theorem passHead_keeps {u0 : State} {s : State} {n : Nat} {v0 : InFrame} {v1 : State} (e : passHead s n = some (v0, v1)) (h1 : u0.Keeps s) : u0.Keeps v1 := (passHead_keepsO h1 ).of _ e

theorem parseCounts_keeps {u0 : State} {s : State} {n p : Nat} {d : PDone} {first probe : Bool} (h1 : u0.Keeps s) : u0.Keeps (parseCounts s n p d first probe) := by
  unfold parseCounts
  dsimp only
  repeat' (first | (with_reducible first | assumption | apply keeps_ite | apply setF_keeps | apply bump_keeps | apply perf_keeps | apply bumpIf_keeps) | (intro _; intros; try dsimp only) | simp only [keeps_mk, keeps_mk_scr, keeps_mk_tab, keeps_mk_scr_tab, keeps_mk_otp] | split | (split <;> try dsimp only))

theorem findBad_keeps {u0 : State} {s : State} {bad : List Nat} {trie : Option Nat} {r : PRec} {bd : Nat} (h1 : u0.Keeps s) : u0.Keeps (findBad s bad trie r bd) := by
  unfold findBad
  dsimp only
  repeat' (first | (with_reducible first | assumption | apply keeps_ite | apply setB_keeps) | simp only [keeps_mk_tab] | split | (split <;> try dsimp only))

theorem passLearn_keeps {u0 : State} {s : State} {n p bd : Nat} {r : PRec} (h1 : u0.Keeps s) : u0.Keeps (passLearn s n p bd r).2 := by
  unfold passLearn
  dsimp only
  repeat' (first | (with_reducible first | assumption | apply learnOwn_keeps) | split | (split <;> try dsimp only))
theorem passLearn_keeps_of {u0 : State} {s : State} {n p bd : Nat} {r : PRec} {v0 : Bool} {v1 : State} (e : passLearn s n p bd r = (v0, v1)) (h1 : u0.Keeps s) : u0.Keeps v1 := by
  have h : u0.Keeps (passLearn s n p bd r).2 := passLearn_keeps h1 
  rw [e] at h
  exact h

theorem lookupCounts_keeps {u0 : State} {s : State} {n p t k len : Nat} {probe : Bool} (h1 : u0.Keeps s) : u0.Keeps (lookupCounts s n p t k len probe) := by
  unfold lookupCounts
  dsimp only
  repeat' (first | (with_reducible first | assumption | apply keeps_ite | apply bump_keeps | apply perfTenant_keeps | apply perf_keeps | apply bumpIf_keeps) | (intro _; intros; try dsimp only) | simp only [keeps_mk, keeps_mk_scr, keeps_mk_tab, keeps_mk_scr_tab, keeps_mk_otp] | split | (split <;> try dsimp only))

theorem passClassify_keeps {u0 : State} {s : State} {n key : Nat} (h1 : u0.Keeps s) : u0.Keeps (passClassify s n key).2 := by
  unfold passClassify
  repeat' (first | (with_reducible first | assumption | apply bump_keeps | apply perf_keeps | apply tableEcc_keeps) | simp only [] | split | (split <;> try dsimp only))
theorem passClassify_keeps_of {u0 : State} {s : State} {n key : Nat} {v0 : Nat} {v1 : State} (e : passClassify s n key = (v0, v1)) (h1 : u0.Keeps s) : u0.Keeps v1 := by
  have h : u0.Keeps (passClassify s n key).2 := passClassify_keeps h1 
  rw [e] at h
  exact h

theorem lookedPut_keeps {u0 : State} {s : State} {c : PassCtx} (h1 : u0.Keeps s) : u0.Keeps (lookedPut s c) := by
  unfold lookedPut
  dsimp only
  repeat' (first | with_reducible assumption | simp only [keeps_mk] | split | (split <;> try dsimp only))

theorem passFailed_keeps {u0 : State} {s : State} {n : Nat} {f : InFrame} {r : PRec} (h1 : u0.Keeps s) : u0.Keeps (passFailed s n f r) := by
  unfold passFailed
  dsimp only
  repeat' (first | (with_reducible first | assumption | apply passClassify_keeps | apply lookedPut_keeps) | (intro _; intros; try dsimp only) | refine passClassify_keeps_of (by with_reducible assumption) ?_ | simp only [keeps_mk, keeps_mk_scr, keeps_mk_tab, keeps_mk_scr_tab, keeps_mk_otp] | split | (split <;> try dsimp only))

theorem passLookup_keeps {u0 : State} {s : State} {n : Nat} {f : InFrame} {r : PRec} {prof : Prof} {fragBad : Bool} (h1 : u0.Keeps s) : u0.Keeps (passLookup s n f r prof fragBad) := by
  unfold passLookup
  dsimp only
  repeat' (first | (with_reducible first | assumption | apply passClassify_keeps | apply lookupCounts_keeps | apply passLearn_keeps | apply fragLookup_keeps | apply forwardLookup_keeps | apply lookedPut_keeps) | simp only [] | split | (split <;> try dsimp only))

theorem probeStep_keeps {u0 : State} {s : State} {c : PassCtx} {q : Nat} (h1 : u0.Keeps s) : u0.Keeps (probeStep s c q) := by
  unfold probeStep
  repeat' (first | (with_reducible first | assumption | apply hallArrive_keeps) | (intro _; intros; try dsimp only) | simp only [keeps_mk, keeps_mk_scr, keeps_mk_tab, keeps_mk_scr_tab, keeps_mk_otp] | split | (split <;> try dsimp only))

theorem passAct_keeps {u0 : State} {s : State} {c : PassCtx} (h1 : u0.Keeps s) : u0.Keeps (passAct s c) := by
  unfold passAct
  repeat' (first | (with_reducible first | assumption | apply actionLost_keeps | apply actionStage_keeps | apply bump_keeps | apply probeStep_keeps | apply bumpIf_keeps | apply fragStore_keeps) | split | (split <;> try dsimp only))

theorem passDrain_keeps {u0 : State} {n : Nat} {y1 : Nat} {y2 : State} (h1 : u0.Keeps y2) : u0.Keeps (passDrain n y1 y2) := by
  induction y1 generalizing y2 with
  | zero =>
    unfold passDrain
    repeat' (first | (with_reducible first | assumption | apply ih | apply keeps_ite | apply keeps_foldl | apply keeps_foldl_snd | apply keeps_foldl_fst | apply passAct_keeps) | (intro _; intros; try dsimp only) | simp only [keeps_mk, keeps_mk_scr, keeps_mk_tab, keeps_mk_scr_tab, keeps_mk_otp] | split | (split <;> try dsimp only))
  | succ _ ih =>
    unfold passDrain
    dsimp only
    repeat' (first | (with_reducible first | assumption | apply ih | apply passAct_keeps) | simp only [keeps_mk] | split | (split <;> try dsimp only))

theorem passFront_keeps {u0 : State} {n : Nat} {bad : List Nat} {trie : Option Nat} {fragBad : Bool} {s : State} (h1 : u0.Keeps s) : u0.Keeps (passFront n bad trie fragBad s) := by
  unfold passFront
  dsimp only
  repeat' (first | (with_reducible first | assumption | apply keeps_ite | apply findBad_keeps | apply parseCounts_keeps | apply passLookup_keeps | apply bumpIf_keeps | apply passFailed_keeps) | refine passHead_keeps (by with_reducible assumption) ?_ | split | (split <;> try dsimp only))

theorem ingressPass_keeps {u0 : State} {n : Fin 20} {bad : List Nat} {trie : Option Nat} {fragBad hold : Bool} {s : State} (h1 : u0.Keeps s) : u0.Keeps (ingressPass n bad trie fragBad hold s) := by
  unfold ingressPass
  dsimp only
  repeat' (first | (with_reducible first | assumption | apply keeps_ite | apply passDrain_keeps | apply passFront_keeps) | (intro _; intros; try dsimp only) | simp only [keeps_mk, keeps_mk_scr, keeps_mk_tab, keeps_mk_scr_tab, keeps_mk_otp] | split | (split <;> try dsimp only))

theorem recircSlot_keeps {u0 : State} {n : Fin 20} {s : State} (h1 : u0.Keeps s) : u0.Keeps (recircSlot n s) := by
  unfold recircSlot
  dsimp only
  repeat' (first | (with_reducible first | assumption | apply keeps_ite | apply recircPut_keeps) | simp only [keeps_mk] | split | (split <;> try dsimp only))

end Sys2Proof.Machine
end

