-- ==== Sys2Proof/Laws/KeepsRamp.lean ====
section
/-! SUPPORT. What the operations of Machine/Ramp.lean keep: the queue of commands, the identity of the part, canonical stores. -/

namespace Sys2Proof.Machine

theorem rampStart_keeps {u0 : State} {s : State} {ks : List Nat} {up : Bool} (h1 : u0.Keeps s) : u0.Keeps (rampStart s ks up) := by
  unfold rampStart
  dsimp only
  repeat' (first | with_reducible assumption | simp only [keeps_mk] | split | (split <;> try dsimp only))

theorem rampOne_keeps {u0 : State} {s : State} {k : Nat} {up : Bool} (h1 : u0.Keeps s) : u0.Keeps (rampOne s k up) := by
  unfold rampOne
  dsimp only
  repeat' (first | with_reducible assumption | simp only [keeps_mk] | split | (split <;> try dsimp only))

theorem branchRamp_keeps {u0 : State} {s : State} {n st : Nat} (h1 : u0.Keeps s) : u0.Keeps (branchRamp s n st) := by
  unfold branchRamp
  dsimp only
  repeat' (first | (with_reducible first | assumption | apply keeps_ite | apply rampStart_keeps) | simp only [keeps_mk] | split | (split <;> try dsimp only))

theorem relockDiscards_keeps {u0 : State} {s : State} {r : Nat} (h1 : u0.Keeps s) : u0.Keeps (relockDiscards s r).2 := by
  unfold relockDiscards
  dsimp only
  repeat' (first | (with_reducible first | assumption | apply freshNat_keeps | apply bump_keeps) | split | (split <;> try dsimp only))
theorem relockDiscards_keeps_of {u0 : State} {s : State} {r : Nat} {v0 : Bool} {v1 : State} (e : relockDiscards s r = (v0, v1)) (h1 : u0.Keeps s) : u0.Keeps v1 := by
  have h : u0.Keeps (relockDiscards s r).2 := relockDiscards_keeps h1 
  rw [e] at h
  exact h

theorem loopPut_keeps {u0 : State} {s : State} {x : Nat} {b : Bytes} (h1 : u0.Keeps s) : u0.Keeps (loopPut s x b) := by
  unfold loopPut
  dsimp only
  repeat' (first | with_reducible assumption | simp only [keeps_mk] | split | (split <;> try dsimp only))

theorem loopDrop_keeps {u0 : State} {s : State} {x : Nat} (h1 : u0.Keeps s) : u0.Keeps (loopDrop s x) := by
  unfold loopDrop
  dsimp only
  repeat' (first | with_reducible assumption | simp only [keeps_mk] | split | (split <;> try dsimp only))

theorem loopTake_keepsO {u0 : State} {s : State} {x : Nat} {b : Bytes} (h1 : u0.Keeps s) : u0.KeepsO (loopTake s x b) := by
  unfold loopTake
  dsimp only
  repeat' (first | (with_reducible first | assumption | exact keepsO_none | apply keepsO_some | apply keepsO_ite) | simp only [keeps_mk] | split | (split <;> try dsimp only))
theorem loopTake_keeps {u0 : State} {s : State} {x : Nat} {b : Bytes} {t : State} (e : loopTake s x b = some t) (h1 : u0.Keeps s) : u0.Keeps t := (loopTake_keepsO h1 ).of _ e

end Sys2Proof.Machine
end

