-- ==== Sys2Proof/Laws/KeepsLine.lean ====
section
/-! SUPPORT. What the operations of Machine/Line.lean keep: the queue of commands, the identity of the part, canonical stores. -/

namespace Sys2Proof.Machine

theorem ballsCarry_keeps {u0 : State} {s : State} {p : Nat} {b : Bytes} (h1 : u0.Keeps s) : u0.Keeps (ballsCarry s p b) := by
  unfold ballsCarry
  dsimp only
  repeat' (first | with_reducible assumption | simp only [keeps_mk] | split | (split <;> try dsimp only))

theorem lineTx_keeps {u0 : State} {s : State} {p : Nat} {b : Bytes} (h1 : u0.Keeps s) : u0.Keeps (lineTx s p b) := by
  unfold lineTx
  repeat' (first | (with_reducible first | assumption | apply ballsCarry_keeps | apply loopPut_keeps) | split | (split <;> try dsimp only))

theorem lineRx_keepsO {u0 : State} {s : State} {p : Nat} {b : Bytes} (h1 : u0.Keeps s) : u0.KeepsO (lineRx s p b) := by
  unfold lineRx
  repeat' (first | (with_reducible first | assumption | exact keepsO_none | apply keepsO_some | apply ballsCarry_keeps | apply loopTake_keepsO) | split | (split <;> try dsimp only))
theorem lineRx_keeps {u0 : State} {s : State} {p : Nat} {b : Bytes} {t : State} (e : lineRx s p b = some t) (h1 : u0.Keeps s) : u0.Keeps t := (lineRx_keepsO h1 ).of _ e

theorem sendLine_keeps {u0 : State} {s : State} {p : Nat} {b : Bytes} (h1 : u0.Keeps s) : u0.Keeps (sendLine s p b) := by
  unfold sendLine
  repeat' (first | (with_reducible first | assumption | apply perf_keeps | apply lineTx_keeps | apply perfAdd_keeps) | (intro _; intros; try dsimp only) | simp only [keeps_mk, keeps_mk_scr, keeps_mk_tab, keeps_mk_scr_tab, keeps_mk_otp] | split | (split <;> try dsimp only))

theorem sendXoff_keeps {u0 : State} {s : State} {p mask : Nat} (h1 : u0.Keeps s) : u0.Keeps (sendXoff s p mask) := by
  unfold sendXoff
  dsimp only
  repeat' (first | (with_reducible first | assumption | apply keeps_ite | apply perf_keeps | apply sendLine_keeps) | (intro _; intros; try dsimp only) | simp only [keeps_mk, keeps_mk_scr, keeps_mk_tab, keeps_mk_scr_tab, keeps_mk_otp] | split | (split <;> try dsimp only))

theorem xoffChange_keeps {u0 : State} {s : State} {p new : Nat} (h1 : u0.Keeps s) : u0.Keeps (xoffChange s p new) := by
  unfold xoffChange
  dsimp only
  repeat' (first | (with_reducible first | assumption | apply keeps_ite | apply setF_keeps | apply sendXoff_keeps) | (intro _; intros; try dsimp only) | simp only [keeps_mk, keeps_mk_scr, keeps_mk_tab, keeps_mk_scr_tab, keeps_mk_otp] | split | (split <;> try dsimp only))

theorem discardStaged_keeps {u0 : State} {s : State} {p : Nat} (h1 : u0.Keeps s) : u0.Keeps (discardStaged s p) := by
  unfold discardStaged
  dsimp only
  repeat' (first | (with_reducible first | assumption | apply bumpN_keeps) | simp only [keeps_mk] | split | (split <;> try dsimp only))

theorem faultShow_keeps {u0 : State} {s : State} {p : Nat} (h1 : u0.Keeps s) : u0.Keeps (faultShow s p) := by
  unfold faultShow
  dsimp only
  repeat' (first | (with_reducible first | assumption | apply keeps_ite | apply setB_keeps) | (intro _; intros; try dsimp only) | simp only [keeps_mk, keeps_mk_scr, keeps_mk_tab, keeps_mk_scr_tab, keeps_mk_otp] | split | (split <;> try dsimp only))

theorem xoffPay_keeps {u0 : State} {s : State} {p : Nat} (h1 : u0.Keeps s) : u0.Keeps (xoffPay s p) := by
  unfold xoffPay
  dsimp only
  repeat' (first | (with_reducible first | assumption | apply keeps_ite | apply sendXoff_keeps) | simp only [keeps_mk] | split | (split <;> try dsimp only))

theorem linkUpdate_keeps {u0 : State} {s : State} {p : Nat} (h1 : u0.Keeps s) : u0.Keeps (linkUpdate s p) := by
  unfold linkUpdate
  repeat' (first | (with_reducible first | assumption | apply xoffPay_keeps | apply faultShow_keeps) | (intro _; intros; try dsimp only) | simp only [keeps_mk, keeps_mk_scr, keeps_mk_tab, keeps_mk_scr_tab, keeps_mk_otp] | split | (split <;> try dsimp only))

theorem trainStart_keeps {u0 : State} {s : State} {p : Nat} (h1 : u0.Keeps s) : u0.Keeps (trainStart s p) := by
  unfold trainStart
  dsimp only
  repeat' (first | (with_reducible first | assumption | apply setB_keeps) | simp only [keeps_mk] | split | (split <;> try dsimp only))

theorem trainStop_keeps {u0 : State} {s : State} {p : Nat} (h1 : u0.Keeps s) : u0.Keeps (trainStop s p) := by
  unfold trainStop
  dsimp only
  repeat' (first | with_reducible assumption | simp only [keeps_mk] | split | (split <;> try dsimp only))

theorem txEnter_keeps {u0 : State} {s : State} {p old new : Nat} (h1 : u0.Keeps s) : u0.Keeps (txEnter s p old new) := by
  unfold txEnter
  dsimp only
  repeat' (first | (with_reducible first | assumption | apply keeps_ite | apply setF_keeps | apply loopDrop_keeps | apply discardStaged_keeps | apply trainStart_keeps | apply trainStop_keeps) | simp only [keeps_mk] | split | (split <;> try dsimp only))

theorem txUpdate_keeps {u0 : State} {s : State} {p : Nat} (h1 : u0.Keeps s) : u0.Keeps (txUpdate s p) := by
  unfold txUpdate
  dsimp only
  repeat' (first | (with_reducible first | assumption | apply keeps_ite | apply linkUpdate_keeps | apply txEnter_keeps | apply trainStop_keeps) | (intro _; intros; try dsimp only) | simp only [keeps_mk, keeps_mk_scr, keeps_mk_tab, keeps_mk_scr_tab, keeps_mk_otp] | split | (split <;> try dsimp only))

theorem txSettle_keeps {u0 : State} {s : State} (h1 : u0.Keeps s) : u0.Keeps (txSettle s) := by
  unfold txSettle
  repeat' (first | (with_reducible first | assumption | apply keeps_foldl | apply txUpdate_keeps) | (intro _; intros; try dsimp only) | simp only [keeps_mk, keeps_mk_scr, keeps_mk_tab, keeps_mk_scr_tab, keeps_mk_otp] | split | (split <;> try dsimp only))

theorem txSettleGroup_keeps {u0 : State} {s : State} {g : Nat} (h1 : u0.Keeps s) : u0.Keeps (txSettleGroup s g) := by
  unfold txSettleGroup
  repeat' (first | (with_reducible first | assumption | apply keeps_foldl | apply txUpdate_keeps) | (intro _; intros; try dsimp only) | simp only [keeps_mk, keeps_mk_scr, keeps_mk_tab, keeps_mk_scr_tab, keeps_mk_otp] | split | (split <;> try dsimp only))

theorem synceSquelch_keeps {u0 : State} {s : State} (h1 : u0.Keeps s) : u0.Keeps (synceSquelch s) := by
  unfold synceSquelch
  repeat' (first | (with_reducible first | assumption | apply keeps_ite | apply keeps_foldl | apply setF_keeps) | (intro _; intros; try dsimp only) | simp only [keeps_mk, keeps_mk_scr, keeps_mk_tab, keeps_mk_scr_tab, keeps_mk_otp] | split | (split <;> try dsimp only))

theorem lockLost_keeps {u0 : State} {s : State} {l : List Nat} (h1 : u0.Keeps s) : u0.Keeps (lockLost s l) := by
  unfold lockLost
  dsimp only
  repeat' (first | (with_reducible first | assumption | apply synceSquelch_keeps) | simp only [keeps_mk] | split | (split <;> try dsimp only))

theorem lockHeld_keeps {u0 : State} {s : State} {l : List Nat} (h1 : u0.Keeps s) : u0.Keeps (lockHeld s l) := by
  unfold lockHeld
  dsimp only
  repeat' (first | (with_reducible first | assumption | apply synceSquelch_keeps) | simp only [keeps_mk] | split | (split <;> try dsimp only))

theorem synceResume_keeps {u0 : State} {k : Fin 2} {s : State} (h1 : u0.Keeps s) : u0.Keeps (synceResume k s) := by
  unfold synceResume
  dsimp only
  repeat' (first | (with_reducible first | assumption | apply keeps_ite | apply setF_keeps) | simp only [keeps_mk] | split | (split <;> try dsimp only))

theorem lineLaneCalibration_keeps {u0 : State} {g : Fin 20} {l : Fin 8} {ok : Bool} {s : State} (h1 : u0.Keeps s) : u0.Keeps (lineLaneCalibration g l ok s) := by
  unfold lineLaneCalibration
  dsimp only
  repeat' (first | (with_reducible first | assumption | apply keeps_ite | apply setF_keeps | apply synceSquelch_keeps | apply txSettleGroup_keeps | apply levelMore_keeps) | (intro _; intros; try dsimp only) | simp only [keeps_mk, keeps_mk_scr, keeps_mk_tab, keeps_mk_scr_tab, keeps_mk_otp] | split | (split <;> try dsimp only))

theorem linkTrainingDone_keeps {u0 : State} {p : Fin 160} {ok : Bool} {s : State} (h1 : u0.Keeps s) : u0.Keeps (linkTrainingDone p ok s) := by
  unfold linkTrainingDone
  repeat' (first | (with_reducible first | assumption | apply keeps_ite | apply linkUpdate_keeps | apply trainStop_keeps | apply setB_keeps) | (intro _; intros; try dsimp only) | simp only [keeps_mk, keeps_mk_scr, keeps_mk_tab, keeps_mk_scr_tab, keeps_mk_otp] | split | (split <;> try dsimp only))

theorem linkTrainingRetry_keeps {u0 : State} {p : Fin 160} {s : State} (h1 : u0.Keeps s) : u0.Keeps (linkTrainingRetry p s) := by
  unfold linkTrainingRetry
  dsimp only
  repeat' (first | (with_reducible first | assumption | apply keeps_ite) | simp only [keeps_mk] | split | (split <;> try dsimp only))

theorem retrainStart_keeps {u0 : State} {s : State} {p : Nat} (h1 : u0.Keeps s) : u0.Keeps (retrainStart s p) := by
  unfold retrainStart
  repeat' (first | (with_reducible first | assumption | apply keeps_ite | apply lockHeld_keeps | apply trainStart_keeps | apply linkUpdate_keeps) | (intro _; intros; try dsimp only) | simp only [keeps_mk, keeps_mk_scr, keeps_mk_tab, keeps_mk_scr_tab, keeps_mk_otp] | split | (split <;> try dsimp only))

theorem pwfAbsent_keeps {u0 : State} {s : State} {addr data : Nat} (h1 : u0.Keeps s) : u0.Keeps (pwfAbsent s addr data) := by
  unfold pwfAbsent
  repeat' (first | (with_reducible first | assumption | apply pwfD_keeps) | (intro _; intros; try dsimp only) | simp only [keeps_mk, keeps_mk_scr, keeps_mk_tab, keeps_mk_scr_tab, keeps_mk_otp] | split | (split <;> try dsimp only))

theorem retrain_keeps {u0 : State} {p : Fin 160} {s : State} (h1 : u0.Keeps s) : u0.Keeps (retrain p s) := by
  unfold retrain
  dsimp only
  repeat' (first | (with_reducible first | assumption | apply keeps_ite | apply operWrite_keeps | apply pwfAbsent_keeps | apply retrainStart_keeps) | (intro _; intros; try dsimp only) | simp only [keeps_mk, keeps_mk_scr, keeps_mk_tab, keeps_mk_scr_tab, keeps_mk_otp] | split | (split <;> try dsimp only))

theorem adminSet_keeps {u0 : State} {s : State} {p v : Nat} (h1 : u0.Keeps s) : u0.Keeps (adminSet s p v) := by
  unfold adminSet
  dsimp only
  repeat' (first | (with_reducible first | assumption | apply keeps_ite | apply setF_keeps | apply retrainStart_keeps | apply txUpdate_keeps) | (intro _; intros; try dsimp only) | simp only [keeps_mk, keeps_mk_scr, keeps_mk_tab, keeps_mk_scr_tab, keeps_mk_otp] | split | (split <;> try dsimp only))

theorem admin_keeps {u0 : State} {p : Fin 160} {v : Nat} {s : State} (h1 : u0.Keeps s) : u0.Keeps (admin p v s) := by
  unfold admin
  dsimp only
  repeat' (first | (with_reducible first | assumption | apply keeps_ite | apply adminSet_keeps | apply pwfAbsent_keeps | apply operMirrored_keeps) | (intro _; intros; try dsimp only) | simp only [keeps_mk, keeps_mk_scr, keeps_mk_tab, keeps_mk_scr_tab, keeps_mk_otp] | split | (split <;> try dsimp only))

theorem linkFault_keeps {u0 : State} {s : State} {p k : Nat} {f : Nat → Fld} {src : Nat} {on : Bool} (h1 : u0.Keeps s) : u0.Keeps (linkFault s p k f src on) := by
  unfold linkFault
  dsimp only
  repeat' (first | (with_reducible first | assumption | apply keeps_ite | apply setB_keeps | apply bumpIf_keeps | apply levelOff_keeps | apply linkUpdate_keeps | apply levelMore_keeps) | (intro _; intros; try dsimp only) | simp only [keeps_mk, keeps_mk_scr, keeps_mk_tab, keeps_mk_scr_tab, keeps_mk_otp] | split | (split <;> try dsimp only))

theorem linkFaultDetect_keeps {u0 : State} {p : Fin 160} {lanes : Fin 256} {s : State} (h1 : u0.Keeps s) : u0.Keeps (linkFaultDetect p lanes s) := by
  unfold linkFaultDetect
  dsimp only
  repeat' (first | (with_reducible first | assumption | apply keeps_ite | apply linkFault_keeps | apply discardStaged_keeps | apply lockLost_keeps) | (intro _; intros; try dsimp only) | simp only [keeps_mk, keeps_mk_scr, keeps_mk_tab, keeps_mk_scr_tab, keeps_mk_otp] | split | (split <;> try dsimp only))

theorem linkFaultClear_keeps {u0 : State} {p : Fin 160} {s : State} (h1 : u0.Keeps s) : u0.Keeps (linkFaultClear p s) := by
  unfold linkFaultClear
  repeat' (first | (with_reducible first | assumption | apply keeps_ite | apply linkFault_keeps | apply lockHeld_keeps) | (intro _; intros; try dsimp only) | simp only [keeps_mk, keeps_mk_scr, keeps_mk_tab, keeps_mk_scr_tab, keeps_mk_otp] | split | (split <;> try dsimp only))

theorem remoteFaultReceived_keeps {u0 : State} {p : Fin 160} {s : State} (h1 : u0.Keeps s) : u0.Keeps (remoteFaultReceived p s) := by
  unfold remoteFaultReceived
  repeat' (first | (with_reducible first | assumption | apply keeps_ite | apply linkFault_keeps | apply discardStaged_keeps) | (intro _; intros; try dsimp only) | simp only [keeps_mk, keeps_mk_scr, keeps_mk_tab, keeps_mk_scr_tab, keeps_mk_otp] | split | (split <;> try dsimp only))

theorem remoteFaultClear_keeps {u0 : State} {p : Fin 160} {s : State} (h1 : u0.Keeps s) : u0.Keeps (remoteFaultClear p s) := by
  unfold remoteFaultClear
  repeat' (first | (with_reducible first | assumption | apply keeps_ite | apply linkFault_keeps) | (intro _; intros; try dsimp only) | simp only [keeps_mk, keeps_mk_scr, keeps_mk_tab, keeps_mk_scr_tab, keeps_mk_otp] | split | (split <;> try dsimp only))

theorem pauseSet_keeps {u0 : State} {s : State} {p mask q : Nat} (h1 : u0.Keeps s) : u0.Keeps (pauseSet s p mask q) := by
  unfold pauseSet
  dsimp only
  repeat' (first | (with_reducible first | assumption | apply setF_keeps) | simp only [keeps_mk] | split | (split <;> try dsimp only))

theorem violation_keeps {u0 : State} {s : State} {p k : Nat} (h1 : u0.Keeps s) : u0.Keeps (violation s p k) := by
  unfold violation
  repeat' (first | (with_reducible first | assumption | apply bumpIf_keeps) | (intro _; intros; try dsimp only) | simp only [keeps_mk, keeps_mk_scr, keeps_mk_tab, keeps_mk_scr_tab, keeps_mk_otp] | split | (split <;> try dsimp only))

theorem quanta_keeps {u0 : State} {p mask q : Nat} {s : State} (h1 : u0.Keeps s) : u0.Keeps (quanta p mask q s) := by
  unfold quanta
  repeat' (first | (with_reducible first | assumption | apply keeps_ite | apply pauseSet_keeps | apply violation_keeps) | (intro _; intros; try dsimp only) | simp only [keeps_mk, keeps_mk_scr, keeps_mk_tab, keeps_mk_scr_tab, keeps_mk_otp] | split | (split <;> try dsimp only))

theorem macControl_keeps {u0 : State} {s : State} {p : Nat} {b : Bytes} (h1 : u0.Keeps s) : u0.Keeps (macControl s p b) := by
  unfold macControl
  dsimp only
  repeat' (first | (with_reducible first | assumption | apply keeps_ite | apply keeps_foldl | apply perf_keeps | apply violation_keeps | apply quanta_keeps) | (intro _; intros; try dsimp only) | simp only [keeps_mk, keeps_mk_scr, keeps_mk_tab, keeps_mk_scr_tab, keeps_mk_otp] | split | (split <;> try dsimp only))

theorem macControlFrame_keeps {u0 : State} {p : Fin 160} {b : Bytes} {s : State} (h1 : u0.Keeps s) : u0.Keeps (macControlFrame p b s) := by
  unfold macControlFrame
  repeat' (first | (with_reducible first | assumption | apply keeps_ite | apply macControl_keeps) | refine lineRx_keeps (by with_reducible assumption) ?_ | split | (split <;> try dsimp only))

theorem pauseTimerExpire_keeps {u0 : State} {p : Fin 160} {k : Fin 8} {s : State} (h1 : u0.Keeps s) : u0.Keeps (pauseTimerExpire p k s) := by
  unfold pauseTimerExpire
  repeat' (first | (with_reducible first | assumption | apply keeps_ite | apply pauseSet_keeps) | (intro _; intros; try dsimp only) | simp only [keeps_mk, keeps_mk_scr, keeps_mk_tab, keeps_mk_scr_tab, keeps_mk_otp] | split | (split <;> try dsimp only))

theorem pfcRefresh_keeps {u0 : State} {p : Fin 160} {s : State} (h1 : u0.Keeps s) : u0.Keeps (pfcRefresh p s) := by
  unfold pfcRefresh
  repeat' (first | (with_reducible first | assumption | apply sendXoff_keeps) | (intro _; intros; try dsimp only) | simp only [keeps_mk, keeps_mk_scr, keeps_mk_tab, keeps_mk_scr_tab, keeps_mk_otp] | split | (split <;> try dsimp only))

theorem stormBegin_keeps {u0 : State} {s : State} {p k : Nat} (h1 : u0.Keeps s) : u0.Keeps (stormBegin s p k) := by
  unfold stormBegin
  dsimp only
  repeat' (first | (with_reducible first | assumption | apply setF_keeps | apply pauseSet_keeps | apply bump_keeps | apply levelMore_keeps) | (intro _; intros; try dsimp only) | simp only [keeps_mk, keeps_mk_scr, keeps_mk_tab, keeps_mk_scr_tab, keeps_mk_otp] | split | (split <;> try dsimp only))

theorem pfcStormRestore_keeps {u0 : State} {p : Fin 160} {k : Fin 8} {s : State} (h1 : u0.Keeps s) : u0.Keeps (pfcStormRestore p k s) := by
  unfold pfcStormRestore
  dsimp only
  repeat' (first | (with_reducible first | assumption | apply keeps_ite | apply setF_keeps | apply levelOff_keeps) | (intro _; intros; try dsimp only) | simp only [keeps_mk, keeps_mk_scr, keeps_mk_tab, keeps_mk_scr_tab, keeps_mk_otp] | split | (split <;> try dsimp only))

end Sys2Proof.Machine
end

