-- ==== Sys2Proof/Laws/KeepsLineRx.lean ====
section
/-! SUPPORT. What the operations of Machine/LineRx.lean keep: the queue of commands, the identity of the part, canonical stores. -/

namespace Sys2Proof.Machine

theorem stairPut_keeps {u0 : State} {s : State} {n : Nat} {l : List Arrival} (h1 : u0.Keeps s) : u0.Keeps (stairPut s n l) := by
  unfold stairPut
  dsimp only
  repeat' (first | with_reducible assumption | simp only [keeps_mk] | split | (split <;> try dsimp only))

theorem slowFrame_keeps {u0 : State} {s : State} {p : Nat} {b : Bytes} (h1 : u0.Keeps s) : u0.Keeps (slowFrame s p b) := by
  unfold slowFrame
  dsimp only
  repeat' (first | (with_reducible first | assumption | apply keeps_ite | apply bump_keeps | apply stairPut_keeps) | simp only [keeps_mk] | split | (split <;> try dsimp only))

theorem rxGood_keeps {u0 : State} {s : State} {p : Nat} {b : Bytes} (h1 : u0.Keeps s) : u0.Keeps (rxGood s p b) := by
  unfold rxGood
  dsimp only
  repeat' (first | (with_reducible first | assumption | apply keeps_ite | apply macControl_keeps | apply perf_keeps | apply perfAdd_keeps | apply slowFrame_keeps | apply relockDiscards_keeps | apply enterPipe_keeps) | (intro _; intros; try dsimp only) | refine relockDiscards_keeps_of (by with_reducible assumption) ?_ | simp only [keeps_mk, keeps_mk_scr, keeps_mk_tab, keeps_mk_scr_tab, keeps_mk_otp] | split | (split <;> try dsimp only))

theorem rxFrame_keeps {u0 : State} {s : State} {p : Nat} {b : Bytes} {preambleOk pcsErr fecErr : Bool} (h1 : u0.Keeps s) : u0.Keeps (rxFrame s p b preambleOk pcsErr fecErr) := by
  unfold rxFrame
  repeat' (first | (with_reducible first | assumption | apply keeps_ite | apply bump_keeps | apply perf_keeps | apply violation_keeps | apply rxGood_keeps) | split | (split <;> try dsimp only))

theorem lineFrameReceive_keeps {u0 : State} {p : Fin 160} {b : Bytes} {preambleOk pcsErr fecErr : Bool} {fecCorr fecUnc : Nat} {s : State} (h1 : u0.Keeps s) : u0.Keeps (lineFrameReceive p b preambleOk pcsErr fecErr fecCorr fecUnc s) := by
  unfold lineFrameReceive
  dsimp only
  repeat' (first | (with_reducible first | assumption | apply keeps_ite | apply rxFrame_keeps | apply bumpN_keeps | apply perfAdd_keeps) | refine lineRx_keeps (by with_reducible assumption) ?_ | split | (split <;> try dsimp only))

theorem pfcStormDetect_keeps {u0 : State} {p : Fin 160} {k : Fin 8} {s : State} (h1 : u0.Keeps s) : u0.Keeps (pfcStormDetect p k s) := by
  unfold pfcStormDetect
  dsimp only
  repeat' (first | (with_reducible first | assumption | apply keeps_ite | apply stormBegin_keeps) | (intro _; intros; try dsimp only) | simp only [keeps_mk, keeps_mk_scr, keeps_mk_tab, keeps_mk_scr_tab, keeps_mk_otp] | split | (split <;> try dsimp only))

end Sys2Proof.Machine
end

