-- ==== Sys2Proof/Laws/KeepsHall.lean ====
section
/-! SUPPORT. What the operations of Machine/Hall.lean keep: the queue of commands, the identity of the part, canonical stores. -/

namespace Sys2Proof.Machine

theorem mirSend_keeps {u0 : State} {s : State} {n key m src rxNs sig : Nat} {b : Bytes} (h1 : u0.Keeps s) : u0.Keeps (mirSend s n key m src rxNs sig b) := by
  unfold mirSend
  repeat' (first | (with_reducible first | assumption | apply keeps_ite | apply bump_keeps | apply stairPut_keeps) | split | (split <;> try dsimp only))

theorem hallMirrors_keeps {u0 : State} {s : State} {n port : Nat} {h : HallFrame} (h1 : u0.Keeps s) : u0.Keeps (hallMirrors s n port h) := by
  unfold hallMirrors
  dsimp only
  repeat' (first | (with_reducible first | assumption | apply keeps_foldl | apply mirSend_keeps) | (intro _; intros; try dsimp only) | simp only [keeps_mk, keeps_mk_scr, keeps_mk_tab, keeps_mk_scr_tab, keeps_mk_otp] | split | (split <;> try dsimp only))

theorem hallSample_keeps {u0 : State} {s : State} {n : Nat} {x : HostFrame} (h1 : u0.Keeps s) : u0.Keeps (hallSample s n x) := by
  unfold hallSample
  dsimp only
  repeat' (first | (with_reducible first | assumption | apply keeps_ite | apply bump_keeps | apply stairPut_keeps) | simp only [keeps_mk] | split | (split <;> try dsimp only))

theorem hallForward_keeps {u0 : State} {s : State} {n port : Nat} {h : HallFrame} (h1 : u0.Keeps s) : u0.Keeps (hallForward s n port h) := by
  unfold hallForward
  dsimp only
  repeat' (first | (with_reducible first | assumption | apply keeps_ite | apply bump_keeps | apply probeRefused_keeps | apply bumpN_keeps | apply stairPut_keeps | apply perfAdd_keeps) | split | (split <;> try dsimp only))

theorem hallRelease_keeps {u0 : State} {n : Fin 20} {s : State} (h1 : u0.Keeps s) : u0.Keeps (hallRelease n s) := by
  unfold hallRelease
  dsimp only
  repeat' (first | (with_reducible first | assumption | apply hallForward_keeps | apply hallSample_keeps | apply hallMirrors_keeps | apply hallPut_keeps) | split | (split <;> try dsimp only))

end Sys2Proof.Machine
end

