-- ==== Sys2Proof/Laws/KeepsBuffers.lean ====
section
/-! SUPPORT. What the operations of Machine/Buffers.lean keep: the queue of commands, the identity of the part, canonical stores. -/

namespace Sys2Proof.Machine

theorem putQueue_keeps {u0 : State} {s : State} {q : Nat} {x : Queue} (h1 : u0.Keeps s) : u0.Keeps (putQueue s q x) := by
  unfold putQueue
  dsimp only
  repeat' (first | with_reducible assumption | simp only [keeps_mk] | split | (split <;> try dsimp only))

theorem markCross_keeps {u0 : State} {s : State} {m : Mark} (h1 : u0.Keeps s) : u0.Keeps (markCross s m) := by
  unfold markCross
  dsimp only
  repeat' (first | (with_reducible first | assumption | apply keeps_ite | apply bump_keeps | apply satBump_keeps | apply setB_keeps | apply wr_keeps | apply hostEvent_keeps) | (intro _; intros; try dsimp only) | simp only [keeps_mk, keeps_mk_scr, keeps_mk_tab, keeps_mk_scr_tab, keeps_mk_otp] | split | (split <;> try dsimp only))

theorem markFollow_keeps {u0 : State} {s : State} {m : Mark} {lvl : Bool} {val : Nat} (h1 : u0.Keeps s) : u0.Keeps (markFollow s m lvl val) := by
  unfold markFollow
  dsimp only
  repeat' (first | (with_reducible first | assumption | apply keeps_ite | apply setB_keeps | apply wr_keeps | apply markCross_keeps) | (intro _; intros; try dsimp only) | simp only [keeps_mk, keeps_mk_scr, keeps_mk_tab, keeps_mk_scr_tab, keeps_mk_otp] | split | (split <;> try dsimp only))

theorem monitor_keeps {u0 : State} {s : State} {m : Nat} (h1 : u0.Keeps s) : u0.Keeps (monitor s m) := by
  unfold monitor
  dsimp only
  repeat' (first | (with_reducible first | assumption | apply markFollow_keeps) | (intro _; intros; try dsimp only) | simp only [keeps_mk, keeps_mk_scr, keeps_mk_tab, keeps_mk_scr_tab, keeps_mk_otp] | split | (split <;> try dsimp only))

theorem queueMarks_keeps {u0 : State} {s : State} {q : Nat} (h1 : u0.Keeps s) : u0.Keeps (queueMarks s q) := by
  unfold queueMarks
  repeat' (first | (with_reducible first | assumption | apply keeps_foldl | apply monitor_keeps) | (intro _; intros; try dsimp only) | simp only [keeps_mk, keeps_mk_scr, keeps_mk_tab, keeps_mk_scr_tab, keeps_mk_otp] | split | (split <;> try dsimp only))

theorem setThreshold_keeps {u0 : State} {s : State} {r k w : Nat} (h1 : u0.Keeps s) : u0.Keeps (setThreshold s r k w) := by
  unfold setThreshold
  dsimp only
  repeat' (first | with_reducible assumption | simp only [keeps_mk] | split | (split <;> try dsimp only))

theorem poolFollow_keeps {u0 : State} {s : State} {r k : Nat} (h1 : u0.Keeps s) : u0.Keeps (poolFollow s r k) := by
  unfold poolFollow
  dsimp only
  repeat' (first | (with_reducible first | assumption | apply markFollow_keeps | apply setThreshold_keeps | apply levelIs_keeps) | (intro _; intros; try dsimp only) | simp only [keeps_mk, keeps_mk_scr, keeps_mk_tab, keeps_mk_scr_tab, keeps_mk_otp] | split | (split <;> try dsimp only))

theorem pfcFollow_keeps {u0 : State} {s : State} {p k : Nat} (h1 : u0.Keeps s) : u0.Keeps (pfcFollow s p k) := by
  unfold pfcFollow
  dsimp only
  repeat' (first | with_reducible assumption | simp only [keeps_mk] | split | (split <;> try dsimp only))

theorem xoffFollow_keeps {u0 : State} {s : State} {p : Nat} (h1 : u0.Keeps s) : u0.Keeps (xoffFollow s p) := by
  unfold xoffFollow
  dsimp only
  repeat' (first | (with_reducible first | assumption | apply xoffChange_keeps) | (intro _; intros; try dsimp only) | simp only [keeps_mk, keeps_mk_scr, keeps_mk_tab, keeps_mk_scr_tab, keeps_mk_otp] | split | (split <;> try dsimp only))

theorem bkpFollow_keeps {u0 : State} {s : State} (h1 : u0.Keeps s) : u0.Keeps (bkpFollow s) := by
  unfold bkpFollow
  dsimp only
  repeat' (first | (with_reducible first | assumption | apply setF_keeps) | simp only [keeps_mk] | split | (split <;> try dsimp only))

theorem bufFollow_keeps {u0 : State} {s : State} {r k p c : Nat} (h1 : u0.Keeps s) : u0.Keeps (bufFollow s r k p c) := by
  unfold bufFollow
  dsimp only
  repeat' (first | (with_reducible first | assumption | apply keeps_ite | apply keeps_foldl | apply poolFollow_keeps | apply pfcFollow_keeps | apply xoffFollow_keeps | apply bkpFollow_keeps) | (intro _; intros; try dsimp only) | simp only [keeps_mk, keeps_mk_scr, keeps_mk_tab, keeps_mk_scr_tab, keeps_mk_otp] | split | (split <;> try dsimp only))

theorem dropCount_keeps {u0 : State} {s : State} {q k : Nat} (h1 : u0.Keeps s) : u0.Keeps (dropCount s q k) := by
  unfold dropCount
  dsimp only
  repeat' (first | (with_reducible first | assumption | apply bump_keeps | apply perf_keeps) | split | (split <;> try dsimp only))

theorem avgUpdate_keeps {u0 : State} {s : State} {q w : Nat} (h1 : u0.Keeps s) : u0.Keeps (avgUpdate s q w) := by
  unfold avgUpdate
  dsimp only
  repeat' (first | (with_reducible first | assumption | apply putQueue_keeps | apply idle_keeps) | (intro _; intros; try dsimp only) | simp only [keeps_mk, keeps_mk_scr, keeps_mk_tab, keeps_mk_scr_tab, keeps_mk_otp] | split | (split <;> try dsimp only))

theorem wredTest_keeps {u0 : State} {s : State} {q w c : Nat} (h1 : u0.Keeps s) : u0.Keeps (wredTest s q w c).2 := by
  unfold wredTest
  dsimp only
  repeat' (first | with_reducible assumption | simp only [keeps_mk] | split | (split <;> try dsimp only))
theorem wredTest_keeps_of {u0 : State} {s : State} {q w c : Nat} {v0 : Except Nat Bool} {v1 : State} (e : wredTest s q w c = (v0, v1)) (h1 : u0.Keeps s) : u0.Keeps v1 := by
  have h : u0.Keeps (wredTest s q w c).2 := wredTest_keeps h1 
  rw [e] at h
  exact h

theorem congestion_keeps {u0 : State} {s : State} {q colour b : Nat} (h1 : u0.Keeps s) : u0.Keeps (congestion s q colour b).2 := by
  unfold congestion
  dsimp only
  repeat' (first | (with_reducible first | assumption | apply avgUpdate_keeps | apply wredTest_keeps) | split | (split <;> try dsimp only))
theorem congestion_keeps_of {u0 : State} {s : State} {q colour b : Nat} {v0 : Except Nat Bool} {v1 : State} (e : congestion s q colour b = (v0, v1)) (h1 : u0.Keeps s) : u0.Keeps v1 := by
  have h : u0.Keeps (congestion s q colour b).2 := congestion_keeps h1 
  rw [e] at h
  exact h

theorem wqPut_keeps {u0 : State} {s : State} {i : Nat} {l : List WLine} (h1 : u0.Keeps s) : u0.Keeps (wqPut s i l) := by
  unfold wqPut
  dsimp only
  repeat' (first | (with_reducible first | assumption | apply setF_keeps) | simp only [keeps_mk] | split | (split <;> try dsimp only))

theorem allocate_keeps {u0 : State} {s : State} {q : Nat} {x : Buf} {lines : List Nat} (h1 : u0.Keeps s) : u0.Keeps (allocate s q x lines).2 := by
  unfold allocate
  dsimp only
  repeat' (first | (with_reducible first | assumption | apply keeps_ite | apply bump_keeps | apply injUncorr_keeps | apply perf_keeps | apply putQueue_keeps | apply bufFollow_keeps | apply wqPut_keeps) | simp only [keeps_mk] | split | (split <;> try dsimp only))
theorem allocate_keeps_of {u0 : State} {s : State} {q : Nat} {x : Buf} {lines : List Nat} {v0 : Nat} {v1 : State} (e : allocate s q x lines = (v0, v1)) (h1 : u0.Keeps s) : u0.Keeps v1 := by
  have h : u0.Keeps (allocate s q x lines).2 := allocate_keeps h1 
  rw [e] at h
  exact h

theorem enqueue_keeps {u0 : State} {s : State} {q : Nat} {d : Desc} {marked : Bool} (h1 : u0.Keeps s) : u0.Keeps (enqueue s q d marked) := by
  unfold enqueue
  dsimp only
  repeat' (first | (with_reducible first | assumption | apply bumpIf_keeps | apply bump_keeps | apply queueMarks_keeps | apply putQueue_keeps) | (intro _; intros; try dsimp only) | simp only [keeps_mk, keeps_mk_scr, keeps_mk_tab, keeps_mk_scr_tab, keeps_mk_otp] | split | (split <;> try dsimp only))

theorem diDrained_keeps {u0 : State} {s : State} {i : Nat} (h1 : u0.Keeps s) : u0.Keeps (diDrained s i) := by
  unfold diDrained
  repeat' (first | (with_reducible first | assumption | apply keeps_ite | apply setF_keeps) | (intro _; intros; try dsimp only) | simp only [keeps_mk, keeps_mk_scr, keeps_mk_tab, keeps_mk_scr_tab, keeps_mk_otp] | split | (split <;> try dsimp only))

theorem releaseBuf_keeps {u0 : State} {s : State} {h : Nat} (h1 : u0.Keeps s) : u0.Keeps (releaseBuf s h) := by
  unfold releaseBuf
  dsimp only
  repeat' (first | (with_reducible first | assumption | apply keeps_ite | apply diDrained_keeps | apply putQueue_keeps | apply bufFollow_keeps | apply wqPut_keeps) | simp only [keeps_mk] | split | (split <;> try dsimp only))

theorem popHead_keeps {u0 : State} {s : State} {q : Nat} (h1 : u0.Keeps s) : u0.Keeps (popHead s q).2 := by
  unfold popHead
  dsimp only
  repeat' (first | (with_reducible first | assumption | apply putQueue_keeps | apply queueMarks_keeps) | split | (split <;> try dsimp only))
theorem popHead_keeps_of {u0 : State} {s : State} {q : Nat} {v0 : Option Desc} {v1 : State} (e : popHead s q = (v0, v1)) (h1 : u0.Keeps s) : u0.Keeps v1 := by
  have h : u0.Keeps (popHead s q).2 := popHead_keeps h1 
  rw [e] at h
  exact h

theorem drainQueue_keeps {u0 : State} {count : State → State} {y1 : Nat} {y2 : State} {y3 : Nat} (h1 : u0.Keeps y2) (c_count : ∀ z0, u0.Keeps z0 → u0.Keeps (count z0)) : u0.Keeps (drainQueue count y1 y2 y3) := by
  induction y1 generalizing y2 y3 with
  | zero =>
    unfold drainQueue
    repeat' (first | (with_reducible first | assumption | apply ih | apply keeps_ite | apply keeps_foldl | apply keeps_foldl_snd | apply keeps_foldl_fst | apply popHead_keeps | apply releaseBuf_keeps | apply c_count) | (intro _; intros; try dsimp only) | refine popHead_keeps_of (by with_reducible assumption) ?_ | simp only [keeps_mk, keeps_mk_scr, keeps_mk_tab, keeps_mk_scr_tab, keeps_mk_otp] | split | (split <;> try dsimp only))
  | succ _ ih =>
    unfold drainQueue
    repeat' (first | (with_reducible first | assumption | apply ih | apply releaseBuf_keeps | apply c_count) | refine popHead_keeps_of (by with_reducible assumption) ?_ | split | (split <;> try dsimp only))

theorem flushQueue_keeps {u0 : State} {s : State} {q : Nat} {count : State → State} (h1 : u0.Keeps s) (c_count : ∀ z0, u0.Keeps z0 → u0.Keeps (count z0)) : u0.Keeps (flushQueue s q count) := by
  unfold flushQueue
  repeat' (first | (with_reducible first | assumption | apply drainQueue_keeps | apply c_count) | (intro _; intros; try dsimp only) | simp only [keeps_mk, keeps_mk_scr, keeps_mk_tab, keeps_mk_scr_tab, keeps_mk_otp] | split | (split <;> try dsimp only))

theorem sendRequest_keeps {u0 : State} {s : State} {port cls n : Nat} (h1 : u0.Keeps s) : u0.Keeps (sendRequest s port cls n) := by
  unfold sendRequest
  dsimp only
  repeat' (first | (with_reducible first | assumption | apply keeps_ite | apply perf_keeps) | simp only [keeps_mk] | split | (split <;> try dsimp only))

theorem voqRequest_keeps {u0 : State} {y1 : Nat} {y2 : State} {y3 : Nat} (h1 : u0.Keeps y2) : u0.Keeps (voqRequest y1 y2 y3) := by
  induction y1 generalizing y2 y3 with
  | zero =>
    unfold voqRequest
    repeat' (first | (with_reducible first | assumption | apply ih | apply keeps_ite | apply keeps_foldl | apply keeps_foldl_snd | apply keeps_foldl_fst | apply putQueue_keeps | apply sendRequest_keeps) | (intro _; intros; try dsimp only) | simp only [keeps_mk, keeps_mk_scr, keeps_mk_tab, keeps_mk_scr_tab, keeps_mk_otp] | split | (split <;> try dsimp only))
  | succ _ ih =>
    unfold voqRequest
    dsimp only
    repeat' (first | (with_reducible first | assumption | apply ih | apply keeps_ite | apply putQueue_keeps | apply sendRequest_keeps) | (intro _; intros; try dsimp only) | simp only [keeps_mk, keeps_mk_scr, keeps_mk_tab, keeps_mk_scr_tab, keeps_mk_otp] | split | (split <;> try dsimp only))

theorem voqAsk_keeps {u0 : State} {s : State} {q : Nat} (h1 : u0.Keeps s) : u0.Keeps (voqAsk s q) := by
  unfold voqAsk
  repeat' (first | (with_reducible first | assumption | apply keeps_ite | apply voqRequest_keeps) | (intro _; intros; try dsimp only) | simp only [keeps_mk, keeps_mk_scr, keeps_mk_tab, keeps_mk_scr_tab, keeps_mk_otp] | split | (split <;> try dsimp only))

theorem refusedCopy_keeps {u0 : State} {s : State} {n req : Nat} (h1 : u0.Keeps s) : u0.Keeps (refusedCopy s n req) := by
  unfold refusedCopy
  repeat' (first | (with_reducible first | assumption | apply keeps_ite | apply bump_keeps) | (intro _; intros; try dsimp only) | simp only [keeps_mk, keeps_mk_scr, keeps_mk_tab, keeps_mk_scr_tab, keeps_mk_otp] | split | (split <;> try dsimp only))

theorem flushArrival_keeps {u0 : State} {s : State} {q n : Nat} (h1 : u0.Keeps s) : u0.Keeps (flushArrival s q n) := by
  unfold flushArrival
  repeat' (first | (with_reducible first | assumption | apply dropCount_keeps | apply bump_keeps) | (intro _; intros; try dsimp only) | simp only [keeps_mk, keeps_mk_scr, keeps_mk_tab, keeps_mk_scr_tab, keeps_mk_otp] | split | (split <;> try dsimp only))

theorem takeIn_keeps {u0 : State} {s : State} {q : Nat} {x : Buf} {stored : Nat} {sramOnly : Bool} {lines : List Nat} (h1 : u0.Keeps s) : u0.Keeps (takeIn s q x stored sramOnly lines).2 := by
  unfold takeIn
  dsimp only
  repeat' (first | (with_reducible first | assumption | apply flushArrival_keeps | apply dropCount_keeps | apply allocate_keeps) | refine congestion_keeps_of (by with_reducible assumption) ?_ | split | (split <;> try dsimp only))
theorem takeIn_keeps_of {u0 : State} {s : State} {q : Nat} {x : Buf} {stored : Nat} {sramOnly : Bool} {lines : List Nat} {v0 : Option (Nat × Bool)} {v1 : State} (e : takeIn s q x stored sramOnly lines = (v0, v1)) (h1 : u0.Keeps s) : u0.Keeps v1 := by
  have h : u0.Keeps (takeIn s q x stored sramOnly lines).2 := takeIn_keeps h1 
  rw [e] at h
  exact h

theorem arriveOne_keeps {u0 : State} {s : State} {a : Arrival} {q sysPort : Nat} (h1 : u0.Keeps s) : u0.Keeps (arriveOne s a q sysPort).2 := by
  unfold arriveOne
  dsimp only
  repeat' (first | (with_reducible first | assumption | apply voqAsk_keeps | apply enqueue_keeps) | refine takeIn_keeps_of (by with_reducible assumption) ?_ | split | (split <;> try dsimp only))
theorem arriveOne_keeps_of {u0 : State} {s : State} {a : Arrival} {q sysPort : Nat} {v0 : Bool} {v1 : State} (e : arriveOne s a q sysPort = (v0, v1)) (h1 : u0.Keeps s) : u0.Keeps v1 := by
  have h : u0.Keeps (arriveOne s a q sysPort).2 := arriveOne_keeps h1 
  rw [e] at h
  exact h

theorem sharedAttach_keeps {u0 : State} {s : State} {q : Nat} {nh : Option Nat} {mark : Bool} {h : Nat} (h1 : u0.Keeps s) : u0.Keeps (sharedAttach s q nh mark h) := by
  unfold sharedAttach
  dsimp only
  repeat' (first | (with_reducible first | assumption | apply keeps_ite | apply bump_keeps | apply perf_keeps | apply voqAsk_keeps | apply dropCount_keeps | apply enqueue_keeps) | simp only [keeps_mk] | split | (split <;> try dsimp only))

theorem sharedTarget_keeps {u0 : State} {x : Buf} {k stored : Nat} {st : State × Option Nat × List Waiting} {t : Nat × Option Nat} (h1 : u0.Keeps st.1) : u0.Keeps (sharedTarget x k stored st t).1 := by
  unfold sharedTarget
  dsimp only
  repeat' (first | (with_reducible first | assumption | apply flushArrival_keeps | apply dropCount_keeps | apply allocate_keeps) | refine congestion_keeps_of (by with_reducible assumption) ?_ | split | (split <;> try dsimp only))
theorem sharedTarget_keeps_of {u0 : State} {x : Buf} {k stored : Nat} {st : State × Option Nat × List Waiting} {t : Nat × Option Nat} {v0 : State} {v1 : Option Nat} {v2 : List Waiting} (e : sharedTarget x k stored st t = (v0, v1, v2)) (h1 : u0.Keeps st.1) : u0.Keeps v0 := by
  have h : u0.Keeps (sharedTarget x k stored st t).1 := sharedTarget_keeps h1 
  rw [e] at h
  exact h

theorem sharedAdmit_keeps {u0 : State} {s : State} {x : Buf} {stored : Nat} {targets : List (Nat × Option Nat)} (h1 : u0.Keeps s) : u0.Keeps (sharedAdmit s x stored targets).2.2 := by
  unfold sharedAdmit
  dsimp only
  repeat' (first | (with_reducible first | assumption | apply keeps_ite | apply keeps_foldl | apply keeps_foldl_fst | apply flushArrival_keeps | apply sharedTarget_keeps | apply dropCount_keeps) | (intro _; intros; try dsimp only) | split | (split <;> try dsimp only))
theorem sharedAdmit_keeps_of {u0 : State} {s : State} {x : Buf} {stored : Nat} {targets : List (Nat × Option Nat)} {v0 : Option Nat} {v1 : List Waiting} {v2 : State} (e : sharedAdmit s x stored targets = (v0, v1, v2)) (h1 : u0.Keeps s) : u0.Keeps v2 := by
  have h : u0.Keeps (sharedAdmit s x stored targets).2.2 := sharedAdmit_keeps h1 
  rw [e] at h
  exact h

theorem sharedPlace_keeps {u0 : State} {s : State} {h : Nat} {l : List Waiting} (h1 : u0.Keeps s) : u0.Keeps (sharedPlace s h l) := by
  unfold sharedPlace
  repeat' (first | (with_reducible first | assumption | apply keeps_foldl | apply sharedAttach_keeps) | (intro _; intros; try dsimp only) | simp only [keeps_mk, keeps_mk_scr, keeps_mk_tab, keeps_mk_scr_tab, keeps_mk_otp] | split | (split <;> try dsimp only))

theorem enqueueWhole_keeps {u0 : State} {s : State} {q : Nat} {d : Desc} {mark : Bool} (h1 : u0.Keeps s) : u0.Keeps (enqueueWhole s q d mark) := by
  unfold enqueueWhole
  repeat' (first | (with_reducible first | assumption | apply enqueue_keeps | apply flushArrival_keeps | apply releaseBuf_keeps) | split | (split <;> try dsimp only))

theorem sharedWhole_keeps {u0 : State} {s : State} {h : Nat} {l : List Waiting} (h1 : u0.Keeps s) : u0.Keeps (sharedWhole s h l) := by
  unfold sharedWhole
  dsimp only
  repeat' (first | (with_reducible first | assumption | apply keeps_ite | apply keeps_foldl | apply sharedAttach_keeps | apply flushArrival_keeps | apply releaseBuf_keeps) | (intro _; intros; try dsimp only) | split | (split <;> try dsimp only))

theorem arriveShared_keeps {u0 : State} {s : State} {a : Arrival} {targets : List (Nat × Option Nat)} (h1 : u0.Keeps s) : u0.Keeps (arriveShared s a targets) := by
  unfold arriveShared
  repeat' (first | (with_reducible first | assumption | apply sharedPlace_keeps) | refine sharedAdmit_keeps_of (by with_reducible assumption) ?_ | split | (split <;> try dsimp only))

theorem arriveSample_keeps {u0 : State} {s : State} {n : Nat} {a : Arrival} {rcd : HostFrame} (h1 : u0.Keeps s) : u0.Keeps (arriveSample s n a rcd) := by
  unfold arriveSample
  dsimp only
  repeat' (first | (with_reducible first | assumption | apply bump_keeps | apply refusedCopy_keeps | apply bufFollow_keeps) | simp only [keeps_mk] | split | (split <;> try dsimp only))

theorem arriveProbe_keeps {u0 : State} {s : State} {a : Arrival} {q : Nat} (h1 : u0.Keeps s) : u0.Keeps (arriveProbe s a q) := by
  unfold arriveProbe
  dsimp only
  repeat' (first | (with_reducible first | assumption | apply bump_keeps | apply probeRefused_keeps | apply perf_keeps | apply bufFollow_keeps) | simp only [keeps_mk] | split | (split <;> try dsimp only))

theorem probeEnd_keeps {u0 : State} {s : State} {q : Nat} {x : Probe} (h1 : u0.Keeps s) : u0.Keeps (probeEnd s q x) := by
  unfold probeEnd
  repeat' (first | (with_reducible first | assumption | apply probeGone_keeps | apply releaseBuf_keeps) | split | (split <;> try dsimp only))

theorem arrive_keeps {u0 : State} {s : State} {n : Nat} {a : Arrival} (h1 : u0.Keeps s) : u0.Keeps (arrive s n a) := by
  unfold arrive
  dsimp only
  repeat' (first | (with_reducible first | assumption | apply keeps_ite | apply bump_keeps | apply arriveShared_keeps | apply refusedCopy_keeps | apply bumpN_keeps | apply arriveSample_keeps | apply arriveOne_keeps | apply arriveProbe_keeps) | split | (split <;> try dsimp only))

theorem bufferArrival_keeps {u0 : State} {lane : Fin 52} {s : State} (h1 : u0.Keeps s) : u0.Keeps (bufferArrival lane s) := by
  unfold bufferArrival
  dsimp only
  repeat' (first | (with_reducible first | assumption | apply arrive_keeps) | simp only [keeps_mk] | split | (split <;> try dsimp only))

theorem wmCrossedClear_keeps {u0 : State} {monitorNotPool : Bool} {i : Nat} {s : State} (h1 : u0.Keeps s) : u0.Keeps (wmCrossedClear monitorNotPool i s) := by
  unfold wmCrossedClear
  dsimp only
  repeat' (first | (with_reducible first | assumption | apply keeps_ite | apply setF_keeps | apply setB_keeps | apply wr_keeps) | (intro _; intros; try dsimp only) | simp only [keeps_mk, keeps_mk_scr, keeps_mk_tab, keeps_mk_scr_tab, keeps_mk_otp] | split | (split <;> try dsimp only))

theorem qwmConfig_keeps {u0 : State} {m : Fin 4096} {v : Nat} {s : State} (h1 : u0.Keeps s) : u0.Keeps (qwmConfig m v s) := by
  unfold qwmConfig
  dsimp only
  repeat' (first | (with_reducible first | assumption | apply keeps_ite | apply operWrite_keeps | apply wr_keeps | apply monitor_keeps) | (intro _; intros; try dsimp only) | simp only [keeps_mk, keeps_mk_scr, keeps_mk_tab, keeps_mk_scr_tab, keeps_mk_otp] | split | (split <;> try dsimp only))

end Sys2Proof.Machine
end

