-- ==== Sys2Proof/Laws/KeepsFab.lean ====
section
/-! SUPPORT. What the operations of Machine/Fab.lean keep: the queue of commands, the identity of the part, canonical stores. -/

namespace Sys2Proof.Machine

theorem putRx_keeps {u0 : State} {s : State} {g l : Nat} {x : RxLane} (h1 : u0.Keeps s) : u0.Keeps (putRx s g l x) := by
  unfold putRx
  dsimp only
  repeat' (first | (with_reducible first | assumption | apply setF_keeps) | simp only [keeps_mk] | split | (split <;> try dsimp only))

theorem putTx_keeps {u0 : State} {s : State} {g l : Nat} {x : TxLane} (h1 : u0.Keeps s) : u0.Keeps (putTx s g l x) := by
  unfold putTx
  dsimp only
  repeat' (first | with_reducible assumption | simp only [keeps_mk] | split | (split <;> try dsimp only))

theorem carvCarry_keeps {u0 : State} {s : State} {k : Nat} {b : Bytes} (h1 : u0.Keeps s) : u0.Keeps (carvCarry s k b) := by
  unfold carvCarry
  dsimp only
  repeat' (first | with_reducible assumption | simp only [keeps_mk] | split | (split <;> try dsimp only))

theorem carvTx_keeps {u0 : State} {s : State} {k loop_ : Nat} {b : Bytes} (h1 : u0.Keeps s) : u0.Keeps (carvTx s k loop_ b) := by
  unfold carvTx
  repeat' (first | (with_reducible first | assumption | apply loopPut_keeps | apply carvCarry_keeps) | split | (split <;> try dsimp only))

theorem carvRx_keepsO {u0 : State} {s : State} {k loop_ : Nat} {b : Bytes} (h1 : u0.Keeps s) : u0.KeepsO (carvRx s k loop_ b) := by
  unfold carvRx
  repeat' (first | (with_reducible first | assumption | apply keepsO_some | apply loopTake_keepsO | apply carvCarry_keeps) | split | (split <;> try dsimp only))
theorem carvRx_keeps {u0 : State} {s : State} {k loop_ : Nat} {b : Bytes} {t : State} (e : carvRx s k loop_ b = some t) (h1 : u0.Keeps s) : u0.Keeps t := (carvRx_keepsO h1 ).of _ e

theorem setWtr_keeps {u0 : State} {s : State} {w : Option (Nat × Nat)} (h1 : u0.Keeps s) : u0.Keeps (setWtr s w) := by
  unfold setWtr
  dsimp only
  repeat' (first | (with_reducible first | assumption | apply setB_keeps) | simp only [keeps_mk] | split | (split <;> try dsimp only))

theorem wtrFollow_keeps {u0 : State} {s t : State} (h1 : u0.Keeps s) (h2 : u0.Keeps t) : u0.Keeps (wtrFollow s t) := by
  unfold wtrFollow
  repeat' (first | (with_reducible first | assumption | apply keeps_ite | apply setWtr_keeps) | split | (split <;> try dsimp only))

theorem pmDefect_keeps {u0 : State} {s : State} {k : Nat} (h1 : u0.Keeps s) : u0.Keeps (pmDefect s k) := by
  unfold pmDefect
  dsimp only
  repeat' (first | with_reducible assumption | simp only [keeps_mk] | split | (split <;> try dsimp only))

theorem laneEmpty_keeps {u0 : State} {s : State} {g l : Nat} (h1 : u0.Keeps s) : u0.Keeps (laneEmpty s g l) := by
  unfold laneEmpty
  dsimp only
  repeat' (first | (with_reducible first | assumption | apply keeps_ite | apply putRx_keeps | apply bumpN_keeps) | simp only [keeps_mk] | split | (split <;> try dsimp only))

theorem fabTrainStop_keeps {u0 : State} {s : State} {g : Nat} (h1 : u0.Keeps s) : u0.Keeps (fabTrainStop s g) := by
  unfold fabTrainStop
  dsimp only
  repeat' (first | (with_reducible first | assumption | apply keeps_ite) | simp only [keeps_mk] | split | (split <;> try dsimp only))

theorem fabTxUpdate_keeps {u0 : State} {s : State} {g : Nat} (h1 : u0.Keeps s) : u0.Keeps (fabTxUpdate s g) := by
  unfold fabTxUpdate
  dsimp only
  repeat' (first | (with_reducible first | assumption | apply keeps_ite | apply setF_keeps) | simp only [keeps_mk] | split | (split <;> try dsimp only))

theorem groupLevels_keeps {u0 : State} {s : State} {g : Nat} (h1 : u0.Keeps s) : u0.Keeps (groupLevels s g) := by
  unfold groupLevels
  dsimp only
  repeat' (first | (with_reducible first | assumption | apply keeps_ite | apply pmDefect_keeps | apply setB_keeps | apply levelIs_keeps) | (intro _; intros; try dsimp only) | simp only [keeps_mk, keeps_mk_scr, keeps_mk_tab, keeps_mk_scr_tab, keeps_mk_otp] | split | (split <;> try dsimp only))

theorem groupFollow_keeps {u0 : State} {s : State} {g : Nat} (h1 : u0.Keeps s) : u0.Keeps (groupFollow s g) := by
  unfold groupFollow
  dsimp only
  repeat' (first | (with_reducible first | assumption | apply keeps_ite | apply keeps_foldl | apply fabTrainStop_keeps | apply fabTxUpdate_keeps | apply setB_keeps | apply laneEmpty_keeps | apply groupLevels_keeps) | (intro _; intros; try dsimp only) | simp only [keeps_mk, keeps_mk_scr, keeps_mk_tab, keeps_mk_scr_tab, keeps_mk_otp] | split | (split <;> try dsimp only))

theorem fabFollow_keeps {u0 : State} {s t : State} (h1 : u0.Keeps s) (h2 : u0.Keeps t) : u0.Keeps (fabFollow s t) := by
  unfold fabFollow
  repeat' (first | (with_reducible first | assumption | apply keeps_foldl | apply wtrFollow_keeps | apply groupFollow_keeps) | (intro _; intros; try dsimp only) | simp only [keeps_mk, keeps_mk_scr, keeps_mk_tab, keeps_mk_scr_tab, keeps_mk_otp] | split | (split <;> try dsimp only))

theorem fabFollowGroup_keeps {u0 : State} {s t : State} {g : Nat} (h1 : u0.Keeps s) (h2 : u0.Keeps t) : u0.Keeps (fabFollowGroup s t g) := by
  unfold fabFollowGroup
  repeat' (first | (with_reducible first | assumption | apply wtrFollow_keeps | apply groupFollow_keeps) | (intro _; intros; try dsimp only) | simp only [keeps_mk, keeps_mk_scr, keeps_mk_tab, keeps_mk_scr_tab, keeps_mk_otp] | split | (split <;> try dsimp only))

theorem settle_keeps {u0 : State} {s t : State} (h1 : u0.Keeps s) (h2 : u0.Keeps t) : u0.Keeps (settle s t) := by
  unfold settle
  repeat' (first | (with_reducible first | assumption | apply txSettle_keeps | apply fabFollow_keeps) | (intro _; intros; try dsimp only) | simp only [keeps_mk, keeps_mk_scr, keeps_mk_tab, keeps_mk_scr_tab, keeps_mk_otp] | split | (split <;> try dsimp only))

end Sys2Proof.Machine
end

