-- ==== Sys2Proof/Laws/KeepsGalLane.lean ====
section
/-! SUPPORT. What the operations of Machine/GalLane.lean keep: the queue of commands, the identity of the part, canonical stores. -/

namespace Sys2Proof.Machine

/-- The state that a pick carries, if there is one, is kept. -/
structure State.KeepsG (s : State) (o : Option GalPick) : Prop where
  of : ∀ x, o = some x → s.Keeps x.s

theorem keepsG_none {s : State} : s.KeepsG none := ⟨fun _ h => nomatch h⟩
theorem keepsG_some {s : State} {x : GalPick} (h : s.Keeps x.s) : s.KeepsG (some x) := ⟨fun _ e => by cases e; exact h⟩
theorem keepsG_orElse {s : State} {a : Option GalPick} {b : Unit → Option GalPick} (ha : s.KeepsG a) (hb : s.KeepsG (b ())) : s.KeepsG (a.orElse b) := by
  cases a with
  | none => exact hb
  | some x => exact ha

theorem keepsG_ite {s : State} {a b : Option GalPick} {c : Prop} {d : Decidable c} (ha : s.KeepsG a) (hb : s.KeepsG b) : s.KeepsG (@ite _ c d a b) := by
  split <;> assumption

theorem keepsG_getD {s : State} {o : Option GalPick} {x : GalPick} (ho : s.KeepsG o) (hx : s.Keeps x.s) : s.Keeps (o.getD x).s := by
  cases o with
  | none => exact hx
  | some y => exact ho.of y rfl

theorem galPut_keeps {u0 : State} {s : State} {l : Nat} {x : RxLane} (h1 : u0.Keeps s) : u0.Keeps (galPut s l x) := by
  unfold galPut
  dsimp only
  repeat' (first | with_reducible assumption | simp only [keeps_mk] | split | (split <;> try dsimp only))

theorem pairShow_keeps {u0 : State} {s : State} (h1 : u0.Keeps s) : u0.Keeps (pairShow s) := by
  unfold pairShow
  dsimp only
  repeat' (first | (with_reducible first | assumption | apply setB_keeps | apply levelIs_keeps) | (intro _; intros; try dsimp only) | simp only [keeps_mk, keeps_mk_scr, keeps_mk_tab, keeps_mk_scr_tab, keeps_mk_otp] | split | (split <;> try dsimp only))

theorem galSeqNext_keeps {u0 : State} {s : State} {k : Nat} (h1 : u0.Keeps s) : u0.Keeps (galSeqNext s k) := by
  unfold galSeqNext
  dsimp only
  repeat' (first | with_reducible assumption | simp only [keeps_mk] | split | (split <;> try dsimp only))

theorem galControl_keeps {u0 : State} {s : State} {body : List Nat} (h1 : u0.Keeps s) : u0.Keeps (galControl s body) := by
  unfold galControl
  dsimp only
  repeat' (first | (with_reducible first | assumption | apply galSeqNext_keeps) | simp only [keeps_mk] | split | (split <;> try dsimp only))

theorem replayStart_keeps {u0 : State} {s : State} (h1 : u0.Keeps s) : u0.Keeps (replayStart s) := by
  unfold replayStart
  dsimp only
  repeat' (first | (with_reducible first | assumption | apply setB_keeps) | simp only [keeps_mk] | split | (split <;> try dsimp only))

theorem resyncAsk_keeps {u0 : State} {s : State} (h1 : u0.Keeps s) : u0.Keeps (resyncAsk s) := by
  unfold resyncAsk
  dsimp only
  repeat' (first | (with_reducible first | assumption | apply keeps_ite | apply setB_keeps | apply galControl_keeps) | simp only [keeps_mk] | split | (split <;> try dsimp only))

theorem syncLost_keeps {u0 : State} {s : State} (h1 : u0.Keeps s) : u0.Keeps (syncLost s) := by
  unfold syncLost
  repeat' (first | (with_reducible first | assumption | apply keeps_ite | apply setB_keeps | apply pairShow_keeps | apply resyncAsk_keeps) | (intro _; intros; try dsimp only) | simp only [keeps_mk, keeps_mk_scr, keeps_mk_tab, keeps_mk_scr_tab, keeps_mk_otp] | split | (split <;> try dsimp only))

theorem galRise_keeps {u0 : State} {s : State} (h1 : u0.Keeps s) : u0.Keeps (galRise s) := by
  unfold galRise
  dsimp only
  repeat' (first | (with_reducible first | assumption | apply keeps_ite | apply setB_keeps | apply replayStart_keeps | apply resyncAsk_keeps | apply levelOff_keeps) | (intro _; intros; try dsimp only) | simp only [keeps_mk, keeps_mk_scr, keeps_mk_tab, keeps_mk_scr_tab, keeps_mk_otp] | split | (split <;> try dsimp only))

theorem galFall_keeps {u0 : State} {s : State} (h1 : u0.Keeps s) : u0.Keeps (galFall s) := by
  unfold galFall
  dsimp only
  repeat' (first | (with_reducible first | assumption | apply levelOn_keeps | apply syncLost_keeps | apply setB_keeps) | simp only [keeps_mk] | split | (split <;> try dsimp only))

theorem galEmpty_keeps {u0 : State} {s : State} {l : Nat} (h1 : u0.Keeps s) : u0.Keeps (galEmpty s l) := by
  unfold galEmpty
  dsimp only
  repeat' (first | (with_reducible first | assumption | apply keeps_ite | apply galPut_keeps) | (intro _; intros; try dsimp only) | simp only [keeps_mk, keeps_mk_scr, keeps_mk_tab, keeps_mk_scr_tab, keeps_mk_otp] | split | (split <;> try dsimp only))

theorem galFollow_keeps {u0 : State} {s : State} (h1 : u0.Keeps s) : u0.Keeps (galFollow s) := by
  unfold galFollow
  dsimp only
  repeat' (first | (with_reducible first | assumption | apply keeps_ite | apply keeps_foldl | apply galRise_keeps | apply galFall_keeps | apply galEmpty_keeps) | (intro _; intros; try dsimp only) | simp only [keeps_mk, keeps_mk_scr, keeps_mk_tab, keeps_mk_scr_tab, keeps_mk_otp] | split | (split <;> try dsimp only))

theorem galTake_keeps {base s : State} {k : Nat} (h : base.Keeps s) : base.KeepsG (galTake s k) := by
  unfold galTake
  split
  · exact keepsG_some (keeps_same h rfl rfl rfl rfl rfl)
  · exact keepsG_none

theorem cmdSent_keeps {u0 : State} {s : State} {q n : Nat} (h1 : u0.Keeps s) : u0.Keeps (cmdSent s q n) := by
  unfold cmdSent
  dsimp only
  repeat' (first | (with_reducible first | assumption | apply keeps_ite | apply bumpN_keeps | apply report_keeps) | simp only [keeps_mk] | split | (split <;> try dsimp only))

theorem cmdNext_keeps {base s : State} (h : base.Keeps s) : base.KeepsG (cmdNext s) := by
  unfold cmdNext
  refine keepsG_orElse (galTake_keeps h) (keepsG_ite ?_ keepsG_none)
  split
  · exact keepsG_some (cmdSent_keeps (keeps_same h rfl rfl rfl rfl rfl))
  · exact keepsG_none

theorem regionBegin_keeps {u0 : State} {s : State} (h1 : u0.Keeps s) : u0.Keeps (regionBegin s) := by
  unfold regionBegin
  dsimp only
  repeat' (first | with_reducible assumption | simp only [keeps_mk] | split | (split <;> try dsimp only))

theorem replayNext_keeps {base s : State} (h : base.Keeps s) : base.KeepsG (replayNext s) := by
  unfold replayNext
  exact keepsG_ite (keepsG_orElse (galTake_keeps h) (galTake_keeps (regionBegin_keeps h))) keepsG_none

theorem faultNext_keeps {base s : State} (h : base.Keeps s) : base.KeepsG (faultNext s) := by
  have h1 (f : FltSt) (n : Nat) : base.Keeps (bumpN { s with flt := f } (Reg.FLT_CNT 6) n) := bumpN_keeps (keeps_same h rfl rfl rfl rfl rfl)
  unfold faultNext
  exact keepsG_ite (keepsG_ite keepsG_none (keepsG_some (h1 _ _))) (keepsG_some (galSeqNext_keeps (h1 _ _)))

theorem controlNext_keeps {u0 s : State} (h1 : u0.Keeps s) : u0.Keeps (controlNext s).s := keepsG_getD (galTake_keeps h1) h1

theorem galNext_keeps {base s : State} {st half : Nat} (h : base.Keeps s) : base.Keeps (galNext s st half).s := by
  have hs : ∀ c : Prop, ∀ d : Decidable c, base.KeepsG (@ite _ c d none (galTake s 3)) := fun _ _ => keepsG_ite keepsG_none (galTake_keeps h)
  exact keepsG_getD (keepsG_orElse (galTake_keeps h) (keepsG_orElse (cmdNext_keeps h) (keepsG_orElse (hs _ _)
    (keepsG_orElse (replayNext_keeps h) (keepsG_orElse (galTake_keeps h) (faultNext_keeps h)))))) h

theorem galSlot_keeps {u0 : State} {half : Nat} {x : GalFill} {l : Nat} (h1 : u0.Keeps x.s) : u0.Keeps (galSlot half x l).s := by
  unfold galSlot
  dsimp only
  repeat' (first | (with_reducible first | assumption | apply keeps_ite | apply controlNext_keeps | apply galNext_keeps | apply perf_keeps) | simp only [keeps_mk] | split | (split <;> try dsimp only))

theorem galLaneFrame_keeps {u0 : State} {s : State} {cells : NMap (List Bytes)} {l : Nat} (h1 : u0.Keeps s) : u0.Keeps (galLaneFrame s cells l) := by
  unfold galLaneFrame
  dsimp only
  repeat' (first | (with_reducible first | assumption | apply keeps_ite | apply putTx_keeps | apply carvTx_keeps) | (intro _; intros; try dsimp only) | simp only [keeps_mk, keeps_mk_scr, keeps_mk_tab, keeps_mk_scr_tab, keeps_mk_otp] | split | (split <;> try dsimp only))

theorem galFrameSend_keeps {u0 : State} {s : State} (h1 : u0.Keeps s) : u0.Keeps (galFrameSend s) := by
  unfold galFrameSend
  dsimp only
  repeat' (first | (with_reducible first | assumption | apply keeps_ite | apply keeps_foldl | apply keeps_foldl_by (g := GalFill.s) | apply galSlot_keeps | apply galLaneFrame_keeps) | (intro _; intros; try dsimp only) | simp only [keeps_mk] | split | (split <;> try dsimp only))

theorem galTrailDone_keeps {u0 : State} {s : State} {l : Nat} {x : RxLane} {t : Bytes} (h1 : u0.Keeps s) : u0.Keeps (galTrailDone s l x t).1 := by
  unfold galTrailDone
  dsimp only
  repeat' (first | (with_reducible first | assumption | apply wrPair_keeps) | split | (split <;> try dsimp only))
theorem galTrailDone_keeps_of {u0 : State} {s : State} {l : Nat} {x : RxLane} {t : Bytes} {v0 : State} {v1 : RxLane} (e : galTrailDone s l x t = (v0, v1)) (h1 : u0.Keeps s) : u0.Keeps v0 := by
  have h : u0.Keeps (galTrailDone s l x t).1 := galTrailDone_keeps h1 
  rw [e] at h
  exact h

theorem ackTake_keeps {u0 : State} {s : State} {q : Nat} (h1 : u0.Keeps s) : u0.Keeps (ackTake s q) := by
  unfold ackTake
  dsimp only
  repeat' (first | (with_reducible first | assumption | apply keeps_ite) | simp only [keeps_mk] | split | (split <;> try dsimp only))

theorem galOverheadReceive_keeps {u0 : State} {s : State} {l : Nat} {x : RxLane} {b : Bytes} {was goesOn : Bool} (h1 : u0.Keeps s) : u0.Keeps (galOverheadReceive s l x b was goesOn) := by
  unfold galOverheadReceive
  dsimp only
  repeat' (first | (with_reducible first | assumption | apply keeps_ite | apply galPut_keeps | apply ackTake_keeps | apply galTrailDone_keeps) | split | (split <;> try dsimp only))

theorem galCellTake_keeps {u0 : State} {s : State} {b : Bytes} (h1 : u0.Keeps s) : u0.Keeps (galCellTake s b) := by
  unfold galCellTake
  dsimp only
  repeat' (first | (with_reducible first | assumption | apply keeps_ite | apply report_keeps | apply bump_keeps | apply perf_keeps) | (intro _; intros; try dsimp only) | simp only [keeps_mk, keeps_mk_scr, keeps_mk_tab, keeps_mk_scr_tab, keeps_mk_otp] | split | (split <;> try dsimp only))

theorem galGive_keeps {u0 : State} {s : State} {l : Nat} {x : RxLane} {f : List Bytes} (h1 : u0.Keeps s) : u0.Keeps (galGive s l x f) := by
  unfold galGive
  repeat' (first | (with_reducible first | assumption | apply keeps_foldl | apply galCellTake_keeps | apply galPut_keeps) | (intro _; intros; try dsimp only) | simp only [keeps_mk, keeps_mk_scr, keeps_mk_tab, keeps_mk_scr_tab, keeps_mk_otp] | split | (split <;> try dsimp only))

theorem galWrite_keeps {u0 : State} {s : State} {l : Nat} {f : List Bytes} (h1 : u0.Keeps s) : u0.Keeps (galWrite s l f) := by
  unfold galWrite
  dsimp only
  repeat' (first | (with_reducible first | assumption | apply keeps_ite | apply galGive_keeps | apply galPut_keeps) | (intro _; intros; try dsimp only) | simp only [keeps_mk, keeps_mk_scr, keeps_mk_tab, keeps_mk_scr_tab, keeps_mk_otp] | split | (split <;> try dsimp only))

theorem galFrameTake_keeps {u0 : State} {l : Nat} {frame : Bytes} {fecLost : Bool} {s : State} (h1 : u0.Keeps s) : u0.Keeps (galFrameTake l frame fecLost s) := by
  unfold galFrameTake
  dsimp only
  repeat' (first | (with_reducible first | assumption | apply keeps_ite | apply galPut_keeps | apply galWrite_keeps | apply galOverheadReceive_keeps) | (intro _; intros; try dsimp only) | simp only [keeps_mk, keeps_mk_scr, keeps_mk_tab, keeps_mk_scr_tab, keeps_mk_otp] | split | (split <;> try dsimp only))

theorem galFrameReceive_keeps {u0 : State} {l : Nat} {frame : Bytes} {fecLost : Bool} {s : State} (h1 : u0.Keeps s) : u0.Keeps (galFrameReceive l frame fecLost s) := by
  unfold galFrameReceive
  repeat' (first | (with_reducible first | assumption | apply keeps_ite | apply galFrameTake_keeps) | refine carvRx_keeps (by with_reducible assumption) ?_ | split | (split <;> try dsimp only))

theorem galOldest_keeps {u0 : State} {s : State} {l : Nat} {x : RxLane} (h1 : u0.Keeps s) : u0.Keeps (galOldest s l x) := by
  unfold galOldest
  repeat' (first | (with_reducible first | assumption | apply galGive_keeps | apply galPut_keeps) | split | (split <;> try dsimp only))

theorem galSlipRead_keeps {u0 : State} {l : Nat} {part : Bool} {s : State} (h1 : u0.Keeps s) : u0.Keeps (galSlipRead l part s) := by
  unfold galSlipRead
  dsimp only
  repeat' (first | (with_reducible first | assumption | apply keeps_ite | apply galGive_keeps | apply galOldest_keeps) | (intro _; intros; try dsimp only) | simp only [keeps_mk, keeps_mk_scr, keeps_mk_tab, keeps_mk_scr_tab, keeps_mk_otp] | split | (split <;> try dsimp only))

theorem galDefects_keeps {u0 : State} {s : State} {l m : Nat} (h1 : u0.Keeps s) : u0.Keeps (galDefects s l m) := by
  unfold galDefects
  dsimp only
  repeat' (first | (with_reducible first | assumption | apply galFollow_keeps | apply levelIs_keeps) | simp only [keeps_mk] | split | (split <;> try dsimp only))

theorem galDeclare_keeps {u0 : State} {l d : Nat} {s : State} (h1 : u0.Keeps s) : u0.Keeps (galDeclare l d s) := by
  unfold galDeclare
  repeat' (first | (with_reducible first | assumption | apply keeps_ite | apply galDefects_keeps) | (intro _; intros; try dsimp only) | simp only [keeps_mk, keeps_mk_scr, keeps_mk_tab, keeps_mk_scr_tab, keeps_mk_otp] | split | (split <;> try dsimp only))

theorem galClear_keeps {u0 : State} {l d : Nat} {s : State} (h1 : u0.Keeps s) : u0.Keeps (galClear l d s) := by
  unfold galClear
  repeat' (first | (with_reducible first | assumption | apply keeps_ite | apply galDefects_keeps) | (intro _; intros; try dsimp only) | simp only [keeps_mk, keeps_mk_scr, keeps_mk_tab, keeps_mk_scr_tab, keeps_mk_otp] | split | (split <;> try dsimp only))

end Sys2Proof.Machine
end

