-- ==== Sys2Proof/Laws/KeepsGates.lean ====
section
/-! SUPPORT. What the operations of Machine/Gates.lean keep: the queue of commands, the identity of the part, canonical stores. -/

namespace Sys2Proof.Machine

theorem putGate_keeps {u0 : State} {s : State} {p : Nat} {g : GateSt} (h1 : u0.Keeps s) : u0.Keeps (putGate s p g) := by
  unfold putGate
  dsimp only
  repeat' (first | with_reducible assumption | simp only [keeps_mk] | split | (split <;> try dsimp only))

theorem gateShow_keeps {u0 : State} {s : State} {p : Nat} (h1 : u0.Keeps s) : u0.Keeps (gateShow s p) := by
  unfold gateShow
  dsimp only
  repeat' (first | (with_reducible first | assumption | apply setF_keeps) | (intro _; intros; try dsimp only) | simp only [keeps_mk, keeps_mk_scr, keeps_mk_tab, keeps_mk_scr_tab, keeps_mk_otp] | split | (split <;> try dsimp only))

theorem gateEntryChange_keeps {u0 : State} {p : Fin 160} {s : State} (h1 : u0.Keeps s) : u0.Keeps (gateEntryChange p s) := by
  unfold gateEntryChange
  repeat' (first | (with_reducible first | assumption | apply gateShow_keeps) | (intro _; intros; try dsimp only) | simp only [keeps_mk, keeps_mk_scr, keeps_mk_tab, keeps_mk_scr_tab, keeps_mk_otp] | split | (split <;> try dsimp only))

theorem gateActivate_keeps {u0 : State} {p : Fin 160} {s : State} (h1 : u0.Keeps s) : u0.Keeps (gateActivate p s) := by
  unfold gateActivate
  dsimp only
  repeat' (first | (with_reducible first | assumption | apply keeps_ite | apply setF_keeps | apply gateShow_keeps | apply putGate_keeps | apply setB_keeps) | split | (split <;> try dsimp only))

theorem gateChange__keeps {u0 : State} {s : State} {p : Nat} (h1 : u0.Keeps s) : u0.Keeps (gateChange_ s p) := by
  unfold gateChange_
  dsimp only
  repeat' (first | (with_reducible first | assumption | apply keeps_ite | apply setF_keeps | apply putGate_keeps | apply setB_keeps) | (intro _; intros; try dsimp only) | simp only [keeps_mk, keeps_mk_scr, keeps_mk_tab, keeps_mk_scr_tab, keeps_mk_otp] | split | (split <;> try dsimp only))

theorem gateCancel__keeps {u0 : State} {s : State} {p : Nat} (h1 : u0.Keeps s) : u0.Keeps (gateCancel_ s p) := by
  unfold gateCancel_
  dsimp only
  repeat' (first | (with_reducible first | assumption | apply keeps_ite | apply putGate_keeps | apply setB_keeps) | split | (split <;> try dsimp only))

theorem gateCtl_keeps {u0 : State} {s : State} {p v : Nat} (h1 : u0.Keeps s) : u0.Keeps (gateCtl s p v) := by
  unfold gateCtl
  dsimp only
  repeat' (first | (with_reducible first | assumption | apply keeps_ite | apply gateShow_keeps | apply gateCancel__keeps | apply gateChange__keeps | apply setB_keeps) | (intro _; intros; try dsimp only) | simp only [keeps_mk, keeps_mk_scr, keeps_mk_tab, keeps_mk_scr_tab, keeps_mk_otp] | split | (split <;> try dsimp only))

theorem gateEnable_keeps {u0 : State} {p : Fin 160} {en : Bool} {s : State} (h1 : u0.Keeps s) : u0.Keeps (gateEnable p en s) := by
  unfold gateEnable
  repeat' (first | (with_reducible first | assumption | apply gateCtl_keeps | apply operMirrored_keeps) | (intro _; intros; try dsimp only) | simp only [keeps_mk, keeps_mk_scr, keeps_mk_tab, keeps_mk_scr_tab, keeps_mk_otp] | split | (split <;> try dsimp only))

theorem gateChange_keeps {u0 : State} {p : Fin 160} {s : State} (h1 : u0.Keeps s) : u0.Keeps (gateChange p s) := by
  unfold gateChange
  repeat' (first | (with_reducible first | assumption | apply gateCtl_keeps | apply operMirrored_keeps) | (intro _; intros; try dsimp only) | simp only [keeps_mk, keeps_mk_scr, keeps_mk_tab, keeps_mk_scr_tab, keeps_mk_otp] | split | (split <;> try dsimp only))

theorem gateCancel_keeps {u0 : State} {p : Fin 160} {s : State} (h1 : u0.Keeps s) : u0.Keeps (gateCancel p s) := by
  unfold gateCancel
  repeat' (first | (with_reducible first | assumption | apply gateCtl_keeps | apply operMirrored_keeps) | (intro _; intros; try dsimp only) | simp only [keeps_mk, keeps_mk_scr, keeps_mk_tab, keeps_mk_scr_tab, keeps_mk_otp] | split | (split <;> try dsimp only))

end Sys2Proof.Machine
end

