-- ==== Sys2Proof/Laws/KeepsEgress.lean ====
section
/-! SUPPORT. What the operations of Machine/Egress.lean keep: the queue of commands, the identity of the part, canonical stores. -/

namespace Sys2Proof.Machine

theorem hostQueue_keeps {u0 : State} {s : State} {x : HostFrame} (h1 : u0.Keeps s) : u0.Keeps (hostQueue s x) := by
  unfold hostQueue
  dsimp only
  repeat' (first | with_reducible assumption | simp only [keeps_mk] | split | (split <;> try dsimp only))

theorem stairUpMove_keeps {u0 : State} {s : State} {lane : Nat} {a : Arrival} {rest : List Arrival} {ok : Bool} (h1 : u0.Keeps s) : u0.Keeps (stairUpMove s lane a rest ok) := by
  unfold stairUpMove
  dsimp only
  repeat' (first | (with_reducible first | assumption | apply keeps_ite | apply bump_keeps | apply report_keeps) | simp only [keeps_mk] | split | (split <;> try dsimp only))

theorem stairDownMove_keeps {u0 : State} {s : State} {lane : Nat} {f : EgFrame} {rest : List EgFrame} {ok : Bool} (h1 : u0.Keeps s) : u0.Keeps (stairDownMove s lane f rest ok) := by
  unfold stairDownMove
  dsimp only
  repeat' (first | (with_reducible first | assumption | apply keeps_ite | apply bump_keeps | apply report_keeps | apply hostQueue_keeps) | simp only [keeps_mk] | split | (split <;> try dsimp only))

theorem stairTransfer_keeps {u0 : State} {up : Bool} {lane : Fin 52} {retries : Fin 5} {ok : Bool} {s : State} (h1 : u0.Keeps s) : u0.Keeps (stairTransfer up lane retries ok s) := by
  unfold stairTransfer
  dsimp only
  repeat' (first | (with_reducible first | assumption | apply keeps_ite | apply bumpN_keeps | apply perf_keeps | apply stairUpMove_keeps | apply stairDownMove_keeps | apply perfAdd_keeps) | split | (split <;> try dsimp only))

theorem ecnStep_keeps {u0 : State} {s : State} {n : Nat} {b : Bytes} {ce : Bool} (h1 : u0.Keeps s) : u0.Keeps (ecnStep s n b ce).2 := by
  unfold ecnStep
  dsimp only
  repeat' (first | (with_reducible first | assumption | apply bump_keeps) | split | (split <;> try dsimp only))
theorem ecnStep_keeps_of {u0 : State} {s : State} {n : Nat} {b : Bytes} {ce : Bool} {v0 : Option Bytes} {v1 : State} (e : ecnStep s n b ce = (v0, v1)) (h1 : u0.Keeps s) : u0.Keeps v1 := by
  have h : u0.Keeps (ecnStep s n b ce).2 := ecnStep_keeps h1 
  rw [e] at h
  exact h

theorem egressPolicy_keeps {u0 : State} {s : State} {v : Nat} {b : Bytes} (h1 : u0.Keeps s) : u0.Keeps (egressPolicy s v b).2 := by
  unfold egressPolicy
  dsimp only
  repeat' (first | (with_reducible first | assumption | apply keeps_ite | apply countPair_keeps | apply meter_keeps) | split | (split <;> try dsimp only))
theorem egressPolicy_keeps_of {u0 : State} {s : State} {v : Nat} {b : Bytes} {v0 : Bool} {v1 : State} (e : egressPolicy s v b = (v0, v1)) (h1 : u0.Keeps s) : u0.Keeps v1 := by
  have h : u0.Keeps (egressPolicy s v b).2 := egressPolicy_keeps h1 
  rw [e] at h
  exact h

theorem mtuExceeded_keeps {u0 : State} {s : State} {n : Nat} {f : EgFrame} (h1 : u0.Keeps s) : u0.Keeps (mtuExceeded s n f) := by
  unfold mtuExceeded
  dsimp only
  repeat' (first | (with_reducible first | assumption | apply keeps_ite | apply bump_keeps | apply perf_keeps | apply toHostTake_keeps | apply hostQueue_keeps) | (intro _; intros; try dsimp only) | refine toHostTake_keeps_of (by with_reducible assumption) ?_ | simp only [keeps_mk, keeps_mk_scr, keeps_mk_tab, keeps_mk_scr_tab, keeps_mk_otp] | split | (split <;> try dsimp only))

theorem macRefuses_keepsO {u0 : State} {s : State} {p : Nat} (h1 : u0.Keeps s) : u0.KeepsO (macRefuses s p) := by
  unfold macRefuses
  repeat' (first | (with_reducible first | assumption | exact keepsO_none | apply keepsO_some | apply keepsO_ite | apply bump_keeps) | (intro _; intros; try dsimp only) | simp only [keeps_mk, keeps_mk_scr, keeps_mk_tab, keeps_mk_scr_tab, keeps_mk_otp] | split | (split <;> try dsimp only))
theorem macRefuses_keeps {u0 : State} {s : State} {p : Nat} {t : State} (e : macRefuses s p = some t) (h1 : u0.Keeps s) : u0.Keeps t := (macRefuses_keepsO h1 ).of _ e

theorem egressMirror_keeps {u0 : State} {s : State} {n p : Nat} {h : Hdr} {b : Bytes} (h1 : u0.Keeps s) : u0.Keeps (egressMirror s n p h b) := by
  unfold egressMirror
  dsimp only
  repeat' (first | (with_reducible first | assumption | apply keeps_ite | apply mirSend_keeps) | (intro _; intros; try dsimp only) | simp only [keeps_mk, keeps_mk_scr, keeps_mk_tab, keeps_mk_scr_tab, keeps_mk_otp] | split | (split <;> try dsimp only))

theorem stageFrame_keeps {u0 : State} {s : State} {n : Nat} {f : EgFrame} (h1 : u0.Keeps s) : u0.Keeps (stageFrame s n f) := by
  unfold stageFrame
  dsimp only
  repeat' (first | (with_reducible first | assumption | apply keeps_ite | apply perf_keeps) | refine macRefuses_keeps (by with_reducible assumption) ?_ | simp only [keeps_mk] | split | (split <;> try dsimp only))

theorem egressFinish_keeps {u0 : State} {s : State} {n : Nat} {f : EgFrame} {e : Option Nat} {b : Bytes} (h1 : u0.Keeps s) : u0.Keeps (egressFinish s n f e b) := by
  unfold egressFinish
  dsimp only
  repeat' (first | (with_reducible first | assumption | apply keeps_ite | apply bump_keeps | apply stageFrame_keeps | apply perf_keeps | apply egressPolicy_keeps | apply egressMirror_keeps | apply actionEcc_keeps | apply mtuExceeded_keeps) | (intro _; intros; try dsimp only) | refine egressPolicy_keeps_of (by with_reducible assumption) ?_ | simp only [keeps_mk, keeps_mk_scr, keeps_mk_tab, keeps_mk_scr_tab, keeps_mk_otp] | split | (split <;> try dsimp only))

theorem egressFrame_keeps {u0 : State} {s : State} {n : Nat} {f : EgFrame} (h1 : u0.Keeps s) : u0.Keeps (egressFrame s n f) := by
  unfold egressFrame
  dsimp only
  repeat' (first | (with_reducible first | assumption | apply keeps_ite | apply bump_keeps | apply perf_keeps | apply perfAdd_keeps | apply egressFinish_keeps | apply actionEcc_keeps) | refine ecnStep_keeps_of (by with_reducible assumption) ?_ | split | (split <;> try dsimp only))

theorem egressPass_keeps {u0 : State} {n : Fin 20} {s : State} (h1 : u0.Keeps s) : u0.Keeps (egressPass n s) := by
  unfold egressPass
  dsimp only
  repeat' (first | (with_reducible first | assumption | apply egressFrame_keeps) | simp only [keeps_mk] | split | (split <;> try dsimp only))

theorem ptpTwoStep_keeps {u0 : State} {s : State} {p : Nat} {h : Hdr} {tx : Ptp} (h1 : u0.Keeps s) : u0.Keeps (ptpTwoStep s p h tx) := by
  unfold ptpTwoStep
  dsimp only
  repeat' (first | (with_reducible first | assumption | apply keeps_ite | apply bump_keeps | apply hostEvent_keeps) | (intro _; intros; try dsimp only) | simp only [keeps_mk, keeps_mk_scr, keeps_mk_tab, keeps_mk_scr_tab, keeps_mk_otp] | split | (split <;> try dsimp only))

theorem macSend_keeps {u0 : State} {s : State} {p : Nat} {f : EgFrame} (h1 : u0.Keeps s) : u0.Keeps (macSend s p f) := by
  unfold macSend
  dsimp only
  repeat' (first | (with_reducible first | assumption | apply keeps_ite | apply bump_keeps | apply perf_keeps | apply sendLine_keeps | apply ptpTwoStep_keeps) | split | (split <;> try dsimp only))

theorem stageRest_keeps {u0 : State} {s : State} {p k : Nat} {r : List EgFrame} (h1 : u0.Keeps s) : u0.Keeps (stageRest s p k r) := by
  unfold stageRest
  dsimp only
  repeat' (first | with_reducible assumption | simp only [keeps_mk] | split | (split <;> try dsimp only))

theorem stagedFrameStart_keeps {u0 : State} {p : Fin 160} {k : Fin 8} {s : State} (h1 : u0.Keeps s) : u0.Keeps (stagedFrameStart p k s) := by
  unfold stagedFrameStart
  repeat' (first | (with_reducible first | assumption | apply keeps_ite | apply stageRest_keeps | apply macSend_keeps) | refine macRefuses_keeps (by with_reducible assumption) ?_ | split | (split <;> try dsimp only))

theorem gateNofit_keeps {u0 : State} {p : Fin 160} {k : Fin 8} {s : State} (h1 : u0.Keeps s) : u0.Keeps (gateNofit p k s) := by
  unfold gateNofit
  repeat' (first | (with_reducible first | assumption | apply keeps_ite | apply bump_keeps | apply stageRest_keeps) | split | (split <;> try dsimp only))

end Sys2Proof.Machine
end

