-- ==== Sys2Proof/Laws/KeepsSched.lean ====
section
/-! SUPPORT. What the operations of Machine/Sched.lean keep: the queue of commands, the identity of the part, canonical stores. -/

namespace Sys2Proof.Machine

theorem rrPut_keeps {u0 : State} {s : State} {k c : Nat} (h1 : u0.Keeps s) : u0.Keeps (rrPut s k c) := by
  unfold rrPut
  dsimp only
  repeat' (first | with_reducible assumption | simp only [keeps_mk] | split | (split <;> try dsimp only))

theorem requestRetry_keeps {u0 : State} {q : Fin 1048576} {s : State} (h1 : u0.Keeps s) : u0.Keeps (requestRetry q s) := by
  unfold requestRetry
  dsimp only
  repeat' (first | (with_reducible first | assumption | apply keeps_ite | apply bump_keeps | apply voqAsk_keeps | apply putQueue_keeps) | (intro _; intros; try dsimp only) | simp only [keeps_mk, keeps_mk_scr, keeps_mk_tab, keeps_mk_scr_tab, keeps_mk_otp] | split | (split <;> try dsimp only))

theorem voqTimeout_keeps {u0 : State} {q : Fin 1048576} {s : State} (h1 : u0.Keeps s) : u0.Keeps (voqTimeout q s) := by
  unfold voqTimeout
  dsimp only
  repeat' (first | (with_reducible first | assumption | apply keeps_ite | apply bump_keeps | apply putQueue_keeps | apply bumpIf_keeps | apply flushQueue_keeps) | (intro _; intros; try dsimp only) | simp only [keeps_mk, keeps_mk_scr, keeps_mk_tab, keeps_mk_scr_tab, keeps_mk_otp] | split | (split <;> try dsimp only))

theorem partnerBad_keeps {u0 : State} {s : State} {g k : Nat} (h1 : u0.Keeps s) : u0.Keeps (partnerBad s g k) := by
  unfold partnerBad
  repeat' (first | (with_reducible first | assumption | apply report_keeps | apply bump_keeps) | (intro _; intros; try dsimp only) | simp only [keeps_mk, keeps_mk_scr, keeps_mk_tab, keeps_mk_scr_tab, keeps_mk_otp] | split | (split <;> try dsimp only))

theorem creditArrive_keeps {u0 : State} {g port cls : Nat} {s : State} (h1 : u0.Keeps s) : u0.Keeps (creditArrive g port cls s) := by
  unfold creditArrive
  dsimp only
  repeat' (first | (with_reducible first | assumption | apply keeps_ite | apply bump_keeps | apply partnerBad_keeps | apply perf_keeps | apply putQueue_keeps | apply voqAsk_keeps) | split | (split <;> try dsimp only))

theorem creditPaced_keeps {u0 : State} {s : State} {port : Nat} (h1 : u0.Keeps s) : u0.Keeps (creditPaced s port) := by
  unfold creditPaced
  dsimp only
  repeat' (first | with_reducible assumption | simp only [keeps_mk] | split | (split <;> try dsimp only))

theorem creditGrant_keeps {u0 : State} {port : Fin 65536} {s : State} (h1 : u0.Keeps s) : u0.Keeps (creditGrant port s) := by
  unfold creditGrant
  dsimp only
  repeat' (first | (with_reducible first | assumption | apply keeps_ite | apply rrPut_keeps | apply bump_keeps | apply perf_keeps | apply creditPaced_keeps) | simp only [keeps_mk] | split | (split <;> try dsimp only))

theorem sendCells_keeps {u0 : State} {s : State} {dst cls : Nat} {h : Hdr} {data : Bytes} (h1 : u0.Keeps s) : u0.Keeps (sendCells s dst cls h data) := by
  unfold sendCells
  dsimp only
  repeat' (first | (with_reducible first | assumption | apply keeps_ite | apply bumpN_keeps) | simp only [keeps_mk] | split | (split <;> try dsimp only))

theorem deliver_keeps {u0 : State} {s : State} {q : Nat} {d : Desc} (h1 : u0.Keeps s) : u0.Keeps (deliver s q d) := by
  unfold deliver
  dsimp only
  repeat' (first | (with_reducible first | assumption | apply keeps_ite | apply perf_keeps | apply releaseBuf_keeps | apply sendCells_keeps) | simp only [keeps_mk] | split | (split <;> try dsimp only))

theorem leaveReady_keeps {u0 : State} {y1 : Nat} {y2 : State} {y3 : Nat} (h1 : u0.Keeps y2) : u0.Keeps (leaveReady y1 y2 y3) := by
  induction y1 generalizing y2 y3 with
  | zero =>
    unfold leaveReady
    repeat' (first | (with_reducible first | assumption | apply ih | apply keeps_ite | apply keeps_foldl | apply keeps_foldl_snd | apply keeps_foldl_fst | apply deliver_keeps | apply putQueue_keeps) | (intro _; intros; try dsimp only) | simp only [keeps_mk, keeps_mk_scr, keeps_mk_tab, keeps_mk_scr_tab, keeps_mk_otp] | split | (split <;> try dsimp only))
  | succ _ ih =>
    unfold leaveReady
    dsimp only
    repeat' (first | (with_reducible first | assumption | apply ih | apply deliver_keeps | apply putQueue_keeps) | split | (split <;> try dsimp only))

theorem leave_keeps {u0 : State} {s : State} {q : Nat} {d : Desc} {readable : Bool} (h1 : u0.Keeps s) : u0.Keeps (leave s q d readable) := by
  unfold leave
  dsimp only
  repeat' (first | (with_reducible first | assumption | apply leaveReady_keeps | apply putQueue_keeps) | (intro _; intros; try dsimp only) | simp only [keeps_mk, keeps_mk_scr, keeps_mk_tab, keeps_mk_scr_tab, keeps_mk_otp] | split | (split <;> try dsimp only))

theorem takeOff_keeps {u0 : State} {s : State} {q : Nat} {d : Desc} {b : Buf} {bad : Bool} (h1 : u0.Keeps s) : u0.Keeps (takeOff s q d b bad) := by
  unfold takeOff
  dsimp only
  repeat' (first | (with_reducible first | assumption | apply keeps_ite | apply bump_keeps | apply report_keeps | apply perf_keeps | apply releaseBuf_keeps | apply dropCount_keeps | apply leave_keeps) | simp only [keeps_mk] | split | (split <;> try dsimp only))

theorem skipped_keeps {u0 : State} {s : State} {n : Nat} (h1 : u0.Keeps s) : u0.Keeps (skipped s n) := by
  unfold skipped
  repeat' (first | (with_reducible first | assumption | apply bumpN_keeps | apply perfAdd_keeps) | (intro _; intros; try dsimp only) | simp only [keeps_mk, keeps_mk_scr, keeps_mk_tab, keeps_mk_scr_tab, keeps_mk_otp] | split | (split <;> try dsimp only))

theorem voqSpend_keeps {u0 : State} {s : State} {q : Nat} {b : Buf} (h1 : u0.Keeps s) : u0.Keeps (voqSpend s q b) := by
  unfold voqSpend
  dsimp only
  repeat' (first | (with_reducible first | assumption | apply keeps_ite | apply bump_keeps | apply putQueue_keeps) | (intro _; intros; try dsimp only) | simp only [keeps_mk, keeps_mk_scr, keeps_mk_tab, keeps_mk_scr_tab, keeps_mk_otp] | split | (split <;> try dsimp only))

theorem voqTake_keeps {u0 : State} {s : State} {q : Nat} {bad : Bool} (h1 : u0.Keeps s) : u0.Keeps (voqTake s q bad) := by
  unfold voqTake
  dsimp only
  repeat' (first | (with_reducible first | assumption | apply keeps_ite | apply bump_keeps | apply takeOff_keeps | apply voqSpend_keeps | apply putQueue_keeps | apply voqAsk_keeps) | refine popHead_keeps_of (by with_reducible assumption) ?_ | split | (split <;> try dsimp only))

theorem voqDequeue_keeps {u0 : State} {bad : Bool} {s : State} (h1 : u0.Keeps s) : u0.Keeps (voqDequeue bad s) := by
  unfold voqDequeue
  dsimp only
  repeat' (first | (with_reducible first | assumption | apply rrPut_keeps | apply perf_keeps | apply voqTake_keeps | apply skipped_keeps) | split | (split <;> try dsimp only))

theorem dwrrFill_keeps {u0 : State} {s : State} {l : List Nat} (h1 : u0.Keeps s) : u0.Keeps (dwrrFill s l) := by
  unfold dwrrFill
  dsimp only
  repeat' (first | (with_reducible first | assumption | apply keeps_ite | apply keeps_foldl | apply putNode_keeps) | (intro _; intros; try dsimp only) | simp only [keeps_mk, keeps_mk_scr, keeps_mk_tab, keeps_mk_scr_tab, keeps_mk_otp] | split | (split <;> try dsimp only))

theorem pickChild_keepsO {u0 : State} {s : State} {n : Nat} {kids : List Nat} (h1 : u0.Keeps s) : u0.KeepsT (pickChild s n kids) := by
  unfold pickChild
  dsimp only
  repeat' (first | (with_reducible first | assumption | exact keepsT_none | apply keepsT_map | apply keeps_ite | apply rrPut_keeps | apply dwrrFill_keeps) | (intro _; intros; try dsimp only) | split | (split <;> try dsimp only))
theorem pickChild_keeps {u0 : State} {s : State} {n : Nat} {kids : List Nat} {v0 : Nat} {v1 : Bool} {v2 : State} (e : pickChild s n kids = some (v0, v1, v2)) (h1 : u0.Keeps s) : u0.Keeps v2 := (pickChild_keepsO h1 ).of _ e

theorem pickPath_keeps {u0 : State} {y1 : Nat} {y2 : State} {y3 : Nat} {y4 : List (List Nat)} (h1 : u0.Keeps y2) : u0.Keeps (pickPath y1 y2 y3 y4).2 := by
  induction y1 generalizing y2 y3 y4 with
  | zero =>
    unfold pickPath
    dsimp only
    repeat' (first | (with_reducible first | assumption | apply ih | apply keeps_ite | apply keeps_foldl | apply keeps_foldl_snd | apply keeps_foldl_fst | apply pickChild_keepsO) | (intro _; intros; try dsimp only) | refine pickChild_keeps (by with_reducible assumption) ?_ | simp only [keeps_mk, keeps_mk_scr, keeps_mk_tab, keeps_mk_scr_tab, keeps_mk_otp] | split | (split <;> try dsimp only))
  | succ _ ih =>
    unfold pickPath
    dsimp only
    repeat' (first | (with_reducible first | assumption | apply ih) | refine pickChild_keeps (by with_reducible assumption) ?_ | split | (split <;> try dsimp only))
theorem pickPath_keeps_of {u0 : State} {y1 : Nat} {y2 : State} {y3 : Nat} {y4 : List (List Nat)} {v0 : List (Nat × Bool)} {v1 : State} (e : pickPath y1 y2 y3 y4 = (v0, v1)) (h1 : u0.Keeps y2) : u0.Keeps v1 := by
  have h : u0.Keeps (pickPath y1 y2 y3 y4).2 := pickPath_keeps h1 
  rw [e] at h
  exact h

theorem nodePay_keeps {u0 : State} {s : State} {c len : Nat} {excess : Bool} (h1 : u0.Keeps s) : u0.Keeps (nodePay s c len excess) := by
  unfold nodePay
  dsimp only
  repeat' (first | (with_reducible first | assumption | apply putTe_keeps | apply stateDue_keeps) | (intro _; intros; try dsimp only) | simp only [keeps_mk, keeps_mk_scr, keeps_mk_tab, keeps_mk_scr_tab, keeps_mk_otp] | split | (split <;> try dsimp only))

theorem emptied_keeps {u0 : State} {s : State} {q : Nat} (h1 : u0.Keeps s) : u0.Keeps (emptied s q) := by
  unfold emptied
  dsimp only
  repeat' (first | (with_reducible first | assumption | apply keeps_ite | apply keeps_foldl | apply putNode_keeps) | (intro _; intros; try dsimp only) | split | (split <;> try dsimp only))

theorem egressSelect_keeps {u0 : State} {n : Fin 161} {bad : Bool} {s : State} (h1 : u0.Keeps s) : u0.Keeps (egressSelect n bad s) := by
  unfold egressSelect
  dsimp only
  repeat' (first | (with_reducible first | assumption | apply keeps_ite | apply keeps_foldl | apply takeOff_keeps | apply nodePay_keeps | apply emptied_keeps | apply perf_keeps | apply skipped_keeps) | (intro _; intros; try dsimp only) | refine pickPath_keeps_of (by with_reducible assumption) ?_ | refine popHead_keeps_of (by with_reducible assumption) ?_ | split | (split <;> try dsimp only))

theorem calendarSlot_keeps {u0 : State} {s : State} (h1 : u0.Keeps s) : u0.Keeps (calendarSlot s) := by
  unfold calendarSlot
  dsimp only
  repeat' (first | with_reducible assumption | simp only [keeps_mk] | split | (split <;> try dsimp only))

theorem fenceEnd_keeps {u0 : State} {s : State} {f : Fence} (h1 : u0.Keeps s) : u0.Keeps (fenceEnd s f) := by
  unfold fenceEnd
  dsimp only
  repeat' (first | (with_reducible first | assumption | apply fenceCount_keeps) | simp only [keeps_mk] | split | (split <;> try dsimp only))

theorem fenceLift_keeps {u0 : State} {i : Nat} {s : State} (h1 : u0.Keeps s) : u0.Keeps (fenceLift i s) := by
  unfold fenceLift
  repeat' (first | (with_reducible first | assumption | apply keeps_ite | apply fenceEnd_keeps) | split | (split <;> try dsimp only))

theorem fenceTimeout_keeps {u0 : State} {i : Nat} {s : State} (h1 : u0.Keeps s) : u0.Keeps (fenceTimeout i s) := by
  unfold fenceTimeout
  repeat' (first | (with_reducible first | assumption | apply fenceEnd_keeps | apply bump_keeps | apply emptied_keeps | apply flushQueue_keeps) | (intro _; intros; try dsimp only) | split | (split <;> try dsimp only))

theorem epochWindow_keeps {u0 : State} {s : State} (h1 : u0.Keeps s) : u0.Keeps (epochWindow s) := by
  unfold epochWindow
  dsimp only
  repeat' (first | (with_reducible first | assumption | apply keeps_ite) | simp only [keeps_mk] | split | (split <;> try dsimp only))

end Sys2Proof.Machine
end

