-- ==== Sys2Proof/Laws/KeepsFabTx.lean ====
section
/-! SUPPORT. What the operations of Machine/FabTx.lean keep: the queue of commands, the identity of the part, canonical stores. -/

namespace Sys2Proof.Machine

theorem fabricLaneCalibration_keeps {u0 : State} {g : Fin 8} {l : Fin 28} {ok : Bool} {s : State} (h1 : u0.Keeps s) : u0.Keeps (fabricLaneCalibration g l ok s) := by
  unfold fabricLaneCalibration
  repeat' (first | (with_reducible first | assumption | apply keeps_ite | apply fabFollowGroup_keeps | apply setB_keeps | apply levelMore_keeps) | (intro _; intros; try dsimp only) | simp only [keeps_mk, keeps_mk_scr, keeps_mk_tab, keeps_mk_scr_tab, keeps_mk_otp] | split | (split <;> try dsimp only))

theorem fabricLinkTrainingDone_keeps {u0 : State} {g : Fin 8} {l : Fin 28} {ok : Bool} {s : State} (h1 : u0.Keeps s) : u0.Keeps (fabricLinkTrainingDone g l ok s) := by
  unfold fabricLinkTrainingDone
  dsimp only
  repeat' (first | (with_reducible first | assumption | apply keeps_ite) | simp only [keeps_mk] | split | (split <;> try dsimp only))

theorem fabricTrainingRetry_keeps {u0 : State} {g : Fin 8} {l : Fin 28} {s : State} (h1 : u0.Keeps s) : u0.Keeps (fabricTrainingRetry g l s) := by
  unfold fabricTrainingRetry
  dsimp only
  repeat' (first | (with_reducible first | assumption | apply keeps_ite) | simp only [keeps_mk] | split | (split <;> try dsimp only))

theorem nextOther_keepsO {u0 : State} {s : State} (h1 : u0.Keeps s) : u0.KeepsP (nextOther s) := by
  unfold nextOther
  dsimp only
  repeat' (first | (with_reducible first | assumption | exact keepsP_none | apply keepsP_some) | simp only [keeps_mk] | split | (split <;> try dsimp only))
theorem nextOther_keeps {u0 : State} {s : State} {v0 : Cell} {v1 : State} (e : nextOther s = some (v0, v1)) (h1 : u0.Keeps s) : u0.Keeps v1 := (nextOther_keepsO h1 ).of _ e

theorem nextData_keepsO {u0 : State} {s : State} {g : Nat} (h1 : u0.Keeps s) : u0.KeepsP (nextData s g) := by
  unfold nextData
  dsimp only
  repeat' (first | (with_reducible first | assumption | exact keepsP_none | apply keepsP_some) | simp only [keeps_mk] | split | (split <;> try dsimp only))
theorem nextData_keeps {u0 : State} {s : State} {g : Nat} {v0 : Cell} {v1 : State} (e : nextData s g = some (v0, v1)) (h1 : u0.Keeps s) : u0.Keeps v1 := (nextData_keepsO h1 ).of _ e

theorem nextCell_keepsO {u0 : State} {s : State} {g nd : Nat} (h1 : u0.Keeps s) : u0.KeepsP (nextCell s g nd) := by
  unfold nextCell
  repeat' (first | (with_reducible first | assumption | apply keepsP_some | apply nextData_keepsO) | refine nextOther_keeps (by with_reducible assumption) ?_ | split | (split <;> try dsimp only))
theorem nextCell_keeps {u0 : State} {s : State} {g nd : Nat} {v0 : Cell} {v1 : State} (e : nextCell s g nd = some (v0, v1)) (h1 : u0.Keeps s) : u0.Keeps v1 := (nextCell_keepsO h1 ).of _ e

theorem fillSlot_keeps {u0 : State} {lanes : List (Nat × Nat)} {x : State × Placed} (h1 : u0.Keeps x.1) : u0.Keeps (fillSlot lanes x).1 := by
  unfold fillSlot
  dsimp only
  repeat' (first | (with_reducible first | assumption | apply keeps_ite | apply keeps_foldl_fst | apply perf_keeps) | (intro _; intros; try dsimp only) | refine nextCell_keeps (by with_reducible assumption) ?_ | simp only [keeps_mk] | split | (split <;> try dsimp only))
theorem fillSlot_keeps_of {u0 : State} {lanes : List (Nat × Nat)} {x : State × Placed} {v0 : State} {v1 : Placed} (e : fillSlot lanes x = (v0, v1)) (h1 : u0.Keeps x.1) : u0.Keeps v0 := by
  have h : u0.Keeps (fillSlot lanes x).1 := fillSlot_keeps h1 
  rw [e] at h
  exact h

theorem fillSlots_keeps {u0 : State} {lanes : List (Nat × Nat)} {y1 : Nat} {y2 : State × Placed} (h1 : u0.Keeps y2.1) : u0.Keeps (fillSlots lanes y1 y2).1 := by
  induction y1 generalizing y2 with
  | zero =>
    unfold fillSlots
    repeat' (first | (with_reducible first | assumption | apply ih | apply keeps_ite | apply keeps_foldl | apply keeps_foldl_snd | apply keeps_foldl_fst | apply fillSlot_keeps) | (intro _; intros; try dsimp only) | refine fillSlot_keeps_of (by with_reducible assumption) ?_ | simp only [keeps_mk, keeps_mk_scr, keeps_mk_tab, keeps_mk_scr_tab, keeps_mk_otp] | split | (split <;> try dsimp only))
  | succ _ ih =>
    unfold fillSlots
    repeat' (first | (with_reducible first | assumption | apply ih | apply fillSlot_keeps) | (intro _; intros; try dsimp only) | refine fillSlot_keeps_of (by with_reducible assumption) ?_ | simp only [keeps_mk, keeps_mk_scr, keeps_mk_tab, keeps_mk_scr_tab, keeps_mk_otp] | split | (split <;> try dsimp only))
theorem fillSlots_keeps_of {u0 : State} {lanes : List (Nat × Nat)} {y1 : Nat} {y2 : State × Placed} {v0 : State} {v1 : Placed} (e : fillSlots lanes y1 y2 = (v0, v1)) (h1 : u0.Keeps y2.1) : u0.Keeps v0 := by
  have h : u0.Keeps (fillSlots lanes y1 y2).1 := fillSlots_keeps h1 
  rw [e] at h
  exact h

theorem laneFrame_keeps {u0 : State} {s : State} {g l : Nat} {cells : List Cell} (h1 : u0.Keeps s) : u0.Keeps (laneFrame s g l cells) := by
  unfold laneFrame
  dsimp only
  repeat' (first | (with_reducible first | assumption | apply keeps_ite | apply perf_keeps | apply putTx_keeps | apply carvTx_keeps) | (intro _; intros; try dsimp only) | simp only [keeps_mk, keeps_mk_scr, keeps_mk_tab, keeps_mk_scr_tab, keeps_mk_otp] | split | (split <;> try dsimp only))

theorem sendAll_keeps {u0 : State} {s : State} {p : Placed} (h1 : u0.Keeps s) : u0.Keeps (sendAll s p) := by
  unfold sendAll
  repeat' (first | (with_reducible first | assumption | apply keeps_ite | apply keeps_foldl | apply laneFrame_keeps) | (intro _; intros; try dsimp only) | simp only [keeps_mk, keeps_mk_scr, keeps_mk_tab, keeps_mk_scr_tab, keeps_mk_otp] | split | (split <;> try dsimp only))

theorem nextMfas_keeps {u0 : State} {s : State} (h1 : u0.Keeps s) : u0.Keeps (nextMfas s) := by
  unfold nextMfas
  dsimp only
  repeat' (first | with_reducible assumption | simp only [keeps_mk] | split | (split <;> try dsimp only))

theorem sprayChange_keeps {u0 : State} {s : State} (h1 : u0.Keeps s) : u0.Keeps (sprayChange s) := by
  unfold sprayChange
  dsimp only
  repeat' (first | (with_reducible first | assumption | apply keeps_foldl | apply setF_keeps | apply setB_keeps) | (intro _; intros; try dsimp only) | simp only [keeps_mk, keeps_mk_scr, keeps_mk_tab, keeps_mk_scr_tab, keeps_mk_otp] | split | (split <;> try dsimp only))

theorem caravanFrameSend_keeps {u0 : State} {gal : Bool} {s : State} (h1 : u0.Keeps s) : u0.Keeps (caravanFrameSend gal s) := by
  unfold caravanFrameSend
  dsimp only
  repeat' (first | (with_reducible first | assumption | apply keeps_ite | apply fillSlots_keeps | apply sendAll_keeps | apply nextMfas_keeps | apply sprayChange_keeps | apply galFrameSend_keeps) | (intro _; intros; try dsimp only) | refine fillSlots_keeps_of (by with_reducible assumption) ?_ | simp only [keeps_mk, keeps_mk_scr, keeps_mk_tab, keeps_mk_scr_tab, keeps_mk_otp] | split | (split <;> try dsimp only))

end Sys2Proof.Machine
end

