-- ==== Sys2Proof/Laws/KeepsDram.lean ====
section
/-! SUPPORT. What the operations of Machine/Dram.lean keep: the queue of commands, the identity of the part, canonical stores. -/

namespace Sys2Proof.Machine

theorem diEnter_keeps {u0 : State} {s : State} {i st : Nat} (h1 : u0.Keeps s) : u0.Keeps (diEnter s i st) := by
  unfold diEnter
  repeat' (first | (with_reducible first | assumption | apply setF_keeps) | (intro _; intros; try dsimp only) | simp only [keeps_mk, keeps_mk_scr, keeps_mk_tab, keeps_mk_scr_tab, keeps_mk_otp] | split | (split <;> try dsimp only))

theorem diTrain_keeps {u0 : State} {s : State} {i : Nat} (h1 : u0.Keeps s) : u0.Keeps (diTrain s i) := by
  unfold diTrain
  dsimp only
  repeat' (first | (with_reducible first | assumption | apply diEnter_keeps) | simp only [keeps_mk] | split | (split <;> try dsimp only))

theorem dramPools_keeps {u0 : State} {s : State} (h1 : u0.Keeps s) : u0.Keeps (dramPools s) := by
  unfold dramPools
  repeat' (first | (with_reducible first | assumption | apply keeps_foldl | apply poolFollow_keeps) | (intro _; intros; try dsimp only) | simp only [keeps_mk, keeps_mk_scr, keeps_mk_tab, keeps_mk_scr_tab, keeps_mk_otp] | split | (split <;> try dsimp only))

theorem diPerf_keeps {u0 : State} {s : State} {i e n : Nat} (h1 : u0.Keeps s) : u0.Keeps (diPerf s i e n) := by
  unfold diPerf
  repeat' (first | (with_reducible first | assumption | apply perfAdd_keeps) | (intro _; intros; try dsimp only) | simp only [keeps_mk, keeps_mk_scr, keeps_mk_tab, keeps_mk_scr_tab, keeps_mk_otp] | split | (split <;> try dsimp only))

theorem diFail_keeps {u0 : State} {s : State} {i : Nat} (h1 : u0.Keeps s) : u0.Keeps (diFail s i) := by
  unfold diFail
  repeat' (first | (with_reducible first | assumption | apply dramFailed_keeps | apply dramPools_keeps) | (intro _; intros; try dsimp only) | simp only [keeps_mk, keeps_mk_scr, keeps_mk_tab, keeps_mk_scr_tab, keeps_mk_otp] | split | (split <;> try dsimp only))

theorem diLinkFail_keeps {u0 : State} {s : State} {i loc detail : Nat} (h1 : u0.Keeps s) : u0.Keeps (diLinkFail s i loc detail) := by
  unfold diLinkFail
  dsimp only
  repeat' (first | (with_reducible first | assumption | apply keeps_ite | apply diFail_keeps | apply report_keeps) | simp only [keeps_mk] | split | (split <;> try dsimp only))

theorem tagUse_keeps {u0 : State} {s : State} {i h j : Nat} (h1 : u0.Keeps s) : u0.Keeps (tagUse s i h j) := by
  unfold tagUse
  dsimp only
  repeat' (first | with_reducible assumption | simp only [keeps_mk] | split | (split <;> try dsimp only))

theorem tagChange_keeps {u0 : State} {s : State} {i h j : Nat} (h1 : u0.Keeps s) : u0.Keeps (tagChange s i h j) := by
  unfold tagChange
  dsimp only
  repeat' (first | (with_reducible first | assumption | apply tagUse_keeps) | simp only [keeps_mk] | split | (split <;> try dsimp only))

theorem tagWriteback_keeps {u0 : State} {i : Fin 24} {retries : Nat} {ok : Bool} {s : State} (h1 : u0.Keeps s) : u0.Keeps (tagWriteback i retries ok s) := by
  unfold tagWriteback
  dsimp only
  repeat' (first | (with_reducible first | assumption | apply keeps_ite | apply bump_keeps | apply bumpN_keeps | apply diLinkFail_keeps) | simp only [keeps_mk] | split | (split <;> try dsimp only))

theorem lineWritten_keeps {u0 : State} {s : State} {i : Nat} {x : WLine} {b : Bytes} {poisoned : Bool} (h1 : u0.Keeps s) : u0.Keeps (lineWritten s i x b poisoned) := by
  unfold lineWritten
  dsimp only
  repeat' (first | (with_reducible first | assumption | apply tagChange_keeps | apply bump_keeps | apply diPerf_keeps) | simp only [keeps_mk] | split | (split <;> try dsimp only))

theorem lineMerge_keeps {u0 : State} {s : State} {i : Nat} {x : WLine} {new : Bytes} {flip : Nat} (h1 : u0.Keeps s) : u0.Keeps (lineMerge s i x new flip).2.2 := by
  unfold lineMerge
  dsimp only
  repeat' (first | (with_reducible first | assumption | apply keeps_ite | apply bump_keeps | apply report_keeps | apply tagUse_keeps | apply diPerf_keeps) | (intro _; intros; try dsimp only) | simp only [keeps_mk, keeps_mk_scr, keeps_mk_tab, keeps_mk_scr_tab, keeps_mk_otp] | split | (split <;> try dsimp only))
theorem lineMerge_keeps_of {u0 : State} {s : State} {i : Nat} {x : WLine} {new : Bytes} {flip : Nat} {v0 : Bytes} {v1 : Bool} {v2 : State} (e : lineMerge s i x new flip = (v0, v1, v2)) (h1 : u0.Keeps s) : u0.Keeps v2 := by
  have h : u0.Keeps (lineMerge s i x new flip).2.2 := lineMerge_keeps h1 
  rw [e] at h
  exact h

theorem bufFail_keeps {u0 : State} {s : State} {h : Nat} (h1 : u0.Keeps s) : u0.Keeps (bufFail s h) := by
  unfold bufFail
  dsimp only
  repeat' (first | with_reducible assumption | simp only [keeps_mk] | split | (split <;> try dsimp only))

theorem writeLine_keeps {u0 : State} {s : State} {i : Nat} {x : WLine} {b : Buf} {ok : Bool} {flip : Nat} (h1 : u0.Keeps s) : u0.Keeps (writeLine s i x b ok flip) := by
  unfold writeLine
  dsimp only
  repeat' (first | (with_reducible first | assumption | apply keeps_ite | apply bump_keeps | apply lineMerge_keeps | apply diLinkFail_keeps | apply lineWritten_keeps | apply bufFail_keeps) | split | (split <;> try dsimp only))

theorem dramWriteComplete_keeps {u0 : State} {i : Fin 24} {retries : Nat} {ok : Bool} {flip : Nat} {s : State} (h1 : u0.Keeps s) : u0.Keeps (dramWriteComplete i retries ok flip s) := by
  unfold dramWriteComplete
  dsimp only
  repeat' (first | (with_reducible first | assumption | apply keeps_ite | apply bumpN_keeps | apply wqPut_keeps | apply writeLine_keeps) | split | (split <;> try dsimp only))

theorem mergeTimeout_keeps {u0 : State} {i : Fin 24} {s : State} (h1 : u0.Keeps s) : u0.Keeps (mergeTimeout i s) := by
  unfold mergeTimeout
  dsimp only
  repeat' (first | (with_reducible first | assumption | apply bump_keeps | apply wqPut_keeps) | split | (split <;> try dsimp only))

theorem leavingSet_keeps {u0 : State} {s : State} {q k : Nat} {keep : Bool} (h1 : u0.Keeps s) : u0.Keeps (leavingSet s q k keep) := by
  unfold leavingSet
  dsimp only
  repeat' (first | (with_reducible first | assumption | apply putQueue_keeps) | simp only [keeps_mk] | split | (split <;> try dsimp only))

theorem lineFails_keeps {u0 : State} {i h : Nat} {s : State} {e : Nat × LRead} (h1 : u0.Keeps s) : u0.Keeps (lineFails i h s e) := by
  unfold lineFails
  repeat' (first | (with_reducible first | assumption | apply keeps_ite | apply bump_keeps | apply report_keeps) | (intro _; intros; try dsimp only) | simp only [keeps_mk, keeps_mk_scr, keeps_mk_tab, keeps_mk_scr_tab, keeps_mk_otp] | split | (split <;> try dsimp only))

theorem lineLost_keeps {u0 : State} {i h : Nat} {s : State} {j : Nat} (h1 : u0.Keeps s) : u0.Keeps (lineLost i h s j) := by
  unfold lineLost
  repeat' (first | (with_reducible first | assumption | apply diLinkFail_keeps | apply bump_keeps) | (intro _; intros; try dsimp only) | simp only [keeps_mk, keeps_mk_scr, keeps_mk_tab, keeps_mk_scr_tab, keeps_mk_otp] | split | (split <;> try dsimp only))

theorem readDrop_keeps {u0 : State} {s : State} {q k r h : Nat} (h1 : u0.Keeps s) : u0.Keeps (readDrop s q k r h) := by
  unfold readDrop
  dsimp only
  repeat' (first | (with_reducible first | assumption | apply dropCount_keeps | apply leaveReady_keeps | apply leavingSet_keeps | apply releaseBuf_keeps) | (intro _; intros; try dsimp only) | simp only [keeps_mk, keeps_mk_scr, keeps_mk_tab, keeps_mk_scr_tab, keeps_mk_otp] | split | (split <;> try dsimp only))

theorem readTaken_keeps {u0 : State} {s : State} {h : Nat} {b : Buf} {l : List (Nat × LRead)} (h1 : u0.Keeps s) : u0.Keeps (readTaken s h b l) := by
  unfold readTaken
  dsimp only
  repeat' (first | with_reducible assumption | simp only [keeps_mk] | split | (split <;> try dsimp only))

theorem readFrame_keeps {u0 : State} {s : State} {q k : Nat} {d : Desc} {b : Buf} {retries : Nat} {failed : List Nat} {flips : NMap Nat} (h1 : u0.Keeps s) : u0.Keeps (readFrame s q k d b retries failed flips) := by
  unfold readFrame
  dsimp only
  repeat' (first | (with_reducible first | assumption | apply keeps_ite | apply keeps_foldl | apply leaveReady_keeps | apply bumpN_keeps | apply readTaken_keeps | apply readDrop_keeps | apply tagUse_keeps | apply leavingSet_keeps | apply diPerf_keeps | apply lineFails_keeps | apply lineLost_keeps) | (intro _; intros; try dsimp only) | simp only [keeps_mk, keeps_mk_scr, keeps_mk_tab, keeps_mk_scr_tab, keeps_mk_otp] | split | (split <;> try dsimp only))

theorem dramReadComplete_keeps {u0 : State} {q : Fin 1048576} {k retries : Nat} {failed : List Nat} {flips : NMap Nat} {s : State} (h1 : u0.Keeps s) : u0.Keeps (dramReadComplete q k retries failed flips s) := by
  unfold dramReadComplete
  repeat' (first | (with_reducible first | assumption | apply keeps_ite | apply readDrop_keeps | apply readFrame_keeps) | split | (split <;> try dsimp only))

theorem fallDue_keeps {u0 : State} {s : State} {a res : Nat} (h1 : u0.Keeps s) : u0.Keeps (fallDue s a res) := by
  unfold fallDue
  dsimp only
  repeat' (first | (with_reducible first | assumption | apply keeps_ite) | simp only [keeps_mk] | split | (split <;> try dsimp only))

theorem stepEnds_keeps {u0 : State} {s : State} {a res : Nat} (h1 : u0.Keeps s) : u0.Keeps (stepEnds s a res) := by
  unfold stepEnds
  dsimp only
  repeat' (first | with_reducible assumption | simp only [keeps_mk] | split | (split <;> try dsimp only))

theorem dramTraining_keeps {u0 : State} {i : Fin 24} {ok : Bool} {s : State} (h1 : u0.Keeps s) : u0.Keeps (dramTraining i ok s) := by
  unfold dramTraining
  dsimp only
  repeat' (first | (with_reducible first | assumption | apply keeps_ite | apply diEnter_keeps | apply dramPools_keeps | apply levelOff_keeps | apply levelMore_keeps) | simp only [keeps_mk] | split | (split <;> try dsimp only))

theorem refreshBank_keeps {u0 : State} {s : State} {i bank : Nat} (h1 : u0.Keeps s) : u0.Keeps (refreshBank s i bank) := by
  unfold refreshBank
  dsimp only
  repeat' (first | (with_reducible first | assumption | apply diPerf_keeps) | simp only [keeps_mk] | split | (split <;> try dsimp only))

theorem dramRefresh_keeps {u0 : State} {i : Fin 24} {bank : Fin 64} {s : State} (h1 : u0.Keeps s) : u0.Keeps (dramRefresh i bank s) := by
  unfold dramRefresh
  repeat' (first | (with_reducible first | assumption | apply keeps_ite | apply refreshBank_keeps) | (intro _; intros; try dsimp only) | simp only [keeps_mk, keeps_mk_scr, keeps_mk_tab, keeps_mk_scr_tab, keeps_mk_otp] | split | (split <;> try dsimp only))

theorem readout_keeps {u0 : State} {s : State} {i t : Nat} (h1 : u0.Keeps s) : u0.Keeps (readout s i t) := by
  unfold readout
  dsimp only
  repeat' (first | (with_reducible first | assumption | apply keeps_ite | apply setF_keeps | apply fallDue_keeps | apply setB_keeps | apply levelIs_keeps) | simp only [keeps_mk] | split | (split <;> try dsimp only))

theorem readoutFails_keeps {u0 : State} {s : State} {i : Nat} (h1 : u0.Keeps s) : u0.Keeps (readoutFails s i) := by
  unfold readoutFails
  dsimp only
  repeat' (first | (with_reducible first | assumption | apply keeps_ite | apply diFail_keeps | apply setF_keeps) | simp only [keeps_mk] | split | (split <;> try dsimp only))

theorem dramTempReadout_keeps {u0 : State} {i : Fin 24} {t : Option (Fin 256)} {s : State} (h1 : u0.Keeps s) : u0.Keeps (dramTempReadout i t s) := by
  unfold dramTempReadout
  repeat' (first | (with_reducible first | assumption | apply keeps_ite | apply readout_keeps | apply readoutFails_keeps) | split | (split <;> try dsimp only))

theorem retrainDue_keeps {u0 : State} {i : Fin 24} {s : State} (h1 : u0.Keeps s) : u0.Keeps (retrainDue i s) := by
  unfold retrainDue
  repeat' (first | (with_reducible first | assumption | apply keeps_ite | apply fallDue_keeps) | (intro _; intros; try dsimp only) | simp only [keeps_mk, keeps_mk_scr, keeps_mk_tab, keeps_mk_scr_tab, keeps_mk_otp] | split | (split <;> try dsimp only))

theorem diCtl_keeps {u0 : State} {i v : Nat} {s : State} (h1 : u0.Keeps s) : u0.Keeps (diCtl i v s) := by
  unfold diCtl
  repeat' (first | (with_reducible first | assumption | apply keeps_ite | apply fallDue_keeps) | (intro _; intros; try dsimp only) | simp only [keeps_mk, keeps_mk_scr, keeps_mk_tab, keeps_mk_scr_tab, keeps_mk_otp] | split | (split <;> try dsimp only))

theorem drcRetrain_keeps {u0 : State} {i : Fin 24} {s : State} (h1 : u0.Keeps s) : u0.Keeps (drcRetrain i s) := by
  unfold drcRetrain
  repeat' (first | (with_reducible first | assumption | apply operWrite_keeps | apply diCtl_keeps) | (intro _; intros; try dsimp only) | simp only [keeps_mk, keeps_mk_scr, keeps_mk_tab, keeps_mk_scr_tab, keeps_mk_otp] | split | (split <;> try dsimp only))

theorem pauseBegin_keeps {u0 : State} {i : Fin 24} {s : State} (h1 : u0.Keeps s) : u0.Keeps (pauseBegin i s) := by
  unfold pauseBegin
  repeat' (first | (with_reducible first | assumption | apply keeps_ite | apply keeps_foldl | apply diEnter_keeps | apply diPerf_keeps | apply refreshBank_keeps) | (intro _; intros; try dsimp only) | simp only [keeps_mk, keeps_mk_scr, keeps_mk_tab, keeps_mk_scr_tab, keeps_mk_otp] | split | (split <;> try dsimp only))

theorem diOut_keeps {u0 : State} {s : State} {i : Nat} (h1 : u0.Keeps s) : u0.Keeps (diOut s i) := by
  unfold diOut
  repeat' (first | (with_reducible first | assumption | apply diEnter_keeps | apply dramLost_keeps | apply dramPools_keeps) | (intro _; intros; try dsimp only) | simp only [keeps_mk, keeps_mk_scr, keeps_mk_tab, keeps_mk_scr_tab, keeps_mk_otp] | split | (split <;> try dsimp only))

theorem pauseEnd_keeps {u0 : State} {i : Fin 24} {ok : Bool} {s : State} (h1 : u0.Keeps s) : u0.Keeps (pauseEnd i ok s) := by
  unfold pauseEnd
  dsimp only
  repeat' (first | (with_reducible first | assumption | apply keeps_ite | apply diFail_keeps | apply fallDue_keeps | apply bump_keeps | apply diDrained_keeps | apply diEnter_keeps | apply dramPools_keeps | apply stepEnds_keeps | apply diOut_keeps) | simp only [keeps_mk] | split | (split <;> try dsimp only))

theorem dramTestStep_keeps {u0 : State} {i : Fin 24} {k : Fin 8} {ok : Bool} {s : State} (h1 : u0.Keeps s) : u0.Keeps (dramTestStep i k ok s) := by
  unfold dramTestStep
  dsimp only
  repeat' (first | (with_reducible first | assumption | apply keeps_ite | apply bump_keeps | apply memTestFailed_keeps | apply poolFollow_keeps | apply report_keeps | apply satBump_keeps | apply stepEnds_keeps) | simp only [keeps_mk] | split | (split <;> try dsimp only))

end Sys2Proof.Machine
end

