-- ==== Sys2Proof/Laws/KeepsReact.lean ====
section
/-! SUPPORT. What the operations of Machine/React.lean keep: the queue of commands, the identity of the part, canonical stores. -/

namespace Sys2Proof.Machine

theorem reacted_keeps {u0 : State} {s t : State} (h1 : u0.Keeps s) (h2 : u0.Keeps t) : u0.Keeps (reacted s t) := by
  unfold reacted
  repeat' (first | (with_reducible first | assumption | apply keeps_ite | apply dramPools_keeps | apply settle_keeps) | (intro _; intros; try dsimp only) | simp only [keeps_mk, keeps_mk_scr, keeps_mk_tab, keeps_mk_scr_tab, keeps_mk_otp] | split | (split <;> try dsimp only))

theorem reactFollow_keeps {u0 : State} {s : State} (h1 : u0.Keeps s) : u0.Keeps (reactFollow s) := by
  unfold reactFollow
  dsimp only
  repeat' (first | (with_reducible first | assumption | apply keeps_ite | apply dramPools_keeps | apply settle_keeps) | simp only [keeps_mk] | split | (split <;> try dsimp only))

end Sys2Proof.Machine
end

