-- ==== Sys2Proof/Laws/KeepsMaint.lean ====
section
/-! SUPPORT. What the operations of Machine/Maint.lean keep: the queue of commands, the identity of the part, canonical stores. -/

namespace Sys2Proof.Machine

theorem granted__keeps {u0 : State} {s : State} {m : Maint} (h1 : u0.Keeps s) : u0.Keeps (granted_ s m) := by
  unfold granted_
  dsimp only
  repeat' (first | (with_reducible first | assumption | apply keeps_ite | apply diEnter_keeps | apply setB_keeps | apply bumpIf_keeps | apply refreshBank_keeps) | simp only [keeps_mk] | split | (split <;> try dsimp only))

theorem maintGrant_keeps {u0 : State} {a : Fin 6} {res : Nat} {s : State} (h1 : u0.Keeps s) : u0.Keeps (maintGrant a res s) := by
  unfold maintGrant
  dsimp only
  repeat' (first | (with_reducible first | assumption | apply keeps_ite | apply granted__keeps) | (intro _; intros; try dsimp only) | simp only [keeps_mk, keeps_mk_scr, keeps_mk_tab, keeps_mk_scr_tab, keeps_mk_otp] | split | (split <;> try dsimp only))

theorem dumpLate_keeps {u0 : State} {s : State} {d : Nat} (h1 : u0.Keeps s) : u0.Keeps (dumpLate s d) := by
  unfold dumpLate
  dsimp only
  repeat' (first | (with_reducible first | assumption | apply keeps_ite | apply bump_keeps) | simp only [keeps_mk] | split | (split <;> try dsimp only))

theorem lateExtra_keeps {u0 : State} {s : State} {a res : Nat} (h1 : u0.Keeps s) : u0.Keeps (lateExtra s a res) := by
  unfold lateExtra
  repeat' (first | (with_reducible first | assumption | apply keeps_ite | apply report_keeps | apply bump_keeps | apply dumpLate_keeps) | (intro _; intros; try dsimp only) | simp only [keeps_mk, keeps_mk_scr, keeps_mk_tab, keeps_mk_scr_tab, keeps_mk_otp] | split | (split <;> try dsimp only))

theorem maintDeadline_keeps {u0 : State} {a : Fin 6} {res : Nat} {s : State} (h1 : u0.Keeps s) : u0.Keeps (maintDeadline a res s) := by
  unfold maintDeadline
  dsimp only
  repeat' (first | (with_reducible first | assumption | apply keeps_ite | apply fallDue_keeps | apply bump_keeps | apply lateExtra_keeps | apply report_keeps) | simp only [keeps_mk] | split | (split <;> try dsimp only))

end Sys2Proof.Machine
end

