-- ==== Sys2Proof/Laws/KeepsSlices.lean ====
section
/-! SUPPORT. What the operations of Machine/Slices.lean keep: the queue of commands, the identity of the part, canonical stores. -/

namespace Sys2Proof.Machine

theorem sliceEnter_keeps {u0 : State} {s : State} {n st : Nat} (h1 : u0.Keeps s) : u0.Keeps (sliceEnter s n st) := by
  unfold sliceEnter
  dsimp only
  repeat' (first | (with_reducible first | assumption | apply setF_keeps | apply branchRamp_keeps) | simp only [keeps_mk] | split | (split <;> try dsimp only))

theorem sliceResult_keeps {u0 : State} {s : State} {n r : Nat} (h1 : u0.Keeps s) : u0.Keeps (sliceResult s n r) := by
  unfold sliceResult
  repeat' (first | (with_reducible first | assumption | apply setF_keeps) | (intro _; intros; try dsimp only) | simp only [keeps_mk, keeps_mk_scr, keeps_mk_tab, keeps_mk_scr_tab, keeps_mk_otp] | split | (split <;> try dsimp only))

theorem flushSlice_keeps {u0 : State} {s : State} {n : Nat} (h1 : u0.Keeps s) : u0.Keeps (flushSlice s n) := by
  unfold flushSlice
  repeat' (first | (with_reducible first | assumption | apply keeps_foldl | apply flushArrival_keeps | apply emptied_keeps | apply flushQueue_keeps) | (intro _; intros; try dsimp only) | simp only [keeps_mk, keeps_mk_scr, keeps_mk_tab, keeps_mk_scr_tab, keeps_mk_otp] | split | (split <;> try dsimp only))

theorem diSleep_keeps {u0 : State} {s : State} {i : Nat} (h1 : u0.Keeps s) : u0.Keeps (diSleep s i) := by
  unfold diSleep
  dsimp only
  repeat' (first | (with_reducible first | assumption | apply keeps_ite | apply diOut_keeps | apply pauseWithdraw_keeps) | simp only [keeps_mk] | split | (split <;> try dsimp only))

theorem drainOver_keeps {u0 : State} {s : State} {n : Nat} (h1 : u0.Keeps s) : u0.Keeps (drainOver s n) := by
  unfold drainOver
  dsimp only
  repeat' (first | (with_reducible first | assumption | apply setF_keeps) | simp only [keeps_mk] | split | (split <;> try dsimp only))

theorem enterBegin_keeps {u0 : State} {s : State} {n : Nat} (h1 : u0.Keeps s) : u0.Keeps (enterBegin s n) := by
  unfold enterBegin
  repeat' (first | (with_reducible first | assumption | apply keeps_foldl | apply sliceEnter_keeps | apply drainOver_keeps | apply diSleep_keeps | apply flushSlice_keeps) | (intro _; intros; try dsimp only) | simp only [keeps_mk, keeps_mk_scr, keeps_mk_tab, keeps_mk_scr_tab, keeps_mk_otp] | split | (split <;> try dsimp only))

theorem drainBegin_keeps {u0 : State} {s : State} {n : Nat} (h1 : u0.Keeps s) : u0.Keeps (drainBegin s n) := by
  unfold drainBegin
  dsimp only
  repeat' (first | (with_reducible first | assumption | apply keeps_ite | apply keeps_foldl | apply diDrained_keeps | apply sliceEnter_keeps | apply diEnter_keeps | apply dramPools_keeps) | (intro _; intros; try dsimp only) | simp only [keeps_mk] | split | (split <;> try dsimp only))

theorem addOne_keeps {u0 : State} {s : State} {n : Nat} (h1 : u0.Keeps s) : u0.Keeps (addOne s n) := by
  unfold addOne
  repeat' (first | (with_reducible first | assumption | apply sliceEnter_keeps | apply sliceResult_keeps) | split | (split <;> try dsimp only))

theorem removeOne_keeps {u0 : State} {s : State} {n : Nat} (h1 : u0.Keeps s) : u0.Keeps (removeOne s n) := by
  unfold removeOne
  repeat' (first | (with_reducible first | assumption | apply enterBegin_keeps | apply drainBegin_keeps | apply sliceResult_keeps) | split | (split <;> try dsimp only))

theorem sleepOne_keeps {u0 : State} {s : State} {n : Nat} (h1 : u0.Keeps s) : u0.Keeps (sleepOne s n) := by
  unfold sleepOne
  repeat' (first | (with_reducible first | assumption | apply enterBegin_keeps | apply sliceResult_keeps) | split | (split <;> try dsimp only))

theorem sliceCmd_keeps {u0 : State} {v : Nat} {s : State} (h1 : u0.Keeps s) : u0.Keeps (sliceCmd v s) := by
  unfold sliceCmd
  repeat' (first | (with_reducible first | assumption | apply keeps_ite | apply keeps_foldl | apply removeOne_keeps | apply addOne_keeps | apply sleepOne_keeps | apply pwfTarget_keeps) | split | (split <;> try dsimp only))

theorem sliceAdd_keeps {u0 : State} {s : State} (h1 : u0.Keeps s) : u0.Keeps (sliceAdd s) := by
  unfold sliceAdd
  repeat' (first | (with_reducible first | assumption | apply sliceCmd_keeps) | (intro _; intros; try dsimp only) | simp only [keeps_mk, keeps_mk_scr, keeps_mk_tab, keeps_mk_scr_tab, keeps_mk_otp] | split | (split <;> try dsimp only))

theorem sliceRemove_keeps {u0 : State} {s : State} (h1 : u0.Keeps s) : u0.Keeps (sliceRemove s) := by
  unfold sliceRemove
  repeat' (first | (with_reducible first | assumption | apply sliceCmd_keeps) | (intro _; intros; try dsimp only) | simp only [keeps_mk, keeps_mk_scr, keeps_mk_tab, keeps_mk_scr_tab, keeps_mk_otp] | split | (split <;> try dsimp only))

theorem sliceSleep_keeps {u0 : State} {s : State} (h1 : u0.Keeps s) : u0.Keeps (sliceSleep s) := by
  unfold sliceSleep
  repeat' (first | (with_reducible first | assumption | apply sliceCmd_keeps) | (intro _; intros; try dsimp only) | simp only [keeps_mk, keeps_mk_scr, keeps_mk_tab, keeps_mk_scr_tab, keeps_mk_otp] | split | (split <;> try dsimp only))

theorem drainEnd_keeps {u0 : State} {n : Fin 40} {limit : Bool} {s : State} (h1 : u0.Keeps s) : u0.Keeps (drainEnd n limit s) := by
  unfold drainEnd
  dsimp only
  repeat' (first | (with_reducible first | assumption | apply keeps_ite | apply enterBegin_keeps | apply sliceResult_keeps) | (intro _; intros; try dsimp only) | simp only [keeps_mk, keeps_mk_scr, keeps_mk_tab, keeps_mk_scr_tab, keeps_mk_otp] | split | (split <;> try dsimp only))

theorem maintWithdraw_keeps {u0 : State} {s : State} {n : Nat} (h1 : u0.Keeps s) : u0.Keeps (maintWithdraw s n) := by
  unfold maintWithdraw
  dsimp only
  repeat' (first | with_reducible assumption | simp only [keeps_mk] | split | (split <;> try dsimp only))

theorem lineLose_keeps {u0 : State} {s : State} {n : Nat} (h1 : u0.Keeps s) : u0.Keeps (lineLose s n) := by
  unfold lineLose
  dsimp only
  repeat' (first | (with_reducible first | assumption | apply keeps_foldl | apply scanStat_keeps | apply setF_keeps | apply bumpN_keeps | apply fragEmpty_keeps | apply setB_keeps | apply levelOff_keeps | apply recircPut_keeps | apply hallPut_keeps) | (intro _; intros; try dsimp only) | simp only [keeps_mk] | split | (split <;> try dsimp only))

theorem enteringDone_keeps {u0 : State} {n : Fin 40} {s : State} (h1 : u0.Keeps s) : u0.Keeps (enteringDone n s) := by
  unfold enteringDone
  dsimp only
  repeat' (first | (with_reducible first | assumption | apply keeps_ite | apply settle_keeps | apply sliceEnter_keeps | apply maintWithdraw_keeps | apply synceSquelch_keeps | apply lineLose_keeps) | (intro _; intros; try dsimp only) | simp only [keeps_mk, keeps_mk_scr, keeps_mk_tab, keeps_mk_scr_tab, keeps_mk_otp] | split | (split <;> try dsimp only))

theorem wakeDone_keeps {u0 : State} {n : Fin 40} {s : State} (h1 : u0.Keeps s) : u0.Keeps (wakeDone n s) := by
  unfold wakeDone
  dsimp only
  repeat' (first | (with_reducible first | assumption | apply keeps_ite | apply keeps_foldl | apply sliceEnter_keeps | apply diEnter_keeps | apply levelOff_keeps | apply diTrain_keeps) | (intro _; intros; try dsimp only) | simp only [keeps_mk] | split | (split <;> try dsimp only))

theorem sweepRecorded_keeps {u0 : State} {s : State} {n : Nat} (h1 : u0.Keeps s) : u0.Keeps (sweepRecorded s n) := by
  unfold sweepRecorded
  dsimp only
  repeat' (first | (with_reducible first | assumption | apply keeps_foldl | apply flushDrop_keeps) | simp only [keeps_mk] | split | (split <;> try dsimp only))

theorem join_keeps {u0 : State} {n : Fin 40} {s : State} (h1 : u0.Keeps s) : u0.Keeps (join n s) := by
  unfold join
  dsimp only
  repeat' (first | (with_reducible first | assumption | apply keeps_ite | apply sliceEnter_keeps | apply dramPools_keeps | apply settle_keeps | apply sweepRecorded_keeps) | (intro _; intros; try dsimp only) | simp only [keeps_mk, keeps_mk_scr, keeps_mk_tab, keeps_mk_scr_tab, keeps_mk_otp] | split | (split <;> try dsimp only))

end Sys2Proof.Machine
end

