-- ==== Sys2Proof/Laws/KeepsClocks.lean ====
section
/-! SUPPORT. What the operations of Machine/Clocks.lean keep: the queue of commands, the identity of the part, canonical stores. -/

namespace Sys2Proof.Machine

theorem holdLo_keeps {u0 : State} {s : State} {f addr v : Nat} (h1 : u0.Keeps s) : u0.Keeps (holdLo s f addr v) := by
  unfold holdLo
  repeat' (first | with_reducible assumption | simp only [keeps_mk] | split | (split <;> try dsimp only))

theorem dropLo_keeps {u0 : State} {s : State} {f lo : Nat} (h1 : u0.Keeps s) : u0.Keeps (dropLo s f lo) := by
  unfold dropLo
  repeat' (first | with_reducible assumption | simp only [keeps_mk] | split | (split <;> try dsimp only))

theorem writeRw_keeps {u0 : State} {s : State} {a v m : Nat} (h1 : u0.Keeps s) : u0.Keeps (writeRw s a v m) := by
  unfold writeRw
  repeat' (first | (with_reducible first | assumption | apply wr_keeps) | (intro _; intros; try dsimp only) | simp only [keeps_mk, keeps_mk_scr, keeps_mk_tab, keeps_mk_scr_tab, keeps_mk_otp] | split | (split <;> try dsimp only))

theorem commitHi_keeps {u0 : State} {s : State} {f lo mlo hi mhi v : Nat} (h1 : u0.Keeps s) : u0.Keeps (commitHi s f lo mlo hi mhi v) := by
  unfold commitHi
  repeat' (first | (with_reducible first | assumption | apply dropLo_keeps | apply writeRw_keeps) | (intro _; intros; try dsimp only) | simp only [keeps_mk, keeps_mk_scr, keeps_mk_tab, keeps_mk_scr_tab, keeps_mk_otp] | split | (split <;> try dsimp only))

theorem pllStart_keeps {u0 : State} {s : State} {ps : List Nat} (h1 : u0.Keeps s) : u0.Keeps (pllStart s ps) := by
  unfold pllStart
  dsimp only
  repeat' (first | with_reducible assumption | simp only [keeps_mk] | split | (split <;> try dsimp only))

theorem pllSettled_keeps {u0 : State} {s : State} {p : Nat} (h1 : u0.Keeps s) : u0.Keeps (pllSettled s p) := by
  unfold pllSettled
  dsimp only
  repeat' (first | with_reducible assumption | simp only [keeps_mk] | split | (split <;> try dsimp only))

theorem pllLocked_keeps {u0 : State} {p : Fin 25} {s : State} (h1 : u0.Keeps s) : u0.Keeps (pllLocked p s) := by
  unfold pllLocked
  dsimp only
  repeat' (first | (with_reducible first | assumption | apply keeps_ite | apply rampStart_keeps | apply setB_keeps | apply levelOff_keeps | apply pllSettled_keeps | apply pllLoss_keeps) | (intro _; intros; try dsimp only) | simp only [keeps_mk, keeps_mk_scr, keeps_mk_tab, keeps_mk_scr_tab, keeps_mk_otp] | split | (split <;> try dsimp only))

theorem rootPllLockTimeout_keeps {u0 : State} {s : State} (h1 : u0.Keeps s) : u0.Keeps (rootPllLockTimeout s) := by
  unfold rootPllLockTimeout
  repeat' (first | (with_reducible first | assumption | apply keeps_ite | apply enterHold_keeps | apply settle_keeps) | (intro _; intros; try dsimp only) | simp only [keeps_mk, keeps_mk_scr, keeps_mk_tab, keeps_mk_scr_tab, keeps_mk_otp] | split | (split <;> try dsimp only))

theorem galLaneOut_keeps {u0 : State} {s : State} {l : Nat} (h1 : u0.Keeps s) : u0.Keeps (galLaneOut s l) := by
  unfold galLaneOut
  dsimp only
  repeat' (first | (with_reducible first | assumption | apply keeps_ite | apply levelMore_keeps) | simp only [keeps_mk] | split | (split <;> try dsimp only))

theorem lineLaneOut_keeps {u0 : State} {s : State} {g l : Nat} (h1 : u0.Keeps s) : u0.Keeps (lineLaneOut s g l) := by
  unfold lineLaneOut
  repeat' (first | (with_reducible first | assumption | apply keeps_ite | apply setF_keeps | apply levelMore_keeps) | (intro _; intros; try dsimp only) | simp only [keeps_mk, keeps_mk_scr, keeps_mk_tab, keeps_mk_scr_tab, keeps_mk_otp] | split | (split <;> try dsimp only))

theorem fabLaneOut_keeps {u0 : State} {s : State} {g l : Nat} (h1 : u0.Keeps s) : u0.Keeps (fabLaneOut s g l) := by
  unfold fabLaneOut
  repeat' (first | (with_reducible first | assumption | apply keeps_ite | apply levelMore_keeps | apply setB_keeps) | (intro _; intros; try dsimp only) | simp only [keeps_mk, keeps_mk_scr, keeps_mk_tab, keeps_mk_scr_tab, keeps_mk_otp] | split | (split <;> try dsimp only))

theorem diTrainOut_keeps {u0 : State} {s : State} {i : Nat} (h1 : u0.Keeps s) : u0.Keeps (diTrainOut s i) := by
  unfold diTrainOut
  repeat' (first | (with_reducible first | assumption | apply keeps_ite | apply diEnter_keeps | apply levelMore_keeps) | (intro _; intros; try dsimp only) | simp only [keeps_mk, keeps_mk_scr, keeps_mk_tab, keeps_mk_scr_tab, keeps_mk_otp] | split | (split <;> try dsimp only))

theorem pllLockFail_keeps {u0 : State} {p : Fin 25} {s : State} (h1 : u0.Keeps s) : u0.Keeps (pllLockFail p s) := by
  unfold pllLockFail
  dsimp only
  repeat' (first | (with_reducible first | assumption | apply keeps_ite | apply keeps_foldl | apply galFollow_keeps | apply levelOn_keeps | apply galLaneOut_keeps | apply lineLaneOut_keeps | apply settle_keeps | apply diTrainOut_keeps | apply dramPools_keeps | apply synceSquelch_keeps | apply pllSettled_keeps | apply fabLaneOut_keeps) | (intro _; intros; try dsimp only) | simp only [keeps_mk, keeps_mk_scr, keeps_mk_tab, keeps_mk_scr_tab, keeps_mk_otp] | split | (split <;> try dsimp only))

theorem relockOver_keeps {u0 : State} {s : State} {r : Nat} (h1 : u0.Keeps s) : u0.Keeps (relockOver s r) := by
  unfold relockOver
  repeat' (first | (with_reducible first | assumption | apply keeps_ite | apply setB_keeps) | (intro _; intros; try dsimp only) | simp only [keeps_mk, keeps_mk_scr, keeps_mk_tab, keeps_mk_scr_tab, keeps_mk_otp] | split | (split <;> try dsimp only))

theorem rampStep_keeps {u0 : State} {s : State} (h1 : u0.Keeps s) : u0.Keeps (rampStep s) := by
  unfold rampStep
  repeat' (first | (with_reducible first | assumption | apply keeps_foldl | apply relockOver_keeps | apply rampOne_keeps) | (intro _; intros; try dsimp only) | simp only [keeps_mk, keeps_mk_scr, keeps_mk_tab, keeps_mk_scr_tab, keeps_mk_otp] | split | (split <;> try dsimp only))

theorem relockBegin_keeps {u0 : State} {s : State} {r : Nat} (h1 : u0.Keeps s) : u0.Keeps (relockBegin s r) := by
  unfold relockBegin
  dsimp only
  repeat' (first | (with_reducible first | assumption | apply bump_keeps | apply rampStart_keeps | apply setB_keeps) | simp only [keeps_mk] | split | (split <;> try dsimp only))

theorem relockRelease_keeps {u0 : State} {s : State} (h1 : u0.Keeps s) : u0.Keeps (relockRelease s) := by
  unfold relockRelease
  repeat' (first | (with_reducible first | assumption | apply keeps_ite | apply keeps_foldl | apply relockBegin_keeps) | (intro _; intros; try dsimp only) | simp only [keeps_mk, keeps_mk_scr, keeps_mk_tab, keeps_mk_scr_tab, keeps_mk_otp] | split | (split <;> try dsimp only))

theorem clkCtl_keeps {u0 : State} {v : Nat} {s : State} (h1 : u0.Keeps s) : u0.Keeps (clkCtl v s) := by
  unfold clkCtl
  dsimp only
  repeat' (first | (with_reducible first | assumption | apply keeps_ite | apply keeps_foldl | apply relockBegin_keeps | apply operWrite_keeps | apply pwfTarget_keeps) | (intro _; intros; try dsimp only) | simp only [keeps_mk, keeps_mk_scr, keeps_mk_tab, keeps_mk_scr_tab, keeps_mk_otp] | split | (split <;> try dsimp only))

theorem rootRelockDone_keeps {u0 : State} {r : Fin 2} {ok : Bool} {s : State} (h1 : u0.Keeps s) : u0.Keeps (rootRelockDone r ok s) := by
  unfold rootRelockDone
  dsimp only
  repeat' (first | (with_reducible first | assumption | apply keeps_ite | apply bump_keeps | apply rampStart_keeps | apply setB_keeps | apply levelOff_keeps) | simp only [keeps_mk] | split | (split <;> try dsimp only))

theorem refLost_keeps {u0 : State} {s : State} {r : Nat} (h1 : u0.Keeps s) : u0.Keeps (refLost s r) := by
  unfold refLost
  dsimp only
  repeat' (first | (with_reducible first | assumption | apply keeps_ite | apply bump_keeps | apply levelOn_keeps | apply setB_keeps) | (intro _; intros; try dsimp only) | simp only [keeps_mk, keeps_mk_scr, keeps_mk_tab, keeps_mk_scr_tab, keeps_mk_otp] | split | (split <;> try dsimp only))

theorem refClockLoss_keeps {u0 : State} {r : Fin 4} {s : State} (h1 : u0.Keeps s) : u0.Keeps (refClockLoss r s) := by
  unfold refClockLoss
  dsimp only
  repeat' (first | (with_reducible first | assumption | apply keeps_ite | apply setB_keeps | apply refLost_keeps) | (intro _; intros; try dsimp only) | simp only [keeps_mk, keeps_mk_scr, keeps_mk_tab, keeps_mk_scr_tab, keeps_mk_otp] | split | (split <;> try dsimp only))

theorem refClockReturn_keeps {u0 : State} {r : Fin 4} {s : State} (h1 : u0.Keeps s) : u0.Keeps (refClockReturn r s) := by
  unfold refClockReturn
  dsimp only
  repeat' (first | (with_reducible first | assumption | apply keeps_ite | apply levelOff_keeps | apply setB_keeps) | (intro _; intros; try dsimp only) | simp only [keeps_mk, keeps_mk_scr, keeps_mk_tab, keeps_mk_scr_tab, keeps_mk_otp] | split | (split <;> try dsimp only))

theorem pllLoss_keeps {u0 : State} {p : Fin 25} {s : State} (h1 : u0.Keeps s) : u0.Keeps (pllLoss p s) := by
  unfold pllLoss
  dsimp only
  repeat' (first | (with_reducible first | assumption | apply keeps_ite | apply bump_keeps | apply levelOn_keeps | apply pllStart_keeps | apply setB_keeps | apply relockRelease_keeps) | simp only [keeps_mk] | split | (split <;> try dsimp only))

theorem waitShow_keeps {u0 : State} {s : State} (h1 : u0.Keeps s) : u0.Keeps (waitShow s) := by
  unfold waitShow
  repeat' (first | (with_reducible first | assumption | apply setB_keeps) | (intro _; intros; try dsimp only) | simp only [keeps_mk, keeps_mk_scr, keeps_mk_tab, keeps_mk_scr_tab, keeps_mk_otp] | split | (split <;> try dsimp only))

theorem clkFreqAlarm_keeps {u0 : State} {r : Fin 3} {offset : Nat} {s : State} (h1 : u0.Keeps s) : u0.Keeps (clkFreqAlarm r offset s) := by
  unfold clkFreqAlarm
  dsimp only
  repeat' (first | (with_reducible first | assumption | apply keeps_ite | apply setF_keeps | apply levelOn_keeps | apply setB_keeps | apply bumpIf_keeps | apply levelOff_keeps) | (intro _; intros; try dsimp only) | simp only [keeps_mk, keeps_mk_scr, keeps_mk_tab, keeps_mk_scr_tab, keeps_mk_otp] | split | (split <;> try dsimp only))

theorem ppsInLoss_keeps {u0 : State} {s : State} (h1 : u0.Keeps s) : u0.Keeps (ppsInLoss s) := by
  unfold ppsInLoss
  repeat' (first | (with_reducible first | assumption | apply keeps_ite | apply refLost_keeps | apply setB_keeps) | (intro _; intros; try dsimp only) | simp only [keeps_mk, keeps_mk_scr, keeps_mk_tab, keeps_mk_scr_tab, keeps_mk_otp] | split | (split <;> try dsimp only))

theorem cd38Loss_keeps {u0 : State} {s : State} (h1 : u0.Keeps s) : u0.Keeps (cd38Loss s) := by
  unfold cd38Loss
  dsimp only
  repeat' (first | with_reducible assumption | simp only [keeps_mk] | split | (split <;> try dsimp only))

theorem timIncrCommit_keeps {u0 : State} {v : Nat} {s : State} (h1 : u0.Keeps s) : u0.Keeps (timIncrCommit v s) := by
  unfold timIncrCommit
  repeat' (first | (with_reducible first | assumption | apply operWrite_keeps | apply commitHi_keeps) | (intro _; intros; try dsimp only) | simp only [keeps_mk, keeps_mk_scr, keeps_mk_tab, keeps_mk_scr_tab, keeps_mk_otp] | split | (split <;> try dsimp only))

theorem ppsOutEdge_keeps {u0 : State} {rise : Bool} {s : State} (h1 : u0.Keeps s) : u0.Keeps (ppsOutEdge rise s) := by
  unfold ppsOutEdge
  dsimp only
  repeat' (first | with_reducible assumption | simp only [keeps_mk] | split | (split <;> try dsimp only))

theorem ppsInEdge_keeps {u0 : State} {falling : Bool} {s : State} (h1 : u0.Keeps s) : u0.Keeps (ppsInEdge falling s) := by
  unfold ppsInEdge
  dsimp only
  repeat' (first | (with_reducible first | assumption | apply keeps_ite | apply setF_keeps | apply bump_keeps | apply setB_keeps | apply bumpIf_keeps | apply levelOff_keeps) | (intro _; intros; try dsimp only) | simp only [keeps_mk, keeps_mk_scr, keeps_mk_tab, keeps_mk_scr_tab, keeps_mk_otp] | split | (split <;> try dsimp only))

theorem clkoutConfig_keeps {u0 : State} {v : Nat} {s : State} (h1 : u0.Keeps s) : u0.Keeps (clkoutConfig v s) := by
  unfold clkoutConfig
  repeat' (first | (with_reducible first | assumption | apply operWrite_keeps | apply writeRw_keeps) | (intro _; intros; try dsimp only) | simp only [keeps_mk, keeps_mk_scr, keeps_mk_tab, keeps_mk_scr_tab, keeps_mk_otp] | split | (split <;> try dsimp only))

end Sys2Proof.Machine
end

