-- ==== Sys2Proof/Laws/KeepsImage.lean ====
section
/-! SUPPORT. What the operations of Machine/Image.lean keep: the queue of commands, the identity of the part, canonical stores. -/

namespace Sys2Proof.Machine

theorem unsealable_keeps {u0 : State} {s : State} {status : Nat} (h1 : u0.Keeps s) : u0.Keeps (unsealable s status).s := by
  unfold unsealable
  dsimp only
  repeat' (first | (with_reducible first | assumption | apply keeps_ite | apply keeps_foldl | apply keeps_foldl_snd | apply keeps_foldl_fst) | (intro _; intros; try dsimp only) | simp only [keeps_mk, keeps_mk_scr, keeps_mk_tab, keeps_mk_scr_tab, keeps_mk_otp] | split | (split <;> try dsimp only))

theorem recWrite_keeps {u0 : State} {s : State} {a mask v : Nat} (h1 : u0.Keeps s) : u0.Keeps (recWrite s a mask v).s := by
  unfold recWrite
  dsimp only
  repeat' (first | (with_reducible first | assumption | apply keeps_ite | apply unsealable_keeps | apply wr_keeps) | simp only [keeps_mk] | split | (split <;> try dsimp only))

theorem recWhole_keeps {u0 : State} {s : State} {a v : Nat} (h1 : u0.Keeps s) : u0.Keeps (recWhole s a v).s := by
  unfold recWhole
  repeat' (first | (with_reducible first | assumption | apply unsealable_keeps | apply recWrite_keeps) | split | (split <;> try dsimp only))

theorem recAll_keeps {u0 : State} {f : State → Nat → RecOut} {y1 : State} {y2 : List Nat} (h1 : u0.Keeps y1) (c_f : ∀ z0 z1, u0.Keeps z0 → u0.Keeps (f z0 z1).s) : u0.Keeps (recAll f y1 y2).s := by
  induction y2 generalizing y1 with
  | nil =>
    unfold recAll
    dsimp only
    repeat' (first | (with_reducible first | assumption | apply ih | apply keeps_ite | apply keeps_foldl | apply keeps_foldl_snd | apply keeps_foldl_fst | apply c_f) | (intro _; intros; try dsimp only) | simp only [keeps_mk, keeps_mk_scr, keeps_mk_tab, keeps_mk_scr_tab, keeps_mk_otp] | split | (split <;> try dsimp only))
  | cons _ _ ih =>
    unfold recAll
    dsimp only
    repeat' (first | (with_reducible first | assumption | apply ih | apply c_f) | split | (split <;> try dsimp only))

theorem preloaded_keeps {u0 : State} {e : Eng} (h1 : u0.Keeps e.s) : u0.Keeps (preloaded e).s := by
  unfold preloaded
  repeat' (first | (with_reducible first | assumption | apply unsealable_keeps) | split | (split <;> try dsimp only))

theorem recEntry_keeps {u0 : State} {s : State} {t i v : Nat} (h1 : u0.Keeps s) : u0.Keeps (recEntry s t i v).s := by
  unfold recEntry
  repeat' (first | (with_reducible first | assumption | apply tabPut_keeps | apply unsealable_keeps | apply preloaded_keeps | apply directWrite_keeps) | split | (split <;> try dsimp only))

theorem recKeyed_keeps {u0 : State} {s : State} {t sub : Nat} {opnd : Bytes} (h1 : u0.Keeps s) : u0.Keeps (recKeyed s t sub opnd).s := by
  unfold recKeyed
  repeat' (first | (with_reducible first | assumption | apply preloaded_keeps | apply writeEng_keeps) | (intro _; intros; try dsimp only) | simp only [keeps_mk, keeps_mk_scr, keeps_mk_tab, keeps_mk_scr_tab, keeps_mk_otp] | split | (split <;> try dsimp only))

theorem recStore_keeps {u0 : State} {s : State} {eng : HostCmd → State → Eng} {opcode : Nat} {opnd : Bytes} (h1 : u0.Keeps s) (c_eng : ∀ z0 z1, u0.Keeps z1 → u0.Keeps (eng z0 z1).s) : u0.Keeps (recStore s eng opcode opnd).s := by
  unfold recStore
  dsimp only
  repeat' (first | (with_reducible first | assumption | apply setF_keeps | apply sigCounts_keeps | apply preloaded_keeps | apply c_eng) | split | (split <;> try dsimp only))

theorem recPattern_keeps {u0 : State} {s : State} {id : Nat} {e : Bytes} (h1 : u0.Keeps s) : u0.Keeps (recPattern s id e).s := by
  unfold recPattern
  dsimp only
  repeat' (first | (with_reducible first | assumption | apply sigWriteEng_keeps | apply sigInvalidateEng_keeps | apply recStore_keeps) | split | (split <;> try dsimp only))

theorem recPreload_keeps {u0 : State} {s : State} {typ : Nat} {b : Bytes} (h1 : u0.Keeps s) : u0.Keeps (recPreload s typ b).s := by
  unfold recPreload
  dsimp only
  repeat' (first | (with_reducible first | assumption | apply unsealable_keeps | apply sigProfileEng_keeps | apply recKeyed_keeps | apply recAll_keeps | apply recStore_keeps | apply recEntry_keeps | apply recPattern_keeps) | (intro _; intros; try dsimp only) | split | (split <;> try dsimp only))

theorem recRegs_keeps {u0 : State} {s : State} {typ : Nat} {b : Bytes} (h1 : u0.Keeps s) : u0.Keeps (recRegs s typ b).s := by
  unfold recRegs
  dsimp only
  repeat' (first | (with_reducible first | assumption | apply unsealable_keeps | apply recWrite_keeps | apply recWhole_keeps | apply recAll_keeps) | (intro _; intros; try dsimp only) | split | (split <;> try dsimp only))

theorem recEnd_keeps {u0 : State} {s : State} {b rest : Bytes} (h1 : u0.Keeps s) : u0.Keeps (recEnd s b rest).s := by
  unfold recEnd
  dsimp only
  repeat' (first | (with_reducible first | assumption | apply unsealable_keeps) | simp only [keeps_mk] | split | (split <;> try dsimp only))

theorem recBody_keeps {u0 : State} {s : State} {typ : Nat} {b rest : Bytes} (h1 : u0.Keeps s) : u0.Keeps (recBody s typ b rest).s := by
  unfold recBody
  dsimp only
  repeat' (first | (with_reducible first | assumption | apply recEnd_keeps | apply unsealable_keeps | apply recPreload_keeps | apply recRegs_keeps) | simp only [keeps_mk] | split | (split <;> try dsimp only))

theorem recStep_keeps {u0 : State} {p : Bytes} {s : State} (h1 : u0.Keeps s) : u0.Keeps (recStep p s).s := by
  unfold recStep
  dsimp only
  repeat' (first | (with_reducible first | assumption | apply unsealable_keeps | apply recBody_keeps) | simp only [keeps_mk] | split | (split <;> try dsimp only))

theorem recRun_keeps {u0 : State} {p : Bytes} {y1 : Nat} {y2 : State} (h1 : u0.Keeps y2) : u0.Keeps (recRun p y1 y2).s := by
  induction y1 generalizing y2 with
  | zero =>
    unfold recRun
    dsimp only
    repeat' (first | (with_reducible first | assumption | apply ih | apply keeps_ite | apply keeps_foldl | apply keeps_foldl_snd | apply keeps_foldl_fst | apply recStep_keeps) | (intro _; intros; try dsimp only) | simp only [keeps_mk, keeps_mk_scr, keeps_mk_tab, keeps_mk_scr_tab, keeps_mk_otp] | split | (split <;> try dsimp only))
  | succ _ ih =>
    unfold recRun
    dsimp only
    repeat' (first | (with_reducible first | assumption | apply ih | apply recStep_keeps) | split | (split <;> try dsimp only))

end Sys2Proof.Machine
end

