-- ==== Sys2Proof/Laws/KeepsPower.lean ====
section
/-! SUPPORT. What the operations of Machine/Power.lean keep: the queue of commands, the identity of the part, canonical stores. -/

namespace Sys2Proof.Machine

/-- The life cycle is resolved without a change to anything else that OTP holds. -/
theorem resolveLc_grows (o : Otp) : o.Grows (resolveLc o).2.1 := by
  unfold resolveLc
  dsimp only
  split
  · exact grows_refl o
  · split <;> exact ⟨rfl, rfl, rfl, rfl, rfl, List.prefix_rfl, List.prefix_rfl, fun _ e h r => ⟨e, h, r⟩⟩

theorem resolved_keeps {base s : State} {b : BootSt} (h : base.Keeps s) : base.Keeps { s with otp := (resolveLc s.otp).2.1, boot := b } :=
  keeps_of h rfl (resolveLc_grows s.otp) id

theorem landingSend_keeps {u0 : State} {s : State} {typ body : Nat} (h1 : u0.Keeps s) : u0.Keeps (landingSend s typ body) := by
  unfold landingSend
  dsimp only
  repeat' (first | with_reducible assumption | simp only [keeps_mk] | split | (split <;> try dsimp only))

theorem landingFault_keeps {u0 : State} {s : State} {src slice die : Nat} (h1 : u0.Keeps s) : u0.Keeps (landingFault s src slice die) := by
  unfold landingFault
  dsimp only
  repeat' (first | (with_reducible first | assumption | apply landingSend_keeps) | simp only [keeps_mk] | split | (split <;> try dsimp only))

theorem unpowered_keeps {u0 : State} {s : State} {t : TopState} (h1 : u0.Keeps s) : u0.Keeps (unpowered s t) := by
  unfold unpowered
  dsimp only
  exact keeps_of h1 rfl (grows_refl _) (fun _ => ⟨rfl, rfl, rfl⟩)

theorem resolveInReset_keeps {u0 : State} {s : State} (h1 : u0.Keeps s) : u0.Keeps (resolveInReset s) := by
  unfold resolveInReset
  dsimp only
  exact setB_keeps (setB_keeps (resolved_keeps h1))

theorem resetEnter_keeps {u0 : State} {cause : Nat} {s : State} (h1 : u0.Keeps s) : u0.Keeps (resetEnter cause s) := by
  unfold resetEnter
  dsimp only
  refine resolveInReset_keeps (setB_keeps (setF_keeps ?_))
  exact keeps_of h1 rfl (grows_refl _) (fun c => ⟨mwf_filter _ _ _ c.1, rfl, rfl⟩)

theorem vinGood_keeps {u0 : State} {lost : List Nat} {s : State} (h1 : u0.Keeps s) : u0.Keeps (vinGood lost s) := by
  unfold vinGood
  dsimp only
  repeat' (first | (with_reducible first | assumption | apply keeps_ite | apply setF_keeps | apply resolveInReset_keeps | apply unpowered_keeps) | simp only [keeps_mk] | split | (split <;> try dsimp only))

theorem vinFail_keeps {u0 : State} {s : State} (h1 : u0.Keeps s) : u0.Keeps (vinFail s) := by
  unfold vinFail
  repeat' (first | (with_reducible first | assumption | apply unpowered_keeps) | (intro _; intros; try dsimp only) | simp only [keeps_mk, keeps_mk_scr, keeps_mk_tab, keeps_mk_scr_tab, keeps_mk_otp] | split | (split <;> try dsimp only))

theorem vinDip_keeps {u0 : State} {s : State} (h1 : u0.Keeps s) : u0.Keeps (vinDip s) := by
  unfold vinDip
  repeat' (first | (with_reducible first | assumption | apply bumpIf_keeps) | (intro _; intros; try dsimp only) | simp only [keeps_mk, keeps_mk_scr, keeps_mk_tab, keeps_mk_scr_tab, keeps_mk_otp] | split | (split <;> try dsimp only))

theorem vinWarn_keeps {u0 : State} {s : State} (h1 : u0.Keeps s) : u0.Keeps (vinWarn s) := by
  unfold vinWarn
  repeat' (first | (with_reducible first | assumption | apply keeps_ite | apply bump_keeps | apply levelOn_keeps | apply setB_keeps) | (intro _; intros; try dsimp only) | simp only [keeps_mk, keeps_mk_scr, keeps_mk_tab, keeps_mk_scr_tab, keeps_mk_otp] | split | (split <;> try dsimp only))

theorem resetLLow_keeps {u0 : State} {s : State} (h1 : u0.Keeps s) : u0.Keeps (resetLLow s) := by
  unfold resetLLow
  dsimp only
  repeat' (first | (with_reducible first | assumption | apply keeps_ite | apply resetEnter_keeps) | simp only [keeps_mk] | split | (split <;> try dsimp only))

theorem levelBits_keeps {u0 : State} {s : State} (h1 : u0.Keeps s) : u0.Keeps (levelBits s) := by
  unfold levelBits
  dsimp only
  repeat' (first | (with_reducible first | assumption | apply keeps_foldl | apply setB_keeps) | (intro _; intros; try dsimp only) | simp only [keeps_mk, keeps_mk_scr, keeps_mk_tab, keeps_mk_scr_tab, keeps_mk_otp] | split | (split <;> try dsimp only))

theorem vbatAtStart_keeps {u0 : State} {mv : Nat} {s : State} (h1 : u0.Keeps s) : u0.Keeps (vbatAtStart mv s) := by
  unfold vbatAtStart
  dsimp only
  repeat' (first | (with_reducible first | assumption | apply keeps_ite | apply setF_keeps | apply setB_keeps | apply wrWords_keeps) | simp only [keeps_mk] | split | (split <;> try dsimp only))

theorem resetExit_keeps {u0 : State} {testmode : Bool} {vbatMv : Nat} {rcal : List Nat} {s : State} (h1 : u0.Keeps s) : u0.Keeps (resetExit testmode vbatMv rcal s) := by
  unfold resetExit
  dsimp only
  repeat' (first | (with_reducible first | assumption | apply keeps_ite | apply keeps_foldl | apply vbatAtStart_keeps | apply enterHold_keeps | apply levelBits_keeps | apply report_keeps | apply enterTop_keeps | apply setB_keeps) | (intro _; intros; try dsimp only) | simp only [keeps_mk] | split | (split <;> try dsimp only))

theorem railOut_keeps {u0 : State} {k : Fin 7} {die : Fin 2} {slice : Fin 64} {s : State} (h1 : u0.Keeps s) : u0.Keeps (railOut k die slice s) := by
  unfold railOut
  dsimp only
  repeat' (first | (with_reducible first | assumption | apply keeps_ite | apply setF_keeps | apply bump_keeps | apply levelOn_keeps) | simp only [keeps_mk] | split | (split <;> try dsimp only))

theorem railRecover_keeps {u0 : State} {s : State} (h1 : u0.Keeps s) : u0.Keeps (railRecover s) := by
  unfold railRecover
  dsimp only
  repeat' (first | (with_reducible first | assumption | apply keeps_ite | apply keeps_foldl | apply levelOff_keeps) | (intro _; intros; try dsimp only) | simp only [keeps_mk] | split | (split <;> try dsimp only))

theorem vio18Overload_keeps {u0 : State} {s : State} (h1 : u0.Keeps s) : u0.Keeps (vio18Overload s) := by
  unfold vio18Overload
  repeat' (first | (with_reducible first | assumption | apply keeps_ite | apply bump_keeps | apply levelOn_keeps | apply setB_keeps) | (intro _; intros; try dsimp only) | simp only [keeps_mk, keeps_mk_scr, keeps_mk_tab, keeps_mk_scr_tab, keeps_mk_otp] | split | (split <;> try dsimp only))

theorem vio18Recover_keeps {u0 : State} {s : State} (h1 : u0.Keeps s) : u0.Keeps (vio18Recover s) := by
  unfold vio18Recover
  repeat' (first | (with_reducible first | assumption | apply levelOff_keeps | apply setB_keeps) | (intro _; intros; try dsimp only) | simp only [keeps_mk, keeps_mk_scr, keeps_mk_tab, keeps_mk_scr_tab, keeps_mk_otp] | split | (split <;> try dsimp only))

theorem vbatLow_keeps {u0 : State} {low : Bool} {s : State} (h1 : u0.Keeps s) : u0.Keeps (vbatLow low s) := by
  unfold vbatLow
  repeat' (first | (with_reducible first | assumption | apply keeps_ite | apply levelIs_keeps | apply setB_keeps) | (intro _; intros; try dsimp only) | simp only [keeps_mk, keeps_mk_scr, keeps_mk_tab, keeps_mk_scr_tab, keeps_mk_otp] | split | (split <;> try dsimp only))

theorem vbatCollapse_keeps {u0 : State} {s : State} (h1 : u0.Keeps s) : u0.Keeps (vbatCollapse s) := by
  unfold vbatCollapse
  dsimp only
  repeat' (first | with_reducible assumption | simp only [keeps_mk] | split | (split <;> try dsimp only))

theorem holdoverWrite_keeps {u0 : State} {s : State} (h1 : u0.Keeps s) : u0.Keeps (holdoverWrite s) := by
  unfold holdoverWrite
  dsimp only
  repeat' (first | (with_reducible first | assumption | apply keeps_ite) | simp only [keeps_mk] | split | (split <;> try dsimp only))

theorem clrRec_keeps {u0 : State} {s : State} (h1 : u0.Keeps s) : u0.Keeps (clrRec s) := by
  unfold clrRec
  dsimp only
  repeat' (first | (with_reducible first | assumption | apply operWrite_keeps) | (intro _; intros; try dsimp only) | simp only [keeps_mk] | split | (split <;> try dsimp only))

theorem tempFollow_keeps {u0 : State} {s : State} {src k c hyst : Nat} {now seen : Fld} {t : Int} {n : Nat} (h1 : u0.Keeps s) : u0.Keeps (tempFollow s src k c hyst now seen t n) := by
  unfold tempFollow
  dsimp only
  repeat' (first | (with_reducible first | assumption | apply keeps_ite | apply bump_keeps | apply setB_keeps | apply levelIs_keeps) | (intro _; intros; try dsimp only) | simp only [keeps_mk, keeps_mk_scr, keeps_mk_tab, keeps_mk_scr_tab, keeps_mk_otp] | split | (split <;> try dsimp only))

theorem thermalTrip_keeps {u0 : State} {s : State} {n : Nat} (h1 : u0.Keeps s) : u0.Keeps (thermalTrip s n) := by
  unfold thermalTrip
  dsimp only
  repeat' (first | (with_reducible first | assumption | apply keeps_ite | apply setF_keeps | apply satBump_keeps | apply resetEnter_keeps | apply vbatCopy_keeps | apply landingFault_keeps) | simp only [keeps_mk] | split | (split <;> try dsimp only))

theorem tempSensorRead_keeps {u0 : State} {temps : List Nat} {s : State} (h1 : u0.Keeps s) : u0.Keeps (tempSensorRead temps s) := by
  unfold tempSensorRead
  dsimp only
  repeat' (first | (with_reducible first | assumption | apply keeps_ite | apply keeps_foldl | apply setF_keeps | apply setB_keeps | apply thermalTrip_keeps | apply tempFollow_keeps) | (intro _; intros; try dsimp only) | simp only [keeps_mk] | split | (split <;> try dsimp only))

theorem tripRecover_keeps {u0 : State} {s : State} (h1 : u0.Keeps s) : u0.Keeps (tripRecover s) := by
  unfold tripRecover
  dsimp only
  repeat' (first | (with_reducible first | assumption | apply keeps_ite) | simp only [keeps_mk] | split | (split <;> try dsimp only))

theorem telemetryUpdate_keeps {u0 : State} {vin iin pin vbat vio : Nat} {grp die : List Nat} {s : State} (h1 : u0.Keeps s) : u0.Keeps (telemetryUpdate vin iin pin vbat vio grp die s) := by
  unfold telemetryUpdate
  dsimp only
  repeat' (first | (with_reducible first | assumption | apply keeps_ite | apply keeps_foldl | apply setF_keeps) | (intro _; intros; try dsimp only) | simp only [keeps_mk, keeps_mk_scr, keeps_mk_tab, keeps_mk_scr_tab, keeps_mk_otp] | split | (split <;> try dsimp only))

end Sys2Proof.Machine
end

