-- ==== Sys2Proof/Laws/KeepsBoot.lean ====
section
/-! SUPPORT. What the operations of Machine/Boot.lean keep: the queue of commands, the identity of the part, canonical stores. -/

namespace Sys2Proof.Machine

/-- A key slot is written with what keeps a revoked one revoked. -/
theorem keySet_grows (o : Otp) (k : Nat) (e : OtpKey) (h : ∀ f, mfind o.keys k = some f → f.revoked = true → e.revoked = true) :
    o.Grows { o with keys := mset o.keys k (some e) } := by
  refine ⟨rfl, rfl, rfl, rfl, rfl, List.prefix_rfl, List.prefix_rfl, ?_⟩
  intro j f hf hr
  dsimp only
  by_cases hj : j = k
  · subst hj
    exact ⟨e, mfind_mset_self o.keys j (some e), h f hf hr⟩
  · exact ⟨f, (mfind_mset_ne o.keys (some e) hj).trans hf, hr⟩

theorem wearShow_keeps {u0 : State} {s : State} (h1 : u0.Keeps s) : u0.Keeps (wearShow s) := by
  unfold wearShow
  repeat' (first | (with_reducible first | assumption | apply levelIs_keeps) | (intro _; intros; try dsimp only) | simp only [keeps_mk, keeps_mk_scr, keeps_mk_tab, keeps_mk_scr_tab, keeps_mk_otp] | split | (split <;> try dsimp only))

theorem persistWrite_keeps {u0 : State} {s : State} {f : Persist → Nat → Persist} (h1 : u0.Keeps s) : u0.Keeps (persistWrite s f) := by
  unfold persistWrite
  dsimp only
  repeat' (first | with_reducible assumption | simp only [keeps_mk] | split | (split <;> try dsimp only))

theorem secondDrop_keeps {u0 : State} {s : State} (h1 : u0.Keeps s) : u0.Keeps (secondDrop s) := by
  unfold secondDrop
  dsimp only
  repeat' (first | with_reducible assumption | simp only [keeps_mk] | split | (split <;> try dsimp only))

theorem wearWrite_keeps {u0 : State} {s : State} {k : Nat} {counts : NMap Nat} (h1 : u0.Keeps s) : u0.Keeps (wearWrite s k counts) := by
  unfold wearWrite
  dsimp only
  repeat' (first | (with_reducible first | assumption | apply persistWrite_keeps) | simp only [keeps_mk] | split | (split <;> try dsimp only))

theorem wearBlocks_keeps {u0 : State} {s : State} {l : List Nat} (h1 : u0.Keeps s) : u0.Keeps (wearBlocks s l) := by
  unfold wearBlocks
  dsimp only
  repeat' (first | (with_reducible first | assumption | apply wearWrite_keeps | apply wearShow_keeps) | (intro _; intros; try dsimp only) | simp only [keeps_mk, keeps_mk_scr, keeps_mk_tab, keeps_mk_scr_tab, keeps_mk_otp] | split | (split <;> try dsimp only))

theorem dirCommit_keeps {u0 : State} {s : State} {d : Directory} (h1 : u0.Keeps s) : u0.Keeps (dirCommit s d) := by
  unfold dirCommit
  dsimp only
  repeat' (first | (with_reducible first | assumption | apply wearBlocks_keeps) | simp only [keeps_mk] | split | (split <;> try dsimp only))

theorem dirWrite_keeps {u0 : State} {s : State} {d : Directory} (h1 : u0.Keeps s) : u0.Keeps (dirWrite s d) := by
  unfold dirWrite
  dsimp only
  repeat' (first | (with_reducible first | assumption | apply keeps_ite | apply dirCommit_keeps) | simp only [keeps_mk] | split | (split <;> try dsimp only))

theorem dirChange_keeps {u0 : State} {s : State} {f : Directory → Directory} (h1 : u0.Keeps s) : u0.Keeps (dirChange s f) := by
  unfold dirChange
  repeat' (first | (with_reducible first | assumption | apply dirWrite_keeps) | split | (split <;> try dsimp only))

theorem vinWarnClear_keeps {u0 : State} {s : State} (h1 : u0.Keeps s) : u0.Keeps (vinWarnClear s) := by
  unfold vinWarnClear
  dsimp only
  repeat' (first | (with_reducible first | assumption | apply keeps_ite | apply setB_keeps | apply levelOff_keeps | apply dirCommit_keeps | apply resetEnter_keeps) | split | (split <;> try dsimp only))

theorem nvlogAppend_keeps {u0 : State} {s : State} (h1 : u0.Keeps s) : u0.Keeps (nvlogAppend s) := by
  unfold nvlogAppend
  dsimp only
  repeat' (first | (with_reducible first | assumption | apply keeps_ite | apply wearBlocks_keeps | apply persistWrite_keeps) | simp only [keeps_mk] | split | (split <;> try dsimp only))

theorem trialLost_keeps {u0 : State} {s : State} {d : Directory} (h1 : u0.Keeps s) : u0.Keeps (trialLost s d) := by
  unfold trialLost
  dsimp only
  repeat' (first | (with_reducible first | assumption | apply report_keeps | apply dirWrite_keeps | apply setB_keeps | apply secondDrop_keeps) | (intro _; intros; try dsimp only) | simp only [keeps_mk, keeps_mk_scr, keeps_mk_tab, keeps_mk_scr_tab, keeps_mk_otp] | split | (split <;> try dsimp only))

theorem trialAtStart_keeps {u0 : State} {s : State} {fw cfg : Image} (h1 : u0.Keeps s) : u0.Keeps (trialAtStart s fw cfg) := by
  unfold trialAtStart
  dsimp only
  repeat' (first | (with_reducible first | assumption | apply keeps_ite | apply dirWrite_keeps | apply trialLost_keeps) | simp only [keeps_mk] | split | (split <;> try dsimp only))

theorem loadBegin_keeps {u0 : State} {s : State} (h1 : u0.Keeps s) : u0.Keeps (loadBegin s) := by
  unfold loadBegin
  dsimp only
  repeat' (first | with_reducible assumption | simp only [keeps_mk] | split | (split <;> try dsimp only))

theorem loadHold_keeps {u0 : State} {s : State} {reason image slot detail : Nat} (h1 : u0.Keeps s) : u0.Keeps (loadHold s reason image slot detail) := by
  unfold loadHold
  dsimp only
  repeat' (first | (with_reducible first | assumption | apply enterHold_keeps | apply settle_keeps) | simp only [keeps_mk] | split | (split <;> try dsimp only))

theorem imageBegin_keeps {u0 : State} {s : State} {typ : Nat} (h1 : u0.Keeps s) : u0.Keeps (imageBegin s typ) := by
  unfold imageBegin
  dsimp only
  repeat' (first | (with_reducible first | assumption | apply setF_keeps | apply setB_keeps) | simp only [keeps_mk] | split | (split <;> try dsimp only))

theorem loadNext_keeps {u0 : State} {s : State} (h1 : u0.Keeps s) : u0.Keeps (loadNext s) := by
  unfold loadNext
  dsimp only
  repeat' (first | (with_reducible first | assumption | apply keeps_ite | apply imageBegin_keeps) | simp only [keeps_mk] | split | (split <;> try dsimp only))

theorem nvmIdAttempt_keeps {u0 : State} {valid octal : Bool} {s : State} (h1 : u0.Keeps s) : u0.Keeps (nvmIdAttempt valid octal s) := by
  unfold nvmIdAttempt
  dsimp only
  repeat' (first | (with_reducible first | assumption | apply keeps_ite | apply loadNext_keeps | apply setB_keeps | apply loadHold_keeps) | simp only [keeps_mk] | split | (split <;> try dsimp only))

theorem readAccepted_keeps {u0 : State} {s : State} {fails : Nat} (h1 : u0.Keeps s) : u0.Keeps (readAccepted s fails) := by
  unfold readAccepted
  repeat' (first | (with_reducible first | assumption | apply keeps_ite | apply report_keeps | apply satBump_keeps) | (intro _; intros; try dsimp only) | simp only [keeps_mk, keeps_mk_scr, keeps_mk_tab, keeps_mk_scr_tab, keeps_mk_otp] | split | (split <;> try dsimp only))

theorem readFailed_keeps {u0 : State} {s : State} {r : Reading} {ended : State → State} (h1 : u0.Keeps s) (c_ended : ∀ z0, u0.Keeps z0 → u0.Keeps (ended z0)) : u0.Keeps (readFailed s r ended) := by
  unfold readFailed
  dsimp only
  repeat' (first | (with_reducible first | assumption | apply keeps_ite | apply c_ended) | simp only [keeps_mk] | split | (split <;> try dsimp only))

theorem dirGave_keeps {u0 : State} {s : State} {k fault : Nat} {d : Option Directory} (h1 : u0.Keeps s) : u0.Keeps (dirGave s k fault d) := by
  unfold dirGave
  dsimp only
  repeat' (first | (with_reducible first | assumption | apply keeps_ite | apply loadNext_keeps | apply wearShow_keeps | apply loadHold_keeps) | simp only [keeps_mk] | split | (split <;> try dsimp only))

theorem dirRead_keeps {u0 : State} {s : State} {r : Reading} {b : Bytes} (h1 : u0.Keeps s) : u0.Keeps (dirRead s r b) := by
  unfold dirRead
  dsimp only
  repeat' (first | (with_reducible first | assumption | apply keeps_ite | apply readAccepted_keeps | apply readFailed_keeps | apply dirGave_keeps) | (intro _; intros; try dsimp only) | simp only [keeps_mk, keeps_mk_scr, keeps_mk_tab, keeps_mk_scr_tab, keeps_mk_otp] | split | (split <;> try dsimp only))

theorem imageRead_keeps {u0 : State} {s : State} {r : Reading} {b : Bytes} (h1 : u0.Keeps s) : u0.Keeps (imageRead s r b) := by
  unfold imageRead
  dsimp only
  repeat' (first | (with_reducible first | assumption | apply keeps_ite | apply loadNext_keeps | apply readAccepted_keeps | apply readFailed_keeps | apply loadHold_keeps) | (intro _; intros; try dsimp only) | simp only [keeps_mk] | split | (split <;> try dsimp only))

theorem imageBlockRead_keeps {u0 : State} {data : Bytes} {s : State} (h1 : u0.Keeps s) : u0.Keeps (imageBlockRead data s) := by
  unfold imageBlockRead
  repeat' (first | (with_reducible first | assumption | apply keeps_ite | apply dirRead_keeps | apply imageRead_keeps) | split | (split <;> try dsimp only))

theorem enterVerify_keeps {u0 : State} {s : State} (h1 : u0.Keeps s) : u0.Keeps (enterVerify s) := by
  unfold enterVerify
  dsimp only
  repeat' (first | (with_reducible first | assumption | apply keeps_ite | apply enterTop_keeps | apply leaveHold_keeps) | simp only [keeps_mk] | split | (split <;> try dsimp only))

theorem loadComplete_keeps {u0 : State} {s : State} (h1 : u0.Keeps s) : u0.Keeps (loadComplete s) := by
  unfold loadComplete
  repeat' (first | (with_reducible first | assumption | apply keeps_ite | apply enterVerify_keeps) | (intro _; intros; try dsimp only) | simp only [keeps_mk, keeps_mk_scr, keeps_mk_tab, keeps_mk_scr_tab, keeps_mk_otp] | split | (split <;> try dsimp only))

theorem showVersions_keeps {u0 : State} {s : State} {fw cfg : Image} (h1 : u0.Keeps s) : u0.Keeps (showVersions s fw cfg) := by
  unfold showVersions
  dsimp only
  repeat' (first | (with_reducible first | assumption | apply setB_keeps | apply wrWords_keeps) | (intro _; intros; try dsimp only) | simp only [keeps_mk, keeps_mk_scr, keeps_mk_tab, keeps_mk_scr_tab, keeps_mk_otp] | split | (split <;> try dsimp only))

theorem enterApply_keeps {u0 : State} {s : State} {fw cfg : Image} (h1 : u0.Keeps s) : u0.Keeps (enterApply s fw cfg) := by
  unfold enterApply
  dsimp only
  repeat' (first | (with_reducible first | assumption | apply enterTop_keeps | apply trialAtStart_keeps) | simp only [keeps_mk] | split | (split <;> try dsimp only))

theorem verifyComplete_keeps {u0 : State} {s : State} (h1 : u0.Keeps s) : u0.Keeps (verifyComplete s) := by
  unfold verifyComplete
  dsimp only
  repeat' (first | (with_reducible first | assumption | apply keeps_ite | apply enterHold_keeps | apply settle_keeps | apply enterApply_keeps | apply showVersions_keeps) | simp only [keeps_mk] | split | (split <;> try dsimp only))

theorem slotProgram_keeps {u0 : State} {s : State} {typ slot : Nat} {x : Image} (h1 : u0.Keeps s) : u0.Keeps (slotProgram s typ slot x) := by
  unfold slotProgram
  dsimp only
  repeat' (first | (with_reducible first | assumption | apply wearBlocks_keeps) | simp only [keeps_mk] | split | (split <;> try dsimp only))

theorem pushSlotProgram_keeps {u0 : State} {nvmOk : Bool} {s : State} (h1 : u0.Keeps s) : u0.Keeps (pushSlotProgram nvmOk s) := by
  unfold pushSlotProgram
  dsimp only
  repeat' (first | (with_reducible first | assumption | apply keeps_ite | apply setF_keeps | apply report_keeps | apply enterApply_keeps | apply wearBlocks_keeps | apply dirChange_keeps | apply setB_keeps | apply slotProgram_keeps) | split | (split <;> try dsimp only))

theorem configRecord_keeps {u0 : State} {s : State} (h1 : u0.Keeps s) : u0.Keeps (configRecord s) := by
  unfold configRecord
  dsimp only
  repeat' (first | (with_reducible first | assumption | apply keeps_ite | apply enterHold_keeps | apply settle_keeps | apply recStep_keeps) | split | (split <;> try dsimp only))

theorem slicesStart_keeps {u0 : State} {s : State} (h1 : u0.Keeps s) : u0.Keeps (slicesStart s) := by
  unfold slicesStart
  dsimp only
  repeat' (first | (with_reducible first | assumption | apply keeps_ite | apply keeps_foldl | apply setF_keeps | apply diEnter_keeps | apply diTrain_keeps) | (intro _; intros; try dsimp only) | simp only [keeps_mk, keeps_mk_scr, keeps_mk_tab, keeps_mk_scr_tab, keeps_mk_otp] | split | (split <;> try dsimp only))

theorem ptpStart_keeps {u0 : State} {s : State} {counted : Nat} (h1 : u0.Keeps s) : u0.Keeps (ptpStart s counted) := by
  unfold ptpStart
  dsimp only
  repeat' (first | (with_reducible first | assumption | apply keeps_ite | apply setF_keeps) | simp only [keeps_mk] | split | (split <;> try dsimp only))

theorem sealUp_keeps {u0 : State} {s : State} {fw cfg : Image} {counted : Nat} (h1 : u0.Keeps s) : u0.Keeps (sealUp s fw cfg counted) := by
  unfold sealUp
  dsimp only
  repeat' (first | (with_reducible first | assumption | apply setF_keeps | apply ptpStart_keeps | apply slicesStart_keeps | apply wearShow_keeps | apply settle_keeps | apply dramPools_keeps | apply enterTop_keeps | apply sigCounts_keeps | apply setB_keeps | apply pllStart_keeps) | simp only [keeps_mk] | split | (split <;> try dsimp only))

theorem applyComplete_keeps {u0 : State} {counted : Nat} {s : State} (h1 : u0.Keeps s) : u0.Keeps (applyComplete counted s) := by
  unfold applyComplete
  repeat' (first | (with_reducible first | assumption | apply keeps_ite | apply enterHold_keeps | apply settle_keeps | apply sealUp_keeps) | split | (split <;> try dsimp only))

theorem bringupComplete_keeps {u0 : State} {s : State} (h1 : u0.Keeps s) : u0.Keeps (bringupComplete s) := by
  unfold bringupComplete
  dsimp only
  repeat' (first | (with_reducible first | assumption | apply keeps_ite | apply setF_keeps | apply settle_keeps | apply enterTop_keeps | apply setB_keeps | apply levelIs_keeps) | simp only [keeps_mk] | split | (split <;> try dsimp only))

theorem unsealAll_keeps {u0 : State} {s : State} (h1 : u0.Keeps s) : u0.Keeps (unsealAll s) := by
  unfold unsealAll
  dsimp only
  exact wearShow_keeps (keeps_of h1 rfl (grows_refl _) (fun c => ⟨mwf_filter _ _ _ c.1, c.2.1, mwf_filter _ _ _ c.2.2⟩))

theorem reread_keeps {u0 : State} {v : Nat} {s : State} (h1 : u0.Keeps s) : u0.Keeps (reread v s) := by
  unfold reread
  dsimp only
  repeat' (first | (with_reducible first | assumption | apply keeps_ite | apply wearShow_keeps | apply settle_keeps | apply setB_keeps | apply pwfTarget_keeps | apply loadBegin_keeps | apply writeRw_keeps | apply leaveHold_keeps | apply unsealAll_keeps) | simp only [keeps_mk] | split | (split <;> try dsimp only))

theorem pushRefused_keeps {u0 : State} {s : State} (h1 : u0.Keeps s) : u0.Keeps (pushRefused s) := by
  unfold pushRefused
  repeat' (first | (with_reducible first | assumption | apply setB_keeps) | (intro _; intros; try dsimp only) | simp only [keeps_mk, keeps_mk_scr, keeps_mk_tab, keeps_mk_scr_tab, keeps_mk_otp] | split | (split <;> try dsimp only))

theorem pushStart_keeps {u0 : State} {v : Nat} {s : State} (h1 : u0.Keeps s) : u0.Keeps (pushStart v s) := by
  unfold pushStart
  dsimp only
  repeat' (first | (with_reducible first | assumption | apply keeps_ite | apply pushRefused_keeps | apply setB_keeps | apply operWrite_keeps | apply writeRw_keeps) | (intro _; intros; try dsimp only) | simp only [keeps_mk] | split | (split <;> try dsimp only))

theorem tokenAct_keeps {u0 : State} {s : State} {x : Image} (h1 : u0.Keeps s) : u0.Keeps (tokenAct s x) := by
  unfold tokenAct
  dsimp only
  repeat' (first | (with_reducible first | assumption | apply pushRefused_keeps | apply setB_keeps) | simp only [keeps_mk_otp] | split | (split <;> try dsimp only))

theorem enrolAct_keeps {u0 : State} {s : State} {x : Image} (h1 : u0.Keeps s) : u0.Keeps (enrolAct s x) := by
  unfold enrolAct
  dsimp only
  refine keeps_ite (setB_keeps (keeps_of h1 rfl (keySet_grows _ _ _ (fun f hf hr => ?_)) id)) (pushRefused_keeps h1)
  simp [hf, hr]

theorem pushAccept_keeps {u0 : State} {s : State} {typ slot : Nat} {program : Bool} {x : Image} (h1 : u0.Keeps s) : u0.Keeps (pushAccept s typ slot program x) := by
  unfold pushAccept
  dsimp only
  repeat' (first | (with_reducible first | assumption | apply keeps_ite | apply enterVerify_keeps | apply settle_keeps | apply setB_keeps | apply loadBegin_keeps | apply unsealAll_keeps) | simp only [keeps_mk] | split | (split <;> try dsimp only))

theorem pushComplete_keeps {u0 : State} {dmaOk : Bool} {data : Bytes} {s : State} (h1 : u0.Keeps s) : u0.Keeps (pushComplete dmaOk data s) := by
  unfold pushComplete
  dsimp only
  repeat' (first | (with_reducible first | assumption | apply keeps_ite | apply enterHold_keeps | apply pushRefused_keeps | apply tokenAct_keeps | apply setB_keeps | apply pushAccept_keeps | apply enrolAct_keeps) | simp only [keeps_mk] | split | (split <;> try dsimp only))

theorem floorFwUp_keeps {u0 : State} {s : State} (h1 : u0.Keeps s) : u0.Keeps (floorFwUp s) := by
  unfold floorFwUp
  dsimp only
  exact keeps_of h1 rfl ⟨rfl, rfl, rfl, rfl, rfl, List.prefix_append _ _, List.prefix_rfl, fun _ e h r => ⟨e, h, r⟩⟩ id

theorem floorCfgUp_keeps {u0 : State} {s : State} (h1 : u0.Keeps s) : u0.Keeps (floorCfgUp s) := by
  unfold floorCfgUp
  dsimp only
  exact keeps_of h1 rfl ⟨rfl, rfl, rfl, rfl, rfl, List.prefix_rfl, List.prefix_append _ _, fun _ e h r => ⟨e, h, r⟩⟩ id

theorem arbCtl_keeps {u0 : State} {v : Nat} {s : State} (h1 : u0.Keeps s) : u0.Keeps (arbCtl v s) := by
  unfold arbCtl
  dsimp only
  repeat' (first | (with_reducible first | assumption | apply keeps_ite | apply floorCfgUp_keeps | apply floorFwUp_keeps | apply operWrite_keeps | apply pwfTarget_keeps) | (intro _; intros; try dsimp only) | simp only [keeps_mk, keeps_mk_scr, keeps_mk_tab, keeps_mk_scr_tab, keeps_mk_otp] | split | (split <;> try dsimp only))

theorem keyRevoke_keeps {u0 : State} {v : Nat} {s : State} (h1 : u0.Keeps s) : u0.Keeps (keyRevoke v s) := by
  unfold keyRevoke
  dsimp only
  refine operWrite_keeps h1 (fun a ha => ?_)
  exact keeps_ite (writeRw_keeps (keeps_of ha rfl (keySet_grows _ _ _ (fun _ _ _ => rfl)) id)) (pwfTarget_keeps ha)

theorem toField_keeps {u0 : State} {v : Nat} {s : State} (h1 : u0.Keeps s) : u0.Keeps (toField v s) := by
  unfold toField
  dsimp only
  repeat' (first | (with_reducible first | assumption | apply keeps_ite | apply operWrite_keeps | apply pwfTarget_keeps) | (intro _; intros; try dsimp only) | simp only [keeps_mk_otp] | split | (split <;> try dsimp only))

end Sys2Proof.Machine
end

