-- ==== Sys2Proof/Laws/KeepsFabRx.lean ====
section
/-! SUPPORT. What the operations of Machine/FabRx.lean keep: the queue of commands, the identity of the part, canonical stores. -/

namespace Sys2Proof.Machine

theorem trailDone_keeps {u0 : State} {s : State} {g l : Nat} {x : RxLane} {t : Bytes} (h1 : u0.Keeps s) : u0.Keeps (trailDone s g l x t).1 := by
  unfold trailDone
  dsimp only
  repeat' (first | (with_reducible first | assumption | apply wrPair_keeps | apply bump_keeps | apply wr_keeps) | split | (split <;> try dsimp only))
theorem trailDone_keeps_of {u0 : State} {s : State} {g l : Nat} {x : RxLane} {t : Bytes} {v0 : State} {v1 : RxLane} (e : trailDone s g l x t = (v0, v1)) (h1 : u0.Keeps s) : u0.Keeps v0 := by
  have h : u0.Keeps (trailDone s g l x t).1 := trailDone_keeps h1 
  rw [e] at h
  exact h

theorem pmFrame_keeps {u0 : State} {s : State} {k : Nat} {errored : Bool} (h1 : u0.Keeps s) : u0.Keeps (pmFrame s k errored) := by
  unfold pmFrame
  dsimp only
  repeat' (first | with_reducible assumption | simp only [keeps_mk] | split | (split <;> try dsimp only))

theorem bkpLevel_keeps {u0 : State} {s : State} {g : Nat} (h1 : u0.Keeps s) : u0.Keeps (bkpLevel s g) := by
  unfold bkpLevel
  repeat' (first | (with_reducible first | assumption | apply levelIs_keeps) | (intro _; intros; try dsimp only) | simp only [keeps_mk, keeps_mk_scr, keeps_mk_tab, keeps_mk_scr_tab, keeps_mk_otp] | split | (split <;> try dsimp only))

theorem bkpReceive_keeps {u0 : State} {s : State} {g : Nat} {b : Bytes} (h1 : u0.Keeps s) : u0.Keeps (bkpReceive s g b) := by
  unfold bkpReceive
  dsimp only
  repeat' (first | (with_reducible first | assumption | apply setF_keeps | apply partnerBad_keeps | apply bkpLevel_keeps) | split | (split <;> try dsimp only))

theorem bkpWatchdog_keeps {u0 : State} {g k : Fin 8} {s : State} (h1 : u0.Keeps s) : u0.Keeps (bkpWatchdog g k s) := by
  unfold bkpWatchdog
  repeat' (first | (with_reducible first | assumption | apply keeps_ite | apply setF_keeps | apply bkpLevel_keeps | apply partnerBad_keeps) | (intro _; intros; try dsimp only) | simp only [keeps_mk, keeps_mk_scr, keeps_mk_tab, keeps_mk_scr_tab, keeps_mk_otp] | split | (split <;> try dsimp only))

theorem srqStore_keeps {u0 : State} {s : State} {g v : Nat} (h1 : u0.Keeps s) : u0.Keeps (srqStore s g v) := by
  unfold srqStore
  repeat' (first | (with_reducible first | assumption | apply wr_keeps) | (intro _; intros; try dsimp only) | simp only [keeps_mk, keeps_mk_scr, keeps_mk_tab, keeps_mk_scr_tab, keeps_mk_otp] | split | (split <;> try dsimp only))

theorem srqUse_keeps {u0 : State} {s : State} {v : Nat} (h1 : u0.Keeps s) : u0.Keeps (srqUse s v) := by
  unfold srqUse
  dsimp only
  repeat' (first | (with_reducible first | assumption | apply setF_keeps | apply setB_keeps | apply levelOff_keeps | apply levelIs_keeps) | simp only [keeps_mk] | split | (split <;> try dsimp only))

theorem srqCompare_keeps {u0 : State} {s : State} {g used : Nat} (h1 : u0.Keeps s) : u0.Keeps (srqCompare s g used) := by
  unfold srqCompare
  dsimp only
  repeat' (first | (with_reducible first | assumption | apply keeps_ite | apply partnerBad_keeps) | simp only [keeps_mk] | split | (split <;> try dsimp only))

theorem srqReceive_keeps {u0 : State} {s : State} {g : Nat} {b : Bytes} (h1 : u0.Keeps s) : u0.Keeps (srqReceive s g b) := by
  unfold srqReceive
  dsimp only
  repeat' (first | (with_reducible first | assumption | apply keeps_ite | apply srqStore_keeps | apply srqUse_keeps | apply srqCompare_keeps) | simp only [keeps_mk] | split | (split <;> try dsimp only))

theorem srqIncDeclare_keeps {u0 : State} {s : State} (h1 : u0.Keeps s) : u0.Keeps (srqIncDeclare s) := by
  unfold srqIncDeclare
  repeat' (first | (with_reducible first | assumption | apply keeps_ite | apply levelOn_keeps | apply setB_keeps) | (intro _; intros; try dsimp only) | simp only [keeps_mk, keeps_mk_scr, keeps_mk_tab, keeps_mk_scr_tab, keeps_mk_otp] | split | (split <;> try dsimp only))

theorem overheadReceive_keeps {u0 : State} {s : State} {g l : Nat} {x : RxLane} {b : Bytes} {was goesOn : Bool} (h1 : u0.Keeps s) : u0.Keeps (overheadReceive s g l x b was goesOn) := by
  unfold overheadReceive
  dsimp only
  repeat' (first | (with_reducible first | assumption | apply keeps_ite | apply bump_keeps | apply putRx_keeps | apply srqReceive_keeps | apply pmFrame_keeps | apply bumpN_keeps | apply perf_keeps | apply trailDone_keeps | apply perfAdd_keeps | apply bkpReceive_keeps) | split | (split <;> try dsimp only))

theorem slipGive_keeps {u0 : State} {s : State} {g l : Nat} {x : RxLane} {f : List Bytes} (h1 : u0.Keeps s) : u0.Keeps (slipGive s g l x f) := by
  unfold slipGive
  dsimp only
  repeat' (first | (with_reducible first | assumption | apply putRx_keeps) | simp only [keeps_mk] | split | (split <;> try dsimp only))

theorem slipWrite_keeps {u0 : State} {s : State} {g l : Nat} {b : Bytes} (h1 : u0.Keeps s) : u0.Keeps (slipWrite s g l b) := by
  unfold slipWrite
  dsimp only
  repeat' (first | (with_reducible first | assumption | apply keeps_ite | apply putRx_keeps | apply bumpN_keeps | apply slipGive_keeps) | (intro _; intros; try dsimp only) | simp only [keeps_mk, keeps_mk_scr, keeps_mk_tab, keeps_mk_scr_tab, keeps_mk_otp] | split | (split <;> try dsimp only))

theorem frameTake_keeps {u0 : State} {g : Nat} {l : Fin 28} {frame : Bytes} {fecCorr : Nat} {fecLost : Bool} {s : State} (h1 : u0.Keeps s) : u0.Keeps (frameTake g l frame fecCorr fecLost s) := by
  unfold frameTake
  dsimp only
  repeat' (first | (with_reducible first | assumption | apply keeps_ite | apply fabFollow_keeps | apply putRx_keeps | apply slipWrite_keeps | apply overheadReceive_keeps | apply perfAdd_keeps) | (intro _; intros; try dsimp only) | simp only [keeps_mk, keeps_mk_scr, keeps_mk_tab, keeps_mk_scr_tab, keeps_mk_otp] | split | (split <;> try dsimp only))

theorem caravanFrameReceive_keeps {u0 : State} {g : Nat} {l : Fin 28} {frame : Bytes} {fecCorr : Nat} {fecLost : Bool} {s : State} (h1 : u0.Keeps s) : u0.Keeps (caravanFrameReceive g l frame fecCorr fecLost s) := by
  unfold caravanFrameReceive
  repeat' (first | (with_reducible first | assumption | apply keeps_ite | apply frameTake_keeps) | refine carvRx_keeps (by with_reducible assumption) ?_ | split | (split <;> try dsimp only))

theorem slipOldest_keeps {u0 : State} {s : State} {g l : Nat} {x : RxLane} (h1 : u0.Keeps s) : u0.Keeps (slipOldest s g l x) := by
  unfold slipOldest
  repeat' (first | (with_reducible first | assumption | apply slipGive_keeps | apply putRx_keeps) | split | (split <;> try dsimp only))

theorem slipRead_keeps {u0 : State} {g : Nat} {l : Fin 28} {part : Bool} {s : State} (h1 : u0.Keeps s) : u0.Keeps (slipRead g l part s) := by
  unfold slipRead
  dsimp only
  repeat' (first | (with_reducible first | assumption | apply keeps_ite | apply bump_keeps | apply report_keeps | apply bumpN_keeps | apply slipOldest_keeps | apply slipGive_keeps | apply idle_keeps) | (intro _; intros; try dsimp only) | simp only [keeps_mk, keeps_mk_scr, keeps_mk_tab, keeps_mk_scr_tab, keeps_mk_otp] | split | (split <;> try dsimp only))

theorem laneDef_keeps {u0 : State} {s : State} {g l : Nat} {first : Bool} (h1 : u0.Keeps s) : u0.Keeps (laneDef s g l first) := by
  unfold laneDef
  dsimp only
  repeat' (first | (with_reducible first | assumption | apply keeps_ite | apply report_keeps) | simp only [keeps_mk] | split | (split <;> try dsimp only))

theorem defectDeclare_keeps {u0 : State} {g : Nat} {l : Fin 28} {d : Fin 7} {s : State} (h1 : u0.Keeps s) : u0.Keeps (defectDeclare g l d s) := by
  unfold defectDeclare
  dsimp only
  repeat' (first | (with_reducible first | assumption | apply keeps_ite | apply setF_keeps | apply fabFollowGroup_keeps | apply pmDefect_keeps | apply laneDef_keeps) | (intro _; intros; try dsimp only) | simp only [keeps_mk, keeps_mk_scr, keeps_mk_tab, keeps_mk_scr_tab, keeps_mk_otp] | split | (split <;> try dsimp only))

theorem defectClear_keeps {u0 : State} {g : Nat} {l : Fin 28} {d : Fin 7} {s : State} (h1 : u0.Keeps s) : u0.Keeps (defectClear g l d s) := by
  unfold defectClear
  dsimp only
  repeat' (first | (with_reducible first | assumption | apply keeps_ite | apply setF_keeps | apply fabFollowGroup_keeps | apply levelOff_keeps) | (intro _; intros; try dsimp only) | simp only [keeps_mk, keeps_mk_scr, keeps_mk_tab, keeps_mk_scr_tab, keeps_mk_otp] | split | (split <;> try dsimp only))

theorem degInterval_keeps {u0 : State} {g : Fin 8} {l : Fin 28} {s : State} (h1 : u0.Keeps s) : u0.Keeps (degInterval g l s) := by
  unfold degInterval
  dsimp only
  repeat' (first | (with_reducible first | assumption | apply putRx_keeps) | (intro _; intros; try dsimp only) | simp only [keeps_mk, keeps_mk_scr, keeps_mk_tab, keeps_mk_scr_tab, keeps_mk_otp] | split | (split <;> try dsimp only))

theorem protCtl_keeps {u0 : State} {v : Nat} {s : State} (h1 : u0.Keeps s) : u0.Keeps (protCtl v s) := by
  unfold protCtl
  dsimp only
  repeat' (first | (with_reducible first | assumption | apply wtrFollow_keeps) | simp only [keeps_mk] | split | (split <;> try dsimp only))

theorem protWrite_keeps {u0 : State} {v : Nat} {s : State} (h1 : u0.Keeps s) : u0.Keeps (protWrite v s) := by
  unfold protWrite
  repeat' (first | (with_reducible first | assumption | apply protCtl_keeps | apply operMirrored_keeps) | (intro _; intros; try dsimp only) | simp only [keeps_mk, keeps_mk_scr, keeps_mk_tab, keeps_mk_scr_tab, keeps_mk_otp] | split | (split <;> try dsimp only))

theorem protClear_keeps {u0 : State} {s : State} (h1 : u0.Keeps s) : u0.Keeps (protClear s) := by
  unfold protClear
  repeat' (first | (with_reducible first | assumption | apply protWrite_keeps) | (intro _; intros; try dsimp only) | simp only [keeps_mk, keeps_mk_scr, keeps_mk_tab, keeps_mk_scr_tab, keeps_mk_otp] | split | (split <;> try dsimp only))

theorem protManualSwitch_keeps {u0 : State} {plane : Fin 16} {s : State} (h1 : u0.Keeps s) : u0.Keeps (protManualSwitch plane s) := by
  unfold protManualSwitch
  repeat' (first | (with_reducible first | assumption | apply protWrite_keeps) | (intro _; intros; try dsimp only) | simp only [keeps_mk, keeps_mk_scr, keeps_mk_tab, keeps_mk_scr_tab, keeps_mk_otp] | split | (split <;> try dsimp only))

theorem protForcedSwitch_keeps {u0 : State} {plane : Fin 16} {s : State} (h1 : u0.Keeps s) : u0.Keeps (protForcedSwitch plane s) := by
  unfold protForcedSwitch
  repeat' (first | (with_reducible first | assumption | apply protWrite_keeps) | (intro _; intros; try dsimp only) | simp only [keeps_mk, keeps_mk_scr, keeps_mk_tab, keeps_mk_scr_tab, keeps_mk_otp] | split | (split <;> try dsimp only))

theorem protLockout_keeps {u0 : State} {s : State} (h1 : u0.Keeps s) : u0.Keeps (protLockout s) := by
  unfold protLockout
  repeat' (first | (with_reducible first | assumption | apply protWrite_keeps) | (intro _; intros; try dsimp only) | simp only [keeps_mk, keeps_mk_scr, keeps_mk_tab, keeps_mk_scr_tab, keeps_mk_otp] | split | (split <;> try dsimp only))

theorem protTest_keeps {u0 : State} {s : State} (h1 : u0.Keeps s) : u0.Keeps (protTest s) := by
  unfold protTest
  repeat' (first | (with_reducible first | assumption | apply protWrite_keeps) | (intro _; intros; try dsimp only) | simp only [keeps_mk, keeps_mk_scr, keeps_mk_tab, keeps_mk_scr_tab, keeps_mk_otp] | split | (split <;> try dsimp only))

theorem wtrExpire_keeps {u0 : State} {s : State} (h1 : u0.Keeps s) : u0.Keeps (wtrExpire s) := by
  unfold wtrExpire
  repeat' (first | (with_reducible first | assumption | apply setWtr_keeps) | (intro _; intros; try dsimp only) | simp only [keeps_mk, keeps_mk_scr, keeps_mk_tab, keeps_mk_scr_tab, keeps_mk_otp] | split | (split <;> try dsimp only))

end Sys2Proof.Machine
end

