-- ==== Sys2Proof/Laws/KeepsFabCell.lean ====
section
/-! SUPPORT. What the operations of Machine/FabCell.lean keep: the queue of commands, the identity of the part, canonical stores. -/

namespace Sys2Proof.Machine

theorem discard_keeps {u0 : State} {s : State} {g k : Nat} (h1 : u0.Keeps s) : u0.Keeps (discard s g k) := by
  unfold discard
  repeat' (first | (with_reducible first | assumption | apply partnerBad_keeps | apply perf_keeps) | (intro _; intros; try dsimp only) | simp only [keeps_mk, keeps_mk_scr, keeps_mk_tab, keeps_mk_scr_tab, keeps_mk_otp] | split | (split <;> try dsimp only))

theorem requestEntry_keeps {u0 : State} {g src : Nat} {s : State} {e : CrEnt} (h1 : u0.Keeps s) : u0.Keeps (requestEntry g src s e) := by
  unfold requestEntry
  dsimp only
  repeat' (first | (with_reducible first | assumption | apply keeps_ite | apply partnerBad_keeps) | simp only [keeps_mk] | split | (split <;> try dsimp only))

theorem creditEntry_keeps {u0 : State} {g : Nat} {s : State} {e : CrEnt} (h1 : u0.Keeps s) : u0.Keeps (creditEntry g s e) := by
  unfold creditEntry
  repeat' (first | (with_reducible first | assumption | apply keeps_foldl | apply creditArrive_keeps) | (intro _; intros; try dsimp only) | simp only [keeps_mk, keeps_mk_scr, keeps_mk_tab, keeps_mk_scr_tab, keeps_mk_otp] | split | (split <;> try dsimp only))

theorem controlCell_keeps {u0 : State} {s : State} {g : Nat} {c : Cell} {payload : Bytes} (h1 : u0.Keeps s) : u0.Keeps (controlCell s g c payload) := by
  unfold controlCell
  dsimp only
  repeat' (first | (with_reducible first | assumption | apply keeps_ite | apply partnerBad_keeps) | simp only [keeps_mk] | split | (split <;> try dsimp only))

theorem localCopies_keeps {u0 : State} {s : State} {h : Hdr} (h1 : u0.Keeps s) : u0.Keeps (localCopies s h).2 := by
  unfold localCopies
  dsimp only
  repeat' (first | (with_reducible first | assumption | apply bumpN_keeps) | (intro _; intros; try dsimp only) | simp only [keeps_mk, keeps_mk_scr, keeps_mk_tab, keeps_mk_scr_tab, keeps_mk_otp] | split | (split <;> try dsimp only))
theorem localCopies_keeps_of {u0 : State} {s : State} {h : Hdr} {v0 : List Nat} {v1 : State} (e : localCopies s h = (v0, v1)) (h1 : u0.Keeps s) : u0.Keeps v1 := by
  have h : u0.Keeps (localCopies s h).2 := localCopies_keeps h1 
  rw [e] at h
  exact h

theorem admitFab_keeps {u0 : State} {s : State} {g port : Nat} {h : Hdr} {size : Nat} (h1 : u0.Keeps s) : u0.Keeps (admitFab s g port h size).2 := by
  unfold admitFab
  dsimp only
  repeat' (first | (with_reducible first | assumption | apply bump_keeps | apply takeIn_keeps) | split | (split <;> try dsimp only))
theorem admitFab_keeps_of {u0 : State} {s : State} {g port : Nat} {h : Hdr} {size : Nat} {v0 : Option (Nat × Nat × Bool)} {v1 : State} (e : admitFab s g port h size = (v0, v1)) (h1 : u0.Keeps s) : u0.Keeps v1 := by
  have h : u0.Keeps (admitFab s g port h size).2 := admitFab_keeps h1 
  rw [e] at h
  exact h

theorem admitCopies_keeps {u0 : State} {g : Nat} {h : Hdr} {size : Nat} {y1 : List Nat} {y2 : State} (h1 : u0.Keeps y2) : u0.Keeps (admitCopies g h size y1 y2).2 := by
  induction y1 generalizing y2 with
  | nil =>
    unfold admitCopies
    dsimp only
    repeat' (first | (with_reducible first | assumption | apply ih | apply keeps_ite | apply keeps_foldl | apply keeps_foldl_snd | apply keeps_foldl_fst | apply bump_keeps | apply perf_keeps | apply admitFab_keeps) | (intro _; intros; try dsimp only) | refine admitFab_keeps_of (by with_reducible assumption) ?_ | simp only [keeps_mk, keeps_mk_scr, keeps_mk_tab, keeps_mk_scr_tab, keeps_mk_otp] | split | (split <;> try dsimp only))
  | cons _ _ ih =>
    unfold admitCopies
    dsimp only
    repeat' (first | (with_reducible first | assumption | apply ih | apply bump_keeps | apply perf_keeps | apply admitFab_keeps) | (intro _; intros; try dsimp only) | refine admitFab_keeps_of (by with_reducible assumption) ?_ | simp only [keeps_mk, keeps_mk_scr, keeps_mk_tab, keeps_mk_scr_tab, keeps_mk_otp] | split | (split <;> try dsimp only))
theorem admitCopies_keeps_of {u0 : State} {g : Nat} {h : Hdr} {size : Nat} {y1 : List Nat} {y2 : State} {v0 : List (Nat × Nat × Bool)} {v1 : State} (e : admitCopies g h size y1 y2 = (v0, v1)) (h1 : u0.Keeps y2) : u0.Keeps v1 := by
  have h : u0.Keeps (admitCopies g h size y1 y2).2 := admitCopies_keeps h1 
  rw [e] at h
  exact h

theorem sharedTargets_keeps {u0 : State} {h : Hdr} {y1 : List Nat} {y2 : State} (h1 : u0.Keeps y2) : u0.Keeps (sharedTargets h y1 y2).2 := by
  induction y1 generalizing y2 with
  | nil =>
    unfold sharedTargets
    dsimp only
    repeat' (first | (with_reducible first | assumption | apply ih | apply keeps_ite | apply keeps_foldl | apply keeps_foldl_snd | apply keeps_foldl_fst | apply bump_keeps) | (intro _; intros; try dsimp only) | simp only [keeps_mk, keeps_mk_scr, keeps_mk_tab, keeps_mk_scr_tab, keeps_mk_otp] | split | (split <;> try dsimp only))
  | cons _ _ ih =>
    unfold sharedTargets
    dsimp only
    repeat' (first | (with_reducible first | assumption | apply ih | apply bump_keeps) | split | (split <;> try dsimp only))
theorem sharedTargets_keeps_of {u0 : State} {h : Hdr} {y1 : List Nat} {y2 : State} {v0 : List (Nat × Option Nat)} {v1 : State} (e : sharedTargets h y1 y2 = (v0, v1)) (h1 : u0.Keeps y2) : u0.Keeps v1 := by
  have h : u0.Keeps (sharedTargets h y1 y2).2 := sharedTargets_keeps h1 
  rw [e] at h
  exact h

theorem lineGrow_keeps {u0 : State} {di h i : Nat} {complete : Bool} {have_ : Nat} {s : State} (h1 : u0.Keeps s) : u0.Keeps (lineGrow di h i complete have_ s) := by
  unfold lineGrow
  dsimp only
  repeat' (first | (with_reducible first | assumption | apply keeps_ite | apply bumpIf_keeps | apply wqPut_keeps) | (intro _; intros; try dsimp only) | simp only [keeps_mk, keeps_mk_scr, keeps_mk_tab, keeps_mk_scr_tab, keeps_mk_otp] | split | (split <;> try dsimp only))

theorem bufGrow_keeps {u0 : State} {data : Bytes} {a b total : Nat} {s : State} {h : Nat} (h1 : u0.Keeps s) : u0.Keeps (bufGrow data a b total s h) := by
  unfold bufGrow
  dsimp only
  repeat' (first | (with_reducible first | assumption | apply keeps_ite | apply keeps_foldl | apply lineGrow_keeps) | (intro _; intros; try dsimp only) | simp only [keeps_mk] | split | (split <;> try dsimp only))

theorem dropOpen_keeps {u0 : State} {s : State} {o : Option Reas} (h1 : u0.Keeps s) : u0.Keeps (dropOpen s o) := by
  unfold dropOpen
  repeat' (first | (with_reducible first | assumption | apply keeps_foldl | apply releaseBuf_keeps) | (intro _; intros; try dsimp only) | split | (split <;> try dsimp only))

theorem openShared_keeps {u0 : State} {s : State} {g : Nat} {h : Hdr} {size : Nat} (h1 : u0.Keeps s) : u0.Keeps (openShared s g h size).2 := by
  unfold openShared
  dsimp only
  repeat' (first | (with_reducible first | assumption | apply sharedTargets_keeps | apply localCopies_keeps) | refine sharedAdmit_keeps_of (by with_reducible assumption) ?_ | split | (split <;> try dsimp only))
theorem openShared_keeps_of {u0 : State} {s : State} {g : Nat} {h : Hdr} {size : Nat} {v0 : Option Reas} {v1 : State} (e : openShared s g h size = (v0, v1)) (h1 : u0.Keeps s) : u0.Keeps v1 := by
  have h : u0.Keeps (openShared s g h size).2 := openShared_keeps h1 
  rw [e] at h
  exact h

theorem openFrame_keeps {u0 : State} {s : State} {g : Nat} {c : Cell} (h1 : u0.Keeps s) : u0.Keeps (openFrame s g c).2 := by
  unfold openFrame
  dsimp only
  repeat' (first | (with_reducible first | assumption | apply admitCopies_keeps | apply openShared_keeps | apply localCopies_keeps | apply admitFab_keeps) | simp only [] | split | (split <;> try dsimp only))
theorem openFrame_keeps_of {u0 : State} {s : State} {g : Nat} {c : Cell} {v0 : Option Reas} {v1 : State} (e : openFrame s g c = (v0, v1)) (h1 : u0.Keeps s) : u0.Keeps v1 := by
  have h : u0.Keeps (openFrame s g c).2 := openFrame_keeps h1 
  rw [e] at h
  exact h

theorem closeFrame_keeps {u0 : State} {s : State} {r : Reas} (h1 : u0.Keeps s) : u0.Keeps (closeFrame s r) := by
  unfold closeFrame
  repeat' (first | (with_reducible first | assumption | apply keeps_foldl | apply enqueueWhole_keeps | apply sharedWhole_keeps) | (intro _; intros; try dsimp only) | split | (split <;> try dsimp only))

theorem growFrame_keeps {u0 : State} {s : State} {g : Nat} {r : Reas} {c : Cell} (h1 : u0.Keeps s) : u0.Keeps (growFrame s g r c).2 := by
  unfold growFrame
  dsimp only
  repeat' (first | (with_reducible first | assumption | apply keeps_foldl | apply dropOpen_keeps | apply partnerBad_keeps | apply closeFrame_keeps | apply bufGrow_keeps) | (intro _; intros; try dsimp only) | split | (split <;> try dsimp only))
theorem growFrame_keeps_of {u0 : State} {s : State} {g : Nat} {r : Reas} {c : Cell} {v0 : Option Reas} {v1 : State} (e : growFrame s g r c = (v0, v1)) (h1 : u0.Keeps s) : u0.Keeps v1 := by
  have h : u0.Keeps (growFrame s g r c).2 := growFrame_keeps h1 
  rw [e] at h
  exact h

theorem reassemble_keeps {u0 : State} {s : State} {o : Option Reas} {c : Cell} {g : Nat} (h1 : u0.Keeps s) : u0.Keeps (reassemble s o c g).2 := by
  unfold reassemble
  dsimp only
  repeat' (first | (with_reducible first | assumption | apply keeps_ite | apply dropOpen_keeps | apply partnerBad_keeps | apply growFrame_keeps) | refine openFrame_keeps_of (by with_reducible assumption) ?_ | split | (split <;> try dsimp only))
theorem reassemble_keeps_of {u0 : State} {s : State} {o : Option Reas} {c : Cell} {g : Nat} {v0 : Option Reas} {v1 : State} (e : reassemble s o c g = (v0, v1)) (h1 : u0.Keeps s) : u0.Keeps v1 := by
  have h : u0.Keeps (reassemble s o c g).2 := reassemble_keeps h1 
  rw [e] at h
  exact h

theorem ctxPut_keeps {u0 : State} {s : State} {k : Nat} {x : Option Ctx} (h1 : u0.Keeps s) : u0.Keeps (ctxPut s k x) := by
  unfold ctxPut
  dsimp only
  repeat' (first | (with_reducible first | assumption | apply setF_keeps) | simp only [keeps_mk] | split | (split <;> try dsimp only))

theorem deliverRun_keeps {u0 : State} {y1 : Nat} {y2 : State} {y3 : Ctx} {y4 : Nat} {y5 : Cell} {y6 : Nat} (h1 : u0.Keeps y2) : u0.Keeps (deliverRun y1 y2 y3 y4 y5 y6).2 := by
  induction y1 generalizing y2 y3 y4 y5 y6 with
  | zero =>
    unfold deliverRun
    dsimp only
    repeat' (first | (with_reducible first | assumption | apply ih | apply keeps_ite | apply keeps_foldl | apply keeps_foldl_snd | apply keeps_foldl_fst | apply reassemble_keeps) | (intro _; intros; try dsimp only) | refine reassemble_keeps_of (by with_reducible assumption) ?_ | simp only [keeps_mk, keeps_mk_scr, keeps_mk_tab, keeps_mk_scr_tab, keeps_mk_otp] | split | (split <;> try dsimp only))
  | succ _ ih =>
    unfold deliverRun
    dsimp only
    repeat' (first | (with_reducible first | assumption | apply ih | apply reassemble_keeps) | split | (split <;> try dsimp only))
theorem deliverRun_keeps_of {u0 : State} {y1 : Nat} {y2 : State} {y3 : Ctx} {y4 : Nat} {y5 : Cell} {y6 : Nat} {v0 : Ctx} {v1 : State} (e : deliverRun y1 y2 y3 y4 y5 y6 = (v0, v1)) (h1 : u0.Keeps y2) : u0.Keeps v1 := by
  have h : u0.Keeps (deliverRun y1 y2 y3 y4 y5 y6).2 := deliverRun_keeps h1 
  rw [e] at h
  exact h

theorem ctxCell_keeps {u0 : State} {s : State} {k : Nat} {x : Ctx} {e g : Nat} {c : Cell} (h1 : u0.Keeps s) : u0.Keeps (ctxCell s k x e g c) := by
  unfold ctxCell
  dsimp only
  repeat' (first | (with_reducible first | assumption | apply keeps_ite | apply discard_keeps | apply deliverRun_keeps | apply ctxPut_keeps) | (intro _; intros; try dsimp only) | refine deliverRun_keeps_of (by with_reducible assumption) ?_ | simp only [keeps_mk, keeps_mk_scr, keeps_mk_tab, keeps_mk_scr_tab, keeps_mk_otp] | split | (split <;> try dsimp only))

theorem dataCell_keeps {u0 : State} {s : State} {g : Nat} {c : Cell} (h1 : u0.Keeps s) : u0.Keeps (dataCell s g c) := by
  unfold dataCell
  dsimp only
  repeat' (first | (with_reducible first | assumption | apply keeps_ite | apply ctxCell_keeps | apply ctxPut_keeps | apply discard_keeps) | split | (split <;> try dsimp only))

theorem cellReceive_keeps {u0 : State} {g : Fin 8} {l : Fin 28} {s : State} (h1 : u0.Keeps s) : u0.Keeps (cellReceive g l s) := by
  unfold cellReceive
  dsimp only
  repeat' (first | (with_reducible first | assumption | apply keeps_ite | apply keeps_foldl | apply controlCell_keeps | apply requestEntry_keeps | apply perf_keeps | apply creditEntry_keeps | apply relockDiscards_keeps | apply dataCell_keeps | apply discard_keeps) | simp only [keeps_mk] | split | (split <;> try dsimp only))

theorem holeTimeout_keeps {u0 : State} {src dst : Fin 65536} {cls : Fin 8} {s : State} (h1 : u0.Keeps s) : u0.Keeps (holeTimeout src dst cls s) := by
  unfold holeTimeout
  dsimp only
  repeat' (first | (with_reducible first | assumption | apply keeps_foldl | apply dropOpen_keeps | apply partnerBad_keeps | apply deliverRun_keeps | apply ctxPut_keeps) | (intro _; intros; try dsimp only) | split | (split <;> try dsimp only))

theorem contextFree_keeps {u0 : State} {src dst : Fin 65536} {cls : Fin 8} {s : State} (h1 : u0.Keeps s) : u0.Keeps (contextFree src dst cls s) := by
  unfold contextFree
  dsimp only
  repeat' (first | (with_reducible first | assumption | apply keeps_ite | apply dropOpen_keeps | apply ctxPut_keeps) | split | (split <;> try dsimp only))

end Sys2Proof.Machine
end

