-- ==== Sys2Proof/Laws/KeepsFabPm.lean ====
section
/-! SUPPORT. What the operations of Machine/FabPm.lean keep: the queue of commands, the identity of the part, canonical stores. -/

namespace Sys2Proof.Machine

theorem pmCount_keeps {u0 : State} {k now sec m : Nat} {up : Bool} {s : State} (h1 : u0.Keeps s) : u0.Keeps (pmCount k now sec m up s) := by
  unfold pmCount
  dsimp only
  repeat' (first | (with_reducible first | assumption | apply keeps_ite | apply keeps_foldl | apply setF_keeps | apply setB_keeps) | (intro _; intros; try dsimp only) | simp only [keeps_mk, keeps_mk_scr, keeps_mk_tab, keeps_mk_scr_tab, keeps_mk_otp] | split | (split <;> try dsimp only))

theorem pmClasses_keeps {u0 : State} {k now : Nat} {up : Bool} {l : List (Nat × Nat)} {s : State} (h1 : u0.Keeps s) : u0.Keeps (pmClasses k now up l s) := by
  unfold pmClasses
  repeat' (first | (with_reducible first | assumption | apply keeps_ite | apply keeps_foldl | apply pmCount_keeps) | (intro _; intros; try dsimp only) | simp only [keeps_mk, keeps_mk_scr, keeps_mk_tab, keeps_mk_scr_tab, keeps_mk_otp] | split | (split <;> try dsimp only))

theorem pmUas_keeps {u0 : State} {k now : Nat} {up : Bool} {l : List (Nat × Nat)} {s : State} (h1 : u0.Keeps s) : u0.Keeps (pmUas k now up l s) := by
  unfold pmUas
  repeat' (first | (with_reducible first | assumption | apply keeps_foldl | apply pmCount_keeps) | (intro _; intros; try dsimp only) | simp only [keeps_mk, keeps_mk_scr, keeps_mk_tab, keeps_mk_scr_tab, keeps_mk_otp] | split | (split <;> try dsimp only))

theorem pmShow_keeps {u0 : State} {k : Nat} {u : Bool} {s : State} (h1 : u0.Keeps s) : u0.Keeps (pmShow k u s) := by
  unfold pmShow
  repeat' (first | (with_reducible first | assumption | apply setB_keeps) | (intro _; intros; try dsimp only) | simp only [keeps_mk, keeps_mk_scr, keeps_mk_tab, keeps_mk_scr_tab, keeps_mk_otp] | split | (split <;> try dsimp only))

theorem pmTake_keeps {u0 : State} {k now c : Nat} {s : State} (h1 : u0.Keeps s) : u0.Keeps (pmTake k now c s) := by
  unfold pmTake
  dsimp only
  repeat' (first | (with_reducible first | assumption | apply keeps_ite | apply pmShow_keeps | apply pmUas_keeps | apply pmClasses_keeps) | simp only [keeps_mk] | split | (split <;> try dsimp only))

theorem pmRestart_keeps {u0 : State} {s : State} (h1 : u0.Keeps s) : u0.Keeps (pmRestart s) := by
  unfold pmRestart
  dsimp only
  repeat' (first | with_reducible assumption | simp only [keeps_mk] | split | (split <;> try dsimp only))

theorem pmRoll_keeps {u0 : State} {len b n : Nat} {s : State} (h1 : u0.Keeps s) : u0.Keeps (pmRoll len b n s) := by
  unfold pmRoll
  dsimp only
  repeat' (first | (with_reducible first | assumption | apply keeps_ite | apply keeps_foldl | apply setB_keeps | apply wr_keeps) | (intro _; intros; try dsimp only) | simp only [keeps_mk, keeps_mk_scr, keeps_mk_tab, keeps_mk_scr_tab, keeps_mk_otp] | split | (split <;> try dsimp only))

theorem pmRolls_keeps {u0 : State} {a b : Nat} {s : State} (h1 : u0.Keeps s) : u0.Keeps (pmRolls a b s) := by
  unfold pmRolls
  dsimp only
  repeat' (first | (with_reducible first | assumption | apply keeps_ite | apply pmRoll_keeps) | simp only [keeps_mk] | split | (split <;> try dsimp only))

theorem pmSuspectAll_keeps {u0 : State} {s : State} (h1 : u0.Keeps s) : u0.Keeps (pmSuspectAll s) := by
  unfold pmSuspectAll
  repeat' (first | (with_reducible first | assumption | apply keeps_foldl | apply setB_keeps) | (intro _; intros; try dsimp only) | simp only [keeps_mk, keeps_mk_scr, keeps_mk_tab, keeps_mk_scr_tab, keeps_mk_otp] | split | (split <;> try dsimp only))

theorem pmStepped_keeps {u0 : State} {s : State} (h1 : u0.Keeps s) : u0.Keeps (pmStepped s) := by
  unfold pmStepped
  dsimp only
  repeat' (first | (with_reducible first | assumption | apply pmRolls_keeps | apply pmSuspectAll_keeps) | simp only [keeps_mk] | split | (split <;> try dsimp only))

theorem pmSecond_keeps {u0 : State} {s : State} (h1 : u0.Keeps s) : u0.Keeps (pmSecond s) := by
  unfold pmSecond
  dsimp only
  repeat' (first | (with_reducible first | assumption | apply keeps_ite | apply keeps_foldl | apply pmRestart_keeps | apply pmRolls_keeps | apply pmTake_keeps) | (intro _; intros; try dsimp only) | simp only [keeps_mk] | split | (split <;> try dsimp only))

end Sys2Proof.Machine
end

