-- ==== Sys2Proof/Laws/KeepsHost.lean ====
section
/-! SUPPORT. What the operations of Machine/Host.lean keep: the queue of commands, the identity of the part, canonical stores. -/

namespace Sys2Proof.Machine

theorem hostFail_keeps {u0 : State} {s : State} {f addr v : Nat} {c : PwfCause} (h1 : u0.Keeps s) : u0.Keeps (hostFail s f addr v c) := by
  unfold hostFail
  repeat' (first | (with_reducible first | assumption | apply keeps_ite | apply pwfD_keeps) | (intro _; intros; try dsimp only) | simp only [keeps_mk, keeps_mk_scr, keeps_mk_tab, keeps_mk_scr_tab, keeps_mk_otp] | split | (split <;> try dsimp only))

theorem ringWrite_keeps {u0 : State} {s : State} {f r o v : Nat} {act : State → State} (h1 : u0.Keeps s) (c_act : ∀ z0, u0.Keeps z0 → u0.Keeps (act z0)) : u0.Keeps (ringWrite s f r o v act) := by
  unfold ringWrite
  repeat' (first | (with_reducible first | assumption | apply keeps_ite | apply hostFail_keeps | apply c_act) | (intro _; intros; try dsimp only) | simp only [keeps_mk, keeps_mk_scr, keeps_mk_tab, keeps_mk_scr_tab, keeps_mk_otp] | split | (split <;> try dsimp only))

theorem ringStop_keeps {u0 : State} {s : State} {f r cause index : Nat} (h1 : u0.Keeps s) : u0.Keeps (ringStop s f r cause index) := by
  unfold ringStop
  dsimp only
  repeat' (first | (with_reducible first | assumption | apply setF_keeps | apply report_keeps | apply setB_keeps | apply abandonRing_keeps | apply hostEvent_keeps) | (intro _; intros; try dsimp only) | simp only [keeps_mk, keeps_mk_scr, keeps_mk_tab, keeps_mk_scr_tab, keeps_mk_otp] | split | (split <;> try dsimp only))

theorem prodDoorbell_keeps {u0 : State} {f r v : Nat} {s : State} (h1 : u0.Keeps s) : u0.Keeps (prodDoorbell f r v s) := by
  unfold prodDoorbell
  dsimp only
  repeat' (first | (with_reducible first | assumption | apply keeps_ite | apply setF_keeps | apply ringWrite_keeps | apply ringStop_keeps) | (intro _; intros; try dsimp only) | simp only [keeps_mk, keeps_mk_scr, keeps_mk_tab, keeps_mk_scr_tab, keeps_mk_otp] | split | (split <;> try dsimp only))

theorem ringRelease_keeps {u0 : State} {s : State} {f r k : Nat} (h1 : u0.Keeps s) : u0.Keeps (ringRelease s f r k) := by
  unfold ringRelease
  dsimp only
  repeat' (first | (with_reducible first | assumption | apply keeps_ite | apply drainOwed_keeps) | simp only [keeps_mk] | split | (split <;> try dsimp only))

theorem consDoorbell_keeps {u0 : State} {f r v : Nat} {s : State} (h1 : u0.Keeps s) : u0.Keeps (consDoorbell f r v s) := by
  unfold consDoorbell
  dsimp only
  repeat' (first | (with_reducible first | assumption | apply keeps_ite | apply setF_keeps | apply ringRelease_keeps | apply ringWrite_keeps | apply ringStop_keeps) | (intro _; intros; try dsimp only) | simp only [keeps_mk, keeps_mk_scr, keeps_mk_tab, keeps_mk_scr_tab, keeps_mk_otp] | split | (split <;> try dsimp only))

theorem ringForget_keeps {u0 : State} {s : State} {k : Nat} (h1 : u0.Keeps s) : u0.Keeps (ringForget s k) := by
  unfold ringForget
  dsimp only
  repeat' (first | with_reducible assumption | simp only [keeps_mk] | split | (split <;> try dsimp only))

theorem ringFlushed_keeps {u0 : State} {s : State} {f r cause point ents cmds : Nat} (h1 : u0.Keeps s) : u0.Keeps (ringFlushed s f r cause point ents cmds) := by
  unfold ringFlushed
  repeat' (first | (with_reducible first | assumption | apply setF_keeps | apply hostEvent_keeps) | (intro _; intros; try dsimp only) | simp only [keeps_mk, keeps_mk_scr, keeps_mk_tab, keeps_mk_scr_tab, keeps_mk_otp] | split | (split <;> try dsimp only))

theorem ringFlush_keeps {u0 : State} {s : State} {f r cause cmds : Nat} (h1 : u0.Keeps s) : u0.Keeps (ringFlush s f r cause cmds) := by
  unfold ringFlush
  dsimp only
  repeat' (first | (with_reducible first | assumption | apply keeps_ite | apply setF_keeps | apply ringFlushed_keeps | apply setB_keeps | apply landed_keeps) | simp only [keeps_mk] | split | (split <;> try dsimp only))

theorem ringDown_keeps {u0 : State} {s : State} {f r cause cmds : Nat} (h1 : u0.Keeps s) : u0.Keeps (ringDown s f r cause cmds) := by
  unfold ringDown
  dsimp only
  repeat' (first | (with_reducible first | assumption | apply keeps_ite | apply keeps_foldl | apply setB_keeps | apply landed_keeps | apply abandonRing_keeps | apply ringFlush_keeps) | (intro _; intros; try dsimp only) | simp only [keeps_mk] | split | (split <;> try dsimp only))

theorem ringOn_keeps {u0 : State} {s : State} {f r : Nat} (h1 : u0.Keeps s) : u0.Keeps (ringOn s f r) := by
  unfold ringOn
  dsimp only
  repeat' (first | (with_reducible first | assumption | apply setF_keeps | apply ringForget_keeps | apply setB_keeps) | (intro _; intros; try dsimp only) | simp only [keeps_mk, keeps_mk_scr, keeps_mk_tab, keeps_mk_scr_tab, keeps_mk_otp] | split | (split <;> try dsimp only))

theorem ringCfg_keeps {u0 : State} {f r w cmds : Nat} {s : State} (h1 : u0.Keeps s) : u0.Keeps (ringCfg f r w cmds s) := by
  unfold ringCfg
  dsimp only
  repeat' (first | (with_reducible first | assumption | apply keeps_ite | apply ringWrite_keeps | apply ringDown_keeps | apply ringOn_keeps | apply ringFlush_keeps | apply writeRw_keeps | apply pwfD_keeps) | (intro _; intros; try dsimp only) | simp only [keeps_mk, keeps_mk_scr, keeps_mk_tab, keeps_mk_scr_tab, keeps_mk_otp] | split | (split <;> try dsimp only))

theorem ringEnable_keeps {u0 : State} {f r v : Nat} {s : State} (h1 : u0.Keeps s) : u0.Keeps (ringEnable f r v s) := by
  unfold ringEnable
  repeat' (first | (with_reducible first | assumption | apply ringCfg_keeps) | (intro _; intros; try dsimp only) | simp only [keeps_mk, keeps_mk_scr, keeps_mk_tab, keeps_mk_scr_tab, keeps_mk_otp] | split | (split <;> try dsimp only))

theorem ringDisable_keeps {u0 : State} {f r v cmds : Nat} {s : State} (h1 : u0.Keeps s) : u0.Keeps (ringDisable f r v cmds s) := by
  unfold ringDisable
  repeat' (first | (with_reducible first | assumption | apply ringCfg_keeps) | (intro _; intros; try dsimp only) | simp only [keeps_mk, keeps_mk_scr, keeps_mk_tab, keeps_mk_scr_tab, keeps_mk_otp] | split | (split <;> try dsimp only))

theorem ringFlushCmd_keeps {u0 : State} {f r v cmds : Nat} {s : State} (h1 : u0.Keeps s) : u0.Keeps (ringFlushCmd f r v cmds s) := by
  unfold ringFlushCmd
  repeat' (first | (with_reducible first | assumption | apply ringCfg_keeps) | (intro _; intros; try dsimp only) | simp only [keeps_mk, keeps_mk_scr, keeps_mk_tab, keeps_mk_scr_tab, keeps_mk_otp] | split | (split <;> try dsimp only))

theorem launched_keeps {u0 : State} {s : State} {f : Nat} (h1 : u0.Keeps s) : u0.Keeps (launched s f) := by
  unfold launched
  dsimp only
  repeat' (first | (with_reducible first | assumption | apply setPeak_keeps | apply setF_keeps) | (intro _; intros; try dsimp only) | simp only [keeps_mk, keeps_mk_scr, keeps_mk_tab, keeps_mk_scr_tab, keeps_mk_otp] | split | (split <;> try dsimp only))

theorem openPut_keeps {u0 : State} {s : State} {f r : Nat} {l : List Bytes} (h1 : u0.Keeps s) : u0.Keeps (openPut s f r l) := by
  unfold openPut
  dsimp only
  repeat' (first | (with_reducible first | assumption | apply setB_keeps) | simp only [keeps_mk] | split | (split <;> try dsimp only))

theorem entryJoin_keeps {u0 : State} {s : State} {f r : Nat} {e : Bytes} (h1 : u0.Keeps s) : u0.Keeps (entryJoin s f r e) := by
  unfold entryJoin
  dsimp only
  repeat' (first | (with_reducible first | assumption | apply keeps_ite | apply refuseOpcodes_keeps | apply openPut_keeps | apply launched_keeps) | simp only [keeps_mk] | split | (split <;> try dsimp only))

theorem entryOrphan_keeps {u0 : State} {s : State} {k : Nat} {x : Nat × Nat × Nat} (h1 : u0.Keeps s) : u0.Keeps (entryOrphan s k x) := by
  unfold entryOrphan
  dsimp only
  repeat' (first | (with_reducible first | assumption | apply bump_keeps) | simp only [keeps_mk] | split | (split <;> try dsimp only))

theorem openDrop_keeps {u0 : State} {s : State} {f r : Nat} (h1 : u0.Keeps s) : u0.Keeps (openDrop s f r) := by
  unfold openDrop
  repeat' (first | (with_reducible first | assumption | apply bumpN_keeps | apply landed_keeps | apply openPut_keeps) | (intro _; intros; try dsimp only) | simp only [keeps_mk, keeps_mk_scr, keeps_mk_tab, keeps_mk_scr_tab, keeps_mk_otp] | split | (split <;> try dsimp only))

theorem entryTake_keeps {u0 : State} {s : State} {f r i : Nat} {e : Bytes} (h1 : u0.Keeps s) : u0.Keeps (entryTake s f r i e) := by
  unfold entryTake
  dsimp only
  repeat' (first | (with_reducible first | assumption | apply keeps_ite | apply ringFlushed_keeps | apply openDrop_keeps | apply entryJoin_keeps | apply entryOrphan_keeps) | simp only [keeps_mk] | split | (split <;> try dsimp only))

theorem entryRead_keeps {u0 : State} {s : State} {f r : Nat} (h1 : u0.Keeps s) : u0.Keeps (entryRead s f r) := setF_keeps (ringWb_keeps h1)

theorem commandFetch_keeps {u0 : State} {f r : Nat} {entry : Option Bytes} {s : State} (h1 : u0.Keeps s) : u0.Keeps (commandFetch f r entry s) := by
  unfold commandFetch
  dsimp only
  repeat' (first | (with_reducible first | assumption | apply keeps_ite | apply entryRead_keeps | apply entryTake_keeps | apply ringStop_keeps) | split | (split <;> try dsimp only))

theorem msixHoldoffEnd_keeps {u0 : State} {f r : Nat} {s : State} (h1 : u0.Keeps s) : u0.Keeps (msixHoldoffEnd f r s) := by
  unfold msixHoldoffEnd
  dsimp only
  repeat' (first | (with_reducible first | assumption | apply keeps_ite | apply signal_keeps) | simp only [keeps_mk] | split | (split <;> try dsimp only))

theorem fnReset_keeps {u0 : State} {s : State} {f : Nat} (h1 : u0.Keeps s) : u0.Keeps (fnReset s f) := by
  unfold fnReset
  dsimp only
  exact keeps_regs_filter _ (keeps_foldl (keeps_foldl h1 (fun _ _ h => ringDown_keeps h)) (fun _ _ h => ringForget_keeps h)) rfl rfl rfl rfl rfl

theorem fnResetAll_keeps {u0 : State} {s : State} (h1 : u0.Keeps s) : u0.Keeps (fnResetAll s) := by
  unfold fnResetAll
  repeat' (first | (with_reducible first | assumption | apply keeps_ite | apply keeps_foldl | apply fnReset_keeps | apply setB_keeps) | (intro _; intros; try dsimp only) | simp only [keeps_mk, keeps_mk_scr, keeps_mk_tab, keeps_mk_scr_tab, keeps_mk_otp] | split | (split <;> try dsimp only))

theorem flr_keeps {u0 : State} {f : Nat} {s : State} (h1 : u0.Keeps s) : u0.Keeps (flr f s) := by
  unfold flr
  repeat' (first | (with_reducible first | assumption | apply keeps_ite | apply fnResetAll_keeps | apply fnReset_keeps) | (intro _; intros; try dsimp only) | simp only [keeps_mk, keeps_mk_scr, keeps_mk_tab, keeps_mk_scr_tab, keeps_mk_otp] | split | (split <;> try dsimp only))

theorem linkShow_keeps {u0 : State} {s : State} (h1 : u0.Keeps s) : u0.Keeps (linkShow s) := by
  unfold linkShow
  repeat' (first | (with_reducible first | assumption | apply levelIs_keeps) | (intro _; intros; try dsimp only) | simp only [keeps_mk, keeps_mk_scr, keeps_mk_tab, keeps_mk_scr_tab, keeps_mk_otp] | split | (split <;> try dsimp only))

theorem linkOff_keeps {u0 : State} {s : State} (h1 : u0.Keeps s) : u0.Keeps (linkOff s) := by
  unfold linkOff
  repeat' (first | (with_reducible first | assumption | apply wr_keeps | apply linkShow_keeps) | (intro _; intros; try dsimp only) | simp only [keeps_mk, keeps_mk_scr, keeps_mk_tab, keeps_mk_scr_tab, keeps_mk_otp] | split | (split <;> try dsimp only))

theorem pciePerst_keeps {u0 : State} {s : State} (h1 : u0.Keeps s) : u0.Keeps (pciePerst s) := by
  unfold pciePerst
  dsimp only
  repeat' (first | (with_reducible first | assumption | apply keeps_ite | apply fnResetAll_keeps | apply linkOff_keeps) | simp only [keeps_mk] | split | (split <;> try dsimp only))

theorem pciePerstRelease_keeps {u0 : State} {s : State} (h1 : u0.Keeps s) : u0.Keeps (pciePerstRelease s) := by
  unfold pciePerstRelease
  dsimp only
  repeat' (first | with_reducible assumption | simp only [keeps_mk] | split | (split <;> try dsimp only))

theorem fnEnable_keeps {u0 : State} {s : State} {vfs : Nat} {msix : List Nat} (h1 : u0.Keeps s) : u0.Keeps (fnEnable s vfs msix) := by
  unfold fnEnable
  dsimp only
  repeat' (first | (with_reducible first | assumption | apply keeps_ite | apply keeps_foldl | apply fnReset_keeps | apply setB_keeps) | (intro _; intros; try dsimp only) | simp only [keeps_mk] | split | (split <;> try dsimp only))

theorem pcieLinkChange_keeps {u0 : State} {up : Bool} {gen width : Nat} {flit : Bool} {vfs : Nat} {msix : List Nat} {s : State} (h1 : u0.Keeps s) : u0.Keeps (pcieLinkChange up gen width flit vfs msix s) := by
  unfold pcieLinkChange
  dsimp only
  repeat' (first | (with_reducible first | assumption | apply keeps_ite | apply setF_keeps | apply linkOff_keeps | apply linkShow_keeps | apply setB_keeps | apply fnEnable_keeps) | (intro _; intros; try dsimp only) | simp only [keeps_mk, keeps_mk_scr, keeps_mk_tab, keeps_mk_scr_tab, keeps_mk_otp] | split | (split <;> try dsimp only))

theorem txShut_keeps {u0 : State} {s : State} {f : Nat} {d : TxDesc} (h1 : u0.Keeps s) : u0.Keeps (txShut s f d) := by
  unfold txShut
  repeat' (first | (with_reducible first | assumption | apply keeps_ite | apply bump_keeps) | (intro _; intros; try dsimp only) | simp only [keeps_mk, keeps_mk_scr, keeps_mk_tab, keeps_mk_scr_tab, keeps_mk_otp] | split | (split <;> try dsimp only))

theorem txInject_keeps {u0 : State} {s : State} {f : Nat} {d : TxDesc} {b : Bytes} (h1 : u0.Keeps s) : u0.Keeps (txInject s f d b) := by
  unfold txInject
  dsimp only
  repeat' (first | (with_reducible first | assumption | apply hallArrive_keeps | apply enterPipe_keeps) | simp only [keeps_mk] | split | (split <;> try dsimp only))

theorem txDescriptor_keeps {u0 : State} {f k : Nat} {entry data : Option Bytes} {s : State} (h1 : u0.Keeps s) : u0.Keeps (txDescriptor f k entry data s) := by
  unfold txDescriptor
  dsimp only
  repeat' (first | (with_reducible first | assumption | apply keeps_ite | apply entryRead_keeps | apply txShut_keeps | apply bump_keeps | apply perf_keeps | apply ringStop_keeps | apply txInject_keeps | apply hostEvent_keeps) | split | (split <;> try dsimp only))

theorem rxWrite_keeps {u0 : State} {s : State} {f r at_ : Nat} {x : HostFrame} (h1 : u0.Keeps s) : u0.Keeps (rxWrite s f r at_ x) := by
  unfold rxWrite
  dsimp only
  repeat' (first | (with_reducible first | assumption | apply keeps_ite | apply perfTenant_keeps | apply perf_keeps | apply bumpIf_keeps | apply pushEntry_keeps) | simp only [keeps_mk] | split | (split <;> try dsimp only))

theorem hostFrameDeliver_keeps {u0 : State} {s : State} (h1 : u0.Keeps s) : u0.Keeps (hostFrameDeliver s) := by
  unfold hostFrameDeliver
  dsimp only
  repeat' (first | (with_reducible first | assumption | apply keeps_ite | apply bump_keeps | apply releaseBuf_keeps | apply rxWrite_keeps) | simp only [keeps_mk] | split | (split <;> try dsimp only))

theorem twinAct_keeps {u0 : State} {s : State} {off v t i base n : Nat} (h1 : u0.Keeps s) : u0.Keeps (twinAct s off v t i base n) := by
  unfold twinAct
  dsimp only
  repeat' (first | (with_reducible first | assumption | apply keeps_ite | apply mirrorItem_keeps | apply directWrite_keeps | apply pwfD_keeps) | simp only [keeps_mk] | split | (split <;> try dsimp only))

theorem bar2Write_keeps {u0 : State} {off v : Nat} {s : State} (h1 : u0.Keeps s) : u0.Keeps (bar2Write off v s) := by
  unfold bar2Write
  dsimp only
  repeat' (first | (with_reducible first | assumption | apply keeps_ite | apply twinAct_keeps | apply pwfD_keeps) | simp only [keeps_mk] | split | (split <;> try dsimp only))

theorem pwfClear_keeps {u0 : State} {s : State} (h1 : u0.Keeps s) : u0.Keeps (pwfClear s) := by
  unfold pwfClear
  dsimp only
  exact operWrite_keeps h1 (fun a ha => wr_keeps (keeps_regs_filter _ ha rfl rfl rfl rfl rfl))

theorem grant_keeps {u0 : State} {f w v : Nat} {s : State} (h1 : u0.Keeps s) : u0.Keeps (grant f w v s) := by
  unfold grant
  repeat' (first | (with_reducible first | assumption | apply keeps_ite | apply setF_keeps | apply pwfTarget_keeps | apply operWrite_keeps) | (intro _; intros; try dsimp only) | simp only [keeps_mk, keeps_mk_scr, keeps_mk_tab, keeps_mk_scr_tab, keeps_mk_otp] | split | (split <;> try dsimp only))

theorem fnCfgWrite_keeps {u0 : State} {f v : Nat} {s : State} (h1 : u0.Keeps s) : u0.Keeps (fnCfgWrite f v s) := by
  unfold fnCfgWrite
  dsimp only
  repeat' (first | (with_reducible first | assumption | apply keeps_ite | apply keeps_foldl | apply ringDown_keeps | apply operWrite_keeps | apply pwfTarget_keeps | apply writeRw_keeps) | (intro _; intros; try dsimp only) | simp only [keeps_mk, keeps_mk_scr, keeps_mk_tab, keeps_mk_scr_tab, keeps_mk_otp] | split | (split <;> try dsimp only))

theorem msixSizeWrite_keeps {u0 : State} {f v : Nat} {s : State} (h1 : u0.Keeps s) : u0.Keeps (msixSizeWrite f v s) := by
  unfold msixSizeWrite
  repeat' (first | (with_reducible first | assumption | apply fnCfgWrite_keeps) | (intro _; intros; try dsimp only) | simp only [keeps_mk, keeps_mk_scr, keeps_mk_tab, keeps_mk_scr_tab, keeps_mk_otp] | split | (split <;> try dsimp only))

end Sys2Proof.Machine
end

