-- ==== Sys2Proof/Laws/KeepsUpdate.lean ====
section
/-! SUPPORT. What the operations of Machine/Update.lean keep: the queue of commands, the identity of the part, canonical stores. -/

namespace Sys2Proof.Machine

theorem updStatus_keeps {u0 : State} {s : State} {n : Nat} (h1 : u0.Keeps s) : u0.Keeps (updStatus s n) := by
  unfold updStatus
  repeat' (first | (with_reducible first | assumption | apply setF_keeps) | (intro _; intros; try dsimp only) | simp only [keeps_mk, keeps_mk_scr, keeps_mk_tab, keeps_mk_scr_tab, keeps_mk_otp] | split | (split <;> try dsimp only))

theorem updEnter_keeps {u0 : State} {s : State} {n : Nat} (h1 : u0.Keeps s) : u0.Keeps (updEnter s n) := by
  unfold updEnter
  repeat' (first | (with_reducible first | assumption | apply setF_keeps) | (intro _; intros; try dsimp only) | simp only [keeps_mk, keeps_mk_scr, keeps_mk_tab, keeps_mk_scr_tab, keeps_mk_otp] | split | (split <;> try dsimp only))

theorem updCtl_keeps {u0 : State} {k v : Nat} {s : State} {act : State → Nat × State} (h1 : u0.Keeps s) (c_act : ∀ z0, u0.Keeps z0 → u0.Keeps (act z0).2) : u0.Keeps (updCtl k v s act) := by
  unfold updCtl
  dsimp only
  repeat' (first | (with_reducible first | assumption | apply keeps_ite | apply operWrite_keeps | apply updStatus_keeps | apply c_act) | (intro _; intros; try dsimp only) | simp only [keeps_mk, keeps_mk_scr, keeps_mk_tab, keeps_mk_scr_tab, keeps_mk_otp] | split | (split <;> try dsimp only))

theorem stagedShow_keeps {u0 : State} {s : State} (h1 : u0.Keeps s) : u0.Keeps (stagedShow s) := by
  unfold stagedShow
  repeat' (first | (with_reducible first | assumption | apply setB_keeps) | (intro _; intros; try dsimp only) | simp only [keeps_mk, keeps_mk_scr, keeps_mk_tab, keeps_mk_scr_tab, keeps_mk_otp] | split | (split <;> try dsimp only))

theorem stageStart_keeps {u0 : State} {v : Nat} {s : State} (h1 : u0.Keeps s) : u0.Keeps (stageStart v s) := by
  unfold stageStart
  dsimp only
  repeat' (first | (with_reducible first | assumption | apply keeps_ite | apply updEnter_keeps | apply report_keeps | apply operWrite_keeps | apply wr_keeps | apply writeRw_keeps | apply updStatus_keeps) | (intro _; intros; try dsimp only) | simp only [keeps_mk] | split | (split <;> try dsimp only))

theorem slotErased_keeps {u0 : State} {s : State} {typ slot len : Nat} (h1 : u0.Keeps s) : u0.Keeps (slotErased s typ slot len) := by
  unfold slotErased
  dsimp only
  repeat' (first | (with_reducible first | assumption | apply stagedShow_keeps | apply wearBlocks_keeps) | simp only [keeps_mk] | split | (split <;> try dsimp only))

theorem stageFailed_keeps {u0 : State} {s : State} {status blocks : Nat} (h1 : u0.Keeps s) : u0.Keeps (stageFailed s status blocks) := by
  unfold stageFailed
  dsimp only
  repeat' (first | (with_reducible first | assumption | apply setF_keeps | apply bump_keeps | apply updEnter_keeps | apply report_keeps | apply setB_keeps | apply updStatus_keeps) | simp only [keeps_mk] | split | (split <;> try dsimp only))

theorem slowProgram_keeps {u0 : State} {s : State} {b : Nat} (h1 : u0.Keeps s) : u0.Keeps (slowProgram s b) := by
  unfold slowProgram
  dsimp only
  repeat' (first | (with_reducible first | assumption | apply keeps_ite | apply report_keeps | apply bump_keeps) | simp only [keeps_mk] | split | (split <;> try dsimp only))

theorem stageDone_keeps {u0 : State} {s : State} {typ slot : Nat} {x : Image} (h1 : u0.Keeps s) : u0.Keeps (stageDone s typ slot x) := by
  unfold stageDone
  dsimp only
  repeat' (first | (with_reducible first | assumption | apply setF_keeps | apply stagedShow_keeps | apply updEnter_keeps | apply setB_keeps | apply slotProgram_keeps | apply updStatus_keeps) | simp only [keeps_mk] | split | (split <;> try dsimp only))

theorem stagingDone_keeps {u0 : State} {dmaOk nvmOk : Bool} {data : Bytes} {slow again : List Nat} {s : State} (h1 : u0.Keeps s) : u0.Keeps (stagingDone dmaOk nvmOk data slow again s) := by
  unfold stagingDone
  dsimp only
  repeat' (first | (with_reducible first | assumption | apply keeps_ite | apply keeps_foldl | apply wearBlocks_keeps | apply slowProgram_keeps | apply freshNat_keeps | apply stageDone_keeps | apply slotErased_keeps | apply stageFailed_keeps) | split | (split <;> try dsimp only))

theorem prepareDone_keeps {u0 : State} {s : State} (h1 : u0.Keeps s) : u0.Keeps (prepareDone s) := by
  unfold prepareDone
  dsimp only
  repeat' (first | (with_reducible first | assumption | apply keeps_ite | apply setF_keeps | apply updEnter_keeps | apply setB_keeps | apply wrWords_keeps | apply updStatus_keeps) | simp only [keeps_mk] | split | (split <;> try dsimp only))

theorem arm_keeps {u0 : State} {v : Nat} {s : State} (h1 : u0.Keeps s) : u0.Keeps (arm v s) := by
  unfold arm
  dsimp only
  repeat' (first | (with_reducible first | assumption | apply updCtl_keeps | apply updEnter_keeps) | (intro _; intros; try dsimp only) | simp only [keeps_mk] | split | (split <;> try dsimp only))

theorem installBank_keeps {u0 : State} {s : State} {b : Bank} (h1 : u0.Keeps s) : u0.Keeps (installBank s b) := by
  unfold installBank
  dsimp only
  refine keeps_foldl (keeps_of h1 rfl (grows_refl _) (fun c => ?_)) (fun _ _ h => wr_keeps h)
  exact ⟨mwf_foldl_mput regReset _ _ (mwf_filter _ _ _ c.1), c.2.1, mwf_foldl_mput keyStart _ _ (mwf_filter _ _ _ c.2.2)⟩

theorem judge_keeps {u0 : State} {s : State} (h1 : u0.Keeps s) : u0.Keeps (judge s) := by
  unfold judge
  dsimp only
  repeat' (first | (with_reducible first | assumption | apply keeps_foldl | apply wearShow_keeps | apply poolFollow_keeps | apply pfcFollow_keeps | apply xoffFollow_keeps | apply monitor_keeps | apply bkpFollow_keeps) | (intro _; intros; try dsimp only) | simp only [keeps_mk, keeps_mk_scr, keeps_mk_tab, keeps_mk_scr_tab, keeps_mk_otp] | split | (split <;> try dsimp only))

theorem switchBanks_keeps {u0 : State} {s : State} {new : Bank} (h1 : u0.Keeps s) : u0.Keeps (switchBanks s new) := by
  unfold switchBanks
  dsimp only
  repeat' (first | (with_reducible first | assumption | apply keeps_foldl | apply galFollow_keeps | apply bump_keeps | apply emptied_keeps | apply settle_keeps | apply putNode_keeps | apply flushQueue_keeps | apply judge_keeps | apply installBank_keeps) | (intro _; intros; try dsimp only) | simp only [keeps_mk] | split | (split <;> try dsimp only))

theorem preloadRun_keeps {u0 : State} {s : State} {c : HostCmd} (h1 : u0.Keeps s) : u0.Keeps (preloadRun s c) := by
  unfold preloadRun
  dsimp only
  repeat' (first | (with_reducible first | assumption | apply keeps_ite | apply mirrorEng_keeps | apply mirrorItem_keeps) | (intro _; intros; try dsimp only) | simp only [keeps_mk, keeps_mk_scr, keeps_mk_tab, keeps_mk_scr_tab, keeps_mk_otp] | split | (split <;> try dsimp only))

theorem preloads_keeps {u0 : State} {s : State} {x : Image} (h1 : u0.Keeps s) : u0.Keeps (preloads s x) := by
  unfold preloads
  repeat' (first | (with_reducible first | assumption | apply keeps_foldl | apply preloadRun_keeps) | (intro _; intros; try dsimp only) | simp only [keeps_mk, keeps_mk_scr, keeps_mk_tab, keeps_mk_scr_tab, keeps_mk_otp] | split | (split <;> try dsimp only))

theorem enterTrial_keeps {u0 : State} {s : State} (h1 : u0.Keeps s) : u0.Keeps (enterTrial s) := by
  unfold enterTrial
  dsimp only
  repeat' (first | (with_reducible first | assumption | apply dirChange_keeps | apply updEnter_keeps) | simp only [keeps_mk] | split | (split <;> try dsimp only))

theorem activation_keeps {u0 : State} {s : State} (h1 : u0.Keeps s) : u0.Keeps (activation s) := by
  unfold activation
  dsimp only
  repeat' (first | (with_reducible first | assumption | apply keeps_ite | apply switchBanks_keeps | apply bump_keeps | apply updEnter_keeps | apply preloads_keeps | apply enterTrial_keeps) | split | (split <;> try dsimp only))

theorem disarm_keeps {u0 : State} {v : Nat} {s : State} (h1 : u0.Keeps s) : u0.Keeps (disarm v s) := by
  unfold disarm
  dsimp only
  repeat' (first | (with_reducible first | assumption | apply activation_keeps | apply updCtl_keeps | apply updEnter_keeps) | (intro _; intros; try dsimp only) | split | (split <;> try dsimp only))

theorem firmwareSwapDone_keeps {u0 : State} {s : State} (h1 : u0.Keeps s) : u0.Keeps (firmwareSwapDone s) := by
  unfold firmwareSwapDone
  repeat' (first | (with_reducible first | assumption | apply keeps_ite | apply enterTrial_keeps) | (intro _; intros; try dsimp only) | simp only [keeps_mk, keeps_mk_scr, keeps_mk_tab, keeps_mk_scr_tab, keeps_mk_otp] | split | (split <;> try dsimp only))

theorem confirmImages_keeps {u0 : State} {s : State} (h1 : u0.Keeps s) : u0.Keeps (confirmImages s) := by
  unfold confirmImages
  dsimp only
  repeat' (first | (with_reducible first | assumption | apply setF_keeps | apply setB_keeps) | simp only [keeps_mk] | split | (split <;> try dsimp only))

theorem fallbackDue_keeps {u0 : State} {s : State} {b : Bool} (h1 : u0.Keeps s) : u0.Keeps (fallbackDue s b) := by
  unfold fallbackDue
  repeat' (first | (with_reducible first | assumption | apply levelIs_keeps | apply setB_keeps) | (intro _; intros; try dsimp only) | simp only [keeps_mk, keeps_mk_scr, keeps_mk_tab, keeps_mk_scr_tab, keeps_mk_otp] | split | (split <;> try dsimp only))

theorem trialOver_keeps {u0 : State} {s : State} (h1 : u0.Keeps s) : u0.Keeps (trialOver s) := by
  unfold trialOver
  dsimp only
  repeat' (first | (with_reducible first | assumption | apply fallbackDue_keeps | apply updEnter_keeps | apply setB_keeps) | simp only [keeps_mk] | split | (split <;> try dsimp only))

theorem confirmTrial_keeps {u0 : State} {v : Nat} {s : State} (h1 : u0.Keeps s) : u0.Keeps (confirmTrial v s) := by
  unfold confirmTrial
  dsimp only
  repeat' (first | (with_reducible first | assumption | apply updCtl_keeps | apply bump_keeps | apply stagedShow_keeps | apply dirChange_keeps | apply confirmImages_keeps | apply trialOver_keeps) | (intro _; intros; try dsimp only) | simp only [keeps_mk] | split | (split <;> try dsimp only))

theorem abandon_keeps {u0 : State} {v : Nat} {s : State} (h1 : u0.Keeps s) : u0.Keeps (abandon v s) := by
  unfold abandon
  repeat' (first | (with_reducible first | assumption | apply updCtl_keeps | apply fallbackDue_keeps) | (intro _; intros; try dsimp only) | split | (split <;> try dsimp only))

theorem trialExpire_keeps {u0 : State} {s : State} (h1 : u0.Keeps s) : u0.Keeps (trialExpire s) := by
  unfold trialExpire
  dsimp only
  repeat' (first | (with_reducible first | assumption | apply keeps_ite | apply fallbackDue_keeps) | simp only [keeps_mk] | split | (split <;> try dsimp only))

theorem fallbackStart_keeps {u0 : State} {s : State} (h1 : u0.Keeps s) : u0.Keeps (fallbackStart s) := by
  unfold fallbackStart
  dsimp only
  repeat' (first | (with_reducible first | assumption | apply keeps_ite | apply switchBanks_keeps | apply updEnter_keeps) | split | (split <;> try dsimp only))

theorem fallbackDone_keeps {u0 : State} {s : State} (h1 : u0.Keeps s) : u0.Keeps (fallbackDone s) := by
  unfold fallbackDone
  dsimp only
  repeat' (first | (with_reducible first | assumption | apply keeps_ite | apply bump_keeps | apply dirChange_keeps | apply setB_keeps | apply secondDrop_keeps | apply trialOver_keeps | apply resetEnter_keeps) | (intro _; intros; try dsimp only) | simp only [keeps_mk, keeps_mk_scr, keeps_mk_tab, keeps_mk_scr_tab, keeps_mk_otp] | split | (split <;> try dsimp only))

theorem restartAct_keeps {u0 : State} {v : Nat} {s : State} (h1 : u0.Keeps s) : u0.Keeps (restartAct v s) := by
  unfold restartAct
  dsimp only
  repeat' (first | (with_reducible first | assumption | apply keeps_ite | apply updCtl_keeps | apply updEnter_keeps | apply dirChange_keeps | apply resetEnter_keeps) | (intro _; intros; try dsimp only) | simp only [keeps_mk] | split | (split <;> try dsimp only))

theorem updDiscard_keeps {u0 : State} {v : Nat} {s : State} (h1 : u0.Keeps s) : u0.Keeps (updDiscard v s) := by
  unfold updDiscard
  dsimp only
  repeat' (first | (with_reducible first | assumption | apply stagedShow_keeps | apply updCtl_keeps | apply updEnter_keeps) | (intro _; intros; try dsimp only) | simp only [keeps_mk] | split | (split <;> try dsimp only))

theorem epochPassed_keeps {u0 : State} {old new d : Nat} {s : State} (h1 : u0.Keeps s) : u0.Keeps (epochPassed old new d s) := by
  unfold epochPassed
  dsimp only
  repeat' (first | (with_reducible first | assumption | apply keeps_ite | apply dumpEpoch_keeps) | split | (split <;> try dsimp only))

theorem stepped_keeps {u0 : State} {old : Ptp} {s : State} (h1 : u0.Keeps s) : u0.Keeps (stepped old s) := by
  unfold stepped
  dsimp only
  repeat' (first | (with_reducible first | assumption | apply keeps_foldl | apply setF_keeps | apply gateShow_keeps | apply bump_keeps | apply gateActivate_keeps | apply setB_keeps | apply sigSwapInstant_keeps | apply epochPassed_keeps | apply activation_keeps | apply pmStepped_keeps) | (intro _; intros; try dsimp only) | split | (split <;> try dsimp only))

theorem timStep_keeps {u0 : State} {k v : Nat} {s : State} {time : State → Ptp} (h1 : u0.Keeps s) : u0.Keeps (timStep k v s time) := by
  unfold timStep
  dsimp only
  repeat' (first | (with_reducible first | assumption | apply keeps_ite | apply stepped_keeps | apply operWrite_keeps | apply pwfTarget_keeps) | (intro _; intros; try dsimp only) | simp only [keeps_mk] | split | (split <;> try dsimp only))

theorem timSet_keeps {u0 : State} {v : Nat} {s : State} (h1 : u0.Keeps s) : u0.Keeps (timSet v s) := by
  unfold timSet
  repeat' (first | (with_reducible first | assumption | apply timStep_keeps) | (intro _; intros; try dsimp only) | simp only [keeps_mk, keeps_mk_scr, keeps_mk_tab, keeps_mk_scr_tab, keeps_mk_otp] | split | (split <;> try dsimp only))

theorem timAdd_keeps {u0 : State} {v : Nat} {s : State} (h1 : u0.Keeps s) : u0.Keeps (timAdd v s) := by
  unfold timAdd
  repeat' (first | (with_reducible first | assumption | apply timStep_keeps) | (intro _; intros; try dsimp only) | simp only [keeps_mk, keeps_mk_scr, keeps_mk_tab, keeps_mk_scr_tab, keeps_mk_otp] | split | (split <;> try dsimp only))

end Sys2Proof.Machine
end

