-- ==== Sys2Proof/Laws/KeepsPair.lean ====
section
/-! SUPPORT. What the operations of Machine/Pair.lean keep: the queue of commands, the identity of the part, canonical stores. -/

namespace Sys2Proof.Machine

theorem roleFollow_keeps {u0 : State} {s t : State} (h1 : u0.Keeps s) (h2 : u0.Keeps t) : u0.Keeps (roleFollow s t) := by
  unfold roleFollow
  dsimp only
  repeat' (first | (with_reducible first | assumption | apply keeps_ite | apply replayStart_keeps | apply settle_keeps | apply pairShow_keeps | apply waitShow_keeps | apply resyncAsk_keeps | apply relockRelease_keeps) | (intro _; intros; try dsimp only) | simp only [keeps_mk, keeps_mk_scr, keeps_mk_tab, keeps_mk_scr_tab, keeps_mk_otp] | split | (split <;> try dsimp only))

theorem gapOver_keeps {u0 : State} {s : State} (h1 : u0.Keeps s) : u0.Keeps (gapOver s) := by
  unfold gapOver
  dsimp only
  repeat' (first | (with_reducible first | assumption | apply keeps_ite | apply settle_keeps) | simp only [keeps_mk] | split | (split <;> try dsimp only))

theorem roleEnter_keeps {u0 : State} {s : State} {r : Nat} {lease : Bool} (h1 : u0.Keeps s) : u0.Keeps (roleEnter s r lease) := by
  unfold roleEnter
  dsimp only
  repeat' (first | (with_reducible first | assumption | apply setF_keeps | apply setB_keeps | apply roleFollow_keeps) | simp only [keeps_mk] | split | (split <;> try dsimp only))

theorem withdrawNow_keeps {u0 : State} {s : State} {why : Nat} (h1 : u0.Keeps s) : u0.Keeps (withdrawNow s why) := by
  unfold withdrawNow
  repeat' (first | (with_reducible first | assumption | apply setF_keeps | apply roleEnter_keeps) | (intro _; intros; try dsimp only) | simp only [keeps_mk, keeps_mk_scr, keeps_mk_tab, keeps_mk_scr_tab, keeps_mk_otp] | split | (split <;> try dsimp only))

theorem digestCheck_keeps {u0 : State} {s : State} (h1 : u0.Keeps s) : u0.Keeps (digestCheck s) := by
  unfold digestCheck
  repeat' (first | (with_reducible first | assumption | apply keeps_ite | apply withdrawNow_keeps | apply setB_keeps | apply pairShow_keeps) | split | (split <;> try dsimp only))

theorem landingBad_keeps {u0 : State} {s : State} {k : Nat} (h1 : u0.Keeps s) : u0.Keeps (landingBad s k) := by
  unfold landingBad
  repeat' (first | (with_reducible first | assumption | apply report_keeps | apply bump_keeps | apply landing_keeps) | (intro _; intros; try dsimp only) | simp only [keeps_mk, keeps_mk_scr, keeps_mk_tab, keeps_mk_scr_tab, keeps_mk_otp] | split | (split <;> try dsimp only))

theorem landingAck_keeps {u0 : State} {s : State} {typ epoch status : Nat} (h1 : u0.Keeps s) : u0.Keeps (landingAck s typ epoch status) := by
  unfold landingAck
  repeat' (first | (with_reducible first | assumption | apply landingSend_keeps) | (intro _; intros; try dsimp only) | simp only [keeps_mk, keeps_mk_scr, keeps_mk_tab, keeps_mk_scr_tab, keeps_mk_otp] | split | (split <;> try dsimp only))

theorem landingRefused_keeps {u0 : State} {s : State} {typ epoch : Nat} (h1 : u0.Keeps s) : u0.Keeps (landingRefused s typ epoch) := by
  unfold landingRefused
  repeat' (first | (with_reducible first | assumption | apply landingAck_keeps | apply landingBad_keeps) | (intro _; intros; try dsimp only) | simp only [keeps_mk, keeps_mk_scr, keeps_mk_tab, keeps_mk_scr_tab, keeps_mk_otp] | split | (split <;> try dsimp only))

theorem roleMessage_keeps {u0 : State} {s : State} {typ epoch reason : Nat} (h1 : u0.Keeps s) : u0.Keeps (roleMessage s typ epoch reason) := by
  unfold roleMessage
  dsimp only
  repeat' (first | (with_reducible first | assumption | apply keeps_ite | apply setF_keeps | apply digestCheck_keeps | apply withdrawNow_keeps | apply landingRefused_keeps | apply roleEnter_keeps | apply setB_keeps | apply landingAck_keeps | apply pairShow_keeps) | simp only [keeps_mk] | split | (split <;> try dsimp only))

theorem landingCurrent_keeps {u0 : State} {s : State} {typ body : Nat} (h1 : u0.Keeps s) : u0.Keeps (landingCurrent s typ body) := by
  unfold landingCurrent
  dsimp only
  repeat' (first | (with_reducible first | assumption | apply keeps_ite | apply setF_keeps | apply roleMessage_keeps | apply landingBad_keeps | apply setB_keeps | apply levelOff_keeps | apply landingAck_keeps) | simp only [keeps_mk] | split | (split <;> try dsimp only))

theorem landing_keeps {u0 : State} {sync typ body crc : Nat} {framed : Bool} {s : State} (h1 : u0.Keeps s) : u0.Keeps (landing sync typ body crc framed s) := by
  unfold landing
  dsimp only
  repeat' (first | (with_reducible first | assumption | apply keeps_ite | apply landingCurrent_keeps | apply landingBad_keeps) | (intro _; intros; try dsimp only) | simp only [keeps_mk, keeps_mk_scr, keeps_mk_tab, keeps_mk_scr_tab, keeps_mk_otp] | split | (split <;> try dsimp only))

theorem arbLoss_keeps {u0 : State} {s : State} (h1 : u0.Keeps s) : u0.Keeps (arbLoss s) := by
  unfold arbLoss
  repeat' (first | (with_reducible first | assumption | apply keeps_ite | apply levelOn_keeps | apply setB_keeps) | (intro _; intros; try dsimp only) | simp only [keeps_mk, keeps_mk_scr, keeps_mk_tab, keeps_mk_scr_tab, keeps_mk_otp] | split | (split <;> try dsimp only))

theorem leaseExpire_keeps {u0 : State} {s : State} (h1 : u0.Keeps s) : u0.Keeps (leaseExpire s) := by
  unfold leaseExpire
  repeat' (first | (with_reducible first | assumption | apply keeps_ite | apply pairShow_keeps | apply setB_keeps) | (intro _; intros; try dsimp only) | simp only [keeps_mk, keeps_mk_scr, keeps_mk_tab, keeps_mk_scr_tab, keeps_mk_otp] | split | (split <;> try dsimp only))

theorem healthSend_keeps {u0 : State} {s : State} (h1 : u0.Keeps s) : u0.Keeps (healthSend s) := by
  unfold healthSend
  dsimp only
  repeat' (first | (with_reducible first | assumption | apply keeps_ite | apply landingSend_keeps) | simp only [keeps_mk] | split | (split <;> try dsimp only))

theorem helloSend_keeps {u0 : State} {s : State} (h1 : u0.Keeps s) : u0.Keeps (helloSend s) := by
  unfold helloSend
  dsimp only
  repeat' (first | (with_reducible first | assumption | apply keeps_ite | apply landingSend_keeps) | simp only [keeps_mk] | split | (split <;> try dsimp only))

theorem faultMsgSend_keeps {u0 : State} {s : State} (h1 : u0.Keeps s) : u0.Keeps (faultMsgSend s) := by
  unfold faultMsgSend
  dsimp only
  repeat' (first | (with_reducible first | assumption | apply landingFault_keeps) | simp only [keeps_mk] | split | (split <;> try dsimp only))

theorem galleryHelloSend_keeps {u0 : State} {s : State} (h1 : u0.Keeps s) : u0.Keeps (galleryHelloSend s) := by
  unfold galleryHelloSend
  dsimp only
  repeat' (first | (with_reducible first | assumption | apply keeps_ite | apply galControl_keeps) | simp only [keeps_mk] | split | (split <;> try dsimp only))

theorem galleryHelloReceive_keeps {u0 : State} {partner : Nat} {digest : Bytes} {alt : Option Bytes} {resync : Bool} {s : State} (h1 : u0.Keeps s) : u0.Keeps (galleryHelloReceive partner digest alt resync s) := by
  unfold galleryHelloReceive
  dsimp only
  repeat' (first | (with_reducible first | assumption | apply keeps_ite | apply galFollow_keeps | apply setF_keeps | apply replayStart_keeps | apply digestCheck_keeps | apply resyncAsk_keeps | apply pairShow_keeps) | simp only [keeps_mk] | split | (split <;> try dsimp only))

theorem galleryLoss_keeps {u0 : State} {s : State} (h1 : u0.Keeps s) : u0.Keeps (galleryLoss s) := by
  unfold galleryLoss
  dsimp only
  repeat' (first | (with_reducible first | assumption | apply galFollow_keeps) | simp only [keeps_mk] | split | (split <;> try dsimp only))

theorem recordBad_keeps {u0 : State} {s : State} (h1 : u0.Keeps s) : u0.Keeps (recordBad s) := by
  unfold recordBad
  repeat' (first | (with_reducible first | assumption | apply report_keeps | apply bump_keeps) | (intro _; intros; try dsimp only) | simp only [keeps_mk, keeps_mk_scr, keeps_mk_tab, keeps_mk_scr_tab, keeps_mk_otp] | split | (split <;> try dsimp only))

theorem mirroredAct_keeps {u0 : State} {s : State} {a v : Nat} (h1 : u0.Keeps s) : u0.Keeps (mirroredAct s a v) := by
  unfold mirroredAct
  repeat' (first | (with_reducible first | assumption | apply keeps_ite | apply adminSet_keeps | apply protCtl_keeps | apply gateCtl_keeps | apply writeRw_keeps) | split | (split <;> try dsimp only))

theorem mirrorFlush_keeps {u0 : State} {c : HostCmd} {s : State} (h1 : u0.Keeps s) : u0.Keeps (mirrorFlush c s).s := by
  unfold mirrorFlush
  dsimp only
  repeat' (first | (with_reducible first | assumption | apply keeps_ite | apply flushTake_keeps) | (intro _; intros; try dsimp only) | simp only [keeps_mk, keeps_mk_scr, keeps_mk_tab, keeps_mk_scr_tab, keeps_mk_otp] | split | (split <;> try dsimp only))

theorem itemApply_keeps {u0 : State} {s : State} {x : CmdItem} (h1 : u0.Keeps s) : u0.Keeps (itemApply s x) := by
  unfold itemApply
  dsimp only
  repeat' (first | (with_reducible first | assumption | apply keeps_ite | apply retryAfterMove_keeps | apply mirrorFlush_keeps | apply bump_keeps | apply report_keeps | apply recordBad_keeps | apply mirroredAct_keeps | apply mirrorEng_keeps) | simp only [keeps_mk] | split | (split <;> try dsimp only))

theorem lagShow_keeps {u0 : State} {s : State} (h1 : u0.Keeps s) : u0.Keeps (lagShow s) := by
  unfold lagShow
  dsimp only
  repeat' (first | (with_reducible first | assumption | apply setPeak_keeps) | simp only [keeps_mk] | split | (split <;> try dsimp only))

theorem rxAdvance_keeps {u0 : State} {s : State} {y1 : Nat} (h1 : u0.Keeps s) : u0.Keeps (rxAdvance s y1) := by
  induction y1 generalizing s with
  | zero =>
    unfold rxAdvance
    repeat' (first | (with_reducible first | assumption | apply ih | apply keeps_ite | apply keeps_foldl | apply keeps_foldl_snd | apply keeps_foldl_fst) | (intro _; intros; try dsimp only) | simp only [keeps_mk, keeps_mk_scr, keeps_mk_tab, keeps_mk_scr_tab, keeps_mk_otp] | split | (split <;> try dsimp only))
  | succ _ ih =>
    unfold rxAdvance
    dsimp only
    repeat' (first | (with_reducible first | assumption | apply ih | apply keeps_ite) | simp only [keeps_mk] | split | (split <;> try dsimp only))

theorem itemReceive_keeps {u0 : State} {s : State} {q : Nat} {x : CmdItem} (h1 : u0.Keeps s) : u0.Keeps (itemReceive s q x) := by
  unfold itemReceive
  dsimp only
  repeat' (first | (with_reducible first | assumption | apply keeps_ite | apply bump_keeps | apply galControl_keeps | apply report_keeps | apply rxAdvance_keeps | apply lagShow_keeps) | simp only [keeps_mk] | split | (split <;> try dsimp only))

theorem itemNext_keeps {u0 : State} {s : State} (h1 : u0.Keeps s) : u0.Keeps (itemNext s) := by
  unfold itemNext
  dsimp only
  repeat' (first | (with_reducible first | assumption | apply setF_keeps | apply perf_keeps | apply itemApply_keeps | apply lagShow_keeps) | simp only [keeps_mk] | split | (split <;> try dsimp only))

theorem cmdItemApply_keeps {u0 : State} {rx : Option (Nat × CmdItem)} {s : State} (h1 : u0.Keeps s) : u0.Keeps (cmdItemApply rx s) := by
  unfold cmdItemApply
  dsimp only
  repeat' (first | (with_reducible first | assumption | apply keeps_ite | apply setF_keeps | apply itemReceive_keeps | apply perf_keeps | apply itemNext_keeps | apply itemApply_keeps) | simp only [keeps_mk] | split | (split <;> try dsimp only))

theorem replayAgain_keeps {u0 : State} {s : State} {q : Nat} (h1 : u0.Keeps s) : u0.Keeps (replayAgain s q) := by
  unfold replayAgain
  dsimp only
  repeat' (first | (with_reducible first | assumption | apply keeps_ite) | simp only [keeps_mk] | split | (split <;> try dsimp only))

theorem nackReceive_keeps {u0 : State} {q : Nat} {replay : Bool} {s : State} (h1 : u0.Keeps s) : u0.Keeps (nackReceive q replay s) := by
  unfold nackReceive
  dsimp only
  repeat' (first | (with_reducible first | assumption | apply keeps_ite | apply replayAgain_keeps | apply replayStart_keeps) | simp only [keeps_mk] | split | (split <;> try dsimp only))

theorem ackStall_keeps {u0 : State} {s : State} (h1 : u0.Keeps s) : u0.Keeps (ackStall s) := by
  unfold ackStall
  dsimp only
  repeat' (first | (with_reducible first | assumption | apply keeps_ite) | simp only [keeps_mk] | split | (split <;> try dsimp only))

theorem galQueue_keeps {u0 : State} {s : State} {k : Nat} {l : List GalCell} (h1 : u0.Keeps s) : u0.Keeps (galQueue s k l) := by
  unfold galQueue
  dsimp only
  repeat' (first | with_reducible assumption | simp only [keeps_mk] | split | (split <;> try dsimp only))

theorem stateSnapshot_keeps {u0 : State} {s : State} (h1 : u0.Keeps s) : u0.Keeps (stateSnapshot s) := by
  unfold stateSnapshot
  dsimp only
  repeat' (first | (with_reducible first | assumption | apply keeps_ite | apply keeps_foldl | apply polFill_keeps | apply bumpN_keeps | apply galQueue_keeps) | (intro _; intros; try dsimp only) | simp only [keeps_mk] | split | (split <;> try dsimp only))

theorem polRestore_keeps {u0 : State} {s : State} {i c e : Nat} (h1 : u0.Keeps s) : u0.Keeps (polRestore s i c e) := by
  unfold polRestore
  dsimp only
  repeat' (first | (with_reducible first | assumption | apply tabPut_keeps) | simp only [keeps_mk_tab] | split | (split <;> try dsimp only))

theorem nodeRestore_keeps {u0 : State} {s : State} {i : Nat} {a b : Int} (h1 : u0.Keeps s) : u0.Keeps (nodeRestore s i a b) := by
  unfold nodeRestore
  dsimp only
  repeat' (first | (with_reducible first | assumption | apply putTe_keeps) | (intro _; intros; try dsimp only) | simp only [keeps_mk, keeps_mk_scr, keeps_mk_tab, keeps_mk_scr_tab, keeps_mk_otp] | split | (split <;> try dsimp only))

theorem stateRecordApply_keeps {u0 : State} {r : Option (Nat × Nat × Int × Int)} {s : State} (h1 : u0.Keeps s) : u0.Keeps (stateRecordApply r s) := by
  unfold stateRecordApply
  dsimp only
  repeat' (first | (with_reducible first | assumption | apply keeps_ite | apply bump_keeps | apply nodeRestore_keeps | apply perf_keeps | apply recordBad_keeps | apply polRestore_keeps) | simp only [keeps_mk] | split | (split <;> try dsimp only))

theorem baselineLatch_keeps {u0 : State} {s : State} (h1 : u0.Keeps s) : u0.Keeps (baselineLatch s) := by
  unfold baselineLatch
  dsimp only
  repeat' (first | (with_reducible first | assumption | apply keeps_ite | apply galQueue_keeps) | simp only [keeps_mk] | split | (split <;> try dsimp only))

theorem baselineApply_keeps {u0 : State} {i frames bytes : Nat} {s : State} (h1 : u0.Keeps s) : u0.Keeps (baselineApply i frames bytes s) := by
  unfold baselineApply
  dsimp only
  repeat' (first | (with_reducible first | assumption | apply keeps_ite | apply recordBad_keeps) | simp only [keeps_mk] | split | (split <;> try dsimp only))

theorem pairCtl_keeps {u0 : State} {s : State} {v : Nat} (h1 : u0.Keeps s) : u0.Keeps (pairCtl s v) := by
  unfold pairCtl
  dsimp only
  repeat' (first | (with_reducible first | assumption | apply keeps_ite | apply replayStart_keeps | apply syncLost_keeps | apply setB_keeps) | (intro _; intros; try dsimp only) | simp only [keeps_mk, keeps_mk_scr, keeps_mk_tab, keeps_mk_scr_tab, keeps_mk_otp] | split | (split <;> try dsimp only))

theorem resync_keeps {u0 : State} {v : Nat} {s : State} (h1 : u0.Keeps s) : u0.Keeps (resync v s) := by
  unfold resync
  repeat' (first | (with_reducible first | assumption | apply operWrite_keeps | apply pairCtl_keeps) | (intro _; intros; try dsimp only) | simp only [keeps_mk, keeps_mk_scr, keeps_mk_tab, keeps_mk_scr_tab, keeps_mk_otp] | split | (split <;> try dsimp only))

theorem replayRun_keeps {u0 : State} {y1 : Nat} {y2 : State} (h1 : u0.Keeps y2) : u0.Keeps (replayRun y1 y2) := by
  induction y1 generalizing y2 with
  | zero =>
    unfold replayRun
    repeat' (first | (with_reducible first | assumption | apply ih | apply keeps_ite | apply keeps_foldl | apply keeps_foldl_snd | apply keeps_foldl_fst | apply itemApply_keeps) | (intro _; intros; try dsimp only) | simp only [keeps_mk, keeps_mk_scr, keeps_mk_tab, keeps_mk_scr_tab, keeps_mk_otp] | split | (split <;> try dsimp only))
  | succ _ ih =>
    unfold replayRun
    dsimp only
    repeat' (first | (with_reducible first | assumption | apply ih | apply keeps_foldl | apply itemApply_keeps) | simp only [keeps_mk] | split | (split <;> try dsimp only))

theorem replayOpen_keeps {u0 : State} {s : State} (h1 : u0.Keeps s) : u0.Keeps (replayOpen s) := by
  unfold replayOpen
  dsimp only
  repeat' (first | (with_reducible first | assumption | apply keeps_ite | apply pairShow_keeps | apply setB_keeps) | simp only [keeps_mk] | split | (split <;> try dsimp only))

theorem replayRegion_keeps {u0 : State} {q : Nat} {items : List CmdItem} {s : State} (h1 : u0.Keeps s) : u0.Keeps (replayRegion q items s) := by
  unfold replayRegion
  dsimp only
  repeat' (first | (with_reducible first | assumption | apply keeps_ite | apply bump_keeps | apply galControl_keeps | apply report_keeps | apply replayRun_keeps | apply replayOpen_keeps) | simp only [keeps_mk] | split | (split <;> try dsimp only))

theorem resyncComplete_keeps {u0 : State} {q : Nat} {s : State} (h1 : u0.Keeps s) : u0.Keeps (resyncComplete q s) := by
  unfold resyncComplete
  dsimp only
  repeat' (first | (with_reducible first | assumption | apply keeps_ite | apply setF_keeps | apply bump_keeps | apply setB_keeps | apply pairShow_keeps) | simp only [keeps_mk] | split | (split <;> try dsimp only))

theorem marginMeasure_keeps {u0 : State} {margins : List Nat} {s : State} (h1 : u0.Keeps s) : u0.Keeps (marginMeasure margins s) := by
  unfold marginMeasure
  dsimp only
  repeat' (first | (with_reducible first | assumption | apply keeps_ite) | simp only [keeps_mk] | split | (split <;> try dsimp only))

theorem galleryLaneCalibration_keeps {u0 : State} {l : Fin 4} {ok : Bool} {s : State} (h1 : u0.Keeps s) : u0.Keeps (galleryLaneCalibration l ok s) := by
  unfold galleryLaneCalibration
  dsimp only
  repeat' (first | (with_reducible first | assumption | apply keeps_ite | apply galFollow_keeps | apply galLaneOut_keeps) | simp only [keeps_mk] | split | (split <;> try dsimp only))

end Sys2Proof.Machine
end

