-- ==== Sys2Proof/Laws/KeepsTest.lean ====
section
/-! SUPPORT. What the operations of Machine/Test.lean keep: the queue of commands, the identity of the part, canonical stores. -/

namespace Sys2Proof.Machine

theorem tapData_keeps {u0 : State} {s : State} {op : Nat} (h1 : u0.Keeps s) : u0.Keeps (tapData s op).2 := by
  unfold tapData
  dsimp only
  repeat' (first | (with_reducible first | assumption | apply freshNat_keeps) | split | (split <;> try dsimp only))
theorem tapData_keeps_of {u0 : State} {s : State} {op : Nat} {v0 : (Nat × Nat)} {v1 : State} (e : tapData s op = (v0, v1)) (h1 : u0.Keeps s) : u0.Keeps v1 := by
  have h : u0.Keeps (tapData s op).2 := tapData_keeps h1 
  rw [e] at h
  exact h

theorem tapForce_keeps {u0 : State} {s : State} {op : Nat} (h1 : u0.Keeps s) : u0.Keeps (tapForce s op) := by
  unfold tapForce
  dsimp only
  repeat' (first | (with_reducible first | assumption | apply keeps_ite | apply setF_keeps | apply freshNat_keeps | apply setB_keeps | apply tapData_keeps) | simp only [keeps_mk] | split | (split <;> try dsimp only))

theorem scanLeft_keeps {u0 : State} {s t : State} (h1 : u0.Keeps s) (h2 : u0.Keeps t) : u0.Keeps (scanLeft s t) := by
  unfold scanLeft
  repeat' (first | (with_reducible first | assumption | apply keeps_ite | apply resetEnter_keeps) | (intro _; intros; try dsimp only) | simp only [keeps_mk, keeps_mk_scr, keeps_mk_tab, keeps_mk_scr_tab, keeps_mk_otp] | split | (split <;> try dsimp only))

theorem tapLoad_keeps {u0 : State} {op : Nat} {s : State} (h1 : u0.Keeps s) : u0.Keeps (tapLoad op s) := by
  unfold tapLoad
  repeat' (first | (with_reducible first | assumption | apply keeps_ite | apply tapForce_keeps | apply bump_keeps | apply scanLeft_keeps) | (intro _; intros; try dsimp only) | simp only [keeps_mk, keeps_mk_scr, keeps_mk_tab, keeps_mk_scr_tab, keeps_mk_otp] | split | (split <;> try dsimp only))

theorem tapReset_keeps {u0 : State} {s : State} (h1 : u0.Keeps s) : u0.Keeps (tapReset s) := by
  unfold tapReset
  repeat' (first | (with_reducible first | assumption | apply keeps_ite | apply tapForce_keeps | apply scanLeft_keeps) | (intro _; intros; try dsimp only) | simp only [keeps_mk, keeps_mk_scr, keeps_mk_tab, keeps_mk_scr_tab, keeps_mk_otp] | split | (split <;> try dsimp only))

theorem laneRestore_keeps {u0 : State} {s : State} {x : Nat} (h1 : u0.Keeps s) : u0.Keeps (laneRestore s x) := by
  unfold laneRestore
  dsimp only
  repeat' (first | (with_reducible first | assumption | apply keeps_ite | apply keeps_foldl | apply retrainStart_keeps) | simp only [keeps_mk] | split | (split <;> try dsimp only))

theorem laneLoopDrop_keeps {u0 : State} {s : State} {x : Nat} (h1 : u0.Keeps s) : u0.Keeps (laneLoopDrop s x) := by
  unfold laneLoopDrop
  repeat' (first | (with_reducible first | assumption | apply keeps_ite | apply keeps_foldl | apply loopDrop_keeps) | (intro _; intros; try dsimp only) | simp only [keeps_mk, keeps_mk_scr, keeps_mk_tab, keeps_mk_scr_tab, keeps_mk_otp] | split | (split <;> try dsimp only))

theorem laneTestConfig_keeps {u0 : State} {x v : Nat} {s : State} (h1 : u0.Keeps s) : u0.Keeps (laneTestConfig x v s) := by
  unfold laneTestConfig
  dsimp only
  repeat' (first | (with_reducible first | assumption | apply keeps_ite | apply galFollow_keeps | apply laneLoopDrop_keeps | apply settle_keeps | apply setB_keeps | apply operWrite_keeps | apply wr_keeps | apply laneRestore_keeps | apply pwfTarget_keeps) | (intro _; intros; try dsimp only) | simp only [keeps_mk, keeps_mk_scr, keeps_mk_tab, keeps_mk_scr_tab, keeps_mk_otp] | split | (split <;> try dsimp only))

theorem checkerLockChange_keeps {u0 : State} {x : Nat} {locked : Bool} {s : State} (h1 : u0.Keeps s) : u0.Keeps (checkerLockChange x locked s) := by
  unfold checkerLockChange
  repeat' (first | (with_reducible first | assumption | apply keeps_ite | apply setB_keeps) | (intro _; intros; try dsimp only) | simp only [keeps_mk, keeps_mk_scr, keeps_mk_tab, keeps_mk_scr_tab, keeps_mk_otp] | split | (split <;> try dsimp only))

theorem checkerBitError_keeps {u0 : State} {x n : Nat} {s : State} (h1 : u0.Keeps s) : u0.Keeps (checkerBitError x n s) := by
  unfold checkerBitError
  repeat' (first | (with_reducible first | assumption | apply keeps_ite | apply bumpN_keeps) | (intro _; intros; try dsimp only) | simp only [keeps_mk, keeps_mk_scr, keeps_mk_tab, keeps_mk_scr_tab, keeps_mk_otp] | split | (split <;> try dsimp only))

theorem probeSend_keeps {u0 : State} {standby : Bool} {s : State} {n : Nat} (h1 : u0.Keeps s) : u0.Keeps (probeSend standby s n) := by
  unfold probeSend
  dsimp only
  repeat' (first | (with_reducible first | assumption | apply keeps_ite | apply bump_keeps | apply enterPipe_keeps) | simp only [keeps_mk] | split | (split <;> try dsimp only))

theorem probeGo_keeps {u0 : State} {v : Nat} {s : State} (h1 : u0.Keeps s) : u0.Keeps (probeGo v s) := by
  unfold probeGo
  dsimp only
  repeat' (first | (with_reducible first | assumption | apply keeps_ite | apply setF_keeps | apply bump_keeps | apply operWrite_keeps | apply probeSend_keeps) | (intro _; intros; try dsimp only) | simp only [keeps_mk, keeps_mk_scr, keeps_mk_tab, keeps_mk_scr_tab, keeps_mk_otp] | split | (split <;> try dsimp only))

theorem standbyProbe_keeps {u0 : State} {s : State} (h1 : u0.Keeps s) : u0.Keeps (standbyProbe s) := by
  unfold standbyProbe
  repeat' (first | (with_reducible first | assumption | apply keeps_ite | apply keeps_foldl | apply probeSend_keeps) | (intro _; intros; try dsimp only) | simp only [keeps_mk, keeps_mk_scr, keeps_mk_tab, keeps_mk_scr_tab, keeps_mk_otp] | split | (split <;> try dsimp only))

theorem probeCapture_keeps {u0 : State} {n : Nat} {frame : Bytes} {s : State} (h1 : u0.Keeps s) : u0.Keeps (probeCapture n frame s) := by
  unfold probeCapture
  repeat' (first | (with_reducible first | assumption | apply keeps_ite | apply bump_keeps | apply probeEnd_keeps | apply probeFail_keeps) | split | (split <;> try dsimp only))

theorem probeTimeout_keeps {u0 : State} {n : Nat} {s : State} (h1 : u0.Keeps s) : u0.Keeps (probeTimeout n s) := by
  unfold probeTimeout
  repeat' (first | (with_reducible first | assumption | apply probeEnd_keeps | apply probeFail_keeps) | split | (split <;> try dsimp only))

theorem meminjCtl_keeps {u0 : State} {s : State} {v : Nat} (h1 : u0.Keeps s) : u0.Keeps (meminjCtl s v) := by
  unfold meminjCtl
  dsimp only
  repeat' (first | (with_reducible first | assumption | apply keeps_ite | apply setF_keeps | apply setB_keeps | apply pwfTarget_keeps) | (intro _; intros; try dsimp only) | simp only [keeps_mk, keeps_mk_scr, keeps_mk_tab, keeps_mk_scr_tab, keeps_mk_otp] | split | (split <;> try dsimp only))

theorem memoryInjectArm_keeps {u0 : State} {v : Nat} {s : State} (h1 : u0.Keeps s) : u0.Keeps (memoryInjectArm v s) := by
  unfold memoryInjectArm
  dsimp only
  repeat' (first | (with_reducible first | assumption | apply operWrite_keeps | apply meminjCtl_keeps) | (intro _; intros; try dsimp only) | simp only [keeps_mk, keeps_mk_scr, keeps_mk_tab, keeps_mk_scr_tab, keeps_mk_otp] | split | (split <;> try dsimp only))

end Sys2Proof.Machine
end

