-- ==== Sys2Proof/Laws/KeepsRegs.lean ====
section
/-! SUPPORT. What the operations of Machine/Regs.lean keep: the queue of commands, the identity of the part, canonical stores. -/

namespace Sys2Proof.Machine

theorem rcClear_keeps {u0 : State} {s : State} {a : Nat} (h1 : u0.Keeps s) : u0.Keeps (rcClear s a) := by
  unfold rcClear
  dsimp only
  repeat' (first | (with_reducible first | assumption | apply keeps_ite | apply setF_keeps | apply wr_keeps) | simp only [keeps_mk] | split | (split <;> try dsimp only))

theorem latchDrop_keeps {u0 : State} {s : State} {f a : Nat} (h1 : u0.Keeps s) : u0.Keeps (latchDrop s f a) := by
  unfold latchDrop
  repeat' (first | with_reducible assumption | simp only [keeps_mk] | split | (split <;> try dsimp only))

theorem latchPut_keeps {u0 : State} {s : State} {f a : Nat} (h1 : u0.Keeps s) : u0.Keeps (latchPut s f a) := by
  unfold latchPut
  repeat' (first | with_reducible assumption | simp only [keeps_mk] | split | (split <;> try dsimp only))

theorem loLatch_keeps {u0 : State} {s : State} {f a : Nat} (h1 : u0.Keeps s) : u0.Keeps (loLatch s f a) := by
  unfold loLatch
  dsimp only
  repeat' (first | (with_reducible first | assumption | apply keeps_ite | apply latchPut_keeps) | (intro _; intros; try dsimp only) | simp only [keeps_mk, keeps_mk_scr, keeps_mk_tab, keeps_mk_scr_tab, keeps_mk_otp] | split | (split <;> try dsimp only))

theorem regRead_keeps {u0 : State} {s : State} {f a : Nat} (h1 : u0.Keeps s) : u0.Keeps (regRead s f a).2 := by
  unfold regRead
  repeat' (first | (with_reducible first | assumption | apply latchDrop_keeps | apply rcClear_keeps | apply loLatch_keeps) | split | (split <;> try dsimp only))
theorem regRead_keeps_of {u0 : State} {s : State} {f a : Nat} {v0 : Nat} {v1 : State} (e : regRead s f a = (v0, v1)) (h1 : u0.Keeps s) : u0.Keeps v1 := by
  have h : u0.Keeps (regRead s f a).2 := regRead_keeps h1 
  rw [e] at h
  exact h

theorem windowRead_keeps {u0 : State} {s : State} {a : Nat} (h1 : u0.Keeps s) : u0.Keeps (windowRead s a).2 := by
  unfold windowRead
  repeat' (first | (with_reducible first | assumption | apply scrWindowRead_keeps) | split | (split <;> try dsimp only))
theorem windowRead_keeps_of {u0 : State} {s : State} {a : Nat} {v0 : Nat} {v1 : State} (e : windowRead s a = (v0, v1)) (h1 : u0.Keeps s) : u0.Keeps v1 := by
  have h : u0.Keeps (windowRead s a).2 := windowRead_keeps h1 
  rw [e] at h
  exact h

theorem bar0Read_keeps {u0 : State} {s : State} {f addr : Nat} (h1 : u0.Keeps s) : u0.Keeps (bar0Read s f addr).2 := by
  unfold bar0Read
  repeat' (first | (with_reducible first | assumption | apply regRead_keeps | apply windowRead_keeps) | split | (split <;> try dsimp only))
theorem bar0Read_keeps_of {u0 : State} {s : State} {f addr : Nat} {v0 : Nat} {v1 : State} (e : bar0Read s f addr = (v0, v1)) (h1 : u0.Keeps s) : u0.Keeps v1 := by
  have h : u0.Keeps (bar0Read s f addr).2 := bar0Read_keeps h1 
  rw [e] at h
  exact h

theorem bar2Read_keeps {u0 : State} {s : State} {off : Nat} (h1 : u0.Keeps s) : u0.Keeps (bar2Read s off).2 := by
  unfold bar2Read
  dsimp only
  repeat' (first | (with_reducible first | assumption | apply freshNat_keeps | apply wordEcc_keeps) | split | (split <;> try dsimp only))
theorem bar2Read_keeps_of {u0 : State} {s : State} {off : Nat} {v0 : Nat} {v1 : State} (e : bar2Read s off = (v0, v1)) (h1 : u0.Keeps s) : u0.Keeps v1 := by
  have h : u0.Keeps (bar2Read s off).2 := bar2Read_keeps h1 
  rw [e] at h
  exact h

theorem readBack_keeps {u0 : State} {x : Nat × State} (h1 : u0.Keeps x.2) : u0.Keeps (readBack x) := by
  unfold readBack
  dsimp only
  repeat' (first | with_reducible assumption | simp only [keeps_mk] | split | (split <;> try dsimp only))

theorem busRead_keeps {u0 : State} {f : Nat} {bar2 : Bool} {addr width : Nat} {s : State} (h1 : u0.Keeps s) : u0.Keeps (busRead f bar2 addr width s) := by
  unfold busRead
  repeat' (first | (with_reducible first | assumption | apply keeps_ite | apply bar2Read_keeps | apply readBack_keeps | apply bar0Read_keeps) | simp only [keeps_mk] | split | (split <;> try dsimp only))

theorem w1c_keeps {u0 : State} {s : State} {a v m : Nat} (h1 : u0.Keeps s) : u0.Keeps (w1c s a v m) := by
  unfold w1c
  repeat' (first | (with_reducible first | assumption | apply wr_keeps) | (intro _; intros; try dsimp only) | simp only [keeps_mk, keeps_mk_scr, keeps_mk_tab, keeps_mk_scr_tab, keeps_mk_otp] | split | (split <;> try dsimp only))

theorem statusOwn_keepsO {u0 : State} {s : State} {a v : Nat} (h1 : u0.Keeps s) : u0.KeepsO (statusOwn s a v) := by
  unfold statusOwn
  repeat' (first | (with_reducible first | assumption | exact keepsO_none | apply keepsO_some | apply keepsO_ite | apply keeps_ite | apply sigLostClear_keeps | apply w1c_keeps | apply pairShow_keeps) | (intro _; intros; try dsimp only) | simp only [keeps_mk, keeps_mk_scr, keeps_mk_tab, keeps_mk_scr_tab, keeps_mk_otp] | split | (split <;> try dsimp only))
theorem statusOwn_keeps {u0 : State} {s : State} {a v : Nat} {t : State} (e : statusOwn s a v = some t) (h1 : u0.Keeps s) : u0.Keeps t := (statusOwn_keepsO h1 ).of _ e

theorem statusOwnN_keepsO {u0 : State} {s : State} {a v : Nat} (h1 : u0.Keeps s) : u0.KeepsO (statusOwnN s a v) := by
  unfold statusOwnN
  dsimp only
  repeat' (first | (with_reducible first | assumption | exact keepsO_none | apply keepsO_some | apply keeps_ite | apply wmCrossedClear_keeps | apply fltStatusClear_keeps | apply setB_keeps | apply w1c_keeps) | simp only [keeps_mk] | split | (split <;> try dsimp only))
theorem statusOwnN_keeps {u0 : State} {s : State} {a v : Nat} {t : State} (e : statusOwnN s a v = some t) (h1 : u0.Keeps s) : u0.Keeps t := (statusOwnN_keepsO h1 ).of _ e

theorem statusWrite_keeps {u0 : State} {s : State} {a v : Nat} {r : RegRow} (h1 : u0.Keeps s) : u0.Keeps (statusWrite s a v r) := by
  unfold statusWrite
  repeat' (first | (with_reducible first | assumption | apply keeps_ite | apply w1c_keeps) | refine statusOwn_keeps (by with_reducible assumption) ?_ | refine statusOwnN_keeps (by with_reducible assumption) ?_ | split | (split <;> try dsimp only))

theorem devReset_keeps {u0 : State} {v : Nat} {s : State} (h1 : u0.Keeps s) : u0.Keeps (devReset v s) := by
  unfold devReset
  repeat' (first | (with_reducible first | assumption | apply keeps_ite | apply pwfTarget_keeps | apply operWrite_keeps | apply resetEnter_keeps) | (intro _; intros; try dsimp only) | simp only [keeps_mk, keeps_mk_scr, keeps_mk_tab, keeps_mk_scr_tab, keeps_mk_otp] | split | (split <;> try dsimp only))

theorem synceWrite_keeps {u0 : State} {s : State} {k v : Nat} (h1 : u0.Keeps s) : u0.Keeps (synceWrite s k v) := by
  unfold synceWrite
  repeat' (first | (with_reducible first | assumption | apply writeRw_keeps | apply synceSquelch_keeps) | (intro _; intros; try dsimp only) | simp only [keeps_mk, keeps_mk_scr, keeps_mk_tab, keeps_mk_scr_tab, keeps_mk_otp] | split | (split <;> try dsimp only))

theorem ppsWrite_keeps {u0 : State} {s : State} {v : Nat} (h1 : u0.Keeps s) : u0.Keeps (ppsWrite s v) := by
  unfold ppsWrite
  dsimp only
  repeat' (first | (with_reducible first | assumption | apply keeps_ite | apply levelOff_keeps | apply writeRw_keeps) | simp only [keeps_mk] | split | (split <;> try dsimp only))

theorem dgrpWrite_keeps {u0 : State} {s : State} {a d v : Nat} (h1 : u0.Keeps s) : u0.Keeps (dgrpWrite s a d v) := by
  unfold dgrpWrite
  dsimp only
  repeat' (first | (with_reducible first | assumption | apply keeps_ite | apply pwfTarget_keeps | apply writeRw_keeps | apply dumpGroupEnabled_keeps) | (intro _; intros; try dsimp only) | simp only [keeps_mk, keeps_mk_scr, keeps_mk_tab, keeps_mk_scr_tab, keeps_mk_otp] | split | (split <;> try dsimp only))

theorem portCtlWrite_keeps {u0 : State} {s : State} {p v : Nat} (h1 : u0.Keeps s) : u0.Keeps (portCtlWrite s p v) := by
  unfold portCtlWrite
  repeat' (first | (with_reducible first | assumption | apply keeps_ite | apply admin_keeps | apply retrainStart_keeps) | split | (split <;> try dsimp only))

theorem updCtlWrite_keeps {u0 : State} {s : State} {v : Nat} (h1 : u0.Keeps s) : u0.Keeps (updCtlWrite s v) := by
  unfold updCtlWrite
  repeat' (first | (with_reducible first | assumption | apply disarm_keeps | apply confirmTrial_keeps | apply arm_keeps | apply restartAct_keeps | apply updDiscard_keeps | apply abandon_keeps) | split | (split <;> try dsimp only))

theorem actOr_keeps {u0 : State} {act : Bool} {t : State} {s : State} {a v m : Nat} (h1 : u0.Keeps t) (h2 : u0.Keeps s) : u0.Keeps (actOr act t s a v m) := by
  unfold actOr
  repeat' (first | (with_reducible first | assumption | apply keeps_ite | apply writeRw_keeps) | (intro _; intros; try dsimp only) | simp only [keeps_mk, keeps_mk_scr, keeps_mk_tab, keeps_mk_scr_tab, keeps_mk_otp] | split | (split <;> try dsimp only))

theorem operOwnA_keepsO {u0 : State} {s : State} {a v : Nat} (h1 : u0.Keeps s) : u0.KeepsO (operOwnA s a v) := by
  unfold operOwnA
  repeat' (first | (with_reducible first | assumption | exact keepsO_none | apply keepsO_some | apply keepsO_ite | apply keeps_ite | apply toField_keeps | apply sliceCmd_keeps | apply pushStart_keeps | apply devReset_keeps | apply arbCtl_keeps | apply firstFaultClear_keeps | apply keyRevoke_keeps | apply clrRec_keeps | apply nvlogRead_keeps | apply pairRead_keeps | apply ringRdWrite_keeps | apply clkoutConfig_keeps | apply pwfClear_keeps | apply reread_keeps | apply clkCtl_keeps | apply actOr_keeps) | (intro _; intros; try dsimp only) | simp only [keeps_mk, keeps_mk_scr, keeps_mk_tab, keeps_mk_scr_tab, keeps_mk_otp] | split | (split <;> try dsimp only))
theorem operOwnA_keeps {u0 : State} {s : State} {a v : Nat} {t : State} (e : operOwnA s a v = some t) (h1 : u0.Keeps s) : u0.Keeps t := (operOwnA_keepsO h1 ).of _ e

theorem operOwnB_keepsO {u0 : State} {s : State} {a v : Nat} (h1 : u0.Keeps s) : u0.KeepsO (operOwnB s a v) := by
  unfold operOwnB
  repeat' (first | (with_reducible first | assumption | exact keepsO_none | apply keepsO_some | apply keepsO_ite | apply keeps_ite | apply timIncrCommit_keeps | apply setF_keeps | apply faultInject_keeps | apply updCtlWrite_keeps | apply meminjCtl_keeps | apply timSet_keeps | apply scrAtomGo_keeps | apply sigCancel_keeps | apply timAdd_keeps | apply pairCtl_keeps | apply pwfTarget_keeps | apply probeGo_keeps | apply ppsWrite_keeps | apply stageStart_keeps | apply actOr_keeps | apply scrWinWrite_keeps | apply protWrite_keeps) | (intro _; intros; try dsimp only) | simp only [keeps_mk, keeps_mk_scr, keeps_mk_tab, keeps_mk_scr_tab, keeps_mk_otp] | split | (split <;> try dsimp only))
theorem operOwnB_keeps {u0 : State} {s : State} {a v : Nat} {t : State} (e : operOwnB s a v = some t) (h1 : u0.Keeps s) : u0.Keeps t := (operOwnB_keepsO h1 ).of _ e

theorem finAct_keeps {u0 : State} {n : Nat} {i : Nat} {act : Fin n → State} {s : State} (h1 : u0.Keeps s) (c_act : ∀ z0, u0.Keeps (act z0)) : u0.Keeps (finAct n i act s) := by
  unfold finAct
  repeat' (first | (with_reducible first | assumption | apply c_act) | split | (split <;> try dsimp only))

theorem operOwnC_keepsO {u0 : State} {s : State} {a v : Nat} (h1 : u0.Keeps s) : u0.KeepsO (operOwnC s a v) := by
  unfold operOwnC
  dsimp only
  repeat' (first | (with_reducible first | assumption | exact keepsO_none | apply keepsO_some | apply keeps_ite | apply qwmConfig_keeps | apply synceWrite_keeps | apply diCtl_keeps | apply operMirrored_keeps | apply portCtlWrite_keeps | apply fragEmpty_keeps | apply finAct_keeps | apply gateCtl_keeps | apply monitor_keeps | apply writeRw_keeps) | (intro _; intros; try dsimp only) | split | (split <;> try dsimp only))
theorem operOwnC_keeps {u0 : State} {s : State} {a v : Nat} {t : State} (e : operOwnC s a v = some t) (h1 : u0.Keeps s) : u0.Keeps t := (operOwnC_keepsO h1 ).of _ e

theorem operOwnD_keepsO {u0 : State} {s : State} {a v : Nat} (h1 : u0.Keeps s) : u0.KeepsO (operOwnD s a v) := by
  unfold operOwnD
  repeat' (first | (with_reducible first | assumption | exact keepsO_none | apply keepsO_some | apply grant_keeps | apply finAct_keeps | apply fnCfgWrite_keeps | apply dgrpWrite_keeps | apply laneTestConfig_keeps | apply perfTenantWrite_keeps) | (intro _; intros; try dsimp only) | split | (split <;> try dsimp only))
theorem operOwnD_keeps {u0 : State} {s : State} {a v : Nat} {t : State} (e : operOwnD s a v = some t) (h1 : u0.Keeps s) : u0.Keeps t := (operOwnD_keepsO h1 ).of _ e

theorem pairWrite_keeps {u0 : State} {s : State} {f a v : Nat} (h1 : u0.Keeps s) : u0.Keeps (pairWrite s f a v) := by
  unfold pairWrite
  dsimp only
  repeat' (first | (with_reducible first | assumption | apply keeps_ite | apply holdLo_keeps | apply commitHi_keeps | apply writeRw_keeps) | (intro _; intros; try dsimp only) | simp only [keeps_mk, keeps_mk_scr, keeps_mk_tab, keeps_mk_scr_tab, keeps_mk_otp] | split | (split <;> try dsimp only))

theorem operStore_keeps {u0 : State} {s : State} {a v : Nat} (h1 : u0.Keeps s) : u0.Keeps (operStore s a v) := by
  unfold operStore
  dsimp only
  repeat' (first | (with_reducible first | assumption | apply keeps_ite | apply pairWrite_keeps | apply pwfTarget_keeps | apply mirrorItem_keeps) | (intro _; intros; try dsimp only) | simp only [keeps_mk, keeps_mk_scr, keeps_mk_tab, keeps_mk_scr_tab, keeps_mk_otp] | split | (split <;> try dsimp only))

theorem operTake_keeps {u0 : State} {s : State} {a v : Nat} (h1 : u0.Keeps s) : u0.Keeps (operTake s a v) := by
  unfold operTake
  repeat' (first | (with_reducible first | assumption | apply operStore_keeps) | refine operOwnA_keeps (by with_reducible assumption) ?_ | refine operOwnC_keeps (by with_reducible assumption) ?_ | refine operOwnD_keeps (by with_reducible assumption) ?_ | refine operOwnB_keeps (by with_reducible assumption) ?_ | split | (split <;> try dsimp only))

theorem pageWrite_keeps {u0 : State} {s : State} {f off v : Nat} (h1 : u0.Keeps s) : u0.Keeps (pageWrite s f off v) := by
  unfold pageWrite
  dsimp only
  repeat' (first | (with_reducible first | assumption | apply keeps_ite | apply pairWrite_keeps | apply hostFail_keeps | apply consDoorbell_keeps | apply ringCfg_keeps | apply prodDoorbell_keeps | apply freshNat_keeps) | split | (split <;> try dsimp only))

theorem windowWrite_keeps {u0 : State} {s : State} {a v : Nat} (h1 : u0.Keeps s) : u0.Keeps (windowWrite s a v) := by
  unfold windowWrite
  repeat' (first | (with_reducible first | assumption | apply keeps_ite | apply scrAliasSet_keeps | apply scrAliasClear_keeps | apply scrWindowWrite_keeps) | (intro _; intros; try dsimp only) | simp only [keeps_mk, keeps_mk_scr, keeps_mk_tab, keeps_mk_scr_tab, keeps_mk_otp] | split | (split <;> try dsimp only))

theorem pfWrite_keeps {u0 : State} {s : State} {a v : Nat} (h1 : u0.Keeps s) : u0.Keeps (pfWrite s a v) := by
  unfold pfWrite
  repeat' (first | (with_reducible first | assumption | apply keeps_ite | apply pageWrite_keeps | apply pwfAbsent_keeps | apply statusWrite_keeps | apply windowWrite_keeps | apply operWrite_keeps | apply operTake_keeps | apply pwfTarget_keeps | apply pwfD_keeps) | (intro _; intros; try dsimp only) | split | (split <;> try dsimp only))

theorem vfWrite_keeps {u0 : State} {s : State} {f a v : Nat} (h1 : u0.Keeps s) : u0.Keeps (vfWrite s f a v) := by
  unfold vfWrite
  repeat' (first | (with_reducible first | assumption | apply keeps_ite | apply pageWrite_keeps | apply hostFail_keeps) | (intro _; intros; try dsimp only) | simp only [keeps_mk, keeps_mk_scr, keeps_mk_tab, keeps_mk_scr_tab, keeps_mk_otp] | split | (split <;> try dsimp only))

theorem busWrite_keeps {u0 : State} {f addr width v : Nat} {s : State} (h1 : u0.Keeps s) : u0.Keeps (busWrite f addr width v s) := by
  unfold busWrite
  repeat' (first | (with_reducible first | assumption | apply keeps_ite | apply pfWrite_keeps | apply hostFail_keeps | apply vfWrite_keeps) | (intro _; intros; try dsimp only) | simp only [keeps_mk, keeps_mk_scr, keeps_mk_tab, keeps_mk_scr_tab, keeps_mk_otp] | split | (split <;> try dsimp only))

theorem accessExpired_keeps {u0 : State} {f : Nat} {write : Bool} {addr v : Nat} {s : State} (h1 : u0.Keeps s) : u0.Keeps (accessExpired f write addr v s) := by
  unfold accessExpired
  dsimp only
  repeat' (first | (with_reducible first | assumption | apply keeps_ite | apply bump_keeps | apply pwfD_keeps) | simp only [keeps_mk] | split | (split <;> try dsimp only))

end Sys2Proof.Machine
end

