-- ==== Sys2Proof/Tests/Slice0.lean ====
section
/-! SUPPORT. Tests: ill-formed terms that WellFormed refuses, values that the spec states, and states that meet the hypotheses of the statements. -/

namespace Sys2Proof.Tests

-- One declaration at a time: hundreds of evaluations at once would take more threads than the check allows.
set_option Elab.async false

open Sys2Proof Sys2Proof.Machine

/-! ## Well-formedness: each check refuses a term that breaks it -/

/-- Ill-formed host commands: a field of Table 18-4 beyond its width, or operands beyond four entries. -/
def badHostCmds : List HostCmd :=
  let c : HostCmd := { fn := 0, ring := 0, opcode := 1, tag := 0, table := 9, sub := 0, opnd := [] }
  [{ c with fn := 256 }, { c with ring := 17 }, { c with opcode := 256 }, { c with tag := 65536 }, { c with table := 256 }, { c with sub := 256 },
   { c with opnd := List.replicate 225 0 }]

/-- A host command that is well formed, of an opcode. -/
def okHostCmd (op : Nat) : HostCmd := { fn := 0, ring := 16, opcode := op, tag := 65535, table := 255, sub := 255, opnd := List.replicate 224 0 }

theorem test_wf_refuses_host_fields : (badHostCmds.map (fun c => Instr.wf (.insert c))) = List.replicate 7 false := by decide +kernel

theorem test_wf_refuses_wrong_opcode : ([Instr.sigWrite (okHostCmd 1), .sigInvalidate (okHostCmd 1), .sigProfile (okHostCmd 1), .sigClear (okHostCmd 1), .sigCopy (okHostCmd 1),
    .sigSwap (okHostCmd 1), .sigRead (okHostCmd 1) false, .insert (okHostCmd 2), .delete (okHostCmd 1), .modify (okHostCmd 1), .search (okHostCmd 1), .next (okHostCmd 1),
    .readEntry (okHostCmd 1), .move (okHostCmd 1), .flushByPort (okHostCmd 1), .nop (okHostCmd 1)].map Instr.wf) = List.replicate 16 false := by decide +kernel

theorem test_wf_accepts_right_opcode : ([Instr.sigWrite (okHostCmd 0x10), .sigInvalidate (okHostCmd 0x11), .sigProfile (okHostCmd 0x12), .sigClear (okHostCmd 0x13), .sigCopy (okHostCmd 0x14),
    .sigSwap (okHostCmd 0x15), .sigRead (okHostCmd 0x16) false, .insert (okHostCmd 1), .delete (okHostCmd 2), .modify (okHostCmd 3), .search (okHostCmd 4), .next (okHostCmd 5),
    .readEntry (okHostCmd 6), .move (okHostCmd 7), .flushByPort (okHostCmd 8), .nop (okHostCmd 0x20)].map Instr.wf) = List.replicate 16 true := by decide +kernel

/-- A number one beyond a 32-bit register. -/
def tooWide : Nat := 0x100000000

theorem test_wf_refuses_wide_data : ([Instr.qwmConfig 0 tooWide, .nackReceive ⟨tooWide, false⟩, .resync tooWide, .resyncComplete tooWide, .reread tooWide, .pushStart tooWide, .keyRevoke tooWide,
    .toField tooWide, .stageStart tooWide, .arm tooWide, .disarm tooWide, .confirm tooWide, .abandon tooWide, .restartAct tooWide, .discard tooWide, .clkFreqAlarm 0 tooWide, .timSet tooWide,
    .timAdd tooWide, .timIncrCommit tooWide, .clkoutConfig tooWide, .prodDoorbell 0 0 tooWide, .consDoorbell 0 17 tooWide, .ringEnable 0 0 tooWide, .ringDisable 0 0 tooWide 0,
    .flush 0 0 tooWide 0, .bar2Write 0 tooWide, .grant 1 0 tooWide, .msixSizeWrite 0 tooWide, .scrWindowWrite 0 tooWide, .scrAliasSet 0 tooWide, .scrAliasClear 0 tooWide,
    .ringRdWrite tooWide, .nvlogRead tooWide, .pairRead tooWide, .perfTenantWrite 0 tooWide, .laneTestConfig 0 tooWide, .probeGo tooWide, .faultInject tooWide, .memoryInjectArm tooWide,
    .devReset tooWide, .hiWriteCommit 0 0 tooWide, .accessExpired 0 true 0 tooWide].map Instr.wf) = List.replicate 42 false := by decide +kernel

/-- The first offset beyond the 64 MiB of a BAR. -/
def beyondBar : Nat := 0x4000000

theorem test_wf_refuses_offsets : ([Instr.bar2Write beyondBar 0, .scrWindowWrite beyondBar 0, .scrAliasSet beyondBar 0, .scrAliasClear beyondBar 0, .registerWrite 0 beyondBar 4 0,
    .readClear 0 false ⟨beyondBar, 4⟩, .readClear 0 true ⟨beyondBar, 4⟩, .loReadLatch 0 beyondBar, .hiWriteCommit 0 beyondBar 0, .accessExpired 0 false beyondBar 0].map Instr.wf) =
    List.replicate 10 false := by decide +kernel

theorem test_wf_refuses_bounds : ([Instr.resetExit false ⟨65536, List.replicate 5 0⟩, .admin 0 4, .dramWriteComplete 0 8 true 0, .tagWriteback ⟨0, 8, true⟩, .readClear 0 true ⟨0, 8⟩, .readClear 0 false ⟨0, 3⟩, .wmCrossedClear true 4096, .wmCrossedClear false 16, .fenceLift 65536, .fenceTimeout 65536,
    .lease 2 ⟨0xF0C5, 2 ^ 48⟩ 0 true, .standby ⟨0xF0C5, 2 ^ 48⟩ 0 true, .switch ⟨0xF0C5, 2 ^ 48⟩ 0 true, .withdraw ⟨0xF0C5, 2 ^ 48⟩ 0 true, .marginMeasure [256], .fltStatusClear 2048, .scrTestStep 0 [2 ^ 23],
    .sigEntryRepair 0 32768 false, .registerWrite 0 0 3 0, .registerWrite 0 0 8 (2 ^ 64), .pcieLinkChange true 7 0 false 0 [], .pcieLinkChange true 0 17 false 0 [],
    .pcieLinkChange true 0 0 false 256 [], .pcieLinkChange true 0 0 false 0 [256], .cmdItemApply (some (tooWide, .reg 0 0 0)), .cmdItemApply (some (0, .reg 256 0 0)),
    .cmdItemApply (some (0, .reg 0 beyondBar 0)), .cmdItemApply (some (0, .reg 0 0 tooWide)), .cmdItemApply (some (0, .table (okHostCmd 1) 256)), .replayRegion ⟨0, [.reg 256 0 0]⟩].map Instr.wf) =
    List.replicate 30 false := by decide +kernel

theorem test_wf_refuses_lengths : ([Instr.vinGood (List.replicate 4097 0), .galleryHelloReceive 0 [] none false, .galleryHelloReceive 0 (List.replicate 48 0) (some []) false, .resetExit false ⟨0, []⟩, .lineFrameReceive 0 (List.replicate 16385 0) true false false ⟨0, 0⟩, .partnerFaultRecord [],
    .tempSensorRead [], .tempSensorRead (List.replicate 72 65536), .telemetryUpdate 0 0 0 0 0 [] [0, 0, 0], .telemetryUpdate 0 0 0 0 0 (List.replicate 8 0) [],
    .commandFetch 0 0 (some []), .txDescriptor 0 0 (some []) none, .caravanFrameReceive 0 0 [] 0 false].map Instr.wf) = List.replicate 13 false := by decide +kernel

/-! ## Values that the spec states -/

/-- The nine ASCII bytes "123456789" of Table 0-9. -/
def checkInput : Bytes := [0x31, 0x32, 0x33, 0x34, 0x35, 0x36, 0x37, 0x38, 0x39]

/-- Table 0-9: the check values of CRC-32C, of CRC-8 and of the CRC-16 of cells. -/
theorem test_check_codes : (crc32c checkInput, crc8 checkInput, crc16 checkInput) = (0xE3069283, 0xF4, 0x29B1) := by decide +kernel

/-- The example of the device overview: a bit of pipeline scratchpad PS7. -/
theorem test_location_code : locCode 0 7 3 5 12 0x2A1 0x3C = 0x7194C2A13C := by decide +kernel

/-- R573: revision A reads 0x0324_094B. -/
theorem test_idcode_revision_a : idcodeOf Otp.shipped = 0x0324094B := by decide +kernel

/-- R24: common logic of QD carries SLICE 63 and all ones below. -/
theorem test_location_of_die : bits (locSlice 1 63) 0 36 = 2 ^ 36 - 1 ∧ locDieOf (locSlice 1 63) = 1 ∧ locSliceOf (locSlice 1 63) = 63 := by decide +kernel

/-- The frame of the VXLAN example of the parser chapter, without its FCS: addresses and checksum fields are made up. -/
def vxlanFrame : Bytes :=
  [0x02, 0, 0, 0, 0, 1, 0x02, 0, 0, 0, 0, 2, 0x81, 0x00, 0x00, 0xD2, 0x08, 0x00] ++
  [0x45, 0, 0x01, 0xEA, 0, 0, 0, 0, 64, 17, 0, 0, 10, 0, 0, 1, 10, 0, 0, 2] ++
  [0x30, 0x39, 0x12, 0xB5, 0x01, 0xD6, 0, 0] ++ [0x08, 0, 0, 0, 0x00, 0x5A, 0x21, 0] ++
  [0x02, 0, 0, 0, 0, 3, 0x02, 0, 0, 0, 0, 4, 0x08, 0x00] ++
  [0x45, 0, 0x01, 0xB8, 0, 0, 0, 0, 64, 6, 0, 0, 10, 1, 0, 1, 10, 1, 0, 2] ++
  [0, 80, 0, 81, 0, 0, 0, 0, 0, 0, 0, 0, 0x50, 0x10, 0, 0, 0, 0, 0, 0] ++ List.replicate 400 0

/-- The profile of port 0 at reset, but for the check of the header checksum. -/
def vxlanProf (inner : Bool) : Prof := { profOf State.reset 0 with hdr := if inner then 0xAFFF else 0x8FFF }

/-- The example of the parser chapter: offsets of every header. -/
theorem test_parse_vxlan_offsets : ([PF.offL3, PF.offL4, PF.offTun, PF.offL2i, PF.offL3i, PF.offL4i, PF.offPay, PF.offEnd, PF.offMpls, PF.offFragh, PF.offSrh].map
    (pget (parse vxlanFrame (vxlanProf true) 0).record)) = [18, 38, 46, 54, 68, 88, 108, 108, 0x1FF, 0x1FF, 0x1FF] := by decide +kernel

/-- The same example: types and keys. -/
theorem test_parse_vxlan_types : ([PF.l2Type, PF.vlanCnt, PF.tci0, PF.l3Type, PF.l4Type, PF.ipProto, PF.tunType, PF.tunId, PF.iEtype, PF.iL3Type, PF.iL4Type, PF.iIpProto, PF.fail].map
    (pget (parse vxlanFrame (vxlanProf true) 0).record)) = [0, 1, 0xD2, 1, 1, 17, 1, 0x5A21, 0x0800, 1, 2, 6, 0] := by decide +kernel

/-- The same frame with INNER_EN = 0. -/
theorem test_parse_vxlan_outer_only : ([PF.offTun, PF.offEnd, PF.offPay, PF.offL2i, PF.offL3i, PF.offL4i].map (pget (parse vxlanFrame (vxlanProf false) 0).record)) =
    [46, 54, 46, 0x1FF, 0x1FF, 0x1FF] := by decide +kernel

/-- R243 with the RATE of 10 Gb/s: 1.28 ticks a byte, rounded up to 2^-32. -/
theorem test_shaper_increment : shaperInc 10000000 = 0x147AE147B := by decide +kernel

/-! ## The machine -/

theorem test_reset_idles : step State.reset = .next { State.reset with tick := 1 } := by rfl

theorem test_decode_none : decodeTableWord 32 0 = none := by rfl

theorem test_front_command_runs : ∃ t, step { State.reset with pending := [.vinDip, .vinFail] } = .next t ∧ t.pending = [.vinFail] ∧ getF t (Reg.PWR_CNT_COUNT 1) = 1 := ⟨_, rfl, by decide +kernel, by decide +kernel⟩

/-! ## Hypotheses that can be met -/

/-- The reset state in another top-level state. -/
def sAt (t : TopState) : State := { State.reset with top := t }

/-- A device in RUN, sealed. -/
def sRun : State := { State.reset with top := .run, boot := { loading := false, sealed := true, up := true } }

/-- A device in RUN in a life-cycle state. -/
def inLife (l : LifeCycle) : State := { sRun with boot := { sRun.boot with lc := l } }

/-- A state with fields of registers set. -/
def withF (s : State) (l : List (Fld × Nat)) : State := l.foldl (fun s x => setF s x.1 x.2) s

/-- A held snapshot of no pairs. -/
def snap0 : Snapshot :=
  { seq := 0, epoch := {}, timeState := 0, perfKind := false, ring := 0, first := 0, count := 0, skippedBefore := false, tick := 0, pairs := [], perf := [], perfOvf := [] }

/-- An image whose payload is a MANIFEST record. -/
def manifestImage : Image :=
  { header := List.replicate 16 0 ++ [52], blocks := [[1, 0, 0, 0, 52, 0, 0, 0, 0, 0, 0, 0] ++ List.replicate 40 0] }

/-- Block i of an image, with its number and CRC-32C. -/
def mkBlock (i : Nat) (b : Bytes) : Bytes := fit 4088 b ++ leBytes 4 i ++ leBytes 4 (crc32c (fit 4088 b ++ leBytes 4 i))

theorem slice_length (b : Bytes) (o n : Nat) : (slice b o n).length = n := by
  simp [slice]

theorem slice_mid (a b c : Bytes) (o n : Nat) (h : a.length = o) (hb : b.length = n) : slice (a ++ b ++ c) o n = b := by
  subst h hb; simp [slice, List.append_assoc]

theorem leBytes_length (k n : Nat) : (leBytes k n).length = k := by
  induction k generalizing n with
  | zero => rfl
  | succ k ih => simp [leBytes, ih]

theorem ofLe_leBytes (k n : Nat) (h : n < 256 ^ k) : ofLe (leBytes k n) = n := by
  induction k generalizing n with
  | zero => simp [leBytes, ofLe]; omega
  | succ k ih =>
    have : n / 256 < 256 ^ k := by rw [Nat.pow_succ] at h; omega
    simp [leBytes, ofLe, ih _ this, byteOf]; omega

theorem crcBitR_lt (r : Nat) (h : r < 2 ^ 32) : crcBitR 0x82F63B78 r < 2 ^ 32 := by
  unfold crcBitR; split
  · exact Nat.xor_lt_two_pow (by omega) (by norm_num)
  · omega

theorem repeat_lt (k r : Nat) (h : r < 2 ^ 32) : Nat.repeat (crcBitR 0x82F63B78) k r < 2 ^ 32 := by
  induction k with
  | zero => exact h
  | succ k ih => exact crcBitR_lt _ ih

theorem crc32c_lt (b : Bytes) : crc32c b < 2 ^ 32 := by
  have : ∀ (b : Bytes) (r : Nat), r < 2 ^ 32 → b.foldl (crcByteR 0x82F63B78) r < 2 ^ 32 := by
    intro b; induction b with
    | nil => intro r h; exact h
    | cons x b ih => intro r h; exact ih _ (repeat_lt _ _ (Nat.xor_lt_two_pow h (by have := x.isLt; omega)))
  exact Nat.xor_lt_two_pow (this b _ (by norm_num)) (by norm_num)

theorem blockOk_mkBlock (i : Nat) (b : Bytes) (h : i < 2 ^ 32) : blockOk i (mkBlock i b) = true := by
  have l1 : (fit 4088 b).length = 4088 := slice_length _ _ _
  have h1 : leAt (mkBlock i b) 4088 4 = i := by
    unfold leAt mkBlock
    rw [slice_mid _ _ _ _ _ l1 (leBytes_length _ _), ofLe_leBytes _ _ (by omega)]
  have h2 : leAt (mkBlock i b) 4092 4 = crc32c ((mkBlock i b).take 4092) := by
    have : (mkBlock i b).take 4092 = fit 4088 b ++ leBytes 4 i := by
      unfold mkBlock; exact List.take_left' (by simp [l1, leBytes_length])
    rw [this]; unfold leAt
    have := slice_mid (fit 4088 b ++ leBytes 4 i) (leBytes 4 (crc32c (fit 4088 b ++ leBytes 4 i))) [] 4092 4 (by simp [l1, leBytes_length]) (leBytes_length _ _)
    rw [List.append_nil] at this
    unfold mkBlock
    rw [this, ofLe_leBytes _ _ (by have := crc32c_lt (fit 4088 b ++ leBytes 4 i); omega)]
  have h3 : (mkBlock i b).length = 4096 := by simp [mkBlock, l1, leBytes_length]
  simp [blockOk, h1, h2, h3]

/-- The zero register of CRC-32C stays zero over zero bytes. -/
theorem crc_zeros (n : Nat) : (List.replicate n (0 : Byte)).foldl (crcByteR 0x82F63B78) 0 = 0 := by
  induction n with
  | zero => rfl
  | succ n ih => rw [List.replicate_succ, List.foldl_cons, show crcByteR 0x82F63B78 0 0 = 0 by decide +kernel]; exact ih

/-- A header of an image of a type with one block, for 4 bytes of payload, signed with key slot 0, whose key is the base point of the curve. -/
def testHdr (typ : Byte) : Bytes :=
  let h := [0x48, 0x4C, 0x4F, 0x4B, 0, 1, typ, 0] ++ leBytes 4 4448 ++ leBytes 4 1 ++ leBytes 4 4 ++ List.replicate 8 0 ++ leBytes 4 0x3240 ++ List.replicate 96 0 ++
    [4] ++ beBytes 48 curveG.1 ++ beBytes 48 curveG.2 ++ List.replicate 27 0
  h ++ leBytes 4 (crc32c h)

/-- A block whose register is zero after its first four bytes, so that its CRC-32C is all ones. -/
def testBlock : Bytes := mkBlock 0 [0xFF, 0xFF, 0xFF, 0xFF]

/-- The signature of the firmware image below, from a calculation outside the model: private key 1, nonce 1. -/
def testSig : Bytes := beBytes 48 0xaa87ca22be8b05378eb1c71ef320ad746e1d3b628ba79b9859f741e082542a385502f25dbf55296c3a545e3872760ab7 ++
  beBytes 48 0xdad36ad1666345c662a03008380a706b1cf47e72e39c554db0b79e071c47d816f306e2844fbd6816643284d171aaa149

/-- The image of a type as it lies in memory, and as it is parsed. -/
def testBytes (typ : Byte) : Bytes := testHdr typ ++ testBlock ++ testSig
def testImage (typ : Byte) (slot : Nat) (pushed : Bool) : Image := { header := testHdr typ, blocks := [testBlock], sig := testSig, slot := slot, pushed := pushed }

theorem testHdr_length (typ : Byte) : (testHdr typ).length = 256 := by
  simp [testHdr, leBytes_length, beBytes]

theorem testBlock_length : testBlock.length = 4096 := by
  simp [testBlock, mkBlock, leBytes_length, slice_length, fit]

theorem testBlock_ok : blockOk 0 testBlock = true := blockOk_mkBlock 0 _ (by decide)

theorem zeros_joined (a b c : Bytes) (h : a = b ++ List.replicate 4084 0) (h2 : c = List.replicate 4 0) : a ++ c = b ++ List.replicate 4088 (0 : Byte) := by
  have e : List.replicate 4084 (0 : Byte) ++ List.replicate 4 0 = List.replicate 4088 0 := by rw [List.replicate_append_replicate]
  rw [h, h2, List.append_assoc, e]

theorem testBlock_payload : fit 4088 [0xFF, 0xFF, 0xFF, 0xFF] = [0xFF, 0xFF, 0xFF, 0xFF] ++ List.replicate 4084 (0 : Byte) := by
  unfold fit slice
  rw [List.drop_zero, List.take_of_length_le (by decide)]
  rfl

theorem crc_cleared (n : Nat) (a : Bytes) (h : a.foldl (crcByteR 0x82F63B78) 0xFFFFFFFF = 0) : crc32c (a ++ List.replicate n 0) = 0xFFFFFFFF := by
  unfold crc32c; rw [List.foldl_append, h, crc_zeros]; decide +kernel

theorem testBlock_crc : crc32c ([0xFF, 0xFF, 0xFF, 0xFF] ++ List.replicate 4088 (0 : Byte)) = 0xFFFFFFFF := crc_cleared _ _ (by decide +kernel)

theorem mkBlock_eq (i c : Nat) (b x y : Bytes) (h : fit 4088 b ++ leBytes 4 i = x) (h2 : crc32c x = c) (h3 : leBytes 4 c = y) : mkBlock i b = x ++ y := by
  unfold mkBlock; rw [h, h2, h3]

theorem testBlock_bytes : testBlock = [0xFF, 0xFF, 0xFF, 0xFF] ++ List.replicate 4088 0 ++ [0xFF, 0xFF, 0xFF, 0xFF] :=
  mkBlock_eq 0 0xFFFFFFFF _ _ _ (zeros_joined _ _ _ testBlock_payload (by decide)) testBlock_crc (by decide +kernel)

theorem testImage_parsed (typ : Byte) (slot : Nat) (p : Bool) (h : leAt (testHdr typ) 0xC 4 = 1) : parseImage (testBytes typ) slot p = testImage typ slot p := by
  have a : slice (testBytes typ) 0 256 = testHdr typ := by
    have := slice_mid [] (testHdr typ) (testBlock ++ testSig) 0 256 rfl (testHdr_length typ)
    simpa [testBytes, List.append_assoc] using this
  have b : slice (testBytes typ) 256 4096 = testBlock := slice_mid _ _ _ _ _ (testHdr_length typ) testBlock_length
  have c : slice (testBytes typ) 4352 96 = testSig := by
    have := slice_mid (testHdr typ ++ testBlock) testSig [] 4352 96 (by simp [testHdr_length, testBlock_length]) (by decide +kernel)
    rwa [List.append_nil] at this
  unfold parseImage
  simp only [a, h]
  simp [b, c, testImage]

theorem testImage_blocks (typ : Byte) (slot : Nat) (p : Bool) : badBlock (testImage typ slot p) = none := by
  simp [badBlock, testImage, testBlock_ok]

/-- FIPS 180-4 over the header and the block, against a calculation outside the model. -/
theorem test_image_hash (slot : Nat) (p : Bool) : (testImage 1 slot p).hash =
    beBytes 48 0x304ba0aea7d8408ed3ee68e944e9c2f6aed7431057f4b9b556c05c2699f3adde9e03f02690683eaa29de2698ff349692 := by
  have : (testImage 1 slot p).hash = sha384 (testHdr 1 ++ testBlock) := by simp [Image.hash, testImage]
  rw [this, testBlock_bytes]; decide +kernel

/-- FIPS 186-5: a signature calculated outside the model, with private key 1 and nonce 1. -/
theorem test_ecdsa : ecdsaOk 0xaa87ca22be8b05378eb1c71ef320ad746e1d3b628ba79b9859f741e082542a385502f25dbf55296c3a545e3872760ab7
    0x3617de4a96262c6f5d9e98bf9292dc29f8f41dbd289a147ce9da3113b5f0b8c00a60b1ce1d7e819d7a431d7c90ea0e5f
    0xaa87ca22be8b05378eb1c71ef320ad746e1d3b628ba79b9859f741e082542a385502f25dbf55296c3a545e3872760ab7
    0xdad36ad1666345c662a03008380a706b1cf47e72e39c554db0b79e071c47d816f306e2844fbd6816643284d171aaa149
    (beBytes 48 0x304ba0aea7d8408ed3ee68e944e9c2f6aed7431057f4b9b556c05c2699f3adde9e03f02690683eaa29de2698ff349692) = true := by decide +kernel

theorem testImage_key (slot : Nat) (p : Bool) : byteAt (testImage 1 slot p).pubkey 0 = 4 ∧ beAt (testImage 1 slot p).pubkey 1 48 = 0xaa87ca22be8b05378eb1c71ef320ad746e1d3b628ba79b9859f741e082542a385502f25dbf55296c3a545e3872760ab7 ∧ beAt (testImage 1 slot p).pubkey 49 48 = 0x3617de4a96262c6f5d9e98bf9292dc29f8f41dbd289a147ce9da3113b5f0b8c00a60b1ce1d7e819d7a431d7c90ea0e5f ∧
    beAt (testImage 1 slot p).sig 0 48 = 0xaa87ca22be8b05378eb1c71ef320ad746e1d3b628ba79b9859f741e082542a385502f25dbf55296c3a545e3872760ab7 ∧
    beAt (testImage 1 slot p).sig 48 48 = 0xdad36ad1666345c662a03008380a706b1cf47e72e39c554db0b79e071c47d816f306e2844fbd6816643284d171aaa149 := by
  change byteAt (testImage 1 0 false).pubkey 0 = 4 ∧ beAt (testImage 1 0 false).pubkey 1 48 = 0xaa87ca22be8b05378eb1c71ef320ad746e1d3b628ba79b9859f741e082542a385502f25dbf55296c3a545e3872760ab7 ∧ beAt (testImage 1 0 false).pubkey 49 48 = 0x3617de4a96262c6f5d9e98bf9292dc29f8f41dbd289a147ce9da3113b5f0b8c00a60b1ce1d7e819d7a431d7c90ea0e5f ∧
    beAt (testImage 1 0 false).sig 0 48 = _ ∧ beAt (testImage 1 0 false).sig 48 48 = _
  decide +kernel

theorem testImage_signed (slot : Nat) (p : Bool) : (testImage 1 slot p).sigOk = true := by
  have k := testImage_key slot p
  unfold Image.sigOk
  rw [k.1, k.2.1, k.2.2.1, k.2.2.2.1, k.2.2.2.2, test_image_hash, test_ecdsa]; rfl

/-- An OTP whose key slot 0 holds the key of the image, for every usage. -/
def testOtp : Otp := { Otp.shipped with keys := [(0, { usage := 7, hash := sha384 (testImage 1 0 false).pubkey, revoked := false })] }

theorem testImage_faultless (slot : Nat) (p : Bool) : imageFault testOtp (testImage 1 slot p) 1 = 0 ∧ imageFault testOtp (testImage 1 slot p) 2 = 0 := by
  have h : ∀ typ, imageFault testOtp (testImage 1 slot p) typ = imageFault testOtp (testImage 1 0 false) typ := by
    intro typ; unfold imageFault; rw [testImage_signed, testImage_signed]; rfl
  rw [h, h]
  unfold imageFault
  rw [testImage_signed]; decide +kernel

theorem testBytes_length (typ : Byte) : (testBytes typ).length = 4448 := by
  simp [testBytes, testHdr_length, testBlock_length, testSig, beBytes, leBytes_length]

/-- A directory with the slots of the largest sizes. -/
def dir0 : Directory := { gen := 0, nvmMib := 512, slots := [(2 ^ 24, 2 ^ 24), (2 ^ 25, 2 ^ 24), (2 ^ 26, 2 ^ 26), (2 ^ 27, 2 ^ 26)], persist := (0, 0), fwActive := 0, cfgActive := 0, trial := [] }

/-- The register row at an offset. -/
def rowOf (a : Nat) : RegRow := (regRow a).getD { base := 0, dims := [], cls := .oper, reset := 0, rw := 0, w1c := 0, rc := 0, wo := 0, rws := 0, own := false }

/-- A frame of 64 bytes with its FCS, and a PAUSE frame. -/
def withFcs (b : Bytes) : Bytes := b ++ fcs b
def testFrame : Bytes := withFcs ([2, 0, 0, 0, 0, 1, 2, 0, 0, 0, 0, 2, 0x88, 0xB5] ++ List.replicate 46 0)
def testPause : Bytes := withFcs ([1, 0x80, 0xC2, 0, 0, 1, 2, 0, 0, 0, 0, 1, 0x88, 8, 0, 1, 0, 0] ++ List.replicate 42 0)

/-- The CRC-8 of the Landing message of a type for a card of serial number 1, message to card 0. -/
def testCrc (typ : Nat) : Fin 256 := Fin.ofNat 256 (crc8 (beBytes 7 (typ * 2 ^ 48 + 2 ^ 24)))

/-- A buffer of one 64-byte frame. -/
def testBuf : Buf := { hdr := {}, data := testFrame.take 60, req := 0, inPort := 0, dram := false, k := 0, charge := 0, q := 0, size := 60 }

/-- A device whose queue 0x80000 holds a frame and hangs, through one node of each level, below port 159. -/
def egState : State := { (withF sRun [(Reg.SCH_QSPLIT_VOQ_PORTS, 1)]) with qd := { queues := [(0x80000, { descs := [{ buf := 1 }] })], bufs := [(1, testBuf)] }, tab := { direct := [(tabKey Tab.schTree 0x80000, 1), (tabKey Tab.schTree 0x100000, 1), (tabKey Tab.schTree 0x140000, 1), (tabKey Tab.schTree 0x148000, 319), (tabKey Tab.schTree 0x14909F, 1)] } }

/-- A buffer of one line in DRAM interface 23. -/
def lineBuf : Buf := { testBuf with dram := true, di := 23, size := 8 }

/-- The line of that buffer as it is read when it was written as zeros. -/
def zeroLine : Bytes := beBytes 64 (Nat.xor (beAt (List.replicate 64 0) 0 64) (0 % 2 ^ 512))

/-- A device whose queue 1048575 waits for that line. -/
def lineState : State :=
  { withF sRun [(Reg.DRC_DI_STAT_STATE 23, 2)] with
    qd := { bufs := [(1, lineBuf)], queues := [(1048575, { leaving := [({ buf := 1 }, false)] })] },
    drm := { store := [(512, { bytes := List.replicate 64 0, tag := lineTag (lineNo 1 0) zeroLine, got := 64 })], reads := [1] } }

theorem lineState_lines : linesToRead lineState 1 lineBuf = [0] := by decide +kernel

theorem lineState_may : readMay lineState 1 lineBuf = true := by
  unfold readMay readBanks
  rw [lineState_lines]
  have h : ∀ b, bankHeld lineState lineBuf.di b = false := fun b => rfl
  have r : readsIssued lineState lineState.drm.reads 0 [] = [1] := by decide +kernel
  rw [r]
  simp [h]

theorem lineState_ok : ∀ j ∈ linesToRead lineState 1 lineBuf, (lineRead lineState 1 j 0).ok = true := by
  rw [lineState_lines]
  intro j hj
  rw [List.mem_singleton] at hj; subst hj
  have h : mget {} lineState.drm.store (1 * 512 + 0) = { bytes := List.replicate 64 0, tag := lineTag (lineNo 1 0) zeroLine, got := 64 } := rfl
  unfold lineRead
  rw [h]
  simp [zeroLine]

/-- A device with one frame in staging of port 0. -/
def fullStage (d : Bytes) : State := { sRun with qd := { stage := [(0, [{ port := 0, cls := 0, hdr := {}, data := d }])] } }

theorem fullStage_inFlight (d : Bytes) : inFlight (fullStage d) 0 = d.length + 4 := by
  simp [inFlight, fullStage, sRun, State.reset]

/-- A host command of a function, opcode, table, sub-code and operands. -/
def cmdOf (fn op table sub : Nat) (opnd : Bytes) : HostCmd := { fn := fn, ring := 0, opcode := op, tag := 0, table := table, sub := sub, opnd := opnd }

/-- A lookup result that drops the frame. -/
def testRes : FwdRes := { fwd := .drop }

/-- For each clause of SupplyInputsAndReset, a state and operands that meet its hypotheses. -/
theorem witness_supply_inputs_and_reset :
    (∃ (s : State), s.top = .off) ∧
    (∃ (s : State), s.top ≠ .off) ∧
    (∃ (s : State), s.top ≠ .off ∧ s.causeOn Src.vinWarn = false) ∧
    (∃ (s : State), s.boot.dirOwed = none) ∧
    (∃ (s : State), s.top ≠ .off ∧ s.top ≠ .reset) ∧
    (∃ (s : State), s.top = .reset ∧ s.pwr.tripHold = false ∧ s.pwr.railOut = [] ∧ s.boot.lc ≠ .blank) ∧
    (∃ (s : State), s.pwr.tripHold = true ∧ s.pwr.cool = true) ∧
    (∃ (s : State), (s.top = .off ∨ s.top = .reset ∨ s.top = .hold)) :=
  ⟨⟨(sAt .off), by decide +kernel⟩,
   ⟨sRun, by decide +kernel⟩,
   ⟨sRun, by decide +kernel⟩,
   ⟨sRun, by decide +kernel⟩,
   ⟨sRun, by decide +kernel⟩,
   ⟨(sAt .reset), by decide +kernel⟩,
   ⟨{ sRun with pwr := { tripHold := true } }, by decide +kernel⟩,
   ⟨(sAt .hold), by decide +kernel⟩⟩

/-- For each clause of RailsBatteryAndHoldover, a state and operands that meet its hypotheses. -/
theorem witness_rails_battery_and_holdover :
    (∃ (s : State) (k : Fin 7), s.top ≠ .off ∧ k.val ∉ s.pwr.railOut) ∧
    (∃ (s : State), s.pwr.railOut ≠ []) ∧
    (∃ (s : State), s.top ≠ .off ∧ s.causeOn Src.vio18 = false) ∧
    (∃ (s : State), s.top ≠ .off) ∧
    (∃ (s : State), s.top ≠ .off ∧ timeState s ≠ 0) ∧
    (∃ (s : State), operOpen s = true) :=
  ⟨⟨sRun, 3, by decide +kernel⟩,
   ⟨{ sRun with pwr := { railOut := [3] } }, by decide +kernel⟩,
   ⟨sRun, by decide +kernel⟩,
   ⟨sRun, by decide +kernel⟩,
   ⟨(withF sRun [(Reg.TIM_STAT_TIME_STATE, 1)]), by decide +kernel⟩,
   ⟨sRun, by decide +kernel⟩⟩

/-- For each clause of SensorsAndTelemetry, a state and operands that meet its hypotheses. -/
theorem witness_sensors_and_telemetry :
    (∃ (s : State) (temps : List Nat), s.top ≠ .off ∧ temps.length = 72 ∧ (∀ x ∈ temps, signed 12 x < 1280)) ∧
    (∃ (s : State), powered s = true) :=
  ⟨⟨sRun, (List.replicate 72 200), by decide +kernel⟩,
   ⟨sRun, by decide +kernel⟩⟩

/-- For each clause of PllStartRampAndRelock, a state and operands that meet its hypotheses. -/
theorem witness_pll_start_ramp_and_relock :
    (∃ (s : State) (p : Fin 25), p.val ∈ s.clk.starting) ∧
    (∃ (s : State), s.top = .bringup ∧ 0 ∈ s.clk.starting) ∧
    (∃ (s : State), 5 ∈ s.clk.starting) ∧
    (∃ (s : State) (k : Nat), flag s Reg.CLK_STAT_FD_RELOCK = false ∧ flag s Reg.CLK_STAT_QD_RELOCK = false ∧ s.clk.ramp = [(k, true)]) ∧
    (∃ (s : State), s.top = .run ∧ flag s Reg.CLK_STAT_FD_RELOCK = false) ∧
    (∃ (s : State), s.top = .run ∧ flag s Reg.CLK_STAT_QD_RELOCK = false) ∧
    (∃ (s : State) (r : Fin 2), flag s (relockFld r) = true) :=
  ⟨⟨State.reset, 4, by decide +kernel⟩,
   ⟨{ sAt .bringup with clk := { starting := [0] } }, by decide +kernel⟩,
   ⟨{ sRun with clk := { starting := [5] } }, by decide +kernel⟩,
   ⟨{ sRun with clk := { ramp := [(3, true)] } }, 3, by decide +kernel⟩,
   ⟨sRun, by decide +kernel⟩,
   ⟨sRun, by decide +kernel⟩,
   ⟨(withF sRun [(relockFld 1, 1)]), 1, by decide +kernel⟩⟩

/-- For each clause of ClockLossesAndReturns, a state and operands that meet its hypotheses. -/
theorem witness_clock_losses_and_returns :
    (∃ (s : State) (r : Fin 4), powered s = true ∧ s.causeOn (Src.sysRef + r) = false) ∧
    (∃ (s : State), powered s = true) ∧
    (∃ (s : State) (p : Fin 25), 2 ≤ p.val ∧ flag s (lockFld p) = true ∧ s.causeOn (Src.sysRef + pllRef s p) = false ∧ mfind s.flt.latch (Src.pllLoss (p - 2)) = none) ∧
    (∃ (s : State) (r : Fin 3) (n : _), r ≠ 2 ∧ powered s = true ∧ s.causeOn (Src.clkFreq r) = false ∧ clamp 1 1000 (getF s Reg.CLK_MON_CFG_FREQ_TOL) * 10 < (signed 16 (n % 65536)).natAbs) ∧
    (∃ (s : State), powered s = true) ∧
    (∃ (s : State), powered s = true ∧ flag s Reg.TIM_PPS_CFG_IN_EN = true ∧ s.causeOn Src.ppsLoss = false) ∧
    (∃ (s : State), powered s = true) :=
  ⟨⟨sRun, 3, by decide +kernel⟩,
   ⟨sRun, by decide +kernel⟩,
   ⟨(withF sRun [(lockFld 24, 1)]), 24, by decide +kernel⟩,
   ⟨sRun, 1, 0x7000, by decide +kernel⟩,
   ⟨sRun, by decide +kernel⟩,
   ⟨(withF sRun [(Reg.TIM_PPS_CFG_IN_EN, 1)]), by decide +kernel⟩,
   ⟨sRun, by decide +kernel⟩⟩

/-- For each clause of PtpClockAndPps, a state and operands that meet its hypotheses. -/
theorem witness_ptp_clock_and_pps :
    (∃ (s : State) (v : _), operOpen s = true ∧ v % 4 = 1) ∧
    (∃ (s : State) (v : _), operOpen s = true ∧ v % 4 = 2) ∧
    (∃ (s : State) (lo : _), operOpen s = true ∧ mfind s.loHeld Reg.TIM_INCR_LO = some lo) ∧
    (∃ (s : State), s.boot.up = true ∧ flag s Reg.TIM_PPS_CFG_OUT_EN = true) ∧
    (∃ (s : State) (falling : _), s.boot.up = true ∧ flag s Reg.TIM_PPS_CFG_IN_EN = true ∧ flag s Reg.TIM_PPS_CFG_IN_POL = falling) ∧
    (∃ (s : State), operOpen s = true) :=
  ⟨⟨sRun, 1, by decide +kernel⟩,
   ⟨sRun, 2, by decide +kernel⟩,
   ⟨{ sRun with loHeld := [(Reg.TIM_INCR_LO, 5)] }, 5, by decide +kernel⟩,
   ⟨(withF sRun [(Reg.TIM_PPS_CFG_OUT_EN, 1)]), by decide +kernel⟩,
   ⟨(withF sRun [(Reg.TIM_PPS_CFG_IN_EN, 1)]), false, by decide +kernel⟩,
   ⟨sRun, by decide +kernel⟩⟩

/-- For each clause of SliceAddRemoveSleepWake, a state and operands that meet its hypotheses. -/
theorem witness_slice_add_remove_sleep_wake :
    (∃ (s : State) (n : Nat), n < 40 ∧ s.top = .run ∧ sliceMask s = [n] ∧ sliceState s n = 4) ∧
    (∃ (s : State) (n : Nat), n < 28 ∧ s.top = .run ∧ sliceMask s = [n] ∧ sliceState s n = 1) ∧
    (∃ (s : State) (n : Nat), 20 ≤ n ∧ n < 28 ∧ s.top = .run ∧ sliceMask s = [n] ∧ sliceState s n = 1) ∧
    (∃ (s : State) (n : Fin 40) (d : _), 20 ≤ n.val ∧ n.val < 28 ∧ sliceState s n = 2 ∧ mfind s.slc.drain n = some d) ∧
    (∃ (s : State) (n : Nat), n < 40 ∧ s.top = .run ∧ sliceMask s = [n] ∧ sliceState s n = 1) ∧
    (∃ (s : State) (n : Nat), n < 40 ∧ s.top = .run ∧ sliceMask s = [n] ∧ (sliceState s n = 1 ∨ sliceState s n = 2 ∨ sliceState s n = 6)) ∧
    (∃ (s : State) (n : Fin 40) (limit : _), sliceState s n = 2 ∧ (limit = true ∨ sliceIdle s n = true)) ∧
    (∃ (s : State) (n : Fin 40), sliceState s n = 3 ∧ (∀ i ∈ sliceDis n, diState s i = 0 ∨ diState s i = 6 ∨ diState s i = 7)) ∧
    (∃ (s : State) (n : Fin 40), sliceState s n = 5) ∧
    (∃ (s : State) (n : Fin 40), sliceState s n = 6 ∧ (∀ i ∈ sliceDis n, diState s i ≠ 1)) :=
  ⟨⟨(withF sRun [(⟨Reg.PWR_SLICE_MASK_HI, 0, 8⟩, 128), (Reg.PWR_SLICE_STAT_STATE 39, 4)]), 39, by decide +kernel⟩,
   ⟨(withF sRun [(⟨Reg.PWR_SLICE_MASK_LO, 0, 32⟩, 1), (Reg.PWR_SLICE_STAT_STATE 0, 1)]), 0, by decide +kernel⟩,
   ⟨(withF sRun [(⟨Reg.PWR_SLICE_MASK_LO, 0, 32⟩, 2 ^ 27), (Reg.PWR_SLICE_STAT_STATE 27, 1)]), 27, by decide +kernel⟩,
   ⟨{ (withF sRun [(Reg.PWR_SLICE_STAT_STATE 20, 2)]) with slc := { drain := [(20, (0, 0))] } }, 20, (0, 0), by decide +kernel⟩,
   ⟨(withF sRun [(⟨Reg.PWR_SLICE_MASK_HI, 0, 8⟩, 128), (Reg.PWR_SLICE_STAT_STATE 39, 1)]), 39, by decide +kernel⟩,
   ⟨(withF sRun [(⟨Reg.PWR_SLICE_MASK_HI, 0, 8⟩, 128), (Reg.PWR_SLICE_STAT_STATE 39, 6)]), 39, by decide +kernel⟩,
   ⟨(withF sRun [(Reg.PWR_SLICE_STAT_STATE 27, 2)]), 27, true, by decide +kernel⟩,
   ⟨(withF sRun [(Reg.PWR_SLICE_STAT_STATE 39, 3), (Reg.DRC_DI_STAT_STATE 22, 6), (Reg.DRC_DI_STAT_STATE 23, 7)]), 39, by decide +kernel⟩,
   ⟨(withF sRun [(Reg.PWR_SLICE_STAT_STATE 27, 5)]), 27, by decide +kernel⟩,
   ⟨(withF sRun [(Reg.PWR_SLICE_STAT_STATE 39, 6), (Reg.DRC_DI_STAT_STATE 22, 2), (Reg.DRC_DI_STAT_STATE 23, 7)]), 39, by decide +kernel⟩⟩

/-- For each clause of MaintenanceGrantAndDeadline, a state and operands that meet its hypotheses. -/
theorem witness_maintenance_grant_and_deadline :
    (∃ (s : State) (i : Nat) (m : Maint), i < 24 ∧ s.slc.due.find? (fun x => x.act == 1 && x.res == i) = some m ∧ isDue s 1 i = true ∧ grantOk s 1 i = true ∧ comesBefore s m = false) ∧
    (∃ (s : State) (g : Nat), resOwes s 2 g = true ∧ maintHeld s 2 g = false ∧ isRunning s 2 g = false ∧ isRunning s 3 g = false ∧ s.slc.due.find? (fun x => x.act == 2 && x.res == g) = none) ∧
    (∃ (s : State) (a : Fin 6) (r : Nat), owed s a r = true ∧ resOwes s a r = true ∧ isRunning s a r = false ∧ s.slc.due.any (fun m => m.act == a.val && m.res == r && m.late) = false) ∧
    (∃ (s : State) (a : Fin 6) (r : Nat), a ≠ 1 ∧ a ≠ 4 ∧ owed s a r = true ∧ resOwes s a r = true ∧ isRunning s a r = false ∧ s.slc.due.any (fun m => m.act == a.val && m.res == r && m.late) = false ∧ mfind s.flt.latch (Src.maintLate a) = none) :=
  ⟨⟨{ (withF sRun [(Reg.DRC_DI_STAT_STATE 0, 2), (Reg.PWR_SLICE_STAT_STATE 28, 1)]) with slc := { due := [{ act := 1, res := 0, due := 0 }] } }, 0, { act := 1, res := 0, due := 0 }, by decide +kernel⟩,
   ⟨(withF sRun [(Reg.PWR_SLICE_STAT_STATE 19, 1)]), 223, by decide +kernel⟩,
   ⟨(withF sRun [(Reg.PWR_SLICE_STAT_STATE 28, 1)]), 0, 0, by decide +kernel⟩,
   ⟨(withF sRun [(Reg.PWR_SLICE_STAT_STATE 28, 1)]), 0, 0, by decide +kernel⟩⟩

/-- For each clause of FaultCollectAndClear, a state and operands that meet its hypotheses. -/
theorem witness_fault_collect_and_clear :
    (∃ (s : State) (src : _) (r : Report), nextLatched s.tick s.flt.latch = some (src, r) ∧ r.sev = 0 ∧ mfind s.flt.lastRec src = none) ∧
    (∃ (s : State), nextLatched s.tick s.flt.latch = none) ∧
    (∃ (s : State) (src : _), powered s = true ∧ srcStatus s src = true ∧ srcCause s src = false ∧ mfind s.flt.latch src = none ∧ (∀ e ∈ s.flt.hold, e.1 ≠ src)) ∧
    (∃ (s : State) (src : _), powered s = true ∧ srcStatus s src = true ∧ srcCause s src = true) ∧
    (∃ (s : State), operOpen s = true ∧ (∀ t x l, s.flt.firstOf = some (t, x, l) → t ≠ s.tick)) ∧
    (∃ (s : State) (x : _) (l : _), operOpen s = true ∧ s.flt.firstOf = some (s.tick, x, l) ∧ l.length = 8) ∧
    (∃ (s : State) (v : _), operOpen s = true ∧ (v % 1024 + 1024 - getF s Reg.FLT_RING_RD_RD_IDX) % 1024 ≤ (getF s Reg.FLT_RING_STAT_WR_IDX + 1024 - getF s Reg.FLT_RING_RD_RD_IDX) % 1024) ∧
    (∃ (s : State) (v : _), operOpen s = true ∧ (getF s Reg.FLT_RING_STAT_WR_IDX + 1024 - getF s Reg.FLT_RING_RD_RD_IDX) % 1024 < (v % 1024 + 1024 - getF s Reg.FLT_RING_RD_RD_IDX) % 1024) ∧
    (∃ (s : State) (src : _) (r : Report), nextLatched s.tick s.flt.latch = some (src, r) ∧ r.sev = 1 ∧ src ≠ Src.vinWarn ∧ mfind s.flt.lastRec src = none ∧ recRingFull s = false) :=
  ⟨⟨{ sRun with tick := 1, flt := { latch := [(690, { loc := 0, detail := 0, tick := 0, time := {}, sev := 0, timeState := 0, injected := false })] } }, 690, { loc := 0, detail := 0, tick := 0, time := {}, sev := 0, timeState := 0, injected := false }, by decide +kernel⟩,
   ⟨sRun, by decide +kernel⟩,
   ⟨{ sRun with flt := { status := [2047] } }, 2047, by decide +kernel⟩,
   ⟨{ sRun with flt := { status := [5], cause := [(5, (0, 0))] } }, 5, by decide +kernel⟩,
   ⟨sRun, by decide +kernel, fun t x l h => by simp [sRun, State.reset] at h⟩,
   ⟨{ sRun with tick := 1, flt := { firstOf := some (1, 690, [0, 1, 2, 3, 4, 5, 6, 7]) } }, 690, [0, 1, 2, 3, 4, 5, 6, 7], by decide +kernel⟩,
   ⟨(withF sRun [(Reg.FLT_RING_STAT_WR_IDX, 3), (Reg.FLT_RING_RD_RD_IDX, 1023)]), 3, by decide +kernel⟩,
   ⟨(withF sRun [(Reg.FLT_RING_STAT_WR_IDX, 3), (Reg.FLT_RING_RD_RD_IDX, 1023)]), 4, by decide +kernel⟩,
   ⟨{ sRun with tick := 1, flt := { latch := [(690, { loc := 0, detail := 0, tick := 0, time := {}, sev := 1, timeState := 0, injected := false })] } }, 690, { loc := 0, detail := 0, tick := 0, time := {}, sev := 1, timeState := 0, injected := false }, by decide +kernel⟩⟩

/-- For each clause of FaultLogsAndInjection, a state and operands that meet its hypotheses. -/
theorem witness_fault_logs_and_injection :
    (∃ (s : State) (rcd : List Word) (rest : _), s.flt.nvWait = rcd :: rest ∧ powered s = true ∧ flag s Reg.PWR_VIN_STAT_WARN = false ∧ s.nvm.logHead % 2048 ≠ 0) ∧
    (∃ (s : State) (rcd : List Word) (rest : _), s.flt.nvWait = rcd :: rest ∧ powered s = true ∧ flag s Reg.PWR_VIN_STAT_WARN = false ∧ s.nvm.logHead % 2048 = 0) ∧
    (∃ (s : State) (v : _) (fmt : _) (a : _) (b : _) (c : _) (d : _) (e : _) (f : _) (g : _) (h : _), operOpen s = true ∧ mfind s.nvm.area.log (v % 8192) = some (fmt, [a, b, c, d, e, f, g, h])) ∧
    (∃ (s : State) (v : _), operOpen s = true ∧ mfind s.nvm.area.log (v % 8192) = none) ∧
    (∃ (s : State) (rcd : List Word), powered s = true ∧ pairMode s = true ∧ rcd.length = 8 ∧ recRingFull s = false) ∧
    (∃ (s : State) (rcd : List Word), powered s = true ∧ pairMode s = true ∧ rcd.length = 8 ∧ recRingFull s = true) ∧
    (∃ (s : State) (v : _), operOpen s = true ∧ s.boot.lc = .factory ∧ srcAssigned (bits v 0 11) = true ∧ bit v 16 = true ∧ mfind s.flt.latch (bits v 0 11) = none) ∧
    (∃ (s : State), operOpen s = true ∧ s.boot.lc ≠ .factory) :=
  ⟨⟨{ sRun with flt := { nvWait := [[7]] }, nvm := { logHead := 8191 } }, [7], [], by decide +kernel⟩,
   ⟨{ sRun with flt := { nvWait := [[7]] }, nvm := { logHead := 6144 } }, [7], [], by decide +kernel⟩,
   ⟨{ sRun with nvm := { area := { log := [(8191, (1, [1, 2, 3, 4, 5, 6, 7, 8]))] } } }, 8191, 1, 1, 2, 3, 4, 5, 6, 7, 8, by decide +kernel⟩,
   ⟨sRun, 8191, by decide +kernel⟩,
   ⟨(withF sRun [(Reg.PAIR_CFG_MODE, 1)]), (List.replicate 8 0), by decide +kernel⟩,
   ⟨(withF sRun [(Reg.PAIR_CFG_MODE, 1), (Reg.FLT_RING_STAT_WR_IDX, 1023)]), (List.replicate 8 0), by decide +kernel⟩,
   ⟨sRun, (0x10000 + 690), by decide +kernel⟩,
   ⟨(inLife .field), by decide +kernel⟩⟩

/-- For each clause of ScratchWritesAndAliases, a state and operands that meet its hypotheses. -/
theorem witness_scratch_writes_and_aliases :
    (∃ (s : State) (bank : Fin 32) (n : _) (o : ShOp), shrPick s bank (mget 0 s.scr.bankAt bank) 20 = some (n, o) ∧ scrErr s 20 o.word = .good) ∧
    (∃ (s : State) (a : _) (m : _) (w : _) (h : ScrHeld), operOpen s = true ∧ scrTarget s a = some (m, w) ∧ highHalf a = true ∧ scrAsleep s m = false ∧ s.scr.held = some h ∧ h.mem = m ∧ h.word = w ∧ flag s Reg.TST_MEMINJ_CTL_ARM = false) ∧
    (∃ (s : State) (a : _) (m : _) (w : _), operOpen s = true ∧ scrTarget s a = some (m, w) ∧ highHalf a = false ∧ scrAsleep s m = false ∧ s.scr.held = none) ∧
    (∃ (s : State) (a : _) (m : _) (w : _), operOpen s = true ∧ scrTarget s a = some (m, w) ∧ highHalf a = true ∧ scrAsleep s m = false ∧ s.scr.held = none ∧ scrErr s m w = .good) ∧
    (∃ (s : State) (a : _) (m : _) (w : _), operOpen s = true ∧ scrTarget s a = some (m, w) ∧ s.scr.held = none ∧ scrErr s m w = .good) ∧
    (∃ (s : State) (a : _) (m : _) (w : _), operOpen s = true ∧ scrTarget s a = some (m, w) ∧ s.scr.held = none ∧ scrErr s m w = .good) :=
  ⟨⟨{ sRun with scr := { queue := [(0, [{ set := true, word := 7, mask := 1 }])] } }, 7, 0, { set := true, word := 7, mask := 1 }, by decide +kernel⟩,
   ⟨{ sRun with scr := { held := some { addr := 0x1820000, mem := 0, word := 0, low := 9 } } }, 0x1820004, 0, 0, { addr := 0x1820000, mem := 0, word := 0, low := 9 }, by decide +kernel⟩,
   ⟨sRun, 0x183FFF8, 0, 16383, by decide +kernel⟩,
   ⟨sRun, 0x1820004, 0, 0, by decide +kernel⟩,
   ⟨sRun, 0x1820000, 0, 0, by decide +kernel⟩,
   ⟨sRun, 0x1820004, 0, 0, by decide +kernel⟩⟩

/-- For each clause of ScratchAtomicsAndTest, a state and operands that meet its hypotheses. -/
theorem witness_scratch_atomics_and_test :
    (∃ (s : State), operOpen s = true ∧ flag s Reg.SCR_ATOM_STAT_BUSY = false ∧ s.scr.held = none ∧ getF s Reg.SCR_ATOM_ADDR_PS < 20 ∧ scrAsleep s (getF s Reg.SCR_ATOM_ADDR_PS) = false ∧ scrErr s (getF s Reg.SCR_ATOM_ADDR_PS) (getF s Reg.SCR_ATOM_ADDR_WORD) = .good) ∧
    (∃ (s : State), operOpen s = true ∧ flag s Reg.SCR_ATOM_STAT_BUSY = false ∧ s.scr.held = none ∧ getF s Reg.SCR_ATOM_ADDR_PS < 20 ∧ scrAsleep s (getF s Reg.SCR_ATOM_ADDR_PS) = false ∧ scrErr s (getF s Reg.SCR_ATOM_ADDR_PS) (getF s Reg.SCR_ATOM_ADDR_WORD) = .poison) ∧
    (∃ (s : State), operOpen s = true ∧ flag s Reg.SCR_ATOM_STAT_BUSY = false ∧ s.scr.held = none ∧ getF s Reg.SCR_ATOM_ADDR_PS < 20 ∧ scrAsleep s (getF s Reg.SCR_ATOM_ADDR_PS) = false ∧ scrErr s (getF s Reg.SCR_ATOM_ADDR_PS) (getF s Reg.SCR_ATOM_ADDR_WORD) = .poison ∧ flag s Reg.TST_MEMINJ_CTL_ARM = false) ∧
    (∃ (s : State), operOpen s = true ∧ flag s Reg.SCR_ATOM_STAT_BUSY = true) ∧
    (∃ (s : State) (m : Fin 21), s.top = .run ∧ scrInterval s ≠ 0 ∧ (m.val < 20 → getF s (Reg.PWR_SLICE_STAT_STATE m) = 1) ∧ s.scr.dueNow = [] ∧ (∀ w, scrErr s m w = .good)) :=
  ⟨⟨(withF sRun [(Reg.SCR_ATOM_ADDR_PS, 19)]), by decide +kernel⟩,
   ⟨{ sRun with scr := { err := [(scrKey 0 0, .poison)] } }, by decide +kernel⟩,
   ⟨{ sRun with scr := { err := [(scrKey 0 0, .poison)] } }, by decide +kernel⟩,
   ⟨(withF sRun [(Reg.SCR_ATOM_STAT_BUSY, 1)]), by decide +kernel⟩,
   ⟨sRun, 20, by decide +kernel, by decide +kernel, by decide +kernel, by decide +kernel, fun _ => rfl⟩⟩

/-- For each clause of CounterReadsAndDumps, a state and operands that meet its hypotheses. -/
theorem witness_counter_reads_and_dumps :
    (∃ (s : State) (v : _), operOpen s = true ∧ bit v 22 = true ∧ bit v 21 = false ∧ flag s Reg.CNT_STAT_RD_BUSY = false) ∧
    (∃ (s : State) (v : _), operOpen s = true ∧ bit v 22 = true ∧ bit v 21 = true ∧ flag s Reg.CNT_STAT_RD_BUSY = false) ∧
    (∃ (s : State) (j : Fin 128) (v : _), operOpen s = true ∧ getF s (Reg.CNT_PERF_TEN_TENANT j) ≠ v % 256) ∧
    (∃ (s : State) (j : Fin 128) (v : _), operOpen s = true ∧ getF s (Reg.CNT_PERF_TEN_TENANT j) = v % 256 ∧ bit v 8 = true) ∧
    (∃ (s : State) (d : Fin 64), operOpen s = true ∧ flag s (Reg.CNT_DGRP_CFG_EN d) = true ∧ mfind s.cnt.snaps d = none) ∧
    (∃ (s : State) (d : Fin 64) (x : Snapshot), operOpen s = true ∧ flag s (Reg.CNT_DGRP_CFG_EN d) = true ∧ mfind s.cnt.snaps d = some x) ∧
    (∃ (s : State) (d : Fin 64) (x : Snapshot), s.cnt.snaps = [(d.val, x)] ∧ ringRuns s 0 (36 + x.ring) = false) ∧
    (∃ (s : State) (d : Fin 64) (x : Snapshot), s.cnt.snaps = [(d.val, x)] ∧ x.ring < 8 ∧ ringRuns s 0 (36 + x.ring) = true ∧ x.perfKind = false ∧ x.written = 0 ∧ x.entries + 2 ≤ ringRoom s 0 (36 + x.ring)) :=
  ⟨⟨sRun, (2 ^ 22), by decide +kernel⟩,
   ⟨sRun, (2 ^ 22 + 2 ^ 21), by decide +kernel⟩,
   ⟨sRun, 127, 5, by decide +kernel⟩,
   ⟨sRun, 127, 256, by decide +kernel⟩,
   ⟨(withF sRun [(Reg.CNT_DGRP_CFG_EN 63, 1)]), 63, by decide +kernel⟩,
   ⟨{ (withF sRun [(Reg.CNT_DGRP_CFG_EN 63, 1)]) with cnt := { snaps := [(63, snap0)] } }, 63, snap0, by decide +kernel⟩,
   ⟨{ sRun with cnt := { snaps := [(3, snap0)] } }, 3, snap0, by decide +kernel⟩,
   ⟨{ (withF sRun [(Reg.HIF_FN_CFG_RINGS_EN 0, 1), (Reg.HIF_RING_CFG_EN 0 36, 1)]) with cnt := { snaps := [(3, snap0)] } }, 3, snap0, by decide +kernel⟩⟩

/-- For each clause of TapInstructions, a state and operands that meet its hypotheses. -/
theorem witness_tap_instructions :
    (∃ (s : State), s.top ≠ .off ∧ s.top ≠ .run ∧ getF s Reg.TST_STAT_INSTR ≠ 0x82) ∧
    (∃ (s : State), s.top = .run ∧ getF s Reg.TST_STAT_INSTR ≠ 0x82) ∧
    (∃ (s : State), s.top ≠ .off ∧ getF s Reg.TST_STAT_INSTR ≠ 0x82) ∧
    (∃ (s : State), s.top ≠ .off ∧ getF s Reg.TST_STAT_INSTR ≠ 0x82) ∧
    (∃ (s : State), s.top ≠ .off ∧ getF s Reg.TST_STAT_INSTR ≠ 0x82 ∧ s.boot.lc = .returned) ∧
    (∃ (s : State), s.top ≠ .off ∧ getF s Reg.TST_STAT_INSTR ≠ 0x82 ∧ s.boot.lc = .field) ∧
    (∃ (s : State), s.top = .bringup ∧ getF s Reg.TST_STAT_INSTR ≠ 0x82 ∧ s.boot.lc = .factory ∧ flag s Reg.TST_STAT_FTEST_EN = true) ∧
    (∃ (s : State), s.top = .bringup ∧ getF s Reg.TST_STAT_INSTR = 0x82) :=
  ⟨⟨(sAt .bringup), by decide +kernel⟩,
   ⟨sRun, by decide +kernel⟩,
   ⟨sRun, by decide +kernel⟩,
   ⟨sRun, by decide +kernel⟩,
   ⟨(inLife .returned), by decide +kernel⟩,
   ⟨(inLife .field), by decide +kernel⟩,
   ⟨(withF (sAt .bringup) [(Reg.TST_STAT_FTEST_EN, 1)]), by decide +kernel⟩,
   ⟨(withF (sAt .bringup) [(Reg.TST_STAT_INSTR, 0x82)]), by decide +kernel⟩⟩

/-- For each clause of LaneTestsAndProbes, a state and operands that meet its hypotheses. -/
theorem witness_lane_tests_and_probes :
    (∃ (s : State) (v : _), operOpen s = true ∧ (bit v 0 = false ∨ bits v 6 2 ≠ 3) ∧ (bit v 3 = false ∨ bits v 6 2 ≠ 2) ∧ laneNormal v = false) ∧
    (∃ (s : State) (v : _), operOpen s = true ∧ bit v 0 = true ∧ bits v 6 2 = 3) ∧
    (∃ (s : State) (x : Fin 388), checkerActs s x = true) ∧
    (∃ (s : State) (x : Fin 388), checkerActs s x = true ∧ flag s (Reg.TST_LANE_STAT_LOCK x) = true) ∧
    (∃ (s : State) (x : Fin 388) (n : _), checkerActs s x = true ∧ flag s (Reg.TST_LANE_STAT_LOCK x) = true ∧ 0 < n) ∧
    (∃ (s : State) (x : Fin 388), flag s (Reg.TST_LANE_STAT_LOCK x) = false) ∧
    (∃ (s : State) (v : _), s.top = .run ∧ 20 ≤ bits (Nat.lor v 1) 1 5) ∧
    (∃ (s : State) (v : _), s.top = .run ∧ bits (Nat.lor v 1) 1 5 < 20) ∧
    (∃ (s : State), s.top = .run ∧ role s = 2 ∧ getF s Reg.PAIR_STBY_CFG_PROBE_US ≠ 0) ∧
    (∃ (s : State) (n : Fin 20) (q : _) (x : Probe), s.tst.probes.find? (fun e => e.2.pipe == n.val && e.2.buf.isSome) = some (q, x)) ∧
    (∃ (s : State) (n : Fin 20) (q : _) (x : Probe) (f : _), s.tst.probes.find? (fun e => e.2.pipe == n.val && e.2.buf.isSome) = some (q, x) ∧ f ≠ x.bytes) ∧
    (∃ (s : State) (n : Fin 20), s.tst.probes.find? (fun e => e.2.pipe == n.val && e.2.buf.isSome) = none) ∧
    (∃ (s : State) (n : Fin 20) (q : _) (x : Probe), probeOf s n = some (q, x) ∧ x.standby = false ∧ x.buf = none) ∧
    (∃ (s : State) (n : Fin 20) (q : _) (x : Probe), probeOf s n = some (q, x)) ∧
    (∃ (s : State), operOpen s = true ∧ s.boot.lc = .factory ∧ scrNamed (rdPair s Reg.TST_MEMINJ_LOC_LO Reg.TST_MEMINJ_LOC_HI % 2 ^ 48) = true) ∧
    (∃ (s : State), operOpen s = true ∧ s.boot.lc = .field) :=
  ⟨⟨sRun, 1, by decide +kernel⟩,
   ⟨sRun, 193, by decide +kernel⟩,
   ⟨{ (withF sRun [(Reg.TST_LANE_CFG_CHK_EN 384, 1), (Reg.PAIR_CFG_MODE, 1), (Reg.PAIR_CFG_GAL_LANE_EN, 1)]) with pair := { galUp := [0] } }, 384, by decide +kernel⟩,
   ⟨{ (withF sRun [(Reg.TST_LANE_CFG_CHK_EN 384, 1), (Reg.PAIR_CFG_MODE, 1), (Reg.PAIR_CFG_GAL_LANE_EN, 1), (Reg.TST_LANE_STAT_LOCK 384, 1)]) with pair := { galUp := [0] } }, 384, by decide +kernel⟩,
   ⟨{ (withF sRun [(Reg.TST_LANE_CFG_CHK_EN 384, 1), (Reg.PAIR_CFG_MODE, 1), (Reg.PAIR_CFG_GAL_LANE_EN, 1), (Reg.TST_LANE_STAT_LOCK 384, 1)]) with pair := { galUp := [0] } }, 384, 1, by decide +kernel⟩,
   ⟨sRun, 387, by decide +kernel⟩,
   ⟨sRun, 40, by decide +kernel⟩,
   ⟨sRun, 38, by decide +kernel⟩,
   ⟨(withF sRun [(Reg.PAIR_STAT_ROLE, 2)]), by decide +kernel⟩,
   ⟨{ sRun with tst := { probes := [(5, { pipe := 19, standby := true, bytes := [], buf := some 3 })] } }, 19, 5, { pipe := 19, standby := true, bytes := [], buf := some 3 }, by decide +kernel⟩,
   ⟨{ sRun with tst := { probes := [(5, { pipe := 19, standby := true, bytes := [], buf := some 3 })] } }, 19, 5, { pipe := 19, standby := true, bytes := [], buf := some 3 }, [1], by decide +kernel⟩,
   ⟨{ sRun with tst := { probes := [(5, { pipe := 19, standby := true, bytes := [], buf := none })] } }, 19, by decide +kernel⟩,
   ⟨{ sRun with tst := { probes := [(5, { pipe := 19, standby := false, bytes := [], buf := none })] } }, 19, 5, { pipe := 19, standby := false, bytes := [], buf := none }, by decide +kernel⟩,
   ⟨{ sRun with tst := { probes := [(5, { pipe := 19, standby := true, bytes := [], buf := none })] } }, 19, 5, { pipe := 19, standby := true, bytes := [], buf := none }, by decide +kernel⟩,
   ⟨(withF sRun [(⟨Reg.TST_MEMINJ_LOC_LO, 0, 32⟩, 0x80000000), (⟨Reg.TST_MEMINJ_LOC_HI, 0, 16⟩, 1)]), by decide +kernel⟩,
   ⟨(inLife .field), by decide +kernel⟩⟩

/-- For each clause of LoadAndVerify, a state and operands that meet its hypotheses. -/
theorem witness_load_and_verify :
    (∃ (s : State), s.boot.loading = true ∧ s.boot.nvmUp = false ∧ s.top = .load ∧ s.boot.dir = none) ∧
    (∃ (s : State), s.boot.loading = true ∧ s.boot.nvmUp = false ∧ s.top = .load ∧ s.boot.idTries = 2) ∧
    (∃ (s : State) (r : Reading) (b : Bytes), s.boot.loading = true ∧ s.top = .load ∧ s.boot.read = some r ∧ r.what ≤ 1 ∧ dirCrcOk b = false ∧ r.fails < 2) ∧
    (∃ (s : State) (r : Reading) (b : Bytes), s.boot.loading = true ∧ s.top = .load ∧ s.boot.read = some r ∧ (r.what = 2 ∨ r.what = 3) ∧ 0 < r.item ∧ r.item ≤ s.boot.part.blockCount ∧ blockOk (r.item - 1) b = false ∧ r.fails = 2) ∧
    (∃ (s : State) (r : Reading) (b : Bytes), s.boot.loading = true ∧ s.top = .load ∧ s.boot.read = some r ∧ (r.what = 2 ∨ r.what = 3) ∧ 0 < r.item ∧ r.item ≤ s.boot.part.blockCount ∧ blockOk (r.item - 1) b = true ∧ r.fails = 0) ∧
    (∃ (s : State), s.boot.loading = true ∧ s.boot.read = some { what := 4 } ∧ s.top = .load) ∧
    (∃ (s : State), s.boot.loading = true ∧ s.boot.read = some { what := 4 } ∧ s.top = .hold) ∧
    (∃ (s : State) (fw : Image) (cfg : Image), s.top = .verify ∧ s.boot.verified = false ∧ s.boot.fw = some fw ∧ s.boot.cfg = some cfg ∧ imageFault s.otp fw 1 ≠ 0 ∧ imageFault s.otp fw 1 < 256) ∧
    (∃ (s : State) (fw : Image) (cfg : Image), s.top = .verify ∧ s.boot.verified = false ∧ s.boot.fw = some fw ∧ s.boot.cfg = some cfg ∧ imageFault s.otp fw 1 = 0 ∧ imageFault s.otp cfg 2 = 0 ∧ s.boot.toProgram = none) ∧
    (∃ (s : State) (fw : Image) (cfg : Image) (typ : _) (slot : _), s.top = .verify ∧ s.boot.verified = true ∧ programsBlocked s = false ∧ s.boot.fw = some fw ∧ s.boot.cfg = some cfg ∧ s.boot.toProgram = some (typ, slot) ∧ s.boot.dir = none) :=
  ⟨⟨State.reset, by decide +kernel⟩,
   ⟨{ State.reset with boot := { idTries := 2 } }, by decide +kernel⟩,
   ⟨{ State.reset with boot := { read := some { what := 1, fails := 1 } } }, { what := 1, fails := 1 }, [], by decide +kernel⟩,
   ⟨{ State.reset with boot := { read := some { what := 2, item := 1, fails := 2 }, part := { header := List.replicate 12 0 ++ [1] } } }, { what := 2, item := 1, fails := 2 }, [], by decide +kernel⟩,
   ⟨{ State.reset with boot := { read := some { what := 3, item := 1 }, part := { header := List.replicate 12 0 ++ [1] } } }, { what := 3, item := 1 }, testBlock, by decide +kernel, by decide +kernel, by decide +kernel,
    by decide +kernel, by decide +kernel, by decide +kernel, testBlock_ok, by decide +kernel⟩,
   ⟨{ State.reset with boot := { read := some { what := 4 } } }, by decide +kernel⟩,
   ⟨{ sAt .hold with boot := { read := some { what := 4 } } }, by decide +kernel⟩,
   ⟨{ sAt .verify with boot := { fw := some {}, cfg := some {} } }, {}, {}, by decide +kernel⟩,
   ⟨{ sAt .verify with otp := testOtp, boot := { fw := some (testImage 1 0 false), cfg := some (testImage 1 0 false) } }, testImage 1 0 false, testImage 1 0 false, rfl, rfl, rfl, rfl,
    (testImage_faultless 0 false).1, (testImage_faultless 0 false).2, rfl⟩,
   ⟨{ sAt .verify with boot := { fw := some {}, cfg := some {}, verified := true, toProgram := some (1, 0) } }, {}, {}, 1, 0, by decide +kernel⟩⟩

/-- For each clause of ApplyBringupAndReread, a state and operands that meet its hypotheses. -/
theorem witness_apply_bringup_and_reread :
    (∃ (s : State) (cfg : Image), s.top = .apply ∧ s.boot.endSeen = false ∧ s.boot.cfg = some cfg ∧ (recStep cfg.payload s).fail = none) ∧
    (∃ (s : State) (cfg : Image) (reason : _) (st : _), s.top = .apply ∧ s.boot.endSeen = false ∧ s.boot.cfg = some cfg ∧ (recStep cfg.payload s).fail = some (reason, st)) ∧
    (∃ (s : State) (fw : Image) (cfg : Image), s.top = .apply ∧ s.boot.endSeen = true ∧ s.boot.fw = some fw ∧ s.boot.cfg = some cfg ∧ applyStands s = true) ∧
    (∃ (s : State) (fw : Image) (cfg : Image), s.top = .apply ∧ s.boot.endSeen = true ∧ s.boot.fw = some fw ∧ s.boot.cfg = some cfg ∧ applyStands s = false) ∧
    (∃ (s : State), s.top = .bringup ∧ tapDrives s = false ∧ s.clk.starting = [] ∧ s.upd.restartTrial = false) ∧
    (∃ (s : State), s.top = .bringup ∧ tapDrives s = true) ∧
    (∃ (s : State), s.top = .hold) ∧
    (∃ (s : State), s.top = .run) :=
  ⟨⟨{ sAt .apply with boot := { cfg := some manifestImage } }, manifestImage, by decide +kernel⟩,
   ⟨{ sAt .apply with boot := { cfg := some {} } }, {}, 12, 0, by decide +kernel⟩,
   ⟨{ sAt .apply with boot := { cfg := some {}, fw := some {}, endSeen := true } }, {}, {}, by decide +kernel⟩,
   ⟨{ (withF (sAt .apply) [(Reg.DRC_GLB_CFG_DENSITY, 3), (Reg.BUF_DPOOL_CFG_PER_DI 0, 1)]) with boot := { cfg := some {}, fw := some {}, endSeen := true } }, {}, {}, by decide +kernel⟩,
   ⟨{ sAt .bringup with clk := {} }, by decide +kernel⟩,
   ⟨(withF (sAt .bringup) [(Reg.TST_STAT_INSTR, 0), (Reg.TST_STAT_PIN_DRIVE, 1)]), by decide +kernel⟩,
   ⟨(sAt .hold), by decide +kernel⟩,
   ⟨sRun, by decide +kernel⟩⟩

/-- For each clause of PushCommitKeysLifeCycle, a state and operands that meet its hypotheses. -/
theorem witness_push_commit_keys_life_cycle :
    (∃ (s : State) (v : _), s.top = .hold ∧ s.boot.loading = false ∧ s.boot.push = none ∧ 1 ≤ bits v 1 3 ∧ bits v 1 3 ≤ 4) ∧
    (∃ (s : State) (v : _), s.top = .run ∧ (bits v 1 3 = 1 ∨ bits v 1 3 = 2)) ∧
    (∃ (s : State) (typ : _) (p : _) (k : _), s.top = .hold ∧ s.boot.push = some (typ, p, k) ∧ typ < 3) ∧
    (∃ (s : State) (typ : _) (p : _) (k : _), s.boot.push = some (typ, p, k) ∧ 3 ≤ typ) ∧
    (∃ (s : State), operOpen s = true ∧ mayCommit s 0 s.otp.floorFw = true) ∧
    (∃ (s : State), operOpen s = true ∧ mayCommit s 0 s.otp.floorFw = false) ∧
    (∃ (s : State), operOpen s = true ∧ mayCommit s 1 s.otp.floorCfg = true) ∧
    (∃ (s : State) (v : _), (s.top = .run ∨ s.top = .hold) ∧ bits v 16 16 = 0x5EA1 ∧ usagesRemain s.otp (bits v 0 2) = true ∧ programsBlocked s = false) ∧
    (∃ (s : State) (v : _), s.top = .run ∧ bits v 16 16 ≠ 0x5EA1) ∧
    (∃ (s : State) (v : _), operOpen s = true ∧ s.boot.lc = .factory ∧ bits v 16 16 = 0x5EA1 ∧ s.otp.keys.any (fun e => bit e.2.usage 1) = true ∧ programsBlocked s = false) ∧
    (∃ (s : State), operOpen s = true ∧ s.boot.lc = .field) ∧
    (∃ (s : State) (typ : _) (p : _) (k : _) (d : Bytes), s.boot.push = some (typ, p, k) ∧ 1 ≤ typ ∧ typ < 3 ∧ d.length = getF s Reg.BOOT_PUSH_LEN_LEN ∧ hdrCrcOk (parseImage d k true).header = true ∧ formatOk (parseImage d k true) typ (maxSlot typ) = true ∧ (parseImage d k true).length = d.length ∧ badBlock (parseImage d k true) = none) ∧
    (∃ (s : State) (fw : Image) (cfg : Image) (typ : _) (slot : _), s.top = .verify ∧ s.boot.verified = true ∧ programsBlocked s = false ∧ s.boot.fw = some fw ∧ s.boot.cfg = some cfg ∧ s.boot.toProgram = some (typ, slot) ∧ s.boot.dir.isSome = true ∧ (if typ = 1 then fw else cfg).length ≤ (slotPlace s typ slot).2 ∧ (wornOut s (blocksOf (slotPlace s typ slot).1 (if typ = 1 then fw else cfg).length) = false)) ∧
    (∃ (s : State) (p : _) (k : _) (d : Bytes), s.boot.push = some (4, p, k) ∧ d.length = getF s Reg.BOOT_PUSH_LEN_LEN ∧ hdrCrcOk (parseImage d k true).header = true ∧ formatOk (parseImage d k true) 4 (maxSlot 4) = true ∧ (parseImage d k true).length = d.length ∧ badBlock (parseImage d k true) = none ∧ s.boot.lc ≠ .factory) :=
  ⟨⟨{ sAt .hold with boot := { loading := false } }, 8, by decide +kernel⟩,
   ⟨sRun, 4, by decide +kernel⟩,
   ⟨{ sAt .hold with boot := { push := some (2, true, 1) } }, 2, true, 1, by decide +kernel⟩,
   ⟨{ sAt .hold with boot := { push := some (3, true, 1) } }, 3, true, 1, by decide +kernel⟩,
   ⟨(withF sRun [(Reg.BOOT_ARB_RUN_SEQ 0, 1)]), by decide +kernel⟩,
   ⟨sRun, by decide +kernel⟩,
   ⟨(withF sRun [(Reg.BOOT_ARB_RUN_SEQ 1, 1)]), by decide +kernel⟩,
   ⟨sRun, 0x5EA10001, by decide +kernel⟩,
   ⟨sRun, 1, by decide +kernel⟩,
   ⟨{ sRun with otp := { Otp.shipped with keys := [(0, { usage := 7, hash := [], revoked := false })] } }, 0x5EA10000, by decide +kernel⟩,
   ⟨(inLife .field), by decide +kernel⟩,
   ⟨{ (withF sRun [(Reg.BOOT_PUSH_LEN_LEN, 4448)]) with boot := { push := some (1, true, 1) } }, 1, true, 1, testBytes 1, by decide +kernel, by decide +kernel, by decide +kernel,
    by rw [testBytes_length]; decide +kernel, by rw [testImage_parsed 1 1 true (by decide +kernel)]; decide +kernel, by rw [testImage_parsed 1 1 true (by decide +kernel)]; decide +kernel,
    by rw [testImage_parsed 1 1 true (by decide +kernel), testBytes_length]; decide +kernel, by rw [testImage_parsed 1 1 true (by decide +kernel)]; exact testImage_blocks _ _ _⟩,
   ⟨{ sAt .verify with boot := { fw := some {}, cfg := some {}, verified := true, toProgram := some (2, 1), dir := some dir0 } }, {}, {}, 2, 1, by decide +kernel⟩,
   ⟨{ (withF sRun [(Reg.BOOT_PUSH_LEN_LEN, 4448)]) with boot := { push := some (4, false, 0), lc := .field } }, false, 0, testBytes 4, by decide +kernel, by rw [testBytes_length]; decide +kernel,
    by rw [testImage_parsed 4 0 true (by decide +kernel)]; decide +kernel, by rw [testImage_parsed 4 0 true (by decide +kernel)]; decide +kernel,
    by rw [testImage_parsed 4 0 true (by decide +kernel), testBytes_length]; decide +kernel, by rw [testImage_parsed 4 0 true (by decide +kernel)]; exact testImage_blocks _ _ _,
    by decide +kernel⟩⟩

/-- For each clause of UpdateStageToActivation, a state and operands that meet its hypotheses. -/
theorem witness_update_stage_to_activation :
    (∃ (s : State) (v : _), s.top = .run ∧ stageRefusal s (bits v 1 2) = 0) ∧
    (∃ (s : State), s.top = .run ∧ (updState s = 1 ∨ updState s = 2)) ∧
    (∃ (s : State) (a : Nat) (b : Nat), programsBlocked s = false ∧ updState s = 1 ∧ s.upd.staging = some (a, b)) ∧
    (∃ (s : State) (typ : _) (slot : _) (d : Bytes), programsBlocked s = false ∧ updState s = 1 ∧ s.upd.staging = some (typ, slot) ∧ hdrCrcOk (parseImage d slot false).header = true ∧ formatOk (parseImage d slot false) typ (slotPlace s typ slot).2 = true ∧ (parseImage d slot false).length = getF s Reg.UPD_STAGE_LEN_LEN ∧ badBlock (parseImage d slot false) = none ∧ imageFault s.otp (parseImage d slot false) typ = 0 ∧ 256 ≤ d.length) ∧
    (∃ (s : State) (e : _), updState s = 2 ∧ buildShadow s = .error e) ∧
    (∃ (s : State) (b : Bank), updState s = 2 ∧ buildShadow s = .ok b) ∧
    (∃ (s : State) (v : _), s.top = .run ∧ bits (Nat.lor v 1) 0 6 = 1 ∧ updState s = 3 ∧ getF s Reg.UPD_STAT_REQ_CLASS ≠ 2 ∧ s.ptp.total + 100000000 ≤ actTime s) ∧
    (∃ (s : State) (v : _), s.top = .run ∧ bits (Nat.lor v 1) 0 6 = 1 ∧ updState s = 3 ∧ getF s Reg.UPD_STAT_REQ_CLASS = 2) ∧
    (∃ (s : State) (v : _), s.top = .run ∧ bits (Nat.lor v 2) 0 6 = 2 ∧ updState s = 4 ∧ s.ptp.total < actTime s ∧ s.upd.shadow.isSome = true) ∧
    (∃ (s : State) (b : Bank), updState s = 4 ∧ s.upd.shadow = some b ∧ actTime s ≤ s.ptp.total ∧ s.upd.fw = none ∧ s.upd.cfg = none) ∧
    (∃ (s : State), updState s = 4 ∧ s.ptp.total < actTime s) :=
  ⟨⟨sRun, 2, by decide +kernel⟩,
   ⟨(withF sRun [(Reg.UPD_STAT_STATE, 2)]), by decide +kernel⟩,
   ⟨{ (withF sRun [(Reg.UPD_STAT_STATE, 1)]) with upd := { staging := some (1, 0) } }, 1, 0, by decide +kernel⟩,
   ⟨{ (withF sRun [(Reg.UPD_STAT_STATE, 1), (Reg.UPD_STAGE_LEN_LEN, 4448)]) with otp := testOtp, upd := { staging := some (1, 1) }, boot := { dir := some dir0 } }, 1, 1, testBytes 1, by decide +kernel, by decide +kernel, by decide +kernel,
    by rw [testImage_parsed 1 1 false (by decide +kernel)]; decide +kernel, by rw [testImage_parsed 1 1 false (by decide +kernel)]; decide +kernel,
    by rw [testImage_parsed 1 1 false (by decide +kernel)]; decide +kernel, by rw [testImage_parsed 1 1 false (by decide +kernel)]; exact testImage_blocks _ _ _,
    by rw [testImage_parsed 1 1 false (by decide +kernel)]; exact (testImage_faultless 1 false).1, by rw [testBytes_length]; decide +kernel⟩,
   ⟨{ (withF sRun [(Reg.UPD_STAT_STATE, 2)]) with upd := { cfg := some {} } }, 12, by decide +kernel, by rfl⟩,
   ⟨(withF sRun [(Reg.UPD_STAT_STATE, 2)]), { bankOf (withF sRun [(Reg.UPD_STAT_STATE, 2)]) with ids := preparedIds (withF sRun [(Reg.UPD_STAT_STATE, 2)]) }, by decide +kernel, rfl⟩,
   ⟨(withF sRun [(Reg.UPD_STAT_STATE, 3), (Reg.UPD_ACT_TIME_HI_SEC, 1)]), 0, by decide +kernel⟩,
   ⟨(withF sRun [(Reg.UPD_STAT_STATE, 3), (Reg.UPD_STAT_REQ_CLASS, 2)]), 0, by decide +kernel⟩,
   ⟨{ (withF sRun [(Reg.UPD_STAT_STATE, 4), (Reg.UPD_ACT_TIME_HI_SEC, 1)]) with upd := { shadow := some {} } }, 0, by decide +kernel⟩,
   ⟨{ (withF sRun [(Reg.UPD_STAT_STATE, 4)]) with upd := { shadow := some {} } }, {}, by decide +kernel⟩,
   ⟨(withF sRun [(Reg.UPD_STAT_STATE, 4), (Reg.UPD_ACT_TIME_LO_NS, 1)]), by decide +kernel⟩⟩

/-- For each clause of UpdateTrialToEnd, a state and operands that meet its hypotheses. -/
theorem witness_update_trial_to_end :
    (∃ (s : State), updState s = 5) ∧
    (∃ (s : State) (v : _), s.top = .run ∧ bits (Nat.lor v 4) 0 6 = 4 ∧ updState s = 6 ∧ s.upd.window.2 ≠ 0 ∧ updCode v = true) ∧
    (∃ (s : State) (v : _), s.top = .run ∧ bits (Nat.lor v 4) 0 6 = 4 ∧ updState s = 6 ∧ s.upd.window.2 = 0) ∧
    (∃ (s : State) (v : _), s.top = .run ∧ bits (Nat.lor v 8) 0 6 = 8 ∧ updState s = 6 ∧ updCode v = true) ∧
    (∃ (s : State) (v : _), s.top = .run ∧ bits (Nat.lor v 8) 0 6 = 8 ∧ updState s = 6 ∧ updCode v = false) ∧
    (∃ (s : State), updState s = 6) ∧
    (∃ (s : State) (b : Bank), updState s = 6 ∧ flag s Reg.UPD_STAT_FALLBACK_DUE = true ∧ safePoint s = true ∧ s.upd.restartTrial = false ∧ s.upd.shadow = some b) ∧
    (∃ (s : State), updState s = 6 ∧ safePoint s = false) ∧
    (∃ (s : State), updState s = 7 ∧ s.upd.restartTrial = false) ∧
    (∃ (s : State) (v : _), s.top = .run ∧ bits (Nat.lor v 16) 0 6 = 16 ∧ updState s = 3 ∧ pairMode s = true ∧ role s = 1) ∧
    (∃ (s : State) (v : _), s.top = .run ∧ bits (Nat.lor v 16) 0 6 = 16 ∧ updState s = 3 ∧ ¬(pairMode s = true ∧ role s = 1) ∧ updCode v = true ∧ programsBlocked s = false ∧ s.boot.dirOwed = none) ∧
    (∃ (s : State) (v : _), s.top = .run ∧ bits (Nat.lor v 32) 0 6 = 32 ∧ updState s = 3) :=
  ⟨⟨(withF sRun [(Reg.UPD_STAT_STATE, 5)]), by decide +kernel⟩,
   ⟨{ (withF sRun [(Reg.UPD_STAT_STATE, 6)]) with upd := { window := (0, 1) } }, 0x5EA10000, by decide +kernel⟩,
   ⟨(withF sRun [(Reg.UPD_STAT_STATE, 6)]), 0, by decide +kernel⟩,
   ⟨(withF sRun [(Reg.UPD_STAT_STATE, 6)]), 0x5EA10000, by decide +kernel⟩,
   ⟨(withF sRun [(Reg.UPD_STAT_STATE, 6)]), 0, by decide +kernel⟩,
   ⟨(withF sRun [(Reg.UPD_STAT_STATE, 6)]), by decide +kernel⟩,
   ⟨{ (withF sRun [(Reg.UPD_STAT_STATE, 6), (Reg.UPD_STAT_FALLBACK_DUE, 1)]) with upd := { shadow := some {} } }, {}, by decide +kernel⟩,
   ⟨(withF sRun [(Reg.UPD_STAT_STATE, 6), (Reg.PWR_VIN_STAT_WARN, 1)]), by decide +kernel⟩,
   ⟨(withF sRun [(Reg.UPD_STAT_STATE, 7)]), by decide +kernel⟩,
   ⟨(withF sRun [(Reg.UPD_STAT_STATE, 3), (Reg.PAIR_CFG_MODE, 1), (Reg.PAIR_STAT_ROLE, 1)]), 0, by decide +kernel⟩,
   ⟨(withF sRun [(Reg.UPD_STAT_STATE, 3)]), 0x5EA10000, by decide +kernel⟩,
   ⟨(withF sRun [(Reg.UPD_STAT_STATE, 3)]), 0, by decide +kernel⟩⟩

/-- For each clause of RingRegisterWrites, a state and operands that meet its hypotheses. -/
theorem witness_ring_register_writes :
    (∃ (s : State) (f : Fin 256) (r : Fin 44) (v : _), flag s (Reg.HIF_FN_STAT_ENABLED f) = true ∧ ringExists f r = true ∧ operOpen s = true ∧ hostToDev r = true ∧ ringRuns s f r = true ∧ v % 65536 < ringSize s f r ∧ (v % 65536 + ringSize s f r - ringProd s f r) % ringSize s f r ≤ ringRoom s f r) ∧
    (∃ (s : State) (f : Fin 256) (r : Fin 44) (v : _), flag s (Reg.HIF_FN_STAT_ENABLED f) = true ∧ ringExists f r = true ∧ operOpen s = true ∧ hostToDev r = true ∧ ringRuns s f r = true ∧ ringSize s f r ≤ v % 65536) ∧
    (∃ (s : State) (f : Fin 256) (r : Fin 44), flag s (Reg.HIF_FN_STAT_ENABLED f) = true ∧ ringExists f r = false ∧ powered s = true) ∧
    (∃ (s : State) (f : Fin 256) (r : Fin 44) (v : _), flag s (Reg.HIF_FN_STAT_ENABLED f) = true ∧ ringExists f r = true ∧ operOpen s = true ∧ hostToDev r = false ∧ r.val ≠ 17 ∧ ringRuns s f r = true ∧ v % 65536 < ringSize s f r ∧ (v % 65536 + ringSize s f r - ringCons s f r) % ringSize s f r ≤ (ringProd s f r + ringSize s f r - ringCons s f r) % ringSize s f r) ∧
    (∃ (s : State) (f : Fin 256) (r : Fin 44), flag s (Reg.HIF_FN_STAT_ENABLED f) = true ∧ ringExists f r = true ∧ operOpen s = true ∧ flag s (Reg.HIF_RING_CFG_EN f r) = false) ∧
    (∃ (s : State) (f : Fin 256) (r : Fin 44) (v : _), flag s (Reg.HIF_FN_STAT_ENABLED f) = true ∧ ringExists f r = true ∧ operOpen s = true ∧ flag s (Reg.HIF_RING_CFG_EN f r) = true ∧ hostToDev r = false ∧ r.val ≠ 17 ∧ bits v 2 5 = getF s (Reg.HIF_RING_CFG_SIZE_LOG2 f r) ∧ (f.val = 0 → ∀ e ∈ s.cnt.snaps, 36 + e.2.ring ≠ r.val)) ∧
    (∃ (s : State) (f : Fin 256) (r : Fin 44) (v : _), flag s (Reg.HIF_FN_STAT_ENABLED f) = true ∧ ringExists f r = true ∧ operOpen s = true ∧ flag s (Reg.HIF_RING_CFG_EN f r) = true ∧ bits v 2 5 ≠ getF s (Reg.HIF_RING_CFG_SIZE_LOG2 f r)) ∧
    (∃ (s : State) (f : Fin 256) (r : Fin 44) (v : _), flag s (Reg.HIF_FN_STAT_ENABLED f) = true ∧ ringExists f r = true ∧ operOpen s = true ∧ flag s (Reg.HIF_RING_CFG_EN f r) = true ∧ hostToDev r = true ∧ bits v 2 5 = getF s (Reg.HIF_RING_CFG_SIZE_LOG2 f r) ∧ bit v 0 = true ∧ mget [] s.hif.opened (ringKey f r) = [] ∧ mfind s.hif.skip (ringKey f r) = none) ∧
    (∃ (s : State) (r : Fin 44) (v : _), flag s (Reg.HIF_FN_STAT_ENABLED 0) = true ∧ operOpen s = true ∧ flag s (Reg.HIF_RING_CFG_EN 0 r) = true ∧ 36 ≤ r.val ∧ bits v 2 5 = getF s (Reg.HIF_RING_CFG_SIZE_LOG2 0 r)) :=
  ⟨⟨(withF sRun [(Reg.HIF_FN_CFG_RINGS_EN 0, 1), (Reg.HIF_RING_CFG_EN 0 0, 1)]), 0, 0, 63, by decide +kernel⟩,
   ⟨(withF sRun [(Reg.HIF_FN_CFG_RINGS_EN 0, 1), (Reg.HIF_RING_CFG_EN 0 34, 1)]), 0, 34, 64, by decide +kernel⟩,
   ⟨(withF sRun [(Reg.HIF_FN_STAT_ENABLED 255, 1)]), 255, 1, by decide +kernel⟩,
   ⟨(withF sRun [(Reg.HIF_FN_CFG_RINGS_EN 0, 1), (Reg.HIF_RING_CFG_EN 0 43, 1), (Reg.HIF_RING_PROD_INDEX 0 43, 5)]), 0, 43, 5, by decide +kernel⟩,
   ⟨sRun, 0, 0, by decide +kernel⟩,
   ⟨(withF sRun [(Reg.HIF_FN_CFG_RINGS_EN 0, 1), (Reg.HIF_RING_CFG_EN 0 18, 1)]), 0, 18, 24, by decide +kernel, by decide +kernel, by decide +kernel, by decide +kernel, by decide +kernel, by decide +kernel, by decide +kernel, fun _ e h => absurd (show e ∈ ([] : List (Nat × Snapshot)) from h) (List.not_mem_nil)⟩,
   ⟨(withF sRun [(Reg.HIF_FN_CFG_RINGS_EN 0, 1), (Reg.HIF_RING_CFG_EN 0 18, 1)]), 0, 18, 0, by decide +kernel⟩,
   ⟨(withF sRun [(Reg.HIF_FN_CFG_RINGS_EN 0, 1), (Reg.HIF_RING_CFG_EN 0 34, 1)]), 0, 34, 25, by decide +kernel⟩,
   ⟨(withF sRun [(Reg.HIF_FN_CFG_RINGS_EN 0, 1), (Reg.HIF_RING_CFG_EN 0 43, 1)]), 43, 24, by decide +kernel⟩⟩

/-- For each clause of CommandFetchFunctionsAndTx, a state and operands that meet its hypotheses. -/
theorem witness_command_fetch_functions_and_tx :
    (∃ (s : State) (f : Fin 256) (r : Fin 17) (e : Bytes), operOpen s = true ∧ fetchTurn s = some (ringKey f r) ∧ mget [] s.hif.opened (ringKey f r) = [] ∧ mfind s.hif.skip (ringKey f r) = none ∧ s.hif.inFlight = [] ∧ bit (byteAt (fit 64 e) 0) 0 = true ∧ bit (byteAt (fit 64 e) 0) 1 = true ∧ opcodeListed (byteAt (fit 64 e) 1) = true) ∧
    (∃ (s : State) (f : Fin 256) (r : Fin 17), operOpen s = true ∧ fetchTurn s = some (ringKey f r)) ∧
    (∃ (s : State) (f : Fin 256) (r : Fin 44), mfind s.hif.holdoff (ringKey f r) = some false) ∧
    (∃ (s : State) (f : Fin 256) (r : Fin 44), mfind s.hif.holdoff (ringKey f r) = some true ∧ getF s (Reg.HIF_RING_CFG_VECTOR f r) < getF s (Reg.HIF_FN_CFG_MSIX_CNT f) ∧ f.val ∈ s.hif.msixOn ∧ getF s (Reg.HIF_RING_CFG_MOD_US f r) ≠ 0) ∧
    (∃ (s : State) (f : Fin 256), f.val ≠ 0 ∧ powered s = true ∧ flag s (Reg.HIF_FN_STAT_ENABLED f) = true) ∧
    (∃ (s : State), powered s = true) ∧
    (∃ (s : State), powered s = false) ∧
    (∃ (s : State), powered s = true) ∧
    (∃ (s : State), powered s = true ∧ s.hif.perstL = true ∧ (∀ f, 1 ≤ f → f < 256 → flag s (Reg.HIF_FN_STAT_ENABLED f) = false)) ∧
    (∃ (s : State) (f : Fin 256) (k : Fin 8) (e : Bytes) (data : _), s.top = .run ∧ ringExists f (27 + k) = true ∧ ringRuns s f (27 + k) = true ∧ ringProd s f (27 + k) ≠ ringCons s f (27 + k) ∧ txRefusal s f (txDescOf (fit 64 e)) data ≠ 0) ∧
    (∃ (s : State) (f : Fin 256) (k : Fin 8) (e : Bytes) (b : Bytes), s.top = .run ∧ ringExists f (27 + k) = true ∧ ringRuns s f (27 + k) = true ∧ ringProd s f (27 + k) ≠ ringCons s f (27 + k) ∧ txRefusal s f (txDescOf (fit 64 e)) (some b) = 0 ∧ (txDescOf (fit 64 e)).mode = 2) :=
  ⟨⟨(withF sRun [(Reg.HIF_FN_CFG_RINGS_EN 0, 1), (Reg.HIF_RING_CFG_EN 0 16, 1), (Reg.HIF_RING_CFG_EN 0 17, 1), (Reg.HIF_RING_PROD_INDEX 0 16, 1)]), 0, 16, [3, 1], by decide +kernel⟩,
   ⟨(withF sRun [(Reg.HIF_FN_CFG_RINGS_EN 0, 1), (Reg.HIF_RING_CFG_EN 0 16, 1), (Reg.HIF_RING_CFG_EN 0 17, 1), (Reg.HIF_RING_PROD_INDEX 0 16, 1)]), 0, 16, by decide +kernel⟩,
   ⟨{ sRun with hif := { holdoff := [(ringKey 0 43, false)] } }, 0, 43, by decide +kernel⟩,
   ⟨{ (withF sRun [(Reg.HIF_RING_CFG_MOD_US 0 43, 9)]) with hif := { holdoff := [(ringKey 0 43, true)], msixOn := [0] } }, 0, 43, by decide +kernel⟩,
   ⟨(withF sRun [(Reg.HIF_FN_STAT_ENABLED 255, 1)]), 255, by decide +kernel⟩,
   ⟨sRun, by decide +kernel⟩,
   ⟨(sAt .off), by decide +kernel⟩,
   ⟨sRun, by decide +kernel⟩,
   ⟨sRun, by decide +kernel, by decide +kernel, fun f h1 h2 => (show ∀ f < 256, 1 ≤ f → flag sRun (Reg.HIF_FN_STAT_ENABLED f) = false by decide +kernel) f h2 h1⟩,
   ⟨(withF sRun [(Reg.HIF_FN_CFG_RINGS_EN 0, 1), (Reg.HIF_RING_CFG_EN 0 34, 1), (Reg.HIF_RING_PROD_INDEX 0 34, 1)]), 0, 7, [], none, by decide +kernel⟩,
   ⟨(withF sRun [(Reg.HIF_FN_CFG_RINGS_EN 0, 1), (Reg.HIF_RING_CFG_EN 0 27, 1), (Reg.HIF_RING_PROD_INDEX 0 27, 1)]), 0, 0, ([2] ++ List.replicate 15 0 ++ [240]), [], by decide +kernel⟩⟩

/-- For each clause of HostDeliveryAndTableWindow, a state and operands that meet its hypotheses. -/
theorem witness_host_delivery_and_table_window :
    (∃ (s : State) (x : HostFrame) (rest : _), s.hif.queue = x :: rest ∧ x.sample = false ∧ ringRuns s x.tenant (rxRing s x) = false) ∧
    (∃ (s : State) (x : HostFrame) (rest : _) (k : _), s.hif.queue = x :: rest ∧ x.sample = false ∧ x.tenant < 256 ∧ ringRuns s x.tenant (rxRing s x) = true ∧ (dataPlace { s with hif := { s.hif with queue := rest } } x.tenant (rxRing s x) (x.block.length + x.bytes.length) = some k) ∧ ringRoom s x.tenant (rxRing s x) ≠ 0) ∧
    (∃ (s : State) (off : _) (t : _) (i : _) (o : _) (n : _), powered s = true ∧ off % 4 = 0 ∧ twinPlace s off = some (t, i, o, n) ∧ t ≠ Tab.schTree ∧ operOpen s = true ∧ o + 4 ≠ n) ∧
    (∃ (s : State) (off : _) (t : _) (i : _) (o : _) (n : _), powered s = true ∧ off % 4 = 0 ∧ twinPlace s off = some (t, i, o, n) ∧ t ≠ Tab.schTree ∧ operOpen s = true ∧ o + 4 = n) ∧
    (∃ (s : State) (off : _), powered s = true ∧ off % 4 ≠ 0) ∧
    (∃ (s : State), operOpen s = true) ∧
    (∃ (s : State) (f : Fin 256) (w : Fin 8) (v : _), operOpen s = true ∧ f.val ≠ 0 ∧ (∀ j ∈ onesOf 32 v, grantable s f (32 * w + j) = true)) ∧
    (∃ (s : State) (f : Fin 256) (w : Fin 8) (v : _) (j : _), operOpen s = true ∧ f.val ≠ 0 ∧ j ∈ onesOf 32 v ∧ grantable s f (32 * w + j) = false) ∧
    (∃ (s : State) (f : Fin 256) (v : _), operOpen s = true ∧ vectorsOfOthers s f + bits v 0 12 ≤ 2048 ∧ s.hif.msixOn.contains f.val = false ∧ flag s (Reg.HIF_FN_CFG_RINGS_EN f) = false) ∧
    (∃ (s : State) (f : Fin 256) (v : _), operOpen s = true ∧ 2048 < vectorsOfOthers s f + bits v 0 12) :=
  ⟨⟨{ sRun with hif := { queue := [{}] } }, {}, [], by decide +kernel⟩,
   ⟨{ (withF sRun [(Reg.HIF_FN_CFG_RINGS_EN 0, 1), (Reg.HIF_RING_CFG_EN 0 19, 1), (Reg.HIF_DATA_SIZE_SIZE 0 0, 16)]) with hif := { queue := [{}] } }, {}, [], 0, by decide +kernel⟩,
   ⟨sRun, 0, 0, 0, 0, 64, by decide +kernel⟩,
   ⟨sRun, 60, 0, 0, 60, 64, by decide +kernel⟩,
   ⟨sRun, 1, by decide +kernel⟩,
   ⟨sRun, by decide +kernel⟩,
   ⟨(withF sRun [(Reg.CNT_PERF_TEN_EN 127, 1), (Reg.CNT_PERF_TEN_TENANT 127, 255)]), 255, 7, 0x80000000, by decide +kernel⟩,
   ⟨sRun, 1, 0, 1, 0, by decide +kernel⟩,
   ⟨(withF sRun [(Reg.HIF_FN_CFG_RINGS_EN 255, 0)]), 255, 142, by decide +kernel⟩,
   ⟨sRun, 255, 143, by decide +kernel⟩⟩

/-- For each clause of ArbiterMessages, a state and operands that meet its hypotheses. -/
theorem witness_arbiter_messages :
    (∃ (s : State) (sync : Fin 65536) (body : _) (crc : Fin 256), LandingTakes s sync 2 body crc ∧ bits (landingBody s body) 0 8 = 0 ∧ role s = 1) ∧
    (∃ (s : State) (sync : Fin 65536) (typ : Fin 256) (body : _) (crc : Fin 256), powered s = true ∧ role s ≠ 0 ∧ arbPolar s Reg.PAIR_LINK_CFG_ARB_RX_INV 16 sync = 0xF0C5 ∧ crc8 (beBytes 7 (typ.val * 2 ^ 48 + landingBody s body)) ≠ arbPolar s Reg.PAIR_LINK_CFG_ARB_RX_INV 8 crc) ∧
    (∃ (s : State) (sync : Fin 65536) (body : _) (crc : Fin 256), LandingTakes s sync 2 body crc ∧ bits (landingBody s body) 0 8 = 0 ∧ role s = 3 ∧ s.clk.waiting = []) ∧
    (∃ (s : State) (sync : Fin 65536) (body : _) (crc : Fin 256), LandingTakes s sync 3 body crc ∧ bits (landingBody s body) 0 8 = 0 ∧ role s = 3 ∧ flag s Reg.PAIR_STAT_DIGEST_MM = false ∧ s.pair.pDigest = none ∧ s.clk.waiting = []) ∧
    (∃ (s : State) (sync : Fin 65536) (body : _) (crc : Fin 256), LandingTakes s sync 4 body crc ∧ bits (landingBody s body) 0 8 = 0 ∧ role s = 2 ∧ s.clk.waiting = []) ∧
    (∃ (s : State) (sync : Fin 65536) (body : _) (crc : Fin 256), LandingTakes s sync 5 body crc ∧ (role s = 1 ∨ role s = 2) ∧ s.clk.waiting = []) :=
  ⟨⟨(withF sRun [(Reg.PAIR_CFG_MODE, 1), (Reg.PAIR_STAT_ROLE, 1)]), 0xF0C5, 2 ^ 24, testCrc 2, ⟨by decide +kernel, by decide +kernel, by decide +kernel, by decide +kernel, by decide +kernel, by decide +kernel⟩, by decide +kernel, by decide +kernel⟩,
   ⟨(withF sRun [(Reg.PAIR_CFG_MODE, 1), (Reg.PAIR_STAT_ROLE, 1)]), 0xF0C5, 255, 0, 0, by decide +kernel⟩,
   ⟨(withF sRun [(Reg.PAIR_CFG_MODE, 1), (Reg.PAIR_STAT_ROLE, 3)]), 0xF0C5, 2 ^ 24, testCrc 2, ⟨by decide +kernel, by decide +kernel, by decide +kernel, by decide +kernel, by decide +kernel, by decide +kernel⟩, by decide +kernel, by decide +kernel, by decide +kernel⟩,
   ⟨(withF sRun [(Reg.PAIR_CFG_MODE, 1), (Reg.PAIR_STAT_ROLE, 3)]), 0xF0C5, 2 ^ 24, testCrc 3, ⟨by decide +kernel, by decide +kernel, by decide +kernel, by decide +kernel, by decide +kernel, by decide +kernel⟩, by decide +kernel, by decide +kernel, by decide +kernel, by decide +kernel, by decide +kernel⟩,
   ⟨(withF sRun [(Reg.PAIR_CFG_MODE, 1), (Reg.PAIR_STAT_ROLE, 2)]), 0xF0C5, 2 ^ 24, testCrc 4, ⟨by decide +kernel, by decide +kernel, by decide +kernel, by decide +kernel, by decide +kernel, by decide +kernel⟩, by decide +kernel, by decide +kernel, by decide +kernel⟩,
   ⟨(withF sRun [(Reg.PAIR_CFG_MODE, 1), (Reg.PAIR_STAT_ROLE, 1)]), 0xF0C5, 2 ^ 24, testCrc 5, ⟨by decide +kernel, by decide +kernel, by decide +kernel, by decide +kernel, by decide +kernel, by decide +kernel⟩, by decide +kernel, by decide +kernel⟩⟩

/-- For each clause of PairMessagesSentAndLost, a state and operands that meet its hypotheses. -/
theorem witness_pair_messages_sent_and_lost :
    (∃ (s : State), role s ≠ 0 ∧ flag s Reg.PAIR_STAT_ARB_OK = true) ∧
    (∃ (s : State), role s = 1 ∧ flag s Reg.PAIR_STAT_LEASE_VALID = true) ∧
    (∃ (s : State), role s ≠ 0) ∧
    (∃ (s : State), role s ≠ 0 ∧ s.pair.helloPart = 1) ∧
    (∃ (s : State) (src : _) (slice : _) (die : _) (rest : _), s.flt.msgs = (src, slice, die) :: rest) ∧
    (∃ (s : State), galRuns s = true ∧ role s ≠ 0) ∧
    (∃ (s : State), galRuns s = true ∧ role s ≠ 0 ∧ (galLanes s).isEmpty = false ∧ s.clk.waiting = []) ∧
    (∃ (s : State), role s = 2 ∧ getF s Reg.PAIR_STBY_CFG_MARGIN_MS ≠ 0) ∧
    (∃ (s : State) (l : Fin 4), s.top = .bringup ∧ galRuns s = true ∧ bit (getF s Reg.PAIR_CFG_GAL_LANE_EN) l = true) ∧
    (∃ (s : State) (l : Fin 4), s.top = .bringup ∧ galRuns s = true ∧ bit (getF s Reg.PAIR_CFG_GAL_LANE_EN) l = true ∧ rcalOk s 1 = true) :=
  ⟨⟨(withF sRun [(Reg.PAIR_CFG_MODE, 1), (Reg.PAIR_STAT_ROLE, 1), (Reg.PAIR_STAT_ARB_OK, 1)]), by decide +kernel⟩,
   ⟨(withF sRun [(Reg.PAIR_CFG_MODE, 1), (Reg.PAIR_STAT_ROLE, 1), (Reg.PAIR_STAT_LEASE_VALID, 1)]), by decide +kernel⟩,
   ⟨(withF sRun [(Reg.PAIR_CFG_MODE, 1), (Reg.PAIR_STAT_ROLE, 1)]), by decide +kernel⟩,
   ⟨{ (withF sRun [(Reg.PAIR_CFG_MODE, 1), (Reg.PAIR_STAT_ROLE, 3)]) with pair := { helloPart := 1 } }, by decide +kernel⟩,
   ⟨{ sRun with flt := { msgs := [(5, 0, 0)] } }, 5, 0, 0, [], by decide +kernel⟩,
   ⟨(withF sRun [(Reg.PAIR_CFG_MODE, 1), (Reg.PAIR_STAT_ROLE, 2)]), by decide +kernel⟩,
   ⟨{ (withF sRun [(Reg.PAIR_CFG_MODE, 1), (Reg.PAIR_STAT_ROLE, 2), (Reg.PAIR_CFG_GAL_LANE_EN, 8)]) with pair := { galUp := [3] } }, by decide +kernel⟩,
   ⟨(withF sRun [(Reg.PAIR_CFG_MODE, 1), (Reg.PAIR_STAT_ROLE, 2)]), by decide +kernel⟩,
   ⟨(withF { sAt .bringup with boot := { up := true }, pwr := { rcal := [2000, 1980, 2000, 2000, 2000] } } [(Reg.PAIR_CFG_MODE, 1), (Reg.PAIR_CFG_GAL_LANE_EN, 8)]), 3, by decide +kernel⟩,
   ⟨(withF { sAt .bringup with boot := { up := true }, pwr := { rcal := [2000, 1980, 2000, 2000, 2000] } } [(Reg.PAIR_CFG_MODE, 1), (Reg.PAIR_CFG_GAL_LANE_EN, 8)]), 3, by decide +kernel⟩⟩

/-- For each clause of PairMirrorStateAndResync, a state and operands that meet its hypotheses. -/
theorem witness_pair_mirror_state_and_resync :
    (∃ (s : State) (a : _) (r : _), role s = 2 ∧ flag s Reg.PAIR_STAT_RESYNC_RUN = true ∧ mirroredReg a = true ∧ 0x0C01000 ≤ a ∧ a < 0x0C01800 ∧ regRow a = some r) ∧
    (∃ (s : State) (q : _), role s = 1 ∧ partnerIs s 2 = true ∧ (mfind s.pair.replay q).isSome = true) ∧
    (∃ (s : State) (q : _), role s = 1 ∧ partnerIs s 2 = true ∧ (mfind s.pair.replay q).isSome = false) ∧
    (∃ (s : State), role s = 1 ∧ partnerIs s 2 = true ∧ s.pair.acked ≠ getF s Reg.PAIR_SEQ_TX_SEQ) ∧
    (∃ (s : State), deltaRuns s = true ∧ s.pair.due = []) ∧
    (∃ (s : State), role s = 2) ∧
    (∃ (s : State), role s = 2) ∧
    (∃ (s : State), role s ≠ 0 ∧ deltaRuns s = false) ∧
    (∃ (s : State) (i : _), role s = 2 ∧ i < 2097152) ∧
    (∃ (s : State), operOpen s = true ∧ role s = 2 ∧ getF s Reg.PAIR_STAT_PARTNER_ROLE = 1) ∧
    (∃ (s : State) (q : _), role s = 2 ∧ flag s Reg.PAIR_STAT_GALLERY_UP = true ∧ q = (replayOpen s).pair.replayAt ∧ q < 2 ^ 32 ∧ (replayOpen s).pair.replayHeld = []) ∧
    (∃ (s : State), role s = 2 ∧ flag s Reg.PAIR_STAT_RESYNC_RUN = true) ∧
    (∃ (s : State), role s = 1 ∧ partnerIs s 2 = true) ∧
    (∃ (s : State) (q : _), role s = 2 ∧ flag s Reg.PAIR_STAT_GALLERY_UP = true ∧ flag s Reg.PAIR_STAT_RESYNC_RUN = true ∧ 0 < (q + 2 ^ 32 - s.pair.replayAt) % 2 ^ 32 ∧ (q + 2 ^ 32 - s.pair.replayAt) % 2 ^ 32 < 2 ^ 31) :=
  ⟨⟨(withF sRun [(Reg.PAIR_CFG_MODE, 1), (Reg.PAIR_STAT_ROLE, 2), (Reg.PAIR_STAT_RESYNC_RUN, 1)]), 0xC01000, (rowOf 0xC01000), by decide +kernel⟩,
   ⟨{ (withF sRun [(Reg.PAIR_CFG_MODE, 1), (Reg.PAIR_STAT_ROLE, 1), (Reg.PAIR_STAT_GALLERY_UP, 1), (Reg.PAIR_STAT_PARTNER_ROLE, 2)]) with pair := { replay := [(7, .reg 0 0 0)] } }, 7, by decide +kernel⟩,
   ⟨(withF sRun [(Reg.PAIR_CFG_MODE, 1), (Reg.PAIR_STAT_ROLE, 1), (Reg.PAIR_STAT_GALLERY_UP, 1), (Reg.PAIR_STAT_PARTNER_ROLE, 2)]), 7, by decide +kernel⟩,
   ⟨{ (withF sRun [(Reg.PAIR_CFG_MODE, 1), (Reg.PAIR_STAT_ROLE, 1), (Reg.PAIR_STAT_GALLERY_UP, 1), (Reg.PAIR_STAT_PARTNER_ROLE, 2), (Reg.PAIR_SEQ_TX_SEQ, 4)]) with pair := { acked := 3 } }, by decide +kernel⟩,
   ⟨(withF sRun [(Reg.PAIR_CFG_MODE, 1), (Reg.PAIR_STAT_ROLE, 1), (Reg.PAIR_STAT_GALLERY_UP, 1), (Reg.PAIR_STAT_PARTNER_ROLE, 2)]), by decide +kernel⟩,
   ⟨(withF sRun [(Reg.PAIR_CFG_MODE, 1), (Reg.PAIR_STAT_ROLE, 2)]), by decide +kernel⟩,
   ⟨(withF sRun [(Reg.PAIR_CFG_MODE, 1), (Reg.PAIR_STAT_ROLE, 2)]), by decide +kernel⟩,
   ⟨(withF sRun [(Reg.PAIR_CFG_MODE, 1), (Reg.PAIR_STAT_ROLE, 1)]), by decide +kernel⟩,
   ⟨(withF sRun [(Reg.PAIR_CFG_MODE, 1), (Reg.PAIR_STAT_ROLE, 2)]), 2097151, by decide +kernel⟩,
   ⟨(withF sRun [(Reg.PAIR_CFG_MODE, 1), (Reg.PAIR_STAT_ROLE, 2), (Reg.PAIR_STAT_PARTNER_ROLE, 1)]), by decide +kernel⟩,
   ⟨(withF sRun [(Reg.PAIR_CFG_MODE, 1), (Reg.PAIR_STAT_ROLE, 2), (Reg.PAIR_STAT_GALLERY_UP, 1)]), 0, by decide +kernel⟩,
   ⟨(withF sRun [(Reg.PAIR_CFG_MODE, 1), (Reg.PAIR_STAT_ROLE, 2), (Reg.PAIR_STAT_RESYNC_RUN, 1)]), by decide +kernel⟩,
   ⟨(withF sRun [(Reg.PAIR_CFG_MODE, 1), (Reg.PAIR_STAT_ROLE, 1), (Reg.PAIR_STAT_GALLERY_UP, 1), (Reg.PAIR_STAT_PARTNER_ROLE, 2)]), by decide +kernel⟩,
   ⟨(withF sRun [(Reg.PAIR_CFG_MODE, 1), (Reg.PAIR_STAT_ROLE, 2), (Reg.PAIR_STAT_GALLERY_UP, 1), (Reg.PAIR_STAT_RESYNC_RUN, 1)]), 0x7FFFFFFF, by decide +kernel⟩⟩

/-- For each clause of RegisterAccesses, a state and operands that meet its hypotheses. -/
theorem witness_register_accesses :
    (∃ (s : State) (v : _), operOpen s = true ∧ bits (Nat.lor v 1) 16 16 = 0x5EA1 ∧ role s ≠ 1) ∧
    (∃ (s : State) (v : _), operOpen s = true ∧ (bits (Nat.lor v 1) 16 16 ≠ 0x5EA1 ∨ role s = 1)) ∧
    (∃ (s : State) (a : _) (v : _) (r : _), PfHits s a r ∧ PlainOper s a (v % 2 ^ 32) r ∧ isLo a = false ∧ isHi a = false) ∧
    (∃ (s : State) (a : _) (r : _), PfHits s a r ∧ r.cls = .sealed) ∧
    (∃ (s : State) (a : _) (v : _) (r : _), PfHits s a r ∧ r.cls = .status ∧ s.boot.up = true ∧ statusOwn s a (v % 2 ^ 32) = none ∧ statusOwnN s a (v % 2 ^ 32) = none) ∧
    (∃ (s : State) (f : Fin 256) (a : _) (w : _), reaches s f = true ∧ (w ≠ 4 ∨ a % 4 ≠ 0)) ∧
    (∃ (s : State) (f : Fin 256), reaches s f = false) ∧
    (∃ (s : State) (a : _) (v : _) (r : _) (q : _) (x : _), PfHits s a r ∧ PlainOper s a (v % 2 ^ 32) r ∧ isHi a = true ∧ isLo a = false ∧ 4 ≤ a ∧ regRow (a - 4) = some q ∧ mfind s.loHeld (loKey 0 (a - 4)) = some x) ∧
    (∃ (s : State) (f : Fin 256) (a : _) (h : _) (r : _), reaches s f = true ∧ a % 4 = 0 ∧ (f.val = 0 → isWindow a = false) ∧ homeOf s f a = some h ∧ mfind s.hiLatch (loKey f h) = none ∧ regRow h = some r ∧ r.rc ≠ 0 ∧ s.boot.up = true ∧ isLo h = false ∧ (∀ u, peakOf u h = none)) ∧
    (∃ (s : State) (f : Fin 256) (w : _), reaches s f = true ∧ w ≠ 4) ∧
    (∃ (s : State) (f : Fin 256) (a : _) (h : _) (r : _), reaches s f = true ∧ a % 4 = 0 ∧ (f.val = 0 → isWindow a = false) ∧ homeOf s f a = some h ∧ mfind s.hiLatch (loKey f h) = none ∧ regRow h = some r ∧ r.rc = 0 ∧ isLo h = true ∧ h ≠ Reg.TIM_NOW_LO) ∧
    (∃ (s : State) (f : Fin 256) (a : _) (h : _) (w : _), reaches s f = true ∧ a % 4 = 0 ∧ (f.val = 0 → isWindow a = false) ∧ homeOf s f a = some h ∧ mfind s.hiLatch (loKey f h) = some w) ∧
    (∃ (s : State) (f : Fin 256) (a : _) (h : _) (r : _), reaches s f = true ∧ homeOf s f a = some h ∧ r ∈ rootsOf h ∧ familyHalted s r = true) ∧
    (∃ (s : State) (f : Fin 256) (a : _) (h : _) (r : _), reaches s f = true ∧ homeOf s f a = some h ∧ r ∈ rootsOf h ∧ familyHalted s r = true) :=
  ⟨⟨sRun, 0x5EA10000, by decide +kernel⟩,
   ⟨sRun, 0, by decide +kernel⟩,
   ⟨sRun, 0x40, 5, rowOf 0x40, ⟨by decide +kernel, by decide +kernel, by decide +kernel, by decide +kernel, by decide +kernel, by decide +kernel, by decide +kernel⟩, ⟨by decide +kernel, by decide +kernel, by decide +kernel, by decide +kernel, by decide +kernel, by decide +kernel, by decide +kernel⟩, by decide +kernel, by decide +kernel⟩,
   ⟨sRun, Reg.PAIR_STBY_CFG, rowOf Reg.PAIR_STBY_CFG, ⟨by decide +kernel, by decide +kernel, by decide +kernel, by decide +kernel, by decide +kernel, by decide +kernel, by decide +kernel⟩, by decide +kernel⟩,
   ⟨sRun, Reg.HIF_PWF_STAT, 5, rowOf Reg.HIF_PWF_STAT, ⟨by decide +kernel, by decide +kernel, by decide +kernel, by decide +kernel, by decide +kernel, by decide +kernel, by decide +kernel⟩, by decide +kernel, by decide +kernel, by decide +kernel, by decide +kernel⟩,
   ⟨sRun, 0, 2, 4, by decide +kernel⟩,
   ⟨sRun, 255, by decide +kernel⟩,
   ⟨{ sRun with loHeld := [(loKey 0 Reg.BOOT_PUSH_ADDR_LO, 9)] }, Reg.BOOT_PUSH_ADDR_HI, 5, rowOf Reg.BOOT_PUSH_ADDR_HI, rowOf Reg.BOOT_PUSH_ADDR_LO, 9, ⟨by decide +kernel, by decide +kernel, by decide +kernel, by decide +kernel, by decide +kernel, by decide +kernel, by decide +kernel⟩, ⟨by decide +kernel, by decide +kernel, by decide +kernel, by decide +kernel, by decide +kernel, by decide +kernel, by decide +kernel⟩, by decide +kernel, by decide +kernel,
    by decide +kernel, by decide +kernel, by decide +kernel⟩,
   ⟨sRun, 0, Reg.CLK_CNT 3, Reg.CLK_CNT 3, rowOf (Reg.CLK_CNT 3), by decide +kernel, by decide +kernel, by decide +kernel, by decide +kernel, by decide +kernel, by decide +kernel, by decide +kernel,
    by decide +kernel, by decide +kernel, fun _ => rfl⟩,
   ⟨sRun, 0, 8, by decide +kernel⟩,
   ⟨sRun, 0, Reg.BOOT_PUSH_ADDR_LO, Reg.BOOT_PUSH_ADDR_LO, (rowOf Reg.BOOT_PUSH_ADDR_LO), by decide +kernel⟩,
   ⟨{ sRun with hiLatch := [(loKey 0 Reg.BOOT_PUSH_ADDR_HI, 7)] }, 0, Reg.BOOT_PUSH_ADDR_HI, Reg.BOOT_PUSH_ADDR_HI, 7, by decide +kernel⟩,
   ⟨(withF sRun [(relockFld 1, 1)]), 0, 0x40, 0x40, 1, by decide +kernel⟩,
   ⟨(withF sRun [(relockFld 0, 1)]), 0, 0x40, 0x40, 0, by decide +kernel⟩⟩

/-- For each clause of LinePortsAndLinks, a state and operands that meet its hypotheses. -/
theorem witness_line_ports_and_links :
    (∃ (s : State) (g : Fin 20) (l : Fin 8), s.top = .bringup ∧ laneOos s g l = false) ∧
    (∃ (s : State), rcalOk s 0 = true) ∧
    (∃ (s : State) (g : Fin 20) (l : Fin 8), s.top = .bringup ∧ rcalOk s 0 = false ∧ laneOos s g l = false) ∧
    (∃ (s : State) (p : Fin 160), s.lin.training.contains p.val = true) ∧
    (∃ (s : State) (p : Fin 160), flag s (Reg.LIN_PORT_STAT_LT_FAIL p) = true ∧ flag s (Reg.LIN_PORT_CFG_LT_EN p) = true ∧ txNow s p ≠ 0 ∧ s.lin.training.contains p.val = false) ∧
    (∃ (s : State) (p : Fin 160), operOpen s = true ∧ portPresent s p = true ∧ txNow s p ≠ 0 ∧ flag s (Reg.LIN_PORT_CFG_LT_EN p) = true) ∧
    (∃ (s : State) (p : Fin 160), operOpen s = true ∧ portPresent s p = false) ∧
    (∃ (s : State) (p : Fin 160) (v : _), operOpen s = true ∧ portPresent s p = true ∧ standby s = false ∧ v % 4 ≠ 3 ∧ bit v 4 = false) ∧
    (∃ (s : State) (p : Fin 160) (v : _), operOpen s = true ∧ portPresent s p = true ∧ (standby s = true ∨ v % 4 = 3)) ∧
    (∃ (s : State) (p : Fin 160), rxActive s p = true ∧ flag s (Reg.LIN_PORT_STAT_LOCAL_FAULT p) = false) ∧
    (∃ (s : State) (p : Fin 160), flag s (Reg.LIN_PORT_STAT_LOCAL_FAULT p) = true) ∧
    (∃ (s : State) (p : Fin 160), rxActive s p = true ∧ flag s (Reg.LIN_PORT_STAT_REMOTE_FAULT p) = false) ∧
    (∃ (s : State) (p : Fin 160), flag s (Reg.LIN_PORT_STAT_REMOTE_FAULT p) = true) ∧
    (∃ (s : State) (k : Fin 2), (∀ tm, mfind s.lin.lockAt (getF s (Reg.LIN_SYNCE_CFG_LANE k)) = some tm → withinUs s tm 10000 = false) ∧ synceAllowed { s with lin := { s.lin with lockAt := merase s.lin.lockAt (getF s (Reg.LIN_SYNCE_CFG_LANE k)) } } k = true) ∧
    (∃ (s : State) (k : Fin 2) (tm : _), mfind s.lin.lockAt (getF s (Reg.LIN_SYNCE_CFG_LANE k)) = some tm ∧ withinUs s tm 10000 = true) ∧
    (∃ (s : State) (p : Fin 160), operOpen s = true ∧ portPresent s p = true ∧ txNow s p ≠ 0 ∧ flag s (Reg.LIN_PORT_CFG_LT_EN p) = false) :=
  ⟨⟨(sAt .bringup), 19, 7, by decide +kernel⟩,
   ⟨{ sAt .bringup with pwr := { rcal := [2020] } }, by decide +kernel⟩,
   ⟨{ sAt .bringup with pwr := { rcal := [2021] } }, 19, 7, by decide +kernel⟩,
   ⟨{ sRun with lin := { training := [159] } }, 159, by decide +kernel⟩,
   ⟨(withF sRun [(Reg.PWR_SLICE_STAT_STATE 0, 1), (Reg.LIN_PORT_CTL_ADMIN 0, 2), (Reg.LIN_PORT_STAT_LT_FAIL 0, 1), (Reg.LIN_PORT_CFG_LT_EN 0, 1)]), 0, by decide +kernel⟩,
   ⟨(withF sRun [(Reg.PWR_SLICE_STAT_STATE 19, 1), (Reg.LIN_PORT_CTL_ADMIN 152, 2), (Reg.LIN_PORT_CFG_LT_EN 152, 1)]), 152, by decide +kernel⟩,
   ⟨(withF sRun [(Reg.LIN_GRP_CFG_MODE 19, 0)]), 159, by decide +kernel⟩,
   ⟨sRun, 0, 2, by decide +kernel⟩,
   ⟨(withF sRun [(Reg.PAIR_CFG_MODE, 1), (Reg.PAIR_STAT_ROLE, 2)]), 0, 1, by decide +kernel⟩,
   ⟨(withF sRun [(Reg.PWR_SLICE_STAT_STATE 0, 1), (Reg.LIN_PORT_CTL_ADMIN 0, 2)]), 0, by decide +kernel⟩,
   ⟨(withF sRun [(Reg.LIN_PORT_STAT_LOCAL_FAULT 159, 1)]), 159, by decide +kernel⟩,
   ⟨(withF sRun [(Reg.PWR_SLICE_STAT_STATE 0, 1), (Reg.LIN_PORT_CTL_ADMIN 0, 2)]), 0, by decide +kernel⟩,
   ⟨(withF sRun [(Reg.LIN_PORT_STAT_REMOTE_FAULT 159, 1)]), 159, by decide +kernel⟩,
   ⟨(withF sRun [(Reg.LIN_SYNCE_CFG_EN 1, 1), (Reg.LIN_SYNCE_CFG_LANE 1, 159), (Reg.LIN_SYNCE_CFG_DIV 1, 266)]), 1, fun tm h => by rw [show mfind (withF sRun [(Reg.LIN_SYNCE_CFG_EN 1, 1), (Reg.LIN_SYNCE_CFG_LANE 1, 159), (Reg.LIN_SYNCE_CFG_DIV 1, 266)]).lin.lockAt _ = none by decide +kernel] at h; exact absurd h (by simp), by decide +kernel⟩,
   ⟨{ (withF sRun [(Reg.LIN_SYNCE_CFG_LANE 1, 159)]) with lin := { lockAt := [(159, 0)] } }, 1, 0, by decide +kernel⟩,
   ⟨(withF sRun [(Reg.PWR_SLICE_STAT_STATE 19, 1), (Reg.LIN_PORT_CTL_ADMIN 152, 2), (Reg.LIN_PORT_CFG_LT_EN 152, 0)]), 152, by decide +kernel⟩⟩

/-- For each clause of LineFramesAndFlowControl, a state and operands that meet its hypotheses. -/
theorem witness_line_frames_and_flow_control :
    (∃ (s : State) (p : Fin 160) (b : Bytes), rxActive s p = true ∧ lineLoop s p = 0 ∧ beAt b 0 6 ≠ 0x0180C2000001) ∧
    (∃ (s : State) (p : Fin 160) (b : Bytes), rxActive s p = true ∧ lineLoop s p = 0 ∧ beAt b 0 6 = 0x0180C2000001 ∧ beAt b 14 2 = 1 ∧ getF s (Reg.LIN_PORT_CFG_FC_MODE p) = 1 ∧ beAt b 16 2 ≤ getF s (Reg.LIN_PAUSE_QMAX_QMAX p) ∧ getF s (Reg.LIN_PFC_WD_STAT_SUSPENDED p) = 0) ∧
    (∃ (s : State) (p : Fin 160) (k : Fin 8), bit (getF s (Reg.LIN_PORT_STAT_PAUSED p)) k = true) ∧
    (∃ (s : State) (p : Fin 160), lineLoop s p = 0 ∧ getF s (Reg.LIN_PORT_STAT_XOFF p) ≠ 0 ∧ txSends s p = true ∧ getF s (Reg.LIN_PORT_CFG_FC_MODE p) = 1) ∧
    (∃ (s : State) (p : Fin 160) (k : Fin 8), getF s (Reg.LIN_PFC_WD_CFG_DETECT_MS p) ≠ 0 ∧ rxActive s p = true ∧ getF s (Reg.LIN_PORT_CFG_FC_MODE p) = 2 ∧ Nat.land (getF s (Reg.LIN_PORT_STAT_PAUSED p)) (2 ^ k.val) ≠ 0 ∧ waitsAt s p (2 ^ k.val) = true) ∧
    (∃ (s : State) (p : Fin 160) (k : Fin 8), bit (getF s (Reg.LIN_PFC_WD_STAT_SUSPENDED p)) k = true ∧ getF s (Reg.LIN_PORT_CFG_FC_MODE p) = 2) ∧
    (∃ (s : State) (p : Fin 160) (b : Bytes) (pre : _) (pcs : _) (k : _), b ≠ [] ∧ rxActive s p = true ∧ lineLoop s p = 0 ∧ flag s (Reg.LIN_PORT_STAT_LOCAL_FAULT p) = false ∧ isolated s (p.val / 8) = false ∧ getF s (Reg.PWR_SLICE_STAT_STATE (p.val / 8)) = 1 ∧ portAdmin s p ≠ 0 ∧ rxViolation s p b pre pcs = some k) ∧
    (∃ (s : State) (p : Fin 160), rxActive s p = true) ∧
    (∃ (s : State) (p : Fin 160) (b : Bytes), b ≠ [] ∧ rxActive s p = true ∧ lineLoop s p = 0 ∧ flag s (Reg.LIN_PORT_STAT_LOCAL_FAULT p) = false ∧ isolated s (p.val / 8) = false ∧ getF s (Reg.PWR_SLICE_STAT_STATE (p.val / 8)) = 1 ∧ portAdmin s p ≠ 0) ∧
    (∃ (s : State) (p : Fin 160) (b : Bytes), b ≠ [] ∧ rxActive s p = true ∧ lineLoop s p = 0 ∧ flag s (Reg.LIN_PORT_STAT_LOCAL_FAULT p) = false ∧ isolated s (p.val / 8) = false ∧ getF s (Reg.PWR_SLICE_STAT_STATE (p.val / 8)) = 1 ∧ portAdmin s p = 2 ∧ flag s (relockFld 0) = false ∧ rxViolation s p b true false = none ∧ beAt (b.take (b.length - 4)) 12 2 ≠ 0x8808 ∧ beAt (b.take (b.length - 4)) 12 2 ≠ 0x8809) ∧
    (∃ (s : State) (p : Fin 160) (b : Bytes), b ≠ [] ∧ rxActive s p = true ∧ lineLoop s p = 0 ∧ flag s (Reg.LIN_PORT_STAT_LOCAL_FAULT p) = false ∧ isolated s (p.val / 8) = false ∧ getF s (Reg.PWR_SLICE_STAT_STATE (p.val / 8)) = 1 ∧ rxViolation s p b true false = none ∧ beAt (b.take (b.length - 4)) 12 2 = 0x8808) ∧
    (∃ (s : State) (p : Fin 160), (rxActive s p = false ∨ lineLoop s p = 4)) :=
  ⟨⟨(withF sRun [(Reg.PWR_SLICE_STAT_STATE 0, 1), (Reg.LIN_PORT_CTL_ADMIN 0, 2)]), 0, [1], by decide +kernel⟩,
   ⟨(withF sRun [(Reg.PWR_SLICE_STAT_STATE 0, 1), (Reg.LIN_PORT_CTL_ADMIN 0, 2), (Reg.LIN_PORT_CFG_FC_MODE 0, 1)]), 0, ([1, 0x80, 0xC2, 0, 0, 1, 2, 0, 0, 0, 0, 1, 0x88, 8, 0, 1, 0, 0] ++ List.replicate 42 0), by decide +kernel⟩,
   ⟨(withF sRun [(Reg.LIN_PORT_STAT_PAUSED 159, 128)]), 159, 7, by decide +kernel⟩,
   ⟨(withF sRun [(Reg.PWR_SLICE_STAT_STATE 0, 1), (Reg.LIN_PORT_CTL_ADMIN 0, 2), (Reg.LIN_PORT_STAT_XOFF 0, 1), (Reg.LIN_PORT_CFG_FC_MODE 0, 1)]), 0, by decide +kernel⟩,
   ⟨{ (withF sRun [(Reg.PWR_SLICE_STAT_STATE 0, 1), (Reg.LIN_PORT_CTL_ADMIN 0, 2), (Reg.LIN_PFC_WD_CFG_DETECT_MS 0, 1), (Reg.LIN_PORT_CFG_FC_MODE 0, 2), (Reg.LIN_PORT_STAT_PAUSED 0, 128)]) with qd := { stage := [(7, [{ port := 0, cls := 7, hdr := {}, data := [] }])] } }, 0, 7, by decide +kernel⟩,
   ⟨(withF sRun [(Reg.LIN_PFC_WD_STAT_SUSPENDED 159, 128), (Reg.LIN_PORT_CFG_FC_MODE 159, 2)]), 159, 7, by decide +kernel⟩,
   ⟨(withF sRun [(Reg.PWR_SLICE_STAT_STATE 0, 1), (Reg.LIN_PORT_CTL_ADMIN 0, 2)]), 0, [0], false, false, 3, by decide +kernel⟩,
   ⟨(withF sRun [(Reg.PWR_SLICE_STAT_STATE 0, 1), (Reg.LIN_PORT_CTL_ADMIN 0, 2)]), 0, by decide +kernel⟩,
   ⟨(withF sRun [(Reg.PWR_SLICE_STAT_STATE 0, 1), (Reg.LIN_PORT_CTL_ADMIN 0, 2)]), 0, testFrame, by decide +kernel⟩,
   ⟨(withF sRun [(Reg.PWR_SLICE_STAT_STATE 0, 1), (Reg.LIN_PORT_CTL_ADMIN 0, 2)]), 0, testFrame, by decide +kernel⟩,
   ⟨(withF sRun [(Reg.PWR_SLICE_STAT_STATE 0, 1), (Reg.LIN_PORT_CTL_ADMIN 0, 2)]), 0, testPause, by decide +kernel⟩,
   ⟨(sAt .bringup), 0, by decide +kernel⟩⟩

/-- For each clause of TimeGates, a state and operands that meet its hypotheses. -/
theorem witness_time_gates :
    (∃ (s : State) (p : Fin 160) (len : _) (cycle : _) (base : _) (at_ : _), (gateOf s p).pend = some (len, cycle, base, at_) ∧ at_ ≤ s.ptp.total) ∧
    (∃ (s : State), operOpen s = true ∧ standby s = false) ∧
    (∃ (s : State) (p : Fin 160), operOpen s = true ∧ standby s = false ∧ 1 ≤ getF s (Reg.SCH_GATE_CFG_LEN p) ∧ getF s (Reg.SCH_GATE_CFG_LEN p) ≤ 1024 ∧ 1000 ≤ gateCycle s p ∧ gateCycle s p ≤ 10000000000 ∧ (∀ e ∈ gateEntries s p { bank := 1 - getF s (Reg.SCH_GATE_STAT_OPER_BANK p), len := getF s (Reg.SCH_GATE_CFG_LEN p), cycle := gateCycle s p, base := gateBase s p }, e.1 ≠ 0)) ∧
    (∃ (s : State) (p : Fin 160) (len : _) (cycle : _) (base : _) (at_ : _), operOpen s = true ∧ standby s = false ∧ (gateOf s p).pend = some (len, cycle, base, at_) ∧ s.ptp.total < at_) ∧
    (∃ (s : State), operOpen s = true ∧ standby s = true) :=
  ⟨⟨{ sRun with qd := { gates := [(159, { pend := some (1, 1000, 0, 0) })] } }, 159, 1, 1000, 0, 0, by decide +kernel⟩,
   ⟨sRun, by decide +kernel⟩,
   ⟨{ (withF sRun [(Reg.SCH_GATE_CFG_LEN 159, 1), (Reg.SCH_GATE_CYCLE_LO_CYCLE_LO 159, 1000)]) with tab := { direct := [(tabKey Tab.gateList (159 * 2048 + 1024), 256 * 1000 + 1)] } }, 159, by decide +kernel⟩,
   ⟨{ sRun with qd := { gates := [(159, { pend := some (1, 1000, 0, 5) })] } }, 159, 1, 1000, 0, 5, by decide +kernel⟩,
   ⟨(withF sRun [(Reg.PAIR_CFG_MODE, 1), (Reg.PAIR_STAT_ROLE, 2)]), by decide +kernel⟩⟩

/-- For each clause of CreditsAndScheduling, a state and operands that meet its hypotheses. -/
theorem witness_credits_and_scheduling :
    (∃ (s : State) (q : Fin 1048576), q.val < voqSplit s ∧ (queueOf s q).outCr ≠ 0) ∧
    (∃ (s : State) (port : _) (cls : _) (q : _), offLine s = false ∧ voqOf s port cls = some q ∧ (queueOf s q).outCr ≠ 0 ∨ (queueOf s q).descs ≠ []) ∧
    (∃ (s : State) (q : Fin 1048576), q.val < voqSplit s ∧ getF s Reg.SCH_VOQ_CFG_TIMEOUT_MS ≠ 0 ∧ (queueOf s q).descs ≠ []) ∧
    (∃ (s : State) (port : Fin 65536) (k : _) (n : _), creditDue s port = true ∧ [7, 6, 5, 4, 3, 2, 1, 0].find? (fun k => !(askers s port k).isEmpty && grantOpen s port k) = some k ∧ nextRound (askers s port k) (rrGet s (2 ^ 40 + port.val * 8 + k)) = some n) ∧
    (∃ (s : State) (port : Fin 65536), creditDue s port = false) ∧
    (∃ (s : State) (p : Nat) (k : _), [7, 6, 5, 4, 3, 2, 1, 0].find? (fun k => !classBlocked s k && !((voqsOf s k).filter (fun p => !headHeld s (p * 8 + k))).isEmpty) = some k ∧ nextRound ((voqsOf s k).filter (fun p => !headHeld s (p * 8 + k))) (rrGet s (2 ^ 41 + k)) = some p ∧ (∀ j, k ≤ j → ∀ x ∈ voqsOf s j, headHeld s (x * 8 + j) = false)) ∧
    (∃ (s : State) (n : Fin 161), nodeServed s n = false) ∧
    (∃ (s : State) (n : Fin 161) (a : _) (b : _) (c : _) (q : _) (x : _) (s1 : State) (d : Desc) (s2 : State) (buf : Buf), nodeServed s n = true ∧ (queuesBelow s n).any (queueGated s n) = false ∧ pickPath 4 s (0x149000 + n.val) ((readyPaths s n).map (fun l => l.drop 1)) = ([a, b, c, (q, x)], s1) ∧ popHead s1 q = (some d, s2) ∧ mfind s2.qd.bufs d.buf = some buf) ∧
    (∃ (s : State) (k : _) (r : _), mfind s.qd.wheel k = some r ∧ (∀ e ∈ s.qd.wheel, e.1 = k → e = (k, r))) ∧
    (∃ (s : State) (i : Nat) (f : Fence), s.qd.fences[i]? = some f ∧ queueBusy s f.oldQ = false) ∧
    (∃ (s : State) (i : Nat) (f : Fence), s.qd.fences[i]? = some f) ∧
    (∃ (s : State), s.boot.up = true ∧ s.qd.epochTick < s.tick) :=
  ⟨⟨{ (withF sRun [(Reg.SCH_QSPLIT_VOQ_PORTS, 1)]) with qd := { queues := [(7, { outCr := 1 })] } }, 7, by decide +kernel⟩,
   ⟨{ (withF sRun [(Reg.SCH_QSPLIT_VOQ_PORTS, 1)]) with qd := { queues := [(7, { outCr := 1 })] } }, 0, 7, 7, by decide +kernel⟩,
   ⟨{ (withF sRun [(Reg.SCH_QSPLIT_VOQ_PORTS, 1), (Reg.SCH_VOQ_CFG_TIMEOUT_MS, 1)]) with qd := { queues := [(7, { descs := [{ buf := 1 }] })] } }, 7, by decide +kernel⟩,
   ⟨{ sRun with qd := { creq := [((65535 * 8 + 7) * 65536 + 5, 1)] } }, 65535, 7, 5, by decide +kernel⟩,
   ⟨{ sRun with qd := { crTe := [(65535, 1)] } }, 65535, by decide +kernel⟩,
   ⟨{ (withF sRun [(Reg.SCH_QSPLIT_VOQ_PORTS, 1)]) with qd := { queues := [(7, { descs := [{ buf := 1 }], bal := 1 })] } }, 0, 7, by decide +kernel, by decide +kernel, fun j _ x _ => by unfold headHeld; split <;> rfl⟩,
   ⟨fullStage (List.replicate 90000 0), 0, by
    unfold nodeServed; rw [if_neg (by decide), decide_eq_false_iff_not, Nat.not_lt]
    show _ ≤ inFlight (fullStage (List.replicate 90000 0)) 0
    rw [fullStage_inFlight, List.length_replicate]; decide +kernel⟩,
   ⟨egState, 159, (0x148000, true), (0x140000, true), (0x100000, true), 0x80000, true, (pickPath 4 egState (0x149000 + 159) ((readyPaths egState 159).map (fun l => l.drop 1))).2,
    { buf := 1 }, _, testBuf, by decide +kernel, by decide +kernel, Prod.ext (by decide +kernel) rfl, Prod.ext (by decide +kernel) rfl, by decide +kernel⟩,
   ⟨{ sRun with qd := { wheel := [(322, 5)] } }, 322, 5, by decide +kernel⟩,
   ⟨{ sRun with qd := { fences := [{ newQ := 3, oldQ := 4, sysPort := 0 }] } }, 0, { newQ := 3, oldQ := 4, sysPort := 0 }, by decide +kernel⟩,
   ⟨{ sRun with qd := { fences := [{ newQ := 3, oldQ := 4, sysPort := 0 }], queues := [(4, { descs := [{ buf := 1 }] })] } }, 0, { newQ := 3, oldQ := 4, sysPort := 0 }, by decide +kernel⟩,
   ⟨{ sRun with tick := 1 }, by decide +kernel⟩⟩

/-- For each clause of DramLinesRetriesAndTags, a state and operands that meet its hypotheses. -/
theorem witness_dram_lines_retries_and_tags :
    (∃ (s : State) (q : Fin 1048576) (k : Nat) (d : Desc) (b : Buf), (queueOf s q).leaving[k]? = some (d, false) ∧ mfind s.qd.bufs d.buf = some b ∧ (b.lost = true ∨ diDead s b.di = true)) ∧
    (∃ (s : State) (q : Fin 1048576) (k : Nat) (d : Desc) (b : Buf), (queueOf s q).leaving[k]? = some (d, false) ∧ mfind s.qd.bufs d.buf = some b ∧ b.lost = false ∧ diDead s b.di = false ∧ b.bad = true) ∧
    (∃ (s : State) (q : Fin 1048576) (k : Nat) (d : Desc) (b : Buf), (queueOf s q).leaving[k]? = some (d, false) ∧ mfind s.qd.bufs d.buf = some b ∧ b.lost = false ∧ diDead s b.di = false ∧ b.bad = false ∧ readMay s d.buf b = true ∧ (∀ j ∈ linesToRead s d.buf b, (lineRead s d.buf j 0).ok = true)) ∧
    (∃ (s : State) (q : Fin 1048576) (k : Nat) (l : List Nat) (d : Desc) (b : Buf), (queueOf s q).leaving[k]? = some (d, false) ∧ mfind s.qd.bufs d.buf = some b ∧ b.lost = false ∧ diDead s b.di = false ∧ b.bad = false ∧ readMay s d.buf b = true ∧ linesToRead s d.buf b ≠ [] ∧ (∀ j ∈ linesToRead s d.buf b, j ∈ l)) ∧
    (∃ (s : State) (i : Fin 24) (retries : Nat) (x : WLine) (b : Buf), (mget [] s.drm.wq i).find? (fun x => !x.opened) = some x ∧ mfind s.qd.bufs x.buf = some b ∧ diWrites s i = true ∧ bankHeld s i (dramBank s (lineNo x.buf x.line)) = false ∧ x.rmw = false ∧ retries ≤ getF s Reg.DRC_RETRY_CFG_WR_RETRY) ∧
    (∃ (s : State) (i : Fin 24) (retries : Nat) (x : WLine) (b : Buf), (mget [] s.drm.wq i).find? (fun x => !x.opened) = some x ∧ mfind s.qd.bufs x.buf = some b ∧ diWrites s i = true ∧ bankHeld s i (dramBank s (lineNo x.buf x.line)) = false ∧ x.rmw = true ∧ retries ≤ getF s Reg.DRC_RETRY_CFG_WR_RETRY) ∧
    (∃ (s : State) (i : Fin 24) (x : WLine) (b : Buf), (mget [] s.drm.wq i).find? (fun x => !x.opened) = some x ∧ mfind s.qd.bufs x.buf = some b ∧ diWrites s i = true ∧ bankHeld s i (dramBank s (lineNo x.buf x.line)) = false ∧ x.rmw = false) ∧
    (∃ (s : State) (i : Fin 24), diWrites s i = false ∧ (∀ x ∈ mget [] s.drm.wq i, (mfind s.qd.bufs x.buf).isSome = true)) ∧
    (∃ (s : State) (i : Fin 24) (x : WLine), (mget [] s.drm.wq i).find? (fun x => x.opened) = some x) ∧
    (∃ (s : State) (i : Fin 24) (n : Nat) (tl : Nat) (r : List Nat), mget [] s.drm.dirty i = tl :: r ∧ diWrites s i = true ∧ n ≤ getF s Reg.DRC_RETRY_CFG_WR_RETRY) ∧
    (∃ (s : State) (i : Fin 24), (mget [] s.drm.dirty i = [] ∨ diWrites s i = false)) :=
  ⟨⟨{ (withF sRun [(Reg.DRC_DI_STAT_STATE 23, 6)]) with qd := { bufs := [(1, { testBuf with dram := true, di := 23 })], queues := [(1048575, { leaving := [({ buf := 1 }, false)] })] } }, 1048575, 0, { buf := 1 }, { testBuf with dram := true, di := 23 }, by decide +kernel⟩,
   ⟨{ (withF sRun [(Reg.DRC_DI_STAT_STATE 23, 2)]) with qd := { bufs := [(1, { testBuf with dram := true, di := 23, bad := true })], queues := [(1048575, { leaving := [({ buf := 1 }, false)] })] } }, 1048575, 0, { buf := 1 }, { testBuf with dram := true, di := 23, bad := true }, by decide +kernel⟩,
   ⟨lineState, 1048575, 0, { buf := 1 }, lineBuf, by decide +kernel, by decide +kernel, by decide +kernel, by decide +kernel, by decide +kernel, lineState_may, lineState_ok⟩,
   ⟨lineState, 1048575, 0, [0], { buf := 1 }, lineBuf, by decide +kernel, by decide +kernel, by decide +kernel, by decide +kernel, by decide +kernel, lineState_may, by decide +kernel, by decide +kernel⟩,
   ⟨{ (withF sRun [(Reg.DRC_DI_STAT_STATE 23, 2)]) with qd := { bufs := [(1, testBuf)] }, drm := { wq := [(23, [{ buf := 1, line := 0, opened := false, rmw := false }])] } }, 23, 0, { buf := 1, line := 0, opened := false, rmw := false }, testBuf, by decide +kernel⟩,
   ⟨{ (withF sRun [(Reg.DRC_DI_STAT_STATE 23, 5)]) with qd := { bufs := [(1, testBuf)] }, drm := { wq := [(23, [{ buf := 1, line := 0, opened := false, rmw := true }])] } }, 23, 0, { buf := 1, line := 0, opened := false, rmw := true }, testBuf, by decide +kernel⟩,
   ⟨{ (withF sRun [(Reg.DRC_DI_STAT_STATE 23, 2)]) with qd := { bufs := [(1, testBuf)] }, drm := { wq := [(23, [{ buf := 1, line := 0, opened := false, rmw := false }])] } }, 23, { buf := 1, line := 0, opened := false, rmw := false }, testBuf, by decide +kernel⟩,
   ⟨{ (withF sRun [(Reg.DRC_DI_STAT_STATE 23, 3)]) with qd := { bufs := [(1, testBuf)] }, drm := { wq := [(23, [{ buf := 1, line := 0, opened := false, rmw := false }])] } }, 23, by decide +kernel⟩,
   ⟨{ sRun with drm := { wq := [(23, [{ buf := 1, line := 0, opened := true, rmw := false }])] } }, 23, { buf := 1, line := 0, opened := true, rmw := false }, by decide +kernel⟩,
   ⟨{ (withF sRun [(Reg.DRC_DI_STAT_STATE 23, 2)]) with drm := { dirty := [(23, [5])] } }, 23, 0, 5, [], by decide +kernel⟩,
   ⟨sRun, 23, by decide +kernel⟩⟩

/-- For each clause of DramInterfaces, a state and operands that meet its hypotheses. -/
theorem witness_dram_interfaces :
    (∃ (s : State) (i : Fin 24), diState s i = 1) ∧
    (∃ (s : State) (i : Fin 24), (diState s i = 2 ∨ diState s i = 3 ∨ diState s i = 5)) ∧
    (∃ (s : State) (i : Fin 24), diState s i ≠ 2 ∧ diState s i ≠ 3 ∧ diState s i ≠ 5) ∧
    (∃ (s : State) (i : Fin 24) (v : Fin 256) (m : Nat) (hot : Bool) (a : Nat), diServes s i = true ∧ getF s Reg.DRC_MAINT_CFG_TEMP_STEP = 0 ∧ mfind s.drm.tempAt i = some a ∧ (m = (if signed 8 v < getF s Reg.DRC_TEMP_CFG_T2X then 0 else if signed 8 v < max (getF s Reg.DRC_TEMP_CFG_T2X) (getF s Reg.DRC_TEMP_CFG_T4X) then 1 else 2)) ∧ hot = decide (((max (max (getF s Reg.DRC_TEMP_CFG_T2X) (getF s Reg.DRC_TEMP_CFG_T4X)) (getF s Reg.DRC_TEMP_CFG_THOT) : Nat) : Int) ≤ signed 8 v)) ∧
    (∃ (s : State) (i : Fin 24) (v : Fin 256) (m : Nat) (hot : Bool) (u : State), diServes s i = true ∧ mfind s.drm.tempAt i = none ∧ (m = (if signed 8 v < getF s Reg.DRC_TEMP_CFG_T2X then 0 else if signed 8 v < max (getF s Reg.DRC_TEMP_CFG_T2X) (getF s Reg.DRC_TEMP_CFG_T4X) then 1 else 2)) ∧ hot = decide (((max (max (getF s Reg.DRC_TEMP_CFG_T2X) (getF s Reg.DRC_TEMP_CFG_T4X)) (getF s Reg.DRC_TEMP_CFG_THOT) : Nat) : Int) ≤ signed 8 v) ∧ u = levelIs hot { setB (setF (setF s (Reg.DRC_DI_STAT_TEMP i) (ofSigned 8 (signed 8 v))) (Reg.DRC_DI_STAT_REF_MULT i) m) (Reg.DRC_DI_STAT_HOT i) hot with drm := { s.drm with tempFail := merase s.drm.tempFail i } } (Src.drcHot i) (locDi i) 0) ∧
    (∃ (s : State) (i : Fin 24), diServes s i = true ∧ mget 0 s.drm.tempFail i + 1 < 3) ∧
    (∃ (s : State) (i : Fin 24), diServes s i = true ∧ isDue s 1 i = false) ∧
    (∃ (s : State) (i : Fin 24), operOpen s = true ∧ diServes s i = true ∧ isDue s 1 i = false) ∧
    (∃ (s : State) (i : Fin 24), diState s i = 3) ∧
    (∃ (s : State) (i : Fin 24), diState s i = 4 ∧ i.val ∉ s.drm.sleepAfter ∧ (mfind s.drm.tempAt i).isSome = true ∧ getF s (Reg.PWR_SLICE_STAT_STATE (diSlice i)) ≠ 2) ∧
    (∃ (s : State) (i : Fin 24), diState s i = 4 ∧ i.val ∉ s.drm.retryFail ∧ i.val ∉ s.drm.sleepAfter ∧ getF s (Reg.PWR_SLICE_STAT_STATE (diSlice i)) ≠ 2) ∧
    (∃ (s : State) (i : Fin 24) (k : Fin 8), dramTestUs s ≠ 0 ∧ diState s i = 2 ∧ diUsed s i k < diSize s i k) :=
  ⟨⟨(withF sRun [(Reg.DRC_DI_STAT_STATE 23, 1)]), 23, by decide +kernel⟩,
   ⟨(withF sRun [(Reg.DRC_DI_STAT_STATE 23, 5)]), 23, by decide +kernel⟩,
   ⟨(withF sRun [(Reg.DRC_DI_STAT_STATE 23, 4)]), 23, by decide +kernel⟩,
   ⟨{ (withF sRun [(Reg.DRC_DI_STAT_STATE 23, 4), (Reg.DRC_MAINT_CFG_TEMP_STEP, 0)]) with drm := { tempAt := [(23, 20)] } }, 23, 127, _, _, 20, by decide +kernel, by decide +kernel, by decide +kernel, rfl, rfl⟩,
   ⟨(withF sRun [(Reg.DRC_DI_STAT_STATE 23, 2)]), 23, 128, _, _, _, by decide +kernel, by decide +kernel, rfl, rfl, rfl⟩,
   ⟨{ (withF sRun [(Reg.DRC_DI_STAT_STATE 23, 2)]) with drm := { tempFail := [(23, 1)] } }, 23, by decide +kernel⟩,
   ⟨(withF sRun [(Reg.DRC_DI_STAT_STATE 23, 3)]), 23, by decide +kernel⟩,
   ⟨(withF sRun [(Reg.DRC_DI_STAT_STATE 23, 2)]), 23, by decide +kernel⟩,
   ⟨(withF sRun [(Reg.DRC_DI_STAT_STATE 23, 3)]), 23, by decide +kernel⟩,
   ⟨{ (withF sRun [(Reg.DRC_DI_STAT_STATE 23, 4)]) with drm := { tempAt := [(23, 20)] } }, 23, by decide +kernel⟩,
   ⟨(withF sRun [(Reg.DRC_DI_STAT_STATE 23, 4)]), 23, by decide +kernel⟩,
   ⟨(withF sRun [(Reg.DRC_DI_STAT_STATE 23, 2), (Reg.DRC_BGT_CFG_RUN_US, 1), (Reg.BUF_DPOOL_CFG_PER_DI 7, 1)]), 23, 7, by decide +kernel⟩⟩

/-- For each clause of FabricTrainingFramesAndSlips, a state and operands that meet its hypotheses. -/
theorem witness_fabric_training_frames_and_slips :
    (∃ (s : State) (g : Fin 8), s.top ≠ .bringup ∧ getF s (Reg.PWR_SLICE_STAT_STATE (20 + g)) ≠ 6) ∧
    (∃ (s : State) (g : Fin 8) (l : Fin 28) (ok : Bool), s.top = .bringup ∧ (ok = false ∨ rcalOk s 1 = false) ∧ flag s (Reg.FAB_LANE_STAT_OOS g l) = false) ∧
    (∃ (s : State), rcalOk s 1 = true) ∧
    (∃ (s : State) (g : Fin 8) (l : Fin 28), flk g l ∈ s.fab.training) ∧
    (∃ (s : State) (g : Fin 8) (l : Fin 28), flk g l ∈ s.fab.trainFail ∧ getF s (Reg.FAB_GRP_CFG_LT_EN g) = 1 ∧ fabTxNow s g ≠ 0) ∧
    (∃ (s : State), (∃ g : Fin 8, fabTxNow s g ≠ 0)) ∧
    (∃ (s : State) (g : Fin 9) (l : Fin 28) (b : Bytes), g.val < 8 ∧ (laneHears s g l = false ∨ b.length ≠ 4112)) ∧
    (∃ (s : State) (g : Fin 9) (l : Fin 28) (b : Bytes) (y : RxLane), g.val < 8 ∧ laneHears s g l = true ∧ fabLoop s g l = 0 ∧ b.length = 4112 ∧ alignMf (alignFas (rxLane (perfAdd s (60 + g) 6 0) g l) (beAt b 0 3 == 0xA75C3E) false) (byteAt b 3) = y ∧ y.inFrame = true) ∧
    (∃ (s : State) (g : Fin 9) (l : Fin 28), g.val < 8 ∧ rxOk s g l = true ∧ 4 ≤ (rxLane s g l).slip.length ∧ (rxLane s g l).slip.any idleCells = false) ∧
    (∃ (s : State) (g : Fin 9) (l : Fin 28) (f : _) (r : _), g.val < 8 ∧ rxOk s g l = true ∧ (rxLane s g l).slip = f :: r ∧ r.length ≤ 1 ∧ (r = [] → idleCells (rxLane s g l).lastRead = false)) :=
  ⟨⟨sRun, 7, by decide +kernel⟩,
   ⟨(sAt .bringup), 7, 27, true, by decide +kernel⟩,
   ⟨{ sAt .bringup with pwr := { rcal := [0, 1980] } }, by decide +kernel⟩,
   ⟨{ sRun with fab := { training := [223] } }, 7, 27, by decide +kernel⟩,
   ⟨{ (withF sRun [(Reg.FAB_GRP_CFG_LT_EN 7, 1)]) with fab := { trainFail := [223] } }, 7, 27, by decide +kernel⟩,
   ⟨sRun, 7, by decide +kernel⟩,
   ⟨sRun, 7, 27, [], by decide +kernel, Or.inr (by decide)⟩,
   ⟨{ sRun with fab := { rx := [(223, { inFrame := true })] } }, 7, 27, List.replicate 4112 0, _, by decide +kernel, by decide +kernel, by decide +kernel, List.length_replicate, rfl, by decide +kernel⟩,
   ⟨{ sRun with fab := { rx := [(223, { slip := List.replicate 4 [[0x20]] })] } }, 7, 27, by decide +kernel⟩,
   ⟨{ sRun with fab := { rx := [(223, { slip := [[[0x20]]], lastRead := [[0x20]] })] } }, 7, 27, [[0x20]], [], by decide +kernel⟩⟩

/-- For each clause of FabricDefectsAndPerformance, a state and operands that meet its hypotheses. -/
theorem witness_fabric_defects_and_performance :
    (∃ (s : State) (g : Fin 9) (l : Fin 28) (d : Fin 7), g.val < 8 ∧ (laneHears s g l = false ∨ defect s g l d.val = true ∨ defectHeld s g l d.val = true ∨ defectCond s g l d.val = false)) ∧
    (∃ (s : State) (g : Fin 9) (l : Fin 28) (d : Fin 7), g.val < 8 ∧ laneHears s g l = true ∧ defect s g l d.val = false ∧ defectHeld s g l d.val = false ∧ defectCond s g l d.val = true) ∧
    (∃ (s : State) (g : Fin 9) (l : Fin 28) (d : Fin 7), g.val < 8 ∧ laneHears s g l = true ∧ defect s g l d.val = true ∧ defectHeld s g l d.val = false ∧ defectGone s g l d.val = true) ∧
    (∃ (s : State) (g : Fin 8) (k : Fin 8), getF s Reg.FAB_BKP_CFG_WD_MS ≠ 0 ∧ bkpInForce s g k = true) ∧
    (∃ (s : State), s.ptp.sec ≤ s.fab.pmSec) ∧
    (∃ (s : State), s.fab.pmSec < s.ptp.sec) :=
  ⟨⟨{ sRun with fab := { rx := [(223, { inFrame := true })] } }, 7, 27, 1, by decide +kernel⟩,
   ⟨sRun, 7, 27, 1, by decide +kernel⟩,
   ⟨{ (withF sRun [(Reg.FAB_LANE_STAT_DEFECT 7 27, 2)]) with fab := { rx := [(223, { inFrame := true })] } }, 7, 27, 1, by decide +kernel⟩,
   ⟨(withF sRun [(Reg.FAB_BKP_CFG_WD_MS, 1), (Reg.FAB_GRP_BKP_RX_REQ 7, 128)]), 7, 7, by decide +kernel⟩,
   ⟨sRun, by decide +kernel⟩,
   ⟨{ sRun with ptp := { sec := 1 } }, by decide +kernel⟩⟩

/-- For each clause of FabricProtectionRequests, a state and operands that meet its hypotheses. -/
theorem witness_fabric_protection_requests :
    (∃ (s : State), operOpen s = true ∧ standby s = false) ∧
    (∃ (s : State) (p : Fin 16), operOpen s = true ∧ standby s = false ∧ p.val < 8 ∧ p.val ≠ spareOf s) ∧
    (∃ (s : State) (p : Fin 16), operOpen s = true ∧ standby s = false ∧ p.val < 8 ∧ p.val ≠ spareOf s) ∧
    (∃ (s : State) (p : Fin 16), operOpen s = true ∧ (8 ≤ p.val ∨ p.val = spareOf s)) ∧
    (∃ (s : State), operOpen s = true ∧ standby s = false) ∧
    (∃ (s : State), operOpen s = true ∧ standby s = false) ∧
    (∃ (s : State), 12 ≤ s.fab.srqAway) :=
  ⟨⟨sRun, by decide +kernel⟩,
   ⟨(withF sRun [(Reg.FAB_PROT_CFG_SPARE, 7)]), 0, by decide +kernel⟩,
   ⟨(withF sRun [(Reg.FAB_PROT_CFG_SPARE, 0)]), 7, by decide +kernel⟩,
   ⟨sRun, 8, by decide +kernel⟩,
   ⟨sRun, by decide +kernel⟩,
   ⟨sRun, by decide +kernel⟩,
   ⟨{ sRun with fab := { srqAway := 12 } }, by decide +kernel⟩⟩

/-- For each clause of FabricCellsAndReassembly, a state and operands that meet its hypotheses. -/
theorem witness_fabric_cells_and_reassembly :
    (∃ (s : State) (g : Fin 8) (l : Fin 28) (b : Bytes) (r : _) (j : _), mget [] s.fab.cells (flk g l) = b :: r ∧ relockDiscards (perf { s with fab := { s.fab with cells := mput [] s.fab.cells (flk g l) r } } (60 + g.val) 2) 1 = (false, perf { s with fab := { s.fab with cells := mput [] s.fab.cells (flk g l) r } } (60 + g.val) 2) ∧ cellBad (perf { s with fab := { s.fab with cells := mput [] s.fab.cells (flk g l) r } } (60 + g.val) 2) b = some j) ∧
    (∃ (s : State) (g : Fin 8) (l : Fin 28) (b : Bytes) (r : _) (u : State), mget [] s.fab.cells (flk g l) = b :: r ∧ perf { s with fab := { s.fab with cells := mput [] s.fab.cells (flk g l) r } } (60 + g.val) 2 = u ∧ relockDiscards u 1 = (false, u) ∧ cellBad u b = none) ∧
    (∃ (s : State) (src : Fin 65536) (dst : Fin 65536) (cls : Fin 8) (x : _) (e : _), mfind s.fab.ctx (ctxKey src dst cls) = some x ∧ x.exp = some e ∧ x.held = []) ∧
    (∃ (s : State) (src : Fin 65536) (dst : Fin 65536) (cls : Fin 8) (x : _) (e : _) (n : _) (c : Cell) (g : _), mfind s.fab.ctx (ctxKey src dst cls) = some x ∧ x.exp = some e ∧ oldestHeld { x with opened := none, exp := some e } e = some (n, c, g)) ∧
    (∃ (s : State) (src : Fin 65536) (dst : Fin 65536) (cls : Fin 8) (x : _), mfind s.fab.ctx (ctxKey src dst cls) = some x ∧ x.held = [] ∧ withinUs s x.last 1000000 = false) ∧
    (∃ (s : State) (src : Fin 65536) (dst : Fin 65536) (cls : Fin 8) (x : _), mfind s.fab.ctx (ctxKey src dst cls) = some x ∧ (x.held ≠ [] ∨ withinUs s x.last 1000000 = true)) :=
  ⟨⟨{ sRun with fab := { cells := [(223, [List.replicate 256 0])] } }, 7, 27, (List.replicate 256 0), [], 0, by decide +kernel⟩,
   ⟨{ sRun with fab := { cells := [(223, [cellBytes {}])] } }, 7, 27, cellBytes {}, [], _, by decide +kernel, rfl, by decide +kernel, by decide +kernel⟩,
   ⟨{ sRun with fab := { ctx := [(ctxKey 65535 65534 7, { exp := some 5 })] } }, 65535, 65534, 7, { exp := some 5 }, 5, by decide +kernel⟩,
   ⟨{ sRun with fab := { ctx := [(ctxKey 65535 65534 7, { exp := some 5, held := [(7, ({}, 3))] })] } }, 65535, 65534, 7, { exp := some 5, held := [(7, ({}, 3))] }, 5, 7, {}, 3, by decide +kernel⟩,
   ⟨{ sRun with tick := (1000000 * ticksPerUs), fab := { ctx := [(ctxKey 65535 65534 7, {})] } }, 65535, 65534, 7, {}, by decide +kernel⟩,
   ⟨{ sRun with fab := { ctx := [(ctxKey 65535 65534 7, {})] } }, 65535, 65534, 7, {}, by decide +kernel⟩⟩

/-- For each clause of PatternStoreCommands, a state and operands that meet its hypotheses. -/
theorem witness_pattern_store_commands :
    (∃ (s : State) (c : HostCmd), cmdReady s c 0x10 = true ∧ standby s = false ∧ c.fn = 0 ∧ 4 ≤ byteAt c.opnd 4 ∧ byteAt c.opnd 4 ≤ 32 ∧ byteAt c.opnd 5 ≤ 63 ∧ leAt c.opnd 0 4 ≤ 16383 ∧ shadowBusy s = false ∧ flag s Reg.TST_MEMINJ_CTL_ARM = false) ∧
    (∃ (s : State) (c : HostCmd), cmdReady s c 0x11 = true ∧ standby s = false ∧ c.fn = 0 ∧ leAt c.opnd 0 4 ≤ 16383 ∧ shadowBusy s = false) ∧
    (∃ (s : State) (c : HostCmd), cmdReady s c 0x12 = true ∧ standby s = false ∧ c.fn = 0 ∧ leAt c.opnd 0 4 ≤ 7 ∧ leAt c.opnd 4 4 ≤ 7 ∧ (leAt c.opnd 4 4 = 7 → leAt c.opnd 12 4 = 0) ∧ leAt c.opnd 8 4 ≤ 255 ∧ shadowBusy s = false) ∧
    (∃ (s : State) (c : HostCmd), cmdReady s c 0x13 = true ∧ standby s = false ∧ c.fn = 0 ∧ shadowBusy s = false) ∧
    (∃ (s : State) (c : HostCmd), cmdReady s c 0x14 = true ∧ standby s = false ∧ c.fn = 0 ∧ shadowBusy s = false) ∧
    (∃ (s : State) (c : HostCmd), cmdReady s c 0x14 = true ∧ standby s = false ∧ c.fn = 0 ∧ shadowBusy s = true) ∧
    (∃ (s : State) (c : HostCmd), cmdReady s c 0x14 = true ∧ standby s = true) ∧
    (∃ (s : State), getF s Reg.SIG_STORE_STAT_COPY_BUSY = 1) ∧
    (∃ (s : State) (c : HostCmd), cmdReady s c 0x15 = true ∧ standby s = false ∧ c.fn = 0 ∧ getF s Reg.SIG_STORE_STAT_SWAP_PEND = 0 ∧ getF s Reg.SIG_STORE_STAT_COPY_BUSY = 0 ∧ leAt c.opnd 0 6 * 1000000000 + leAt c.opnd 6 4 ≤ s.ptp.total) ∧
    (∃ (s : State) (c : HostCmd), cmdReady s c 0x15 = true ∧ standby s = false ∧ c.fn = 0 ∧ getF s Reg.SIG_STORE_STAT_SWAP_PEND = 0 ∧ getF s Reg.SIG_STORE_STAT_COPY_BUSY = 0 ∧ s.ptp.total < leAt c.opnd 0 6 * 1000000000 + leAt c.opnd 6 4) ∧
    (∃ (s : State) (x : _), s.sig.swapAt = some x ∧ x ≤ s.ptp.total) ∧
    (∃ (s : State), operOpen s = true ∧ s.sig.swapAt.any (· ≤ s.ptp.total) = false) ∧
    (∃ (s : State) (c : HostCmd), cmdReady s c 0x16 = true ∧ c.fn = 0 ∧ byteAt c.opnd 5 = 0 ∧ leAt c.opnd 0 4 ≤ 16383 ∧ byteAt c.opnd 4 % 2 * 16384 + leAt c.opnd 0 4 ∉ s.sig.masterBad ∧ byteAt c.opnd 4 % 2 * 16384 + leAt c.opnd 0 4 ∉ s.sig.lost) :=
  ⟨⟨{ sRun with hif := { inFlight := [(cmdOf 0 16 0 0 (leBytes 4 16383 ++ [32, 63, 0, 0] ++ List.replicate 32 7))] } }, (cmdOf 0 16 0 0 (leBytes 4 16383 ++ [32, 63, 0, 0] ++ List.replicate 32 7)), by decide +kernel⟩,
   ⟨{ sRun with hif := { inFlight := [(cmdOf 0 17 0 0 (leBytes 4 16383))] } }, (cmdOf 0 17 0 0 (leBytes 4 16383)), by decide +kernel⟩,
   ⟨{ sRun with hif := { inFlight := [(cmdOf 0 18 0 0 (leBytes 4 7 ++ leBytes 4 7 ++ leBytes 4 255 ++ leBytes 4 0))] } }, (cmdOf 0 18 0 0 (leBytes 4 7 ++ leBytes 4 7 ++ leBytes 4 255 ++ leBytes 4 0)), by decide +kernel⟩,
   ⟨{ sRun with hif := { inFlight := [(cmdOf 0 19 0 0 [])] } }, (cmdOf 0 19 0 0 []), by decide +kernel⟩,
   ⟨{ sRun with hif := { inFlight := [(cmdOf 0 20 0 0 [])] } }, (cmdOf 0 20 0 0 []), by decide +kernel⟩,
   ⟨{ (withF sRun [(Reg.SIG_STORE_STAT_COPY_BUSY, 1)]) with hif := { inFlight := [(cmdOf 0 20 0 0 [])] } }, (cmdOf 0 20 0 0 []), by decide +kernel⟩,
   ⟨{ (withF sRun [(Reg.PAIR_CFG_MODE, 1), (Reg.PAIR_STAT_ROLE, 2)]) with hif := { inFlight := [(cmdOf 0 20 0 0 [])] } }, (cmdOf 0 20 0 0 []), by decide +kernel⟩,
   ⟨(withF sRun [(Reg.SIG_STORE_STAT_COPY_BUSY, 1)]), by decide +kernel⟩,
   ⟨{ sRun with hif := { inFlight := [(cmdOf 0 21 0 0 (leBytes 10 0))] } }, (cmdOf 0 21 0 0 (leBytes 10 0)), by decide +kernel⟩,
   ⟨{ sRun with hif := { inFlight := [(cmdOf 0 21 0 0 (leBytes 6 0 ++ leBytes 4 1))] } }, (cmdOf 0 21 0 0 (leBytes 6 0 ++ leBytes 4 1)), by decide +kernel⟩,
   ⟨{ sRun with sig := { swapAt := some 0 } }, 0, by decide +kernel⟩,
   ⟨{ sRun with sig := { swapAt := some 1 } }, by decide +kernel⟩,
   ⟨{ sRun with hif := { inFlight := [(cmdOf 0 22 0 0 (leBytes 4 16383 ++ [1, 0]))] } }, (cmdOf 0 22 0 0 (leBytes 4 16383 ++ [1, 0])), by decide +kernel⟩⟩

/-- For each clause of PatternRepairAndScan, a state and operands that meet its hypotheses. -/
theorem witness_pattern_repair_and_scan :
    (∃ (s : State) (n : Fin 20) (k : _), (n.val * 65536 + k ∉ s.sig.repair ∨ sliceSleeps s n = true)) ∧
    (∃ (s : State) (n : Fin 20) (k : _), n.val * 65536 + k ∈ s.sig.repair ∧ sliceSleeps s n = false ∧ k ∉ s.sig.masterBad) ∧
    (∃ (s : State) (n : Fin 20), (sliceSleeps s n = true ∨ (∀ f ∈ inq s n, f.win = none))) ∧
    (∃ (s : State) (n : Fin 20), sliceSleeps s n = false ∧ (∃ f ∈ inq s n, f.win.isSome = true)) :=
  ⟨⟨sRun, 19, 32767, by decide +kernel⟩,
   ⟨{ sRun with sig := { repair := [19 * 65536 + 32767] } }, 19, 32767, by decide +kernel⟩,
   ⟨sRun, 19, by decide +kernel⟩,
   ⟨{ sRun with ing := { inq := [(19, [{ port := 0, orig := 0, bytes := testFrame, first := testFrame, rx := {}, win := some { bytes := [1], prof := 7, trunc := false, bank := 0 } }])] } }, 19, by decide +kernel⟩⟩

/-- For each clause of TableCommands, a state and operands that meet its hypotheses. -/
theorem witness_table_commands :
    (∃ (s : State) (c : HostCmd), cmdReady s c 1 = true ∧ standby s = false) ∧
    (∃ (s : State) (c : HostCmd), cmdReady s c 2 = true ∧ standby s = false) ∧
    (∃ (s : State) (c : HostCmd), cmdReady s c 3 = true ∧ standby s = false) ∧
    (∃ (s : State) (c : HostCmd), cmdReady s c 1 = true ∧ standby s = true) ∧
    (∃ (s : State) (c : HostCmd), cmdReady s c 4 = true) ∧
    (∃ (s : State) (c : HostCmd), cmdReady s c 5 = true) ∧
    (∃ (s : State) (c : HostCmd), cmdReady s c 6 = true) ∧
    (∃ (s : State) (c : HostCmd), cmdReady s c 7 = true ∧ (∀ x ∈ (finish (moveEng c (perf s 83 7)).s c (moveEng c (perf s 83 7)).changed (moveEng c (perf s 83 7)).st (moveEng c (perf s 83 7)).res).pair.retry, x.table ≠ c.table)) ∧
    (∃ (s : State) (c : HostCmd), cmdReady s c 0x20 = true) ∧
    (∃ (s : State) (c : HostCmd) (op : _), cmdReady s c op = false) ∧
    (∃ (s : State) (c : HostCmd), cmdReady s c 8 = true ∧ standby s = false ∧ flushStatus s c = .ok) ∧
    (∃ (s : State) (c : HostCmd), cmdReady s c 8 = true ∧ standby s = false ∧ flushStatus s c ≠ .ok) ∧
    (∃ (s : State) (f : Flush) (r : List Flush), getF s Reg.FTB_FLUSH_STAT_RUNNING = 1 ∧ s.tab.flushes = f :: r) ∧
    (∃ (s : State) (fn : _) (ins : _) (t : _) (i : _) (v : _), (directWrite s fn ins t i v).st = .ok ∧ t ≠ 8 ∧ t ≠ 15 ∧ t ≠ 19 ∧ t ≠ 21 ∧ t ≠ 22) :=
  ⟨⟨{ sRun with hif := { inFlight := [(cmdOf 0 1 0 0 [])] } }, (cmdOf 0 1 0 0 []), by decide +kernel⟩,
   ⟨{ sRun with hif := { inFlight := [(cmdOf 0 2 0 0 [])] } }, (cmdOf 0 2 0 0 []), by decide +kernel⟩,
   ⟨{ sRun with hif := { inFlight := [(cmdOf 0 3 0 0 [])] } }, (cmdOf 0 3 0 0 []), by decide +kernel⟩,
   ⟨{ (withF sRun [(Reg.PAIR_CFG_MODE, 1), (Reg.PAIR_STAT_ROLE, 2)]) with hif := { inFlight := [(cmdOf 0 1 0 0 [])] } }, (cmdOf 0 1 0 0 []), by decide +kernel⟩,
   ⟨{ sRun with hif := { inFlight := [(cmdOf 0 4 0 0 [])] } }, (cmdOf 0 4 0 0 []), by decide +kernel⟩,
   ⟨{ sRun with hif := { inFlight := [(cmdOf 0 5 0 0 [])] } }, (cmdOf 0 5 0 0 []), by decide +kernel⟩,
   ⟨{ sRun with hif := { inFlight := [(cmdOf 0 6 0 0 [])] } }, (cmdOf 0 6 0 0 []), by decide +kernel⟩,
   ⟨{ sRun with hif := { inFlight := [(cmdOf 0 7 0 0 [])] } }, (cmdOf 0 7 0 0 []), by decide +kernel⟩,
   ⟨{ sRun with hif := { inFlight := [(cmdOf 0 32 0 0 [])] } }, (cmdOf 0 32 0 0 []), by decide +kernel⟩,
   ⟨sRun, (cmdOf 0 1 0 0 []), 1, by decide +kernel⟩,
   ⟨{ sRun with hif := { inFlight := [(cmdOf 0 8 9 0 [])] } }, (cmdOf 0 8 9 0 []), by decide +kernel⟩,
   ⟨{ sRun with hif := { inFlight := [(cmdOf 0 8 4 0 [])] } }, (cmdOf 0 8 4 0 []), by decide +kernel⟩,
   ⟨{ (withF sRun [(Reg.FTB_FLUSH_STAT_RUNNING, 1)]) with tab := { flushes := [{ cmd := (cmdOf 0 8 9 0 []), keys := [] }] } }, { cmd := (cmdOf 0 8 9 0 []), keys := [] }, [], by decide +kernel⟩,
   ⟨sRun, 0, true, Tab.label, 0, 1, by decide +kernel⟩⟩

/-- For each clause of FragmentAndLearnTables, a state and operands that meet its hypotheses. -/
theorem witness_fragment_and_learn_tables :
    (∃ (s : State) (n : Fin 20) (set : Fin 1024) (i : Fin 4) (e : _), (mget [] s.ing.frag (n.val * 1024 + set.val))[i.val]? = some e ∧ e.at_ + fragAge s ≤ s.tick ∧ fragInUse s n (n.val * 1024 + set.val) e.key = false) ∧
    (∃ (s : State) (n : Fin 20) (set : Fin 1024) (i : Fin 4) (e : _), (mget [] s.ing.frag (n.val * 1024 + set.val))[i.val]? = some e ∧ s.tick < e.at_ + fragAge s) ∧
    (∃ (s : State), operOpen s = true) ∧
    (∃ (s : State) (x : _) (r : _), s.tab.bus = x :: r ∧ x.refresh = false ∧ sliceSleeps s x.dst = false) ∧
    (∃ (s : State) (x : _) (r : _), s.tab.bus = x :: r ∧ sliceSleeps s x.dst = true ∧ x.refresh = false) ∧
    (∃ (s : State) (x : _) (r : _) (b : _) (k : _) (e : _), s.tab.bus = x :: r ∧ x.refresh = true ∧ sliceSleeps s x.dst = false ∧ macFind { s with tab := { s.tab with bus := r } } x.dst x.bd x.mac = some (b, k, e) ∧ e.isStatic = false) ∧
    (∃ (s : State) (n : Fin 20) (q : Fin 256), (getF s (Reg.FTB_TENANT_AGE_AGE_S q) = 0 ∨ sliceSleeps s n = true)) ∧
    (∃ (s : State) (n : Fin 20) (q : Fin 256) (k : _) (e : _), getF s (Reg.FTB_TENANT_AGE_AGE_S q) ≠ 0 ∧ sliceSleeps s n = false ∧ (macCopy s n).filter (fun e => !macBad s e.1 && !e.2.isStatic && vrfOwner s e.2.bd == q.val) = [(k, e)] ∧ e.age < 4) ∧
    (∃ (s : State) (n : Fin 20) (q : Fin 256) (k : _) (e : _), getF s (Reg.FTB_TENANT_AGE_AGE_S q) ≠ 0 ∧ sliceSleeps s n = false ∧ (macCopy s n).filter (fun e => !macBad s e.1 && !e.2.isStatic && vrfOwner s e.2.bd == q.val) = [(k, e)] ∧ 4 ≤ e.age) :=
  ⟨⟨{ sRun with tick := 10 ^ 12, ing := { frag := [(19 * 1024 + 1023, [{ key := 5, dec := none, at_ := 0 }])] } }, 19, 1023, 0, { key := 5, dec := none, at_ := 0 }, by decide +kernel⟩,
   ⟨{ sRun with ing := { frag := [(19 * 1024 + 1023, [{ key := 5, dec := none, at_ := 0 }])] } }, 19, 1023, 0, { key := 5, dec := none, at_ := 0 }, by decide +kernel⟩,
   ⟨sRun, by decide +kernel⟩,
   ⟨{ sRun with tab := { bus := [{ src := 0, dst := 19, refresh := false, bd := 5, mac := 6, result := 0 }] } }, { src := 0, dst := 19, refresh := false, bd := 5, mac := 6, result := 0 }, [], by decide +kernel⟩,
   ⟨{ (withF sRun [(Reg.PWR_SLICE_STAT_STATE 19, 4)]) with tab := { bus := [{ src := 0, dst := 19, refresh := false, bd := 5, mac := 6, result := 0 }] } }, { src := 0, dst := 19, refresh := false, bd := 5, mac := 6, result := 0 }, [], by decide +kernel⟩,
   ⟨{ sRun with tab := { bus := [{ src := 0, dst := 19, refresh := true, bd := 5, mac := 6, result := 0 }], mac := [(((19 * 65536 + (macBuckets sRun 5 6).1) * 4), { bd := 5, mac := 6, result := 0, isStatic := false, age := 3, sharedIn := false })] } }, { src := 0, dst := 19, refresh := true, bd := 5, mac := 6, result := 0 }, [], (macBuckets sRun 5 6).1, 0, { bd := 5, mac := 6, result := 0, isStatic := false, age := 3, sharedIn := false }, by decide +kernel⟩,
   ⟨(withF sRun [(Reg.FTB_TENANT_AGE_AGE_S 255, 0)]), 19, 255, by decide +kernel⟩,
   ⟨{ (withF sRun [(Reg.FTB_TENANT_AGE_AGE_S 0, 1)]) with tab := { mac := [(((19 * 65536 + 65535) * 4 + 3), { bd := 5, mac := 6, result := 0, isStatic := false, age := 3, sharedIn := false })] } }, 19, 0, ((19 * 65536 + 65535) * 4 + 3), { bd := 5, mac := 6, result := 0, isStatic := false, age := 3, sharedIn := false }, by decide +kernel⟩,
   ⟨{ (withF sRun [(Reg.FTB_TENANT_AGE_AGE_S 0, 1)]) with tab := { mac := [(((19 * 65536 + 65535) * 4 + 3), { bd := 5, mac := 6, result := 0, isStatic := false, age := 4, sharedIn := false })] } }, 19, 0, ((19 * 65536 + 65535) * 4 + 3), { bd := 5, mac := 6, result := 0, isStatic := false, age := 4, sharedIn := false }, by decide +kernel⟩⟩

/-- For each clause of IngressPassesPolicersHall, a state and operands that meet its hypotheses. -/
theorem witness_ingress_passes_policers_hall :
    (∃ (s : State) (n : Fin 20) (hold : _), (sliceSleeps s n = true ∨ (passHead s n = none ∧ (hold = true ∨ mget [] s.ing.looked n.val = [])))) ∧
    (∃ (s : State) (n : Fin 20) (f : _) (u : _), sliceSleeps s n = false ∧ passHead s n = some (f, u)) ∧
    (∃ (s : State) (n : Fin 20), sliceSleeps s n = false) ∧
    (∃ (s : State) (n : Fin 20) (c : _), sliceSleeps s n = false ∧ passHead s n = none ∧ mget [] s.ing.looked n.val = [c]) ∧
    (∃ (s : State) (n : Fin 20), sliceSleeps s n = false ∧ mget [] s.ing.recirc n.val = []) ∧
    (∃ (s : State) (n : Fin 20) (f : _) (q : _), sliceSleeps s n = false ∧ mget [] s.ing.recirc n.val = f :: q ∧ (mget 0 s.ing.slot n < min 16 (getF s (Reg.ACT_RECIRC_CFG_RES_SLOTS n)) ∨ inq s n = [])) ∧
    (∃ (s : State) (n : Fin 20), hallPick [] (hall s n) = none) ∧
    (∃ (s : State) (n : Fin 20) (e : _) (h : _), hallPick [] (hall s n) = some (e, h) ∧ h.smp = none) :=
  ⟨⟨sRun, 19, true, by decide +kernel⟩,
   ⟨{ sRun with ing := { inq := [(19, [{ port := 0, orig := 0, bytes := testFrame, first := testFrame, rx := {} }])] } }, 19, { port := 0, orig := 0, bytes := testFrame, first := testFrame, rx := {} }, _, by decide +kernel, rfl⟩,
   ⟨sRun, 19, by decide +kernel⟩,
   ⟨{ sRun with ing := { looked := [(19, [{ n := 19, f := { port := 0, orig := 0, bytes := testFrame, first := testFrame, rx := {} }, r := 0, bd := 0, vrf := 0, tenant := 0, res := testRes, act := 0 }])] } }, 19, { n := 19, f := { port := 0, orig := 0, bytes := testFrame, first := testFrame, rx := {} }, r := 0, bd := 0, vrf := 0, tenant := 0, res := testRes, act := 0 }, by decide +kernel⟩,
   ⟨sRun, 19, by decide +kernel⟩,
   ⟨{ sRun with ing := { recirc := [(19, [{ port := 0, orig := 0, bytes := testFrame, first := testFrame, rx := {} }])] } }, 19, { port := 0, orig := 0, bytes := testFrame, first := testFrame, rx := {} }, [], by decide +kernel⟩,
   ⟨sRun, 19, by decide +kernel⟩,
   ⟨{ sRun with ing := { hall := [(19, [{ id := 3, port := 0, cls := 0, holds := true, frame := some { bytes := testFrame, first := testFrame, hdr := {}, dest := .sys 5, recirculated := false, mir := none, smp := none } }])] } }, 19, { id := 3, port := 0, cls := 0, holds := true, frame := some { bytes := testFrame, first := testFrame, hdr := {}, dest := .sys 5, recirculated := false, mir := none, smp := none } }, { bytes := testFrame, first := testFrame, hdr := {}, dest := .sys 5, recirculated := false, mir := none, smp := none }, by decide +kernel⟩⟩

/-- For each clause of StairEgressStagingMarks, a state and operands that meet its hypotheses. -/
theorem witness_stair_egress_staging_marks :
    (∃ (s : State) (lane : Fin 52) (a : _) (r : _), mget [] s.qd.stairUp lane.val = a :: r) ∧
    (∃ (s : State) (lane : Fin 52) (f : _) (r : _), lane.val < 20 ∧ mget [] s.qd.stairDown lane.val = f :: r) ∧
    (∃ (s : State) (n : Fin 20) (f : _) (r : _), mget [] s.qd.egress n.val = f :: r) ∧
    (∃ (s : State) (p : Fin 160) (k : Fin 8) (f : _) (r : _), staged s p k = f :: r ∧ macRefuses s p = none ∧ mayStart s p k f = false) ∧
    (∃ (s : State) (p : Fin 160) (k : Fin 8) (f : _) (r : _), staged s p k = f :: r ∧ macRefuses s p = none ∧ mayStart s p k f = true) ∧
    (∃ (s : State) (p : Fin 160) (k : Fin 8) (f : _) (r : _) (l : _), staged s p k = f :: r ∧ getF s (Reg.SCH_GATE_CTL_EN p) = 1 ∧ gateListAt s p s.ptp.total = some l ∧ mayStart s p k f = false) ∧
    (∃ (s : State) (lane : Fin 52) (a : _) (r : _), mget [] s.qd.arrivals lane.val = a :: r) ∧
    (∃ (s : State) (r : Nat) (k : Nat), r < 2 ∧ k < 8 ∧ powered s = true) ∧
    (∃ (s : State) (v : _), operOpen s = true ∧ bit v 31 = false) :=
  ⟨⟨{ sRun with qd := { stairUp := [(51, [{ req := 0, inPort := 0, hdr := {}, data := testFrame, dest := .sys 5 }])] } }, 51, { req := 0, inPort := 0, hdr := {}, data := testFrame, dest := .sys 5 }, [], by decide +kernel⟩,
   ⟨{ sRun with qd := { stairDown := [(19, [{ port := 159, cls := 7, hdr := {}, data := testFrame }])] } }, 19, { port := 159, cls := 7, hdr := {}, data := testFrame }, [], by decide +kernel⟩,
   ⟨{ sRun with qd := { egress := [(19, [{ port := 159, cls := 7, hdr := {}, data := testFrame }])] } }, 19, { port := 159, cls := 7, hdr := {}, data := testFrame }, [], by decide +kernel⟩,
   ⟨{ (withF sRun [(Reg.PWR_SLICE_STAT_STATE 0, 1), (Reg.LIN_PORT_CTL_ADMIN 0, 2), (Reg.LIN_PORT_STAT_PAUSED 0, 128)]) with qd := { stage := [(7, [{ port := 0, cls := 7, hdr := {}, data := testFrame }])] } }, 0, 7, { port := 0, cls := 7, hdr := {}, data := testFrame }, [], by decide +kernel⟩,
   ⟨{ (withF sRun [(Reg.PWR_SLICE_STAT_STATE 0, 1), (Reg.LIN_PORT_CTL_ADMIN 0, 2)]) with qd := { stage := [(7, [{ port := 0, cls := 7, hdr := {}, data := testFrame }])] } }, 0, 7, { port := 0, cls := 7, hdr := {}, data := testFrame }, [], by decide +kernel⟩,
   ⟨{ (withF sRun [(Reg.PWR_SLICE_STAT_STATE 0, 1), (Reg.LIN_PORT_CTL_ADMIN 0, 2), (Reg.LIN_PORT_STAT_PAUSED 0, 128), (Reg.SCH_GATE_CTL_EN 0, 1)]) with qd := { stage := [(7, [{ port := 0, cls := 7, hdr := {}, data := testFrame }])], gates := [(0, { oper := some (1, 1000, 0) })] } }, 0, 7, { port := 0, cls := 7, hdr := {}, data := testFrame }, [], { bank := 0, len := 1, cycle := 1000, base := 0 }, by decide +kernel⟩,
   ⟨{ sRun with qd := { arrivals := [(51, [{ req := 0, inPort := 0, hdr := {}, data := testFrame, dest := .sys 5 }])] } }, 51, { req := 0, inPort := 0, hdr := {}, data := testFrame, dest := .sys 5 }, [], by decide +kernel⟩,
   ⟨sRun, 1, 7, by decide +kernel⟩,
   ⟨sRun, 0x7FFFFFFF, by decide +kernel⟩⟩

/-- For each clause of UpdateFaultScratchCounterCommandsComplete, a state and operands that meet its hypotheses. -/
theorem witness_update_fault_scratch_counter_commands_complete :
    (∃ (s : State) (v : _), s.top = .run ∧ updState s = 0 ∧ (bits v 1 2 = 1 ∨ bits v 1 2 = 2) ∧ wornOut s (blocksOf (slotPlace s (bits v 1 2) (stageSlot s (bits v 1 2))).1 (getF s Reg.UPD_STAGE_LEN_LEN)) = false) ∧
    (∃ (s : State) (typ : _) (slot : _) (d : Bytes), programsBlocked s = false ∧ updState s = 1 ∧ s.upd.staging = some (typ, slot) ∧ hdrCrcOk (parseImage d slot false).header = true ∧ formatOk (parseImage d slot false) typ (slotPlace s typ slot).2 = true ∧ (parseImage d slot false).length = getF s Reg.UPD_STAGE_LEN_LEN ∧ badBlock (parseImage d slot false) = none ∧ imageFault s.otp (parseImage d slot false) typ = 0 ∧ 256 ≤ d.length) ∧
    (∃ (s : State) (b : Bank), updState s = 2 ∧ buildShadow s = .ok b) ∧
    (∃ (s : State) (v : _), s.top = .run ∧ bits (Nat.lor v 1) 0 6 = 1 ∧ updState s = 3 ∧ getF s Reg.UPD_STAT_REQ_CLASS ≠ 2 ∧ s.ptp.total + 100000000 ≤ actTime s) ∧
    (∃ (s : State) (v : _), s.top = .run ∧ bits (Nat.lor v 2) 0 6 = 2 ∧ updState s = 4 ∧ s.ptp.total < actTime s) ∧
    (∃ (s : State) (b : Bank), updState s = 4 ∧ s.upd.shadow = some b ∧ actTime s ≤ s.ptp.total ∧ s.upd.fw = none ∧ s.upd.cfg = none) ∧
    (∃ (s : State), updState s = 5) ∧
    (∃ (s : State) (v : _), s.top = .run ∧ bits (Nat.lor v 4) 0 6 = 4 ∧ updState s = 6 ∧ s.upd.window.2 ≠ 0 ∧ updCode v = true) ∧
    (∃ (s : State) (v : _), s.top = .run ∧ bits (Nat.lor v 8) 0 6 = 8 ∧ updState s = 6 ∧ updCode v = true) ∧
    (∃ (s : State) (v : _), s.top = .run ∧ bits (Nat.lor v 16) 0 6 = 16 ∧ updState s = 3 ∧ ¬(pairMode s = true ∧ role s = 1) ∧ updCode v = true ∧ programsBlocked s = false ∧ s.boot.dirOwed = none) ∧
    (∃ (s : State) (v : _), s.top = .run ∧ bits (Nat.lor v 32) 0 6 = 32 ∧ updState s = 3) ∧
    (∃ (s : State), updState s = 6) ∧
    (∃ (s : State), updState s = 6 ∧ flag s Reg.UPD_STAT_FALLBACK_DUE = true ∧ safePoint s = true ∧ s.upd.restartTrial = true) ∧
    (∃ (s : State) (b : Bank), updState s = 6 ∧ flag s Reg.UPD_STAT_FALLBACK_DUE = true ∧ safePoint s = true ∧ s.upd.restartTrial = false ∧ s.upd.shadow = some b) ∧
    (∃ (s : State), updState s = 7 ∧ s.upd.restartTrial = false) ∧
    (∃ (s : State), updState s = 7 ∧ s.upd.restartTrial = true ∧ programsBlocked s = false) ∧
    (∃ (s : State) (src : _) (r : _), nextLatched s.tick s.flt.latch = some (src, r) ∧ r.sev = 1 ∧ src ≠ Src.vinWarn ∧ mfind s.flt.lastRec src = none ∧ recRingFull s = false) ∧
    (∃ (s : State) (src : _), powered s = true ∧ srcStatus s src = true ∧ srcCause s src = false ∧ mfind s.flt.latch src = none ∧ (∀ e ∈ s.flt.hold, e.1 ≠ src)) ∧
    (∃ (s : State), operOpen s = true ∧ (∀ t x l, s.flt.firstOf = some (t, x, l) → t ≠ s.tick)) ∧
    (∃ (s : State) (v : _), operOpen s = true ∧ (v % 1024 + 1024 - getF s Reg.FLT_RING_RD_RD_IDX) % 1024 ≤ (getF s Reg.FLT_RING_STAT_WR_IDX + 1024 - getF s Reg.FLT_RING_RD_RD_IDX) % 1024) ∧
    (∃ (s : State) (bank : Fin 32) (n : _) (o : ShOp), shrPick s bank (mget 0 s.scr.bankAt bank) 20 = some (n, o) ∧ scrErr s 20 o.word = .good) ∧
    (∃ (s : State) (a : _) (m : _) (w : _), operOpen s = true ∧ scrTarget s a = some (m, w) ∧ highHalf a = false ∧ scrAsleep s m = false ∧ s.scr.held = none) ∧
    (∃ (s : State) (a : _) (m : _) (w : _) (h : _), operOpen s = true ∧ scrTarget s a = some (m, w) ∧ highHalf a = true ∧ scrAsleep s m = false ∧ s.scr.held = some h ∧ h.mem = m ∧ h.word = w ∧ flag s Reg.TST_MEMINJ_CTL_ARM = false) ∧
    (∃ (s : State) (a : _) (m : _) (w : _), operOpen s = true ∧ scrTarget s a = some (m, w) ∧ s.scr.held = none ∧ scrErr s m w = .good) ∧
    (∃ (s : State) (a : _) (m : _) (w : _), operOpen s = true ∧ scrTarget s a = some (m, w) ∧ s.scr.held = none ∧ scrErr s m w = .good) ∧
    (∃ (s : State) (v : _), operOpen s = true ∧ bit v 22 = true ∧ bit v 21 = false ∧ flag s Reg.CNT_STAT_RD_BUSY = false) ∧
    (∃ (s : State) (d : Fin 64), operOpen s = true ∧ flag s (Reg.CNT_DGRP_CFG_EN d) = true ∧ mfind s.cnt.snaps d = none) ∧
    (∃ (s : State) (d : Fin 64) (x : _), s.cnt.snaps = [(d.val, x)] ∧ x.ring < 8 ∧ ringRuns s 0 (36 + x.ring) = true ∧ x.perfKind = false ∧ x.written = 0 ∧ x.entries + 2 ≤ ringRoom s 0 (36 + x.ring)) ∧
    (∃ (s : State) (j : Fin 128) (v : _), operOpen s = true ∧ getF s (Reg.CNT_PERF_TEN_TENANT j) ≠ v % 256) :=
  ⟨⟨sRun, 2, by decide +kernel⟩,
   ⟨{ (withF sRun [(Reg.UPD_STAT_STATE, 1), (Reg.UPD_STAGE_LEN_LEN, 4448)]) with otp := testOtp, upd := { staging := some (1, 1) }, boot := { dir := some dir0 } }, 1, 1, testBytes 1, by decide +kernel, by decide +kernel, by decide +kernel,
    by rw [testImage_parsed 1 1 false (by decide +kernel)]; decide +kernel, by rw [testImage_parsed 1 1 false (by decide +kernel)]; decide +kernel,
    by rw [testImage_parsed 1 1 false (by decide +kernel)]; decide +kernel, by rw [testImage_parsed 1 1 false (by decide +kernel)]; exact testImage_blocks _ _ _,
    by rw [testImage_parsed 1 1 false (by decide +kernel)]; exact (testImage_faultless 1 false).1, by rw [testBytes_length]; decide +kernel⟩,
   ⟨(withF sRun [(Reg.UPD_STAT_STATE, 2)]), { bankOf (withF sRun [(Reg.UPD_STAT_STATE, 2)]) with ids := preparedIds (withF sRun [(Reg.UPD_STAT_STATE, 2)]) }, by decide +kernel, rfl⟩,
   ⟨(withF sRun [(Reg.UPD_STAT_STATE, 3), (Reg.UPD_ACT_TIME_HI_SEC, 1)]), 0, by decide +kernel⟩,
   ⟨(withF sRun [(Reg.UPD_STAT_STATE, 4), (Reg.UPD_ACT_TIME_LO_NS, 1)]), 2, by decide +kernel⟩,
   ⟨{ (withF sRun [(Reg.UPD_STAT_STATE, 4)]) with upd := { shadow := some {} } }, {}, by decide +kernel⟩,
   ⟨(withF sRun [(Reg.UPD_STAT_STATE, 5)]), by decide +kernel⟩,
   ⟨{ (withF sRun [(Reg.UPD_STAT_STATE, 6)]) with upd := { window := (0, 1) } }, 0x5EA10000, by decide +kernel⟩,
   ⟨(withF sRun [(Reg.UPD_STAT_STATE, 6)]), 0x5EA10000, by decide +kernel⟩,
   ⟨(withF sRun [(Reg.UPD_STAT_STATE, 3)]), 0x5EA10000, by decide +kernel⟩,
   ⟨(withF sRun [(Reg.UPD_STAT_STATE, 3)]), 0, by decide +kernel⟩,
   ⟨(withF sRun [(Reg.UPD_STAT_STATE, 6)]), by decide +kernel⟩,
   ⟨{ (withF sRun [(Reg.UPD_STAT_STATE, 6), (Reg.UPD_STAT_FALLBACK_DUE, 1)]) with upd := { restartTrial := true } }, by decide +kernel⟩,
   ⟨{ (withF sRun [(Reg.UPD_STAT_STATE, 6), (Reg.UPD_STAT_FALLBACK_DUE, 1)]) with upd := { shadow := some {} } }, {}, by decide +kernel⟩,
   ⟨(withF sRun [(Reg.UPD_STAT_STATE, 7)]), by decide +kernel⟩,
   ⟨{ (withF sRun [(Reg.UPD_STAT_STATE, 7)]) with upd := { restartTrial := true } }, by decide +kernel⟩,
   ⟨{ sRun with tick := 1, flt := { latch := [(690, { loc := 0, detail := 0, tick := 0, time := {}, sev := 1, timeState := 0, injected := false })] } }, 690, { loc := 0, detail := 0, tick := 0, time := {}, sev := 1, timeState := 0, injected := false }, by decide +kernel⟩,
   ⟨{ sRun with flt := { status := [2047] } }, 2047, by decide +kernel⟩,
   ⟨sRun, by decide +kernel, fun t x l h => by simp [sRun, State.reset] at h⟩,
   ⟨(withF sRun [(Reg.FLT_RING_STAT_WR_IDX, 3), (Reg.FLT_RING_RD_RD_IDX, 1023)]), 3, by decide +kernel⟩,
   ⟨{ sRun with scr := { queue := [(0, [{ set := true, word := 7, mask := 1 }])] } }, 7, 0, { set := true, word := 7, mask := 1 }, by decide +kernel⟩,
   ⟨sRun, 0x183FFF8, 0, 16383, by decide +kernel⟩,
   ⟨{ sRun with scr := { held := some { addr := 0x1820000, mem := 0, word := 0, low := 9 } } }, 0x1820004, 0, 0, { addr := 0x1820000, mem := 0, word := 0, low := 9 }, by decide +kernel⟩,
   ⟨sRun, 0x1820000, 0, 0, by decide +kernel⟩,
   ⟨sRun, 0x1820000, 0, 0, by decide +kernel⟩,
   ⟨sRun, (2 ^ 22), by decide +kernel⟩,
   ⟨(withF sRun [(Reg.CNT_DGRP_CFG_EN 63, 1)]), 63, by decide +kernel⟩,
   ⟨{ (withF sRun [(Reg.HIF_FN_CFG_RINGS_EN 0, 1), (Reg.HIF_RING_CFG_EN 0 36, 1)]) with cnt := { snaps := [(3, snap0)] } }, 3, snap0, by decide +kernel⟩,
   ⟨sRun, 127, 5, by decide +kernel⟩⟩

/-! ## The statements over every command -/

/-- States with commands waiting, in every kind that the statements over steps ask for. -/
theorem witness_steps :
    (∃ (s : State) (c : Instr) (rest : List Instr), s.pending = c :: rest ∧ rest ≠ []) ∧
    (∃ s : State, s.pending = [] ∧ s.flt.follow = false ∧ s.pair.gap = none ∧ s.top = .run) ∧
    (∃ s t : State, s.QueueWf ∧ step s = .next t ∧ t.pending ≠ []) ∧
    (∃ s t : State, s.Canon ∧ step s = .next t ∧ t.pending ≠ []) :=
  ⟨⟨{ sRun with pending := [.vinDip, .vinFail] }, .vinDip, [.vinFail], rfl, by decide⟩,
   ⟨sRun, rfl, rfl, rfl, rfl⟩,
   ⟨{ sRun with pending := [.vinDip, .vinFail] }, _, by unfold State.QueueWf; decide +kernel, rfl, by decide +kernel⟩,
   ⟨{ sRun with pending := [.vinDip, .vinFail] }, _, by unfold State.Canon RegsCanon ScratchCanon TablesCanon; decide +kernel, rfl, by decide +kernel⟩⟩

/-- Commands that leave the top-level state, the scratchpads and the tables alone, and that answer a next state. -/
theorem witness_frames :
    (∃ (c : Instr) (s t : State), movesTop c = false ∧ exec c s = .next t) ∧
    (∃ (c : Instr) (s t : State), writesScratch c = false ∧ exec c s = .next t) ∧
    (∃ (c : Instr) (s t : State), writesTables c = false ∧ exec c s = .next t) :=
  ⟨⟨.vinDip, sRun, _, rfl, rfl⟩, ⟨.vinDip, sRun, _, rfl, rfl⟩, ⟨.vinDip, sRun, _, rfl, rfl⟩⟩

/-- A standby card in RUN. -/
def standbyCard : State := withF sRun [(Reg.PAIR_CFG_MODE, 1), (Reg.PAIR_STAT_ROLE, 2)]

/-- A SWITCH promotes it. -/
theorem witness_standby_is_promoted_only_by_switch : ∃ (c : Instr) (s t : State), role s = 2 ∧ exec c s = .next t ∧ role t = 1 := by
  have r2 : role standbyCard = 2 := by decide +kernel
  refine ⟨.switch ⟨0xF0C5, 2 ^ 24⟩ (testCrc 4) true, standbyCard, _, r2, rfl, ?_⟩
  have h : landing (0xF0C5 : Fin 65536).val 4 (2 ^ 24) (testCrc 4).val true standbyCard = landingCurrent standbyCard 4 (2 ^ 24) := by
    unfold landing
    dsimp only
    rw [if_neg (by decide +kernel), if_neg (by decide +kernel), if_neg (by decide), if_neg (by decide +kernel)]
    rfl
  rw [show landing _ _ _ _ _ _ = _ from h]
  unfold landingCurrent
  dsimp only
  rw [if_neg (by decide +kernel), if_neg (by decide +kernel)]
  exact role_roleMessage_switch _ _ _ (by decide +kernel) (by decide +kernel)

/-- States and operands of the statements of one clause. -/
theorem witness_single_clauses :
    (∃ s : State, s.top ≠ .off ∧ getF s Reg.TST_STAT_INSTR ≠ 0x82) ∧ (∃ v : Nat, bits v 0 31 ≠ 0) ∧
    (∃ (s : State) (v fmt : Nat) (r : List Word), operOpen s = true ∧ mfind s.nvm.area.log (v % 8192) = some (fmt, r) ∧ r.length = 8) :=
  ⟨⟨sRun, by decide +kernel⟩, ⟨1, by decide⟩,
   ⟨{ sRun with nvm := { area := { log := [(8191, (1, List.replicate 8 0))] } } }, 8191, 1, List.replicate 8 0, by decide +kernel⟩⟩

end Sys2Proof.Tests
end

/-! Setting the PTP clock, PPS and CLKOUT (O22): what a merged write and a write of a register pair store, and what each command writes in the state that takes it. -/

namespace Sys2Proof.Machine

/-! ## Merged words and the registers that a write leaves alone -/

/-- A merge in which every bit is writable gives the written word. -/
theorem mergeBits_all (w v : Word) : mergeBits w v.toNat 0xFFFFFFFF = v := by
  have hv : Nat.land v.toNat (2 ^ 32 - 1) = v.toNat := by
    rw [show Nat.land v.toNat (2 ^ 32 - 1) = v.toNat % 2 ^ 32 from Nat.and_two_pow_sub_one_eq_mod _ _]
    exact Nat.mod_eq_of_lt v.isLt
  have hw : Nat.land w.toNat (2 ^ 32 - 1 - 0xFFFFFFFF) = 0 := Nat.and_zero _
  rw [mergeBits, hw, show 0xFFFFFFFF = 2 ^ 32 - 1 from rfl, hv, show Nat.lor 0 v.toNat = v.toNat from Nat.zero_or _]
  exact BitVec.ofNat_toNat 32 v |>.trans (BitVec.setWidth_eq v)

/-- A field all of whose bits are writable reads as the written value has it. -/
theorem fget_mergeBits (w : Word) (v m lo len : Nat) (hm : m < 2 ^ 32) (h : lo + len ≤ 32) (hbits : ∀ i < len, m.testBit (lo + i) = true) :
    fget (mergeBits w v m) lo len = bits v lo len := by
  rw [fget, mergeBits, bits_word _ _ _ h]
  refine Nat.eq_of_testBit_eq fun i => ?_
  rw [bits_eq_testBit, bits_eq_testBit]
  by_cases hi : i < len
  · have hold : (2 ^ 32 - 1 - m).testBit (lo + i) = false := by
      rw [show 2 ^ 32 - 1 - m = 2 ^ 32 - (m + 1) by omega, Nat.testBit_two_pow_sub_succ hm, hbits i hi]
      simp
    have hor : (Nat.lor (Nat.land w.toNat (2 ^ 32 - 1 - m)) (Nat.land v m)).testBit (lo + i) =
        ((w.toNat.testBit (lo + i) && (2 ^ 32 - 1 - m).testBit (lo + i)) || (v.testBit (lo + i) && m.testBit (lo + i))) :=
      (Nat.testBit_or ..).trans (congrArg₂ (· || ·) (Nat.testBit_and ..) (Nat.testBit_and ..))
    rw [hor, hold, hbits i hi]
    simp
  · simp [hi]

/-- A field of a register just written with all of its bits writable. -/
theorem getF_writeRw (s : State) (f : Fld) (v m : Nat) (hm : m < 2 ^ 32) (h : f.lo + f.len ≤ 32) (hbits : ∀ i < f.len, m.testBit (f.lo + i) = true) :
    getF (writeRw s f.reg v m) f = bits v f.lo f.len := by
  rw [writeRw, getF_wr_self, fget_mergeBits _ _ _ _ _ hm h hbits]

theorem rd_writeRw_self (s : State) (a v m : Nat) : rd (writeRw s a v m) a = mergeBits (rd s a) v m := rd_wr_self ..

theorem rd_writeRw_ne (s : State) {a b : Nat} (v m : Nat) (h : b ≠ a) : rd (writeRw s a v m) b = rd s b := rd_wr_ne s _ h

theorem regsBut_wr (s : State) (a : Nat) (w : Word) : RegsBut [a] s (wr s a w) := fun _ hb => rd_wr_ne s w (List.ne_of_not_mem_cons hb)

/-! ## A write of _HI with a held _LO (R8) -/

section
variable {s : State} {f lo hi : Nat} {x : Word} (mlo mhi v : Nat)

theorem rd_commitHi_lo (hne : lo ≠ hi) (hx : mfind s.loHeld (loKey f lo) = some x) :
    rd (commitHi s f lo mlo hi mhi v) lo = mergeBits (rd s lo) x.toNat mlo := by
  have hheld : heldLo s f lo = x := by rw [heldLo, hx, Option.getD_some]
  calc rd (commitHi s f lo mlo hi mhi v) lo
      = rd (writeRw (writeRw s lo (heldLo s f lo).toNat mlo) hi v mhi) lo := rfl
    _ = mergeBits (rd s lo) x.toNat mlo := by rw [rd_writeRw_ne _ _ _ hne, rd_writeRw_self, hheld]

theorem rd_commitHi_hi (hne : lo ≠ hi) : rd (commitHi s f lo mlo hi mhi v) hi = mergeBits (rd s hi) v mhi := by
  calc rd (commitHi s f lo mlo hi mhi v) hi
      = rd (writeRw (writeRw s lo (heldLo s f lo).toNat mlo) hi v mhi) hi := rfl
    _ = mergeBits (rd s hi) v mhi := by rw [rd_writeRw_self, rd_writeRw_ne _ _ _ hne.symm]

theorem loHeld_commitHi : mfind (commitHi s f lo mlo hi mhi v).loHeld (loKey f lo) = none := mfind_merase_self ..

theorem regsBut_commitHi : RegsBut [lo, hi] s (commitHi s f lo mlo hi mhi v) := by
  intro a ha
  obtain ⟨hlo, hhi⟩ : a ≠ lo ∧ a ≠ hi := by simpa using ha
  calc rd (commitHi s f lo mlo hi mhi v) a
      = rd (writeRw (writeRw s lo (heldLo s f lo).toNat mlo) hi v mhi) a := rfl
    _ = rd s a := by rw [rd_writeRw_ne _ _ _ hhi, rd_writeRw_ne _ _ _ hlo]

end

/-! ## States that take an OPER write -/

theorem operWrite_open {s : State} (h : operOpen s = true) (a v : Nat) (act : State → State) : operWrite s a v act = act s := by
  rw [operWrite, if_pos h]

/-! ## Steps of the PTP clock (R424) -/

/-- A write of TIM_CTL with one action bit steps the clock. -/
theorem timStep_single {s : State} {k v : Nat} (hopen : operOpen s = true) (hone : bits (Nat.lor v (2 ^ k)) 0 2 ≠ 3) (time : State → Ptp) :
    timStep k v s time = stepped s.ptp { s with ptp := time s } := by
  rw [timStep, operWrite_open hopen, if_neg hone]

/-- The two action bits of a TIM_CTL word to which the command's own bit is added. -/
theorem actionBits_lor (v k : Nat) : bits (Nat.lor v (2 ^ k)) 0 2 = Nat.lor (v % 4) (2 ^ k % 4) := by
  have h : Nat.lor v (2 ^ k) % 2 ^ 2 = Nat.lor (v % 2 ^ 2) (2 ^ k % 2 ^ 2) := Nat.or_mod_two_pow
  rw [bits, Nat.pow_zero, Nat.div_one]
  exact h

/-! ## Captures of PPS_IN (R427) -/

theorem rd_bumpIf_ne (c : Bool) (s : State) {a b : Nat} (h : b ≠ a) : rd (bumpIf c s a) b = rd s b := by
  unfold bumpIf
  split
  · exact rd_bump_ne s a b h
  · rfl

theorem rd_bumpIf_true (s : State) (a : Nat) : rd (bumpIf true s a) a = countWord (rd s a) 1 := rd_bump_self s a

theorem getF_setB_reg (s : State) (f g : Fld) (b : Bool) (h : g.reg ≠ f.reg) : getF (setB s f b) g = getF s g := getF_setF_reg s f g _ h

theorem getF_levelOff (s : State) (src : Nat) (f : Fld) : getF (levelOff s src) f = getF s f := getF_congr (levelOff_regs ..) f

theorem flag_levelOff (s : State) (src : Nat) (f : Fld) : flag (levelOff s src) f = flag s f := flag_congr (levelOff_regs ..) f

/-- The registers of a captured edge: its counters, then the time, then the status bits. -/
def ppsCapture (s : State) : State :=
  let s1 := bumpIf (flag s Reg.TIM_STAT_PPS_CAPTURED) (bump s (Reg.TIM_CNT 1)) (Reg.TIM_CNT 2)
  let s2 := setF (setF s1 Reg.TIM_PPS_CAP_LO_NS s.ptp.ns) Reg.TIM_PPS_CAP_HI_SEC_LO s.ptp.sec
  setB (setB (setB s2 Reg.TIM_STAT_PPS_CAPTURED true) Reg.TIM_STAT_PPS_PRESENT true) (refPresent 4) true

/-- An edge of the selected polarity is captured, and PPS_IN is no longer missing. -/
theorem ppsInEdge_selected {s : State} {falling : Bool} (hup : s.boot.up = true) (hen : flag s Reg.TIM_PPS_CFG_IN_EN = true)
    (hpol : flag s Reg.TIM_PPS_CFG_IN_POL = falling) : ppsInEdge falling s = levelOff (ppsCapture s) Src.ppsLoss := by
  rw [ppsInEdge, if_neg (by simp [hup, hen, hpol])]
  rfl

theorem rd_ppsCapture_edges (s : State) : rd (ppsCapture s) (Reg.TIM_CNT 1) = countWord (rd s (Reg.TIM_CNT 1)) 1 := by
  simp (disch := decide) only [ppsCapture, rd_setB_ne, rd_setF_ne, rd_bumpIf_ne, rd_bump_self]

theorem rd_ppsCapture_missed {s : State} (h : flag s Reg.TIM_STAT_PPS_CAPTURED = true) :
    rd (ppsCapture s) (Reg.TIM_CNT 2) = countWord (rd s (Reg.TIM_CNT 2)) 1 := by
  simp (disch := decide) only [ppsCapture, h, rd_setB_ne, rd_setF_ne, rd_bumpIf_true, rd_bump_ne]

theorem getF_ppsCapture_ns (s : State) : getF (ppsCapture s) Reg.TIM_PPS_CAP_LO_NS = s.ptp.ns % 2 ^ 30 := by
  unfold ppsCapture
  simp (disch := decide) only [getF_setB_reg, getF_setF_reg]
  exact getF_setF_self _ _ _ (by decide)

theorem getF_ppsCapture_sec (s : State) : getF (ppsCapture s) Reg.TIM_PPS_CAP_HI_SEC_LO = s.ptp.sec % 2 ^ 32 := by
  unfold ppsCapture
  simp (disch := decide) only [getF_setB_reg]
  exact getF_setF_self _ _ _ (by decide)

theorem flag_ppsCapture_captured (s : State) : flag (ppsCapture s) Reg.TIM_STAT_PPS_CAPTURED = true := by
  simp (disch := decide) only [ppsCapture, flag_setB_beside, flag_setB_self]

theorem flag_ppsCapture_present (s : State) : flag (ppsCapture s) Reg.TIM_STAT_PPS_PRESENT = true := by
  simp (disch := decide) only [ppsCapture, flag_setB_beside, flag_setB_self]

/-! ## The clauses of PtpClockAndPps -/

theorem timSet_steps {s : State} {v : Nat} (hopen : operOpen s = true) (hv : v % 4 = 1) :
    timSet v s = stepped s.ptp { s with ptp :=
      { sec := getF s Reg.TIM_SET_EXT_SEC_HI * 2 ^ 32 + getF s Reg.TIM_SET_HI_SEC_LO, ns := min 999999999 (getF s Reg.TIM_SET_LO_NS), frac := 0 } } :=
  timStep_single hopen (by rw [actionBits_lor, hv]; decide) _

theorem timAdd_steps {s : State} {v : Nat} (hopen : operOpen s = true) (hv : v % 4 = 2) :
    timAdd v s = stepped s.ptp { s with ptp := Ptp.ofFine ((s.ptp.fine : Int) + signed 32 (getF s Reg.TIM_OFFSET_OFFSET) * (2 : Int) ^ 32).toNat } :=
  timStep_single hopen (by rw [actionBits_lor, hv]; decide) _

theorem timIncrCommit_open {s : State} (hopen : operOpen s = true) (v : Nat) :
    timIncrCommit v s = commitHi s 0 Reg.TIM_INCR_LO 0xFFFFFFFF Reg.TIM_INCR_HI 0xFF v := operWrite_open hopen ..

/-- Both halves of the increment take the held and the written value (R8, R422). -/
theorem timIncrCommit_commits {s : State} {lo : Word} (hopen : operOpen s = true) (hlo : mfind s.loHeld Reg.TIM_INCR_LO = some lo) (v : Nat) :
    let t := timIncrCommit v s
    rd t Reg.TIM_INCR_LO = lo ∧ getF t Reg.TIM_INCR_HI_WHOLE = v % 256 ∧ mfind t.loHeld Reg.TIM_INCR_LO = none ∧ RegsBut [Reg.TIM_INCR_LO, Reg.TIM_INCR_HI] s t := by
  have hkey : loKey 0 Reg.TIM_INCR_LO = Reg.TIM_INCR_LO := by decide
  have hne : Reg.TIM_INCR_LO ≠ Reg.TIM_INCR_HI := by decide
  rw [← hkey] at hlo
  rw [timIncrCommit_open hopen]
  refine ⟨?_, ?_, ?_, regsBut_commitHi _ _ _⟩
  · rw [rd_commitHi_lo _ _ _ hne hlo, mergeBits_all]
  · rw [getF, show Reg.TIM_INCR_HI_WHOLE.reg = Reg.TIM_INCR_HI from rfl, rd_commitHi_hi _ _ _ hne,
      fget_mergeBits _ _ _ _ _ (by decide) (by decide) (by decide)]
    simp [bits, Reg.TIM_INCR_HI_WHOLE]
  · exact hkey ▸ loHeld_commitHi ..

theorem ppsOutEdge_enabled {s : State} (hup : s.boot.up = true) (hen : flag s Reg.TIM_PPS_CFG_OUT_EN = true) (rise : Bool) :
    ppsOutEdge rise s = { s with clk := { s.clk with ppsOut := rise } } := by
  simp [ppsOutEdge, hup, hen]

theorem clkoutConfig_open {s : State} (hopen : operOpen s = true) (v : Nat) : clkoutConfig v s = writeRw s Reg.CLK_OUT_CFG v 0x7FFFFF := operWrite_open hopen ..

/-- A field of CLK_OUT_CFG, whose bits [22:0] are writable, takes its bits of the value (R428). -/
theorem getF_clkoutConfig {s : State} (hopen : operOpen s = true) (v : Nat) {f : Fld} (hreg : f.reg = Reg.CLK_OUT_CFG) (hf : f.lo + f.len ≤ 23) :
    getF (clkoutConfig v s) f = bits v f.lo f.len := by
  rw [clkoutConfig_open hopen, ← hreg]
  refine getF_writeRw _ _ _ _ (by decide) (by omega) fun i hi => ?_
  rw [show 0x7FFFFF = 2 ^ 23 - 1 from rfl, Nat.testBit_two_pow_sub_one]
  exact decide_eq_true (by omega)

/-- Settles O22: each command in the state that takes it, by what it writes. -/
theorem ptpClockAndPps : Obligations.PtpClockAndPps := by
  unfold Obligations.PtpClockAndPps
  refine ⟨?set, ?add, ?incr, ?out, ?edge, ?clkout⟩
  case set => exact fun s v hopen hv => ⟨timSet v s, rfl, timSet_steps hopen hv⟩
  case add => exact fun s v hopen hv => ⟨timAdd v s, rfl, timAdd_steps hopen hv⟩
  case incr => exact fun s v lo hopen hlo => ⟨timIncrCommit v s, rfl, timIncrCommit_commits hopen hlo v⟩
  case out => exact fun s rise hup hen => ⟨ppsOutEdge rise s, rfl, ppsOutEdge_enabled hup hen rise⟩
  case edge =>
    intro s falling hup hen hpol
    refine ⟨ppsInEdge falling s, rfl, ?_⟩
    simp only [ppsInEdge_selected hup hen hpol, rd_levelOff, getF_levelOff, flag_levelOff]
    exact ⟨rd_ppsCapture_edges s, getF_ppsCapture_ns s, getF_ppsCapture_sec s, flag_ppsCapture_captured s, flag_ppsCapture_present s, rd_ppsCapture_missed⟩
  case clkout =>
    intro s v hopen
    refine ⟨clkoutConfig v s, rfl, ?_, ?_, ?_, ?_⟩
    · rw [getF_clkoutConfig hopen v rfl (by decide)]
      simp [bits, Reg.CLK_OUT_CFG_SEL]
    · rw [getF_clkoutConfig hopen v rfl (by decide)]
      rfl
    · rw [flag, getF_clkoutConfig hopen v rfl (by decide)]
      rfl
    · rw [clkoutConfig_open hopen]
      exact regsBut_wr _ _ _

end Sys2Proof.Machine

/-! Register reads and writes of BAR0 and the reset by DEV_CTL (O43): the path that an access takes to its register, and what it does there. -/

namespace Sys2Proof.Machine

/-! ## The reset by DEV_CTL (R596) -/

theorem resetEnter_top (cause : Nat) (s : State) : (resetEnter cause s).top = .reset := rfl

theorem devReset_open {s : State} (hopen : operOpen s = true) (v : Nat) :
    devReset v s = if bits v 16 16 ≠ 0x5EA1 ∨ role s = 1 then pwfTarget s Reg.DEV_CTL v else resetEnter 3 s := operWrite_open hopen ..

/-! ## Writes by PF0 that reach a register -/

theorem powered_of_reaches {s : State} {f : Nat} (h : reaches s f = true) : powered s = true := (Bool.and_eq_true_iff.mp h).1

/-- A write that reaches the device with another width or alignment is logged with cause WIDTH (R7). -/
theorem busWrite_width {s : State} {f a w : Nat} (hreach : reaches s f = true) (h : w ≠ 4 ∨ a % 4 ≠ 0) (v : Nat) :
    busWrite f a w v s = pwfD s f 0 a v .width 0 := by
  simp only [busWrite, hreach, Bool.not_true, Bool.false_eq_true, if_false, if_pos h]
  rw [hostFail, if_pos (powered_of_reaches hreach)]

theorem busWrite_unreached {s : State} {f : Nat} (h : reaches s f = false) (a w v : Nat) : busWrite f a w v s = s := by
  simp [busWrite, h]

section
variable {s : State} {a : Nat} {r : RegRow} (hit : PfHits s a r)
include hit

theorem busWrite_pfHits (v : Nat) : busWrite 0 a 4 v s = pfWrite s a (v % 2 ^ 32) := by
  simp [busWrite, hit.reach, hit.aligned]

theorem pfWrite_sealed (hcls : r.cls = .sealed) (v : Nat) : pfWrite s a v = pwfD s 0 0 a v .isSealed 0 := by
  simp [pfWrite, hit.window, hit.inside, hit.page, hit.row, hit.port, hcls]

theorem pfWrite_status (hcls : r.cls = .status) (v : Nat) : pfWrite s a v = statusWrite s a v r := by
  simp [pfWrite, hit.window, hit.inside, hit.page, hit.row, hit.port, hcls]

theorem pfWrite_oper (hcls : r.cls = .oper) (v : Nat) : pfWrite s a v = operWrite s a v (fun s => operTake s a v) := by
  simp [pfWrite, hit.window, hit.inside, hit.page, hit.row, hit.port, hcls]

/-- A STATUS register with no rule of its own clears the W1C bits written 1. -/
theorem busWrite_status {v : Nat} (hcls : r.cls = .status) (hup : s.boot.up = true) (hown : statusOwn s a (v % 2 ^ 32) = none)
    (hownN : statusOwnN s a (v % 2 ^ 32) = none) : busWrite 0 a 4 v s = w1c s a (v % 2 ^ 32) r.w1c := by
  rw [busWrite_pfHits hit, pfWrite_status hit hcls, statusWrite, hup, hown, hownN, hit.port]
  simp

/-- A plain OPER register is written as one that only stores. -/
theorem busWrite_plain {v : Nat} (plain : PlainOper s a (v % 2 ^ 32) r) : busWrite 0 a 4 v s = pairWrite s 0 a (v % 2 ^ 32) := by
  rw [busWrite_pfHits hit, pfWrite_oper hit plain.cls, operWrite_open plain.opens, operTake, plain.ownA, plain.ownB, plain.ownC, plain.ownD]
  simp [operStore, plain.unmirrored]

end

/-! ## Writes of register pairs (R8) -/

theorem pairWrite_single {s : State} {a : Nat} {r : RegRow} (hrow : regRow a = some r) (hlo : isLo a = false) (hhi : isHi a = false) (f v : Nat) :
    pairWrite s f a v = writeRw s a v (Nat.lor r.rw r.rws) := by
  simp [pairWrite, hlo, hhi, hrow]

theorem pairWrite_hi {s : State} {a : Nat} {q r : RegRow} (hrow : regRow a = some r) (hrowLo : regRow (a - 4) = some q) (hlo : isLo a = false)
    (hhi : isHi a = true) (f v : Nat) :
    pairWrite s f a v = commitHi s f (a - 4) (Nat.lor q.rw q.rws) a (Nat.lor r.rw r.rws) v := by
  simp [pairWrite, hlo, hhi, hrow, hrowLo]

/-! ## Reads (R8 to R10) -/

theorem busRead_width {s : State} {f w : Nat} (hreach : reaches s f = true) (hw : w ≠ 4) (a : Nat) : busRead f false a w s = { s with rdData := 0 } := by
  simp [busRead, hreach, hw]

section
variable {s : State} {f a h : Nat} {r : RegRow}

/-- An aligned read outside the scratch windows reads the register that stands at the offset. -/
theorem busRead_register (hreach : reaches s f = true) (halign : a % 4 = 0) (hwin : f = 0 → isWindow a = false) (hhome : homeOf s f a = some h) :
    busRead f false a 4 s = readBack (regRead s f h) := by
  have hbar : bar0Read s f a = regRead s f h := by
    rw [bar0Read, if_neg (not_not_intro halign), if_neg (fun ⟨hf, hw⟩ => by simp [hwin hf] at hw), hhome]
  simp [busRead, hreach, hbar]

theorem regRead_latched {w : Word} (hl : mfind s.hiLatch (loKey f h) = some w) : regRead s f h = (w.toNat, latchDrop s f h) := by
  rw [regRead, hl]

theorem regRead_unlatched (hl : mfind s.hiLatch (loKey f h) = none) : regRead s f h = (regShown s h, rcClear (loLatch s f h) h) := by
  rw [regRead, hl]

theorem hiLatch_latchPut (s : State) (f a : Nat) : mfind (latchPut s f a).hiLatch (loKey f a) = some (Word.ofNat (regShown s a)) := by
  simp only [latchPut, mfind_mset_self]

theorem loLatch_single (hlo : isLo h = false) : loLatch s f h = s := by simp [loLatch, hlo]

theorem loLatch_pair (hlo : isLo h = true) (hnow : h ≠ Reg.TIM_NOW_LO) : loLatch s f h = latchPut s f (h + 4) := by simp [loLatch, hlo, hnow]

theorem rcClear_none (hrow : regRow h = some r) (hrc : r.rc = 0) : rcClear s h = s := by simp [rcClear, hrow, hrc]

/-- The read of a register that keeps no peak clears its RC bits and nothing else of the registers. -/
theorem rcClear_regs (hrow : regRow h = some r) (hrc : r.rc ≠ 0) (hup : s.boot.up = true) (hpeak : ∀ u, peakOf u h = none) :
    (rcClear s h).regs = (wr s h (mergeBits (rd s h) 0 r.rc)).regs := by
  simp only [rcClear, hrow, hrc, hup, hpeak, Bool.not_true, Bool.false_eq_true, and_false, or_self, if_false]
  split <;> rfl

end

/-! ## Accesses that expire (R591) -/

section
variable {s : State} {f a h r : Nat} (hreach : reaches s f = true) (hhome : homeOf s f a = some h) (hroot : r ∈ rootsOf h) (hhalt : familyHalted s r = true)
include hreach hhome hroot hhalt

theorem accessExpired_halted (write : Bool) (v : Nat) :
    accessExpired f write a v s =
      if write then pwfD (bump s (Reg.DEV_CNT 4)) f 0 a v .target 0 else { bump s (Reg.DEV_CNT 4) with rdData := 0 } := by
  have hany : (rootsOf h).any (familyHalted s) = true := List.any_eq_true.mpr ⟨r, hroot, hhalt⟩
  simp only [accessExpired, hhome, hreach, hany, Bool.not_true, Bool.or_self, Bool.false_eq_true, if_false]

theorem accessExpired_read (v : Nat) : accessExpired f false a v s = { bump s (Reg.DEV_CNT 4) with rdData := 0 } := by
  rw [accessExpired_halted hreach hhome hroot hhalt, if_neg Bool.false_ne_true]

theorem accessExpired_write (v : Nat) : accessExpired f true a v s = pwfD (bump s (Reg.DEV_CNT 4)) f 0 a v .target 0 := by
  rw [accessExpired_halted hreach hhome hroot hhalt, if_pos rfl]

end

/-- Settles O43: each access by the path that it takes to its register. -/
theorem registerAccesses : Obligations.RegisterAccesses := by
  unfold Obligations.RegisterAccesses
  refine ⟨?reset, ?resetFails, ?oper, ?isSealed, ?status, ?width, ?unreached, ?hi, ?clear, ?readWidth, ?latch, ?latched, ?readExpired, ?writeExpired⟩
  case reset =>
    intro s v hopen hcode hrole
    have ht : devReset (Nat.lor v 1) s = resetEnter 3 s := by rw [devReset_open hopen, if_neg (not_or.mpr ⟨not_not_intro hcode, hrole⟩)]
    exact ⟨devReset (Nat.lor v 1) s, rfl, ht, ht ▸ resetEnter_top 3 s⟩
  case resetFails =>
    exact fun s v hopen h => ⟨devReset (Nat.lor v 1) s, rfl, by rw [devReset_open hopen, if_pos h]⟩
  case oper =>
    intro s a v r hit plain hlo hhi
    refine ⟨busWrite 0 a 4 v s, rfl, ?_⟩
    rw [busWrite_plain hit plain, pairWrite_single hit.row hlo hhi]
    exact ⟨rd_writeRw_self .., regsBut_wr _ _ _⟩
  case isSealed =>
    exact fun s a v r hit hcls => ⟨busWrite 0 a 4 v s, rfl, by rw [busWrite_pfHits hit, pfWrite_sealed hit hcls]⟩
  case status =>
    intro s a v r hit hcls hup hown hownN
    refine ⟨busWrite 0 a 4 v s, rfl, ?_⟩
    rw [busWrite_status hit hcls hup hown hownN]
    exact ⟨rd_wr_self .., regsBut_wr _ _ _⟩
  case width => exact fun s f a w v hreach h => ⟨busWrite f a w v s, rfl, busWrite_width hreach h v⟩
  case unreached => exact fun s f a w v h => ⟨busWrite f a w v s, rfl, busWrite_unreached h a w v⟩
  case hi =>
    intro s a v r q x hit plain hhi hlo h4 hrowLo hheld
    have hne : a - 4 ≠ a := by omega
    refine ⟨busWrite 0 a 4 v s, rfl, ?_⟩
    rw [busWrite_plain hit plain, pairWrite_hi hit.row hrowLo hlo hhi]
    exact ⟨rd_commitHi_lo _ _ _ hne hheld, rd_commitHi_hi _ _ _ hne, loHeld_commitHi .., regsBut_commitHi _ _ _⟩
  case clear =>
    intro s f a h r hreach halign hwin hhome hl hrow hrc hup hlo hpeak
    have hregs := rcClear_regs hrow hrc hup hpeak
    refine ⟨busRead f false a 4 s, rfl, ?_⟩
    rw [busRead_register hreach halign hwin hhome, regRead_unlatched hl, loLatch_single hlo]
    exact ⟨rfl, (rd_congr hregs h).trans (rd_wr_self ..), fun b hb => (rd_congr hregs b).trans (regsBut_wr s h _ b hb)⟩
  case readWidth => exact fun s f a w hreach hw => ⟨busRead f false a w s, rfl, busRead_width hreach hw a⟩
  case latch =>
    intro s f a h r hreach halign hwin hhome hl hrow hrc hlo hnow
    refine ⟨busRead f false a 4 s, rfl, ?_⟩
    rw [busRead_register hreach halign hwin hhome, regRead_unlatched hl, loLatch_pair hlo hnow, rcClear_none hrow hrc]
    exact ⟨rfl, hiLatch_latchPut .., rfl⟩
  case latched =>
    intro s f a h w hreach halign hwin hhome hl
    exact ⟨busRead f false a 4 s, rfl, by rw [busRead_register hreach halign hwin hhome, regRead_latched hl]; rfl⟩
  case readExpired =>
    exact fun s f a h r v hreach hhome hroot hhalt => ⟨accessExpired f false a v s, rfl, accessExpired_read hreach hhome hroot hhalt v⟩
  case writeExpired =>
    exact fun s f a h r v hreach hhome hroot hhalt => ⟨accessExpired f true a v s, rfl, accessExpired_write hreach hhome hroot hhalt v⟩

end Sys2Proof.Machine

/-! Every step (O1, O4, O5, O6) and the state after reset (O8, O9): a step takes the front command of the queue and keeps the canonical form of the stores, which reset has. -/

namespace Sys2Proof.Machine

/-! ## What every command keeps -/

/-- Every command answers a next state, which keeps the commands that wait, what OTP holds and the canonical form of the stores: the command's own law, one arm each. -/
theorem exec_keeps (c : Instr) (s : State) : ∃ t, exec c s = .next t ∧ s.Keeps t :=
  have hs : s.Keeps s := keeps_refl s
  match c with
  | .vinGood _ => ⟨_, rfl, vinGood_keeps hs⟩
  | .vinFail => ⟨_, rfl, vinFail_keeps hs⟩
  | .vinDip => ⟨_, rfl, vinDip_keeps hs⟩
  | .vinWarn => ⟨_, rfl, vinWarn_keeps hs⟩
  | .vinWarnClear => ⟨_, rfl, vinWarnClear_keeps hs⟩
  | .resetLLow => ⟨_, rfl, resetLLow_keeps hs⟩
  | .resetExit _ ⟨_, _⟩ => ⟨_, rfl, resetExit_keeps hs⟩
  | .nvmIdAttempt _ _ => ⟨_, rfl, nvmIdAttempt_keeps hs⟩
  | .imageBlockRead _ => ⟨_, rfl, imageBlockRead_keeps hs⟩
  | .loadComplete => ⟨_, rfl, loadComplete_keeps hs⟩
  | .verifyComplete => ⟨_, rfl, verifyComplete_keeps hs⟩
  | .configRecord => ⟨_, rfl, configRecord_keeps hs⟩
  | .applyComplete _ => ⟨_, rfl, applyComplete_keeps hs⟩
  | .bringupComplete => ⟨_, rfl, bringupComplete_keeps hs⟩
  | .rootPllLockTimeout => ⟨_, rfl, rootPllLockTimeout_keeps hs⟩
  | .pllLocked _ => ⟨_, rfl, pllLocked_keeps hs⟩
  | .rampStep => ⟨_, rfl, rampStep_keeps hs⟩
  | .stairTransfer _ _ _ _ => ⟨_, rfl, stairTransfer_keeps hs⟩
  | .lineLaneCalibration _ _ _ => ⟨_, rfl, lineLaneCalibration_keeps hs⟩
  | .linkTrainingDone _ _ => ⟨_, rfl, linkTrainingDone_keeps hs⟩
  | .linkTrainingRetry _ => ⟨_, rfl, linkTrainingRetry_keeps hs⟩
  | .retrain _ => ⟨_, rfl, retrain_keeps hs⟩
  | .admin _ _ => ⟨_, rfl, admin_keeps hs⟩
  | .lineFrameReceive _ _ _ _ _ ⟨_, _⟩ => ⟨_, rfl, lineFrameReceive_keeps hs⟩
  | .macControlFrame _ _ => ⟨_, rfl, macControlFrame_keeps hs⟩
  | .pauseTimerExpire _ _ => ⟨_, rfl, pauseTimerExpire_keeps hs⟩
  | .pfcRefresh _ => ⟨_, rfl, pfcRefresh_keeps hs⟩
  | .pfcStormDetect _ _ => ⟨_, rfl, pfcStormDetect_keeps hs⟩
  | .pfcStormRestore _ _ => ⟨_, rfl, pfcStormRestore_keeps hs⟩
  | .linkFaultDetect ⟨_, _⟩ => ⟨_, rfl, linkFaultDetect_keeps hs⟩
  | .remoteFaultReceived _ => ⟨_, rfl, remoteFaultReceived_keeps hs⟩
  | .synceResume _ => ⟨_, rfl, synceResume_keeps hs⟩
  | .ingressPass _ _ _ ⟨_, _⟩ => ⟨_, rfl, ingressPass_keeps hs⟩
  | .fragEntryAge _ _ _ => ⟨_, rfl, fragEntryAge_keeps hs⟩
  | .fragFlush _ => ⟨_, rfl, fragFlush_keeps hs⟩
  | .scanWindow _ ⟨_, _⟩ => ⟨_, rfl, scanWindow_keeps hs⟩
  | .sigWrite _ => ⟨_, rfl, sigWrite_keeps hs⟩
  | .sigInvalidate _ => ⟨_, rfl, sigInvalidate_keeps hs⟩
  | .sigProfile _ => ⟨_, rfl, sigProfile_keeps hs⟩
  | .sigClear _ => ⟨_, rfl, sigClear_keeps hs⟩
  | .sigCopy _ => ⟨_, rfl, sigCopy_keeps hs⟩
  | .sigCopyDone => ⟨_, rfl, sigCopyDone_keeps hs⟩
  | .sigSwap _ => ⟨_, rfl, sigSwap_keeps hs⟩
  | .sigSwapInstant => ⟨_, rfl, sigSwapInstant_keeps hs⟩
  | .sigRead _ _ => ⟨_, rfl, sigRead_keeps hs⟩
  | .sigCancel => ⟨_, rfl, sigCancel_keeps hs⟩
  | .oldBankDrained => ⟨_, rfl, oldBankDrained_keeps hs⟩
  | .sigEntryRepair _ _ _ => ⟨_, rfl, sigEntryRepair_keeps hs⟩
  | .insert _ => ⟨_, rfl, insertEntry_keeps hs⟩
  | .delete _ => ⟨_, rfl, deleteEntry_keeps hs⟩
  | .modify _ => ⟨_, rfl, modify_keeps hs⟩
  | .search _ => ⟨_, rfl, search_keeps hs⟩
  | .next _ => ⟨_, rfl, nextEntry_keeps hs⟩
  | .readEntry _ => ⟨_, rfl, readEntry_keeps hs⟩
  | .move _ => ⟨_, rfl, move_keeps hs⟩
  | .flushByPort _ => ⟨_, rfl, flushByPort_keeps hs⟩
  | .flushByPortDone => ⟨_, rfl, flushByPortDone_keeps hs⟩
  | .nop _ => ⟨_, rfl, nop_keeps hs⟩
  | .learnBusMsg => ⟨_, rfl, learnBusMsg_keeps hs⟩
  | .learnRefreshMsg => ⟨_, rfl, learnRefreshMsg_keeps hs⟩
  | .ageSweep _ _ => ⟨_, rfl, ageSweep_keeps hs⟩
  | .trieNodeRebuild => ⟨_, rfl, trieNodeRebuild_keeps hs⟩
  | .policerSweep => ⟨_, rfl, policerSweep_keeps hs⟩
  | .recircSlot _ => ⟨_, rfl, recircSlot_keeps hs⟩
  | .hallRelease _ => ⟨_, rfl, hallRelease_keeps hs⟩
  | .egressPass _ => ⟨_, rfl, egressPass_keeps hs⟩
  | .bufferArrival _ => ⟨_, rfl, bufferArrival_keeps hs⟩
  | .dramReadComplete _ _ _ _ _ => ⟨_, rfl, dramReadComplete_keeps hs⟩
  | .dramWriteComplete _ _ _ _ => ⟨_, rfl, dramWriteComplete_keeps hs⟩
  | .mergeTimeout _ => ⟨_, rfl, mergeTimeout_keeps hs⟩
  | .tagWriteback ⟨_, _, _⟩ => ⟨_, rfl, tagWriteback_keeps hs⟩
  | .wmCrossedClear _ _ => ⟨_, rfl, wmCrossedClear_keeps hs⟩
  | .qwmConfig _ _ => ⟨_, rfl, qwmConfig_keeps hs⟩
  | .requestRetry _ => ⟨_, rfl, requestRetry_keeps hs⟩
  | .creditGrant _ => ⟨_, rfl, creditGrant_keeps hs⟩
  | .voqTimeout _ => ⟨_, rfl, voqTimeout_keeps hs⟩
  | .voqDequeue _ => ⟨_, rfl, voqDequeue_keeps hs⟩
  | .egressSelect _ _ => ⟨_, rfl, egressSelect_keeps hs⟩
  | .calendarSlot => ⟨_, rfl, calendarSlot_keeps hs⟩
  | .fenceLift _ => ⟨_, rfl, fenceLift_keeps hs⟩
  | .fenceTimeout _ => ⟨_, rfl, fenceTimeout_keeps hs⟩
  | .gateEntryChange _ => ⟨_, rfl, gateEntryChange_keeps hs⟩
  | .gateEnable _ _ => ⟨_, rfl, gateEnable_keeps hs⟩
  | .gateChange _ => ⟨_, rfl, gateChange_keeps hs⟩
  | .gateCancel _ => ⟨_, rfl, gateCancel_keeps hs⟩
  | .gateActivate _ => ⟨_, rfl, gateActivate_keeps hs⟩
  | .stagedFrameStart _ _ => ⟨_, rfl, stagedFrameStart_keeps hs⟩
  | .gateNofit _ _ => ⟨_, rfl, gateNofit_keeps hs⟩
  | .epochWindow => ⟨_, rfl, epochWindow_keeps hs⟩
  | .fabricLaneCalibration _ _ _ => ⟨_, rfl, fabricLaneCalibration_keeps hs⟩
  | .fabricTrainingRetry _ _ => ⟨_, rfl, fabricTrainingRetry_keeps hs⟩
  | .caravanFrameSend _ => ⟨_, rfl, caravanFrameSend_keeps hs⟩
  | .caravanFrameReceive _ _ _ _ _ => ⟨_, rfl, keeps_ite (galFrameReceive_keeps hs) (caravanFrameReceive_keeps hs)⟩
  | .slipRead _ ⟨_, _⟩ => ⟨_, rfl, keeps_ite (galSlipRead_keeps hs) (slipRead_keeps hs)⟩
  | .cellReceive _ _ => ⟨_, rfl, cellReceive_keeps hs⟩
  | .holeTimeout _ _ _ => ⟨_, rfl, holeTimeout_keeps hs⟩
  | .contextFree _ _ _ => ⟨_, rfl, contextFree_keeps hs⟩
  | .defectDeclare _ _ _ => ⟨_, rfl, keeps_ite (galDeclare_keeps hs) (defectDeclare_keeps hs)⟩
  | .defectClear _ _ _ => ⟨_, rfl, keeps_ite (galClear_keeps hs) (defectClear_keeps hs)⟩
  | .degInterval _ _ => ⟨_, rfl, degInterval_keeps hs⟩
  | .bkpWatchdog _ _ => ⟨_, rfl, bkpWatchdog_keeps hs⟩
  | .protClear => ⟨_, rfl, protClear_keeps hs⟩
  | .protManualSwitch _ => ⟨_, rfl, protManualSwitch_keeps hs⟩
  | .protForcedSwitch _ => ⟨_, rfl, protForcedSwitch_keeps hs⟩
  | .protLockout => ⟨_, rfl, protLockout_keeps hs⟩
  | .protTest => ⟨_, rfl, protTest_keeps hs⟩
  | .wtrExpire => ⟨_, rfl, wtrExpire_keeps hs⟩
  | .srqIncDeclare => ⟨_, rfl, srqIncDeclare_keeps hs⟩
  | .pmSecond => ⟨_, rfl, pmSecond_keeps hs⟩
  | .dramTraining _ _ => ⟨_, rfl, dramTraining_keeps hs⟩
  | .dramRefresh ⟨_, _⟩ => ⟨_, rfl, dramRefresh_keeps hs⟩
  | .dramTempReadout _ _ => ⟨_, rfl, dramTempReadout_keeps hs⟩
  | .retrainDue _ => ⟨_, rfl, retrainDue_keeps hs⟩
  | .drcRetrain _ => ⟨_, rfl, drcRetrain_keeps hs⟩
  | .pauseBegin _ => ⟨_, rfl, pauseBegin_keeps hs⟩
  | .pauseEnd _ _ => ⟨_, rfl, pauseEnd_keeps hs⟩
  | .dramTestStep _ _ _ => ⟨_, rfl, dramTestStep_keeps hs⟩
  | .lease _ ⟨_, _⟩ _ _ => ⟨_, rfl, landing_keeps hs⟩
  | .standby ⟨_, _⟩ _ _ => ⟨_, rfl, landing_keeps hs⟩
  | .switch ⟨_, _⟩ _ _ => ⟨_, rfl, landing_keeps hs⟩
  | .withdraw ⟨_, _⟩ _ _ => ⟨_, rfl, landing_keeps hs⟩
  | .arbLoss => ⟨_, rfl, arbLoss_keeps hs⟩
  | .leaseExpire => ⟨_, rfl, leaseExpire_keeps hs⟩
  | .healthSend => ⟨_, rfl, healthSend_keeps hs⟩
  | .helloSend => ⟨_, rfl, helloSend_keeps hs⟩
  | .faultMsgSend => ⟨_, rfl, faultMsgSend_keeps hs⟩
  | .galleryHelloSend => ⟨_, rfl, galleryHelloSend_keeps hs⟩
  | .galleryHelloReceive _ _ _ _ => ⟨_, rfl, galleryHelloReceive_keeps hs⟩
  | .galleryLoss => ⟨_, rfl, galleryLoss_keeps hs⟩
  | .cmdItemApply _ => ⟨_, rfl, cmdItemApply_keeps hs⟩
  | .nackReceive ⟨_, _⟩ => ⟨_, rfl, nackReceive_keeps hs⟩
  | .ackStall => ⟨_, rfl, ackStall_keeps hs⟩
  | .stateSnapshot => ⟨_, rfl, stateSnapshot_keeps hs⟩
  | .stateRecordApply _ => ⟨_, rfl, stateRecordApply_keeps hs⟩
  | .baselineLatch => ⟨_, rfl, baselineLatch_keeps hs⟩
  | .baselineApply _ _ _ => ⟨_, rfl, baselineApply_keeps hs⟩
  | .resync _ => ⟨_, rfl, resync_keeps hs⟩
  | .replayRegion ⟨_, _⟩ => ⟨_, rfl, replayRegion_keeps hs⟩
  | .resyncComplete _ => ⟨_, rfl, resyncComplete_keeps hs⟩
  | .standbyProbe => ⟨_, rfl, standbyProbe_keeps hs⟩
  | .marginMeasure _ => ⟨_, rfl, marginMeasure_keeps hs⟩
  | .partnerFaultRecord _ => ⟨_, rfl, partnerFaultRecord_keeps hs⟩
  | .reread _ => ⟨_, rfl, reread_keeps hs⟩
  | .pushStart _ => ⟨_, rfl, pushStart_keeps hs⟩
  | .pushComplete _ _ => ⟨_, rfl, pushComplete_keeps hs⟩
  | .pushSlotProgram _ => ⟨_, rfl, pushSlotProgram_keeps hs⟩
  | .commitFw => ⟨_, rfl, arbCtl_keeps hs⟩
  | .commitCfg => ⟨_, rfl, arbCtl_keeps hs⟩
  | .keyRevoke _ => ⟨_, rfl, keyRevoke_keeps hs⟩
  | .toField _ => ⟨_, rfl, toField_keeps hs⟩
  | .stageStart _ => ⟨_, rfl, stageStart_keeps hs⟩
  | .stagingDone _ _ _ ⟨_, _⟩ => ⟨_, rfl, stagingDone_keeps hs⟩
  | .prepareDone => ⟨_, rfl, prepareDone_keeps hs⟩
  | .arm _ => ⟨_, rfl, arm_keeps hs⟩
  | .disarm _ => ⟨_, rfl, disarm_keeps hs⟩
  | .activation => ⟨_, rfl, activation_keeps hs⟩
  | .firmwareSwapDone => ⟨_, rfl, firmwareSwapDone_keeps hs⟩
  | .confirm _ => ⟨_, rfl, confirmTrial_keeps hs⟩
  | .abandon _ => ⟨_, rfl, abandon_keeps hs⟩
  | .restartAct _ => ⟨_, rfl, restartAct_keeps hs⟩
  | .discard _ => ⟨_, rfl, updDiscard_keeps hs⟩
  | .trialExpire => ⟨_, rfl, trialExpire_keeps hs⟩
  | .fallbackStart => ⟨_, rfl, fallbackStart_keeps hs⟩
  | .fallbackDone => ⟨_, rfl, fallbackDone_keeps hs⟩
  | .refClockLoss _ => ⟨_, rfl, refClockLoss_keeps hs⟩
  | .refClockReturn _ => ⟨_, rfl, refClockReturn_keeps hs⟩
  | .pllLoss _ => ⟨_, rfl, reacted_keeps hs (waitShow_keeps (pllLoss_keeps hs))⟩
  | .clkFreqAlarm _ _ => ⟨_, rfl, keeps_ite (clkFreqAlarm_keeps hs) hs⟩
  | .ppsInLoss => ⟨_, rfl, ppsInLoss_keeps hs⟩
  | .cd38Loss => ⟨_, rfl, cd38Loss_keeps hs⟩
  | .relockFd => ⟨_, rfl, clkCtl_keeps hs⟩
  | .relockQd => ⟨_, rfl, clkCtl_keeps hs⟩
  | .rootRelockDone _ _ => ⟨_, rfl, rootRelockDone_keeps hs⟩
  | .timSet _ => ⟨_, rfl, timSet_keeps hs⟩
  | .timAdd _ => ⟨_, rfl, timAdd_keeps hs⟩
  | .timIncrCommit _ => ⟨_, rfl, timIncrCommit_keeps hs⟩
  | .ppsOutEdge _ => ⟨_, rfl, ppsOutEdge_keeps hs⟩
  | .ppsInEdge _ => ⟨_, rfl, ppsInEdge_keeps hs⟩
  | .clkoutConfig _ => ⟨_, rfl, clkoutConfig_keeps hs⟩
  | .railOut _ _ _ => ⟨_, rfl, railOut_keeps hs⟩
  | .railRecover => ⟨_, rfl, railRecover_keeps hs⟩
  | .tempSensorRead _ => ⟨_, rfl, tempSensorRead_keeps hs⟩
  | .tripRecover => ⟨_, rfl, tripRecover_keeps hs⟩
  | .vbatCollapse => ⟨_, rfl, vbatCollapse_keeps hs⟩
  | .holdoverWrite => ⟨_, rfl, holdoverWrite_keeps hs⟩
  | .clrRec => ⟨_, rfl, clrRec_keeps hs⟩
  | .vio18Overload => ⟨_, rfl, vio18Overload_keeps hs⟩
  | .telemetryUpdate _ _ _ _ _ _ _ => ⟨_, rfl, telemetryUpdate_keeps hs⟩
  | .sliceAdd => ⟨_, rfl, sliceAdd_keeps hs⟩
  | .sliceRemove => ⟨_, rfl, sliceRemove_keeps hs⟩
  | .sliceSleep => ⟨_, rfl, sliceSleep_keeps hs⟩
  | .drainEnd _ _ => ⟨_, rfl, drainEnd_keeps hs⟩
  | .enteringDone _ => ⟨_, rfl, enteringDone_keeps hs⟩
  | .wakeDone _ => ⟨_, rfl, wakeDone_keeps hs⟩
  | .join _ => ⟨_, rfl, join_keeps hs⟩
  | .maintGrant _ _ => ⟨_, rfl, maintGrant_keeps hs⟩
  | .maintDeadline _ _ => ⟨_, rfl, maintDeadline_keeps hs⟩
  | .prodDoorbell _ _ _ => ⟨_, rfl, prodDoorbell_keeps hs⟩
  | .consDoorbell _ _ _ => ⟨_, rfl, consDoorbell_keeps hs⟩
  | .ringEnable _ _ _ => ⟨_, rfl, ringEnable_keeps hs⟩
  | .ringDisable _ _ _ _ => ⟨_, rfl, ringDisable_keeps hs⟩
  | .flush _ _ _ _ => ⟨_, rfl, ringFlushCmd_keeps hs⟩
  | .commandFetch _ _ _ => ⟨_, rfl, commandFetch_keeps hs⟩
  | .msixHoldoffEnd _ _ => ⟨_, rfl, msixHoldoffEnd_keeps hs⟩
  | .flr _ => ⟨_, rfl, flr_keeps hs⟩
  | .pciePerst => ⟨_, rfl, pciePerst_keeps hs⟩
  | .txDescriptor _ _ _ _ => ⟨_, rfl, txDescriptor_keeps hs⟩
  | .hostFrameDeliver => ⟨_, rfl, hostFrameDeliver_keeps hs⟩
  | .bar2Write _ _ => ⟨_, rfl, bar2Write_keeps hs⟩
  | .pwfClear => ⟨_, rfl, pwfClear_keeps hs⟩
  | .grant _ _ _ => ⟨_, rfl, grant_keeps hs⟩
  | .msixSizeWrite _ _ => ⟨_, rfl, msixSizeWrite_keeps hs⟩
  | .sharedScratchOp _ => ⟨_, rfl, sharedScratchOp_keeps hs⟩
  | .scrWindowWrite _ _ => ⟨_, rfl, scrWindowWrite_keeps hs⟩
  | .scrAliasSet _ _ => ⟨_, rfl, scrAliasSet_keeps hs⟩
  | .scrAliasClear _ _ => ⟨_, rfl, scrAliasClear_keeps hs⟩
  | .scrAtomicAdd => ⟨_, rfl, scrAtomGo_keeps hs⟩
  | .scrAtomicSwap => ⟨_, rfl, scrAtomGo_keeps hs⟩
  | .scrTestStep _ _ => ⟨_, rfl, scrTestStep_keeps hs⟩
  | .faultCollect => ⟨_, rfl, reacted_keeps hs (faultCollect_keeps hs)⟩
  | .fltStatusClear _ => ⟨_, rfl, reacted_keeps hs (fltStatusClear_keeps hs)⟩
  | .firstFaultClear => ⟨_, rfl, firstFaultClear_keeps hs⟩
  | .ringRdWrite _ => ⟨_, rfl, ringRdWrite_keeps hs⟩
  | .nvlogAppend => ⟨_, rfl, nvlogAppend_keeps hs⟩
  | .nvlogRead _ => ⟨_, rfl, nvlogRead_keeps hs⟩
  | .pairRead _ => ⟨_, rfl, pairRead_keeps hs⟩
  | .dumpEpoch _ => ⟨_, rfl, dumpEpoch_keeps hs⟩
  | .dumpWrite _ => ⟨_, rfl, dumpWrite_keeps hs⟩
  | .perfTenantWrite _ _ => ⟨_, rfl, perfTenantWrite_keeps hs⟩
  | .tapReset => ⟨_, rfl, tapReset_keeps hs⟩
  | .extest => ⟨_, rfl, tapLoad_keeps hs⟩
  | .idcode => ⟨_, rfl, tapLoad_keeps hs⟩
  | .samplePreload => ⟨_, rfl, tapLoad_keeps hs⟩
  | .extestPulse => ⟨_, rfl, tapLoad_keeps hs⟩
  | .extestTrain => ⟨_, rfl, tapLoad_keeps hs⟩
  | .clamp => ⟨_, rfl, tapLoad_keeps hs⟩
  | .highz => ⟨_, rfl, tapLoad_keeps hs⟩
  | .serial => ⟨_, rfl, tapLoad_keeps hs⟩
  | .mbist => ⟨_, rfl, tapLoad_keeps hs⟩
  | .otpRead => ⟨_, rfl, tapLoad_keeps hs⟩
  | .scan => ⟨_, rfl, tapLoad_keeps hs⟩
  | .bypass => ⟨_, rfl, tapLoad_keeps hs⟩
  | .laneTestConfig _ _ => ⟨_, rfl, laneTestConfig_keeps hs⟩
  | .checkerLockChange _ _ => ⟨_, rfl, checkerLockChange_keeps hs⟩
  | .probeGo _ => ⟨_, rfl, probeGo_keeps hs⟩
  | .probeCapture _ _ => ⟨_, rfl, probeCapture_keeps hs⟩
  | .probeTimeout _ => ⟨_, rfl, probeTimeout_keeps hs⟩
  | .faultInject _ => ⟨_, rfl, faultInject_keeps hs⟩
  | .memoryInjectArm _ => ⟨_, rfl, memoryInjectArm_keeps hs⟩
  | .devReset _ => ⟨_, rfl, devReset_keeps hs⟩
  | .registerWrite _ _ _ _ => ⟨_, rfl, busWrite_keeps hs⟩
  | .readClear _ _ ⟨_, _⟩ => ⟨_, rfl, busRead_keeps hs⟩
  | .loReadLatch _ _ => ⟨_, rfl, busRead_keeps hs⟩
  | .hiWriteCommit _ _ _ => ⟨_, rfl, busWrite_keeps hs⟩
  | .fabricLinkTrainingDone _ _ _ => ⟨_, rfl, fabricLinkTrainingDone_keeps hs⟩
  | .galleryLaneCalibration _ _ => ⟨_, rfl, galleryLaneCalibration_keeps hs⟩
  | .linkFaultClear _ => ⟨_, rfl, linkFaultClear_keeps hs⟩
  | .remoteFaultClear _ => ⟨_, rfl, remoteFaultClear_keeps hs⟩
  | .vbatLow _ => ⟨_, rfl, vbatLow_keeps hs⟩
  | .vio18Recover => ⟨_, rfl, vio18Recover_keeps hs⟩
  | .pcieLinkChange _ _ _ _ _ _ => ⟨_, rfl, pcieLinkChange_keeps hs⟩
  | .pciePerstRelease => ⟨_, rfl, pciePerstRelease_keeps hs⟩
  | .pllLockFail _ => ⟨_, rfl, pllLockFail_keeps hs⟩
  | .accessExpired _ _ _ _ => ⟨_, rfl, accessExpired_keeps hs⟩
  | .checkerBitError _ _ => ⟨_, rfl, checkerBitError_keeps hs⟩

/-- A tick on an empty queue keeps them too. -/
theorem idle_keeps (s : State) : s.Keeps (idle s) := reactFollow_keeps (gapOver_keeps (advance_keeps (keeps_refl s)))

/-! ## The step and the queue -/

theorem step_of_pending {s : State} {c : Instr} {rest : List Instr} (h : s.pending = c :: rest) : step s = exec c { s with pending := rest } := by
  rw [step, h]

theorem step_of_idle {s : State} (h : s.pending = []) : step s = .next (idle s) := by rw [step, h]

/-- A step keeps what its front command is run on: the state with the rest of the queue. -/
theorem keeps_of_step {s t : State} (h : step s = .next t) : State.Keeps { s with pending := s.pending.tail } t := by
  cases hq : s.pending with
  | nil =>
    rw [step_of_idle hq] at h
    cases h
    have hs : { s with pending := [].tail } = s := by rw [List.tail_nil, ← hq]
    rw [hs]
    exact idle_keeps s
  | cons c rest =>
    rw [step_of_pending hq] at h
    obtain ⟨u, hu, hk⟩ := exec_keeps c { s with pending := rest }
    rw [hu] at h
    cases h
    exact hk

theorem pending_of_step {s t : State} (h : step s = .next t) : t.pending = s.pending.tail := (keeps_of_step h).1.1

/-- Settles O1: both clauses are the second equation of `step`. -/
theorem stepRunsTheFrontCommand : Obligations.StepRunsTheFrontCommand :=
  ⟨fun _ _ => step_of_pending rfl, fun _ _ _ h => step_of_pending h⟩

/-- Settles O4, from the law that every command keeps the commands that wait behind it. -/
theorem stepTakesOnlyTheFrontCommand : Obligations.StepTakesOnlyTheFrontCommand := fun _ _ h => pending_of_step h

/-- Settles O5: the queue after a step is the tail of a queue of well-formed commands. -/
theorem wellFormedQueueStays : Obligations.WellFormedQueueStays := by
  intro s t hwf h
  rw [State.QueueWf, pending_of_step h]
  exact List.all_eq_true.mpr fun c hc => List.all_eq_true.mp hwf c (List.mem_of_mem_tail hc)

/-- Settles O6: taking the front command leaves the stores alone, and every command keeps their canonical form. -/
theorem stepKeepsCanonicalStores : Obligations.StepKeepsCanonicalStores := fun _ _ hc h => (keeps_of_step h).2 hc

/-! ## The state after reset (R29, R32) -/

/-- The one register that the state after reset lists is TST_STAT, at another value than the 0 of its table. -/
theorem reset_regsCanon : RegsCanon State.reset.regs := by
  rw [RegsCanon, mwf_iff]
  refine ⟨List.pairwise_singleton .., fun e he => ?_⟩
  obtain rfl := List.mem_singleton.mp he
  decide +kernel

theorem rd_reset {a : Nat} (h : a ≠ Reg.TST_STAT) : rd State.reset a = regReset a := by
  have hne : Reg.TST_STAT ≠ a := h.symm
  simp only [rd, State.reset, mget, mfind, show (0x1B00000 : Nat) = Reg.TST_STAT from rfl, if_neg hne]

/-- Settles O8. -/
theorem resetIsCanonicalAndIdle : Obligations.ResetIsCanonicalAndIdle := ⟨⟨reset_regsCanon, mwf_nil _, mwf_nil _⟩, rfl, rfl⟩

/-- Settles O9: TST_STAT is listed with INSTR 1, every other register reads its reset value, and what is unlisted reads as it starts. -/
theorem resetHoldsTheSpecValues : Obligations.ResetHoldsTheSpecValues := by
  refine ⟨rfl, rfl, rfl, ?_, fun a ha => rd_reset ha, ?_, fun _ _ => rfl, fun _ _ => rfl, rfl, rfl, rfl, rfl, rfl⟩
  · rw [role, getF, rd_reset (by decide)]
    decide +kernel
  · decide +kernel

end Sys2Proof.Machine

/-! VIN, RESET_L, leaving RESET and trip recovery (O17). -/

namespace Sys2Proof.Machine

/-! ## A register store of which a part is kept -/

theorem mfind_filter {α : Type} (p : Nat → Bool) (m : NMap α) (k : Nat) : mfind (m.filter fun e => p e.1) k = if p k then mfind m k else none := by
  induction m with
  | nil => simp [mfind]
  | cons e r ih =>
    obtain ⟨j, v⟩ := e
    by_cases hj : j = k
    · subst hj
      cases hp : p j <;> simp_all [mfind]
    · cases hp : p j <;> simp [hp, mfind, hj, ih]

/-- A register that is not among those kept reads its reset value, and one that is reads as before. -/
theorem rd_of_filter {s t : State} {p : Nat → Bool} (h : t.regs = s.regs.filter fun e => p e.1) (a : Nat) :
    rd t a = if p a then rd s a else regReset a := by
  rw [rd, rd, h, mget, mfind_filter]
  cases p a <;> rfl

/-! ## VIN (R435 to R439) -/

/-- RESET resolves the life cycle of OTP (R383). -/
theorem resolveInReset_lc (s : State) : (resolveInReset s).boot.lc = (resolveLc s.otp).1 ∧ (resolveInReset s).otp = (resolveLc s.otp).2.1 := ⟨rfl, rfl⟩

theorem rd_resolveInReset (s : State) {a : Nat} (h : a ≠ Reg.BOOT_STAT) : rd (resolveInReset s) a = rd s a := by
  unfold resolveInReset
  rw [rd_setB_ne _ _ _ _ h, rd_setB_ne _ _ _ _ h]
  rfl

theorem vinGood_off {s : State} (h : s.top = .off) (l : List Nat) :
    (vinGood l s).top = .reset ∧ (vinGood l s).boot.lc = (resolveLc s.otp).1 ∧ (vinGood l s).otp = (resolveLc s.otp).2.1 ∧ (vinGood l s).vbat = s.vbat := by
  have hoff : (s.top != .off) = false := by simp [h]
  rw [vinGood, hoff]
  exact ⟨rfl, rfl, rfl, rfl⟩

theorem vinDip_powered {s : State} (h : s.top ≠ .off) : vinDip s = bump s (Reg.PWR_CNT 1) := by
  simp [vinDip, vinIsGood, bumpIf, h]

theorem vinWarn_begins {s : State} (h : s.top ≠ .off) (hc : s.causeOn Src.vinWarn = false) :
    vinWarn s = levelOn (bump (setB s Reg.PWR_VIN_STAT_WARN true) (Reg.PWR_CNT 0)) Src.vinWarn locPackage 0 := by
  have hc' : (mfind s.flt.cause Src.vinWarn).isSome = false := hc
  simp [vinWarn, vinIsGood, h, hc']

theorem vinWarnClear_clears {s : State} (h : s.boot.dirOwed = none) : vinWarnClear s = levelOff (setB s Reg.PWR_VIN_STAT_WARN false) Src.vinWarn := by
  simp [vinWarnClear, h]

/-! ## RESET_L and RESET (R32, R595) -/

/-- Every register that is neither sticky nor rewritten in RESET reads its reset value after the entry into RESET. -/
theorem rd_resetEnter (cause : Nat) (s : State) {a : Nat} (hs : stickyReg a = false) (hb : a ≠ Reg.BOOT_STAT) (ht : a ≠ Reg.TST_STAT) :
    rd (resetEnter cause s) a = regReset a := by
  unfold resetEnter
  rw [rd_resolveInReset _ hb, rd_setB_ne _ _ _ _ ht, rd_setF_ne _ _ _ _ ht, rd_of_filter (s := s) (p := stickyReg) rfl, hs]
  rfl

theorem resetLLow_enters {s : State} (hoff : s.top ≠ .off) (hreset : s.top ≠ .reset) : resetLLow s = resetEnter 2 { s with pwr := { s.pwr with resetL := false } } := by
  simp [resetLLow, hoff, hreset]

/-! ## Leaving RESET (R32, R436) -/

/-- What the steps after the entry into LOAD leave alone: the top-level state, the tick and the supply. -/
def State.startPart (s : State) : TopState × Nat × PwrSt := (s.top, s.tick, s.pwr)

theorem startPart_of_offReport {s t : State} (h : t.offReport = s.offReport) : t.startPart = s.startPart := by
  simp only [State.startPart, top_of_offReport h, tick_of_offReport h, pwr_of_offReport h]

theorem report_startPart (s : State) (src loc d : Nat) : (report s src loc d).startPart = s.startPart := startPart_of_offReport (report_offReport ..)

theorem setF_startPart (s : State) (f : Fld) (n : Nat) : (setF s f n).startPart = s.startPart := (rfl)

theorem setB_startPart (s : State) (f : Fld) (b : Bool) : (setB s f b).startPart = s.startPart := (rfl)

theorem vbatAtStart_startPart (mv : Nat) (s : State) : (vbatAtStart mv s).startPart = s.startPart := by
  unfold vbatAtStart
  extract_lets absent _ v time good s1 s2 s3
  have h3 : s3.startPart = s.startPart := by
    have h2 : s2.startPart = s.startPart := by simp only [s2, s1, setB_startPart, setF_startPart]
    simp only [s3]
    split
    · exact (startPart_of_offReport (wrWords_offReport ..)).trans h2
    · exact h2
  clear_value s3
  exact h3

theorem levelBits_startPart (s : State) : (levelBits s).startPart = s.startPart := by
  unfold levelBits
  extract_lets on s1 s2 s3
  have h3 : s3.startPart = s.startPart := by simp only [s3, s2, s1, setB_startPart]
  clear_value s3
  exact (foldl_same State.startPart (fun a r => setB a ⟨Reg.CLK_REF_STAT, 8 + r, 1⟩ (on (Src.sysRef + r))) (fun _ _ => setB_startPart ..) _ s3).trans h3

/-- Outside a trip, with every rail in range, RESET is left for LOAD at tick 0 by a part that is not BLANK. -/
theorem resetExit_startPart {s : State} (hreset : s.top = .reset) (htrip : s.pwr.tripHold = false) (hrail : s.pwr.railOut = []) (hlc : s.boot.lc ≠ .blank)
    (tm : Bool) (mv : Nat) (rcal : List Nat) :
    (resetExit tm mv rcal s).startPart = (.load, 0, { s.pwr with resetL := true, pwrgood := true, tmSample := tm, rcal := rcal.take 5 }) := by
  have hgo : (s.top != .reset || s.pwr.tripHold || !s.pwr.railOut.isEmpty) = false := by simp [hreset, htrip, hrail]
  rw [resetExit, hgo, if_neg Bool.false_ne_true]
  extract_lets _ p _ s0 s1 s2 s3 s4
  have h1 : s1.startPart = (.load, 0, p) := by
    simp only [s1, setB_startPart, levelBits_startPart, vbatAtStart_startPart]
    rfl
  clear_value s1
  have h2 : s2.startPart = s1.startPart := foldl_same State.startPart _ (fun _ _ => report_startPart ..) _ s1
  have h3 : s3.startPart = s2.startPart := by
    simp only [s3]
    split
    · exact report_startPart ..
    · rfl
  have h4 : s4.startPart = s3.startPart := by
    simp only [s4]
    split
    · exact report_startPart ..
    · rfl
  rw [if_neg hlc, h4, h3, h2, h1]

/-! ## Commands that find another state (R33) -/

theorem resetLLow_top_of_off {s : State} (h : s.top = .off) : (resetLLow s).top = .off := by
  simp [resetLLow, h]

theorem vinFail_top (s : State) : (vinFail s).top = .off := rfl

section
variable {s : State} (h : s.top = .off ∨ s.top = .reset ∨ s.top = .hold)
include h

theorem verifyComplete_elsewhere : verifyComplete s = s := by
  rcases h with h | h | h <;> simp [verifyComplete, h]

theorem configRecord_elsewhere : configRecord s = s := by
  unfold configRecord
  split
  · rfl
  · rcases h with h | h | h <;> simp [h]

theorem applyComplete_elsewhere (n : Nat) : applyComplete n s = s := by
  unfold applyComplete
  split
  · rcases h with h | h | h <;> simp [h]
  · rfl

theorem bringupComplete_elsewhere : bringupComplete s = s := by
  rcases h with h | h | h <;> simp [bringupComplete, h]

theorem rootPllLockTimeout_elsewhere : rootPllLockTimeout s = s := by
  rcases h with h | h | h <;> simp [rootPllLockTimeout, h]

end

/-! ## The statement -/

/-- Settles O17: each input in the state that takes it, by what it enters, writes and leaves alone. -/
theorem supplyInputsAndReset : Obligations.SupplyInputsAndReset := by
  unfold Obligations.SupplyInputsAndReset
  refine ⟨?good, ?fail, ?dip, ?warn, ?clear, ?low, ?exit, ?trip, ?order, ?elsewhere⟩
  case good => exact fun s l h => ⟨vinGood l s, rfl, vinGood_off h l⟩
  case fail => exact fun s => ⟨vinFail s, rfl, rfl, rfl, rfl, rfl, rfl, rfl, fun _ => rfl⟩
  case dip =>
    intro s h
    refine ⟨vinDip s, rfl, ?_⟩
    rw [vinDip_powered h]
    exact ⟨rd_bump_self .., fun a ha => rd_bump_ne _ _ _ (List.ne_of_not_mem_cons ha), rfl⟩
  case warn =>
    intro s h hc
    refine ⟨vinWarn s, rfl, ?_⟩
    have hstat : OffReport Reg.PWR_VIN_STAT_WARN.reg := by unfold OffReport; decide
    have hcnt : OffReport (Reg.PWR_CNT 0) := by unfold OffReport; decide
    rw [vinWarn_begins h hc]
    refine ⟨?_, ?_, cause_levelOn, ?_⟩
    · rw [flag, getF, rd_levelOn hstat, rd_bump_ne _ _ _ (by decide)]
      exact flag_setB_self _ _ _ (by decide) rfl
    · rw [rd_levelOn hcnt, rd_bump_self, rd_setB_ne _ _ _ _ (by decide)]
    · simp only [levelOn_top, bump_top, setB_top]
  case clear =>
    intro s h
    refine ⟨vinWarnClear s, rfl, ?_⟩
    rw [vinWarnClear_clears h]
    exact ⟨flag_setB_self _ _ _ (by decide) rfl, cause_levelOff, fun a ha => rd_setB_ne _ _ _ _ (List.ne_of_not_mem_cons ha)⟩
  case low =>
    intro s hoff hreset
    refine ⟨resetLLow s, rfl, ?_⟩
    rw [resetLLow_enters hoff hreset]
    exact ⟨rfl, rfl, rfl, fun a hs hb ht => rd_resetEnter _ _ hs hb ht⟩
  case exit =>
    intro s hreset htrip hrail hlc tm mv rcal
    obtain ⟨htop, htick, hpwr⟩ : (resetExit tm mv rcal s).top = _ ∧ (resetExit tm mv rcal s).tick = _ ∧ (resetExit tm mv rcal s).pwr = _ := by
      simpa only [State.startPart, Prod.mk.injEq] using resetExit_startPart hreset htrip hrail hlc tm mv rcal
    refine ⟨resetExit tm mv rcal s, rfl, htop, htick, ?_⟩
    rw [hpwr]
    exact ⟨rfl, rfl, rfl, rfl⟩
  case trip => exact fun s htrip hcool => ⟨tripRecover s, rfl, by simp [tripRecover, htrip, hcool]⟩
  case order => exact fun s => ⟨_, _, rfl, rfl, resetLLow_top_of_off (vinFail_top s), _, _, rfl, rfl, vinFail_top _⟩
  case elsewhere =>
    exact fun s n h => ⟨⟨_, rfl, verifyComplete_elsewhere h⟩, ⟨_, rfl, configRecord_elsewhere h⟩, ⟨_, rfl, applyComplete_elsewhere h n⟩,
      ⟨_, rfl, bringupComplete_elsewhere h⟩, ⟨_, rfl, rootPllLockTimeout_elsewhere h⟩⟩

end Sys2Proof.Machine

/-! Finding the NVM, loading and verifying images (O32). -/

namespace Sys2Proof.Machine

/-! ## Entering HOLD (R374) -/

section
variable (s : State) (reason image slot detail status : Nat)

/-- The registers that the entry into HOLD writes. -/
def holdRegs : State :=
  let s1 := setF (setF (setF (setF s Reg.BOOT_HOLD_STAT_REASON reason) Reg.BOOT_HOLD_STAT_IMAGE image) Reg.BOOT_HOLD_STAT_SLOT slot) Reg.BOOT_HOLD_STAT_STATUS status
  wr s1 Reg.BOOT_HOLD_DETAIL (Word.ofNat detail)

/-- One entered in APPLY leaves the seal set (R29, R378). -/
def holdSealed : State :=
  let u := holdRegs s reason image slot detail status
  if s.top = .apply then { u with boot := { u.boot with sealed := true } } else u

theorem enterHold_eq :
    enterHold s reason image slot detail status =
      levelOn (if s.top = .hold then holdSealed s reason image slot detail status else enterTop (holdSealed s reason image slot detail status) .hold)
        Src.bootHold (locSlice 0 63) 0 := rfl

theorem holdSealed_regs : (holdSealed s reason image slot detail status).regs = (holdRegs s reason image slot detail status).regs := by
  unfold holdSealed
  split <;> rfl

theorem holdSealed_top : (holdSealed s reason image slot detail status).top = s.top := by
  have hu : (holdRegs s reason image slot detail status).top = s.top := by simp only [holdRegs, wr_top, setF_top]
  simp only [holdSealed, apply_ite State.top, hu, ite_self]

theorem holdSealed_boot : (holdSealed s reason image slot detail status).boot = if s.top = .apply then { s.boot with sealed := true } else s.boot := by
  have hu : (holdRegs s reason image slot detail status).boot = s.boot := by simp only [holdRegs, wr_boot, setF_boot]
  simp only [holdSealed, apply_ite State.boot, hu]

theorem enterHold_top : (enterHold s reason image slot detail status).top = .hold := by
  rw [enterHold_eq, levelOn_top]
  split
  case isTrue h => exact (holdSealed_top ..).trans h
  case isFalse => rfl

theorem enterHold_boot :
    (enterHold s reason image slot detail status).boot = if s.top = .apply then { s.boot with sealed := true } else s.boot := by
  rw [enterHold_eq, levelOn_boot, apply_ite State.boot, enterTop_boot, ite_self, holdSealed_boot]

theorem rd_enterHold {a : Nat} (h : OffReport a) : rd (enterHold s reason image slot detail status) a = rd (holdRegs s reason image slot detail status) a := by
  rw [enterHold_eq, rd_levelOn h]
  refine Eq.trans ?_ (rd_congr (holdSealed_regs ..) a)
  split
  · rfl
  · exact rd_enterTop _

theorem getF_enterHold_reason : getF (enterHold s reason image slot detail status) Reg.BOOT_HOLD_STAT_REASON = reason % 2 ^ 8 := by
  have hoff : OffReport Reg.BOOT_HOLD_STAT_REASON.reg := by unfold OffReport; decide
  rw [getF, rd_enterHold _ _ _ _ _ _ hoff, ← getF, holdRegs, getF_wr_ne _ _ _ _ (by decide)]
  simp (disch := decide) only [getF_setF_beside]
  exact getF_setF_self _ _ _ (by decide)

theorem getF_enterHold_image : getF (enterHold s reason image slot detail status) Reg.BOOT_HOLD_STAT_IMAGE = image % 2 ^ 2 := by
  have hoff : OffReport Reg.BOOT_HOLD_STAT_IMAGE.reg := by unfold OffReport; decide
  rw [getF, rd_enterHold _ _ _ _ _ _ hoff, ← getF, holdRegs, getF_wr_ne _ _ _ _ (by decide)]
  simp (disch := decide) only [getF_setF_beside]
  exact getF_setF_self _ _ _ (by decide)

theorem rd_enterHold_detail : rd (enterHold s reason image slot detail status) Reg.BOOT_HOLD_DETAIL = Word.ofNat detail := by
  have hoff : OffReport Reg.BOOT_HOLD_DETAIL := by unfold OffReport; decide
  rw [rd_enterHold _ _ _ _ _ _ hoff, holdRegs, rd_wr_self]

end

/-- What settle leaves of a register of the start-up block. -/
theorem getF_settle (s t : State) {f : Fld} (h : OffSettle f.reg) : getF (settle s t) f = getF t f := by rw [getF, rd_settle h, ← getF]

/-! ## A state that has settled in HOLD -/

section
variable (s u : State) (reason image slot detail status : Nat)

theorem settled_hold_top : (settle s (enterHold u reason image slot detail status)).top = .hold := (settle_top ..).trans (enterHold_top ..)

theorem settled_hold_reason : getF (settle s (enterHold u reason image slot detail status)) Reg.BOOT_HOLD_STAT_REASON = reason % 2 ^ 8 :=
  (getF_settle s _ (by unfold OffSettle; decide)).trans (getF_enterHold_reason ..)

theorem settled_hold_image : getF (settle s (enterHold u reason image slot detail status)) Reg.BOOT_HOLD_STAT_IMAGE = image % 2 ^ 2 :=
  (getF_settle s _ (by unfold OffSettle; decide)).trans (getF_enterHold_image ..)

theorem settled_hold_detail : rd (settle s (enterHold u reason image slot detail status)) Reg.BOOT_HOLD_DETAIL = Word.ofNat detail :=
  (rd_settle (by unfold OffSettle; decide)).trans (rd_enterHold_detail ..)

theorem settled_hold_boot {u : State} (h : u.top ≠ .apply) : (settle s (enterHold u reason image slot detail status)).boot = u.boot := by
  rw [settle_boot, enterHold_boot, if_neg h]

theorem settled_hold_boot_apply {u : State} (h : u.top = .apply) :
    (settle s (enterHold u reason image slot detail status)).boot = { u.boot with sealed := true } := by
  rw [settle_boot, enterHold_boot, if_pos h]

end

/-! ## The identification of the NVM (R360) -/

section
variable {s : State} (hload : s.boot.loading = true) (htop : s.top = .load)
include hload htop

theorem nvmIdAttempt_valid (hup : s.boot.nvmUp = false) (hdir : s.boot.dir = none) (o : Bool) :
    nvmIdAttempt true o s =
      { setB { s with boot := { s.boot with nvmUp := true } } Reg.BOOT_NVM_STAT_OCTAL o with
        boot := { s.boot with nvmUp := true, read := some { what := 0 }, dirRes := [] } } := by
  simp [nvmIdAttempt, hload, hup, htop, hdir]

theorem nvmIdAttempt_third (hup : s.boot.nvmUp = false) (htries : s.boot.idTries = 2) (o : Bool) : nvmIdAttempt false o s = loadHold s 1 0 0 0 := by
  simp [nvmIdAttempt, hload, hup, htop, htries]

/-! ## Reading the directory and the images (R361 to R365, R370) -/

theorem imageBlockRead_dir {r : Reading} (hr : s.boot.read = some r) (hwhat : r.what ≤ 1) (b : Bytes) : imageBlockRead b s = dirRead s r b := by
  simp [imageBlockRead, hload, htop, hr, hwhat]

theorem imageBlockRead_image {r : Reading} (hr : s.boot.read = some r) (hwhat : r.what = 2 ∨ r.what = 3) (b : Bytes) : imageBlockRead b s = imageRead s r b := by
  have hgt : ¬r.what ≤ 1 := by omega
  have hle : r.what ≤ 3 := by omega
  simp [imageBlockRead, hload, htop, hr, hgt, hle]

end

theorem dirRead_again {s : State} {r : Reading} {b : Bytes} (hcrc : dirCrcOk b = false) (hfails : r.fails < 2) :
    dirRead s r b = { s with boot := { s.boot with read := some { r with fails := r.fails + 1 } } } := by
  have hfew : ¬2 ≤ r.fails := by omega
  simp [dirRead, hcrc, readFailed, hfew]

section
variable {s : State} {r : Reading} {b : Bytes} (hitem : 0 < r.item) (hcount : r.item ≤ s.boot.part.blockCount)
include hitem hcount

theorem imageRead_third (hbad : blockOk (r.item - 1) b = false) (hfails : r.fails = 2) :
    imageRead s r b = loadHold s 3 (r.what - 1) s.boot.part.slot (r.item - 1) := by
  have hne : r.item ≠ 0 := by omega
  simp [imageRead, hne, hcount, hbad, readFailed, hfails]

theorem imageRead_good (hok : blockOk (r.item - 1) b = true) (hfails : r.fails = 0) :
    imageRead s r b =
      { s with boot := { s.boot with part := { s.boot.part with blocks := s.boot.part.blocks ++ [b] }, read := some { what := r.what, item := r.item + 1 } } } := by
  have hne : r.item ≠ 0 := by omega
  simp [imageRead, hne, hcount, hok, readAccepted, hfails]

end

/-! ## The end of loading (R32, R376) -/

section
variable {s : State} (hload : s.boot.loading = true) (hread : s.boot.read = some { what := 4 })
include hload hread

theorem loadComplete_load (htop : s.top = .load) :
    loadComplete s = enterTop { s with boot := { s.boot with loading := false, read := none, verified := false } } .verify := by
  simp [loadComplete, hload, hread, htop, enterVerify]

theorem loadComplete_hold (htop : s.top = .hold) :
    loadComplete s = leaveHold { s with boot := { s.boot with loading := false, read := none, verified := false } } .verify := by
  simp [loadComplete, hload, hread, htop, enterVerify]

end

/-! ## VERIFY (R371, R377) -/

theorem showVersions_boot (s : State) (fw cfg : Image) : (showVersions s fw cfg).boot = s.boot := by
  unfold showVersions
  simp only [setB_boot, boot_of_offReport (wrWords_offReport ..)]

section
variable {s : State} {fw cfg : Image} (htop : s.top = .verify) (hfw : s.boot.fw = some fw) (hcfg : s.boot.cfg = some cfg)
include htop hfw hcfg

theorem verifyComplete_fails (hver : s.boot.verified = false) (hbad : imageFault s.otp fw 1 ≠ 0) :
    verifyComplete s = settle s (enterHold s (imageFault s.otp fw 1) (holdImage fw 1) (holdSlot fw) 0 0) := by
  simp [verifyComplete, htop, hver, hfw, hcfg, hbad]

theorem verifyComplete_passes (hver : s.boot.verified = false) (ha : imageFault s.otp fw 1 = 0) (hb : imageFault s.otp cfg 2 = 0) (hprog : s.boot.toProgram = none) :
    verifyComplete s = enterApply (showVersions s fw cfg) fw cfg := by
  simp [verifyComplete, htop, hver, hfw, hcfg, ha, hb, showVersions_boot, hprog]

theorem pushSlotProgram_noDir (hver : s.boot.verified = true) (hblock : programsBlocked s = false) {typ slot : Nat} (hprog : s.boot.toProgram = some (typ, slot))
    (hdir : s.boot.dir = none) : pushSlotProgram true s = enterApply (setB s Reg.BOOT_PUSH_STAT_PROG_FAIL true) fw cfg := by
  simp [pushSlotProgram, htop, hver, hblock, hprog, hfw, hcfg, hdir]

end

theorem holdImage_lt (x : Image) {typ : Nat} (h : typ < 4) : holdImage x typ < 4 := by
  unfold holdImage
  split <;> omega

/-! ## The statement -/

/-- Settles O32: each answer of the NVM and each end of a check, by the state that it leads to. -/
theorem loadAndVerify : Obligations.LoadAndVerify := by
  unfold Obligations.LoadAndVerify
  refine ⟨?found, ?notFound, ?dirAgain, ?blockBad, ?blockGood, ?loaded, ?loadedHold, ?fails, ?passes, ?noProgram⟩
  case found =>
    intro s o hload hup htop hdir
    refine ⟨nvmIdAttempt true o s, rfl, ?_⟩
    rw [nvmIdAttempt_valid hload htop hup hdir]
    exact ⟨flag_setB_self _ Reg.BOOT_NVM_STAT_OCTAL _ (by decide) rfl, rfl, htop⟩
  case notFound =>
    intro s o hload hup htop htries
    have hne : s.top ≠ .apply := by simp [htop]
    refine ⟨nvmIdAttempt false o s, rfl, ?_⟩
    rw [nvmIdAttempt_third hload htop hup htries, loadHold]
    refine ⟨settled_hold_top .., settled_hold_reason .., ?_⟩
    rw [settled_hold_boot]
    exact hne
  case dirAgain =>
    intro s r b hload htop hr hwhat hcrc hfails
    exact ⟨imageBlockRead b s, rfl, (imageBlockRead_dir hload htop hr hwhat b).trans (dirRead_again hcrc hfails)⟩
  case blockBad =>
    intro s r b hload htop hr hwhat hitem hcount hbad hfails
    refine ⟨imageBlockRead b s, rfl, ?_⟩
    rw [imageBlockRead_image hload htop hr hwhat, imageRead_third hitem hcount hbad hfails, loadHold]
    refine ⟨settled_hold_top .., settled_hold_reason .., (settled_hold_image ..).trans (Nat.mod_eq_of_lt ?_), settled_hold_detail ..⟩
    omega
  case blockGood =>
    intro s r b hload htop hr hwhat hitem hcount hok hfails
    refine ⟨imageBlockRead b s, rfl, ?_⟩
    rw [imageBlockRead_image hload htop hr hwhat, imageRead_good hitem hcount hok hfails]
    exact ⟨rfl, rfl, rfl⟩
  case loaded =>
    intro s hload hread htop
    refine ⟨loadComplete s, rfl, ?_⟩
    rw [loadComplete_load hload hread htop]
    exact ⟨rfl, rfl, rfl, rfl⟩
  case loadedHold =>
    intro s hload hread htop
    refine ⟨loadComplete s, rfl, ?_⟩
    rw [loadComplete_hold hload hread htop]
    exact ⟨rfl, cause_levelOff⟩
  case fails =>
    intro s fw cfg htop hver hfw hcfg hbad hlt
    have hne : s.top ≠ .apply := by simp [htop]
    refine ⟨verifyComplete s, rfl, ?_⟩
    rw [verifyComplete_fails htop hfw hcfg hver hbad]
    exact ⟨settled_hold_top .., (settled_hold_reason ..).trans (Nat.mod_eq_of_lt hlt),
      (settled_hold_image ..).trans (Nat.mod_eq_of_lt (holdImage_lt fw (by omega))), settled_hold_boot _ _ _ _ _ _ hne⟩
  case passes =>
    exact fun s fw cfg htop hver hfw hcfg ha hb hprog => ⟨verifyComplete s, rfl, verifyComplete_passes htop hfw hcfg hver ha hb hprog⟩
  case noProgram =>
    exact fun s fw cfg typ slot htop hver hblock hfw hcfg hprog hdir =>
      ⟨pushSlotProgram true s, rfl, pushSlotProgram_noDir htop hfw hcfg hver hblock hprog hdir⟩

end Sys2Proof.Machine

/-! Applying records, sealing, leaving BRINGUP, and REREAD (O33). -/

namespace Sys2Proof.Machine

/-! ## The pools leave the top-level state and the start-up alone -/

/-- The top-level state and what start-up holds. -/
def State.bootPart (s : State) : TopState × BootSt := (s.top, s.boot)

section
variable (s : State)

theorem bootPart_of_offReport {s t : State} (h : t.offReport = s.offReport) : t.bootPart = s.bootPart := by
  simp only [State.bootPart, top_of_offReport h, boot_of_offReport h]

theorem bootPart_of_offHost {s t : State} (h : t.offHost = s.offHost) : t.bootPart = s.bootPart := by
  simp only [State.bootPart, top_of_offHost h, boot_of_offHost h]

theorem wr_bootPart (a : Nat) (w : Word) : (wr s a w).bootPart = s.bootPart := (rfl)

theorem setF_bootPart (f : Fld) (n : Nat) : (setF s f n).bootPart = s.bootPart := (rfl)

theorem setB_bootPart (f : Fld) (b : Bool) : (setB s f b).bootPart = s.bootPart := (rfl)

theorem markCross_bootPart (m : Mark) : (markCross s m).bootPart = s.bootPart := by
  unfold markCross
  extract_lets s1 s2 body
  have h1 : s1.bootPart = s.bootPart := setF_bootPart ..
  have h2 : s2.bootPart = s.bootPart := by simp only [s2, wr_bootPart, setB_bootPart, h1]
  clear_value s1 s2
  split
  · exact h1
  · split
    · exact (bootPart_of_offHost (hostEvent_offHost ..)).trans h2
    · exact (bootPart_of_offHost (bump_offHost ..)).trans h2

theorem markFollow_bootPart (m : Mark) (lvl : Bool) (val : Nat) : (markFollow s m lvl val).bootPart = s.bootPart := by
  unfold markFollow
  extract_lets was s1 s2
  have h2 : s2.bootPart = s.bootPart := by
    simp only [s2, s1]
    split
    · rw [wr_bootPart, setB_bootPart]
    · exact setB_bootPart ..
  clear_value s2
  split
  · rw [markCross_bootPart, h2]
  · exact h2

theorem setThreshold_bootPart (r k w : Nat) : (setThreshold s r k w).bootPart = s.bootPart := (rfl)

theorem levelIs_bootPart (b : Bool) (src loc d : Nat) : (levelIs b s src loc d).bootPart = s.bootPart := bootPart_of_offReport (levelIs_offReport ..)

theorem poolFollow_bootPart (r k : Nat) : (poolFollow s r k).bootPart = s.bootPart := by
  simp only [poolFollow, levelIs_bootPart, markFollow_bootPart, setThreshold_bootPart]

theorem dramPools_bootPart : (dramPools s).bootPart = s.bootPart := foldl_same State.bootPart _ (fun _ _ => poolFollow_bootPart ..) _ s

theorem wearShow_bootPart : (wearShow s).bootPart = s.bootPart := levelIs_bootPart ..

end

/-! ## CONFIG_RECORD (R366 to R369) -/

section
variable {s : State} {cfg : Image} (htop : s.top = .apply) (hend : s.boot.endSeen = false) (hcfg : s.boot.cfg = some cfg)
include htop hend hcfg

theorem configRecord_applies (h : (recStep cfg.payload s).fail = none) : configRecord s = (recStep cfg.payload s).s := by
  simp [configRecord, hcfg, htop, hend, h]

theorem configRecord_fails {reason st : Nat} (h : (recStep cfg.payload s).fail = some (reason, st)) :
    configRecord s = settle s (enterHold (recStep cfg.payload s).s reason (holdImage cfg 2) (holdSlot cfg)
      (if s.boot.recAt + 12 ≤ cfg.payload.length then leAt cfg.payload (s.boot.recAt + 8) 4 else s.boot.recNum) st) := by
  simp [configRecord, hcfg, htop, hend, h]

end

/-! ## The seal (R378) -/

section
variable {s : State} {fw cfg : Image} (htop : s.top = .apply) (hend : s.boot.endSeen = true) (hfw : s.boot.fw = some fw) (hcfg : s.boot.cfg = some cfg)
include htop hend hfw hcfg

theorem applyComplete_stands (h : applyStands s = true) (n : Nat) : applyComplete n s = sealUp s fw cfg n := by
  simp [applyComplete, hfw, hcfg, htop, hend, h]

theorem applyComplete_falls (h : applyStands s = false) (n : Nat) :
    applyComplete n s = settle s (enterHold s 13 (holdImage cfg 2) (holdSlot cfg) (s.boot.recNum - 1) 0) := by
  simp [applyComplete, hfw, hcfg, htop, hend, h]

end

/-- The seal is set as BRINGUP is entered, whatever the steps before it did. -/
theorem sealUp_bootPart (s : State) (fw cfg : Image) (n : Nat) : (sealUp s fw cfg n).top = .bringup ∧ (sealUp s fw cfg n).boot.sealed = true := by
  unfold sealUp
  extract_lets s1 s2 s3 s4 _ q _ s5 s6
  have hsealed : s6.boot.sealed = true := by
    simp only [s6, setB_boot]
    rfl
  clear_value s6
  have hpart : (dramPools (wearShow (enterTop (pllStart s6 ((List.range 25).filter (· != 4))) .bringup))).bootPart = (.bringup, s6.boot) := by
    rw [dramPools_bootPart, wearShow_bootPart]
    rfl
  obtain ⟨htop, hboot⟩ := Prod.mk.inj hpart
  rw [settle_top, settle_boot, htop, hboot]
  exact ⟨rfl, hsealed⟩

/-! ## Leaving BRINGUP (R32, R389) -/

theorem bringupComplete_runs {s : State} (htop : s.top = .bringup) (htap : tapDrives s = false) (hpll : s.clk.starting = []) (htrial : s.upd.restartTrial = false) :
    bringupComplete s = settle s (levelIs (!flag s Reg.HIF_LINK_STAT_UP) (setF (enterTop s .run) Reg.UPD_STAT_STATE 0) Src.linkDown aonLoc 0) := by
  simp [bringupComplete, htop, htap, hpll, htrial]

theorem bringupComplete_tap {s : State} (htap : tapDrives s = true) : bringupComplete s = s := by
  simp [bringupComplete, htap]

/-! ## REREAD (R375) -/

/-- The state in which a re-read begins, before the loader starts. -/
def rereadCleared (v : Nat) (s : State) : State :=
  let s1 := unsealAll (writeRw s Reg.BOOT_HOLD_CTL v 0xE)
  setB { s1 with boot := { s1.boot with fw := none, cfg := none, dir := none, push := none, toProgram := none, part := {} } } Reg.BOOT_PUSH_STAT_BUSY false

theorem reread_hold {s : State} (h : s.top = .hold) (v : Nat) : reread v s = settle s (loadBegin (leaveHold (wearShow (rereadCleared v s)) .load)) := by
  have hgo : (s.top != .hold) = false := by simp [h]
  rw [reread, hgo, if_neg Bool.false_ne_true]
  rfl

theorem reread_elsewhere {s : State} (h : s.top = .run) (v : Nat) : reread v s = pwfTarget s Reg.BOOT_HOLD_CTL v := by
  simp [reread, powered, h]

theorem unsealAll_boot (s : State) : (unsealAll s).boot = { s.boot with sealed := false, up := false } :=
  congrArg Prod.snd (wearShow_bootPart _)

/-- Nothing of the images is left as a re-read begins. -/
theorem rereadCleared_boot (v : Nat) (s : State) :
    (rereadCleared v s).boot = { s.boot with sealed := false, up := false, fw := none, cfg := none, dir := none, push := none, toProgram := none, part := {} } := by
  simp only [rereadCleared, setB_boot, unsealAll_boot, writeRw, wr_boot]

theorem reread_boot {s : State} (h : s.top = .hold) (v : Nat) :
    (reread v s).boot = { (rereadCleared v s).boot with loading := true, read := none, idTries := 0, nvmUp := false } := by
  rw [reread_hold h, settle_boot]
  generalize rereadCleared v s = u
  have hu : (leaveHold (wearShow u) .load).boot = u.boot := congrArg Prod.snd (wearShow_bootPart u)
  rw [loadBegin, hu]

/-- A SEALED register outside what reports touch is at its reset value when the seal is off. -/
theorem rd_unsealAll_sealed (s : State) {a : Nat} (hoff : OffReport a) (h : (sealedBits a).isSome = true) : rd (unsealAll s) a = regReset a := by
  unfold unsealAll
  extract_lets regs tree _ t
  unfold wearShow
  rw [rd_levelIs hoff, rd_of_filter (s := s) (p := fun a => (sealedBits a).isNone && !imageReg a) rfl]
  have hkeep : ((sealedBits a).isNone && !imageReg a) = false := by rw [Option.isNone_eq_false_iff.mpr h, Bool.false_and]
  simp [hkeep]

theorem rd_reread_sealed {s : State} (h : s.top = .hold) (v : Nat) {a : Nat} (hoff : OffSettle a) (hs : (sealedBits a).isSome = true) :
    rd (reread v s) a = regReset a := by
  have hne : a ≠ Reg.BOOT_PUSH_STAT_BUSY.reg := by
    rintro rfl
    exact absurd hs (by decide +kernel)
  have hcleared : rd (rereadCleared v s) a = regReset a := by
    unfold rereadCleared
    rw [rd_setB_ne _ _ _ _ hne]
    exact rd_unsealAll_sealed _ hoff.offReport hs
  rw [reread_hold h, rd_settle hoff]
  generalize rereadCleared v s = u at hcleared
  have hload : ∀ w : State, rd (loadBegin w) a = rd w a := fun w => rd_congr rfl a
  rw [hload, leaveHold, rd_enterTop, rd_levelOff, wearShow, rd_levelIs hoff.offReport, hcleared]

/-! ## The statement -/

/-- Settles O33: each step of APPLY and BRINGUP and the re-read, by the state that it leads to. -/
theorem applyBringupAndReread : Obligations.ApplyBringupAndReread := by
  unfold Obligations.ApplyBringupAndReread
  refine ⟨?record, ?recordFails, ?stands, ?falls, ?runs, ?tap, ?reread, ?refused⟩
  case record => exact fun s cfg htop hend hcfg h => ⟨configRecord s, rfl, configRecord_applies htop hend hcfg h⟩
  case recordFails => exact fun s cfg reason st htop hend hcfg h => ⟨configRecord s, rfl, configRecord_fails htop hend hcfg h⟩
  case stands =>
    intro s fw cfg n htop hend hfw hcfg h
    exact ⟨applyComplete n s, rfl, by rw [applyComplete_stands htop hend hfw hcfg h]; exact sealUp_bootPart s fw cfg n⟩
  case falls =>
    intro s fw cfg n htop hend hfw hcfg h
    refine ⟨applyComplete n s, rfl, ?_⟩
    rw [applyComplete_falls htop hend hfw hcfg h]
    exact ⟨settled_hold_top .., settled_hold_reason .., settled_hold_detail .., settled_hold_boot_apply _ _ _ _ _ _ htop⟩
  case runs =>
    intro s htop htap hpll htrial
    have hoff : OffSettle Reg.UPD_STAT_STATE.reg := by unfold OffSettle; decide
    refine ⟨bringupComplete s, rfl, ?_⟩
    rw [bringupComplete_runs htop htap hpll htrial]
    refine ⟨?_, ?_, ?_⟩
    · simp only [settle_top, levelIs_top, setF_top]
      rfl
    · rw [getF_settle _ _ hoff, getF, rd_levelIs hoff.offReport]
      exact getF_setF_self _ Reg.UPD_STAT_STATE 0 (by decide)
    · simp only [settle_stateTick, levelIs_stateTick, setF_stateTick]
      rfl
  case tap => exact fun s htop htap => ⟨bringupComplete s, rfl, bringupComplete_tap htap⟩
  case reread =>
    intro s v htop
    refine ⟨reread v s, rfl, ?_, ?_⟩
    · rw [reread_hold htop, settle_top]
      rfl
    · rw [reread_boot htop, rereadCleared_boot]
      exact ⟨rfl, rfl, rfl, rfl, fun a hoff hs => rd_reread_sealed htop v hoff hs⟩
  case refused => exact fun s v htop => ⟨reread v s, rfl, reread_elsewhere htop v⟩

end Sys2Proof.Machine

/-! Stair transfers, egress passes, staging and watermarks (O59). -/

namespace Sys2Proof.Machine

/-! ## Transfers across the Stair (R14, R598) -/

/-- The counts of a transfer that passes after `n` retries: counter `c` of the retries, and event `e` of the Stair's performance group. -/
def stairCounted (s : State) (c n e : Nat) : State := perf (perfAdd (perfAdd (bumpN s (Reg.DEV_CNT c) n) 84 2 n) 84 3 (b2n false)) 84 e

section
variable (s : State) (c n e : Nat)

theorem stairCounted_qd : (stairCounted s c n e).qd = s.qd := by simp only [stairCounted, perf_qd, perfAdd_qd, bumpN_qd]

theorem stairCounted_regs : (stairCounted s c n e).regs = (bumpN s (Reg.DEV_CNT c) n).regs := by simp only [stairCounted, perf_regs, perfAdd_regs]

theorem rd_stairCounted_self (h : n ≠ 0) : rd (stairCounted s c n e) (Reg.DEV_CNT c) = countWord (rd s (Reg.DEV_CNT c)) n :=
  (rd_congr (stairCounted_regs ..) _).trans (rd_bumpN_self s _ n h)

theorem regsBut_stairCounted : RegsBut [Reg.DEV_CNT c] s (stairCounted s c n e) := fun a ha =>
  (rd_congr (stairCounted_regs ..) a).trans (rd_bumpN_ne s _ a n (List.ne_of_not_mem_cons ha))

end

theorem stairTransfer_up {s : State} {lane : Fin 52} {a : Arrival} {r : List Arrival} (h : mget [] s.qd.stairUp lane.val = a :: r) (k : Fin 5) :
    stairTransfer true lane k true s = stairUpMove (stairCounted s 0 k.val 0) lane a r true := by
  simp only [stairTransfer, h]
  rfl

theorem stairTransfer_down {s : State} {lane : Fin 52} {f : EgFrame} {r : List EgFrame} (h : mget [] s.qd.stairDown lane.val = f :: r) (k : Fin 5) :
    stairTransfer false lane k true s = stairDownMove (stairCounted s 1 k.val 1) lane f r true := by
  simp only [stairTransfer, h]
  rfl

section
variable (u : State) (lane : Nat)

theorem stairUpMove_queues (a : Arrival) (r : List Arrival) :
    mget [] (stairUpMove u lane a r true).qd.stairUp lane = r ∧ mget [] (stairUpMove u lane a r true).qd.arrivals lane = mget [] u.qd.arrivals lane ++ [a] :=
  ⟨mget_mput_self .., mget_mput_self ..⟩

theorem stairUpMove_regs (a : Arrival) (r : List Arrival) : (stairUpMove u lane a r true).regs = u.regs := rfl

theorem stairDownMove_egress {lane : Nat} (h : lane ≠ 20) (f : EgFrame) (r : List EgFrame) :
    stairDownMove u lane f r true =
      { u with qd := { u.qd with stairDown := mput [] u.qd.stairDown lane r, egress := mput [] u.qd.egress lane (mget [] u.qd.egress lane ++ [f]) } } := by
  simp [stairDownMove, h]

end

/-! ## Queues whose head is taken (R176, R191) -/

theorem egressPass_takes {s : State} {n : Fin 20} {f : EgFrame} {r : List EgFrame} (h : mget [] s.qd.egress n.val = f :: r) :
    egressPass n s = egressFrame { s with qd := { s.qd with egress := mput [] s.qd.egress n.val r } } n f := by
  simp only [egressPass, h]

theorem bufferArrival_takes {s : State} {lane : Fin 52} {a : Arrival} {r : List Arrival} (h : mget [] s.qd.arrivals lane.val = a :: r) :
    bufferArrival lane s = arrive { s with qd := { s.qd with arrivals := mput [] s.qd.arrivals lane.val r } } (lane.val % 32) a := by
  simp only [bufferArrival, h]

/-! ## Staged frames (R253, R254) -/

section
variable {s : State} {p : Fin 160} {k : Fin 8} {f : EgFrame} {r : List EgFrame} (h : staged s p k = f :: r)
include h

theorem stagedFrameStart_head (hmac : macRefuses s p = none) : stagedFrameStart p k s = if mayStart s p k f then macSend (stageRest s p k r) p f else s := by
  simp only [stagedFrameStart, h, hmac]

theorem gateNofit_drops (hen : getF s (Reg.SCH_GATE_CTL_EN p) = 1) {l : GList} (hl : gateListAt s p s.ptp.total = some l) (hmay : mayStart s p k f = false) :
    gateNofit p k s = bump (stageRest s p k r) (Reg.SCH_CNT 8) := by
  simp [gateNofit, h, flag, hen, hl, hmay]

end

theorem staged_stageRest (s : State) (p k : Nat) (r : List EgFrame) : staged (stageRest s p k r) p k = r := mget_mput_self ..

theorem stageRest_regs (s : State) (p k : Nat) (r : List EgFrame) : (stageRest s p k r).regs = s.regs := rfl

/-! ## Cleared watermarks (R223) -/

section
variable (s : State) (m : Mark)

/-- What a clear of CROSSED leaves. -/
def markCleared : State := wr (wr (setF (setB s m.crossed false) m.count 0) m.timeLo 0) m.timeHi 0

variable {s m} (hlo : m.stat ≠ m.timeLo) (hhi : m.stat ≠ m.timeHi)
include hlo hhi

theorem getF_markCleared {f : Fld} (hf : f.reg = m.stat) : getF (markCleared s m) f = getF (setF (setB s m.crossed false) m.count 0) f := by
  rw [markCleared, getF_wr_ne _ _ _ _ (hf ▸ hhi), getF_wr_ne _ _ _ _ (hf ▸ hlo)]

theorem getF_markCleared_crossed : getF (markCleared s m) m.crossed = 0 := by
  rw [getF_markCleared hlo hhi rfl, getF_setF_beside _ _ _ _ (by show 1 + 1 ≤ 32; omega) (.inl (by show 1 + 1 ≤ 16; omega))]
  exact getF_setF_self _ _ _ (by show 1 + 1 ≤ 32; omega)

theorem getF_markCleared_count : getF (markCleared s m) m.count = 0 := by
  rw [getF_markCleared hlo hhi rfl, getF_setF_self _ _ _ (by show 16 + 16 ≤ 32; omega), Nat.zero_mod]

theorem getF_markCleared_level : getF (markCleared s m) m.level = getF s m.level := by
  rw [getF_markCleared hlo hhi rfl, getF_setF_beside _ _ _ _ (by show 0 + 1 ≤ 32; omega) (.inl (by show 0 + 1 ≤ 16; omega))]
  exact getF_setF_beside _ _ _ _ (by show 0 + 1 ≤ 32; omega) (.inl (by show 0 + 1 ≤ 1; omega))

omit hlo hhi in
theorem regsBut_markCleared : RegsBut [m.stat, m.timeLo, m.timeHi] s (markCleared s m) := by
  intro a ha
  obtain ⟨hs, hl, hh⟩ : a ≠ m.stat ∧ a ≠ m.timeLo ∧ a ≠ m.timeHi := by simpa using ha
  rw [markCleared, rd_wr_ne _ _ hh, rd_wr_ne _ _ hl, rd_setF_ne _ _ _ _ hs, rd_setB_ne _ _ _ _ hs]

end

theorem wmCrossedClear_pool {s : State} (hup : powered s = true) {r k : Nat} (hr : r < 2) (hk : k < 8) :
    wmCrossedClear false (8 * r + k) s = markCleared s (poolMark r k) := by
  have hrow : (8 * r + k) / 8 % 2 = r := by omega
  have hcol : (8 * r + k) % 8 = k := by omega
  simp [wmCrossedClear, hup, hrow, hcol, markCleared]

/-! ## Written monitors (R223) -/

/-- The registers of a monitor that is written: its items at 0, and its setting. -/
def monitorWritten (s : State) (m v : Nat) : State :=
  let k := queueMark m
  wr (wr (wr (wr (wr s k.stat 0) k.peak 0) k.timeLo 0) k.timeHi 0) (Reg.CGM_QWM_CFG m) (Word.ofNat (v % 2 ^ 20 + bits v 31 1 * 2 ^ 31))

section
variable (s : State) (m : Nat) {v : Nat}

theorem getF_monitorWritten {f : Fld} (hf : f.reg = Reg.CGM_QWM_CFG m) (hlen : f.lo + f.len ≤ 32) :
    getF (monitorWritten s m v) f = bits (v % 2 ^ 20 + bits v 31 1 * 2 ^ 31) f.lo f.len := by
  rw [monitorWritten, ← hf, getF_wr_self, fget, bits_word _ _ _ hlen]

theorem getF_monitorWritten_en (h : bit v 31 = false) : getF (monitorWritten s m v) (Reg.CGM_QWM_CFG_EN m) = 0 := by
  have hbit : v / 2 ^ 31 % 2 = 0 := by simpa [bit] using h
  rw [getF_monitorWritten s m rfl (by show 31 + 1 ≤ 32; omega)]
  simp only [bits, Reg.CGM_QWM_CFG_EN]
  omega

theorem getF_monitorWritten_queue : getF (monitorWritten s m v) (Reg.CGM_QWM_CFG_QUEUE m) = v % 2 ^ 20 := by
  rw [getF_monitorWritten s m rfl (by show 0 + 20 ≤ 32; omega)]
  simp only [bits, Reg.CGM_QWM_CFG_QUEUE]
  omega

theorem rd_monitorWritten_stat : rd (monitorWritten s m v) (Reg.CGM_QWM_STAT m) = 0 := by
  unfold monitorWritten queueMark
  simp only [Reg.CGM_QWM_CFG, Reg.CGM_QWM_STAT, Reg.CGM_QWM_PEAK, Reg.CGM_QWM_TIME_LO, Reg.CGM_QWM_TIME_HI]
  rw [rd_wr_ne _ _ (by omega), rd_wr_ne _ _ (by omega), rd_wr_ne _ _ (by omega), rd_wr_ne _ _ (by omega), rd_wr_self]

theorem rd_monitorWritten_peak : rd (monitorWritten s m v) (Reg.CGM_QWM_PEAK m) = 0 := by
  unfold monitorWritten queueMark
  simp only [Reg.CGM_QWM_CFG, Reg.CGM_QWM_STAT, Reg.CGM_QWM_PEAK, Reg.CGM_QWM_TIME_LO, Reg.CGM_QWM_TIME_HI]
  rw [rd_wr_ne _ _ (by omega), rd_wr_ne _ _ (by omega), rd_wr_ne _ _ (by omega), rd_wr_self]

theorem regsBut_monitorWritten :
    RegsBut [Reg.CGM_QWM_CFG m, Reg.CGM_QWM_STAT m, Reg.CGM_QWM_PEAK m, Reg.CGM_QWM_TIME_LO m, Reg.CGM_QWM_TIME_HI m] s (monitorWritten s m v) := by
  intro a ha
  obtain ⟨hc, hs, hp, hl, hh⟩ : a ≠ Reg.CGM_QWM_CFG m ∧ a ≠ Reg.CGM_QWM_STAT m ∧ a ≠ Reg.CGM_QWM_PEAK m ∧ a ≠ Reg.CGM_QWM_TIME_LO m ∧ a ≠ Reg.CGM_QWM_TIME_HI m := by
    simpa using ha
  calc rd (monitorWritten s m v) a
      = rd (wr (wr (wr (wr s (Reg.CGM_QWM_STAT m) 0) (Reg.CGM_QWM_PEAK m) 0) (Reg.CGM_QWM_TIME_LO m) 0) (Reg.CGM_QWM_TIME_HI m) 0) a := rd_wr_ne _ _ hc
    _ = rd s a := by rw [rd_wr_ne _ _ hh, rd_wr_ne _ _ hl, rd_wr_ne _ _ hp, rd_wr_ne _ _ hs]

end

/-- A monitor that is written with EN 0 starts anew and evaluates nothing. -/
theorem qwmConfig_off {s : State} {v : Nat} (hopen : operOpen s = true) (h : bit v 31 = false) (m : Fin 4096) : qwmConfig m v s = monitorWritten s m v := by
  have hen : flag (monitorWritten s m v) (Reg.CGM_QWM_CFG_EN m) = false := by simp [flag, getF_monitorWritten_en s m h]
  calc qwmConfig m v s
      = if flag (monitorWritten s m v) (Reg.CGM_QWM_CFG_EN m) then monitor (monitorWritten s m v) m else monitorWritten s m v := operWrite_open hopen ..
    _ = monitorWritten s m v := by rw [hen, if_neg Bool.false_ne_true]

/-! ## The statement -/

/-- Settles O59: each command on the head of its queue, or on its watermark. -/
theorem stairEgressStagingMarks : Obligations.StairEgressStagingMarks := by
  unfold Obligations.StairEgressStagingMarks
  refine ⟨?up, ?down, ?egress, ?waits, ?starts, ?nofit, ?arrival, ?clear, ?monitor⟩
  case up =>
    intro s lane k a r h
    refine ⟨stairTransfer true lane k true s, rfl, ?_⟩
    obtain ⟨hup, harr⟩ := stairUpMove_queues (stairCounted s 0 k.val 0) lane a r
    rw [stairCounted_qd] at harr
    have hrd : ∀ b, rd (stairUpMove (stairCounted s 0 k.val 0) lane a r true) b = rd (stairCounted s 0 k.val 0) b := rd_congr (stairUpMove_regs ..)
    rw [stairTransfer_up h]
    exact ⟨hup, harr, fun hk => (hrd _).trans (rd_stairCounted_self s 0 k.val 0 hk), fun b hb => (hrd b).trans (regsBut_stairCounted s 0 k.val 0 b hb)⟩
  case down =>
    intro s lane k f r hlane h
    refine ⟨stairTransfer false lane k true s, rfl, ?_⟩
    rw [stairTransfer_down h, stairDownMove_egress _ (by omega), stairCounted_qd]
    exact ⟨mget_mput_self .., mget_mput_self .., rd_stairCounted_self s 1 k.val 1, regsBut_stairCounted s 1 k.val 1⟩
  case egress => exact fun s n f r h => ⟨egressPass n s, rfl, egressPass_takes h⟩
  case waits => exact fun s p k f r h hmac hmay => ⟨stagedFrameStart p k s, rfl, by rw [stagedFrameStart_head h hmac, hmay, if_neg Bool.false_ne_true]⟩
  case starts => exact fun s p k f r h hmac hmay => ⟨stagedFrameStart p k s, rfl, by rw [stagedFrameStart_head h hmac, hmay, if_pos rfl]⟩
  case nofit =>
    intro s p k f r l h hen hl hmay
    refine ⟨gateNofit p k s, rfl, ?_⟩
    rw [gateNofit_drops h hen hl hmay]
    refine ⟨?_, rd_bump_self .., fun a ha => rd_bump_ne _ _ _ (List.ne_of_not_mem_cons ha)⟩
    rw [staged, bump_qd]
    exact staged_stageRest ..
  case arrival => exact fun s lane a r h => ⟨bufferArrival lane s, rfl, bufferArrival_takes h⟩
  case clear =>
    intro s r k hr hk hup
    have hlo : (poolMark r k).stat ≠ (poolMark r k).timeLo := by simp [poolMark, Reg.CGM_PWM_STAT, Reg.CGM_PWM_TIME_LO]
    have hhi : (poolMark r k).stat ≠ (poolMark r k).timeHi := by simp [poolMark, Reg.CGM_PWM_STAT, Reg.CGM_PWM_TIME_HI]
    refine ⟨wmCrossedClear false (8 * r + k) s, rfl, ?_⟩
    rw [wmCrossedClear_pool hup hr hk]
    exact ⟨getF_markCleared_crossed hlo hhi, getF_markCleared_count hlo hhi, getF_markCleared_level hlo hhi, regsBut_markCleared (m := poolMark r k)⟩
  case monitor =>
    intro s m v hopen h
    refine ⟨qwmConfig m v s, rfl, ?_⟩
    rw [qwmConfig_off hopen h]
    exact ⟨getF_monitorWritten_en s m h, getF_monitorWritten_queue s m, rd_monitorWritten_stat s m, rd_monitorWritten_peak s m, regsBut_monitorWritten s m⟩

end Sys2Proof.Machine

/-! Line lanes, link training, ADMIN, faults and SyncE (O44). -/

namespace Sys2Proof.Machine

/-! ## What a link's follow-up touches (R55, Table 2-17) -/

section
variable {s : State} {p : Nat}

theorem rd_xoffPay (a : Nat) : rd (xoffPay s p) a = rd s a := by
  unfold xoffPay
  split
  · exact rd_sendXoff
  · rfl

theorem rd_linkUpdate_faultShow (a : Nat) : rd (linkUpdate s p) a = rd (faultShow s p) a := rd_xoffPay a

/-- The link's follow-up writes LIN_PORT_STAT alone. -/
theorem rd_linkUpdate_ne {a : Nat} (h : a ≠ Reg.LIN_PORT_STAT p) : rd (linkUpdate s p) a = rd s a := by
  rw [rd_linkUpdate_faultShow]
  unfold faultShow
  dsimp only
  split
  · rfl
  · rw [rd_setB_ne _ _ _ _ h, rd_setB_ne _ _ _ _ h]

/-- A bit of LIN_PORT_STAT above LINK_UP and below LINK_CHANGE. -/
structure LinkBit (p : Nat) (f : Fld) : Prop where
  reg : f.reg = Reg.LIN_PORT_STAT p
  len : f.len = 1
  lo : 3 ≤ f.lo
  hi : f.lo + 1 ≤ 24

theorem linkBit_localFault (p : Nat) : LinkBit p (Reg.LIN_PORT_STAT_LOCAL_FAULT p) := ⟨rfl, rfl, by show 3 ≤ 3; omega, by show 3 + 1 ≤ 24; omega⟩

theorem linkBit_remoteFault (p : Nat) : LinkBit p (Reg.LIN_PORT_STAT_REMOTE_FAULT p) := ⟨rfl, rfl, by show 3 ≤ 4; omega, by show 4 + 1 ≤ 24; omega⟩

theorem linkBit_ltDone (p : Nat) : LinkBit p (Reg.LIN_PORT_STAT_LT_DONE p) := ⟨rfl, rfl, by show 3 ≤ 5; omega, by show 5 + 1 ≤ 24; omega⟩

theorem linkBit_ltFail (p : Nat) : LinkBit p (Reg.LIN_PORT_STAT_LT_FAIL p) := ⟨rfl, rfl, by show 3 ≤ 6; omega, by show 6 + 1 ≤ 24; omega⟩

theorem LinkBit.flag_setB {f : Fld} (h : LinkBit p f) (b : Bool) : flag (setB s f b) f = b :=
  flag_setB_self s f b (Nat.le_trans h.hi (by omega)) h.len

/-- Of LIN_PORT_STAT it writes LINK_UP and LINK_CHANGE. -/
theorem LinkBit.flag_linkUpdate {f : Fld} (h : LinkBit p f) : flag (linkUpdate s p) f = flag s f := by
  have hend : f.lo + f.len ≤ 24 := h.len ▸ h.hi
  have hword : f.lo + f.len ≤ 32 := Nat.le_trans hend (by omega)
  have hup : (Reg.LIN_PORT_STAT_LINK_UP p).lo + (Reg.LIN_PORT_STAT_LINK_UP p).len ≤ f.lo := h.lo
  rw [flag, getF, rd_linkUpdate_faultShow, ← getF, ← flag]
  unfold faultShow
  dsimp only
  split
  · rfl
  · rw [flag_setB_beside _ (Reg.LIN_PORT_STAT_LINK_CHANGE p) f true hword (.inr (.inl hend)), flag_setB_beside _ _ _ _ hword (.inr (.inr hup))]

theorem lineTx_training (b : Bytes) : (lineTx s p b).lin.training = s.lin.training := by
  unfold lineTx
  split <;> rfl

theorem sendLine_training (b : Bytes) : (sendLine s p b).lin.training = s.lin.training := by
  unfold sendLine
  rw [perfAdd_lin, perf_lin, lineTx_training]

theorem sendXoff_training (m : Nat) : (sendXoff s p m).lin.training = s.lin.training := by
  unfold sendXoff
  dsimp only
  split
  · rfl
  · split
    · rw [perf_lin, sendLine_training]
    · split
      · rw [perf_lin, sendLine_training]
      · rfl

theorem linkUpdate_training : (linkUpdate s p).lin.training = s.lin.training := by
  have hshow : (faultShow s p).lin.training = s.lin.training := by
    unfold faultShow
    dsimp only
    split
    · rfl
    · rw [setB_lin, setB_lin]
  unfold linkUpdate xoffPay
  split
  · rw [sendXoff_training]
    exact hshow
  · exact hshow

end

/-! ## What SyncE touches (R62) -/

section
variable {s : State} {a : Nat} (h : a ≠ Reg.LIN_SYNCE_STAT)
include h

theorem rd_synceSquelch_ne : rd (synceSquelch s) a = rd s a := by
  refine foldl_same (fun u => rd u a) _ (fun u k => ?_) _ s
  split
  · rfl
  · exact rd_setF_ne _ _ _ _ h

theorem rd_lockLost_ne (l : List Nat) : rd (lockLost s l) a = rd s a := (rd_synceSquelch_ne h).trans (rd_congr rfl a)

theorem rd_lockHeld_ne (l : List Nat) : rd (lockHeld s l) a = rd s a := (rd_synceSquelch_ne h).trans (rd_congr rfl a)

end

theorem rd_discardStaged_ne (s : State) {p a : Nat} (h : a ≠ Reg.LIN_EVT_CNT p 14) : rd (discardStaged s p) a = rd s a :=
  (rd_bumpN_ne _ _ _ _ h).trans (rd_congr rfl a)

/-! ## Calibration (R35, R41) -/

section
variable {s : State} {g : Fin 20} {l : Fin 8}

theorem lineLaneCalibration_fails {ok : Bool} (htop : s.top = .bringup) (hoos : laneOos s g l = false) (hok : (ok && rcalOk s 0) = false) :
    lineLaneCalibration g l ok s = synceSquelch (txSettleGroup (levelMore
      (setF s (Reg.LIN_GRP_STAT_LANE_OOS g) (Nat.lor (getF s (Reg.LIN_GRP_STAT_LANE_OOS g)) (2 ^ l.val))) (Src.linLaneOos g) (locSlice 0 g) l) g) := by
  simp [lineLaneCalibration, htop, hok, hoos]

theorem lineLaneCalibration_passes (h : rcalOk s 0 = true) : lineLaneCalibration g l true s = s := by
  simp [lineLaneCalibration, h]

end

/-! ## Link training (R42) -/

section
variable {s : State} {p : Fin 160}

theorem linkTrainingDone_runs (h : s.lin.training.contains p.val = true) (ok : Bool) :
    linkTrainingDone p ok s = linkUpdate (setB (setB (trainStop s p) (Reg.LIN_PORT_STAT_LT_DONE p) ok) (Reg.LIN_PORT_STAT_LT_FAIL p) (!ok)) p := by
  rw [linkTrainingDone, h, Bool.not_true, if_neg Bool.false_ne_true]

theorem linkTrainingRetry_starts (hfail : flag s (Reg.LIN_PORT_STAT_LT_FAIL p) = true) (hen : flag s (Reg.LIN_PORT_CFG_LT_EN p) = true) (htx : txNow s p ≠ 0)
    (hrun : s.lin.training.contains p.val = false) : linkTrainingRetry p s = { s with lin := { s.lin with training := p.val :: s.lin.training } } := by
  have htx' : (txNow s p != 0) = true := by simpa using htx
  rw [linkTrainingRetry, hfail, hen, htx', hrun]
  rfl

theorem retrain_present (hopen : operOpen s = true) (hp : portPresent s p = true) : retrain p s = retrainStart s p := by
  unfold retrain
  dsimp only
  rw [operWrite_open hopen, if_pos hp]

theorem retrain_absent (hopen : operOpen s = true) (hp : portPresent s p = false) : retrain p s = pwfD s 0 0 (Reg.LIN_PORT_CTL p) 16 .unassigned 0 := by
  unfold retrain
  dsimp only
  rw [operWrite_open hopen, hp, if_neg Bool.false_ne_true, pwfAbsent]

end

section
variable {s : State} {p : Nat} (htx : txNow s p ≠ 0)
include htx

theorem retrainStart_trains (hen : flag s (Reg.LIN_PORT_CFG_LT_EN p) = true) : retrainStart s p = linkUpdate (trainStart s p) p := by
  simp [retrainStart, htx, hen]

theorem retrainStart_relocks (hen : flag s (Reg.LIN_PORT_CFG_LT_EN p) = false) :
    retrainStart s p = lockHeld s ((portLaneNos s p).filter (fun x => !s.lin.noLock.contains x)) := by
  simp [retrainStart, htx, hen]

end

/-! ## ADMIN (R46, R343, R344) -/

section
variable {s : State} {p : Fin 160} {v : Nat} (hopen : operOpen s = true) (hp : portPresent s p = true)
include hopen hp

theorem admin_present :
    admin p v s = if standby s || !(v % 4 != 3) then pwfTarget s (Reg.LIN_PORT_CTL p) v else mirrorItem (adminSet s p v) (.reg 0 (Reg.LIN_PORT_CTL p) v) := by
  have hgo : (operOpen s && !portPresent s p) = false := by simp [hp]
  rw [admin, hgo, if_neg Bool.false_ne_true, operMirrored, operWrite_open hopen]

theorem admin_taken (hs : standby s = false) (hv : v % 4 ≠ 3) (hre : bit v 4 = false) :
    admin p v s = mirrorItem (txUpdate (setF s (Reg.LIN_PORT_CTL_ADMIN p) v) p) (.reg 0 (Reg.LIN_PORT_CTL p) v) := by
  rw [admin_present hopen hp]
  simp [hs, hv, adminSet, hre]

theorem admin_refused (h : standby s = true ∨ v % 4 = 3) : admin p v s = pwfTarget s (Reg.LIN_PORT_CTL p) v := by
  rw [admin_present hopen hp]
  rcases h with h | h <;> simp [h]

end

/-! ## Link faults (R49, R64) -/

/-- The fault bit and the level of its group, as a fault of a port begins or ends. -/
def faultMarked (s : State) (p : Nat) (f : Nat → Fld) (src : Nat) (on : Bool) : State :=
  let s1 := setB s (f p) on
  if on then levelMore s1 src (locSlice 0 (p / 8)) p else if groupFault s1 f (p / 8) then s1 else levelOff s1 src

section
variable (s : State) (p k : Nat) (f : Nat → Fld) (src : Nat) (on : Bool)

theorem linkFault_eq : linkFault s p k f src on = linkUpdate (bumpIf on (faultMarked s p f src on) (Reg.LIN_EVT_CNT p k)) p := rfl

theorem rd_faultMarked {a : Nat} (h : OffReport a) : rd (faultMarked s p f src on) a = rd (setB s (f p) on) a := by
  unfold faultMarked
  dsimp only
  split
  · exact rd_levelMore h
  · split
    · rfl
    · exact rd_levelOff

variable {s p k f src on}

/-- A fault changes its port's status and, as it begins, its counter. -/
theorem rd_linkFault_ne {a : Nat} (h : OffReport a) (hf : (f p).reg = Reg.LIN_PORT_STAT p) (hs : a ≠ Reg.LIN_PORT_STAT p) (hc : a ≠ Reg.LIN_EVT_CNT p k) :
    rd (linkFault s p k f src on) a = rd s a := by
  rw [linkFault_eq, rd_linkUpdate_ne hs, rd_bumpIf_ne _ _ hc, rd_faultMarked _ _ _ _ _ h, rd_setB_ne _ _ _ _ (hf ▸ hs)]

/-- The registers of the line ports lie outside what a report touches. -/
theorem offReport_evtCnt (hp : p < 160) (hk : k < 16) : OffReport (Reg.LIN_EVT_CNT p k) := by
  unfold OffReport Reg.LIN_EVT_CNT
  omega

theorem offReport_portStat (hp : p < 160) : OffReport (Reg.LIN_PORT_STAT p) := by
  unfold OffReport Reg.LIN_PORT_STAT
  omega

theorem evtCnt_ne_portStat (hk : k < 16) : Reg.LIN_EVT_CNT p k ≠ Reg.LIN_PORT_STAT p := by
  unfold Reg.LIN_EVT_CNT Reg.LIN_PORT_STAT
  omega

theorem evtCnt_ne_synce (hk : k < 16) : Reg.LIN_EVT_CNT p k ≠ Reg.LIN_SYNCE_STAT := by
  unfold Reg.LIN_EVT_CNT Reg.LIN_SYNCE_STAT
  omega

theorem evtCnt_ne_evtCnt {j : Nat} (h : k ≠ j) : Reg.LIN_EVT_CNT p k ≠ Reg.LIN_EVT_CNT p j := by
  unfold Reg.LIN_EVT_CNT
  omega

theorem rd_linkFault_counts (hp : p < 160) (hk : k < 16) (hf : (f p).reg = Reg.LIN_PORT_STAT p) :
    rd (linkFault s p k f src true) (Reg.LIN_EVT_CNT p k) = countWord (rd s (Reg.LIN_EVT_CNT p k)) 1 := by
  have hne := evtCnt_ne_portStat (p := p) hk
  rw [linkFault_eq, rd_linkUpdate_ne hne, rd_bumpIf_true, rd_faultMarked _ _ _ _ _ (offReport_evtCnt hp hk), rd_setB_ne _ _ _ _ (hf ▸ hne)]

/-- The fault bit of the port is as the fault begins or ends. -/
theorem flag_linkFault (hp : p < 160) (hk : k < 16) (hf : LinkBit p (f p)) : flag (linkFault s p k f src on) (f p) = on := by
  have hoff : OffReport (f p).reg := hf.reg ▸ offReport_portStat hp
  have hne : (f p).reg ≠ Reg.LIN_EVT_CNT p k := by
    rw [hf.reg]
    exact (evtCnt_ne_portStat hk).symm
  rw [linkFault_eq, hf.flag_linkUpdate, flag, getF, rd_bumpIf_ne _ _ hne, rd_faultMarked _ _ _ _ _ hoff]
  exact hf.flag_setB on

theorem flag_discardStaged {g : Fld} (h : g.reg ≠ Reg.LIN_EVT_CNT p 14) : flag (discardStaged s p) g = flag s g := by
  rw [flag, getF, rd_discardStaged_ne s h]
  rfl

end

section
variable {s : State} {p : Fin 160}

theorem linkFaultDetect_begins (hrx : rxActive s p = true) (hl : flag s (Reg.LIN_PORT_STAT_LOCAL_FAULT p) = false) (lanes : Fin 256) :
    linkFaultDetect p lanes s = discardStaged (linkFault (lockLost s ((portLaneNos s p).filter (fun x => bit lanes (x % 8)))) p 6 Reg.LIN_PORT_STAT_LOCAL_FAULT
      (Src.linLinkFault (p.val / 8)) true) p := by
  simp [linkFaultDetect, hrx, hl]

theorem linkFaultClear_ends (hl : flag s (Reg.LIN_PORT_STAT_LOCAL_FAULT p) = true) :
    linkFaultClear p s = linkFault (lockHeld s ((portLaneNos s p).filter (fun x => s.lin.noLock.contains x))) p 6 Reg.LIN_PORT_STAT_LOCAL_FAULT
      (Src.linLinkFault (p.val / 8)) false := by
  simp [linkFaultClear, hl]

theorem remoteFaultReceived_begins (hrx : rxActive s p = true) (hr : flag s (Reg.LIN_PORT_STAT_REMOTE_FAULT p) = false) :
    remoteFaultReceived p s = discardStaged (linkFault s p 7 Reg.LIN_PORT_STAT_REMOTE_FAULT (Src.linRemoteFault (p.val / 8)) true) p := by
  simp [remoteFaultReceived, hrx, hr]

theorem remoteFaultClear_ends (hr : flag s (Reg.LIN_PORT_STAT_REMOTE_FAULT p) = true) :
    remoteFaultClear p s = linkFault s p 7 Reg.LIN_PORT_STAT_REMOTE_FAULT (Src.linRemoteFault (p.val / 8)) false := by
  simp [remoteFaultClear, hr]

end

/-! ## SYNCE_RESUME (R62) -/

section
variable {s : State} {k : Fin 2}

theorem synceResume_resumes (hlock : ∀ tm, mfind s.lin.lockAt (getF s (Reg.LIN_SYNCE_CFG_LANE k)) = some tm → withinUs s tm 10000 = false)
    (hallow : synceAllowed { s with lin := { s.lin with lockAt := merase s.lin.lockAt (getF s (Reg.LIN_SYNCE_CFG_LANE k)) } } k = true) :
    synceResume k s =
      setF { s with lin := { s.lin with lockAt := merase s.lin.lockAt (getF s (Reg.LIN_SYNCE_CFG_LANE k)) } } Reg.LIN_SYNCE_STAT_SQUELCH
        (getF s Reg.LIN_SYNCE_STAT_SQUELCH - Nat.land (getF s Reg.LIN_SYNCE_STAT_SQUELCH) (2 ^ k.val)) := by
  cases hm : mfind s.lin.lockAt (getF s (Reg.LIN_SYNCE_CFG_LANE k)) with
  | none =>
    simp only [synceResume, hm, hallow]
    rfl
  | some tm =>
    simp only [synceResume, hm, hlock tm hm, hallow]
    rfl

theorem synceResume_waits {tm : Nat} (hlock : mfind s.lin.lockAt (getF s (Reg.LIN_SYNCE_CFG_LANE k)) = some tm) (hshort : withinUs s tm 10000 = true) :
    synceResume k s = s := by
  simp [synceResume, hlock, hshort]

end

/-! ## The statement -/

/-- Settles O44: each command in the state that takes it, by what it writes and what it leaves alone. -/
theorem linePortsAndLinks : Obligations.LinePortsAndLinks := by
  unfold Obligations.LinePortsAndLinks
  refine ⟨?calFails, ?calPasses, ?calNoRef, ?trained, ?retry, ?retrain, ?absent, ?admin, ?adminRefused, ?localFault, ?localClear, ?remoteFault, ?remoteClear, ?resume,
    ?waits, ?relock⟩
  case calFails => exact fun s g l htop hoos => ⟨_, rfl, lineLaneCalibration_fails htop hoos (Bool.false_and _)⟩
  case calPasses => exact fun s g l h => ⟨_, rfl, lineLaneCalibration_passes h⟩
  case calNoRef => exact fun s g l htop hr hoos => ⟨_, rfl, lineLaneCalibration_fails htop hoos (by rw [hr, Bool.and_false])⟩
  case trained =>
    intro s p ok h
    refine ⟨linkTrainingDone p ok s, rfl, ?_⟩
    rw [linkTrainingDone_runs h]
    refine ⟨?_, ?_, ?_, fun a ha => ?_⟩
    · rw [(linkBit_ltDone p).flag_linkUpdate, flag_setB_beside _ _ _ _ (by show 5 + 1 ≤ 32; omega) (.inr (.inl (by show 5 + 1 ≤ 6; omega)))]
      exact (linkBit_ltDone p).flag_setB ok
    · rw [(linkBit_ltFail p).flag_linkUpdate]
      exact (linkBit_ltFail p).flag_setB (!ok)
    · rw [linkUpdate_training, setB_lin, setB_lin]
      rfl
    · have hne : a ≠ Reg.LIN_PORT_STAT p := List.ne_of_not_mem_cons ha
      rw [rd_linkUpdate_ne hne, rd_setB_ne _ _ _ _ hne, rd_setB_ne _ _ _ _ hne]
      rfl
  case retry => exact fun s p hfail hen htx hrun => ⟨_, rfl, linkTrainingRetry_starts hfail hen htx hrun⟩
  case retrain =>
    intro s p hopen hp htx hen
    refine ⟨retrain p s, rfl, ?_⟩
    rw [retrain_present hopen hp, retrainStart_trains htx hen]
    refine ⟨?_, linkUpdate_training⟩
    rw [(linkBit_ltDone p).flag_linkUpdate]
    exact (linkBit_ltDone p).flag_setB (s := s) false
  case absent => exact fun s p hopen hp => ⟨_, rfl, retrain_absent hopen hp⟩
  case admin => exact fun s p v hopen hp hs hv hre => ⟨_, rfl, admin_taken hopen hp hs hv hre⟩
  case adminRefused => exact fun s p v hopen hp h => ⟨_, rfl, admin_refused hopen hp h⟩
  case localFault =>
    intro s p lanes hrx hl
    refine ⟨linkFaultDetect p lanes s, rfl, ?_⟩
    rw [linkFaultDetect_begins hrx hl]
    refine ⟨?_, ?_, fun a hoff hs h6 h14 hsync => ?_⟩
    · rw [flag_discardStaged (evtCnt_ne_portStat (by omega)).symm, flag_linkFault p.isLt (by omega) (linkBit_localFault p)]
    · rw [rd_discardStaged_ne _ (evtCnt_ne_evtCnt (by omega)), rd_linkFault_counts p.isLt (by omega) rfl, rd_lockLost_ne (evtCnt_ne_synce (by omega))]
    · rw [rd_discardStaged_ne _ h14, rd_linkFault_ne hoff rfl hs h6, rd_lockLost_ne hsync]
  case localClear =>
    intro s p hl
    refine ⟨linkFaultClear p s, rfl, ?_⟩
    rw [linkFaultClear_ends hl]
    refine ⟨flag_linkFault p.isLt (by omega) (linkBit_localFault p), fun a hoff hs h6 hsync => ?_⟩
    rw [rd_linkFault_ne hoff rfl hs h6, rd_lockHeld_ne hsync]
  case remoteFault =>
    intro s p hrx hr
    refine ⟨remoteFaultReceived p s, rfl, ?_⟩
    rw [remoteFaultReceived_begins hrx hr]
    refine ⟨?_, ?_, fun a hoff hs h7 h14 => ?_⟩
    · rw [flag_discardStaged (evtCnt_ne_portStat (by omega)).symm, flag_linkFault p.isLt (by omega) (linkBit_remoteFault p)]
    · rw [rd_discardStaged_ne _ (evtCnt_ne_evtCnt (by omega)), rd_linkFault_counts p.isLt (by omega) rfl]
    · rw [rd_discardStaged_ne _ h14, rd_linkFault_ne hoff rfl hs h7]
  case remoteClear =>
    intro s p hr
    refine ⟨remoteFaultClear p s, rfl, ?_⟩
    rw [remoteFaultClear_ends hr]
    exact flag_linkFault p.isLt (by omega) (linkBit_remoteFault p)
  case resume =>
    intro s k hlock hallow
    refine ⟨synceResume k s, rfl, ?_⟩
    rw [synceResume_resumes hlock hallow]
    exact ⟨getF_setF_self _ _ _ (by decide), fun a ha => (rd_setF_ne _ _ _ _ (List.ne_of_not_mem_cons ha)).trans (rd_congr rfl a)⟩
  case waits => exact fun s k tm hlock hshort => ⟨_, rfl, synceResume_waits hlock hshort⟩
  case relock => exact fun s p hopen hp htx hen => ⟨_, rfl, (retrain_present hopen hp).trans (retrainStart_relocks htx hen)⟩

end Sys2Proof.Machine

/-! Fabric lanes: calibration, training, frames sent and received, slips (O50). -/

namespace Sys2Proof.Machine

/-! ## Calibration and training (R261) -/

section
variable {s : State} {g : Fin 8} {l : Fin 28} {ok : Bool}

theorem fabricLaneCalibration_idle (htop : s.top ≠ .bringup) (hjoin : getF s (Reg.PWR_SLICE_STAT_STATE (20 + g)) ≠ 6) :
    fabricLaneCalibration g l ok s = s := by
  simp [fabricLaneCalibration, htop, hjoin]

theorem fabricLaneCalibration_fails (htop : s.top = .bringup) (hok : (ok && rcalOk s 1) = false) (hoos : flag s (Reg.FAB_LANE_STAT_OOS g l) = false) :
    fabricLaneCalibration g l ok s =
      fabFollowGroup s (levelMore (setB s (Reg.FAB_LANE_STAT_OOS g l) true) (Src.fabLaneOos g) (locSlice 1 (20 + g)) l) g := by
  simp [fabricLaneCalibration, htop, hok, hoos]

theorem fabricLaneCalibration_passes (h : rcalOk s 1 = true) : fabricLaneCalibration g l true s = s := by
  simp [fabricLaneCalibration, h]

theorem fabricLinkTrainingDone_runs (h : flk g l ∈ s.fab.training) (ok : Bool) :
    fabricLinkTrainingDone g l ok s =
      { s with fab := { s.fab with training := s.fab.training.erase (flk g l), trainFail := if ok then s.fab.trainFail else flk g l :: s.fab.trainFail.erase (flk g l) } } := by
  simp [fabricLinkTrainingDone, h]

theorem fabricTrainingRetry_starts (hfail : flk g l ∈ s.fab.trainFail) (hen : getF s (Reg.FAB_GRP_CFG_LT_EN g) = 1) (htx : fabTxNow s g ≠ 0) :
    fabricTrainingRetry g l s =
      { s with fab := { s.fab with training := flk g l :: s.fab.training.erase (flk g l), trainFail := s.fab.trainFail.erase (flk g l) } } := by
  simp [fabricTrainingRetry, flag, hfail, hen, htx]

end

/-! ## Frames sent and received (R263, R265, R276) -/

theorem caravanFrameSend_sends {s : State} {g : Fin 8} (h : fabTxNow s g ≠ 0) :
    caravanFrameSend false s =
      nextMfas (sendAll (fillSlots (sprayLanes (sprayChange s)) 16 (sprayChange s, [])).1 (fillSlots (sprayLanes (sprayChange s)) 16 (sprayChange s, [])).2) := by
  have hsome : ((List.range 8).all fun g => fabTxNow s g == 0) = false :=
    List.all_eq_false.mpr ⟨g, List.mem_range.mpr g.isLt, by simpa using h⟩
  simp [caravanFrameSend, hsome]

section
variable {s : State} {g : Nat} {l : Fin 28} {b : Bytes}

theorem caravanFrameReceive_dropped (h : laneHears s g l = false ∨ b.length ≠ 4112) (n : Nat) (x : Bool) : caravanFrameReceive g l b n x s = s := by
  have hdrop : (!laneHears s g l || b.length ≠ 4112) = true := by simpa using h
  rw [caravanFrameReceive, if_pos hdrop]

theorem caravanFrameReceive_taken (hears : laneHears s g l = true) (hloop : fabLoop s g l = 0) (hlen : b.length = 4112) (n : Nat) (x : Bool) :
    caravanFrameReceive g l b n x s = frameTake g l b n x s := by
  simp [caravanFrameReceive, hears, hloop, hlen, carvRx]

end

/-! ## Slips (R278) -/

section
variable {s : State} {g : Nat} {l : Fin 28} (hrx : rxOk s g l = true)
include hrx

theorem slipRead_forced (hfull : 4 ≤ (rxLane s g l).slip.length) (hidle : (rxLane s g l).slip.any idleCells = false) (part : Bool) :
    slipRead g l part s =
      slipOldest (report (bumpN (bump s (Reg.FAB_LANE_CNT g l 5)) (Reg.FAB_LANE_CNT g l 7) (dataCells ((rxLane s g l).slip.headD []))) (Src.fabForcedSlip g) (locSlice 1 (20 + g)) l) g l
        { rxLane s g l with slip := (rxLane s g l).slip.drop 1 } := by
  simp only [slipRead, hrx, hidle, hfull, Bool.not_true, Bool.false_eq_true, if_false, Bool.not_false, and_self, if_true]

/-- With one or two frames in the buffer and none to be repeated, the oldest is read. -/
theorem slipRead_reads {f : List Bytes} {r : List (List Bytes)} (hslip : (rxLane s g l).slip = f :: r) (hr : r.length ≤ 1)
    (hlast : r = [] → idleCells (rxLane s g l).lastRead = false) : slipRead g l false s = slipGive s g l { rxLane s g l with slip := r } f := by
  have hlen : (rxLane s g l).slip.length = r.length + 1 := by rw [hslip, List.length_cons]
  have hnotFull : ¬ 4 ≤ (rxLane s g l).slip.length := by omega
  have hnotThree : ¬ 3 ≤ (rxLane s g l).slip.length := by omega
  have hnotRepeat : ¬ ((rxLane s g l).slip.length + b2n false ≤ 1 ∧ (rxLane s g l).lastRead ≠ [] ∧ idleCells (rxLane s g l).lastRead = true) := by
    rintro ⟨hone, -, hidle⟩
    have hempty : r = [] := List.eq_nil_of_length_eq_zero (by omega)
    rw [hlast hempty] at hidle
    exact Bool.false_ne_true hidle
  have hnotEmpty : (rxLane s g l).slip ≠ [] := by rw [hslip]; exact List.cons_ne_nil f r
  rw [slipRead, hrx, if_neg (by decide), if_neg (fun h => hnotFull h.1), if_neg (fun h => hnotThree h.1), if_neg hnotRepeat, if_neg (fun h => hnotEmpty h.1), slipOldest, hslip]

end

section
variable (s : State) (g l : Nat) (x : RxLane) (f : List Bytes)

theorem rxLane_slipGive : rxLane (slipGive s g l x f) g l = { x with lastRead := f } := mget_mput_self ..

theorem cells_slipGive : mget [] (slipGive s g l x f).fab.cells (flk g l) = mget [] s.fab.cells (flk g l) ++ f := mget_mput_self ..

theorem rd_slipGive_ne {a : Nat} (h : a ≠ Reg.FAB_LANE_STAT g l) : rd (slipGive s g l x f) a = rd s a := rd_setF_ne _ _ _ _ h

end

/-- A lane of a fabric group is none of the Gallery's. -/
theorem fabGroup_ne_gallery {g : Fin 9} (h : g.val < 8) : g ≠ 8 := by omega

theorem exec_caravanFrameReceive_fabric {g : Fin 9} (h : g.val < 8) (l : Fin 28) (b : Bytes) (n : Nat) (x : Bool) (s : State) :
    exec (.caravanFrameReceive g l b n x) s = .next (caravanFrameReceive g l b n x s) :=
  congrArg Host.Outcome.next (if_neg (fabGroup_ne_gallery h))

theorem exec_slipRead_fabric {g : Fin 9} (h : g.val < 8) (l : Fin 28) (part : Bool) (s : State) :
    exec (.slipRead g ⟨l, part⟩) s = .next (slipRead g l part s) :=
  congrArg Host.Outcome.next (if_neg (fabGroup_ne_gallery h))

/-! ## The statement -/

/-- Settles O50: each command in the state that takes it, by its branch. -/
theorem fabricTrainingFramesAndSlips : Obligations.FabricTrainingFramesAndSlips := by
  unfold Obligations.FabricTrainingFramesAndSlips
  refine ⟨?calIdle, ?calFails, ?calPasses, ?trained, ?retry, ?frameSend, ?frameDropped, ?frameTaken, ?slipForced, ?slipReads⟩
  case calIdle => exact fun s g l ok htop hjoin => ⟨_, rfl, fabricLaneCalibration_idle htop hjoin⟩
  case calFails =>
    intro s g l ok htop hbad hoos
    exact ⟨_, rfl, fabricLaneCalibration_fails htop (Bool.and_eq_false_iff.mpr hbad) hoos⟩
  case calPasses => exact fun s g l h => ⟨_, rfl, fabricLaneCalibration_passes h⟩
  case trained =>
    intro s g l ok h
    refine ⟨_, congrArg Host.Outcome.next (fabricLinkTrainingDone_runs h ok), rfl, ?_, ?_, rfl⟩
    · rintro rfl
      exact List.mem_cons_self
    · rintro rfl
      rfl
  case retry =>
    intro s g l hfail hen htx
    exact ⟨_, congrArg Host.Outcome.next (fabricTrainingRetry_starts hfail hen htx), List.mem_cons_self, rfl, rfl⟩
  case frameSend =>
    rintro s ⟨g, hg⟩
    exact ⟨_, rfl, caravanFrameSend_sends hg⟩
  case frameDropped =>
    intro s g l b n x hg h
    exact ⟨_, exec_caravanFrameReceive_fabric hg l b n x s, caravanFrameReceive_dropped h n x⟩
  case frameTaken =>
    rintro s g l b y hg hears hloop hlen rfl hin
    refine ⟨_, exec_caravanFrameReceive_fabric hg l b 0 false s, ?_⟩
    rw [caravanFrameReceive_taken hears hloop hlen]
    exact if_pos hin
  case slipForced =>
    intro s g l part hg hrx hfull hidle
    exact ⟨_, exec_slipRead_fabric hg l part s, slipRead_forced hrx hfull hidle part⟩
  case slipReads =>
    intro s g l f r hg hrx hslip hr hlast
    refine ⟨_, exec_slipRead_fabric hg l false s, ?_⟩
    rw [slipRead_reads hrx hslip hr hlast]
    exact ⟨rxLane_slipGive .., cells_slipGive .., fun a ha => rd_slipGive_ne _ _ _ _ _ (List.ne_of_not_mem_cons ha)⟩

end Sys2Proof.Machine

/-! The top-level state (O10): only the listed commands move it, for only they reach a function that enters another state. One lemma for each function of the model
that the other commands run, in the order of the model's files: it leaves `top` alone. -/

namespace Sys2Proof.Machine

/-! ## Branches and folds -/

@[simp] theorem top_ite {c : Prop} {d : Decidable c} {a b : State} : (@ite _ c d a b).top = @ite _ c d a.top b.top := apply_ite ..

@[simp] theorem top_dite {c : Prop} {d : Decidable c} {a : c → State} {b : ¬c → State} :
    (@dite _ c d a b).top = @dite _ c d (fun h => (a h).top) (fun h => (b h).top) := apply_dite ..

theorem foldl_top_by {β γ : Type} {g : γ → State} {f : γ → β → γ} (hf : ∀ a x, (g (f a x)).top = (g a).top) (a : γ) (l : List β) :
    (g (l.foldl f a)).top = (g a).top := by
  induction l generalizing a with
  | nil => rfl
  | cons x l ih => exact (ih _).trans (hf a x)

@[simp] theorem foldl_top {β : Type} {f : State → β → State} {a : State} {l : List β} (hf : ∀ a x, (f a x).top = a.top) : (l.foldl f a).top = a.top :=
  foldl_top_by (g := id) hf a l

@[simp] theorem foldl_fst_top {β γ : Type} {f : State × γ → β → State × γ} {a : State × γ} {l : List β} (hf : ∀ a x, (f a x).1.top = a.1.top) :
    (l.foldl f a).1.top = a.1.top :=
  foldl_top_by (g := Prod.fst) hf a l

@[simp] theorem foldl_snd_top {β γ : Type} {f : γ × State → β → γ × State} {a : γ × State} {l : List β} (hf : ∀ a x, (f a x).2.top = a.2.top) :
    (l.foldl f a).2.top = a.2.top :=
  foldl_top_by (g := Prod.snd) hf a l

/-- A result of a pair that a match has taken apart. -/
theorem top_of_pair {α : Type} {x : α × State} {a : α} {t u : State} (h : x = (a, t)) (hx : x.2.top = u.top) : t.top = u.top := by
  subst h
  exact hx

theorem top_of_triple {α β : Type} {x : α × β × State} {a : α} {b : β} {t u : State} (h : x = (a, b, t)) (hx : x.2.2.top = u.top) : t.top = u.top := by
  subst h
  exact hx

/-! ## The functions of Machine/Ops -/

@[simp] theorem signal_top {s : State} {f r : Nat} {force : Bool} : (signal s f r force).top = s.top := by simp [signal]

@[simp] theorem pushEntry_top {s : State} {f r : Nat} {content : Bytes} {force : Bool} : (pushEntry s f r content force).top = s.top := by simp [pushEntry]

@[simp] theorem pushCompl_top {s : State} {f op tag status ring : Nat} {b : Bool} {l : List Bytes} : (pushCompl s f op tag status ring b l).top = s.top := by
  induction l generalizing s b with
  | nil => rfl
  | cons c r ih => simp [pushCompl, ih]

@[simp] theorem landed_top {s : State} {f : Nat} : (landed s f).top = s.top := (rfl)

@[simp] theorem drainOwed_top {f : Nat} {k : Nat} {s : State} : (drainOwed f k s).top = s.top := by
  induction k generalizing s with
  | zero => rfl
  | succ n ih =>
    unfold drainOwed
    split
    · rfl
    · dsimp only
      split <;> simp [ih]

@[simp] theorem complete_top {s : State} {c : HostCmd} {status : Nat} {result : Bytes} : (complete s c status result).top = s.top := by simp [complete]

@[simp] theorem wrWords_top {s : State} {a : Nat} {l : List Word} : (wrWords s a l).top = s.top := by
  induction l generalizing s a with
  | nil => rfl
  | cons w r ih => simp [wrWords, ih]

@[simp] theorem pwfLog_top {s : State} {w0 addr data : Nat} : (pwfLog s w0 addr data).top = s.top := by simp [pwfLog]

@[simp] theorem pwfD_top {s : State} {f bar addr data : Nat} {c : PwfCause} {detail : Nat} : (pwfD s f bar addr data c detail).top = s.top := by simp [pwfD]

@[simp] theorem freshNat_top {s : State} : (freshNat s).2.top = s.top := (rfl)

@[simp] theorem operWrite_top {s : State} {addr data : Nat} {act : State → State} (hact : ∀ t, (act t).top = t.top) :
    (operWrite s addr data act).top = s.top := by simp [operWrite, hact]

@[simp] theorem srcCount_top {s : State} {src : Nat} : (srcCount s src).top = s.top := by simp [srcCount]

@[simp] theorem firstPut_top {s : State} {t src : Nat} {rcd : List Word} : (firstPut s t src rcd).top = s.top := by simp [firstPut]

@[simp] theorem firstNote_top {s : State} {t src : Nat} {rcd : List Word} : (firstNote s t src rcd).top = s.top := by
  unfold firstNote
  split <;> simp

@[simp] theorem captureFirst_top {s0 : State} {src : Nat} {r : Report} {rcd : List Word} : (captureFirst s0 src r rcd).top = s0.top := by simp [captureFirst]

@[simp] theorem serviceReaction_top {dramFail : State → Nat → State} {s : State} {src : Nat} {loc : Nat} (hdramFail : ∀ t i, (dramFail t i).top = t.top) :
    (serviceReaction dramFail s src loc).top = s.top := by simp [serviceReaction, hdramFail]

@[simp] theorem setStatus_top {s : State} {src : Nat} : (setStatus s src).top = s.top := by simp [setStatus]

@[simp] theorem mergeLatched_top {s : State} {src : Nat} {r : Report} : (mergeLatched s src r).top = s.top := by simp [mergeLatched]

@[simp] theorem reportWith_top {dramFail : State → Nat → State} {inj : Bool} {s : State} {src loc detail : Nat} (hdramFail : ∀ t i, (dramFail t i).top = t.top) :
    (reportWith dramFail inj s src loc detail).top = s.top := by simp [reportWith, hdramFail]

@[simp] theorem dramLost_top {s : State} {i : Nat} : (dramLost s i).top = s.top := by simp [dramLost]

@[simp] theorem pauseWithdraw_top {s : State} {i : Nat} : (pauseWithdraw s i).top = s.top := (rfl)

@[simp] theorem dramFailedWith_top {more : State → Nat → State} {s : State} {i : Nat} (hmore : ∀ t j, (more t j).top = t.top) :
    (dramFailedWith more s i).top = s.top := by simp [dramFailedWith, hmore]

@[simp] theorem dramFailed_top {s : State} {i : Nat} : (dramFailed s i).top = s.top := by simp [dramFailed]

@[simp] theorem injTake_top {s : State} {loc gran : Nat} : (injTake s loc gran).2.top = s.top := by
  simp only [injTake]
  split <;> simp

@[simp] theorem injUncorr_top {s : State} {loc gran : Nat} : (injUncorr s loc gran).2.top = s.top := by
  unfold injUncorr
  dsimp only
  split
  · simp
  · split <;> simp

/-! ## The functions of Machine/Faults -/

@[simp] theorem recRingFill_top {s : State} : (recRingFill s).top = s.top := by simp [recRingFill]

@[simp] theorem recRingPut_top {s : State} {rcd : List Word} : (recRingPut s rcd).top = s.top := by simp [recRingPut]

@[simp] theorem vbatCopy_top {s : State} {rcd : List Word} : (vbatCopy s rcd).top = s.top := (rfl)

@[simp] theorem nvlogOffer_top {s : State} {rcd : List Word} : (nvlogOffer s rcd).top = s.top := by simp [nvlogOffer]

@[simp] theorem faultMsg_top {s : State} {src loc : Nat} : (faultMsg s src loc).top = s.top := by simp [faultMsg]

@[simp] theorem faultEvent_top {s : State} {rcd : List Word} {idx : Nat} : (faultEvent s rcd idx).top = s.top := by simp [faultEvent]

@[simp] theorem takeReport_top {s : State} {src : Nat} {r : Report} : (takeReport s src r).top = s.top := by simp [takeReport]

@[simp] theorem makeRecord_top {s : State} {src : Nat} {r : Report} : (makeRecord s src r).top = s.top := by simp [makeRecord]

@[simp] theorem mergeReport_top {s : State} {src : Nat} {r : Report} : (mergeReport s src r).top = s.top := by simp [mergeReport]

@[simp] theorem collectReport_top {s : State} {src : Nat} {r : Report} : (collectReport s src r).top = s.top := by simp [collectReport]

@[simp] theorem faultCollect_top {s : State} : (faultCollect s).top = s.top := by
  unfold faultCollect
  split <;> simp

@[simp] theorem fltStatusClear_top {src : Nat} {s : State} : (fltStatusClear src s).top = s.top := by simp [fltStatusClear]

@[simp] theorem firstEmpty_top {s : State} : (firstEmpty s).top = s.top := (rfl)

@[simp] theorem firstFaultClear_top {s : State} : (firstFaultClear s).top = s.top := operWrite_top fun _ => by split <;> simp

@[simp] theorem ringRdWrite_top {v : Nat} {s : State} : (ringRdWrite v s).top = s.top := by simp [ringRdWrite]

@[simp] theorem nvlogRead_top {v : Nat} {s : State} : (nvlogRead v s).top = s.top := by simp [nvlogRead]

@[simp] theorem partnerFaultRecord_top {rcd : List Word} {s : State} : (partnerFaultRecord rcd s).top = s.top := by simp [partnerFaultRecord]

@[simp] theorem faultInject_top {v : Nat} {s : State} : (faultInject v s).top = s.top := by simp [faultInject]

/-! ## The functions of Machine/Counters -/

@[simp] theorem countPair_top {s : State} {i len : Nat} : (countPair s i len).top = s.top := by simp [countPair]

@[simp] theorem pairRead_top {v : Nat} {s : State} : (pairRead v s).top = s.top := by simp [pairRead]

@[simp] theorem revokeGroup_top {s : State} {g : Nat} : (revokeGroup s g).top = s.top := by simp [revokeGroup]

@[simp] theorem zeroGroup_top {s : State} {g : Nat} : (zeroGroup s g).top = s.top := (rfl)

@[simp] theorem perfTenantWrite_top {j : Fin 128} {v : Nat} {s : State} : (perfTenantWrite j v s).top = s.top := by simp [perfTenantWrite]

@[simp] theorem heldCount_top {s : State} : (heldCount s).top = s.top := (rfl)

@[simp] theorem dumpEpoch_top {d : Fin 64} {s : State} : (dumpEpoch d s).top = s.top := by
  unfold dumpEpoch
  dsimp only
  split
  · simp
  · split <;> simp

@[simp] theorem pushDump_top {s : State} {f r : Nat} {l : List Bytes} : (pushDump s f r l).top = s.top := by simp [pushDump]

@[simp] theorem dumpVf_top {x : Snapshot} {d : Nat} {s : State} {f : Nat} : (dumpVf x d s f).top = s.top := by simp [dumpVf]

@[simp] theorem releaseSnap_top {s : State} {d : Nat} {x : Snapshot} : (releaseSnap s d x).top = s.top := (rfl)

@[simp] theorem abandonDump_top {s : State} {d : Nat} {x : Snapshot} : (abandonDump s d x).top = s.top := by simp [abandonDump]

@[simp] theorem abandonRing_top {s : State} {f r : Nat} : (abandonRing s f r).top = s.top := by simp [abandonRing]

@[simp] theorem dumpWrite_top {d : Fin 64} {s : State} : (dumpWrite d s).top = s.top := by
  unfold dumpWrite
  split <;> simp

/-! ## The functions of Machine/Mirror -/

@[simp] theorem mirrorItem_top {s : State} {x : CmdItem} : (mirrorItem s x).top = s.top := by simp [mirrorItem]

@[simp] theorem stateDue_top {s : State} {key : Nat} : (stateDue s key).top = s.top := by simp [stateDue]

@[simp] theorem memTestFailed_top {s : State} : (memTestFailed s).top = s.top := by simp [memTestFailed]

@[simp] theorem operMirrored_top {s : State} {addr data : Nat} {ok : Bool} {act : State → State} (hact : ∀ t, (act t).top = t.top) :
    (operMirrored s addr data ok act).top = s.top := by simp [operMirrored, hact]

@[simp] theorem probeGone_top {s : State} {q : Nat} : (probeGone s q).top = s.top := (rfl)

@[simp] theorem probeFail_top {s : State} {x : Probe} : (probeFail s x).top = s.top := by simp [probeFail]

@[simp] theorem probeRefused_top {s : State} {q : Nat} : (probeRefused s q).top = s.top := by
  unfold probeRefused
  split <;> simp

/-! ## The functions of Machine/Store -/

@[simp] theorem refuseOpcodes_top {s : State} {fn ring : Nat} {k : Nat} : (refuseOpcodes s fn ring k).top = s.top := by
  induction k generalizing s with
  | zero => rfl
  | succ n ih =>
    unfold refuseOpcodes
    split
    · split <;> simp [ih]
    · rfl

@[simp] theorem finish_top {s : State} {c : HostCmd} {mirrored : Bool} {st : Status} {res : Bytes} : (finish s c mirrored st res).top = s.top := by simp [finish]

@[simp] theorem hostCmd_top {s : State} {c : HostCmd} {op : Nat} {changes : Bool} {eng : State → Eng} (heng : ∀ t, (eng t).s.top = t.top) :
    (hostCmd s c op changes eng).top = s.top := by
  unfold hostCmd
  split
  · rfl
  · split
    · simp
    · simp [heng]

@[simp] theorem sigCounts_top {s : State} : (sigCounts s).top = s.top := by simp [sigCounts]

@[simp] theorem lostFollow_top {s : State} : (lostFollow s).top = s.top := by simp [lostFollow]

@[simp] theorem sigClearBad_top {s : State} {key : Nat} : (sigClearBad s key).top = s.top := (rfl)

@[simp] theorem shadowAct_top {s : State} {c : HostCmd} {bad : List (Bool × Status)} {act : State → State} (hact : ∀ t, (act t).top = t.top) :
    (shadowAct s c bad act).s.top = s.top := by
  unfold shadowAct
  dsimp only
  split <;> simp [hact]

@[simp] theorem sigWriteEng_top {c : HostCmd} {s : State} : (sigWriteEng c s).s.top = s.top := by simp [sigWriteEng]

@[simp] theorem sigWrite_top {c : HostCmd} {s : State} : (sigWrite c s).top = s.top := by simp [sigWrite]

@[simp] theorem sigInvalidateEng_top {c : HostCmd} {s : State} : (sigInvalidateEng c s).s.top = s.top := by simp [sigInvalidateEng]

@[simp] theorem sigInvalidate_top {c : HostCmd} {s : State} : (sigInvalidate c s).top = s.top := by simp [sigInvalidate]

@[simp] theorem sigProfileEng_top {c : HostCmd} {s : State} : (sigProfileEng c s).s.top = s.top := by simp [sigProfileEng]

@[simp] theorem sigProfile_top {c : HostCmd} {s : State} : (sigProfile c s).top = s.top := by simp [sigProfile]

@[simp] theorem sigClearEng_top {c : HostCmd} {s : State} : (sigClearEng c s).s.top = s.top := by simp [sigClearEng]

@[simp] theorem sigClear_top {c : HostCmd} {s : State} : (sigClear c s).top = s.top := by simp [sigClear]

@[simp] theorem sigCopyEng_top {c : HostCmd} {s : State} : (sigCopyEng c s).s.top = s.top := by simp [sigCopyEng]

@[simp] theorem sigCopy_top {c : HostCmd} {s : State} : (sigCopy c s).top = s.top := by simp [sigCopy]

@[simp] theorem sigCopyDone_top {s : State} : (sigCopyDone s).top = s.top := by simp [sigCopyDone]

@[simp] theorem sigSwapNow_top {s : State} : (sigSwapNow s).top = s.top := by simp [sigSwapNow]

@[simp] theorem sigSwapEng_top {c : HostCmd} {s : State} : (sigSwapEng c s).s.top = s.top := by
  unfold sigSwapEng
  dsimp only
  split
  · simp
  · split <;> simp

@[simp] theorem sigSwap_top {c : HostCmd} {s : State} : (sigSwap c s).top = s.top := by simp [sigSwap]

@[simp] theorem storeEng_top {c : HostCmd} {s : State} : (storeEng c s).s.top = s.top := by
  unfold storeEng
  split <;> simp

@[simp] theorem sigSwapInstant_top {s : State} : (sigSwapInstant s).top = s.top := by
  unfold sigSwapInstant
  split <;> simp

@[simp] theorem sigCancel_top {s : State} : (sigCancel s).top = s.top := by simp [sigCancel]

@[simp] theorem oldBankDrained_top {s : State} : (oldBankDrained s).top = s.top := (rfl)

@[simp] theorem sigMasterLost_top {s : State} {key : Nat} : (sigMasterLost s key).top = s.top := by simp [sigMasterLost]

@[simp] theorem sigRead_top {c : HostCmd} {masterBad : Bool} {s : State} : (sigRead c masterBad s).top = s.top := by simp [sigRead]

@[simp] theorem sigEntryRepair_top {n : Fin 20} {key : Nat} {masterBad : Bool} {s : State} : (sigEntryRepair n key masterBad s).top = s.top := by simp [sigEntryRepair]

@[simp] theorem scanStat_top {s : State} {n : Nat} : (scanStat s n).top = s.top := by simp [scanStat]

@[simp] theorem enterPipe_top {s : State} {n : Nat} {f : InFrame} : (enterPipe s n f).top = s.top := by
  simp only [enterPipe]
  split <;> simp

@[simp] theorem scanWindow_top {n : Fin 20} {bad : List Nat} {corr : Nat} {s : State} : (scanWindow n bad corr s).top = s.top := by simp [scanWindow]

/-! ## The functions of Machine/Tables -/

@[simp] theorem tabPut_top {s : State} {t i v : Nat} : (tabPut s t i v).top = s.top := by simp [tabPut]

@[simp] theorem tableEcc_top {s : State} {t key : Nat} : (tableEcc s t key).top = s.top := by simp [tableEcc]

@[simp] theorem actionWord_top {s : State} {key : Nat} : (actionWord s key).top = s.top := by simp [actionWord]

@[simp] theorem actionEcc_top {s : State} {n key : Nat} : (actionEcc s n key).top = s.top := by simp [actionEcc]

@[simp] theorem wordEcc_top {s : State} {t i : Nat} : (wordEcc s t i).top = s.top := by simp [wordEcc]

@[simp] theorem setLpm_top {s : State} {t : Nat} {m : NMap Nat} : (setLpm s t m).top = s.top := by simp [setLpm]

@[simp] theorem hostSet_top {s : State} {b x : Nat} {e : Option HostEnt} : (hostSet s b x e).top = s.top := by
  unfold hostSet
  split <;> simp

@[simp] theorem macSet_top {s : State} {n b x : Nat} {e : Option MacEnt} : (macSet s n b x e).top = s.top := by
  unfold macSet
  split <;> simp

@[simp] theorem macMove_top {s : State} {n b x b' x' : Nat} {e : MacEnt} : (macMove s n b x b' x' e).top = s.top := by simp [macMove]

/-! ## The functions of Machine/TabCmd -/

@[simp] theorem putNode_top {s : State} {c : Nat} {x : NodeSt} : (putNode s c x).top = s.top := (rfl)

@[simp] theorem wheelPlace_top {s : State} {key te : Nat} : (wheelPlace s key te).top = s.top := (rfl)

@[simp] theorem putTe_top {s : State} {c : Nat} {x : NodeSt} : (putTe s c x).top = s.top := by simp [putTe]

@[simp] theorem rescaleNode_top {s : State} {c a b a' b' : Nat} : (rescaleNode s c a b a' b').top = s.top := by simp [rescaleNode]

@[simp] theorem fenceCount_top {s : State} : (fenceCount s).top = s.top := (rfl)

@[simp] theorem afterWrite_top {s0 : State} {fn t i old : Nat} {s : State} : (afterWrite s0 fn t i old s).top = s.top := by
  unfold afterWrite
  split <;> simp

@[simp] theorem directWrite_top {s : State} {fn : Nat} {ins : Bool} {t i v : Nat} : (directWrite s fn ins t i v).s.top = s.top := by
  unfold directWrite
  dsimp only
  (repeat' split) <;> simp

@[simp] theorem directDelete_top {s : State} {fn t i : Nat} : (directDelete s fn t i).s.top = s.top := by
  unfold directDelete
  dsimp only
  split
  · simp
  · split <;> simp

@[simp] theorem directRead_top {s : State} {fn t i : Nat} : (directRead s fn t i).s.top = s.top := by
  unfold directRead
  split <;> simp

@[simp] theorem directSearch_top {s : State} {fn t : Nat} {b : Bytes} : (directSearch s fn t b).s.top = s.top := by
  unfold directSearch
  split
  · simp
  · split <;> simp

@[simp] theorem directNext_top {s : State} {fn t : Nat} {after : Option Nat} : (directNext s fn t after).s.top = s.top := by
  unfold directNext
  dsimp only
  split
  · simp
  · split
    · simp
    · split <;> simp

@[simp] theorem lpmWrite_top {s : State} {fn op t : Nat} {b : Bytes} : (lpmWrite s fn op t b).s.top = s.top := by
  unfold lpmWrite
  dsimp only
  split
  · split <;> simp
  · split <;> simp

@[simp] theorem lpmRead_top {s : State} {fn op t : Nat} {sub : Nat} {b : Bytes} : (lpmRead s fn op t sub b).s.top = s.top := by
  unfold lpmRead
  dsimp only
  split
  · simp
  · split <;> simp

@[simp] theorem rehashEvent_top {s : State} {ev : Nat} {c : HostCmd} {pipe typ b0 b1 : Nat} {key : Bytes} :
    (rehashEvent s ev c pipe typ b0 b1 key).top = s.top := by simp [rehashEvent]

@[simp] theorem hostWrite_top {s : State} {ev op : Nat} {c : HostCmd} : (hostWrite s ev op c).s.top = s.top := by
  unfold hostWrite
  dsimp only
  (repeat' split) <;> simp

@[simp] theorem hostMove_top {s : State} {c : HostCmd} : (hostMove s c).s.top = s.top := by
  unfold hostMove
  dsimp only
  split
  · split
    · split <;> simp
    · simp
  · simp

@[simp] theorem hostRead_top {s : State} {op : Nat} {c : HostCmd} : (hostRead s op c).s.top = s.top := by
  unfold hostRead
  dsimp only
  (repeat' split) <;> simp

@[simp] theorem macWriteOne_top {s : State} {ev op : Nat} {c : HostCmd} {n : Nat} : (macWriteOne s ev op c n).2.top = s.top := by
  unfold macWriteOne
  dsimp only
  (repeat' split) <;> simp

@[simp] theorem macWrite_top {s : State} {ev op : Nat} {c : HostCmd} : (macWrite s ev op c).s.top = s.top := by
  have hall (l : List Nat) (x : List (Option Status) × State) : (l.foldl (fun (acc : List (Option Status) × State) n =>
      if bit (macOp c.opnd).mask n then (acc.1 ++ [some (macWriteOne acc.2 ev op c n).1], (macWriteOne acc.2 ev op c n).2) else (acc.1 ++ [none], acc.2)) x).2.top = x.2.top :=
    foldl_snd_top fun a n => by split <;> simp
  unfold macWrite
  dsimp only
  split
  · rfl
  · exact hall _ _

@[simp] theorem macMoveCmd_top {s : State} {c : HostCmd} : (macMoveCmd s c).s.top = s.top := by
  unfold macMoveCmd
  dsimp only
  split
  · split
    · split <;> simp
    · simp
  · simp

@[simp] theorem macRead_top {s : State} {op : Nat} {c : HostCmd} : (macRead s op c).s.top = s.top := by
  unfold macRead
  dsimp only
  (repeat' split) <;> simp

@[simp] theorem flushStat_top {s : State} : (flushStat s).top = s.top := (rfl)

@[simp] theorem flushTake_top {s : State} {f : Flush} : (flushTake s f).top = s.top := (rfl)

@[simp] theorem flushDrop_top {s : State} {e : Nat × Nat × Nat} : (flushDrop s e).top = s.top := by
  unfold flushDrop
  split <;> simp

@[simp] theorem flushSweep_top {s : State} {f : Flush} {rest : List Flush} : (flushSweep s f rest).1.top = s.top := by simp [flushSweep]

@[simp] theorem writeEng_top {ev op : Nat} {c : HostCmd} {s : State} : (writeEng ev op c s).s.top = s.top := by
  unfold writeEng
  split
  · simp
  · simp
  · simp
  · simp
  · split
    · split <;> simp
    · split <;> simp

@[simp] theorem readEng_top {op : Nat} {c : HostCmd} {s : State} : (readEng op c s).s.top = s.top := by
  unfold readEng
  split
  · simp
  · simp
  · simp
  · simp
  · split
    · simp
    · split <;> simp

@[simp] theorem moveEng_top {c : HostCmd} {s : State} : (moveEng c s).s.top = s.top := by
  unfold moveEng
  split <;> simp

@[simp] theorem mirrorEng_top {c : HostCmd} {s : State} : (mirrorEng c s).s.top = s.top := by
  unfold mirrorEng
  split
  · simp
  · split <;> simp

@[simp] theorem insertEntry_top {c : HostCmd} {s : State} : (insertEntry c s).top = s.top := by simp [insertEntry]

@[simp] theorem deleteEntry_top {c : HostCmd} {s : State} : (deleteEntry c s).top = s.top := by simp [deleteEntry]

@[simp] theorem modify_top {c : HostCmd} {s : State} : (modify c s).top = s.top := by simp [modify]

@[simp] theorem search_top {c : HostCmd} {s : State} : (search c s).top = s.top := by simp [search]

@[simp] theorem nextEntry_top {c : HostCmd} {s : State} : (nextEntry c s).top = s.top := by simp [nextEntry]

@[simp] theorem readEntry_top {c : HostCmd} {s : State} : (readEntry c s).top = s.top := by simp [readEntry]

@[simp] theorem retryAfterMove_top {s : State} {c : HostCmd} : (retryAfterMove s c).top = s.top := by simp [retryAfterMove]

@[simp] theorem move_top {c : HostCmd} {s : State} : (move c s).top = s.top := by simp [move]

@[simp] theorem nop_top {c : HostCmd} {s : State} : (nop c s).top = s.top := by simp [nop]

@[simp] theorem flushByPort_top {c : HostCmd} {s : State} : (flushByPort c s).top = s.top := by simp [flushByPort]

@[simp] theorem flushByPortDone_top {s : State} : (flushByPortDone s).top = s.top := by
  unfold flushByPortDone
  dsimp only
  split
  · simp
  · split <;> simp

/-! ## The functions of Machine/Lookup -/

@[simp] theorem busPut_top {s : State} {x : BusMsg} : (busPut s x).top = s.top := by simp [busPut]

@[simp] theorem busSend_top {s : State} {n : Nat} {refresh : Bool} {bd mac res : Nat} : (busSend s n refresh bd mac res).top = s.top := by simp [busSend]

@[simp] theorem learnNew_top {s : State} {n bd mac res : Nat} {shared : Bool} : (learnNew s n bd mac res shared).2.top = s.top := by
  unfold learnNew
  dsimp only
  split
  · simp
  · split <;> simp

@[simp] theorem learnShared_top {s : State} {x : BusMsg} : (learnShared s x).top = s.top := by
  simp only [learnShared]
  split <;> simp

@[simp] theorem learnOwn_top {s : State} {n bd mac res : Nat} : (learnOwn s n bd mac res).2.top = s.top := by
  unfold learnOwn
  split
  · simp
  · split
    · split <;> simp
    · split <;> simp

@[simp] theorem learnBusMsg_top {s : State} : (learnBusMsg s).top = s.top := by
  unfold learnBusMsg
  split <;> simp

@[simp] theorem learnRefreshMsg_top {s : State} : (learnRefreshMsg s).top = s.top := by
  unfold learnRefreshMsg
  dsimp only
  split
  · simp
  · split
    · simp
    · split
      · simp
      · split <;> simp

@[simp] theorem ageEntry_top {s : State} {n : Nat} {k : Nat} {e : MacEnt} : (ageEntry s n k e).top = s.top := by simp [ageEntry]

@[simp] theorem ageSweep_top {n : Fin 20} {t : Fin 256} {s : State} : (ageSweep n t s).top = s.top := by simp [ageSweep]

@[simp] theorem trieNodeRebuild_top {s : State} : (trieNodeRebuild s).top = s.top := (rfl)

@[simp] theorem hitFwd_top {s : State} {x : Hit} {h : Nat} : (hitFwd s x h).2.top = s.top := by
  unfold hitFwd
  dsimp only
  split
  · split <;> simp
  · split <;> simp
  · simp
  · simp

@[simp] theorem forwardLookup_top {s : State} {n : Nat} {f : InFrame} {r : PRec} {bd h : Nat} : (forwardLookup s n f r bd h).2.top = s.top := by
  unfold forwardLookup
  dsimp only
  (repeat' split) <;> simp

@[simp] theorem fwdL2_top {s : State} {n bd : Nat} {r : PRec} {h : Nat} : (fwdL2 s n bd r h).2.top = s.top := by
  unfold fwdL2
  split
  · next heq => simpa using top_of_pair heq hitFwd_top
  · exact hitFwd_top

@[simp] theorem fragStat_top {s : State} {n : Nat} : (fragStat s n).top = s.top := by simp [fragStat]

@[simp] theorem fragPut_top {s : State} {n set : Nat} {l : List FragEnt} : (fragPut s n set l).top = s.top := by simp [fragPut]

@[simp] theorem fragEntryAge_top {n : Fin 20} {set : Fin 1024} {i : Fin 4} {s : State} : (fragEntryAge n set i s).top = s.top := by
  simp only [fragEntryAge]
  split <;> simp

@[simp] theorem fragEmpty_top {s : State} {n : Nat} : (fragEmpty s n).top = s.top := by simp [fragEmpty]

@[simp] theorem fragFlush_top {n : Fin 20} {s : State} : (fragFlush n s).top = s.top := by simp [fragFlush]

/-! ## The functions of Machine/Scratch -/

@[simp] theorem scrPut_top {s : State} {m w v : Nat} {e : EccErr} : (scrPut s m w v e).top = s.top := (rfl)

@[simp] theorem scrWrite_top {s : State} {m w v : Nat} : (scrWrite s m w v).top = s.top := by simp [scrWrite]

@[simp] theorem scrCapture_top {s : State} {uncorr rmw : Bool} {loc : Nat} : (scrCapture s uncorr rmw loc).top = s.top := (rfl)

@[simp] theorem scrCorrect_top {s : State} {m w col : Nat} {rmw : Bool} : (scrCorrect s m w col rmw).top = s.top := by simp [scrCorrect]

@[simp] theorem scrBadRead_top {s : State} {m w : Nat} {e : EccErr} : (scrBadRead s m w e).top = s.top := by simp [scrBadRead]

@[simp] theorem scrRead_top {s : State} {m w : Nat} : (scrRead s m w).2.2.top = s.top := by
  unfold scrRead
  split <;> simp

@[simp] theorem scrRmw_top {s : State} {m w : Nat} {f : Nat → Nat} : (scrRmw s m w f).2.2.top = s.top := by
  unfold scrRmw
  split <;> simp

@[simp] theorem scrModify_top {s : State} {m w : Nat} {f : Nat → Nat} : (scrModify s m w f).top = s.top := by simp [scrModify]

@[simp] theorem scrPipeOp_top {s : State} {n a : Nat} {x : ScrIn} : (scrPipeOp s n a x).top = s.top := by simp [scrPipeOp]

@[simp] theorem sharedScratchOp_top {bank : Fin 32} {s : State} : (sharedScratchOp bank s).top = s.top := by
  unfold sharedScratchOp
  split <;> simp

@[simp] theorem scrHalfWrite_top {s : State} {addr m w : Nat} {hi : Bool} {v : Nat} : (scrHalfWrite s addr m w hi v).top = s.top := by simp [scrHalfWrite]

@[simp] theorem scrFlushHeld_top {s : State} : (scrFlushHeld s).top = s.top := by
  unfold scrFlushHeld
  split <;> simp

@[simp] theorem scrWindowWrite_top {addr v : Nat} {s : State} : (scrWindowWrite addr v s).top = s.top := operWrite_top fun s => by
  split
  · simp
  · dsimp only
    (repeat' split) <;> simp

@[simp] theorem scrWindowRead_top {s : State} {addr : Nat} : (scrWindowRead s addr).2.top = s.top := by
  unfold scrWindowRead
  dsimp only
  split
  · simp
  · split
    · simp
    · split
      · simp
      · split <;> simp

@[simp] theorem scrAlias_top {set : Bool} {addr v : Nat} {s : State} : (scrAlias set addr v s).top = s.top := operWrite_top fun s => by split <;> simp

@[simp] theorem scrAliasSet_top {addr v : Nat} {s : State} : (scrAliasSet addr v s).top = s.top := by simp [scrAliasSet]

@[simp] theorem scrAliasClear_top {addr v : Nat} {s : State} : (scrAliasClear addr v s).top = s.top := by simp [scrAliasClear]

@[simp] theorem scrAtomic_top {v : Nat} {act : State → Nat → Nat → Nat → Nat × Bool × State} {s : State} (hact : ∀ t i j k, (act t i j k).2.2.top = t.top) :
    (scrAtomic v act s).top = s.top := by simp [scrAtomic, hact]

@[simp] theorem atomAdd_top {s : State} {m w o : Nat} : (atomAdd s m w o).2.2.top = s.top := by simp [atomAdd]

@[simp] theorem atomSwap_top {s : State} {m w o : Nat} : (atomSwap s m w o).2.2.top = s.top := by simp [atomSwap]

@[simp] theorem scrAtomGo_top {v : Nat} {s : State} : (scrAtomGo v s).top = s.top := by
  unfold scrAtomGo
  split <;> simp

@[simp] theorem scrRepair_top {s0 : State} {m w : Nat} : (scrRepair s0 m w).top = s0.top := by simp [scrRepair]

@[simp] theorem scrTestWord_top {m : Nat} {fails : List Nat} {s : State} {w : Nat} : (scrTestWord m fails s w).top = s.top := by
  unfold scrTestWord
  dsimp only
  split
  · split <;> simp
  · split <;> simp

@[simp] theorem scrTestStep_top {m : Fin 21} {fails : List Nat} {s : State} : (scrTestStep m fails s).top = s.top := by simp [scrTestStep]

/-! ## The functions of Machine/Action -/

@[simp] theorem bucketTake_top {s : State} {key rate least : Nat} : (bucketTake s key rate least).2.top = s.top := (rfl)

@[simp] theorem toHostTake_top {s : State} {n : Nat} : (toHostTake s n).2.top = s.top := by simp [toHostTake]

@[simp] theorem polFill_top {s : State} {i : Nat} : (polFill s i).top = s.top := by simp [polFill]

@[simp] theorem polEcc_top {s : State} {i : Nat} : (polEcc s i).top = s.top := by simp [polEcc]

@[simp] theorem meter_top {s : State} {i len : Nat} {dei : Bool} : (meter s i len dei).2.top = s.top := by
  unfold meter
  dsimp only
  split
  · simp
  · split <;> simp

@[simp] theorem policerSweep_top {s : State} : (policerSweep s).top = s.top := by simp [policerSweep]

@[simp] theorem defaultAct_top {s : State} {c : PassCtx} {act reason : Nat} : (defaultAct s c act reason).2.top = s.top := by
  unfold defaultAct
  split
  · split <;> (next heq => exact top_of_pair heq fwdL2_top)
  · dsimp only
    split <;> simp
  · rfl

@[simp] theorem keepWay_top {s : State} {c : PassCtx} : (keepWay s c).2.top = s.top := by
  unfold keepWay
  split
  · simp
  · split <;> simp

@[simp] theorem fwdWay_top {s : State} {c : PassCtx} {v : Nat} : (fwdWay s c v).2.top = s.top := by
  unfold fwdWay
  dsimp only
  (repeat' split) <;> simp

@[simp] theorem limitWay_top {s : State} {c : PassCtx} {w : Way} : (limitWay s c w).2.top = s.top := by
  unfold limitWay
  split
  · split <;> simp
  · simp

@[simp] theorem ttlWay_top {s : State} {c : PassCtx} {v : Nat} {w : Way} : (ttlWay s c v w).2.top = s.top := by
  unfold ttlWay
  dsimp only
  (repeat' split) <;> simp

@[simp] theorem policeWay_top {s : State} {c : PassCtx} {v : Nat} {w : Way} : (policeWay s c v w).2.2.top = s.top := by
  unfold policeWay
  dsimp only
  split
  · simp
  · split
    · simp
    · split <;> simp

@[simp] theorem countStep_top {s : State} {c : PassCtx} {v : Nat} : (countStep s c v).top = s.top := by simp [countStep]

@[simp] theorem sampleStep_top {s : State} {c : PassCtx} {v : Nat} {dropped : Bool} : (sampleStep s c v dropped).2.top = s.top := by
  unfold sampleStep
  dsimp only
  split
  · simp
  · split <;> simp

@[simp] theorem hallPut_top {s : State} {n : Nat} {l : List HallEnt} : (hallPut s n l).top = s.top := by simp [hallPut]

@[simp] theorem hallArrive_top {s : State} {n : Nat} {f : InFrame} {cls : Nat} {h : HallFrame} : (hallArrive s n f cls h).top = s.top := by simp [hallArrive]

@[simp] theorem recircPut_top {s : State} {n : Nat} {l : List InFrame} : (recircPut s n l).top = s.top := by simp [recircPut]

@[simp] theorem recircStep_top {s : State} {c : PassCtx} {v cls colour arg : Nat} {label : LabelOp} {mir : Option Nat} {smp : Option HostFrame} :
    (recircStep s c v cls colour arg label mir smp).top = s.top := by simp [recircStep]

@[simp] theorem actionLost_top {s : State} {c : PassCtx} : (actionLost s c).top = s.top := by simp [actionLost]

@[simp] theorem actionStage_top {s : State} {c : PassCtx} : (actionStage s c).top = s.top := by
  unfold actionStage
  dsimp only
  (repeat' split) <;> simp

@[simp] theorem fragLookup_top {s : State} {n bd : Nat} {b : Bytes} {r : PRec} {bad : Bool} : (fragLookup s n bd b r bad).2.top = s.top := by
  unfold fragLookup
  dsimp only
  split
  · simp
  · split
    · split <;> simp
    · split <;> simp
  · simp
  · simp
  · simp

@[simp] theorem fragStore_top {s : State} {c : PassCtx} {set key : Nat} : (fragStore s c set key).top = s.top := by simp [fragStore]

theorem passHead_top {s : State} {n : Nat} {v0 : InFrame} {v1 : State} (h : passHead s n = some (v0, v1)) : v1.top = s.top := by
  unfold passHead at h
  split at h
  · cases h
    rfl
  · split at h
    · split at h
      · cases h
      · cases h
        rfl
    · cases h

@[simp] theorem parseCounts_top {s : State} {n p : Nat} {d : PDone} {first probe : Bool} : (parseCounts s n p d first probe).top = s.top := by simp [parseCounts]

@[simp] theorem findBad_top {s : State} {bad : List Nat} {trie : Option Nat} {r : PRec} {bd : Nat} : (findBad s bad trie r bd).top = s.top := by
  unfold findBad
  split <;> simp

@[simp] theorem passLearn_top {s : State} {n p bd : Nat} {r : PRec} : (passLearn s n p bd r).2.top = s.top := by
  simp only [passLearn]
  split <;> simp

@[simp] theorem lookupCounts_top {s : State} {n p t k len : Nat} {probe : Bool} : (lookupCounts s n p t k len probe).top = s.top := by simp [lookupCounts]

@[simp] theorem passClassify_top {s : State} {n key : Nat} : (passClassify s n key).2.top = s.top := by
  unfold passClassify
  split
  · simp
  · split <;> simp

@[simp] theorem lookedPut_top {s : State} {c : PassCtx} : (lookedPut s c).top = s.top := (rfl)

@[simp] theorem passFailed_top {s : State} {n : Nat} {f : InFrame} {r : PRec} : (passFailed s n f r).top = s.top := by simp [passFailed]

@[simp] theorem passLookup_top {s : State} {n : Nat} {f : InFrame} {r : PRec} {prof : Prof} {fragBad : Bool} : (passLookup s n f r prof fragBad).top = s.top := by
  unfold passLookup
  dsimp only
  split
  · split <;> simp
  · split
    · split <;> simp
    · split <;> simp

@[simp] theorem probeStep_top {s : State} {c : PassCtx} {q : Nat} : (probeStep s c q).top = s.top := by simp [probeStep]

@[simp] theorem passAct_top {s : State} {c : PassCtx} : (passAct s c).top = s.top := by
  unfold passAct
  split <;> simp

@[simp] theorem passDrain_top {n : Nat} {i : Nat} {s : State} : (passDrain n i s).top = s.top := by
  induction i generalizing s with
  | zero => rfl
  | succ k ih =>
    unfold passDrain
    split <;> simp [ih]

@[simp] theorem passFront_top {n : Nat} {bad : List Nat} {trie : Option Nat} {fragBad : Bool} {s : State} : (passFront n bad trie fragBad s).top = s.top := by
  unfold passFront
  split
  · rfl
  · next h =>
    dsimp only
    split <;> simp [passHead_top h]

@[simp] theorem ingressPass_top {n : Fin 20} {bad : List Nat} {trie : Option Nat} {fragBad hold : Bool} {s : State} :
    (ingressPass n bad trie fragBad hold s).top = s.top := by simp [ingressPass]

@[simp] theorem recircSlot_top {n : Fin 20} {s : State} : (recircSlot n s).top = s.top := by
  unfold recircSlot
  dsimp only
  split
  · simp
  · split <;> simp

/-! ## The functions of Machine/Ramp -/

@[simp] theorem rampStart_top {s : State} {ks : List Nat} {up : Bool} : (rampStart s ks up).top = s.top := (rfl)

@[simp] theorem rampOne_top {s : State} {k : Nat} {up : Bool} : (rampOne s k up).top = s.top := (rfl)

@[simp] theorem branchRamp_top {s : State} {n st : Nat} : (branchRamp s n st).top = s.top := by simp [branchRamp]

@[simp] theorem relockDiscards_top {s : State} {r : Nat} : (relockDiscards s r).2.top = s.top := by
  unfold relockDiscards
  dsimp only
  split
  · split <;> simp
  · simp

@[simp] theorem loopPut_top {s : State} {x : Nat} {b : Bytes} : (loopPut s x b).top = s.top := (rfl)

@[simp] theorem loopDrop_top {s : State} {x : Nat} : (loopDrop s x).top = s.top := (rfl)

theorem loopTake_top {s : State} {x : Nat} {b : Bytes} {t : State} (h : loopTake s x b = some t) : t.top = s.top := by
  unfold loopTake at h
  split at h
  · cases h
  · split at h <;> cases h
    rfl

/-! ## The functions of Machine/Line -/

@[simp] theorem ballsCarry_top {s : State} {p : Nat} {b : Bytes} : (ballsCarry s p b).top = s.top := (rfl)

@[simp] theorem lineTx_top {s : State} {p : Nat} {b : Bytes} : (lineTx s p b).top = s.top := by
  unfold lineTx
  split <;> simp

theorem lineRx_top {s : State} {p : Nat} {b : Bytes} {t : State} (h : lineRx s p b = some t) : t.top = s.top := by
  unfold lineRx at h
  split at h
  · cases h
    rfl
  · cases h
    simp
  · cases h
  · exact loopTake_top h

@[simp] theorem sendLine_top {s : State} {p : Nat} {b : Bytes} : (sendLine s p b).top = s.top := by simp [sendLine]

@[simp] theorem sendXoff_top {s : State} {p mask : Nat} : (sendXoff s p mask).top = s.top := by simp [sendXoff]

@[simp] theorem xoffChange_top {s : State} {p new : Nat} : (xoffChange s p new).top = s.top := by simp [xoffChange]

@[simp] theorem discardStaged_top {s : State} {p : Nat} : (discardStaged s p).top = s.top := by simp [discardStaged]

@[simp] theorem faultShow_top {s : State} {p : Nat} : (faultShow s p).top = s.top := by simp [faultShow]

@[simp] theorem xoffPay_top {s : State} {p : Nat} : (xoffPay s p).top = s.top := by simp [xoffPay]

@[simp] theorem linkUpdate_top {s : State} {p : Nat} : (linkUpdate s p).top = s.top := by simp [linkUpdate]

@[simp] theorem trainStart_top {s : State} {p : Nat} : (trainStart s p).top = s.top := (rfl)

@[simp] theorem trainStop_top {s : State} {p : Nat} : (trainStop s p).top = s.top := (rfl)

@[simp] theorem txEnter_top {s : State} {p old new : Nat} : (txEnter s p old new).top = s.top := by simp [txEnter]

@[simp] theorem txUpdate_top {s : State} {p : Nat} : (txUpdate s p).top = s.top := by simp [txUpdate]

@[simp] theorem txSettleGroup_top {s : State} {g : Nat} : (txSettleGroup s g).top = s.top := by simp [txSettleGroup]

@[simp] theorem synceSquelch_top {s : State} : (synceSquelch s).top = s.top := by simp [synceSquelch]

@[simp] theorem lockLost_top {s : State} {l : List Nat} : (lockLost s l).top = s.top := by simp [lockLost]

@[simp] theorem lockHeld_top {s : State} {l : List Nat} : (lockHeld s l).top = s.top := by simp [lockHeld]

@[simp] theorem synceResume_top {k : Fin 2} {s : State} : (synceResume k s).top = s.top := by simp [synceResume]

@[simp] theorem lineLaneCalibration_top {g : Fin 20} {l : Fin 8} {ok : Bool} {s : State} : (lineLaneCalibration g l ok s).top = s.top := by simp [lineLaneCalibration]

@[simp] theorem linkTrainingDone_top {p : Fin 160} {ok : Bool} {s : State} : (linkTrainingDone p ok s).top = s.top := by simp [linkTrainingDone]

@[simp] theorem linkTrainingRetry_top {p : Fin 160} {s : State} : (linkTrainingRetry p s).top = s.top := by simp [linkTrainingRetry]

@[simp] theorem retrainStart_top {s : State} {p : Nat} : (retrainStart s p).top = s.top := by simp [retrainStart]

@[simp] theorem pwfAbsent_top {s : State} {addr data : Nat} : (pwfAbsent s addr data).top = s.top := by simp [pwfAbsent]

@[simp] theorem retrain_top {p : Fin 160} {s : State} : (retrain p s).top = s.top := by simp [retrain]

@[simp] theorem adminSet_top {s : State} {p v : Nat} : (adminSet s p v).top = s.top := by simp [adminSet]

@[simp] theorem admin_top {p : Fin 160} {v : Nat} {s : State} : (admin p v s).top = s.top := by simp [admin]

@[simp] theorem linkFault_top {s : State} {p k : Nat} {f : Nat → Fld} {src : Nat} {on : Bool} : (linkFault s p k f src on).top = s.top := by simp [linkFault]

@[simp] theorem linkFaultDetect_top {p : Fin 160} {lanes : Fin 256} {s : State} : (linkFaultDetect p lanes s).top = s.top := by simp [linkFaultDetect]

@[simp] theorem linkFaultClear_top {p : Fin 160} {s : State} : (linkFaultClear p s).top = s.top := by simp [linkFaultClear]

@[simp] theorem remoteFaultReceived_top {p : Fin 160} {s : State} : (remoteFaultReceived p s).top = s.top := by simp [remoteFaultReceived]

@[simp] theorem remoteFaultClear_top {p : Fin 160} {s : State} : (remoteFaultClear p s).top = s.top := by simp [remoteFaultClear]

@[simp] theorem pauseSet_top {s : State} {p mask q : Nat} : (pauseSet s p mask q).top = s.top := (rfl)

@[simp] theorem violation_top {s : State} {p k : Nat} : (violation s p k).top = s.top := by simp [violation]

@[simp] theorem quanta_top {p mask q : Nat} {s : State} : (quanta p mask q s).top = s.top := by simp [quanta]

@[simp] theorem macControl_top {s : State} {p : Nat} {b : Bytes} : (macControl s p b).top = s.top := by simp [macControl]

@[simp] theorem macControlFrame_top {p : Fin 160} {b : Bytes} {s : State} : (macControlFrame p b s).top = s.top := by
  unfold macControlFrame
  split
  · rfl
  · split
    · next h => simp [lineRx_top h]
    · rfl

@[simp] theorem pauseTimerExpire_top {p : Fin 160} {k : Fin 8} {s : State} : (pauseTimerExpire p k s).top = s.top := by simp [pauseTimerExpire]

@[simp] theorem pfcRefresh_top {p : Fin 160} {s : State} : (pfcRefresh p s).top = s.top := by simp [pfcRefresh]

@[simp] theorem stormBegin_top {s : State} {p k : Nat} : (stormBegin s p k).top = s.top := by simp [stormBegin]

@[simp] theorem pfcStormRestore_top {p : Fin 160} {k : Fin 8} {s : State} : (pfcStormRestore p k s).top = s.top := by simp [pfcStormRestore]

/-! ## The functions of Machine/LineRx -/

@[simp] theorem stairPut_top {s : State} {n : Nat} {l : List Arrival} : (stairPut s n l).top = s.top := (rfl)

@[simp] theorem slowFrame_top {s : State} {p : Nat} {b : Bytes} : (slowFrame s p b).top = s.top := by simp [slowFrame]

@[simp] theorem rxGood_top {s : State} {p : Nat} {b : Bytes} : (rxGood s p b).top = s.top := by simp [rxGood]

@[simp] theorem rxFrame_top {s : State} {p : Nat} {b : Bytes} {preambleOk pcsErr fecErr : Bool} : (rxFrame s p b preambleOk pcsErr fecErr).top = s.top := by
  unfold rxFrame
  split
  · simp
  · split
    · simp
    · split
      · simp
      · split
        · simp
        · split <;> simp

@[simp] theorem lineFrameReceive_top {p : Fin 160} {b : Bytes} {preambleOk pcsErr fecErr : Bool} {fecCorr fecUnc : Nat} {s : State} :
    (lineFrameReceive p b preambleOk pcsErr fecErr fecCorr fecUnc s).top = s.top := by
  unfold lineFrameReceive
  split
  · rfl
  · dsimp only
    split
    · simp
    · split
      · next h => simp [lineRx_top h]
      · simp

@[simp] theorem pfcStormDetect_top {p : Fin 160} {k : Fin 8} {s : State} : (pfcStormDetect p k s).top = s.top := by simp [pfcStormDetect]

/-! ## The functions of Machine/Hall -/

@[simp] theorem mirSend_top {s : State} {n key m src rxNs sig : Nat} {b : Bytes} : (mirSend s n key m src rxNs sig b).top = s.top := by
  unfold mirSend
  split <;> simp

@[simp] theorem hallMirrors_top {s : State} {n port : Nat} {h : HallFrame} : (hallMirrors s n port h).top = s.top := by simp [hallMirrors]

@[simp] theorem hallSample_top {s : State} {n : Nat} {x : HostFrame} : (hallSample s n x).top = s.top := by simp [hallSample]

@[simp] theorem hallForward_top {s : State} {n port : Nat} {h : HallFrame} : (hallForward s n port h).top = s.top := by
  unfold hallForward
  split <;> simp

@[simp] theorem hallRelease_top {n : Fin 20} {s : State} : (hallRelease n s).top = s.top := by
  unfold hallRelease
  dsimp only
  split
  · simp
  · split <;> simp

/-! ## The functions of Machine/Buffers -/

@[simp] theorem putQueue_top {s : State} {q : Nat} {x : Queue} : (putQueue s q x).top = s.top := (rfl)

@[simp] theorem markCross_top {s : State} {m : Mark} : (markCross s m).top = s.top := by simp [markCross]

@[simp] theorem markFollow_top {s : State} {m : Mark} {lvl : Bool} {val : Nat} : (markFollow s m lvl val).top = s.top := by simp [markFollow]

@[simp] theorem monitor_top {s : State} {m : Nat} : (monitor s m).top = s.top := by simp [monitor]

@[simp] theorem queueMarks_top {s : State} {q : Nat} : (queueMarks s q).top = s.top := by simp [queueMarks]

@[simp] theorem setThreshold_top {s : State} {r k w : Nat} : (setThreshold s r k w).top = s.top := (rfl)

@[simp] theorem poolFollow_top {s : State} {r k : Nat} : (poolFollow s r k).top = s.top := by simp [poolFollow]

@[simp] theorem pfcFollow_top {s : State} {p k : Nat} : (pfcFollow s p k).top = s.top := (rfl)

@[simp] theorem xoffFollow_top {s : State} {p : Nat} : (xoffFollow s p).top = s.top := by simp [xoffFollow]

@[simp] theorem bkpFollow_top {s : State} : (bkpFollow s).top = s.top := by simp [bkpFollow]

@[simp] theorem bufFollow_top {s : State} {r k p c : Nat} : (bufFollow s r k p c).top = s.top := by simp [bufFollow]

@[simp] theorem dropCount_top {s : State} {q k : Nat} : (dropCount s q k).top = s.top := by
  unfold dropCount
  split <;> simp

@[simp] theorem avgUpdate_top {s : State} {q w : Nat} : (avgUpdate s q w).top = s.top := (rfl)

@[simp] theorem wredTest_top {s : State} {q w c : Nat} : (wredTest s q w c).2.top = s.top := by
  unfold wredTest
  dsimp only
  split
  · simp
  · split
    · simp
    · split <;> simp

@[simp] theorem congestion_top {s : State} {q colour b : Nat} : (congestion s q colour b).2.top = s.top := by
  unfold congestion
  dsimp only
  split
  · simp
  · split <;> simp

@[simp] theorem wqPut_top {s : State} {i : Nat} {l : List WLine} : (wqPut s i l).top = s.top := by simp [wqPut]

@[simp] theorem allocate_top {s : State} {q : Nat} {x : Buf} {lines : List Nat} : (allocate s q x lines).2.top = s.top := by
  unfold allocate
  split <;> simp

@[simp] theorem enqueue_top {s : State} {q : Nat} {d : Desc} {marked : Bool} : (enqueue s q d marked).top = s.top := by simp [enqueue]

@[simp] theorem diDrained_top {s : State} {i : Nat} : (diDrained s i).top = s.top := by simp [diDrained]

@[simp] theorem releaseBuf_top {s : State} {h : Nat} : (releaseBuf s h).top = s.top := by
  unfold releaseBuf
  split <;> simp

@[simp] theorem popHead_top {s : State} {q : Nat} : (popHead s q).2.top = s.top := by
  simp only [popHead]
  split <;> simp

@[simp] theorem drainQueue_top {count : State → State} {k : Nat} {s : State} {i : Nat} (hcount : ∀ t, (count t).top = t.top) : (drainQueue count k s i).top = s.top := by
  induction k generalizing s with
  | zero => rfl
  | succ n ih =>
    unfold drainQueue
    split
    · next heq => simpa [ih, hcount] using top_of_pair heq popHead_top
    · rfl

@[simp] theorem flushQueue_top {s : State} {q : Nat} {count : State → State} (hcount : ∀ t, (count t).top = t.top) :
    (flushQueue s q count).top = s.top := drainQueue_top hcount

@[simp] theorem sendRequest_top {s : State} {port cls n : Nat} : (sendRequest s port cls n).top = s.top := by simp [sendRequest]

@[simp] theorem voqRequest_top {n : Nat} {s : State} {i : Nat} : (voqRequest n s i).top = s.top := by
  induction n generalizing s with
  | zero => rfl
  | succ k ih =>
    unfold voqRequest
    dsimp only
    split <;> simp [ih]

@[simp] theorem voqAsk_top {s : State} {q : Nat} : (voqAsk s q).top = s.top := by simp [voqAsk]

@[simp] theorem refusedCopy_top {s : State} {n req : Nat} : (refusedCopy s n req).top = s.top := by simp [refusedCopy]

@[simp] theorem flushArrival_top {s : State} {q n : Nat} : (flushArrival s q n).top = s.top := by simp [flushArrival]

@[simp] theorem takeIn_top {s : State} {q : Nat} {x : Buf} {stored : Nat} {sramOnly : Bool} {lines : List Nat} : (takeIn s q x stored sramOnly lines).2.top = s.top := by
  unfold takeIn
  split
  · simp
  · simp
  · split
    · next heq => simpa using top_of_pair heq congestion_top
    · next heq =>
      have hs1 := top_of_pair heq congestion_top
      split <;> simpa using hs1

@[simp] theorem arriveOne_top {s : State} {a : Arrival} {q sysPort : Nat} : (arriveOne s a q sysPort).2.top = s.top := by
  unfold arriveOne
  dsimp only
  split <;> (next heq => simpa using top_of_pair heq takeIn_top)

@[simp] theorem sharedAttach_top {s : State} {q : Nat} {nh : Option Nat} {mark : Bool} {h : Nat} : (sharedAttach s q nh mark h).top = s.top := by simp [sharedAttach]

@[simp] theorem sharedTarget_top {x : Buf} {k stored : Nat} {st : State × Option Nat × List Waiting} {t : Nat × Option Nat} :
    (sharedTarget x k stored st t).1.top = st.1.top := by
  obtain ⟨s, have_, wait⟩ := st
  unfold sharedTarget
  dsimp only
  split
  · simp
  · split
    · next heq => simpa using top_of_pair heq congestion_top
    · next heq =>
      have hs1 := top_of_pair heq congestion_top
      split
      · exact hs1
      · split
        · exact hs1
        · simpa using hs1

@[simp] theorem sharedAdmit_top {s : State} {x : Buf} {stored : Nat} {targets : List (Nat × Option Nat)} : (sharedAdmit s x stored targets).2.2.top = s.top := by
  unfold sharedAdmit
  split
  · exact foldl_top fun a t => by split <;> simp
  · dsimp only
    split <;> simp

@[simp] theorem sharedPlace_top {s : State} {h : Nat} {l : List Waiting} : (sharedPlace s h l).top = s.top := by simp [sharedPlace]

@[simp] theorem enqueueWhole_top {s : State} {q : Nat} {d : Desc} {mark : Bool} : (enqueueWhole s q d mark).top = s.top := by
  unfold enqueueWhole
  split <;> simp

@[simp] theorem sharedWhole_top {s : State} {h : Nat} {l : List Waiting} : (sharedWhole s h l).top = s.top := by
  have hattach : (l.foldl (fun a w => match shutSlice a w.q with | some n => flushArrival a w.q n | none => sharedAttach a w.q w.nh w.mark h) s).top = s.top :=
    foldl_top fun a w => by split <;> simp
  unfold sharedWhole
  dsimp only
  split
  · split
    · exact releaseBuf_top.trans hattach
    · exact hattach
  · exact hattach

@[simp] theorem arriveShared_top {s : State} {a : Arrival} {targets : List (Nat × Option Nat)} : (arriveShared s a targets).top = s.top := by
  unfold arriveShared
  split <;> (next heq => simpa using top_of_triple heq sharedAdmit_top)

@[simp] theorem arriveSample_top {s : State} {n : Nat} {a : Arrival} {rcd : HostFrame} : (arriveSample s n a rcd).top = s.top := by
  unfold arriveSample
  split
  · simp
  · split
    · rw [refusedCopy_top]
      split <;> simp
    · simp

@[simp] theorem arriveProbe_top {s : State} {a : Arrival} {q : Nat} : (arriveProbe s a q).top = s.top := by
  unfold arriveProbe
  split
  · split
    · split <;> simp
    · simp
  · simp
  · simp

@[simp] theorem probeEnd_top {s : State} {q : Nat} {x : Probe} : (probeEnd s q x).top = s.top := by
  unfold probeEnd
  split <;> simp

@[simp] theorem arrive_top {s : State} {n : Nat} {a : Arrival} : (arrive s n a).top = s.top := by
  unfold arrive
  split
  · simp
  · split
    · split <;> simp
    · simp
    · simp
    · simp

@[simp] theorem bufferArrival_top {lane : Fin 52} {s : State} : (bufferArrival lane s).top = s.top := by
  unfold bufferArrival
  split <;> simp

@[simp] theorem wmCrossedClear_top {monitorNotPool : Bool} {i : Nat} {s : State} : (wmCrossedClear monitorNotPool i s).top = s.top := by simp [wmCrossedClear]

/-- Writing CGM_QWM_CFG: the monitor starts anew, and evaluates where EN is written 1. -/
def monitorAnew (m : Fin 4096) (v : Nat) (s : State) : State :=
  if flag (monitorWritten s m v) (Reg.CGM_QWM_CFG_EN m) then monitor (monitorWritten s m v) m else monitorWritten s m v

theorem qwmConfig_eq (m : Fin 4096) (v : Nat) (s : State) : qwmConfig m v s = operWrite s (Reg.CGM_QWM_CFG m) v (monitorAnew m v) := rfl

theorem monitorWritten_top {s : State} {m v : Nat} : (monitorWritten s m v).top = s.top := by
  unfold monitorWritten
  simp only [wr_top]

theorem monitorAnew_top {m : Fin 4096} {v : Nat} {s : State} : (monitorAnew m v s).top = s.top := by
  unfold monitorAnew
  split
  · exact monitor_top.trans monitorWritten_top
  · exact monitorWritten_top

@[simp] theorem qwmConfig_top {m : Fin 4096} {v : Nat} {s : State} : (qwmConfig m v s).top = s.top := by
  rw [qwmConfig_eq]
  exact operWrite_top fun _ => monitorAnew_top

/-! ## The functions of Machine/Fab -/

@[simp] theorem putRx_top {s : State} {g l : Nat} {x : RxLane} : (putRx s g l x).top = s.top := (rfl)

@[simp] theorem putTx_top {s : State} {g l : Nat} {x : TxLane} : (putTx s g l x).top = s.top := (rfl)

@[simp] theorem carvCarry_top {s : State} {k : Nat} {b : Bytes} : (carvCarry s k b).top = s.top := (rfl)

@[simp] theorem carvTx_top {s : State} {k loop_ : Nat} {b : Bytes} : (carvTx s k loop_ b).top = s.top := by
  unfold carvTx
  split <;> simp

theorem carvRx_top {s : State} {k loop_ : Nat} {b : Bytes} {t : State} (h : carvRx s k loop_ b = some t) : t.top = s.top := by
  unfold carvRx at h
  split at h
  · cases h
    rfl
  · cases h
    simp
  · exact loopTake_top h

@[simp] theorem setWtr_top {s : State} {w : Option (Nat × Nat)} : (setWtr s w).top = s.top := (rfl)

@[simp] theorem wtrFollow_top {s t : State} : (wtrFollow s t).top = t.top := by
  unfold wtrFollow
  split
  · simp
  · split <;> simp

@[simp] theorem pmDefect_top {s : State} {k : Nat} : (pmDefect s k).top = s.top := (rfl)

@[simp] theorem laneEmpty_top {s : State} {g l : Nat} : (laneEmpty s g l).top = s.top := by simp [laneEmpty]

@[simp] theorem fabTrainStop_top {s : State} {g : Nat} : (fabTrainStop s g).top = s.top := by simp [fabTrainStop]

@[simp] theorem fabTxUpdate_top {s : State} {g : Nat} : (fabTxUpdate s g).top = s.top := by simp [fabTxUpdate]

@[simp] theorem groupLevels_top {s : State} {g : Nat} : (groupLevels s g).top = s.top := by simp [groupLevels]

@[simp] theorem groupFollow_top {s : State} {g : Nat} : (groupFollow s g).top = s.top := by simp [groupFollow]

@[simp] theorem fabFollow_top {s t : State} : (fabFollow s t).top = t.top := by simp [fabFollow]

@[simp] theorem fabFollowGroup_top {s t : State} {g : Nat} : (fabFollowGroup s t g).top = t.top := by simp [fabFollowGroup]

/-! ## The functions of Machine/GalLane -/

@[simp] theorem galPut_top {s : State} {l : Nat} {x : RxLane} : (galPut s l x).top = s.top := (rfl)

@[simp] theorem pairShow_top {s : State} : (pairShow s).top = s.top := by simp [pairShow]

@[simp] theorem galSeqNext_top {s : State} {k : Nat} : (galSeqNext s k).top = s.top := (rfl)

@[simp] theorem galControl_top {s : State} {body : List Nat} : (galControl s body).top = s.top := (rfl)

@[simp] theorem replayStart_top {s : State} : (replayStart s).top = s.top := (rfl)

@[simp] theorem resyncAsk_top {s : State} : (resyncAsk s).top = s.top := by simp [resyncAsk]

@[simp] theorem syncLost_top {s : State} : (syncLost s).top = s.top := by simp [syncLost]

@[simp] theorem galRise_top {s : State} : (galRise s).top = s.top := by simp [galRise]

@[simp] theorem galFall_top {s : State} : (galFall s).top = s.top := by simp [galFall]

@[simp] theorem galEmpty_top {s : State} {l : Nat} : (galEmpty s l).top = s.top := by simp [galEmpty]

@[simp] theorem galFollow_top {s : State} : (galFollow s).top = s.top := by simp [galFollow]

theorem galTake_top {s : State} {k : Nat} {p : GalPick} (h : galTake s k = some p) : p.s.top = s.top := by
  unfold galTake at h
  split at h
  · cases h
    rfl
  · cases h

@[simp] theorem cmdSent_top {s : State} {q n : Nat} : (cmdSent s q n).top = s.top := by simp [cmdSent]

theorem cmdNext_top {s : State} {p : GalPick} (h : cmdNext s = some p) : p.s.top = s.top := by
  unfold cmdNext at h
  dsimp only at h
  cases ht : galTake s 2 with
  | some q =>
    rw [ht] at h
    cases h
    exact galTake_top ht
  | none =>
    rw [ht] at h
    change (if _ then _ else none) = some p at h
    split at h
    · split at h
      · cases h
        simp
      · cases h
    · cases h

@[simp] theorem regionBegin_top {s : State} : (regionBegin s).top = s.top := by
  unfold regionBegin
  split <;> simp

theorem replayNext_top {s : State} {p : GalPick} (h : replayNext s = some p) : p.s.top = s.top := by
  unfold replayNext at h
  split at h
  · cases ht : galTake s 4 with
    | some q =>
      rw [ht] at h
      cases h
      exact galTake_top ht
    | none =>
      rw [ht] at h
      exact (galTake_top h).trans regionBegin_top
  · cases h

theorem faultNext_top {s : State} {p : GalPick} (h : faultNext s = some p) : p.s.top = s.top := by
  unfold faultNext at h
  dsimp only at h
  split at h
  · split at h <;> cases h
    simp
  · cases h
    simp

@[simp] theorem controlNext_top {s : State} : (controlNext s).s.top = s.top := by
  unfold controlNext
  cases h : galTake s 1 with
  | some p => exact galTake_top h
  | none => rfl

theorem pick_top {s : State} {o : Option GalPick} (h : ∀ {p}, o = some p → p.s.top = s.top) : (o.getD { s := s }).s.top = s.top := by
  cases o with
  | none => rfl
  | some p => exact h rfl

theorem orElse_pick_top {s : State} {o : Option GalPick} {f : Unit → Option GalPick} (ho : ∀ {p}, o = some p → p.s.top = s.top) (hf : ∀ {p}, f () = some p → p.s.top = s.top)
    {p : GalPick} (h : o.orElse f = some p) : p.s.top = s.top := by
  cases o with
  | none => exact hf h
  | some q => exact ho h

@[simp] theorem galNext_top {s : State} {st half : Nat} : (galNext s st half).s.top = s.top := by
  unfold galNext
  dsimp only
  refine pick_top (orElse_pick_top galTake_top (orElse_pick_top cmdNext_top (orElse_pick_top (fun h => ?_) (orElse_pick_top replayNext_top (orElse_pick_top galTake_top faultNext_top)))))
  split at h
  · cases h
  · exact galTake_top h

@[simp] theorem galSlot_top {half : Nat} {x : GalFill} {l : Nat} : (galSlot half x l).s.top = x.s.top := by
  unfold galSlot
  split <;> simp

@[simp] theorem galLaneFrame_top {s : State} {cells : NMap (List Bytes)} {l : Nat} : (galLaneFrame s cells l).top = s.top := by simp [galLaneFrame]

@[simp] theorem galFrameSend_top {s : State} : (galFrameSend s).top = s.top := by
  unfold galFrameSend
  dsimp only
  split
  · rfl
  · refine (foldl_top fun a l => galLaneFrame_top).trans ?_
    exact foldl_top_by (g := GalFill.s) (fun y _ => foldl_top_by (g := GalFill.s) (fun _ _ => galSlot_top) y _) { s := s } _

@[simp] theorem galTrailDone_top {s : State} {l : Nat} {x : RxLane} {t : Bytes} : (galTrailDone s l x t).1.top = s.top := by
  unfold galTrailDone
  split <;> simp

@[simp] theorem ackTake_top {s : State} {q : Nat} : (ackTake s q).top = s.top := by simp [ackTake]

@[simp] theorem galOverheadReceive_top {s : State} {l : Nat} {x : RxLane} {b : Bytes} {was goesOn : Bool} : (galOverheadReceive s l x b was goesOn).top = s.top := by
  unfold galOverheadReceive
  dsimp only
  split
  · split <;> simp
  · simp

@[simp] theorem galCellTake_top {s : State} {b : Bytes} : (galCellTake s b).top = s.top := by simp [galCellTake]

@[simp] theorem galGive_top {s : State} {l : Nat} {x : RxLane} {f : List Bytes} : (galGive s l x f).top = s.top := by simp [galGive]

@[simp] theorem galWrite_top {s : State} {l : Nat} {f : List Bytes} : (galWrite s l f).top = s.top := by simp [galWrite]

@[simp] theorem galFrameTake_top {l : Nat} {frame : Bytes} {fecLost : Bool} {s : State} : (galFrameTake l frame fecLost s).top = s.top := by simp [galFrameTake]

@[simp] theorem galFrameReceive_top {l : Nat} {frame : Bytes} {fecLost : Bool} {s : State} : (galFrameReceive l frame fecLost s).top = s.top := by
  unfold galFrameReceive
  split
  · rfl
  · split
    · rfl
    · next h => simp [carvRx_top h]

@[simp] theorem galOldest_top {s : State} {l : Nat} {x : RxLane} : (galOldest s l x).top = s.top := by
  unfold galOldest
  split <;> simp

@[simp] theorem galSlipRead_top {l : Nat} {part : Bool} {s : State} : (galSlipRead l part s).top = s.top := by simp [galSlipRead]

@[simp] theorem galDefects_top {s : State} {l m : Nat} : (galDefects s l m).top = s.top := by simp [galDefects]

@[simp] theorem galDeclare_top {l d : Nat} {s : State} : (galDeclare l d s).top = s.top := by simp [galDeclare]

@[simp] theorem galClear_top {l d : Nat} {s : State} : (galClear l d s).top = s.top := by simp [galClear]

/-! ## The functions of Machine/Gates -/

@[simp] theorem putGate_top {s : State} {p : Nat} {g : GateSt} : (putGate s p g).top = s.top := (rfl)

@[simp] theorem gateShow_top {s : State} {p : Nat} : (gateShow s p).top = s.top := by simp [gateShow]

@[simp] theorem gateEntryChange_top {p : Fin 160} {s : State} : (gateEntryChange p s).top = s.top := by simp [gateEntryChange]

@[simp] theorem gateActivate_top {p : Fin 160} {s : State} : (gateActivate p s).top = s.top := by
  simp only [gateActivate]
  split <;> simp

@[simp] theorem top_gateChange_ {s : State} {p : Nat} : (gateChange_ s p).top = s.top := by simp [gateChange_]

@[simp] theorem top_gateCancel_ {s : State} {p : Nat} : (gateCancel_ s p).top = s.top := by
  unfold gateCancel_
  split <;> simp

@[simp] theorem gateCtl_top {s : State} {p v : Nat} : (gateCtl s p v).top = s.top := by simp [gateCtl]

@[simp] theorem gateEnable_top {p : Fin 160} {en : Bool} {s : State} : (gateEnable p en s).top = s.top := by simp [gateEnable]

@[simp] theorem gateChange_top {p : Fin 160} {s : State} : (gateChange p s).top = s.top := by simp [gateChange]

@[simp] theorem gateCancel_top {p : Fin 160} {s : State} : (gateCancel p s).top = s.top := by simp [gateCancel]

/-! ## The functions of Machine/Egress -/

@[simp] theorem hostQueue_top {s : State} {x : HostFrame} : (hostQueue s x).top = s.top := (rfl)

@[simp] theorem stairUpMove_top {s : State} {lane : Nat} {a : Arrival} {rest : List Arrival} {ok : Bool} :
    (stairUpMove s lane a rest ok).top = s.top := by simp [stairUpMove]

@[simp] theorem stairDownMove_top {s : State} {lane : Nat} {f : EgFrame} {rest : List EgFrame} {ok : Bool} :
    (stairDownMove s lane f rest ok).top = s.top := by simp [stairDownMove]

@[simp] theorem stairTransfer_top {up : Bool} {lane : Fin 52} {retries : Fin 5} {ok : Bool} {s : State} : (stairTransfer up lane retries ok s).top = s.top := by
  unfold stairTransfer
  split
  · split
    · split <;> simp
    · split <;> simp
  · split
    · split <;> simp
    · split <;> simp

@[simp] theorem ecnStep_top {s : State} {n : Nat} {b : Bytes} {ce : Bool} : (ecnStep s n b ce).2.top = s.top := by
  unfold ecnStep
  dsimp only
  split
  · simp
  · split <;> simp

@[simp] theorem egressPolicy_top {s : State} {v : Nat} {b : Bytes} : (egressPolicy s v b).2.top = s.top := by
  unfold egressPolicy
  dsimp only
  split
  · split <;> simp
  · split <;> simp

@[simp] theorem mtuExceeded_top {s : State} {n : Nat} {f : EgFrame} : (mtuExceeded s n f).top = s.top := by simp [mtuExceeded]

theorem macRefuses_top {s : State} {p : Nat} {t : State} (h : macRefuses s p = some t) : t.top = s.top := by
  unfold macRefuses at h
  split at h
  · cases h
    simp
  · split at h <;> cases h
    simp

@[simp] theorem egressMirror_top {s : State} {n p : Nat} {h : Hdr} {b : Bytes} : (egressMirror s n p h b).top = s.top := by simp [egressMirror]

@[simp] theorem stageFrame_top {s : State} {n : Nat} {f : EgFrame} : (stageFrame s n f).top = s.top := by
  unfold stageFrame
  split
  · next h => exact macRefuses_top h
  · simp

@[simp] theorem egressFinish_top {s : State} {n : Nat} {f : EgFrame} {e : Option Nat} {b : Bytes} : (egressFinish s n f e b).top = s.top := by simp [egressFinish]

@[simp] theorem egressFrame_top {s : State} {n : Nat} {f : EgFrame} : (egressFrame s n f).top = s.top := by
  unfold egressFrame
  dsimp only
  split
  · next heq => simpa using top_of_pair heq ecnStep_top
  · next heq =>
    have hs1 := top_of_pair heq ecnStep_top
    (repeat' split) <;> simpa using hs1

@[simp] theorem egressPass_top {n : Fin 20} {s : State} : (egressPass n s).top = s.top := by
  unfold egressPass
  split <;> simp

@[simp] theorem ptpTwoStep_top {s : State} {p : Nat} {h : Hdr} {tx : Ptp} : (ptpTwoStep s p h tx).top = s.top := by simp [ptpTwoStep]

@[simp] theorem macSend_top {s : State} {p : Nat} {f : EgFrame} : (macSend s p f).top = s.top := by
  unfold macSend
  split
  · split <;> simp
  · split <;> simp

@[simp] theorem stageRest_top {s : State} {p k : Nat} {r : List EgFrame} : (stageRest s p k r).top = s.top := (rfl)

@[simp] theorem stagedFrameStart_top {p : Fin 160} {k : Fin 8} {s : State} : (stagedFrameStart p k s).top = s.top := by
  unfold stagedFrameStart
  split
  · rfl
  · split
    · next h => simp [macRefuses_top h]
    · split <;> simp

@[simp] theorem gateNofit_top {p : Fin 160} {k : Fin 8} {s : State} : (gateNofit p k s).top = s.top := by
  unfold gateNofit
  split <;> simp

/-! ## The functions of Machine/Sched -/

@[simp] theorem rrPut_top {s : State} {k c : Nat} : (rrPut s k c).top = s.top := (rfl)

@[simp] theorem requestRetry_top {q : Fin 1048576} {s : State} : (requestRetry q s).top = s.top := by simp [requestRetry]

@[simp] theorem voqTimeout_top {q : Fin 1048576} {s : State} : (voqTimeout q s).top = s.top := by simp [voqTimeout]

@[simp] theorem partnerBad_top {s : State} {g k : Nat} : (partnerBad s g k).top = s.top := by simp [partnerBad]

@[simp] theorem creditArrive_top {g port cls : Nat} {s : State} : (creditArrive g port cls s).top = s.top := by
  unfold creditArrive
  split <;> simp

@[simp] theorem creditPaced_top {s : State} {port : Nat} : (creditPaced s port).top = s.top := (rfl)

@[simp] theorem creditGrant_top {port : Fin 65536} {s : State} : (creditGrant port s).top = s.top := by
  unfold creditGrant
  dsimp only
  split
  · simp
  · split
    · simp
    · split <;> simp

@[simp] theorem sendCells_top {s : State} {dst cls : Nat} {h : Hdr} {data : Bytes} : (sendCells s dst cls h data).top = s.top := by simp [sendCells]

@[simp] theorem deliver_top {s : State} {q : Nat} {d : Desc} : (deliver s q d).top = s.top := by
  unfold deliver
  split <;> simp

@[simp] theorem leaveReady_top {n : Nat} {s : State} {i : Nat} : (leaveReady n s i).top = s.top := by
  induction n generalizing s with
  | zero => rfl
  | succ k ih =>
    unfold leaveReady
    dsimp only
    split <;> simp [ih]

@[simp] theorem leave_top {s : State} {q : Nat} {d : Desc} {readable : Bool} : (leave s q d readable).top = s.top := by simp [leave]

@[simp] theorem takeOff_top {s : State} {q : Nat} {d : Desc} {b : Buf} {bad : Bool} : (takeOff s q d b bad).top = s.top := by
  unfold takeOff
  split <;> simp

@[simp] theorem skipped_top {s : State} {n : Nat} : (skipped s n).top = s.top := by simp [skipped]

@[simp] theorem voqSpend_top {s : State} {q : Nat} {b : Buf} : (voqSpend s q b).top = s.top := by simp [voqSpend]

@[simp] theorem voqTake_top {s : State} {q : Nat} {bad : Bool} : (voqTake s q bad).top = s.top := by
  unfold voqTake
  split
  · rfl
  · next heq =>
    have hs1 := top_of_pair heq popHead_top
    split
    · exact hs1
    · dsimp only
      (repeat' split) <;> simpa using hs1

@[simp] theorem voqDequeue_top {bad : Bool} {s : State} : (voqDequeue bad s).top = s.top := by
  unfold voqDequeue
  dsimp only
  split
  · simp
  · split <;> simp

@[simp] theorem dwrrFill_top {s : State} {l : List Nat} : (dwrrFill s l).top = s.top := by
  unfold dwrrFill
  split <;> simp

theorem pickChild_top {s : State} {n : Nat} {kids : List Nat} {v0 : Nat} {v1 : Bool} {v2 : State} (h : pickChild s n kids = some (v0, v1, v2)) : v2.top = s.top := by
  unfold pickChild at h
  dsimp only at h
  split at h
  · cases h
  · obtain ⟨c, -, hc⟩ := Option.map_eq_some_iff.mp h
    cases hc
    simp

@[simp] theorem pickPath_top {n : Nat} {s : State} {i : Nat} {l : List (List Nat)} : (pickPath n s i l).2.top = s.top := by
  induction n generalizing s i l with
  | zero => rfl
  | succ k ih =>
    unfold pickPath
    split
    · rfl
    · next h => exact ih.trans (pickChild_top h)

@[simp] theorem nodePay_top {s : State} {c len : Nat} {excess : Bool} : (nodePay s c len excess).top = s.top := by simp [nodePay]

@[simp] theorem emptied_top {s : State} {q : Nat} : (emptied s q).top = s.top := by
  unfold emptied
  split <;> simp

@[simp] theorem egressSelect_top {n : Fin 161} {bad : Bool} {s : State} : (egressSelect n bad s).top = s.top := by
  unfold egressSelect
  dsimp only
  split
  · rfl
  · split
    · next hpath =>
      have hs1 := top_of_pair hpath pickPath_top
      rw [top_ite, perf_top, ite_self] at hs1
      split
      · rfl
      · next hpop =>
        have hs2 := (top_of_pair hpop popHead_top).trans hs1
        split
        · exact hs2
        · simpa using hs2
    · simp

@[simp] theorem calendarSlot_top {s : State} : (calendarSlot s).top = s.top := (rfl)

@[simp] theorem fenceEnd_top {s : State} {f : Fence} : (fenceEnd s f).top = s.top := (rfl)

@[simp] theorem fenceLift_top {i : Nat} {s : State} : (fenceLift i s).top = s.top := by
  unfold fenceLift
  split <;> simp

@[simp] theorem fenceTimeout_top {i : Nat} {s : State} : (fenceTimeout i s).top = s.top := by
  unfold fenceTimeout
  split <;> simp

@[simp] theorem epochWindow_top {s : State} : (epochWindow s).top = s.top := by simp [epochWindow]

/-! ## The functions of Machine/FabTx -/

@[simp] theorem fabricLaneCalibration_top {g : Fin 8} {l : Fin 28} {ok : Bool} {s : State} :
    (fabricLaneCalibration g l ok s).top = s.top := by simp [fabricLaneCalibration]

@[simp] theorem fabricLinkTrainingDone_top {g : Fin 8} {l : Fin 28} {ok : Bool} {s : State} :
    (fabricLinkTrainingDone g l ok s).top = s.top := by simp [fabricLinkTrainingDone]

@[simp] theorem fabricTrainingRetry_top {g : Fin 8} {l : Fin 28} {s : State} : (fabricTrainingRetry g l s).top = s.top := by simp [fabricTrainingRetry]

theorem nextOther_top {s : State} {v0 : Cell} {v1 : State} (h : nextOther s = some (v0, v1)) : v1.top = s.top := by
  unfold nextOther at h
  split at h
  · cases h
    rfl
  · split at h
    · cases h
      rfl
    · split at h <;> cases h
      rfl

theorem nextData_top {s : State} {g : Nat} {v0 : Cell} {v1 : State} (h : nextData s g = some (v0, v1)) : v1.top = s.top := by
  unfold nextData at h
  split at h <;> cases h
  rfl

theorem nextCell_top {s : State} {g nd : Nat} {v0 : Cell} {v1 : State} (h : nextCell s g nd = some (v0, v1)) : v1.top = s.top := by
  unfold nextCell at h
  split at h
  · split at h
    · next hother =>
      cases h
      exact nextOther_top hother
    · exact nextData_top h
  · exact nextData_top h

@[simp] theorem fillSlot_top {lanes : List (Nat × Nat)} {x : State × Placed} : (fillSlot lanes x).1.top = x.1.top := foldl_fst_top fun x gl => by
  dsimp only
  split
  · next h => simp [nextCell_top h]
  · rfl

@[simp] theorem fillSlots_top {lanes : List (Nat × Nat)} {n : Nat} {x : State × Placed} : (fillSlots lanes n x).1.top = x.1.top := by
  induction n generalizing x with
  | zero => rfl
  | succ k ih => exact ih.trans fillSlot_top

@[simp] theorem laneFrame_top {s : State} {g l : Nat} {cells : List Cell} : (laneFrame s g l cells).top = s.top := by simp [laneFrame]

@[simp] theorem sendAll_top {s : State} {p : Placed} : (sendAll s p).top = s.top := by simp [sendAll]

@[simp] theorem nextMfas_top {s : State} : (nextMfas s).top = s.top := (rfl)

@[simp] theorem sprayChange_top {s : State} : (sprayChange s).top = s.top := by simp [sprayChange]

@[simp] theorem caravanFrameSend_top {gal : Bool} {s : State} : (caravanFrameSend gal s).top = s.top := by simp [caravanFrameSend]

/-! ## The functions of Machine/Dram -/

@[simp] theorem diEnter_top {s : State} {i st : Nat} : (diEnter s i st).top = s.top := (rfl)

@[simp] theorem diTrain_top {s : State} {i : Nat} : (diTrain s i).top = s.top := (rfl)

@[simp] theorem dramPools_top {s : State} : (dramPools s).top = s.top := by simp [dramPools]

@[simp] theorem diPerf_top {s : State} {i e n : Nat} : (diPerf s i e n).top = s.top := by simp [diPerf]

@[simp] theorem diFail_top {s : State} {i : Nat} : (diFail s i).top = s.top := by simp [diFail]

@[simp] theorem diLinkFail_top {s : State} {i loc detail : Nat} : (diLinkFail s i loc detail).top = s.top := by simp [diLinkFail]

@[simp] theorem tagUse_top {s : State} {i h j : Nat} : (tagUse s i h j).top = s.top := by simp [tagUse]

@[simp] theorem tagChange_top {s : State} {i h j : Nat} : (tagChange s i h j).top = s.top := by simp [tagChange]

@[simp] theorem tagWriteback_top {i : Fin 24} {retries : Nat} {ok : Bool} {s : State} : (tagWriteback i retries ok s).top = s.top := by
  unfold tagWriteback
  split <;> simp

@[simp] theorem lineWritten_top {s : State} {i : Nat} {x : WLine} {b : Bytes} {poisoned : Bool} : (lineWritten s i x b poisoned).top = s.top := by simp [lineWritten]

@[simp] theorem lineMerge_top {s : State} {i : Nat} {x : WLine} {new : Bytes} {flip : Nat} : (lineMerge s i x new flip).2.2.top = s.top := by simp [lineMerge]

@[simp] theorem bufFail_top {s : State} {h : Nat} : (bufFail s h).top = s.top := (rfl)

@[simp] theorem writeLine_top {s : State} {i : Nat} {x : WLine} {b : Buf} {ok : Bool} {flip : Nat} : (writeLine s i x b ok flip).top = s.top := by
  unfold writeLine
  split <;> simp

@[simp] theorem dramWriteComplete_top {i : Fin 24} {retries : Nat} {ok : Bool} {flip : Nat} {s : State} : (dramWriteComplete i retries ok flip s).top = s.top := by
  unfold dramWriteComplete
  dsimp only
  split
  · simp
  · split <;> simp

@[simp] theorem mergeTimeout_top {i : Fin 24} {s : State} : (mergeTimeout i s).top = s.top := by
  simp only [mergeTimeout]
  split <;> simp

@[simp] theorem leavingSet_top {s : State} {q k : Nat} {keep : Bool} : (leavingSet s q k keep).top = s.top := (rfl)

@[simp] theorem lineFails_top {i h : Nat} {s : State} {e : Nat × LRead} : (lineFails i h s e).top = s.top := by simp [lineFails]

@[simp] theorem lineLost_top {i h : Nat} {s : State} {j : Nat} : (lineLost i h s j).top = s.top := by simp [lineLost]

@[simp] theorem readDrop_top {s : State} {q k r h : Nat} : (readDrop s q k r h).top = s.top := by simp [readDrop]

@[simp] theorem readTaken_top {s : State} {h : Nat} {b : Buf} {l : List (Nat × LRead)} : (readTaken s h b l).top = s.top := (rfl)

@[simp] theorem readFrame_top {s : State} {q k : Nat} {d : Desc} {b : Buf} {retries : Nat} {failed : List Nat} {flips : NMap Nat} :
    (readFrame s q k d b retries failed flips).top = s.top := by simp [readFrame]

@[simp] theorem dramReadComplete_top {q : Fin 1048576} {k retries : Nat} {failed : List Nat} {flips : NMap Nat} {s : State} :
    (dramReadComplete q k retries failed flips s).top = s.top := by
  unfold dramReadComplete
  split
  · split <;> simp
  · simp

@[simp] theorem fallDue_top {s : State} {a res : Nat} : (fallDue s a res).top = s.top := by simp [fallDue]

@[simp] theorem stepEnds_top {s : State} {a res : Nat} : (stepEnds s a res).top = s.top := (rfl)

@[simp] theorem dramTraining_top {i : Fin 24} {ok : Bool} {s : State} : (dramTraining i ok s).top = s.top := by simp [dramTraining]

@[simp] theorem refreshBank_top {s : State} {i bank : Nat} : (refreshBank s i bank).top = s.top := by simp [refreshBank]

@[simp] theorem dramRefresh_top {i : Fin 24} {bank : Fin 64} {s : State} : (dramRefresh i bank s).top = s.top := by simp [dramRefresh]

@[simp] theorem readout_top {s : State} {i t : Nat} : (readout s i t).top = s.top := by
  unfold readout
  split <;> simp

@[simp] theorem readoutFails_top {s : State} {i : Nat} : (readoutFails s i).top = s.top := by simp [readoutFails]

@[simp] theorem dramTempReadout_top {i : Fin 24} {t : Option (Fin 256)} {s : State} : (dramTempReadout i t s).top = s.top := by
  unfold dramTempReadout
  split
  · simp
  · split <;> simp

@[simp] theorem retrainDue_top {i : Fin 24} {s : State} : (retrainDue i s).top = s.top := by simp [retrainDue]

@[simp] theorem diCtl_top {i v : Nat} {s : State} : (diCtl i v s).top = s.top := by simp [diCtl]

@[simp] theorem drcRetrain_top {i : Fin 24} {s : State} : (drcRetrain i s).top = s.top := by simp [drcRetrain]

@[simp] theorem pauseBegin_top {i : Fin 24} {s : State} : (pauseBegin i s).top = s.top := by simp [pauseBegin]

@[simp] theorem diOut_top {s : State} {i : Nat} : (diOut s i).top = s.top := by simp [diOut]

@[simp] theorem pauseEnd_top {i : Fin 24} {ok : Bool} {s : State} : (pauseEnd i ok s).top = s.top := by simp [pauseEnd]

@[simp] theorem dramTestStep_top {i : Fin 24} {k : Fin 8} {ok : Bool} {s : State} : (dramTestStep i k ok s).top = s.top := by simp [dramTestStep]

/-! ## The functions of Machine/React -/

@[simp] theorem reacted_top {s t : State} : (reacted s t).top = t.top := by simp [reacted]

/-! ## The functions of Machine/Maint -/

@[simp] theorem top_granted_ {s : State} {m : Maint} : (granted_ s m).top = s.top := by simp [granted_]

@[simp] theorem maintGrant_top {a : Fin 6} {res : Nat} {s : State} : (maintGrant a res s).top = s.top := by simp [maintGrant]

@[simp] theorem dumpLate_top {s : State} {d : Nat} : (dumpLate s d).top = s.top := by
  unfold dumpLate
  split <;> simp

@[simp] theorem lateExtra_top {s : State} {a res : Nat} : (lateExtra s a res).top = s.top := by simp [lateExtra]

@[simp] theorem maintDeadline_top {a : Fin 6} {res : Nat} {s : State} : (maintDeadline a res s).top = s.top := by simp [maintDeadline]

/-! ## The functions of Machine/Slices -/

@[simp] theorem sliceEnter_top {s : State} {n st : Nat} : (sliceEnter s n st).top = s.top := by simp [sliceEnter]

@[simp] theorem sliceResult_top {s : State} {n r : Nat} : (sliceResult s n r).top = s.top := (rfl)

@[simp] theorem flushSlice_top {s : State} {n : Nat} : (flushSlice s n).top = s.top := by simp [flushSlice]

@[simp] theorem diSleep_top {s : State} {i : Nat} : (diSleep s i).top = s.top := by simp [diSleep]

@[simp] theorem drainOver_top {s : State} {n : Nat} : (drainOver s n).top = s.top := by
  unfold drainOver
  split <;> simp

@[simp] theorem enterBegin_top {s : State} {n : Nat} : (enterBegin s n).top = s.top := by simp [enterBegin]

@[simp] theorem drainBegin_top {s : State} {n : Nat} : (drainBegin s n).top = s.top := by simp [drainBegin]

@[simp] theorem addOne_top {s : State} {n : Nat} : (addOne s n).top = s.top := by
  unfold addOne
  split <;> simp

@[simp] theorem removeOne_top {s : State} {n : Nat} : (removeOne s n).top = s.top := by
  unfold removeOne
  split <;> simp

@[simp] theorem sleepOne_top {s : State} {n : Nat} : (sleepOne s n).top = s.top := by
  unfold sleepOne
  split <;> simp

@[simp] theorem sliceCmd_top {v : Nat} {s : State} : (sliceCmd v s).top = s.top := by
  unfold sliceCmd
  split
  · simp
  · split <;> simp

@[simp] theorem sliceAdd_top {s : State} : (sliceAdd s).top = s.top := by simp [sliceAdd]

@[simp] theorem sliceRemove_top {s : State} : (sliceRemove s).top = s.top := by simp [sliceRemove]

@[simp] theorem sliceSleep_top {s : State} : (sliceSleep s).top = s.top := by simp [sliceSleep]

@[simp] theorem drainEnd_top {n : Fin 40} {limit : Bool} {s : State} : (drainEnd n limit s).top = s.top := by simp [drainEnd]

@[simp] theorem maintWithdraw_top {s : State} {n : Nat} : (maintWithdraw s n).top = s.top := (rfl)

@[simp] theorem lineLose_top {s : State} {n : Nat} : (lineLose s n).top = s.top := by simp [lineLose]

@[simp] theorem enteringDone_top {n : Fin 40} {s : State} : (enteringDone n s).top = s.top := by simp [enteringDone]

@[simp] theorem wakeDone_top {n : Fin 40} {s : State} : (wakeDone n s).top = s.top := by simp [wakeDone]

@[simp] theorem sweepRecorded_top {s : State} {n : Nat} : (sweepRecorded s n).top = s.top := by simp [sweepRecorded]

@[simp] theorem join_top {n : Fin 40} {s : State} : (join n s).top = s.top := by simp [join]

/-! ## The functions of Machine/Clocks -/

@[simp] theorem writeRw_top {s : State} {a v m : Nat} : (writeRw s a v m).top = s.top := (rfl)

@[simp] theorem commitHi_top {s : State} {f lo mlo hi mhi v : Nat} : (commitHi s f lo mlo hi mhi v).top = s.top := (rfl)

@[simp] theorem pllStart_top {s : State} {ps : List Nat} : (pllStart s ps).top = s.top := (rfl)

@[simp] theorem pllSettled_top {s : State} {p : Nat} : (pllSettled s p).top = s.top := (rfl)

@[simp] theorem pllLocked_top {p : Fin 25} {s : State} : (pllLocked p s).top = s.top := by simp [pllLocked]

@[simp] theorem galLaneOut_top {s : State} {l : Nat} : (galLaneOut s l).top = s.top := by simp [galLaneOut]

@[simp] theorem lineLaneOut_top {s : State} {g l : Nat} : (lineLaneOut s g l).top = s.top := by simp [lineLaneOut]

@[simp] theorem fabLaneOut_top {s : State} {g l : Nat} : (fabLaneOut s g l).top = s.top := by simp [fabLaneOut]

@[simp] theorem diTrainOut_top {s : State} {i : Nat} : (diTrainOut s i).top = s.top := by simp [diTrainOut]

@[simp] theorem pllLockFail_top {p : Fin 25} {s : State} : (pllLockFail p s).top = s.top := by simp [pllLockFail]

@[simp] theorem relockOver_top {s : State} {r : Nat} : (relockOver s r).top = s.top := by simp [relockOver]

@[simp] theorem rampStep_top {s : State} : (rampStep s).top = s.top := by simp [rampStep]

@[simp] theorem relockBegin_top {s : State} {r : Nat} : (relockBegin s r).top = s.top := by simp [relockBegin]

@[simp] theorem relockRelease_top {s : State} : (relockRelease s).top = s.top := by
  unfold relockRelease
  split <;> simp

@[simp] theorem clkCtl_top {v : Nat} {s : State} : (clkCtl v s).top = s.top := by simp [clkCtl]

@[simp] theorem rootRelockDone_top {r : Fin 2} {ok : Bool} {s : State} : (rootRelockDone r ok s).top = s.top := by simp [rootRelockDone]

@[simp] theorem refLost_top {s : State} {r : Nat} : (refLost s r).top = s.top := by simp [refLost]

@[simp] theorem refClockLoss_top {r : Fin 4} {s : State} : (refClockLoss r s).top = s.top := by simp [refClockLoss]

@[simp] theorem refClockReturn_top {r : Fin 4} {s : State} : (refClockReturn r s).top = s.top := by simp [refClockReturn]

@[simp] theorem pllLoss_top {p : Fin 25} {s : State} : (pllLoss p s).top = s.top := by simp [pllLoss]

@[simp] theorem waitShow_top {s : State} : (waitShow s).top = s.top := (rfl)

@[simp] theorem clkFreqAlarm_top {r : Fin 3} {offset : Nat} {s : State} : (clkFreqAlarm r offset s).top = s.top := by simp [clkFreqAlarm]

@[simp] theorem ppsInLoss_top {s : State} : (ppsInLoss s).top = s.top := by simp [ppsInLoss]

@[simp] theorem cd38Loss_top {s : State} : (cd38Loss s).top = s.top := (rfl)

@[simp] theorem timIncrCommit_top {v : Nat} {s : State} : (timIncrCommit v s).top = s.top := by simp [timIncrCommit]

@[simp] theorem ppsOutEdge_top {rise : Bool} {s : State} : (ppsOutEdge rise s).top = s.top := (rfl)

@[simp] theorem ppsInEdge_top {falling : Bool} {s : State} : (ppsInEdge falling s).top = s.top := by simp [ppsInEdge]

@[simp] theorem clkoutConfig_top {v : Nat} {s : State} : (clkoutConfig v s).top = s.top := by simp [clkoutConfig]

/-! ## The functions of Machine/Power -/

@[simp] theorem landingSend_top {s : State} {typ body : Nat} : (landingSend s typ body).top = s.top := by
  unfold landingSend
  rfl

@[simp] theorem landingFault_top {s : State} {src slice die : Nat} : (landingFault s src slice die).top = s.top := (rfl)

@[simp] theorem vinDip_top {s : State} : (vinDip s).top = s.top := by simp [vinDip]

@[simp] theorem vinWarn_top {s : State} : (vinWarn s).top = s.top := by simp [vinWarn]

@[simp] theorem railOut_top {k : Fin 7} {die : Fin 2} {slice : Fin 64} {s : State} : (railOut k die slice s).top = s.top := by simp [railOut]

@[simp] theorem railRecover_top {s : State} : (railRecover s).top = s.top := by simp [railRecover]

@[simp] theorem vio18Overload_top {s : State} : (vio18Overload s).top = s.top := by simp [vio18Overload]

@[simp] theorem vio18Recover_top {s : State} : (vio18Recover s).top = s.top := (rfl)

@[simp] theorem vbatLow_top {low : Bool} {s : State} : (vbatLow low s).top = s.top := by simp [vbatLow]

@[simp] theorem vbatCollapse_top {s : State} : (vbatCollapse s).top = s.top := (rfl)

@[simp] theorem holdoverWrite_top {s : State} : (holdoverWrite s).top = s.top := by simp [holdoverWrite]

@[simp] theorem clrRec_top {s : State} : (clrRec s).top = s.top := by simp [clrRec]

@[simp] theorem tripRecover_top {s : State} : (tripRecover s).top = s.top := by simp [tripRecover]

@[simp] theorem telemetryUpdate_top {vin iin pin vbat vio : Nat} {grp die : List Nat} {s : State} :
    (telemetryUpdate vin iin pin vbat vio grp die s).top = s.top := by simp [telemetryUpdate]

/-! ## The functions of Machine/Boot -/

@[simp] theorem wearShow_top {s : State} : (wearShow s).top = s.top := by simp [wearShow]

@[simp] theorem persistWrite_top {s : State} {f : Persist → Nat → Persist} : (persistWrite s f).top = s.top := (rfl)

@[simp] theorem wearWrite_top {s : State} {k : Nat} {counts : NMap Nat} : (wearWrite s k counts).top = s.top := (rfl)

@[simp] theorem wearBlocks_top {s : State} {l : List Nat} : (wearBlocks s l).top = s.top := by simp [wearBlocks]

@[simp] theorem dirCommit_top {s : State} {d : Directory} : (dirCommit s d).top = s.top := by simp [dirCommit]

@[simp] theorem dirWrite_top {s : State} {d : Directory} : (dirWrite s d).top = s.top := by simp [dirWrite]

@[simp] theorem dirChange_top {s : State} {f : Directory → Directory} : (dirChange s f).top = s.top := by
  unfold dirChange
  split <;> simp

@[simp] theorem nvlogAppend_top {s : State} : (nvlogAppend s).top = s.top := by
  unfold nvlogAppend
  split <;> simp

@[simp] theorem slotProgram_top {s : State} {typ slot : Nat} {x : Image} : (slotProgram s typ slot x).top = s.top := by simp [slotProgram]

@[simp] theorem pushRefused_top {s : State} : (pushRefused s).top = s.top := (rfl)

@[simp] theorem pushStart_top {v : Nat} {s : State} : (pushStart v s).top = s.top := by simp [pushStart]

@[simp] theorem floorFwUp_top {s : State} : (floorFwUp s).top = s.top := (rfl)

@[simp] theorem floorCfgUp_top {s : State} : (floorCfgUp s).top = s.top := (rfl)

@[simp] theorem arbCtl_top {v : Nat} {s : State} : (arbCtl v s).top = s.top := by simp [arbCtl]

@[simp] theorem keyRevoke_top {v : Nat} {s : State} : (keyRevoke v s).top = s.top := by simp [keyRevoke]

@[simp] theorem toField_top {v : Nat} {s : State} : (toField v s).top = s.top := by simp [toField]

/-! ## The functions of Machine/FabRx -/

@[simp] theorem trailDone_top {s : State} {g l : Nat} {x : RxLane} {t : Bytes} : (trailDone s g l x t).1.top = s.top := by
  unfold trailDone
  split <;> simp

@[simp] theorem pmFrame_top {s : State} {k : Nat} {errored : Bool} : (pmFrame s k errored).top = s.top := (rfl)

@[simp] theorem bkpLevel_top {s : State} {g : Nat} : (bkpLevel s g).top = s.top := by simp [bkpLevel]

@[simp] theorem bkpReceive_top {s : State} {g : Nat} {b : Bytes} : (bkpReceive s g b).top = s.top := by
  unfold bkpReceive
  split <;> simp

@[simp] theorem bkpWatchdog_top {g k : Fin 8} {s : State} : (bkpWatchdog g k s).top = s.top := by simp [bkpWatchdog]

@[simp] theorem srqStore_top {s : State} {g v : Nat} : (srqStore s g v).top = s.top := by simp [srqStore]

@[simp] theorem srqUse_top {s : State} {v : Nat} : (srqUse s v).top = s.top := by simp [srqUse]

@[simp] theorem srqCompare_top {s : State} {g used : Nat} : (srqCompare s g used).top = s.top := by simp [srqCompare]

@[simp] theorem srqReceive_top {s : State} {g : Nat} {b : Bytes} : (srqReceive s g b).top = s.top := by
  simp only [srqReceive]
  split <;> simp

@[simp] theorem srqIncDeclare_top {s : State} : (srqIncDeclare s).top = s.top := by simp [srqIncDeclare]

@[simp] theorem overheadReceive_top {s : State} {g l : Nat} {x : RxLane} {b : Bytes} {was goesOn : Bool} : (overheadReceive s g l x b was goesOn).top = s.top := by
  unfold overheadReceive
  dsimp only
  split
  · split
    · split <;> simp
    · simp
  · split
    · split <;> simp
    · simp

@[simp] theorem slipGive_top {s : State} {g l : Nat} {x : RxLane} {f : List Bytes} : (slipGive s g l x f).top = s.top := (rfl)

@[simp] theorem slipWrite_top {s : State} {g l : Nat} {b : Bytes} : (slipWrite s g l b).top = s.top := by simp [slipWrite]

@[simp] theorem frameTake_top {g : Nat} {l : Fin 28} {frame : Bytes} {fecCorr : Nat} {fecLost : Bool} {s : State} :
    (frameTake g l frame fecCorr fecLost s).top = s.top := by simp [frameTake]

@[simp] theorem caravanFrameReceive_top {g : Nat} {l : Fin 28} {frame : Bytes} {fecCorr : Nat} {fecLost : Bool} {s : State} :
    (caravanFrameReceive g l frame fecCorr fecLost s).top = s.top := by
  unfold caravanFrameReceive
  split
  · rfl
  · split
    · rfl
    · next h => simp [carvRx_top h]

@[simp] theorem slipOldest_top {s : State} {g l : Nat} {x : RxLane} : (slipOldest s g l x).top = s.top := by
  unfold slipOldest
  split <;> simp

@[simp] theorem slipRead_top {g : Nat} {l : Fin 28} {part : Bool} {s : State} : (slipRead g l part s).top = s.top := by simp [slipRead]

@[simp] theorem laneDef_top {s : State} {g l : Nat} {first : Bool} : (laneDef s g l first).top = s.top := by simp [laneDef]

@[simp] theorem defectDeclare_top {g : Nat} {l : Fin 28} {d : Fin 7} {s : State} : (defectDeclare g l d s).top = s.top := by simp [defectDeclare]

@[simp] theorem defectClear_top {g : Nat} {l : Fin 28} {d : Fin 7} {s : State} : (defectClear g l d s).top = s.top := by simp [defectClear]

@[simp] theorem degInterval_top {g : Fin 8} {l : Fin 28} {s : State} : (degInterval g l s).top = s.top := (rfl)

@[simp] theorem protCtl_top {v : Nat} {s : State} : (protCtl v s).top = s.top := by simp [protCtl]

@[simp] theorem protWrite_top {v : Nat} {s : State} : (protWrite v s).top = s.top := by simp [protWrite]

@[simp] theorem protClear_top {s : State} : (protClear s).top = s.top := by simp [protClear]

@[simp] theorem protManualSwitch_top {plane : Fin 16} {s : State} : (protManualSwitch plane s).top = s.top := by simp [protManualSwitch]

@[simp] theorem protForcedSwitch_top {plane : Fin 16} {s : State} : (protForcedSwitch plane s).top = s.top := by simp [protForcedSwitch]

@[simp] theorem protLockout_top {s : State} : (protLockout s).top = s.top := by simp [protLockout]

@[simp] theorem protTest_top {s : State} : (protTest s).top = s.top := by simp [protTest]

@[simp] theorem wtrExpire_top {s : State} : (wtrExpire s).top = s.top := (rfl)

/-! ## The functions of Machine/FabCell -/

@[simp] theorem discard_top {s : State} {g k : Nat} : (discard s g k).top = s.top := by simp [discard]

@[simp] theorem requestEntry_top {g src : Nat} {s : State} {e : CrEnt} : (requestEntry g src s e).top = s.top := by simp [requestEntry]

@[simp] theorem creditEntry_top {g : Nat} {s : State} {e : CrEnt} : (creditEntry g s e).top = s.top := by simp [creditEntry]

@[simp] theorem controlCell_top {s : State} {g : Nat} {c : Cell} {payload : Bytes} : (controlCell s g c payload).top = s.top := by simp [controlCell]

@[simp] theorem localCopies_top {s : State} {h : Hdr} : (localCopies s h).2.top = s.top := by simp [localCopies]

@[simp] theorem admitFab_top {s : State} {g port : Nat} {h : Hdr} {size : Nat} : (admitFab s g port h size).2.top = s.top := by
  unfold admitFab
  split <;> simp

@[simp] theorem admitCopies_top {g : Nat} {h : Hdr} {size : Nat} {l : List Nat} {s : State} : (admitCopies g h size l s).2.top = s.top := by
  induction l generalizing s with
  | nil => rfl
  | cons i r ih => simp [admitCopies, ih]

@[simp] theorem sharedTargets_top {h : Hdr} {l : List Nat} {s : State} : (sharedTargets h l s).2.top = s.top := by
  induction l generalizing s with
  | nil => rfl
  | cons i r ih =>
    unfold sharedTargets
    split <;> simp [ih]

@[simp] theorem lineGrow_top {di h i : Nat} {complete : Bool} {have_ : Nat} {s : State} : (lineGrow di h i complete have_ s).top = s.top := by simp [lineGrow]

@[simp] theorem bufGrow_top {data : Bytes} {a b total : Nat} {s : State} {h : Nat} : (bufGrow data a b total s h).top = s.top := by
  unfold bufGrow
  split <;> simp

@[simp] theorem dropOpen_top {s : State} {o : Option Reas} : (dropOpen s o).top = s.top := by
  unfold dropOpen
  split <;> simp

@[simp] theorem openShared_top {s : State} {g : Nat} {h : Hdr} {size : Nat} : (openShared s g h size).2.top = s.top := by
  unfold openShared
  dsimp only
  split <;> (next heq => simpa using top_of_triple heq sharedAdmit_top)

@[simp] theorem openFrame_top {s : State} {g : Nat} {c : Cell} : (openFrame s g c).2.top = s.top := by
  unfold openFrame
  dsimp only
  split
  · simp
  · split
    · split <;> simp
    · split <;> simp

@[simp] theorem closeFrame_top {s : State} {r : Reas} : (closeFrame s r).top = s.top := by
  unfold closeFrame
  split <;> simp

@[simp] theorem growFrame_top {s : State} {g : Nat} {r : Reas} {c : Cell} : (growFrame s g r c).2.top = s.top := by
  unfold growFrame
  dsimp only
  split
  · split <;> simp
  · split <;> simp

@[simp] theorem reassemble_top {s : State} {o : Option Reas} {c : Cell} {g : Nat} : (reassemble s o c g).2.top = s.top := by
  have hs1 : (if o.isSome then partnerBad (dropOpen s o) g 4 else s).top = s.top := by split <;> simp
  unfold reassemble
  split
  · dsimp only
    split <;> (next heq => simpa using (top_of_pair heq openFrame_top).trans hs1)
  · split <;> simp

@[simp] theorem ctxPut_top {s : State} {k : Nat} {x : Option Ctx} : (ctxPut s k x).top = s.top := (rfl)

@[simp] theorem deliverRun_top {k : Nat} {s : State} {x : Ctx} {i : Nat} {c : Cell} {j : Nat} : (deliverRun k s x i c j).2.top = s.top := by
  induction k generalizing s x i c j with
  | zero => rfl
  | succ n ih =>
    unfold deliverRun
    dsimp only
    split <;> simp [ih]

@[simp] theorem ctxCell_top {s : State} {k : Nat} {x : Ctx} {e g : Nat} {c : Cell} : (ctxCell s k x e g c).top = s.top := by simp [ctxCell]

@[simp] theorem dataCell_top {s : State} {g : Nat} {c : Cell} : (dataCell s g c).top = s.top := by
  unfold dataCell
  dsimp only
  split
  · simp
  · split
    · simp
    · split <;> simp

@[simp] theorem cellReceive_top {g : Fin 8} {l : Fin 28} {s : State} : (cellReceive g l s).top = s.top := by
  unfold cellReceive
  dsimp only
  split
  · simp
  · split
    · simp
    · split
      · simp
      · split <;> simp

@[simp] theorem holeTimeout_top {src dst : Fin 65536} {cls : Fin 8} {s : State} : (holeTimeout src dst cls s).top = s.top := by
  unfold holeTimeout
  dsimp only
  split
  · simp
  · split
    · simp
    · split <;> simp

@[simp] theorem contextFree_top {src dst : Fin 65536} {cls : Fin 8} {s : State} : (contextFree src dst cls s).top = s.top := by
  simp only [contextFree]
  split <;> simp

/-! ## The functions of Machine/FabPm -/

@[simp] theorem pmCount_top {k now sec m : Nat} {up : Bool} {s : State} : (pmCount k now sec m up s).top = s.top := by simp [pmCount]

@[simp] theorem pmClasses_top {k now : Nat} {up : Bool} {l : List (Nat × Nat)} {s : State} : (pmClasses k now up l s).top = s.top := by simp [pmClasses]

@[simp] theorem pmUas_top {k now : Nat} {up : Bool} {l : List (Nat × Nat)} {s : State} : (pmUas k now up l s).top = s.top := by simp [pmUas]

@[simp] theorem pmShow_top {k : Nat} {u : Bool} {s : State} : (pmShow k u s).top = s.top := (rfl)

@[simp] theorem pmTake_top {k now c : Nat} {s : State} : (pmTake k now c s).top = s.top := by
  unfold pmTake
  dsimp only
  split
  · simp
  · split <;> simp

@[simp] theorem pmRestart_top {s : State} : (pmRestart s).top = s.top := by simp [pmRestart]

@[simp] theorem pmRoll_top {len b n : Nat} {s : State} : (pmRoll len b n s).top = s.top := by simp [pmRoll]

@[simp] theorem pmRolls_top {a b : Nat} {s : State} : (pmRolls a b s).top = s.top := by simp [pmRolls]

@[simp] theorem pmSuspectAll_top {s : State} : (pmSuspectAll s).top = s.top := by simp [pmSuspectAll]

@[simp] theorem pmStepped_top {s : State} : (pmStepped s).top = s.top := by simp [pmStepped]

@[simp] theorem pmSecond_top {s : State} : (pmSecond s).top = s.top := by simp [pmSecond]

/-! ## The functions of Machine/Host -/

@[simp] theorem hostFail_top {s : State} {f addr v : Nat} {c : PwfCause} : (hostFail s f addr v c).top = s.top := by simp [hostFail]

@[simp] theorem ringWrite_top {s : State} {f r o v : Nat} {act : State → State} (hact : ∀ t, (act t).top = t.top) :
    (ringWrite s f r o v act).top = s.top := by simp [ringWrite, hact]

@[simp] theorem ringStop_top {s : State} {f r cause index : Nat} : (ringStop s f r cause index).top = s.top := by simp [ringStop]

@[simp] theorem prodDoorbell_top {f r v : Nat} {s : State} : (prodDoorbell f r v s).top = s.top := by simp [prodDoorbell]

@[simp] theorem ringRelease_top {s : State} {f r k : Nat} : (ringRelease s f r k).top = s.top := by simp [ringRelease]

@[simp] theorem consDoorbell_top {f r v : Nat} {s : State} : (consDoorbell f r v s).top = s.top := by simp [consDoorbell]

@[simp] theorem ringForget_top {s : State} {k : Nat} : (ringForget s k).top = s.top := (rfl)

@[simp] theorem ringFlushed_top {s : State} {f r cause point ents cmds : Nat} : (ringFlushed s f r cause point ents cmds).top = s.top := by simp [ringFlushed]

@[simp] theorem ringFlush_top {s : State} {f r cause cmds : Nat} : (ringFlush s f r cause cmds).top = s.top := by simp [ringFlush]

@[simp] theorem ringDown_top {s : State} {f r cause cmds : Nat} : (ringDown s f r cause cmds).top = s.top := by
  unfold ringDown
  split <;> simp

@[simp] theorem ringOn_top {s : State} {f r : Nat} : (ringOn s f r).top = s.top := by simp [ringOn]

@[simp] theorem ringCfg_top {f r w cmds : Nat} {s : State} : (ringCfg f r w cmds s).top = s.top := by simp [ringCfg]

@[simp] theorem ringEnable_top {f r v : Nat} {s : State} : (ringEnable f r v s).top = s.top := by simp [ringEnable]

@[simp] theorem ringDisable_top {f r v cmds : Nat} {s : State} : (ringDisable f r v cmds s).top = s.top := by simp [ringDisable]

@[simp] theorem ringFlushCmd_top {f r v cmds : Nat} {s : State} : (ringFlushCmd f r v cmds s).top = s.top := by simp [ringFlushCmd]

@[simp] theorem launched_top {s : State} {f : Nat} : (launched s f).top = s.top := by simp [launched]

@[simp] theorem openPut_top {s : State} {f r : Nat} {l : List Bytes} : (openPut s f r l).top = s.top := by simp [openPut]

@[simp] theorem entryJoin_top {s : State} {f r : Nat} {e : Bytes} : (entryJoin s f r e).top = s.top := by simp [entryJoin]

@[simp] theorem entryOrphan_top {s : State} {k : Nat} {x : Nat × Nat × Nat} : (entryOrphan s k x).top = s.top := (rfl)

@[simp] theorem openDrop_top {s : State} {f r : Nat} : (openDrop s f r).top = s.top := by simp [openDrop]

@[simp] theorem entryTake_top {s : State} {f r i : Nat} {e : Bytes} : (entryTake s f r i e).top = s.top := by
  simp only [entryTake]
  split <;> simp

@[simp] theorem entryRead_top {s : State} {f r : Nat} : (entryRead s f r).top = s.top := (rfl)

@[simp] theorem commandFetch_top {f r : Nat} {entry : Option Bytes} {s : State} : (commandFetch f r entry s).top = s.top := by
  unfold commandFetch
  dsimp only
  split
  · simp
  · split <;> simp

@[simp] theorem msixHoldoffEnd_top {f r : Nat} {s : State} : (msixHoldoffEnd f r s).top = s.top := by
  simp only [msixHoldoffEnd]
  split <;> simp

@[simp] theorem fnReset_top {s : State} {f : Nat} : (fnReset s f).top = s.top := by simp [fnReset]

@[simp] theorem fnResetAll_top {s : State} : (fnResetAll s).top = s.top := by simp [fnResetAll]

@[simp] theorem flr_top {f : Nat} {s : State} : (flr f s).top = s.top := by simp [flr]

@[simp] theorem linkShow_top {s : State} : (linkShow s).top = s.top := by simp [linkShow]

@[simp] theorem linkOff_top {s : State} : (linkOff s).top = s.top := by simp [linkOff]

@[simp] theorem pciePerst_top {s : State} : (pciePerst s).top = s.top := by simp [pciePerst]

@[simp] theorem pciePerstRelease_top {s : State} : (pciePerstRelease s).top = s.top := (rfl)

@[simp] theorem fnEnable_top {s : State} {vfs : Nat} {msix : List Nat} : (fnEnable s vfs msix).top = s.top := by simp [fnEnable]

@[simp] theorem pcieLinkChange_top {up : Bool} {gen width : Nat} {flit : Bool} {vfs : Nat} {msix : List Nat} {s : State} :
    (pcieLinkChange up gen width flit vfs msix s).top = s.top := by simp [pcieLinkChange]

@[simp] theorem txShut_top {s : State} {f : Nat} {d : TxDesc} : (txShut s f d).top = s.top := by simp [txShut]

@[simp] theorem txInject_top {s : State} {f : Nat} {d : TxDesc} {b : Bytes} : (txInject s f d b).top = s.top := by
  unfold txInject
  split <;> simp

@[simp] theorem txDescriptor_top {f k : Nat} {entry data : Option Bytes} {s : State} : (txDescriptor f k entry data s).top = s.top := by
  unfold txDescriptor
  split <;> simp

@[simp] theorem rxWrite_top {s : State} {f r at_ : Nat} {x : HostFrame} : (rxWrite s f r at_ x).top = s.top := by simp [rxWrite]

@[simp] theorem hostFrameDeliver_top {s : State} : (hostFrameDeliver s).top = s.top := by
  unfold hostFrameDeliver
  dsimp only
  (repeat' split) <;> simp

@[simp] theorem twinAct_top {s : State} {off v t i base n : Nat} : (twinAct s off v t i base n).top = s.top := by simp [twinAct]

@[simp] theorem bar2Write_top {off v : Nat} {s : State} : (bar2Write off v s).top = s.top := by
  unfold bar2Write
  split
  · simp
  · split
    · simp
    · split <;> simp

@[simp] theorem pwfClear_top {s : State} : (pwfClear s).top = s.top := by simp [pwfClear]

@[simp] theorem grant_top {f w v : Nat} {s : State} : (grant f w v s).top = s.top := by simp [grant]

@[simp] theorem fnCfgWrite_top {f v : Nat} {s : State} : (fnCfgWrite f v s).top = s.top := by simp [fnCfgWrite]

@[simp] theorem msixSizeWrite_top {f v : Nat} {s : State} : (msixSizeWrite f v s).top = s.top := by simp [msixSizeWrite]

/-! ## The functions of Machine/Update -/

@[simp] theorem updStatus_top {s : State} {n : Nat} : (updStatus s n).top = s.top := by simp [updStatus]

@[simp] theorem updEnter_top {s : State} {n : Nat} : (updEnter s n).top = s.top := (rfl)

@[simp] theorem updCtl_top {k v : Nat} {s : State} {act : State → Nat × State} (hact : ∀ t, (act t).2.top = t.top) :
    (updCtl k v s act).top = s.top := by simp [updCtl, hact]

@[simp] theorem stagedShow_top {s : State} : (stagedShow s).top = s.top := (rfl)

@[simp] theorem stageStart_top {v : Nat} {s : State} : (stageStart v s).top = s.top := by simp [stageStart]

@[simp] theorem slotErased_top {s : State} {typ slot len : Nat} : (slotErased s typ slot len).top = s.top := by simp [slotErased]

@[simp] theorem stageFailed_top {s : State} {status blocks : Nat} : (stageFailed s status blocks).top = s.top := by simp [stageFailed]

@[simp] theorem slowProgram_top {s : State} {b : Nat} : (slowProgram s b).top = s.top := by simp [slowProgram]

@[simp] theorem stageDone_top {s : State} {typ slot : Nat} {x : Image} : (stageDone s typ slot x).top = s.top := by simp [stageDone]

@[simp] theorem stagingDone_top {dmaOk nvmOk : Bool} {data : Bytes} {slow again : List Nat} {s : State} : (stagingDone dmaOk nvmOk data slow again s).top = s.top := by
  unfold stagingDone
  dsimp only
  (repeat' split) <;> simp

@[simp] theorem prepareDone_top {s : State} : (prepareDone s).top = s.top := by
  unfold prepareDone
  dsimp only
  split
  · simp
  · split <;> simp

@[simp] theorem arm_top {v : Nat} {s : State} : (arm v s).top = s.top := updCtl_top fun s => by
  dsimp only
  (repeat' split) <;> simp

@[simp] theorem installBank_top {s : State} {b : Bank} : (installBank s b).top = s.top := by simp [installBank]

@[simp] theorem judge_top {s : State} : (judge s).top = s.top := by simp [judge]

@[simp] theorem switchBanks_top {s : State} {new : Bank} : (switchBanks s new).top = s.top := by simp [switchBanks]

@[simp] theorem preloadRun_top {s : State} {c : HostCmd} : (preloadRun s c).top = s.top := by simp [preloadRun]

@[simp] theorem preloads_top {s : State} {x : Image} : (preloads s x).top = s.top := by simp [preloads]

@[simp] theorem enterTrial_top {s : State} : (enterTrial s).top = s.top := by simp [enterTrial]

@[simp] theorem activation_top {s : State} : (activation s).top = s.top := by
  unfold activation
  split
  · simp
  · split
    · simp
    · split <;> simp

@[simp] theorem disarm_top {v : Nat} {s : State} : (disarm v s).top = s.top := updCtl_top fun s => by
  dsimp only
  split <;> simp

@[simp] theorem firmwareSwapDone_top {s : State} : (firmwareSwapDone s).top = s.top := by simp [firmwareSwapDone]

@[simp] theorem confirmImages_top {s : State} : (confirmImages s).top = s.top := by
  unfold confirmImages
  dsimp only
  split
  · split <;> simp
  · split <;> simp

@[simp] theorem fallbackDue_top {s : State} {b : Bool} : (fallbackDue s b).top = s.top := by simp [fallbackDue]

@[simp] theorem trialOver_top {s : State} : (trialOver s).top = s.top := (rfl)

@[simp] theorem confirmTrial_top {v : Nat} {s : State} : (confirmTrial v s).top = s.top := updCtl_top fun s => by
  dsimp only
  (repeat' split) <;> simp

@[simp] theorem abandon_top {v : Nat} {s : State} : (abandon v s).top = s.top := updCtl_top fun s => by (repeat' split) <;> simp

@[simp] theorem trialExpire_top {s : State} : (trialExpire s).top = s.top := by simp [trialExpire]

@[simp] theorem fallbackStart_top {s : State} : (fallbackStart s).top = s.top := by
  unfold fallbackStart
  dsimp only
  split
  · simp
  · split <;> simp

@[simp] theorem updDiscard_top {v : Nat} {s : State} : (updDiscard v s).top = s.top := updCtl_top fun s => by split <;> simp

@[simp] theorem epochPassed_top {old new d : Nat} {s : State} : (epochPassed old new d s).top = s.top := by
  simp only [epochPassed]
  split <;> simp

@[simp] theorem stepped_top {old : Ptp} {s : State} : (stepped old s).top = s.top := by simp [stepped]

@[simp] theorem timStep_top {k v : Nat} {s : State} {time : State → Ptp} : (timStep k v s time).top = s.top := by simp [timStep]

@[simp] theorem timSet_top {v : Nat} {s : State} : (timSet v s).top = s.top := by simp [timSet]

@[simp] theorem timAdd_top {v : Nat} {s : State} : (timAdd v s).top = s.top := by simp [timAdd]

/-! ## The functions of Machine/Pair -/

@[simp] theorem roleFollow_top {s t : State} : (roleFollow s t).top = t.top := by
  simp only [roleFollow]
  split <;> simp

@[simp] theorem roleEnter_top {s : State} {r : Nat} {lease : Bool} : (roleEnter s r lease).top = s.top := by simp [roleEnter]

@[simp] theorem withdrawNow_top {s : State} {why : Nat} : (withdrawNow s why).top = s.top := by simp [withdrawNow]

@[simp] theorem digestCheck_top {s : State} : (digestCheck s).top = s.top := by
  unfold digestCheck
  split <;> simp

@[simp] theorem landingBad_top {s : State} {k : Nat} : (landingBad s k).top = s.top := by simp [landingBad]

@[simp] theorem landingAck_top {s : State} {typ epoch status : Nat} : (landingAck s typ epoch status).top = s.top := by simp [landingAck]

@[simp] theorem landingRefused_top {s : State} {typ epoch : Nat} : (landingRefused s typ epoch).top = s.top := by simp [landingRefused]

@[simp] theorem roleMessage_top {s : State} {typ epoch reason : Nat} : (roleMessage s typ epoch reason).top = s.top := by
  simp only [roleMessage]
  split <;> simp

@[simp] theorem landingCurrent_top {s : State} {typ body : Nat} : (landingCurrent s typ body).top = s.top := by simp [landingCurrent]

@[simp] theorem landing_top {sync typ body crc : Nat} {framed : Bool} {s : State} : (landing sync typ body crc framed s).top = s.top := by simp [landing]

@[simp] theorem arbLoss_top {s : State} : (arbLoss s).top = s.top := by simp [arbLoss]

@[simp] theorem leaseExpire_top {s : State} : (leaseExpire s).top = s.top := by simp [leaseExpire]

@[simp] theorem healthSend_top {s : State} : (healthSend s).top = s.top := by simp [healthSend]

@[simp] theorem helloSend_top {s : State} : (helloSend s).top = s.top := by simp [helloSend]

@[simp] theorem faultMsgSend_top {s : State} : (faultMsgSend s).top = s.top := by
  unfold faultMsgSend
  split <;> simp

@[simp] theorem galleryHelloSend_top {s : State} : (galleryHelloSend s).top = s.top := by simp [galleryHelloSend]

@[simp] theorem galleryHelloReceive_top {partner : Nat} {digest : Bytes} {alt : Option Bytes} {resync : Bool} {s : State} :
    (galleryHelloReceive partner digest alt resync s).top = s.top := by simp [galleryHelloReceive]

@[simp] theorem galleryLoss_top {s : State} : (galleryLoss s).top = s.top := by simp [galleryLoss]

@[simp] theorem recordBad_top {s : State} : (recordBad s).top = s.top := by simp [recordBad]

@[simp] theorem mirroredAct_top {s : State} {a v : Nat} : (mirroredAct s a v).top = s.top := by
  unfold mirroredAct
  split
  · simp
  · simp
  · split
    · simp
    · split <;> simp

@[simp] theorem mirrorFlush_top {c : HostCmd} {s : State} : (mirrorFlush c s).s.top = s.top := by simp [mirrorFlush]

@[simp] theorem itemApply_top {s : State} {x : CmdItem} : (itemApply s x).top = s.top := by
  unfold itemApply
  split
  · simp
  · split
    · simp
    · split <;> simp

@[simp] theorem lagShow_top {s : State} : (lagShow s).top = s.top := by simp [lagShow]

@[simp] theorem rxAdvance_top {s : State} {k : Nat} : (rxAdvance s k).top = s.top := by
  induction k generalizing s with
  | zero => rfl
  | succ n ih =>
    unfold rxAdvance
    dsimp only
    split <;> simp [ih]

@[simp] theorem itemReceive_top {s : State} {q : Nat} {x : CmdItem} : (itemReceive s q x).top = s.top := by simp [itemReceive]

@[simp] theorem itemNext_top {s : State} : (itemNext s).top = s.top := by
  simp only [itemNext]
  split <;> simp

@[simp] theorem cmdItemApply_top {rx : Option (Nat × CmdItem)} {s : State} : (cmdItemApply rx s).top = s.top := by
  unfold cmdItemApply
  split
  · simp
  · split
    · split <;> simp
    · split <;> simp

@[simp] theorem replayAgain_top {s : State} {q : Nat} : (replayAgain s q).top = s.top := by
  unfold replayAgain
  split <;> simp

@[simp] theorem nackReceive_top {q : Nat} {replay : Bool} {s : State} : (nackReceive q replay s).top = s.top := by simp [nackReceive]

@[simp] theorem ackStall_top {s : State} : (ackStall s).top = s.top := by simp [ackStall]

@[simp] theorem galQueue_top {s : State} {k : Nat} {l : List GalCell} : (galQueue s k l).top = s.top := (rfl)

@[simp] theorem stateSnapshot_top {s : State} : (stateSnapshot s).top = s.top := by
  unfold stateSnapshot
  split <;> simp

@[simp] theorem polRestore_top {s : State} {i c e : Nat} : (polRestore s i c e).top = s.top := by simp [polRestore]

@[simp] theorem nodeRestore_top {s : State} {i : Nat} {a b : Int} : (nodeRestore s i a b).top = s.top := by simp [nodeRestore]

@[simp] theorem stateRecordApply_top {r : Option (Nat × Nat × Int × Int)} {s : State} : (stateRecordApply r s).top = s.top := by
  unfold stateRecordApply
  dsimp only
  split
  · simp
  · split <;> simp

@[simp] theorem baselineLatch_top {s : State} : (baselineLatch s).top = s.top := by simp [baselineLatch]

@[simp] theorem baselineApply_top {i frames bytes : Nat} {s : State} : (baselineApply i frames bytes s).top = s.top := by simp [baselineApply]

@[simp] theorem pairCtl_top {s : State} {v : Nat} : (pairCtl s v).top = s.top := by simp [pairCtl]

@[simp] theorem resync_top {v : Nat} {s : State} : (resync v s).top = s.top := by simp [resync]

@[simp] theorem replayRun_top {k : Nat} {s : State} : (replayRun k s).top = s.top := by
  induction k generalizing s with
  | zero => rfl
  | succ n ih =>
    unfold replayRun
    dsimp only
    split
    · rfl
    · exact ih.trans (foldl_top fun _ _ => itemApply_top)

@[simp] theorem replayOpen_top {s : State} : (replayOpen s).top = s.top := by simp [replayOpen]

@[simp] theorem replayRegion_top {q : Nat} {items : List CmdItem} {s : State} : (replayRegion q items s).top = s.top := by simp [replayRegion]

@[simp] theorem resyncComplete_top {q : Nat} {s : State} : (resyncComplete q s).top = s.top := by simp [resyncComplete]

@[simp] theorem marginMeasure_top {margins : List Nat} {s : State} : (marginMeasure margins s).top = s.top := by simp [marginMeasure]

@[simp] theorem galleryLaneCalibration_top {l : Fin 4} {ok : Bool} {s : State} : (galleryLaneCalibration l ok s).top = s.top := by simp [galleryLaneCalibration]

/-! ## The functions of Machine/Test -/

@[simp] theorem laneRestore_top {s : State} {x : Nat} : (laneRestore s x).top = s.top := by simp [laneRestore]

@[simp] theorem laneLoopDrop_top {s : State} {x : Nat} : (laneLoopDrop s x).top = s.top := by simp [laneLoopDrop]

@[simp] theorem laneTestConfig_top {x v : Nat} {s : State} : (laneTestConfig x v s).top = s.top := by simp [laneTestConfig]

@[simp] theorem checkerLockChange_top {x : Nat} {locked : Bool} {s : State} : (checkerLockChange x locked s).top = s.top := by simp [checkerLockChange]

@[simp] theorem checkerBitError_top {x n : Nat} {s : State} : (checkerBitError x n s).top = s.top := by simp [checkerBitError]

@[simp] theorem probeSend_top {standby : Bool} {s : State} {n : Nat} : (probeSend standby s n).top = s.top := by
  unfold probeSend
  split <;> simp

@[simp] theorem probeGo_top {v : Nat} {s : State} : (probeGo v s).top = s.top := by simp [probeGo]

@[simp] theorem standbyProbe_top {s : State} : (standbyProbe s).top = s.top := by simp [standbyProbe]

@[simp] theorem probeCapture_top {n : Nat} {frame : Bytes} {s : State} : (probeCapture n frame s).top = s.top := by
  unfold probeCapture
  split <;> simp

@[simp] theorem probeTimeout_top {n : Nat} {s : State} : (probeTimeout n s).top = s.top := by
  unfold probeTimeout
  split <;> simp

@[simp] theorem meminjCtl_top {s : State} {v : Nat} : (meminjCtl s v).top = s.top := by simp [meminjCtl]

@[simp] theorem memoryInjectArm_top {v : Nat} {s : State} : (memoryInjectArm v s).top = s.top := by simp [memoryInjectArm]

/-! ## The functions of Machine/Regs -/

@[simp] theorem rcClear_top {s : State} {a : Nat} : (rcClear s a).top = s.top := by
  unfold rcClear
  dsimp only
  split
  · simp
  · split
    · simp
    · split
      · split <;> simp
      · split <;> simp

@[simp] theorem latchDrop_top {s : State} {f a : Nat} : (latchDrop s f a).top = s.top := (rfl)

@[simp] theorem latchPut_top {s : State} {f a : Nat} : (latchPut s f a).top = s.top := (rfl)

@[simp] theorem loLatch_top {s : State} {f a : Nat} : (loLatch s f a).top = s.top := by simp [loLatch]

@[simp] theorem regRead_top {s : State} {f a : Nat} : (regRead s f a).2.top = s.top := by
  unfold regRead
  split <;> simp

@[simp] theorem windowRead_top {s : State} {a : Nat} : (windowRead s a).2.top = s.top := by
  unfold windowRead
  split <;> simp

@[simp] theorem bar0Read_top {s : State} {f addr : Nat} : (bar0Read s f addr).2.top = s.top := by
  unfold bar0Read
  split
  · simp
  · split
    · simp
    · split <;> simp

@[simp] theorem bar2Read_top {s : State} {off : Nat} : (bar2Read s off).2.top = s.top := by
  unfold bar2Read
  split
  · simp
  · split <;> simp

@[simp] theorem readBack_top {x : Nat × State} : (readBack x).top = x.2.top := (rfl)

@[simp] theorem busRead_top {f : Nat} {bar2 : Bool} {addr width : Nat} {s : State} : (busRead f bar2 addr width s).top = s.top := by simp [busRead]

@[simp] theorem accessExpired_top {f : Nat} {write : Bool} {addr v : Nat} {s : State} : (accessExpired f write addr v s).top = s.top := by
  unfold accessExpired
  split <;> simp

/-! ## The commands -/

/-- Every command outside `movesTop` answers a state with the same top-level state: the law of its function, one arm each. -/
theorem exec_top {c : Instr} (h : movesTop c = false) (s : State) : ∃ t, exec c s = .next t ∧ t.top = s.top :=
  match c, h with
  | .vinDip, _ => ⟨_, rfl, vinDip_top⟩
  | .vinWarn, _ => ⟨_, rfl, vinWarn_top⟩
  | .pllLocked _, _ => ⟨_, rfl, pllLocked_top⟩
  | .rampStep, _ => ⟨_, rfl, rampStep_top⟩
  | .stairTransfer _ _ _ _, _ => ⟨_, rfl, stairTransfer_top⟩
  | .lineLaneCalibration _ _ _, _ => ⟨_, rfl, lineLaneCalibration_top⟩
  | .linkTrainingDone _ _, _ => ⟨_, rfl, linkTrainingDone_top⟩
  | .linkTrainingRetry _, _ => ⟨_, rfl, linkTrainingRetry_top⟩
  | .retrain _, _ => ⟨_, rfl, retrain_top⟩
  | .admin _ _, _ => ⟨_, rfl, admin_top⟩
  | .lineFrameReceive _ _ _ _ _ ⟨_, _⟩, _ => ⟨_, rfl, lineFrameReceive_top⟩
  | .macControlFrame _ _, _ => ⟨_, rfl, macControlFrame_top⟩
  | .pauseTimerExpire _ _, _ => ⟨_, rfl, pauseTimerExpire_top⟩
  | .pfcRefresh _, _ => ⟨_, rfl, pfcRefresh_top⟩
  | .pfcStormDetect _ _, _ => ⟨_, rfl, pfcStormDetect_top⟩
  | .pfcStormRestore _ _, _ => ⟨_, rfl, pfcStormRestore_top⟩
  | .linkFaultDetect ⟨_, _⟩, _ => ⟨_, rfl, linkFaultDetect_top⟩
  | .remoteFaultReceived _, _ => ⟨_, rfl, remoteFaultReceived_top⟩
  | .synceResume _, _ => ⟨_, rfl, synceResume_top⟩
  | .ingressPass _ _ _ ⟨_, _⟩, _ => ⟨_, rfl, ingressPass_top⟩
  | .fragEntryAge _ _ _, _ => ⟨_, rfl, fragEntryAge_top⟩
  | .fragFlush _, _ => ⟨_, rfl, fragFlush_top⟩
  | .scanWindow _ ⟨_, _⟩, _ => ⟨_, rfl, scanWindow_top⟩
  | .sigWrite _, _ => ⟨_, rfl, sigWrite_top⟩
  | .sigInvalidate _, _ => ⟨_, rfl, sigInvalidate_top⟩
  | .sigProfile _, _ => ⟨_, rfl, sigProfile_top⟩
  | .sigClear _, _ => ⟨_, rfl, sigClear_top⟩
  | .sigCopy _, _ => ⟨_, rfl, sigCopy_top⟩
  | .sigCopyDone, _ => ⟨_, rfl, sigCopyDone_top⟩
  | .sigSwap _, _ => ⟨_, rfl, sigSwap_top⟩
  | .sigSwapInstant, _ => ⟨_, rfl, sigSwapInstant_top⟩
  | .sigRead _ _, _ => ⟨_, rfl, sigRead_top⟩
  | .sigCancel, _ => ⟨_, rfl, sigCancel_top⟩
  | .oldBankDrained, _ => ⟨_, rfl, oldBankDrained_top⟩
  | .sigEntryRepair _ _ _, _ => ⟨_, rfl, sigEntryRepair_top⟩
  | .insert _, _ => ⟨_, rfl, insertEntry_top⟩
  | .delete _, _ => ⟨_, rfl, deleteEntry_top⟩
  | .modify _, _ => ⟨_, rfl, modify_top⟩
  | .search _, _ => ⟨_, rfl, search_top⟩
  | .next _, _ => ⟨_, rfl, nextEntry_top⟩
  | .readEntry _, _ => ⟨_, rfl, readEntry_top⟩
  | .move _, _ => ⟨_, rfl, move_top⟩
  | .flushByPort _, _ => ⟨_, rfl, flushByPort_top⟩
  | .flushByPortDone, _ => ⟨_, rfl, flushByPortDone_top⟩
  | .nop _, _ => ⟨_, rfl, nop_top⟩
  | .learnBusMsg, _ => ⟨_, rfl, learnBusMsg_top⟩
  | .learnRefreshMsg, _ => ⟨_, rfl, learnRefreshMsg_top⟩
  | .ageSweep _ _, _ => ⟨_, rfl, ageSweep_top⟩
  | .trieNodeRebuild, _ => ⟨_, rfl, trieNodeRebuild_top⟩
  | .policerSweep, _ => ⟨_, rfl, policerSweep_top⟩
  | .recircSlot _, _ => ⟨_, rfl, recircSlot_top⟩
  | .hallRelease _, _ => ⟨_, rfl, hallRelease_top⟩
  | .egressPass _, _ => ⟨_, rfl, egressPass_top⟩
  | .bufferArrival _, _ => ⟨_, rfl, bufferArrival_top⟩
  | .dramReadComplete _ _ _ _ _, _ => ⟨_, rfl, dramReadComplete_top⟩
  | .dramWriteComplete _ _ _ _, _ => ⟨_, rfl, dramWriteComplete_top⟩
  | .mergeTimeout _, _ => ⟨_, rfl, mergeTimeout_top⟩
  | .tagWriteback ⟨_, _, _⟩, _ => ⟨_, rfl, tagWriteback_top⟩
  | .wmCrossedClear _ _, _ => ⟨_, rfl, wmCrossedClear_top⟩
  | .qwmConfig _ _, _ => ⟨_, rfl, qwmConfig_top⟩
  | .requestRetry _, _ => ⟨_, rfl, requestRetry_top⟩
  | .creditGrant _, _ => ⟨_, rfl, creditGrant_top⟩
  | .voqTimeout _, _ => ⟨_, rfl, voqTimeout_top⟩
  | .voqDequeue _, _ => ⟨_, rfl, voqDequeue_top⟩
  | .egressSelect _ _, _ => ⟨_, rfl, egressSelect_top⟩
  | .calendarSlot, _ => ⟨_, rfl, calendarSlot_top⟩
  | .fenceLift _, _ => ⟨_, rfl, fenceLift_top⟩
  | .fenceTimeout _, _ => ⟨_, rfl, fenceTimeout_top⟩
  | .gateEntryChange _, _ => ⟨_, rfl, gateEntryChange_top⟩
  | .gateEnable _ _, _ => ⟨_, rfl, gateEnable_top⟩
  | .gateChange _, _ => ⟨_, rfl, gateChange_top⟩
  | .gateCancel _, _ => ⟨_, rfl, gateCancel_top⟩
  | .gateActivate _, _ => ⟨_, rfl, gateActivate_top⟩
  | .stagedFrameStart _ _, _ => ⟨_, rfl, stagedFrameStart_top⟩
  | .gateNofit _ _, _ => ⟨_, rfl, gateNofit_top⟩
  | .epochWindow, _ => ⟨_, rfl, epochWindow_top⟩
  | .fabricLaneCalibration _ _ _, _ => ⟨_, rfl, fabricLaneCalibration_top⟩
  | .fabricTrainingRetry _ _, _ => ⟨_, rfl, fabricTrainingRetry_top⟩
  | .caravanFrameSend _, _ => ⟨_, rfl, caravanFrameSend_top⟩
  | .caravanFrameReceive _ _ _ _ _, _ => ⟨_, rfl, by simp⟩
  | .slipRead _ ⟨_, _⟩, _ => ⟨_, rfl, by simp⟩
  | .cellReceive _ _, _ => ⟨_, rfl, cellReceive_top⟩
  | .holeTimeout _ _ _, _ => ⟨_, rfl, holeTimeout_top⟩
  | .contextFree _ _ _, _ => ⟨_, rfl, contextFree_top⟩
  | .defectDeclare _ _ _, _ => ⟨_, rfl, by simp⟩
  | .defectClear _ _ _, _ => ⟨_, rfl, by simp⟩
  | .degInterval _ _, _ => ⟨_, rfl, degInterval_top⟩
  | .bkpWatchdog _ _, _ => ⟨_, rfl, bkpWatchdog_top⟩
  | .protClear, _ => ⟨_, rfl, protClear_top⟩
  | .protManualSwitch _, _ => ⟨_, rfl, protManualSwitch_top⟩
  | .protForcedSwitch _, _ => ⟨_, rfl, protForcedSwitch_top⟩
  | .protLockout, _ => ⟨_, rfl, protLockout_top⟩
  | .protTest, _ => ⟨_, rfl, protTest_top⟩
  | .wtrExpire, _ => ⟨_, rfl, wtrExpire_top⟩
  | .srqIncDeclare, _ => ⟨_, rfl, srqIncDeclare_top⟩
  | .pmSecond, _ => ⟨_, rfl, pmSecond_top⟩
  | .dramTraining _ _, _ => ⟨_, rfl, dramTraining_top⟩
  | .dramRefresh ⟨_, _⟩, _ => ⟨_, rfl, dramRefresh_top⟩
  | .dramTempReadout _ _, _ => ⟨_, rfl, dramTempReadout_top⟩
  | .retrainDue _, _ => ⟨_, rfl, retrainDue_top⟩
  | .drcRetrain _, _ => ⟨_, rfl, drcRetrain_top⟩
  | .pauseBegin _, _ => ⟨_, rfl, pauseBegin_top⟩
  | .pauseEnd _ _, _ => ⟨_, rfl, pauseEnd_top⟩
  | .dramTestStep _ _ _, _ => ⟨_, rfl, dramTestStep_top⟩
  | .lease _ ⟨_, _⟩ _ _, _ => ⟨_, rfl, landing_top⟩
  | .standby ⟨_, _⟩ _ _, _ => ⟨_, rfl, landing_top⟩
  | .switch ⟨_, _⟩ _ _, _ => ⟨_, rfl, landing_top⟩
  | .withdraw ⟨_, _⟩ _ _, _ => ⟨_, rfl, landing_top⟩
  | .arbLoss, _ => ⟨_, rfl, arbLoss_top⟩
  | .leaseExpire, _ => ⟨_, rfl, leaseExpire_top⟩
  | .healthSend, _ => ⟨_, rfl, healthSend_top⟩
  | .helloSend, _ => ⟨_, rfl, helloSend_top⟩
  | .faultMsgSend, _ => ⟨_, rfl, faultMsgSend_top⟩
  | .galleryHelloSend, _ => ⟨_, rfl, galleryHelloSend_top⟩
  | .galleryHelloReceive _ _ _ _, _ => ⟨_, rfl, galleryHelloReceive_top⟩
  | .galleryLoss, _ => ⟨_, rfl, galleryLoss_top⟩
  | .cmdItemApply _, _ => ⟨_, rfl, cmdItemApply_top⟩
  | .nackReceive ⟨_, _⟩, _ => ⟨_, rfl, nackReceive_top⟩
  | .ackStall, _ => ⟨_, rfl, ackStall_top⟩
  | .stateSnapshot, _ => ⟨_, rfl, stateSnapshot_top⟩
  | .stateRecordApply _, _ => ⟨_, rfl, stateRecordApply_top⟩
  | .baselineLatch, _ => ⟨_, rfl, baselineLatch_top⟩
  | .baselineApply _ _ _, _ => ⟨_, rfl, baselineApply_top⟩
  | .resync _, _ => ⟨_, rfl, resync_top⟩
  | .replayRegion ⟨_, _⟩, _ => ⟨_, rfl, replayRegion_top⟩
  | .resyncComplete _, _ => ⟨_, rfl, resyncComplete_top⟩
  | .standbyProbe, _ => ⟨_, rfl, standbyProbe_top⟩
  | .marginMeasure _, _ => ⟨_, rfl, marginMeasure_top⟩
  | .partnerFaultRecord _, _ => ⟨_, rfl, partnerFaultRecord_top⟩
  | .pushStart _, _ => ⟨_, rfl, pushStart_top⟩
  | .commitFw, _ => ⟨_, rfl, arbCtl_top⟩
  | .commitCfg, _ => ⟨_, rfl, arbCtl_top⟩
  | .keyRevoke _, _ => ⟨_, rfl, keyRevoke_top⟩
  | .toField _, _ => ⟨_, rfl, toField_top⟩
  | .stageStart _, _ => ⟨_, rfl, stageStart_top⟩
  | .stagingDone _ _ _ ⟨_, _⟩, _ => ⟨_, rfl, stagingDone_top⟩
  | .prepareDone, _ => ⟨_, rfl, prepareDone_top⟩
  | .arm _, _ => ⟨_, rfl, arm_top⟩
  | .disarm _, _ => ⟨_, rfl, disarm_top⟩
  | .activation, _ => ⟨_, rfl, activation_top⟩
  | .firmwareSwapDone, _ => ⟨_, rfl, firmwareSwapDone_top⟩
  | .confirm _, _ => ⟨_, rfl, confirmTrial_top⟩
  | .abandon _, _ => ⟨_, rfl, abandon_top⟩
  | .discard _, _ => ⟨_, rfl, updDiscard_top⟩
  | .trialExpire, _ => ⟨_, rfl, trialExpire_top⟩
  | .fallbackStart, _ => ⟨_, rfl, fallbackStart_top⟩
  | .refClockLoss _, _ => ⟨_, rfl, refClockLoss_top⟩
  | .refClockReturn _, _ => ⟨_, rfl, refClockReturn_top⟩
  | .pllLoss _, _ => ⟨_, rfl, by simp⟩
  | .clkFreqAlarm _ _, _ => ⟨_, rfl, by simp⟩
  | .ppsInLoss, _ => ⟨_, rfl, ppsInLoss_top⟩
  | .cd38Loss, _ => ⟨_, rfl, cd38Loss_top⟩
  | .relockFd, _ => ⟨_, rfl, clkCtl_top⟩
  | .relockQd, _ => ⟨_, rfl, clkCtl_top⟩
  | .rootRelockDone _ _, _ => ⟨_, rfl, rootRelockDone_top⟩
  | .timSet _, _ => ⟨_, rfl, timSet_top⟩
  | .timAdd _, _ => ⟨_, rfl, timAdd_top⟩
  | .timIncrCommit _, _ => ⟨_, rfl, timIncrCommit_top⟩
  | .ppsOutEdge _, _ => ⟨_, rfl, ppsOutEdge_top⟩
  | .ppsInEdge _, _ => ⟨_, rfl, ppsInEdge_top⟩
  | .clkoutConfig _, _ => ⟨_, rfl, clkoutConfig_top⟩
  | .railOut _ _ _, _ => ⟨_, rfl, railOut_top⟩
  | .railRecover, _ => ⟨_, rfl, railRecover_top⟩
  | .tripRecover, _ => ⟨_, rfl, tripRecover_top⟩
  | .vbatCollapse, _ => ⟨_, rfl, vbatCollapse_top⟩
  | .holdoverWrite, _ => ⟨_, rfl, holdoverWrite_top⟩
  | .clrRec, _ => ⟨_, rfl, clrRec_top⟩
  | .vio18Overload, _ => ⟨_, rfl, vio18Overload_top⟩
  | .telemetryUpdate _ _ _ _ _ _ _, _ => ⟨_, rfl, telemetryUpdate_top⟩
  | .sliceAdd, _ => ⟨_, rfl, sliceAdd_top⟩
  | .sliceRemove, _ => ⟨_, rfl, sliceRemove_top⟩
  | .sliceSleep, _ => ⟨_, rfl, sliceSleep_top⟩
  | .drainEnd _ _, _ => ⟨_, rfl, drainEnd_top⟩
  | .enteringDone _, _ => ⟨_, rfl, enteringDone_top⟩
  | .wakeDone _, _ => ⟨_, rfl, wakeDone_top⟩
  | .join _, _ => ⟨_, rfl, join_top⟩
  | .maintGrant _ _, _ => ⟨_, rfl, maintGrant_top⟩
  | .maintDeadline _ _, _ => ⟨_, rfl, maintDeadline_top⟩
  | .prodDoorbell _ _ _, _ => ⟨_, rfl, prodDoorbell_top⟩
  | .consDoorbell _ _ _, _ => ⟨_, rfl, consDoorbell_top⟩
  | .ringEnable _ _ _, _ => ⟨_, rfl, ringEnable_top⟩
  | .ringDisable _ _ _ _, _ => ⟨_, rfl, ringDisable_top⟩
  | .flush _ _ _ _, _ => ⟨_, rfl, ringFlushCmd_top⟩
  | .commandFetch _ _ _, _ => ⟨_, rfl, commandFetch_top⟩
  | .msixHoldoffEnd _ _, _ => ⟨_, rfl, msixHoldoffEnd_top⟩
  | .flr _, _ => ⟨_, rfl, flr_top⟩
  | .pciePerst, _ => ⟨_, rfl, pciePerst_top⟩
  | .txDescriptor _ _ _ _, _ => ⟨_, rfl, txDescriptor_top⟩
  | .hostFrameDeliver, _ => ⟨_, rfl, hostFrameDeliver_top⟩
  | .bar2Write _ _, _ => ⟨_, rfl, bar2Write_top⟩
  | .pwfClear, _ => ⟨_, rfl, pwfClear_top⟩
  | .grant _ _ _, _ => ⟨_, rfl, grant_top⟩
  | .msixSizeWrite _ _, _ => ⟨_, rfl, msixSizeWrite_top⟩
  | .sharedScratchOp _, _ => ⟨_, rfl, sharedScratchOp_top⟩
  | .scrWindowWrite _ _, _ => ⟨_, rfl, scrWindowWrite_top⟩
  | .scrAliasSet _ _, _ => ⟨_, rfl, scrAliasSet_top⟩
  | .scrAliasClear _ _, _ => ⟨_, rfl, scrAliasClear_top⟩
  | .scrAtomicAdd, _ => ⟨_, rfl, scrAtomGo_top⟩
  | .scrAtomicSwap, _ => ⟨_, rfl, scrAtomGo_top⟩
  | .scrTestStep _ _, _ => ⟨_, rfl, scrTestStep_top⟩
  | .faultCollect, _ => ⟨_, rfl, by simp⟩
  | .fltStatusClear _, _ => ⟨_, rfl, by simp⟩
  | .firstFaultClear, _ => ⟨_, rfl, firstFaultClear_top⟩
  | .ringRdWrite _, _ => ⟨_, rfl, ringRdWrite_top⟩
  | .nvlogAppend, _ => ⟨_, rfl, nvlogAppend_top⟩
  | .nvlogRead _, _ => ⟨_, rfl, nvlogRead_top⟩
  | .pairRead _, _ => ⟨_, rfl, pairRead_top⟩
  | .dumpEpoch _, _ => ⟨_, rfl, dumpEpoch_top⟩
  | .dumpWrite _, _ => ⟨_, rfl, dumpWrite_top⟩
  | .perfTenantWrite _ _, _ => ⟨_, rfl, perfTenantWrite_top⟩
  | .laneTestConfig _ _, _ => ⟨_, rfl, laneTestConfig_top⟩
  | .checkerLockChange _ _, _ => ⟨_, rfl, checkerLockChange_top⟩
  | .probeGo _, _ => ⟨_, rfl, probeGo_top⟩
  | .probeCapture _ _, _ => ⟨_, rfl, probeCapture_top⟩
  | .probeTimeout _, _ => ⟨_, rfl, probeTimeout_top⟩
  | .faultInject _, _ => ⟨_, rfl, faultInject_top⟩
  | .memoryInjectArm _, _ => ⟨_, rfl, memoryInjectArm_top⟩
  | .readClear _ _ ⟨_, _⟩, _ => ⟨_, rfl, busRead_top⟩
  | .loReadLatch _ _, _ => ⟨_, rfl, busRead_top⟩
  | .fabricLinkTrainingDone _ _ _, _ => ⟨_, rfl, fabricLinkTrainingDone_top⟩
  | .galleryLaneCalibration _ _, _ => ⟨_, rfl, galleryLaneCalibration_top⟩
  | .linkFaultClear _, _ => ⟨_, rfl, linkFaultClear_top⟩
  | .remoteFaultClear _, _ => ⟨_, rfl, remoteFaultClear_top⟩
  | .vbatLow _, _ => ⟨_, rfl, vbatLow_top⟩
  | .vio18Recover, _ => ⟨_, rfl, vio18Recover_top⟩
  | .pcieLinkChange _ _ _ _ _ _, _ => ⟨_, rfl, pcieLinkChange_top⟩
  | .pciePerstRelease, _ => ⟨_, rfl, pciePerstRelease_top⟩
  | .pllLockFail _, _ => ⟨_, rfl, pllLockFail_top⟩
  | .accessExpired _ _ _ _, _ => ⟨_, rfl, accessExpired_top⟩
  | .checkerBitError _ _, _ => ⟨_, rfl, checkerBitError_top⟩
  | .vinGood _, h | .vinFail, h | .vinWarnClear, h | .resetLLow, h | .resetExit _ _, h | .nvmIdAttempt _ _, h | .imageBlockRead _, h
  | .loadComplete, h | .verifyComplete, h | .configRecord, h | .applyComplete _, h | .bringupComplete, h | .rootPllLockTimeout, h | .reread _, h
  | .pushComplete _ _, h | .pushSlotProgram _, h | .restartAct _, h | .fallbackDone, h | .tempSensorRead _, h | .tapReset, h | .extest, h | .idcode, h
  | .samplePreload, h | .extestPulse, h | .extestTrain, h | .clamp, h | .highz, h | .serial, h | .mbist, h | .otpRead, h | .scan, h | .bypass, h
  | .devReset _, h | .registerWrite _ _ _ _, h | .hiWriteCommit _ _ _, h => nomatch h

/-- Settles O10: what every function but those of the listed commands leaves alone. -/
theorem topStateMovesOnlyByItsCommands : Obligations.TopStateMovesOnlyByItsCommands := by
  unfold Obligations.TopStateMovesOnlyByItsCommands
  intro c s t hc ht
  obtain ⟨u, hu, htop⟩ := exec_top hc s
  cases ht.symm.trans hu
  exact htop

end Sys2Proof.Machine

/-! Received line frames, PAUSE, PFC and the storm watchdog (O45). -/

namespace Sys2Proof.Machine

/-! ## Fields and counters -/

theorem getF_lt (s : State) (f : Fld) : getF s f < 2 ^ f.len := Nat.mod_lt _ (Nat.two_pow_pos _)

theorem getF_bumpN_ne (s : State) {a : Nat} (n : Nat) {f : Fld} (h : f.reg ≠ a) : getF (bumpN s a n) f = getF s f := by
  rw [getF, rd_bumpN_ne s a f.reg n h, ← getF]

theorem flag_bumpN_ne (s : State) {a : Nat} (n : Nat) {f : Fld} (h : f.reg ≠ a) : flag (bumpN s a n) f = flag s f := by
  rw [flag, getF_bumpN_ne s n h, ← flag]

theorem regsBut_bumpN (s : State) (a n : Nat) : RegsBut [a] s (bumpN s a n) := fun _ hb => rd_bumpN_ne s a _ n (List.ne_of_not_mem_cons hb)

theorem countWord_zero (w : Word) : countWord w 0 = w := by
  have hw := w.isLt
  apply BitVec.eq_of_toNat_eq
  simp only [countWord, Word.ofNat, BitVec.toNat_ofNat]
  split <;> omega

/-- A counter after any number of counts, none included. -/
theorem rd_bumpN (s : State) (a n : Nat) : rd (bumpN s a n) a = countWord (rd s a) n := by
  by_cases h : n = 0
  · rw [h, countWord_zero, bumpN, if_pos rfl]
  · exact rd_bumpN_self s a n h

/-! ## MAC control frames (R46, R51) -/

theorem violation_eq (s : State) (p k : Nat) : violation s p k = if portAdmin s p = 0 then s else bump s (Reg.LIN_EVT_CNT p k) := by
  by_cases h : portAdmin s p = 0 <;> simp [violation, bumpIf, h]

section
variable {s : State} {p : Nat} {b : Bytes}

/-- The frame of the partner comes to the receiver when no loopback acts. -/
theorem lineRx_partner (hloop : lineLoop s p = 0) : lineRx s p b = some s := by simp only [lineRx, hloop]

theorem macControl_badAddress (haddr : beAt b 0 6 ≠ 0x0180C2000001) : macControl s p b = violation s p 8 := by simp [macControl, haddr]

theorem macControl_pause (haddr : beAt b 0 6 = 0x0180C2000001) (hop : beAt b 14 2 = 1) (hmode : getF s (Reg.LIN_PORT_CFG_FC_MODE p) = 1) :
    macControl s p b = quanta p 255 (beAt b 16 2) (perf s (40 + p / 8) 5) := by
  simp [macControl, haddr, hop, hmode]

end

section
variable {s : State} {p : Fin 160} {b : Bytes}

theorem macControlFrame_partner (hrx : rxActive s p = true) (hloop : lineLoop s p = 0) : macControlFrame p b s = macControl s p b := by
  rw [macControlFrame, hrx, lineRx_partner hloop]
  rfl

/-- A port that does not receive, or whose lanes have different loopbacks, takes no frame. -/
theorem macControlFrame_untaken (h : rxActive s p = false ∨ lineLoop s p = 4) : macControlFrame p b s = s := by
  unfold macControlFrame
  rcases h with hrx | hloop
  · rw [hrx]
    rfl
  · simp only [lineRx, hloop, ite_self]

end

/-! ## Pause timers (R52) -/

section
variable {s : State} {p : Nat}

theorem quanta_acts {q : Nat} (mask : Nat) (hmax : q ≤ getF s (Reg.LIN_PAUSE_QMAX_QMAX p)) (hsusp : getF s (Reg.LIN_PFC_WD_STAT_SUSPENDED p) = 0) :
    quanta p mask q s = pauseSet s p mask q := by
  simp [quanta, Nat.not_lt.mpr hmax, hsusp]

theorem rd_pauseSet_ne {a : Nat} (mask q : Nat) (h : a ≠ Reg.LIN_PORT_STAT p) : rd (pauseSet s p mask q) a = rd s a :=
  (rd_setF_ne _ _ _ _ h).trans (rd_congr rfl a)

theorem getF_pauseSet_ne {f : Fld} (mask q : Nat) (h : f.reg ≠ Reg.LIN_PORT_STAT p) : getF (pauseSet s p mask q) f = getF s f := by
  rw [getF, rd_pauseSet_ne mask q h, ← getF]

theorem regsBut_pauseSet (mask q : Nat) : RegsBut [Reg.LIN_PORT_STAT p] s (pauseSet s p mask q) := fun _ ha =>
  rd_pauseSet_ne mask q (List.ne_of_not_mem_cons ha)

/-- The classes of the mask begin their pause, or with quanta 0 end it. -/
theorem getF_pauseSet (mask q : Nat) : getF (pauseSet s p mask q) (Reg.LIN_PORT_STAT_PAUSED p) =
    (if q = 0 then getF s (Reg.LIN_PORT_STAT_PAUSED p) - Nat.land (getF s (Reg.LIN_PORT_STAT_PAUSED p)) mask
      else Nat.lor (getF s (Reg.LIN_PORT_STAT_PAUSED p)) mask) % 256 :=
  getF_setF_self _ (Reg.LIN_PORT_STAT_PAUSED p) _ (by show 8 + 8 ≤ 32; omega)

theorem lor_255 {n : Nat} (h : n < 2 ^ 8) : Nat.lor n 255 = 255 :=
  Nat.le_antisymm (Nat.le_of_lt_succ (Nat.or_lt_two_pow (n := 8) h (by decide))) Nat.right_le_or

theorem land_255 {n : Nat} (h : n < 2 ^ 8) : Nat.land n 255 = n :=
  (Nat.and_two_pow_sub_one_eq_mod n 8).trans (Nat.mod_eq_of_lt h)

/-- PAUSE names every class (R51). -/
theorem getF_pauseSet_all (q : Nat) : getF (pauseSet s p 255 q) (Reg.LIN_PORT_STAT_PAUSED p) = if q = 0 then 0 else 255 := by
  have hold : getF s (Reg.LIN_PORT_STAT_PAUSED p) < 2 ^ 8 := getF_lt s _
  rw [getF_pauseSet, lor_255 hold, land_255 hold, Nat.sub_self]
  split <;> rfl

theorem pauseTimerExpire_ends {p : Fin 160} {k : Fin 8} (h : bit (getF s (Reg.LIN_PORT_STAT_PAUSED p)) k = true) :
    pauseTimerExpire p k s = pauseSet s p (2 ^ k.val) 0 := by rw [pauseTimerExpire, if_pos h]

end

/-! ## Frames that say XOFF (R54) -/

section
variable {s : State} {p : Nat}

theorem lineTx_regs (b : Bytes) : (lineTx s p b).regs = s.regs := by
  unfold lineTx
  split <;> rfl

theorem sendLine_regs (b : Bytes) : (sendLine s p b).regs = s.regs := by rw [sendLine, perfAdd_regs, perf_regs, lineTx_regs]

theorem ballsCarry_sent (b : Bytes) : mfind (ballsCarry s p b).lin.sent p = some b := mfind_mset_self s.lin.sent p (some b)

/-- With no loopback a frame stands last on the balls, its FCS behind it. -/
theorem sendLine_sent (hloop : lineLoop s p = 0) (b : Bytes) : mfind (sendLine s p b).lin.sent p = some (b ++ fcs b) := by
  simp only [sendLine, perfAdd_lin, perf_lin, lineTx, hloop, ballsCarry_sent]

/-- In PAUSE mode a refresh sends the configured quanta. -/
theorem pfcRefresh_pause {p : Fin 160} (hx : getF s (Reg.LIN_PORT_STAT_XOFF p) ≠ 0) (hsends : txSends s p = true) (hmode : getF s (Reg.LIN_PORT_CFG_FC_MODE p) = 1) :
    pfcRefresh p s = perf (sendLine s p (macCtlBytes s p 1 (beBytes 2 (txQuanta s p)))) (40 + p.val / 8) 6 := by
  have hmask : getF s (Reg.LIN_PORT_STAT_XOFF p) % 256 = getF s (Reg.LIN_PORT_STAT_XOFF p) := Nat.mod_eq_of_lt (getF_lt s _)
  simp [pfcRefresh, sendXoff, hmask, hx, hsends, hmode]

end

/-! ## The storm watchdog (R56, R57) -/

section
variable {s : State} {p : Nat}

theorem stormMask_pfc (hmode : getF s (Reg.LIN_PORT_CFG_FC_MODE p) = 2) (k : Nat) : stormMask s p k = 2 ^ k := by simp [stormMask, hmode]

theorem offReport_pfcWdStat (hp : p < 160) : OffReport (Reg.LIN_PFC_WD_STAT p) := by
  unfold OffReport Reg.LIN_PFC_WD_STAT
  omega

theorem evtCnt_ne_pfcWdStat {k : Nat} (hk : k < 16) : Reg.LIN_EVT_CNT p k ≠ Reg.LIN_PFC_WD_STAT p := by
  unfold Reg.LIN_EVT_CNT Reg.LIN_PFC_WD_STAT
  omega

theorem portStat_ne_pfcWdStat : Reg.LIN_PORT_STAT p ≠ Reg.LIN_PFC_WD_STAT p := by
  unfold Reg.LIN_PORT_STAT Reg.LIN_PFC_WD_STAT
  omega

/-- The bits of LIN_PFC_WD_STAT as the classes of a mask enter suspension. -/
def suspended (s : State) (p m : Nat) : State :=
  let s2 := setF s (Reg.LIN_PFC_WD_STAT_SUSPENDED p) (Nat.lor (getF s (Reg.LIN_PFC_WD_STAT_SUSPENDED p)) m)
  setF s2 (Reg.LIN_PFC_WD_STAT_STORM_SEEN p) (Nat.lor (getF s2 (Reg.LIN_PFC_WD_STAT_STORM_SEEN p)) m)

theorem stormBegin_eq (k : Nat) : stormBegin s p k =
    bump (levelMore (suspended (pauseSet s p (stormMask s p k) 0) p (stormMask s p k)) (Src.linPfcStorm (p / 8)) (locSlice 0 (p / 8)) p) (Reg.LIN_EVT_CNT p 10) := rfl

theorem rd_suspended_ne {a : Nat} (m : Nat) (h : a ≠ Reg.LIN_PFC_WD_STAT p) : rd (suspended s p m) a = rd s a :=
  (rd_setF_ne _ _ _ _ h).trans (rd_setF_ne _ _ _ _ h)

theorem getF_suspended_ne {f : Fld} (m : Nat) (h : f.reg ≠ Reg.LIN_PFC_WD_STAT p) : getF (suspended s p m) f = getF s f := by
  rw [getF, rd_suspended_ne m h, ← getF]

theorem getF_suspended_suspended (m : Nat) :
    getF (suspended s p m) (Reg.LIN_PFC_WD_STAT_SUSPENDED p) = Nat.lor (getF s (Reg.LIN_PFC_WD_STAT_SUSPENDED p)) m % 256 :=
  (getF_setF_beside _ (Reg.LIN_PFC_WD_STAT_STORM_SEEN p) (Reg.LIN_PFC_WD_STAT_SUSPENDED p) _ (by show 0 + 8 ≤ 32; omega) (.inl (by show 0 + 8 ≤ 8; omega))).trans
    (getF_setF_self s (Reg.LIN_PFC_WD_STAT_SUSPENDED p) _ (by show 0 + 8 ≤ 32; omega))

/-- A write of SUSPENDED leaves STORM_SEEN beside it. -/
theorem getF_stormSeen_setF_suspended (n : Nat) :
    getF (setF s (Reg.LIN_PFC_WD_STAT_SUSPENDED p) n) (Reg.LIN_PFC_WD_STAT_STORM_SEEN p) = getF s (Reg.LIN_PFC_WD_STAT_STORM_SEEN p) :=
  getF_setF_beside s _ _ n (by show 8 + 8 ≤ 32; omega) (.inr (by show 0 + 8 ≤ 8; omega))

theorem getF_suspended_stormSeen (m : Nat) :
    getF (suspended s p m) (Reg.LIN_PFC_WD_STAT_STORM_SEEN p) = Nat.lor (getF s (Reg.LIN_PFC_WD_STAT_STORM_SEEN p)) m % 256 := by
  rw [suspended, getF_setF_self _ _ _ (by show 8 + 8 ≤ 32; omega), getF_stormSeen_setF_suspended]
  rfl

/-- The report and the counter of a storm leave the port's own status as it was. -/
theorem getF_stormBegin (k : Nat) {f : Fld} (hoff : OffReport f.reg) (hcnt : f.reg ≠ Reg.LIN_EVT_CNT p 10) :
    getF (stormBegin s p k) f = getF (suspended (pauseSet s p (stormMask s p k) 0) p (stormMask s p k)) f := by
  rw [stormBegin_eq, getF_bump_ne _ _ _ hcnt, getF, rd_levelMore hoff, ← getF]

variable (hp : p < 160) (k : Nat)
include hp

theorem getF_stormBegin_suspended :
    getF (stormBegin s p k) (Reg.LIN_PFC_WD_STAT_SUSPENDED p) = Nat.lor (getF s (Reg.LIN_PFC_WD_STAT_SUSPENDED p)) (stormMask s p k) % 256 := by
  rw [getF_stormBegin k (offReport_pfcWdStat hp) (evtCnt_ne_pfcWdStat (by omega)).symm, getF_suspended_suspended, getF_pauseSet_ne _ _ portStat_ne_pfcWdStat.symm]

theorem getF_stormBegin_stormSeen :
    getF (stormBegin s p k) (Reg.LIN_PFC_WD_STAT_STORM_SEEN p) = Nat.lor (getF s (Reg.LIN_PFC_WD_STAT_STORM_SEEN p)) (stormMask s p k) % 256 := by
  rw [getF_stormBegin k (offReport_pfcWdStat hp) (evtCnt_ne_pfcWdStat (by omega)).symm, getF_suspended_stormSeen, getF_pauseSet_ne _ _ portStat_ne_pfcWdStat.symm]

/-- The classes of a storm send again. -/
theorem getF_stormBegin_paused : getF (stormBegin s p k) (Reg.LIN_PORT_STAT_PAUSED p) =
    (getF s (Reg.LIN_PORT_STAT_PAUSED p) - Nat.land (getF s (Reg.LIN_PORT_STAT_PAUSED p)) (stormMask s p k)) % 256 := by
  rw [getF_stormBegin k (offReport_portStat hp) (evtCnt_ne_portStat (by omega)).symm, getF_suspended_ne _ portStat_ne_pfcWdStat, getF_pauseSet, if_pos rfl]

theorem rd_stormBegin_counts : rd (stormBegin s p k) (Reg.LIN_EVT_CNT p 10) = countWord (rd s (Reg.LIN_EVT_CNT p 10)) 1 := by
  rw [stormBegin_eq, rd_bump_self, rd_levelMore (offReport_evtCnt hp (by omega)), rd_suspended_ne _ (evtCnt_ne_pfcWdStat (by omega)),
    rd_pauseSet_ne _ _ (evtCnt_ne_portStat (by omega))]

end

section
variable {s : State} {p : Fin 160} {k : Fin 8} (hmode : getF s (Reg.LIN_PORT_CFG_FC_MODE p) = 2)
include hmode

theorem pfcStormDetect_begins (hms : getF s (Reg.LIN_PFC_WD_CFG_DETECT_MS p) ≠ 0) (hrx : rxActive s p = true)
    (hpaused : Nat.land (getF s (Reg.LIN_PORT_STAT_PAUSED p)) (2 ^ k.val) ≠ 0) (hwaits : waitsAt s p (2 ^ k.val) = true) :
    pfcStormDetect p k s = stormBegin s p k := by
  have hstill : getF s (Reg.LIN_PORT_STAT_PAUSED p) &&& 2 ^ k.val ≠ 0 := hpaused
  simp [pfcStormDetect, stormMask_pfc hmode, hms, hrx, hstill, hmode, hwaits]

/-- Suspension ends in the port's status, and the level of its group may end. -/
theorem pfcStormRestore_ends (hsusp : bit (getF s (Reg.LIN_PFC_WD_STAT_SUSPENDED p)) k = true) :
    (pfcStormRestore p k s).regs = (setF s (Reg.LIN_PFC_WD_STAT_SUSPENDED p)
      (getF s (Reg.LIN_PFC_WD_STAT_SUSPENDED p) - Nat.land (getF s (Reg.LIN_PFC_WD_STAT_SUSPENDED p)) (2 ^ k.val))).regs := by
  simp only [pfcStormRestore, hsusp, stormMask_pfc hmode, Bool.not_true, Bool.false_eq_true, if_false]
  split <;> rfl

end

/-! ## The counters of a port beside its receiver -/

section
variable {s : State} {p k : Nat} (hk : k < 16) (n : Nat)
include hk

theorem getF_sliceState_bumpN : getF (bumpN s (Reg.LIN_EVT_CNT p k) n) (Reg.PWR_SLICE_STAT_STATE (p / 8)) = getF s (Reg.PWR_SLICE_STAT_STATE (p / 8)) :=
  getF_bumpN_ne s n (by show Reg.PWR_SLICE_STAT (p / 8) ≠ _; unfold Reg.PWR_SLICE_STAT Reg.LIN_EVT_CNT; omega)

theorem sliceSleeps_bumpN : sliceSleeps (bumpN s (Reg.LIN_EVT_CNT p k) n) (p / 8) = sliceSleeps s (p / 8) := by
  simp only [sliceSleeps, getF_sliceState_bumpN hk, bumpN_slc]

theorem testReady_bumpN : testReady (bumpN s (Reg.LIN_EVT_CNT p k) n) (p / 8) = testReady s (p / 8) := by
  simp only [testReady, getF_sliceState_bumpN hk, bumpN_top]

theorem portMode_bumpN : portMode (bumpN s (Reg.LIN_EVT_CNT p k) n) p = portMode s p :=
  getF_bumpN_ne s n (by show Reg.LIN_GRP_CFG (p / 8) ≠ _; unfold Reg.LIN_GRP_CFG Reg.LIN_EVT_CNT; omega)

theorem portLanes_bumpN : portLanes (bumpN s (Reg.LIN_EVT_CNT p k) n) p = portLanes s p := by rw [portLanes, portMode_bumpN hk, ← portLanes]

theorem portPresent_bumpN : portPresent (bumpN s (Reg.LIN_EVT_CNT p k) n) p = portPresent s p := by rw [portPresent, portMode_bumpN hk, ← portPresent]

theorem laneOos_bumpN : laneOos (bumpN s (Reg.LIN_EVT_CNT p k) n) (p / 8) = laneOos s (p / 8) := by
  have hne : Reg.LIN_GRP_STAT (p / 8) ≠ Reg.LIN_EVT_CNT p k := by
    unfold Reg.LIN_GRP_STAT Reg.LIN_EVT_CNT
    omega
  funext l
  exact congrArg (bit · l) (getF_bumpN_ne s n hne)

theorem portAdmin_bumpN : portAdmin (bumpN s (Reg.LIN_EVT_CNT p k) n) p = portAdmin s p :=
  getF_bumpN_ne s n (by show Reg.LIN_PORT_CTL p ≠ _; unfold Reg.LIN_PORT_CTL Reg.LIN_EVT_CNT; omega)

theorem offLine_bumpN : offLine (bumpN s (Reg.LIN_EVT_CNT p k) n) = offLine s := by
  have hmode : Reg.PAIR_CFG ≠ Reg.LIN_EVT_CNT p k := by
    unfold Reg.PAIR_CFG Reg.LIN_EVT_CNT
    omega
  have hrole : Reg.PAIR_STAT ≠ Reg.LIN_EVT_CNT p k := by
    unfold Reg.PAIR_STAT Reg.LIN_EVT_CNT
    omega
  rw [offLine, pairMode, role, getF_bumpN_ne s n hmode, getF_bumpN_ne s n hrole, ← pairMode, ← role, ← offLine]

omit hk in
theorem gapRuns_bumpN : gapRuns (bumpN s (Reg.LIN_EVT_CNT p k) n) = gapRuns s := by rw [gapRuns, bumpN_pair, bumpN_tick, ← gapRuns]

omit hk in
theorem isolated_bumpN (g : Nat) : isolated (bumpN s (Reg.LIN_EVT_CNT p k) n) g = isolated s g := by rw [isolated, bumpN_flt, ← isolated]

theorem txNow_bumpN : txNow (bumpN s (Reg.LIN_EVT_CNT p k) n) p = txNow s p := by
  rw [txNow, bumpN_top, sliceSleeps_bumpN hk, portLanes_bumpN hk, laneOos_bumpN hk, portAdmin_bumpN hk, portPresent_bumpN hk, offLine_bumpN hk, gapRuns_bumpN,
    isolated_bumpN, ← txNow]

theorem loopSet_bumpN (hp : p < 160) : loopSet (bumpN s (Reg.LIN_EVT_CNT p k) n) = loopSet s := by
  funext x
  exact getF_bumpN_ne s n (by show Reg.TST_LANE_CFG x ≠ _; unfold Reg.TST_LANE_CFG Reg.LIN_EVT_CNT; omega)

/-- What a counter of the port counts does not change which loopback acts (R577, R580). -/
theorem lineLoop_bumpN (hp : p < 160) : lineLoop (bumpN s (Reg.LIN_EVT_CNT p k) n) p = lineLoop s p := by
  rw [lineLoop, testReady_bumpN hk, txNow_bumpN hk, portLanes_bumpN hk, loopSet_bumpN hk n hp, ← lineLoop]

end

/-! ## Frames at the receive MAC (R43 to R46, R58, R64) -/

/-- The receiver of a port takes the partner's frames: no loopback, a receive link that is up, and a slice in service with no reaction on it. -/
structure RxOpen (s : State) (p : Nat) : Prop where
  loop : lineLoop s p = 0
  fault : flag s (Reg.LIN_PORT_STAT_LOCAL_FAULT p) = false
  isolated : isolated s (p / 8) = false
  slice : getF s (Reg.PWR_SLICE_STAT_STATE (p / 8)) = 1

section
variable {s : State} {p : Nat} {b : Bytes} {pre pcs fec : Bool}

/-- The counters of a port do not close its receiver. -/
theorem RxOpen.bumpN (h : RxOpen s p) (hp : p < 160) {k : Nat} (hk : k < 16) (n : Nat) : RxOpen (bumpN s (Reg.LIN_EVT_CNT p k) n) p where
  loop := (lineLoop_bumpN hk n hp).trans h.loop
  fault := (flag_bumpN_ne s n (evtCnt_ne_portStat hk).symm).trans h.fault
  isolated := (isolated_bumpN n _).trans h.isolated
  slice := (getF_sliceState_bumpN hk n).trans h.slice

/-- A frame that an uncorrectable codeword touches goes no further. -/
theorem RxOpen.rxFrame_fec (h : RxOpen s p) (hadmin : portAdmin s p ≠ 0) : rxFrame s p b pre pcs true = perf s (40 + p / 8) 4 := by
  simp [rxFrame, h.fault, h.isolated, h.slice, hadmin]

/-- A frame with a violation counts it and goes no further. -/
theorem RxOpen.rxFrame_violation (h : RxOpen s p) (hadmin : portAdmin s p ≠ 0) {k : Nat} (hk : rxViolation s p b pre pcs = some k) :
    rxFrame s p b pre pcs false = violation (perf s (40 + p / 8) 4) p k := by
  simp [rxFrame, h.fault, h.isolated, h.slice, hadmin, hk]

theorem RxOpen.rxFrame_good (h : RxOpen s p) (hv : rxViolation s p b pre pcs = none) : rxFrame s p b pre pcs false = rxGood s p (b.take (b.length - 4)) := by
  simp [rxFrame, h.fault, h.isolated, h.slice, hv]

theorem rxGood_control (ht : beAt b 12 2 = 0x8808) : rxGood s p b = macControl s p b := by rw [rxGood, if_pos ht]

theorem relockDiscards_none {r : Nat} (h : flag s (relockFld r) = false) : relockDiscards s r = (false, s) := by rw [relockDiscards, h]; rfl

/-- A frame that is neither MAC control nor of a slow protocol enters the pipeline of a port that is UP. -/
theorem rxGood_pipe (hadmin : portAdmin s p = 2) (hrelock : flag s (relockFld 0) = false) (hctl : beAt b 12 2 ≠ 0x8808) (hslow : beAt b 12 2 ≠ 0x8809) :
    rxGood s p b = enterPipe (perfAdd (perf s (40 + p / 8) 0) (40 + p / 8) 1 (b.length + 4)) (p / 8) { port := p, orig := p, bytes := b, first := b, rx := rxTime s p } := by
  have hregs : (perfAdd (perf s (40 + p / 8) 0) (40 + p / 8) 1 (b.length + 4)).regs = s.regs := by rw [perfAdd_regs, perf_regs]
  have hdiscards := relockDiscards_none ((flag_congr hregs _).trans hrelock)
  simp [rxGood, hctl, hslow, hadmin, hdiscards]

/-- The FEC codewords that came since the last frame are counted, the uncorrectable ones but for a port that is DOWN. -/
def fecCounted (s : State) (p corr unc : Nat) : State := bumpN (perfAdd s (40 + p / 8) 7 corr) (Reg.LIN_EVT_CNT p 5) (if portAdmin s p = 0 then 0 else unc)

theorem fecCounted_zero : fecCounted s p 0 0 = s := by simp [fecCounted, bumpN, perfAdd]

theorem fecCounted_uncorrectable (hadmin : portAdmin s p ≠ 0) : fecCounted s p 0 1 = bumpN s (Reg.LIN_EVT_CNT p 5) 1 := by simp [fecCounted, perfAdd, hadmin]

theorem rd_fecCounted_self (corr unc : Nat) :
    rd (fecCounted s p corr unc) (Reg.LIN_EVT_CNT p 5) = countWord (rd s (Reg.LIN_EVT_CNT p 5)) (if portAdmin s p = 0 then 0 else unc) := by
  rw [fecCounted, rd_bumpN, rd_perfAdd]

theorem regsBut_fecCounted (corr unc : Nat) : RegsBut [Reg.LIN_EVT_CNT p 5] s (fecCounted s p corr unc) := fun a ha =>
  (regsBut_bumpN _ _ _ a ha).trans (rd_perfAdd ..)

theorem fecCounted_ing (corr unc : Nat) : (fecCounted s p corr unc).ing = s.ing := by rw [fecCounted, bumpN_ing, perfAdd_ing]

theorem fecCounted_qd (corr unc : Nat) : (fecCounted s p corr unc).qd = s.qd := by rw [fecCounted, bumpN_qd, perfAdd_qd]

end

section
variable {s : State} {p : Fin 160} {b : Bytes} {pre pcs fec : Bool} (hrx : rxActive s p = true)
include hrx

theorem lineFrameReceive_eq (corr unc : Nat) :
    lineFrameReceive p b pre pcs fec corr unc s =
      if b = [] then fecCounted s p corr unc
      else (lineRx (fecCounted s p corr unc) p b).elim (fecCounted s p corr unc) (rxFrame · p b pre pcs fec) := by
  have hcounted : (if portAdmin s p = 0 then perfAdd s (40 + p.val / 8) 7 corr
      else bumpN (perfAdd s (40 + p.val / 8) 7 corr) (Reg.LIN_EVT_CNT p 5) unc) = fecCounted s p corr unc := by
    by_cases h : portAdmin s p = 0 <;> simp [fecCounted, h, bumpN]
  simp only [lineFrameReceive, hrx, hcounted, Bool.not_true, Bool.false_eq_true, if_false]
  split
  · rfl
  · cases lineRx (fecCounted s p corr unc) p b <;> rfl

/-- Codewords may come without a frame. -/
theorem lineFrameReceive_codewords (corr unc : Nat) : lineFrameReceive p [] pre pcs fec corr unc s = fecCounted s p corr unc := by
  rw [lineFrameReceive_eq hrx, if_pos rfl]

theorem lineFrameReceive_frame (hb : b ≠ []) {corr unc : Nat} (hopen : RxOpen (fecCounted s p corr unc) p) :
    lineFrameReceive p b pre pcs fec corr unc s = rxFrame (fecCounted s p corr unc) p b pre pcs fec := by
  rw [lineFrameReceive_eq hrx, if_neg hb, lineRx_partner hopen.loop, Option.elim_some]

/-- A frame before which no codeword was corrected or lost. -/
theorem lineFrameReceive_clean (hb : b ≠ []) (hopen : RxOpen s p) : lineFrameReceive p b pre pcs fec 0 0 s = rxFrame s p b pre pcs fec := by
  have h := lineFrameReceive_frame (corr := 0) (unc := 0) (pre := pre) (pcs := pcs) (fec := fec) hrx hb (by rw [fecCounted_zero]; exact hopen)
  rwa [fecCounted_zero] at h

end

/-! ## The statement -/

/-- Settles O45: each command in the state that takes it, by the branch of the receiver, of the pause timers or of the watchdog that it reaches. -/
theorem lineFramesAndFlowControl : Obligations.LineFramesAndFlowControl := by
  unfold Obligations.LineFramesAndFlowControl
  refine ⟨?badAddress, ?pause, ?expire, ?refresh, ?storm, ?restore, ?violation, ?codewords, ?touched, ?good, ?control, ?untaken⟩
  case badAddress =>
    intro s p b hrx hloop haddr
    exact ⟨_, rfl, by rw [macControlFrame_partner hrx hloop, macControl_badAddress haddr, violation_eq]⟩
  case pause =>
    intro s p b hrx hloop haddr hop hmode hmax hsusp
    refine ⟨macControlFrame p b s, rfl, ?_⟩
    have hperf : ∀ f, getF (perf s (40 + p.val / 8) 5) f = getF s f := getF_congr (perf_regs ..)
    rw [macControlFrame_partner hrx hloop, macControl_pause haddr hop hmode, quanta_acts 255 ((hperf _).symm ▸ hmax) ((hperf _).trans hsusp)]
    exact ⟨getF_pauseSet_all _, fun a ha => (regsBut_pauseSet 255 _ a ha).trans (rd_perf ..)⟩
  case expire =>
    intro s p k h
    refine ⟨pauseTimerExpire p k s, rfl, ?_⟩
    rw [pauseTimerExpire_ends h]
    exact ⟨by rw [getF_pauseSet, if_pos rfl], regsBut_pauseSet _ _⟩
  case refresh =>
    intro s p hloop hx hsends hmode
    refine ⟨pfcRefresh p s, rfl, ?_⟩
    rw [pfcRefresh_pause hx hsends hmode]
    exact ⟨by rw [perf_lin, sendLine_sent hloop], by rw [perf_regs, sendLine_regs]⟩
  case storm =>
    intro s p k hms hrx hmode hpaused hwaits
    refine ⟨pfcStormDetect p k s, rfl, ?_⟩
    rw [pfcStormDetect_begins hmode hms hrx hpaused hwaits, ← stormMask_pfc hmode k]
    exact ⟨getF_stormBegin_suspended p.isLt k, getF_stormBegin_stormSeen p.isLt k, getF_stormBegin_paused p.isLt k, rd_stormBegin_counts p.isLt k⟩
  case restore =>
    intro s p k hsusp hmode
    have hregs := pfcStormRestore_ends hmode hsusp
    refine ⟨pfcStormRestore p k s, rfl, ?_, ?_, fun a ha => ?_⟩
    · rw [getF_congr hregs, getF_setF_self _ _ _ (by show 0 + 8 ≤ 32; omega)]
      rfl
    · rw [getF_congr hregs, getF_stormSeen_setF_suspended]
    · rw [rd_congr hregs, rd_setF_ne _ _ _ _ (List.ne_of_not_mem_cons ha)]
  case violation =>
    intro s p b pre pcs k hb hrx hloop hfault hiso hslice hadmin hk
    have hopen : RxOpen s p := ⟨hloop, hfault, hiso, hslice⟩
    have hadmin' : portAdmin (perf s (40 + p.val / 8) 4) p ≠ 0 := (getF_congr (perf_regs ..) _).trans_ne hadmin
    refine ⟨lineFrameReceive p b pre pcs false 0 0 s, rfl, ?_⟩
    rw [lineFrameReceive_clean hrx hb hopen, hopen.rxFrame_violation hadmin hk, violation_eq, if_neg hadmin']
    refine ⟨?_, fun a ha => ?_, ?_, ?_⟩
    · rw [rd_bump_self, rd_perf]
    · rw [rd_bump_ne _ _ _ (List.ne_of_not_mem_cons ha), rd_perf]
    · rw [bump_ing, perf_ing]
    · rw [bump_qd, perf_qd]
  case codewords =>
    intro s p pre pcs fec corr unc hrx
    refine ⟨lineFrameReceive p [] pre pcs fec corr unc s, rfl, ?_⟩
    rw [lineFrameReceive_codewords hrx]
    exact ⟨rd_fecCounted_self corr unc, regsBut_fecCounted corr unc, fecCounted_ing corr unc, fecCounted_qd corr unc⟩
  case touched =>
    intro s p b pre pcs hb hrx hloop hfault hiso hslice hadmin
    have hcounted : fecCounted s p 0 1 = bumpN s (Reg.LIN_EVT_CNT p 5) 1 := fecCounted_uncorrectable hadmin
    have hopen : RxOpen (fecCounted s p 0 1) p := hcounted ▸ RxOpen.bumpN ⟨hloop, hfault, hiso, hslice⟩ p.isLt (by omega) 1
    have hadmin' : portAdmin (fecCounted s p 0 1) p ≠ 0 := by
      rw [hcounted, portAdmin_bumpN (by omega)]
      exact hadmin
    refine ⟨lineFrameReceive p b pre pcs true 0 1 s, rfl, ?_⟩
    rw [lineFrameReceive_frame hrx hb hopen, hopen.rxFrame_fec hadmin']
    refine ⟨?_, fun a ha => ?_, ?_, ?_⟩
    · rw [rd_perf, rd_fecCounted_self, if_neg hadmin]
    · rw [rd_perf, regsBut_fecCounted 0 1 a ha]
    · rw [perf_ing, fecCounted_ing]
    · rw [perf_qd, fecCounted_qd]
  case good =>
    intro s p b hb hrx hloop hfault hiso hslice hadmin hrelock hv hctl hslow
    have hopen : RxOpen s p := ⟨hloop, hfault, hiso, hslice⟩
    exact ⟨_, rfl, by rw [lineFrameReceive_clean hrx hb hopen, hopen.rxFrame_good hv, rxGood_pipe hadmin hrelock hctl hslow]⟩
  case control =>
    intro s p b hb hrx hloop hfault hiso hslice hv hctl
    have hopen : RxOpen s p := ⟨hloop, hfault, hiso, hslice⟩
    exact ⟨_, rfl, by rw [lineFrameReceive_clean hrx hb hopen, hopen.rxFrame_good hv, rxGood_control hctl]⟩
  case untaken => exact fun s p b h => ⟨_, rfl, macControlFrame_untaken h⟩

end Sys2Proof.Machine

/-! The fragment table, learning, refreshing, ageing and the trie (O57). -/

namespace Sys2Proof.Machine

/-! ## Fields with a peak -/

/-- A field and its peak share one register, and no other is written. -/
theorem regsBut_setPeak (s : State) {f pk : Fld} (n : Nat) (h : pk.reg = f.reg) : RegsBut [f.reg] s (setPeak s f pk n) := by
  intro a ha
  have hf : a ≠ f.reg := List.ne_of_not_mem_cons ha
  unfold setPeak
  dsimp only
  split
  · rw [rd_setF_ne _ _ _ _ (h ▸ hf), rd_setF_ne _ _ _ _ hf]
  · exact rd_setF_ne _ _ _ _ hf

/-! ## The fragment table (R92, R93) -/

section
variable (s : State) (n : Nat)

theorem regsBut_fragStat : RegsBut [Reg.PRS_FRAG_STAT n] s (fragStat s n) :=
  regsBut_setPeak s (f := Reg.PRS_FRAG_STAT_OCCUPANCY n) (pk := Reg.PRS_FRAG_STAT_PEAK n) _ rfl

@[simp] theorem fragStat_ing : (fragStat s n).ing = s.ing := setPeak_ing ..

theorem fragPut_frag (k : Nat) (l : List FragEnt) : (fragPut s n k l).ing.frag = mput [] s.ing.frag k l := by
  rw [fragPut, fragStat_ing]

theorem regsBut_fragPut (k : Nat) (l : List FragEnt) : RegsBut [Reg.PRS_FRAG_STAT n] s (fragPut s n k l) := fun a ha =>
  (regsBut_fragStat _ n a ha).trans (rd_congr rfl a)

theorem regsBut_fragEmpty : RegsBut [Reg.PRS_FRAG_STAT n] s (fragEmpty s n) := fun a ha =>
  (regsBut_fragStat _ n a ha).trans (rd_congr rfl a)

/-- A flush leaves no entry in any set of the pipeline. -/
theorem mget_fragEmpty {k : Nat} (hk : k / 1024 = n) : mget [] (fragEmpty s n).ing.frag k = [] := by
  have hset : (k / 1024 != n) = false := by simp [hk]
  rw [fragEmpty, fragStat_ing, mget, mfind_filter (fun j => j / 1024 != n), hset, if_neg Bool.false_ne_true]

theorem fragCnt_ne_fragStat (k : Nat) : Reg.PRS_FRAG_CNT n k ≠ Reg.PRS_FRAG_STAT n := by
  unfold Reg.PRS_FRAG_CNT Reg.PRS_FRAG_STAT
  omega

end

section
variable {s : State} {n : Fin 20} {set : Fin 1024} {i : Fin 4} {e : FragEnt} (h : (mget [] s.ing.frag (n.val * 1024 + set.val))[i.val]? = some e)
include h

theorem fragEntryAge_due (hage : e.at_ + fragAge s ≤ s.tick) (hfree : fragInUse s n (n.val * 1024 + set.val) e.key = false) :
    fragEntryAge n set i s = bump (fragPut s n (n.val * 1024 + set.val) ((mget [] s.ing.frag (n.val * 1024 + set.val)).eraseIdx i)) (Reg.PRS_FRAG_CNT n 5) := by
  simp [fragEntryAge, h, hfree, Nat.not_lt.mpr hage]

theorem fragEntryAge_young (hage : s.tick < e.at_ + fragAge s) : fragEntryAge n set i s = s := by
  simp [fragEntryAge, h, hage]

end

/-! ## The learn bus (R136, R139, R140) -/

section
variable {s : State} {x : BusMsg} {r : List BusMsg} (hbus : s.tab.bus = x :: r)
include hbus

/-- A learn or a move leaves the bus: its copy takes it, or sleeps and drops it. -/
theorem learnBusMsg_takes (hkind : x.refresh = false) :
    learnBusMsg s =
      if sliceSleeps s x.dst then bump { s with tab := { s.tab with bus := r } } (Reg.FTB_LEARN_CNT x.src 5)
      else learnShared { s with tab := { s.tab with bus := r } } x := by
  simp [learnBusMsg, hbus, hkind]

theorem learnRefreshMsg_found (hkind : x.refresh = true) (hawake : sliceSleeps s x.dst = false) {b k : Nat} {e : MacEnt}
    (hfind : macFind { s with tab := { s.tab with bus := r } } x.dst x.bd x.mac = some (b, k, e)) (hlearned : e.isStatic = false) :
    learnRefreshMsg s = macSet { s with tab := { s.tab with bus := r } } x.dst b k (some { e with age := 0 }) := by
  simp [learnRefreshMsg, hbus, hkind, hawake, hfind, hlearned]

end

/-! ## Ageing (R138) -/

theorem ageSweep_idle {s : State} {n : Fin 20} {q : Fin 256} (h : getF s (Reg.FTB_TENANT_AGE_AGE_S q) = 0 ∨ sliceSleeps s n = true) : ageSweep n q s = s := by
  unfold ageSweep
  exact if_pos (by simpa using h)

/-- A sweep that finds one entry of the tenant ages that entry alone. -/
theorem ageSweep_single {s : State} {n : Fin 20} {q : Fin 256} {k : Nat} {e : MacEnt} (hage : getF s (Reg.FTB_TENANT_AGE_AGE_S q) ≠ 0)
    (hawake : sliceSleeps s n = false) (hone : (macCopy s n).filter (fun e => !macBad s e.1 && !e.2.isStatic && vrfOwner s e.2.bd == q.val) = [(k, e)]) :
    ageSweep n q s = ageEntry s n k e := by
  rw [ageSweep, if_neg (by simp [hage, hawake]), hone, List.foldl_cons, List.foldl_nil]

theorem ageEntry_young {e : MacEnt} (h : e.age < 4) (s : State) (n k : Nat) :
    ageEntry s n k e = macSet s n (k / 4 % 65536) (k % 4) (some { e with age := e.age + 1 }) := if_neg (Nat.not_le.mpr h)

theorem ageEntry_old {e : MacEnt} (h : 4 ≤ e.age) (s : State) (n k : Nat) :
    ageEntry s n k e = perf (bump (macSet s n (k / 4 % 65536) (k % 4) none) (Reg.FTB_LEARN_CNT n 2)) 83 6 := if_pos h

/-! ## The trie (R118) -/

theorem trieNodeRebuild_trieBad (s : State) : (trieNodeRebuild s).tab.trieBad = s.tab.trieBad.drop 1 := rfl

theorem getF_trieNodeRebuild (s : State) : getF (trieNodeRebuild s) Reg.FTB_ECC_STAT_REBUILD = b2n (!(s.tab.trieBad.drop 1).isEmpty) := by
  rw [trieNodeRebuild, setB, getF_setF_self _ _ _ (by decide)]
  cases (s.tab.trieBad.drop 1).isEmpty <;> rfl

theorem regsBut_trieNodeRebuild (s : State) : RegsBut [Reg.FTB_ECC_STAT] s (trieNodeRebuild s) := fun a ha =>
  (rd_setB_ne _ _ _ a (List.ne_of_not_mem_cons ha)).trans (rd_congr rfl a)

/-! ## The statement -/

/-- Settles O57: each command by the branch that its hypotheses choose, and the registers and entries that the branch writes. -/
theorem fragmentAndLearnTables : Obligations.FragmentAndLearnTables := by
  unfold Obligations.FragmentAndLearnTables
  refine ⟨?due, ?young, ?flush, ?learn, ?drop, ?refresh, ?idle, ?ages, ?removes, ?trie⟩
  case due =>
    intro s n set i e h hage hfree
    refine ⟨fragEntryAge n set i s, rfl, ?_⟩
    rw [fragEntryAge_due h hage hfree]
    dsimp only
    rw [bump_ing, fragPut_frag]
    refine ⟨mget_mput_self .., fun k hk => mget_mput_ne _ _ _ _ hk, ?_, fun a ha => ?_⟩
    · rw [rd_bump_self, regsBut_fragPut _ _ _ _ _ (mt List.mem_singleton.mp (fragCnt_ne_fragStat n 5))]
    · rw [rd_bump_ne _ _ _ (List.ne_of_not_mem_cons ha), regsBut_fragPut _ _ _ _ a (List.not_mem_of_not_mem_cons ha)]
  case young => exact fun s n set i e h hage => ⟨fragEntryAge n set i s, rfl, fragEntryAge_young h hage⟩
  case flush =>
    intro s n hopen
    refine ⟨fragFlush n s, rfl, ?_⟩
    rw [fragFlush, operWrite_open hopen]
    exact ⟨fun k hk => mget_fragEmpty s n hk, regsBut_fragEmpty s n⟩
  case learn =>
    intro s x r hbus hkind hawake
    exact ⟨learnBusMsg s, rfl, by rw [learnBusMsg_takes hbus hkind, hawake, if_neg Bool.false_ne_true]⟩
  case drop =>
    intro s x r hbus hsleep hkind
    refine ⟨learnBusMsg s, rfl, ?_⟩
    rw [learnBusMsg_takes hbus hkind, if_pos hsleep]
    exact ⟨bump_tab .., rd_bump_self .., fun a ha => (rd_bump_ne _ _ a (List.ne_of_not_mem_cons ha)).trans (rd_congr rfl a)⟩
  case refresh => exact fun s x r b k e hbus hkind hawake hfind hlearned => ⟨learnRefreshMsg s, rfl, learnRefreshMsg_found hbus hkind hawake hfind hlearned⟩
  case idle => exact fun s n q h => ⟨ageSweep n q s, rfl, ageSweep_idle h⟩
  case ages => exact fun s n q k e hage hawake hone hyoung => ⟨ageSweep n q s, rfl, (ageSweep_single hage hawake hone).trans (ageEntry_young hyoung s n k)⟩
  case removes => exact fun s n q k e hage hawake hone hold => ⟨ageSweep n q s, rfl, (ageSweep_single hage hawake hone).trans (ageEntry_old hold s n k)⟩
  case trie => exact fun s => ⟨trieNodeRebuild s, rfl, trieNodeRebuild_trieBad s, getF_trieNodeRebuild s, regsBut_trieNodeRebuild s⟩

end Sys2Proof.Machine

/-! Ingress passes, policer sweeps, recirculation and the Hall (O58). -/

namespace Sys2Proof.Machine

/-! ## The front of a pass (R66, R82, R120) -/

section
variable {s : State} {n : Nat} (bad : List Nat) (trie : Option Nat) (fragBad : Bool)

theorem passFront_none (h : passHead s n = none) : passFront n bad trie fragBad s = s := by simp only [passFront, h]

/-- The state in which a parsed frame goes on, with the pass's bad words found and the parser's counts made. -/
def passParsed (n : Nat) (bad : List Nat) (trie : Option Nat) (f : InFrame) (d : PDone) (u : State) : State :=
  parseCounts (bumpIf (f.pass != 0) (findBad u bad trie d.record (frameBd u f d.record)) (Reg.SIG_ENG_CNT n 2)) n f.port d (f.pass == 0) f.probe.isSome

theorem passFront_some {f : InFrame} {u : State} {d : PDone} (h : passHead s n = some (f, u)) (hd : d = parse f.bytes (profOf s f.port) f.port) :
    passFront n bad trie fragBad s =
      if pget d.record PF.fail = 1 then passFailed (passParsed n bad trie f d u) n f d.record
      else passLookup (passParsed n bad trie f d u) n f d.record (profOf s f.port) fragBad := by
  simp only [passFront, h, hd, passParsed]

end

/-! ## Passes that wait for the action stage (R91) -/

theorem passDrain_single {n : Nat} {s : State} {c : PassCtx} (h : mget [] s.ing.looked n = [c]) :
    passDrain n 1 s = passAct { s with ing := { s.ing with looked := mput [] s.ing.looked n [] } } c := by
  simp only [passDrain, h]

/-! ## INGRESS_PASS (R66, R155) -/

section
variable {s : State} {n : Fin 20} (bad : List Nat) (trie : Option Nat) (fragBad : Bool)

theorem ingressPass_asleep (h : sliceSleeps s n = true) (hold : Bool) : ingressPass n bad trie fragBad hold s = s := by rw [ingressPass, if_pos h]

variable (h : sliceSleeps s n = false)
include h

theorem ingressPass_held : ingressPass n bad trie fragBad true s = passFront n bad trie fragBad s := by simp [ingressPass, h]

theorem ingressPass_drains :
    ingressPass n bad trie fragBad false s = passDrain n (mget [] (passFront n bad trie fragBad s).ing.looked n).length (passFront n bad trie fragBad s) := by
  simp [ingressPass, h]

theorem ingressPass_drains_headless (hhead : passHead s n = none) :
    ingressPass n bad trie fragBad false s = passDrain n (mget [] s.ing.looked n).length s := by
  rw [ingressPass_drains bad trie fragBad h, passFront_none bad trie fragBad hhead]

end

/-- A pass with no frame at its head and none to drain leaves the state alone. -/
theorem ingressPass_empty {s : State} {n : Fin 20} {hold : Bool} (bad : List Nat) (trie : Option Nat) (fragBad : Bool) (hhead : passHead s n = none)
    (hnone : hold = true ∨ mget [] s.ing.looked n.val = []) : ingressPass n bad trie fragBad hold s = s := by
  cases hsleep : sliceSleeps s n with
  | true => exact ingressPass_asleep bad trie fragBad hsleep hold
  | false =>
    cases hold with
    | true => rw [ingressPass_held bad trie fragBad hsleep, passFront_none bad trie fragBad hhead]
    | false =>
      have hlooked : mget [] s.ing.looked n.val = [] := hnone.resolve_left Bool.false_ne_true
      rw [ingressPass_drains_headless bad trie fragBad hsleep hhead, hlooked]
      rfl

/-! ## Recirculation (R162) -/

section
variable (s : State) (n : Nat) (q : List InFrame)

theorem recircPut_ing : (recircPut s n q).ing = { s.ing with recirc := mput [] s.ing.recirc n q } := setPeak_ing ..

theorem regsBut_recircPut : RegsBut [Reg.ACT_RECIRC_STAT n] s (recircPut s n q) := fun a ha =>
  (regsBut_setPeak _ (f := Reg.ACT_RECIRC_STAT_QUEUE_NOW n) (pk := Reg.ACT_RECIRC_STAT_QUEUE_PEAK n) _ rfl a ha).trans (rd_congr rfl a)

/-- The next slot of the window of 64. -/
def slotMoved : State := { s with ing := { s.ing with slot := mput 0 s.ing.slot n ((mget 0 s.ing.slot n + 1) % 64) } }

/-- A frame has its slot. -/
def slotGiven (f : InFrame) : State := { s with ing := { s.ing with slotted := mput [] s.ing.slotted n (mget [] s.ing.slotted n ++ [f]) } }

end

section
variable {s : State} {n : Fin 20} (hawake : sliceSleeps s n = false)
include hawake

theorem recircSlot_empty (hq : mget [] s.ing.recirc n.val = []) : recircSlot n s = slotMoved s n := by
  simp [recircSlot, hawake, hq, slotMoved]

theorem recircSlot_takes {f : InFrame} {q : List InFrame} (hq : mget [] s.ing.recirc n.val = f :: q)
    (hslot : mget 0 s.ing.slot n < min 16 (getF s (Reg.ACT_RECIRC_CFG_RES_SLOTS n)) ∨ inq s n = []) :
    recircSlot n s = recircPut (slotGiven (slotMoved s n) n f) n q := by
  simp only [recircSlot, hawake, hq, if_pos hslot, if_neg Bool.false_ne_true, slotMoved, slotGiven]

end

/-! ## The Hall (R165 to R168) -/

section
variable {s : State} {n : Fin 20}

theorem hallRelease_none (h : hallPick [] (hall s n) = none) : hallRelease n s = s := by simp only [hallRelease, h]

theorem hallRelease_unsampled {e : HallEnt} {h : HallFrame} (hpick : hallPick [] (hall s n) = some (e, h)) (hsmp : h.smp = none) :
    hallRelease n s = hallMirrors (hallForward (hallPut s n ((hall s n).filter (fun x => x.id != e.id))) n e.port h) n e.port h := by
  simp only [hallRelease, hpick, hsmp]

end

/-! ## The statement -/

/-- Settles O58: each command by the branch that its hypotheses choose. -/
theorem ingressPassesPolicersHall : Obligations.IngressPassesPolicersHall := by
  unfold Obligations.IngressPassesPolicersHall
  refine ⟨?nothing, ?front, ?drain, ?act, ?policers, ?slotEmpty, ?slotTakes, ?hallHolds, ?hallReleases⟩
  case nothing =>
    rintro s n bad q fb hold (hsleep | ⟨hhead, hnone⟩)
    · exact ⟨ingressPass n bad q fb hold s, rfl, ingressPass_asleep bad q fb hsleep hold⟩
    · exact ⟨ingressPass n bad q fb hold s, rfl, ingressPass_empty bad q fb hhead hnone⟩
  case front =>
    intro s n bad q fb f u hawake hhead
    refine ⟨ingressPass n bad q fb true s, rfl, parse f.bytes (profOf s f.port) f.port, passParsed n bad q f _ u, rfl, rfl, ?_⟩
    rw [ingressPass_held bad q fb hawake, passFront_some bad q fb hhead rfl]
    exact ⟨fun hfail => if_pos hfail, fun hfail => if_neg hfail⟩
  case drain =>
    intro s n bad q fb hawake
    refine ⟨ingressPass n bad q fb true s, rfl, ingressPass n bad q fb false s, rfl, ?_⟩
    rw [ingressPass_held bad q fb hawake, ingressPass_drains bad q fb hawake]
  case act =>
    intro s n bad q fb c hawake hhead hone
    refine ⟨ingressPass n bad q fb false s, rfl, ?_⟩
    rw [ingressPass_drains_headless bad q fb hawake hhead, hone]
    exact passDrain_single hone
  case policers =>
    intro s
    refine ⟨policerSweep s, rfl, rfl, fun hnone => ?_, fun i v hone => ?_⟩
    · rw [policerSweep, hnone, List.foldl_nil]
    · rw [policerSweep, hone, List.foldl_cons, List.foldl_nil]
  case slotEmpty =>
    intro s n hawake hq
    refine ⟨recircSlot n s, rfl, ?_⟩
    rw [recircSlot_empty hawake hq]
    exact ⟨mget_mput_self .., rfl⟩
  case slotTakes =>
    intro s n f q hawake hq hslot
    refine ⟨recircSlot n s, rfl, ?_⟩
    rw [recircSlot_takes hawake hq hslot]
    dsimp only
    rw [recircPut_ing]
    exact ⟨mget_mput_self .., mget_mput_self .., fun a ha => (regsBut_recircPut _ n q a ha).trans (rd_congr rfl a)⟩
  case hallHolds => exact fun s n h => ⟨hallRelease n s, rfl, hallRelease_none h⟩
  case hallReleases => exact fun s n e h hpick hsmp => ⟨hallRelease n s, rfl, hallRelease_unsampled hpick hsmp⟩

end Sys2Proof.Machine

/-! What the end of a host command leaves alone (R487, R488, R342): a completion and the place of a mirrored command in CMD touch registers, the host interface, the
counters and the pair, and never the pattern store or the tables. -/

namespace Sys2Proof.Machine

/-! ## Completions (R488, R492) -/

section
variable {s : State} {f : Nat}

theorem pushCompl_offHost {op tag status ring : Nat} {first : Bool} {l : List Bytes} : (pushCompl s f op tag status ring first l).offHost = s.offHost := by
  induction l generalizing s first with
  | nil => rfl
  | cons c r ih => rw [pushCompl, ih, perf_offHost, pushEntry_offHost]

theorem landed_offHost : (landed s f).offHost = s.offHost := (rfl)

theorem drainOwed_offHost {k : Nat} : (drainOwed f k s).offHost = s.offHost := by
  induction k generalizing s with
  | zero => rfl
  | succ k ih =>
    unfold drainOwed
    split
    · rfl
    · dsimp only
      split
      · rfl
      · rw [ih, pushCompl_offHost, landed_offHost]
        rfl

theorem complete_offHost {c : HostCmd} {status : Nat} {res : Bytes} : (complete s c status res).offHost = s.offHost := by
  have hcounted : (perfTenant (perf s 82 0) c.fn 7 1).offHost = s.offHost := by rw [perfTenant_offHost, perf_offHost]
  unfold complete
  split
  · rfl
  · dsimp only
    split
    · exact drainOwed_offHost.trans hcounted
    · exact landed_offHost.trans hcounted

theorem refuseOpcodes_offHost {ring k : Nat} : (refuseOpcodes s f ring k).offHost = s.offHost := by
  induction k generalizing s with
  | zero => rfl
  | succ k ih =>
    unfold refuseOpcodes
    split
    · split
      · rfl
      · rw [ih, complete_offHost]
    · rfl

end

/-! ## The end of a command (R342, R343) -/

section
variable {s : State}

@[simp] theorem mirrorItem_sig {x : CmdItem} : (mirrorItem s x).sig = s.sig := by unfold mirrorItem; split <;> rfl

@[simp] theorem mirrorItem_tab {x : CmdItem} : (mirrorItem s x).tab = s.tab := by unfold mirrorItem; split <;> rfl

variable {c : HostCmd} {mirrored : Bool} {st : Status} {res : Bytes}

/-- A command that ends leaves alone what its item in CMD does. -/
theorem finish_offHost : (finish s c mirrored st res).offHost = (if mirrored then mirrorItem s (.table c st.code) else s).offHost :=
  refuseOpcodes_offHost.trans complete_offHost

@[simp] theorem finish_sig : (finish s c mirrored st res).sig = s.sig := by
  rw [sig_of_offHost finish_offHost]
  split
  · exact mirrorItem_sig
  · rfl

@[simp] theorem finish_tab : (finish s c mirrored st res).tab = s.tab := by
  rw [tab_of_offHost finish_offHost]
  split
  · exact mirrorItem_tab
  · rfl

end

/-! ## Commands of a ring that are ready (R146, R344) -/

section
variable {s : State} {c : HostCmd} {op : Nat} (hready : cmdReady s c op = true)
include hready

theorem hostCmd_standby (hstandby : standby s = true) (eng : State → Eng) : hostCmd s c op true eng = finish s c false .notPermitted [] := by
  simp [hostCmd, hready, hstandby]

theorem hostCmd_acts (hstandby : standby s = false) (changes : Bool) (eng : State → Eng) :
    hostCmd s c op changes eng = finish (eng s).s c (eng s).changed (eng s).st (eng s).res := by
  simp [hostCmd, hready, hstandby]

end

/-- No condition holds, so the status is OK (R604). -/
theorem firstStatus_ok {l : List (Bool × Status)} (h : ∀ x ∈ l, x.1 = false) : firstStatus l = .ok := by
  induction l with
  | nil => rfl
  | cons x r ih =>
    obtain ⟨hx, hr⟩ := List.forall_mem_cons.mp h
    obtain ⟨b, st⟩ := x
    rw [firstStatus, show b = false from hx]
    exact ih hr

end Sys2Proof.Machine

/-! The commands of the pattern store (O54). -/

namespace Sys2Proof.Machine

/-! ## What the counts and the lost entries touch (Tables 4-9 and 4-10) -/

section
variable {s : State}

theorem rd_sigCounts_ne {a : Nat} (h : a ≠ Reg.SIG_STORE_CNT) : rd (sigCounts s) a = rd s a := (rd_setF_ne _ _ _ _ h).trans (rd_setF_ne _ _ _ _ h)

theorem getF_sigCounts_ne {f : Fld} (h : f.reg ≠ Reg.SIG_STORE_CNT) : getF (sigCounts s) f = getF s f := by rw [getF, rd_sigCounts_ne h, ← getF]

@[simp] theorem sigCounts_sig : (sigCounts s).sig = s.sig := by rw [sigCounts, setF_sig, setF_sig]

@[simp] theorem sigCounts_tab : (sigCounts s).tab = s.tab := by rw [sigCounts, setF_tab, setF_tab]

@[simp] theorem lostFollow_regs : (lostFollow s).regs = s.regs := by unfold lostFollow; split <;> rfl

@[simp] theorem lostFollow_sig : (lostFollow s).sig = s.sig := by unfold lostFollow; split <;> rfl

@[simp] theorem lostFollow_tab : (lostFollow s).tab = s.tab := by unfold lostFollow; split <;> rfl

theorem rd_sigPut (x : SigSt) (a : Nat) : rd { s with sig := x } a = rd s a := (rfl)

theorem getF_sigPut (x : SigSt) (f : Fld) : getF { s with sig := x } f = getF s f := (rfl)

end

/-! ## Maps of entries -/

/-- Clearing VALID of the chosen keys keeps every entry in its place. -/
theorem mfind_patsOff (m : NMap Pattern) (p : Nat → Bool) (k : Nat) :
    mfind (patsOff m p) k = if p k then (mfind m k).map (fun x => { x with valid := false }) else mfind m k := by
  have hcons (e : Nat × Pattern) (r : NMap Pattern) : patsOff (e :: r) p = (if p e.1 then (e.1, { e.2 with valid := false }) else e) :: patsOff r p := rfl
  induction m with
  | nil => simp [patsOff, mfind]
  | cons e r ih =>
    obtain ⟨j, x⟩ := e
    rw [hcons]
    by_cases hj : j = k
    · subst hj
      cases p j <;> simp [mfind]
    · cases hp : p j <;> simp [mfind, hj, ih]

/-- Keys from `o` on, written in a row, read as written. -/
theorem mget_foldl_mput_range {α : Type} [DecidableEq α] (d : α) (v : Nat → α) (o : Nat) (m : NMap α) {n i : Nat} (hi : i < n) :
    mget d ((List.range n).foldl (fun m i => mput d m (o + i) (v i)) m) (o + i) = v i := by
  induction n with
  | zero => omega
  | succ n ih =>
    rw [List.range_succ, List.foldl_append, List.foldl_cons, List.foldl_nil]
    rcases Nat.lt_succ_iff_lt_or_eq.mp hi with hlt | rfl
    · rw [mget_mput_ne _ _ _ _ (by omega), ih hlt]
    · exact mget_mput_self ..

/-! ## Commands that change the shadow (R110, R604) -/

section
variable {s : State} {c : HostCmd} (hfn : c.fn = 0)
include hfn

theorem shadowStatus_ok (hidle : shadowBusy s = false) {bad : List (Bool × Status)} (hbad : ∀ x ∈ bad, x.1 = false) :
    firstStatus ((c.fn != 0, Status.notPermitted) :: bad ++ [(shadowBusy s, Status.busy)]) = Status.ok := by
  have hpf0 : (c.fn != 0) = false := by simp [hfn]
  exact firstStatus_ok (List.forall_mem_append.mpr ⟨List.forall_mem_cons.mpr ⟨hpf0, hbad⟩, List.forall_mem_singleton.mpr hidle⟩)

theorem shadowAct_acts (hidle : shadowBusy s = false) {bad : List (Bool × Status)} (hbad : ∀ x ∈ bad, x.1 = false) (act : State → State) :
    shadowAct s c bad act = { st := .ok, changed := true, s := sigCounts (lostFollow (act s)) } := by
  rw [shadowAct, shadowStatus_ok hfn hidle hbad]
  rfl

theorem shadowAct_busy (hbusy : shadowBusy s = true) (act : State → State) : shadowAct s c [] act = { st := .busy, s := s } := by
  simp [shadowAct, firstStatus, hfn, hbusy]

end

/-- Without an armed injection a written word is good (R587). -/
theorem injUncorr_unarmed {s : State} (h : flag s Reg.TST_MEMINJ_CTL_ARM = false) (loc gran : Nat) : injUncorr s loc gran = (false, s) := by simp [injUncorr, h]

/-- The key of the entry that a command names in the shadow. -/
def shadowKey (s : State) (c : HostCmd) : Nat := sigShadow s * 16384 + leAt c.opnd 0 4

/-- The pattern that SIG_WRITE carries. -/
def patOf (c : HostCmd) : Pattern := { len := byteAt c.opnd 4, cls := byteAt c.opnd 5, nocase := bit (byteAt c.opnd 6) 0, bytes := slice c.opnd 7 32 }

/-- The state with other entries in the store, in which an entry is neither lost nor under repair. -/
def patsPut (s : State) (key : Nat) (m : NMap Pattern) : State := { sigClearBad s key with sig := { (sigClearBad s key).sig with pats := m } }

section
variable {s : State} {key : Nat} {m : NMap Pattern}

@[simp] theorem patsPut_pats : (patsPut s key m).sig.pats = m := (rfl)

@[simp] theorem patsPut_profs : (patsPut s key m).sig.profs = s.sig.profs := (rfl)

@[simp] theorem patsPut_lost : (patsPut s key m).sig.lost = s.sig.lost.filter (· != key) := (rfl)

@[simp] theorem patsPut_tab : (patsPut s key m).tab = s.tab := (rfl)

theorem flag_patsPut (f : Fld) : flag (patsPut s key m) f = flag s f := (rfl)

end

/-- The state after an entry is written whose word an injection may have left uncorrectable (R587). -/
def patStored (key : Nat) : Bool × State → State
  | (bad, s) => if bad then { s with sig := { s.sig with masterBad := key :: s.sig.masterBad } } else s

theorem sigWriteEng_eq (c : HostCmd) (s : State) : sigWriteEng c s =
    shadowAct s c [(decide (byteAt c.opnd 4 < 4) || decide (32 < byteAt c.opnd 4), .badLen), (decide (63 < byteAt c.opnd 5), .badClass),
        (decide (16383 < leAt c.opnd 0 4), .badId)]
      (fun s => patStored (shadowKey s c) (injUncorr (patsPut s (shadowKey s c) (mset s.sig.pats (shadowKey s c) (some (patOf c)))) (fdWord (30 * 2 ^ 24 + shadowKey s c)) 8)) := rfl

/-- The state with a profile of the shadow written. -/
def profPut (s : State) (p v : Nat) : State :=
  let s1 := sigClearBad s (sigProfKey (sigShadow s) p)
  { s1 with sig := { s1.sig with profs := mput sprofReset s1.sig.profs (sigShadow s * 8 + p) v } }

section
variable {s : State} {p v : Nat}

theorem sigProf_profPut : mget sprofReset (profPut s p v).sig.profs (sigShadow s * 8 + p) = v := mget_mput_self ..

@[simp] theorem profPut_pats : (profPut s p v).sig.pats = s.sig.pats := (rfl)

@[simp] theorem profPut_tab : (profPut s p v).tab = s.tab := (rfl)

end

/-- The word of the profile that SIG_PROFILE carries. -/
def profWord (c : HostCmd) : Nat := leAt c.opnd 4 4 + leAt c.opnd 8 4 * 2 ^ 3 + min (leAt c.opnd 12 4) 1023 * 2 ^ 11 + leAt c.opnd 16 8 * 2 ^ 21

section
variable {s : State} {c : HostCmd} (hstandby : standby s = false) (hfn : c.fn = 0) (hidle : shadowBusy s = false)
include hstandby hfn hidle

theorem sigWrite_writes (hready : cmdReady s c 0x10 = true) (hshort : 4 ≤ byteAt c.opnd 4) (hlong : byteAt c.opnd 4 ≤ 32) (hcls : byteAt c.opnd 5 ≤ 63)
    (hid : leAt c.opnd 0 4 ≤ 16383) (harm : flag s Reg.TST_MEMINJ_CTL_ARM = false) :
    sigWrite c s = finish (sigCounts (lostFollow (patsPut s (shadowKey s c) (mset s.sig.pats (shadowKey s c) (some (patOf c)))))) c true .ok [] := by
  have hbad : ∀ x ∈ [(decide (byteAt c.opnd 4 < 4) || decide (32 < byteAt c.opnd 4), Status.badLen), (decide (63 < byteAt c.opnd 5), .badClass),
      (decide (16383 < leAt c.opnd 0 4), .badId)], x.1 = false := by
    simp [hshort, hlong, hcls, hid]
  rw [sigWrite, hostCmd_acts hready hstandby, sigWriteEng_eq, shadowAct_acts hfn hidle hbad, injUncorr_unarmed ((flag_patsPut _).trans harm)]
  rfl

theorem sigInvalidate_clears (hready : cmdReady s c 0x11 = true) (hid : leAt c.opnd 0 4 ≤ 16383) :
    sigInvalidate c s = finish (sigCounts (lostFollow (patsPut s (shadowKey s c) (patsOff s.sig.pats (· == shadowKey s c))))) c true .ok [] := by
  rw [sigInvalidate, hostCmd_acts hready hstandby, sigInvalidateEng, shadowAct_acts hfn hidle (by simp [hid])]
  rfl

theorem sigProfile_writes (hready : cmdReady s c 0x12 = true) (hprof : leAt c.opnd 0 4 ≤ 7) (hanchor : leAt c.opnd 4 4 ≤ 7)
    (hnone : leAt c.opnd 4 4 = 7 → leAt c.opnd 12 4 = 0) (hoff : leAt c.opnd 8 4 ≤ 255) :
    sigProfile c s = finish (sigCounts (lostFollow (profPut s (leAt c.opnd 0 4) (profWord c)))) c true .ok [] := by
  rw [sigProfile, hostCmd_acts hready hstandby, sigProfileEng, shadowAct_acts hfn hidle (by simpa [hprof, hanchor, hoff] using hnone)]
  rfl

theorem sigClear_clears (hready : cmdReady s c 0x13 = true) :
    sigClear c s = finish (sigCounts (lostFollow { s with sig := s.sig.clearBank (sigShadow s) (patsOff s.sig.pats (fun k => k / 16384 == sigShadow s)) })) c true .ok [] := by
  rw [sigClear, hostCmd_acts hready hstandby, sigClearEng, shadowAct_acts hfn hidle (List.forall_mem_nil _)]

theorem sigCopy_starts (hready : cmdReady s c 0x14 = true) :
    sigCopy c s = finish (sigCounts (lostFollow (setB s Reg.SIG_STORE_STAT_COPY_BUSY true))) c true .ok [] := by
  rw [sigCopy, hostCmd_acts hready hstandby, sigCopyEng, shadowAct_acts hfn hidle (List.forall_mem_nil _)]

end

theorem sigCopy_busy {s : State} {c : HostCmd} (hready : cmdReady s c 0x14 = true) (hstandby : standby s = false) (hfn : c.fn = 0) (hbusy : shadowBusy s = true) :
    sigCopy c s = finish s c false .busy [] := by
  rw [sigCopy, hostCmd_acts hready hstandby, sigCopyEng, shadowAct_busy hfn hbusy]

/-- A cleared bank has no profile but the reset ones. -/
theorem mget_clearBank_profs (x : SigSt) (m : NMap Pattern) (b : Nat) {p : Nat} (hp : p < 8) : mget sprofReset (x.clearBank b m).profs (b * 8 + p) = sprofReset := by
  have hkey : (b * 8 + p) / 8 = b := by omega
  have hfind : mfind (x.profs.filter fun e => e.1 / 8 != b) (b * 8 + p) = none := by
    rw [mfind_filter (fun k => k / 8 != b)]
    simp [hkey]
  rw [mget, SigSt.clearBank, hfind]

/-! ## The end of a copy (R110) -/

/-- The store once the shadow holds what the active bank holds. -/
def copiedStore (s : State) : SigSt :=
  let a := sigActive s
  let b := sigShadow s
  let x := s.sig.clearBank b (s.sig.pats.filter (fun e => e.1 / 16384 != b))
  { x with pats := (x.pats.filter (fun e => e.1 / 16384 == a)).foldl (fun m e => mset m (b * 16384 + e.1 % 16384) (some e.2)) x.pats
           profs := (List.range 8).foldl (fun m i => mput sprofReset m (b * 8 + i) (sigProf s a i)) x.profs }

section
variable {s : State}

theorem sigCopyDone_ends (h : getF s Reg.SIG_STORE_STAT_COPY_BUSY = 1) :
    sigCopyDone s = sigCounts (lostFollow (setB { s with sig := copiedStore s } Reg.SIG_STORE_STAT_COPY_BUSY false)) := by
  have hflag : flag s Reg.SIG_STORE_STAT_COPY_BUSY = true := by simp [flag, h]
  rw [sigCopyDone, hflag]
  rfl

theorem rd_copied {a : Nat} (h : a ≠ Reg.SIG_STORE_CNT) :
    rd (sigCounts (lostFollow (setB { s with sig := copiedStore s } Reg.SIG_STORE_STAT_COPY_BUSY false))) a = rd (setB s Reg.SIG_STORE_STAT_COPY_BUSY false) a :=
  (rd_sigCounts_ne h).trans (rd_congr lostFollow_regs a)

theorem getF_copied {f : Fld} (h : f.reg ≠ Reg.SIG_STORE_CNT) :
    getF (sigCounts (lostFollow (setB { s with sig := copiedStore s } Reg.SIG_STORE_STAT_COPY_BUSY false))) f = getF (setB s Reg.SIG_STORE_STAT_COPY_BUSY false) f := by
  rw [getF, rd_copied h, ← getF]

end

/-! ## Swaps (R111 to R113) -/

section
variable {s : State}

/-- SIG_STORE_STAT at the swap instant. -/
def swapRegs (s : State) : State :=
  setF (setB (setB (setF s Reg.SIG_STORE_STAT_ACTIVE (sigShadow s)) Reg.SIG_STORE_STAT_SWAP_PEND false) Reg.SIG_STORE_STAT_OLD_BUSY true)
    Reg.SIG_STORE_STAT_SWAP_CNT (getF s Reg.SIG_STORE_STAT_SWAP_CNT + 1)

theorem swapRegs_sig : (swapRegs s).sig = s.sig := by simp only [swapRegs, setF_sig, setB_sig]

theorem sigSwapNow_eq : sigSwapNow s = sigCounts { swapRegs s with sig := { (swapRegs s).sig with swapAt := none } } := by
  have hcnt : getF (setB (setB (setF s Reg.SIG_STORE_STAT_ACTIVE (sigShadow s)) Reg.SIG_STORE_STAT_SWAP_PEND false) Reg.SIG_STORE_STAT_OLD_BUSY true)
      Reg.SIG_STORE_STAT_SWAP_CNT = getF s Reg.SIG_STORE_STAT_SWAP_CNT := by
    simp (disch := decide) only [setB, getF_setF_beside]
  rw [sigSwapNow, hcnt]
  rfl

theorem sigSwapNow_sig : (sigSwapNow s).sig = { s.sig with swapAt := none } := by rw [sigSwapNow_eq, sigCounts_sig, swapRegs_sig]

theorem getF_sigSwapNow {f : Fld} (h : f.reg ≠ Reg.SIG_STORE_CNT) : getF (sigSwapNow s) f = getF (swapRegs s) f := by
  rw [sigSwapNow_eq, getF_sigCounts_ne h]
  exact getF_sigPut ..

theorem sigActive_sigSwapNow : sigActive (sigSwapNow s) = sigShadow s % 2 := by
  rw [sigActive, getF_sigSwapNow (by decide), swapRegs]
  simp (disch := decide) only [setB, getF_setF_beside]
  exact getF_setF_self _ _ _ (by decide)

theorem getF_sigSwapNow_pend : getF (sigSwapNow s) Reg.SIG_STORE_STAT_SWAP_PEND = 0 := by
  rw [getF_sigSwapNow (by decide), swapRegs]
  simp (disch := decide) only [setB, getF_setF_beside]
  exact getF_setF_self _ _ _ (by decide)

theorem getF_sigSwapNow_oldBusy : getF (sigSwapNow s) Reg.SIG_STORE_STAT_OLD_BUSY = 1 := by
  rw [getF_sigSwapNow (by decide), swapRegs, getF_setF_beside _ _ _ _ (by decide) (by decide)]
  exact getF_setF_self _ _ _ (by decide)

theorem getF_sigSwapNow_cnt : getF (sigSwapNow s) Reg.SIG_STORE_STAT_SWAP_CNT = (getF s Reg.SIG_STORE_STAT_SWAP_CNT + 1) % 65536 := by
  rw [getF_sigSwapNow (by decide), swapRegs]
  exact getF_setF_self _ _ _ (by decide)

theorem regsBut_sigSwapNow : RegsBut [Reg.SIG_STORE_STAT, Reg.SIG_STORE_CNT] s (sigSwapNow s) := by
  intro a ha
  obtain ⟨hstat, hcnt⟩ : a ≠ Reg.SIG_STORE_STAT ∧ a ≠ Reg.SIG_STORE_CNT := by simpa using ha
  calc rd (sigSwapNow s) a
      = rd (swapRegs s) a := by rw [sigSwapNow_eq, rd_sigCounts_ne hcnt, rd_sigPut]
    _ = rd s a := by rw [swapRegs, rd_setF_ne _ _ _ _ hstat, rd_setB_ne _ _ _ _ hstat, rd_setB_ne _ _ _ _ hstat, rd_setF_ne _ _ _ _ hstat]

theorem sigSwapInstant_due {x : Nat} (hat : s.sig.swapAt = some x) (hdue : x ≤ s.ptp.total) : sigSwapInstant s = sigSwapNow s := by
  simp only [sigSwapInstant, hat, if_pos hdue]

/-- A swap that is not refused: at once, or pending. -/
theorem sigSwapEng_acts {c : HostCmd} (hfn : c.fn = 0) (hpend : getF s Reg.SIG_STORE_STAT_SWAP_PEND = 0) (hcopy : getF s Reg.SIG_STORE_STAT_COPY_BUSY = 0) :
    sigSwapEng c s = if leAt c.opnd 0 6 * 1000000000 + leAt c.opnd 6 4 ≤ s.ptp.total then { st := .ok, changed := true, s := sigSwapNow s }
      else { st := .ok, changed := true, s := setB { s with sig := { s.sig with swapAt := some (leAt c.opnd 0 6 * 1000000000 + leAt c.opnd 6 4) } } Reg.SIG_STORE_STAT_SWAP_PEND true } := by
  have hst : firstStatus [(c.fn != 0, Status.notPermitted), (flag s Reg.SIG_STORE_STAT_SWAP_PEND || flag s Reg.SIG_STORE_STAT_COPY_BUSY, .busy)] = .ok :=
    firstStatus_ok (by simp [hfn, flag, hpend, hcopy])
  rw [sigSwapEng, hst, if_neg (fun h => h rfl)]

theorem sigCancel_withdraws (hopen : operOpen s = true) (hearly : s.sig.swapAt.any (· ≤ s.ptp.total) = false) :
    sigCancel s = setB { s with sig := { s.sig with swapAt := none } } Reg.SIG_STORE_STAT_SWAP_PEND false := by
  simp [sigCancel, operWrite_open hopen, hearly]

theorem regsBut_setB (f : Fld) (b : Bool) : RegsBut [f.reg] s (setB s f b) := fun _ ha => rd_setB_ne _ _ _ _ (List.ne_of_not_mem_cons ha)

theorem getF_setB_false (f : Fld) (h : f.lo + f.len ≤ 32) : getF (setB s f false) f = 0 := (getF_setF_self s f _ h).trans (Nat.zero_mod _)

end

/-! ## SIG_READ -/

theorem sigRead_entry {s : State} {c : HostCmd} {key : Nat} (hkey : key = byteAt c.opnd 4 % 2 * 16384 + leAt c.opnd 0 4) (hready : cmdReady s c 0x16 = true)
    (hfn : c.fn = 0) (hentry : byteAt c.opnd 5 = 0) (hid : leAt c.opnd 0 4 ≤ 16383) (hgood : key ∉ s.sig.masterBad) (hkept : key ∉ s.sig.lost) :
    sigRead c false s = finish s c false .ok (patBytes (mfind s.sig.pats key)) := by
  subst hkey
  simp [sigRead, hready, hentry, firstStatus, hfn, Nat.not_lt.mpr hid, hgood, hkept]

/-! ## The statement -/

/-- Settles O54: each command in the state that takes it, by what it writes in the store and in SIG_STORE_STAT. -/
theorem patternStoreCommands : Obligations.PatternStoreCommands := by
  unfold Obligations.PatternStoreCommands
  refine ⟨?write, ?invalidate, ?profile, ?clear, ?copy, ?copyBusy, ?copyStandby, ?copyDone, ?swapNow, ?swapLater, ?instant, ?cancel, ?drained, ?read⟩
  case write =>
    intro s c hready hstandby hfn hshort hlong hcls hid hidle harm
    refine ⟨sigWrite c s, rfl, ?_⟩
    rw [sigWrite_writes hstandby hfn hidle hready hshort hlong hcls hid harm]
    simp only [finish_sig, finish_tab, sigCounts_sig, sigCounts_tab, lostFollow_sig, lostFollow_tab, patsPut_pats, patsPut_profs, patsPut_tab, shadowKey]
    exact ⟨mfind_mset_self .., fun k hk => mfind_mset_ne _ _ hk, trivial, trivial⟩
  case invalidate =>
    intro s c hready hstandby hfn hid hidle
    refine ⟨sigInvalidate c s, rfl, ?_⟩
    rw [sigInvalidate_clears hstandby hfn hidle hready hid]
    simp only [finish_sig, finish_tab, sigCounts_sig, sigCounts_tab, lostFollow_sig, lostFollow_tab, patsPut_pats, patsPut_lost, patsPut_tab, mfind_patsOff, shadowKey]
    refine ⟨if_pos (beq_self_eq_true _), fun k hk => if_neg (by simpa using hk), by simp, trivial⟩
  case profile =>
    intro s c hready hstandby hfn hprof hanchor hnone hoff hidle
    refine ⟨sigProfile c s, rfl, ?_⟩
    rw [sigProfile_writes hstandby hfn hidle hready hprof hanchor hnone hoff]
    simp only [sigProf, finish_sig, finish_tab, sigCounts_sig, sigCounts_tab, lostFollow_sig, lostFollow_tab, sigProf_profPut, profPut_pats, profPut_tab]
    exact ⟨by rw [profWord], trivial, trivial⟩
  case clear =>
    intro s c hready hstandby hfn hidle
    refine ⟨sigClear c s, rfl, ?_⟩
    rw [sigClear_clears hstandby hfn hidle hready]
    simp only [sigProf, finish_sig, finish_tab, sigCounts_sig, sigCounts_tab, lostFollow_sig, lostFollow_tab, and_true]
    exact ⟨fun k hk => (mfind_patsOff s.sig.pats (· / 16384 == sigShadow s) k).trans (if_pos (by simpa using hk)),
      fun k hk => (mfind_patsOff s.sig.pats (· / 16384 == sigShadow s) k).trans (if_neg (by simpa using hk)), fun p hp => mget_clearBank_profs _ _ _ hp⟩
  case copy => exact fun s c hready hstandby hfn hidle => ⟨sigCopy c s, rfl, sigCopy_starts hstandby hfn hidle hready⟩
  case copyBusy => exact fun s c hready hstandby hfn hbusy => ⟨sigCopy c s, rfl, sigCopy_busy hready hstandby hfn hbusy⟩
  case copyStandby => exact fun s c hready hstandby => ⟨sigCopy c s, rfl, hostCmd_standby hready hstandby _⟩
  case copyDone =>
    intro s hbusy
    refine ⟨sigCopyDone s, rfl, ?_⟩
    rw [sigCopyDone_ends hbusy]
    refine ⟨?_, ?_, fun p hp => ?_, fun a ha => ?_⟩
    · rw [getF_copied (by decide), getF_setB_false _ (by decide)]
    · rw [sigActive, getF_copied (by decide), setB, getF_setF_beside _ _ _ _ (by decide) (by decide), ← sigActive]
    · simp only [sigProf, sigCounts_sig, lostFollow_sig, setB_sig]
      exact mget_foldl_mput_range sprofReset (sigProf s (sigActive s)) _ _ hp
    · obtain ⟨hstat, hcnt⟩ : a ≠ Reg.SIG_STORE_STAT ∧ a ≠ Reg.SIG_STORE_CNT := by simpa using ha
      rw [rd_copied hcnt, rd_setB_ne _ _ _ _ hstat]
  case swapNow =>
    intro s c hready hstandby hfn hpend hcopy hdue
    refine ⟨sigSwap c s, rfl, ?_⟩
    rw [sigSwap, hostCmd_acts hready hstandby, sigSwapEng_acts hfn hpend hcopy, if_pos hdue]
  case swapLater =>
    intro s c hready hstandby hfn hpend hcopy hlater
    refine ⟨sigSwap c s, rfl, ?_⟩
    rw [sigSwap, hostCmd_acts hready hstandby, sigSwapEng_acts hfn hpend hcopy, if_neg (Nat.not_le.mpr hlater)]
  case instant =>
    intro s x hat hdue
    refine ⟨sigSwapInstant s, rfl, ?_⟩
    simp only [sigSwapInstant_due hat hdue, sigSwapNow_sig]
    exact ⟨sigActive_sigSwapNow, getF_sigSwapNow_pend, getF_sigSwapNow_oldBusy, getF_sigSwapNow_cnt, trivial, trivial, regsBut_sigSwapNow⟩
  case cancel =>
    intro s hopen hearly
    refine ⟨sigCancel s, rfl, ?_⟩
    rw [sigCancel_withdraws hopen hearly]
    exact ⟨getF_setB_false _ (by decide), rfl, fun a ha => (regsBut_setB Reg.SIG_STORE_STAT_SWAP_PEND false a ha).trans (rd_sigPut _ a)⟩
  case drained => exact fun s => ⟨oldBankDrained s, rfl, getF_setB_false _ (by decide), regsBut_setB Reg.SIG_STORE_STAT_OLD_BUSY false⟩
  case read => exact fun s c hready hfn hentry hid hgood hkept => ⟨sigRead c false s, rfl, sigRead_entry rfl hready hfn hentry hid hgood hkept⟩

end Sys2Proof.Machine

/-! Repair of working copies and the scan of a window (O55). -/

namespace Sys2Proof.Machine

/-! ## Repair (R114, R115) -/

section
variable {s : State} {n : Fin 20} {key : Nat}

theorem sigEntryRepair_idle (h : n.val * 65536 + key ∉ s.sig.repair ∨ sliceSleeps s n = true) (masterBad : Bool) : sigEntryRepair n key masterBad s = s := by
  rcases h with h | h <;> simp [sigEntryRepair, h]

theorem sigEntryRepair_rewrites (hrepair : n.val * 65536 + key ∈ s.sig.repair) (hawake : sliceSleeps s n = false) (hgood : key ∉ s.sig.masterBad) :
    sigEntryRepair n key false s =
      report (bump { s with sig := { s.sig with repair := s.sig.repair.filter (· != n.val * 65536 + key) } } (Reg.SIG_ENG_CNT n 5))
        (Src.sigStoreEcc n) (locSlice 0 n) (Config.memWord (Src.sigStoreEcc n) key % 2 ^ 31) := by
  simp [sigEntryRepair, hrepair, hawake, hgood]

end

/-! ## The scan of the first window (R103, R111) -/

/-- The engine's queue once its first window has its result. -/
def scanTaken (s : State) (n : Nat) : State :=
  scanStat { s with ing := { s.ing with inq := mput [] s.ing.inq n (scanFirst (windowResult s n) (inq s n)).1 } } n

/-- The counters of an engine by the result of a window. -/
def scanCounted (s : State) (n v : Nat) : State :=
  if bit v 142 then bump s (Reg.SIG_ENG_CNT n 1) else bumpIf (bits v 138 3 != 0) (bump s (Reg.SIG_ENG_CNT n 0)) (Reg.SIG_ENG_CNT n 4)

/-- The counters of the classes that a window matches. -/
def classesCounted (s : State) (v : Nat) : State := (onesOf 64 v).foldl (fun a c => bump a (Reg.SIG_CLASS_CNT c)) s

/-- The state after the scan of a window. -/
def scanned (s : State) (n : Nat) : State :=
  classesCounted (scanCounted (scanTaken s n) n (scanFirst (windowResult s n) (inq s n)).2) (scanFirst (windowResult s n) (inq s n)).2

/-- The store after a read that found the entries `new` uncorrectable and corrected `corr` errors (R115). -/
def patternsRead (s : State) (new : List Nat) (corr : Nat) : State :=
  { s with sig := { s.sig with repair := new ++ s.sig.repair.filter (fun x => !new.contains x), corr := s.sig.corr + corr } }

theorem patternsRead_clean (s : State) : patternsRead s [] 0 = s := by
  have hrepair : s.sig.repair.filter (fun x => !([] : List Nat).contains x) = s.sig.repair := List.filter_eq_self.mpr fun _ _ => rfl
  rw [patternsRead, hrepair]
  rfl

theorem scanWindow_eq (n : Fin 20) (bad : List Nat) (corr : Nat) (s : State) :
    scanWindow n bad corr s = if sliceSleeps s n || !(inq s n).any (fun f => f.win.isSome) then s
      else scanned (patternsRead s ((bad.filter (fun k => decide (k < sigProfKey 2 0))).map (n.val * 65536 + ·)) corr) n := rfl

section
variable {s : State} {n : Fin 20}

theorem scanWindow_idle (h : sliceSleeps s n = true ∨ ∀ f ∈ inq s n, f.win = none) (bad : List Nat) (corr : Nat) : scanWindow n bad corr s = s := by
  have hskip : (sliceSleeps s n || !(inq s n).any (fun f => f.win.isSome)) = true := by
    rcases h with h | h
    · simp [h]
    · have hnone : (inq s n).any (fun f => f.win.isSome) = false := List.any_eq_false.mpr fun f hf => by simp [h f hf]
      simp [hnone]
  rw [scanWindow_eq, if_pos hskip]

theorem scanWindow_scans (hawake : sliceSleeps s n = false) (hwin : ∃ f ∈ inq s n, f.win.isSome = true) : scanWindow n [] 0 s = scanned s n := by
  have htakes : ¬(sliceSleeps s n || !(inq s n).any (fun f => f.win.isSome)) = true := by simpa [hawake, Option.isSome_iff_ne_none] using hwin
  rw [scanWindow_eq, if_neg htakes, List.filter_nil, List.map_nil, patternsRead_clean]

end

/-! ## What a scan leaves alone -/

section
variable {s : State} {n : Nat}

theorem scanTaken_ing : (scanTaken s n).ing = { s.ing with inq := mput [] s.ing.inq n (scanFirst (windowResult s n) (inq s n)).1 } := setPeak_ing ..

theorem scanTaken_tab : (scanTaken s n).tab = s.tab := setPeak_tab ..

theorem rd_scanTaken {a : Nat} (h : a ≠ Reg.SIG_ENG_STAT n) : rd (scanTaken s n) a = rd s a := 
  regsBut_setPeak _ (f := Reg.SIG_ENG_STAT_QUEUE_NOW n) (pk := Reg.SIG_ENG_STAT_QUEUE_PEAK n) _ rfl a (mt List.mem_singleton.mp h)

variable {v : Nat}

theorem scanCounted_ing : (scanCounted s n v).ing = s.ing := by
  unfold scanCounted
  split <;> simp

theorem scanCounted_tab : (scanCounted s n v).tab = s.tab := by
  unfold scanCounted
  split <;> simp

theorem classesCounted_ing : (classesCounted s v).ing = s.ing := foldl_same State.ing _ (fun _ _ => bump_ing ..) _ s

theorem classesCounted_tab : (classesCounted s v).tab = s.tab := foldl_same State.tab _ (fun _ _ => bump_tab ..) _ s

/-- The class counters stand beside those of the engines. -/
theorem rd_classesCounted_engCnt (k : Nat) : rd (classesCounted s v) (Reg.SIG_ENG_CNT n k) = rd s (Reg.SIG_ENG_CNT n k) := by
  refine foldl_same_mem (rd · (Reg.SIG_ENG_CNT n k)) _ _ (fun a c hc => rd_bump_ne _ _ _ ?_) s
  have hlt : c < 64 := List.mem_range.mp (List.mem_filter.mp hc).1
  unfold Reg.SIG_ENG_CNT Reg.SIG_CLASS_CNT
  omega

theorem engCnt_ne_engCnt {j k : Nat} (h : j ≠ k) : Reg.SIG_ENG_CNT n j ≠ Reg.SIG_ENG_CNT n k := by
  unfold Reg.SIG_ENG_CNT
  omega

theorem rd_scanTaken_engCnt {k : Nat} : rd (scanTaken s n) (Reg.SIG_ENG_CNT n k) = rd s (Reg.SIG_ENG_CNT n k) := by
  refine rd_scanTaken ?_
  unfold Reg.SIG_ENG_CNT Reg.SIG_ENG_STAT
  omega

theorem inq_scanned : inq (scanned s n) n = (scanFirst (windowResult s n) (inq s n)).1 := by
  rw [inq, scanned, classesCounted_ing, scanCounted_ing, scanTaken_ing]
  exact mget_mput_self ..

theorem scanned_tab : (scanned s n).tab = s.tab := by rw [scanned, classesCounted_tab, scanCounted_tab, scanTaken_tab]

theorem rd_scanned_scans (h : bit (scanFirst (windowResult s n) (inq s n)).2 142 = false) :
    rd (scanned s n) (Reg.SIG_ENG_CNT n 0) = countWord (rd s (Reg.SIG_ENG_CNT n 0)) 1 := by
  rw [scanned, rd_classesCounted_engCnt, scanCounted, h, if_neg Bool.false_ne_true, rd_bumpIf_ne _ _ (engCnt_ne_engCnt (by decide)), rd_bump_self, rd_scanTaken_engCnt]

theorem rd_scanned_unscanned (h : bit (scanFirst (windowResult s n) (inq s n)).2 142 = true) :
    rd (scanned s n) (Reg.SIG_ENG_CNT n 1) = countWord (rd s (Reg.SIG_ENG_CNT n 1)) 1 := by
  rw [scanned, rd_classesCounted_engCnt, scanCounted, if_pos h, rd_bump_self, rd_scanTaken_engCnt]

end

/-! ## The statement -/

/-- Settles O55: each command by the branch that its hypotheses choose. -/
theorem patternRepairAndScan : Obligations.PatternRepairAndScan := by
  unfold Obligations.PatternRepairAndScan
  refine ⟨?idle, ?rewrites, ?nothing, ?scans⟩
  case idle => exact fun s n k h b => ⟨sigEntryRepair n k b s, rfl, sigEntryRepair_idle h b⟩
  case rewrites => exact fun s n k hrepair hawake hgood => ⟨sigEntryRepair n k false s, rfl, sigEntryRepair_rewrites hrepair hawake hgood⟩
  case nothing => exact fun s n bad corr h => ⟨scanWindow n bad corr s, rfl, scanWindow_idle h bad corr⟩
  case scans =>
    intro s n hawake hwin
    refine ⟨scanWindow n [] 0 s, rfl, ?_⟩
    rw [scanWindow_scans hawake hwin]
    exact ⟨inq_scanned, rd_scanned_scans, rd_scanned_unscanned, scanned_tab⟩

end Sys2Proof.Machine

/-! Adding, removing, draining, sleeping, waking and joining a slice (O23). -/

namespace Sys2Proof.Machine

theorem getF_slcPut (s : State) (x : SlcSt) (f : Fld) : getF { s with slc := x } f = getF s f := (rfl)

/-! ## A slice enters a state (Table 22-1) -/

section
variable {s : State} {n st : Nat}

/-- The branches of a slice are part of the clocks alone (R414). -/
theorem branchRamp_eq : branchRamp s n st = { s with clk := (branchRamp s n st).clk } := by
  unfold branchRamp
  split
  · rfl
  split
  · rfl
  split
  · rfl
  split <;> rfl

/-- The slices that have not joined, once slice n enters a state. -/
def unjoinedAfter (s : State) (n st : Nat) : List Nat :=
  if st = 3 ∧ sliceState s n = 6 then n :: s.slc.unjoined.filter (· != n) else s.slc.unjoined.filter (· != n)

theorem sliceEnter_eq : sliceEnter s n st =
    { setF { s with slc := { s.slc with unjoined := unjoinedAfter s n st } } (Reg.PWR_SLICE_STAT_STATE n) st with clk := (sliceEnter s n st).clk } := branchRamp_eq

theorem sliceEnter_regs : (sliceEnter s n st).regs = (setF s (Reg.PWR_SLICE_STAT_STATE n) st).regs := by
  rw [sliceEnter_eq]
  rfl

theorem sliceEnter_drain : (sliceEnter s n st).slc.drain = s.slc.drain := by
  rw [sliceEnter_eq]
  rfl

theorem sliceEnter_qd : (sliceEnter s n st).qd = s.qd := by
  rw [sliceEnter_eq]
  rfl

theorem sliceEnter_sig : (sliceEnter s n st).sig = s.sig := by
  rw [sliceEnter_eq]
  rfl

theorem sliceState_sliceEnter : sliceState (sliceEnter s n st) n = st % 8 := (getF_congr sliceEnter_regs _).trans (getF_setF_self _ _ _ (show 0 + 3 ≤ 32 by decide))

/-- The fields above STATE stay. -/
theorem getF_sliceEnter_beside {f : Fld} (hf : f.lo + f.len ≤ 32) (h : 3 ≤ f.lo) : getF (sliceEnter s n st) f = getF s f :=
  (getF_congr sliceEnter_regs f).trans (getF_setF_beside _ _ _ _ hf (.inr h))

theorem regsBut_sliceEnter : RegsBut [Reg.PWR_SLICE_STAT n] s (sliceEnter s n st) := fun a ha =>
  (rd_congr sliceEnter_regs a).trans (rd_setF_ne _ _ _ _ (List.ne_of_not_mem_cons ha))

end

/-! ## RESULT (Table 22-10) -/

section
variable {s : State} {n r : Nat}

theorem getF_sliceResult : getF (sliceResult s n r) (Reg.PWR_SLICE_STAT_RESULT n) = r % 16 := getF_setF_self _ _ _ (show 4 + 4 ≤ 32 by decide)

/-- The fields beside RESULT stay. -/
theorem getF_sliceResult_beside {f : Fld} (hf : f.lo + f.len ≤ 32) (h : f.lo + f.len ≤ 4 ∨ 8 ≤ f.lo) : getF (sliceResult s n r) f = getF s f :=
  getF_setF_beside _ _ _ _ hf h

theorem sliceState_sliceResult : sliceState (sliceResult s n r) n = sliceState s n := getF_sliceResult_beside (show 0 + 3 ≤ 32 by decide) (.inl (show 0 + 3 ≤ 4 by decide))

theorem regsBut_sliceResult : RegsBut [Reg.PWR_SLICE_STAT n] s (sliceResult s n r) := fun _ ha => rd_setF_ne _ _ _ _ (List.ne_of_not_mem_cons ha)

end

/-! ## What leaving service does by the kind of the slice (R562, R563) -/

theorem sliceDis_noDram {n : Nat} (h : n < 28) : sliceDis n = [] := if_neg fun hd => Nat.not_le.mpr h hd.1

section
variable {s : State} {n : Nat}

/-- A slice without egress queues flushes none. -/
theorem flushSlice_noLine (h : 20 ≤ n) : flushSlice s n = s := by
  have hq : sliceQueues s n = [] := if_neg (Nat.not_lt.mpr h)
  rw [flushSlice, hq, List.foldl_nil]

theorem enterBegin_fabric (hlo : 20 ≤ n) (hhi : n < 28) : enterBegin s n = sliceEnter (drainOver s n) n 3 := by
  rw [enterBegin, sliceDis_noDram hhi, List.foldl_nil, flushSlice_noLine hlo]

theorem drainBegin_noDram (h : n < 28) : drainBegin s n =
    sliceEnter { s with slc := { s.slc with drain := mset s.slc.drain n (some (s.tick, getF s Reg.PWR_DRAIN_CFG_LINE_FAB_US * ticksPerUs)) } } n 2 := by
  have hkind : ¬28 ≤ n := Nat.not_le.mpr h
  rw [drainBegin, sliceDis_noDram h, List.foldl_nil, if_neg hkind, drainLimit, if_neg hkind]

theorem drainOver_runs {d : Nat × Nat} (h : mfind s.slc.drain n = some d) : drainOver s n =
    setF { s with slc := { s.slc with drain := merase s.slc.drain n } } (Reg.PWR_SLICE_STAT_DRAIN_US n) (min 65535 ((s.tick - d.1) / ticksPerUs)) := by
  rw [drainOver, h]

end

/-! ## Commands for one slice (R560) -/

section
variable {s : State} {n : Nat} (htop : s.top = .run) (hmask : sliceMask s = [n])
include htop hmask

theorem sliceAdd_one : sliceAdd s = addOne s n := by simp [sliceAdd, sliceCmd, htop, hmask]

theorem sliceRemove_one : sliceRemove s = removeOne s n := by simp [sliceRemove, sliceCmd, htop, hmask]

theorem sliceSleep_one : sliceSleep s = sleepOne s n := by simp [sliceSleep, sliceCmd, htop, hmask]

theorem sliceAdd_wakes (h : sliceState s n = 4) : sliceAdd s = sliceResult (sliceEnter s n 5) n 0 := by
  rw [sliceAdd_one htop hmask, addOne, h]
  rfl

theorem sliceRemove_drains (h : sliceState s n = 1) : sliceRemove s = sliceResult (drainBegin s n) n 0 := by
  rw [sliceRemove_one htop hmask, removeOne, h]
  rfl

theorem sliceSleep_enters (h : sliceState s n = 1 ∨ sliceState s n = 2 ∨ sliceState s n = 6) : sliceSleep s = sliceResult (enterBegin s n) n 0 := by
  rw [sliceSleep_one htop hmask, sleepOne]
  rcases h with h | h | h <;> rw [h] <;> rfl

end

/-! ## The ends of draining, ENTERING, WAKING and JOINING (R562 to R565) -/

theorem drainEnd_enters {s : State} {n : Fin 40} {limit : Bool} (hstate : sliceState s n = 2) (hend : limit = true ∨ sliceIdle s n = true) :
    drainEnd n limit s = enterBegin (sliceResult s n (if sliceIdle s n then 3 else 4)) n := by
  have hends : ¬(sliceState s n ≠ 2 ∨ (!limit ∧ !sliceIdle s n)) := by
    rcases hend with h | h <;> simp [hstate, h]
  exact if_neg hends

/-- A fabric slice at the end of its drain. -/
theorem drainEnd_fabric {s : State} {n : Fin 40} {d : Nat × Nat} (hlo : 20 ≤ n.val) (hhi : n.val < 28) (hstate : sliceState s n = 2)
    (hdrain : mfind s.slc.drain n = some d) :
    drainEnd n true s = sliceEnter (setF { sliceResult s n (if sliceIdle s n then 3 else 4) with slc := { s.slc with drain := merase s.slc.drain n } }
      (Reg.PWR_SLICE_STAT_DRAIN_US n) (min 65535 ((s.tick - d.1) / ticksPerUs))) n 3 := by
  rw [drainEnd_enters hstate (.inl rfl), enterBegin_fabric hlo hhi, drainOver_runs (s := sliceResult s n _) hdrain]
  rfl

theorem enteringDone_sleeps {s : State} {n : Fin 40} (hstate : sliceState s n = 3) (hdis : ∀ i ∈ sliceDis n, diState s i = 0 ∨ diState s i = 6 ∨ diState s i = 7) :
    enteringDone n s = settle s (synceSquelch (sliceEnter (if n.val < 20 then lineLose (maintWithdraw s n) n else maintWithdraw s n) n 4)) := by
  have hout : (sliceDis n).any (fun i => diState s i != 0 && diState s i != 6 && diState s i != 7) = false := by
    refine List.any_eq_false.mpr fun i hi => ?_
    rcases hdis i hi with h | h | h <;> simp [h]
  exact if_neg (by simp [hstate, hout])

/-- The repairs of a slice's engine are over once it wakes (R114). -/
def State.refreshed (s : State) (n : Nat) : State :=
  { s with sig := { s.sig with repair := s.sig.repair.filter (fun k => k / 65536 != n) },
           flt := if 28 ≤ n then { s.flt with hold := s.flt.hold.filter (fun e => e.2 != n) } else s.flt }

/-- What a DRAM interface does as its slice wakes (Table 11-3). -/
def diWake (s : State) (i : Nat) : State := if diPop s i then diTrain (levelOff s (Src.drcFail i)) i else diEnter s i 0

theorem diWake_sig (s : State) (i : Nat) : (diWake s i).sig = s.sig := by
  unfold diWake
  split <;> rfl

theorem wakeDone_joins {s : State} {n : Fin 40} (hstate : sliceState s n = 5) : wakeDone n s = sliceEnter ((sliceDis n).foldl diWake (s.refreshed n)) n 6 :=
  if_neg fun h => h hstate

theorem wakeDone_repair {s : State} {n : Fin 40} (hstate : sliceState s n = 5) : (wakeDone n s).sig.repair = s.sig.repair.filter (fun k => k / 65536 != n.val) := by
  rw [wakeDone_joins hstate, sliceEnter_sig, foldl_same State.sig diWake diWake_sig]
  rfl

theorem join_serves {s : State} {n : Fin 40} (hstate : sliceState s n = 6) (hdis : ∀ i ∈ sliceDis n, diState s i ≠ 1) :
    join n s = settle s (if 28 ≤ n.val then dramPools (sliceEnter (sweepRecorded s n) n 1) else sliceEnter (sweepRecorded s n) n 1) := by
  have htrained : (sliceDis n).any (fun i => diState s i == 1) = false := List.any_eq_false.mpr fun i hi => by simpa using hdis i hi
  exact if_neg (by simp [hstate, htrained])

/-! ## The statement -/

/-- Settles O23: each command in the state that takes it, and the fields and drains that it writes. -/
theorem sliceAddRemoveSleepWake : Obligations.SliceAddRemoveSleepWake := by
  unfold Obligations.SliceAddRemoveSleepWake
  refine ⟨?add, ?remove, ?sleep, ?drainFabric, ?removeAny, ?sleepAny, ?drain, ?entering, ?wake, ?join⟩
  case add =>
    intro s n _ htop hmask hstate
    refine ⟨sliceAdd s, rfl, ?_⟩
    rw [sliceAdd_wakes htop hmask hstate]
    exact ⟨sliceState_sliceResult.trans sliceState_sliceEnter, getF_sliceResult, fun a ha => (regsBut_sliceResult a ha).trans (regsBut_sliceEnter a ha)⟩
  case remove =>
    intro s n hn htop hmask hstate
    refine ⟨sliceRemove s, rfl, ?_⟩
    rw [sliceRemove_drains htop hmask hstate, drainBegin_noDram hn]
    refine ⟨sliceState_sliceResult.trans sliceState_sliceEnter, getF_sliceResult, ?_, ?_⟩
    · rw [sliceResult, setF_slc, sliceEnter_drain]
      exact mfind_mset_self s.slc.drain n (some (s.tick, getF s Reg.PWR_DRAIN_CFG_LINE_FAB_US * ticksPerUs))
    · rw [sliceResult, setF_qd, sliceEnter_qd]
  case sleep =>
    intro s n hlo hhi htop hmask hstate
    refine ⟨sliceSleep s, rfl, ?_⟩
    rw [sliceSleep_enters htop hmask (.inl hstate), enterBegin_fabric hlo hhi]
    exact ⟨sliceState_sliceResult.trans sliceState_sliceEnter, getF_sliceResult⟩
  case drainFabric =>
    intro s n d hlo hhi hstate hdrain
    refine ⟨drainEnd n true s, rfl, ?_⟩
    have hresult : (Reg.PWR_SLICE_STAT_RESULT n).lo + (Reg.PWR_SLICE_STAT_RESULT n).len ≤ 32 := show 4 + 4 ≤ 32 by decide
    have hus : (Reg.PWR_SLICE_STAT_DRAIN_US n).lo + (Reg.PWR_SLICE_STAT_DRAIN_US n).len ≤ 32 := show 16 + 16 ≤ 32 by decide
    rw [drainEnd_fabric hlo hhi hstate hdrain]
    refine ⟨sliceState_sliceEnter, ?_, ?_, ?_⟩
    · rw [getF_sliceEnter_beside hresult (show 3 ≤ 4 by decide), getF_setF_beside _ (Reg.PWR_SLICE_STAT_DRAIN_US n) _ _ hresult (.inl (show 4 + 4 ≤ 16 by decide)), getF_slcPut, getF_sliceResult]
      split <;> rfl
    · rw [getF_sliceEnter_beside hus (show 3 ≤ 16 by decide), getF_setF_self _ _ _ hus]
      exact Nat.mod_eq_of_lt (Nat.lt_succ_of_le (Nat.min_le_left ..))
    · rw [sliceEnter_drain]
      exact mfind_merase_self ..
  case removeAny => exact fun s n _ htop hmask hstate => ⟨sliceRemove s, rfl, sliceRemove_drains htop hmask hstate⟩
  case sleepAny => exact fun s n _ htop hmask hstate => ⟨sliceSleep s, rfl, sliceSleep_enters htop hmask hstate⟩
  case drain => exact fun s n limit hstate hend => ⟨drainEnd n limit s, rfl, drainEnd_enters hstate hend⟩
  case entering => exact fun s n hstate hdis => ⟨enteringDone n s, rfl, enteringDone_sleeps hstate hdis⟩
  case wake =>
    intro s n hstate
    refine ⟨wakeDone n s, rfl, ?_, fun k hk => ?_⟩
    · rw [wakeDone_joins hstate, sliceState_sliceEnter]
    · rw [wakeDone_repair hstate] at hk
      simpa using (List.mem_filter.mp hk).2
  case join => exact fun s n hstate hdis => ⟨join n s, rfl, join_serves hstate hdis⟩

end Sys2Proof.Machine

/-! The table commands and the flush of MAC entries by port (O56). -/

namespace Sys2Proof.Machine

/-! ## Commands of a ring (R144, R146) -/

/-- A command that is not ready waits. -/
theorem hostCmd_waits {s : State} {c : HostCmd} {op : Nat} (hready : cmdReady s c op = false) (changes : Bool) (eng : State → Eng) :
    hostCmd s c op changes eng = s := by
  simp [hostCmd, hready]

/-- A command that changes no entry acts whatever the role of the card (R344). -/
theorem hostCmd_reads {s : State} {c : HostCmd} {op : Nat} (hready : cmdReady s c op = true) (eng : State → Eng) :
    hostCmd s c op false eng = finish (eng s).s c (eng s).changed (eng s).st (eng s).res := by
  simp [hostCmd, hready]

/-- A command that changes entries completes with what its engine answers, and the completion leaves the tables alone (R144, R488). -/
theorem hostCmd_completes {s t : State} {c : HostCmd} {op : Nat} {eng : State → Eng} (hready : cmdReady s c op = true) (hstandby : standby s = false)
    (ht : t = hostCmd s c op true eng) : ∃ e, e = eng s ∧ t = finish e.s c e.changed e.st e.res ∧ t.tab = e.s.tab := by
  have hfinish := ht.trans (hostCmd_acts hready hstandby true eng)
  exact ⟨_, rfl, hfinish, (congrArg State.tab hfinish).trans finish_tab⟩

/-- Nothing waits for room in the table of a MOVE, so nothing is tried again (R346). -/
theorem retryAfterMove_none {s : State} {c : HostCmd} (hnone : ∀ x ∈ s.pair.retry, x.table ≠ c.table) : retryAfterMove s c = s := by
  have hdue : s.pair.retry.filter (fun x => x.table == c.table) = [] := List.filter_eq_nil_iff.mpr fun x hx => by simpa using hnone x hx
  simp [retryAfterMove, hdue]

theorem move_waits {s : State} {c : HostCmd} (hready : cmdReady s c 7 = false) : move c s = s := by
  simp [move, hready, hostCmd_waits hready]

/-! ## Flushes by port (R148) -/

section
variable {s : State} {c : HostCmd} (hready : cmdReady s c 8 = true) (hstandby : standby s = false)
include hready hstandby

theorem flushByPort_queues (hok : flushStatus s c = .ok) :
    flushByPort c s = refuseOpcodes (mirrorItem (flushTake s (flushOf s c)) (.table c 0)) c.fn c.ring (mirrorItem (flushTake s (flushOf s c)) (.table c 0)).hif.inFlight.length := by
  simp [flushByPort, hready, hstandby, hok]

theorem flushByPort_refused (hbad : flushStatus s c ≠ .ok) : flushByPort c s = finish s c false (flushStatus s c) [] := by
  simp [flushByPort, hready, hstandby, hbad]

end

/-- A flush in the queue, whose item in CMD and the refusals behind it leave the tables alone. -/
theorem flushByPort_tab {s : State} {c : HostCmd} (hready : cmdReady s c 8 = true) (hstandby : standby s = false) (hok : flushStatus s c = .ok) :
    (flushByPort c s).tab = { s.tab with flushes := s.tab.flushes ++ [flushOf s c] } := by
  rw [flushByPort_queues hready hstandby hok, tab_of_offHost refuseOpcodes_offHost, mirrorItem_tab, flushTake, flushStat, setF_tab]

theorem flushByPortDone_ends {s : State} {f : Flush} {r : List Flush} (hruns : getF s Reg.FTB_FLUSH_STAT_RUNNING = 1) (hflushes : s.tab.flushes = f :: r) :
    flushByPortDone s = finish (flushSweep s f r).1 f.cmd false .ok (leBytes 4 (flushSweep s f r).2) := by
  simp [flushByPortDone, flag, hruns, hflushes]

/-! ## Writes of direct entries (R604) -/

/-- A table of which a write moves no other state than the entry. -/
theorem afterWrite_none {s0 s : State} {fn t i old : Nat} (hmbr : t ≠ 8) (hpol : t ≠ 15) (hmap : t ≠ 19) (hnode : t ≠ 21) (hshaper : t ≠ 22) :
    afterWrite s0 fn t i old s = s := by
  simp [afterWrite]

/-- An engine that changes the state only with the status OK. -/
theorem eng_acts_of_ok {st : Status} {s t : State}
    (hok : (if st = .ok then ({ st := st, changed := true, s := t } : Eng) else { st := st, s := s }).st = .ok) :
    (if st = .ok then ({ st := st, changed := true, s := t } : Eng) else { st := st, s := s }) = { st := .ok, changed := true, s := t } := by
  split at hok
  · next hst => rw [if_pos hst, hst]
  · next hst => exact absurd hok hst

/-- A direct write that answers OK has stored the entry. -/
theorem directWrite_stores {s : State} {fn : Nat} {ins : Bool} {t i v : Nat} (hok : (directWrite s fn ins t i v).st = .ok) :
    directWrite s fn ins t i v = { st := .ok, changed := true, s := afterWrite s fn t i (tabGet s t i) (tabPut s t i (storedValue s t v)) } := by
  revert hok
  unfold directWrite
  cases tabInfo t with
  | none =>
    intro hok
    dsimp only at hok
    split at hok <;> cases hok
  | some x => exact eng_acts_of_ok

/-! ## The statement -/

/-- Settles O56: each command by what its ring makes of it, its engine and its completion. -/
theorem tableCommands : Obligations.TableCommands := by
  unfold Obligations.TableCommands
  refine ⟨?insert, ?delete, ?modify, ?standby, ?search, ?next, ?read, ?move, ?nop, ?waits, ?flush, ?refused, ?done, ?direct⟩
  case insert => exact fun s c hready hstandby => ⟨insertEntry c s, rfl, hostCmd_completes (eng := fun s => writeEng c.fn 1 c (perf s 83 0)) hready hstandby rfl⟩
  case delete => exact fun s c hready hstandby => ⟨deleteEntry c s, rfl, hostCmd_completes (eng := fun s => writeEng c.fn 2 c (perf s 83 1)) hready hstandby rfl⟩
  case modify => exact fun s c hready hstandby => ⟨modify c s, rfl, hostCmd_completes (eng := fun s => writeEng c.fn 3 c (perf s 83 2)) hready hstandby rfl⟩
  case standby =>
    intro s c hready hstandby
    refine ⟨insertEntry c s, rfl, ?_⟩
    rw [insertEntry, hostCmd_standby hready hstandby]
    exact ⟨rfl, finish_tab⟩
  case search => exact fun s c hready => ⟨search c s, rfl, _, rfl, hostCmd_reads hready _⟩
  case next => exact fun s c hready => ⟨nextEntry c s, rfl, _, rfl, hostCmd_reads hready _⟩
  case read => exact fun s c hready => ⟨readEntry c s, rfl, _, rfl, hostCmd_reads hready _⟩
  case move =>
    intro s c hready hnone
    refine ⟨move c s, rfl, _, rfl, ?_⟩
    rw [move, if_pos hready, hostCmd_reads hready, retryAfterMove_none hnone]
    exact ⟨rfl, finish_tab⟩
  case nop =>
    intro s c hready
    refine ⟨nop c s, rfl, ?_⟩
    rw [nop, hostCmd_reads hready]
    exact ⟨rfl, finish_tab⟩
  case waits =>
    intro s c op hready
    refine ⟨?_, ?_, ?_, ?_, ?_, ?_, ?_, ?_⟩ <;> rintro rfl
    · exact ⟨insertEntry c s, rfl, hostCmd_waits hready ..⟩
    · exact ⟨deleteEntry c s, rfl, hostCmd_waits hready ..⟩
    · exact ⟨modify c s, rfl, hostCmd_waits hready ..⟩
    · exact ⟨search c s, rfl, hostCmd_waits hready ..⟩
    · exact ⟨nextEntry c s, rfl, hostCmd_waits hready ..⟩
    · exact ⟨readEntry c s, rfl, hostCmd_waits hready ..⟩
    · exact ⟨move c s, rfl, move_waits hready⟩
    · exact ⟨nop c s, rfl, hostCmd_waits hready ..⟩
  case flush =>
    intro s c hready hstandby hok
    refine ⟨flushByPort c s, rfl, ?_, ?_⟩ <;> rw [flushByPort_tab hready hstandby hok]
  case refused =>
    intro s c hready hstandby hbad
    refine ⟨flushByPort c s, rfl, ?_⟩
    rw [flushByPort_refused hready hstandby hbad]
    exact ⟨rfl, finish_tab⟩
  case done => exact fun s f r hruns hflushes => ⟨flushByPortDone s, rfl, flushByPortDone_ends hruns hflushes⟩
  case direct =>
    intro s fn ins t i v hok hmbr hpol hmap hnode hshaper
    rw [directWrite_stores hok]
    exact ⟨rfl, afterWrite_none hmbr hpol hmap hnode hshaper⟩

end Sys2Proof.Machine

/-! The tables (O12): only the listed commands write them, for only they reach a function that stores in `tab`. One lemma for each function of the model that the
other commands run, in the order of the model's files: it leaves `tab` alone. -/

namespace Sys2Proof.Machine

/-! ## Branches and folds -/

@[simp] theorem tab_ite {c : Prop} {d : Decidable c} {a b : State} : (@ite _ c d a b).tab = @ite _ c d a.tab b.tab := apply_ite ..

theorem foldl_tab_by {β γ : Type} {g : γ → State} {f : γ → β → γ} (hf : ∀ a x, (g (f a x)).tab = (g a).tab) (a : γ) (l : List β) :
    (g (l.foldl f a)).tab = (g a).tab := by
  induction l generalizing a with
  | nil => rfl
  | cons x l ih => exact (ih _).trans (hf a x)

@[simp] theorem foldl_tab {β : Type} {f : State → β → State} {a : State} {l : List β} (hf : ∀ a x, (f a x).tab = a.tab) : (l.foldl f a).tab = a.tab :=
  foldl_same State.tab f hf l a

@[simp] theorem foldl_fst_tab {β γ : Type} {f : State × γ → β → State × γ} {a : State × γ} {l : List β} (hf : ∀ a x, (f a x).1.tab = a.1.tab) :
    (l.foldl f a).1.tab = a.1.tab :=
  foldl_tab_by (g := Prod.fst) hf a l

/-- A result of a pair that a match has taken apart. -/
theorem tab_of_pair {α : Type} {x : α × State} {a : α} {t u : State} (h : x = (a, t)) (hx : x.2.tab = u.tab) : t.tab = u.tab := by
  subst h
  exact hx

theorem tab_of_triple {α β : Type} {x : α × β × State} {a : α} {b : β} {t u : State} (h : x = (a, b, t)) (hx : x.2.2.tab = u.tab) : t.tab = u.tab := by
  subst h
  exact hx

/-! ## The functions of Machine/Ops -/

@[simp] theorem signal_tab {s : State} {f r : Nat} {force : Bool} : (signal s f r force).tab = s.tab := tab_of_offHost (signal_offHost ..)

@[simp] theorem pushEntry_tab {s : State} {f r : Nat} {content : Bytes} {force : Bool} : (pushEntry s f r content force).tab = s.tab :=
  tab_of_offHost (pushEntry_offHost ..)

@[simp] theorem landed_tab {s : State} {f : Nat} : (landed s f).tab = s.tab := (rfl)

@[simp] theorem drainOwed_tab {f k : Nat} {s : State} : (drainOwed f k s).tab = s.tab := tab_of_offHost drainOwed_offHost

@[simp] theorem complete_tab {s : State} {c : HostCmd} {status : Nat} {result : Bytes} : (complete s c status result).tab = s.tab :=
  tab_of_offHost complete_offHost

@[simp] theorem wrWords_tab {s : State} {a : Nat} {l : List Word} : (wrWords s a l).tab = s.tab := tab_of_offHost (wrWords_offHost ..)

@[simp] theorem pwfD_tab {s : State} {f bar addr data : Nat} {c : PwfCause} {detail : Nat} : (pwfD s f bar addr data c detail).tab = s.tab :=
  tab_of_offHost (pwfD_offHost ..)

@[simp] theorem freshNat_tab {s : State} : (freshNat s).2.tab = s.tab := (rfl)

@[simp] theorem operWrite_tab {s : State} {addr data : Nat} {act : State → State} (hact : ∀ t, (act t).tab = t.tab) :
    (operWrite s addr data act).tab = s.tab := by simp [operWrite, hact]

@[simp] theorem firstPut_tab {s : State} {t src : Nat} {rcd : List Word} : (firstPut s t src rcd).tab = s.tab := tab_of_offReport (firstPut_offReport ..)

@[simp] theorem captureFirst_tab {s : State} {src : Nat} {r : Report} {rcd : List Word} : (captureFirst s src r rcd).tab = s.tab :=
  tab_of_offReport (captureFirst_offReport ..)

@[simp] theorem srcCount_tab {s : State} {src : Nat} : (srcCount s src).tab = s.tab := tab_of_offReport (srcCount_offReport ..)

@[simp] theorem setStatus_tab {s : State} {src : Nat} : (setStatus s src).tab = s.tab := tab_of_offReport (setStatus_offReport ..)

@[simp] theorem mergeLatched_tab {s : State} {src : Nat} {r : Report} : (mergeLatched s src r).tab = s.tab := tab_of_offReport (mergeLatched_offReport ..)

@[simp] theorem serviceReaction_tab {dramFail : State → Nat → State} {s : State} {src : Nat} {loc : Nat} (hdramFail : ∀ t i, (dramFail t i).tab = t.tab) :
    (serviceReaction dramFail s src loc).tab = s.tab := by simp [serviceReaction, hdramFail]

@[simp] theorem reportWith_tab {dramFail : State → Nat → State} {inj : Bool} {s : State} {src loc detail : Nat} (hdramFail : ∀ t i, (dramFail t i).tab = t.tab) :
    (reportWith dramFail inj s src loc detail).tab = s.tab := by simp [reportWith, hdramFail]

@[simp] theorem pauseWithdraw_tab {s : State} {i : Nat} : (pauseWithdraw s i).tab = s.tab := (rfl)

@[simp] theorem dramLost_tab {s : State} {i : Nat} : (dramLost s i).tab = s.tab := tab_of_offReport (dramLost_offReport ..)

@[simp] theorem dramFailed_tab {s : State} {i : Nat} : (dramFailed s i).tab = s.tab := tab_of_offReport (dramFailed_offReport ..)

@[simp] theorem injTake_tab {s : State} {loc gran : Nat} : (injTake s loc gran).2.tab = s.tab := by
  simp only [injTake]
  split <;> simp

@[simp] theorem injUncorr_tab {s : State} {loc gran : Nat} : (injUncorr s loc gran).2.tab = s.tab := by
  unfold injUncorr
  dsimp only
  split
  · simp
  · split <;> simp

/-! ## The functions of Machine/Faults -/

@[simp] theorem recRingFill_tab {s : State} : (recRingFill s).tab = s.tab := by simp [recRingFill]

@[simp] theorem recRingPut_tab {s : State} {rcd : List Word} : (recRingPut s rcd).tab = s.tab := by simp [recRingPut]

@[simp] theorem vbatCopy_tab {s : State} {rcd : List Word} : (vbatCopy s rcd).tab = s.tab := (rfl)

@[simp] theorem nvlogOffer_tab {s : State} {rcd : List Word} : (nvlogOffer s rcd).tab = s.tab := by simp [nvlogOffer]

@[simp] theorem faultMsg_tab {s : State} {src loc : Nat} : (faultMsg s src loc).tab = s.tab := by simp [faultMsg]

@[simp] theorem faultEvent_tab {s : State} {rcd : List Word} {idx : Nat} : (faultEvent s rcd idx).tab = s.tab := by simp [faultEvent]

@[simp] theorem takeReport_tab {s : State} {src : Nat} {r : Report} : (takeReport s src r).tab = s.tab := by simp [takeReport]

@[simp] theorem makeRecord_tab {s : State} {src : Nat} {r : Report} : (makeRecord s src r).tab = s.tab := by simp [makeRecord]

@[simp] theorem mergeReport_tab {s : State} {src : Nat} {r : Report} : (mergeReport s src r).tab = s.tab := by simp [mergeReport]

@[simp] theorem collectReport_tab {s : State} {src : Nat} {r : Report} : (collectReport s src r).tab = s.tab := by simp [collectReport]

@[simp] theorem faultCollect_tab {s : State} : (faultCollect s).tab = s.tab := by
  unfold faultCollect
  split <;> simp

@[simp] theorem fltStatusClear_tab {src : Nat} {s : State} : (fltStatusClear src s).tab = s.tab := by simp [fltStatusClear]

@[simp] theorem firstEmpty_tab {s : State} : (firstEmpty s).tab = s.tab := (rfl)

@[simp] theorem firstFaultClear_tab {s : State} : (firstFaultClear s).tab = s.tab := operWrite_tab fun _ => by split <;> simp

@[simp] theorem ringRdWrite_tab {v : Nat} {s : State} : (ringRdWrite v s).tab = s.tab := by simp [ringRdWrite]

@[simp] theorem nvlogRead_tab {v : Nat} {s : State} : (nvlogRead v s).tab = s.tab := by simp [nvlogRead]

@[simp] theorem partnerFaultRecord_tab {rcd : List Word} {s : State} : (partnerFaultRecord rcd s).tab = s.tab := by simp [partnerFaultRecord]

@[simp] theorem faultInject_tab {v : Nat} {s : State} : (faultInject v s).tab = s.tab := by simp [faultInject]

/-! ## The functions of Machine/Counters -/

@[simp] theorem pairRead_tab {v : Nat} {s : State} : (pairRead v s).tab = s.tab := by simp [pairRead]

@[simp] theorem revokeGroup_tab {s : State} {g : Nat} : (revokeGroup s g).tab = s.tab := by simp [revokeGroup]

@[simp] theorem zeroGroup_tab {s : State} {g : Nat} : (zeroGroup s g).tab = s.tab := (rfl)

@[simp] theorem perfTenantWrite_tab {j : Fin 128} {v : Nat} {s : State} : (perfTenantWrite j v s).tab = s.tab := by simp [perfTenantWrite]

@[simp] theorem heldCount_tab {s : State} : (heldCount s).tab = s.tab := (rfl)

@[simp] theorem dumpEpoch_tab {d : Fin 64} {s : State} : (dumpEpoch d s).tab = s.tab := by
  unfold dumpEpoch
  dsimp only
  split
  · simp
  · split <;> simp

@[simp] theorem pushDump_tab {s : State} {f r : Nat} {l : List Bytes} : (pushDump s f r l).tab = s.tab := by simp [pushDump]

@[simp] theorem dumpVf_tab {x : Snapshot} {d : Nat} {s : State} {f : Nat} : (dumpVf x d s f).tab = s.tab := by simp [dumpVf]

@[simp] theorem releaseSnap_tab {s : State} {d : Nat} {x : Snapshot} : (releaseSnap s d x).tab = s.tab := (rfl)

@[simp] theorem abandonDump_tab {s : State} {d : Nat} {x : Snapshot} : (abandonDump s d x).tab = s.tab := by simp [abandonDump]

@[simp] theorem abandonRing_tab {s : State} {f r : Nat} : (abandonRing s f r).tab = s.tab := by simp [abandonRing]

@[simp] theorem dumpWrite_tab {d : Fin 64} {s : State} : (dumpWrite d s).tab = s.tab := by
  unfold dumpWrite
  split <;> simp

/-! ## The functions of Machine/Mirror -/

@[simp] theorem stateDue_tab {s : State} {key : Nat} : (stateDue s key).tab = s.tab := by simp [stateDue]

@[simp] theorem memTestFailed_tab {s : State} : (memTestFailed s).tab = s.tab := by simp [memTestFailed]

@[simp] theorem operMirrored_tab {s : State} {addr data : Nat} {ok : Bool} {act : State → State} (hact : ∀ t, (act t).tab = t.tab) :
    (operMirrored s addr data ok act).tab = s.tab := by simp [operMirrored, hact]

@[simp] theorem probeGone_tab {s : State} {q : Nat} : (probeGone s q).tab = s.tab := (rfl)

@[simp] theorem probeFail_tab {s : State} {x : Probe} : (probeFail s x).tab = s.tab := by simp [probeFail]

@[simp] theorem probeRefused_tab {s : State} {q : Nat} : (probeRefused s q).tab = s.tab := by
  unfold probeRefused
  split <;> simp

/-! ## The functions of Machine/Store -/

@[simp] theorem refuseOpcodes_tab {s : State} {fn ring : Nat} {k : Nat} : (refuseOpcodes s fn ring k).tab = s.tab := by
  induction k generalizing s with
  | zero => rfl
  | succ n ih =>
    unfold refuseOpcodes
    split
    · split <;> simp [ih]
    · rfl

@[simp] theorem hostCmd_tab {s : State} {c : HostCmd} {op : Nat} {changes : Bool} {eng : State → Eng} (heng : ∀ t, (eng t).s.tab = t.tab) :
    (hostCmd s c op changes eng).tab = s.tab := by
  unfold hostCmd
  split
  · rfl
  · split
    · simp
    · simp [heng]

@[simp] theorem sigClearBad_tab {s : State} {key : Nat} : (sigClearBad s key).tab = s.tab := (rfl)

@[simp] theorem shadowAct_tab {s : State} {c : HostCmd} {bad : List (Bool × Status)} {act : State → State} (hact : ∀ t, (act t).tab = t.tab) :
    (shadowAct s c bad act).s.tab = s.tab := by
  unfold shadowAct
  dsimp only
  split <;> simp [hact]

@[simp] theorem sigWriteEng_tab {c : HostCmd} {s : State} : (sigWriteEng c s).s.tab = s.tab := by simp [sigWriteEng]

@[simp] theorem sigWrite_tab {c : HostCmd} {s : State} : (sigWrite c s).tab = s.tab := by simp [sigWrite]

@[simp] theorem sigInvalidateEng_tab {c : HostCmd} {s : State} : (sigInvalidateEng c s).s.tab = s.tab := by simp [sigInvalidateEng]

@[simp] theorem sigInvalidate_tab {c : HostCmd} {s : State} : (sigInvalidate c s).tab = s.tab := by simp [sigInvalidate]

@[simp] theorem sigProfileEng_tab {c : HostCmd} {s : State} : (sigProfileEng c s).s.tab = s.tab := by simp [sigProfileEng]

@[simp] theorem sigProfile_tab {c : HostCmd} {s : State} : (sigProfile c s).tab = s.tab := by simp [sigProfile]

@[simp] theorem sigClearEng_tab {c : HostCmd} {s : State} : (sigClearEng c s).s.tab = s.tab := by simp [sigClearEng]

@[simp] theorem sigClear_tab {c : HostCmd} {s : State} : (sigClear c s).tab = s.tab := by simp [sigClear]

@[simp] theorem sigCopyEng_tab {c : HostCmd} {s : State} : (sigCopyEng c s).s.tab = s.tab := by simp [sigCopyEng]

@[simp] theorem sigCopy_tab {c : HostCmd} {s : State} : (sigCopy c s).tab = s.tab := by simp [sigCopy]

@[simp] theorem sigCopyDone_tab {s : State} : (sigCopyDone s).tab = s.tab := by simp [sigCopyDone]

@[simp] theorem sigSwapNow_tab {s : State} : (sigSwapNow s).tab = s.tab := by simp [sigSwapNow]

@[simp] theorem sigSwapEng_tab {c : HostCmd} {s : State} : (sigSwapEng c s).s.tab = s.tab := by
  unfold sigSwapEng
  dsimp only
  split
  · simp
  · split <;> simp

@[simp] theorem sigSwap_tab {c : HostCmd} {s : State} : (sigSwap c s).tab = s.tab := by simp [sigSwap]

@[simp] theorem sigSwapInstant_tab {s : State} : (sigSwapInstant s).tab = s.tab := by
  unfold sigSwapInstant
  split <;> simp

@[simp] theorem sigCancel_tab {s : State} : (sigCancel s).tab = s.tab := by simp [sigCancel]

@[simp] theorem oldBankDrained_tab {s : State} : (oldBankDrained s).tab = s.tab := (rfl)

@[simp] theorem sigMasterLost_tab {s : State} {key : Nat} : (sigMasterLost s key).tab = s.tab := by simp [sigMasterLost]

@[simp] theorem sigRead_tab {c : HostCmd} {masterBad : Bool} {s : State} : (sigRead c masterBad s).tab = s.tab := by simp [sigRead]

@[simp] theorem sigEntryRepair_tab {n : Fin 20} {key : Nat} {masterBad : Bool} {s : State} : (sigEntryRepair n key masterBad s).tab = s.tab := by simp [sigEntryRepair]

@[simp] theorem scanStat_tab {s : State} {n : Nat} : (scanStat s n).tab = s.tab := by simp [scanStat]

@[simp] theorem enterPipe_tab {s : State} {n : Nat} {f : InFrame} : (enterPipe s n f).tab = s.tab := by
  simp only [enterPipe]
  split <;> simp

@[simp] theorem scanWindow_tab {n : Fin 20} {bad : List Nat} {corr : Nat} {s : State} : (scanWindow n bad corr s).tab = s.tab := by simp [scanWindow]

/-! ## The functions of Machine/Tables -/

@[simp] theorem tableEcc_tab {s : State} {t key : Nat} : (tableEcc s t key).tab = s.tab := by simp [tableEcc]

@[simp] theorem actionWord_tab {s : State} {key : Nat} : (actionWord s key).tab = s.tab := by simp [actionWord]

@[simp] theorem wordEcc_tab {s : State} {t i : Nat} : (wordEcc s t i).tab = s.tab := by simp [wordEcc]

/-! ## The functions of Machine/TabCmd -/

@[simp] theorem putNode_tab {s : State} {c : Nat} {x : NodeSt} : (putNode s c x).tab = s.tab := (rfl)

@[simp] theorem wheelPlace_tab {s : State} {key te : Nat} : (wheelPlace s key te).tab = s.tab := (rfl)

@[simp] theorem putTe_tab {s : State} {c : Nat} {x : NodeSt} : (putTe s c x).tab = s.tab := by simp [putTe]

@[simp] theorem directRead_tab {s : State} {fn t i : Nat} : (directRead s fn t i).s.tab = s.tab := by
  unfold directRead
  split <;> simp

@[simp] theorem directSearch_tab {s : State} {fn t : Nat} {b : Bytes} : (directSearch s fn t b).s.tab = s.tab := by
  unfold directSearch
  split
  · simp
  · split <;> simp

@[simp] theorem directNext_tab {s : State} {fn t : Nat} {after : Option Nat} : (directNext s fn t after).s.tab = s.tab := by
  unfold directNext
  dsimp only
  split
  · simp
  · split
    · simp
    · split <;> simp

@[simp] theorem lpmRead_tab {s : State} {fn op t : Nat} {sub : Nat} {b : Bytes} : (lpmRead s fn op t sub b).s.tab = s.tab := by
  unfold lpmRead
  dsimp only
  split
  · simp
  · split <;> simp

@[simp] theorem hostRead_tab {s : State} {op : Nat} {c : HostCmd} : (hostRead s op c).s.tab = s.tab := by
  unfold hostRead
  dsimp only
  (repeat' split) <;> simp

@[simp] theorem macRead_tab {s : State} {op : Nat} {c : HostCmd} : (macRead s op c).s.tab = s.tab := by
  unfold macRead
  dsimp only
  (repeat' split) <;> simp

@[simp] theorem readEng_tab {op : Nat} {c : HostCmd} {s : State} : (readEng op c s).s.tab = s.tab := by
  unfold readEng
  split
  · simp
  · simp
  · simp
  · simp
  · split
    · simp
    · split <;> simp

@[simp] theorem search_tab {c : HostCmd} {s : State} : (search c s).tab = s.tab := by simp [search]

@[simp] theorem nextEntry_tab {c : HostCmd} {s : State} : (nextEntry c s).tab = s.tab := by simp [nextEntry]

@[simp] theorem readEntry_tab {c : HostCmd} {s : State} : (readEntry c s).tab = s.tab := by simp [readEntry]

@[simp] theorem nop_tab {c : HostCmd} {s : State} : (nop c s).tab = s.tab := by simp [nop]

/-! ## The functions of Machine/Lookup -/

@[simp] theorem fragStat_tab {s : State} {n : Nat} : (fragStat s n).tab = s.tab := by simp [fragStat]

@[simp] theorem fragPut_tab {s : State} {n set : Nat} {l : List FragEnt} : (fragPut s n set l).tab = s.tab := by simp [fragPut]

@[simp] theorem fragEntryAge_tab {n : Fin 20} {set : Fin 1024} {i : Fin 4} {s : State} : (fragEntryAge n set i s).tab = s.tab := by
  simp only [fragEntryAge]
  split <;> simp

@[simp] theorem fragEmpty_tab {s : State} {n : Nat} : (fragEmpty s n).tab = s.tab := by simp [fragEmpty]

@[simp] theorem fragFlush_tab {n : Fin 20} {s : State} : (fragFlush n s).tab = s.tab := by simp [fragFlush]

/-! ## The functions of Machine/Scratch -/

@[simp] theorem scrPut_tab {s : State} {m w v : Nat} {e : EccErr} : (scrPut s m w v e).tab = s.tab := (rfl)

@[simp] theorem scrWrite_tab {s : State} {m w v : Nat} : (scrWrite s m w v).tab = s.tab := by simp [scrWrite]

@[simp] theorem scrCapture_tab {s : State} {uncorr rmw : Bool} {loc : Nat} : (scrCapture s uncorr rmw loc).tab = s.tab := (rfl)

@[simp] theorem scrCorrect_tab {s : State} {m w col : Nat} {rmw : Bool} : (scrCorrect s m w col rmw).tab = s.tab := by simp [scrCorrect]

@[simp] theorem scrBadRead_tab {s : State} {m w : Nat} {e : EccErr} : (scrBadRead s m w e).tab = s.tab := by simp [scrBadRead]

@[simp] theorem scrRead_tab {s : State} {m w : Nat} : (scrRead s m w).2.2.tab = s.tab := by
  unfold scrRead
  split <;> simp

@[simp] theorem scrRmw_tab {s : State} {m w : Nat} {f : Nat → Nat} : (scrRmw s m w f).2.2.tab = s.tab := by
  unfold scrRmw
  split <;> simp

@[simp] theorem scrModify_tab {s : State} {m w : Nat} {f : Nat → Nat} : (scrModify s m w f).tab = s.tab := by simp [scrModify]

@[simp] theorem sharedScratchOp_tab {bank : Fin 32} {s : State} : (sharedScratchOp bank s).tab = s.tab := by
  unfold sharedScratchOp
  split <;> simp

@[simp] theorem scrHalfWrite_tab {s : State} {addr m w : Nat} {hi : Bool} {v : Nat} : (scrHalfWrite s addr m w hi v).tab = s.tab := by simp [scrHalfWrite]

@[simp] theorem scrFlushHeld_tab {s : State} : (scrFlushHeld s).tab = s.tab := by
  unfold scrFlushHeld
  split <;> simp

@[simp] theorem scrWindowWrite_tab {addr v : Nat} {s : State} : (scrWindowWrite addr v s).tab = s.tab := operWrite_tab fun s => by
  split
  · simp
  · dsimp only
    (repeat' split) <;> simp

@[simp] theorem scrWindowRead_tab {s : State} {addr : Nat} : (scrWindowRead s addr).2.tab = s.tab := by
  unfold scrWindowRead
  dsimp only
  split
  · simp
  · split
    · simp
    · split
      · simp
      · split <;> simp

@[simp] theorem scrAlias_tab {set : Bool} {addr v : Nat} {s : State} : (scrAlias set addr v s).tab = s.tab := operWrite_tab fun s => by split <;> simp

@[simp] theorem scrAliasSet_tab {addr v : Nat} {s : State} : (scrAliasSet addr v s).tab = s.tab := by simp [scrAliasSet]

@[simp] theorem scrAliasClear_tab {addr v : Nat} {s : State} : (scrAliasClear addr v s).tab = s.tab := by simp [scrAliasClear]

@[simp] theorem scrAtomic_tab {v : Nat} {act : State → Nat → Nat → Nat → Nat × Bool × State} {s : State} (hact : ∀ t i j k, (act t i j k).2.2.tab = t.tab) :
    (scrAtomic v act s).tab = s.tab := by simp [scrAtomic, hact]

@[simp] theorem atomAdd_tab {s : State} {m w o : Nat} : (atomAdd s m w o).2.2.tab = s.tab := by simp [atomAdd]

@[simp] theorem atomSwap_tab {s : State} {m w o : Nat} : (atomSwap s m w o).2.2.tab = s.tab := by simp [atomSwap]

@[simp] theorem scrAtomGo_tab {v : Nat} {s : State} : (scrAtomGo v s).tab = s.tab := by
  unfold scrAtomGo
  split <;> simp

@[simp] theorem scrRepair_tab {s0 : State} {m w : Nat} : (scrRepair s0 m w).tab = s0.tab := by simp [scrRepair]

@[simp] theorem scrTestWord_tab {m : Nat} {fails : List Nat} {s : State} {w : Nat} : (scrTestWord m fails s w).tab = s.tab := by
  unfold scrTestWord
  dsimp only
  split
  · split <;> simp
  · split <;> simp

@[simp] theorem scrTestStep_tab {m : Fin 21} {fails : List Nat} {s : State} : (scrTestStep m fails s).tab = s.tab := by simp [scrTestStep]

/-! ## The functions of Machine/Action -/

@[simp] theorem hallPut_tab {s : State} {n : Nat} {l : List HallEnt} : (hallPut s n l).tab = s.tab := by simp [hallPut]

@[simp] theorem hallArrive_tab {s : State} {n : Nat} {f : InFrame} {cls : Nat} {h : HallFrame} : (hallArrive s n f cls h).tab = s.tab := by simp [hallArrive]

@[simp] theorem recircPut_tab {s : State} {n : Nat} {l : List InFrame} : (recircPut s n l).tab = s.tab := by simp [recircPut]

@[simp] theorem recircSlot_tab {n : Fin 20} {s : State} : (recircSlot n s).tab = s.tab := by
  unfold recircSlot
  dsimp only
  split
  · simp
  · split <;> simp

/-! ## The functions of Machine/Ramp -/

@[simp] theorem rampStart_tab {s : State} {ks : List Nat} {up : Bool} : (rampStart s ks up).tab = s.tab := (rfl)

@[simp] theorem rampOne_tab {s : State} {k : Nat} {up : Bool} : (rampOne s k up).tab = s.tab := (rfl)

@[simp] theorem branchRamp_tab {s : State} {n st : Nat} : (branchRamp s n st).tab = s.tab := by simp [branchRamp]

@[simp] theorem relockDiscards_tab {s : State} {r : Nat} : (relockDiscards s r).2.tab = s.tab := by
  unfold relockDiscards
  dsimp only
  split
  · split <;> simp
  · simp

@[simp] theorem loopPut_tab {s : State} {x : Nat} {b : Bytes} : (loopPut s x b).tab = s.tab := (rfl)

@[simp] theorem loopDrop_tab {s : State} {x : Nat} : (loopDrop s x).tab = s.tab := (rfl)

theorem loopTake_tab {s : State} {x : Nat} {b : Bytes} {t : State} (h : loopTake s x b = some t) : t.tab = s.tab := by
  unfold loopTake at h
  split at h
  · cases h
  · split at h <;> cases h
    rfl

/-! ## The functions of Machine/Line -/

@[simp] theorem ballsCarry_tab {s : State} {p : Nat} {b : Bytes} : (ballsCarry s p b).tab = s.tab := (rfl)

@[simp] theorem lineTx_tab {s : State} {p : Nat} {b : Bytes} : (lineTx s p b).tab = s.tab := by
  unfold lineTx
  split <;> simp

theorem lineRx_tab {s : State} {p : Nat} {b : Bytes} {t : State} (h : lineRx s p b = some t) : t.tab = s.tab := by
  unfold lineRx at h
  split at h
  · cases h
    rfl
  · cases h
    simp
  · cases h
  · exact loopTake_tab h

@[simp] theorem sendLine_tab {s : State} {p : Nat} {b : Bytes} : (sendLine s p b).tab = s.tab := by simp [sendLine]

@[simp] theorem sendXoff_tab {s : State} {p mask : Nat} : (sendXoff s p mask).tab = s.tab := by simp [sendXoff]

@[simp] theorem xoffChange_tab {s : State} {p new : Nat} : (xoffChange s p new).tab = s.tab := by simp [xoffChange]

@[simp] theorem discardStaged_tab {s : State} {p : Nat} : (discardStaged s p).tab = s.tab := by simp [discardStaged]

@[simp] theorem faultShow_tab {s : State} {p : Nat} : (faultShow s p).tab = s.tab := by simp [faultShow]

@[simp] theorem xoffPay_tab {s : State} {p : Nat} : (xoffPay s p).tab = s.tab := by simp [xoffPay]

@[simp] theorem linkUpdate_tab {s : State} {p : Nat} : (linkUpdate s p).tab = s.tab := by simp [linkUpdate]

@[simp] theorem trainStart_tab {s : State} {p : Nat} : (trainStart s p).tab = s.tab := (rfl)

@[simp] theorem trainStop_tab {s : State} {p : Nat} : (trainStop s p).tab = s.tab := (rfl)

@[simp] theorem txEnter_tab {s : State} {p old new : Nat} : (txEnter s p old new).tab = s.tab := by simp [txEnter]

@[simp] theorem txUpdate_tab {s : State} {p : Nat} : (txUpdate s p).tab = s.tab := by simp [txUpdate]

@[simp] theorem txSettleGroup_tab {s : State} {g : Nat} : (txSettleGroup s g).tab = s.tab := by simp [txSettleGroup]

@[simp] theorem synceSquelch_tab {s : State} : (synceSquelch s).tab = s.tab := by simp [synceSquelch]

@[simp] theorem lockLost_tab {s : State} {l : List Nat} : (lockLost s l).tab = s.tab := by simp [lockLost]

@[simp] theorem lockHeld_tab {s : State} {l : List Nat} : (lockHeld s l).tab = s.tab := by simp [lockHeld]

@[simp] theorem synceResume_tab {k : Fin 2} {s : State} : (synceResume k s).tab = s.tab := by simp [synceResume]

@[simp] theorem lineLaneCalibration_tab {g : Fin 20} {l : Fin 8} {ok : Bool} {s : State} : (lineLaneCalibration g l ok s).tab = s.tab := by simp [lineLaneCalibration]

@[simp] theorem linkTrainingDone_tab {p : Fin 160} {ok : Bool} {s : State} : (linkTrainingDone p ok s).tab = s.tab := by simp [linkTrainingDone]

@[simp] theorem linkTrainingRetry_tab {p : Fin 160} {s : State} : (linkTrainingRetry p s).tab = s.tab := by simp [linkTrainingRetry]

@[simp] theorem retrainStart_tab {s : State} {p : Nat} : (retrainStart s p).tab = s.tab := by simp [retrainStart]

@[simp] theorem pwfAbsent_tab {s : State} {addr data : Nat} : (pwfAbsent s addr data).tab = s.tab := by simp [pwfAbsent]

@[simp] theorem retrain_tab {p : Fin 160} {s : State} : (retrain p s).tab = s.tab := by simp [retrain]

@[simp] theorem adminSet_tab {s : State} {p v : Nat} : (adminSet s p v).tab = s.tab := by simp [adminSet]

@[simp] theorem admin_tab {p : Fin 160} {v : Nat} {s : State} : (admin p v s).tab = s.tab := by simp [admin]

@[simp] theorem linkFault_tab {s : State} {p k : Nat} {f : Nat → Fld} {src : Nat} {on : Bool} : (linkFault s p k f src on).tab = s.tab := by simp [linkFault]

@[simp] theorem linkFaultDetect_tab {p : Fin 160} {lanes : Fin 256} {s : State} : (linkFaultDetect p lanes s).tab = s.tab := by simp [linkFaultDetect]

@[simp] theorem linkFaultClear_tab {p : Fin 160} {s : State} : (linkFaultClear p s).tab = s.tab := by simp [linkFaultClear]

@[simp] theorem remoteFaultReceived_tab {p : Fin 160} {s : State} : (remoteFaultReceived p s).tab = s.tab := by simp [remoteFaultReceived]

@[simp] theorem remoteFaultClear_tab {p : Fin 160} {s : State} : (remoteFaultClear p s).tab = s.tab := by simp [remoteFaultClear]

@[simp] theorem pauseSet_tab {s : State} {p mask q : Nat} : (pauseSet s p mask q).tab = s.tab := (rfl)

@[simp] theorem violation_tab {s : State} {p k : Nat} : (violation s p k).tab = s.tab := by simp [violation]

@[simp] theorem quanta_tab {p mask q : Nat} {s : State} : (quanta p mask q s).tab = s.tab := by simp [quanta]

@[simp] theorem macControl_tab {s : State} {p : Nat} {b : Bytes} : (macControl s p b).tab = s.tab := by simp [macControl]

@[simp] theorem macControlFrame_tab {p : Fin 160} {b : Bytes} {s : State} : (macControlFrame p b s).tab = s.tab := by
  unfold macControlFrame
  split
  · rfl
  · split
    · next h => simp [lineRx_tab h]
    · rfl

@[simp] theorem pauseTimerExpire_tab {p : Fin 160} {k : Fin 8} {s : State} : (pauseTimerExpire p k s).tab = s.tab := by simp [pauseTimerExpire]

@[simp] theorem pfcRefresh_tab {p : Fin 160} {s : State} : (pfcRefresh p s).tab = s.tab := by simp [pfcRefresh]

@[simp] theorem stormBegin_tab {s : State} {p k : Nat} : (stormBegin s p k).tab = s.tab := by simp [stormBegin]

@[simp] theorem pfcStormRestore_tab {p : Fin 160} {k : Fin 8} {s : State} : (pfcStormRestore p k s).tab = s.tab := by simp [pfcStormRestore]

/-! ## The functions of Machine/LineRx -/

@[simp] theorem stairPut_tab {s : State} {n : Nat} {l : List Arrival} : (stairPut s n l).tab = s.tab := (rfl)

@[simp] theorem slowFrame_tab {s : State} {p : Nat} {b : Bytes} : (slowFrame s p b).tab = s.tab := by simp [slowFrame]

@[simp] theorem rxGood_tab {s : State} {p : Nat} {b : Bytes} : (rxGood s p b).tab = s.tab := by simp [rxGood]

@[simp] theorem rxFrame_tab {s : State} {p : Nat} {b : Bytes} {preambleOk pcsErr fecErr : Bool} : (rxFrame s p b preambleOk pcsErr fecErr).tab = s.tab := by
  unfold rxFrame
  split
  · simp
  · split
    · simp
    · split
      · simp
      · split
        · simp
        · split <;> simp

@[simp] theorem lineFrameReceive_tab {p : Fin 160} {b : Bytes} {preambleOk pcsErr fecErr : Bool} {fecCorr fecUnc : Nat} {s : State} :
    (lineFrameReceive p b preambleOk pcsErr fecErr fecCorr fecUnc s).tab = s.tab := by
  unfold lineFrameReceive
  split
  · rfl
  · dsimp only
    split
    · simp
    · split
      · next h => simp [lineRx_tab h]
      · simp

@[simp] theorem pfcStormDetect_tab {p : Fin 160} {k : Fin 8} {s : State} : (pfcStormDetect p k s).tab = s.tab := by simp [pfcStormDetect]

/-! ## The functions of Machine/Hall -/

@[simp] theorem mirSend_tab {s : State} {n key m src rxNs sig : Nat} {b : Bytes} : (mirSend s n key m src rxNs sig b).tab = s.tab := by
  unfold mirSend
  split <;> simp

@[simp] theorem hallMirrors_tab {s : State} {n port : Nat} {h : HallFrame} : (hallMirrors s n port h).tab = s.tab := by simp [hallMirrors]

@[simp] theorem hallSample_tab {s : State} {n : Nat} {x : HostFrame} : (hallSample s n x).tab = s.tab := by simp [hallSample]

@[simp] theorem hallForward_tab {s : State} {n port : Nat} {h : HallFrame} : (hallForward s n port h).tab = s.tab := by
  unfold hallForward
  split <;> simp

@[simp] theorem hallRelease_tab {n : Fin 20} {s : State} : (hallRelease n s).tab = s.tab := by
  unfold hallRelease
  dsimp only
  split
  · simp
  · split <;> simp

/-! ## The functions of Machine/Buffers -/

@[simp] theorem putQueue_tab {s : State} {q : Nat} {x : Queue} : (putQueue s q x).tab = s.tab := (rfl)

@[simp] theorem markCross_tab {s : State} {m : Mark} : (markCross s m).tab = s.tab := by simp [markCross]

@[simp] theorem markFollow_tab {s : State} {m : Mark} {lvl : Bool} {val : Nat} : (markFollow s m lvl val).tab = s.tab := by simp [markFollow]

@[simp] theorem monitor_tab {s : State} {m : Nat} : (monitor s m).tab = s.tab := by simp [monitor]

@[simp] theorem queueMarks_tab {s : State} {q : Nat} : (queueMarks s q).tab = s.tab := by simp [queueMarks]

@[simp] theorem setThreshold_tab {s : State} {r k w : Nat} : (setThreshold s r k w).tab = s.tab := (rfl)

@[simp] theorem poolFollow_tab {s : State} {r k : Nat} : (poolFollow s r k).tab = s.tab := by simp [poolFollow]

@[simp] theorem pfcFollow_tab {s : State} {p k : Nat} : (pfcFollow s p k).tab = s.tab := (rfl)

@[simp] theorem xoffFollow_tab {s : State} {p : Nat} : (xoffFollow s p).tab = s.tab := by simp [xoffFollow]

@[simp] theorem bkpFollow_tab {s : State} : (bkpFollow s).tab = s.tab := by simp [bkpFollow]

@[simp] theorem bufFollow_tab {s : State} {r k p c : Nat} : (bufFollow s r k p c).tab = s.tab := by simp [bufFollow]

@[simp] theorem dropCount_tab {s : State} {q k : Nat} : (dropCount s q k).tab = s.tab := by
  unfold dropCount
  split <;> simp

@[simp] theorem avgUpdate_tab {s : State} {q w : Nat} : (avgUpdate s q w).tab = s.tab := (rfl)

@[simp] theorem wredTest_tab {s : State} {q w c : Nat} : (wredTest s q w c).2.tab = s.tab := by
  unfold wredTest
  dsimp only
  split
  · simp
  · split
    · simp
    · split <;> simp

@[simp] theorem congestion_tab {s : State} {q colour b : Nat} : (congestion s q colour b).2.tab = s.tab := by
  unfold congestion
  dsimp only
  split
  · simp
  · split <;> simp

@[simp] theorem wqPut_tab {s : State} {i : Nat} {l : List WLine} : (wqPut s i l).tab = s.tab := by simp [wqPut]

@[simp] theorem allocate_tab {s : State} {q : Nat} {x : Buf} {lines : List Nat} : (allocate s q x lines).2.tab = s.tab := by
  unfold allocate
  split <;> simp

@[simp] theorem enqueue_tab {s : State} {q : Nat} {d : Desc} {marked : Bool} : (enqueue s q d marked).tab = s.tab := by simp [enqueue]

@[simp] theorem diDrained_tab {s : State} {i : Nat} : (diDrained s i).tab = s.tab := by simp [diDrained]

@[simp] theorem releaseBuf_tab {s : State} {h : Nat} : (releaseBuf s h).tab = s.tab := by
  unfold releaseBuf
  split <;> simp

@[simp] theorem popHead_tab {s : State} {q : Nat} : (popHead s q).2.tab = s.tab := by
  simp only [popHead]
  split <;> simp

@[simp] theorem drainQueue_tab {count : State → State} {k : Nat} {s : State} {i : Nat} (hcount : ∀ t, (count t).tab = t.tab) : (drainQueue count k s i).tab = s.tab := by
  induction k generalizing s with
  | zero => rfl
  | succ n ih =>
    unfold drainQueue
    split
    · next heq => simpa [ih, hcount] using tab_of_pair heq popHead_tab
    · rfl

@[simp] theorem flushQueue_tab {s : State} {q : Nat} {count : State → State} (hcount : ∀ t, (count t).tab = t.tab) :
    (flushQueue s q count).tab = s.tab := drainQueue_tab hcount

@[simp] theorem sendRequest_tab {s : State} {port cls n : Nat} : (sendRequest s port cls n).tab = s.tab := by simp [sendRequest]

@[simp] theorem voqRequest_tab {n : Nat} {s : State} {i : Nat} : (voqRequest n s i).tab = s.tab := by
  induction n generalizing s with
  | zero => rfl
  | succ k ih =>
    unfold voqRequest
    dsimp only
    split <;> simp [ih]

@[simp] theorem voqAsk_tab {s : State} {q : Nat} : (voqAsk s q).tab = s.tab := by simp [voqAsk]

@[simp] theorem refusedCopy_tab {s : State} {n req : Nat} : (refusedCopy s n req).tab = s.tab := by simp [refusedCopy]

@[simp] theorem flushArrival_tab {s : State} {q n : Nat} : (flushArrival s q n).tab = s.tab := by simp [flushArrival]

@[simp] theorem takeIn_tab {s : State} {q : Nat} {x : Buf} {stored : Nat} {sramOnly : Bool} {lines : List Nat} : (takeIn s q x stored sramOnly lines).2.tab = s.tab := by
  unfold takeIn
  split
  · simp
  · simp
  · split
    · next heq => simpa using tab_of_pair heq congestion_tab
    · next heq =>
      have hs1 := tab_of_pair heq congestion_tab
      split <;> simpa using hs1

@[simp] theorem arriveOne_tab {s : State} {a : Arrival} {q sysPort : Nat} : (arriveOne s a q sysPort).2.tab = s.tab := by
  unfold arriveOne
  dsimp only
  split <;> (next heq => simpa using tab_of_pair heq takeIn_tab)

@[simp] theorem sharedAttach_tab {s : State} {q : Nat} {nh : Option Nat} {mark : Bool} {h : Nat} : (sharedAttach s q nh mark h).tab = s.tab := by simp [sharedAttach]

@[simp] theorem sharedTarget_tab {x : Buf} {k stored : Nat} {st : State × Option Nat × List Waiting} {t : Nat × Option Nat} :
    (sharedTarget x k stored st t).1.tab = st.1.tab := by
  obtain ⟨s, have_, wait⟩ := st
  unfold sharedTarget
  dsimp only
  split
  · simp
  · split
    · next heq => simpa using tab_of_pair heq congestion_tab
    · next heq =>
      have hs1 := tab_of_pair heq congestion_tab
      split
      · exact hs1
      · split
        · exact hs1
        · simpa using hs1

@[simp] theorem sharedAdmit_tab {s : State} {x : Buf} {stored : Nat} {targets : List (Nat × Option Nat)} : (sharedAdmit s x stored targets).2.2.tab = s.tab := by
  unfold sharedAdmit
  split
  · exact foldl_tab fun a t => by split <;> simp
  · dsimp only
    split <;> simp

@[simp] theorem sharedPlace_tab {s : State} {h : Nat} {l : List Waiting} : (sharedPlace s h l).tab = s.tab := by simp [sharedPlace]

@[simp] theorem enqueueWhole_tab {s : State} {q : Nat} {d : Desc} {mark : Bool} : (enqueueWhole s q d mark).tab = s.tab := by
  unfold enqueueWhole
  split <;> simp

@[simp] theorem sharedWhole_tab {s : State} {h : Nat} {l : List Waiting} : (sharedWhole s h l).tab = s.tab := by
  have hattach : (l.foldl (fun a w => match shutSlice a w.q with | some n => flushArrival a w.q n | none => sharedAttach a w.q w.nh w.mark h) s).tab = s.tab :=
    foldl_tab fun a w => by split <;> simp
  unfold sharedWhole
  dsimp only
  split
  · split
    · exact releaseBuf_tab.trans hattach
    · exact hattach
  · exact hattach

@[simp] theorem arriveShared_tab {s : State} {a : Arrival} {targets : List (Nat × Option Nat)} : (arriveShared s a targets).tab = s.tab := by
  unfold arriveShared
  split <;> (next heq => simpa using tab_of_triple heq sharedAdmit_tab)

@[simp] theorem arriveSample_tab {s : State} {n : Nat} {a : Arrival} {rcd : HostFrame} : (arriveSample s n a rcd).tab = s.tab := by
  unfold arriveSample
  split
  · simp
  · split
    · rw [refusedCopy_tab]
      split <;> simp
    · simp

@[simp] theorem arriveProbe_tab {s : State} {a : Arrival} {q : Nat} : (arriveProbe s a q).tab = s.tab := by
  unfold arriveProbe
  split
  · split
    · split <;> simp
    · simp
  · simp
  · simp

@[simp] theorem probeEnd_tab {s : State} {q : Nat} {x : Probe} : (probeEnd s q x).tab = s.tab := by
  unfold probeEnd
  split <;> simp

@[simp] theorem arrive_tab {s : State} {n : Nat} {a : Arrival} : (arrive s n a).tab = s.tab := by
  unfold arrive
  split
  · simp
  · split
    · split <;> simp
    · simp
    · simp
    · simp

@[simp] theorem bufferArrival_tab {lane : Fin 52} {s : State} : (bufferArrival lane s).tab = s.tab := by
  unfold bufferArrival
  split <;> simp

@[simp] theorem wmCrossedClear_tab {monitorNotPool : Bool} {i : Nat} {s : State} : (wmCrossedClear monitorNotPool i s).tab = s.tab := by simp [wmCrossedClear]

theorem monitorWritten_tab {s : State} {m v : Nat} : (monitorWritten s m v).tab = s.tab := by
  unfold monitorWritten
  simp only [wr_tab]

theorem monitorAnew_tab {m : Fin 4096} {v : Nat} {s : State} : (monitorAnew m v s).tab = s.tab := by
  unfold monitorAnew
  split
  · exact monitor_tab.trans monitorWritten_tab
  · exact monitorWritten_tab

@[simp] theorem qwmConfig_tab {m : Fin 4096} {v : Nat} {s : State} : (qwmConfig m v s).tab = s.tab := by
  rw [qwmConfig_eq]
  exact operWrite_tab fun _ => monitorAnew_tab

/-! ## The functions of Machine/Fab -/

@[simp] theorem putRx_tab {s : State} {g l : Nat} {x : RxLane} : (putRx s g l x).tab = s.tab := (rfl)

@[simp] theorem putTx_tab {s : State} {g l : Nat} {x : TxLane} : (putTx s g l x).tab = s.tab := (rfl)

@[simp] theorem carvCarry_tab {s : State} {k : Nat} {b : Bytes} : (carvCarry s k b).tab = s.tab := (rfl)

@[simp] theorem carvTx_tab {s : State} {k loop_ : Nat} {b : Bytes} : (carvTx s k loop_ b).tab = s.tab := by
  unfold carvTx
  split <;> simp

theorem carvRx_tab {s : State} {k loop_ : Nat} {b : Bytes} {t : State} (h : carvRx s k loop_ b = some t) : t.tab = s.tab := by
  unfold carvRx at h
  split at h
  · cases h
    rfl
  · cases h
    simp
  · exact loopTake_tab h

@[simp] theorem setWtr_tab {s : State} {w : Option (Nat × Nat)} : (setWtr s w).tab = s.tab := (rfl)

@[simp] theorem wtrFollow_tab {s t : State} : (wtrFollow s t).tab = t.tab := by
  unfold wtrFollow
  split
  · simp
  · split <;> simp

@[simp] theorem pmDefect_tab {s : State} {k : Nat} : (pmDefect s k).tab = s.tab := (rfl)

@[simp] theorem laneEmpty_tab {s : State} {g l : Nat} : (laneEmpty s g l).tab = s.tab := by simp [laneEmpty]

@[simp] theorem fabTrainStop_tab {s : State} {g : Nat} : (fabTrainStop s g).tab = s.tab := by simp [fabTrainStop]

@[simp] theorem fabTxUpdate_tab {s : State} {g : Nat} : (fabTxUpdate s g).tab = s.tab := by simp [fabTxUpdate]

@[simp] theorem groupLevels_tab {s : State} {g : Nat} : (groupLevels s g).tab = s.tab := by simp [groupLevels]

@[simp] theorem groupFollow_tab {s : State} {g : Nat} : (groupFollow s g).tab = s.tab := by simp [groupFollow]

@[simp] theorem fabFollow_tab {s t : State} : (fabFollow s t).tab = t.tab := by simp [fabFollow]

@[simp] theorem fabFollowGroup_tab {s t : State} {g : Nat} : (fabFollowGroup s t g).tab = t.tab := by simp [fabFollowGroup]

/-! ## The functions of Machine/GalLane -/

@[simp] theorem galPut_tab {s : State} {l : Nat} {x : RxLane} : (galPut s l x).tab = s.tab := (rfl)

@[simp] theorem pairShow_tab {s : State} : (pairShow s).tab = s.tab := by simp [pairShow]

@[simp] theorem galSeqNext_tab {s : State} {k : Nat} : (galSeqNext s k).tab = s.tab := (rfl)

@[simp] theorem galControl_tab {s : State} {body : List Nat} : (galControl s body).tab = s.tab := (rfl)

@[simp] theorem replayStart_tab {s : State} : (replayStart s).tab = s.tab := (rfl)

@[simp] theorem resyncAsk_tab {s : State} : (resyncAsk s).tab = s.tab := by simp [resyncAsk]

@[simp] theorem syncLost_tab {s : State} : (syncLost s).tab = s.tab := by simp [syncLost]

@[simp] theorem galRise_tab {s : State} : (galRise s).tab = s.tab := by simp [galRise]

@[simp] theorem galFall_tab {s : State} : (galFall s).tab = s.tab := by simp [galFall]

@[simp] theorem galEmpty_tab {s : State} {l : Nat} : (galEmpty s l).tab = s.tab := by simp [galEmpty]

@[simp] theorem galFollow_tab {s : State} : (galFollow s).tab = s.tab := by simp [galFollow]

theorem galTake_tab {s : State} {k : Nat} {p : GalPick} (h : galTake s k = some p) : p.s.tab = s.tab := by
  unfold galTake at h
  split at h
  · cases h
    rfl
  · cases h

@[simp] theorem cmdSent_tab {s : State} {q n : Nat} : (cmdSent s q n).tab = s.tab := by simp [cmdSent]

theorem cmdNext_tab {s : State} {p : GalPick} (h : cmdNext s = some p) : p.s.tab = s.tab := by
  unfold cmdNext at h
  dsimp only at h
  cases ht : galTake s 2 with
  | some q =>
    rw [ht] at h
    cases h
    exact galTake_tab ht
  | none =>
    rw [ht] at h
    change (if _ then _ else none) = some p at h
    split at h
    · split at h
      · cases h
        simp
      · cases h
    · cases h

@[simp] theorem regionBegin_tab {s : State} : (regionBegin s).tab = s.tab := by
  unfold regionBegin
  split <;> simp

theorem replayNext_tab {s : State} {p : GalPick} (h : replayNext s = some p) : p.s.tab = s.tab := by
  unfold replayNext at h
  split at h
  · cases ht : galTake s 4 with
    | some q =>
      rw [ht] at h
      cases h
      exact galTake_tab ht
    | none =>
      rw [ht] at h
      exact (galTake_tab h).trans regionBegin_tab
  · cases h

theorem faultNext_tab {s : State} {p : GalPick} (h : faultNext s = some p) : p.s.tab = s.tab := by
  unfold faultNext at h
  dsimp only at h
  split at h
  · split at h <;> cases h
    simp
  · cases h
    simp

@[simp] theorem controlNext_tab {s : State} : (controlNext s).s.tab = s.tab := by
  unfold controlNext
  cases h : galTake s 1 with
  | some p => exact galTake_tab h
  | none => rfl

theorem pick_tab {s : State} {o : Option GalPick} (h : ∀ {p}, o = some p → p.s.tab = s.tab) : (o.getD { s := s }).s.tab = s.tab := by
  cases o with
  | none => rfl
  | some p => exact h rfl

theorem orElse_pick_tab {s : State} {o : Option GalPick} {f : Unit → Option GalPick} (ho : ∀ {p}, o = some p → p.s.tab = s.tab) (hf : ∀ {p}, f () = some p → p.s.tab = s.tab)
    {p : GalPick} (h : o.orElse f = some p) : p.s.tab = s.tab := by
  cases o with
  | none => exact hf h
  | some q => exact ho h

@[simp] theorem galNext_tab {s : State} {st half : Nat} : (galNext s st half).s.tab = s.tab := by
  unfold galNext
  dsimp only
  refine pick_tab (orElse_pick_tab galTake_tab (orElse_pick_tab cmdNext_tab (orElse_pick_tab (fun h => ?_) (orElse_pick_tab replayNext_tab (orElse_pick_tab galTake_tab faultNext_tab)))))
  split at h
  · cases h
  · exact galTake_tab h

@[simp] theorem galSlot_tab {half : Nat} {x : GalFill} {l : Nat} : (galSlot half x l).s.tab = x.s.tab := by
  unfold galSlot
  split <;> simp

@[simp] theorem galLaneFrame_tab {s : State} {cells : NMap (List Bytes)} {l : Nat} : (galLaneFrame s cells l).tab = s.tab := by simp [galLaneFrame]

@[simp] theorem galFrameSend_tab {s : State} : (galFrameSend s).tab = s.tab := by
  unfold galFrameSend
  dsimp only
  split
  · rfl
  · refine (foldl_tab fun a l => galLaneFrame_tab).trans ?_
    exact foldl_tab_by (g := GalFill.s) (fun y _ => foldl_tab_by (g := GalFill.s) (fun _ _ => galSlot_tab) y _) { s := s } _

@[simp] theorem galTrailDone_tab {s : State} {l : Nat} {x : RxLane} {t : Bytes} : (galTrailDone s l x t).1.tab = s.tab := by
  unfold galTrailDone
  split <;> simp

@[simp] theorem ackTake_tab {s : State} {q : Nat} : (ackTake s q).tab = s.tab := by simp [ackTake]

@[simp] theorem galOverheadReceive_tab {s : State} {l : Nat} {x : RxLane} {b : Bytes} {was goesOn : Bool} : (galOverheadReceive s l x b was goesOn).tab = s.tab := by
  unfold galOverheadReceive
  dsimp only
  split
  · split <;> simp
  · simp

@[simp] theorem galCellTake_tab {s : State} {b : Bytes} : (galCellTake s b).tab = s.tab := by simp [galCellTake]

@[simp] theorem galGive_tab {s : State} {l : Nat} {x : RxLane} {f : List Bytes} : (galGive s l x f).tab = s.tab := by simp [galGive]

@[simp] theorem galWrite_tab {s : State} {l : Nat} {f : List Bytes} : (galWrite s l f).tab = s.tab := by simp [galWrite]

@[simp] theorem galFrameTake_tab {l : Nat} {frame : Bytes} {fecLost : Bool} {s : State} : (galFrameTake l frame fecLost s).tab = s.tab := by simp [galFrameTake]

@[simp] theorem galFrameReceive_tab {l : Nat} {frame : Bytes} {fecLost : Bool} {s : State} : (galFrameReceive l frame fecLost s).tab = s.tab := by
  unfold galFrameReceive
  split
  · rfl
  · split
    · rfl
    · next h => simp [carvRx_tab h]

@[simp] theorem galOldest_tab {s : State} {l : Nat} {x : RxLane} : (galOldest s l x).tab = s.tab := by
  unfold galOldest
  split <;> simp

@[simp] theorem galSlipRead_tab {l : Nat} {part : Bool} {s : State} : (galSlipRead l part s).tab = s.tab := by simp [galSlipRead]

@[simp] theorem galDefects_tab {s : State} {l m : Nat} : (galDefects s l m).tab = s.tab := by simp [galDefects]

@[simp] theorem galDeclare_tab {l d : Nat} {s : State} : (galDeclare l d s).tab = s.tab := by simp [galDeclare]

@[simp] theorem galClear_tab {l d : Nat} {s : State} : (galClear l d s).tab = s.tab := by simp [galClear]

/-! ## The functions of Machine/Gates -/

@[simp] theorem putGate_tab {s : State} {p : Nat} {g : GateSt} : (putGate s p g).tab = s.tab := (rfl)

@[simp] theorem gateShow_tab {s : State} {p : Nat} : (gateShow s p).tab = s.tab := by simp [gateShow]

@[simp] theorem gateEntryChange_tab {p : Fin 160} {s : State} : (gateEntryChange p s).tab = s.tab := by simp [gateEntryChange]

@[simp] theorem gateActivate_tab {p : Fin 160} {s : State} : (gateActivate p s).tab = s.tab := by
  simp only [gateActivate]
  split <;> simp

@[simp] theorem tab_gateChange_ {s : State} {p : Nat} : (gateChange_ s p).tab = s.tab := by simp [gateChange_]

@[simp] theorem tab_gateCancel_ {s : State} {p : Nat} : (gateCancel_ s p).tab = s.tab := by
  unfold gateCancel_
  split <;> simp

@[simp] theorem gateCtl_tab {s : State} {p v : Nat} : (gateCtl s p v).tab = s.tab := by simp [gateCtl]

@[simp] theorem gateEnable_tab {p : Fin 160} {en : Bool} {s : State} : (gateEnable p en s).tab = s.tab := by simp [gateEnable]

@[simp] theorem gateChange_tab {p : Fin 160} {s : State} : (gateChange p s).tab = s.tab := by simp [gateChange]

@[simp] theorem gateCancel_tab {p : Fin 160} {s : State} : (gateCancel p s).tab = s.tab := by simp [gateCancel]

/-! ## The functions of Machine/Egress -/

@[simp] theorem hostQueue_tab {s : State} {x : HostFrame} : (hostQueue s x).tab = s.tab := (rfl)

@[simp] theorem stairUpMove_tab {s : State} {lane : Nat} {a : Arrival} {rest : List Arrival} {ok : Bool} :
    (stairUpMove s lane a rest ok).tab = s.tab := by simp [stairUpMove]

@[simp] theorem stairDownMove_tab {s : State} {lane : Nat} {f : EgFrame} {rest : List EgFrame} {ok : Bool} :
    (stairDownMove s lane f rest ok).tab = s.tab := by simp [stairDownMove]

@[simp] theorem stairTransfer_tab {up : Bool} {lane : Fin 52} {retries : Fin 5} {ok : Bool} {s : State} : (stairTransfer up lane retries ok s).tab = s.tab := by
  unfold stairTransfer
  split
  · split
    · split <;> simp
    · split <;> simp
  · split
    · split <;> simp
    · split <;> simp

theorem macRefuses_tab {s : State} {p : Nat} {t : State} (h : macRefuses s p = some t) : t.tab = s.tab := by
  unfold macRefuses at h
  split at h
  · cases h
    simp
  · split at h <;> cases h
    simp

@[simp] theorem ptpTwoStep_tab {s : State} {p : Nat} {h : Hdr} {tx : Ptp} : (ptpTwoStep s p h tx).tab = s.tab := by simp [ptpTwoStep]

@[simp] theorem macSend_tab {s : State} {p : Nat} {f : EgFrame} : (macSend s p f).tab = s.tab := by
  unfold macSend
  split
  · split <;> simp
  · split <;> simp

@[simp] theorem stageRest_tab {s : State} {p k : Nat} {r : List EgFrame} : (stageRest s p k r).tab = s.tab := (rfl)

@[simp] theorem stagedFrameStart_tab {p : Fin 160} {k : Fin 8} {s : State} : (stagedFrameStart p k s).tab = s.tab := by
  unfold stagedFrameStart
  split
  · rfl
  · split
    · next h => simp [macRefuses_tab h]
    · split <;> simp

@[simp] theorem gateNofit_tab {p : Fin 160} {k : Fin 8} {s : State} : (gateNofit p k s).tab = s.tab := by
  unfold gateNofit
  split <;> simp

/-! ## The functions of Machine/Sched -/

@[simp] theorem rrPut_tab {s : State} {k c : Nat} : (rrPut s k c).tab = s.tab := (rfl)

@[simp] theorem requestRetry_tab {q : Fin 1048576} {s : State} : (requestRetry q s).tab = s.tab := by simp [requestRetry]

@[simp] theorem voqTimeout_tab {q : Fin 1048576} {s : State} : (voqTimeout q s).tab = s.tab := by simp [voqTimeout]

@[simp] theorem partnerBad_tab {s : State} {g k : Nat} : (partnerBad s g k).tab = s.tab := by simp [partnerBad]

@[simp] theorem creditArrive_tab {g port cls : Nat} {s : State} : (creditArrive g port cls s).tab = s.tab := by
  unfold creditArrive
  split <;> simp

@[simp] theorem creditPaced_tab {s : State} {port : Nat} : (creditPaced s port).tab = s.tab := (rfl)

@[simp] theorem creditGrant_tab {port : Fin 65536} {s : State} : (creditGrant port s).tab = s.tab := by
  unfold creditGrant
  dsimp only
  split
  · simp
  · split
    · simp
    · split <;> simp

@[simp] theorem sendCells_tab {s : State} {dst cls : Nat} {h : Hdr} {data : Bytes} : (sendCells s dst cls h data).tab = s.tab := by simp [sendCells]

@[simp] theorem deliver_tab {s : State} {q : Nat} {d : Desc} : (deliver s q d).tab = s.tab := by
  unfold deliver
  split <;> simp

@[simp] theorem leaveReady_tab {n : Nat} {s : State} {i : Nat} : (leaveReady n s i).tab = s.tab := by
  induction n generalizing s with
  | zero => rfl
  | succ k ih =>
    unfold leaveReady
    dsimp only
    split <;> simp [ih]

@[simp] theorem leave_tab {s : State} {q : Nat} {d : Desc} {readable : Bool} : (leave s q d readable).tab = s.tab := by simp [leave]

@[simp] theorem takeOff_tab {s : State} {q : Nat} {d : Desc} {b : Buf} {bad : Bool} : (takeOff s q d b bad).tab = s.tab := by
  unfold takeOff
  split <;> simp

@[simp] theorem skipped_tab {s : State} {n : Nat} : (skipped s n).tab = s.tab := by simp [skipped]

@[simp] theorem voqSpend_tab {s : State} {q : Nat} {b : Buf} : (voqSpend s q b).tab = s.tab := by simp [voqSpend]

@[simp] theorem voqTake_tab {s : State} {q : Nat} {bad : Bool} : (voqTake s q bad).tab = s.tab := by
  unfold voqTake
  split
  · rfl
  · next heq =>
    have hs1 := tab_of_pair heq popHead_tab
    split
    · exact hs1
    · dsimp only
      (repeat' split) <;> simpa using hs1

@[simp] theorem voqDequeue_tab {bad : Bool} {s : State} : (voqDequeue bad s).tab = s.tab := by
  unfold voqDequeue
  dsimp only
  split
  · simp
  · split <;> simp

@[simp] theorem dwrrFill_tab {s : State} {l : List Nat} : (dwrrFill s l).tab = s.tab := by
  unfold dwrrFill
  split <;> simp

theorem pickChild_tab {s : State} {n : Nat} {kids : List Nat} {v0 : Nat} {v1 : Bool} {v2 : State} (h : pickChild s n kids = some (v0, v1, v2)) : v2.tab = s.tab := by
  unfold pickChild at h
  dsimp only at h
  split at h
  · cases h
  · obtain ⟨c, -, hc⟩ := Option.map_eq_some_iff.mp h
    cases hc
    simp

@[simp] theorem pickPath_tab {n : Nat} {s : State} {i : Nat} {l : List (List Nat)} : (pickPath n s i l).2.tab = s.tab := by
  induction n generalizing s i l with
  | zero => rfl
  | succ k ih =>
    unfold pickPath
    split
    · rfl
    · next h => exact ih.trans (pickChild_tab h)

@[simp] theorem nodePay_tab {s : State} {c len : Nat} {excess : Bool} : (nodePay s c len excess).tab = s.tab := by simp [nodePay]

@[simp] theorem emptied_tab {s : State} {q : Nat} : (emptied s q).tab = s.tab := by
  unfold emptied
  split <;> simp

@[simp] theorem egressSelect_tab {n : Fin 161} {bad : Bool} {s : State} : (egressSelect n bad s).tab = s.tab := by
  unfold egressSelect
  dsimp only
  split
  · rfl
  · split
    · next hpath =>
      have hs1 := tab_of_pair hpath pickPath_tab
      rw [tab_ite, perf_tab, ite_self] at hs1
      split
      · rfl
      · next hpop =>
        have hs2 := (tab_of_pair hpop popHead_tab).trans hs1
        split
        · exact hs2
        · simpa using hs2
    · simp

@[simp] theorem calendarSlot_tab {s : State} : (calendarSlot s).tab = s.tab := (rfl)

@[simp] theorem fenceEnd_tab {s : State} {f : Fence} : (fenceEnd s f).tab = s.tab := (rfl)

@[simp] theorem fenceLift_tab {i : Nat} {s : State} : (fenceLift i s).tab = s.tab := by
  unfold fenceLift
  split <;> simp

@[simp] theorem fenceTimeout_tab {i : Nat} {s : State} : (fenceTimeout i s).tab = s.tab := by
  unfold fenceTimeout
  split <;> simp

@[simp] theorem epochWindow_tab {s : State} : (epochWindow s).tab = s.tab := by simp [epochWindow]

/-! ## The functions of Machine/FabTx -/

@[simp] theorem fabricLaneCalibration_tab {g : Fin 8} {l : Fin 28} {ok : Bool} {s : State} :
    (fabricLaneCalibration g l ok s).tab = s.tab := by simp [fabricLaneCalibration]

@[simp] theorem fabricLinkTrainingDone_tab {g : Fin 8} {l : Fin 28} {ok : Bool} {s : State} :
    (fabricLinkTrainingDone g l ok s).tab = s.tab := by simp [fabricLinkTrainingDone]

@[simp] theorem fabricTrainingRetry_tab {g : Fin 8} {l : Fin 28} {s : State} : (fabricTrainingRetry g l s).tab = s.tab := by simp [fabricTrainingRetry]

theorem nextOther_tab {s : State} {v0 : Cell} {v1 : State} (h : nextOther s = some (v0, v1)) : v1.tab = s.tab := by
  unfold nextOther at h
  split at h
  · cases h
    rfl
  · split at h
    · cases h
      rfl
    · split at h <;> cases h
      rfl

theorem nextData_tab {s : State} {g : Nat} {v0 : Cell} {v1 : State} (h : nextData s g = some (v0, v1)) : v1.tab = s.tab := by
  unfold nextData at h
  split at h <;> cases h
  rfl

theorem nextCell_tab {s : State} {g nd : Nat} {v0 : Cell} {v1 : State} (h : nextCell s g nd = some (v0, v1)) : v1.tab = s.tab := by
  unfold nextCell at h
  split at h
  · split at h
    · next hother =>
      cases h
      exact nextOther_tab hother
    · exact nextData_tab h
  · exact nextData_tab h

@[simp] theorem fillSlot_tab {lanes : List (Nat × Nat)} {x : State × Placed} : (fillSlot lanes x).1.tab = x.1.tab := foldl_fst_tab fun x gl => by
  dsimp only
  split
  · next h => simp [nextCell_tab h]
  · rfl

@[simp] theorem fillSlots_tab {lanes : List (Nat × Nat)} {n : Nat} {x : State × Placed} : (fillSlots lanes n x).1.tab = x.1.tab := by
  induction n generalizing x with
  | zero => rfl
  | succ k ih => exact ih.trans fillSlot_tab

@[simp] theorem laneFrame_tab {s : State} {g l : Nat} {cells : List Cell} : (laneFrame s g l cells).tab = s.tab := by simp [laneFrame]

@[simp] theorem sendAll_tab {s : State} {p : Placed} : (sendAll s p).tab = s.tab := by simp [sendAll]

@[simp] theorem nextMfas_tab {s : State} : (nextMfas s).tab = s.tab := (rfl)

@[simp] theorem sprayChange_tab {s : State} : (sprayChange s).tab = s.tab := by simp [sprayChange]

@[simp] theorem caravanFrameSend_tab {gal : Bool} {s : State} : (caravanFrameSend gal s).tab = s.tab := by simp [caravanFrameSend]

/-! ## The functions of Machine/Dram -/

@[simp] theorem diEnter_tab {s : State} {i st : Nat} : (diEnter s i st).tab = s.tab := (rfl)

@[simp] theorem diTrain_tab {s : State} {i : Nat} : (diTrain s i).tab = s.tab := (rfl)

@[simp] theorem dramPools_tab {s : State} : (dramPools s).tab = s.tab := by simp [dramPools]

@[simp] theorem diPerf_tab {s : State} {i e n : Nat} : (diPerf s i e n).tab = s.tab := by simp [diPerf]

@[simp] theorem diFail_tab {s : State} {i : Nat} : (diFail s i).tab = s.tab := by simp [diFail]

@[simp] theorem diLinkFail_tab {s : State} {i loc detail : Nat} : (diLinkFail s i loc detail).tab = s.tab := by simp [diLinkFail]

@[simp] theorem tagUse_tab {s : State} {i h j : Nat} : (tagUse s i h j).tab = s.tab := by simp [tagUse]

@[simp] theorem tagChange_tab {s : State} {i h j : Nat} : (tagChange s i h j).tab = s.tab := by simp [tagChange]

@[simp] theorem tagWriteback_tab {i : Fin 24} {retries : Nat} {ok : Bool} {s : State} : (tagWriteback i retries ok s).tab = s.tab := by
  unfold tagWriteback
  split <;> simp

@[simp] theorem lineWritten_tab {s : State} {i : Nat} {x : WLine} {b : Bytes} {poisoned : Bool} : (lineWritten s i x b poisoned).tab = s.tab := by simp [lineWritten]

@[simp] theorem lineMerge_tab {s : State} {i : Nat} {x : WLine} {new : Bytes} {flip : Nat} : (lineMerge s i x new flip).2.2.tab = s.tab := by simp [lineMerge]

@[simp] theorem bufFail_tab {s : State} {h : Nat} : (bufFail s h).tab = s.tab := (rfl)

@[simp] theorem writeLine_tab {s : State} {i : Nat} {x : WLine} {b : Buf} {ok : Bool} {flip : Nat} : (writeLine s i x b ok flip).tab = s.tab := by
  unfold writeLine
  split <;> simp

@[simp] theorem dramWriteComplete_tab {i : Fin 24} {retries : Nat} {ok : Bool} {flip : Nat} {s : State} : (dramWriteComplete i retries ok flip s).tab = s.tab := by
  unfold dramWriteComplete
  dsimp only
  split
  · simp
  · split <;> simp

@[simp] theorem mergeTimeout_tab {i : Fin 24} {s : State} : (mergeTimeout i s).tab = s.tab := by
  simp only [mergeTimeout]
  split <;> simp

@[simp] theorem leavingSet_tab {s : State} {q k : Nat} {keep : Bool} : (leavingSet s q k keep).tab = s.tab := (rfl)

@[simp] theorem lineFails_tab {i h : Nat} {s : State} {e : Nat × LRead} : (lineFails i h s e).tab = s.tab := by simp [lineFails]

@[simp] theorem lineLost_tab {i h : Nat} {s : State} {j : Nat} : (lineLost i h s j).tab = s.tab := by simp [lineLost]

@[simp] theorem readDrop_tab {s : State} {q k r h : Nat} : (readDrop s q k r h).tab = s.tab := by simp [readDrop]

@[simp] theorem readTaken_tab {s : State} {h : Nat} {b : Buf} {l : List (Nat × LRead)} : (readTaken s h b l).tab = s.tab := (rfl)

@[simp] theorem readFrame_tab {s : State} {q k : Nat} {d : Desc} {b : Buf} {retries : Nat} {failed : List Nat} {flips : NMap Nat} :
    (readFrame s q k d b retries failed flips).tab = s.tab := by simp [readFrame]

@[simp] theorem dramReadComplete_tab {q : Fin 1048576} {k retries : Nat} {failed : List Nat} {flips : NMap Nat} {s : State} :
    (dramReadComplete q k retries failed flips s).tab = s.tab := by
  unfold dramReadComplete
  split
  · split <;> simp
  · simp

@[simp] theorem fallDue_tab {s : State} {a res : Nat} : (fallDue s a res).tab = s.tab := by simp [fallDue]

@[simp] theorem stepEnds_tab {s : State} {a res : Nat} : (stepEnds s a res).tab = s.tab := (rfl)

@[simp] theorem dramTraining_tab {i : Fin 24} {ok : Bool} {s : State} : (dramTraining i ok s).tab = s.tab := by simp [dramTraining]

@[simp] theorem refreshBank_tab {s : State} {i bank : Nat} : (refreshBank s i bank).tab = s.tab := by simp [refreshBank]

@[simp] theorem dramRefresh_tab {i : Fin 24} {bank : Fin 64} {s : State} : (dramRefresh i bank s).tab = s.tab := by simp [dramRefresh]

@[simp] theorem readout_tab {s : State} {i t : Nat} : (readout s i t).tab = s.tab := by
  unfold readout
  split <;> simp

@[simp] theorem readoutFails_tab {s : State} {i : Nat} : (readoutFails s i).tab = s.tab := by simp [readoutFails]

@[simp] theorem dramTempReadout_tab {i : Fin 24} {t : Option (Fin 256)} {s : State} : (dramTempReadout i t s).tab = s.tab := by
  unfold dramTempReadout
  split
  · simp
  · split <;> simp

@[simp] theorem retrainDue_tab {i : Fin 24} {s : State} : (retrainDue i s).tab = s.tab := by simp [retrainDue]

@[simp] theorem diCtl_tab {i v : Nat} {s : State} : (diCtl i v s).tab = s.tab := by simp [diCtl]

@[simp] theorem drcRetrain_tab {i : Fin 24} {s : State} : (drcRetrain i s).tab = s.tab := by simp [drcRetrain]

@[simp] theorem pauseBegin_tab {i : Fin 24} {s : State} : (pauseBegin i s).tab = s.tab := by simp [pauseBegin]

@[simp] theorem diOut_tab {s : State} {i : Nat} : (diOut s i).tab = s.tab := by simp [diOut]

@[simp] theorem pauseEnd_tab {i : Fin 24} {ok : Bool} {s : State} : (pauseEnd i ok s).tab = s.tab := by simp [pauseEnd]

@[simp] theorem dramTestStep_tab {i : Fin 24} {k : Fin 8} {ok : Bool} {s : State} : (dramTestStep i k ok s).tab = s.tab := by simp [dramTestStep]

/-! ## The functions of Machine/React -/

@[simp] theorem reacted_tab {s t : State} : (reacted s t).tab = t.tab := by simp [reacted]

/-! ## The functions of Machine/Maint -/

@[simp] theorem tab_granted_ {s : State} {m : Maint} : (granted_ s m).tab = s.tab := by simp [granted_]

@[simp] theorem maintGrant_tab {a : Fin 6} {res : Nat} {s : State} : (maintGrant a res s).tab = s.tab := by simp [maintGrant]

@[simp] theorem dumpLate_tab {s : State} {d : Nat} : (dumpLate s d).tab = s.tab := by
  unfold dumpLate
  split <;> simp

@[simp] theorem lateExtra_tab {s : State} {a res : Nat} : (lateExtra s a res).tab = s.tab := by simp [lateExtra]

@[simp] theorem maintDeadline_tab {a : Fin 6} {res : Nat} {s : State} : (maintDeadline a res s).tab = s.tab := by simp [maintDeadline]

/-! ## The functions of Machine/Slices -/

@[simp] theorem sliceEnter_tab {s : State} {n st : Nat} : (sliceEnter s n st).tab = s.tab := by simp [sliceEnter]

@[simp] theorem sliceResult_tab {s : State} {n r : Nat} : (sliceResult s n r).tab = s.tab := (rfl)

@[simp] theorem flushSlice_tab {s : State} {n : Nat} : (flushSlice s n).tab = s.tab := by simp [flushSlice]

@[simp] theorem diSleep_tab {s : State} {i : Nat} : (diSleep s i).tab = s.tab := by simp [diSleep]

@[simp] theorem drainOver_tab {s : State} {n : Nat} : (drainOver s n).tab = s.tab := by
  unfold drainOver
  split <;> simp

@[simp] theorem enterBegin_tab {s : State} {n : Nat} : (enterBegin s n).tab = s.tab := by simp [enterBegin]

@[simp] theorem drainBegin_tab {s : State} {n : Nat} : (drainBegin s n).tab = s.tab := by simp [drainBegin]

@[simp] theorem addOne_tab {s : State} {n : Nat} : (addOne s n).tab = s.tab := by
  unfold addOne
  split <;> simp

@[simp] theorem removeOne_tab {s : State} {n : Nat} : (removeOne s n).tab = s.tab := by
  unfold removeOne
  split <;> simp

@[simp] theorem sleepOne_tab {s : State} {n : Nat} : (sleepOne s n).tab = s.tab := by
  unfold sleepOne
  split <;> simp

@[simp] theorem sliceCmd_tab {v : Nat} {s : State} : (sliceCmd v s).tab = s.tab := by
  unfold sliceCmd
  split
  · simp
  · split <;> simp

@[simp] theorem sliceAdd_tab {s : State} : (sliceAdd s).tab = s.tab := by simp [sliceAdd]

@[simp] theorem sliceRemove_tab {s : State} : (sliceRemove s).tab = s.tab := by simp [sliceRemove]

@[simp] theorem sliceSleep_tab {s : State} : (sliceSleep s).tab = s.tab := by simp [sliceSleep]

@[simp] theorem drainEnd_tab {n : Fin 40} {limit : Bool} {s : State} : (drainEnd n limit s).tab = s.tab := by simp [drainEnd]

@[simp] theorem maintWithdraw_tab {s : State} {n : Nat} : (maintWithdraw s n).tab = s.tab := (rfl)

@[simp] theorem lineLose_tab {s : State} {n : Nat} : (lineLose s n).tab = s.tab := by simp [lineLose]

@[simp] theorem enteringDone_tab {n : Fin 40} {s : State} : (enteringDone n s).tab = s.tab := by simp [enteringDone]

@[simp] theorem wakeDone_tab {n : Fin 40} {s : State} : (wakeDone n s).tab = s.tab := by simp [wakeDone]

/-! ## The functions of Machine/Clocks -/

@[simp] theorem writeRw_tab {s : State} {a v m : Nat} : (writeRw s a v m).tab = s.tab := (rfl)

@[simp] theorem commitHi_tab {s : State} {f lo mlo hi mhi v : Nat} : (commitHi s f lo mlo hi mhi v).tab = s.tab := (rfl)

@[simp] theorem pllStart_tab {s : State} {ps : List Nat} : (pllStart s ps).tab = s.tab := (rfl)

@[simp] theorem pllSettled_tab {s : State} {p : Nat} : (pllSettled s p).tab = s.tab := (rfl)

@[simp] theorem pllLocked_tab {p : Fin 25} {s : State} : (pllLocked p s).tab = s.tab := by simp [pllLocked]

@[simp] theorem galLaneOut_tab {s : State} {l : Nat} : (galLaneOut s l).tab = s.tab := by simp [galLaneOut]

@[simp] theorem lineLaneOut_tab {s : State} {g l : Nat} : (lineLaneOut s g l).tab = s.tab := by simp [lineLaneOut]

@[simp] theorem fabLaneOut_tab {s : State} {g l : Nat} : (fabLaneOut s g l).tab = s.tab := by simp [fabLaneOut]

@[simp] theorem diTrainOut_tab {s : State} {i : Nat} : (diTrainOut s i).tab = s.tab := by simp [diTrainOut]

@[simp] theorem pllLockFail_tab {p : Fin 25} {s : State} : (pllLockFail p s).tab = s.tab := by simp [pllLockFail]

@[simp] theorem relockOver_tab {s : State} {r : Nat} : (relockOver s r).tab = s.tab := by simp [relockOver]

@[simp] theorem rampStep_tab {s : State} : (rampStep s).tab = s.tab := by simp [rampStep]

@[simp] theorem relockBegin_tab {s : State} {r : Nat} : (relockBegin s r).tab = s.tab := by simp [relockBegin]

@[simp] theorem relockRelease_tab {s : State} : (relockRelease s).tab = s.tab := by
  unfold relockRelease
  split <;> simp

@[simp] theorem clkCtl_tab {v : Nat} {s : State} : (clkCtl v s).tab = s.tab := by simp [clkCtl]

@[simp] theorem rootRelockDone_tab {r : Fin 2} {ok : Bool} {s : State} : (rootRelockDone r ok s).tab = s.tab := by simp [rootRelockDone]

@[simp] theorem refLost_tab {s : State} {r : Nat} : (refLost s r).tab = s.tab := by simp [refLost]

@[simp] theorem refClockLoss_tab {r : Fin 4} {s : State} : (refClockLoss r s).tab = s.tab := by simp [refClockLoss]

@[simp] theorem refClockReturn_tab {r : Fin 4} {s : State} : (refClockReturn r s).tab = s.tab := by simp [refClockReturn]

@[simp] theorem pllLoss_tab {p : Fin 25} {s : State} : (pllLoss p s).tab = s.tab := by simp [pllLoss]

@[simp] theorem waitShow_tab {s : State} : (waitShow s).tab = s.tab := (rfl)

@[simp] theorem clkFreqAlarm_tab {r : Fin 3} {offset : Nat} {s : State} : (clkFreqAlarm r offset s).tab = s.tab := by simp [clkFreqAlarm]

@[simp] theorem ppsInLoss_tab {s : State} : (ppsInLoss s).tab = s.tab := by simp [ppsInLoss]

@[simp] theorem cd38Loss_tab {s : State} : (cd38Loss s).tab = s.tab := (rfl)

@[simp] theorem timIncrCommit_tab {v : Nat} {s : State} : (timIncrCommit v s).tab = s.tab := by simp [timIncrCommit]

@[simp] theorem ppsOutEdge_tab {rise : Bool} {s : State} : (ppsOutEdge rise s).tab = s.tab := (rfl)

@[simp] theorem ppsInEdge_tab {falling : Bool} {s : State} : (ppsInEdge falling s).tab = s.tab := by simp [ppsInEdge]

@[simp] theorem clkoutConfig_tab {v : Nat} {s : State} : (clkoutConfig v s).tab = s.tab := by simp [clkoutConfig]

/-! ## The functions of Machine/Power -/

@[simp] theorem landingSend_tab {s : State} {typ body : Nat} : (landingSend s typ body).tab = s.tab := by
  unfold landingSend
  rfl

@[simp] theorem landingFault_tab {s : State} {src slice die : Nat} : (landingFault s src slice die).tab = s.tab := (rfl)

@[simp] theorem vinDip_tab {s : State} : (vinDip s).tab = s.tab := by simp [vinDip]

@[simp] theorem vinWarn_tab {s : State} : (vinWarn s).tab = s.tab := by simp [vinWarn]

@[simp] theorem railOut_tab {k : Fin 7} {die : Fin 2} {slice : Fin 64} {s : State} : (railOut k die slice s).tab = s.tab := by simp [railOut]

@[simp] theorem railRecover_tab {s : State} : (railRecover s).tab = s.tab := by simp [railRecover]

@[simp] theorem vio18Overload_tab {s : State} : (vio18Overload s).tab = s.tab := by simp [vio18Overload]

@[simp] theorem vio18Recover_tab {s : State} : (vio18Recover s).tab = s.tab := (rfl)

@[simp] theorem vbatLow_tab {low : Bool} {s : State} : (vbatLow low s).tab = s.tab := by simp [vbatLow]

@[simp] theorem vbatCollapse_tab {s : State} : (vbatCollapse s).tab = s.tab := (rfl)

@[simp] theorem holdoverWrite_tab {s : State} : (holdoverWrite s).tab = s.tab := by simp [holdoverWrite]

@[simp] theorem clrRec_tab {s : State} : (clrRec s).tab = s.tab := by simp [clrRec]

@[simp] theorem tripRecover_tab {s : State} : (tripRecover s).tab = s.tab := by simp [tripRecover]

@[simp] theorem telemetryUpdate_tab {vin iin pin vbat vio : Nat} {grp die : List Nat} {s : State} :
    (telemetryUpdate vin iin pin vbat vio grp die s).tab = s.tab := by simp [telemetryUpdate]

/-! ## The functions of Machine/Boot -/

@[simp] theorem wearShow_tab {s : State} : (wearShow s).tab = s.tab := by simp [wearShow]

@[simp] theorem persistWrite_tab {s : State} {f : Persist → Nat → Persist} : (persistWrite s f).tab = s.tab := (rfl)

@[simp] theorem wearWrite_tab {s : State} {k : Nat} {counts : NMap Nat} : (wearWrite s k counts).tab = s.tab := (rfl)

@[simp] theorem wearBlocks_tab {s : State} {l : List Nat} : (wearBlocks s l).tab = s.tab := by simp [wearBlocks]

@[simp] theorem dirCommit_tab {s : State} {d : Directory} : (dirCommit s d).tab = s.tab := by simp [dirCommit]

@[simp] theorem dirWrite_tab {s : State} {d : Directory} : (dirWrite s d).tab = s.tab := by simp [dirWrite]

@[simp] theorem dirChange_tab {s : State} {f : Directory → Directory} : (dirChange s f).tab = s.tab := by
  unfold dirChange
  split <;> simp

@[simp] theorem nvlogAppend_tab {s : State} : (nvlogAppend s).tab = s.tab := by
  unfold nvlogAppend
  split <;> simp

@[simp] theorem slotProgram_tab {s : State} {typ slot : Nat} {x : Image} : (slotProgram s typ slot x).tab = s.tab := by simp [slotProgram]

@[simp] theorem pushRefused_tab {s : State} : (pushRefused s).tab = s.tab := (rfl)

@[simp] theorem pushStart_tab {v : Nat} {s : State} : (pushStart v s).tab = s.tab := by simp [pushStart]

@[simp] theorem floorFwUp_tab {s : State} : (floorFwUp s).tab = s.tab := (rfl)

@[simp] theorem floorCfgUp_tab {s : State} : (floorCfgUp s).tab = s.tab := (rfl)

@[simp] theorem arbCtl_tab {v : Nat} {s : State} : (arbCtl v s).tab = s.tab := by simp [arbCtl]

@[simp] theorem keyRevoke_tab {v : Nat} {s : State} : (keyRevoke v s).tab = s.tab := by simp [keyRevoke]

@[simp] theorem toField_tab {v : Nat} {s : State} : (toField v s).tab = s.tab := by simp [toField]

/-! ## The functions of Machine/FabRx -/

@[simp] theorem trailDone_tab {s : State} {g l : Nat} {x : RxLane} {t : Bytes} : (trailDone s g l x t).1.tab = s.tab := by
  unfold trailDone
  split <;> simp

@[simp] theorem pmFrame_tab {s : State} {k : Nat} {errored : Bool} : (pmFrame s k errored).tab = s.tab := (rfl)

@[simp] theorem bkpLevel_tab {s : State} {g : Nat} : (bkpLevel s g).tab = s.tab := by simp [bkpLevel]

@[simp] theorem bkpReceive_tab {s : State} {g : Nat} {b : Bytes} : (bkpReceive s g b).tab = s.tab := by
  unfold bkpReceive
  split <;> simp

@[simp] theorem bkpWatchdog_tab {g k : Fin 8} {s : State} : (bkpWatchdog g k s).tab = s.tab := by simp [bkpWatchdog]

@[simp] theorem srqStore_tab {s : State} {g v : Nat} : (srqStore s g v).tab = s.tab := by simp [srqStore]

@[simp] theorem srqUse_tab {s : State} {v : Nat} : (srqUse s v).tab = s.tab := by simp [srqUse]

@[simp] theorem srqCompare_tab {s : State} {g used : Nat} : (srqCompare s g used).tab = s.tab := by simp [srqCompare]

@[simp] theorem srqReceive_tab {s : State} {g : Nat} {b : Bytes} : (srqReceive s g b).tab = s.tab := by
  simp only [srqReceive]
  split <;> simp

@[simp] theorem srqIncDeclare_tab {s : State} : (srqIncDeclare s).tab = s.tab := by simp [srqIncDeclare]

@[simp] theorem overheadReceive_tab {s : State} {g l : Nat} {x : RxLane} {b : Bytes} {was goesOn : Bool} : (overheadReceive s g l x b was goesOn).tab = s.tab := by
  unfold overheadReceive
  dsimp only
  split
  · split
    · split <;> simp
    · simp
  · split
    · split <;> simp
    · simp

@[simp] theorem slipGive_tab {s : State} {g l : Nat} {x : RxLane} {f : List Bytes} : (slipGive s g l x f).tab = s.tab := (rfl)

@[simp] theorem slipWrite_tab {s : State} {g l : Nat} {b : Bytes} : (slipWrite s g l b).tab = s.tab := by simp [slipWrite]

@[simp] theorem frameTake_tab {g : Nat} {l : Fin 28} {frame : Bytes} {fecCorr : Nat} {fecLost : Bool} {s : State} :
    (frameTake g l frame fecCorr fecLost s).tab = s.tab := by simp [frameTake]

@[simp] theorem caravanFrameReceive_tab {g : Nat} {l : Fin 28} {frame : Bytes} {fecCorr : Nat} {fecLost : Bool} {s : State} :
    (caravanFrameReceive g l frame fecCorr fecLost s).tab = s.tab := by
  unfold caravanFrameReceive
  split
  · rfl
  · split
    · rfl
    · next h => simp [carvRx_tab h]

@[simp] theorem slipOldest_tab {s : State} {g l : Nat} {x : RxLane} : (slipOldest s g l x).tab = s.tab := by
  unfold slipOldest
  split <;> simp

@[simp] theorem slipRead_tab {g : Nat} {l : Fin 28} {part : Bool} {s : State} : (slipRead g l part s).tab = s.tab := by simp [slipRead]

@[simp] theorem laneDef_tab {s : State} {g l : Nat} {first : Bool} : (laneDef s g l first).tab = s.tab := by simp [laneDef]

@[simp] theorem defectDeclare_tab {g : Nat} {l : Fin 28} {d : Fin 7} {s : State} : (defectDeclare g l d s).tab = s.tab := by simp [defectDeclare]

@[simp] theorem defectClear_tab {g : Nat} {l : Fin 28} {d : Fin 7} {s : State} : (defectClear g l d s).tab = s.tab := by simp [defectClear]

@[simp] theorem degInterval_tab {g : Fin 8} {l : Fin 28} {s : State} : (degInterval g l s).tab = s.tab := (rfl)

@[simp] theorem protCtl_tab {v : Nat} {s : State} : (protCtl v s).tab = s.tab := by simp [protCtl]

@[simp] theorem protWrite_tab {v : Nat} {s : State} : (protWrite v s).tab = s.tab := by simp [protWrite]

@[simp] theorem protClear_tab {s : State} : (protClear s).tab = s.tab := by simp [protClear]

@[simp] theorem protManualSwitch_tab {plane : Fin 16} {s : State} : (protManualSwitch plane s).tab = s.tab := by simp [protManualSwitch]

@[simp] theorem protForcedSwitch_tab {plane : Fin 16} {s : State} : (protForcedSwitch plane s).tab = s.tab := by simp [protForcedSwitch]

@[simp] theorem protLockout_tab {s : State} : (protLockout s).tab = s.tab := by simp [protLockout]

@[simp] theorem protTest_tab {s : State} : (protTest s).tab = s.tab := by simp [protTest]

@[simp] theorem wtrExpire_tab {s : State} : (wtrExpire s).tab = s.tab := (rfl)

/-! ## The functions of Machine/FabCell -/

@[simp] theorem discard_tab {s : State} {g k : Nat} : (discard s g k).tab = s.tab := by simp [discard]

@[simp] theorem requestEntry_tab {g src : Nat} {s : State} {e : CrEnt} : (requestEntry g src s e).tab = s.tab := by simp [requestEntry]

@[simp] theorem creditEntry_tab {g : Nat} {s : State} {e : CrEnt} : (creditEntry g s e).tab = s.tab := by simp [creditEntry]

@[simp] theorem controlCell_tab {s : State} {g : Nat} {c : Cell} {payload : Bytes} : (controlCell s g c payload).tab = s.tab := by simp [controlCell]

@[simp] theorem localCopies_tab {s : State} {h : Hdr} : (localCopies s h).2.tab = s.tab := by simp [localCopies]

@[simp] theorem admitFab_tab {s : State} {g port : Nat} {h : Hdr} {size : Nat} : (admitFab s g port h size).2.tab = s.tab := by
  unfold admitFab
  split <;> simp

@[simp] theorem admitCopies_tab {g : Nat} {h : Hdr} {size : Nat} {l : List Nat} {s : State} : (admitCopies g h size l s).2.tab = s.tab := by
  induction l generalizing s with
  | nil => rfl
  | cons i r ih => simp [admitCopies, ih]

@[simp] theorem sharedTargets_tab {h : Hdr} {l : List Nat} {s : State} : (sharedTargets h l s).2.tab = s.tab := by
  induction l generalizing s with
  | nil => rfl
  | cons i r ih =>
    unfold sharedTargets
    split <;> simp [ih]

@[simp] theorem lineGrow_tab {di h i : Nat} {complete : Bool} {have_ : Nat} {s : State} : (lineGrow di h i complete have_ s).tab = s.tab := by simp [lineGrow]

@[simp] theorem bufGrow_tab {data : Bytes} {a b total : Nat} {s : State} {h : Nat} : (bufGrow data a b total s h).tab = s.tab := by
  unfold bufGrow
  split <;> simp

@[simp] theorem dropOpen_tab {s : State} {o : Option Reas} : (dropOpen s o).tab = s.tab := by
  unfold dropOpen
  split <;> simp

@[simp] theorem openShared_tab {s : State} {g : Nat} {h : Hdr} {size : Nat} : (openShared s g h size).2.tab = s.tab := by
  unfold openShared
  dsimp only
  split <;> (next heq => simpa using tab_of_triple heq sharedAdmit_tab)

@[simp] theorem openFrame_tab {s : State} {g : Nat} {c : Cell} : (openFrame s g c).2.tab = s.tab := by
  unfold openFrame
  dsimp only
  split
  · simp
  · split
    · split <;> simp
    · split <;> simp

@[simp] theorem closeFrame_tab {s : State} {r : Reas} : (closeFrame s r).tab = s.tab := by
  unfold closeFrame
  split <;> simp

@[simp] theorem growFrame_tab {s : State} {g : Nat} {r : Reas} {c : Cell} : (growFrame s g r c).2.tab = s.tab := by
  unfold growFrame
  dsimp only
  split
  · split <;> simp
  · split <;> simp

@[simp] theorem reassemble_tab {s : State} {o : Option Reas} {c : Cell} {g : Nat} : (reassemble s o c g).2.tab = s.tab := by
  have hs1 : (if o.isSome then partnerBad (dropOpen s o) g 4 else s).tab = s.tab := by split <;> simp
  unfold reassemble
  split
  · dsimp only
    split <;> (next heq => simpa using (tab_of_pair heq openFrame_tab).trans hs1)
  · split <;> simp

@[simp] theorem ctxPut_tab {s : State} {k : Nat} {x : Option Ctx} : (ctxPut s k x).tab = s.tab := (rfl)

@[simp] theorem deliverRun_tab {k : Nat} {s : State} {x : Ctx} {i : Nat} {c : Cell} {j : Nat} : (deliverRun k s x i c j).2.tab = s.tab := by
  induction k generalizing s x i c j with
  | zero => rfl
  | succ n ih =>
    unfold deliverRun
    dsimp only
    split <;> simp [ih]

@[simp] theorem ctxCell_tab {s : State} {k : Nat} {x : Ctx} {e g : Nat} {c : Cell} : (ctxCell s k x e g c).tab = s.tab := by simp [ctxCell]

@[simp] theorem dataCell_tab {s : State} {g : Nat} {c : Cell} : (dataCell s g c).tab = s.tab := by
  unfold dataCell
  dsimp only
  split
  · simp
  · split
    · simp
    · split <;> simp

@[simp] theorem cellReceive_tab {g : Fin 8} {l : Fin 28} {s : State} : (cellReceive g l s).tab = s.tab := by
  unfold cellReceive
  dsimp only
  split
  · simp
  · split
    · simp
    · split
      · simp
      · split <;> simp

@[simp] theorem holeTimeout_tab {src dst : Fin 65536} {cls : Fin 8} {s : State} : (holeTimeout src dst cls s).tab = s.tab := by
  unfold holeTimeout
  dsimp only
  split
  · simp
  · split
    · simp
    · split <;> simp

@[simp] theorem contextFree_tab {src dst : Fin 65536} {cls : Fin 8} {s : State} : (contextFree src dst cls s).tab = s.tab := by
  simp only [contextFree]
  split <;> simp

/-! ## The functions of Machine/FabPm -/

@[simp] theorem pmCount_tab {k now sec m : Nat} {up : Bool} {s : State} : (pmCount k now sec m up s).tab = s.tab := by simp [pmCount]

@[simp] theorem pmClasses_tab {k now : Nat} {up : Bool} {l : List (Nat × Nat)} {s : State} : (pmClasses k now up l s).tab = s.tab := by simp [pmClasses]

@[simp] theorem pmUas_tab {k now : Nat} {up : Bool} {l : List (Nat × Nat)} {s : State} : (pmUas k now up l s).tab = s.tab := by simp [pmUas]

@[simp] theorem pmShow_tab {k : Nat} {u : Bool} {s : State} : (pmShow k u s).tab = s.tab := (rfl)

@[simp] theorem pmTake_tab {k now c : Nat} {s : State} : (pmTake k now c s).tab = s.tab := by
  unfold pmTake
  dsimp only
  split
  · simp
  · split <;> simp

@[simp] theorem pmRestart_tab {s : State} : (pmRestart s).tab = s.tab := by simp [pmRestart]

@[simp] theorem pmRoll_tab {len b n : Nat} {s : State} : (pmRoll len b n s).tab = s.tab := by simp [pmRoll]

@[simp] theorem pmRolls_tab {a b : Nat} {s : State} : (pmRolls a b s).tab = s.tab := by simp [pmRolls]

@[simp] theorem pmSecond_tab {s : State} : (pmSecond s).tab = s.tab := by simp [pmSecond]

/-! ## The functions of Machine/Host -/

@[simp] theorem hostFail_tab {s : State} {f addr v : Nat} {c : PwfCause} : (hostFail s f addr v c).tab = s.tab := by simp [hostFail]

@[simp] theorem ringWrite_tab {s : State} {f r o v : Nat} {act : State → State} (hact : ∀ t, (act t).tab = t.tab) :
    (ringWrite s f r o v act).tab = s.tab := by simp [ringWrite, hact]

@[simp] theorem ringStop_tab {s : State} {f r cause index : Nat} : (ringStop s f r cause index).tab = s.tab := by simp [ringStop]

@[simp] theorem prodDoorbell_tab {f r v : Nat} {s : State} : (prodDoorbell f r v s).tab = s.tab := by simp [prodDoorbell]

@[simp] theorem ringRelease_tab {s : State} {f r k : Nat} : (ringRelease s f r k).tab = s.tab := by simp [ringRelease]

@[simp] theorem consDoorbell_tab {f r v : Nat} {s : State} : (consDoorbell f r v s).tab = s.tab := by simp [consDoorbell]

@[simp] theorem ringForget_tab {s : State} {k : Nat} : (ringForget s k).tab = s.tab := (rfl)

@[simp] theorem ringFlushed_tab {s : State} {f r cause point ents cmds : Nat} : (ringFlushed s f r cause point ents cmds).tab = s.tab := by simp [ringFlushed]

@[simp] theorem ringFlush_tab {s : State} {f r cause cmds : Nat} : (ringFlush s f r cause cmds).tab = s.tab := by simp [ringFlush]

@[simp] theorem ringDown_tab {s : State} {f r cause cmds : Nat} : (ringDown s f r cause cmds).tab = s.tab := by
  unfold ringDown
  split <;> simp

@[simp] theorem ringOn_tab {s : State} {f r : Nat} : (ringOn s f r).tab = s.tab := by simp [ringOn]

@[simp] theorem ringCfg_tab {f r w cmds : Nat} {s : State} : (ringCfg f r w cmds s).tab = s.tab := by simp [ringCfg]

@[simp] theorem ringEnable_tab {f r v : Nat} {s : State} : (ringEnable f r v s).tab = s.tab := by simp [ringEnable]

@[simp] theorem ringDisable_tab {f r v cmds : Nat} {s : State} : (ringDisable f r v cmds s).tab = s.tab := by simp [ringDisable]

@[simp] theorem ringFlushCmd_tab {f r v cmds : Nat} {s : State} : (ringFlushCmd f r v cmds s).tab = s.tab := by simp [ringFlushCmd]

@[simp] theorem launched_tab {s : State} {f : Nat} : (launched s f).tab = s.tab := by simp [launched]

@[simp] theorem openPut_tab {s : State} {f r : Nat} {l : List Bytes} : (openPut s f r l).tab = s.tab := by simp [openPut]

@[simp] theorem entryJoin_tab {s : State} {f r : Nat} {e : Bytes} : (entryJoin s f r e).tab = s.tab := by simp [entryJoin]

@[simp] theorem entryOrphan_tab {s : State} {k : Nat} {x : Nat × Nat × Nat} : (entryOrphan s k x).tab = s.tab := (rfl)

@[simp] theorem openDrop_tab {s : State} {f r : Nat} : (openDrop s f r).tab = s.tab := by simp [openDrop]

@[simp] theorem entryTake_tab {s : State} {f r i : Nat} {e : Bytes} : (entryTake s f r i e).tab = s.tab := by
  simp only [entryTake]
  split <;> simp

@[simp] theorem entryRead_tab {s : State} {f r : Nat} : (entryRead s f r).tab = s.tab := (rfl)

@[simp] theorem commandFetch_tab {f r : Nat} {entry : Option Bytes} {s : State} : (commandFetch f r entry s).tab = s.tab := by
  unfold commandFetch
  dsimp only
  split
  · simp
  · split <;> simp

@[simp] theorem msixHoldoffEnd_tab {f r : Nat} {s : State} : (msixHoldoffEnd f r s).tab = s.tab := by
  simp only [msixHoldoffEnd]
  split <;> simp

@[simp] theorem pciePerstRelease_tab {s : State} : (pciePerstRelease s).tab = s.tab := (rfl)

@[simp] theorem txShut_tab {s : State} {f : Nat} {d : TxDesc} : (txShut s f d).tab = s.tab := by simp [txShut]

@[simp] theorem txInject_tab {s : State} {f : Nat} {d : TxDesc} {b : Bytes} : (txInject s f d b).tab = s.tab := by
  unfold txInject
  split <;> simp

@[simp] theorem txDescriptor_tab {f k : Nat} {entry data : Option Bytes} {s : State} : (txDescriptor f k entry data s).tab = s.tab := by
  unfold txDescriptor
  split <;> simp

@[simp] theorem rxWrite_tab {s : State} {f r at_ : Nat} {x : HostFrame} : (rxWrite s f r at_ x).tab = s.tab := by simp [rxWrite]

@[simp] theorem hostFrameDeliver_tab {s : State} : (hostFrameDeliver s).tab = s.tab := by
  unfold hostFrameDeliver
  dsimp only
  (repeat' split) <;> simp

@[simp] theorem pwfClear_tab {s : State} : (pwfClear s).tab = s.tab := by simp [pwfClear]

@[simp] theorem grant_tab {f w v : Nat} {s : State} : (grant f w v s).tab = s.tab := by simp [grant]

@[simp] theorem fnCfgWrite_tab {f v : Nat} {s : State} : (fnCfgWrite f v s).tab = s.tab := by simp [fnCfgWrite]

@[simp] theorem msixSizeWrite_tab {f v : Nat} {s : State} : (msixSizeWrite f v s).tab = s.tab := by simp [msixSizeWrite]

/-! ## The functions of Machine/Update -/

@[simp] theorem updStatus_tab {s : State} {n : Nat} : (updStatus s n).tab = s.tab := by simp [updStatus]

@[simp] theorem updEnter_tab {s : State} {n : Nat} : (updEnter s n).tab = s.tab := (rfl)

@[simp] theorem updCtl_tab {k v : Nat} {s : State} {act : State → Nat × State} (hact : ∀ t, (act t).2.tab = t.tab) :
    (updCtl k v s act).tab = s.tab := by simp [updCtl, hact]

@[simp] theorem stagedShow_tab {s : State} : (stagedShow s).tab = s.tab := (rfl)

@[simp] theorem stageStart_tab {v : Nat} {s : State} : (stageStart v s).tab = s.tab := by simp [stageStart]

@[simp] theorem slotErased_tab {s : State} {typ slot len : Nat} : (slotErased s typ slot len).tab = s.tab := by simp [slotErased]

@[simp] theorem stageFailed_tab {s : State} {status blocks : Nat} : (stageFailed s status blocks).tab = s.tab := by simp [stageFailed]

@[simp] theorem slowProgram_tab {s : State} {b : Nat} : (slowProgram s b).tab = s.tab := by simp [slowProgram]

@[simp] theorem stageDone_tab {s : State} {typ slot : Nat} {x : Image} : (stageDone s typ slot x).tab = s.tab := by simp [stageDone]

@[simp] theorem stagingDone_tab {dmaOk nvmOk : Bool} {data : Bytes} {slow again : List Nat} {s : State} : (stagingDone dmaOk nvmOk data slow again s).tab = s.tab := by
  unfold stagingDone
  dsimp only
  (repeat' split) <;> simp

@[simp] theorem arm_tab {v : Nat} {s : State} : (arm v s).tab = s.tab := updCtl_tab fun s => by
  dsimp only
  (repeat' split) <;> simp

@[simp] theorem enterTrial_tab {s : State} : (enterTrial s).tab = s.tab := by simp [enterTrial]

@[simp] theorem firmwareSwapDone_tab {s : State} : (firmwareSwapDone s).tab = s.tab := by simp [firmwareSwapDone]

@[simp] theorem confirmImages_tab {s : State} : (confirmImages s).tab = s.tab := by
  unfold confirmImages
  dsimp only
  split
  · split <;> simp
  · split <;> simp

@[simp] theorem fallbackDue_tab {s : State} {b : Bool} : (fallbackDue s b).tab = s.tab := by simp [fallbackDue]

@[simp] theorem trialOver_tab {s : State} : (trialOver s).tab = s.tab := (rfl)

@[simp] theorem confirmTrial_tab {v : Nat} {s : State} : (confirmTrial v s).tab = s.tab := updCtl_tab fun s => by
  dsimp only
  (repeat' split) <;> simp

@[simp] theorem abandon_tab {v : Nat} {s : State} : (abandon v s).tab = s.tab := updCtl_tab fun s => by (repeat' split) <;> simp

@[simp] theorem trialExpire_tab {s : State} : (trialExpire s).tab = s.tab := by simp [trialExpire]

@[simp] theorem updDiscard_tab {v : Nat} {s : State} : (updDiscard v s).tab = s.tab := updCtl_tab fun s => by split <;> simp

/-! ## The functions of Machine/Pair -/

@[simp] theorem roleFollow_tab {s t : State} : (roleFollow s t).tab = t.tab := by
  simp only [roleFollow]
  split <;> simp

@[simp] theorem roleEnter_tab {s : State} {r : Nat} {lease : Bool} : (roleEnter s r lease).tab = s.tab := by simp [roleEnter]

@[simp] theorem withdrawNow_tab {s : State} {why : Nat} : (withdrawNow s why).tab = s.tab := by simp [withdrawNow]

@[simp] theorem digestCheck_tab {s : State} : (digestCheck s).tab = s.tab := by
  unfold digestCheck
  split <;> simp

@[simp] theorem landingBad_tab {s : State} {k : Nat} : (landingBad s k).tab = s.tab := by simp [landingBad]

@[simp] theorem landingAck_tab {s : State} {typ epoch status : Nat} : (landingAck s typ epoch status).tab = s.tab := by simp [landingAck]

@[simp] theorem landingRefused_tab {s : State} {typ epoch : Nat} : (landingRefused s typ epoch).tab = s.tab := by simp [landingRefused]

@[simp] theorem roleMessage_tab {s : State} {typ epoch reason : Nat} : (roleMessage s typ epoch reason).tab = s.tab := by
  simp only [roleMessage]
  split <;> simp

@[simp] theorem landingCurrent_tab {s : State} {typ body : Nat} : (landingCurrent s typ body).tab = s.tab := by simp [landingCurrent]

@[simp] theorem landing_tab {sync typ body crc : Nat} {framed : Bool} {s : State} : (landing sync typ body crc framed s).tab = s.tab := by simp [landing]

@[simp] theorem arbLoss_tab {s : State} : (arbLoss s).tab = s.tab := by simp [arbLoss]

@[simp] theorem leaseExpire_tab {s : State} : (leaseExpire s).tab = s.tab := by simp [leaseExpire]

@[simp] theorem healthSend_tab {s : State} : (healthSend s).tab = s.tab := by simp [healthSend]

@[simp] theorem helloSend_tab {s : State} : (helloSend s).tab = s.tab := by simp [helloSend]

@[simp] theorem faultMsgSend_tab {s : State} : (faultMsgSend s).tab = s.tab := by
  unfold faultMsgSend
  split <;> simp

@[simp] theorem galleryHelloSend_tab {s : State} : (galleryHelloSend s).tab = s.tab := by simp [galleryHelloSend]

@[simp] theorem galleryHelloReceive_tab {partner : Nat} {digest : Bytes} {alt : Option Bytes} {resync : Bool} {s : State} :
    (galleryHelloReceive partner digest alt resync s).tab = s.tab := by simp [galleryHelloReceive]

@[simp] theorem galleryLoss_tab {s : State} : (galleryLoss s).tab = s.tab := by simp [galleryLoss]

@[simp] theorem recordBad_tab {s : State} : (recordBad s).tab = s.tab := by simp [recordBad]

@[simp] theorem replayAgain_tab {s : State} {q : Nat} : (replayAgain s q).tab = s.tab := by
  unfold replayAgain
  split <;> simp

@[simp] theorem nackReceive_tab {q : Nat} {replay : Bool} {s : State} : (nackReceive q replay s).tab = s.tab := by simp [nackReceive]

@[simp] theorem ackStall_tab {s : State} : (ackStall s).tab = s.tab := by simp [ackStall]

@[simp] theorem galQueue_tab {s : State} {k : Nat} {l : List GalCell} : (galQueue s k l).tab = s.tab := (rfl)

@[simp] theorem baselineLatch_tab {s : State} : (baselineLatch s).tab = s.tab := by simp [baselineLatch]

@[simp] theorem baselineApply_tab {i frames bytes : Nat} {s : State} : (baselineApply i frames bytes s).tab = s.tab := by simp [baselineApply]

@[simp] theorem pairCtl_tab {s : State} {v : Nat} : (pairCtl s v).tab = s.tab := by simp [pairCtl]

@[simp] theorem resync_tab {v : Nat} {s : State} : (resync v s).tab = s.tab := by simp [resync]

@[simp] theorem resyncComplete_tab {q : Nat} {s : State} : (resyncComplete q s).tab = s.tab := by simp [resyncComplete]

@[simp] theorem marginMeasure_tab {margins : List Nat} {s : State} : (marginMeasure margins s).tab = s.tab := by simp [marginMeasure]

@[simp] theorem galleryLaneCalibration_tab {l : Fin 4} {ok : Bool} {s : State} : (galleryLaneCalibration l ok s).tab = s.tab := by simp [galleryLaneCalibration]

/-! ## The functions of Machine/Test -/

@[simp] theorem laneRestore_tab {s : State} {x : Nat} : (laneRestore s x).tab = s.tab := by simp [laneRestore]

@[simp] theorem laneLoopDrop_tab {s : State} {x : Nat} : (laneLoopDrop s x).tab = s.tab := by simp [laneLoopDrop]

@[simp] theorem laneTestConfig_tab {x v : Nat} {s : State} : (laneTestConfig x v s).tab = s.tab := by simp [laneTestConfig]

@[simp] theorem checkerLockChange_tab {x : Nat} {locked : Bool} {s : State} : (checkerLockChange x locked s).tab = s.tab := by simp [checkerLockChange]

@[simp] theorem checkerBitError_tab {x n : Nat} {s : State} : (checkerBitError x n s).tab = s.tab := by simp [checkerBitError]

@[simp] theorem probeSend_tab {standby : Bool} {s : State} {n : Nat} : (probeSend standby s n).tab = s.tab := by
  unfold probeSend
  split <;> simp

@[simp] theorem probeGo_tab {v : Nat} {s : State} : (probeGo v s).tab = s.tab := by simp [probeGo]

@[simp] theorem standbyProbe_tab {s : State} : (standbyProbe s).tab = s.tab := by simp [standbyProbe]

@[simp] theorem probeCapture_tab {n : Nat} {frame : Bytes} {s : State} : (probeCapture n frame s).tab = s.tab := by
  unfold probeCapture
  split <;> simp

@[simp] theorem probeTimeout_tab {n : Nat} {s : State} : (probeTimeout n s).tab = s.tab := by
  unfold probeTimeout
  split <;> simp

@[simp] theorem meminjCtl_tab {s : State} {v : Nat} : (meminjCtl s v).tab = s.tab := by simp [meminjCtl]

@[simp] theorem memoryInjectArm_tab {v : Nat} {s : State} : (memoryInjectArm v s).tab = s.tab := by simp [memoryInjectArm]

/-! ## The functions of Machine/Regs -/

@[simp] theorem rcClear_tab {s : State} {a : Nat} : (rcClear s a).tab = s.tab := by
  unfold rcClear
  dsimp only
  split
  · simp
  · split
    · simp
    · split
      · split <;> simp
      · split <;> simp

@[simp] theorem latchDrop_tab {s : State} {f a : Nat} : (latchDrop s f a).tab = s.tab := (rfl)

@[simp] theorem latchPut_tab {s : State} {f a : Nat} : (latchPut s f a).tab = s.tab := (rfl)

@[simp] theorem loLatch_tab {s : State} {f a : Nat} : (loLatch s f a).tab = s.tab := by simp [loLatch]

@[simp] theorem regRead_tab {s : State} {f a : Nat} : (regRead s f a).2.tab = s.tab := by
  unfold regRead
  split <;> simp

@[simp] theorem windowRead_tab {s : State} {a : Nat} : (windowRead s a).2.tab = s.tab := by
  unfold windowRead
  split <;> simp

@[simp] theorem bar0Read_tab {s : State} {f addr : Nat} : (bar0Read s f addr).2.tab = s.tab := by
  unfold bar0Read
  split
  · simp
  · split
    · simp
    · split <;> simp

@[simp] theorem bar2Read_tab {s : State} {off : Nat} : (bar2Read s off).2.tab = s.tab := by
  unfold bar2Read
  split
  · simp
  · split <;> simp

@[simp] theorem readBack_tab {x : Nat × State} : (readBack x).tab = x.2.tab := (rfl)

@[simp] theorem busRead_tab {f : Nat} {bar2 : Bool} {addr width : Nat} {s : State} : (busRead f bar2 addr width s).tab = s.tab := by simp [busRead]

@[simp] theorem accessExpired_tab {f : Nat} {write : Bool} {addr v : Nat} {s : State} : (accessExpired f write addr v s).tab = s.tab := by
  unfold accessExpired
  split <;> simp

/-! ## The functions of loading, VERIFY, APPLY and BRINGUP (Machine/Power and Machine/Boot) -/

@[simp] theorem enterHold_tab {s : State} {reason image slot detail status : Nat} : (enterHold s reason image slot detail status).tab = s.tab := by simp [enterHold]

@[simp] theorem leaveHold_tab {s : State} {t : TopState} : (leaveHold s t).tab = s.tab := by simp [leaveHold]

@[simp] theorem levelBits_tab {s : State} : (levelBits s).tab = s.tab := by simp [levelBits]

@[simp] theorem vbatAtStart_tab {mv : Nat} {s : State} : (vbatAtStart mv s).tab = s.tab := by simp [vbatAtStart]

@[simp] theorem resetExit_tab {testmode : Bool} {vbatMv : Nat} {rcal : List Nat} {s : State} : (resetExit testmode vbatMv rcal s).tab = s.tab := by simp [resetExit]

@[simp] theorem secondDrop_tab {s : State} : (secondDrop s).tab = s.tab := (rfl)

@[simp] theorem trialLost_tab {s : State} {d : Directory} : (trialLost s d).tab = s.tab := by simp [trialLost]

@[simp] theorem trialAtStart_tab {s : State} {fw cfg : Image} : (trialAtStart s fw cfg).tab = s.tab := by
  unfold trialAtStart
  split
  · rfl
  · dsimp only
    split
    · rfl
    · split <;> simp

@[simp] theorem loadHold_tab {s : State} {reason image slot detail : Nat} : (loadHold s reason image slot detail).tab = s.tab := by simp [loadHold]

@[simp] theorem imageBegin_tab {s : State} {typ : Nat} : (imageBegin s typ).tab = s.tab := by simp [imageBegin]

@[simp] theorem loadNext_tab {s : State} : (loadNext s).tab = s.tab := by simp [loadNext]

@[simp] theorem nvmIdAttempt_tab {valid octal : Bool} {s : State} : (nvmIdAttempt valid octal s).tab = s.tab := by simp [nvmIdAttempt]

@[simp] theorem readAccepted_tab {s : State} {fails : Nat} : (readAccepted s fails).tab = s.tab := by simp [readAccepted]

@[simp] theorem readFailed_tab {s : State} {r : Reading} {ended : State → State} (hended : ∀ t, (ended t).tab = t.tab) :
    (readFailed s r ended).tab = s.tab := by simp [readFailed, hended]

@[simp] theorem dirGave_tab {s : State} {k fault : Nat} {d : Option Directory} : (dirGave s k fault d).tab = s.tab := by
  unfold dirGave
  dsimp only
  split
  · rfl
  · split <;> simp

@[simp] theorem dirRead_tab {s : State} {r : Reading} {b : Bytes} : (dirRead s r b).tab = s.tab := by simp [dirRead]

/-- A read that fails for the third time ends in HOLD (R361, R374). Stated of the states, so that the kernel need not look into `loadHold` to compare their tables. -/
theorem readFailed_loadHold {s : State} {r : Reading} {reason image slot detail : Nat} :
    readFailed s r (fun s => loadHold s reason image slot detail) =
      if 2 ≤ r.fails then loadHold s reason image slot detail else { s with boot := { s.boot with read := some { r with fails := r.fails + 1 } } } := rfl

theorem readFailed_loadHold_tab {s : State} {r : Reading} {reason image slot detail : Nat} :
    (readFailed s r (fun s => loadHold s reason image slot detail)).tab = s.tab := by
  rw [readFailed_loadHold]
  split
  · exact loadHold_tab
  · rfl

@[simp] theorem imageRead_tab {s : State} {r : Reading} {b : Bytes} : (imageRead s r b).tab = s.tab := by
  unfold imageRead
  dsimp only
  split
  · split
    · exact readFailed_loadHold_tab
    · split <;> simp
  · split
    · split
      · exact readFailed_loadHold_tab
      · simp
    · exact loadNext_tab

@[simp] theorem imageBlockRead_tab {data : Bytes} {s : State} : (imageBlockRead data s).tab = s.tab := by
  unfold imageBlockRead
  split
  · rfl
  · split
    · rfl
    · simp

@[simp] theorem loadComplete_tab {s : State} : (loadComplete s).tab = s.tab := by simp [loadComplete, enterVerify]

@[simp] theorem showVersions_tab {s : State} {fw cfg : Image} : (showVersions s fw cfg).tab = s.tab := by simp [showVersions]

@[simp] theorem enterApply_tab {s : State} {fw cfg : Image} : (enterApply s fw cfg).tab = s.tab := by simp [enterApply]

@[simp] theorem verifyComplete_tab {s : State} : (verifyComplete s).tab = s.tab := by
  unfold verifyComplete
  split
  · rfl
  · split <;> simp

@[simp] theorem pushSlotProgram_tab {nvmOk : Bool} {s : State} : (pushSlotProgram nvmOk s).tab = s.tab := by
  unfold pushSlotProgram
  split
  · rfl
  · split <;> simp

@[simp] theorem slicesStart_tab {s : State} : (slicesStart s).tab = s.tab := by simp [slicesStart]

@[simp] theorem ptpStart_tab {s : State} {counted : Nat} : (ptpStart s counted).tab = s.tab := by simp [ptpStart]

@[simp] theorem sealUp_tab {s : State} {fw cfg : Image} {counted : Nat} : (sealUp s fw cfg counted).tab = s.tab := by simp [sealUp]

@[simp] theorem applyComplete_tab {counted : Nat} {s : State} : (applyComplete counted s).tab = s.tab := by
  unfold applyComplete
  split <;> simp

@[simp] theorem bringupComplete_tab {s : State} : (bringupComplete s).tab = s.tab := by simp [bringupComplete]

@[simp] theorem rootPllLockTimeout_tab {s : State} : (rootPllLockTimeout s).tab = s.tab := by simp [rootPllLockTimeout]

/-! ## The commands -/

/-- Every command outside `writesTables` answers a state with the same tables: the law of its function, one arm each. -/
theorem exec_tab {c : Instr} (h : writesTables c = false) (s : State) : ∃ t, exec c s = .next t ∧ t.tab = s.tab :=
  match c, h with
  | .vinDip, _ => ⟨_, rfl, vinDip_tab⟩
  | .vinWarn, _ => ⟨_, rfl, vinWarn_tab⟩
  | .resetExit _ ⟨_, _⟩, _ => ⟨_, rfl, resetExit_tab⟩
  | .nvmIdAttempt _ _, _ => ⟨_, rfl, nvmIdAttempt_tab⟩
  | .imageBlockRead _, _ => ⟨_, rfl, imageBlockRead_tab⟩
  | .loadComplete, _ => ⟨_, rfl, loadComplete_tab⟩
  | .verifyComplete, _ => ⟨_, rfl, verifyComplete_tab⟩
  | .applyComplete _, _ => ⟨_, rfl, applyComplete_tab⟩
  | .bringupComplete, _ => ⟨_, rfl, bringupComplete_tab⟩
  | .rootPllLockTimeout, _ => ⟨_, rfl, rootPllLockTimeout_tab⟩
  | .pushSlotProgram _, _ => ⟨_, rfl, pushSlotProgram_tab⟩
  | .pllLocked _, _ => ⟨_, rfl, pllLocked_tab⟩
  | .rampStep, _ => ⟨_, rfl, rampStep_tab⟩
  | .stairTransfer _ _ _ _, _ => ⟨_, rfl, stairTransfer_tab⟩
  | .lineLaneCalibration _ _ _, _ => ⟨_, rfl, lineLaneCalibration_tab⟩
  | .linkTrainingDone _ _, _ => ⟨_, rfl, linkTrainingDone_tab⟩
  | .linkTrainingRetry _, _ => ⟨_, rfl, linkTrainingRetry_tab⟩
  | .retrain _, _ => ⟨_, rfl, retrain_tab⟩
  | .admin _ _, _ => ⟨_, rfl, admin_tab⟩
  | .lineFrameReceive _ _ _ _ _ ⟨_, _⟩, _ => ⟨_, rfl, lineFrameReceive_tab⟩
  | .macControlFrame _ _, _ => ⟨_, rfl, macControlFrame_tab⟩
  | .pauseTimerExpire _ _, _ => ⟨_, rfl, pauseTimerExpire_tab⟩
  | .pfcRefresh _, _ => ⟨_, rfl, pfcRefresh_tab⟩
  | .pfcStormDetect _ _, _ => ⟨_, rfl, pfcStormDetect_tab⟩
  | .pfcStormRestore _ _, _ => ⟨_, rfl, pfcStormRestore_tab⟩
  | .linkFaultDetect ⟨_, _⟩, _ => ⟨_, rfl, linkFaultDetect_tab⟩
  | .remoteFaultReceived _, _ => ⟨_, rfl, remoteFaultReceived_tab⟩
  | .synceResume _, _ => ⟨_, rfl, synceResume_tab⟩
  | .fragEntryAge _ _ _, _ => ⟨_, rfl, fragEntryAge_tab⟩
  | .fragFlush _, _ => ⟨_, rfl, fragFlush_tab⟩
  | .scanWindow _ ⟨_, _⟩, _ => ⟨_, rfl, scanWindow_tab⟩
  | .sigWrite _, _ => ⟨_, rfl, sigWrite_tab⟩
  | .sigInvalidate _, _ => ⟨_, rfl, sigInvalidate_tab⟩
  | .sigProfile _, _ => ⟨_, rfl, sigProfile_tab⟩
  | .sigClear _, _ => ⟨_, rfl, sigClear_tab⟩
  | .sigCopy _, _ => ⟨_, rfl, sigCopy_tab⟩
  | .sigCopyDone, _ => ⟨_, rfl, sigCopyDone_tab⟩
  | .sigSwap _, _ => ⟨_, rfl, sigSwap_tab⟩
  | .sigSwapInstant, _ => ⟨_, rfl, sigSwapInstant_tab⟩
  | .sigRead _ _, _ => ⟨_, rfl, sigRead_tab⟩
  | .sigCancel, _ => ⟨_, rfl, sigCancel_tab⟩
  | .oldBankDrained, _ => ⟨_, rfl, oldBankDrained_tab⟩
  | .sigEntryRepair _ _ _, _ => ⟨_, rfl, sigEntryRepair_tab⟩
  | .search _, _ => ⟨_, rfl, search_tab⟩
  | .next _, _ => ⟨_, rfl, nextEntry_tab⟩
  | .readEntry _, _ => ⟨_, rfl, readEntry_tab⟩
  | .nop _, _ => ⟨_, rfl, nop_tab⟩
  | .recircSlot _, _ => ⟨_, rfl, recircSlot_tab⟩
  | .hallRelease _, _ => ⟨_, rfl, hallRelease_tab⟩
  | .bufferArrival _, _ => ⟨_, rfl, bufferArrival_tab⟩
  | .dramReadComplete _ _ _ _ _, _ => ⟨_, rfl, dramReadComplete_tab⟩
  | .dramWriteComplete _ _ _ _, _ => ⟨_, rfl, dramWriteComplete_tab⟩
  | .mergeTimeout _, _ => ⟨_, rfl, mergeTimeout_tab⟩
  | .tagWriteback ⟨_, _, _⟩, _ => ⟨_, rfl, tagWriteback_tab⟩
  | .wmCrossedClear _ _, _ => ⟨_, rfl, wmCrossedClear_tab⟩
  | .qwmConfig _ _, _ => ⟨_, rfl, qwmConfig_tab⟩
  | .requestRetry _, _ => ⟨_, rfl, requestRetry_tab⟩
  | .creditGrant _, _ => ⟨_, rfl, creditGrant_tab⟩
  | .voqTimeout _, _ => ⟨_, rfl, voqTimeout_tab⟩
  | .voqDequeue _, _ => ⟨_, rfl, voqDequeue_tab⟩
  | .egressSelect _ _, _ => ⟨_, rfl, egressSelect_tab⟩
  | .calendarSlot, _ => ⟨_, rfl, calendarSlot_tab⟩
  | .fenceLift _, _ => ⟨_, rfl, fenceLift_tab⟩
  | .fenceTimeout _, _ => ⟨_, rfl, fenceTimeout_tab⟩
  | .gateEntryChange _, _ => ⟨_, rfl, gateEntryChange_tab⟩
  | .gateEnable _ _, _ => ⟨_, rfl, gateEnable_tab⟩
  | .gateChange _, _ => ⟨_, rfl, gateChange_tab⟩
  | .gateCancel _, _ => ⟨_, rfl, gateCancel_tab⟩
  | .gateActivate _, _ => ⟨_, rfl, gateActivate_tab⟩
  | .stagedFrameStart _ _, _ => ⟨_, rfl, stagedFrameStart_tab⟩
  | .gateNofit _ _, _ => ⟨_, rfl, gateNofit_tab⟩
  | .epochWindow, _ => ⟨_, rfl, epochWindow_tab⟩
  | .fabricLaneCalibration _ _ _, _ => ⟨_, rfl, fabricLaneCalibration_tab⟩
  | .fabricTrainingRetry _ _, _ => ⟨_, rfl, fabricTrainingRetry_tab⟩
  | .caravanFrameSend _, _ => ⟨_, rfl, caravanFrameSend_tab⟩
  | .caravanFrameReceive _ _ _ _ _, _ => ⟨_, rfl, by simp⟩
  | .slipRead _ ⟨_, _⟩, _ => ⟨_, rfl, by simp⟩
  | .cellReceive _ _, _ => ⟨_, rfl, cellReceive_tab⟩
  | .holeTimeout _ _ _, _ => ⟨_, rfl, holeTimeout_tab⟩
  | .contextFree _ _ _, _ => ⟨_, rfl, contextFree_tab⟩
  | .defectDeclare _ _ _, _ => ⟨_, rfl, by simp⟩
  | .defectClear _ _ _, _ => ⟨_, rfl, by simp⟩
  | .degInterval _ _, _ => ⟨_, rfl, degInterval_tab⟩
  | .bkpWatchdog _ _, _ => ⟨_, rfl, bkpWatchdog_tab⟩
  | .protClear, _ => ⟨_, rfl, protClear_tab⟩
  | .protManualSwitch _, _ => ⟨_, rfl, protManualSwitch_tab⟩
  | .protForcedSwitch _, _ => ⟨_, rfl, protForcedSwitch_tab⟩
  | .protLockout, _ => ⟨_, rfl, protLockout_tab⟩
  | .protTest, _ => ⟨_, rfl, protTest_tab⟩
  | .wtrExpire, _ => ⟨_, rfl, wtrExpire_tab⟩
  | .srqIncDeclare, _ => ⟨_, rfl, srqIncDeclare_tab⟩
  | .pmSecond, _ => ⟨_, rfl, pmSecond_tab⟩
  | .dramTraining _ _, _ => ⟨_, rfl, dramTraining_tab⟩
  | .dramRefresh ⟨_, _⟩, _ => ⟨_, rfl, dramRefresh_tab⟩
  | .dramTempReadout _ _, _ => ⟨_, rfl, dramTempReadout_tab⟩
  | .retrainDue _, _ => ⟨_, rfl, retrainDue_tab⟩
  | .drcRetrain _, _ => ⟨_, rfl, drcRetrain_tab⟩
  | .pauseBegin _, _ => ⟨_, rfl, pauseBegin_tab⟩
  | .pauseEnd _ _, _ => ⟨_, rfl, pauseEnd_tab⟩
  | .dramTestStep _ _ _, _ => ⟨_, rfl, dramTestStep_tab⟩
  | .lease _ ⟨_, _⟩ _ _, _ => ⟨_, rfl, landing_tab⟩
  | .standby ⟨_, _⟩ _ _, _ => ⟨_, rfl, landing_tab⟩
  | .switch ⟨_, _⟩ _ _, _ => ⟨_, rfl, landing_tab⟩
  | .withdraw ⟨_, _⟩ _ _, _ => ⟨_, rfl, landing_tab⟩
  | .arbLoss, _ => ⟨_, rfl, arbLoss_tab⟩
  | .leaseExpire, _ => ⟨_, rfl, leaseExpire_tab⟩
  | .healthSend, _ => ⟨_, rfl, healthSend_tab⟩
  | .helloSend, _ => ⟨_, rfl, helloSend_tab⟩
  | .faultMsgSend, _ => ⟨_, rfl, faultMsgSend_tab⟩
  | .galleryHelloSend, _ => ⟨_, rfl, galleryHelloSend_tab⟩
  | .galleryHelloReceive _ _ _ _, _ => ⟨_, rfl, galleryHelloReceive_tab⟩
  | .galleryLoss, _ => ⟨_, rfl, galleryLoss_tab⟩
  | .nackReceive ⟨_, _⟩, _ => ⟨_, rfl, nackReceive_tab⟩
  | .ackStall, _ => ⟨_, rfl, ackStall_tab⟩
  | .baselineLatch, _ => ⟨_, rfl, baselineLatch_tab⟩
  | .baselineApply _ _ _, _ => ⟨_, rfl, baselineApply_tab⟩
  | .resync _, _ => ⟨_, rfl, resync_tab⟩
  | .resyncComplete _, _ => ⟨_, rfl, resyncComplete_tab⟩
  | .standbyProbe, _ => ⟨_, rfl, standbyProbe_tab⟩
  | .marginMeasure _, _ => ⟨_, rfl, marginMeasure_tab⟩
  | .partnerFaultRecord _, _ => ⟨_, rfl, partnerFaultRecord_tab⟩
  | .pushStart _, _ => ⟨_, rfl, pushStart_tab⟩
  | .commitFw, _ => ⟨_, rfl, arbCtl_tab⟩
  | .commitCfg, _ => ⟨_, rfl, arbCtl_tab⟩
  | .keyRevoke _, _ => ⟨_, rfl, keyRevoke_tab⟩
  | .toField _, _ => ⟨_, rfl, toField_tab⟩
  | .stageStart _, _ => ⟨_, rfl, stageStart_tab⟩
  | .stagingDone _ _ _ ⟨_, _⟩, _ => ⟨_, rfl, stagingDone_tab⟩
  | .arm _, _ => ⟨_, rfl, arm_tab⟩
  | .firmwareSwapDone, _ => ⟨_, rfl, firmwareSwapDone_tab⟩
  | .confirm _, _ => ⟨_, rfl, confirmTrial_tab⟩
  | .abandon _, _ => ⟨_, rfl, abandon_tab⟩
  | .discard _, _ => ⟨_, rfl, updDiscard_tab⟩
  | .trialExpire, _ => ⟨_, rfl, trialExpire_tab⟩
  | .refClockLoss _, _ => ⟨_, rfl, refClockLoss_tab⟩
  | .refClockReturn _, _ => ⟨_, rfl, refClockReturn_tab⟩
  | .pllLoss _, _ => ⟨_, rfl, by simp⟩
  | .clkFreqAlarm _ _, _ => ⟨_, rfl, by simp⟩
  | .ppsInLoss, _ => ⟨_, rfl, ppsInLoss_tab⟩
  | .cd38Loss, _ => ⟨_, rfl, cd38Loss_tab⟩
  | .relockFd, _ => ⟨_, rfl, clkCtl_tab⟩
  | .relockQd, _ => ⟨_, rfl, clkCtl_tab⟩
  | .rootRelockDone _ _, _ => ⟨_, rfl, rootRelockDone_tab⟩
  | .timIncrCommit _, _ => ⟨_, rfl, timIncrCommit_tab⟩
  | .ppsOutEdge _, _ => ⟨_, rfl, ppsOutEdge_tab⟩
  | .ppsInEdge _, _ => ⟨_, rfl, ppsInEdge_tab⟩
  | .clkoutConfig _, _ => ⟨_, rfl, clkoutConfig_tab⟩
  | .railOut _ _ _, _ => ⟨_, rfl, railOut_tab⟩
  | .railRecover, _ => ⟨_, rfl, railRecover_tab⟩
  | .tripRecover, _ => ⟨_, rfl, tripRecover_tab⟩
  | .vbatCollapse, _ => ⟨_, rfl, vbatCollapse_tab⟩
  | .holdoverWrite, _ => ⟨_, rfl, holdoverWrite_tab⟩
  | .clrRec, _ => ⟨_, rfl, clrRec_tab⟩
  | .vio18Overload, _ => ⟨_, rfl, vio18Overload_tab⟩
  | .telemetryUpdate _ _ _ _ _ _ _, _ => ⟨_, rfl, telemetryUpdate_tab⟩
  | .sliceAdd, _ => ⟨_, rfl, sliceAdd_tab⟩
  | .sliceRemove, _ => ⟨_, rfl, sliceRemove_tab⟩
  | .sliceSleep, _ => ⟨_, rfl, sliceSleep_tab⟩
  | .drainEnd _ _, _ => ⟨_, rfl, drainEnd_tab⟩
  | .enteringDone _, _ => ⟨_, rfl, enteringDone_tab⟩
  | .wakeDone _, _ => ⟨_, rfl, wakeDone_tab⟩
  | .maintGrant _ _, _ => ⟨_, rfl, maintGrant_tab⟩
  | .maintDeadline _ _, _ => ⟨_, rfl, maintDeadline_tab⟩
  | .prodDoorbell _ _ _, _ => ⟨_, rfl, prodDoorbell_tab⟩
  | .consDoorbell _ _ _, _ => ⟨_, rfl, consDoorbell_tab⟩
  | .ringEnable _ _ _, _ => ⟨_, rfl, ringEnable_tab⟩
  | .ringDisable _ _ _ _, _ => ⟨_, rfl, ringDisable_tab⟩
  | .flush _ _ _ _, _ => ⟨_, rfl, ringFlushCmd_tab⟩
  | .commandFetch _ _ _, _ => ⟨_, rfl, commandFetch_tab⟩
  | .msixHoldoffEnd _ _, _ => ⟨_, rfl, msixHoldoffEnd_tab⟩
  | .txDescriptor _ _ _ _, _ => ⟨_, rfl, txDescriptor_tab⟩
  | .hostFrameDeliver, _ => ⟨_, rfl, hostFrameDeliver_tab⟩
  | .pwfClear, _ => ⟨_, rfl, pwfClear_tab⟩
  | .grant _ _ _, _ => ⟨_, rfl, grant_tab⟩
  | .msixSizeWrite _ _, _ => ⟨_, rfl, msixSizeWrite_tab⟩
  | .sharedScratchOp _, _ => ⟨_, rfl, sharedScratchOp_tab⟩
  | .scrWindowWrite _ _, _ => ⟨_, rfl, scrWindowWrite_tab⟩
  | .scrAliasSet _ _, _ => ⟨_, rfl, scrAliasSet_tab⟩
  | .scrAliasClear _ _, _ => ⟨_, rfl, scrAliasClear_tab⟩
  | .scrAtomicAdd, _ => ⟨_, rfl, scrAtomGo_tab⟩
  | .scrAtomicSwap, _ => ⟨_, rfl, scrAtomGo_tab⟩
  | .scrTestStep _ _, _ => ⟨_, rfl, scrTestStep_tab⟩
  | .faultCollect, _ => ⟨_, rfl, by simp⟩
  | .fltStatusClear _, _ => ⟨_, rfl, by simp⟩
  | .firstFaultClear, _ => ⟨_, rfl, firstFaultClear_tab⟩
  | .ringRdWrite _, _ => ⟨_, rfl, ringRdWrite_tab⟩
  | .nvlogAppend, _ => ⟨_, rfl, nvlogAppend_tab⟩
  | .nvlogRead _, _ => ⟨_, rfl, nvlogRead_tab⟩
  | .pairRead _, _ => ⟨_, rfl, pairRead_tab⟩
  | .dumpEpoch _, _ => ⟨_, rfl, dumpEpoch_tab⟩
  | .dumpWrite _, _ => ⟨_, rfl, dumpWrite_tab⟩
  | .perfTenantWrite _ _, _ => ⟨_, rfl, perfTenantWrite_tab⟩
  | .laneTestConfig _ _, _ => ⟨_, rfl, laneTestConfig_tab⟩
  | .checkerLockChange _ _, _ => ⟨_, rfl, checkerLockChange_tab⟩
  | .probeGo _, _ => ⟨_, rfl, probeGo_tab⟩
  | .probeCapture _ _, _ => ⟨_, rfl, probeCapture_tab⟩
  | .probeTimeout _, _ => ⟨_, rfl, probeTimeout_tab⟩
  | .faultInject _, _ => ⟨_, rfl, faultInject_tab⟩
  | .memoryInjectArm _, _ => ⟨_, rfl, memoryInjectArm_tab⟩
  | .readClear _ _ ⟨_, _⟩, _ => ⟨_, rfl, busRead_tab⟩
  | .loReadLatch _ _, _ => ⟨_, rfl, busRead_tab⟩
  | .fabricLinkTrainingDone _ _ _, _ => ⟨_, rfl, fabricLinkTrainingDone_tab⟩
  | .galleryLaneCalibration _ _, _ => ⟨_, rfl, galleryLaneCalibration_tab⟩
  | .linkFaultClear _, _ => ⟨_, rfl, linkFaultClear_tab⟩
  | .remoteFaultClear _, _ => ⟨_, rfl, remoteFaultClear_tab⟩
  | .vbatLow _, _ => ⟨_, rfl, vbatLow_tab⟩
  | .vio18Recover, _ => ⟨_, rfl, vio18Recover_tab⟩
  | .pciePerstRelease, _ => ⟨_, rfl, pciePerstRelease_tab⟩
  | .pllLockFail _, _ => ⟨_, rfl, pllLockFail_tab⟩
  | .accessExpired _ _ _ _, _ => ⟨_, rfl, accessExpired_tab⟩
  | .checkerBitError _ _, _ => ⟨_, rfl, checkerBitError_tab⟩
  | .vinGood _, h | .vinFail, h | .vinWarnClear, h | .resetLLow, h | .configRecord, h | .ingressPass _ _ _ _, h | .insert _, h | .delete _, h
  | .modify _, h | .move _, h | .flushByPort _, h | .flushByPortDone, h | .learnBusMsg, h | .learnRefreshMsg, h | .ageSweep _ _, h
  | .trieNodeRebuild, h | .policerSweep, h | .egressPass _, h | .cmdItemApply _, h | .stateSnapshot, h | .stateRecordApply _, h
  | .replayRegion _, h | .reread _, h | .pushComplete _ _, h | .prepareDone, h | .disarm _, h | .activation, h | .restartAct _, h
  | .fallbackStart, h | .fallbackDone, h | .timSet _, h | .timAdd _, h | .tempSensorRead _, h | .join _, h | .flr _, h | .pciePerst, h
  | .bar2Write _ _, h | .tapReset, h | .extest, h | .idcode, h | .samplePreload, h | .extestPulse, h | .extestTrain, h | .clamp, h | .highz, h
  | .serial, h | .mbist, h | .otpRead, h | .scan, h | .bypass, h | .devReset _, h | .registerWrite _ _ _ _, h | .hiWriteCommit _ _ _, h
  | .pcieLinkChange _ _ _ _ _ _, h => nomatch h

/-- Settles O12: what every function but those of the listed commands leaves alone. -/
theorem tableStoreFrame : Obligations.TableStoreFrame := by
  unfold Obligations.TableStoreFrame
  intro c s t hc ht
  obtain ⟨u, hu, htab⟩ := exec_tab hc s
  cases ht.symm.trans hu
  exact htab

end Sys2Proof.Machine

/-! DRAM lines: reads at dequeue, writes and their retries, merges and tags (O48). -/

namespace Sys2Proof.Machine

/-! ## Reads at dequeue (R194, R316, R318) -/

/-- The state in which the read of a buffer's lines has ended and been counted: `lost` of them failed, `read` came back, and each has used its tag line. -/
def linesCounted (s : State) (h : Nat) (b : Buf) (retries lost read : Nat) : State :=
  (linesToRead s h b).foldl (fun a j => tagUse a b.di h j)
    (diPerf (bumpN (bumpN s (Reg.DRC_DI_CNT b.di 3)
      (readRetries s b.di retries ((linesToRead s h b).length + countIf (fun j => !tagCached s b.di h j) (linesToRead s h b)) lost)) (Reg.DRC_DI_CNT b.di 0) read) b.di 0 read)

/-- The frame at place k among those leaving queue q is readable, and the frames ready before the first unreadable one leave. -/
def frameLeaves (s : State) (q k : Nat) : State :=
  leaveReady ((queueOf (leavingSet s q k true) q).leaving.length + 1) (leavingSet s q k true) q

section
variable {s : State} {q k retries : Nat} {d : Desc} {b : Buf}

/-- A read in which no line fails and each verifies as it was written. -/
theorem readFrame_verified (hok : ∀ j ∈ linesToRead s d.buf b, (lineRead s d.buf j 0).ok = true) :
    readFrame s q k d b retries [] [] = frameLeaves (linesCounted s d.buf b retries 0 (linesToRead s d.buf b).length) q k := by
  have hlost : (linesToRead s d.buf b).filter ([] : List Nat).contains = [] := List.filter_eq_nil_iff.mpr fun _ _ => by simp
  have hread : (linesToRead s d.buf b).filter (fun j => !([] : List Nat).contains j) = linesToRead s d.buf b := List.filter_eq_self.mpr fun _ _ => by simp
  have hbad : ((linesToRead s d.buf b).map fun j => (j, lineRead s d.buf j (mget 0 [] j))).filter (fun e => !e.2.ok) = [] := by
    rw [List.filter_eq_nil_iff, List.forall_mem_map]
    intro j hj
    show ¬ (!(lineRead s d.buf j 0).ok) = true
    simp [hok j hj]
  unfold readFrame
  dsimp only
  rw [hlost, hread, hbad, if_pos ⟨rfl, rfl⟩, if_pos rfl, List.length_map]
  rfl

theorem bumpN_zero (s : State) (a : Nat) : bumpN s a 0 = s := if_pos rfl

/-- A read in which no line comes back counts its retries alone. -/
theorem linesCounted_unread (s : State) (h : Nat) (b : Buf) (retries lost : Nat) :
    linesCounted s h b retries lost 0 =
      (linesToRead s h b).foldl (fun a j => tagUse a b.di h j)
        (diPerf (bumpN s (Reg.DRC_DI_CNT b.di 3)
          (readRetries s b.di retries ((linesToRead s h b).length + countIf (fun j => !tagCached s b.di h j) (linesToRead s h b)) lost)) b.di 0 0) := by
  rw [linesCounted, bumpN_zero]

/-- A read in which every line fails: there are lines, and none of them comes back. -/
theorem readFrame_lost {l : List Nat} (fl : NMap Nat) (hne : linesToRead s d.buf b ≠ []) (hl : ∀ j ∈ linesToRead s d.buf b, j ∈ l) :
    readFrame s q k d b retries l fl =
      readDrop ((linesToRead s d.buf b).foldl (lineLost b.di d.buf) (linesCounted s d.buf b retries (linesToRead s d.buf b).length 0)) q k 13 d.buf := by
  have hlost : (linesToRead s d.buf b).filter l.contains = linesToRead s d.buf b := List.filter_eq_self.mpr fun j hj => List.contains_iff_mem.mpr (hl j hj)
  have hread : (linesToRead s d.buf b).filter (fun j => !l.contains j) = [] := List.filter_eq_nil_iff.mpr fun j hj => by simp [hl j hj]
  unfold readFrame
  dsimp only
  rw [hlost, hread, if_neg fun h => hne h.1]
  rfl

end

section
variable {s : State} {q : Fin 1048576} {k : Nat} {d : Desc} {b : Buf}

/-- What the read of a frame that is leaving unread comes to, by the state of its buffer and of its interface. -/
theorem dramReadComplete_leaving (hd : (queueOf s q).leaving[k]? = some (d, false)) (hb : mfind s.qd.bufs d.buf = some b) (retries : Nat) (l : List Nat) (fl : NMap Nat) :
    dramReadComplete q k retries l fl s =
      if b.lost || diDead s b.di then readDrop s q k 10 d.buf else if b.bad then readDrop s q k 13 d.buf
      else if !readMay s d.buf b then s else readFrame s q k d b retries l fl := by
  simp only [dramReadComplete, hd, hb]

theorem dramReadComplete_gone (hd : (queueOf s q).leaving[k]? = some (d, false)) (hb : mfind s.qd.bufs d.buf = some b) (h : b.lost = true ∨ diDead s b.di = true)
    (retries : Nat) (l : List Nat) (fl : NMap Nat) : dramReadComplete q k retries l fl s = readDrop s q k 10 d.buf := by
  rw [dramReadComplete_leaving hd hb, if_pos (Bool.or_eq_true_iff.mpr h)]

theorem dramReadComplete_bad (hd : (queueOf s q).leaving[k]? = some (d, false)) (hb : mfind s.qd.bufs d.buf = some b) (hlost : b.lost = false)
    (hdead : diDead s b.di = false) (hbad : b.bad = true) (retries : Nat) (l : List Nat) (fl : NMap Nat) :
    dramReadComplete q k retries l fl s = readDrop s q k 13 d.buf := by
  simp [dramReadComplete_leaving hd hb, hlost, hdead, hbad]

theorem dramReadComplete_reads (hd : (queueOf s q).leaving[k]? = some (d, false)) (hb : mfind s.qd.bufs d.buf = some b) (hlost : b.lost = false)
    (hdead : diDead s b.di = false) (hbad : b.bad = false) (hmay : readMay s d.buf b = true) (retries : Nat) (l : List Nat) (fl : NMap Nat) :
    dramReadComplete q k retries l fl s = readFrame s q k d b retries l fl := by
  simp [dramReadComplete_leaving hd hb, hlost, hdead, hbad, hmay]

end

/-! ## The write queue (R305, R306) -/

/-- The counter and the status of an interface are registers of their own. -/
theorem diCnt_ne_diStat {i k : Nat} : Reg.DRC_DI_CNT i k ≠ Reg.DRC_DI_STAT i := by
  unfold Reg.DRC_DI_CNT Reg.DRC_DI_STAT
  omega

section
variable {s : State} (i : Nat) (l : List WLine)

theorem wq_wqPut : mget [] (wqPut s i l).drm.wq i = l := mget_mput_self ..

theorem rd_wqPut_ne {a : Nat} (h : a ≠ Reg.DRC_DI_STAT i) : rd (wqPut s i l) a = rd s a := rd_setF_ne _ _ _ _ h

theorem store_wqPut : (wqPut s i l).drm.store = s.drm.store := rfl

end

/-! ## Writes (R315, R316, R319) -/

theorem writeRetries_written {s : State} {n : Nat} (h : n ≤ getF s Reg.DRC_RETRY_CFG_WR_RETRY) : writeRetries s n true = n := Nat.min_eq_left h

theorem writeRetries_failed (s : State) (n : Nat) : writeRetries s n false = getF s Reg.DRC_RETRY_CFG_WR_RETRY := rfl

/-- What a line reads back as follows from the store alone. -/
theorem lineRead_congr {s u : State} (h : u.drm.store = s.drm.store) (n j flip : Nat) : lineRead u n j flip = lineRead s n j flip := by
  simp only [lineRead, h]

section
variable {s : State} {i : Nat} {x : WLine} {b : Buf}

theorem writeLine_whole (hx : x.rmw = false) (flip : Nat) : writeLine s i x b true flip = lineWritten s i x (lineBytes b x.line x.have_) false := by
  simp [writeLine, hx]

theorem writeLine_fails (hx : x.rmw = false) (flip : Nat) :
    writeLine s i x b false flip =
      diLinkFail (bufFail (bump s (Reg.DRC_DI_CNT i 6)) x.buf) i (dramLoc s i (lineNo x.buf x.line)) (lineDetail false x.buf x.line) := by
  simp [writeLine, hx]

/-- A merged line is poisoned exactly when what was read back fails its tag (R319). -/
theorem lineMerge_poisons (new : Bytes) (flip : Nat) : (lineMerge s i x new flip).2.1 = !(lineRead s x.buf x.line flip).ok := rfl

theorem writeLine_merged (hx : x.rmw = true) (flip : Nat) :
    ∃ l u, lineMerge s i x (lineBytes b x.line x.have_) flip = (l, !(lineRead s x.buf x.line flip).ok, u) ∧
      writeLine s i x b true flip = lineWritten u i x l (!(lineRead s x.buf x.line flip).ok) := by
  obtain ⟨l, bad, u, hm⟩ : ∃ l bad u, lineMerge s i x (lineBytes b x.line x.have_) flip = (l, bad, u) := ⟨_, _, _, rfl⟩
  have hbad : bad = !(lineRead s x.buf x.line flip).ok := by rw [← lineMerge_poisons, hm]
  refine ⟨l, u, hm.trans (by rw [hbad]), ?_⟩
  simp [writeLine, hx, hm, hbad]

end

section
variable {s : State} {i : Fin 24} {x : WLine} {b : Buf} {retries : Nat} {ok : Bool} {flip : Nat}

/-- The oldest line that is not held open leaves the queue and is written, when the interface writes and no refresh holds the line's bank. -/
theorem dramWriteComplete_writes (hx : (mget [] s.drm.wq i).find? (fun x => !x.opened) = some x) (hb : mfind s.qd.bufs x.buf = some b) (hw : diWrites s i = true)
    (hbank : bankHeld s i (dramBank s (lineNo x.buf x.line)) = false) :
    dramWriteComplete i retries ok flip s =
      writeLine (bumpN (wqPut s i ((mget [] s.drm.wq i).erase x)) (Reg.DRC_DI_CNT i 4) (writeRetries s retries ok)) i x b ok flip := by
  simp [dramWriteComplete, hx, hb, hw, hbank]

/-- No line of a known buffer is written while the interface does not write (R313). -/
theorem dramWriteComplete_waits (hw : diWrites s i = false) (hbufs : ∀ x ∈ mget [] s.drm.wq i, (mfind s.qd.bufs x.buf).isSome = true) :
    dramWriteComplete i retries ok flip s = s := by
  cases hx : (mget [] s.drm.wq i).find? (fun x => !x.opened) with
  | none => simp [dramWriteComplete, hx]
  | some x =>
    obtain ⟨b, hb⟩ := Option.isSome_iff_exists.mp (hbufs x (List.mem_of_find?_eq_some hx))
    simp [dramWriteComplete, hx, hb, hw]

theorem mergeTimeout_closes (hx : (mget [] s.drm.wq i).find? (fun x => x.opened) = some x) :
    mergeTimeout i s = bump (wqPut s i ((mget [] s.drm.wq i).map (fun y => if y = x then { y with opened := false } else y))) (Reg.DRC_DI_CNT i 14) := by
  simp [mergeTimeout, hx]

end

/-! ## Tag lines (R317) -/

section
variable {s : State} {i : Fin 24} {n : Nat}

theorem tagWriteback_writes {tl : Nat} {r : List Nat} (hd : mget [] s.drm.dirty i = tl :: r) (hw : diWrites s i = true) (hn : n ≤ getF s Reg.DRC_RETRY_CFG_WR_RETRY) :
    tagWriteback i n true s = bumpN { s with drm := { s.drm with dirty := mput [] s.drm.dirty i r } } (Reg.DRC_DI_CNT i 4) n := by
  simp [tagWriteback, hd, hw, writeRetries_written hn]

theorem tagWriteback_idle (h : mget [] s.drm.dirty i = [] ∨ diWrites s i = false) (ok : Bool) : tagWriteback i n ok s = s := by
  unfold tagWriteback
  split
  · rfl
  next tl r hd =>
    obtain hnil | hw := h
    · rw [hd] at hnil
      cases hnil
    · rw [hw]
      rfl

end

/-! ## The statement -/

/-- Settles O48: each command by the branch that its hypotheses choose. -/
theorem dramLinesRetriesAndTags : Obligations.DramLinesRetriesAndTags := by
  unfold Obligations.DramLinesRetriesAndTags
  refine ⟨?gone, ?bad, ?verified, ?linesLost, ?whole, ?merged, ?fails, ?waits, ?closes, ?writesTag, ?idle⟩
  case gone => exact fun s q k retries l fl d b hd hb h => ⟨_, rfl, dramReadComplete_gone hd hb h retries l fl⟩
  case bad => exact fun s q k retries l fl d b hd hb hlost hdead hbad => ⟨_, rfl, dramReadComplete_bad hd hb hlost hdead hbad retries l fl⟩
  case verified =>
    intro s q k retries d b hd hb hlost hdead hbad hmay hok
    refine ⟨_, rfl, _, _, rfl, rfl, ?_⟩
    rw [dramReadComplete_reads hd hb hlost hdead hbad hmay, readFrame_verified hok]
    rfl
  case linesLost =>
    intro s q k retries l fl d b hd hb hlost hdead hbad hmay hne hl
    refine ⟨_, rfl, _, _, rfl, rfl, ?_⟩
    rw [dramReadComplete_reads hd hb hlost hdead hbad hmay, readFrame_lost fl hne hl, linesCounted_unread]
  case whole =>
    intro s i retries fl x b hx hb hw hbank hrmw hn
    refine ⟨_, rfl, ?_⟩
    rw [dramWriteComplete_writes hx hb hw hbank, writeRetries_written hn, writeLine_whole hrmw]
  case merged =>
    intro s i retries fl x b hx hb hw hbank hrmw hn
    have hread : lineRead (bumpN (wqPut s i ((mget [] s.drm.wq i).erase x)) (Reg.DRC_DI_CNT i 4) retries) x.buf x.line fl = lineRead s x.buf x.line fl :=
      lineRead_congr (by rw [bumpN_drm, store_wqPut]) ..
    refine ⟨_, rfl, ?_⟩
    rw [dramWriteComplete_writes hx hb hw hbank, writeRetries_written hn, ← hread]
    exact writeLine_merged hrmw fl
  case fails =>
    intro s i retries fl x b hx hb hw hbank hrmw
    refine ⟨_, rfl, ?_⟩
    rw [dramWriteComplete_writes hx hb hw hbank, writeRetries_failed, writeLine_fails hrmw]
  case waits => exact fun s i retries ok fl hw hbufs => ⟨_, rfl, dramWriteComplete_waits hw hbufs⟩
  case closes =>
    intro s i x hx
    refine ⟨_, rfl, ?_⟩
    rw [mergeTimeout_closes hx]
    refine ⟨?_, ?_, fun a ha => ?_⟩
    · rw [bump_drm, wq_wqPut]
    · rw [rd_bump_self, rd_wqPut_ne _ _ diCnt_ne_diStat]
    · obtain ⟨hcnt, hstat⟩ := not_or.mp (mt List.mem_cons.mpr ha)
      rw [rd_bump_ne _ _ _ hcnt, rd_wqPut_ne _ _ (List.ne_of_not_mem_cons hstat)]
  case writesTag =>
    intro s i n tl r hd hw hn
    refine ⟨_, rfl, ?_⟩
    rw [tagWriteback_writes hd hw hn]
    refine ⟨?_, fun j hj => ?_, rd_bumpN .., regsBut_bumpN _ _ _⟩
    · rw [bumpN_drm]
      exact mget_mput_self ..
    · rw [bumpN_drm]
      exact mget_mput_ne _ _ _ _ hj
  case idle => exact fun s i n ok h => ⟨_, rfl, tagWriteback_idle h ok⟩

end Sys2Proof.Machine

/-! The time gates of the line ports (O46). -/

namespace Sys2Proof.Machine

/-! ## Commands that the host writes (R343, R344) -/

section
variable {s : State}

theorem operMirrored_taken (hopen : operOpen s = true) (hstandby : standby s = false) (a v : Nat) (act : State → State) :
    operMirrored s a v true act = mirrorItem (act s) (.reg 0 a v) := by
  simp [operMirrored, operWrite_open hopen, hstandby]

theorem operMirrored_standby (hopen : operOpen s = true) (hstandby : standby s = true) (a v : Nat) (ok : Bool) (act : State → State) :
    operMirrored s a v ok act = pwfTarget s a v := by
  simp [operMirrored, operWrite_open hopen, hstandby]

theorem mirrorItem_qd (x : CmdItem) : (mirrorItem s x).qd = s.qd := by unfold mirrorItem; split <;> rfl

/-- A place in CMD shows in PAIR_SEQ_TX alone. -/
theorem getF_mirrorItem (x : CmdItem) {f : Fld} (h : f.reg ≠ Reg.PAIR_SEQ_TX) : getF (mirrorItem s x) f = getF s f := by
  unfold mirrorItem
  split
  · exact getF_setF_reg _ _ _ _ h
  · rfl

end

/-! ## The gates that SCH_GATE_STAT shows (R251) -/

section
variable (s : State) (p : Nat)

theorem gateChgLo_ne_stat : Reg.SCH_GATE_CHG_LO p ≠ Reg.SCH_GATE_STAT p := by unfold Reg.SCH_GATE_CHG_LO Reg.SCH_GATE_STAT; omega

theorem gateChgHi_ne_stat : Reg.SCH_GATE_CHG_HI p ≠ Reg.SCH_GATE_STAT p := by unfold Reg.SCH_GATE_CHG_HI Reg.SCH_GATE_STAT; omega

theorem gateChgLo_ne_chgHi : Reg.SCH_GATE_CHG_LO p ≠ Reg.SCH_GATE_CHG_HI p := by unfold Reg.SCH_GATE_CHG_LO Reg.SCH_GATE_CHG_HI; omega

/-- No register of a port's gates is that of the CMD stream. -/
theorem gateReg_ne_seqTx (p : Fin 160) {k : Nat} (hk : k < 0x40) : 0x1210000 + k + 0x40 * p.val ≠ Reg.PAIR_SEQ_TX := by
  have hp := p.isLt
  unfold Reg.PAIR_SEQ_TX
  omega

theorem gateShow_eq : gateShow s p =
    setF (setF s (Reg.SCH_GATE_STAT_OPEN p) (gateAt s p s.ptp.total).2) (Reg.SCH_GATE_STAT_ENTRY p) (gateAt s p s.ptp.total).1 := by
  unfold gateShow
  generalize gateAt s p s.ptp.total = x
  rfl

theorem gateShow_qd : (gateShow s p).qd = s.qd := by rw [gateShow_eq, setF_qd, setF_qd]

theorem getF_gateShow_entry : getF (gateShow s p) (Reg.SCH_GATE_STAT_ENTRY p) = (gateAt s p s.ptp.total).1 % 1024 :=
  getF_setF_self _ _ _ (show 16 + 10 ≤ 32 by decide)

theorem getF_gateShow_open : getF (gateShow s p) (Reg.SCH_GATE_STAT_OPEN p) = (gateAt s p s.ptp.total).2 % 256 := by
  rw [gateShow_eq, getF_setF_beside _ _ _ _ (show 8 + 8 ≤ 32 by decide) (.inl (show 8 + 8 ≤ 16 by decide))]
  exact getF_setF_self _ _ _ (show 8 + 8 ≤ 32 by decide)

/-- The fields below OPEN stay. -/
theorem getF_gateShow_beside {f : Fld} (h : f.lo + f.len ≤ 8) : getF (gateShow s p) f = getF s f := by
  rw [gateShow_eq, getF_setF_beside _ _ _ _ (by omega) (.inl (h.trans (show 8 ≤ 16 by decide))), getF_setF_beside _ _ _ _ (by omega) (.inl h)]

theorem regsBut_gateShow : RegsBut [Reg.SCH_GATE_STAT p] s (gateShow s p) := by
  intro a ha
  have hne : a ≠ Reg.SCH_GATE_STAT p := List.ne_of_not_mem_cons ha
  rw [gateShow_eq, rd_setF_ne _ _ _ _ hne, rd_setF_ne _ _ _ _ hne]

theorem getF_gateShow_reg {f : Fld} (h : f.reg ≠ Reg.SCH_GATE_STAT p) : getF (gateShow s p) f = getF s f := by
  rw [getF, getF, regsBut_gateShow s p f.reg (by simpa using h)]

theorem gateOf_putGate (g : GateSt) : gateOf (putGate s p g) p = g := mget_mput_self ..

/-- The gates of a port are part of the schedulers. -/
theorem gateOf_congr {t : State} (h : t.qd = s.qd) : gateOf t p = gateOf s p := by rw [gateOf, gateOf, h]

end

/-! ## Activation (R252) -/

/-- What the list in force becomes as the pending one takes its place: the other bank, nothing pending, a list running. -/
def gateSwitched (s : State) (p len cycle base : Nat) : State :=
  setB (setB (setF (putGate s p { oper := some (len, cycle, base), pend := none }) (Reg.SCH_GATE_STAT_OPER_BANK p) (1 - getF s (Reg.SCH_GATE_STAT_OPER_BANK p)))
    (Reg.SCH_GATE_STAT_PENDING p) false) (Reg.SCH_GATE_STAT_LIST_RUN p) true

theorem gateActivate_due {s : State} {p : Fin 160} {len cycle base at_ : Nat} (h : (gateOf s p).pend = some (len, cycle, base, at_)) (hdue : at_ ≤ s.ptp.total) :
    gateActivate p s = gateShow (gateSwitched s p len cycle base) p := by
  simp [gateActivate, h, Nat.not_lt.mpr hdue, gateSwitched]

section
variable (s : State) (p len cycle base : Nat)

theorem gateOf_gateSwitched : gateOf (gateSwitched s p len cycle base) p = { oper := some (len, cycle, base), pend := none } := gateOf_putGate ..

theorem getF_gateSwitched_bank :
    getF (gateSwitched s p len cycle base) (Reg.SCH_GATE_STAT_OPER_BANK p) = (1 - getF s (Reg.SCH_GATE_STAT_OPER_BANK p)) % 2 := by
  rw [gateSwitched, setB, getF_setF_beside _ _ _ _ (show 0 + 1 ≤ 32 by decide) (.inl (show 0 + 1 ≤ 3 by decide)), setB,
    getF_setF_beside _ _ _ _ (show 0 + 1 ≤ 32 by decide) (.inl (show 0 + 1 ≤ 1 by decide))]
  exact getF_setF_self _ _ _ (show 0 + 1 ≤ 32 by decide)

theorem getF_gateSwitched_pending : getF (gateSwitched s p len cycle base) (Reg.SCH_GATE_STAT_PENDING p) = 0 := by
  rw [gateSwitched, setB, getF_setF_beside _ _ _ _ (show 1 + 1 ≤ 32 by decide) (.inl (show 1 + 1 ≤ 3 by decide))]
  exact getF_setB_false _ (show 1 + 1 ≤ 32 by decide)

theorem getF_gateSwitched_run : getF (gateSwitched s p len cycle base) (Reg.SCH_GATE_STAT_LIST_RUN p) = 1 :=
  getF_setF_self _ _ _ (show 3 + 1 ≤ 32 by decide)

theorem regsBut_gateSwitched : RegsBut [Reg.SCH_GATE_STAT p] s (gateSwitched s p len cycle base) := by
  intro a ha
  have hne : a ≠ Reg.SCH_GATE_STAT p := List.ne_of_not_mem_cons ha
  rw [gateSwitched, rd_setB_ne _ _ _ _ hne, rd_setB_ne _ _ _ _ hne, rd_setF_ne _ _ _ _ hne]
  rfl

end

/-! ## What a write of SCH_GATE_CTL carries (Table 9-12) -/

section
variable (s : State) (p : Nat)

theorem gateCtl_enable (en : Bool) : gateCtl s p (b2n en) = gateShow (setB s (Reg.SCH_GATE_CTL_EN p) en) p := by
  cases en <;> rfl

theorem gateCtl_change : gateCtl s p (gateWord s p 2) = gateShow (gateChange_ (setB s (Reg.SCH_GATE_CTL_EN p) (bit (gateWord s p 2) 0)) p) p := by
  have hen : getF s (Reg.SCH_GATE_CTL_EN p) < 2 ^ 1 := getF_lt s _
  have hchange : bit (gateWord s p 2) 1 = true := by simp only [bit, gateWord, beq_iff_eq]; omega
  have hcancel : bit (gateWord s p 2) 2 = false := by simp only [bit, gateWord, beq_eq_false_iff_ne]; omega
  simp only [gateCtl, hchange, hcancel, if_true, if_neg Bool.false_ne_true]

theorem gateCtl_cancel : gateCtl s p (gateWord s p 4) = gateShow (gateCancel_ (setB s (Reg.SCH_GATE_CTL_EN p) (bit (gateWord s p 4) 0)) p) p := by
  have hen : getF s (Reg.SCH_GATE_CTL_EN p) < 2 ^ 1 := getF_lt s _
  have hchange : bit (gateWord s p 4) 1 = false := by simp only [bit, gateWord, beq_eq_false_iff_ne]; omega
  have hcancel : bit (gateWord s p 4) 2 = true := by simp only [bit, gateWord, beq_iff_eq]; omega
  simp only [gateCtl, hchange, hcancel, if_true, if_neg Bool.false_ne_true]

end

/-! ## Changes (R252) -/

/-- The earliest time BASE + n × CYCLE that lies in the future, or BASE where that does. -/
def gateChangeTime (now base cycle : Nat) : Nat := if now < base then base else base + ((now - base) / cycle + 1) * cycle

section
variable (now base : Nat) {cycle : Nat}

theorem lt_gateChangeTime (h : 0 < cycle) : now < gateChangeTime now base cycle := by
  unfold gateChangeTime
  split
  · assumption
  · have hover : now - base < ((now - base) / cycle + 1) * cycle := by
      rw [Nat.mul_comm]
      exact Nat.lt_mul_div_succ _ h
    omega

theorem base_le_gateChangeTime (cycle : Nat) : base ≤ gateChangeTime now base cycle := by
  unfold gateChangeTime
  split
  · exact Nat.le_refl _
  · exact Nat.le_add_right ..

theorem gateChangeTime_sub_base_mod (cycle : Nat) : (gateChangeTime now base cycle - base) % cycle = 0 := by
  unfold gateChangeTime
  split
  · rw [Nat.sub_self, Nat.zero_mod]
  · rw [Nat.add_sub_cancel_left, Nat.mul_mod_left]

/-- No time of the grid lies between now and the change time. -/
theorem gateChangeTime_le (cycle : Nat) : gateChangeTime now base cycle = base ∨ gateChangeTime now base cycle ≤ now + cycle := by
  unfold gateChangeTime
  split
  · exact .inl rfl
  · have hpast : (now - base) / cycle * cycle ≤ now - base := Nat.div_mul_le_self ..
    have hnext : ((now - base) / cycle + 1) * cycle = (now - base) / cycle * cycle + cycle := Nat.succ_mul ..
    exact .inr (by omega)

end

/-- The list of the other bank as a CHANGE finds it. -/
def gateNext (s : State) (p : Nat) : GList :=
  { bank := 1 - getF s (Reg.SCH_GATE_STAT_OPER_BANK p), len := getF s (Reg.SCH_GATE_CFG_LEN p), cycle := gateCycle s p, base := gateBase s p }

/-- The checks of a CHANGE. -/
structure GateChangeOk (s : State) (p : Nat) : Prop where
  lenLow : 1 ≤ getF s (Reg.SCH_GATE_CFG_LEN p)
  lenHigh : getF s (Reg.SCH_GATE_CFG_LEN p) ≤ 1024
  cycleLow : 1000 ≤ gateCycle s p
  cycleHigh : gateCycle s p ≤ 10000000000
  entries : ∀ e ∈ gateEntries s p (gateNext s p), e.1 ≠ 0

/-- A CHANGE of the list in the other bank is pending for a time. -/
def gateScheduled (s : State) (p at_ : Nat) : State :=
  setB (setF (setF (putGate s p { gateOf s p with pend := some (getF s (Reg.SCH_GATE_CFG_LEN p), gateCycle s p, gateBase s p, at_) })
    (Reg.SCH_GATE_CHG_LO_NS p) (at_ % 1000000000)) (Reg.SCH_GATE_CHG_HI_SEC p) (at_ / 1000000000)) (Reg.SCH_GATE_STAT_PENDING p) true

theorem gateChange_schedules {s : State} {p : Nat} (h : GateChangeOk s p) :
    gateChange_ s p = gateScheduled s p (gateChangeTime s.ptp.total (gateBase s p) (gateCycle s p)) := by
  obtain ⟨hlenLow, hlenHigh, hcycleLow, hcycleHigh, hentries⟩ := h
  have hany : (gateEntries s p (gateNext s p)).any (fun e => e.1 == 0) = false := by simpa using hentries
  have hpass : ¬(getF s (Reg.SCH_GATE_CFG_LEN p) = 0 ∨ 1024 < getF s (Reg.SCH_GATE_CFG_LEN p) ∨ gateCycle s p < 1000 ∨ 10000000000 < gateCycle s p ∨
      (gateEntries s p (gateNext s p)).any (fun e => e.1 == 0) = true) := by
    simp only [hany, Bool.false_eq_true, or_false]
    omega
  exact if_neg hpass

section
variable (s : State) (p at_ : Nat)

theorem gateOf_gateScheduled : gateOf (gateScheduled s p at_) p =
    { gateOf s p with pend := some (getF s (Reg.SCH_GATE_CFG_LEN p), gateCycle s p, gateBase s p, at_) } := gateOf_putGate ..

theorem getF_gateScheduled_pending : getF (gateScheduled s p at_) (Reg.SCH_GATE_STAT_PENDING p) = 1 := getF_setF_self _ _ _ (show 1 + 1 ≤ 32 by decide)

theorem getF_gateScheduled_ns : getF (gateScheduled s p at_) (Reg.SCH_GATE_CHG_LO_NS p) = at_ % 1000000000 := by
  have hwidth : at_ % 1000000000 % 2 ^ 30 = at_ % 1000000000 := Nat.mod_eq_of_lt (by omega)
  rw [gateScheduled, setB, getF_setF_reg _ _ _ _ (gateChgLo_ne_stat p),
    getF_setF_reg _ _ _ _ (gateChgLo_ne_chgHi p)]
  exact (getF_setF_self _ _ _ (show 0 + 30 ≤ 32 by decide)).trans hwidth

theorem getF_gateScheduled_sec : getF (gateScheduled s p at_) (Reg.SCH_GATE_CHG_HI_SEC p) = at_ / 1000000000 % 2 ^ 32 := by
  rw [gateScheduled, setB, getF_setF_reg _ _ _ _ (gateChgHi_ne_stat p)]
  exact getF_setF_self _ _ _ (show 0 + 32 ≤ 32 by decide)

end

/-! ## A stored EN leaves the list that a CHANGE reads alone -/

section
variable (s : State) (p : Nat) (b : Bool)

theorem getF_gateEn {f : Fld} (h : f.reg ≠ Reg.SCH_GATE_CTL p) : getF (setB s (Reg.SCH_GATE_CTL_EN p) b) f = getF s f := getF_setF_reg _ _ _ _ h

theorem gateNext_gateEn : gateNext (setB s (Reg.SCH_GATE_CTL_EN p) b) p = gateNext s p := by
  have hne : ∀ k, 0 < k → 0x1210000 + k + 0x40 * p ≠ Reg.SCH_GATE_CTL p := fun k hk => by unfold Reg.SCH_GATE_CTL; omega
  have hcycle : gateCycle (setB s (Reg.SCH_GATE_CTL_EN p) b) p = gateCycle s p := by
    rw [gateCycle, getF_gateEn s p b (hne 0x8 (by decide)), getF_gateEn s p b (hne 0xC (by decide)), gateCycle]
  have hbase : gateBase (setB s (Reg.SCH_GATE_CTL_EN p) b) p = gateBase s p := by
    rw [gateBase, getF_gateEn s p b (hne 0x14 (by decide)), getF_gateEn s p b (hne 0x10 (by decide)), setB_ptp, gateBase]
  rw [gateNext, getF_gateEn s p b (hne 0x18 (by decide)), getF_gateEn s p b (hne 0x4 (by decide)), hcycle, hbase, gateNext]

theorem gateEntries_gateEn (l : GList) : gateEntries (setB s (Reg.SCH_GATE_CTL_EN p) b) p l = gateEntries s p l := rfl

theorem gateChangeOk_gateEn (h : GateChangeOk s p) : GateChangeOk (setB s (Reg.SCH_GATE_CTL_EN p) b) p := by
  obtain ⟨-, hlen, hcycle, -⟩ := GList.mk.inj (gateNext_gateEn s p b)
  obtain ⟨hlenLow, hlenHigh, hcycleLow, hcycleHigh, hentries⟩ := h
  refine ⟨hlen ▸ hlenLow, hlen ▸ hlenHigh, hcycle ▸ hcycleLow, hcycle ▸ hcycleHigh, ?_⟩
  rw [gateNext_gateEn, gateEntries_gateEn]
  exact hentries

end

/-- The earliest time at which a CHANGE written now can take effect. -/
def gateNextTime (s : State) (p : Nat) : Nat := gateChangeTime s.ptp.total (gateBase s p) (gateCycle s p)

theorem gateCtl_change_schedules {s : State} {p : Nat} (h : GateChangeOk s p) :
    gateCtl s p (gateWord s p 2) = gateShow (gateScheduled (setB s (Reg.SCH_GATE_CTL_EN p) (bit (gateWord s p 2) 0)) p (gateNextTime s p)) p := by
  obtain ⟨-, -, hcycle, hbase⟩ := GList.mk.inj (gateNext_gateEn s p (bit (gateWord s p 2) 0))
  rw [gateCtl_change, gateChange_schedules (gateChangeOk_gateEn s p _ h), setB_ptp, hcycle, hbase, gateNextTime]

section
variable {s : State} {p : Fin 160} (hopen : operOpen s = true) (hstandby : standby s = false) (h : GateChangeOk s p)
include hopen hstandby h

theorem gateChange_taken : gateChange p s =
    mirrorItem (gateShow (gateScheduled (setB s (Reg.SCH_GATE_CTL_EN p) (bit (gateWord s p 2) 0)) p (gateNextTime s p)) p) (.reg 0 (Reg.SCH_GATE_CTL p) (gateWord s p 2)) := by
  rw [gateChange, operMirrored_taken hopen hstandby, gateCtl_change_schedules h]

theorem gateOf_gateChange : gateOf (gateChange p s) p =
    { gateOf s p with pend := some (getF s (Reg.SCH_GATE_CFG_LEN p), gateCycle s p, gateBase s p, gateNextTime s p) } := by
  obtain ⟨-, hlen, hcycle, hbase⟩ := GList.mk.inj (gateNext_gateEn s p (bit (gateWord s p 2) 0))
  rw [gateChange_taken hopen hstandby h, gateOf_congr _ _ (mirrorItem_qd _), gateOf_congr _ _ (gateShow_qd ..), gateOf_gateScheduled, gateOf_congr _ _ (setB_qd ..),
    hlen, hcycle, hbase]

theorem getF_gateChange_pending : getF (gateChange p s) (Reg.SCH_GATE_STAT_PENDING p) = 1 := by
  rw [gateChange_taken hopen hstandby h, getF_mirrorItem _ (gateReg_ne_seqTx p (show 0x18 < 0x40 by decide)), getF_gateShow_beside _ _ (show 1 + 1 ≤ 8 by decide)]
  exact getF_gateScheduled_pending ..

theorem getF_gateChange_ns : getF (gateChange p s) (Reg.SCH_GATE_CHG_LO_NS p) = gateNextTime s p % 1000000000 := by
  rw [gateChange_taken hopen hstandby h, getF_mirrorItem _ (gateReg_ne_seqTx p (show 0x1C < 0x40 by decide)), getF_gateShow_reg _ _ (gateChgLo_ne_stat p)]
  exact getF_gateScheduled_ns ..

theorem getF_gateChange_sec : getF (gateChange p s) (Reg.SCH_GATE_CHG_HI_SEC p) = gateNextTime s p / 1000000000 % 2 ^ 32 := by
  rw [gateChange_taken hopen hstandby h, getF_mirrorItem _ (gateReg_ne_seqTx p (show 0x20 < 0x40 by decide)), getF_gateShow_reg _ _ (gateChgHi_ne_stat p)]
  exact getF_gateScheduled_sec ..

end

/-! ## Withdrawn changes (R252) -/

theorem gateCancel_withdraws {s : State} {p len cycle base at_ : Nat} (h : (gateOf s p).pend = some (len, cycle, base, at_)) (hearly : s.ptp.total < at_) :
    gateCancel_ s p = setB (putGate s p { gateOf s p with pend := none }) (Reg.SCH_GATE_STAT_PENDING p) false := by
  simp [gateCancel_, h, Nat.not_le.mpr hearly]

/-! ## The statement -/

/-- Settles O46: activation, change and cancel by the state of the gates that each leaves, and SCH_GATE_STAT as it is shown then. -/
theorem timeGates : Obligations.TimeGates := by
  unfold Obligations.TimeGates
  refine ⟨?entry, ?activate, ?enable, ?change, ?cancel, ?refused⟩
  case entry => exact fun s p => ⟨gateEntryChange p s, rfl, getF_gateShow_open s p, getF_gateShow_entry s p, regsBut_gateShow s p⟩
  case activate =>
    intro s p len cycle base at_ h hdue
    refine ⟨gateActivate p s, rfl, ?_⟩
    rw [gateActivate_due h hdue]
    exact ⟨(gateOf_congr _ _ (gateShow_qd ..)).trans (gateOf_gateSwitched ..),
      (getF_gateShow_beside _ _ (show 0 + 1 ≤ 8 by decide)).trans (getF_gateSwitched_bank ..),
      (getF_gateShow_beside _ _ (show 1 + 1 ≤ 8 by decide)).trans (getF_gateSwitched_pending ..),
      (getF_gateShow_beside _ _ (show 3 + 1 ≤ 8 by decide)).trans (getF_gateSwitched_run ..),
      fun a ha => (regsBut_gateShow _ _ a ha).trans (regsBut_gateSwitched _ _ _ _ _ a ha)⟩
  case enable => exact fun s p en hopen hstandby => ⟨gateEnable p en s, rfl, by rw [gateEnable, operMirrored_taken hopen hstandby, gateCtl_enable]⟩
  case change =>
    intro s p hopen hstandby hlenLow hlenHigh hcycleLow hcycleHigh hentries
    have hok : GateChangeOk s p := ⟨hlenLow, hlenHigh, hcycleLow, hcycleHigh, hentries⟩
    have hgate := gateOf_gateChange hopen hstandby hok
    exact ⟨gateChange p s, rfl, gateNextTime s p, by rw [hgate], by rw [hgate],
      lt_gateChangeTime _ _ (Nat.lt_of_lt_of_le (by decide) hcycleLow), base_le_gateChangeTime .., gateChangeTime_sub_base_mod .., gateChangeTime_le ..,
      getF_gateChange_pending hopen hstandby hok, getF_gateChange_ns hopen hstandby hok, getF_gateChange_sec hopen hstandby hok⟩
  case cancel =>
    intro s p len cycle base at_ hopen hstandby h hearly
    refine ⟨gateCancel p s, rfl, ?_⟩
    rw [gateCancel, operMirrored_taken hopen hstandby, gateCtl_cancel, gateCancel_withdraws (s := setB s _ _) h hearly]
    constructor
    · rw [gateOf_congr _ _ (mirrorItem_qd _), gateOf_congr _ _ (gateShow_qd ..), gateOf_congr _ _ (setB_qd ..), gateOf_putGate]
      rfl
    · rw [getF_mirrorItem _ (gateReg_ne_seqTx p (show 0x18 < 0x40 by decide)), getF_gateShow_beside _ _ (show 1 + 1 ≤ 8 by decide)]
      exact getF_setB_false _ (show 1 + 1 ≤ 32 by decide)
  case refused => exact fun s p hopen hstandby => ⟨gateChange p s, rfl, operMirrored_standby hopen hstandby ..⟩

end Sys2Proof.Machine

/-! The increment of a shaper (O15). -/

namespace Sys2Proof.Machine

theorem le_ceilDiv_mul (a : Nat) {b : Nat} (hb : 0 < b) : a ≤ ceilDiv a b * b := by
  have hover : a + b - 1 < b * (ceilDiv a b + 1) := Nat.lt_mul_div_succ _ hb
  rw [Nat.mul_succ, Nat.mul_comm] at hover
  omega

theorem pred_ceilDiv_mul_lt {a b : Nat} (ha : 0 < a) (hb : 0 < b) : (ceilDiv a b - 1) * b < a := by
  have hunder : ceilDiv a b * b ≤ a + b - 1 := Nat.div_mul_le_self ..
  rw [Nat.sub_mul]
  omega

/-- Settles O15: a ceiling is the least number whose multiple reaches the dividend. -/
theorem shaperIncrementIsTheCeiling : Obligations.ShaperIncrementIsTheCeiling := by
  intro v hv
  have hrate : 0 < bits v 0 31 := Nat.pos_of_ne_zero hv
  rw [shaperInc, if_neg hv]
  exact ⟨le_ceilDiv_mul _ hrate, pred_ceilDiv_mul_lt (by decide) hrate⟩

end Sys2Proof.Machine

/-! Credits, VOQs, the egress tree, the wheel, fences and the epoch (O47). -/

namespace Sys2Proof.Machine

/-! ## Requests and credits of a VOQ (R231, R233, R235) -/

section
variable {s : State}

theorem requestRetry_repeats {q : Fin 1048576} (hq : q.val < voqSplit s) (hout : (queueOf s q).outCr ≠ 0) :
    requestRetry q s = voqAsk (bump (putQueue s q { queueOf s q with outCr := 0 }) (Reg.SCH_CNT 3)) q :=
  if_neg (not_or.mpr ⟨Nat.not_le.mpr hq, hout⟩)

theorem creditArrive_adds {port cls q : Nat} (hq : voqOf s port cls = some q) (h : (queueOf s q).outCr ≠ 0 ∨ (queueOf s q).descs ≠ []) (g : Nat) :
    creditArrive g port cls s =
      voqAsk (perf (bump (putQueue s q { queueOf s q with bal := (queueOf s q).bal + creditSize s, outCr := (queueOf s q).outCr - 1 }) (Reg.SCH_CNT 4)) 81 2) q := by
  have hused : ¬((queueOf s q).outCr = 0 ∧ (queueOf s q).descs = []) := by tauto
  simp only [creditArrive, hq, if_neg hused]

/-- A VOQ that has been emptied for its timeout: no credit is out, and no balance is kept. -/
def voqTimedOut (s : State) (q : Nat) : State :=
  let s1 := flushQueue s q (fun a => bump a (Reg.SCH_CNT 2))
  putQueue (bumpIf (0 < (queueOf s q).bal) s1 (Reg.SCH_CNT 6)) q { queueOf s1 q with bal := 0, outCr := 0 }

theorem voqTimeout_drops {q : Fin 1048576} (hq : q.val < voqSplit s) (htime : getF s Reg.SCH_VOQ_CFG_TIMEOUT_MS ≠ 0) (hd : (queueOf s q).descs ≠ []) :
    voqTimeout q s = voqTimedOut s q :=
  if_neg (not_or.mpr ⟨Nat.not_le.mpr hq, not_or.mpr ⟨htime, hd⟩⟩)

theorem queueOf_putQueue (q : Nat) (x : Queue) : queueOf (putQueue s q x) q = x := mget_mput_self ..

theorem queueOf_voqTimedOut (q : Nat) :
    queueOf (voqTimedOut s q) q = { queueOf (flushQueue s q (fun a => bump a (Reg.SCH_CNT 2))) q with bal := 0, outCr := 0 } := queueOf_putQueue ..

theorem voqTimedOut_bufs (q : Nat) : (voqTimedOut s q).qd.bufs = (flushQueue s q (fun a => bump a (Reg.SCH_CNT 2))).qd.bufs := by
  show (bumpIf _ _ _).qd.bufs = _
  rw [bumpIf_qd]

theorem bumpIf_eq_bumpN (c : Bool) (a : Nat) : bumpIf c s a = bumpN s a (b2n c) := by
  cases c <;> rfl

theorem voqTimedOut_regs (q : Nat) : (voqTimedOut s q).regs =
    (bumpN (flushQueue s q (fun a => bump a (Reg.SCH_CNT 2))) (Reg.SCH_CNT 6) (if 0 < (queueOf s q).bal then 1 else 0)).regs := by
  show (bumpIf _ _ _).regs = _
  rw [bumpIf_eq_bumpN]
  simp only [b2n, decide_eq_true_eq]

end

/-! ## Grants (R232) -/

/-- What a grant of a credit of class k to node n takes: one of those that the node asked for, the time that the pace gives it, and the node's place in the round. -/
def creditTaken (s : State) (port k n : Nat) : State :=
  let key := creqKey port k n
  rrPut (creditPaced { s with qd := { s.qd with creq := mput 0 s.qd.creq key (mget 0 s.qd.creq key - 1) } } port) (2 ^ 40 + port * 8 + k) n

/-- The grant as it is counted; the credit goes out unless the card sends none. -/
def creditGranted (s : State) (port k n : Nat) : State :=
  let u := perf (bump (creditTaken s port k n) (Reg.SCH_CNT 5)) 81 1
  if offLine s then u else { u with fab := { u.fab with credit := creditPut u.fab.credit { node := n, port := port, cls := k, count := 1 } } }

section
variable {s : State}

theorem creditGrant_grants {port : Fin 65536} {k n : Nat} (hdue : creditDue s port = true)
    (hk : [7, 6, 5, 4, 3, 2, 1, 0].find? (fun k => !(askers s port k).isEmpty && grantOpen s port k) = some k)
    (hn : nextRound (askers s port k) (rrGet s (2 ^ 40 + port.val * 8 + k)) = some n) : creditGrant port s = creditGranted s port k n := by
  simp only [creditGrant, hdue, Bool.not_true, if_neg Bool.false_ne_true, hk, hn]
  rfl

theorem creditGrant_waits {port : Fin 65536} (hdue : creditDue s port = false) : creditGrant port s = s := by
  rw [creditGrant, hdue, Bool.not_false, if_pos rfl]

variable (s) (port k n : Nat)

/-- The schedulers after a grant: one credit less asked for, the time of the next one, and the place in the round. -/
def grantQd : QdSt :=
  { s.qd with
    creq := mput 0 s.qd.creq (creqKey port k n) (mget 0 s.qd.creq (creqKey port k n) - 1)
    crTe := mput 0 s.qd.crTe port (max (mget 0 s.qd.crTe port) (epochFine s - (creditPace s port).2) + creditSize s * (creditPace s port).1)
    rr := mset s.qd.rr (2 ^ 40 + port * 8 + k) (some n) }

theorem creditPaced_eq : creditPaced s port =
    { s with qd := { s.qd with crTe := mput 0 s.qd.crTe port (max (mget 0 s.qd.crTe port) (epochFine s - (creditPace s port).2) + creditSize s * (creditPace s port).1) } } := by
  unfold creditPaced
  generalize creditPace s port = x
  rfl

theorem creditTaken_eq : creditTaken s port k n = { s with qd := grantQd s port k n } := by
  rw [creditTaken, creditPaced_eq]
  rfl

theorem creditGranted_qd : (creditGranted s port k n).qd = grantQd s port k n := by
  have hcounted : (perf (bump (creditTaken s port k n) (Reg.SCH_CNT 5)) 81 1).qd = grantQd s port k n := by rw [perf_qd, bump_qd, creditTaken_eq]
  unfold creditGranted
  split <;> exact hcounted

theorem creditGranted_regs : (creditGranted s port k n).regs = (bump s (Reg.SCH_CNT 5)).regs := by
  have hcounted : (perf (bump (creditTaken s port k n) (Reg.SCH_CNT 5)) 81 1).regs = (bump s (Reg.SCH_CNT 5)).regs := by
    rw [perf_regs, creditTaken_eq]
    rfl
  unfold creditGranted
  split <;> exact hcounted

theorem creditGranted_credit : (creditGranted s port k n).fab.credit =
    if offLine s then s.fab.credit else creditPut s.fab.credit { node := n, port := port, cls := k, count := 1 } := by
  have hcounted : (perf (bump (creditTaken s port k n) (Reg.SCH_CNT 5)) 81 1).fab = s.fab := by rw [perf_fab, bump_fab, creditTaken_eq]
  unfold creditGranted
  split
  · rw [hcounted]
  · simp only [hcounted]

end

/-! ## The next frame toward the fabric (R236, R249) -/

theorem le_of_mem_upFrom {a n x : Nat} (h : x ∈ upFrom a n) : a ≤ x := by
  obtain ⟨i, -, rfl⟩ := List.mem_map.mp h
  exact Nat.le_add_right ..

theorem countIf_eq_zero {α : Type} {f : α → Bool} {l : List α} (h : ∀ x ∈ l, f x = false) : countIf f l = 0 := by
  rw [countIf, List.length_eq_zero_iff, List.filter_eq_nil_iff]
  exact fun x hx => by rw [h x hx]; exact Bool.false_ne_true

/-- Queues above class k of which none waits on a pause add nothing to the count of those passed over. -/
theorem heldAbove_eq_zero {s : State} {k : Nat} (h : ∀ j, k ≤ j → ∀ x ∈ voqsOf s j, headHeld s (x * 8 + j) = false) :
    ((upFrom k (8 - k)).map (fun j => countIf (fun x => headHeld s (x * 8 + j)) (voqsOf s j))).sum = 0 := by
  apply List.sum_eq_zero
  intro m hm
  obtain ⟨j, hj, rfl⟩ := List.mem_map.mp hm
  exact countIf_eq_zero (h j (le_of_mem_upFrom hj))

theorem voqDequeue_takes {s : State} {p k : Nat}
    (hk : [7, 6, 5, 4, 3, 2, 1, 0].find? (fun k => !classBlocked s k && !((voqsOf s k).filter (fun p => !headHeld s (p * 8 + k))).isEmpty) = some k)
    (hp : nextRound ((voqsOf s k).filter (fun p => !headHeld s (p * 8 + k))) (rrGet s (2 ^ 41 + k)) = some p)
    (hheld : ∀ j, k ≤ j → ∀ x ∈ voqsOf s j, headHeld s (x * 8 + j) = false) (bad : Bool) :
    voqDequeue bad s = voqTake (skipped (perf (rrPut s (2 ^ 41 + k) p) 81 0) 0) (p * 8 + k) bad := by
  unfold voqDequeue
  dsimp only
  rw [hk]
  dsimp only
  rw [hp]
  dsimp only
  rw [heldAbove_eq_zero hheld]

/-! ## Selections of the egress tree (R238, R240 to R242) -/

section
variable {s : State} {n : Fin 161}

theorem egressSelect_unserved (h : nodeServed s n = false) (bad : Bool) : egressSelect n bad s = s := by
  rw [egressSelect, h, Bool.not_false, if_pos rfl]

theorem egressSelect_path {a b c : Nat × Bool} {q : Nat} {x : Bool} {s1 s2 : State} {d : Desc} {buf : Buf} (hserved : nodeServed s n = true)
    (hgates : (queuesBelow s n).any (queueGated s n) = false)
    (hpath : pickPath 4 s (0x149000 + n.val) ((readyPaths s n).map (fun l => l.drop 1)) = ([a, b, c, (q, x)], s1))
    (hhead : popHead s1 q = (some d, s2)) (hbuf : mfind s2.qd.bufs d.buf = some buf) (bad : Bool) :
    egressSelect n bad s = emptied (takeOff ([(0x149000 + n.val, false), a, b, c, (q, x)].foldl (fun u e => nodePay u e.1 buf.data.length e.2)
      (skipped (perf s2 81 0) (countIf (headHeld s) (queuesBelow s n)))) q d buf bad) q := by
  rw [egressSelect, hserved, Bool.not_true, if_neg Bool.false_ne_true]
  dsimp only
  rw [hgates, if_neg Bool.false_ne_true, hpath]
  dsimp only
  rw [hhead]
  dsimp only
  rw [hbuf]

end

/-! ## The wheel (R245) -/

theorem mfind_map {α β : Type} (f : Nat → α → β) (m : NMap α) (k : Nat) : mfind (m.map (fun e => (e.1, f e.1 e.2))) k = (mfind m k).map (f k) := by
  induction m with
  | nil => rfl
  | cons e r ih =>
    obtain ⟨j, v⟩ := e
    by_cases h : j = k
    · subst h
      simp [mfind]
    · simp only [List.map_cons, mfind, if_neg h, ih]

/-- An entry whose time has passed leaves the wheel, and one whose time has not may move inward. -/
theorem calendarSlot_wheel (s : State) {k r : Nat} (h : mfind s.qd.wheel k = some r) :
    mfind (calendarSlot s).qd.wheel k =
      if epochFine s / (4 * 2 ^ 32) * (4 * 2 ^ 32) < wheelTe s k then some (ringMove (epochFine s) (wheelTe s k) r) else none := by
  have hmoved : (calendarSlot s).qd.wheel = (s.qd.wheel.filter (fun e => decide (epochFine s / (4 * 2 ^ 32) * (4 * 2 ^ 32) < wheelTe s e.1))).map
      (fun e => (e.1, ringMove (epochFine s) (wheelTe s e.1) e.2)) := rfl
  rw [hmoved, mfind_map (fun k => ringMove (epochFine s) (wheelTe s k)), mfind_filter (fun k => decide (epochFine s / (4 * 2 ^ 32) * (4 * 2 ^ 32) < wheelTe s k)), h]
  simp only [decide_eq_true_eq]
  split <;> rfl

/-! ## Fences (R257) -/

section
variable {s : State} {i : Nat} {f : Fence} (h : s.qd.fences[i]? = some f)
include h

theorem fenceLift_lifts (hempty : queueBusy s f.oldQ = false) : fenceLift i s = fenceEnd s f := by
  simp only [fenceLift, h, hempty, if_neg Bool.false_ne_true]

theorem fenceTimeout_drops : fenceTimeout i s = fenceEnd (emptied (flushQueue s f.oldQ (fun a => bump a (Reg.SCH_CNT 7))) f.oldQ) f := by
  simp only [fenceTimeout, h]

end

/-! ## The epoch (R425) -/

/-- The correction of the window that begins: it makes up what the windows before fell short of their goal, within its limits. -/
def epochCorrection (s : State) : Int :=
  max (-((2 : Int) ^ 32 / 1000)) (min ((2 : Int) ^ 32 / 1000)
    ((1600000 * (2 : Int) ^ 32 + (((s.qd.epochGoal + 1600000 * 2 ^ 32 : Nat) : Int) - epochFine s)) / (((s.tick - s.qd.epochTick) * 8 : Nat) : Int) - (2 : Int) ^ 32))

theorem epochCorrection_ge (s : State) : -((2 : Int) ^ 32 / 1000) ≤ epochCorrection s := le_max_left ..

theorem epochCorrection_le (s : State) : epochCorrection s ≤ (2 : Int) ^ 32 / 1000 := max_le (by decide) (min_le_left ..)

theorem epochWindow_ends {s : State} (hup : s.boot.up = true) (htick : s.qd.epochTick < s.tick) : epochWindow s =
    { s with qd := { s.qd with epochBase := epochFine s, epochTick := s.tick, epochCorr := epochCorrection s, epochGoal := s.qd.epochGoal + 1600000 * 2 ^ 32 } } := by
  have hcycles : ((((s.tick - s.qd.epochTick) * 8 : Nat) : Int) == 0) = false := by
    rw [beq_eq_false_iff_ne]
    omega
  rw [epochWindow, hup, hcycles, Bool.not_true, Bool.or_self, if_neg Bool.false_ne_true]
  rfl

/-! ## The statement -/

/-- Settles O47: each command by the branch that its hypotheses choose, and what that branch writes. -/
theorem creditsAndScheduling : Obligations.CreditsAndScheduling := by
  unfold Obligations.CreditsAndScheduling
  refine ⟨?retry, ?credit, ?timeout, ?grant, ?waits, ?dequeue, ?unserved, ?select, ?wheel, ?lift, ?fenceTime, ?epoch⟩
  case retry => exact fun s q hq hout => ⟨_, rfl, requestRetry_repeats hq hout⟩
  case credit => exact fun s g port cls q _ hq h => creditArrive_adds hq h g
  case timeout =>
    intro s q hq htime hd
    refine ⟨_, rfl, ?_⟩
    rw [voqTimeout_drops hq htime hd]
    exact ⟨congrArg Queue.bal (queueOf_voqTimedOut _), congrArg Queue.outCr (queueOf_voqTimedOut _), voqTimedOut_bufs _,
      (rd_congr (voqTimedOut_regs _) _).trans (rd_bumpN ..), fun a ha => (rd_congr (voqTimedOut_regs _) a).trans (regsBut_bumpN _ _ _ a ha)⟩
  case grant =>
    intro s port k n hdue hk hn
    refine ⟨_, rfl, ?_⟩
    rw [creditGrant_grants hdue hk hn]
    have hqd := creditGranted_qd s port k n
    refine ⟨?_, (rd_congr (creditGranted_regs ..) _).trans (rd_bump_self ..), ?_, ?_, creditGranted_credit ..,
      fun a ha => (rd_congr (creditGranted_regs ..) a).trans (regsBut_bumpN _ _ _ a ha)⟩
    · rw [hqd]
      exact mget_mput_self ..
    · rw [rrGet, hqd]
      exact mfind_mset_self s.qd.rr _ (some n)
    · rw [hqd]
      exact mget_mput_self ..
  case waits => exact fun s port hdue => ⟨_, rfl, creditGrant_waits hdue⟩
  case dequeue => exact fun s p k bad hk hp hheld => ⟨_, rfl, voqDequeue_takes hk hp hheld bad⟩
  case unserved => exact fun s n bad h => ⟨_, rfl, egressSelect_unserved h bad⟩
  case select => exact fun s n bad a b c q x s1 d s2 buf hserved hgates hpath hhead hbuf => ⟨_, rfl, egressSelect_path hserved hgates hpath hhead hbuf bad⟩
  case wheel => exact fun s k r h _ => ⟨_, rfl, rfl, rfl, calendarSlot_wheel s h⟩
  case lift => exact fun s i f h hempty => ⟨_, rfl, fenceLift_lifts h hempty⟩
  case fenceTime => exact fun s i f h => ⟨_, rfl, fenceTimeout_drops h⟩
  case epoch =>
    intro s hup htick
    refine ⟨_, rfl, ?_⟩
    rw [epochWindow_ends hup htick]
    exact ⟨rfl, rfl, rfl, epochCorrection_ge s, epochCorrection_le s, rfl⟩

end Sys2Proof.Machine

/-! Fabric defects, degradation, the BKP watchdog and performance monitoring (O51). -/

namespace Sys2Proof.Machine

/-! ## Defects (R283) -/

theorem exec_defectDeclare_fabric {g : Fin 9} (h : g.val < 8) (l : Fin 28) (d : Fin 7) (s : State) :
    exec (.defectDeclare g l d) s = .next (defectDeclare g l d s) :=
  congrArg Host.Outcome.next (if_neg (fabGroup_ne_gallery h))

theorem exec_defectClear_fabric {g : Fin 9} (h : g.val < 8) (l : Fin 28) (d : Fin 7) (s : State) :
    exec (.defectClear g l d) s = .next (defectClear g l d s) :=
  congrArg Host.Outcome.next (if_neg (fabGroup_ne_gallery h))

section
variable {s : State} {g : Nat} {l : Fin 28} {d : Fin 7}

theorem defectDeclare_idle (h : laneHears s g l = false ∨ defect s g l d = true ∨ defectHeld s g l d = true ∨ defectCond s g l d = false) :
    defectDeclare g l d s = s := by
  have hidle : (!laneHears s g l || defect s g l d || defectHeld s g l d || !defectCond s g l d) = true := by simpa [or_assoc] using h
  rw [defectDeclare, if_pos hidle]

variable (hears : laneHears s g l = true) (hheld : defectHeld s g l d = false)
include hears hheld

theorem defectDeclare_declares (hnew : defect s g l d = false) (hcond : defectCond s g l d = true) :
    defectDeclare g l d s =
      let u := setF s (Reg.FAB_LANE_STAT_DEFECT g l) (getF s (Reg.FAB_LANE_STAT_DEFECT g l) + 2 ^ d.val)
      let v := setF u (Reg.FAB_LANE_STAT_SEEN g l) (Nat.lor (getF u (Reg.FAB_LANE_STAT_SEEN g l)) (2 ^ d.val))
      fabFollowGroup s (laneDef (if d = 4 ∨ d = 6 then v else pmDefect v (flk g l)) g l (!groupSeen s g)) g := by
  have hacts : ¬(!laneHears s g l || defect s g l d || defectHeld s g l d || !defectCond s g l d) = true := by simp [hears, hnew, hheld, hcond]
  rw [defectDeclare, if_neg hacts]

theorem defectClear_clears (hstands : defect s g l d = true) (hgone : defectGone s g l d = true) :
    defectClear g l d s =
      let u := setF s (Reg.FAB_LANE_STAT_DEFECT g l) (getF s (Reg.FAB_LANE_STAT_DEFECT g l) - 2 ^ d.val)
      fabFollowGroup s (if groupDefect u g then u else levelOff u (Src.fabLaneDef g)) g := by
  have hacts : ¬(!laneHears s g l || !defect s g l d || defectHeld s g l d || !defectGone s g l d) = true := by simp [hears, hstands, hheld, hgone]
  rw [defectClear, if_neg hacts]

end

/-! ## A stored receive lane -/

section
variable (s : State) (g l : Nat) (x : RxLane)

theorem rxLane_putRx : rxLane (putRx s g l x) g l = x := mget_mput_self ..

/-- FILL is all that the registers show of a stored lane. -/
theorem regsBut_putRx : RegsBut [Reg.FAB_LANE_STAT g l] s (putRx s g l x) := fun _ ha => rd_setF_ne _ _ _ _ (List.ne_of_not_mem_cons ha)

end

/-- The interval starts again, and a verdict like the last one prolongs its run (R283). -/
theorem rxLane_degInterval (s : State) (g : Fin 8) (l : Fin 28) :
    rxLane (degInterval g l s) g l =
      let bad := decide (max 1 (getF s Reg.FAB_DEG_CFG_DEG_TH) ≤ (rxLane s g l).degNow)
      { rxLane s g l with degNow := 0, degBad := bad, degRun := if bad = (rxLane s g l).degBad then (rxLane s g l).degRun + 1 else 1 } := rxLane_putRx ..

/-! ## The BKP watchdog (R275) and the seconds of performance monitoring (R293 to R295) -/

theorem bkpWatchdog_ignores {s : State} {g k : Fin 8} (hon : getF s Reg.FAB_BKP_CFG_WD_MS ≠ 0) (hforce : bkpInForce s g k = true) :
    bkpWatchdog g k s = bkpLevel (partnerBad (setF s (Reg.FAB_GRP_BKP_BKP_IGN g) (getF s (Reg.FAB_GRP_BKP_BKP_IGN g) + 2 ^ k.val)) g 13) g := by
  have hacts : ¬(getF s Reg.FAB_BKP_CFG_WD_MS = 0 ∨ !bkpInForce s g k) := by simp [hon, hforce]
  rw [bkpWatchdog, if_neg hacts]

theorem pmSecond_waits {s : State} (h : s.ptp.sec ≤ s.fab.pmSec) : pmSecond s = s := if_pos h

/-- Every entity takes the class of the second before the present one, lanes first, on bins that have rolled up to it. -/
theorem pmSecond_evaluates {s : State} (h : s.fab.pmSec < s.ptp.sec) :
    pmSecond s =
      let u := pmRolls s.fab.pmSec (s.ptp.sec - 1) s
      let v := ((List.range 224).map (fun k => (k, laneClass u k)) ++ (List.range 8).map (fun g => (224 + g, grpClass u g))).foldl
        (fun t (e : Nat × Nat) => pmTake e.1 (s.ptp.sec - 1) e.2 t) u
      pmRestart (pmRolls (s.ptp.sec - 1) s.ptp.sec { v with fab := { v.fab with pmSec := s.ptp.sec, pmLen := (v.fab.pmLen.1 + 1, v.fab.pmLen.2 + 1) } }) :=
  if_neg (Nat.not_le.mpr h)

/-! ## The statement -/

/-- Settles O51: each command by the branch that its hypotheses choose. -/
theorem fabricDefectsAndPerformance : Obligations.FabricDefectsAndPerformance := by
  unfold Obligations.FabricDefectsAndPerformance
  refine ⟨?idle, ?declares, ?clears, ?interval, ?watchdog, ?waits, ?evaluates⟩
  case idle => exact fun s g l d hg h => ⟨_, exec_defectDeclare_fabric hg l d s, defectDeclare_idle h⟩
  case declares =>
    exact fun s g l d hg hears hnew hheld hcond => ⟨_, exec_defectDeclare_fabric hg l d s, _, _, rfl, rfl, defectDeclare_declares hears hheld hnew hcond⟩
  case clears =>
    exact fun s g l d hg hears hstands hheld hgone => ⟨_, exec_defectClear_fabric hg l d s, _, rfl, defectClear_clears hears hheld hstands hgone⟩
  case interval =>
    intro s g l
    have hlane := rxLane_degInterval s g l
    exact ⟨degInterval g l s, rfl, congrArg RxLane.degNow hlane, congrArg RxLane.degBad hlane, congrArg RxLane.degRun hlane, regsBut_putRx _ _ _ _⟩
  case watchdog => exact fun s g k hon hforce => ⟨_, rfl, bkpWatchdog_ignores hon hforce⟩
  case waits => exact fun s h => ⟨_, rfl, pmSecond_waits h⟩
  case evaluates => exact fun s h => ⟨_, rfl, _, _, rfl, rfl, pmSecond_evaluates h⟩

end Sys2Proof.Machine

/-! Plane protection: the host's requests, WTR and SRQ mismatch (O52). -/

namespace Sys2Proof.Machine

/-! ## The word of a host command (Table 10-15) -/

theorem protWord_cmd {cmd : Nat} (h : cmd < 16) (plane : Nat) : protWord cmd plane % 16 = cmd := by
  unfold protWord
  omega

theorem protWord_plane {cmd : Nat} (h : cmd < 16) (plane : Fin 16) : protWord cmd plane / 16 % 16 = plane := by
  unfold protWord
  omega

/-! ## Writes of FAB_PROT_CTL (R286, R343, R344) -/

section
variable {s : State} {v : Nat} (hopen : operOpen s = true)
include hopen

theorem protWrite_taken (hstandby : standby s = false) (hok : protOk s v = true) : protWrite v s = mirrorItem (protCtl v s) (.reg 0 Reg.FAB_PROT_CTL v) := by
  rw [protWrite, hok]
  exact operMirrored_taken hopen hstandby ..

theorem protWrite_refused (hbad : protOk s v = false) : protWrite v s = pwfTarget s Reg.FAB_PROT_CTL v := by
  simp [protWrite, operMirrored, operWrite_open hopen, hbad]

end

/-! ## Manual and forced switches -/

section
variable {s : State} {cmd : Nat} {p : Fin 16} (hcmd : cmd = 4 ∨ cmd = 10)
include hcmd

theorem protOk_switch : protOk s (protWord cmd p) = (decide (p.val < 8) && p.val != spareOf s) := by
  have hlt : cmd < 16 := by omega
  rw [protOk, protWord_cmd hlt, protWord_plane hlt]
  rcases hcmd with rfl | rfl <;> rfl

theorem protCtl_switch : protCtl (protWord cmd p) s = wtrFollow s { s with fab := { s.fab with hostReq := some (cmd, p.val) } } := by
  have hlt : cmd < 16 := by omega
  rw [protCtl, protWord_cmd hlt, protWord_plane hlt]
  rcases hcmd with rfl | rfl <;> rfl

/-- A switch of a plane below 8 that is not the spare becomes the host's request. -/
theorem protWrite_switch (hopen : operOpen s = true) (hstandby : standby s = false) (hp : p.val < 8) (hspare : p.val ≠ spareOf s) :
    protWrite (protWord cmd p) s =
      mirrorItem (wtrFollow s { s with fab := { s.fab with hostReq := some (cmd, p.val) } }) (.reg 0 Reg.FAB_PROT_CTL (protWord cmd p)) := by
  have hok : protOk s (protWord cmd p) = true := by simp [protOk_switch hcmd, hp, hspare]
  rw [protWrite_taken hopen hstandby hok, protCtl_switch hcmd]

/-- Any other plane is refused. -/
theorem protWrite_switch_refused (hopen : operOpen s = true) (h : 8 ≤ p.val ∨ p.val = spareOf s) :
    protWrite (protWord cmd p) s = pwfTarget s Reg.FAB_PROT_CTL (protWord cmd p) := by
  have hbad : protOk s (protWord cmd p) = false := by
    rw [protOk_switch hcmd, Bool.and_eq_false_iff]
    simpa using h
  exact protWrite_refused hopen hbad

end

/-! ## SRQ mismatch (R290) -/

theorem srqIncDeclare_declares {s : State} (h : 12 ≤ s.fab.srqAway) :
    srqIncDeclare s = levelOn (setB s Reg.FAB_PROT_FLAGS_SRQ_INC true) Src.fabSrqInc (locSlice 1 63) 0 := if_neg (Nat.not_lt.mpr h)

/-! ## The statement -/

/-- Settles O52: the commands without a plane and the switches are writes of one register, and the two events are what their branches write. -/
theorem fabricProtectionRequests : Obligations.FabricProtectionRequests := by
  unfold Obligations.FabricProtectionRequests
  refine ⟨?clear, ?manual, ?forced, ?refused, ?lockout, ?test, ?wtr, ?srq⟩
  case clear => exact fun s hopen hstandby => ⟨_, rfl, protWrite_taken hopen hstandby rfl⟩
  case manual => exact fun s p hopen hstandby hp hspare => ⟨_, rfl, protWrite_switch (.inl rfl) hopen hstandby hp hspare⟩
  case forced => exact fun s p hopen hstandby hp hspare => ⟨_, rfl, protWrite_switch (.inr rfl) hopen hstandby hp hspare⟩
  case refused => exact fun s p hopen h => ⟨_, rfl, protWrite_switch_refused (.inr rfl) hopen h⟩
  case lockout => exact fun s hopen hstandby => ⟨_, rfl, protWrite_taken hopen hstandby rfl⟩
  case test => exact fun s hopen hstandby => ⟨_, rfl, protWrite_taken hopen hstandby rfl⟩
  case wtr => exact fun s => ⟨_, rfl, rfl⟩
  case srq =>
    intro s h
    have ht := srqIncDeclare_declares h
    exact ⟨srqIncDeclare s, rfl, ht, ht ▸ cause_levelOn⟩

end Sys2Proof.Machine

/-! Received cells, reordering and reassembly (O53). -/

namespace Sys2Proof.Machine

/-! ## CELL_RECEIVE (R269) -/

section
variable {s u : State} {g : Fin 8} {l : Fin 28} {b : Bytes} {r : List Bytes} (hcells : mget [] s.fab.cells (flk g l) = b :: r)
  (hu : perf { s with fab := { s.fab with cells := mput [] s.fab.cells (flk g l) r } } (60 + g.val) 2 = u) (hkept : relockDiscards u 1 = (false, u))
include hcells hu hkept

theorem cellReceive_bad {j : Nat} (hbad : cellBad u b = some j) : cellReceive g l s = discard u g j := by
  simp only [cellReceive, hcells, hu, hkept, hbad, Bool.false_eq_true, if_false]

/-- What a cell that passes its checks does, by its type. -/
theorem cellReceive_good (hgood : cellBad u b = none) :
    ((cellOf b).1.typ = 1 → cellReceive g l s = dataCell (perf u (60 + g.val) 3) g (cellOf b).1) ∧
    ((cellOf b).1.typ = 2 → cellReceive g l s = (cellEntries (cellOf b).1.data).foldl (requestEntry g (cellOf b).1.src) u) ∧
    ((cellOf b).1.typ = 3 → cellReceive g l s = (cellEntries (cellOf b).1.data).foldl (creditEntry g) u) ∧
    ((cellOf b).1.typ = 4 → cellReceive g l s = controlCell u g (cellOf b).1 (b.drop 16)) ∧
    ((cellOf b).1.typ = 0 → cellReceive g l s = u) := by
  simp only [cellReceive, hcells, hu, hkept, hgood, Bool.false_eq_true, if_false]
  refine ⟨?data, ?request, ?credit, ?control, ?idle⟩ <;> intro h <;> simp only [h]

end

/-! ## Contexts (R280, R281) -/

section
variable (s : State) (k : Nat) (x : Option Ctx)

theorem mfind_ctxPut : mfind (ctxPut s k x).fab.ctx k = x := mfind_mset_self ..

theorem getF_ctxPut_inUse : getF (ctxPut s k x) Reg.FAB_REORD_STAT_IN_USE = (ctxPut s k x).fab.ctx.length % 2 ^ Reg.FAB_REORD_STAT_IN_USE.len :=
  getF_setF_self _ _ _ (by decide)

theorem regsBut_ctxPut : RegsBut [Reg.FAB_REORD_STAT] s (ctxPut s k x) := fun _ ha => rd_setF_ne _ _ _ _ (List.ne_of_not_mem_cons ha)

end

section
variable {s : State} {src dst : Fin 65536} {cls : Fin 8} {x : Ctx} (hctx : mfind s.fab.ctx (ctxKey src dst cls) = some x)
include hctx

theorem contextFree_frees (hheld : x.held = []) (hlong : withinUs s x.last 1000000 = false) :
    contextFree src dst cls s = ctxPut (dropOpen s x.opened) (ctxKey src dst cls) none := by
  have hfree : x.held = [] ∧ (!withinUs s x.last 1000000) = true := ⟨hheld, by rw [hlong]; rfl⟩
  simp only [contextFree, hctx, if_pos hfree]

theorem contextFree_waits (h : x.held ≠ [] ∨ withinUs s x.last 1000000 = true) : contextFree src dst cls s = s := by
  have hkeep : ¬(x.held = [] ∧ (!withinUs s x.last 1000000) = true) := by
    rintro ⟨hheld, hlong⟩
    rcases h with h | h
    · exact h hheld
    · simp [h] at hlong
  simp only [contextFree, hctx, if_neg hkeep]

variable {e : Nat} (hexp : x.exp = some e)
include hexp

/-- With nothing held the context expects no number any more. -/
theorem holeTimeout_resyncs (hheld : x.held = []) :
    holeTimeout src dst cls s = ctxPut (dropOpen s x.opened) (ctxKey src dst cls) (some { x with opened := none, exp := none }) := by
  have hnone : oldestHeld { x with opened := none, exp := some e } e = none := by rw [oldestHeld, hheld]; rfl
  simp only [holeTimeout, hctx, hexp, hnone]

/-- Otherwise each number missed is lost, and delivery goes on from the oldest cell held. -/
theorem holeTimeout_skips {n g : Nat} {c : Cell} {z : Ctx} {v : State} (hold : oldestHeld { x with opened := none, exp := some e } e = some (n, c, g))
    (hrun : deliverRun x.held.length ((List.range ((n + 2 ^ 20 - e) % 2 ^ 20)).foldl (fun a _ => partnerBad a g 7) (dropOpen s x.opened))
      { x with opened := none, exp := some e, held := merase x.held n } n c g = (z, v)) :
    holeTimeout src dst cls s = ctxPut v (ctxKey src dst cls) (some z) := by
  simp only [holeTimeout, hctx, hexp, hold, hrun]

end

/-! ## The statement -/

/-- Settles O53: each command by the branch that the cell or the context chooses. -/
theorem fabricCellsAndReassembly : Obligations.FabricCellsAndReassembly := by
  unfold Obligations.FabricCellsAndReassembly
  refine ⟨?bad, ?good, ?resync, ?skip, ?free, ?keep⟩
  case bad => exact fun s g l b r j hcells hkept hbad => ⟨_, rfl, cellReceive_bad hcells rfl hkept hbad⟩
  case good => exact fun s g l b r u hcells hu hkept hgood => ⟨_, rfl, cellReceive_good hcells hu hkept hgood⟩
  case resync => exact fun s src dst cls x e hctx hexp hheld => ⟨_, rfl, holeTimeout_resyncs hctx hexp hheld⟩
  case skip => exact fun s src dst cls x e n c g hctx hexp hold => ⟨_, rfl, _, _, _, rfl, rfl, holeTimeout_skips hctx hexp hold rfl⟩
  case free =>
    intro s src dst cls x hctx hheld hlong
    refine ⟨contextFree src dst cls s, rfl, ?_⟩
    rw [contextFree_frees hctx hheld hlong]
    refine ⟨rfl, mfind_ctxPut .., getF_ctxPut_inUse .., fun hopened => ?_⟩
    rw [hopened]
    exact regsBut_ctxPut _ _ _
  case keep => exact fun s src dst cls x hctx h => ⟨_, rfl, contextFree_waits hctx h⟩

end Sys2Proof.Machine

/-! DRAM interfaces: training, refresh, temperature readouts, retraining pauses and tests of free buffers (O49). -/

namespace Sys2Proof.Machine

/-! ## The state of an interface (Table 11-3) -/

section
variable (s : State) (i st : Nat)

theorem diState_diEnter : diState (diEnter s i st) i = st % 8 := getF_setF_self _ _ _ (show 0 + 3 ≤ 32 by decide)

theorem regsBut_diEnter : RegsBut [Reg.DRC_DI_STAT i] s (diEnter s i st) := fun _ ha => rd_setF_ne _ _ _ _ (List.ne_of_not_mem_cons ha)

theorem rd_diEnter_diCnt (k : Nat) : rd (diEnter s i st) (Reg.DRC_DI_CNT i k) = rd s (Reg.DRC_DI_CNT i k) := rd_setF_ne _ _ _ _ diCnt_ne_diStat

end

theorem diCnt_ne_diCnt {i j k : Nat} (h : j ≠ k) : Reg.DRC_DI_CNT i j ≠ Reg.DRC_DI_CNT i k := by
  unfold Reg.DRC_DI_CNT
  omega

theorem sliceStat_ne_diCnt (i : Fin 24) (k : Nat) : Reg.PWR_SLICE_STAT (diSlice i) ≠ Reg.DRC_DI_CNT i k := by
  unfold Reg.PWR_SLICE_STAT Reg.DRC_DI_CNT diSlice
  omega

/-! ## What is due and what runs (R311, R566) -/

section
variable (s : State) (a res : Nat)

theorem fallDue_regs : (fallDue s a res).regs = s.regs := by
  unfold fallDue
  split <;> rfl

theorem fallDue_drm : (fallDue s a res).drm = s.drm := by
  unfold fallDue
  split <;> rfl

theorem isDue_fallDue : isDue (fallDue s a res) a res = true := by
  unfold fallDue
  split
  next h => exact h
  next => simp [isDue]

theorem isRunning_stepEnds : isRunning (stepEnds s a res) a res = false := by
  refine List.any_eq_false.mpr fun m hm => ?_
  simpa [-not_and, not_and_or] using (List.mem_filter.mp hm).2

variable {s a res}

/-- What does not wait yet joins the end of the list. -/
theorem fallDue_due (h : isDue s a res = false) : (fallDue s a res).slc.due = s.slc.due ++ [{ act := a, res := res, due := s.tick }] := by
  simp [fallDue, h]

end

section
variable {s : State} {i : Fin 24} (hserves : diServes s i = true)
include hserves

theorem retrainDue_serves : retrainDue i s = fallDue s 1 i := if_pos hserves

/-- The host's 1 in RETRAIN makes the same pause due. -/
theorem drcRetrain_serves (hopen : operOpen s = true) : drcRetrain i s = fallDue s 1 i := by
  rw [drcRetrain, operWrite_open hopen]
  exact if_pos (Bool.and_eq_true_iff.mpr ⟨rfl, hserves⟩)

end

/-! ## Training (R310, R474) -/

/-- The end of a training forgets a failed retraining before it. -/
theorem dramTraining_ends {s : State} {i : Fin 24} (h : diState s i = 1) (ok : Bool) :
    dramTraining i ok s =
      if ok = true ∧ rcalOk s (2 + i / 12) = true
      then dramPools (levelOff (diEnter { s with drm := { s.drm with retryFail := s.drm.retryFail.filter (· != i.val) } } i 2) (Src.drcTrainFail i))
      else levelMore (diEnter { s with drm := { s.drm with retryFail := s.drm.retryFail.filter (· != i.val) } } i 7) (Src.drcTrainFail i) (locDi i) 0 := by
  rw [dramTraining, if_neg (not_not_intro h)]
  simp only [Bool.and_eq_true]

/-! ## Refresh (R307, R308) -/

section
variable (s : State) (i bank : Nat)

theorem refreshed_refreshBank : (refreshBank s i bank).drm.refreshed = mset s.drm.refreshed (64 * i + bank % 64) (some s.tick) := by
  rw [refreshBank, diPerf, perfAdd_drm]

theorem refreshBank_tick : (refreshBank s i bank).tick = s.tick := perfAdd_tick ..

theorem refreshBank_regs : (refreshBank s i bank).regs = s.regs := perfAdd_regs ..

end

/-- A bank in a list that is refreshed, or one refreshed at this tick before, was refreshed at this tick. -/
theorem mfind_foldl_refreshBank (i b : Nat) (l : List Nat) (s : State)
    (h : b ∈ l ∨ mfind s.drm.refreshed (64 * i + b % 64) = some s.tick) :
    mfind (l.foldl (fun a b => refreshBank a i b) s).drm.refreshed (64 * i + b % 64) = some s.tick := by
  induction l generalizing s with
  | nil => exact h.resolve_left List.not_mem_nil
  | cons c l ih =>
    have hstep : b ∈ l ∨ mfind (refreshBank s i c).drm.refreshed (64 * i + b % 64) = some (refreshBank s i c).tick := by
      rw [refreshed_refreshBank, refreshBank_tick]
      by_cases hkey : 64 * i + b % 64 = 64 * i + c % 64
      · exact .inr (hkey ▸ mfind_mset_self ..)
      · rw [mfind_mset_ne _ _ hkey]
        have hne : b ≠ c := fun hbc => hkey (by rw [hbc])
        exact h.imp_left fun hb => (List.mem_cons.mp hb).resolve_left hne
    rw [← refreshBank_tick s i c]
    exact ih _ hstep

section
variable {s : State} {i : Fin 24} (bank : Fin 64)

theorem dramRefresh_refreshes (h : diState s i = 2 ∨ diState s i = 3 ∨ diState s i = 5) : dramRefresh i bank s = refreshBank s i bank :=
  if_pos (by simpa [diRefreshes, or_assoc] using h)

theorem dramRefresh_idle (h2 : diState s i ≠ 2) (h3 : diState s i ≠ 3) (h5 : diState s i ≠ 5) : dramRefresh i bank s = s :=
  if_neg (by simp [diRefreshes, h2, h3, h5])

end

/-! ## Temperature readouts (Table 11-2, R307, R323) -/

/-- The state in which a readout of `t` °C shows, with multiplier `m` and with HOT as `hot`; the row of failed ones ends. -/
def readoutShown (s : State) (i t m : Nat) (hot : Bool) : State :=
  levelIs hot
    { setB (setF (setF s (Reg.DRC_DI_STAT_TEMP i) (ofSigned 8 (signed 8 t))) (Reg.DRC_DI_STAT_REF_MULT i) m) (Reg.DRC_DI_STAT_HOT i) hot with
      drm := { s.drm with tempFail := merase s.drm.tempFail i } } (Src.drcHot i) (locDi i) 0

section
variable {s : State} {i t m : Nat} {hot : Bool}
  (hm : m = if signed 8 t < getF s Reg.DRC_TEMP_CFG_T2X then 0
    else if signed 8 t < max (getF s Reg.DRC_TEMP_CFG_T2X) (getF s Reg.DRC_TEMP_CFG_T4X) then 1 else 2)
  (hhot : hot = decide (((max (max (getF s Reg.DRC_TEMP_CFG_T2X) (getF s Reg.DRC_TEMP_CFG_T4X)) (getF s Reg.DRC_TEMP_CFG_THOT) : Nat) : Int) ≤ signed 8 t))
include hm hhot

/-- With TEMP_STEP at 0 a readout makes no pause due. -/
theorem readout_noStep {a : Nat} (hstep : getF s Reg.DRC_MAINT_CFG_TEMP_STEP = 0) (hat : mfind s.drm.tempAt i = some a) :
    readout s i t = readoutShown s i t m hot := by
  subst hm hhot
  simp only [readout, hat, hstep, ne_eq, not_true_eq_false, false_and, if_false]
  rfl

/-- The first readout since the training began is the one from which its temperature moves (R311). -/
theorem readout_first (hat : mfind s.drm.tempAt i = none) :
    readout s i t =
      { readoutShown s i t m hot with
        drm := { (readoutShown s i t m hot).drm with tempAt := mset (readoutShown s i t m hot).drm.tempAt i (some t) } } := by
  subst hm hhot
  simp only [readout, hat]
  rfl

end

section
variable {s : State} {i : Nat} (h : mget 0 s.drm.tempFail i + 1 < 3)
include h

/-- A readout that fails before the third in a row is counted and does no more. -/
theorem readoutFails_counts :
    readoutFails s i = { s with drm := { s.drm with tempFail := mput 0 s.drm.tempFail i (mget 0 s.drm.tempFail i + 1) } } := if_pos h

theorem tempFail_readoutFails : mget 0 (readoutFails s i).drm.tempFail i = mget 0 s.drm.tempFail i + 1 := by
  rw [readoutFails_counts h]
  exact mget_mput_self 0 s.drm.tempFail i (mget 0 s.drm.tempFail i + 1)

theorem readoutFails_regs : (readoutFails s i).regs = s.regs := by rw [readoutFails_counts h]

end

section
variable {s : State} {i : Fin 24} (hserves : diServes s i = true)
include hserves

theorem dramTempReadout_some (v : Fin 256) : dramTempReadout i (some v) s = readout s i v := if_neg (by simp [hserves])

theorem dramTempReadout_none : dramTempReadout i none s = readoutFails s i := if_neg (by simp [hserves])

end

/-! ## Pauses (R308, R311, R313, R314) -/

/-- The state before the pause of interface i begins: every bank whose refresh would fall due during it is refreshed. -/
def pauseRefreshed (s : State) (i : Nat) : State := (Config.pauseBanks i s.tick).foldl (fun a b => refreshBank a i b) s

theorem pauseRefreshed_regs (s : State) (i : Nat) : (pauseRefreshed s i).regs = s.regs := foldl_same State.regs _ (fun a b => refreshBank_regs a i b) _ s

theorem pauseBegin_begins {s : State} {i : Fin 24} (h : diState s i = 3) : pauseBegin i s = diPerf (diEnter (pauseRefreshed s i) i 4) i 4 1 := if_pos h

/-- A pause of interface i is over: it is counted, and its step runs no more. -/
def pauseOver (s : State) (i : Nat) : State := stepEnds (bump s (Reg.DRC_DI_CNT i 9)) 1 i

/-- What the end of a pause counts and remembers: a retraining that took is one from which the temperature moves (R311), and one that failed may be followed by a second (R314). -/
def pauseNoted (s : State) (i : Nat) (ok : Bool) : State :=
  { (if ok then pauseOver s i else bump (pauseOver s i) (Reg.DRC_DI_CNT i 11)) with drm := { s.drm with
      retryFail := if ok then s.drm.retryFail.filter (· != i) else i :: s.drm.retryFail.filter (· != i)
      tempAt := if ok && (mfind s.drm.tempAt i).isSome then mset s.drm.tempAt i (some (getF s (Reg.DRC_DI_STAT_TEMP i))) else s.drm.tempAt } }

section
variable (s : State) (i : Nat)

theorem rd_pauseOver (a : Nat) : rd (pauseOver s i) a = rd (bump s (Reg.DRC_DI_CNT i 9)) a := rfl

theorem rd_pauseNoted_true (a : Nat) : rd (pauseNoted s i true) a = rd (bump s (Reg.DRC_DI_CNT i 9)) a := rfl

theorem rd_pauseNoted_false (a : Nat) : rd (pauseNoted s i false) a = rd (bump (pauseOver s i) (Reg.DRC_DI_CNT i 11)) a := by
  rw [pauseNoted]
  rfl

theorem getF_pauseNoted_slice (i : Fin 24) (ok : Bool) :
    getF (pauseNoted s i ok) (Reg.PWR_SLICE_STAT_STATE (diSlice i)) = getF s (Reg.PWR_SLICE_STAT_STATE (diSlice i)) := by
  have hcnt (k : Nat) : (Reg.PWR_SLICE_STAT_STATE (diSlice i)).reg ≠ Reg.DRC_DI_CNT i k := sliceStat_ne_diCnt i k
  cases ok
  case true => rw [getF, rd_pauseNoted_true, rd_bump_ne _ _ _ (hcnt 9), ← getF]
  case false => rw [getF, rd_pauseNoted_false, rd_bump_ne _ _ _ (hcnt 11), rd_pauseOver, rd_bump_ne _ _ _ (hcnt 9), ← getF]

end

theorem regsBut_backInService (s : State) (i : Nat) : RegsBut [Reg.DRC_DI_STAT i, Reg.DRC_DI_CNT i 9] s (diEnter (pauseNoted s i true) i 2) := fun a ha => by
  obtain ⟨hstat, hcnt⟩ := not_or.mp (mt List.mem_cons.mpr ha)
  rw [diEnter, rd_setF_ne _ _ _ _ hstat, rd_pauseNoted_true, rd_bump_ne _ _ _ (List.ne_of_not_mem_cons hcnt)]

/-- The temperature moves from the last readout shown. -/
theorem tempAt_pauseNoted {s : State} {i : Nat} (hat : (mfind s.drm.tempAt i).isSome = true) :
    mget 0 (pauseNoted s i true).drm.tempAt i = getF s (Reg.DRC_DI_STAT_TEMP i) := by
  have hset : (pauseNoted s i true).drm.tempAt = mset s.drm.tempAt i (some (getF s (Reg.DRC_DI_STAT_TEMP i))) := if_pos (by rw [hat]; rfl)
  rw [hset, mget, mfind_mset_self]

theorem not_mem_retryFail_pauseNoted (s : State) (i : Nat) : i ∉ (pauseNoted s i true).drm.retryFail := fun h => by
  simpa using (List.mem_filter.mp h).2

/-- A pause ends back in service, and owes another when its retraining failed, unless it is the second failure in a row, the interface is to sleep, or its slice drains. -/
theorem pauseEnd_serves {s : State} {i : Fin 24} {ok : Bool} (hpaused : diState s i = 4) (hfirst : ok = true ∨ i.val ∉ s.drm.retryFail)
    (hawake : i.val ∉ s.drm.sleepAfter) (hslice : getF s (Reg.PWR_SLICE_STAT_STATE (diSlice i)) ≠ 2) :
    pauseEnd i ok s = if ok = true then diEnter (pauseNoted s i ok) i 2 else fallDue (diEnter (pauseNoted s i ok) i 2) 1 i := by
  rw [pauseEnd, if_neg (not_not_intro hpaused)]
  extract_lets s1 s2 again l at_ drm s3 _ s4
  have hdrm : s2.drm = s.drm := by cases ok <;> simp [s2, s1, stepEnds]
  have hs3 : s3 = pauseNoted s i ok := by
    simp only [s3, drm, l, at_, hdrm]
    rfl
  have hagain : ¬(!ok && again) = true := by simpa [again, hdrm, or_iff_not_imp_left] using hfirst
  have hstays : ¬s3.drm.sleepAfter.contains i.val = true := by simpa [hs3, pauseNoted] using hawake
  have hs4 : s4 = diEnter (pauseNoted s i ok) i 2 := by
    rw [← hs3]
    exact if_neg (by rwa [hs3, getF_pauseNoted_slice])
  have hback : diState s4 i = 2 := by rw [hs4, diState_diEnter]
  rw [if_neg hagain, if_neg hstays, hback, hs4]
  simp only [ne_eq, not_true_eq_false, or_false]

/-! ## Tests of free buffers (R321) -/

/-- A test that finds its buffer good is counted, and its step ends. -/
theorem dramTestStep_good {s : State} {i : Fin 24} {k : Fin 8} (hus : dramTestUs s ≠ 0) (hservice : diState s i = 2) (hfree : diUsed s i k < diSize s i k) :
    dramTestStep i k true s = bump (stepEnds s 3 i) (Reg.DRC_DI_CNT i 12) := by
  have hruns : ¬(dramTestUs s = 0 ∨ diState s i ≠ 2 ∨ diSize s i k ≤ diUsed s i k) := by simp [hus, hservice, hfree]
  rw [dramTestStep, if_neg hruns]
  rfl

/-! ## The statement -/

/-- Settles O49: each command by the branch that its hypotheses choose. -/
theorem dramInterfaces : Obligations.DramInterfaces := by
  unfold Obligations.DramInterfaces
  refine ⟨?training, ?refreshes, ?unrefreshed, ?readsOut, ?readsFirst, ?readFails, ?due, ?retrain, ?begins, ?retrained, ?untrained, ?tests⟩
  case training => exact fun s i ok h => ⟨_, rfl, dramTraining_ends h ok⟩
  case refreshes =>
    intro s i bank h
    have hkey : (refreshBank s i bank).drm.refreshed = mset s.drm.refreshed (64 * i.val + bank.val) (some s.tick) := by
      rw [refreshed_refreshBank, Nat.mod_eq_of_lt bank.isLt]
    refine ⟨refreshBank s i bank, congrArg Host.Outcome.next (dramRefresh_refreshes bank h), ?_, fun j hj => ?_, rd_congr (refreshBank_regs ..)⟩
    · rw [hkey, mfind_mset_self]
    · rw [hkey, mfind_mset_ne _ _ hj]
  case unrefreshed => exact fun s i bank h2 h3 h5 => ⟨_, rfl, dramRefresh_idle bank h2 h3 h5⟩
  case readsOut => exact fun s i v m hot a hserves hstep hat hm hhot => ⟨_, rfl, (dramTempReadout_some hserves v).trans (readout_noStep hm hhot hstep hat)⟩
  case readsFirst =>
    intro s i v m hot u hserves hat hm hhot hu
    refine ⟨_, rfl, ?_⟩
    rw [dramTempReadout_some hserves, readout_first hm hhot hat, hu]
    rfl
  case readFails =>
    intro s i hserves h
    refine ⟨_, rfl, ?_⟩
    rw [dramTempReadout_none hserves]
    exact ⟨tempFail_readoutFails h, readoutFails_regs h⟩
  case due =>
    intro s i hserves hdue
    refine ⟨_, rfl, ?_⟩
    rw [retrainDue_serves hserves]
    exact ⟨fallDue_due hdue, fallDue_regs ..⟩
  case retrain =>
    intro s i hopen hserves hdue
    refine ⟨_, rfl, ?_⟩
    rw [drcRetrain_serves hserves hopen]
    exact ⟨fallDue_due hdue, fallDue_regs ..⟩
  case begins =>
    intro s i h
    refine ⟨_, rfl, ?_⟩
    rw [pauseBegin_begins h, diPerf]
    refine ⟨?_, fun b hb => ?_, fun a ha => ?_⟩
    · exact (getF_congr (perfAdd_regs ..) _).trans (diState_diEnter ..)
    · rw [perfAdd_drm]
      exact mfind_foldl_refreshBank i b _ s (.inl hb)
    · rw [rd_perfAdd, regsBut_diEnter _ _ _ a ha, rd_congr (pauseRefreshed_regs ..)]
  case retrained =>
    intro s i hpaused hawake hat hslice
    have hend : pauseEnd i true s = diEnter (pauseNoted s i true) i 2 := pauseEnd_serves hpaused (.inl rfl) hawake hslice
    refine ⟨_, congrArg Host.Outcome.next hend, diState_diEnter .., isRunning_stepEnds .., ?_, not_mem_retryFail_pauseNoted s i, tempAt_pauseNoted hat,
      regsBut_backInService s i⟩
    rw [rd_diEnter_diCnt, rd_pauseNoted_true, rd_bump_self]
  case untrained =>
    intro s i hpaused hfirst hawake hslice
    have hend : pauseEnd i false s = fallDue (diEnter (pauseNoted s i false) i 2) 1 i := pauseEnd_serves hpaused (.inr hfirst) hawake hslice
    refine ⟨_, congrArg Host.Outcome.next hend, ?_, isDue_fallDue .., ?_, ?_⟩
    · exact (getF_congr (fallDue_regs ..) _).trans (diState_diEnter ..)
    · rw [rd_congr (fallDue_regs ..), rd_diEnter_diCnt, rd_pauseNoted_false, rd_bump_self, rd_pauseOver, rd_bump_ne _ _ _ (diCnt_ne_diCnt (by decide))]
    · rw [fallDue_drm]
      exact List.mem_cons_self
  case tests =>
    intro s i k hus hservice hfree
    refine ⟨_, rfl, ?_⟩
    rw [dramTestStep_good hus hservice hfree]
    exact ⟨isRunning_stepEnds .., rd_bump_self .., fun a ha => rd_bump_ne _ _ _ (List.ne_of_not_mem_cons ha)⟩

end Sys2Proof.Machine

/-! Lane tests, probe frames and the arming of memory injections (O31). -/

namespace Sys2Proof.Machine

theorem operOpen_of_run {s : State} (h : s.top = .run) : operOpen s = true := by simp [operOpen, h]

/-! ## Lane tests (R577 to R581) -/

section
variable {s : State} {x v : Nat} (hopen : operOpen s = true)
include hopen

/-- A setting that does not return the lane to normal operation: LOCK falls when the checker stops or changes pattern, and what is in the loopbacks is lost when LOOP changes. -/
theorem laneTestConfig_tests (hgen : bit v 0 = false ∨ bits v 6 2 ≠ 3) (hchk : bit v 3 = false ∨ bits v 6 2 ≠ 2) (htest : laneNormal v = false) :
    ∃ u w, u = (if bits v 3 3 = bits (rd s (Reg.TST_LANE_CFG x)).toNat 3 3 then wr s (Reg.TST_LANE_CFG x) (Word.ofNat (v % 256))
        else setB (wr s (Reg.TST_LANE_CFG x) (Word.ofNat (v % 256))) (Reg.TST_LANE_STAT_LOCK x) false) ∧
      w = (if bits v 6 2 = bits (rd s (Reg.TST_LANE_CFG x)).toNat 6 2 then u else laneLoopDrop u x) ∧
      laneTestConfig x v s = galFollow (settle s w) := by
  have htaken : ¬((bit v 0 && bits v 6 2 == 3) || (bit v 3 && bits v 6 2 == 2)) = true := by
    simp only [Bool.or_eq_true, Bool.and_eq_true, beq_iff_eq, not_or, not_and]
    exact ⟨fun h => hgen.resolve_left (by simp [h]), fun h => hchk.resolve_left (by simp [h])⟩
  refine ⟨_, _, rfl, rfl, ?_⟩
  rw [laneTestConfig, operWrite_open hopen, if_neg htaken]
  simp only [htest, Bool.false_and, Bool.false_eq_true, if_false]

/-- GEN_EN with SERIAL_FAR is refused (R581). -/
theorem laneTestConfig_refused (hgen : bit v 0 = true) (hloop : bits v 6 2 = 3) : laneTestConfig x v s = pwfTarget s (Reg.TST_LANE_CFG x) v := by
  rw [laneTestConfig, operWrite_open hopen, if_pos (by simp [hgen, hloop])]

end

section
variable {s : State} {x : Nat} (hacts : checkerActs s x = true)
include hacts

theorem checkerLockChange_locks : checkerLockChange x true s = setB s (Reg.TST_LANE_STAT_LOCK x) true := by simp [checkerLockChange, hacts]

variable (hlock : flag s (Reg.TST_LANE_STAT_LOCK x) = true)
include hlock

theorem checkerLockChange_unlocks :
    checkerLockChange x false s = setB (setB s (Reg.TST_LANE_STAT_LOCK x) false) (Reg.TST_LANE_STAT_LOCK_LOST x) true := by
  simp [checkerLockChange, hacts, hlock]

theorem checkerBitError_counts (n : Nat) : checkerBitError x n s = bumpN s (Reg.TST_LANE_ERR x) n := by simp [checkerBitError, hacts, hlock]

end

theorem checkerBitError_unlocked {s : State} {x : Nat} (hlock : flag s (Reg.TST_LANE_STAT_LOCK x) = false) (n : Nat) : checkerBitError x n s = s := by
  simp [checkerBitError, hlock]

/-! ## Probe frames (R582, R583, R356) -/

/-- A probe for a pipeline that there is not counts failed, and one for another is sent. -/
theorem probeGo_run {s : State} (h : s.top = .run) (v : Nat) :
    probeGo v s =
      if 20 ≤ bits (Nat.lor v 1) 1 5 then bump (setF s Reg.TST_PROBE_CTL_PIPE (bits (Nat.lor v 1) 1 5)) (Reg.TST_CNT 2)
      else probeSend false (setF s Reg.TST_PROBE_CTL_PIPE (bits (Nat.lor v 1) 1 5)) (bits (Nat.lor v 1) 1 5) := by
  simp [probeGo, operWrite_open (operOpen_of_run h), h]

theorem standbyProbe_sends {s : State} (hrun : s.top = .run) (hrole : role s = 2) (hus : getF s Reg.PAIR_STBY_CFG_PROBE_US ≠ 0) :
    standbyProbe s = (List.range 20).foldl (probeSend true) s := by
  simp [standbyProbe, hrun, hrole, hus]

theorem probeCapture_takes {s : State} {n q : Nat} {x : Probe} (h : s.tst.probes.find? (fun e => e.2.pipe == n && e.2.buf.isSome) = some (q, x)) (f : Bytes) :
    probeCapture n f s = if f = x.bytes then bump (probeEnd s q x) (Reg.TST_CNT 1) else probeFail (probeEnd s q x) x := by
  rw [probeCapture, h]

theorem probeCapture_none {s : State} {n : Nat} (h : s.tst.probes.find? (fun e => e.2.pipe == n && e.2.buf.isSome) = none) (f : Bytes) :
    probeCapture n f s = s := by
  rw [probeCapture, h]

theorem probeTimeout_takes {s : State} {n q : Nat} {x : Probe} (h : probeOf s n = some (q, x)) : probeTimeout n s = probeFail (probeEnd s q x) x := by
  rw [probeTimeout, h]

section
variable (s : State) {x : Probe}

theorem probeFail_own (hown : x.standby = false) : probeFail s x = bump s (Reg.TST_CNT 2) := by simp [probeFail, hown]

/-- A failed probe of a standby's own counts for the pair as well, and is reported (R356). -/
theorem probeFail_standby (hown : x.standby = true) :
    probeFail s x = report (bump { bump s (Reg.TST_CNT 2) with pair := { s.pair with probeFail := min 255 (s.pair.probeFail + 1) } } (Reg.PAIR_CNT 14))
      Src.probe (locSlice 0 x.pipe) x.pipe := by
  simp [probeFail, hown, bump]

variable (x)

theorem rd_probeFail_failed : rd (probeFail s x) (Reg.TST_CNT 2) = countWord (rd s (Reg.TST_CNT 2)) 1 := by
  cases hown : x.standby
  case false => rw [probeFail_own s hown, rd_bump_self]
  case true =>
    rw [probeFail_standby s hown, rd_report (by unfold OffReport; decide), rd_bump_ne _ _ _ (by decide)]
    exact rd_bump_self ..

theorem rd_probeFail_pair (hown : x.standby = true) : rd (probeFail s x) (Reg.PAIR_CNT 14) = countWord (rd s (Reg.PAIR_CNT 14)) 1 := by
  rw [probeFail_standby s hown, rd_report (by unfold OffReport; decide), rd_bump_self]
  exact congrArg (countWord · 1) (rd_bump_ne _ _ _ (by decide))

end

/-! ## The arming of memory injections (R584, R587) -/

section
variable {s : State} (hopen : operOpen s = true) (v : Nat)
include hopen

theorem memoryInjectArm_arms (hlc : s.boot.lc = .factory) (hnamed : scrNamed (rdPair s Reg.TST_MEMINJ_LOC_LO Reg.TST_MEMINJ_LOC_HI % 2 ^ 48) = true) :
    memoryInjectArm v s = setB (setF s Reg.TST_MEMINJ_CTL_MASK (Nat.lor v (2 ^ 8))) Reg.TST_MEMINJ_CTL_ARM (bit (Nat.lor v (2 ^ 8)) 8) := by
  rw [memoryInjectArm, operWrite_open hopen, meminjCtl]
  simp only [hlc, hnamed, Bool.not_true, Bool.and_false, Bool.false_and, Bool.or_false]
  rfl

theorem memoryInjectArm_refused (hlc : s.boot.lc ≠ .factory) : memoryInjectArm v s = pwfTarget s Reg.TST_MEMINJ_CTL (Nat.lor v (2 ^ 8)) := by
  rw [memoryInjectArm, operWrite_open hopen, meminjCtl, if_pos (by simp [hlc])]

end

/-! ## The statement -/

/-- Settles O31: each command in the state that takes it, by what its branch writes. -/
theorem laneTestsAndProbes : Obligations.LaneTestsAndProbes := by
  unfold Obligations.LaneTestsAndProbes
  refine ⟨?tests, ?refused, ?locks, ?unlocks, ?errors, ?unlocked, ?noPipe, ?goes, ?standby, ?intact, ?differs, ?nothing, ?lost, ?timeout, ?arms, ?field⟩
  case tests =>
    intro s x v hopen hgen hchk htest
    exact ⟨_, rfl, laneTestConfig_tests hopen hgen hchk htest⟩
  case refused => exact fun s x v hopen hgen hloop => ⟨_, rfl, laneTestConfig_refused hopen hgen hloop⟩
  case locks =>
    intro s x hacts
    refine ⟨_, congrArg Host.Outcome.next (checkerLockChange_locks hacts), flag_setB_self _ _ _ (show 0 + 1 ≤ 32 by decide) rfl, regsBut_setB (Reg.TST_LANE_STAT_LOCK x) true⟩
  case unlocks =>
    intro s x hacts hlock
    refine ⟨_, congrArg Host.Outcome.next (checkerLockChange_unlocks hacts hlock), ?_, flag_setB_self _ _ _ (show 1 + 1 ≤ 32 by decide) rfl, fun a ha => ?_⟩
    · have hbeside : 0 + 1 ≤ 1 := by decide
      rw [flag_setB_beside _ _ _ _ (show 0 + 1 ≤ 32 by decide) (.inr (.inl hbeside)), flag_setB_self _ _ _ (show 0 + 1 ≤ 32 by decide) rfl]
    · rw [rd_setB_ne _ _ _ _ (List.ne_of_not_mem_cons ha), rd_setB_ne _ _ _ _ (List.ne_of_not_mem_cons ha)]
  case errors =>
    intro s x n hacts hlock _
    exact ⟨_, congrArg Host.Outcome.next (checkerBitError_counts hacts hlock n), rd_bumpN .., regsBut_bumpN _ _ _⟩
  case unlocked => exact fun s x n hlock => ⟨_, rfl, checkerBitError_unlocked hlock n⟩
  case noPipe =>
    intro s v hrun hpipe
    refine ⟨_, congrArg Host.Outcome.next ((probeGo_run hrun v).trans (if_pos hpipe)), ?_, ?_, rfl⟩
    · rw [getF_bump_ne _ _ _ (by decide), getF_setF_self _ _ _ (by decide)]
      exact Nat.mod_mod ..
    · rw [rd_bump_self, rd_setF_ne _ _ _ _ (by decide)]
  case goes => exact fun s v hrun hpipe => ⟨_, rfl, (probeGo_run hrun v).trans (if_neg (Nat.not_le.mpr hpipe))⟩
  case standby => exact fun s hrun hrole hus => ⟨_, rfl, standbyProbe_sends hrun hrole hus⟩
  case intact => exact fun s n q x h => ⟨_, rfl, (probeCapture_takes h _).trans (if_pos rfl)⟩
  case differs =>
    intro s n q x f h hf
    exact ⟨_, congrArg Host.Outcome.next ((probeCapture_takes h f).trans (if_neg hf)), rfl, rd_probeFail_failed .., rd_probeFail_pair _ x⟩
  case nothing => exact fun s n f h => ⟨_, rfl, probeCapture_none h f⟩
  case lost =>
    intro s n q x h hown hbuf
    have hend : probeEnd s q x = probeGone s q := by rw [probeEnd, hbuf]
    have htimeout : probeTimeout n s = bump (probeGone s q) (Reg.TST_CNT 2) := by rw [probeTimeout_takes h, hend, probeFail_own _ hown]
    exact ⟨_, congrArg Host.Outcome.next htimeout, rd_bump_self .., mfind_merase_self .., regsBut_bumpN _ _ _⟩
  case timeout => exact fun s n q x h => ⟨_, congrArg Host.Outcome.next (probeTimeout_takes h), rfl, rd_probeFail_failed ..⟩
  case arms =>
    intro s v hopen hlc hnamed
    refine ⟨_, congrArg Host.Outcome.next (memoryInjectArm_arms hopen v hlc hnamed), flag_setB_self _ _ _ (by decide) rfl, ?_, fun a ha => ?_⟩
    · rw [setB, getF_setF_beside _ _ _ _ (by decide) (.inl (by decide)), getF_setF_self _ _ _ (by decide)]
      rfl
    · rw [rd_setB_ne _ _ _ _ (List.ne_of_not_mem_cons ha), rd_setF_ne _ _ _ _ (List.ne_of_not_mem_cons ha)]
  case field => exact fun s v hopen hlc => ⟨_, rfl, memoryInjectArm_refused hopen v (by rw [hlc]; decide)⟩

end Sys2Proof.Machine

/-! What follows a change of role or of the Gallery link leaves alone (R328, R340, R347, R350): the fields of the pair's registers beside those that a follow-up shows. -/

namespace Sys2Proof.Machine

/-! ## Fields beside each other -/

/-- Two fields share no bit. -/
abbrev Fld.Clear (f g : Fld) : Prop := f.reg ≠ g.reg ∨ f.lo + f.len ≤ g.lo ∨ g.lo + g.len ≤ f.lo

section
variable {s t : State} {f g : Fld}

theorem getF_setF_clear (hfits : f.lo + f.len ≤ 32) (h : f.Clear g) (n : Nat) : getF (setF s g n) f = getF s f := by
  rcases h with hreg | hbeside
  · exact getF_setF_reg s g f n hreg
  · exact getF_setF_beside s g f n hfits hbeside

theorem getF_setB_clear (hfits : f.lo + f.len ≤ 32) (h : f.Clear g) (b : Bool) : getF (setB s g b) f = getF s f := getF_setF_clear hfits h _

theorem flag_of_getF (h : getF t f = getF s f) : flag t f = flag s f := by rw [flag, h, flag]

end

/-! ## Levels, REPLAY and its request -/

/-- A field of the pair's registers other than the one that the pair's levels show, DUAL_ACTIVE. -/
abbrev Fld.OffLevels (f : Fld) : Prop := 0x1900000 ≤ f.reg ∧ f.lo + f.len ≤ 32 ∧ f.Clear Reg.PAIR_STAT_DUAL_ACTIVE

/-- A field that neither the levels nor the begin of a resynchronisation sets. -/
abbrev Fld.OffFollow (f : Fld) : Prop := f.OffLevels ∧ f.Clear Reg.PAIR_STAT_RESYNC_RUN

section
variable {s : State} {f : Fld} {b : Bool} {src loc d : Nat} (h : f.OffLevels)
include h

theorem Fld.OffLevels.offSettle : OffSettle f.reg := by
  have hpair : 0x1900000 ≤ f.reg := h.1
  unfold OffSettle
  omega

theorem getF_levelOn_pair : getF (levelOn s src loc d) f = getF s f := by rw [getF, rd_levelOn h.offSettle.offReport, ← getF]

theorem getF_levelIs_pair : getF (levelIs b s src loc d) f = getF s f := by rw [getF, rd_levelIs h.offSettle.offReport, ← getF]

theorem getF_pairShow : getF (pairShow s) f = getF s f := by
  obtain ⟨_, hfits, hdual⟩ := id h
  unfold pairShow
  dsimp only
  rw [getF_levelIs_pair h, getF_setB_clear hfits hdual, getF_levelIs_pair h, getF_levelIs_pair h, getF_levelIs_pair h, getF_levelIs_pair h]

end

theorem rd_pairShow (s : State) {a : Nat} (hoff : OffReport a) (h : a ≠ Reg.PAIR_STAT) : rd (pairShow s) a = rd s a := by
  unfold pairShow
  dsimp only
  rw [rd_levelIs hoff, rd_setB_ne _ _ _ _ h, rd_levelIs hoff, rd_levelIs hoff, rd_levelIs hoff, rd_levelIs hoff]

section
variable {s : State} {f : Fld} (h : f.OffFollow)
include h

theorem getF_replayStart : getF (replayStart s) f = getF s f := by
  obtain ⟨⟨_, hfits, _⟩, hrun⟩ := h
  exact getF_setB_clear hfits hrun true

theorem getF_resyncAsk : getF (resyncAsk s) f = getF s f := by
  obtain ⟨⟨_, hfits, _⟩, hrun⟩ := h
  unfold resyncAsk
  split
  · exact getF_setB_clear hfits hrun true
  · rfl

theorem getF_syncLost (hsync : f.Clear Reg.PAIR_STAT_SYNC) : getF (syncLost s) f = getF s f := by
  obtain ⟨hlevels, hrun⟩ := id h
  have hfits : f.lo + f.len ≤ 32 := hlevels.2.1
  unfold syncLost
  split
  · rw [getF_resyncAsk h, getF_pairShow hlevels, getF_setB_clear hfits hrun, getF_setB_clear hfits hsync]
  · rfl

end

theorem pairShow_pair (s : State) : (pairShow s).pair = s.pair := by simp [pairShow]

theorem pairShow_clk (s : State) : (pairShow s).clk = s.clk := by simp [pairShow]

theorem replayStart_pDigest (s : State) : (replayStart s).pair.pDigest = s.pair.pDigest := by rw [replayStart, setB_pair]

theorem resyncAsk_pDigest (s : State) : (resyncAsk s).pair.pDigest = s.pair.pDigest := by
  unfold resyncAsk
  split <;> rfl

theorem resyncAsk_clk (s : State) : (resyncAsk s).clk = s.clk := by
  unfold resyncAsk
  split <;> rfl

theorem syncLost_clk (s : State) : (syncLost s).clk = s.clk := by
  unfold syncLost
  split
  · rw [resyncAsk_clk, pairShow_clk, setB_clk, setB_clk]
  · rfl

/-! ## A change of role (Table 12-1) -/

section
variable {s t : State} {f : Fld} {r : Nat} {lease : Bool}

theorem relockRelease_none (hwait : t.clk.waiting = []) : relockRelease t = t := by
  unfold relockRelease
  rw [hwait]
  exact ite_self _

/-- The levels and transmitters that follow a role, with no relock that waits. -/
def roleShown (s t : State) : State := pairShow (settle s (waitShow t))

theorem roleFollow_noWait (hwait : t.clk.waiting = []) :
    roleFollow s t =
      if role (roleShown s t) == 1 && partnerIs (roleShown s t) 2 && !flag (roleShown s t) Reg.PAIR_STAT_RESYNC_RUN then replayStart (roleShown s t)
      else resyncAsk (roleShown s t) := by
  rw [roleFollow, relockRelease_none hwait]
  rfl

theorem getF_roleShown (h : f.OffLevels) : getF (roleShown s t) f = getF t f := by
  have hpair : 0x1900000 ≤ f.reg := h.1
  have hclk : f.reg ≠ Reg.CLK_STAT_RELOCK_WAIT.reg := fun e => absurd (e ▸ hpair) (by decide)
  rw [roleShown, getF_pairShow h, getF_settle _ _ h.offSettle, waitShow, getF_setB_reg _ _ _ _ hclk]

theorem roleShown_pair : (roleShown s t).pair = t.pair := by rw [roleShown, pairShow_pair, settle_pair, waitShow, setB_pair]

theorem getF_roleFollow (hwait : t.clk.waiting = []) (h : f.OffFollow) : getF (roleFollow s t) f = getF t f := by
  rw [roleFollow_noWait hwait]
  split
  · rw [getF_replayStart h, getF_roleShown h.1]
  · rw [getF_resyncAsk h, getF_roleShown h.1]

theorem roleFollow_pDigest (hwait : t.clk.waiting = []) : (roleFollow s t).pair.pDigest = t.pair.pDigest := by
  rw [roleFollow_noWait hwait]
  split
  · rw [replayStart_pDigest, roleShown_pair]
  · rw [resyncAsk_pDigest, roleShown_pair]

/-- The registers of the card as it takes a role, before what follows. -/
def roleTaken (s : State) (r : Nat) (lease : Bool) : State :=
  setF (setB (setB (setB (setF s Reg.PAIR_STAT_ROLE r) Reg.PAIR_STAT_SYNC false) Reg.PAIR_STAT_RESYNC_RUN false) Reg.PAIR_STAT_LEASE_VALID lease) Reg.PAIR_LAG_LAG 0

/-- A field that a role does not set. -/
abbrev Fld.OffRole (f : Fld) : Prop :=
  f.OffFollow ∧ f.Clear Reg.PAIR_STAT_ROLE ∧ f.Clear Reg.PAIR_STAT_SYNC ∧ f.Clear Reg.PAIR_STAT_LEASE_VALID ∧ f.Clear Reg.PAIR_LAG_LAG

variable (hwait : s.clk.waiting = [])
include hwait

theorem getF_roleEnter_taken (h : f.OffFollow) : getF (roleEnter s r lease) f = getF (roleTaken s r lease) f := getF_roleFollow hwait h

theorem getF_roleEnter (h : f.OffRole) : getF (roleEnter s r lease) f = getF s f := by
  obtain ⟨hfollow, hrole, hsync, hlease, hlag⟩ := h
  obtain ⟨⟨_, hfits, _⟩, hrun⟩ := id hfollow
  rw [getF_roleEnter_taken hwait hfollow, roleTaken, getF_setF_clear hfits hlag, getF_setB_clear hfits hlease, getF_setB_clear hfits hrun, getF_setB_clear hfits hsync,
    getF_setF_clear hfits hrole]

theorem flag_roleEnter_sync : flag (roleEnter s r lease) Reg.PAIR_STAT_SYNC = false := by
  have hshown : getF (roleEnter s r lease) Reg.PAIR_STAT_SYNC = getF (setB (setF s Reg.PAIR_STAT_ROLE r) Reg.PAIR_STAT_SYNC false) Reg.PAIR_STAT_SYNC := by
    rw [getF_roleEnter_taken hwait (by decide), roleTaken, getF_setF_clear (by decide) (by decide), getF_setB_clear (by decide) (by decide),
      getF_setB_clear (by decide) (by decide)]
  rw [flag_of_getF hshown, flag_setB_self _ _ _ (by decide) rfl]

theorem flag_roleEnter_lease : flag (roleEnter s r lease) Reg.PAIR_STAT_LEASE_VALID = lease := by
  rw [flag, getF_roleEnter_taken hwait (by decide), roleTaken, getF_setF_clear (by decide) (by decide), ← flag, flag_setB_self _ _ _ (by decide) rfl]

theorem roleEnter_pDigest : (roleEnter s r lease).pair.pDigest = s.pair.pDigest := roleFollow_pDigest hwait

end

/-! ## The Gallery link (R338, R340) -/

section
variable {s : State} {f : Fld}

theorem galEmpty_regs (s : State) (l : Nat) : (galEmpty s l).regs = s.regs := by
  unfold galEmpty
  split <;> rfl

theorem galEmpty_clk (s : State) (l : Nat) : (galEmpty s l).clk = s.clk := by
  unfold galEmpty
  split <;> rfl

/-- The state with the slip buffers of the lanes that are not RX_OK emptied. -/
def slipsEmptied (s : State) : State := (List.range 4).foldl galEmpty s

theorem slipsEmptied_regs : (slipsEmptied s).regs = s.regs := foldl_same State.regs _ galEmpty_regs _ s

theorem slipsEmptied_clk : (slipsEmptied s).clk = s.clk := foldl_same State.clk _ galEmpty_clk _ s

/-- Is GALLERY_UP to be 1: a lane is RX_OK, and the partner's HELLO is fresh (R340)? -/
def galIsUp (s : State) : Bool := !(galLanes s).isEmpty && s.pair.helloFresh

theorem galFollow_eq :
    galFollow s = if galIsUp s == flag s Reg.PAIR_STAT_GALLERY_UP then slipsEmptied s else if galIsUp s then galRise (slipsEmptied s) else galFall (slipsEmptied s) := rfl

theorem galRise_clk : (galRise s).clk = s.clk := by
  unfold galRise
  dsimp only
  rw [resyncAsk_clk]
  split <;> rfl

theorem galFall_clk : (galFall s).clk = s.clk := by
  unfold galFall
  dsimp only
  rw [syncLost_clk]
  exact levelOn_clk ..

theorem galFollow_clk (s : State) : (galFollow s).clk = s.clk := by
  rw [galFollow_eq]
  split
  · exact slipsEmptied_clk
  · split
    · rw [galRise_clk, slipsEmptied_clk]
    · rw [galFall_clk, slipsEmptied_clk]

variable (h : f.OffFollow)
include h

theorem getF_galRise (hup : f.Clear Reg.PAIR_STAT_GALLERY_UP) : getF (galRise s) f = getF s f := by
  have hfits : f.lo + f.len ≤ 32 := h.1.2.1
  unfold galRise
  dsimp only
  rw [getF_resyncAsk h]
  split
  · rw [getF_replayStart h, getF_levelOff, getF_setB_clear hfits hup]
  · rw [getF_levelOff, getF_setB_clear hfits hup]

/-- The fields beside SYNC as the link falls, GALLERY_UP among them. -/
theorem getF_galFall_up (hsync : f.Clear Reg.PAIR_STAT_SYNC) : getF (galFall s) f = getF (setB s Reg.PAIR_STAT_GALLERY_UP false) f := by
  obtain ⟨hlevels, hrun⟩ := id h
  have hfits : f.lo + f.len ≤ 32 := hlevels.2.1
  unfold galFall
  dsimp only
  rw [getF_syncLost h hsync]
  exact (getF_levelOn_pair hlevels).trans (getF_setB_clear hfits hrun _)

theorem getF_galFollow (hup : f.Clear Reg.PAIR_STAT_GALLERY_UP) (hsync : f.Clear Reg.PAIR_STAT_SYNC) : getF (galFollow s) f = getF s f := by
  have hempty : getF (slipsEmptied s) f = getF s f := getF_congr slipsEmptied_regs f
  rw [galFollow_eq]
  split
  · exact hempty
  · split
    · rw [getF_galRise h hup, hempty]
    · rw [getF_galFall_up h hsync, getF_setB_clear h.1.2.1 hup, hempty]

end

/-- GALLERY_UP is 0 after what follows when no HELLO is fresh. -/
theorem flag_galFollow_down {s : State} (h : s.pair.helloFresh = false) : flag (galFollow s) Reg.PAIR_STAT_GALLERY_UP = false := by
  have hdown : galIsUp s = false := by rw [galIsUp, h, Bool.and_false]
  rw [galFollow_eq, hdown]
  split
  case isTrue hsame => rw [flag_congr slipsEmptied_regs, ← eq_of_beq hsame]
  case isFalse =>
    rw [if_neg Bool.false_ne_true, flag_of_getF (getF_galFall_up (by decide) (by decide)), flag_setB_self _ _ _ (by decide) rfl]

end Sys2Proof.Machine

/-! The arbiter's messages, LEASE, STANDBY, SWITCH and WITHDRAW, by role (O40). -/

namespace Sys2Proof.Machine

/-! ## Messages that are taken (R329, R330, R332, R333) -/

/-- The card with a message of an EPOCH taken, before the message acts. -/
def landingTaken (s : State) (epoch : Nat) : State :=
  levelOff (setB (setF { s with pair := { s.pair with epochSeen := true } } Reg.PAIR_EPOCH_EPOCH epoch) Reg.PAIR_STAT_ARB_OK true) Src.arbLost

section
variable {s : State} {sync typ body crc : Nat}

/-- The steps that a whole message passes (R329, R330, R337). -/
theorem landing_whole :
    landing sync typ body crc true s =
      if !powered s || role s == 0 || arbPolar s Reg.PAIR_LINK_CFG_ARB_RX_INV 16 sync != 0xF0C5 then s
      else if !true || crc8 (beBytes 7 (typ * 2 ^ 48 + landingBody s body)) != arbPolar s Reg.PAIR_LINK_CFG_ARB_RX_INV 8 crc then landingBad s 0
      else if typ < 2 ∨ 5 < typ then landingBad s 1
      else if bits (landingBody s body) 24 24 ≠ s.otp.serial % 2 ^ 24 then landingBad s 2
      else landingCurrent s typ (landingBody s body) := by
  unfold landing landingBody
  rfl

/-- A message that is taken, is not refused in the card's role and has its reserved bits 0 acts. -/
theorem landing_takes (h : LandingTakes s sync typ body crc) (htyp : 2 ≤ typ ∧ typ ≤ 5) (hok : roleAccepts s typ = true)
    (hres : typ = 5 ∨ bits (landingBody s body) 0 8 = 0) :
    landing sync typ body crc true s =
      roleMessage (landingTaken s (bits (landingBody s body) 8 16)) typ (bits (landingBody s body) 8 16) (bits (landingBody s body) 0 8) := by
  obtain ⟨hpow, hrole, hsync, hcrc, htag, hepoch⟩ := h
  have hmsg : ¬(!powered s || role s == 0 || arbPolar s Reg.PAIR_LINK_CFG_ARB_RX_INV 16 sync != 0xF0C5) = true := by simp [hpow, hrole, hsync]
  have hwhole : ¬(!true || crc8 (beBytes 7 (typ * 2 ^ 48 + landingBody s body)) != arbPolar s Reg.PAIR_LINK_CFG_ARB_RX_INV 8 crc) = true := by
    rw [hcrc, bne_self_eq_false]
    decide
  have hcurrent : ¬((s.pair.epochSeen || !roleAccepts s typ) &&
      decide (32767 < (bits (landingBody s body) 8 16 + 65536 - getF s Reg.PAIR_EPOCH_EPOCH) % 65536)) = true := by
    simp only [hok, Bool.not_true, Bool.or_false, Bool.and_eq_true, decide_eq_true_eq, not_and, not_lt]
    exact hepoch
  have hclean : ¬(typ ≠ 5 ∧ bits (landingBody s body) 0 8 ≠ 0) := fun ⟨h5, h0⟩ => hres.elim h5 h0
  rw [landing_whole, if_neg hmsg, if_neg hwhole, if_neg (by omega), if_neg (not_not_intro htag), landingCurrent]
  dsimp only
  rw [if_neg hcurrent, if_neg hclean, hok, Bool.or_true]
  rfl

/-- A message with a wrong CRC-8 counts, and nothing else (R337). -/
theorem landing_wrongCrc (hpow : powered s = true) (hrole : role s ≠ 0) (hsync : arbPolar s Reg.PAIR_LINK_CFG_ARB_RX_INV 16 sync = 0xF0C5)
    (hcrc : crc8 (beBytes 7 (typ * 2 ^ 48 + landingBody s body)) ≠ arbPolar s Reg.PAIR_LINK_CFG_ARB_RX_INV 8 crc) :
    landing sync typ body crc true s = landingBad s 0 := by
  have hmsg : ¬(!powered s || role s == 0 || arbPolar s Reg.PAIR_LINK_CFG_ARB_RX_INV 16 sync != 0xF0C5) = true := by simp [hpow, hrole, hsync]
  rw [landing_whole, if_neg hmsg, if_pos (Bool.or_eq_true_iff.mpr (.inr (bne_iff_ne.mpr hcrc)))]

end

section
variable {s : State} {f : Fld} {e : Nat}

/-- A field that a message taken does not write. -/
abbrev Fld.OffLanding (f : Fld) : Prop := f.lo + f.len ≤ 32 ∧ f.Clear Reg.PAIR_EPOCH_EPOCH ∧ f.Clear Reg.PAIR_STAT_ARB_OK

theorem getF_landingTaken (h : f.OffLanding) : getF (landingTaken s e) f = getF s f := by
  obtain ⟨hfits, hepoch, harb⟩ := h
  rw [landingTaken, getF_levelOff, getF_setB_clear hfits harb, getF_setF_clear hfits hepoch]
  rfl

theorem flag_landingTaken_arbOk : flag (landingTaken s e) Reg.PAIR_STAT_ARB_OK = true := by
  rw [landingTaken, flag_levelOff, flag_setB_self _ _ _ (by decide) rfl]

theorem getF_landingTaken_epoch (he : e < 2 ^ 16) : getF (landingTaken s e) Reg.PAIR_EPOCH_EPOCH = e := by
  rw [landingTaken, getF_levelOff, getF_setB_clear (by decide) (by decide), getF_setF_self _ _ _ (by decide)]
  exact Nat.mod_eq_of_lt he

theorem role_landingTaken : role (landingTaken s e) = role s := getF_landingTaken (by decide)

end

/-! ## Role messages by role (Table 12-3) -/

section
variable {s : State} {e r : Nat}

theorem roleMessage_renew (h : role s = 1) : roleMessage s 2 e r = pairShow (setB s Reg.PAIR_STAT_LEASE_VALID true) := by simp only [roleMessage, h]

theorem roleMessage_lease (h : role s = 3) : roleMessage s 2 e r = landingAck (roleEnter s 1 true) 2 e 0 := by simp only [roleMessage, h]

theorem roleMessage_standby (h : role s = 3) (hmm : flag s Reg.PAIR_STAT_DIGEST_MM = false) :
    roleMessage s 3 e r = digestCheck (landingAck (roleEnter s 2 false) 3 e 0) := by
  simp only [roleMessage, h, hmm, Bool.false_eq_true, if_false]

/-- The registers of a standby that a SWITCH makes ACTIVE, before its role: STALE when it was not synchronised, and its SEQ going on from what it applied (R335, R354). -/
def switched (s : State) : State :=
  let s1 := if flag s Reg.PAIR_STAT_SYNC then s else setB s Reg.PAIR_STAT_STALE true
  setF s1 Reg.PAIR_SEQ_TX_SEQ (getF s1 Reg.PAIR_SEQ_APPLIED_SEQ)

/-- A switched card acknowledges its EPOCH, and the switch-over gap runs (R353). -/
def switchGapBegins (s : State) (epoch : Nat) : State :=
  { switched s with pair := { (switched s).pair with swAck := some epoch, gap := some (s.tick + min 512 Config.switchGap) } }

theorem roleMessage_switch (h : role s = 2) : roleMessage s 4 e r = landingAck (roleEnter (switchGapBegins s e) 1 false) 4 e 0 := by
  simp only [roleMessage, h]
  rfl

theorem roleMessage_withdraw (h : role s = 1 ∨ role s = 2) :
    roleMessage s 5 e r = landingAck (withdrawNow (setF s Reg.PAIR_EPOCH_REASON r) 1) 5 e 0 := by
  rcases h with h | h <;> simp only [roleMessage, h]

/-- An answer leaves every register alone. -/
theorem getF_landingAck (typ status : Nat) (f : Fld) : getF (landingAck s typ e status) f = getF s f :=
  getF_congr (by rw [landingAck, landingSend]) f

theorem flag_landingAck (typ status : Nat) (f : Fld) : flag (landingAck s typ e status) f = flag s f := flag_of_getF (getF_landingAck ..)

theorem pDigest_arbPut (s : State) (msg wire : Nat) : ({ s with pair := { s.pair with arbTx := msg, arbWire := wire } } : State).pair.pDigest = s.pair.pDigest := rfl

theorem landingAck_pDigest (typ status : Nat) : (landingAck s typ e status).pair.pDigest = s.pair.pDigest := by
  unfold landingAck landingSend
  exact pDigest_arbPut ..

theorem digestCheck_none (h : s.pair.pDigest = none) : digestCheck s = s := by rw [digestCheck, h]

theorem clk_switchGapBegins : (switchGapBegins s e).clk = s.clk := by
  show (switched s).clk = s.clk
  unfold switched
  dsimp only
  split
  · rfl
  · rfl

theorem getF_switchGapBegins {f : Fld} (hfits : f.lo + f.len ≤ 32) (hstale : f.Clear Reg.PAIR_STAT_STALE) (htx : f.Clear Reg.PAIR_SEQ_TX_SEQ) :
    getF (switchGapBegins s e) f = getF s f := by
  show getF (switched s) f = getF s f
  unfold switched
  dsimp only
  rw [getF_setF_clear hfits htx]
  split
  · rfl
  · exact getF_setB_clear hfits hstale true

theorem getF_switchGapBegins_seq : getF (switchGapBegins s e) Reg.PAIR_SEQ_TX_SEQ = getF s Reg.PAIR_SEQ_APPLIED_SEQ := by
  show getF (switched s) Reg.PAIR_SEQ_TX_SEQ = _
  unfold switched
  dsimp only
  rw [getF_setF_self _ _ _ (by decide)]
  split
  · exact Nat.mod_eq_of_lt (getF_lt ..)
  · rw [getF_setB_reg _ _ _ _ (by decide)]
    exact Nat.mod_eq_of_lt (getF_lt ..)

theorem flag_switchGapBegins_stale (h : flag s Reg.PAIR_STAT_SYNC = false) : flag (switchGapBegins s e) Reg.PAIR_STAT_STALE = true := by
  show flag (switched s) Reg.PAIR_STAT_STALE = true
  unfold switched
  dsimp only
  rw [h, if_neg Bool.false_ne_true]
  exact (flag_of_getF (getF_setF_reg _ _ _ _ (by decide))).trans (flag_setB_self _ _ _ (by decide) rfl)

end

/-! ## The statement -/

/-- An EPOCH is a field of 16 bits. -/
theorem epoch_lt (n : Nat) : bits n 8 16 < 2 ^ 16 := Nat.mod_lt _ (by decide)

/-- Settles O40: each message by its answer in the card's role, read through what the role is followed by. -/
theorem arbiterMessages : Obligations.ArbiterMessages := by
  unfold Obligations.ArbiterMessages
  refine ⟨?renews, ?wrongCrc, ?leases, ?stands, ?switches, ?withdraws⟩
  case renews =>
    intro s sync body crc h hres hrole
    have hok : roleAccepts s 2 = true := by simp [roleAccepts, hrole]
    have hrenew := (landing_takes h (by decide) hok (.inr hres)).trans (roleMessage_renew (role_landingTaken.trans hrole))
    refine ⟨_, congrArg Host.Outcome.next hrenew, ?_, ?_, ?_, ?_⟩
    · rw [flag_of_getF (getF_pairShow (by decide)), flag_setB_self _ _ _ (by decide) rfl]
    · rw [flag_of_getF (getF_pairShow (by decide)), flag_of_getF (getF_setB_clear (by decide) (by decide) _), flag_landingTaken_arbOk]
    · rw [getF_pairShow (by decide), getF_setB_clear (by decide) (by decide), getF_landingTaken_epoch (epoch_lt _)]
    · rw [role_pairShow, role_setB_beside _ _ _ (.inr (by decide)), role_landingTaken, hrole]
  case wrongCrc =>
    intro s sync typ body crc hpow hrole hsync hcrc
    refine ⟨_, congrArg Host.Outcome.next (landing_wrongCrc hpow hrole hsync hcrc), ?_, ?_, ?_, ?_⟩
    · rw [landingBad, rd_report (by unfold OffReport; decide), rd_bump_self]
    · rw [landingBad, rd_report (by unfold OffReport; decide), rd_bump_ne _ _ _ (by decide)]
    · rw [landingBad, rd_report (by unfold OffReport; decide), rd_bump_ne _ _ _ (by decide)]
    · rw [landingBad, report_pair, bump_pair]
  case leases =>
    intro s sync body crc h hres hrole hwait
    have hwait' : (landingTaken s (bits (landingBody s body) 8 16)).clk.waiting = [] := hwait
    have hok : roleAccepts s 2 = true := by simp [roleAccepts, hrole]
    have hlease := (landing_takes h (by decide) hok (.inr hres)).trans (roleMessage_lease (role_landingTaken.trans hrole))
    refine ⟨_, congrArg Host.Outcome.next hlease, ?_, ?_, rfl⟩
    · rw [role_landingAck, role_roleEnter _ _ _ (by decide) hwait']
    · rw [flag_landingAck, flag_roleEnter_lease hwait']
  case stands =>
    intro s sync body crc h hres hrole hmm hdigest hwait
    have hwait' : (landingTaken s (bits (landingBody s body) 8 16)).clk.waiting = [] := hwait
    have hok : roleAccepts s 3 = true := by simp [roleAccepts, hmm]
    have hmm' : flag (landingTaken s (bits (landingBody s body) 8 16)) Reg.PAIR_STAT_DIGEST_MM = false :=
      (flag_of_getF (getF_landingTaken (by decide))).trans hmm
    have hstandby := (landing_takes h (by decide) hok (.inr hres)).trans (roleMessage_standby (role_landingTaken.trans hrole) hmm')
    rw [digestCheck_none ((landingAck_pDigest ..).trans ((roleEnter_pDigest hwait').trans hdigest))] at hstandby
    refine ⟨_, congrArg Host.Outcome.next hstandby, ?_, ?_, ?_, ?_⟩
    · rw [role_landingAck, role_roleEnter _ _ _ (by decide) hwait']
    · rw [flag_landingAck, flag_roleEnter_sync hwait']
    · rw [flag_landingAck, flag_of_getF (getF_roleEnter hwait' (by decide)), flag_landingTaken_arbOk]
    · rw [getF_landingAck, getF_roleEnter hwait' (by decide), getF_landingTaken_epoch (epoch_lt _)]
  case switches =>
    intro s sync body crc h hres hrole hwait
    have hok : roleAccepts s 4 = true := by simp [roleAccepts, hrole]
    have hswitch := (landing_takes h (by decide) hok (.inr hres)).trans (roleMessage_switch (role_landingTaken.trans hrole))
    have hclk := clk_switchGapBegins (s := landingTaken s (bits (landingBody s body) 8 16)) (e := bits (landingBody s body) 8 16)
    have hwait' := (congrArg ClkSt.waiting hclk).trans hwait
    refine ⟨_, congrArg Host.Outcome.next hswitch, ?_, ?_, ?_, fun hsync => ?_⟩
    · rw [role_landingAck, role_roleEnter _ _ _ (by decide) hwait']
    · rw [flag_landingAck, flag_of_getF (getF_roleEnter hwait' (by decide)), flag_of_getF (getF_switchGapBegins (by decide) (by decide) (by decide)), flag_landingTaken_arbOk]
    · rw [getF_landingAck, getF_roleEnter hwait' (by decide), getF_switchGapBegins_seq, getF_landingTaken (by decide)]
    · have hsync' := (flag_of_getF (getF_landingTaken (e := bits (landingBody s body) 8 16) (by decide))).trans hsync
      rw [flag_landingAck, flag_of_getF (getF_roleEnter hwait' (by decide)), flag_switchGapBegins_stale hsync']
  case withdraws =>
    intro s sync body crc h hrole hwait
    have hwait' : (setF (setF (landingTaken s (bits (landingBody s body) 8 16)) Reg.PAIR_EPOCH_REASON (bits (landingBody s body) 0 8)) Reg.PAIR_STAT_WD_REASON 1).clk.waiting = [] := hwait
    have hok : roleAccepts s 5 = true := rfl
    have hrole' : role (landingTaken s (bits (landingBody s body) 8 16)) = 1 ∨ role (landingTaken s (bits (landingBody s body) 8 16)) = 2 := by
      rwa [role_landingTaken]
    have hwithdraw := (landing_takes h (by decide) hok (.inl rfl)).trans (roleMessage_withdraw hrole')
    refine ⟨_, congrArg Host.Outcome.next hwithdraw, ?_, ?_, ?_, ?_⟩
    · rw [role_landingAck, withdrawNow, role_roleEnter _ _ _ (by decide) hwait']
    · rw [getF_landingAck, withdrawNow, getF_roleEnter hwait' (by decide), getF_setF_self _ _ _ (by decide)]
      rfl
    · rw [getF_landingAck, withdrawNow, getF_roleEnter hwait' (by decide), getF_setF_reg _ _ _ _ (by decide), getF_setF_self _ _ _ (by decide)]
      exact Nat.mod_mod ..
    · rw [getF_landingAck, withdrawNow, getF_roleEnter hwait' (by decide), getF_setF_reg _ _ _ _ (by decide), getF_setF_clear (by decide) (by decide),
        getF_landingTaken_epoch (epoch_lt _)]

end Sys2Proof.Machine

/-! What a card of a pair sends, and the losses of the arbiter and of the Gallery link (O41). -/

namespace Sys2Proof.Machine

/-! ## The arbiter and the lease (R332, R334) -/

section
variable {s : State}

theorem arbLoss_loses (hrole : role s ≠ 0) (harb : flag s Reg.PAIR_STAT_ARB_OK = true) :
    arbLoss s = levelOn (setB s Reg.PAIR_STAT_ARB_OK false) Src.arbLost landingLoc 0 := by
  simp [arbLoss, hrole, harb]

theorem leaseExpire_ends (hrole : role s = 1) (hlease : flag s Reg.PAIR_STAT_LEASE_VALID = true) :
    leaseExpire s = pairShow (setB s Reg.PAIR_STAT_LEASE_VALID false) := by
  simp [leaseExpire, hrole, hlease]

end

/-! ## Messages to the arbiter (R331, R531, Table 12-2) -/

/-- The BODY of a HEALTH message. -/
def healthBody (s : State) : Nat :=
  b2n (flag s Reg.PAIR_STAT_SYNC) * 2 ^ 47 + b2n (!flag s Reg.PAIR_STAT_DIGEST_MM) * 2 ^ 46 + b2n (flag s Reg.PAIR_STAT_GALLERY_UP) * 2 ^ 45 +
    b2n (flag s Reg.PAIR_STAT_ARB_OK) * 2 ^ 44 + maxSev s * 2 ^ 41 + s.pair.probeFail * 2 ^ 32 + s.pair.memFail * 2 ^ 24 + s.pair.margin * 2 ^ 16 + s.pair.lagPeak

theorem healthSend_sends {s : State} (hrole : role s ≠ 0) :
    healthSend s = landingSend { s with pair := { s.pair with probeFail := 0, memFail := 0, lagPeak := getF s Reg.PAIR_LAG_LAG } } 6 (healthBody s) :=
  if_neg (mt eq_of_beq hrole)

theorem helloSend_lowSerial {s : State} (hrole : role s ≠ 0) (hpart : s.pair.helloPart = 1) :
    helloSend s = landingSend { s with pair := { s.pair with helloPart := 2 } } 1
      (1 * 2 ^ 46 + role s * 2 ^ 44 + b2n (flag s Reg.PAIR_STAT_SYNC) * 2 ^ 43 + s.otp.serial % 2 ^ 32) := by
  rw [helloSend, if_neg (mt eq_of_beq hrole), hpart]
  rfl

theorem faultMsgSend_sends {s : State} {src slice die : Nat} {rest : List (Nat × Nat × Nat)} (h : s.flt.msgs = (src, slice, die) :: rest) :
    faultMsgSend s = landingFault { s with flt := { s.flt with msgs := rest } } src slice die := by
  rw [faultMsgSend, h]

/-! ## HELLO on the Gallery link (R340, R341, R349, Table 12-7) -/

/-- The HELLO that a card sends on the Gallery link. -/
def ownHello (s : State) : GalHello :=
  { serial := s.otp.serial, role := role s, cardId := getF s Reg.PAIR_CFG_CARD_ID, digest := ownDigest s, alt := helloAlt s, applied := getF s Reg.PAIR_SEQ_APPLIED_SEQ,
    epoch := getF s Reg.PAIR_EPOCH_EPOCH }

theorem galleryHelloSend_sends {s : State} (hruns : galRuns s = true) (hrole : role s ≠ 0) :
    galleryHelloSend s = galControl { s with pair := { s.pair with helloTx := some (ownHello s) } } (helloBody (ownHello s)) := by
  simp only [galleryHelloSend, hruns, beq_false_of_ne hrole]
  rfl

/-- A digest that is compared leaves the partner's role alone. -/
theorem partnerRole_digestCheck {s : State} (hwait : s.clk.waiting = []) : getF (digestCheck s) Reg.PAIR_STAT_PARTNER_ROLE = getF s Reg.PAIR_STAT_PARTNER_ROLE := by
  unfold digestCheck
  split
  · rfl
  · split
    · have hwait' : (setF (setB s Reg.PAIR_STAT_DIGEST_MM true) Reg.PAIR_STAT_WD_REASON 2).clk.waiting = [] := hwait
      rw [withdrawNow, getF_roleEnter hwait' (by decide), getF_setF_clear (by decide) (by decide), getF_setB_clear (by decide) (by decide)]
    · split
      · rw [getF_pairShow (by decide), getF_setB_clear (by decide) (by decide)]
      · rfl

/-- The card with a HELLO of its partner taken, before what follows. -/
def helloTaken (s : State) (partner : Nat) (digest : Bytes) (alt : Option Bytes) : State :=
  setF { s with pair := { s.pair with pDigest := some digest, pAlt := alt, helloFresh := true } } Reg.PAIR_STAT_PARTNER_ROLE partner

theorem partnerRole_galleryHelloReceive {s : State} {partner : Nat} (hpartner : partner < 4) (digest : Bytes) (alt : Option Bytes) (resync : Bool)
    (hruns : galRuns s = true) (hrole : role s ≠ 0) (hlanes : (galLanes s).isEmpty = false) (hwait : s.clk.waiting = []) :
    getF (galleryHelloReceive partner digest alt resync s) Reg.PAIR_STAT_PARTNER_ROLE = partner := by
  have htakes : ¬(!galRuns s || role s == 0 || (galLanes s).isEmpty) = true := by simp [hruns, hrole, hlanes]
  have hwait' : (galFollow (helloTaken s partner digest alt)).clk.waiting = [] := by rw [galFollow_clk]; exact hwait
  have htaken : getF (pairShow (digestCheck (galFollow (helloTaken s partner digest alt)))) Reg.PAIR_STAT_PARTNER_ROLE = partner := by
    rw [getF_pairShow (by decide), partnerRole_digestCheck hwait', getF_galFollow (by decide) (by decide) (by decide), helloTaken, getF_setF_self _ _ _ (by decide)]
    exact Nat.mod_eq_of_lt hpartner
  rw [galleryHelloReceive, if_neg htakes]
  dsimp only
  rw [getF_resyncAsk (by decide)]
  split
  · rw [getF_replayStart (by decide)]
    exact htaken
  · exact htaken

/-! ## Margins and Gallery lanes (R338, R356) -/

theorem marginMeasure_keepsLowest {s : State} (hrole : role s = 2) (hms : getF s Reg.PAIR_STBY_CFG_MARGIN_MS ≠ 0) (l : List Nat) :
    marginMeasure l s = { s with pair := { s.pair with margin := (l.map (min 255)).foldl min 255 } } := by
  simp [marginMeasure, hrole, hms]

theorem galleryLaneCalibration_ends {s : State} {l : Fin 4} (hbringup : s.top = .bringup) (hruns : galRuns s = true)
    (hen : bit (getF s Reg.PAIR_CFG_GAL_LANE_EN) l = true) (ok : Bool) :
    galleryLaneCalibration l ok s =
      if ok && rcalOk s 1 then galFollow { s with pair := { s.pair with galUp := l :: s.pair.galUp.erase l } } else galFollow (galLaneOut s l) := by
  simp [galleryLaneCalibration, hbringup, hruns, hen]

/-! ## The statement -/

/-- Settles O41: each command by the branch that its hypotheses choose. -/
theorem pairMessagesSentAndLost : Obligations.PairMessagesSentAndLost := by
  unfold Obligations.PairMessagesSentAndLost
  refine ⟨?arbLost, ?expires, ?health, ?hello, ?fault, ?galHello, ?partner, ?galLost, ?margin, ?laneOut, ?laneUp⟩
  case arbLost =>
    intro s hrole harb
    refine ⟨_, congrArg Host.Outcome.next (arbLoss_loses hrole harb), ?_, cause_levelOn, ?_, ?_⟩
    · rw [flag_of_getF (getF_levelOn_pair (by decide)), flag_setB_self _ _ _ (by decide) rfl]
    · rw [role, getF_levelOn_pair (by decide)]
      exact role_setB_beside _ _ _ (.inr (by decide))
    · rw [flag_of_getF (getF_levelOn_pair (by decide)), flag_of_getF (getF_setB_clear (by decide) (by decide) _)]
  case expires =>
    intro s hrole hlease
    refine ⟨_, congrArg Host.Outcome.next (leaseExpire_ends hrole hlease), ?_, ?_, ?_⟩
    · rw [flag_of_getF (getF_pairShow (by decide)), flag_setB_self _ _ _ (by decide) rfl]
    · rw [role_pairShow, role_setB_beside _ _ _ (.inr (by decide)), hrole]
    · rw [flag_of_getF (getF_pairShow (by decide)), flag_of_getF (getF_setB_clear (by decide) (by decide) _)]
  case health => exact fun s hrole => ⟨_, rfl, healthBody s, healthSend_sends hrole, rfl⟩
  case hello => exact fun s hrole hpart => ⟨_, rfl, _, helloSend_lowSerial hrole hpart, rfl⟩
  case fault => exact fun s src slice die rest h => ⟨_, rfl, faultMsgSend_sends h⟩
  case galHello => exact fun s hruns hrole => ⟨_, congrArg Host.Outcome.next (galleryHelloSend_sends hruns hrole), rfl, rfl⟩
  case partner =>
    exact fun s p d alt re hruns hrole hlanes hwait => ⟨_, rfl, partnerRole_galleryHelloReceive p.isLt d alt re hruns hrole hlanes hwait⟩
  case galLost => exact fun s => ⟨_, rfl, flag_galFollow_down rfl⟩
  case margin => exact fun s l hrole hms => ⟨_, rfl, marginMeasure_keepsLowest hrole hms l⟩
  case laneOut => exact fun s l hbringup hruns hen => ⟨_, rfl, galleryLaneCalibration_ends hbringup hruns hen false⟩
  case laneUp =>
    intro s l hbringup hruns hen hcal
    refine ⟨_, rfl, (galleryLaneCalibration_ends hbringup hruns hen true).trans (if_pos ?_)⟩
    rw [hcal, Bool.and_true]

end Sys2Proof.Machine

/-! Mirrored commands, state records, baselines and resynchronisation (O42). -/

namespace Sys2Proof.Machine

/-! ## Mirrored writes of the tenants' registers (R342, R345, R351) -/

/-- A write of FTB_TENANT_AGE or FTB_TENANT_LIMIT that is mirrored stores the bits that the row lets a write change. -/
theorem mirroredAct_tenant {s : State} {a : Nat} {r : RegRow} (hlo : 0x0C01000 ≤ a) (hhi : a < 0x0C01800) (hrow : regRow a = some r) (v : Nat) :
    mirroredAct s a v = writeRw s a v r.rw := by
  have hport : (List.range 160).find? (fun p => a == Reg.LIN_PORT_CTL p) = none := by
    simp only [List.find?_eq_none, List.mem_range, beq_iff_eq, Reg.LIN_PORT_CTL]
    omega
  have hgate : (List.range 160).find? (fun p => a == Reg.SCH_GATE_CTL p) = none := by
    simp only [List.find?_eq_none, List.mem_range, beq_iff_eq, Reg.SCH_GATE_CTL]
    omega
  have hprot : a ≠ Reg.FAB_PROT_CTL := by
    unfold Reg.FAB_PROT_CTL
    omega
  rw [mirroredAct, hport, hgate]
  dsimp only
  rw [if_neg hprot, hrow]

/-- During a resynchronisation an item is applied as it comes. -/
theorem cmdItemApply_resync {s : State} (hrole : role s = 2) (hrun : flag s Reg.PAIR_STAT_RESYNC_RUN = true) (q : Nat) (x : CmdItem) :
    cmdItemApply (some (q, x)) s = perf (itemApply (setF { s with pair := { s.pair with rxSeq := q } } Reg.PAIR_SEQ_APPLIED_SEQ q) x) 84 6 := by
  simp [cmdItemApply, hrole, hrun]

theorem itemApply_reg {s : State} {a : Nat} (h : mirroredReg a = true) (f v : Nat) : itemApply s (.reg f a v) = mirroredAct s a v := by rw [itemApply, if_pos h]

/-! ## NACK and ACK (R342, R350, R351) -/

section
variable {s : State} {q : Nat} (hrole : role s = 1) (hpartner : partnerIs s 2 = true)
include hrole hpartner

theorem nackReceive_active (replay : Bool) :
    nackReceive q replay s =
      if replay then replayAgain s q else if (mfind s.pair.replay q).isSome then { s with pair := { s.pair with nextSend := q } } else replayStart s := by
  simp [nackReceive, hrole, hpartner]

theorem ackStall_outstanding (h : s.pair.acked ≠ getF s Reg.PAIR_SEQ_TX_SEQ) : ackStall s = { s with pair := { s.pair with nextSend := cmdAfter s.pair.acked } } := by
  simp [ackStall, hrole, hpartner, h]

end

/-! ## Snapshots (R347) -/

theorem recordCells_one (stream seq : Nat) (f : Nat → List Nat) : recordCells stream seq 1 f = [{ stream := stream, seq := seq, body := f 0 }] := by
  simp [recordCells, ceilDiv, upFrom]

/-- A snapshot with nothing touched holds the WRED generator alone. -/
theorem stateSnapshot_untouched {s : State} (hruns : deltaRuns s = true) (hdue : s.pair.due = []) :
    stateSnapshot s =
      galQueue { s with pair := { s.pair with due := [], snap := (s.pair.snap + 1) % 2 ^ 32 } } 3 [{ stream := 3, seq := s.pair.snap, body := [0, s.qd.wredGen] }] := by
  rw [stateSnapshot, hruns, hdue]
  simp only [Bool.not_true, Bool.false_eq_true, if_false, List.take_nil, List.drop_nil, List.foldl_nil, List.length_nil, bumpN_zero, Nat.zero_add, recordCells_one, if_true]

section
variable {s : State} (hrole : role s = 2)
include hrole

theorem stateRecordApply_lost : stateRecordApply none s = bump s (Reg.PAIR_CNT 13) := by simp [stateRecordApply, hrole]

theorem stateRecordApply_wred (i : Nat) (a b : Int) :
    stateRecordApply (some (0, i, a, b)) s = { perf s 84 7 with qd := { (perf s 84 7).qd with wredGen := a.toNat % 2 ^ 32 } } := by
  simp [stateRecordApply, hrole]

end

/-! ## Baselines (R348) -/

theorem baselineLatch_latches {s : State} (hrole : role s ≠ 0) (hruns : deltaRuns s = false) :
    baselineLatch s = { s with pair := { s.pair with latched := s.cnt.pairs.map (fun e => (e.1, (e.2.frames, e.2.bytes))) } } := by
  simp [baselineLatch, hrole, hruns]

/-- The offsets that the active card's values of pair i give, less the card's own latched ones. -/
def baselineOffset (s : State) (i frames bytes : Nat) : Nat × Nat :=
  ((frames + 2 ^ 40 - (mget (0, 0) s.pair.latched i).1) % 2 ^ 40, (bytes + 2 ^ 56 - (mget (0, 0) s.pair.latched i).2) % 2 ^ 56)

/-- The state with the offsets of counter pair i. -/
def offsetPut (s : State) (i : Nat) (o : Nat × Nat) : State := { s with cnt := { s.cnt with offset := mput (0, 0) s.cnt.offset i o } }

section
variable (s : State) (i : Nat) (o : Nat × Nat)

theorem offsetPut_self : mget (0, 0) (offsetPut s i o).cnt.offset i = o := mget_mput_self ..

theorem offsetPut_pairs : (offsetPut s i o).cnt.pairs = s.cnt.pairs := rfl

theorem offsetPut_regs : (offsetPut s i o).regs = s.regs := rfl

end

theorem baselineApply_offsets {s : State} {i : Nat} (hrole : role s = 2) (hi : i < 2097152) (frames bytes : Nat) :
    baselineApply i frames bytes s = offsetPut s i (baselineOffset s i frames bytes) := by
  simp only [baselineApply, hrole, bne_self_eq_false, Bool.false_eq_true, if_false, Nat.not_le.mpr hi]
  rfl

/-! ## Resynchronisation (R350, R351) -/

theorem bit_lor_one (v : Nat) : bit (Nat.lor v 1) 0 = true := by
  rcases Nat.mod_two_eq_zero_or_one v with hv | hv <;> simp [bit, hv]

/-- A write of PAIR_CTL on a standby whose partner is ACTIVE, with the bit that asks for a resynchronisation. -/
theorem pairCtl_standby {s : State} {v : Nat} (hrole : role s = 2) (hpartner : getF s Reg.PAIR_STAT_PARTNER_ROLE = 1) (hask : bit v 0 = true) :
    pairCtl s v = syncLost (setB s Reg.PAIR_CTL_ALT_VALID (bit v 1)) := by
  have hrole' (b : Bool) : role (setB s Reg.PAIR_CTL_ALT_VALID b) = 2 := (role_setB_beside _ _ _ (.inl (by decide))).trans hrole
  have hpartner' (b : Bool) : getF (setB s Reg.PAIR_CTL_ALT_VALID b) Reg.PAIR_STAT_PARTNER_ROLE = 1 := (getF_setB_reg _ _ _ _ (by decide)).trans hpartner
  simp [pairCtl, hask, hrole', hpartner']

theorem syncLost_standby {s : State} (hrole : role s = 2) :
    syncLost s = resyncAsk (pairShow (setB (setB s Reg.PAIR_STAT_SYNC false) Reg.PAIR_STAT_RESYNC_RUN false)) := by simp [syncLost, hrole]

/-- The host of a standby asks for a resynchronisation. -/
theorem resync_standby {s : State} (hopen : operOpen s = true) (hrole : role s = 2) (hpartner : getF s Reg.PAIR_STAT_PARTNER_ROLE = 1) (v : Nat) :
    resync v s =
      resyncAsk (pairShow (setB (setB (setB s Reg.PAIR_CTL_ALT_VALID (bit (Nat.lor v 1) 1)) Reg.PAIR_STAT_SYNC false) Reg.PAIR_STAT_RESYNC_RUN false)) := by
  rw [resync, operWrite_open hopen, pairCtl_standby hrole hpartner (bit_lor_one v)]
  exact syncLost_standby ((role_setB_beside _ _ _ (.inl (by decide))).trans hrole)

theorem mset_nil {α : Type} (k : Nat) (v : α) : mset [] k (some v) = [(k, v)] := rfl

/-- One region whose turn has come. -/
theorem replayRun_one {s : State} {l : List CmdItem} (h : mfind s.pair.replayHeld s.pair.replayAt = some l) :
    replayRun 1 s =
      l.foldl itemApply { s with pair := { s.pair with replayAt := (s.pair.replayAt + 1) % 2 ^ 32, replayHeld := merase s.pair.replayHeld s.pair.replayAt } } := by
  rw [replayRun, h]
  rfl

section
variable {s : State} {q : Nat} (hrole : role s = 2) (hup : flag s Reg.PAIR_STAT_GALLERY_UP = true) (items : List CmdItem)
include hrole hup

/-- The region that is expected is applied at once when none is held. -/
theorem replayRegion_inTurn (hq : q = (replayOpen s).pair.replayAt) (hlt : q < 2 ^ 32) (hheld : (replayOpen s).pair.replayHeld = []) :
    replayRegion q items s =
      items.foldl itemApply { replayOpen s with pair := { (replayOpen s).pair with replayAt := (q + 1) % 2 ^ 32, replayHeld := [] } } := by
  have hahead : (q + 2 ^ 32 - (replayOpen s).pair.replayAt) % 2 ^ 32 = 0 := by
    rw [← hq, Nat.add_sub_cancel_left, Nat.mod_self]
  have hheld' : mset (replayOpen s).pair.replayHeld (q % 2 ^ 32) (some items) = [((replayOpen s).pair.replayAt, items)] := by
    rw [hheld, mset_nil, Nat.mod_eq_of_lt hlt, ← hq]
  have hgo : ¬(role s != 2 || !flag s Reg.PAIR_STAT_GALLERY_UP) = true := by simp [hrole, hup]
  rw [replayRegion, if_neg hgo]
  dsimp only
  rw [hahead, if_neg (by decide), if_pos rfl, hheld', List.length_singleton]
  have hfind : mfind [((replayOpen s).pair.replayAt, items)] (replayOpen s).pair.replayAt = some items := if_pos rfl
  have hempty : merase [((replayOpen s).pair.replayAt, items)] (replayOpen s).pair.replayAt = [] := if_pos rfl
  rw [replayRun_one (by exact hfind)]
  dsimp only
  rw [hempty, ← hq]

/-- A region beyond the one that is expected is held and answered. -/
theorem replayRegion_ahead (hrun : flag s Reg.PAIR_STAT_RESYNC_RUN = true) (hlo : 0 < (q + 2 ^ 32 - s.pair.replayAt) % 2 ^ 32)
    (hhi : (q + 2 ^ 32 - s.pair.replayAt) % 2 ^ 32 < 2 ^ 31) :
    replayRegion q items s =
      galControl (report (bump { s with pair := { s.pair with replayHeld := mset s.pair.replayHeld (q % 2 ^ 32) (some items) } } (Reg.PAIR_CNT 8)) Src.gallery galLoc 0)
        [2, 4, s.pair.replayAt] := by
  have hgo : ¬(role s != 2 || !flag s Reg.PAIR_STAT_GALLERY_UP) = true := by simp [hrole, hup]
  have hopened : replayOpen s = s := if_pos hrun
  rw [replayRegion, if_neg hgo, hopened]
  dsimp only
  rw [if_neg (Nat.not_le.mpr hhi), if_neg (Nat.ne_of_gt hlo)]

end

section
variable (s : State) (body : List Nat)

theorem galControl_regs : (galControl s body).regs = s.regs := rfl

theorem galControl_replayHeld : (galControl s body).pair.replayHeld = s.pair.replayHeld := rfl

theorem galControl_replayAt : (galControl s body).pair.replayAt = s.pair.replayAt := rfl

end

/-- The registers of a standby as its resynchronisation ends: the delta stream goes on after SEQ q, nothing lags, and it is synchronised. -/
def resynced (s : State) (q : Nat) : State :=
  setB (setF (setF { setB s Reg.PAIR_STAT_RESYNC_RUN false with pair := { s.pair with rxSeq := q % 2 ^ 32, wait := [] } } Reg.PAIR_SEQ_APPLIED_SEQ q) Reg.PAIR_LAG_LAG 0)
    Reg.PAIR_STAT_SYNC true

section
variable {s : State} {q : Nat}

theorem resyncComplete_standby (hrole : role s = 2) (hrun : flag s Reg.PAIR_STAT_RESYNC_RUN = true) :
    resyncComplete q s = pairShow (bump (resynced s q) (Reg.PAIR_CNT 15)) := by
  simp only [resyncComplete, hrole, hrun]
  rfl

theorem getF_resyncComplete {f : Fld} (hrole : role s = 2) (hrun : flag s Reg.PAIR_STAT_RESYNC_RUN = true) (h : f.OffLevels) (hcnt : f.reg ≠ Reg.PAIR_CNT 15) :
    getF (resyncComplete q s) f = getF (resynced s q) f := by
  rw [resyncComplete_standby hrole hrun, getF_pairShow h, getF_bump_ne _ _ _ hcnt]

end

/-! ## The statement -/

/-- Settles O42: each command by the branch that its hypotheses choose. -/
theorem pairMirrorStateAndResync : Obligations.PairMirrorStateAndResync := by
  unfold Obligations.PairMirrorStateAndResync
  refine ⟨?item, ?nackHeld, ?nackGone, ?stall, ?snapshot, ?lost, ?wred, ?latch, ?baseline, ?resync, ?inTurn, ?complete, ?nackReplay, ?ahead⟩
  case item =>
    intro s f a v r hrole hrun hmirrored hlo hhi hrow q
    have hseq : a ≠ Reg.PAIR_SEQ_APPLIED_SEQ.reg := fun e => absurd (e ▸ hhi) (by decide)
    have hitem := cmdItemApply_resync hrole hrun q (.reg f a v)
    rw [itemApply_reg hmirrored, mirroredAct_tenant hlo hhi hrow] at hitem
    refine ⟨_, congrArg Host.Outcome.next hitem, ?_, ?_, fun b hb => ?_⟩
    · rw [rd_perf, rd_writeRw_self, rd_setF_ne _ _ _ _ hseq]
      rfl
    · rw [getF_congr (perf_regs ..), getF, rd_writeRw_ne _ _ _ hseq.symm, ← getF, getF_setF_self _ _ _ (by decide)]
      rfl
    · obtain ⟨ha, hseq'⟩ := not_or.mp (mt List.mem_cons.mpr hb)
      rw [rd_perf, rd_writeRw_ne _ _ _ ha, rd_setF_ne _ _ _ _ (List.ne_of_not_mem_cons hseq')]
      rfl
  case nackHeld => exact fun s q hrole hpartner hheld => ⟨_, rfl, (nackReceive_active hrole hpartner false).trans ((if_neg Bool.false_ne_true).trans (if_pos hheld))⟩
  case nackGone => exact fun s q hrole hpartner hgone => ⟨_, rfl, (nackReceive_active hrole hpartner false).trans ((if_neg Bool.false_ne_true).trans (if_neg (hgone ▸ Bool.false_ne_true)))⟩
  case stall => exact fun s hrole hpartner h => ⟨_, rfl, ackStall_outstanding hrole hpartner h⟩
  case snapshot => exact fun s hruns hdue => ⟨_, congrArg Host.Outcome.next (stateSnapshot_untouched hruns hdue), rfl, rfl, mget_mput_self ..⟩
  case lost => exact fun s hrole => ⟨_, rfl, stateRecordApply_lost hrole⟩
  case wred =>
    intro s i a b hrole
    refine ⟨_, congrArg Host.Outcome.next (stateRecordApply_wred hrole i a b), ?_, perf_regs ..⟩
    rw [perf_qd]
  case latch => exact fun s hrole hruns => ⟨_, rfl, baselineLatch_latches hrole hruns⟩
  case baseline =>
    intro s i frames bytes hrole hi
    refine ⟨_, congrArg Host.Outcome.next (baselineApply_offsets hrole hi frames bytes), ?_, offsetPut_pairs .., offsetPut_regs ..⟩
    rw [offsetPut_self, baselineOffset]
  case resync =>
    intro s v hopen hrole hpartner
    refine ⟨_, congrArg Host.Outcome.next (resync_standby hopen hrole hpartner v), ?_, ?_⟩
    · rw [flag_of_getF (getF_resyncAsk (by decide)), flag_of_getF (getF_pairShow (by decide)), flag_of_getF (getF_setB_clear (by decide) (by decide) _),
        flag_setB_self _ _ _ (by decide) rfl]
    · rw [role_resyncAsk, role_pairShow, role_setB_beside _ _ _ (.inr (by decide)), role_setB_beside _ _ _ (.inr (by decide)), role_setB_beside _ _ _ (.inl (by decide)), hrole]
  case inTurn => exact fun s q items hrole hup hq hlt hheld => ⟨_, rfl, replayRegion_inTurn hrole hup items hq hlt hheld⟩
  case complete =>
    intro s q hrole hrun
    refine ⟨_, rfl, ?_, ?_, ?_, ?_, ?_⟩
    · rw [flag_of_getF (getF_resyncComplete hrole hrun (by decide) (by decide)), resynced, flag_setB_self _ _ _ (by decide) rfl]
    · rw [flag_of_getF (getF_resyncComplete hrole hrun (by decide) (by decide)), resynced, flag_of_getF (getF_setB_clear (by decide) (by decide) _),
        flag_of_getF (getF_setF_clear (by decide) (by decide) _), flag_of_getF (getF_setF_clear (by decide) (by decide) _)]
      exact flag_setB_self s _ _ (by decide) rfl
    · rw [getF_resyncComplete hrole hrun (by decide) (by decide), resynced, getF_setB_clear (by decide) (by decide), getF_setF_clear (by decide) (by decide),
        getF_setF_self _ _ _ (by decide)]
      rfl
    · rw [getF_resyncComplete hrole hrun (by decide) (by decide), resynced, getF_setB_clear (by decide) (by decide), getF_setF_self _ _ _ (by decide)]
      rfl
    · rw [resyncComplete_standby hrole hrun, rd_pairShow _ (by unfold OffReport; decide) (by decide), rd_bump_self, resynced, rd_setB_ne _ _ _ _ (by decide),
        rd_setF_ne _ _ _ _ (by decide), rd_setF_ne _ _ _ _ (by decide)]
      exact congrArg (countWord · 1) (rd_setB_ne s _ _ _ (by decide))
  case nackReplay => exact fun s q hrole hpartner => ⟨_, rfl, (nackReceive_active hrole hpartner true).trans (if_pos rfl)⟩
  case ahead =>
    intro s q items hrole hup hrun hlo hhi
    refine ⟨_, congrArg Host.Outcome.next (replayRegion_ahead hrole hup items hrun hlo hhi), ?_, ?_, ?_⟩
    · rw [galControl_replayHeld, report_pair, bump_pair]
      exact mfind_mset_self _ _ (some items)
    · rw [galControl_replayAt, report_pair, bump_pair]
    · rw [rd_congr (galControl_regs ..), rd_report (by unfold OffReport; decide), rd_bump_self]
      rfl

end Sys2Proof.Machine

/-! What promotes a standby card (O13): a state that lists a function beyond 255, in which the end of a flush counts where ROLE stands. -/

namespace Sys2Proof.Machine

/-- A flush of function 1,244,161. The state holds the number of a function without a bound. -/
def strayFlush : HostCmd := { fn := 1244161, ring := 0, opcode := 8, tag := 0, table := 9, sub := 0, opnd := [] }

/-- HIF_FN_STAT of that function has the offset of PAIR_STAT: NOW of the one lies over ROLE of the other. -/
theorem fnStat_strayFlush : Reg.HIF_FN_STAT strayFlush.fn = Reg.PAIR_STAT := by decide

/-- A standby card in which the sweep of that flush runs. -/
def strayStandby : State :=
  { State.reset with
    regs := [(Reg.FTB_FLUSH_STAT, 0x10), (Reg.PAIR_STAT, 2)]
    tab := { flushes := [⟨strayFlush, []⟩] }
    hif := { inFlight := [strayFlush] } }

theorem role_strayStandby : role strayStandby = 2 := by decide +kernel

/-- The flush completes, so that its function has one command less in flight (R488): 2 becomes 1. -/
theorem role_flushByPortDone_strayStandby : role (flushByPortDone strayStandby) = 1 := by decide +kernel

/-- Refutes O13: FLUSH_BY_PORT_DONE, a well-formed command that is no message, ends the flush of a function beyond 255 that a state may list, and its count of commands
in flight is kept at the offset of PAIR_STAT. -/
theorem not_standbyIsPromotedOnlyBySwitch : ¬ Obligations.StandbyIsPromotedOnlyBySwitch := by
  unfold Obligations.StandbyIsPromotedOnlyBySwitch
  intro h
  obtain ⟨sync, body, crc, hswitch | hlease⟩ := h .flushByPortDone strayStandby _ role_strayStandby rfl role_flushByPortDone_strayStandby
  · exact nomatch hswitch
  · exact nomatch hlease

end Sys2Proof.Machine

/-! No step undoes what OTP holds (O7), and every step answers (O3): both are the law that a command and a tick keep, read for the whole step. -/

namespace Sys2Proof.Machine

/-- Settles O7: taking the front command leaves OTP alone, and every command and every tick only adds to it. -/
theorem stepOnlyGrowsOtp : Obligations.StepOnlyGrowsOtp := by
  intro s t h
  obtain ⟨⟨_, hotp⟩, _⟩ := keeps_of_step h
  exact hotp

/-- Settles O3: an empty queue answers the tick, and the front command of any other queue answers by its own law. -/
theorem everyStepAnswersNext : Obligations.EveryStepAnswersNext := by
  intro s
  cases hq : s.pending with
  | nil => exact ⟨idle s, step_of_idle hq⟩
  | cons c rest =>
    obtain ⟨t, ht, _⟩ := exec_keeps c { s with pending := rest }
    exact ⟨t, (step_of_pending hq).trans ht⟩

end Sys2Proof.Machine

/-! The instructions of the test access port (O14, O30): the register, the pins and the data register of the instruction in force (R572 to R576). -/

namespace Sys2Proof.Machine

/-- A command completes by the state that its meaning answers. -/
theorem completes_of {c : Instr} {s t : State} {p : State → Prop} (h : exec c s = .next t) (hp : p t) : Completes c s p := ⟨t, h, hp⟩

/-! ## An instruction in force -/

section
variable (s : State) (op : Nat)

/-- A captured value that the spec leaves open takes a free value and changes nothing else. -/
theorem tapData_free : ∃ n, (tapData s op).2 = { s with free := n } := by
  unfold tapData
  dsimp only
  split
  case h_1 | h_2 | h_10 => exact ⟨s.free, rfl⟩
  all_goals exact ⟨s.free + 1, rfl⟩

theorem tapForce_regs : (tapForce s op).regs = (setB (setF s Reg.TST_STAT_INSTR op) Reg.TST_STAT_PIN_DRIVE (tapDriving op)).regs := by
  obtain ⟨n, hn⟩ := tapData_free s op
  unfold tapForce
  dsimp only
  rw [hn]
  split <;> rfl

theorem tapForce_top : (tapForce s op).top = s.top := by
  obtain ⟨n, hn⟩ := tapData_free s op
  unfold tapForce
  dsimp only
  rw [hn]
  split <;> rfl

theorem tapForce_pins : (tapForce s op).tst.pins = tapPins s op := by
  unfold tapForce
  dsimp only
  split <;> rfl

theorem tapForce_dr : (tapForce s op).tst.dr = (tapData s op).1 := by
  unfold tapForce
  dsimp only
  split <;> rfl

theorem getF_tapForce_instr : getF (tapForce s op) Reg.TST_STAT_INSTR = op % 256 := by
  rw [getF_congr (tapForce_regs s op), setB, getF_setF_beside _ _ _ _ (by decide) (by decide), getF_setF_self _ _ _ (by decide)]
  rfl

theorem flag_tapForce_drive : flag (tapForce s op) Reg.TST_STAT_PIN_DRIVE = tapDriving op := by
  rw [flag_congr (tapForce_regs s op), flag_setB_self _ _ _ (by decide) rfl]

theorem regsBut_tapForce : RegsBut [Reg.TST_STAT] s (tapForce s op) := by
  intro a ha
  have hne : a ≠ Reg.TST_STAT := List.ne_of_not_mem_cons ha
  rw [rd_congr (tapForce_regs s op), rd_setB_ne _ _ _ _ hne, rd_setF_ne _ _ _ _ hne]

end

/-! ## Loading an instruction -/

section
variable {s : State} {op : Nat}

/-- What is not SCAN is left without a reset. -/
theorem scanLeft_of_ne (h : getF s Reg.TST_STAT_INSTR ≠ 0x82) (t : State) : scanLeft s t = t := if_neg fun hc => h hc.1

theorem tapReset_forces (hon : s.top ≠ .off) (hscan : getF s Reg.TST_STAT_INSTR ≠ 0x82) : tapReset s = tapForce s 0x01 := by
  rw [tapReset, if_neg (by simpa using hon), scanLeft_of_ne hscan]

/-- An open instruction that drives no ball in RUN takes effect (R574, R575). -/
theorem tapLoad_taken (hon : s.top ≠ .off) (hopen : tapOpen s op = true) (hrun : tapDriving op = true → s.top ≠ .run) :
    tapLoad op s = scanLeft s (tapForce s op) := by
  have hdrive : (tapDriving op && s.top == .run) = false := by
    cases hd : tapDriving op
    · rfl
    · simpa using hrun hd
  rw [tapLoad, if_neg (by simpa using hon), hopen, hdrive]
  rfl

theorem tapLoad_forces (hon : s.top ≠ .off) (hscan : getF s Reg.TST_STAT_INSTR ≠ 0x82) (hopen : tapOpen s op = true)
    (hrun : tapDriving op = true → s.top ≠ .run) : tapLoad op s = tapForce s op := by
  rw [tapLoad_taken hon hopen hrun, scanLeft_of_ne hscan]

/-- One that is not open, or that drives balls in RUN, acts as BYPASS and counts (R575). -/
theorem tapLoad_refused (hon : s.top ≠ .off) (hscan : getF s Reg.TST_STAT_INSTR ≠ 0x82) (h : tapOpen s op = false ∨ (tapDriving op = true ∧ s.top = .run)) :
    tapLoad op s = bump (tapForce s 0xFF) (Reg.TST_CNT 3) := by
  have hno : (tapOpen s op && !(tapDriving op && s.top == .run)) = false := by
    rcases h with h | ⟨hd, hr⟩
    · rw [h, Bool.false_and]
    · simp [hd, hr]
  rw [tapLoad, if_neg (by simpa using hon), hno, if_neg Bool.false_ne_true, scanLeft_of_ne hscan]

theorem tapOpen_unguarded (s : State) (h80 : op ≠ 0x80) (h81 : op ≠ 0x81) (h82 : op ≠ 0x82) : tapOpen s op = true := by
  rw [tapOpen, if_neg (not_or.mpr ⟨h80, h81⟩), if_neg h82]

/-- MBIST and OTP_READ are open in FACTORY and in RETURNED only (R574). -/
theorem tapOpen_returned (h : op = 0x80 ∨ op = 0x81) (hlc : s.boot.lc = .returned) : tapOpen s op = true := by
  rw [tapOpen, if_pos h, hlc]
  rfl

theorem tapOpen_field (h : op = 0x80 ∨ op = 0x81) (hlc : s.boot.lc = .field) : tapOpen s op = false := by
  rw [tapOpen, if_pos h, hlc]
  rfl

theorem tapOpen_scan (hlc : s.boot.lc = .factory) (hen : flag s Reg.TST_STAT_FTEST_EN = true) : tapOpen s 0x82 = true := by
  rw [tapOpen, if_neg (by decide), if_pos rfl, hlc, hen]
  rfl

/-- A refused instruction leaves BYPASS in force, the pins to the device, and one count. -/
theorem bypass_counted (s : State) : getF (bump (tapForce s 0xFF) (Reg.TST_CNT 3)) Reg.TST_STAT_INSTR = 0xFF ∧
    flag (bump (tapForce s 0xFF) (Reg.TST_CNT 3)) Reg.TST_STAT_PIN_DRIVE = false ∧ (bump (tapForce s 0xFF) (Reg.TST_CNT 3)).tst.pins = .device ∧
    rd (bump (tapForce s 0xFF) (Reg.TST_CNT 3)) (Reg.TST_CNT 3) = countWord (rd s (Reg.TST_CNT 3)) 1 := by
  refine ⟨?_, ?_, ?_, ?_⟩
  · rw [getF_bump_ne _ _ _ (by decide), getF_tapForce_instr]
  · rw [flag, getF_bump_ne _ _ _ (by decide), ← flag, flag_tapForce_drive]
    rfl
  · rw [bump_tst, tapForce_pins]
    rfl
  · rw [rd_bump_self, regsBut_tapForce s 0xFF _ (by decide)]

end

/-! ## The statements -/

/-- Settles O14: TAP_RESET puts IDCODE in force, whose value is that of Table 23-1. -/
theorem tapResetSelectsIdcode : Obligations.TapResetSelectsIdcode := by
  intro s hon hscan
  refine completes_of (t := tapReset s) rfl ?_
  rw [tapReset_forces hon hscan, getF_tapForce_instr, tapForce_dr]
  exact ⟨rfl, rfl⟩

/-- Settles O30: each instruction is in force, or acts as BYPASS, by its opcode, the top-level state and the life cycle. -/
theorem tapInstructions : Obligations.TapInstructions := by
  unfold Obligations.TapInstructions
  refine ⟨?drives, ?inRun, ?releases, ?sample, ?returned, ?field, ?scan, ?leaves⟩
  case drives =>
    intro s hon hrun hscan p hp
    have hop : exec p.1 s = .next (tapLoad p.2 s) ∧ tapOpen s p.2 = true ∧ tapDriving p.2 = true ∧ p.2 < 256 := by
      simp only [List.mem_cons, List.not_mem_nil, or_false] at hp
      rcases hp with rfl | rfl | rfl | rfl | rfl <;> exact ⟨rfl, rfl, rfl, by decide⟩
    obtain ⟨hexec, hopen, hdrive, hlt⟩ := hop
    refine completes_of hexec ?_
    rw [tapLoad_forces hon hscan hopen fun _ => hrun]
    exact ⟨(getF_tapForce_instr ..).trans (Nat.mod_eq_of_lt hlt), (flag_tapForce_drive ..).trans hdrive, tapForce_pins .., regsBut_tapForce _ _, tapForce_top ..⟩
  case inRun =>
    intro s hrun hscan p hp
    have hop : exec p.1 s = .next (tapLoad p.2 s) ∧ tapDriving p.2 = true := by
      simp only [List.mem_cons, List.not_mem_nil, or_false] at hp
      rcases hp with rfl | rfl | rfl | rfl | rfl | rfl <;> exact ⟨rfl, rfl⟩
    obtain ⟨hexec, hdrive⟩ := hop
    refine completes_of hexec ?_
    rw [tapLoad_refused (by rw [hrun]; decide) hscan (.inr ⟨hdrive, hrun⟩)]
    exact bypass_counted s
  case releases =>
    intro s hon hscan p hp
    have hop : (∃ t, exec p.1 s = .next t ∧ t = tapForce s p.2.1) ∧ tapDriving p.2.1 = false ∧ tapPins s p.2.1 = .device ∧ (tapData s p.2.1).1 = p.2.2 ∧ p.2.1 < 256 := by
      have hload {op : Nat} (hopen : tapOpen s op = true) (hd : tapDriving op = false) : tapLoad op s = tapForce s op :=
        tapLoad_forces hon hscan hopen (by simp [hd])
      simp only [List.mem_cons, List.not_mem_nil, or_false] at hp
      rcases hp with rfl | rfl | rfl | rfl
      · exact ⟨⟨_, rfl, tapReset_forces hon hscan⟩, rfl, rfl, rfl, by simp⟩
      · exact ⟨⟨_, rfl, hload rfl rfl⟩, rfl, rfl, rfl, by simp⟩
      · exact ⟨⟨_, rfl, hload rfl rfl⟩, rfl, rfl, rfl, by simp⟩
      · exact ⟨⟨_, rfl, hload rfl rfl⟩, rfl, rfl, rfl, by simp⟩
    obtain ⟨⟨_, hexec, rfl⟩, hdrive, hpins, hdata, hlt⟩ := hop
    exact ⟨_, hexec, (getF_tapForce_instr ..).trans (Nat.mod_eq_of_lt hlt), (flag_tapForce_drive ..).trans hdrive, (tapForce_pins ..).trans hpins,
      (tapForce_dr ..).trans hdata, regsBut_tapForce _ _⟩
  case sample =>
    intro s hon hscan
    refine completes_of (t := tapLoad 0x02 s) rfl ?_
    rw [tapLoad_forces hon hscan rfl (by simp [tapDriving]), getF_tapForce_instr, flag_tapForce_drive, tapForce_pins, tapForce_dr]
    exact ⟨rfl, rfl, rfl, rfl⟩
  case returned =>
    intro s hon hscan hlc p hp
    have hop : exec p.1 s = .next (tapLoad p.2.1 s) ∧ (p.2.1 = 0x80 ∨ p.2.1 = 0x81) ∧ tapDriving p.2.1 = false ∧ (tapData s p.2.1).1.1 = p.2.2 := by
      simp only [List.mem_cons, List.not_mem_nil, or_false] at hp
      rcases hp with rfl | rfl <;> exact ⟨rfl, by decide, rfl, rfl⟩
    obtain ⟨hexec, hguard, hdrive, hlen⟩ := hop
    refine completes_of hexec ?_
    rw [tapLoad_forces hon hscan (tapOpen_returned hguard hlc) (by simp [hdrive]), getF_tapForce_instr, tapForce_dr]
    exact ⟨Nat.mod_eq_of_lt (by omega), hlen, regsBut_tapForce _ _⟩
  case field =>
    intro s hon hscan hlc p hp
    have hop : exec p.1 s = .next (tapLoad p.2.1 s) ∧ (p.2.1 = 0x80 ∨ p.2.1 = 0x81) := by
      simp only [List.mem_cons, List.not_mem_nil, or_false] at hp
      rcases hp with rfl | rfl <;> exact ⟨rfl, by decide⟩
    obtain ⟨hexec, hguard⟩ := hop
    refine completes_of hexec ?_
    rw [tapLoad_refused hon hscan (.inl (tapOpen_field hguard hlc))]
    obtain ⟨hinstr, -, -, hcount⟩ := bypass_counted s
    exact ⟨hinstr, hcount⟩
  case scan =>
    intro s htop hscan hlc hen
    refine completes_of (t := tapLoad 0x82 s) rfl ?_
    rw [tapLoad_forces (by rw [htop]; decide) hscan (tapOpen_scan hlc hen) (by rw [htop]; decide), getF_tapForce_instr, flag_tapForce_drive, tapForce_pins, tapForce_dr]
    exact ⟨rfl, rfl, rfl, rfl⟩
  case leaves =>
    intro s htop hscan
    refine completes_of (t := tapLoad 0xFF s) rfl ?_
    rw [tapLoad_taken (by rw [htop]; decide) rfl (by rw [htop]; decide)]
    exact if_pos ⟨hscan, by rw [getF_tapForce_instr]; decide, by rw [htop]; decide⟩

end Sys2Proof.Machine

/-! A step on an empty queue (O2): what the reactions that a tick may bring leave alone. -/

namespace Sys2Proof.Machine

/-! ## What follows a reaction -/

/-- The state but for what the end of a switch-over gap, a SERVICE reaction, a pool and what they follow touch. -/
def State.offFollow (s : State) : State :=
  { s with regs := [], flt := {}, drm := {}, qd := {}, lin := {}, fab := {}, cnt := {}, hif := {}, slc := { s.slc with due := [], running := [] }, tst := { s.tst with loop := [] } }

section
variable {s t : State}

theorem offFollow_of_offReport (h : t.offReport = s.offReport) : t.offFollow = s.offFollow := by
  have e := congrArg (fun x : State => { x with lin := {}, fab := {}, cnt := {}, hif := {}, tst := { x.tst with loop := [] } }) h
  exact e

theorem offFollow_of_offHost (h : t.offHost = s.offHost) : t.offFollow = s.offFollow := by
  have e := congrArg State.offFollow h
  exact e

theorem offFollow_of_offSettle (h : t.offSettle = s.offSettle) : t.offFollow = s.offFollow := by
  have e := congrArg (fun x : State => { x with hif := {} }) h
  exact e

theorem tick_of_offFollow (h : t.offFollow = s.offFollow) : t.tick = s.tick := by have e := congrArg State.tick h; exact e
theorem otp_of_offFollow (h : t.offFollow = s.offFollow) : t.otp = s.otp := by have e := congrArg State.otp h; exact e
theorem scr_of_offFollow (h : t.offFollow = s.offFollow) : t.scr = s.scr := by have e := congrArg State.scr h; exact e
theorem tab_of_offFollow (h : t.offFollow = s.offFollow) : t.tab = s.tab := by have e := congrArg State.tab h; exact e
theorem top_of_offFollow (h : t.offFollow = s.offFollow) : t.top = s.top := by have e := congrArg State.top h; exact e
theorem pending_of_offFollow (h : t.offFollow = s.offFollow) : t.pending = s.pending := by have e := congrArg State.pending h; exact e

end

section
variable (s : State)

theorem wr_offFollow (a : Nat) (w : Word) : (wr s a w).offFollow = s.offFollow := (rfl)

theorem setF_offFollow (f : Fld) (n : Nat) : (setF s f n).offFollow = s.offFollow := (rfl)

theorem setB_offFollow (f : Fld) (b : Bool) : (setB s f b).offFollow = s.offFollow := (rfl)

theorem markCross_offFollow (m : Mark) : (markCross s m).offFollow = s.offFollow := by
  unfold markCross
  extract_lets s1 s2 body
  have h1 : s1.offFollow = s.offFollow := setF_offFollow ..
  have h2 : s2.offFollow = s.offFollow := by simp only [s2, wr_offFollow, setB_offFollow, h1]
  clear_value s1 s2
  split
  · exact h1
  · split
    · exact (offFollow_of_offHost (hostEvent_offHost ..)).trans h2
    · exact (offFollow_of_offHost (bump_offHost ..)).trans h2

theorem markFollow_offFollow (m : Mark) (lvl : Bool) (val : Nat) : (markFollow s m lvl val).offFollow = s.offFollow := by
  unfold markFollow
  extract_lets was s1 s2
  have h2 : s2.offFollow = s.offFollow := by
    simp only [s2, s1]
    split
    · rw [wr_offFollow, setB_offFollow]
    · exact setB_offFollow ..
  clear_value s2
  split
  · rw [markCross_offFollow, h2]
  · exact h2

theorem setThreshold_offFollow (r k w : Nat) : (setThreshold s r k w).offFollow = s.offFollow := (rfl)

theorem poolFollow_offFollow (r k : Nat) : (poolFollow s r k).offFollow = s.offFollow := by
  unfold poolFollow
  extract_lets s1 s2
  have h1 : s1.offFollow = s.offFollow := by simp only [s1, setThreshold_offFollow]
  have h2 : s2.offFollow = s1.offFollow := markFollow_offFollow ..
  exact (offFollow_of_offReport (levelIs_offReport ..)).trans (h2.trans h1)

theorem dramPools_offFollow : (dramPools s).offFollow = s.offFollow := foldl_same State.offFollow _ (fun _ _ => poolFollow_offFollow ..) _ s

theorem settle_offFollow (t : State) : (settle s t).offFollow = t.offFollow := offFollow_of_offSettle (settle_offSettle s t)

theorem reactFollow_offFollow : (reactFollow s).offFollow = s.offFollow := by
  unfold reactFollow
  split
  · rw [settle_offFollow, dramPools_offFollow]
    rfl
  · rfl

/-- The reactions of a tick leave all but the gap of the pair alone. -/
theorem idle_offFollow : ∃ g, (idle s).offFollow = State.offFollow { advance s 1 with pair := { (advance s 1).pair with gap := g } } := by
  unfold idle gapOver
  split
  · exact ⟨none, by rw [reactFollow_offFollow, settle_offFollow]⟩
  · exact ⟨(advance s 1).pair.gap, reactFollow_offFollow _⟩

end

/-! ## A tick -/

/-- A tick moves the clocks alone (R422, R533). -/
theorem advance_eq (s : State) (n : Nat) : ∃ k p, advance s n = { s with tick := k, ptp := p } ∧ (s.top ≠ .off → s.top ≠ .reset → k = s.tick + n) := by
  unfold advance
  split
  next h => exact ⟨s.tick, s.ptp, rfl, fun hoff hreset => absurd h (not_or.mpr ⟨hoff, hreset⟩)⟩
  next =>
    split
    · exact ⟨s.tick + n, s.ptp, rfl, fun _ _ => rfl⟩
    · exact ⟨s.tick + n, _, rfl, fun _ _ => rfl⟩

/-- Settles O2: a tick moves the clocks, and what may follow it leaves the named stores alone; where nothing is due it is the tick alone. -/
theorem emptyQueueStepIsOneTick : Obligations.EmptyQueueStepIsOneTick := by
  unfold Obligations.EmptyQueueStepIsOneTick
  refine ⟨?any, ?quiet⟩
  case any =>
    intro s hq
    refine ⟨idle s, step_of_idle hq, ?_⟩
    obtain ⟨k, p, hadv, htick⟩ := advance_eq s 1
    obtain ⟨g, hidle⟩ := idle_offFollow s
    rw [hadv] at hidle
    exact ⟨(tab_of_offFollow hidle).trans rfl, (scr_of_offFollow hidle).trans rfl, (otp_of_offFollow hidle).trans rfl, (top_of_offFollow hidle).trans rfl, (pending_of_offFollow hidle).trans hq,
      fun hoff hreset => (tick_of_offFollow hidle).trans (htick hoff hreset)⟩
  case quiet =>
    intro s hq hfollow hgap
    obtain ⟨k, p, hadv, -⟩ := advance_eq s 1
    have hidle : idle s = advance s 1 := by simp [idle, gapOver, reactFollow, hadv, hgap, hfollow]
    exact ⟨idle s, step_of_idle hq, hidle, by rw [hidle, hadv]⟩

end Sys2Proof.Machine

/-! The fault collector: collecting a latched report, clearing STATUS, the first fault and the record ring (O25), the NVM fault log (O16), and the log, the partner's
records and injection (O26). -/

namespace Sys2Proof.Machine

/-! ## Words in a row -/

theorem powered_of_operOpen {s : State} (h : operOpen s = true) : powered s = true := by
  unfold operOpen at h
  unfold powered
  cases hs : s.top <;> rw [hs] at h <;> first | rfl | exact nomatch h

/-- Each of the words written in a row is read at its place. -/
theorem rd_wrWords_at (s : State) (a : Nat) {l : List Word} {k : Nat} (h : k < l.length) : rd (wrWords s a l) (a + 4 * k) = l.getD k 0 := by
  induction l generalizing s a k with
  | nil => exact absurd h (Nat.not_lt_zero k)
  | cons w l ih =>
    rw [wrWords]
    cases k with
    | zero => exact (rd_wrWords_ne _ _ _ _ (.inl (by omega))).trans (rd_wr_self ..)
    | succ k =>
      rw [show a + 4 * (k + 1) = a + 4 + 4 * k by omega, List.getD_cons_succ]
      exact ih _ _ (Nat.lt_of_succ_lt_succ h)

theorem getF_wrWords_ne (s : State) (a : Nat) (l : List Word) {f : Fld} (h : f.reg < a ∨ a + 4 * l.length ≤ f.reg) : getF (wrWords s a l) f = getF s f := by
  rw [getF, rd_wrWords_ne _ _ _ _ h, ← getF]

theorem getF_setF_ne (s : State) (f g : Fld) (n : Nat) (h : g.reg ≠ f.reg) : getF (setF s f n) g = getF s g := getF_setF_reg s f g n h

/-! ## The record ring (R535) -/

section
variable {s : State} {rcd : List Word}

/-- FILL stands in the register of WR_IDX, beside it. -/
theorem getF_recRingFill {f : Fld} (hlen : f.lo + f.len ≤ 32) (h : f.reg ≠ Reg.FLT_RING_STAT ∨ f.lo + f.len ≤ 16) : getF (recRingFill s) f = getF s f := by
  rcases h with h | h
  · exact getF_setF_reg _ _ _ _ h
  · exact getF_setF_beside _ _ _ _ hlen (.inl h)

theorem rd_recRingFill_ne {a : Nat} (h : a ≠ Reg.FLT_RING_STAT) : rd (recRingFill s) a = rd s a := rd_setF_ne _ _ _ _ h

/-- A record of eight words enters the ring at WR_IDX, which goes on by one. -/
theorem getF_recRingPut_wrIdx :
    getF (recRingPut s rcd) Reg.FLT_RING_STAT_WR_IDX = (getF s Reg.FLT_RING_STAT_WR_IDX + 1) % 1024 := by
  rw [recRingPut, getF_recRingFill (by decide) (by decide), getF_setF_self _ _ _ (by decide)]
  exact Nat.mod_mod _ _

theorem rd_recRingPut_below {a : Nat} (hlow : a < 0x0408000) (hne : a ≠ Reg.FLT_RING_STAT) : rd (recRingPut s rcd) a = rd s a := by
  rw [recRingPut, rd_recRingFill_ne hne, rd_setF_ne _ _ _ _ hne, rd_wrWords_ne]
  simp only [Reg.FLT_REC]
  omega

theorem recRingPut_flt : (recRingPut s rcd).flt = s.flt := wr_flt_all ..

theorem ringRdWrite_takes {v : Nat} (hopen : operOpen s = true)
    (h : (v % 1024 + 1024 - getF s Reg.FLT_RING_RD_RD_IDX) % 1024 ≤ (getF s Reg.FLT_RING_STAT_WR_IDX + 1024 - getF s Reg.FLT_RING_RD_RD_IDX) % 1024) :
    ringRdWrite v s = recRingFill (setF s Reg.FLT_RING_RD_RD_IDX v) := by
  rw [ringRdWrite, operWrite_open hopen]
  exact if_pos h

theorem ringRdWrite_refused {v : Nat} (hopen : operOpen s = true)
    (h : (getF s Reg.FLT_RING_STAT_WR_IDX + 1024 - getF s Reg.FLT_RING_RD_RD_IDX) % 1024 < (v % 1024 + 1024 - getF s Reg.FLT_RING_RD_RD_IDX) % 1024) :
    ringRdWrite v s = pwfTarget s Reg.FLT_RING_RD v := by
  rw [ringRdWrite, operWrite_open hopen]
  exact if_neg (Nat.not_le.mpr h)

theorem getF_ringRdWrite {v : Nat} (hopen : operOpen s = true)
    (h : (v % 1024 + 1024 - getF s Reg.FLT_RING_RD_RD_IDX) % 1024 ≤ (getF s Reg.FLT_RING_STAT_WR_IDX + 1024 - getF s Reg.FLT_RING_RD_RD_IDX) % 1024) :
    getF (ringRdWrite v s) Reg.FLT_RING_RD_RD_IDX = v % 1024 ∧ getF (ringRdWrite v s) Reg.FLT_RING_STAT_WR_IDX = getF s Reg.FLT_RING_STAT_WR_IDX := by
  rw [ringRdWrite_takes hopen h, getF_recRingFill (by decide) (by decide), getF_recRingFill (by decide) (by decide)]
  exact ⟨getF_setF_self _ _ _ (by decide), getF_setF_reg _ _ _ _ (by decide)⟩

end

/-! ## The first fault (R533) -/

section
variable {s : State}

theorem firstFaultClear_empties (hopen : operOpen s = true) (h : ∀ t x l, s.flt.firstOf = some (t, x, l) → t ≠ s.tick) : firstFaultClear s = firstEmpty s := by
  rw [firstFaultClear, operWrite_open hopen]
  cases hof : s.flt.firstOf with
  | none => rfl
  | some e => exact if_neg (h _ _ _ hof)

/-- A qualifying report of the same tick is captured at once. -/
theorem firstFaultClear_captures {x : Nat} {l : List Word} (hopen : operOpen s = true) (h : s.flt.firstOf = some (s.tick, x, l)) :
    firstFaultClear s = firstPut (firstEmpty s) s.tick x l := by
  simp only [firstFaultClear, operWrite_open hopen, h, if_true]

theorem flag_firstEmpty (s : State) : flag (firstEmpty s) Reg.FLT_FIRST_STAT_VALID = false := flag_setB_self _ _ _ (by decide) rfl

theorem firstStat_ne_first (k : Nat) : Reg.FLT_FIRST k ≠ Reg.FLT_FIRST_STAT := by
  simp only [Reg.FLT_FIRST, Reg.FLT_FIRST_STAT]
  omega

theorem rd_firstEmpty {k : Nat} (hk : k < 8) : rd (firstEmpty s) (Reg.FLT_FIRST k) = 0 := by
  rw [firstEmpty, rd_setB_ne _ _ _ _ (firstStat_ne_first k)]
  exact (rd_wrWords_at _ _ (by simpa using hk)).trans (List.getD_replicate _ hk)

theorem flag_firstPut (t x : Nat) (l : List Word) : flag (firstPut s t x l) Reg.FLT_FIRST_STAT_VALID = true := flag_setB_self _ _ _ (by decide) rfl

theorem rd_firstPut_at (t x : Nat) {l : List Word} {k : Nat} (hk : k < l.length) : rd (firstPut s t x l) (Reg.FLT_FIRST k) = l.getD k 0 := by
  rw [firstPut, rd_setB_ne _ _ _ _ (firstStat_ne_first k)]
  exact rd_wrWords_at _ _ hk

end

/-! ## Collecting a report (R528, R534) -/

section
variable {s : State} {src : Nat} {r : Report}

theorem setStatus_flt : (setStatus s src).flt = { s.flt with status := if src ∈ s.flt.status then s.flt.status else src :: s.flt.status } := by
  unfold setStatus
  split <;> rfl

/-- STATUS and INJECTED are all that taking a report changes in the collector. -/
theorem takeReport_flt : ∃ l, (takeReport s src r).flt = { s.flt with status := if src ∈ s.flt.status then s.flt.status else src :: s.flt.status, injected := l } := by
  unfold takeReport
  dsimp only
  rw [setStatus_flt, srcCount_flt, bump_flt]
  exact ⟨_, rfl⟩

/-- First-fault capture notes the report, and changes nothing else in the collector. -/
theorem captureFirst_flt (l : List Word) : ∃ a o, (captureFirst s src r l).flt = { s.flt with firstAt := a, firstOf := o } := by
  have hnote : ∃ o, (firstNote s r.tick src l).flt = { s.flt with firstOf := o } := by
    unfold firstNote
    split
    · split
      · exact ⟨_, rfl⟩
      · exact ⟨s.flt.firstOf, rfl⟩
    · exact ⟨_, rfl⟩
  obtain ⟨o, hnote⟩ := hnote
  unfold captureFirst
  split
  · exact ⟨s.flt.firstAt, s.flt.firstOf, rfl⟩
  extract_lets u first
  have hu : u.flt = { s.flt with firstOf := o } := hnote
  clear_value u
  split
  · refine ⟨some (r.tick, src), o, ?_⟩
    rw [firstPut, setB_flt, wr_flt_all, hu]
  · exact ⟨s.flt.firstAt, o, hu⟩

/-- The registers of the record ring and its counters stand beside those of the first fault. -/
theorem rd_captureFirst_beside {a : Nat} {l : List Word} (hlen : l.length = 8) (h : a < Reg.FLT_FIRST_STAT ∨ Reg.FLT_NVLOG_IDX ≤ a) :
    rd (captureFirst s src r l) a = rd s a := by
  simp only [Reg.FLT_FIRST_STAT, Reg.FLT_NVLOG_IDX] at h
  unfold captureFirst
  split
  · rfl
  extract_lets u first
  have hu : rd u a = rd s a := rd_firstNote ..
  clear_value u
  split
  · rw [firstPut, rd_setB_ne, rd_wrWords_ne]
    · exact hu
    · simp only [Reg.FLT_FIRST]
      omega
    · simp only [Reg.FLT_FIRST_STAT_VALID, Reg.FLT_FIRST_STAT]
      omega
  · exact hu

theorem mkRecord_length (q : Nat) : (mkRecord s q src r).length = 8 := rfl

theorem rd_srcCount_below {a : Nat} (h : a < Reg.FLT_SRC_CNT src) : rd (srcCount s src) a = rd s a := by
  have hne : a ≠ Reg.FLT_SRC_CNT src := Nat.ne_of_lt h
  unfold srcCount
  split
  · exact rd_setB_ne _ _ _ _ hne
  · exact rd_satBump_ne _ _ _ hne

theorem rd_takeReport_below {a : Nat} (h : a < Reg.FLT_CNT 0) : rd (takeReport s src r) a = rd s a := by
  simp only [Reg.FLT_CNT] at h
  have htake : rd (takeReport s src r) a = rd (srcCount (bump s (Reg.FLT_CNT 0)) src) a := rd_setStatus ..
  rw [htake, rd_srcCount_below, rd_bump_ne]
  · simp only [Reg.FLT_CNT]
    omega
  · simp only [Reg.FLT_SRC_CNT]
    omega

/-- The state in which the report of a source has been taken from its latch. -/
def taken (s : State) (src : Nat) (r : Report) : State := takeReport { s with flt := { s.flt with latch := merase s.flt.latch src } } src r

theorem taken_flt : ∃ l, (taken s src r).flt = { s.flt with
    latch := merase s.flt.latch src, status := if src ∈ s.flt.status then s.flt.status else src :: s.flt.status, injected := l } := takeReport_flt

/-- A source that has no record yet is merged with none. -/
theorem mergedByHold_taken (hlast : mfind s.flt.lastRec src = none) : mergedByHold (taken s src r) src r = false := by
  obtain ⟨l, hl⟩ := taken_flt (s := s) (src := src) (r := r)
  simp only [mergedByHold, hl, hlast]

theorem faultCollect_collects (hnext : nextLatched s.tick s.flt.latch = some (src, r)) (hlast : mfind s.flt.lastRec src = none) :
    faultCollect s = if r.sev = 0 then captureFirst (taken s src r) src r (mkRecord (taken s src r) 0 src r) else makeRecord (taken s src r) src r := by
  have hcollect : collectReport s src r = if mergedByHold (taken s src r) src r then mergeReport (taken s src r) src r
      else if r.sev = 0 then captureFirst (taken s src r) src r (mkRecord (taken s src r) 0 src r) else makeRecord (taken s src r) src r := rfl
  simp only [faultCollect, hnext, hcollect, mergedByHold_taken hlast, Bool.false_eq_true, if_false]

theorem reacted_same {t : State} (h : t.flt.hold = s.flt.hold) : reacted s t = t := if_pos h

theorem srcStatus_of_flt (s : State) {t : State} (h : t.flt.status = if src ∈ s.flt.status then s.flt.status else src :: s.flt.status) : srcStatus t src = true := by
  rw [srcStatus, h]
  split <;> simp [*]

/-- What the collector keeps of a report of severity 0: STATUS, and no record. -/
theorem faultCollect_unrecorded (hnext : nextLatched s.tick s.flt.latch = some (src, r)) (hsev : r.sev = 0) (hlast : mfind s.flt.lastRec src = none) :
    srcStatus (faultCollect s) src = true ∧ mfind (faultCollect s).flt.latch src = none ∧ (faultCollect s).flt.seq = s.flt.seq ∧
    (faultCollect s).flt.hold = s.flt.hold := by
  rw [faultCollect_collects hnext hlast, if_pos hsev]
  obtain ⟨l, htaken⟩ := taken_flt (s := s) (src := src) (r := r)
  obtain ⟨a, o, hfirst⟩ := captureFirst_flt (s := taken s src r) (src := src) (r := r) (mkRecord (taken s src r) 0 src r)
  rw [htaken] at hfirst
  exact ⟨srcStatus_of_flt s (by rw [hfirst]), by rw [hfirst, mfind_merase_self], by rw [hfirst], by rw [hfirst]⟩

/-- What the NVM log and the partner's stream take of a record changes no register but a counter, and in the collector their own queues alone. -/
theorem nvlogOffer_flt (l : List Word) : ∃ w t, (nvlogOffer s l).flt = { s.flt with nvWait := w, nvTimes := t } := by
  unfold nvlogOffer
  dsimp only
  split
  · exact ⟨s.flt.nvWait, s.flt.nvTimes, bump_flt ..⟩
  · exact ⟨_, _, rfl⟩

theorem rd_nvlogOffer_ne (l : List Word) {a : Nat} (h : a ≠ Reg.FLT_CNT 8) : rd (nvlogOffer s l) a = rd s a := by
  unfold nvlogOffer
  dsimp only
  split
  · exact rd_bump_ne _ _ _ h
  · rfl

/-- The record of a report at NOTE enters a ring that has room; no reaction hangs on it (R527, R535). -/
theorem makeRecord_note (hsev : r.sev = 1) (hvin : src ≠ Src.vinWarn) (hroom : recRingFull s = false) :
    (∃ o a w t g, (makeRecord s src r).flt = { s.flt with
      seq := nextSeq s.flt.seq, lastRec := mset s.flt.lastRec src (some r.tick), firstAt := a, firstOf := o, nvWait := w, nvTimes := t, gallery := g }) ∧
    getF (makeRecord s src r) Reg.FLT_RING_STAT_WR_IDX = (getF s Reg.FLT_RING_STAT_WR_IDX + 1) % 1024 := by
  unfold makeRecord
  extract_lets sev q rcd full idx _ s1 s2 s3 s4 s5 s6 s7 s8 _
  obtain ⟨a, o, h2⟩ := captureFirst_flt (s := s1) (src := src) (r := r) rcd
  have hlen : rcd.length = 8 := mkRecord_length q
  have h3 : s3 = recRingPut s2 rcd := if_neg (by simp [full, hroom])
  have h7 : s7 = s3 := by simp only [s7, s6, s5, s4, sev, hsev, hvin, or_false, false_and, Nat.reduceLeDiff, if_false]
  have h3flt : s3.flt = { s1.flt with firstAt := a, firstOf := o } := by rw [h3, recRingPut_flt, h2]
  have h3wr : getF s3 Reg.FLT_RING_STAT_WR_IDX = (getF s Reg.FLT_RING_STAT_WR_IDX + 1) % 1024 := by
    have h2wr : getF s2 Reg.FLT_RING_STAT_WR_IDX = getF s Reg.FLT_RING_STAT_WR_IDX := by
      rw [getF, rd_captureFirst_beside hlen (by decide)]
      rfl
    rw [h3, getF_recRingPut_wrIdx, h2wr]
  have h8 : (∃ w t, s8.flt = { s3.flt with nvWait := w, nvTimes := t }) ∧ getF s8 Reg.FLT_RING_STAT_WR_IDX = getF s3 Reg.FLT_RING_STAT_WR_IDX := by
    rw [← h7]
    simp only [s8]
    split
    · exact ⟨nvlogOffer_flt rcd, by rw [getF, rd_nvlogOffer_ne _ (by decide), ← getF]⟩
    · exact ⟨⟨s7.flt.nvWait, s7.flt.nvTimes, rfl⟩, rfl⟩
  obtain ⟨⟨w, t, h8flt⟩, h8wr⟩ := h8
  rw [h3flt] at h8flt
  clear_value s8
  split
  · refine ⟨⟨o, a, w, t, s8.flt.gallery ++ [(s8.tick, rcd)], ?_⟩, h8wr.trans h3wr⟩
    show { s8.flt with gallery := s8.flt.gallery ++ [(s8.tick, rcd)] } = _
    rw [h8flt]
  · exact ⟨⟨o, a, w, t, _, h8flt⟩, h8wr.trans h3wr⟩

theorem recRingFull_taken : recRingFull (taken s src r) = recRingFull s := by
  have h (f : Fld) (hf : f.reg < Reg.FLT_CNT 0) : getF (taken s src r) f = getF s f := by
    rw [getF, taken, rd_takeReport_below hf]
    rfl
  rw [recRingFull, h _ (by decide), h _ (by decide)]
  rfl

theorem faultCollect_records (hnext : nextLatched s.tick s.flt.latch = some (src, r)) (hsev : r.sev = 1) (hvin : src ≠ Src.vinWarn)
    (hlast : mfind s.flt.lastRec src = none) (hroom : recRingFull s = false) :
    srcStatus (faultCollect s) src = true ∧ mfind (faultCollect s).flt.latch src = none ∧ (faultCollect s).flt.seq = nextSeq s.flt.seq ∧
    (faultCollect s).flt.hold = s.flt.hold ∧ getF (faultCollect s) Reg.FLT_RING_STAT_WR_IDX = (getF s Reg.FLT_RING_STAT_WR_IDX + 1) % 1024 := by
  rw [faultCollect_collects hnext hlast, if_neg (by rw [hsev]; decide)]
  obtain ⟨l, htaken⟩ := taken_flt (s := s) (src := src) (r := r)
  obtain ⟨⟨o, a, w, t, g, hflt⟩, hwr⟩ := makeRecord_note hsev hvin ((recRingFull_taken (s := s) (src := src) (r := r)).trans hroom)
  rw [htaken] at hflt
  refine ⟨srcStatus_of_flt s (by rw [hflt]), by rw [hflt, mfind_merase_self], by rw [hflt], by rw [hflt], hwr.trans ?_⟩
  rw [getF, taken, rd_takeReport_below (by decide)]
  rfl

end

/-! ## Clearing STATUS (R537) -/

section
variable {s : State} {src : Nat}

theorem fltStatusClear_clears (hon : powered s = true) (hst : srcStatus s src = true) (hcause : srcCause s src = false) (hlatch : mfind s.flt.latch src = none)
    (hhold : ∀ e ∈ s.flt.hold, e.1 ≠ src) :
    reacted s (fltStatusClear src s) = { s with flt := { s.flt with status := s.flt.status.filter (· != src) } } := by
  have hkept : s.flt.hold.filter (fun e => e.1 != src || (decide (28 ≤ e.2) && decide (e.2 ≤ 39))) = s.flt.hold :=
    List.filter_eq_self.mpr fun e he => by simp [hhold e he]
  have hclear : fltStatusClear src s = { s with flt := { s.flt with status := s.flt.status.filter (· != src) } } := by
    simp [fltStatusClear, hon, hst, hcause, hlatch, hkept]
  rw [hclear]
  exact reacted_same rfl

theorem fltStatusClear_stands (hon : powered s = true) (hst : srcStatus s src = true) (hcause : srcCause s src = true) :
    reacted s (fltStatusClear src s) = bump s (Reg.FLT_CNT 1) := by
  have hclear : fltStatusClear src s = bump s (Reg.FLT_CNT 1) := by simp [fltStatusClear, hon, hst, hcause]
  rw [hclear]
  exact reacted_same (by rw [bump_flt])

theorem srcStatus_cleared (s : State) (src k : Nat) :
    srcStatus { s with flt := { s.flt with status := s.flt.status.filter (· != src) } } k = (k != src && srcStatus s k) := by
  rw [Bool.eq_iff_iff]
  simp [srcStatus, and_comm]

end

/-- Settles O25: the report taken from its latch, the status bit that a clear finds, the first fault by its tick, and the pointer by its place in the ring. -/
theorem faultCollectAndClear : Obligations.FaultCollectAndClear := by
  unfold Obligations.FaultCollectAndClear
  refine ⟨?unrecorded, ?none, ?clear, ?stands, ?empty, ?capture, ?ring, ?refused, ?recorded⟩
  case unrecorded =>
    intro s src r hnext hsev hlast
    have h := faultCollect_unrecorded hnext hsev hlast
    refine completes_of rfl ?_
    rw [reacted_same h.2.2.2]
    exact h
  case none =>
    intro s hnext
    have hcollect : faultCollect s = s := by simp only [faultCollect, hnext]
    exact completes_of rfl ((reacted_same (by rw [hcollect])).trans hcollect)
  case clear =>
    intro s src hon hst hcause hlatch hhold
    refine completes_of rfl ?_
    rw [fltStatusClear_clears hon hst hcause hlatch hhold]
    exact ⟨by simp [srcStatus_cleared], fun k hk => by simp [srcStatus_cleared, hk], rfl⟩
  case stands =>
    intro s src hon hst hcause
    refine completes_of rfl ?_
    rw [fltStatusClear_stands hon hst hcause]
    exact ⟨by rw [srcStatus, bump_flt, ← srcStatus, hst], rd_bump_self ..⟩
  case empty =>
    intro s hopen hfirst
    refine completes_of (t := firstFaultClear s) rfl ?_
    rw [firstFaultClear_empties hopen hfirst]
    exact ⟨flag_firstEmpty s, fun k hk => rd_firstEmpty hk⟩
  case capture =>
    intro s x l hopen hfirst hlen
    refine completes_of (t := firstFaultClear s) rfl ?_
    rw [firstFaultClear_captures hopen hfirst]
    exact ⟨flag_firstPut .., fun k hk => rd_firstPut_at _ _ (hlen ▸ hk)⟩
  case ring => exact fun s v hopen h => completes_of (t := ringRdWrite v s) rfl (getF_ringRdWrite hopen h)
  case refused => exact fun s v hopen h => completes_of (t := ringRdWrite v s) rfl (ringRdWrite_refused hopen h)
  case recorded =>
    intro s src r hnext hsev hvin hlast hroom
    have h := faultCollect_records hnext hsev hvin hlast hroom
    refine completes_of rfl ?_
    rw [reacted_same h.2.2.2.1]
    exact h

end Sys2Proof.Machine

/-! The NVM fault log (O16), and with it the partner's records and injected reports (O26). -/

namespace Sys2Proof.Machine

/-! ## Reading the log (R540) -/

section
variable {s : State} {v : Nat}

/-- The words that a read of the log shows, and whether they pass their CHECK. -/
def nvlogShown (s : State) (v : Nat) (rcd : List Word) : State :=
  setB (wrWords (setF s Reg.FLT_NVLOG_IDX_INDEX (v % 8192)) (Reg.FLT_NVLOG_DATA 0) rcd) Reg.FLT_NVLOG_STAT_VALID (recordWhole rcd)

theorem nvlogRead_record {fmt : Nat} {rcd : List Word} (hopen : operOpen s = true) (h : mfind s.nvm.area.log (v % 8192) = some (fmt, rcd)) :
    nvlogRead v s = nvlogShown s v rcd := by
  simp only [nvlogRead, operWrite_open hopen, h, nvlogShown]

/-- An erased place reads as the NVM reads there. -/
theorem nvlogRead_erased (hopen : operOpen s = true) (h : mfind s.nvm.area.log (v % 8192) = none) :
    nvlogRead v s = nvlogShown s v ((List.range 8).map fun k => Config.nvmErased (8 * (v % 8192) + k)) := by
  simp only [nvlogRead, operWrite_open hopen, h, nvlogShown]

variable {rcd : List Word}

theorem rd_nvlogShown_data {k : Nat} (hk : k < rcd.length) : rd (nvlogShown s v rcd) (Reg.FLT_NVLOG_DATA k) = rcd.getD k 0 := by
  rw [nvlogShown, rd_setB_ne]
  · exact rd_wrWords_at _ _ hk
  · simp only [Reg.FLT_NVLOG_DATA, Reg.FLT_NVLOG_STAT_VALID, Reg.FLT_NVLOG_STAT]
    omega

theorem flag_nvlogShown_valid : flag (nvlogShown s v rcd) Reg.FLT_NVLOG_STAT_VALID = recordWhole rcd := flag_setB_self _ _ _ (by decide) rfl

theorem getF_nvlogShown_index : getF (nvlogShown s v rcd) Reg.FLT_NVLOG_IDX_INDEX = v % 8192 := by
  rw [nvlogShown, getF_setB_reg _ _ _ _ (by decide), getF_wrWords_ne _ _ _ (.inl (by decide)), getF_setF_self _ _ _ (by decide)]
  exact Nat.mod_mod _ _

theorem nvlogShown_nvm : (nvlogShown s v rcd).nvm = s.nvm := by
  rw [nvlogShown, setB_nvm, nvm_of_offHost (wrWords_offHost ..), setF_nvm]

/-- Settles O16: a read shows the eight words that the log holds at the index. -/
theorem nvLogReadReturnsTheRecord : Obligations.NvLogReadReturnsTheRecord := by
  intro s v fmt r hopen hlog hlen
  refine completes_of (t := nvlogRead v s) rfl ?_
  rw [nvlogRead_record hopen hlog]
  exact ⟨fun k hk => rd_nvlogShown_data (hlen ▸ hk), flag_nvlogShown_valid, nvlogShown_nvm⟩

end

/-! ## Appending to the log (R539) -/

section
variable {s : State} {rcd : List Word} {rest : List (List Word)}

/-- The log with a record at its head, as the firmware leaves it before it counts an erase. -/
def nvlogPut (s : State) (rcd : List Word) (rest : List (List Word)) : State :=
  let s1 := persistWrite s (fun a f => { a with log := mset (nvlogErase a.log s.nvm.logHead) s.nvm.logHead (some (f, rcd)) })
  { s1 with
    nvm := { s1.nvm with logHead := (s.nvm.logHead + 1) % 8192, logWrapped := s.nvm.logWrapped || s.nvm.logHead + 1 == 8192 }
    flt := { s.flt with nvWait := rest } }

theorem nvlogAppend_appends (hwait : s.flt.nvWait = rcd :: rest) (hon : powered s = true) (hwarn : flag s Reg.PWR_VIN_STAT_WARN = false) :
    nvlogAppend s = if s.nvm.logHead % 2048 = 0 then wearBlocks (nvlogPut s rcd rest) (persistBlocks (nvlogPut s rcd rest) (2 + s.nvm.logHead / 2048))
      else nvlogPut s rcd rest := by
  have hok : (!powered s || programsBlocked s) = false := by rw [hon, programsBlocked, hwarn]; rfl
  simp only [nvlogAppend, hwait, hok, Bool.false_eq_true, if_false]
  rfl

theorem persistWrite_area (f : Persist → Nat → Persist) : (persistWrite s f).nvm.area = f s.nvm.area (persistFormats s).1 := by
  unfold persistWrite
  dsimp only
  split <;> rfl

theorem persistWrite_logHead (f : Persist → Nat → Persist) : (persistWrite s f).nvm.logHead = s.nvm.logHead := by
  unfold persistWrite
  dsimp only
  split <;> rfl

theorem nvlogPut_log : (nvlogPut s rcd rest).nvm.area.log =
    mset (nvlogErase s.nvm.area.log s.nvm.logHead) s.nvm.logHead (some ((persistFormats s).1, rcd)) :=
  congrArg Persist.log (persistWrite_area _)

/-- Counting erases leaves the log alone. -/
theorem wearBlocks_log (l : List Nat) : (wearBlocks s l).nvm.area.log = s.nvm.area.log ∧ (wearBlocks s l).nvm.logHead = s.nvm.logHead := by
  unfold wearBlocks wearShow wearWrite
  rw [levelIs_nvm, persistWrite_area, persistWrite_logHead]
  exact ⟨rfl, rfl⟩

theorem mfind_nvlogPut_head : mfind (nvlogPut s rcd rest).nvm.area.log s.nvm.logHead = some ((persistFormats s).1, rcd) := by
  rw [nvlogPut_log, mfind_mset_self]

/-- The sector that the head enters is erased but for the new record. -/
theorem mfind_nvlogPut_erased (hhead : s.nvm.logHead % 2048 = 0) {k : Nat} (hk : k / 2048 = s.nvm.logHead / 2048) (hne : k ≠ s.nvm.logHead) :
    mfind (nvlogPut s rcd rest).nvm.area.log k = none := by
  rw [nvlogPut_log, mfind_mset_ne _ _ hne, nvlogErase, if_pos hhead, mfind_filter (fun k => decide (k / 2048 ≠ s.nvm.logHead / 2048))]
  simp [hk]

end

/-! ## The partner's records (R538) -/

section
variable {s : State} {rcd : List Word}

theorem partnerFaultRecord_full (hon : powered s = true) (hpair : pairMode s = true) (hlen : rcd.length = 8) (hfull : recRingFull s = true) :
    partnerFaultRecord rcd s = bump s (Reg.FLT_CNT 5) := by
  simp [partnerFaultRecord, hon, hpair, hlen, hfull]

theorem partnerFaultRecord_enters (hon : powered s = true) (hpair : pairMode s = true) (hlen : rcd.length = 8) (hroom : recRingFull s = false) :
    partnerFaultRecord rcd s = bump (recRingPut s (partnerRecord rcd)) (Reg.FLT_CNT 4) := by
  simp [partnerFaultRecord, hon, hpair, hlen, hroom]

end

/-! ## Injected reports (R541, R586) -/

section
variable {s : State} {v : Nat}

/-- The registers of an injection that begins. -/
def injectRegs (s : State) (src : Nat) : State :=
  bump (setB (setB (setF s Reg.TST_INJ_CTL_SOURCE src) Reg.TST_INJ_CTL_EN true) Reg.TST_STAT_INJ_ON true) (Reg.TST_CNT 4)

theorem faultInject_refused (hopen : operOpen s = true) (hlc : s.boot.lc ≠ .factory) : faultInject v s = pwfTarget s Reg.TST_INJ_CTL v := by
  simp [faultInject, operWrite_open hopen, hlc]

theorem faultInject_injects (hopen : operOpen s = true) (hlc : s.boot.lc = .factory) (hsrc : srcAssigned (bits v 0 11) = true) (hen : bit v 16 = true) :
    faultInject v s = reportWith dramFailed true (injectRegs s (bits v 0 11)) (bits v 0 11) (injectPlace (bits v 0 11)) 0 := by
  simp [faultInject, operWrite_open hopen, hlc, hsrc, hen, injectRegs]

/-- A report whose latch is empty is latched, and does nothing else. -/
theorem reportWith_latches {more : State → Nat → State} {inj : Bool} {src loc d : Nat} (hon : powered s = true) (hsrc : srcAssigned src = true)
    (hlatch : mfind s.flt.latch src = none) :
    reportWith more inj s src loc d = { s with flt := { s.flt with latch := mset s.flt.latch src (some (stamp s inj src loc d)) } } := by
  simp [reportWith, hon, hsrc, hlatch]

theorem latched_of_reportWith {more : State → Nat → State} {inj : Bool} {src loc d : Nat} (hon : powered s = true) (hsrc : srcAssigned src = true)
    (hlatch : mfind s.flt.latch src = none) :
    (reportWith more inj s src loc d).regs = s.regs ∧ (mfind (reportWith more inj s src loc d).flt.latch src).map (·.injected) = some inj := by
  rw [reportWith_latches hon hsrc hlatch]
  exact ⟨rfl, by rw [mfind_mset_self]; rfl⟩

theorem powered_congr {t : State} (h : t.top = s.top) : powered t = powered s := by rw [powered, powered, h]

theorem faultInject_latches (hopen : operOpen s = true) (hlc : s.boot.lc = .factory) (hsrc : srcAssigned (bits v 0 11) = true) (hen : bit v 16 = true)
    (hlatch : mfind s.flt.latch (bits v 0 11) = none) :
    (faultInject v s).regs = (injectRegs s (bits v 0 11)).regs ∧ (mfind (faultInject v s).flt.latch (bits v 0 11)).map (·.injected) = some true := by
  have hflt : (injectRegs s (bits v 0 11)).flt = s.flt := by simp [injectRegs]
  have hon : powered (injectRegs s (bits v 0 11)) = true := (powered_congr (by simp [injectRegs])).trans (powered_of_operOpen hopen)
  rw [faultInject_injects hopen hlc hsrc hen]
  exact latched_of_reportWith hon hsrc (by rw [hflt, hlatch])

theorem flag_injectRegs_on (src : Nat) : flag (injectRegs s src) Reg.TST_STAT_INJ_ON = true := by
  rw [injectRegs, bump, flag_bumpN_ne _ _ (by decide), flag_setB_self _ _ _ (by decide) rfl]

theorem injected_injectRegs {src : Nat} (h : src < 2 ^ 11) : injected (injectRegs s src) = some src := by
  have hen : flag (injectRegs s src) Reg.TST_INJ_CTL_EN = true := by
    rw [injectRegs, bump, flag_bumpN_ne _ _ (by decide), flag_setB_beside _ _ _ _ (by decide) (by decide), flag_setB_self _ _ _ (by decide) rfl]
  have hsource : getF (injectRegs s src) Reg.TST_INJ_CTL_SOURCE = src := by
    rw [injectRegs, bump, getF_bumpN_ne _ _ (by decide), getF_setB_reg _ _ _ _ (by decide), setB, getF_setF_beside _ _ _ _ (by decide) (by decide),
      getF_setF_self _ _ _ (by decide)]
    exact Nat.mod_eq_of_lt h
  rw [injected, if_pos hen, hsource]

theorem rd_injectRegs_count (src : Nat) : rd (injectRegs s src) (Reg.TST_CNT 4) = countWord (rd s (Reg.TST_CNT 4)) 1 := by
  rw [injectRegs, rd_bump_self, rd_setB_ne _ _ _ _ (by decide), rd_setB_ne _ _ _ _ (by decide), rd_setF_ne _ _ _ _ (by decide)]

end

/-- Settles O26: the record at the head of the log, the words of a read, the partner's record in a ring with room, and the injected report in its latch. -/
theorem faultLogsAndInjection : Obligations.FaultLogsAndInjection := by
  unfold Obligations.FaultLogsAndInjection
  refine ⟨?append, ?sector, ?read, ?erased, ?partner, ?lost, ?inject, ?refused⟩
  case append =>
    intro s rcd rest hwait hon hwarn hhead
    refine completes_of (t := nvlogAppend s) rfl ?_
    rw [nvlogAppend_appends hwait hon hwarn, if_neg hhead]
    exact ⟨rfl, mfind_nvlogPut_head, rfl, rfl⟩
  case sector =>
    intro s rcd rest hwait hon hwarn hhead
    refine completes_of (t := nvlogAppend s) rfl ?_
    rw [nvlogAppend_appends hwait hon hwarn, if_pos hhead, (wearBlocks_log _).1, (wearBlocks_log _).2]
    exact ⟨mfind_nvlogPut_head, rfl, fun k hk hne => mfind_nvlogPut_erased hhead hk hne⟩
  case read =>
    intro s v fmt a b c d e f g h hopen hlog
    refine completes_of (t := nvlogRead v s) rfl ?_
    rw [nvlogRead_record hopen hlog]
    exact ⟨getF_nvlogShown_index, rd_nvlogShown_data (by simp), rd_nvlogShown_data (by simp), rd_nvlogShown_data (by simp), rd_nvlogShown_data (by simp),
      flag_nvlogShown_valid⟩
  case erased =>
    intro s v hopen hlog
    refine completes_of (t := nvlogRead v s) rfl fun k hk => ?_
    rw [nvlogRead_erased hopen hlog, rd_nvlogShown_data (by simpa using hk)]
    simp [hk]
  case partner =>
    intro s rcd hon hpair hlen hroom
    refine completes_of (t := partnerFaultRecord rcd s) rfl ?_
    rw [partnerFaultRecord_enters hon hpair hlen hroom, rd_bump_self, getF_bump_ne _ _ _ (by decide), bump_flt, rd_recRingPut_below (by decide) (by decide),
      recRingPut_flt]
    exact ⟨rfl, getF_recRingPut_wrIdx, rfl⟩
  case lost =>
    intro s rcd hon hpair hlen hfull
    refine completes_of (t := partnerFaultRecord rcd s) rfl ?_
    rw [partnerFaultRecord_full hon hpair hlen hfull]
    exact ⟨rd_bump_self .., regsBut_bumpN s _ 1, bump_flt ..⟩
  case inject =>
    intro s v hopen hlc hsrc hen hlatch
    obtain ⟨hregs, hput⟩ := faultInject_latches hopen hlc hsrc hen hlatch
    have hlt : bits v 0 11 < 2 ^ 11 := Nat.mod_lt _ (by decide)
    refine completes_of (t := faultInject v s) rfl ⟨(flag_congr hregs _).trans (flag_injectRegs_on _), ?_, (rd_congr hregs _).trans (rd_injectRegs_count _), hput⟩
    rw [injected, flag_congr hregs, getF_congr hregs, ← injected, injected_injectRegs hlt]
  case refused => exact fun s v hopen hlc => completes_of (t := faultInject v s) rfl (faultInject_refused hopen hlc)

end Sys2Proof.Machine

/-! Scratch memory: shared operations, windows and aliases (O27), the atomic registers and the background test (O28). -/

namespace Sys2Proof.Machine

/-! ## Words (R506, R517) -/

section
variable {s : State} {m w : Nat}

theorem scrData_scrPut_self (v : Nat) (e : EccErr) : scrData (scrPut s m w v e) m w = v % 2 ^ 64 := mget_mput_self ..

theorem scrErr_scrPut_self (v : Nat) (e : EccErr) : scrErr (scrPut s m w v e) m w = e := mget_mput_self ..

theorem scrData_scrPut_ne {j x : Nat} (v : Nat) (e : EccErr) (h : scrKey j x ≠ scrKey m w) : scrData (scrPut s m w v e) j x = scrData s j x :=
  mget_mput_ne _ _ _ _ h

theorem regs_scrPut (v : Nat) (e : EccErr) : (scrPut s m w v e).regs = s.regs := rfl

theorem held_scrPut (v : Nat) (e : EccErr) : (scrPut s m w v e).scr.held = s.scr.held := rfl

theorem scrKey_ne {x : Nat} (h : x ≠ w) : scrKey m x ≠ scrKey m w := fun hk => h (Nat.add_left_cancel hk)

theorem scrData_congr {t : State} (h : t.scr = s.scr) (m w : Nat) : scrData t m w = scrData s m w := by rw [scrData, h, ← scrData]

theorem scrErr_congr {t : State} (h : t.scr = s.scr) (m w : Nat) : scrErr t m w = scrErr s m w := by rw [scrErr, h, ← scrErr]

theorem scrRmw_good (h : scrErr s m w = .good) (f : Nat → Nat) : scrRmw s m w f = (scrData s m w, false, scrPut s m w (f (scrData s m w)) .good) := by
  simp only [scrRmw, h]

/-- A poisoned word stays poisoned (R517). -/
theorem scrRmw_poison (h : scrErr s m w = .poison) (f : Nat → Nat) : scrRmw s m w f = (scrData s m w, true, scrPut s m w (f (scrData s m w)) .poison) := by
  simp only [scrRmw, h]

theorem scrModify_good (h : scrErr s m w = .good) (f : Nat → Nat) : scrModify s m w f = scrPut s m w (f (scrData s m w)) .good := by
  rw [scrModify, scrRmw_good h]

/-- A full-word write with no injection armed gives fresh check bits. -/
theorem scrWrite_unarmed (h : flag s Reg.TST_MEMINJ_CTL_ARM = false) (v : Nat) : scrWrite s m w v = scrPut s m w (v % 2 ^ 64) .good := by
  have hmask : onesOf 8 0 = [] := by decide
  simp [scrWrite, injTake, h, injOutcome, hmask]

theorem scrRead_poison (h : scrErr s m w = .poison) : scrRead s m w = (scrData s m w, true, bump s (Reg.SCR_CNT 3)) := by
  simp only [scrRead, h, scrBadRead, if_true]

theorem scrFlushHeld_none (h : s.scr.held = none) : scrFlushHeld s = s := by simp only [scrFlushHeld, h]

end

/-! ## Shared operations (R511) -/

/-- The state in which a bank has taken the operation of pipeline n from its queue. -/
def bankTakes (s : State) (bank n : Nat) : State :=
  { s with scr := { s.scr with queue := mput [] s.scr.queue n (mget [] s.scr.queue n).tail, bankAt := mput 0 s.scr.bankAt bank ((n + 1) % 20) } }

theorem sharedScratchOp_applies {s : State} {bank : Fin 32} {n : Nat} {o : ShOp} (hpick : shrPick s bank (mget 0 s.scr.bankAt bank) 20 = some (n, o))
    (hgood : scrErr s 20 o.word = .good) :
    sharedScratchOp bank s = scrPut (bankTakes s bank n) 20 o.word (maskWord o.set o.mask (scrData s 20 o.word)) .good := by
  have htake : sharedScratchOp bank s = scrModify (bankTakes s bank n) 20 o.word (maskWord o.set o.mask) := by
    simp only [sharedScratchOp, hpick]
    rfl
  rw [htake, scrModify_good (s := bankTakes s bank n) hgood]
  rfl

theorem queue_bankTakes (s : State) (bank n : Nat) : mget [] (bankTakes s bank n).scr.queue n = (mget [] s.scr.queue n).tail := mget_mput_self ..

/-! ## Windows and aliases (R513, R514) -/

/-- The state in which the half word held for a window has been taken. -/
def heldTaken (s : State) : State := { s with scr := { s.scr with held := none } }

section
variable {s : State} {a v m w : Nat} (hopen : operOpen s = true) (htarget : scrTarget s a = some (m, w))
include hopen htarget

theorem scrWindowWrite_commits {h : ScrHeld} (hhigh : highHalf a = true) (hawake : scrAsleep s m = false) (hheld : s.scr.held = some h) (hmem : h.mem = m)
    (hword : h.word = w) (harm : flag s Reg.TST_MEMINJ_CTL_ARM = false) :
    scrWindowWrite a v s = scrPut (heldTaken s) m w ((h.low + v % 2 ^ 32 * 2 ^ 32) % 2 ^ 64) .good := by
  have hown : (highHalf a && h.mem == m && h.word == w) = true := by simp [hhigh, hmem, hword]
  simp only [scrWindowWrite, operWrite_open hopen, htarget, hheld, hown, if_true, hawake, Bool.false_eq_true, if_false]
  exact scrWrite_unarmed (s := heldTaken s) harm _

theorem scrWindowWrite_low (hlow : highHalf a = false) (hawake : scrAsleep s m = false) (hheld : s.scr.held = none) :
    scrWindowWrite a v s = { s with scr := { s.scr with held := some { addr := a, mem := m, word := w, low := v % 2 ^ 32 } } } := by
  simp only [scrWindowWrite, operWrite_open hopen, htarget, hheld, scrFlushHeld_none hheld, hawake, hlow, Bool.false_eq_true, if_false]

/-- A high half alone is a partial write, which counts. -/
theorem scrWindowWrite_high (hhigh : highHalf a = true) (hawake : scrAsleep s m = false) (hheld : s.scr.held = none) (hgood : scrErr s m w = .good) :
    scrWindowWrite a v s = bump (scrPut s m w (withHalf true (v % 2 ^ 32) (scrData s m w)) .good) (Reg.SCR_CNT 8) := by
  simp only [scrWindowWrite, operWrite_open hopen, htarget, hheld, scrFlushHeld_none hheld, hawake, hhigh, Bool.false_eq_true, if_false, if_true, scrHalfWrite,
    scrModify_good hgood]

theorem scrAlias_modifies (hheld : s.scr.held = none) (hgood : scrErr s m w = .good) (set : Bool) :
    scrAlias set a v s = scrPut s m w (maskWord set (v % 2 ^ 32 * (if highHalf a then 2 ^ 32 else 1)) (scrData s m w)) .good := by
  simp only [scrAlias, operWrite_open hopen, htarget, scrFlushHeld_none hheld, scrModify_good hgood]

end

/-- Settles O27: each access by the word that it writes. -/
theorem scratchWritesAndAliases : Obligations.ScratchWritesAndAliases := by
  unfold Obligations.ScratchWritesAndAliases
  refine ⟨?shared, ?commit, ?low, ?high, ?set, ?clear⟩
  case shared =>
    intro s bank n o hpick hgood
    refine completes_of (t := sharedScratchOp bank s) rfl ?_
    rw [sharedScratchOp_applies hpick hgood]
    exact ⟨scrData_scrPut_self .., queue_bankTakes s bank n, rfl, fun w hw => scrData_scrPut_ne _ _ (scrKey_ne hw)⟩
  case commit =>
    intro s a v m w h hopen htarget hhigh hawake hheld hmem hword harm
    refine completes_of (t := scrWindowWrite a v s) rfl ?_
    rw [scrWindowWrite_commits hopen htarget hhigh hawake hheld hmem hword harm, scrData_scrPut_self, Nat.mod_mod, scrErr_scrPut_self, held_scrPut, regs_scrPut]
    exact ⟨rfl, rfl, rfl, rfl⟩
  case low =>
    exact fun s a v m w hopen htarget hlow hawake hheld =>
      completes_of (t := scrWindowWrite a v s) rfl (scrWindowWrite_low hopen htarget hlow hawake hheld)
  case high =>
    intro s a v m w hopen htarget hhigh hawake hheld hgood
    refine completes_of (t := scrWindowWrite a v s) rfl ?_
    rw [scrWindowWrite_high hopen htarget hhigh hawake hheld hgood, scrData_congr (bump_scr _ _), scrData_scrPut_self, rd_bump_self]
    have hrd := rd_congr (regs_scrPut (s := s) (m := m) (w := w) (withHalf true (v % 2 ^ 32) (scrData s m w)) .good)
    refine ⟨rfl, by rw [hrd], fun x hx => ?_⟩
    rw [rd_bump_ne _ _ _ (List.ne_of_not_mem_cons hx), hrd]
  case set =>
    intro s a v m w hopen htarget hheld hgood
    refine completes_of (t := scrAlias true a v s) rfl ?_
    rw [scrAlias_modifies hopen htarget hheld hgood]
    exact ⟨scrData_scrPut_self .., rfl, fun j x hne => scrData_scrPut_ne _ _ hne⟩
  case clear =>
    intro s a v m w hopen htarget hheld hgood
    refine completes_of (t := scrAlias false a v s) rfl ?_
    rw [scrAlias_modifies hopen htarget hheld hgood]
    exact ⟨scrData_scrPut_self .., rfl, fun j x hne => scrData_scrPut_ne _ _ hne⟩

/-! ## The atomic registers (R515) -/

/-- The state as an atomic operation leaves it, with the old word and the status shown. -/
def atomicShown (x : Nat × Bool × State) : State :=
  setF (wrPair x.2.2 Reg.SCR_ATOM_RES_LO Reg.SCR_ATOM_RES_HI x.1) Reg.SCR_ATOM_STAT_STATUS (b2n x.2.1)

section
variable (x : Nat × Bool × State)

theorem atomicShown_scr : (atomicShown x).scr = x.2.2.scr := by rw [atomicShown, setF_scr, wrPair_scr]

theorem rd_atomicShown_ne {a : Nat} (hlo : a ≠ Reg.SCR_ATOM_RES_LO) (hhi : a ≠ Reg.SCR_ATOM_RES_HI) (hstat : a ≠ Reg.SCR_ATOM_STAT) :
    rd (atomicShown x) a = rd x.2.2 a := by
  rw [atomicShown, rd_setF_ne _ _ _ _ hstat, wrPair, rd_wr_ne _ _ hhi, rd_wr_ne _ _ hlo]

theorem rd_atomicShown_lo : rd (atomicShown x) Reg.SCR_ATOM_RES_LO = Word.ofNat x.1 := by
  rw [atomicShown, rd_setF_ne _ _ _ _ (by decide), wrPair, rd_wr_ne _ _ (by decide), rd_wr_self]

theorem rd_atomicShown_hi : rd (atomicShown x) Reg.SCR_ATOM_RES_HI = Word.ofNat (x.1 / 2 ^ 32) := by
  rw [atomicShown, rd_setF_ne _ _ _ _ (by decide), wrPair, rd_wr_self]

theorem getF_atomicShown_status : getF (atomicShown x) Reg.SCR_ATOM_STAT_STATUS = b2n x.2.1 := by
  rw [atomicShown, getF_setF_self _ _ _ (by decide)]
  cases x.2.1 <;> rfl

end

section
variable {s : State} {v : Nat}

theorem scrAtomGo_busy (hopen : operOpen s = true) (hbusy : flag s Reg.SCR_ATOM_STAT_BUSY = true) : scrAtomGo v s = pwfTarget s Reg.SCR_ATOM_CTL v := by
  simp only [scrAtomGo, scrAtomic, operWrite_open hopen, hbusy, if_true]

/-- The state in which OP of SCR_ATOM_CTL has taken its bit. -/
def atomicOp (s : State) (op : Nat) : State := setF s Reg.SCR_ATOM_CTL_OP op

theorem setF_atomicOp (op : Nat) : setF s Reg.SCR_ATOM_CTL_OP op = atomicOp s op := rfl

theorem getF_atomicOp (op : Nat) {f : Fld} (h : f.reg ≠ Reg.SCR_ATOM_CTL) : getF (atomicOp s op) f = getF s f := getF_setF_reg _ _ _ _ h

theorem scrAsleep_atomicOp (op m : Nat) : scrAsleep (atomicOp s op) m = scrAsleep s m := by
  have hreg : (Reg.PWR_SLICE_STAT_STATE m).reg ≠ Reg.SCR_ATOM_CTL ∨ ¬ m < 20 := by
    simp only [Reg.PWR_SLICE_STAT_STATE, Reg.PWR_SLICE_STAT, Reg.SCR_ATOM_CTL]
    omega
  rcases hreg with hreg | hm
  · rw [scrAsleep, getF_atomicOp _ hreg, ← scrAsleep]
  · simp [scrAsleep, hm]

theorem scrAtomGo_acts (hopen : operOpen s = true) (hidle : flag s Reg.SCR_ATOM_STAT_BUSY = false) (hheld : s.scr.held = none)
    (hpad : getF s Reg.SCR_ATOM_ADDR_PS < 20) (hawake : scrAsleep s (getF s Reg.SCR_ATOM_ADDR_PS) = false) :
    scrAtomGo v s = atomicShown ((if bit v 1 then atomSwap else atomAdd) (atomicOp s (bits v 1 1)) (getF s Reg.SCR_ATOM_ADDR_PS) (getF s Reg.SCR_ATOM_ADDR_WORD)
      (rdPair s Reg.SCR_ATOM_OPND_LO Reg.SCR_ATOM_OPND_HI)) := by
  have hps : getF (atomicOp s (bits v 1 1)) Reg.SCR_ATOM_ADDR_PS = getF s Reg.SCR_ATOM_ADDR_PS := getF_atomicOp _ (by decide)
  have hword : getF (atomicOp s (bits v 1 1)) Reg.SCR_ATOM_ADDR_WORD = getF s Reg.SCR_ATOM_ADDR_WORD := getF_atomicOp _ (by decide)
  have hopnd : rdPair (atomicOp s (bits v 1 1)) Reg.SCR_ATOM_OPND_LO Reg.SCR_ATOM_OPND_HI = rdPair s Reg.SCR_ATOM_OPND_LO Reg.SCR_ATOM_OPND_HI := by
    rw [rdPair, atomicOp, rd_setF_ne _ _ _ _ (by decide), rd_setF_ne _ _ _ _ (by decide), ← rdPair]
  simp only [scrAtomGo, scrAtomic, operWrite_open hopen, hidle, scrFlushHeld_none hheld, setF_atomicOp, hps, hword, hopnd, Nat.not_le.mpr hpad, scrAsleep_atomicOp, hawake,
    Bool.false_eq_true, if_false]
  rfl

end

section
variable {s : State} {m w : Nat} (o : Nat)

theorem atomAdd_good (h : scrErr s m w = .good) : atomAdd s m w o = (scrData s m w, false, scrPut s m w ((scrData s m w + o) % 2 ^ 64) .good) := by
  rw [atomAdd, scrRmw_good h]

theorem atomAdd_poison (h : scrErr s m w = .poison) : atomAdd s m w o = (scrData s m w, true, scrPut s m w ((scrData s m w + o) % 2 ^ 64) .poison) := by
  rw [atomAdd, scrRmw_poison h]

/-- SWAP on a poisoned word counts the read and writes the operand, which clears the poison (R517). -/
theorem atomSwap_poison (h : scrErr s m w = .poison) (harm : flag s Reg.TST_MEMINJ_CTL_ARM = false) :
    atomSwap s m w o = (scrData s m w, true, scrPut (bump s (Reg.SCR_CNT 3)) m w (o % 2 ^ 64) .good) := by
  have harmed : flag (bump s (Reg.SCR_CNT 3)) Reg.TST_MEMINJ_CTL_ARM = false := by rw [bump, flag_bumpN_ne _ _ (by decide), harm]
  rw [atomSwap, scrRead_poison h]
  dsimp only
  rw [scrWrite_unarmed harmed]

theorem scr_atomicOp (op : Nat) : (atomicOp s op).scr = s.scr := setF_scr ..

theorem rd_atomicOp_ne (op : Nat) {a : Nat} (h : a ≠ Reg.SCR_ATOM_CTL) : rd (atomicOp s op) a = rd s a := rd_setF_ne _ _ _ _ h

end

section
variable {s : State} (hopen : operOpen s = true) (hidle : flag s Reg.SCR_ATOM_STAT_BUSY = false) (hheld : s.scr.held = none)
  (hpad : getF s Reg.SCR_ATOM_ADDR_PS < 20) (hawake : scrAsleep s (getF s Reg.SCR_ATOM_ADDR_PS) = false)
include hopen hidle hheld hpad hawake

theorem scrAtomGo_add : scrAtomGo 1 s = atomicShown (atomAdd (atomicOp s 0) (getF s Reg.SCR_ATOM_ADDR_PS) (getF s Reg.SCR_ATOM_ADDR_WORD)
    (rdPair s Reg.SCR_ATOM_OPND_LO Reg.SCR_ATOM_OPND_HI)) := by
  have hswap : bit 1 1 = false := by decide
  have hop : bits 1 1 1 = 0 := by decide
  rw [scrAtomGo_acts hopen hidle hheld hpad hawake, hswap, hop, if_neg (by decide)]

theorem scrAtomGo_swap : scrAtomGo 3 s = atomicShown (atomSwap (atomicOp s 1) (getF s Reg.SCR_ATOM_ADDR_PS) (getF s Reg.SCR_ATOM_ADDR_WORD)
    (rdPair s Reg.SCR_ATOM_OPND_LO Reg.SCR_ATOM_OPND_HI)) := by
  have hswap : bit 3 1 = true := by decide
  have hop : bits 3 1 1 = 1 := by decide
  rw [scrAtomGo_acts hopen hidle hheld hpad hawake, hswap, hop, if_pos rfl]

end

/-! ## The background test (R519) -/

section
variable {s : State} {m : Fin 21}

/-- A region whose words are all good has nothing to handle. -/
theorem scrTestWords_good (h : ∀ w, scrErr s m w = .good) (r : Nat) : scrTestWords s m r [] = [] :=
  List.filterMap_eq_nil_iff.mpr fun i _ => by simp [h]

/-- The state in which the test has moved to the region after the one that it takes. -/
def regionTaken (s : State) (m : Nat) : State :=
  { s with scr := { s.scr with region := mput 0 s.scr.region m ((mget 0 s.scr.region m + 1) % (scrWords m / 512)) } }

/-- The next region has been tested without an error. -/
def regionTested (s : State) (m : Nat) : State :=
  bump (setF (setF (regionTaken s m) Reg.SCR_TEST_STAT_MEM m) Reg.SCR_TEST_STAT_REGION (mget 0 s.scr.region m)) (Reg.SCR_CNT 4)

theorem scrTestStep_clean (hrun : s.top = .run) (hon : scrInterval s ≠ 0) (hslice : m.val < 20 → getF s (Reg.PWR_SLICE_STAT_STATE m) = 1)
    (hdue : s.scr.dueNow = []) (hgood : ∀ w, scrErr s m w = .good) : scrTestStep m [] s = regionTested s m := by
  have hready : (s.top != .run || scrInterval s == 0 || (decide (m.val < 20) && !(getF s (Reg.PWR_SLICE_STAT_STATE m) == 1 ||
      getF s (Reg.PWR_SLICE_STAT_STATE m) == 2 || getF s (Reg.PWR_SLICE_STAT_STATE m) == 6))) = false := by
    by_cases hm : m.val < 20
    · simp [hrun, hon, hm, hslice hm]
    · simp [hrun, hon, hm]
  have hstep : scrTestStep m [] s = bump (setF (setF ((scrTestWords s m (mget 0 s.scr.region m) []).foldl (scrTestWord m []) (regionTaken s m))
      Reg.SCR_TEST_STAT_MEM m) Reg.SCR_TEST_STAT_REGION (mget 0 s.scr.region m)) (Reg.SCR_CNT 4) := by
    rw [scrTestStep, hready, hdue]
    rfl
  rw [hstep, scrTestWords_good hgood, List.foldl_nil, regionTested]

theorem rd_regionTested_count : rd (regionTested s m) (Reg.SCR_CNT 4) = countWord (rd s (Reg.SCR_CNT 4)) 1 := by
  rw [regionTested, rd_bump_self, rd_setF_ne _ _ _ _ (by decide), rd_setF_ne _ _ _ _ (by decide)]
  rfl

theorem getF_regionTested_mem : getF (regionTested s m) Reg.SCR_TEST_STAT_MEM = m.val := by
  rw [regionTested, getF_bump_ne _ _ _ (by decide), getF_setF_beside _ _ _ _ (by decide) (by decide), getF_setF_self _ _ _ (by decide)]
  exact Nat.mod_eq_of_lt (b := 2 ^ 5) (by omega)

end

/-- Settles O28: each atomic operation by what it finds in the word, and a test step by its region. -/
theorem scratchAtomicsAndTest : Obligations.ScratchAtomicsAndTest := by
  unfold Obligations.ScratchAtomicsAndTest
  refine ⟨?add, ?addPoison, ?swapPoison, ?busy, ?test⟩
  case add =>
    intro s hopen hidle hheld hpad hawake hgood
    refine completes_of (t := scrAtomGo 1 s) rfl ?_
    rw [scrAtomGo_add hopen hidle hheld hpad hawake, atomAdd_good _ ((scrErr_congr (scr_atomicOp 0) _ _).trans hgood), scrData_congr (atomicShown_scr _),
      scrData_scrPut_self, scrData_congr (scr_atomicOp 0), Nat.mod_mod, rd_atomicShown_lo, rd_atomicShown_hi, getF_atomicShown_status]
    exact ⟨rfl, rfl, rfl, rfl⟩
  case addPoison =>
    intro s hopen hidle hheld hpad hawake hpoison
    refine completes_of (t := scrAtomGo 1 s) rfl ?_
    rw [scrAtomGo_add hopen hidle hheld hpad hawake, atomAdd_poison _ ((scrErr_congr (scr_atomicOp 0) _ _).trans hpoison), scrErr_congr (atomicShown_scr _),
      scrErr_scrPut_self, getF_atomicShown_status, rd_atomicShown_ne _ (by decide) (by decide) (by decide), rd_congr (regs_scrPut ..),
      rd_atomicOp_ne _ (by decide)]
    exact ⟨rfl, rfl, rfl⟩
  case swapPoison =>
    intro s hopen hidle hheld hpad hawake hpoison harm
    refine completes_of (t := scrAtomGo 3 s) rfl ?_
    have harmed : flag (atomicOp s 1) Reg.TST_MEMINJ_CTL_ARM = false := by rw [flag, getF_atomicOp _ (by decide), ← flag, harm]
    rw [scrAtomGo_swap hopen hidle hheld hpad hawake, atomSwap_poison _ ((scrErr_congr (scr_atomicOp 1) _ _).trans hpoison) harmed,
      scrErr_congr (atomicShown_scr _), scrData_congr (atomicShown_scr _), scrErr_scrPut_self, scrData_scrPut_self, Nat.mod_mod, getF_atomicShown_status,
      rd_atomicShown_ne _ (by decide) (by decide) (by decide), rd_congr (regs_scrPut ..), rd_bump_self, rd_atomicOp_ne _ (by decide)]
    exact ⟨rfl, rfl, rfl, rfl⟩
  case busy => exact fun s hopen hbusy => completes_of (t := scrAtomGo 3 s) rfl (scrAtomGo_busy hopen hbusy)
  case test =>
    intro s m hrun hon hslice hdue hgood
    refine completes_of (t := scrTestStep m [] s) rfl ?_
    rw [scrTestStep_clean hrun hon hslice hdue hgood]
    exact ⟨mget_mput_self .., rd_regionTested_count, getF_regionTested_mem, rfl⟩

end Sys2Proof.Machine

/-! The in-service update: what its shared operations leave alone, the stages up to the activation (O35), and the trial to its end (O36). -/

namespace Sys2Proof.Machine

/-! ## The directory and the wear table -/

section
variable {s : State}

/-- Counting erases changes the NVM, and AT_LIMIT follows. -/
theorem wearBlocks_shape (s : State) (l : List Nat) : ∃ n, wearBlocks s l = wearShow { s with nvm := n } := by
  unfold wearBlocks wearWrite persistWrite
  exact ⟨_, rfl⟩

/-- A change of the directory changes the NVM and what the loader knows of the directory; only the report of AT_LIMIT goes further. -/
theorem dirChange_shape (s : State) (f : Directory → Directory) :
    ∃ n b, dirChange s f = { s with nvm := n, boot := b } ∨ dirChange s f = wearShow { s with nvm := n, boot := b } := by
  unfold dirChange
  split
  next d _ =>
    unfold dirWrite
    split
    · exact ⟨s.nvm, _, .inl rfl⟩
    · obtain ⟨n, hn⟩ := wearBlocks_shape (s := _) _
      exact ⟨n, _, .inr hn⟩
  · exact ⟨s.nvm, s.boot, .inl rfl⟩

variable (f : Directory → Directory)

theorem rd_dirChange {a : Nat} (h : OffReport a) : rd (dirChange s f) a = rd s a := by
  obtain ⟨n, b, hd | hd⟩ := dirChange_shape s f <;> rw [hd]
  · exact rd_congr (by rfl) a
  · exact (rd_levelIs h).trans (rd_congr (by rfl) a)

theorem getF_dirChange {g : Fld} (h : OffReport g.reg) : getF (dirChange s f) g = getF s g := by rw [getF, rd_dirChange f h, ← getF]

theorem dirChange_upd : (dirChange s f).upd = s.upd := by
  obtain ⟨n, b, hd | hd⟩ := dirChange_shape s f <;> rw [hd]
  exact levelIs_upd ..

/-- Without a VIN warning the directory is written at once. -/
theorem dirChange_dirOwed (hopen : programsBlocked s = false) (howed : s.boot.dirOwed = none) : (dirChange s f).boot.dirOwed = none := by
  unfold dirChange
  split
  next d _ =>
    rw [dirWrite, hopen, if_neg Bool.false_ne_true, dirCommit]
    obtain ⟨n, hn⟩ := wearBlocks_shape (s := _) _
    rw [hn]
    exact congrArg BootSt.dirOwed (levelIs_boot ..)
  · exact howed

end

/-! ## UPD_STAT -/

section
variable {s : State} (n : Nat)

theorem updState_updStatus : updState (updStatus s n) = updState s := getF_setF_beside _ _ _ _ (by decide) (by decide)

theorem lastStatus_updStatus : getF (updStatus s n) Reg.UPD_STAT_LAST_STATUS = n % 256 := getF_setF_self _ _ _ (by decide)

theorem updState_updEnter : updState (updEnter s n) = n % 16 := getF_setF_self _ _ _ (by decide)

theorem lastStatus_updEnter : getF (updEnter s n) Reg.UPD_STAT_LAST_STATUS = getF s Reg.UPD_STAT_LAST_STATUS :=
  getF_setF_beside _ _ _ _ (by decide) (by decide)

theorem updStatus_upd : (updStatus s n).upd = s.upd := rfl

theorem updStatus_pwr : (updStatus s n).pwr = s.pwr := rfl

theorem updStatus_nvm : (updStatus s n).nvm = s.nvm := rfl

theorem updEnter_nvm : (updEnter s n).nvm = s.nvm := rfl

theorem updEnter_upd : (updEnter s n).upd = s.upd := rfl

theorem rd_updStatus {a : Nat} (h : a ≠ Reg.UPD_STAT) : rd (updStatus s n) a = rd s a := rd_setF_ne _ _ _ _ h

theorem rd_updEnter {a : Nat} (h : a ≠ Reg.UPD_STAT) : rd (updEnter s n) a = rd s a := rd_setF_ne _ _ _ _ h

theorem updState_congr {t : State} (h : t.regs = s.regs) : updState t = updState s := getF_congr h _

/-- A flag of UPD_STAT beside STATE and LAST_STATUS. -/
theorem flag_updStatus {g : Fld} (h : g.lo + g.len ≤ 16) : flag (updStatus s n) g = flag s g := by
  rw [flag, updStatus, getF_setF_beside _ _ _ _ (h.trans (by decide)) (.inl h), ← flag]

/-- A command of UPD_CTL that stands alone, in RUN, acts and leaves its status (R389). -/
theorem updCtl_acts {k v : Nat} {act : State → Nat × State} (hrun : s.top = .run) (hbit : bits (Nat.lor v (2 ^ k)) 0 6 = 2 ^ k) :
    updCtl k v s act = updStatus (act s).2 (act s).1 := by
  have hfree : (s.top != .run || bits (Nat.lor v (2 ^ k)) 0 6 != 2 ^ k) = false := by rw [hrun, hbit, bne_self_eq_false, bne_self_eq_false]; rfl
  rw [updCtl, operWrite_open (operOpen_of_run hrun), hfree]
  rfl

theorem stagedShow_nvm : (stagedShow s).nvm = s.nvm := rfl

theorem stagedShow_upd : (stagedShow s).upd = s.upd := rfl

theorem getF_setB_beside (f g : Fld) (b : Bool) (hg : g.lo + g.len ≤ 32) (h : g.lo + g.len ≤ f.lo ∨ f.lo + f.len ≤ g.lo) :
    getF (setB s f b) g = getF s g := getF_setF_beside _ _ _ _ hg h

theorem updState_stagedShow : updState (stagedShow s) = updState s := by
  rw [stagedShow, updState, getF_setB_beside _ _ _ (by decide) (by decide), getF_setB_beside _ _ _ (by decide) (by decide), ← updState]

theorem lastStatus_stagedShow : getF (stagedShow s) Reg.UPD_STAT_LAST_STATUS = getF s Reg.UPD_STAT_LAST_STATUS := by
  rw [stagedShow, getF_setB_beside _ _ _ (by decide) (by decide), getF_setB_beside _ _ _ (by decide) (by decide)]

theorem flag_stagedShow_fw : flag (stagedShow s) Reg.UPD_STAT_FW_STAGED = s.upd.fw.isSome := by
  rw [stagedShow, flag_setB_beside _ _ _ _ (by decide) (.inr (.inl (by decide))), flag_setB_self _ _ _ (by decide) rfl]

theorem flag_stagedShow_cfg : flag (stagedShow s) Reg.UPD_STAT_CFG_STAGED = s.upd.cfg.isSome := flag_setB_self _ _ _ (by decide) rfl

theorem rd_stagedShow {a : Nat} (h : a ≠ Reg.UPD_STAT) : rd (stagedShow s) a = rd s a := by
  rw [stagedShow, rd_setB_ne _ _ _ _ h, rd_setB_ne _ _ _ _ h]

end

/-! ## Staging and preparation (R390 to R393) -/

section
variable {s : State} {v : Nat}

theorem updState_writeRw {a m : Nat} (h : Reg.UPD_STAT ≠ a) : updState (writeRw s a v m) = updState s := getF_wr_ne _ _ _ _ h

theorem writeRw_upd (s : State) (a v m : Nat) : (writeRw s a v m).upd = s.upd := rfl

/-- The agent stages into a slot. -/
def stagingBegun (s : State) (typ slot : Nat) : State :=
  let s1 := wr (updEnter s 1) Reg.UPD_STAGE_STAT 1
  { s1 with upd := { s1.upd with staging := some (typ, slot) } }

theorem regs_stagingBegun (typ slot : Nat) : (stagingBegun s typ slot).regs = (wr (updEnter s 1) Reg.UPD_STAGE_STAT 1).regs := rfl

theorem updState_stagingBegun (typ slot : Nat) : updState (stagingBegun s typ slot) = 1 := by
  rw [updState_congr (regs_stagingBegun typ slot), updState, getF_wr_ne _ _ _ _ (by decide)]
  exact updState_updEnter 1

theorem stageStat_stagingBegun (typ slot : Nat) : rd (stagingBegun s typ slot) Reg.UPD_STAGE_STAT = 1 := by
  rw [rd_congr (regs_stagingBegun typ slot), rd_wr_self]

/-- A START that is not refused: the agent stages into the other slot. -/
theorem stageStart_stages (hrun : s.top = .run) (hok : stageRefusal s (bits v 1 2) = 0) :
    stageStart v s = stagingBegun (writeRw s Reg.UPD_STAGE_CTL v 6) (bits v 1 2) (stageSlot s (bits v 1 2)) := by
  rw [stageStart, operWrite_open (operOpen_of_run hrun)]
  dsimp only
  rw [hok]
  rfl

theorem stageRefusal_busy (hrun : s.top = .run) (h : updState s = 1 ∨ updState s = 2) (typ : Nat) : stageRefusal s typ = 1 := by
  simp [stageRefusal, hrun, h]

theorem stageStart_refused {r : Nat} (hrun : s.top = .run) (h : stageRefusal s (bits v 1 2) = r) (h0 : r ≠ 0) (h18 : r ≠ 18) :
    stageStart v s = updStatus (writeRw s Reg.UPD_STAGE_CTL v 6) r := by
  rw [stageStart, operWrite_open (operOpen_of_run hrun)]
  dsimp only
  rw [h, if_neg h18, if_pos h0]

/-- The header could not be read. -/
theorem stagingDone_unread {a b : Nat} (hopen : programsBlocked s = false) (hstate : updState s = 1) (hst : s.upd.staging = some (a, b)) :
    stagingDone false true [] [] [] s = stageFailed s 16 0 := by
  simp [stagingDone, hopen, hstate, hst]

/-- A whole image that stands every check. -/
theorem stagingDone_whole {typ slot : Nat} {d : Bytes} (hopen : programsBlocked s = false) (hstate : updState s = 1) (hst : s.upd.staging = some (typ, slot))
    (hcrc : hdrCrcOk (parseImage d slot false).header = true) (hformat : formatOk (parseImage d slot false) typ (slotPlace s typ slot).2 = true)
    (hlen : (parseImage d slot false).length = getF s Reg.UPD_STAGE_LEN_LEN) (hblocks : badBlock (parseImage d slot false) = none)
    (hfault : imageFault s.otp (parseImage d slot false) typ = 0) (h256 : 256 ≤ d.length) :
    stagingDone true true d [] [] s = stageDone s typ slot (parseImage d slot false) := by
  have hread : ¬ (d.length < 256 ∧ !true) := fun h => absurd h.1 (by omega)
  simp [stagingDone, hopen, hstate, hst, hcrc, hformat, hlen, hblocks, hfault]

theorem updState_stageDone (typ slot : Nat) (x : Image) : updState (stageDone s typ slot x) = 2 := by
  rw [stageDone, updState_stagedShow, updState_updStatus, updState_updEnter]

theorem lastStatus_stageDone (typ slot : Nat) (x : Image) : getF (stageDone s typ slot x) Reg.UPD_STAT_LAST_STATUS = 0 := by
  rw [stageDone, lastStatus_stagedShow, lastStatus_updStatus]

theorem prepareDone_fails {e : Nat} (hstate : updState s = 2) (hshadow : buildShadow s = .error e) :
    prepareDone s = updStatus (updEnter { setB s Reg.UPD_STAGE_STAT_BUSY false with upd := { s.upd with shadow := none } } 0) e := by
  rw [prepareDone, if_neg (not_not_intro hstate), hshadow]
  rfl

/-- The prepared state stands: the registers that show it before the agent enters PREPARED. -/
def preparedShown (s : State) (b : Bank) : State :=
  wrWords (setF { setB s Reg.UPD_STAGE_STAT_BUSY false with upd := { s.upd with shadow := some b } } Reg.UPD_STAT_REQ_CLASS (requiredClass s b))
    (Reg.UPD_NEW_DIGEST 0) (leWords 12 (digestOf b))

theorem prepareDone_stands {b : Bank} (hstate : updState s = 2) (hshadow : buildShadow s = .ok b) :
    prepareDone s = updStatus (updEnter (preparedShown s b) 3) 0 := by
  rw [prepareDone, if_neg (not_not_intro hstate), hshadow]
  rfl

theorem preparedShown_upd (b : Bank) : (preparedShown s b).upd = { s.upd with shadow := some b } := upd_of_offHost (wrWords_offHost ..)

theorem reqClass_preparedShown (b : Bank) : getF (preparedShown s b) Reg.UPD_STAT_REQ_CLASS = requiredClass s b % 4 := by
  rw [preparedShown, getF_wrWords_ne _ _ _ (.inl (by decide)), getF_setF_self _ _ _ (by decide)]
  rfl

theorem reqClass_entered (n k : Nat) : getF (updStatus (updEnter s n) k) Reg.UPD_STAT_REQ_CLASS = getF s Reg.UPD_STAT_REQ_CLASS := by
  rw [updStatus, getF_setF_beside _ _ _ _ (by decide) (by decide), updEnter, getF_setF_beside _ _ _ _ (by decide) (by decide)]

end

/-! ## Arming and activation (R394 to R397) -/

section
variable {s : State} {v : Nat}

theorem activation_early (h : s.ptp.total < actTime s) : activation s = s := by
  unfold activation
  split
  · rfl
  · exact if_pos (.inr h)

theorem activation_bare {b : Bank} (hstate : updState s = 4) (hshadow : s.upd.shadow = some b) (hdue : actTime s ≤ s.ptp.total) (hfw : s.upd.fw = none)
    (hcfg : s.upd.cfg = none) : activation s = enterTrial (bump (switchBanks (updEnter s 5) b) (Reg.UPD_CNT 0)) := by
  have hnow : ¬ (updState s ≠ 4 ∨ s.ptp.total < actTime s) := by simp [hstate, hdue]
  simp [activation, hshadow, hnow, hfw, hcfg]

theorem enterTrial_upd : (enterTrial s).upd = { s.upd with window := (s.tick, confirmS s) } := dirChange_upd _

theorem updState_enterTrial : updState (enterTrial s) = 6 :=
  (getF_dirChange _ (by simp [OffReport, Reg.UPD_STAT_STATE, Reg.UPD_STAT])).trans (updState_updEnter 6)

/-- The digest that UPD_NEW_DIGEST shows, in bytes. -/
def newDigest (s : State) : Bytes := (List.range 12).flatMap fun k => leBytes 4 (rd s (Reg.UPD_NEW_DIGEST k)).toNat

theorem arm_arms (hrun : s.top = .run) (hbit : bits (Nat.lor v 1) 0 6 = 1) (hstate : updState s = 3) (hclass : getF s Reg.UPD_STAT_REQ_CLASS ≠ 2)
    (htime : s.ptp.total + 100000000 ≤ actTime s) : arm v s = updStatus (updEnter { s with upd := { s.upd with otherDigest := newDigest s } } 4) 0 := by
  rw [arm, updCtl_acts (k := 0) hrun hbit, if_neg (not_not_intro hstate), if_neg hclass, if_neg (Nat.not_lt.mpr htime)]
  rfl

theorem arm_class2 (hrun : s.top = .run) (hbit : bits (Nat.lor v 1) 0 6 = 1) (hstate : updState s = 3) (hclass : getF s Reg.UPD_STAT_REQ_CLASS = 2) :
    arm v s = updStatus s 19 := by
  rw [arm, updCtl_acts (k := 0) hrun hbit, if_neg (not_not_intro hstate), if_pos hclass]

theorem disarm_early (hrun : s.top = .run) (hbit : bits (Nat.lor v 2) 0 6 = 2) (hstate : updState s = 4) (htime : s.ptp.total < actTime s) :
    disarm v s = updStatus (updEnter s 3) 0 := by
  rw [disarm, updCtl_acts (k := 1) hrun hbit, activation_early htime, if_pos hstate]

end

/-- Settles O35: each command by what it leaves in UPD_STAT and in the agent's own state. -/
theorem updateStageToActivation : Obligations.UpdateStageToActivation := by
  unfold Obligations.UpdateStageToActivation
  refine ⟨?start, ?startBusy, ?unread, ?whole, ?unprepared, ?prepared, ?arm, ?armClass2, ?disarm, ?activation, ?early⟩
  case start =>
    intro s v hrun hok
    refine completes_of (t := stageStart v s) rfl ?_
    rw [stageStart_stages hrun hok]
    exact ⟨updState_stagingBegun _ _, stageStat_stagingBegun _ _, rfl, rfl⟩
  case startBusy =>
    intro s v hrun hstate
    refine completes_of (t := stageStart v s) rfl ?_
    rw [stageStart_refused hrun (stageRefusal_busy hrun hstate _) (by decide) (by decide)]
    rw [lastStatus_updStatus, updState_updStatus, updState_writeRw (by decide), updStatus_upd, writeRw_upd]
    exact ⟨rfl, rfl, rfl⟩
  case unread => exact fun s a b hopen hstate hst => completes_of (t := stagingDone false true [] [] [] s) rfl (stagingDone_unread hopen hstate hst)
  case whole =>
    exact fun s typ slot d hopen hstate hst hcrc hformat hlen hblocks hfault h256 =>
      completes_of (t := stagingDone true true d [] [] s) rfl (stagingDone_whole hopen hstate hst hcrc hformat hlen hblocks hfault h256)
  case unprepared =>
    intro s e hstate hshadow
    refine completes_of (t := prepareDone s) rfl ?_
    rw [prepareDone_fails hstate hshadow]
    rw [updState_updStatus, updState_updEnter, lastStatus_updStatus]
    exact ⟨rfl, rfl, rfl⟩
  case prepared =>
    intro s b hstate hshadow
    refine completes_of (t := prepareDone s) rfl ?_
    rw [prepareDone_stands hstate hshadow]
    rw [updState_updStatus, updState_updEnter, lastStatus_updStatus, reqClass_entered, reqClass_preparedShown, updStatus_upd, updEnter_upd, preparedShown_upd]
    exact ⟨rfl, rfl, rfl, rfl⟩
  case arm =>
    intro s v hrun hbit hstate hclass htime
    refine completes_of (t := arm v s) rfl ?_
    rw [arm_arms hrun hbit hstate hclass htime]
    rw [updState_updStatus, updState_updEnter, lastStatus_updStatus]
    exact ⟨rfl, rfl, rfl⟩
  case armClass2 =>
    intro s v hrun hbit hstate hclass
    refine completes_of (t := arm v s) rfl ?_
    rw [arm_class2 hrun hbit hstate hclass, updState_updStatus, lastStatus_updStatus, updStatus_upd]
    exact ⟨hstate, rfl, rfl⟩
  case disarm =>
    intro s v hrun hbit hstate htime _
    refine completes_of (t := disarm v s) rfl ?_
    rw [disarm_early hrun hbit hstate htime]
    rw [updState_updStatus, updState_updEnter, lastStatus_updStatus]
    exact ⟨rfl, rfl, rfl⟩
  case activation =>
    exact fun s b hstate hshadow hdue hfw hcfg => completes_of (t := activation s) rfl (activation_bare hstate hshadow hdue hfw hcfg)
  case early => exact fun s _ htime => completes_of (t := activation s) rfl (activation_early htime)

/-! ## Trial, confirmation and fallback (R399 to R401) -/

section
variable {s : State} {v : Nat}

theorem firmwareSwapDone_enters (hstate : updState s = 5) : firmwareSwapDone s = enterTrial s := if_pos hstate

/-- FALLBACK_DUE shows the level; the agent's state stands. -/
theorem flag_fallbackDue (b : Bool) : flag (fallbackDue s b) Reg.UPD_STAT_FALLBACK_DUE = b := by
  rw [fallbackDue, flag, getF, rd_levelIs (by simp [OffReport, Reg.UPD_STAT_FALLBACK_DUE, Reg.UPD_STAT]), ← getF, ← flag, flag_setB_self _ _ _ (by decide) rfl]

theorem rd_fallbackDue (b : Bool) {a : Nat} (hoff : OffReport a) (h : a ≠ Reg.UPD_STAT) : rd (fallbackDue s b) a = rd s a := by
  rw [fallbackDue, rd_levelIs hoff, rd_setB_ne _ _ _ _ h]

theorem getF_fallbackDue (b : Bool) {g : Fld} (hreg : g.reg = Reg.UPD_STAT) (hw : g.lo + g.len ≤ 32) (h : g.lo + g.len ≤ 8 ∨ 9 ≤ g.lo) :
    getF (fallbackDue s b) g = getF s g := by
  rw [fallbackDue, getF, rd_levelIs (by simp [OffReport, hreg, Reg.UPD_STAT]), ← getF, getF_setB_beside _ _ _ hw h]

theorem updState_fallbackDue (b : Bool) : updState (fallbackDue s b) = updState s := getF_fallbackDue b rfl (by decide) (by decide)

theorem fallbackDue_upd (b : Bool) : (fallbackDue s b).upd = s.upd := levelIs_upd ..

theorem cause_fallbackDue (b : Bool) : (fallbackDue s b).causeOn Src.fallback = b := cause_levelIs

theorem trialExpire_dues (hstate : updState s = 6) : trialExpire s = fallbackDue { s with upd := { s.upd with window := (s.upd.window.1, 0) } } true :=
  if_neg (not_not_intro hstate)

/-- The agent's own state once no trial runs. -/
def UpdSt.over (u : UpdSt) : UpdSt := { u with shadow := none, restartTrial := false, window := (0, 0), otherDigest := [] }

/-- The state in which the agent has entered IDLE after a trial. -/
def trialLeft (s : State) : State := setB (updEnter { s with upd := s.upd.over } 0) Reg.UPD_STAT_RESTART_TRIAL false

theorem trialOver_eq : trialOver s = fallbackDue (trialLeft s) false := rfl

theorem trialOver_upd : (trialOver s).upd = s.upd.over := fallbackDue_upd (s := trialLeft s) false

theorem updState_trialOver : updState (trialOver s) = 0 := by
  rw [trialOver_eq, updState_fallbackDue, trialLeft, updState, getF_setB_beside _ _ _ (by decide) (by decide)]
  exact updState_updEnter 0

theorem cause_trialOver : (trialOver s).causeOn Src.fallback = false := cause_fallbackDue (s := trialLeft s) false

theorem rd_trialOver {a : Nat} (hoff : OffReport a) (h : a ≠ Reg.UPD_STAT) : rd (trialOver s) a = rd s a := by
  rw [trialOver_eq, rd_fallbackDue _ hoff h, trialLeft, rd_setB_ne _ _ _ _ h, rd_updEnter _ h]
  exact rd_congr (by rfl) a

/-- FELL_BACK stands beside what the end of a trial writes. -/
theorem fellBack_trialOver : flag (trialOver s) Reg.UPD_STAT_FELL_BACK = flag s Reg.UPD_STAT_FELL_BACK := by
  rw [trialOver_eq, flag, getF_fallbackDue _ rfl (by decide) (by decide), trialLeft, getF_setB_beside _ _ _ (by decide) (by decide), updEnter,
    getF_setF_beside _ _ _ _ (by decide) (by decide), ← flag]
  exact flag_congr (by rfl) _

theorem offReport_updCnt (k : Nat) : OffReport (Reg.UPD_CNT k) := by
  simp only [OffReport, Reg.UPD_CNT]
  omega

theorem updCnt_ne_stat (k : Nat) : Reg.UPD_CNT k ≠ Reg.UPD_STAT := by
  simp only [Reg.UPD_CNT, Reg.UPD_STAT]
  omega

/-- BOOT_STAT names the image that runs from now on. -/
def imageNamed (s : State) (o : Option Image) (slot pushed : Fld) : State :=
  match o with | some x => setB (setF s slot x.slot) pushed false | none => s

theorem rd_imageNamed {slot pushed : Fld} (hs : slot.reg = Reg.BOOT_STAT) (hp : pushed.reg = Reg.BOOT_STAT) {a : Nat} (h : a ≠ Reg.BOOT_STAT) (o : Option Image) :
    rd (imageNamed s o slot pushed) a = rd s a := by
  cases o with
  | none => rfl
  | some x => exact (rd_setB_ne _ _ _ _ (hp ▸ h)).trans (rd_setF_ne _ _ _ _ (hs ▸ h))

theorem regs_confirmImages : (confirmImages s).regs =
    (imageNamed (imageNamed s s.upd.fw Reg.BOOT_STAT_FW_SLOT Reg.BOOT_STAT_FW_PUSHED) s.upd.cfg Reg.BOOT_STAT_CFG_SLOT Reg.BOOT_STAT_CFG_PUSHED).regs := rfl

theorem rd_confirmImages {a : Nat} (h : a ≠ Reg.BOOT_STAT) : rd (confirmImages s) a = rd s a := by
  rw [rd_congr regs_confirmImages, rd_imageNamed rfl rfl h, rd_imageNamed rfl rfl h]

/-- The state in which the directory names the images on trial and none is staged. -/
def trialConfirmed (s : State) : State :=
  let s1 := dirChange (confirmImages s) confirmDir
  { s1 with upd := { s1.upd with fw := none, cfg := none } }

theorem regs_trialConfirmed : (trialConfirmed s).regs = (dirChange (confirmImages s) confirmDir).regs := rfl

theorem rd_trialConfirmed {a : Nat} (hoff : OffReport a) (h : a ≠ Reg.BOOT_STAT) : rd (trialConfirmed s) a = rd s a := by
  rw [rd_congr regs_trialConfirmed, rd_dirChange _ hoff, rd_confirmImages h]

theorem trialConfirmed_staged : (trialConfirmed s).upd.fw = none ∧ (trialConfirmed s).upd.cfg = none := ⟨rfl, rfl⟩

theorem confirmTrial_confirms (hrun : s.top = .run) (hbit : bits (Nat.lor v 4) 0 6 = 4) (hstate : updState s = 6) (hwin : s.upd.window.2 ≠ 0)
    (hcode : updCode v = true) : confirmTrial v s = updStatus (bump (stagedShow (trialOver (trialConfirmed s))) (Reg.UPD_CNT 1)) 0 := by
  have hin : ¬ ((updState s = 6 ∨ updState s = 7) ∧ s.upd.window.2 = 0) := fun h => hwin h.2
  rw [confirmTrial, updCtl_acts (k := 2) hrun hbit, if_neg hin, if_neg (not_not_intro hstate), hcode]
  rfl

theorem confirmTrial_late (hrun : s.top = .run) (hbit : bits (Nat.lor v 4) 0 6 = 4) (hstate : updState s = 6) (hwin : s.upd.window.2 = 0) :
    confirmTrial v s = updStatus s 21 := by
  rw [confirmTrial, updCtl_acts (k := 2) hrun hbit, if_pos ⟨.inl hstate, hwin⟩]

theorem abandon_dues (hrun : s.top = .run) (hbit : bits (Nat.lor v 8) 0 6 = 8) (hstate : updState s = 6) (hcode : updCode v = true) :
    abandon v s = updStatus (fallbackDue s true) 0 := by
  rw [abandon, updCtl_acts (k := 3) hrun hbit, if_neg (not_not_intro hstate), hcode]
  rfl

theorem abandon_uncoded (hrun : s.top = .run) (hbit : bits (Nat.lor v 8) 0 6 = 8) (hstate : updState s = 6) (hcode : updCode v = false) :
    abandon v s = updStatus s 22 := by
  rw [abandon, updCtl_acts (k := 3) hrun hbit, if_neg (not_not_intro hstate), hcode]
  rfl

theorem fallbackStart_unsafe (hsafe : safePoint s = false) : fallbackStart s = s := if_pos (.inr (.inr (by simp [hsafe])))

theorem fallbackStart_starts (hstate : updState s = 6) (hdue : flag s Reg.UPD_STAT_FALLBACK_DUE = true) (hsafe : safePoint s = true) :
    fallbackStart s = match s.upd.restartTrial, s.upd.shadow with | false, some b => switchBanks (updEnter s 7) b | _, _ => updEnter s 7 :=
  if_neg (by simp [hstate, hdue, hsafe])

/-- A fallback shows FELL_BACK, counts, and leaves the directory without a trial. -/
def fallbackShown (s : State) : State := dirChange (bump (setB s Reg.UPD_STAT_FELL_BACK true) (Reg.UPD_CNT 2)) fun d => withTrial d 0 0 0

/-- The second area goes too (R404). -/
def fellBack (s : State) : State := secondDrop (fallbackShown s)

theorem fallbackDone_trial (hstate : updState s = 7) (hrestart : s.upd.restartTrial = false) : fallbackDone s = trialOver (fellBack s) := by
  have hgo : ¬ (updState s ≠ 7 ∨ (s.upd.restartTrial = true ∧ programsBlocked s = true)) := by simp [hstate, hrestart]
  rw [fallbackDone, if_neg hgo, hrestart]
  rfl

theorem fallbackDone_restart (hstate : updState s = 7) (hrestart : s.upd.restartTrial = true) (hopen : programsBlocked s = false) :
    fallbackDone s = resetEnter 4 (fellBack s) := by
  have hgo : ¬ (updState s ≠ 7 ∨ (s.upd.restartTrial = true ∧ programsBlocked s = true)) := by simp [hstate, hopen]
  rw [fallbackDone, if_neg hgo, hrestart]
  rfl

theorem secondDrop_regs (s : State) : (secondDrop s).regs = s.regs := rfl

theorem secondDrop_upd (s : State) : (secondDrop s).upd = s.upd := rfl

theorem fellBack_upd : (fellBack s).upd = s.upd := by rw [fellBack, secondDrop_upd, fallbackShown, dirChange_upd, bump_upd, setB_upd]

theorem flag_fellBack : flag (fellBack s) Reg.UPD_STAT_FELL_BACK = true := by
  rw [fellBack, flag_congr (secondDrop_regs _), fallbackShown, flag, getF_dirChange _ (by simp [OffReport, Reg.UPD_STAT_FELL_BACK, Reg.UPD_STAT]),
    getF_bump_ne _ _ _ (by decide), ← flag, flag_setB_self _ _ _ (by decide) rfl]

theorem rd_fellBack_count : rd (fellBack s) (Reg.UPD_CNT 2) = countWord (rd s (Reg.UPD_CNT 2)) 1 := by
  rw [fellBack, rd_congr (secondDrop_regs _), fallbackShown, rd_dirChange _ (offReport_updCnt 2), rd_bump_self, rd_setB_ne _ _ _ _ (updCnt_ne_stat 2)]

end

/-! ## Restart activation and DISCARD (R402) -/

section
variable {s : State} {v : Nat}

/-- The agent enters RESTART with the directory that names the new slots. -/
def restartBegun (s : State) : State :=
  let w := match s.upd.shadow with | some b => clamp 10 3600 ((bankWord b Reg.UPD_CFG).toNat % 4096) | none => confirmS s
  let s1 := { s with nvm := { s.nvm with oldDigest := ownDigest s, oldFormat := formatOf s.boot.fw } }
  dirChange (updEnter s1 8) (restartDir s1 w)

theorem restartAct_active (hrun : s.top = .run) (hbit : bits (Nat.lor v 16) 0 6 = 16) (hpair : pairMode s = true) (hrole : role s = 1) :
    restartAct v s = updStatus s 2 := by
  rw [restartAct, updCtl_acts (k := 4) hrun hbit, if_pos (.inr ⟨hpair, hrole⟩)]

theorem restartAct_resets (hrun : s.top = .run) (hbit : bits (Nat.lor v 16) 0 6 = 16) (hstate : updState s = 3) (hrole : ¬ (pairMode s = true ∧ role s = 1))
    (hcode : updCode v = true) (hopen : programsBlocked s = false) (howed : s.boot.dirOwed = none) :
    restartAct v s = updStatus (resetEnter 4 (restartBegun s)) 0 := by
  have hfree : ¬ (updState s ≠ 3 ∨ (pairMode s = true ∧ role s = 1)) := not_or.mpr ⟨not_not_intro hstate, hrole⟩
  have hdone : (restartBegun s).boot.dirOwed.isSome = false := by
    rw [restartBegun, dirChange_dirOwed]
    · rfl
    · rw [programsBlocked, updEnter, flag, getF_setF_reg _ _ _ _ (by decide), ← flag]
      exact hopen
    · exact howed
  have hact : restartAct v s = updStatus (if (restartBegun s).boot.dirOwed.isSome then restartBegun s else resetEnter 4 (restartBegun s)) 0 := by
    rw [restartAct, updCtl_acts (k := 4) hrun hbit, if_neg hfree, hcode]
    rfl
  rw [hact, hdone]
  rfl

theorem resetEnter_cause (cause : Nat) (s : State) : (resetEnter cause s).pwr.cause = cause := rfl

/-- The state in which nothing is staged or prepared any more. -/
def updDropped (s : State) : State := { s with upd := { s.upd with fw := none, cfg := none, shadow := none } }

theorem updDropped_upd : (updDropped s).upd = { s.upd with fw := none, cfg := none, shadow := none } := rfl

theorem updDropped_nvm : (updDropped s).nvm = s.nvm := rfl

theorem updDiscard_drops (hrun : s.top = .run) (hbit : bits (Nat.lor v 32) 0 6 = 32) (hstate : updState s = 3) :
    updDiscard v s = updStatus (stagedShow (updEnter (updDropped s) 0)) 0 := by
  rw [updDiscard, updCtl_acts (k := 5) hrun hbit, if_neg (not_not_intro hstate)]
  rfl

end

/-- Settles O36: each step of a trial by what it leaves in UPD_STAT and in the agent's own state. -/
theorem updateTrialToEnd : Obligations.UpdateTrialToEnd := by
  unfold Obligations.UpdateTrialToEnd
  refine ⟨?swap, ?confirm, ?late, ?abandon, ?uncoded, ?expire, ?start, ?unsafe_, ?done, ?active, ?restart, ?discard⟩
  case swap =>
    intro s hstate
    refine completes_of (t := firmwareSwapDone s) rfl ?_
    rw [firmwareSwapDone_enters hstate, updState_enterTrial, enterTrial_upd]
    exact ⟨rfl, rfl⟩
  case confirm =>
    intro s v hrun hbit hstate hwin hcode
    refine completes_of (t := confirmTrial v s) rfl ?_
    rw [confirmTrial_confirms hrun hbit hstate hwin hcode]
    have hcount : rd (trialConfirmed s) (Reg.UPD_CNT 1) = rd s (Reg.UPD_CNT 1) :=
      rd_trialConfirmed (offReport_updCnt 1) (by decide)
    rw [lastStatus_updStatus]
    refine ⟨?_, rfl, ?_, ?_⟩
    · rw [updState_updStatus, updState, getF_bump_ne _ _ _ (by decide), ← updState, updState_stagedShow, updState_trialOver]
    · rw [rd_updStatus _ (updCnt_ne_stat 1), rd_bump_self, rd_stagedShow (updCnt_ne_stat 1), rd_trialOver (offReport_updCnt 1) (updCnt_ne_stat 1), hcount]
    · rw [updStatus_upd, bump_upd, stagedShow_upd, trialOver_upd]
      exact ⟨rfl, trialConfirmed_staged (s := s)⟩
  case late =>
    intro s v hrun hbit hstate hwin
    refine completes_of (t := confirmTrial v s) rfl ?_
    rw [confirmTrial_late hrun hbit hstate hwin, updState_updStatus, lastStatus_updStatus, updStatus_upd]
    exact ⟨hstate, rfl, rfl⟩
  case abandon =>
    intro s v hrun hbit hstate hcode
    refine completes_of (t := abandon v s) rfl ?_
    rw [abandon_dues hrun hbit hstate hcode, flag_updStatus _ (by decide), flag_fallbackDue, updState_updStatus, updState_fallbackDue, lastStatus_updStatus]
    exact ⟨rfl, hstate, rfl, cause_fallbackDue true⟩
  case uncoded =>
    intro s v hrun hbit hstate hcode
    refine completes_of (t := abandon v s) rfl ?_
    rw [abandon_uncoded hrun hbit hstate hcode, lastStatus_updStatus, updStatus_upd]
    exact ⟨rfl, fun a ha => rd_updStatus 22 (List.ne_of_not_mem_cons ha), rfl⟩
  case expire =>
    intro s hstate
    refine completes_of (t := trialExpire s) rfl ?_
    rw [trialExpire_dues hstate, flag_fallbackDue, fallbackDue_upd, updState_fallbackDue, cause_fallbackDue]
    exact ⟨rfl, rfl, rfl, hstate⟩
  case start =>
    intro s b hstate hdue hsafe hrestart hshadow
    refine completes_of (t := fallbackStart s) rfl ?_
    rw [fallbackStart_starts hstate hdue hsafe, hrestart, hshadow]
  case unsafe_ => exact fun s _ hsafe => completes_of (t := fallbackStart s) rfl (fallbackStart_unsafe hsafe)
  case done =>
    intro s hstate hrestart
    refine completes_of (t := fallbackDone s) rfl ?_
    rw [fallbackDone_trial hstate hrestart, updState_trialOver, fellBack_trialOver, flag_fellBack, rd_trialOver (offReport_updCnt 2) (updCnt_ne_stat 2),
      rd_fellBack_count, trialOver_upd, fellBack_upd, cause_trialOver]
    exact ⟨rfl, rfl, rfl, rfl, rfl, rfl, rfl⟩
  case active =>
    intro s v hrun hbit hstate hpair hrole
    refine completes_of (t := restartAct v s) rfl ?_
    rw [restartAct_active hrun hbit hpair hrole, lastStatus_updStatus, updState_updStatus]
    exact ⟨rfl, hstate, updStatus_top.trans hrun⟩
  case restart =>
    intro s v hrun hbit hstate hrole hcode hopen howed
    refine completes_of (t := restartAct v s) rfl ?_
    rw [restartAct_resets hrun hbit hstate hrole hcode hopen howed, lastStatus_updStatus, updStatus_top, updStatus_pwr, resetEnter_top, resetEnter_cause]
    exact ⟨rfl, rfl, rfl⟩
  case discard =>
    intro s v hrun hbit hstate
    refine completes_of (t := updDiscard v s) rfl ?_
    rw [updDiscard_drops hrun hbit hstate]
    rw [updState_updStatus, updState_stagedShow, updState_updEnter, lastStatus_updStatus]
    rw [flag_updStatus _ (by decide), flag_stagedShow_fw, flag_updStatus _ (by decide), flag_stagedShow_cfg, updStatus_upd, stagedShow_upd, updEnter_upd,
      updDropped_upd, updStatus_nvm, stagedShow_nvm, updEnter_nvm, updDropped_nvm]
    exact ⟨rfl, rfl, rfl, rfl, rfl, rfl⟩

end Sys2Proof.Machine

/-! Pair reads, the groups of tenants, snapshots and dumps (O29). -/

namespace Sys2Proof.Machine

/-! ## Reading a pair (R546) -/

section
variable {s : State} {v : Nat}

theorem pairValue_congr {t : State} (h : t.cnt = s.cnt) (i : Nat) : pairValue t i = pairValue s i := by rw [pairValue, h, ← pairValue]

/-- The four words in which CNT_RD_DATA shows a pair. -/
def pairWords (p : Pair) : List Word :=
  [Word.ofNat p.frames, Word.ofNat (p.frames / 2 ^ 32 + 2 ^ 8 * b2n p.ovfF + 2 ^ 9 * b2n p.ovfB), Word.ofNat p.bytes, Word.ofNat (p.bytes / 2 ^ 32)]

/-- CNT_RD_CTL has taken its fields. -/
def pairAsked (s : State) (v : Nat) : State := setB (setF s Reg.CNT_RD_CTL_IDX v) Reg.CNT_RD_CTL_CLEAR (bit v 21)

/-- The pair stands in CNT_RD_DATA. -/
def pairShown (s : State) (v : Nat) : State := wrWords (pairAsked s v) (Reg.CNT_RD_DATA 0) (pairWords (pairValue (pairAsked s v) (bits v 0 21)))

/-- A pair's counts, overflow bits and offset are 0. -/
def pairCleared (s : State) (i : Nat) : State := { s with cnt := { s.cnt with pairs := merase s.cnt.pairs i, offset := merase s.cnt.offset i } }

theorem pairRead_go (hopen : operOpen s = true) (hgo : bit v 22 = true) (hidle : flag s Reg.CNT_STAT_RD_BUSY = false) :
    pairRead v s = if bit v 21 then pairCleared (pairShown s v) (bits v 0 21) else pairShown s v := by
  have hbusy : flag (pairAsked s v) Reg.CNT_STAT_RD_BUSY = false := by
    rw [pairAsked, flag_setB_beside _ _ _ _ (by decide) (.inl (by decide)), flag, getF_setF_reg _ _ _ _ (by decide), ← flag, hidle]
  have hread : pairRead v s = if !bit v 22 then pairAsked s v else if flag (pairAsked s v) Reg.CNT_STAT_RD_BUSY then pwfTarget (pairAsked s v) Reg.CNT_RD_CTL v
      else if bit v 21 then pairCleared (pairShown s v) (bits v 0 21) else pairShown s v := operWrite_open hopen ..
  rw [hread, hgo, hbusy]
  rfl

theorem pairAsked_cnt : (pairAsked s v).cnt = s.cnt := by rw [pairAsked, setB_cnt, setF_cnt]

theorem pairShown_cnt : (pairShown s v).cnt = s.cnt := by rw [pairShown, cnt_of_offReport (wrWords_offReport ..), pairAsked_cnt]

theorem rd_pairShown {k : Nat} (hk : k < 4) : rd (pairShown s v) (Reg.CNT_RD_DATA k) = (pairWords (pairValue s (bits v 0 21))).getD k 0 := by
  rw [← pairValue_congr (t := pairAsked s v) pairAsked_cnt, pairShown]
  exact rd_wrWords_at _ _ hk

theorem regs_pairCleared (i : Nat) : (pairCleared s i).regs = s.regs := rfl

theorem pairValue_cleared_self (i : Nat) : pairValue (pairCleared s i) i = {} := by
  simp [pairValue, pairCleared, mget]

theorem pairValue_cleared_ne {i j : Nat} (h : j ≠ i) : pairValue (pairCleared s i) j = pairValue s j := by
  simp [pairValue, pairCleared, mget, mfind_merase_ne _ h]

end

/-! ## The group of a tenant (R548) -/

section
variable {s : State} {j : Fin 128} {v : Nat}

/-- CNT_PERF_TEN has taken its fields. -/
def tenantStored (s : State) (j : Fin 128) (v : Nat) : State := setB (setF s (Reg.CNT_PERF_TEN_TENANT j) v) (Reg.CNT_PERF_TEN_EN j) (bit v 8)

theorem perfTenantWrite_changes (hopen : operOpen s = true) (h : getF s (Reg.CNT_PERF_TEN_TENANT j) ≠ v % 256) :
    perfTenantWrite j v s = tenantStored (zeroGroup (revokeGroup s (128 + j)) (128 + j)) j v := by
  have hchange : (getF s (Reg.CNT_PERF_TEN_TENANT j) != v % 256 || (flag s (Reg.CNT_PERF_TEN_EN j) && !bit v 8)) = true := by simp [h]
  rw [perfTenantWrite, operWrite_open hopen]
  dsimp only
  rw [hchange]
  rfl

theorem perfTenantWrite_keepsGroup (hopen : operOpen s = true) (h : getF s (Reg.CNT_PERF_TEN_TENANT j) = v % 256) (hen : bit v 8 = true) :
    perfTenantWrite j v s = tenantStored s j v := by
  have hsame : (getF s (Reg.CNT_PERF_TEN_TENANT j) != v % 256 || (flag s (Reg.CNT_PERF_TEN_EN j) && !bit v 8)) = false := by simp [h, hen]
  rw [perfTenantWrite, operWrite_open hopen]
  dsimp only
  rw [hsame]
  rfl

theorem tenantStored_tenant : getF (tenantStored s j v) (Reg.CNT_PERF_TEN_TENANT j) = v % 256 := by
  have hw : (Reg.CNT_PERF_TEN_TENANT j).lo + (Reg.CNT_PERF_TEN_TENANT j).len ≤ 32 := show 0 + 8 ≤ 32 by decide
  have hbeside : (Reg.CNT_PERF_TEN_TENANT j).lo + (Reg.CNT_PERF_TEN_TENANT j).len ≤ (Reg.CNT_PERF_TEN_EN j).lo := show 0 + 8 ≤ 8 by decide
  rw [tenantStored, getF_setB_beside _ _ _ hw (.inl hbeside), getF_setF_self _ _ _ hw]
  rfl

theorem tenantStored_enabled : flag (tenantStored s j v) (Reg.CNT_PERF_TEN_EN j) = bit v 8 := flag_setB_self _ _ _ (show 8 + 1 ≤ 32 by decide) rfl

theorem tenantStored_cnt : (tenantStored s j v).cnt = s.cnt := rfl

theorem regsBut_tenantStored : RegsBut [Reg.CNT_PERF_TEN j] s (tenantStored s j v) := fun _ ha =>
  (rd_setB_ne _ (Reg.CNT_PERF_TEN_EN j) _ _ (List.ne_of_not_mem_cons ha)).trans (rd_setF_ne _ (Reg.CNT_PERF_TEN_TENANT j) _ _ (List.ne_of_not_mem_cons ha))

theorem zeroGroup_zero {g c : Nat} (h : c / 8 = g) : mget 0 (zeroGroup s g).cnt.perf c = 0 := by
  have hout : (c / 8 != g) = false := by simp [h]
  have hnone : mfind (s.cnt.perf.filter fun e => e.1 / 8 != g) c = none := by rw [mfind_filter (fun k => k / 8 != g), hout, if_neg Bool.false_ne_true]
  have hperf : (zeroGroup s g).cnt.perf = s.cnt.perf.filter fun e => e.1 / 8 != g := rfl
  rw [hperf, mget, hnone]

end

/-! ## Snapshots (R551, R552) -/

section
variable {s : State} {d : Fin 64} {x : Snapshot}

/-- An epoch has moved DUMP_SEQ of a group on. -/
def epochCounted (s : State) (d : Nat) : CntSt := { s.cnt with seq := mput 0 s.cnt.seq d (nextSeq (mget 0 s.cnt.seq d)) }

/-- A group skips an epoch. -/
def epochSkipped (s : State) (d : Nat) : State :=
  { s with cnt := { epochCounted s d with skipped := if s.cnt.skipped.contains d then s.cnt.skipped else d :: s.cnt.skipped } }

/-- A group takes its snapshot. -/
def epochTaken (s : State) (d : Nat) : State :=
  { s with cnt := { epochCounted s d with
      snaps := mset s.cnt.snaps d (some (takeSnapshot s d (nextSeq (mget 0 s.cnt.seq d))))
      skipped := s.cnt.skipped.filter (· != d) } }

theorem snaps_epochTaken (d : Nat) : mfind (epochTaken s d).cnt.snaps d = some (takeSnapshot s d (nextSeq (mget 0 s.cnt.seq d))) := by
  have hsnaps : (epochTaken s d).cnt.snaps = mset s.cnt.snaps d (some (takeSnapshot s d (nextSeq (mget 0 s.cnt.seq d)))) := rfl
  rw [hsnaps, mfind_mset_self]

theorem seq_epochTaken (d : Nat) : mget 0 (epochTaken s d).cnt.seq d = nextSeq (mget 0 s.cnt.seq d) := mget_mput_self ..

theorem dumpEpoch_takes (hopen : operOpen s = true) (hen : flag s (Reg.CNT_DGRP_CFG_EN d) = true) (hfree : mfind s.cnt.snaps d = none) :
    dumpEpoch d s = heldCount (epochTaken s d) := by
  rw [dumpEpoch, hopen, hen]
  dsimp only
  rw [hfree]
  rfl

theorem dumpEpoch_skips (hopen : operOpen s = true) (hen : flag s (Reg.CNT_DGRP_CFG_EN d) = true) (hheld : mfind s.cnt.snaps d = some x) :
    dumpEpoch d s = report (bump (epochSkipped s d) (Reg.CNT_CNT 2)) Src.dumpLost (locSlice 0 63) 0 := by
  rw [dumpEpoch, hopen, hen]
  dsimp only
  rw [hheld]
  rfl

theorem heldCount_cnt (s : State) : (heldCount s).cnt = s.cnt := rfl

theorem offReport_cntCnt {k : Nat} (hk : k < 8) : OffReport (Reg.CNT_CNT k) := by
  simp only [OffReport, Reg.CNT_CNT]
  omega

theorem regs_epochSkipped (d : Nat) : (epochSkipped s d).regs = s.regs := rfl

end

/-! ## Dumps (R553 to R557) -/

section
variable {s : State} {d : Nat} {x : Snapshot}

/-- The snapshot of a group is gone, with its DUMP_SEQ. -/
def snapGone (s : State) (d : Nat) (x : Snapshot) : State :=
  wr { s with cnt := { s.cnt with snaps := merase s.cnt.snaps d } } (Reg.CNT_DGRP_STAT d) (Word.ofNat x.seq)

theorem releaseSnap_eq : releaseSnap s d x =
    heldCount (setB (snapGone s d x) Reg.CNT_STAT_DUMP_RUN ((snapGone s d x).cnt.snaps.any fun e => decide (0 < e.2.written))) := rfl

theorem releaseSnap_cnt : (releaseSnap s d x).cnt = { s.cnt with snaps := merase s.cnt.snaps d } := rfl

theorem regs_cntSet (s : State) (c : CntSt) (a : Nat) : rd { s with cnt := c } a = rd s a := rd_congr rfl a

theorem rd_releaseSnap {a : Nat} (hs : a ≠ Reg.CNT_STAT) (hd : a ≠ Reg.CNT_DGRP_STAT d) : rd (releaseSnap s d x) a = rd s a := by
  rw [releaseSnap_eq, heldCount, rd_setF_ne _ _ _ _ hs, rd_setB_ne _ _ _ _ hs, snapGone, rd_wr_ne _ _ hd, regs_cntSet]

theorem rd_releaseSnap_seq : rd (releaseSnap s d x) (Reg.CNT_DGRP_STAT d) = Word.ofNat x.seq := by
  have hs : Reg.CNT_DGRP_STAT d ≠ Reg.CNT_STAT := by
    simp only [Reg.CNT_DGRP_STAT, Reg.CNT_STAT]
    omega
  rw [releaseSnap_eq, heldCount, rd_setF_ne _ _ _ _ hs, rd_setB_ne _ _ _ _ hs, snapGone, rd_wr_self]

theorem held_releaseSnap (h : merase s.cnt.snaps d = []) : getF (releaseSnap s d x) Reg.CNT_STAT_HELD = 0 := by
  have hsnaps : (setB (snapGone s d x) Reg.CNT_STAT_DUMP_RUN ((snapGone s d x).cnt.snaps.any fun e => decide (0 < e.2.written))).cnt.snaps = merase s.cnt.snaps d := rfl
  rw [releaseSnap_eq, heldCount, hsnaps, h, getF_setF_self _ _ _ (by decide)]
  rfl

/-- The counters but for those of performance events. -/
def CntSt.offPerf (c : CntSt) : CntSt := { c with perf := [], perfOvf := [] }

theorem perfAdd_offPerf (g e n : Nat) : (perfAdd s g e n).cnt.offPerf = s.cnt.offPerf := by
  unfold perfAdd
  split <;> rfl

theorem signal_cnt (f r : Nat) (b : Bool) : (signal s f r b).cnt = s.cnt := by
  unfold signal
  dsimp only
  split <;> rfl

theorem pushEntry_cnt (f r : Nat) (c : Bytes) (b : Bool) : (pushEntry s f r c b).cnt = s.cnt := by
  rw [pushEntry, signal_cnt]
  rfl

/-- Writing entries of a dump counts them and the events, and touches no other counter. -/
theorem pushDump_offPerf (f r : Nat) (l : List Bytes) : (pushDump s f r l).cnt.offPerf = s.cnt.offPerf :=
  foldl_same (fun a => a.cnt.offPerf) _ (fun a c => by rw [bump_cnt, perf, perfAdd_offPerf, pushEntry_cnt]) l s

theorem rd_pushDump {f r a : Nat} (hf : f < 256) (hr : r < 64) (hoff : OffHost a) (ha : a ≠ Reg.CNT_CNT 1) (l : List Bytes) :
    rd (pushDump s f r l) a = rd s a :=
  foldl_same (fun t => rd t a) _ (fun t c => by rw [rd_bump_ne _ _ _ ha, rd_perf, rd_pushEntry hoff hf hr]) l s

theorem snaps_of_offPerf {c e : CntSt} (h : c.offPerf = e.offPerf) : c.snaps = e.snaps := by
  have h' := congrArg CntSt.snaps h
  exact h'

theorem pairs_of_offPerf {c e : CntSt} (h : c.offPerf = e.offPerf) : c.pairs = e.pairs := by
  have h' := congrArg CntSt.pairs h
  exact h'

end

theorem offHost_cntCnt {k : Nat} (hk : k < 8) : OffHost (Reg.CNT_CNT k) := by
  simp only [OffHost, Reg.CNT_CNT]
  omega

theorem cntCnt_ne_dgrp {k : Nat} (hk : k < 8) (d : Nat) : Reg.CNT_CNT k ≠ Reg.CNT_DGRP_STAT d := by
  simp only [Reg.CNT_CNT, Reg.CNT_DGRP_STAT]
  omega

section
variable {s : State} {d : Fin 64} {x : Snapshot}

/-- An abandoned dump counts and is released. -/
theorem abandonDump_only (h : merase s.cnt.snaps d = []) : rd (abandonDump s d x) (Reg.CNT_CNT 4) = countWord (rd s (Reg.CNT_CNT 4)) 1 ∧
    (abandonDump s d x).cnt.snaps = [] ∧ getF (abandonDump s d x) Reg.CNT_STAT_HELD = 0 ∧ rd (abandonDump s d x) (Reg.CNT_DGRP_STAT d) = Word.ofNat x.seq := by
  have hstat : OffReport Reg.CNT_STAT_HELD.reg := by simp [OffReport, Reg.CNT_STAT_HELD, Reg.CNT_STAT]
  have hseq : OffReport (Reg.CNT_DGRP_STAT d) := by
    simp only [OffReport, Reg.CNT_DGRP_STAT]
    omega
  have hne : Reg.CNT_DGRP_STAT d ≠ Reg.CNT_CNT 4 := (cntCnt_ne_dgrp (by decide) _).symm
  rw [abandonDump, report_cnt, bump_cnt, releaseSnap_cnt, h, rd_report (offReport_cntCnt (by decide)), rd_bump_self, rd_releaseSnap (by decide) hne.symm,
    rd_report hseq, rd_bump_ne _ _ _ hne, rd_releaseSnap_seq, getF, rd_report hstat, ← getF, getF_bump_ne _ _ _ (by decide), held_releaseSnap h]
  exact ⟨rfl, rfl, rfl, rfl⟩

end

section
variable {s : State} {d : Fin 64} {x : Snapshot} (honly : s.cnt.snaps = [(d.val, x)])
include honly

theorem mfind_snaps_only : mfind s.cnt.snaps d = some x := by simp [honly, mfind]

theorem merase_snaps_only : merase s.cnt.snaps d = [] := by simp [honly, merase]

/-- No other group's dump goes first. -/
theorem first_snaps_only : (s.cnt.snaps.any fun e => e.1 != d.val && e.2.ring == x.ring
    && (decide (0 < e.2.written) || (x.written == 0 && decide (e.1 < d.val) && e.2.tick == x.tick))) = false := by simp [honly]

theorem dumpWrite_abandons (hring : ringRuns s 0 (36 + x.ring) = false) : dumpWrite d s = abandonDump s d x := by
  have hfind := mfind_snaps_only honly
  have hfirst := first_snaps_only honly
  simp only [dumpWrite, hfind, hfirst, hring, Bool.false_eq_true, if_false, Bool.not_false, if_true]

/-- The dump of a snapshot is late when the write of its first entry begins more than 1 ms after the epoch. -/
def snapLate (s : State) (x : Snapshot) : Bool := x.late || (x.written == 0 && decide (x.tick + 1000 * ticksPerUs < s.tick))

/-- The dump begins: it is due no more, and a late one counts. -/
def dumpBegun (s : State) (d : Nat) (x : Snapshot) : State :=
  bumpIf (snapLate s x && !x.late) { s with slc := { s.slc with due := s.slc.due.filter fun m => !(m.act == 4 && m.res == d) } } (Reg.CNT_CNT 3)

omit honly in
theorem rd_dumpBegun {d a : Nat} (ha : a ≠ Reg.CNT_CNT 3) : rd (dumpBegun s d x) a = rd s a := by
  unfold dumpBegun bumpIf
  split
  · exact (rd_bump_ne _ _ _ ha).trans (rd_congr rfl a)
  · exact rd_congr rfl a

omit honly in
theorem dumpBegun_cnt {d : Nat} : (dumpBegun s d x).cnt = s.cnt := bumpIf_cnt ..

omit honly in
theorem ringRoom_dumpBegun {d r : Nat} : ringRoom (dumpBegun s d x) 0 r = ringRoom s 0 r := by
  have hpage (o : Nat) : Reg.pageBase 0 + o + 0x20 * r ≠ Reg.CNT_CNT 3 := by
    simp only [Reg.pageBase, Reg.CNT_CNT, if_true]
    omega
  have hcfg : getF (dumpBegun s d x) (Reg.HIF_RING_CFG_SIZE_LOG2 0 r) = getF s (Reg.HIF_RING_CFG_SIZE_LOG2 0 r) := congrArg (fget · _ _) (rd_dumpBegun (hpage 0x8))
  have hprod : getF (dumpBegun s d x) (Reg.HIF_RING_PROD_INDEX 0 r) = getF s (Reg.HIF_RING_PROD_INDEX 0 r) := congrArg (fget · _ _) (rd_dumpBegun (hpage 0xC))
  have hcons : getF (dumpBegun s d x) (Reg.HIF_RING_CONS_INDEX 0 r) = getF s (Reg.HIF_RING_CONS_INDEX 0 r) := congrArg (fget · _ _) (rd_dumpBegun (hpage 0x10))
  rw [ringRoom, ringSize, hcfg, hprod, hcons, ← ringSize, ← ringRoom]

/-- A dump that has not begun and fits is written whole, counted and released. -/
theorem dumpWrite_whole (hring : ringRuns s 0 (36 + x.ring) = true) (hkind : x.perfKind = false) (hnew : x.written = 0)
    (hroom : x.entries + 2 ≤ ringRoom s 0 (36 + x.ring)) :
    ∃ l, dumpWrite d s = releaseSnap (bump (pushDump (dumpBegun s d x) 0 (36 + x.ring) l) (Reg.CNT_CNT 0)) d { x with late := snapLate s x } := by
  have hfind := mfind_snaps_only honly
  have hfirst := first_snaps_only honly
  have hroom' : min (ringRoom (dumpBegun s d x) 0 (36 + x.ring)) (x.entries + 2 - x.written) = x.entries + 2 := by
    rw [ringRoom_dumpBegun, hnew, Nat.sub_zero, Nat.min_eq_right hroom]
  have hall : ¬ x.written + min (ringRoom (dumpBegun s d x) 0 (36 + x.ring)) (x.entries + 2 - x.written) < x.entries + 2 := by
    rw [hroom', hnew, Nat.zero_add]
    exact Nat.lt_irrefl _
  rw [dumpWrite, hfind]
  dsimp only
  rw [if_neg (by rw [hfirst]; exact Bool.false_ne_true), if_neg (by rw [hring]; exact Bool.false_ne_true), ← snapLate, ← dumpBegun, if_neg hall, hkind,
    if_neg Bool.false_ne_true]
  exact ⟨_, rfl⟩

end

/-- Settles O29: a pair by its words, a tenant's group by its register, an epoch and a dump by what the group then holds. -/
theorem counterReadsAndDumps : Obligations.CounterReadsAndDumps := by
  unfold Obligations.CounterReadsAndDumps
  refine ⟨?read, ?clear, ?tenant, ?enable, ?epoch, ?skip, ?abandon, ?whole⟩
  case read =>
    intro s v hopen hgo hkeep hidle
    refine completes_of (t := pairRead v s) rfl ?_
    rw [pairRead_go hopen hgo hidle, hkeep, if_neg Bool.false_ne_true, rd_pairShown (by decide), rd_pairShown (by decide), pairShown_cnt]
    exact ⟨rfl, rfl, rfl⟩
  case clear =>
    intro s v hopen hgo hclear hidle
    refine completes_of (t := pairRead v s) rfl ?_
    rw [pairRead_go hopen hgo hidle, hclear, if_pos rfl, rd_congr (regs_pairCleared _), rd_pairShown (by decide), pairValue_cleared_self]
    refine ⟨rfl, rfl, fun i hi => ?_⟩
    rw [pairValue_cleared_ne hi, pairValue_congr pairShown_cnt]
  case tenant =>
    intro s j v hopen hchange
    refine completes_of (t := perfTenantWrite j v s) rfl ?_
    rw [perfTenantWrite_changes hopen hchange, tenantStored_tenant, tenantStored_enabled, tenantStored_cnt]
    exact ⟨rfl, rfl, fun e he => zeroGroup_zero (by omega)⟩
  case enable =>
    intro s j v hopen hsame hen
    refine completes_of (t := perfTenantWrite j v s) rfl ?_
    rw [perfTenantWrite_keepsGroup hopen hsame hen, tenantStored_enabled, tenantStored_cnt]
    exact ⟨hen, rfl, regsBut_tenantStored⟩
  case epoch =>
    intro s d hopen hen hfree
    refine completes_of (t := dumpEpoch d s) rfl ?_
    rw [dumpEpoch_takes hopen hen hfree, heldCount_cnt]
    exact ⟨snaps_epochTaken d, seq_epochTaken d, rfl, rfl⟩
  case skip =>
    intro s d x hopen hen hheld
    refine completes_of (t := dumpEpoch d s) rfl ?_
    rw [dumpEpoch_skips hopen hen hheld, rd_report (offReport_cntCnt (by decide)), rd_bump_self, rd_congr (regs_epochSkipped _), report_cnt, bump_cnt]
    exact ⟨rfl, hheld, mget_mput_self ..⟩
  case abandon =>
    intro s d x honly hring
    refine completes_of (t := dumpWrite d s) rfl ?_
    rw [dumpWrite_abandons honly hring]
    exact abandonDump_only (merase_snaps_only honly)
  case whole =>
    intro s d x honly hlt hring hkind hnew hroom
    refine completes_of (t := dumpWrite d s) rfl ?_
    obtain ⟨l, hl⟩ := dumpWrite_whole honly hring hkind hnew hroom
    have hcnt := pushDump_offPerf (s := dumpBegun s d x) 0 (36 + x.ring) l
    rw [dumpBegun_cnt] at hcnt
    rw [hl, releaseSnap_cnt, bump_cnt, rd_releaseSnap_seq, rd_releaseSnap (by decide) (cntCnt_ne_dgrp (by decide) _), rd_bump_self,
      rd_pushDump (by decide) (by omega) (offHost_cntCnt (by decide)) (by decide), rd_dumpBegun (by decide)]
    have hpairs := pairs_of_offPerf hcnt
    have hsnaps := snaps_of_offPerf hcnt
    exact ⟨rfl, (congrArg (merase · d.val) hsnaps).trans (merase_snaps_only honly), rfl, hpairs⟩

end Sys2Proof.Machine

/-! That the commands of the update agent, the fault log, scratch windows and counters complete (O60): from what the statements of those parts say of the next state, and three
more of the agent's steps. -/

namespace Sys2Proof.Machine

section
variable {s : State} {v : Nat}

/-- In RUN and IDLE a staging of either image type is refused for worn blocks only. -/
theorem stageRefusal_idle {typ : Nat} (hrun : s.top = .run) (hstate : updState s = 0) (htyp : typ = 1 ∨ typ = 2)
    (hworn : wornOut s (blocksOf (slotPlace s typ (stageSlot s typ)).1 (getF s Reg.UPD_STAGE_LEN_LEN)) = false) : stageRefusal s typ = 0 := by
  have htype : ¬ (typ ≠ 1 ∧ typ ≠ 2) := fun h => htyp.elim h.1 h.2
  simp [stageRefusal, hrun, hstate, htype, hworn]

/-- BUSY stands in a word of 1. -/
theorem stageBusy_of_rd {t : State} (h : rd t Reg.UPD_STAGE_STAT = 1) : flag t Reg.UPD_STAGE_STAT_BUSY = true := by
  have hreg : Reg.UPD_STAGE_STAT_BUSY.reg = Reg.UPD_STAGE_STAT := rfl
  rw [flag, getF, hreg, h]
  decide

theorem fallbackStart_restart (hstate : updState s = 6) (hdue : flag s Reg.UPD_STAT_FALLBACK_DUE = true) (hsafe : safePoint s = true)
    (hrestart : s.upd.restartTrial = true) : fallbackStart s = updEnter s 7 := by
  rw [fallbackStart_starts hstate hdue hsafe, hrestart]

end

/-- Settles O60: the statements of the parts name the next states; what they leave open is the start of a staging and a restart trial's fallback. -/
theorem updateFaultScratchCounterCommandsComplete : Obligations.UpdateFaultScratchCounterCommandsComplete := by
  obtain ⟨hstart, -, -, hwhole, -, hprepared, harm, -, -, hact, -⟩ := updateStageToActivation
  obtain ⟨hswap, hconfirm, -, habandon, -, hexpire, hfall, -, hfell, -, hrestart, hdiscard⟩ := updateTrialToEnd
  obtain ⟨-, -, hclear, -, hfirst, -, hring, -, hrecord⟩ := faultCollectAndClear
  obtain ⟨hshared, hcommit, hlow, -, hset, hclr⟩ := scratchWritesAndAliases
  obtain ⟨hread, -, htenant, -, hepoch, -, -, hdump⟩ := counterReadsAndDumps
  unfold Obligations.UpdateFaultScratchCounterCommandsComplete
  refine ⟨?start, ?staged, ?prepared, ?arm, ?disarm, ?activation, ?swap, ?confirm, ?abandon, ?restart, ?discard, ?expire, ?fallRestart, ?fall, ?fell, ?fellRestart,
    ?record, ?clear, ?first, ?ring, ?shared, ?low, ?commit, ?set, ?clr, ?read, ?epoch, ?dump, ?tenant⟩
  case start =>
    intro s v hrun hstate htyp hworn
    obtain ⟨t, ht, hup, hbusy, -, -⟩ := hstart s v hrun (stageRefusal_idle hrun hstate htyp hworn)
    exact ⟨t, ht, hup, stageBusy_of_rd hbusy⟩
  case staged =>
    intro s typ slot d hopen hstate hst hcrc hformat hlen hblocks hfault h256
    obtain ⟨t, ht, rfl⟩ := hwhole s typ slot d hopen hstate hst hcrc hformat hlen hblocks hfault h256
    exact ⟨_, ht, updState_stageDone .., lastStatus_stageDone ..⟩
  case prepared =>
    intro s b hstate hshadow
    obtain ⟨t, ht, hup, -, -, hupd⟩ := hprepared s b hstate hshadow
    exact ⟨t, ht, hup, congrArg UpdSt.shadow hupd⟩
  case arm =>
    intro s v hrun hbit hstate hclass htime
    obtain ⟨t, ht, hup, -⟩ := harm s v hrun hbit hstate hclass htime
    exact ⟨t, ht, hup⟩
  case disarm =>
    intro s v hrun hbit hstate htime
    refine ⟨disarm v s, rfl, ?_⟩
    rw [disarm_early hrun hbit hstate htime, updState_updStatus, updState_updEnter]
  case activation =>
    intro s b hstate hshadow hdue hfw hcfg
    obtain ⟨t, ht, rfl⟩ := hact s b hstate hshadow hdue hfw hcfg
    exact ⟨_, ht, updState_enterTrial⟩
  case swap =>
    intro s hstate
    obtain ⟨t, ht, hup, hwin⟩ := hswap s hstate
    exact ⟨t, ht, hup, congrArg Prod.fst hwin⟩
  case confirm =>
    intro s v hrun hbit hstate hwin hcode
    obtain ⟨t, ht, hup, -, hcount, -⟩ := hconfirm s v hrun hbit hstate hwin hcode
    exact ⟨t, ht, hup, hcount⟩
  case abandon =>
    intro s v hrun hbit hstate hcode
    obtain ⟨t, ht, hdue, hup, -⟩ := habandon s v hrun hbit hstate hcode
    exact ⟨t, ht, hup, hdue⟩
  case restart =>
    intro s v hrun hbit hstate hrole hcode hopen howed
    obtain ⟨t, ht, htop, hcause, -⟩ := hrestart s v hrun hbit hstate hrole hcode hopen howed
    exact ⟨t, ht, htop, hcause⟩
  case discard =>
    intro s v hrun hbit hstate
    obtain ⟨t, ht, hup, -, -, -, hshadow, -⟩ := hdiscard s v hrun hbit hstate
    exact ⟨t, ht, hup, hshadow⟩
  case expire =>
    intro s hstate
    obtain ⟨t, ht, hdue, -, -, hup⟩ := hexpire s hstate
    exact ⟨t, ht, hup, hdue⟩
  case fallRestart =>
    intro s hstate hdue hsafe hres
    refine ⟨fallbackStart s, rfl, ?_⟩
    rw [fallbackStart_restart hstate hdue hsafe hres, updState_updEnter]
  case fall => exact fun s b hstate hdue hsafe hres hshadow => hfall s b hstate hdue hsafe hres hshadow
  case fell =>
    intro s hstate hres
    obtain ⟨t, ht, hup, hback, -⟩ := hfell s hstate hres
    exact ⟨t, ht, hup, hback⟩
  case fellRestart =>
    intro s hstate hres hopen
    refine ⟨fallbackDone s, rfl, ?_⟩
    rw [fallbackDone_restart hstate hres hopen]
    exact ⟨resetEnter_top .., resetEnter_cause ..⟩
  case record =>
    intro s src r hnext hsev hsrc hfree hroom
    obtain ⟨t, ht, hstat, -, hseq, -⟩ := hrecord s src r hnext hsev hsrc hfree hroom
    exact ⟨t, ht, hstat, hseq⟩
  case clear =>
    intro s src hon hstat hcause hlatch hhold
    obtain ⟨t, ht, hgone, -⟩ := hclear s src hon hstat hcause hlatch hhold
    exact ⟨t, ht, hgone⟩
  case first =>
    intro s hopen hold
    obtain ⟨t, ht, hvalid, -⟩ := hfirst s hopen hold
    exact ⟨t, ht, hvalid⟩
  case ring =>
    intro s v hopen hbetween
    obtain ⟨t, ht, hidx, -⟩ := hring s v hopen hbetween
    exact ⟨t, ht, hidx⟩
  case shared =>
    intro s bank n o hpick hgood
    obtain ⟨t, ht, hword, -⟩ := hshared s bank n o hpick hgood
    exact ⟨t, ht, hword⟩
  case low =>
    intro s a v m w hopen htarget hhalf hawake hheld
    obtain ⟨t, ht, rfl⟩ := hlow s a v m w hopen htarget hhalf hawake hheld
    exact ⟨_, ht, rfl⟩
  case commit =>
    intro s a v m w h hopen htarget hhalf hawake hheld hmem hword hunarmed
    obtain ⟨t, ht, hdata, -⟩ := hcommit s a v m w h hopen htarget hhalf hawake hheld hmem hword hunarmed
    exact ⟨t, ht, hdata⟩
  case set =>
    intro s a v m w hopen htarget hheld hgood
    obtain ⟨t, ht, hdata, -⟩ := hset s a v m w hopen htarget hheld hgood
    exact ⟨t, ht, hdata⟩
  case clr =>
    intro s a v m w hopen htarget hheld hgood
    obtain ⟨t, ht, hdata, -⟩ := hclr s a v m w hopen htarget hheld hgood
    exact ⟨t, ht, hdata⟩
  case read =>
    intro s v hopen hgo hkeep hidle
    obtain ⟨t, ht, hframes, hbytes, -⟩ := hread s v hopen hgo hkeep hidle
    exact ⟨t, ht, hframes, hbytes⟩
  case epoch =>
    intro s d hopen hen hfree
    obtain ⟨t, ht, hsnap, -⟩ := hepoch s d hopen hen hfree
    exact ⟨t, ht, hsnap⟩
  case dump =>
    intro s d x honly hlt hruns hkind hnew hroom
    obtain ⟨t, ht, hcount, hgone, -⟩ := hdump s d x honly hlt hruns hkind hnew hroom
    exact ⟨t, ht, hcount, hgone⟩
  case tenant =>
    intro s j v hopen hchange
    obtain ⟨t, ht, hten, hen, -⟩ := htenant s j v hopen hchange
    exact ⟨t, ht, hten, hen⟩

end Sys2Proof.Machine

/-! Pushes, the arbitration floors, the key slots and the life cycle (O34). -/

namespace Sys2Proof.Machine

/-! ## The start of a push (R376) -/

section
variable {s : State} {v : Nat}

theorem operOpen_of_hold (h : s.top = .hold) : operOpen s = true := by simp [operOpen, h]

theorem writeRw_boot (s : State) (a v m : Nat) : (writeRw s a v m).boot = s.boot := rfl

/-- BOOT_PUSH_CTL has taken its fields, and nothing of an earlier push shows. -/
def pushAsked (s : State) (v : Nat) : State :=
  setB (setB (writeRw s Reg.BOOT_PUSH_CTL v 0x3E) Reg.BOOT_PUSH_STAT_DONE false) Reg.BOOT_PUSH_STAT_REFUSED false

/-- A push is under way. -/
def pushShown (s : State) : State := setB (setB s Reg.BOOT_PUSH_STAT_BUSY true) Reg.BOOT_PUSH_STAT_PROG_FAIL false

/-- The loader knows of the push. -/
def pushKnown (s : State) (v : Nat) : State := { s with boot := { s.boot with push := some (bits v 1 3, bit v 4, bits v 5 1) } }

theorem pushStart_holds (htop : s.top = .hold) (hload : s.boot.loading = false) (hfree : s.boot.push = none) (hlo : 1 ≤ bits v 1 3) (hhi : bits v 1 3 ≤ 4) :
    pushStart v s = pushKnown (pushShown (pushAsked s v)) v := by
  have hok : (!((s.top == .hold && decide (1 ≤ bits v 1 3) && decide (bits v 1 3 ≤ 4)) || (s.top == .run && (bits v 1 3 == 3 || bits v 1 3 == 4))) ||
      s.boot.push.isSome || (s.top == .hold && s.boot.loading)) = false := by simp [htop, hload, hfree, hlo, hhi]
  rw [pushStart, operWrite_open (operOpen_of_hold htop)]
  dsimp only
  rw [hok]
  rfl

/-- In RUN an image is refused. -/
theorem pushStart_run (htop : s.top = .run) (htyp : bits v 1 3 = 1 ∨ bits v 1 3 = 2) : pushStart v s = pushRefused (pushAsked s v) := by
  have hok : (!((s.top == .hold && decide (1 ≤ bits v 1 3) && decide (bits v 1 3 ≤ 4)) || (s.top == .run && (bits v 1 3 == 3 || bits v 1 3 == 4))) ||
      s.boot.push.isSome || (s.top == .hold && s.boot.loading)) = true := by rcases htyp with h | h <;> simp [htop, h]
  rw [pushStart, operWrite_open (operOpen_of_run htop)]
  dsimp only
  rw [hok]
  rfl

theorem regs_pushKnown : (pushKnown s v).regs = s.regs := rfl

theorem flag_pushShown_busy : flag (pushShown s) Reg.BOOT_PUSH_STAT_BUSY = true := by
  rw [pushShown, flag_setB_beside _ _ _ _ (by decide) (.inr (.inl (by decide))), flag_setB_self _ _ _ (by decide) rfl]

theorem flag_pushShown_refused : flag (pushShown s) Reg.BOOT_PUSH_STAT_REFUSED = flag s Reg.BOOT_PUSH_STAT_REFUSED := by
  rw [pushShown, flag_setB_beside _ _ _ _ (by decide) (.inr (.inr (by decide))), flag_setB_beside _ _ _ _ (by decide) (.inr (.inr (by decide)))]

theorem flag_pushAsked_refused : flag (pushAsked s v) Reg.BOOT_PUSH_STAT_REFUSED = false := flag_setB_self _ _ _ (by decide) rfl

theorem pushAsked_boot : (pushAsked s v).boot = s.boot := by rw [pushAsked, setB_boot, setB_boot, writeRw_boot]

theorem flag_pushRefused : flag (pushRefused s) Reg.BOOT_PUSH_STAT_REFUSED = true := flag_setB_self _ _ _ (by decide) rfl

theorem pushRefused_busy : flag (pushRefused s) Reg.BOOT_PUSH_STAT_BUSY = flag s Reg.BOOT_PUSH_STAT_BUSY :=
  flag_setB_beside _ _ _ _ (by decide) (.inr (.inl (by decide)))

theorem pushRefused_boot : (pushRefused s).boot = s.boot := setB_boot ..

end

/-! ## The end of a push (R376, R384, R385) -/

section
variable {s : State} {typ k : Nat} {p : Bool} {d : Bytes}

/-- The push is over. -/
def pushEnded (s : State) : State := setB { s with boot := { s.boot with push := none } } Reg.BOOT_PUSH_STAT_BUSY false

theorem flag_pushEnded_busy : flag (pushEnded s) Reg.BOOT_PUSH_STAT_BUSY = false := flag_setB_self _ _ _ (by decide) rfl

theorem pushEnded_boot : (pushEnded s).boot = { s.boot with push := none } := rfl

theorem pushEnded_top : (pushEnded s).top = s.top := rfl

theorem pushEnded_otp : (pushEnded s).otp = s.otp := rfl

theorem pushComplete_image_fails (hpush : s.boot.push = some (typ, p, k)) (htyp : typ < 3) : pushComplete false d s = enterHold (pushEnded s) 15 3 k 0 0 := by
  have hfail : (!false || d.length != getF s Reg.BOOT_PUSH_LEN_LEN) = true := rfl
  rw [pushComplete, hpush]
  dsimp only
  rw [hfail, if_pos rfl, if_neg (Nat.not_le.mpr htyp), ← pushEnded]

theorem pushComplete_token_fails (hpush : s.boot.push = some (typ, p, k)) (htyp : 3 ≤ typ) : pushComplete false d s = pushRefused (pushEnded s) := by
  have hfail : (!false || d.length != getF s Reg.BOOT_PUSH_LEN_LEN) = true := rfl
  rw [pushComplete, hpush]
  dsimp only
  rw [hfail, if_pos rfl, if_pos htyp, ← pushEnded]

/-- What every whole push comes to: the action of its type. -/
theorem pushComplete_whole (hpush : s.boot.push = some (typ, p, k)) (hlen : d.length = getF s Reg.BOOT_PUSH_LEN_LEN)
    (hcrc : hdrCrcOk (parseImage d k true).header = true) (hformat : formatOk (parseImage d k true) typ (maxSlot typ) = true)
    (hall : (parseImage d k true).length = d.length) (hblocks : badBlock (parseImage d k true) = none) :
    pushComplete true d s = if typ = 3 then tokenAct (pushEnded s) (parseImage d k true) else if typ = 4 then enrolAct (pushEnded s) (parseImage d k true)
      else pushAccept (pushEnded s) typ k p (parseImage d k true) := by
  have hread : (!true || d.length != getF s Reg.BOOT_PUSH_LEN_LEN) = false := by simp [hlen]
  have hcrc' : (!hdrCrcOk (parseImage d k true).header) = false := by rw [hcrc]; rfl
  have hform : (!formatOk (parseImage d k true) typ (maxSlot typ) || (parseImage d k true).length != getF s Reg.BOOT_PUSH_LEN_LEN) = false := by
    simp [hformat, hall, hlen]
  rw [pushComplete, hpush]
  dsimp only
  rw [hread, if_neg Bool.false_ne_true, hcrc', if_neg Bool.false_ne_true, hform, if_neg Bool.false_ne_true, hblocks]
  dsimp only
  rw [← pushEnded]

/-- No key is enrolled outside FACTORY (R385). -/
theorem enrolAct_refused (x : Image) (h : s.boot.lc ≠ .factory) : enrolAct s x = pushRefused s := by
  have hlc : (s.boot.lc == .factory) = false := by simp [h]
  simp only [enrolAct, hlc, Bool.false_and, Bool.false_eq_true, if_false]

/-- BUSY of a push stands beside what the entry into HOLD writes. -/
theorem busy_enterHold (reason image slot detail status : Nat) :
    flag (enterHold s reason image slot detail status) Reg.BOOT_PUSH_STAT_BUSY = flag s Reg.BOOT_PUSH_STAT_BUSY := by
  have hoff : OffReport Reg.BOOT_PUSH_STAT_BUSY.reg := by unfold OffReport; decide
  rw [flag, getF, rd_enterHold _ _ _ _ _ _ hoff, ← getF, holdRegs, getF_wr_ne _ _ _ _ (by decide), getF_setF_reg _ _ _ _ (by decide),
    getF_setF_reg _ _ _ _ (by decide), getF_setF_reg _ _ _ _ (by decide), getF_setF_reg _ _ _ _ (by decide), ← flag]

end

/-! ## Floors, key slots and the life cycle (R372, R373, R382) -/

section
variable {s : State} {v : Nat}

theorem arbCtl_fw (hopen : operOpen s = true) (h : mayCommit s 0 s.otp.floorFw = true) : arbCtl 1 s = floorFwUp s := by
  have h1 : bit 1 0 = true := by decide
  have h2 : bit 1 1 = false := by decide
  simp only [arbCtl, operWrite_open hopen, h, h1, h2, Bool.not_true, Bool.false_eq_true, and_false, false_and, or_self, if_false, if_true]

theorem arbCtl_fw_refused (hopen : operOpen s = true) (h : mayCommit s 0 s.otp.floorFw = false) : arbCtl 1 s = pwfTarget s Reg.BOOT_ARB_CTL 1 := by
  have h1 : bit 1 0 = true := by decide
  simp only [arbCtl, operWrite_open hopen, h, h1, Bool.not_false, and_self, true_or, if_true]

theorem arbCtl_cfg (hopen : operOpen s = true) (h : mayCommit s 1 s.otp.floorCfg = true) : arbCtl 2 s = floorCfgUp s := by
  have h1 : bit 2 0 = false := by decide
  have h2 : bit 2 1 = true := by decide
  simp only [arbCtl, operWrite_open hopen, h, h1, h2, Bool.not_true, Bool.false_eq_true, and_false, false_and, or_self, if_false, if_true]

/-- OTP in which slot k is revoked. -/
def keyRevoked (o : Otp) (k : Nat) : Otp :=
  let e : OtpKey := (mfind o.keys k).getD { usage := 0, hash := List.replicate 48 0, revoked := false }
  { o with keys := mset o.keys k (some { e with revoked := true }) }

theorem keyRevoke_revokes (htop : s.top = .run ∨ s.top = .hold) (hcode : bits v 16 16 = 0x5EA1) (huse : usagesRemain s.otp (bits v 0 2) = true)
    (hopen : programsBlocked s = false) : keyRevoke v s = writeRw { s with otp := keyRevoked s.otp (bits v 0 2) } Reg.BOOT_KEY_CTL v 3 := by
  have hok : (s.top = .run ∨ s.top = .hold) ∧ bits v 16 16 = 0x5EA1 ∧ usagesRemain s.otp (bits v 0 2) = true ∧ (!programsBlocked s) = true :=
    ⟨htop, hcode, huse, by rw [hopen]; rfl⟩
  rw [keyRevoke, operWrite_open (htop.elim operOpen_of_run operOpen_of_hold)]
  exact if_pos hok

theorem keyRevoke_uncoded (htop : s.top = .run) (hcode : bits v 16 16 ≠ 0x5EA1) : keyRevoke v s = pwfTarget s Reg.BOOT_KEY_CTL v := by
  rw [keyRevoke, operWrite_open (operOpen_of_run htop)]
  exact if_neg fun h => hcode h.2.1

theorem revoked_keyRevoked (o : Otp) (k : Nat) : (mfind (keyRevoked o k).keys k).map (·.revoked) = some true := by
  simp [keyRevoked, mfind_mset_self]

theorem keyRevoked_ne (o : Otp) {k j : Nat} (h : j ≠ k) : mfind (keyRevoked o k).keys j = mfind o.keys j := by
  simp [keyRevoked, mfind_mset_ne _ _ h]

theorem toField_programs (hopen : operOpen s = true) (hlc : s.boot.lc = .factory) (hcode : bits v 16 16 = 0x5EA1)
    (hkey : s.otp.keys.any (fun e => bit e.2.usage 1) = true) (hfree : programsBlocked s = false) :
    toField v s = { s with otp := { s.otp with field := (otpWhole, otpWhole) } } := by
  have hfree' : (!programsBlocked s) = true := by rw [hfree]; rfl
  rw [toField, operWrite_open hopen]
  exact if_pos ⟨hlc, hcode, hkey, hfree'⟩

theorem toField_late (hopen : operOpen s = true) (hlc : s.boot.lc = .field) : toField v s = pwfTarget s Reg.BOOT_LC_CTL v := by
  rw [toField, operWrite_open hopen]
  exact if_neg fun h => by simp [hlc] at h

end

/-! ## Programming a verified push (R377) -/

theorem pushSlotProgram_programs {s : State} {fw cfg : Image} {typ slot : Nat} (htop : s.top = .verify) (hver : s.boot.verified = true)
    (hopen : programsBlocked s = false) (hfw : s.boot.fw = some fw) (hcfg : s.boot.cfg = some cfg) (hto : s.boot.toProgram = some (typ, slot))
    (hdir : s.boot.dir.isSome = true) (hsize : (if typ = 1 then fw else cfg).length ≤ (slotPlace s typ slot).2)
    (hworn : wornOut s (blocksOf (slotPlace s typ slot).1 (if typ = 1 then fw else cfg).length) = false) :
    pushSlotProgram true s = enterApply (setF (dirChange (slotProgram s typ slot (if typ = 1 then fw else cfg)) (fun d => nameSlot d typ slot))
      (if typ = 1 then Reg.BOOT_STAT_FW_SLOT else Reg.BOOT_STAT_CFG_SLOT) slot) fw cfg := by
  have hgo : (s.top != .verify || !s.boot.verified || programsBlocked s) = false := by rw [htop, hver, hopen]; rfl
  have hfits : (s.boot.dir.isNone || decide ((slotPlace s typ slot).2 < (if typ = 1 then fw else cfg).length)) = false := by
    obtain ⟨dir, hdir⟩ := Option.isSome_iff_exists.mp hdir
    simp [hdir, hsize]
  rw [pushSlotProgram, hgo, hto, hfw, hcfg]
  dsimp only
  rw [hfits, hworn]
  rfl

/-- Settles O34: a push by its start and its end, each floor, key slot and life-cycle word by the write that programs it. -/
theorem pushCommitKeysLifeCycle : Obligations.PushCommitKeysLifeCycle := by
  unfold Obligations.PushCommitKeysLifeCycle
  refine ⟨?start, ?startRun, ?imageFails, ?tokenFails, ?commitFw, ?commitFwRefused, ?commitCfg, ?revoke, ?revokeUncoded, ?toField, ?toFieldLate, ?accept, ?program, ?enrol⟩
  case start =>
    intro s v htop hload hfree hlo hhi
    refine completes_of (t := pushStart v s) rfl ?_
    rw [pushStart_holds htop hload hfree hlo hhi, flag_congr regs_pushKnown, flag_pushShown_busy, flag_congr regs_pushKnown, flag_pushShown_refused,
      flag_pushAsked_refused]
    exact ⟨rfl, rfl, rfl⟩
  case startRun =>
    intro s v htop htyp
    refine completes_of (t := pushStart v s) rfl ?_
    rw [pushStart_run htop htyp, flag_pushRefused, pushRefused_boot, pushAsked_boot]
    exact ⟨rfl, rfl⟩
  case imageFails =>
    intro s typ p k d htop hpush htyp
    refine completes_of (t := pushComplete false d s) rfl ?_
    have hout : (pushEnded s).top ≠ .apply := by rw [pushEnded_top, htop]; decide
    rw [pushComplete_image_fails hpush htyp, enterHold_top, getF_enterHold_reason, getF_enterHold_image, enterHold_boot, if_neg hout, busy_enterHold, flag_pushEnded_busy,
      pushEnded_boot]
    exact ⟨rfl, rfl, rfl, rfl, rfl⟩
  case tokenFails =>
    intro s typ p k d hpush htyp
    refine completes_of (t := pushComplete false d s) rfl ?_
    rw [pushComplete_token_fails hpush htyp, flag_pushRefused, pushRefused_busy, flag_pushEnded_busy]
    exact ⟨rfl, rfl, rfl, rfl⟩
  case commitFw =>
    intro s hopen hmay
    refine completes_of (t := arbCtl 1 s) rfl ?_
    rw [arbCtl_fw hopen hmay]
    exact ⟨rfl, rfl, rfl⟩
  case commitFwRefused => exact fun s hopen hmay => completes_of (t := arbCtl 1 s) rfl (arbCtl_fw_refused hopen hmay)
  case commitCfg =>
    intro s hopen hmay
    refine completes_of (t := arbCtl 2 s) rfl ?_
    rw [arbCtl_cfg hopen hmay]
    exact ⟨rfl, rfl, rfl⟩
  case revoke =>
    intro s v htop hcode huse hopen
    refine completes_of (t := keyRevoke v s) rfl ?_
    rw [keyRevoke_revokes htop hcode huse hopen]
    exact ⟨revoked_keyRevoked .., fun k hk => keyRevoked_ne _ hk⟩
  case revokeUncoded => exact fun s v htop hcode => completes_of (t := keyRevoke v s) rfl (keyRevoke_uncoded htop hcode)
  case toField => exact fun s v hopen hlc hcode hkey hfree => completes_of (t := toField v s) rfl (toField_programs hopen hlc hcode hkey hfree)
  case toFieldLate => exact fun s v hopen hlc => completes_of (t := toField v s) rfl (toField_late hopen hlc)
  case accept =>
    intro s typ p k d hpush hlo hhi hlen hcrc hformat hall hblocks
    refine completes_of (t := pushComplete true d s) rfl ?_
    rw [pushComplete_whole hpush hlen hcrc hformat hall hblocks, if_neg (by omega), if_neg (by omega), pushEnded]
  case program =>
    exact fun s fw cfg typ slot htop hver hopen hfw hcfg hto hdir hsize hworn =>
      completes_of (t := pushSlotProgram true s) rfl (pushSlotProgram_programs htop hver hopen hfw hcfg hto hdir hsize hworn)
  case enrol =>
    intro s p k d hpush hlen hcrc hformat hall hblocks hlc
    refine completes_of (t := pushComplete true d s) rfl ?_
    rw [pushComplete_whole hpush hlen hcrc hformat hall hblocks, if_neg (by decide), if_pos rfl, enrolAct_refused (s := pushEnded s) _ hlc, flag_pushRefused, pushRefused_boot]
    exact ⟨rfl, rfl, rfl⟩

end Sys2Proof.Machine

/-! Clock domains: PLLs, ramps and relocks (O20), losses and returns (O21). -/

namespace Sys2Proof.Machine

/-! ## Levels -/

section
variable {s : State} {src : Nat} (loc d : Nat)

/-- A report whose latch is free reacts to nothing yet. -/
theorem hold_report (h : mfind s.flt.latch src = none) : (report s src loc d).flt.hold = s.flt.hold := by
  unfold report reportWith
  split
  · rfl
  · simp only [h, Option.isSome_none, Bool.false_eq_true, if_false]

theorem hold_levelOn (h : mfind s.flt.latch src = none) : (levelOn s src loc d).flt.hold = s.flt.hold := by
  unfold levelOn
  split
  · rfl
  · exact hold_report (s := { s with flt := { s.flt with cause := mset s.flt.cause src (some (loc, d)) } }) loc d h

end

/-! ## The fields of CLK_STAT and CLK_PLL_STAT -/

theorem lockFld_len (p : Nat) : (lockFld p).len = 1 := by
  unfold lockFld
  split
  · rfl
  · split <;> rfl

theorem lockFld_lo {p : Nat} (h : p < 25) : (lockFld p).lo + 1 ≤ 32 := by
  unfold lockFld
  split
  · show p + 1 + 1 ≤ 32
    omega
  · split
    · show p - 7 + 1 ≤ 32
      omega
    · show p - 1 + 1 ≤ 32
      omega

section
variable {s : State}

theorem flag_lock_self {p : Nat} (h : p < 25) (b : Bool) : flag (setB s (lockFld p) b) (lockFld p) = b := flag_setB_self _ _ _ (lockFld_lo h) (lockFld_len p)

/-! ## PLLs and ramps (R413 to R418) -/

/-- A PLL has locked and is waited for no more. -/
def pllTaken (s : State) (p : Nat) : State := setB (pllSettled s p) (lockFld p) true

theorem pllTaken_starting (p : Nat) : (pllTaken s p).clk.starting = s.clk.starting.filter (· != p) := rfl

theorem not_mem_pllTaken (p : Nat) : p ∉ (pllTaken s p).clk.starting := by simp [pllTaken_starting]

theorem rampStart_regs (ks : List Nat) (up : Bool) : (rampStart s ks up).regs = s.regs := rfl

theorem rampStart_starting (ks : List Nat) (up : Bool) : (rampStart s ks up).clk.starting = s.clk.starting := rfl

theorem rampStart_cause (ks : List Nat) (up : Bool) (k : Nat) : (rampStart s ks up).causeOn k = s.causeOn k := rfl

/-- A PLL beside the roots ends the level of its loss; a root may start the ramps. -/
theorem pllLocked_locks {p : Fin 25} (h : p.val ∈ s.clk.starting) : (2 ≤ p.val ∧ pllLocked p s = levelOff (pllTaken s p) (Src.pllLoss (p - 2))) ∨
    (p.val < 2 ∧ ∃ ks, pllLocked p s = rampStart (pllTaken s p) ks true ∨ pllLocked p s = pllTaken s p) := by
  have hstart : (!s.clk.starting.contains p.val) = false := by simp [h]
  rw [pllLocked, hstart, if_neg Bool.false_ne_true]
  dsimp only
  rw [← pllTaken]
  by_cases h2 : 2 ≤ p.val
  · exact .inl ⟨h2, if_pos h2⟩
  · rw [if_neg h2]
    refine .inr ⟨Nat.not_le.mp h2, rootKeys (pllTaken s p) 0 ++ rootKeys (pllTaken s p) 1, ?_⟩
    split
    · exact .inl rfl
    · exact .inr rfl

theorem rootPllLockTimeout_holds (htop : s.top = .bringup) (h : 0 ∈ s.clk.starting) : rootPllLockTimeout s = settle s (enterHold s 14 0 0 0 0) := by
  simp [rootPllLockTimeout, htop, h]

theorem pllLockFail_time (h : 5 ∈ s.clk.starting) : pllLockFail 5 s = levelOn s (Src.pllLoss 3) (locSlice (pllDie 5) 63) 0 := by
  have hgo : ¬ ((5 : Fin 25).val < 2 ∨ (!s.clk.starting.contains (5 : Fin 25).val) = true) := by simp [h]
  rw [pllLockFail, if_neg hgo, if_pos (.inr rfl)]
  rfl

theorem relockOver_idle {r : Nat} (h : flag s (relockFld r) = false) : relockOver s r = s := by simp [relockOver, h]

theorem rampOne_regs (k : Nat) (up : Bool) : (rampOne s k up).regs = s.regs := rfl

theorem div_rampOne (k : Nat) (up : Bool) : mget 0 (rampOne s k up).clk.div k = rampNext (targetDiv (k % 16)) (mget 0 s.clk.div k) up := mget_mput_self ..

/-- While no root relocks, a ramp alone takes its step. -/
theorem rampStep_one {k : Nat} (hfd : flag s Reg.CLK_STAT_FD_RELOCK = false) (hqd : flag s Reg.CLK_STAT_QD_RELOCK = false) (hramp : s.clk.ramp = [(k, true)]) :
    rampStep s = rampOne s k true := by
  have h0 : flag (rampOne s k true) (relockFld 0) = false := (flag_congr (rampOne_regs k true) _).trans hfd
  have h1 : flag (rampOne s k true) (relockFld 1) = false := (flag_congr (rampOne_regs k true) _).trans hqd
  rw [rampStep, hramp, List.foldl_cons, List.foldl_nil, relockOver_idle h0, relockOver_idle h1]

/-! ## Root relocks (R421) -/

/-- A root's relock shows and counts. -/
def relockShown (s : State) (r : Nat) : State := bump (setB s (relockFld r) true) (Reg.CLK_CNT 2)

/-- The relock waits no more. -/
def relockUnwaited (s : State) (r : Nat) : State :=
  setB { s with clk := { s.clk with waiting := s.clk.waiting.filter (· != r) } } Reg.CLK_STAT_RELOCK_WAIT (!(s.clk.waiting.filter (· != r)).isEmpty)

theorem relockBegin_eq (r : Nat) : relockBegin s r = rampStart (relockUnwaited (relockShown s r) r) (rootKeys (relockUnwaited (relockShown s r) r) r) false := rfl

theorem clkSet_regs (s : State) (c : ClkSt) : { s with clk := c }.regs = s.regs := rfl

theorem rd_relockUnwaited {a : Nat} (h : a ≠ Reg.CLK_STAT) (r : Nat) : rd (relockUnwaited s r) a = rd s a := by
  rw [relockUnwaited, rd_setB_ne _ _ _ _ h, rd_congr (clkSet_regs ..)]

theorem flag_relockUnwaited {f : Fld} (h : f.lo + f.len ≤ 10) (r : Nat) : flag (relockUnwaited s r) f = flag s f := by
  rw [relockUnwaited, flag_setB_beside _ _ _ _ (h.trans (by decide)) (.inr (.inl h)), flag_congr (clkSet_regs ..)]

theorem relockFld_reg (r : Nat) : (relockFld r).reg = Reg.CLK_STAT := by unfold relockFld; split <;> rfl

theorem relockFld_below (r : Nat) : (relockFld r).lo + (relockFld r).len ≤ 10 := by unfold relockFld; split <;> decide

theorem relockFld_len (r : Nat) : (relockFld r).len = 1 := by unfold relockFld; split <;> rfl

theorem clkCnt_ne_stat (k : Nat) : Reg.CLK_CNT k ≠ Reg.CLK_STAT := by
  simp only [Reg.CLK_CNT, Reg.CLK_STAT]
  omega

/-- A relock that begins shows RELOCK and counts. -/
theorem relockBegin_shows (r : Nat) : flag (relockBegin s r) (relockFld r) = true ∧ rd (relockBegin s r) (Reg.CLK_CNT 2) = countWord (rd s (Reg.CLK_CNT 2)) 1 := by
  have hreg : (relockFld r).reg ≠ Reg.CLK_CNT 2 := relockFld_reg r ▸ (clkCnt_ne_stat 2).symm
  have hlo : (relockFld r).lo + 1 ≤ 32 := relockFld_len r ▸ (relockFld_below r).trans (by decide)
  rw [relockBegin_eq, flag_congr (rampStart_regs ..), rd_congr (rampStart_regs ..), flag_relockUnwaited (relockFld_below r),
    rd_relockUnwaited (clkCnt_ne_stat 2), relockShown, rd_bump_self, rd_setB_ne _ _ _ _ (relockFld_reg r ▸ clkCnt_ne_stat 2), flag, getF_bump_ne _ _ _ hreg, ← flag,
    flag_setB_self _ _ _ hlo (relockFld_len r)]
  exact ⟨rfl, rfl⟩

/-- The host's relock of one root in RUN. -/
theorem clkCtl_one {v r : Nat} (hrun : s.top = .run) (hones : onesOf 2 v = [r]) (hidle : flag s (relockFld r) = false) : clkCtl v s = relockBegin s r := by
  have hfree : ¬ ([r] ≠ [] ∧ (s.top ≠ .run ∨ ([r].any fun r => flag s (relockFld r)) = true)) := by simp [hrun, hidle]
  rw [clkCtl, operWrite_open (operOpen_of_run hrun), hones]
  exact if_neg hfree

/-- The root has locked, and its loss is over. -/
def rootRelocked (s : State) (r : Nat) : State := levelOff (setB s (lockFld r) true) (Src.rootLoss r)

/-- Its family runs at the first step of the ramp. -/
def familyAt64 (s : State) (ks : List Nat) : State := { s with clk := { s.clk with div := ks.foldl (fun m k => mput 0 m k 64) s.clk.div } }

theorem rootRelockDone_locks {r : Fin 2} (h : flag s (relockFld r) = true) :
    rootRelockDone r true s = rampStart (familyAt64 (rootRelocked s r) (rootKeys s r)) (rootKeys s r) true := by
  rw [rootRelockDone, h]
  rfl

theorem familyAt64_regs (ks : List Nat) : (familyAt64 s ks).regs = s.regs := rfl

theorem familyAt64_cause (ks : List Nat) (k : Nat) : (familyAt64 s ks).causeOn k = s.causeOn k := rfl

end

/-- Settles O20: each clause by the state that the PLL or root leaves. -/
theorem pllStartRampAndRelock : Obligations.PllStartRampAndRelock := by
  unfold Obligations.PllStartRampAndRelock
  refine ⟨?locked, ?timeout, ?fail, ?ramp, ?relockFd, ?relockQd, ?done⟩
  case locked =>
    intro s p hstart
    refine completes_of (t := pllLocked p s) rfl ?_
    have hlock : flag (pllTaken s p) (lockFld p) = true := flag_lock_self p.isLt true
    obtain ⟨-, ht⟩ | ⟨h2, ks, ht | ht⟩ := pllLocked_locks hstart
    · rw [ht]
      exact ⟨(flag_levelOff ..).trans hlock, not_mem_pllTaken p, fun _ => cause_levelOff⟩
    · rw [ht, flag_congr (rampStart_regs ..), rampStart_starting]
      exact ⟨hlock, not_mem_pllTaken p, fun h => absurd h (Nat.not_le.mpr h2)⟩
    · rw [ht]
      exact ⟨hlock, not_mem_pllTaken p, fun h => absurd h (Nat.not_le.mpr h2)⟩
  case timeout => exact fun s htop h => completes_of (t := rootPllLockTimeout s) rfl (rootPllLockTimeout_holds htop h)
  case fail =>
    intro s h
    refine completes_of (t := pllLockFail 5 s) rfl ?_
    rw [pllLockFail_time h, levelOn_clk]
    exact ⟨cause_levelOn, h⟩
  case ramp =>
    intro s hfd hqd k hramp
    refine completes_of (t := rampStep s) rfl ?_
    rw [rampStep_one hfd hqd hramp]
    exact ⟨div_rampOne k true, rampOne_regs k true⟩
  case relockFd =>
    intro s hrun hidle
    refine completes_of (t := clkCtl 1 s) rfl ?_
    rw [clkCtl_one (r := 0) hrun (by decide) hidle]
    exact relockBegin_shows 0
  case relockQd =>
    intro s hrun hidle
    refine completes_of (t := clkCtl 2 s) rfl ?_
    rw [clkCtl_one (r := 1) hrun (by decide) hidle]
    exact relockBegin_shows 1
  case done =>
    intro s r h
    refine completes_of (t := rootRelockDone r true s) rfl ?_
    rw [rootRelockDone_locks h, flag_congr (rampStart_regs ..), rampStart_cause, flag_congr (familyAt64_regs _), familyAt64_cause]
    exact ⟨(flag_levelOff ..).trans (flag_lock_self (r.isLt.trans (by decide)) true), cause_levelOff⟩

/-! ## References (R419, R420, R422) -/

section
variable {s : State}

theorem refLost_powered (hon : powered s = true) (r : Nat) :
    refLost s r = levelOn (bump (setB (setB s (refPresent r) false) (refLoss r) true) (Reg.CLK_CNT 0)) (Src.sysRef + r) (locSlice (refDie r) 63) 0 := by
  rw [refLost, hon, if_pos rfl]

theorem refClockLoss_loses {r : Fin 4} (hon : powered s = true) (hnew : s.causeOn (Src.sysRef + r) = false) :
    refClockLoss r s = if r = 1 ∧ flag s Reg.CLK_PLAN_TIME_FALLBACK = true then setB (refLost s r) Reg.TIM_STAT_TIME_SRC true else refLost s r := by
  have hnew' : ¬ (mfind s.flt.cause (Src.sysRef + r)).isSome = true := Bool.eq_false_iff.mp hnew
  rw [refClockLoss, if_neg hnew']
  simp only [hon, true_and]

theorem refClockReturn_returns {r : Fin 4} (hon : powered s = true) : refClockReturn r s =
    if r = 1 then setB (setB (levelOff s (Src.sysRef + r)) (refPresent r) true) Reg.TIM_STAT_TIME_SRC false else setB (levelOff s (Src.sysRef + r)) (refPresent r) true := by
  have hoff : (!powered s) = false := by rw [hon]; rfl
  simp only [refClockReturn, hoff, Bool.false_eq_true, if_false]

/-- A PLL beside the roots starts again, counts and reports. -/
theorem pllLoss_loses {p : Fin 25} (h2 : 2 ≤ p.val) (hlock : flag s (lockFld p) = true) (href : s.causeOn (Src.sysRef + pllRef s p) = false) :
    pllLoss p s = levelOn (pllStart (bump (setB s (lockFld p) false) (Reg.CLK_CNT 1)) [p.val]) (Src.pllLoss (p - 2)) (locSlice (pllDie p) 63) 0 := by
  have href' : (mfind s.flt.cause (Src.sysRef + pllRef s p)).isSome = false := href
  have hgo : (!flag s (lockFld p) || (mfind s.flt.cause (Src.sysRef + pllRef s p)).isSome) = false := by rw [hlock, href']; rfl
  rw [pllLoss, hgo, if_neg Bool.false_ne_true]
  dsimp only
  rw [if_pos h2]

theorem waitShow_flt : (waitShow s).flt = s.flt := setB_flt ..

/-- The offset of a reference stands in CLK_MEAS. -/
def offsetShown (s : State) (r : Fin 3) (n : Nat) : State :=
  setB (setF s (Reg.CLK_MEAS_OFFSET r) n) (Reg.CLK_MEAS_VALID r) (flag s (refPresent 0) && flag s (refPresent (r + 1)))

theorem freqAlarm_runs {r : Fin 3} {n : Nat} (hon : powered s = true) : exec (.clkFreqAlarm r n) s = .next (clkFreqAlarm r n s) := by
  have hexec : exec (.clkFreqAlarm r n) s = .next (if powered s then clkFreqAlarm r n s else s) := rfl
  rw [hexec, hon, if_pos rfl]

theorem clkFreqAlarm_pcie (n : Nat) : clkFreqAlarm 2 n s = offsetShown s 2 n := rfl

theorem clkFreqAlarm_beyond {r : Fin 3} {n : Nat} (hr : r ≠ 2) (hnew : s.causeOn (Src.clkFreq r) = false)
    (hfar : clamp 1 1000 (getF s Reg.CLK_MON_CFG_FREQ_TOL) * 10 < (signed 16 (n % 65536)).natAbs) :
    clkFreqAlarm r n s = levelOn (bump (offsetShown s r n) (Reg.CLK_CNT 3)) (Src.clkFreq r) (locSlice (refDie (r + 1)) 63) 0 := by
  have hfirst : (mfind s.flt.cause (Src.clkFreq r)).isNone = true := by
    rw [← Option.not_isSome]
    exact congrArg Bool.not hnew
  rw [clkFreqAlarm]
  dsimp only
  rw [if_neg hr, if_pos hfar, hfirst, bumpIf, if_pos rfl, offsetShown]

theorem getF_offsetShown (r : Fin 3) (n : Nat) : getF (offsetShown s r n) (Reg.CLK_MEAS_OFFSET r) = n % 65536 := by
  rw [offsetShown, getF_setB_beside _ _ _ (show 0 + 16 ≤ 32 by decide) (.inl (show 0 + 16 ≤ 31 by decide)), getF_setF_self _ _ _ (show 0 + 16 ≤ 32 by decide)]
  rfl

theorem rd_offsetShown (r : Fin 3) (n : Nat) {a : Nat} (h : a ≠ Reg.CLK_MEAS r) : rd (offsetShown s r n) a = rd s a :=
  (rd_setB_ne _ (Reg.CLK_MEAS_VALID r) _ _ h).trans (rd_setF_ne _ (Reg.CLK_MEAS_OFFSET r) _ _ h)

theorem offsetShown_regs (r : Fin 3) (n : Nat) : offsetShown s r n = { s with regs := (offsetShown s r n).regs } := rfl

theorem ppsInLoss_loses (hen : flag s Reg.TIM_PPS_CFG_IN_EN = true) (hnew : s.causeOn Src.ppsLoss = false) :
    ppsInLoss s = setB (refLost s 4) Reg.TIM_STAT_PPS_PRESENT false := by
  have hnew' : (mfind s.flt.cause Src.ppsLoss).isSome = false := hnew
  simp [ppsInLoss, hen, hnew']

theorem rd_refLost_count (hon : powered s = true) (r : Nat) : rd (refLost s r) (Reg.CLK_CNT 0) = countWord (rd s (Reg.CLK_CNT 0)) 1 := by
  rw [refLost_powered hon, rd_levelOn (by unfold OffReport; decide), rd_bump_self, rd_setB_ne _ (refLoss r) _ _ (show Reg.CLK_CNT 0 ≠ Reg.CLK_REF_STAT by decide),
    rd_setB_ne _ (refPresent r) _ _ (show Reg.CLK_CNT 0 ≠ Reg.CLK_REF_STAT by decide)]

theorem cause_refLost (r : Nat) : (refLost s r).causeOn (Src.sysRef + r) = true := cause_levelOn

theorem cd38Loss_powered (hon : powered s = true) : cd38Loss s = { s with pwr := { s.pwr with cd38Lost := true } } := by
  simp only [cd38Loss, hon, Bool.true_or]

/-- Without CD38 a powered device drives FAULT_L low. -/
theorem faultLow_cd38Lost (hon : powered s = true) (hlost : s.pwr.cd38Lost = true) : faultLow s = true := by
  unfold faultLow
  split
  case h_1 htop => simp [powered, htop] at hon
  case h_2 htop => simp [powered, htop] at hon
  · simp [hlost]

end

/-- Settles O21: each loss and return by the state that it leaves. -/
theorem clockLossesAndReturns : Obligations.ClockLossesAndReturns := by
  unfold Obligations.ClockLossesAndReturns
  refine ⟨?lost, ?returned, ?pll, ?freq, ?pcie, ?pps, ?cd38⟩
  case lost =>
    intro s r hon hnew
    refine completes_of (t := refClockLoss r s) rfl ?_
    rw [refClockLoss_loses hon hnew, refLost_powered hon]
  case returned => exact fun s r hon => completes_of (t := refClockReturn r s) rfl (refClockReturn_returns hon)
  case pll =>
    intro s p h2 hlock href hlatch
    refine completes_of (t := reacted s (waitShow (pllLoss p s))) rfl ?_
    have hhold : (waitShow (pllLoss p s)).flt.hold = s.flt.hold := by
      rw [waitShow_flt, pllLoss_loses h2 hlock href, hold_levelOn]
      · rfl
      · exact hlatch
    rw [reacted_same hhold, pllLoss_loses h2 hlock href]
  case freq =>
    intro s r n hr hon hnew hfar
    refine completes_of (t := clkFreqAlarm r n s) (freqAlarm_runs hon) ?_
    have hcnt : OffReport (Reg.CLK_CNT 3) := by unfold OffReport; decide
    have hmeas : OffReport (Reg.CLK_MEAS_OFFSET r).reg := by
      show OffReport (Reg.CLK_MEAS r)
      simp only [OffReport, Reg.CLK_MEAS]
      omega
    have hne : Reg.CLK_CNT 3 ≠ Reg.CLK_MEAS r := by
      simp only [Reg.CLK_CNT, Reg.CLK_MEAS]
      omega
    rw [clkFreqAlarm_beyond hr hnew hfar, rd_levelOn hcnt, rd_bump_self, rd_offsetShown r n hne, cause_levelOn, getF, rd_levelOn hmeas, ← getF, getF_bump_ne _ _ _ hne.symm,
      getF_offsetShown]
    exact ⟨rfl, rfl, rfl⟩
  case pcie =>
    intro s n hon
    refine completes_of (t := clkFreqAlarm 2 n s) (freqAlarm_runs hon) ?_
    rw [clkFreqAlarm_pcie]
    exact ⟨getF_offsetShown 2 n, fun a ha => rd_offsetShown 2 n (List.ne_of_not_mem_cons ha), offsetShown_regs 2 n⟩
  case pps =>
    intro s hon hen hnew
    refine completes_of (t := ppsInLoss s) rfl ?_
    rw [ppsInLoss_loses hen hnew, rd_setB_ne _ _ _ _ (by decide), rd_refLost_count hon]
    exact ⟨flag_setB_self _ _ _ (by decide) rfl, rfl, cause_refLost 4⟩
  case cd38 =>
    intro s hon
    refine completes_of (t := cd38Loss s) rfl ?_
    rw [cd38Loss_powered hon]
    exact ⟨faultLow_cd38Lost hon rfl, rfl⟩

end Sys2Proof.Machine

/-! Supply, battery and sensors: rails, VIO18, the VBAT domain and the holdover record (O18), temperature and power readings (O19). -/

namespace Sys2Proof.Machine

/-! ## Rails and VIO18 (R441, R447) -/

section
variable {s : State}

theorem vinIsGood_of (h : s.top ≠ .off) : (!vinIsGood s) = false := by simp [vinIsGood, h]

/-- A rail group has left its window. -/
def railMarked (s : State) (k : Nat) : State := { s with pwr := { s.pwr with railOut := k :: s.pwr.railOut, pwrgood := false } }

/-- It shows in OUT_SEEN. -/
def railSeen (s : State) (k : Nat) : State :=
  setF s Reg.PWR_RAIL_STAT_OUT_SEEN (Nat.lor (getF s Reg.PWR_RAIL_STAT_OUT_SEEN) (2 ^ k))

theorem railOut_marks {k : Fin 7} {d : Fin 2} {sl : Fin 64} (htop : s.top ≠ .off) (hnew : k.val ∉ s.pwr.railOut) :
    railOut k d sl s = levelOn (bump (railSeen (railMarked s k) k) (Reg.PWR_CNT 2)) (Src.rail k) (locSlice d sl) 0 := by
  have hgo : (!vinIsGood s || s.pwr.railOut.contains k.val) = false := by simp [vinIsGood_of htop, hnew]
  rw [railOut, hgo, if_neg Bool.false_ne_true]
  rfl

theorem railSeen_pwr (k : Nat) : (railSeen s k).pwr = s.pwr := rfl

theorem regs_railMarked (k : Nat) : (railMarked s k).regs = s.regs := rfl

theorem rd_railSeen (k : Nat) {a : Nat} (h : a ≠ Reg.PWR_RAIL_STAT) : rd (railSeen s k) a = rd s a := rd_setF_ne _ _ _ _ h

/-- PWRGOOD is driven again once every group is in range, unless a thermal trip holds the rails. -/
def railsBack (s : State) : State := { s with pwr := { s.pwr with railOut := [], pwrgood := !s.pwr.tripHold } }

/-- The levels of rails end. -/
def railsEnd (s : State) (l : List Nat) : State := l.foldl (fun a k => levelOff a (Src.rail k)) s

theorem railRecover_ends (h : s.pwr.railOut ≠ []) : railRecover s = railsEnd (railsBack s) s.pwr.railOut := by
  have hsome : ¬ s.pwr.railOut.isEmpty = true := by simpa using h
  rw [railRecover, if_neg hsome]
  rfl

theorem railsEnd_pwr (l : List Nat) : (railsEnd s l).pwr = s.pwr := foldl_same State.pwr (fun a k => levelOff a (Src.rail k)) (fun _ _ => rfl) l s

/-- A level that has ended stays ended while others end. -/
theorem cause_railsEnd_stays (l : List Nat) {k : Nat} (h : s.causeOn k = false) : (railsEnd s l).causeOn k = false := by
  induction l generalizing s with
  | nil => exact h
  | cons j l ih =>
    refine ih ?_
    by_cases hk : k = Src.rail j
    · rw [hk]
      exact cause_levelOff
    · exact (cause_levelOff_ne hk).trans h

theorem cause_railsEnd {l : List Nat} {k : Nat} (h : k ∈ l) : (railsEnd s l).causeOn (Src.rail k) = false := by
  induction l generalizing s with
  | nil => simp at h
  | cons j l ih =>
    obtain rfl | htail := List.mem_cons.mp h
    · exact cause_railsEnd_stays l cause_levelOff
    · exact ih htail

theorem vio18Overload_folds (htop : s.top ≠ .off) (hnew : s.causeOn Src.vio18 = false) :
    vio18Overload s = levelOn (bump (setB s Reg.PWR_RAIL_STAT_VIO18_OC true) (Reg.PWR_CNT 5)) Src.vio18 locPackage 0 := by
  have hnew' : (mfind s.flt.cause Src.vio18).isSome = false := hnew
  have hgo : (!vinIsGood s || (mfind s.flt.cause Src.vio18).isSome) = false := by rw [vinIsGood_of htop, hnew']; rfl
  rw [vio18Overload, hgo, if_neg Bool.false_ne_true]

/-! ## VBAT (R444 to R446) -/

theorem vbatLow_shows (htop : s.top ≠ .off) (low : Bool) : vbatLow low s = levelIs low (setB s Reg.PWR_BAT_STAT_VBAT_LOW low) Src.vbatLow locPackage 0 := by
  rw [vbatLow, vinIsGood_of htop, if_neg Bool.false_ne_true]

theorem holdoverWrite_copies (htop : s.top ≠ .off) (htime : timeState s ≠ 0) :
    holdoverWrite s = { s with vbat := { s.vbat with sec := s.ptp.sec, sub := s.ptp.ns * 32768 / 1000000000, timeMark := 0xA55A } } := by
  have hgo : (!vinIsGood s || timeState s == 0) = false := by simp [vinIsGood_of htop, htime]
  rw [holdoverWrite, hgo, if_neg Bool.false_ne_true]

end

/-- Settles O18: each clause by the state that the rail, the output or the battery leaves. -/
theorem railsBatteryAndHoldover : Obligations.RailsBatteryAndHoldover := by
  unfold Obligations.RailsBatteryAndHoldover
  refine ⟨?railOut, ?railRecover, ?overload, ?recover, ?low, ?collapse, ?holdover, ?clrRec⟩
  case railOut =>
    intro s k d sl htop hnew
    refine completes_of (t := railOut k d sl s) rfl ?_
    rw [railOut_marks htop hnew, levelOn_pwr, bump_pwr, railSeen_pwr, rd_levelOn (by unfold OffReport; decide), rd_bump_self, rd_railSeen _ (by decide),
      rd_congr (regs_railMarked _)]
    exact ⟨rfl, rfl, rfl, cause_levelOn⟩
  case railRecover =>
    intro s hout
    refine completes_of (t := railRecover s) rfl ?_
    rw [railRecover_ends hout, railsEnd_pwr]
    exact ⟨rfl, rfl, fun k hk => cause_railsEnd hk⟩
  case overload =>
    intro s htop hnew
    refine completes_of (t := vio18Overload s) rfl ?_
    have hoff : OffReport Reg.PWR_RAIL_STAT_VIO18_OC.reg := by unfold OffReport; decide
    rw [vio18Overload_folds htop hnew, flag, getF, rd_levelOn hoff, ← getF, getF_bump_ne _ _ _ (by decide), ← flag, flag_setB_self _ _ _ (by decide) rfl,
      rd_levelOn (by unfold OffReport; decide), rd_bump_self, rd_setB_ne _ _ _ _ (by decide)]
    exact ⟨rfl, cause_levelOn, rfl⟩
  case recover =>
    exact fun s => completes_of (t := vio18Recover s) rfl ⟨(flag_levelOff ..).trans (flag_setB_self _ _ _ (by decide) rfl), cause_levelOff⟩
  case low =>
    intro s low htop
    refine completes_of (t := vbatLow low s) rfl ?_
    have hoff : OffReport Reg.PWR_BAT_STAT_VBAT_LOW.reg := by unfold OffReport; decide
    rw [vbatLow_shows htop, flag, getF, rd_levelIs hoff, ← getF, ← flag, flag_setB_self _ _ _ (by decide) rfl]
    exact ⟨rfl, cause_levelIs⟩
  case collapse => exact fun s => completes_of (t := vbatCollapse s) rfl rfl
  case holdover =>
    intro s htop htime
    refine completes_of (t := holdoverWrite s) rfl ?_
    rw [holdoverWrite_copies htop htime]
    exact ⟨rfl, rfl, rfl, rfl⟩
  case clrRec => exact fun s hopen => completes_of (t := clrRec s) rfl (operWrite_open hopen ..)

/-! ## Temperature (R448 to R450) -/

theorem ofSigned_signed (x : Nat) : ofSigned 12 (signed 12 x) = x % 4096 := by
  unfold ofSigned signed
  split <;> omega

section
variable {s : State}

/-- One reading stored. -/
def tempStored (s : State) (e : Nat × Int) : State := setB (setF s (Reg.PWR_TEMP_TEMP e.1) (ofSigned 12 e.2)) (Reg.PWR_TEMP_VALID e.1) true

/-- The readings from sensor k on, stored in order. -/
def tempsStored (s : State) (k : Nat) (l : List Nat) : State := ((l.zipIdx k).map fun e => (e.2, signed 12 e.1)).foldl tempStored s

theorem rd_tempStored {e : Nat × Int} {a : Nat} (h : a ≠ Reg.PWR_TEMP e.1) : rd (tempStored s e) a = rd s a :=
  (rd_setB_ne _ (Reg.PWR_TEMP_VALID e.1) _ _ h).trans (rd_setF_ne _ (Reg.PWR_TEMP_TEMP e.1) _ _ h)

theorem tempStored_self (n : Nat) (i : Int) : getF (tempStored s (n, i)) (Reg.PWR_TEMP_TEMP n) = ofSigned 12 i % 4096 ∧
    flag (tempStored s (n, i)) (Reg.PWR_TEMP_VALID n) = true := by
  constructor
  · rw [tempStored, getF_setB_beside _ _ _ (show 0 + 12 ≤ 32 by decide) (.inl (show 0 + 12 ≤ 15 by decide)), getF_setF_self _ _ _ (show 0 + 12 ≤ 32 by decide)]
    rfl
  · exact flag_setB_self _ _ _ (show 15 + 1 ≤ 32 by decide) rfl

theorem tempsStored_cons (k x : Nat) (l : List Nat) : tempsStored s k (x :: l) = tempsStored (tempStored s (k, signed 12 x)) (k + 1) l := by
  rw [tempsStored, List.zipIdx_cons, List.map_cons, List.foldl_cons, ← tempsStored]

/-- Sensors below the first stay as they are. -/
theorem rd_tempsStored_below {k n : Nat} (l : List Nat) (h : n < k) : rd (tempsStored s k l) (Reg.PWR_TEMP n) = rd s (Reg.PWR_TEMP n) := by
  induction l generalizing s k with
  | nil => rfl
  | cons x l ih =>
    rw [tempsStored_cons, ih (Nat.lt_succ_of_lt h), rd_tempStored]
    simp only [Reg.PWR_TEMP]
    omega

/-- Each reading stands at its sensor. -/
theorem tempsStored_at (k : Nat) (l : List Nat) {n : Nat} (h : n < l.length) :
    getF (tempsStored s k l) (Reg.PWR_TEMP_TEMP (k + n)) = l.getD n 0 % 4096 ∧ flag (tempsStored s k l) (Reg.PWR_TEMP_VALID (k + n)) = true := by
  induction l generalizing s k n with
  | nil => simp at h
  | cons x l ih =>
    rw [tempsStored_cons]
    cases n with
    | zero =>
      have hrd : rd (tempsStored (tempStored s (k, signed 12 x)) (k + 1) l) (Reg.PWR_TEMP k) = rd (tempStored s (k, signed 12 x)) (Reg.PWR_TEMP k) :=
        rd_tempsStored_below l (Nat.lt_succ_self k)
      obtain ⟨htemp, hvalid⟩ := tempStored_self (s := s) k (signed 12 x)
      rw [ofSigned_signed, Nat.mod_mod] at htemp
      exact ⟨(congrArg (fget · 0 12) hrd).trans htemp, (congrArg (fget · 15 1 == 1) hrd).trans hvalid⟩
    | succ n =>
      have hk : k + (n + 1) = k + 1 + n := by omega
      rw [hk]
      exact ih (k + 1) (Nat.lt_of_succ_lt_succ h)

/-- What follows the readings leaves the sensors' registers alone. -/
theorem rd_tempFollow {src k c hyst : Nat} {now seen : Fld} {t : Int} {n a : Nat} (hoff : OffReport a) (hnow : a ≠ now.reg) (hseen : a ≠ seen.reg)
    (hcnt : a ≠ Reg.PWR_CNT k) : rd (tempFollow s src k c hyst now seen t n) a = rd s a := by
  unfold tempFollow
  dsimp only
  rw [rd_levelIs hoff, rd_setB_ne _ _ _ _ hnow]
  split
  · rw [rd_bump_ne _ _ _ hcnt, rd_setB_ne _ _ _ _ hseen]
  · rfl

/-- The hottest sensor shows, and the peak where it rises. -/
def hottestShown (s : State) (up : Bool) (t : Int) (n : Nat) : State :=
  let s1 := setF (setF s Reg.PWR_TEMP_MAX_TEMP (ofSigned 12 t)) Reg.PWR_TEMP_MAX_SENSOR n
  if up then setF (setF s1 Reg.PWR_TEMP_PEAK_TEMP (ofSigned 12 t)) Reg.PWR_TEMP_PEAK_SENSOR n else s1

theorem rd_hottestShown {up : Bool} {t : Int} {n a : Nat} (hmax : a ≠ Reg.PWR_TEMP_MAX) (hpeak : a ≠ Reg.PWR_TEMP_PEAK) : rd (hottestShown s up t n) a = rd s a := by
  have h1 : rd (setF (setF s Reg.PWR_TEMP_MAX_TEMP (ofSigned 12 t)) Reg.PWR_TEMP_MAX_SENSOR n) a = rd s a := by
    rw [rd_setF_ne _ _ _ _ hmax, rd_setF_ne _ _ _ _ hmax]
  cases up
  · exact h1
  · exact ((rd_setF_ne _ _ _ _ hpeak).trans (rd_setF_ne _ _ _ _ hpeak)).trans h1

theorem hottest_isSome {l : List (Nat × Int)} (h : l ≠ []) : (hottest l).isSome = true := by
  cases l with
  | nil => exact absurd rfl h
  | cons e l =>
    unfold hottest
    split
    · rfl
    · split <;> rfl

/-- What a reading leaves behind the sensors' registers, where no sensor is hot: the peak, the thresholds and their levels. -/
def tempsJudged (s u : State) (t : Int) (n : Nat) : State :=
  let s3 := hottestShown u (s.pwr.peakFresh || decide (signed 12 (getF s Reg.PWR_TEMP_PEAK_TEMP) < t)) t n
  let s4 := tempFollow s3 Src.tempWarn 3 (warnC s) (tempHyst s) Reg.PWR_TEMP_STAT_WARN Reg.PWR_TEMP_STAT_WARN_SEEN t n
  tempFollow s4 Src.tempHigh 4 (highC s) (tempHyst s) Reg.PWR_TEMP_STAT_HIGH Reg.PWR_TEMP_STAT_HIGH_SEEN t n

theorem rd_tempsJudged {u : State} {t : Int} {n k : Nat} (hk : k < 72) : rd (tempsJudged s u t n) (Reg.PWR_TEMP k) = rd u (Reg.PWR_TEMP k) := by
  have hoff : OffReport (Reg.PWR_TEMP k) := by
    simp only [OffReport, Reg.PWR_TEMP]
    omega
  have hne {a : Nat} (h : 0x0300240 ≤ a) : Reg.PWR_TEMP k ≠ a := by
    simp only [Reg.PWR_TEMP]
    omega
  rw [tempsJudged, rd_tempFollow hoff (hne (by decide)) (hne (by decide)) (hne (by decide)), rd_tempFollow hoff (hne (by decide)) (hne (by decide)) (hne (by decide)),
    rd_hottestShown (hne (by decide)) (hne (by decide))]

/-- No sensor is hot. -/
def noneHot (s : State) (t : Int) : State := { s with pwr := { s.pwr with hot := [], cool := decide (t < 1120), peakFresh := false } }

/-- Readings that leave no sensor hot store every reading, and what follows them leaves the sensors' registers alone. -/
theorem tempSensorRead_cool {temps : List Nat} (htop : s.top ≠ .off) (hlen : temps.length = 72) (hcool : ∀ x ∈ temps, signed 12 x < 1280) :
    ∃ t n, tempSensorRead temps s = noneHot (tempsJudged s (tempsStored s 0 temps) t n) t := by
  have hall : temps.take 72 = temps := List.take_of_length_le (Nat.le_of_eq hlen)
  have hne : (temps.zipIdx.map fun e => (e.2, signed 12 e.1)) ≠ [] := by
    intro h
    have hzero := congrArg List.length h
    simp [hlen] at hzero
  obtain ⟨⟨t, n⟩, hhot⟩ := Option.isSome_iff_exists.mp (hottest_isSome hne)
  have hgo : (!vinIsGood s || decide (temps.length < 72)) = false := by simp [vinIsGood_of htop, hlen]
  have hnone : (temps.zipIdx.map fun e => (e.2, signed 12 e.1)).filter (fun e => decide (1280 ≤ e.2)) = [] := by
    rw [List.filter_eq_nil_iff]
    intro e he
    obtain ⟨⟨x, i⟩, hx, rfl⟩ := List.mem_map.mp he
    have hlt := hcool x (List.fst_mem_of_mem_zipIdx hx)
    simp only [decide_eq_true_eq]
    omega
  refine ⟨t, n, ?_⟩
  rw [tempSensorRead, hall, hhot]
  dsimp only
  rw [hgo, if_neg Bool.false_ne_true, hnone]
  rfl

end

/-! ## Telemetry (R461) -/

section
variable {s : State}

/-- The voltages and currents as measured. -/
def suppliesStored (s : State) (vin iin pin vbat vio : Nat) : State :=
  let s1 := setF s Reg.PWR_VIN_STAT_VIN_MV vin
  let s2 := setF s1 Reg.PWR_VIN_MIN_MIN_MV (min (getF s1 Reg.PWR_VIN_MIN_MIN_MV) (vin % 8192))
  setF (setF (setF (setF s2 Reg.PWR_IIN_STAT_IIN iin) Reg.PWR_IIN_STAT_PIN pin) Reg.PWR_BAT_STAT_VBAT_MV vbat) ⟨Reg.PWR_VIO_STAT, 0, 10⟩ vio

/-- The powers of the groups and of the dies. -/
def groupsStored (s : State) (grp : List Nat) (n : Nat) : State := (List.range n).foldl (fun a k => setF a (Reg.PWR_GRP_PWR_POWER k) (grp.getD k 0)) s
def diesStored (s : State) (die : List Nat) : State := (List.range 3).foldl (fun a d => setF a (Reg.PWR_DIE_PWR_POWER d) (die.getD d 0)) s

theorem telemetryUpdate_stores (hon : powered s = true) (vin iin pin vbat vio : Nat) (grp die : List Nat) :
    telemetryUpdate vin iin pin vbat vio grp die s = diesStored (groupsStored (suppliesStored s vin iin pin vbat vio) grp 8) die := by
  have hgo : (!powered s) = false := by rw [hon]; rfl
  rw [telemetryUpdate, hgo, if_neg Bool.false_ne_true]
  rfl

theorem rd_diesStored {a : Nat} (h : ∀ d < 3, a ≠ Reg.PWR_DIE_PWR d) (die : List Nat) : rd (diesStored s die) a = rd s a :=
  foldl_same_mem (fun t => rd t a) (fun a d => setF a (Reg.PWR_DIE_PWR_POWER d) (die.getD d 0)) _ (fun _ d hd => rd_setF_ne _ (Reg.PWR_DIE_PWR_POWER d) _ _ (h d (List.mem_range.mp hd))) s

theorem rd_groupsStored {a n : Nat} (h : ∀ k < n, a ≠ Reg.PWR_GRP_PWR k) (grp : List Nat) : rd (groupsStored s grp n) a = rd s a :=
  foldl_same_mem (fun t => rd t a) (fun a k => setF a (Reg.PWR_GRP_PWR_POWER k) (grp.getD k 0)) _ (fun _ k hk => rd_setF_ne _ (Reg.PWR_GRP_PWR_POWER k) _ _ (h k (List.mem_range.mp hk))) s

theorem groupsStored_succ (grp : List Nat) (n : Nat) : groupsStored s grp (n + 1) = setF (groupsStored s grp n) (Reg.PWR_GRP_PWR_POWER n) (grp.getD n 0) := by
  rw [groupsStored, List.range_succ, List.foldl_append, ← groupsStored]
  rfl

theorem groupsStored_at (grp : List Nat) {k n : Nat} (h : k < n) : getF (groupsStored s grp n) (Reg.PWR_GRP_PWR_POWER k) = grp.getD k 0 % 2 ^ 16 := by
  induction n with
  | zero => omega
  | succ n ih =>
    rw [groupsStored_succ]
    by_cases hk : k = n
    · rw [hk]
      exact getF_setF_self _ _ _ (show 0 + 16 ≤ 32 by decide)
    · have hreg : (Reg.PWR_GRP_PWR_POWER k).reg ≠ (Reg.PWR_GRP_PWR_POWER n).reg := by
        simp only [Reg.PWR_GRP_PWR_POWER, Reg.PWR_GRP_PWR]
        omega
      rw [getF_setF_reg _ _ _ _ hreg, ih (by omega)]

/-- A register below the powers is left by them. -/
theorem getF_powers {f : Fld} (h : f.reg < 0x0300020) (grp die : List Nat) : getF (diesStored (groupsStored s grp 8) die) f = getF s f := by
  rw [getF, rd_diesStored, rd_groupsStored, ← getF]
  · intro k _
    simp only [Reg.PWR_GRP_PWR]
    omega
  · intro d _
    simp only [Reg.PWR_DIE_PWR]
    omega

theorem getF_suppliesStored_vin (vin iin pin vbat vio : Nat) : getF (suppliesStored s vin iin pin vbat vio) Reg.PWR_VIN_STAT_VIN_MV = vin % 8192 := by
  rw [suppliesStored]
  simp (disch := decide) only [getF_setF_reg]
  exact getF_setF_self _ _ _ (by decide)

theorem getF_suppliesStored_min (vin iin pin vbat vio : Nat) :
    getF (suppliesStored s vin iin pin vbat vio) Reg.PWR_VIN_MIN_MIN_MV = min (getF s Reg.PWR_VIN_MIN_MIN_MV) (vin % 8192) := by
  have hmin : getF (setF s Reg.PWR_VIN_STAT_VIN_MV vin) Reg.PWR_VIN_MIN_MIN_MV = getF s Reg.PWR_VIN_MIN_MIN_MV := getF_setF_reg _ _ _ _ (by decide)
  have hlt : min (getF s Reg.PWR_VIN_MIN_MIN_MV) (vin % 8192) < 2 ^ 13 := by omega
  rw [suppliesStored, getF_setF_reg _ _ _ _ (by decide), getF_setF_reg _ _ _ _ (by decide), getF_setF_reg _ _ _ _ (by decide), getF_setF_reg _ _ _ _ (by decide),
    getF_setF_self _ _ _ (by decide), hmin]
  exact Nat.mod_eq_of_lt (b := 2 ^ 13) hlt

theorem getF_suppliesStored_pin (vin iin pin vbat vio : Nat) :
    getF (suppliesStored s vin iin pin vbat vio) Reg.PWR_IIN_STAT_PIN = pin % 2 ^ Reg.PWR_IIN_STAT_PIN.len := by
  rw [suppliesStored, getF_setF_reg _ _ _ _ (by decide), getF_setF_reg _ _ _ _ (by decide), getF_setF_self _ _ _ (by decide)]

end

/-- Settles O19: the readings by the sensor that each stands at, the telemetry by its registers. -/
theorem sensorsAndTelemetry : Obligations.SensorsAndTelemetry := by
  unfold Obligations.SensorsAndTelemetry
  refine ⟨?temps, ?telemetry⟩
  case temps =>
    intro s temps htop hlen hcool
    refine completes_of (t := tempSensorRead temps s) rfl ?_
    obtain ⟨t, m, ht⟩ := tempSensorRead_cool htop hlen hcool
    rw [ht]
    refine ⟨fun n hn => ?_, rfl⟩
    have hrd : rd (noneHot (tempsJudged s (tempsStored s 0 temps) t m) t) (Reg.PWR_TEMP n) = rd (tempsStored s 0 temps) (Reg.PWR_TEMP n) :=
      (rd_congr (by rfl) _).trans (rd_tempsJudged hn)
    obtain ⟨htemp, hvalid⟩ := tempsStored_at (s := s) 0 temps (n := n) (hlen ▸ hn)
    rw [Nat.zero_add] at htemp hvalid
    exact ⟨(congrArg (fget · 0 12) hrd).trans htemp, (congrArg (fget · 15 1 == 1) hrd).trans hvalid⟩
  case telemetry =>
    intro s vin iin pin vbat vio grp die hon
    refine completes_of (t := telemetryUpdate vin iin pin vbat vio grp die s) rfl ?_
    rw [telemetryUpdate_stores hon, getF_powers (by decide), getF_powers (by decide), getF_powers (by decide), getF_suppliesStored_vin, getF_suppliesStored_min,
      getF_suppliesStored_pin]
    refine ⟨rfl, rfl, rfl, fun k hk => ?_⟩
    rw [getF, rd_diesStored, ← getF, groupsStored_at grp hk]
    · rfl
    · intro d hd
      simp only [Reg.PWR_GRP_PWR_POWER, Reg.PWR_GRP_PWR, Reg.PWR_DIE_PWR]
      omega

end Sys2Proof.Machine

/-! Rings: their registers, what an event to the host leaves alone, and doorbells, enabling, disabling and flushing (O37). -/

namespace Sys2Proof.Machine

/-! ## Bits of a word with an action bit set or cleared -/

theorem bits_lor (v m lo len : Nat) : bits (Nat.lor v m) lo len = Nat.lor (bits v lo len) (bits m lo len) := by
  refine Nat.eq_of_testBit_eq fun i => ?_
  have hlor (x y j : Nat) : (Nat.lor x y).testBit j = (x.testBit j || y.testBit j) := Nat.testBit_lor x y j
  rw [hlor, bits_eq_testBit, bits_eq_testBit, bits_eq_testBit, hlor, Bool.and_or_distrib_left]

theorem bits_land (v m lo len : Nat) : bits (Nat.land v m) lo len = Nat.land (bits v lo len) (bits m lo len) := by
  refine Nat.eq_of_testBit_eq fun i => ?_
  have hland (x y j : Nat) : (Nat.land x y).testBit j = (x.testBit j && y.testBit j) := Nat.testBit_land x y j
  rw [hland, bits_eq_testBit, bits_eq_testBit, bits_eq_testBit, hland]
  cases decide (i < len) <;> simp

theorem bits_lor_low {v m lo len : Nat} (h : bits m lo len = 0) : bits (Nat.lor v m) lo len = bits v lo len := by
  rw [bits_lor, h]
  exact Nat.or_zero _

/-- A word with bit 0 cleared. -/
theorem bit_land_even (v : Nat) : bit (Nat.land v 0xFFFFFFFE) 0 = false := by
  have h0 : bits 0xFFFFFFFE 0 1 = 0 := by decide
  have hbit : bit (Nat.land v 0xFFFFFFFE) 0 = (bits (Nat.land v 0xFFFFFFFE) 0 1 == 1) := rfl
  have hzero : Nat.land (bits v 0 1) 0 = 0 := Nat.and_zero _
  rw [hbit, bits_land, h0, hzero]
  rfl

theorem size_land_even (v : Nat) : bits (Nat.land v 0xFFFFFFFE) 2 5 = bits v 2 5 := by
  have h31 : bits 0xFFFFFFFE 2 5 = 2 ^ 5 - 1 := by decide
  have hmod : Nat.land (bits v 2 5) (2 ^ 5 - 1) = bits v 2 5 % 2 ^ 5 := Nat.and_two_pow_sub_one_eq_mod _ 5
  rw [bits_land, h31, hmod, bits, Nat.mod_mod]

theorem bit_lor_two_flush (v : Nat) : bit (Nat.lor v 2) 1 = true := by
  have h1 : bits 2 1 1 = 1 := by decide
  have hbit : bit (Nat.lor v 2) 1 = (Nat.lor (bits v 1 1) (bits 2 1 1) == 1) := congrArg (· == 1) (bits_lor v 2 1 1)
  have hlt : bits v 1 1 < 2 := Nat.mod_lt _ (by decide)
  rw [hbit, h1]
  interval_cases bits v 1 1 <;> rfl

/-! ## The addresses of ring registers -/

section
variable {f r q o p : Nat}

theorem pageBase_ge (f : Nat) : 0x0680000 ≤ Reg.pageBase f := by
  unfold Reg.pageBase
  split <;> omega

/-- Two registers of one ring. -/
theorem ringAddr_ne_off (h : o ≠ p) : Reg.pageBase f + o + 0x20 * r ≠ Reg.pageBase f + p + 0x20 * r := by omega

/-- Registers of two rings of one function. -/
theorem ringAddr_ne_ring (h : r ≠ q) (ho : o < 0x20 := by decide) (hp : p < 0x20 := by decide) : Reg.pageBase f + o + 0x20 * r ≠ Reg.pageBase f + p + 0x20 * q := by omega

/-- A register of a ring and one below every page. -/
theorem ringAddr_ne_low {a : Nat} (h : a < 0x0680000) : Reg.pageBase f + o + 0x20 * r ≠ a := by
  have := pageBase_ge f
  omega

theorem offReport_ringAddr (hf : f < 256) (hr : r < 44) (ho : o < 0x20) : OffReport (Reg.pageBase f + o + 0x20 * r) := by
  have hlo := pageBase_ge f
  have hhi : Reg.pageBase f ≤ 0x07FF000 := by
    unfold Reg.pageBase
    split <;> omega
  exact .inr (.inl ⟨by omega, by omega⟩)

theorem hifCnt_low {k : Nat} (h : k < 8) : Reg.HIF_CNT k < 0x0680000 := by
  simp only [Reg.HIF_CNT]
  omega

end

/-! ## Events to the host -/

section
variable {s : State} {f r a : Nat}

/-- An entry moves the PROD of its ring alone. -/
theorem rd_pushEntry_ne (h : a ≠ Reg.HIF_RING_PROD f r) (x : Bytes) (c : Bool) : rd (pushEntry s f r x c) a = rd s a := by
  unfold pushEntry
  extract_lets k q o _ u p
  have hput : rd u a = rd s a := rd_congr (t := u) (s := s) rfl a
  rw [rd_signal, rd_ringWb, rd_setF_ne _ _ _ _ h, hput]

/-- An event moves the PROD of the event ring, or counts as lost. -/
theorem rd_hostEvent_ne (hp : a ≠ Reg.HIF_RING_PROD f 18) (hc : a ≠ Reg.HIF_CNT 7) (typ : Nat) (b : Bytes) (c : Bool) : rd (hostEvent s f typ b c) a = rd s a := by
  unfold hostEvent
  split
  · rw [rd_perf, rd_pushEntry_ne hp]
  · exact rd_bump_ne _ _ _ hc

end

/-! ## Writes of ring registers (R485, R486) -/

section
variable {s : State} {f r v : Nat}

theorem ringWrite_acts (hen : flag s (Reg.HIF_FN_STAT_ENABLED f) = true) (hring : ringExists f r = true) (hopen : operOpen s = true) (o : Nat) (act : State → State) :
    ringWrite s f r o v act = act s := by
  rw [ringWrite, hen, hring, hopen]
  rfl

theorem ringWrite_unassigned (hen : flag s (Reg.HIF_FN_STAT_ENABLED f) = true) (hring : ringExists f r = false) (hon : powered s = true) (o : Nat) (act : State → State) :
    ringWrite s f r o v act = pwfD s f 0 (ringOff f r o) v .unassigned 0 := by
  have hpresent : ¬ (!flag s (Reg.HIF_FN_STAT_ENABLED f)) = true := by rw [hen]; decide
  have hlacks : (!ringExists f r) = true := by rw [hring]; rfl
  rw [ringWrite, if_neg hpresent, if_pos hlacks, hostFail, if_pos hon]

theorem doorOpen_of {host : Bool} (hdir : hostToDev r = host) (hrun : ringRuns s f r = true) : doorOpen s f r host = true := by
  rw [doorOpen, hdir, hrun]
  cases host <;> rfl

section
variable (hen : flag s (Reg.HIF_FN_STAT_ENABLED f) = true) (hring : ringExists f r = true) (hopen : operOpen s = true)
include hen hring hopen

/-- A producer index inside the ring and its room. -/
theorem prodDoorbell_stores (hdir : hostToDev r = true) (hrun : ringRuns s f r = true) (hin : v % 65536 < ringSize s f r)
    (hroom : (v % 65536 + ringSize s f r - ringProd s f r) % ringSize s f r ≤ ringRoom s f r) :
    prodDoorbell f r v s = setF s (Reg.HIF_RING_PROD_INDEX f r) (v % 65536) := by
  have hdoor : ¬ (!doorOpen s f r true) = true := by rw [doorOpen_of hdir hrun]; decide
  rw [prodDoorbell, ringWrite_acts hen hring hopen]
  dsimp only
  rw [if_neg hdoor, if_neg (Nat.not_le.mpr hin), if_neg (Nat.not_lt.mpr hroom)]

theorem prodDoorbell_outside (hdir : hostToDev r = true) (hrun : ringRuns s f r = true) (hout : ringSize s f r ≤ v % 65536) :
    prodDoorbell f r v s = ringStop s f r 1 (v % 65536) := by
  have hdoor : ¬ (!doorOpen s f r true) = true := by rw [doorOpen_of hdir hrun]; decide
  rw [prodDoorbell, ringWrite_acts hen hring hopen]
  dsimp only
  rw [if_neg hdoor, if_pos hout]

theorem consDoorbell_releases (hdir : hostToDev r = false) (hrun : ringRuns s f r = true) (hin : v % 65536 < ringSize s f r)
    (hstep : (v % 65536 + ringSize s f r - ringCons s f r) % ringSize s f r ≤ (ringProd s f r + ringSize s f r - ringCons s f r) % ringSize s f r) :
    consDoorbell f r v s = ringRelease (setF s (Reg.HIF_RING_CONS_INDEX f r) (v % 65536)) f r ((v % 65536 + ringSize s f r - ringCons s f r) % ringSize s f r) := by
  have hdoor : ¬ (!doorOpen s f r false) = true := by rw [doorOpen_of hdir hrun]; decide
  rw [consDoorbell, ringWrite_acts hen hring hopen]
  dsimp only
  rw [if_neg hdoor, if_neg (Nat.not_le.mpr hin), if_neg (Nat.not_lt.mpr hstep)]

end

/-- The registers of a ring that stops. -/
def ringStopped (s : State) (f r cause : Nat) : State := setF (setB s (Reg.HIF_RING_STAT_STOPPED f r) true) (Reg.HIF_RING_STAT_ERR_CAUSE f r) cause

/-- No dump waits for a command or TX ring. -/
theorem abandonRing_host (h : r < 36) : abandonRing s f r = s := if_neg fun hr => absurd hr.2 (Nat.not_le.mpr h)

theorem hostToDev_lt (h : hostToDev r = true) : r < 36 ∧ r ≠ 18 := by
  simp only [hostToDev, Bool.or_eq_true, Bool.and_eq_true, decide_eq_true_eq] at h
  omega

/-- A register of a stopped ring other than its PROD is as the stop leaves it. -/
theorem rd_ringStop {o cause : Nat} (hf : f < 256) (hr : r < 44) (hdir : hostToDev r = true) (ho : o < 0x20) (index : Nat) :
    rd (ringStop s f r cause index) (Reg.pageBase f + o + 0x20 * r) = rd (ringStopped s f r cause) (Reg.pageBase f + o + 0x20 * r) := by
  obtain ⟨hlt, hne⟩ := hostToDev_lt hdir
  rw [ringStop, rd_report (offReport_ringAddr hf hr ho), rd_hostEvent_ne (ringAddr_ne_ring hne ho) (ringAddr_ne_low (hifCnt_low (by decide))), abandonRing_host hlt]
  rfl

theorem flag_ringStopped (cause : Nat) : flag (ringStopped s f r cause) (Reg.HIF_RING_STAT_STOPPED f r) = true := by
  rw [flag, ringStopped, getF_setF_beside _ _ _ _ (show 17 + 1 ≤ 32 by decide) (.inl (show 17 + 1 ≤ 18 by decide)), ← flag,
    flag_setB_self _ _ _ (show 17 + 1 ≤ 32 by decide) rfl]

theorem cause_ringStopped (cause : Nat) : getF (ringStopped s f r cause) (Reg.HIF_RING_STAT_ERR_CAUSE f r) = cause % 8 :=
  getF_setF_self _ _ _ (show 18 + 3 ≤ 32 by decide)

theorem rd_ringStopped {a : Nat} (h : a ≠ Reg.HIF_RING_STAT f r) (cause : Nat) : rd (ringStopped s f r cause) a = rd s a :=
  (rd_setF_ne _ (Reg.HIF_RING_STAT_ERR_CAUSE f r) _ _ h).trans (rd_setB_ne _ (Reg.HIF_RING_STAT_STOPPED f r) _ _ h)

/-! ## Releasing entries (R486, R497) -/

/-- The entries and extents of a ring lose their first ones. -/
def entriesDropped (s : State) (f r k : Nat) : State :=
  { s with hif := { s.hif with
      out := mput [] s.hif.out (ringKey f r) ((mget [] s.hif.out (ringKey f r)).drop k)
      extents := mput [] s.hif.extents (ringKey f r) ((mget [] s.hif.extents (ringKey f r)).drop k) } }

theorem ringRelease_plain (h : r ≠ 17) (k : Nat) : ringRelease s f r k = entriesDropped s f r k := if_neg h

theorem entriesDropped_regs (k : Nat) : (entriesDropped s f r k).regs = s.regs := rfl

theorem entriesDropped_out (k : Nat) : mget [] (entriesDropped s f r k).hif.out (ringKey f r) = (mget [] s.hif.out (ringKey f r)).drop k := by
  have hout : (entriesDropped s f r k).hif.out = mput [] s.hif.out (ringKey f r) ((mget [] s.hif.out (ringKey f r)).drop k) := rfl
  rw [hout, mget_mput_self]

end

/-! ## HIF_RING_CFG (R486, R491) -/

section
variable {s : State} {f r w cmds : Nat}

/-- HIF_RING_CFG takes its writable bits. -/
def cfgTaken (s : State) (f r w : Nat) : State := writeRw s (Reg.HIF_RING_CFG f r) w ringCfgRw

theorem flag_cfgTaken : flag (cfgTaken s f r w) (Reg.HIF_RING_CFG_EN f r) = bit w 0 := by
  have hbit : getF (cfgTaken s f r w) (Reg.HIF_RING_CFG_EN f r) = bits w 0 1 :=
    getF_writeRw s (Reg.HIF_RING_CFG_EN f r) w ringCfgRw (by decide) (show 0 + 1 ≤ 32 by decide) (fun i hi => by
      have h0 : i = 0 := Nat.lt_one_iff.mp hi
      rw [h0]
      exact show ringCfgRw.testBit 0 = true by decide)
  rw [flag, hbit]
  rfl

theorem size_cfgTaken : getF (cfgTaken s f r w) (Reg.HIF_RING_CFG_SIZE_LOG2 f r) = bits w 2 5 :=
  getF_writeRw s (Reg.HIF_RING_CFG_SIZE_LOG2 f r) w ringCfgRw (by decide) (show 2 + 5 ≤ 32 by decide) (fun i hi => by
    have hi5 : i < 5 := hi
    have hcases : ∀ j < 5, ringCfgRw.testBit (2 + j) = true := by decide
    exact hcases i hi5)

theorem rd_cfgTaken {a : Nat} (h : a ≠ Reg.HIF_RING_CFG f r) : rd (cfgTaken s f r w) a = rd s a := rd_writeRw_ne _ _ _ h

variable (hen : flag s (Reg.HIF_FN_STAT_ENABLED f) = true) (hring : ringExists f r = true) (hopen : operOpen s = true)
include hen hring hopen

theorem ringCfg_enables (hoff : flag s (Reg.HIF_RING_CFG_EN f r) = false) (hbit : bit w 0 = true) : ringCfg f r w cmds s = ringOn (cfgTaken s f r w) f r := by
  rw [ringCfg, ringWrite_acts hen hring hopen]
  dsimp only
  rw [hoff, hbit]
  rfl

theorem ringCfg_resizes (hon : flag s (Reg.HIF_RING_CFG_EN f r) = true) (hsize : bits w 2 5 ≠ getF s (Reg.HIF_RING_CFG_SIZE_LOG2 f r)) :
    ringCfg f r w cmds s = pwfD s f 0 (ringOff f r 8) w .target 0 := by
  have hbad : (flag s (Reg.HIF_RING_CFG_EN f r) && bits w 2 5 != getF s (Reg.HIF_RING_CFG_SIZE_LOG2 f r)) = true := by simp [hon, hsize]
  rw [ringCfg, ringWrite_acts hen hring hopen]
  dsimp only
  rw [if_pos hbad]

theorem ringCfg_disables (hon : flag s (Reg.HIF_RING_CFG_EN f r) = true) (hsize : bits w 2 5 = getF s (Reg.HIF_RING_CFG_SIZE_LOG2 f r)) (hbit : bit w 0 = false) :
    ringCfg f r w cmds s = cfgTaken (ringDown s f r 1 cmds) f r w := by
  have hgood : ¬ (flag s (Reg.HIF_RING_CFG_EN f r) && bits w 2 5 != getF s (Reg.HIF_RING_CFG_SIZE_LOG2 f r)) = true := by simp [hsize]
  rw [ringCfg, ringWrite_acts hen hring hopen]
  dsimp only
  rw [if_neg hgood, hon, hbit]
  rfl

theorem ringCfg_flushes (hon : flag s (Reg.HIF_RING_CFG_EN f r) = true) (hsize : bits w 2 5 = getF s (Reg.HIF_RING_CFG_SIZE_LOG2 f r)) (hbit : bit w 0 = true)
    (hflush : bit w 1 = true) (hdir : hostToDev r = true) : ringCfg f r w cmds s = ringFlush (cfgTaken s f r w) f r 0 cmds := by
  have hgood : ¬ (flag s (Reg.HIF_RING_CFG_EN f r) && bits w 2 5 != getF s (Reg.HIF_RING_CFG_SIZE_LOG2 f r)) = true := by simp [hsize]
  rw [ringCfg, ringWrite_acts hen hring hopen]
  dsimp only
  rw [if_neg hgood, hon, hbit, hflush, hdir]
  rfl

end

/-! ## Enabling -/

section
variable {s : State} {f r : Nat}

/-- The indexes and the status of a ring that is enabled. -/
def ringZeroed (s : State) (f r : Nat) : State :=
  let s2 := setF (setF s (Reg.HIF_RING_PROD_INDEX f r) 0) (Reg.HIF_RING_CONS_INDEX f r) 0
  setF (setB (setB s2 (Reg.HIF_RING_STAT_STOPPED f r) false) (Reg.HIF_RING_STAT_BUSY f r) false) (Reg.HIF_RING_STAT_ERR_CAUSE f r) 0

theorem ringOn_eq : ringOn s f r = ringZeroed (ringForget s (ringKey f r)) f r := rfl

theorem ringForget_regs (k : Nat) : (ringForget s k).regs = s.regs := rfl

theorem ringForget_seq (k : Nat) : mget 0 (ringForget s k).hif.seq k = 0 := by
  have hseq : (ringForget s k).hif.seq = merase s.hif.seq k := rfl
  rw [hseq, mget, mfind_merase_self]

theorem ringForget_out (k : Nat) : mget [] (ringForget s k).hif.out k = [] := by
  have hout : (ringForget s k).hif.out = merase s.hif.out k := rfl
  rw [hout, mget, mfind_merase_self]

theorem ringZeroed_hif : (ringZeroed s f r).hif = s.hif := by
  rw [ringZeroed, setF_hif, setB_hif, setB_hif, setF_hif, setF_hif]

/-- What a status write of a ring leaves of its other registers. -/
theorem getF_statZeroed {g : Fld} (h : g.reg ≠ Reg.HIF_RING_STAT f r) :
    getF (setF (setB (setB s (Reg.HIF_RING_STAT_STOPPED f r) false) (Reg.HIF_RING_STAT_BUSY f r) false) (Reg.HIF_RING_STAT_ERR_CAUSE f r) 0) g = getF s g := by
  rw [getF_setF_reg _ (Reg.HIF_RING_STAT_ERR_CAUSE f r) _ _ h, getF_setB_reg _ (Reg.HIF_RING_STAT_BUSY f r) _ _ h, getF_setB_reg _ (Reg.HIF_RING_STAT_STOPPED f r) _ _ h]

theorem ringZeroed_prod : getF (ringZeroed s f r) (Reg.HIF_RING_PROD_INDEX f r) = 0 := by
  rw [ringZeroed, getF_statZeroed (ringAddr_ne_off (by decide)), getF_setF_reg _ _ _ _ (ringAddr_ne_off (by decide)), getF_setF_self _ _ _ (show 0 + 16 ≤ 32 by decide)]
  rfl

theorem ringZeroed_cons : getF (ringZeroed s f r) (Reg.HIF_RING_CONS_INDEX f r) = 0 := by
  rw [ringZeroed, getF_statZeroed (ringAddr_ne_off (by decide)), getF_setF_self _ _ _ (show 0 + 16 ≤ 32 by decide)]
  rfl

theorem ringZeroed_stopped : flag (ringZeroed s f r) (Reg.HIF_RING_STAT_STOPPED f r) = false := by
  rw [ringZeroed, flag, getF_setF_beside _ _ _ _ (show 17 + 1 ≤ 32 by decide) (.inl (show 17 + 1 ≤ 18 by decide)),
    getF_setB_beside _ _ _ (show 17 + 1 ≤ 32 by decide) (.inr (show 16 + 1 ≤ 17 by decide)), ← flag, flag_setB_self _ _ _ (show 17 + 1 ≤ 32 by decide) rfl]

theorem rd_ringZeroed_cfg : rd (ringZeroed s f r) (Reg.HIF_RING_CFG f r) = rd s (Reg.HIF_RING_CFG f r) := by
  rw [ringZeroed, rd_setF_ne _ _ _ _ (ringAddr_ne_off (by decide)), rd_setB_ne _ _ _ _ (ringAddr_ne_off (by decide)), rd_setB_ne _ _ _ _ (ringAddr_ne_off (by decide)),
    rd_setF_ne _ _ _ _ (ringAddr_ne_off (by decide)), rd_setF_ne _ _ _ _ (ringAddr_ne_off (by decide))]

end

/-! ## Disabling -/

section
variable {s : State} {f r : Nat}

/-- A device-to-host ring is off, and its holdoff with it. -/
def ringSilent (s : State) (f r : Nat) : State :=
  setB { s with hif := { s.hif with holdoff := merase s.hif.holdoff (ringKey f r) } } (Reg.HIF_RING_CFG_EN f r) false

theorem ringDown_device (hon : flag s (Reg.HIF_RING_CFG_EN f r) = true) (hdir : hostToDev r = false) (h17 : r ≠ 17) (cause cmds : Nat) :
    ringDown s f r cause cmds = abandonRing (ringSilent s f r) f r := by
  rw [ringDown, hon, hdir, if_neg h17]
  dsimp only
  rw [if_neg h17]
  rfl

/-- The dumps of PF0's ring r. -/
def dumpsOf (s : State) (r : Nat) : NMap Snapshot := s.cnt.snaps.filter fun e => 36 + e.2.ring == r

theorem abandonRing_none (h : f = 0 → ∀ e ∈ s.cnt.snaps, 36 + e.2.ring ≠ r) : abandonRing s f r = s := by
  unfold abandonRing
  split
  next hf =>
    have hnone : s.cnt.snaps.filter (fun e => 36 + e.2.ring == r) = [] := by
      rw [List.filter_eq_nil_iff]
      exact fun e he => by simpa using h hf.1 e he
    rw [hnone, List.foldl_nil]
  · rfl

theorem mem_merase {α : Type} {m : NMap α} {k : Nat} {e : Nat × α} : e ∈ merase m k ↔ e ∈ m ∧ e.1 ≠ k := by
  induction m with
  | nil => simp [merase]
  | cons x m ih =>
    obtain ⟨j, v⟩ := x
    unfold merase
    split
    next hj =>
      rw [ih, List.mem_cons]
      constructor
      · exact fun h => ⟨.inr h.1, h.2⟩
      · rintro ⟨rfl | h, hne⟩
        · exact absurd hj hne
        · exact ⟨h, hne⟩
    next hj =>
      rw [List.mem_cons, ih, List.mem_cons]
      constructor
      · rintro (rfl | h)
        · exact ⟨.inl rfl, hj⟩
        · exact ⟨.inr h.1, h.2⟩
      · rintro ⟨rfl | h, hne⟩
        · exact .inl rfl
        · exact .inr ⟨h, hne⟩

theorem abandonDump_snaps (d : Nat) (x : Snapshot) : (abandonDump s d x).cnt.snaps = merase s.cnt.snaps d := by
  rw [abandonDump, report_cnt, bump_cnt, releaseSnap_cnt]

/-- Abandoning dumps leaves the snapshots of the other groups. -/
theorem mem_snaps_abandon (l : NMap Snapshot) (e : Nat × Snapshot) :
    e ∈ (l.foldl (fun a e => abandonDump a e.1 e.2) s).cnt.snaps ↔ e ∈ s.cnt.snaps ∧ ∀ x ∈ l, x.1 ≠ e.1 := by
  induction l generalizing s with
  | nil => simp
  | cons x l ih =>
    rw [List.foldl_cons, ih, abandonDump_snaps, mem_merase, List.forall_mem_cons, and_assoc]
    exact and_congr_right fun _ => and_congr_left fun _ => ne_comm

theorem ringSilent_snaps : (ringSilent s f r).cnt.snaps = s.cnt.snaps := rfl

end

/-! ## Flushing (R491) -/

section
variable {s : State} {f r : Nat}

/-- The open command and the skipping of a ring are over. -/
def ringEmptied (s : State) (f r : Nat) : State :=
  let k := ringKey f r
  { s with hif := { s.hif with opened := merase s.hif.opened k, skip := merase s.hif.skip k } }

/-- CONS stands at an index, and no command is open. -/
def ringCaughtUp (s : State) (f r i : Nat) : State := setB (setF s (Reg.HIF_RING_CONS_INDEX f r) i) (Reg.HIF_RING_STAT_BUSY f r) false

theorem ringFlush_idle (hopened : mget [] s.hif.opened (ringKey f r) = []) (hskip : mfind s.hif.skip (ringKey f r) = none) (cause cmds : Nat) :
    ∃ n m, ringFlush s f r cause cmds = ringFlushed (ringCaughtUp (ringEmptied s f r) f r (ringProd s f r)) f r cause
      ((ringCons s f r + ringSize s f r) % ringSize s f r) n m := by
  rw [ringFlush, hopened, hskip]
  exact ⟨_, _, rfl⟩

/-- What RING_FLUSHED leaves of a register of the ring. -/
theorem rd_ringFlushed {o : Nat} (hdir : r ≠ 18) (ho : o < 0x20) (cause point n m : Nat) :
    rd (ringFlushed s f r cause point n m) (Reg.pageBase f + o + 0x20 * r) =
      rd (setF s (Reg.HIF_RING_STAT_FLUSH_POINT f r) point) (Reg.pageBase f + o + 0x20 * r) :=
  rd_hostEvent_ne (ringAddr_ne_ring hdir ho) (ringAddr_ne_low (hifCnt_low (by decide))) _ _ _

/-- What a flush shows in the ring's registers. -/
theorem ringFlushed_shows (hdir : r ≠ 18) (i cause point n m : Nat) :
    getF (ringFlushed (ringCaughtUp s f r i) f r cause point n m) (Reg.HIF_RING_CONS_INDEX f r) = i % 2 ^ 16 ∧
      flag (ringFlushed (ringCaughtUp s f r i) f r cause point n m) (Reg.HIF_RING_STAT_BUSY f r) = false ∧
        getF (ringFlushed (ringCaughtUp s f r i) f r cause point n m) (Reg.HIF_RING_STAT_FLUSH_POINT f r) = point % 2 ^ 16 := by
  have hcons : rd (ringFlushed (ringCaughtUp s f r i) f r cause point n m) (Reg.HIF_RING_CONS f r) = rd (setF s (Reg.HIF_RING_CONS_INDEX f r) i) (Reg.HIF_RING_CONS f r) :=
    (rd_ringFlushed hdir (by decide) ..).trans ((rd_setF_ne _ _ _ _ (ringAddr_ne_off (by decide))).trans (rd_setB_ne _ _ _ _ (ringAddr_ne_off (by decide))))
  have hstat : rd (ringFlushed (ringCaughtUp s f r i) f r cause point n m) (Reg.HIF_RING_STAT f r) =
      rd (setF (ringCaughtUp s f r i) (Reg.HIF_RING_STAT_FLUSH_POINT f r) point) (Reg.HIF_RING_STAT f r) := rd_ringFlushed hdir (by decide) ..
  refine ⟨(congrArg (fget · 0 16) hcons).trans (getF_setF_self _ _ _ (show 0 + 16 ≤ 32 by decide)), ?_, ?_⟩
  · refine (congrArg (fget · 16 1 == 1) hstat).trans ((congrArg (· == 1) (getF_setF_beside _ (Reg.HIF_RING_STAT_FLUSH_POINT f r) (Reg.HIF_RING_STAT_BUSY f r) _
      (show 16 + 1 ≤ 32 by decide) (.inr (show 0 + 16 ≤ 16 by decide)))).trans ?_)
    exact flag_setB_self _ (Reg.HIF_RING_STAT_BUSY f r) _ (show 16 + 1 ≤ 32 by decide) rfl
  · exact (congrArg (fget · 0 16) hstat).trans (getF_setF_self _ (Reg.HIF_RING_STAT_FLUSH_POINT f r) _ (show 0 + 16 ≤ 32 by decide))

end

/-- Settles O37: each write by what HIF_RING_CFG, the indexes and the status of the ring then hold. -/
theorem ringRegisterWrites : Obligations.RingRegisterWrites := by
  unfold Obligations.RingRegisterWrites
  refine ⟨?prod, ?prodOutside, ?unassigned, ?cons, ?enable, ?disable, ?resize, ?flush, ?dumps⟩
  case prod =>
    exact fun s f r v hen hring hopen hdir hrun hin hroom =>
      completes_of (t := prodDoorbell f r v s) rfl (prodDoorbell_stores hen hring hopen hdir hrun hin hroom)
  case prodOutside =>
    intro s f r v hen hring hopen hdir hrun hout
    refine completes_of (t := prodDoorbell f r v s) rfl ?_
    have hrd {o : Nat} (ho : o < 0x20) := rd_ringStop (s := s) (cause := 1) f.isLt r.isLt hdir ho (v % 65536)
    have hstat : rd (ringStop s f r 1 (v % 65536)) (Reg.HIF_RING_STAT f r) = rd (ringStopped s f r 1) (Reg.HIF_RING_STAT f r) := hrd (by decide)
    rw [prodDoorbell_outside hen hring hopen hdir hrun hout]
    refine ⟨(hrd (o := 0xC) (by decide)).trans (rd_ringStopped (ringAddr_ne_off (by decide)) 1), ?_, ?_⟩
    · exact (congrArg (fget · 17 1 == 1) hstat).trans (flag_ringStopped 1)
    · exact (congrArg (fget · 18 3) hstat).trans (cause_ringStopped 1)
  case unassigned => exact fun s f r v hen hring hon => completes_of (t := prodDoorbell f r v s) rfl (ringWrite_unassigned hen hring hon _ _)
  case cons =>
    intro s f r v hen hring hopen hdir h17 hrun hin hstep
    refine completes_of (t := consDoorbell f r v s) rfl ?_
    rw [consDoorbell_releases hen hring hopen hdir hrun hin hstep, ringRelease_plain h17, getF_congr (entriesDropped_regs _),
      getF_setF_self _ _ _ (show 0 + 16 ≤ 32 by decide), entriesDropped_out]
    refine ⟨Nat.mod_mod _ _, fun a ha => ?_, rfl⟩
    rw [rd_congr (entriesDropped_regs _), rd_setF_ne _ (Reg.HIF_RING_CONS_INDEX f r) _ _ (List.ne_of_not_mem_cons ha)]
  case enable =>
    intro s f r v hen hring hopen hoff
    refine completes_of (t := ringCfg f r (Nat.lor v 1) 0 s) rfl ?_
    have hcfg : rd (ringOn (cfgTaken s f r (Nat.lor v 1)) f r) (Reg.HIF_RING_CFG f r) = rd (cfgTaken s f r (Nat.lor v 1)) (Reg.HIF_RING_CFG f r) :=
      (ringOn_eq ▸ rd_ringZeroed_cfg).trans (rd_congr (ringForget_regs _) _)
    have hsize : getF (cfgTaken s f r (Nat.lor v 1)) (Reg.HIF_RING_CFG_SIZE_LOG2 f r) = bits v 2 5 := size_cfgTaken.trans (bits_lor_low (by decide))
    rw [ringCfg_enables hen hring hopen hoff (bit_lor_one v)]
    refine ⟨(congrArg (fget · 0 1 == 1) hcfg).trans (flag_cfgTaken.trans (bit_lor_one v)), ringZeroed_prod, ringZeroed_cons, ringZeroed_stopped,
      (congrArg (fget · 2 5) hcfg).trans hsize, ?_, ?_⟩
    · rw [ringOn_eq, ringZeroed_hif, ringForget_seq]
    · rw [ringOn_eq, ringZeroed_hif, ringForget_out]
  case disable =>
    intro s f r v n hen hring hopen hon hdir h17 hsize hnone
    refine completes_of (t := ringCfg f r (Nat.land v 0xFFFFFFFE) n s) rfl ?_
    have hquiet : abandonRing (ringSilent s f r) f r = ringSilent s f r := abandonRing_none hnone
    rw [ringCfg_disables hen hring hopen hon ((size_land_even v).trans hsize) (bit_land_even v), ringDown_device hon hdir h17, hquiet, flag_cfgTaken, bit_land_even]
    refine ⟨rfl, fun a ha => ?_, rfl⟩
    rw [rd_cfgTaken (List.ne_of_not_mem_cons ha), ringSilent, rd_setB_ne _ (Reg.HIF_RING_CFG_EN f r) _ _ (List.ne_of_not_mem_cons ha)]
    exact rd_congr (by rfl) a
  case resize =>
    exact fun s f r v n hen hring hopen hon hsize => completes_of (t := ringCfg f r (Nat.land v 0xFFFFFFFE) n s) rfl
      (ringCfg_resizes hen hring hopen hon (by rwa [size_land_even]))
  case flush =>
    intro s f r v n hen hring hopen hon hdir hsize hbit hopened hskip
    refine completes_of (t := ringCfg f r (Nat.lor v 2) n s) rfl ?_
    have hsame : bits (Nat.lor v 2) 2 5 = getF s (Reg.HIF_RING_CFG_SIZE_LOG2 f r) := (bits_lor_low (by decide)).trans hsize
    have hbit' : bit (Nat.lor v 2) 0 = true := (congrArg (· == 1) (bits_lor_low (v := v) (m := 2) (lo := 0) (len := 1) (by decide))).trans hbit
    rw [ringCfg_flushes hen hring hopen hon hsame hbit' (bit_lor_two_flush v) hdir]
    have hprod : ringProd (cfgTaken s f r (Nat.lor v 2)) f r = ringProd s f r := congrArg (fget · 0 16) (rd_cfgTaken (ringAddr_ne_off (by decide)))
    have hcons : ringCons (cfgTaken s f r (Nat.lor v 2)) f r = ringCons s f r := congrArg (fget · 0 16) (rd_cfgTaken (ringAddr_ne_off (by decide)))
    have hring' : ringSize (cfgTaken s f r (Nat.lor v 2)) f r = ringSize s f r := by rw [ringSize, size_cfgTaken, hsame, ← ringSize]
    obtain ⟨k, m, hflush⟩ := ringFlush_idle (s := cfgTaken s f r (Nat.lor v 2)) hopened hskip 0 n
    obtain ⟨hat, hbusy, hpoint⟩ := ringFlushed_shows (s := ringEmptied (cfgTaken s f r (Nat.lor v 2)) f r) (hostToDev_lt hdir).2 (ringProd s f r) 0
      ((ringCons s f r + ringSize s f r) % ringSize s f r) k m
    rw [hflush, hprod, hcons, hring']
    exact ⟨hat.trans (Nat.mod_eq_of_lt (getF_lt s (Reg.HIF_RING_PROD_INDEX f r))), hbusy, hpoint⟩
  case dumps =>
    intro s r v n hen hopen hon h36 hsize
    refine completes_of (t := ringCfg 0 r (Nat.land v 0xFFFFFFFE) n s) rfl ?_
    have hring : ringExists 0 r = true := by
      simp only [ringExists, if_true, decide_eq_true_eq]
      omega
    have hdir : hostToDev r = false := by
      simp only [hostToDev, Bool.or_eq_false_iff, Bool.and_eq_false_iff, decide_eq_false_iff_not]
      omega
    have hdump : abandonRing (ringSilent s 0 r) 0 r = (dumpsOf s r).foldl (fun a e => abandonDump a e.1 e.2) (ringSilent s 0 r) := if_pos ⟨rfl, h36⟩
    rw [ringCfg_disables hen hring hopen hon ((size_land_even v).trans hsize) (bit_land_even v), ringDown_device hon hdir (by omega), hdump, flag_cfgTaken, bit_land_even]
    refine ⟨rfl, fun e => (mem_snaps_abandon _ e).trans ?_⟩
    rw [ringSilent_snaps]
    refine and_congr_right fun _ => ?_
    simp only [dumpsOf, List.mem_filter, beq_iff_eq, and_imp]

end Sys2Proof.Machine

/-! Fetching commands, holdoffs, resets of functions, the PCIe link and TX descriptors (O38). -/

namespace Sys2Proof.Machine

/-! ## Fetching (R488 to R490) -/

section
variable {s : State} {f r : Nat}

/-- A ring whose oldest commands are listed has none refused. -/
theorem refuseOpcodes_listed (h : ∀ c ∈ s.hif.inFlight, opcodeListed c.opcode = true) (n : Nat) : refuseOpcodes s f r n = s := by
  cases n with
  | zero => rfl
  | succ n =>
    unfold refuseOpcodes
    split
    next d hd => rw [if_pos (h d (List.mem_of_find?_eq_some hd))]
    · rfl

/-- The ring whose turn it is begins a command. -/
def turnTaken (s : State) (f r : Nat) : State := launched { s with hif := { s.hif with fetchAt := ringKey f r } } f

/-- A command of one entry is in flight. -/
def commandJoined (s : State) (f r : Nat) (c : HostCmd) : State :=
  let s2 := openPut (turnTaken s f r) f r []
  { s2 with hif := { s2.hif with inFlight := s2.hif.inFlight ++ [c] } }

theorem launched_hif : (launched s f).hif = s.hif := by
  unfold launched setPeak
  dsimp only
  rw [setF_hif, apply_ite State.hif, setF_hif, setF_hif, ite_self]

theorem openPut_inFlight (l : List Bytes) : (openPut s f r l).hif.inFlight = s.hif.inFlight := rfl

theorem turnTaken_inFlight : (turnTaken s f r).hif.inFlight = s.hif.inFlight := by
  rw [turnTaken, launched_hif]

theorem commandJoined_inFlight (c : HostCmd) : (commandJoined s f r c).hif.inFlight = s.hif.inFlight ++ [c] :=
  congrArg (· ++ [c]) ((openPut_inFlight (s := turnTaken s f r) []).trans turnTaken_inFlight)

theorem entryJoin_whole {e : Bytes} (hopened : mget [] s.hif.opened (ringKey f r) = []) (hend : bit (byteAt e 0) 1 = true) (hfree : s.hif.inFlight = [])
    (hop : opcodeListed (byteAt e 1) = true) : entryJoin s f r e = commandJoined s f r (cmdOf f r [e]) := by
  have hlisted : ∀ c ∈ (commandJoined s f r (cmdOf f r [e])).hif.inFlight, opcodeListed c.opcode = true := by
    rw [commandJoined_inFlight, hfree]
    intro c hc
    rw [List.mem_singleton.mp hc]
    exact hop
  have hjoin : entryJoin s f r e = refuseOpcodes (commandJoined s f r (cmdOf f r [e])) f r (commandJoined s f r (cmdOf f r [e])).hif.inFlight.length := by
    unfold entryJoin
    rw [hopened, if_pos hend]
    rfl
  rw [hjoin, refuseOpcodes_listed hlisted]

theorem entryTake_starts {e : Bytes} (hskip : mfind s.hif.skip (ringKey f r) = none) (hopened : mget [] s.hif.opened (ringKey f r) = [])
    (hstart : bit (byteAt e 0) 0 = true) (i : Nat) : entryTake s f r i e = entryJoin s f r e := by
  unfold entryTake
  dsimp only
  rw [hskip, hopened, hstart]
  rfl

theorem entryRead_hif : (entryRead s f r).hif = { s.hif with wb := mset s.hif.wb (ringKey f r) (some ((ringCons s f r + 1) % ringSize s f r)) } := rfl

theorem commandFetch_joins {e : Bytes} (hopen : operOpen s = true) (hturn : fetchTurn s = some (ringKey f r)) (hopened : mget [] s.hif.opened (ringKey f r) = [])
    (hskip : mfind s.hif.skip (ringKey f r) = none) (hfree : s.hif.inFlight = []) (hstart : bit (byteAt (fit 64 e) 0) 0 = true)
    (hend : bit (byteAt (fit 64 e) 0) 1 = true) (hop : opcodeListed (byteAt (fit 64 e) 1) = true) :
    commandFetch f r (some e) s = commandJoined (entryRead s f r) f r (cmdOf f r [fit 64 e]) := by
  have hgo : (!operOpen s || fetchTurn s != some (ringKey f r)) = false := by simp [hopen, hturn]
  have hopened' : mget [] (entryRead s f r).hif.opened (ringKey f r) = [] := hopened
  have hskip' : mfind (entryRead s f r).hif.skip (ringKey f r) = none := hskip
  rw [commandFetch, hgo, if_neg Bool.false_ne_true]
  dsimp only
  rw [entryTake_starts hskip' hopened' hstart]
  exact entryJoin_whole hopened' hend hfree hop

theorem commandFetch_fails (hopen : operOpen s = true) (hturn : fetchTurn s = some (ringKey f r)) : commandFetch f r none s = ringStop s f r 3 (ringCons s f r) := by
  have hgo : (!operOpen s || fetchTurn s != some (ringKey f r)) = false := by simp [hopen, hturn]
  rw [commandFetch, hgo, if_neg Bool.false_ne_true]

/-- The registers that a command of one entry leaves: BUSY over what its launch counts. -/
def joinShown (s : State) (f r : Nat) : State := setB (turnTaken s f r) (Reg.HIF_RING_STAT_BUSY f r) false

theorem openPut_regs (l : List Bytes) : (openPut s f r l).regs = (setB s (Reg.HIF_RING_STAT_BUSY f r) (!l.isEmpty)).regs := by
  unfold openPut
  rw [setB, setB, setF, setF, wr, wr]
  rfl

theorem commandJoined_regs (c : HostCmd) : (commandJoined s f r c).regs = (joinShown s f r).regs := by
  unfold commandJoined joinShown
  dsimp only
  exact openPut_regs []

theorem rd_commandJoined (c : HostCmd) (a : Nat) : rd (commandJoined s f r c) a = rd (joinShown s f r) a :=
  rd_congr (commandJoined_regs c) a

/-- What the launch of a command counts. -/
theorem rd_launched {a : Nat} (hin : a ≠ Reg.HIF_INFLIGHT) (hfn : a ≠ Reg.HIF_FN_STAT f) : rd (launched s f) a = rd s a := by
  have hpeak (n : Nat) : rd (setPeak s Reg.HIF_INFLIGHT_NOW Reg.HIF_INFLIGHT_PEAK n) a = rd s a := by
    unfold setPeak
    dsimp only
    split
    · rw [rd_setF_ne _ _ _ _ hin, rd_setF_ne _ _ _ _ hin]
    · rw [rd_setF_ne _ _ _ _ hin]
  unfold launched
  dsimp only
  rw [rd_setF_ne _ (Reg.HIF_FN_STAT_NOW f) _ _ hfn, hpeak]

theorem now_launched : getF (launched s f) (Reg.HIF_FN_STAT_NOW f) = (getF s (Reg.HIF_FN_STAT_NOW f) + 1) % 2 ^ 15 := by
  have hne : Reg.HIF_FN_STAT f ≠ Reg.HIF_INFLIGHT := by
    simp only [Reg.HIF_FN_STAT, Reg.HIF_INFLIGHT]
    omega
  have hpeak (n : Nat) : getF (setPeak s Reg.HIF_INFLIGHT_NOW Reg.HIF_INFLIGHT_PEAK n) (Reg.HIF_FN_STAT_NOW f) = getF s (Reg.HIF_FN_STAT_NOW f) := by
    unfold setPeak
    dsimp only
    split
    · rw [getF_setF_reg _ Reg.HIF_INFLIGHT_PEAK (Reg.HIF_FN_STAT_NOW f) _ hne, getF_setF_reg _ Reg.HIF_INFLIGHT_NOW (Reg.HIF_FN_STAT_NOW f) _ hne]
    · rw [getF_setF_reg _ Reg.HIF_INFLIGHT_NOW (Reg.HIF_FN_STAT_NOW f) _ hne]
  unfold launched
  dsimp only
  rw [getF_setF_self _ (Reg.HIF_FN_STAT_NOW f) _ (show 0 + 15 ≤ 32 by decide), hpeak]
  rfl

theorem fnStat_low (hf : f < 256) : Reg.HIF_FN_STAT f < 0x0680000 := by
  simp only [Reg.HIF_FN_STAT]
  omega

theorem regs_fetchAt (k : Nat) : { s with hif := { s.hif with fetchAt := k } }.regs = s.regs := rfl

theorem entryRead_regs : (entryRead s f r).regs = (setF s (Reg.HIF_RING_CONS_INDEX f r) ((ringCons s f r + 1) % ringSize s f r)).regs := rfl

end

/-! ## Holdoffs (R483) -/

section
variable {s : State} {f r : Nat}

/-- No holdoff of a ring runs. -/
def holdoffOver (s : State) (f r : Nat) : State := { s with hif := { s.hif with holdoff := merase s.hif.holdoff (ringKey f r) } }

theorem msixHoldoffEnd_quiet (h : mfind s.hif.holdoff (ringKey f r) = some false) : msixHoldoffEnd f r s = holdoffOver s f r := by
  rw [msixHoldoffEnd, h]
  rfl

theorem msixHoldoffEnd_signals (h : mfind s.hif.holdoff (ringKey f r) = some true) : msixHoldoffEnd f r s = signal (holdoffOver s f r) f r false := by
  rw [msixHoldoffEnd, h]
  rfl

/-- A message goes out, and the next holdoff runs. -/
def messageSent (s : State) (f r : Nat) : State :=
  let v := getF s (Reg.HIF_RING_CFG_VECTOR f r)
  { s with hif := { s.hif with
      msix := mput 0 s.hif.msix (f * 2048 + v) (mget 0 s.hif.msix (f * 2048 + v) + 1)
      holdoff := mset s.hif.holdoff (ringKey f r) (some false) } }

theorem signal_sends (hfree : mfind s.hif.holdoff (ringKey f r) = none) (hvec : getF s (Reg.HIF_RING_CFG_VECTOR f r) < getF s (Reg.HIF_FN_CFG_MSIX_CNT f))
    (hon : f ∈ s.hif.msixOn) (hmod : getF s (Reg.HIF_RING_CFG_MOD_US f r) ≠ 0) : signal s f r false = messageSent s f r := by
  have hgo : (false || (mfind s.hif.holdoff (ringKey f r)).isNone) = true := by rw [hfree]; rfl
  unfold signal
  dsimp only
  rw [if_pos hgo, if_pos (And.intro hvec hon), if_neg hmod]
  rfl

theorem messageSent_msix : mget 0 (messageSent s f r).hif.msix (f * 2048 + getF s (Reg.HIF_RING_CFG_VECTOR f r)) =
    mget 0 s.hif.msix (f * 2048 + getF s (Reg.HIF_RING_CFG_VECTOR f r)) + 1 := by
  have hmsix : (messageSent s f r).hif.msix = mput 0 s.hif.msix (f * 2048 + getF s (Reg.HIF_RING_CFG_VECTOR f r))
      (mget 0 s.hif.msix (f * 2048 + getF s (Reg.HIF_RING_CFG_VECTOR f r)) + 1) := rfl
  rw [hmsix, mget_mput_self]

theorem messageSent_holdoff : mfind (messageSent s f r).hif.holdoff (ringKey f r) = some false := by
  have hold : (messageSent s f r).hif.holdoff = mset s.hif.holdoff (ringKey f r) (some false) := rfl
  rw [hold, mfind_mset_self]

theorem messageSent_regs : (messageSent s f r).regs = s.regs := rfl

theorem holdoffOver_regs : (holdoffOver s f r).regs = s.regs := rfl

theorem holdoffOver_free : mfind (holdoffOver s f r).hif.holdoff (ringKey f r) = none := mfind_merase_self ..

end

/-! ## Resets of functions (R484) -/

section
variable {s : State} {f r : Nat}

/-- What the host interface holds beside the entries that it writes and the messages that it sends. -/
def HifSt.offPush (h : HifSt) : HifSt := { h with out := [], seq := [], msix := [], holdoff := [], wb := [] }

theorem signal_offPush (c : Bool) : (signal s f r c).hif.offPush = s.hif.offPush := by
  unfold signal
  dsimp only
  split
  · split
    · split <;> rfl
    · split <;> rfl
  · rfl

theorem pushEntry_offPush (x : Bytes) (c : Bool) : (pushEntry s f r x c).hif.offPush = s.hif.offPush := by
  unfold pushEntry
  extract_lets k q o _ u p
  rw [signal_offPush]
  rfl

theorem hostEvent_offPush (typ : Nat) (b : Bytes) (c : Bool) : (hostEvent s f typ b c).hif.offPush = s.hif.offPush := by
  unfold hostEvent
  split
  · rw [perf, perfAdd_hif, pushEntry_offPush]
  · rw [bump_hif]

theorem perstL_of_offPush {h g : HifSt} (hh : h.offPush = g.offPush) : h.perstL = g.perstL := by
  have h' := congrArg HifSt.perstL hh
  exact h'

theorem queue_of_offPush {h g : HifSt} (hh : h.offPush = g.offPush) : h.queue = g.queue := by
  have h' := congrArg HifSt.queue hh
  exact h'

theorem landed_hif : (landed s f).hif = s.hif := by rw [landed, setF_hif, setF_hif]

theorem abandonDump_hif (d : Nat) (x : Snapshot) : (abandonDump s d x).hif = s.hif := by
  rw [abandonDump, report_hif, bump_hif]
  rfl

theorem abandonRing_hif : (abandonRing s f r).hif = s.hif := by
  unfold abandonRing
  split
  · exact foldl_same State.hif _ (fun _ _ => abandonDump_hif _ _) _ s
  · rfl

theorem ringFlush_perstL (cause cmds : Nat) : (ringFlush s f r cause cmds).hif.perstL = s.hif.perstL := by
  have hland (c : Bool) : (if c then s else landed s f).hif = s.hif := by rw [apply_ite State.hif, landed_hif, ite_self]
  unfold ringFlush ringFlushed
  dsimp only
  rw [perstL_of_offPush (hostEvent_offPush ..), setF_hif, setB_hif, setF_hif]
  show (if _ then s else landed s f).hif.perstL = s.hif.perstL
  rw [hland]

theorem ringDown_perstL (cause cmds : Nat) : (ringDown s f r cause cmds).hif.perstL = s.hif.perstL := by
  unfold ringDown
  split
  · rfl
  · split
    · rw [setB_hif, ringFlush_perstL]
    · extract_lets owed s1 _ s2
      have h1 : s1.hif = s.hif := foldl_same State.hif (fun a _ => landed a f) (fun _ _ => landed_hif) _ s
      have h2 : s2.hif.perstL = s.hif.perstL := by
        rw [← h1]
        unfold s2
        split <;> rfl
      rw [abandonRing_hif, setB_hif]
      exact h2

theorem fnReset_perstL : (fnReset s f).hif.perstL = s.hif.perstL := by
  have h1 : ((ringsOf f).foldl (fun a r => ringDown a f r 3 0) s).hif.perstL = s.hif.perstL :=
    foldl_same (fun t => t.hif.perstL) (fun a r => ringDown a f r 3 0) (fun _ _ => ringDown_perstL _ _) _ s
  refine Eq.trans ?_ h1
  exact foldl_same (fun t => t.hif.perstL) (fun a r => ringForget a (ringKey f r)) (fun _ _ => rfl) _ _

theorem fnResetAll_perstL : (fnResetAll s).hif.perstL = s.hif.perstL :=
  foldl_same (fun t => t.hif.perstL) (fun a f => if f = 0 then fnReset a 0 else if flag a (Reg.HIF_FN_STAT_ENABLED f) then setB (fnReset a f) (Reg.HIF_FN_STAT_ENABLED f) false else a)
    (fun a f => by
      split
      · exact fnReset_perstL
      · split
        · rw [setB_hif, fnReset_perstL]
        · rfl) _ s

end

end Sys2Proof.Machine

/-! What fetching, resets, the link and TX descriptors leave to see (O38). -/

namespace Sys2Proof.Machine

section
variable {s : State} {f r : Nat}

theorem rd_turnTaken {a : Nat} (hin : a ≠ Reg.HIF_INFLIGHT) (hfn : a ≠ Reg.HIF_FN_STAT f) : rd (turnTaken s f r) a = rd s a := by
  rw [turnTaken, rd_launched hin hfn]
  exact rd_congr (regs_fetchAt _) a

theorem rd_entryRead {a : Nat} (h : a ≠ Reg.HIF_RING_CONS f r) : rd (entryRead s f r) a = rd s a :=
  (rd_congr entryRead_regs a).trans (rd_setF_ne _ (Reg.HIF_RING_CONS_INDEX f r) _ _ h)

theorem cons_entryRead : getF (entryRead s f r) (Reg.HIF_RING_CONS_INDEX f r) = (ringCons s f r + 1) % ringSize s f r % 2 ^ 16 :=
  (getF_congr entryRead_regs _).trans (getF_setF_self _ (Reg.HIF_RING_CONS_INDEX f r) _ (show 0 + 16 ≤ 32 by decide))

theorem cons_commandJoined (hf : f < 256) (c : HostCmd) :
    getF (commandJoined s f r c) (Reg.HIF_RING_CONS_INDEX f r) = getF s (Reg.HIF_RING_CONS_INDEX f r) := by
  have hrd : rd (commandJoined s f r c) (Reg.HIF_RING_CONS f r) = rd s (Reg.HIF_RING_CONS f r) := by
    have hne : Reg.HIF_RING_CONS f r ≠ Reg.HIF_RING_STAT f r := ringAddr_ne_off (by decide)
    have hin : Reg.HIF_RING_CONS f r ≠ Reg.HIF_INFLIGHT := ringAddr_ne_low (by decide)
    rw [rd_commandJoined, joinShown, rd_setB_ne _ (Reg.HIF_RING_STAT_BUSY f r) _ _ hne,
      rd_turnTaken hin (ringAddr_ne_low (fnStat_low hf))]
  exact congrArg (fget · 0 16) hrd

theorem now_commandJoined (hf : f < 256) (c : HostCmd) :
    getF (commandJoined s f r c) (Reg.HIF_FN_STAT_NOW f) = (getF s (Reg.HIF_FN_STAT_NOW f) + 1) % 2 ^ 15 := by
  have hne : Reg.HIF_FN_STAT f ≠ Reg.HIF_RING_STAT f r := (ringAddr_ne_low (fnStat_low hf)).symm
  rw [getF_congr (commandJoined_regs c), joinShown, getF_setB_reg _ (Reg.HIF_RING_STAT_BUSY f r) (Reg.HIF_FN_STAT_NOW f) _ hne, turnTaken, now_launched,
    getF_congr (regs_fetchAt _)]

theorem busy_commandJoined (c : HostCmd) : flag (commandJoined s f r c) (Reg.HIF_RING_STAT_BUSY f r) = false := by
  rw [flag_congr (commandJoined_regs c), joinShown, flag_setB_self _ (Reg.HIF_RING_STAT_BUSY f r) _ (show 16 + 1 ≤ 32 by decide) rfl]

theorem openPut_wb (l : List Bytes) : (openPut s f r l).hif.wb = s.hif.wb := rfl

theorem turnTaken_wb : (turnTaken s f r).hif.wb = s.hif.wb := by rw [turnTaken, launched_hif]

theorem commandJoined_wb (c : HostCmd) : (commandJoined s f r c).hif.wb = s.hif.wb := by
  rw [commandJoined]
  dsimp only
  rw [openPut_wb, turnTaken_wb]

theorem entryRead_wb : mfind (entryRead s f r).hif.wb (ringKey f r) = some ((ringCons s f r + 1) % ringSize s f r) := by
  have hwb : (entryRead s f r).hif.wb = mset s.hif.wb (ringKey f r) (some ((ringCons s f r + 1) % ringSize s f r)) := congrArg HifSt.wb entryRead_hif
  rw [hwb, mfind_mset_self]

theorem now_entryRead (hf : f < 256) : getF (entryRead s f r) (Reg.HIF_FN_STAT_NOW f) = getF s (Reg.HIF_FN_STAT_NOW f) :=
  congrArg (fget · 0 15) (rd_entryRead (ringAddr_ne_low (fnStat_low hf)).symm)

/-- What the fetch of a command of one entry leaves to see. -/
theorem commandJoined_shows (hf : f < 256) (hfree : s.hif.inFlight = []) (c : HostCmd) :
    (commandJoined (entryRead s f r) f r c).hif.inFlight = [c] ∧
      getF (commandJoined (entryRead s f r) f r c) (Reg.HIF_RING_CONS_INDEX f r) = (ringCons s f r + 1) % ringSize s f r % 2 ^ 16 ∧
        mfind (commandJoined (entryRead s f r) f r c).hif.wb (ringKey f r) = some ((ringCons s f r + 1) % ringSize s f r) ∧
          getF (commandJoined (entryRead s f r) f r c) (Reg.HIF_FN_STAT_NOW f) = (getF s (Reg.HIF_FN_STAT_NOW f) + 1) % 2 ^ 15 ∧
            flag (commandJoined (entryRead s f r) f r c) (Reg.HIF_RING_STAT_BUSY f r) = false := by
  have hfree' : (entryRead s f r).hif.inFlight = [] := hfree
  refine ⟨?_, ?_, ?_, ?_, busy_commandJoined c⟩
  · rw [commandJoined_inFlight, hfree']
    rfl
  · rw [cons_commandJoined hf, cons_entryRead]
  · rw [commandJoined_wb, entryRead_wb]
  · rw [now_commandJoined hf, now_entryRead hf]

end

/-! ## Resets of functions -/

section
variable {s : State} {f : Nat}

/-- A function's rings are down. -/
def fnEmptied (s : State) (f : Nat) : State :=
  (ringsOf f).foldl (fun a r => ringForget a (ringKey f r)) ((ringsOf f).foldl (fun a r => ringDown a f r 3 0) s)

/-- A command loses its completion when its function is reset. -/
def cutCmd (f : Nat) (c : HostCmd) : HostCmd := if c.fn = f ∧ c.ring < 64 then { c with ring := c.ring + 64 } else c

/-- The addresses outside a function's ring page. -/
def offPage (f a : Nat) : Bool := decide (a < Reg.pageBase f) || decide (Reg.pageBase f + 0x1000 ≤ a)

theorem fnReset_regs : (fnReset s f).regs = (fnEmptied s f).regs.filter fun e => offPage f e.1 := rfl

theorem fnReset_inFlight : (fnReset s f).hif.inFlight = (fnEmptied s f).hif.inFlight.map (cutCmd f) := rfl

theorem fnReset_msixOn : (fnReset s f).hif.msixOn = (fnEmptied s f).hif.msixOn.filter (· != f) := rfl

theorem rd_fnReset_page {a : Nat} (hlo : Reg.pageBase f ≤ a) (hhi : a < Reg.pageBase f + 0x1000) : rd (fnReset s f) a = regReset a := by
  have hoff : offPage f a = false := by
    simp only [offPage, Bool.or_eq_false_iff, decide_eq_false_iff_not]
    omega
  rw [rd_of_filter fnReset_regs, hoff]
  rfl

theorem cutCmd_ring {c : HostCmd} (h : (cutCmd f c).fn = f) : 64 ≤ (cutCmd f c).ring := by
  unfold cutCmd at h ⊢
  split at h <;> split
  next => exact Nat.le_add_left ..
  next h1 h2 => exact absurd h1 h2
  next h1 h2 => exact absurd h2 h1
  next h1 _ => exact Nat.le_of_not_lt fun h2 => h1 ⟨h, h2⟩

/-- What the reset of a function leaves to see. -/
theorem fnReset_shows : (∀ a, Reg.pageBase f ≤ a → a < Reg.pageBase f + 0x1000 → rd (fnReset s f) a = regReset a) ∧
    (∀ c ∈ (fnReset s f).hif.inFlight, c.fn = f → 64 ≤ c.ring) ∧ f ∉ (fnReset s f).hif.msixOn := by
  refine ⟨fun a => rd_fnReset_page, fun c hc hfn => ?_, fun h => ?_⟩
  · rw [fnReset_inFlight] at hc
    obtain ⟨d, -, rfl⟩ := List.mem_map.mp hc
    exact cutCmd_ring hfn
  · rw [fnReset_msixOn] at h
    exact absurd rfl (bne_iff_ne.mp (List.mem_filter.mp h).2)

end

/-! ## The PCIe link (R468, R479) -/

section
variable {s : State}

theorem offReport_link : OffReport Reg.HIF_LINK_STAT := by
  unfold OffReport
  decide

theorem rd_linkOff : rd (linkOff s) Reg.HIF_LINK_STAT = 0 := by
  rw [linkOff, linkShow, rd_levelIs offReport_link, rd_wr_self]

theorem linkOff_hif : (linkOff s).hif = s.hif := by rw [linkOff, linkShow, levelIs_hif, wr_hif]

theorem up_wr_zero : flag (wr s Reg.HIF_LINK_STAT 0) Reg.HIF_LINK_STAT_UP = false := by
  have h : rd (wr s Reg.HIF_LINK_STAT 0) Reg.HIF_LINK_STAT = 0 := rd_wr_self ..
  exact congrArg (fget · 9 1 == 1) h

theorem cause_linkOff : (linkOff s).causeOn Src.linkDown = (s.top == .run) := by
  rw [linkOff, linkShow, cause_levelIs, up_wr_zero, wr_top, Bool.not_false, Bool.and_true]

/-- The link shows what it trained to. -/
def linkTrained (s : State) (gen width : Nat) (flit : Bool) : State :=
  setB (setB (setF (setF s Reg.HIF_LINK_STAT_GEN (min gen (getF s Reg.HIF_CFG_MAX_GEN))) Reg.HIF_LINK_STAT_WIDTH (min width (getF s Reg.HIF_CFG_MAX_WIDTH)))
    Reg.HIF_LINK_STAT_FLIT flit) Reg.HIF_LINK_STAT_UP true

/-- The functions whose MSI-X the host has enabled. -/
def msixTaken (s : State) (n : Nat) (msix : List Nat) : State :=
  { s with hif := { s.hif with msixOn := (List.range 256).filter (fun f => msix.contains f && decide (f ≤ n)) } }

theorem upFrom_lt {n m f : Nat} (h : f ∈ upFrom n m) : n ≤ f ∧ f < n + m := by
  obtain ⟨i, hi, rfl⟩ := List.mem_map.mp h
  exact ⟨Nat.le_add_right .., Nat.add_lt_add_left (List.mem_range.mp hi) n⟩

theorem foldl_fixed_mem {β γ : Type} {h : γ → β → γ} {m : List β} {a : γ} (hm : ∀ y ∈ m, h a y = a) : m.foldl h a = a := by
  induction m with
  | nil => rfl
  | cons y m ih => rw [List.foldl_cons, hm y List.mem_cons_self, ih fun z hz => hm z (List.mem_cons_of_mem y hz)]

/-- With no VF enabled before or now, only the functions' MSI-X is taken. -/
theorem fnEnable_none (h : ∀ f, 1 ≤ f → f < 256 → flag s (Reg.HIF_FN_STAT_ENABLED f) = false) (msix : List Nat) : fnEnable s 0 msix = msixTaken s 0 msix := by
  have hfold : (upFrom 1 255).foldl (fun a f =>
      if f ≤ 0 then setB a (Reg.HIF_FN_STAT_ENABLED f) true
      else if flag a (Reg.HIF_FN_STAT_ENABLED f) then setB (fnReset a f) (Reg.HIF_FN_STAT_ENABLED f) false else a) s = s := by
    refine foldl_fixed_mem fun f hf => ?_
    obtain ⟨hlo, hhi⟩ := upFrom_lt hf
    rw [if_neg (by omega), h f hlo hhi, if_neg Bool.false_ne_true]
  rw [fnEnable, Nat.zero_min]
  dsimp only
  rw [hfold, msixTaken]

theorem rd_linkTrained {a : Nat} (h : a ≠ Reg.HIF_LINK_STAT) (gen width : Nat) (flit : Bool) : rd (linkTrained s gen width flit) a = rd s a := by
  rw [linkTrained, rd_setB_ne _ Reg.HIF_LINK_STAT_UP _ _ h, rd_setB_ne _ Reg.HIF_LINK_STAT_FLIT _ _ h, rd_setF_ne _ Reg.HIF_LINK_STAT_WIDTH _ _ h,
    rd_setF_ne _ Reg.HIF_LINK_STAT_GEN _ _ h]

theorem linkTrained_up (gen width : Nat) (flit : Bool) : flag (linkTrained s gen width flit) Reg.HIF_LINK_STAT_UP = true := flag_setB_self _ _ _ (by decide) rfl

theorem linkTrained_flit (gen width : Nat) (flit : Bool) : flag (linkTrained s gen width flit) Reg.HIF_LINK_STAT_FLIT = flit := by
  rw [linkTrained, flag_setB_beside _ _ _ _ (by decide) (by decide), flag_setB_self _ _ _ (by decide) rfl]

theorem linkTrained_width (gen width : Nat) (flit : Bool) :
    getF (linkTrained s gen width flit) Reg.HIF_LINK_STAT_WIDTH = min width (getF s Reg.HIF_CFG_MAX_WIDTH) % 32 := by
  rw [linkTrained, getF_setB_beside _ _ _ (by decide) (by decide), getF_setB_beside _ _ _ (by decide) (by decide), getF_setF_self _ _ _ (by decide)]
  rfl

theorem linkTrained_gen (gen width : Nat) (flit : Bool) :
    getF (linkTrained s gen width flit) Reg.HIF_LINK_STAT_GEN = min gen (getF s Reg.HIF_CFG_MAX_GEN) % 8 := by
  rw [linkTrained, getF_setB_beside _ _ _ (by decide) (by decide), getF_setB_beside _ _ _ (by decide) (by decide),
    getF_setF_beside _ _ _ _ (by decide) (by decide), getF_setF_self _ _ _ (by decide)]
  rfl

theorem linkTrained_hif (gen width : Nat) (flit : Bool) : (linkTrained s gen width flit).hif = s.hif := by
  rw [linkTrained, setB_hif, setB_hif, setF_hif, setF_hif]

theorem fnStat_ne_link {f : Nat} : Reg.HIF_FN_STAT f ≠ Reg.HIF_LINK_STAT := by
  simp only [Reg.HIF_FN_STAT, Reg.HIF_LINK_STAT]
  omega

theorem msixTaken_regs (n : Nat) (msix : List Nat) : (msixTaken s n msix).regs = s.regs := rfl

theorem msixTaken_msixOn (n : Nat) (msix : List Nat) : (msixTaken s n msix).hif.msixOn = (List.range 256).filter fun f => msix.contains f && decide (f ≤ n) := rfl

/-- What a link that comes up leaves, with no VF enabled. -/
theorem pcieLinkChange_up (hpow : powered s = true) (hperst : s.hif.perstL = true) (hvf : ∀ f, 1 ≤ f → f < 256 → flag s (Reg.HIF_FN_STAT_ENABLED f) = false)
    (gen width : Nat) (flit : Bool) (msix : List Nat) : pcieLinkChange true gen width flit 0 msix s = linkShow (msixTaken (linkTrained s gen width flit) 0 msix) := by
  have hvf' : ∀ f, 1 ≤ f → f < 256 → flag (linkTrained s gen width flit) (Reg.HIF_FN_STAT_ENABLED f) = false := fun f hlo hhi =>
    (congrArg (fget · 15 1 == 1) (rd_linkTrained fnStat_ne_link gen width flit)).trans (hvf f hlo hhi)
  rw [pcieLinkChange, hpow, hperst, ← fnEnable_none hvf' msix]
  rfl

theorem pcieLinkChange_down (hpow : powered s = true) (gen width : Nat) (flit : Bool) (vfs : Nat) (msix : List Nat) :
    pcieLinkChange false gen width flit vfs msix s = linkOff s := by
  rw [pcieLinkChange, hpow]
  rfl

theorem rd_linkShow {a : Nat} (h : OffReport a) : rd (linkShow s) a = rd s a := rd_levelIs h

theorem cause_linkShow : (linkShow s).causeOn Src.linkDown = (s.top == .run && !flag s Reg.HIF_LINK_STAT_UP) := cause_levelIs

theorem linkShow_hif : (linkShow s).hif = s.hif := levelIs_hif ..

end

/-! ## TX descriptors (R498) -/

section
variable {s : State} {f k : Nat} {e : Bytes}

/-- A TX ring whose next descriptor may be read. -/
def TxReady (s : State) (f k : Nat) : Prop :=
  s.top = .run ∧ ringExists f (27 + k) = true ∧ ringRuns s f (27 + k) = true ∧ ringProd s f (27 + k) ≠ ringCons s f (27 + k)

theorem TxReady.not_blocked (h : TxReady s f k) :
    (s.top != .run || !ringExists f (27 + k) || !ringRuns s f (27 + k) || ringProd s f (27 + k) == ringCons s f (27 + k)) = false := by
  obtain ⟨hrun, hring, hruns, hne⟩ := h
  simp [hrun, hring, hruns, hne]

/-- A refused descriptor is consumed and counted. -/
def txCounted (s : State) (f k : Nat) (d : TxDesc) : State := bump (txShut (entryRead s f (27 + k)) f d) (Reg.HIF_CNT 4)

/-- A descriptor that is taken is consumed and counted. -/
def txTaken (s : State) (f k : Nat) : State := perf (bump (entryRead s f (27 + k)) (Reg.HIF_CNT 3)) 82 4

theorem txDescriptor_refuses {data : Option Bytes} (h : TxReady s f k) (hwhy : txRefusal s f (txDescOf (fit 64 e)) data ≠ 0) :
    ∃ b, txDescriptor f k (some e) data s = hostEvent (txCounted s f k (txDescOf (fit 64 e))) f 6 b := by
  unfold txDescriptor
  dsimp only
  rw [h.not_blocked, if_neg Bool.false_ne_true, if_pos hwhy]
  exact ⟨_, rfl⟩

theorem txDescriptor_takes {b : Bytes} (h : TxReady s f k) (hwhy : txRefusal s f (txDescOf (fit 64 e)) (some b) = 0) :
    txDescriptor f k (some e) (some b) s = txInject (txTaken s f k) f (txDescOf (fit 64 e)) (fit (txDescOf (fit 64 e)).len b) := by
  unfold txDescriptor
  dsimp only
  rw [h.not_blocked, if_neg Bool.false_ne_true, if_neg (not_not_intro hwhy)]
  rfl

theorem rd_txShut {a : Nat} {d : TxDesc} (h : a < 0x0301200 ∨ 0x0301250 ≤ a) : rd (txShut s f d) a = rd s a := by
  unfold txShut
  split
  next hd =>
    obtain ⟨-, -, hpipe, -⟩ := hd
    refine rd_bump_ne _ _ _ ?_
    simp only [Reg.PWR_SLICE_DROP]
    omega
  · rfl

theorem txShut_offReg {d : TxDesc} : (txShut s f d).fab = s.fab ∧ (txShut s f d).qd = s.qd ∧ (txShut s f d).ing = s.ing := by
  unfold txShut
  split
  · exact ⟨bump_fab .., bump_qd .., bump_ing ..⟩
  · exact ⟨rfl, rfl, rfl⟩

theorem entryRead_offReg {r : Nat} : (entryRead s f r).fab = s.fab ∧ (entryRead s f r).qd = s.qd ∧ (entryRead s f r).ing = s.ing := ⟨rfl, rfl, rfl⟩

theorem cnt_ne_prod {j r : Nat} (hj : j < 8) : Reg.HIF_CNT j ≠ Reg.HIF_RING_PROD f r := (ringAddr_ne_low (hifCnt_low hj)).symm

theorem cnt_ne_cons {j r : Nat} (hj : j < 8) : Reg.HIF_CNT j ≠ Reg.HIF_RING_CONS f r := (ringAddr_ne_low (hifCnt_low hj)).symm

theorem cons_txCounted {d : TxDesc} : getF (txCounted s f k d) (Reg.HIF_RING_CONS_INDEX f (27 + k)) = (ringCons s f (27 + k) + 1) % ringSize s f (27 + k) % 2 ^ 16 := by
  have hpage := pageBase_ge f
  have hrd : rd (txCounted s f k d) (Reg.HIF_RING_CONS f (27 + k)) = rd (entryRead s f (27 + k)) (Reg.HIF_RING_CONS f (27 + k)) := by
    rw [txCounted, rd_bump_ne _ _ _ (cnt_ne_cons (by decide)).symm, rd_txShut (by simp only [Reg.HIF_RING_CONS]; omega)]
  exact (congrArg (fget · 0 16) hrd).trans cons_entryRead

theorem rd_txCounted_self {d : TxDesc} : rd (txCounted s f k d) (Reg.HIF_CNT 4) = countWord (rd s (Reg.HIF_CNT 4)) 1 := by
  rw [txCounted, rd_bump_self, rd_txShut (by decide), rd_entryRead (cnt_ne_cons (by decide))]

theorem rd_txCounted_sent {d : TxDesc} : rd (txCounted s f k d) (Reg.HIF_CNT 3) = rd s (Reg.HIF_CNT 3) := by
  rw [txCounted, rd_bump_ne _ _ _ (by decide), rd_txShut (by decide), rd_entryRead (cnt_ne_cons (by decide))]

theorem txCounted_offReg {d : TxDesc} : (txCounted s f k d).fab = s.fab ∧ (txCounted s f k d).qd = s.qd ∧ (txCounted s f k d).ing = s.ing := by
  obtain ⟨hfab, hqd, hing⟩ := entryRead_offReg (s := s) (f := f) (r := 27 + k)
  obtain ⟨hfab', hqd', hing'⟩ := txShut_offReg (s := entryRead s f (27 + k)) (f := f) (d := d)
  rw [txCounted, bump_fab, bump_qd, bump_ing]
  exact ⟨hfab'.trans hfab, hqd'.trans hqd, hing'.trans hing⟩

theorem rd_txTaken {a : Nat} (hcnt : a ≠ Reg.HIF_CNT 3) (hcons : a ≠ Reg.HIF_RING_CONS f (27 + k)) : rd (txTaken s f k) a = rd s a := by
  rw [txTaken, rd_perf, rd_bump_ne _ _ _ hcnt, rd_entryRead hcons]

theorem rd_txTaken_self : rd (txTaken s f k) (Reg.HIF_CNT 3) = countWord (rd s (Reg.HIF_CNT 3)) 1 := by
  rw [txTaken, rd_perf, rd_bump_self, rd_entryRead (cnt_ne_cons (by decide))]

theorem txTaken_fab : (txTaken s f k).fab = s.fab := by
  rw [txTaken, perf_fab, bump_fab]
  exact entryRead_offReg.1

/-- The CONTROL cell of a descriptor. -/
def txCell (s : State) (d : TxDesc) (b : Bytes) : Cell :=
  { typ := 4, src := getF s Reg.FAB_NODE_ID, dst := d.port * 2 ^ getF s Reg.FAB_NODE_PORT_SHIFT % 65536, data := fit 240 b }

/-- A CONTROL cell enters the fabric. -/
def txCellSent (s : State) (d : TxDesc) (b : Bytes) : State := { s with fab := { s.fab with ctl := s.fab.ctl ++ [txCell s d b] } }

theorem txInject_control {d : TxDesc} (h : d.mode = 2) (b : Bytes) : txInject s f d b = txCellSent s d b := by
  unfold txInject
  rw [h]
  rfl

theorem txCellSent_regs (d : TxDesc) (b : Bytes) : (txCellSent s d b).regs = s.regs := rfl

theorem txCellSent_ctl (d : TxDesc) (b : Bytes) : (txCellSent s d b).fab.ctl = s.fab.ctl ++ [txCell s d b] := rfl

theorem txCell_congr {t : State} (h : rd t Reg.FAB_NODE = rd s Reg.FAB_NODE) (d : TxDesc) (b : Bytes) : txCell t d b = txCell s d b := by
  have hid : getF t Reg.FAB_NODE_ID = getF s Reg.FAB_NODE_ID := congrArg (fget · 0 16) h
  have hshift : getF t Reg.FAB_NODE_PORT_SHIFT = getF s Reg.FAB_NODE_PORT_SHIFT := congrArg (fget · 16 4) h
  rw [txCell, hid, hshift, ← txCell]

theorem node_ne_cons {r : Nat} (hr : r < 44) : Reg.FAB_NODE ≠ Reg.HIF_RING_CONS f r := by
  simp only [Reg.FAB_NODE, Reg.HIF_RING_CONS, Reg.pageBase]
  split <;> omega

end

/-- Settles O38: fetches and descriptors by the registers they leave, resets by the ring page and what is in flight, the link by HIF_LINK_STAT and its level. -/
theorem commandFetchFunctionsAndTx : Obligations.CommandFetchFunctionsAndTx := by
  unfold Obligations.CommandFetchFunctionsAndTx
  refine ⟨?fetch, ?failed, ?quiet, ?holdoff, ?flr, ?perst, ?perstOff, ?release, ?down, ?up, ?refused, ?control⟩
  case fetch =>
    intro s f r e hopen hturn hopened hskip hfree hstart hend hop
    refine completes_of (t := commandFetch f r (some e) s) rfl ?_
    rw [commandFetch_joins hopen hturn hopened hskip hfree hstart hend hop]
    exact commandJoined_shows f.isLt hfree _
  case failed => exact fun s f r hopen hturn => completes_of (t := commandFetch f r none s) rfl (commandFetch_fails hopen hturn)
  case quiet => exact fun s f r h => completes_of (t := msixHoldoffEnd f r s) rfl (msixHoldoffEnd_quiet h)
  case holdoff =>
    intro s f r hold hvec hon hmod
    refine completes_of (t := msixHoldoffEnd f r s) rfl ?_
    have hregs : (holdoffOver s f r).regs = s.regs := holdoffOver_regs
    have hvec' : getF (holdoffOver s f r) (Reg.HIF_RING_CFG_VECTOR f r) < getF (holdoffOver s f r) (Reg.HIF_FN_CFG_MSIX_CNT f) := by
      rwa [getF_congr hregs, getF_congr hregs]
    have hmod' : getF (holdoffOver s f r) (Reg.HIF_RING_CFG_MOD_US f r) ≠ 0 := by rwa [getF_congr hregs]
    rw [msixHoldoffEnd_signals hold, signal_sends holdoffOver_free hvec' hon hmod', ← getF_congr hregs]
    exact ⟨messageSent_msix, messageSent_holdoff, messageSent_regs.trans hregs⟩
  case flr =>
    intro s f hf hpow hon
    refine completes_of (t := flr f s) rfl ?_
    have hflr : flr f s = fnReset s f := by
      rw [flr, hpow, hon, Bool.not_true, Bool.or_false, if_neg Bool.false_ne_true, if_neg hf]
    rw [hflr]
    exact fnReset_shows
  case perst =>
    intro s hpow
    refine completes_of (t := pciePerst s) rfl ?_
    rw [pciePerst, if_pos hpow, linkOff_hif, fnResetAll_perstL]
    exact ⟨rfl, rd_linkOff⟩
  case perstOff =>
    intro s hpow
    refine completes_of (t := pciePerst s) rfl ?_
    rw [pciePerst, hpow, if_neg Bool.false_ne_true]
  case release => exact fun s => completes_of (t := pciePerstRelease s) rfl rfl
  case down =>
    intro s gen width flit vfs msix hpow
    refine completes_of (t := pcieLinkChange false gen width flit vfs msix s) rfl ?_
    rw [pcieLinkChange_down hpow]
    exact ⟨rd_linkOff, cause_linkOff, linkOff_hif⟩
  case up =>
    intro s gen width flit msix hpow hperst hvf
    refine completes_of (t := pcieLinkChange true gen width flit 0 msix s) rfl ?_
    rw [pcieLinkChange_up hpow hperst hvf]
    have hrd : rd (linkShow (msixTaken (linkTrained s gen width flit) 0 msix)) Reg.HIF_LINK_STAT = rd (linkTrained s gen width flit) Reg.HIF_LINK_STAT :=
      (rd_linkShow offReport_link).trans (rd_congr (msixTaken_regs ..) _)
    refine ⟨(congrArg (fget · 9 1 == 1) hrd).trans (linkTrained_up ..), (congrArg (fget · 8 1 == 1) hrd).trans (linkTrained_flit ..),
      (congrArg (fget · 0 3) hrd).trans (linkTrained_gen ..), (congrArg (fget · 3 5) hrd).trans (linkTrained_width ..), ?_, ?_⟩
    · rw [cause_linkShow, flag_congr (msixTaken_regs ..), linkTrained_up, Bool.not_true, Bool.and_false]
    · intro f hf hmem
      rw [linkShow_hif, msixTaken_msixOn, List.mem_filter, Bool.and_eq_true, decide_eq_true_eq] at hmem
      omega
  case refused =>
    intro s f k e data hrun hring hruns hne hwhy
    refine completes_of (t := txDescriptor f k (some e) data s) rfl ?_
    obtain ⟨b, ht⟩ := txDescriptor_refuses (k := k) ⟨hrun, hring, hruns, hne⟩ hwhy
    obtain ⟨hfab, hqd, hing⟩ := txCounted_offReg (s := s) (f := f) (k := k) (d := txDescOf (fit 64 e))
    have hcons : rd (hostEvent (txCounted s f k (txDescOf (fit 64 e))) f 6 b) (Reg.HIF_RING_CONS f (27 + k)) =
        rd (txCounted s f k (txDescOf (fit 64 e))) (Reg.HIF_RING_CONS f (27 + k)) :=
      rd_hostEvent_ne (ringAddr_ne_ring (by omega)) (cnt_ne_cons (by decide)).symm _ _ _
    rw [ht]
    refine ⟨(congrArg (fget · 0 16) hcons).trans cons_txCounted, ?_, ?_, (hostEvent_fab ..).trans hfab, (hostEvent_qd ..).trans hqd, (hostEvent_ing ..).trans hing⟩
    · rw [rd_hostEvent_ne (cnt_ne_prod (by decide)) (by decide), rd_txCounted_self]
    · rw [rd_hostEvent_ne (cnt_ne_prod (by decide)) (by decide), rd_txCounted_sent]
  case control =>
    intro s f k e b hrun hring hruns hne hwhy hmode
    refine completes_of (t := txDescriptor f k (some e) (some b) s) rfl ?_
    rw [txDescriptor_takes ⟨hrun, hring, hruns, hne⟩ hwhy, txInject_control hmode, rd_congr (txCellSent_regs ..), rd_congr (txCellSent_regs ..), txCellSent_ctl,
      rd_txTaken_self, rd_txTaken (by decide) (cnt_ne_cons (by decide)), txTaken_fab,
      txCell_congr (rd_txTaken (by decide) (node_ne_cons (by omega)))]
    exact ⟨rfl, rfl, rfl⟩

end Sys2Proof.Machine

/-! Delivery to the host, the table window, the failure log, grants and function settings (O39). -/

namespace Sys2Proof.Machine

/-! ## Entries of a ring (R486, R487) -/

section
variable {s : State} {f r : Nat}

theorem signal_out (c : Bool) : (signal s f r c).hif.out = s.hif.out := by
  unfold signal
  dsimp only
  split
  · split
    · split <;> rfl
    · split <;> rfl
  · rfl

theorem ringWb_out (i : Nat) : (ringWb s f r i).hif.out = s.hif.out := rfl

/-- An entry stands at the end of its ring. -/
theorem pushEntry_out (x : Bytes) (c : Bool) : mget [] (pushEntry s f r x c).hif.out (ringKey f r) =
    mget [] s.hif.out (ringKey f r) ++ [mkEntry (nextSeq (mget 0 s.hif.seq (ringKey f r))) x] := by
  unfold pushEntry
  extract_lets k q o _ u p
  have hout : u.hif.out = o := rfl
  rw [signal_out, ringWb_out, setF_hif, hout]
  unfold o
  rw [mget_mput_self]

theorem pushEntry_queue (x : Bytes) (c : Bool) : (pushEntry s f r x c).hif.queue = s.hif.queue := queue_of_offPush (pushEntry_offPush x c)

end

/-! ## Host frames (R497, R499) -/

section
variable {s : State} {x : HostFrame} {rest : List HostFrame} {f r k : Nat}

/-- The host frame at the front of the queue is on its way. -/
def frameOff (s : State) (rest : List HostFrame) : State := { s with hif := { s.hif with queue := rest } }

theorem frameOff_regs : (frameOff s rest).regs = s.regs := rfl

theorem rxRing_frameOff : rxRing (frameOff s rest) x = rxRing s x := rfl

theorem ringRuns_frameOff : ringRuns (frameOff s rest) f r = ringRuns s f r := rfl

theorem ringRoom_frameOff : ringRoom (frameOff s rest) f r = ringRoom s f r := rfl

theorem hostFrameDeliver_drops (hq : s.hif.queue = x :: rest) (hx : x.sample = false) (hrun : ringRuns s x.tenant (rxRing s x) = false) :
    hostFrameDeliver s = bump (frameOff s rest) (Reg.HIF_CNT 0) := by
  have hbuf : ¬(false = true ∧ x.buf ≠ 0) := fun h => Bool.false_ne_true h.1
  have hlost : (!ringRuns (frameOff s rest) x.tenant (rxRing (frameOff s rest) x)) = true := by
    rw [ringRuns_frameOff, rxRing_frameOff, hrun, Bool.not_false]
  unfold hostFrameDeliver
  rw [hq]
  dsimp only
  rw [hx, if_neg hbuf]
  exact if_pos hlost

theorem hostFrameDeliver_writes (hq : s.hif.queue = x :: rest) (hx : x.sample = false) (hrun : ringRuns s x.tenant (rxRing s x) = true)
    (hplace : dataPlace (frameOff s rest) x.tenant (rxRing s x) (x.block.length + x.bytes.length) = some k) (hroom : ringRoom s x.tenant (rxRing s x) ≠ 0) :
    hostFrameDeliver s = rxWrite (frameOff s rest) x.tenant (rxRing s x) k x := by
  have hbuf : ¬(false = true ∧ x.buf ≠ 0) := fun h => Bool.false_ne_true h.1
  unfold hostFrameDeliver
  rw [hq]
  dsimp only
  rw [hx, if_neg hbuf, ← frameOff, ringRuns_frameOff, rxRing_frameOff, hrun, hplace, Bool.not_true, if_neg Bool.false_ne_true]
  exact if_neg hroom

/-- The bytes of a frame stand in the data area. -/
def rxPlaced (s : State) (f r k len : Nat) : State :=
  let j := ringKey f r
  { s with hif := { s.hif with dataAt := mput 0 s.hif.dataAt j (k + len), extents := mput [] s.hif.extents j (mget [] s.hif.extents j ++ [(k, len)]) } }

/-- The descriptor of a frame that is no sample (Table 18-9). -/
def rxDesc (x : HostFrame) (k : Nat) : Bytes :=
  [byteOf (2 * b2n x.trunc + 4 * b2n x.noMeta), byteOf x.reason] ++ leBytes 2 x.frameLen ++ leBytes 4 k ++ leBytes 4 (x.block ++ x.bytes).length ++ leBytes 4 (crc32c (x.block ++ x.bytes))

theorem rxWrite_frame (hx : x.sample = false) : rxWrite s f r k x =
    perfTenant (perf (bumpIf x.trunc (pushEntry (rxPlaced s f r k (x.block ++ x.bytes).length) f r (rxDesc x k) false) (Reg.HIF_CNT 2)) 82 3) x.tenant 5 1 := by
  have hflags : b2n false + 2 * b2n x.trunc + 4 * b2n x.noMeta = 2 * b2n x.trunc + 4 * b2n x.noMeta := by
    rw [show b2n false = 0 from rfl, Nat.zero_add]
  unfold rxWrite
  rw [hx]
  dsimp only
  rw [hflags, if_neg Bool.false_ne_true, if_neg Bool.false_ne_true]
  rfl

theorem rxPlaced_out (len : Nat) : (rxPlaced s f r k len).hif.out = s.hif.out := rfl

theorem rxPlaced_seq (len : Nat) : (rxPlaced s f r k len).hif.seq = s.hif.seq := rfl

theorem rxPlaced_queue (len : Nat) : (rxPlaced s f r k len).hif.queue = s.hif.queue := rfl

theorem frameOff_out : (frameOff s rest).hif.out = s.hif.out := rfl

theorem frameOff_seq : (frameOff s rest).hif.seq = s.hif.seq := rfl

theorem frameOff_queue : (frameOff s rest).hif.queue = rest := rfl

theorem rxWrite_out (hx : x.sample = false) : mget [] (rxWrite (frameOff s rest) f r k x).hif.out (ringKey f r) =
    mget [] s.hif.out (ringKey f r) ++ [mkEntry (nextSeq (mget 0 s.hif.seq (ringKey f r))) (rxDesc x k)] := by
  rw [rxWrite_frame hx, perfTenant_hif, perf_hif, bumpIf_hif, pushEntry_out, rxPlaced_out, rxPlaced_seq, frameOff_out, frameOff_seq]

theorem rxWrite_queue (hx : x.sample = false) : (rxWrite (frameOff s rest) f r k x).hif.queue = rest := by
  rw [rxWrite_frame hx, perfTenant_hif, perf_hif, bumpIf_hif, pushEntry_queue, rxPlaced_queue, frameOff_queue]

end

/-! ## The table window (R482) -/

section
variable {s : State} {off v t i o n : Nat}

/-- A word of a slot is kept. -/
def bar2Kept (s : State) (off v : Nat) : State := { s with hif := { s.hif with bar2 := mset s.hif.bar2 off (some (Word.ofNat v)) } }

theorem bar2Write_holds (hpow : powered s = true) (hoff : off % 4 = 0) (hplace : twinPlace s off = some (t, i, o, n)) (ht : t ≠ Tab.schTree)
    (hopen : operOpen s = true) : bar2Write off v s = if o + 4 = n then twinAct (bar2Kept s off v) off v t i (off - o) n else bar2Kept s off v := by
  rw [bar2Write, hpow, hplace, Bool.not_true, if_neg Bool.false_ne_true, if_neg (not_not_intro hoff)]
  dsimp only
  rw [if_neg ht, hopen, Bool.not_true, if_neg Bool.false_ne_true]
  rfl

theorem bar2Write_unaligned (hpow : powered s = true) (hoff : off % 4 ≠ 0) : bar2Write off v s = pwfD s 0 1 off v .width 0 := by
  rw [bar2Write, hpow, Bool.not_true, if_neg Bool.false_ne_true, if_pos hoff]

end

/-! ## The failure log (R503) -/

section
variable {s : State}

/-- The addresses outside the log. -/
def offLog (a : Nat) : Bool := decide (a < Reg.HIF_PWF_LOG 0 0) || decide (Reg.HIF_PWF_LOG 64 0 ≤ a)

/-- The log is empty. -/
def logEmptied (s : State) : State := { s with regs := s.regs.filter fun e => offLog e.1 }

theorem pwfClear_empties (hopen : operOpen s = true) : pwfClear s = wr (logEmptied s) Reg.HIF_PWF_STAT 0 := operWrite_open hopen ..

theorem rd_logEmptied {a : Nat} (h : offLog a = false) : rd (logEmptied s) a = regReset a := by
  have hregs : (logEmptied s).regs = s.regs.filter fun e => offLog e.1 := rfl
  rw [rd_of_filter hregs, h, if_neg Bool.false_ne_true]

theorem offLog_log {i k : Nat} (hi : i < 64) (hk : k < 8) : offLog (Reg.HIF_PWF_LOG i k) = false := by
  have hlo : ¬Reg.HIF_PWF_LOG i k < Reg.HIF_PWF_LOG 0 0 := by
    simp only [Reg.HIF_PWF_LOG]
    omega
  have hhi : ¬Reg.HIF_PWF_LOG 64 0 ≤ Reg.HIF_PWF_LOG i k := by
    simp only [Reg.HIF_PWF_LOG]
    omega
  rw [offLog, decide_eq_false hlo, decide_eq_false hhi, Bool.or_false]

end

/-! ## Grants and function settings (R483, R501) -/

section
variable {s : State} {f v : Nat}

theorem grant_acts (hopen : operOpen s = true) (hf : f ≠ 0) (w : Nat) : grant f w v s =
    if (onesOf 32 v).all (fun j => grantable s f (32 * w + j)) then setF s (Reg.HIF_GRANT_GROUPS f w) v else pwfTarget s (Reg.HIF_GRANT f w) v :=
  (operWrite_open hopen ..).trans (if_neg hf)

/-- The bits of HIF_FN_CFG that software writes. -/
def fnCfgSet (s : State) (f v : Nat) : State := writeRw s (Reg.HIF_FN_CFG f) v 0x7FFF1FFF

theorem fnCfgWrite_takes (hopen : operOpen s = true) (hsum : vectorsOfOthers s f + bits v 0 12 ≤ 2048) (hoff : s.hif.msixOn.contains f = false)
    (hen : flag s (Reg.HIF_FN_CFG_RINGS_EN f) = false) : fnCfgWrite f v s = fnCfgSet s f v := by
  have hgo : ¬(2048 < vectorsOfOthers s f + bits v 0 12 ∨ s.hif.msixOn.contains f = true ∧ bits v 0 12 ≠ getF s (Reg.HIF_FN_CFG_MSIX_CNT f)) := by
    rw [hoff]
    exact fun h => h.elim (Nat.not_lt.mpr hsum) fun h => Bool.false_ne_true h.1
  rw [fnCfgWrite, operWrite_open hopen]
  dsimp only
  rw [if_neg hgo, hen, Bool.false_and, if_neg Bool.false_ne_true, fnCfgSet]

theorem fnCfgWrite_refuses (hopen : operOpen s = true) (hsum : 2048 < vectorsOfOthers s f + bits v 0 12) : fnCfgWrite f v s = pwfTarget s (Reg.HIF_FN_CFG f) v :=
  (operWrite_open hopen ..).trans (if_pos (.inl hsum))

theorem fnCfgSet_cnt : getF (fnCfgSet s f v) (Reg.HIF_FN_CFG_MSIX_CNT f) = bits v 0 12 :=
  getF_writeRw s (Reg.HIF_FN_CFG_MSIX_CNT f) v _ (by decide) (show 0 + 12 ≤ 32 by decide) (show ∀ i < 12, Nat.testBit 0x7FFF1FFF (0 + i) = true by decide)

theorem fnCfgSet_en : flag (fnCfgSet s f v) (Reg.HIF_FN_CFG_RINGS_EN f) = bit v 12 :=
  congrArg (· == 1) (getF_writeRw s (Reg.HIF_FN_CFG_RINGS_EN f) v _ (by decide) (show 12 + 1 ≤ 32 by decide) (show ∀ i < 1, Nat.testBit 0x7FFF1FFF (12 + i) = true by decide))

theorem fnCfgSet_inflight : getF (fnCfgSet s f v) (Reg.HIF_FN_CFG_INFLIGHT f) = bits v 16 15 :=
  getF_writeRw s (Reg.HIF_FN_CFG_INFLIGHT f) v _ (by decide) (show 16 + 15 ≤ 32 by decide) (show ∀ i < 15, Nat.testBit 0x7FFF1FFF (16 + i) = true by decide)

theorem regsBut_fnCfgSet : RegsBut [Reg.HIF_FN_CFG f] s (fnCfgSet s f v) := regsBut_wr _ _ _

end

/-- Settles O39: a frame by the entry that it leaves in its ring, and each write by the branch that its conditions choose. -/
theorem hostDeliveryAndTableWindow : Obligations.HostDeliveryAndTableWindow := by
  unfold Obligations.HostDeliveryAndTableWindow
  refine ⟨?dropped, ?delivered, ?kept, ?acts, ?unaligned, ?clear, ?grants, ?grantRefused, ?size, ?sizeRefused⟩
  case dropped => exact fun s x rest hq hx hrun => completes_of (t := hostFrameDeliver s) rfl (hostFrameDeliver_drops hq hx hrun)
  case delivered =>
    intro s x rest k hq hx _ hrun hplace hroom
    refine completes_of (t := hostFrameDeliver s) rfl ?_
    rw [hostFrameDeliver_writes hq hx hrun hplace hroom]
    exact ⟨rxWrite_out hx, rxWrite_queue hx⟩
  case kept =>
    exact fun s off v t i o n hpow hoff hplace ht hopen hlast =>
      completes_of (t := bar2Write off v s) rfl ((bar2Write_holds hpow hoff hplace ht hopen).trans (if_neg hlast))
  case acts =>
    exact fun s off v t i o n hpow hoff hplace ht hopen hlast =>
      completes_of (t := bar2Write off v s) rfl ((bar2Write_holds hpow hoff hplace ht hopen).trans (if_pos hlast))
  case unaligned => exact fun s off v hpow hoff => completes_of (t := bar2Write off v s) rfl (bar2Write_unaligned hpow hoff)
  case clear =>
    intro s hopen
    refine completes_of (t := pwfClear s) rfl ?_
    rw [pwfClear_empties hopen]
    have hstat : rd (wr (logEmptied s) Reg.HIF_PWF_STAT 0) Reg.HIF_PWF_STAT = 0 := rd_wr_self ..
    refine ⟨congrArg (fget · 0 7) hstat, congrArg (fget · 8 24) hstat, fun i k hi hk => ?_⟩
    have hne : Reg.HIF_PWF_LOG i k ≠ Reg.HIF_PWF_STAT := by
      simp only [Reg.HIF_PWF_LOG, Reg.HIF_PWF_STAT]
      omega
    rw [rd_wr_ne _ _ hne, rd_logEmptied (offLog_log hi hk)]
  case grants =>
    exact fun s f w v hopen hf hall => completes_of (t := grant f w v s) rfl ((grant_acts hopen hf w).trans (if_pos (List.all_eq_true.mpr hall)))
  case grantRefused =>
    intro s f w v j hopen hf hj hno
    refine completes_of (t := grant f w v s) rfl ((grant_acts hopen hf w).trans (if_neg fun hall => ?_))
    exact Bool.false_ne_true (hno.symm.trans (List.all_eq_true.mp hall j hj))
  case size =>
    intro s f v hopen hsum hoff hen
    refine completes_of (t := fnCfgWrite f v s) rfl ?_
    rw [fnCfgWrite_takes hopen hsum hoff hen]
    exact ⟨fnCfgSet_cnt, fnCfgSet_en, fnCfgSet_inflight, regsBut_fnCfgSet⟩
  case sizeRefused => exact fun s f v hopen hsum => completes_of (t := fnCfgWrite f v s) rfl (fnCfgWrite_refuses hopen hsum)

end Sys2Proof.Machine

/-! Grants and deadlines of maintenance activities (O24). -/

namespace Sys2Proof.Machine

/-! ## Grants (R567) -/

section
variable {s : State} {i g : Nat} {m : Maint}

theorem maintGrant_pause (hfind : s.slc.due.find? (fun x => x.act == 1 && x.res == i) = some m) (hdue : isDue s 1 i = true) (hok : grantOk s 1 i = true)
    (hfirst : comesBefore s m = false) : maintGrant 1 i s = granted_ s m := by
  have hfind' : s.slc.due.find? (fun x => x.act == (1 : Fin 6).val && x.res == i) = some m := hfind
  have hgo : ¬(((1 : Fin 6) = 1 ∧ (!isDue s 1 i) = true) ∨ (!grantOk s (1 : Fin 6).val i) = true ∨ comesBefore s m = true) := by
    simp [hdue, hok, hfirst]
  unfold maintGrant
  rw [hfind']
  exact if_neg hgo

/-- A background activity on a lane that falls due now. -/
def laneDue (s : State) (g : Nat) : Maint := { act := 2, res := g, due := s.tick }

theorem maintGrant_background (hfind : s.slc.due.find? (fun x => x.act == 2 && x.res == g) = none) :
    maintGrant 2 g s = s ∨ maintGrant 2 g s = granted_ s (laneDue s g) := by
  have hfind' : s.slc.due.find? (fun x => x.act == (2 : Fin 6).val && x.res == g) = none := hfind
  unfold maintGrant
  rw [hfind']
  dsimp only
  split
  · exact .inl rfl
  · exact .inr rfl

theorem granted_lane : (granted_ s (laneDue s g)).regs = s.regs ∧ (granted_ s (laneDue s g)).slc.running = s.slc.running := by
  have hnow : decide ((laneDue s g).due < s.tick) = false := decide_eq_false (Nat.lt_irrefl s.tick)
  unfold granted_
  dsimp only
  rw [hnow]
  exact ⟨rfl, rfl⟩

end

/-! ## Deadlines (R568) -/

section
variable {s : State} {a : Fin 6} {r : Nat}

/-- The activity that has passed its deadline is marked late. -/
def deadlinePassed (s : State) (a r : Nat) : State :=
  let u := fallDue s a r
  { u with slc := { u.slc with due := u.slc.due.map fun m => if m.act = a ∧ m.res = r then { m with late := true } else m } }

/-- The deadline is counted and reported. -/
def deadlineTold (s : State) (a r : Nat) : State :=
  report (bump (deadlinePassed s a r) (Reg.PWR_MAINT_CNT a)) (Src.maintLate a) (locSlice (resFamily a r) (resSlice a r)) 0

theorem maintDeadline_passes (howed : owed s a r = true) (hres : resOwes s a r = true) (hrun : isRunning s a r = false)
    (hlate : s.slc.due.any (fun m => m.act == a.val && m.res == r && m.late) = false) : maintDeadline a r s = lateExtra (deadlineTold s a r) a r := by
  unfold maintDeadline
  rw [howed, hres, hrun, hlate]
  rfl

theorem fallDue_flt (a : Nat) : (fallDue s a r).flt = s.flt := by
  unfold fallDue
  split <;> rfl

theorem fallDue_running (a : Nat) : (fallDue s a r).slc.running = s.slc.running := by
  unfold fallDue
  split <;> rfl

theorem deadlinePassed_regs (a : Nat) : (deadlinePassed s a r).regs = s.regs := fallDue_regs _ _ _

theorem deadlinePassed_flt (a : Nat) : (deadlinePassed s a r).flt = s.flt := fallDue_flt a

theorem deadlinePassed_running (a : Nat) : (deadlinePassed s a r).slc.running = s.slc.running := fallDue_running a

/-- A report whose latch is empty leaves the slices as they are. -/
theorem report_slc {src : Nat} (h : mfind s.flt.latch src = none) (loc d : Nat) : (report s src loc d).slc = s.slc := by
  unfold report reportWith
  rw [h]
  split <;> rfl

theorem offReport_maintCnt {a : Nat} (h : a < 12) : OffReport (Reg.PWR_MAINT_CNT a) := by
  refine .inl ?_
  simp only [Reg.PWR_MAINT_CNT]
  omega

theorem rd_deadlineTold (a : Fin 6) : rd (deadlineTold s a r) (Reg.PWR_MAINT_CNT a) = countWord (rd s (Reg.PWR_MAINT_CNT a)) 1 := by
  rw [deadlineTold, rd_report (offReport_maintCnt (by omega)), rd_bump_self, rd_congr (deadlinePassed_regs _)]

theorem deadlineTold_slc (h : mfind s.flt.latch (Src.maintLate a) = none) : (deadlineTold s a r).slc = (deadlinePassed s a r).slc := by
  rw [deadlineTold, report_slc (by rw [bump_flt, deadlinePassed_flt, h]), bump_slc]

/-- What Table 22-5 names besides leaves the counters of R568. -/
theorem rd_lateExtra {k : Nat} (hk : k < 12) (a : Nat) : rd (lateExtra s a r) (Reg.PWR_MAINT_CNT k) = rd s (Reg.PWR_MAINT_CNT k) := by
  have hdi : Reg.PWR_MAINT_CNT k ≠ Reg.DRC_DI_CNT r 10 := by
    simp only [Reg.PWR_MAINT_CNT, Reg.DRC_DI_CNT]
    omega
  have hcnt : Reg.PWR_MAINT_CNT k ≠ Reg.CNT_CNT 3 := by
    simp only [Reg.PWR_MAINT_CNT, Reg.CNT_CNT]
    omega
  unfold lateExtra
  split
  · rw [rd_report (offReport_maintCnt hk), rd_bump_ne _ _ _ hdi]
  · split
    · unfold dumpLate
      split
      · split
        · rfl
        · rw [rd_bump_ne _ _ _ hcnt]
          exact rd_congr (by rfl) _
      · rfl
    · rfl

theorem lateExtra_none {a : Nat} (h1 : a ≠ 1) (h4 : a ≠ 4) : lateExtra s a r = s := by
  rw [lateExtra, if_neg fun h => h1 h.1, if_neg h4]

end

/-- Settles O24: a grant by what is found due and by its arbitration, a deadline by its count and the mark on what stays due. -/
theorem maintenanceGrantAndDeadline : Obligations.MaintenanceGrantAndDeadline := by
  unfold Obligations.MaintenanceGrantAndDeadline
  refine ⟨?pause, ?background, ?counted, ?late⟩
  case pause => exact fun s i m _ hfind hdue hok hfirst => completes_of (t := maintGrant 1 i s) rfl (maintGrant_pause hfind hdue hok hfirst)
  case background =>
    intro s g _ _ _ _ hfind
    refine completes_of (t := maintGrant 2 g s) rfl ?_
    rcases maintGrant_background hfind with h | h <;> rw [h]
    · exact ⟨rfl, rfl⟩
    · exact granted_lane
  case counted =>
    intro s a r howed hres hrun hlate
    refine completes_of (t := maintDeadline a r s) rfl ?_
    rw [maintDeadline_passes howed hres hrun hlate, rd_lateExtra (by omega), rd_deadlineTold]
  case late =>
    intro s a r h1 h4 howed hres hrun hlate hlatch
    refine completes_of (t := maintDeadline a r s) rfl ?_
    rw [maintDeadline_passes howed hres hrun hlate, lateExtra_none (fun h => h1 (Fin.ext h)) (fun h => h4 (Fin.ext h)), deadlineTold_slc hlatch]
    exact ⟨deadlinePassed_running _, rfl⟩

end Sys2Proof.Machine

/-! Scratch memory (O11): only the listed commands write its words, for only they reach a function that stores a word. One lemma for each function of the model that the
other commands run, in the order of the model's files: it leaves `scr.words` alone. Here the operations, faults, counters, stores, tables and lookups. -/

namespace Sys2Proof.Machine

/-! ## Branches and folds -/

@[simp] theorem words_ite {c : Prop} {d : Decidable c} {a b : State} : (@ite _ c d a b).scr.words = @ite _ c d a.scr.words b.scr.words :=
  apply_ite (fun s : State => s.scr.words) ..

@[simp] theorem words_dite {c : Prop} {d : Decidable c} {a : c → State} {b : ¬c → State} :
    (@dite _ c d a b).scr.words = @dite _ c d (fun h => (a h).scr.words) (fun h => (b h).scr.words) := apply_dite (fun s : State => s.scr.words) ..

theorem foldl_words_by {β γ : Type} {g : γ → State} {f : γ → β → γ} (hf : ∀ a x, (g (f a x)).scr.words = (g a).scr.words) (a : γ) (l : List β) :
    (g (l.foldl f a)).scr.words = (g a).scr.words := by
  induction l generalizing a with
  | nil => rfl
  | cons x l ih => exact (ih _).trans (hf a x)

@[simp] theorem foldl_words {β : Type} {f : State → β → State} {a : State} {l : List β} (hf : ∀ a x, (f a x).scr.words = a.scr.words) :
    (l.foldl f a).scr.words = a.scr.words := foldl_words_by (g := id) hf a l

@[simp] theorem foldl_fst_words {β γ : Type} {f : State × γ → β → State × γ} {a : State × γ} {l : List β} (hf : ∀ a x, (f a x).1.scr.words = a.1.scr.words) :
    (l.foldl f a).1.scr.words = a.1.scr.words := foldl_words_by (g := Prod.fst) hf a l

@[simp] theorem foldl_snd_words {β γ : Type} {f : γ × State → β → γ × State} {a : γ × State} {l : List β} (hf : ∀ a x, (f a x).2.scr.words = a.2.scr.words) :
    (l.foldl f a).2.scr.words = a.2.scr.words := foldl_words_by (g := Prod.snd) hf a l

/-- A result of a pair that a match has taken apart. -/
theorem words_of_pair {α : Type} {x : α × State} {a : α} {t u : State} (h : x = (a, t)) (hx : x.2.scr.words = u.scr.words) : t.scr.words = u.scr.words := by
  subst h
  exact hx

theorem words_of_triple {α β : Type} {x : α × β × State} {a : α} {b : β} {t u : State} (h : x = (a, b, t)) (hx : x.2.2.scr.words = u.scr.words) :
    t.scr.words = u.scr.words := by
  subst h
  exact hx

/-! ## The functions of Machine/Ops -/

@[simp] theorem signal_words {s : State} {f r : Nat} {force : Bool} : (signal s f r force).scr.words = s.scr.words := by simp [signal]

@[simp] theorem pushEntry_words {s : State} {f r : Nat} {content : Bytes} {force : Bool} : (pushEntry s f r content force).scr.words = s.scr.words := by simp [pushEntry]

@[simp] theorem pushCompl_words {s : State} {f op tag status ring : Nat} {b : Bool} {l : List Bytes} : (pushCompl s f op tag status ring b l).scr.words = s.scr.words := by
  induction l generalizing s b with
  | nil => rfl
  | cons c r ih => simp [pushCompl, ih]

@[simp] theorem landed_words {s : State} {f : Nat} : (landed s f).scr.words = s.scr.words := (rfl)

@[simp] theorem drainOwed_words {f : Nat} {k : Nat} {s : State} : (drainOwed f k s).scr.words = s.scr.words := by
  induction k generalizing s with
  | zero => rfl
  | succ n ih =>
    unfold drainOwed
    split
    · rfl
    · dsimp only
      split <;> simp [ih]

@[simp] theorem complete_words {s : State} {c : HostCmd} {status : Nat} {result : Bytes} : (complete s c status result).scr.words = s.scr.words := by simp [complete]

@[simp] theorem wrWords_words {s : State} {a : Nat} {l : List Word} : (wrWords s a l).scr.words = s.scr.words := by
  induction l generalizing s a with
  | nil => rfl
  | cons w r ih => simp [wrWords, ih]

@[simp] theorem pwfLog_words {s : State} {w0 addr data : Nat} : (pwfLog s w0 addr data).scr.words = s.scr.words := by simp [pwfLog]

@[simp] theorem pwfD_words {s : State} {f bar addr data : Nat} {c : PwfCause} {detail : Nat} : (pwfD s f bar addr data c detail).scr.words = s.scr.words := by simp [pwfD]

@[simp] theorem freshNat_words {s : State} : (freshNat s).2.scr.words = s.scr.words := (rfl)

@[simp] theorem operWrite_words {s : State} {addr data : Nat} {act : State → State} (hact : ∀ t, (act t).scr.words = t.scr.words) :
    (operWrite s addr data act).scr.words = s.scr.words := by simp [operWrite, hact]

@[simp] theorem srcCount_words {s : State} {src : Nat} : (srcCount s src).scr.words = s.scr.words := by simp [srcCount]

@[simp] theorem firstPut_words {s : State} {t src : Nat} {rcd : List Word} : (firstPut s t src rcd).scr.words = s.scr.words := by simp [firstPut]

@[simp] theorem firstNote_words {s : State} {t src : Nat} {rcd : List Word} : (firstNote s t src rcd).scr.words = s.scr.words := by
  unfold firstNote
  split <;> simp

@[simp] theorem captureFirst_words {s0 : State} {src : Nat} {r : Report} {rcd : List Word} : (captureFirst s0 src r rcd).scr.words = s0.scr.words := by simp [captureFirst]

@[simp] theorem serviceReaction_words {dramFail : State → Nat → State} {s : State} {src : Nat} {loc : Nat} (hdramFail : ∀ t i, (dramFail t i).scr.words = t.scr.words) :
    (serviceReaction dramFail s src loc).scr.words = s.scr.words := by simp [serviceReaction, hdramFail]

@[simp] theorem setStatus_words {s : State} {src : Nat} : (setStatus s src).scr.words = s.scr.words := by simp [setStatus]

@[simp] theorem mergeLatched_words {s : State} {src : Nat} {r : Report} : (mergeLatched s src r).scr.words = s.scr.words := by simp [mergeLatched]

@[simp] theorem reportWith_words {dramFail : State → Nat → State} {inj : Bool} {s : State} {src loc detail : Nat} (hdramFail : ∀ t i, (dramFail t i).scr.words = t.scr.words) :
    (reportWith dramFail inj s src loc detail).scr.words = s.scr.words := by simp [reportWith, hdramFail]

@[simp] theorem dramLost_words {s : State} {i : Nat} : (dramLost s i).scr.words = s.scr.words := by simp [dramLost]

@[simp] theorem pauseWithdraw_words {s : State} {i : Nat} : (pauseWithdraw s i).scr.words = s.scr.words := (rfl)

@[simp] theorem dramFailedWith_words {more : State → Nat → State} {s : State} {i : Nat} (hmore : ∀ t j, (more t j).scr.words = t.scr.words) :
    (dramFailedWith more s i).scr.words = s.scr.words := by simp [dramFailedWith, hmore]

@[simp] theorem dramFailed_words {s : State} {i : Nat} : (dramFailed s i).scr.words = s.scr.words := by simp [dramFailed]

@[simp] theorem injTake_words {s : State} {loc gran : Nat} : (injTake s loc gran).2.scr.words = s.scr.words := by
  simp only [injTake]
  split <;> simp

@[simp] theorem injUncorr_words {s : State} {loc gran : Nat} : (injUncorr s loc gran).2.scr.words = s.scr.words := by
  unfold injUncorr
  dsimp only
  split
  · simp
  · split <;> simp

/-! ## The functions of Machine/Faults -/

@[simp] theorem recRingFill_words {s : State} : (recRingFill s).scr.words = s.scr.words := by simp [recRingFill]

@[simp] theorem recRingPut_words {s : State} {rcd : List Word} : (recRingPut s rcd).scr.words = s.scr.words := by simp [recRingPut]

@[simp] theorem vbatCopy_words {s : State} {rcd : List Word} : (vbatCopy s rcd).scr.words = s.scr.words := (rfl)

@[simp] theorem nvlogOffer_words {s : State} {rcd : List Word} : (nvlogOffer s rcd).scr.words = s.scr.words := by simp [nvlogOffer]

@[simp] theorem faultMsg_words {s : State} {src loc : Nat} : (faultMsg s src loc).scr.words = s.scr.words := by simp [faultMsg]

@[simp] theorem faultEvent_words {s : State} {rcd : List Word} {idx : Nat} : (faultEvent s rcd idx).scr.words = s.scr.words := by simp [faultEvent]

@[simp] theorem takeReport_words {s : State} {src : Nat} {r : Report} : (takeReport s src r).scr.words = s.scr.words := by simp [takeReport]

@[simp] theorem makeRecord_words {s : State} {src : Nat} {r : Report} : (makeRecord s src r).scr.words = s.scr.words := by simp [makeRecord]

@[simp] theorem mergeReport_words {s : State} {src : Nat} {r : Report} : (mergeReport s src r).scr.words = s.scr.words := by simp [mergeReport]

@[simp] theorem collectReport_words {s : State} {src : Nat} {r : Report} : (collectReport s src r).scr.words = s.scr.words := by simp [collectReport]

@[simp] theorem faultCollect_words {s : State} : (faultCollect s).scr.words = s.scr.words := by
  unfold faultCollect
  split <;> simp

@[simp] theorem fltStatusClear_words {src : Nat} {s : State} : (fltStatusClear src s).scr.words = s.scr.words := by simp [fltStatusClear]

@[simp] theorem firstEmpty_words {s : State} : (firstEmpty s).scr.words = s.scr.words := (rfl)

@[simp] theorem firstFaultClear_words {s : State} : (firstFaultClear s).scr.words = s.scr.words := operWrite_words fun _ => by split <;> simp

@[simp] theorem ringRdWrite_words {v : Nat} {s : State} : (ringRdWrite v s).scr.words = s.scr.words := by simp [ringRdWrite]

@[simp] theorem nvlogRead_words {v : Nat} {s : State} : (nvlogRead v s).scr.words = s.scr.words := by simp [nvlogRead]

@[simp] theorem partnerFaultRecord_words {rcd : List Word} {s : State} : (partnerFaultRecord rcd s).scr.words = s.scr.words := by simp [partnerFaultRecord]

@[simp] theorem faultInject_words {v : Nat} {s : State} : (faultInject v s).scr.words = s.scr.words := by simp [faultInject]

/-! ## The functions of Machine/Counters -/

@[simp] theorem countPair_words {s : State} {i len : Nat} : (countPair s i len).scr.words = s.scr.words := by simp [countPair]

@[simp] theorem pairRead_words {v : Nat} {s : State} : (pairRead v s).scr.words = s.scr.words := by simp [pairRead]

@[simp] theorem revokeGroup_words {s : State} {g : Nat} : (revokeGroup s g).scr.words = s.scr.words := by simp [revokeGroup]

@[simp] theorem zeroGroup_words {s : State} {g : Nat} : (zeroGroup s g).scr.words = s.scr.words := (rfl)

@[simp] theorem perfTenantWrite_words {j : Fin 128} {v : Nat} {s : State} : (perfTenantWrite j v s).scr.words = s.scr.words := by simp [perfTenantWrite]

@[simp] theorem heldCount_words {s : State} : (heldCount s).scr.words = s.scr.words := (rfl)

@[simp] theorem dumpEpoch_words {d : Fin 64} {s : State} : (dumpEpoch d s).scr.words = s.scr.words := by
  unfold dumpEpoch
  dsimp only
  split
  · simp
  · split <;> simp

@[simp] theorem pushDump_words {s : State} {f r : Nat} {l : List Bytes} : (pushDump s f r l).scr.words = s.scr.words := by simp [pushDump]

@[simp] theorem dumpVf_words {x : Snapshot} {d : Nat} {s : State} {f : Nat} : (dumpVf x d s f).scr.words = s.scr.words := by simp [dumpVf]

@[simp] theorem releaseSnap_words {s : State} {d : Nat} {x : Snapshot} : (releaseSnap s d x).scr.words = s.scr.words := (rfl)

@[simp] theorem abandonDump_words {s : State} {d : Nat} {x : Snapshot} : (abandonDump s d x).scr.words = s.scr.words := by simp [abandonDump]

@[simp] theorem abandonRing_words {s : State} {f r : Nat} : (abandonRing s f r).scr.words = s.scr.words := by simp [abandonRing]

@[simp] theorem dumpWrite_words {d : Fin 64} {s : State} : (dumpWrite d s).scr.words = s.scr.words := by
  unfold dumpWrite
  split <;> simp

/-! ## The functions of Machine/Mirror -/

@[simp] theorem mirrorItem_words {s : State} {x : CmdItem} : (mirrorItem s x).scr.words = s.scr.words := by simp [mirrorItem]

@[simp] theorem stateDue_words {s : State} {key : Nat} : (stateDue s key).scr.words = s.scr.words := by simp [stateDue]

@[simp] theorem memTestFailed_words {s : State} : (memTestFailed s).scr.words = s.scr.words := by simp [memTestFailed]

@[simp] theorem operMirrored_words {s : State} {addr data : Nat} {ok : Bool} {act : State → State} (hact : ∀ t, (act t).scr.words = t.scr.words) :
    (operMirrored s addr data ok act).scr.words = s.scr.words := by simp [operMirrored, hact]

@[simp] theorem probeGone_words {s : State} {q : Nat} : (probeGone s q).scr.words = s.scr.words := (rfl)

@[simp] theorem probeFail_words {s : State} {x : Probe} : (probeFail s x).scr.words = s.scr.words := by simp [probeFail]

@[simp] theorem probeRefused_words {s : State} {q : Nat} : (probeRefused s q).scr.words = s.scr.words := by
  unfold probeRefused
  split <;> simp

/-! ## The functions of Machine/Store -/

@[simp] theorem refuseOpcodes_words {s : State} {fn ring : Nat} {k : Nat} : (refuseOpcodes s fn ring k).scr.words = s.scr.words := by
  induction k generalizing s with
  | zero => rfl
  | succ n ih =>
    unfold refuseOpcodes
    split
    · split <;> simp [ih]
    · rfl

@[simp] theorem finish_words {s : State} {c : HostCmd} {mirrored : Bool} {st : Status} {res : Bytes} : (finish s c mirrored st res).scr.words = s.scr.words := by simp [finish]

@[simp] theorem hostCmd_words {s : State} {c : HostCmd} {op : Nat} {changes : Bool} {eng : State → Eng} (heng : ∀ t, (eng t).s.scr.words = t.scr.words) :
    (hostCmd s c op changes eng).scr.words = s.scr.words := by
  unfold hostCmd
  split
  · rfl
  · split
    · simp
    · simp [heng]

@[simp] theorem sigCounts_words {s : State} : (sigCounts s).scr.words = s.scr.words := by simp [sigCounts]

@[simp] theorem lostFollow_words {s : State} : (lostFollow s).scr.words = s.scr.words := by simp [lostFollow]

@[simp] theorem sigClearBad_words {s : State} {key : Nat} : (sigClearBad s key).scr.words = s.scr.words := (rfl)

@[simp] theorem shadowAct_words {s : State} {c : HostCmd} {bad : List (Bool × Status)} {act : State → State} (hact : ∀ t, (act t).scr.words = t.scr.words) :
    (shadowAct s c bad act).s.scr.words = s.scr.words := by
  unfold shadowAct
  dsimp only
  split <;> simp [hact]

@[simp] theorem sigWriteEng_words {c : HostCmd} {s : State} : (sigWriteEng c s).s.scr.words = s.scr.words := by simp [sigWriteEng]

@[simp] theorem sigWrite_words {c : HostCmd} {s : State} : (sigWrite c s).scr.words = s.scr.words := by simp [sigWrite]

@[simp] theorem sigInvalidateEng_words {c : HostCmd} {s : State} : (sigInvalidateEng c s).s.scr.words = s.scr.words := by simp [sigInvalidateEng]

@[simp] theorem sigInvalidate_words {c : HostCmd} {s : State} : (sigInvalidate c s).scr.words = s.scr.words := by simp [sigInvalidate]

@[simp] theorem sigProfileEng_words {c : HostCmd} {s : State} : (sigProfileEng c s).s.scr.words = s.scr.words := by simp [sigProfileEng]

@[simp] theorem sigProfile_words {c : HostCmd} {s : State} : (sigProfile c s).scr.words = s.scr.words := by simp [sigProfile]

@[simp] theorem sigClearEng_words {c : HostCmd} {s : State} : (sigClearEng c s).s.scr.words = s.scr.words := by simp [sigClearEng]

@[simp] theorem sigClear_words {c : HostCmd} {s : State} : (sigClear c s).scr.words = s.scr.words := by simp [sigClear]

@[simp] theorem sigCopyEng_words {c : HostCmd} {s : State} : (sigCopyEng c s).s.scr.words = s.scr.words := by simp [sigCopyEng]

@[simp] theorem sigCopy_words {c : HostCmd} {s : State} : (sigCopy c s).scr.words = s.scr.words := by simp [sigCopy]

@[simp] theorem sigCopyDone_words {s : State} : (sigCopyDone s).scr.words = s.scr.words := by simp [sigCopyDone]

@[simp] theorem sigSwapNow_words {s : State} : (sigSwapNow s).scr.words = s.scr.words := by simp [sigSwapNow]

@[simp] theorem sigSwapEng_words {c : HostCmd} {s : State} : (sigSwapEng c s).s.scr.words = s.scr.words := by
  unfold sigSwapEng
  dsimp only
  split
  · simp
  · split <;> simp

@[simp] theorem sigSwap_words {c : HostCmd} {s : State} : (sigSwap c s).scr.words = s.scr.words := by simp [sigSwap]

@[simp] theorem storeEng_words {c : HostCmd} {s : State} : (storeEng c s).s.scr.words = s.scr.words := by
  unfold storeEng
  split <;> simp

@[simp] theorem sigSwapInstant_words {s : State} : (sigSwapInstant s).scr.words = s.scr.words := by
  unfold sigSwapInstant
  split <;> simp

@[simp] theorem sigCancel_words {s : State} : (sigCancel s).scr.words = s.scr.words := by simp [sigCancel]

@[simp] theorem oldBankDrained_words {s : State} : (oldBankDrained s).scr.words = s.scr.words := (rfl)

@[simp] theorem sigMasterLost_words {s : State} {key : Nat} : (sigMasterLost s key).scr.words = s.scr.words := by simp [sigMasterLost]

@[simp] theorem sigRead_words {c : HostCmd} {masterBad : Bool} {s : State} : (sigRead c masterBad s).scr.words = s.scr.words := by simp [sigRead]

@[simp] theorem sigEntryRepair_words {n : Fin 20} {key : Nat} {masterBad : Bool} {s : State} : (sigEntryRepair n key masterBad s).scr.words = s.scr.words := by simp [sigEntryRepair]

@[simp] theorem scanStat_words {s : State} {n : Nat} : (scanStat s n).scr.words = s.scr.words := by simp [scanStat]

@[simp] theorem enterPipe_words {s : State} {n : Nat} {f : InFrame} : (enterPipe s n f).scr.words = s.scr.words := by
  simp only [enterPipe]
  split <;> simp

@[simp] theorem scanWindow_words {n : Fin 20} {bad : List Nat} {corr : Nat} {s : State} : (scanWindow n bad corr s).scr.words = s.scr.words := by simp [scanWindow]

/-! ## The functions of Machine/Tables -/

@[simp] theorem tabPut_words {s : State} {t i v : Nat} : (tabPut s t i v).scr.words = s.scr.words := by simp [tabPut]

@[simp] theorem tableEcc_words {s : State} {t key : Nat} : (tableEcc s t key).scr.words = s.scr.words := by simp [tableEcc]

@[simp] theorem actionWord_words {s : State} {key : Nat} : (actionWord s key).scr.words = s.scr.words := by simp [actionWord]

@[simp] theorem actionEcc_words {s : State} {n key : Nat} : (actionEcc s n key).scr.words = s.scr.words := by simp [actionEcc]

@[simp] theorem setLpm_words {s : State} {t : Nat} {m : NMap Nat} : (setLpm s t m).scr.words = s.scr.words := by simp [setLpm]

@[simp] theorem hostSet_words {s : State} {b x : Nat} {e : Option HostEnt} : (hostSet s b x e).scr.words = s.scr.words := by
  unfold hostSet
  split <;> simp

@[simp] theorem macSet_words {s : State} {n b x : Nat} {e : Option MacEnt} : (macSet s n b x e).scr.words = s.scr.words := by
  unfold macSet
  split <;> simp

@[simp] theorem macMove_words {s : State} {n b x b' x' : Nat} {e : MacEnt} : (macMove s n b x b' x' e).scr.words = s.scr.words := by simp [macMove]

/-! ## The functions of Machine/TabCmd -/

@[simp] theorem putNode_words {s : State} {c : Nat} {x : NodeSt} : (putNode s c x).scr.words = s.scr.words := (rfl)

@[simp] theorem wheelPlace_words {s : State} {key te : Nat} : (wheelPlace s key te).scr.words = s.scr.words := (rfl)

@[simp] theorem putTe_words {s : State} {c : Nat} {x : NodeSt} : (putTe s c x).scr.words = s.scr.words := by simp [putTe]

@[simp] theorem rescaleNode_words {s : State} {c a b a' b' : Nat} : (rescaleNode s c a b a' b').scr.words = s.scr.words := by simp [rescaleNode]

@[simp] theorem fenceCount_words {s : State} : (fenceCount s).scr.words = s.scr.words := (rfl)

@[simp] theorem afterWrite_words {s0 : State} {fn t i old : Nat} {s : State} : (afterWrite s0 fn t i old s).scr.words = s.scr.words := by
  unfold afterWrite
  split <;> simp

@[simp] theorem directWrite_words {s : State} {fn : Nat} {ins : Bool} {t i v : Nat} : (directWrite s fn ins t i v).s.scr.words = s.scr.words := by
  unfold directWrite
  dsimp only
  (repeat' split) <;> simp

@[simp] theorem directDelete_words {s : State} {fn t i : Nat} : (directDelete s fn t i).s.scr.words = s.scr.words := by
  unfold directDelete
  dsimp only
  split
  · simp
  · split <;> simp

@[simp] theorem directRead_words {s : State} {fn t i : Nat} : (directRead s fn t i).s.scr.words = s.scr.words := by
  unfold directRead
  split <;> simp

@[simp] theorem directSearch_words {s : State} {fn t : Nat} {b : Bytes} : (directSearch s fn t b).s.scr.words = s.scr.words := by
  unfold directSearch
  split
  · simp
  · split <;> simp

@[simp] theorem directNext_words {s : State} {fn t : Nat} {after : Option Nat} : (directNext s fn t after).s.scr.words = s.scr.words := by
  unfold directNext
  dsimp only
  split
  · simp
  · split
    · simp
    · split <;> simp

@[simp] theorem lpmWrite_words {s : State} {fn op t : Nat} {b : Bytes} : (lpmWrite s fn op t b).s.scr.words = s.scr.words := by
  unfold lpmWrite
  dsimp only
  split
  · split <;> simp
  · split <;> simp

@[simp] theorem lpmRead_words {s : State} {fn op t : Nat} {sub : Nat} {b : Bytes} : (lpmRead s fn op t sub b).s.scr.words = s.scr.words := by
  unfold lpmRead
  dsimp only
  split
  · simp
  · split <;> simp

@[simp] theorem rehashEvent_words {s : State} {ev : Nat} {c : HostCmd} {pipe typ b0 b1 : Nat} {key : Bytes} :
    (rehashEvent s ev c pipe typ b0 b1 key).scr.words = s.scr.words := by simp [rehashEvent]

@[simp] theorem hostWrite_words {s : State} {ev op : Nat} {c : HostCmd} : (hostWrite s ev op c).s.scr.words = s.scr.words := by
  unfold hostWrite
  dsimp only
  (repeat' split) <;> simp

@[simp] theorem hostMove_words {s : State} {c : HostCmd} : (hostMove s c).s.scr.words = s.scr.words := by
  unfold hostMove
  dsimp only
  split
  · split
    · split <;> simp
    · simp
  · simp

@[simp] theorem hostRead_words {s : State} {op : Nat} {c : HostCmd} : (hostRead s op c).s.scr.words = s.scr.words := by
  unfold hostRead
  dsimp only
  (repeat' split) <;> simp

@[simp] theorem macWriteOne_words {s : State} {ev op : Nat} {c : HostCmd} {n : Nat} : (macWriteOne s ev op c n).2.scr.words = s.scr.words := by
  unfold macWriteOne
  dsimp only
  (repeat' split) <;> simp

@[simp] theorem macWrite_words {s : State} {ev op : Nat} {c : HostCmd} : (macWrite s ev op c).s.scr.words = s.scr.words := by
  have hall (l : List Nat) (x : List (Option Status) × State) : (l.foldl (fun (acc : List (Option Status) × State) n =>
      if bit (macOp c.opnd).mask n then (acc.1 ++ [some (macWriteOne acc.2 ev op c n).1], (macWriteOne acc.2 ev op c n).2) else (acc.1 ++ [none], acc.2)) x).2.scr.words = x.2.scr.words :=
    foldl_snd_words fun a n => by split <;> simp
  unfold macWrite
  dsimp only
  split
  · rfl
  · exact hall _ _

@[simp] theorem macMoveCmd_words {s : State} {c : HostCmd} : (macMoveCmd s c).s.scr.words = s.scr.words := by
  unfold macMoveCmd
  dsimp only
  split
  · split
    · split <;> simp
    · simp
  · simp

@[simp] theorem macRead_words {s : State} {op : Nat} {c : HostCmd} : (macRead s op c).s.scr.words = s.scr.words := by
  unfold macRead
  dsimp only
  (repeat' split) <;> simp

@[simp] theorem flushStat_words {s : State} : (flushStat s).scr.words = s.scr.words := (rfl)

@[simp] theorem flushTake_words {s : State} {f : Flush} : (flushTake s f).scr.words = s.scr.words := (rfl)

@[simp] theorem flushDrop_words {s : State} {e : Nat × Nat × Nat} : (flushDrop s e).scr.words = s.scr.words := by
  unfold flushDrop
  split <;> simp

@[simp] theorem flushSweep_words {s : State} {f : Flush} {rest : List Flush} : (flushSweep s f rest).1.scr.words = s.scr.words := by simp [flushSweep]

@[simp] theorem writeEng_words {ev op : Nat} {c : HostCmd} {s : State} : (writeEng ev op c s).s.scr.words = s.scr.words := by
  unfold writeEng
  split
  · simp
  · simp
  · simp
  · simp
  · split
    · split <;> simp
    · split <;> simp

@[simp] theorem readEng_words {op : Nat} {c : HostCmd} {s : State} : (readEng op c s).s.scr.words = s.scr.words := by
  unfold readEng
  split
  · simp
  · simp
  · simp
  · simp
  · split
    · simp
    · split <;> simp

@[simp] theorem moveEng_words {c : HostCmd} {s : State} : (moveEng c s).s.scr.words = s.scr.words := by
  unfold moveEng
  split <;> simp

@[simp] theorem mirrorEng_words {c : HostCmd} {s : State} : (mirrorEng c s).s.scr.words = s.scr.words := by
  unfold mirrorEng
  split
  · simp
  · split <;> simp

@[simp] theorem insertEntry_words {c : HostCmd} {s : State} : (insertEntry c s).scr.words = s.scr.words := by simp [insertEntry]

@[simp] theorem deleteEntry_words {c : HostCmd} {s : State} : (deleteEntry c s).scr.words = s.scr.words := by simp [deleteEntry]

@[simp] theorem modify_words {c : HostCmd} {s : State} : (modify c s).scr.words = s.scr.words := by simp [modify]

@[simp] theorem search_words {c : HostCmd} {s : State} : (search c s).scr.words = s.scr.words := by simp [search]

@[simp] theorem nextEntry_words {c : HostCmd} {s : State} : (nextEntry c s).scr.words = s.scr.words := by simp [nextEntry]

@[simp] theorem readEntry_words {c : HostCmd} {s : State} : (readEntry c s).scr.words = s.scr.words := by simp [readEntry]

@[simp] theorem retryAfterMove_words {s : State} {c : HostCmd} : (retryAfterMove s c).scr.words = s.scr.words := by simp [retryAfterMove]

@[simp] theorem move_words {c : HostCmd} {s : State} : (move c s).scr.words = s.scr.words := by simp [move]

@[simp] theorem nop_words {c : HostCmd} {s : State} : (nop c s).scr.words = s.scr.words := by simp [nop]

@[simp] theorem flushByPort_words {c : HostCmd} {s : State} : (flushByPort c s).scr.words = s.scr.words := by simp [flushByPort]

@[simp] theorem flushByPortDone_words {s : State} : (flushByPortDone s).scr.words = s.scr.words := by
  unfold flushByPortDone
  dsimp only
  split
  · simp
  · split <;> simp

/-! ## The functions of Machine/Lookup -/

@[simp] theorem learnNew_words {s : State} {n bd mac res : Nat} {shared : Bool} : (learnNew s n bd mac res shared).2.scr.words = s.scr.words := by
  unfold learnNew
  dsimp only
  split
  · simp
  · split <;> simp

@[simp] theorem learnShared_words {s : State} {x : BusMsg} : (learnShared s x).scr.words = s.scr.words := by
  simp only [learnShared]
  split <;> simp

@[simp] theorem learnBusMsg_words {s : State} : (learnBusMsg s).scr.words = s.scr.words := by
  unfold learnBusMsg
  split <;> simp

@[simp] theorem learnRefreshMsg_words {s : State} : (learnRefreshMsg s).scr.words = s.scr.words := by
  unfold learnRefreshMsg
  dsimp only
  split
  · simp
  · split
    · simp
    · split
      · simp
      · split <;> simp

@[simp] theorem ageEntry_words {s : State} {n : Nat} {k : Nat} {e : MacEnt} : (ageEntry s n k e).scr.words = s.scr.words := by simp [ageEntry]

@[simp] theorem ageSweep_words {n : Fin 20} {t : Fin 256} {s : State} : (ageSweep n t s).scr.words = s.scr.words := by simp [ageSweep]

@[simp] theorem trieNodeRebuild_words {s : State} : (trieNodeRebuild s).scr.words = s.scr.words := (rfl)

@[simp] theorem fragStat_words {s : State} {n : Nat} : (fragStat s n).scr.words = s.scr.words := by simp [fragStat]

@[simp] theorem fragPut_words {s : State} {n set : Nat} {l : List FragEnt} : (fragPut s n set l).scr.words = s.scr.words := by simp [fragPut]

@[simp] theorem fragEntryAge_words {n : Fin 20} {set : Fin 1024} {i : Fin 4} {s : State} : (fragEntryAge n set i s).scr.words = s.scr.words := by
  simp only [fragEntryAge]
  split <;> simp

@[simp] theorem fragEmpty_words {s : State} {n : Nat} : (fragEmpty s n).scr.words = s.scr.words := by simp [fragEmpty]

@[simp] theorem fragFlush_words {n : Fin 20} {s : State} : (fragFlush n s).scr.words = s.scr.words := by simp [fragFlush]

end Sys2Proof.Machine

/-! Scratch memory (O11): actions, ramps, lines and the Hall. -/

namespace Sys2Proof.Machine

/-! ## The functions of Machine/Action -/

@[simp] theorem bucketTake_words {s : State} {key rate least : Nat} : (bucketTake s key rate least).2.scr.words = s.scr.words := (rfl)

@[simp] theorem toHostTake_words {s : State} {n : Nat} : (toHostTake s n).2.scr.words = s.scr.words := by simp [toHostTake]

@[simp] theorem polFill_words {s : State} {i : Nat} : (polFill s i).scr.words = s.scr.words := by simp [polFill]

@[simp] theorem polEcc_words {s : State} {i : Nat} : (polEcc s i).scr.words = s.scr.words := by simp [polEcc]

@[simp] theorem meter_words {s : State} {i len : Nat} {dei : Bool} : (meter s i len dei).2.scr.words = s.scr.words := by
  unfold meter
  dsimp only
  split
  · simp
  · split <;> simp

@[simp] theorem policerSweep_words {s : State} : (policerSweep s).scr.words = s.scr.words := by simp [policerSweep]

@[simp] theorem hallPut_words {s : State} {n : Nat} {l : List HallEnt} : (hallPut s n l).scr.words = s.scr.words := by simp [hallPut]

@[simp] theorem hallArrive_words {s : State} {n : Nat} {f : InFrame} {cls : Nat} {h : HallFrame} : (hallArrive s n f cls h).scr.words = s.scr.words := by simp [hallArrive]

@[simp] theorem recircPut_words {s : State} {n : Nat} {l : List InFrame} : (recircPut s n l).scr.words = s.scr.words := by simp [recircPut]

@[simp] theorem recircSlot_words {n : Fin 20} {s : State} : (recircSlot n s).scr.words = s.scr.words := by
  unfold recircSlot
  dsimp only
  split
  · simp
  · split <;> simp

/-! ## The functions of Machine/Ramp -/

@[simp] theorem rampStart_words {s : State} {ks : List Nat} {up : Bool} : (rampStart s ks up).scr.words = s.scr.words := (rfl)

@[simp] theorem rampOne_words {s : State} {k : Nat} {up : Bool} : (rampOne s k up).scr.words = s.scr.words := (rfl)

@[simp] theorem branchRamp_words {s : State} {n st : Nat} : (branchRamp s n st).scr.words = s.scr.words := by simp [branchRamp]

@[simp] theorem relockDiscards_words {s : State} {r : Nat} : (relockDiscards s r).2.scr.words = s.scr.words := by
  unfold relockDiscards
  dsimp only
  split
  · split <;> simp
  · simp

@[simp] theorem loopPut_words {s : State} {x : Nat} {b : Bytes} : (loopPut s x b).scr.words = s.scr.words := (rfl)

@[simp] theorem loopDrop_words {s : State} {x : Nat} : (loopDrop s x).scr.words = s.scr.words := (rfl)

theorem loopTake_words {s : State} {x : Nat} {b : Bytes} {t : State} (h : loopTake s x b = some t) : t.scr.words = s.scr.words := by
  unfold loopTake at h
  split at h
  · cases h
  · split at h <;> cases h
    rfl

/-! ## The functions of Machine/Line -/

@[simp] theorem ballsCarry_words {s : State} {p : Nat} {b : Bytes} : (ballsCarry s p b).scr.words = s.scr.words := (rfl)

@[simp] theorem lineTx_words {s : State} {p : Nat} {b : Bytes} : (lineTx s p b).scr.words = s.scr.words := by
  unfold lineTx
  split <;> simp

theorem lineRx_words {s : State} {p : Nat} {b : Bytes} {t : State} (h : lineRx s p b = some t) : t.scr.words = s.scr.words := by
  unfold lineRx at h
  split at h
  · cases h
    rfl
  · cases h
    simp
  · cases h
  · exact loopTake_words h

@[simp] theorem sendLine_words {s : State} {p : Nat} {b : Bytes} : (sendLine s p b).scr.words = s.scr.words := by simp [sendLine]

@[simp] theorem sendXoff_words {s : State} {p mask : Nat} : (sendXoff s p mask).scr.words = s.scr.words := by simp [sendXoff]

@[simp] theorem xoffChange_words {s : State} {p new : Nat} : (xoffChange s p new).scr.words = s.scr.words := by simp [xoffChange]

@[simp] theorem discardStaged_words {s : State} {p : Nat} : (discardStaged s p).scr.words = s.scr.words := by simp [discardStaged]

@[simp] theorem faultShow_words {s : State} {p : Nat} : (faultShow s p).scr.words = s.scr.words := by simp [faultShow]

@[simp] theorem xoffPay_words {s : State} {p : Nat} : (xoffPay s p).scr.words = s.scr.words := by simp [xoffPay]

@[simp] theorem linkUpdate_words {s : State} {p : Nat} : (linkUpdate s p).scr.words = s.scr.words := by simp [linkUpdate]

@[simp] theorem trainStart_words {s : State} {p : Nat} : (trainStart s p).scr.words = s.scr.words := (rfl)

@[simp] theorem trainStop_words {s : State} {p : Nat} : (trainStop s p).scr.words = s.scr.words := (rfl)

@[simp] theorem txEnter_words {s : State} {p old new : Nat} : (txEnter s p old new).scr.words = s.scr.words := by simp [txEnter]

@[simp] theorem txUpdate_words {s : State} {p : Nat} : (txUpdate s p).scr.words = s.scr.words := by simp [txUpdate]

@[simp] theorem txSettleGroup_words {s : State} {g : Nat} : (txSettleGroup s g).scr.words = s.scr.words := by simp [txSettleGroup]

@[simp] theorem synceSquelch_words {s : State} : (synceSquelch s).scr.words = s.scr.words := by simp [synceSquelch]

@[simp] theorem lockLost_words {s : State} {l : List Nat} : (lockLost s l).scr.words = s.scr.words := by simp [lockLost]

@[simp] theorem lockHeld_words {s : State} {l : List Nat} : (lockHeld s l).scr.words = s.scr.words := by simp [lockHeld]

@[simp] theorem synceResume_words {k : Fin 2} {s : State} : (synceResume k s).scr.words = s.scr.words := by simp [synceResume]

@[simp] theorem lineLaneCalibration_words {g : Fin 20} {l : Fin 8} {ok : Bool} {s : State} : (lineLaneCalibration g l ok s).scr.words = s.scr.words := by simp [lineLaneCalibration]

@[simp] theorem linkTrainingDone_words {p : Fin 160} {ok : Bool} {s : State} : (linkTrainingDone p ok s).scr.words = s.scr.words := by simp [linkTrainingDone]

@[simp] theorem linkTrainingRetry_words {p : Fin 160} {s : State} : (linkTrainingRetry p s).scr.words = s.scr.words := by simp [linkTrainingRetry]

@[simp] theorem retrainStart_words {s : State} {p : Nat} : (retrainStart s p).scr.words = s.scr.words := by simp [retrainStart]

@[simp] theorem pwfAbsent_words {s : State} {addr data : Nat} : (pwfAbsent s addr data).scr.words = s.scr.words := by simp [pwfAbsent]

@[simp] theorem retrain_words {p : Fin 160} {s : State} : (retrain p s).scr.words = s.scr.words := by simp [retrain]

@[simp] theorem adminSet_words {s : State} {p v : Nat} : (adminSet s p v).scr.words = s.scr.words := by simp [adminSet]

@[simp] theorem admin_words {p : Fin 160} {v : Nat} {s : State} : (admin p v s).scr.words = s.scr.words := by simp [admin]

@[simp] theorem linkFault_words {s : State} {p k : Nat} {f : Nat → Fld} {src : Nat} {on : Bool} : (linkFault s p k f src on).scr.words = s.scr.words := by simp [linkFault]

@[simp] theorem linkFaultDetect_words {p : Fin 160} {lanes : Fin 256} {s : State} : (linkFaultDetect p lanes s).scr.words = s.scr.words := by simp [linkFaultDetect]

@[simp] theorem linkFaultClear_words {p : Fin 160} {s : State} : (linkFaultClear p s).scr.words = s.scr.words := by simp [linkFaultClear]

@[simp] theorem remoteFaultReceived_words {p : Fin 160} {s : State} : (remoteFaultReceived p s).scr.words = s.scr.words := by simp [remoteFaultReceived]

@[simp] theorem remoteFaultClear_words {p : Fin 160} {s : State} : (remoteFaultClear p s).scr.words = s.scr.words := by simp [remoteFaultClear]

@[simp] theorem pauseSet_words {s : State} {p mask q : Nat} : (pauseSet s p mask q).scr.words = s.scr.words := (rfl)

@[simp] theorem violation_words {s : State} {p k : Nat} : (violation s p k).scr.words = s.scr.words := by simp [violation]

@[simp] theorem quanta_words {p mask q : Nat} {s : State} : (quanta p mask q s).scr.words = s.scr.words := by simp [quanta]

@[simp] theorem macControl_words {s : State} {p : Nat} {b : Bytes} : (macControl s p b).scr.words = s.scr.words := by simp [macControl]

@[simp] theorem macControlFrame_words {p : Fin 160} {b : Bytes} {s : State} : (macControlFrame p b s).scr.words = s.scr.words := by
  unfold macControlFrame
  split
  · rfl
  · split
    · next h => simp [lineRx_words h]
    · rfl

@[simp] theorem pauseTimerExpire_words {p : Fin 160} {k : Fin 8} {s : State} : (pauseTimerExpire p k s).scr.words = s.scr.words := by simp [pauseTimerExpire]

@[simp] theorem pfcRefresh_words {p : Fin 160} {s : State} : (pfcRefresh p s).scr.words = s.scr.words := by simp [pfcRefresh]

@[simp] theorem stormBegin_words {s : State} {p k : Nat} : (stormBegin s p k).scr.words = s.scr.words := by simp [stormBegin]

@[simp] theorem pfcStormRestore_words {p : Fin 160} {k : Fin 8} {s : State} : (pfcStormRestore p k s).scr.words = s.scr.words := by simp [pfcStormRestore]

/-! ## The functions of Machine/LineRx -/

@[simp] theorem stairPut_words {s : State} {n : Nat} {l : List Arrival} : (stairPut s n l).scr.words = s.scr.words := (rfl)

@[simp] theorem slowFrame_words {s : State} {p : Nat} {b : Bytes} : (slowFrame s p b).scr.words = s.scr.words := by simp [slowFrame]

@[simp] theorem rxGood_words {s : State} {p : Nat} {b : Bytes} : (rxGood s p b).scr.words = s.scr.words := by simp [rxGood]

@[simp] theorem rxFrame_words {s : State} {p : Nat} {b : Bytes} {preambleOk pcsErr fecErr : Bool} : (rxFrame s p b preambleOk pcsErr fecErr).scr.words = s.scr.words := by
  unfold rxFrame
  split
  · simp
  · split
    · simp
    · split
      · simp
      · split
        · simp
        · split <;> simp

@[simp] theorem lineFrameReceive_words {p : Fin 160} {b : Bytes} {preambleOk pcsErr fecErr : Bool} {fecCorr fecUnc : Nat} {s : State} :
    (lineFrameReceive p b preambleOk pcsErr fecErr fecCorr fecUnc s).scr.words = s.scr.words := by
  unfold lineFrameReceive
  split
  · rfl
  · dsimp only
    split
    · simp
    · split
      · next h => simp [lineRx_words h]
      · simp

@[simp] theorem pfcStormDetect_words {p : Fin 160} {k : Fin 8} {s : State} : (pfcStormDetect p k s).scr.words = s.scr.words := by simp [pfcStormDetect]

/-! ## The functions of Machine/Hall -/

@[simp] theorem mirSend_words {s : State} {n key m src rxNs sig : Nat} {b : Bytes} : (mirSend s n key m src rxNs sig b).scr.words = s.scr.words := by
  unfold mirSend
  split <;> simp

@[simp] theorem hallMirrors_words {s : State} {n port : Nat} {h : HallFrame} : (hallMirrors s n port h).scr.words = s.scr.words := by simp [hallMirrors]

@[simp] theorem hallSample_words {s : State} {n : Nat} {x : HostFrame} : (hallSample s n x).scr.words = s.scr.words := by simp [hallSample]

@[simp] theorem hallForward_words {s : State} {n port : Nat} {h : HallFrame} : (hallForward s n port h).scr.words = s.scr.words := by
  unfold hallForward
  split <;> simp

@[simp] theorem hallRelease_words {n : Fin 20} {s : State} : (hallRelease n s).scr.words = s.scr.words := by
  unfold hallRelease
  dsimp only
  split
  · simp
  · split <;> simp

end Sys2Proof.Machine

/-! Scratch memory (O11): buffers, the fabric's operations, Gallery lanes, gates, egress and the scheduler. -/

namespace Sys2Proof.Machine

/-! ## The functions of Machine/Buffers -/

@[simp] theorem putQueue_words {s : State} {q : Nat} {x : Queue} : (putQueue s q x).scr.words = s.scr.words := (rfl)

@[simp] theorem markCross_words {s : State} {m : Mark} : (markCross s m).scr.words = s.scr.words := by simp [markCross]

@[simp] theorem markFollow_words {s : State} {m : Mark} {lvl : Bool} {val : Nat} : (markFollow s m lvl val).scr.words = s.scr.words := by simp [markFollow]

@[simp] theorem monitor_words {s : State} {m : Nat} : (monitor s m).scr.words = s.scr.words := by simp [monitor]

@[simp] theorem queueMarks_words {s : State} {q : Nat} : (queueMarks s q).scr.words = s.scr.words := by simp [queueMarks]

@[simp] theorem setThreshold_words {s : State} {r k w : Nat} : (setThreshold s r k w).scr.words = s.scr.words := (rfl)

@[simp] theorem poolFollow_words {s : State} {r k : Nat} : (poolFollow s r k).scr.words = s.scr.words := by simp [poolFollow]

@[simp] theorem pfcFollow_words {s : State} {p k : Nat} : (pfcFollow s p k).scr.words = s.scr.words := (rfl)

@[simp] theorem xoffFollow_words {s : State} {p : Nat} : (xoffFollow s p).scr.words = s.scr.words := by simp [xoffFollow]

@[simp] theorem bkpFollow_words {s : State} : (bkpFollow s).scr.words = s.scr.words := by simp [bkpFollow]

@[simp] theorem bufFollow_words {s : State} {r k p c : Nat} : (bufFollow s r k p c).scr.words = s.scr.words := by simp [bufFollow]

@[simp] theorem dropCount_words {s : State} {q k : Nat} : (dropCount s q k).scr.words = s.scr.words := by
  unfold dropCount
  split <;> simp

@[simp] theorem avgUpdate_words {s : State} {q w : Nat} : (avgUpdate s q w).scr.words = s.scr.words := (rfl)

@[simp] theorem wredTest_words {s : State} {q w c : Nat} : (wredTest s q w c).2.scr.words = s.scr.words := by
  unfold wredTest
  dsimp only
  split
  · simp
  · split
    · simp
    · split <;> simp

@[simp] theorem congestion_words {s : State} {q colour b : Nat} : (congestion s q colour b).2.scr.words = s.scr.words := by
  unfold congestion
  dsimp only
  split
  · simp
  · split <;> simp

@[simp] theorem wqPut_words {s : State} {i : Nat} {l : List WLine} : (wqPut s i l).scr.words = s.scr.words := by simp [wqPut]

@[simp] theorem allocate_words {s : State} {q : Nat} {x : Buf} {lines : List Nat} : (allocate s q x lines).2.scr.words = s.scr.words := by
  unfold allocate
  split <;> simp

@[simp] theorem enqueue_words {s : State} {q : Nat} {d : Desc} {marked : Bool} : (enqueue s q d marked).scr.words = s.scr.words := by simp [enqueue]

@[simp] theorem diDrained_words {s : State} {i : Nat} : (diDrained s i).scr.words = s.scr.words := by simp [diDrained]

@[simp] theorem releaseBuf_words {s : State} {h : Nat} : (releaseBuf s h).scr.words = s.scr.words := by
  unfold releaseBuf
  split <;> simp

@[simp] theorem popHead_words {s : State} {q : Nat} : (popHead s q).2.scr.words = s.scr.words := by
  simp only [popHead]
  split <;> simp

@[simp] theorem drainQueue_words {count : State → State} {k : Nat} {s : State} {i : Nat} (hcount : ∀ t, (count t).scr.words = t.scr.words) : (drainQueue count k s i).scr.words = s.scr.words := by
  induction k generalizing s with
  | zero => rfl
  | succ n ih =>
    unfold drainQueue
    split
    · next heq => simpa [ih, hcount] using words_of_pair heq popHead_words
    · rfl

@[simp] theorem flushQueue_words {s : State} {q : Nat} {count : State → State} (hcount : ∀ t, (count t).scr.words = t.scr.words) :
    (flushQueue s q count).scr.words = s.scr.words := drainQueue_words hcount

@[simp] theorem sendRequest_words {s : State} {port cls n : Nat} : (sendRequest s port cls n).scr.words = s.scr.words := by simp [sendRequest]

@[simp] theorem voqRequest_words {n : Nat} {s : State} {i : Nat} : (voqRequest n s i).scr.words = s.scr.words := by
  induction n generalizing s with
  | zero => rfl
  | succ k ih =>
    unfold voqRequest
    dsimp only
    split <;> simp [ih]

@[simp] theorem voqAsk_words {s : State} {q : Nat} : (voqAsk s q).scr.words = s.scr.words := by simp [voqAsk]

@[simp] theorem refusedCopy_words {s : State} {n req : Nat} : (refusedCopy s n req).scr.words = s.scr.words := by simp [refusedCopy]

@[simp] theorem flushArrival_words {s : State} {q n : Nat} : (flushArrival s q n).scr.words = s.scr.words := by simp [flushArrival]

@[simp] theorem takeIn_words {s : State} {q : Nat} {x : Buf} {stored : Nat} {sramOnly : Bool} {lines : List Nat} : (takeIn s q x stored sramOnly lines).2.scr.words = s.scr.words := by
  unfold takeIn
  split
  · simp
  · simp
  · split
    · next heq => simpa using words_of_pair heq congestion_words
    · next heq =>
      have hs1 := words_of_pair heq congestion_words
      split <;> simpa using hs1

@[simp] theorem arriveOne_words {s : State} {a : Arrival} {q sysPort : Nat} : (arriveOne s a q sysPort).2.scr.words = s.scr.words := by
  unfold arriveOne
  dsimp only
  split <;> (next heq => simpa using words_of_pair heq takeIn_words)

@[simp] theorem sharedAttach_words {s : State} {q : Nat} {nh : Option Nat} {mark : Bool} {h : Nat} : (sharedAttach s q nh mark h).scr.words = s.scr.words := by simp [sharedAttach]

@[simp] theorem sharedTarget_words {x : Buf} {k stored : Nat} {st : State × Option Nat × List Waiting} {t : Nat × Option Nat} :
    (sharedTarget x k stored st t).1.scr.words = st.1.scr.words := by
  obtain ⟨s, have_, wait⟩ := st
  unfold sharedTarget
  dsimp only
  split
  · simp
  · split
    · next heq => simpa using words_of_pair heq congestion_words
    · next heq =>
      have hs1 := words_of_pair heq congestion_words
      split
      · exact hs1
      · split
        · exact hs1
        · simpa using hs1

@[simp] theorem sharedAdmit_words {s : State} {x : Buf} {stored : Nat} {targets : List (Nat × Option Nat)} : (sharedAdmit s x stored targets).2.2.scr.words = s.scr.words := by
  unfold sharedAdmit
  split
  · exact foldl_words fun a t => by split <;> simp
  · dsimp only
    split <;> simp

@[simp] theorem sharedPlace_words {s : State} {h : Nat} {l : List Waiting} : (sharedPlace s h l).scr.words = s.scr.words := by simp [sharedPlace]

@[simp] theorem enqueueWhole_words {s : State} {q : Nat} {d : Desc} {mark : Bool} : (enqueueWhole s q d mark).scr.words = s.scr.words := by
  unfold enqueueWhole
  split <;> simp

@[simp] theorem sharedWhole_words {s : State} {h : Nat} {l : List Waiting} : (sharedWhole s h l).scr.words = s.scr.words := by
  have hattach : (l.foldl (fun a w => match shutSlice a w.q with | some n => flushArrival a w.q n | none => sharedAttach a w.q w.nh w.mark h) s).scr.words = s.scr.words :=
    foldl_words fun a w => by split <;> simp
  unfold sharedWhole
  dsimp only
  split
  · split
    · exact releaseBuf_words.trans hattach
    · exact hattach
  · exact hattach

@[simp] theorem arriveShared_words {s : State} {a : Arrival} {targets : List (Nat × Option Nat)} : (arriveShared s a targets).scr.words = s.scr.words := by
  unfold arriveShared
  split <;> (next heq => simpa using words_of_triple heq sharedAdmit_words)

@[simp] theorem arriveSample_words {s : State} {n : Nat} {a : Arrival} {rcd : HostFrame} : (arriveSample s n a rcd).scr.words = s.scr.words := by
  unfold arriveSample
  split
  · simp
  · split
    · rw [refusedCopy_words]
      split <;> simp
    · simp

@[simp] theorem arriveProbe_words {s : State} {a : Arrival} {q : Nat} : (arriveProbe s a q).scr.words = s.scr.words := by
  unfold arriveProbe
  split
  · split
    · split <;> simp
    · simp
  · simp
  · simp

@[simp] theorem probeEnd_words {s : State} {q : Nat} {x : Probe} : (probeEnd s q x).scr.words = s.scr.words := by
  unfold probeEnd
  split <;> simp

@[simp] theorem arrive_words {s : State} {n : Nat} {a : Arrival} : (arrive s n a).scr.words = s.scr.words := by
  unfold arrive
  split
  · simp
  · split
    · split <;> simp
    · simp
    · simp
    · simp

@[simp] theorem bufferArrival_words {lane : Fin 52} {s : State} : (bufferArrival lane s).scr.words = s.scr.words := by
  unfold bufferArrival
  split <;> simp

@[simp] theorem wmCrossedClear_words {monitorNotPool : Bool} {i : Nat} {s : State} : (wmCrossedClear monitorNotPool i s).scr.words = s.scr.words := by simp [wmCrossedClear]

theorem monitorWritten_words {s : State} {m v : Nat} : (monitorWritten s m v).scr.words = s.scr.words := by
  unfold monitorWritten
  simp only [wr_scr]

theorem monitorAnew_words {m : Fin 4096} {v : Nat} {s : State} : (monitorAnew m v s).scr.words = s.scr.words := by
  unfold monitorAnew
  split
  · exact monitor_words.trans monitorWritten_words
  · exact monitorWritten_words

@[simp] theorem qwmConfig_words {m : Fin 4096} {v : Nat} {s : State} : (qwmConfig m v s).scr.words = s.scr.words := by
  rw [qwmConfig_eq]
  exact operWrite_words fun _ => monitorAnew_words

/-! ## The functions of Machine/Fab -/

@[simp] theorem putRx_words {s : State} {g l : Nat} {x : RxLane} : (putRx s g l x).scr.words = s.scr.words := (rfl)

@[simp] theorem putTx_words {s : State} {g l : Nat} {x : TxLane} : (putTx s g l x).scr.words = s.scr.words := (rfl)

@[simp] theorem carvCarry_words {s : State} {k : Nat} {b : Bytes} : (carvCarry s k b).scr.words = s.scr.words := (rfl)

@[simp] theorem carvTx_words {s : State} {k loop_ : Nat} {b : Bytes} : (carvTx s k loop_ b).scr.words = s.scr.words := by
  unfold carvTx
  split <;> simp

theorem carvRx_words {s : State} {k loop_ : Nat} {b : Bytes} {t : State} (h : carvRx s k loop_ b = some t) : t.scr.words = s.scr.words := by
  unfold carvRx at h
  split at h
  · cases h
    rfl
  · cases h
    simp
  · exact loopTake_words h

@[simp] theorem setWtr_words {s : State} {w : Option (Nat × Nat)} : (setWtr s w).scr.words = s.scr.words := (rfl)

@[simp] theorem wtrFollow_words {s t : State} : (wtrFollow s t).scr.words = t.scr.words := by
  unfold wtrFollow
  split
  · simp
  · split <;> simp

@[simp] theorem pmDefect_words {s : State} {k : Nat} : (pmDefect s k).scr.words = s.scr.words := (rfl)

@[simp] theorem laneEmpty_words {s : State} {g l : Nat} : (laneEmpty s g l).scr.words = s.scr.words := by simp [laneEmpty]

@[simp] theorem fabTrainStop_words {s : State} {g : Nat} : (fabTrainStop s g).scr.words = s.scr.words := by simp [fabTrainStop]

@[simp] theorem fabTxUpdate_words {s : State} {g : Nat} : (fabTxUpdate s g).scr.words = s.scr.words := by simp [fabTxUpdate]

@[simp] theorem groupLevels_words {s : State} {g : Nat} : (groupLevels s g).scr.words = s.scr.words := by simp [groupLevels]

@[simp] theorem groupFollow_words {s : State} {g : Nat} : (groupFollow s g).scr.words = s.scr.words := by simp [groupFollow]

@[simp] theorem fabFollow_words {s t : State} : (fabFollow s t).scr.words = t.scr.words := by simp [fabFollow]

@[simp] theorem fabFollowGroup_words {s t : State} {g : Nat} : (fabFollowGroup s t g).scr.words = t.scr.words := by simp [fabFollowGroup]

/-! ## The functions of Machine/GalLane -/

@[simp] theorem galPut_words {s : State} {l : Nat} {x : RxLane} : (galPut s l x).scr.words = s.scr.words := (rfl)

@[simp] theorem pairShow_words {s : State} : (pairShow s).scr.words = s.scr.words := by simp [pairShow]

@[simp] theorem galSeqNext_words {s : State} {k : Nat} : (galSeqNext s k).scr.words = s.scr.words := (rfl)

@[simp] theorem galControl_words {s : State} {body : List Nat} : (galControl s body).scr.words = s.scr.words := (rfl)

@[simp] theorem replayStart_words {s : State} : (replayStart s).scr.words = s.scr.words := (rfl)

@[simp] theorem resyncAsk_words {s : State} : (resyncAsk s).scr.words = s.scr.words := by simp [resyncAsk]

@[simp] theorem syncLost_words {s : State} : (syncLost s).scr.words = s.scr.words := by simp [syncLost]

@[simp] theorem galRise_words {s : State} : (galRise s).scr.words = s.scr.words := by simp [galRise]

@[simp] theorem galFall_words {s : State} : (galFall s).scr.words = s.scr.words := by simp [galFall]

@[simp] theorem galEmpty_words {s : State} {l : Nat} : (galEmpty s l).scr.words = s.scr.words := by simp [galEmpty]

@[simp] theorem galFollow_words {s : State} : (galFollow s).scr.words = s.scr.words := by simp [galFollow]

theorem galTake_words {s : State} {k : Nat} {p : GalPick} (h : galTake s k = some p) : p.s.scr.words = s.scr.words := by
  unfold galTake at h
  split at h
  · cases h
    rfl
  · cases h

@[simp] theorem cmdSent_words {s : State} {q n : Nat} : (cmdSent s q n).scr.words = s.scr.words := by simp [cmdSent]

theorem cmdNext_words {s : State} {p : GalPick} (h : cmdNext s = some p) : p.s.scr.words = s.scr.words := by
  unfold cmdNext at h
  dsimp only at h
  cases ht : galTake s 2 with
  | some q =>
    rw [ht] at h
    cases h
    exact galTake_words ht
  | none =>
    rw [ht] at h
    change (if _ then _ else none) = some p at h
    split at h
    · split at h
      · cases h
        simp
      · cases h
    · cases h

@[simp] theorem regionBegin_words {s : State} : (regionBegin s).scr.words = s.scr.words := by
  unfold regionBegin
  split <;> simp

theorem replayNext_words {s : State} {p : GalPick} (h : replayNext s = some p) : p.s.scr.words = s.scr.words := by
  unfold replayNext at h
  split at h
  · cases ht : galTake s 4 with
    | some q =>
      rw [ht] at h
      cases h
      exact galTake_words ht
    | none =>
      rw [ht] at h
      exact (galTake_words h).trans regionBegin_words
  · cases h

theorem faultNext_words {s : State} {p : GalPick} (h : faultNext s = some p) : p.s.scr.words = s.scr.words := by
  unfold faultNext at h
  dsimp only at h
  split at h
  · split at h <;> cases h
    simp
  · cases h
    simp

@[simp] theorem controlNext_words {s : State} : (controlNext s).s.scr.words = s.scr.words := by
  unfold controlNext
  cases h : galTake s 1 with
  | some p => exact galTake_words h
  | none => rfl

theorem pick_words {s : State} {o : Option GalPick} (h : ∀ {p}, o = some p → p.s.scr.words = s.scr.words) : (o.getD { s := s }).s.scr.words = s.scr.words := by
  cases o with
  | none => rfl
  | some p => exact h rfl

theorem orElse_pick_words {s : State} {o : Option GalPick} {f : Unit → Option GalPick} (ho : ∀ {p}, o = some p → p.s.scr.words = s.scr.words) (hf : ∀ {p}, f () = some p → p.s.scr.words = s.scr.words)
    {p : GalPick} (h : o.orElse f = some p) : p.s.scr.words = s.scr.words := by
  cases o with
  | none => exact hf h
  | some q => exact ho h

@[simp] theorem galNext_words {s : State} {st half : Nat} : (galNext s st half).s.scr.words = s.scr.words := by
  unfold galNext
  dsimp only
  refine pick_words (orElse_pick_words galTake_words (orElse_pick_words cmdNext_words (orElse_pick_words (fun h => ?_) (orElse_pick_words replayNext_words (orElse_pick_words galTake_words faultNext_words)))))
  split at h
  · cases h
  · exact galTake_words h

@[simp] theorem galSlot_words {half : Nat} {x : GalFill} {l : Nat} : (galSlot half x l).s.scr.words = x.s.scr.words := by
  unfold galSlot
  split <;> simp

@[simp] theorem galLaneFrame_words {s : State} {cells : NMap (List Bytes)} {l : Nat} : (galLaneFrame s cells l).scr.words = s.scr.words := by simp [galLaneFrame]

@[simp] theorem galFrameSend_words {s : State} : (galFrameSend s).scr.words = s.scr.words := by
  unfold galFrameSend
  dsimp only
  split
  · rfl
  · refine (foldl_words fun a l => galLaneFrame_words).trans ?_
    exact foldl_words_by (g := GalFill.s) (fun y _ => foldl_words_by (g := GalFill.s) (fun _ _ => galSlot_words) y _) { s := s } _

@[simp] theorem galTrailDone_words {s : State} {l : Nat} {x : RxLane} {t : Bytes} : (galTrailDone s l x t).1.scr.words = s.scr.words := by
  unfold galTrailDone
  split <;> simp

@[simp] theorem ackTake_words {s : State} {q : Nat} : (ackTake s q).scr.words = s.scr.words := by simp [ackTake]

@[simp] theorem galOverheadReceive_words {s : State} {l : Nat} {x : RxLane} {b : Bytes} {was goesOn : Bool} : (galOverheadReceive s l x b was goesOn).scr.words = s.scr.words := by
  unfold galOverheadReceive
  dsimp only
  split
  · split <;> simp
  · simp

@[simp] theorem galCellTake_words {s : State} {b : Bytes} : (galCellTake s b).scr.words = s.scr.words := by simp [galCellTake]

@[simp] theorem galGive_words {s : State} {l : Nat} {x : RxLane} {f : List Bytes} : (galGive s l x f).scr.words = s.scr.words := by simp [galGive]

@[simp] theorem galWrite_words {s : State} {l : Nat} {f : List Bytes} : (galWrite s l f).scr.words = s.scr.words := by simp [galWrite]

@[simp] theorem galFrameTake_words {l : Nat} {frame : Bytes} {fecLost : Bool} {s : State} : (galFrameTake l frame fecLost s).scr.words = s.scr.words := by simp [galFrameTake]

@[simp] theorem galFrameReceive_words {l : Nat} {frame : Bytes} {fecLost : Bool} {s : State} : (galFrameReceive l frame fecLost s).scr.words = s.scr.words := by
  unfold galFrameReceive
  split
  · rfl
  · split
    · rfl
    · next h => simp [carvRx_words h]

@[simp] theorem galOldest_words {s : State} {l : Nat} {x : RxLane} : (galOldest s l x).scr.words = s.scr.words := by
  unfold galOldest
  split <;> simp

@[simp] theorem galSlipRead_words {l : Nat} {part : Bool} {s : State} : (galSlipRead l part s).scr.words = s.scr.words := by simp [galSlipRead]

@[simp] theorem galDefects_words {s : State} {l m : Nat} : (galDefects s l m).scr.words = s.scr.words := by simp [galDefects]

@[simp] theorem galDeclare_words {l d : Nat} {s : State} : (galDeclare l d s).scr.words = s.scr.words := by simp [galDeclare]

@[simp] theorem galClear_words {l d : Nat} {s : State} : (galClear l d s).scr.words = s.scr.words := by simp [galClear]

/-! ## The functions of Machine/Gates -/

@[simp] theorem putGate_words {s : State} {p : Nat} {g : GateSt} : (putGate s p g).scr.words = s.scr.words := (rfl)

@[simp] theorem gateShow_words {s : State} {p : Nat} : (gateShow s p).scr.words = s.scr.words := by simp [gateShow]

@[simp] theorem gateEntryChange_words {p : Fin 160} {s : State} : (gateEntryChange p s).scr.words = s.scr.words := by simp [gateEntryChange]

@[simp] theorem gateActivate_words {p : Fin 160} {s : State} : (gateActivate p s).scr.words = s.scr.words := by
  simp only [gateActivate]
  split <;> simp

@[simp] theorem words_gateChange_ {s : State} {p : Nat} : (gateChange_ s p).scr.words = s.scr.words := by simp [gateChange_]

@[simp] theorem words_gateCancel_ {s : State} {p : Nat} : (gateCancel_ s p).scr.words = s.scr.words := by
  unfold gateCancel_
  split <;> simp

@[simp] theorem gateCtl_words {s : State} {p v : Nat} : (gateCtl s p v).scr.words = s.scr.words := by simp [gateCtl]

@[simp] theorem gateEnable_words {p : Fin 160} {en : Bool} {s : State} : (gateEnable p en s).scr.words = s.scr.words := by simp [gateEnable]

@[simp] theorem gateChange_words {p : Fin 160} {s : State} : (gateChange p s).scr.words = s.scr.words := by simp [gateChange]

@[simp] theorem gateCancel_words {p : Fin 160} {s : State} : (gateCancel p s).scr.words = s.scr.words := by simp [gateCancel]

/-! ## The functions of Machine/Egress -/

@[simp] theorem hostQueue_words {s : State} {x : HostFrame} : (hostQueue s x).scr.words = s.scr.words := (rfl)

@[simp] theorem stairUpMove_words {s : State} {lane : Nat} {a : Arrival} {rest : List Arrival} {ok : Bool} :
    (stairUpMove s lane a rest ok).scr.words = s.scr.words := by simp [stairUpMove]

@[simp] theorem stairDownMove_words {s : State} {lane : Nat} {f : EgFrame} {rest : List EgFrame} {ok : Bool} :
    (stairDownMove s lane f rest ok).scr.words = s.scr.words := by simp [stairDownMove]

@[simp] theorem stairTransfer_words {up : Bool} {lane : Fin 52} {retries : Fin 5} {ok : Bool} {s : State} : (stairTransfer up lane retries ok s).scr.words = s.scr.words := by
  unfold stairTransfer
  split
  · split
    · split <;> simp
    · split <;> simp
  · split
    · split <;> simp
    · split <;> simp

@[simp] theorem ecnStep_words {s : State} {n : Nat} {b : Bytes} {ce : Bool} : (ecnStep s n b ce).2.scr.words = s.scr.words := by
  unfold ecnStep
  dsimp only
  split
  · simp
  · split <;> simp

@[simp] theorem egressPolicy_words {s : State} {v : Nat} {b : Bytes} : (egressPolicy s v b).2.scr.words = s.scr.words := by
  unfold egressPolicy
  dsimp only
  split
  · split <;> simp
  · split <;> simp

@[simp] theorem mtuExceeded_words {s : State} {n : Nat} {f : EgFrame} : (mtuExceeded s n f).scr.words = s.scr.words := by simp [mtuExceeded]

theorem macRefuses_words {s : State} {p : Nat} {t : State} (h : macRefuses s p = some t) : t.scr.words = s.scr.words := by
  unfold macRefuses at h
  split at h
  · cases h
    simp
  · split at h <;> cases h
    simp

@[simp] theorem egressMirror_words {s : State} {n p : Nat} {h : Hdr} {b : Bytes} : (egressMirror s n p h b).scr.words = s.scr.words := by simp [egressMirror]

@[simp] theorem stageFrame_words {s : State} {n : Nat} {f : EgFrame} : (stageFrame s n f).scr.words = s.scr.words := by
  unfold stageFrame
  split
  · next h => exact macRefuses_words h
  · simp

@[simp] theorem egressFinish_words {s : State} {n : Nat} {f : EgFrame} {e : Option Nat} {b : Bytes} : (egressFinish s n f e b).scr.words = s.scr.words := by simp [egressFinish]

@[simp] theorem egressFrame_words {s : State} {n : Nat} {f : EgFrame} : (egressFrame s n f).scr.words = s.scr.words := by
  unfold egressFrame
  dsimp only
  split
  · next heq => simpa using words_of_pair heq ecnStep_words
  · next heq =>
    have hs1 := words_of_pair heq ecnStep_words
    (repeat' split) <;> simpa using hs1

@[simp] theorem egressPass_words {n : Fin 20} {s : State} : (egressPass n s).scr.words = s.scr.words := by
  unfold egressPass
  split <;> simp

@[simp] theorem ptpTwoStep_words {s : State} {p : Nat} {h : Hdr} {tx : Ptp} : (ptpTwoStep s p h tx).scr.words = s.scr.words := by simp [ptpTwoStep]

@[simp] theorem macSend_words {s : State} {p : Nat} {f : EgFrame} : (macSend s p f).scr.words = s.scr.words := by
  unfold macSend
  split
  · split <;> simp
  · split <;> simp

@[simp] theorem stageRest_words {s : State} {p k : Nat} {r : List EgFrame} : (stageRest s p k r).scr.words = s.scr.words := (rfl)

@[simp] theorem stagedFrameStart_words {p : Fin 160} {k : Fin 8} {s : State} : (stagedFrameStart p k s).scr.words = s.scr.words := by
  unfold stagedFrameStart
  split
  · rfl
  · split
    · next h => simp [macRefuses_words h]
    · split <;> simp

@[simp] theorem gateNofit_words {p : Fin 160} {k : Fin 8} {s : State} : (gateNofit p k s).scr.words = s.scr.words := by
  unfold gateNofit
  split <;> simp

/-! ## The functions of Machine/Sched -/

@[simp] theorem rrPut_words {s : State} {k c : Nat} : (rrPut s k c).scr.words = s.scr.words := (rfl)

@[simp] theorem requestRetry_words {q : Fin 1048576} {s : State} : (requestRetry q s).scr.words = s.scr.words := by simp [requestRetry]

@[simp] theorem voqTimeout_words {q : Fin 1048576} {s : State} : (voqTimeout q s).scr.words = s.scr.words := by simp [voqTimeout]

@[simp] theorem partnerBad_words {s : State} {g k : Nat} : (partnerBad s g k).scr.words = s.scr.words := by simp [partnerBad]

@[simp] theorem creditArrive_words {g port cls : Nat} {s : State} : (creditArrive g port cls s).scr.words = s.scr.words := by
  unfold creditArrive
  split <;> simp

@[simp] theorem creditPaced_words {s : State} {port : Nat} : (creditPaced s port).scr.words = s.scr.words := (rfl)

@[simp] theorem creditGrant_words {port : Fin 65536} {s : State} : (creditGrant port s).scr.words = s.scr.words := by
  unfold creditGrant
  dsimp only
  split
  · simp
  · split
    · simp
    · split <;> simp

@[simp] theorem sendCells_words {s : State} {dst cls : Nat} {h : Hdr} {data : Bytes} : (sendCells s dst cls h data).scr.words = s.scr.words := by simp [sendCells]

@[simp] theorem deliver_words {s : State} {q : Nat} {d : Desc} : (deliver s q d).scr.words = s.scr.words := by
  unfold deliver
  split <;> simp

@[simp] theorem leaveReady_words {n : Nat} {s : State} {i : Nat} : (leaveReady n s i).scr.words = s.scr.words := by
  induction n generalizing s with
  | zero => rfl
  | succ k ih =>
    unfold leaveReady
    dsimp only
    split <;> simp [ih]

@[simp] theorem leave_words {s : State} {q : Nat} {d : Desc} {readable : Bool} : (leave s q d readable).scr.words = s.scr.words := by simp [leave]

@[simp] theorem takeOff_words {s : State} {q : Nat} {d : Desc} {b : Buf} {bad : Bool} : (takeOff s q d b bad).scr.words = s.scr.words := by
  unfold takeOff
  split <;> simp

@[simp] theorem skipped_words {s : State} {n : Nat} : (skipped s n).scr.words = s.scr.words := by simp [skipped]

@[simp] theorem voqSpend_words {s : State} {q : Nat} {b : Buf} : (voqSpend s q b).scr.words = s.scr.words := by simp [voqSpend]

@[simp] theorem voqTake_words {s : State} {q : Nat} {bad : Bool} : (voqTake s q bad).scr.words = s.scr.words := by
  unfold voqTake
  split
  · rfl
  · next heq =>
    have hs1 := words_of_pair heq popHead_words
    split
    · exact hs1
    · dsimp only
      (repeat' split) <;> simpa using hs1

@[simp] theorem voqDequeue_words {bad : Bool} {s : State} : (voqDequeue bad s).scr.words = s.scr.words := by
  unfold voqDequeue
  dsimp only
  split
  · simp
  · split <;> simp

@[simp] theorem dwrrFill_words {s : State} {l : List Nat} : (dwrrFill s l).scr.words = s.scr.words := by
  unfold dwrrFill
  split <;> simp

theorem pickChild_words {s : State} {n : Nat} {kids : List Nat} {v0 : Nat} {v1 : Bool} {v2 : State} (h : pickChild s n kids = some (v0, v1, v2)) : v2.scr.words = s.scr.words := by
  unfold pickChild at h
  dsimp only at h
  split at h
  · cases h
  · obtain ⟨c, -, hc⟩ := Option.map_eq_some_iff.mp h
    cases hc
    simp

@[simp] theorem pickPath_words {n : Nat} {s : State} {i : Nat} {l : List (List Nat)} : (pickPath n s i l).2.scr.words = s.scr.words := by
  induction n generalizing s i l with
  | zero => rfl
  | succ k ih =>
    unfold pickPath
    split
    · rfl
    · next h => exact ih.trans (pickChild_words h)

@[simp] theorem nodePay_words {s : State} {c len : Nat} {excess : Bool} : (nodePay s c len excess).scr.words = s.scr.words := by simp [nodePay]

@[simp] theorem emptied_words {s : State} {q : Nat} : (emptied s q).scr.words = s.scr.words := by
  unfold emptied
  split <;> simp

@[simp] theorem egressSelect_words {n : Fin 161} {bad : Bool} {s : State} : (egressSelect n bad s).scr.words = s.scr.words := by
  unfold egressSelect
  dsimp only
  split
  · rfl
  · split
    · next hpath =>
      have hs1 := words_of_pair hpath pickPath_words
      rw [words_ite, perf_scr, ite_self] at hs1
      split
      · rfl
      · next hpop =>
        have hs2 := (words_of_pair hpop popHead_words).trans hs1
        split
        · exact hs2
        · simpa using hs2
    · simp

@[simp] theorem calendarSlot_words {s : State} : (calendarSlot s).scr.words = s.scr.words := (rfl)

@[simp] theorem fenceEnd_words {s : State} {f : Fence} : (fenceEnd s f).scr.words = s.scr.words := (rfl)

@[simp] theorem fenceLift_words {i : Nat} {s : State} : (fenceLift i s).scr.words = s.scr.words := by
  unfold fenceLift
  split <;> simp

@[simp] theorem fenceTimeout_words {i : Nat} {s : State} : (fenceTimeout i s).scr.words = s.scr.words := by
  unfold fenceTimeout
  split <;> simp

@[simp] theorem epochWindow_words {s : State} : (epochWindow s).scr.words = s.scr.words := by simp [epochWindow]

end Sys2Proof.Machine

/-! Scratch memory (O11): fabric lanes and cells, DRAM, maintenance, slices, clocks, power and loading. -/

namespace Sys2Proof.Machine

/-! ## The functions of Machine/FabTx -/

@[simp] theorem fabricLaneCalibration_words {g : Fin 8} {l : Fin 28} {ok : Bool} {s : State} :
    (fabricLaneCalibration g l ok s).scr.words = s.scr.words := by simp [fabricLaneCalibration]

@[simp] theorem fabricLinkTrainingDone_words {g : Fin 8} {l : Fin 28} {ok : Bool} {s : State} :
    (fabricLinkTrainingDone g l ok s).scr.words = s.scr.words := by simp [fabricLinkTrainingDone]

@[simp] theorem fabricTrainingRetry_words {g : Fin 8} {l : Fin 28} {s : State} : (fabricTrainingRetry g l s).scr.words = s.scr.words := by simp [fabricTrainingRetry]

theorem nextOther_words {s : State} {v0 : Cell} {v1 : State} (h : nextOther s = some (v0, v1)) : v1.scr.words = s.scr.words := by
  unfold nextOther at h
  split at h
  · cases h
    rfl
  · split at h
    · cases h
      rfl
    · split at h <;> cases h
      rfl

theorem nextData_words {s : State} {g : Nat} {v0 : Cell} {v1 : State} (h : nextData s g = some (v0, v1)) : v1.scr.words = s.scr.words := by
  unfold nextData at h
  split at h <;> cases h
  rfl

theorem nextCell_words {s : State} {g nd : Nat} {v0 : Cell} {v1 : State} (h : nextCell s g nd = some (v0, v1)) : v1.scr.words = s.scr.words := by
  unfold nextCell at h
  split at h
  · split at h
    · next hother =>
      cases h
      exact nextOther_words hother
    · exact nextData_words h
  · exact nextData_words h

@[simp] theorem fillSlot_words {lanes : List (Nat × Nat)} {x : State × Placed} : (fillSlot lanes x).1.scr.words = x.1.scr.words := foldl_fst_words fun x gl => by
  dsimp only
  split
  · next h => simp [nextCell_words h]
  · rfl

@[simp] theorem fillSlots_words {lanes : List (Nat × Nat)} {n : Nat} {x : State × Placed} : (fillSlots lanes n x).1.scr.words = x.1.scr.words := by
  induction n generalizing x with
  | zero => rfl
  | succ k ih => exact ih.trans fillSlot_words

@[simp] theorem laneFrame_words {s : State} {g l : Nat} {cells : List Cell} : (laneFrame s g l cells).scr.words = s.scr.words := by simp [laneFrame]

@[simp] theorem sendAll_words {s : State} {p : Placed} : (sendAll s p).scr.words = s.scr.words := by simp [sendAll]

@[simp] theorem nextMfas_words {s : State} : (nextMfas s).scr.words = s.scr.words := (rfl)

@[simp] theorem sprayChange_words {s : State} : (sprayChange s).scr.words = s.scr.words := by simp [sprayChange]

@[simp] theorem caravanFrameSend_words {gal : Bool} {s : State} : (caravanFrameSend gal s).scr.words = s.scr.words := by simp [caravanFrameSend]

/-! ## The functions of Machine/Dram -/

@[simp] theorem diEnter_words {s : State} {i st : Nat} : (diEnter s i st).scr.words = s.scr.words := (rfl)

@[simp] theorem diTrain_words {s : State} {i : Nat} : (diTrain s i).scr.words = s.scr.words := (rfl)

@[simp] theorem dramPools_words {s : State} : (dramPools s).scr.words = s.scr.words := by simp [dramPools]

@[simp] theorem diPerf_words {s : State} {i e n : Nat} : (diPerf s i e n).scr.words = s.scr.words := by simp [diPerf]

@[simp] theorem diFail_words {s : State} {i : Nat} : (diFail s i).scr.words = s.scr.words := by simp [diFail]

@[simp] theorem diLinkFail_words {s : State} {i loc detail : Nat} : (diLinkFail s i loc detail).scr.words = s.scr.words := by simp [diLinkFail]

@[simp] theorem tagUse_words {s : State} {i h j : Nat} : (tagUse s i h j).scr.words = s.scr.words := by simp [tagUse]

@[simp] theorem tagChange_words {s : State} {i h j : Nat} : (tagChange s i h j).scr.words = s.scr.words := by simp [tagChange]

@[simp] theorem tagWriteback_words {i : Fin 24} {retries : Nat} {ok : Bool} {s : State} : (tagWriteback i retries ok s).scr.words = s.scr.words := by
  unfold tagWriteback
  split <;> simp

@[simp] theorem lineWritten_words {s : State} {i : Nat} {x : WLine} {b : Bytes} {poisoned : Bool} : (lineWritten s i x b poisoned).scr.words = s.scr.words := by simp [lineWritten]

@[simp] theorem lineMerge_words {s : State} {i : Nat} {x : WLine} {new : Bytes} {flip : Nat} : (lineMerge s i x new flip).2.2.scr.words = s.scr.words := by simp [lineMerge]

@[simp] theorem bufFail_words {s : State} {h : Nat} : (bufFail s h).scr.words = s.scr.words := (rfl)

@[simp] theorem writeLine_words {s : State} {i : Nat} {x : WLine} {b : Buf} {ok : Bool} {flip : Nat} : (writeLine s i x b ok flip).scr.words = s.scr.words := by
  unfold writeLine
  split <;> simp

@[simp] theorem dramWriteComplete_words {i : Fin 24} {retries : Nat} {ok : Bool} {flip : Nat} {s : State} : (dramWriteComplete i retries ok flip s).scr.words = s.scr.words := by
  unfold dramWriteComplete
  dsimp only
  split
  · simp
  · split <;> simp

@[simp] theorem mergeTimeout_words {i : Fin 24} {s : State} : (mergeTimeout i s).scr.words = s.scr.words := by
  simp only [mergeTimeout]
  split <;> simp

@[simp] theorem leavingSet_words {s : State} {q k : Nat} {keep : Bool} : (leavingSet s q k keep).scr.words = s.scr.words := (rfl)

@[simp] theorem lineFails_words {i h : Nat} {s : State} {e : Nat × LRead} : (lineFails i h s e).scr.words = s.scr.words := by simp [lineFails]

@[simp] theorem lineLost_words {i h : Nat} {s : State} {j : Nat} : (lineLost i h s j).scr.words = s.scr.words := by simp [lineLost]

@[simp] theorem readDrop_words {s : State} {q k r h : Nat} : (readDrop s q k r h).scr.words = s.scr.words := by simp [readDrop]

@[simp] theorem readTaken_words {s : State} {h : Nat} {b : Buf} {l : List (Nat × LRead)} : (readTaken s h b l).scr.words = s.scr.words := (rfl)

@[simp] theorem readFrame_words {s : State} {q k : Nat} {d : Desc} {b : Buf} {retries : Nat} {failed : List Nat} {flips : NMap Nat} :
    (readFrame s q k d b retries failed flips).scr.words = s.scr.words := by simp [readFrame]

@[simp] theorem dramReadComplete_words {q : Fin 1048576} {k retries : Nat} {failed : List Nat} {flips : NMap Nat} {s : State} :
    (dramReadComplete q k retries failed flips s).scr.words = s.scr.words := by
  unfold dramReadComplete
  split
  · split <;> simp
  · simp

@[simp] theorem fallDue_words {s : State} {a res : Nat} : (fallDue s a res).scr.words = s.scr.words := by simp [fallDue]

@[simp] theorem stepEnds_words {s : State} {a res : Nat} : (stepEnds s a res).scr.words = s.scr.words := (rfl)

@[simp] theorem dramTraining_words {i : Fin 24} {ok : Bool} {s : State} : (dramTraining i ok s).scr.words = s.scr.words := by simp [dramTraining]

@[simp] theorem refreshBank_words {s : State} {i bank : Nat} : (refreshBank s i bank).scr.words = s.scr.words := by simp [refreshBank]

@[simp] theorem dramRefresh_words {i : Fin 24} {bank : Fin 64} {s : State} : (dramRefresh i bank s).scr.words = s.scr.words := by simp [dramRefresh]

@[simp] theorem readout_words {s : State} {i t : Nat} : (readout s i t).scr.words = s.scr.words := by
  unfold readout
  split <;> simp

@[simp] theorem readoutFails_words {s : State} {i : Nat} : (readoutFails s i).scr.words = s.scr.words := by simp [readoutFails]

@[simp] theorem dramTempReadout_words {i : Fin 24} {t : Option (Fin 256)} {s : State} : (dramTempReadout i t s).scr.words = s.scr.words := by
  unfold dramTempReadout
  split
  · simp
  · split <;> simp

@[simp] theorem retrainDue_words {i : Fin 24} {s : State} : (retrainDue i s).scr.words = s.scr.words := by simp [retrainDue]

@[simp] theorem diCtl_words {i v : Nat} {s : State} : (diCtl i v s).scr.words = s.scr.words := by simp [diCtl]

@[simp] theorem drcRetrain_words {i : Fin 24} {s : State} : (drcRetrain i s).scr.words = s.scr.words := by simp [drcRetrain]

@[simp] theorem pauseBegin_words {i : Fin 24} {s : State} : (pauseBegin i s).scr.words = s.scr.words := by simp [pauseBegin]

@[simp] theorem diOut_words {s : State} {i : Nat} : (diOut s i).scr.words = s.scr.words := by simp [diOut]

@[simp] theorem pauseEnd_words {i : Fin 24} {ok : Bool} {s : State} : (pauseEnd i ok s).scr.words = s.scr.words := by simp [pauseEnd]

@[simp] theorem dramTestStep_words {i : Fin 24} {k : Fin 8} {ok : Bool} {s : State} : (dramTestStep i k ok s).scr.words = s.scr.words := by simp [dramTestStep]

/-! ## The functions of Machine/React -/

@[simp] theorem reacted_words {s t : State} : (reacted s t).scr.words = t.scr.words := by simp [reacted]

/-! ## The functions of Machine/Maint -/

@[simp] theorem words_granted_ {s : State} {m : Maint} : (granted_ s m).scr.words = s.scr.words := by simp [granted_]

@[simp] theorem maintGrant_words {a : Fin 6} {res : Nat} {s : State} : (maintGrant a res s).scr.words = s.scr.words := by simp [maintGrant]

@[simp] theorem dumpLate_words {s : State} {d : Nat} : (dumpLate s d).scr.words = s.scr.words := by
  unfold dumpLate
  split <;> simp

@[simp] theorem lateExtra_words {s : State} {a res : Nat} : (lateExtra s a res).scr.words = s.scr.words := by simp [lateExtra]

@[simp] theorem maintDeadline_words {a : Fin 6} {res : Nat} {s : State} : (maintDeadline a res s).scr.words = s.scr.words := by simp [maintDeadline]

/-! ## The functions of Machine/Slices -/

@[simp] theorem sliceEnter_words {s : State} {n st : Nat} : (sliceEnter s n st).scr.words = s.scr.words := by simp [sliceEnter]

@[simp] theorem sliceResult_words {s : State} {n r : Nat} : (sliceResult s n r).scr.words = s.scr.words := (rfl)

@[simp] theorem flushSlice_words {s : State} {n : Nat} : (flushSlice s n).scr.words = s.scr.words := by simp [flushSlice]

@[simp] theorem diSleep_words {s : State} {i : Nat} : (diSleep s i).scr.words = s.scr.words := by simp [diSleep]

@[simp] theorem drainOver_words {s : State} {n : Nat} : (drainOver s n).scr.words = s.scr.words := by
  unfold drainOver
  split <;> simp

@[simp] theorem enterBegin_words {s : State} {n : Nat} : (enterBegin s n).scr.words = s.scr.words := by simp [enterBegin]

@[simp] theorem drainBegin_words {s : State} {n : Nat} : (drainBegin s n).scr.words = s.scr.words := by simp [drainBegin]

@[simp] theorem addOne_words {s : State} {n : Nat} : (addOne s n).scr.words = s.scr.words := by
  unfold addOne
  split <;> simp

@[simp] theorem removeOne_words {s : State} {n : Nat} : (removeOne s n).scr.words = s.scr.words := by
  unfold removeOne
  split <;> simp

@[simp] theorem sleepOne_words {s : State} {n : Nat} : (sleepOne s n).scr.words = s.scr.words := by
  unfold sleepOne
  split <;> simp

@[simp] theorem sliceCmd_words {v : Nat} {s : State} : (sliceCmd v s).scr.words = s.scr.words := by
  unfold sliceCmd
  split
  · simp
  · split <;> simp

@[simp] theorem sliceAdd_words {s : State} : (sliceAdd s).scr.words = s.scr.words := by simp [sliceAdd]

@[simp] theorem sliceRemove_words {s : State} : (sliceRemove s).scr.words = s.scr.words := by simp [sliceRemove]

@[simp] theorem sliceSleep_words {s : State} : (sliceSleep s).scr.words = s.scr.words := by simp [sliceSleep]

@[simp] theorem drainEnd_words {n : Fin 40} {limit : Bool} {s : State} : (drainEnd n limit s).scr.words = s.scr.words := by simp [drainEnd]

@[simp] theorem maintWithdraw_words {s : State} {n : Nat} : (maintWithdraw s n).scr.words = s.scr.words := (rfl)

@[simp] theorem lineLose_words {s : State} {n : Nat} : (lineLose s n).scr.words = s.scr.words := by simp [lineLose]

@[simp] theorem enteringDone_words {n : Fin 40} {s : State} : (enteringDone n s).scr.words = s.scr.words := by simp [enteringDone]

@[simp] theorem wakeDone_words {n : Fin 40} {s : State} : (wakeDone n s).scr.words = s.scr.words := by simp [wakeDone]

@[simp] theorem sweepRecorded_words {s : State} {n : Nat} : (sweepRecorded s n).scr.words = s.scr.words := by simp [sweepRecorded]

@[simp] theorem join_words {n : Fin 40} {s : State} : (join n s).scr.words = s.scr.words := by simp [join]

/-! ## The functions of Machine/Clocks -/

@[simp] theorem writeRw_words {s : State} {a v m : Nat} : (writeRw s a v m).scr.words = s.scr.words := (rfl)

@[simp] theorem commitHi_words {s : State} {f lo mlo hi mhi v : Nat} : (commitHi s f lo mlo hi mhi v).scr.words = s.scr.words := (rfl)

@[simp] theorem pllStart_words {s : State} {ps : List Nat} : (pllStart s ps).scr.words = s.scr.words := (rfl)

@[simp] theorem pllSettled_words {s : State} {p : Nat} : (pllSettled s p).scr.words = s.scr.words := (rfl)

@[simp] theorem pllLocked_words {p : Fin 25} {s : State} : (pllLocked p s).scr.words = s.scr.words := by simp [pllLocked]

@[simp] theorem galLaneOut_words {s : State} {l : Nat} : (galLaneOut s l).scr.words = s.scr.words := by simp [galLaneOut]

@[simp] theorem lineLaneOut_words {s : State} {g l : Nat} : (lineLaneOut s g l).scr.words = s.scr.words := by simp [lineLaneOut]

@[simp] theorem fabLaneOut_words {s : State} {g l : Nat} : (fabLaneOut s g l).scr.words = s.scr.words := by simp [fabLaneOut]

@[simp] theorem diTrainOut_words {s : State} {i : Nat} : (diTrainOut s i).scr.words = s.scr.words := by simp [diTrainOut]

@[simp] theorem pllLockFail_words {p : Fin 25} {s : State} : (pllLockFail p s).scr.words = s.scr.words := by simp [pllLockFail]

@[simp] theorem relockOver_words {s : State} {r : Nat} : (relockOver s r).scr.words = s.scr.words := by simp [relockOver]

@[simp] theorem rampStep_words {s : State} : (rampStep s).scr.words = s.scr.words := by simp [rampStep]

@[simp] theorem relockBegin_words {s : State} {r : Nat} : (relockBegin s r).scr.words = s.scr.words := by simp [relockBegin]

@[simp] theorem relockRelease_words {s : State} : (relockRelease s).scr.words = s.scr.words := by
  unfold relockRelease
  split <;> simp

@[simp] theorem clkCtl_words {v : Nat} {s : State} : (clkCtl v s).scr.words = s.scr.words := by simp [clkCtl]

@[simp] theorem rootRelockDone_words {r : Fin 2} {ok : Bool} {s : State} : (rootRelockDone r ok s).scr.words = s.scr.words := by simp [rootRelockDone]

@[simp] theorem refLost_words {s : State} {r : Nat} : (refLost s r).scr.words = s.scr.words := by simp [refLost]

@[simp] theorem refClockLoss_words {r : Fin 4} {s : State} : (refClockLoss r s).scr.words = s.scr.words := by simp [refClockLoss]

@[simp] theorem refClockReturn_words {r : Fin 4} {s : State} : (refClockReturn r s).scr.words = s.scr.words := by simp [refClockReturn]

@[simp] theorem pllLoss_words {p : Fin 25} {s : State} : (pllLoss p s).scr.words = s.scr.words := by simp [pllLoss]

@[simp] theorem waitShow_words {s : State} : (waitShow s).scr.words = s.scr.words := (rfl)

@[simp] theorem clkFreqAlarm_words {r : Fin 3} {offset : Nat} {s : State} : (clkFreqAlarm r offset s).scr.words = s.scr.words := by simp [clkFreqAlarm]

@[simp] theorem ppsInLoss_words {s : State} : (ppsInLoss s).scr.words = s.scr.words := by simp [ppsInLoss]

@[simp] theorem cd38Loss_words {s : State} : (cd38Loss s).scr.words = s.scr.words := (rfl)

@[simp] theorem timIncrCommit_words {v : Nat} {s : State} : (timIncrCommit v s).scr.words = s.scr.words := by simp [timIncrCommit]

@[simp] theorem ppsOutEdge_words {rise : Bool} {s : State} : (ppsOutEdge rise s).scr.words = s.scr.words := (rfl)

@[simp] theorem ppsInEdge_words {falling : Bool} {s : State} : (ppsInEdge falling s).scr.words = s.scr.words := by simp [ppsInEdge]

@[simp] theorem clkoutConfig_words {v : Nat} {s : State} : (clkoutConfig v s).scr.words = s.scr.words := by simp [clkoutConfig]

/-! ## The functions of Machine/Power -/

@[simp] theorem landingSend_words {s : State} {typ body : Nat} : (landingSend s typ body).scr.words = s.scr.words := by
  unfold landingSend
  rfl

@[simp] theorem landingFault_words {s : State} {src slice die : Nat} : (landingFault s src slice die).scr.words = s.scr.words := (rfl)

@[simp] theorem vinDip_words {s : State} : (vinDip s).scr.words = s.scr.words := by simp [vinDip]

@[simp] theorem vinWarn_words {s : State} : (vinWarn s).scr.words = s.scr.words := by simp [vinWarn]

@[simp] theorem railOut_words {k : Fin 7} {die : Fin 2} {slice : Fin 64} {s : State} : (railOut k die slice s).scr.words = s.scr.words := by simp [railOut]

@[simp] theorem railRecover_words {s : State} : (railRecover s).scr.words = s.scr.words := by simp [railRecover]

@[simp] theorem vio18Overload_words {s : State} : (vio18Overload s).scr.words = s.scr.words := by simp [vio18Overload]

@[simp] theorem vio18Recover_words {s : State} : (vio18Recover s).scr.words = s.scr.words := (rfl)

@[simp] theorem vbatLow_words {low : Bool} {s : State} : (vbatLow low s).scr.words = s.scr.words := by simp [vbatLow]

@[simp] theorem vbatCollapse_words {s : State} : (vbatCollapse s).scr.words = s.scr.words := (rfl)

@[simp] theorem holdoverWrite_words {s : State} : (holdoverWrite s).scr.words = s.scr.words := by simp [holdoverWrite]

@[simp] theorem clrRec_words {s : State} : (clrRec s).scr.words = s.scr.words := by simp [clrRec]

@[simp] theorem tripRecover_words {s : State} : (tripRecover s).scr.words = s.scr.words := by simp [tripRecover]

@[simp] theorem telemetryUpdate_words {vin iin pin vbat vio : Nat} {grp die : List Nat} {s : State} :
    (telemetryUpdate vin iin pin vbat vio grp die s).scr.words = s.scr.words := by simp [telemetryUpdate]

/-! ## The functions of Machine/Boot -/

@[simp] theorem wearShow_words {s : State} : (wearShow s).scr.words = s.scr.words := by simp [wearShow]

@[simp] theorem persistWrite_words {s : State} {f : Persist → Nat → Persist} : (persistWrite s f).scr.words = s.scr.words := (rfl)

@[simp] theorem wearWrite_words {s : State} {k : Nat} {counts : NMap Nat} : (wearWrite s k counts).scr.words = s.scr.words := (rfl)

@[simp] theorem wearBlocks_words {s : State} {l : List Nat} : (wearBlocks s l).scr.words = s.scr.words := by simp [wearBlocks]

@[simp] theorem dirCommit_words {s : State} {d : Directory} : (dirCommit s d).scr.words = s.scr.words := by simp [dirCommit]

@[simp] theorem dirWrite_words {s : State} {d : Directory} : (dirWrite s d).scr.words = s.scr.words := by simp [dirWrite]

@[simp] theorem dirChange_words {s : State} {f : Directory → Directory} : (dirChange s f).scr.words = s.scr.words := by
  unfold dirChange
  split <;> simp

@[simp] theorem nvlogAppend_words {s : State} : (nvlogAppend s).scr.words = s.scr.words := by
  unfold nvlogAppend
  split <;> simp

@[simp] theorem slotProgram_words {s : State} {typ slot : Nat} {x : Image} : (slotProgram s typ slot x).scr.words = s.scr.words := by simp [slotProgram]

@[simp] theorem pushRefused_words {s : State} : (pushRefused s).scr.words = s.scr.words := (rfl)

@[simp] theorem pushStart_words {v : Nat} {s : State} : (pushStart v s).scr.words = s.scr.words := by simp [pushStart]

@[simp] theorem floorFwUp_words {s : State} : (floorFwUp s).scr.words = s.scr.words := (rfl)

@[simp] theorem floorCfgUp_words {s : State} : (floorCfgUp s).scr.words = s.scr.words := (rfl)

@[simp] theorem arbCtl_words {v : Nat} {s : State} : (arbCtl v s).scr.words = s.scr.words := by simp [arbCtl]

@[simp] theorem keyRevoke_words {v : Nat} {s : State} : (keyRevoke v s).scr.words = s.scr.words := by simp [keyRevoke]

@[simp] theorem toField_words {v : Nat} {s : State} : (toField v s).scr.words = s.scr.words := by simp [toField]

/-! ## The functions of Machine/FabRx -/

@[simp] theorem trailDone_words {s : State} {g l : Nat} {x : RxLane} {t : Bytes} : (trailDone s g l x t).1.scr.words = s.scr.words := by
  unfold trailDone
  split <;> simp

@[simp] theorem pmFrame_words {s : State} {k : Nat} {errored : Bool} : (pmFrame s k errored).scr.words = s.scr.words := (rfl)

@[simp] theorem bkpLevel_words {s : State} {g : Nat} : (bkpLevel s g).scr.words = s.scr.words := by simp [bkpLevel]

@[simp] theorem bkpReceive_words {s : State} {g : Nat} {b : Bytes} : (bkpReceive s g b).scr.words = s.scr.words := by
  unfold bkpReceive
  split <;> simp

@[simp] theorem bkpWatchdog_words {g k : Fin 8} {s : State} : (bkpWatchdog g k s).scr.words = s.scr.words := by simp [bkpWatchdog]

@[simp] theorem srqStore_words {s : State} {g v : Nat} : (srqStore s g v).scr.words = s.scr.words := by simp [srqStore]

@[simp] theorem srqUse_words {s : State} {v : Nat} : (srqUse s v).scr.words = s.scr.words := by simp [srqUse]

@[simp] theorem srqCompare_words {s : State} {g used : Nat} : (srqCompare s g used).scr.words = s.scr.words := by simp [srqCompare]

@[simp] theorem srqReceive_words {s : State} {g : Nat} {b : Bytes} : (srqReceive s g b).scr.words = s.scr.words := by
  simp only [srqReceive]
  split <;> simp

@[simp] theorem srqIncDeclare_words {s : State} : (srqIncDeclare s).scr.words = s.scr.words := by simp [srqIncDeclare]

@[simp] theorem overheadReceive_words {s : State} {g l : Nat} {x : RxLane} {b : Bytes} {was goesOn : Bool} : (overheadReceive s g l x b was goesOn).scr.words = s.scr.words := by
  unfold overheadReceive
  dsimp only
  split
  · split
    · split <;> simp
    · simp
  · split
    · split <;> simp
    · simp

@[simp] theorem slipGive_words {s : State} {g l : Nat} {x : RxLane} {f : List Bytes} : (slipGive s g l x f).scr.words = s.scr.words := (rfl)

@[simp] theorem slipWrite_words {s : State} {g l : Nat} {b : Bytes} : (slipWrite s g l b).scr.words = s.scr.words := by simp [slipWrite]

@[simp] theorem frameTake_words {g : Nat} {l : Fin 28} {frame : Bytes} {fecCorr : Nat} {fecLost : Bool} {s : State} :
    (frameTake g l frame fecCorr fecLost s).scr.words = s.scr.words := by simp [frameTake]

@[simp] theorem caravanFrameReceive_words {g : Nat} {l : Fin 28} {frame : Bytes} {fecCorr : Nat} {fecLost : Bool} {s : State} :
    (caravanFrameReceive g l frame fecCorr fecLost s).scr.words = s.scr.words := by
  unfold caravanFrameReceive
  split
  · rfl
  · split
    · rfl
    · next h => simp [carvRx_words h]

@[simp] theorem slipOldest_words {s : State} {g l : Nat} {x : RxLane} : (slipOldest s g l x).scr.words = s.scr.words := by
  unfold slipOldest
  split <;> simp

@[simp] theorem slipRead_words {g : Nat} {l : Fin 28} {part : Bool} {s : State} : (slipRead g l part s).scr.words = s.scr.words := by simp [slipRead]

@[simp] theorem laneDef_words {s : State} {g l : Nat} {first : Bool} : (laneDef s g l first).scr.words = s.scr.words := by simp [laneDef]

@[simp] theorem defectDeclare_words {g : Nat} {l : Fin 28} {d : Fin 7} {s : State} : (defectDeclare g l d s).scr.words = s.scr.words := by simp [defectDeclare]

@[simp] theorem defectClear_words {g : Nat} {l : Fin 28} {d : Fin 7} {s : State} : (defectClear g l d s).scr.words = s.scr.words := by simp [defectClear]

@[simp] theorem degInterval_words {g : Fin 8} {l : Fin 28} {s : State} : (degInterval g l s).scr.words = s.scr.words := (rfl)

@[simp] theorem protCtl_words {v : Nat} {s : State} : (protCtl v s).scr.words = s.scr.words := by simp [protCtl]

@[simp] theorem protWrite_words {v : Nat} {s : State} : (protWrite v s).scr.words = s.scr.words := by simp [protWrite]

@[simp] theorem protClear_words {s : State} : (protClear s).scr.words = s.scr.words := by simp [protClear]

@[simp] theorem protManualSwitch_words {plane : Fin 16} {s : State} : (protManualSwitch plane s).scr.words = s.scr.words := by simp [protManualSwitch]

@[simp] theorem protForcedSwitch_words {plane : Fin 16} {s : State} : (protForcedSwitch plane s).scr.words = s.scr.words := by simp [protForcedSwitch]

@[simp] theorem protLockout_words {s : State} : (protLockout s).scr.words = s.scr.words := by simp [protLockout]

@[simp] theorem protTest_words {s : State} : (protTest s).scr.words = s.scr.words := by simp [protTest]

@[simp] theorem wtrExpire_words {s : State} : (wtrExpire s).scr.words = s.scr.words := (rfl)

/-! ## The functions of Machine/FabCell -/

@[simp] theorem discard_words {s : State} {g k : Nat} : (discard s g k).scr.words = s.scr.words := by simp [discard]

@[simp] theorem requestEntry_words {g src : Nat} {s : State} {e : CrEnt} : (requestEntry g src s e).scr.words = s.scr.words := by simp [requestEntry]

@[simp] theorem creditEntry_words {g : Nat} {s : State} {e : CrEnt} : (creditEntry g s e).scr.words = s.scr.words := by simp [creditEntry]

@[simp] theorem controlCell_words {s : State} {g : Nat} {c : Cell} {payload : Bytes} : (controlCell s g c payload).scr.words = s.scr.words := by simp [controlCell]

@[simp] theorem localCopies_words {s : State} {h : Hdr} : (localCopies s h).2.scr.words = s.scr.words := by simp [localCopies]

@[simp] theorem admitFab_words {s : State} {g port : Nat} {h : Hdr} {size : Nat} : (admitFab s g port h size).2.scr.words = s.scr.words := by
  unfold admitFab
  split <;> simp

@[simp] theorem admitCopies_words {g : Nat} {h : Hdr} {size : Nat} {l : List Nat} {s : State} : (admitCopies g h size l s).2.scr.words = s.scr.words := by
  induction l generalizing s with
  | nil => rfl
  | cons i r ih => simp [admitCopies, ih]

@[simp] theorem sharedTargets_words {h : Hdr} {l : List Nat} {s : State} : (sharedTargets h l s).2.scr.words = s.scr.words := by
  induction l generalizing s with
  | nil => rfl
  | cons i r ih =>
    unfold sharedTargets
    split <;> simp [ih]

@[simp] theorem lineGrow_words {di h i : Nat} {complete : Bool} {have_ : Nat} {s : State} : (lineGrow di h i complete have_ s).scr.words = s.scr.words := by simp [lineGrow]

@[simp] theorem bufGrow_words {data : Bytes} {a b total : Nat} {s : State} {h : Nat} : (bufGrow data a b total s h).scr.words = s.scr.words := by
  unfold bufGrow
  split <;> simp

@[simp] theorem dropOpen_words {s : State} {o : Option Reas} : (dropOpen s o).scr.words = s.scr.words := by
  unfold dropOpen
  split <;> simp

@[simp] theorem openShared_words {s : State} {g : Nat} {h : Hdr} {size : Nat} : (openShared s g h size).2.scr.words = s.scr.words := by
  unfold openShared
  dsimp only
  split <;> (next heq => simpa using words_of_triple heq sharedAdmit_words)

@[simp] theorem openFrame_words {s : State} {g : Nat} {c : Cell} : (openFrame s g c).2.scr.words = s.scr.words := by
  unfold openFrame
  dsimp only
  split
  · simp
  · split
    · split <;> simp
    · split <;> simp

@[simp] theorem closeFrame_words {s : State} {r : Reas} : (closeFrame s r).scr.words = s.scr.words := by
  unfold closeFrame
  split <;> simp

@[simp] theorem growFrame_words {s : State} {g : Nat} {r : Reas} {c : Cell} : (growFrame s g r c).2.scr.words = s.scr.words := by
  unfold growFrame
  dsimp only
  split
  · split <;> simp
  · split <;> simp

@[simp] theorem reassemble_words {s : State} {o : Option Reas} {c : Cell} {g : Nat} : (reassemble s o c g).2.scr.words = s.scr.words := by
  have hs1 : (if o.isSome then partnerBad (dropOpen s o) g 4 else s).scr.words = s.scr.words := by split <;> simp
  unfold reassemble
  split
  · dsimp only
    split <;> (next heq => simpa using (words_of_pair heq openFrame_words).trans hs1)
  · split <;> simp

@[simp] theorem ctxPut_words {s : State} {k : Nat} {x : Option Ctx} : (ctxPut s k x).scr.words = s.scr.words := (rfl)

@[simp] theorem deliverRun_words {k : Nat} {s : State} {x : Ctx} {i : Nat} {c : Cell} {j : Nat} : (deliverRun k s x i c j).2.scr.words = s.scr.words := by
  induction k generalizing s x i c j with
  | zero => rfl
  | succ n ih =>
    unfold deliverRun
    dsimp only
    split <;> simp [ih]

@[simp] theorem ctxCell_words {s : State} {k : Nat} {x : Ctx} {e g : Nat} {c : Cell} : (ctxCell s k x e g c).scr.words = s.scr.words := by simp [ctxCell]

@[simp] theorem dataCell_words {s : State} {g : Nat} {c : Cell} : (dataCell s g c).scr.words = s.scr.words := by
  unfold dataCell
  dsimp only
  split
  · simp
  · split
    · simp
    · split <;> simp

@[simp] theorem cellReceive_words {g : Fin 8} {l : Fin 28} {s : State} : (cellReceive g l s).scr.words = s.scr.words := by
  unfold cellReceive
  dsimp only
  split
  · simp
  · split
    · simp
    · split
      · simp
      · split <;> simp

@[simp] theorem holeTimeout_words {src dst : Fin 65536} {cls : Fin 8} {s : State} : (holeTimeout src dst cls s).scr.words = s.scr.words := by
  unfold holeTimeout
  dsimp only
  split
  · simp
  · split
    · simp
    · split <;> simp

@[simp] theorem contextFree_words {src dst : Fin 65536} {cls : Fin 8} {s : State} : (contextFree src dst cls s).scr.words = s.scr.words := by
  simp only [contextFree]
  split <;> simp

/-! ## The functions of Machine/FabPm -/

@[simp] theorem pmCount_words {k now sec m : Nat} {up : Bool} {s : State} : (pmCount k now sec m up s).scr.words = s.scr.words := by simp [pmCount]

@[simp] theorem pmClasses_words {k now : Nat} {up : Bool} {l : List (Nat × Nat)} {s : State} : (pmClasses k now up l s).scr.words = s.scr.words := by simp [pmClasses]

@[simp] theorem pmUas_words {k now : Nat} {up : Bool} {l : List (Nat × Nat)} {s : State} : (pmUas k now up l s).scr.words = s.scr.words := by simp [pmUas]

@[simp] theorem pmShow_words {k : Nat} {u : Bool} {s : State} : (pmShow k u s).scr.words = s.scr.words := (rfl)

@[simp] theorem pmTake_words {k now c : Nat} {s : State} : (pmTake k now c s).scr.words = s.scr.words := by
  unfold pmTake
  dsimp only
  split
  · simp
  · split <;> simp

@[simp] theorem pmRestart_words {s : State} : (pmRestart s).scr.words = s.scr.words := by simp [pmRestart]

@[simp] theorem pmRoll_words {len b n : Nat} {s : State} : (pmRoll len b n s).scr.words = s.scr.words := by simp [pmRoll]

@[simp] theorem pmRolls_words {a b : Nat} {s : State} : (pmRolls a b s).scr.words = s.scr.words := by simp [pmRolls]

@[simp] theorem pmSuspectAll_words {s : State} : (pmSuspectAll s).scr.words = s.scr.words := by simp [pmSuspectAll]

@[simp] theorem pmStepped_words {s : State} : (pmStepped s).scr.words = s.scr.words := by simp [pmStepped]

@[simp] theorem pmSecond_words {s : State} : (pmSecond s).scr.words = s.scr.words := by simp [pmSecond]

end Sys2Proof.Machine

/-! Scratch memory (O11): the host, updates, the pair, tests, register reads, VERIFY, APPLY and BRINGUP. -/

namespace Sys2Proof.Machine

/-! ## The functions of Machine/Host -/

@[simp] theorem hostFail_words {s : State} {f addr v : Nat} {c : PwfCause} : (hostFail s f addr v c).scr.words = s.scr.words := by simp [hostFail]

@[simp] theorem ringWrite_words {s : State} {f r o v : Nat} {act : State → State} (hact : ∀ t, (act t).scr.words = t.scr.words) :
    (ringWrite s f r o v act).scr.words = s.scr.words := by simp [ringWrite, hact]

@[simp] theorem ringStop_words {s : State} {f r cause index : Nat} : (ringStop s f r cause index).scr.words = s.scr.words := by simp [ringStop]

@[simp] theorem prodDoorbell_words {f r v : Nat} {s : State} : (prodDoorbell f r v s).scr.words = s.scr.words := by simp [prodDoorbell]

@[simp] theorem ringRelease_words {s : State} {f r k : Nat} : (ringRelease s f r k).scr.words = s.scr.words := by simp [ringRelease]

@[simp] theorem consDoorbell_words {f r v : Nat} {s : State} : (consDoorbell f r v s).scr.words = s.scr.words := by simp [consDoorbell]

@[simp] theorem ringForget_words {s : State} {k : Nat} : (ringForget s k).scr.words = s.scr.words := (rfl)

@[simp] theorem ringFlushed_words {s : State} {f r cause point ents cmds : Nat} : (ringFlushed s f r cause point ents cmds).scr.words = s.scr.words := by simp [ringFlushed]

@[simp] theorem ringFlush_words {s : State} {f r cause cmds : Nat} : (ringFlush s f r cause cmds).scr.words = s.scr.words := by simp [ringFlush]

@[simp] theorem ringDown_words {s : State} {f r cause cmds : Nat} : (ringDown s f r cause cmds).scr.words = s.scr.words := by
  unfold ringDown
  split <;> simp

@[simp] theorem ringOn_words {s : State} {f r : Nat} : (ringOn s f r).scr.words = s.scr.words := by simp [ringOn]

@[simp] theorem ringCfg_words {f r w cmds : Nat} {s : State} : (ringCfg f r w cmds s).scr.words = s.scr.words := by simp [ringCfg]

@[simp] theorem ringEnable_words {f r v : Nat} {s : State} : (ringEnable f r v s).scr.words = s.scr.words := by simp [ringEnable]

@[simp] theorem ringDisable_words {f r v cmds : Nat} {s : State} : (ringDisable f r v cmds s).scr.words = s.scr.words := by simp [ringDisable]

@[simp] theorem ringFlushCmd_words {f r v cmds : Nat} {s : State} : (ringFlushCmd f r v cmds s).scr.words = s.scr.words := by simp [ringFlushCmd]

@[simp] theorem launched_words {s : State} {f : Nat} : (launched s f).scr.words = s.scr.words := by simp [launched]

@[simp] theorem openPut_words {s : State} {f r : Nat} {l : List Bytes} : (openPut s f r l).scr.words = s.scr.words := by simp [openPut]

@[simp] theorem entryJoin_words {s : State} {f r : Nat} {e : Bytes} : (entryJoin s f r e).scr.words = s.scr.words := by simp [entryJoin]

@[simp] theorem entryOrphan_words {s : State} {k : Nat} {x : Nat × Nat × Nat} : (entryOrphan s k x).scr.words = s.scr.words := (rfl)

@[simp] theorem openDrop_words {s : State} {f r : Nat} : (openDrop s f r).scr.words = s.scr.words := by simp [openDrop]

@[simp] theorem entryTake_words {s : State} {f r i : Nat} {e : Bytes} : (entryTake s f r i e).scr.words = s.scr.words := by
  simp only [entryTake]
  split <;> simp

@[simp] theorem entryRead_words {s : State} {f r : Nat} : (entryRead s f r).scr.words = s.scr.words := (rfl)

@[simp] theorem commandFetch_words {f r : Nat} {entry : Option Bytes} {s : State} : (commandFetch f r entry s).scr.words = s.scr.words := by
  unfold commandFetch
  dsimp only
  split
  · simp
  · split <;> simp

@[simp] theorem msixHoldoffEnd_words {f r : Nat} {s : State} : (msixHoldoffEnd f r s).scr.words = s.scr.words := by
  simp only [msixHoldoffEnd]
  split <;> simp

@[simp] theorem fnReset_words {s : State} {f : Nat} : (fnReset s f).scr.words = s.scr.words := by simp [fnReset]

@[simp] theorem fnResetAll_words {s : State} : (fnResetAll s).scr.words = s.scr.words := by simp [fnResetAll]

@[simp] theorem flr_words {f : Nat} {s : State} : (flr f s).scr.words = s.scr.words := by simp [flr]

@[simp] theorem linkShow_words {s : State} : (linkShow s).scr.words = s.scr.words := by simp [linkShow]

@[simp] theorem linkOff_words {s : State} : (linkOff s).scr.words = s.scr.words := by simp [linkOff]

@[simp] theorem pciePerst_words {s : State} : (pciePerst s).scr.words = s.scr.words := by simp [pciePerst]

@[simp] theorem pciePerstRelease_words {s : State} : (pciePerstRelease s).scr.words = s.scr.words := (rfl)

@[simp] theorem fnEnable_words {s : State} {vfs : Nat} {msix : List Nat} : (fnEnable s vfs msix).scr.words = s.scr.words := by simp [fnEnable]

@[simp] theorem pcieLinkChange_words {up : Bool} {gen width : Nat} {flit : Bool} {vfs : Nat} {msix : List Nat} {s : State} :
    (pcieLinkChange up gen width flit vfs msix s).scr.words = s.scr.words := by simp [pcieLinkChange]

@[simp] theorem txShut_words {s : State} {f : Nat} {d : TxDesc} : (txShut s f d).scr.words = s.scr.words := by simp [txShut]

@[simp] theorem txInject_words {s : State} {f : Nat} {d : TxDesc} {b : Bytes} : (txInject s f d b).scr.words = s.scr.words := by
  unfold txInject
  split <;> simp

@[simp] theorem txDescriptor_words {f k : Nat} {entry data : Option Bytes} {s : State} : (txDescriptor f k entry data s).scr.words = s.scr.words := by
  unfold txDescriptor
  split <;> simp

@[simp] theorem rxWrite_words {s : State} {f r at_ : Nat} {x : HostFrame} : (rxWrite s f r at_ x).scr.words = s.scr.words := by simp [rxWrite]

@[simp] theorem hostFrameDeliver_words {s : State} : (hostFrameDeliver s).scr.words = s.scr.words := by
  unfold hostFrameDeliver
  dsimp only
  (repeat' split) <;> simp

@[simp] theorem twinAct_words {s : State} {off v t i base n : Nat} : (twinAct s off v t i base n).scr.words = s.scr.words := by simp [twinAct]

@[simp] theorem bar2Write_words {off v : Nat} {s : State} : (bar2Write off v s).scr.words = s.scr.words := by
  unfold bar2Write
  split
  · simp
  · split
    · simp
    · split <;> simp

@[simp] theorem pwfClear_words {s : State} : (pwfClear s).scr.words = s.scr.words := by simp [pwfClear]

@[simp] theorem grant_words {f w v : Nat} {s : State} : (grant f w v s).scr.words = s.scr.words := by simp [grant]

@[simp] theorem fnCfgWrite_words {f v : Nat} {s : State} : (fnCfgWrite f v s).scr.words = s.scr.words := by simp [fnCfgWrite]

@[simp] theorem msixSizeWrite_words {f v : Nat} {s : State} : (msixSizeWrite f v s).scr.words = s.scr.words := by simp [msixSizeWrite]

/-! ## The functions of Machine/Update -/

@[simp] theorem updStatus_words {s : State} {n : Nat} : (updStatus s n).scr.words = s.scr.words := by simp [updStatus]

@[simp] theorem updEnter_words {s : State} {n : Nat} : (updEnter s n).scr.words = s.scr.words := (rfl)

@[simp] theorem updCtl_words {k v : Nat} {s : State} {act : State → Nat × State} (hact : ∀ t, (act t).2.scr.words = t.scr.words) :
    (updCtl k v s act).scr.words = s.scr.words := by simp [updCtl, hact]

@[simp] theorem stagedShow_words {s : State} : (stagedShow s).scr.words = s.scr.words := (rfl)

@[simp] theorem stageStart_words {v : Nat} {s : State} : (stageStart v s).scr.words = s.scr.words := by simp [stageStart]

@[simp] theorem slotErased_words {s : State} {typ slot len : Nat} : (slotErased s typ slot len).scr.words = s.scr.words := by simp [slotErased]

@[simp] theorem stageFailed_words {s : State} {status blocks : Nat} : (stageFailed s status blocks).scr.words = s.scr.words := by simp [stageFailed]

@[simp] theorem slowProgram_words {s : State} {b : Nat} : (slowProgram s b).scr.words = s.scr.words := by simp [slowProgram]

@[simp] theorem stageDone_words {s : State} {typ slot : Nat} {x : Image} : (stageDone s typ slot x).scr.words = s.scr.words := by simp [stageDone]

@[simp] theorem stagingDone_words {dmaOk nvmOk : Bool} {data : Bytes} {slow again : List Nat} {s : State} : (stagingDone dmaOk nvmOk data slow again s).scr.words = s.scr.words := by
  unfold stagingDone
  dsimp only
  (repeat' split) <;> simp

@[simp] theorem prepareDone_words {s : State} : (prepareDone s).scr.words = s.scr.words := by
  unfold prepareDone
  dsimp only
  split
  · simp
  · split <;> simp

@[simp] theorem arm_words {v : Nat} {s : State} : (arm v s).scr.words = s.scr.words := updCtl_words fun s => by
  dsimp only
  (repeat' split) <;> simp

@[simp] theorem installBank_words {s : State} {b : Bank} : (installBank s b).scr.words = s.scr.words := by simp [installBank]

@[simp] theorem judge_words {s : State} : (judge s).scr.words = s.scr.words := by simp [judge]

@[simp] theorem switchBanks_words {s : State} {new : Bank} : (switchBanks s new).scr.words = s.scr.words := by simp [switchBanks]

@[simp] theorem preloadRun_words {s : State} {c : HostCmd} : (preloadRun s c).scr.words = s.scr.words := by simp [preloadRun]

@[simp] theorem preloads_words {s : State} {x : Image} : (preloads s x).scr.words = s.scr.words := by simp [preloads]

@[simp] theorem enterTrial_words {s : State} : (enterTrial s).scr.words = s.scr.words := by simp [enterTrial]

@[simp] theorem activation_words {s : State} : (activation s).scr.words = s.scr.words := by
  unfold activation
  split
  · simp
  · split
    · simp
    · split <;> simp

@[simp] theorem disarm_words {v : Nat} {s : State} : (disarm v s).scr.words = s.scr.words := updCtl_words fun s => by
  dsimp only
  split <;> simp

@[simp] theorem firmwareSwapDone_words {s : State} : (firmwareSwapDone s).scr.words = s.scr.words := by simp [firmwareSwapDone]

@[simp] theorem confirmImages_words {s : State} : (confirmImages s).scr.words = s.scr.words := by
  unfold confirmImages
  dsimp only
  split
  · split <;> simp
  · split <;> simp

@[simp] theorem fallbackDue_words {s : State} {b : Bool} : (fallbackDue s b).scr.words = s.scr.words := by simp [fallbackDue]

@[simp] theorem trialOver_words {s : State} : (trialOver s).scr.words = s.scr.words := (rfl)

@[simp] theorem confirmTrial_words {v : Nat} {s : State} : (confirmTrial v s).scr.words = s.scr.words := updCtl_words fun s => by
  dsimp only
  (repeat' split) <;> simp

@[simp] theorem abandon_words {v : Nat} {s : State} : (abandon v s).scr.words = s.scr.words := updCtl_words fun s => by (repeat' split) <;> simp

@[simp] theorem trialExpire_words {s : State} : (trialExpire s).scr.words = s.scr.words := by simp [trialExpire]

@[simp] theorem fallbackStart_words {s : State} : (fallbackStart s).scr.words = s.scr.words := by
  unfold fallbackStart
  dsimp only
  split
  · simp
  · split <;> simp

@[simp] theorem updDiscard_words {v : Nat} {s : State} : (updDiscard v s).scr.words = s.scr.words := updCtl_words fun s => by split <;> simp

@[simp] theorem epochPassed_words {old new d : Nat} {s : State} : (epochPassed old new d s).scr.words = s.scr.words := by
  simp only [epochPassed]
  split <;> simp

@[simp] theorem stepped_words {old : Ptp} {s : State} : (stepped old s).scr.words = s.scr.words := by simp [stepped]

@[simp] theorem timStep_words {k v : Nat} {s : State} {time : State → Ptp} : (timStep k v s time).scr.words = s.scr.words := by simp [timStep]

@[simp] theorem timSet_words {v : Nat} {s : State} : (timSet v s).scr.words = s.scr.words := by simp [timSet]

@[simp] theorem timAdd_words {v : Nat} {s : State} : (timAdd v s).scr.words = s.scr.words := by simp [timAdd]

/-! ## The functions of Machine/Pair -/

@[simp] theorem roleFollow_words {s t : State} : (roleFollow s t).scr.words = t.scr.words := by
  simp only [roleFollow]
  split <;> simp

@[simp] theorem roleEnter_words {s : State} {r : Nat} {lease : Bool} : (roleEnter s r lease).scr.words = s.scr.words := by simp [roleEnter]

@[simp] theorem withdrawNow_words {s : State} {why : Nat} : (withdrawNow s why).scr.words = s.scr.words := by simp [withdrawNow]

@[simp] theorem digestCheck_words {s : State} : (digestCheck s).scr.words = s.scr.words := by
  unfold digestCheck
  split <;> simp

@[simp] theorem landingBad_words {s : State} {k : Nat} : (landingBad s k).scr.words = s.scr.words := by simp [landingBad]

@[simp] theorem landingAck_words {s : State} {typ epoch status : Nat} : (landingAck s typ epoch status).scr.words = s.scr.words := by simp [landingAck]

@[simp] theorem landingRefused_words {s : State} {typ epoch : Nat} : (landingRefused s typ epoch).scr.words = s.scr.words := by simp [landingRefused]

@[simp] theorem roleMessage_words {s : State} {typ epoch reason : Nat} : (roleMessage s typ epoch reason).scr.words = s.scr.words := by
  simp only [roleMessage]
  split <;> simp

@[simp] theorem landingCurrent_words {s : State} {typ body : Nat} : (landingCurrent s typ body).scr.words = s.scr.words := by simp [landingCurrent]

@[simp] theorem landing_words {sync typ body crc : Nat} {framed : Bool} {s : State} : (landing sync typ body crc framed s).scr.words = s.scr.words := by simp [landing]

@[simp] theorem arbLoss_words {s : State} : (arbLoss s).scr.words = s.scr.words := by simp [arbLoss]

@[simp] theorem leaseExpire_words {s : State} : (leaseExpire s).scr.words = s.scr.words := by simp [leaseExpire]

@[simp] theorem healthSend_words {s : State} : (healthSend s).scr.words = s.scr.words := by simp [healthSend]

@[simp] theorem helloSend_words {s : State} : (helloSend s).scr.words = s.scr.words := by simp [helloSend]

@[simp] theorem faultMsgSend_words {s : State} : (faultMsgSend s).scr.words = s.scr.words := by
  unfold faultMsgSend
  split <;> simp

@[simp] theorem galleryHelloSend_words {s : State} : (galleryHelloSend s).scr.words = s.scr.words := by simp [galleryHelloSend]

@[simp] theorem galleryHelloReceive_words {partner : Nat} {digest : Bytes} {alt : Option Bytes} {resync : Bool} {s : State} :
    (galleryHelloReceive partner digest alt resync s).scr.words = s.scr.words := by simp [galleryHelloReceive]

@[simp] theorem galleryLoss_words {s : State} : (galleryLoss s).scr.words = s.scr.words := by simp [galleryLoss]

@[simp] theorem recordBad_words {s : State} : (recordBad s).scr.words = s.scr.words := by simp [recordBad]

@[simp] theorem mirroredAct_words {s : State} {a v : Nat} : (mirroredAct s a v).scr.words = s.scr.words := by
  unfold mirroredAct
  split
  · simp
  · simp
  · split
    · simp
    · split <;> simp

@[simp] theorem mirrorFlush_words {c : HostCmd} {s : State} : (mirrorFlush c s).s.scr.words = s.scr.words := by simp [mirrorFlush]

@[simp] theorem itemApply_words {s : State} {x : CmdItem} : (itemApply s x).scr.words = s.scr.words := by
  unfold itemApply
  split
  · simp
  · split
    · simp
    · split <;> simp

@[simp] theorem lagShow_words {s : State} : (lagShow s).scr.words = s.scr.words := by simp [lagShow]

@[simp] theorem rxAdvance_words {s : State} {k : Nat} : (rxAdvance s k).scr.words = s.scr.words := by
  induction k generalizing s with
  | zero => rfl
  | succ n ih =>
    unfold rxAdvance
    dsimp only
    split <;> simp [ih]

@[simp] theorem itemReceive_words {s : State} {q : Nat} {x : CmdItem} : (itemReceive s q x).scr.words = s.scr.words := by simp [itemReceive]

@[simp] theorem itemNext_words {s : State} : (itemNext s).scr.words = s.scr.words := by
  simp only [itemNext]
  split <;> simp

@[simp] theorem cmdItemApply_words {rx : Option (Nat × CmdItem)} {s : State} : (cmdItemApply rx s).scr.words = s.scr.words := by
  unfold cmdItemApply
  split
  · simp
  · split
    · split <;> simp
    · split <;> simp

@[simp] theorem replayAgain_words {s : State} {q : Nat} : (replayAgain s q).scr.words = s.scr.words := by
  unfold replayAgain
  split <;> simp

@[simp] theorem nackReceive_words {q : Nat} {replay : Bool} {s : State} : (nackReceive q replay s).scr.words = s.scr.words := by simp [nackReceive]

@[simp] theorem ackStall_words {s : State} : (ackStall s).scr.words = s.scr.words := by simp [ackStall]

@[simp] theorem galQueue_words {s : State} {k : Nat} {l : List GalCell} : (galQueue s k l).scr.words = s.scr.words := (rfl)

@[simp] theorem stateSnapshot_words {s : State} : (stateSnapshot s).scr.words = s.scr.words := by
  unfold stateSnapshot
  split <;> simp

@[simp] theorem polRestore_words {s : State} {i c e : Nat} : (polRestore s i c e).scr.words = s.scr.words := by simp [polRestore]

@[simp] theorem nodeRestore_words {s : State} {i : Nat} {a b : Int} : (nodeRestore s i a b).scr.words = s.scr.words := by simp [nodeRestore]

@[simp] theorem stateRecordApply_words {r : Option (Nat × Nat × Int × Int)} {s : State} : (stateRecordApply r s).scr.words = s.scr.words := by
  unfold stateRecordApply
  dsimp only
  split
  · simp
  · split <;> simp

@[simp] theorem baselineLatch_words {s : State} : (baselineLatch s).scr.words = s.scr.words := by simp [baselineLatch]

@[simp] theorem baselineApply_words {i frames bytes : Nat} {s : State} : (baselineApply i frames bytes s).scr.words = s.scr.words := by simp [baselineApply]

@[simp] theorem pairCtl_words {s : State} {v : Nat} : (pairCtl s v).scr.words = s.scr.words := by simp [pairCtl]

@[simp] theorem resync_words {v : Nat} {s : State} : (resync v s).scr.words = s.scr.words := by simp [resync]

@[simp] theorem replayRun_words {k : Nat} {s : State} : (replayRun k s).scr.words = s.scr.words := by
  induction k generalizing s with
  | zero => rfl
  | succ n ih =>
    unfold replayRun
    dsimp only
    split
    · rfl
    · exact ih.trans (foldl_words fun _ _ => itemApply_words)

@[simp] theorem replayOpen_words {s : State} : (replayOpen s).scr.words = s.scr.words := by simp [replayOpen]

@[simp] theorem replayRegion_words {q : Nat} {items : List CmdItem} {s : State} : (replayRegion q items s).scr.words = s.scr.words := by simp [replayRegion]

@[simp] theorem resyncComplete_words {q : Nat} {s : State} : (resyncComplete q s).scr.words = s.scr.words := by simp [resyncComplete]

@[simp] theorem marginMeasure_words {margins : List Nat} {s : State} : (marginMeasure margins s).scr.words = s.scr.words := by simp [marginMeasure]

@[simp] theorem galleryLaneCalibration_words {l : Fin 4} {ok : Bool} {s : State} : (galleryLaneCalibration l ok s).scr.words = s.scr.words := by simp [galleryLaneCalibration]

/-! ## The functions of Machine/Test -/

@[simp] theorem laneRestore_words {s : State} {x : Nat} : (laneRestore s x).scr.words = s.scr.words := by simp [laneRestore]

@[simp] theorem laneLoopDrop_words {s : State} {x : Nat} : (laneLoopDrop s x).scr.words = s.scr.words := by simp [laneLoopDrop]

@[simp] theorem laneTestConfig_words {x v : Nat} {s : State} : (laneTestConfig x v s).scr.words = s.scr.words := by simp [laneTestConfig]

@[simp] theorem checkerLockChange_words {x : Nat} {locked : Bool} {s : State} : (checkerLockChange x locked s).scr.words = s.scr.words := by simp [checkerLockChange]

@[simp] theorem checkerBitError_words {x n : Nat} {s : State} : (checkerBitError x n s).scr.words = s.scr.words := by simp [checkerBitError]

@[simp] theorem probeSend_words {standby : Bool} {s : State} {n : Nat} : (probeSend standby s n).scr.words = s.scr.words := by
  unfold probeSend
  split <;> simp

@[simp] theorem probeGo_words {v : Nat} {s : State} : (probeGo v s).scr.words = s.scr.words := by simp [probeGo]

@[simp] theorem standbyProbe_words {s : State} : (standbyProbe s).scr.words = s.scr.words := by simp [standbyProbe]

@[simp] theorem probeCapture_words {n : Nat} {frame : Bytes} {s : State} : (probeCapture n frame s).scr.words = s.scr.words := by
  unfold probeCapture
  split <;> simp

@[simp] theorem probeTimeout_words {n : Nat} {s : State} : (probeTimeout n s).scr.words = s.scr.words := by
  unfold probeTimeout
  split <;> simp

@[simp] theorem meminjCtl_words {s : State} {v : Nat} : (meminjCtl s v).scr.words = s.scr.words := by simp [meminjCtl]

@[simp] theorem memoryInjectArm_words {v : Nat} {s : State} : (memoryInjectArm v s).scr.words = s.scr.words := by simp [memoryInjectArm]

/-! ## The functions of Machine/Regs -/

@[simp] theorem accessExpired_words {f : Nat} {write : Bool} {addr v : Nat} {s : State} : (accessExpired f write addr v s).scr.words = s.scr.words := by
  unfold accessExpired
  split <;> simp

/-! ## The functions of loading, VERIFY, APPLY and BRINGUP (Machine/Power and Machine/Boot) -/

@[simp] theorem enterHold_words {s : State} {reason image slot detail status : Nat} : (enterHold s reason image slot detail status).scr.words = s.scr.words := by simp [enterHold]

@[simp] theorem leaveHold_words {s : State} {t : TopState} : (leaveHold s t).scr.words = s.scr.words := by simp [leaveHold]

@[simp] theorem levelBits_words {s : State} : (levelBits s).scr.words = s.scr.words := by simp [levelBits]

@[simp] theorem vbatAtStart_words {mv : Nat} {s : State} : (vbatAtStart mv s).scr.words = s.scr.words := by simp [vbatAtStart]

@[simp] theorem resetExit_words {testmode : Bool} {vbatMv : Nat} {rcal : List Nat} {s : State} : (resetExit testmode vbatMv rcal s).scr.words = s.scr.words := by simp [resetExit]

@[simp] theorem secondDrop_words {s : State} : (secondDrop s).scr.words = s.scr.words := (rfl)

@[simp] theorem trialLost_words {s : State} {d : Directory} : (trialLost s d).scr.words = s.scr.words := by simp [trialLost]

@[simp] theorem trialAtStart_words {s : State} {fw cfg : Image} : (trialAtStart s fw cfg).scr.words = s.scr.words := by
  unfold trialAtStart
  split
  · rfl
  · dsimp only
    split
    · rfl
    · split <;> simp

@[simp] theorem loadHold_words {s : State} {reason image slot detail : Nat} : (loadHold s reason image slot detail).scr.words = s.scr.words := by simp [loadHold]

@[simp] theorem imageBegin_words {s : State} {typ : Nat} : (imageBegin s typ).scr.words = s.scr.words := by simp [imageBegin]

@[simp] theorem loadNext_words {s : State} : (loadNext s).scr.words = s.scr.words := by simp [loadNext]

@[simp] theorem nvmIdAttempt_words {valid octal : Bool} {s : State} : (nvmIdAttempt valid octal s).scr.words = s.scr.words := by simp [nvmIdAttempt]

@[simp] theorem readAccepted_words {s : State} {fails : Nat} : (readAccepted s fails).scr.words = s.scr.words := by simp [readAccepted]

@[simp] theorem readFailed_words {s : State} {r : Reading} {ended : State → State} (hended : ∀ t, (ended t).scr.words = t.scr.words) :
    (readFailed s r ended).scr.words = s.scr.words := by simp [readFailed, hended]

@[simp] theorem dirGave_words {s : State} {k fault : Nat} {d : Option Directory} : (dirGave s k fault d).scr.words = s.scr.words := by
  unfold dirGave
  dsimp only
  split
  · rfl
  · split <;> simp

@[simp] theorem dirRead_words {s : State} {r : Reading} {b : Bytes} : (dirRead s r b).scr.words = s.scr.words := by simp [dirRead]

theorem readFailed_loadHold_words {s : State} {r : Reading} {reason image slot detail : Nat} :
    (readFailed s r (fun s => loadHold s reason image slot detail)).scr.words = s.scr.words := by
  rw [readFailed_loadHold]
  split
  · exact loadHold_words
  · rfl

@[simp] theorem imageRead_words {s : State} {r : Reading} {b : Bytes} : (imageRead s r b).scr.words = s.scr.words := by
  unfold imageRead
  dsimp only
  split
  · split
    · exact readFailed_loadHold_words
    · split <;> simp
  · split
    · split
      · exact readFailed_loadHold_words
      · simp
    · exact loadNext_words

@[simp] theorem imageBlockRead_words {data : Bytes} {s : State} : (imageBlockRead data s).scr.words = s.scr.words := by
  unfold imageBlockRead
  split
  · rfl
  · split
    · rfl
    · simp

@[simp] theorem loadComplete_words {s : State} : (loadComplete s).scr.words = s.scr.words := by simp [loadComplete, enterVerify]

@[simp] theorem showVersions_words {s : State} {fw cfg : Image} : (showVersions s fw cfg).scr.words = s.scr.words := by simp [showVersions]

@[simp] theorem enterApply_words {s : State} {fw cfg : Image} : (enterApply s fw cfg).scr.words = s.scr.words := by simp [enterApply]

@[simp] theorem verifyComplete_words {s : State} : (verifyComplete s).scr.words = s.scr.words := by
  unfold verifyComplete
  split
  · rfl
  · split <;> simp

@[simp] theorem pushSlotProgram_words {nvmOk : Bool} {s : State} : (pushSlotProgram nvmOk s).scr.words = s.scr.words := by
  unfold pushSlotProgram
  split
  · rfl
  · split <;> simp

@[simp] theorem slicesStart_words {s : State} : (slicesStart s).scr.words = s.scr.words := by simp [slicesStart]

@[simp] theorem ptpStart_words {s : State} {counted : Nat} : (ptpStart s counted).scr.words = s.scr.words := by simp [ptpStart]

@[simp] theorem sealUp_words {s : State} {fw cfg : Image} {counted : Nat} : (sealUp s fw cfg counted).scr.words = s.scr.words := by simp [sealUp]

@[simp] theorem applyComplete_words {counted : Nat} {s : State} : (applyComplete counted s).scr.words = s.scr.words := by
  unfold applyComplete
  split <;> simp

@[simp] theorem bringupComplete_words {s : State} : (bringupComplete s).scr.words = s.scr.words := by simp [bringupComplete]

@[simp] theorem rootPllLockTimeout_words {s : State} : (rootPllLockTimeout s).scr.words = s.scr.words := by simp [rootPllLockTimeout]

end Sys2Proof.Machine

/-! Scratch memory (O11): the configuration's records, pushes, and every command. -/

namespace Sys2Proof.Machine

/-! ## The configuration's records (Machine/Boot) -/

@[simp] theorem unsealable_words {s : State} {status : Nat} : (unsealable s status).s.scr.words = s.scr.words := (rfl)

@[simp] theorem recWrite_words {s : State} {a mask v : Nat} : (recWrite s a mask v).s.scr.words = s.scr.words := by
  unfold recWrite
  split
  · rfl
  · dsimp only
    split
    · rfl
    · simp

@[simp] theorem recWhole_words {s : State} {a v : Nat} : (recWhole s a v).s.scr.words = s.scr.words := by
  unfold recWhole
  split
  · rfl
  · split
    · exact recWrite_words
    · rfl

@[simp] theorem recAll_words {f : State → Nat → RecOut} {s : State} {l : List Nat} (hf : ∀ a k, (f a k).s.scr.words = a.scr.words) :
    (recAll f s l).s.scr.words = s.scr.words := by
  induction l generalizing s with
  | nil => rfl
  | cons k l ih =>
    unfold recAll
    dsimp only
    split
    · exact hf s k
    · exact ih.trans (hf s k)

@[simp] theorem preloaded_words {e : Eng} : (preloaded e).s.scr.words = e.s.scr.words := by
  unfold preloaded
  split <;> rfl

@[simp] theorem recEntry_words {s : State} {t i v : Nat} : (recEntry s t i v).s.scr.words = s.scr.words := by
  unfold recEntry
  split
  · split
    · split
      · exact tabPut_words
      · rfl
    · rfl
  · rw [preloaded_words, directWrite_words]

@[simp] theorem recKeyed_words {s : State} {t sub : Nat} {opnd : Bytes} : (recKeyed s t sub opnd).s.scr.words = s.scr.words := by
  rw [recKeyed, preloaded_words, writeEng_words]

@[simp] theorem recStore_words {s : State} {eng : HostCmd → State → Eng} {opcode : Nat} {opnd : Bytes} (heng : ∀ c t, (eng c t).s.scr.words = t.scr.words) :
    (recStore s eng opcode opnd).s.scr.words = s.scr.words := by
  unfold recStore
  dsimp only
  split <;> simp [heng]

@[simp] theorem recPattern_words {s : State} {id : Nat} {e : Bytes} : (recPattern s id e).s.scr.words = s.scr.words := by
  unfold recPattern
  dsimp only
  split
  · exact recStore_words fun _ _ => sigWriteEng_words
  · exact recStore_words fun _ _ => sigInvalidateEng_words

/-- A record whose form is right is applied, and any other is refused. -/
theorem recIf_words {s : State} {c : Prop} {d : Decidable c} {o : RecOut} (h : o.s.scr.words = s.scr.words) :
    (@ite _ c d o (unsealable s)).s.scr.words = s.scr.words := by
  split
  · exact h
  · rfl

@[simp] theorem recPreload_words {s : State} {typ : Nat} {b : Bytes} : (recPreload s typ b).s.scr.words = s.scr.words := by
  unfold recPreload
  split
  · exact recIf_words (recAll_words fun _ _ => recEntry_words)
  · exact recIf_words (recAll_words fun _ _ => recKeyed_words)
  · exact recIf_words (recAll_words fun _ _ => recPattern_words)
  · exact recIf_words (recStore_words fun _ _ => sigProfileEng_words)

@[simp] theorem recRegs_words {s : State} {typ : Nat} {b : Bytes} : (recRegs s typ b).s.scr.words = s.scr.words := by
  unfold recRegs
  split
  · exact recIf_words (recAll_words fun _ _ => recWrite_words)
  · exact recIf_words (recAll_words fun _ _ => recWhole_words)
  · dsimp only
    split
    · rfl
    · exact recAll_words fun _ _ => recWhole_words

@[simp] theorem recEnd_words {s : State} {b rest : Bytes} : (recEnd s b rest).s.scr.words = s.scr.words := by
  unfold recEnd
  dsimp only
  split
  · rfl
  · split
    · rfl
    · split <;> rfl

@[simp] theorem recBody_words {s : State} {typ : Nat} {b rest : Bytes} : (recBody s typ b rest).s.scr.words = s.scr.words := by
  unfold recBody
  split
  · split <;> rfl
  all_goals simp

@[simp] theorem recStep_words {p : Bytes} {s : State} : (recStep p s).s.scr.words = s.scr.words := by
  unfold recStep
  dsimp only
  split
  · rfl
  · split
    · rfl
    · split
      · rfl
      · split <;> exact recBody_words

@[simp] theorem configRecord_words {s : State} : (configRecord s).scr.words = s.scr.words := by
  unfold configRecord
  split
  · rfl
  · split
    · rfl
    · dsimp only
      split <;> simp

/-! ## Pushes and the way out of HOLD (Machine/Boot) -/

@[simp] theorem unsealAll_words {s : State} : (unsealAll s).scr.words = s.scr.words := by simp [unsealAll]

@[simp] theorem enterVerify_words {s : State} : (enterVerify s).scr.words = s.scr.words := by simp [enterVerify]

@[simp] theorem loadBegin_words {s : State} : (loadBegin s).scr.words = s.scr.words := (rfl)

@[simp] theorem pushAccept_words {s : State} {typ slot : Nat} {program : Bool} {x : Image} : (pushAccept s typ slot program x).scr.words = s.scr.words := by
  simp [pushAccept]

@[simp] theorem tokenAct_words {s : State} {x : Image} : (tokenAct s x).scr.words = s.scr.words := by
  unfold tokenAct
  dsimp only
  split <;> simp

@[simp] theorem enrolAct_words {s : State} {x : Image} : (enrolAct s x).scr.words = s.scr.words := by simp [enrolAct]

@[simp] theorem pushComplete_words {dmaOk : Bool} {data : Bytes} {s : State} : (pushComplete dmaOk data s).scr.words = s.scr.words := by
  unfold pushComplete
  split
  · rfl
  · dsimp only
    split
    · simp
    · split
      · simp
      · split
        · simp
        · split <;> simp

/-- The state in which loading begins anew: nothing that an image wrote, and no push. -/
def rereadBegun (s : State) (v : Nat) : State :=
  let u := unsealAll (writeRw s Reg.BOOT_HOLD_CTL v 0xE)
  setB { u with boot := { u.boot with fw := none, cfg := none, dir := none, push := none, toProgram := none, part := {} } } Reg.BOOT_PUSH_STAT_BUSY false

theorem rereadBegun_words {s : State} {v : Nat} : (rereadBegun s v).scr.words = s.scr.words := by
  rw [rereadBegun, setB_scr]
  exact unsealAll_words.trans (congrArg ScrSt.words (wr_scr ..))

theorem reread_holds {s : State} {v : Nat} (h : ¬(s.top != .hold) = true) : reread v s = settle s (loadBegin (leaveHold (wearShow (rereadBegun s v)) .load)) :=
  if_neg h

@[simp] theorem reread_words {v : Nat} {s : State} : (reread v s).scr.words = s.scr.words := by
  by_cases h : (s.top != .hold) = true
  · have hout : reread v s = if powered s then pwfTarget s Reg.BOOT_HOLD_CTL v else s := if_pos h
    rw [hout]
    simp
  · rw [reread_holds h, settle_scr, loadBegin_words, leaveHold_words, wearShow_words, rereadBegun_words]

/-! ## The commands -/

theorem exec_words {c : Instr} (h : writesScratch c = false) (s : State) : ∃ t, exec c s = .next t ∧ t.scr.words = s.scr.words :=
  match c, h with
  | .vinDip, _ => ⟨_, rfl, vinDip_words⟩
  | .vinWarn, _ => ⟨_, rfl, vinWarn_words⟩
  | .resetExit _ ⟨_, _⟩, _ => ⟨_, rfl, resetExit_words⟩
  | .nvmIdAttempt _ _, _ => ⟨_, rfl, nvmIdAttempt_words⟩
  | .imageBlockRead _, _ => ⟨_, rfl, imageBlockRead_words⟩
  | .loadComplete, _ => ⟨_, rfl, loadComplete_words⟩
  | .verifyComplete, _ => ⟨_, rfl, verifyComplete_words⟩
  | .configRecord, _ => ⟨_, rfl, configRecord_words⟩
  | .applyComplete _, _ => ⟨_, rfl, applyComplete_words⟩
  | .bringupComplete, _ => ⟨_, rfl, bringupComplete_words⟩
  | .rootPllLockTimeout, _ => ⟨_, rfl, rootPllLockTimeout_words⟩
  | .pllLocked _, _ => ⟨_, rfl, pllLocked_words⟩
  | .rampStep, _ => ⟨_, rfl, rampStep_words⟩
  | .stairTransfer _ _ _ _, _ => ⟨_, rfl, stairTransfer_words⟩
  | .lineLaneCalibration _ _ _, _ => ⟨_, rfl, lineLaneCalibration_words⟩
  | .linkTrainingDone _ _, _ => ⟨_, rfl, linkTrainingDone_words⟩
  | .linkTrainingRetry _, _ => ⟨_, rfl, linkTrainingRetry_words⟩
  | .retrain _, _ => ⟨_, rfl, retrain_words⟩
  | .admin _ _, _ => ⟨_, rfl, admin_words⟩
  | .lineFrameReceive _ _ _ _ _ ⟨_, _⟩, _ => ⟨_, rfl, lineFrameReceive_words⟩
  | .macControlFrame _ _, _ => ⟨_, rfl, macControlFrame_words⟩
  | .pauseTimerExpire _ _, _ => ⟨_, rfl, pauseTimerExpire_words⟩
  | .pfcRefresh _, _ => ⟨_, rfl, pfcRefresh_words⟩
  | .pfcStormDetect _ _, _ => ⟨_, rfl, pfcStormDetect_words⟩
  | .pfcStormRestore _ _, _ => ⟨_, rfl, pfcStormRestore_words⟩
  | .linkFaultDetect ⟨_, _⟩, _ => ⟨_, rfl, linkFaultDetect_words⟩
  | .remoteFaultReceived _, _ => ⟨_, rfl, remoteFaultReceived_words⟩
  | .synceResume _, _ => ⟨_, rfl, synceResume_words⟩
  | .fragEntryAge _ _ _, _ => ⟨_, rfl, fragEntryAge_words⟩
  | .fragFlush _, _ => ⟨_, rfl, fragFlush_words⟩
  | .scanWindow _ ⟨_, _⟩, _ => ⟨_, rfl, scanWindow_words⟩
  | .sigWrite _, _ => ⟨_, rfl, sigWrite_words⟩
  | .sigInvalidate _, _ => ⟨_, rfl, sigInvalidate_words⟩
  | .sigProfile _, _ => ⟨_, rfl, sigProfile_words⟩
  | .sigClear _, _ => ⟨_, rfl, sigClear_words⟩
  | .sigCopy _, _ => ⟨_, rfl, sigCopy_words⟩
  | .sigCopyDone, _ => ⟨_, rfl, sigCopyDone_words⟩
  | .sigSwap _, _ => ⟨_, rfl, sigSwap_words⟩
  | .sigSwapInstant, _ => ⟨_, rfl, sigSwapInstant_words⟩
  | .sigRead _ _, _ => ⟨_, rfl, sigRead_words⟩
  | .sigCancel, _ => ⟨_, rfl, sigCancel_words⟩
  | .oldBankDrained, _ => ⟨_, rfl, oldBankDrained_words⟩
  | .sigEntryRepair _ _ _, _ => ⟨_, rfl, sigEntryRepair_words⟩
  | .insert _, _ => ⟨_, rfl, insertEntry_words⟩
  | .delete _, _ => ⟨_, rfl, deleteEntry_words⟩
  | .modify _, _ => ⟨_, rfl, modify_words⟩
  | .search _, _ => ⟨_, rfl, search_words⟩
  | .next _, _ => ⟨_, rfl, nextEntry_words⟩
  | .readEntry _, _ => ⟨_, rfl, readEntry_words⟩
  | .move _, _ => ⟨_, rfl, move_words⟩
  | .flushByPort _, _ => ⟨_, rfl, flushByPort_words⟩
  | .flushByPortDone, _ => ⟨_, rfl, flushByPortDone_words⟩
  | .nop _, _ => ⟨_, rfl, nop_words⟩
  | .learnBusMsg, _ => ⟨_, rfl, learnBusMsg_words⟩
  | .learnRefreshMsg, _ => ⟨_, rfl, learnRefreshMsg_words⟩
  | .ageSweep _ _, _ => ⟨_, rfl, ageSweep_words⟩
  | .trieNodeRebuild, _ => ⟨_, rfl, trieNodeRebuild_words⟩
  | .policerSweep, _ => ⟨_, rfl, policerSweep_words⟩
  | .recircSlot _, _ => ⟨_, rfl, recircSlot_words⟩
  | .hallRelease _, _ => ⟨_, rfl, hallRelease_words⟩
  | .egressPass _, _ => ⟨_, rfl, egressPass_words⟩
  | .bufferArrival _, _ => ⟨_, rfl, bufferArrival_words⟩
  | .dramReadComplete _ _ _ _ _, _ => ⟨_, rfl, dramReadComplete_words⟩
  | .dramWriteComplete _ _ _ _, _ => ⟨_, rfl, dramWriteComplete_words⟩
  | .mergeTimeout _, _ => ⟨_, rfl, mergeTimeout_words⟩
  | .tagWriteback ⟨_, _, _⟩, _ => ⟨_, rfl, tagWriteback_words⟩
  | .wmCrossedClear _ _, _ => ⟨_, rfl, wmCrossedClear_words⟩
  | .qwmConfig _ _, _ => ⟨_, rfl, qwmConfig_words⟩
  | .requestRetry _, _ => ⟨_, rfl, requestRetry_words⟩
  | .creditGrant _, _ => ⟨_, rfl, creditGrant_words⟩
  | .voqTimeout _, _ => ⟨_, rfl, voqTimeout_words⟩
  | .voqDequeue _, _ => ⟨_, rfl, voqDequeue_words⟩
  | .egressSelect _ _, _ => ⟨_, rfl, egressSelect_words⟩
  | .calendarSlot, _ => ⟨_, rfl, calendarSlot_words⟩
  | .fenceLift _, _ => ⟨_, rfl, fenceLift_words⟩
  | .fenceTimeout _, _ => ⟨_, rfl, fenceTimeout_words⟩
  | .gateEntryChange _, _ => ⟨_, rfl, gateEntryChange_words⟩
  | .gateEnable _ _, _ => ⟨_, rfl, gateEnable_words⟩
  | .gateChange _, _ => ⟨_, rfl, gateChange_words⟩
  | .gateCancel _, _ => ⟨_, rfl, gateCancel_words⟩
  | .gateActivate _, _ => ⟨_, rfl, gateActivate_words⟩
  | .stagedFrameStart _ _, _ => ⟨_, rfl, stagedFrameStart_words⟩
  | .gateNofit _ _, _ => ⟨_, rfl, gateNofit_words⟩
  | .epochWindow, _ => ⟨_, rfl, epochWindow_words⟩
  | .fabricLaneCalibration _ _ _, _ => ⟨_, rfl, fabricLaneCalibration_words⟩
  | .fabricTrainingRetry _ _, _ => ⟨_, rfl, fabricTrainingRetry_words⟩
  | .caravanFrameSend _, _ => ⟨_, rfl, caravanFrameSend_words⟩
  | .caravanFrameReceive _ _ _ _ _, _ => ⟨_, rfl, by simp⟩
  | .slipRead _ ⟨_, _⟩, _ => ⟨_, rfl, by simp⟩
  | .cellReceive _ _, _ => ⟨_, rfl, cellReceive_words⟩
  | .holeTimeout _ _ _, _ => ⟨_, rfl, holeTimeout_words⟩
  | .contextFree _ _ _, _ => ⟨_, rfl, contextFree_words⟩
  | .defectDeclare _ _ _, _ => ⟨_, rfl, by simp⟩
  | .defectClear _ _ _, _ => ⟨_, rfl, by simp⟩
  | .degInterval _ _, _ => ⟨_, rfl, degInterval_words⟩
  | .bkpWatchdog _ _, _ => ⟨_, rfl, bkpWatchdog_words⟩
  | .protClear, _ => ⟨_, rfl, protClear_words⟩
  | .protManualSwitch _, _ => ⟨_, rfl, protManualSwitch_words⟩
  | .protForcedSwitch _, _ => ⟨_, rfl, protForcedSwitch_words⟩
  | .protLockout, _ => ⟨_, rfl, protLockout_words⟩
  | .protTest, _ => ⟨_, rfl, protTest_words⟩
  | .wtrExpire, _ => ⟨_, rfl, wtrExpire_words⟩
  | .srqIncDeclare, _ => ⟨_, rfl, srqIncDeclare_words⟩
  | .pmSecond, _ => ⟨_, rfl, pmSecond_words⟩
  | .dramTraining _ _, _ => ⟨_, rfl, dramTraining_words⟩
  | .dramRefresh ⟨_, _⟩, _ => ⟨_, rfl, dramRefresh_words⟩
  | .dramTempReadout _ _, _ => ⟨_, rfl, dramTempReadout_words⟩
  | .retrainDue _, _ => ⟨_, rfl, retrainDue_words⟩
  | .drcRetrain _, _ => ⟨_, rfl, drcRetrain_words⟩
  | .pauseBegin _, _ => ⟨_, rfl, pauseBegin_words⟩
  | .pauseEnd _ _, _ => ⟨_, rfl, pauseEnd_words⟩
  | .dramTestStep _ _ _, _ => ⟨_, rfl, dramTestStep_words⟩
  | .lease _ ⟨_, _⟩ _ _, _ => ⟨_, rfl, landing_words⟩
  | .standby ⟨_, _⟩ _ _, _ => ⟨_, rfl, landing_words⟩
  | .switch ⟨_, _⟩ _ _, _ => ⟨_, rfl, landing_words⟩
  | .withdraw ⟨_, _⟩ _ _, _ => ⟨_, rfl, landing_words⟩
  | .arbLoss, _ => ⟨_, rfl, arbLoss_words⟩
  | .leaseExpire, _ => ⟨_, rfl, leaseExpire_words⟩
  | .healthSend, _ => ⟨_, rfl, healthSend_words⟩
  | .helloSend, _ => ⟨_, rfl, helloSend_words⟩
  | .faultMsgSend, _ => ⟨_, rfl, faultMsgSend_words⟩
  | .galleryHelloSend, _ => ⟨_, rfl, galleryHelloSend_words⟩
  | .galleryHelloReceive _ _ _ _, _ => ⟨_, rfl, galleryHelloReceive_words⟩
  | .galleryLoss, _ => ⟨_, rfl, galleryLoss_words⟩
  | .cmdItemApply _, _ => ⟨_, rfl, cmdItemApply_words⟩
  | .nackReceive ⟨_, _⟩, _ => ⟨_, rfl, nackReceive_words⟩
  | .ackStall, _ => ⟨_, rfl, ackStall_words⟩
  | .stateSnapshot, _ => ⟨_, rfl, stateSnapshot_words⟩
  | .stateRecordApply _, _ => ⟨_, rfl, stateRecordApply_words⟩
  | .baselineLatch, _ => ⟨_, rfl, baselineLatch_words⟩
  | .baselineApply _ _ _, _ => ⟨_, rfl, baselineApply_words⟩
  | .resync _, _ => ⟨_, rfl, resync_words⟩
  | .replayRegion ⟨_, _⟩, _ => ⟨_, rfl, replayRegion_words⟩
  | .resyncComplete _, _ => ⟨_, rfl, resyncComplete_words⟩
  | .standbyProbe, _ => ⟨_, rfl, standbyProbe_words⟩
  | .marginMeasure _, _ => ⟨_, rfl, marginMeasure_words⟩
  | .partnerFaultRecord _, _ => ⟨_, rfl, partnerFaultRecord_words⟩
  | .reread _, _ => ⟨_, rfl, reread_words⟩
  | .pushStart _, _ => ⟨_, rfl, pushStart_words⟩
  | .pushComplete _ _, _ => ⟨_, rfl, pushComplete_words⟩
  | .pushSlotProgram _, _ => ⟨_, rfl, pushSlotProgram_words⟩
  | .commitFw, _ => ⟨_, rfl, arbCtl_words⟩
  | .commitCfg, _ => ⟨_, rfl, arbCtl_words⟩
  | .keyRevoke _, _ => ⟨_, rfl, keyRevoke_words⟩
  | .toField _, _ => ⟨_, rfl, toField_words⟩
  | .stageStart _, _ => ⟨_, rfl, stageStart_words⟩
  | .stagingDone _ _ _ ⟨_, _⟩, _ => ⟨_, rfl, stagingDone_words⟩
  | .prepareDone, _ => ⟨_, rfl, prepareDone_words⟩
  | .arm _, _ => ⟨_, rfl, arm_words⟩
  | .disarm _, _ => ⟨_, rfl, disarm_words⟩
  | .activation, _ => ⟨_, rfl, activation_words⟩
  | .firmwareSwapDone, _ => ⟨_, rfl, firmwareSwapDone_words⟩
  | .confirm _, _ => ⟨_, rfl, confirmTrial_words⟩
  | .abandon _, _ => ⟨_, rfl, abandon_words⟩
  | .discard _, _ => ⟨_, rfl, updDiscard_words⟩
  | .trialExpire, _ => ⟨_, rfl, trialExpire_words⟩
  | .fallbackStart, _ => ⟨_, rfl, fallbackStart_words⟩
  | .refClockLoss _, _ => ⟨_, rfl, refClockLoss_words⟩
  | .refClockReturn _, _ => ⟨_, rfl, refClockReturn_words⟩
  | .pllLoss _, _ => ⟨_, rfl, by simp⟩
  | .clkFreqAlarm _ _, _ => ⟨_, rfl, by simp⟩
  | .ppsInLoss, _ => ⟨_, rfl, ppsInLoss_words⟩
  | .cd38Loss, _ => ⟨_, rfl, cd38Loss_words⟩
  | .relockFd, _ => ⟨_, rfl, clkCtl_words⟩
  | .relockQd, _ => ⟨_, rfl, clkCtl_words⟩
  | .rootRelockDone _ _, _ => ⟨_, rfl, rootRelockDone_words⟩
  | .timSet _, _ => ⟨_, rfl, timSet_words⟩
  | .timAdd _, _ => ⟨_, rfl, timAdd_words⟩
  | .timIncrCommit _, _ => ⟨_, rfl, timIncrCommit_words⟩
  | .ppsOutEdge _, _ => ⟨_, rfl, ppsOutEdge_words⟩
  | .ppsInEdge _, _ => ⟨_, rfl, ppsInEdge_words⟩
  | .clkoutConfig _, _ => ⟨_, rfl, clkoutConfig_words⟩
  | .railOut _ _ _, _ => ⟨_, rfl, railOut_words⟩
  | .railRecover, _ => ⟨_, rfl, railRecover_words⟩
  | .tripRecover, _ => ⟨_, rfl, tripRecover_words⟩
  | .vbatCollapse, _ => ⟨_, rfl, vbatCollapse_words⟩
  | .holdoverWrite, _ => ⟨_, rfl, holdoverWrite_words⟩
  | .clrRec, _ => ⟨_, rfl, clrRec_words⟩
  | .vio18Overload, _ => ⟨_, rfl, vio18Overload_words⟩
  | .telemetryUpdate _ _ _ _ _ _ _, _ => ⟨_, rfl, telemetryUpdate_words⟩
  | .sliceAdd, _ => ⟨_, rfl, sliceAdd_words⟩
  | .sliceRemove, _ => ⟨_, rfl, sliceRemove_words⟩
  | .sliceSleep, _ => ⟨_, rfl, sliceSleep_words⟩
  | .drainEnd _ _, _ => ⟨_, rfl, drainEnd_words⟩
  | .enteringDone _, _ => ⟨_, rfl, enteringDone_words⟩
  | .wakeDone _, _ => ⟨_, rfl, wakeDone_words⟩
  | .join _, _ => ⟨_, rfl, join_words⟩
  | .maintGrant _ _, _ => ⟨_, rfl, maintGrant_words⟩
  | .maintDeadline _ _, _ => ⟨_, rfl, maintDeadline_words⟩
  | .prodDoorbell _ _ _, _ => ⟨_, rfl, prodDoorbell_words⟩
  | .consDoorbell _ _ _, _ => ⟨_, rfl, consDoorbell_words⟩
  | .ringEnable _ _ _, _ => ⟨_, rfl, ringEnable_words⟩
  | .ringDisable _ _ _ _, _ => ⟨_, rfl, ringDisable_words⟩
  | .flush _ _ _ _, _ => ⟨_, rfl, ringFlushCmd_words⟩
  | .commandFetch _ _ _, _ => ⟨_, rfl, commandFetch_words⟩
  | .msixHoldoffEnd _ _, _ => ⟨_, rfl, msixHoldoffEnd_words⟩
  | .flr _, _ => ⟨_, rfl, flr_words⟩
  | .pciePerst, _ => ⟨_, rfl, pciePerst_words⟩
  | .txDescriptor _ _ _ _, _ => ⟨_, rfl, txDescriptor_words⟩
  | .hostFrameDeliver, _ => ⟨_, rfl, hostFrameDeliver_words⟩
  | .bar2Write _ _, _ => ⟨_, rfl, bar2Write_words⟩
  | .pwfClear, _ => ⟨_, rfl, pwfClear_words⟩
  | .grant _ _ _, _ => ⟨_, rfl, grant_words⟩
  | .msixSizeWrite _ _, _ => ⟨_, rfl, msixSizeWrite_words⟩
  | .faultCollect, _ => ⟨_, rfl, by simp⟩
  | .fltStatusClear _, _ => ⟨_, rfl, by simp⟩
  | .firstFaultClear, _ => ⟨_, rfl, firstFaultClear_words⟩
  | .ringRdWrite _, _ => ⟨_, rfl, ringRdWrite_words⟩
  | .nvlogAppend, _ => ⟨_, rfl, nvlogAppend_words⟩
  | .nvlogRead _, _ => ⟨_, rfl, nvlogRead_words⟩
  | .pairRead _, _ => ⟨_, rfl, pairRead_words⟩
  | .dumpEpoch _, _ => ⟨_, rfl, dumpEpoch_words⟩
  | .dumpWrite _, _ => ⟨_, rfl, dumpWrite_words⟩
  | .perfTenantWrite _ _, _ => ⟨_, rfl, perfTenantWrite_words⟩
  | .laneTestConfig _ _, _ => ⟨_, rfl, laneTestConfig_words⟩
  | .checkerLockChange _ _, _ => ⟨_, rfl, checkerLockChange_words⟩
  | .probeGo _, _ => ⟨_, rfl, probeGo_words⟩
  | .probeCapture _ _, _ => ⟨_, rfl, probeCapture_words⟩
  | .probeTimeout _, _ => ⟨_, rfl, probeTimeout_words⟩
  | .faultInject _, _ => ⟨_, rfl, faultInject_words⟩
  | .memoryInjectArm _, _ => ⟨_, rfl, memoryInjectArm_words⟩
  | .fabricLinkTrainingDone _ _ _, _ => ⟨_, rfl, fabricLinkTrainingDone_words⟩
  | .galleryLaneCalibration _ _, _ => ⟨_, rfl, galleryLaneCalibration_words⟩
  | .linkFaultClear _, _ => ⟨_, rfl, linkFaultClear_words⟩
  | .remoteFaultClear _, _ => ⟨_, rfl, remoteFaultClear_words⟩
  | .vbatLow _, _ => ⟨_, rfl, vbatLow_words⟩
  | .vio18Recover, _ => ⟨_, rfl, vio18Recover_words⟩
  | .pcieLinkChange _ _ _ _ _ _, _ => ⟨_, rfl, pcieLinkChange_words⟩
  | .pciePerstRelease, _ => ⟨_, rfl, pciePerstRelease_words⟩
  | .pllLockFail _, _ => ⟨_, rfl, pllLockFail_words⟩
  | .accessExpired _ _ _ _, _ => ⟨_, rfl, accessExpired_words⟩
  | .checkerBitError _ _, _ => ⟨_, rfl, checkerBitError_words⟩
  | .vinGood _, h | .vinFail, h | .vinWarnClear, h | .resetLLow, h | .ingressPass _ _ _ _, h | .restartAct _, h | .fallbackDone, h
  | .tempSensorRead _, h | .sharedScratchOp _, h | .scrWindowWrite _ _, h | .scrAliasSet _ _, h | .scrAliasClear _ _, h | .scrAtomicAdd, h
  | .scrAtomicSwap, h | .scrTestStep _ _, h | .tapReset, h | .extest, h | .idcode, h | .samplePreload, h | .extestPulse, h | .extestTrain, h | .clamp, h
  | .highz, h | .serial, h | .mbist, h | .otpRead, h | .scan, h | .bypass, h | .devReset _, h | .registerWrite _ _ _ _, h | .readClear _ _ _, h
  | .loReadLatch _ _, h | .hiWriteCommit _ _ _, h => nomatch h

/-- Settles O11: what every function but those of the listed commands leaves alone. -/
theorem scratchStoreFrame : Obligations.ScratchStoreFrame := by
  unfold Obligations.ScratchStoreFrame
  intro c s t hc ht
  obtain ⟨u, hu, hwords⟩ := exec_words hc s
  cases ht.symm.trans hu
  exact hwords

end Sys2Proof.Machine
